-- ==== Sys2Proof/Word.lean ====
section
/-! DEFINITION. The word types of the Z640 (00 R7, R10; 03 R64): bytes of memory, 40-bit packet words and addresses,
and the 64-bit slots of register space; and its two sides. -/
namespace Sys2Proof

/-- A byte of memory. -/
abbrev Byte := BitVec 8

/-- A 40-bit word: a packet word (R64), a signal word in Q20.20 (R7), a time word (R9), or a physical address. -/
abbrev Word40 := BitVec 40

/-- The value of a register access: a 32-bit control register or a 64-bit slot (R10, R11). -/
abbrev Word64 := BitVec 64

/-- The two complete halves of the module (01, What each side owns). -/
inductive Side where
  | a | b
  deriving DecidableEq, Repr

/-- The other side. -/
def Side.other : Side → Side
  | .a => .b
  | .b => .a

/-- 0 for Side A and 1 for Side B. -/
def Side.num : Side → Nat
  | .a => 0
  | .b => 1

/-- Who makes an access on a side (10 R293 codes, 15 R420): an application core, a core of the safety pair, a DMA channel,
the Stoker for a packet of world w, the Poker port for a scope world, or an initiator of the other side, with the code and
the world that its bridge transaction carries. -/
inductive Origin where
  | hart (h : Fin 4)
  | pair (c : Fin 2)
  | dma (n : Fin 32)
  | stoker (w : Fin 8)
  | poker (w : Fin 8)
  | far (init : Fin 16) (w : Fin 8)
  deriving DecidableEq, Repr

/-- The width of a write (R11, R31). -/
inductive Width where
  | w8 | w16 | w32 | w64
  deriving DecidableEq, Repr

/-- What the ECC of a memory finds as a word is read (R28, R29): nothing, a single-bit error, or an uncorrectable one. -/
inductive Ecc where
  | clean | corrected | lost
  deriving DecidableEq, Repr

/-- The operation of an AMO of the application cores (R20, R25). -/
inductive AmoOp where
  | swap | add | xor | and | or | min | max | minu | maxu
  deriving DecidableEq, Repr

/-- The kind of an access that has no row of its own (R12, R25): a store, a load, a load-reserved, a store-conditional or an AMO, where what
is read carries what the ECC finds; and a read or a write of the CSR whose number stands as the address (R421, R422). -/
inductive AccKind where
  | store
  | load (e : Ecc)
  | lr (e : Ecc)
  | sc
  | amo (op : AmoOp) (e : Ecc)
  | csrRead
  | csrWrite
  deriving DecidableEq, Repr

/-- A unit with a boundary and a proxy responder (02, Units that go away), as SYS_UNIT_RESET names the ones it can reset
(R90): a grate die, the Flue die, a local CAN channel of a side, the DMA engine of a side, or the LIFE unit of a side. -/
inductive UnitId where
  | grate (d : Fin 4)
  | flue
  | can (x : Side) (k : Fin 6)
  | dma (x : Side)
  | life (x : Side)
  deriving DecidableEq, Repr

/-- What the measurement front end converts for one channel at a sample tick (R187): current, output voltage, junction
temperature, each a signal word. -/
structure Sample where
  amps : Word40
  volts : Word40
  temp : Word40
  deriving DecidableEq, Repr

/-- A rail group of the supply die (R17). -/
inductive RailGroup where
  | a | b | shared
  deriving DecidableEq, Repr

/-- A CAN frame as a controller sees it (R374): the header words 0 to 3 of its element, and its data. `xl` frames carry the
XL fields in words 2 and 3. -/
structure CanFrame where
  h0 : BitVec 32
  h1 : BitVec 32
  h2 : BitVec 32
  h3 : BitVec 32
  data : List Byte
  deriving DecidableEq, Repr

/-- What confirms a wake (R147): an event of KL15, of a LOC input or of the RTC, a frame on CAN channel `k`, link up on switch port `p`,
or a SYS_STATE_SET with target 3. -/
inductive Confirm where
  | kl15
  | loc (n : Fin 4)
  | rtc
  | canFrame (k : Fin 12) (fr : CanFrame)
  | linkUp (p : Fin 17)
  | stateSet
  deriving DecidableEq, Repr

/-- How an attempt to send a CAN frame ends (R381): sent, arbitration lost, or an error with its LAST_ERR code, whether it came in the arbitration
field, and how often the sender finds a further error in its error flag (R386). -/
inductive TxOutcome where
  | sent
  | lost
  | error (code : Fin 8) (arb : Bool) (again : Fin 32)
  deriving DecidableEq, Repr

/-- An Ethernet frame at a MAC: its bytes from the destination address, without FCS, and whether its FCS and PHY coding
were correct (R333 check 2). -/
structure EthFrame where
  bytes : List Byte
  good : Bool
  deriving DecidableEq, Repr

/-- A link whose state changes: a switch port (R345) or a lifeline port (R324). -/
inductive LinkId where
  | port (p : Fin 17)
  | life (x : Side)
  deriving DecidableEq, Repr

/-- A performance event (R474 to R476): its code, its initiator, the world it carries, the privilege of a hart (bit number in PRIV),
the address it carries if any, and whether a wrong-path instruction or a prefetch caused it. -/
structure PerfEvent where
  code : BitVec 8
  init : Fin 16
  world : Fin 8
  priv : Fin 5
  addr : Option Word40
  marked : Bool
  deriving DecidableEq, Repr

/-- The spark matchers (R233): one on each side and one on the Flue die. -/
inductive Matcher where
  | side (x : Side)
  | flue
  deriving DecidableEq, Repr

/-- A bridge transaction that a bridge event names: an outstanding one by its tag, or a read by its initiator and address,
issued at that event. -/
inductive BridgeRef where
  | tag (t : Fin 16)
  | read (o : Origin) (addr : Word40) (wide : Bool)
  deriving DecidableEq, Repr

/-- A received Sync as Bellows sees it (R400, R403, R405): its domainNumber, the master's time at its departure in 1/1024 ns, its correctionField with
that of its Follow_Up in 2^-16 ns, the MAC receive stamp on the domain's time in 1/1024 ns, whether it came one-step, and whether it passed the
validation of a protected port (R357). -/
structure SyncMsg where
  domainNumber : Byte
  origin : Int
  correction : Int
  stamp : Int
  oneStep : Bool
  passed : Bool
  deriving DecidableEq, Repr

/-- An Announce message that has not timed out (R397): its receiving port, domainNumber, the grandmaster's priority1, clockQuality (clockClass,
clockAccuracy, offsetScaledLogVariance), priority2 and clockIdentity, stepsRemoved, the sender's portIdentity and its path trace. -/
structure Announce where
  port : Fin 14
  domainNumber : Byte
  priority1 : Byte
  quality : BitVec 32
  priority2 : Byte
  gmId : Word64
  steps : BitVec 16
  source : BitVec 80
  path : List Word64
  deriving DecidableEq, Repr

/-- The response to a peer delay request: the mean link delay that it gives, Q20.20 ns, and the responder's clockIdentity. -/
structure PdelayResp where
  delay : Word40
  responder : Word64
  deriving DecidableEq, Repr

/-- Instructions of the debug port's TAP (R450, R452). -/
inductive TapInstr where
  | bypass | sample | extest
  deriving DecidableEq, Repr

/-- What comes through the debug port's TAP (R452): a hart halted, stepped or resumed, an instruction loaded, or a data register scanned with the bits
shifted in while the signal pins of J1 stand at the levels `pins`, in the order of the chain. -/
inductive DebugAct where
  | halt | step | resume
  | instr (i : TapInstr)
  | scan (bits pins : List Bool)
  deriving DecidableEq, Repr

end Sys2Proof
end

