-- ==== Sys2Proof/Syntax.lean ====
section
/-! DEFINITION. The commands of the block: one constructor for each row of the table of operations and events, with what the
row's event carries. `x` is the side concerned, `o` who makes an access; the docstring of each constructor gives its rule. -/
namespace Sys2Proof

/-- A command (a packet in hand, a register access, or an event of the module or its surroundings). -/
inductive Instr where
  /-- NOP (R89): Packet that does nothing and is answered OK. -/
  | nop (x : Side)
  /-- SYS_INFO (R89): Returns the Chromir build, serial, active overlays, tokens held and limp clock flag. -/
  | sysInfo (x : Side)
  /-- SYS_STATE_SET (R140): Requests a module power-state change after a delay, subject to EMBER_GATE. -/
  | sysStateSet (x : Side)
  /-- SYS_STATE_GET (R89): Returns the power state, which sides are up and the time in state. -/
  | sysStateGet (x : Side)
  /-- SYS_UNIT_RESET (R90): Resets a CAN channel, the DMA engine, the LIFE unit, a grate die or the Flue die. -/
  | sysUnitReset (x : Side)
  /-- SYS_ECHO (R89): Returns its parameter words unchanged, with TARGET echoed in DETAIL. -/
  | sysEcho (x : Side)
  /-- CFG_MODE_SET (R119): Sets and clears bits of the commanded overlay mask; replies after the commit that applies them. -/
  | cfgModeSet (x : Side)
  /-- CFG_MODE_GET (R91): Returns the active, commanded and hardware overlay masks. -/
  | cfgModeGet (x : Side)
  /-- CFG_FIELD_READ (R514): Reads the merged, base or overlay value of one configurable field, with its merge class. -/
  | cfgFieldRead (x : Side)
  /-- CFG_FIELD_WRITE (R127): Writes a base or overlay value into the working copy; replies at the commit tick of its snapshot. -/
  | cfgFieldWrite (x : Side)
  /-- CFG_IMAGE_LOAD (R123): Verifies an image and writes it into the unused NOR bank of a slot, then moves the bank pointer. -/
  | cfgImageLoad (x : Side) (good : Bool) (lost : Option Word40) (corr : Option Word40)
  /-- CFG_IMAGE_VERIFY (R91): Verifies the image stored in a slot and returns its version. -/
  | cfgImageVerify (x : Side)
  /-- CH_SET (R192): Turns a load channel on or off in static mode, judged by the Damper. -/
  | chSet (x : Side) (d : Fin 4)
  /-- CH_PWM (R192): Sets PWM duty, frequency, compensation and phase of a channel, or turns it off with DUTY 0. -/
  | chPwm (x : Side) (d : Fin 4)
  /-- CH_CONFIG (R194): Sets a channel's commanded current limit and retry policy. -/
  | chConfig (x : Side)
  /-- CH_QUERY (R92): Returns channel state and the latest current, voltage and junction temperature. -/
  | chQuery (x : Side) (d : Fin 4)
  /-- CH_CLEAR (R176): Clears a latch-off and/or the diagnostic flags of a channel. -/
  | chClear (x : Side)
  /-- CH_GROUP_SET (R93): Sets selected channels of one die on or off in one Damper decision. -/
  | chGroupSet (x : Side) (d : Fin 4)
  /-- CH_MEASURE (R195): Opens a measurement window of WINDOW sample ticks on a channel. -/
  | chMeasure (x : Side)
  /-- CH_MEASURE_WINDOW_END (R195): The measurement window holds WINDOW ticks and the means, peaks, energy and wire rise are replied. -/
  | chMeasureWindowEnd (d : Fin 4) (n : Fin 16)
  /-- DMP_STATUS (R94): Returns module and feed currents, dissipation, coolant temperature and DERATE/RIDE flags. -/
  | dmpStatus (x : Side)
  /-- DMP_PRIORITY_SET (R217): Sets a channel's budget priority and hold time. -/
  | dmpPrioritySet (x : Side)
  /-- DMP_WIRE_QUERY (R231): Returns the wire model rise, trip threshold and trip state of a channel. -/
  | dmpWireQuery (x : Side)
  /-- DMP_HARNESS_READ (R94): Returns the valid harness record of a channel, or zeros. -/
  | dmpHarnessRead (x : Side)
  /-- DMP_HARNESS_BURN (R202): Burns a harness record into the next unused OTP slot and reads it back. -/
  | dmpHarnessBurn (x : Side) (good : Bool)
  /-- SPK_RULE_WRITE (R250): Writes a spark rule record between two source events. -/
  | spkRuleWrite (x : Side)
  /-- SPK_RULE_ENABLE (R250): Enables or disables a spark rule. -/
  | spkRuleEnable (x : Side)
  /-- SPK_RULE_QUERY (R95): Returns a spark rule record, its enable and its owner. -/
  | spkRuleQuery (x : Side)
  /-- SPK_STATS (R252): Returns a rule's fires, refusals and last fire time. -/
  | spkStats (x : Side)
  /-- CAN_MODE_SET (R371): Requests a CAN channel mode change, gated by CAN_GATE.MODES. -/
  | canModeSet (x : Side)
  /-- CAN_WAKE_CFG (R150): Sets a channel's Banked pattern or frame wake and its confirmation match. -/
  | canWakeCfg (x : Side)
  /-- CAN_AWAKE_REPORT (R148): Returns the awake table of identifiers and frame counts of a channel. -/
  | canAwakeReport (x : Side)
  /-- CAN_SEAL_KEY (R388): Binds a key store slot to a seal context and resets its freshness values. -/
  | canSealKey (x : Side)
  /-- NET_TOKEN_CLAIM (R269): Asks for the net token. -/
  | netTokenClaim (x : Side)
  /-- NET_TOKEN_RELEASE (R270): Releases the net token held by the side. -/
  | netTokenRelease (x : Side)
  /-- NET_BYPASS_STATE (R315): Queries, forces closed or requests opening of the draught bypass. -/
  | netBypassState (x : Side)
  /-- NET_SA_INSTALL (R354): Installs a MACsec transmit or receive SA on a port between two frames. -/
  | netSaInstall (x : Side)
  /-- NET_MIRROR_SET (R352): Sets the ingress and egress masks and destination of a mirror session. -/
  | netMirrorSet (x : Side)
  /-- TIME_STATUS (R98): Returns a domain's time, offset and servo state. -/
  | timeStatus (x : Side)
  /-- TIME_STEP_ACCEPT (R408): Steps a domain by the pending refused jump. -/
  | timeStepAccept (x : Side)
  /-- TIME_PULSE_SET (R414): Programs a pulse output's start, period, width and enable. -/
  | timePulseSet (x : Side)
  /-- TIME_CAPTURE_READ (R415): Returns the latest capture stamp and clears COUNT, OVERFLOW and STEPPED. -/
  | timeCaptureRead (x : Side)
  /-- TIME_SERVO_SET (R405): Sets servo gains, jump threshold and automatic step of a domain. -/
  | timeServoSet (x : Side)
  /-- WLD_STATUS (R436): Returns a world's state, measurement flag and restart count. -/
  | wldStatus (x : Side)
  /-- WLD_RESTART (R440): Restarts a world and flushes its doors on both sides. -/
  | wldRestart (x : Side)
  /-- WLD_MEASURE_GET (R445): Returns a world's SHA-384 measurement. -/
  | wldMeasureGet (x : Side)
  /-- WLD_DEBUG_UNLOCK (R451): Issues a debug challenge, or checks a certificate and unlocks the Poker port. -/
  | wldDebugUnlock (x : Side) (lost : Option Word40) (corr : Option Word40)
  /-- CAL_READ (R133): Returns a calibration item and its written-by value. -/
  | calRead (x : Side)
  /-- CAL_WRITE (R134): Replaces one calibration item on both sides or on neither. -/
  | calWrite (x : Side) (goodA : Bool) (goodB : Bool)
  /-- LOG_READ (R100): Returns up to seven Ash pan entries, newest first. -/
  | logRead (x : Side)
  /-- LOG_MARK (R484): Writes a LOG_MARK entry with a user value into the Ash pan. -/
  | logMark (x : Side)
  /-- SIDE_STATUS (R100): Returns tokens held, peer health, cross link, mirror and return policy. -/
  | sideStatus (x : Side)
  /-- SIDE_CLAIM (R269): Asks for named grate tokens, by claim or orderly handover. -/
  | sideClaim (x : Side)
  /-- SIDE_RELEASE (R270): Releases named grate tokens held by the side. -/
  | sideRelease (x : Side)
  /-- SIDE_MIRROR_SET (R277): Sets an outgoing mirror region of the side. -/
  | sideMirrorSet (x : Side)
  /-- SIDE_RETURN_POLICY (R279): Sets RETURN_HOME and the hold-off on both sides. -/
  | sideReturnPolicy (x : Side)
  /-- DOOR_CMD_WRITE (R71): A 64-bit write appends one word to the packet under assembly in a door. -/
  | doorCmdWrite (x : Side) (o : Origin) (n : Fin 32) (w : Word40)
  /-- DOOR_CMD_HI_WRITE (R72): Holds bits [39:32] of the next command word of a door. -/
  | doorCmdHiWrite (x : Side) (o : Origin) (n : Fin 32) (v : BitVec 32)
  /-- DOOR_CMD_LO_WRITE (R72): Appends the word formed from the held high bits and the written low bits. -/
  | doorCmdLoWrite (x : Side) (o : Origin) (n : Fin 32) (v : BitVec 32)
  /-- DOOR_RPL_READ (R74): Removes and returns the head reply word, or the idle word. -/
  | doorRplRead (x : Side) (o : Origin) (n : Fin 32)
  /-- DOOR_RPL_HI_READ (R72): Removes the head reply word, returns its high bits and latches its low bits. -/
  | doorRplHiRead (x : Side) (o : Origin) (n : Fin 32)
  /-- DOOR_FLUSH (R71): Writing FLUSH discards the incomplete packet of a door. -/
  | doorFlush (x : Side) (o : Origin) (n : Fin 32)
  /-- STOKER_TAKE (R80): In its round the Stoker takes one complete packet from a source into the fast path or the Chromir queue. -/
  | stokerTake (x : Side) (src : Fin 33)
  /-- GRATE_REPLY (R81): A reply from a grate die reaches the Stoker and enters the reply FIFO. -/
  | grateReply (x : Side) (d : Fin 4)
  /-- LONG_OPERATION_COMPLETE (R82): A long operation finishes and its final reply enters the reply FIFO. -/
  | longOperationComplete (x : Side)
  /-- CHROMIR_TIMEOUT (R86): An ordinary opcode or long operation passes its bound; TIMEOUT is replied and Chromir restarts. -/
  | chromirTimeout (x : Side)
  /-- CHROMIR_RESTART_DONE (R86): Chromir is ready again after a watchdog restart. -/
  | chromirRestartDone (x : Side)
  /-- GRATE_TIMEOUT (R86): A fast-path packet has no grate reply 20 µs after leaving and receives TIMEOUT. -/
  | grateTimeout (x : Side) (d : Fin 4)
  /-- CHROMIR_READY (R87): A new Chromir build announces readiness and sends the final OK of its load. -/
  | chromirReady (x : Side)
  /-- CHROMIR_REVERT (R87): The new Chromir is not ready within 50 ms; the previous build restarts. -/
  | chromirRevert (x : Side)
  /-- STOKE_CS_FALL (R104): CS_N falls and a Stoke transaction starts, shifting the status word out. -/
  | stokeCsFall (x : Side)
  /-- STOKE_CS_RISE (R103): CS_N rises and the port judges the bit count and packet. -/
  | stokeCsRise (x : Side) (ws : List Word40) (extra : Fin 40)
  /-- INTR_CLAIM (R42): A read returns and clears the highest-priority enabled pending source of the world. -/
  | intrClaim (x : Side) (o : Origin) (w : Fin 8)
  /-- DMA_GO (R62): Writing GO starts a copy or stream transfer, or is refused while busy. -/
  | dmaGo (x : Side) (o : Origin) (n : Fin 32) (v : BitVec 32)
  /-- DMA_COPY_DONE (R62): A copy transfer completes and sets DONE. -/
  | dmaCopyDone (x : Side) (n : Fin 32) (lost : Option Word40) (corr : Option Word40)
  /-- UNIT_ABSENT (R56): A unit enters reset, update or power-down and its boundary marks it ABSENT. -/
  | unitAbsent (u : UnitId)
  /-- UNIT_READY (R56): A unit announces readiness and its boundary marks it PRESENT. -/
  | unitReady (u : UnitId)
  /-- GRATE_SAMPLE_TICK (R187): Every 10 µs a grate die samples all channels and posts the signal words. -/
  | grateSampleTick (d : Fin 4) (smp : List Sample) (feed : Word40)
  /-- MEASUREMENT_ARRIVAL (R53): Signal words arrive at the signal plane collector and are streamed by DMA. -/
  | measurementArrival (x : Side) (prod : Fin 5)
  /-- SAMPLE_GAP (R54): A die's post is incomplete 5 µs after a tick and the gap is flagged. -/
  | sampleGap (x : Side) (d : Fin 4) (tick : Word40)
  /-- AIN_SAMPLE (R500): The INPUTS unit samples the analogue inputs and posts them with the DIN levels. -/
  | ainSample (x : Side) (codes : List Word40)
  /-- DIN_EDGE (R501): A filtered digital input edge changes its level and may latch an event and a spark source. -/
  | dinEdge (x : Side) (n : Fin 16) (level : Bool)
  /-- WIRE_MODEL_STEP (R209): Every 100 µs the die updates each channel's wire temperature rise. -/
  | wireModelStep (d : Fin 4)
  /-- BUDGET_EXCHANGE (R216): The budget bus exchanges claims and computes allowances and judges held turn-ons. -/
  | budgetExchange (coolant : List Word40) (pLogic : Option Word40) (silent : BitVec 4)
  /-- HOLD_EXPIRY (R218): A hold time runs out and the held turn-on ends REFUSED_BUDGET. -/
  | holdExpiry (d : Fin 4) (n : Fin 16)
  /-- BUDGET_OVER_TIME (R223): A budget stays over for OVER_TIME; P3 channels are shed or BUDGET_OVER is set. -/
  | budgetOverTime (b : Fin 4)
  /-- DERATE_ASSERT (R224): Coolant above 70 °C or dissipation over budget for 100 ms asserts DERATE. -/
  | derateAssert
  /-- DERATE_END (R224): The DERATE condition ends after 10 s of both limits met. -/
  | derateEnd
  /-- RIDE_ASSERT (R225): A die's feed stays below 16 V for 1 ms and RIDE starts on that feed. -/
  | rideAssert (d : Fin 4)
  /-- RIDE_END (R225): The feed stays above 16.5 V for 100 ms and RIDE ends. -/
  | rideEnd (d : Fin 4)
  /-- EMBER_LOW_FEED_ASSERT (R225): The Ember detects a low feed and requests hardware mask bit 9. -/
  | emberLowFeedAssert (f : Side)
  /-- EMBER_LOW_FEED_CLEAR (R225): Every live feed has stayed above 16.5 V for 100 ms and the detection clears. -/
  | emberLowFeedClear
  /-- TURN_ON_COMPLETE (R168): The output reaches the feed with current below 95 % of the limit; SLEW becomes ON. -/
  | turnOnComplete (d : Fin 4) (n : Fin 16)
  /-- LIMIT_ENTRY (R162): Channel current reaches the effective limit and the channel regulates. -/
  | limitEntry (d : Fin 4) (n : Fin 16)
  /-- LIMIT_EXIT (R162): Current falls below 95 % of the limit at a sample tick and the channel leaves LIMIT. -/
  | limitExit (d : Fin 4) (n : Fin 16)
  /-- INRUSH_TIMEOUT (R168): A static turn-on is not complete within INRUSH_MAX; fault handling runs. -/
  | inrushTimeout (d : Fin 4) (n : Fin 16)
  /-- TSD_ENTRY (R172): The junction reaches 175 °C and the channel enters thermal shutdown. -/
  | tsdEntry (d : Fin 4) (n : Fin 16)
  /-- TSD_EXIT (R162): The junction cools to 150 °C and fault handling completes. -/
  | tsdExit (d : Fin 4) (n : Fin 16)
  /-- REVERSE_CURRENT (R185): Current stays below the reverse threshold for 5 µs and fault handling runs. -/
  | reverseCurrent (d : Fin 4) (n : Fin 16)
  /-- MEAS_SELF_CHECK (R185): Every 1 ms the sense path is checked; two failures latch MEAS_FAULT. -/
  | measSelfCheck (d : Fin 4) (n : Fin 16) (pass : Bool)
  /-- RETRY_ATTEMPT (R174): The attempt instant arrives and the channel makes an autonomous turn-on judged by the Damper. -/
  | retryAttempt (d : Fin 4) (n : Fin 16)
  /-- RETRIES_CLEAR (R175): A channel has stayed ON or PWM for 1 s without fault and RETRIES_USED clears. -/
  | retriesClear (d : Fin 4) (n : Fin 16)
  /-- FEED_BUS_ABSENT (R182): A die's feed bus stays below 6 V or −1 V for 20 µs and channels enter NOFEED. -/
  | feedBusAbsent (d : Fin 4) (reversed : Bool)
  /-- FEED_BUS_RETURN (R182): The feed bus stays above 7 V for 10 ms and channels leave NOFEED. -/
  | feedBusReturn (d : Fin 4)
  /-- FEED_RETURN_TURN_ON (R182): Every 100 µs the next channel with CMD_ON 1 makes a feed-return turn-on. -/
  | feedReturnTurnOn (d : Fin 4)
  /-- FEED_OVERVOLTAGE (R184): A die's feed bus goes above or below 32 V and FEED_OV follows. -/
  | feedOvervoltage (d : Fin 4) (high : Bool)
  /-- PWM_PERIOD_START (R177): A PWM period starts, new values take effect and the effective duty is computed. -/
  | pwmPeriodStart (d : Fin 4) (n : Fin 16)
  /-- PWM_OFF_EDGE (R178): The on-time ends and the falling edge begins, ending LIMIT in PWM. -/
  | pwmOffEdge (d : Fin 4) (n : Fin 16)
  /-- SPARK_SOURCE_EVENT (R240): A matcher takes a source event, compares it with every rule and fires matching rules. -/
  | sparkSourceEvent (m : Matcher)
  /-- SPARK_ACTION_ARRIVAL (R243): A grate die takes a spark action, checks it and applies it. -/
  | sparkActionArrival (m : Matcher) (d : Fin 4)
  /-- SPARK_ANSWER (R242): The die's answer to an action returns to the matcher and is counted. -/
  | sparkAnswer (m : Matcher) (d : Fin 4)
  /-- COMMIT_TICK (R128): At each 100 µs tick the merged configuration is snapshotted, prepared and moved into force. -/
  | commitTick (x : Side) (unready : BitVec 6)
  /-- VACANT_CLAIM (R261): 20 ms after its first commit a side claims every token still VACANT. -/
  | vacantClaim (x : Side)
  /-- CAL_LATE_REPAIR (R135): The other side becomes reachable and the calibration copies are compared and repaired. -/
  | calLateRepair
  /-- HEARTBEAT (R258): Every 20 µs a healthy side sends a heartbeat on each grate link and die bridge. -/
  | heartbeat (x : Side) (lanes : BitVec 5)
  /-- TOKEN_LAPSE (R262): The holder's heartbeat age exceeds LOSS and the die declares the token LAPSED. -/
  | tokenLapse (t : Fin 5)
  /-- TOKEN_RESUMED (R262): The holder's heartbeat returns before a claim and the token returns to HELD. -/
  | tokenResumed (t : Fin 5)
  /-- AUTO_CLAIM (R263): A side receives TOKEN_LAPSE and claims the token in hardware. -/
  | autoClaim (x : Side) (t : Fin 5)
  /-- HANDOVER_WINDOW_CLOSE (R267): 30 µs after a lapse-caused change the window closes. -/
  | handoverWindowClose (d : Fin 4)
  /-- ORDERLY_RELEASE (R269): The holder's sent packets complete and it sends RELEASE to the die. -/
  | orderlyRelease (t : Fin 5)
  /-- CROSS_PULSE (R273): Every 20 µs a side sends its cross pulse with its healthy bit. -/
  | crossPulse (x : Side) (arrives : Bool) (healthy : Bool)
  /-- PEER_LOST (R273): The peer's pulse and heartbeats are absent beyond LOSS; SPLIT is held. -/
  | peerLost (x : Side)
  /-- CROSS_LOST (R274): Cross pulses are absent while the peer's heartbeats live; mirroring stops. -/
  | crossLost (x : Side)
  /-- CROSS_RESTORED (R274): Cross pulses return and the G0 holder's mask is adopted. -/
  | crossRestored (x : Side)
  /-- SIDE_DOWN (R272): A side stops being healthy and stops heartbeats and cross pulses. -/
  | sideDown (x : Side)
  /-- GRATE_LINK_LOST (R276): A grate link carries no symbol from its die for longer than LOSS. -/
  | grateLinkLost (x : Side) (d : Fin 4)
  /-- RETURN_HOME (R279): The hold-off ends and the home side takes a token back by orderly handover. -/
  | returnHome (t : Fin 5)
  /-- MIRROR_CHECKPOINT (R277): Every PERIOD commit ticks the dirty lines of the regions are copied to the peer. -/
  | mirrorCheckpoint (x : Side)
  /-- SIDE_CKPT_GO (R277): Writing GO starts a checkpoint. -/
  | sideCkptGo (x : Side) (o : Origin) (v : BitVec 32)
  /-- PAIR_OUT_HI_WRITE (R281): Holds the high bits of the next pair packet word. -/
  | pairOutHiWrite (x : Side) (o : Origin) (v : BitVec 32)
  /-- PAIR_OUT_LO_WRITE (R281): Appends a pair packet word and compares completed packets of both cores. -/
  | pairOutLoWrite (x : Side) (o : Origin) (v : BitVec 32) (bad : Bool)
  /-- PAIR_OUT_TIMEOUT (R281): The second packet is incomplete WINDOW after the first: OUT_TIME mismatch. -/
  | pairOutTimeout (x : Side)
  /-- PAIR_SIG_HI_WRITE (R283): Holds the high bits of a checkpoint signature. -/
  | pairSigHiWrite (x : Side) (o : Origin) (v : BitVec 32)
  /-- PAIR_SIG_LO_WRITE (R283): Completes a signature and compares it with the other core's. -/
  | pairSigLoWrite (x : Side) (o : Origin) (v : BitVec 32) (bad : Bool)
  /-- PAIR_SIG_TIMEOUT (R283): The other core's signature is not written within WINDOW: SIG_TIME mismatch. -/
  | pairSigTimeout (x : Side)
  /-- PAIR_RPL_HI_READ (R282): Removes the head word of the core's reply copy. -/
  | pairRplHiRead (x : Side) (o : Origin)
  /-- BRIDGE_POLL (R304): Every 1 µs a bridge samples far interrupt lines and presence. -/
  | bridgePoll (x : Side) (i : Fin 6) (arrives : Bool)
  /-- BRIDGE_SPLIT (R294): A transaction waits HOLD at the far port and becomes split. -/
  | bridgeSplit (x : Side) (i : Fin 6) (ref : BridgeRef)
  /-- BRIDGE_TIMEOUT (R295): A transaction has no answer after TIMEOUT and ends. -/
  | bridgeTimeout (x : Side) (i : Fin 6) (ref : BridgeRef)
  /-- BRIDGE_ANSWER (R299): A far answer or acknowledgement returns to the near side. -/
  | bridgeAnswer (x : Side) (i : Fin 6) (ref : BridgeRef) (ecc : Ecc)
  /-- BRIDGE_AT_GO (R301): Starts an atomic operation on a far SRAM word. -/
  | bridgeAtGo (x : Side) (o : Origin) (v : BitVec 32)
  /-- BRIDGE_AT_DONE (R301): The atomic operation completes with DONE or ERR. -/
  | bridgeAtDone (x : Side) (h : Fin 6) (ecc : Ecc)
  /-- BRIDGE_LOCK_ACQUIRE (R302): Requests a lock on a far SRAM line. -/
  | bridgeLockAcquire (x : Side) (o : Origin) (v : BitVec 32)
  /-- BRIDGE_LOCK_GRANT (R302): The far HUB grants the line lock and HELD is set. -/
  | bridgeLockGrant (x : Side) (h : Fin 6)
  /-- BRIDGE_LOCK_RELEASE (R302): Releases the held line lock. -/
  | bridgeLockRelease (x : Side) (o : Origin) (v : BitVec 32)
  /-- BRIDGE_LOCK_BROKEN (R302): A lock held for 2 µs is released and BROKEN set. -/
  | bridgeLockBroken (x : Side) (h : Fin 6)
  /-- BRIDGE_LOCK_GRANT_TIMEOUT (R302): A lock request not granted within TIMEOUT ends with BROKEN. -/
  | bridgeLockGrantTimeout (x : Side) (h : Fin 6)
  /-- BRIDGE_LOCK_READ (R310): A read of BRIDGE_LOCK returns and clears BROKEN. -/
  | bridgeLockRead (x : Side) (o : Origin)
  /-- BRIDGE_SWI (R305): Raises software interrupt lines toward the other side. -/
  | bridgeSwi (x : Side) (o : Origin) (v : BitVec 32)
  /-- SYS_STATE_DELAY_END (R140): A pending power-state request's delay ends and the transition begins. -/
  | sysStateDelayEnd
  /-- POWER_ON (R142): A feed rises above 6 V with the Ember unpowered and a wake starts. -/
  | powerOn
  /-- WAKE_KL15 (R142): WAKE_KL15 is high longer than KL15_DEB and declares a wake. -/
  | wakeKl15
  /-- WAKE_LOC (R142): An enabled WAKE_LOC input holds its level longer than LOC_DEB and declares a wake. -/
  | wakeLoc (n : Fin 4)
  /-- RTC_ALARM (R142): ALARM minutes pass in Banked and a wake is declared. -/
  | rtcAlarm
  /-- CAN_WAKE_PATTERN (R150): A transceiver sees the wake-up pattern and declares a wake. -/
  | canWakePattern (k : Fin 12)
  /-- CAN_WAKE_FRAME (R150): A matching wake frame declares a wake. -/
  | canWakeFrame (k : Fin 12) (fr : CanFrame)
  /-- CAN_FRAME_ERR_WAKE (R150): The frame decoder's error counter reaches 32 and declares a wake. -/
  | canFrameErrWake (k : Fin 12)
  /-- TC10_WAKE_PULSE (R151): A valid TC10 pulse on an enabled port wakes the module from Banked. -/
  | tc10WakePulse (p : Fin 17)
  /-- POWER_GOOD (R143): A regulator group reports power-good and its dies leave reset. -/
  | powerGood (g : RailGroup) (bad : BitVec 128) (test : Bool)
  /-- POWER_GOOD_TIMEOUT (R144): A group has no power-good within 2 ms; it is retried or the wake fails. -/
  | powerGoodTimeout (g : RailGroup)
  /-- WAKE_BLOCK_END (R144): One second after a failed wake, wake events are taken again. -/
  | wakeBlockEnd (kl15 : Bool) (loc : BitVec 4)
  /-- CRYSTAL_TIMEOUT (R145): A crystal is not ready 5 ms after power-good; the side enters limp clock. -/
  | crystalTimeout (x : Side)
  /-- PLL_LOCK (R143): The side's PLL locks and the side leaves reset into Kindling. -/
  | pllLock (x : Side) (calOk : Bool) (mode : Bool)
  /-- STOKER_READY (R143): The Stoker is ready, the mantel image is in force and the module is Glowing. -/
  | stokerReady (x : Side)
  /-- WORLD_IMAGE_VERIFIED (R443): A world image passes background verification and the world becomes HELD. -/
  | worldImageVerified (x : Side) (w : Fin 8)
  /-- FLUE_REF_CHECK (R146): Every 100 ms a reference-less Flue die checks for its reference. -/
  | flueRefCheck (present : Bool) (ext : Bool)
  /-- FLUE_REF_LOSS (R505): The reference is missing over 1 µs while the Flue die runs; it resets. -/
  | flueRefLoss
  /-- CONFIRMATION (R147): A confirming frame, link-up or event confirms the wake. -/
  | confirmation (c : Confirm)
  /-- CONFIRM_WINDOW_END (R147): The window ends unconfirmed and the module sleeps to Banked. -/
  | confirmWindowEnd
  /-- LIT_ENTRY (R143): Application cores and pairs leave reset and worlds start. -/
  | litEntry (x : Side)
  /-- BANK_TIME_LIMIT (R139): LIMIT hours in Banked pass and the module goes to Cold hearth. -/
  | bankTimeLimit
  /-- SLEEP_START (R152): The Stokers stop taking packets and spark rules are disabled. -/
  | sleepStart
  /-- SLEEP_DRAIN_COMPLETE (R152): Every taken packet has its final reply; outputs turn off, CAN goes off bus, Ash pan flushes. -/
  | sleepDrainComplete
  /-- SLEEP_ARM (R152): The Ember latches wake settings, arms sources and switches groups off. -/
  | sleepArm (kl15 : Bool) (loc : BitVec 4)
  /-- FEED_LOSS (R153): A feed stays below 8.5 V for 20 µs; the side flushes and its rail group goes off. -/
  | feedLoss (f : Side)
  /-- FEED_RETURN (R153): A feed stays above 9.5 V for 10 ms; the side wakes and joins as standby. -/
  | feedReturn (f : Side)
  /-- EMBER_OVERVOLTAGE (R157): A feed rises above 32 V and the Ember flags it. -/
  | emberOvervoltage (f : Side)
  /-- EMBER_FEED_SAMPLE (R157): Every 100 µs the Ember updates its feed voltage readings. -/
  | emberFeedSample (va : Word40) (vb : Word40)
  /-- SIDE_RESET_ASSERT (R141): SIDE_x_RST_N is low for 1 µs and the side is treated as failed. -/
  | sideResetAssert (x : Side)
  /-- SIDE_RESET_RELEASE (R141): SIDE_x_RST_N rises and the side runs Kindling and rejoins. -/
  | sideResetRelease (x : Side)
  /-- GATE_CALL (R431): Pushes a gate frame and enters the target world at the gate entry. -/
  | gateCall (x : Side) (h : Fin 6) (insn : BitVec 32) (pc : Word64) (priv : Fin 4) (virt : Bool)
  /-- GATE_LAND (R431): Marks a gate entry point; no other effect. -/
  | gateLand (x : Side) (h : Fin 6) (insn : BitVec 32) (pc : Word64)
  /-- GATE_RET (R432): Pops the gate frame and restores world, privilege and pc. -/
  | gateRet (x : Side) (h : Fin 6) (insn : BitVec 32) (pc : Word64)
  /-- WORLD_WATCHDOG (R438): WDOG ms pass without a kick; the world has failed. -/
  | worldWatchdog (x : Side) (w : Fin 8)
  /-- WLD_KICK (R462): Writing KICK restarts the world's watchdog. -/
  | wldKick (x : Side) (o : Origin) (w : Fin 8) (v : BitVec 32)
  /-- WORLD_READY (R440): A restarted world's image is verified, loaded and measured and it runs. -/
  | worldReady (x : Side) (w : Fin 8)
  /-- WOT_SYNC_GO (R427): Writing GO puts new dynamic regions in force and invalidates lookasides. -/
  | wotSyncGo (x : Side) (o : Origin) (v : BitVec 32)
  /-- WOT_SYNC_COMPLETE (R427): Accesses under the old table complete and BUSY clears. -/
  | wotSyncComplete (x : Side)
  /-- SECURITY_LOCKDOWN (R456): Security events reach THRESH in 10 s and the security latch is set. -/
  | securityLockdown (x : Side)
  /-- WOT_SEC_CLEAR (R458): World 0 clears the security latch. -/
  | wotSecClear (x : Side) (o : Origin) (v : BitVec 32)
  /-- KEYS_INSTALL (R448): Installs a key into a volatile slot. -/
  | keysInstall (x : Side) (o : Origin) (slot : Fin 64)
  /-- KEYS_BURN (R448): Burns a key into an unused integrator OTP slot. -/
  | keysBurn (x : Side) (o : Origin) (slot : Fin 64)
  /-- KEYS_REVOKE (R448): Revokes a slot for good. -/
  | keysRevoke (x : Side) (o : Origin) (slot : Fin 64)
  /-- KEYS_ERASE (R448): Erases a volatile slot. -/
  | keysErase (x : Side) (o : Origin) (slot : Fin 64)
  /-- KEYS_CMAC (R448): Computes a CMAC over data with a slot's key. -/
  | keysCmac (x : Side) (o : Origin) (slot : Fin 64)
  /-- KEYS_SIGN (R448): Signs a digest with the attestation key. -/
  | keysSign (x : Side) (o : Origin) (slot : Fin 64)
  /-- KEYS_VERIFY (R448): Verifies a signature with a public key slot. -/
  | keysVerify (x : Side) (o : Origin) (slot : Fin 64)
  /-- KEYS_PUBLIC (R448): Returns the public key of a slot. -/
  | keysPublic (x : Side) (o : Origin) (slot : Fin 64)
  /-- KEYS_OP_COMPLETE (R448): A key store operation ends with DONE or ERR and latches source 92. -/
  | keysOpComplete (x : Side) (lost : Option Word40) (corr : Option Word40)
  /-- POKER_RELOCK (R453): World 0 ends the debug unlock. -/
  | pokerRelock (x : Side) (o : Origin) (v : BitVec 32)
  /-- POKER_UNLOCK_EXPIRY (R453): DURATION passes and the Poker relocks. -/
  | pokerUnlockExpiry (x : Side)
  /-- TALLY_BOUNDARY (R469): At each boundary producers copy and restart statistics and the bank is written. -/
  | tallyBoundary (x : Side)
  /-- PERF_COUNTER_WRAP (R477): A performance counter passes 2^40 − 1 and wraps. -/
  | perfCounterWrap (x : Side) (e : PerfEvent)
  /-- PERF_CNT_READ (R477): Reading an even counter latches its chained odd partner. -/
  | perfCntRead (x : Side) (o : Origin) (n : Fin 48)
  /-- ASH_SEL_WRITE (R485): Latches the four words of an Ash pan entry. -/
  | ashSelWrite (x : Side) (o : Origin) (v : BitVec 32)
  /-- FRAME_RECEIVE (R333): A frame's last bit arrives at an ingress MAC and is checked, learned and queued. -/
  | frameReceive (p : Fin 17) (f : EthFrame) (others : List (Fin 17 × EthFrame)) (parts : List (Fin 17 × Nat))
  /-- EGRESS_SELECT (R347): At a frame boundary a port selects and transmits the head frame of the highest eligible class. -/
  | egressSelect (p : Fin 17) (lost : Option Word40) (corr : Option Word40)
  /-- NETIF_TX_KICK (R330): Starts sending transmit descriptors with OWN set. -/
  | netifTxKick (x : Side) (o : Origin) (v : BitVec 32) (lost : Option Word40) (corr : Option Word40)
  /-- FDB_AGEING (R339): A dynamic entry not refreshed within AGE is removed. -/
  | fdbAgeing
  /-- FDB_INSERT_STATIC (R339): Inserts a static entry. -/
  | fdbInsertStatic (x : Side) (o : Origin)
  /-- FDB_DELETE (R339): Deletes an entry. -/
  | fdbDelete (x : Side) (o : Origin)
  /-- FDB_LOOKUP (R339): Looks up a key and returns its ports. -/
  | fdbLookup (x : Side) (o : Origin)
  /-- FDB_FLUSH_ALL (R339): Flushes every dynamic entry. -/
  | fdbFlushAll (x : Side) (o : Origin)
  /-- FDB_FLUSH_PORT (R339): Flushes the dynamic entries of one port. -/
  | fdbFlushPort (x : Side) (o : Origin) (p : Fin 32)
  /-- CBS_UPDATE (R348): Every 128 SWITCH cycles shaper credits update. -/
  | cbsUpdate
  /-- TAS_CYCLE_START (R350): A gate control cycle or entry begins and gates change. -/
  | tasCycleStart (p : Fin 17)
  /-- FRER_RESET (R351): No frame passes for RESET_MS and the history resets. -/
  | frerReset (n : Fin 512)
  /-- LINK_CHANGE (R345): A port's link goes up or down; on loss its queues flush. -/
  | linkChange (l : LinkId) (up : Bool)
  /-- TC10_SLEEP_REQUEST (R358): A partner's sleep request is accepted or rejected. -/
  | tc10SleepRequest (p : Fin 17)
  /-- PORT_SLEEP_REQ (R358): Sends a TC10 sleep request. -/
  | portSleepReq (x : Side) (o : Origin) (p : Fin 17)
  /-- TC10_SLEEP_TIMEOUT (R358): No answer within 16 ms; the port returns to ACTIVE. -/
  | tc10SleepTimeout (p : Fin 17) (accepted : Option Bool)
  /-- PORT_WAKE (R358): Sends a TC10 wake-up pulse. -/
  | portWake (x : Side) (o : Origin) (p : Fin 17)
  /-- TC10_PARTNER_WAKE (R358): A partner's wake pulse brings a sleeping port through WAKING. -/
  | tc10PartnerWake (p : Fin 17)
  /-- BYPASS_CLOSE (R316): A bypass condition arises and the bypass closes. -/
  | bypassClose
  /-- BYPASS_OPEN (R317): The last condition clears and the bypass opens. -/
  | bypassOpen
  /-- KEEPALIVE_MISS (R314): Three missed keep-alive refreshes close the bypass and reset the Flue die. -/
  | keepaliveMiss
  /-- BYPASS_SELFTEST (R317): A ring PHY's loopback self-test completes. -/
  | bypassSelftest (p : Fin 2) (pass : Bool)
  /-- BYP_SENSE_CHANGE (R315): A side senses the bypass bias change and logs it. -/
  | bypSenseChange (x : Side)
  /-- LIFE_TX_GO (R324): Queues a lifeline transmit buffer. -/
  | lifeTxGo (x : Side) (o : Origin) (v : BitVec 32)
  /-- LIFE_TX_DONE (R324): A lifeline frame has been sent. -/
  | lifeTxDone (x : Side)
  /-- LIFE_RX_FRAME (R324): A lifeline frame is received into the next free buffer. -/
  | lifeRxFrame (x : Side) (f : EthFrame)
  /-- LIFE_RX_RELEASE (R324): Frees the head receive buffer. -/
  | lifeRxRelease (x : Side) (o : Origin) (v : BitVec 32)
  /-- HVIL_WINDOW (R327): An averaging window ends and the loop state is judged. -/
  | hvilWindow (x : Side) (amps : List Word40) (volts : Word40)
  /-- PTP_SYNC_RX (R405): A Sync on the slave port yields an offset and the servo updates. -/
  | ptpSyncRx (d : Fin 2) (p : Fin 15) (msg : SyncMsg)
  /-- SYNC_TIMEOUT (R406): No Sync for three intervals; HOLDOVER is entered. -/
  | syncTimeout (d : Fin 2)
  /-- GM_CHANGE (R407): Announce timeout makes the BMCA choose a new grandmaster. -/
  | gmChange (d : Fin 2) (l : List Announce)
  /-- PTP_SYNC_TX (R403): Bellows originates or relays a Sync on a master port. -/
  | ptpSyncTx (d : Fin 2) (p : Fin 15) (stage : Word40)
  /-- PDELAY_EXCHANGE (R397): A peer delay exchange measures mean link delay. -/
  | pdelayExchange (p : Fin 15) (resp : Option PdelayResp)
  /-- TIME_LINK_MESSAGE (R409): Every 10 µs the follower steers to Bellows time and applies steps. -/
  | timeLinkMessage (x : Side)
  /-- TIME_LINK_LOST (R410): No time message for 100 µs; the follower goes FREE. -/
  | timeLinkLost (x : Side)
  /-- TIME_NS_READ (R411): Reading TIME_Dd_NS latches the seconds word. -/
  | timeNsRead (x : Side) (o : Origin) (d : Fin 2)
  /-- TPO_EDGE (R414): A pulse output edge falls due. -/
  | tpoEdge (x : Side) (n : Fin 4)
  /-- TCI_CAPTURE (R415): A capture input edge is stamped. -/
  | tciCapture (x : Side) (n : Fin 4) (rising : Bool)
  /-- CAN_FRAME_RX (R376): A valid CAN frame is filtered, verified and stored. -/
  | canFrameRx (k : Fin 12) (f : CanFrame) (age : Word40) (ecc : Ecc)
  /-- CAN_TX_SET (R380): Pends an event buffer or arms a scheduled buffer. -/
  | canTxSet (x : Side) (o : Origin) (k : Fin 6) (v : BitVec 32)
  /-- CAN_TX_CANCEL (R382): Cancels pending or armed buffers. -/
  | canTxCancel (x : Side) (o : Origin) (k : Fin 6) (v : BitVec 32)
  /-- CAN_TX_TAKE (R381): The controller takes a buffer and seals it if asked. -/
  | canTxTake (k : Fin 12) (ecc : Ecc)
  /-- CAN_TX_END (R381): An attempt ends sent, lost or in error. -/
  | canTxEnd (k : Fin 12) (r : TxOutcome) (n : BitVec 16)
  /-- CAN_RXQ_ACK (R378): Advances a receive queue's GET. -/
  | canRxqAck (x : Side) (o : Origin) (k : Fin 6) (q : Fin 2) (v : BitVec 32)
  /-- CAN_SHADOW_LOAD (R379): Copies an element into a shadow buffer. -/
  | canShadowLoad (x : Side) (o : Origin) (k : Fin 6) (v : BitVec 32)
  /-- CAN_SHADOW_STORE (R379): Copies a shadow buffer into a transmit buffer. -/
  | canShadowStore (x : Side) (o : Origin) (k : Fin 6) (v : BitVec 32)
  /-- CAN_SHADOW_DONE (R379): A shadow copy completes. -/
  | canShadowDone (k : Fin 12) (b : Fin 2)
  /-- CAN_TT_CYCLE_START (R383): A basic cycle starts and the master sends the reference. -/
  | canTtCycleStart (k : Fin 12) (idle : Word40)
  /-- CAN_TT_WINDOW_START (R384): A window begins and its buffer is served or missed. -/
  | canTtWindowStart (k : Fin 12) (w : Fin 32) (idle : Word40)
  /-- REF_LOST (R383): No reference within 1.5 cycles; the follower matrix stops. -/
  | refLost (k : Fin 12)
  /-- CAN_RECOVERY_START (R387): RECOVERY_DELAY passes and bus-off recovery starts. -/
  | canRecoveryStart (k : Fin 12)
  /-- CAN_RECOVERY_COMPLETE (R387): Recovery completes and the channel resumes. -/
  | canRecoveryComplete (k : Fin 12)
  /-- CAN_MODE_APPLY (R371): A pending mode takes force at the end of the frame. -/
  | canModeApply (k : Fin 12)
  /-- REGISTER_WRITE (R14): A write to a register without its own row. -/
  | registerWrite (x : Side) (o : Origin) (addr : Word64) (wd : Width) (k : AccKind) (v : Word64) (es : List Ecc)
  /-- EMBER_POWER_LOSS (R155): Both feeds fall below 6 V, the Ember loses its state, and with it the security latch and its counters. -/
  | emberPowerLoss
  /-- ECC_SCRUB (R29): The scrubber of a side reads LPDDR5X in idle memory cycles, covering all 4 GiB every 24 h, and corrects and counts single-bit errors. -/
  | eccScrub (x : Side) (corr : Word40) (bad : List Word40)
  /-- CHECKPOINT_COMPLETE (R277): The last line of a mirror checkpoint arrives, SIDE_CKPT_SEQ counts it, and MIRROR_CURRENT and the skip rule follow. -/
  | checkpointComplete (x : Side) (lost : Option Word40) (corr : Option Word40)
  /-- CAN_ERROR_FLAG (R386): A CAN channel detects an error on the bus while receiving, so REC and BUS_ERRORS rise and the confinement state may change. -/
  | canErrorFlag (k : Fin 12) (code : Fin 8) (heavy : Bool)
  /-- POKER_HALT (R452): An unlocked Poker at LEVEL 2 halts, steps or resumes application harts or the safety pair through its TAP. -/
  | pokerHalt (x : Side) (h : Fin 5) (act : DebugAct)
  deriving DecidableEq, Repr

end Sys2Proof
end

