-- ==== Sys2Proof/Config.lean ====
section
/-! DEFINITION. What a module fixes and what the spec leaves open, as constants without a body: no proof can see their values.
Each has its entry in the assumption log. -/
namespace Sys2Proof.Config

/-- The n-th value that the spec leaves open (the state counts them): entropy, an unstated result. -/
opaque freeValue : Nat → BitVec 64

/-- The bytes of the Kindling ROM (R31), whose content the spec does not give. -/
opaque romByte : Nat → Byte

/-- The bytes of the NOR flash of a module as delivered, by side number and physical address: the spec gives no content. -/
opaque norByte : Nat → Nat → Byte

/-- The bank pointer of an image slot of a module as delivered, by side number and TARGET: 0 none, 1 or 2 a bank. -/
opaque norPointer : Nat → Nat → Fin 3

/-- Serial number of the module (SYS_INFO, R89). -/
opaque serial : BitVec 80

/-- Build number of a Chromir image (R3, SYS_INFO), by the image's DIGEST. -/
opaque chromirBuild : Nat → Word40

/-- The clockIdentity of the module's PTP instances, and the MAC address of each port (R397): the manual gives none. -/
opaque clockIdentity : BitVec 64
opaque portMac : Nat → BitVec 48

/-- The factory value of a calibration item (R133). -/
opaque calFactory : Nat → Word40

/-- The 96-bit salt of a MACsec SA with extended packet numbers, by its key (R353): the manual's NET_SA_INSTALL carries none. -/
opaque xpnSalt : List Nat → BitVec 96

/-- Key material burned at the factory into slots 0 to 2 (R446). -/
opaque factoryKey : Nat → List Byte

end Sys2Proof.Config
end

