-- ==== Sys2Proof/Machine/Bits.lean ====
section
/-! DEFINITION. Bit fields, two's complement and fixed-point helpers over numbers: bit ranges [hi:lo] (00, Writing
conventions), sign extension of a 40-bit value (R10) and the Q20.20 unit (R7). -/
namespace Sys2Proof.Machine

/-- The number held in bits [hi:lo] of `w`. -/
def bits (w hi lo : Nat) : Nat := (w >>> lo) % 2 ^ (hi + 1 - lo)

/-- Bit `i` of `w`. -/
def bit (w i : Nat) : Bool := w.testBit i

/-- 1 for true and 0 for false: how a Bool stands in a one-bit field. -/
def b2n (b : Bool) : Nat := if b then 1 else 0

/-- `w` with bit `i` set. -/
def setBit (w i : Nat) : Nat := w ||| 2 ^ i

/-- `w` with bit `i` cleared. -/
def clearBit (w i : Nat) : Nat := if w.testBit i then w - 2 ^ i else w

/-- The bits of `w` that are not set in `m`. -/
def clearMask (w m : Nat) : Nat := w ^^^ (w &&& m)

/-- The number of set bits among the lowest `n` bits of `w`. -/
def popCount : Nat → Nat → Nat
  | 0, _ => 0
  | n + 1, w => popCount n w + b2n (w.testBit n)

/-- The lowest set bit among bits 0 to n-1 of `w`, or `n` when there is none. -/
def lowestBit (n w : Nat) : Nat := ((List.range n).find? (fun i => w.testBit i)).getD n

/-- The two's-complement value of the lowest `n` bits of `w`. -/
def toSigned (n w : Nat) : Int :=
  let v := w % 2 ^ n
  if 2 ^ n ≤ 2 * v then (v : Int) - 2 ^ n else v

/-- The lowest `n` bits of the two's complement of `i`. -/
def ofSigned (n : Nat) (i : Int) : Nat := (i % 2 ^ n).toNat

/-- `i` held within lo and hi (saturation of a signal word, R188). -/
def clampInt (lo hi i : Int) : Int := if i < lo then lo else if hi < i then hi else i

/-- `n` held within lo and hi ("acts as the nearest bound"). -/
def clampNat (lo hi n : Nat) : Nat := if n < lo then lo else if hi < n then hi else n

/-- One unit (1 A, 1 V, 1 K) of a Q20.20 signal word (R7). -/
def q20 : Nat := 2 ^ 20

/-- The 40-bit signal word of a signed Q20.20 number, saturated to the representable range (R7, R188). -/
def sigWord (i : Int) : Nat := ofSigned 40 (clampInt (-(2 ^ 39)) (2 ^ 39 - 1) i)

/-- The signed Q20.20 number that a 40-bit signal word holds (R7). -/
def sigInt (w : Nat) : Int := toSigned 40 w

/-- A 40-bit value as its 64-bit slot shows it: sign-extended from bit 39 when signed, else zero-extended (R10). -/
def slot40 (sgn : Bool) (v : Nat) : Nat :=
  if sgn && v.testBit 39 then v % 2 ^ 40 + (2 ^ 64 - 2 ^ 40) else v % 2 ^ 40

/-- The four-byte or eight-byte little-endian number that a list of bytes holds. -/
def leNat : List Nat → Nat
  | [] => 0
  | b :: t => b % 256 + 256 * leNat t

/-- The `n` little-endian bytes of `v`. -/
def leBytes : Nat → Nat → List Nat
  | 0, _ => []
  | n + 1, v => v % 256 :: leBytes n (v / 256)

/-- The big-endian number that a list of bytes holds. -/
def beNat (l : List Nat) : Nat := l.foldl (fun a b => a * 256 + b % 256) 0

/-- Division rounded up. -/
def ceilDiv (a b : Nat) : Nat := (a + b - 1) / b

/-- `f` applied `n` times. -/
def iter {α : Type} (f : α → α) : Nat → α → α
  | 0, a => a
  | n + 1, a => iter f n (f a)

/-- Bit-serial remainder of a byte under a reflected polynomial of `n` bits: eight shifts. -/
def crcShiftR (poly : Nat) (c : Nat) : Nat := if c.testBit 0 then (c >>> 1) ^^^ poly else c >>> 1

/-- A reflected CRC over bytes: initial value, polynomial (reflected), final exclusive-or. -/
def crcR (poly init xor : Nat) (bs : List Nat) : Nat :=
  (bs.foldl (fun c b => iter (crcShiftR poly) 8 (c ^^^ (b % 256))) init) ^^^ xor

/-- The CRC-32 of IEEE 802.3 (R487, calibration set of chapter 04). -/
def crc32 (bs : List Nat) : Nat := crcR 0xEDB88320 0xFFFFFFFF 0xFFFFFFFF bs

end Sys2Proof.Machine
end

