-- ==== Sys2Proof/Machine/Fields.lean ====
section
/-! DEFINITION. What a register field is (00 R10 to R16): its register, its bits, its access code, its merge class, its
reset value and its sign; where registers lie on a side's map; and the key under which a field's value is held. -/
namespace Sys2Proof.Machine

/-- Who holds a register: a side's own units, the single Ember die, the Flue die, the Flue die's tally copy
(R472) or a grate die. -/
inductive Holder where
  | side (x : Side)
  | ember
  | flue
  | flueTally
  | grate (d : Nat)
  deriving DecidableEq, Repr

/-- A number for each holder. -/
def Holder.code : Holder → Nat
  | .side .a => 0
  | .side .b => 1
  | .ember => 2
  | .flue => 3
  | .flueTally => 4
  | .grate d => 5 + d

/-- The access codes of R14. -/
inductive Access where
  | rw | ro | w1c | wo | rc
  deriving DecidableEq, Repr

/-- The merge classes of R16; `none` is "—". -/
inductive MergeClass where
  | limit | floor | permit | request | choice | base | none
  deriving DecidableEq, Repr

/-- The code of a merge class in CFG_FIELD_READ's Q2 (R91). -/
def MergeClass.code : MergeClass → Nat
  | .limit => 0
  | .floor => 1
  | .permit => 2
  | .request => 3
  | .choice => 4
  | .base => 5
  | .none => 7

/-- The form of a Reset column: one value, or one that depends on the side, the channel class (H / M / L), the time
domain, the port, or the port's latency (R400). -/
inductive ResetForm where
  | num (n : Nat)
  | bySide (a b : Nat)
  | byClass (h m l : Nat)
  | byDomain (d0 d1 : Nat)
  | byPort (ring std hundred t1s internal : Nat)
  | txLatency
  | rxLatency
  deriving DecidableEq, Repr

/-- The class of a local channel: 0 is H (the first four), 1 is M (the next eight), 2 is L (the last four) (R2). -/
def classOf (n : Nat) : Nat := if n % 16 < 4 then 0 else if n % 16 < 12 then 1 else 2

/-- The characterised latency of port `p`'s PHY at ring speed `speed` (0: 10, 1: 5, 2: 2.5 Gbit/s), as Q20.20 ns; `tx`
for the transmit column (R400). The figures stand in hundredths of a nanosecond. -/
def latencyTable (tx : Bool) (p speed : Nat) : Nat :=
  let c : Nat × Nat :=
    if p < 2 then (if speed = 0 then (35840, 101125) else if speed = 1 then (53760, 174080) else (87040, 322560))
    else if p < 8 then (30712, 154880)
    else if p < 14 then (33600, 76800)
    else (78400, 116800)
  (if tx then c.1 else c.2) * q20 / 100

/-- The reset value at index `i` of holder `h`. -/
def ResetForm.at (r : ResetForm) (h : Holder) (i : Nat) : Nat :=
  match r with
  | .num n => n
  | .bySide a b => if h = .side .b then b else a
  | .byClass x m l => if classOf i = 0 then x else if classOf i = 1 then m else l
  | .byDomain a b => if i = 0 then a else b
  | .byPort ring std hundred t1s internal =>
      if i < 2 then ring else if i < 8 then std else if i < 14 then hundred else if i = 14 then t1s else internal
  | .txLatency => latencyTable true i 0
  | .rxLatency => latencyTable false i 0

/-- A field of a register. -/
structure Fld where
  reg : Nat
  lo : Nat
  hi : Nat
  acc : Access
  cls : MergeClass
  rst : ResetForm
  sgn : Bool
  deriving DecidableEq, Repr

/-- The number of bits of a field. -/
def Fld.width (f : Fld) : Nat := f.hi + 1 - f.lo

/-- Whose registers a row of the map describes. -/
inductive HolderKind where
  | side | ember | flue | grate
  deriving DecidableEq, Repr

/-- One index of a register family: its first value, the number of values and the distance between two (in bytes). -/
structure Dim where
  start : Nat
  count : Nat
  stride : Nat
  deriving DecidableEq, Repr

/-- One register, or one family of registers, of the map. -/
structure Reg where
  name : String
  num : Nat
  kind : HolderKind
  base : Nat
  dims : List Dim
  wide : Bool
  fields : List Fld
  deriving DecidableEq, Repr

/-- The key of a field's value: its reset value, its holder, its register, its low bit and its index. A key that the
table of fields does not list reads as its own reset value. -/
structure FKey where
  rst : Nat
  hold : Nat
  reg : Nat
  lo : Nat
  idx : Nat
  deriving DecidableEq, Repr

/-- The Cantor-like pairing of two numbers (the one of `Nat.pair`), by which keys are ordered. -/
def pair (a b : Nat) : Nat := if a < b then b * b + a else a * a + a + b

/-- The code by which field keys are ordered. -/
def FKey.code (k : FKey) : Nat := pair (pair k.hold k.reg) (pair (pair k.lo k.idx) k.rst)

/-- The key of field `f` at index `i` of holder `h`. -/
def Fld.key (f : Fld) (h : Holder) (i : Nat) : FKey := ⟨f.rst.at h i, h.code, f.reg, f.lo, i⟩

end Sys2Proof.Machine
end

