-- ==== Sys2Proof/Machine/RegFields.lean ====
section
/-! DEFINITION. The register fields of the Z640, one definition each, as the register tables of the spec give them (bits,
access code, merge class, reset value); a register with one field gives the field its own name. The docstring of each
group names its rule. -/
namespace Sys2Proof.F
open Sys2Proof.Machine

/-! Registers of R4 (file 00). -/
def IDREV_VENDOR : Fld := ⟨1, 52, 63, .ro, .none, (.num 2652), false⟩  -- Vendor code of Oamund
def IDREV_PART : Fld := ⟨1, 40, 51, .ro, .none, (.num 1600), false⟩  -- Part code of the Z640
def IDREV_MODREV : Fld := ⟨1, 32, 39, .ro, .none, (.num 33), false⟩  -- Module revision. The high nibble is the major revision (A = 1, B = 2) and the low nibble the ...
def IDREV_SIDEREV : Fld := ⟨1, 24, 31, .ro, .none, (.num 33), false⟩  -- Revision of both side dies, in the same format
def IDREV_FLUEREV : Fld := ⟨1, 16, 23, .ro, .none, (.num 32), false⟩  -- Revision of the Flue die, in the same format
def IDREV_GRATEREV : Fld := ⟨1, 8, 15, .ro, .none, (.num 33), false⟩  -- Revision of all four grate dies, in the same format
def IDREV_SIDE : Fld := ⟨1, 4, 7, .ro, .none, (.bySide 10 11), false⟩  -- The side on which the register is read
/-! Registers of R27 (file 01). -/
def PAIR_DRAM_WIN_WIN1 : Fld := ⟨2, 4, 5, .rw, .none, (.num 0), false⟩  -- LPDDR5X gigabyte seen by pair core 1
def PAIR_DRAM_WIN_WIN0 : Fld := ⟨2, 0, 1, .rw, .none, (.num 0), false⟩  -- LPDDR5X gigabyte seen by pair core 0
/-! Registers of R40 (file 01). -/
def INTR_ROUTE_WORLD : Fld := ⟨3, 28, 30, .ro, .base, (.num 0), false⟩  -- World that owns source n
def INTR_ROUTE_TARGET : Fld := ⟨3, 24, 27, .ro, .choice, (.num 0), false⟩  -- 0 to 3: application core 0 to 3 of the side. 4: pair core 0. 5: pair core 1. 6: both pair cores. ...
def INTR_ROUTE_PRIO : Fld := ⟨3, 0, 3, .ro, .choice, (.num 0), false⟩  -- Priority, 15 highest
/-! Registers of R41 (file 01). -/
def INTR_ENABLE : Fld := ⟨4, 0, 31, .rw, .none, (.num 0), false⟩  -- Delivery enable per source. Bits of sources whose WORLD is not w read zero and ignore writes
def INTR_PENDING : Fld := ⟨5, 0, 31, .ro, .none, (.num 0), false⟩  -- Latched pending per source. Bits of sources whose WORLD is not w read zero
def INTR_CLAIM_VALID : Fld := ⟨6, 31, 31, .rc, .none, (.num 0), false⟩  -- 1 if a source was claimed by this read
def INTR_CLAIM_SOURCE : Fld := ⟨6, 0, 6, .rc, .none, (.num 0), false⟩  -- Number of the claimed source; its pending bit clears on this read
/-! Registers of R62 (file 02). -/
def DMA_SRC : Fld := ⟨7, 0, 39, .rw, .none, (.num 0), false⟩  -- Source address, unsigned 40-bit slot
def DMA_DST : Fld := ⟨8, 0, 39, .rw, .none, (.num 0), false⟩  -- Destination address, unsigned 40-bit slot
def DMA_LEN : Fld := ⟨9, 0, 23, .rw, .none, (.num 0), false⟩  -- Length in bytes, 1 to 16 777 215. A GO with BYTES = 0 sets ERR with ERRCODE 4
def DMA_CTRL_IRQ_EN : Fld := ⟨10, 16, 16, .rw, .none, (.num 0), false⟩  -- 1: DONE and ERR latch interrupt source 32 + n
def DMA_CTRL_WORLD : Fld := ⟨10, 8, 10, .ro, .base, (.num 0), false⟩  -- Owner world of the channel. Every access the channel makes is checked against this world
def DMA_CTRL_MODE : Fld := ⟨10, 1, 3, .rw, .none, (.num 0), false⟩  -- 0: copy. 1: stream. Values 2 to 7 set ERR with ERRCODE 4 on GO
def DMA_CTRL_GO : Fld := ⟨10, 0, 0, .wo, .none, (.num 0), false⟩  -- Writing 1 starts the channel
def DMA_STATUS_ERRCODE : Fld := ⟨11, 4, 7, .ro, .none, (.num 0), false⟩  -- 0: none. 1: bus error (R12). 2: ownership violation. 3: uncorrectable ECC. 4: bad setup. 5: GO ...
def DMA_STATUS_ERR : Fld := ⟨11, 2, 2, .w1c, .none, (.num 0), false⟩  -- Channel stopped on error (ERRCODE 1 to 4), or a GO refused while busy (ERRCODE 5), which does ...
def DMA_STATUS_DONE : Fld := ⟨11, 1, 1, .w1c, .none, (.num 0), false⟩  -- Copy complete, or stream buffer wrapped
def DMA_STATUS_BUSY : Fld := ⟨11, 0, 0, .ro, .none, (.num 0), false⟩  -- Channel running
/-! Registers of R63 (file 02). -/
def FAB_GAP : Fld := ⟨12, 0, 3, .w1c, .none, (.num 0), false⟩  -- Bit d set when a sample tick of grate die d was missing (R54)
def FAB_PROXY_RESET : Fld := ⟨13, 0, 39, .ro, .none, (.num 0), false⟩  -- Requests answered with TARGET_RESET by proxy responders on this side
def FAB_PROXY_ABSENT : Fld := ⟨14, 0, 39, .ro, .none, (.num 0), false⟩  -- Requests answered with TARGET_ABSENT
def FAB_REPLY_DISCARD : Fld := ⟨15, 0, 39, .ro, .none, (.num 0), false⟩  -- Replies discarded toward a unit in reset
def FAB_GAP_COUNT : Fld := ⟨16, 0, 39, .ro, .none, (.num 0), false⟩  -- Missing sample ticks of grate die d, d = 0 to 3
/-! Registers of R78 (file 03). -/
def DOOR_CMD : Fld := ⟨17, 0, 39, .wo, .none, (.num 0), false⟩  -- Appends one word to the packet under assembly
def DOOR_RPL : Fld := ⟨18, 0, 39, .rc, .none, (.num 0), false⟩  -- Removes and returns the head reply word; the idle word when empty
def DOOR_STATUS_STALL : Fld := ⟨19, 27, 27, .ro, .none, (.num 0), false⟩  -- Head packet waits for reply reservation (R75)
def DOOR_STATUS_CMD_ERR : Fld := ⟨19, 26, 26, .w1c, .none, (.num 0), false⟩  -- A write found CMD_CREDITS at 0
def DOOR_STATUS_EVT_LOST : Fld := ⟨19, 25, 25, .w1c, .none, (.num 0), false⟩  -- An event was lost (R76)
def DOOR_STATUS_PARTIAL : Fld := ⟨19, 24, 24, .ro, .none, (.num 0), false⟩  -- An incomplete packet is in the command FIFO
def DOOR_STATUS_OUTSTANDING : Fld := ⟨19, 16, 23, .ro, .none, (.num 0), false⟩  -- Outstanding tags, 0 to 255
def DOOR_STATUS_RPL_WORDS : Fld := ⟨19, 8, 14, .ro, .none, (.num 0), false⟩  -- Words in the reply FIFO, 0 to 64
def DOOR_STATUS_CMD_CREDITS : Fld := ⟨19, 0, 6, .ro, .none, (.num 64), false⟩  -- Free words in the command FIFO, 0 to 64
def DOOR_CTRL : Fld := ⟨20, 0, 0, .wo, .none, (.num 0), false⟩  -- Writing 1 discards the incomplete packet
def DOOR_OWNER_ENABLED : Fld := ⟨21, 8, 8, .ro, .base, (.num 0), false⟩  -- Door in use
def DOOR_OWNER_WORLD : Fld := ⟨21, 0, 2, .ro, .base, (.num 0), false⟩  -- Owner world
def DOOR_CMD_HI : Fld := ⟨22, 0, 7, .wo, .none, (.num 0), false⟩  -- Bits [39:32] of the next word (R72)
def DOOR_CMD_LO : Fld := ⟨23, 0, 31, .wo, .none, (.num 0), false⟩  -- Bits [31:0]; appends the word
def DOOR_RPL_HI : Fld := ⟨24, 0, 7, .rc, .none, (.num 0), false⟩  -- Removes the head word and returns its bits [39:32]
def DOOR_RPL_LO : Fld := ⟨25, 0, 31, .ro, .none, (.num 0), false⟩  -- Bits [31:0] latched by the last DOORnn_RPL_HI read
def DOOR_TAKEN_COUNT : Fld := ⟨26, 0, 39, .ro, .none, (.num 0), false⟩  -- Packets taken by the Stoker
def DOOR_STALL_COUNT : Fld := ⟨27, 0, 39, .ro, .none, (.num 0), false⟩  -- Stall episodes (R75)
def DOOR_EVT_LOST_COUNT : Fld := ⟨28, 0, 39, .ro, .none, (.num 0), false⟩  -- Events lost (R76)
def DOOR_TAG_BUSY_COUNT : Fld := ⟨29, 0, 39, .ro, .none, (.num 0), false⟩  -- Packets refused with TAG_BUSY
def DOOR_DISCARD_COUNT : Fld := ⟨30, 0, 39, .ro, .none, (.num 0), false⟩  -- Replies discarded at world restart (R77)
/-! Registers of R79 (file 03). -/
def DOOR_EVT : Fld := ⟨31, 0, 5, .ro, .base, (.num 63), false⟩  -- Event door of world w: 0 to 31, 32 for the Stoke port, 63 for none. Values 33 to 62 act as 63
/-! Registers of R112 (file 03). -/
def STOKE_STATUS_ACTIVE : Fld := ⟨32, 28, 28, .ro, .none, (.num 0), false⟩  -- CS_N is low
def STOKE_STATUS_FULL : Fld := ⟨32, 27, 27, .w1c, .none, (.num 0), false⟩  -- R109 occurred
def STOKE_STATUS_UNDERRUN : Fld := ⟨32, 26, 26, .w1c, .none, (.num 0), false⟩  -- R108 occurred
def STOKE_STATUS_OVERRUN : Fld := ⟨32, 25, 25, .w1c, .none, (.num 0), false⟩  -- R107 occurred
def STOKE_STATUS_FRAGMENT : Fld := ⟨32, 24, 24, .w1c, .none, (.num 0), false⟩  -- R106 occurred
def STOKE_STATUS_TX_WORDS : Fld := ⟨32, 16, 22, .ro, .none, (.num 0), false⟩  -- Words in the transmit FIFO, 0 to 64
def STOKE_STATUS_RX_CREDITS : Fld := ⟨32, 8, 14, .ro, .none, (.num 64), false⟩  -- Free words in the receive FIFO
def STOKE_STATUS_LAST : Fld := ⟨32, 0, 7, .ro, .none, (.num 0), false⟩  -- STATUS of the last completed transaction
def STOKE_CFG_MODE : Fld := ⟨33, 9, 9, .ro, .none, (.num 0), false⟩  -- 0: SPI mode 0. 1: SPI mode 3
def STOKE_CFG_ENABLE : Fld := ⟨33, 8, 8, .ro, .base, (.num 0), false⟩  -- Port enabled
def STOKE_CFG_WORLD_MASK : Fld := ⟨33, 0, 7, .ro, .base, (.num 0), false⟩  -- Bit w set: world w may send packets
def STOKE_PACKETS_COUNT : Fld := ⟨34, 0, 39, .ro, .none, (.num 0), false⟩  -- Packets entered into the receive FIFO
def STOKE_FRAGMENT_COUNT : Fld := ⟨35, 0, 39, .ro, .none, (.num 0), false⟩  -- R106 events
def STOKE_OVERRUN_COUNT : Fld := ⟨36, 0, 39, .ro, .none, (.num 0), false⟩  -- R107 events
def STOKE_OVERRUN_BITS : Fld := ⟨37, 0, 39, .ro, .none, (.num 0), false⟩  -- Surplus bits ignored
def STOKE_UNDERRUN_COUNT : Fld := ⟨38, 0, 39, .ro, .none, (.num 0), false⟩  -- R108 events
def STOKE_FULL_COUNT : Fld := ⟨39, 0, 39, .ro, .none, (.num 0), false⟩  -- R109 events
def STOKER_STATE_LONG_QUEUE : Fld := ⟨40, 16, 23, .ro, .none, (.num 0), false⟩  -- Long operations waiting or running
def STOKER_STATE_CHROMIR_QUEUE : Fld := ⟨40, 8, 15, .ro, .none, (.num 0), false⟩  -- Packets in the Chromir queue, 0 to 48
def STOKER_STATE_RESTARTING : Fld := ⟨40, 2, 2, .ro, .none, (.num 0), false⟩  -- Chromir restart after TIMEOUT (R86)
def STOKER_STATE_UPDATING : Fld := ⟨40, 1, 1, .ro, .none, (.num 0), false⟩  -- Chromir update in progress (R87)
def STOKER_STATE_CHROMIR_READY : Fld := ⟨40, 0, 0, .ro, .none, (.num 0), false⟩  -- Chromir serves packets
def STOKER_FAST_COUNT : Fld := ⟨41, 0, 39, .ro, .none, (.num 0), false⟩  -- Packets taken into the fast path
def STOKER_CHROMIR_COUNT : Fld := ⟨42, 0, 39, .ro, .none, (.num 0), false⟩  -- Packets taken into the Chromir queue
def STOKER_CHROMIR_MAX : Fld := ⟨43, 0, 39, .ro, .none, (.num 0), false⟩  -- Longest ordinary Chromir completion in the tally, ns
def STOKER_TIMEOUT_COUNT : Fld := ⟨44, 0, 39, .ro, .none, (.num 0), false⟩  -- TIMEOUT replies (R86)
def STOKER_BUSY_UPDATE_COUNT : Fld := ⟨45, 0, 39, .ro, .none, (.num 0), false⟩  -- BUSY_UPDATE replies
def STOKER_EVT_NONE_COUNT : Fld := ⟨46, 0, 39, .ro, .none, (.num 0), false⟩  -- Events discarded for DOOR_EVTw = none (R76)
/-! Registers of R121 (file 04). -/
def CFG_GATE_HARNESS_BURN : Fld := ⟨47, 3, 3, .ro, .choice, (.num 0), false⟩  -- 1: DMP_HARNESS_BURN (0x305) allowed
def CFG_GATE_CAL_WRITE : Fld := ⟨47, 2, 2, .ro, .choice, (.num 0), false⟩  -- 1: CAL_WRITE (0x902) allowed
def CFG_GATE_FIELD_WRITE : Fld := ⟨47, 1, 1, .ro, .choice, (.num 0), false⟩  -- 1: CFG_FIELD_WRITE (0x104) allowed
def CFG_GATE_IMAGE_LOAD : Fld := ⟨47, 0, 0, .ro, .choice, (.num 0), false⟩  -- 1: CFG_IMAGE_LOAD (0x105) allowed, for every slot
/-! Registers of R136 (file 04). -/
def CFG_MODE_ACTIVE : Fld := ⟨48, 0, 11, .ro, .none, (.num 0), false⟩  -- Active mask in force
def CFG_MODE_CMD : Fld := ⟨49, 0, 11, .ro, .none, (.num 0), false⟩  -- Commanded mask in force
def CFG_MODE_HW : Fld := ⟨50, 0, 11, .ro, .none, (.num 0), false⟩  -- Hardware mask in force; bits 0 to 7 always zero
def CFG_STATUS_FIELD_WRITTEN : Fld := ⟨51, 7, 7, .ro, .none, (.num 0), false⟩  -- R127
def CFG_STATUS_CLAMPED : Fld := ⟨51, 6, 6, .w1c, .none, (.num 0), false⟩  -- R116
def CFG_STATUS_CAL_BAD : Fld := ⟨51, 5, 5, .ro, .none, (.num 0), false⟩  -- R135
def CFG_STATUS_REBOOT_PENDING : Fld := ⟨51, 4, 4, .ro, .none, (.num 0), false⟩  -- R125
def CFG_STATUS_IMAGE_MISMATCH : Fld := ⟨51, 3, 3, .ro, .none, (.num 0), false⟩  -- R126
def CFG_STATUS_MASK_DIVERGED : Fld := ⟨51, 2, 2, .ro, .none, (.num 0), false⟩  -- R132
def CFG_STATUS_DEFERRED : Fld := ⟨51, 1, 1, .w1c, .none, (.num 0), false⟩  -- R130
def CFG_STATUS_PENDING : Fld := ⟨51, 0, 0, .ro, .none, (.num 0), false⟩  -- A snapshot is prepared and not yet in force
def CFG_STALE_LOCAL : Fld := ⟨52, 5, 5, .ro, .none, (.num 0), false⟩  -- A local unit of this side is stale
def CFG_STALE_FLUE : Fld := ⟨52, 4, 4, .ro, .none, (.num 0), false⟩  -- Flue die stale
def CFG_STALE_GRATE : Fld := ⟨52, 0, 3, .ro, .none, (.num 0), false⟩  -- Bit d: grate die Gd stale
def CFG_COMMIT_SEQ : Fld := ⟨53, 0, 39, .ro, .none, (.num 0), false⟩  -- Commits that changed at least one value
def CFG_DEFER_COUNT : Fld := ⟨54, 0, 39, .ro, .none, (.num 0), false⟩  -- Deferred ticks
def CFG_STALE_COUNT : Fld := ⟨55, 0, 39, .ro, .none, (.num 0), false⟩  -- Commits made with a unit left stale
def CFG_MANTEL_VERSION : Fld := ⟨56, 0, 39, .ro, .none, (.num 0), false⟩  -- Running mantel image
def CFG_MANTEL_PENDING : Fld := ⟨57, 0, 39, .ro, .none, (.num 0), false⟩  -- Mantel version whose wake-applied BASE fields await Kindling; 0 if none
def CFG_OVL_VERSION : Fld := ⟨58, 0, 39, .ro, .none, (.num 0), false⟩  -- Overlay image n, n = 0 to 11; 0 when overlay n uses the mantel image's records
/-! Registers of R157 (file 05). -/
def EMBER_STATE_PENDING : Fld := ⟨59, 13, 13, .ro, .none, (.num 0), false⟩  -- A SYS_STATE_SET waits out its delay
def EMBER_STATE_PEND_TARGET : Fld := ⟨59, 11, 12, .ro, .none, (.num 0), false⟩  -- Target of the pending request
def EMBER_STATE_FEED_B_LOSS : Fld := ⟨59, 10, 10, .ro, .none, (.num 0), false⟩  -- FEED_B lost and not yet returned
def EMBER_STATE_FEED_A_LOSS : Fld := ⟨59, 9, 9, .ro, .none, (.num 0), false⟩  -- FEED_A lost and not yet returned
def EMBER_STATE_FLUE_NOREF : Fld := ⟨59, 8, 8, .ro, .none, (.num 0), false⟩  -- R146
def EMBER_STATE_LIMP_B : Fld := ⟨59, 7, 7, .ro, .none, (.num 0), false⟩  -- Side B in limp clock
def EMBER_STATE_LIMP_A : Fld := ⟨59, 6, 6, .ro, .none, (.num 0), false⟩  -- Side A in limp clock
def EMBER_STATE_SIDE_B_UP : Fld := ⟨59, 5, 5, .ro, .none, (.num 0), false⟩  -- Side B Stoker ready
def EMBER_STATE_SIDE_A_UP : Fld := ⟨59, 4, 4, .ro, .none, (.num 0), false⟩  -- Side A Stoker ready
def EMBER_STATE_CONFIRM_WAIT : Fld := ⟨59, 3, 3, .ro, .none, (.num 0), false⟩  -- Confirmation window open
def EMBER_STATE_SHUTDOWN : Fld := ⟨59, 2, 2, .ro, .none, (.num 0), false⟩  -- Sleep sequence running
def EMBER_STATE_STATE : Fld := ⟨59, 0, 1, .ro, .none, (.num 2), false⟩  -- 2 Glowing, 3 Lit
def EMBER_FEED_EVT_B_OVER : Fld := ⟨60, 7, 7, .w1c, .none, (.num 0), false⟩  -- FEED_B rose above 32 V
def EMBER_FEED_EVT_A_OVER : Fld := ⟨60, 6, 6, .w1c, .none, (.num 0), false⟩  -- FEED_A rose above 32 V
def EMBER_FEED_EVT_B_RETURN : Fld := ⟨60, 5, 5, .w1c, .none, (.num 0), false⟩  -- FEED_B returned
def EMBER_FEED_EVT_A_RETURN : Fld := ⟨60, 4, 4, .w1c, .none, (.num 0), false⟩  -- FEED_A returned
def EMBER_FEED_EVT_B_LOSS : Fld := ⟨60, 3, 3, .w1c, .none, (.num 0), false⟩  -- FEED_B lost
def EMBER_FEED_EVT_A_LOSS : Fld := ⟨60, 2, 2, .w1c, .none, (.num 0), false⟩  -- FEED_A lost
def EMBER_FEED_EVT_B_LOW16 : Fld := ⟨60, 1, 1, .w1c, .none, (.num 0), false⟩  -- FEED_B fell below 16 V
def EMBER_FEED_EVT_A_LOW16 : Fld := ⟨60, 0, 0, .w1c, .none, (.num 0), false⟩  -- FEED_A fell below 16 V. Each bit latches interrupt source 91 when set
def EMBER_GATE_COLD : Fld := ⟨61, 2, 2, .ro, .choice, (.num 1), false⟩  -- 1: SYS_STATE_SET target 0 allowed
def EMBER_GATE_BANKED : Fld := ⟨61, 1, 1, .ro, .choice, (.num 1), false⟩  -- 1: target 1 allowed
def EMBER_GATE_GLOWING : Fld := ⟨61, 0, 0, .ro, .choice, (.num 1), false⟩  -- 1: target 2 from Lit allowed
def EMBER_WAKE_CFG_LOC_POL : Fld := ⟨62, 4, 7, .ro, .base, (.num 15), false⟩  -- Bit n: 1 if WAKE_LOC_n wakes when high, 0 if when low
def EMBER_WAKE_CFG_LOC_EN : Fld := ⟨62, 0, 3, .ro, .request, (.num 0), false⟩  -- Bit n: WAKE_LOC_n is a wake source
def EMBER_WAKE_TARGET_FEED : Fld := ⟨63, 10, 11, .ro, .choice, (.num 3), false⟩  -- Target of FEED_RETURN and POWER_ON: 3 Lit, any other value Glowing
def EMBER_WAKE_TARGET_ETH : Fld := ⟨63, 8, 9, .ro, .choice, (.num 2), false⟩  -- Target of TC10 wakes, coded as FEED
def EMBER_WAKE_TARGET_CAN : Fld := ⟨63, 6, 7, .ro, .choice, (.num 2), false⟩  -- Target of CAN wakes
def EMBER_WAKE_TARGET_RTC : Fld := ⟨63, 4, 5, .ro, .choice, (.num 2), false⟩  -- Target of RTC wakes
def EMBER_WAKE_TARGET_LOC : Fld := ⟨63, 2, 3, .ro, .choice, (.num 2), false⟩  -- Target of LOC wakes
def EMBER_WAKE_TARGET_KL15 : Fld := ⟨63, 0, 1, .ro, .choice, (.num 3), false⟩  -- Target of KL15 wakes
def EMBER_TC10_FWD : Fld := ⟨64, 18, 29, .ro, .request, (.num 0), false⟩  -- Bit 16 + n: send a wake-up pulse on port n after wake, n = 2 to 13
def EMBER_TC10_EN : Fld := ⟨64, 2, 13, .ro, .request, (.num 0), false⟩  -- Bit n: port n is a Banked wake source
def EMBER_TIMING_LOC_DEB : Fld := ⟨65, 24, 31, .ro, .choice, (.num 10), false⟩  -- WAKE_LOC debounce, 0.1 ms units, 1 to 255; 0 acts as 1
def EMBER_TIMING_KL15_DEB : Fld := ⟨65, 16, 22, .ro, .choice, (.num 10), false⟩  -- WAKE_KL15 debounce, 0.1 ms units, 1 to 100; values outside act as the nearest bound
def EMBER_TIMING_CONFIRM : Fld := ⟨65, 0, 15, .ro, .choice, (.num 500), false⟩  -- Confirmation window, ms, 100 to 10 000; values outside act as the nearest bound
def EMBER_BANK_TIME_LIMIT : Fld := ⟨66, 16, 31, .ro, .limit, (.num 65535), false⟩  -- Hours in Banked before Cold hearth, 1 to 65 534; 0xFFFF: never. 0 acts as 1
def EMBER_BANK_TIME_ALARM : Fld := ⟨66, 0, 15, .ro, .choice, (.num 0), false⟩  -- RTC wake, minutes after entry to Banked; 0: none
def EMBER_FEED_A_V : Fld := ⟨67, 0, 39, .ro, .none, (.num 0), true⟩  -- FEED_A voltage, Q20.20. Updated every 100 µs of the Ember's own timebase. The update instants ...
def EMBER_FEED_B_V : Fld := ⟨68, 0, 39, .ro, .none, (.num 0), true⟩  -- FEED_B voltage, Q20.20, updated in the same way as EMBER_FEED_A_V
def EMBER_WREC : Fld := ⟨69, 0, 39, .ro, .none, (.num 0), false⟩  -- Wake record word i, i = 0 to 3 (R156)
def EMBER_WAKE_COUNT : Fld := ⟨70, 0, 39, .ro, .none, (.num 0), false⟩  -- Wakes declared
def EMBER_FALSE_WAKE_COUNT : Fld := ⟨71, 0, 39, .ro, .none, (.num 0), false⟩  -- Unconfirmed wakes (R147)
def EMBER_FAILED_WAKE_COUNT : Fld := ⟨72, 0, 39, .ro, .none, (.num 0), false⟩  -- Wakes with outcome FAILED (R144)
def EMBER_REWAKE_COUNT : Fld := ⟨73, 0, 39, .ro, .none, (.num 0), false⟩  -- R149
/-! Registers of R191 (file 06). -/
def MEAS_I : Fld := ⟨74, 0, 39, .ro, .none, (.num 0), true⟩  -- Current, Q20.20 signed
def MEAS_V : Fld := ⟨75, 0, 39, .ro, .none, (.num 0), true⟩  -- Output voltage against the die's ground stud, Q20.20 signed
def MEAS_TJ : Fld := ⟨76, 0, 39, .ro, .none, (.num 0), true⟩  -- Junction temperature, Q20.20 signed
def MEAS_E : Fld := ⟨77, 0, 39, .ro, .none, (.num 0), false⟩  -- Energy since the tally boundary, unsigned (R190)
def MEAS_TICK : Fld := ⟨78, 0, 39, .ro, .none, (.num 0), false⟩  -- Index of the tick of the values above, unsigned
def MEAS_FEED_V : Fld := ⟨79, 0, 39, .ro, .none, (.num 0), true⟩  -- Feed bus voltage, Q20.20 signed
def MEAS_FEED_I : Fld := ⟨80, 0, 39, .ro, .none, (.num 0), true⟩  -- Sum of the die's sixteen currents, Q20.20 signed
def MEAS_DIE_TICK : Fld := ⟨81, 0, 39, .ro, .none, (.num 0), false⟩  -- Index of the latest sample tick, unsigned, from die power-on
def MEAS_STATUS_FEED_OV : Fld := ⟨82, 3, 3, .ro, .none, (.num 0), false⟩  -- Feed bus above 32 V (R184)
def MEAS_STATUS_FEED_REVERSED : Fld := ⟨82, 2, 2, .ro, .none, (.num 0), false⟩  -- Feed bus below −1.0 V (R182)
def MEAS_STATUS_FEED_ABSENT : Fld := ⟨82, 1, 1, .ro, .none, (.num 0), false⟩  -- Feed bus declared absent (R182)
def MEAS_STATUS_TICK_FREE : Fld := ⟨82, 0, 0, .ro, .none, (.num 0), false⟩  -- Sample tick free-running (R187)
/-! Registers of R198 (file 06). -/
def CH_STATE_SAT : Fld := ⟨83, 21, 21, .ro, .none, (.num 0), false⟩  -- A measurement saturated at the latest tick (R188)
def CH_STATE_MODE : Fld := ⟨83, 20, 20, .ro, .none, (.num 0), false⟩  -- 0 static, 1 PWM
def CH_STATE_RETRIES_USED : Fld := ⟨83, 16, 19, .ro, .none, (.num 0), false⟩  -- Attempts used (R174), saturated at 15
def CH_STATE_SPARK_LAST : Fld := ⟨83, 15, 15, .ro, .none, (.num 0), false⟩  -- Last applied change came from a spark action
def CH_STATE_OWNER : Fld := ⟨83, 12, 14, .ro, .none, (.num 0), false⟩  -- Copy of CH_CFG2.OWNER
def CH_STATE_PRIO : Fld := ⟨83, 10, 11, .ro, .none, (.num 0), false⟩  -- Priority P0 to P3, set by DMP_PRIORITY_SET (0x302)
def CH_STATE_HELD : Fld := ⟨83, 9, 9, .ro, .none, (.num 0), false⟩  -- A turn-on is held by the Damper
def CH_STATE_CMD_ON : Fld := ⟨83, 8, 8, .ro, .none, (.num 0), false⟩  -- Commanded state
def CH_STATE_FAULT : Fld := ⟨83, 4, 7, .ro, .none, (.num 0), false⟩  -- R163
def CH_STATE_STATE : Fld := ⟨83, 0, 3, .ro, .none, (.num 0), false⟩  -- R161
def CH_DIAG : Fld := ⟨84, 0, 9, .ro, .none, (.num 0), false⟩  -- Bit (code − 1) per fault code 1 to 10; cleared by CH_CLEAR (R186)
def CH_RETRY_INTERVAL : Fld := ⟨85, 8, 23, .ro, .none, (.num 0), false⟩  -- ms, from CH_CONFIG P2
def CH_RETRY_LIMIT : Fld := ⟨85, 4, 7, .ro, .none, (.num 0), false⟩  -- From CH_CONFIG P2
def CH_RETRY_POLICY : Fld := ⟨85, 0, 3, .ro, .none, (.num 0), false⟩  -- R173; 0 (LATCH) until first set
def CH_PWM_FREQ_COMP : Fld := ⟨86, 19, 19, .ro, .none, (.num 0), false⟩  -- Supply-voltage compensation
def CH_PWM_FREQ_PHASE : Fld := ⟨86, 16, 18, .ro, .none, (.num 0), false⟩  -- R177
def CH_PWM_FREQ_FREQ : Fld := ⟨86, 0, 14, .ro, .none, (.num 0), false⟩  -- Hz
def CH_PWM_DUTY_DEFF : Fld := ⟨87, 16, 31, .ro, .none, (.num 0), false⟩  -- Effective duty of the running period (R179)
def CH_PWM_DUTY_DUTY : Fld := ⟨87, 0, 15, .ro, .none, (.num 0), false⟩  -- Commanded duty
def CH_ILIM_CMD : Fld := ⟨88, 0, 39, .ro, .none, (.byClass 62914560 15728640 4718592), true⟩  -- Commanded limit, Q20.20
def CH_ILIM_EFF : Fld := ⟨89, 0, 39, .ro, .none, (.byClass 62914560 15728640 4718592), true⟩  -- Effective limit (R170)
def CH_ILIM_CEIL : Fld := ⟨90, 0, 39, .ro, .limit, (.byClass 157286400 41943040 10485760), true⟩  -- Configured ceiling on the limit, Q20.20
def CH_OPEN_TH : Fld := ⟨91, 0, 39, .ro, .choice, (.byClass 209715 52428 5242), true⟩  -- Open-load threshold, Q20.20
def CH_VREF : Fld := ⟨92, 0, 39, .ro, .choice, (.num 0x1800000), true⟩  -- Compensation reference, Q20.20, 9.0 to 32.0
def CH_CFG0_PWM_SLEW : Fld := ⟨93, 16, 24, .ro, .choice, (.num 100), false⟩  -- PWM edge slew, 0.01 V/µs, 5 to 500
def CH_CFG0_SLEW_DEF : Fld := ⟨93, 0, 8, .ro, .choice, (.num 50), false⟩  -- Default static slew, 0.01 V/µs, 5 to 500
def CH_CFG1_INRUSH_MAX : Fld := ⟨94, 24, 31, .ro, .choice, (.byClass 20 10 5), false⟩  -- ms, 1 to 255
def CH_CFG1_RETRY_CEIL : Fld := ⟨94, 20, 23, .ro, .limit, (.num 15), false⟩  -- Attempt cap; 15 means none
def CH_CFG1_DIAG_EN : Fld := ⟨94, 16, 18, .ro, .request, (.num 1), false⟩  -- [0] OPEN_ON, [1] OPEN_OFF pull-up, [2] SHORT_BAT
def CH_CFG1_RETRY_MIN : Fld := ⟨94, 0, 15, .ro, .floor, (.num 50), false⟩  -- Minimum retry interval, ms
def CH_CFG2 : Fld := ⟨95, 0, 2, .ro, .base, (.num 0), false⟩  -- Owner world of the channel
def CH_TURN_ON_COUNT : Fld := ⟨96, 0, 39, .ro, .none, (.num 0), false⟩  -- Turn-ons begun, commanded or autonomous
def CH_LIMIT_COUNT : Fld := ⟨97, 0, 39, .ro, .none, (.num 0), false⟩  -- Entries into LIMIT
def CH_TSD_COUNT : Fld := ⟨98, 0, 39, .ro, .none, (.num 0), false⟩  -- Entries into TSD
def CH_RETRY_COUNT : Fld := ⟨99, 0, 39, .ro, .none, (.num 0), false⟩  -- Retry attempts
def CH_LATCH_COUNT : Fld := ⟨100, 0, 39, .ro, .none, (.num 0), false⟩  -- Entries into LATCHED
def CH_EVT_SUPPRESS_COUNT : Fld := ⟨101, 0, 39, .ro, .none, (.num 0), false⟩  -- Events not posted (R197)
def CH_PWM_CLIP_COUNT : Fld := ⟨102, 0, 39, .ro, .none, (.num 0), false⟩  -- Periods with a phase not produced (R178)
/-! Registers of R229 (file 07). -/
def DMP_CFG : Fld := ⟨103, 16, 31, .ro, .limit, (.num 100), false⟩  -- ms, 10 to 10 000 (R223); a value outside this range acts as the nearest bound. The lowest of the ...
def DMP_BUDGET_MOD : Fld := ⟨104, 0, 39, .ro, .limit, (.num 0x19000000), true⟩  -- Module budget, 0 to 400
def DMP_BUDGET_FEED : Fld := ⟨105, 0, 39, .ro, .limit, (.num 0xfa00000), true⟩  -- Budget of each feed, 0 to 250
def DMP_DISS_CEIL : Fld := ⟨106, 0, 39, .ro, .limit, (.num 0x5f00000), true⟩  -- Ceiling on the dissipation budget, 0 to 95
def DMP_RES_MOD : Fld := ⟨107, 0, 39, .ro, .floor, (.num 0x3c00000), true⟩  -- P0 reserve, module
def DMP_RES_FEED : Fld := ⟨108, 0, 39, .ro, .floor, (.num 0x2800000), true⟩  -- P0 reserve, each feed
def DMP_RES_DISS : Fld := ⟨109, 0, 39, .ro, .floor, (.num 0xa00000), true⟩  -- P0 reserve, dissipation
def DMP_CLAIM : Fld := ⟨110, 0, 39, .ro, .none, (.num 0), true⟩  -- C0 + Cn of budget b = 1 to 4
def DMP_P0 : Fld := ⟨111, 0, 39, .ro, .none, (.num 0), true⟩  -- C0 of budget b
def DMP_DISS_BUDGET : Fld := ⟨112, 0, 39, .ro, .none, (.num 0x5f00000), true⟩  -- min(Pmax(T), DMP_DISS_CEIL)
def DMP_LOGIC_W : Fld := ⟨113, 0, 39, .ro, .none, (.num 0), true⟩  -- P_logic (R215)
def DMP_COOLANT : Fld := ⟨114, 0, 39, .ro, .none, (.num 0), true⟩  -- T (R215)
def DMP_STATUS_SENSOR_BAD : Fld := ⟨115, 7, 7, .ro, .none, (.num 0), false⟩  -- R215
def DMP_STATUS_UNCAL : Fld := ⟨115, 6, 6, .ro, .none, (.num 0), false⟩  -- R212
def DMP_STATUS_BUS_GAP : Fld := ⟨115, 5, 5, .ro, .none, (.num 0), false⟩  -- R216. Set from the first exchange at which a die's message is missing or G0 does not pace. ...
def DMP_STATUS_BUDGET_OVER : Fld := ⟨115, 4, 4, .ro, .none, (.num 0), false⟩  -- R223
def DMP_STATUS_P0_OVER : Fld := ⟨115, 3, 3, .ro, .none, (.num 0), false⟩  -- R223
def DMP_STATUS_RIDE_B : Fld := ⟨115, 2, 2, .ro, .none, (.num 0), false⟩  -- R225, FEED_B
def DMP_STATUS_RIDE_A : Fld := ⟨115, 1, 1, .ro, .none, (.num 0), false⟩  -- R225, FEED_A
def DMP_STATUS_DERATE_HW : Fld := ⟨115, 0, 0, .ro, .none, (.num 0), false⟩  -- R224
def DMP_HOLD_COUNT : Fld := ⟨116, 0, 39, .ro, .none, (.num 0), false⟩  -- Turn-ons held, this die
def DMP_HOLD_ADMIT_COUNT : Fld := ⟨117, 0, 39, .ro, .none, (.num 0), false⟩  -- Held turn-ons admitted
def DMP_REFUSE_BUDGET_COUNT : Fld := ⟨118, 0, 39, .ro, .none, (.num 0), false⟩  -- REFUSED_BUDGET replies
def DMP_REFUSE_LIMIT_COUNT : Fld := ⟨119, 0, 39, .ro, .none, (.num 0), false⟩  -- REFUSED_LIMIT by the Damper
def DMP_SHED_COUNT : Fld := ⟨120, 0, 39, .ro, .none, (.num 0), false⟩  -- Channels shed
def DMP_SPARK_REFUSE_COUNT : Fld := ⟨121, 0, 39, .ro, .none, (.num 0), false⟩  -- Spark actions refused (R222)
/-! Registers of R230 (file 07). -/
def DMP_CH_CFG_HOLD : Fld := ⟨122, 16, 28, .ro, .none, (.num 100), false⟩  -- ms, from DMP_PRIORITY_SET (0x302)
def DMP_CH_CFG_PRIO : Fld := ⟨122, 0, 1, .ro, .none, (.num 0), false⟩  -- Same value as CH_STATE.PRIO
def DMP_CH_ADMIT : Fld := ⟨123, 0, 39, .ro, .floor, (.byClass 41943040 10485760 3145728), true⟩  -- Claim current at turn-on (R214)
def DMP_CH_CLAIM : Fld := ⟨124, 0, 39, .ro, .none, (.num 0), true⟩  -- Present current claim
def DMP_CH_STATUS_SHED : Fld := ⟨125, 29, 29, .ro, .none, (.num 0), false⟩  -- In DAMPER_OFF by a shed
def DMP_CH_STATUS_HELD_SIDE : Fld := ⟨125, 28, 28, .ro, .none, (.num 0), false⟩  -- Side of the held command: 0 A, 1 B
def DMP_CH_STATUS_HELD_TAG : Fld := ⟨125, 20, 27, .ro, .none, (.num 0), false⟩  -- Tag of the held command; 0xFF for an autonomous turn-on
def DMP_CH_STATUS_TURN_ONS : Fld := ⟨125, 10, 19, .ro, .none, (.num 0), false⟩  -- Turn-ons in the last 10 s
def DMP_CH_HOLD_LEFT : Fld := ⟨126, 0, 12, .ro, .none, (.num 0), false⟩  -- Hold time left, ms
def DMP_CH_REFUSE_COUNT : Fld := ⟨127, 0, 39, .ro, .none, (.num 0), false⟩  -- Refusals of this channel, both kinds
def DMP_CH_SHED_COUNT : Fld := ⟨128, 0, 39, .ro, .none, (.num 0), false⟩  -- Sheds of this channel
/-! Registers of R231 (file 07). -/
def WIRE_THETA : Fld := ⟨129, 0, 39, .ro, .none, (.num 0), true⟩  -- Wire temperature rise (R209)
def WIRE_ISQ : Fld := ⟨130, 0, 39, .ro, .none, (.num 0), true⟩  -- Mean squared current of the latest step
def WIRE_STATUS_COOLING : Fld := ⟨131, 1, 1, .ro, .none, (.num 0), false⟩  -- R210
def WIRE_STATUS_TRIPPED : Fld := ⟨131, 0, 0, .ro, .none, (.num 0), false⟩  -- Set at a trip (R210). Stays set when COOLING clears, and clears at the next admitted turn-on of ...
def WIRE_TRIP_COUNT : Fld := ⟨132, 0, 39, .ro, .none, (.num 0), false⟩  -- Trips
/-! Registers of R232 (file 07). -/
def HRN_STATUS_BAD : Fld := ⟨133, 4, 4, .ro, .none, (.num 0), false⟩  -- HARNESS_BAD (R203)
def HRN_STATUS_SLOT1_VOID : Fld := ⟨133, 3, 3, .ro, .none, (.num 0), false⟩  -- Second slot void
def HRN_STATUS_SLOT0_VOID : Fld := ⟨133, 2, 2, .ro, .none, (.num 0), false⟩  -- First slot void
def HRN_STATUS_SLOT : Fld := ⟨133, 1, 1, .ro, .none, (.num 0), false⟩  -- Slot of the valid record
def HRN_STATUS_BURNED : Fld := ⟨133, 0, 0, .ro, .none, (.num 0), false⟩  -- A valid record exists
/-! Registers of R253 (file 08). -/
def SPK_GATE_ENABLE : Fld := ⟨134, 1, 1, .ro, .choice, (.num 1), false⟩  -- 1: SPK_RULE_ENABLE with ENABLE = 1 allowed
def SPK_GATE_WRITE : Fld := ⟨134, 0, 0, .ro, .choice, (.num 1), false⟩  -- 1: SPK_RULE_WRITE allowed
def SPK_WORLD_RUN : Fld := ⟨135, 0, 7, .ro, .permit, (.num 255), false⟩  -- Bit w: rules of world w may fire
def SPK_STATUS_THRESH : Fld := ⟨136, 3, 3, .w1c, .none, (.num 0), false⟩  -- A THRESH event occurred
def SPK_STATUS_SEAL_FAIL : Fld := ⟨136, 2, 2, .w1c, .none, (.num 0), false⟩  -- A SEAL_FAIL event occurred
def SPK_STATUS_REFUSED : Fld := ⟨136, 1, 1, .w1c, .none, (.num 0), false⟩  -- A REFUSED event occurred
def SPK_STATUS_READY : Fld := ⟨136, 0, 0, .ro, .none, (.num 0), false⟩  -- Matcher in service
def SPK_FIRE_LIMIT : Fld := ⟨137, 0, 15, .ro, .choice, (.num 0), false⟩  -- Fires of one rule in a tally that raise THRESH; 0 for none
def SPK_FIRE_COUNT : Fld := ⟨138, 0, 39, .ro, .none, (.num 0), false⟩  -- Fires of all rules
def SPK_REFUSED_COUNT : Fld := ⟨139, 0, 39, .ro, .none, (.num 0), false⟩  -- Answers other than OK
def SPK_MASKED_COUNT : Fld := ⟨140, 0, 39, .ro, .none, (.num 0), false⟩  -- Matches stopped by SPK_WORLD_RUN
def SPK_HOLDOFF_COUNT : Fld := ⟨141, 0, 39, .ro, .none, (.num 0), false⟩  -- Matches stopped by HOLDOFF
def SPK_SEAL_FAIL_COUNT : Fld := ⟨142, 0, 39, .ro, .none, (.num 0), false⟩  -- SEAL_FAIL conditions, suppressed events included
def SPK_LINE_WAIT_COUNT : Fld := ⟨143, 0, 39, .ro, .none, (.num 0), false⟩  -- Waits for a line credit
def SPK_EVT_SUPPRESS_COUNT : Fld := ⟨144, 0, 39, .ro, .none, (.num 0), false⟩  -- Events not posted (R252)
/-! Registers of R254 (file 08). -/
def SPK_RULE_W : Fld := ⟨145, 0, 39, .ro, .none, (.num 0), false⟩  -- Word Wk of the record, k = 1 to 12
def SPK_RULE_CTRL_COMPARED : Fld := ⟨146, 4, 4, .ro, .none, (.num 0), false⟩  -- R246
def SPK_RULE_CTRL_OWNER : Fld := ⟨146, 1, 3, .ro, .base, (.num 0), false⟩  -- Owner world
def SPK_RULE_CTRL_ENABLED : Fld := ⟨146, 0, 0, .ro, .none, (.num 0), false⟩  -- Rule enabled
def SPK_RULE_FIRES : Fld := ⟨147, 0, 39, .ro, .none, (.num 0), false⟩  -- Fires
def SPK_RULE_REFUSED : Fld := ⟨148, 0, 39, .ro, .none, (.num 0), false⟩  -- REFUSED_LIMIT and REFUSED_BUDGET answers
def SPK_RULE_DENIED : Fld := ⟨149, 0, 39, .ro, .none, (.num 0), false⟩  -- WORLD_DENIED and TARGET_ABSENT answers
def SPK_RULE_LAST_S : Fld := ⟨150, 0, 39, .ro, .none, (.num 0), false⟩  -- Seconds word of the last fire
def SPK_RULE_LAST_NS : Fld := ⟨151, 0, 39, .ro, .none, (.num 0), false⟩  -- Nanosecond word of the last fire
/-! Registers of R256 (file 08). -/
def CH_SPARK : Fld := ⟨152, 0, 7, .ro, .permit, (.num 0), false⟩  -- Bit w: actions of rules owned by world w may act on the channel
/-! Registers of R260 (file 09). -/
def GRATE_TOKEN_LOSS : Fld := ⟨153, 16, 24, .ro, .none, (.num 100), false⟩  -- Loss time in force, µs: a copy of SIDE_CFG.LOSS delivered by the holder's commits
def GRATE_TOKEN_WINDOW : Fld := ⟨153, 7, 7, .ro, .none, (.num 0), false⟩  -- The handover window is open
def GRATE_TOKEN_CLAIMANT : Fld := ⟨153, 6, 6, .ro, .none, (.num 0), false⟩  -- Side of the pending claim: 0 A, 1 B
def GRATE_TOKEN_STATE : Fld := ⟨153, 2, 4, .ro, .none, (.num 3), false⟩  -- 0 HELD, 1 LAPSED, 2 CLAIMED, 3 VACANT, 4 RELEASING
def GRATE_TOKEN_HOLDER : Fld := ⟨153, 0, 1, .ro, .none, (.num 3), false⟩  -- 0 Side A, 1 Side B, 3 none
def GRATE_HB_AGE_A : Fld := ⟨154, 0, 39, .ro, .none, (.num 0xffffffffff), false⟩  -- Age of the last Side A heartbeat, ns, unsigned, saturating
def GRATE_HB_AGE_B : Fld := ⟨155, 0, 39, .ro, .none, (.num 0xffffffffff), false⟩  -- As above, Side B
def GRATE_TOKEN_CHANGE_COUNT : Fld := ⟨156, 0, 39, .ro, .none, (.num 0), false⟩  -- Token changes
def GRATE_LAPSE_COUNT : Fld := ⟨157, 0, 39, .ro, .none, (.num 0), false⟩  -- Lapses (R263)
def GRATE_LATE_APPLIED_COUNT : Fld := ⟨158, 0, 39, .ro, .none, (.num 0), false⟩  -- Old-holder commands applied in the handover window
def GRATE_LATE_REFUSED_COUNT : Fld := ⟨159, 0, 39, .ro, .none, (.num 0), false⟩  -- Old-holder commands refused after the window
def GRATE_LAST_CHANGE_S : Fld := ⟨160, 0, 39, .ro, .none, (.num 0), false⟩  -- Seconds word of the commit tick of the last token change
def GRATE_LAST_CHANGE_NS : Fld := ⟨161, 0, 39, .ro, .none, (.num 0), false⟩  -- Nanosecond word of that tick
/-! Registers of R286 (file 09). -/
def PAIR_CFG_WINDOW : Fld := ⟨162, 16, 25, .ro, .limit, (.num 50), false⟩  -- Compare window, µs, 1 to 1 000; 0 acts as 1
def PAIR_CFG_DOOR : Fld := ⟨162, 8, 12, .ro, .base, (.num 0), false⟩  -- Pair door, 0 to 31
def PAIR_CFG_RESTARTS : Fld := ⟨162, 4, 7, .ro, .base, (.num 3), false⟩  -- R284
def PAIR_CFG_ON_MISMATCH : Fld := ⟨162, 1, 2, .ro, .base, (.num 0), false⟩  -- R284; 3 acts as 1
def PAIR_CFG_MODE : Fld := ⟨162, 0, 0, .ro, .base, (.num 0), false⟩  -- R280
def PAIR_STATUS_KIND : Fld := ⟨163, 5, 7, .ro, .none, (.num 0), false⟩  -- Last mismatch: 1 OUT_DATA, 2 OUT_TIME, 3 SIG_DATA, 4 SIG_TIME, 5 COMPARATOR
def PAIR_STATUS_HALTED : Fld := ⟨163, 4, 4, .ro, .none, (.num 0), false⟩  -- R284
def PAIR_STATUS_MISMATCH : Fld := ⟨163, 3, 3, .w1c, .none, (.num 0), false⟩  -- A mismatch occurred
def PAIR_STATUS_SPLIT : Fld := ⟨163, 2, 2, .ro, .none, (.num 0), false⟩  -- MODE 1 in force
def PAIR_STATUS_CORE1_RUN : Fld := ⟨163, 1, 1, .ro, .none, (.num 0), false⟩  -- Pair core 1 running
def PAIR_STATUS_CORE0_RUN : Fld := ⟨163, 0, 0, .ro, .none, (.num 0), false⟩  -- Pair core 0 running
def PAIR_OUT_HI : Fld := ⟨164, 0, 7, .wo, .none, (.num 0), false⟩  -- Bits [39:32] of the next packet word
def PAIR_OUT_LO : Fld := ⟨165, 0, 31, .wo, .none, (.num 0), false⟩  -- Bits [31:0]; appends the word
def PAIR_RPL_HI : Fld := ⟨166, 0, 7, .rc, .none, (.num 0), false⟩  -- Removes the head word of the core's copy and returns bits [39:32]; the idle word's bits when empty
def PAIR_RPL_LO : Fld := ⟨167, 0, 31, .ro, .none, (.num 0), false⟩  -- Bits [31:0] latched by the last PAIR_RPL_HI read
def PAIR_SIG_HI : Fld := ⟨168, 0, 7, .wo, .none, (.num 0), false⟩  -- Signature bits [39:32]
def PAIR_SIG_LO : Fld := ⟨169, 0, 31, .wo, .none, (.num 0), false⟩  -- Signature bits [31:0]; completes the signature
def PAIR_LEVEL_RPL_WORDS : Fld := ⟨170, 8, 14, .ro, .none, (.num 0), false⟩  -- Words in the core's copy buffer, 0 to 64
def PAIR_LEVEL_OUT_CREDITS : Fld := ⟨170, 0, 6, .ro, .none, (.num 64), false⟩  -- Free words in the core's output buffer
def PAIR_COMPARED_COUNT : Fld := ⟨171, 0, 39, .ro, .none, (.num 0), false⟩  -- Packets sent as COMPARED
def PAIR_MISMATCH_COUNT : Fld := ⟨172, 0, 39, .ro, .none, (.num 0), false⟩  -- Mismatches of all kinds
def PAIR_SIG_COUNT : Fld := ⟨173, 0, 39, .ro, .none, (.num 0), false⟩  -- Signature pairs compared equal
def PAIR_RESTART_COUNT : Fld := ⟨174, 0, 39, .ro, .none, (.num 0), false⟩  -- RESTART actions
/-! Registers of R287 (file 09). -/
def SIDE_STATUS_RETURN_WAIT : Fld := ⟨175, 12, 12, .ro, .none, (.num 0), false⟩  -- A RETURN_HOME hold-off is running
def SIDE_STATUS_MIRROR_TORN : Fld := ⟨175, 11, 11, .w1c, .none, (.num 0), false⟩  -- R278
def SIDE_STATUS_SPLIT : Fld := ⟨175, 10, 10, .ro, .none, (.num 0), false⟩  -- Peer LOST (R273)
def SIDE_STATUS_HEALTHY : Fld := ⟨175, 9, 9, .ro, .none, (.num 0), false⟩  -- This side is healthy (R272)
def SIDE_STATUS_RETURN_HOME : Fld := ⟨175, 8, 8, .ro, .none, (.num 0), false⟩  -- Policy in force
def SIDE_STATUS_MIRROR_CURRENT : Fld := ⟨175, 7, 7, .ro, .none, (.num 0), false⟩  -- R278
def SIDE_STATUS_CROSS_UP : Fld := ⟨175, 6, 6, .ro, .none, (.num 0), false⟩  -- Cross pulses received
def SIDE_STATUS_PEER_HEALTHY : Fld := ⟨175, 5, 5, .ro, .none, (.num 0), false⟩  -- R273
def SIDE_STATUS_NET_HELD : Fld := ⟨175, 4, 4, .ro, .none, (.num 0), false⟩  -- Net token held
def SIDE_STATUS_GRATE_HELD : Fld := ⟨175, 0, 3, .ro, .none, (.num 0), false⟩  -- Bit d: token of Gd held
def SIDE_EVT_VACANT : Fld := ⟨176, 6, 6, .w1c, .none, (.num 0), false⟩  -- A token became VACANT
def SIDE_EVT_PEER_BACK : Fld := ⟨176, 5, 5, .w1c, .none, (.num 0), false⟩  -- Peer healthy again
def SIDE_EVT_PEER_LOST : Fld := ⟨176, 4, 4, .w1c, .none, (.num 0), false⟩  -- R273
def SIDE_EVT_CROSS_RESTORED : Fld := ⟨176, 3, 3, .w1c, .none, (.num 0), false⟩  -- R274
def SIDE_EVT_CROSS_LOST : Fld := ⟨176, 2, 2, .w1c, .none, (.num 0), false⟩  -- R274
def SIDE_EVT_TOKEN_LOSS : Fld := ⟨176, 1, 1, .w1c, .none, (.num 0), false⟩  -- This side lost a token
def SIDE_EVT_TOKEN_GAIN : Fld := ⟨176, 0, 0, .w1c, .none, (.num 0), false⟩  -- This side gained a token
def SIDE_CFG_LOSS : Fld := ⟨177, 16, 24, .ro, .base, (.num 100), false⟩  -- Loss time, µs, 60 to 500; values outside act as the nearest bound
def SIDE_CFG_AUTO_CLAIM : Fld := ⟨177, 8, 8, .ro, .base, (.num 1), false⟩  -- R263
def SIDE_CFG_HOME : Fld := ⟨177, 0, 4, .ro, .base, (.num 12), false⟩  -- R261
def SIDE_GATE_NET_CLAIM : Fld := ⟨178, 1, 1, .ro, .choice, (.num 1), false⟩  -- 1: NET_TOKEN_CLAIM (0x601) allowed
def SIDE_GATE_CLAIM : Fld := ⟨178, 0, 0, .ro, .choice, (.num 1), false⟩  -- 1: SIDE_CLAIM (0xB02) allowed
def SIDE_RETURN_HOLDOFF : Fld := ⟨179, 8, 23, .ro, .none, (.num 60), false⟩  -- s
def SIDE_RETURN_RETURN_HOME : Fld := ⟨179, 0, 0, .ro, .none, (.num 0), false⟩  -- R279
def SIDE_MIRROR_CFG : Fld := ⟨180, 0, 7, .ro, .choice, (.num 10), false⟩  -- Checkpoint period, commit ticks, 1 to 255; 0 acts as 1
def SIDE_CKPT : Fld := ⟨181, 0, 0, .wo, .none, (.num 0), false⟩  -- Writing 1 starts a checkpoint
def SIDE_PEER_AGE : Fld := ⟨182, 0, 39, .ro, .none, (.num 0xffffffffff), false⟩  -- Age of the last cross pulse, ns, saturating
def SIDE_CKPT_SEQ_TX : Fld := ⟨183, 0, 39, .ro, .none, (.num 0), false⟩  -- Checkpoints completed to the peer
def SIDE_CKPT_SEQ_RX : Fld := ⟨184, 0, 39, .ro, .none, (.num 0), false⟩  -- Checkpoints completed from the peer
def SIDE_MIRROR_BASE : Fld := ⟨185, 0, 39, .ro, .none, (.num 0), false⟩  -- Base of outgoing region r, r = 0 to 15
def SIDE_MIRROR_LEN : Fld := ⟨186, 0, 23, .ro, .none, (.num 0), false⟩  -- Length in 4 KiB pages; 0 disabled
def SIDE_TOKEN_GAIN_COUNT : Fld := ⟨187, 0, 39, .ro, .none, (.num 0), false⟩  -- Tokens gained
def SIDE_TOKEN_LOSS_COUNT : Fld := ⟨188, 0, 39, .ro, .none, (.num 0), false⟩  -- Tokens lost
def SIDE_CROSS_LOST_COUNT : Fld := ⟨189, 0, 39, .ro, .none, (.num 0), false⟩  -- CROSS_LOST episodes
def SIDE_CKPT_SKIP_COUNT : Fld := ⟨190, 0, 39, .ro, .none, (.num 0), false⟩  -- Checkpoints skipped (R277)
def SIDE_CKPT_TORN_COUNT : Fld := ⟨191, 0, 39, .ro, .none, (.num 0), false⟩  -- Torn checkpoints received
def SIDE_MIRROR_LINES : Fld := ⟨192, 0, 39, .ro, .none, (.num 0), false⟩  -- Lines sent
/-! Registers of R309 (file 10). -/
def BRIDGE_STATUS_OUTSTANDING : Fld := ⟨193, 16, 23, .ro, .none, (.num 0), false⟩  -- Transactions outstanding, 0 to 16
def BRIDGE_STATUS_WR_PENDING : Fld := ⟨193, 8, 15, .ro, .none, (.num 0), false⟩  -- Posted writes not yet acknowledged
def BRIDGE_STATUS_PWERR_OVF : Fld := ⟨193, 4, 4, .w1c, .none, (.num 0), false⟩  -- A posted-write error occurred while PWERR was set
def BRIDGE_STATUS_PWERR : Fld := ⟨193, 3, 3, .w1c, .none, (.num 0), false⟩  -- Posted-write error captured (R298)
def BRIDGE_STATUS_SPLIT_ACTIVE : Fld := ⟨193, 2, 2, .ro, .none, (.num 0), false⟩  -- A split transaction is outstanding
def BRIDGE_STATUS_LINK_UP : Fld := ⟨193, 1, 1, .ro, .none, (.num 0), false⟩  -- Poll symbols arriving
def BRIDGE_STATUS_FAR_PRESENT : Fld := ⟨193, 0, 0, .ro, .none, (.num 0), false⟩  -- Far side PRESENT
def BRIDGE_CFG_TIMEOUT : Fld := ⟨194, 16, 25, .ro, .choice, (.num 100), false⟩  -- µs, 10 to 1 000; values outside act as the nearest bound
def BRIDGE_CFG_HOLD : Fld := ⟨194, 8, 13, .ro, .choice, (.num 4), false⟩  -- µs, 1 to 63; 0 acts as 1
def BRIDGE_CFG_NONPOSTED : Fld := ⟨194, 0, 0, .ro, .choice, (.num 0), false⟩  -- 1: core writes wait for acknowledgement (R297)
def BRIDGE_PWERR_ADDR : Fld := ⟨195, 0, 39, .ro, .none, (.num 0), false⟩  -- Address of the captured write, unsigned
def BRIDGE_PWERR_INFO_CAUSE : Fld := ⟨196, 16, 19, .ro, .none, (.num 0), false⟩  -- R293
def BRIDGE_PWERR_INFO_WORLD : Fld := ⟨196, 12, 14, .ro, .none, (.num 0), false⟩  -- World of the write
def BRIDGE_PWERR_INFO_INITIATOR : Fld := ⟨196, 8, 11, .ro, .none, (.num 0), false⟩  -- Initiator code (R293)
def BRIDGE_PWERR_INFO_SIZE : Fld := ⟨196, 0, 3, .ro, .none, (.num 0), false⟩  -- 4 or 8 bytes
def BRIDGE_READ_COUNT : Fld := ⟨197, 0, 39, .ro, .none, (.num 0), false⟩  -- Reads issued
def BRIDGE_WRITE_COUNT : Fld := ⟨198, 0, 39, .ro, .none, (.num 0), false⟩  -- Writes issued
def BRIDGE_SPLIT_COUNT : Fld := ⟨199, 0, 39, .ro, .none, (.num 0), false⟩  -- Conversions to split (R294)
def BRIDGE_TIMEOUT_COUNT : Fld := ⟨200, 0, 39, .ro, .none, (.num 0), false⟩  -- Transactions ended by TIMEOUT
def BRIDGE_PWERR_COUNT : Fld := ⟨201, 0, 39, .ro, .none, (.num 0), false⟩  -- Posted-write errors
def BRIDGE_FAR_RESET_COUNT : Fld := ⟨202, 0, 39, .ro, .none, (.num 0), false⟩  -- Transactions ended under R307
def BRIDGE_LATE_DISCARD_COUNT : Fld := ⟨203, 0, 39, .ro, .none, (.num 0), false⟩  -- Answers discarded after their end
/-! Registers of R310 (file 10). -/
def BRIDGE_AT_ADDR : Fld := ⟨204, 0, 39, .rw, .none, (.num 0), false⟩  -- Far SRAM window address of the atomic word
def BRIDGE_AT_CTRL_GO : Fld := ⟨205, 8, 8, .wo, .none, (.num 0), false⟩  -- Writing 1 starts the operation
def BRIDGE_AT_CTRL_SIZE : Fld := ⟨205, 4, 4, .rw, .none, (.num 0), false⟩  -- 0: 32 bits. 1: 64 bits
def BRIDGE_AT_CTRL_OP : Fld := ⟨205, 0, 3, .rw, .none, (.num 0), false⟩  -- R301
def BRIDGE_AT_STATUS_CAUSE : Fld := ⟨206, 4, 7, .ro, .none, (.num 0), false⟩  -- R293, valid with ERR
def BRIDGE_AT_STATUS_ERR : Fld := ⟨206, 2, 2, .w1c, .none, (.num 0), false⟩  -- Operation failed
def BRIDGE_AT_STATUS_DONE : Fld := ⟨206, 1, 1, .w1c, .none, (.num 0), false⟩  -- Operation complete; RES valid
def BRIDGE_AT_STATUS_BUSY : Fld := ⟨206, 0, 0, .ro, .none, (.num 0), false⟩  -- Operation in progress
def BRIDGE_AT_OPND_LO : Fld := ⟨207, 0, 31, .rw, .none, (.num 0), false⟩  -- Operand bits [31:0]
def BRIDGE_AT_OPND_HI : Fld := ⟨208, 0, 31, .rw, .none, (.num 0), false⟩  -- Operand bits [63:32]
def BRIDGE_AT_CMP_LO : Fld := ⟨209, 0, 31, .rw, .none, (.num 0), false⟩  -- CAS compare bits [31:0]
def BRIDGE_AT_CMP_HI : Fld := ⟨210, 0, 31, .rw, .none, (.num 0), false⟩  -- CAS compare bits [63:32]
def BRIDGE_AT_RES_LO : Fld := ⟨211, 0, 31, .ro, .none, (.num 0), false⟩  -- Old value bits [31:0]
def BRIDGE_AT_RES_HI : Fld := ⟨212, 0, 31, .ro, .none, (.num 0), false⟩  -- Old value bits [63:32]
def BRIDGE_LOCK_ADDR : Fld := ⟨213, 0, 39, .rw, .none, (.num 0), false⟩  -- Far SRAM window line to lock; [5:0] ignored
def BRIDGE_LOCK_PENDING : Fld := ⟨214, 10, 10, .ro, .none, (.num 0), false⟩  -- Request waiting for grant
def BRIDGE_LOCK_BROKEN : Fld := ⟨214, 9, 9, .rc, .none, (.num 0), false⟩  -- Lock broken or not granted (R302, R303)
def BRIDGE_LOCK_HELD : Fld := ⟨214, 8, 8, .ro, .none, (.num 0), false⟩  -- Lock held
def BRIDGE_LOCK_RELEASE : Fld := ⟨214, 1, 1, .wo, .none, (.num 0), false⟩  -- Writing 1 releases the lock
def BRIDGE_LOCK_ACQUIRE : Fld := ⟨214, 0, 0, .wo, .none, (.num 0), false⟩  -- Writing 1 requests the lock
def BRIDGE_SWI : Fld := ⟨215, 0, 7, .wo, .none, (.num 0), false⟩  -- Bit k raises line k toward the other side (R305)
def BRIDGE_ATOMIC_COUNT : Fld := ⟨216, 0, 39, .ro, .none, (.num 0), false⟩  -- Atomic operations sent
def BRIDGE_LOCK_COUNT : Fld := ⟨217, 0, 39, .ro, .none, (.num 0), false⟩  -- Locks granted
def BRIDGE_LOCK_BROKEN_COUNT : Fld := ⟨218, 0, 39, .ro, .none, (.num 0), false⟩  -- Locks broken or not granted
def BRIDGE_SWI_LOST_COUNT : Fld := ⟨219, 0, 39, .ro, .none, (.num 0), false⟩  -- Software lines discarded (R305)
/-! Registers of R322 (file 11). -/
def BYP_STATUS_CAUSE : Fld := ⟨220, 8, 11, .ro, .none, (.num 6), false⟩  -- R314; 0 when open
def BYP_STATUS_SELFTEST_FAIL : Fld := ⟨220, 4, 4, .ro, .none, (.num 0), false⟩  -- R317
def BYP_STATUS_OPEN_REQ : Fld := ⟨220, 3, 3, .ro, .none, (.num 0), false⟩  -- A REQ 2 stands (R315)
def BYP_STATUS_FORCED : Fld := ⟨220, 2, 2, .ro, .none, (.num 0), false⟩  -- R315
def BYP_STATUS_ISOLATION_ON : Fld := ⟨220, 1, 1, .ro, .none, (.num 0), false⟩  -- Isolation switches closed
def BYP_STATUS_CLOSED : Fld := ⟨220, 0, 0, .ro, .none, (.num 1), false⟩  -- Bypass switches conduct
def BYP_CFG_SPEED : Fld := ⟨221, 1, 2, .ro, .base, (.num 0), false⟩  -- 0: 10 Gbit/s. 1: 5 Gbit/s. 2: 2.5 Gbit/s. 3 acts as 0. Takes effect at the next opening
def BYP_CFG_AUTO_OPEN : Fld := ⟨221, 0, 0, .ro, .base, (.num 1), false⟩  -- 1: open without REQ 2 (R314)
def BYP_CLOSE_COUNT : Fld := ⟨222, 0, 39, .ro, .none, (.num 0), false⟩  -- Closings while the Flue die was powered
def BYP_OPEN_COUNT : Fld := ⟨223, 0, 39, .ro, .none, (.num 0), false⟩  -- Openings (R317)
/-! Registers of R325 (file 11). -/
def LIFE_STATUS_RX_COUNT : Fld := ⟨224, 16, 20, .ro, .none, (.num 0), false⟩  -- Buffers holding frames, 0 to 16
def LIFE_STATUS_TX_FREE : Fld := ⟨224, 12, 15, .ro, .none, (.num 8), false⟩  -- Transmit buffers not queued, 0 to 8
def LIFE_STATUS_BYP_SENSE : Fld := ⟨224, 2, 2, .ro, .none, (.num 1), false⟩  -- Draught bypass conducts (R315)
def LIFE_STATUS_LIMP : Fld := ⟨224, 1, 1, .ro, .none, (.num 0), false⟩  -- Port down for limp clock
def LIFE_STATUS_LINK : Fld := ⟨224, 0, 0, .ro, .none, (.num 0), false⟩  -- Link up
def LIFE_EVT_HVIL : Fld := ⟨225, 4, 4, .w1c, .none, (.num 0), false⟩  -- Interlock state changed (R327)
def LIFE_EVT_BYPASS : Fld := ⟨225, 3, 3, .w1c, .none, (.num 0), false⟩  -- BYP_SENSE changed
def LIFE_EVT_LINK_CHG : Fld := ⟨225, 2, 2, .w1c, .none, (.num 0), false⟩  -- LINK changed
def LIFE_EVT_TX_DONE : Fld := ⟨225, 1, 1, .w1c, .none, (.num 0), false⟩  -- A frame was sent
def LIFE_EVT_RX : Fld := ⟨225, 0, 0, .w1c, .none, (.num 0), false⟩  -- A frame was received
def LIFE_CFG_WORLD : Fld := ⟨226, 8, 10, .ro, .base, (.num 0), false⟩  -- Owner world
def LIFE_CFG_ROLE : Fld := ⟨226, 1, 1, .ro, .base, (.num 0), false⟩  -- 0 master, 1 slave
def LIFE_CFG_ENABLE : Fld := ⟨226, 0, 0, .ro, .base, (.num 0), false⟩  -- Port enabled
def LIFE_MAC_LO : Fld := ⟨227, 0, 31, .ro, .base, (.num 0), false⟩  -- MAC address bits [31:0]
def LIFE_MAC_HI : Fld := ⟨228, 0, 15, .ro, .base, (.num 0), false⟩  -- MAC address bits [47:32]; the first transmitted octet is [47:40]
def LIFE_GUARD_RATE : Fld := ⟨229, 0, 6, .ro, .limit, (.num 100), false⟩  -- GUARD_RATE (R226), 1 to 100
def LIFE_GUARD_BURST : Fld := ⟨230, 0, 16, .ro, .limit, (.num 65536), false⟩  -- GUARD_BURST (R226), 1 518 to 65 536
def LIFE_TX_CTRL_GO : Fld := ⟨231, 31, 31, .wo, .none, (.num 0), false⟩  -- Queues buffer BUF
def LIFE_TX_CTRL_BUF : Fld := ⟨231, 16, 18, .wo, .none, (.num 0), false⟩  -- Transmit buffer 0 to 7
def LIFE_TX_CTRL_LEN : Fld := ⟨231, 0, 10, .wo, .none, (.num 0), false⟩  -- Bytes without FCS, 14 to 1 518
def LIFE_RX_HEAD_VALID : Fld := ⟨232, 31, 31, .ro, .none, (.num 0), false⟩  -- A frame is waiting
def LIFE_RX_HEAD_BUF : Fld := ⟨232, 16, 19, .ro, .none, (.num 0), false⟩  -- Receive buffer 0 to 15
def LIFE_RX_HEAD_LEN : Fld := ⟨232, 0, 10, .ro, .none, (.num 0), false⟩  -- Bytes without FCS
def LIFE_RX_RELEASE : Fld := ⟨233, 0, 0, .wo, .none, (.num 0), false⟩  -- Frees the head buffer
def LIFE_RX_COUNT : Fld := ⟨234, 0, 39, .ro, .none, (.num 0), false⟩  -- Frames received
def LIFE_TX_COUNT : Fld := ⟨235, 0, 39, .ro, .none, (.num 0), false⟩  -- Frames sent
def LIFE_RX_NOBUF_COUNT : Fld := ⟨236, 0, 39, .ro, .none, (.num 0), false⟩  -- Discarded, no buffer
def LIFE_RX_FCS_COUNT : Fld := ⟨237, 0, 39, .ro, .none, (.num 0), false⟩  -- Discarded, bad FCS
def LIFE_RX_SIZE_COUNT : Fld := ⟨238, 0, 39, .ro, .none, (.num 0), false⟩  -- Discarded, too long
def LIFE_TX_DROP_COUNT : Fld := ⟨239, 0, 39, .ro, .none, (.num 0), false⟩  -- Transmissions not made (R324)
def LIFE_GUARD_DROP : Fld := ⟨240, 0, 39, .ro, .none, (.num 0), false⟩  -- Discarded by the guardian (R226)
def LIFE_LINK_DOWN_COUNT : Fld := ⟨241, 0, 39, .ro, .none, (.num 0), false⟩  -- Link losses
def HVIL_I : Fld := ⟨242, 0, 39, .ro, .none, (.num 0), true⟩  -- Loop current, Q20.20 signed, positive from HVIL_IN to HVIL_OUT
def HVIL_V : Fld := ⟨243, 0, 39, .ro, .none, (.num 0), true⟩  -- HVIL_IN to GND_A, Q20.20 signed
def HVIL_ILO : Fld := ⟨244, 0, 39, .ro, .choice, (.num 5242), true⟩  -- Lower bound of the window, Q20.20
def HVIL_IHI : Fld := ⟨245, 0, 39, .ro, .choice, (.num 41943), true⟩  -- Upper bound of the window, Q20.20
def HVIL_CFG : Fld := ⟨246, 0, 6, .ro, .choice, (.num 10), false⟩  -- Averaging window, ms, 1 to 100; 0 acts as 1
def HVIL_STATUS : Fld := ⟨247, 0, 1, .ro, .none, (.num 3), false⟩  -- 0 OK, 1 BROKEN, 2 OVER, 3 UNKNOWN
def HVIL_CHANGE_COUNT : Fld := ⟨248, 0, 39, .ro, .none, (.num 0), false⟩  -- STATE changes
/-! Registers of R331 (file 12). -/
def NETIF_CFG_IRQ_CH : Fld := ⟨249, 8, 12, .ro, .base, (.num 31), false⟩  -- DMA channel whose interrupt source signals completions
def NETIF_CFG_WORLD : Fld := ⟨249, 0, 2, .ro, .base, (.num 0), false⟩  -- Owner world of the interface and its rings
def NETIF_CTRL : Fld := ⟨250, 0, 0, .rw, .none, (.num 0), false⟩  -- 1: interface running
def NETIF_RX_BASE : Fld := ⟨251, 0, 39, .rw, .none, (.num 0), false⟩  -- Receive ring base, 16-byte aligned
def NETIF_RX_LEN : Fld := ⟨252, 0, 12, .rw, .none, (.num 0), false⟩  -- Receive descriptors, 2 to 4 096
def NETIF_TX_BASE : Fld := ⟨253, 0, 39, .rw, .none, (.num 0), false⟩  -- Transmit ring base, 16-byte aligned
def NETIF_TX_LEN : Fld := ⟨254, 0, 12, .rw, .none, (.num 0), false⟩  -- Transmit descriptors, 2 to 4 096
def NETIF_TX_KICK : Fld := ⟨255, 0, 0, .wo, .none, (.num 0), false⟩  -- Writing 1 starts transmission
def NETIF_STATUS_TX_NEXT : Fld := ⟨256, 16, 28, .ro, .none, (.num 0), false⟩  -- Next transmit descriptor
def NETIF_STATUS_RX_NEXT : Fld := ⟨256, 3, 15, .ro, .none, (.num 0), false⟩  -- Next receive descriptor
def NETIF_STATUS_RX_WAIT : Fld := ⟨256, 2, 2, .ro, .none, (.num 0), false⟩  -- No receive descriptor available
def NETIF_STATUS_ERR : Fld := ⟨256, 1, 1, .w1c, .none, (.num 0), false⟩  -- Interface stopped on error
def NETIF_ERR : Fld := ⟨257, 0, 3, .ro, .none, (.num 0), false⟩  -- As DMA_STATUS.ERRCODE (R62)
/-! Registers of R361 (file 12). -/
def FLUE_STATUS_READY : Fld := ⟨258, 31, 31, .ro, .none, (.num 0), false⟩  -- Switch forwarding
def FLUE_STATUS_FREE : Fld := ⟨258, 0, 14, .ro, .none, (.num 16384), false⟩  -- Free cells
def FLUE_EVT_RSV_CLAMP : Fld := ⟨259, 7, 7, .w1c, .none, (.num 0), false⟩  -- R342
def FLUE_EVT_TAS_ERROR : Fld := ⟨259, 6, 6, .w1c, .none, (.num 0), false⟩  -- R350
def FLUE_EVT_FRER_RESET : Fld := ⟨259, 5, 5, .w1c, .none, (.num 0), false⟩  -- R351
def FLUE_EVT_TC10 : Fld := ⟨259, 4, 4, .w1c, .none, (.num 0), false⟩  -- R358
def FLUE_EVT_LEARN_REFUSED : Fld := ⟨259, 3, 3, .w1c, .none, (.num 0), false⟩  -- R337
def FLUE_EVT_PN_EXHAUST : Fld := ⟨259, 2, 2, .w1c, .none, (.num 0), false⟩  -- R355
def FLUE_EVT_PN_LOW : Fld := ⟨259, 1, 1, .w1c, .none, (.num 0), false⟩  -- R355
def FLUE_EVT_LINK_CHG : Fld := ⟨259, 0, 0, .w1c, .none, (.num 0), false⟩  -- A port's link changed
def FLUE_SHARED_FREE : Fld := ⟨260, 0, 14, .ro, .none, (.num 0), false⟩  -- Free cells of the shared pool
/-! Registers of R362 (file 12). -/
def PORT_CFG_ENABLE : Fld := ⟨261, 31, 31, .ro, .base, (.num 0), false⟩  -- Port in use
def PORT_CFG_MACSEC_EN : Fld := ⟨261, 30, 30, .ro, .base, (.num 0), false⟩  -- Ports 0 to 7 (R353)
def PORT_CFG_LEARN : Fld := ⟨261, 29, 29, .ro, .choice, (.num 1), false⟩  -- R337
def PORT_CFG_INGRESS_FILTER : Fld := ⟨261, 28, 28, .ro, .choice, (.num 1), false⟩  -- R334
def PORT_CFG_COLOUR_AWARE : Fld := ⟨261, 27, 27, .ro, .choice, (.num 0), false⟩  -- R340
def PORT_CFG_ROLE : Fld := ⟨261, 26, 26, .ro, .base, (.num 0), false⟩  -- Ports 2 to 13: 0 master, 1 slave
def PORT_CFG_ACCEPT : Fld := ⟨261, 24, 25, .ro, .choice, (.num 0), false⟩  -- 0 all, 1 tagged only, 2 untagged and priority-tagged only, 3 acts as 0
def PORT_CFG_DEF_PCP : Fld := ⟨261, 16, 18, .ro, .choice, (.num 0), false⟩  -- PCP of untagged frames
def PORT_CFG_PVID : Fld := ⟨261, 0, 11, .ro, .choice, (.num 1), false⟩  -- Port VID
def PORT_PCP_TC : Fld := ⟨262, 0, 23, .ro, .choice, (.num 0xfac688), false⟩  -- Bits [3p+2:3p]: traffic class of PCP p
def PORT_MAXFRAME : Fld := ⟨263, 0, 13, .ro, .limit, (.num 9216), false⟩  -- 64 to 9 216
def PORT_BUF_MAX : Fld := ⟨264, 16, 29, .ro, .limit, (.num 8192), false⟩  -- Shared cells, 0 to 16 383
def PORT_BUF_MIN : Fld := ⟨264, 0, 13, .ro, .floor, (.num 64), false⟩  -- Reserved cells (R342)
def PORT_GUARD_RATE : Fld := ⟨265, 0, 13, .ro, .limit, (.byPort 10000 1000 100 10 10000), false⟩  -- GUARD_RATE (R226)
def PORT_GUARD_BURST : Fld := ⟨266, 0, 16, .ro, .limit, (.num 65536), false⟩  -- GUARD_BURST (R226)
def PORT_TC10 : Fld := ⟨267, 0, 0, .ro, .choice, (.num 1), false⟩  -- R358
def PORT_PLCA_NODE_COUNT : Fld := ⟨268, 8, 15, .ro, .base, (.num 8), false⟩  -- Port 14: PLCA nodes, 1 to 255
def PORT_PLCA_NODE_ID : Fld := ⟨268, 0, 7, .ro, .base, (.num 0), false⟩  -- Port 14: PLCA node ID
def PORT_CTRL_WAKE : Fld := ⟨269, 1, 1, .wo, .none, (.num 0), false⟩  -- Sends a TC10 wake-up pulse
def PORT_CTRL_SLEEP_REQ : Fld := ⟨269, 0, 0, .wo, .none, (.num 0), false⟩  -- Sends a TC10 sleep request
def PORT_STATUS_LINK : Fld := ⟨270, 31, 31, .ro, .none, (.num 0), false⟩  -- Link up
def PORT_STATUS_TC10 : Fld := ⟨270, 28, 30, .ro, .none, (.num 4), false⟩  -- R358
def PORT_STATUS_OCC : Fld := ⟨270, 0, 14, .ro, .none, (.num 0), false⟩  -- Cells charged to this ingress port
def PORT_Q_CFG_CBS_EN : Fld := ⟨271, 31, 31, .ro, .choice, (.num 0), false⟩  -- R348
def PORT_Q_CFG_PROFILE : Fld := ⟨271, 24, 26, .ro, .choice, (.num 0), false⟩  -- WRED profile
def PORT_Q_CFG_IDLE_SLOPE : Fld := ⟨271, 0, 23, .ro, .choice, (.num 0), false⟩  -- kbit/s
def PORT_Q_MAX : Fld := ⟨272, 0, 14, .ro, .limit, (.num 4096), false⟩  -- Queue limit
def PORT_Q_DEPTH : Fld := ⟨273, 0, 14, .ro, .none, (.num 0), false⟩  -- Cells queued
def PORT_Q_CREDIT : Fld := ⟨274, 0, 39, .ro, .none, (.num 0), true⟩  -- Shaper credit, Q32.8 signed
def TAS_CFG_ENABLE : Fld := ⟨275, 31, 31, .ro, .choice, (.num 0), false⟩  -- R350
def TAS_CFG_LIST : Fld := ⟨275, 30, 30, .ro, .choice, (.num 0), false⟩  -- List in use
def TAS_CFG_DOMAIN : Fld := ⟨275, 29, 29, .ro, .choice, (.num 0), false⟩  -- Time domain
def TAS_CFG_LEN1 : Fld := ⟨275, 16, 24, .ro, .choice, (.num 1), false⟩  -- Entries of list 1, 1 to 256
def TAS_CFG_LEN0 : Fld := ⟨275, 0, 8, .ro, .choice, (.num 1), false⟩  -- Entries of list 0, 1 to 256
def TAS_STATUS_RUNNING : Fld := ⟨276, 31, 31, .ro, .none, (.num 0), false⟩  -- A list runs
def TAS_STATUS_LIST : Fld := ⟨276, 30, 30, .ro, .none, (.num 0), false⟩  -- List in force
def TAS_STATUS_ERROR : Fld := ⟨276, 29, 29, .ro, .none, (.num 0), false⟩  -- R350
def TAS_STATUS_ENTRY : Fld := ⟨276, 0, 7, .ro, .none, (.num 0), false⟩  -- Entry in force
def TAS_CYCLE : Fld := ⟨277, 0, 39, .ro, .choice, (.num 0xf4240), false⟩  -- Cycle time, ns
def TAS_BASE_S : Fld := ⟨278, 0, 39, .ro, .choice, (.num 0), false⟩  -- Base time, seconds word
def TAS_BASE_NS : Fld := ⟨279, 0, 39, .ro, .choice, (.num 0), false⟩  -- Base time, nanosecond word
def PORT_CNT : Fld := ⟨280, 0, 39, .ro, .none, (.num 0), false⟩  -- Counter k (R363)
def TAS_ENTRY_GATES : Fld := ⟨281, 24, 31, .ro, .choice, (.num 255), false⟩  -- Open classes of entry k of list L
def TAS_ENTRY_INTERVAL : Fld := ⟨281, 0, 23, .ro, .choice, (.num 0), false⟩  -- ns
/-! Registers of R364 (file 12). -/
def FDB_CFG_SEED_POLICY : Fld := ⟨282, 31, 31, .ro, .base, (.num 1), false⟩  -- R336
def FDB_CFG_AGE : Fld := ⟨282, 0, 15, .ro, .choice, (.num 300), false⟩  -- s; 0 no ageing
def FDB_STATUS_REFUSING : Fld := ⟨283, 8, 8, .ro, .none, (.num 0), false⟩  -- R337
def FDB_STATUS_CAM_USED : Fld := ⟨283, 0, 6, .ro, .none, (.num 0), false⟩  -- CAM entries in use, 0 to 64
def FDB_ENTRIES_STATIC : Fld := ⟨284, 16, 31, .ro, .none, (.num 0), false⟩  -- Static entries
def FDB_ENTRIES_DYNAMIC : Fld := ⟨284, 0, 15, .ro, .none, (.num 0), false⟩  -- Dynamic entries
def FDB_SEED0_FIX : Fld := ⟨285, 0, 31, .ro, .base, (.num 0), false⟩  -- Way-0 seed, policy 0
def FDB_SEED1_FIX : Fld := ⟨286, 0, 31, .ro, .base, (.num 0), false⟩  -- Way-1 seed, policy 0
def FDB_CMD_MAC_LO : Fld := ⟨287, 0, 31, .rw, .none, (.num 0), false⟩  -- Address bits [31:0]
def FDB_CMD_MAC_HI : Fld := ⟨288, 0, 15, .rw, .none, (.num 0), false⟩  -- Address bits [47:32]
def FDB_CMD_VID : Fld := ⟨289, 0, 11, .rw, .none, (.num 0), false⟩  -- VID of the key
def FDB_CMD_PORTS_STATIC : Fld := ⟨290, 31, 31, .ro, .none, (.num 0), false⟩  -- Lookup result: entry is static
def FDB_CMD_PORTS_PORTS : Fld := ⟨290, 0, 16, .rw, .none, (.num 0), false⟩  -- Port mask; written back by a lookup
def FDB_CMD_CTRL_GO : Fld := ⟨291, 31, 31, .wo, .none, (.num 0), false⟩  -- Starts OP
def FDB_CMD_CTRL_PORT : Fld := ⟨291, 16, 20, .rw, .none, (.num 0), false⟩  -- Port for OP 5
def FDB_CMD_CTRL_OP : Fld := ⟨291, 0, 2, .rw, .none, (.num 0), false⟩  -- R339
def FDB_CMD_STATUS_BUSY : Fld := ⟨292, 31, 31, .ro, .none, (.num 0), false⟩  -- Command running
def FDB_CMD_STATUS_RESULT : Fld := ⟨292, 0, 3, .ro, .none, (.num 0), false⟩  -- R339
def FDB_VLAN_MEMBER : Fld := ⟨293, 0, 16, .ro, .permit, (.num 0), false⟩  -- Member ports of VID v
def FDB_VLAN_UNTAG : Fld := ⟨294, 0, 16, .ro, .choice, (.num 0), false⟩  -- Ports that send VID v untagged
/-! Registers of R365 (file 12). -/
def SF_MAC_LO : Fld := ⟨295, 0, 31, .ro, .choice, (.num 0), false⟩  -- Address bits [31:0]
def SF_MAC_HI_MAC_EN : Fld := ⟨296, 17, 17, .ro, .choice, (.num 0), false⟩  -- Compare the address
def SF_MAC_HI_USE_SA : Fld := ⟨296, 16, 16, .ro, .choice, (.num 0), false⟩  -- 0 destination, 1 source
def SF_MAC_HI_MAC : Fld := ⟨296, 0, 15, .ro, .choice, (.num 0), false⟩  -- Address bits [47:32]
def SF_VID_PCP_EN : Fld := ⟨297, 16, 16, .ro, .choice, (.num 0), false⟩  -- Compare PCP
def SF_VID_PCP : Fld := ⟨297, 13, 15, .ro, .choice, (.num 0), false⟩  -- PCP value
def SF_VID_VID_EN : Fld := ⟨297, 12, 12, .ro, .choice, (.num 0), false⟩  -- Compare VID
def SF_VID_VID : Fld := ⟨297, 0, 11, .ro, .choice, (.num 0), false⟩  -- VID value
def SF_PORTS : Fld := ⟨298, 0, 16, .ro, .choice, (.num 0), false⟩  -- Ingress ports
def SF_CFG_ENABLE : Fld := ⟨299, 31, 31, .ro, .choice, (.num 0), false⟩  -- Filter in use
def SF_CFG_BLOCK_EN : Fld := ⟨299, 30, 30, .ro, .choice, (.num 0), false⟩  -- R340
def SF_CFG_RED_DROP : Fld := ⟨299, 29, 29, .ro, .choice, (.num 1), false⟩  -- R341
def SF_CFG_MIRROR : Fld := ⟨299, 27, 28, .ro, .choice, (.num 0), false⟩  -- 0 none, 1 session 0, 2 session 1, 3 acts as 0
def SF_CFG_TC_EN : Fld := ⟨299, 26, 26, .ro, .choice, (.num 0), false⟩  -- Override the traffic class
def SF_CFG_TC : Fld := ⟨299, 23, 25, .ro, .choice, (.num 0), false⟩  -- Traffic class
def SF_CFG_MAX_SDU : Fld := ⟨299, 0, 13, .ro, .limit, (.num 0), false⟩  -- Bytes; 0 none
def SF_CIR : Fld := ⟨300, 0, 23, .ro, .limit, (.num 0), false⟩  -- Committed rate
def SF_PIR : Fld := ⟨301, 0, 23, .ro, .limit, (.num 0), false⟩  -- Peak rate
def SF_CBS : Fld := ⟨302, 0, 19, .ro, .limit, (.num 0), false⟩  -- Committed burst
def SF_PBS : Fld := ⟨303, 0, 19, .ro, .limit, (.num 0), false⟩  -- Peak burst
def SF_STATUS : Fld := ⟨304, 0, 0, .w1c, .none, (.num 0), false⟩  -- R340
def SF_GREEN_COUNT : Fld := ⟨305, 0, 39, .ro, .none, (.num 0), false⟩  -- Frames by colour
def SF_YELLOW_COUNT : Fld := ⟨306, 0, 39, .ro, .none, (.num 0), false⟩  -- Frames by colour
def SF_RED_COUNT : Fld := ⟨307, 0, 39, .ro, .none, (.num 0), false⟩  -- Frames by colour
def WRED_TH_MAX_TH : Fld := ⟨308, 16, 30, .ro, .choice, (.num 32767), false⟩  -- Cells
def WRED_TH_MIN_TH : Fld := ⟨308, 0, 14, .ro, .choice, (.num 32767), false⟩  -- Cells
def WRED_P_W : Fld := ⟨309, 8, 11, .ro, .choice, (.num 9), false⟩  -- Average weight 2^−W
def WRED_P_MAXP : Fld := ⟨309, 0, 7, .ro, .choice, (.num 0), false⟩  -- Drop probability at MAX_TH, 1/256
def FRER_CFG_FUNC : Fld := ⟨310, 30, 31, .ro, .choice, (.num 0), false⟩  -- R351
def FRER_CFG_RTAG_POP : Fld := ⟨310, 29, 29, .ro, .choice, (.num 0), false⟩  -- Remove the R-TAG
def FRER_CFG_HISTORY : Fld := ⟨310, 24, 28, .ro, .choice, (.num 32), false⟩  -- 2 to 32; 0 and 1 act as 2
def FRER_CFG_FILTER : Fld := ⟨310, 0, 9, .ro, .choice, (.num 0), false⟩  -- Stream filter
def FRER_PORTS : Fld := ⟨311, 0, 16, .ro, .choice, (.num 0), false⟩  -- Replication ports
def FRER_RESET_MS : Fld := ⟨312, 0, 15, .ro, .choice, (.num 1000), false⟩  -- Recovery reset time, 1 to 65 535
def FRER_SEQ : Fld := ⟨313, 0, 15, .ro, .none, (.num 0), false⟩  -- Next generated, or last accepted, number
def FRER_PASSED : Fld := ⟨314, 0, 39, .ro, .none, (.num 0), false⟩  -- R351, in that order at 8-byte steps
def FRER_DISCARDED : Fld := ⟨315, 0, 39, .ro, .none, (.num 0), false⟩  -- R351, in that order at 8-byte steps
def FRER_OUT_OF_ORDER : Fld := ⟨316, 0, 39, .ro, .none, (.num 0), false⟩  -- R351, in that order at 8-byte steps
def FRER_ROGUE : Fld := ⟨317, 0, 39, .ro, .none, (.num 0), false⟩  -- R351, in that order at 8-byte steps
def FRER_LOST : Fld := ⟨318, 0, 39, .ro, .none, (.num 0), false⟩  -- R351, in that order at 8-byte steps
def FRER_RESETS : Fld := ⟨319, 0, 39, .ro, .none, (.num 0), false⟩  -- R351, in that order at 8-byte steps
def MIR_INGRESS : Fld := ⟨320, 0, 16, .ro, .none, (.num 0), false⟩  -- Ingress mask
def MIR_EGRESS : Fld := ⟨321, 0, 16, .ro, .none, (.num 0), false⟩  -- Egress mask
def MIR_CFG_ENABLE : Fld := ⟨322, 31, 31, .ro, .none, (.num 0), false⟩  -- Session active
def MIR_CFG_DEST : Fld := ⟨322, 16, 20, .ro, .none, (.num 0), false⟩  -- Destination port
def MIR_CFG_TC : Fld := ⟨322, 0, 2, .ro, .choice, (.num 0), false⟩  -- Queue of the copies
def MIR_DROP_COUNT : Fld := ⟨323, 0, 39, .ro, .none, (.num 0), false⟩  -- Copies lost (R352)
def MIR_COPY_COUNT : Fld := ⟨324, 0, 39, .ro, .none, (.num 0), false⟩  -- Copies made
/-! Registers of R366 (file 12). -/
def MSEC_CFG_REPLAY_EN : Fld := ⟨325, 2, 2, .ro, .choice, (.num 1), false⟩  -- Replay protection
def MSEC_CFG_CONFIDENTIAL : Fld := ⟨325, 1, 1, .ro, .choice, (.num 1), false⟩  -- Encrypt
def MSEC_CFG_TX_SC : Fld := ⟨325, 0, 0, .ro, .choice, (.num 0), false⟩  -- Transmit SC
def MSEC_REPLAY_WIN : Fld := ⟨326, 0, 31, .ro, .limit, (.num 0), false⟩  -- Replay window
def MSEC_PN_TH32 : Fld := ⟨327, 0, 31, .ro, .choice, (.num 0xff000000), false⟩  -- PN_LOW threshold, 32-bit PN
def MSEC_PN_THXPN : Fld := ⟨328, 0, 31, .ro, .choice, (.num 0xffffffff), false⟩  -- PN_LOW threshold bits [63:32], XPN
def MSEC_EVT_PN_EXHAUST : Fld := ⟨329, 1, 1, .w1c, .none, (.num 0), false⟩  -- R355
def MSEC_EVT_PN_LOW : Fld := ⟨329, 0, 0, .w1c, .none, (.num 0), false⟩  -- R355
def MSEC_SA_STATE_INSTALLED : Fld := ⟨330, 31, 31, .ro, .none, (.num 0), false⟩  -- SA installed
def MSEC_SA_STATE_ACTIVE : Fld := ⟨330, 30, 30, .ro, .none, (.num 0), false⟩  -- Transmit SA in use, or receive SA accepting
def MSEC_SA_STATE_XPN : Fld := ⟨330, 29, 29, .ro, .none, (.num 0), false⟩  -- Extended packet numbering
def MSEC_SA_STATE_PN_LOW : Fld := ⟨330, 28, 28, .ro, .none, (.num 0), false⟩  -- R355
def MSEC_SA_STATE_EXHAUSTED : Fld := ⟨330, 27, 27, .ro, .none, (.num 0), false⟩  -- R355
def MSEC_SA_STATE_KEY_SLOT : Fld := ⟨330, 0, 7, .ro, .none, (.num 0), false⟩  -- Key store slot
def MSEC_SA_PN_LO : Fld := ⟨331, 0, 39, .ro, .none, (.num 0), false⟩  -- Next PN (transmit) or lowest acceptable PN (receive), bits [39:0]
def MSEC_SA_PN_HI : Fld := ⟨332, 0, 23, .ro, .none, (.num 0), false⟩  -- Bits [63:40]
/-! Registers of R395 (file 13). -/
def CAN_CFG_OWNER : Fld := ⟨333, 26, 28, .ro, .base, (.num 0), false⟩  -- Owner world
def CAN_CFG_AFTER_RECOVERY : Fld := ⟨333, 24, 24, .ro, .choice, (.num 0), false⟩  -- R387
def CAN_CFG_AUTO_RECOVER : Fld := ⟨333, 23, 23, .ro, .choice, (.num 1), false⟩  -- R387
def CAN_CFG_RECOVERY_DELAY : Fld := ⟨333, 13, 22, .ro, .choice, (.num 10), false⟩  -- ms, 0 to 1 000; above acts as 1 000
def CAN_CFG_NONMATCH : Fld := ⟨333, 8, 9, .ro, .choice, (.num 0), false⟩  -- 0 discard, 1 RXQ0, 2 RXQ1, 3 acts as 0
def CAN_CFG_RXQ1_OVERWRITE : Fld := ⟨333, 7, 7, .ro, .choice, (.num 0), false⟩  -- R378
def CAN_CFG_RXQ0_OVERWRITE : Fld := ⟨333, 6, 6, .ro, .choice, (.num 0), false⟩  -- R378
def CAN_CFG_XL_EN : Fld := ⟨333, 5, 5, .ro, .base, (.num 0), false⟩  -- CAN XL enabled
def CAN_CFG_FD_EN : Fld := ⟨333, 4, 4, .ro, .base, (.num 1), false⟩  -- CAN FD enabled
def CAN_CFG_BOOT_MODE : Fld := ⟨333, 0, 3, .ro, .base, (.num 0), false⟩  -- R372
def CAN_GATE : Fld := ⟨334, 0, 7, .ro, .permit, (.num 255), false⟩  -- Bit m: mode m allowed; bit 0 reads 1
def CAN_NBT_BRP_M1 : Fld := ⟨335, 27, 31, .ro, .base, (.num 0), false⟩  -- BRP − 1
def CAN_NBT_TSEG1_M1 : Fld := ⟨335, 19, 26, .ro, .base, (.num 126), false⟩  -- TSEG1 − 1, 1 to 255
def CAN_NBT_TSEG2_M1 : Fld := ⟨335, 12, 18, .ro, .base, (.num 31), false⟩  -- TSEG2 − 1
def CAN_NBT_SJW_M1 : Fld := ⟨335, 5, 11, .ro, .base, (.num 31), false⟩  -- SJW − 1
def CAN_DBT_BRP_M1 : Fld := ⟨336, 27, 31, .ro, .base, (.num 0), false⟩  -- BRP − 1
def CAN_DBT_TSEG1_M1 : Fld := ⟨336, 22, 26, .ro, .base, (.num 30), false⟩  -- TSEG1 − 1
def CAN_DBT_TSEG2_M1 : Fld := ⟨336, 18, 21, .ro, .base, (.num 7), false⟩  -- TSEG2 − 1
def CAN_DBT_SJW_M1 : Fld := ⟨336, 14, 17, .ro, .base, (.num 7), false⟩  -- SJW − 1
def CAN_DBT_TDC_EN : Fld := ⟨336, 13, 13, .ro, .base, (.num 1), false⟩  -- Delay compensation
def CAN_DBT_TDC_OFF : Fld := ⟨336, 6, 12, .ro, .base, (.num 32), false⟩  -- Compensation offset, tq
def CAN_XBT_BRP_M1 : Fld := ⟨337, 27, 31, .ro, .base, (.num 0), false⟩  -- BRP − 1
def CAN_XBT_TSEG1_M1 : Fld := ⟨337, 22, 26, .ro, .base, (.num 4), false⟩  -- TSEG1 − 1
def CAN_XBT_TSEG2_M1 : Fld := ⟨337, 18, 21, .ro, .base, (.num 1), false⟩  -- TSEG2 − 1
def CAN_XBT_SJW_M1 : Fld := ⟨337, 14, 17, .ro, .base, (.num 1), false⟩  -- SJW − 1
def CAN_XBT_TDC_EN : Fld := ⟨337, 13, 13, .ro, .base, (.num 1), false⟩  -- Delay compensation
def CAN_XBT_TDC_OFF : Fld := ⟨337, 6, 12, .ro, .base, (.num 6), false⟩  -- Compensation offset, tq
def CAN_XBT_TMS : Fld := ⟨337, 5, 5, .ro, .base, (.num 1), false⟩  -- Transceiver mode switching
def CAN_STATUS_READY : Fld := ⟨338, 31, 31, .ro, .none, (.num 0), false⟩  -- Channel in service
def CAN_STATUS_LIMP : Fld := ⟨338, 30, 30, .ro, .none, (.num 0), false⟩  -- R145
def CAN_STATUS_TIMING_BAD : Fld := ⟨338, 29, 29, .ro, .none, (.num 0), false⟩  -- R369
def CAN_STATUS_RAM_BAD : Fld := ⟨338, 28, 28, .ro, .none, (.num 0), false⟩  -- R373
def CAN_STATUS_MODE_PENDING : Fld := ⟨338, 27, 27, .ro, .none, (.num 0), false⟩  -- R371
def CAN_STATUS_PEND_MODE : Fld := ⟨338, 23, 26, .ro, .none, (.num 0), false⟩  -- Mode waiting
def CAN_STATUS_TT_CONFIG_ERR : Fld := ⟨338, 22, 22, .ro, .none, (.num 0), false⟩  -- R383, R384
def CAN_STATUS_MODE : Fld := ⟨338, 18, 21, .ro, .none, (.num 0), false⟩  -- Mode in force
def CAN_ERR_LAST_ERR : Fld := ⟨339, 27, 29, .ro, .none, (.num 0), false⟩  -- 0 none, 1 stuff, 2 form, 3 ack, 4 bit 1, 5 bit 0, 6 CRC
def CAN_ERR_WARNING : Fld := ⟨339, 26, 26, .ro, .none, (.num 0), false⟩  -- R386
def CAN_ERR_STATE : Fld := ⟨339, 24, 25, .ro, .none, (.num 0), false⟩  -- 0 active, 1 passive, 2 bus-off
def CAN_ERR_REC : Fld := ⟨339, 16, 23, .ro, .none, (.num 0), false⟩  -- Receive error counter
def CAN_ERR_TEC : Fld := ⟨339, 0, 8, .ro, .none, (.num 0), false⟩  -- Transmit error counter
def CAN_IRQ_RECOVERED : Fld := ⟨340, 19, 19, .w1c, .none, (.num 0), false⟩  -- Source 65 + 2k
def CAN_IRQ_BUS_OFF : Fld := ⟨340, 18, 18, .w1c, .none, (.num 0), false⟩  -- Source 65 + 2k
def CAN_IRQ_WARNING : Fld := ⟨340, 17, 17, .w1c, .none, (.num 0), false⟩  -- Source 65 + 2k
def CAN_IRQ_ERR_STATE : Fld := ⟨340, 16, 16, .w1c, .none, (.num 0), false⟩  -- Source 65 + 2k
def CAN_IRQ_RXQ_FULL : Fld := ⟨340, 7, 7, .w1c, .none, (.num 0), false⟩  -- Source 64 + 2k
def CAN_IRQ_SHADOW : Fld := ⟨340, 6, 6, .w1c, .none, (.num 0), false⟩  -- Source 64 + 2k
def CAN_IRQ_TT_MISSED : Fld := ⟨340, 5, 5, .w1c, .none, (.num 0), false⟩  -- Source 64 + 2k
def CAN_IRQ_PRIO : Fld := ⟨340, 3, 3, .w1c, .none, (.num 0), false⟩  -- Source 64 + 2k
def CAN_IRQ_TX_DONE : Fld := ⟨340, 2, 2, .w1c, .none, (.num 0), false⟩  -- Source 64 + 2k
def CAN_IRQ_RXQ1 : Fld := ⟨340, 1, 1, .w1c, .none, (.num 0), false⟩  -- Source 64 + 2k
def CAN_IRQ_RXQ0 : Fld := ⟨340, 0, 0, .w1c, .none, (.num 0), false⟩  -- Source 64 + 2k
def CAN_IRQ_EN : Fld := ⟨341, 0, 31, .rw, .none, (.num 0), false⟩  -- Bit i: CAN_IRQ bit i latches its source
def CAN_GUARD : Fld := ⟨342, 0, 6, .ro, .limit, (.num 100), false⟩  -- GUARD_LOAD (R227), 1 to 100; 0 acts as 1
def CAN_RAM_R_ESIZE : Fld := ⟨343, 30, 31, .ro, .base, (.num 0), false⟩  -- r = 0 TXB, 1 RXQ0, 2 RXQ1, 3 PRIO (R373)
def CAN_RAM_R_COUNT : Fld := ⟨343, 16, 27, .ro, .base, (.num 0), false⟩  -- Elements
def CAN_RAM_R_START : Fld := ⟨343, 0, 11, .ro, .base, (.num 0), false⟩  -- 8-byte units
def CAN_RXQ_IDX_PUT : Fld := ⟨344, 16, 27, .ro, .none, (.num 0), false⟩  -- Next element written
def CAN_RXQ_IDX_GET : Fld := ⟨344, 0, 11, .ro, .none, (.num 0), false⟩  -- Oldest unread element
def CAN_RXQ_ACK : Fld := ⟨345, 0, 0, .wo, .none, (.num 0), false⟩  -- Advances GET (R378)
def CAN_TX_SET : Fld := ⟨346, 0, 31, .wo, .none, (.num 0), false⟩  -- Bit b: pend or arm buffer b
def CAN_TX_PEND : Fld := ⟨347, 0, 31, .ro, .none, (.num 0), false⟩  -- Pending or armed
def CAN_TX_CANCEL : Fld := ⟨348, 0, 31, .wo, .none, (.num 0), false⟩  -- R382
def CAN_TX_DONE : Fld := ⟨349, 0, 31, .w1c, .none, (.num 0), false⟩  -- Completions
def CAN_PRIO_STATUS_OVERWRITTEN : Fld := ⟨350, 8, 15, .w1c, .none, (.num 0), false⟩  -- R377
def CAN_PRIO_STATUS_FULL : Fld := ⟨350, 0, 7, .w1c, .none, (.num 0), false⟩  -- R377
def CAN_SHADOW_CTRL_GO : Fld := ⟨351, 31, 31, .wo, .none, (.num 0), false⟩  -- R379
def CAN_SHADOW_CTRL_DIR : Fld := ⟨351, 30, 30, .wo, .none, (.num 0), false⟩  -- 0 to shadow, 1 to transmit buffer
def CAN_SHADOW_CTRL_S : Fld := ⟨351, 29, 29, .wo, .none, (.num 0), false⟩  -- Shadow 0 or 1
def CAN_SHADOW_CTRL_REGION : Fld := ⟨351, 24, 25, .wo, .none, (.num 0), false⟩  -- 0 TXB, 1 RXQ0, 2 RXQ1, 3 PRIO
def CAN_SHADOW_CTRL_INDEX : Fld := ⟨351, 0, 11, .wo, .none, (.num 0), false⟩  -- Element
def CAN_SHADOW_STATUS_DONE : Fld := ⟨352, 4, 5, .w1c, .none, (.num 0), false⟩  -- Bit s: copy done
def CAN_SHADOW_STATUS_ERR : Fld := ⟨352, 2, 3, .w1c, .none, (.num 0), false⟩  -- Bit s: copy refused
def CAN_SHADOW_STATUS_BUSY : Fld := ⟨352, 0, 1, .ro, .none, (.num 0), false⟩  -- Bit s: copy running or waiting
def CAN_TT_CFG_REF_ID : Fld := ⟨353, 16, 26, .ro, .choice, (.num 0), false⟩  -- Reference identifier, base format
def CAN_TT_CFG_TXEN : Fld := ⟨353, 8, 15, .ro, .choice, (.num 16), false⟩  -- Nominal bit times, 1 to 255; 0 acts as 1
def CAN_TT_CFG_NB_LOG2 : Fld := ⟨353, 3, 5, .ro, .choice, (.num 0), false⟩  -- Basic cycles per matrix cycle: 2^NB_LOG2, 0 to 6; 7 acts as 6
def CAN_TT_CFG_DOMAIN : Fld := ⟨353, 2, 2, .ro, .choice, (.num 0), false⟩  -- Time domain
def CAN_TT_CFG_ROLE : Fld := ⟨353, 1, 1, .ro, .choice, (.num 0), false⟩  -- 0 master, 1 follower
def CAN_TT_CFG_ENABLE : Fld := ⟨353, 0, 0, .ro, .choice, (.num 0), false⟩  -- Matrix in use
def CAN_TT_STATUS_RUNNING : Fld := ⟨354, 31, 31, .ro, .none, (.num 0), false⟩  -- Matrix running
def CAN_TT_STATUS_WINDOW : Fld := ⟨354, 8, 12, .ro, .none, (.num 0), false⟩  -- Window in force
def CAN_TT_STATUS_CYCLE : Fld := ⟨354, 0, 5, .ro, .none, (.num 0), false⟩  -- Cycle count
def CAN_TT_CYCLE : Fld := ⟨355, 0, 39, .ro, .choice, (.num 0x989680), false⟩  -- Basic cycle, ns
def CAN_TT_BASE_S : Fld := ⟨356, 0, 39, .ro, .choice, (.num 0), false⟩  -- Base time, seconds word
def CAN_TT_BASE_NS : Fld := ⟨357, 0, 39, .ro, .choice, (.num 0), false⟩  -- Base time, nanosecond word
def CAN_TT_WIN : Fld := ⟨358, 0, 23, .ro, .choice, (.num 0), false⟩  -- 100 ns units (R384)
def CAN_TXB_CFG_SCHED : Fld := ⟨359, 5, 5, .ro, .choice, (.num 0), false⟩  -- R380
def CAN_TXB_CFG_RETRY : Fld := ⟨359, 0, 4, .ro, .limit, (.num 31), false⟩  -- R381
def CAN_TXB_STATUS : Fld := ⟨360, 0, 2, .ro, .none, (.num 0), false⟩  -- R380
def CAN_FLT_ID : Fld := ⟨361, 0, 31, .ro, .choice, (.num 0), false⟩  -- Header word 0 to match. n = 0 to 127
def CAN_FLT_MASK : Fld := ⟨362, 0, 31, .ro, .choice, (.num 0), false⟩  -- Bits compared
def CAN_FLT_CFG_SEALED : Fld := ⟨363, 7, 7, .ro, .choice, (.num 0), false⟩  -- Verify accepted frames
def CAN_FLT_CFG_SEAL_CTX : Fld := ⟨363, 3, 6, .ro, .choice, (.num 0), false⟩  -- Context
def CAN_FLT_CFG_ACTION : Fld := ⟨363, 0, 1, .ro, .choice, (.num 0), false⟩  -- 0 disabled, 1 RXQ0, 2 RXQ1, 3 reject
def CAN_PFLT_ID : Fld := ⟨364, 0, 31, .ro, .choice, (.num 0), false⟩  -- Header word 0 to match. n = 0 to 127
def CAN_PFLT_MASK : Fld := ⟨365, 0, 31, .ro, .choice, (.num 0), false⟩  -- Bits compared
def CAN_PFLT_CFG_SEALED : Fld := ⟨366, 7, 7, .ro, .choice, (.num 0), false⟩  -- Verify accepted frames
def CAN_PFLT_CFG_SEAL_CTX : Fld := ⟨366, 3, 6, .ro, .choice, (.num 0), false⟩  -- Context
def CAN_PFLT_CFG_ACTION : Fld := ⟨366, 0, 1, .ro, .choice, (.num 0), false⟩  -- 0 disabled, 1 RXQ0, 2 RXQ1, 3 reject
def CAN_SEAL_CFG_WINDOW : Fld := ⟨367, 16, 31, .ro, .choice, (.num 16), false⟩  -- Context c = 0 to 15. 1 to 65 535; 0 acts as 1
def CAN_SEAL_CFG_MAC_BYTES : Fld := ⟨367, 2, 5, .ro, .choice, (.num 4), false⟩  -- 3 to 8; outside acts as nearest bound
def CAN_SEAL_CFG_FV_BYTES : Fld := ⟨367, 0, 1, .ro, .choice, (.num 1), false⟩  -- 1 to 3; 0 acts as 1
def CAN_SEAL_STATUS_KEY_SLOT : Fld := ⟨368, 8, 15, .ro, .none, (.num 0), false⟩  -- Bound slot
def CAN_SEAL_STATUS_KEYED : Fld := ⟨368, 2, 2, .ro, .none, (.num 0), false⟩  -- R388
def CAN_SEAL_STATUS_EXHAUSTED : Fld := ⟨368, 1, 1, .ro, .none, (.num 0), false⟩  -- R390
def CAN_SEAL_STATUS_FV_LOW : Fld := ⟨368, 0, 0, .ro, .none, (.num 0), false⟩  -- R390
def CAN_SEAL_TX : Fld := ⟨369, 0, 39, .ro, .none, (.num 0), false⟩  -- Next transmit freshness
def CAN_SEAL_RX : Fld := ⟨370, 0, 39, .ro, .none, (.num 0), false⟩  -- Last accepted freshness
def CAN_SEAL_TH : Fld := ⟨371, 0, 39, .ro, .choice, (.num 0xffff000000), false⟩  -- FV_LOW threshold
def CAN_CNT : Fld := ⟨372, 0, 39, .ro, .none, (.num 0), false⟩  -- Counter i (R396), i = 0 to 19; the block lies above the seal contexts, which end at 0x10DF
def CAN_TXB_ARB_LOST : Fld := ⟨373, 0, 39, .ro, .none, (.num 0), false⟩  -- Arbitration lost, buffer b
def CAN_TXB_TX_ERR : Fld := ⟨374, 0, 39, .ro, .none, (.num 0), false⟩  -- Attempts ended in error, buffer b
def CAN_TT_MAT : Fld := ⟨375, 0, 31, .ro, .choice, (.num 0), false⟩  -- Byte i: entry (c, 4j + i): [1:0] TYPE, [6:2] BUF, [7] zero. c = 0 to 63, j = 0 to 7
/-! Registers of R417 (file 14). -/
def TIME_STATUS_D1_PENDING : Fld := ⟨376, 11, 11, .ro, .none, (.num 0), false⟩  -- Refused jump pending, domain 1
def TIME_STATUS_D1_HOLDOVER : Fld := ⟨376, 10, 10, .ro, .none, (.num 0), false⟩  -- Copy from Bellows
def TIME_STATUS_D1_LOCKED : Fld := ⟨376, 9, 9, .ro, .none, (.num 0), false⟩  -- Copy from Bellows
def TIME_STATUS_D0_PENDING : Fld := ⟨376, 8, 8, .ro, .none, (.num 0), false⟩  -- Refused jump pending, domain 0
def TIME_STATUS_D0_HOLDOVER : Fld := ⟨376, 7, 7, .ro, .none, (.num 0), false⟩  -- Copy from Bellows
def TIME_STATUS_D0_LOCKED : Fld := ⟨376, 6, 6, .ro, .none, (.num 0), false⟩  -- Copy from Bellows
def TIME_STATUS_LINK_UP : Fld := ⟨376, 5, 5, .ro, .none, (.num 0), false⟩  -- Time link messages arriving
def TIME_STATUS_D1_STATE : Fld := ⟨376, 2, 3, .ro, .none, (.num 0), false⟩  -- 0 UNSET, 1 SYNCED, 2 FREE (R410)
def TIME_STATUS_D0_STATE : Fld := ⟨376, 0, 1, .ro, .none, (.num 0), false⟩  -- As D1_STATE
def TIME_EVT_LINK_LOST : Fld := ⟨377, 4, 4, .w1c, .none, (.num 0), false⟩  -- R410
def TIME_EVT_STEP : Fld := ⟨377, 3, 3, .w1c, .none, (.num 0), false⟩  -- A follower step
def TIME_EVT_JUMP_REFUSED : Fld := ⟨377, 2, 2, .w1c, .none, (.num 0), false⟩  -- R411
def TIME_EVT_HOLDOVER_CHG : Fld := ⟨377, 1, 1, .w1c, .none, (.num 0), false⟩  -- R411
def TIME_EVT_LOCK_CHG : Fld := ⟨377, 0, 0, .w1c, .none, (.num 0), false⟩  -- R411
def TIME_CFG : Fld := ⟨378, 0, 0, .ro, .base, (.num 0), false⟩  -- Domain of commit ticks, tallies and stamps
def TIME_D0_NS : Fld := ⟨379, 0, 39, .ro, .none, (.num 0), false⟩  -- Nanosecond word, domain 0; latches TIME_D0_LATCH_S
def TIME_D0_LATCH_S : Fld := ⟨380, 0, 39, .ro, .none, (.num 0), false⟩  -- Seconds word of the last TIME_D0_NS read
def TIME_D1_NS : Fld := ⟨381, 0, 39, .ro, .none, (.num 0), false⟩  -- As above, domain 1
def TIME_D1_LATCH_S : Fld := ⟨382, 0, 39, .ro, .none, (.num 0), false⟩  -- As above, domain 1
def TIME_D0_STEP_SEQ : Fld := ⟨383, 0, 39, .ro, .none, (.num 0), false⟩  -- Follower steps, domain 0; counts from wake
def TIME_D1_STEP_SEQ : Fld := ⟨384, 0, 39, .ro, .none, (.num 0), false⟩  -- As above, domain 1
def TIME_LINK_LOST_COUNT : Fld := ⟨385, 0, 39, .ro, .none, (.num 0), false⟩  -- Time link losses
def TPO_START_S : Fld := ⟨386, 0, 39, .ro, .none, (.num 0), false⟩  -- Start, seconds word
def TPO_START_NS : Fld := ⟨387, 0, 39, .ro, .none, (.num 0), false⟩  -- Start, nanosecond word
def TPO_PERIOD : Fld := ⟨388, 0, 39, .ro, .none, (.num 0), false⟩  -- 0 one-shot
def TPO_WIDTH : Fld := ⟨389, 0, 39, .ro, .none, (.num 0), false⟩  -- Pulse width
def TPO_CTRL_OWNER : Fld := ⟨390, 8, 10, .ro, .base, (.num 0), false⟩  -- Owner world
def TPO_CTRL_DOMAIN : Fld := ⟨390, 4, 4, .ro, .choice, (.num 0), false⟩  -- Time domain
def TPO_CTRL_LATE : Fld := ⟨390, 3, 3, .w1c, .none, (.num 0), false⟩  -- R414
def TPO_CTRL_DONE : Fld := ⟨390, 2, 2, .ro, .none, (.num 0), false⟩  -- One-shot has fired
def TPO_CTRL_INVERT : Fld := ⟨390, 1, 1, .ro, .none, (.num 0), false⟩  -- Active low
def TPO_CTRL_ENABLE : Fld := ⟨390, 0, 0, .ro, .none, (.num 0), false⟩  -- Output running
def TPO_SKIP_COUNT : Fld := ⟨391, 0, 39, .ro, .none, (.num 0), false⟩  -- Edges skipped by steps
def TCI_CFG_OWNER : Fld := ⟨392, 8, 10, .ro, .base, (.num 0), false⟩  -- Owner world
def TCI_CFG_DOMAIN : Fld := ⟨392, 2, 2, .ro, .choice, (.num 0), false⟩  -- Time domain
def TCI_CFG_EDGE : Fld := ⟨392, 0, 1, .ro, .choice, (.num 0), false⟩  -- 0 off, 1 rising, 2 falling, 3 both
def TCI_LAST_S : Fld := ⟨393, 0, 39, .ro, .none, (.num 0), false⟩  -- Latest capture
def TCI_LAST_NS : Fld := ⟨394, 0, 39, .ro, .none, (.num 0), false⟩  -- Latest capture
def TCI_STATUS_STEPPED : Fld := ⟨395, 17, 17, .ro, .none, (.num 0), false⟩  -- R415
def TCI_STATUS_OVERFLOW : Fld := ⟨395, 16, 16, .ro, .none, (.num 0), false⟩  -- R415
def TCI_STATUS_COUNT : Fld := ⟨395, 0, 15, .ro, .none, (.num 0), false⟩  -- Captures since the last TIME_CAPTURE_READ
def TCI_CAPTURE_COUNT : Fld := ⟨396, 0, 39, .ro, .none, (.num 0), false⟩  -- Captures
/-! Registers of R418 (file 14). -/
def BLW_CFG_ENABLE : Fld := ⟨397, 31, 31, .ro, .base, (.byDomain 1 0), false⟩  -- Domain in use
def BLW_CFG_GM_CAPABLE : Fld := ⟨397, 30, 30, .ro, .base, (.num 0), false⟩  -- May become grandmaster
def BLW_CFG_EXT_PORT : Fld := ⟨397, 29, 29, .ro, .base, (.num 0), false⟩  -- External port configuration in place of the BMCA
def BLW_CFG_AUTO_STEP : Fld := ⟨397, 28, 28, .ro, .none, (.num 0), false⟩  -- R408
def BLW_CFG_PRIORITY2 : Fld := ⟨397, 16, 23, .ro, .base, (.num 248), false⟩  -- priority2
def BLW_CFG_PRIORITY1 : Fld := ⟨397, 8, 15, .ro, .base, (.num 255), false⟩  -- priority1
def BLW_CFG_DOMAIN_NUMBER : Fld := ⟨397, 0, 7, .ro, .base, (.byDomain 0 1), false⟩  -- domainNumber
def BLW_KP : Fld := ⟨398, 0, 39, .ro, .none, (.num 0x400000), true⟩  -- Q20.20 ppb per ns
def BLW_KI : Fld := ⟨399, 0, 39, .ro, .none, (.num 524288), true⟩  -- Q20.20 ppb per ns
def BLW_JUMP_TH : Fld := ⟨400, 0, 39, .ro, .none, (.num 1000), false⟩  -- Jump threshold, unsigned
def BLW_LOCK_TH : Fld := ⟨401, 0, 39, .ro, .choice, (.num 0x6400000), true⟩  -- Q20.20, 1 to 10 000
def BLW_STATE_SLAVE_PORT : Fld := ⟨402, 27, 31, .ro, .none, (.num 31), false⟩  -- Slave port; 31 none
def BLW_STATE_RUN : Fld := ⟨402, 7, 11, .ro, .none, (.num 0), false⟩  -- Agreeing offsets, 0 to 16
def BLW_STATE_IS_GM : Fld := ⟨402, 6, 6, .ro, .none, (.num 0), false⟩  -- This module is grandmaster
def BLW_STATE_PENDING : Fld := ⟨402, 5, 5, .ro, .none, (.num 0), false⟩  -- R407
def BLW_STATE_HOLDOVER : Fld := ⟨402, 4, 4, .ro, .none, (.num 0), false⟩  -- State 3
def BLW_STATE_LOCKED : Fld := ⟨402, 3, 3, .ro, .none, (.num 0), false⟩  -- R406
def BLW_STATE_SERVO : Fld := ⟨402, 0, 2, .ro, .none, (.num 0), false⟩  -- R406
def BLW_OFFSET : Fld := ⟨403, 0, 39, .ro, .none, (.num 0), true⟩  -- Latest offset, signed, saturating
def BLW_PENDING : Fld := ⟨404, 0, 39, .ro, .none, (.num 0), true⟩  -- Refused offset, signed
def BLW_ADJ : Fld := ⟨405, 0, 39, .ro, .none, (.num 0), true⟩  -- adj, Q20.20
def BLW_INTEG : Fld := ⟨406, 0, 39, .ro, .none, (.num 0), true⟩  -- integ, Q20.20
def BLW_GM_ID_HI : Fld := ⟨407, 0, 31, .ro, .none, (.num 0), false⟩  -- Grandmaster clockIdentity, octets 0 to 3
def BLW_GM_ID_LO : Fld := ⟨408, 0, 31, .ro, .none, (.num 0), false⟩  -- Octets 4 to 7
def BLW_EVT_GM_CHANGE : Fld := ⟨409, 4, 4, .w1c, .none, (.num 0), false⟩  -- R407
def BLW_EVT_STEP : Fld := ⟨409, 3, 3, .w1c, .none, (.num 0), false⟩  -- R408
def BLW_EVT_JUMP_REFUSED : Fld := ⟨409, 2, 2, .w1c, .none, (.num 0), false⟩  -- R407
def BLW_EVT_HOLDOVER_CHG : Fld := ⟨409, 1, 1, .w1c, .none, (.num 0), false⟩  -- R406
def BLW_EVT_LOCK_CHG : Fld := ⟨409, 0, 0, .w1c, .none, (.num 0), false⟩  -- R406
def BLW_SYNC_RX_COUNT : Fld := ⟨410, 0, 39, .ro, .none, (.num 0), false⟩  -- Syncs used
def BLW_SYNC_TIMEOUT_COUNT : Fld := ⟨411, 0, 39, .ro, .none, (.num 0), false⟩  -- Sync receipt timeouts
def BLW_JUMP_REFUSED_COUNT : Fld := ⟨412, 0, 39, .ro, .none, (.num 0), false⟩  -- Refused jumps
def BLW_STEP_COUNT : Fld := ⟨413, 0, 39, .ro, .none, (.num 0), false⟩  -- Steps
def BLW_GM_CHANGE_COUNT : Fld := ⟨414, 0, 39, .ro, .none, (.num 0), false⟩  -- Grandmaster changes
/-! Registers of R419 (file 14). -/
def BLW_PCFG_PTP_EN : Fld := ⟨415, 31, 31, .ro, .base, (.num 0), false⟩  -- PTP port (R398)
def BLW_PCFG_ONE_STEP : Fld := ⟨415, 30, 30, .ro, .choice, (.num 1), false⟩  -- R403
def BLW_PCFG_EXT_ROLE_D1 : Fld := ⟨415, 28, 29, .ro, .base, (.num 0), false⟩  -- 0 disabled, 1 master, 2 slave, 3 passive
def BLW_PCFG_EXT_ROLE_D0 : Fld := ⟨415, 26, 27, .ro, .base, (.num 0), false⟩  -- As above
def BLW_PCFG_LOG_SYNC : Fld := ⟨415, 8, 15, .ro, .choice, (.num 253), true⟩  -- logSyncInterval, signed, −5 to 0; outside acts as the nearest bound
def BLW_PCFG_LOG_PDELAY : Fld := ⟨415, 0, 7, .ro, .choice, (.num 0), true⟩  -- logPdelayReqInterval, signed, −3 to 3
def BLW_ASYM : Fld := ⟨416, 0, 39, .ro, .base, (.num 0), true⟩  -- delayAsymmetry at speed s, Q20.20 signed (R401)
def BLW_TX_LAT : Fld := ⟨417, 0, 39, .ro, .none, .txLatency, true⟩  -- Transmit latency in force, Q20.20
def BLW_RX_LAT : Fld := ⟨418, 0, 39, .ro, .none, .rxLatency, true⟩  -- Receive latency in force, Q20.20
def BLW_MEAN_DELAY : Fld := ⟨419, 0, 39, .ro, .none, (.num 0), true⟩  -- Measured meanLinkDelay, Q20.20
def BLW_FIXED_DELAY : Fld := ⟨420, 0, 39, .ro, .base, (.num 0), true⟩  -- Port 14 link delay, Q20.20 (R399)
def BLW_PSTATUS_ROLE_D1 : Fld := ⟨421, 3, 4, .ro, .none, (.num 0), false⟩  -- Port role in domain 1, coded as EXT_ROLE
def BLW_PSTATUS_ROLE_D0 : Fld := ⟨421, 1, 2, .ro, .none, (.num 0), false⟩  -- Port role in domain 0
def BLW_PSTATUS_AS_CAPABLE : Fld := ⟨421, 0, 0, .ro, .none, (.num 0), false⟩  -- asCapable
def BLW_PDELAY_LOST_COUNT : Fld := ⟨422, 0, 39, .ro, .none, (.num 0), false⟩  -- Pdelay exchanges without a response
/-! Registers of R459 (file 15). -/
def WOT_STATUS_SEC_LOCK : Fld := ⟨423, 2, 2, .ro, .none, (.num 0), false⟩  -- Security latch set in the Ember (R456)
def WOT_STATUS_REG_ERR : Fld := ⟨423, 1, 1, .ro, .none, (.num 0), false⟩  -- A region is unused under R423
def WOT_STATUS_VIOL : Fld := ⟨423, 0, 0, .w1c, .none, (.num 0), false⟩  -- Refusal captured (R426)
def WOT_SEC_CFG_THRESH : Fld := ⟨424, 8, 15, .ro, .limit, (.num 16), false⟩  -- Events in 10 s, 1 to 255; 0 acts as 1
def WOT_SEC_CFG_EVENTS : Fld := ⟨424, 0, 3, .ro, .request, (.num 9), false⟩  -- R456
def WOT_SEC_CTRL : Fld := ⟨425, 0, 0, .wo, .none, (.num 0), false⟩  -- Clears the security latch (R458)
def WOT_GATE : Fld := ⟨426, 0, 0, .ro, .choice, (.num 1), false⟩  -- 1: WLD_RESTART (0x802) allowed
def WOT_VIOL_ADDR : Fld := ⟨427, 0, 39, .ro, .none, (.num 0), false⟩  -- Address of the captured refusal
def WOT_VIOL_INFO_INITIATOR : Fld := ⟨428, 16, 19, .ro, .none, (.num 0), false⟩  -- Initiator code (R293)
def WOT_VIOL_INFO_WORLD : Fld := ⟨428, 12, 14, .ro, .none, (.num 0), false⟩  -- World carried
def WOT_VIOL_INFO_KIND : Fld := ⟨428, 8, 9, .ro, .none, (.num 0), false⟩  -- 0 read, 1 write, 2 execute
def WOT_VIOL_COUNT : Fld := ⟨429, 0, 39, .ro, .none, (.num 0), false⟩  -- WOT refusals
def WOT_GATE_FAULT_COUNT : Fld := ⟨430, 0, 39, .ro, .none, (.num 0), false⟩  -- Gate faults (R434)
def WOT_WORLD_FAIL_COUNT : Fld := ⟨431, 0, 39, .ro, .none, (.num 0), false⟩  -- World failures (R438)
def WOT_SYNC_BUSY : Fld := ⟨432, 1, 1, .ro, .none, (.num 0), false⟩  -- Sync running
def WOT_SYNC_GO : Fld := ⟨432, 0, 0, .wo, .none, (.num 0), false⟩  -- Starts a sync
def WOT_WORLD_CFG_ENABLED : Fld := ⟨433, 31, 31, .ro, .base, (.num 0), false⟩  -- World in use; reads 1 for w = 0
def WOT_WORLD_CFG_ON_FAIL : Fld := ⟨433, 28, 28, .ro, .base, (.num 0), false⟩  -- 0 CARRY_ON, 1 RESTART
def WOT_WORLD_CFG_RESTARTS : Fld := ⟨433, 24, 27, .ro, .base, (.num 3), false⟩  -- R439
def WOT_WORLD_CFG_WDOG : Fld := ⟨433, 0, 15, .ro, .choice, (.num 0), false⟩  -- Watchdog, ms; 0 none
def WOT_WORLD_STATE_RESTARTS : Fld := ⟨434, 8, 23, .ro, .none, (.num 0), false⟩  -- Restarts since wake
def WOT_WORLD_STATE_MEASURED : Fld := ⟨434, 3, 3, .ro, .none, (.num 0), false⟩  -- R445
def WOT_WORLD_STATE_STATE : Fld := ⟨434, 0, 2, .ro, .none, (.num 0), false⟩  -- R436
def WOT_WORLD_LOAD : Fld := ⟨435, 0, 39, .ro, .base, (.num 0), false⟩  -- Load address of the image body
def WOT_WORLD_ENTRY : Fld := ⟨436, 0, 39, .ro, .base, (.num 0), false⟩  -- Start address of the home harts
def WOT_HART_CURRENT : Fld := ⟨437, 4, 6, .ro, .none, (.num 0), false⟩  -- Current world of the hart
def WOT_HART_HOME : Fld := ⟨437, 0, 2, .ro, .base, (.num 0), false⟩  -- R437
def WOT_GATE_CFG_CALLERS : Fld := ⟨438, 8, 15, .ro, .base, (.num 0), false⟩  -- R429
def WOT_GATE_CFG_PRIV : Fld := ⟨438, 4, 5, .ro, .base, (.num 0), false⟩  -- R429
def WOT_GATE_CFG_TARGET : Fld := ⟨438, 0, 2, .ro, .base, (.num 0), false⟩  -- R429
def WOT_GATE_ENTRY : Fld := ⟨439, 0, 39, .ro, .base, (.num 0), false⟩  -- Entry address
def WOT_REG_BASE : Fld := ⟨440, 0, 39, .ro, .base, (.num 0), false⟩  -- First page, 4 KiB aligned; bits [11:0] ignored
def WOT_REG_PAGES : Fld := ⟨441, 0, 23, .ro, .base, (.num 0), false⟩  -- Pages covered; 0 unused
def WOT_REG_PERM_X : Fld := ⟨442, 16, 23, .ro, .base, (.num 0), false⟩  -- Execute mask
def WOT_REG_PERM_W : Fld := ⟨442, 8, 15, .ro, .base, (.num 0), false⟩  -- Write mask
def WOT_REG_PERM_R : Fld := ⟨442, 0, 7, .ro, .base, (.num 0), false⟩  -- Read mask
/-! Registers of R460 (file 15). -/
def KEYS_STATUS_DEBUG_OWNED : Fld := ⟨443, 1, 1, .ro, .none, (.num 0), false⟩  -- An integrator USE 2 slot is burned
def KEYS_STATUS_OWNED : Fld := ⟨443, 0, 0, .ro, .none, (.num 0), false⟩  -- R447
def KEYS_GATE : Fld := ⟨444, 0, 0, .ro, .choice, (.num 0), false⟩  -- 1: BURN and REVOKE allowed
def KEYS_OP_CTRL_GO : Fld := ⟨445, 31, 31, .wo, .none, (.num 0), false⟩  -- Starts OP
def KEYS_OP_CTRL_SLOT : Fld := ⟨445, 8, 13, .rw, .none, (.num 0), false⟩  -- Slot 0 to 63
def KEYS_OP_CTRL_OP : Fld := ⟨445, 0, 3, .rw, .none, (.num 0), false⟩  -- R448; other values end with ERRCODE 1
def KEYS_OP_STATUS_ERRCODE : Fld := ⟨446, 4, 7, .ro, .none, (.num 0), false⟩  -- 1 bad slot or OP, 2 wrong USE or TYPE, 3 revoked, 4 slot not empty or not volatile, 5 gate, 6 ...
def KEYS_OP_STATUS_ERR : Fld := ⟨446, 2, 2, .w1c, .none, (.num 0), false⟩  -- Operation failed
def KEYS_OP_STATUS_DONE : Fld := ⟨446, 1, 1, .w1c, .none, (.num 0), false⟩  -- Operation complete
def KEYS_OP_STATUS_BUSY : Fld := ⟨446, 0, 0, .ro, .none, (.num 0), false⟩  -- Operation running
def KEYS_OP_ATTR_OWNER : Fld := ⟨447, 8, 10, .rw, .none, (.num 0), false⟩  -- Owner world for INSTALL and BURN
def KEYS_OP_ATTR_TYPE : Fld := ⟨447, 4, 5, .rw, .none, (.num 0), false⟩  -- R446
def KEYS_OP_ATTR_USE : Fld := ⟨447, 0, 2, .rw, .none, (.num 0), false⟩  -- R446
def KEYS_OP_ADDR : Fld := ⟨448, 0, 39, .rw, .none, (.num 0), false⟩  -- Input in local SRAM
def KEYS_OP_OUT : Fld := ⟨449, 0, 39, .rw, .none, (.num 0), false⟩  -- Output in local SRAM
def KEYS_OP_LEN : Fld := ⟨450, 0, 23, .rw, .none, (.num 0), false⟩  -- CMAC length
def KEYS_SLOT_VALID : Fld := ⟨451, 31, 31, .ro, .none, (.num 0), false⟩  -- Slot filled, s = 0 to 63
def KEYS_SLOT_REVOKED : Fld := ⟨451, 30, 30, .ro, .none, (.num 0), false⟩  -- R447
def KEYS_SLOT_OTP : Fld := ⟨451, 29, 29, .ro, .none, (.num 0), false⟩  -- One-time-programmable slot
def KEYS_SLOT_OWNER : Fld := ⟨451, 8, 10, .ro, .none, (.num 0), false⟩  -- Owner world
def KEYS_SLOT_TYPE : Fld := ⟨451, 4, 5, .ro, .none, (.num 0), false⟩  -- R446
def KEYS_SLOT_USE : Fld := ⟨451, 0, 2, .ro, .none, (.num 0), false⟩  -- R446
/-! Registers of R461 (file 15). -/
def POKER_STATUS_UNLOCKED : Fld := ⟨452, 31, 31, .ro, .none, (.num 0), false⟩  -- Port unlocked
def POKER_STATUS_SCOPE : Fld := ⟨452, 16, 23, .ro, .none, (.num 0), false⟩  -- Scope in force
def POKER_STATUS_LEVEL : Fld := ⟨452, 8, 9, .ro, .none, (.num 0), false⟩  -- Level in force
def POKER_STATUS_CAUSE : Fld := ⟨452, 0, 3, .ro, .none, (.num 0), false⟩  -- Last refusal (R451)
def POKER_CTRL : Fld := ⟨453, 0, 0, .wo, .none, (.num 0), false⟩  -- Ends the unlock (R453)
def POKER_TIME_LEFT : Fld := ⟨454, 0, 15, .ro, .none, (.num 0), false⟩  -- Unlock time left; 0 until wake, or locked
def POKER_UNLOCK_COUNT : Fld := ⟨455, 0, 39, .ro, .none, (.num 0), false⟩  -- Unlocks
def POKER_REFUSE_COUNT : Fld := ⟨456, 0, 39, .ro, .none, (.num 0), false⟩  -- Refused certificates
/-! Registers of R462 (file 15). -/
def WLD_KICK : Fld := ⟨457, 0, 0, .wo, .none, (.num 0), false⟩  -- Writing 1 restarts the watchdog of world w (R438)
/-! Registers of R473 (file 16). -/
def TALLY_PERIOD : Fld := ⟨458, 0, 15, .ro, .choice, (.num 1000), false⟩  -- Period, ms; 0 acts as 1, above 60 000 acts as 60 000
def TALLY_CFG_DEPTH_M1 : Fld := ⟨459, 4, 7, .ro, .base, (.num 3), false⟩  -- Banks − 1; 0 acts as 1
def TALLY_CFG_WORLD : Fld := ⟨459, 0, 2, .ro, .base, (.num 0), false⟩  -- World of ring writes
def TALLY_RING_BASE : Fld := ⟨460, 0, 39, .ro, .base, (.num 0), false⟩  -- Ring base in local SRAM
def TALLY_SEQ : Fld := ⟨461, 0, 39, .ro, .none, (.num 0), false⟩  -- Boundaries since wake
def TALLY_LAST_S : Fld := ⟨462, 0, 39, .ro, .none, (.num 0), false⟩  -- Last boundary instant
def TALLY_LAST_NS : Fld := ⟨463, 0, 39, .ro, .none, (.num 0), false⟩  -- Last boundary instant
def TALLY_STATUS_MISSING : Fld := ⟨464, 12, 23, .ro, .none, (.num 0), false⟩  -- As FLAGS.MISSING of the last bank
def TALLY_STATUS_RING_ERR : Fld := ⟨464, 3, 3, .w1c, .none, (.num 0), false⟩  -- R466; also logged as ACCESS_FAULT
def TALLY_STATUS_FREE : Fld := ⟨464, 2, 2, .ro, .none, (.num 1), false⟩  -- Boundaries on free-running time
def TALLY_STATUS_LOCAL_DONE : Fld := ⟨464, 1, 1, .ro, .none, (.num 0), false⟩  -- R469
def TALLY_STATUS_RECORDS_DONE : Fld := ⟨464, 0, 0, .ro, .none, (.num 0), false⟩  -- R469
def TALLY_ECC_SRAM_CORR : Fld := ⟨465, 0, 39, .ro, .none, (.num 0), false⟩  -- Corrected SRAM words (R28)
def TALLY_ECC_SRAM_UNCORR : Fld := ⟨466, 0, 39, .ro, .none, (.num 0), false⟩  -- Uncorrectable SRAM words
def TALLY_ECC_DDR_CORR : Fld := ⟨467, 0, 39, .ro, .none, (.num 0), false⟩  -- Corrected LPDDR5X reads (R29)
def TALLY_ECC_DDR_UNCORR : Fld := ⟨468, 0, 39, .ro, .none, (.num 0), false⟩  -- Uncorrectable LPDDR5X reads
def TALLY_ECC_SCRUB_CORR : Fld := ⟨469, 0, 39, .ro, .none, (.num 0), false⟩  -- Scrubber corrections
/-! Registers of R479 (file 16). -/
def PERF_CTRL_FREEZE : Fld := ⟨470, 1, 1, .rw, .none, (.num 0), false⟩  -- R478
def PERF_CTRL_ENABLE : Fld := ⟨470, 0, 0, .rw, .none, (.num 0), false⟩  -- All counters enabled
def PERF_OVF_LO : Fld := ⟨471, 0, 31, .w1c, .none, (.num 0), false⟩  -- Counters 0 to 31 wrapped
def PERF_OVF_HI : Fld := ⟨472, 0, 15, .w1c, .none, (.num 0), false⟩  -- Counters 32 to 47 wrapped
def PERF_RANGE_BASE : Fld := ⟨473, 0, 39, .rw, .none, (.num 0), false⟩  -- Window start
def PERF_RANGE_LIMIT : Fld := ⟨474, 0, 39, .rw, .none, (.num 0), false⟩  -- Window end, inclusive
def PERF_CNT : Fld := ⟨475, 0, 39, .rw, .none, (.num 0), false⟩  -- Count
def PERF_SEL_EN : Fld := ⟨476, 31, 31, .rw, .none, (.num 0), false⟩  -- Counter enabled
def PERF_SEL_CHAIN : Fld := ⟨476, 30, 30, .rw, .none, (.num 0), false⟩  -- Odd n only; reads 0 on even n
def PERF_SEL_OVF_IRQ : Fld := ⟨476, 29, 29, .rw, .none, (.num 0), false⟩  -- R477
def PERF_SEL_EVENT : Fld := ⟨476, 16, 23, .rw, .none, (.num 0), false⟩  -- R475
def PERF_FILT_RANGE : Fld := ⟨477, 29, 31, .rw, .none, (.num 0), false⟩  -- 0 none; 1 to 4 range 0 to 3; 5 to 7 act as 0
def PERF_FILT_PRIV : Fld := ⟨477, 24, 28, .rw, .none, (.num 31), false⟩  -- Bits U, S, M, VU, VS
def PERF_FILT_WORLD : Fld := ⟨477, 16, 23, .rw, .none, (.num 255), false⟩  -- World mask
def PERF_FILT_INIT : Fld := ⟨477, 0, 10, .rw, .none, (.num 2047), false⟩  -- Initiator mask
def PERF_LATCH : Fld := ⟨478, 0, 39, .ro, .none, (.num 0), false⟩  -- Even n only: odd partner latched (R477)
/-! Registers of R486 (file 16). -/
def ASH_SEQ : Fld := ⟨479, 0, 39, .ro, .none, (.num 0), false⟩  -- Entries written
def ASH_MARK : Fld := ⟨480, 0, 39, .rw, .none, (.num 0), false⟩  -- Sequence consumed by the reader
def ASH_CFG : Fld := ⟨481, 0, 12, .ro, .choice, (.num 3072), false⟩  -- 1 to 4 096; 0 acts as 1, and 4 097 to 8 191 act as 4 096
def ASH_STATUS_OVERWRITE : Fld := ⟨482, 1, 1, .w1c, .none, (.num 0), false⟩  -- R485
def ASH_STATUS_FILL : Fld := ⟨482, 0, 0, .w1c, .none, (.num 0), false⟩  -- R485
def ASH_OVERWRITE_COUNT : Fld := ⟨483, 0, 39, .ro, .none, (.num 0), false⟩  -- R485
def ASH_SEL : Fld := ⟨484, 0, 11, .rw, .none, (.num 0), false⟩  -- Entry to latch
def ASH_W : Fld := ⟨485, 0, 39, .ro, .none, (.num 0), false⟩  -- Word i of the latched entry, i = 0 to 3
/-! Registers of R501 (file 17). -/
def IN_DIN_STATE : Fld := ⟨486, 0, 15, .ro, .none, (.num 0), false⟩  -- Filtered level of DIN n
def IN_DIN_EVT : Fld := ⟨487, 0, 15, .w1c, .none, (.num 0), false⟩  -- Selected edge seen on DIN n
def IN_AIN_EVT : Fld := ⟨488, 0, 23, .w1c, .none, (.num 0), false⟩  -- State change of AIN k
def IN_DIN_CFG_OWNER : Fld := ⟨489, 24, 26, .ro, .base, (.num 0), false⟩  -- Owner world
def IN_DIN_CFG_PULL : Fld := ⟨489, 20, 21, .ro, .choice, (.num 0), false⟩  -- 0 none, 1 pull-down, 2 pull-up, 3 acts as 0
def IN_DIN_CFG_IRQ_EDGE : Fld := ⟨489, 16, 17, .ro, .choice, (.num 0), false⟩  -- 0 none, 1 rising, 2 falling, 3 both
def IN_DIN_CFG_FILTER : Fld := ⟨489, 0, 15, .ro, .choice, (.num 100), false⟩  -- µs, 1 to 10 000; 0 acts as 1
def IN_AIN : Fld := ⟨490, 0, 39, .ro, .none, (.num 0), true⟩  -- Latest value, Q20.20 signed
def IN_AIN_CFG_OWNER : Fld := ⟨491, 24, 26, .ro, .base, (.num 0), false⟩  -- Owner world
def IN_AIN_CFG_RANGE : Fld := ⟨491, 16, 16, .ro, .base, (.num 1), false⟩  -- R500
def IN_AIN_CFG_IRQ_EN : Fld := ⟨491, 0, 0, .ro, .choice, (.num 0), false⟩  -- State changes latch source 82
def IN_AIN_HI : Fld := ⟨492, 0, 39, .ro, .choice, (.num 0x2400000), true⟩  -- Upper threshold, Q20.20
def IN_AIN_LO : Fld := ⟨493, 0, 39, .ro, .choice, (.num 0), true⟩  -- Lower threshold, Q20.20
/-! Registers of R503 (file 17). -/
def PINS_STRAP_FLUE_REF_EXT : Fld := ⟨494, 1, 1, .ro, .none, (.num 0), false⟩  -- Value sampled by the Flue die
def PINS_STRAP_STOKE_MODE : Fld := ⟨494, 0, 0, .ro, .none, (.num 0), false⟩  -- Value sampled by this side
def PINS_RESET : Fld := ⟨495, 0, 2, .ro, .none, (.num 0), false⟩  -- Last reset of this side: 0 wake, 1 SIDE_x_RST_N (R141), 2 not healthy (R272), 3 feed return (R153)
/-! Registers of R232 (file 07). -/
def HRN_W : Fld := ⟨496, 0, 39, .ro, .none, (.num 0), false⟩
/-! Registers of R472 (file 16). -/
def FLUE_TALLY_SEQ : Fld := ⟨497, 0, 39, .ro, .none, (.num 0), false⟩
def FLUE_TALLY_S : Fld := ⟨498, 0, 39, .ro, .none, (.num 0), false⟩
def FLUE_TALLY_NS : Fld := ⟨499, 0, 39, .ro, .none, (.num 0), false⟩

end Sys2Proof.F
end

