-- ==== Sys2Proof/Machine/Tab.lean ====
section
/-! DEFINITION. Tables in one canonical form: a list of (key, value) pairs, strictly rising in the code of the key, with no
entry equal to what an unlisted key reads as, so that equal tables are equal data. Memory is such a table of bytes; the
register fields, the queues and the arrays of the module are such tables of their own values. -/
namespace Sys2Proof.Machine

/-- A table from numbers to values. -/
abbrev Tab (α : Type) := List (Nat × α)

/-- The value at key `k`; an unlisted key reads as `d k`. -/
def Tab.get {κ α : Type} [DecidableEq κ] (d : κ → α) : List (κ × α) → κ → α
  | [], k => d k
  | p :: t, k => if p.1 = k then p.2 else get d t k

/-- The table without any entry at `k`. -/
def Tab.erase {κ α : Type} [DecidableEq κ] (t : List (κ × α)) (k : κ) : List (κ × α) := t.filter (fun p => decide (p.1 ≠ k))

/-- The entry (k, v) put before the first entry of greater code. -/
def Tab.insert {κ α : Type} (code : κ → Nat) (t : List (κ × α)) (k : κ) (v : α) : List (κ × α) :=
  match t with
  | [] => [(k, v)]
  | p :: t => if code k < code p.1 then (k, v) :: p :: t else p :: insert code t k v

/-- The table with `v` at `k`: writing what an unlisted key reads as removes the entry. -/
def Tab.set {κ α : Type} [DecidableEq κ] [DecidableEq α] (d : κ → α) (code : κ → Nat) (t : List (κ × α)) (k : κ) (v : α) :
    List (κ × α) :=
  if v = d k then erase t k else insert code (erase t k) k v

/-- The canonical form. -/
abbrev Tab.Wf {κ α : Type} (d : κ → α) (code : κ → Nat) (t : List (κ × α)) : Prop :=
  t.Pairwise (fun a b => code a.1 < code b.1) ∧ ∀ p ∈ t, p.2 ≠ d p.1

end Sys2Proof.Machine
end

