-- ==== Sys2Proof/Machine/State.lean ====
section
/-! DEFINITION. The state of the module as plain data. Register fields stand in one table (`regs`), each under its own
definition in RegFields.lean; what the manual gives the machine besides its registers stands in the structures below,
grouped by who holds it: the sides, the grate dies and their channels, the Flue die and the Ember die. -/
namespace Sys2Proof.Machine

/-! ## Packets, doors and the Stoker (chapter 03) -/

/-- A command packet (R64): code, tag, world, target and parameter words; `compared` is the safety pair's mark (R208). -/
structure Packet where
  code : Nat
  tag : Nat
  world : Nat
  target : Nat
  params : List Nat
  compared : Bool
  deriving DecidableEq, Repr

/-- A packet the Stoker has taken: the side and source it came from (0 to 31 a door, 32 the Stoke port), a number that
tells two taken packets apart, the instant of its take and the packet (R80, R85). -/
structure Job where
  side : Side
  src : Nat
  seq : Nat
  takenAt : Nat
  pkt : Packet
  deriving DecidableEq, Repr

/-- An outstanding tag of a source, with the number and the world of its packet and the reply words reserved for it (R67, R75, R77). -/
structure OutTag where
  tag : Nat
  seq : Nat
  room : Nat
  world : Nat
  deriving DecidableEq, Repr

/-- A source of packets: the packet under assembly, the complete packets not yet taken, the reply FIFO, the outstanding
tags, and the split-register latches of R72. -/
structure Src where
  asm : List Nat
  cmd : List Packet
  rpl : List Nat
  out : List OutTag
  hi : Nat
  lo : Nat
  deriving DecidableEq, Repr

/-- A source with nothing in it. -/
def Src.empty : Src := ⟨[], [], [], [], 0, 0⟩

/-- A reply on its way to a reply FIFO: the packet it answers, status code, DETAIL and reply words (R65). -/
structure Reply where
  job : Job
  status : Nat
  detail : Nat
  words : List Nat
  deriving DecidableEq, Repr

/-- An entry of the Ash pan: its four words (R480). -/
structure LogEntry where
  w0 : Nat
  w1 : Nat
  w2 : Nat
  w3 : Nat
  deriving DecidableEq, Repr

/-! ## Configuration (chapter 04) -/

/-- A configuration record (R122): register address on the side's map, bit range, owner (0xFF base, else overlay) and value. -/
structure Rec where
  addr : Nat
  lo : Nat
  hi : Nat
  owner : Nat
  value : Nat
  deriving DecidableEq, Repr

/-- An item of the calibration set: its value and its written-by word (R133). -/
structure CalItem where
  value : Nat
  by_ : Nat
  deriving DecidableEq, Repr

/-! ## A side -/

/-- How far a side has come out of reset (R143): its rail is off or its reset input low; its rail is good and it waits for
its clock; Kindling runs; its Stoker is ready. -/
inductive Run where
  | down | clocking | kindling | ready
  deriving DecidableEq, Repr

/-- A snapshot (R128 step 1): the tick it was taken for (none once that tick deferred it, R130), the commanded and the hardware mask,
the last CFG_MODE_SET that changed the commanded mask, the working copy and the images in use, and the packets whose replies the
commit sends: CFG_MODE_SETs, accepted or not, and CFG_FIELD_WRITEs. -/
structure Snap where
  at_ : Option Nat
  cmd : Nat
  hw : Nat
  last : Option Job
  work : List Rec
  used : Tab Nat
  modes : List (Job × Bool)
  fields : List Job
  deriving DecidableEq, Repr

/-- What the ordering side has decided for the next commit of a side (R132): the commanded mask, and the last packet that changed it. -/
structure ModeNext where
  mask : Nat
  last : Option Job
  deriving DecidableEq, Repr

/-! ## The safety pair (chapter 09) -/

/-- One core of the safety pair at the PAIR unit: the words of the packet under assembly with the held high bits, its
complete packets not yet paired, each with the instant of its completion and the end of the window that it opened (R281), its
reply copies and the latch of their read (R282), its signatures not yet paired with the same two instants and the held high
bits (R283). -/
structure PairCore where
  out : List Nat
  hi : Nat
  done : List (List Nat × Nat × Nat)
  rpl : List Nat
  rplLo : Nat
  sigs : List (Nat × Nat × Nat)
  sigHi : Nat
  deriving DecidableEq, Repr

/-- A core with nothing in its buffers. -/
def PairCore.empty : PairCore := ⟨[], 0, [], [], 0, [], 0⟩

/-! ## Bridges (chapter 10) -/

/-- A bridge transaction (R293, R294, R297): tag, initiator code, the DMA channel that makes it plus 1, world, address, whether 64 bits wide,
the value of a write (none for a read), whether posted, its instant of issue and whether it has been split. -/
structure Txn where
  tag : Nat
  init : Nat
  chan : Nat
  world : Nat
  addr : Nat
  wide : Bool
  data : Option Nat
  posted : Bool
  at_ : Nat
  split : Bool
  deriving DecidableEq, Repr

/-- A bridge instance besides its registers: its outstanding transactions, oldest first, the near queue of those that wait for a reply slot
(R49, R307), the transactions ended whose answer may still come (R295), the polls missed in a row (R306), whether it has marked its
far side ABSENT (R307), and whether that was the reset of the other side, whose return is still to be logged (R56). -/
structure Bridge where
  txns : List Txn
  near : List Txn
  late : Nat
  missed : Nat
  gone : Bool
  unit : Bool
  deriving DecidableEq, Repr

/-- A bridge with nothing under way. -/
def Bridge.init : Bridge := ⟨[], [], 0, 0, false, false⟩

/-- A line lock that a hart asked for (instant of the request) or holds (instant of the grant), with its line address in the far SRAM
window; `released` while it waits for the hart's earlier writes to the line (R302). -/
structure LineLock where
  hart : Nat
  line : Nat
  at_ : Nat
  released : Bool
  deriving DecidableEq, Repr

/-! ## Harts and worlds (chapter 15) -/

/-- A gate frame (R431): world, privilege, V bit and return address of the caller, and the gate it called. -/
structure GateFrame where
  world : Nat
  priv : Nat
  virt : Bool
  ret : Nat
  gate : Nat
  deriving DecidableEq, Repr

/-- A core of a side: application harts 0 to 3, and 4 and 5 for the cores of the safety pair. Out of reset, halted by the Poker, its gate
frames (top first), privilege, V bit, pc, the gate whose GATE.LAND must retire next (R431), the address that a load-reserved holds
reserved (R25), and for each world its bank of CSRs by their numbers in the base architecture, the PMP entries among them (R22, R422). -/
structure Hart where
  run : Bool
  halted : Bool
  step : Bool
  frames : List GateFrame
  priv : Nat
  virt : Bool
  pc : Nat
  landing : Option Nat
  resv : Option Nat
  banks : Tab (Tab Nat)
  deriving DecidableEq, Repr

/-- A hart held in reset. -/
def Hart.held : Hart := ⟨false, false, false, [], 3, false, 0, none, none, []⟩

/-- A word of a signal plane (R52, R53): its producer, the collector cycle in which it becomes visible, its slot, and whether it ends its post. -/
structure PlaneWord where
  prod : Nat
  cycle : Nat
  slot : Nat
  last : Bool
  deriving DecidableEq, Repr

/-- An access to local SRAM that waits for a locked line (R302): who makes it, its address, its size, its kind and the value of a write. -/
structure WaitAcc where
  origin : Origin
  addr : Nat
  size : Nat
  kind : AccKind
  data : Nat
  deriving DecidableEq, Repr

/-! ## Clocks (chapter 14) -/

/-- A running clock: its value in 1/1024 ns at the instant `at_` (in ns of the model's time), its rate as Q20.20 ppb above
nominal, and a difference in 1/1024 ns still to be slewed out at `ppm` (R405, R409, R410). -/
structure Clock where
  base : Nat
  at_ : Nat
  adj : Int
  slew : Int
  ppm : Nat
  deriving DecidableEq, Repr

/-- A clock that starts from zero at instant `at_`. -/
def Clock.start (at_ : Nat) : Clock := ⟨0, at_, 0, 0, 0⟩

/-! ## CAN channels (chapter 13) -/

/-- A frame as a controller sends it: the four header words and the data with its trailer (R374, R389). -/
structure CanTx where
  buf : Nat
  h0 : Nat
  h1 : Nat
  h2 : Nat
  h3 : Nat
  data : List Nat
  sof : Nat
  deriving DecidableEq, Repr

/-- A shadow copy that runs or waits (R379): shadow, direction, region and element, and what the element held when a copy to a shadow
began. -/
structure ShadowJob where
  s : Nat
  dir : Bool
  region : Nat
  index : Nat
  data : List Nat
  deriving DecidableEq, Repr

/-- The Banked behaviour and confirmation match of a channel, set by CAN_WAKE_CFG (R150). -/
structure CanWake where
  frame : Bool
  pattern : Bool
  ident : Nat
  mask : Nat
  ide : Bool
  dlcEn : Bool
  dlc : Nat
  data : Nat
  dataMask : Nat
  filter : Nat                     -- dominant filter, 0.1 us units
  decodes : Bool                   -- the frame decoder knows the channel's nominal bit rate, as the Ember latched the settings
  deriving DecidableEq, Repr

/-- Neither wake method set. -/
def CanWake.none : CanWake := ⟨false, false, 0, 0, false, false, 0, 0, 0, 0, false⟩

/-- A received frame that waits in the staging buffer while its element is copied (R379): its priority buffer, or its queue, and the frame. -/
structure StagedRx where
  prio : Option Nat
  queue : Nat
  h0 : Nat
  h1 : Nat
  h2 : Nat
  h3 : Nat
  data : List Nat
  sof : Nat
  deriving DecidableEq, Repr

/-- What a CAN channel holds besides its registers. -/
structure CanSt where
  taken : Option CanTx             -- the buffer committed to be sent (R381)
  fv : Tab Nat                     -- freshness value of a buffer's frame still to be retried, plus 1 (R389)
  tries : Tab Nat                  -- attempts made, by buffer (R381)
  cancel : Nat                     -- taken buffers cancelled, bit b (R382)
  busOffAt : Option Nat            -- instant of bus-off entry (R387)
  recovering : Bool                -- recovery runs (R387)
  booted : Bool                    -- the first commit has set the mode (R372)
  refAt : Option Nat               -- start of the last basic cycle on its time domain, 1/1024 ns (R383)
  takenSealed : Bool               -- the taken frame was sealed (R389)
  shadows : List ShadowJob         -- R379
  awake : List (Nat × Nat)         -- awake table: identifier with IDE in bit 29, and count, in order (R148)
  wake : CanWake                   -- R150
  guard : List (Nat × Nat)         -- bits of its own that it put on the bus, by attempt, with the start instants (R227)
  lastEvt : Tab Nat                -- instant after which an event code may be posted again (R394)
  retime : Option (Nat × Nat)      -- a commit at this instant has changed its timing: the nominal rate until the next bus idle (R369)
  next : Option CanTx              -- the scheduled buffer, or reference message, taken for its window and not yet on the bus (R381, R385)
  nextSealed : Bool                -- it is sealed
  nextMade : Bool                  -- the take for the coming window has been made, whatever came of it (R381, R389, R390)
  nextAt : Option Nat              -- instant at which its window began, while the bus was busy with another frame of this channel (R385)
  staged : List StagedRx           -- frames in the staging buffer, oldest first (R379)
  deriving DecidableEq, Repr

/-- A channel after its reset. -/
def CanSt.init : CanSt :=
  ⟨none, [], [], 0, none, false, false, none, false, [], [], CanWake.none, [], [], none, none, false, false, none, []⟩

/-! ## Sparks (chapter 08) -/

/-- An action on its way on a spark line (R240, R242): the matcher's rule, its owner world, whether its rule is marked COMPARED,
the action words, and the instant of the fire, and whether its matcher has been reset since (R58). -/
structure SparkAction where
  rule : Nat
  world : Nat
  compared : Bool
  words : List Nat
  seconds : Nat
  nanos : Nat
  orphan : Bool
  deriving DecidableEq, Repr

/-- An answer on its way back to a matcher (R242): its rule and world, the die's status and DETAIL, the channel, and the
instant of the fire. -/
structure SparkReply where
  rule : Nat
  world : Nat
  status : Nat
  detail : Nat
  chan : Nat
  seconds : Nat
  nanos : Nat
  deriving DecidableEq, Repr

/-- A source event as rules compare it (R235, R236): SRC, SRC_INDEX, EDGE, the header keys, the payload, how its verification ended, and its
reference instant, in model time and as the two words of network time (R240). -/
structure Stimulus where
  src : Nat
  index : Nat
  edge : Nat
  key0 : Nat
  key1 : Nat
  payload : List Nat
  verified : Bool
  failed : Bool
  at_ : Nat
  seconds : Nat
  nanos : Nat
  deriving DecidableEq, Repr

/-- A spark matcher besides its registers: the source events that it has not yet taken (R241), the actions on each die's line and those that wait for a credit, the answers on
each line, and for each rule the instant of its last fire (plus 1) and the instants at which its events may be posted again. -/
structure MatcherSt where
  events : List Stimulus
  lines : Tab (List SparkAction)
  waiting : Tab (List SparkAction)
  answers : Tab (List SparkReply)
  lastFire : Tab Nat
  lastEvt : Tab Nat
  marks : Tab Nat                  -- of a rule: bit 0 its last write, bit 1 its last enable carried COMPARED (R246)
  deriving DecidableEq, Repr

/-- A matcher with nothing under way. -/
def MatcherSt.init : MatcherSt := ⟨[], [], [], [], [], [], []⟩

/-- A matcher after a reset: the actions on its lines stand, and what the dies answer to them is discarded (R58, R245). -/
def MatcherSt.afterReset (v : MatcherSt) : MatcherSt :=
  { MatcherSt.init with lines := v.lines.map (fun l => (l.1, l.2.map (fun a => { a with orphan := true }))) }

/-! ## Mirroring (chapter 09) -/

/-- A mirror checkpoint under way: the lines still to be copied, as (region, line address) in order, and the instant index
at which it began (R277). -/
structure Ckpt where
  lines : List (Nat × Nat)
  slot : Nat
  deriving DecidableEq, Repr

/-- What a side holds besides its registers. -/
structure SideSt where
  run : Run                        -- R143
  cores : Bool                     -- application cores and safety pair out of reset (R143 step 8)
  limp : Bool                      -- limp clock (R145)
  resetAt : Nat                    -- instant at which it left reset: zero of its time CSR (R23)
  taking : Bool                    -- its Stoker takes packets (R152 step 1, R153 step 1)
  srcs : Tab Src                   -- doors 0 to 31 and the Stoke port (32)
  takes : Nat                      -- packets taken so far: the number of the next one
  bootTakes : Nat                  -- packets taken before its last reset (R58)
  scan : Nat                       -- the source that the Stoker's round looks at next (R80)
  scanIdle : Bool                  -- after its last take nothing was left to take, so the round may stand anywhere (R80)
  chromirQ : List Job              -- packets waiting for Chromir, in take order (R82)
  longQ : List Job                 -- long operations waiting or running, in take order (R82)
  longReply : Option Reply         -- what the running long operation will answer
  longAt : Nat                     -- instant at which the first long operation of longQ started (R82)
  timedOut : List Nat              -- packets answered TIMEOUT, whose late replies are dropped (R86)
  chromirDown : Bool               -- Chromir restarts or is being updated (R86, R87)
  chromirDownAt : Nat
  chromirTimeouts : List Nat       -- instants of Chromir restarts after a TIMEOUT (R272)
  links : Tab (List Job)           -- fast-path packets on the grate link of die d (R47, R81)
  rpls : Tab (List Reply)          -- replies on the grate link of die d, 32 words at most (R50)
  stokeStatus : Nat                -- STATUS of the next Stoke status word (R104)
  stokeReason : Nat                -- its REASON
  stokeHead : Nat                  -- words left of a packet partly shifted out of the transmit FIFO (R105, R110)
  sdo : List Nat                   -- the words shifted out in the last Stoke transaction (R105)
  ash : Tab LogEntry               -- the ring of 4 096 entries (R485)
  ashRun : List (Nat × Nat)        -- collector cycle and producer of the newest entries, newest first, since the collector was last empty (R52, R53)
  work : List Rec                  -- the working copy of base and overlay records (R127)
  written : List Nat               -- owners of the records that CFG_FIELD_WRITE has written since their image was loaded (R127)
  used : Tab Nat                   -- bank of the slot's image in use: 0 none, else bank + 1 (R124, R125)
  inForce : List Rec               -- the working copy as its last commit put it in force (R128)
  modeReqs : List (Job × Nat)      -- CFG_MODE_SET packets that wait for a snapshot, with their arrival at the ordering engine (R132)
  modeDone : List (Job × Bool)     -- those decided, accepted or not, that wait for this side's snapshot
  modeNext : Option ModeNext       -- R132
  fieldReqs : List Job             -- CFG_FIELD_WRITE packets that wait for a snapshot (R127)
  snap : Option Snap               -- a snapshot prepared and not yet in force
  claimReqs : List (Job × Nat)     -- SIDE_CLAIM and NET_TOKEN_CLAIM packets not yet answered, with the masks of the tokens they wait for (R269)
  tickFails : Nat                  -- consecutive deferred ticks (R130)
  firstCommit : Bool               -- the first commit after reset is done (R128)
  calCrcOk : Bool                  -- its copy's CRC verifies (R135)
  calOld : Tab Nat                 -- values still in use until its next commit of items replaced since the last, plus 1 (R134)
  calIdle : Bool                   -- gain 1.0 and offset 0.0 are in use in its place (R135)
  pair0 : PairCore                 -- R281
  pair1 : PairCore
  pairIndex : Nat                  -- pairings made since the pair's restart (R284)
  pairRestarts : List Nat          -- instants of the last RESTART actions, newest first (R284)
  bridges : Tab Bridge             -- instances 0 to 5 (R291)
  swiOut : Nat                     -- software interrupt lines raised toward the other side (R305)
  lockQ : List LineLock            -- requests for line locks, in order of arrival (R302)
  locks : List LineLock            -- line locks held
  atOp : Tab (List Nat)            -- atomic operation under way of hart h: OP, SIZE, address, operand, compare value, world at GO (R301)
  waits : List WaitAcc             -- accesses that wait for a locked line, in order (R302)
  harts : Tab Hart                 -- application cores 0 to 3; 4 and 5 the cores of the safety pair
  pairHalted : Bool                -- the pair halted by the Poker (R452)
  tapIr : TapInstr                 -- instruction of the debug port's TAP (R450, R452)
  tapCells : List Bool             -- what the update stage of its boundary register holds, in the order of the chain (R452)
  tapOut : List Bool               -- bits that the last scan of a data register shifted out
  pairStep : Nat                   -- cores of the halted pair that still owe the stepped instruction, bit c (R452)
  secEvents : List (Nat × Nat)     -- enabled security events of the last 10 s, newest first: instant and bit (R456)
  kicks : Tab Nat                  -- instant of a world's last kick or start (R438)
  fails : Tab (List Nat)           -- instants of a world's failures (R439)
  verified : Nat                   -- worlds whose image Kindling has verified, bit w (R443)
  measures : Tab (List Nat)        -- measurement of world w, 48 bytes (R445)
  wotLive : List (Nat × Nat × Nat × Nat)  -- dynamic regions in force: r, BASE, PAGES, PERM (R427)
  keyMat : Tab (List Nat)          -- key material of a slot, never readable (R446, R449)
  keyOp : Option (List Nat)        -- running key store operation: OP, SLOT, OWNER, TYPE, USE, ADDR, OUT, BYTES as at GO (R448)
  challenge : Option (List Nat × Nat)  -- debug challenge and its instant of issue (R451)
  unlockEnd : Option Nat           -- end of the debug unlock (R453)
  limpRate : Nat                   -- the rate of the internal oscillator, a free value (R23)
  relock : Bool                    -- a reset or a sleep has ended a debug unlock, and its DEBUG_RELOCK waits for the side's return (R453)
  peerAt : Option Nat              -- instant of the last cross pulse received (R273)
  returnAt : Tab Nat               -- instant since which the conditions of R279 hold for token t, plus 1
  firstCommitAt : Nat              -- instant of the first commit (R261)
  ckpt : Option Ckpt               -- checkpoint under way (R277)
  ckptSlot : Nat                   -- scheduled checkpoint instants so far (R278)
  ckptDone : Tab Nat               -- slot of the last completed checkpoint that began, plus 1, by region
  ckptFull : Bool                  -- the next checkpoint copies every line (R277)
  ckptTicks : Nat                  -- commit ticks since the last scheduled checkpoint
  dirty : List Nat                 -- dirty line addresses of the outgoing regions, rising (R277)
  mirLast : Option (Nat × Nat)     -- region and address of the last line received (R278)
  peerOk : Bool                    -- the last cross pulse carried healthy bit 1 (R273)
  peerLost : Bool                  -- the peer is judged LOST (R273)
  crossLost : Bool                 -- a CROSS_LOST episode runs (R274)
  returned : Bool                  -- a token was returned home since the last commit tick (R279)
  clocks : Tab Clock               -- its follower's domains 0 and 1 (R410)
  lastMsg : Option Nat             -- instant of the last time link message (R410)
  tciAt : Tab Nat                  -- instant of the last edge stamped at input n, plus 1 (R415)
  tpoNext : Tab Nat                -- next edge of output n on its domain, ns, plus 1 (R414)
  tpoLevel : Nat                   -- outputs at their active level, bit n
  tpoNew : Tab (List Nat)          -- settings P1 to P5 of output n that wait for its pulse to end (R414)
  tickAt : Nat                     -- instant of the last commit tick, plus 1
  tickMin : Nat                    -- earliest instant of the next one (R413)
  tallyFrom : Nat                  -- time on the tick domain, 1/1024 ns, after which the next boundary lies (R463)
  tallyShort : Bool                -- the rule of the boundaries has changed in this period (R463, R467)
  tallyHeld : Option (Nat × List Nat)  -- a bank, its address and its slots, whose write waits for a locked line (R302)
  tallyStepped : Bool              -- a follower step in this period (R467)
  tallyMissed : Tab Nat            -- periods a producer has missed since its last record (R465)
  lifeRx : List (Nat × Nat)        -- receive buffers that hold frames, in order, with length (R324)
  lifeNext : Nat                   -- next receive buffer in ring order
  lifeTx : List (Nat × Nat)        -- transmit buffers queued, in order, with length
  lifeSent : List Nat              -- the last frame sent, padded and with its FCS (R324)
  lifeGuard : Nat × Nat            -- guardian's bucket and its instant (R226)
  hvil : List Nat                  -- samples of the loop current in the averaging window that runs (R327)
  hvilFrom : Nat                   -- instant at which that window began
  cans : Tab CanSt                 -- local channels 0 to 5
  spark : MatcherSt                -- its spark matcher
  ainState : Tab Nat               -- 0 between, 1 below LO, 2 above HI, by input (R501)
  ainTick : Nat                    -- index of the last sample tick of the INPUTS unit (R500)
  gapRun : Nat                     -- dies in a run of missing sample ticks, bit d (R54)
  plane : List PlaneWord           -- words in the signal plane's collector or on their way to it, each on a credit of its producer (R52)
  planeWait : Tab (List (Nat × Bool))  -- slots of producer p that wait for a credit, and whether each ends its post (R48)
  dmaPos : Tab Nat                 -- position of channel n in its ring buffer (R62)
  dmaData : Tab Nat                -- value that a copy of channel n has read and not yet written, plus 1 (R297)
  dmaQueue : Tab (List (Nat × Nat)) -- writes of a stream of channel n that wait: size and value, in order (R48, R50)
  flushArea : Nat                  -- the flush area that is erased, 0 or 1 (R154)
  wrecNext : Nat                   -- the slot of the oldest of the 64 wake records in its NOR (R156)
  netifHeld : Bool                 -- its frame interface waits at a locked line to go on sending (R302, R330)
  wrecSlot : Option Nat            -- the slot into which it has copied the running wake record (R156)
  deriving DecidableEq, Repr

/-! ## A grate channel and a grate die (chapters 06 and 07) -/

/-- A turn-on as judged: PWM or static, its slew, and the PWM values it sets (R167, R177, R192). -/
structure TurnOn where
  pwm : Bool
  slew : Nat
  duty : Nat
  freq : Nat
  comp : Nat
  phase : Nat
  deriving DecidableEq, Repr

/-- Why a turn-on is judged: a command, a retry attempt, or the return of the feed (R196). -/
inductive OnCause where
  | command | retry | feedReturn
  deriving DecidableEq, Repr

/-- A turn-on held by the Damper (R217): the packet that waits for its final reply (none for an autonomous one), its
cause, the turn-on, the instants at which the hold began and ends, and the budgets against which it is held (bit b − 1). -/
structure Hold where
  job : Option Job
  cause : OnCause
  on : TurnOn
  since : Nat
  until_ : Nat
  against : Nat
  deriving DecidableEq, Repr

/-- A CH_MEASURE window in progress (R195): its packet and the samples taken so far, newest first, as triples of
current, voltage and junction temperature. -/
structure Measure where
  job : Job
  window : Nat
  taken : List (Nat × Int × Int × Int) -- tick index, current, voltage and junction temperature of each sample, newest first
  energy : Nat                         -- MEAS_E as at its latest tick
  theta : Nat                          -- the wire temperature rise as at its latest tick
  deriving DecidableEq, Repr

/-- One harness slot of a channel (R202, R203): not yet burned, burned with eight words, burned with words that failed the latest power-up
check, or void by its readback. -/
inductive OtpSlot where
  | unused
  | burned (ws : List Nat)
  | failed (ws : List Nat)
  | void
  deriving DecidableEq, Repr

/-- What a channel holds besides its registers. -/
structure Chan where
  slew : Nat                       -- slew of the running or last turn-on, 0.01 V/us (R167)
  offSlew : Nat                    -- slew of the last turn-off, 0.01 V/us (R167)
  onAt : Nat                       -- instant at which the turn-on began (R168)
  complete : Bool                  -- the static turn-on has completed (R168)
  okSince : Option Nat             -- in ON or PWM without a fault since (R175)
  offSince : Nat                   -- in OFF since (R185)
  quietSince : Nat                 -- in OFF, RETRY_WAIT or LATCHED since (R185)
  offAt : Nat                      -- instant of the last protective turn-off (R174)
  retries : Nat                    -- retry attempts used, in full (R174)
  retryAt : Nat                    -- instant of the next attempt (R174)
  hold : Option Hold               -- R217
  present : Nat                    -- diagnostic conditions present, bit code − 1 (R163)
  runs : Tab Nat                   -- qualifying samples in a row, by fault code (R185)
  lastEvt : Tab Nat                -- instant after which an event code may be posted again (R197)
  turnOns : List Nat               -- instants of the last turn-ons, newest first (R207)
  samples : List Int               -- the current samples of the running 100 us step, newest first (R209)
  iMean : Nat                      -- mean of |I| over the latest step, Q20.20 (R214)
  acc : Nat                        -- sub-mJ remainder of the energy count (R190)
  selfFails : Nat                  -- self-checks failed in a row (R185)
  selfPasses : Nat                 -- self-checks passed in a row (R176)
  pwmWait : Bool                   -- a static turn-on that becomes PWM at the next period start (R192)
  pwmOn : Bool                     -- the output is in its on-phase (R178)
  pwmAt : Nat                      -- start of the rising edge of the running on-phase (R178), 0 where the output was fully on before
  pwmEnd : Nat                     -- its end
  pwmOff : Option Nat              -- instant of the off-edge of the running period (R178)
  measures : List Measure          -- R195
  otp0 : OtpSlot                   -- R202
  otp1 : OtpSlot
  gatePending : Bool               -- a feed-return turn-on is due (R182)
  faultReg : Nat                   -- the fault that caused the present off state (R163)
  deriving DecidableEq, Repr

/-- A channel as it is at power-up (R166), with both harness slots unused. -/
def Chan.init : Chan :=
  ⟨50, 500, 0, false, none, 0, 0, 0, 0, 0, none, 0, [], [], [], [], 0, 0, 0, 0, false, false, 0, 0, none, [], .unused, .unused, false, 0⟩

/-- A CH_GROUP_SET that waits for held channels (R93): its packet and its four masks. -/
structure Group where
  job : Job
  applied : Nat
  held : Nat
  refused : Nat
  denied : Nat
  deriving DecidableEq, Repr

/-- What a grate die holds besides its registers. -/
structure DieSt where
  powered : Bool                   -- its logic rail is on
  allow : Tab Nat                  -- its allowance on each budget b for non-P0 claims (R216)
  sentC0 : Tab Nat                 -- C0 it last sent on each budget (R216)
  sentCn : Tab Nat                 -- Cn it last sent on each budget
  known : Tab Nat                  -- its last allowance on each budget, as the other dies know it (R216)
  out : Tab (List Reply)           -- replies inside it, to Side A (0) or B (1), for which the link has no credit (R50)
  groups : List Group              -- CH_GROUP_SET packets that wait for held channels
  hbA : Option Nat                 -- instant of the last heartbeat of Side A (R258)
  hbB : Option Nat                 -- of Side B
  windowEnd : Nat                  -- close of the handover window (R267)
  oldHolder : Option Side          -- holder before the last token change (R267)
  claimAt : Nat                    -- instant at which the pending claim was recorded (R263)
  orderly : Bool                   -- the pending claim is an orderly handover or follows a release (no window)
  masterNew : Bool                 -- no command of the new holder has been accepted yet (R221)
  committed : Nat                  -- the active mask its token holder last committed to it (R204)
  pwmBase : Nat                    -- instant of the die's last reset: zero of its PWM timebase (R177)
  lastMarker : Option Nat          -- instant of the last tick marker (R187)
  sampleAt : Nat                   -- instant of its next sample tick, 0 before the first (R187, R413)
  present : Bool                   -- the die takes part in the budget bus
  ride : Bool                      -- RIDE is asserted on its feed by this die (R225)
  p0New : Bool                     -- a P0 turn-on was admitted since the last exchange (R217)
  nextAuto : Nat                   -- earliest instant of the next feed-return turn-on (R182)
  lastEvt : Tab Nat                -- instant after which a die event code may be posted again (R228)
  cal : Tab Nat                    -- calibration items delivered to it at a commit, value plus 1 (R134)
  owed : Tab (List (List Nat))     -- statistics latched and not yet in a record of Side A (0) or B (1): values of each channel (R464, R465)
  backAt : Option Nat              -- instant at which its token holder's heartbeat came back after more than LOSS (R262)
  feedGone : Bool                  -- its feed bus is absent, whether or not it runs (R182, R216)
  deriving DecidableEq, Repr

/-- A die before its first power-up: no heartbeat has been seen and it holds no allowance. -/
def DieSt.init : DieSt :=
  ⟨false, [], [], [], [], [], [], none, none, 0, none, 0, false, false, 0, 0, none, 0, true, false, false, 0, [], [], [], none, false⟩

/-- What the Damper holds of the module as a whole. Every die computes the same from the same data (R216), so this is one copy for all dies
that take part in the budget bus. -/
structure DamperSt where
  overSince : Tab Nat              -- instant since which a budget has been exceeded at every exchange, plus 1 (R223)
  p0Since : Tab Nat                -- the same for C0 above Rsv
  overStop : Nat                   -- budgets under BUDGET_OVER, bit b − 1 (R223)
  p0Stop : Nat                     -- budgets under P0_OVER, bit b − 1 (R223)
  derate : Bool                    -- the DERATE condition holds (R224)
  derateSince : Option Nat         -- instant since which the total has exceeded its bound (R224)
  derateOkSince : Option Nat       -- instant since which both end conditions have held (R224)
  gap : Bool                       -- a run of exchanges with a message missing or without G0 as the pacing die (R216, R229)
  deriving DecidableEq, Repr

/-- The Damper at power-up of the dies. -/
def DamperSt.init : DamperSt := ⟨[], [], 0, 0, false, none, none, false⟩

/-! ## The Flue die (chapters 11, 12, 14) -/

/-- An entry of the forwarding database (R335, R337): its place (way 0, way 1, or 2 for the overflow CAM) and bucket, MAC
address, VID, port mask, whether static, and the instant of its last refresh. -/
structure FdbEntry where
  place : Nat
  bucket : Nat
  mac : Nat
  vid : Nat
  ports : Nat
  stat : Bool
  at_ : Nat
  deriving DecidableEq, Repr

/-- A copy of a frame in an egress queue: the frame whose cells it shares, its bytes without FCS and without outer tag, its VID,
PCP, DEI, colour (0 green, 1 yellow, 2 red), and whether it is a mirror copy. -/
structure QFrame where
  id : Nat
  bytes : List Nat
  vid : Nat
  pcp : Nat
  dei : Bool
  colour : Nat
  mirror : Bool
  deriving DecidableEq, Repr

/-- The cells of a frame in the buffer: its ingress port, the cells it took from the reserve and from the shared pool, and the
copies that still hold it (R342), and the mirror sessions that have a copy of it (R352). -/
structure Cells where
  id : Nat
  port : Nat
  own : Nat
  shared : Nat
  refs : Nat
  mir : Nat
  deriving DecidableEq, Repr

/-- A frame in reception at a port (R342): the cells that it has drawn from the reserve and from the shared pool, and the counter of the refusal
that has lost it, 0 while none has. -/
structure Arriving where
  own : Nat
  shared : Nat
  lost : Nat
  deriving DecidableEq, Repr

/-- A two-rate meter (R341): buckets in Q24.16 bytes and the instant of its last arrival. -/
structure Meter where
  tc : Nat
  tp : Nat
  at_ : Nat
  deriving DecidableEq, Repr

/-- A recovery stream's history (R351): whether the next frame is the first after a reset, the frames seen of the history
(bit i: the number i below the newest), how many numbers of it lie at or after the first one accepted, and the instant of the last frame
passed. -/
structure Frer where
  fresh : Bool
  seen : Nat
  span : Nat
  at_ : Nat
  deriving DecidableEq, Repr

/-- A port's time-aware gate (R350): the list in force, its cycle time, base (1/1024 ns), time domain and the start of the running cycle, and
whether the domain has stepped since, so that the entry in force holds. -/
structure Tas where
  list : Nat
  cycle : Nat
  base : Nat
  dom : Nat
  start : Nat
  held : Bool
  deriving DecidableEq, Repr

/-- A Sync as it left a port (R403): whether one-step, its originTimestamp in ns, its correctionField in 2^-16 ns (of a two-step Sync those of its
Follow_Up), and the bytes of the Sync and of the Follow_Up behind MACsec. -/
structure SyncOut where
  port : Nat
  oneStep : Bool
  origin : Nat
  corr : Int
  sync : List Nat
  followUp : Option (List Nat)
  deriving DecidableEq, Repr

/-- A time domain at Bellows besides its registers: its clock, offsets since ACQUIRE was entered, consecutive offsets within
the lock threshold, the first offset of the agreeing run, the instant of the last Sync, and for the relay the last
Sync's arrival on the domain's scale, origin, correction in 2^-16 ns and whether it came one-step (R403, R406, R408); whether a step still has to reach
Side A and Side B (R409), and the last Sync sent (R403) with the sequence number of the next. -/
structure Domain where
  clock : Clock
  since : Nat
  good : Nat
  first : Int
  syncAt : Option Nat
  rxPin : Int
  origin : Int
  corr : Int
  oneStep : Bool
  stepA : Bool
  stepB : Bool
  sent : Option SyncOut
  seq : Nat
  deriving DecidableEq, Repr

/-- A domain after a reset of the Flue die: free-running from 0. -/
def Domain.init (at_ : Nat) : Domain := ⟨Clock.start at_, 0, 0, 0, none, 0, 0, 0, true, false, false, none, 0⟩

/-- What the Flue die holds besides its registers. -/
structure FlueSt where
  powered : Bool                   -- its rail group is on
  refPresent : Bool                -- its reference clock is present (R146, R505)
  reset_ : Bool                    -- held in reset, in update or waiting for its reference
  extRef : Bool                    -- FLUE_REF_EXT as it sampled it (R502)
  osc : Option Side                -- the side whose oscillator it took when it left reset, none for the external reference (R18)
  ringSpeed : Nat                  -- SPEED of the ring ports as of the last opening of the bypass (R322)
  miss : Bool                      -- its driver missed three keep-alives since its last reset (R314)
  fdb : List FdbEntry              -- R335
  seed0 : Nat                      -- hash seeds (R336)
  seed1 : Nat
  queues : Tab (List QFrame)       -- queue t of egress port p at 8p + t (R345)
  cells : List Cells               -- frames that hold cells
  arriving : Tab Arriving          -- the frame in reception at port p (R342, R343)
  nextId : Nat
  avg : Tab Nat                    -- WRED average of a queue, Q15.9 (R346)
  lfsr : Nat                       -- R346
  meters : Tab Meter               -- by stream filter (R341)
  frer : Tab Frer                  -- by stream (R351)
  guard : Tab (Nat × Nat)          -- guardian of port p: bucket in bytes and its instant (R226)
  txUntil : Tab Nat                -- end of the transmission of port p
  txQueue : Tab Nat                -- queue t that port p is transmitting, plus 1 (R348)
  txFrame : Tab (List Nat)         -- the last frame that port p sent, as it left: tagged, protected, with its FCS (R334, R353)
  tas : Tab Tas                    -- gate of port p while a list runs (R350)
  sci : Tab Nat                    -- SCI of an SC: port p, direction d, channel c at 4p + 2d + c (R354)
  ssci : Tab Nat                   -- SSCI of an SA, as its registers are numbered
  saKey : Tab (List Nat)           -- key of an SA, never readable (R353)
  sleepAt : Tab Nat                -- instant of port p's own TC10 sleep request, plus 1 (R358)
  pulses : Nat                     -- ports on which it has sent a TC10 wake-up pulse since its reset, bit p (R151, R358)
  dom0 : Domain
  dom1 : Domain
  pdelayLost : Tab Nat             -- peer delay requests in a row without a response, by port (R397)
  committed : Bool                 -- its first configuration is in force (R314 NO_CONFIG)
  selftested : Nat                 -- ring PHYs that have passed their self-test, bit p (R317)
  evtLine : Bool                   -- network event held for the next poll of Side A, and of Side B (R304)
  evtLineB : Bool
  blwLine : Bool                   -- Bellows event held for the next poll
  blwLineB : Bool
  spark : MatcherSt                -- its spark matcher
  portOwed : Tab (List (List Nat)) -- statistics latched and not yet in a record of Side A (0) or B (1): values of each port (R464, R465)
  deriving DecidableEq, Repr

/-- The Flue die before power-up. -/
def FlueSt.init : FlueSt :=
  { powered := false, refPresent := true, reset_ := true, extRef := false, osc := none, ringSpeed := 0, miss := false, fdb := [], seed0 := 0, seed1 := 0,
    queues := [], cells := [], arriving := [], nextId := 0, avg := [], lfsr := 0, meters := [], frer := [], guard := [], txUntil := [],
    txQueue := [], txFrame := [], tas := [], sci := [], ssci := [], saKey := [], sleepAt := [], pulses := 0, dom0 := Domain.init 0, dom1 := Domain.init 0, pdelayLost := [],
    committed := false, selftested := 0, evtLine := false, evtLineB := false, blwLine := false, blwLineB := false,
    spark := MatcherSt.init, portOwed := [] }

/-! ## The Ember die (chapter 05) -/

/-- Where the module stands (R137, R139, R143, R152): the Ember unpowered, Cold hearth, Banked, the wake sequence, up (Glowing or
Lit, as EMBER_STATE.STATE says), or the sleep sequence with its next step. -/
inductive Phase where
  | off | cold | banked | waking | up | sleeping (step : Nat)
  deriving DecidableEq, Repr

/-- A regulator group (R143, R144): enabled, power-good, attempts failed, given up, the instant W from which its attempts
count, and the instant of its power-good. -/
structure GroupSt where
  on : Bool
  good : Bool
  tries : Nat
  failed : Bool
  base : Nat
  goodAt : Nat
  deriving DecidableEq, Repr

/-- A group that is switched off. -/
def GroupSt.off : GroupSt := ⟨false, false, 0, false, 0, 0⟩

/-- What the Ember holds besides its registers. -/
structure EmberSt where
  phase : Phase
  ga : GroupSt
  gb : GroupSt
  gs : GroupSt
  wakeAt : Nat                     -- instant W of the last wake (R143)
  bankedAt : Nat                   -- instant of entry to Banked
  ignore : Bool                    -- wake events are ignored after a failed wake (R144)
  onlyFeed : Bool                  -- entered by the loss of both feeds: FEED_RETURN is armed (R155)
  canWake : Tab CanWake            -- latched CAN wake settings, by channel (R150)
  pend : Option (Nat × Nat)        -- pending SYS_STATE_SET: target, end of its delay (R140)
  target : Nat                     -- target of the running wake or sleep sequence
  confirm : Option Nat             -- end of the confirmation window (R147)
  secLatch : Bool                  -- R456
  lowFeed : Bool                   -- EMBER_LOW_FEED asserted for FEED_A (R225)
  lowFeedB : Bool
  resetCause : Tab Nat             -- reset cause handed to side x as it leaves reset (R503)
  stateAt : Nat                    -- instant of the last change of the power state (R89)
  fwd : Bool                       -- the Flue die still owes the wake-up pulses of TC10_FWD (R151)
  railsOff : Nat                   -- instant at which the groups were last switched off (R152)
  rstLow : Nat                     -- pins SIDE_A_RST_N (bit 0) and SIDE_B_RST_N (bit 1) that are low (R141)
  straps : Nat                     -- straps as last sampled: bit 1 FLUE_REF_EXT, 2 STRAP_TEST (R502)
  listen : Bool                    -- the CAN channel that woke the module has had no CAN_MODE_SET since (R372)
  deriving DecidableEq, Repr

/-- The Ember without power. -/
def EmberSt.init : EmberSt :=
  { phase := .off, ga := GroupSt.off, gb := GroupSt.off, gs := GroupSt.off, wakeAt := 0, bankedAt := 0,
    ignore := false, onlyFeed := false, canWake := [], pend := none, target := 3, confirm := none,
    secLatch := false, lowFeed := false, lowFeedB := false,
    resetCause := [], stateAt := 0, fwd := false, railsOff := 0, rstLow := 0, straps := 0, listen := false }

/-! ## The state -/

/-- What the last register access answered its initiator: nothing, a value, or a bus error with its cause (R12, R483). -/
inductive Resp where
  | idle
  | data (v : Nat)
  | error (cause : Nat)
  deriving DecidableEq, Repr

/-- Why the block stops. -/
inductive Fault where
  /-- Raised by a stimulus beyond the absolute maximum ratings of R488, where no behaviour is specified. Safe: the block stops. -/
  | outsideRatings
  deriving DecidableEq, Repr

/-- Why a command has no meaning here. -/
inductive Refusal where
  /-- Raised by a command of the table that the model does not give a meaning. Safe: the block stops. -/
  | notModelled (mnemonic : String)
  deriving DecidableEq, Repr

/-- The state of the block. -/
structure State where
  now : Nat                        -- time in ns since the model's start
  pending : List Instr             -- commands that wait, first in, first out
  free : Nat                       -- the model's own: number of free values taken so far
  resp : Resp                      -- answer to the last register access
  regs : List (FKey × Nat)         -- every field of every register, by its key
  mem : List Host.Cell             -- bytes, at side * 2^40 + physical address
  ember : EmberSt
  sa : SideSt
  sb : SideSt
  flue : FlueSt
  dies : Tab DieSt                 -- grate dies 0 to 3; at 4 the net token's logic on the Flue die (R271)
  chans : Tab Chan                 -- channels 0 to 63
  damper : DamperSt                -- the Damper's view of the module (R216)
  absent : List UnitId             -- units marked ABSENT at their boundaries (R56)
  deriving DecidableEq, Repr

/-- A side before power-up. -/
def SideSt.init : SideSt :=
  { run := .down, cores := false, limp := false, resetAt := 0, taking := false, srcs := [], takes := 0, bootTakes := 0, scan := 0, scanIdle := true, chromirQ := [], longQ := [],
    longReply := none, longAt := 0, timedOut := [], chromirDown := false, chromirDownAt := 0, chromirTimeouts := [], links := [], rpls := [],
    stokeStatus := 0, stokeReason := 0, stokeHead := 0, sdo := [], ash := [], ashRun := [], work := [], written := [], used := [], inForce := [],
    modeReqs := [], modeDone := [], modeNext := none, fieldReqs := [], snap := none, claimReqs := [], tickFails := 0, firstCommit := false, calCrcOk := true, calOld := [], calIdle := false,
    pair0 := PairCore.empty, pair1 := PairCore.empty, pairIndex := 0, pairRestarts := [],
    bridges := [], swiOut := 0, lockQ := [], locks := [], atOp := [], waits := [], harts := [], pairHalted := false, tapIr := .bypass, tapCells := [], tapOut := [], pairStep := 0, secEvents := [], kicks := [], fails := [],
    verified := 0, measures := [], wotLive := [], keyMat := [], keyOp := none, challenge := none, unlockEnd := none, limpRate := 0, relock := false,
    peerAt := none, returnAt := [], firstCommitAt := 0, ckpt := none, ckptSlot := 0,
    ckptDone := [], ckptFull := false, ckptTicks := 0, dirty := [], mirLast := none, peerOk := false, peerLost := false, crossLost := false, returned := false, clocks := [], lastMsg := none,
    tciAt := [], tpoNext := [], tpoLevel := 0, tpoNew := [], tickAt := 0, tickMin := 0, tallyFrom := 0, tallyShort := false, tallyHeld := none, tallyStepped := false, tallyMissed := [],
    lifeRx := [], lifeNext := 0, lifeTx := [], lifeSent := [], lifeGuard := (0, 0), hvil := [], hvilFrom := 0, cans := [], spark := MatcherSt.init,
    ainState := [], ainTick := 0, gapRun := 0, plane := [], planeWait := [], dmaPos := [], dmaData := [], dmaQueue := [], flushArea := 0, wrecNext := 0, netifHeld := false, wrecSlot := none }

/-- Every unit with a boundary. -/
def allUnits : List UnitId :=
  [.grate 0, .grate 1, .grate 2, .grate 3, .flue, .can .a 0, .can .a 1, .can .a 2, .can .a 3, .can .a 4, .can .a 5, .can .b 0,
   .can .b 1, .can .b 2, .can .b 3, .can .b 4, .can .b 5, .dma .a, .dma .b, .life .a, .life .b]

/-- The module as it stands before its first power-on: nothing powered, no unit present, every register at its Reset column, memory with
nothing listed, no command waiting. -/
def State.reset : State :=
  { now := 0, pending := [], free := 0, resp := .idle, regs := [], mem := [], ember := EmberSt.init, sa := SideSt.init,
    sb := SideSt.init, flue := FlueSt.init, dies := [], chans := [], damper := DamperSt.init, absent := allUnits }

end Sys2Proof.Machine
end

