-- ==== Sys2Proof/Machine/Ops.lean ====
section
/-! DEFINITION. The named operations over the state: register fields, memory, sides, dies and channels, time, interrupts, the
Ash pan, replies and events. -/
namespace Sys2Proof.Machine
open Sys2Proof

/-! ## Register fields -/

/-- The value of field `f` at index `i` of holder `h`; a field that nothing has written reads as its Reset column. -/
def State.get (s : State) (h : Holder) (f : Fld) (i : Nat) : Nat := Tab.get FKey.rst s.regs (f.key h i)

/-- The state with `v`, cut to the field's width, in field `f` at index `i` of holder `h`. -/
def State.set (s : State) (h : Holder) (f : Fld) (i v : Nat) : State :=
  { s with regs := Tab.set FKey.rst FKey.code s.regs (f.key h i) (v % 2 ^ f.width) }

/-- Whether a field is not zero. -/
def State.is (s : State) (h : Holder) (f : Fld) (i : Nat) : Bool := s.get h f i != 0

/-- A counter counts `n` (it wraps at its width, R63). -/
def State.add (s : State) (h : Holder) (f : Fld) (i n : Nat) : State := s.set h f i (s.get h f i + n)

/-- A counter counts one. -/
def State.inc (s : State) (h : Holder) (f : Fld) (i : Nat) : State := s.add h f i 1

/-- Bit `b` of a field set. -/
def State.setBit (s : State) (h : Holder) (f : Fld) (i b : Nat) : State := s.set h f i (Machine.setBit (s.get h f i) b)

/-- Bit `b` of a field cleared. -/
def State.clearBit (s : State) (h : Holder) (f : Fld) (i b : Nat) : State :=
  s.set h f i (Machine.clearBit (s.get h f i) b)

/-- The field back at its Reset column. -/
def State.toReset (s : State) (h : Holder) (f : Fld) (i : Nat) : State := s.set h f i (f.rst.at h i)

/-- A list of updates, one after the other. -/
def State.each {α : Type} (s : State) (l : List α) (f : State → α → State) : State := l.foldl f s

/-! ## Tables without a default of their own -/

/-- The entry of a table at `k`, `d` when it lists none. -/
def Tab.at {α : Type} (d : α) (t : Tab α) (k : Nat) : α := Tab.get (fun _ => d) t k

/-- The table with `v` at `k`; writing `d` removes the entry. -/
def Tab.put {α : Type} [DecidableEq α] (d : α) (t : Tab α) (k : Nat) (v : α) : Tab α := Tab.set (fun _ => d) id t k v

/-! ## Sides, dies, channels -/

/-- What side `x` holds besides its registers. -/
def State.side (s : State) : Side → SideSt
  | .a => s.sa
  | .b => s.sb

/-- The state with `d` on side `x`. -/
def State.setSide (s : State) (x : Side) (d : SideSt) : State :=
  match x with
  | .a => { s with sa := d }
  | .b => { s with sb := d }

/-- Grate die `d`. -/
def State.die (s : State) (d : Nat) : DieSt := Tab.at DieSt.init s.dies d

/-- The state with `v` on grate die `d`. -/
def State.setDie (s : State) (d : Nat) (v : DieSt) : State := { s with dies := Tab.put DieSt.init s.dies d v }

/-- Channel CH(c). -/
def State.chan (s : State) (c : Nat) : Chan := Tab.at Chan.init s.chans c

/-- The state with `v` in channel `c`. -/
def State.setChan (s : State) (c : Nat) (v : Chan) : State := { s with chans := Tab.put Chan.init s.chans c v }

/-- Source `i` of side `x` (0 to 31 a door, 32 the Stoke port). -/
def State.src (s : State) (x : Side) (i : Nat) : Src := Tab.at Src.empty (s.side x).srcs i

/-- The state with `v` in source `i` of side `x`. -/
def State.setSrc (s : State) (x : Side) (i : Nat) (v : Src) : State :=
  s.setSide x { s.side x with srcs := Tab.put Src.empty (s.side x).srcs i v }

/-- Local CAN channel `k` of side `x`. -/
def State.can (s : State) (x : Side) (k : Nat) : CanSt := Tab.at CanSt.init (s.side x).cans k

/-- The state with `v` in local CAN channel `k` of side `x`. -/
def State.setCan (s : State) (x : Side) (k : Nat) (v : CanSt) : State :=
  s.setSide x { s.side x with cans := Tab.put CanSt.init (s.side x).cans k v }

/-- Hart `h` of side `x`. -/
def State.hart (s : State) (x : Side) (h : Nat) : Hart := Tab.at Hart.held (s.side x).harts h

/-- The state with `v` in hart `h` of side `x`. -/
def State.setHart (s : State) (x : Side) (h : Nat) (v : Hart) : State :=
  s.setSide x { s.side x with harts := Tab.put Hart.held (s.side x).harts h v }

/-- Bridge instance `i` of side `x`. -/
def State.bridge (s : State) (x : Side) (i : Nat) : Bridge := Tab.at Bridge.init (s.side x).bridges i

/-- The state with `v` in bridge instance `i` of side `x`. -/
def State.setBridge (s : State) (x : Side) (i : Nat) (v : Bridge) : State :=
  s.setSide x { s.side x with bridges := Tab.put Bridge.init (s.side x).bridges i v }

/-- Side A or B by number. -/
def sideOf (n : Nat) : Side := if n = 0 then .a else .b

/-- Side `x` has been wiped of nothing and its Stoker is ready (R143 step 6). -/
def State.up (s : State) (x : Side) : Bool := (s.side x).run == .ready

/-- The fabric of side `x` is out of reset: Kindling runs or its Stoker is ready (R143 step 5). -/
def State.fabric (s : State) (x : Side) : Bool := (s.side x).run == .kindling || (s.side x).run == .ready

/-- Unit `u` is PRESENT at its boundary (R56). -/
def State.present (s : State) (u : UnitId) : Bool := !s.absent.contains u

/-- Grate die `d` as a unit. -/
def dieUnit (d : Nat) : UnitId := .grate (Fin.ofNat 4 d)

/-! ## Free values -/

/-- The link of side `x` to a die is down: the last poll of its instance was missed (R306). -/
def State.linkDown (s : State) (x : Side) (i : Nat) : Bool := (s.bridge x i).missed != 0

/-- The next value that the spec leaves open, in `w` bits. -/
def State.freeVal (s : State) (w : Nat) : Nat := (Config.freeValue s.free).toNat % 2 ^ w

/-- One free value taken. -/
def State.took (s : State) : State := { s with free := s.free + 1 }

/-! ## Memory (R31) -/

/-! The NOR flash as delivered (15 R441). The manual gives the contents of its first partitions places and sizes and no form: that a bank pointer
is a byte, a calibration item eight bytes and a seal record three words is a DESIGN CHOICE (log entry 111). -/

/-- The slot (TARGET) whose bank pointer is byte `i` of the pointer partition: the mantel image, overlays 0 to 11, Chromir, worlds 0 to 7. -/
def pointerSlot (i : Nat) : Option Nat :=
  if i = 0 then some 0
  else if i < 13 then some (0x100 + (i - 1))
  else if i = 13 then some 0x200
  else if i < 22 then some (0x300 + (i - 14))
  else none

/-- Byte `i` of the calibration set as delivered: item t at 8t, its value in five bytes and its written-by in two (0, the factory). -/
def factoryCal (i : Nat) : Nat :=
  if i < 0x1D2 * 8 then (if i % 8 < 5 then (Config.calFactory (i / 8)).toNat / 256 ^ (i % 8) % 256 else 0) else 0xFF

/-- Length of the calibration set without its CRC-32. -/
def calLen : Nat := 0xFFC

/-- The calibration set as delivered, with its CRC. -/
def factoryCalByte (i : Nat) : Nat :=
  if i < calLen then factoryCal i else crc32 ((List.range calLen).map factoryCal) / 256 ^ (i - calLen) % 256

/-- What byte `q` of the NOR flash of side `x` (0, 1) reads as delivered: bank pointers, the calibration set in its first bank, no seal record. -/
def norDefault (x q : Nat) : Byte :=
  if q < 0x10000 then (match pointerSlot q with
    | some t => BitVec.ofNat 8 (Config.norPointer x t)
    | none => 0)
  else if q < 0x30000 then BitVec.ofNat 8 (if q < 0x10000 + calLen + 4 then factoryCalByte (q - 0x10000) else 0xFF)
  else if 0x60000 ≤ q ∧ q < 0x70000 then 0
  else Config.norByte x (0x80000000 + q)

/-- What a byte that nothing has written reads as: the Kindling ROM, the NOR flash as delivered, else zero. `a` is the
side's number * 2^40 + the physical address. -/
def memDefault (a : Nat) : Byte :=
  let p := a % 2 ^ 40
  if p < 0x20000 then Config.romByte p
  else if 0x80000000 ≤ p ∧ p < 0x88000000 then norDefault (a / 2 ^ 40) (p - 0x80000000) else 0

/-- The key of physical address `a` of side `x`. -/
def memKey (x : Side) (a : Nat) : Nat := x.num * 2 ^ 40 + a % 2 ^ 40

/-- The byte at physical address `a` of side `x`. -/
def State.byte (s : State) (x : Side) (a : Nat) : Byte := Tab.get memDefault s.mem (memKey x a)

/-- The state with byte `v` at physical address `a` of side `x`. -/
def State.setByte (s : State) (x : Side) (a : Nat) (v : Byte) : State :=
  { s with mem := Tab.set memDefault id s.mem (memKey x a) v }

/-- `n` bytes from physical address `a` of side `x`. -/
def State.load (s : State) (x : Side) (a n : Nat) : List Nat := (List.range n).map (fun i => (s.byte x (a + i)).toNat)

/-- The bytes `l` from physical address `a` of side `x`. -/
def State.store (s : State) (x : Side) (a : Nat) : List Nat → State
  | [] => s
  | b :: l => (s.setByte x a (BitVec.ofNat 8 b)).store x (a + 1) l

/-- The `n`-byte little-endian number at physical address `a` of side `x`. -/
def State.loadLE (s : State) (x : Side) (a n : Nat) : Nat := leNat (s.load x a n)

/-- The `n` little-endian bytes of `v` at physical address `a` of side `x`. -/
def State.storeLE (s : State) (x : Side) (a n v : Nat) : State := s.store x a (leBytes n v)

/-- A range lies wholly within local SRAM (R31). -/
def inSram (a n : Nat) : Bool := decide (0x10000000 ≤ a ∧ a + n ≤ 0x11400000)

/-- A range lies wholly within LPDDR5X (R31). -/
def inDdr (a n : Nat) : Bool := decide (0x100000000 ≤ a ∧ a + n ≤ 0x200000000)

/-! ## Time -/

/-- 1/1024 ns in a second. -/
def secTicks : Nat := 1000000000 * 1024

/-- What a clock reads at instant `now`, in 1/1024 ns: its base, the time elapsed at its rate, and what it has slewed (R405, R409, R410). -/
def Clock.read (c : Clock) (now : Nat) : Nat :=
  let dt := (now - c.at_) * 1024
  let run : Int := c.base + dt + (dt : Int) * c.adj / (1000000000 * 2 ^ 20)
  let most := dt * c.ppm / 1000000
  (run + clampInt (-(most : Int)) most c.slew).toNat

/-- The clock with its rate changed from instant `now` on, its reading continuous. -/
def Clock.steer (c : Clock) (now : Nat) (adj : Int) : Clock := ⟨c.read now, now, adj, 0, 0⟩

/-- Domain `d` of the time follower of side `x`, in 1/1024 ns (R409). -/
def State.domTime (s : State) (x : Side) (d : Nat) : Nat := (Tab.at (Clock.start 0) (s.side x).clocks d).read s.now

/-- The domain of commit ticks, tallies and stamps on side `x`. -/
def State.tickDomain (s : State) (x : Side) : Nat := s.get (.side x) F.TIME_CFG 0

/-- The time of side `x` on TICK_DOMAIN. -/
def State.tickTime (s : State) (x : Side) : Nat := s.domTime x (s.tickDomain x)

/-- Follower state of domain `d` (R410): 0 UNSET, 1 SYNCED, 2 FREE. -/
def State.domState (s : State) (x : Side) (d : Nat) : Nat :=
  if d = 0 then s.get (.side x) F.TIME_STATUS_D0_STATE 0 else s.get (.side x) F.TIME_STATUS_D1_STATE 0

/-- Time is locked on side `x` (R410). -/
def State.locked (s : State) (x : Side) : Bool := s.domState x (s.tickDomain x) == 1

/-- The seconds word of a time (R9). -/
def secWord (t : Nat) : Nat := t / secTicks % 2 ^ 40

/-- The nanosecond word of a time (R9). -/
def nsWord (t : Nat) : Nat := t % secTicks

/-! ## Interrupts (R39 to R44) -/

/-- Source `n` of side `x` latches its pending bit (R42); sources 104 to 127 never do (R39). Pending and enable bits are kept
once for each source; the pages of R41 show each world its own. -/
def State.intr (s : State) (x : Side) (n : Nat) : State :=
  if n < 104 then s.setBit (.side x) F.INTR_PENDING (n / 32) (n % 32) else s

/-! ## The Ash pan (R480 to R486) -/

/-- The entries `l` of the collector, newest first, with the cycle that drains each: one a cycle, in order (R52). -/
def ashDrains (l : List (Nat × Nat)) : List (Nat × Nat) :=
  l.foldr (fun q ds => (max q.1 ((ds.head?.map (fun d => d.1 + 1)).getD 0), q.2) :: ds) []

/-- The collector cycle at which producer `prod` of side `x` can post: the running one of 2 ns, or the one after its own last post, and with a credit: of
its two entries one is drained (R52, R53). -/
def State.ashCycle (s : State) (x : Side) (prod : Nat) : Nat :=
  let l := (s.side x).ashRun
  let last := (l.filter (fun q => q.2 == prod)).foldl (fun c q => max c (q.1 + 1)) (s.now / 2)
  match ((ashDrains l).filter (fun d => d.2 == prod))[1]? with
  | some d => max last (d.1 + 1)
  | none => last

/-- The stamp of an entry that producer `prod` posts now: the time at the start of its collector cycle (R53). -/
def State.ashStamp (s : State) (x : Side) (prod : Nat) : Nat :=
  (Tab.at (Clock.start 0) (s.side x).clocks (s.tickDomain x)).read (2 * s.ashCycle x prod)

/-- The collector takes the arrival of cycle `c` and producer `p` before that of `d` and `q` (R53). -/
def ashBefore (c p d q : Nat) : Bool := decide (c < d) || (c == d && decide (p < q))

/-- The entries that the reader has not consumed reach FILL_TH (R485, R486). -/
def State.ashFull (s : State) (x : Side) : Bool :=
  let mark := s.get (.side x) F.ASH_MARK 0
  let seq := s.get (.side x) F.ASH_SEQ 0
  decide (mark ≤ seq ∧ clampNat 1 4096 (s.get (.side x) F.ASH_CFG 0) ≤ seq - mark)

/-- FILL is set and source 87 latches once for each crossing of FILL_TH (R485): when it was not reached in state `old`. -/
def State.ashFill (s : State) (x : Side) (old : State) : State :=
  if s.ashFull x ∧ ¬ old.ashFull x then (s.set (.side x) F.ASH_STATUS_FILL 0 1).intr x 87 else s

/-- The collector cycles and producers of the newest entries, newest first, while the collector has not run empty (R52). -/
def State.ashHeld (s : State) (x : Side) : List (Nat × Nat) :=
  if (ashDrains (s.side x).ashRun).any (fun d => decide (s.now / 2 ≤ d.1)) then (s.side x).ashRun else []

/-- Those of them that an entry which producer `prod` posts now comes before (R53). -/
def State.ashLater (s : State) (x : Side) (prod : Nat) : List (Nat × Nat) :=
  (s.ashHeld x).takeWhile (fun q => ashBefore (s.ashCycle x prod) prod q.1 q.2)

/-- The index that an entry which producer `prod` posts now takes in the ring (R485). -/
def State.ashIndex (s : State) (x : Side) (prod : Nat) : Nat :=
  (s.get (.side x) F.ASH_SEQ 0 - (s.ashLater x prod).length) % 4096

/-- An entry of producer `prod` written to the ring of side `x` (R485): behind the entries of earlier cycles, and within its cycle in the
order of the producers (R53). -/
def State.ashPut (s : State) (x : Side) (prod : Nat) (e : LogEntry) : State :=
  let h := Holder.side x
  let v := s.side x
  let seq := s.get h F.ASH_SEQ 0
  let mark := s.get h F.ASH_MARK 0
  let c := s.ashCycle x prod
  let later := s.ashLater x prod
  let k := later.length
  let none_ : LogEntry := ⟨0, 0, 0, 0⟩
  let ring := (List.range k).foldl (fun t i => Tab.put none_ t ((seq - i) % 4096) (Tab.at none_ t ((seq - i - 1) % 4096))) v.ash
  let s := s.setSide x { v with ash := Tab.put none_ ring (s.ashIndex x prod) e, ashRun := later ++ (c, prod) :: (s.ashHeld x).drop k }
  let s := (s.set h F.ASH_SEQ 0 (seq + 1)).ashFill x s
  if 4096 ≤ seq ∧ mark ≤ seq - 4096 then (s.set h F.ASH_STATUS_OVERWRITE 0 1).inc h F.ASH_OVERWRITE_COUNT 0 else s

/-- An argument of a log entry: wide (40 bits), or of a given number of bits (R482). -/
inductive Arg where
  | wide (v : Nat)
  | nar (width v : Nat)
  deriving DecidableEq, Repr

/-- The narrow arguments packed into words, the first of 21 bits and the others of 40 (R482): packs from bit `pos` of `cur`. -/
def packArgs : List (Nat × Nat) → Nat → Nat → Nat → List Nat
  | [], _, _, cur => [cur]
  | (w, v) :: l, cap, pos, cur =>
    if pos + w ≤ cap then packArgs l cap (pos + w) (cur + (v % 2 ^ w) * 2 ^ pos)
    else cur :: packArgs l 40 w (v % 2 ^ w)

/-- The wide arguments, in order. -/
def wideArgs : List Arg → List Nat
  | [] => []
  | .wide v :: l => v % 2 ^ 40 :: wideArgs l
  | _ :: l => wideArgs l

/-- The narrow arguments, in order. -/
def narArgs : List Arg → List (Nat × Nat)
  | [] => []
  | .nar w v :: l => (w, v) :: narArgs l
  | _ :: l => narArgs l

/-- W0 of an entry (R480). -/
def ashW0 (code prod : Nat) (unsync cont : Bool) (argA : Nat) : Nat :=
  code * 2 ^ 28 + prod * 2 ^ 23 + b2n unsync * 2 ^ 22 + b2n cont * 2 ^ 21 + argA % 2 ^ 21

/-- An event logged on side `x` by producer `prod` with its arguments placed as R482 says. A side whose fabric is in reset logs nothing. -/
def State.log (s : State) (x : Side) (code prod : Nat) (args : List Arg) : State :=
  if ¬ s.fabric x then s else
  let t := s.ashStamp x prod
  let u := !s.locked x
  let ws := wideArgs args
  match packArgs (narArgs args) 21 0 0 with
  | [] => s
  | a :: more =>
    let s := s.ashPut x prod ⟨ashW0 code prod u false a, secWord t, nsWord t, ws.headD 0⟩
    s.each (ws.tail ++ more) (fun s v => s.ashPut x prod ⟨ashW0 code prod u true 0, secWord t, nsWord t, v⟩)

/-- An event that a grate die or the Flue die logs to both sides (R481). -/
def State.logBoth (s : State) (code prod : Nat) (args : List Arg) : State :=
  (s.log .a code prod args).log .b code prod args

/-- ACCESS_FAULT (R483). -/
def State.logFault (s : State) (x : Side) (prod cause init world size : Nat) (write : Bool) (addr : Nat) : State :=
  if ¬ s.fabric x then s else
  let t := s.ashStamp x prod
  let a := cause % 32 + init % 16 * 2 ^ 5 + world % 8 * 2 ^ 9 + size % 16 * 2 ^ 12 + b2n write * 2 ^ 16
  s.ashPut x prod ⟨ashW0 0x001 prod (!s.locked x) false a, secWord t, nsWord t, addr % 2 ^ 40⟩

/-- ACCESS_FAULT of a die: to both sides (R481). -/
def State.logFaultBoth (s : State) (prod cause init world size : Nat) (write : Bool) (addr : Nat) : State :=
  (s.logFault .a prod cause init world size write addr).logFault .b prod cause init world size write addr

/-! ## Replies and events (R64 to R77) -/

/-- The header of a reply or event (R65). -/
def rplHeader (cls status tag world count detail : Nat) : Nat :=
  cls % 16 * 2 ^ 36 + status % 256 * 2 ^ 28 + tag % 256 * 2 ^ 20 + world % 8 * 2 ^ 17 + count % 32 * 2 ^ 12 + detail % 4096

/-- Number of reply words that the header word declares (R65). -/
def hdrCount (w : Nat) : Nat := bits w 16 12

/-- Words of the reply FIFO of a source that are reserved for packets taken (R75). -/
def Src.reserved (r : Src) : Nat := r.out.foldl (fun n t => n + t.room) 0

/-- Free unreserved words of a reply FIFO. -/
def Src.room (r : Src) : Nat := 64 - r.rpl.length - r.reserved

/-- The door reserved to the PAIR unit on side `x`, if any (R280). -/
def State.pairDoor (s : State) (x : Side) : Option Nat :=
  if s.get (.side x) F.PAIR_CFG_MODE 0 = 0 then some (s.get (.side x) F.PAIR_CFG_DOOR 0) else none

/-- The PAIR unit takes the head packet of the pair door when both cores' copy buffers have room for it (R282). -/
def State.pairPull1 (s : State) (x : Side) : State :=
  match s.pairDoor x with
  | none => s
  | some d =>
    let r := s.src x d
    match r.rpl with
    | [] => s
    | w :: _ =>
      let n := hdrCount w + 1
      let v := s.side x
      if r.rpl.length < n ∨ 64 < v.pair0.rpl.length + n ∨ 64 < v.pair1.rpl.length + n then s
      else
        let s := s.setSrc x d { r with rpl := r.rpl.drop n }
        let v := s.side x
        s.setSide x { v with pair0 := { v.pair0 with rpl := v.pair0.rpl ++ r.rpl.take n },
                             pair1 := { v.pair1 with rpl := v.pair1.rpl ++ r.rpl.take n } }

/-- The PAIR unit takes every packet of the pair door that it has room for. -/
def State.pairPull (s : State) (x : Side) : State := iter (fun s => s.pairPull1 x) 64 s

/-- A packet of reply words enters the reply FIFO of source `i` whole; a door's interrupt source latches (R74). -/
def State.enqueue (s : State) (x : Side) (i : Nat) (ws : List Nat) : State :=
  let r := s.src x i
  let s := s.setSrc x i { r with rpl := r.rpl ++ ws }
  let s := if i < 32 then s.intr x i else s
  if s.pairDoor x = some i then s.pairPull x else s

/-- DELAYED, the only status that is not final (R85). -/
def stDelayed : Nat := 0x01

/-- A reply enters its FIFO: a final reply frees the tag and its reservation; a DELAYED reply uses up its own part of the reservation.
A reply after
a TIMEOUT is dropped (R86). A reply to a packet that its side took before a reset, or whose door was flushed by a world restart, is discarded and counted (R58, R77). -/
def State.deliver (s : State) (r : Reply) : State :=
  let x := r.job.side
  let i := r.job.src
  let q := s.src x i
  if q.out.any (fun t => t.seq == r.job.seq) then
    let ws := rplHeader (r.job.pkt.code / 256) r.status r.job.pkt.tag r.job.pkt.world r.words.length r.detail :: r.words
    let out := if r.status = stDelayed then
        q.out.map (fun t => if t.seq = r.job.seq then { t with room := t.room - ws.length } else t)
      else q.out.filter (fun t => t.seq != r.job.seq)
    (s.setSrc x i { q with out := out }).enqueue x i ws
  else if (s.side x).timedOut.contains r.job.seq then
    if r.status = stDelayed then s
    else s.setSide x { s.side x with timedOut := (s.side x).timedOut.filter (fun n => n != r.job.seq) }
  else if r.job.seq < (s.side x).bootTakes then s.inc (.side x) F.FAB_REPLY_DISCARD 0
  else if i < 32 then s.inc (.side x) F.DOOR_DISCARD_COUNT i else s

/-- A reply with status, DETAIL and words to a packet. -/
def State.answer (s : State) (j : Job) (status detail : Nat) (words : List Nat) : State :=
  s.deliver ⟨j, status, detail, words⟩

/-- An unsolicited event for world `w` on side `x` (R68, R76): class, status, DETAIL, words, and the target that a lost event is logged
with. -/
def State.event (s : State) (x : Side) (w cls status detail target : Nat) (words : List Nat) : State :=
  if (s.side x).run ≠ .ready then s else
  let door := s.get (.side x) F.DOOR_EVT w
  if door ≤ 32 then
    if words.length + 1 ≤ (s.src x door).room then
      s.enqueue x door (rplHeader cls status 0xFF w words.length detail :: words)
    else
      let s := if door < 32 then (s.set (.side x) F.DOOR_STATUS_EVT_LOST door 1).inc (.side x) F.DOOR_EVT_LOST_COUNT door else s
      s.log x 0x007 3 [.nar 6 door, .nar 4 cls, .nar 12 target]
  else s.inc (.side x) F.STOKER_EVT_NONE_COUNT 0

/-- An event of a grate die, delivered on both sides (R76). -/
def State.eventBoth (s : State) (w cls status detail target : Nat) (words : List Nat) : State :=
  (s.event .a w cls status detail target words).event .b w cls status detail target words

/-- At most one event per code in 10 ms (R197): the table of the instants after which a code may be posted again, with this posting in
it, or none when the event is suppressed. -/
def limited (t : Tab Nat) (code now : Nat) : Option (Tab Nat) :=
  if now < Tab.at 0 t code then none else some (Tab.put 0 t code (now + 10000000))

/-! ## Outcomes -/

/-- The outcome of a meaning. -/
abbrev Out := Host.Outcome State Fault Refusal

/-- The command runs to a next state. -/
def ok (s : State) : Out := .next s

end Sys2Proof.Machine
end

