-- ==== Sys2Proof/Machine/Matcher.lean ====
section
/-! DEFINITION. The spark matchers' parts and the source events that reach them (chapter 08 R233 to R236, R241): each event enters its
matcher's queue at its reference instant, from the unit that made it, with the one result of its verification. -/
namespace Sys2Proof.Machine
open Sys2Proof

/-- The switch forwards: the Flue die is PRESENT and out of reset. -/
def State.flueRuns (s : State) : Bool := s.present .flue && s.flue.powered && !s.flue.reset_

/-- Who holds the registers of a matcher (R253 to R255). -/
def matcherHolder : Matcher → Holder
  | .side x => .side x
  | .flue => .flue

/-- What a matcher holds besides its registers. -/
def State.matcher (s : State) : Matcher → MatcherSt
  | .side x => (s.side x).spark
  | .flue => s.flue.spark

/-- The state with `v` in a matcher. -/
def State.setMatcher (s : State) (m : Matcher) (v : MatcherSt) : State :=
  match m with
  | .side x => s.setSide x { s.side x with spark := v }
  | .flue => { s with flue := { s.flue with spark := v } }

/-- Rules of a matcher. -/
def ruleCount : Matcher → Nat
  | .side _ => 256
  | .flue => 128

/-- A register of a matcher. -/
def State.mq (s : State) (m : Matcher) (f : Fld) (i : Nat) : Nat := s.get (matcherHolder m) f i

/-- A register of a matcher set. -/
def State.mw (s : State) (m : Matcher) (f : Fld) (i v : Nat) : State := s.set (matcherHolder m) f i v

/-- A counter of a matcher counts one. -/
def State.mn (s : State) (m : Matcher) (f : Fld) (i : Nat) : State := s.inc (matcherHolder m) f i

/-- Word `k` (1 to 12) of rule `n`. -/
def State.ruleWord (s : State) (m : Matcher) (n k : Nat) : Nat := s.mq m F.SPK_RULE_W (12 * n + k)

/-- The matcher is in service (R253). -/
def State.matcherReady (s : State) (m : Matcher) : Bool :=
  (match m with
    | .side x => s.up x
    | .flue => s.flueRuns) && s.mq m F.SPK_STATUS_READY 0 == 1

/-- Rule `n` as SPK opcodes number it (R233). -/
def ruleTarget (m : Matcher) (n : Nat) : Nat :=
  match m with
  | .side _ => n
  | .flue => 0x100 + n

/-- The time at which a matcher stamps fires (R240): its side's follower, or Bellows domain 0. -/
def State.matcherTime (s : State) : Matcher → Nat
  | .side x => s.tickTime x
  | .flue => s.flue.dom0.clock.read s.now

/-! ## Source events (R234 to R236) -/

/-- The 16 bits at byte `i`. -/
def be16 (b : List Nat) (i : Nat) : Nat := beNat ((b.drop i).take 2)

/-- Destination address of a frame. -/
def frameDa (b : List Nat) : Nat := beNat (b.take 6)

/-- The place of the EtherType after any VLAN tags. -/
def typeAt : Nat → List Nat → Nat → Nat
  | 0, _, i => i
  | n + 1, b, i => if be16 b i = 0x8100 ∨ be16 b i = 0x88A8 then typeAt n b (i + 4) else i

/-- How the verification of a frame ended, as rules see it (R234, R237, 13 R391): not verified, verified, or failed. -/
inductive Sealing where
  | plain
  | verified
  | failed
  deriving DecidableEq, Repr

/-- A source event at instant `now`, whose reference instant is `t` in network time. -/
def stimulus (now t src index edge key0 key1 : Nat) (payload : List Nat) (r : Sealing) : Stimulus :=
  ⟨src, index, edge, key0, key1, payload, r == .verified, r == .failed, now, secWord t, nsWord t⟩

/-- The source order of R241 within one matcher cycle: an event goes behind those that were earlier, and behind those of the same instant
with a lower source number. -/
def enterEvent (e : Stimulus) : List Stimulus → List Stimulus
  | [] => [e]
  | a :: l =>
    if e.at_ < a.at_ ∨ (e.at_ = a.at_ ∧ (e.src < a.src ∨ (e.src = a.src ∧ e.index < a.index))) then e :: a :: l else a :: enterEvent e l

/-- A source event enters the queue of a matcher that is in service (R237, R241). -/
def State.sparkPost (s : State) (m : Matcher) (src index edge key0 key1 : Nat) (payload : List Nat) (r : Sealing) : State :=
  if s.matcherReady m then
    let v := s.matcher m
    s.setMatcher m { v with events := enterEvent (stimulus s.now (s.matcherTime m) src index edge key0 key1 payload r) v.events }
  else s

/-- A received CAN frame on local channel `k` is a source event of its side (R234, R236). -/
def State.sparkCan (s : State) (x : Side) (k h0 h1 h2 : Nat) (data : List Nat) (r : Sealing) : State :=
  s.sparkPost (.side x) 0 k 0 (h0 + bits h1 3 0 * 2 ^ 32) (if bits h0 31 30 = 3 then h2 % 2 ^ 16 else 0) data r

/-- A received Ethernet frame on port `p` is a source event of the Flue die (R234, R236). -/
def State.sparkEth (s : State) (p : Nat) (b : List Nat) (r : Sealing) : State :=
  let da := frameDa b
  let at_ := typeAt b.length b 12
  let tagged := at_ != 12
  let tci := if tagged then be16 b 14 else 0
  s.sparkPost .flue 1 p 0 (da % 2 ^ 40)
    (da / 2 ^ 40 + be16 b at_ * 2 ^ 8 + tci % 4096 * 2 ^ 24 + b2n tagged * 2 ^ 36 + tci / 8192 * 2 ^ 37) (b.drop (at_ + 2)) r

/-- An edge of digital input `n` (R234, R235). -/
def State.sparkPin (s : State) (x : Side) (n : Nat) (level : Bool) : State := s.sparkPost (.side x) 2 n (b2n (!level)) 0 0 [] .plain

/-- A capture on TCI input `n` (R234). -/
def State.sparkCapture (s : State) (x : Side) (n : Nat) : State := s.sparkPost (.side x) 3 n 0 0 0 [] .plain

end Sys2Proof.Machine
end

