-- ==== Sys2Proof/Machine/Flags.lean ====
section
/-! DEFINITION. The event bits of the units, each with the interrupt source that its setting latches (01 R39). -/
namespace Sys2Proof.Machine
open Sys2Proof

/-- A SIDE_EVT bit, which latches source 90 (R287). -/
def State.sideEvt (s : State) (x : Side) (f : Fld) : State := (s.set (.side x) f 0 1).intr x 90

/-- A LIFE_EVT bit, which latches source 85 (R325). -/
def State.lifeEvt (s : State) (x : Side) (f : Fld) : State := (s.set (.side x) f 0 1).intr x 85

/-- A TIME_EVT bit, which latches source 80 (R411). -/
def State.timeEvt (s : State) (x : Side) (f : Fld) : State := (s.set (.side x) f 0 1).intr x 80

/-- An EMBER_FEED_EVT bit, which latches source 91 on both sides (R153, R157); the router of a side in reset holds its reset values. -/
def State.feedEvt (s : State) (f : Fld) : State :=
  (s.set .ember f 0 1).each [Side.a, Side.b] (fun s x => if s.fabric x then s.intr x 91 else s)

/-- Strap `i` is sampled at `level` (R502). -/
def State.setStrap (s : State) (i : Nat) (level : Bool) : State :=
  { s with ember := { s.ember with straps := if level then Machine.setBit s.ember.straps i else Machine.clearBit s.ember.straps i } }

/-- A FLUE_EVT bit: the Flue die's network event, held for the next poll of each side (R304, R360). -/
def State.flueEvt (s : State) (f : Fld) : State :=
  let s := s.set .flue f 0 1
  { s with flue := { s.flue with evtLine := true, evtLineB := true } }

/-- A BLW_EVT bit of domain `d`: the Bellows event, held for the next poll of each side (R304, R418). -/
def State.blwEvt (s : State) (f : Fld) (d : Nat) : State :=
  let s := s.set .flue f d 1
  { s with flue := { s.flue with blwLine := true, blwLineB := true } }

/-- The CAN_IRQ bit `f` of local channel `k`: latches source 64 + 2k, or 65 + 2k for the error bits, when CAN_IRQ_EN enables it
(R395). -/
def State.canIrq (s : State) (x : Side) (k : Nat) (f : Fld) : State :=
  let s := s.set (.side x) f k 1
  if (s.get (.side x) F.CAN_IRQ_EN k).testBit f.lo then s.intr x (if 16 ≤ f.lo then 65 + 2 * k else 64 + 2 * k) else s

/-- DONE or ERR of DMA channel `n` latches its interrupt source when IRQ_EN is 1 (R62). -/
def State.dmaIrq (s : State) (x : Side) (n : Nat) : State :=
  if s.is (.side x) F.DMA_CTRL_IRQ_EN n then s.intr x (32 + n) else s

/-- ERR of DMA channel `n` with an ERRCODE. -/
def State.dmaErr (s : State) (x : Side) (n code : Nat) : State :=
  ((s.set (.side x) F.DMA_STATUS_ERR n 1).set (.side x) F.DMA_STATUS_ERRCODE n code).dmaIrq x n

/-- The ERRCODE of R62 for an access that ended in a bus error with a cause of R293 or R483. -/
def dmaCode (cause : Nat) : Nat := if cause = 15 ∨ cause = 2 then 2 else if cause = 7 then 3 else 1

/-- DMA channel `n` no longer runs: nothing of it waits any more, and what its accesses in a bridge answer no longer concerns it. -/
def State.dmaHalt (s : State) (x : Side) (n : Nat) : State :=
  let v := s.side x
  let s := s.setSide x { v with dmaData := Tab.put 0 v.dmaData n 0, dmaQueue := Tab.put [] v.dmaQueue n [] }
  let s := s.each (List.range 6) (fun s i =>
    let b := s.bridge x i
    s.setBridge x i { b with txns := b.txns.map (fun t => if t.chan = n + 1 then { t with chan := 0 } else t)
                             near := b.near.filter (fun t => t.chan != n + 1) })
  s.set (.side x) F.DMA_STATUS_BUSY n 0

/-- DMA channel `n` stops on an error: it keeps SRC, DST and BYTES (R12, R62). -/
def State.dmaStop (s : State) (x : Side) (n cause : Nat) : State := (s.dmaHalt x n).dmaErr x n (dmaCode cause)

/-- DONE of DMA channel `n`. -/
def State.dmaDone (s : State) (x : Side) (n : Nat) : State := (s.set (.side x) F.DMA_STATUS_DONE n 1).dmaIrq x n

end Sys2Proof.Machine
end

