-- ==== Sys2Proof/Machine/Tokens.lean ====
section
/-! DEFINITION. The mastership tokens (chapter 09): their state at the grate dies, and at 4 the net token at the Flue die (R271, whose
registers the spec does not give: it is kept in the registers of R260 under die number 4), heartbeats, claims and changes. -/
namespace Sys2Proof.Machine
open Sys2Proof

/-- Time at least `t`: an event that falls due at `t` happens then. -/
def State.due (s : State) (t : Nat) : State := { s with now := max s.now t }

/-- Die `d` runs. -/
def State.dieRuns (s : State) (d : Nat) : Bool := (s.die d).powered && s.present (dieUnit d)

/-! ## The signal plane (R50, R52, R53) -/

/-- The credits of a producer of the signal plane, whose depth is 448 words: 96 for a grate die, 32 for INPUTS. -/
def planeCredits (p : Nat) : Nat := if p < 4 then 96 else 32

/-- The producer's transport to the collector, ns: the measurement link's, or a crossing's (R46, R47). -/
def planeTransport (p : Nat) : Nat := if p < 4 then 150 else 3

/-- Words of producer `p` that wait go on their way, one a collector cycle, while it has credits (R48, R52); the number bounds them. -/
def State.planeSend (s : State) (x : Side) (p : Nat) : Nat → State
  | 0 => s
  | k + 1 =>
    let v := s.side x
    let own := v.plane.filter (fun w => w.prod == p)
    match Tab.at [] v.planeWait p with
    | (slot, last) :: q =>
      if own.length < planeCredits p then
        let c := own.foldl (fun c w => max c (w.cycle + 1)) ((s.now + planeTransport p) / 2)
        (s.setSide x { v with plane := v.plane ++ [⟨p, c, slot, last⟩], planeWait := Tab.put [] v.planeWait p q }).planeSend x p k
      else s
    | [] => s

/-- Producer `p` posts words to the plane of side `x`, each with the index of its sample tick in the upper bits of its slot (R53, log entry 119). -/
def State.planePost (s : State) (x : Side) (p tick : Nat) (ws : List Nat) : State :=
  let slots := ws.map (fun w => (tick % 2 ^ 24 * 2 ^ 40 + w % 2 ^ 40, false))
  let post := slots.dropLast ++ (slots.getLast?.map (fun w => (w.1, true))).toList
  let v := s.side x
  (s.setSide x { v with planeWait := Tab.put [] v.planeWait p (Tab.at [] v.planeWait p ++ post) }).planeSend x p post.length

/-- A tick marker reaches die `d`: its sample tick moves by at most 5 us to fall on the marker, within 20 ns (R187, R413). -/
def State.marker (s : State) (d : Nat) : State :=
  let v := s.die d
  let r := (((v.sampleAt : Int) - s.now) % 10000).toNat
  let at_ := (if r ≤ 5000 then v.sampleAt - r else v.sampleAt + (10000 - r)) + s.freeVal 16 % 41 - 20
  (s.setDie d { v with lastMarker := some s.now, sampleAt := if v.sampleAt = 0 then 0 else at_ }).took

/-- STATE of token `t` (R260): 0 HELD, 1 LAPSED, 2 CLAIMED, 3 VACANT, 4 RELEASING. -/
def State.tokState (s : State) (t : Nat) : Nat := s.get (.grate t) F.GRATE_TOKEN_STATE 0

/-- HOLDER of token `t`: 0 Side A, 1 Side B, 3 none. -/
def State.tokHolder (s : State) (t : Nat) : Nat := s.get (.grate t) F.GRATE_TOKEN_HOLDER 0

/-- Side `x` holds token `t`. -/
def State.holds (s : State) (x : Side) (t : Nat) : Bool := s.tokHolder t == x.num

/-- DETAIL of NOT_MASTER (R101). -/
def State.masterDetail (s : State) (t : Nat) : Nat := if s.tokHolder t ≤ 1 then 2 + s.tokHolder t else 0

/-- A claim of token `t` is pending (R263, R269). -/
def State.claimPending (s : State) (t : Nat) : Bool := s.tokState t == 2 || s.tokState t == 4

/-- Side `x` is the claimant of token `t`. -/
def State.claims (s : State) (x : Side) (t : Nat) : Bool :=
  s.claimPending t && s.get (.grate t) F.GRATE_TOKEN_CLAIMANT 0 == x.num

/-- A claim by side `x` of token `t`, once recorded or under orderly handover, has not been granted yet: it is pending, or the token has lapsed
since. -/
def State.claimOpen (s : State) (x : Side) (t : Nat) : Bool :=
  (s.claimPending t || s.tokState t == 1) && s.get (.grate t) F.GRATE_TOKEN_CLAIMANT 0 == x.num

/-- Instant of the last heartbeat of side `x` at die `t`. -/
def State.beatAt (s : State) (t : Nat) : Side → Option Nat
  | .a => (s.die t).hbA
  | .b => (s.die t).hbB

/-- LOSS at die `t`, in ns (R260, R262). -/
def State.lossNs (s : State) (t : Nat) : Nat := s.get (.grate t) F.GRATE_TOKEN_LOSS 0 * 1000

/-- The heartbeat age of side `x` at die `t` is within LOSS. -/
def State.beats (s : State) (t : Nat) (x : Side) : Bool :=
  match s.beatAt t x with
  | some b => decide (s.now - b ≤ s.lossNs t)
  | none => false

/-- The heartbeat age of side `x` at die `t` is below LOSS (R263). -/
def State.beatsBelow (s : State) (t : Nat) (x : Side) : Bool :=
  match s.beatAt t x with
  | some b => decide (s.now - b < s.lossNs t)
  | none => false

/-- Side `x` is healthy (R272). -/
def State.healthy (s : State) (x : Side) : Bool := s.is (.side x) F.SIDE_STATUS_HEALTHY 0

/-- The token bits of SIDE_STATUS on side `x` brought in line with the tokens (R257). -/
def State.showTokens (s : State) (x : Side) : State :=
  let m := (List.range 4).foldl (fun m d => if s.holds x d then Machine.setBit m d else m) 0
  (s.set (.side x) F.SIDE_STATUS_GRATE_HELD 0 m).set (.side x) F.SIDE_STATUS_NET_HELD 0 (b2n (s.holds x 4))

/-! ## Return after repair (R279) -/

/-- Home side of token `t` (R261), by the configuration of Side A, or of Side B while A is down. -/
def State.homeOf (s : State) (t : Nat) : Side :=
  sideOf (b2n ((s.get (.side (if s.up .a then .a else .b)) F.SIDE_CFG_HOME 0).testBit t))

/-- The peer of side `x` answers over the cross link in both directions (R274). -/
def State.crossBoth (s : State) : Bool := s.is (.side .a) F.SIDE_STATUS_CROSS_UP 0 && s.is (.side .b) F.SIDE_STATUS_CROSS_UP 0

/-- What R279 asks for, without a break, before token `t`, held by the other side, returns to its home side. -/
def State.returnReady (s : State) (t : Nat) : Bool :=
  let h := s.homeOf t
  s.is (.side h) F.SIDE_STATUS_RETURN_HOME 0 && s.holds h.other t && s.healthy .a && s.healthy .b && s.crossBoth &&
    s.is (.side .a) F.SIDE_STATUS_MIRROR_CURRENT 0 && s.is (.side .b) F.SIDE_STATUS_MIRROR_CURRENT 0 && s.beats t h

/-- The hold-offs of R279 brought in line with their conditions, whenever one of these may have changed: a hold-off starts when all of them
come to hold and a break ends it. -/
def State.returnWaits (s : State) : State :=
  s.each [Side.a, .b] (fun s x =>
    let s := s.each (List.range 5) (fun s t =>
      let at_ := Tab.at 0 (s.side x).returnAt t
      let want := if s.homeOf t = x ∧ s.returnReady t then (if at_ = 0 then s.now + 1 else at_) else 0
      s.setSide x { s.side x with returnAt := Tab.put 0 (s.side x).returnAt t want })
    s.set (.side x) F.SIDE_STATUS_RETURN_WAIT 0 (b2n ((s.side x).returnAt != [])))

/-- A heartbeat of side `x` at die `t` that comes more than LOSS after the last one: the hold-off of R279 was broken. -/
def State.returnGap (s : State) (t : Nat) (x : Side) : State :=
  if s.homeOf t = x ∧ ¬ s.beats t x then s.setSide x { s.side x with returnAt := Tab.put 0 (s.side x).returnAt t 0 } else s

/-! ## What happens to a token -/

/-- Side `x` gains a token (R287). -/
def State.gainToken (s : State) (x : Side) : State :=
  (s.sideEvt x F.SIDE_EVT_TOKEN_GAIN).inc (.side x) F.SIDE_TOKEN_GAIN_COUNT 0

/-- Side `x` loses a token (R287). -/
def State.loseToken (s : State) (x : Side) : State :=
  (s.sideEvt x F.SIDE_EVT_TOKEN_LOSS).inc (.side x) F.SIDE_TOKEN_LOSS_COUNT 0

/-- Token `t` passes to side `x` at a commit tick of that side (R263, R264): the change is counted and stamped, both sides hear of
it, and a change that a lapse caused opens the handover window of a grate die for 30 us (R267). -/
def State.passToken (s : State) (t : Nat) (x : Side) : State :=
  let old := s.tokHolder t
  let v := s.die t
  let window := decide (!v.orderly ∧ old ≤ 1 ∧ old ≠ x.num ∧ t < 4)
  let s := s.setDie t { v with
    windowEnd := s.now + 30000, oldHolder := if old ≤ 1 then some (sideOf old) else none, masterNew := true, orderly := false }
  let g := Holder.grate t
  let s := (s.set g F.GRATE_TOKEN_HOLDER 0 x.num).set g F.GRATE_TOKEN_STATE 0 0
  let s := (s.set g F.GRATE_TOKEN_WINDOW 0 (b2n window)).inc g F.GRATE_TOKEN_CHANGE_COUNT 0
  let s := (s.set g F.GRATE_LAST_CHANGE_S 0 (secWord (s.tickTime x))).set g F.GRATE_LAST_CHANGE_NS 0 (nsWord (s.tickTime x))
  let s := s.gainToken x
  let s := if old ≤ 1 ∧ old ≠ x.num then s.loseToken (sideOf old) else s
  let s := (s.intr .a 90).intr .b 90
  ((s.showTokens .a).showTokens .b).returnWaits

/-- Token `t` becomes VACANT (R270): no side holds it and no command is applied until a claim. -/
def State.vacate (s : State) (t : Nat) : State :=
  let old := s.tokHolder t
  let g := Holder.grate t
  let s := (s.set g F.GRATE_TOKEN_HOLDER 0 3).set g F.GRATE_TOKEN_STATE 0 3
  let s := s.logBoth 0x503 (23 + t) []
  let s := if old ≤ 1 then s.loseToken (sideOf old) else s
  let s := (s.sideEvt .a F.SIDE_EVT_VACANT).sideEvt .b F.SIDE_EVT_VACANT
  ((s.showTokens .a).showTokens .b).returnWaits

/-- A claim recorded at die `t` for side `x` (R263): `orderly` when no lapse caused it, so that no window opens (R267). -/
def State.recordClaim (s : State) (t : Nat) (x : Side) (orderly : Bool) : State :=
  let g := Holder.grate t
  let s := (s.set g F.GRATE_TOKEN_STATE 0 2).set g F.GRATE_TOKEN_CLAIMANT 0 x.num
  s.setDie t { s.die t with claimAt := s.now, orderly := orderly }

/-- A claim that is refused: CLAIM_REFUSED on the side that made it (R266). -/
def State.claimRefused (s : State) (x : Side) : State := s.log x 0x502 18 []

/-- An automatic claim of token `t` by side `x` (R263, R266, R270): refused while a claim is pending or the holder's heartbeat is
within LOSS. -/
def State.autoClaim (s : State) (x : Side) (t : Nat) : State :=
  if s.claimPending t ∨ (s.tokHolder t ≤ 1 ∧ s.beats t (sideOf (s.tokHolder t))) then s.claimRefused x
  else s.recordClaim t x (s.tokState t == 3)

/-- A claim of a VACANT token under R261. -/
def State.vacantClaim (s : State) (x : Side) (t : Nat) : State :=
  if s.tokState t = 3 then s.recordClaim t x true else s

/-- Side `x` stops being healthy (R272), with the cause in ARG_A[2:0]: it sends no heartbeat and no cross pulse, and takes no packets. -/
def State.sideDown (s : State) (x : Side) (cause : Nat) : State :=
  if s.healthy x then
    let s := (s.log x 0x504 18 [.nar 3 cause]).set (.side x) F.SIDE_STATUS_HEALTHY 0 0
    (s.setSide x { s.side x with taking := false }).returnWaits
  else s

/-- The merged loss time of side `x`, in ns (R287). -/
def State.sideLoss (s : State) (x : Side) : Nat := clampNat 60 500 (s.get (.side x) F.SIDE_CFG_LOSS 0) * 1000

/-- The instant from which side `x` has had no pulse of its peer for more than LOSS (R273). -/
def State.pulsesGoneAt (s : State) (x : Side) : Nat :=
  match (s.side x).peerAt with
  | some t => t + s.sideLoss x + 1
  | none => s.now

/-- The heartbeats of side `x` are within the loss time of side `y` at some grate die (R273). -/
def State.beatsSome (s : State) (x y : Side) : Bool :=
  (List.range 4).any (fun d => match s.beatAt d x with
    | some b => decide (s.now - b ≤ s.sideLoss y)
    | none => false)

end Sys2Proof.Machine
end

