-- ==== Sys2Proof/Machine/Mirror.lean ====
section
/-! DEFINITION. Memory mirroring (chapter 09 R277, R278): dirty lines, checkpoints, the lock of incoming regions. -/
namespace Sys2Proof.Machine
open Sys2Proof

/-! ## ECC and locked lines (01 R28, 10 R302) -/

/-- The address on the other side of a far SRAM window address (R31). -/
def farOfWindow (a : Nat) : Nat := a - 0x10000000

/-- An error that the ECC of a side's memory finds at `a` is counted; an uncorrectable one is logged (R28, R29). -/
def State.eccSeen (s : State) (x : Side) (a : Nat) (e : Ecc) : State :=
  let h := Holder.side x
  match e with
  | .clean => s
  | .corrected => s.inc h (if inDdr a 1 then F.TALLY_ECC_DDR_CORR else F.TALLY_ECC_SRAM_CORR) 0
  | .lost => (s.inc h (if inDdr a 1 then F.TALLY_ECC_DDR_UNCORR else F.TALLY_ECC_SRAM_UNCORR) 0).log x 0x002 0 [.wide a]

/-- What the ECC finds as `size` bytes are read at `a`: the word of `lost` has an uncorrectable error, that at `corr` a corrected one. -/
def copyEcc (lost corr : Option Word40) (a size : Nat) : Ecc :=
  if lost.any (fun l => decide (a / 8 ≤ l.toNat / 8 ∧ l.toNat / 8 ≤ (a + size - 1) / 8)) then .lost
  else if corr.any (fun c => decide (a ≤ c.toNat ∧ c.toNat < a + size)) then .corrected else .clean

/-- `n` bytes of memory read at `a` on side `x`: whether a word of them is uncorrectable, and the state with what the ECC counts and logs (R28, R29). -/
def State.eccRead (s : State) (x : Side) (a n : Nat) (lost corr : Option Word40) : Bool × State :=
  if n = 0 ∨ ¬ (inSram a n || inDdr a n) then (false, s)
  else
    let s := if copyEcc none corr a n = .clean then s else s.eccSeen x ((corr.map (·.toNat)).getD a) .corrected
    if copyEcc lost none a n = .clean then (false, s) else (true, s.eccSeen x ((lost.map (·.toNat)).getD a) .lost)

/-- The same for an engine with initiator code `init`, in world `w`, whose read ends in a bus error on an uncorrectable word (R12). -/
def State.engineRead (s : State) (x : Side) (init w a n : Nat) (lost corr : Option Word40) : Bool × State :=
  let r := s.eccRead x a n lost corr
  (r.1, if r.1 then r.2.logFault x 0 7 init w 8 false a else r.2)

/-- A line of local SRAM among the `n` bytes, at least one, from `a` is locked by a hart of the other side, other than the one that makes the access. -/
def State.lockedHere (s : State) (x : Side) (o : Origin) (a n : Nat) : Bool :=
  inSram a n && (s.side x.other).locks.any (fun l =>
    decide (a / 64 ≤ farOfWindow l.line / 64 ∧ farOfWindow l.line / 64 ≤ (a + n - 1) / 64) &&
    match o with
    | .far i _ => i.val != l.hart
    | _ => true)

/-- A line among the `n` bytes from `a` is locked to an engine of side `x` (R302). -/
def State.engineWaits (s : State) (x : Side) (a n : Nat) : Bool := n != 0 && s.lockedHere x (.stoker 0) a n

/-! ## Regions and dirty lines -/

/-- Outgoing region `r` of side `x`: base and length in bytes; 0 bytes when disabled (R277). -/
def State.mirRegion (s : State) (x : Side) (r : Nat) : Nat × Nat :=
  (s.get (.side x) F.SIDE_MIRROR_BASE r, s.get (.side x) F.SIDE_MIRROR_LEN r * 4096)

/-- Address `a` lies in an enabled outgoing region of side `x`. -/
def State.mirrored (s : State) (x : Side) (a : Nat) : Bool :=
  (List.range 16).any (fun r => decide ((s.mirRegion x r).1 ≤ a ∧ a < (s.mirRegion x r).1 + (s.mirRegion x r).2))

/-- A write at `a` of side `x` would enter a region that the other side mirrors to it, while that side is not LOST (R278). -/
def State.mirLocked (s : State) (x : Side) (a : Nat) : Bool :=
  s.mirrored x.other a && !(s.side x).peerLost

/-- Some byte of `n` from `a` lies under the lock of an incoming region (R278). -/
def State.mirLockedRange (s : State) (x : Side) (a n : Nat) : Bool :=
  (List.range ((a + n - 1) / 4096 - a / 4096 + 1)).any (fun i => s.mirLocked x (max a (a / 4096 * 4096 + i * 4096)))

/-- A line address put into a rising list. -/
def insertLine (l : List Nat) (a : Nat) : List Nat :=
  match l with
  | [] => [a]
  | b :: t => if a = b then l else if a < b then a :: l else b :: insertLine t a

/-- The lines of `n` bytes from `a` marked dirty where an outgoing region holds them (R277). -/
def State.touch (s : State) (x : Side) (a n : Nat) : State :=
  let v := s.side x
  let ls := (List.range ((a + n + 63) / 64 - a / 64)).map (fun i => (a / 64 + i) * 64)
  s.setSide x { v with dirty := (ls.filter (s.mirrored x)).foldl insertLine v.dirty }

/-- A write to `n` bytes from `a` ends the reservations of the cores of side `x` on their lines. The reserved range is the 64-byte line:
PRESUMED (log entry 85). -/
def State.unreserve (s : State) (x : Side) (a n : Nat) : State :=
  s.each (List.range 6) (fun s h => match (s.hart x h).resv with
    | some r => if a / 64 ≤ r / 64 ∧ r / 64 < (a + n + 63) / 64 then s.setHart x h { s.hart x h with resv := none } else s
    | none => s)

/-- Bytes written into a side's memory, with the dirty bits of the lines. -/
def State.write (s : State) (x : Side) (a : Nat) (bs : List Nat) : State :=
  ((s.store x a bs).touch x a bs.length).unreserve x a bs.length

/-- The lines of region `r` that a checkpoint copies: all of them, or the dirty ones and the highest line, which always comes
last (R277). -/
def State.ckptRegion (s : State) (x : Side) (full : Bool) (r : Nat) : List (Nat × Nat) :=
  let (b, n) := s.mirRegion x r
  if n = 0 then []
  else if full then (List.range (n / 64)).map (fun i => (r, b + 64 * i))
  else
    let last := b + n - 64
    (((s.side x).dirty.filter (fun a => decide (b ≤ a ∧ a < last))).map (fun a => (r, a))) ++ [(r, last)]

/-- A checkpoint begins: a snapshot of the dirty bits (R277). `slot` is its scheduled instant, 0 for one that GO starts. One that is
due while another runs is skipped and counted. -/
def State.ckptStart (s : State) (x : Side) (slot : Nat) : State :=
  let v := s.side x
  if v.ckpt.isSome then s.inc (.side x) F.SIDE_CKPT_SKIP_COUNT 0
  else
    let ls := (List.range 16).flatMap (s.ckptRegion x v.ckptFull)
    s.setSide x { v with ckpt := some ⟨ls, slot⟩, dirty := [], ckptFull := false }

/-- Lines copied into the other side's SRAM, each whole, the last remembered there (R277, R278). -/
def State.copyLines (s : State) (x : Side) (ls : List (Nat × Nat)) : State :=
  s.each ls (fun s l =>
    let s := (s.store x.other l.2 (s.load x l.2 64)).unreserve x.other l.2 64
    let s := s.setSide x.other { s.side x.other with mirLast := some l }
    s.inc (.side x) F.SIDE_MIRROR_LINES 0)

/-- MIRROR_CURRENT of side `x`: every enabled outgoing region has completed a checkpoint that began at one of the last two scheduled
instants (R278). -/
def State.mirCurrent (s : State) (x : Side) : Bool :=
  (List.range 16).all (fun r => (s.mirRegion x r).2 == 0 ||
    decide (0 < Tab.at 0 (s.side x).ckptDone r ∧ (s.side x).ckptSlot ≤ Tab.at 0 (s.side x).ckptDone r + 1))

/-- SIDE_STATUS.MIRROR_CURRENT brought in line, and with it what R279 waits for. -/
def State.showMirror (s : State) (x : Side) : State :=
  (s.set (.side x) F.SIDE_STATUS_MIRROR_CURRENT 0 (b2n (s.is (.side x) F.SIDE_STATUS_CROSS_UP 0 && s.mirCurrent x))).returnWaits

/-- A running checkpoint of side `x` cut off once the lines `ls` have arrived (R278): a receiver that runs records the tear. -/
def State.ckptCut (s : State) (x : Side) (ls : List (Nat × Nat)) : State :=
  let s := s.setSide x { s.side x with ckpt := none, ckptFull := true }
  let y := x.other
  if ¬ s.fabric y then s
  else
    let s := s.copyLines x ls
    let l := ((s.side y).mirLast).getD (0, 0)
    let s := (s.set (.side y) F.SIDE_STATUS_MIRROR_TORN 0 1).inc (.side y) F.SIDE_CKPT_TORN_COUNT 0
    s.log y 0x509 18 [.nar 8 l.1, .wide l.2]

/-- A running checkpoint of side `x` cut off by the loss of the sender or of the cross link (R278): how many of its lines have arrived is
open, so a free value decides it. -/
def State.ckptTear (s : State) (x : Side) : State :=
  match (s.side x).ckpt with
  | none => s
  | some c => s.took.ckptCut x (c.lines.take (s.freeVal 64 % (c.lines.length + 1)))

/-- Mirroring stops in both directions, as side `x` sees it (R274, R278): the checkpoints that run are torn, and what side `x` sends next is
a full copy. -/
def State.mirrorStop (s : State) (x : Side) : State :=
  let s := (s.ckptTear x).ckptTear x.other
  (s.setSide x { s.side x with ckptFull := true, ckptDone := [] }).showMirror x

/-- The last line of the checkpoint of side `x` arrives (R277). A checkpoint waits for a line that is locked at either side (R302). One that
reads an uncorrectable word is cut off before the word's line: DESIGN CHOICE (log entry 110). -/
def State.ckptEnd (s : State) (x : Side) (lost corr : Option Word40) : State :=
  match (s.side x).ckpt with
  | none => s
  | some c =>
    let held := c.lines.any (fun l => s.engineWaits x l.2 64 || s.engineWaits x.other l.2 64)
    let bad := c.lines.find? (fun l => copyEcc lost none l.2 64 == .lost)
    if ¬ s.crossBoth then s.ckptTear x
    else if held then s
    else
      let s := c.lines.foldl (fun s l => (s.engineRead x 9 0 l.2 64 lost corr).2) s
      if bad.isSome then s.ckptCut x (c.lines.takeWhile (fun l => bad != some l)) else
      let s := s.copyLines x c.lines
      let v := s.side x
      let done := (c.lines.map (fun l => l.1)).foldl (fun t r => if c.slot = 0 then t else Tab.put 0 t r c.slot) v.ckptDone
      let s := s.setSide x { v with ckpt := none, ckptDone := done }
      ((s.inc (.side x) F.SIDE_CKPT_SEQ_TX 0).inc (.side x.other) F.SIDE_CKPT_SEQ_RX 0).showMirror x

end Sys2Proof.Machine
end

