-- ==== Sys2Proof/Machine/Harts.lean ====
section
/-! DEFINITION. The cores as far as their accesses and traps go (chapter 01 R20 to R25, R40, R42; 15 R421, R422, R433): CSR banks, traps,
the PMP, CSR accesses, the external interrupt input. What the manual takes over from the base architecture without saying it again
(bits of CSRs, PTEs and PMP entries) is marked PRESUMED. -/
namespace Sys2Proof.Machine
open Sys2Proof

/-! ## CSR banks (R421 to R423) -/

/-- CSR numbers of the base architecture. PRESUMED (log entry 85). -/
abbrev Csr.mstatus : Nat := 0x300
abbrev Csr.medeleg : Nat := 0x302
abbrev Csr.mideleg : Nat := 0x303
abbrev Csr.mie : Nat := 0x304
abbrev Csr.mtvec : Nat := 0x305
abbrev Csr.mepc : Nat := 0x341
abbrev Csr.mcause : Nat := 0x342
abbrev Csr.mtval : Nat := 0x343
abbrev Csr.stvec : Nat := 0x105
abbrev Csr.sepc : Nat := 0x141
abbrev Csr.scause : Nat := 0x142
abbrev Csr.stval : Nat := 0x143
abbrev Csr.satp : Nat := 0x180
abbrev Csr.vsstatus : Nat := 0x200
abbrev Csr.vstvec : Nat := 0x205
abbrev Csr.vsepc : Nat := 0x241
abbrev Csr.vscause : Nat := 0x242
abbrev Csr.vstval : Nat := 0x243
abbrev Csr.vsatp : Nat := 0x280
abbrev Csr.hstatus : Nat := 0x600
abbrev Csr.hedeleg : Nat := 0x602
abbrev Csr.hideleg : Nat := 0x603
abbrev Csr.hgatp : Nat := 0x680
abbrev Csr.pmpcfg0 : Nat := 0x3A0
abbrev Csr.pmpaddr0 : Nat := 0x3B0

/-- CSR `n` of world `w`'s bank (R422). -/
def Hart.csr (v : Hart) (w n : Nat) : Nat := Tab.at 0 (Tab.at [] v.banks w) n

/-- The hart with `a` in CSR `n` of world `w`'s bank. -/
def Hart.setCsr (v : Hart) (w n a : Nat) : Hart := { v with banks := Tab.put [] v.banks w (Tab.put 0 (Tab.at [] v.banks w) n a) }

/-- The world of core `h`: an application hart's current world, a pair core's HOME (R420, R421). -/
def State.coreWorld (s : State) (x : Side) (h : Nat) : Nat :=
  if h < 4 then s.get (.side x) F.WOT_HART_CURRENT h else s.get (.side x) F.WOT_HART_HOME h

/-- CSR 0xCC0 of application hart `h`: its current world and its gate depth (R421). -/
def State.worldCsr (s : State) (x : Side) (h : Nat) : Nat := s.coreWorld x h + 16 * (s.hart x h).frames.length

/-- mhartid of core `h` (R23). -/
def mhartid (x : Side) (h : Nat) : Nat := 8 * x.num + h

/-- The time CSR of side `x` (R23): 50 MHz of the local clock, never stepped; in limp clock its rate is within 1 % of that, by a free value
drawn as the oscillator took over. It counts from 0 as the side leaves reset, for which the rule gives no value: DESIGN CHOICE (log
entry 105). -/
def State.timeCsr (s : State) (x : Side) : Nat :=
  let n := s.now - (s.side x).resetAt
  (if (s.side x).limp then n * (990000 + (s.side x).limpRate % 20001) / 1000000 else n) / 20 % 2 ^ 64

/-- Core `h` is out of reset (R143, R284, R437). -/
def State.coreOn (s : State) (x : Side) (h : Nat) : Bool :=
  if h < 4 then (s.hart x h).run
  else s.is (.side x) (if h = 4 then F.PAIR_STATUS_CORE0_RUN else F.PAIR_STATUS_CORE1_RUN) 0

/-- Core `h` executes: out of reset, and not halted by the Poker but for the one instruction of a step (R452). -/
def State.coreRuns (s : State) (x : Side) (h : Nat) : Bool :=
  s.coreOn x h && !(if h < 4 then (s.hart x h).halted && !(s.hart x h).step
    else (s.side x).pairHalted && !(s.side x).pairStep.testBit (h - 4))

/-- Core `h` has executed an instruction: a step ends with it, for an application hart only in a world of the debug scope, so that a hart
that stepped into a world outside runs on to the matching GATE.RET (R452). -/
def State.stepEnd (s : State) (x : Side) (h : Nat) : State :=
  let v := s.hart x h
  if 4 ≤ h then s.setSide x { s.side x with pairStep := Machine.clearBit (s.side x).pairStep (h - 4) }
  else if v.step ∧ (s.get (.side x) F.POKER_STATUS_SCOPE 0).testBit (s.coreWorld x h) then s.setHart x h { v with step := false }
  else s

/-! ## Traps -/

/-- A status word as a trap leaves it: the interrupt enable bit `ie` moved to its previous bit `ie + 4` and cleared. -/
def trapStatus (v ie : Nat) : Nat :=
  let v := clearBit v (ie + 4)
  clearBit (if v.testBit ie then setBit v (ie + 4) else v) ie

/-- Where a trap of code `cause` goes by a vector register; `flag` is the interrupt bit of the cause register, 0 for an exception. -/
def trapPc (tvec cause flag : Nat) : Nat := tvec / 4 * 4 + (if flag ≠ 0 ∧ tvec % 4 = 1 then 4 * cause else 0)

/-- A trap taken in M mode in world `w`'s bank, the world unchanged (R421, R422). PRESUMED from the base architecture (log entry 85). -/
def Hart.trapM (v : Hart) (w cause flag tval epc : Nat) : Hart :=
  let st := trapStatus (v.csr w Csr.mstatus) 3
  let st := clearBit (clearBit (clearBit st 11) 12) 39 + v.priv % 4 * 2 ^ 11 + b2n v.virt * 2 ^ 39
  let t := (((v.setCsr w Csr.mstatus st).setCsr w Csr.mepc epc).setCsr w Csr.mcause (cause + flag)).setCsr w Csr.mtval tval
  { t with priv := 3, virt := false, pc := trapPc (v.csr w Csr.mtvec) cause flag, landing := none, resv := none }

/-- A trap delegated to HS mode. PRESUMED from the base architecture (log entry 85). -/
def Hart.trapS (v : Hart) (w cause flag tval epc : Nat) : Hart :=
  let st := clearBit (trapStatus (v.csr w Csr.mstatus) 1) 8 + v.priv % 2 * 2 ^ 8
  let t := (((v.setCsr w Csr.mstatus st).setCsr w Csr.sepc epc).setCsr w Csr.scause (cause + flag)).setCsr w Csr.stval tval
  let hs := clearBit (t.csr w Csr.hstatus) 7 + b2n v.virt * 2 ^ 7
  let t := t.setCsr w Csr.hstatus hs
  { t with priv := 1, virt := false, pc := trapPc (v.csr w Csr.stvec) cause flag, landing := none, resv := none }

/-- A trap delegated to VS mode. PRESUMED from the base architecture (log entry 85). -/
def Hart.trapVs (v : Hart) (w cause flag tval epc : Nat) : Hart :=
  let st := clearBit (trapStatus (v.csr w Csr.vsstatus) 1) 8 + v.priv % 2 * 2 ^ 8
  let t := (((v.setCsr w Csr.vsstatus st).setCsr w Csr.vsepc epc).setCsr w Csr.vscause (cause + flag)).setCsr w Csr.vstval tval
  { t with priv := 1, pc := trapPc (v.csr w Csr.vstvec) cause flag, landing := none, resv := none }

/-- A hart takes a trap in world `w`'s bank: delegated exceptions and interrupts go to HS or VS mode. -/
def Hart.trap (v : Hart) (w cause flag tval epc : Nat) : Hart :=
  if v.priv ≤ 1 ∧ (v.csr w (if flag = 0 then Csr.medeleg else Csr.mideleg)).testBit cause then
    if v.virt ∧ (v.csr w (if flag = 0 then Csr.hedeleg else Csr.hideleg)).testBit cause then v.trapVs w cause flag tval epc else v.trapS w cause flag tval epc
  else v.trapM w cause flag tval epc

/-- Core `h` takes an exception at its pc. -/
def State.exception (s : State) (x : Side) (h cause tval : Nat) : State :=
  s.setHart x h ((s.hart x h).trap (s.coreWorld x h) cause 0 tval (s.hart x h).pc)

/-! ## The external interrupt input (R40, R42) -/

/-- Source `n` is routed to core `h` of its side (R40): TARGET 0 to 3 an application core, 4 and 5 a pair core, 6 both. -/
def State.routedTo (s : State) (x : Side) (n h : Nat) : Bool :=
  let t := s.get (.side x) F.INTR_ROUTE_TARGET n
  t == h && decide (h < 6) || t == 6 && (h == 4 || h == 5)

/-- The external interrupt input of core `h` (R42): some source is routed to it, pending, and enabled in its world's page. -/
def State.extIrq (s : State) (x : Side) (h : Nat) : Bool :=
  (List.range 104).any (fun n => s.routedTo x n h && (s.get (.side x) F.INTR_PENDING (n / 32)).testBit (n % 32) &&
    (s.get (.side x) F.INTR_ENABLE (n / 32)).testBit (n % 32))

/-- Core `h` takes the external interrupt that its input raises, before its next instruction, unless it must land (R431) or its current
world's bank masks it; the bank of that world serves the interrupt and the world stays (R421, R433). The input is the machine external
interrupt, code 11, enabled by mie[11] and, in M mode, mstatus.MIE. PRESUMED (log entry 85). -/
def State.irqTake (s : State) (x : Side) (h : Nat) : State :=
  let v := s.hart x h
  let w := s.coreWorld x h
  if s.coreRuns x h ∧ v.landing = none ∧ s.extIrq x h ∧ (v.csr w Csr.mie).testBit 11 ∧
      (v.priv < 3 ∨ (v.csr w Csr.mstatus).testBit 3) then
    s.setHart x h (v.trap w 11 (if h < 4 then 2 ^ 63 else 2 ^ 31) 0 v.pc)
  else s

/-- Every core takes the interrupt that its input raises. -/
def State.irqAll (s : State) : State :=
  s.each [Side.a, Side.b] (fun s x => s.each (List.range 6) (fun s h => s.irqTake x h))

/-! ## Physical memory protection (R22) -/

/-- Configuration byte of PMP entry `i` in world `w`'s bank. -/
def Hart.pmpCfg (v : Hart) (w i : Nat) : Nat := v.csr w (Csr.pmpcfg0 + 2 * (i / 8)) / 2 ^ (8 * (i % 8)) % 256

/-- First address and end of PMP entry `i`, with the 4 KiB granularity of R22; an entry that is off, or a 4-byte region, covers nothing. -/
def Hart.pmpRange (v : Hart) (w i : Nat) : Nat × Nat :=
  let a := v.csr w (Csr.pmpaddr0 + i)
  match bits (v.pmpCfg w i) 4 3 with
  | 1 => (if i = 0 then 0 else v.csr w (Csr.pmpaddr0 + (i - 1)) / 1024 * 4096, a / 1024 * 4096)
  | 3 =>
    let p := a ||| 511
    ((p &&& (p + 1)) * 4, (p &&& (p + 1)) * 4 + ((p ^^^ (p + 1)) + 1) * 4)
  | _ => (0, 0)

/-- The PMP of world `w`'s bank lets `n` bytes at `a` be read (bit 0) or written (bit 1): the lowest-numbered entry that covers any of
them decides, and must cover them all; without one only M mode passes. -/
def Hart.pmpAllows (v : Hart) (w a n k : Nat) : Bool :=
  match (List.range 16).find? (fun i => let r := v.pmpRange w i; decide (r.1 < a + n ∧ a < r.2)) with
  | some i =>
    let c := v.pmpCfg w i
    let r := v.pmpRange w i
    decide (r.1 ≤ a ∧ a + n ≤ r.2) && ((v.priv == 3 && !c.testBit 7) || c.testBit k)
  | none => v.priv == 3

/-! ## CSR accesses (R421 to R423) -/

/-- The CSRs of a world's bank (R422). PRESUMED from the base architecture (log entry 85). -/
def bankedCsrs : List Nat :=
  [0x100, 0x104, 0x105, 0x106, 0x10A, 0x140, 0x141, 0x142, 0x143, 0x144, 0x180] ++
    [0x200, 0x204, 0x205, 0x240, 0x241, 0x242, 0x243, 0x244, 0x280] ++
    [0x300, 0x301, 0x302, 0x303, 0x304, 0x305, 0x306, 0x30A, 0x340, 0x341, 0x342, 0x343, 0x344, 0x34A, 0x34B] ++
    [0x600, 0x602, 0x603, 0x604, 0x605, 0x606, 0x607, 0x60A, 0x643, 0x644, 0x645, 0x64A, 0x680, 0x3A0, 0x3A2] ++
    (List.range 16).map (fun i => 0x3B0 + i)

/-- The mode of the hart may use a CSR of the level that stands in bits [9:8] of its number: 0 U, 1 S, 2 HS, 3 M. -/
def Hart.mayCsr (v : Hart) (n : Nat) : Bool :=
  match bits n 9 8 with
  | 0 => true
  | 1 => decide (1 ≤ v.priv)
  | 2 => v.priv == 3 || v.priv == 1 && !v.virt
  | _ => v.priv == 3

/-- In VS mode a supervisor CSR is its VS twin. -/
def Hart.csrTwin (v : Hart) (n : Nat) : Nat := if v.virt ∧ 0x100 ≤ n ∧ n < 0x200 ∧ bankedCsrs.contains (n + 0x100) then n + 0x100 else n

/-- What a read of CSR `n` by core `h` gives: the world CSR 0xCC0 of an application hart (R421), the time CSR and mhartid (R23), the CSRs of
the bank in force (R422); none for another one. -/
def State.csrValue (s : State) (x : Side) (h n : Nat) : Option Nat :=
  let v := s.hart x h
  if n = 0xCC0 ∧ h < 4 then some (s.worldCsr x h)
  else if n = 0xC01 then some (if h < 4 then s.timeCsr x else s.timeCsr x % 2 ^ 32)
  else if n = 0xC81 ∧ 4 ≤ h then some (s.timeCsr x / 2 ^ 32)
  else if n = 0xF14 ∧ v.priv = 3 then some (mhartid x h)
  else if bankedCsrs.contains n ∧ v.mayCsr n then some (v.csr (s.coreWorld x h) (v.csrTwin n))
  else none

/-- An instruction that core `h` may not execute or does not have raises an illegal-instruction exception, cause 2; the base architecture lets
mtval hold the instruction or zero, so it is a free value. -/
def State.illegal (s : State) (x : Side) (h : Nat) : State := s.took.exception x h 2 (s.freeVal 32)

/-- A read of CSR `n`, or a write of `data` to it, by core `h`. A write to a read-only CSR, 0xCC0 among them, is an illegal instruction
(R421). -/
def State.csrAccess (s : State) (x : Side) (h n : Nat) (data : Option Nat) : State :=
  let v := s.hart x h
  match s.csrValue x h n, data with
  | some r, none => { s with resp := .data r }
  | some _, some d =>
    if bits n 11 10 = 3 then s.illegal x h else s.setHart x h (v.setCsr (s.coreWorld x h) (v.csrTwin n) (d % 2 ^ (if h < 4 then 64 else 32)))
  | none, _ => s.illegal x h

end Sys2Proof.Machine
end

