-- ==== Sys2Proof/Machine/RegMap.lean ====
section
/-! DEFINITION. The register map (01 R36 to R38 and the register tables of every chapter): for each register or family its
holder, its offset in the holder's space, its indices, its width and its fields. Offsets of a side (and of the Ember, which
both sides reach at their own EMBER page, R157) count from 0x00_4000_0000, those of the Flue die from 0x00_5000_0000 and
those of a grate die from the start of the die. -/
namespace Sys2Proof.Machine
open Sys2Proof

/-- Rows 1 to 40 of the register map. -/
def regRows0 : List Reg :=
  [ ⟨"IDREV", 1, .side, 0x0, [], true,
      [F.IDREV_VENDOR, F.IDREV_PART, F.IDREV_MODREV, F.IDREV_SIDEREV, F.IDREV_FLUEREV, F.IDREV_GRATEREV, F.IDREV_SIDE]⟩,
    ⟨"PAIR_DRAM_WIN", 2, .side, 0xe0100, [], false,
      [F.PAIR_DRAM_WIN_WIN1, F.PAIR_DRAM_WIN_WIN0]⟩,
    ⟨"INTR_ROUTE", 3, .side, 0x131000, [⟨0, 128, 0x4⟩], false,
      [F.INTR_ROUTE_WORLD, F.INTR_ROUTE_TARGET, F.INTR_ROUTE_PRIO]⟩,
    ⟨"INTR_ENABLE", 4, .side, 0x132000, [⟨0, 8, 0x1000⟩, ⟨0, 4, 0x4⟩], false,
      [F.INTR_ENABLE]⟩,
    ⟨"INTR_PENDING", 5, .side, 0x132010, [⟨0, 8, 0x1000⟩, ⟨0, 4, 0x4⟩], false,
      [F.INTR_PENDING]⟩,
    ⟨"INTR_CLAIM", 6, .side, 0x132020, [⟨0, 8, 0x1000⟩], false,
      [F.INTR_CLAIM_VALID, F.INTR_CLAIM_SOURCE]⟩,
    ⟨"DMA_SRC", 7, .side, 0x160100, [⟨0, 32, 0x40⟩], true,
      [F.DMA_SRC]⟩,
    ⟨"DMA_DST", 8, .side, 0x160108, [⟨0, 32, 0x40⟩], true,
      [F.DMA_DST]⟩,
    ⟨"DMA_LEN", 9, .side, 0x160110, [⟨0, 32, 0x40⟩], false,
      [F.DMA_LEN]⟩,
    ⟨"DMA_CTRL", 10, .side, 0x160114, [⟨0, 32, 0x40⟩], false,
      [F.DMA_CTRL_IRQ_EN, F.DMA_CTRL_WORLD, F.DMA_CTRL_MODE, F.DMA_CTRL_GO]⟩,
    ⟨"DMA_STATUS", 11, .side, 0x160118, [⟨0, 32, 0x40⟩], false,
      [F.DMA_STATUS_ERRCODE, F.DMA_STATUS_ERR, F.DMA_STATUS_DONE, F.DMA_STATUS_BUSY]⟩,
    ⟨"FAB_GAP", 12, .side, 0x168000, [], false,
      [F.FAB_GAP]⟩,
    ⟨"FAB_PROXY_RESET", 13, .side, 0x168008, [], true,
      [F.FAB_PROXY_RESET]⟩,
    ⟨"FAB_PROXY_ABSENT", 14, .side, 0x168010, [], true,
      [F.FAB_PROXY_ABSENT]⟩,
    ⟨"FAB_REPLY_DISCARD", 15, .side, 0x168018, [], true,
      [F.FAB_REPLY_DISCARD]⟩,
    ⟨"FAB_GAP_COUNT", 16, .side, 0x168020, [⟨0, 4, 0x8⟩], true,
      [F.FAB_GAP_COUNT]⟩,
    ⟨"DOOR_CMD", 17, .side, 0x30000, [⟨0, 32, 0x80⟩], true,
      [F.DOOR_CMD]⟩,
    ⟨"DOOR_RPL", 18, .side, 0x30008, [⟨0, 32, 0x80⟩], true,
      [F.DOOR_RPL]⟩,
    ⟨"DOOR_STATUS", 19, .side, 0x30010, [⟨0, 32, 0x80⟩], false,
      [F.DOOR_STATUS_STALL, F.DOOR_STATUS_CMD_ERR, F.DOOR_STATUS_EVT_LOST, F.DOOR_STATUS_PARTIAL, F.DOOR_STATUS_OUTSTANDING, F.DOOR_STATUS_RPL_WORDS, F.DOOR_STATUS_CMD_CREDITS]⟩,
    ⟨"DOOR_CTRL", 20, .side, 0x30014, [⟨0, 32, 0x80⟩], false,
      [F.DOOR_CTRL]⟩,
    ⟨"DOOR_OWNER", 21, .side, 0x30018, [⟨0, 32, 0x80⟩], false,
      [F.DOOR_OWNER_ENABLED, F.DOOR_OWNER_WORLD]⟩,
    ⟨"DOOR_CMD_HI", 22, .side, 0x3001c, [⟨0, 32, 0x80⟩], false,
      [F.DOOR_CMD_HI]⟩,
    ⟨"DOOR_CMD_LO", 23, .side, 0x30020, [⟨0, 32, 0x80⟩], false,
      [F.DOOR_CMD_LO]⟩,
    ⟨"DOOR_RPL_HI", 24, .side, 0x30024, [⟨0, 32, 0x80⟩], false,
      [F.DOOR_RPL_HI]⟩,
    ⟨"DOOR_RPL_LO", 25, .side, 0x30028, [⟨0, 32, 0x80⟩], false,
      [F.DOOR_RPL_LO]⟩,
    ⟨"DOOR_TAKEN_COUNT", 26, .side, 0x30030, [⟨0, 32, 0x80⟩], true,
      [F.DOOR_TAKEN_COUNT]⟩,
    ⟨"DOOR_STALL_COUNT", 27, .side, 0x30038, [⟨0, 32, 0x80⟩], true,
      [F.DOOR_STALL_COUNT]⟩,
    ⟨"DOOR_EVT_LOST_COUNT", 28, .side, 0x30040, [⟨0, 32, 0x80⟩], true,
      [F.DOOR_EVT_LOST_COUNT]⟩,
    ⟨"DOOR_TAG_BUSY_COUNT", 29, .side, 0x30048, [⟨0, 32, 0x80⟩], true,
      [F.DOOR_TAG_BUSY_COUNT]⟩,
    ⟨"DOOR_DISCARD_COUNT", 30, .side, 0x30050, [⟨0, 32, 0x80⟩], true,
      [F.DOOR_DISCARD_COUNT]⟩,
    ⟨"DOOR_EVT", 31, .side, 0x32000, [⟨0, 8, 0x4⟩], false,
      [F.DOOR_EVT]⟩,
    ⟨"STOKE_STATUS", 32, .side, 0x40000, [], false,
      [F.STOKE_STATUS_ACTIVE, F.STOKE_STATUS_FULL, F.STOKE_STATUS_UNDERRUN, F.STOKE_STATUS_OVERRUN, F.STOKE_STATUS_FRAGMENT, F.STOKE_STATUS_TX_WORDS, F.STOKE_STATUS_RX_CREDITS, F.STOKE_STATUS_LAST]⟩,
    ⟨"STOKE_CFG", 33, .side, 0x40004, [], false,
      [F.STOKE_CFG_MODE, F.STOKE_CFG_ENABLE, F.STOKE_CFG_WORLD_MASK]⟩,
    ⟨"STOKE_PACKETS_COUNT", 34, .side, 0x40008, [], true,
      [F.STOKE_PACKETS_COUNT]⟩,
    ⟨"STOKE_FRAGMENT_COUNT", 35, .side, 0x40010, [], true,
      [F.STOKE_FRAGMENT_COUNT]⟩,
    ⟨"STOKE_OVERRUN_COUNT", 36, .side, 0x40018, [], true,
      [F.STOKE_OVERRUN_COUNT]⟩,
    ⟨"STOKE_OVERRUN_BITS", 37, .side, 0x40020, [], true,
      [F.STOKE_OVERRUN_BITS]⟩,
    ⟨"STOKE_UNDERRUN_COUNT", 38, .side, 0x40028, [], true,
      [F.STOKE_UNDERRUN_COUNT]⟩,
    ⟨"STOKE_FULL_COUNT", 39, .side, 0x40030, [], true,
      [F.STOKE_FULL_COUNT]⟩,
    ⟨"STOKER_STATE", 40, .side, 0x40100, [], false,
      [F.STOKER_STATE_LONG_QUEUE, F.STOKER_STATE_CHROMIR_QUEUE, F.STOKER_STATE_RESTARTING, F.STOKER_STATE_UPDATING, F.STOKER_STATE_CHROMIR_READY]⟩ ]

/-- Rows 41 to 80 of the register map. -/
def regRows1 : List Reg :=
  [ ⟨"STOKER_FAST_COUNT", 41, .side, 0x40108, [], true,
      [F.STOKER_FAST_COUNT]⟩,
    ⟨"STOKER_CHROMIR_COUNT", 42, .side, 0x40110, [], true,
      [F.STOKER_CHROMIR_COUNT]⟩,
    ⟨"STOKER_CHROMIR_MAX", 43, .side, 0x40118, [], true,
      [F.STOKER_CHROMIR_MAX]⟩,
    ⟨"STOKER_TIMEOUT_COUNT", 44, .side, 0x40120, [], true,
      [F.STOKER_TIMEOUT_COUNT]⟩,
    ⟨"STOKER_BUSY_UPDATE_COUNT", 45, .side, 0x40128, [], true,
      [F.STOKER_BUSY_UPDATE_COUNT]⟩,
    ⟨"STOKER_EVT_NONE_COUNT", 46, .side, 0x40130, [], true,
      [F.STOKER_EVT_NONE_COUNT]⟩,
    ⟨"CFG_GATE", 47, .side, 0x20100, [], false,
      [F.CFG_GATE_HARNESS_BURN, F.CFG_GATE_CAL_WRITE, F.CFG_GATE_FIELD_WRITE, F.CFG_GATE_IMAGE_LOAD]⟩,
    ⟨"CFG_MODE_ACTIVE", 48, .side, 0x20000, [], false,
      [F.CFG_MODE_ACTIVE]⟩,
    ⟨"CFG_MODE_CMD", 49, .side, 0x20004, [], false,
      [F.CFG_MODE_CMD]⟩,
    ⟨"CFG_MODE_HW", 50, .side, 0x20008, [], false,
      [F.CFG_MODE_HW]⟩,
    ⟨"CFG_STATUS", 51, .side, 0x2000c, [], false,
      [F.CFG_STATUS_FIELD_WRITTEN, F.CFG_STATUS_CLAMPED, F.CFG_STATUS_CAL_BAD, F.CFG_STATUS_REBOOT_PENDING, F.CFG_STATUS_IMAGE_MISMATCH, F.CFG_STATUS_MASK_DIVERGED, F.CFG_STATUS_DEFERRED, F.CFG_STATUS_PENDING]⟩,
    ⟨"CFG_STALE", 52, .side, 0x20010, [], false,
      [F.CFG_STALE_LOCAL, F.CFG_STALE_FLUE, F.CFG_STALE_GRATE]⟩,
    ⟨"CFG_COMMIT_SEQ", 53, .side, 0x20018, [], true,
      [F.CFG_COMMIT_SEQ]⟩,
    ⟨"CFG_DEFER_COUNT", 54, .side, 0x20020, [], true,
      [F.CFG_DEFER_COUNT]⟩,
    ⟨"CFG_STALE_COUNT", 55, .side, 0x20028, [], true,
      [F.CFG_STALE_COUNT]⟩,
    ⟨"CFG_MANTEL_VERSION", 56, .side, 0x20030, [], true,
      [F.CFG_MANTEL_VERSION]⟩,
    ⟨"CFG_MANTEL_PENDING", 57, .side, 0x20038, [], true,
      [F.CFG_MANTEL_PENDING]⟩,
    ⟨"CFG_OVL_VERSION", 58, .side, 0x20040, [⟨0, 12, 0x8⟩], true,
      [F.CFG_OVL_VERSION]⟩,
    ⟨"EMBER_STATE", 59, .ember, 0x10000, [], false,
      [F.EMBER_STATE_PENDING, F.EMBER_STATE_PEND_TARGET, F.EMBER_STATE_FEED_B_LOSS, F.EMBER_STATE_FEED_A_LOSS, F.EMBER_STATE_FLUE_NOREF, F.EMBER_STATE_LIMP_B, F.EMBER_STATE_LIMP_A, F.EMBER_STATE_SIDE_B_UP, F.EMBER_STATE_SIDE_A_UP, F.EMBER_STATE_CONFIRM_WAIT, F.EMBER_STATE_SHUTDOWN, F.EMBER_STATE_STATE]⟩,
    ⟨"EMBER_FEED_EVT", 60, .ember, 0x10004, [], false,
      [F.EMBER_FEED_EVT_B_OVER, F.EMBER_FEED_EVT_A_OVER, F.EMBER_FEED_EVT_B_RETURN, F.EMBER_FEED_EVT_A_RETURN, F.EMBER_FEED_EVT_B_LOSS, F.EMBER_FEED_EVT_A_LOSS, F.EMBER_FEED_EVT_B_LOW16, F.EMBER_FEED_EVT_A_LOW16]⟩,
    ⟨"EMBER_GATE", 61, .ember, 0x10008, [], false,
      [F.EMBER_GATE_COLD, F.EMBER_GATE_BANKED, F.EMBER_GATE_GLOWING]⟩,
    ⟨"EMBER_WAKE_CFG", 62, .ember, 0x1000c, [], false,
      [F.EMBER_WAKE_CFG_LOC_POL, F.EMBER_WAKE_CFG_LOC_EN]⟩,
    ⟨"EMBER_WAKE_TARGET", 63, .ember, 0x10010, [], false,
      [F.EMBER_WAKE_TARGET_FEED, F.EMBER_WAKE_TARGET_ETH, F.EMBER_WAKE_TARGET_CAN, F.EMBER_WAKE_TARGET_RTC, F.EMBER_WAKE_TARGET_LOC, F.EMBER_WAKE_TARGET_KL15]⟩,
    ⟨"EMBER_TC10", 64, .ember, 0x10014, [], false,
      [F.EMBER_TC10_FWD, F.EMBER_TC10_EN]⟩,
    ⟨"EMBER_TIMING", 65, .ember, 0x10018, [], false,
      [F.EMBER_TIMING_LOC_DEB, F.EMBER_TIMING_KL15_DEB, F.EMBER_TIMING_CONFIRM]⟩,
    ⟨"EMBER_BANK_TIME", 66, .ember, 0x1001c, [], false,
      [F.EMBER_BANK_TIME_LIMIT, F.EMBER_BANK_TIME_ALARM]⟩,
    ⟨"EMBER_FEED_A_V", 67, .ember, 0x10020, [], true,
      [F.EMBER_FEED_A_V]⟩,
    ⟨"EMBER_FEED_B_V", 68, .ember, 0x10028, [], true,
      [F.EMBER_FEED_B_V]⟩,
    ⟨"EMBER_WREC", 69, .ember, 0x10040, [⟨0, 4, 0x8⟩], true,
      [F.EMBER_WREC]⟩,
    ⟨"EMBER_WAKE_COUNT", 70, .ember, 0x10060, [], true,
      [F.EMBER_WAKE_COUNT]⟩,
    ⟨"EMBER_FALSE_WAKE_COUNT", 71, .ember, 0x10068, [], true,
      [F.EMBER_FALSE_WAKE_COUNT]⟩,
    ⟨"EMBER_FAILED_WAKE_COUNT", 72, .ember, 0x10070, [], true,
      [F.EMBER_FAILED_WAKE_COUNT]⟩,
    ⟨"EMBER_REWAKE_COUNT", 73, .ember, 0x10078, [], true,
      [F.EMBER_REWAKE_COUNT]⟩,
    ⟨"MEAS_I", 74, .grate, 0x400000, [⟨0, 16, 0x40⟩], true,
      [F.MEAS_I]⟩,
    ⟨"MEAS_V", 75, .grate, 0x400008, [⟨0, 16, 0x40⟩], true,
      [F.MEAS_V]⟩,
    ⟨"MEAS_TJ", 76, .grate, 0x400010, [⟨0, 16, 0x40⟩], true,
      [F.MEAS_TJ]⟩,
    ⟨"MEAS_E", 77, .grate, 0x400018, [⟨0, 16, 0x40⟩], true,
      [F.MEAS_E]⟩,
    ⟨"MEAS_TICK", 78, .grate, 0x400020, [⟨0, 16, 0x40⟩], true,
      [F.MEAS_TICK]⟩,
    ⟨"MEAS_FEED_V", 79, .grate, 0x400400, [], true,
      [F.MEAS_FEED_V]⟩,
    ⟨"MEAS_FEED_I", 80, .grate, 0x400408, [], true,
      [F.MEAS_FEED_I]⟩ ]

/-- Rows 81 to 120 of the register map. -/
def regRows2 : List Reg :=
  [ ⟨"MEAS_DIE_TICK", 81, .grate, 0x400410, [], true,
      [F.MEAS_DIE_TICK]⟩,
    ⟨"MEAS_STATUS", 82, .grate, 0x400418, [], false,
      [F.MEAS_STATUS_FEED_OV, F.MEAS_STATUS_FEED_REVERSED, F.MEAS_STATUS_FEED_ABSENT, F.MEAS_STATUS_TICK_FREE]⟩,
    ⟨"CH_STATE", 83, .grate, 0x10000, [⟨0, 16, 0x1000⟩], false,
      [F.CH_STATE_SAT, F.CH_STATE_MODE, F.CH_STATE_RETRIES_USED, F.CH_STATE_SPARK_LAST, F.CH_STATE_OWNER, F.CH_STATE_PRIO, F.CH_STATE_HELD, F.CH_STATE_CMD_ON, F.CH_STATE_FAULT, F.CH_STATE_STATE]⟩,
    ⟨"CH_DIAG", 84, .grate, 0x10004, [⟨0, 16, 0x1000⟩], false,
      [F.CH_DIAG]⟩,
    ⟨"CH_RETRY", 85, .grate, 0x10008, [⟨0, 16, 0x1000⟩], false,
      [F.CH_RETRY_INTERVAL, F.CH_RETRY_LIMIT, F.CH_RETRY_POLICY]⟩,
    ⟨"CH_PWM_FREQ", 86, .grate, 0x1000c, [⟨0, 16, 0x1000⟩], false,
      [F.CH_PWM_FREQ_COMP, F.CH_PWM_FREQ_PHASE, F.CH_PWM_FREQ_FREQ]⟩,
    ⟨"CH_PWM_DUTY", 87, .grate, 0x10010, [⟨0, 16, 0x1000⟩], false,
      [F.CH_PWM_DUTY_DEFF, F.CH_PWM_DUTY_DUTY]⟩,
    ⟨"CH_ILIM_CMD", 88, .grate, 0x10018, [⟨0, 16, 0x1000⟩], true,
      [F.CH_ILIM_CMD]⟩,
    ⟨"CH_ILIM_EFF", 89, .grate, 0x10020, [⟨0, 16, 0x1000⟩], true,
      [F.CH_ILIM_EFF]⟩,
    ⟨"CH_ILIM_CEIL", 90, .grate, 0x10028, [⟨0, 16, 0x1000⟩], true,
      [F.CH_ILIM_CEIL]⟩,
    ⟨"CH_OPEN_TH", 91, .grate, 0x10030, [⟨0, 16, 0x1000⟩], true,
      [F.CH_OPEN_TH]⟩,
    ⟨"CH_VREF", 92, .grate, 0x10038, [⟨0, 16, 0x1000⟩], true,
      [F.CH_VREF]⟩,
    ⟨"CH_CFG0", 93, .grate, 0x10040, [⟨0, 16, 0x1000⟩], false,
      [F.CH_CFG0_PWM_SLEW, F.CH_CFG0_SLEW_DEF]⟩,
    ⟨"CH_CFG1", 94, .grate, 0x10044, [⟨0, 16, 0x1000⟩], false,
      [F.CH_CFG1_INRUSH_MAX, F.CH_CFG1_RETRY_CEIL, F.CH_CFG1_DIAG_EN, F.CH_CFG1_RETRY_MIN]⟩,
    ⟨"CH_CFG2", 95, .grate, 0x10048, [⟨0, 16, 0x1000⟩], false,
      [F.CH_CFG2]⟩,
    ⟨"CH_TURN_ON_COUNT", 96, .grate, 0x10100, [⟨0, 16, 0x1000⟩], true,
      [F.CH_TURN_ON_COUNT]⟩,
    ⟨"CH_LIMIT_COUNT", 97, .grate, 0x10108, [⟨0, 16, 0x1000⟩], true,
      [F.CH_LIMIT_COUNT]⟩,
    ⟨"CH_TSD_COUNT", 98, .grate, 0x10110, [⟨0, 16, 0x1000⟩], true,
      [F.CH_TSD_COUNT]⟩,
    ⟨"CH_RETRY_COUNT", 99, .grate, 0x10118, [⟨0, 16, 0x1000⟩], true,
      [F.CH_RETRY_COUNT]⟩,
    ⟨"CH_LATCH_COUNT", 100, .grate, 0x10120, [⟨0, 16, 0x1000⟩], true,
      [F.CH_LATCH_COUNT]⟩,
    ⟨"CH_EVT_SUPPRESS_COUNT", 101, .grate, 0x10128, [⟨0, 16, 0x1000⟩], true,
      [F.CH_EVT_SUPPRESS_COUNT]⟩,
    ⟨"CH_PWM_CLIP_COUNT", 102, .grate, 0x10130, [⟨0, 16, 0x1000⟩], true,
      [F.CH_PWM_CLIP_COUNT]⟩,
    ⟨"DMP_CFG", 103, .grate, 0x100000, [], false,
      [F.DMP_CFG]⟩,
    ⟨"DMP_BUDGET_MOD", 104, .grate, 0x100008, [], true,
      [F.DMP_BUDGET_MOD]⟩,
    ⟨"DMP_BUDGET_FEED", 105, .grate, 0x100010, [], true,
      [F.DMP_BUDGET_FEED]⟩,
    ⟨"DMP_DISS_CEIL", 106, .grate, 0x100018, [], true,
      [F.DMP_DISS_CEIL]⟩,
    ⟨"DMP_RES_MOD", 107, .grate, 0x100020, [], true,
      [F.DMP_RES_MOD]⟩,
    ⟨"DMP_RES_FEED", 108, .grate, 0x100028, [], true,
      [F.DMP_RES_FEED]⟩,
    ⟨"DMP_RES_DISS", 109, .grate, 0x100030, [], true,
      [F.DMP_RES_DISS]⟩,
    ⟨"DMP_CLAIM", 110, .grate, 0x100038, [⟨1, 4, 0x8⟩], true,
      [F.DMP_CLAIM]⟩,
    ⟨"DMP_P0", 111, .grate, 0x100058, [⟨1, 4, 0x8⟩], true,
      [F.DMP_P0]⟩,
    ⟨"DMP_DISS_BUDGET", 112, .grate, 0x100080, [], true,
      [F.DMP_DISS_BUDGET]⟩,
    ⟨"DMP_LOGIC_W", 113, .grate, 0x100088, [], true,
      [F.DMP_LOGIC_W]⟩,
    ⟨"DMP_COOLANT", 114, .grate, 0x100090, [], true,
      [F.DMP_COOLANT]⟩,
    ⟨"DMP_STATUS", 115, .grate, 0x100098, [], false,
      [F.DMP_STATUS_SENSOR_BAD, F.DMP_STATUS_UNCAL, F.DMP_STATUS_BUS_GAP, F.DMP_STATUS_BUDGET_OVER, F.DMP_STATUS_P0_OVER, F.DMP_STATUS_RIDE_B, F.DMP_STATUS_RIDE_A, F.DMP_STATUS_DERATE_HW]⟩,
    ⟨"DMP_HOLD_COUNT", 116, .grate, 0x1000a0, [], true,
      [F.DMP_HOLD_COUNT]⟩,
    ⟨"DMP_HOLD_ADMIT_COUNT", 117, .grate, 0x1000a8, [], true,
      [F.DMP_HOLD_ADMIT_COUNT]⟩,
    ⟨"DMP_REFUSE_BUDGET_COUNT", 118, .grate, 0x1000b0, [], true,
      [F.DMP_REFUSE_BUDGET_COUNT]⟩,
    ⟨"DMP_REFUSE_LIMIT_COUNT", 119, .grate, 0x1000b8, [], true,
      [F.DMP_REFUSE_LIMIT_COUNT]⟩,
    ⟨"DMP_SHED_COUNT", 120, .grate, 0x1000c0, [], true,
      [F.DMP_SHED_COUNT]⟩ ]

/-- Rows 121 to 160 of the register map. -/
def regRows3 : List Reg :=
  [ ⟨"DMP_SPARK_REFUSE_COUNT", 121, .grate, 0x1000c8, [], true,
      [F.DMP_SPARK_REFUSE_COUNT]⟩,
    ⟨"DMP_CH_CFG", 122, .grate, 0x101000, [⟨0, 16, 0x40⟩], false,
      [F.DMP_CH_CFG_HOLD, F.DMP_CH_CFG_PRIO]⟩,
    ⟨"DMP_CH_ADMIT", 123, .grate, 0x101008, [⟨0, 16, 0x40⟩], true,
      [F.DMP_CH_ADMIT]⟩,
    ⟨"DMP_CH_CLAIM", 124, .grate, 0x101010, [⟨0, 16, 0x40⟩], true,
      [F.DMP_CH_CLAIM]⟩,
    ⟨"DMP_CH_STATUS", 125, .grate, 0x101018, [⟨0, 16, 0x40⟩], false,
      [F.DMP_CH_STATUS_SHED, F.DMP_CH_STATUS_HELD_SIDE, F.DMP_CH_STATUS_HELD_TAG, F.DMP_CH_STATUS_TURN_ONS]⟩,
    ⟨"DMP_CH_HOLD_LEFT", 126, .grate, 0x10101c, [⟨0, 16, 0x40⟩], false,
      [F.DMP_CH_HOLD_LEFT]⟩,
    ⟨"DMP_CH_REFUSE_COUNT", 127, .grate, 0x101020, [⟨0, 16, 0x40⟩], true,
      [F.DMP_CH_REFUSE_COUNT]⟩,
    ⟨"DMP_CH_SHED_COUNT", 128, .grate, 0x101028, [⟨0, 16, 0x40⟩], true,
      [F.DMP_CH_SHED_COUNT]⟩,
    ⟨"WIRE_THETA", 129, .grate, 0x200000, [⟨0, 16, 0x40⟩], true,
      [F.WIRE_THETA]⟩,
    ⟨"WIRE_ISQ", 130, .grate, 0x200008, [⟨0, 16, 0x40⟩], true,
      [F.WIRE_ISQ]⟩,
    ⟨"WIRE_STATUS", 131, .grate, 0x200010, [⟨0, 16, 0x40⟩], false,
      [F.WIRE_STATUS_COOLING, F.WIRE_STATUS_TRIPPED]⟩,
    ⟨"WIRE_TRIP_COUNT", 132, .grate, 0x200018, [⟨0, 16, 0x40⟩], true,
      [F.WIRE_TRIP_COUNT]⟩,
    ⟨"HRN_STATUS", 133, .grate, 0x300040, [⟨0, 16, 0x80⟩], false,
      [F.HRN_STATUS_BAD, F.HRN_STATUS_SLOT1_VOID, F.HRN_STATUS_SLOT0_VOID, F.HRN_STATUS_SLOT, F.HRN_STATUS_BURNED]⟩,
    ⟨"SPK_GATE", 134, .side, 0x50000, [], false,
      [F.SPK_GATE_ENABLE, F.SPK_GATE_WRITE]⟩,
    ⟨"SPK_GATE", 134, .flue, 0x6000000, [], false,
      [F.SPK_GATE_ENABLE, F.SPK_GATE_WRITE]⟩,
    ⟨"SPK_WORLD_RUN", 135, .side, 0x50004, [], false,
      [F.SPK_WORLD_RUN]⟩,
    ⟨"SPK_WORLD_RUN", 135, .flue, 0x6000004, [], false,
      [F.SPK_WORLD_RUN]⟩,
    ⟨"SPK_STATUS", 136, .side, 0x50008, [], false,
      [F.SPK_STATUS_THRESH, F.SPK_STATUS_SEAL_FAIL, F.SPK_STATUS_REFUSED, F.SPK_STATUS_READY]⟩,
    ⟨"SPK_STATUS", 136, .flue, 0x6000008, [], false,
      [F.SPK_STATUS_THRESH, F.SPK_STATUS_SEAL_FAIL, F.SPK_STATUS_REFUSED, F.SPK_STATUS_READY]⟩,
    ⟨"SPK_FIRE_LIMIT", 137, .side, 0x5000c, [], false,
      [F.SPK_FIRE_LIMIT]⟩,
    ⟨"SPK_FIRE_LIMIT", 137, .flue, 0x600000c, [], false,
      [F.SPK_FIRE_LIMIT]⟩,
    ⟨"SPK_FIRE_COUNT", 138, .side, 0x50010, [], true,
      [F.SPK_FIRE_COUNT]⟩,
    ⟨"SPK_FIRE_COUNT", 138, .flue, 0x6000010, [], true,
      [F.SPK_FIRE_COUNT]⟩,
    ⟨"SPK_REFUSED_COUNT", 139, .side, 0x50018, [], true,
      [F.SPK_REFUSED_COUNT]⟩,
    ⟨"SPK_REFUSED_COUNT", 139, .flue, 0x6000018, [], true,
      [F.SPK_REFUSED_COUNT]⟩,
    ⟨"SPK_MASKED_COUNT", 140, .side, 0x50020, [], true,
      [F.SPK_MASKED_COUNT]⟩,
    ⟨"SPK_MASKED_COUNT", 140, .flue, 0x6000020, [], true,
      [F.SPK_MASKED_COUNT]⟩,
    ⟨"SPK_HOLDOFF_COUNT", 141, .side, 0x50028, [], true,
      [F.SPK_HOLDOFF_COUNT]⟩,
    ⟨"SPK_HOLDOFF_COUNT", 141, .flue, 0x6000028, [], true,
      [F.SPK_HOLDOFF_COUNT]⟩,
    ⟨"SPK_SEAL_FAIL_COUNT", 142, .side, 0x50030, [], true,
      [F.SPK_SEAL_FAIL_COUNT]⟩,
    ⟨"SPK_SEAL_FAIL_COUNT", 142, .flue, 0x6000030, [], true,
      [F.SPK_SEAL_FAIL_COUNT]⟩,
    ⟨"SPK_LINE_WAIT_COUNT", 143, .side, 0x50038, [], true,
      [F.SPK_LINE_WAIT_COUNT]⟩,
    ⟨"SPK_LINE_WAIT_COUNT", 143, .flue, 0x6000038, [], true,
      [F.SPK_LINE_WAIT_COUNT]⟩,
    ⟨"SPK_EVT_SUPPRESS_COUNT", 144, .side, 0x50040, [], true,
      [F.SPK_EVT_SUPPRESS_COUNT]⟩,
    ⟨"SPK_EVT_SUPPRESS_COUNT", 144, .flue, 0x6000040, [], true,
      [F.SPK_EVT_SUPPRESS_COUNT]⟩,
    ⟨"SPK_RULE_W", 145, .side, 0x50ff8, [⟨0, 256, 0x80⟩, ⟨1, 12, 0x8⟩], true,
      [F.SPK_RULE_W]⟩,
    ⟨"SPK_RULE_W", 145, .flue, 0x6000ff8, [⟨0, 128, 0x80⟩, ⟨1, 12, 0x8⟩], true,
      [F.SPK_RULE_W]⟩,
    ⟨"SPK_RULE_CTRL", 146, .side, 0x51060, [⟨0, 256, 0x80⟩], false,
      [F.SPK_RULE_CTRL_COMPARED, F.SPK_RULE_CTRL_OWNER, F.SPK_RULE_CTRL_ENABLED]⟩,
    ⟨"SPK_RULE_CTRL", 146, .flue, 0x6001060, [⟨0, 128, 0x80⟩], false,
      [F.SPK_RULE_CTRL_COMPARED, F.SPK_RULE_CTRL_OWNER, F.SPK_RULE_CTRL_ENABLED]⟩,
    ⟨"SPK_RULE_FIRES", 147, .side, 0x51068, [⟨0, 256, 0x80⟩], true,
      [F.SPK_RULE_FIRES]⟩ ]

/-- Rows 161 to 200 of the register map. -/
def regRows4 : List Reg :=
  [ ⟨"SPK_RULE_FIRES", 147, .flue, 0x6001068, [⟨0, 128, 0x80⟩], true,
      [F.SPK_RULE_FIRES]⟩,
    ⟨"SPK_RULE_REFUSED", 148, .side, 0x51070, [⟨0, 256, 0x80⟩], true,
      [F.SPK_RULE_REFUSED]⟩,
    ⟨"SPK_RULE_REFUSED", 148, .flue, 0x6001070, [⟨0, 128, 0x80⟩], true,
      [F.SPK_RULE_REFUSED]⟩,
    ⟨"SPK_RULE_DENIED", 149, .side, 0x51078, [⟨0, 256, 0x80⟩], true,
      [F.SPK_RULE_DENIED]⟩,
    ⟨"SPK_RULE_DENIED", 149, .flue, 0x6001078, [⟨0, 128, 0x80⟩], true,
      [F.SPK_RULE_DENIED]⟩,
    ⟨"SPK_RULE_LAST_S", 150, .side, 0x5a000, [⟨0, 256, 0x10⟩], true,
      [F.SPK_RULE_LAST_S]⟩,
    ⟨"SPK_RULE_LAST_S", 150, .flue, 0x600a000, [⟨0, 128, 0x10⟩], true,
      [F.SPK_RULE_LAST_S]⟩,
    ⟨"SPK_RULE_LAST_NS", 151, .side, 0x5a008, [⟨0, 256, 0x10⟩], true,
      [F.SPK_RULE_LAST_NS]⟩,
    ⟨"SPK_RULE_LAST_NS", 151, .flue, 0x600a008, [⟨0, 128, 0x10⟩], true,
      [F.SPK_RULE_LAST_NS]⟩,
    ⟨"CH_SPARK", 152, .grate, 0x1004c, [⟨0, 16, 0x1000⟩], false,
      [F.CH_SPARK]⟩,
    ⟨"GRATE_TOKEN", 153, .grate, 0x0, [], false,
      [F.GRATE_TOKEN_LOSS, F.GRATE_TOKEN_WINDOW, F.GRATE_TOKEN_CLAIMANT, F.GRATE_TOKEN_STATE, F.GRATE_TOKEN_HOLDER]⟩,
    ⟨"GRATE_HB_AGE_A", 154, .grate, 0x8, [], true,
      [F.GRATE_HB_AGE_A]⟩,
    ⟨"GRATE_HB_AGE_B", 155, .grate, 0x10, [], true,
      [F.GRATE_HB_AGE_B]⟩,
    ⟨"GRATE_TOKEN_CHANGE_COUNT", 156, .grate, 0x18, [], true,
      [F.GRATE_TOKEN_CHANGE_COUNT]⟩,
    ⟨"GRATE_LAPSE_COUNT", 157, .grate, 0x20, [], true,
      [F.GRATE_LAPSE_COUNT]⟩,
    ⟨"GRATE_LATE_APPLIED_COUNT", 158, .grate, 0x28, [], true,
      [F.GRATE_LATE_APPLIED_COUNT]⟩,
    ⟨"GRATE_LATE_REFUSED_COUNT", 159, .grate, 0x30, [], true,
      [F.GRATE_LATE_REFUSED_COUNT]⟩,
    ⟨"GRATE_LAST_CHANGE_S", 160, .grate, 0x38, [], true,
      [F.GRATE_LAST_CHANGE_S]⟩,
    ⟨"GRATE_LAST_CHANGE_NS", 161, .grate, 0x40, [], true,
      [F.GRATE_LAST_CHANGE_NS]⟩,
    ⟨"PAIR_CFG", 162, .side, 0xe0000, [], false,
      [F.PAIR_CFG_WINDOW, F.PAIR_CFG_DOOR, F.PAIR_CFG_RESTARTS, F.PAIR_CFG_ON_MISMATCH, F.PAIR_CFG_MODE]⟩,
    ⟨"PAIR_STATUS", 163, .side, 0xe0004, [], false,
      [F.PAIR_STATUS_KIND, F.PAIR_STATUS_HALTED, F.PAIR_STATUS_MISMATCH, F.PAIR_STATUS_SPLIT, F.PAIR_STATUS_CORE1_RUN, F.PAIR_STATUS_CORE0_RUN]⟩,
    ⟨"PAIR_OUT_HI", 164, .side, 0xe0010, [], false,
      [F.PAIR_OUT_HI]⟩,
    ⟨"PAIR_OUT_LO", 165, .side, 0xe0014, [], false,
      [F.PAIR_OUT_LO]⟩,
    ⟨"PAIR_RPL_HI", 166, .side, 0xe0018, [], false,
      [F.PAIR_RPL_HI]⟩,
    ⟨"PAIR_RPL_LO", 167, .side, 0xe001c, [], false,
      [F.PAIR_RPL_LO]⟩,
    ⟨"PAIR_SIG_HI", 168, .side, 0xe0020, [], false,
      [F.PAIR_SIG_HI]⟩,
    ⟨"PAIR_SIG_LO", 169, .side, 0xe0024, [], false,
      [F.PAIR_SIG_LO]⟩,
    ⟨"PAIR_LEVEL", 170, .side, 0xe0028, [], false,
      [F.PAIR_LEVEL_RPL_WORDS, F.PAIR_LEVEL_OUT_CREDITS]⟩,
    ⟨"PAIR_COMPARED_COUNT", 171, .side, 0xe0040, [], true,
      [F.PAIR_COMPARED_COUNT]⟩,
    ⟨"PAIR_MISMATCH_COUNT", 172, .side, 0xe0048, [], true,
      [F.PAIR_MISMATCH_COUNT]⟩,
    ⟨"PAIR_SIG_COUNT", 173, .side, 0xe0050, [], true,
      [F.PAIR_SIG_COUNT]⟩,
    ⟨"PAIR_RESTART_COUNT", 174, .side, 0xe0058, [], true,
      [F.PAIR_RESTART_COUNT]⟩,
    ⟨"SIDE_STATUS", 175, .side, 0x130000, [], false,
      [F.SIDE_STATUS_RETURN_WAIT, F.SIDE_STATUS_MIRROR_TORN, F.SIDE_STATUS_SPLIT, F.SIDE_STATUS_HEALTHY, F.SIDE_STATUS_RETURN_HOME, F.SIDE_STATUS_MIRROR_CURRENT, F.SIDE_STATUS_CROSS_UP, F.SIDE_STATUS_PEER_HEALTHY, F.SIDE_STATUS_NET_HELD, F.SIDE_STATUS_GRATE_HELD]⟩,
    ⟨"SIDE_EVT", 176, .side, 0x130004, [], false,
      [F.SIDE_EVT_VACANT, F.SIDE_EVT_PEER_BACK, F.SIDE_EVT_PEER_LOST, F.SIDE_EVT_CROSS_RESTORED, F.SIDE_EVT_CROSS_LOST, F.SIDE_EVT_TOKEN_LOSS, F.SIDE_EVT_TOKEN_GAIN]⟩,
    ⟨"SIDE_CFG", 177, .side, 0x130008, [], false,
      [F.SIDE_CFG_LOSS, F.SIDE_CFG_AUTO_CLAIM, F.SIDE_CFG_HOME]⟩,
    ⟨"SIDE_GATE", 178, .side, 0x13000c, [], false,
      [F.SIDE_GATE_NET_CLAIM, F.SIDE_GATE_CLAIM]⟩,
    ⟨"SIDE_RETURN", 179, .side, 0x130010, [], false,
      [F.SIDE_RETURN_HOLDOFF, F.SIDE_RETURN_RETURN_HOME]⟩,
    ⟨"SIDE_MIRROR_CFG", 180, .side, 0x130014, [], false,
      [F.SIDE_MIRROR_CFG]⟩,
    ⟨"SIDE_CKPT", 181, .side, 0x130018, [], false,
      [F.SIDE_CKPT]⟩,
    ⟨"SIDE_PEER_AGE", 182, .side, 0x130020, [], true,
      [F.SIDE_PEER_AGE]⟩ ]

/-- Rows 201 to 240 of the register map. -/
def regRows5 : List Reg :=
  [ ⟨"SIDE_CKPT_SEQ_TX", 183, .side, 0x130028, [], true,
      [F.SIDE_CKPT_SEQ_TX]⟩,
    ⟨"SIDE_CKPT_SEQ_RX", 184, .side, 0x130030, [], true,
      [F.SIDE_CKPT_SEQ_RX]⟩,
    ⟨"SIDE_MIRROR_BASE", 185, .side, 0x130100, [⟨0, 16, 0x10⟩], true,
      [F.SIDE_MIRROR_BASE]⟩,
    ⟨"SIDE_MIRROR_LEN", 186, .side, 0x130108, [⟨0, 16, 0x10⟩], false,
      [F.SIDE_MIRROR_LEN]⟩,
    ⟨"SIDE_TOKEN_GAIN_COUNT", 187, .side, 0x130200, [], true,
      [F.SIDE_TOKEN_GAIN_COUNT]⟩,
    ⟨"SIDE_TOKEN_LOSS_COUNT", 188, .side, 0x130208, [], true,
      [F.SIDE_TOKEN_LOSS_COUNT]⟩,
    ⟨"SIDE_CROSS_LOST_COUNT", 189, .side, 0x130210, [], true,
      [F.SIDE_CROSS_LOST_COUNT]⟩,
    ⟨"SIDE_CKPT_SKIP_COUNT", 190, .side, 0x130218, [], true,
      [F.SIDE_CKPT_SKIP_COUNT]⟩,
    ⟨"SIDE_CKPT_TORN_COUNT", 191, .side, 0x130220, [], true,
      [F.SIDE_CKPT_TORN_COUNT]⟩,
    ⟨"SIDE_MIRROR_LINES", 192, .side, 0x130228, [], true,
      [F.SIDE_MIRROR_LINES]⟩,
    ⟨"BRIDGE_STATUS", 193, .side, 0xf0000, [⟨0, 6, 0x100⟩], false,
      [F.BRIDGE_STATUS_OUTSTANDING, F.BRIDGE_STATUS_WR_PENDING, F.BRIDGE_STATUS_PWERR_OVF, F.BRIDGE_STATUS_PWERR, F.BRIDGE_STATUS_SPLIT_ACTIVE, F.BRIDGE_STATUS_LINK_UP, F.BRIDGE_STATUS_FAR_PRESENT]⟩,
    ⟨"BRIDGE_CFG", 194, .side, 0xf0004, [⟨0, 6, 0x100⟩], false,
      [F.BRIDGE_CFG_TIMEOUT, F.BRIDGE_CFG_HOLD, F.BRIDGE_CFG_NONPOSTED]⟩,
    ⟨"BRIDGE_PWERR_ADDR", 195, .side, 0xf0008, [⟨0, 6, 0x100⟩], true,
      [F.BRIDGE_PWERR_ADDR]⟩,
    ⟨"BRIDGE_PWERR_INFO", 196, .side, 0xf0010, [⟨0, 6, 0x100⟩], false,
      [F.BRIDGE_PWERR_INFO_CAUSE, F.BRIDGE_PWERR_INFO_WORLD, F.BRIDGE_PWERR_INFO_INITIATOR, F.BRIDGE_PWERR_INFO_SIZE]⟩,
    ⟨"BRIDGE_READ_COUNT", 197, .side, 0xf0018, [⟨0, 6, 0x100⟩], true,
      [F.BRIDGE_READ_COUNT]⟩,
    ⟨"BRIDGE_WRITE_COUNT", 198, .side, 0xf0020, [⟨0, 6, 0x100⟩], true,
      [F.BRIDGE_WRITE_COUNT]⟩,
    ⟨"BRIDGE_SPLIT_COUNT", 199, .side, 0xf0028, [⟨0, 6, 0x100⟩], true,
      [F.BRIDGE_SPLIT_COUNT]⟩,
    ⟨"BRIDGE_TIMEOUT_COUNT", 200, .side, 0xf0030, [⟨0, 6, 0x100⟩], true,
      [F.BRIDGE_TIMEOUT_COUNT]⟩,
    ⟨"BRIDGE_PWERR_COUNT", 201, .side, 0xf0038, [⟨0, 6, 0x100⟩], true,
      [F.BRIDGE_PWERR_COUNT]⟩,
    ⟨"BRIDGE_FAR_RESET_COUNT", 202, .side, 0xf0040, [⟨0, 6, 0x100⟩], true,
      [F.BRIDGE_FAR_RESET_COUNT]⟩,
    ⟨"BRIDGE_LATE_DISCARD_COUNT", 203, .side, 0xf0048, [⟨0, 6, 0x100⟩], true,
      [F.BRIDGE_LATE_DISCARD_COUNT]⟩,
    ⟨"BRIDGE_AT_ADDR", 204, .side, 0xf1000, [], true,
      [F.BRIDGE_AT_ADDR]⟩,
    ⟨"BRIDGE_AT_CTRL", 205, .side, 0xf1008, [], false,
      [F.BRIDGE_AT_CTRL_GO, F.BRIDGE_AT_CTRL_SIZE, F.BRIDGE_AT_CTRL_OP]⟩,
    ⟨"BRIDGE_AT_STATUS", 206, .side, 0xf100c, [], false,
      [F.BRIDGE_AT_STATUS_CAUSE, F.BRIDGE_AT_STATUS_ERR, F.BRIDGE_AT_STATUS_DONE, F.BRIDGE_AT_STATUS_BUSY]⟩,
    ⟨"BRIDGE_AT_OPND_LO", 207, .side, 0xf1010, [], false,
      [F.BRIDGE_AT_OPND_LO]⟩,
    ⟨"BRIDGE_AT_OPND_HI", 208, .side, 0xf1014, [], false,
      [F.BRIDGE_AT_OPND_HI]⟩,
    ⟨"BRIDGE_AT_CMP_LO", 209, .side, 0xf1018, [], false,
      [F.BRIDGE_AT_CMP_LO]⟩,
    ⟨"BRIDGE_AT_CMP_HI", 210, .side, 0xf101c, [], false,
      [F.BRIDGE_AT_CMP_HI]⟩,
    ⟨"BRIDGE_AT_RES_LO", 211, .side, 0xf1020, [], false,
      [F.BRIDGE_AT_RES_LO]⟩,
    ⟨"BRIDGE_AT_RES_HI", 212, .side, 0xf1024, [], false,
      [F.BRIDGE_AT_RES_HI]⟩,
    ⟨"BRIDGE_LOCK_ADDR", 213, .side, 0xf1040, [], true,
      [F.BRIDGE_LOCK_ADDR]⟩,
    ⟨"BRIDGE_LOCK", 214, .side, 0xf1048, [], false,
      [F.BRIDGE_LOCK_PENDING, F.BRIDGE_LOCK_BROKEN, F.BRIDGE_LOCK_HELD, F.BRIDGE_LOCK_RELEASE, F.BRIDGE_LOCK_ACQUIRE]⟩,
    ⟨"BRIDGE_SWI", 215, .side, 0xf1200, [], false,
      [F.BRIDGE_SWI]⟩,
    ⟨"BRIDGE_ATOMIC_COUNT", 216, .side, 0xf1300, [], true,
      [F.BRIDGE_ATOMIC_COUNT]⟩,
    ⟨"BRIDGE_LOCK_COUNT", 217, .side, 0xf1308, [], true,
      [F.BRIDGE_LOCK_COUNT]⟩,
    ⟨"BRIDGE_LOCK_BROKEN_COUNT", 218, .side, 0xf1310, [], true,
      [F.BRIDGE_LOCK_BROKEN_COUNT]⟩,
    ⟨"BRIDGE_SWI_LOST_COUNT", 219, .side, 0xf1318, [], true,
      [F.BRIDGE_SWI_LOST_COUNT]⟩,
    ⟨"BYP_STATUS", 220, .flue, 0x5000000, [], false,
      [F.BYP_STATUS_CAUSE, F.BYP_STATUS_SELFTEST_FAIL, F.BYP_STATUS_OPEN_REQ, F.BYP_STATUS_FORCED, F.BYP_STATUS_ISOLATION_ON, F.BYP_STATUS_CLOSED]⟩,
    ⟨"BYP_CFG", 221, .flue, 0x5000004, [], false,
      [F.BYP_CFG_SPEED, F.BYP_CFG_AUTO_OPEN]⟩,
    ⟨"BYP_CLOSE_COUNT", 222, .flue, 0x5000008, [], true,
      [F.BYP_CLOSE_COUNT]⟩ ]

/-- Rows 241 to 280 of the register map. -/
def regRows6 : List Reg :=
  [ ⟨"BYP_OPEN_COUNT", 223, .flue, 0x5000010, [], true,
      [F.BYP_OPEN_COUNT]⟩,
    ⟨"LIFE_STATUS", 224, .side, 0x190000, [], false,
      [F.LIFE_STATUS_RX_COUNT, F.LIFE_STATUS_TX_FREE, F.LIFE_STATUS_BYP_SENSE, F.LIFE_STATUS_LIMP, F.LIFE_STATUS_LINK]⟩,
    ⟨"LIFE_EVT", 225, .side, 0x190004, [], false,
      [F.LIFE_EVT_HVIL, F.LIFE_EVT_BYPASS, F.LIFE_EVT_LINK_CHG, F.LIFE_EVT_TX_DONE, F.LIFE_EVT_RX]⟩,
    ⟨"LIFE_CFG", 226, .side, 0x190008, [], false,
      [F.LIFE_CFG_WORLD, F.LIFE_CFG_ROLE, F.LIFE_CFG_ENABLE]⟩,
    ⟨"LIFE_MAC_LO", 227, .side, 0x190010, [], false,
      [F.LIFE_MAC_LO]⟩,
    ⟨"LIFE_MAC_HI", 228, .side, 0x190014, [], false,
      [F.LIFE_MAC_HI]⟩,
    ⟨"LIFE_GUARD_RATE", 229, .side, 0x190018, [], false,
      [F.LIFE_GUARD_RATE]⟩,
    ⟨"LIFE_GUARD_BURST", 230, .side, 0x19001c, [], false,
      [F.LIFE_GUARD_BURST]⟩,
    ⟨"LIFE_TX_CTRL", 231, .side, 0x190020, [], false,
      [F.LIFE_TX_CTRL_GO, F.LIFE_TX_CTRL_BUF, F.LIFE_TX_CTRL_LEN]⟩,
    ⟨"LIFE_RX_HEAD", 232, .side, 0x190024, [], false,
      [F.LIFE_RX_HEAD_VALID, F.LIFE_RX_HEAD_BUF, F.LIFE_RX_HEAD_LEN]⟩,
    ⟨"LIFE_RX_RELEASE", 233, .side, 0x190028, [], false,
      [F.LIFE_RX_RELEASE]⟩,
    ⟨"LIFE_RX_COUNT", 234, .side, 0x190100, [], true,
      [F.LIFE_RX_COUNT]⟩,
    ⟨"LIFE_TX_COUNT", 235, .side, 0x190108, [], true,
      [F.LIFE_TX_COUNT]⟩,
    ⟨"LIFE_RX_NOBUF_COUNT", 236, .side, 0x190110, [], true,
      [F.LIFE_RX_NOBUF_COUNT]⟩,
    ⟨"LIFE_RX_FCS_COUNT", 237, .side, 0x190118, [], true,
      [F.LIFE_RX_FCS_COUNT]⟩,
    ⟨"LIFE_RX_SIZE_COUNT", 238, .side, 0x190120, [], true,
      [F.LIFE_RX_SIZE_COUNT]⟩,
    ⟨"LIFE_TX_DROP_COUNT", 239, .side, 0x190128, [], true,
      [F.LIFE_TX_DROP_COUNT]⟩,
    ⟨"LIFE_GUARD_DROP", 240, .side, 0x190130, [], true,
      [F.LIFE_GUARD_DROP]⟩,
    ⟨"LIFE_LINK_DOWN_COUNT", 241, .side, 0x190138, [], true,
      [F.LIFE_LINK_DOWN_COUNT]⟩,
    ⟨"HVIL_I", 242, .side, 0x190200, [], true,
      [F.HVIL_I]⟩,
    ⟨"HVIL_V", 243, .side, 0x190208, [], true,
      [F.HVIL_V]⟩,
    ⟨"HVIL_ILO", 244, .side, 0x190210, [], true,
      [F.HVIL_ILO]⟩,
    ⟨"HVIL_IHI", 245, .side, 0x190218, [], true,
      [F.HVIL_IHI]⟩,
    ⟨"HVIL_CFG", 246, .side, 0x190220, [], false,
      [F.HVIL_CFG]⟩,
    ⟨"HVIL_STATUS", 247, .side, 0x190224, [], false,
      [F.HVIL_STATUS]⟩,
    ⟨"HVIL_CHANGE_COUNT", 248, .side, 0x190228, [], true,
      [F.HVIL_CHANGE_COUNT]⟩,
    ⟨"NETIF_CFG", 249, .side, 0x164000, [], false,
      [F.NETIF_CFG_IRQ_CH, F.NETIF_CFG_WORLD]⟩,
    ⟨"NETIF_CTRL", 250, .side, 0x164004, [], false,
      [F.NETIF_CTRL]⟩,
    ⟨"NETIF_RX_BASE", 251, .side, 0x164008, [], true,
      [F.NETIF_RX_BASE]⟩,
    ⟨"NETIF_RX_LEN", 252, .side, 0x164010, [], false,
      [F.NETIF_RX_LEN]⟩,
    ⟨"NETIF_TX_BASE", 253, .side, 0x164018, [], true,
      [F.NETIF_TX_BASE]⟩,
    ⟨"NETIF_TX_LEN", 254, .side, 0x164020, [], false,
      [F.NETIF_TX_LEN]⟩,
    ⟨"NETIF_TX_KICK", 255, .side, 0x164024, [], false,
      [F.NETIF_TX_KICK]⟩,
    ⟨"NETIF_STATUS", 256, .side, 0x164028, [], false,
      [F.NETIF_STATUS_TX_NEXT, F.NETIF_STATUS_RX_NEXT, F.NETIF_STATUS_RX_WAIT, F.NETIF_STATUS_ERR]⟩,
    ⟨"NETIF_ERR", 257, .side, 0x16402c, [], false,
      [F.NETIF_ERR]⟩,
    ⟨"FLUE_STATUS", 258, .flue, 0x0, [], false,
      [F.FLUE_STATUS_READY, F.FLUE_STATUS_FREE]⟩,
    ⟨"FLUE_EVT", 259, .flue, 0x4, [], false,
      [F.FLUE_EVT_RSV_CLAMP, F.FLUE_EVT_TAS_ERROR, F.FLUE_EVT_FRER_RESET, F.FLUE_EVT_TC10, F.FLUE_EVT_LEARN_REFUSED, F.FLUE_EVT_PN_EXHAUST, F.FLUE_EVT_PN_LOW, F.FLUE_EVT_LINK_CHG]⟩,
    ⟨"FLUE_SHARED_FREE", 260, .flue, 0x8, [], false,
      [F.FLUE_SHARED_FREE]⟩,
    ⟨"PORT_CFG", 261, .flue, 0x100000, [⟨0, 17, 0x10000⟩], false,
      [F.PORT_CFG_ENABLE, F.PORT_CFG_MACSEC_EN, F.PORT_CFG_LEARN, F.PORT_CFG_INGRESS_FILTER, F.PORT_CFG_COLOUR_AWARE, F.PORT_CFG_ROLE, F.PORT_CFG_ACCEPT, F.PORT_CFG_DEF_PCP, F.PORT_CFG_PVID]⟩,
    ⟨"PORT_PCP_TC", 262, .flue, 0x100004, [⟨0, 17, 0x10000⟩], false,
      [F.PORT_PCP_TC]⟩ ]

/-- Rows 281 to 320 of the register map. -/
def regRows7 : List Reg :=
  [ ⟨"PORT_MAXFRAME", 263, .flue, 0x100008, [⟨0, 17, 0x10000⟩], false,
      [F.PORT_MAXFRAME]⟩,
    ⟨"PORT_BUF", 264, .flue, 0x10000c, [⟨0, 17, 0x10000⟩], false,
      [F.PORT_BUF_MAX, F.PORT_BUF_MIN]⟩,
    ⟨"PORT_GUARD_RATE", 265, .flue, 0x100010, [⟨0, 17, 0x10000⟩], false,
      [F.PORT_GUARD_RATE]⟩,
    ⟨"PORT_GUARD_BURST", 266, .flue, 0x100014, [⟨0, 17, 0x10000⟩], false,
      [F.PORT_GUARD_BURST]⟩,
    ⟨"PORT_TC10", 267, .flue, 0x100018, [⟨0, 17, 0x10000⟩], false,
      [F.PORT_TC10]⟩,
    ⟨"PORT_PLCA", 268, .flue, 0x10001c, [⟨0, 17, 0x10000⟩], false,
      [F.PORT_PLCA_NODE_COUNT, F.PORT_PLCA_NODE_ID]⟩,
    ⟨"PORT_CTRL", 269, .flue, 0x100020, [⟨0, 17, 0x10000⟩], false,
      [F.PORT_CTRL_WAKE, F.PORT_CTRL_SLEEP_REQ]⟩,
    ⟨"PORT_STATUS", 270, .flue, 0x100024, [⟨0, 17, 0x10000⟩], false,
      [F.PORT_STATUS_LINK, F.PORT_STATUS_TC10, F.PORT_STATUS_OCC]⟩,
    ⟨"PORT_Q_CFG", 271, .flue, 0x100040, [⟨0, 17, 0x10000⟩, ⟨0, 8, 0x4⟩], false,
      [F.PORT_Q_CFG_CBS_EN, F.PORT_Q_CFG_PROFILE, F.PORT_Q_CFG_IDLE_SLOPE]⟩,
    ⟨"PORT_Q_MAX", 272, .flue, 0x100060, [⟨0, 17, 0x10000⟩, ⟨0, 8, 0x4⟩], false,
      [F.PORT_Q_MAX]⟩,
    ⟨"PORT_Q_DEPTH", 273, .flue, 0x100080, [⟨0, 17, 0x10000⟩, ⟨0, 8, 0x4⟩], false,
      [F.PORT_Q_DEPTH]⟩,
    ⟨"PORT_Q_CREDIT", 274, .flue, 0x1000a0, [⟨0, 17, 0x10000⟩, ⟨0, 8, 0x8⟩], true,
      [F.PORT_Q_CREDIT]⟩,
    ⟨"TAS_CFG", 275, .flue, 0x100100, [⟨0, 17, 0x10000⟩], false,
      [F.TAS_CFG_ENABLE, F.TAS_CFG_LIST, F.TAS_CFG_DOMAIN, F.TAS_CFG_LEN1, F.TAS_CFG_LEN0]⟩,
    ⟨"TAS_STATUS", 276, .flue, 0x100104, [⟨0, 17, 0x10000⟩], false,
      [F.TAS_STATUS_RUNNING, F.TAS_STATUS_LIST, F.TAS_STATUS_ERROR, F.TAS_STATUS_ENTRY]⟩,
    ⟨"TAS_CYCLE", 277, .flue, 0x100108, [⟨0, 17, 0x10000⟩], true,
      [F.TAS_CYCLE]⟩,
    ⟨"TAS_BASE_S", 278, .flue, 0x100110, [⟨0, 17, 0x10000⟩], true,
      [F.TAS_BASE_S]⟩,
    ⟨"TAS_BASE_NS", 279, .flue, 0x100118, [⟨0, 17, 0x10000⟩], true,
      [F.TAS_BASE_NS]⟩,
    ⟨"PORT_CNT", 280, .flue, 0x100400, [⟨0, 17, 0x10000⟩, ⟨0, 35, 0x8⟩], true,
      [F.PORT_CNT]⟩,
    ⟨"TAS_ENTRY", 281, .flue, 0x101000, [⟨0, 17, 0x10000⟩, ⟨0, 2, 0x400⟩, ⟨0, 256, 0x4⟩], false,
      [F.TAS_ENTRY_GATES, F.TAS_ENTRY_INTERVAL]⟩,
    ⟨"FDB_CFG", 282, .flue, 0x1000000, [], false,
      [F.FDB_CFG_SEED_POLICY, F.FDB_CFG_AGE]⟩,
    ⟨"FDB_STATUS", 283, .flue, 0x1000004, [], false,
      [F.FDB_STATUS_REFUSING, F.FDB_STATUS_CAM_USED]⟩,
    ⟨"FDB_ENTRIES", 284, .flue, 0x1000008, [], false,
      [F.FDB_ENTRIES_STATIC, F.FDB_ENTRIES_DYNAMIC]⟩,
    ⟨"FDB_SEED0_FIX", 285, .flue, 0x1000010, [], false,
      [F.FDB_SEED0_FIX]⟩,
    ⟨"FDB_SEED1_FIX", 286, .flue, 0x1000014, [], false,
      [F.FDB_SEED1_FIX]⟩,
    ⟨"FDB_CMD_MAC_LO", 287, .flue, 0x1000100, [], false,
      [F.FDB_CMD_MAC_LO]⟩,
    ⟨"FDB_CMD_MAC_HI", 288, .flue, 0x1000104, [], false,
      [F.FDB_CMD_MAC_HI]⟩,
    ⟨"FDB_CMD_VID", 289, .flue, 0x1000108, [], false,
      [F.FDB_CMD_VID]⟩,
    ⟨"FDB_CMD_PORTS", 290, .flue, 0x100010c, [], false,
      [F.FDB_CMD_PORTS_STATIC, F.FDB_CMD_PORTS_PORTS]⟩,
    ⟨"FDB_CMD_CTRL", 291, .flue, 0x1000110, [], false,
      [F.FDB_CMD_CTRL_GO, F.FDB_CMD_CTRL_PORT, F.FDB_CMD_CTRL_OP]⟩,
    ⟨"FDB_CMD_STATUS", 292, .flue, 0x1000114, [], false,
      [F.FDB_CMD_STATUS_BUSY, F.FDB_CMD_STATUS_RESULT]⟩,
    ⟨"FDB_VLAN_MEMBER", 293, .flue, 0x1100000, [⟨1, 4094, 0x8⟩], false,
      [F.FDB_VLAN_MEMBER]⟩,
    ⟨"FDB_VLAN_UNTAG", 294, .flue, 0x1100004, [⟨1, 4094, 0x8⟩], false,
      [F.FDB_VLAN_UNTAG]⟩,
    ⟨"SF_MAC_LO", 295, .flue, 0x2000000, [⟨0, 1024, 0x40⟩], false,
      [F.SF_MAC_LO]⟩,
    ⟨"SF_MAC_HI", 296, .flue, 0x2000004, [⟨0, 1024, 0x40⟩], false,
      [F.SF_MAC_HI_MAC_EN, F.SF_MAC_HI_USE_SA, F.SF_MAC_HI_MAC]⟩,
    ⟨"SF_VID", 297, .flue, 0x2000008, [⟨0, 1024, 0x40⟩], false,
      [F.SF_VID_PCP_EN, F.SF_VID_PCP, F.SF_VID_VID_EN, F.SF_VID_VID]⟩,
    ⟨"SF_PORTS", 298, .flue, 0x200000c, [⟨0, 1024, 0x40⟩], false,
      [F.SF_PORTS]⟩,
    ⟨"SF_CFG", 299, .flue, 0x2000010, [⟨0, 1024, 0x40⟩], false,
      [F.SF_CFG_ENABLE, F.SF_CFG_BLOCK_EN, F.SF_CFG_RED_DROP, F.SF_CFG_MIRROR, F.SF_CFG_TC_EN, F.SF_CFG_TC, F.SF_CFG_MAX_SDU]⟩,
    ⟨"SF_CIR", 300, .flue, 0x2000014, [⟨0, 1024, 0x40⟩], false,
      [F.SF_CIR]⟩,
    ⟨"SF_PIR", 301, .flue, 0x2000018, [⟨0, 1024, 0x40⟩], false,
      [F.SF_PIR]⟩,
    ⟨"SF_CBS", 302, .flue, 0x200001c, [⟨0, 1024, 0x40⟩], false,
      [F.SF_CBS]⟩ ]

/-- Rows 321 to 360 of the register map. -/
def regRows8 : List Reg :=
  [ ⟨"SF_PBS", 303, .flue, 0x2000020, [⟨0, 1024, 0x40⟩], false,
      [F.SF_PBS]⟩,
    ⟨"SF_STATUS", 304, .flue, 0x2000024, [⟨0, 1024, 0x40⟩], false,
      [F.SF_STATUS]⟩,
    ⟨"SF_GREEN_COUNT", 305, .flue, 0x2000028, [⟨0, 1024, 0x40⟩], true,
      [F.SF_GREEN_COUNT]⟩,
    ⟨"SF_YELLOW_COUNT", 306, .flue, 0x2000030, [⟨0, 1024, 0x40⟩], true,
      [F.SF_YELLOW_COUNT]⟩,
    ⟨"SF_RED_COUNT", 307, .flue, 0x2000038, [⟨0, 1024, 0x40⟩], true,
      [F.SF_RED_COUNT]⟩,
    ⟨"WRED_TH", 308, .flue, 0x2010000, [⟨0, 8, 0x20⟩, ⟨0, 3, 0x8⟩], false,
      [F.WRED_TH_MAX_TH, F.WRED_TH_MIN_TH]⟩,
    ⟨"WRED_P", 309, .flue, 0x2010004, [⟨0, 8, 0x20⟩, ⟨0, 3, 0x8⟩], false,
      [F.WRED_P_W, F.WRED_P_MAXP]⟩,
    ⟨"FRER_CFG", 310, .flue, 0x2020000, [⟨0, 512, 0x40⟩], false,
      [F.FRER_CFG_FUNC, F.FRER_CFG_RTAG_POP, F.FRER_CFG_HISTORY, F.FRER_CFG_FILTER]⟩,
    ⟨"FRER_PORTS", 311, .flue, 0x2020004, [⟨0, 512, 0x40⟩], false,
      [F.FRER_PORTS]⟩,
    ⟨"FRER_RESET_MS", 312, .flue, 0x2020008, [⟨0, 512, 0x40⟩], false,
      [F.FRER_RESET_MS]⟩,
    ⟨"FRER_SEQ", 313, .flue, 0x202000c, [⟨0, 512, 0x40⟩], false,
      [F.FRER_SEQ]⟩,
    ⟨"FRER_PASSED", 314, .flue, 0x2020010, [⟨0, 512, 0x40⟩], true,
      [F.FRER_PASSED]⟩,
    ⟨"FRER_DISCARDED", 315, .flue, 0x2020018, [⟨0, 512, 0x40⟩], true,
      [F.FRER_DISCARDED]⟩,
    ⟨"FRER_OUT_OF_ORDER", 316, .flue, 0x2020020, [⟨0, 512, 0x40⟩], true,
      [F.FRER_OUT_OF_ORDER]⟩,
    ⟨"FRER_ROGUE", 317, .flue, 0x2020028, [⟨0, 512, 0x40⟩], true,
      [F.FRER_ROGUE]⟩,
    ⟨"FRER_LOST", 318, .flue, 0x2020030, [⟨0, 512, 0x40⟩], true,
      [F.FRER_LOST]⟩,
    ⟨"FRER_RESETS", 319, .flue, 0x2020038, [⟨0, 512, 0x40⟩], true,
      [F.FRER_RESETS]⟩,
    ⟨"MIR_INGRESS", 320, .flue, 0x2030000, [⟨0, 2, 0x20⟩], false,
      [F.MIR_INGRESS]⟩,
    ⟨"MIR_EGRESS", 321, .flue, 0x2030004, [⟨0, 2, 0x20⟩], false,
      [F.MIR_EGRESS]⟩,
    ⟨"MIR_CFG", 322, .flue, 0x2030008, [⟨0, 2, 0x20⟩], false,
      [F.MIR_CFG_ENABLE, F.MIR_CFG_DEST, F.MIR_CFG_TC]⟩,
    ⟨"MIR_DROP_COUNT", 323, .flue, 0x2030010, [⟨0, 2, 0x20⟩], true,
      [F.MIR_DROP_COUNT]⟩,
    ⟨"MIR_COPY_COUNT", 324, .flue, 0x2030018, [⟨0, 2, 0x20⟩], true,
      [F.MIR_COPY_COUNT]⟩,
    ⟨"MSEC_CFG", 325, .flue, 0x3000000, [⟨0, 8, 0x1000⟩], false,
      [F.MSEC_CFG_REPLAY_EN, F.MSEC_CFG_CONFIDENTIAL, F.MSEC_CFG_TX_SC]⟩,
    ⟨"MSEC_REPLAY_WIN", 326, .flue, 0x3000004, [⟨0, 8, 0x1000⟩], false,
      [F.MSEC_REPLAY_WIN]⟩,
    ⟨"MSEC_PN_TH32", 327, .flue, 0x3000008, [⟨0, 8, 0x1000⟩], false,
      [F.MSEC_PN_TH32]⟩,
    ⟨"MSEC_PN_THXPN", 328, .flue, 0x300000c, [⟨0, 8, 0x1000⟩], false,
      [F.MSEC_PN_THXPN]⟩,
    ⟨"MSEC_EVT", 329, .flue, 0x3000010, [⟨0, 8, 0x1000⟩], false,
      [F.MSEC_EVT_PN_EXHAUST, F.MSEC_EVT_PN_LOW]⟩,
    ⟨"MSEC_SA_STATE", 330, .flue, 0x3000100, [⟨0, 8, 0x1000⟩, ⟨0, 16, 0x20⟩], false,
      [F.MSEC_SA_STATE_INSTALLED, F.MSEC_SA_STATE_ACTIVE, F.MSEC_SA_STATE_XPN, F.MSEC_SA_STATE_PN_LOW, F.MSEC_SA_STATE_EXHAUSTED, F.MSEC_SA_STATE_KEY_SLOT]⟩,
    ⟨"MSEC_SA_PN_LO", 331, .flue, 0x3000108, [⟨0, 8, 0x1000⟩, ⟨0, 16, 0x20⟩], true,
      [F.MSEC_SA_PN_LO]⟩,
    ⟨"MSEC_SA_PN_HI", 332, .flue, 0x3000110, [⟨0, 8, 0x1000⟩, ⟨0, 16, 0x20⟩], false,
      [F.MSEC_SA_PN_HI]⟩,
    ⟨"CAN_CFG", 333, .side, 0x60000, [⟨0, 6, 0x10000⟩], false,
      [F.CAN_CFG_OWNER, F.CAN_CFG_AFTER_RECOVERY, F.CAN_CFG_AUTO_RECOVER, F.CAN_CFG_RECOVERY_DELAY, F.CAN_CFG_NONMATCH, F.CAN_CFG_RXQ1_OVERWRITE, F.CAN_CFG_RXQ0_OVERWRITE, F.CAN_CFG_XL_EN, F.CAN_CFG_FD_EN, F.CAN_CFG_BOOT_MODE]⟩,
    ⟨"CAN_GATE", 334, .side, 0x60004, [⟨0, 6, 0x10000⟩], false,
      [F.CAN_GATE]⟩,
    ⟨"CAN_NBT", 335, .side, 0x60008, [⟨0, 6, 0x10000⟩], false,
      [F.CAN_NBT_BRP_M1, F.CAN_NBT_TSEG1_M1, F.CAN_NBT_TSEG2_M1, F.CAN_NBT_SJW_M1]⟩,
    ⟨"CAN_DBT", 336, .side, 0x6000c, [⟨0, 6, 0x10000⟩], false,
      [F.CAN_DBT_BRP_M1, F.CAN_DBT_TSEG1_M1, F.CAN_DBT_TSEG2_M1, F.CAN_DBT_SJW_M1, F.CAN_DBT_TDC_EN, F.CAN_DBT_TDC_OFF]⟩,
    ⟨"CAN_XBT", 337, .side, 0x60010, [⟨0, 6, 0x10000⟩], false,
      [F.CAN_XBT_BRP_M1, F.CAN_XBT_TSEG1_M1, F.CAN_XBT_TSEG2_M1, F.CAN_XBT_SJW_M1, F.CAN_XBT_TDC_EN, F.CAN_XBT_TDC_OFF, F.CAN_XBT_TMS]⟩,
    ⟨"CAN_STATUS", 338, .side, 0x60014, [⟨0, 6, 0x10000⟩], false,
      [F.CAN_STATUS_READY, F.CAN_STATUS_LIMP, F.CAN_STATUS_TIMING_BAD, F.CAN_STATUS_RAM_BAD, F.CAN_STATUS_MODE_PENDING, F.CAN_STATUS_PEND_MODE, F.CAN_STATUS_TT_CONFIG_ERR, F.CAN_STATUS_MODE]⟩,
    ⟨"CAN_ERR", 339, .side, 0x60018, [⟨0, 6, 0x10000⟩], false,
      [F.CAN_ERR_LAST_ERR, F.CAN_ERR_WARNING, F.CAN_ERR_STATE, F.CAN_ERR_REC, F.CAN_ERR_TEC]⟩,
    ⟨"CAN_IRQ", 340, .side, 0x6001c, [⟨0, 6, 0x10000⟩], false,
      [F.CAN_IRQ_RECOVERED, F.CAN_IRQ_BUS_OFF, F.CAN_IRQ_WARNING, F.CAN_IRQ_ERR_STATE, F.CAN_IRQ_RXQ_FULL, F.CAN_IRQ_SHADOW, F.CAN_IRQ_TT_MISSED, F.CAN_IRQ_PRIO, F.CAN_IRQ_TX_DONE, F.CAN_IRQ_RXQ1, F.CAN_IRQ_RXQ0]⟩,
    ⟨"CAN_IRQ_EN", 341, .side, 0x60020, [⟨0, 6, 0x10000⟩], false,
      [F.CAN_IRQ_EN]⟩,
    ⟨"CAN_GUARD", 342, .side, 0x60024, [⟨0, 6, 0x10000⟩], false,
      [F.CAN_GUARD]⟩ ]

/-- Rows 361 to 400 of the register map. -/
def regRows9 : List Reg :=
  [ ⟨"CAN_RAM_R", 343, .side, 0x60028, [⟨0, 6, 0x10000⟩, ⟨0, 4, 0x4⟩], false,
      [F.CAN_RAM_R_ESIZE, F.CAN_RAM_R_COUNT, F.CAN_RAM_R_START]⟩,
    ⟨"CAN_RXQ_IDX", 344, .side, 0x60040, [⟨0, 6, 0x10000⟩, ⟨0, 2, 0x8⟩], false,
      [F.CAN_RXQ_IDX_PUT, F.CAN_RXQ_IDX_GET]⟩,
    ⟨"CAN_RXQ_ACK", 345, .side, 0x60044, [⟨0, 6, 0x10000⟩, ⟨0, 2, 0x8⟩], false,
      [F.CAN_RXQ_ACK]⟩,
    ⟨"CAN_TX_SET", 346, .side, 0x60050, [⟨0, 6, 0x10000⟩], false,
      [F.CAN_TX_SET]⟩,
    ⟨"CAN_TX_PEND", 347, .side, 0x60054, [⟨0, 6, 0x10000⟩], false,
      [F.CAN_TX_PEND]⟩,
    ⟨"CAN_TX_CANCEL", 348, .side, 0x60058, [⟨0, 6, 0x10000⟩], false,
      [F.CAN_TX_CANCEL]⟩,
    ⟨"CAN_TX_DONE", 349, .side, 0x6005c, [⟨0, 6, 0x10000⟩], false,
      [F.CAN_TX_DONE]⟩,
    ⟨"CAN_PRIO_STATUS", 350, .side, 0x60060, [⟨0, 6, 0x10000⟩], false,
      [F.CAN_PRIO_STATUS_OVERWRITTEN, F.CAN_PRIO_STATUS_FULL]⟩,
    ⟨"CAN_SHADOW_CTRL", 351, .side, 0x60070, [⟨0, 6, 0x10000⟩], false,
      [F.CAN_SHADOW_CTRL_GO, F.CAN_SHADOW_CTRL_DIR, F.CAN_SHADOW_CTRL_S, F.CAN_SHADOW_CTRL_REGION, F.CAN_SHADOW_CTRL_INDEX]⟩,
    ⟨"CAN_SHADOW_STATUS", 352, .side, 0x60074, [⟨0, 6, 0x10000⟩], false,
      [F.CAN_SHADOW_STATUS_DONE, F.CAN_SHADOW_STATUS_ERR, F.CAN_SHADOW_STATUS_BUSY]⟩,
    ⟨"CAN_TT_CFG", 353, .side, 0x60080, [⟨0, 6, 0x10000⟩], false,
      [F.CAN_TT_CFG_REF_ID, F.CAN_TT_CFG_TXEN, F.CAN_TT_CFG_NB_LOG2, F.CAN_TT_CFG_DOMAIN, F.CAN_TT_CFG_ROLE, F.CAN_TT_CFG_ENABLE]⟩,
    ⟨"CAN_TT_STATUS", 354, .side, 0x60084, [⟨0, 6, 0x10000⟩], false,
      [F.CAN_TT_STATUS_RUNNING, F.CAN_TT_STATUS_WINDOW, F.CAN_TT_STATUS_CYCLE]⟩,
    ⟨"CAN_TT_CYCLE", 355, .side, 0x60088, [⟨0, 6, 0x10000⟩], true,
      [F.CAN_TT_CYCLE]⟩,
    ⟨"CAN_TT_BASE_S", 356, .side, 0x60090, [⟨0, 6, 0x10000⟩], true,
      [F.CAN_TT_BASE_S]⟩,
    ⟨"CAN_TT_BASE_NS", 357, .side, 0x60098, [⟨0, 6, 0x10000⟩], true,
      [F.CAN_TT_BASE_NS]⟩,
    ⟨"CAN_TT_WIN", 358, .side, 0x60100, [⟨0, 6, 0x10000⟩, ⟨0, 32, 0x4⟩], false,
      [F.CAN_TT_WIN]⟩,
    ⟨"CAN_TXB_CFG", 359, .side, 0x60200, [⟨0, 6, 0x10000⟩, ⟨0, 32, 0x4⟩], false,
      [F.CAN_TXB_CFG_SCHED, F.CAN_TXB_CFG_RETRY]⟩,
    ⟨"CAN_TXB_STATUS", 360, .side, 0x60280, [⟨0, 6, 0x10000⟩, ⟨0, 32, 0x4⟩], false,
      [F.CAN_TXB_STATUS]⟩,
    ⟨"CAN_FLT_ID", 361, .side, 0x60400, [⟨0, 6, 0x10000⟩, ⟨0, 128, 0x10⟩], false,
      [F.CAN_FLT_ID]⟩,
    ⟨"CAN_FLT_MASK", 362, .side, 0x60404, [⟨0, 6, 0x10000⟩, ⟨0, 128, 0x10⟩], false,
      [F.CAN_FLT_MASK]⟩,
    ⟨"CAN_FLT_CFG", 363, .side, 0x60408, [⟨0, 6, 0x10000⟩, ⟨0, 128, 0x10⟩], false,
      [F.CAN_FLT_CFG_SEALED, F.CAN_FLT_CFG_SEAL_CTX, F.CAN_FLT_CFG_ACTION]⟩,
    ⟨"CAN_PFLT_ID", 364, .side, 0x60c00, [⟨0, 6, 0x10000⟩, ⟨0, 8, 0x10⟩], false,
      [F.CAN_PFLT_ID]⟩,
    ⟨"CAN_PFLT_MASK", 365, .side, 0x60c04, [⟨0, 6, 0x10000⟩, ⟨0, 8, 0x10⟩], false,
      [F.CAN_PFLT_MASK]⟩,
    ⟨"CAN_PFLT_CFG", 366, .side, 0x60c08, [⟨0, 6, 0x10000⟩, ⟨0, 8, 0x10⟩], false,
      [F.CAN_PFLT_CFG_SEALED, F.CAN_PFLT_CFG_SEAL_CTX, F.CAN_PFLT_CFG_ACTION]⟩,
    ⟨"CAN_SEAL_CFG", 367, .side, 0x60d00, [⟨0, 6, 0x10000⟩, ⟨0, 16, 0x40⟩], false,
      [F.CAN_SEAL_CFG_WINDOW, F.CAN_SEAL_CFG_MAC_BYTES, F.CAN_SEAL_CFG_FV_BYTES]⟩,
    ⟨"CAN_SEAL_STATUS", 368, .side, 0x60d04, [⟨0, 6, 0x10000⟩, ⟨0, 16, 0x40⟩], false,
      [F.CAN_SEAL_STATUS_KEY_SLOT, F.CAN_SEAL_STATUS_KEYED, F.CAN_SEAL_STATUS_EXHAUSTED, F.CAN_SEAL_STATUS_FV_LOW]⟩,
    ⟨"CAN_SEAL_TX", 369, .side, 0x60d08, [⟨0, 6, 0x10000⟩, ⟨0, 16, 0x40⟩], true,
      [F.CAN_SEAL_TX]⟩,
    ⟨"CAN_SEAL_RX", 370, .side, 0x60d10, [⟨0, 6, 0x10000⟩, ⟨0, 16, 0x40⟩], true,
      [F.CAN_SEAL_RX]⟩,
    ⟨"CAN_SEAL_TH", 371, .side, 0x60d18, [⟨0, 6, 0x10000⟩, ⟨0, 16, 0x40⟩], true,
      [F.CAN_SEAL_TH]⟩,
    ⟨"CAN_CNT", 372, .side, 0x61100, [⟨0, 6, 0x10000⟩, ⟨0, 20, 0x8⟩], true,
      [F.CAN_CNT]⟩,
    ⟨"CAN_TXB_ARB_LOST", 373, .side, 0x61200, [⟨0, 6, 0x10000⟩, ⟨0, 32, 0x10⟩], true,
      [F.CAN_TXB_ARB_LOST]⟩,
    ⟨"CAN_TXB_TX_ERR", 374, .side, 0x61208, [⟨0, 6, 0x10000⟩, ⟨0, 32, 0x10⟩], true,
      [F.CAN_TXB_TX_ERR]⟩,
    ⟨"CAN_TT_MAT", 375, .side, 0x61400, [⟨0, 6, 0x10000⟩, ⟨0, 64, 0x20⟩, ⟨0, 8, 0x4⟩], false,
      [F.CAN_TT_MAT]⟩,
    ⟨"TIME_STATUS", 376, .side, 0xc0000, [], false,
      [F.TIME_STATUS_D1_PENDING, F.TIME_STATUS_D1_HOLDOVER, F.TIME_STATUS_D1_LOCKED, F.TIME_STATUS_D0_PENDING, F.TIME_STATUS_D0_HOLDOVER, F.TIME_STATUS_D0_LOCKED, F.TIME_STATUS_LINK_UP, F.TIME_STATUS_D1_STATE, F.TIME_STATUS_D0_STATE]⟩,
    ⟨"TIME_EVT", 377, .side, 0xc0004, [], false,
      [F.TIME_EVT_LINK_LOST, F.TIME_EVT_STEP, F.TIME_EVT_JUMP_REFUSED, F.TIME_EVT_HOLDOVER_CHG, F.TIME_EVT_LOCK_CHG]⟩,
    ⟨"TIME_CFG", 378, .side, 0xc0008, [], false,
      [F.TIME_CFG]⟩,
    ⟨"TIME_D0_NS", 379, .side, 0xc0010, [], true,
      [F.TIME_D0_NS]⟩,
    ⟨"TIME_D0_LATCH_S", 380, .side, 0xc0018, [], true,
      [F.TIME_D0_LATCH_S]⟩,
    ⟨"TIME_D1_NS", 381, .side, 0xc0020, [], true,
      [F.TIME_D1_NS]⟩,
    ⟨"TIME_D1_LATCH_S", 382, .side, 0xc0028, [], true,
      [F.TIME_D1_LATCH_S]⟩ ]

/-- Rows 401 to 440 of the register map. -/
def regRows10 : List Reg :=
  [ ⟨"TIME_D0_STEP_SEQ", 383, .side, 0xc0030, [], true,
      [F.TIME_D0_STEP_SEQ]⟩,
    ⟨"TIME_D1_STEP_SEQ", 384, .side, 0xc0038, [], true,
      [F.TIME_D1_STEP_SEQ]⟩,
    ⟨"TIME_LINK_LOST_COUNT", 385, .side, 0xc0040, [], true,
      [F.TIME_LINK_LOST_COUNT]⟩,
    ⟨"TPO_START_S", 386, .side, 0xc0100, [⟨0, 4, 0x40⟩], true,
      [F.TPO_START_S]⟩,
    ⟨"TPO_START_NS", 387, .side, 0xc0108, [⟨0, 4, 0x40⟩], true,
      [F.TPO_START_NS]⟩,
    ⟨"TPO_PERIOD", 388, .side, 0xc0110, [⟨0, 4, 0x40⟩], true,
      [F.TPO_PERIOD]⟩,
    ⟨"TPO_WIDTH", 389, .side, 0xc0118, [⟨0, 4, 0x40⟩], true,
      [F.TPO_WIDTH]⟩,
    ⟨"TPO_CTRL", 390, .side, 0xc0120, [⟨0, 4, 0x40⟩], false,
      [F.TPO_CTRL_OWNER, F.TPO_CTRL_DOMAIN, F.TPO_CTRL_LATE, F.TPO_CTRL_DONE, F.TPO_CTRL_INVERT, F.TPO_CTRL_ENABLE]⟩,
    ⟨"TPO_SKIP_COUNT", 391, .side, 0xc0128, [⟨0, 4, 0x40⟩], true,
      [F.TPO_SKIP_COUNT]⟩,
    ⟨"TCI_CFG", 392, .side, 0xc0200, [⟨0, 4, 0x40⟩], false,
      [F.TCI_CFG_OWNER, F.TCI_CFG_DOMAIN, F.TCI_CFG_EDGE]⟩,
    ⟨"TCI_LAST_S", 393, .side, 0xc0208, [⟨0, 4, 0x40⟩], true,
      [F.TCI_LAST_S]⟩,
    ⟨"TCI_LAST_NS", 394, .side, 0xc0210, [⟨0, 4, 0x40⟩], true,
      [F.TCI_LAST_NS]⟩,
    ⟨"TCI_STATUS", 395, .side, 0xc0218, [⟨0, 4, 0x40⟩], false,
      [F.TCI_STATUS_STEPPED, F.TCI_STATUS_OVERFLOW, F.TCI_STATUS_COUNT]⟩,
    ⟨"TCI_CAPTURE_COUNT", 396, .side, 0xc0220, [⟨0, 4, 0x40⟩], true,
      [F.TCI_CAPTURE_COUNT]⟩,
    ⟨"BLW_CFG", 397, .flue, 0x4000000, [⟨0, 2, 0x100⟩], false,
      [F.BLW_CFG_ENABLE, F.BLW_CFG_GM_CAPABLE, F.BLW_CFG_EXT_PORT, F.BLW_CFG_AUTO_STEP, F.BLW_CFG_PRIORITY2, F.BLW_CFG_PRIORITY1, F.BLW_CFG_DOMAIN_NUMBER]⟩,
    ⟨"BLW_KP", 398, .flue, 0x4000008, [⟨0, 2, 0x100⟩], true,
      [F.BLW_KP]⟩,
    ⟨"BLW_KI", 399, .flue, 0x4000010, [⟨0, 2, 0x100⟩], true,
      [F.BLW_KI]⟩,
    ⟨"BLW_JUMP_TH", 400, .flue, 0x4000018, [⟨0, 2, 0x100⟩], true,
      [F.BLW_JUMP_TH]⟩,
    ⟨"BLW_LOCK_TH", 401, .flue, 0x4000020, [⟨0, 2, 0x100⟩], true,
      [F.BLW_LOCK_TH]⟩,
    ⟨"BLW_STATE", 402, .flue, 0x4000028, [⟨0, 2, 0x100⟩], false,
      [F.BLW_STATE_SLAVE_PORT, F.BLW_STATE_RUN, F.BLW_STATE_IS_GM, F.BLW_STATE_PENDING, F.BLW_STATE_HOLDOVER, F.BLW_STATE_LOCKED, F.BLW_STATE_SERVO]⟩,
    ⟨"BLW_OFFSET", 403, .flue, 0x4000030, [⟨0, 2, 0x100⟩], true,
      [F.BLW_OFFSET]⟩,
    ⟨"BLW_PENDING", 404, .flue, 0x4000038, [⟨0, 2, 0x100⟩], true,
      [F.BLW_PENDING]⟩,
    ⟨"BLW_ADJ", 405, .flue, 0x4000040, [⟨0, 2, 0x100⟩], true,
      [F.BLW_ADJ]⟩,
    ⟨"BLW_INTEG", 406, .flue, 0x4000048, [⟨0, 2, 0x100⟩], true,
      [F.BLW_INTEG]⟩,
    ⟨"BLW_GM_ID_HI", 407, .flue, 0x4000050, [⟨0, 2, 0x100⟩], false,
      [F.BLW_GM_ID_HI]⟩,
    ⟨"BLW_GM_ID_LO", 408, .flue, 0x4000054, [⟨0, 2, 0x100⟩], false,
      [F.BLW_GM_ID_LO]⟩,
    ⟨"BLW_EVT", 409, .flue, 0x4000058, [⟨0, 2, 0x100⟩], false,
      [F.BLW_EVT_GM_CHANGE, F.BLW_EVT_STEP, F.BLW_EVT_JUMP_REFUSED, F.BLW_EVT_HOLDOVER_CHG, F.BLW_EVT_LOCK_CHG]⟩,
    ⟨"BLW_SYNC_RX_COUNT", 410, .flue, 0x4000060, [⟨0, 2, 0x100⟩], true,
      [F.BLW_SYNC_RX_COUNT]⟩,
    ⟨"BLW_SYNC_TIMEOUT_COUNT", 411, .flue, 0x4000068, [⟨0, 2, 0x100⟩], true,
      [F.BLW_SYNC_TIMEOUT_COUNT]⟩,
    ⟨"BLW_JUMP_REFUSED_COUNT", 412, .flue, 0x4000070, [⟨0, 2, 0x100⟩], true,
      [F.BLW_JUMP_REFUSED_COUNT]⟩,
    ⟨"BLW_STEP_COUNT", 413, .flue, 0x4000078, [⟨0, 2, 0x100⟩], true,
      [F.BLW_STEP_COUNT]⟩,
    ⟨"BLW_GM_CHANGE_COUNT", 414, .flue, 0x4000080, [⟨0, 2, 0x100⟩], true,
      [F.BLW_GM_CHANGE_COUNT]⟩,
    ⟨"BLW_PCFG", 415, .flue, 0x4001000, [⟨0, 15, 0x100⟩], false,
      [F.BLW_PCFG_PTP_EN, F.BLW_PCFG_ONE_STEP, F.BLW_PCFG_EXT_ROLE_D1, F.BLW_PCFG_EXT_ROLE_D0, F.BLW_PCFG_LOG_SYNC, F.BLW_PCFG_LOG_PDELAY]⟩,
    ⟨"BLW_ASYM", 416, .flue, 0x4001008, [⟨0, 15, 0x100⟩, ⟨0, 3, 0x8⟩], true,
      [F.BLW_ASYM]⟩,
    ⟨"BLW_TX_LAT", 417, .flue, 0x4001020, [⟨0, 15, 0x100⟩], true,
      [F.BLW_TX_LAT]⟩,
    ⟨"BLW_RX_LAT", 418, .flue, 0x4001028, [⟨0, 15, 0x100⟩], true,
      [F.BLW_RX_LAT]⟩,
    ⟨"BLW_MEAN_DELAY", 419, .flue, 0x4001030, [⟨0, 15, 0x100⟩], true,
      [F.BLW_MEAN_DELAY]⟩,
    ⟨"BLW_FIXED_DELAY", 420, .flue, 0x4001038, [⟨0, 15, 0x100⟩], true,
      [F.BLW_FIXED_DELAY]⟩,
    ⟨"BLW_PSTATUS", 421, .flue, 0x4001040, [⟨0, 15, 0x100⟩], false,
      [F.BLW_PSTATUS_ROLE_D1, F.BLW_PSTATUS_ROLE_D0, F.BLW_PSTATUS_AS_CAPABLE]⟩,
    ⟨"BLW_PDELAY_LOST_COUNT", 422, .flue, 0x4001048, [⟨0, 15, 0x100⟩], true,
      [F.BLW_PDELAY_LOST_COUNT]⟩ ]

/-- Rows 441 to 480 of the register map. -/
def regRows11 : List Reg :=
  [ ⟨"WOT_STATUS", 423, .side, 0xd0000, [], false,
      [F.WOT_STATUS_SEC_LOCK, F.WOT_STATUS_REG_ERR, F.WOT_STATUS_VIOL]⟩,
    ⟨"WOT_SEC_CFG", 424, .side, 0xd0004, [], false,
      [F.WOT_SEC_CFG_THRESH, F.WOT_SEC_CFG_EVENTS]⟩,
    ⟨"WOT_SEC_CTRL", 425, .side, 0xd0008, [], false,
      [F.WOT_SEC_CTRL]⟩,
    ⟨"WOT_GATE", 426, .side, 0xd000c, [], false,
      [F.WOT_GATE]⟩,
    ⟨"WOT_VIOL_ADDR", 427, .side, 0xd0010, [], true,
      [F.WOT_VIOL_ADDR]⟩,
    ⟨"WOT_VIOL_INFO", 428, .side, 0xd0018, [], false,
      [F.WOT_VIOL_INFO_INITIATOR, F.WOT_VIOL_INFO_WORLD, F.WOT_VIOL_INFO_KIND]⟩,
    ⟨"WOT_VIOL_COUNT", 429, .side, 0xd0020, [], true,
      [F.WOT_VIOL_COUNT]⟩,
    ⟨"WOT_GATE_FAULT_COUNT", 430, .side, 0xd0028, [], true,
      [F.WOT_GATE_FAULT_COUNT]⟩,
    ⟨"WOT_WORLD_FAIL_COUNT", 431, .side, 0xd0030, [], true,
      [F.WOT_WORLD_FAIL_COUNT]⟩,
    ⟨"WOT_SYNC", 432, .side, 0xd0038, [], false,
      [F.WOT_SYNC_BUSY, F.WOT_SYNC_GO]⟩,
    ⟨"WOT_WORLD_CFG", 433, .side, 0xd0040, [⟨0, 8, 0x4⟩], false,
      [F.WOT_WORLD_CFG_ENABLED, F.WOT_WORLD_CFG_ON_FAIL, F.WOT_WORLD_CFG_RESTARTS, F.WOT_WORLD_CFG_WDOG]⟩,
    ⟨"WOT_WORLD_STATE", 434, .side, 0xd0060, [⟨0, 8, 0x4⟩], false,
      [F.WOT_WORLD_STATE_RESTARTS, F.WOT_WORLD_STATE_MEASURED, F.WOT_WORLD_STATE_STATE]⟩,
    ⟨"WOT_WORLD_LOAD", 435, .side, 0xd0080, [⟨0, 8, 0x8⟩], true,
      [F.WOT_WORLD_LOAD]⟩,
    ⟨"WOT_WORLD_ENTRY", 436, .side, 0xd00c0, [⟨0, 8, 0x8⟩], true,
      [F.WOT_WORLD_ENTRY]⟩,
    ⟨"WOT_HART", 437, .side, 0xd0200, [⟨0, 6, 0x4⟩], false,
      [F.WOT_HART_CURRENT, F.WOT_HART_HOME]⟩,
    ⟨"WOT_GATE_CFG", 438, .side, 0xd1000, [⟨0, 256, 0x10⟩], false,
      [F.WOT_GATE_CFG_CALLERS, F.WOT_GATE_CFG_PRIV, F.WOT_GATE_CFG_TARGET]⟩,
    ⟨"WOT_GATE_ENTRY", 439, .side, 0xd1008, [⟨0, 256, 0x10⟩], true,
      [F.WOT_GATE_ENTRY]⟩,
    ⟨"WOT_REG_BASE", 440, .side, 0xd2000, [⟨0, 128, 0x20⟩], true,
      [F.WOT_REG_BASE]⟩,
    ⟨"WOT_REG_PAGES", 441, .side, 0xd2008, [⟨0, 128, 0x20⟩], false,
      [F.WOT_REG_PAGES]⟩,
    ⟨"WOT_REG_PERM", 442, .side, 0xd2010, [⟨0, 128, 0x20⟩], false,
      [F.WOT_REG_PERM_X, F.WOT_REG_PERM_W, F.WOT_REG_PERM_R]⟩,
    ⟨"KEYS_STATUS", 443, .side, 0x140000, [], false,
      [F.KEYS_STATUS_DEBUG_OWNED, F.KEYS_STATUS_OWNED]⟩,
    ⟨"KEYS_GATE", 444, .side, 0x140004, [], false,
      [F.KEYS_GATE]⟩,
    ⟨"KEYS_OP_CTRL", 445, .side, 0x140008, [], false,
      [F.KEYS_OP_CTRL_GO, F.KEYS_OP_CTRL_SLOT, F.KEYS_OP_CTRL_OP]⟩,
    ⟨"KEYS_OP_STATUS", 446, .side, 0x14000c, [], false,
      [F.KEYS_OP_STATUS_ERRCODE, F.KEYS_OP_STATUS_ERR, F.KEYS_OP_STATUS_DONE, F.KEYS_OP_STATUS_BUSY]⟩,
    ⟨"KEYS_OP_ATTR", 447, .side, 0x140010, [], false,
      [F.KEYS_OP_ATTR_OWNER, F.KEYS_OP_ATTR_TYPE, F.KEYS_OP_ATTR_USE]⟩,
    ⟨"KEYS_OP_ADDR", 448, .side, 0x140018, [], true,
      [F.KEYS_OP_ADDR]⟩,
    ⟨"KEYS_OP_OUT", 449, .side, 0x140020, [], true,
      [F.KEYS_OP_OUT]⟩,
    ⟨"KEYS_OP_LEN", 450, .side, 0x140028, [], false,
      [F.KEYS_OP_LEN]⟩,
    ⟨"KEYS_SLOT", 451, .side, 0x140100, [⟨0, 64, 0x4⟩], false,
      [F.KEYS_SLOT_VALID, F.KEYS_SLOT_REVOKED, F.KEYS_SLOT_OTP, F.KEYS_SLOT_OWNER, F.KEYS_SLOT_TYPE, F.KEYS_SLOT_USE]⟩,
    ⟨"POKER_STATUS", 452, .side, 0x180000, [], false,
      [F.POKER_STATUS_UNLOCKED, F.POKER_STATUS_SCOPE, F.POKER_STATUS_LEVEL, F.POKER_STATUS_CAUSE]⟩,
    ⟨"POKER_CTRL", 453, .side, 0x180004, [], false,
      [F.POKER_CTRL]⟩,
    ⟨"POKER_TIME_LEFT", 454, .side, 0x180008, [], false,
      [F.POKER_TIME_LEFT]⟩,
    ⟨"POKER_UNLOCK_COUNT", 455, .side, 0x180010, [], true,
      [F.POKER_UNLOCK_COUNT]⟩,
    ⟨"POKER_REFUSE_COUNT", 456, .side, 0x180018, [], true,
      [F.POKER_REFUSE_COUNT]⟩,
    ⟨"WLD_KICK", 457, .side, 0x132100, [⟨0, 8, 0x1000⟩], false,
      [F.WLD_KICK]⟩,
    ⟨"TALLY_PERIOD", 458, .side, 0x110000, [], false,
      [F.TALLY_PERIOD]⟩,
    ⟨"TALLY_CFG", 459, .side, 0x110004, [], false,
      [F.TALLY_CFG_DEPTH_M1, F.TALLY_CFG_WORLD]⟩,
    ⟨"TALLY_RING_BASE", 460, .side, 0x110008, [], true,
      [F.TALLY_RING_BASE]⟩,
    ⟨"TALLY_SEQ", 461, .side, 0x110010, [], true,
      [F.TALLY_SEQ]⟩,
    ⟨"TALLY_LAST_S", 462, .side, 0x110018, [], true,
      [F.TALLY_LAST_S]⟩ ]

/-- Rows 481 to 517 of the register map. -/
def regRows12 : List Reg :=
  [ ⟨"TALLY_LAST_NS", 463, .side, 0x110020, [], true,
      [F.TALLY_LAST_NS]⟩,
    ⟨"TALLY_STATUS", 464, .side, 0x110028, [], false,
      [F.TALLY_STATUS_MISSING, F.TALLY_STATUS_RING_ERR, F.TALLY_STATUS_FREE, F.TALLY_STATUS_LOCAL_DONE, F.TALLY_STATUS_RECORDS_DONE]⟩,
    ⟨"TALLY_ECC_SRAM_CORR", 465, .side, 0x110100, [], true,
      [F.TALLY_ECC_SRAM_CORR]⟩,
    ⟨"TALLY_ECC_SRAM_UNCORR", 466, .side, 0x110108, [], true,
      [F.TALLY_ECC_SRAM_UNCORR]⟩,
    ⟨"TALLY_ECC_DDR_CORR", 467, .side, 0x110110, [], true,
      [F.TALLY_ECC_DDR_CORR]⟩,
    ⟨"TALLY_ECC_DDR_UNCORR", 468, .side, 0x110118, [], true,
      [F.TALLY_ECC_DDR_UNCORR]⟩,
    ⟨"TALLY_ECC_SCRUB_CORR", 469, .side, 0x110120, [], true,
      [F.TALLY_ECC_SCRUB_CORR]⟩,
    ⟨"PERF_CTRL", 470, .side, 0x100000, [], false,
      [F.PERF_CTRL_FREEZE, F.PERF_CTRL_ENABLE]⟩,
    ⟨"PERF_OVF_LO", 471, .side, 0x100004, [], false,
      [F.PERF_OVF_LO]⟩,
    ⟨"PERF_OVF_HI", 472, .side, 0x100008, [], false,
      [F.PERF_OVF_HI]⟩,
    ⟨"PERF_RANGE_BASE", 473, .side, 0x100010, [⟨0, 4, 0x10⟩], true,
      [F.PERF_RANGE_BASE]⟩,
    ⟨"PERF_RANGE_LIMIT", 474, .side, 0x100018, [⟨0, 4, 0x10⟩], true,
      [F.PERF_RANGE_LIMIT]⟩,
    ⟨"PERF_CNT", 475, .side, 0x100100, [⟨0, 48, 0x20⟩], true,
      [F.PERF_CNT]⟩,
    ⟨"PERF_SEL", 476, .side, 0x100108, [⟨0, 48, 0x20⟩], false,
      [F.PERF_SEL_EN, F.PERF_SEL_CHAIN, F.PERF_SEL_OVF_IRQ, F.PERF_SEL_EVENT]⟩,
    ⟨"PERF_FILT", 477, .side, 0x10010c, [⟨0, 48, 0x20⟩], false,
      [F.PERF_FILT_RANGE, F.PERF_FILT_PRIV, F.PERF_FILT_WORLD, F.PERF_FILT_INIT]⟩,
    ⟨"PERF_LATCH", 478, .side, 0x100110, [⟨0, 48, 0x20⟩], true,
      [F.PERF_LATCH]⟩,
    ⟨"ASH_SEQ", 479, .side, 0x120000, [], true,
      [F.ASH_SEQ]⟩,
    ⟨"ASH_MARK", 480, .side, 0x120008, [], true,
      [F.ASH_MARK]⟩,
    ⟨"ASH_CFG", 481, .side, 0x120010, [], false,
      [F.ASH_CFG]⟩,
    ⟨"ASH_STATUS", 482, .side, 0x120014, [], false,
      [F.ASH_STATUS_OVERWRITE, F.ASH_STATUS_FILL]⟩,
    ⟨"ASH_OVERWRITE_COUNT", 483, .side, 0x120018, [], true,
      [F.ASH_OVERWRITE_COUNT]⟩,
    ⟨"ASH_SEL", 484, .side, 0x120020, [], false,
      [F.ASH_SEL]⟩,
    ⟨"ASH_W", 485, .side, 0x120028, [⟨0, 4, 0x8⟩], true,
      [F.ASH_W]⟩,
    ⟨"IN_DIN_STATE", 486, .side, 0x150000, [], false,
      [F.IN_DIN_STATE]⟩,
    ⟨"IN_DIN_EVT", 487, .side, 0x150004, [], false,
      [F.IN_DIN_EVT]⟩,
    ⟨"IN_AIN_EVT", 488, .side, 0x150008, [], false,
      [F.IN_AIN_EVT]⟩,
    ⟨"IN_DIN_CFG", 489, .side, 0x150100, [⟨0, 16, 0x4⟩], false,
      [F.IN_DIN_CFG_OWNER, F.IN_DIN_CFG_PULL, F.IN_DIN_CFG_IRQ_EDGE, F.IN_DIN_CFG_FILTER]⟩,
    ⟨"IN_AIN", 490, .side, 0x150200, [⟨0, 24, 0x8⟩], true,
      [F.IN_AIN]⟩,
    ⟨"IN_AIN_CFG", 491, .side, 0x150400, [⟨0, 24, 0x4⟩], false,
      [F.IN_AIN_CFG_OWNER, F.IN_AIN_CFG_RANGE, F.IN_AIN_CFG_IRQ_EN]⟩,
    ⟨"IN_AIN_HI", 492, .side, 0x150500, [⟨0, 24, 0x10⟩], true,
      [F.IN_AIN_HI]⟩,
    ⟨"IN_AIN_LO", 493, .side, 0x150508, [⟨0, 24, 0x10⟩], true,
      [F.IN_AIN_LO]⟩,
    ⟨"PINS_STRAP", 494, .side, 0x170000, [], false,
      [F.PINS_STRAP_FLUE_REF_EXT, F.PINS_STRAP_STOKE_MODE]⟩,
    ⟨"PINS_RESET", 495, .side, 0x170004, [], false,
      [F.PINS_RESET]⟩,
    ⟨"HRN_W", 496, .grate, 0x2ffff8, [⟨0, 16, 0x80⟩, ⟨1, 8, 0x8⟩], true,
      [F.HRN_W]⟩,
    ⟨"FLUE_TALLY_SEQ", 497, .flue, 0x10, [], true,
      [F.FLUE_TALLY_SEQ]⟩,
    ⟨"FLUE_TALLY_S", 498, .flue, 0x18, [], true,
      [F.FLUE_TALLY_S]⟩,
    ⟨"FLUE_TALLY_NS", 499, .flue, 0x20, [], true,
      [F.FLUE_TALLY_NS]⟩ ]

/-- The register map. -/
def regMap : List Reg :=
  regRows0 ++ regRows1 ++ regRows2 ++ regRows3 ++ regRows4 ++ regRows5 ++ regRows6 ++ regRows7 ++ regRows8 ++ regRows9 ++ regRows10 ++ regRows11 ++ regRows12

end Sys2Proof.Machine
end

