-- ==== Sys2Proof/Machine/Operands.lean ====
section
/-! DEFINITION. Who accesses what: initiators and the worlds they carry (15 R420), the world ownership check (R423 to R426), the
physical address map (01 R31, R35) and the registers in it (R36 to R38), bus errors (00 R12) and the value that a
register reads as. -/
namespace Sys2Proof.Machine
open Sys2Proof

/-- Initiator code (R293). -/
def initCode : Origin → Nat
  | .hart h => h
  | .pair c => 4 + c
  | .dma _ => 8
  | .stoker _ => 9
  | .poker _ => 10
  | .far i _ => i

/-- The world that an initiator's access carries on side `x` (R420). -/
def State.worldOf (s : State) (x : Side) : Origin → Nat
  | .hart h => s.coreWorld x h
  | .pair c => s.coreWorld x (4 + c)
  | .dma n => s.get (.side x) F.DMA_CTRL_WORLD n
  | .stoker w => w
  | .poker w => w
  | .far _ w => w

/-! ## The address map -/

/-- Where a physical address of a side lies (R31). -/
inductive Place where
  | rom | sram | farSram | unit (off : Nat) | flue (off : Nat) | grate (d off : Nat) | farUnit (off : Nat) | nor | ddr
  | hole
  deriving DecidableEq, Repr

/-- The place of an address (R31, R35: pages above 0x19 of the far window are unmapped). -/
def placeOf (a : Nat) : Place :=
  if a < 0x20000 then .rom
  else if a < 0x10000000 then .hole
  else if a < 0x11400000 then .sram
  else if a < 0x20000000 then .hole
  else if a < 0x21400000 then .farSram
  else if a < 0x40000000 then .hole
  else if a < 0x50000000 then .unit (a - 0x40000000)
  else if a < 0x60000000 then .flue (a - 0x50000000)
  else if a < 0x64000000 then .grate ((a - 0x60000000) / 0x1000000) ((a - 0x60000000) % 0x1000000)
  else if a < 0x68000000 then .hole
  else if a < 0x70000000 then .farUnit (a - 0x68000000)
  else if a < 0x80000000 then .hole
  else if a < 0x88000000 then .nor
  else if a < 0x100000000 then .hole
  else if a < 0x200000000 then .ddr
  else .hole

/-- The start of the mapped range of R31 that holds `a`, and its end. -/
def rangeOf (a : Nat) : Option (Nat × Nat) :=
  [(0, 0x20000), (0x10000000, 0x11400000), (0x20000000, 0x21400000), (0x40000000, 0x50000000), (0x50000000, 0x60000000),
   (0x60000000, 0x64000000), (0x68000000, 0x70000000), (0x80000000, 0x88000000), (0x100000000, 0x200000000)].find?
    (fun r => decide (r.1 ≤ a ∧ a < r.2))

/-! ## World ownership -/

/-- Region `r` of side `x` as it is in force: first address, pages, permission masks (R423, R427). -/
def State.wotRegion (s : State) (x : Side) (r : Nat) : Nat × Nat × Nat :=
  if r < 64 then
    (s.get (.side x) F.WOT_REG_BASE r / 4096 * 4096, s.get (.side x) F.WOT_REG_PAGES r,
      s.get (.side x) F.WOT_REG_PERM_X r * 65536 + s.get (.side x) F.WOT_REG_PERM_W r * 256 + s.get (.side x) F.WOT_REG_PERM_R r)
  else match (s.side x).wotLive.find? (fun e => e.1 == r) with
    | some (_, b, p, m) => (b / 4096 * 4096, p, m)
    | none => (0, 0, 0)

/-- A region is in use: it has pages and lies wholly within one mapped range (R423). -/
def regionUsed (e : Nat × Nat × Nat) : Bool :=
  match rangeOf e.1 with
  | some (_, hi) => decide (0 < e.2.1 ∧ e.1 + e.2.1 * 4096 ≤ hi)
  | none => false

/-- The permission masks of the lowest-numbered region that covers the page of `a`, or world 0's own (R423). -/
def State.wotMask (s : State) (x : Side) (a : Nat) : Nat :=
  match ((List.range 128).map (s.wotRegion x)).find?
      (fun e => regionUsed e && decide (e.1 ≤ a / 4096 * 4096 ∧ a / 4096 * 4096 < e.1 + e.2.1 * 4096)) with
  | some e => e.2.2
  | none => 0x010101

/-- World `w` may make an access of kind `k` (0 read, 1 write, 2 execute) at `a` on side `x` (R423, R424). -/
def State.wotAllows (s : State) (x : Side) (a w k : Nat) : Bool :=
  match placeOf a with
  | .unit off =>
    let page := off / 0x10000
    if k = 2 then false
    else if page = 0x0D ∨ page = 0x14 ∨ page = 0x18 then w == 0
    else if page = 0x13 ∧ 0x2000 ≤ off % 0x10000 ∧ off % 0x10000 < 0xA000 then w == (off % 0x10000 - 0x2000) / 0x1000
    else (s.wotMask x a).testBit (8 * k + w)
  | .flue _ | .grate _ _ | .farUnit _ => if k = 2 then false else (s.wotMask x a).testBit (8 * k + w)
  | _ => (s.wotMask x a).testBit (8 * k + w)

/-- World `w` may make an access of kind `k` on every page of the `n` bytes from `a`. -/
def State.wotRange (s : State) (x : Side) (a n w k : Nat) : Bool :=
  (List.range ((a + n - 1) / 4096 - a / 4096 + 1)).all (fun i => s.wotAllows x (a / 4096 * 4096 + i * 4096) w k)

/-! ## Security events and bus errors -/

/-- A security event of bit `b` on side `x`, if WOT_SEC_CFG.EVENTS enables it (R456). -/
def State.secEvent (s : State) (x : Side) (b : Nat) : State :=
  if (s.get (.side x) F.WOT_SEC_CFG_EVENTS 0).testBit b then
    s.setSide x { s.side x with
      secEvents := (s.now, b) :: (s.side x).secEvents.filter (fun e => decide (s.now < e.1 + 10000000000)) }
  else s

/-- A refusal of the world ownership checker (R426). -/
def State.wotViolation (s : State) (x : Side) (init w k a : Nat) : State :=
  let h := Holder.side x
  let s := if s.is h F.WOT_STATUS_VIOL 0 then s else
    ((((s.set h F.WOT_VIOL_ADDR 0 a).set h F.WOT_VIOL_INFO_INITIATOR 0 init).set h F.WOT_VIOL_INFO_WORLD 0 w).set h
      F.WOT_VIOL_INFO_KIND 0 k).set h F.WOT_STATUS_VIOL 0 1
  ((s.inc h F.WOT_VIOL_COUNT 0).intr x 93).secEvent x 1

/-- The core whose access it is, if it is a core's. -/
def coreOf : Origin → Option Nat
  | .hart h => some h
  | .pair c => some (4 + c)
  | _ => none

/-- A core takes a load or store access fault, cause 5 or 7 of the base architecture, with the address (R12, R422). -/
def State.accessFault (s : State) (x : Side) (o : Origin) (write : Bool) (a : Nat) : State :=
  match coreOf o with
  | some h => s.exception x h (if write then 7 else 5) a
  | none => s

/-- The cause with which the far side of a bridge answers what its own checks refuse (R293). -/
def farCause (o : Origin) (cause : Nat) : Nat :=
  match o with
  | .far _ _ => if cause = 15 then 2 else if cause < 12 then cause else 1
  | _ => cause

/-- An access that ends in a bus error: no effect but the access fault of a core, the log (R12) and, for the ownership checker, R426. -/
def State.busError (s : State) (x : Side) (o : Origin) (cause size : Nat) (write : Bool) (a : Nat) : State :=
  let w := s.worldOf x o
  let s := ({ s with resp := .error (farCause o cause) }).accessFault x o write a
  let s := s.logFault x 0 (farCause o cause) (initCode o) w size write a
  if cause = 15 then s.wotViolation x (initCode o) w (b2n write) a else s

/-- An access of `o` waits: at a locked line (R302), or in a bridge for its data or its acknowledgement, sent or not (R48, R294, R297). A posted
write is complete for its initiator as it enters the bridge. -/
def State.waiting (s : State) (x : Side) (o : Origin) : Bool :=
  (s.side x).waits.any (fun w => w.origin == o) ||
    (List.range 6).any (fun i => ((s.bridge x i).txns ++ (s.bridge x i).near).any (fun t => t.init == initCode o && !t.posted && t.chan == 0))

/-- Side `x` has an initiator `o` that can make an access of `size` bytes at `a`: its fabric is out of reset, a core executes, does not owe a GATE.LAND and
none of its accesses waits, a DMA channel runs (R62), the cores of a safety pair make no 64-bit access (R72), the KEYS and POKER pages are closed to the other side (R35), and the
Poker port is unlocked for the world and the kind of access and reaches neither the KEYS page nor the far windows (R452). -/
def State.makes (s : State) (x : Side) (o : Origin) (a size : Nat) (write : Bool) : Bool :=
  s.fabric x && match o with
    | .hart h => s.coreRuns x h && (s.hart x h).landing.isNone && !s.waiting x o
    | .pair c => s.coreRuns x (4 + c) && size != 8 && !s.waiting x o
    | .far _ _ => !(a / 0x10000 == 0x4014 || a / 0x10000 == 0x4018)
    | .poker w =>
      s.is (.side x) F.POKER_STATUS_UNLOCKED 0 && (s.get (.side x) F.POKER_STATUS_SCOPE 0).testBit w &&
        (!write || decide (2 ≤ s.get (.side x) F.POKER_STATUS_LEVEL 0)) && !s.waiting x o &&
        (match placeOf a with
          | .farSram | .farUnit _ => false
          | _ => a / 0x10000 != 0x4014)
    | .dma n => s.is (.side x) F.DMA_STATUS_BUSY n
    | .stoker _ => true

/-- The PMP of an application core lets its access through (R22); no other initiator has one. -/
def State.pmpPasses (s : State) (x : Side) (o : Origin) (a size : Nat) (write : Bool) : Bool :=
  match o with
  | .hart h => (s.hart x h).pmpAllows (s.coreWorld x h) a size (b2n write)
  | _ => true

/-- The step of the core that makes an access ends with it (R452). -/
def State.stepDone (s : State) (x : Side) (o : Origin) : State :=
  match coreOf o with
  | some h => s.stepEnd x h
  | none => s

/-- An access of `size` bytes at `a` of side `x` by `o`, checked by the core's PMP, then for ownership (R22, R425); `f` is what it does when
permitted. -/
def State.guarded (s : State) (x : Side) (o : Origin) (a size : Nat) (write : Bool) (f : State → State) : State :=
  if ¬ s.makes x o a size write then s
  else State.stepDone (x := x) (o := o)
    (if ¬ s.pmpPasses x o a size write then { s with resp := .idle }.accessFault x o write a
     else if s.wotAllows x a (s.worldOf x o) (b2n write) then f { s with resp := .idle }
     else s.busError x o 15 size write a)

/-! ## Registers in the map -/

/-- The index of an offset in a register family, outermost index first. -/
def dimIndex : List Dim → Nat → Nat → Option Nat
  | [], off, acc => if off = 0 then some acc else none
  | d :: l, off, acc =>
    let i := off / d.stride
    if d.start ≤ i ∧ i < d.start + d.count then dimIndex l (off % d.stride) (acc * d.count + i) else none

/-- A register of a family exists at index `i`: BLW_ASYM1 and BLW_ASYM2 exist on ports 0 and 1 only (R419). -/
def Reg.has (r : Reg) (i : Nat) : Bool := r.num != F.BLW_ASYM.reg || decide (i < 6) || i % 3 == 0

/-- The register of a kind of holder at an offset, with its index. -/
def findReg (kind : HolderKind) (off : Nat) : Option (Reg × Nat) :=
  regMap.findSome? (fun r =>
    if r.kind = kind ∧ r.base ≤ off then ((dimIndex r.dims (off - r.base) 0).filter r.has).map (fun i => (r, i)) else none)

/-- The values of the fields of a register, each at its place. -/
def State.rawReg (s : State) (h : Holder) (r : Reg) (i : Nat) : Nat :=
  r.fields.foldl (fun v f => v + s.get h f i % 2 ^ f.width * 2 ^ f.lo) 0

/-- The next receive descriptor of side `x`: its address when the frame interface runs and owns it (R330). -/
def State.rxDesc (s : State) (x : Side) : Option Nat :=
  let h := Holder.side x
  let a := s.get h F.NETIF_RX_BASE 0 + 16 * s.get h F.NETIF_STATUS_RX_NEXT 0
  if s.is h F.NETIF_CTRL 0 ∧ ¬ s.is h F.NETIF_STATUS_ERR 0 ∧ (s.byte x (a + 12)).getLsbD 0 then some a else none

/-- Source `n` is enabled and pending in world `w` (R42). -/
def State.intrReady (s : State) (x : Side) (w n : Nat) : Bool :=
  let h := Holder.side x
  (s.get h F.INTR_ENABLE (n / 32)).testBit (n % 32) && (s.get h F.INTR_PENDING (n / 32)).testBit (n % 32) &&
    s.get h F.INTR_ROUTE_WORLD n == w

/-- The enabled and pending source of world `w` with the highest PRIO, the lower number on equal PRIO (R42). -/
def State.intrNext (s : State) (x : Side) (w : Nat) : Option Nat :=
  ((List.range 104).filter (s.intrReady x w)).foldl (fun b n =>
    match b with
    | none => some n
    | some m => if s.get (.side x) F.INTR_ROUTE_PRIO m < s.get (.side x) F.INTR_ROUTE_PRIO n then some n else some m) none

/-- The idle word (R69). -/
def idleWord : Nat := 2 ^ 40 - 1

/-- The words a CAN, door or Stoker field counts: fields that are not kept but follow from the queues. The fields whose read removes something show what it
would return (R514). -/
def State.computed (s : State) (x : Side) (f : Fld) (i : Nat) : Option Nat :=
  if f = F.DOOR_STATUS_CMD_CREDITS then
    some (64 - (s.src x i).asm.length - ((s.src x i).cmd.foldl (fun n p => n + 1 + p.params.length) 0))
  else if f = F.DOOR_RPL then some ((s.src x i).rpl.headD idleWord)
  else if f = F.DOOR_RPL_HI then some ((s.src x i).rpl.headD idleWord / 2 ^ 32)
  else if f = F.PAIR_RPL_HI then some ((if i = 0 then (s.side x).pair0 else (s.side x).pair1).rpl.headD idleWord / 2 ^ 32)
  else if f = F.INTR_CLAIM_VALID then some (b2n (s.intrNext x i).isSome)
  else if f = F.INTR_CLAIM_SOURCE then some ((s.intrNext x i).getD 0)
  else if f = F.DOOR_STATUS_RPL_WORDS then some (s.src x i).rpl.length
  else if f = F.DOOR_STATUS_OUTSTANDING then some (s.src x i).out.length
  else if f = F.DOOR_STATUS_PARTIAL then some (b2n ((s.src x i).asm != []))
  else if f = F.STOKE_STATUS_TX_WORDS then some (s.src x 32).rpl.length
  else if f = F.STOKE_STATUS_RX_CREDITS then
    some (64 - ((s.src x 32).cmd.foldl (fun n p => n + 1 + p.params.length) 0))
  else if f = F.STOKER_STATE_CHROMIR_QUEUE then some (s.side x).chromirQ.length
  else if f = F.STOKER_STATE_LONG_QUEUE then some ((s.side x).longQ.length % 2 ^ 8)
  else if f = F.BRIDGE_STATUS_OUTSTANDING then some (s.bridge x i).txns.length
  else if f = F.BRIDGE_STATUS_WR_PENDING then some (((s.bridge x i).txns ++ (s.bridge x i).near).filter (fun t => t.posted)).length
  else if f = F.BRIDGE_STATUS_SPLIT_ACTIVE then some (b2n ((s.bridge x i).txns.any (fun t => t.split)))
  else if f = F.NETIF_STATUS_RX_WAIT then some (b2n (s.is (.side x) F.NETIF_CTRL 0 && (s.rxDesc x).isNone))
  else if f = F.CAN_STATUS_READY then some (b2n (s.up x && s.present (.can x (Fin.ofNat 6 i)) && (s.can x i).booted))
  else if f.reg = F.CAN_XBT_TMS.reg ∧ 2 ≤ i then some 0
  else if f = F.LIFE_STATUS_LIMP then some (b2n (s.side x).limp)
  else if f = F.LIFE_STATUS_RX_COUNT then some (s.side x).lifeRx.length
  else if f = F.LIFE_STATUS_TX_FREE then some (8 - (s.side x).lifeTx.length)
  else if f = F.LIFE_RX_HEAD_VALID then some (b2n ((s.side x).lifeRx != []))
  else if f = F.LIFE_RX_HEAD_BUF then some ((s.side x).lifeRx.headD (0, 0)).1
  else if f = F.LIFE_RX_HEAD_LEN then some ((s.side x).lifeRx.headD (0, 0)).2
  else if f = F.TIME_D0_NS then some (nsWord (s.domTime x 0))
  else if f = F.TIME_D1_NS then some (nsWord (s.domTime x 1))
  else if f = F.SIDE_PEER_AGE then
    some (match (s.side x).peerAt with
      | some t => min (s.now - t) (2 ^ 40 - 1)
      | none => 2 ^ 40 - 1)
  else if f = F.PAIR_LEVEL_RPL_WORDS then some (if i = 0 then (s.side x).pair0 else (s.side x).pair1).rpl.length
  else if f = F.PAIR_LEVEL_OUT_CREDITS then
    let p := if i = 0 then (s.side x).pair0 else (s.side x).pair1
    some (64 - p.out.length - (p.done.foldl (fun n q => n + q.1.length) 0))
  else if f = F.PAIR_STATUS_SPLIT then some (s.get (.side x) F.PAIR_CFG_MODE 0)
  else if f = F.PAIR_RPL_LO then some (if i = 0 then (s.side x).pair0 else (s.side x).pair1).rplLo
  else if f = F.DOOR_RPL_LO then some (s.src x i).lo
  else if f = F.POKER_TIME_LEFT then
    some (match (s.side x).unlockEnd with
      | some e => ceilDiv (e - s.now) 60000000000
      | none => 0)
  else if f = F.WOT_HART_CURRENT ∧ 4 ≤ i then some (s.coreWorld x i)
  else if f = F.WOT_STATUS_SEC_LOCK then some (b2n s.ember.secLatch)
  else none

/-- The sources of group `k` whose world is `w`, as a mask (R41). -/
def State.intrMask (s : State) (x : Side) (w k : Nat) : Nat :=
  (List.range 32).foldl (fun m j => if s.get (.side x) F.INTR_ROUTE_WORLD (32 * k + j) = w then Machine.setBit m j else m) 0

/-- What a field reads as: write-only fields read zero (R14), the pages of R41 and R501 show each world its own, and the fields
that follow from queues and clocks are computed. -/
def State.fieldRead (s : State) (x : Side) (w : Nat) (h : Holder) (f : Fld) (i : Nat) : Nat :=
  if f.acc = .wo then 0
  else if f = F.INTR_ENABLE ∨ f = F.INTR_PENDING then s.get h f (i % 4) &&& s.intrMask x (i / 4) (i % 4)
  else if f = F.IN_DIN_STATE ∨ f = F.IN_DIN_EVT then
    (List.range 16).foldl (fun m n => if s.get h F.IN_DIN_CFG_OWNER n = w then m else Machine.clearBit m n) (s.get h f 0)
  else if f = F.IN_AIN_EVT then
    (List.range 24).foldl (fun m n => if s.get h F.IN_AIN_CFG_OWNER n = w then m else Machine.clearBit m n) (s.get h f 0)
  else if f = F.IN_AIN then (if s.get h F.IN_AIN_CFG_OWNER i = w then s.get h f i else 0)
  else if f = F.WOT_WORLD_CFG_ENABLED ∧ i = 0 then 1
  else if f = F.CAN_GATE then Machine.setBit (s.get h f i) 0
  else if f = F.PERF_SEL_CHAIN ∧ i % 2 = 0 then 0
  else match h with
    | .side _ => (s.computed x f i).getD (s.get h f i)
    | _ => s.get h f i

/-- The holder, register and index at address `a` of side `x`. -/
def regAt (x : Side) (a : Nat) : Option (Holder × Reg × Nat) :=
  match placeOf a with
  | .unit off =>
    match findReg .ember off with
    | some (r, i) => some (.ember, r, i)
    | none => (findReg .side off).map (fun q => (.side x, q.1, q.2))
  | .flue off => (findReg .flue off).map (fun q => (.flue, q.1, q.2))
  | .grate d off => (findReg .grate off).map (fun q => (.grate d, q.1, q.2))
  | _ => none

/-- Bytes of an access. -/
def widthBytes : Width → Nat
  | .w8 => 1
  | .w16 => 2
  | .w32 => 4
  | .w64 => 8

/-- A field written with access code and value (R14): only RW and W1C fields take a value here. -/
def State.writeField (s : State) (h : Holder) (i v : Nat) (f : Fld) : State :=
  match f.acc with
  | .rw => s.set h f i (bits v f.hi f.lo)
  | .w1c => s.set h f i (clearMask (s.get h f i) (bits v f.hi f.lo))
  | _ => s

/-- A register written field by field. -/
def State.writeReg (s : State) (h : Holder) (r : Reg) (i v : Nat) : State := s.each r.fields (fun s f => s.writeField h i v f)

end Sys2Proof.Machine
end

