-- ==== Sys2Proof/Machine/Memory.lean ====
section
/-! DEFINITION. Accesses to local SRAM and LPDDR5X once every check has passed (chapter 01 R25, R28, R29): loads with their ECC, stores,
load-reserved, store-conditional, AMOs, and the accesses that wait for a line that the other side has locked (10 R302). -/
namespace Sys2Proof.Machine
open Sys2Proof

/-- A word read for `o`: an uncorrectable error is a bus error to the reader (R28). -/
def State.memRead (s : State) (x : Side) (o : Origin) (a size : Nat) (e : Ecc) (write : Bool) : State :=
  let s := s.eccSeen x a e
  if e = .lost then s.busError x o 7 size write a else { s with resp := .data (s.loadLE x a size) }

/-- A number of `n` bits as signed. -/
def signed (n v : Nat) : Int := if 2 ^ n ≤ 2 * v then (v : Int) - 2 ^ n else v

/-- What an AMO on `n` bits writes. PRESUMED from the base architecture (log entry 85). -/
def amoValue (op : AmoOp) (n old v : Nat) : Nat :=
  match op with
  | .swap => v
  | .add => (old + v) % 2 ^ n
  | .xor => old ^^^ v
  | .and => old &&& v
  | .or => old ||| v
  | .min => if signed n old ≤ signed n v then old else v
  | .max => if signed n old ≤ signed n v then v else old
  | .minu => min old v
  | .maxu => max old v

/-- The reservation of the core that makes an access, if it is a core's. -/
def State.reserveLine (s : State) (x : Side) (o : Origin) (r : Option Nat) : State :=
  match coreOf o with
  | some h => s.setHart x h { s.hart x h with resv := r }
  | none => s

/-- The reservation that the core holds. -/
def State.reservation (s : State) (x : Side) (o : Origin) : Option Nat := (coreOf o).bind (fun h => (s.hart x h).resv)

/-- The access takes place. A store-conditional answers 0 when its reservation stands and it has written, else 1. -/
def State.memAccess (s : State) (x : Side) (o : Origin) (a size : Nat) (k : AccKind) (v : Nat) : State :=
  match k with
  | .store => s.write x a (leBytes size v)
  | .load e => s.memRead x o a size e false
  | .lr e =>
    let s := s.memRead x o a size e false
    if e = .lost then s else s.reserveLine x o (some a)
  | .sc =>
    if s.reservation x o = some a then { (s.reserveLine x o none).write x a (leBytes size v) with resp := .data 0 }
    else { s.reserveLine x o none with resp := .data 1 }
  | .amo op e =>
    let old := s.loadLE x a size
    let s := s.memRead x o a size e true
    if e = .lost then s else s.write x a (leBytes size (amoValue op (8 * size) old v))
  | .csrRead => s
  | .csrWrite => s

/-- An access of kind `k` changes memory, or may. -/
def accWrites : AccKind → Bool
  | .store => true
  | .load _ => false
  | .lr _ => false
  | .sc => true
  | .amo _ _ => true
  | .csrRead => false
  | .csrWrite => true

/-- What the ECC of the memory finds as an access of kind `k` reads it. -/
def accEcc : AccKind → Ecc
  | .load e => e
  | .lr e => e
  | .amo _ e => e
  | _ => .clean

/-- An access of kind `k` is one of LR, SC and AMO (R25). -/
def accAtomic : AccKind → Bool
  | .lr _ => true
  | .sc => true
  | .amo _ _ => true
  | _ => false

/-! ## Locked lines (R302) -/

/-- An access waits at a locked line. A bridge transaction waits in its bridge and a DMA access in its channel. -/
def State.waitFor (s : State) (x : Side) (o : Origin) (a size : Nat) (k : AccKind) (v : Nat) : State :=
  match o with
  | .far _ _ => s
  | .dma _ => s
  | _ => s.setSide x { s.side x with waits := (s.side x).waits ++ [⟨o, a, size, k, v⟩] }

/-- The accesses of side `x` that waited and whose lines are free now take place, in order. -/
def State.runWaits (s : State) (x : Side) : State :=
  let ws := (s.side x).waits
  let s := s.setSide x { s.side x with waits := ws.filter (fun w => s.lockedHere x w.origin w.addr w.size) }
  s.each (ws.filter (fun w => !s.lockedHere x w.origin w.addr w.size)) (fun s w => s.memAccess x w.origin w.addr w.size w.kind w.data)

/-- The accesses that wait for core `h` of side `x` go with its reset; what it has posted stays (R58). -/
def State.dropWaits (s : State) (x : Side) (h : Nat) : State :=
  let s := s.setSide x { s.side x with waits := (s.side x).waits.filter (fun w => coreOf w.origin != some h) }
  s.each (List.range 6) (fun s i =>
    let b := s.bridge x i
    s.setBridge x i { b with near := b.near.filter (fun t => t.init != h || t.posted) })

end Sys2Proof.Machine
end

