-- ==== Sys2Proof/Machine/Crypto.lean ====
section
/-! DEFINITION. The algorithms that the manual names by their standards: AES-256 (FIPS 197), CMAC (NIST SP 800-38B, chapter 13 R388, chapter 15
R448), GCM (NIST SP 800-38D, chapter 12 R353), SHA-384 (FIPS 180-4) and ECDSA on P-384 (FIPS 186-5, chapter 04 R122, chapter 15 R448), on
lists of bytes. -/
namespace Sys2Proof.Machine

/-- The `n` big-endian bytes of `v`. -/
def beBytes (n v : Nat) : List Nat := (leBytes n v).reverse

/-- A list cut into lists of `n`, as many as `k` at most, the last one perhaps shorter. -/
def chunks (n : Nat) : Nat → List Nat → List (List Nat)
  | 0, _ => []
  | k + 1, l => if l.isEmpty then [] else l.take n :: chunks n k (l.drop n)

/-- Bytes exclusive-ored, as many as the shorter list has. -/
def xorBytes (a b : List Nat) : List Nat := List.zipWith (· ^^^ ·) a b

/-! ## AES-256 (FIPS 197) -/

/-- A byte times x in GF(2^8). -/
def aesDouble (a : Nat) : Nat := if a.testBit 7 then (2 * a) ^^^ 0x11B else 2 * a

/-- The product of two bytes in GF(2^8). -/
def aesMul (a b : Nat) : Nat :=
  ((List.range 8).foldl (fun q i => (if b.testBit i then q.1 ^^^ q.2 else q.1, aesDouble q.2)) (0, a)).1

/-- The inverse of a byte in GF(2^8), 0 for 0: its power 254. -/
def aesInv (a : Nat) : Nat := iter (fun r => aesMul a (aesMul r r)) 6 a |> fun r => aesMul r r

/-- The substitution of a byte. -/
def aesSub (a : Nat) : Nat :=
  let b := aesInv a
  let rot (n : Nat) : Nat := (b * 2 ^ n) % 256 + b / 2 ^ (8 - n)
  b ^^^ rot 1 ^^^ rot 2 ^^^ rot 3 ^^^ rot 4 ^^^ 0x63

/-- Word `i` of the key schedule from the words before it, newest first. -/
def aesWord (i : Nat) (ws : List (List Nat)) : List Nat :=
  let t := ws.headD []
  let t := if i % 8 = 0 then xorBytes ((t.drop 1 ++ t.take 1).map aesSub) [iter aesDouble (i / 8 - 1) 1, 0, 0, 0]
    else if i % 8 = 4 then t.map aesSub else t
  xorBytes (ws.getD 7 []) t

/-- The fifteen round keys of a 32-byte key. -/
def aesKeys (key : List Nat) : List (List Nat) :=
  let first := (chunks 4 8 (key ++ List.replicate 32 0)).reverse
  let ws := ((List.range 52).foldl (fun ws i => aesWord (i + 8) ws :: ws) first).reverse
  (List.range 15).map (fun r => ((ws.drop (4 * r)).take 4).flatten)

/-- The rows of the state shifted; a state is its sixteen bytes, column by column. -/
def aesShift (b : List Nat) : List Nat := (List.range 16).map (fun i => b.getD ((i + 4 * (i % 4)) % 16) 0)

/-- A column mixed. -/
def aesMix (c : List Nat) : List Nat :=
  (List.range 4).map (fun i => let at_ (j : Nat) := c.getD ((i + j) % 4) 0
    aesDouble (at_ 0) ^^^ aesDouble (at_ 1) ^^^ at_ 1 ^^^ at_ 2 ^^^ at_ 3)

/-- A block of sixteen bytes enciphered under round keys. -/
def aesBlock (ks : List (List Nat)) (b : List Nat) : List Nat :=
  let start := xorBytes b (ks.headD [])
  let mid := ((ks.drop 1).take 13).foldl (fun b k => xorBytes (((chunks 4 4 (aesShift (b.map aesSub))).map aesMix).flatten) k) start
  xorBytes (aesShift (mid.map aesSub)) (ks.getD 14 [])

/-! ## CMAC (NIST SP 800-38B) -/

/-- A block of 128 bits doubled. -/
def cmacDouble (v : Nat) : Nat := (if v.testBit 127 then (2 * v) ^^^ 0x87 else 2 * v) % 2 ^ 128

/-- The CMAC of a message under an AES-256 key: sixteen bytes. -/
def cmac (key msg : List Nat) : List Nat :=
  let ks := aesKeys key
  let k1 := cmacDouble (beNat (aesBlock ks (List.replicate 16 0)))
  let n := max 1 (ceilDiv msg.length 16)
  let last := msg.drop (16 * (n - 1))
  let pad := if last.length = 16 then xorBytes last (beBytes 16 k1)
    else xorBytes (last ++ 0x80 :: List.replicate (15 - last.length) 0) (beBytes 16 (cmacDouble k1))
  (chunks 16 (n - 1) msg ++ [pad]).foldl (fun c b => aesBlock ks (xorBytes c b)) (List.replicate 16 0)

/-! ## GCM (NIST SP 800-38D) -/

/-- The product of two blocks in GF(2^128), whose first bit is the highest. -/
def gcmMul (a b : Nat) : Nat :=
  ((List.range 128).foldl (fun q i => (if a.testBit (127 - i) then q.1 ^^^ q.2 else q.1,
    if q.2.testBit 0 then q.2 / 2 ^^^ 0xE1 * 2 ^ 120 else q.2 / 2)) (0, b)).1

/-- Bytes filled with zeros to whole blocks. -/
def gcmPad (l : List Nat) : List Nat := l ++ List.replicate ((16 - l.length % 16) % 16) 0

/-- GHASH of bytes. -/
def gHash (h : Nat) (l : List Nat) : Nat := (chunks 16 (ceilDiv l.length 16) l).foldl (fun y b => gcmMul (y ^^^ beNat b) h) 0

/-- Bytes under the key stream that follows the counter block of a 12-byte IV. -/
def gcmStream (ks : List (List Nat)) (iv l : List Nat) : List Nat :=
  ((chunks 16 (ceilDiv l.length 16) l).zip (List.range (ceilDiv l.length 16))).flatMap
    (fun p => xorBytes p.1 (aesBlock ks (iv ++ beBytes 4 (p.2 + 2))))

/-- The sixteen-byte tag of associated data and ciphertext. -/
def gcmTag (ks : List (List Nat)) (iv aad c : List Nat) : List Nat :=
  let h := beNat (aesBlock ks (List.replicate 16 0))
  let y := gHash h (gcmPad aad ++ gcmPad c ++ beBytes 8 (8 * aad.length) ++ beBytes 8 (8 * c.length))
  xorBytes (beBytes 16 y) (aesBlock ks (iv ++ [0, 0, 0, 1]))

/-! ## SHA-384 (FIPS 180-4) -/

/-- The greatest `n`-bit number whose power `e` is at most `v`. -/
def root (e v : Nat) : Nat → Nat → Nat
  | 0, r => r
  | n + 1, r => root e v n (if (r + 2 ^ n) ^ e ≤ v then r + 2 ^ n else r)

/-- The first eighty primes. -/
def primes80 : List Nat := (List.range 410).filter (fun n => decide (2 ≤ n) && (List.range n).all (fun d => decide (d < 2) || n % d != 0))

/-- The round constants: the first 64 bits of the fractions of the cube roots of the first eighty primes. -/
def shaK : List Nat := primes80.map (fun p => root 3 (p * 2 ^ 192) 72 0 % 2 ^ 64)

/-- The initial hash value: the same of the square roots of the ninth to the sixteenth prime. -/
def shaH : List Nat := ((primes80.drop 8).take 8).map (fun p => root 2 (p * 2 ^ 128) 72 0 % 2 ^ 64)

/-- A 64-bit word rotated right. -/
def rotr (n v : Nat) : Nat := v / 2 ^ n + v % 2 ^ n * 2 ^ (64 - n)

/-- The next word of a message schedule from the words before it, newest first. -/
def shaWord (ws : List Nat) : Nat :=
  let at_ (i : Nat) := ws.getD i 0
  let s0 := rotr 1 (at_ 14) ^^^ rotr 8 (at_ 14) ^^^ at_ 14 / 2 ^ 7
  let s1 := rotr 19 (at_ 1) ^^^ rotr 61 (at_ 1) ^^^ at_ 1 / 2 ^ 6
  (s1 + at_ 6 + s0 + at_ 15) % 2 ^ 64

/-- One round on the eight working variables. -/
def shaRound (v : List Nat) (kw : Nat × Nat) : List Nat :=
  match v with
  | [a, b, c, d, e, f, g, h] =>
    let t1 := h + (rotr 14 e ^^^ rotr 18 e ^^^ rotr 41 e) + ((e &&& f) ^^^ ((2 ^ 64 - 1 - e) &&& g)) + kw.1 + kw.2
    let t2 := (rotr 28 a ^^^ rotr 34 a ^^^ rotr 39 a) + ((a &&& b) ^^^ (a &&& c) ^^^ (b &&& c))
    [(t1 + t2) % 2 ^ 64, a, b, c, (d + t1) % 2 ^ 64, e, f, g]
  | _ => v

/-- The hash value after a block of 128 bytes. -/
def shaBlock (hs b : List Nat) : List Nat :=
  let first := ((chunks 8 16 b).map beNat).reverse
  let ws := ((List.range 64).foldl (fun ws _ => shaWord ws :: ws) first).reverse
  List.zipWith (fun a b => (a + b) % 2 ^ 64) hs ((shaK.zip ws).foldl shaRound hs)

/-- SHA-384: 48 bytes. -/
def sha384 (m : List Nat) : List Nat :=
  let pad := m ++ 0x80 :: List.replicate ((239 - m.length % 128) % 128) 0 ++ beBytes 16 (8 * m.length)
  (((chunks 128 (pad.length / 128) pad).foldl shaBlock shaH).take 6).flatMap (beBytes 8)

/-! ## ECDSA on P-384 (FIPS 186-5) -/

/-- The field prime. -/
def p384 : Nat := 2 ^ 384 - 2 ^ 128 - 2 ^ 96 + 2 ^ 32 - 1

/-- The coefficient b of the curve. -/
def p384b : Nat := 0xb3312fa7e23ee7e4988e056be3f82d19181d9c6efe8141120314088f5013875ac656398d8a2ed19d2a85c8edd3ec2aef

/-- The order of the base point. -/
def p384n : Nat := 0xffffffffffffffffffffffffffffffffffffffffffffffffc7634d81f4372ddf581a0db248b0a77aecec196accc52973

/-- The base point. -/
def p384g : Nat × Nat :=
  (0xaa87ca22be8b05378eb1c71ef320ad746e1d3b628ba79b9859f741e082542a385502f25dbf55296c3a545e3872760ab7,
   0x3617de4a96262c6f5d9e98bf9292dc29f8f41dbd289a147ce9da3113b5f0b8c00a60b1ce1d7e819d7a431d7c90ea0e5f)

/-- `b ^ e` modulo `m`, of an exponent of `n` bits. -/
def powMod (m b e : Nat) : Nat → Nat
  | 0 => 1 % m
  | n + 1 => let r := powMod m (b * b % m) (e / 2) n; if e.testBit 0 then r * b % m else r

/-- The inverse modulo a prime. -/
def invMod (m a : Nat) : Nat := powMod m a (m - 2) 384

/-- The difference modulo the field prime of two numbers below it. -/
def subP (a b : Nat) : Nat := (a + p384 - b) % p384

/-- The sum of two points; `none` is the point at infinity. -/
def ecAdd : Option (Nat × Nat) → Option (Nat × Nat) → Option (Nat × Nat)
  | none, q => q
  | p, none => p
  | some (x, y), some (u, v) =>
    if x = u ∧ (y + v) % p384 = 0 then none
    else
      let l := if x = u then subP (3 * x * x % p384) 3 * invMod p384 (2 * y % p384) % p384
        else subP v y * invMod p384 (subP u x) % p384
      let w := subP (subP (l * l % p384) x) u
      some (w, subP (l * subP x w % p384) y)

/-- `k` times a point, of `k` below 2^n. -/
def ecMul (p : Option (Nat × Nat)) (k : Nat) : Nat → Option (Nat × Nat)
  | 0 => none
  | n + 1 => let r := ecMul (ecAdd p p) (k / 2) n; if k.testBit 0 then ecAdd r p else r

/-- A point lies on the curve. -/
def onCurve (q : Nat × Nat) : Bool :=
  decide (q.1 < p384 ∧ q.2 < p384 ∧ q.2 * q.2 % p384 = (subP (q.1 * q.1 * q.1 % p384) (3 * q.1 % p384) + p384b) % p384)

/-- A signature (r, s) of a digest verifies under a public key (x, y). -/
def ecdsaVerify (key digest sig : List Nat) : Bool :=
  let q := (beNat (key.take 48), beNat (key.drop 48))
  let r := beNat (sig.take 48)
  let s := beNat (sig.drop 48)
  let w := invMod p384n s
  onCurve q && decide (0 < r ∧ r < p384n ∧ 0 < s ∧ s < p384n) &&
    match ecAdd (ecMul (some p384g) (beNat digest * w % p384n) 384) (ecMul (some q) (r * w % p384n) 384) with
    | some v => v.1 % p384n == r
    | none => false

/-- The signature of a digest under a private key with the per-message secret `k`. -/
def ecdsaSign (key digest : List Nat) (k : Nat) : List Nat :=
  let k := k % (p384n - 1) + 1
  let r := ((ecMul (some p384g) k 384).getD (0, 0)).1 % p384n
  let s := invMod p384n k * (beNat digest + r * beNat key) % p384n
  beBytes 48 r ++ beBytes 48 s

/-- The public key (x, y) of a private key. -/
def ecdsaPublic (key : List Nat) : List Nat :=
  let q := (ecMul (some p384g) (beNat key % p384n) 384).getD (0, 0)
  beBytes 48 q.1 ++ beBytes 48 q.2

end Sys2Proof.Machine
end

