-- ==== Sys2Proof/Machine/Packets.lean ====
section
/-! DEFINITION. Command packets (chapter 03): status codes (R101), the opcode tables (R88 to R100), BAD_PARAM (R66, R513), and how a
packet runs in Chromir, as a long operation or at a grate die. -/
namespace Sys2Proof.Machine
open Sys2Proof

/-! ## Status codes (R101) -/

/-- OK. -/
def stOk : Nat := 0x00
/-- PARTIAL. -/
def stPartial : Nat := 0x02
/-- REFUSED_BUDGET. -/
def stBudget : Nat := 0x10
/-- REFUSED_LIMIT. -/
def stLimit : Nat := 0x11
/-- SHED. -/
def stShed : Nat := 0x12
/-- REFUSED_MODE. -/
def stMode : Nat := 0x13
/-- TARGET_ABSENT. -/
def stAbsent : Nat := 0x20
/-- TARGET_RESET. -/
def stReset : Nat := 0x21
/-- TAG_BUSY. -/
def stTagBusy : Nat := 0x22
/-- BAD_LENGTH. -/
def stLength : Nat := 0x23
/-- BAD_OPCODE. -/
def stOpcode : Nat := 0x24
/-- WORLD_DENIED. -/
def stDenied : Nat := 0x25
/-- NOT_MASTER. -/
def stMaster : Nat := 0x26
/-- BAD_PARAM. -/
def stParam : Nat := 0x27
/-- BUSY_UPDATE. -/
def stBusy : Nat := 0x28
/-- FRAGMENT. -/
def stFragment : Nat := 0x30
/-- OVERRUN. -/
def stOverrun : Nat := 0x31
/-- UNDERRUN. -/
def stUnderrun : Nat := 0x32
/-- CHECK_FAILED. -/
def stCheck : Nat := 0x40
/-- SIGNATURE_FAILED. -/
def stSignature : Nat := 0x41
/-- EXHAUSTED. -/
def stExhausted : Nat := 0x42
/-- TIMEOUT. -/
def stTimeout : Nat := 0x50

/-! ## Opcodes (R88 to R100) -/

/-- The path of an opcode: fast, Chromir, or a long operation with its bound in ns. -/
inductive Path where
  | fast | chromir | long (bound : Nat)
  deriving DecidableEq, Repr

/-- Who may issue an opcode: any world, world 0, the world that owns the target, the owner or world 0, or the owners of the selected
channels (R93). -/
inductive Issuer where
  | any | zero | owner | ownerOrZero | group
  deriving DecidableEq, Repr

/-- A row of the opcode tables: code, least and greatest parameter count, the largest reply word count, the room for a DELAYED
reply (R75), path and issuer. -/
structure Op where
  code : Nat
  min : Nat
  max : Nat
  words : Nat
  delayed : Nat
  path : Path
  issuer : Issuer
  deriving DecidableEq, Repr

/-- The opcodes of classes 0 to 3. -/
def opsLow : List Op :=
  [⟨0x000, 0, 0, 0, 0, .chromir, .any⟩, ⟨0x001, 0, 0, 4, 0, .chromir, .any⟩, ⟨0x002, 1, 1, 0, 0, .chromir, .zero⟩,
   ⟨0x003, 0, 0, 1, 0, .chromir, .any⟩, ⟨0x004, 0, 0, 0, 0, .chromir, .zero⟩, ⟨0x005, 0, 31, 31, 0, .chromir, .any⟩,
   ⟨0x101, 1, 1, 1, 0, .chromir, .zero⟩, ⟨0x102, 0, 0, 1, 0, .chromir, .any⟩, ⟨0x103, 2, 2, 2, 0, .chromir, .any⟩,
   ⟨0x104, 3, 3, 0, 0, .chromir, .zero⟩, ⟨0x105, 2, 2, 1, 0, .long 4000000000, .zero⟩,
   ⟨0x106, 0, 0, 1, 0, .long 300000000, .any⟩,
   ⟨0x201, 1, 1, 0, 1, .fast, .owner⟩, ⟨0x202, 1, 1, 0, 1, .fast, .owner⟩, ⟨0x203, 2, 2, 0, 0, .chromir, .owner⟩,
   ⟨0x204, 0, 0, 4, 0, .fast, .any⟩, ⟨0x205, 1, 1, 0, 0, .chromir, .owner⟩, ⟨0x206, 2, 2, 4, 5, .fast, .group⟩,
   ⟨0x207, 1, 1, 6, 0, .chromir, .any⟩,
   ⟨0x301, 0, 0, 6, 0, .chromir, .any⟩, ⟨0x302, 1, 1, 0, 0, .chromir, .owner⟩, ⟨0x303, 0, 0, 3, 0, .chromir, .any⟩,
   ⟨0x304, 0, 0, 8, 0, .chromir, .any⟩, ⟨0x305, 8, 8, 0, 0, .long 20000000, .zero⟩]

/-- The opcodes of classes 4 to 0xB. -/
def opsHigh : List Op :=
  [⟨0x401, 12, 12, 0, 0, .chromir, .owner⟩, ⟨0x402, 1, 1, 0, 0, .chromir, .owner⟩,
   ⟨0x403, 0, 0, 13, 0, .chromir, .ownerOrZero⟩, ⟨0x404, 0, 0, 4, 0, .chromir, .ownerOrZero⟩,
   ⟨0x501, 1, 1, 0, 0, .chromir, .owner⟩, ⟨0x502, 8, 8, 0, 0, .chromir, .owner⟩, ⟨0x503, 0, 0, 31, 0, .chromir, .any⟩,
   ⟨0x504, 1, 1, 0, 0, .chromir, .owner⟩,
   ⟨0x601, 0, 0, 1, 0, .chromir, .zero⟩, ⟨0x602, 0, 0, 0, 0, .chromir, .zero⟩, ⟨0x603, 1, 1, 1, 0, .chromir, .zero⟩,
   ⟨0x604, 6, 6, 0, 0, .chromir, .zero⟩, ⟨0x605, 3, 3, 0, 0, .chromir, .zero⟩,
   ⟨0x701, 0, 0, 4, 0, .chromir, .any⟩, ⟨0x702, 0, 0, 0, 0, .chromir, .zero⟩, ⟨0x703, 5, 5, 0, 0, .chromir, .owner⟩,
   ⟨0x704, 0, 0, 3, 0, .chromir, .owner⟩, ⟨0x705, 4, 4, 0, 0, .chromir, .zero⟩,
   ⟨0x801, 0, 0, 1, 0, .chromir, .any⟩, ⟨0x802, 0, 0, 0, 0, .chromir, .zero⟩, ⟨0x803, 0, 0, 10, 0, .chromir, .any⟩,
   ⟨0x804, 0, 2, 7, 0, .chromir, .zero⟩,
   ⟨0x901, 0, 0, 2, 0, .chromir, .any⟩, ⟨0x902, 2, 2, 0, 0, .long 150000000, .zero⟩,
   ⟨0xA01, 1, 1, 28, 0, .chromir, .zero⟩, ⟨0xA02, 1, 1, 1, 0, .chromir, .any⟩,
   ⟨0xB01, 0, 0, 1, 0, .chromir, .any⟩, ⟨0xB02, 0, 0, 1, 0, .chromir, .zero⟩, ⟨0xB03, 0, 0, 1, 0, .chromir, .zero⟩,
   ⟨0xB04, 2, 2, 0, 0, .chromir, .zero⟩, ⟨0xB05, 1, 1, 0, 0, .chromir, .zero⟩]

/-- Every assigned opcode. -/
def ops : List Op := opsLow ++ opsHigh

/-- The row of a code. -/
def opOf (code : Nat) : Option Op := ops.find? (fun o => o.code == code)

/-- The least and greatest parameter count of a packet: WLD_DEBUG_UNLOCK lists them by TARGET (R88). -/
def Op.counts (o : Op) (target : Nat) : Nat × Nat :=
  if o.code = 0x804 then (if target = 0 then (0, 0) else if target = 1 then (2, 2) else (0, 2)) else (o.min, o.max)

/-- Words of the reply FIFO that a packet of code `code` reserves (R75); an unassigned code needs its refusal's header. -/
def reserveOf (code : Nat) : Nat :=
  match opOf code with
  | some o => 1 + o.words + o.delayed
  | none => 1

/-- Parameter word n of a packet, from 1. -/
def Packet.p (k : Packet) (n : Nat) : Nat := k.params.getD (n - 1) 0

/-- An offence of a packet: the word and the bit it names (R513). -/
abbrev Offence := Nat × Nat

/-- The DETAIL of BAD_PARAM for the offences of a packet, if any: the lowest word, then the lowest bit (R513). -/
def offenceDetail (l : List Offence) : Option Nat :=
  match l with
  | [] => none
  | o :: t =>
    let k := t.foldl (fun k p => min k (p.1 * 64 + p.2)) (o.1 * 64 + o.2)
    some (k / 64 + k % 64 * 64)

/-- The non-zero unassigned bits of the parameter words, by the mask of assigned bits of each word (R66). -/
def unassigned : List Nat → List Nat → Nat → List Offence
  | m :: ms, p :: ps, i =>
    let r := clearMask p m
    if r = 0 then unassigned ms ps (i + 1) else (i, lowestBit 40 r) :: unassigned ms ps (i + 1)
  | _, _, _ => []

/-- An offence when a condition fails. -/
def need (c : Bool) (word bit_ : Nat) : List Offence := if c then [] else [(word, bit_)]

/-- A mask of the lowest `n` bits. -/
def ones (n : Nat) : Nat := 2 ^ n - 1

/-! ## Running a packet -/

/-- Unit code of a unit in TARGET_ABSENT and TARGET_RESET (R90, R101). -/
def unitCode : UnitId → Nat
  | .grate d => 0x040 + d
  | .flue => 0x050
  | .can _ k => 0x010 + k
  | .dma _ => 0x020
  | .life _ => 0x030

/-- A packet whose completion CHROMIR_MAX judges: an ordinary opcode, not one that has had its TIMEOUT (R112). -/
def State.ordinary (s : State) (j : Job) : Bool :=
  match opOf j.pkt.code with
  | some o => o.path == .chromir && !(s.side j.side).timedOut.contains j.seq
  | none => false

/-- Chromir answers a packet; the longest ordinary completion of the tally is kept (R112). -/
def State.done (s : State) (j : Job) (status detail : Nat) (words : List Nat) : State :=
  let h := Holder.side j.side
  let s := if s.ordinary j then s.set h F.STOKER_CHROMIR_MAX 0 (max (s.get h F.STOKER_CHROMIR_MAX 0) (s.now - j.takenAt)) else s
  s.answer j status detail words

/-- The proxy responder answers a packet for the ABSENT unit `u`, and counts it (R56, R59). -/
def State.doneAbsent (s : State) (j : Job) (u : UnitId) : State :=
  (s.inc (.side j.side) F.FAB_PROXY_ABSENT 0).done j stAbsent (unitCode u) []

/-- The path of a packet's code; an unassigned code goes with the Chromir path (R80). -/
def pathOf (code : Nat) : Path := ((opOf code).map (fun o => o.path)).getD .chromir

/-- A long operation (R82). -/
def isLong (j : Job) : Bool :=
  match pathOf j.pkt.code with
  | .long _ => true
  | _ => false

/-- The long operations at the head of the Chromir queue leave it for the background, where they run one at a time (R82). -/
def State.longMove (s : State) (x : Side) : State :=
  let v := s.side x
  if v.chromirDown then s
  else
    let l := v.chromirQ.takeWhile isLong
    s.setSide x { v with chromirQ := v.chromirQ.dropWhile isLong, longQ := v.longQ ++ l,
                         longAt := if v.longQ = [] then s.now else v.longAt }

/-- The grate die that a packet reaches over the grate link, if any (R84, R94, R264). -/
def grateDie (k : Packet) : Option Nat :=
  if k.code = 0x206 then (if k.target < 4 then some k.target else none)
  else if (k.code / 256 = 2 ∨ (k.code / 256 = 3 ∧ k.code ≠ 0x301)) ∧ k.target < 64 then some (k.target / 16)
  else none

/-- A packet of the grate or the Damper class in Chromir reaches its die over the side's one grate link, behind the packets taken earlier
that are still on it (R84). A packet that Chromir holds delays no fast-path packet of another source (DESIGN CHOICE, log entry 14). -/
def State.linkClear (s : State) (x : Side) (j : Job) : Bool :=
  match grateDie j.pkt with
  | some d => !(Tab.at [] (s.side x).links d).any (fun k => decide (k.seq < j.seq))
  | none => true

/-- Chromir of side `x` executes the packet at the head of its queue if that is a packet of code `code` (R82). -/
def State.chromir (s : State) (x : Side) (code : Nat) (f : State → Job → State) : State :=
  match (s.side x).chromirQ with
  | j :: q =>
    if s.up x ∧ ¬ (s.side x).chromirDown ∧ j.pkt.code = code ∧ s.linkClear x j then
      f ((s.setSide x { s.side x with chromirQ := q }).longMove x) j
    else s
  | [] => s

/-- The first long operation in take order, if it has code `code` and has not run, runs: its final reply waits for its completion (R82). -/
def State.long (s : State) (x : Side) (code : Nat) (f : State → Job → State × Reply) : State :=
  match (s.side x).longQ with
  | j :: _ =>
    if s.up x ∧ ¬ (s.side x).chromirDown ∧ j.pkt.code = code ∧ (s.side x).longReply = none ∧ s.linkClear x j then
      let r := f s j
      r.1.setSide x { r.1.side x with longReply := some r.2 }
    else s
  | [] => s

/-- Replies to side `x` inside grate die `d` go out on the link in order while it has credits for their words (R48, R50): the number bounds them. -/
def State.sendReplies (s : State) (x : Side) (d : Nat) : Nat → State
  | 0 => s
  | k + 1 =>
    let link := Tab.at [] (s.side x).rpls d
    match Tab.at [] (s.die d).out x.num with
    | r :: q =>
      if (link ++ [r]).foldl (fun n r => n + r.words.length + 1) 0 ≤ 32 then
        let s := s.setSide x { s.side x with rpls := Tab.put [] (s.side x).rpls d (link ++ [r]) }
        (s.setDie d { s.die d with out := Tab.put [] (s.die d).out x.num q }).sendReplies x d k
      else s
    | [] => s

/-- Grate die `d` answers: its reply starts on the link of the side whose packet it answers, behind its earlier ones (R81). -/
def State.dieReply (s : State) (d : Nat) (r : Reply) : State :=
  let n := r.job.side.num
  (s.setDie d { s.die d with out := Tab.put [] (s.die d).out n (Tab.at [] (s.die d).out n ++ [r]) }).sendReplies r.job.side d 1

/-- The packet at the head of side `x`'s link to grate die `d` runs there if it is a packet of code `code` and the die is PRESENT. -/
def State.fast (s : State) (x : Side) (d code : Nat) (f : State → Job → State) : State :=
  match Tab.at [] (s.side x).links d with
  | j :: q =>
    if s.present (dieUnit d) ∧ j.pkt.code = code then
      f (s.setSide x { s.side x with links := Tab.put [] (s.side x).links d q }) j
    else s
  | [] => s

end Sys2Proof.Machine
end

