-- ==== Sys2Proof/Machine/Ring.lean ====
section
/-! DEFINITION. The lifeline ports and the interlock loop (chapter 11 R323 to R328). -/
namespace Sys2Proof.Machine
open Sys2Proof

/-- A NET-class packet at the Flue die, which must be PRESENT and whose token the side must hold (R83, R259). -/
def State.onNet (s : State) (j : Job) (f : State → State) : State :=
  if ¬ s.present .flue then s.doneAbsent j .flue
  else if s.holds j.side 4 then f s else s.done j stMaster (s.masterDetail 4) []

/-! ## The Ethernet guardian (R226) -/

/-- The tokens missing from a full bucket at instant `now`, in 1/8000 byte, from those missing at an earlier instant: one Mbit/s gives
one unit per ns. -/
def guardMissing (g : Nat × Nat) (now rate : Nat) : Nat := g.1 - (now - g.2) * rate

/-- A frame of `n` bytes finds enough tokens: the bucket after it, or none. -/
def guardTake (g : Nat × Nat) (now rate burst n : Nat) : Option (Nat × Nat) :=
  let m := guardMissing g now rate
  if m + n * 8000 ≤ burst * 8000 then some (m + n * 8000, now) else none

/-! ## The lifeline ports -/

/-- Address of a register of the LIFE page (R325). -/
def lifeAddr (off : Nat) : Nat := 0x40190000 + off

/-- An access to the LIFE page: only world LIFE_CFG.WORLD has it (R323). -/
def State.lifeAccess (s : State) (x : Side) (o : Origin) (off : Nat) (write : Bool) (f : State → State) : State :=
  s.guarded x o (lifeAddr off) 4 write (fun s =>
    if s.worldOf x o = s.get (.side x) F.LIFE_CFG_WORLD 0 then f s else s.busError x o 15 4 write (lifeAddr off))

/-- The port works: enabled, in no limp clock, PRESENT (R323). -/
def State.lifeUp (s : State) (x : Side) : Bool :=
  s.up x && s.is (.side x) F.LIFE_CFG_ENABLE 0 && !(s.side x).limp && s.present (.life x)

/-- A write of LIFE_TX_CTRL: GO queues a buffer, or is ignored and counted (R324). -/
def State.lifeGo (s : State) (x : Side) (v : Nat) : State :=
  let b := bits v 18 16
  let n := bits v 10 0
  if ¬ v.testBit 31 then s
  else if (s.side x).lifeTx.any (fun q => q.1 == b) ∨ n < 14 ∨ 1518 < n then s.inc (.side x) F.LIFE_TX_DROP_COUNT 0
  else s.setSide x { s.side x with lifeTx := (s.side x).lifeTx ++ [(b, n)] }

/-- LIFE_TX_GO (R324). -/
def execLifeTxGo (x : Side) (o : Origin) (v : BitVec 32) (s : State) : Out :=
  ok (s.lifeAccess x o 0x20 true (fun s => s.lifeGo x v.toNat))

/-- Address of transmit buffer `k` of the LIFE page (R325). -/
def lifeTxAddr (k : Nat) : Nat := 0x4019C000 + k * 0x600

/-- A frame as it goes out: padded to 60 bytes, with its FCS (R324). -/
def framed (bytes : List Nat) : List Nat :=
  let p := bytes ++ List.replicate (60 - bytes.length) 0
  p ++ leBytes 4 (crc32 p)

/-- LIFE_TX_DONE (R324): the oldest queued frame leaves with what its buffer holds, unless the guardian discards it (R226). -/
def execLifeTxDone (x : Side) (s : State) : Out :=
  ok (match (s.side x).lifeTx with
    | (b, n) :: t =>
      if s.lifeUp x ∧ s.is (.side x) F.LIFE_STATUS_LINK 0 then
        let s := s.setSide x { s.side x with lifeTx := t }
        match guardTake (s.side x).lifeGuard s.now (clampNat 1 100 (s.get (.side x) F.LIFE_GUARD_RATE 0))
            (clampNat 1518 65536 (s.get (.side x) F.LIFE_GUARD_BURST 0)) (max 60 n) with
        | some g =>
          let s := s.setSide x { s.side x with lifeGuard := g, lifeSent := framed (s.load x (lifeTxAddr b) n) }
          (s.inc (.side x) F.LIFE_TX_COUNT 0).lifeEvt x F.LIFE_EVT_TX_DONE
        | none => s.inc (.side x) F.LIFE_GUARD_DROP 0
      else s
    | [] => s)

/-- The bytes of an Ethernet frame as numbers. -/
def ethNats (f : EthFrame) : List Nat := f.bytes.map (fun b => b.toNat)

/-- Address of receive buffer `k` of the LIFE page (R325). -/
def lifeRxAddr (k : Nat) : Nat := 0x40194000 + k * 0x600

/-- LIFE_RX_FRAME (R323, R324): a frame for LIFE_MAC or broadcast, whole and not too long, fills the next free receive buffer. -/
def State.lifeRx (s : State) (x : Side) (f : EthFrame) : State :=
  let h := Holder.side x
  if ¬ (s.lifeUp x ∧ s.is h F.LIFE_STATUS_LINK 0) then s
  else if ¬ f.good then s.inc h F.LIFE_RX_FCS_COUNT 0
  else if 1518 < f.bytes.length then s.inc h F.LIFE_RX_SIZE_COUNT 0
  else
    let da := beNat ((ethNats f).take 6)
    if da ≠ 2 ^ 48 - 1 ∧ da ≠ s.get h F.LIFE_MAC_HI 0 * 2 ^ 32 + s.get h F.LIFE_MAC_LO 0 then s
    else if 16 ≤ (s.side x).lifeRx.length then s.inc h F.LIFE_RX_NOBUF_COUNT 0
    else
      let k := (s.side x).lifeNext
      let s := s.store x (lifeRxAddr k) (ethNats f)
      let s := s.setSide x { s.side x with lifeRx := (s.side x).lifeRx ++ [(k, f.bytes.length)], lifeNext := (k + 1) % 16 }
      (s.inc h F.LIFE_RX_COUNT 0).lifeEvt x F.LIFE_EVT_RX

/-- LIFE_RX_FRAME (R324). -/
def execLifeRxFrame (x : Side) (f : EthFrame) (s : State) : Out := ok (s.lifeRx x f)

/-- A write of LIFE_RX_RELEASE frees the head receive buffer (R324). -/
def State.lifeRelease (s : State) (x : Side) (v : Nat) : State :=
  if v.testBit 0 then s.setSide x { s.side x with lifeRx := (s.side x).lifeRx.tail } else s

/-- LIFE_RX_RELEASE (R324). -/
def execLifeRxRelease (x : Side) (o : Origin) (v : BitVec 32) (s : State) : Out :=
  ok (s.lifeAccess x o 0x28 true (fun s => s.lifeRelease x v.toNat))

/-- The lifeline link of side `x` changes: on a loss the queued frames are discarded and counted (R324). -/
def State.lifeTurn (s : State) (x : Side) (up : Bool) : State :=
  let h := Holder.side x
  let s := (s.set h F.LIFE_STATUS_LINK 0 (b2n up)).lifeEvt x F.LIFE_EVT_LINK_CHG
  if up then s
  else
    let s := (s.inc h F.LIFE_LINK_DOWN_COUNT 0).add h F.LIFE_TX_DROP_COUNT 0 (s.side x).lifeTx.length
    s.setSide x { s.side x with lifeTx := [] }

/-- The lifeline link of side `x` comes up or goes down while the port works. -/
def State.lifeLink (s : State) (x : Side) (up : Bool) : State :=
  if s.is (.side x) F.LIFE_STATUS_LINK 0 = up ∨ ¬ s.lifeUp x then s else s.lifeTurn x up

/-- A port that a commit has taken out of use loses its link (R323, R324). -/
def State.lifeMoved (s : State) (x : Side) : State :=
  if s.is (.side x) F.LIFE_STATUS_LINK 0 ∧ ¬ s.is (.side x) F.LIFE_CFG_ENABLE 0 then s.lifeTurn x false else s

/-! ## The interlock loop -/

/-- The state of the loop for a mean current (R327): 0 OK, 1 BROKEN, 2 OVER; a lower bound above the upper one acts as the upper. -/
def hvilState (mean lo hi : Int) : Nat :=
  let lo := if hi < lo then hi else lo
  if mean < lo ∨ mean < 0 then 1 else if hi < mean then 2 else 0

/-- Samples of an averaging window of side `x`: AVG ms of one each 10 us (R327). -/
def State.hvilSamples (s : State) (x : Side) : Nat := clampNat 1 100 (s.get (.side x) F.HVIL_CFG 0) * 100

/-- The loop of side `x` judged on the samples of a window (R327), by their exact mean; HVIL_I shows it rounded down (DESIGN CHOICE, log entry 122). -/
def State.hvilJudge (s : State) (x : Side) (l : List Nat) (volts : Nat) : State :=
  let h := Holder.side x
  let sum := l.foldl (fun (n : Int) a => n + sigInt a) 0
  let s := (s.set h F.HVIL_I 0 (sigWord (sum / l.length))).set h F.HVIL_V 0 volts
  let old := s.get h F.HVIL_STATUS 0
  let new := hvilState sum (sigInt (s.get h F.HVIL_ILO 0) * l.length) (sigInt (s.get h F.HVIL_IHI 0) * l.length)
  if old = new then s
  else
    let s := ((s.set h F.HVIL_STATUS 0 new).lifeEvt x F.LIFE_EVT_HVIL).inc h F.HVIL_CHANGE_COUNT 0
    s.log x 0x703 22 [.nar 2 old, .nar 2 new, .wide (s.get h F.HVIL_I 0)]

/-- HVIL_WINDOW (R327): the loop current at the sample ticks since the last such command, and the loop voltage. A window that is complete with
them is judged, once its last tick has come; what is over belongs to the next one. -/
def execHvilWindow (x : Side) (amps : List Word40) (volts : Word40) (s : State) : Out :=
  let n := s.hvilSamples x
  let l := (s.side x).hvil ++ amps.map (fun a => a.toNat)
  ok (if ¬ (s.fabric x ∧ s.present (.life x)) then s
  else if l.length < n then s.setSide x { s.side x with hvil := l }
  else
    let s := s.due ((s.side x).hvilFrom + n * 10000)
    (s.setSide x { s.side x with hvil := l.drop n, hvilFrom := s.now }).hvilJudge x (l.take n) volts.toNat)

end Sys2Proof.Machine
end

