-- ==== Sys2Proof/Machine/Switch.lean ====
section
/-! DEFINITION. The switch core at ingress (chapter 12): cells, MACsec validation, VLANs, the forwarding database, stream filters and
meters, FRER, admission to the egress queues, mirroring (R333 to R346, R351, R352, R356). -/
namespace Sys2Proof.Machine
open Sys2Proof

/-- The value of a Flue die field. -/
def State.fg (s : State) (f : Fld) (i : Nat) : Nat := s.get .flue f i

/-- A Flue die field that is not zero. -/
def State.fb (s : State) (f : Fld) (i : Nat) : Bool := s.is .flue f i

/-- Port counter `k` of port `p` counts `n` (R363). -/
def State.cnt (s : State) (p k n : Nat) : State := s.add .flue F.PORT_CNT (p * 35 + k) n

/-- A port that has TC10 (R328). -/
def hasTc10 (p : Nat) : Bool := decide (2 ≤ p ∧ p < 14)

/-- Port `p` is in use and its link is up and awake: a ring port behind closed isolation switches (R320), an internal link to a side that runs
and not in limp clock (R145). -/
def State.portUp (s : State) (p : Nat) : Bool :=
  s.fb F.PORT_CFG_ENABLE p && s.fb F.PORT_STATUS_LINK p && (hasTc10 p → s.fg F.PORT_STATUS_TC10 p ≠ 2) &&
    (decide (2 ≤ p) || s.fb F.BYP_STATUS_ISOLATION_ON 0) &&
    (decide (p < 15) || (s.fabric (sideOf (p - 15)) && !(s.side (sideOf (p - 15))).limp))

/-- A port is protected by MACsec (R353). -/
def State.protected_ (s : State) (p : Nat) : Bool := decide (p < 8) && s.fb F.PORT_CFG_MACSEC_EN p

/-! ## Cells (R342, R343) -/

/-- Cells of a frame of `n` bytes from DA to FCS. -/
def cellsOf (n : Nat) : Nat := ceilDiv n 256

/-- The reserve granted to each port in ascending port number, at most 8 192 cells in all. -/
def State.reserves (s : State) : List Nat :=
  ((List.range 17).foldl (fun (a : List Nat × Nat) p =>
    let r := min (s.fg F.PORT_BUF_MIN p) a.2
    (a.1 ++ [r], a.2 - r)) ([], 8192)).1

/-- Some port's reserve was cut: FLUE_EVT.RSV_CLAMP. -/
def State.reserveClamped (s : State) : Bool :=
  decide (8192 < (List.range 17).foldl (fun n p => n + s.fg F.PORT_BUF_MIN p) 0)

/-- The frame in reception at port `p`. -/
def State.arriving (s : State) (p : Nat) : Arriving := Tab.at ⟨0, 0, 0⟩ s.flue.arriving p

/-- The state with `v` in reception at port `p`. -/
def State.setArriving (s : State) (p : Nat) (v : Arriving) : State :=
  { s with flue := { s.flue with arriving := Tab.put ⟨0, 0, 0⟩ s.flue.arriving p v } }

/-- Cells that port `p` holds of its reserve and of the shared pool. -/
def State.held (s : State) (p : Nat) : Nat × Nat :=
  s.flue.cells.foldl (fun a c => if c.port = p then (a.1 + c.own, a.2 + c.shared) else a) ((s.arriving p).own, (s.arriving p).shared)

/-- Free cells of the shared pool. -/
def State.sharedFree (s : State) : Nat :=
  16384 - s.reserves.foldl (· + ·) 0 - s.flue.cells.foldl (fun n c => n + c.shared) 0 - s.flue.arriving.foldl (fun n q => n + q.2.shared) 0

/-- Free cells of the buffer. -/
def State.cellsFree (s : State) : Nat :=
  16384 - s.flue.cells.foldl (fun n c => n + c.own + c.shared) 0 - s.flue.arriving.foldl (fun n q => n + q.2.own + q.2.shared) 0

/-- What the frame in reception at port `p` draws with its next cell (R342): one of the reserve while the port holds fewer cells than that, else
one of the shared pool; or the counter of the refusal (5 the limit, 4 an empty pool), at which its cells return at once. -/
def State.drawCell (s : State) (p : Nat) : Arriving :=
  let v := s.arriving p
  let h := s.held p
  if h.1 + h.2 < s.reserves.getD p 0 then { v with own := v.own + 1 }
  else if s.fg F.PORT_BUF_MAX p ≤ h.2 then ⟨0, 0, 5⟩
  else if s.sharedFree = 0 then ⟨0, 0, 4⟩
  else { v with shared := v.shared + 1 }

/-- Port `p` comes before port `q` where both ask for a shared cell in one core cycle: the one that holds fewer cells, else the lower
number (R343). -/
def State.cellsBefore (s : State) (p q : Nat) : Bool :=
  let n (p : Nat) : Nat := (s.held p).1 + (s.held p).2
  decide (n p < n q) || (n p == n q && decide (p ≤ q))

/-- A port put in its place among those that ask for a cell in one core cycle. -/
def State.cellOrder (s : State) (p : Nat) : List Nat → List Nat
  | [] => [p]
  | q :: l => if s.cellsBefore p q then p :: q :: l else q :: s.cellOrder p l

/-- One core cycle of the buffer manager (R343): each port whose frame still needs cells, of the number in `want`, asks for one. -/
def State.grantCells (s : State) (want : List (Nat × Nat)) : State :=
  let asks := want.filter (fun q => (s.arriving q.1).lost == 0 && decide ((s.arriving q.1).own + (s.arriving q.1).shared < q.2))
  (asks.foldl (fun l q => s.cellOrder q.1 l) []).foldl (fun s p => s.setArriving p (s.drawCell p)) s

/-- The frames in reception draw the cells that they need, cycle by cycle: at most the 36 of the longest frame, or one more. -/
def State.drawCells (s : State) (want : List (Nat × Nat)) : State := iter (fun s => s.grantCells want) 37 s

/-- The frame in reception at port `p` is complete: its number among the frames that hold cells, or the counter of its refusal (R333 check 1). -/
def State.takeCells (s : State) (p : Nat) : Nat × State ⊕ Nat × State :=
  let v := s.arriving p
  let s := s.setArriving p ⟨0, 0, 0⟩
  if v.lost ≠ 0 then .inr (v.lost, s)
  else
    let id := s.flue.nextId
    .inl (id, { s with flue := { s.flue with cells := s.flue.cells ++ [⟨id, p, v.own, v.shared, 0, 0⟩], nextId := id + 1 } })

/-- One more copy of frame `id`. -/
def State.hold (s : State) (id : Nat) : State :=
  { s with flue := { s.flue with cells := s.flue.cells.map (fun c => if c.id = id then { c with refs := c.refs + 1 } else c) } }

/-- One copy of frame `id` fewer; its cells return with the last. -/
def State.release (s : State) (id : Nat) : State :=
  { s with flue := { s.flue with cells :=
      (s.flue.cells.map (fun c => if c.id = id then { c with refs := c.refs - 1 } else c)).filter (fun c => c.id != id || c.refs != 0) } }

/-- The cells of a frame of which no copy was kept return. -/
def State.reclaim (s : State) (id : Nat) : State :=
  { s with flue := { s.flue with cells := s.flue.cells.filter (fun c => c.id != id || c.refs != 0) } }

/-! ## Frames -/

/-- A frame as the switch classifies it: its bytes without outer tag, VID, PCP, DEI, whether it carried a VLAN tag with a VID, whether it
was untagged or priority-tagged, and its length from DA to FCS. -/
structure Classified where
  bytes : List Nat
  vid : Nat
  pcp : Nat
  dei : Bool
  tagged : Bool
  len : Nat
  deriving DecidableEq, Repr

/-- The VLAN classification of a frame at port `p` (R334). -/
def State.classify (s : State) (p : Nat) (b : List Nat) : Classified :=
  let tp := be16 b 12
  if tp = 0x8100 ∨ tp = 0x88A8 then
    let tci := be16 b 14
    let vid := tci % 4096
    ⟨b.take 12 ++ b.drop 16, if vid = 0 then s.fg F.PORT_CFG_PVID p else vid, tci / 8192, tci.testBit 12, vid != 0, b.length + 4⟩
  else ⟨b, s.fg F.PORT_CFG_PVID p, s.fg F.PORT_CFG_DEF_PCP p, false, false, b.length + 4⟩

/-- A gPTP frame (R397): it never passes through the forwarding database (R398). -/
def isGptp (b : List Nat) : Bool := be16 b 12 == 0x88F7 && frameDa b == 0x0180C200000E

/-- Source address of a frame. -/
def frameSa (b : List Nat) : Nat := beNat ((b.drop 6).take 6)

/-- A group address. -/
def isGroup (mac : Nat) : Bool := mac.testBit 40

/-- The traffic class of a PCP at ingress port `p` (R334). -/
def State.tcOf (s : State) (p pcp : Nat) : Nat := bits (s.fg F.PORT_PCP_TC p) (3 * pcp + 2) (3 * pcp)

/-! ## MACsec validation (R353, R356) -/

/-- Index of the SA registers of port `p`, direction `d`, SC `c` and AN `a` (R366). -/
def saIndex (p d c a : Nat) : Nat := p * 16 + 8 * d + 4 * c + a

/-- The packet number of an SA. -/
def State.saPn (s : State) (i : Nat) : Nat := s.fg F.MSEC_SA_PN_HI i * 2 ^ 40 + s.fg F.MSEC_SA_PN_LO i

/-- The packet number of an SA set. -/
def State.setSaPn (s : State) (i v : Nat) : State :=
  (s.set .flue F.MSEC_SA_PN_LO i v).set .flue F.MSEC_SA_PN_HI i (v / 2 ^ 40)

/-- The bytes of a SecTAG with its EtherType. -/
def secTagLen (b : List Nat) : Nat := if (b.getD 14 0).testBit 5 then 16 else 8

/-- A SecTAG is well-formed: version 0, no reserved combination of E and C, SC without ES or SCB, a packet number that is not 0 (an extended one
may have low bits of 0), and secure data and ICV as long as the short length says: at least 48 bytes where it is 0, else exactly that many, which
padding may follow (IEEE 802.1AE; PRESUMED, log entry 113). -/
def secTagOk (b : List Nat) (xpn : Bool) : Bool :=
  let tci := b.getD 14 0
  let sl := b.getD 15 0
  !tci.testBit 7 && tci.testBit 3 == tci.testBit 2 && !(tci.testBit 5 && (tci.testBit 6 || tci.testBit 4)) && decide (sl < 48) &&
    (xpn || beNat ((b.drop 16).take 4) != 0) && decide (12 + secTagLen b + (if sl = 0 then 48 else sl) + 16 ≤ b.length)

/-- The full packet number of an XPN frame from its low 32 bits and the lowest acceptable one (IEEE 802.1AE). -/
def xpnRecover (lowest pn : Nat) : Nat :=
  let up := lowest / 2 ^ 32 * 2 ^ 32 + pn
  if lowest.testBit 31 ∧ ¬ pn.testBit 31 then up + 2 ^ 32 else up

/-- The initialisation vector of a frame under SA `i` (IEEE 802.1AE): the SCI and the packet number, or with extended numbers the salt, whose value
the manual does not give (a free value, log entry 113), under the SSCI and the packet number. -/
def State.secIv (s : State) (i sci pn : Nat) : List Nat :=
  if s.fb F.MSEC_SA_STATE_XPN i then
    xorBytes (beBytes 12 (Config.xpnSalt (Tab.at [] s.flue.saKey i)).toNat) (beBytes 4 (Tab.at 0 s.flue.ssci i) ++ beBytes 8 pn)
  else beBytes 8 sci ++ beBytes 4 pn

/-- What GCM-AES-256 makes of the user data after the addresses and the SecTAG `head` (R353): with confidentiality enciphered, else as they are,
followed by the ICV over both. -/
def gcmProtect (key iv head data : List Nat) (conf : Bool) : List Nat :=
  let ks := aesKeys key
  if conf then let c := gcmStream ks iv data; c ++ gcmTag ks iv head c else data ++ gcmTag ks iv (head ++ data) []

/-- The user data of a protected frame whose ICV holds (R356). -/
def gcmValidate (key iv head body icv : List Nat) (conf : Bool) : Option (List Nat) :=
  let ks := aesKeys key
  if conf then (if gcmTag ks iv head body = icv then some (gcmStream ks iv body) else none)
  else if gcmTag ks iv (head ++ body) [] = icv then some body else none

/-- A received frame at the SecY of port `p`: the plain frame, without SecTAG and ICV, and the state after it, or the counter of the failed step. -/
def State.validate (s : State) (p : Nat) (b : List Nat) : Except Nat (List Nat × State) :=
  let an := b.getD 14 0 % 4
  let sci := beNat ((b.drop 20).take 8)
  let fits := fun c => (b.getD 14 0).testBit 5 && Tab.at 0 s.flue.sci (4 * p + 2 + c) == sci &&
    s.fb F.MSEC_SA_STATE_INSTALLED (saIndex p 1 c an)
  let sa := ([0, 1].find? fits).map (fun c => saIndex p 1 c an)
  if be16 b 12 = 0x888E then .ok (b, s)
  else if be16 b 12 ≠ 0x88E5 then .error 6
  else if ¬ secTagOk b (sa.any (fun i => s.fb F.MSEC_SA_STATE_XPN i)) then .error 7
  else
    match sa with
    | none => .error 8
    | some i =>
      let low := s.saPn i
      let pn32 := beNat ((b.drop 16).take 4)
      let pn := if s.fb F.MSEC_SA_STATE_XPN i then xpnRecover low pn32 else pn32
      let at_ := 12 + secTagLen b
      let n := if b.getD 15 0 = 0 then b.length - at_ - 16 else b.getD 15 0
      if s.fb F.MSEC_CFG_REPLAY_EN p ∧ pn < low then .error 10
      else match gcmValidate (Tab.at [] s.flue.saKey i) (s.secIv i sci pn) (b.take at_) ((b.drop at_).take n) ((b.drop (at_ + n)).take 16)
          ((b.getD 14 0).testBit 3) with
        | none => .error 9
        | some q => .ok (b.take 12 ++ q, (s.setSaPn i (max low (pn + 1 - s.fg F.MSEC_REPLAY_WIN p))).cnt p 11 1)

/-! ## The forwarding database (R335 to R339) -/

/-- The buckets of a key in the two ways. -/
def State.buckets (s : State) (mac vid : Nat) : Nat × Nat :=
  let key := (leBytes 8 (vid * 2 ^ 48 + mac)).reverse
  (crcR 0x82F63B78 s.flue.seed0 0xFFFFFFFF key % 8192, crcR 0x82F63B78 s.flue.seed1 0xFFFFFFFF key % 8192)

/-- The entry of a key. -/
def State.fdbFind (s : State) (mac vid : Nat) : Option FdbEntry := s.flue.fdb.find? (fun e => e.mac == mac && e.vid == vid)

/-- The place that a new key takes: its way-0 bucket, its way-1 bucket, or the overflow CAM (R337). -/
def State.fdbPlace (s : State) (mac vid : Nat) : Option (Nat × Nat) :=
  let (b0, b1) := s.buckets mac vid
  if s.flue.fdb.all (fun e => e.place != 0 || e.bucket != b0) then some (0, b0)
  else if s.flue.fdb.all (fun e => e.place != 1 || e.bucket != b1) then some (1, b1)
  else if (s.flue.fdb.filter (fun e => e.place == 2)).length < 64 then some (2, 0)
  else none

/-- The database replaced. -/
def State.setFdb (s : State) (l : List FdbEntry) : State := { s with flue := { s.flue with fdb := l } }

/-- The source address of a frame learned at port `p` (R337). -/
def State.learn (s : State) (p : Nat) (c : Classified) : State :=
  let mac := frameSa c.bytes
  if ¬ s.fb F.PORT_CFG_LEARN p ∨ isGroup mac then s
  else match s.fdbFind mac c.vid with
    | some e =>
      if e.stat then s
      else s.setFdb (s.flue.fdb.map (fun f => if f.mac = mac ∧ f.vid = c.vid then { f with ports := 2 ^ p, at_ := s.now } else f))
    | none =>
      match s.fdbPlace mac c.vid with
      | some (pl, b) =>
        (s.setFdb (s.flue.fdb ++ [⟨pl, b, mac, c.vid, 2 ^ p, false, s.now⟩])).set .flue F.FDB_STATUS_REFUSING 0 0
      | none =>
        let s' := if s.fb F.FDB_STATUS_REFUSING 0 then s else s.logBoth 0x800 27 []
        ((s'.cnt p 19 1).set .flue F.FDB_STATUS_REFUSING 0 1).flueEvt F.FLUE_EVT_LEARN_REFUSED

/-- Ports in use, as a mask. -/
def State.portsOn (s : State) : Nat :=
  (List.range 17).foldl (fun m p => if s.fb F.PORT_CFG_ENABLE p then Machine.setBit m p else m) 0

/-- The destination ports of a frame by its address in the database `db` (R338), and whether it is an unknown unicast that floods. -/
def State.lookup (s : State) (db : List FdbEntry) (p : Nat) (c : Classified) : Nat × Bool :=
  let members := Machine.clearBit (s.fg F.FDB_VLAN_MEMBER c.vid &&& s.portsOn) p
  let da := frameDa c.bytes
  match db.find? (fun e => e.mac == da && e.vid == c.vid) with
  | some e => (e.ports &&& members, false)
  | none => (members, !isGroup da)

/-! ## Stream filters and meters (R340, R341) -/

/-- Filter `f` matches a frame at port `p`. -/
def State.filterHits (s : State) (p f : Nat) (c : Classified) : Bool :=
  s.fb F.SF_CFG_ENABLE f && (s.fg F.SF_PORTS f).testBit p &&
  (!s.fb F.SF_MAC_HI_MAC_EN f ||
    (if s.fb F.SF_MAC_HI_USE_SA f then frameSa c.bytes else frameDa c.bytes) == s.fg F.SF_MAC_HI_MAC f * 2 ^ 32 + s.fg F.SF_MAC_LO f) &&
  (!s.fb F.SF_VID_VID_EN f || c.vid == s.fg F.SF_VID_VID f) && (!s.fb F.SF_VID_PCP_EN f || c.pcp == s.fg F.SF_VID_PCP f)

/-- The filter that applies: the lowest-numbered match. -/
def State.filterOf (s : State) (p : Nat) (c : Classified) : Option Nat :=
  (List.range 1024).find? (fun f => s.filterHits p f c)

/-- The colour that a frame arrives with (R340, R341): 0 green, 1 yellow. -/
def State.inColour (s : State) (p : Nat) (c : Classified) : Nat := b2n (s.fb F.PORT_CFG_COLOUR_AWARE p && c.dei)

/-- A meter that has seen no frame: both buckets full (any level above their sizes). -/
def Meter.full : Meter := ⟨2 ^ 40 - 1, 2 ^ 40 - 1, 0⟩

/-- The meter of RFC 2698 as R341 computes it: the colour and the meter after the frame. One whose rates are both 0 colours every frame
red. -/
def meterStep (m : Meter) (now cir pir cbs pbs inCol len : Nat) : Nat × Meter :=
  let dt := min ((now - m.at_) * 100 / 128) (2 ^ 32 - 1)
  let tc := min (m.tc + cir * dt * 1048576 / 100000000) (cbs * 65536)
  let tp := min (m.tp + pir * dt * 1048576 / 100000000) (pbs * 65536)
  let b := len * 65536
  if inCol = 2 ∨ tp < b ∨ (cir = 0 ∧ pir = 0) then (2, ⟨tc, tp, now⟩)
  else if inCol = 1 ∨ tc < b then (1, ⟨tc, tp - b, now⟩)
  else (0, ⟨tc - b, tp - b, now⟩)

/-- The meter of filter `f` colours a frame of `len` bytes (R341). -/
def State.meter (s : State) (f inCol len : Nat) : Nat × State :=
  let (col, m) := meterStep (Tab.at Meter.full s.flue.meters f) s.now (s.fg F.SF_CIR f) (s.fg F.SF_PIR f) (s.fg F.SF_CBS f)
    (s.fg F.SF_PBS f) inCol len
  let s := { s with flue := { s.flue with meters := Tab.put Meter.full s.flue.meters f m } }
  (col, s.inc .flue (if col = 0 then F.SF_GREEN_COUNT else if col = 1 then F.SF_YELLOW_COUNT else F.SF_RED_COUNT) f)

/-! ## FRER (R351) -/

/-- The stream that serves filter `f`, if any: the lowest of those that are not off and name it. -/
def State.streamOf (s : State) (f : Nat) : Option Nat :=
  (List.range 512).find? (fun n => s.fg F.FRER_CFG_FUNC n != 0 && s.fg F.FRER_CFG_FUNC n != 3 && s.fg F.FRER_CFG_FILTER n == f)

/-- A stream's history after a reset. -/
def Frer.init : Frer := ⟨true, 0, 0, 0⟩

/-- HISTORY of stream `n`. Its reset value of 32 does not fit its five bits, which then hold 0 and act as 2 (DESIGN CHOICE, log entry 90). -/
def State.history (s : State) (n : Nat) : Nat := max 2 (s.fg F.FRER_CFG_HISTORY n % 32)

/-- Vector recovery of a frame with sequence number `seq`, none without an R-TAG: whether it passes, and the state after it. A number that
leaves the history unseen counts as a gap when it lies after the first one accepted. -/
def State.recover (s : State) (n : Nat) (seq : Option Nat) : Bool × State :=
  let v := Tab.at Frer.init s.flue.frer n
  let put := fun (s : State) (w : Frer) => { s with flue := { s.flue with frer := Tab.put Frer.init s.flue.frer n w } }
  let h := s.history n
  match seq with
  | none => (false, s.inc .flue F.FRER_ROGUE n)
  | some q =>
    if v.fresh then (true, ((put s ⟨false, 1, 1, s.now⟩).set .flue F.FRER_SEQ n q).inc .flue F.FRER_PASSED n)
    else
      let d := toSigned 16 (q + 65536 - s.fg F.FRER_SEQ n)
      if (h : Int) ≤ d ∨ d ≤ -(h : Int) then (false, s.inc .flue F.FRER_ROGUE n)
      else if d ≤ 0 then
        let i := (-d).toNat
        if v.seen.testBit i then (false, s.inc .flue F.FRER_DISCARDED n)
        else (true, ((put s ⟨false, Machine.setBit v.seen i, max v.span (i + 1), s.now⟩).inc .flue F.FRER_OUT_OF_ORDER n).inc .flue F.FRER_PASSED n)
      else
        let k := d.toNat
        let out := ((List.range k).filter (fun i => !v.seen.testBit (h - 1 - i) && decide (h - 1 - i < v.span))).length
        let s := (put s ⟨false, (v.seen * 2 ^ k + 1) % 2 ^ h, min h (v.span + k), s.now⟩).set .flue F.FRER_SEQ n q
        let s := if k = 1 then s else s.inc .flue F.FRER_OUT_OF_ORDER n
        (true, (s.add .flue F.FRER_LOST n out).inc .flue F.FRER_PASSED n)

/-- The sequence number of an R-TAG that follows the source address (and the outer tag, already taken off). -/
def rTag (b : List Nat) : Option Nat := if be16 b 12 = 0xF1C1 then some (be16 b 16) else none

/-- A frame with an R-TAG of number `q`. -/
def pushRTag (b : List Nat) (q : Nat) : List Nat := b.take 12 ++ [0xF1, 0xC1, 0, 0, q / 256 % 256, q % 256] ++ b.drop 12

/-- A frame without its R-TAG. -/
def popRTag (b : List Nat) : List Nat := b.take 12 ++ b.drop 18

/-! ## Admission (R345, R346) -/

/-- Queue `t` of port `p`. -/
def State.queue (s : State) (p t : Nat) : List QFrame := Tab.at [] s.flue.queues (8 * p + t)

/-- The queue replaced. -/
def State.setQueue (s : State) (p t : Nat) (l : List QFrame) : State :=
  { s with flue := { s.flue with queues := Tab.put [] s.flue.queues (8 * p + t) l } }

/-- Cells that frame `id` holds (R342). -/
def State.frameCells (s : State) (id : Nat) : Nat :=
  match s.flue.cells.find? (fun c => c.id == id) with
  | some c => c.own + c.shared
  | none => 0

/-- Cells in a queue. -/
def State.depth (s : State) (p t : Nat) : Nat := (s.queue p t).foldl (fun n q => n + s.frameCells q.id) 0

/-- One step of the LFSR with polynomial x^32 + x^22 + x^2 + x + 1 (R346). -/
def lfsrStep (l : Nat) : Nat :=
  (2 * l + b2n (xor (xor (l.testBit 31) (l.testBit 21)) (xor (l.testBit 1) (l.testBit 0)))) % 2 ^ 32

/-- The average of a queue after a decision (R346). -/
def wredAvg (avg q w : Nat) : Nat := ofSigned 24 ((avg : Int) + (((q : Int) * 512 - avg) >>> w))

/-- Whether WRED drops a copy, from the average in cells (R346). -/
def wredDrops (a minTh maxTh maxp rnd : Nat) : Bool :=
  if a < minTh then false
  else if maxTh ≤ a then true
  else decide (rnd < maxp * (a - minTh) / (maxTh - minTh) % 256)

/-- WRED judges a copy of colour `col` for queue `t` of port `p`: whether it is dropped, and the state after the decision. -/
def State.wred (s : State) (p t col : Nat) : Bool × State :=
  let i := 8 * p + t
  let k := s.fg F.PORT_Q_CFG_PROFILE i * 3 + col
  let avg := wredAvg (Tab.at 0 s.flue.avg i) (s.depth p t) (s.fg F.WRED_P_W k)
  let drop := wredDrops (avg / 512) (s.fg F.WRED_TH_MIN_TH k) (s.fg F.WRED_TH_MAX_TH k) (s.fg F.WRED_P_MAXP k) (s.flue.lfsr % 256)
  (drop, { s with flue := { s.flue with avg := Tab.put 0 s.flue.avg i avg, lfsr := lfsrStep s.flue.lfsr } })

/-! ## Gates at admission (R350) -/

/-- Length of list `l` of port `p`. -/
def State.tasLen (s : State) (p l : Nat) : Nat := s.fg (if l = 0 then F.TAS_CFG_LEN0 else F.TAS_CFG_LEN1) p

/-- The entries of list `l` of port `p` cut to the cycle, as pairs of gates and duration in ns; the last one lasts to the
cycle's end. -/
def State.tasRuns (s : State) (p l cycle : Nat) : List (Nat × Nat) :=
  let n := min 256 (s.tasLen p l)
  let r := (List.range n).foldl (fun (a : List (Nat × Nat) × Nat) k =>
    let left := cycle - a.2
    let d := if k + 1 = n then left else min left (s.fg F.TAS_ENTRY_INTERVAL (p * 512 + l * 256 + k))
    (a.1 ++ [(s.fg F.TAS_ENTRY_GATES (p * 512 + l * 256 + k), d)], a.2 + d)) ([], 0)
  r.1

/-- The longest open run of class `t` in ns, over two cycles in a row; none when the gate never closes. -/
def longestOpen (runs : List (Nat × Nat)) (t : Nat) : Option Nat :=
  if runs.all (fun r => r.1.testBit t || r.2 == 0) then none
  else some ((runs ++ runs).foldl (fun (a : Nat × Nat) r =>
    if r.1.testBit t then (a.1 + r.2, max a.2 (a.1 + r.2)) else if r.2 = 0 then a else (0, a.2)) (0, 0)).2

/-- Rate of port `p` in kbit/s (R311, R328). -/
def State.portRate (s : State) (p : Nat) : Nat :=
  if p < 2 then (let v := s.flue.ringSpeed; if v = 1 then 5000000 else if v = 2 then 2500000 else 10000000)
  else if p < 8 then 1000000 else if p < 14 then 100000 else if p = 14 then 10000 else 10000000

/-- The bytes of a frame as it leaves port `p`: with an outer tag unless the VID is untagged there (R334). -/
def State.egressBytes (s : State) (p : Nat) (q : QFrame) : List Nat :=
  if (s.fg F.FDB_VLAN_UNTAG q.vid).testBit p then q.bytes
  else
    let tci := q.pcp * 8192 + b2n q.dei * 4096 + q.vid
    q.bytes.take 12 ++ [0x81, 0x00, tci / 256 % 256, tci % 256] ++ q.bytes.drop 12

/-- Transmitted bits of a frame of `n` bytes without FCS at port `p` (R348). -/
def State.wireBits (s : State) (p n : Nat) : Nat := (max 60 n + 4 + 20 + (if s.protected_ p then 32 else 0)) * 8

/-- Transmission time in ns. -/
def State.wireNs (s : State) (p n : Nat) : Nat := ceilDiv (s.wireBits p n * 1000000) (s.portRate p)

/-- The gate of port `p`, if a list runs: none while it is disabled (R350). -/
def State.tasOf (s : State) (p : Nat) : Option Tas :=
  if s.fb F.TAS_CFG_ENABLE p then Tab.at none (s.flue.tas.map (fun q => (q.1, some q.2))) p else none

/-- A frame never fits a window of class `t` of port `p` in the list in force (R333 check 11, R350). -/
def State.oversize (s : State) (p t : Nat) (q : QFrame) : Bool :=
  match s.tasOf p with
  | none => false
  | some v =>
    match longestOpen (s.tasRuns p v.list v.cycle) t with
    | some m => decide (m < s.wireNs p (s.egressBytes p q).length)
    | none => false

/-! ## Copies -/

/-- A copy offered to queue `t` of port `p` (R333 checks 10 and 11): whether it was admitted. Every offer is an admission decision of the
queue, at which its average and the LFSR move (R346). -/
def State.offer (s : State) (p t : Nat) (q : QFrame) (count : Bool) : Bool × State :=
  let c := fun (s : State) k => if count then s.cnt p k 1 else s
  let full := decide (s.fg F.PORT_Q_MAX (8 * p + t) ≤ s.depth p t)
  let (drop, s) := s.wred p t q.colour
  if full then (false, c s 22)
  else if drop then (false, c s (23 + q.colour))
  else if s.oversize p t q then (false, c s 26)
  else (true, (s.setQueue p t (s.queue p t ++ [q])).hold q.id)

/-- A mirror copy of frame `id` for session `m`, once per frame (R352). -/
def State.mirrorCopy (s : State) (m : Nat) (q : QFrame) : State :=
  if s.flue.cells.any (fun c => c.id == q.id && c.mir.testBit m) then s
  else
    let s := { s with flue := { s.flue with cells := s.flue.cells.map (fun (c : Cells) =>
      if c.id = q.id then { c with mir := Machine.setBit c.mir m } else c) } }
    let (got, s) := s.offer (s.fg F.MIR_CFG_DEST m) (s.fg F.MIR_CFG_TC m) { q with colour := 1, mirror := true } false
    let s := s.inc .flue F.MIR_COPY_COUNT m
    if got then s else s.inc .flue F.MIR_DROP_COUNT m

/-- The ingress and flow copies of a frame received on port `p` (R352). -/
def State.mirrorIngress (s : State) (p : Nat) (filter : Option Nat) (q : QFrame) : State :=
  s.each [0, 1] (fun s m =>
    let flow : Bool := match filter with
      | some f => s.fg F.SF_CFG_MIRROR f == m + 1
      | none => false
    if s.fb F.MIR_CFG_ENABLE m ∧ ((s.fg F.MIR_INGRESS m).testBit p ∨ flow = true) then s.mirrorCopy m q else s)

/-- What checks 7 and 8 of R333 leave of a frame: its colour, traffic class, bytes, and the ports of a replicated stream; or none with
the state in which it was discarded. -/
def State.streams (s : State) (p : Nat) (c : Classified) (filter : Option Nat) :
    Option (Nat × Nat × List Nat × Option Nat) × State :=
  match filter with
  | none => (some (s.inColour p c, s.tcOf p c.pcp, c.bytes, none), s)
  | some f =>
    let max_ := s.fg F.SF_CFG_MAX_SDU f
    if s.fb F.SF_STATUS f then (none, s.cnt p 14 1)
    else if max_ ≠ 0 ∧ max_ < c.len then
      (none, (if s.fb F.SF_CFG_BLOCK_EN f then s.set .flue F.SF_STATUS f 1 else s).cnt p 14 1)
    else
      let (col, s) := s.meter f (s.inColour p c) c.len
      if col = 2 ∧ s.fb F.SF_CFG_RED_DROP f then (none, s.cnt p 15 1)
      else
        let tc := if s.fb F.SF_CFG_TC_EN f then s.fg F.SF_CFG_TC f else s.tcOf p c.pcp
        match s.streamOf f with
        | none => (some (col, tc, c.bytes, none), s)
        | some n =>
          if s.fg F.FRER_CFG_FUNC n = 1 then
            let q := s.fg F.FRER_SEQ n
            let ports := Machine.clearBit (s.fg F.FRER_PORTS n &&& s.fg F.FDB_VLAN_MEMBER c.vid &&& s.portsOn) p
            (some (col, tc, pushRTag c.bytes q, some ports), s.set .flue F.FRER_SEQ n (q + 1))
          else
            let (pass, s) := s.recover n (rTag c.bytes)
            if pass then (some (col, tc, if s.fb F.FRER_CFG_RTAG_POP n then popRTag c.bytes else c.bytes, none), s)
            else (none, s.cnt p 16 1)

/-- Checks 5 to 13 of R333 for a plain frame with cells `id` at port `p`: learning, destinations and admission. The lookup sees the database `db` as it
stood at the start of the core cycle (R339). -/
def State.forward (s : State) (db : List FdbEntry) (p id : Nat) (c : Classified) (filter : Option Nat) : State :=
  let accept := s.fg F.PORT_CFG_ACCEPT p
  let member := s.fg F.FDB_VLAN_MEMBER c.vid
  if (accept = 1 ∧ ¬ c.tagged) ∨ (accept = 2 ∧ c.tagged) then s.cnt p 12 1
  else if member = 0 ∨ (s.fb F.PORT_CFG_INGRESS_FILTER p ∧ ¬ member.testBit p) then s.cnt p 13 1
  else match s.streams p c filter with
    | (none, s) => s
    | (some (col, tc, bytes, ports), s) =>
      let s := s.learn p c
      let (dest, flood) := match ports with
        | some m => (m, false)
        | none => s.lookup db p c
      let s := if flood then s.cnt p 18 1 else s
      if dest = 0 then s.cnt p 17 1
      else
        let s := (s.cnt p 0 1).cnt p 1 c.len
        s.each ((List.range 17).filter (fun e => dest.testBit e)) (fun s e =>
          (s.offer e tc ⟨id, bytes, c.vid, c.pcp, c.dei, col, false⟩ true).2)

/-- A frame whose last bit has arrived at ingress port `p` and whose cells are drawn (R333). A gPTP frame that passes check 4 ends at Bellows (R398).
The ingress and flow copies follow the original into their queues, so that they never delay it (R352). -/
def State.receive (s : State) (db : List FdbEntry) (p : Nat) (raw : List Nat) (good : Bool) : State :=
  match s.takeCells p with
  | .inr (k, s) => s.cnt p k 1
  | .inl (id, s) =>
    let len := raw.length + 4
    let s := if ¬ good then s.cnt p 2 1
      else if len < 64 ∨ s.fg F.PORT_MAXFRAME p < len then s.cnt p 3 1
      else match (if s.protected_ p then s.validate p raw else .ok (raw, s)) with
        | .error k => s.cnt p k 1
        | .ok (b, s) =>
          let c := s.classify p b
          let filter := s.filterOf p c
          let s := if isGptp b then (s.cnt p 0 1).cnt p 1 c.len else s.forward db p id c filter
          s.mirrorIngress p filter ⟨id, c.bytes, c.vid, c.pcp, c.dei, 1, true⟩
    s.reclaim id

/-- A frame with a good FCS received on port 0 to 14 is a source event of the Flue die's matcher, on a port with MACsec with the result of
its validation (R234). The key fields are those of the plain frame; a frame that fails is compared as received (DESIGN CHOICE, log
entry 48). -/
def State.sparkFrame (s : State) (p : Nat) (raw : List Nat) (good : Bool) : State :=
  if ¬ good ∨ 15 ≤ p then s
  else if ¬ s.protected_ p then s.sparkEth p raw .plain
  else match s.validate p raw with
    | .error _ => s.sparkEth p raw .failed
    | .ok (b, _) => s.sparkEth p b (if be16 raw 12 = 0x88E5 then .verified else .plain)

/-- A frame ends at port `p`, whose link is up: for the spark matcher and for the switch (R234, R333). -/
def State.frameIn (s : State) (db : List FdbEntry) (p : Nat) (f : EthFrame) : State :=
  if s.portUp p then (s.sparkFrame p (ethNats f) f.good).receive db p (ethNats f) f.good else s

/-- The cells that frames need in all: those that end now, and those in reception by the bytes that have arrived (R342). -/
def State.cellWants (s : State) (ends : List (Fin 17 × EthFrame)) (parts : List (Fin 17 × Nat)) : List (Nat × Nat) :=
  (ends.map (fun g => (g.1.val, cellsOf (g.2.bytes.length + 4))) ++ parts.map (fun g => (g.1.val, cellsOf g.2))).filter (fun q => s.portUp q.1)

/-- FRAME_RECEIVE (R333, R234): a frame whose last bit arrives at port `p`, with the frames that end at other ports in the same core cycle, in
ascending order of the ports (DESIGN CHOICE, log entry 114), and the bytes so far of the frames in reception at others. -/
def execFrameReceive (p : Fin 17) (f : EthFrame) (others : List (Fin 17 × EthFrame)) (parts : List (Fin 17 × Nat)) (s : State) : Out :=
  let ends := (List.finRange 17).filterMap (fun q => ((p, f) :: others).find? (fun g => g.1 == q))
  ok (if s.flueRuns then
    let s := s.drawCells (s.cellWants ends (parts.filter (fun g => ends.all (fun e => e.1 != g.1))))
    let db := s.flue.fdb
    ends.foldl (fun s g => s.frameIn db g.1 g.2) s
  else s)

end Sys2Proof.Machine
end

