-- ==== Sys2Proof/Machine/Egress.lean ====
section
/-! DEFINITION. The switch core at egress (chapter 12): the side's frame interface, scheduling, shapers, time-aware gates, MACsec
transmission, mirroring of egress frames (R330, R347 to R350, R352, R355). -/
namespace Sys2Proof.Machine
open Sys2Proof

/-! ## The frame interface (R330) -/

/-- Cause of R483 for an access of `n` bytes at `a`, 0 when it may go on: local SRAM or LPDDR5X that the interface's world may access (R62)
and, for a write, that no incoming mirror locks (R278). -/
def State.netifMay (s : State) (x : Side) (a n : Nat) (write : Bool) : Nat :=
  if ¬ (inSram a n || inDdr a n) then 13
  else if ¬ s.wotRange x a n (s.get (.side x) F.NETIF_CFG_WORLD 0) (b2n write) then 15
  else if write && s.mirLockedRange x a n then 6
  else 0

/-- The interface stops on an access that ended with a cause of R483: ERR, the code of R62 for it, and an entry in the Ash pan. -/
def State.netifStop (s : State) (x : Side) (cause a : Nat) (write : Bool) : State :=
  let h := Holder.side x
  let w := s.get h F.NETIF_CFG_WORLD 0
  let s := ((s.set h F.NETIF_STATUS_ERR 0 1).set h F.NETIF_ERR 0 (dmaCode cause)).set h F.NETIF_CTRL 0 0
  let s := s.logFault x 20 cause 8 w 8 write a
  if cause = 15 then s.wotViolation x 8 w (b2n write) a else s

/-- A descriptor returned: completion latches the source of NETIF_CFG.IRQ_CH. -/
def State.netifDone (s : State) (x : Side) : State := s.intr x (32 + s.get (.side x) F.NETIF_CFG_IRQ_CH 0)

/-- The index after `i` in a ring of `n` descriptors. -/
def ringNext (n i : Nat) : Nat := if n ≤ i + 1 then 0 else i + 1

/-- `n` bytes read at `a` by the interface: the cause that ends the read, 0 for none, and the state with what the ECC counts and logs. -/
def State.netifRead (s : State) (x : Side) (a n : Nat) (lost corr : Option Word40) : Nat × State :=
  let e := s.netifMay x a n false
  if e ≠ 0 then (e, s)
  else
    let r := s.eccRead x a n lost corr
    (if r.1 then 7 else 0, r.2)

/-- The next receive descriptor of side `x`, its index whether or not the interface owns it (R330). -/
def State.rxNext (s : State) (x : Side) : Nat :=
  s.get (.side x) F.NETIF_RX_BASE 0 + 16 * s.get (.side x) F.NETIF_STATUS_RX_NEXT 0

/-- A frame that port 15 or 16 transmits enters the side's memory (R330). -/
def State.netifRx (s : State) (x : Side) (a : Nat) (bytes : List Nat) : State :=
  let h := Holder.side x
  let buf := s.loadLE x a 8 % 2 ^ 40
  let cap := s.loadLE x (a + 10) 2
  let n := bytes.length
  let e1 := s.netifMay x a 16 true
  let fits := n ≤ cap
  let e2 := if fits then s.netifMay x buf n true else 0
  if e1 ≠ 0 then s.netifStop x e1 a true
  else if e2 ≠ 0 then s.netifStop x e2 buf true
  else
    let s := if fits then s.write x buf bytes else s
    let s := s.write x (a + 8) (leBytes 2 (if fits then n else 0))
    let fl := (s.byte x (a + 12)).toNat
    let s := s.write x (a + 12) [(if fits then Machine.clearBit fl 0 else Machine.setBit (Machine.clearBit fl 0) 1)]
    let nx := ringNext (s.get h F.NETIF_RX_LEN 0) (s.get h F.NETIF_STATUS_RX_NEXT 0)
    (s.set h F.NETIF_STATUS_RX_NEXT 0 nx).netifDone x

/-- The interface of side `x` is ready for a frame of its port, and the state in which its descriptor has been read (R330): a read that fails
stops it, and it waits while it owns no descriptor, or at a locked line (R302). -/
def State.netifReady (s : State) (x : Side) (lost corr : Option Word40) : Bool × State :=
  let h := Holder.side x
  let a := s.rxNext x
  if ¬ s.is h F.NETIF_CTRL 0 ∨ s.is h F.NETIF_STATUS_ERR 0 ∨ s.engineWaits x a 16 then (false, s)
  else
    let r := s.netifRead x a 16 lost corr
    if r.1 ≠ 0 then (false, r.2.netifStop x r.1 a false)
    else
      let buf := r.2.loadLE x a 8 % 2 ^ 40
      ((r.2.rxDesc x).isSome && !r.2.engineWaits x buf (r.2.loadLE x (a + 10) 2), r.2)

/-- The port of the switch on the internal link of a side. -/
def sidePort (x : Side) : Nat := 15 + x.num

/-- The frame of a descriptor enters the switch at the port of the side's internal link, padded to 60 bytes; one of a wrong length is not sent and
counted there (R330). -/
def State.netifFrame (s : State) (x : Side) (buf n : Nat) : State :=
  let p := sidePort x
  if n < 14 ∨ 9212 < n then s.cnt p 3 1
  else if s.flueRuns ∧ s.portUp p then
    let f := s.load x buf n ++ List.replicate (60 - n) 0
    (s.drawCells [(p, cellsOf (f.length + 4))]).receive s.flue.fdb p f true
  else s

/-- The descriptor at `a` returns. -/
def State.netifReturn (s : State) (x : Side) (a i' : Nat) (bad : Bool) : State :=
  let e := s.netifMay x a 16 true
  if e ≠ 0 then s.netifStop x e a true
  else
    let fl := Machine.clearBit (s.byte x (a + 12)).toNat 0
    let s := s.write x (a + 12) [if bad then Machine.setBit fl 1 else fl]
    (s.set (.side x) F.NETIF_STATUS_TX_NEXT 0 i').netifDone x

/-- Every transmit descriptor with OWN set is sent, in ring order from index `i` on (R330); the number counts those still to be looked at. At a line
that the other side has locked the interface waits and goes on later (R302). -/
def State.netifSend (s : State) (x : Side) (lost corr : Option Word40) (i : Nat) : Nat → State
  | 0 => s
  | k + 1 =>
    let h := Holder.side x
    let a := s.get h F.NETIF_TX_BASE 0 + 16 * i
    let i' := ringNext (s.get h F.NETIF_TX_LEN 0) i
    let hold (s : State) : State := s.setSide x { s.side x with netifHeld := true }
    if s.engineWaits x a 16 then hold s
    else
      let r := s.netifRead x a 16 lost corr
      let s := r.2
      if r.1 ≠ 0 then s.netifStop x r.1 a false
      else if ¬ (s.byte x (a + 12)).toNat.testBit 0 then s.netifSend x lost corr i' k
      else
        let n := s.loadLE x (a + 8) 2
        let buf := s.loadLE x a 8 % 2 ^ 40
        let bad : Bool := n < 14 || 9212 < n
        if ¬ bad ∧ s.engineWaits x buf n then hold s
        else
          let r := if bad then (0, s) else s.netifRead x buf n lost corr
          if r.1 ≠ 0 then r.2.netifStop x r.1 buf false
          else
            let s := (r.2.netifFrame x buf n).netifReturn x a i' bad
            if s.is h F.NETIF_STATUS_ERR 0 then s else s.netifSend x lost corr i' k

/-- The interface sends what stands in its transmit ring. -/
def State.netifRun (s : State) (x : Side) (lost corr : Option Word40) : State :=
  if s.is (.side x) F.NETIF_CTRL 0 ∧ ¬ s.is (.side x) F.NETIF_STATUS_ERR 0 ∧ s.present (.dma x) then
    s.netifSend x lost corr (s.get (.side x) F.NETIF_STATUS_TX_NEXT 0) (s.get (.side x) F.NETIF_TX_LEN 0)
  else s

/-- A write of NETIF_TX_KICK (R330). -/
def State.netifKick (s : State) (x : Side) (v : Nat) (lost corr : Option Word40) : State :=
  if v.testBit 0 then s.netifRun x lost corr else s

/-- The interface of side `x` that waits at a locked line goes on once lines are free (R302). -/
def State.netifResume (s : State) (x : Side) : State :=
  if (s.side x).netifHeld then (s.setSide x { s.side x with netifHeld := false }).netifRun x none none else s

/-- NETIF_TX_KICK (R330): `lost` and `corr` name a word that the ECC finds uncorrectable, or corrects, as the interface reads (R28, R29). -/
def execNetifTxKick (x : Side) (o : Origin) (v : BitVec 32) (lost corr : Option Word40) (s : State) : Out :=
  ok (s.guarded x o 0x40164024 4 true (fun s => s.netifKick x v.toNat lost corr))

/-! ## Gates and shapers -/

/-- The time of Bellows domain `d` on the Flue die, in 1/1024 ns. -/
def State.blwTime (s : State) (d : Nat) : Nat := (if d = 0 then s.flue.dom0 else s.flue.dom1).clock.read s.now

/-- The time in ns for which class `t` stays open from within an entry of gates `cur` with `left` ns of it to run and the runs `rest` after it:
none for ever, 0 closed. -/
def gateLeft (rest : List (Nat × Nat)) (cur left t : Nat) : Option Nat :=
  if ¬ cur.testBit t then some 0
  else if rest.all (fun r => r.1.testBit t || r.2 == 0) then none
  else some ((rest.foldl (fun (a : Nat × Bool) r =>
    if a.2 && r.1.testBit t then (a.1 + r.2, true) else (a.1, a.2 && r.2 == 0)) (left, true)).1)

/-- The base time of port `p`'s gate in 1/1024 ns. -/
def State.tasBase (s : State) (p : Nat) : Nat := s.fg F.TAS_BASE_S p * secTicks + s.fg F.TAS_BASE_NS p

/-- The first cycle start at or after `t`. -/
def nextCycle (base cycle t : Nat) : Nat := if t ≤ base then base else base + ceilDiv (t - base) (cycle * 1024) * (cycle * 1024)

/-- The first cycle start of the configured list of port `p` from now on, on its time domain. -/
def State.tasFresh (s : State) (p : Nat) : Nat :=
  nextCycle (s.tasBase p) (s.fg F.TAS_CYCLE p) (s.blwTime (s.fg F.TAS_CFG_DOMAIN p))

/-- The list in force of gate `v` at port `p`. -/
def State.tasList (s : State) (p : Nat) (v : Tas) : List (Nat × Nat) := s.tasRuns p v.list v.cycle

/-- The end of the entry in force of gate `v` at port `p`, on its time domain. -/
def State.tasEntryEnd (s : State) (p : Nat) (v : Tas) : Nat :=
  v.start + 1024 * (((s.tasList p v).take (s.fg F.TAS_STATUS_ENTRY p + 1)).foldl (fun n r => n + r.2) 0)

/-- A frame of class `t` may start at port `p` and end before its gate closes (R350). After a step of the domain the entry in force holds until
the first cycle start of the configured list. -/
def State.gateFits (s : State) (p t : Nat) (q : QFrame) : Bool :=
  match s.tasOf p with
  | none => true
  | some v =>
    let runs := s.tasList p v
    let e := s.fg F.TAS_STATUS_ENTRY p
    let cur := (runs.getD e (255, 0)).1
    let d := s.fg F.TAS_CFG_DOMAIN p
    let left :=
      if v.held then gateLeft (s.tasRuns p (s.fg F.TAS_CFG_LIST p) (s.fg F.TAS_CYCLE p)) cur ((s.tasFresh p - s.blwTime d) / 1024) t
      else gateLeft (runs.drop (e + 1) ++ runs) cur ((s.tasEntryEnd p v - s.blwTime v.dom) / 1024) t
    match left with
    | none => true
    | some m => decide (s.wireNs p (s.egressBytes p q).length ≤ m)

/-- Class `t` of port `p` is eligible (R347). -/
def State.eligible (s : State) (p t : Nat) : Bool :=
  match s.queue p t with
  | [] => false
  | q :: _ =>
    s.gateFits p t q &&
      (!s.fb F.PORT_Q_CFG_CBS_EN (8 * p + t) || decide (0 ≤ sigInt (s.fg F.PORT_Q_CREDIT (8 * p + t))))

/-- The head frame of class `t` of port `p` fits no window of the list in force (R350). -/
def State.headOversize (s : State) (p t : Nat) : Bool :=
  match s.queue p t with
  | [] => false
  | q :: _ => s.oversize p t q

/-- The tick of a shaper update for one queue: the new credit (R348, R349). -/
def cbsCredit (c : Int) (slope rate : Nat) (sending waiting : Bool) : Int :=
  let i := clampNat 1 rate slope
  if sending then c - ceilDiv ((rate - i) * 4194304) 100000000
  else if waiting then c + (i * 4194304 / 100000000 : Nat)
  else if 0 < c then 0
  else min 0 (c + (i * 4194304 / 100000000 : Nat))

/-- Port `p` transmits from queue `t`. -/
def State.sendingFrom (s : State) (p t : Nat) : Bool :=
  decide (s.now < Tab.at 0 s.flue.txUntil p) && Tab.at 0 s.flue.txQueue p == t + 1

/-- CBS_UPDATE (R348): one shaper update cycle of every shaped queue. -/
def execCbsUpdate (s : State) : Out :=
  ok (if s.flueRuns then
    s.each (List.range 136) (fun s i =>
      if s.fb F.PORT_Q_CFG_CBS_EN i then
        let c := sigInt (s.fg F.PORT_Q_CREDIT i)
        s.set .flue F.PORT_Q_CREDIT i (ofSigned 40 (cbsCredit c (s.fg F.PORT_Q_CFG_IDLE_SLOPE i) (s.portRate (i / 8))
          (s.sendingFrom (i / 8) (i % 8)) (s.queue (i / 8) (i % 8) != [])))
      else s)
  else s)

/-! ## Transmission -/

/-- The active transmit SA of the SC in use at port `p`, and whether that SC's SA is exhausted (R354, R355). -/
def State.txSa (s : State) (p : Nat) : Option Nat × Bool :=
  let c := s.fg F.MSEC_CFG_TX_SC p
  match [0, 1, 2, 3].find? (fun a => s.fb F.MSEC_SA_STATE_ACTIVE (saIndex p 0 c a)) with
  | some a => let i := saIndex p 0 c a; if s.fb F.MSEC_SA_STATE_EXHAUSTED i then (none, true) else (some i, false)
  | none => (none, false)

/-- The packet number of a transmit SA used for one frame (R355): PN_LOW and exhaustion follow. -/
def State.usePn (s : State) (p i : Nat) : State :=
  let xpn := s.fb F.MSEC_SA_STATE_XPN i
  let pn := s.saPn i
  let last := if xpn then 2 ^ 64 - 1 else 2 ^ 32 - 1
  let th := if xpn then s.fg F.MSEC_PN_THXPN p * 2 ^ 32 else s.fg F.MSEC_PN_TH32 p
  let s := (s.setSaPn i (pn + 1)).cnt p 30 1
  let s := if th < pn + 1 ∧ ¬ s.fb F.MSEC_SA_STATE_PN_LOW i then
      (((s.set .flue F.MSEC_SA_STATE_PN_LOW i 1).set .flue F.MSEC_EVT_PN_LOW p 1).flueEvt F.FLUE_EVT_PN_LOW).logBoth 0x801 27
        [.nar 5 p, .nar 1 (i / 4), .nar 2 i]
    else s
  if last ≤ pn then
    (((s.set .flue F.MSEC_SA_STATE_EXHAUSTED i 1).set .flue F.MSEC_EVT_PN_EXHAUST p 1).flueEvt F.FLUE_EVT_PN_EXHAUST).logBoth 0x802 27 []
  else s

/-- A frame as transmit SA `i` of port `p` protects it (R353): a SecTAG with the SCI, ES and SCB at 0, then what GCM makes of the rest. -/
def State.protect (s : State) (p i : Nat) (b : List Nat) : List Nat :=
  let conf := s.fb F.MSEC_CFG_CONFIDENTIAL p
  let sci := Tab.at 0 s.flue.sci (4 * p + s.fg F.MSEC_CFG_TX_SC p)
  let pn := s.saPn i
  let short := if b.length < 60 then b.length - 12 else 0
  let head := b.take 12 ++ [0x88, 0xE5, 0x20 + 12 * b2n conf + i % 4, short] ++ beBytes 4 (pn % 2 ^ 32) ++ beBytes 8 sci
  head ++ gcmProtect (Tab.at [] s.flue.saKey i) (s.secIv i sci pn) head (b.drop 12) conf

/-- The MACsec step of a frame that leaves port `p` (R353, R355): the frame as it leaves, if it may, and the state after it. -/
def State.secure (s : State) (p : Nat) (b : List Nat) : Option (List Nat) × State :=
  if ¬ s.protected_ p ∨ be16 b 12 = 0x888E then (some b, s)
  else match s.txSa p with
    | (some i, _) => (some (s.protect p i b), s.usePn p i)
    | (none, true) => (none, s.cnt p 28 1)
    | (none, false) => (none, s.cnt p 29 1)

/-- The egress copies of a selected frame (R352). -/
def State.mirrorEgress (s : State) (p : Nat) (q : QFrame) : State :=
  if q.mirror then s
  else s.each [0, 1] (fun s m =>
    if s.fb F.MIR_CFG_ENABLE m ∧ (s.fg F.MIR_EGRESS m).testBit p then s.mirrorCopy m q else s)

/-- The guardian of port `p` on a frame that the module itself originated (R226): whether it may leave, and the state after it. -/
def State.guardPort (s : State) (p : Nat) (q : QFrame) (n : Nat) : Bool × State :=
  if p < 15 ∧ s.flue.cells.any (fun c => c.id == q.id && decide (15 ≤ c.port)) then
    match guardTake (Tab.at (0, 0) s.flue.guard p) s.now (s.fg F.PORT_GUARD_RATE p)
        (clampNat 1518 65536 (s.fg F.PORT_GUARD_BURST p)) n with
    | some g => (true, { s with flue := { s.flue with guard := Tab.put (0, 0) s.flue.guard p g } })
    | none => (false, s.cnt p 27 1)
  else (true, s)

/-- A selected frame `b` leaves port `p` from queue `t` as `out`: counted, on the wire for its time, and into the side's memory at ports 15
and 16. -/
def State.transmit (s : State) (p t : Nat) (b out : List Nat) : State :=
  let n := max 60 b.length
  let s := (s.cnt p 20 1).cnt p 21 (n + 4)
  let s := { s with flue := { s.flue with
    txUntil := Tab.put 0 s.flue.txUntil p (s.now + s.wireNs p b.length), txQueue := Tab.put 0 s.flue.txQueue p (t + 1)
    txFrame := Tab.put [] s.flue.txFrame p (framed out) } }
  if 15 ≤ p then
    let x := sideOf (p - 15)
    match s.rxDesc x with
    | some a => s.netifRx x a (b ++ List.replicate (60 - b.length) 0)
    | none => s
  else s

/-- Selection at port `p` (R347), at most as often as the number says: a head frame that no window of its class takes, or that the guardian or
MACsec discards, is not sent, and selection repeats at once. -/
def State.select (s : State) (p : Nat) : Nat → State
  | 0 => s
  | k + 1 =>
    match [7, 6, 5, 4, 3, 2, 1, 0].find? (fun t => s.eligible p t || s.headOversize p t) with
    | none => s
    | some t =>
      match s.queue p t with
      | [] => s
      | q :: rest =>
        let s := s.setQueue p t rest
        let b := s.egressBytes p q
        if s.oversize p t q then ((s.cnt p 26 1).release q.id).select p k
        else
          let (may, s) := s.guardPort p q (max 60 b.length)
          if ¬ may then (s.release q.id).select p k
          else
            let s := s.mirrorEgress p q
            match s.secure p b with
            | (some out, s) => (s.transmit p t b out).release q.id
            | (none, s) => (s.release q.id).select p k

/-- Frames queued at port `p`. -/
def State.queued (s : State) (p : Nat) : Nat := (List.range 8).foldl (fun n t => n + (s.queue p t).length) 0

/-- EGRESS_SELECT (R347): at a frame boundary of port `p`. A side without a free receive descriptor makes its port wait (R330); `lost` and `corr` name a
word of that descriptor that the ECC finds uncorrectable, or corrects. -/
def execEgressSelect (p : Fin 17) (lost corr : Option Word40) (s : State) : Out :=
  ok (if s.flueRuns ∧ s.portUp p ∧ 0 < s.queued p then
    let s := s.due (Tab.at 0 s.flue.txUntil p)
    let r := if (p : Nat) < 15 then (true, s) else s.netifReady (sideOf (p - 15)) lost corr
    if r.1 then r.2.select p (s.queued p) else r.2
  else s)

end Sys2Proof.Machine
end

