-- ==== Sys2Proof/Machine/Bellows.lean ====
section
/-! DEFINITION. Bellows, the network time unit of the Flue die (chapter 14 R397 to R408, R418, R419): stamps, the servo, jumps and
steps, Sync transmission, peer delay and the grandmaster. -/
namespace Sys2Proof.Machine
open Sys2Proof

/-- Time domain `d` at Bellows. -/
def State.dom (s : State) (d : Nat) : Domain := if d = 0 then s.flue.dom0 else s.flue.dom1

/-- The state with `v` as time domain `d` at Bellows. -/
def State.setDom (s : State) (d : Nat) (v : Domain) : State :=
  { s with flue := if d = 0 then { s.flue with dom0 := v } else { s.flue with dom1 := v } }

/-- Port `p` is a PTP port with a link (R398). -/
def State.ptpPort (s : State) (p : Nat) : Bool := decide (p < 15) && s.fb F.BLW_PCFG_PTP_EN p && s.portUp p

/-- Speed index of port `p`: BYP_CFG.SPEED on the ring ports, else 0 (R401, R419). -/
def State.ptpSpeed (s : State) (p : Nat) : Nat := if p < 2 then s.flue.ringSpeed else 0

/-- Receive latency in force at port `p`, Q20.20 ns (R400). -/
def State.rxLat (s : State) (p : Nat) : Nat := latencyTable false p (s.ptpSpeed p)

/-- Transmit latency in force at port `p`, Q20.20 ns, with the 122.88 ns of a protected port's pipeline (R400). -/
def State.txLat (s : State) (p : Nat) : Nat :=
  latencyTable true p (s.ptpSpeed p) + (if s.protected_ p then ceilDiv (12288 * q20) 100 else 0)

/-- Upstream link delay of port `p`, in 1/1024 ns: its mean link delay (port 14: the fixed one) and the asymmetry in force (R399,
R401). -/
def State.upstream (s : State) (p : Nat) : Int :=
  (sigInt (s.fg (if p = 14 then F.BLW_FIXED_DELAY else F.BLW_MEAN_DELAY) p) +
    sigInt (s.fg F.BLW_ASYM (3 * p + s.ptpSpeed p))) / 1024

/-- Role of port `p` in domain `d` (R419). -/
def State.ptpRole (s : State) (d p : Nat) : Nat := s.fg (if d = 0 then F.BLW_PSTATUS_ROLE_D0 else F.BLW_PSTATUS_ROLE_D1) p

/-- The state with role `r` at port `p` of domain `d`. -/
def State.setRole (s : State) (d p r : Nat) : State :=
  s.set .flue (if d = 0 then F.BLW_PSTATUS_ROLE_D0 else F.BLW_PSTATUS_ROLE_D1) p r

/-- Roles and slave port of the domains under external port configuration (R397); port 14 can only be a master (R399). -/
def State.externalRoles (s : State) : State :=
  s.each (List.range 2) (fun s d =>
    if s.fb F.BLW_CFG_EXT_PORT d then
      let role := fun p => let r := s.fg (if d = 0 then F.BLW_PCFG_EXT_ROLE_D0 else F.BLW_PCFG_EXT_ROLE_D1) p; if p = 14 then min 1 r else r
      let slave := ((List.range 14).find? (fun p => s.fb F.BLW_PCFG_PTP_EN p && role p == 2)).getD 31
      (s.set .flue F.BLW_STATE_SLAVE_PORT d slave).each (List.range 15) (fun s p => s.setRole d p (role p))
    else s)

/-! ## The servo (R405, R406) -/

/-- A value saturated to 40 bits, signed. -/
def sat40 (v : Int) : Int := clampInt (-(2 ^ 39)) (2 ^ 39 - 1) v

/-- integ and adj after an offset, in 1/1024 ns, under kp and ki (R405). -/
def servo (kp ki integ off : Int) : Int × Int :=
  let lim : Int := 500000 * 2 ^ 20
  let off := clampInt (-lim) lim (off * 1024)
  let integ := clampInt (-lim) lim (integ + sat40 ((ki * off) >>> 20))
  (integ, clampInt (-lim) lim (-(sat40 ((kp * off) >>> 20) + integ)))

/-- The clock of domain `d` runs at `adj` ppb (Q20.20) from now on, and BLW_ADJ shows it. -/
def State.steerDom (s : State) (d : Nat) (adj : Int) : State :=
  let v := s.dom d
  (s.setDom d { v with clock := v.clock.steer s.now adj }).set .flue F.BLW_ADJ d (ofSigned 40 adj)

/-- LOCKED of domain `d` changes (R406). -/
def State.setLocked (s : State) (d : Nat) (v : Bool) : State :=
  if s.fb F.BLW_STATE_LOCKED d = v then s
  else ((s.set .flue F.BLW_STATE_LOCKED d (b2n v)).blwEvt F.BLW_EVT_LOCK_CHG d).logBoth 0xA01 27 []

/-- The servo of domain `d` enters state `v`; a change of HOLDOVER is flagged and logged (R406). -/
def State.setServo (s : State) (d v : Nat) : State :=
  let s := s.set .flue F.BLW_STATE_SERVO d v
  if s.fb F.BLW_STATE_HOLDOVER d = decide (v = 3) then s
  else ((s.set .flue F.BLW_STATE_HOLDOVER d (b2n (v == 3))).blwEvt F.BLW_EVT_HOLDOVER_CHG d).logBoth 0xA02 27 []

/-- ACQUIRE or TRACK becomes HOLDOVER: the clock runs at its last integ, and LOCKED clears (R406). -/
def State.holdover (s : State) (d : Nat) : State :=
  if s.fg F.BLW_STATE_SERVO d = 1 ∨ s.fg F.BLW_STATE_SERVO d = 2 then
    let s := (s.setServo d 3).setLocked d false
    let s := s.setDom d { s.dom d with good := 0 }
    s.steerDom d (-(sigInt (s.fg F.BLW_INTEG d)))
  else s

/-- The gates that run on domain `d` hold their entries until the first cycle start on its new timescale (R350). -/
def State.holdGates (s : State) (d : Nat) : State :=
  { s with flue := { s.flue with tas := s.flue.tas.map (fun q => if q.2.dom = d then (q.1, { q.2 with held := true }) else q) } }

/-- Domain `d` steps by `by_` (1/1024 ns) at one BELLOWS cycle: ACQUIRE with its integ kept (R408). -/
def State.stepDom (s : State) (d : Nat) (by_ : Int) : State :=
  let v := s.dom d
  let c := v.clock
  let t := ((c.read s.now : Int) + by_).toNat
  let s := s.setDom d { v with clock := ⟨t, s.now, c.adj, 0, 0⟩, since := 0, good := 0, rxPin := v.rxPin + by_, stepA := true, stepB := true }
  let s := s.holdGates d
  let s := ((s.set .flue F.BLW_STATE_PENDING d 0).set .flue F.BLW_STATE_RUN d 0).setServo d 1
  let s := (s.inc .flue F.BLW_STEP_COUNT d).blwEvt F.BLW_EVT_STEP d
  s.logBoth 0xA05 27 [.nar 1 d, .wide (ofSigned 40 (by_ / 1024))]

/-- An offset within the jump threshold (R405 to R407): PENDING clears, HOLDOVER ends, the servo updates, ACQUIRE and LOCKED
progress. -/
def State.goodOffset (s : State) (d : Nat) (off : Int) : State :=
  let s := (s.set .flue F.BLW_STATE_PENDING d 0).set .flue F.BLW_STATE_RUN d 0
  let s := if s.fg F.BLW_STATE_SERVO d = 3 then s.setServo d 2 else s
  let r := servo (sigInt (s.fg F.BLW_KP d)) (sigInt (s.fg F.BLW_KI d)) (sigInt (s.fg F.BLW_INTEG d)) off
  let s := (s.set .flue F.BLW_INTEG d (ofSigned 40 r.1)).steerDom d r.2
  let th := s.fg F.BLW_LOCK_TH d
  let v := s.dom d
  let good := if off.natAbs * 1024 ≤ th then min 8 (v.good + 1) else 0
  let s := s.setDom d { v with since := min 4 (v.since + 1), good := good }
  let s := if s.fg F.BLW_STATE_SERVO d = 1 ∧ 4 ≤ v.since + 1 then s.setServo d 2 else s
  if 8 ≤ good then s.setLocked d true else if 2 * th < off.natAbs * 1024 then s.setLocked d false else s

/-- An offset beyond the jump threshold (R407, R408): the first is refused, a later one replaces BLW_PENDING; with AUTO_STEP a run of
sixteen agreeing offsets steps the domain. -/
def State.jump (s : State) (d : Nat) (off : Int) : State :=
  let pend := ofSigned 40 (sat40 (off / 1024))
  let s := if s.fb F.BLW_STATE_PENDING d then s.set .flue F.BLW_PENDING d pend else
    let s := ((s.holdover d).set .flue F.BLW_STATE_PENDING d 1).set .flue F.BLW_PENDING d pend
    ((s.blwEvt F.BLW_EVT_JUMP_REFUSED d).inc .flue F.BLW_JUMP_REFUSED_COUNT d).logBoth 0xA03 27 []
  if s.fb F.BLW_CFG_AUTO_STEP d then
    let v := s.dom d
    let run := s.fg F.BLW_STATE_RUN d
    if 0 < run ∧ (off - v.first).natAbs ≤ 100 * 1024 then
      if 15 ≤ run then s.stepDom d (-off) else s.set .flue F.BLW_STATE_RUN d (run + 1)
    else (s.setDom d { v with first := off }).set .flue F.BLW_STATE_RUN d 1
  else s.set .flue F.BLW_STATE_RUN d 0

/-- A time of the PTP timescale as the module takes it: the upper 8 bits of its 48-bit seconds are zero (R9). -/
def cutTime (t : Int) : Int := t % (2 ^ 40 * secTicks : Nat)

/-- A Sync used by domain `d` (R405): the offset of the local time from the master's at the Sync's pin instant. -/
def State.syncRx (s : State) (d p : Nat) (m : SyncMsg) : State :=
  let pin : Int := m.stamp - (s.rxLat p : Int) / 1024
  let off := pin - (cutTime m.origin + m.correction / 64 + s.upstream p)
  let s := s.setDom d { s.dom d with syncAt := some s.now, rxPin := pin, origin := m.origin, corr := m.correction,
                                        oneStep := m.oneStep }
  let s := (s.inc .flue F.BLW_SYNC_RX_COUNT d).set .flue F.BLW_OFFSET d (ofSigned 40 (sat40 (off / 1024)))
  if s.fg F.BLW_STATE_SERVO d = 0 then
    let v := s.dom d
    let t := ((v.clock.read s.now : Int) - off).toNat
    ((s.setDom d { v with clock := ⟨t, s.now, v.clock.adj, 0, 0⟩, since := 0, good := 0, rxPin := pin - off }).setServo d 1).logBoth 0xA00 27 []
  else if s.fg F.BLW_JUMP_TH d * 1024 < off.natAbs then s.jump d off
  else s.goodOffset d off

/-- PTP_SYNC_RX (R405): a Sync of the domain on its slave port. One that has failed validation is discarded with its stamp (R357). -/
def execPtpSyncRx (d : Fin 2) (p : Fin 15) (msg : SyncMsg) (s : State) : Out :=
  ok (if s.flueRuns ∧ s.fb F.BLW_CFG_ENABLE d ∧ s.ptpPort p ∧ s.fg F.BLW_STATE_SLAVE_PORT d = p ∧ s.fg F.BLW_STATE_SERVO d ≠ 4 ∧
      msg.domainNumber.toNat = s.fg F.BLW_CFG_DOMAIN_NUMBER d ∧ (s.protected_ p → msg.passed) then
    s.syncRx d p msg
  else s)

/-- Three Sync intervals of port `p`, in ns (R406, R419). -/
def State.syncTimeoutNs (s : State) (p : Nat) : Nat :=
  let e := clampInt (-5) 0 (toSigned 8 (s.fg F.BLW_PCFG_LOG_SYNC p))
  3 * 1000000000 / 2 ^ (-e).toNat

/-- SYNC_TIMEOUT (R406): no Sync on the slave port for three Sync intervals. -/
def execSyncTimeout (d : Fin 2) (s : State) : Out :=
  let v := s.dom d
  ok (match v.syncAt with
    | some t =>
      if s.flueRuns ∧ (s.fg F.BLW_STATE_SERVO d = 1 ∨ s.fg F.BLW_STATE_SERVO d = 2) then
        ((s.due (t + s.syncTimeoutNs (s.fg F.BLW_STATE_SLAVE_PORT d))).inc .flue F.BLW_SYNC_TIMEOUT_COUNT d).holdover d
      else s
    | none => s)

/-! ## The best master clock (R397, R407). PRESUMED from IEEE 802.1AS-2020, which R397 names (log entry 115). -/

/-- The priority vector of an Announce, best lowest: grandmaster, steps removed, sender, receiving port. -/
def annVector (a : Announce) : List Nat :=
  [a.priority1.toNat, a.quality.toNat, a.priority2.toNat, a.gmId.toNat, a.steps.toNat, a.source.toNat, a.port.val + 1]

/-- Whether one priority vector is better than another. -/
def better : List Nat → List Nat → Bool
  | a :: l, b :: m => decide (a < b) || (a == b && better l m)
  | _, _ => false

/-- The vector of the module itself in domain `d`, as sent from port number `port`. -/
def State.ownVector (s : State) (d port : Nat) : List Nat :=
  let me := Config.clockIdentity.toNat
  [s.fg F.BLW_CFG_PRIORITY1 d, 0xF8FE436A, s.fg F.BLW_CFG_PRIORITY2 d, me, 0, me * 65536 + port, 0]

/-- An Announce that domain `d` uses: of its domainNumber, on a port in use and asCapable, from another clock, not too far off, and not come through this
module already. -/
def State.qualified (s : State) (d : Nat) (a : Announce) : Bool :=
  a.domainNumber.toNat == s.fg F.BLW_CFG_DOMAIN_NUMBER d && s.ptpPort a.port && s.fb F.BLW_PSTATUS_AS_CAPABLE a.port &&
    a.source.toNat / 65536 != Config.clockIdentity.toNat && decide (a.steps.toNat < 255) && !a.path.contains Config.clockIdentity

/-- The best of some Announces. -/
def bestOf (l : List Announce) : Option Announce :=
  l.foldl (fun (b : Option Announce) a =>
    match b with
    | some c => if better (annVector a) (annVector c) then some a else b
    | none => some a) none

/-- The vector that the module announces on port number `port` of domain `d`: that of the master it follows, or its own. -/
def State.masterVector (s : State) (d port : Nat) : Option Announce → List Nat
  | some a => [a.priority1.toNat, a.quality.toNat, a.priority2.toNat, a.gmId.toNat, a.steps.toNat + 1, Config.clockIdentity.toNat * 65536 + port, 0]
  | none => s.ownVector d port

/-- The role of port `p` of domain `d` under master `m` (none: this module), by the Announces in use (R399, R419): disabled, master, slave, passive. -/
def State.bmcaRole (s : State) (d p : Nat) (l : List Announce) (m : Option Announce) : Nat :=
  if ¬ s.fb F.BLW_PCFG_PTP_EN p then 0
  else if p = 14 then 1
  else if ¬ s.fb F.BLW_PSTATUS_AS_CAPABLE p then 0
  else if m.any (fun a => a.port == p) then 2
  else if (bestOf (l.filter (fun a => a.port == p))).any (fun a => better (annVector a) (s.masterVector d (p + 1) m)) then 3
  else 1

/-- A decision of the BMCA: the roles, the slave port and the grandmaster. Another grandmaster than before is a GM_CHANGE (R407). -/
def State.bmcaTake (s : State) (d : Nat) (l : List Announce) (m : Option Announce) : State :=
  let gm := match m with
    | some a => a.gmId.toNat
    | none => Config.clockIdentity.toNat
  let hi := gm / 2 ^ 32
  let lo := gm % 2 ^ 32
  let self := m.isNone
  let same : Bool := s.fg F.BLW_GM_ID_HI d == hi && s.fg F.BLW_GM_ID_LO d == lo && s.fb F.BLW_STATE_IS_GM d == self
  let s := s.each (List.range 15) (fun s p => s.setRole d p (s.bmcaRole d p l m))
  let s := (s.set .flue F.BLW_GM_ID_HI d hi).set .flue F.BLW_GM_ID_LO d lo
  let s := (s.set .flue F.BLW_STATE_IS_GM d (b2n self)).set .flue F.BLW_STATE_SLAVE_PORT d (match m with
    | some a => a.port.val
    | none => 31)
  let s := if same then s
    else ((s.blwEvt F.BLW_EVT_GM_CHANGE d).inc .flue F.BLW_GM_CHANGE_COUNT d).logBoth 0xA04 27 [.nar 32 hi, .nar 32 lo]
  if self then s.setServo d 4 else if s.fg F.BLW_STATE_SERVO d = 4 then s.setServo d 2 else s

/-- GM_CHANGE (R407): an Announce has come or timed out, and the BMCA decides by those that have not. A module that may not become grandmaster and hears
none keeps what it has. -/
def execGmChange (d : Fin 2) (l : List Announce) (s : State) : Out :=
  ok (if s.flueRuns ∧ s.fb F.BLW_CFG_ENABLE d ∧ ¬ s.fb F.BLW_CFG_EXT_PORT d then
    let l := l.filter (fun a => s.qualified d a)
    match bestOf l with
    | some a =>
      if s.fb F.BLW_CFG_GM_CAPABLE d ∧ better (s.ownVector d 0) (annVector a) then s.bmcaTake d l none else s.bmcaTake d l (some a)
    | none => if s.fb F.BLW_CFG_GM_CAPABLE d then s.bmcaTake d l none else s
  else s)

/-! ## Sync transmission and peer delay -/

/-- The originTimestamp, 1/1024 ns, and the correctionField, 2^-16 ns, of a Sync of domain `d` whose transmit pin instant is `pin` (R403): as
grandmaster the whole nanoseconds and the fraction; as relay what came, with upstream delay and residence time added at the domain's ratio to the
grandmaster (1 + x * 2^-41, x a free value). -/
def State.syncFields (s : State) (d : Nat) (pin : Int) : Int × Int :=
  if s.fg F.BLW_STATE_SERVO d = 4 then (pin / 1024 * 1024, pin % 1024 * 64)
  else
    let v := s.dom d
    let t := (s.upstream (s.fg F.BLW_STATE_SLAVE_PORT d) + (pin - v.rxPin)) * 64
    (v.origin, v.corr + t + t * toSigned 32 (s.freeVal 32) / 2 ^ 41)

/-- The bytes of a gPTP event or general message of domain `d` on port `p`, by its type (0 Sync, 8 Follow_Up). PRESUMED from IEEE 802.1AS-2020 (log entry
115); the Follow_Up information, which the spec does not give, is free. -/
def State.ptpBytes (s : State) (d p type : Nat) (two : Bool) (origin : Int) (corr : Int) (info : Bool) : List Nat :=
  let ns := (origin / 1024).toNat
  beBytes 6 0x0180C200000E ++ beBytes 6 (Config.portMac p).toNat ++ [0x88, 0xF7, 0x10 + type, 2] ++ beBytes 2 (if info then 76 else 44) ++
    [s.fg F.BLW_CFG_DOMAIN_NUMBER d, 0, if two then 2 else 0, 8] ++ beBytes 8 (ofSigned 64 corr) ++ [0, 0, 0, 0] ++
    beBytes 8 Config.clockIdentity.toNat ++ beBytes 2 (p + 1) ++ beBytes 2 ((s.dom d).seq % 65536) ++ [0, s.fg F.BLW_PCFG_LOG_SYNC p] ++
    beBytes 6 (ns / 1000000000) ++ beBytes 4 (ns % 1000000000) ++
    (if info then [0, 3, 0, 28, 0, 0x80, 0xC2, 0, 0, 1] ++ (List.range 22).map (fun k => (Config.freeValue (s.free + 1 + k)).toNat % 256) else [])

/-- Bellows sends frame `b` of its own on port `p`, behind MACsec (R404): what left, and the state after it. -/
def State.ptpSend (s : State) (p : Nat) (b : List Nat) : Option (List Nat) × State :=
  match s.secure p b with
  | (some out, s) =>
    let s := (s.cnt p 20 1).cnt p 21 (max 60 b.length + 4)
    (some (framed out), { s with flue := { s.flue with
      txUntil := Tab.put 0 s.flue.txUntil p (s.now + s.wireNs p b.length), txQueue := Tab.put 0 s.flue.txQueue p 0
      txFrame := Tab.put [] s.flue.txFrame p (framed out) } })
  | (none, s) => (none, s)

/-- Messages of domain `d` that fit the fields `f` leave port `p`: a one-step Sync, or a Sync and its Follow_Up. A Sync that MACsec discards is not sent. -/
def State.syncSend (s : State) (d p : Nat) (one : Bool) (f : Int × Int) : State :=
  let a := s.ptpBytes d p 0 (!one) (if one then f.1 else 0) (if one then f.2 else 0) one
  let b := s.ptpBytes d p 8 false f.1 f.2 true
  let s := iter (fun s => s.took) 23 s
  let s := s.setDom d { s.dom d with seq := (s.dom d).seq + 1 }
  match s.ptpSend p a with
  | (none, s) => s
  | (some out, s) =>
    let r := if one then (none, s) else s.ptpSend p b
    r.2.setDom d { r.2.dom d with sent := some ⟨p, one, (f.1 / 1024).toNat, f.2, out, r.1⟩ }

/-- PTP_SYNC_TX (R403): a master port sends a Sync of the domain, whose stamp-stage instant has the nanosecond word `stage`; one-step
where ONE_STEP allows it and the Sync is the module's own or came one-step. -/
def execPtpSyncTx (d : Fin 2) (p : Fin 15) (stage : Word40) (s : State) : Out :=
  ok (if s.flueRuns ∧ s.fb F.BLW_CFG_ENABLE d ∧ s.ptpPort p ∧ s.ptpRole d p = 1 ∧
      (s.fg F.BLW_STATE_SERVO d = 4 ∨ (s.dom d).syncAt.isSome) then
    let pin : Int := s.blwTime d / secTicks * secTicks + stage.toNat + s.txLat p / 1024
    let one := s.fb F.BLW_PCFG_ONE_STEP p && (s.fg F.BLW_STATE_SERVO d == 4 || (s.dom d).oneStep)
    s.syncSend d p one (s.syncFields d pin)
  else s)

/-- PDELAY_EXCHANGE (R397): a peer delay exchange on a port 0 to 13 measures the mean link delay, or gets no response. A port is asCapable while
another clock answers within 800 ns, until more than nine requests in a row go unanswered. PRESUMED from IEEE 802.1AS-2020 (log entry 115). -/
def execPdelayExchange (p : Fin 15) (resp : Option PdelayResp) (s : State) : Out :=
  ok (if s.flueRuns ∧ s.ptpPort p ∧ p.val < 14 then
    let lost (n : Nat) (s : State) : State := { s with flue := { s.flue with pdelayLost := Tab.put 0 s.flue.pdelayLost p n } }
    match resp with
    | some r =>
      let cap := r.responder ≠ Config.clockIdentity ∧ r.delay.toNat ≤ 800 * q20
      ((lost 0 s).set .flue F.BLW_MEAN_DELAY p r.delay.toNat).set .flue F.BLW_PSTATUS_AS_CAPABLE p (b2n (decide cap))
    | none =>
      let n := min 10 (Tab.at 0 s.flue.pdelayLost p + 1)
      let s := (lost n s).inc .flue F.BLW_PDELAY_LOST_COUNT p
      if n < 10 then s else s.set .flue F.BLW_PSTATUS_AS_CAPABLE p 0
  else s)

end Sys2Proof.Machine
end

