-- ==== Sys2Proof/Machine/Perf.lean ====
section
/-! DEFINITION. The performance counters (chapter 16 R474 to R479). -/
namespace Sys2Proof.Machine
open Sys2Proof

/-- The event codes of R475. -/
def perfCodes : List Nat :=
  [0x00, 0x01, 0x02, 0x03, 0x10, 0x11, 0x12, 0x13, 0x14, 0x15, 0x20, 0x21, 0x22, 0x23, 0x30, 0x31, 0x32]

/-- Counter `n` may count (R474). -/
def State.perfRuns (s : State) (x : Side) (n : Nat) : Bool :=
  s.is (.side x) F.PERF_CTRL_ENABLE 0 && !s.is (.side x) F.PERF_CTRL_FREEZE 0 && s.is (.side x) F.PERF_SEL_EN n

/-- Odd counter `n` counts the wraps of the counter below it (R477). -/
def State.perfChained (s : State) (x : Side) (n : Nat) : Bool := n % 2 == 1 && s.is (.side x) F.PERF_SEL_CHAIN n

/-- An access address lies in the window that counter `n` selects, if it selects one (R476). -/
def State.perfRange (s : State) (x : Side) (n : Nat) (a : Option Word40) : Bool :=
  let r := s.get (.side x) F.PERF_FILT_RANGE n
  if 1 ≤ r ∧ r ≤ 4 then
    (match a with
     | some a => decide (s.get (.side x) F.PERF_RANGE_BASE (r - 1) ≤ a.toNat ∧ a.toNat ≤ s.get (.side x) F.PERF_RANGE_LIMIT (r - 1))
     | none => false)
  else true

/-- Counter `n` counts event `e` (R474 to R476). Marked accesses count in class SPEC alone; PRIV filters harts only. -/
def State.perfCounts (s : State) (x : Side) (n : Nat) (e : PerfEvent) : Bool :=
  let h := Holder.side x
  s.perfRuns x n && !s.perfChained x n && s.get h F.PERF_SEL_EVENT n == e.code.toNat && perfCodes.contains e.code.toNat &&
    (!e.marked || decide (e.code.toNat < 16)) && (s.get h F.PERF_FILT_INIT n).testBit e.init.val &&
    (s.get h F.PERF_FILT_WORLD n).testBit e.world.val &&
    (decide (6 ≤ e.init.val) || (s.get h F.PERF_FILT_PRIV n).testBit e.priv.val) && s.perfRange x n e.addr

/-- A wrap of counter `n` shows in PERF_OVF and latches source 88 when OVF_IRQ is 1 (R477). -/
def State.perfWrap (s : State) (x : Side) (n : Nat) : State :=
  let h := Holder.side x
  let s := if n < 32 then s.setBit h F.PERF_OVF_LO 0 n else s.setBit h F.PERF_OVF_HI 0 (n - 32)
  if s.is h F.PERF_SEL_OVF_IRQ n then s.intr x 88 else s

/-- Counter `n` counts one; it wraps at 40 bits. -/
def State.perfStep (s : State) (x : Side) (n : Nat) : State × Bool :=
  let v := s.get (.side x) F.PERF_CNT n + 1
  (s.set (.side x) F.PERF_CNT n v, decide (v = 2 ^ 40))

/-- Counter `n` counts one, with the odd partner that counts its wraps. -/
def State.perfInc (s : State) (x : Side) (n : Nat) : State :=
  let (s, w) := s.perfStep x n
  if ¬ w then s
  else if n % 2 = 0 ∧ s.perfChained x (n + 1) then
    if s.perfRuns x (n + 1) then
      let (s, w) := s.perfStep x (n + 1)
      if w then s.perfWrap x (n + 1) else s
    else s
  else s.perfWrap x n

/-- An event reaches the counters of side `x`. -/
def State.perfEvent (s : State) (x : Side) (e : PerfEvent) : State :=
  s.each ((List.range 48).filter (fun n => s.perfCounts x n e)) (fun s n => s.perfInc x n)

/-- The events that commands of the model make and that no stimulus reports again: GATE.CALL retired, a bridge transaction issued, a word written to
a door's command FIFO (log entry 91). -/
def ownEvents : List Nat := [0x15, 0x31, 0x32]

/-- The bit number in PRIV of a hart's privilege (R476). -/
def privBit (priv : Nat) (virt : Bool) : Fin 5 :=
  if virt then (if priv = 0 then 3 else 4) else if priv = 0 then 0 else if priv = 1 then 1 else 2

/-- The event with code `c` that initiator `i` makes in world `w` at address `a`. -/
def State.ownEvent (s : State) (x : Side) (c i w : Nat) (a : Option Nat) : State :=
  let v := s.hart x i
  s.perfEvent x ⟨BitVec.ofNat 8 c, Fin.ofNat 16 i, Fin.ofNat 8 w, privBit v.priv v.virt, a.map (BitVec.ofNat 40), false⟩

/-- PERF_COUNTER_WRAP (R477): an event reaches the counters of side `x`. -/
def execPerfCounterWrap (x : Side) (e : PerfEvent) (s : State) : Out :=
  ok (if s.fabric x ∧ ¬ ownEvents.contains e.code.toNat then s.perfEvent x e else s)

/-- A read of PERF_CNTn latches the odd partner of a chained pair (R477). -/
def State.perfRead (s : State) (x : Side) (n : Nat) : State :=
  let h := Holder.side x
  let v := s.get h F.PERF_CNT n
  let s := if n % 2 = 0 ∧ s.perfChained x (n + 1) then s.set h F.PERF_LATCH n (s.get h F.PERF_CNT (n + 1)) else s
  { s with resp := .data v }

/-- PERF_CNT_READ (R477). -/
def execPerfCntRead (x : Side) (o : Origin) (n : Fin 48) (s : State) : Out :=
  ok (s.guarded x o (0x40100100 + 0x20 * n) 8 false (fun s => s.perfRead x n))

end Sys2Proof.Machine
end

