-- ==== Sys2Proof/Machine/Tally.lean ====
section
/-! DEFINITION. The tally (chapter 16 R463 to R473, chapter 02 R52 to R55): boundaries, what each producer latches, the records and the
local section, and the ring of banks. -/
namespace Sys2Proof.Machine
open Sys2Proof

/-! ## Boundaries (R463) -/

/-- The period in force, ms. -/
def State.tallyMs (s : State) (x : Side) : Nat := clampNat 1 60000 (s.get (.side x) F.TALLY_PERIOD 0)

/-- 1/1024 ns in a millisecond. -/
def msTicks : Nat := 1000000 * 1024

/-- The first boundary after time `t` (1/1024 ns) under period `p` ms: of locked time, or of free-running time. -/
def nextBoundary (locked : Bool) (p t : Nat) : Nat :=
  if ¬ locked then (t / (p * msTicks) + 1) * (p * msTicks)
  else if p ≤ 1000 then
    let sec := t / secTicks * secTicks
    let k := (t % secTicks) / (p * msTicks) + 1
    if 1000 ≤ k * p then sec + secTicks else sec + k * p * msTicks
  else (t / (p / 1000 * secTicks) + 1) * (p / 1000 * secTicks)

/-- Time of the next boundary of side `x` on its tick domain: the first after the last one, or at least 1 ms after a change of rule. -/
def State.boundary (s : State) (x : Side) : Nat := nextBoundary (s.locked x) (s.tallyMs x) (s.side x).tallyFrom

/-! ## Counters -/

/-- The instances of a register family: index and offset. -/
def dimAll : List Dim → List (Nat × Nat)
  | [] => [(0, 0)]
  | ds => (ds.foldl (fun (l : List (Nat × Nat)) d =>
      l.flatMap (fun p => (List.range d.count).map (fun k => (p.1 * d.count + (d.start + k), p.2 + (d.start + k) * d.stride)))) [(0, 0)])

/-- The registers of holder `h` with the numbers `l` restart from zero. -/
def State.restart (s : State) (h : Holder) (l : List Nat) : State :=
  { s with regs := s.regs.filter (fun p => !(p.1.hold == h.code && l.contains p.1.reg)) }

/-- Values of a channel record (R468). -/
def chanCounters : List Fld :=
  [F.CH_TURN_ON_COUNT, F.CH_LIMIT_COUNT, F.CH_TSD_COUNT, F.CH_RETRY_COUNT, F.CH_LATCH_COUNT, F.CH_EVT_SUPPRESS_COUNT, F.CH_PWM_CLIP_COUNT,
   F.MEAS_E, F.DMP_CH_REFUSE_COUNT, F.DMP_CH_SHED_COUNT, F.WIRE_TRIP_COUNT]

/-- Values that local channel 15 adds. -/
def dieCounters : List Fld :=
  [F.DMP_HOLD_COUNT, F.DMP_HOLD_ADMIT_COUNT, F.DMP_REFUSE_BUDGET_COUNT, F.DMP_REFUSE_LIMIT_COUNT, F.DMP_SHED_COUNT, F.DMP_SPARK_REFUSE_COUNT]

/-- Two copies of the same counters as one (R63, R465). -/
def addCopies (a b : List (List Nat)) : List (List Nat) :=
  if a = [] then b else List.zipWith (List.zipWith (fun u v => (u + v) % 2 ^ 40)) a b

/-- What is owed to each side, with one more copy. -/
def owe (t : Tab (List (List Nat))) (copy : List (List Nat)) : Tab (List (List Nat)) :=
  [0, 1].foldl (fun t k => Tab.put [] t k (addCopies (Tab.at [] t k) copy)) t

/-- The counters of a channel's record. -/
def State.chanValues (s : State) (d n : Nat) : List Nat :=
  chanCounters.map (fun f => s.get (.grate d) f n) ++ (if n = 15 then dieCounters.map (fun f => s.get (.grate d) f 0) else [])

/-- Die `d` copies its statistics at a boundary and restarts them (R464). Both sides' records are owed the copy, so that each side's next record
covers all of its own periods (R465). -/
def State.latchDie (s : State) (d : Nat) : State :=
  let s := s.setDie d { s.die d with owed := owe (s.die d).owed ((List.range 16).map (fun n => s.chanValues d n)) }
  s.restart (.grate d) ((chanCounters ++ dieCounters).map (fun f => f.reg))

/-- What die `d` owes side `x` goes into its records. -/
def State.payDie (s : State) (x : Side) (d : Nat) : State := s.setDie d { s.die d with owed := Tab.put [] (s.die d).owed x.num [] }

/-- Registers of the Flue die that are tally statistics without a copy there: the bypass, Bellows (R322, R418). -/
def flueRestart : List Nat := [222, 223, 410, 411, 412, 413, 414, 422]

/-- Counters of the QOS and ESPARK blocks (R472). -/
def flueCopied : List Nat := [138, 139, 140, 141, 142, 143, 144, 147, 148, 149, 305, 306, 307, 314, 315, 316, 317, 318, 319, 323, 324]

/-- The counters of a port's record. -/
def State.portValues (s : State) (p : Nat) : List Nat := (List.range 35).map (fun k => s.get .flue F.PORT_CNT (35 * p + k))

/-- The Flue die copies the ports' statistics at a boundary and restarts them, owed to both sides as a grate die's are. -/
def State.latchPorts (s : State) : State :=
  ({ s with flue := { s.flue with portOwed := owe s.flue.portOwed ((List.range 17).map s.portValues) } }).restart .flue [F.PORT_CNT.reg]

/-- What the Flue die owes side `x` goes into its records. -/
def State.payPorts (s : State) (x : Side) : State := { s with flue := { s.flue with portOwed := Tab.put [] s.flue.portOwed x.num [] } }

/-- The Flue die's own copy at the boundary of the net token's holder (R472). -/
def State.latchFlue (s : State) (t : Nat) : State :=
  let old := s.regs.filter (fun p => !(p.1.hold == Holder.flueTally.code))
  let copy := old.filter (fun p => p.1.hold == Holder.flue.code && flueCopied.contains p.1.reg)
  let s := { s with regs := copy.foldl (fun (r : List (FKey × Nat)) (p : FKey × Nat) => Tab.set FKey.rst FKey.code r { p.1 with hold := Holder.flueTally.code } p.2) old }
  let s := s.restart .flue (flueCopied ++ flueRestart)
  ((s.inc .flue F.FLUE_TALLY_SEQ 0).set .flue F.FLUE_TALLY_S 0 (secWord t)).set .flue F.FLUE_TALLY_NS 0 (nsWord t)

/-- Registers of a side in the local section (R471), by number. -/
def localCounters : List Nat :=
  [13, 14, 15, 16, 26, 27, 28, 29, 30, 34, 35, 36, 37, 38, 39, 41, 42, 43, 44, 45, 46, 54, 55, 138, 139, 140, 141, 142, 143, 144,
   197, 198, 199, 200, 201, 202, 203, 216, 217, 218, 219, 234, 235, 236, 237, 238, 239, 240, 241, 248, 385, 465, 466, 467, 468, 469]

/-- Registers of a side that restart too: pulse outputs and captures (R417). -/
def localRestart : List Nat := [391, 396]

/-- An entry put into a list of rising addresses. -/
def insertEntry (e : Nat × Nat) : List (Nat × Nat) → List (Nat × Nat)
  | [] => [e]
  | a :: l => if e.1 < a.1 then e :: a :: l else a :: insertEntry e l

/-- The local section of side `x`: address and value in ascending address order (R467). -/
def State.localSection (s : State) (x : Side) : List (Nat × Nat) :=
  let es := (regMap.filter (fun r => r.kind = .side ∧ localCounters.contains r.num)).flatMap (fun r =>
    (dimAll r.dims).map (fun p => (0x40000000 + r.base + p.2, s.rawReg (.side x) r p.1)))
  es.foldl (fun l e => insertEntry e l) []

/-! ## Records (R53, R468) -/

/-- A record: kind, index, producer and values. -/
structure TallyRec where
  kind : Nat
  index : Nat
  prod : Nat
  vals : List Nat
  deriving DecidableEq, Repr

/-- The producers of R52 that post no record at a boundary of side `x`: their boundary marks them ABSENT, or their link is down (R465). -/
def State.tallyMissing (s : State) (x : Side) : List Nat :=
  ((List.range 4).filter (fun d => !s.present (dieUnit d) || s.linkDown x (2 + d))) ++
    (if s.present .flue && !s.linkDown x 1 then [] else [4]) ++
    ((List.range 6).filter (fun k => !s.present (.can x (Fin.ofNat 6 k)))).map (fun k => 5 + k)

/-- Record of CAN channel `k` (R468). -/
def State.canRecord (s : State) (x : Side) (k : Nat) : TallyRec :=
  let h := Holder.side x
  ⟨3, 6 * x.num + k, 5 + k, (List.range 20).map (fun i => s.get h F.CAN_CNT (20 * k + i)) ++
    (List.range 32).map (fun b => s.get h F.CAN_TXB_ARB_LOST (32 * k + b)) ++
    (List.range 32).map (fun b => s.get h F.CAN_TXB_TX_ERR (32 * k + b))⟩

/-- Record of spark rule `n`. -/
def State.ruleRecord (s : State) (x : Side) (n : Nat) : TallyRec :=
  ⟨4, n, 11, [F.SPK_RULE_FIRES, F.SPK_RULE_REFUSED, F.SPK_RULE_DENIED].map (fun f => s.get (.side x) f n)⟩

/-- The records that become visible in the collector cycle at `t` ns after the boundary, lowest producer first, by the arrival times of the worked
example of chapter 02. -/
def State.recordsAt (s : State) (x : Side) (t : Nat) : List TallyRec :=
  let die (d : Nat) : List TallyRec :=
    if 200 ≤ t ∧ t ≤ 230 then [⟨1, 16 * d + (t - 200) / 2, d, (Tab.at [] (s.die d).owed x.num).getD ((t - 200) / 2) []⟩] else []
  let port : List TallyRec := if 250 ≤ t ∧ t ≤ 282 then [⟨2, (t - 250) / 2, 4, (Tab.at [] s.flue.portOwed x.num).getD ((t - 250) / 2) []⟩] else []
  let can (k : Nat) : List TallyRec := if t = 6 then [s.canRecord x k] else []
  let rule : List TallyRec := if t ≤ 516 then [s.ruleRecord x ((t - 6) / 2)] else []
  (List.range 4).flatMap die ++ port ++ (List.range 6).flatMap can ++ rule

/-- The records of a boundary in collector order, without those of missing producers. -/
def State.tallyRecords (s : State) (x : Side) : List TallyRec :=
  let miss := s.tallyMissing x
  ((List.range 256).flatMap (fun c => s.recordsAt x (6 + 2 * c))).filter (fun r => !miss.contains r.prod)

/-- The slots of a record. -/
def State.recordSlots (s : State) (x : Side) (r : TallyRec) : List Nat :=
  let periods := min 255 (Tab.at 0 (s.side x).tallyMissed r.prod + 1)
  (r.kind * 2 ^ 32 + r.index * 2 ^ 20 + r.vals.length * 2 ^ 12 + periods * 2 ^ 4 + r.prod) :: r.vals

/-! ## The ring (R466, R467, R469) -/

/-- Number of banks. -/
def State.tallyDepth (s : State) (x : Side) : Nat := max 1 (s.get (.side x) F.TALLY_CFG_DEPTH_M1 0) + 1

/-- Address of the bank for the present TALLY_SEQ of side `x`. -/
def State.bankAddr (s : State) (x : Side) : Nat :=
  s.get (.side x) F.TALLY_RING_BASE 0 + s.get (.side x) F.TALLY_SEQ 0 % s.tallyDepth x * 65536

/-- The addresses of a bank's slots in the order in which they are written: SEQ_CLOSE as zero, the records and the local section, the head (R469). -/
def slotOrder (a slots : Nat) : List Nat :=
  (a + 0x38) :: ((List.range (slots - 8)).map (fun k => a + 0x40 + 8 * k) ++ (List.range 7).map (fun k => a + 8 * k))

/-- Why a bank of side `x` with so many slots is not written, with the address at fault: the base, or the first write that is refused (R466). -/
def State.ringFault (s : State) (x : Side) (slots : Nat) : Option (Nat × Nat) :=
  let b := s.get (.side x) F.TALLY_RING_BASE 0
  let a := s.bankAddr x
  if ¬ (b % 65536 = 0 ∧ inSram b (s.tallyDepth x * 65536)) then some (13, b)
  else if ¬ s.wotRange x a (8 * slots) (s.get (.side x) F.TALLY_CFG_WORLD 0) 1 then
    some (15, ((slotOrder a slots).find? (fun p => !s.wotRange x p 8 (s.get (.side x) F.TALLY_CFG_WORLD 0) 1)).getD a)
  else if s.mirLockedRange x a (8 * slots) then some (6, ((slotOrder a slots).find? (fun p => s.mirLocked x p)).getD a)
  else none

/-- A bank as its slots, for a boundary at time `t` (R467). -/
def State.bankSlots (s : State) (x : Side) (t prevS prevNs flags : Nat) (rs : List TallyRec) (locals : List (Nat × Nat)) : List Nat :=
  let seq := s.get (.side x) F.TALLY_SEQ 0
  [seq, secWord t, nsWord t, prevS, prevNs, flags, rs.length + locals.length * 65536, seq] ++
    rs.flatMap (s.recordSlots x) ++ locals.flatMap (fun e => [e.1, e.2])

/-- A bank is complete in memory: every slot is written, SEQ_CLOSE last (R469). -/
def State.bankWrite (s : State) (x : Side) (a : Nat) (slots : List Nat) : State :=
  let s := s.write x a (slots.flatMap (leBytes 8))
  (s.set (.side x) F.TALLY_STATUS_RECORDS_DONE 0 1).set (.side x) F.TALLY_STATUS_LOCAL_DONE 0 1

/-- The bank that waits for a locked line of side `x` is written once its lines are free (R302). -/
def State.tallyResume (s : State) (x : Side) : State :=
  match (s.side x).tallyHeld with
  | some b =>
    if s.engineWaits x b.1 (8 * b.2.length) then s else (s.setSide x { s.side x with tallyHeld := none }).bankWrite x b.1 b.2
  | none => s

/-- The bank written, or RING_ERR. A bank with a line that the other side has locked waits for it, its SEQ_CLOSE zeroed first (R302, log entry 64). -/
def State.writeRing (s : State) (x : Side) (slots : List Nat) : State :=
  match s.ringFault x slots.length with
  | some (c, p) =>
    let w := s.get (.side x) F.TALLY_CFG_WORLD 0
    let s := (s.set (.side x) F.TALLY_STATUS_RING_ERR 0 1).logFault x 16 c 8 w 8 true p
    if c = 15 then s.wotViolation x 8 w 1 p else s
  | none =>
    let a := s.bankAddr x
    let s := if s.engineWaits x (a + 0x38) 8 then s else s.write x (a + 0x38) (leBytes 8 0)
    (s.setSide x { s.side x with tallyHeld := some (a, slots) }).tallyResume x

/-- The FLAGS of a bank (R467). What PARTIAL means the spec does not say: its bit is free. -/
def State.tallyFlags (s : State) (x : Side) (first : Bool) (missing : Nat) : Nat :=
  let v := s.side x
  b2n (s.locked x) + b2n v.tallyStepped * 2 + b2n (first || v.tallyShort) * 4 + s.freeVal 1 * 8 + missing * 2 ^ 16

/-- The producers copy and restart (R464): the dies and the ports once for both sides, the side's own units. -/
def State.latchSide (s : State) (x : Side) : State :=
  s.restart (.side x) (localCounters ++ localRestart ++ [147, 148, 149, 372, 373, 374])

/-- The dies and the ports whose links are up copy and restart (R464). -/
def State.latchUnits (s : State) (x : Side) (t : Nat) (miss : List Nat) : State :=
  let s := s.each ((List.range 4).filter (fun d => !miss.contains d)) (fun s d => s.latchDie d)
  if miss.contains 4 then s else if s.holds x 4 then s.latchPorts.latchFlue t else s.latchPorts

/-- Their records of side `x` are made up to now. -/
def State.payUnits (s : State) (x : Side) (miss : List Nat) : State :=
  let s := s.each ((List.range 4).filter (fun d => !miss.contains d)) (fun s d => s.payDie x d)
  if miss.contains 4 then s else s.payPorts x

/-- A boundary of side `x` at time `t` on its tick domain (R464, R469). -/
def State.tallyAt (s : State) (x : Side) (t : Nat) : State :=
  let h := Holder.side x
  let miss := s.tallyMissing x
  let s := s.latchUnits x t miss
  let rs := s.tallyRecords x
  let locals := s.localSection x
  let s := (s.payUnits x miss).latchSide x
  let first := s.get h F.TALLY_SEQ 0 = 0
  let prevS := s.get h F.TALLY_LAST_S 0
  let prevNs := s.get h F.TALLY_LAST_NS 0
  let missing := miss.foldl (fun m p => Machine.setBit m p) 0
  let s := ((s.inc h F.TALLY_SEQ 0).set h F.TALLY_STATUS_RECORDS_DONE 0 0).set h F.TALLY_STATUS_LOCAL_DONE 0 0
  let flags := s.tallyFlags x first missing
  let slots := s.bankSlots x t prevS prevNs flags rs locals
  let s := s.took
  let s := ((s.set h F.TALLY_LAST_S 0 (secWord t)).set h F.TALLY_LAST_NS 0 (nsWord t)).set h F.TALLY_STATUS_MISSING 0 missing
  let s := s.set h F.TALLY_STATUS_FREE 0 (b2n (!s.locked x))
  let s := s.setSide x { s.side x with tallyFrom := t, tallyShort := false, tallyStepped := false,
                                       tallyMissed := miss.map (fun p => (p, Tab.at 0 (s.side x).tallyMissed p + 1)) }
  s.writeRing x slots

/-- TALLY_BOUNDARY (R463). -/
def execTallyBoundary (x : Side) (s : State) : Out :=
  ok (if s.up x then
    let t := s.boundary x
    (s.due (s.now + ceilDiv (t - s.tickTime x) 1024)).tallyAt x t
  else s)

/-- Side `x` begins a new life: what the dies and the ports owe its tally is of a period that is never latched (R463). -/
def State.forgetTally (s : State) (x : Side) : State :=
  s.payUnits x []

end Sys2Proof.Machine
end

