-- ==== Sys2Proof/Machine/Bridges.lean ====
section
/-! DEFINITION. Bridges (chapter 10): posted-write errors, split transactions, the atomic unit, line locks and software interrupt lines.
What a transaction does at its far side stands in Bus.lean. -/
namespace Sys2Proof.Machine
open Sys2Proof

/-- Address of a register of the BRIDGE page (R309, R310). -/
def bridgeAddr (off : Nat) : Nat := 0x400F0000 + off

/-- The far side of instance `i` of side `x` as its bridge sees it. -/
def State.farPresent (s : State) (x : Side) (i : Nat) : Bool := s.is (.side x) F.BRIDGE_STATUS_FAR_PRESENT i

/-- Most transactions that instance `i` may have outstanding (R291). -/
def bridgeRoom (i : Nat) : Nat := if i < 2 then 16 else 8

/-- HOLD of an instance in ns (R309). -/
def State.holdNs (s : State) (x : Side) (i : Nat) : Nat := clampNat 1 63 (s.get (.side x) F.BRIDGE_CFG_HOLD i) * 1000

/-- TIMEOUT of an instance in ns (R309). -/
def State.timeoutNs (s : State) (x : Side) (i : Nat) : Nat := clampNat 10 1000 (s.get (.side x) F.BRIDGE_CFG_TIMEOUT i) * 1000

/-- A posted write that failed (R298): captured if no error is, counted, source 86, and logged with its address, cause and
initiator. -/
def State.pwerr (s : State) (x : Side) (i : Nat) (t : Txn) (cause : Nat) : State :=
  let h := Holder.side x
  let s := if s.is h F.BRIDGE_STATUS_PWERR i then s.set h F.BRIDGE_STATUS_PWERR_OVF i 1
    else
      let s := (s.set h F.BRIDGE_STATUS_PWERR i 1).set h F.BRIDGE_PWERR_ADDR i t.addr
      let s := (s.set h F.BRIDGE_PWERR_INFO_CAUSE i cause).set h F.BRIDGE_PWERR_INFO_WORLD i t.world
      (s.set h F.BRIDGE_PWERR_INFO_INITIATOR i t.init).set h F.BRIDGE_PWERR_INFO_SIZE i (if t.wide then 8 else 4)
  ((s.inc h F.BRIDGE_PWERR_COUNT i).intr x 86).log x 0x601 15 [.wide t.addr, .nar 4 cause, .nar 4 t.init]

/-- A transaction without its bridge: the world and the initiator that it carries. -/
def Txn.origin (t : Txn) : Origin := .far (Fin.ofNat 16 t.init) (Fin.ofNat 8 t.world)

/-- A read, or a write that waits for its acknowledgement, ends in a bus error on the near side: a core takes an access fault, a DMA channel
stops, and the access is logged (R12, R295, R307). -/
def State.farError (s : State) (x : Side) (t : Txn) (cause : Nat) : State :=
  let s := { s with resp := .error cause }
  let s := if t.init < 6 then s.exception x t.init (if t.data.isSome then 7 else 5) t.addr else s
  let s := if t.chan = 0 then s else s.dmaStop x (t.chan - 1) cause
  s.logFault x 0 cause t.init t.world (if t.wide then 8 else 4) t.data.isSome t.addr

/-- A transaction ends without success: a posted write is reported, any other ends in a bus error (R295, R298); the answer to an engine that has been
reset is discarded (R56, R58). -/
def State.txnFails (s : State) (x : Side) (i : Nat) (t : Txn) (cause : Nat) : State :=
  if t.posted then s.pwerr x i t cause else if t.init = 8 ∧ t.chan = 0 then s else s.farError x t cause

/-- What waited at the lines of side `x` that are free now goes on (R302). -/
def State.unlocked (s : State) (x : Side) : State := ((s.runWaits x).netifResume x).tallyResume x

/-- Locks of side `x` that `keep` does not hold end at the far HUB, and what waited at their lines goes on (R302). -/
def State.keepLocks (s : State) (x : Side) (keep : LineLock → Bool) : State :=
  (s.setSide x { s.side x with locks := (s.side x).locks.filter keep }).unlocked x.other

/-- Locks that wait for writes of their hart to their line go when no such write is outstanding (R302). -/
def State.sweepLocks (s : State) (x : Side) : State :=
  let ts := (s.bridge x 0).txns ++ (s.bridge x 0).near
  s.keepLocks x (fun l => !l.released || ts.any (fun t => t.init == l.hart && t.data.isSome && t.addr / 64 == l.line / 64))

/-- The first free tag of an instance. -/
def freeTag (ts : List Txn) : Nat := ((List.range 16).find? (fun n => ts.all (fun t => t.tag != n))).getD 16

/-- Instance `i` has a tag and a reply slot free, and nothing waits for one before (R49, R291). -/
def State.hasSlot (s : State) (x : Side) (i : Nat) : Bool :=
  (s.bridge x i).near.isEmpty && decide ((s.bridge x i).txns.length < bridgeRoom i)

/-- A transaction is sent over instance `i`: it takes a tag and its reply slot (R291, R294), and event 0x31 counts it (R475). -/
def State.issue (s : State) (x : Side) (i : Nat) (t : Txn) : State :=
  let b := s.bridge x i
  let s := s.setBridge x i { b with txns := b.txns ++ [{ t with tag := freeTag b.txns, at_ := s.now }] }
  let s := if t.data.isSome then s.inc (.side x) F.BRIDGE_WRITE_COUNT i else s.inc (.side x) F.BRIDGE_READ_COUNT i
  s.ownEvent x 0x31 t.init t.world (some t.addr)

/-- A transaction enters instance `i`: it is sent, or waits in the near queue and loses nothing (R48, R49). -/
def State.enter (s : State) (x : Side) (i : Nat) (t : Txn) : State :=
  if s.hasSlot x i then s.issue x i t
  else
    let b := s.bridge x i
    s.setBridge x i { b with near := b.near ++ [t] }

/-- The oldest transaction of the near queue is sent if a reply slot is free. -/
def State.pull1 (s : State) (x : Side) (i : Nat) : State :=
  let b := s.bridge x i
  match b.near with
  | t :: q => if b.txns.length < bridgeRoom i then (s.setBridge x i { b with near := q }).issue x i t else s
  | [] => s

/-- Transactions with tag `g` leave instance `i`: their tag and reply slot are free for what waits in the near queue (R49). -/
def State.retire (s : State) (x : Side) (i g : Nat) : State :=
  let b := s.bridge x i
  iter (fun s => s.pull1 x i) 16 (s.setBridge x i { b with txns := b.txns.filter (fun u => u.tag != g) })

/-- The transaction that an access of `o` makes. -/
def State.txnOf (s : State) (x : Side) (o : Origin) (a : Nat) (wide : Bool) (data : Option Nat) (posted : Bool) : Txn :=
  let c := match o with
    | .dma n => n.val + 1
    | _ => 0
  ⟨16, initCode o, c, s.worldOf x o, a, wide, data, posted, s.now, false⟩

/-! ## Software interrupt lines -/

/-- The set bits among the lowest eight of a number. -/
def bits8 (v : Nat) : List Nat := (List.range 8).filter (fun k => v.testBit k)

/-- Lines raised toward the other side, or discarded and counted while it cannot be reached (R305). -/
def State.swi (s : State) (x : Side) (v : Nat) : State :=
  s.each (bits8 v) (fun s k =>
    if s.farPresent x 0 ∧ ¬ (s.side x).crossLost then s.setSide x { s.side x with swiOut := Machine.setBit (s.side x).swiOut k }
    else s.inc (.side x) F.BRIDGE_SWI_LOST_COUNT 0)

/-- BRIDGE_SWI (R305). -/
def execBridgeSwi (x : Side) (o : Origin) (v : BitVec 32) (s : State) : Out :=
  ok (s.guarded x o (bridgeAddr 0x1200) 4 true (fun s => s.swi x v.toNat))

/-! ## The atomic unit and line locks -/

/-- The hart whose copy of the atomic and lock registers an initiator reaches (R300). -/
def State.lockHart (s : State) (x : Side) (o : Origin) : Option Nat :=
  match o with
  | .pair _ => if s.get (.side x) F.PAIR_CFG_MODE 0 = 1 then coreOf o else none
  | _ => coreOf o

/-- An access to a register of the accessing hart at page offset `off`; any other initiator's ends in a bus error (R300). -/
def State.hartAccess (s : State) (x : Side) (o : Origin) (off : Nat) (write : Bool) (f : State → Nat → State) : State :=
  s.guarded x o (bridgeAddr off) 4 write (fun s =>
    match s.lockHart x o with
    | some h => f s h
    | none => s.busError x o 1 4 write (bridgeAddr off))

/-- An address lies in the far SRAM window (R31). -/
def inFarSram (a n : Nat) : Bool := decide (0x20000000 ≤ a ∧ a + n ≤ 0x21400000)

/-- The atomic operation of hart `h` ends with ERR and a cause (R301). -/
def State.atomicErr (s : State) (x : Side) (h cause : Nat) : State :=
  let g := Holder.side x
  (((s.set g F.BRIDGE_AT_STATUS_BUSY h 0).set g F.BRIDGE_AT_STATUS_ERR h 1).set g F.BRIDGE_AT_STATUS_CAUSE h cause)

/-- A write of BRIDGE_AT_CTRL (R301). -/
def State.atCtrl (s : State) (x : Side) (h v : Nat) : State :=
  let g := Holder.side x
  let s := (s.set g F.BRIDGE_AT_CTRL_OP h (bits v 3 0)).set g F.BRIDGE_AT_CTRL_SIZE h (bits v 4 4)
  if ¬ v.testBit 8 ∨ s.is g F.BRIDGE_AT_STATUS_BUSY h then s
  else
    let size := s.get g F.BRIDGE_AT_CTRL_SIZE h
    let n := 4 + 4 * size
    let a := s.get g F.BRIDGE_AT_ADDR h
    if ¬ inFarSram a n ∨ a % n ≠ 0 ∨ 5 ≤ bits v 3 0 then s.atomicErr x h 1
    else if ¬ s.farPresent x 0 then s.atomicErr x h 8
    else
      let opnd := s.get g F.BRIDGE_AT_OPND_LO h + size * 2 ^ 32 * s.get g F.BRIDGE_AT_OPND_HI h
      let cmp := s.get g F.BRIDGE_AT_CMP_LO h + size * 2 ^ 32 * s.get g F.BRIDGE_AT_CMP_HI h
      let s := s.setSide x { s.side x with atOp := Tab.put [] (s.side x).atOp h [bits v 3 0, size, a, opnd, cmp, s.coreWorld x h] }
      (s.set g F.BRIDGE_AT_STATUS_BUSY h 1).inc g F.BRIDGE_ATOMIC_COUNT 0

/-- BRIDGE_AT_GO (R301). -/
def execBridgeAtGo (x : Side) (o : Origin) (v : BitVec 32) (s : State) : Out :=
  ok (s.hartAccess x o 0x1008 true (fun s h => s.atCtrl x h v.toNat))

/-- A line of the far SRAM is locked against initiator `n` of side `x`. -/
def State.lineLocked (s : State) (x : Side) (n a : Nat) : Bool :=
  (s.side x).locks.any (fun l => l.hart != n && l.line / 64 == a / 64)

/-- What an atomic operation writes, if anything (R301). -/
def atomicValue (op bits_ old opnd cmp : Nat) : Option Nat :=
  match op with
  | 0 => some opnd
  | 1 => if old = cmp then some opnd else none
  | 2 => some ((old + opnd) % 2 ^ bits_)
  | 3 => some (old &&& opnd)
  | _ => some (old ||| opnd)

/-- BRIDGE_AT_DONE (R301): the operation runs at the far HUB, checked as the far side checks for the world that issued GO (R293), once no other
hart holds the line; `ecc` is what the far SRAM finds at the word. -/
def execBridgeAtDone (x : Side) (h : Fin 6) (ecc : Ecc) (s : State) : Out :=
  let g := Holder.side x
  let y := x.other
  ok (match Tab.at [] (s.side x).atOp h with
    | [op, size, a, opnd, cmp, w] =>
      if ¬ s.is g F.BRIDGE_AT_STATUS_BUSY h ∨ s.lineLocked x h a then s
      else
        let n := 4 + 4 * size
        let fa := farOfWindow a
        let s := s.setSide x { s.side x with atOp := Tab.put [] (s.side x).atOp h [] }
        let fail (s : State) (c : Nat) : State := (s.logFault y 0 c h w n true fa).atomicErr x h c
        if ¬ (s.wotAllows y fa w 0 ∧ s.wotAllows y fa w 1) then (s.wotViolation y h w 1 fa) |> (fail · 2)
        else if s.mirLocked y fa then fail s 6
        else
          let s := s.eccSeen y fa ecc
          if ecc = .lost then fail s 7
          else
            let old := s.loadLE y fa n
            let s := match atomicValue op (8 * n) old opnd cmp with
              | some v => s.write y fa (leBytes n v)
              | none => s
            let s := (s.set g F.BRIDGE_AT_RES_LO h (old % 2 ^ 32)).set g F.BRIDGE_AT_RES_HI h (old / 2 ^ 32)
            (s.set g F.BRIDGE_AT_STATUS_BUSY h 0).set g F.BRIDGE_AT_STATUS_DONE h 1
    | _ => s)

/-- A hart's lock or request ends broken: released at the far HUB, counted and flagged (R302, R303). -/
def State.breakLock (s : State) (x : Side) (h : Nat) : State :=
  let g := Holder.side x
  if s.is g F.BRIDGE_LOCK_HELD h ∨ s.is g F.BRIDGE_LOCK_PENDING h ∨ (s.side x).locks.any (fun l => l.hart == h) then
    let s := s.setSide x { s.side x with lockQ := (s.side x).lockQ.filter (fun l => l.hart != h) }
    let s := ((s.set g F.BRIDGE_LOCK_HELD h 0).set g F.BRIDGE_LOCK_PENDING h 0).set g F.BRIDGE_LOCK_BROKEN h 1
    (s.inc g F.BRIDGE_LOCK_BROKEN_COUNT 0).keepLocks x (fun l => l.hart != h)
  else s

/-- A lock and an atomic operation of hart `h` end because the hart is reset, the far side goes or the link is lost (R303). -/
def State.endLocked (s : State) (x : Side) (h cause : Nat) : State :=
  let s := s.breakLock x h
  if s.is (.side x) F.BRIDGE_AT_STATUS_BUSY h then
    (s.setSide x { s.side x with atOp := Tab.put [] (s.side x).atOp h [] }).atomicErr x h cause
  else s

/-- Core `h` is reset: its locks, its atomic operation and its waiting accesses end, and it is held (R303). -/
def State.coreReset (s : State) (x : Side) (h : Nat) : State := ((s.endLocked x h 9).dropWaits x h).setHart x h Hart.held

/-- A request for the line lock (R302). -/
def State.lockAcquire (s : State) (x : Side) (h : Nat) : State :=
  let g := Holder.side x
  if s.is g F.BRIDGE_LOCK_HELD h ∨ s.is g F.BRIDGE_LOCK_PENDING h then s
  else
    let a := s.get g F.BRIDGE_LOCK_ADDR h / 64 * 64
    if ¬ inFarSram a 64 ∨ ¬ s.farPresent x 0 then s.set g F.BRIDGE_LOCK_BROKEN h 1
    else
      let s := s.setSide x { s.side x with lockQ := (s.side x).lockQ ++ [⟨h, a, s.now, false⟩] }
      s.set g F.BRIDGE_LOCK_PENDING h 1

/-- The release of the line lock: the line is free once the hart's earlier writes to it have been answered (R302). -/
def State.lockRelease (s : State) (x : Side) (h : Nat) : State :=
  let g := Holder.side x
  if s.is g F.BRIDGE_LOCK_HELD h then
    let s := s.setSide x { s.side x with locks := (s.side x).locks.map (fun l => if l.hart = h then { l with released := true } else l) }
    (s.set g F.BRIDGE_LOCK_HELD h 0).sweepLocks x
  else s

/-- A write of BRIDGE_LOCK: a release, then a request. -/
def State.lockCtrl (s : State) (x : Side) (h v : Nat) : State :=
  let s := if v.testBit 1 then s.lockRelease x h else s
  if v.testBit 0 then s.lockAcquire x h else s

/-- BRIDGE_LOCK_ACQUIRE (R302). -/
def execBridgeLockAcquire (x : Side) (o : Origin) (v : BitVec 32) (s : State) : Out :=
  ok (s.hartAccess x o 0x1048 true (fun s h => s.lockCtrl x h v.toNat))

/-- BRIDGE_LOCK_RELEASE (R302). -/
def execBridgeLockRelease (x : Side) (o : Origin) (v : BitVec 32) (s : State) : Out :=
  ok (s.hartAccess x o 0x1048 true (fun s h => s.lockCtrl x h v.toNat))

/-- BRIDGE_LOCK_GRANT (R302): the line is free and no earlier request waits for it. -/
def execBridgeLockGrant (x : Side) (h : Fin 6) (s : State) : Out :=
  let g := Holder.side x
  ok (match (s.side x).lockQ.find? (fun l => l.hart == (h : Nat)) with
    | some r =>
      if s.lineLocked x h r.line ∨ ((s.side x).lockQ.find? (fun l => l.line == r.line)).map (fun l => l.hart) ≠ some (h : Nat) then s
      else
        let s := s.setSide x { s.side x with
          lockQ := (s.side x).lockQ.filter (fun l => l.hart != (h : Nat)), locks := (s.side x).locks ++ [⟨h, r.line, s.now, false⟩] }
        ((s.set g F.BRIDGE_LOCK_PENDING h 0).set g F.BRIDGE_LOCK_HELD h 1).inc g F.BRIDGE_LOCK_COUNT 0
    | none => s)

/-- BRIDGE_LOCK_BROKEN (R302): 2 us after the grant the far HUB releases the line, also one whose release waits for writes. -/
def execBridgeLockBroken (x : Side) (h : Fin 6) (s : State) : Out :=
  let g := Holder.side x
  ok (match (s.side x).locks.find? (fun l => l.hart == (h : Nat)) with
    | some l =>
      let s := s.due (l.at_ + 2000)
      let s := if l.released then s else s.set g F.BRIDGE_LOCK_HELD h 0
      let s := (s.set g F.BRIDGE_LOCK_BROKEN h 1).inc g F.BRIDGE_LOCK_BROKEN_COUNT 0
      (s.log x 0x602 15 []).keepLocks x (fun k => k != l)
    | none => s)

/-- BRIDGE_LOCK_GRANT_TIMEOUT (R302): a request not granted within TIMEOUT of the cross bridge. -/
def execBridgeLockGrantTimeout (x : Side) (h : Fin 6) (s : State) : Out :=
  ok (match (s.side x).lockQ.find? (fun l => l.hart == (h : Nat)) with
    | some l => (s.due (l.at_ + s.timeoutNs x 0)).breakLock x h
    | none => s)

/-- A read of BRIDGE_LOCK returns the register and clears BROKEN (R310). -/
def State.lockRead (s : State) (x : Side) (h : Nat) : State :=
  let g := Holder.side x
  let v := s.get g F.BRIDGE_LOCK_PENDING h * 2 ^ 10 + s.get g F.BRIDGE_LOCK_BROKEN h * 2 ^ 9 + s.get g F.BRIDGE_LOCK_HELD h * 2 ^ 8
  { s.set g F.BRIDGE_LOCK_BROKEN h 0 with resp := .data v }

/-- BRIDGE_LOCK_READ (R310). -/
def execBridgeLockRead (x : Side) (o : Origin) (s : State) : Out :=
  ok (s.hartAccess x o 0x1048 false (fun s h => s.lockRead x h))

end Sys2Proof.Machine
end

