-- ==== Sys2Proof/Machine/Wake.lean ====
section
/-! DEFINITION. The wake record, the awake windows and the confirmation of a wake (chapter 05 R147, R148, R150, R156). -/
namespace Sys2Proof.Machine
open Sys2Proof

/-! ## The wake record (R156) -/

/-- Bits [hi:lo] of word `i` of the wake record. -/
def State.wrec (s : State) (i hi lo : Nat) : Nat := bits (s.get .ember F.EMBER_WREC i) hi lo

/-- Bits [hi:lo] of word `i` of the wake record written. -/
def State.wrecPut (s : State) (i hi lo v : Nat) : State :=
  let w := s.get .ember F.EMBER_WREC i
  let n := hi + 1 - lo
  s.set .ember F.EMBER_WREC i (w - bits w hi lo * 2 ^ lo + v % 2 ^ n * 2 ^ lo)

/-- Cause of the last wake (R142). -/
def State.wakeCause (s : State) : Nat := s.wrec 0 3 0

/-- Index of the last wake: a WAKE_LOC number, a CAN channel or a port. -/
def State.wakeIndex (s : State) : Nat := s.wrec 0 15 4

/-- Bits [hi:lo] of word 3 of the wake record written while its outcome is not known (R156). -/
def State.wrecNote (s : State) (hi lo v : Nat) : State := if s.wrec 3 13 12 = 3 then s.wrecPut 3 hi lo v else s

/-- Address in NOR of slot `n` of the wake records: 64 slots of 32 bytes (R156, R441). -/
def wrecAddr (n : Nat) : Nat := 0x80030000 + n * 32

/-- The wake record written into slot `n` of side `x`'s NOR. -/
def State.wrecStore (s : State) (x : Side) (n : Nat) : State :=
  s.store x (wrecAddr n) ((List.range 4).flatMap (fun i => leBytes 8 (s.get .ember F.EMBER_WREC i)))

/-- The Stoker of side `x` copies the wake record to NOR, over the oldest of the 64 records (R143 step 6, R156). -/
def State.wrecCopy (s : State) (x : Side) : State :=
  let n := (s.side x).wrecNext
  (s.setSide x { s.side x with wrecSlot := some n, wrecNext := (n + 1) % 64 }).wrecStore x n

/-- The outcome of the wake is known (R156): it enters the record, and the sides that have copied the record copy it again. -/
def State.wakeOutcome (s : State) (o : Nat) : State :=
  let s := s.wrecNote 13 12 o
  s.each ([Side.a, .b].filter s.up) (fun s x => match (s.side x).wrecSlot with
    | some n => s.wrecStore x n
    | none => s)

/-! ## The awake windows (R148) -/

/-- An awake window is open: a confirmation window, or a request to sleep whose sequence has not yet begun. -/
def State.awakeOpen (s : State) : Bool :=
  s.ember.confirm.isSome || s.ember.phase == .sleeping 0 || (match s.ember.pend with
    | some (t, _) => decide (t ≤ 1)
    | none => false)

/-- The tables of every channel are cleared as an awake window opens. -/
def State.awakeClear (s : State) : State :=
  s.each [Side.a, .b] (fun s x => s.each (List.range 6) (fun s k => s.setCan x k { s.can x k with awake := [] }))

/-- The entry of highest count, the first one recorded among equals. -/
def awakeTop (l : List (Nat × Nat)) : Option (Nat × Nat) :=
  match l with
  | [] => none
  | e :: t => some (t.foldl (fun m q => if m.2 < q.2 then q else m) e)

/-- An awake window ends: each channel whose table is not empty logs AWAKE_HOLDER. -/
def State.awakeEnd (s : State) : State :=
  s.each [Side.a, .b] (fun s x => s.each (List.range 6) (fun s k =>
    match awakeTop (s.can x k).awake with
    | some e => s.log x 0x304 (6 + k) [.nar 29 e.1, .nar 10 e.2]
    | none => s))

/-! ## Confirmation (R147) -/

/-- The eight data bytes of a wake match, byte 0 lowest. -/
def dataNat (f : CanFrame) : Nat := leNat (f.data.map (fun b => b.toNat))

/-- Frame `f` matches the identifier, the mask and, if DLC_EN is set, the DLC and the masked data of a channel's settings (R150). -/
def CanWake.fits (w : CanWake) (h0 h1 data : Nat) : Bool :=
  ((bits h0 28 0 ^^^ w.ident) &&& w.mask) == 0 && h0.testBit 29 == w.ide &&
    (!w.dlcEn || (bits h1 3 0 == w.dlc && ((data ^^^ w.data) &&& w.dataMask) % 2 ^ 64 == 0))

/-- The running confirmation window is open at this instant. -/
def State.confirmOpen (s : State) : Bool :=
  match s.ember.confirm with
  | some e => decide (s.now ≤ e)
  | none => false

/-- The wake is confirmed (R147): the window ends, and a wake whose target is Glowing has reached it. -/
def State.confirmWake (s : State) : State :=
  if s.confirmOpen then
    let s := (s.wrecPut 0 22 22 1).set .ember F.EMBER_STATE_CONFIRM_WAIT 0 0
    let s := { s with ember := { s.ember with confirm := none } }
    let s := s.awakeEnd
    if s.wrec 0 19 18 = 2 then s.wakeOutcome 0 else s
  else s

/-- A frame on channel `k` of side `x` during a confirmation window confirms a wake by that channel when it matches (R147). -/
def State.confirmFrame (s : State) (x : Side) (k h0 h1 data : Nat) : State :=
  if (s.wakeCause = 4 ∨ s.wakeCause = 6) ∧ s.wakeIndex = 6 * x.num + k ∧ (s.can x k).wake.fits h0 h1 data then s.confirmWake else s

/-- Link up on port `p` during a confirmation window confirms a TC10 wake by that port (R147). -/
def State.confirmLink (s : State) (p : Nat) : State := if s.wakeCause = 7 ∧ s.wakeIndex = p then s.confirmWake else s

/-- CONFIRMATION (R147). -/
def execConfirmation (c : Confirm) (s : State) : Out :=
  ok (match c with
    | .canFrame k fr => s.confirmFrame (if k.val < 6 then .a else .b) (k % 6) fr.h0.toNat fr.h1.toNat (dataNat fr)
    | .linkUp p => s.confirmLink p
    | _ => s.confirmWake)

end Sys2Proof.Machine
end

