-- ==== Sys2Proof/Machine/Can.lean ====
section
/-! DEFINITION. The CAN channels (chapter 13): modes, message RAM, reception and filters, sealed frames, transmission, shadow copies,
the schedule matrix, errors and confinement. -/
namespace Sys2Proof.Machine
open Sys2Proof

/-! ## Channels -/

/-- The side of channel CAN(n). -/
def canSide (n : Nat) : Side := if n < 6 then .a else .b

/-- A field of local channel `k`. -/
def State.cg (s : State) (x : Side) (f : Fld) (k : Nat) : Nat := s.get (.side x) f k

/-- A field of local channel `k` that is not zero. -/
def State.cb (s : State) (x : Side) (f : Fld) (k : Nat) : Bool := s.is (.side x) f k

/-- A field of local channel `k` written. -/
def State.cs (s : State) (x : Side) (f : Fld) (k v : Nat) : State := s.set (.side x) f k v

/-- Counter `i` of channel `k` (R396). -/
def State.canCnt (s : State) (x : Side) (k i : Nat) : State := s.inc (.side x) F.CAN_CNT (k * 20 + i)

/-- The channel's die works: its side is up and its boundary PRESENT. -/
def State.canHere (s : State) (x : Side) (k : Nat) : Bool := s.up x && s.present (.can x (Fin.ofNat 6 k))

/-- A channel with CAN XL (R367). -/
def hasXl (k : Nat) : Bool := decide (k < 2)

/-- Mode in force. -/
def State.canMode (s : State) (x : Side) (k : Nat) : Nat := s.cg x F.CAN_STATUS_MODE k

/-- The channel is on the bus: a mode that receives, and not bus-off (R370, R386). -/
def State.canOn (s : State) (x : Side) (k : Nat) : Bool :=
  s.canHere x k && s.canMode x k != 0 && s.cg x F.CAN_ERR_STATE k != 2

/-- The mode transmits (R370). -/
def sendsMode (m : Nat) : Bool := decide (1 ≤ m ∧ m ≤ 4) || m == 7

/-- The matrix runs in the mode (R370). -/
def matrixMode (m : Nat) : Bool := m == 1 || m == 3 || m == 7

/-- Page address of channel `k` (R367). -/
def canPage (k : Nat) : Nat := 0x40060000 + k * 0x10000

/-- Log producer of channel `k` (R481). -/
def canProd (k : Nat) : Nat := 6 + k

/-- An event of channel `k` (R394): suppressed within 10 ms of the last of its code, but for BUS_OFF and SEAL_EXHAUSTED. -/
def State.canEvent (s : State) (x : Side) (k code w2 : Nat) : State :=
  let status := if code = 6 then stExhausted else stOk
  let post := fun (s : State) => s.event x (s.cg x F.CAN_CFG_OWNER k) 5 status code (6 * x.num + k) [6 * x.num + k, w2]
  if code = 2 ∨ code = 6 then post s
  else match limited (s.can x k).lastEvt code s.now with
    | none => s
    | some t => post (s.setCan x k { s.can x k with lastEvt := t })

/-! ## Buffers and the running matrix (R380 to R385) -/

/-- A buffer completes with a RESULT: its DONE bit and the interrupt (R380). -/
def State.txDone (s : State) (x : Side) (k b result : Nat) : State :=
  ((s.cs x F.CAN_TXB_STATUS (32 * k + b) result).setBit (.side x) F.CAN_TX_DONE k b).canIrq x k F.CAN_IRQ_TX_DONE

/-- A buffer is no longer pending or armed. -/
def State.txDrop (s : State) (x : Side) (k b : Nat) : State :=
  let s := s.clearBit (.side x) F.CAN_TX_PEND k b
  s.setCan x k { s.can x k with fv := Tab.put 0 (s.can x k).fv b 0, tries := Tab.put 0 (s.can x k).tries b 0,
                                cancel := Machine.clearBit (s.can x k).cancel b }

/-- The buffer whose attempt runs. -/
def State.takenBuf (s : State) (x : Side) (k : Nat) : Option Nat := (s.can x k).taken.map (fun t => t.buf)

/-- Buffer `b` is taken: its attempt runs, or it is committed to its window (R381). -/
def State.isTaken (s : State) (x : Side) (k b : Nat) : Bool :=
  s.takenBuf x k == some b || (s.can x k).next.map (fun t => t.buf) == some b

/-- The reference message's place among the buffers. -/
def refBuf : Nat := 32

/-- A window missed (R385). -/
def State.ttMissed (s : State) (x : Side) (k : Nat) (b : Option Nat) : State :=
  let s := match b with
    | some b => s.txDone x k b 6
    | none => s
  (s.canCnt x k 11).canIrq x k F.CAN_IRQ_TT_MISSED

/-- What was taken for a window is not sent in it (R385); a cancelled buffer ends with it (R382). -/
def State.ttMiss (s : State) (x : Side) (k : Nat) (t : CanTx) : State :=
  let s := s.setCan x k { s.can x k with next := none, nextSealed := false, nextAt := none }
  if t.buf = refBuf then s.ttMissed x k none
  else if (s.can x k).cancel.testBit t.buf then ((s.txDrop x k t.buf).txDone x k t.buf 4).ttMissed x k none
  else s.ttMissed x k (some t.buf)

/-- No frame waits for a window any more: one that does misses it. -/
def State.ttFlush (s : State) (x : Side) (k : Nat) : State :=
  let s := match (s.can x k).next with
    | some t => s.ttMiss x k t
    | none => s
  s.setCan x k { s.can x k with nextMade := false }

/-- The matrix stops. -/
def State.ttStop (s : State) (x : Side) (k : Nat) : State := (s.ttFlush x k).cs x F.CAN_TT_STATUS_RUNNING k 0

/-! ## Modes (R369 to R373) -/

/-- The bit rate that timing fields give, in bit/s (R369). -/
def bitRate (brp t1 t2 : Nat) : Nat := 80000000 / ((brp + 1) * (3 + t1 + t2))

/-- Nominal bit rate that the timing fields of channel `k` give. -/
def State.cfgRate (s : State) (x : Side) (k : Nat) : Nat :=
  bitRate (s.cg x F.CAN_NBT_BRP_M1 k) (s.cg x F.CAN_NBT_TSEG1_M1 k) (s.cg x F.CAN_NBT_TSEG2_M1 k)

/-- Nominal bit rate in force on channel `k`: a change waits for the frame in progress and the next bus idle (R369). -/
def State.nominalRate (s : State) (x : Side) (k : Nat) : Nat :=
  match (s.can x k).retime with
  | some r => r.1
  | none => s.cfgRate x k

/-- A frame that started `age` ns ago may still be received: a change of timing takes the channel off the bus after it (R369). -/
def State.mayEnd (s : State) (x : Side) (k age : Nat) : Bool :=
  match (s.can x k).retime with
  | some r => decide (s.now < age + r.2)
  | none => true

/-- A rate above its limit, or an SJW above TSEG2, by the exact rule of R369. -/
def timingWrong (brp t1 t2 sjw limit : Nat) : Bool :=
  decide (limit * ((brp + 1) * (3 + t1 + t2)) < 80000000) || decide (t2 < sjw)

/-- The channel's timing keeps it OFF (R369). -/
def State.timingBad (s : State) (x : Side) (k : Nat) : Bool :=
  timingWrong (s.cg x F.CAN_NBT_BRP_M1 k) (s.cg x F.CAN_NBT_TSEG1_M1 k) (s.cg x F.CAN_NBT_TSEG2_M1 k) (s.cg x F.CAN_NBT_SJW_M1 k)
      1000000 ||
    timingWrong (s.cg x F.CAN_DBT_BRP_M1 k) (s.cg x F.CAN_DBT_TSEG1_M1 k) (s.cg x F.CAN_DBT_TSEG2_M1 k) (s.cg x F.CAN_DBT_SJW_M1 k)
      8000000 ||
    (hasXl k && timingWrong (s.cg x F.CAN_XBT_BRP_M1 k) (s.cg x F.CAN_XBT_TSEG1_M1 k) (s.cg x F.CAN_XBT_TSEG2_M1 k)
      (s.cg x F.CAN_XBT_SJW_M1 k) 20000000)

/-- Bytes of an element of region `r` (R373): 40, 96 or 2 080; ESIZE 3 acts as 2. -/
def State.elemBytes (s : State) (x : Side) (k r : Nat) : Nat :=
  let e := s.cg x F.CAN_RAM_R_ESIZE (4 * k + r)
  if e = 0 then 40 else if e = 1 then 96 else 2080

/-- Elements of region `r`: at most 32 transmit buffers, and 0 or 8 priority buffers (R373). -/
def State.elems (s : State) (x : Side) (k r : Nat) : Nat :=
  let n := s.cg x F.CAN_RAM_R_COUNT (4 * k + r)
  if r = 0 then min 32 n else if r = 3 then (if 8 ≤ n then 8 else 0) else n

/-- Start and end of region `r` in the message RAM. -/
def State.region (s : State) (x : Side) (k r : Nat) : Nat × Nat :=
  let a := s.cg x F.CAN_RAM_R_START (4 * k + r) * 8
  (a, a + s.elems x k r * s.elemBytes x k r)

/-- The regions keep the channel OFF (R373). -/
def State.ramBad (s : State) (x : Side) (k : Nat) : Bool :=
  [0, 1, 2, 3].any (fun r =>
    let a := s.region x k r
    decide (32768 < a.2) || (!hasXl k && decide (2 ≤ s.cg x F.CAN_RAM_R_ESIZE (4 * k + r))) ||
    (List.range r).any (fun q => let b := s.region x k q; decide (a.1 < a.2 ∧ b.1 < b.2 ∧ a.1 < b.2 ∧ b.1 < a.2)))

/-- The channel is kept off the bus. -/
def State.canBarred (s : State) (x : Side) (k : Nat) : Bool :=
  s.cb x F.CAN_STATUS_TIMING_BAD k || s.cb x F.CAN_STATUS_RAM_BAD k || s.cb x F.CAN_STATUS_LIMP k

/-- Channel `k` woke the module and its wake needed confirmation (R147, R372). -/
def State.canWoke (s : State) (x : Side) (k : Nat) : Bool :=
  let w := s.get .ember F.EMBER_WREC 0
  (bits w 3 0 == 4 || bits w 3 0 == 6) && bits w 15 4 == 6 * x.num + k

/-- A mode comes into force (R371): a channel that is kept off the bus stays OFF, and the matrix stops in a mode that holds it. -/
def State.canSetMode (s : State) (x : Side) (k m : Nat) : State :=
  let m := if s.canBarred x k then 0 else m
  let s := ((s.cs x F.CAN_STATUS_MODE k m).cs x F.CAN_STATUS_MODE_PENDING k 0).cs x F.CAN_STATUS_PEND_MODE k 0
  if matrixMode m then s else s.ttStop x k

/-- A mode change that waits for the end of the frame in progress (R371); a later one replaces it. -/
def State.canPendMode (s : State) (x : Side) (k m : Nat) : State :=
  (s.cs x F.CAN_STATUS_MODE_PENDING k 1).cs x F.CAN_STATUS_PEND_MODE k m

/-- A Chromir packet on the local channel that TARGET names: TARGET_ABSENT when the channel is not PRESENT (R56, R83). -/
def State.onCan (s : State) (x : Side) (j : Job) (f : State → Nat → State) : State :=
  let u : UnitId := .can x (Fin.ofNat 6 j.pkt.target)
  if s.present u then f s (j.pkt.target % 6) else s.doneAbsent j u

/-- CAN_MODE_SET (R371): answered at acceptance. A request for an on-bus mode after the recovery delay starts a recovery that is not
automatic (R387). -/
def State.canModeSet (s : State) (x : Side) (j : Job) (k : Nat) : State :=
  let m := bits (j.pkt.p 1) 3 0
  let s := s.canPendMode x k m
  let s := if s.canWoke x k then { s with ember := { s.ember with listen := false } } else s
  let s := match (s.can x k).busOffAt with
    | some t =>
      if ¬ s.cb x F.CAN_CFG_AUTO_RECOVER k ∧ 1 ≤ m ∧ m ≤ 6 ∧ t + min 1000 (s.cg x F.CAN_CFG_RECOVERY_DELAY k) * 1000000 ≤ s.now then
        s.setCan x k { s.can x k with recovering := true }
      else s
    | none => s
  s.done j stOk 0 []

/-- CAN_MODE_SET (R371). -/
def execCanModeSet (x : Side) (s : State) : Out := ok (s.chromir x 0x501 (fun s j => s.onCan x j (fun s k => s.canModeSet x j k)))

/-- The settings of CAN_WAKE_CFG (R96, R150). -/
def canWakeOf (k : Packet) : CanWake :=
  ⟨(k.p 1).testBit 1, (k.p 1).testBit 0, bits (k.p 2) 28 0, k.p 3, (k.p 2).testBit 29, (k.p 4).testBit 4, bits (k.p 4) 3 0,
    k.p 6 * 2 ^ 40 + k.p 5, k.p 8 * 2 ^ 40 + k.p 7, bits (k.p 1) 11 4, false⟩

/-- CAN_WAKE_CFG (R150). -/
def execCanWakeCfg (x : Side) (s : State) : Out :=
  ok (s.chromir x 0x502 (fun s j => s.onCan x j (fun s k => (s.setCan x k { s.can x k with wake := canWakeOf j.pkt }).done j stOk 0 [])))

/-- CAN_AWAKE_REPORT (R148). -/
def execCanAwakeReport (x : Side) (s : State) : Out :=
  ok (s.chromir x 0x503 (fun s j => s.onCan x j (fun s k =>
    let l := (s.can x k).awake
    s.done j stOk 0 (l.length :: l.map (fun e => e.2 * 2 ^ 30 + e.1)))))

/-! ## Errors and confinement (R386, R387) -/

/-- The value of CAN_ERR. -/
def State.canErr (s : State) (x : Side) (k : Nat) : Nat :=
  s.cg x F.CAN_ERR_LAST_ERR k * 2 ^ 27 + s.cg x F.CAN_ERR_WARNING k * 2 ^ 26 + s.cg x F.CAN_ERR_STATE k * 2 ^ 24 +
    s.cg x F.CAN_ERR_REC k * 2 ^ 16 + s.cg x F.CAN_ERR_TEC k

/-- The error counters set, and what follows for the state: warning, error passive, bus-off, error active (R386). -/
def State.canCounters (s : State) (x : Side) (k tec rec_ : Nat) : State :=
  let tec := min tec 511
  let old := s.cg x F.CAN_ERR_STATE k
  let warn := b2n (decide (96 ≤ tec ∨ 96 ≤ rec_))
  let new := if 255 < tec then 2 else if 127 < tec ∨ 127 < rec_ then 1 else 0
  let s := (s.cs x F.CAN_ERR_TEC k tec).cs x F.CAN_ERR_REC k (min rec_ 255)
  let was := s.cg x F.CAN_ERR_WARNING k
  let s := s.cs x F.CAN_ERR_WARNING k warn
  let s := if warn = 1 ∧ was = 0 then (s.canIrq x k F.CAN_IRQ_WARNING).canIrq x k F.CAN_IRQ_ERR_STATE else s
  if new = old then s
  else
    let s := (s.cs x F.CAN_ERR_STATE k new).canIrq x k F.CAN_IRQ_ERR_STATE
    if new = 1 ∧ old = 0 then s.canEvent x k 1 (s.canErr x k)
    else if new = 2 then
      let s := s.setCan x k { s.can x k with busOffAt := some s.now, recovering := false }
      let s := ((s.canEvent x k 2 (s.canErr x k)).canCnt x k 9).log x 0x902 (canProd k) []
      s.canIrq x k F.CAN_IRQ_BUS_OFF
    else s

/-- CAN_RECOVERY_START (R387): the delay has passed and AUTO_RECOVER is 1. -/
def execCanRecoveryStart (k : Fin 12) (s : State) : Out :=
  let x := canSide k
  let c := k % 6
  ok (match (s.can x c).busOffAt with
    | some t =>
      if s.canHere x c ∧ s.cg x F.CAN_ERR_STATE c = 2 ∧ s.cb x F.CAN_CFG_AUTO_RECOVER c ∧ ¬ (s.can x c).recovering then
        let s := s.due (t + min 1000 (s.cg x F.CAN_CFG_RECOVERY_DELAY c) * 1000000)
        s.setCan x c { s.can x c with recovering := true }
      else s
    | none => s)

/-- CAN_RECOVERY_COMPLETE (R387): the counters are zero, and the channel resumes in RECOVER, or else in its mode or the one set meanwhile. -/
def execCanRecoveryComplete (k : Fin 12) (s : State) : Out :=
  let x := canSide k
  let c := k % 6
  ok (if s.canHere x c ∧ (s.can x c).recovering then
    let s := s.setCan x c { s.can x c with recovering := false, busOffAt := none }
    let s := s.canCounters x c 0 0
    let s := (s.canEvent x c 3 (s.canErr x c)).canIrq x c F.CAN_IRQ_RECOVERED
    let pend := s.cb x F.CAN_STATUS_MODE_PENDING c
    if s.cb x F.CAN_CFG_AFTER_RECOVERY c then s.canSetMode x c 4
    else if pend then s.canSetMode x c (s.cg x F.CAN_STATUS_PEND_MODE c) else s
  else s)

/-! ## Elements (R374) -/

/-- Address of element `i` of region `r`. -/
def State.elemAddr (s : State) (x : Side) (k r i : Nat) : Nat := canPage k + 0x8000 + (s.region x k r).1 + i * s.elemBytes x k r

/-- A header word of an element. -/
def State.elemWord (s : State) (x : Side) (a i : Nat) : Nat := s.loadLE x (a + 4 * i) 4

/-- The number of data bytes of a DLC, classical or FD. -/
def dlcBytes (fd : Bool) (dlc : Nat) : Nat :=
  if dlc ≤ 8 then dlc
  else if ¬ fd then 8
  else [12, 16, 20, 24, 32, 48, 64].getD (dlc - 9) 64

/-- Data length of a frame by its header words. -/
def dataLen (h0 h1 : Nat) : Nat :=
  let f := bits h0 31 30
  if f = 3 then bits h1 26 16 + 1
  else if f = 1 ∧ h1.testBit 6 then 0
  else dlcBytes (f == 2) (bits h1 3 0)

/-- A format that the channel has and enables (R368, R374, R145). -/
def State.formatOk (s : State) (x : Side) (k f : Nat) : Bool :=
  f == 1 || (f == 2 && s.cb x F.CAN_CFG_FD_EN k && !(s.side x).limp) ||
    (f == 3 && hasXl k && s.cb x F.CAN_CFG_XL_EN k && !(s.side x).limp)

/-! ## Seals (R388 to R392) -/

/-- Index of context `c` of channel `k`. -/
def ctxIndex (k c : Nat) : Nat := 16 * k + c

/-- Bytes of the freshness value and of the MAC in a trailer (R395). -/
def State.fvBytes (s : State) (x : Side) (i : Nat) : Nat := max 1 (s.cg x F.CAN_SEAL_CFG_FV_BYTES i)
/-- Bytes of the MAC. -/
def State.macBytes (s : State) (x : Side) (i : Nat) : Nat := clampNat 3 8 (s.cg x F.CAN_SEAL_CFG_MAC_BYTES i)

/-- The truncated MAC of a payload (R389). -/
def State.sealMac (s : State) (x : Side) (i h0 : Nat) (payload : List Nat) (fv : Nat) : List Nat :=
  (cmac (Tab.at [] (s.side x).keyMat (s.cg x F.CAN_SEAL_STATUS_KEY_SLOT i)) (beBytes 4 h0 ++ payload ++ beBytes 5 fv)).take (s.macBytes x i)

/-- Address of the NOR record of a context (R392, R441). -/
def sealAddr (i : Nat) : Nat := 0x80060000 + 24 * i

/-- The NOR record of a context, if it has one: key slot, end of its block of transmit values, receive value plus 1 (0: none). -/
def State.sealRec (s : State) (x : Side) (i : Nat) : Option (Nat × Nat × Nat) :=
  let a := sealAddr i
  let k := s.loadLE x a 8
  if k = 0 then none else some (k - 1, s.loadLE x (a + 8) 8, s.loadLE x (a + 16) 8)

/-- The NOR record of a context written. -/
def State.setSealRec (s : State) (x : Side) (i slot tx rx : Nat) : State :=
  s.store x (sealAddr i) (leBytes 8 (slot + 1) ++ leBytes 8 tx ++ leBytes 8 rx)

/-- CAN_SEAL_KEY (R388): the binding, or its refusal by the slot's owner or its use. -/
def State.sealKey (s : State) (x : Side) (j : Job) (k : Nat) : State :=
  let slot := bits (j.pkt.p 1) 7 0
  let i := ctxIndex k (bits (j.pkt.p 1) 15 8)
  let h := Holder.side x
  if ¬ (slot < 64 ∧ s.get h F.KEYS_SLOT_OWNER slot = s.cg x F.CAN_CFG_OWNER k) then s.done j stDenied 1 []
  else if ¬ (s.is h F.KEYS_SLOT_VALID slot ∧ ¬ s.is h F.KEYS_SLOT_REVOKED slot ∧ s.get h F.KEYS_SLOT_USE slot = 4) then
    s.done j stCheck 0 []
  else
    let s := ((s.cs x F.CAN_SEAL_TX i 1).cs x F.CAN_SEAL_RX i 0).cs x F.CAN_SEAL_STATUS_KEY_SLOT i slot
    let s := ((s.cs x F.CAN_SEAL_STATUS_FV_LOW i 0).cs x F.CAN_SEAL_STATUS_EXHAUSTED i 0).cs x F.CAN_SEAL_STATUS_KEYED i 1
    ((s.setSealRec x i slot 1 0).log x 0x903 (canProd k) []).done j stOk 0 []

/-- CAN_SEAL_KEY (R388). -/
def execCanSealKey (x : Side) (s : State) : Out := ok (s.chromir x 0x504 (fun s j => s.onCan x j (fun s k => s.sealKey x j k)))

/-- The next freshness value of a context used (R389, R390, R392): the block's end is recorded before its first value, the counter
increments, FV_LOW is posted once, and the context is exhausted after its last value. -/
def State.useFresh (s : State) (x : Side) (k i : Nat) : State :=
  let f := s.cg x F.CAN_SEAL_TX i
  let r := (s.sealRec x i).getD (0, 0, 0)
  let s := if r.2.1 ≤ f then s.setSealRec x i r.1 ((f / 65536 + 1) * 65536) r.2.2 else s
  let s := s.cs x F.CAN_SEAL_TX i (min (f + 1) (2 ^ 40 - 1))
  let s := if s.cg x F.CAN_SEAL_TH i < f + 1 ∧ ¬ s.cb x F.CAN_SEAL_STATUS_FV_LOW i then
      (s.cs x F.CAN_SEAL_STATUS_FV_LOW i 1).canEvent x k 7 (i % 16)
    else s
  if f = 2 ^ 40 - 1 then (s.cs x F.CAN_SEAL_STATUS_EXHAUSTED i 1).log x 0x904 (canProd k) [] else s

/-- How a received sealed frame is judged (R391): 0 OK with the accepted value, 1 stale, 2 MAC failure. -/
def State.verify (s : State) (x : Side) (i h0 : Nat) (data : List Nat) : Nat × Nat :=
  let nf := s.fvBytes x i
  let nm := s.macBytes x i
  if ¬ s.cb x F.CAN_SEAL_STATUS_KEYED i ∨ data.length ≤ nf + nm then (2, 0)
  else
    let pay := data.take (data.length - nf - nm)
    let rx := beNat ((data.drop pay.length).take nf)
    let last := s.cg x F.CAN_SEAL_RX i
    let c0 := last / 2 ^ (8 * nf) * 2 ^ (8 * nf) + rx
    let cand := if c0 ≤ last then c0 + 2 ^ (8 * nf) else c0
    if max 1 (s.cg x F.CAN_SEAL_CFG_WINDOW i) < cand - last ∨ 2 ^ 40 - 1 < cand then (1, 0)
    else if s.sealMac x i h0 pay cand ≠ data.drop (pay.length + nf) then (2, 0)
    else (0, cand)

/-! ## Receiving (R376 to R378) -/

/-- Index of filter `n`, or of priority filter `p` at 128 + p, and its fields. -/
def State.filter (s : State) (x : Side) (k n : Nat) : Nat × Nat × Nat × Bool × Nat :=
  if n < 128 then
    let i := k * 128 + n
    (s.cg x F.CAN_FLT_ID i, s.cg x F.CAN_FLT_MASK i, s.cg x F.CAN_FLT_CFG_ACTION i, s.cb x F.CAN_FLT_CFG_SEALED i,
      s.cg x F.CAN_FLT_CFG_SEAL_CTX i)
  else
    let i := k * 8 + (n - 128)
    (s.cg x F.CAN_PFLT_ID i, s.cg x F.CAN_PFLT_MASK i, s.cg x F.CAN_PFLT_CFG_ACTION i, s.cb x F.CAN_PFLT_CFG_SEALED i,
      s.cg x F.CAN_PFLT_CFG_SEAL_CTX i)

/-- The accepting filter of a frame: priority filters 0 to 7 (128 and up), then filters 0 to 127. -/
def State.accepts (s : State) (x : Side) (k h0 : Nat) : Option Nat :=
  ((List.range 8).map (· + 128) ++ List.range 128).find? (fun n =>
    let (id, mask, action, _, _) := s.filter x k n
    action != 0 && ((h0 ^^^ id) &&& mask) == 0)

/-- An element written: header, the stamp of the start of frame, and data (R374). -/
def State.putElem (s : State) (x : Side) (a h0 h1 h2 h3 : Nat) (data : List Nat) (t : Nat) : State :=
  let s := ((((s.storeLE x a 4 h0).storeLE x (a + 4) 4 h1).storeLE x (a + 8) 4 h2).storeLE x (a + 12) 4 h3).storeLE x (a + 16) 8 (nsWord t)
  (s.storeLE x (a + 24) 8 (secWord t)).store x (a + 32) data

/-- An accepted frame put into receive queue `q` (R378). -/
def State.rxStore (s : State) (x : Side) (k q : Nat) (h0 h1 h2 h3 : Nat) (data : List Nat) (t : Nat) : State :=
  let n := s.elems x k (1 + q)
  let i := 2 * k + q
  let put := s.cg x F.CAN_RXQ_IDX_PUT i
  let get := s.cg x F.CAN_RXQ_IDX_GET i
  let overw := s.cb x (if q = 0 then F.CAN_CFG_RXQ0_OVERWRITE else F.CAN_CFG_RXQ1_OVERWRITE) k
  let full := decide (n = 0 ∨ (put + 1) % n = get)
  if full ∧ (n ≤ 1 ∨ ¬ overw) then
    ((s.canCnt x k 5).canIrq x k F.CAN_IRQ_RXQ_FULL).canEvent x k 4 q
  else
    let s := if full then (s.canCnt x k 6).cs x F.CAN_RXQ_IDX_GET i ((get + 1) % n) else s
    let s := s.putElem x (s.elemAddr x k (1 + q) put) h0 h1 h2 h3 data t
    let s := (s.cs x F.CAN_RXQ_IDX_PUT i ((put + 1) % n)).canCnt x k 0
    s.canIrq x k (if q = 0 then F.CAN_IRQ_RXQ0 else F.CAN_IRQ_RXQ1)

/-- A frame put into priority buffer `p` (R377). -/
def State.prioStore (s : State) (x : Side) (k p : Nat) (h0 h1 h2 h3 : Nat) (data : List Nat) (t : Nat) : State :=
  let s := if (s.cg x F.CAN_PRIO_STATUS_FULL k).testBit p then
      (s.setBit (.side x) F.CAN_PRIO_STATUS_OVERWRITTEN k p).canCnt x k 7
    else s
  let s := s.putElem x (s.elemAddr x k 3 p) h0 h1 h2 h3 data t
  ((s.setBit (.side x) F.CAN_PRIO_STATUS_FULL k p).canCnt x k 0).canIrq x k F.CAN_IRQ_PRIO

/-- Room for data bytes in an element of region `r`. -/
def State.elemRoom (s : State) (x : Side) (k r : Nat) : Nat := s.elemBytes x k r - 32

/-- Element `i` of region `r` is copied to or from a shadow: no frame enters it and no transmission reads it (R379). -/
def State.copyingElem (s : State) (x : Side) (k r i : Nat) : Bool :=
  (s.can x k).shadows.any (fun j => j.region == r && j.index == i)

/-- A frame put where it goes, once the staging buffer lets it (R377, R378). -/
def State.rxPut (s : State) (x : Side) (k : Nat) (f : StagedRx) : State :=
  match f.prio with
  | some p => s.prioStore x k p f.h0 f.h1 f.h2 f.h3 f.data f.sof
  | none => s.rxStore x k (f.queue - 1) f.h0 f.h1 f.h2 f.h3 f.data f.sof

/-- A frame on its way to its queue or priority buffer: data that do not fit the element discard it (R374), and it waits in the staging buffer
while its element is copied (R379). -/
def State.rxPlace (s : State) (x : Side) (k : Nat) (f : StagedRx) : State :=
  let r := if f.prio.isSome then 3 else f.queue
  let i := match f.prio with
    | some p => p
    | none => s.cg x F.CAN_RXQ_IDX_PUT (2 * k + (f.queue - 1))
  if s.elemRoom x k r < f.data.length then s.canCnt x k 4
  else if (s.can x k).staged ≠ [] ∨ s.copyingElem x k r i then
    s.setCan x k { s.can x k with staged := (s.can x k).staged ++ [f] }
  else s.rxPut x k f

/-- The staging buffer lets go of the frames whose elements are free again, in order (R379). -/
def State.unstage (s : State) (x : Side) (k : Nat) : State :=
  let l := (s.can x k).staged
  (s.setCan x k { s.can x k with staged := [] }).each l (fun s f => s.rxPlace x k f)

/-- A valid frame judged at its reference instant (R376, R377, R391). -/
def State.canJudge (s : State) (x : Side) (k : Nat) (h0 h1 h2 h3 : Nat) (data : List Nat) (t : Nat) : State :=
  let w2 := h2 % 2 ^ 16
  let h1 := h1 % 2 ^ 7 + bits h1 26 16 * 2 ^ 16
  match s.accepts x k h0 with
  | some n =>
    let (_, _, action, sealed, ctx) := s.filter x k n
    let isP := decide (128 ≤ n)
    let prio := if isP ∧ 2 ≤ s.canMode x k ∧ s.canMode x k ≤ 4 ∧ s.elems x k 3 = 8 then some (n - 128) else none
    let w2 := w2 + (n % 128) * 2 ^ 16 + b2n isP * 2 ^ 23
    if action = 3 then s.canCnt x k 3
    else if sealed then
      let i := ctxIndex k ctx
      match s.verify x i h0 data with
      | (0, fv) =>
        let s := (s.cs x F.CAN_SEAL_RX i fv).canCnt x k 13
        s.rxPlace x k ⟨prio, action, h0, Machine.setBit (h1 + ctx * 2 ^ 8) 7, w2, h3, data, t⟩
      | (1, _) => s.canCnt x k 14
      | _ => s.canCnt x k 15
    else s.rxPlace x k ⟨prio, action, h0, h1, w2, h3, data, t⟩
  | none =>
    let q := s.cg x F.CAN_CFG_NONMATCH k
    if q = 1 ∨ q = 2 then s.rxPlace x k ⟨none, q, h0, h1, w2 + 2 ^ 24, h3, data, t⟩ else s.canCnt x k 2

/-- An identifier counted in an awake table of up to 30 (R148). -/
def awakeAdd (l : List (Nat × Nat)) (id : Nat) : List (Nat × Nat) :=
  if l.any (fun e => e.1 == id) then l.map (fun e => if e.1 = id then (e.1, min 1023 (e.2 + 1)) else e)
  else if l.length < 30 then l ++ [(id, 1)] else l

/-- Number of basic cycles of a matrix cycle (R395). -/
def State.ttCount (s : State) (x : Side) (k : Nat) : Nat := 2 ^ min 6 (s.cg x F.CAN_TT_CFG_NB_LOG2 k)

/-- The time of the schedule's domain on side `x`. -/
def State.ttTime (s : State) (x : Side) (k : Nat) : Nat := s.domTime x (s.cg x F.CAN_TT_CFG_DOMAIN k)

/-- Start of window `w` after the cycle start, in 1/1024 ns. -/
def State.winStart (s : State) (x : Side) (k w : Nat) : Nat := if w = 0 then 0 else s.cg x F.CAN_TT_WIN (32 * k + w) * 100 * 1024

/-- Windows that are set but not ascending, or a cycle out of range, stop the matrix (R383). -/
def State.ttWrong (s : State) (x : Side) (k : Nat) : Bool :=
  let c := s.cg x F.CAN_TT_CYCLE k
  decide (c < 100000 ∨ 1000000000 < c) ||
    (List.range 31).any (fun i => decide (s.winStart x k (i + 1) ≠ 0 ∧ s.winStart x k (i + 1) ≤ s.winStart x k i))

/-- The matrix stops on its configuration (R383). -/
def State.ttRefuse (s : State) (x : Side) (k : Nat) : State :=
  (s.cs x F.CAN_STATUS_TT_CONFIG_ERR k 1).ttStop x k

/-- A basic cycle starts with count `c` (R383, R384). -/
def State.ttStart (s : State) (x : Side) (k c at_ : Nat) : State :=
  let s := s.ttFlush x k
  let s := s.setCan x k { s.can x k with refAt := some at_ }
  ((s.cs x F.CAN_TT_STATUS_RUNNING k 1).cs x F.CAN_TT_STATUS_CYCLE k c).cs x F.CAN_TT_STATUS_WINDOW k 0

/-- A frame is the reference message of the bus (R383). -/
def State.isReference (s : State) (x : Side) (k h0 h1 : Nat) : Bool :=
  bits h0 28 18 == s.cg x F.CAN_TT_CFG_REF_ID k && !h0.testBit 29 && bits h0 31 30 == 1 && bits h1 3 0 == 1 && !h1.testBit 6

/-- The one verification of a frame (R237, R391), as its queue and the spark matcher see it. -/
def State.canSealing (s : State) (x : Side) (k h0 : Nat) (data : List Nat) : Sealing :=
  match s.accepts x k h0 with
  | some n =>
    let (_, _, action, sealed, ctx) := s.filter x k n
    if action = 3 ∨ ¬ sealed then .plain
    else if (s.verify x (ctxIndex k ctx) h0 data).1 = 0 then .verified else .failed
  | none => .plain

/-- An error that the ECC of the message RAM of channel `k` finds (13, Message RAM; R28): a correction is counted, and an uncorrectable word
logged. -/
def State.canEcc (s : State) (x : Side) (k a : Nat) (e : Ecc) : State :=
  match e with
  | .clean => s
  | .corrected => s.canCnt x k 19
  | .lost => s.log x 0x002 0 [.wide a]

/-- A reference message starts a basic cycle of a follower's matrix (R383), `age` units of 1/1024 ns ago. -/
def State.canReference (s : State) (x : Side) (k h0 h1 : Nat) (data : List Nat) (age : Nat) : State :=
  if s.cb x F.CAN_TT_CFG_ENABLE k ∧ s.cg x F.CAN_TT_CFG_ROLE k = 1 ∧ matrixMode (s.canMode x k) ∧ s.isReference x k h0 h1 then
    (if s.ttWrong x k then s.ttRefuse x k else s.ttStart x k (data.headD 0 % 64) (s.ttTime x k - age))
  else s

/-- A frame received by channel `k`, whose start of frame was at tick time `sof`, `age` units of 1/1024 ns ago. It reaches
the spark matcher too, whatever its queue outcome, but not in a format that the channel does not take (R368, R376). `ecc` is what the ECC of
the message RAM finds as the frame is stored: a frame that needs an uncorrectable word is lost. A frame of the channel's `own`, in LOOPBACK, is no
source event (R234). -/
def State.canRx (s : State) (x : Side) (k : Nat) (h0 h1 h2 h3 : Nat) (data : List Nat) (sof age : Nat) (ecc : Ecc) (own : Bool) : State :=
  if ¬ s.formatOk x k (bits h0 31 30) then s.canCnt x k 17
  else
    let s := if own then s else s.sparkCan x k h0 h1 h2 data (s.canSealing x k h0 data)
    let s := s.canEcc x k (canPage k + 0x8000) ecc
    let rec_ := s.cg x F.CAN_ERR_REC k
    let s := if rec_ = 0 then s
      else if rec_ ≤ 127 then s.canCounters x k (s.cg x F.CAN_ERR_TEC k) (rec_ - 1)
      else s.took.canCounters x k (s.cg x F.CAN_ERR_TEC k) (119 + s.freeVal 64 % 9)
    let s := if s.awakeOpen then s.setCan x k { s.can x k with awake := awakeAdd (s.can x k).awake (h0 % 2 ^ 30) } else s
    let s := s.confirmFrame x k h0 h1 (leNat data)
    let s := s.canReference x k h0 h1 data age
    if ecc = .lost then s else s.canJudge x k h0 h1 h2 h3 data sof

/-- A write of CAN_RXQq_ACK advances GET by one; on an empty queue it is ignored (R378). -/
def State.rxqAck (s : State) (x : Side) (k q v : Nat) : State :=
  let i := 2 * k + q
  let n := s.elems x k (1 + q)
  if v.testBit 0 ∧ s.cg x F.CAN_RXQ_IDX_PUT i ≠ s.cg x F.CAN_RXQ_IDX_GET i ∧ 0 < n then
    s.cs x F.CAN_RXQ_IDX_GET i ((s.cg x F.CAN_RXQ_IDX_GET i + 1) % n)
  else s

/-- CAN_RXQ_ACK (R378). -/
def execCanRxqAck (x : Side) (o : Origin) (k : Fin 6) (q : Fin 2) (v : BitVec 32) (s : State) : Out :=
  ok (s.guarded x o (canPage k + 0x44 + 8 * q) 4 true (fun s => s.rxqAck x k q v.toNat))

/-! ## Transmitting (R380 to R382, R389) -/

/-- A write of CAN_TX_SET: event buffers become pending and scheduled ones armed (R380). -/
def State.txSet (s : State) (x : Side) (k v : Nat) : State :=
  s.each ((List.range (s.elems x k 0)).filter (fun b => v.testBit b)) (fun s b =>
    if (s.cg x F.CAN_TX_PEND k).testBit b then s
    else (s.setBit (.side x) F.CAN_TX_PEND k b).cs x F.CAN_TXB_STATUS (32 * k + b) 1)

/-- CAN_TX_SET (R380). -/
def execCanTxSet (x : Side) (o : Origin) (k : Fin 6) (v : BitVec 32) (s : State) : Out :=
  ok (s.guarded x o (canPage k + 0x50) 4 true (fun s => s.txSet x k v.toNat))

/-- A write of CAN_TX_CANCEL (R382). -/
def State.txCancel (s : State) (x : Side) (k v : Nat) : State :=
  s.each ((List.range 32).filter (fun b => v.testBit b)) (fun s b =>
    if ¬ (s.cg x F.CAN_TX_PEND k).testBit b then s
    else if s.isTaken x k b then s.setCan x k { s.can x k with cancel := Machine.setBit (s.can x k).cancel b }
    else (s.txDrop x k b).txDone x k b 4)

/-- CAN_TX_CANCEL (R382). -/
def execCanTxCancel (x : Side) (o : Origin) (k : Fin 6) (v : BitVec 32) (s : State) : Out :=
  ok (s.guarded x o (canPage k + 0x58) 4 true (fun s => s.txCancel x k v.toNat))

/-- The arbitration field of a frame as a number: the lower one wins. -/
def arbKey (h0 h1 : Nat) : Nat :=
  let base := bits h0 28 18
  let rtr := b2n (bits h0 31 30 == 1 && h1.testBit 6)
  if h0.testBit 29 then base * 2 ^ 21 + 2 ^ 20 + 2 ^ 19 + bits h0 17 0 * 2 + rtr else base * 2 ^ 21 + rtr * 2 ^ 20

/-- The pending event buffer whose frame would win arbitration, the lower number among equals (R381). -/
def State.winner (s : State) (x : Side) (k : Nat) : Option Nat :=
  let l := (List.range (s.elems x k 0)).filter (fun b =>
    (s.cg x F.CAN_TX_PEND k).testBit b && !s.cb x F.CAN_TXB_CFG_SCHED (32 * k + b) && !s.copyingElem x k 0 b)
  let key := fun b => let a := s.elemAddr x k 0 b; arbKey (s.elemWord x a 0) (s.elemWord x a 1)
  match l with
  | [] => none
  | b :: t => some (t.foldl (fun m c => if key c < key m then c else m) b)

/-- Bits of a frame on the bus without stuff bits (the figures of ISO 11898-1), as the guardian counts them. -/
def frameBits (h0 len : Nat) : Nat :=
  let f := bits h0 31 30
  let ext := if h0.testBit 29 then 20 else 0
  if f = 1 then 44 + 8 * len + ext else if f = 2 then (if len ≤ 16 then 59 else 64) + 8 * len + ext else 104 + 8 * len

/-- The guardian allows `n` more bits now (R227). -/
def State.guardCan (s : State) (x : Side) (k n : Nat) : Bool :=
  let used := ((s.can x k).guard.filter (fun g => decide (s.now < g.2 + 10000000))).foldl (fun a g => a + g.1) 0
  decide ((used + n) * 10000 ≤ clampNat 1 100 (s.cg x F.CAN_GUARD k) * s.nominalRate x k)

/-- What taking a buffer gives: the frame to send, whether sealed, and the state; or none with the state in which the buffer ended
(R374, R389, R390). -/
def State.buildTx (s : State) (x : Side) (k b : Nat) (event : Bool) : Option (CanTx × Bool) × State :=
  let a := s.elemAddr x k 0 b
  let h0 := s.elemWord x a 0
  let h1 := s.elemWord x a 1
  let h2 := s.elemWord x a 2
  let h3 := s.elemWord x a 3
  let len := dataLen h0 h1
  let drop := fun (s : State) => if event then s.txDrop x k b else s
  if ¬ s.formatOk x k (bits h0 31 30) ∨ s.elemRoom x k 0 < len then (none, (drop s).txDone x k b 7)
  else
    let data := s.load x (a + 32) len
    if ¬ h1.testBit 7 then (some (⟨b, h0, h1, h2, h3, data, s.tickTime x⟩, false), s)
    else
      let i := ctxIndex k (bits h1 11 8)
      let nf := s.fvBytes x i
      let nm := s.macBytes x i
      if ¬ s.cb x F.CAN_SEAL_STATUS_KEYED i ∨ len ≤ nf + nm then (none, (drop s).txDone x k b 7)
      else
        let kept := Tab.at 0 (s.can x k).fv b
        if kept = 0 ∧ s.cb x F.CAN_SEAL_STATUS_EXHAUSTED i then
          let s := ((drop s).txDone x k b 5).canCnt x k 16
          (none, s.canEvent x k 6 (i % 16 + b * 2 ^ 8))
        else
          let fv := if kept = 0 then s.cg x F.CAN_SEAL_TX i else kept - 1
          let s := if kept = 0 then s.useFresh x k i else s
          let s := if event then s.setCan x k { s.can x k with fv := Tab.put 0 (s.can x k).fv b (fv + 1) } else s
          let pay := data.take (len - nf - nm)
          let tr := (leBytes nf fv).reverse ++ s.sealMac x i h0 pay fv
          (some (⟨b, h0, h1, h2, h3, pay ++ tr, s.tickTime x⟩, true), s)

/-- A buffer taken for its attempt or window (R381): its frame and whether it is sealed, or none when the buffer ends here. One whose element
holds an uncorrectable word fails (13, Message RAM). -/
def State.take (s : State) (x : Side) (k b : Nat) (event : Bool) (ecc : Ecc) : Option (CanTx × Bool) × State :=
  let s := s.canEcc x k (s.elemAddr x k 0 b) ecc
  if ecc = .lost then (none, (if event then s.txDrop x k b else s).txDone x k b 3) else s.buildTx x k b event

/-- A frame starts on the bus: the guardian charges its bits (R227). -/
def State.txStart (s : State) (x : Side) (k : Nat) (t : CanTx) (sealed : Bool) : State :=
  let v := s.can x k
  s.setCan x k { v with
    taken := some t, takenSealed := sealed
    guard := (frameBits t.h0 t.data.length, s.now) :: v.guard.filter (fun g => decide (s.now < g.2 + 10000000)) }

/-- An attempt has ended after `n` bits: the guardian keeps those alone, and all bits of a frame that was sent (R227). -/
def State.guardFix (s : State) (x : Side) (k n : Nat) (sent : Bool) : State :=
  let v := s.can x k
  match v.guard with
  | [] => s
  | g :: l => s.setCan x k { v with guard := (if sent then max g.1 n else n, g.2) :: l }

/-- An event buffer taken at a start of frame: the guardian may defer it (R227). -/
def State.takeEvent (s : State) (x : Side) (k : Nat) (ecc : Ecc) : State :=
  match s.winner x k with
  | none => s
  | some b =>
    let a := s.elemAddr x k 0 b
    let n := frameBits (s.elemWord x a 0) (dataLen (s.elemWord x a 0) (s.elemWord x a 1))
    if ¬ s.guardCan x k n then s.canCnt x k 18
    else
      match s.take x k b true ecc with
      | (some (t, sealed), s) => s.txStart x k t sealed
      | (none, s) => s

/-- A scheduled buffer taken for the coming window (R381). -/
def State.takeSched (s : State) (x : Side) (k b : Nat) (ecc : Ecc) : State :=
  let r := s.take x k b false ecc
  r.2.setCan x k { r.2.can x k with next := r.1.map (fun t => t.1), nextSealed := (r.1.map (fun t => t.2)).getD false, nextMade := true }

/-! ## The schedule matrix (R383 to R385) -/

/-- Window `w` is in use (R384). -/
def State.winUsed (s : State) (x : Side) (k w : Nat) : Bool :=
  (List.range w).all (fun i => decide (s.winStart x k i < s.winStart x k (i + 1) ∧
    s.winStart x k (i + 1) < s.cg x F.CAN_TT_CYCLE k * 1024))

/-- TYPE and BUF of matrix entry (c, w); an entry that names no scheduled buffer acts as SILENT, marked in the last component
(R384). -/
def State.matEntry (s : State) (x : Side) (k c w : Nat) : Nat × Nat × Bool :=
  let e := bits (s.cg x F.CAN_TT_MAT ((k * 64 + c) * 8 + w / 4)) (8 * (w % 4) + 7) (8 * (w % 4))
  let t := e % 4
  let b := bits e 6 2
  if t = 1 ∨ t = 2 then
    (if s.elems x k 0 ≤ b ∨ ¬ s.cb x F.CAN_TXB_CFG_SCHED (32 * k + b) then (3, b, true) else (t, b, false))
  else (t, b, false)

/-- The scheduled buffer of the next window when that window starts within 5 us (R381). -/
def State.nextScheduled (s : State) (x : Side) (k : Nat) : Option Nat :=
  match (s.can x k).refAt with
  | none => none
  | some r =>
    let w := s.cg x F.CAN_TT_STATUS_WINDOW k + 1
    let e := s.matEntry x k (s.cg x F.CAN_TT_STATUS_CYCLE k) w
    if s.cb x F.CAN_TT_STATUS_RUNNING k ∧ w < 32 ∧ s.winUsed x k w ∧ (e.1 = 1 ∨ e.1 = 2) ∧ (s.can x k).next.isNone ∧
        (s.cg x F.CAN_TX_PEND k).testBit e.2.1 ∧ ¬ (s.can x k).nextMade ∧ ¬ s.copyingElem x k 0 e.2.1 ∧ r + s.winStart x k w ≤ s.ttTime x k + 5000 * 1024 then some e.2.1
    else none

/-- Event buffers may start frames now: no matrix runs, or a free window is in force (R370, R384). -/
def State.eventOpen (s : State) (x : Side) (k : Nat) : Bool :=
  !s.cb x F.CAN_TT_STATUS_RUNNING k ||
    (s.cg x F.CAN_TT_STATUS_WINDOW k != 0 && (s.matEntry x k (s.cg x F.CAN_TT_STATUS_CYCLE k) (s.cg x F.CAN_TT_STATUS_WINDOW k)).1 == 0)

/-- CAN_TX_TAKE (R381): a scheduled buffer 5 us before its window, whatever the bus carries; else the winning event buffer, at a start of frame.
`ecc` is what the ECC of the message RAM finds in its element. -/
def execCanTxTake (k : Fin 12) (ecc : Ecc) (s : State) : Out :=
  let x := canSide k
  let c := k % 6
  ok (if s.canOn x c ∧ sendsMode (s.canMode x c) then
    match s.nextScheduled x c with
    | some b => s.takeSched x c b ecc
    | none => if (s.can x c).taken.isNone ∧ (s.can x c).retime.isNone ∧ s.eventOpen x c then s.takeEvent x c ecc else s
  else s)

/-- A bus that falls idle `idle` ns after a window or cycle start does so within TXEN nominal bit times of it (R385). -/
def State.withinTxen (s : State) (x : Side) (k idle : Nat) : Bool :=
  decide (idle * s.nominalRate x k ≤ max 1 (s.cg x F.CAN_TT_CFG_TXEN k) * 1000000000)

/-- What was taken for a window that has begun is sent, at tick time `sof`, or misses it: the idle came `late`, the channel is off the bus, or
the guardian of R227 forbids it (R385). -/
def State.ttServe (s : State) (x : Side) (k : Nat) (late : Bool) (sof : Nat) : State :=
  match (s.can x k).next with
  | none => s
  | some t =>
    if s.cg x F.CAN_ERR_STATE k = 2 ∨ (s.can x k).retime.isSome ∨ late then s.ttMiss x k t
    else if ¬ s.guardCan x k (frameBits t.h0 t.data.length) then (s.canCnt x k 18).ttMiss x k t
    else
      let sealed := (s.can x k).nextSealed
      (s.setCan x k { s.can x k with next := none, nextSealed := false, nextAt := none }).txStart x k { t with sof := sof } sealed

/-- A window begins for what was taken, on a bus idle `idle` ns after it; while a frame of the channel's own is on the bus it waits (R385). -/
def State.ttOpen (s : State) (x : Side) (k idle : Nat) : State :=
  if (s.can x k).taken.isSome ∧ (s.can x k).next.isSome then s.setCan x k { s.can x k with nextAt := some s.now }
  else s.ttServe x k (!s.withinTxen x k idle) (s.tickTime x + idle * 1024)

/-- The bus is idle after a frame: what waits for it is sent now, or has missed its window (R385). -/
def State.busIdle (s : State) (x : Side) (k : Nat) : State :=
  match (s.can x k).nextAt with
  | some t => if (s.can x k).taken.isSome then s else s.ttServe x k (!s.withinTxen x k (s.now - t)) (s.tickTime x)
  | none => s

/-- CAN_TT_CYCLE_START (R383, R385): the time master's next basic cycle, with its reference message; `idle` is how many ns after the start the
bus is idle. A cycle that runs completes before the next one starts, after a time step too. -/
def execCanTtCycleStart (k : Fin 12) (idle : Word40) (s : State) : Out :=
  let x := canSide k
  let c := k % 6
  ok (if s.canHere x c ∧ matrixMode (s.canMode x c) ∧ s.cb x F.CAN_TT_CFG_ENABLE c ∧ s.cg x F.CAN_TT_CFG_ROLE c = 0 then
    if s.ttWrong x c then s.ttRefuse x c
    else
      let cyc := s.cg x F.CAN_TT_CYCLE c * 1024
      let base := s.cg x F.CAN_TT_BASE_S c * secTicks + s.cg x F.CAN_TT_BASE_NS c
      let t := s.ttTime x c
      let t0 := match (s.can x c).refAt with
        | some r => if s.cb x F.CAN_TT_STATUS_RUNNING c then max t (r + cyc) else t
        | none => t
      let n := ceilDiv (t0 - base) cyc
      let at_ := base + n * cyc
      let s := s.due (s.now + ceilDiv (at_ - t) 1024)
      let cnt := n % s.ttCount x c
      let s := s.ttStart x c cnt at_
      let h0 := s.cg x F.CAN_TT_CFG_REF_ID c * 2 ^ 18 + 2 ^ 30
      (s.setCan x c { s.can x c with next := some ⟨refBuf, h0, 1, 0, 0, [cnt % 64], 0⟩ }).ttOpen x c idle.toNat
  else s)

/-- A copy completes (R379). What it puts into a transmit buffer is another frame, which takes a freshness value of its own (R389). -/
def State.shadowFinish (s : State) (x : Side) (k : Nat) (j : ShadowJob) : State :=
  let h := Holder.side x
  let n := s.elemBytes x k j.region
  let a := s.elemAddr x k j.region j.index
  let m := canPage k + 0x2000 + j.s * 0x1000
  let v := s.can x k
  let s := s.setCan x k { v with shadows := v.shadows.filter (fun q => q.s != j.s)
                                 fv := if j.dir then Tab.put 0 v.fv j.index 0 else v.fv }
  let s := if j.dir then s.store x a (s.load x m n) else s.store x m j.data
  (((s.clearBit h F.CAN_SHADOW_STATUS_BUSY k j.s).setBit h F.CAN_SHADOW_STATUS_DONE k j.s).canIrq x k F.CAN_IRQ_SHADOW).unstage x k

/-- Window `w` begins (R384, R385): its buffer, if armed, is served. A copy of its element that still runs ends before it is taken (R379). -/
def State.windowServe (s : State) (x : Side) (k w idle : Nat) : State :=
  let e := s.matEntry x k (s.cg x F.CAN_TT_STATUS_CYCLE k) w
  let b := e.2.1
  let s := if e.2.2 then s.cs x F.CAN_STATUS_TT_CONFIG_ERR k 1 else s
  let mine := (s.can x k).nextAt.isNone && ((s.can x k).next.map (fun t => t.buf)).all (· == b)
  let s := if (e.1 = 1 ∨ e.1 = 2) ∧ mine then s else s.ttFlush x k
  let s := if (e.1 = 1 ∨ e.1 = 2) ∧ (s.cg x F.CAN_TX_PEND k).testBit b ∧ ¬ (s.can x k).nextMade then
      (s.each ((s.can x k).shadows.filter (fun j => j.region == 0 && j.index == b)) (fun s j => s.shadowFinish x k j)).takeSched x k b .clean
    else s
  (s.setCan x k { s.can x k with nextMade := false }).ttOpen x k idle

/-- CAN_TT_WINDOW_START (R384, R385): window `w` begins; `idle` is how many ns after its start the bus is idle. -/
def execCanTtWindowStart (k : Fin 12) (w : Fin 32) (idle : Word40) (s : State) : Out :=
  let x := canSide k
  let c := k % 6
  ok (match (s.can x c).refAt with
    | none => s
    | some r =>
      if ¬ (s.canHere x c ∧ s.cb x F.CAN_TT_STATUS_RUNNING c ∧ 0 < (w : Nat) ∧
          (w : Nat) = s.cg x F.CAN_TT_STATUS_WINDOW c + 1 ∧ s.winUsed x c w) then s
      else
        let s := s.due (s.now + ceilDiv (r + s.winStart x c w - s.ttTime x c) 1024)
        (s.cs x F.CAN_TT_STATUS_WINDOW c w).windowServe x c w idle.toNat)

/-- REF_LOST (R383): no reference within 1.5 cycles of the last one. -/
def execRefLost (k : Fin 12) (s : State) : Out :=
  let x := canSide k
  let c := k % 6
  ok (match (s.can x c).refAt with
    | none => s
    | some r =>
      if s.canHere x c ∧ s.cb x F.CAN_TT_STATUS_RUNNING c ∧ s.cg x F.CAN_TT_CFG_ROLE c = 1 then
        let s := s.due (s.now + ceilDiv (r + s.cg x F.CAN_TT_CYCLE c * 1536 - s.ttTime x c) 1024)
        let s := (s.ttStop x c).canCnt x c 12
        s.canEvent x c 5 (s.cg x F.CAN_TT_STATUS_CYCLE c)
      else s)

/-- The attempts that a buffer may make after the first (R381); none is unlimited. -/
def State.retries (s : State) (x : Side) (k b : Nat) : Option Nat :=
  let r := s.cg x F.CAN_TXB_CFG_RETRY (32 * k + b)
  if 16 ≤ r then none else some r

/-- A sent frame's header with its stamp written back (R374). -/
def State.stampTx (s : State) (x : Side) (k : Nat) (t : CanTx) : State :=
  let a := s.elemAddr x k 0 t.buf
  (s.storeLE x (a + 16) 8 (nsWord t.sof)).storeLE x (a + 24) 8 (secWord t.sof)

/-- An attempt of the taken buffer has ended without success: what becomes of the buffer (R381, R382, R385). -/
def State.txFailed (s : State) (x : Side) (k : Nat) (t : CanTx) : State :=
  let b := t.buf
  if b = refBuf then s.canIrq x k F.CAN_IRQ_TT_MISSED
  else if (s.can x k).cancel.testBit b then (s.txDrop x k b).txDone x k b 4
  else if s.cb x F.CAN_TXB_CFG_SCHED (32 * k + b) then (s.txDone x k b 3).canIrq x k F.CAN_IRQ_TT_MISSED
  else
    let n := Tab.at 0 (s.can x k).tries b + 1
    match s.retries x k b with
    | some r =>
      if r < n then ((s.txDrop x k b).txDone x k b 3).canCnt x k 10
      else s.setCan x k { s.can x k with tries := Tab.put 0 (s.can x k).tries b n }
    | none => s.setCan x k { s.can x k with tries := Tab.put 0 (s.can x k).tries b n }

/-- By how much an error of a transmitter raises TEC (R386; the figures of ISO 11898-1, log entry 56): 8, and 8 for each further error in its
error flag; but nothing for an acknowledgement error of an error passive transmitter without one, or for a stuff error in arbitration. -/
def State.tecRise (s : State) (x : Side) (k : Nat) (code : Fin 8) (arb : Bool) (again : Nat) : Nat :=
  if (code = 3 ∧ s.cg x F.CAN_ERR_STATE k = 1 ∨ code = 1 ∧ arb) then 8 * again else 8 + 8 * again

/-- The attempt of the taken buffer, of which `n` bits went onto the bus, ends sent, lost or in an error (R227, R381, R386). -/
def State.txEnd (s : State) (x : Side) (k : Nat) (t : CanTx) (r : TxOutcome) (n : Nat) : State :=
  let b := t.buf
  let i := 32 * k + b
  let sealed := (s.can x k).takenSealed
  let s := (s.guardFix x k n (r == .sent)).setCan x k { (s.guardFix x k n (r == .sent)).can x k with taken := none }
  match r with
  | .sent =>
    let s := s.canCnt x k 1
    let s := if sealed then s.canCnt x k 13 else s
    let s := if b = refBuf then s
      else
        let s := s.stampTx x k t
        let keep := s.cb x F.CAN_TXB_CFG_SCHED i && !(s.can x k).cancel.testBit b
        (if keep then s else s.txDrop x k b).txDone x k b 2
    let tec := s.cg x F.CAN_ERR_TEC k
    let s := if tec = 0 then s else s.canCounters x k (tec - 1) (s.cg x F.CAN_ERR_REC k)
    (if s.canMode x k = 7 then s.canRx x k t.h0 t.h1 t.h2 t.h3 t.data t.sof (s.tickTime x - t.sof) .clean true else s).busIdle x k
  | .lost =>
    let s := if b = refBuf then s else s.inc (.side x) F.CAN_TXB_ARB_LOST i
    s.txFailed x k t
  | .error code arb again =>
    let s := if b = refBuf then s else s.inc (.side x) F.CAN_TXB_TX_ERR i
    let s := (s.cs x F.CAN_ERR_LAST_ERR k code).canCnt x k 8
    let rise := s.tecRise x k code arb again
    ((s.txFailed x k t).canCounters x k (s.cg x F.CAN_ERR_TEC k + rise) (s.cg x F.CAN_ERR_REC k)).busIdle x k

/-- CAN_TX_END (R381); `n` bits of the attempt went onto the bus. -/
def execCanTxEnd (k : Fin 12) (r : TxOutcome) (n : BitVec 16) (s : State) : Out :=
  let x := canSide k
  let c := k % 6
  ok (match (s.can x c).taken with
    | some t => if s.canOn x c then s.txEnd x c t r n.toNat else s
    | none => s)

/-! ## The bus falls idle after a frame of another node (R371, R376, R386) -/

/-- CAN_FRAME_RX (R376): a frame of another node becomes valid, in a mode that receives, `age` ns after its start of frame (R374). -/
def execCanFrameRx (k : Fin 12) (f : CanFrame) (age : Word40) (ecc : Ecc) (s : State) : Out :=
  let x := canSide k
  let c := k % 6
  ok (if s.canOn x c ∧ s.canMode x c ≠ 7 ∧ s.mayEnd x c age.toNat then
    (s.canRx x c f.h0.toNat f.h1.toNat f.h2.toNat f.h3.toNat (f.data.map (fun b => b.toNat)) (s.tickTime x - age.toNat * 1024)
      (age.toNat * 1024) ecc false).busIdle x c
  else s)

/-- CAN_ERROR_FLAG (R386): an error detected while receiving raises REC by 1, or by 8 in the heavy cases of ISO 11898-1; a mode that sends
no error flags counts the error only. -/
def execCanErrorFlag (k : Fin 12) (code : Fin 8) (heavy : Bool) (s : State) : Out :=
  let x := canSide k
  let c := k % 6
  ok (if s.canOn x c then
    let s := (s.cs x F.CAN_ERR_LAST_ERR c code).canCnt x c 8
    (if s.canMode x c ≤ 4 then s.canCounters x c (s.cg x F.CAN_ERR_TEC c) (s.cg x F.CAN_ERR_REC c + (if heavy then 8 else 1)) else s).busIdle x c
  else s)

/-- CAN_MODE_APPLY (R369, R371): the bus is idle after the frame in progress: a pending mode comes into force, but in bus-off it waits for the
recovery; a channel whose timing has changed is back on the bus, or OFF if the new timing is bad. -/
def execCanModeApply (k : Fin 12) (s : State) : Out :=
  let x := canSide k
  let c := k % 6
  ok (if s.canHere x c ∧ (s.can x c).taken.isNone then
    let s := (s.busIdle x c).setCan x c { (s.busIdle x c).can x c with retime := none }
    if (s.can x c).taken.isSome then s
    else if s.canBarred x c then s.canSetMode x c 0
    else if s.cb x F.CAN_STATUS_MODE_PENDING c ∧ s.cg x F.CAN_ERR_STATE c ≠ 2 then s.canSetMode x c (s.cg x F.CAN_STATUS_PEND_MODE c) else s
  else s)

/-! ## Shadow copies (R379) -/

/-- A write of CAN_SHADOW_CTRL. No frame enters the element while it is copied to a shadow, which therefore gets what it holds now. -/
def State.shadowCtrl (s : State) (x : Side) (k v : Nat) : State :=
  let b := bits v 29 29
  let r := bits v 25 24
  let i := bits v 11 0
  let h := Holder.side x
  if ¬ v.testBit 31 then s
  else if (s.cg x F.CAN_SHADOW_STATUS_BUSY k).testBit b ∨ s.elems x k r ≤ i ∨ (v.testBit 30 ∧ r ≠ 0) then
    s.setBit h F.CAN_SHADOW_STATUS_ERR k b
  else
    (s.setCan x k { s.can x k with shadows := (s.can x k).shadows ++
      [⟨b, v.testBit 30, r, i, if v.testBit 30 then [] else s.load x (s.elemAddr x k r i) (s.elemBytes x k r)⟩] }).setBit h F.CAN_SHADOW_STATUS_BUSY k b

/-- CAN_SHADOW_LOAD (R379). -/
def execCanShadowLoad (x : Side) (o : Origin) (k : Fin 6) (v : BitVec 32) (s : State) : Out :=
  ok (s.guarded x o (canPage k + 0x70) 4 true (fun s => s.shadowCtrl x k v.toNat))

/-- CAN_SHADOW_STORE (R379). -/
def execCanShadowStore (x : Side) (o : Origin) (k : Fin 6) (v : BitVec 32) (s : State) : Out :=
  ok (s.guarded x o (canPage k + 0x70) 4 true (fun s => s.shadowCtrl x k v.toNat))

/-- CAN_SHADOW_DONE (R379): the copy completes; one into a taken buffer waits. -/
def execCanShadowDone (k : Fin 12) (b : Fin 2) (s : State) : Out :=
  let x := canSide k
  let c := k % 6
  ok (match (s.can x c).shadows.find? (fun j => j.s == (b : Nat)) with
    | none => s
    | some j => if s.canHere x c ∧ ¬ (j.dir ∧ s.isTaken x c j.index) then s.shadowFinish x c j else s)

/-! ## Reset (R393) -/

/-- A reset of channel `k`: off the bus at once; RAM, buffers, counters and error counters cleared. The seal contexts stay. -/
def State.canReset (s : State) (x : Side) (k : Nat) : State :=
  let s := s.setCan x k { CanSt.init with wake := (s.can x k).wake, awake := (s.can x k).awake }
  let s := { s with mem := s.mem.filter (fun e =>
    !(decide (memKey x (canPage k + 0x2000) ≤ e.1 ∧ e.1 < memKey x (canPage k + 0x10000)))) }
  let s := s.each [F.CAN_STATUS_READY, F.CAN_STATUS_TIMING_BAD, F.CAN_STATUS_RAM_BAD, F.CAN_STATUS_MODE_PENDING, F.CAN_STATUS_PEND_MODE,
    F.CAN_STATUS_TT_CONFIG_ERR, F.CAN_STATUS_MODE, F.CAN_ERR_LAST_ERR, F.CAN_ERR_WARNING, F.CAN_ERR_STATE, F.CAN_ERR_REC, F.CAN_ERR_TEC,
    F.CAN_IRQ_RECOVERED, F.CAN_IRQ_BUS_OFF, F.CAN_IRQ_WARNING, F.CAN_IRQ_ERR_STATE, F.CAN_IRQ_RXQ_FULL, F.CAN_IRQ_SHADOW,
    F.CAN_IRQ_TT_MISSED, F.CAN_IRQ_PRIO, F.CAN_IRQ_TX_DONE, F.CAN_IRQ_RXQ1, F.CAN_IRQ_RXQ0, F.CAN_IRQ_EN, F.CAN_TX_PEND, F.CAN_TX_DONE,
    F.CAN_PRIO_STATUS_OVERWRITTEN, F.CAN_PRIO_STATUS_FULL, F.CAN_SHADOW_STATUS_DONE, F.CAN_SHADOW_STATUS_ERR, F.CAN_SHADOW_STATUS_BUSY,
    F.CAN_TT_STATUS_RUNNING, F.CAN_TT_STATUS_WINDOW, F.CAN_TT_STATUS_CYCLE] (fun s f => s.toReset (.side x) f k)
  let s := s.each [0, 1] (fun s q => (s.cs x F.CAN_RXQ_IDX_PUT (2 * k + q) 0).cs x F.CAN_RXQ_IDX_GET (2 * k + q) 0)
  let s := s.each (List.range 20) (fun s i => s.cs x F.CAN_CNT (20 * k + i) 0)
  s.each (List.range 32) (fun s b => ((s.cs x F.CAN_TXB_STATUS (32 * k + b) 0).cs x F.CAN_TXB_ARB_LOST (32 * k + b) 0).cs x
    F.CAN_TXB_TX_ERR (32 * k + b) 0)

end Sys2Proof.Machine
end

