-- ==== Sys2Proof/Machine/Channel.lean ====
section
/-! DEFINITION. A load channel (chapter 06): its registers, states, faults, events, turn-on and turn-off, retry and latch-off,
and its harness record (chapter 07 R201 to R205). A channel is named by its module number 0 to 63. -/
namespace Sys2Proof.Machine
open Sys2Proof

/-! ## Registers of a channel -/

/-- Register field `f` of channel `c`. -/
def State.cq (s : State) (c : Nat) (f : Fld) : Nat := s.get (.grate (c / 16)) f (c % 16)

/-- Register field `f` of channel `c` set. -/
def State.cw (s : State) (c : Nat) (f : Fld) (v : Nat) : State := s.set (.grate (c / 16)) f (c % 16) v

/-- Counter `f` of channel `c` counts one. -/
def State.cn (s : State) (c : Nat) (f : Fld) : State := s.inc (.grate (c / 16)) f (c % 16)

/-- A signed field of channel `c` in its Q20.20 units. -/
def State.ci (s : State) (c : Nat) (f : Fld) : Int := sigInt (s.cq c f)

/-- STATE of channel `c` (R161): 0 OFF, 1 SLEW, 2 ON, 3 PWM, 4 LIMIT, 5 TSD, 6 RETRY_WAIT, 7 LATCHED, 8 DAMPER_OFF, 9 NOFEED. -/
def State.chState (s : State) (c : Nat) : Nat := s.cq c F.CH_STATE_STATE

/-- A state in which the output is driven. -/
def driven (st : Nat) : Bool := decide (1 ≤ st ∧ st ≤ 4)

/-- A state of SHORT_BAT (R185). -/
def quiet (st : Nat) : Bool := st == 0 || st == 6 || st == 7

/-- Channel `c` is in PWM, in either phase or in LIMIT of an on-phase (R180). -/
def State.inPwm (s : State) (c : Nat) : Bool :=
  (s.chState c == 3 || s.chState c == 4) && s.cq c F.CH_STATE_MODE == 1 && !(s.chan c).pwmWait

/-- The fault that CH_STATE.FAULT shows (R163). -/
def State.chFault (s : State) (c : Nat) : Nat :=
  let st := s.chState c
  if 5 ≤ st then (s.chan c).faultReg
  else ((List.range 4).foldl (fun m k => if (s.chan c).present.testBit k then k + 1 else m) 0)

/-- CH_STATE as it reads (R198). -/
def State.chStateWord (s : State) (c : Nat) : Nat :=
  s.chState c + s.chFault c * 2 ^ 4 + s.cq c F.CH_STATE_CMD_ON * 2 ^ 8 + s.cq c F.CH_STATE_HELD * 2 ^ 9 +
    s.cq c F.DMP_CH_CFG_PRIO * 2 ^ 10 + s.cq c F.CH_CFG2 * 2 ^ 12 + s.cq c F.CH_STATE_SPARK_LAST * 2 ^ 15 +
    min 15 (s.chan c).retries * 2 ^ 16 + s.cq c F.CH_STATE_MODE * 2 ^ 20 + s.cq c F.CH_STATE_SAT * 2 ^ 21

/-! ## The harness record (R201 to R205) -/

/-- The eight words of a valid record of a channel. A second slot is burned only while no record is valid (R202), so where both pass the
later one is the record; the spec does not name this case (DESIGN CHOICE, log entry 49). -/
def Chan.record (v : Chan) : Option (List Nat) :=
  match v.otp1, v.otp0 with
  | .burned ws, _ => some ws
  | _, .burned ws => some ws
  | _, _ => none

/-- One shift of the CRC of a harness record: polynomial x^8 + x^2 + x + 1, most significant bit first. -/
def crc8Step (c : Nat) (b : Bool) : Nat :=
  let x := c.testBit 7 != b
  let d := c * 2 % 256
  if x then d ^^^ 0x07 else d

/-- The bits of a number from bit `n - 1` down to bit 0. -/
def bitsDown (n w : Nat) : List Bool := (List.range n).map (fun i => w.testBit (n - 1 - i))

/-- The CRC of a harness record: words 1 to 7 whole, then bits 31 to 0 of word 8 (R201). -/
def harnessCrc (ws : List Nat) : Nat :=
  (((ws.take 7).flatMap (bitsDown 40)) ++ bitsDown 32 (ws.getD 7 0)).foldl crc8Step 0

/-- The class default record (R204). -/
def defaultRecord (n : Nat) : List Nat :=
  let k := classOf n
  let pick (h m l : Nat) := if k = 0 then h else if k = 1 then m else l
  let ws := [pick 20 5 1 * q20, pick 0x0020000000 0x0200000000 0x3200000000, 10995117, 40 * q20, 20 * q20, 0,
    25 + pick 2000 20000 20000 * 2 ^ 15 + 2 ^ 30, 5 + 500 * 2 ^ 9 + 1023 * 2 ^ 18]
  ws.take 7 ++ [ws.getD 7 0 + harnessCrc ws * 2 ^ 32]

/-- The record under which channel `c` is judged. -/
def State.record (s : State) (c : Nat) : List Nat := ((s.chan c).record).getD (defaultRecord c)

/-- Word `k` (from 1) of the record of channel `c`. -/
def State.hrn (s : State) (c k : Nat) : Nat := (s.record c).getD (k - 1) 0

/-- Whether channel `c` carries a safety tag (R208). -/
def State.isSafety (s : State) (c : Nat) : Bool := (s.hrn c 8).testBit 28

/-- A slew held within the bounds of the record of channel `c` (R206). -/
def State.boundSlew (s : State) (c v : Nat) : Nat :=
  clampNat (bits (s.hrn c 8) 8 0) (bits (s.hrn c 8) 17 9) (clampNat 5 500 v)

/-- The default static slew of channel `c` (R167). -/
def State.slewDef (s : State) (c : Nat) : Nat := s.boundSlew c (s.cq c F.CH_CFG0_SLEW_DEF)

/-- The PWM edge slew of channel `c` (R167). -/
def State.slewPwm (s : State) (c : Nat) : Nat := s.boundSlew c (s.cq c F.CH_CFG0_PWM_SLEW)

/-- CH_ILIM_EFF follows its three sources (R170). -/
def State.limitEff (s : State) (c : Nat) : State :=
  s.cw c F.CH_ILIM_EFF (sigWord (min (s.ci c F.CH_ILIM_CMD) (min (s.ci c F.CH_ILIM_CEIL) (sigInt (s.hrn c 1)))))

/-! ## Events (R197) -/

/-- A channel event, to the event doors of its owner on both sides. -/
def State.chEventPost (s : State) (c code w5 : Nat) : State :=
  s.eventBoth (s.cq c F.CH_CFG2) 2 stOk code c [c, s.chStateWord c, s.cq c F.MEAS_I, s.cq c F.MEAS_TJ, w5]

/-- A channel event, at most one per code in 10 ms; LATCHED and MEAS_FAULT are never suppressed. -/
def State.chEvent (s : State) (c code w5 : Nat) : State :=
  if code = 3 ∨ code = 9 then s.chEventPost c code w5
  else match limited (s.chan c).lastEvt code s.now with
    | some t => (s.setChan c { s.chan c with lastEvt := t }).chEventPost c code w5
    | none => s.cn c F.CH_EVT_SUPPRESS_COUNT

/-- A Damper event of a channel to its owner (R228), suppressed as R197 says but for WIRE_TRIP. -/
def State.dmpEvent (s : State) (c code : Nat) (words : List Nat) : State :=
  let post (s : State) := s.eventBoth (s.cq c F.CH_CFG2) 3 stOk code c words
  if code = 1 then post s
  else match limited (s.chan c).lastEvt (16 + code) s.now with
    | some t => post (s.setChan c { s.chan c with lastEvt := t })
    | none => s.cn c F.CH_EVT_SUPPRESS_COUNT

/-- Sticky bit of a fault (R163). -/
def State.diagBit (s : State) (c fault : Nat) : State := s.cw c F.CH_DIAG (Machine.setBit (s.cq c F.CH_DIAG) (fault - 1))

/-! ## States -/

/-- The diagnostic conditions whose state condition R185 still holds in state `st`, as a mask of present bits. -/
def diagKeeps (st : Nat) : Nat :=
  if st = 2 ∨ st = 3 then 1 else if st = 0 then 6 else if st = 6 ∨ st = 7 then 4 else if st = 4 then 8 else 0

/-- Channel `c` enters state `st`, with what its diagnostics and timers make of it (R163, R175, R185), and out of DAMPER_OFF it is no
longer shed (R230). That OPEN_ON, which leaves the channel in ON or PWM, does not break the "1 s without a fault" of R175 is a DESIGN CHOICE (log
entry 121). -/
def State.goto (s : State) (c st : Nat) : State :=
  let old := s.chState c
  let v := s.chan c
  let running (n : Nat) : Bool := n == 2 || n == 3
  let s := s.cw c F.CH_STATE_STATE st
  let s := if st = 8 then s else s.cw c F.DMP_CH_STATUS_SHED 0
  s.setChan c { v with
    okSince := if running st then (if running old then v.okSince else some s.now) else none
    offSince := if st = 0 ∧ old ≠ 0 then s.now else v.offSince
    quietSince := if quiet st ∧ ¬ quiet old then s.now else v.quietSince
    present := v.present &&& diagKeeps st
    pwmOn := v.pwmOn && driven st
    pwmOff := if driven st then v.pwmOff else none
    pwmWait := v.pwmWait && driven st
    complete := v.complete && driven st
    faultReg := if st ≤ 4 then 0 else v.faultReg }

/-- Channel `c` goes off under fault `fault`, into state `st`, at 5 V/us; the instant and the fault are kept (R162, R163, R167). -/
def State.faultTo (s : State) (c fault st : Nat) : State :=
  let slew := if driven (s.chState c) then 500 else (s.chan c).offSlew
  let s := (s.diagBit c fault).goto c st
  s.setChan c { s.chan c with faultReg := fault, offAt := s.now, offSlew := slew }

/-- CMD_ON of channel `c` clears, and with it RETRIES_USED (R175) and a feed-return turn-on that is still due (R164). -/
def State.cmdOff (s : State) (c : Nat) : State :=
  let s := s.cw c F.CH_STATE_CMD_ON 0
  s.setChan c { s.chan c with retries := 0, gatePending := false }

/-- Attempt limit of the retry policy of channel `c` (R173). -/
def State.attemptLimit (s : State) (c : Nat) : Nat :=
  let cap := s.cq c F.CH_CFG1_RETRY_CEIL
  match s.cq c F.CH_RETRY_POLICY with
  | 1 => min (s.cq c F.CH_RETRY_LIMIT) cap
  | 2 => if cap < 15 then cap else 65536
  | 3 => if cap < 15 then cap else 65536
  | _ => 0

/-- Wait before attempt `k` of channel `c`, ns (R173). -/
def State.retryWait (s : State) (c k : Nat) : Nat :=
  let base := max (s.cq c F.CH_RETRY_INTERVAL) (s.cq c F.CH_CFG1_RETRY_MIN)
  (if s.cq c F.CH_RETRY_POLICY = 3 then min 65535 (base * 2 ^ min 16 (k - 1)) else base) * 1000000

/-- Latch-off (R174): LATCHED, its event, count and log entry. -/
def State.latch (s : State) (c : Nat) : State :=
  let f := (s.chan c).faultReg
  let s := s.goto c 7
  let s := (s.setChan c { s.chan c with faultReg := f }).cn c F.CH_LATCH_COUNT
  let s := s.chEvent c 3 f
  s.logBoth 0x400 (23 + c / 16) [.nar 6 c, .nar 4 f, .nar 4 (min 15 (s.chan c).retries)]

/-- Fault handling once the output is off (R162, R174): OFF when not commanded on, else RETRY_WAIT while attempts remain, else LATCHED. -/
def State.faultHandle (s : State) (c : Nat) : State :=
  if s.cq c F.CH_STATE_CMD_ON = 0 then s.goto c 0
  else
    let v := s.chan c
    if v.retries < s.attemptLimit c then
      let s := s.goto c 6
      s.setChan c { s.chan c with faultReg := v.faultReg, retryAt := max s.now (v.offAt + s.retryWait c (v.retries + 1)) }
    else s.latch c

/-- A fault that turns channel `c` off and runs fault handling (R162), its event posted as it is found. -/
def State.faultOff (s : State) (c fault code w5 : Nat) : State :=
  (((s.diagBit c fault).chEvent c code w5).faultTo c fault 8).faultHandle c

/-! ## Turn-on and turn-off -/

/-- A turn-on begins (R207, R198, R231): it is counted, its instant kept, and the mark of an earlier trip clears. -/
def State.begun (s : State) (c : Nat) : State :=
  let v := s.chan c
  let s := s.setChan c { v with turnOns := (s.now :: v.turnOns).take 1022 }
  (s.cn c F.CH_TURN_ON_COUNT).cw c F.WIRE_STATUS_TRIPPED 0

/-- Slew that a turn-on runs with: its own, or the default. -/
def State.slewOf (s : State) (c : Nat) (t : TurnOn) : Nat := if t.slew = 0 then s.slewDef c else t.slew

/-- A static turn-on of channel `c` begins in SLEW, or goes on in LIMIT (R162, R515). -/
def State.startStatic (s : State) (c : Nat) (t : TurnOn) (st : Nat) : State :=
  let s := ((s.begun c).cw c F.CH_STATE_MODE 0).cw c F.CH_STATE_CMD_ON 1
  let s := s.goto c st
  s.setChan c { s.chan c with slew := s.slewOf c t, onAt := s.now, complete := st == 2, pwmWait := false, pwmOn := false, pwmOff := none }

/-- The PWM values of a command held in the registers of channel `c` (R198). -/
def State.pwmRegs (s : State) (c : Nat) (t : TurnOn) : State :=
  (((s.cw c F.CH_PWM_FREQ_FREQ t.freq).cw c F.CH_PWM_FREQ_COMP t.comp).cw c F.CH_PWM_FREQ_PHASE t.phase).cw c F.CH_PWM_DUTY_DUTY t.duty

/-- A turn-on of channel `c` in PWM mode begins (R162): its output waits for the next period start. -/
def State.startPwm (s : State) (c : Nat) : State :=
  let s := ((s.begun c).cw c F.CH_STATE_MODE 1).cw c F.CH_STATE_CMD_ON 1
  let s := s.goto c 3
  s.setChan c { s.chan c with complete := true, pwmWait := false, pwmOn := false, pwmOff := none, pwmEnd := s.now }

/-- Edge time of a PWM edge of channel `c` compared with a phase of `n` grate cycles: the phase is shorter than one edge (R178). -/
def State.shortPhase (s : State) (c n : Nat) : Bool :=
  decide (((n * s.slewPwm c * 5 * 2 ^ 20 : Nat) : Int) < sigInt (s.get (.grate (c / 16)) F.MEAS_FEED_V 0) * 100000)

/-- The output of channel `c` is fully on in PWM: its on-phase has lasted one edge (R185, R515). -/
def State.fullyOn (s : State) (c : Nat) : Bool :=
  (s.chan c).pwmOn && !s.shortPhase c ((s.now - (s.chan c).pwmAt) / 5)

/-- Period of a frequency in grate cycles, rounded to the nearest (R177). -/
def pwmPeriod (freq : Nat) : Nat := (200000000 + max 1 freq / 2) / max 1 freq

/-- The next period start of channel `c` at or after instant `t` (R177): the timebase modulo P equals PHASE x P / 8, truncated. -/
def State.nextPeriod (s : State) (c t : Nat) : Nat :=
  let p := pwmPeriod (s.cq c F.CH_PWM_FREQ_FREQ)
  let base := (s.die (c / 16)).pwmBase
  let at_ := s.cq c F.CH_PWM_FREQ_PHASE * p / 8
  let cyc := ceilDiv (t - base) 5
  base + 5 * (if cyc ≤ at_ then at_ else at_ + ceilDiv (cyc - at_) p * p)

/-- A period in which the output stays on ends with an off-edge only where the next period starts later than it ends: an on-time is never
stretched (R177, R178). Judged as a CH_PWM changes the values of the next period. -/
def State.stayOnEnd (s : State) (c : Nat) : State :=
  let v := s.chan c
  if v.pwmOn ∧ (v.pwmOff = none ∨ v.pwmOff = some v.pwmEnd) then
    s.setChan c { v with pwmOff := if s.nextPeriod c v.pwmEnd = v.pwmEnd then none else some v.pwmEnd }
  else s

/-- An admitted turn-on acts on channel `c` in its present state (R192, R515). -/
def State.applyOn (s : State) (c : Nat) (t : TurnOn) : State :=
  let st := s.chState c
  if t.pwm then
    let s := s.pwmRegs c t
    if st = 0 ∨ st = 8 then s.startPwm c
    else if s.inPwm c then (s.cw c F.CH_STATE_CMD_ON 1).stayOnEnd c
    else if driven st then
      let s := (s.cw c F.CH_STATE_MODE 1).cw c F.CH_STATE_CMD_ON 1
      s.setChan c { s.chan c with pwmWait := true, pwmEnd := s.now }
    else (s.cw c F.CH_STATE_MODE 1).cw c F.CH_STATE_CMD_ON 1
  else if st = 0 ∨ st = 8 then s.startStatic c t 1
  else if s.inPwm c then
    if st = 4 then s.startStatic c t 4
    else if s.fullyOn c then s.startStatic c t 2
    else s.startStatic c t 1
  else if driven st then
    let v := s.chan c
    let s := (s.cw c F.CH_STATE_MODE 0).cw c F.CH_STATE_CMD_ON 1
    s.setChan c { v with pwmWait := false, slew := if t.slew ≠ 0 ∧ v.complete = false then t.slew else v.slew }
  else
    let s := (s.cw c F.CH_STATE_MODE 0).cw c F.CH_STATE_CMD_ON 1
    s.setChan c { s.chan c with slew := s.slewOf c t }

/-- A turn-off of channel `c` (R192, R167): a driven channel goes off at `slew`; a driven or waiting channel, and one that was shed (R219),
goes to OFF. -/
def State.applyOff (s : State) (c slew : Nat) : State :=
  let st := s.chState c
  let s := s.cmdOff c
  if driven st then
    let s := s.goto c 0
    s.setChan c { s.chan c with offSlew := slew }
  else if st = 6 then s.goto c 0
  else if st = 8 ∧ s.cq c F.DMP_CH_STATUS_SHED = 1 then s.goto c 0
  else s

/-- The Damper turns channel `c` off (R162, R210, R219). -/
def State.damperOff (s : State) (c : Nat) : State := s.faultTo c 8 8

/-- Channel `c` enters NOFEED (R182), keeping RETRIES_USED. -/
def State.noFeed (s : State) (c : Nat) (reversed : Bool) : State :=
  if s.chState c = 7 ∨ s.chState c = 8 ∨ s.chState c = 9 then s
  else
    let s := s.faultTo c 9 9
    (s.setChan c { s.chan c with gatePending := false }).chEvent c 7 (b2n reversed)

end Sys2Proof.Machine
end

