-- ==== Sys2Proof/Machine/Damper.lean ====
section
/-! DEFINITION. The Damper (chapter 07): ceilings, claims, budgets and allowances, the judgement of turn-ons, holds, sheds, and the
exchange of the budget bus. Budget codes are those of R213: 1 module, 2 FEED_A, 3 FEED_B, 4 dissipation. -/
namespace Sys2Proof.Machine
open Sys2Proof

/-! ## Ceilings (R206 to R208) -/

/-- What an action asks of the Damper: whether it is a turn-on, a CH_PWM, its DUTY and FREQ, its own SLEW (0: none), whether it is
autonomous, and the COMPARED mark. -/
structure Ask where
  turnOn : Bool
  pwm : Bool
  duty : Nat
  freq : Nat
  slew : Nat
  auto : Bool
  compared : Bool
  deriving DecidableEq, Repr

/-- Turn-ons of channel `c` in the last 10 s. -/
def State.recentOns (s : State) (c : Nat) : Nat := ((s.chan c).turnOns.filter (fun t => decide (s.now < t + 10000000000))).length

/-- SERVICE is active on the mask that the die's token holder last committed to it (R204, R117): bit 5 of the mask. -/
def State.dieService (s : State) (d : Nat) : Bool := (s.die d).committed.testBit 5

/-- The first ceiling, in the order of R206, that the action fails on channel `c`. -/
def State.ceiling (s : State) (c : Nat) (a : Ask) : Option Nat :=
  let w7 := s.hrn c 7
  let w8 := s.hrn c 8
  let most := bits w8 27 18
  let bad := s.cq c F.HRN_STATUS_BAD == 1
  let l : List (Bool × Nat) :=
    [(a.turnOn && (s.chan c).record.isNone && !bad && !s.dieService (c / 16), 0x001),
     (a.turnOn && bad && (s.chan c).record.isNone, 0x002),
     (!a.auto && s.isSafety c && !a.compared, 0x009),
     (a.turnOn && s.cq c F.WIRE_STATUS_COOLING == 1, 0x008),
     (a.pwm && decide (0 < a.duty) && !w7.testBit 30, 0x004),
     (a.pwm && decide (a.freq < bits w7 14 0 ∨ bits w7 29 15 < a.freq), 0x005),
     (!a.pwm && a.slew != 0 && decide (a.slew < bits w8 8 0 ∨ bits w8 17 9 < a.slew), 0x006),
     (a.turnOn && most != 1023 && decide (most ≤ s.recentOns c), 0x007)]
  (l.find? (fun p => p.1)).map (fun p => p.2)

/-- A refusal by a ceiling is counted (R206). -/
def State.limitRefused (s : State) (c : Nat) : State :=
  (s.inc (.grate (c / 16)) F.DMP_REFUSE_LIMIT_COUNT 0).cn c F.DMP_CH_REFUSE_COUNT

/-- A refusal for budget is counted (R218, R230). -/
def State.budgetRefused (s : State) (c : Nat) : State :=
  (s.inc (.grate (c / 16)) F.DMP_REFUSE_BUDGET_COUNT 0).cn c F.DMP_CH_REFUSE_COUNT

/-- DETAIL of REFUSED_BUDGET (R220): reasons 0 HOLD_END, 1 NO_HOLD, 2 SUPERSEDED, 3 RIDE, 4 MASTER_CHANGE, 5 OVER. -/
def budgetDetail (reason b : Nat) : Nat := reason * 16 + b

/-! ## Claims (R212 to R215) -/

/-- A current widened while the die's channels are uncalibrated (R212). -/
def State.widen (s : State) (c i : Nat) : Nat :=
  if s.is (.grate (c / 16)) F.DMP_STATUS_UNCAL 0 then
    let k := classOf c
    ceilDiv (i * 105) 100 + (if k = 0 then 1048576 else if k = 1 then 209715 else 52428)
  else i

/-- The current claim of channel `c` (R214), Q20.20 A. -/
def State.claim (s : State) (c : Nat) : Nat :=
  if driven (s.chState c) then max (s.ci c F.DMP_CH_ADMIT).toNat (s.widen c (s.chan c).iMean) else 0

/-- Dissipation claim of a current on channel `c` (R214), Q20.20 W: class on-resistance at 150 degrees in 0.1 milliohm. -/
def dissOf (c i : Nat) : Nat := i * i * (if classOf c = 0 then 17 else if classOf c = 1 then 100 else 500) / (10000 * 2 ^ 20)

/-- Budget code of the feed of die `d`. -/
def feedOf (d : Nat) : Nat := 2 + d / 2

/-- Budgets of a channel of die `d`. -/
def budgetsOf (d : Nat) : List Nat := [1, feedOf d, 4]

/-- What a current `i` on channel `c` claims on budget `b`. -/
def claimOn (c i b : Nat) : Nat := if b = 4 then dissOf c i else if b = 1 ∨ b = feedOf (c / 16) then i else 0

/-- Local channels of die `d`, by module number. -/
def chansOf (d : Nat) : List Nat := (List.range 16).map (fun n => 16 * d + n)

/-- Priority of channel `c`. -/
def State.prio (s : State) (c : Nat) : Nat := s.cq c F.DMP_CH_CFG_PRIO

/-- Die `d` is on an absent feed, and claims zero on every budget (R216). -/
def State.noFeedDie (s : State) (d : Nat) : Bool :=
  s.is (.grate d) F.MEAS_STATUS_FEED_ABSENT 0 || (!s.dieRuns d && (s.die d).feedGone)

/-- Claims of die `d` on budget `b` by its P0 channels, or by the others; a die on an absent feed claims zero (R216). -/
def State.dieClaim (s : State) (d b : Nat) (p0 : Bool) : Nat :=
  if s.noFeedDie d then 0
  else ((chansOf d).filter (fun c => (s.prio c == 0) == p0)).foldl (fun n c => n + claimOn c (s.claim c) b) 0

/-- The dies that take part in the budget bus. -/
def State.busDies (s : State) : List Nat := (List.range 4).filter (fun d => (s.die d).present && s.present (dieUnit d) && (s.die d).powered)

/-- C0 of budget `b`: claims of the dies on the bus, and the last C0 of each other die (R216). -/
def State.sumP0 (s : State) (b : Nat) : Nat :=
  (List.range 4).foldl (fun n d =>
    n + (if d ∈ s.busDies then s.dieClaim d b true else if s.noFeedDie d then 0 else Tab.at 0 (s.die d).sentC0 b)) 0

/-- Cn of budget `b`: in place of its last Cn, the whole last allowance of a die that does not send (R216). -/
def State.sumPn (s : State) (b : Nat) : Nat :=
  (List.range 4).foldl (fun n d =>
    n + (if d ∈ s.busDies then s.dieClaim d b false else if s.noFeedDie d then 0 else Tab.at 0 (s.die d).known b)) 0

/-- The least value of a field among the copies of the dies on the bus (R216). -/
def State.leastOf (s : State) (f : Fld) (hi : Nat) : Nat :=
  s.busDies.foldl (fun m d => min m (s.get (.grate d) f 0)) hi

/-- The greatest, as a signed Q20.20 value, at least 0. -/
def State.mostOf (s : State) (f : Fld) : Nat :=
  s.busDies.foldl (fun m d => max m (sigInt (s.get (.grate d) f 0)).toNat) 0

/-- The dies on the bus have one view of the module; this is the lowest of them. -/
def State.busDie (s : State) : Nat := s.busDies.headD 0

/-- Budget B of code `b` (R213), Q20.20. -/
def State.budget (s : State) (b : Nat) : Int :=
  if b = 1 then s.leastOf F.DMP_BUDGET_MOD (400 * q20)
  else if b = 2 ∨ b = 3 then s.leastOf F.DMP_BUDGET_FEED (250 * q20)
  else sigInt (s.get (.grate s.busDie) F.DMP_DISS_BUDGET 0) - sigInt (s.get (.grate s.busDie) F.DMP_LOGIC_W 0)

/-- Reserve Rsv of code `b` (R213), Q20.20. -/
def State.reserve (s : State) (b : Nat) : Nat :=
  if b = 1 then s.mostOf F.DMP_RES_MOD else if b = 2 ∨ b = 3 then s.mostOf F.DMP_RES_FEED else s.mostOf F.DMP_RES_DISS

/-! ## Fits (R216 to R218) -/

/-- Channels with a held turn-on. -/
def State.heldChans (s : State) : List Nat := (List.range 64).filter (fun c => (s.chan c).hold.isSome)

/-- A turn-on is held against budget `b` (R216 step 4). -/
def State.heldOn (s : State) (b : Nat) : Bool :=
  s.heldChans.any (fun c => match (s.chan c).hold with
    | some h => h.against.testBit (b - 1)
    | none => false)

/-- Allowance of die `d` on budget `b`: its own Cn at the last exchange and its share, which is zero while a turn-on is held there. -/
def State.allowance (s : State) (d b : Nat) : Nat := if s.heldOn b then Tab.at 0 (s.die d).sentCn b else Tab.at 0 (s.die d).allow b

/-- Budgets on which a turn-on of channel `c` does not fit its die's allowance (R217). -/
def State.misfitDie (s : State) (c : Nat) : List Nat :=
  let i := (s.ci c F.DMP_CH_ADMIT).toNat
  (budgetsOf (c / 16)).filter (fun b => decide (s.allowance (c / 16) b < s.dieClaim (c / 16) b false + claimOn c i b))

/-- Budgets on which a turn-on of channel `c` does not fit the whole headroom (R218). -/
def State.misfitAll (s : State) (c : Nat) : List Nat :=
  let i := (s.ci c F.DMP_CH_ADMIT).toNat
  (budgetsOf (c / 16)).filter (fun b => decide (s.budget b < ((s.sumPn b + claimOn c i b + max (s.sumP0 b) (s.reserve b) : Nat) : Int)))

/-- RIDE lasts on the feed of die `d` (R225). -/
def State.riding (s : State) (d : Nat) : Bool := (s.die (d / 2 * 2)).ride || (s.die (d / 2 * 2 + 1)).ride

/-- The first of the channel's budgets under BUDGET_OVER (R223). -/
def State.overOn (s : State) (c : Nat) : Option Nat := (budgetsOf (c / 16)).find? (fun b => s.damper.overStop.testBit (b - 1))

/-! ## Sheds (R219) -/

/-- Channel `c` is shed for budget `b`. -/
def State.shed (s : State) (c b : Nat) : State :=
  let d := c / 16
  let s := (s.damperOff c).cw c F.DMP_CH_STATUS_SHED 1
  let s := (s.inc (.grate d) F.DMP_SHED_COUNT 0).cn c F.DMP_CH_SHED_COUNT
  let s := s.eventBoth (s.cq c F.CH_CFG2) 3 stShed c c []
  s.logBoth 0x405 (23 + d) [.nar 6 c, .nar 4 b]

/-- The P3 channels that are on and claim on budget `b`, in descending channel number; `only` restricts them to one die. A SAFETY channel
is never shed (R208). -/
def State.shedable (s : State) (b : Nat) (only : Option Nat) : List Nat :=
  ((List.range 64).reverse).filter (fun c => s.prio c == 3 && !s.isSafety c && decide (0 < claimOn c (s.claim c) b) && (c / 16) ∈ s.busDies &&
    (match only with
      | some d => c / 16 == d
      | none => true))

/-- Sheds along a list, for budget `b`, while `need` holds. -/
def State.shedWhile (s : State) (b : Nat) (need : State → Bool) : List Nat → State
  | [] => s
  | c :: l => if need s then (s.shed c b).shedWhile b need l else s

/-- Sheds on each budget of a list until the channel's turn-on no longer misfits there. -/
def State.shedFor (s : State) (c : Nat) (only : Option Nat) (misfit : State → Nat → List Nat) (bs : List Nat) : State :=
  s.each bs (fun s b => s.shedWhile b (fun s => decide (b ∈ misfit s c)) (s.shedable b only))

/-! ## Judgement -/

/-- What the Damper decides of a turn-on: admitted, held against budgets, or refused with status and DETAIL. -/
inductive Verdict where
  | allow
  | hold (against : List Nat)
  | refuse (status detail : Nat)
  deriving DecidableEq, Repr

/-- The judgement in the accepting grate cycle of a turn-on that has passed its ceilings (R217, R223, R225). -/
def State.judge (s : State) (c : Nat) : Verdict :=
  let d := c / 16
  let p := s.prio c
  let bad := s.misfitDie c
  if p = 0 then .allow
  else if s.riding d ∧ p = 3 then .refuse stBudget (budgetDetail 3 (feedOf d))
  else match s.overOn c with
    | some b => .refuse stBudget (budgetDetail 5 b)
    | none =>
      if bad = [] ∧ ¬ (s.riding d ∧ p = 2) then .allow
      else if p = 3 then .refuse stBudget (budgetDetail 1 (bad.headD 0))
      else .hold bad

/-- What the Damper keeps of an admission: a P0 turn-on may cause sheds at the next exchange (R217). -/
def State.admitted (s : State) (c : Nat) : State :=
  if s.prio c = 0 then s.setDie (c / 16) { s.die (c / 16) with p0New := true } else s

/-- A mask of budget codes. -/
def budgetMask (l : List Nat) : Nat := l.foldl (fun m b => Machine.setBit m (b - 1)) 0

/-- A turn-on of channel `c` is held (R217, R196). -/
def State.holdStart (s : State) (c : Nat) (job : Option Job) (cause : OnCause) (t : TurnOn) (against : List Nat) : State :=
  let ns := s.cq c F.DMP_CH_CFG_HOLD * 1000000
  let s := s.setChan c { s.chan c with hold := some ⟨job, cause, t, s.now, s.now + ns, budgetMask against⟩ }
  let s := (s.cw c F.CH_STATE_HELD 1).inc (.grate (c / 16)) F.DMP_HOLD_COUNT 0
  match job with
  | some j =>
    let s := (s.cw c F.DMP_CH_STATUS_HELD_SIDE j.side.num).cw c F.DMP_CH_STATUS_HELD_TAG j.pkt.tag
    if driven (s.chState c) then s else s.cmdOff c
  | none => s.cw c F.DMP_CH_STATUS_HELD_TAG 0xFF

/-- DETAIL of DELAYED: the hold time in units of 2 ms, rounded up (R217). -/
def State.holdDetail (s : State) (c : Nat) : Nat := (s.cq c F.DMP_CH_CFG_HOLD + 1) / 2

/-! ## Group commands (R93) -/

/-- The reply to a CH_GROUP_SET from its masks. -/
def Group.reply (g : Group) : Reply :=
  ⟨g.job, if g.applied = bits (g.job.pkt.p 1) 15 0 then stOk else stPartial, 0, [g.applied, g.held, g.refused, g.denied]⟩

/-- Channel `n` of die `d` leaves the HELD mask of the group of packet `j`; the final reply goes out when no channel is held. -/
def State.groupEnd (s : State) (d n : Nat) (j : Job) (admitted : Bool) : State :=
  match (s.die d).groups.find? (fun g => g.job == j) with
  | none => s
  | some g =>
    let g' : Group := { g with held := Machine.clearBit g.held n, applied := if admitted then Machine.setBit g.applied n else g.applied,
                               refused := if admitted then g.refused else Machine.setBit g.refused n }
    let v := s.die d
    if g'.held = 0 then (s.setDie d { v with groups := v.groups.filter (fun k => k.job != j) }).dieReply d g'.reply
    else s.setDie d { v with groups := v.groups.map (fun k => if k.job = j then g' else k) }

/-! ## The end of a hold (R196, R218, R221) -/

/-- The outcome of an autonomous turn-on (R196, R174, R182), with its event. It acts only while CMD_ON is 1 (R164). -/
def State.autoEnd (s : State) (c : Nat) (cause : OnCause) (t : TurnOn) (status detail : Nat) : State :=
  let feed := cause == .feedReturn
  let s := s.chEvent c 0xA (status + detail % 4096 * 2 ^ 8 + b2n feed * 2 ^ 20)
  let st := s.chState c
  if status = stOk then
    if (st = 6 ∨ st = 0) ∧ s.cq c F.CH_STATE_CMD_ON = 1 then
      let s := s.admitted c
      if t.pwm then s.startPwm c else s.startStatic c t 1
    else s
  else if feed then s.cmdOff c
  else if st = 6 then
    let v := s.chan c
    (s.setChan c { v with offAt := s.now }).faultHandle c
  else s

/-- A hold of channel `c` ends with a status: REFUSED_BUDGET and REFUSED_LIMIT are counted, the reply, the group or the event carries it. -/
def State.holdEnd (s : State) (c : Nat) (h : Hold) (status detail : Nat) : State :=
  let d := c / 16
  let s := (s.setChan c { s.chan c with hold := none }).cw c F.CH_STATE_HELD 0
  let s := if status = stBudget then s.budgetRefused c else if status = stOk then s.inc (.grate d) F.DMP_HOLD_ADMIT_COUNT 0 else s
  match h.job with
  | none => s.autoEnd c h.cause h.on status detail
  | some j =>
    let s := if status = stOk then (((s.admitted c).applyOn c h.on).cw c F.CH_STATE_SPARK_LAST 0) else s
    if j.pkt.code = 0x206 then s.groupEnd d (c % 16) j (status == stOk) else s.dieReply d ⟨j, status, detail, []⟩

/-- The hold of channel `c`, if any, ends early with a reason (R221). -/
def State.holdCut (s : State) (c reason : Nat) : State :=
  match (s.chan c).hold with
  | some h => s.holdEnd c h stBudget (budgetDetail reason 0)
  | none => s

/-- What a turn-on asks of the Damper. -/
def TurnOn.ask (t : TurnOn) (turnOn auto compared : Bool) : Ask := ⟨turnOn, t.pwm, t.duty, t.freq, t.slew, auto, compared⟩

/-- A turn-on in this state of channel `c` counts as a turn-on, and not as a change of a channel that is on (R192, R515). -/
def State.isTurnOn (s : State) (c : Nat) (t : TurnOn) : Bool :=
  !driven (s.chState c) || (s.inPwm c && !t.pwm)

/-- The held turn-on of channel `c` judged at an exchange (R218, R225). -/
def State.judgeHeld (s : State) (c : Nat) : State :=
  match (s.chan c).hold with
  | none => s
  | some h =>
    let d := c / 16
    let compared := match h.job with
      | some j => j.pkt.compared
      | none => false
    match s.ceiling c (h.on.ask (s.isTurnOn c h.on) h.job.isNone compared) with
    | some code => (s.limitRefused c).holdEnd c h stLimit code
    | none =>
      let p := s.prio c
      let expired := decide (h.until_ ≤ s.now)
      let ride := s.riding d
      let bad := s.misfitAll c
      if s.chState c = 7 then s.holdEnd c h stLimit 0x0F0
      else if p = 0 then s.holdEnd c h stOk 0
      else if ride ∧ p = 3 then s.holdEnd c h stBudget (budgetDetail 3 (feedOf d))
      else if ride ∧ p = 2 then
        if expired then s.holdEnd c h stBudget (budgetDetail 3 (feedOf d))
        else s.setChan c { s.chan c with hold := some { h with against := budgetMask bad } }
      else if bad = [] then s.holdEnd c h stOk 0
      else if p = 3 then s.holdEnd c h stBudget (budgetDetail 1 (bad.headD 0))
      else
        let t := s.shedFor c none State.misfitAll bad
        if p = 1 ∧ t.misfitAll c = [] then t.holdEnd c h stOk 0
        else if expired then s.holdEnd c h stBudget (budgetDetail 0 (bad.headD 0))
        else s.setChan c { s.chan c with hold := some { h with against := budgetMask bad } }

/-- Held channels in the order of R218: priority, then age of the hold, then channel number. -/
def State.heldOrder (s : State) : List Nat :=
  let since (c : Nat) : Nat := match (s.chan c).hold with
    | some h => h.since
    | none => 0
  let before (a b : Nat) : Bool := decide (s.prio a < s.prio b ∨ (s.prio a = s.prio b ∧ since a < since b))
  s.heldChans.foldl (fun l c => l.takeWhile (fun a => !before c a) ++ c :: l.dropWhile (fun a => !before c a)) []

/-! ## The exchange (R216) -/

/-- Q20.20 word of an integer number of units. -/
def units (n : Int) : Int := n * 1048576

/-- A calibration item in use at die `d`: its value, as a signed Q20.20 number, or what stands for it before any has been delivered (R133, R135). -/
def State.calOf (s : State) (d item gain : Nat) : Int :=
  if s.is (.grate d) F.DMP_STATUS_UNCAL 0 then gain
  else
    let v := Tab.at 0 (s.die d).cal item
    if v = 0 then gain else sigInt (v - 1)

/-- A sensor reading with the calibration offset, or 85 degrees when it lies outside -50 to 150 (R215). -/
def coolantOf (r offset : Int) : Int := if r < units (-50) ∨ units 150 < r then units 85 else r + offset

/-- Pmax(T) (R213), Q20.20 W. -/
def pMax (t : Int) : Int := if t ≤ units 70 then units 95 else units 95 - (t - units 70)

/-- The conditions of the module that every die on the bus shows (R223 to R225, R229). -/
def State.showFlags (s : State) : State :=
  let v := s.damper
  s.each s.busDies (fun s d =>
    let g := Holder.grate d
    let s := (s.set g F.DMP_STATUS_RIDE_A 0 (b2n (s.riding 0))).set g F.DMP_STATUS_RIDE_B 0 (b2n (s.riding 2))
    let s := (s.set g F.DMP_STATUS_BUDGET_OVER 0 (b2n (v.overStop != 0))).set g F.DMP_STATUS_P0_OVER 0 (b2n (v.p0Stop != 0))
    (s.set g F.DMP_STATUS_DERATE_HW 0 (b2n v.derate)).set g F.DMP_STATUS_BUS_GAP 0 (b2n v.gap))

/-- What every die on the bus shows of the module after an exchange (R229). -/
def State.showModule (s : State) (t : Int) (bad : Bool) (pLogic : Nat) : State :=
  let ceil : Int := s.leastOf F.DMP_DISS_CEIL (95 * q20)
  s.each s.busDies (fun s d =>
    let g := Holder.grate d
    let s := (s.set g F.DMP_COOLANT 0 (sigWord t)).set g F.DMP_STATUS_SENSOR_BAD 0 (b2n bad)
    (s.set g F.DMP_LOGIC_W 0 pLogic).set g F.DMP_DISS_BUDGET 0 (sigWord (min (pMax t) ceil)))

/-- Claims shown and sent by every die on the bus, and the allowances that follow (R216 steps 1 to 4). -/
def State.allot (s : State) : State :=
  let p0 := (List.range 4).map (fun i => s.sumP0 (i + 1))
  let pn := (List.range 4).map (fun i => s.sumPn (i + 1))
  let share (b : Nat) : Nat :=
    let f := (s.budget b - max (p0.getD (b - 1) 0) (s.reserve b) - pn.getD (b - 1) 0).toNat
    if s.heldOn b then 0 else if b = 2 ∨ b = 3 then f / 2 else f / 4
  let shares := (List.range 4).map (fun i => share (i + 1))
  s.each s.busDies (fun s d =>
    let g := Holder.grate d
    let s := s.each (List.range 4) (fun s i =>
      (s.set g F.DMP_CLAIM (i + 1) (sigWord (p0.getD i 0 + pn.getD i 0))).set g F.DMP_P0 (i + 1) (sigWord (p0.getD i 0)))
    let own (b : Nat) : Nat := s.dieClaim d b false
    let mine (b : Nat) : Bool := decide (b ∈ budgetsOf d)
    let tab (f : Nat → Nat) : Tab Nat := (List.range 4).foldl (fun t i => Tab.put 0 t (i + 1) (f (i + 1))) []
    let allow := tab (fun b => if mine b then own b + shares.getD (b - 1) 0 else 0)
    s.setDie d { s.die d with
      sentC0 := tab (fun b => s.dieClaim d b true), sentCn := tab own, allow := allow, known := allow })

/-- The runs of budgets over B and of C0 over Rsv kept for R223, and the ends of BUDGET_OVER and P0_OVER. -/
def State.overRuns (s : State) : State :=
  let isOver (b : Nat) : Bool := decide (s.budget b < ((s.sumP0 b + s.sumPn b : Nat) : Int))
  let pOver (b : Nat) : Bool := decide (s.reserve b < s.sumP0 b)
  let run (t : Tab Nat) (f : Nat → Bool) : Tab Nat :=
    (List.range 4).foldl (fun t i => Tab.put 0 t (i + 1)
      (if f (i + 1) then (if Tab.at 0 t (i + 1) = 0 then s.now + 1 else Tab.at 0 t (i + 1)) else 0)) t
  let stop (m : Nat) (f : Nat → Bool) : Nat := (List.range 4).foldl (fun m i => if f (i + 1) then m else Machine.clearBit m i) m
  let v := s.damper
  { s with damper := { v with overSince := run v.overSince isOver, p0Since := run v.p0Since pOver,
                              overStop := stop v.overStop isOver, p0Stop := stop v.p0Stop pOver } }

/-- Sheds that a P0 turn-on admitted since the last exchange causes (R217): P3 channels while a budget has C0 + Cn above B. -/
def State.p0Sheds (s : State) : State :=
  if s.busDies.any (fun d => (s.die d).p0New) then
    let s := s.each s.busDies (fun s d => s.setDie d { s.die d with p0New := false })
    s.each [1, 2, 3, 4] (fun s b =>
      s.shedWhile b (fun s => decide (s.budget b < ((s.sumP0 b + s.sumPn b : Nat) : Int))) (s.shedable b none))
  else s

/-- P_logic plus the channel dissipation claims (R94 Q4, R224). -/
def State.totalWatts (s : State) : Int :=
  sigInt (s.get (.grate s.busDie) F.DMP_LOGIC_W 0) + ((s.sumP0 4 + s.sumPn 4 : Nat) : Int)

/-- The runs of the two DERATE conditions kept (R224): the total above the dissipation budget less 3 W, and both end conditions. -/
def State.derateRuns (s : State) : State :=
  let total := s.totalWatts
  let most := sigInt (s.get (.grate s.busDie) F.DMP_DISS_BUDGET 0)
  let t := sigInt (s.get (.grate s.busDie) F.DMP_COOLANT 0)
  let run (c : Bool) (o : Option Nat) : Option Nat := if c then (if o.isSome then o else some s.now) else none
  let v := s.damper
  { s with damper := { v with derateSince := run (decide (most - units 3 < total)) v.derateSince,
                              derateOkSince := run (decide (t ≤ units 68 ∧ total ≤ most - units 6)) v.derateOkSince } }

/-- BUDGET_EXCHANGE (R216): readings of the four baseplate sensors, the supply die's report, and the dies whose message is missing. -/
def execBudgetExchange (coolant : List Word40) (pLogic : Option Word40) (silent : BitVec 4) (s : State) : Out :=
  let s := s.each (List.range 4) (fun s d => s.setDie d { s.die d with present := !silent.getLsbD d })
  ok (match s.busDies with
  | [] => s
  | d :: l =>
    let gap := decide (d ≠ 0 ∨ l.length < 3)
    let ts := coolant.map (fun w => sigInt w.toNat)
    let t := (ts.map (fun r => coolantOf r (s.calOf d 0x1C8 0))).foldl max (units (-512 * 1024))
    let bad := ts.any (fun r => decide (r < units (-50) ∨ units 150 < r))
    let s := s.showModule (if ts = [] then units 85 else t) (bad || ts == []) ((pLogic.map (fun w => w.toNat)).getD (47 * q20))
    let s := if gap ∧ ¬ s.damper.gap then s.logBoth 0x408 (23 + d) [] else s
    let s := { s with damper := { s.damper with gap := gap } }
    let s := s.p0Sheds
    let s := s.each s.heldOrder State.judgeHeld
    s.overRuns.derateRuns.allot.showFlags)

/-- HOLD_EXPIRY (R218): a hold has run out. The exchange that follows judges every held turn-on in its order, this one as expired. -/
def execHoldExpiry (d : Fin 4) (n : Fin 16) (s : State) : Out :=
  let c := 16 * d.val + n.val
  ok (match (s.chan c).hold with
    | some h =>
      let s := s.due h.until_
      s.each s.heldOrder State.judgeHeld
    | none => s)

/-- A world 0 event of the dies (R228), at most one per code and budget in 10 ms but for BUDGET_OVER. -/
def State.dieEvent (s : State) (d code b : Nat) (words : List Nat) : State :=
  if code = 3 then s.eventBoth 0 3 stOk code 0 words
  else match limited (s.die d).lastEvt (code * 8 + b) s.now with
    | some t => (s.setDie d { s.die d with lastEvt := t }).eventBoth 0 3 stOk code 0 words
    | none => s

/-- OVER_TIME in ns (R223, R229). -/
def State.overTime (s : State) : Nat := clampNat 10 10000 (s.leastOf F.DMP_CFG 10000) * 1000000

/-- Budget `k` has been over for OVER_TIME (R223): P3 channels are shed, and where none is left and it is still over, BUDGET_OVER is set. -/
def State.budgetOver (s : State) (k : Nat) : State :=
  let d := s.busDie
  let total (s : State) : Nat := s.sumP0 k + s.sumPn k
  let isOver (s : State) : Bool := decide (s.budget k < ((total s : Nat) : Int))
  let s := s.shedWhile k isOver (s.shedable k none)
  if isOver s then
    let s := { s with damper := { s.damper with overStop := Machine.setBit s.damper.overStop (k - 1) } }
    let s := s.showFlags.dieEvent d 3 k [k, sigWord (total s), sigWord (s.budget k)]
    s.logBoth 0x406 (23 + d) [.nar 4 k, .wide (sigWord (total s)), .wide (sigWord (s.budget k))]
  else s

/-- C0 of budget `k` has exceeded Rsv for OVER_TIME: P0_OVER (R223). -/
def State.reserveOver (s : State) (k : Nat) : State :=
  let d := s.busDie
  let s := { s with damper := { s.damper with p0Stop := Machine.setBit s.damper.p0Stop (k - 1) } }
  let s := s.showFlags.dieEvent d 4 k [k, sigWord (s.sumP0 k), sigWord (s.reserve k)]
  s.logBoth 0x407 (23 + d) [.nar 4 k, .wide (sigWord (s.sumP0 k)), .wide (sigWord (s.reserve k))]

/-- The instant at which the run of budget `k` over B is OVER_TIME long, while BUDGET_OVER does not stand yet. -/
def State.overDue (s : State) (k : Nat) : Option Nat :=
  if Tab.at 0 s.damper.overSince k = 0 ∨ s.damper.overStop.testBit (k - 1) then none
  else some (Tab.at 0 s.damper.overSince k - 1 + s.overTime)

/-- The same of C0 over Rsv and P0_OVER. -/
def State.reserveDue (s : State) (k : Nat) : Option Nat :=
  if Tab.at 0 s.damper.p0Since k = 0 ∨ s.damper.p0Stop.testBit (k - 1) then none
  else some (Tab.at 0 s.damper.p0Since k - 1 + s.overTime)

/-- The instant `o`, if any, is not after `t`. -/
def dueBy (o : Option Nat) (t : Nat) : Bool := match o with
  | some a => decide (a ≤ t)
  | none => false

/-- BUDGET_OVER_TIME (R223): a budget has been over B, or its C0 over Rsv, at every exchange for OVER_TIME. The older of its two runs ends,
and the other one with it only when its time has come too. -/
def execBudgetOverTime (b : Fin 4) (s : State) : Out :=
  let k := b.val + 1
  ok (if s.busDies = [] then s
  else match [s.overDue k, s.reserveDue k].filterMap id with
    | [] => s
    | a :: l =>
      let s' := s.due (l.foldl min a)
      let r := if dueBy (s.overDue k) s'.now then s'.budgetOver k else s'
      if dueBy (s.reserveDue k) s'.now then r.reserveOver k else r)

/-! ## DERATE and RIDE (R224, R225) -/

/-- The DERATE condition asserted or ended, and shown on every die of the bus. -/
def State.derate (s : State) (on : Bool) : State := ({ s with damper := { s.damper with derate := on } }).showFlags

/-- DERATE_ASSERT (R224): the coolant above 70 degrees, or the total above the budget less 3 W for 100 ms. -/
def execDerateAssert (s : State) : Out :=
  ok (if s.busDies = [] then s
  else if units 70 < sigInt (s.get (.grate s.busDie) F.DMP_COOLANT 0) then s.derate true
  else match s.damper.derateSince with
    | some t => (s.due (t + 100000000)).derate true
    | none => s)

/-- DERATE_END (R224): both end conditions have held for 10 s. -/
def execDerateEnd (s : State) : Out :=
  ok (match s.damper.derateOkSince with
    | some t => (s.due (t + 10000000000)).derate false
    | none => s)

/-- RIDE asserted or ended by die `d`, and shown on every die (R225). -/
def State.setRide (s : State) (d : Nat) (on : Bool) : State := (s.setDie d { s.die d with ride := on }).showFlags

/-- RIDE_ASSERT (R225): the die's feed bus has stayed below 16 V for 1 ms. -/
def execRideAssert (d : Fin 4) (s : State) : Out := ok (if s.present (dieUnit d) then s.setRide d true else s)

/-- RIDE_END (R225): the die's feed bus has stayed above 16.5 V for 100 ms. -/
def execRideEnd (d : Fin 4) (s : State) : Out := ok (if s.present (dieUnit d) then s.setRide d false else s)

end Sys2Proof.Machine
end

