-- ==== Sys2Proof/Machine/Images.lean ====
section
/-! DEFINITION. Images (chapter 04 R121 to R126): key slots that verify them (R447), slots and banks in NOR (R124, R441), the header
and records (R122), the checks (R123), the working copy, and naming a field (R514). -/
namespace Sys2Proof.Machine
open Sys2Proof

/-! ## Key slots (R446, R447) -/

/-- Slot `k` holds a valid, unrevoked key of USE `u`. -/
def State.keyIs (s : State) (x : Side) (k u : Nat) : Bool :=
  decide (k < 64) && s.is (.side x) F.KEYS_SLOT_VALID k && !s.is (.side x) F.KEYS_SLOT_REVOKED k &&
    s.get (.side x) F.KEYS_SLOT_USE k == u

/-- Slot `k` verifies images of KIND `kind` (R447). -/
def State.imageKey (s : State) (x : Side) (k kind : Nat) : Bool :=
  s.keyIs x k 1 &&
    (if kind = 2 then decide (k < 8) else !s.is (.side x) F.KEYS_STATUS_OWNED 0 || decide (8 ≤ k ∧ k < 40))

/-- Slot `k` verifies Poker certificates (R447). -/
def State.certKey (s : State) (x : Side) (k : Nat) : Bool :=
  s.keyIs x k 2 && (!s.is (.side x) F.KEYS_STATUS_DEBUG_OWNED 0 || decide (8 ≤ k ∧ k < 40))

/-- The material of key slot `k`: the factory's for slots 0 to 2, else what filled it. -/
def State.keyOf (s : State) (x : Side) (k : Nat) : List Nat :=
  if k < 3 then (Config.factoryKey k).map (fun b => b.toNat) else Tab.at [] (s.side x).keyMat k

/-! ## Naming a field (R514) -/

/-- The field that an address and a bit range name, with its holder and index. -/
def fieldAt (x : Side) (a lo hi : Nat) : Option (Holder × Fld × Nat) :=
  match regAt x a with
  | some (h, r, i) => (r.fields.find? (fun f => f.lo == lo && f.hi == hi)).map (fun f => (h, f, i))
  | none => none

/-- A field of a dynamic WOT region: RW, and no configuration (R427, R459). -/
def dynField (reg i : Nat) : Bool := (reg == F.WOT_REG_BASE.reg || reg == F.WOT_REG_PAGES.reg || reg == F.WOT_REG_PERM_R.reg) && decide (64 ≤ i)

/-- The merge class of a field at index `i`. -/
def Fld.clsAt (f : Fld) (i : Nat) : MergeClass := if dynField f.reg i then .none else f.cls

/-- A value fits in a field: as a two's-complement value of 40 bits for a signed field, else unsigned (R123, R127). -/
def Fld.fits (f : Fld) (v : Nat) : Bool :=
  if f.sgn then decide (-(2 ^ (f.width - 1) : Int) ≤ toSigned 40 v ∧ toSigned 40 v < 2 ^ (f.width - 1)) else decide (v < 2 ^ f.width)

/-! ## Fixed records (R117) -/

/-- The field of a gate of CFG_GATE by its bit. -/
def gateFld (b : Nat) : Fld :=
  if b = 0 then F.CFG_GATE_IMAGE_LOAD else if b = 1 then F.CFG_GATE_FIELD_WRITE else if b = 2 then F.CFG_GATE_CAL_WRITE
  else F.CFG_GATE_HARNESS_BURN

/-- Address of CFG_GATE (R121). -/
def gateAddr : Nat := 0x40020100

/-- The fixed records: overlay, bit of CFG_GATE and value. -/
def fixedGates : List (Nat × Nat × Nat) :=
  [(11, 0, 0), (11, 1, 0), (11, 2, 0), (11, 3, 0), (9, 0, 0), (9, 2, 0), (9, 3, 0), (5, 1, 1), (5, 2, 1), (5, 3, 1), (4, 0, 1)]

/-- The fixed records as records. -/
def fixedRecs : List Rec := fixedGates.map (fun g => ⟨gateAddr, g.2.1, g.2.1, g.1, g.2.2⟩)

/-- The record `r` names a field that a fixed record of the same overlay sets. -/
def isFixed (r : Rec) : Bool := fixedRecs.any (fun q => q.addr == r.addr && q.lo == r.lo && q.owner == r.owner)

/-! ## Slots and banks (R124, R441, R442) -/

/-- An image slot: KIND, overlay index or 0xFF, offset of its first bank in NOR and size of a bank. -/
structure Slot where
  kind : Nat
  ovl : Nat
  off : Nat
  size : Nat
  deriving DecidableEq, Repr

/-- The slot that a TARGET names (R91). -/
def slotOf (t : Nat) : Option Slot :=
  if t = 0 then some ⟨0, 0xFF, 0x900000, 0x100000⟩
  else if 0x100 ≤ t ∧ t < 0x10C then some ⟨1, t - 0x100, 0xB00000 + (t - 0x100) * 0x80000, 0x40000⟩
  else if t = 0x200 then some ⟨2, 0xFF, 0x100000, 0x400000⟩
  else if 0x300 ≤ t ∧ t < 0x308 then some ⟨3, 0xFF, 0x1100000 + (t - 0x300) * 0xC00000, 0x600000⟩
  else none

/-- Address of bank `b` of a slot. -/
def Slot.bank (q : Slot) (b : Nat) : Nat := 0x80000000 + q.off + b * q.size

/-- NOR bytes of side `x` from `a` on erased: they read 0xFF. -/
def State.erase (s : State) (x : Side) (a n : Nat) : State := s.store x a (List.replicate n 0xFF)

/-- Address of the bank pointer of slot `t` (R441). -/
def pointerAddr (t : Nat) : Nat :=
  0x80000000 + (if t = 0 then 0 else if t < 0x200 then t - 0x100 + 1 else if t = 0x200 then 13 else t - 0x300 + 14)

/-- The bank pointer of slot `t` in NOR (R124): 0 none, else bank + 1. -/
def State.pointer (s : State) (x : Side) (t : Nat) : Nat := (s.byte x (pointerAddr t)).toNat % 3

/-- The bank pointer of slot `t` set. -/
def State.setPointer (s : State) (x : Side) (t u : Nat) : State := s.store x (pointerAddr t) [u]

/-! ## Header and records (R122) -/

/-- VERSION of the image at `a`. -/
def State.imgVersion (s : State) (x : Side) (a : Nat) : Nat := s.loadLE x (a + 8) 5

/-- RECORDS of the image at `a`. -/
def State.imgRecords (s : State) (x : Side) (a : Nat) : Nat := s.loadLE x (a + 0x1C) 4

/-- LENGTH of the image at `a`. -/
def State.imgLength (s : State) (x : Side) (a : Nat) : Nat := s.loadLE x (a + 0x20) 4

/-- Record `i` of the image at `a`. -/
def State.imgRec (s : State) (x : Side) (a i : Nat) : Rec :=
  let b := a + 0xC0 + 16 * i
  ⟨s.loadLE x b 5, s.loadLE x (b + 5) 1, s.loadLE x (b + 6) 1, s.loadLE x (b + 7) 1, s.loadLE x (b + 8) 5⟩

/-- The records of the image at `a`, as many as its length holds. -/
def State.imgRecs (s : State) (x : Side) (a : Nat) : List Rec :=
  (List.range (min (s.imgRecords x a) ((s.imgLength x a - 192) / 16))).map (s.imgRec x a)

/-- The SHA-384 digest of an image as its header describes it. -/
def State.imgDigest (s : State) (x : Side) (a : Nat) : List Nat :=
  sha384 (s.load x a 0x30 ++ s.load x (a + 0xC0) (s.imgLength x a - 0xC0))

/-- The signature of the image at `a` verifies under its SIGNER (R123 check 1). -/
def State.imgSigned (s : State) (x : Side) (a kind : Nat) : Bool :=
  let k := s.loadLE x (a + 0x19) 1
  s.imageKey x k kind &&
    ecdsaVerify (s.keyOf x k) (sha384 (s.load x a 0x60)) (s.load x (a + 0x60) 96)

/-- The digest and the header of the image at `a` are as a slot asks (R123 check 2). -/
def State.imgSound (s : State) (x : Side) (a : Nat) (q : Slot) : Bool :=
  let len := s.imgLength x a
  let rs := s.imgRecords x a
  s.load x a 4 == [0x5A, 0x36, 0x34, 0x30] && s.loadLE x (a + 4) 2 == 1 && s.loadLE x (a + 0x18) 1 == 0x21 &&
    s.loadLE x (a + 6) 1 == q.kind && (decide (q.kind ≠ 1) || s.loadLE x (a + 7) 1 == q.ovl) && decide (192 ≤ len ∧ len ≤ q.size) &&
    (decide (1 < q.kind) || len == 192 + 16 * rs) && s.imgDigest x a == s.load x (a + 0x30) 48

/-- What a record must meet by itself (R123 check 4). That an OWNER other than those of R122 fails it is a DESIGN CHOICE (log entry 112). -/
def recSound (x : Side) (q : Slot) (r : Rec) : Bool :=
  match fieldAt x r.addr r.lo r.hi with
  | some (_, f, i) =>
    f.clsAt i != .none && f.fits r.value && !(r.owner != 0xFF && f.cls == .base) && !isFixed r &&
      (if q.kind = 1 then r.owner == q.ovl else decide (r.owner = 0xFF ∨ r.owner < 12))
  | none => false

/-- The order of records: OWNER, then ADDRESS, then LO (R123). -/
def recLess (a b : Rec) : Bool :=
  decide (a.owner < b.owner) || (a.owner == b.owner && (decide (a.addr < b.addr) || (a.addr == b.addr && decide (a.lo < b.lo))))

/-- Index of the first record that fails check 4 of R123, if any. -/
def badRecord (x : Side) (q : Slot) : List Rec → Option Rec → Nat → Option Nat
  | [], _, _ => none
  | r :: l, prev, i =>
    if recSound x q r && (match prev with
      | some p => recLess p r
      | none => true) then badRecord x q l (some r) (i + 1) else some i

/-- BOUND of the image at `a` is the version of the running or the pending mantel image (R123 check 3). -/
def State.imgBound (s : State) (x : Side) (a : Nat) : Bool :=
  let b := s.loadLE x (a + 0x10) 8
  let mantel := (slotOf 0).map (fun q => s.imgVersion x (q.bank (Tab.at 0 (s.side x).used 0 - 1)))
  b == s.get (.side x) F.CFG_MANTEL_VERSION 0 || (Tab.at 0 (s.side x).used 0 != 0 && mantel == some b)

/-- The checks 1 to 4 of R123 on the image at `a` for a slot: the status of the first failure, with the record's index. `boot`: at
wake the binding is judged against the mantel image in use. -/
def State.imageCheck (s : State) (x : Side) (a : Nat) (q : Slot) : Option (Nat × Option Nat) :=
  if ¬ s.imgSigned x a q.kind then some (stSignature, none)
  else if ¬ s.imgSound x a q then some (stCheck, none)
  else if q.kind = 1 ∧ ¬ s.imgBound x a then some (stCheck, none)
  else if q.kind ≤ 1 then (badRecord x q (s.imgRecs x a) none 0).map (fun i => (stCheck, some i))
  else none

/-- IMAGE_REJECTED (R123). -/
def State.imageRejected (s : State) (x : Side) (slot : Nat) (r : Nat × Option Nat) : State :=
  s.log x 0x202 2 ([.nar 12 slot, .nar 8 r.1] ++ (match r.2 with
    | some i => [.nar 8 i]
    | none => []))

/-! ## The working copy (R125, R127) -/

/-- Address of the image in use in slot `t` (TARGET), if any. -/
def State.imageInUse (s : State) (x : Side) (t : Nat) : Option Nat :=
  let u := Tab.at 0 (s.side x).used t
  match slotOf t with
  | some q => if u = 0 then none else some (q.bank (u - 1))
  | none => none

/-- Address of the overlay image n in use, if it is bound to the mantel image in use (R125). -/
def State.overlayInUse (s : State) (x : Side) (n : Nat) : Option Nat :=
  match s.imageInUse x (0x100 + n), s.imageInUse x 0 with
  | some a, some m => if s.loadLE x (a + 0x10) 8 = s.imgVersion x m then some a else none
  | _, _ => none

/-- The records that the images in use give owner `o` (0xFF base). -/
def State.imageRecs (s : State) (x : Side) (o : Nat) : List Rec :=
  let mantel := match s.imageInUse x 0 with
    | some m => (s.imgRecs x m).filter (fun r => r.owner == o)
    | none => []
  if o < 12 then (match s.overlayInUse x o with
    | some a => s.imgRecs x a
    | none => mantel)
  else mantel

/-- The owners of records: the base and the twelve overlays. -/
def owners : List Nat := 0xFF :: List.range 12

/-- The working copy taken anew from the images in use for the owners `os` (R127). -/
def State.reload (s : State) (x : Side) (os : List Nat) : State :=
  let v := s.side x
  let v := { v with
    work := v.work.filter (fun r => !os.contains r.owner) ++ os.flatMap (s.imageRecs x)
    written := v.written.filter (fun o => !os.contains o) }
  (s.setSide x v).set (.side x) F.CFG_STATUS_FIELD_WRITTEN 0 (b2n (v.written != []))

/-- The effect of a load once its OK reply is given (R125): the records of a mantel or overlay image enter the working copy. A world image takes
effect at a restart or a wake (R442). -/
def State.imageApply (s : State) (x : Side) (t : Nat) : State :=
  if 0x300 ≤ t then s else
  let v := s.side x
  let s := s.setSide x { v with used := Tab.put 0 v.used t (s.pointer x t) }
  if t = 0 then s.reload x owners
  else if t < 0x200 then (if (s.overlayInUse x (t - 0x100)).isSome then s.reload x [t - 0x100] else s)
  else s

end Sys2Proof.Machine
end

