-- ==== Sys2Proof/Machine/Keys.lean ====
section
/-! DEFINITION. The key store (chapter 15 R446 to R449). -/
namespace Sys2Proof.Machine
open Sys2Proof

/-- The TYPE that a USE goes with (R446); 0 for a USE that does not exist. -/
def useType (u : Nat) : Nat :=
  if u = 1 ∨ u = 2 then 2 else if u = 3 ∨ u = 4 ∨ u = 5 then 1 else if u = 6 then 3 else 0

/-- The key store, as world 0, may read (`k` = 0) or write (1) `n` bytes of local SRAM at `a` (R448). -/
def State.keyMay (s : State) (x : Side) (a n k : Nat) : Bool :=
  n == 0 || (inSram a n && s.wotRange x a n 0 k && (k == 0 || !s.mirLockedRange x a n))

/-- Bytes of a key of TYPE `t` at ADDR (R448). -/
def keyLen (t : Nat) : Nat := if t = 2 then 96 else 32

/-- A key slot filled with material (R446). -/
def State.fillSlot (s : State) (x : Side) (k owner type use : Nat) (otp : Bool) (m : List Nat) : State :=
  let h := Holder.side x
  let s := ((s.set h F.KEYS_SLOT_VALID k 1).set h F.KEYS_SLOT_OTP k (b2n otp)).set h F.KEYS_SLOT_OWNER k owner
  let s := (s.set h F.KEYS_SLOT_TYPE k type).set h F.KEYS_SLOT_USE k use
  s.setSide x { s.side x with keyMat := Tab.put [] (s.side x).keyMat k m }

/-- A volatile slot emptied (R448). -/
def State.emptySlot (s : State) (x : Side) (k : Nat) : State :=
  let h := Holder.side x
  let s := (s.set h F.KEYS_SLOT_VALID k 0).set h F.KEYS_SLOT_OWNER k 0
  let s := (s.set h F.KEYS_SLOT_TYPE k 0).set h F.KEYS_SLOT_USE k 0
  s.setSide x { s.side x with keyMat := Tab.put [] (s.side x).keyMat k [] }

/-- How a key store operation ends: an ERRCODE, or the state after it. -/
abbrev KeyEnd := Except Nat State

/-- The operation goes on when `c` holds, else it ends with ERRCODE `e`. -/
def keyNeed (c : Bool) (e : Nat) (k : KeyEnd) : KeyEnd := if c then k else .error e

/-- The slot is filled and, if `revocable`, not revoked (ERRCODE 1, 3). -/
def State.keyFilled (s : State) (x : Side) (k : Nat) (use : Bool) (f : KeyEnd) : KeyEnd :=
  keyNeed (s.is (.side x) F.KEYS_SLOT_VALID k) 1 (keyNeed use 2 (keyNeed (!s.is (.side x) F.KEYS_SLOT_REVOKED k) 3 f))

/-- INSTALL (1) and BURN (2): TYPE and USE agree, the slot is of the operation's kind and empty, the gate is open for BURN, and the
input is accessible (R448). -/
def State.keyFill (s : State) (x : Side) (burn : Bool) (k owner type use addr : Nat) : KeyEnd :=
  keyNeed (!burn || decide (8 ≤ k ∧ k < 40)) 1
    (keyNeed (useType use == type && type != 0) 2
      (keyNeed (!s.is (.side x) F.KEYS_SLOT_REVOKED k) 3
        (keyNeed ((burn || decide (40 ≤ k)) && !s.is (.side x) F.KEYS_SLOT_VALID k) 4
          (keyNeed (!burn || s.is (.side x) F.KEYS_GATE 0) 5
            (keyNeed (s.keyMay x addr (keyLen type) 0 && s.keyMay x addr (keyLen type) 1) 6
              (let m := s.load x addr (keyLen type)
               let s := s.fillSlot x k owner type use burn m
               let s := if burn ∧ use = 1 then s.set (.side x) F.KEYS_STATUS_OWNED 0 1 else s
               let s := if burn ∧ use = 2 then s.set (.side x) F.KEYS_STATUS_DEBUG_OWNED 0 1 else s
               .ok (s.write x addr (List.replicate (keyLen type) 0))))))))

/-- REVOKE (3): an integrator slot, not yet revoked, with the gate open (R447, R448). -/
def State.keyRevoke (s : State) (x : Side) (k : Nat) : KeyEnd :=
  keyNeed (decide (8 ≤ k ∧ k < 40)) 1 (keyNeed (!s.is (.side x) F.KEYS_SLOT_REVOKED k) 3
    (keyNeed (s.is (.side x) F.KEYS_GATE 0) 5 (.ok (s.set (.side x) F.KEYS_SLOT_REVOKED k 1))))

/-- ERASE (4) of a volatile slot. -/
def State.keyErase (s : State) (x : Side) (k : Nat) : KeyEnd := keyNeed (decide (40 ≤ k)) 4 (.ok (s.emptySlot x k))

/-- CMAC (5) over LEN bytes. -/
def State.keyCmac (s : State) (x : Side) (k addr out len : Nat) : KeyEnd :=
  s.keyFilled x k (s.get (.side x) F.KEYS_SLOT_USE k == 5)
    (keyNeed (s.keyMay x addr len 0 && s.keyMay x out 16 1) 6
      (.ok (s.write x out (cmac (s.keyOf x k) (s.load x addr len)))))

/-- The per-message secret of a signature, drawn from the entropy source: six free values. -/
def State.secret (s : State) : Nat := (List.range 6).foldl (fun v i => v * 2 ^ 64 + (Config.freeValue (s.free + i)).toNat) 0

/-- SIGN (6) of a 48-byte digest; the secret of the signature is a free value. -/
def State.keySign (s : State) (x : Side) (k addr out : Nat) : KeyEnd :=
  s.keyFilled x k (s.get (.side x) F.KEYS_SLOT_USE k == 6)
    (keyNeed (s.keyMay x addr 48 0 && s.keyMay x out 96 1) 6
      (.ok ({ s with free := s.free + 6 }.write x out (ecdsaSign (s.keyOf x k) (s.load x addr 48) s.secret))))

/-- VERIFY (7) with a public key slot. -/
def State.keyVerify (s : State) (x : Side) (k addr : Nat) : KeyEnd :=
  s.keyFilled x k (s.get (.side x) F.KEYS_SLOT_TYPE k == 2)
    (keyNeed (s.keyMay x addr 144 0) 6
      (keyNeed (ecdsaVerify (s.keyOf x k) (s.load x addr 48) (s.load x (addr + 48) 96)) 7 (.ok s)))

/-- PUBLIC (8) of a TYPE 2 or 3 slot. -/
def State.keyPublic (s : State) (x : Side) (k out : Nat) : KeyEnd :=
  let t := s.get (.side x) F.KEYS_SLOT_TYPE k
  s.keyFilled x k (t == 2 || t == 3)
    (keyNeed (s.keyMay x out 96 1) 6
      (.ok (s.write x out (if t = 2 then s.keyOf x k else ecdsaPublic (s.keyOf x k)))))

/-- How the operation with the values latched at GO ends. -/
def State.keyRun (s : State) (x : Side) : List Nat → KeyEnd
  | [op, k, owner, type, use, addr, out, len] =>
    if op = 1 then s.keyFill x false k owner type use addr
    else if op = 2 then s.keyFill x true k owner type use addr
    else if op = 3 then s.keyRevoke x k
    else if op = 4 then s.keyErase x k
    else if op = 5 then s.keyCmac x k addr out len
    else if op = 6 then s.keySign x k addr out
    else if op = 7 then s.keyVerify x k addr
    else if op = 8 then s.keyPublic x k out
    else .error 1
  | _ => .error 1

/-- A write of KEYS_OP_CTRL (R448): GO starts the operation unless one runs. -/
def State.keysGo (s : State) (x : Side) (v : Nat) : State :=
  let h := Holder.side x
  let s := (s.set h F.KEYS_OP_CTRL_SLOT 0 (bits v 13 8)).set h F.KEYS_OP_CTRL_OP 0 (bits v 3 0)
  if v.testBit 31 ∧ ¬ s.is h F.KEYS_OP_STATUS_BUSY 0 then
    let s := s.set h F.KEYS_OP_STATUS_BUSY 0 1
    s.setSide x { s.side x with keyOp := some [bits v 3 0, bits v 13 8, s.get h F.KEYS_OP_ATTR_OWNER 0,
      s.get h F.KEYS_OP_ATTR_TYPE 0, s.get h F.KEYS_OP_ATTR_USE 0, s.get h F.KEYS_OP_ADDR 0, s.get h F.KEYS_OP_OUT 0,
      s.get h F.KEYS_OP_LEN 0] }
  else s

/-- A write of KEYS_OP_CTRL that starts operation `op` on a slot (R448). -/
def State.keysStart (s : State) (x : Side) (o : Origin) (op slot : Nat) : State :=
  s.guarded x o 0x40140008 4 true (fun s => s.keysGo x (2 ^ 31 + slot * 256 + op))

/-- KEYS_INSTALL (R448). -/
def execKeysInstall (x : Side) (o : Origin) (slot : Fin 64) (s : State) : Out := ok (s.keysStart x o 1 slot)

/-- KEYS_BURN (R448). -/
def execKeysBurn (x : Side) (o : Origin) (slot : Fin 64) (s : State) : Out := ok (s.keysStart x o 2 slot)

/-- KEYS_REVOKE (R448). -/
def execKeysRevoke (x : Side) (o : Origin) (slot : Fin 64) (s : State) : Out := ok (s.keysStart x o 3 slot)

/-- KEYS_ERASE (R448). -/
def execKeysErase (x : Side) (o : Origin) (slot : Fin 64) (s : State) : Out := ok (s.keysStart x o 4 slot)

/-- KEYS_CMAC (R448). -/
def execKeysCmac (x : Side) (o : Origin) (slot : Fin 64) (s : State) : Out := ok (s.keysStart x o 5 slot)

/-- KEYS_SIGN (R448). -/
def execKeysSign (x : Side) (o : Origin) (slot : Fin 64) (s : State) : Out := ok (s.keysStart x o 6 slot)

/-- KEYS_VERIFY (R448). -/
def execKeysVerify (x : Side) (o : Origin) (slot : Fin 64) (s : State) : Out := ok (s.keysStart x o 7 slot)

/-- KEYS_PUBLIC (R448). -/
def execKeysPublic (x : Side) (o : Origin) (slot : Fin 64) (s : State) : Out := ok (s.keysStart x o 8 slot)

/-- Where an operation reads its input: an address and a length (R448). -/
def keyInput : List Nat → Nat × Nat
  | [op, _, _, type, _, addr, _, len] =>
    (addr, if op = 1 ∨ op = 2 then keyLen type else if op = 5 then len else if op = 6 then 48 else if op = 7 then 144 else 0)
  | _ => (0, 0)

/-- A line that an operation reads or writes is locked by the other side (R302). -/
def State.keyHeld (s : State) (x : Side) : List Nat → Bool
  | [op, k, o, type, u, addr, out, len] =>
    s.engineWaits x addr (keyInput [op, k, o, type, u, addr, out, len]).2 ||
      s.engineWaits x out (if op = 5 then 16 else if op = 6 ∨ op = 8 then 96 else 0)
  | _ => false

/-- An operation has read its input: it ended well, or failed at the verification. -/
def keyHasRead : KeyEnd → Bool
  | .ok _ => true
  | .error e => e == 7

/-- How an operation ends with what the ECC finds in its input (R28): an uncorrectable word refuses the access (DESIGN CHOICE, log entry 110). -/
def State.keyEnd (s : State) (x : Side) (l : List Nat) (lost corr : Option Word40) : State × KeyEnd :=
  let q := if keyHasRead (s.keyRun x l) then s.engineRead x 9 0 (keyInput l).1 (keyInput l).2 lost corr else (false, s)
  (q.2, if q.1 then .error 6 else q.2.keyRun x l)

/-- KEYS_OP_COMPLETE (R448): the operation ends with DONE, or with ERR and ERRCODE, and latches source 92. `lost` and `corr` name a word of its
input that the ECC finds uncorrectable, or corrects. -/
def execKeysOpComplete (x : Side) (lost corr : Option Word40) (s : State) : Out :=
  let h := Holder.side x
  ok (match (s.side x).keyOp with
    | none => s
    | some l =>
      if s.keyHeld x l then s
      else
        let s := (s.setSide x { s.side x with keyOp := none }).set h F.KEYS_OP_STATUS_BUSY 0 0
        match s.keyEnd x l lost corr with
        | (_, .ok s) => ((s.set h F.KEYS_OP_STATUS_DONE 0 1).set h F.KEYS_OP_STATUS_ERRCODE 0 0).intr x 92
        | (s, .error e) => ((s.set h F.KEYS_OP_STATUS_ERR 0 1).set h F.KEYS_OP_STATUS_ERRCODE 0 e).intr x 92)

end Sys2Proof.Machine
end

