-- ==== Sys2Proof/Machine/Gates.lean ====
section
/-! DEFINITION. Gateways (chapter 15 R429 to R434), the Poker port (R450 to R453), WOT synchronisation (R427), security events (R456,
R458). -/
namespace Sys2Proof.Machine
open Sys2Proof

/-! ## Gateways -/

/-- A custom-0 word as a gateway instruction (R430): kind 0 CALL, 1 LAND, 2 RET with its gate; none for any other form. -/
def gateForm (w : Nat) : Option (Nat × Nat) :=
  let f := bits w 14 12
  let n := bits w 31 20
  if bits w 11 7 = 0 ∧ bits w 19 15 = 0 ∧ n < 256 ∧ f < 3 ∧ (f = 2 → n = 0) then some (f, n) else none

/-- The major opcode custom-0. -/
def isCustom0 (w : Nat) : Bool := bits w 6 0 == 0x0B

/-- The trap of a gate fault (R434): an illegal-instruction exception, cause 2, in the current world's bank (R422). -/
def State.gateTrap (s : State) (x : Side) (h reason n epc : Nat) : State :=
  s.setHart x h ((s.hart x h).trap (s.coreWorld x h) 2 0 (reason * 0x100 + n) epc)

/-- A gate fault (R434, R456): counted, logged with the hart, the reason and the gate, and trapped. -/
def State.gateFault (s : State) (x : Side) (h reason n epc : Nat) : State :=
  let s := (s.inc (.side x) F.WOT_GATE_FAULT_COUNT 0).log x 0xB00 13 [.nar 8 h, .nar 8 reason, .nar 8 n]
  let s := if reason = 1 ∨ reason = 4 ∨ reason = 8 then s.secEvent x 2 else s
  s.gateTrap x h reason n epc

/-- A hart returns through a gate frame (R432): world, privilege, V bit and pc as it holds them, with the frames below it left. -/
def State.gatePop (s : State) (x : Side) (h : Nat) (f : GateFrame) (rest : List GateFrame) : State :=
  let s := s.set (.side x) F.WOT_HART_CURRENT h f.world
  s.setHart x h { s.hart x h with frames := rest, priv := f.priv, virt := f.virt, pc := f.ret, landing := none }

/-- NO_LAND (R434): the hart returns to the caller before the exception, whose mepc is the address of the GATE.CALL. -/
def State.noLand (s : State) (x : Side) (h : Nat) : State :=
  match (s.hart x h).frames with
  | f :: rest => (s.gatePop x h f rest).gateFault x h 4 f.gate (f.ret - 4)
  | [] => s

/-- A hart that executes: its side up, out of reset, not halted. -/
def State.hartRuns (s : State) (x : Side) (h : Nat) : Bool := s.up x && s.coreRuns x h

/-- Reason of the check that GATE.CALL `n` fails first, if any (R434). -/
def State.gateDenied (s : State) (x : Side) (h n : Nat) : Option Nat :=
  let t := s.get (.side x) F.WOT_GATE_CFG_TARGET n
  let w := s.get (.side x) F.WOT_HART_CURRENT h
  let fs := (s.hart x h).frames
  if ¬ (s.get (.side x) F.WOT_GATE_CFG_CALLERS n).testBit w then some 1
  else if s.get (.side x) F.WOT_WORLD_STATE_STATE t ≠ 3 then some 2
  else if 8 ≤ fs.length then some 3
  else if t = w ∨ fs.any (fun f => f.world == t) then some 5
  else none

/-- GATE.CALL `n` retires at `pc` (R431), and event 0x15 counts it in the caller's world (R475). -/
def State.gateEnter (s : State) (x : Side) (h n pc priv : Nat) (virt : Bool) : State :=
  match s.gateDenied x h n with
  | some r => s.gateFault x h r n pc
  | none =>
    let v := s.hart x h
    let p := s.get (.side x) F.WOT_GATE_CFG_PRIV n
    let f : GateFrame := ⟨s.get (.side x) F.WOT_HART_CURRENT h, priv, virt, pc + 4, n⟩
    let s := s.perfEvent x ⟨0x15, Fin.ofNat 16 h, Fin.ofNat 8 f.world, privBit priv virt, none, false⟩
    let s := s.set (.side x) F.WOT_HART_CURRENT h (s.get (.side x) F.WOT_GATE_CFG_TARGET n)
    s.setHart x h { v with frames := f :: v.frames, priv := if p = 2 then 3 else p, virt := false,
                           pc := s.get (.side x) F.WOT_GATE_ENTRY n, landing := some n }

/-- A safety-pair core raises an illegal-instruction exception on a custom-0 word (R430). -/
def State.pairCustom0 (s : State) (x : Side) (h w pc : Nat) : State :=
  if s.hartRuns x h ∧ isCustom0 w then
    State.irqTake (x := x) (h := h) <| State.stepEnd (x := x) (h := h) <| (s.setHart x h { s.hart x h with pc := pc }).illegal x h
  else s

/-- A custom-0 word retires on core `h`. A pair core has no gateways. An application hart that must land takes NO_LAND for anything but its GATE.LAND, another form takes FORM, and
the instruction of kind `k` has its effect `f`. Once it has retired, the hart takes a raised interrupt (R42, R433). -/
def State.gateInsn (s : State) (x : Side) (h w pc k : Nat) (f : State → Nat → State) : State :=
  if 4 ≤ h then s.pairCustom0 x h w pc
  else if ¬ s.hartRuns x h ∨ (¬ isCustom0 w ∧ (s.hart x h).landing = none) then s
  else
    let s := s.setHart x h { s.hart x h with pc := pc }
    State.irqTake (x := x) (h := h) <| State.stepEnd (x := x) (h := h) <| match (s.hart x h).landing with
    | some n =>
      if isCustom0 w ∧ gateForm w = some (1, n) then s.setHart x h { s.hart x h with landing := none, pc := pc + 4 }
      else s.noLand x h
    | none =>
      match gateForm w with
      | none => s.gateFault x h 8 (bits w 27 20) pc
      | some (q, n) => if q = k then f s n else s

/-- GATE_CALL (R431). -/
def execGateCall (x : Side) (h : Fin 6) (insn : BitVec 32) (pc : Word64) (priv : Fin 4) (virt : Bool) (s : State) : Out :=
  ok (s.gateInsn x h insn.toNat pc.toNat 0 (fun s n => s.gateEnter x h n pc.toNat priv virt))

/-- GATE_LAND (R431): a no-operation anywhere but after a GATE.CALL. -/
def execGateLand (x : Side) (h : Fin 6) (insn : BitVec 32) (pc : Word64) (s : State) : Out :=
  ok (s.gateInsn x h insn.toNat pc.toNat 1 (fun s _ => s.setHart x h { s.hart x h with pc := pc.toNat + 4 }))

/-- GATE_RET (R432). -/
def execGateRet (x : Side) (h : Fin 6) (insn : BitVec 32) (pc : Word64) (s : State) : Out :=
  ok (s.gateInsn x h insn.toNat pc.toNat 2 (fun s n =>
    match (s.hart x h).frames with
    | f :: rest => s.gatePop x h f rest
    | [] => s.gateFault x h 7 n pc.toNat))

/-! ## WOT synchronisation and the security latch -/

/-- The dynamic regions with pages, as their registers stand (R427). -/
def State.dynRegions (s : State) (x : Side) : List (Nat × Nat × Nat × Nat) :=
  (((List.range 64).map (· + 64)).filter (fun r => s.get (.side x) F.WOT_REG_PAGES r != 0)).map (fun r =>
    (r, s.get (.side x) F.WOT_REG_BASE r, s.get (.side x) F.WOT_REG_PAGES r,
      s.get (.side x) F.WOT_REG_PERM_X r * 65536 + s.get (.side x) F.WOT_REG_PERM_W r * 256 + s.get (.side x) F.WOT_REG_PERM_R r))

/-- A write of WOT_SYNC (R427). -/
def State.wotGo (s : State) (x : Side) (v : Nat) : State :=
  if v.testBit 0 ∧ ¬ s.is (.side x) F.WOT_SYNC_BUSY 0 then
    (s.setSide x { s.side x with wotLive := s.dynRegions x }).set (.side x) F.WOT_SYNC_BUSY 0 1
  else s

/-- WOT_SYNC_GO (R427). -/
def execWotSyncGo (x : Side) (o : Origin) (v : BitVec 32) (s : State) : Out :=
  ok (s.guarded x o 0x400D0038 4 true (fun s => s.wotGo x v.toNat))

/-- WOT_SYNC_COMPLETE (R427). -/
def execWotSyncComplete (x : Side) (s : State) : Out := ok (s.set (.side x) F.WOT_SYNC_BUSY 0 0)

/-- Enabled security events of side `x` in the last 10 s (R456). -/
def State.recentSec (s : State) (x : Side) : List (Nat × Nat) :=
  (s.side x).secEvents.filter (fun e => decide (s.now ≤ e.1 + 10000000000))

/-- SECURITY_LOCKDOWN (R456): the events of side `x` reach its threshold, and it sets the latch in the Ember. -/
def execSecurityLockdown (x : Side) (s : State) : Out :=
  ok (match s.recentSec x with
    | e :: l =>
      if s.up x ∧ ¬ s.ember.secLatch ∧ max 1 (s.get (.side x) F.WOT_SEC_CFG_THRESH 0) ≤ l.length + 1 then
        let s := s.setSide x { s.side x with secEvents := [] }
        ({ s with ember := { s.ember with secLatch := true } }).log x 0xB09 13 [.nar 8 e.2]
      else s
    | [] => s)

/-- A write of WOT_SEC_CTRL (R458). -/
def State.secClear (s : State) (x : Side) (v : Nat) : State :=
  if v.testBit 0 ∧ s.ember.secLatch then ({ s with ember := { s.ember with secLatch := false } }).log x 0xB0A 13 [] else s

/-- WOT_SEC_CLEAR (R458). -/
def execWotSecClear (x : Side) (o : Origin) (v : BitVec 32) (s : State) : Out :=
  ok (s.guarded x o 0x400D0008 4 true (fun s => s.secClear x v.toNat))

/-! ## The Poker port -/

/-- The debug unlock of side `x` ends (R453). -/
def State.pokerEnd (s : State) (x : Side) : State :=
  if s.is (.side x) F.POKER_STATUS_UNLOCKED 0 then
    let h := Holder.side x
    let s := ((s.set h F.POKER_STATUS_UNLOCKED 0 0).set h F.POKER_STATUS_LEVEL 0 0).set h F.POKER_STATUS_SCOPE 0 0
    let s := s.setSide x { s.side x with unlockEnd := none, tapIr := .bypass, pairHalted := false, pairStep := 0 }
    let s := s.each (List.range 4) (fun s i =>
      if (s.hart x i).halted then s.setHart x i { s.hart x i with halted := false, step := false } else s)
    s.log x 0xB08 21 []
  else s

/-- A write of POKER_CTRL (R453). -/
def State.pokerCtrl (s : State) (x : Side) (v : Nat) : State := if v.testBit 0 then s.pokerEnd x else s

/-- POKER_RELOCK (R453). -/
def execPokerRelock (x : Side) (o : Origin) (v : BitVec 32) (s : State) : Out :=
  ok (s.guarded x o 0x40180004 4 true (fun s => s.pokerCtrl x v.toNat))

/-- POKER_UNLOCK_EXPIRY (R453): DURATION has passed. -/
def execPokerUnlockExpiry (x : Side) (s : State) : Out :=
  ok (match (s.side x).unlockEnd with
    | some t => (s.due t).pokerEnd x
    | none => s)

/-- The pair may be halted: both its cores, which halt together, execute in worlds of the scope (R452). -/
def State.pairInScope (s : State) (x : Side) (scope : Nat) : Bool := scope.testBit (s.coreWorld x 4) && scope.testBit (s.coreWorld x 5)

/-- A halt, a step or a resume of an application hart (0 to 3) or the pair (4) by a Poker whose scope is `scope` (R452): a halt takes effect only in
a world of the scope, and a halted core that is stepped executes one instruction. -/
def State.pokerHalt (s : State) (x : Side) (h scope : Nat) (act : DebugAct) : State :=
  let v := s.hart x h
  let w := s.side x
  if h < 4 then
    match act with
    | .halt => if scope.testBit (s.coreWorld x h) then s.setHart x h { v with halted := true, step := false } else s
    | .resume => s.setHart x h { v with halted := false, step := false }
    | .step => if v.halted then s.setHart x h { v with step := true } else s
    | _ => s
  else
    match act with
    | .halt => if s.pairInScope x scope then s.setSide x { w with pairHalted := true, pairStep := 0 } else s
    | .resume => s.setSide x { w with pairHalted := false, pairStep := 0 }
    | .step => if w.pairHalted then s.setSide x { w with pairStep := 3 } else s
    | _ => s

/-- A scan of the TAP's data register (R450, R452; the registers of IEEE 1149.1, log entry 123): the bypass bit, which captures 0, or the boundary
register, which captures the pins and then takes the bits shifted in. -/
def State.tapScan (s : State) (x : Side) (ws pins : List Bool) : State :=
  let v := s.side x
  if v.tapIr = .bypass then s.setSide x { v with tapOut := (false :: ws).take ws.length }
  else s.setSide x { v with tapOut := (pins ++ ws).take ws.length, tapCells := (pins ++ ws).drop ws.length }

/-- The levels that EXTEST puts on the signal pins of J1, in the order of the chain (R452). -/
def State.pinsDriven (s : State) (x : Side) : Option (List Bool) :=
  if (s.side x).tapIr = .extest then some (s.side x).tapCells else none

/-- POKER_HALT (R450, R452): through its TAP an unlocked Poker at LEVEL 2 or 3 halts, steps or resumes a hart or the pair, and one at LEVEL 3 has the
boundary-scan instructions; any other instruction, and all of them while it is locked, select BYPASS. -/
def execPokerHalt (x : Side) (h : Fin 5) (act : DebugAct) (s : State) : Out :=
  let open_ := s.is (.side x) F.POKER_STATUS_UNLOCKED 0
  let level := if open_ then s.get (.side x) F.POKER_STATUS_LEVEL 0 else 0
  ok (if ¬ s.up x then s
  else match act with
    | .instr i => s.setSide x { s.side x with tapIr := if level = 3 then i else .bypass }
    | .scan ws pins => s.tapScan x ws pins
    | act => if 2 ≤ level then s.pokerHalt x h (s.get (.side x) F.POKER_STATUS_SCOPE 0) act else s)

/-- Words [39:0], [79:40], … of a 256-bit value given as 32 big-endian bytes: Q1 to Q7 of the challenge (R99). -/
def challengeWords (b : List Nat) : List Nat := (List.range 7).map (fun i => beNat b / 2 ^ (40 * i) % 2 ^ 40)

/-- A fresh challenge from the entropy source (R451): four free values. -/
def State.challenge (s : State) (x : Side) : List Nat × State :=
  let v := (List.range 4).foldl (fun n i => n * 2 ^ 64 + (Config.freeValue (s.free + i)).toNat) 0
  let b := (leBytes 32 v).reverse
  let s := { s with free := s.free + 4 }
  (b, s.setSide x { s.side x with challenge := some (b, s.now) })

/-- The challenge of a certificate is the one issued last, unused, and at most 60 s old (R451). -/
def State.challengeOk (s : State) (x : Side) (c : List Nat) : Bool :=
  match (s.side x).challenge with
  | some (b, t) => decide (b = c ∧ s.now ≤ t + 60000000000)
  | none => false

/-- The refusal cause of the certificate at `a`, 0 when it is accepted (R450, R451). One with a word that its ECC finds uncorrectable (`bad`) has no form:
DESIGN CHOICE (log entry 110). -/
def State.certCause (s : State) (x : Side) (a : Nat) (bad : Bool) : Nat :=
  let c := if bad then [] else s.load x a 160
  let at_ := fun i => c.getD i 0
  let zero := fun i n => ((c.drop i).take n).all (· == 0)
  if ¬ (c.take 6 = [0x50, 0x4B, 0x52, 0x31, 0, 1] ∧ 1 ≤ at_ 7 ∧ at_ 7 ≤ 3 ∧ zero 9 1 ∧ zero 0x16 2 ∧ zero 0x38 8 ∧
      beNat ((c.drop 0xA).take 2) ≤ 1440) then 1
  else if beNat ((c.drop 0xC).take 10) ≠ Config.serial.toNat then 2
  else if ¬ s.challengeOk x ((c.drop 0x18).take 32) then 3
  else if ¬ s.certKey x (at_ 6) then 4
  else if ¬ ecdsaVerify (s.keyOf x (at_ 6)) (sha384 (c.take 0x40)) (c.drop 0x40) then 5
  else if (s.get (.side x) F.CFG_MODE_ACTIVE 0).testBit 11 then 6
  else if at_ 7 = 3 ∧ at_ 8 ≠ 0xFF then 7
  else 0

/-- An unlock attempt with the certificate at `a` (R451). -/
def State.unlock (s : State) (x : Side) (j : Job) (a : Nat) (bad : Bool) : State :=
  let h := Holder.side x
  let cause := s.certCause x a bad
  let s := s.setSide x { s.side x with challenge := none }
  if cause = 0 then
    let level := s.loadLE x (a + 7) 1
    let scope := s.loadLE x (a + 8) 1
    let mins := beNat (s.load x (a + 0xA) 2)
    let s := ((s.set h F.POKER_STATUS_UNLOCKED 0 1).set h F.POKER_STATUS_LEVEL 0 level).set h F.POKER_STATUS_SCOPE 0 scope
    let s := s.inc h F.POKER_UNLOCK_COUNT 0
    let s := s.setSide x { s.side x with unlockEnd := if mins = 0 then none else some (s.now + mins * 60000000000) }
    let s := s.log x 0xB07 21 [.nar 2 level, .nar 8 scope, .nar 8 (s.loadLE x (a + 6) 1)]
    let s := s.each (List.range 8) (fun s w => if scope.testBit w then s.set h F.WOT_WORLD_STATE_MEASURED w 0 else s)
    s.done j stOk 0 []
  else
    let s := ((s.set h F.POKER_STATUS_CAUSE 0 cause).inc h F.POKER_REFUSE_COUNT 0).log x 0xB06 21 []
    ((s.secEvent x 0).secEvent x 3).done j stSignature 0 []

/-- WLD_DEBUG_UNLOCK (R451): `lost` and `corr` name a word of the certificate that the ECC finds uncorrectable, or corrects (R28, R29); an attempt
waits at a locked line (R302). -/
def execWldDebugUnlock (x : Side) (lost corr : Option Word40) (s : State) : Out :=
  let held : Bool := match (s.side x).chromirQ with
    | j :: _ => j.pkt.target != 0 && s.engineWaits x (j.pkt.p 1) 160
    | [] => false
  ok (if held then s else s.chromir x 0x804 (fun s j =>
    if j.pkt.target = 0 then
      let r := s.challenge x
      r.2.done j stOk 0 (challengeWords r.1)
    else
      let r := s.engineRead x 9 j.pkt.world (j.pkt.p 1) 160 lost corr
      r.2.unlock x j (j.pkt.p 1) r.1))

end Sys2Proof.Machine
end

