-- ==== Sys2Proof/Machine/Sides.lean ====
section
/-! DEFINITION. The events of sides, tokens, the cross link and mirroring (chapter 09). -/
namespace Sys2Proof.Machine
open Sys2Proof

/-- HEARTBEAT (R258): a side whose Stoker is ready and that is healthy marks its heartbeat at every die whose lane carries it (bit d of
`lanes`; bit 4 is the die bridge). -/
def execHeartbeat (x : Side) (lanes : BitVec 5) (s : State) : Out :=
  ok (if s.up x ∧ s.healthy x then
    s.each (List.range 5) (fun s d =>
      if lanes.getLsbD d ∧ (d = 4 ∨ s.present (.grate (Fin.ofNat 4 d))) then
        let s := s.returnGap d x
        let s := if s.holds x d ∧ ¬ s.beats d x then s.setDie d { s.die d with backAt := some s.now } else s
        (s.setDie d (match x with
          | .a => { s.die d with hbA := some s.now }
          | .b => { s.die d with hbB := some s.now })).returnWaits
      else s)
  else s)

/-- TOKEN_LAPSE (R262): the holder's heartbeat age passes LOSS; this ends an orderly handover that has begun. -/
def execTokenLapse (t : Fin 5) (s : State) : Out :=
  let h := s.tokHolder t
  if (s.tokState t = 0 ∨ s.tokState t = 4) ∧ h ≤ 1 then
    let s := match s.beatAt t (sideOf h) with
      | some b => s.due (b + s.lossNs t + 1)
      | none => s
    let s := s.setDie t { s.die t with backAt := none }
    let s := (s.set (.grate t) F.GRATE_TOKEN_STATE 0 1).inc (.grate t) F.GRATE_LAPSE_COUNT 0
    let s := s.logBoth 0x500 (23 + t) []
    ok ((s.intr .a 90).intr .b 90)
  else ok s

/-- The holder of token `t`, back since `backAt`, has made a commit since (R262). -/
def State.committedSince (s : State) (t : Nat) (x : Side) : Bool :=
  match (s.die t).backAt with
  | some b => decide (b < (s.side x).tickAt)
  | none => false

/-- TOKEN_RESUMED (R262): the heartbeat came back before any claim, and the holder's next commit makes the token HELD again. -/
def execTokenResumed (t : Fin 5) (s : State) : Out :=
  let h := s.tokHolder t
  if s.tokState t = 1 ∧ h ≤ 1 ∧ s.beats t (sideOf h) ∧ s.committedSince t (sideOf h) then
    ok ((s.set (.grate t) F.GRATE_TOKEN_STATE 0 0).logBoth 0x501 (23 + t) [])
  else ok s

/-- AUTO_CLAIM (R263): a healthy side that hears of a lapsed or vacant token it does not hold claims it in hardware, if AUTO_CLAIM is
set and its own heartbeat at the die is below LOSS. -/
def execAutoClaim (x : Side) (t : Fin 5) (s : State) : Out :=
  ok (if s.up x ∧ s.healthy x ∧ s.is (.side x) F.SIDE_CFG_AUTO_CLAIM 0 ∧ s.beatsBelow t x ∧ ¬ s.holds x t ∧ s.tokState t ≠ 0 then
    s.autoClaim x t
  else s)

/-- VACANT_CLAIM (R261): 20 ms after its first commit a side claims every token that is still VACANT. -/
def execVacantClaim (x : Side) (s : State) : Out :=
  ok (if s.up x ∧ (s.side x).firstCommit then
    (s.due ((s.side x).firstCommitAt + 20000000)).each (List.range 5) (fun s t => s.vacantClaim x t)
  else s)

/-- HANDOVER_WINDOW_CLOSE (R267): 30 us after the token change. -/
def execHandoverWindowClose (d : Fin 4) (s : State) : Out :=
  ok (if s.is (.grate d) F.GRATE_TOKEN_WINDOW 0 then
    (s.due (s.die d).windowEnd).set (.grate d) F.GRATE_TOKEN_WINDOW 0 0
  else s)

/-- ORDERLY_RELEASE (R269): the packets that the holder has sent are complete, it sends RELEASE, and the claim is recorded. -/
def execOrderlyRelease (t : Fin 5) (s : State) : Out :=
  let sent := if t.val < 4 ∧ s.tokHolder t ≤ 1 then Tab.at [] (s.side (sideOf (s.tokHolder t))).links t else []
  ok (if s.tokState t = 4 ∧ sent = [] then
    s.recordClaim t (sideOf (s.get (.grate t) F.GRATE_TOKEN_CLAIMANT 0)) true
  else s)

/-- CROSS_PULSE (R273): a side sends its cross pulse with its healthy bit, and one that is not healthy sends none but what it had on its way
(R272). A pulse that arrives shows the other side that the link is up and, with the bit 1, that its peer is healthy. -/
def execCrossPulse (x : Side) (arrives healthy : Bool) (s : State) : Out :=
  let y := x.other
  ok (if s.up x ∧ s.healthy x = healthy ∧ arrives ∧ s.up y then
    let s := s.setSide y { s.side y with peerAt := some s.now, peerOk := healthy }
    let s := if healthy then
        let back := s.is (.side y) F.SIDE_STATUS_SPLIT 0 && !s.is (.side y) F.SIDE_STATUS_PEER_HEALTHY 0
        let s := (s.set (.side y) F.SIDE_STATUS_PEER_HEALTHY 0 1).setSide y { s.side y with peerLost := false }
        if back then s.sideEvt y F.SIDE_EVT_PEER_BACK else s
      else s
    if (s.side y).crossLost ∨ (s.side y).peerLost then s else (s.set (.side y) F.SIDE_STATUS_CROSS_UP 0 1).showMirror y
  else s)

/-- The instant from which side `x` judges by its peer's heartbeats alone (R273): pulses absent for more than LOSS, or a pulse with healthy bit 0. -/
def State.pulseLossAt (s : State) (x : Side) : Nat := if (s.side x).peerOk then s.pulsesGoneAt x else s.now

/-- Side `x` judges its peer LOST (R273): SPLIT is held, the mirroring in both directions ends (R278). -/
def State.losePeer (s : State) (x : Side) : State :=
  let s := ((s.set (.side x) F.SIDE_STATUS_SPLIT 0 1).set (.side x) F.SIDE_STATUS_PEER_HEALTHY 0 0).set (.side x)
    F.SIDE_STATUS_CROSS_UP 0 0
  let s := (s.log x 0x505 18 []).sideEvt x F.SIDE_EVT_PEER_LOST
  (s.setSide x { s.side x with peerLost := true }).mirrorStop x

/-- PEER_LOST (R273): no healthy pulse within LOSS and no heartbeat of the peer within LOSS at any die. -/
def execPeerLost (x : Side) (s : State) : Out :=
  let s' := s.due (s.pulseLossAt x)
  ok (if s.up x ∧ ¬ s'.beatsSome x.other x ∧ ¬ (s.side x).peerLost then s'.losePeer x else s)

/-- GRATE_LINK_LOST (R276): no symbol of any kind from the die for longer than LOSS. -/
def execGrateLinkLost (x : Side) (d : Fin 4) (s : State) : Out :=
  ok (if s.up x then
    s.log x 0x508 18 [.nar 8 d]
  else s)

/-- The instant at which the hold-off of token `t` ends, while it runs (R279). -/
def State.returnDue (s : State) (t : Nat) : Option Nat :=
  let h := s.homeOf t
  let since := Tab.at 0 (s.side h).returnAt t
  if s.tokState t = 0 ∧ 0 < since ∧ ¬ (s.side h).returned then some (since - 1 + s.get (.side h) F.SIDE_RETURN_HOLDOFF 0 * 1000000000)
  else none

/-- A token before `t` returns to the same side first (R279). -/
def State.returnFirst (s : State) (t at_ : Nat) : Bool :=
  (List.range t).any (fun u => s.homeOf u == s.homeOf t && (match s.returnDue u with
    | some a => decide (a ≤ at_)
    | none => false))

/-- RETURN_HOME (R279): the hold-off ends and the home side takes the token back by orderly handover, one token per commit tick. -/
def execReturnHome (t : Fin 5) (s : State) : Out :=
  let h := s.homeOf t
  ok (match s.returnDue t with
    | some a =>
      let s' := s.due a
      if s.returnFirst t s'.now ∨ ¬ s'.returnReady t then s
      else
        let s := (s'.set (.grate t) F.GRATE_TOKEN_STATE 0 4).set (.grate t) F.GRATE_TOKEN_CLAIMANT 0 h.num
        let s := s.log h 0x50A 18 []
        s.setSide h { s.side h with returned := true }
    | none => s)

/-- MIRROR_CHECKPOINT (R277, R278): a scheduled checkpoint, every PERIOD commit ticks. Its instant passes without one while the cross link is
down. -/
def execMirrorCheckpoint (x : Side) (s : State) : Out :=
  ok (if s.up x ∧ max 1 (s.get (.side x) F.SIDE_MIRROR_CFG 0) ≤ (s.side x).ckptTicks then
    let n := (s.side x).ckptSlot + 1
    let s := s.setSide x { s.side x with ckptSlot := n, ckptTicks := 0 }
    (if s.crossBoth then s.ckptStart x n else s).showMirror x
  else s)

/-- A write of 1 to SIDE_CKPT.GO starts a checkpoint (R277). -/
def State.ckptGo (s : State) (x : Side) (v : Nat) : State :=
  if v.testBit 0 ∧ s.crossBoth then s.ckptStart x 0 else s

/-- SIDE_CKPT_GO (R277): a write of SIDE_CKPT. -/
def execSideCkptGo (x : Side) (o : Origin) (v : BitVec 32) (s : State) : Out :=
  ok (s.guarded x o 0x40130018 4 true (fun s => s.ckptGo x v.toNat))

/-- CHECKPOINT_COMPLETE (R277). -/
def execCheckpointComplete (x : Side) (lost corr : Option Word40) (s : State) : Out := ok (s.ckptEnd x lost corr)

end Sys2Proof.Machine
end

