-- ==== Sys2Proof/Machine/SwitchCtl.lean ====
section
/-! DEFINITION. What controls the switch (chapter 12): writes to Flue die registers (R34), database commands and ageing, gate control
lists, links and TC10, SA installation, mirror sessions, FRER resets. -/
namespace Sys2Proof.Machine
open Sys2Proof

/-! ## Writes to the Flue die (R34) -/

/-- Side `x` may write Flue die registers: it holds the net token (R34). -/
def State.netHeld (s : State) (x : Side) : Bool := s.holds x 4

/-- A write is posted: a core's, while NONPOSTED is 0 (R297). -/
def State.posted (s : State) (x : Side) (i : Nat) (o : Origin) : Bool :=
  (match o with
    | .hart _ => true
    | .pair _ => true
    | .far n _ => decide ((n : Nat) < 6)
    | _ => false) && !s.is (.side x) F.BRIDGE_CFG_NONPOSTED i

/-- A write of `v` at address `a` of the Flue die by `o` of side `x`: refused on the near side by the ownership checker or for an absent
die, and at the die without the net token; behind earlier transactions it waits in the bridge (R34, R292, R294, R297, R299). -/
def State.flueWrite (s : State) (x : Side) (o : Origin) (a v : Nat) (wide : Bool) (f : State → State) : State :=
  let size := if wide then 8 else 4
  s.guarded x o a size true (fun s =>
    let t := s.txnOf x o a wide (some v) (s.posted x 1 o)
    if ¬ s.farPresent x 1 then s.busError x o 8 size true a
    else if s.present .flue ∧ (s.bridge x 1).txns = [] ∧ s.hasSlot x 1 then
      let s := s.inc (.side x) F.BRIDGE_WRITE_COUNT 1
      if s.netHeld x then f s else (s.logFaultBoth 27 5 t.init t.world size true a).txnFails x 1 t 5
    else s.enter x 1 t)

/-! ## Database commands (R339) -/

/-- Address of the FDB block. -/
def fdbAddr (off : Nat) : Nat := 0x51000000 + off

/-- The key of the command registers. -/
def State.fdbKey (s : State) : Nat × Nat :=
  (s.fg F.FDB_CMD_MAC_HI 0 * 2 ^ 32 + s.fg F.FDB_CMD_MAC_LO 0, s.fg F.FDB_CMD_VID 0)

/-- A command ends with a RESULT. -/
def State.fdbResult (s : State) (r : Nat) : State := s.set .flue F.FDB_CMD_STATUS_RESULT 0 r

/-- Insert a static entry. -/
def State.fdbInsert (s : State) : State :=
  let (mac, vid) := s.fdbKey
  let ports := s.fg F.FDB_CMD_PORTS_PORTS 0
  if vid = 0 ∨ vid = 4095 ∨ (¬ isGroup mac ∧ popCount 17 ports ≠ 1) then s.fdbResult 3
  else match s.fdbFind mac vid with
    | some _ =>
      (s.setFdb (s.flue.fdb.map (fun e => if e.mac = mac ∧ e.vid = vid then { e with ports := ports, stat := true } else e))).fdbResult 0
    | none => match s.fdbPlace mac vid with
      | some (pl, b) => (s.setFdb (s.flue.fdb ++ [⟨pl, b, mac, vid, ports, true, s.now⟩])).fdbResult 0
      | none => s.fdbResult 2

/-- Delete the key. -/
def State.fdbDelete (s : State) : State :=
  let (mac, vid) := s.fdbKey
  match s.fdbFind mac vid with
  | some _ => (s.setFdb (s.flue.fdb.filter (fun e => e.mac != mac || e.vid != vid))).fdbResult 0
  | none => s.fdbResult 1

/-- Look up the key. -/
def State.fdbLookup (s : State) : State :=
  let (mac, vid) := s.fdbKey
  match s.fdbFind mac vid with
  | some e => ((s.set .flue F.FDB_CMD_PORTS_PORTS 0 e.ports).set .flue F.FDB_CMD_PORTS_STATIC 0 (b2n e.stat)).fdbResult 0
  | none => s.fdbResult 1

/-- Flush every dynamic entry. -/
def State.fdbFlush (s : State) : State := (s.setFdb (s.flue.fdb.filter (fun e => e.stat))).fdbResult 0

/-- Flush the dynamic entries of a port. -/
def State.fdbFlushPort (s : State) (p : Nat) : State :=
  (s.setFdb (s.flue.fdb.filter (fun e => e.stat || !e.ports.testBit p))).fdbResult 0

/-- A write of FDB_CMD_CTRL: with GO, OP is performed on the key (R339). -/
def State.fdbCtrl (s : State) (v : Nat) : State :=
  let op := bits v 2 0
  let s := (s.set .flue F.FDB_CMD_CTRL_PORT 0 (bits v 20 16)).set .flue F.FDB_CMD_CTRL_OP 0 op
  if ¬ v.testBit 31 then s
  else match op with
    | 1 => s.fdbInsert
    | 2 => s.fdbDelete
    | 3 => s.fdbLookup
    | 4 => s.fdbFlush
    | 5 => s.fdbFlushPort (bits v 20 16)
    | _ => s.fdbResult 3

/-- GO with an operation and a port, written to FDB_CMD_CTRL by `o`. -/
def State.fdbGo (s : State) (x : Side) (o : Origin) (op port : Nat) : State :=
  let v := 2 ^ 31 + port * 2 ^ 16 + op
  s.flueWrite x o (fdbAddr 0x110) v false (fun s => s.fdbCtrl v)

/-- FDB_INSERT_STATIC (R339). -/
def execFdbInsertStatic (x : Side) (o : Origin) (s : State) : Out := ok (s.fdbGo x o 1 0)

/-- FDB_DELETE (R339). -/
def execFdbDelete (x : Side) (o : Origin) (s : State) : Out := ok (s.fdbGo x o 2 0)

/-- FDB_LOOKUP (R339). -/
def execFdbLookup (x : Side) (o : Origin) (s : State) : Out := ok (s.fdbGo x o 3 0)

/-- FDB_FLUSH_ALL (R339). -/
def execFdbFlushAll (x : Side) (o : Origin) (s : State) : Out := ok (s.fdbGo x o 4 0)

/-- FDB_FLUSH_PORT (R339). -/
def execFdbFlushPort (x : Side) (o : Origin) (p : Fin 32) (s : State) : Out := ok (s.fdbGo x o 5 p)

/-- FDB_AGEING (R339): dynamic entries not refreshed within AGE go; the event falls due when the oldest one has that age. -/
def execFdbAgeing (s : State) : Out :=
  let age := s.fg F.FDB_CFG_AGE 0 * 1000000000
  ok (if ¬ s.flueRuns ∨ age = 0 then s
  else match s.flue.fdb.filter (fun e => !e.stat) with
    | [] => s
    | e :: l =>
      let s := s.due (l.foldl (fun t f => min t f.at_) e.at_ + age)
      s.setFdb (s.flue.fdb.filter (fun f => f.stat || decide (s.now < f.at_ + age))))

/-! ## Gate control lists (R350) -/

/-- Port `p` runs no list: every gate is open. -/
def State.tasStop (s : State) (p : Nat) : State :=
  let s := { s with flue := { s.flue with tas := s.flue.tas.filter (fun q => q.1 != p) } }
  (s.set .flue F.TAS_STATUS_RUNNING p 0).set .flue F.TAS_STATUS_ENTRY p 0

/-- The state with gate `v` at port `p`. -/
def State.setTas (s : State) (p : Nat) (v : Tas) : State :=
  { s with flue := { s.flue with tas := Tab.insert id (Tab.erase s.flue.tas p) p v } }

/-- A cycle of the configured list starts at instant `start` of the domain. -/
def State.tasStart (s : State) (p start : Nat) : State :=
  let l := s.fg F.TAS_CFG_LIST p
  let s := s.setTas p ⟨l, s.fg F.TAS_CYCLE p, s.tasBase p, s.fg F.TAS_CFG_DOMAIN p, start, false⟩
  ((s.set .flue F.TAS_STATUS_RUNNING p 1).set .flue F.TAS_STATUS_LIST p l).set .flue F.TAS_STATUS_ENTRY p 0

/-- The instant at which domain `d` reads `t`, or now. -/
def State.instantOn (s : State) (d t : Nat) : Nat := s.now + ceilDiv (t - s.blwTime d) 1024

/-- Time moved on so that a domain reads at least `t`. -/
def State.dueOn (s : State) (d t : Nat) : State := s.due (s.instantOn d t)

/-- The list in force at port `p` begins its next cycle. -/
def State.tasAgain (s : State) (p : Nat) (v : Tas) : State :=
  ((s.dueOn v.dom (v.start + v.cycle * 1024)).setTas p { v with start := v.start + v.cycle * 1024 }).set .flue F.TAS_STATUS_ENTRY p 0

/-- TAS_CYCLE_START (R350): the next cycle or entry of port `p`'s gate begins. A change of the list, the cycle or the base takes force
at the next cycle start under the new values, and so does the timescale after a step; until then the old list runs. -/
def State.tasNext (s : State) (p : Nat) : State :=
  let d := s.fg F.TAS_CFG_DOMAIN p
  let cyc := s.fg F.TAS_CYCLE p
  let l := s.fg F.TAS_CFG_LIST p
  if ¬ s.fb F.TAS_CFG_ENABLE p then (s.tasStop p).set .flue F.TAS_STATUS_ERROR p 0
  else if s.tasLen p l = 0 ∨ cyc < 1000 ∨ 1000000000 < cyc then
    (if s.fb F.TAS_STATUS_ERROR p then s.tasStop p else ((s.tasStop p).set .flue F.TAS_STATUS_ERROR p 1).flueEvt F.FLUE_EVT_TAS_ERROR)
  else
    let s := s.set .flue F.TAS_STATUS_ERROR p 0
    let fresh := s.tasFresh p
    let restart := (s.dueOn d fresh).tasStart p fresh
    match s.tasOf p with
    | none => restart
    | some v =>
      let e := s.fg F.TAS_STATUS_ENTRY p
      let endOf := s.tasEntryEnd p v
      let changed := decide (v.list ≠ l ∨ v.cycle ≠ cyc ∨ v.base ≠ s.tasBase p ∨ v.dom ≠ d)
      if v.held || (changed && decide (s.instantOn d fresh ≤ s.instantOn v.dom endOf)) then restart
      else if e + 1 < (s.tasList p v).length ∧ endOf < v.start + v.cycle * 1024 then
        (s.dueOn v.dom endOf).set .flue F.TAS_STATUS_ENTRY p (e + 1)
      else s.tasAgain p v

/-- TAS_CYCLE_START (R350). -/
def execTasCycleStart (p : Fin 17) (s : State) : Out := ok (if s.flueRuns then s.tasNext p else s)

/-- FRER_RESET (R351): no frame of a recovery stream has passed for RESET_MS. -/
def execFrerReset (n : Fin 512) (s : State) : Out :=
  let v := Tab.at Frer.init s.flue.frer n
  ok (if s.flueRuns ∧ s.fg F.FRER_CFG_FUNC n = 2 ∧ ¬ v.fresh then
    let s := s.due (v.at_ + clampNat 1 65535 (s.fg F.FRER_RESET_MS n) * 1000000)
    let s := { s with flue := { s.flue with frer := Tab.put Frer.init s.flue.frer n Frer.init } }
    (s.inc .flue F.FRER_RESETS n).flueEvt F.FLUE_EVT_FRER_RESET
  else s)

/-! ## Links and TC10 (R345, R358, R360) -/

/-- Every frame in port `p`'s queues discarded with FLUSH_DROP (R345). -/
def State.flushPort (s : State) (p : Nat) : State :=
  s.each (List.range 8) (fun s t =>
    let l := s.queue p t
    (((s.setQueue p t []).cnt p 31 l.length).each l (fun s q => s.release q.id)))

/-- Port `p` enters SLEEP (R358). -/
def State.portSleep (s : State) (p : Nat) : State := ((s.flushPort p).set .flue F.PORT_STATUS_TC10 p 2).cnt p 33 1

/-- The link of port `p` changes (R345, R358, R360): a ring port behind open isolation switches has none (R320), nor has an internal link to a
side that does not run or runs in limp clock (R145). A loss flushes the queues, and in REQUESTING it is no acceptance. -/
def State.portLink (s : State) (p : Nat) (up : Bool) : State :=
  let y := sideOf (p - 15)
  if s.fb F.PORT_STATUS_LINK p = up ∨ (up ∧ p < 2 ∧ ¬ s.fb F.BYP_STATUS_ISOLATION_ON 0) ∨
      (up ∧ 15 ≤ p ∧ (¬ s.fabric y ∨ (s.side y).limp)) then s
  else
    let s := (s.set .flue F.PORT_STATUS_LINK p (b2n up)).flueEvt F.FLUE_EVT_LINK_CHG
    if up then (if hasTc10 p then s.set .flue F.PORT_STATUS_TC10 p 0 else s).confirmLink p
    else
      let s := ((s.flushPort p).cnt p 32 1).logBoth 0x803 27 [.nar 5 p]
      let s := s.each (List.range 2) (fun s d => if s.fg F.BLW_STATE_SLAVE_PORT d = p then s.holdover d else s)
      if ¬ hasTc10 p ∨ s.fg F.PORT_STATUS_TC10 p = 2 then s
      else s.set .flue F.PORT_STATUS_TC10 p 4

/-- LINK_CHANGE (R345, R324). -/
def execLinkChange (l : LinkId) (up : Bool) (s : State) : Out :=
  match l with
  | .port p => ok (if s.flueRuns then s.portLink p up else s)
  | .life x => ok (s.lifeLink x up)

/-- TC10_SLEEP_REQUEST (R358): a partner's request, accepted or rejected by SLEEP_ACCEPT. -/
def execTc10SleepRequest (p : Fin 17) (s : State) : Out :=
  ok (if s.flueRuns ∧ hasTc10 p ∧ s.fg F.PORT_STATUS_TC10 p ≤ 1 ∧ s.fb F.PORT_TC10 p then s.portSleep p else s)

/-- Address of PORT_CTRL of port `p` (R362). -/
def portCtrlAddr (p : Nat) : Nat := 0x50100020 + p * 0x10000

/-- A sleep request of the port's own (R358). -/
def State.portSleepReq (s : State) (p : Nat) : State :=
  if hasTc10 p ∧ s.fg F.PORT_STATUS_TC10 p = 0 then
    { s.set .flue F.PORT_STATUS_TC10 p 1 with flue := { (s.set .flue F.PORT_STATUS_TC10 p 1).flue with
        sleepAt := Tab.put 0 s.flue.sleepAt p (s.now + 1) } }
  else s

/-- A wake-up pulse, of the port's own or of its partner, in SLEEP (R358). -/
def State.portWake (s : State) (p : Nat) : State :=
  if hasTc10 p ∧ s.fg F.PORT_STATUS_TC10 p = 2 then (s.set .flue F.PORT_STATUS_TC10 p 3).cnt p 34 1 else s

/-- A wake-up pulse that the port sends (R358). -/
def State.portPulse (s : State) (p : Nat) : State :=
  if hasTc10 p ∧ s.fg F.PORT_STATUS_TC10 p = 2 then
    { s with flue := { s.flue with pulses := Machine.setBit s.flue.pulses p } }
  else s

/-- A write of PORT_CTRL. -/
def State.portCtrl (s : State) (p v : Nat) : State :=
  let s := if v.testBit 0 then s.portSleepReq p else s
  if v.testBit 1 then (s.portPulse p).portWake p else s

/-- PORT_SLEEP_REQ (R358). -/
def execPortSleepReq (x : Side) (o : Origin) (p : Fin 17) (s : State) : Out :=
  ok (s.flueWrite x o (portCtrlAddr p) 1 false (fun s => s.portCtrl p 1))

/-- PORT_WAKE (R358). -/
def execPortWake (x : Side) (o : Origin) (p : Fin 17) (s : State) : Out :=
  ok (s.flueWrite x o (portCtrlAddr p) 2 false (fun s => s.portCtrl p 2))

/-- The sleep sequence runs (R152). -/
def State.asleep (s : State) : Bool :=
  match s.ember.phase with
  | .sleeping _ => true
  | _ => false

/-- TC10_SLEEP_TIMEOUT (R358): the partner's answer to the port's own sleep request, its acceptance or its rejection, or none within 16 ms. -/
def execTc10SleepTimeout (p : Fin 17) (accepted : Option Bool) (s : State) : Out :=
  ok (if s.flueRuns ∧ s.fg F.PORT_STATUS_TC10 p = 1 ∧ accepted = some true then s.portSleep p
  else if s.flueRuns ∧ s.fg F.PORT_STATUS_TC10 p = 1 then
    let s := if accepted.isSome then s else s.due (Tab.at 0 s.flue.sleepAt p - 1 + 16000000)
    let s := (s.set .flue F.PORT_STATUS_TC10 p 0).flueEvt F.FLUE_EVT_TC10
    if s.asleep then s.logBoth 0x306 27 [.nar 5 p] else s
  else s)

/-- TC10_PARTNER_WAKE (R358). -/
def execTc10PartnerWake (p : Fin 17) (s : State) : Out := ok (if s.flueRuns then s.portWake p else s)

/-! ## Packets -/

/-- NET_MIRROR_SET (R352). -/
def State.mirrorSet (s : State) (j : Job) : State :=
  let m := j.pkt.target
  let s := (s.set .flue F.MIR_INGRESS m (j.pkt.p 1)).set .flue F.MIR_EGRESS m (j.pkt.p 2)
  let s := (s.set .flue F.MIR_CFG_DEST m (bits (j.pkt.p 3) 4 0)).set .flue F.MIR_CFG_ENABLE m (bits (j.pkt.p 3) 5 5)
  s.done j stOk 0 []

/-- NET_MIRROR_SET (R352). -/
def execNetMirrorSet (x : Side) (s : State) : Out := ok (s.chromir x 0x605 (fun s j => s.onNet j (fun s => s.mirrorSet j)))

/-- The state bits of an SA cleared. -/
def State.clearSa (s : State) (i : Nat) : State :=
  s.each [F.MSEC_SA_STATE_INSTALLED, F.MSEC_SA_STATE_ACTIVE, F.MSEC_SA_STATE_XPN, F.MSEC_SA_STATE_PN_LOW, F.MSEC_SA_STATE_EXHAUSTED,
    F.MSEC_SA_STATE_KEY_SLOT] (fun s f => s.set .flue f i 0)

/-- NET_SA_INSTALL (R354): the SA is installed whole between two frames of the port. -/
def State.saInstall (s : State) (x : Side) (j : Job) : State :=
  let k := j.pkt
  let p := k.target
  let dir := bits (k.p 1) 0 0
  let c := bits (k.p 1) 1 1
  let an := bits (k.p 1) 3 2
  let xpn := (k.p 1).testBit 4
  let slot := bits (k.p 1) 15 8
  let pn := k.p 2 + (if xpn then k.p 3 * 2 ^ 40 else 0)
  let h := Holder.side x
  if ¬ (slot < 64 ∧ s.is h F.KEYS_SLOT_VALID slot ∧ ¬ s.is h F.KEYS_SLOT_REVOKED slot ∧ s.get h F.KEYS_SLOT_USE slot = 3) then
    s.done j stCheck 0 []
  else if ¬ xpn ∧ 2 ^ 32 ≤ pn then s.done j stExhausted 0 []
  else
    let i := saIndex p dir c an
    let s := if dir = 0 then s.each [0, 1, 2, 3] (fun s a => s.set .flue F.MSEC_SA_STATE_ACTIVE (saIndex p 0 c a) 0) else s
    let s := ((s.clearSa i).set .flue F.MSEC_SA_STATE_INSTALLED i 1).set .flue F.MSEC_SA_STATE_ACTIVE i 1
    let s := (s.set .flue F.MSEC_SA_STATE_XPN i (b2n xpn)).set .flue F.MSEC_SA_STATE_KEY_SLOT i slot
    let s := s.setSaPn i pn
    let s := { s with flue := { s.flue with
      saKey := Tab.put [] s.flue.saKey i (Tab.at [] (s.side x).keyMat slot), ssci := Tab.put 0 s.flue.ssci i (if xpn then k.p 4 else 0),
      sci := Tab.put 0 s.flue.sci (4 * p + 2 * dir + c) (k.p 6 * 2 ^ 40 + k.p 5) } }
    s.done j stOk 0 []

/-- NET_SA_INSTALL (R354). -/
def execNetSaInstall (x : Side) (s : State) : Out :=
  ok (s.chromir x 0x604 (fun s j => s.onNet j (fun s => s.saInstall x j)))

end Sys2Proof.Machine
end

