-- ==== Sys2Proof/Machine/Time.lean ====
section
/-! DEFINITION. Time at the sides (chapter 14 R409 to R415) and the packets of the TIME class (R98): the follower, pulse outputs and
capture inputs. -/
namespace Sys2Proof.Machine
open Sys2Proof

/-! ## The follower (R409 to R411) -/

/-- The follower's clock of domain `d` on side `x`. -/
def State.clock (s : State) (x : Side) (d : Nat) : Clock := Tab.at (Clock.start 0) (s.side x).clocks d

/-- The state with `c` as that clock. -/
def State.setClock (s : State) (x : Side) (d : Nat) (c : Clock) : State :=
  s.setSide x { s.side x with clocks := Tab.put (Clock.start 0) (s.side x).clocks d c }

/-- The rule of the tally boundaries changes on side `x`: the next one lies at least 1 ms ahead (R463). -/
def State.tallyRule (s : State) (x : Side) : State :=
  s.setSide x { s.side x with tallyFrom := s.tickTime x + 1000000 * 1024 - 1, tallyShort := true }

/-- The scale of domain `d` has changed on side `x`: the next commit tick lies at least 50 us ahead, the tally boundary 1 ms (R413, R463, R467). -/
def State.scaleChange (s : State) (x : Side) (d : Nat) (step : Bool) : State :=
  if s.tickDomain x = d then
    let s := s.tallyRule x
    let v := s.side x
    s.setSide x { v with tickMin := s.now + 50000, tallyStepped := v.tallyStepped || step,
                         snap := v.snap.map (fun q => { q with at_ := none }) }
  else s

/-- The state with follower state `v` of domain `d` (R410). -/
def State.setDomState (s : State) (x : Side) (d v : Nat) : State :=
  let s := if s.domState x d = v then s else s.scaleChange x d false
  s.set (.side x) (if d = 0 then F.TIME_STATUS_D0_STATE else F.TIME_STATUS_D1_STATE) 0 v

/-- Instant of a wait of `t` - the time of domain `d` (both 1/1024 ns) on side `x`. -/
def State.dueSide (s : State) (x : Side) (d t : Nat) : State := s.due (s.now + ceilDiv (t - s.domTime x d) 1024)

/-- Start of pulse output `n`, 1/1024 ns, without the fraction of a nanosecond (R414). -/
def State.tpoStart (s : State) (x : Side) (n : Nat) : Nat :=
  (s.get (.side x) F.TPO_START_S n * secTicks + s.get (.side x) F.TPO_START_NS n) / 1024

/-- The first start + k × period that is at least `t` (ns). -/
def firstAt (start period t : Nat) : Nat := if t ≤ start then start else start + ceilDiv (t - start) period * period

/-- Number of edges, which fall at start + k × period, in the instants up to `t`. -/
def edgesTo (start period t : Nat) : Nat := if t < start then 0 else if period = 0 then 1 else (t - start) / period + 1

/-- The state with the next edge of output `n` at `t` ns on its domain (none: no edge) and its level. -/
def State.setTpo (s : State) (x : Side) (n : Nat) (next : Option Nat) (level : Bool) : State :=
  let v := s.side x
  s.setSide x { v with
    tpoNext := Tab.put 0 v.tpoNext n (match next with
      | some t => t + 1
      | none => 0)
    tpoLevel := if level then Machine.setBit v.tpoLevel n else Machine.clearBit v.tpoLevel n }

/-- One-shot output `n` fires at instant `t` ns, late or not (R414). -/
def State.tpoFire (s : State) (x : Side) (n t : Nat) (late : Bool) : State :=
  let s := s.set (.side x) F.TPO_CTRL_DONE n 1
  let s := if late then s.set (.side x) F.TPO_CTRL_LATE n 1 else s
  s.setTpo x n (some (t + s.get (.side x) F.TPO_WIDTH n)) true

/-- The settings `ps`, P1 to P5 of TIME_PULSE_SET, of output `n` take effect at instant `t` ns of its domain (R414). -/
def State.tpoArm (s : State) (x : Side) (n t : Nat) (ps : List Nat) : State :=
  let h := Holder.side x
  let p (k : Nat) : Nat := ps.getD k 0
  let s := ((s.set h F.TPO_START_S n (p 0)).set h F.TPO_START_NS n (p 1)).set h F.TPO_PERIOD n (p 2)
  let s := (s.set h F.TPO_WIDTH n (p 3)).set h F.TPO_CTRL_INVERT n (bits (p 4) 1 1)
  let s := (s.set h F.TPO_CTRL_ENABLE n (bits (p 4) 0 0)).set h F.TPO_CTRL_DONE n 0
  let start := s.tpoStart x n
  let period := p 2
  let v := s.side x
  let s := s.setSide x { v with tpoNew := Tab.put [] v.tpoNew n [] }
  if ¬ (p 4).testBit 0 then s.setTpo x n none false
  else if period = 0 then (if start < t + 1000 then s.tpoFire x n t true else s.setTpo x n (some start) false)
  else s.setTpo x n (some (if start < t + 1000 then firstAt start period (t + 1000) else start)) false

/-- TPO_EDGE (R414): an edge of a pulse output falls due. -/
def execTpoEdge (x : Side) (n : Fin 4) (s : State) : Out :=
  let v := s.side x
  let next := Tab.at 0 v.tpoNext n
  let d := s.get (.side x) F.TPO_CTRL_DOMAIN n
  ok (if ¬ s.fabric x ∨ next = 0 then s
  else
    let t := next - 1
    let s := s.dueSide x d (t * 1024)
    let period := s.get (.side x) F.TPO_PERIOD n
    if v.tpoLevel.testBit n then
      if Tab.at [] v.tpoNew n ≠ [] then s.tpoArm x n t (Tab.at [] v.tpoNew n)
      else if period = 0 then s.setTpo x n none false
      else s.setTpo x n (some (firstAt (s.tpoStart x n) period (t + 1))) false
    else if period = 0 then s.tpoFire x n t false
    else s.setTpo x n (some (t + s.get (.side x) F.TPO_WIDTH n)) true)

/-- Output `n` after a step of its domain from `old` to `new` ns (R414). A pulse in progress keeps the rest of its width. -/
def State.tpoStep (s : State) (x : Side) (n old new : Nat) : State :=
  let v := s.side x
  let next := Tab.at 0 v.tpoNext n
  if next = 0 then s
  else
    let start := s.tpoStart x n
    let period := s.get (.side x) F.TPO_PERIOD n
    let on := v.tpoLevel.testBit n
    let s := if period = 0 then s else s.add (.side x) F.TPO_SKIP_COUNT n (edgesTo start period new - edgesTo start period old)
    if on then s.setTpo x n (some (new + (next - 1 - old))) true
    else if period = 0 then (if next - 1 ≤ new then s.tpoFire x n new true else s)
    else s.setTpo x n (some (firstAt start period (new + 1))) false

/-- The scale of domain `d` on side `x` moves from `old` to `new` (1/1024 ns): the outputs of the domain follow (R414), and a running basic
cycle of a CAN schedule completes (R383). -/
def State.scaleMoves (s : State) (x : Side) (d old new : Nat) : State :=
  let s := s.each (List.range 4) (fun s n =>
    if s.get (.side x) F.TPO_CTRL_DOMAIN n = d then s.tpoStep x n (old / 1024) (new / 1024) else s)
  s.each (List.range 6) (fun s k =>
    if s.get (.side x) F.CAN_TT_CFG_DOMAIN k = d then
      s.setCan x k { s.can x k with refAt := (s.can x k).refAt.map (fun r => r + new - old) }
    else s)

/-- The follower of domain `d` on side `x` steps to `t` (R410): counted and flagged, the outputs and inputs of the domain and the
tally follow (R413 to R415, R467). -/
def State.followStep (s : State) (x : Side) (d t : Nat) : State :=
  let old := s.domTime x d
  let s := s.setClock x d ⟨t, s.now, (s.dom d).clock.adj, 0, 0⟩
  let s := s.inc (.side x) (if d = 0 then F.TIME_D0_STEP_SEQ else F.TIME_D1_STEP_SEQ) 0
  let s := s.timeEvt x F.TIME_EVT_STEP
  let s := (s.scaleMoves x d old t).each (List.range 4) (fun s n =>
    if s.get (.side x) F.TCI_CFG_DOMAIN n = d then s.set (.side x) F.TCI_STATUS_STEPPED n 1 else s)
  s.scaleChange x d true

/-- What of a difference is still to be slewed out at `now`. -/
def Clock.left (c : Clock) (now : Nat) : Int :=
  let most : Int := ((now - c.at_) * 1024 * c.ppm / 1000000 : Nat)
  c.slew - clampInt (-most) most c.slew

/-- A state bit of the marker copied into TIME_STATUS; a change sets its TIME_EVT bit (R411). -/
def State.copyBit (s : State) (x : Side) (f e : Fld) (v : Bool) (rising : Bool) : State :=
  if s.is (.side x) f 0 = v then s
  else
    let s := s.set (.side x) f 0 (b2n v)
    if rising ∧ ¬ v then s else s.timeEvt x e

/-- Domain `d` of a time link message at side `x` (R409, R410): the follower steers its counter at up to 2 % toward the message, at 50 ppm while it slews
out what it found on its return from FREE. -/
def State.follow (s : State) (x : Side) (d : Nat) : State :=
  let v := s.dom d
  let t := s.blwTime d
  let step := if x = .a then v.stepA else v.stepB
  let s := s.setDom d (if x = .a then { v with stepA := false } else { v with stepB := false })
  let s := s.copyBit x (if d = 0 then F.TIME_STATUS_D0_LOCKED else F.TIME_STATUS_D1_LOCKED) F.TIME_EVT_LOCK_CHG
    (s.fb F.BLW_STATE_LOCKED d) false
  let s := s.copyBit x (if d = 0 then F.TIME_STATUS_D0_HOLDOVER else F.TIME_STATUS_D1_HOLDOVER) F.TIME_EVT_HOLDOVER_CHG
    (s.fb F.BLW_STATE_HOLDOVER d) false
  let s := s.copyBit x (if d = 0 then F.TIME_STATUS_D0_PENDING else F.TIME_STATUS_D1_PENDING) F.TIME_EVT_JUMP_REFUSED
    (s.fb F.BLW_STATE_PENDING d) true
  let st := s.domState x d
  let own := s.domTime x d
  let diff : Int := (t : Int) - own
  let slewed (ppm : Nat) : Clock := ⟨own, s.now, v.clock.adj, diff, ppm⟩
  if s.fg F.BLW_STATE_SERVO d = 0 then (if st = 1 then s.setDomState x d 2 else s)
  else if st = 0 then ((s.setClock x d ⟨t, s.now, v.clock.adj, 0, 0⟩).scaleMoves x d own t).setDomState x d 1
  else if st = 2 then
    let s := s.setDomState x d 1
    (if diff.natAbs ≤ 1000 * 1024 then s.setClock x d (slewed 50) else s.followStep x d t).log x 0xA06 12 []
  else if step then s.followStep x d t
  else s.setClock x d (slewed (if (s.clock x d).ppm = 50 ∧ (s.clock x d).left s.now ≠ 0 then 50 else 20000))

/-- TIME_LINK_MESSAGE (R409): a message with both domains' times reaches the follower. -/
def execTimeLinkMessage (x : Side) (s : State) : Out :=
  ok (if s.flueRuns ∧ s.fabric x then
    let s := s.setSide x { s.side x with lastMsg := some s.now }
    ((s.set (.side x) F.TIME_STATUS_LINK_UP 0 1).follow x 0).follow x 1
  else s)

/-- The time link of side `x` is lost (R410): SYNCED domains run FREE. -/
def State.linkLost (s : State) (x : Side) : State :=
  if s.is (.side x) F.TIME_STATUS_LINK_UP 0 then
    let s := s.set (.side x) F.TIME_STATUS_LINK_UP 0 0
    let s := s.each (List.range 2) (fun s d => if s.domState x d = 1 then s.setDomState x d 2 else s)
    (s.inc (.side x) F.TIME_LINK_LOST_COUNT 0).timeEvt x F.TIME_EVT_LINK_LOST
  else s

/-- TIME_LINK_LOST (R410): no message for 100 us. -/
def execTimeLinkLost (x : Side) (s : State) : Out :=
  ok (match (s.side x).lastMsg with
    | some t => if s.fabric x ∧ s.is (.side x) F.TIME_STATUS_LINK_UP 0 then (s.due (t + 100000)).linkLost x else s
    | none => s)

/-- A read of TIME_Dd_NS: the nanosecond word, and the seconds word of the same instant latched (R411). -/
def State.timeRead (s : State) (x : Side) (d : Nat) : State :=
  let t := s.domTime x d
  { s.set (.side x) (if d = 0 then F.TIME_D0_LATCH_S else F.TIME_D1_LATCH_S) 0 (secWord t) with resp := .data (nsWord t) }

/-- TIME_NS_READ (R411). -/
def execTimeNsRead (x : Side) (o : Origin) (d : Fin 2) (s : State) : Out :=
  ok (s.guarded x o (0x400C0010 + 0x10 * d) 8 false (fun s => s.timeRead x d))

/-! ## Captures (R415) -/

/-- A capture at input `n`. -/
def State.capture (s : State) (x : Side) (n : Nat) : State :=
  let h := Holder.side x
  let t := s.domTime x (s.get h F.TCI_CFG_DOMAIN n)
  let c := s.get h F.TCI_STATUS_COUNT n
  let s := s.setSide x { s.side x with tciAt := Tab.put 0 (s.side x).tciAt n (s.now + 1) }
  let s := (s.set h F.TCI_LAST_S n (secWord t)).set h F.TCI_LAST_NS n (nsWord t / 1024 * 1024)
  let s := if 1 ≤ c then s.set h F.TCI_STATUS_OVERFLOW n 1 else s
  ((s.set h F.TCI_STATUS_COUNT n (min 65535 (c + 1))).inc h F.TCI_CAPTURE_COUNT n).intr x (76 + n)

/-- TCI_CAPTURE (R415): an edge that EDGE selects, at least 100 ns after the last one stamped. -/
def execTciCapture (x : Side) (n : Fin 4) (rising : Bool) (s : State) : Out :=
  let e := s.get (.side x) F.TCI_CFG_EDGE n
  let last := Tab.at 0 (s.side x).tciAt n
  ok (if s.fabric x ∧ e.testBit (if rising then 0 else 1) ∧ (last = 0 ∨ last - 1 + 100 ≤ s.now) then (s.capture x n).sparkCapture x n else s)

/-! ## Packets of the TIME class (R98) -/

/-- Offences of a packet of the TIME class against R98, R405 and R414, by its code. -/
def timeOffences (k : Packet) : List Offence :=
  if k.code = 0x703 then
    unassigned [ones 40, ones 40, ones 40, ones 40, 3] k.params 1 ++ need (decide (k.target < 4)) 0 0 ++
      need (decide (k.p 2 < secTicks)) 2 0 ++ need (decide (k.p 3 = 0 ∨ (100 ≤ k.p 3 ∧ k.p 3 ≤ 1000000000000))) 3 0 ++
      need (decide (10 ≤ k.p 4 ∧ k.p 4 ≤ (if k.p 3 = 0 then 1000000000000 else k.p 3 - 10))) 4 0
  else if k.code = 0x704 then need (decide (k.target < 4)) 0 0
  else if k.code = 0x705 then
    unassigned [ones 40, ones 40, ones 40, 1] k.params 1 ++ need (decide (k.target < 2)) 0 0 ++
      need (decide (k.p 1 ≤ 64 * q20)) 1 0 ++ need (decide (k.p 2 ≤ 16 * q20)) 2 0 ++
      need (decide (100 ≤ k.p 3 ∧ k.p 3 ≤ 1000000000)) 3 0
  else need (decide (k.target < 2)) 0 0

/-- A packet that acts on Bellows: refused when the Flue die is ABSENT (R83). -/
def State.onBellows (s : State) (j : Job) (f : State → State) : State :=
  if s.present .flue then f s else s.doneAbsent j .flue

/-- TIME_STATUS (R98). -/
def execTimeStatus (x : Side) (s : State) : Out :=
  ok (s.chromir x 0x701 (fun s j => s.onBellows j (fun s =>
    let d := j.pkt.target
    let t := s.blwTime d
    s.done j stOk 0 [secWord t, nsWord t, s.fg F.BLW_OFFSET d,
      s.fg F.BLW_STATE_SERVO d + 8 * s.fg F.BLW_STATE_LOCKED d + 16 * s.fg F.BLW_STATE_HOLDOVER d +
        32 * s.fg F.BLW_STATE_PENDING d])))

/-- TIME_STEP_ACCEPT (R408). -/
def execTimeStepAccept (x : Side) (s : State) : Out :=
  ok (s.chromir x 0x702 (fun s j => s.onBellows j (fun s =>
    let d := j.pkt.target
    if s.fb F.BLW_STATE_PENDING d then
      (s.stepDom d (-(sigInt (s.fg F.BLW_PENDING d)) * 1024)).done j stOk 0 []
    else s.done j stParam 0 [])))

/-- TIME_PULSE_SET (R414): the new settings of an output, which wait for the end of a pulse in progress unless they disable it. -/
def State.pulseSet (s : State) (x : Side) (j : Job) : State :=
  let n := j.pkt.target
  let ps := [1, 2, 3, 4, 5].map j.pkt.p
  let v := s.side x
  let s := if v.tpoLevel.testBit n ∧ (j.pkt.p 5).testBit 0 then s.setSide x { v with tpoNew := Tab.put [] v.tpoNew n ps }
    else s.tpoArm x n (s.domTime x (s.get (.side x) F.TPO_CTRL_DOMAIN n) / 1024) ps
  s.done j stOk 0 []

/-- TIME_PULSE_SET (R414). -/
def execTimePulseSet (x : Side) (s : State) : Out := ok (s.chromir x 0x703 (fun s j => s.pulseSet x j))

/-- TIME_CAPTURE_READ (R415). -/
def execTimeCaptureRead (x : Side) (s : State) : Out :=
  ok (s.chromir x 0x704 (fun s j =>
    let h := Holder.side x
    let n := j.pkt.target
    let ws := [s.get h F.TCI_LAST_S n, s.get h F.TCI_LAST_NS n,
      s.get h F.TCI_STATUS_COUNT n + 2 ^ 16 * s.get h F.TCI_STATUS_OVERFLOW n]
    let s := ((s.set h F.TCI_STATUS_COUNT n 0).set h F.TCI_STATUS_OVERFLOW n 0).set h F.TCI_STATUS_STEPPED n 0
    s.done j stOk 0 ws))

/-- TIME_SERVO_SET (R405). -/
def execTimeServoSet (x : Side) (s : State) : Out :=
  ok (s.chromir x 0x705 (fun s j => s.onBellows j (fun s =>
    let d := j.pkt.target
    let s := ((s.set .flue F.BLW_KP d (j.pkt.p 1)).set .flue F.BLW_KI d (j.pkt.p 2)).set .flue F.BLW_JUMP_TH d (j.pkt.p 3)
    (s.set .flue F.BLW_CFG_AUTO_STEP d (bits (j.pkt.p 4) 0 0)).done j stOk 0 [])))

end Sys2Proof.Machine
end

