-- ==== Sys2Proof/Machine/Commit.lean ====
section
/-! DEFINITION. The commit (chapter 04 R113 to R132): merged values, the snapshot, the masks, and the move of a snapshot into force on
the units, with what follows for tokens (chapter 09), CAN channels (chapter 13), the switch and the tally. -/
namespace Sys2Proof.Machine
open Sys2Proof

/-! ## Merged values (R113 to R117) -/

/-- The number that a field's value stands for when values are compared. -/
def Fld.num (f : Fld) (v : Nat) : Int := if f.sgn then toSigned f.width v else v

/-- The merged value of a field from its base value and the values of active overlays, by overlay (R114). -/
def mergeValue (f : Fld) (b : Nat) (os : List (Nat × Nat)) : Nat :=
  match f.cls with
  | .limit => os.foldl (fun v o => if f.num o.2 < f.num v then o.2 else v) b
  | .floor => os.foldl (fun v o => if f.num v < f.num o.2 then o.2 else v) b
  | .permit => os.foldl (fun v o => v &&& o.2) b
  | .request => os.foldl (fun v o => v ||| o.2) b
  | .choice => (os.foldl (fun m o => if m.1 ≤ o.1 + 1 then (o.1 + 1, o.2) else m) (0, b)).2
  | _ => b

/-- The value of owner `o` (0xFF base) for the field at `a` from bit `lo`, if a record gives one. -/
def recOf (rs : List Rec) (a lo o : Nat) : Option Nat :=
  (rs.find? (fun r => r.addr == a && r.lo == lo && r.owner == o)).map (fun r => r.value)

/-- The merged value of a field under an active mask: its holder, field, index and value. -/
def mergedField (x : Side) (rs : List Rec) (active : Nat) (k : Nat × Nat × Nat) : Option (Holder × Fld × Nat × Nat) :=
  (fieldAt x k.1 k.2.1 k.2.2).map (fun q =>
    let cut (v : Nat) : Nat := v % 2 ^ q.2.1.width
    let b := (recOf rs k.1 k.2.1 0xFF).getD (q.2.1.rst.at q.1 q.2.2)
    let os := (List.range 12).filterMap (fun o => if active.testBit o then (recOf rs k.1 k.2.1 o).map (fun v => (o, cut v)) else none)
    (q.1, q.2.1, q.2.2, mergeValue q.2.1 (cut b) os))

/-- The merged configuration: every field that some record names. Every other configurable field has its reset value (R114). -/
def mergedAll (x : Side) (rs : List Rec) (active : Nat) : List (Holder × Fld × Nat × Nat) :=
  ((rs.map (fun r => (r.addr, r.lo, r.hi))).eraseDups).filterMap (mergedField x rs active)

/-- A key of a configurable field (R113). -/
def FKey.isCfg (k : FKey) : Bool :=
  !dynField k.reg k.idx && regMap.any (fun r => r.num == k.reg && r.fields.any (fun f => f.lo == k.lo && f.cls != .none))

/-- Every configurable field of holder `h` takes its value in a merged configuration. -/
def State.putConfig (s : State) (h : Holder) (l : List (Holder × Fld × Nat × Nat)) : State :=
  let s := { s with regs := s.regs.filter (fun p => !(p.1.hold == h.code && p.1.isCfg)) }
  s.each (l.filter (fun q => q.1 = h)) (fun s q => s.set h q.2.1 q.2.2.1 q.2.2.2)

/-- The pairs of bounds of R116, with the place of the lower one on its die. -/
def boundPairs : List (Fld × Fld × Nat) :=
  [(F.DMP_RES_MOD, F.DMP_BUDGET_MOD, 104), (F.DMP_RES_FEED, F.DMP_BUDGET_FEED, 105), (F.DMP_RES_DISS, F.DMP_DISS_CEIL, 106)]

/-- A merged lower bound above its upper bound (R116). -/
def State.clampedBy (s : State) (d : Nat) (q : Fld × Fld × Nat) : Bool :=
  decide (q.2.1.num (s.get (.grate d) q.2.1 0) < q.1.num (s.get (.grate d) q.1 0))

/-- The upper bound applied to both (R116). -/
def State.clampBounds (s : State) (d : Nat) : State :=
  s.each boundPairs (fun s q => if s.clampedBy d q then s.set (.grate d) q.1 0 (s.get (.grate d) q.2.1 0) else s)

/-- Address of a register of grate die `d`. -/
def dieRegAddr (d num : Nat) : Nat :=
  0x60000000 + d * 0x1000000 + ((regMap.find? (fun r => r.kind == .grate && r.num == num)).map (fun r => r.base)).getD 0

/-- The address of the lower bound of a pair. -/
def lowerAddr (d : Nat) (q : Fld × Fld × Nat) : Nat := dieRegAddr d q.1.reg

/-- CLAMPED and CFG_CLAMP on side `x` for each pair of die `d` whose merged bounds, as they stand in `raw`, cross (R116). -/
def State.logClamps (s : State) (x : Side) (d : Nat) (raw : State) : State :=
  s.each (boundPairs.filter (raw.clampedBy d)) (fun s b =>
    (s.set (.side x) F.CFG_STATUS_CLAMPED 0 1).log x 0x201 2 [.wide (lowerAddr d b)])

/-! ## Masks (R118 to R120, R132) -/

/-- Bit 8 to 11 of the hardware mask as the conditions stand on side `x` (R117, R224, R225, R273, R457). -/
def State.hwMask (s : State) (x : Side) : Nat :=
  b2n s.damper.derate * 2 ^ 8 + b2n (s.ember.lowFeed || s.ember.lowFeedB) * 2 ^ 9 +
    s.get (.side x) F.SIDE_STATUS_SPLIT 0 * 2 ^ 10 + b2n s.ember.secLatch * 2 ^ 11

/-- The side that orders CFG_MODE_SET packets and commits the Ember: the holder of the token of G0, else Side A (R132, R157). -/
def State.orderer (s : State) : Side := if s.holds .b 0 then .b else .a

/-- The sides share their commanded mask over the cross link (R132). -/
def State.shares (s : State) : Bool :=
  s.up .a && s.up .b && s.is (.side .a) F.SIDE_STATUS_CROSS_UP 0 && s.is (.side .b) F.SIDE_STATUS_CROSS_UP 0

/-- The commanded mask that a CFG_MODE_SET makes of `old`, or none when it is refused (R119). -/
def modeStep (old hw : Nat) (k : Packet) : Option Nat :=
  let set := bits (k.p 1) 11 0
  let clear := bits (k.p 1) 23 12
  let lockdown := old.testBit 11 || hw.testBit 11
  if (lockdown && !(set == 0 && clear == 0x800)) || (clear.testBit 11 && hw.testBit 11) then none
  else some (clearMask old clear ||| set)

/-- Packets applied in order: the mask, the last packet accepted and the outcome of each. -/
def modeRun (hw : Nat) : List (Job × Nat) → Nat → Option Job → Nat × Option Job × List (Job × Bool)
  | [], m, last => (m, last, [])
  | j :: l, m, last =>
    match modeStep m hw j.1.pkt with
    | some m' => let r := modeRun hw l m' (some j.1); (r.1, r.2.1, (j.1, true) :: r.2.2)
    | none => let r := modeRun hw l m last; (r.1, r.2.1, (j.1, false) :: r.2.2)

/-- The order of arrival at the ordering engine, Side A first (R132). -/
def modeBefore (a b : Job × Nat) : Bool :=
  decide (a.2 < b.2) || (a.2 == b.2 && decide (a.1.side.num ≤ b.1.side.num))

/-- A packet put in its place among packets in order of arrival. -/
def modeInsert (q : Job × Nat) : List (Job × Nat) → List (Job × Nat)
  | [] => [q]
  | p :: l => if modeBefore p q then p :: modeInsert q l else q :: p :: l

/-- The commanded mask that the next decision of side `o` starts from. -/
def State.cmdMask (s : State) (o : Side) : Nat :=
  match (s.side o).modeNext, (s.side o).snap with
  | some m, _ => m.mask
  | none, some q => q.cmd
  | none, none => s.get (.side o) F.CFG_MODE_CMD 0

/-- The packets of sides `xs` that have arrived by instant `t` decided under ordering side `o`: every side of `xs` has its next commanded
mask and its outcomes. -/
def State.decideModes (s : State) (o : Side) (xs : List Side) (t : Nat) : State :=
  let due := (xs.flatMap (fun y => (s.side y).modeReqs)).filter (fun q => decide (q.2 ≤ t))
  let last := ((s.side o).modeNext).bind (fun m => m.last)
  let r := modeRun (s.hwMask o) (due.foldl (fun l q => modeInsert q l) []) (s.cmdMask o) last
  s.each xs (fun s y =>
    let v := s.side y
    s.setSide y { v with
      modeReqs := v.modeReqs.filter (fun q => !decide (q.2 ≤ t))
      modeDone := v.modeDone ++ r.2.2.filter (fun d => d.1.side = y)
      modeNext := some ⟨r.1, r.2.1⟩ })

/-! ## The snapshot (R128 step 1) -/

/-- Length of a tick on the time domain, in 1/1024 ns (R128). -/
def tickLen : Nat := 100000 * 1024

/-- The next commit tick of side `x`: the first multiple of 100 us on its tick domain whose snapshot still lies ahead (R128), after the last
one, and at least 50 us after a change of scale (R413). -/
def State.nextTick (s : State) (x : Side) : Nat :=
  let v := s.side x
  let from_ := max (s.now + 25000) (max v.tickMin (v.tickAt + 50000))
  let t := s.tickTime x
  s.now + ceilDiv (ceilDiv (t + (from_ - s.now) * 1024) tickLen * tickLen - t) 1024

/-- The snapshot of side `x` for the tick at `t`. SPLIT leaves once the peer is healthy and the mirror to it current (R273). -/
def State.takeSnap (s : State) (x : Side) (t : Nat) : State :=
  let h := Holder.side x
  let s := if s.is h F.SIDE_STATUS_SPLIT 0 ∧ s.is h F.SIDE_STATUS_PEER_HEALTHY 0 ∧ s.is h F.SIDE_STATUS_MIRROR_CURRENT 0 then
      s.set h F.SIDE_STATUS_SPLIT 0 0 else s
  let s := if (s.side x).modeNext.isSome then s
    else if s.shares then s.decideModes s.orderer [.a, .b] (t - 25000) else s.decideModes x [x] (t - 25000)
  let v := s.side x
  let old := v.snap
  let m := (v.modeNext).getD ⟨s.get h F.CFG_MODE_CMD 0, none⟩
  let q : Snap := ⟨some t, m.mask, s.hwMask x, (match m.last with
      | some j => some j
      | none => old.bind (fun q => q.last)), v.work, v.used,
    ((old.map (fun q => q.modes)).getD []) ++ v.modeDone, ((old.map (fun q => q.fields)).getD []) ++ v.fieldReqs⟩
  (s.setSide x { v with snap := some q, modeNext := none, modeDone := [], fieldReqs := [] }).set h F.CFG_STATUS_PENDING 0 1

/-- The snapshot that the tick of side `x` at `t` puts in force: one taken for it already, or held over from a deferred tick (R130), or a new
one. -/
def State.readySnap (s : State) (x : Side) (t : Nat) : State :=
  match (s.side x).snap with
  | some q => if q.at_ = none ∨ q.at_ = some t then s else s.takeSnap x t
  | none => s.takeSnap x t

/-- Instant of the tick that a COMMIT_TICK of side `x` is: that of its snapshot when this still lies ahead, else the next one. -/
def State.tickOf (s : State) (x : Side) : Nat :=
  match (s.side x).snap with
  | some ⟨some t, _, _, _, _, _, _, _⟩ => if s.now ≤ t then t else s.nextTick x
  | _ => s.nextTick x

/-- The snapshot of side `x` taken at its own instant when a tick of the other side at `t` passes it. -/
def State.otherSnap (s : State) (x : Side) (t : Nat) : State :=
  if s.up x ∧ (s.side x).firstCommit ∧ (s.side x).snap = none ∧ s.nextTick x ≤ t + 25000 then s.takeSnap x (s.nextTick x) else s

/-! ## What a commit does on each unit -/

/-- A snapshot's active mask. -/
def Snap.active (q : Snap) : Nat := q.cmd ||| q.hw

/-- The records that a snapshot merges. -/
def Snap.recs (q : Snap) : List Rec := q.work ++ fixedRecs

/-! ### The calibration set (R133 to R135) -/

/-- Address of item `t` in the copy of side `x`: in the bank that the set's own pointer names (R134, R441). -/
def State.calAddr (s : State) (x : Side) (t : Nat) : Nat := 0x80010000 + (s.byte x 0x800000FF).toNat % 2 * 0x10000 + 8 * t

/-- Item `t` of the calibration copy of side `x`: value and written-by. -/
def State.calItem (s : State) (x : Side) (t : Nat) : CalItem := ⟨s.loadLE x (s.calAddr x t) 5, s.loadLE x (s.calAddr x t + 5) 2⟩

/-- The word of item `t` that side `x` has in use: a value replaced since its last commit stands until the next (R134). -/
def State.calWord (s : State) (x : Side) (t : Nat) : Nat :=
  let old := Tab.at 0 (s.side x).calOld t
  if old = 0 then (s.calItem x t).value else old - 1

/-- The items that the units of die `d` use: those of its channels, of the feeds and of the coolant (R133). -/
def dieCalItems (d : Nat) : List Nat :=
  (List.range 5).flatMap (fun k => (List.range 16).map (fun n => 0x40 * k + 16 * d + n)) ++
    [0x1C0, 0x1C1, 0x1C2, 0x1C3, 0x1C4, 0x1C5, 0x1C8]

/-- Die `d` under side `x` after a move: limits in force, the loss time, the mask and the calibration that its holder delivers (R134, R135,
R170, R204, R260). -/
def State.dieMoved (s : State) (x : Side) (d active : Nat) : State :=
  let s := s.set (.grate d) F.GRATE_TOKEN_LOSS 0 (clampNat 60 500 (s.get (.side x) F.SIDE_CFG_LOSS 0))
  let s := s.set (.grate d) F.DMP_STATUS_UNCAL 0 (b2n (s.side x).calIdle)
  let cal := if (s.side x).calIdle then [] else (dieCalItems d).map (fun t => (t, s.calWord x t + 1))
  let s := s.setDie d { s.die d with committed := active, cal := cal }
  s.each ((List.range 16).map (fun n => 16 * d + n)) (fun s c => s.limitEff c)

/-- The Flue die under side `x` after a move from state `old`: the reserves of R342, the shapers of R349, the gates of R350, the external roles of R397. -/
def State.flueMoved (s : State) (x : Side) (old : State) : State :=
  let s := s.set (.grate 4) F.GRATE_TOKEN_LOSS 0 (clampNat 60 500 (s.get (.side x) F.SIDE_CFG_LOSS 0))
  let s := if s.reserveClamped ∧ ¬ (old.reserveClamped ∧ old.flue.committed) then s.flueEvt F.FLUE_EVT_RSV_CLAMP else s
  let s := s.each ((List.range 17).filter (fun p => !s.fb F.TAS_CFG_ENABLE p)) (fun s p => (s.tasStop p).set .flue F.TAS_STATUS_ERROR p 0)
  let s := s.each (List.range 136) (fun s i =>
    if s.get .flue F.PORT_Q_CFG_CBS_EN i = old.get .flue F.PORT_Q_CFG_CBS_EN i then s else s.set .flue F.PORT_Q_CREDIT i 0)
  ({ s with flue := { s.flue with committed := true } }).externalRoles

/-- The contents of every region of channel `k` discarded (R373): pending transmissions end with RESULT CANCELLED, the queues and priority
buffers are empty. -/
def State.canDiscard (s : State) (x : Side) (k : Nat) : State :=
  let pend := s.cg x F.CAN_TX_PEND k
  let s := s.each ((List.range 32).filter (fun b => pend.testBit b)) (fun s b => (s.txDrop x k b).txDone x k b 4)
  let s := s.setCan x k { s.can x k with taken := none, next := none, nextSealed := false, nextAt := none }
  let s := s.each [0, 1] (fun s q => (s.cs x F.CAN_RXQ_IDX_PUT (2 * k + q) 0).cs x F.CAN_RXQ_IDX_GET (2 * k + q) 0)
  (s.toReset (.side x) F.CAN_PRIO_STATUS_FULL k).toReset (.side x) F.CAN_PRIO_STATUS_OVERWRITTEN k

/-- Flag `f` of a channel that its configuration keeps off the bus follows `bad`; it is logged when it comes up (R369, R373). -/
def State.canBar (s : State) (x : Side) (k : Nat) (f : Fld) (code : Option Nat) (bad : Bool) : State :=
  if s.cb x f k = bad then s
  else
    let s := s.cs x f k (b2n bad)
    match code with
    | some c => if bad then s.log x c (canProd k) [] else s
    | none => s

/-- The timing fields of local channel `k`; CAN_XBT only with XL (R369, R395). -/
def canTiming (k : Nat) : List Fld :=
  [F.CAN_NBT_BRP_M1, F.CAN_NBT_TSEG1_M1, F.CAN_NBT_TSEG2_M1, F.CAN_NBT_SJW_M1, F.CAN_DBT_BRP_M1, F.CAN_DBT_TSEG1_M1, F.CAN_DBT_TSEG2_M1,
    F.CAN_DBT_SJW_M1, F.CAN_DBT_TDC_EN, F.CAN_DBT_TDC_OFF] ++
  (if hasXl k then [F.CAN_XBT_BRP_M1, F.CAN_XBT_TSEG1_M1, F.CAN_XBT_TSEG2_M1, F.CAN_XBT_SJW_M1, F.CAN_XBT_TDC_EN, F.CAN_XBT_TDC_OFF,
    F.CAN_XBT_TMS] else [])

/-- The fields that the schedule of local channel `k` rests on, with their indices (R383, R384). -/
def canTable (k : Nat) : List (Fld × List Nat) :=
  [F.CAN_TT_CFG_REF_ID, F.CAN_TT_CFG_TXEN, F.CAN_TT_CFG_NB_LOG2, F.CAN_TT_CFG_DOMAIN, F.CAN_TT_CFG_ROLE, F.CAN_TT_CFG_ENABLE, F.CAN_TT_CYCLE,
    F.CAN_TT_BASE_S, F.CAN_TT_BASE_NS].map (fun f => (f, [k])) ++
  [(F.CAN_TT_WIN, (List.range 32).map (32 * k + ·)), (F.CAN_TXB_CFG_SCHED, (List.range 32).map (32 * k + ·)), (F.CAN_RAM_R_COUNT, [4 * k]),
    (F.CAN_TT_MAT, (List.range 512).map (512 * k + ·))]

/-- An entry in use of the matrix of channel `k` names no scheduled buffer (R384). -/
def State.matWrong (s : State) (x : Side) (k : Nat) : Bool :=
  ((List.range 32).filter (fun w => 0 < w && s.winUsed x k w)).any (fun w =>
    (List.range (s.ttCount x k)).any (fun c => (s.matEntry x k c w).2.2))

/-- The schedule matrix of a channel after a move from state `old`: a change of it is judged anew (R383, R384), and one that is no longer
enabled, is in another role or is wrong stops. -/
def State.canSchedule (s : State) (x : Side) (k : Nat) (old : State) : State :=
  let on := s.cb x F.CAN_TT_CFG_ENABLE k
  let changed := (canTable k).any (fun e => e.2.any (fun i => s.cg x e.1 i != old.cg x e.1 i))
  let s := if changed then s.cs x F.CAN_STATUS_TT_CONFIG_ERR k (b2n (on && (s.ttWrong x k || s.matWrong x k))) else s
  if on ∧ s.cg x F.CAN_TT_CFG_ROLE k = old.cg x F.CAN_TT_CFG_ROLE k then (if changed ∧ s.ttWrong x k then s.ttStop x k else s)
  else (s.ttStop x k).setCan x k { (s.ttStop x k).can x k with refAt := none }

/-- CAN channel `k` of side `x` after a move from state `old` (R145, R369 to R373): new timing, good or bad, waits for the end of the frame in
progress, and a commit that clears the gate of the mode in force moves the channel to OFF. -/
def State.canMoved (s : State) (x : Side) (k : Nat) (old : State) : State :=
  let regions := (List.range 4).any (fun r => [F.CAN_RAM_R_ESIZE, F.CAN_RAM_R_COUNT, F.CAN_RAM_R_START].any
    (fun f => s.cg x f (4 * k + r) != old.cg x f (4 * k + r)))
  let s := if regions then s.canDiscard x k else s
  let s := s.canBar x k F.CAN_STATUS_TIMING_BAD (some 0x900) (s.timingBad x k)
  let s := s.canBar x k F.CAN_STATUS_RAM_BAD (some 0x901) (s.ramBad x k)
  let s := s.canBar x k F.CAN_STATUS_LIMP none ((s.side x).limp && decide (250000 < s.cfgRate x k))
  let m := s.canMode x k
  let s := if (canTiming k).any (fun f => s.cg x f k != old.cg x f k) ∧ s.canMode x k ≠ 0 then
      s.setCan x k { s.can x k with retime := some (old.nominalRate x k, s.now) } else s
  let s := if s.canBarred x k ∧ m ≠ 0 ∧ ((s.can x k).retime.isNone ∨ s.cb x F.CAN_STATUS_RAM_BAD k) then s.canSetMode x k 0 else s
  let s := s.canSchedule x k old
  let s := if (s.can x k).booted then s
    else
      let b := s.cg x F.CAN_CFG_BOOT_MODE k
      let m := if 8 ≤ b then 0 else b
      (s.setCan x k { s.can x k with booted := true }).canSetMode x k (if m = 0 ∧ s.ember.listen ∧ s.canWoke x k then 5 else m)
  if m ≠ 0 ∧ (old.cg x F.CAN_GATE k).testBit m ∧ ¬ (s.cg x F.CAN_GATE k).testBit m then (s.canPendMode x k 0).canEvent x k 8 0 else s

/-- The local units of side `x` after a move from state `old`: interrupt sources that change worlds (R44), CAN channels, the lifeline, the tally's and the
tick's scale (R413, R463). -/
def State.localMoved (s : State) (x : Side) (old : State) : State :=
  let h := Holder.side x
  let s := s.each (List.range 128) (fun s n =>
    if s.get h F.INTR_ROUTE_WORLD n = old.get h F.INTR_ROUTE_WORLD n then s
    else (s.clearBit h F.INTR_PENDING (n / 32) (n % 32)).clearBit h F.INTR_ENABLE (n / 32) (n % 32))
  let s := s.each (List.range 6) (fun s k => if s.present (.can x (Fin.ofNat 6 k)) then s.canMoved x k old else s)
  let s := (s.lifeMoved x).ashFill x old
  let s := if s.get h F.TALLY_PERIOD 0 = old.get h F.TALLY_PERIOD 0 then s else s.tallyRule x
  if s.get h F.TIME_CFG 0 = old.get h F.TIME_CFG 0 then s else s.scaleChange x (s.tickDomain x) false

/-! ## The move (R128 steps 2 to 6, R130, R131) -/

/-- A unit of a commit: bit of CFG_STALE, holder of its fields, and code in COMMIT_STALE (R90, R130). -/
structure CommitUnit where
  bit : Nat
  hold : Holder
  code : Nat
  deriving DecidableEq, Repr

/-- Side `x` commits token `t`'s die: it holds it and no claim is pending, or its claim was recorded before the snapshot (R128, R131, R263). -/
def State.commits (s : State) (x : Side) (t snapAt : Nat) : Bool :=
  (s.holds x t && !s.claimPending t) || (s.tokState t == 2 && s.claims x t && decide ((s.die t).claimAt ≤ snapAt))

/-- The side is about to take over token `t`. -/
def State.takesOver (s : State) (x : Side) (t snapAt : Nat) : Bool := s.commits x t snapAt && s.claimPending t

/-- The units that side `x` commits (R128, R131). -/
def State.commitUnits (s : State) (x : Side) (snapAt : Nat) : List CommitUnit :=
  ⟨5, .side x, 0⟩ ::
    ((List.range 4).filter (fun d => s.commits x d snapAt && s.present (dieUnit d))).map (fun d => ⟨d, .grate d, 0x040 + d⟩) ++
    (if s.commits x 4 snapAt && s.present .flue then [⟨4, .flue, 0x050⟩] else [])

/-- The fields of unit `u` in the merged configuration. A mantel image's PAIR_CFG.MODE waits for Kindling (R125, R280). -/
def State.loadUnit (s : State) (x : Side) (first : Bool) (u : CommitUnit) (l : List (Holder × Fld × Nat × Nat)) : State :=
  match u.hold with
  | .grate d => (s.putConfig u.hold l).clampBounds d
  | .side _ =>
    let mode := s.get (.side x) F.PAIR_CFG_MODE 0
    let t := s.putConfig u.hold l
    let t := if first then t else t.set (.side x) F.PAIR_CFG_MODE 0 mode
    if s.orderer = x then t.putConfig .ember l else t
  | _ => s.putConfig u.hold l

/-- The snapshot would change a value of unit `u`, or the mask that a die keeps (R204), or it takes the unit over. -/
def State.unitChanges (s : State) (x : Side) (q : Snap) (first : Bool) (snapAt : Nat) (l : List (Holder × Fld × Nat × Nat))
    (u : CommitUnit) : Bool :=
  first || (s.loadUnit x first u l).regs != s.regs ||
    (match u.hold with
     | .grate d => s.takesOver x d snapAt || (s.die d).committed != q.active
     | .flue => s.takesOver x 4 snapAt || !s.flue.committed
     | _ => s.get (.side x) F.CFG_MODE_CMD 0 != q.cmd || s.get (.side x) F.CFG_MODE_HW 0 != q.hw)

/-- Unit `u` moves its shadow copy into force; a token taken over passes with it (R116, R263). -/
def State.moveUnit (s : State) (x : Side) (q : Snap) (first : Bool) (snapAt : Nat) (l : List (Holder × Fld × Nat × Nat))
    (u : CommitUnit) : State :=
  let old := s
  let raw := s.putConfig u.hold l
  let s := s.loadUnit x first u l
  match u.hold with
  | .grate d =>
    let was := old.putConfig u.hold (mergedAll x ((old.side x).inForce ++ fixedRecs) (old.die d).committed)
    let same := boundPairs.all (fun p => raw.get u.hold p.1 0 == was.get u.hold p.1 0 && raw.get u.hold p.2.1 0 == was.get u.hold p.2.1 0)
    let s := if s.regs = old.regs ∧ same ∧ ¬ old.takesOver x d snapAt then s else s.logClamps x d raw
    let s := s.dieMoved x d q.active
    if old.takesOver x d snapAt then s.passToken d x else s
  | .flue =>
    let s := s.flueMoved x old
    if old.takesOver x 4 snapAt then s.passToken 4 x else s
  | _ => s.localMoved x old

/-- MODE_CHANGE, with its own placement of the arguments (R118). Source, tag and side are those of the CFG_MODE_SET that changed the commanded
mask last; where none did (BOOT_MASK at the first commit, a mask adopted from the other side) they are zeros (DESIGN CHOICE, log entry
23). -/
def State.logModeChange (s : State) (x : Side) (q : Snap) : State :=
  let h := Holder.side x
  let c := s.get h F.CFG_MODE_CMD 0 != q.cmd
  let w := s.get h F.CFG_MODE_HW 0 != q.hw
  if c || w then
    let t := s.ashStamp x 2
    let who := match q.last with
      | some j => if c then j.src * 2 ^ 2 + j.pkt.tag * 2 ^ 8 + j.side.num * 2 ^ 16 else 0
      | none => 0
    s.ashPut x 2 ⟨ashW0 0x200 2 (!s.locked x) false (b2n c + b2n w * 2 + who), secWord t, nsWord t,
      s.get h F.CFG_MODE_ACTIVE 0 + q.active * 2 ^ 12 + q.hw * 2 ^ 24⟩
  else s

/-- The masks of the snapshot in force; the entry of LOCKDOWN relocks the Poker (R453, R457). -/
def State.putMasks (s : State) (x : Side) (q : Snap) : State :=
  let h := Holder.side x
  let s := ((s.set h F.CFG_MODE_CMD 0 q.cmd).set h F.CFG_MODE_HW 0 q.hw).set h F.CFG_MODE_ACTIVE 0 q.active
  if q.active.testBit 11 then s.pokerEnd x else s

/-- The version of overlay image n in use, 0 when the overlay uses the mantel image's records (R125). -/
def State.ovlVersion (s : State) (x : Side) (n : Nat) : Nat :=
  match s.overlayInUse x n with
  | some a => s.imgVersion x a
  | none => 0

/-- Versions of the images that the snapshot puts in force (R125); REBOOT_PENDING and the version in CFG_MANTEL_PENDING while PAIR_CFG.MODE
waits for Kindling, which applies it before the first commit. -/
def State.putVersions (s : State) (x : Side) (q : Snap) (first : Bool) (l : List (Holder × Fld × Nat × Nat)) : State :=
  let h := Holder.side x
  let used := (s.side x).used
  let t := s.setSide x { s.side x with used := q.used }
  let mantel := match t.imageInUse x 0 with
    | some a => t.imgVersion x a
    | none => 0
  let s := (List.range 12).foldl (fun s n => s.set h F.CFG_OVL_VERSION n (t.ovlVersion x n)) (t.set h F.CFG_MANTEL_VERSION 0 mantel)
  let s := s.setSide x { s.side x with used := used }
  let want := match l.find? (fun e => e.1 = h ∧ e.2.1 = F.PAIR_CFG_MODE) with
    | some e => e.2.2.2
    | none => F.PAIR_CFG_MODE.rst.at h 0
  let wait := !first && want != s.get h F.PAIR_CFG_MODE 0
  (s.set h F.CFG_STATUS_REBOOT_PENDING 0 (b2n wait)).set h F.CFG_MANTEL_PENDING 0 (if wait then mantel else 0)

/-- A status bit of both sides follows a comparison of the sides; each side logs the start of a run (R126, R132). -/
def State.compareSides (s : State) (f : Fld) (code : Nat) (differ : Bool) : State :=
  s.each [Side.a, .b] (fun s y =>
    let s' := s.set (.side y) f 0 (b2n differ)
    if differ ∧ ¬ s.is (.side y) f 0 then s'.log y code 2 [] else s')

/-- The sides run different images. -/
def State.imagesDiffer (s : State) : Bool :=
  s.get (.side .a) F.CFG_MANTEL_VERSION 0 != s.get (.side .b) F.CFG_MANTEL_VERSION 0 ||
    (List.range 12).any (fun n => s.get (.side .a) F.CFG_OVL_VERSION n != s.get (.side .b) F.CFG_OVL_VERSION n)

/-- The comparisons of a commit: image versions over the cross bridge (R126), commanded masks (R132). -/
def State.compareCommit (s : State) (x : Side) : State :=
  let s := if s.shares ∧ (s.side x.other).firstCommit then s.compareSides F.CFG_STATUS_IMAGE_MISMATCH 0x205 s.imagesDiffer else s
  let differ := s.get (.side .a) F.CFG_MODE_CMD 0 != s.get (.side .b) F.CFG_MODE_CMD 0
  if s.up x.other ∧ (s.side x.other).firstCommit then
    if s.shares then (if differ then s else s.compareSides F.CFG_STATUS_MASK_DIVERGED 0x208 false)
    else if differ then s.compareSides F.CFG_STATUS_MASK_DIVERGED 0x208 true else s
  else s

/-- The replies of step 6 (R119, R127). -/
def State.commitReplies (s : State) (q : Snap) : State :=
  let s := s.each q.modes (fun s m => if m.2 then s.done m.1 stOk 0 [q.cmd + q.active * 2 ^ 12] else s.done m.1 stMode 11 [])
  s.each q.fields (fun s j => s.done j stOk 0 [])

/-- CFG_STALE of side `x` as one number. -/
def State.staleUnits (s : State) (x : Side) : Nat :=
  s.get (.side x) F.CFG_STALE_GRATE 0 + s.get (.side x) F.CFG_STALE_FLUE 0 * 2 ^ 4 + s.get (.side x) F.CFG_STALE_LOCAL 0 * 2 ^ 5

/-- CFG_STALE set. -/
def State.setStale (s : State) (x : Side) (m : Nat) : State :=
  ((s.set (.side x) F.CFG_STALE_GRATE 0 (m % 16)).set (.side x) F.CFG_STALE_FLUE 0 (bits m 4 4)).set (.side x) F.CFG_STALE_LOCAL 0
    (bits m 5 5)

/-- No unit moves at this tick (R130). -/
def State.deferCommit (s : State) (x : Side) (q : Snap) : State :=
  let v := s.side x
  let s := s.setSide x { v with tickFails := v.tickFails + 1, snap := some { q with at_ := none } }
  (s.set (.side x) F.CFG_STATUS_DEFERRED 0 1).inc (.side x) F.CFG_DEFER_COUNT 0

/-- The calibration set of side `x` comes into use at a commit tick (R134, R135). -/
def State.calTake (s : State) (x : Side) : State :=
  s.setSide x { s.side x with calOld := [], calIdle := s.is (.side x) F.CFG_STATUS_CAL_BAD 0 }

/-- The snapshot comes into force on the units `go`; the units of mask `late` stay out (R128, R130). -/
def State.moveCommit (s : State) (x : Side) (q : Snap) (first : Bool) (snapAt : Nat) (l : List (Holder × Fld × Nat × Nat))
    (units : List CommitUnit) (late : Nat) : State :=
  let h := Holder.side x
  let go := units.filter (fun u => !late.testBit u.bit)
  let stale := s.staleUnits x
  let changed := first || go.any (s.unitChanges x q first snapAt l) || s.get h F.CFG_MODE_CMD 0 != q.cmd || s.get h F.CFG_MODE_HW 0 != q.hw
  let s := if changed then s.logModeChange x q else s
  let s := ((s.putMasks x q).putVersions x q first l).calTake x
  let s := s.each go (fun s u => s.moveUnit x q first snapAt l u)
  let s := s.each (units.filter (fun u => late.testBit u.bit && !stale.testBit u.bit)) (fun s u => s.log x 0x207 2 [.nar 12 u.code])
  let s := if late ≠ 0 ∧ (changed ∨ clearMask late stale ≠ 0) then s.inc h F.CFG_STALE_COUNT 0 else s
  let s := s.setStale x late
  let s := if changed then s.inc h F.CFG_COMMIT_SEQ 0 else s
  let v := s.side x
  let s := (s.setSide x { v with tickFails := 0, snap := none, inForce := q.work, firstCommit := true }).set h F.CFG_STATUS_PENDING 0 0
  (s.compareCommit x).commitReplies q

/-- The commit of side `x` at this instant, whose snapshot is ready: `unready` are the units that have not answered READY. -/
def State.commitAt (s : State) (x : Side) (first : Bool) (unready : Nat) : State :=
  match (s.side x).snap with
  | none => s
  | some q =>
    let snapAt := s.now - 25000
    let l := mergedAll x q.recs q.active
    let units := s.commitUnits x snapAt
    let stale := s.staleUnits x
    let late := (units.filter (fun u => unready.testBit u.bit && (stale.testBit u.bit || s.unitChanges x q first snapAt l u))).foldl
      (fun m u => Machine.setBit m u.bit) 0
    if clearMask late stale ≠ 0 ∧ (s.side x).tickFails < 10 then s.deferCommit x q
    else s.moveCommit x q first snapAt l units late

/-! ## The tick -/

/-- Claims of the home side after its first commit (R261). -/
def State.homeClaims (s : State) (x : Side) : State :=
  s.each (List.range 5) (fun s t =>
    if bits (s.get (.side x) F.SIDE_CFG_HOME 0) t t = x.num then s.vacantClaim x t else s)

/-- Tokens of mask `m` that side `x` holds. -/
def State.heldOf (s : State) (x : Side) (m : Nat) : Nat :=
  (List.range 5).foldl (fun k t => if m.testBit t && s.holds x t then Machine.setBit k t else k) 0

/-- SIDE_CLAIM and NET_TOKEN_CLAIM packets whose named tokens have all passed or been refused, or that are 1 ms old, are answered (R269). -/
def State.claimReplies (s : State) (x : Side) : State :=
  let open_ (q : Job × Nat) : Bool :=
    decide (s.now < q.1.takenAt + 1000000) && (List.range 5).any (fun t => q.2.testBit t && s.claimOpen x t)
  let ready := (s.side x).claimReqs.filter (fun q => !open_ q)
  let s := s.setSide x { s.side x with claimReqs := (s.side x).claimReqs.filter open_ }
  s.each ready (fun s q => s.done q.1 stOk 0 [if q.1.pkt.code = 0x601 then s.heldOf x 16 / 16 else s.heldOf x 15])

/-- What each commit tick does besides the commit: the count of ticks between checkpoints (R277), the marker to the dies held (R412), RETURN_HOME's waits,
claims to be answered. -/
def State.tickDone (s : State) (x : Side) : State :=
  let v := s.side x
  let s := s.setSide x { v with tickAt := s.now + 1, ckptTicks := v.ckptTicks + 1, returned := false }
  let s := s.each ((List.range 4).filter (fun d => s.holds x d && s.dieRuns d && !s.linkDown x (2 + d))) State.marker
  s.returnWaits.claimReplies x

/-- COMMIT_TICK (R128): bit d of `unready` is grate die d, bit 4 the Flue die, bit 5 the local units. -/
def execCommitTick (x : Side) (unready : BitVec 6) (s : State) : Out :=
  ok (if s.up x ∧ (s.side x).firstCommit then
    let t := s.tickOf x
    let s := s.readySnap x t
    let s := s.otherSnap x.other t
    let s := s.due t
    (s.commitAt x false unready.toNat).tickDone x
  else s)

/-- The first commit of side `x` after its reset (R120, R128, R261): the commanded mask is BOOT_MASK, every unit is ready. -/
def State.commitFirst (s : State) (x : Side) (bootMask : Nat) : State :=
  let v := s.side x
  let s := s.setSide x { v with modeNext := some ⟨bootMask, none⟩, snap := none }
  let s := (s.takeSnap x (s.now + 25000)).commitAt x true 0
  let s := (s.homeClaims x).setSide x { (s.homeClaims x).side x with firstCommitAt := s.now, tickAt := s.now + 1 }
  s.showTokens x

end Sys2Proof.Machine
end

