-- ==== Sys2Proof/Machine/Bypass.lean ====
section
/-! DEFINITION. The draught bypass (chapter 11 R313 to R322). -/
namespace Sys2Proof.Machine
open Sys2Proof

/-! ## Its conditions, closing and opening -/

/-- The conditions of R314, in the order of their codes. -/
def State.bypConditions (s : State) : List Bool :=
  [!s.flue.powered || !s.ember.gs.good, s.flue.reset_ || !s.present .flue, s.flue.miss, s.is .flue F.BYP_STATUS_FORCED 0,
   s.is .flue F.BYP_STATUS_SELFTEST_FAIL 0, !s.flue.committed,
   !s.is .flue F.BYP_CFG_AUTO_OPEN 0 && !s.is .flue F.BYP_STATUS_OPEN_REQ 0]

/-- The lowest-coded condition present, 0 when none is (R314). -/
def State.bypCause (s : State) : Nat :=
  let i := s.bypConditions.idxOf true
  if i < 7 then i + 1 else 0

/-- The bypass closes when a condition holds (R316); the isolation switches open and the ring ports lose their links (R320). -/
def State.closeBypass (s : State) : State :=
  if s.bypCause ≠ 0 ∧ ¬ s.is .flue F.BYP_STATUS_CLOSED 0 then
    let s := if s.flueRuns then (s.portLink 0 false).portLink 1 false else s
    let s := (s.set .flue F.BYP_STATUS_ISOLATION_ON 0 0).set .flue F.BYP_STATUS_CLOSED 0 1
    if s.flue.powered then s.inc .flue F.BYP_CLOSE_COUNT 0 else s
  else s

/-- BYPASS_CLOSE (R316). -/
def execBypassClose (s : State) : Out := ok s.closeBypass

/-- BYPASS_OPEN (R317): no condition holds and both ring PHYs have passed their self-test since the last reset of the Flue die. SPEED takes
effect (R322). -/
def execBypassOpen (s : State) : Out :=
  ok (if s.bypCause = 0 ∧ s.is .flue F.BYP_STATUS_CLOSED 0 ∧ s.flue.selftested = 3 then
    let speed := s.get .flue F.BYP_CFG_SPEED 0 % 3
    let s := { s with flue := { s.flue with ringSpeed := speed } }
    ((s.set .flue F.BYP_STATUS_CLOSED 0 0).set .flue F.BYP_STATUS_ISOLATION_ON 0 1).inc .flue F.BYP_OPEN_COUNT 0
  else s)

/-- BYPASS_SELFTEST (R317): a ring PHY tests itself once after each reset of the Flue die. -/
def execBypassSelftest (p : Fin 2) (pass : Bool) (s : State) : Out :=
  ok (if s.present .flue ∧ ¬ s.flue.reset_ ∧ ¬ s.flue.selftested.testBit p then
    if pass then { s with flue := { s.flue with selftested := Machine.setBit s.flue.selftested p } }
    else (s.set .flue F.BYP_STATUS_SELFTEST_FAIL 0 1).logBoth 0x702 27 [.nar 8 p]
  else s)

/-- BYP_SENSE_CHANGE (R315): a side senses the driver's bias itself and logs the change with CAUSE, or 2 while the Flue die cannot
report it. -/
def execBypSenseChange (x : Side) (s : State) : Out :=
  let c := s.get .flue F.BYP_STATUS_CLOSED 0
  ok (if s.up x ∧ s.get (.side x) F.LIFE_STATUS_BYP_SENSE 0 ≠ c then
    let s := (s.set (.side x) F.LIFE_STATUS_BYP_SENSE 0 c).lifeEvt x F.LIFE_EVT_BYPASS
    s.log x (if c = 1 then 0x700 else 0x701) 22 [.nar 4 (if s.present .flue then s.bypCause else 2)]
  else s)

/-- The reply of NET_BYPASS_STATE: CLOSED and FLUE_OK, which is the presence of the Flue die (R97, R315). -/
def State.bypReply (s : State) : Nat := s.get .flue F.BYP_STATUS_CLOSED 0 + 2 * b2n (s.present .flue)

/-- NET_BYPASS_STATE (R315): query, force closed, or ask for the opening; while the Flue die is ABSENT Chromir answers from the
side's own sense, and FORCED holds from a REQ 1 accepted then. -/
def State.netBypass (s : State) (x : Side) (j : Job) : State :=
  let req := bits (j.pkt.p 1) 1 0
  if s.present .flue then
    if req ≠ 0 ∧ ¬ s.holds x 4 then s.done j stMaster (s.masterDetail 4) []
    else
    let s := if req = 1 then (s.set .flue F.BYP_STATUS_FORCED 0 1).closeBypass
      else if req = 2 then (s.set .flue F.BYP_STATUS_FORCED 0 0).set .flue F.BYP_STATUS_OPEN_REQ 0 1
      else s
    s.done j stOk 0 [s.bypReply]
  else if req = 0 then s.done j stOk 0 [1]
  else if req = 1 then (s.set .flue F.BYP_STATUS_FORCED 0 1).done j stOk 0 [s.get (.side x) F.LIFE_STATUS_BYP_SENSE 0]
  else s.done j stAbsent 0x050 []

/-- NET_BYPASS_STATE (R315). -/
def execNetBypassState (x : Side) (s : State) : Out := ok (s.chromir x 0x603 (fun s j => s.netBypass x j))

end Sys2Proof.Machine
end

