-- ==== Sys2Proof/Machine/Grate.lean ====
section
/-! DEFINITION. The grate and Damper opcodes at a die (chapter 03 R92 to R94, chapter 06 R192 to R195, chapter 09 R259 to R268). -/
namespace Sys2Proof.Machine
open Sys2Proof

/-! ## The token at the die (R259, R262, R267) -/

/-- A packet of side `x` that needs the token of die `d`: `f` when the die takes it, `no` when it answers NOT_MASTER. The first one of
a new holder ends every hold of the die (R221). -/
def State.asMaster (s : State) (d : Nat) (x : Side) (f no : State → State) : State :=
  let v := s.die d
  if s.holds x d then
    f (if v.masterNew then (s.setDie d { v with masterNew := false }).each (chansOf d) (fun s c => s.holdCut c 4) else s)
  else if s.is (.grate d) F.GRATE_TOKEN_WINDOW 0 ∧ v.oldHolder = some x ∧ s.tokState d ≠ 3 then
    f (s.inc (.grate d) F.GRATE_LATE_APPLIED_COUNT 0)
  else no (if v.oldHolder = some x ∧ ¬ s.is (.grate d) F.GRATE_TOKEN_WINDOW 0 then s.inc (.grate d) F.GRATE_LATE_REFUSED_COUNT 0 else s)

/-! ## An action on a channel (R192, R515) -/

/-- What a command or spark action asks of a channel: off, with the PWM values that a CH_PWM of DUTY 0 stores, or on. -/
inductive Act where
  | off (store : Option TurnOn)
  | on (t : TurnOn)
  deriving DecidableEq, Repr

/-- How a channel took an action. -/
inductive Done where
  | applied
  | held
  | refused (status detail : Nat)
  deriving DecidableEq, Repr

/-- CH_SET's P1 (R92). -/
def actOfSet (p : Nat) : Act :=
  if p.testBit 0 then .on ⟨false, if p.testBit 1 then bits p 16 8 else 0, 0, 0, 0, 0⟩ else .off none

/-- CH_PWM's P1 (R92). -/
def actOfPwm (p : Nat) : Act :=
  let t : TurnOn := ⟨true, 0, bits p 15 0, bits p 30 16, bits p 31 31, bits p 34 32⟩
  if t.duty = 0 then .off (some t) else .on t

/-- What an action asks of the Damper. A CH_SET with ON 0 and SLEW_EN 1 brings its SLEW too (R206). -/
def Act.ask (a : Act) (turnOn compared : Bool) (slew : Nat) : Ask :=
  match a with
  | .on t => t.ask turnOn false compared
  | .off (some t) => ⟨false, true, 0, t.freq, 0, false, compared⟩
  | .off none => ⟨false, false, 0, 0, slew, false, compared⟩

/-- A turn-off applied, with the PWM values it stores (R515). One by CH_SET runs at its own SLEW, or like any other static transition at the
default; the falling edge of a PWM channel that a CH_PWM turns off runs at PWM_SLEW (R167). -/
def State.offApply (s : State) (c : Nat) (store : Option TurnOn) (slew : Nat) : State :=
  match store with
  | some t =>
    let edge := if s.inPwm c then s.slewPwm c else s.slewDef c
    ((s.pwmRegs c t).cw c F.CH_PWM_DUTY_DEFF 0).applyOff c edge
  | none => (s.applyOff c (if slew = 0 then s.slewDef c else slew)).cw c F.CH_STATE_MODE 0

/-- The judgement of a spark turn-on, which is never held (R222). -/
def State.judgeSpark (s : State) (c : Nat) : State × Verdict :=
  let d := c / 16
  let p := s.prio c
  let bad := s.misfitDie c
  if p = 0 then (s, .allow)
  else if s.riding d ∧ 2 ≤ p then (s, .refuse stBudget (budgetDetail 3 (feedOf d)))
  else match s.overOn c with
    | some b => (s, .refuse stBudget (budgetDetail 5 b))
    | none =>
      if bad = [] then (s, .allow)
      else
        let t := s.shedFor c (some d) State.misfitDie bad
        if p = 1 ∧ t.misfitDie c = [] then (t, .allow) else (s, .refuse stBudget (budgetDetail 1 (bad.headD 0)))

/-- An action on channel `c`: a hold is superseded, then the ceilings, the latch, the budget and R192 decide. `job` is the command that
may be held; a spark action has none. `slew` is the SLEW of a CH_SET with SLEW_EN 1. -/
def State.act (s : State) (c : Nat) (a : Act) (slew : Nat) (compared : Bool) (job : Option Job) : State × Done :=
  let s := s.holdCut c 2
  let st := s.chState c
  let idle := st == 0 || st == 8
  let (turnOn, judged) : Bool × Bool := match a with
    | .off _ => (false, false)
    | .on t => (idle || (s.inPwm c && !t.pwm), idle || (driven st && (s.inPwm c != t.pwm)))
  match s.ceiling c (a.ask turnOn compared slew) with
  | some code => (s.limitRefused c, .refused stLimit code)
  | none =>
    let mark (s : State) : State := s.cw c F.CH_STATE_SPARK_LAST (b2n job.isNone)
    match a with
    | .off store => (mark (s.offApply c store slew), .applied)
    | .on t =>
      if st = 7 then (s, .refused stLimit 0x0F0)
      else if !judged then (mark (s.applyOn c t), .applied)
      else
        let (s, v) := match job with
          | some _ => (s, s.judge c)
          | none => s.judgeSpark c
        match v with
        | .allow => (mark ((s.admitted c).applyOn c t), .applied)
        | .hold against => (s.holdStart c job .command t against, .held)
        | .refuse status detail =>
          (match job with
           | some _ => s.budgetRefused c
           | none => (s.inc (.grate (c / 16)) F.DMP_SPARK_REFUSE_COUNT 0).cn c F.DMP_CH_REFUSE_COUNT, .refused status detail)

/-! ## Fast-path packets -/

/-- A CH_SET or CH_PWM at its die: the reply says how the channel took it. -/
def State.channelCommand (s : State) (d : Nat) (j : Job) (a : Act) (slew : Nat) : State :=
  let c := j.pkt.target
  s.asMaster d j.side
    (fun s =>
      let (s, r) := s.act c a slew j.pkt.compared (some j)
      match r with
      | .applied => s.dieReply d ⟨j, stOk, 0, []⟩
      | .held => s.dieReply d ⟨j, stDelayed, s.holdDetail c, []⟩
      | .refused status detail => s.dieReply d ⟨j, status, detail, []⟩)
    (fun s => s.dieReply d ⟨j, stMaster, s.masterDetail d, []⟩)

/-- CH_SET (R192). -/
def execChSet (x : Side) (d : Fin 4) (s : State) : Out :=
  ok (s.fast x d 0x201 (fun s j =>
    s.channelCommand d j (actOfSet (j.pkt.p 1)) (if (j.pkt.p 1).testBit 1 then bits (j.pkt.p 1) 16 8 else 0)))

/-- CH_PWM (R192). -/
def execChPwm (x : Side) (d : Fin 4) (s : State) : Out :=
  ok (s.fast x d 0x202 (fun s j => s.channelCommand d j (actOfPwm (j.pkt.p 1)) 0))

/-- CH_QUERY (R92): state and the values of the latest sample tick. -/
def execChQuery (x : Side) (d : Fin 4) (s : State) : Out :=
  ok (s.fast x d 0x204 (fun s j =>
    let c := j.pkt.target
    s.dieReply d ⟨j, stOk, 0, [s.chStateWord c % 2 ^ 16, s.cq c F.MEAS_I, s.cq c F.MEAS_V, s.cq c F.MEAS_TJ]⟩))

/-- Selected channels of die `d` that world `w` does not own (R93). -/
def State.groupDenied (s : State) (d sel w : Nat) : Nat :=
  (List.range 16).foldl (fun m n => if sel.testBit n && s.cq (16 * d + n) F.CH_CFG2 != w then Machine.setBit m n else m) 0

/-- Selected channels of die `d` in the order of their judgement (R217): by priority, then by number. -/
def State.groupOrder (s : State) (d sel : Nat) : List Nat :=
  (List.range 4).flatMap (fun p => (chansOf d).filter (fun c => sel.testBit (c % 16) && s.prio c == p))

/-- One channel of a CH_GROUP_SET acts as CH_SET would (R515), and enters the mask of its outcome. -/
def State.groupAct (d : Nat) (j : Job) (p : State × Group) (c : Nat) : State × Group :=
  let (s, g) := p
  let n := c - 16 * d
  let a : Act := if (j.pkt.p 2).testBit n then .on ⟨false, 0, 0, 0, 0, 0⟩ else .off none
  let (s, r) := s.act c a 0 j.pkt.compared (some j)
  match r with
  | .applied => (s, { g with applied := Machine.setBit g.applied n })
  | .held => (s, { g with held := Machine.setBit g.held n })
  | .refused _ _ => (s, { g with refused := Machine.setBit g.refused n })

/-- A CH_GROUP_SET on the channels of die `d` that its world owns. -/
def State.groupSet (s : State) (d sel denied : Nat) (j : Job) : State :=
  let (s, g) := (s.groupOrder d (clearMask sel denied)).foldl (State.groupAct d j) (s, ⟨j, 0, 0, 0, denied⟩)
  if g.held = 0 then s.dieReply d g.reply
  else
    let longest := (chansOf d).foldl (fun m c => if g.held.testBit (c % 16) then max m (s.holdDetail c) else m) 0
    let s := s.setDie d { s.die d with groups := (s.die d).groups ++ [g] }
    s.dieReply d ⟨j, stDelayed, longest, [g.applied, g.held, g.refused, g.denied]⟩

/-- CH_GROUP_SET (R93): the world is checked before the token (R83). -/
def execChGroupSet (x : Side) (d : Fin 4) (s : State) : Out :=
  ok (s.fast x d 0x206 (fun s j =>
    let sel := bits (j.pkt.p 1) 15 0
    let denied := s.groupDenied d sel j.pkt.world
    if denied = sel ∧ sel ≠ 0 then s.dieReply d ⟨j, stDenied, 1, []⟩
    else s.asMaster d j.side (fun s => s.groupSet d sel denied j) (fun s => s.dieReply d ⟨j, stMaster, s.masterDetail d, []⟩)))

/-! ## Packets through Chromir -/

/-- A Chromir packet on channel TARGET, at its die: TARGET_ABSENT when the die is not PRESENT (R83 order 6). -/
def State.onDie (s : State) (j : Job) (f : State → Nat → State) : State :=
  let c := j.pkt.target
  if s.present (dieUnit (c / 16)) then f s c else s.doneAbsent j (dieUnit (c / 16))

/-- A Chromir packet on channel TARGET that needs the die's token. -/
def State.onMaster (s : State) (j : Job) (f : State → Nat → State) : State :=
  s.onDie j (fun s c => s.asMaster (c / 16) j.side (fun s => f s c) (fun s => s.done j stMaster (s.masterDetail (c / 16)) []))

/-- REFUSED_LIMIT with a ceiling code. -/
def State.overCeiling (s : State) (j : Job) (c code : Nat) : State := (s.limitRefused c).done j stLimit code []

/-- The packet carries the mark that a safety channel asks for (R208). -/
def State.comparedOk (s : State) (j : Job) (c : Nat) : Bool := !s.isSafety c || j.pkt.compared

/-- CH_CONFIG (R194). -/
def execChConfig (x : Side) (s : State) : Out :=
  ok (s.chromir x 0x203 (fun s j => s.onMaster j (fun s c =>
    if ¬ s.comparedOk j c then s.overCeiling j c 0x009
    else if sigInt (s.hrn c 1) < sigInt (j.pkt.p 1) then s.overCeiling j c 0x003
    else
      let s := s.cw c F.CH_ILIM_CMD (j.pkt.p 1)
      let p := j.pkt.p 2
      let s := ((s.cw c F.CH_RETRY_POLICY (bits p 3 0)).cw c F.CH_RETRY_LIMIT (bits p 7 4)).cw c F.CH_RETRY_INTERVAL (bits p 23 8)
      (s.limitEff c).done j stOk 0 [])))

/-- CH_CLEAR with LATCH (R176): the DETAIL of its refusal, if any. -/
def State.clearRefused (s : State) (c : Nat) : Option Nat :=
  if units 150 < s.ci c F.MEAS_TJ then some 0x0F1
  else if s.chState c = 7 ∧ (s.chan c).faultReg = 10 ∧ (s.chan c).selfPasses < 2 then some 0x0F2
  else none

/-- CH_CLEAR (R176, R186). -/
def execChClear (x : Side) (s : State) : Out :=
  ok (s.chromir x 0x205 (fun s j => s.onMaster j (fun s c =>
    let p := j.pkt.p 1
    if ¬ s.comparedOk j c then s.overCeiling j c 0x009
    else match (if p.testBit 0 then s.clearRefused c else none) with
      | some d => s.done j stLimit d []
      | none =>
        let s := if p.testBit 0 ∧ s.chState c = 7 then
            (s.cmdOff c).goto c 0
          else s
        let s := if p.testBit 1 then
            s.cw c F.CH_DIAG (if s.chState c = 7 ∧ (s.chan c).faultReg = 10 then s.cq c F.CH_DIAG &&& 0x200 else 0)
          else s
        s.done j stOk 0 [])))

/-- CH_MEASURE (R195): a window opens at the next sample tick. -/
def execChMeasure (x : Side) (s : State) : Out :=
  ok (s.chromir x 0x207 (fun s j => s.onDie j (fun s c =>
    s.setChan c { s.chan c with measures := (s.chan c).measures ++ [⟨j, bits (j.pkt.p 1) 6 0, [], 0, 0⟩] })))

/-- The reply words of a full window: means truncated toward zero, peaks, and energy and wire rise as at its last tick (R195). -/
def measureWords (m : Measure) : List Nat :=
  let is := m.taken.map (fun t => t.2.1)
  let vs := m.taken.map (fun t => t.2.2.1)
  let ts := m.taken.map (fun t => t.2.2.2)
  let mean (l : List Int) : Nat := sigWord ((l.foldl (· + ·) 0).tdiv m.window)
  let peak (l : List Int) : Nat := sigWord (l.foldl max (-(2 ^ 39)))
  [mean is, peak is, mean vs, peak ts, m.energy, m.theta]

/-- CH_MEASURE_WINDOW_END (R195): the first window of the channel that holds WINDOW ticks is answered. -/
def execChMeasureWindowEnd (d : Fin 4) (n : Fin 16) (s : State) : Out :=
  let c := 16 * d.val + n.val
  let v := s.chan c
  ok (match v.measures.find? (fun m => decide (m.window ≤ m.taken.length)) with
    | some m => (s.setChan c { v with measures := v.measures.filter (fun k => k.job != m.job) }).done m.job stOk 0 (measureWords m)
    | none => s)

/-- DMP_STATUS (R94). -/
def execDmpStatus (x : Side) (s : State) : Out :=
  ok (s.chromir x 0x301 (fun s j =>
    let amps (d : Nat) : Int := sigInt (s.get (.grate d) F.MEAS_FEED_I 0)
    let g := Holder.grate s.busDie
    s.done j stOk 0 [sigWord (amps 0 + amps 1 + amps 2 + amps 3), sigWord (amps 0 + amps 1), sigWord (amps 2 + amps 3),
      sigWord s.totalWatts, s.get g F.DMP_COOLANT 0,
      b2n s.damper.derate + b2n (s.riding 0 || s.riding 2) * 2]))

/-- DMP_PRIORITY_SET (R217, R221, R206). -/
def execDmpPrioritySet (x : Side) (s : State) : Out :=
  ok (s.chromir x 0x302 (fun s j => s.onMaster j (fun s c =>
    let p := j.pkt.p 1
    if ¬ s.comparedOk j c then s.overCeiling j c 0x009
    else if bits p 1 0 = 3 ∧ s.isSafety c then s.overCeiling j c 0x00B
    else ((s.cw c F.DMP_CH_CFG_PRIO (bits p 1 0)).cw c F.DMP_CH_CFG_HOLD (bits p 28 16)).done j stOk 0 [])))

/-- DMP_WIRE_QUERY (R231). -/
def execDmpWireQuery (x : Side) (s : State) : Out :=
  ok (s.chromir x 0x303 (fun s j => s.onDie j (fun s c =>
    s.done j stOk 0 [s.cq c F.WIRE_THETA, s.hrn c 4, s.cq c F.WIRE_STATUS_TRIPPED + s.cq c F.WIRE_STATUS_COOLING * 2])))

/-- DMP_HARNESS_READ (R94): the valid record, or zeros. -/
def execDmpHarnessRead (x : Side) (s : State) : Out :=
  ok (s.chromir x 0x304 (fun s j => s.onDie j (fun s c => s.done j stOk 0 (((s.chan c).record).getD (List.replicate 8 0)))))

/-- A record burned into the next unused slot of channel `c`, whose readback matches when `good` (R202). -/
def State.burn (s : State) (c : Nat) (ws : List Nat) (good : Bool) : State :=
  let v := s.chan c
  let first := v.otp0 == .unused
  let slot : OtpSlot := if good then .burned ws else .void
  let s := s.setChan c (if first then { v with otp0 := slot } else { v with otp1 := slot })
  if good then
    let s := ((s.cw c F.HRN_STATUS_BURNED 1).cw c F.HRN_STATUS_SLOT (b2n (!first))).cw c F.HRN_STATUS_BAD 0
    (s.limitEff c).logBoth 0x401 (23 + c / 16) [.nar 6 c, .nar 8 (bits (ws.getD 7 0) 39 32)]
  else
    (s.cw c (if first then F.HRN_STATUS_SLOT0_VOID else F.HRN_STATUS_SLOT1_VOID) 1).logBoth 0x402 (23 + c / 16) [.nar 6 c]

/-- DMP_HARNESS_BURN (R202). -/
def execDmpHarnessBurn (x : Side) (good : Bool) (s : State) : Out :=
  ok (s.long x 0x305 (fun s j =>
    let c := j.pkt.target
    let d := c / 16
    let v := s.chan c
    if ¬ s.present (dieUnit d) then (s.inc (.side x) F.FAB_PROXY_ABSENT 0, ⟨j, stAbsent, unitCode (dieUnit d), []⟩)
    else if ¬ (s.holds x d ∨ (s.is (.grate d) F.GRATE_TOKEN_WINDOW 0 ∧ (s.die d).oldHolder = some x ∧ s.tokState d ≠ 3)) then
      (s.asMaster d x id id, ⟨j, stMaster, s.masterDetail d, []⟩)
    else
      let s := s.asMaster d x id id
      if v.record.isSome then (s.limitRefused c, ⟨j, stLimit, 0x00C, []⟩)
      else if s.chState c ≠ 0 then (s.limitRefused c, ⟨j, stLimit, 0x00D, []⟩)
      else if v.otp0 ≠ .unused ∧ v.otp1 ≠ .unused then (s.limitRefused c, ⟨j, stLimit, 0x00E, []⟩)
      else (s.burn c (j.pkt.params.take 8) good, ⟨j, if good then stOk else stCheck, 0, []⟩)))

/-- A slot after a power-up check that it fails when `fails` (R203). -/
def OtpSlot.checked (o : OtpSlot) (fails : Bool) : OtpSlot :=
  match o with
  | .burned ws => if fails then .failed ws else o
  | .failed ws => if fails then o else .burned ws
  | _ => o

/-- The check of a channel's harness slots at power-up (R203, R211, R232). The bits of `bad` are the slots whose CRC or ECC does not hold. A
channel of whose burned slots none passes is HARNESS_BAD. -/
def State.harnessCheck (s : State) (c : Nat) (bad : Nat) : State :=
  let v := s.chan c
  let v := { v with otp0 := v.otp0.checked (bad.testBit (2 * c)), otp1 := v.otp1.checked (bad.testBit (2 * c + 1)) }
  let s := s.setChan c v
  let second := match v.otp1 with
    | .burned _ => true
    | _ => false
  let s := (s.cw c F.HRN_STATUS_BURNED (b2n v.record.isSome)).cw c F.HRN_STATUS_SLOT (b2n second)
  let s := (s.cw c F.HRN_STATUS_SLOT0_VOID (b2n (v.otp0 == .void))).cw c F.HRN_STATUS_SLOT1_VOID (b2n (v.otp1 == .void))
  let s := s.cw c F.HRN_STATUS_BAD (b2n (v.record.isNone && v.otp0 != .unused))
  s.cw c F.WIRE_THETA (s.hrn c 6)

/-- A HARNESS_BAD channel reported to side `x`: the entry of its die, and the event to its owner (R203, R228). -/
def State.harnessReport (s : State) (x : Side) (c : Nat) : State :=
  if s.cq c F.HRN_STATUS_BAD = 1 then
    (s.event x (s.cq c F.CH_CFG2) 3 stOk 5 c [c]).log x 0x403 (23 + c / 16) [.nar 6 c]
  else s

end Sys2Proof.Machine
end

