-- ==== Sys2Proof/Machine/Channels.lean ====
section
/-! DEFINITION. The events of load channels and their dies (chapter 06 R162 to R191, chapter 07 R209, R210): samples, limits,
protection, retries, PWM edges, feed loss and the wire model. -/
namespace Sys2Proof.Machine
open Sys2Proof

/-- Channel number of local channel `n` of die `d`. -/
def chanNo (d : Fin 4) (n : Fin 16) : Nat := 16 * d.val + n.val

/-! ## The sample tick (R185, R187 to R191) -/

/-- A converted value with gain and offset. -/
def calibrate (raw gain offset : Int) : Int := raw * gain / 1048576 + offset

/-- The readable current range of a class (R188). -/
def rangeI (c : Nat) : Int := units (if classOf c = 0 then 300 else if classOf c = 1 then 80 else 20)

/-- One judged condition of R185 at a qualifying sample: its run grows while it is met, and at ten it is present. -/
def State.judgeDiag (s : State) (c code : Nat) (enabled qualifies met : Bool) : State :=
  let v := s.chan c
  if ¬ enabled then s.setChan c { v with present := Machine.clearBit v.present (code - 1), runs := Tab.put 0 v.runs code 0 }
  else if ¬ qualifies then s
  else if ¬ met then s.setChan c { v with present := Machine.clearBit v.present (code - 1), runs := Tab.put 0 v.runs code 0 }
  else
    let n := min 10 (Tab.at 0 v.runs code + 1)
    let s := s.setChan c { v with runs := Tab.put 0 v.runs code n, present := if n = 10 then Machine.setBit v.present (code - 1) else v.present }
    if n = 10 ∧ ¬ (s.cq c F.CH_DIAG).testBit (code - 1) then
      let s := s.diagBit c code
      s.chEvent c 4 (s.cq c F.CH_DIAG)
    else s

/-- The diagnostics of channel `c` at a sample tick (R185, R186). -/
def State.diagnose (s : State) (c : Nat) : State :=
  let st := s.chState c
  let v := s.chan c
  let en := s.cq c F.CH_CFG1_DIAG_EN
  let volts := s.ci c F.MEAS_V
  let settled (since : Nat) : Bool := decide (since + 2000000 ≤ s.now)
  let s := s.judgeDiag c 1 (en.testBit 0) (st == 2 || (st == 3 && s.fullyOn c)) (decide (s.ci c F.MEAS_I < s.ci c F.CH_OPEN_TH))
  let s := s.judgeDiag c 2 (en.testBit 1) (st == 0 && settled v.offSince) (decide (units 35 ≤ volts * 10 ∧ volts ≤ units 6))
  let s := s.judgeDiag c 3 (en.testBit 2) (quiet st && settled v.quietSince) (decide (units 6 < volts))
  s.judgeDiag c 4 true (st == 4) (decide (volts < units 2))

/-- The energy count of channel `c` at a tick (R190). -/
def State.energy (s : State) (c : Nat) (volts amps : Int) : State :=
  let p : Nat := (volts * amps / 1048576).toNat
  let acc := (s.chan c).acc + p * 10
  let one := 1000 * 2 ^ 20
  (s.setChan c { s.chan c with acc := acc % one }).cw c F.MEAS_E (s.cq c F.MEAS_E + acc / one)

/-- The samples of one channel at a tick (R187, R188, R195). -/
def State.sampleChan (s : State) (tick : Nat) (p : Nat × Sample) : State :=
  let c := p.1
  let d := c / 16
  let i := calibrate (sigInt p.2.amps.toNat) (s.calOf d c q20) (s.calOf d (0x040 + c) 0)
  let v := calibrate (sigInt p.2.volts.toNat) (s.calOf d (0x080 + c) q20) (s.calOf d (0x0C0 + c) 0)
  let t := sigInt p.2.temp.toNat + s.calOf d (0x100 + c) 0
  let i' := clampInt (-(rangeI c)) (rangeI c) i
  let v' := clampInt (units (-60)) (units 60) v
  let t' := clampInt (units (-60)) (units 200) t
  let s := ((s.cw c F.MEAS_I (sigWord i')).cw c F.MEAS_V (sigWord v')).cw c F.MEAS_TJ (sigWord t')
  let s := (s.cw c F.MEAS_TICK tick).cw c F.CH_STATE_SAT (b2n (i' != i || v' != v || t' != t))
  let s := s.energy c v' i'
  let k := s.chan c
  let s := s.setChan c { k with
    samples := (i' :: k.samples).take 10,
    measures := k.measures.map (fun m => if m.taken.length < m.window then
      { m with taken := (tick, i', v', t') :: m.taken, energy := s.cq c F.MEAS_E, theta := s.cq c F.WIRE_THETA } else m) }
  s.diagnose c

/-- What die `d` posts at a tick: the words of each channel and the feed voltage, and on every tenth tick the energy counts and wire rises (R187). -/
def State.postWords (s : State) (d tick : Nat) : List Nat :=
  let cs := chansOf d
  cs.flatMap (fun c => [s.cq c F.MEAS_I, s.cq c F.MEAS_V, s.cq c F.MEAS_TJ]) ++ [s.get (.grate d) F.MEAS_FEED_V 0] ++
    (if tick % 10 = 0 then cs.flatMap (fun c => [s.cq c F.MEAS_E, s.cq c F.WIRE_THETA]) else [])

/-- A feed voltage beyond the absolute maximum ratings; at -32 V and at 58 V the feed is still as R183 and R184 say. -/
def outsideFeed (v : Int) : Bool := decide (v < units (-32) ∨ units 58 < v)

/-- The sample tick of die `d` takes place; the next follows after 10 us of the die's own oscillator, a free value within 0.5 % (R187). -/
def State.sampleDue (s : State) (d : Nat) : State :=
  let v := s.die d
  let s := s.due v.sampleAt
  (s.setDie d { v with sampleAt := (if v.sampleAt = 0 then s.now else v.sampleAt) + 9950 + s.freeVal 16 % 101,
                       lastMarker := some (v.lastMarker.getD s.now) }).took

/-- GRATE_SAMPLE_TICK (R187): the sixteen channels' conversions and the feed bus voltage. -/
def execGrateSampleTick (d : Fin 4) (smp : List Sample) (feed : Word40) (s : State) : Out :=
  if outsideFeed (sigInt feed.toNat) then .fault .outsideRatings
  else ok (if ¬ s.dieRuns d then s
  else
    let g := Holder.grate d
    let f := d.val / 2
    let tick := s.get g F.MEAS_DIE_TICK 0 + 1
    let s := s.sampleDue d
    let free : Bool := match (s.die d).lastMarker with
      | some t => decide (t + 1000000 ≤ s.now)
      | none => false
    let s := (s.set g F.MEAS_DIE_TICK 0 tick).set g F.MEAS_STATUS_TICK_FREE 0 (b2n free)
    let fv := calibrate (sigInt feed.toNat) (s.calOf d (0x1C0 + f) q20) (s.calOf d (0x1C2 + f) 0)
    let s := s.set g F.MEAS_FEED_V 0 (sigWord fv)
    let s := s.each ((chansOf d).zip smp) (fun s p => s.sampleChan tick p)
    let sum := (chansOf d).foldl (fun n c => n + s.ci c F.MEAS_I) 0
    let s := s.set g F.MEAS_FEED_I 0 (sigWord sum)
    s.each [Side.a, Side.b] (fun s x =>
      if s.up x then s.planePost x d tick (s.postWords d tick) else s))

/-! ## The wire model (R209, R210, R212) -/

/-- The largest 40-bit signed value. -/
def top40 : Nat := 2 ^ 39 - 1

/-- One step of the wire model: mean squared current and the new rise, from ten currents, KW, ADEC and the rise (R209). -/
def wireStep (is : List Nat) (kw adec theta : Nat) : Nat × Nat :=
  let isq := (is.foldl (fun n i => n + i * i / 2 ^ 20) 0) / 10
  let t0 := min top40 (kw * isq / 2 ^ 32)
  let rfac := 2 ^ 20 + theta * 4121 / 2 ^ 20
  let t1 : Int := (min top40 (t0 * rfac / 2 ^ 20) : Nat)
  let step : Int := ((t1 - theta) * adec + (2 ^ 40 - 1)) / 2 ^ 40
  (isq, (clampInt 0 top40 ((theta : Int) + step)).toNat)

/-- The trip of a wire model (R210). -/
def State.wireTrip (s : State) (c : Nat) : State :=
  let s := if driven (s.chState c) then s.damperOff c else s
  let s := ((s.cw c F.WIRE_STATUS_TRIPPED 1).cw c F.WIRE_STATUS_COOLING 1).cn c F.WIRE_TRIP_COUNT
  let s := s.dmpEvent c 1 [c, s.cq c F.WIRE_THETA, s.cq c F.MEAS_I]
  s.logBoth 0x404 (23 + c / 16) [.nar 6 c, .wide (s.cq c F.WIRE_THETA)]

/-- A tripped wire has cooled (R210): the channel leaves DAMPER_OFF for OFF. A tripped channel never turns on by itself, so CMD_ON clears
in every other off state too, and a channel that waits for a retry goes to OFF (R161); a shed channel leaves DAMPER_OFF by R219 alone. -/
def State.wireCooled (s : State) (c : Nat) : State :=
  let st := s.chState c
  let s := (s.cw c F.WIRE_STATUS_COOLING 0).dmpEvent c 2 [c, s.cq c F.WIRE_THETA]
  if driven st ∨ (st = 8 ∧ s.cq c F.DMP_CH_STATUS_SHED = 1) then s
  else
    let s := s.cmdOff c
    if st = 8 ∨ st = 6 then s.goto c 0 else s

/-- The 100 us step of channel `c`. -/
def State.wireChan (s : State) (c : Nat) : State :=
  let v := s.chan c
  let is := v.samples.map (fun i => i.natAbs)
  let s := s.setChan c { v with samples := [], iMean := (is.foldl (· + ·) 0) / 10 }
  let (isq, theta) := wireStep (is.map (s.widen c)) (s.hrn c 2) (s.hrn c 3) (s.cq c F.WIRE_THETA)
  let s := (s.cw c F.WIRE_ISQ isq).cw c F.WIRE_THETA theta
  if s.cq c F.WIRE_STATUS_COOLING = 0 then (if (s.ci c F.WIRE_THETA) < sigInt (s.hrn c 4) then s else s.wireTrip c)
  else if s.ci c F.WIRE_THETA ≤ sigInt (s.hrn c 5) then s.wireCooled c
  else s

/-- WIRE_MODEL_STEP (R209): at every tenth sample tick, once the ten samples of the step are there. -/
def execWireModelStep (d : Fin 4) (s : State) : Out :=
  ok (if s.dieRuns d then
    s.each (chansOf d) (fun s c => if (s.chan c).samples.length = 10 then s.wireChan c else s)
  else s)

/-! ## Turn-on, limit, thermal shutdown and faults (R162) -/

/-- TURN_ON_COMPLETE (R168): a static turn-on in SLEW or in LIMIT. In LIMIT the channel goes to ON as its current falls (R162). -/
def execTurnOnComplete (d : Fin 4) (n : Fin 16) (s : State) : Out :=
  let c := chanNo d n
  ok (if s.dieRuns d ∧ (s.chState c = 1 ∨ (s.chState c = 4 ∧ s.inPwm c = false)) then
    let s := if s.chState c = 1 then s.goto c 2 else s
    s.setChan c { s.chan c with complete := true }
  else s)

/-- LIMIT_ENTRY (R162): in SLEW, ON or an on-phase of PWM. -/
def execLimitEntry (d : Fin 4) (n : Fin 16) (s : State) : Out :=
  let c := chanNo d n
  let st := s.chState c
  ok (if s.dieRuns d ∧ (st = 1 ∨ st = 2 ∨ (st = 3 ∧ (s.chan c).pwmOn = true)) then (s.goto c 4).cn c F.CH_LIMIT_COUNT else s)

/-- LIMIT_EXIT (R162). -/
def execLimitExit (d : Fin 4) (n : Fin 16) (s : State) : Out :=
  let c := chanNo d n
  ok (if s.dieRuns d ∧ s.chState c = 4 then
    s.goto c (if s.inPwm c then 3 else if (s.chan c).complete then 2 else 1)
  else s)

/-- INRUSH_TIMEOUT (R168): INRUSH_MAX since the start of a static turn-on that has not completed. -/
def execInrushTimeout (d : Fin 4) (n : Fin 16) (s : State) : Out :=
  let c := chanNo d n
  let st := s.chState c
  ok (if s.dieRuns d ∧ (st = 1 ∨ (st = 4 ∧ (s.chan c).complete = false ∧ s.inPwm c = false)) then
    (s.due ((s.chan c).onAt + max 1 (s.cq c F.CH_CFG1_INRUSH_MAX) * 1000000)).faultOff c 7 5 (s.cq c F.MEAS_V)
  else s)

/-- TSD_ENTRY (R172). -/
def execTsdEntry (d : Fin 4) (n : Fin 16) (s : State) : Out :=
  let c := chanNo d n
  ok (if s.dieRuns d ∧ driven (s.chState c) then
    ((s.faultTo c 5 5).cn c F.CH_TSD_COUNT).chEvent c 1 0
  else s)

/-- TSD_EXIT (R162): the junction has cooled to 150 degrees; fault handling, already off. -/
def execTsdExit (d : Fin 4) (n : Fin 16) (s : State) : Out :=
  let c := chanNo d n
  ok (if s.dieRuns d ∧ s.chState c = 5 then s.faultHandle c else s)

/-- REVERSE_CURRENT (R185). -/
def execReverseCurrent (d : Fin 4) (n : Fin 16) (s : State) : Out :=
  let c := chanNo d n
  ok (if s.dieRuns d ∧ driven (s.chState c) then s.faultOff c 6 6 0 else s)

/-- MEAS_SELF_CHECK (R185): two failures in a row are the fault in any state; they latch the channel in any state but NOFEED, whatever the
policy (R162). -/
def execMeasSelfCheck (d : Fin 4) (n : Fin 16) (pass : Bool) (s : State) : Out :=
  let c := chanNo d n
  let v := s.chan c
  ok (if ¬ s.dieRuns d then s
  else if pass then s.setChan c { v with selfFails := 0, selfPasses := min 2 (v.selfPasses + 1) }
  else
    let s := s.setChan c { v with selfFails := min 2 (v.selfFails + 1), selfPasses := 0 }
    if v.selfFails = 0 then s
    else if s.chState c = 9 then
      let s := s.diagBit c 10
      if v.selfFails = 1 then s.chEvent c 9 0 else s
    else if s.chState c = 7 ∧ v.faultReg = 10 then s
    else ((s.faultTo c 10 7).chEvent c 9 0).latch c)

/-! ## Retry (R174, R175) and feed return (R182) -/

/-- An autonomous turn-on of channel `c` judged (R196): its outcome is reported at once, or at the end of its hold. A static retry uses the
slew of the turn-on that it repeats, a static feed-return turn-on the default slew (R167). -/
def State.autoOn (s : State) (c : Nat) (cause : OnCause) : State :=
  let t : TurnOn := ⟨s.cq c F.CH_STATE_MODE == 1, if s.cq c F.CH_STATE_MODE = 1 ∨ cause = .feedReturn then 0 else (s.chan c).slew, s.cq c F.CH_PWM_DUTY_DUTY,
    s.cq c F.CH_PWM_FREQ_FREQ, s.cq c F.CH_PWM_FREQ_COMP, s.cq c F.CH_PWM_FREQ_PHASE⟩
  match s.ceiling c (t.ask true true false) with
  | some code => (s.limitRefused c).autoEnd c cause t stLimit code
  | none =>
    match s.judge c with
    | .allow => s.autoEnd c cause t stOk 0
    | .hold against => s.holdStart c none cause t against
    | .refuse status detail => (s.budgetRefused c).autoEnd c cause t status detail

/-- RETRY_ATTEMPT (R174): the attempt instant of a channel in RETRY_WAIT; it latches instead when the limit has fallen (R175). -/
def execRetryAttempt (d : Fin 4) (n : Fin 16) (s : State) : Out :=
  let c := chanNo d n
  let v := s.chan c
  ok (if s.dieRuns d ∧ s.chState c = 6 ∧ v.hold = none ∧ s.cq c F.CH_STATE_CMD_ON = 1 then
    let s := s.due v.retryAt
    if s.attemptLimit c ≤ v.retries then s.latch c
    else
      let s := (s.setChan c { v with retries := min 65535 (v.retries + 1) }).cn c F.CH_RETRY_COUNT
      (s.chEvent c 2 (min 15 (s.chan c).retries)).autoOn c .retry
  else s)

/-- RETRIES_CLEAR (R175): 1 s in ON or PWM without a fault. -/
def execRetriesClear (d : Fin 4) (n : Fin 16) (s : State) : Out :=
  let c := chanNo d n
  ok (match (s.chan c).okSince with
    | some t => if s.dieRuns d then (s.due (t + 1000000000)).setChan c { s.chan c with retries := 0 } else s
    | none => s)

/-- FEED_BUS_ABSENT (R182): below 6 V, or below -1 V, for 20 us. -/
def execFeedBusAbsent (d : Fin 4) (reversed : Bool) (s : State) : Out :=
  let s := s.setDie d { s.die d with feedGone := true }
  ok (if s.dieRuns d then
    let s := s.set (.grate d) F.MEAS_STATUS_FEED_ABSENT 0 1
    let s := if reversed then s.set (.grate d) F.MEAS_STATUS_FEED_REVERSED 0 1 else s
    s.each (chansOf d) (fun s c => s.noFeed c reversed)
  else s)

/-- FEED_BUS_RETURN (R182): above 7 V for 10 ms. Channels go to OFF, and those commanded on wait for their turn-on. -/
def execFeedBusReturn (d : Fin 4) (s : State) : Out :=
  let s := s.setDie d { s.die d with feedGone := false }
  ok (if s.dieRuns d ∧ s.is (.grate d) F.MEAS_STATUS_FEED_ABSENT 0 then
    let s := (s.set (.grate d) F.MEAS_STATUS_FEED_ABSENT 0 0).set (.grate d) F.MEAS_STATUS_FEED_REVERSED 0 0
    let s := s.setDie d { s.die d with nextAuto := s.now }
    s.each (chansOf d) (fun s c =>
      if s.chState c = 9 then
        let s := s.goto c 0
        let s := s.setChan c { s.chan c with gatePending := s.cq c F.CH_STATE_CMD_ON == 1 }
        s.chEvent c 8 0
      else s)
  else s)

/-- FEED_RETURN_TURN_ON (R182): every 100 us the next channel, in ascending order, that is still commanded on (R164). -/
def execFeedReturnTurnOn (d : Fin 4) (s : State) : Out :=
  ok (if ¬ s.dieRuns d then s
  else match (chansOf d).find? (fun c => (s.chan c).gatePending && s.chState c == 0 && s.cq c F.CH_STATE_CMD_ON == 1 && (s.chan c).hold == none) with
    | none => s
    | some c =>
      let s := s.due (s.die d).nextAuto
      let s := s.setDie d { s.die d with nextAuto := s.now + 100000 }
      (s.setChan c { s.chan c with gatePending := false }).autoOn c .feedReturn)

/-- FEED_OVERVOLTAGE (R184): the flag follows the bus; no channel changes state. -/
def execFeedOvervoltage (d : Fin 4) (high : Bool) (s : State) : Out :=
  ok (if s.dieRuns d then s.set (.grate d) F.MEAS_STATUS_FEED_OV 0 (b2n high) else s)

/-! ## PWM (R177 to R180) -/

/-- The effective duty of R179: V_ref and V_feed in Q20.20 V, DUTY in 1/65 535. -/
def effDuty (vref vfeed duty : Nat) : Nat :=
  let r := vref * 2 ^ 20 / max (2 ^ 20) vfeed
  min 65535 (duty * (r * r / 2 ^ 20) / 2 ^ 20)

/-- PWM_PERIOD_START (R177 to R180): the values in force, the effective duty, the phases that are too short, and the edge. -/
def execPwmPeriodStart (d : Fin 4) (n : Fin 16) (s : State) : Out :=
  let c := chanNo d n
  let v := s.chan c
  ok (if s.dieRuns d ∧ (s.inPwm c = true ∨ v.pwmWait = true) then
    let start := s.nextPeriod c (max v.pwmEnd (if v.pwmWait then s.now else v.pwmEnd))
    let moved := decide (v.pwmEnd < start)
    let s := s.due start
    let was := s.chState c
    let high := was == 2 || (v.pwmOn && !moved)
    let p := pwmPeriod (s.cq c F.CH_PWM_FREQ_FREQ)
    let duty := s.cq c F.CH_PWM_DUTY_DUTY
    let vref := (clampInt (units 9) (units 32) (s.ci c F.CH_VREF)).toNat
    let feed := (sigInt (s.get (.grate d) F.MEAS_FEED_V 0)).toNat
    let deff := if s.cq c F.CH_PWM_FREQ_COMP = 1 then effDuty vref feed duty else duty
    let on := (deff * p + 32767) / 65535
    let shortOn := s.shortPhase c on
    let shortOff := s.shortPhase c (p - on)
    let stayOff := shortOn && (!shortOff || decide (on ≤ p - on))
    let stayOn := shortOff && !stayOff
    let s := s.cw c F.CH_PWM_DUTY_DEFF deff
    let s := if stayOff ∨ stayOn then s.cn c F.CH_PWM_CLIP_COUNT else s
    let keepLimit := s.chState c == 4 && v.pwmOn && !stayOff && !moved
    let s := if keepLimit then s else s.goto c 3
    s.setChan c { s.chan c with
      complete := true, pwmWait := false, pwmAt := if was = 2 then 0 else if high && !stayOff then v.pwmAt else start,
      pwmEnd := start + 5 * p, pwmOn := !stayOff
      present := if high && !stayOff then (s.chan c).present else Machine.clearBit (s.chan c).present 0, pwmOff := if stayOff ∨ stayOn then none else some (start + 5 * on) }
  else s)

/-- PWM_OFF_EDGE (R178, R162, R167): the on-time ends at PWM_SLEW, and with it LIMIT in PWM and an OPEN_ON that was present (R163). -/
def execPwmOffEdge (d : Fin 4) (n : Fin 16) (s : State) : Out :=
  let c := chanNo d n
  let v := s.chan c
  ok (match v.pwmOff with
    | some t =>
      if s.dieRuns d ∧ s.inPwm c then
        let s := s.due t
        let s := if s.chState c = 4 then s.goto c 3 else s
        s.setChan c { s.chan c with pwmOn := false, pwmOff := none, offSlew := s.slewPwm c, present := Machine.clearBit (s.chan c).present 0 }
      else s
    | none => s)

end Sys2Proof.Machine
end

