-- ==== Sys2Proof/Machine/Reads.lean ====
section
/-! DEFINITION. What the registers of the grate dies, of the Flue die and of the ownership checker read as where the value follows from
the rest of the state: nothing keeps it twice. -/
namespace Sys2Proof.Machine
open Sys2Proof

/-- Age of a heartbeat in ns, saturating (R258). -/
def State.hbAge (s : State) (at_ : Option Nat) : Nat :=
  match at_ with
  | some t => min (s.now - t) (2 ^ 40 - 1)
  | none => 2 ^ 40 - 1

/-- A field of grate die `d` that follows from the die's and its channels' state. -/
def State.grateField (s : State) (d : Nat) (f : Fld) (i : Nat) : Option Nat :=
  let c := 16 * d + i
  if f.reg = F.CH_STATE_STATE.reg then some (bits (s.chStateWord c) f.hi f.lo)
  else if f = F.DMP_CH_CLAIM then some (s.claim c)
  else if f = F.DMP_CH_STATUS_TURN_ONS then some (s.recentOns c)
  else if f = F.DMP_CH_HOLD_LEFT then
    some (match (s.chan c).hold with
      | some h => ceilDiv (h.until_ - s.now) 1000000
      | none => 0)
  else if f = F.HRN_W then some (s.hrn (16 * d + (i - 1) / 8) ((i - 1) % 8 + 1))
  else if f = F.GRATE_HB_AGE_A then some (s.hbAge (s.die d).hbA)
  else if f = F.GRATE_HB_AGE_B then some (s.hbAge (s.die d).hbB)
  else none

/-- A field of a port's block applies to port `p`; one that does not reads zero (R362). -/
def portHas (f : Fld) (p : Nat) : Bool :=
  if f = F.PORT_CFG_MACSEC_EN then decide (p < 8)
  else if f = F.PORT_STATUS_TC10 ∨ f = F.PORT_TC10 ∨ f = F.PORT_CFG_ROLE then hasTc10 p
  else if f = F.PORT_PLCA_NODE_COUNT ∨ f = F.PORT_PLCA_NODE_ID then p == 14
  else true

/-- A field of the Flue die that follows from its state. -/
def State.flueField (s : State) (f : Fld) (i : Nat) : Option Nat :=
  if f = F.FLUE_STATUS_READY then some (b2n s.flueRuns)
  else if f = F.BYP_STATUS_CAUSE then some s.bypCause
  else if f = F.FLUE_STATUS_FREE then some s.cellsFree
  else if f = F.FLUE_SHARED_FREE then some (if s.flue.committed then s.sharedFree else 0)
  else if f = F.PORT_STATUS_OCC then some ((s.held i).1 + (s.held i).2)
  else if ¬ portHas f i then some 0
  else if f = F.PORT_Q_DEPTH then some (s.depth (i / 8) (i % 8))
  else if f = F.FDB_STATUS_CAM_USED then some (s.flue.fdb.filter (fun e => e.place == 2)).length
  else if f = F.FDB_ENTRIES_STATIC then some (s.flue.fdb.filter (fun e => e.stat)).length
  else if f = F.FDB_ENTRIES_DYNAMIC then some (s.flue.fdb.filter (fun e => !e.stat)).length
  else if f = F.BLW_TX_LAT then some (s.txLat i)
  else if f = F.BLW_RX_LAT then some (s.rxLat i)
  else if f = F.BLW_PSTATUS_AS_CAPABLE ∧ i = 14 then some (b2n (s.ptpPort 14))
  else none

/-- A field of a side that follows from its registers: a region that is unused under R423 (WOT_STATUS.REG_ERR). -/
def State.sideField (s : State) (x : Side) (f : Fld) : Option Nat :=
  if f = F.WOT_STATUS_REG_ERR then
    some (b2n ((List.range 128).any (fun r => 0 < (s.wotRegion x r).2.1 && !regionUsed (s.wotRegion x r))))
  else none

/-- What a field reads as for world `w` of side `x`. -/
def State.fieldValue (s : State) (x : Side) (w : Nat) (h : Holder) (f : Fld) (i : Nat) : Nat :=
  match (match h with
    | .grate d => s.grateField d f i
    | .flue => s.flueField f i
    | .side y => s.sideField y f
    | _ => none) with
  | some v => v
  | none => s.fieldRead x w h f i

/-- The value that a register reads as, each field at its place; a signed slot is sign-extended (R10). -/
def State.regValue (s : State) (x : Side) (w : Nat) (h : Holder) (r : Reg) (i : Nat) : Nat :=
  let v := r.fields.foldl (fun v f => v + s.fieldValue x w h f i % 2 ^ f.width * 2 ^ f.lo) 0
  if r.wide then (match r.fields with
    | [f] => if f.hi = 39 then slot40 f.sgn v else v
    | _ => v) else v

/-- The register at offset `off` of the Flue die: the counters of the QOS and ESPARK blocks have their tally copy 0x80_0000 above
(R472). -/
def flueRegAt (off : Nat) : Option (Holder × Reg × Nat) :=
  match findReg .flue off with
  | some (r, i) => some (.flue, r, i)
  | none =>
    if off / 0x1000000 = 2 ∨ off / 0x1000000 = 6 then
      match findReg .flue (off - 0x800000) with
      | some (r, i) => if flueCopied.contains r.num ∧ 0x800000 ≤ off % 0x1000000 then some (.flueTally, r, i) else none
      | none => none
    else none

/-- Storage that lies in a unit page: the message RAM and shadow buffers of a CAN channel (R374, R379), the frame buffers of the
LIFE unit (R325). -/
inductive PageMem where
  | canRam (k : Nat) | shadow | lifeRx | lifeTx
  deriving DecidableEq, Repr

/-- The storage at an offset of the unit space. -/
def pageMem (off : Nat) : Option PageMem :=
  let page := off / 0x10000
  let q := off % 0x10000
  if 6 ≤ page ∧ page < 12 then
    if 0x8000 ≤ q then some (.canRam (page - 6))
    else if (0x2000 ≤ q ∧ q < 0x2820) ∨ (0x3000 ≤ q ∧ q < 0x3820) then some .shadow
    else none
  else if page = 0x19 then
    if 0x4000 ≤ q ∧ q < 0xA000 then some .lifeRx else if 0xC000 ≤ q ∧ q < 0xF000 then some .lifeTx else none
  else none

/-- The register at a place, with its holder and index. -/
def regIn (x : Side) : Place → Option (Holder × Reg × Nat)
  | .unit off =>
    match findReg .ember off with
    | some (r, i) => some (.ember, r, i)
    | none => (findReg .side off).map (fun q => (.side x, q.1, q.2))
  | .flue off => flueRegAt off
  | .grate d off => (findReg .grate off).map (fun q => (.grate d, q.1, q.2))
  | _ => none

end Sys2Proof.Machine
end

