-- ==== Sys2Proof/Machine/Cfg.lean ====
section
/-! DEFINITION. The packets of the CFG and CAL classes (chapter 03 R91, R100, R514; chapter 04 R119, R121 to R127, R133 to R135): gates, named
fields, image loads and the calibration set. -/
namespace Sys2Proof.Machine
open Sys2Proof

/-! ## Gates (R121) -/

/-- DETAIL of REFUSED_MODE for a field at `a` from bit `lo` that forbids an action by a value `bad`: the highest active overlay with such a
value, else 0x0FF. -/
def State.gateDetail (s : State) (x : Side) (a lo : Nat) (bad : Nat → Bool) : Nat :=
  let rs := (s.side x).inForce ++ fixedRecs
  let active := s.get (.side x) F.CFG_MODE_ACTIVE 0
  (((List.range 12).reverse).find? (fun o => active.testBit o && (match recOf rs a lo o with
    | some v => bad v
    | none => false))).getD 0xFF

/-- The refusal of gate `b` of CFG_GATE on side `x`, if it is closed: its DETAIL. -/
def State.cfgGate (s : State) (x : Side) (b : Nat) : Option Nat :=
  if s.is (.side x) (gateFld b) 0 then none else some (s.gateDetail x gateAddr b (fun v => v == 0))

/-! ## Naming a field (R513, R514, R127) -/

/-- The side and the address of its own map that an address of side `x` stands for: the other side's in the far unit window (R35). -/
def ownMap (x : Side) (a : Nat) : Option (Side × Nat) :=
  match placeOf a with
  | .farUnit off =>
    let page := off / 0x10000
    if page = 0x14 ∨ page = 0x18 ∨ 0x19 < page then none else some (x.other, 0x40000000 + off)
  | _ => some (x, a)

/-- What stands at a register address: the fields of a register with its holder and index, or a 32-bit word of storage that is listed as a
register of its page (R324, R395). -/
inductive Named where
  | reg (h : Holder) (fs : List Fld) (i : Nat)
  | word

/-- The register or word at an address of the own map of side `y` (R31 to R38, R472). -/
def namedAt (y : Side) (a : Nat) : Option Named :=
  match regIn y (placeOf a) with
  | some (h, r, i) => some (.reg h r.fields i)
  | none => match placeOf a with
    | .unit off => if (pageMem off).isSome ∧ off % 4 = 0 then some .word else none
    | _ => none

/-- LO and HI name a field of what stands there. -/
def Named.has (n : Named) (lo hi : Nat) : Bool :=
  match n with
  | .reg _ fs _ => fs.any (fun f => f.lo == lo && f.hi == hi)
  | .word => lo == 0 && hi == 31

/-- The packet's world may read the register that P1 names on side `y` (R424, R428): at its own side, and at the far side of the cross bridge too
where the register is there (R425). -/
def State.mayName (s : State) (x y : Side) (k : Packet) : Bool :=
  s.wotAllows x (k.p 1) k.world 0 && (y == x || (match ownMap x (k.p 1) with
    | some (_, a) => s.wotAllows y a k.world 0
    | none => true))

/-- The offences of P1 and P2 in naming a field (R514); a CFG_FIELD_WRITE writes the side's own working copy alone (R127), so that it names
no register of the other side and no word of storage. -/
def State.nameOffences (s : State) (x : Side) (k : Packet) : List Offence :=
  let lo := bits (k.p 2) 5 0
  let hi := bits (k.p 2) 11 6
  match (ownMap x (k.p 1)).bind (fun q => (namedAt q.1 q.2).map (fun n => (q.1, n))) with
  | none => [(1, 0)]
  | some (y, n) => need (s.mayName x y k) 1 0 ++ need (decide (k.code = 0x103 ∨ (y = x ∧ (regAt x (k.p 1)).isSome))) 1 0 ++ need (n.has lo hi) 2 0

/-- Offences of a CFG_FIELD_WRITE that names a field (R127). -/
def writeOffences (x : Side) (k : Packet) : List Offence :=
  let lo := bits (k.p 2) 5 0
  match fieldAt x (k.p 1) lo (bits (k.p 2) 11 6) with
  | some (_, f, i) =>
    need (!(f.clsAt i == .none || f.cls == .base ||
      (bits (k.p 2) 13 12 == 2 && isFixed ⟨k.p 1, lo, bits (k.p 2) 11 6, bits (k.p 2) 17 14, 0⟩))) 1 0 ++ need (f.fits (k.p 3)) 3 0
  | none => []

/-- The largest P2 of a CFG_IMAGE_LOAD to slot `t` (R122). -/
def slotSize (t : Nat) : Nat := ((slotOf t).map (fun q => q.size)).getD 0

/-- Low and high bound of a calibration item, none for a TARGET outside the table (R133). -/
def calRange (t : Nat) : Option (Int × Int) :=
  let r (n d : Int) : Int := n * 1048576 / d
  let up (n d : Int) : Int := -((-n * 1048576) / d)
  if t < 0x040 then some (up 9 10, r 11 10)
  else if t < 0x080 then some (-2097152, 2097152)
  else if t < 0x0C0 then some (up 95 100, r 105 100)
  else if t < 0x100 then some (-524288, 524288)
  else if t < 0x140 then some (-10485760, 10485760)
  else if t < 0x170 then some (up 95 100, r 105 100)
  else if 0x180 ≤ t ∧ t < 0x1B0 then some (up (-1) 10, r 1 10)
  else if t = 0x1C0 ∨ t = 0x1C1 then some (up 95 100, r 105 100)
  else if t = 0x1C2 ∨ t = 0x1C3 then some (-524288, 524288)
  else if t = 0x1C4 ∨ t = 0x1C5 then some (up 9 10, r 11 10)
  else if t = 0x1C8 then some (-5242880, 5242880)
  else none

/-- A value that item `t` may take (R133): trims are unsigned integers up to 1 023. -/
def calFits (t v : Nat) : Bool :=
  if t = 0x1D0 ∨ t = 0x1D1 then decide (v ≤ 1023)
  else match calRange t with
    | some (lo, hi) => decide (lo ≤ sigInt v ∧ sigInt v ≤ hi)
    | none => false

/-- TARGET names a calibration item. -/
def calTarget (t : Nat) : Bool := t == 0x1D0 || t == 0x1D1 || (calRange t).isSome

/-- Offences of a packet of the CFG or CAL class, by its code (R66, R91, R100, R513). A bit in both masks of a CFG_MODE_SET names P1 bit 0
(DESIGN CHOICE, log entry 54). -/
def State.cfgOffences (s : State) (x : Side) (k : Packet) : List Offence :=
  if k.code = 0x101 then
    let set := bits (k.p 1) 11 0
    let clear := bits (k.p 1) 23 12
    unassigned [ones 24] k.params 1 ++ need (decide (k.target = 0)) 0 0 ++
      need (decide (set &&& clear = 0 ∧ set &&& 0x700 = 0)) 1 0 ++ need (decide (clear &&& 0x700 = 0)) 1 12
  else if k.code = 0x103 ∨ k.code = 0x104 then
    let source := bits (k.p 2) 13 12
    unassigned [ones 40, ones 18, ones 40] k.params 1 ++ need (decide (k.target = 0)) 0 0 ++ s.nameOffences x k ++
      need (decide (source ≠ 3 ∧ (k.code = 0x103 ∨ source ≠ 0))) 2 12 ++ need (decide (source ≠ 2 ∨ bits (k.p 2) 17 14 < 12)) 2 14 ++
      (if k.code = 0x104 then writeOffences x k else [])
  else if k.code = 0x105 then
    let n := bits (k.p 2) 31 0
    unassigned [ones 40, ones 32] k.params 1 ++ need (slotOf k.target).isSome 0 0 ++
      need ((inSram (k.p 1) (max 1 n) || inDdr (k.p 1) (max 1 n)) && s.wotRange x (k.p 1) (max 1 n) k.world 0) 1 0 ++
      need (decide (n ≤ slotSize k.target)) 2 0
  else if k.code = 0x106 then need (slotOf k.target).isSome 0 0
  else if k.code = 0x901 then need (calTarget k.target) 0 0
  else if k.code = 0x902 then
    unassigned [ones 40, ones 16] k.params 1 ++ need (calTarget k.target) 0 0 ++
      need (!calTarget k.target || calFits k.target (k.p 1)) 1 0 ++ need (decide (k.p 2 ≠ 0)) 2 0
  else need (decide (k.target = 0)) 0 0

/-! ## CFG_MODE_SET, CFG_MODE_GET (R91, R119, R132) -/

/-- CFG_MODE_SET (R119): the packet goes to the ordering engine, at its take on the ordering side, within 10 us of it on the other, and is
answered by the commit of its snapshot. -/
def execCfgModeSet (x : Side) (s : State) : Out :=
  ok (s.chromir x 0x101 (fun s j =>
    let far := s.shares && decide (s.orderer ≠ x)
    let at_ := if far then j.takenAt + s.freeVal 64 % 10001 else j.takenAt
    let s := if far then s.took else s
    s.setSide x { s.side x with modeReqs := (s.side x).modeReqs ++ [(j, at_)] }))

/-- CFG_MODE_GET (R91). -/
def execCfgModeGet (x : Side) (s : State) : Out :=
  ok (s.chromir x 0x102 (fun s j =>
    let h := Holder.side x
    s.done j stOk 0 [s.get h F.CFG_MODE_ACTIVE 0 + s.get h F.CFG_MODE_CMD 0 * 2 ^ 12 + s.get h F.CFG_MODE_HW 0 * 2 ^ 24]))

/-! ## CFG_FIELD_READ, CFG_FIELD_WRITE (R127, R514) -/

/-- The reply words of a CFG_FIELD_READ of a register without records of this side, or of a word of storage: its value with SOURCE 0, for
a configurable field its Reset value with SOURCE 1. -/
def State.otherWords (s : State) (w : Nat) (y : Side) (a lo hi source : Nat) : List Nat :=
  match namedAt y a with
  | some (.reg h fs i) =>
    match fs.find? (fun f => f.lo == lo && f.hi == hi) with
    | some f =>
      if source = 0 then [s.fieldValue y w h f i, (f.clsAt i).code]
      else [if source = 1 ∧ f.clsAt i ≠ .none then f.rst.at h i % 2 ^ f.width else 0, (f.clsAt i).code]
    | none => [0, 7]
  | some .word => [if source = 0 then s.loadLE y a 4 else 0, 7]
  | none => [0, 7]

/-- The reply words of a CFG_FIELD_READ that names no register of the other side (R514). -/
def State.fieldWords (s : State) (x : Side) (k : Packet) : List Nat :=
  let a := k.p 1
  let lo := bits (k.p 2) 5 0
  let hi := bits (k.p 2) 11 6
  let source := bits (k.p 2) 13 12
  let ovl := bits (k.p 2) 17 14
  match fieldAt x a lo hi with
  | none => s.otherWords k.world x a lo hi source
  | some (h, f, i) =>
    let rs := (s.side x).work ++ fixedRecs
    if f.clsAt i = .none then [if source = 0 then s.fieldValue x k.world h f i else 0, 7]
    else
      let active := s.get (.side x) F.CFG_MODE_ACTIVE 0
      let base := recOf rs a lo 0xFF
      let q : Nat × Bool :=
        if source = 0 then (s.fieldValue x k.world h f i,
          base.isSome || (List.range 12).any (fun o => active.testBit o && (recOf rs a lo o).isSome))
        else if source = 1 then ((base.getD (f.rst.at h i)) % 2 ^ f.width, base.isSome)
        else (((recOf rs a lo ovl).getD 0) % 2 ^ f.width, (recOf rs a lo ovl).isSome)
      [q.1, f.cls.code + b2n q.2 * 8]

/-- The answer to a CFG_FIELD_READ (R514). A register of the other side is read over the cross bridge; with that side out of reach the
manual gives no status: TARGET_ABSENT with DETAIL 0 (DESIGN CHOICE, log entry 88). -/
def State.fieldAnswer (s : State) (x : Side) (j : Job) : State :=
  let k := j.pkt
  match ownMap x (k.p 1) with
  | some (y, a) =>
    if y = x then s.done j stOk 0 (s.fieldWords x k)
    else if s.farPresent x 0 then s.done j stOk 0 (s.otherWords k.world y a (bits (k.p 2) 5 0) (bits (k.p 2) 11 6) (bits (k.p 2) 13 12))
    else s.done j stAbsent 0 []
  | none => s.done j stOk 0 [0, 7]

/-- CFG_FIELD_READ (R514). -/
def execCfgFieldRead (x : Side) (s : State) : Out :=
  ok (s.chromir x 0x103 (fun s j => s.fieldAnswer x j))

/-- A record of the working copy replaced or created. -/
def putRec (r : Rec) (l : List Rec) : List Rec :=
  l.filter (fun q => !(q.addr == r.addr && q.lo == r.lo && q.owner == r.owner)) ++ [r]

/-- CFG_FIELD_WRITE (R127): answered at the commit of its snapshot. -/
def execCfgFieldWrite (x : Side) (s : State) : Out :=
  ok (s.chromir x 0x104 (fun s j =>
    let k := j.pkt
    let source := bits (k.p 2) 13 12
    let owner := if source = 1 then 0xFF else bits (k.p 2) 17 14
    let v := s.side x
    let s := s.setSide x { v with
      work := putRec ⟨k.p 1, bits (k.p 2) 5 0, bits (k.p 2) 11 6, owner, k.p 3⟩ v.work
      written := if v.written.contains owner then v.written else v.written ++ [owner]
      fieldReqs := v.fieldReqs ++ [j] }
    (s.set (.side x) F.CFG_STATUS_FIELD_WRITTEN 0 1).log x 0x206 2
      [.wide (k.p 1), .nar 2 source, .nar 4 (bits (k.p 2) 17 14), .wide (k.p 3)]))

/-! ## Image loads (R87, R123 to R125) -/

/-- Bank of slot `t` that is not in use (R124): after an IMAGE_FALLBACK the one that the pointer names; with no image in use, the one that it
does not name. -/
def State.freeBank (s : State) (x : Side) (t : Nat) : Nat :=
  let u := Tab.at 0 (s.side x).used t
  if (if u = 0 then s.pointer x t else u) = 1 then 1 else 0

/-- The slot's pointer moves to bank `b`; the load is logged (R124). -/
def State.movePointer (s : State) (x : Side) (t b version : Nat) : State :=
  (s.setPointer x t (b + 1)).log x 0x204 2 [.nar 12 t, .wide version]

/-- The image at `a` written into the free bank of its slot. -/
def State.writeBank (s : State) (x : Side) (a t : Nat) (q : Slot) : State :=
  let at_ := q.bank (s.freeBank x t)
  (s.erase x at_ q.size).store x at_ (s.load x a (s.imgLength x a))

/-- What fails of a load (R123): a status, the DETAIL and the record. An image with a word that its ECC finds uncorrectable (`bad`) fails its check:
DESIGN CHOICE (log entry 110). -/
def State.loadFails (s : State) (x : Side) (k : Packet) (q : Slot) (bad : Bool) : Option (Nat × Nat × Option Nat) :=
  if bad then some (stCheck, 0, none)
  else if s.imgLength x (k.p 1) ≠ k.p 2 then some (stParam, 2, none)
  else (s.imageCheck x (k.p 1) q).map (fun r => (r.1, 0, r.2))

/-- Every packet that waits for Chromir of side `x` is answered BUSY_UPDATE, but for the load `j` that replaces it (R87). -/
def State.busyAll (s : State) (x : Side) (j : Job) : State :=
  let v := s.side x
  let wait := v.chromirQ ++ v.longQ.filter (fun k => k != j)
  let s := s.setSide x { v with chromirQ := [], longQ := v.longQ.filter (fun k => k = j) }
  s.each wait (fun s k => (s.inc (.side x) F.STOKER_BUSY_UPDATE_COUNT 0).answer k stBusy 0 [])

/-- The replacement of Chromir begins (R87 step 2): the image lies in the free bank, Chromir is down until it announces readiness. -/
def State.chromirUpdate (s : State) (x : Side) (j : Job) (q : Slot) : State :=
  let s := s.writeBank x (j.pkt.p 1) 0x200 q
  let s := s.setSide x { s.side x with chromirDown := true, chromirDownAt := s.now }
  ((s.set (.side x) F.STOKER_STATE_UPDATING 0 1).set (.side x) F.STOKER_STATE_CHROMIR_READY 0 0).busyAll x j

/-- A load that passed its checks, of another slot: programmed, read back with `good`, the pointer moved (R124). That a readback mismatch is
logged as IMAGE_REJECTED too is a DESIGN CHOICE (log entry 112). -/
def State.loadImage (s : State) (x : Side) (j : Job) (q : Slot) (good : Bool) : State × Reply :=
  let t := j.pkt.target
  let v := s.imgVersion x (j.pkt.p 1)
  let b := s.freeBank x t
  let s := s.writeBank x (j.pkt.p 1) t q
  if good then (s.movePointer x t b v, ⟨j, stOk, 0, [v]⟩) else (s.imageRejected x t (stCheck, none), ⟨j, stCheck, 0, []⟩)

/-- The load of packet `j` into slot `q`, once its image has been read: `r` says whether an uncorrectable word was among it. A failing signature is a
security event (R456). -/
def State.loadRun (s : State) (x : Side) (j : Job) (q : Slot) (bad good : Bool) : State × Reply :=
  match s.loadFails x j.pkt q bad with
  | some (st, d, i) =>
    let s := s.imageRejected x j.pkt.target (st, i)
    (if st = stSignature then s.secEvent x 0 else s, ⟨j, st, d, []⟩)
  | none => s.loadImage x j q good

/-- CFG_IMAGE_LOAD (R123, R124): `good` says that the readback of the programmed bank matches, `lost` and `corr` name a word of the image that the
ECC finds uncorrectable, or corrects (R28, R29). A load waits at a locked line (R302). -/
def execCfgImageLoad (x : Side) (good : Bool) (lost corr : Option Word40) (s : State) : Out :=
  match (s.side x).longQ with
  | j :: _ =>
    match slotOf j.pkt.target with
    | some q =>
      let k := j.pkt
      let idle : Bool := s.up x && !(s.side x).chromirDown && k.code == 0x105 && (s.side x).longReply.isNone
      if idle ∧ s.engineWaits x (k.p 1) (k.p 2) then ok s
      else
        let r := if idle then s.engineRead x 9 k.world (k.p 1) (k.p 2) lost corr else (false, s)
        if k.target = 0x200 ∧ r.2.loadFails x k q r.1 = none ∧ good then ok (if idle then r.2.chromirUpdate x j q else s)
        else ok (s.long x 0x105 (fun _ j => r.2.loadRun x j q r.1 good))
    | none => ok s
  | [] => ok s

/-- CFG_IMAGE_VERIFY (R91): the checks of R123 on the stored image, whose version is sent with every outcome. Of a slot whose pointer names
no bank, bank 0 is checked (DESIGN CHOICE, log entry 88). -/
def execCfgImageVerify (x : Side) (s : State) : Out :=
  ok (s.long x 0x106 (fun s j =>
    let t := j.pkt.target
    match slotOf t with
    | none => (s, ⟨j, stParam, 0, []⟩)
    | some q =>
      let a := q.bank (s.pointer x t - 1)
      let v := s.imgVersion x a
      match s.imageCheck x a q with
      | some r => (s.imageRejected x t r, ⟨j, r.1, 0, [v]⟩)
      | none => (s, ⟨j, stOk, 0, [v]⟩)))

/-! ## The calibration set (R133 to R135) -/

/-- CAL_READ (R133, R135). -/
def execCalRead (x : Side) (s : State) : Out :=
  ok (s.chromir x 0x901 (fun s j =>
    if s.is (.side x) F.CFG_STATUS_CAL_BAD 0 then s.done j stCheck 0 []
    else let c := s.calItem x j.pkt.target; s.done j stOk 0 [c.value, c.by_]))

/-- The calibration copy of side `x` becomes the bytes `l`, without their CRC (R134 steps 2 and 3): they are written into the unused bank with a
new CRC, the pointer moves and the previous bank is erased. What was in use stands until the side's next commit. -/
def State.calBank (s : State) (x : Side) (l : List Nat) : State :=
  let keep := ((List.range 0x1D2).filter (fun t =>
    Tab.at 0 (s.side x).calOld t == 0 && s.loadLE x (s.calAddr x t) 5 != leNat ((l.drop (8 * t)).take 5)))
  let s := s.setSide x { s.side x with calOld := keep.foldl (fun c t => Tab.put 0 c t ((s.calItem x t).value + 1)) (s.side x).calOld }
  let old := s.calAddr x 0
  let b := (s.byte x 0x800000FF).toNat % 2
  let s := s.store x (0x80010000 + (1 - b) * 0x10000) (l ++ leBytes 4 (crc32 l))
  ((s.store x 0x800000FF [1 - b]).erase x old (calLen + 4)).setSide x { s.side x with calCrcOk := true }

/-- Item `t` written in the copy of side `x`. -/
def State.calPut (s : State) (x : Side) (t : Nat) (c : CalItem) : State :=
  let l := s.load x (s.calAddr x 0) calLen
  s.calBank x (l.take (8 * t) ++ leBytes 5 c.value ++ leBytes 2 c.by_ ++ [0] ++ l.drop (8 * t + 8))

/-- The other side is reachable over the cross bridge. -/
def State.crossReach (s : State) (x : Side) : Bool := s.up x.other && s.is (.side x) F.SIDE_STATUS_CROSS_UP 0

/-- CAL_WRITE (R134): both sides or neither; `goodA` and `goodB` are the readbacks. -/
def execCalWrite (x : Side) (goodA goodB : Bool) (s : State) : Out :=
  ok (s.long x 0x902 (fun s j =>
    let t := j.pkt.target
    if ¬ s.crossReach x then (s, ⟨j, stAbsent, 0, []⟩)
    else if goodA ∧ goodB then
      let old := s.calItem x t
      let c : CalItem := ⟨j.pkt.p 1, j.pkt.p 2⟩
      let s := (s.calPut .a t c).calPut .b t c
      (s.log x 0x209 2 [.nar 12 t, .wide old.value, .wide c.value, .nar 16 c.by_], ⟨j, stOk, 0, []⟩)
    else (s, ⟨j, stCheck, 0, []⟩)))

/-- Items of a copy whose written-by is not 0 (R135). -/
def State.calWritten (s : State) (x : Side) : Nat :=
  ((List.range 0x1D2).filter (fun t => calTarget t && (s.calItem x t).by_ != 0)).length

/-- The copy of side `y` written over that of side `x` (R135). -/
def State.calRepair (s : State) (x y : Side) : State :=
  let s := s.calBank x (s.load y (s.calAddr y 0) calLen)
  (s.set (.side x) F.CFG_STATUS_CAL_BAD 0 0).log x 0x20A 2 []

/-- The comparison of two copies that can reach each other (R135). -/
def State.calCompare (s : State) : State :=
  match (s.side .a).calCrcOk, (s.side .b).calCrcOk with
  | true, true =>
    if s.load .a (s.calAddr .a 0) calLen = s.load .b (s.calAddr .b 0) calLen then s
    else if s.calWritten .a < s.calWritten .b then s.calRepair .a .b else s.calRepair .b .a
  | true, false => s.calRepair .b .a
  | false, true => s.calRepair .a .b
  | false, false => s

/-- What a side does with its copy, whose CRC verifies or not, at wake (R135). The other copy is within reach when the other side runs and
has not lost the cross link. The side's own units start with what it decides. -/
def State.calWake (s : State) (x : Side) (crcOk : Bool) : State :=
  let s := s.setSide x { s.side x with calCrcOk := crcOk }
  let s := if s.up x.other ∧ ¬ (s.side x.other).crossLost then s.calCompare else s
  let s := s.setSide x { s.side x with calOld := [], calIdle := !(s.side x).calCrcOk }
  if (s.side x).calCrcOk then s.set (.side x) F.CFG_STATUS_CAL_BAD 0 0
  else (s.set (.side x) F.CFG_STATUS_CAL_BAD 0 1).log x 0x20B 2 []

/-- CAL_LATE_REPAIR (R135): the sides have become reachable to each other. -/
def execCalLateRepair (s : State) : Out :=
  ok (if s.shares then s.calCompare else s)

end Sys2Proof.Machine
end

