-- ==== Sys2Proof/Machine/Doors.lean ====
section
/-! DEFINITION. The doors (chapter 03 R70 to R79): words into packets, reply words out, flushes, and the checks of an access. -/
namespace Sys2Proof.Machine
open Sys2Proof

/-- The packet that a list of words spells (R64). -/
def Packet.ofWords (ws : List Nat) (compared : Bool) : Packet :=
  let h := ws.headD 0
  ⟨bits h 39 28, bits h 27 20, bits h 19 17, bits h 11 0, ws.tail, compared⟩

/-- Words of a packet. -/
def Packet.length (k : Packet) : Nat := 1 + k.params.length

/-- Free words of the command FIFO of source `i` (R78, R112). -/
def State.credits (s : State) (x : Side) (i : Nat) : Nat :=
  let r := s.src x i
  64 - r.asm.length - r.cmd.foldl (fun n p => n + p.length) 0

/-- Address of a register of door `n` (R78). -/
def doorAddr (n off : Nat) : Nat := 0x40030000 + n * 0x80 + off

/-- What the door refuses an access with, if anything: the safety pair past its unit, another initiator at the pair door (R280), an
access to a door that is not in use, or by a world that does not own it (R70). `data` marks CMD, RPL and the split
registers. -/
def State.doorRefuses (s : State) (x : Side) (o : Origin) (n : Nat) (data : Bool) : Option Nat :=
  let paired := s.get (.side x) F.PAIR_CFG_MODE 0 == 0
  let isPair := match o with
    | .pair _ => true
    | _ => false
  if isPair && paired then some 16
  else if data && s.pairDoor x == some n then some 17
  else if !s.is (.side x) F.DOOR_OWNER_ENABLED n then some 21
  else if s.worldOf x o ≠ s.get (.side x) F.DOOR_OWNER_WORLD n then some 3
  else none

/-- An access to door `n`, checked for page and door ownership; world 0 may read DOORnn_STATUS and DOORnn_OWNER of every door (R70). -/
def State.doorAccess (s : State) (x : Side) (o : Origin) (n off size : Nat) (write data : Bool) (f : State → State) : State :=
  s.guarded x o (doorAddr n off) size write (fun s =>
    match s.doorRefuses x o n data with
    | some c =>
      if (c = 3 ∨ c = 21) ∧ s.worldOf x o = 0 ∧ ¬ write ∧ (off = 0x10 ∨ off = 0x18) then f s
      else s.busError x o c size write (doorAddr n off)
    | none => f s)

/-- A word joins the packet under assembly of source `i`, which is complete after COUNT further words (R71). -/
def State.append (s : State) (x : Side) (i w : Nat) (compared : Bool) : State :=
  let r := s.src x i
  let ws := r.asm ++ [w % 2 ^ 40]
  if ws.length = bits (ws.headD 0) 16 12 + 1 then
    s.setSrc x i { r with asm := [], cmd := r.cmd ++ [Packet.ofWords ws compared] }
  else s.setSrc x i { r with asm := ws }

/-- A word written to the command FIFO of door `n`, which event 0x32 counts (R475); with no credit the write is a bus error and the word is lost (R71). -/
def State.doorPush (s : State) (x : Side) (o : Origin) (n off size w : Nat) : State :=
  if s.credits x n = 0 then (s.set (.side x) F.DOOR_STATUS_CMD_ERR n 1).busError x o 4 size true (doorAddr n off)
  else (s.append x n w false).ownEvent x 0x32 (initCode o) (s.worldOf x o) (some (doorAddr n off))

/-- A 64-bit write of DOORnn_CMD. -/
def State.doorCmd (s : State) (x : Side) (o : Origin) (n w : Nat) : State :=
  s.doorAccess x o n 0 8 true true (fun s => s.doorPush x o n 0 8 w)

/-- A write of DOORnn_CMD_HI holds the high bits of the next word (R72). -/
def State.doorHi (s : State) (x : Side) (o : Origin) (n v : Nat) : State :=
  s.doorAccess x o n 0x1C 4 true true (fun s => s.setSrc x n { s.src x n with hi := v % 256 })

/-- A write of DOORnn_CMD_LO appends the word formed with the held bits (R72). -/
def State.doorLo (s : State) (x : Side) (o : Origin) (n v : Nat) : State :=
  s.doorAccess x o n 0x20 4 true true (fun s => s.doorPush x o n 0x20 4 ((s.src x n).hi * 2 ^ 32 + v % 2 ^ 32))

/-- The head reply word of source `i`, or the idle word, and the state without it. -/
def State.pop (s : State) (x : Side) (i : Nat) : Nat × State :=
  let r := s.src x i
  match r.rpl with
  | [] => (idleWord, s)
  | w :: t => (w, s.setSrc x i { r with rpl := t })

/-- A read of DOORnn_RPL removes and returns the head word (R74). -/
def State.doorRead (s : State) (x : Side) (o : Origin) (n : Nat) : State :=
  s.doorAccess x o n 8 8 false true (fun s =>
    let q := s.pop x n
    { q.2 with resp := .data q.1 })

/-- A read of DOORnn_RPL_HI removes the head word, returns its high bits and latches the others (R72). -/
def State.doorReadHi (s : State) (x : Side) (o : Origin) (n : Nat) : State :=
  s.doorAccess x o n 0x24 4 false true (fun s =>
    let q := s.pop x n
    let s := q.2
    { s.setSrc x n { s.src x n with lo := q.1 % 2 ^ 32 } with resp := .data (q.1 / 2 ^ 32) })

/-- A write of DOORnn_CTRL: FLUSH discards the incomplete packet (R71). -/
def State.doorCtrl (s : State) (x : Side) (o : Origin) (n v : Nat) : State :=
  s.doorAccess x o n 0x14 4 true false (fun s => if v.testBit 0 then s.setSrc x n { s.src x n with asm := [] } else s)

/-- Door `n` flushed as a world restart does: its packet under assembly, its untaken packets, its reply FIFO and its tags go (R77). -/
def State.doorFlush (s : State) (x : Side) (n : Nat) : State :=
  let r := s.src x n
  (s.setSrc x n { r with asm := [], cmd := [], rpl := [], out := [] }).set (.side x) F.DOOR_STATUS_STALL n 0

/-- The packets of a reply FIFO but those of world `w`; the first `part` words are the rest of a packet that is being shifted out. -/
def keepReplies (w : Nat) : Nat → Nat → List Nat → List Nat
  | 0, _, l => l
  | _ + 1, _, [] => []
  | n + 1, part, v :: l =>
    if 0 < part then v :: keepReplies w n (part - 1) l
    else
      let k := hdrCount v
      (if bits v 19 17 = w then [] else v :: l.take k) ++ keepReplies w n 0 (l.drop k)

/-- The Stoke port of side `x` flushed as a world restart does (R77, R103): what it holds for world `w`, its packets not yet taken, the
replies and events in the transmit FIFO and the tags, goes. No world owns the port, and R77 speaks of doors owned by `w`: that the port loses just what
bears the world `w`, and keeps the rest of a packet that is being shifted out, is a DESIGN CHOICE (log entry 120). -/
def State.stokeFlush (s : State) (x : Side) (w : Nat) : State :=
  let r := s.src x 32
  s.setSrc x 32 { r with
    cmd := r.cmd.filter (fun k => k.world ≠ w)
    rpl := keepReplies w 64 (s.side x).stokeHead r.rpl
    out := r.out.filter (fun t => t.world ≠ w) }

/-- DOOR_CMD_WRITE (R71). -/
def execDoorCmdWrite (x : Side) (o : Origin) (n : Fin 32) (w : Word40) (s : State) : Out := ok (s.doorCmd x o n w.toNat)

/-- DOOR_CMD_HI_WRITE (R72). -/
def execDoorCmdHiWrite (x : Side) (o : Origin) (n : Fin 32) (v : BitVec 32) (s : State) : Out := ok (s.doorHi x o n v.toNat)

/-- DOOR_CMD_LO_WRITE (R72). -/
def execDoorCmdLoWrite (x : Side) (o : Origin) (n : Fin 32) (v : BitVec 32) (s : State) : Out := ok (s.doorLo x o n v.toNat)

/-- DOOR_RPL_READ (R74). -/
def execDoorRplRead (x : Side) (o : Origin) (n : Fin 32) (s : State) : Out := ok (s.doorRead x o n)

/-- DOOR_RPL_HI_READ (R72). -/
def execDoorRplHiRead (x : Side) (o : Origin) (n : Fin 32) (s : State) : Out := ok (s.doorReadHi x o n)

/-- DOOR_FLUSH (R71). -/
def execDoorFlush (x : Side) (o : Origin) (n : Fin 32) (s : State) : Out := ok (s.doorCtrl x o n 1)

end Sys2Proof.Machine
end

