-- ==== Sys2Proof/Machine/Pair.lean ====
section
/-! DEFINITION. The safety pair (chapter 09 R280 to R286): packets and signatures of the two cores compared, mismatches, reply copies. -/
namespace Sys2Proof.Machine
open Sys2Proof

/-- Core `c` of the pair of side `x`. -/
def State.pairCore (s : State) (x : Side) (c : Nat) : PairCore := if c = 0 then (s.side x).pair0 else (s.side x).pair1

/-- The state with `v` in core `c` of the pair of side `x`. -/
def State.setPairCore (s : State) (x : Side) (c : Nat) (v : PairCore) : State :=
  if c = 0 then s.setSide x { s.side x with pair0 := v } else s.setSide x { s.side x with pair1 := v }

/-- The compare window of side `x` in ns (R281, R286). -/
def State.pairWindow (s : State) (x : Side) : Nat := clampNat 1 1000 (s.get (.side x) F.PAIR_CFG_WINDOW 0) * 1000

/-- Address of a register of the PAIR page (R286). -/
def pairAddr (off : Nat) : Nat := 0x400E0000 + off

/-- An access to a PAIR register that acts for the accessing pair hart: any other initiator's ends in a bus error, and in split mode any
access but one to PAIR_LEVEL (R280, R286). -/
def State.pairAccess (s : State) (x : Side) (o : Origin) (off : Nat) (write : Bool) (f : State → Nat → State) : State :=
  s.guarded x o (pairAddr off) 4 write (fun s =>
    match o with
    | .pair c => if s.get (.side x) F.PAIR_CFG_MODE 0 = 0 ∨ off = 0x28 then f s c else s.busError x o 13 4 write (pairAddr off)
    | _ => s.busError x o 13 4 write (pairAddr off))

/-- Both cores and everything of theirs at the PAIR unit reset. -/
def State.pairClear (s : State) (x : Side) : State :=
  s.setSide x { s.side x with pair0 := PairCore.empty, pair1 := PairCore.empty }

/-- Pair core `c` leaves reset at the ENTRY of its HOME world (R437), or is held in reset. -/
def State.pairCoreRun (s : State) (x : Side) (c : Nat) (run : Bool) : State :=
  let h := Holder.side x
  let s := s.set h (if c = 0 then F.PAIR_STATUS_CORE0_RUN else F.PAIR_STATUS_CORE1_RUN) 0 (b2n run)
  s.setHart x (4 + c) { Hart.held with pc := if run then s.get h F.WOT_WORLD_ENTRY (s.coreWorld x (4 + c)) else 0 }

/-- The two cores of the pair run, or are held in reset. -/
def State.pairRun (s : State) (x : Side) (run : Bool) : State := (s.pairCoreRun x 0 run).pairCoreRun x 1 run

/-- The cores reset: the locks and atomic operations that they hold end (R303). -/
def State.pairReset (s : State) (x : Side) : State := ((s.pairClear x).coreReset x 4).coreReset x 5

/-- HALT (R284): both cores are held in reset until the next wake. -/
def State.pairHalt (s : State) (x : Side) : State :=
  ((s.pairReset x).pairRun x false).set (.side x) F.PAIR_STATUS_HALTED 0 1

/-- RESTART (R284): both cores are reset and restart, and the pair door is flushed. -/
def State.pairRestart (s : State) (x : Side) (row : List Nat) : State :=
  let s := s.pairReset x
  let s := s.doorFlush x (s.get (.side x) F.PAIR_CFG_DOOR 0)
  let s := (s.setSide x { s.side x with pairRestarts := s.now :: row, pairIndex := 0 }).pairRun x true
  s.inc (.side x) F.PAIR_RESTART_COUNT 0

/-- A mismatch of a kind (1 OUT_DATA, 2 OUT_TIME, 3 SIG_DATA, 4 SIG_TIME, 5 COMPARATOR) (R284). -/
def State.pairMismatch (s : State) (x : Side) (kind : Nat) : State :=
  let g := Holder.side x
  let s := (s.set g F.PAIR_STATUS_MISMATCH 0 1).set g F.PAIR_STATUS_KIND 0 kind
  let s := ((s.inc g F.PAIR_MISMATCH_COUNT 0).intr x 89).log x 0x50B 14 [.nar 3 kind, .nar 8 (s.side x).pairIndex]
  let s := s.pairClear x
  let act := s.get g F.PAIR_CFG_ON_MISMATCH 0
  let row := (s.side x).pairRestarts
  let inRow := match row with
    | t :: _ => decide (s.now ≤ t + 10000000000)
    | [] => false
  if act = 0 then
    if inRow = true ∧ s.get g F.PAIR_CFG_RESTARTS 0 ≤ row.length then s.pairHalt x
    else s.pairRestart x (if inRow then row else [])
  else if act = 2 then s.sideDown x 1
  else s.pairHalt x

/-- The oldest complete packets of the two cores compared, when both exist and the pair door has room: a second one that came late is
OUT_TIME whatever it holds (R281). `bad`: the comparator shows an invalid rail code, which is a mismatch of kind COMPARATOR (R285). -/
def State.pairMatch (s : State) (x : Side) (bad : Bool) : State :=
  match (s.side x).pair0.done, (s.side x).pair1.done with
  | (w0, t0, e0) :: r0, (w1, t1, e1) :: r1 =>
    if bad then s.pairMismatch x 5
    else if (if t0 ≤ t1 then e0 else e1) < max t0 t1 then s.pairMismatch x 2
    else if w0 ≠ w1 then s.pairMismatch x 1
    else
      let d := s.get (.side x) F.PAIR_CFG_DOOR 0
      if s.credits x d < w0.length then s
      else
        let v := s.side x
        let s := s.setSide x { v with
          pair0 := { v.pair0 with done := r0 }, pair1 := { v.pair1 with done := r1 }, pairIndex := v.pairIndex + 1 }
        (s.setSrc x d { s.src x d with cmd := (s.src x d).cmd ++ [Packet.ofWords w0 true] }).inc (.side x) F.PAIR_COMPARED_COUNT 0
  | _, _ => s

/-- Packets that the pair door had no room for go on once it has (R48, R281). -/
def State.pairGoOn (s : State) (x : Side) : State :=
  if (s.pairDoor x).isSome then iter (fun s => s.pairMatch x false) (s.side x).pair0.done.length s else s

/-- A word written to PAIR_OUT_LO by core `c` (R281). -/
def State.pairOutLo (s : State) (x : Side) (c v : Nat) (bad : Bool) : State :=
  let p := s.pairCore x c
  let used := p.out.length + p.done.foldl (fun n q => n + q.1.length) 0
  if 64 ≤ used then s.busError x (.pair (Fin.ofNat 2 c)) 4 4 true (pairAddr 0x14)
  else
    let ws := p.out ++ [p.hi * 2 ^ 32 + v % 2 ^ 32]
    if ws.length = bits (ws.headD 0) 16 12 + 1 then
      (s.setPairCore x c { p with out := [], done := p.done ++ [(ws, s.now, s.now + s.pairWindow x)] }).pairMatch x bad
    else s.setPairCore x c { p with out := ws }

/-- PAIR_OUT_HI_WRITE (R281). -/
def execPairOutHiWrite (x : Side) (o : Origin) (v : BitVec 32) (s : State) : Out :=
  ok (s.pairAccess x o 0x10 true (fun s c => s.setPairCore x c { s.pairCore x c with hi := v.toNat % 256 }))

/-- PAIR_OUT_LO_WRITE (R281); `bad`: a comparison that it brings about meets an invalid rail code (R285). -/
def execPairOutLoWrite (x : Side) (o : Origin) (v : BitVec 32) (bad : Bool) (s : State) : Out :=
  ok (s.pairAccess x o 0x14 true (fun s c => s.pairOutLo x c v.toNat bad))

/-- The end of the window that the oldest unpaired packet, or signature, opened: the k-th of one core whose k-th of the other is not there (R281,
R283). -/
def pairEnd {α : Type} (l0 l1 : List (α × Nat × Nat)) : Option Nat :=
  ((l0.drop l1.length).head?.or (l1.drop l0.length).head?).map (fun e => e.2.2)

/-- PAIR_OUT_TIMEOUT (R281): the second packet is incomplete WINDOW after the first. -/
def execPairOutTimeout (x : Side) (s : State) : Out :=
  ok (match pairEnd (s.side x).pair0.done (s.side x).pair1.done with
    | some e => (s.due (e + 1)).pairMismatch x 2
    | none => s)

/-- PAIR_SIG_HI_WRITE (R283). -/
def execPairSigHiWrite (x : Side) (o : Origin) (v : BitVec 32) (s : State) : Out :=
  ok (s.pairAccess x o 0x20 true (fun s c => s.setPairCore x c { s.pairCore x c with sigHi := v.toNat % 256 }))

/-- The oldest signatures of the two cores compared, when both exist (R283); `bad` as for packets (R285). -/
def State.sigMatch (s : State) (x : Side) (bad : Bool) : State :=
  match (s.side x).pair0.sigs, (s.side x).pair1.sigs with
  | (v0, t0, e0) :: r0, (v1, t1, e1) :: r1 =>
    if bad then s.pairMismatch x 5
    else if (if t0 ≤ t1 then e0 else e1) < max t0 t1 then s.pairMismatch x 4
    else if v0 ≠ v1 then s.pairMismatch x 3
    else
      let v := s.side x
      (s.setSide x { v with
        pair0 := { v.pair0 with sigs := r0 }, pair1 := { v.pair1 with sigs := r1 }, pairIndex := v.pairIndex + 1 }).inc (.side x)
        F.PAIR_SIG_COUNT 0
  | _, _ => s

/-- A signature completed by core `c`; a fifth ahead of the other core is a mismatch (R283). -/
def State.pairSigLo (s : State) (x : Side) (c v : Nat) (bad : Bool) : State :=
  let p := s.pairCore x c
  if 4 ≤ p.sigs.length then s.pairMismatch x 4
  else
    (s.setPairCore x c { p with sigs := p.sigs ++ [(p.sigHi * 2 ^ 32 + v % 2 ^ 32, s.now, s.now + s.pairWindow x)] }).sigMatch x bad

/-- PAIR_SIG_LO_WRITE (R283, R285). -/
def execPairSigLoWrite (x : Side) (o : Origin) (v : BitVec 32) (bad : Bool) (s : State) : Out :=
  ok (s.pairAccess x o 0x24 true (fun s c => s.pairSigLo x c v.toNat bad))

/-- PAIR_SIG_TIMEOUT (R283): the other core's signature is not written within WINDOW. -/
def execPairSigTimeout (x : Side) (s : State) : Out :=
  ok (match pairEnd (s.side x).pair0.sigs (s.side x).pair1.sigs with
    | some e => (s.due (e + 1)).pairMismatch x 4
    | none => s)

/-- A read of PAIR_RPL_HI: the head word of the core's copy goes, its low bits are latched, and the PAIR unit may take the next reply
from the pair door (R282, R286). -/
def State.pairRplHi (s : State) (x : Side) (c : Nat) : State :=
  let p := s.pairCore x c
  let w := p.rpl.headD idleWord
  let s := (s.setPairCore x c { p with rpl := p.rpl.tail, rplLo := w % 2 ^ 32 }).pairPull x
  { s with resp := .data (w / 2 ^ 32) }

/-- PAIR_RPL_HI_READ (R282). -/
def execPairRplHiRead (x : Side) (o : Origin) (s : State) : Out :=
  ok (s.pairAccess x o 0x18 false (fun s c => s.pairRplHi x c))

end Sys2Proof.Machine
end

