-- ==== Sys2Proof/Machine/Spark.lean ====
section
/-! DEFINITION. Spark reflexes (chapter 08): the matchers and their rules, firing, the actions on the spark lines and their answers. -/
namespace Sys2Proof.Machine
open Sys2Proof

/-! ## Events (R252) -/

/-- A status bit of an event condition; source 83 latches at a rise of one of the three (R252). -/
def State.sparkFlag (s : State) (m : Matcher) (f : Fld) : State :=
  match m with
  | .side x => if s.is (.side x) f 0 then s else (s.set (.side x) f 0 1).intr x 83
  | .flue => s.set .flue f 0 1

/-- A spark event of rule `n`, at most one per code in 10 ms, to the owner's event door on the side of the rule, or on both. -/
def State.sparkEvent (s : State) (m : Matcher) (n code : Nat) (words : List Nat) : State :=
  let v := s.matcher m
  match limited v.lastEvt (n * 8 + code) s.now with
  | none => s.mn m F.SPK_EVT_SUPPRESS_COUNT 0
  | some t =>
    let s := s.setMatcher m { v with lastEvt := t }
    let w := s.mq m F.SPK_RULE_CTRL_OWNER n
    match m with
    | .side x => s.event x w 4 stOk code (ruleTarget m n) words
    | .flue => s.eventBoth w 4 stOk code (ruleTarget m n) words

/-! ## Rules against source events (R237 to R241) -/

/-- Eight bytes as two rule words hold them (R235): five in the first, three in the second. -/
def eightBytes (w v : Nat) : Nat := w % 2 ^ 40 * 2 ^ 24 + v % 2 ^ 24

/-- Rule `n` matches a source event, its verification apart (R237). -/
def State.ruleMatches (s : State) (m : Matcher) (n : Nat) (e : Stimulus) : Bool :=
  let w1 := s.ruleWord m n 1
  let idx := bits w1 6 2
  let off := bits (s.ruleWord m n 6) 10 0
  let data := eightBytes (s.ruleWord m n 7) (s.ruleWord m n 8)
  let mask := eightBytes (s.ruleWord m n 9) (s.ruleWord m n 10)
  let bytes := beNat ((List.range 8).map (fun i => e.payload.getD (off + i) 0))
  s.mq m F.SPK_RULE_CTRL_ENABLED n == 1 && bits w1 1 0 == e.src && (idx == e.index || (e.src == 1 && idx == 31)) &&
    (e.src != 2 || bits w1 8 8 == e.edge) &&
    ((e.key0 ^^^ s.ruleWord m n 2) &&& s.ruleWord m n 4) == 0 && ((e.key1 ^^^ s.ruleWord m n 3) &&& s.ruleWord m n 5) == 0 &&
    ((bytes ^^^ data) &&& mask) == 0

/-- The action that rule `n` puts on its line for an event: ACTION 1 to 3, its channel and its parameter; FOLLOW becomes a SET with the
payload bit (R238). -/
def State.ruleAction (s : State) (m : Matcher) (n : Nat) (e : Stimulus) : List Nat :=
  let w1 := s.ruleWord m n 1
  let a := bits w1 15 12
  let p := s.ruleWord m n 11
  if a = 4 then
    let b := bits p 5 0
    let byte := e.payload.getD (bits (s.ruleWord m n 6) 10 0 + b / 8) 0
    [1, bits w1 21 16, b2n (byte.testBit (b % 8) != p.testBit 6)]
  else [a, bits w1 21 16, p]

/-- Entries of the return queue of the line to die `d` that are taken (R242): eight in all. -/
def State.lineLoad (s : State) (m : Matcher) (d : Nat) : Nat :=
  (Tab.at [] (s.matcher m).lines d).length + (Tab.at [] (s.matcher m).answers d).length

/-- An action enters the line to die `d`, or waits for a credit (R241). -/
def State.lineSend (s : State) (m : Matcher) (d : Nat) (a : SparkAction) : State :=
  let v := s.matcher m
  if Tab.at [] v.waiting d = [] ∧ s.lineLoad m d < 8 then
    s.setMatcher m { v with lines := Tab.put [] v.lines d (Tab.at [] v.lines d ++ [a]) }
  else
    (s.setMatcher m { v with waiting := Tab.put [] v.waiting d (Tab.at [] v.waiting d ++ [a]) }).mn m F.SPK_LINE_WAIT_COUNT 0

/-- Rule `n` fires (R240). -/
def State.fire (s : State) (m : Matcher) (n : Nat) (e : Stimulus) : State :=
  let w12 := s.ruleWord m n 12
  let s := ((s.mn m F.SPK_RULE_FIRES n).mn m F.SPK_FIRE_COUNT 0).mw m F.SPK_RULE_LAST_S n e.seconds
  let s := s.mw m F.SPK_RULE_LAST_NS n e.nanos
  let v := s.matcher m
  let s := s.setMatcher m { v with lastFire := Tab.put 0 v.lastFire n (e.at_ + 1) }
  let a := s.ruleAction m n e
  let c := a.getD 1 0
  let s := if a.getD 0 0 = 0 then s
    else s.lineSend m (c / 16) ⟨n, s.mq m F.SPK_RULE_CTRL_OWNER n, s.mq m F.SPK_RULE_CTRL_COMPARED n == 1, a, e.seconds, e.nanos, false⟩
  let s := if w12.testBit 16 then s.sparkEvent m n 1 [ruleTarget m n, c, e.seconds, e.nanos] else s
  let limit := s.mq m F.SPK_FIRE_LIMIT 0
  if limit ≠ 0 ∧ s.mq m F.SPK_RULE_FIRES n = limit then
    (s.sparkFlag m F.SPK_STATUS_THRESH).sparkEvent m n 4 [ruleTarget m n, s.mq m F.SPK_RULE_FIRES n]
  else s

/-- One rule meets a source event (R237, R240, R252). HOLDOFF runs from reference instant to reference instant. -/
def State.ruleTakes (s : State) (m : Matcher) (e : Stimulus) (n : Nat) : State :=
  if ¬ s.ruleMatches m n e then s
  else
    let sealed := (s.ruleWord m n 1).testBit 7
    if e.failed then
      if sealed then
        ((s.sparkFlag m F.SPK_STATUS_SEAL_FAIL).mn m F.SPK_SEAL_FAIL_COUNT 0).sparkEvent m n 3 [ruleTarget m n, 0, e.seconds, e.nanos]
      else s
    else if sealed ∧ ¬ e.verified then s
    else if ¬ (s.mq m F.SPK_WORLD_RUN 0).testBit (s.mq m F.SPK_RULE_CTRL_OWNER n) then s.mn m F.SPK_MASKED_COUNT 0
    else
      let last := Tab.at 0 (s.matcher m).lastFire n
      if last ≠ 0 ∧ e.at_ < last - 1 + bits (s.ruleWord m n 12) 15 0 * 10000 then s.mn m F.SPK_HOLDOFF_COUNT 0
      else s.fire m n e

/-- A source event at a matcher: every rule in ascending number (R240, R241). -/
def State.sparkTake (s : State) (m : Matcher) (e : Stimulus) : State :=
  if s.matcherReady m then s.each (List.range (ruleCount m)) (fun s n => s.ruleTakes m e n) else s

/-- SPARK_SOURCE_EVENT (R240, R241): the matcher takes the oldest of its source events. -/
def execSparkSourceEvent (m : Matcher) (s : State) : Out :=
  let v := s.matcher m
  ok (match v.events with
    | [] => s
    | e :: rest => (s.setMatcher m { v with events := rest }).sparkTake m e)

/-! ## At the grate die (R243 to R245) -/

/-- An action without its channel's permission, or applied: the channel's status and DETAIL. -/
def State.sparkAct (s : State) (c : Nat) (w : Nat) (a : Act) (slew : Nat) (compared : Bool) : State × Nat × Nat :=
  if ¬ (s.cq c F.CH_SPARK).testBit w then (s, stDenied, 1)
  else
    let (s, r) := s.act c a slew compared none
    match r with
    | .refused status detail => (s, status, detail)
    | _ => (s, stOk, 0)

/-- An action taken by its die: the answer's status, DETAIL and channel. A GROUP action acts on its selected channels in the order of
R217 and answers with the status of the lowest-numbered one not applied (R242). -/
def State.sparkApply (s : State) (d : Nat) (a : SparkAction) : State × Nat × Nat × Nat :=
  let c := a.words.getD 1 0
  let p := a.words.getD 2 0
  match a.words.getD 0 0 with
  | 1 =>
    let (s, st, det) := s.sparkAct c a.world (actOfSet p) (if p.testBit 1 then bits p 16 8 else 0) a.compared
    (s, st, det, c)
  | 2 =>
    let (s, st, det) := s.sparkAct c a.world (actOfPwm p) 0 a.compared
    (s, st, det, c)
  | _ =>
    let sel := bits p 15 0
    let on := bits p 31 16
    let permitted (c : Nat) : Bool := (s.cq c F.CH_SPARK).testBit a.world
    let left := (chansOf d).foldl (fun m c => if sel.testBit (c % 16) && !permitted c then Machine.setBit m (c % 16) else m) 0
    let step (q : State × List (Nat × Nat × Nat)) (c : Nat) : State × List (Nat × Nat × Nat) :=
      let act : Act := if on.testBit (c % 16) then .on ⟨false, 0, 0, 0, 0, 0⟩ else .off none
      let (s, st, det) := q.1.sparkAct c a.world act 0 a.compared
      (s, if st = stOk then q.2 else q.2 ++ [(c, st, det)])
    let (s, bad) := (s.groupOrder d (clearMask sel left)).foldl step (s, [])
    let bad := bad ++ ((chansOf d).filter (fun c => left.testBit (c % 16))).map (fun c => (c, stDenied, 1))
    match (chansOf d).findSome? (fun c => bad.find? (fun b => b.1 == c)) with
    | some b => (s, b.2.1, b.2.2, b.1)
    | none => (s, stOk, 0, c)

/-- SPARK_ACTION_ARRIVAL (R243): the die takes the action at the head of the matcher's line; an absent die's boundary answers. The answer toward a matcher
that has been reset is discarded (R58). -/
def execSparkActionArrival (m : Matcher) (d : Fin 4) (s : State) : Out :=
  let v := s.matcher m
  ok (match Tab.at [] v.lines d with
    | [] => s
    | a :: rest =>
      let s := s.setMatcher m { v with lines := Tab.put [] v.lines d rest }
      let (s, status, detail, c) := if s.present (dieUnit d) then s.sparkApply d a
        else ((match m with
          | .side x => s.inc (.side x) F.FAB_PROXY_ABSENT 0
          | .flue => s), stAbsent, unitCode (dieUnit d), a.words.getD 1 0)
      let v := s.matcher m
      if a.orphan then s else s.setMatcher m { v with answers := Tab.put [] v.answers d (Tab.at [] v.answers d ++
        [⟨a.rule, a.world, status, detail, c, a.seconds, a.nanos⟩]) })

/-- An answer at its matcher (R242, R252). -/
def State.sparkAnswered (s : State) (m : Matcher) (r : SparkReply) : State :=
  if r.status = stOk then s
  else
    let s := s.mn m (if r.status = stLimit ∨ r.status = stBudget then F.SPK_RULE_REFUSED else F.SPK_RULE_DENIED) r.rule
    let s := (s.mn m F.SPK_REFUSED_COUNT 0).sparkFlag m F.SPK_STATUS_REFUSED
    s.sparkEvent m r.rule 2 [ruleTarget m r.rule, r.chan + r.status * 2 ^ 6 + r.detail * 2 ^ 14, r.seconds, r.nanos]

/-- SPARK_ANSWER (R242): the answer returns, its credit is free, and a waiting action enters the line. -/
def execSparkAnswer (m : Matcher) (d : Fin 4) (s : State) : Out :=
  let v := s.matcher m
  ok (match Tab.at [] v.answers d with
    | [] => s
    | r :: rest =>
      let v := { v with answers := Tab.put [] v.answers d rest }
      let v := match Tab.at [] v.waiting d with
        | [] => v
        | a :: l => { v with waiting := Tab.put [] v.waiting d l, lines := Tab.put [] v.lines d (Tab.at [] v.lines d ++ [a]) }
      (s.setMatcher m v).sparkAnswered m r)

/-! ## Spark opcodes (R95, R246, R250) -/

/-- The matcher and rule that TARGET names for side `x`. -/
def ruleOf (x : Side) (target : Nat) : Matcher × Nat := if target < 0x100 then (.side x, target) else (.flue, target - 0x100)

/-- A Chromir packet on a rule: an Ethernet rule's passes over the die bridge, and one that changes it needs the net token (R95). -/
def State.onRule (s : State) (j : Job) (token : Bool) (f : State → Matcher → Nat → State) : State :=
  let (m, n) := ruleOf j.side j.pkt.target
  match m with
  | .side _ => f s m n
  | .flue =>
    if ¬ s.present .flue then s.doneAbsent j .flue
    else if token ∧ ¬ s.holds j.side 4 then s.done j stMaster (s.masterDetail 4) []
    else f s m n

/-- COMPARED of rule `n` from the marks of its last write and its last enable (R246). -/
def State.showCompared (s : State) (m : Matcher) (n : Nat) : State :=
  s.mw m F.SPK_RULE_CTRL_COMPARED n (b2n (Tab.at 0 (s.matcher m).marks n == 3))

/-- Bit `b` of the marks of rule `n`. -/
def State.markRule (s : State) (m : Matcher) (n b : Nat) (v : Bool) : State :=
  let k := s.matcher m
  let old := Machine.clearBit (Tab.at 0 k.marks n) b
  (s.setMatcher m { k with marks := Tab.put 0 k.marks n (if v then Machine.setBit old b else old) }).showCompared m n

/-- SPK_RULE_WRITE (R250). -/
def execSpkRuleWrite (x : Side) (s : State) : Out :=
  ok (s.chromir x 0x401 (fun s j => s.onRule j true (fun s m n =>
    let s := s.each (List.range 12) (fun s k => s.mw m F.SPK_RULE_W (12 * n + k + 1) (j.pkt.p (k + 1)))
    let v := s.matcher m
    let s := s.setMatcher m { v with lastFire := Tab.put 0 v.lastFire n 0 }
    (s.markRule m n 0 j.pkt.compared).done j stOk 0 [])))

/-- SPK_RULE_ENABLE (R250). -/
def execSpkRuleEnable (x : Side) (s : State) : Out :=
  ok (s.chromir x 0x402 (fun s j => s.onRule j true (fun s m n =>
    let on := (j.pkt.p 1).testBit 0
    let s := s.mw m F.SPK_RULE_CTRL_ENABLED n (b2n on)
    (if on then s.markRule m n 1 j.pkt.compared else s).done j stOk 0 [])))

/-- SPK_RULE_QUERY (R95). -/
def execSpkRuleQuery (x : Side) (s : State) : Out :=
  ok (s.chromir x 0x403 (fun s j => s.onRule j false (fun s m n =>
    s.done j stOk 0 ((List.range 12).map (fun k => s.ruleWord m n (k + 1)) ++
      [s.mq m F.SPK_RULE_CTRL_ENABLED n + s.mq m F.SPK_RULE_CTRL_OWNER n * 2]))))

/-- SPK_STATS (R252). -/
def execSpkStats (x : Side) (s : State) : Out :=
  ok (s.chromir x 0x404 (fun s j => s.onRule j false (fun s m n =>
    s.done j stOk 0 [s.mq m F.SPK_RULE_FIRES n, s.mq m F.SPK_RULE_REFUSED n, s.mq m F.SPK_RULE_LAST_S n, s.mq m F.SPK_RULE_LAST_NS n])))

/-- Every rule of a matcher disabled (R152 step 1), or those of world `w` (R251). -/
def State.rulesOff (s : State) (m : Matcher) (w : Option Nat) : State :=
  s.each (List.range (ruleCount m)) (fun s n =>
    if w = none ∨ w = some (s.mq m F.SPK_RULE_CTRL_OWNER n) then s.mw m F.SPK_RULE_CTRL_ENABLED n 0 else s)

/-! ## Packet offences (R239) -/

/-- The offences of a CH_SET or CH_PWM parameter word `p` as word `w` of a packet, for a channel of class `k` (R92). -/
def setOffences (p w : Nat) : List Offence := need (!p.testBit 1 || decide (5 ≤ bits p 16 8 ∧ bits p 16 8 ≤ 500)) w 8

/-- Those of CH_PWM. -/
def pwmOffences (p w k : Nat) : List Offence :=
  need (decide (25 ≤ bits p 30 16 ∧ bits p 30 16 ≤ if k = 0 then 2000 else 20000)) w 16

/-- The offences of a rule record (R239) in the words of SPK_RULE_WRITE. That all 40 bits of W2 to W5 are assigned, as R235 lists them, those too to which
R236 gives no meaning for a CAN source, is a DESIGN CHOICE (log entry 120). -/
def recordOffences (k : Packet) : List Offence :=
  let w1 := k.p 1
  let src := bits w1 1 0
  let idx := bits w1 6 2
  let a := bits w1 15 12
  let p := k.p 11
  let quietSrc := decide (2 ≤ src)
  let side := decide (k.target < 0x100)
  unassigned [0x3FF1FF, ones 40, ones 40, ones 40, ones 40, 0x7FF, ones 40, ones 24, ones 40, ones 24, ones 40, 0x1FFFF] k.params 1 ++
    need (if side then src != 1 else src == 1) 1 0 ++
    need (if src = 0 then decide (idx ≤ 5) else if src = 1 then decide (idx ≤ 14) || idx == 31 else if src = 2 then decide (idx ≤ 15)
      else decide (idx ≤ 3)) 1 2 ++
    need (!(quietSrc && w1.testBit 7)) 1 7 ++ need (!(src != 2 && w1.testBit 8)) 1 8 ++
    (if quietSrc then (List.range 4).flatMap (fun i => need (k.p (i + 2) == 0) (i + 2) 0) else []) ++
    need (decide (bits (k.p 6) 10 0 ≤ 2040)) 6 0 ++ need (decide (a ≤ 4)) 1 12 ++ need (!(a == 4 && quietSrc)) 1 12 ++
    (match a with
      | 0 => need (p == 0) 11 (lowestBit 40 p)
      | 1 => unassigned [0x1FF03] [p] 11 ++ setOffences p 11
      | 2 => unassigned [0x7FFFFFFFF] [p] 11 ++ pwmOffences p 11 (classOf (bits w1 21 16))
      | 3 => unassigned [0xFFFFFFFF] [p] 11 ++ need (bits p 15 0 != 0) 11 0
      | 4 => unassigned [0x7F] [p] 11
      | _ => [])

end Sys2Proof.Machine
end

