-- ==== Sys2Proof/Machine/Worlds.lean ====
section
/-! DEFINITION. Worlds (chapter 15 R436 to R445, R462): boot verification of an image slot, start, measurement, watchdogs, failure and
restart. -/
namespace Sys2Proof.Machine
open Sys2Proof

/-- World `w` takes part in side `x`: world 0 always does (R420). -/
def State.worldEnabled (s : State) (x : Side) (w : Nat) : Bool := w == 0 || s.is (.side x) F.WOT_WORLD_CFG_ENABLED w

/-- STATE of world `w` (R436): 0 NONE, 1 HELD, 2 STARTING, 3 RUNNING, 4 FAILED, 5 RESTARTING. -/
def State.worldState (s : State) (x : Side) (w : Nat) : Nat := s.get (.side x) F.WOT_WORLD_STATE_STATE w

/-- World `w` in STATE `n`. -/
def State.setWorld (s : State) (x : Side) (w n : Nat) : State := s.set (.side x) F.WOT_WORLD_STATE_STATE w n

/-- An event with the world and a cause, whose code the manual does not give: a free value. -/
def State.worldLog (s : State) (x : Side) (code w : Nat) : State := s.took.log x code 13 [.nar 3 w, .nar 8 (s.freeVal 8)]

/-! ## The banks of a slot at boot (R124, R444) -/

/-- The bank (coded 1 or 2) of slot `t` that Kindling uses: the one that the pointer names, or the other when that fails the checks
of R123; 0 when neither passes. -/
def State.bootBank (s : State) (x : Side) (t : Nat) : Nat :=
  match slotOf t with
  | none => 0
  | some q =>
    let u := s.pointer x t
    if u = 0 then 0
    else if (s.imageCheck x (q.bank (u - 1)) q).isNone then u
    else if (s.imageCheck x (q.bank (2 - u)) q).isNone then 3 - u
    else 0

/-- BOOT_FAIL with a cause (R444): the manual gives the causes no codes, so it is a free value. -/
def State.bootFail (s : State) (x : Side) : State := s.took.log x 0xB05 13 [.nar 8 (s.freeVal 8)]

/-- The images of slot `t` checked at boot: the bank in use, with IMAGE_FALLBACK and BOOT_FAIL where R124 and R444 ask for them. -/
def State.bootSlot (s : State) (x : Side) (t : Nat) : State :=
  let u := s.bootBank x t
  let p := s.pointer x t
  let s := if u = p then s else s.bootFail x
  let s := if u ≠ 0 ∧ u ≠ p then s.log x 0x203 2 [] else s
  s.setSide x { s.side x with used := Tab.put 0 (s.side x).used t u }

/-! ## Starting a world (R437, R442, R445) -/

/-- Image slot of world `w`. -/
def worldSlot (w : Nat) : Nat := 0x300 + w

/-- World `w` may read and execute every page of the `n` bytes from `a` by the static regions alone (R442). -/
def State.staticRange (s : State) (x : Side) (a n w : Nat) : Bool :=
  (List.range ((a + n - 1) / 4096 - a / 4096 + 1)).all (fun i =>
    let page := a / 4096 * 4096 + i * 4096
    let m := match ((List.range 64).map (s.wotRegion x)).find?
        (fun e => regionUsed e && decide (e.1 ≤ page ∧ page < e.1 + e.2.1 * 4096)) with
      | some e => e.2.2
      | none => 0x010101
    m.testBit w && m.testBit (16 + w))

/-- The body of world `w`'s image in use: its address in NOR and its length. -/
def State.worldBody (s : State) (x : Side) (w : Nat) : Option (Nat × Nat) :=
  (s.imageInUse x (worldSlot w)).map (fun a => (a + 192, s.imgLength x a - 192))

/-- The DIGEST of the image in use in slot `t`, zeros when there is none (R445). -/
def State.usedDigest (s : State) (x : Side) (a : Option Nat) : List Nat :=
  match a with
  | some a => s.load x (a + 0x30) 48
  | none => List.replicate 48 0

/-- The bytes that world `w`'s measurement covers, its body as copied to `load` (R445). -/
def State.measured (s : State) (x : Side) (w a load n : Nat) : List Nat :=
  let own := s.load x a 0xC0 ++ s.load x load n
  if w = 0 then
    s.usedDigest x (s.imageInUse x 0x200) ++ s.usedDigest x (s.imageInUse x 0) ++
      (List.range 12).flatMap (fun o => s.usedDigest x (s.overlayInUse x o)) ++ own
  else Tab.at (List.replicate 48 0) (s.side x).measures 0 ++ own

/-- The harts of the pair run when mode 0 finds one HOME for both, or in split mode each with its own world (R437). In mode 0 cores with
different HOMEs are held, and the start of core 0's world logs BOOT_FAIL, cause PAIR_WORLD. -/
def State.pairStarts (s : State) (x : Side) (w : Nat) : State :=
  let h := Holder.side x
  if s.is h F.PAIR_STATUS_HALTED 0 then s
  else if s.get h F.PAIR_CFG_MODE 0 = 0 then
    if s.get h F.WOT_HART_HOME 4 ≠ w then s
    else if s.get h F.WOT_HART_HOME 5 = w then s.pairRun x true
    else s.bootFail x
  else
    let s := if s.get h F.WOT_HART_HOME 4 = w then s.pairCoreRun x 0 true else s
    if s.get h F.WOT_HART_HOME 5 = w then s.pairCoreRun x 1 true else s

/-- The home harts of world `w` leave reset at its ENTRY in M mode (R437). -/
def State.hartsStart (s : State) (x : Side) (w : Nat) : State :=
  let h := Holder.side x
  let s := s.each (List.range 4) (fun s i =>
    if s.get h F.WOT_HART_HOME i = w then
      (s.setHart x i { Hart.held with run := true, pc := s.get h F.WOT_WORLD_ENTRY w }).set h F.WOT_HART_CURRENT i w
    else s)
  s.pairStarts x w

/-- World `w` is loaded, measured and started: RUNNING while the application cores are out of reset, else HELD (R437, R440, R445). -/
def State.worldLoad (s : State) (x : Side) (w : Nat) : State :=
  let h := Holder.side x
  match s.imageInUse x (worldSlot w), s.worldBody x w with
  | some a, some (src, n) =>
    let load := s.get h F.WOT_WORLD_LOAD w
    if n = 0 ∨ (s.staticRange x load n w ∧ (inSram load n ∨ inDdr load n)) then
      let s := s.write x load (s.load x src n)
      let s := s.setSide x { s.side x with
        measures := Tab.put [] (s.side x).measures w (sha384 (s.measured x w a load n)) }
      let s := s.set h F.WOT_WORLD_STATE_MEASURED w 1
      if (s.side x).cores then
        (s.setSide x { s.side x with kicks := Tab.put 0 (s.side x).kicks w s.now }).hartsStart x w |>.setWorld x w 3
      else s.setWorld x w 1
    else (s.worldLog x 0xB04 w).setWorld x w 0
  | _, _ => (s.worldLog x 0xB04 w).setWorld x w 0

/-- WORLD_READY (R437, R440 step 5): a starting world is loaded, measured and runs; a restarting one is verified again first. -/
def execWorldReady (x : Side) (w : Fin 8) (s : State) : Out :=
  ok (if ¬ s.up x ∨ (s.side x).chromirDown then s
  else if s.worldState x w = 2 then s.worldLoad x w
  else if s.worldState x w = 5 then
    let s := (s.bootSlot x (worldSlot w)).worldLoad x w
    if s.worldState x w = 3 ∨ s.worldState x w = 1 then s.log x 0xB03 13 [.nar 3 w] else s
  else s)

/-- WORLD_IMAGE_VERIFIED (R443 step 6): Kindling verifies the next enabled world's image in the background; the world becomes HELD,
starts at once when the module is Lit, or is NONE when both banks fail (R444). -/
def execWorldImageVerified (x : Side) (w : Fin 8) (s : State) : Out :=
  let v := s.side x
  let before := (List.range w).all (fun u => !s.worldEnabled x u || v.verified.testBit u)
  ok (if s.up x ∧ s.worldEnabled x w ∧ before = true ∧ ¬ v.verified.testBit w then
    let s := (s.setSide x { v with verified := Machine.setBit v.verified w }).bootSlot x (worldSlot w)
    if Tab.at 0 (s.side x).used (worldSlot w) = 0 then s.setWorld x w 0
    else if (s.side x).cores then s.setWorld x w 2
    else s.setWorld x w 1
  else s)

/-! ## Failing and restarting (R438 to R440) -/

/-- The worlds of a hart, its current one first, then those of its frames from the top down. -/
def State.hartLevels (s : State) (x : Side) (h : Nat) : List Nat :=
  s.get (.side x) F.WOT_HART_CURRENT h :: (s.hart x h).frames.map (fun f => f.world)

/-- A hart with world `w` in its gate stack unwinds to the frame below the lowest occurrence of `w` and faults there with ABORT
(R434, R440 step 1). -/
def State.unwind (s : State) (x : Side) (w h : Nat) : State :=
  let ls := s.hartLevels x h
  match ((List.range ls.length).filter (fun i => ls[i]? == some w)).getLast? with
  | some i =>
    match (s.hart x h).frames.drop i with
    | f :: rest => (s.gatePop x h f rest).gateFault x h 6 f.gate f.ret
    | [] => s
  | none => s

/-- Step 1 of R440: the home harts of world `w` are reset, with their locks (R303), and the other harts unwind. -/
def State.hartsStop (s : State) (x : Side) (w : Nat) : State :=
  let g := Holder.side x
  let s := s.each (List.range 4) (fun s h =>
    if s.get g F.WOT_HART_HOME h = w then (s.coreReset x h).set g F.WOT_HART_CURRENT h w
    else if (s.hart x h).run then s.unwind x w h
    else s)
  if s.get g F.WOT_HART_HOME 4 = w ∧ (s.get g F.PAIR_CFG_MODE 0 = 0 ∨ s.get g F.WOT_HART_HOME 5 = w) then (s.pairReset x).pairRun x false
  else if s.get g F.WOT_HART_HOME 4 = w then (s.coreReset x 4).pairCoreRun x 0 false
  else if s.get g F.WOT_HART_HOME 5 = w ∧ s.get g F.PAIR_CFG_MODE 0 ≠ 0 then (s.coreReset x 5).pairCoreRun x 1 false
  else s

/-- Step 2 of R440: the DMA channels and the frame interface of world `w` stop, its interrupt page is cleared, its doors on both sides
and what the Stoke ports hold for it are flushed (R77, R103) and its spark rules disabled (R251). -/
def State.worldClear (s : State) (x : Side) (w : Nat) : State :=
  let g := Holder.side x
  let s := s.each (List.range 32) (fun s n =>
    if s.get g F.DMA_CTRL_WORLD n = w then s.dmaHalt x n else s)
  let s := if s.get g F.NETIF_CFG_WORLD 0 = w then s.set g F.NETIF_CTRL 0 0 else s
  let s := s.each (List.range 104) (fun s n =>
    if s.get g F.INTR_ROUTE_WORLD n = w then
      (s.clearBit g F.INTR_ENABLE (n / 32) (n % 32)).clearBit g F.INTR_PENDING (n / 32) (n % 32)
    else s)
  let s := s.each [Side.a, Side.b] (fun s y => s.each (List.range 32) (fun s n =>
    if s.get (.side y) F.DOOR_OWNER_WORLD n = w then s.doorFlush y n else s))
  let s := (s.stokeFlush .a w).stokeFlush .b w
  s.each [Matcher.side .a, Matcher.side .b, Matcher.flue] (fun s m => s.rulesOff m (some w))

/-- Steps 1 to 3 of R440. -/
def State.cleanUp (s : State) (x : Side) (w : Nat) : State := (s.hartsStop x w).worldClear x w

/-- Steps 1 to 4 of R440: the world is RESTARTING until WORLD_READY. A world that is not ENABLED stays NONE. -/
def State.worldRestart (s : State) (x : Side) (w : Nat) : State :=
  let g := Holder.side x
  let s := (s.setWorld x w 5).cleanUp x w
  let s := s.set g F.WOT_WORLD_STATE_MEASURED w 0
  let s := (s.log x 0xB02 13 [.nar 3 w]).inc g F.WOT_WORLD_STATE_RESTARTS w
  if s.worldEnabled x w then s else s.setWorld x w 0

/-- WORLD_FAIL and what ON_FAIL makes of it (R438, R439). -/
def State.worldFail (s : State) (x : Side) (w : Nat) : State :=
  let g := Holder.side x
  let v := s.side x
  let l := s.now :: (Tab.at [] v.fails w).filter (fun t => decide (s.now ≤ t + 60000000000))
  let s := s.setSide x { v with fails := Tab.put [] v.fails w l }
  let s := (s.worldLog x 0xB01 w).inc g F.WOT_WORLD_FAIL_COUNT 0
  if s.is g F.WOT_WORLD_CFG_ON_FAIL w ∧ l.length ≤ s.get g F.WOT_WORLD_CFG_RESTARTS w then s.worldRestart x w
  else (s.cleanUp x w).setWorld x w 4

/-- WORLD_WATCHDOG (R438): WDOG ms without a kick. -/
def execWorldWatchdog (x : Side) (w : Fin 8) (s : State) : Out :=
  let d := s.get (.side x) F.WOT_WORLD_CFG_WDOG w
  ok (if s.up x ∧ s.worldState x w = 3 ∧ d ≠ 0 then
    (s.due (Tab.at 0 (s.side x).kicks w + d * 1000000)).worldFail x w
  else s)

/-- A write of WLD_KICKw (R462). -/
def State.worldKick (s : State) (x : Side) (w v : Nat) : State :=
  if v.testBit 0 ∧ s.worldState x w = 3 then s.setSide x { s.side x with kicks := Tab.put 0 (s.side x).kicks w s.now } else s

/-- WLD_KICK (R438, R462). -/
def execWldKick (x : Side) (o : Origin) (w : Fin 8) (v : BitVec 32) (s : State) : Out :=
  ok (s.guarded x o (0x40132100 + 0x1000 * w) 4 true (fun s => s.worldKick x w v.toNat))

/-! ## Packets (R99) -/

/-- Offences of a WORLD packet: its TARGET names a world; for WLD_DEBUG_UNLOCK a challenge or an unlock with a certificate of 160 bytes
that its world may read in local SRAM (R99, R428, R451). -/
def State.worldOffences (s : State) (x : Side) (k : Packet) : List Offence :=
  if k.code = 0x804 then
    need (decide (k.target < 2)) 0 0 ++
      (if k.target = 1 then
        unassigned [ones 40, ones 16] k.params 1 ++ need (inSram (k.p 1) 160 && s.wotRange x (k.p 1) 160 k.world 0) 1 0 ++
          need (decide (bits (k.p 2) 15 0 = 160)) 2 0
      else [])
  else need (decide (k.target < 8)) 0 0

/-- WOT_GATE as a gate of WLD_RESTART: its DETAIL when closed (R440, R121). -/
def State.worldGate (s : State) (x : Side) : Option Nat :=
  if s.is (.side x) F.WOT_GATE 0 then none else some (s.gateDetail x 0x400D000C 0 (fun v => v == 0))

/-- WLD_STATUS (R436). -/
def execWldStatus (x : Side) (s : State) : Out :=
  ok (s.chromir x 0x801 (fun s j =>
    let w := j.pkt.target
    let h := Holder.side x
    s.done j stOk 0 [s.worldState x w + s.get h F.WOT_WORLD_STATE_MEASURED w * 8 + s.get h F.WOT_WORLD_STATE_RESTARTS w * 256]))

/-- WLD_RESTART (R440). -/
def execWldRestart (x : Side) (s : State) : Out :=
  ok (s.chromir x 0x802 (fun s j => (s.worldRestart x j.pkt.target).done j stOk 0 []))

/-- WLD_MEASURE_GET (R445): the digest from its lowest bits up, its first byte the highest. -/
def execWldMeasureGet (x : Side) (s : State) : Out :=
  ok (s.chromir x 0x803 (fun s j =>
    let m := beNat (Tab.at [] (s.side x).measures j.pkt.target)
    s.done j stOk 0 ((List.range 10).map (fun i => m / 2 ^ (40 * i) % 2 ^ 40))))

end Sys2Proof.Machine
end

