-- ==== Sys2Proof/Machine/Dma.lean ====
section
/-! DEFINITION. The control registers of the DMA channels (chapter 02 R62, R73) and the claim of an interrupt (chapter 01 R41 to R43). -/
namespace Sys2Proof.Machine
open Sys2Proof

/-! ## Claims of interrupts -/

/-- The event behind a source is still present after its claim: replies or events wait in a door (R39, R42). Which events count as present
the rule leaves open: that the status bits of the other units do not, being records of an event that is over, is a DESIGN CHOICE
(log entry 89). -/
def State.intrPresent (s : State) (x : Side) (n : Nat) : Bool := decide (n < 32) && (s.src x n).rpl != []

/-- A read of INTR_CLAIM of world `w` (R42). -/
def State.intrClaim (s : State) (x : Side) (w : Nat) : State :=
  match s.intrNext x w with
  | none => { s with resp := .data 0 }
  | some n =>
    let s := s.clearBit (.side x) F.INTR_PENDING (n / 32) (n % 32)
    let s := if s.intrPresent x n then s.intr x n else s
    { s with resp := .data (2 ^ 31 + n) }

/-- INTR_CLAIM (R42, R43): each claim is served by itself. -/
def execIntrClaim (x : Side) (o : Origin) (w : Fin 8) (s : State) : Out :=
  ok (s.guarded x o (0x40132020 + 0x1000 * w) 4 false (fun s => s.intrClaim x w))

/-! ## DMA channels -/

/-- The event codes of R484: first code and number of each class. -/
def ashCodes : List (Nat × Nat) :=
  [(0x001, 7), (0x100, 3), (0x200, 12), (0x300, 10), (0x400, 9), (0x500, 12), (0x600, 4), (0x700, 4), (0x800, 4), (0x900, 6), (0xA00, 7), (0xB00, 11)]

/-- The `k`-th code that is not zero and that R484 gives to no event. -/
def otherCode (k : Nat) : Nat := ashCodes.foldl (fun c q => if q.1 ≤ c then c + q.2 else c) (k + 1)

/-- A refused or impossible GO (R62): ERR and an entry in the Ash pan, whose event code the manual does not give: one that no other event has. -/
def State.dmaRefuse (s : State) (x : Side) (n code : Nat) : State :=
  (s.took.log x (otherCode (s.freeVal 16 % 4006)) 20 [.nar 8 n, .nar 4 code]).dmaErr x n code

/-- The address is that of a DOORnn_CMD slot, of the side or of the other side (R35, R73). -/
def isDoorCmd (a : Nat) : Bool :=
  decide (((0x40030000 ≤ a ∧ a < 0x40031000) ∨ (0x68030000 ≤ a ∧ a < 0x68031000)) ∧ a % 0x80 = 0)

/-- A write of DMA_CTRL of channel `n` (R62, R73). While the channel runs, IRQ_EN is written and MODE is not: DESIGN CHOICE (log entry 66),
the rule says only what a GO does then. -/
def State.dmaCtrl (s : State) (x : Side) (n v : Nat) : State :=
  let h := Holder.side x
  let busy := s.is h F.DMA_STATUS_BUSY n
  let s := s.set h F.DMA_CTRL_IRQ_EN n (bits v 16 16)
  let s := if busy then s else s.set h F.DMA_CTRL_MODE n (bits v 3 1)
  if ¬ v.testBit 0 then s
  else if busy then s.dmaRefuse x n 5
  else
    let m := bits v 3 1
    let len := s.get h F.DMA_LEN n
    if len = 0 ∨ 2 ≤ m ∨ (m = 0 ∧ isDoorCmd (s.get h F.DMA_DST n) ∧ len % 8 ≠ 0) then s.dmaRefuse x n 4
    else
      let s := s.dmaHalt x n
      (s.setSide x { s.side x with dmaPos := Tab.put 0 (s.side x).dmaPos n 0 }).set h F.DMA_STATUS_BUSY n 1

/-- What channel `n` has moved when a write of `size` bytes is done: a copy advances SRC and BYTES, and DST but at a door (R62, R73); a stream
its ring position, with DONE at each wrap. That the registers show the progress of a copy is a DESIGN CHOICE (log entry 66). -/
def State.dmaMoved (s : State) (x : Side) (n size : Nat) : State :=
  let h := Holder.side x
  let v := s.side x
  if s.get h F.DMA_CTRL_MODE n = 0 then
    let dst := s.get h F.DMA_DST n
    let s := s.setSide x { v with dmaData := Tab.put 0 v.dmaData n 0 }
    let s := (s.add h F.DMA_SRC n size).set h F.DMA_LEN n (s.get h F.DMA_LEN n - size)
    if isDoorCmd dst then s else s.add h F.DMA_DST n size
  else
    let pos := Tab.at 0 v.dmaPos n + size
    let p := if s.get h F.DMA_LEN n ≤ pos then 0 else pos
    let s := s.setSide x { v with dmaPos := Tab.put 0 v.dmaPos n p, dmaQueue := Tab.put [] v.dmaQueue n ((Tab.at [] v.dmaQueue n).drop 1) }
    if p = 0 then s.dmaDone x n else s

/-- The answer `r` to an access of a DMA channel through a bridge reaches the channel. -/
def State.dmaAnswer (s : State) (x : Side) (t : Txn) (r : Resp) : State :=
  if t.chan = 0 then s
  else match t.data, r with
    | none, .data v => s.setSide x { s.side x with dmaData := Tab.put 0 (s.side x).dmaData (t.chan - 1) (v + 1) }
    | some _, _ => s.dmaMoved x (t.chan - 1) (if t.wide then 8 else 4)
    | _, _ => s

/-- Address of a register of DMA channel `n`. -/
def dmaAddr (n off : Nat) : Nat := 0x40160100 + n * 0x40 + off

/-- DMA_GO (R62): a write of DMA_CTRL. While the DMA engine is ABSENT its page answers with a bus error (R56). -/
def execDmaGo (x : Side) (o : Origin) (n : Fin 32) (v : BitVec 32) (s : State) : Out :=
  ok (s.guarded x o (dmaAddr n 0x14) 4 true (fun s =>
    if s.present (.dma x) then s.dmaCtrl x n v.toNat else s.busError x o 8 4 true (dmaAddr n 0x14)))

end Sys2Proof.Machine
end

