-- ==== Sys2Proof/Machine/Records.lean ====
section
/-! DEFINITION. The reading of the Ash pan (chapter 16): ASH_SEL, LOG_READ and LOG_MARK (R100, R484, R485), and its flush into NOR (R154, R487). -/
namespace Sys2Proof.Machine
open Sys2Proof

/-! ## The Ash pan -/

/-- Entry of index `i` of the ring of side `x`. -/
def State.ashEntry (s : State) (x : Side) (i : Nat) : LogEntry := Tab.at ⟨0, 0, 0, 0⟩ (s.side x).ash i

/-- The words of an entry. -/
def LogEntry.words (e : LogEntry) : List Nat := [e.w0, e.w1, e.w2, e.w3]

/-- A write to ASH_SEL latches an entry (R485). -/
def State.ashSel (s : State) (x : Side) (v : Nat) : State :=
  let i := v % 4096
  let s := s.set (.side x) F.ASH_SEL 0 i
  (List.range 4).foldl (fun s k => s.set (.side x) F.ASH_W k ((s.ashEntry x i).words.getD k 0)) s

/-- ASH_SEL_WRITE (R485). -/
def execAshSelWrite (x : Side) (o : Origin) (v : BitVec 32) (s : State) : Out :=
  ok (s.guarded x o 0x40120020 4 true (fun s => s.ashSel x v.toNat))

/-- Offences of a packet of the LOG class (R100). -/
def logOffences (k : Packet) : List Offence :=
  need (decide (k.target = 0)) 0 0 ++
    (if k.code = 0xA01 then unassigned [ones 15] k.params 1 ++ need (decide (1 ≤ bits (k.p 1) 14 12)) 1 12
     else unassigned [ones 40] k.params 1)

/-- LOG_READ (R100): N entries from the one counted back from the newest, newest first. -/
def execLogRead (x : Side) (s : State) : Out :=
  ok (s.chromir x 0xA01 (fun s j =>
    let first := bits (j.pkt.p 1) 11 0
    let seq := s.get (.side x) F.ASH_SEQ 0
    s.done j stOk 0 ((List.range (bits (j.pkt.p 1) 14 12)).flatMap (fun i => (s.ashEntry x ((seq + 8191 - first - i) % 4096)).words))))

/-- LOG_MARK (R484): the entry, and its index. -/
def execLogMark (x : Side) (s : State) : Out :=
  ok (s.chromir x 0xA02 (fun s j =>
    let i := s.ashIndex x 4
    (s.log x 0x006 4 [.nar 3 j.pkt.world, .wide (j.pkt.p 1)]).done j stOk 0 [i]))

/-! ## The flush (R154, R487) -/

/-- Address of flush area `k` (R441). -/
def flushAddr (k : Nat) : Nat := 0x80040000 + k * 0x10000

/-- An entry as a flush writes it: four slots, their CRC-32 and four zero bytes. -/
def LogEntry.flushBytes (e : LogEntry) : List Nat :=
  let bs := e.words.flatMap (leBytes 8)
  bs ++ leBytes 4 (crc32 bs) ++ [0, 0, 0, 0]

/-- The last 256 entries of side `x` flushed into its pre-erased area; `cause` is 1 at sleep, 2 on supply loss. -/
def State.ashFlush (s : State) (x : Side) (cause : Nat) : State :=
  let seq := s.get (.side x) F.ASH_SEQ 0
  let n := min 256 seq
  let a := flushAddr (s.side x).flushArea
  let head := [0x41, 0x53, 0x48, 0x31, cause, 0xA + x.num] ++ leBytes 2 n ++ leBytes 8 (seq - n) ++ leBytes 4 0x434D504C
  let s := s.store x a head
  let s := s.store x (a + 0x40) ((List.range n).flatMap (fun i => (s.ashEntry x ((seq - n + i) % 4096)).flushBytes))
  s.setSide x { s.side x with flushArea := 1 - (s.side x).flushArea }

/-- Flush area `k` was begun and has no completion mark (R154, R487). -/
def State.flushTorn (s : State) (x : Side) (k : Nat) : Bool :=
  s.load x (flushAddr k) 4 == [0x41, 0x53, 0x48, 0x31] && s.loadLE x (flushAddr k + 0x10) 4 != 0x434D504C

/-- The entries of a torn area whose CRC fails are not kept (R154): their bytes are cleared. -/
def State.flushKeep (s : State) (x : Side) (k : Nat) : State :=
  s.each (List.range (min 256 (s.loadLE x (flushAddr k + 6) 2))) (fun s i =>
    let a := flushAddr k + 0x40 + 40 * i
    if s.loadLE x (a + 32) 4 = crc32 (s.load x a 32) then s else s.store x a (List.replicate 40 0))

/-- What a boot does with the flush areas (R154): an area without its completion mark is logged and keeps the entries that verify; the other
one, or that of the two whose turn it is, is erased for the next flush. -/
def State.flushBoot (s : State) (x : Side) : State :=
  let turn := (s.side x).flushArea
  let s := if s.flushTorn x 0 || s.flushTorn x 1 then s.log x 0x309 1 [] else s
  let k := if s.flushTorn x turn && !s.flushTorn x (1 - turn) then 1 - turn else turn
  let s := if s.flushTorn x (1 - k) then s.flushKeep x (1 - k) else s
  (s.setSide x { s.side x with flushArea := k }).erase x (flushAddr k) 0x10000

end Sys2Proof.Machine
end

