-- ==== Sys2Proof/Machine/Walk.lean ====
section
/-! DEFINITION. Translation of the addresses of an application core (chapter 01 R21): Bare, Sv39, Sv48 and the G-stage, with page table
entries read as the core reads memory: through the PMP, the ownership checker and the ECC (R22, R28, R425). What the manual takes over from
the base architecture is marked PRESUMED (log entry 85). -/
namespace Sys2Proof.Machine
open Sys2Proof

/-- Why a walk ends: the cause of the exception, and for an entry whose read ends in a bus error the cause that is logged and the entry's
address (R12). Cause 0: the read waits at a locked line (R302). -/
structure WalkErr where
  cause : Nat
  bus : Option (Nat × Nat)
  deriving DecidableEq, Repr

/-- A walk under way: what the ECC of the memory finds at the entries still to be read, and the entries at which it has corrected a bit. -/
abbrev WalkMem : Type := List Ecc × List Nat

/-- A walk so far and what it has come to. -/
abbrev WalkEnd : Type := WalkMem × Except WalkErr Nat

/-- A walk goes on with what it has come to. -/
def WalkEnd.next (r : WalkEnd) (f : WalkMem → Nat → WalkEnd) : WalkEnd :=
  match r with
  | (m, .ok v) => f m v
  | (m, .error e) => (m, .error e)

/-- A walk of page tables from level `l − 1` down: `pte` reads an entry, `fits` judges a leaf's permissions, `pf` and `af` are the causes of a
page fault and of an access fault, `nb` the index bits at the top level. A leaf whose page number reaches beyond address bit 39 is an
access fault, not a page fault (R21). -/
def walkTables (pte : WalkMem → Nat → WalkEnd) (fits : Nat → Bool) (pf af va : Nat) : Nat → Nat → Nat → WalkMem → WalkEnd
  | 0, _, _, m => (m, .error ⟨pf, none⟩)
  | l + 1, nb, base, m =>
    let size := 2 ^ (12 + 9 * l)
    WalkEnd.next (pte m (base + 8 * (va / size % 2 ^ nb))) (fun m p =>
      let ppn := bits p 53 10
      if ¬ p.testBit 0 ∨ (p.testBit 2 ∧ ¬ p.testBit 1) ∨ 2 ^ 54 ≤ p then (m, .error ⟨pf, none⟩)
      else if p.testBit 1 ∨ p.testBit 3 then
        if 2 ^ 28 ≤ ppn then (m, .error ⟨af, none⟩)
        else if ¬ fits p ∨ ppn % 2 ^ (9 * l) ≠ 0 then (m, .error ⟨pf, none⟩)
        else (m, .ok (ppn * 4096 / size * size + va % size))
      else walkTables pte fits pf af va l 9 (ppn * 4096) m)

/-- A page table entry of eight bytes at physical address `a`, which core `h` reads as it reads memory (R22, R28, R425). -/
def State.readPte (s : State) (x : Side) (h af : Nat) (m : WalkMem) (a : Nat) : WalkEnd :=
  let w := s.coreWorld x h
  let e := m.1.headD .clean
  let rest : WalkMem := (m.1.tail, if e = .corrected then m.2 ++ [a] else m.2)
  if ¬ (inSram a 8 ∨ inDdr a 8 ∨ a + 8 ≤ 0x20000 ∨ (0x80000000 ≤ a ∧ a + 8 ≤ 0x88000000)) then (m, .error ⟨af, none⟩)
  else if ¬ (s.hart x h).pmpAllows w a 8 0 then (m, .error ⟨af, none⟩)
  else if ¬ s.wotAllows x a w 0 then (m, .error ⟨af, some (15, a)⟩)
  else if s.lockedHere x (.hart (Fin.ofNat 4 h)) a 8 then (m, .error ⟨0, none⟩)
  else if e = .lost ∧ (inSram a 8 ∨ inDdr a 8) then (rest, .error ⟨af, some (7, a)⟩)
  else (rest, .ok (s.loadLE x a 8))

/-- A leaf lets an access through that writes or not: readable or writable, accessed, and dirty for a write. That an entry with A or D clear
is a page fault, and is not updated by the hardware, is a DESIGN CHOICE (log entry 85): the manual is silent. -/
def leafFits (write mxr : Bool) (p : Nat) : Bool :=
  p.testBit 6 && (if write then p.testBit 2 && p.testBit 7 else p.testBit 1 || (mxr && p.testBit 3))

/-- The levels of a translation mode of satp, vsatp or hgatp (R21): Bare 0, Sv39 3, Sv48 4; Sv57 and every other are not there. -/
def modeLevels (atp : Nat) : Option Nat :=
  match bits atp 63 60 with
  | 0 => some 0
  | 8 => some 3
  | 9 => some 4
  | _ => none

/-- The G-stage of core `h` (R21): Bare, Sv39x4 or Sv48x4. `write`: the access is a store, which gives the causes; `dirty`: this address is
written, and not read as an entry of the VS-stage tables. -/
def State.gStage (s : State) (x : Side) (h : Nat) (write dirty : Bool) (m : WalkMem) (ga : Nat) : WalkEnd :=
  let af := if write then 7 else 5
  let pf := if write then 23 else 21
  let atp := (s.hart x h).csr (s.coreWorld x h) Csr.hgatp
  match modeLevels atp with
  | some 0 => (m, if ga < 2 ^ 40 then .ok ga else .error ⟨af, none⟩)
  | some l =>
    if 2 ^ (14 + 9 * l) ≤ ga then (m, .error ⟨pf, none⟩)
    else walkTables (s.readPte x h af) (fun p => p.testBit 4 && leafFits dirty false p) pf af ga l 11 (bits atp 43 0 * 4096) m
  | none => (m, .error ⟨pf, none⟩)

/-- The last stage of a translation: the G-stage of a guest, else the address itself, which must not reach beyond bit 39. -/
def State.lastStage (s : State) (x : Side) (h : Nat) (write dirty : Bool) (m : WalkMem) (a : Nat) : WalkEnd :=
  if (s.hart x h).virt then s.gStage x h write dirty m a
  else (m, if a < 2 ^ 40 then .ok a else .error ⟨if write then 7 else 5, none⟩)

/-- The physical address that core `h` forms from address `va` for a read or a write, or the exception that it takes (R21): M mode and Bare use
the address itself. `m.1` says what the ECC finds at the page table entries. -/
def State.translate (s : State) (x : Side) (h va : Nat) (write : Bool) (m : WalkMem) : WalkEnd :=
  let v := s.hart x h
  let w := s.coreWorld x h
  let af := if write then 7 else 5
  let pf := if write then 15 else 13
  if v.priv = 3 then (m, if va < 2 ^ 40 then .ok va else .error ⟨af, none⟩)
  else
    let atp := v.csr w (if v.virt then Csr.vsatp else Csr.satp)
    let st := v.csr w (if v.virt then Csr.vsstatus else Csr.mstatus)
    match modeLevels atp with
    | some 0 => s.lastStage x h write write m va
    | some l =>
      let top := va / 2 ^ (11 + 9 * l)
      if top ≠ 0 ∧ top ≠ 2 ^ (53 - 9 * l) - 1 then (m, .error ⟨pf, none⟩)
      else
        let pte (m : WalkMem) (a : Nat) : WalkEnd := WalkEnd.next (s.lastStage x h write false m a) (s.readPte x h af)
        let fits (p : Nat) : Bool := (if v.priv = 0 then p.testBit 4 else !p.testBit 4 || st.testBit 18) && leafFits write (st.testBit 19) p
        WalkEnd.next (walkTables pte fits pf af va l 9 (bits atp 43 0 * 4096) m) (s.lastStage x h write write)
    | none => (m, .error ⟨pf, none⟩)

/-- The entries that a walk has read are corrected and counted (R28). -/
def State.walked (s : State) (x : Side) (m : WalkMem) : State := s.each m.2 (fun s a => s.eccSeen x a .corrected)

/-- A walk of core `h` for an access at `va` has failed: the core takes the exception; a refused or uncorrectable entry is logged as a read
that ended in a bus error (R12, R28, R426). -/
def State.walkFails (s : State) (x : Side) (h va : Nat) (e : WalkErr) : State :=
  let w := s.coreWorld x h
  let s := match e.bus with
    | some (7, a) => (s.eccSeen x a .lost).logFault x 0 7 h w 8 false a
    | some (c, a) => (s.logFault x 0 c h w 8 false a).wotViolation x h w 0 a
    | none => s
  if e.cause = 0 then s else s.exception x h e.cause va

end Sys2Proof.Machine
end

