-- ==== Sys2Proof/Machine/Bus.lean ====
section
/-! DEFINITION. Plain loads and stores (chapters 00, 01, 10): the address translation of the pair, what a local access does at memory and at
each register, and what an access through a bridge does on its near side, at its far side and when its far side goes away. -/
namespace Sys2Proof.Machine
open Sys2Proof

/-! ## Addresses -/

/-- The physical address of a 32-bit address of pair core `c`, if it has one (R26). -/
def State.pairPhysical (s : State) (x : Side) (c a : Nat) : Option Nat :=
  let a := a % 2 ^ 32
  if a < 0x88000000 then some a
  else if a < 0xC0000000 then none
  else
    let win := s.get (.side x) (if c = 0 then F.PAIR_DRAM_WIN_WIN0 else F.PAIR_DRAM_WIN_WIN1) 0
    some (0x100000000 + win * 0x40000000 + (a - 0xC0000000))

/-- The physical address that an initiator's address means. -/
def State.physical (s : State) (x : Side) (o : Origin) (a : Nat) : Option Nat :=
  match o with
  | .pair c => s.pairPhysical x c a
  | _ => some a

/-- The bridge instance that carries an access to a place (R291). -/
def bridgeOf : Place → Option Nat
  | .farSram => some 0
  | .farUnit _ => some 0
  | .flue _ => some 1
  | .grate d _ => some (2 + d)
  | _ => none

/-! ## Registers -/

/-- The register at an aligned access of `size` bytes, or the cause that refuses it: 12 for a wrong width (R11), 13 for an address
without a register. -/
def regCheck (x : Side) (a size : Nat) : Except Nat (Holder × Reg × Nat) :=
  if size < 4 ∨ a % size ≠ 0 then .error 12
  else match regIn x (placeOf a) with
    | some (h, r, i) => if r.wide = (size == 8) then .ok (h, r, i) else .error 12
    | none => match regIn x (placeOf (a - 4)) with
      | some (_, r, _) => if r.wide ∧ a % 8 = 4 then .error 12 else .error 13
      | none => .error 13

/-- The local unit whose absence closes a page (R56): a CAN channel, the DMA engine, the LIFE unit. -/
def pageUnit (x : Side) (off : Nat) : Option UnitId :=
  let page := off / 0x10000
  if 6 ≤ page ∧ page < 12 then some (.can x (Fin.ofNat 6 (page - 6)))
  else if page = 0x16 ∧ off % 0x10000 < 0x8000 then some (.dma x)
  else if page = 0x19 then some (.life x)
  else none

/-- What closes a unit page to an access: the DOORS page to a core of the paired safety pair (R280), an absent unit, or another world than
the one that has the LIFE page (R323). -/
def State.pageRefuses (s : State) (x : Side) (o : Origin) (off : Nat) : Option Nat :=
  if (match o with
    | .pair _ => decide (off / 0x10000 = 3 ∧ s.get (.side x) F.PAIR_CFG_MODE 0 = 0)
    | _ => false) then some 16
  else match pageUnit x off with
  | some u =>
    if ¬ s.present u then some 8
    else if off / 0x10000 = 0x19 ∧ s.worldOf x o ≠ s.get (.side x) F.LIFE_CFG_WORLD 0 then some 15
    else none
  | none => none

/-- An access of `size` bytes suits the storage: aligned, 32 or 64 bits in a CAN page, 32 bits in the LIFE page. -/
def PageMem.fits (m : PageMem) (a size : Nat) : Bool :=
  decide (a % size = 0) && match m with
    | .canRam _ => size == 4 || size == 8
    | .shadow => size == 4 || size == 8
    | _ => size == 4

/-- The element of region `r` of channel `k` that holds offset `q` of its RAM. -/
def State.elemAt (s : State) (x : Side) (k r q : Nat) : Option Nat :=
  let e := s.region x k r
  if e.1 ≤ q ∧ q < e.2 ∧ 0 < s.elemBytes x k r then some ((q - e.1) / s.elemBytes x k r) else none

/-- What refuses a write into the message RAM of channel `k` at RAM offset `q` (R375). -/
def State.ramRefuses (s : State) (x : Side) (k q : Nat) : Option Nat :=
  if [1, 2, 3].any (fun r => (s.elemAt x k r q).isSome) then some 18
  else match s.elemAt x k 0 q with
    | some b => if (s.cg x F.CAN_TX_PEND k).testBit b ∨ s.isTaken x k b then some 19 else none
    | none => none

/-! ## Reads -/

/-- A read of a register of side `x` with an effect of its own, or the value of any other one. -/
def State.regRead (s : State) (x : Side) (o : Origin) (a size : Nat) (h : Holder) (r : Reg) (i : Nat) : State :=
  let n := r.num
  let plain (s : State) : State := { s with resp := .data (s.regValue x (s.worldOf x o) h r i) }
  if h ≠ .side x then plain s
  else if n = F.DOOR_RPL.reg then s.doorRead x o i
  else if n = F.DOOR_RPL_HI.reg then s.doorReadHi x o i
  else if F.DOOR_CMD.reg ≤ n ∧ n < F.DOOR_EVT.reg then
    s.doorAccess x o i (a - doorAddr i 0) size false
      (n = F.DOOR_CMD.reg ∨ n = F.DOOR_CMD_HI.reg ∨ n = F.DOOR_CMD_LO.reg ∨ n = F.DOOR_RPL_LO.reg) plain
  else if F.PAIR_OUT_HI.reg ≤ n ∧ n ≤ F.PAIR_LEVEL_RPL_WORDS.reg then
    s.pairAccess x o (a - pairAddr 0) false (fun s c =>
      if n = F.PAIR_RPL_HI.reg then s.pairRplHi x c else { s with resp := .data (s.regValue x (s.worldOf x o) h r c) })
  else if F.BRIDGE_AT_ADDR.reg ≤ n ∧ n ≤ F.BRIDGE_LOCK_HELD.reg then
    s.hartAccess x o (a - bridgeAddr 0) false (fun s k =>
      if n = F.BRIDGE_LOCK_HELD.reg then s.lockRead x k else { s with resp := .data (s.regValue x (s.worldOf x o) h r k) })
  else if n = F.INTR_CLAIM_VALID.reg then s.intrClaim x i
  else if n = F.PERF_CNT.reg then s.perfRead x i
  else if n = F.TIME_D0_NS.reg then s.timeRead x 0
  else if n = F.TIME_D1_NS.reg then s.timeRead x 1
  else plain s

/-- A read of the storage of a unit page; `e` is what the ECC of a CAN message RAM finds: an uncorrectable word is a bus error (R28). -/
def State.storageRead (s : State) (x : Side) (o : Origin) (m : PageMem) (a size : Nat) (e : Ecc) : State :=
  match m with
  | .canRam k =>
    let s := s.canEcc x k a e
    if e = .lost then s.busError x o 7 size false a else { s with resp := .data (s.loadLE x a size) }
  | _ => { s with resp := .data (s.loadLE x a size) }

/-- A read of `size` bytes in the unit space. -/
def State.unitRead (s : State) (x : Side) (o : Origin) (a off size : Nat) (e : Ecc) : State :=
  match s.pageRefuses x o off with
  | some c => s.busError x o c size false a
  | none => match pageMem off with
    | some m =>
      if m.fits a size then s.storageRead x o m a size e else s.busError x o 12 size false a
    | none => match regCheck x a size with
      | .error c => s.busError x o c size false a
      | .ok (h, r, i) => s.regRead x o a size h r i

/-- Every page of an access to memory is permitted (R423). -/
def State.spanRefuses (s : State) (x : Side) (o : Origin) (a size : Nat) (write : Bool) : Bool :=
  !s.wotRange x a size (s.worldOf x o) (b2n write)

/-! ## Writes -/

/-- Values written to the bits of a field that belong to a mask; the others keep what they have. -/
def State.setMasked (s : State) (h : Holder) (f : Fld) (i v m : Nat) : State :=
  s.set h f i (clearMask (s.get h f i) m ||| (v &&& m))

/-- The W1C bits of the inputs that world `w` owns (R501). -/
def State.ownInputs (s : State) (x : Side) (w : Nat) (f : Fld) (n : Nat) : Nat :=
  (List.range n).foldl (fun m i => if s.get (.side x) f i = w then Machine.setBit m i else m) 0

/-- A write of `v` to register `r` of side `x` at index `i` by `o`: the triggers that stand in each unit's own chapter, else the fields'
access codes (R14). -/
def State.regWrite (s : State) (x : Side) (o : Origin) (a size v : Nat) (h : Holder) (r : Reg) (i : Nat) : State :=
  let n := r.num
  let w := s.worldOf x o
  let g := Holder.side x
  if h ≠ g then s.writeReg h r i v
  else if n = F.DOOR_CMD.reg then s.doorCmd x o i (v % 2 ^ 40)
  else if n = F.DOOR_CMD_HI.reg then s.doorHi x o i v
  else if n = F.DOOR_CMD_LO.reg then s.doorLo x o i v
  else if n = F.DOOR_CTRL.reg then s.doorCtrl x o i v
  else if F.DOOR_CMD.reg ≤ n ∧ n < F.DOOR_EVT.reg then
    s.doorAccess x o i (a - doorAddr i 0) size true (n = F.DOOR_RPL.reg ∨ n = F.DOOR_RPL_HI.reg ∨ n = F.DOOR_RPL_LO.reg)
      (fun s => s.writeReg h r i v)
  else if F.PAIR_OUT_HI.reg ≤ n ∧ n ≤ F.PAIR_LEVEL_RPL_WORDS.reg then
    s.pairAccess x o (a - pairAddr 0) true (fun s c =>
      let p := s.pairCore x c
      if n = F.PAIR_OUT_HI.reg then s.setPairCore x c { p with hi := v % 256 }
      else if n = F.PAIR_OUT_LO.reg then s.pairOutLo x c v false
      else if n = F.PAIR_SIG_HI.reg then s.setPairCore x c { p with sigHi := v % 256 }
      else if n = F.PAIR_SIG_LO.reg then s.pairSigLo x c v false
      else s)
  else if F.BRIDGE_AT_ADDR.reg ≤ n ∧ n ≤ F.BRIDGE_LOCK_HELD.reg then
    s.hartAccess x o (a - bridgeAddr 0) true (fun s k =>
      if n = F.BRIDGE_AT_CTRL_OP.reg then s.atCtrl x k v
      else if n = F.BRIDGE_LOCK_HELD.reg then s.lockCtrl x k v
      else s.writeReg h r k v)
  else if n = F.BRIDGE_SWI.reg then s.swi x v
  else if n = F.INTR_ENABLE.reg then s.setMasked g F.INTR_ENABLE (i % 4) v (s.intrMask x (i / 4) (i % 4))
  else if n = F.DMA_CTRL_GO.reg then s.dmaCtrl x i v
  else if n = F.WOT_REG_BASE.reg then (if 64 ≤ i then s.set g F.WOT_REG_BASE i v else s)
  else if n = F.WOT_REG_PAGES.reg then (if 64 ≤ i then s.set g F.WOT_REG_PAGES i (bits v F.WOT_REG_PAGES.hi F.WOT_REG_PAGES.lo) else s)
  else if n = F.WOT_REG_PERM_R.reg then
    (if 64 ≤ i then s.each [F.WOT_REG_PERM_R, F.WOT_REG_PERM_W, F.WOT_REG_PERM_X] (fun s f => s.set g f i (bits v f.hi f.lo)) else s)
  else if n = F.WOT_SEC_CTRL.reg then s.secClear x v
  else if n = F.WOT_SYNC_GO.reg then s.wotGo x v
  else if n = F.KEYS_OP_CTRL_GO.reg then s.keysGo x v
  else if n = F.POKER_CTRL.reg then s.pokerCtrl x v
  else if n = F.WLD_KICK.reg then s.worldKick x i v
  else if n = F.ASH_SEL.reg then s.ashSel x v
  else if n = F.ASH_MARK.reg then (s.set g F.ASH_MARK 0 (v % 2 ^ 40)).ashFill x s
  else if n = F.SIDE_CKPT.reg then s.ckptGo x v
  else if n = F.LIFE_TX_CTRL_GO.reg then s.lifeGo x v
  else if n = F.LIFE_RX_RELEASE.reg then s.lifeRelease x v
  else if n = F.NETIF_TX_KICK.reg then s.netifKick x v none none
  else if n = F.CAN_RXQ_ACK.reg then s.rxqAck x (i / 2) (i % 2) v
  else if n = F.CAN_TX_SET.reg then s.txSet x i v
  else if n = F.CAN_TX_CANCEL.reg then s.txCancel x i v
  else if n = F.CAN_SHADOW_CTRL_GO.reg then s.shadowCtrl x i v
  else if n = F.IN_DIN_EVT.reg then s.writeReg h r i (v &&& s.ownInputs x w F.IN_DIN_CFG_OWNER 16)
  else if n = F.IN_AIN_EVT.reg then s.writeReg h r i (v &&& s.ownInputs x w F.IN_AIN_CFG_OWNER 24)
  else s.writeReg h r i v

/-- A write of `size` bytes in the unit space. -/
def State.unitWrite (s : State) (x : Side) (o : Origin) (a off size v : Nat) : State :=
  match s.pageRefuses x o off with
  | some c => s.busError x o c size true a
  | none => match pageMem off with
    | some m =>
      if ¬ m.fits a size then s.busError x o 12 size true a
      else match m with
        | .canRam k => match s.ramRefuses x k (off % 0x10000 - 0x8000) with
          | some c => s.busError x o c size true a
          | none => s.storeLE x a size v
        | .lifeRx => s
        | _ => s.storeLE x a size v
    | none => match regCheck x a size with
      | .error c => s.busError x o c size true a
      | .ok (h, r, i) => s.regWrite x o a size v h r i

/-- A read of memory: ROM, SRAM, NOR flash or LPDDR5X. -/
def State.memLoad (s : State) (x : Side) (o : Origin) (a size : Nat) (k : AccKind) : State :=
  let p := placeOf a
  let whole : Bool := match rangeOf a with
    | some (_, hi) => decide (a + size ≤ hi)
    | none => false
  if ¬ (whole = true) ∨ (bridgeOf p).isSome = true then s.busError x o 13 size false a
  else if s.spanRefuses x o a size false then s.busError x o 15 size false a
  else if s.lockedHere x o a size then s.waitFor x o a size k 0
  else if inSram a size ∨ inDdr a size then s.memAccess x o a size k 0
  else { s with resp := .data (s.loadLE x a size) }

/-- A store into memory, or another access that writes it. -/
def State.memStore (s : State) (x : Side) (o : Origin) (a size : Nat) (k : AccKind) (v : Nat) : State :=
  if s.spanRefuses x o a size true then s.busError x o 15 size true a
  else if s.mirLockedRange x a size then s.busError x o 6 size true a
  else if s.lockedHere x o a size then s.waitFor x o a size k v
  else s.memAccess x o a size k v

/-- LR, SC and AMO (R25): on SRAM and LPDDR5X only, and aligned. -/
def State.atomicAccess (s : State) (x : Side) (o : Origin) (a size : Nat) (k : AccKind) (v : Nat) : State :=
  if ¬ (inSram a size || inDdr a size) then s.busError x o 20 size (accWrites k) a
  else if a % size ≠ 0 then s.accessFault x o (accWrites k) a
  else if accWrites k then
    if s.spanRefuses x o a size false then s.busError x o 15 size true a else s.memStore x o a size k v
  else s.memLoad x o a size k

/-- A local access of `size` bytes at physical address `a` of side `x`. -/
def State.localAccess (s : State) (x : Side) (o : Origin) (a size : Nat) (k : AccKind) (v : Nat) : State :=
  s.guarded x o a size (accWrites k) (fun s =>
    if accAtomic k then s.atomicAccess x o a size k v
    else match placeOf a with
      | .unit off => if accWrites k then s.unitWrite x o a off size v else s.unitRead x o a off size (accEcc k)
      | p =>
        if ¬ accWrites k then s.memLoad x o a size k
        else if p = .rom ∨ p = .nor then s.busError x o 14 size true a
        else if ¬ (inSram a size || inDdr a size) then s.busError x o 13 size true a
        else s.memStore x o a size k v)

/-- A local read; `e` is what the ECC of the memory finds. -/
def State.localRead (s : State) (x : Side) (o : Origin) (a size : Nat) (e : Ecc) : State := s.localAccess x o a size (.load e) 0

/-- A local write. -/
def State.localWrite (s : State) (x : Side) (o : Origin) (a size v : Nat) : State := s.localAccess x o a size .store v

/-! ## The near side of a bridge (R291, R292) -/

/-- A width at a unit page of the other side breaks R11, by the register or the storage that stands there. -/
def farWidth (x : Side) (off size : Nat) : Bool :=
  let a := 0x40000000 + off
  match pageMem off with
  | some m => !m.fits a size
  | none => match regCheck x.other a size with
    | .error 12 => true
    | _ => false

/-- What the near side refuses an access with: a width that breaks R11, a unit page that R35 excludes, a write to a grate die, an absent
far side. R19 has a CAN channel reached from its own side only, and R35 maps the CAN pages: that they can be accessed through the far unit
window is a DESIGN CHOICE (log entry 106). -/
def State.nearRefuses (s : State) (x : Side) (i a size : Nat) (write : Bool) : Option Nat :=
  let wrong : Bool := size < 4 || a % size != 0
  let width : Bool := match regCheck x.other a size with
    | .error 12 => true
    | _ => false
  match placeOf a with
  | .farSram => if wrong then some 12 else if ¬ s.farPresent x i then some 8 else none
  | .farUnit off =>
    if off / 0x10000 = 0x14 ∨ off / 0x10000 = 0x18 ∨ 0x19 < off / 0x10000 then some 13
    else if wrong ∨ farWidth x off size then some 12
    else if ¬ s.farPresent x i then some 8
    else none
  | .grate _ _ =>
    if wrong ∨ width then some 12 else if write then some 14 else if ¬ s.farPresent x i then some 8 else none
  | _ => if wrong ∨ width then some 12 else if ¬ s.farPresent x i then some 8 else none

/-- An access enters bridge instance `i`, where it is sent or waits for a reply slot (R48, R49), or ends on the near side. -/
def State.farAccess (s : State) (x : Side) (o : Origin) (i a size : Nat) (data : Option Nat) : State :=
  s.guarded x o a size data.isSome (fun s =>
    match s.nearRefuses x i a size data.isSome with
    | some c => s.busError x o c size data.isSome a
    | none => s.enter x i (s.txnOf x o a (size == 8) data (data.isSome && s.posted x i o)))

/-- An access of `size` bytes by `o` of side `x`, at whatever place the physical address has. LR, SC and AMO end at the near side of a
bridge (R292). -/
def State.busAccess (s : State) (x : Side) (o : Origin) (a size : Nat) (k : AccKind) (v : Nat) : State :=
  match bridgeOf (placeOf a) with
  | some i =>
    if accAtomic k then s.guarded x o a size (accWrites k) (fun s => s.busError x o 20 size (accWrites k) a)
    else s.farAccess x o i a size (if accWrites k then some v else none)
  | none => s.localAccess x o a size k v

/-- A core takes the external interrupt that its input raises once its access is done (R42, R433). -/
def State.thenIrq (s : State) (x : Side) (o : Origin) : State :=
  match coreOf o with
  | some h => s.irqTake x h
  | none => s

/-- The address is one of plain memory: ROM, SRAM, NOR flash or LPDDR5X. -/
def plainPlace (a : Nat) : Bool :=
  match placeOf a with
  | .rom => true
  | .sram => true
  | .nor => true
  | .ddr => true
  | _ => false

/-- A store of one part of an access that crosses a page. -/
def State.storePart (s : State) (x : Side) (o : Origin) (a n v : Nat) : State :=
  if ¬ (inSram a n || inDdr a n) then s.busError x o 14 n true a else s.memStore x o a n .store v

/-- The two parts of a misaligned access to memory that crosses into another page: `n` bytes at `p` and `m` bytes at `q`. A load takes both parts
or gives nothing; a store writes both or neither (R12, R25). -/
def State.twoParts (s : State) (x : Side) (o : Origin) (p n q m : Nat) (k : AccKind) (v : Nat) : State :=
  if ¬ s.pmpPasses x o q m (accWrites k) then s.accessFault x o (accWrites k) q
  else if accWrites k then
    let s1 := s.storePart x o p n (v % 2 ^ (8 * n))
    let s2 := s.storePart x o q m (v / 2 ^ (8 * n))
    match s1.resp, s2.resp with
    | .error _, _ => s1
    | _, .error _ => s2
    | _, _ => s1.storePart x o q m (v / 2 ^ (8 * n))
  else
    let s1 := s.memLoad x o p n k
    match s1.resp with
    | .data d =>
      let s2 := s1.memLoad x o q m (.load .clean)
      match s2.resp with
      | .data e => { s2 with resp := .data (d + e * 2 ^ (8 * n)) }
      | _ => s2
    | _ => s1

/-- A misaligned access that crosses into a page which lies elsewhere: `n` bytes at `p`, `m` bytes at `q`. Memory takes it in two parts; a register
window or a bridge refuses its width (R11, R25, R292). -/
def State.splitAccess (s : State) (x : Side) (o : Origin) (p n q m : Nat) (k : AccKind) (v : Nat) : State :=
  let write := accWrites k
  if accAtomic k ∨ ¬ plainPlace p then s.busAccess x o p (n + m) k v
  else s.guarded x o p n write (fun s => if ¬ plainPlace q then s.busError x o 12 (n + m) write q else s.twoParts x o p n q m k v)

/-- An access of `n` bytes at address `va` by application core `h`, through its translation; one that crosses a page translates both. `es` says
what the ECC finds at the page table entries read (R21, R25, R28). -/
def State.hartMem (s : State) (x : Side) (h : Fin 4) (va n : Nat) (k : AccKind) (v : Nat) (es : List Ecc) : State :=
  let write := accWrites k
  let n1 := 4096 - va % 4096
  let first := s.translate x h va write (es, [])
  let second := s.translate x h ((va + n1) % 2 ^ 64) write first.1
  match first.2 with
  | .error e => (({ s with resp := .idle }.walked x first.1).walkFails x h va e).stepEnd x h
  | .ok p =>
    if n ≤ n1 then (s.walked x first.1).busAccess x (.hart h) p n k v
    else match second.2 with
      | .error e => (({ s with resp := .idle }.walked x second.1).walkFails x h (va + n1) e).stepEnd x h
      | .ok q =>
        let s := s.walked x second.1
        if q = p + n1 then s.busAccess x (.hart h) p n k v else s.splitAccess x (.hart h) p n1 q (n - n1) k v

/-- A CSR access of a core (R421, R422). -/
def State.hartCsr (s : State) (x : Side) (o : Origin) (n : Nat) (data : Option Nat) : State :=
  match coreOf o with
  | some h =>
    if s.makes x o 0 4 data.isSome then (({ s with resp := .idle }.csrAccess x h n data).stepEnd x h).irqTake x h else s
  | none => s

/-- REGISTER_WRITE (R10 to R14, R20 to R26, R31): a write by an initiator of side `x` to a register or to memory, and the accesses that have
no row of their own: loads, a core's LR, SC and AMO, and its reads and writes of CSRs. An application core's address goes through its
translation (R21), a pair core's through the pair's (R26); `es` says what the ECC finds at the page table entries. An access by a hart
that owes a GATE.LAND is the instruction that takes NO_LAND (R431, R434). -/
def execRegisterWrite (x : Side) (o : Origin) (addr : Word64) (wd : Width) (k : AccKind) (v : Word64) (es : List Ecc) (s : State) : Out :=
  let n := widthBytes wd
  let a := addr.toNat
  let d := v.toNat % 2 ^ (8 * n)
  ok (if accAtomic k ∧ (n < 4 ∨ coreOf o = none) then s
  else match o with
    | .hart h =>
      if s.hartRuns x h ∧ (s.hart x h).landing.isSome then ((s.noLand x h).stepEnd x h).thenIrq x o
      else match k with
        | .csrRead => s.hartCsr x o (a % 4096) none
        | .csrWrite => s.hartCsr x o (a % 4096) (some v.toNat)
        | _ => if ¬ s.makes x o 0 n (accWrites k) then s else (s.hartMem x h a n k d es).thenIrq x o
    | .pair c => match k with
      | .csrRead => s.hartCsr x o (a % 4096) none
      | .csrWrite => s.hartCsr x o (a % 4096) (some v.toNat)
      | _ => match s.pairPhysical x c a with
        | some p => (s.busAccess x o p n k d).thenIrq x o
        | none => if s.makes x o a n (accWrites k) then ((s.busError x o 13 n (accWrites k) (a % 2 ^ 32)).stepDone x o).thenIrq x o else s
    | _ => match k with
      | .csrRead => s
      | .csrWrite => s
      | _ => s.busAccess x o (a % 2 ^ 40) n k d)

/-! ## The far side of a bridge (R293) -/

/-- The address on the far side of an address of the cross bridge's windows. -/
def crossAddr (a : Nat) : Nat := if a < 0x40000000 then farOfWindow a else a - 0x28000000

/-- A transaction of side `x` at the other side, which answers an uncorrectable error of its SRAM with FAR_ECC (R28, R293). -/
def State.crossExec (s : State) (x : Side) (t : Txn) (ecc : Ecc) : State :=
  let y := x.other
  let a := crossAddr t.addr
  let n := if t.wide then 8 else 4
  match t.data with
  | some v => s.localWrite y t.origin a n v
  | none => s.localRead y t.origin a n ecc

/-- A write to the Flue die (R34): the net token is judged as it arrives. -/
def State.flueExec (s : State) (x : Side) (t : Txn) (v : Nat) : State :=
  let n := if t.wide then 8 else 4
  let fail (s : State) (c : Nat) : State := { s.logFaultBoth 27 c t.init t.world n true t.addr with resp := .error c }
  if ¬ s.netHeld x then fail s 5
  else match regCheck x t.addr n with
    | .error _ => fail s 1
    | .ok (h, r, i) =>
      if h ≠ .flue then s
      else if r.num = F.FDB_CMD_CTRL_GO.reg then s.fdbCtrl v
      else if r.num = F.PORT_CTRL_WAKE.reg then s.portCtrl i v
      else s.writeReg .flue r i v

/-- A read of a register of the Flue die or of a grate die, by a unit that logs as producer `prod`. -/
def State.dieRead (s : State) (x : Side) (t : Txn) (prod : Nat) : State :=
  let n := if t.wide then 8 else 4
  match regCheck x t.addr n with
  | .error _ => { s.logFaultBoth prod 1 t.init t.world n false t.addr with resp := .error 1 }
  | .ok (h, r, i) => { s with resp := .data (s.regValue x t.world h r i) }

/-- What transaction `t` of instance `i` does at its far side: the answer stands in `resp`. -/
def State.farExec (s : State) (x : Side) (i : Nat) (t : Txn) (ecc : Ecc) : State :=
  let s := { s with resp := .idle }
  if i = 0 then s.crossExec x t ecc
  else match t.data with
    | some v => if i = 1 then s.flueExec x t v else s
    | none => s.dieRead x t (if i = 1 then 27 else 21 + i)

/-- The far side of instance `i` is there to serve a transaction. -/
def State.farAlive (s : State) (x : Side) (i : Nat) : Bool :=
  if i = 0 then s.fabric x.other && !(s.side x).crossLost
  else if i = 1 then s.present .flue && s.flue.powered
  else s.present (dieUnit (i - 2)) && (s.die (i - 2)).powered

/-- The order of R299, and the lines locked under R302, let the far side serve `t` now: earlier writes of its initiator are done, and a
transaction that has not been split has nothing held before it. -/
def State.servable (s : State) (x : Side) (i : Nat) (t : Txn) : Bool :=
  let before := (s.bridge x i).txns.takeWhile (fun u => u.tag != t.tag)
  let n := if t.wide then 8 else 4
  before.all (fun u => !(u.init == t.init && u.data.isSome)) && (t.split || before.all (fun u => u.split)) &&
    !(i == 0 && inFarSram t.addr n && (s.lineLocked x t.init t.addr || s.lineLocked x t.init (t.addr + n - 1)))

/-- A transaction is served and its answer reaches the near side. -/
def State.serve (s : State) (x : Side) (i : Nat) (t : Txn) (ecc : Ecc) : State :=
  let s := s.farExec x i t ecc
  let r := s.resp
  let s := { (s.retire x i t.tag).sweepLocks x with resp := r }
  match r with
  | .error c => s.txnFails x i t c
  | _ => s.dmaAnswer x t r

/-- A read named by its initiator goes through the near side's checks before it is issued; a tag stands for itself. -/
def State.refer (s : State) (x : Side) (i : Nat) : BridgeRef → Nat × State
  | .tag t => (t, s)
  | .read o a wide =>
    match s.physical x o a.toNat with
    | some p =>
      if bridgeOf (placeOf p) = some i then
        let s' := s.farAccess x o i p (if wide then 8 else 4) none
        (if (s.bridge x i).txns.length < (s'.bridge x i).txns.length then freeTag (s.bridge x i).txns else 16, s')
      else (16, s)
    | none => (16, s)

/-- An answer that arrives after its transaction has ended is discarded (R295, R307). -/
def State.lateAnswer (s : State) (x : Side) (i : Nat) : State :=
  let b := s.bridge x i
  if b.late = 0 then s
  else (s.setBridge x i { b with late := b.late - 1 }).inc (.side x) F.BRIDGE_LATE_DISCARD_COUNT i

/-- BRIDGE_ANSWER (R293, R294, R297): the far side serves a transaction and its answer crosses back. -/
def execBridgeAnswer (x : Side) (i : Fin 6) (ref : BridgeRef) (ecc : Ecc) (s : State) : Out :=
  let r := s.refer x i ref
  let s := r.2
  ok (match (s.bridge x i).txns.find? (fun t => t.tag == r.1) with
    | some t => if s.farAlive x i ∧ s.servable x i t then s.serve x i t ecc else s
    | none => match ref with
      | .tag _ => s.lateAnswer x i
      | .read _ _ _ => s)

/-- BRIDGE_SPLIT (R294): a transaction has waited HOLD at the far port and becomes a split transaction. It arrives there at the instant of its
issue, the transport being left out (log entry 98). -/
def execBridgeSplit (x : Side) (i : Fin 6) (ref : BridgeRef) (s : State) : Out :=
  let r := s.refer x i ref
  let s := r.2
  let b := s.bridge x i
  ok (match b.txns.find? (fun t => t.tag == r.1 && !t.split) with
    | some t =>
      let s := s.due (t.at_ + s.holdNs x i)
      let s := s.setBridge x i { b with txns := b.txns.map (fun u => if u.tag = t.tag then { u with split := true } else u) }
      s.inc (.side x) F.BRIDGE_SPLIT_COUNT i
    | none => s)

/-- A read of the far side's address `a` pops what it reads (R295, R296): its data are lost if the answer is. -/
def readsClear (x : Side) (a : Nat) : Bool :=
  match regIn x (placeOf a) with
  | some (_, r, _) => r.fields.any (fun f => f.acc == .rc)
  | none => false

/-- The far access of a transaction that ended without its answer took place: what it did stands, and a read that cleared what it read is
logged at the far side (R295, R296). -/
def State.lostEffect (s : State) (x : Side) (i : Nat) (t : Txn) : State :=
  let keep := s.resp
  let s := s.farExec x i t .clean
  let cleared : Bool := match s.resp with
    | .data _ => i == 0 && readsClear x.other (crossAddr t.addr)
    | _ => false
  { (if cleared then s.log x.other 0x600 15 [.wide (crossAddr t.addr)] else s) with resp := keep }

/-- Whether the far access took place is open: a free value decides (R295, R307). -/
def State.mayHaveDone (s : State) (x : Side) (i : Nat) (t : Txn) : State :=
  if s.freeVal 1 = 1 then s.took.lostEffect x i t else s.took

/-- BRIDGE_TIMEOUT (R295): no answer within TIMEOUT of the issue. -/
def execBridgeTimeout (x : Side) (i : Fin 6) (ref : BridgeRef) (s : State) : Out :=
  let r := s.refer x i ref
  let s := r.2
  ok (match (s.bridge x i).txns.find? (fun t => t.tag == r.1) with
    | some t =>
      let s := s.due (t.at_ + s.timeoutNs x i)
      let s := if s.farAlive x i ∧ s.servable x i t then s.mayHaveDone x i t else s
      let s := (s.retire x i t.tag).sweepLocks x
      let s := s.setBridge x i { s.bridge x i with late := (s.bridge x i).late + 1 }
      (s.inc (.side x) F.BRIDGE_TIMEOUT_COUNT i).txnFails x i t 10
    | none => s)

/-! ## The far side goes away and comes back (R306, R307) -/

/-- A transaction that never left the near queue ends as its far side goes: a posted write is discarded and reported, any other access ends as
one to an absent far side (R292, R307). -/
def State.nearEnds (s : State) (x : Side) (i : Nat) (t : Txn) : State :=
  (if t.posted then s.inc (.side x) F.BRIDGE_FAR_RESET_COUNT i else s).txnFails x i t 8

/-- The far side of instance `i` is marked ABSENT: every outstanding transaction ends with `cause` (9 FAR_RESET, 11 LINK_LOST), the near
queue is discarded, and locks and atomic operations end (R303, R307). Whether an outstanding access took effect is open. -/
def State.farAbsent (s : State) (x : Side) (i cause : Nat) : State :=
  if ¬ s.farPresent x i ∧ (s.bridge x i).txns = [] then s
  else
    let ts := (s.bridge x i).txns
    let near := (s.bridge x i).near
    let s := (s.set (.side x) F.BRIDGE_STATUS_FAR_PRESENT i 0).setBridge x i
      { s.bridge x i with txns := [], near := [], late := (s.bridge x i).late + ts.length, gone := true }
    let s := s.each ts (fun s t =>
      let s := if s.farAlive x i then s.mayHaveDone x i t else s
      (s.inc (.side x) F.BRIDGE_FAR_RESET_COUNT i).txnFails x i t cause)
    let s := s.each near (fun s t => s.nearEnds x i t)
    if i = 0 then (s.each (List.range 6) (fun s h => s.endLocked x h cause)).sweepLocks x else s

/-- The proxy responder of the far side: side `x` marks the other side ABSENT as that resets, and logs UNIT_RESET with the unit code of a
unit without one; no tagged message crosses to the other side, so none is answered (R56, R59, R101). -/
def State.farReset (s : State) (x : Side) : State :=
  if ¬ s.fabric x ∨ ¬ s.farPresent x 0 then s
  else
    let s := s.farAbsent x 0 9
    (s.setBridge x 0 { s.bridge x 0 with unit := true }).log x 0x004 0 [.nar 12 0, .nar 8 0]

/-- The far side of instance `i` is marked PRESENT; its return is logged (R307), and that of the other side from its reset as of a unit (R56). -/
def State.farBack (s : State) (x : Side) (i : Nat) : State :=
  if s.farPresent x i then s
  else
    let s := s.set (.side x) F.BRIDGE_STATUS_FAR_PRESENT i 1
    let b := s.bridge x i
    let s := s.setBridge x i { b with gone := false, unit := false }
    let s := if b.unit then s.log x 0x005 0 [.nar 12 0] else s
    if b.gone then s.log x 0x603 15 [] else s

/-- The lines that a poll samples: the events of the Flue die, or the software interrupts of the other side (R304). -/
def State.sampleLines (s : State) (x : Side) (i : Nat) : State :=
  if i = 1 then
    let e := match x with
      | .a => s.flue.evtLine
      | .b => s.flue.evtLineB
    let b := match x with
      | .a => s.flue.blwLine
      | .b => s.flue.blwLineB
    let s := { s with flue := (match x with
      | .a => { s.flue with evtLine := false, blwLine := false }
      | .b => { s.flue with evtLineB := false, blwLineB := false }) }
    let s := if e then s.intr x 94 else s
    if b then s.intr x 95 else s
  else if i = 0 then
    let y := x.other
    let v := (s.side y).swiOut
    (s.setSide y { s.side y with swiOut := 0 }).each (bits8 v) (fun s k => s.intr x (96 + k))
  else s

/-- BRIDGE_POLL (R304, R306): a poll symbol arrives with its far side's presence and lines, or is missed. -/
def execBridgePoll (x : Side) (i : Fin 6) (arrives : Bool) (s : State) : Out :=
  let h := Holder.side x
  ok (if ¬ s.fabric x then s
  else if arrives then
    let s := (s.set h F.BRIDGE_STATUS_LINK_UP i 1).setBridge x i { s.bridge x i with missed := 0 }
    if s.farAlive x i then (s.farBack x i).sampleLines x i else s.farAbsent x i 9
  else
    let n := (s.bridge x i).missed + 1
    let s := (s.set h F.BRIDGE_STATUS_LINK_UP i 0).setBridge x i { s.bridge x i with missed := n }
    if i = 0 ∧ 3 ≤ n then s.farAbsent x i 11 else s)

end Sys2Proof.Machine
end

