-- ==== Sys2Proof/Machine/Copy.lean ====
section
/-! DEFINITION. DMA transfers (chapter 02 R62, R73), the signal plane (R53, R54) and the ECC scrubber (01 R29). -/
namespace Sys2Proof.Machine
open Sys2Proof

/-! ## Accesses of a DMA channel -/

/-- An access of channel `n` is in a bridge: the channel waits for its answer (R297). -/
def State.dmaInBridge (s : State) (x : Side) (n : Nat) : Bool :=
  (List.range 6).any (fun i => ((s.bridge x i).txns ++ (s.bridge x i).near).any (fun t => t.chan == n + 1))

/-- A far access of a DMA channel that is served as it is issued. -/
def State.farOnce (s : State) (x : Side) (i : Nat) (t : Txn) (e : Ecc) : State :=
  let s := (s.inc (.side x) (if t.data.isSome then F.BRIDGE_WRITE_COUNT else F.BRIDGE_READ_COUNT) i).ownEvent x 0x31 t.init t.world (some t.addr)
  let s := s.farExec x i t e
  match s.resp with
  | .error c => s.farError x { t with chan := 0 } c
  | _ => s

/-- An access of channel `n` at any place, and whether it is over: one that must wait stays in its bridge, or is tried again later where its
line is locked (R48, R302). -/
def State.dmaAccess (s : State) (x : Side) (n a size : Nat) (data : Option Nat) (e : Ecc) : Bool × State :=
  let o := Origin.dma (Fin.ofNat 32 n)
  match bridgeOf (placeOf a) with
  | some i =>
    let t := s.txnOf x o a (size == 8) data false
    let once := s.hasSlot x i && s.farAlive x i && s.servable x i t
    let q := s.guarded x o a size data.isSome (fun s => match s.nearRefuses x i a size data.isSome with
      | some c => s.busError x o c size data.isSome a
      | none => if once then s.farOnce x i t e else s.enter x i t)
    (once || q.resp != .idle, q)
  | none =>
    if s.lockedHere x o a size then (false, s)
    else (true, match data with
      | some v => s.localWrite x o a size v
      | none => s.localRead x o a size e)

/-- Bytes of the register at an address, if one stands there. -/
def regBytes (x : Side) (a : Nat) : Option Nat := (regIn x (placeOf a)).map (fun q => if q.2.1.wide then 8 else 4)

/-- Bytes of the next access of a copy, never more than are left: 8 for a door, the width of a register, else 8 where both addresses are
aligned, or 4, or 1. The manual gives no size: DESIGN CHOICE (log entry 66). -/
def copySize (x : Side) (src dst left : Nat) : Nat :=
  let n := if isDoorCmd dst then 8
    else match regBytes x dst, regBytes x src with
      | some n, _ => n
      | none, some n => n
      | none, none => if src % 8 = 0 ∧ dst % 8 = 0 then 8 else if src % 4 = 0 ∧ dst % 4 = 0 then 4 else 1
  if n ≤ left then n else if n = 8 ∧ 4 ≤ left then 4 else 1

/-- A copy runs until BYTES are moved, an access fails or one must wait; the number bounds its accesses. -/
def State.dmaCopy (s : State) (x : Side) (n : Nat) (lost corr : Option Word40) : Nat → State
  | 0 => s
  | k + 1 =>
    let h := Holder.side x
    let left := s.get h F.DMA_LEN n
    if left = 0 then (s.set h F.DMA_STATUS_BUSY n 0).dmaDone x n
    else if s.dmaInBridge x n then s
    else
      let src := s.get h F.DMA_SRC n
      let dst := s.get h F.DMA_DST n
      let size := copySize x src dst left
      let held := Tab.at 0 (s.side x).dmaData n
      let q := if held = 0 then s.dmaAccess x n src size none (copyEcc lost corr src size)
        else s.dmaAccess x n dst size (some (held - 1)) .clean
      if ¬ q.1 then q.2
      else match q.2.resp with
        | .error c => q.2.dmaStop x n c
        | .data v =>
          (q.2.setSide x { q.2.side x with dmaData := Tab.put 0 (q.2.side x).dmaData n (v + 1) }).dmaCopy x n lost corr k
        | .idle => (q.2.dmaMoved x n size).dmaCopy x n lost corr k

/-- The writes of a stream that wait take place, until one must wait further or fails. -/
def State.dmaPump (s : State) (x : Side) (n : Nat) : Nat → State
  | 0 => s
  | k + 1 =>
    match Tab.at [] (s.side x).dmaQueue n with
    | [] => s
    | (size, v) :: _ =>
      if s.dmaInBridge x n then s
      else
        let q := s.dmaAccess x n (s.get (.side x) F.DMA_DST n + Tab.at 0 (s.side x).dmaPos n) size (some v) .clean
        if ¬ q.1 then q.2
        else match q.2.resp with
          | .error c => q.2.dmaStop x n c
          | _ => (q.2.dmaMoved x n size).dmaPump x n k

/-- DMA_COPY_DONE (R62, R73): the accesses of a copy take place, and it completes or stops on a failing access; a stream goes on with what
waits. `lost` and `corr` name a source word that the ECC finds uncorrectable, or corrects (R28). -/
def execDmaCopyDone (x : Side) (n : Fin 32) (lost corr : Option Word40) (s : State) : Out :=
  let h := Holder.side x
  ok (if s.is h F.DMA_STATUS_BUSY n ∧ s.present (.dma x) ∧ s.fabric x then
    let q := if s.get h F.DMA_CTRL_MODE n = 0 then s.dmaCopy x n lost corr (2 * s.get h F.DMA_LEN n + 2)
      else s.dmaPump x n (Tab.at [] (s.side x).dmaQueue n).length
    { q with resp := s.resp }
  else s)

/-! ## Streams -/

/-- The writes that put a slot into a ring of `len` bytes at position `pos`: whole where it fits, else byte by byte around the end. -/
def streamCuts (len pos v : Nat) : List (Nat × Nat) := if pos + 8 ≤ len then [(8, v)] else (leBytes 8 v).map (fun b => (1, b))

/-- Channel `n` takes a slot behind those that it still has to write. -/
def State.streamTake (s : State) (x : Side) (v n : Nat) : State :=
  let len := s.get (.side x) F.DMA_LEN n
  let q := Tab.at [] (s.side x).dmaQueue n
  let pos := (Tab.at 0 (s.side x).dmaPos n + q.foldl (fun k w => k + w.1) 0) % len
  let ws := streamCuts len pos v
  (s.setSide x { s.side x with dmaQueue := Tab.put [] (s.side x).dmaQueue n (q ++ ws) }).dmaPump x n (q ++ ws).length

/-- The streams that take the words of a producer. -/
def State.streamsOf (s : State) (x : Side) (prod : Nat) : List Nat :=
  let h := Holder.side x
  if ¬ s.present (.dma x) then []
  else (List.range 32).filter (fun n =>
    s.is h F.DMA_STATUS_BUSY n && s.get h F.DMA_CTRL_MODE n == 1 && (s.get h F.DMA_SRC n).testBit prod)

/-- A word into a list in the order of the collector: by cycle, then by producer (R53). -/
def insertWord (w : PlaneWord) : List PlaneWord → List PlaneWord
  | [] => [w]
  | v :: l => if ashBefore w.cycle w.prod v.cycle v.prod then w :: v :: l else v :: insertWord w l

/-- The words that the plane of side `x` drains up to the end of the oldest post of producer `p`, in its order, if a post is there. -/
def State.planeUpTo (s : State) (x : Side) (p : Nat) : Option (PlaneWord × List PlaneWord) :=
  match (s.side x).plane.find? (fun w => w.prod == p && w.last) with
  | some e =>
    some (e, ((s.side x).plane.filter (fun w => !ashBefore e.cycle e.prod w.cycle w.prod)).foldl (fun l w => insertWord w l) [])
  | none => none

/-- A word leaves the signal plane into the streams that select its producer; with the last word of a die's post its run of gaps ends (R54). -/
def State.planeDrain (s : State) (x : Side) (w : PlaneWord) : State :=
  let s := s.setSide x { s.side x with plane := (s.side x).plane.filter (fun v => v != w) }
  let s := if w.last ∧ w.prod < 4 then s.setSide x { s.side x with gapRun := Machine.clearBit (s.side x).gapRun w.prod } else s
  s.each (s.streamsOf x w.prod) (fun s n => s.streamTake x w.slot n)

/-- MEASUREMENT_ARRIVAL (R48, R52, R53, R62): the oldest post of a producer (0 to 3 a grate die, 4 the inputs) is complete at the signal plane, which
has drained every word up to its last in collector order. A stream whose writes wait keeps its words: the plane waits for no other class (R51). -/
def execMeasurementArrival (x : Side) (prod : Fin 5) (s : State) : Out :=
  ok (if s.up x then
    match s.planeUpTo x prod with
    | some (e, ws) =>
      let t := (s.due (2 * e.cycle)).each ws (fun s w => s.planeDrain x w)
      { t.each (List.range 5) (fun s p => s.planeSend x p 96) with resp := s.resp }
    | none => s
  else s)

/-- A missed tick is not in the open windows of side `x` on the channels of die `d` (R195). -/
def State.windowGap (s : State) (x : Side) (d tick : Nat) : State :=
  s.each (List.range 16) (fun s n =>
    let v := s.chan (16 * d + n)
    s.setChan (16 * d + n) { v with measures := v.measures.map (fun m =>
      if m.job.side = x then { m with taken := m.taken.filter (fun t => t.1 != tick) } else m) })

/-- SAMPLE_GAP (R54): the post of a die for a sample tick is not complete 5 us after the tick. -/
def execSampleGap (x : Side) (d : Fin 4) (tick : Word40) (s : State) : Out :=
  ok (if ¬ s.up x then s
  else
    let h := Holder.side x
    let s := ((s.setBit h F.FAB_GAP 0 d).inc h F.FAB_GAP_COUNT d).windowGap x d tick.toNat
    if (s.side x).gapRun.testBit d then s
    else
      let s := s.setSide x { s.side x with gapRun := Machine.setBit (s.side x).gapRun d }
      s.log x 0x003 0 [.nar 8 d, .wide tick.toNat])

/-! ## The scrubber -/

/-- ECC_SCRUB (R29): the scrubber of a side has read the whole of its LPDDR5X; it corrected this many words, and found these
uncorrectable. -/
def execEccScrub (x : Side) (corr : Word40) (bad : List Word40) (s : State) : Out :=
  ok (if ¬ s.fabric x then s
  else (s.add (.side x) F.TALLY_ECC_SCRUB_CORR 0 corr.toNat).each bad (fun s a => s.eccSeen x a.toNat .lost))

end Sys2Proof.Machine
end

