-- ==== Sys2Proof/Machine/Inputs.lean ====
section
/-! DEFINITION. The digital and analogue inputs of a side (chapter 17 R488, R499 to R501). -/
namespace Sys2Proof.Machine
open Sys2Proof

/-- Volts as a signed Q20.20 number. -/
def voltsQ (n : Int) : Int := n * 1048576

/-- The calibration in use on side `x` for item `t`, as its last commit put it in use (R134); gain 1.0 and offset 0.0 without a valid copy
(R135). -/
def State.sideCal (s : State) (x : Side) (t : Nat) (idle : Int) : Int :=
  if (s.side x).calIdle then idle else sigInt (s.calWord x t)

/-- Analogue input `k` of side `x` as it reads for a pin voltage (R500): calibrated, held within the span of its RANGE. -/
def State.ainValue (s : State) (x : Side) (k : Nat) (v : Int) : Int :=
  let n := 24 * x.num + k
  let top := if s.get (.side x) F.IN_AIN_CFG_RANGE k = 0 then voltsQ 11 / 2 else voltsQ 36
  clampInt 0 top (v * s.sideCal x (0x140 + n) q20 / 1048576 + s.sideCal x (0x180 + n) 0)

/-- State of input `k` at value `v`: 0 between, 1 below LO, 2 above HI; an LO above HI acts as HI (R501). -/
def State.ainBand (s : State) (x : Side) (k : Nat) (v : Int) : Nat :=
  let hi := sigInt (s.get (.side x) F.IN_AIN_HI k)
  let lo := min hi (sigInt (s.get (.side x) F.IN_AIN_LO k))
  if hi < v then 2 else if v < lo then 1 else 0

/-- One analogue input at a sample tick (R500, R501). -/
def State.ainOne (s : State) (x : Side) (k : Nat) (v : Int) : State :=
  let v := s.ainValue x k v
  let b := s.ainBand x k v
  let old := Tab.at 0 (s.side x).ainState k
  let s := s.set (.side x) F.IN_AIN k (sigWord v)
  let s := s.setSide x { s.side x with ainState := Tab.put 0 (s.side x).ainState k b }
  if b = old then s
  else
    let s := s.setBit (.side x) F.IN_AIN_EVT 0 k
    if s.is (.side x) F.IN_AIN_CFG_IRQ_EN k then s.intr x 82 else s

/-- AIN_SAMPLE (R500): the voltages at the 24 pins at a sample tick; the INPUTS unit posts 25 words. A voltage at or beyond the ratings of R488
has no behaviour. -/
def execAinSample (x : Side) (codes : List Word40) (s : State) : Out :=
  if codes.any (fun v => decide (sigInt v.toNat ≤ voltsQ (-32) ∨ voltsQ 58 ≤ sigInt v.toNat)) then .fault .outsideRatings
  else if ¬ s.fabric x then ok s
  else
    let s := s.each ((List.range 24).zip codes) (fun s p => s.ainOne x p.1 (sigInt p.2.toNat))
    let tick := ((s.side x).ainTick + 1) % 2 ^ 40
    let words := (List.range 24).map (fun k => s.get (.side x) F.IN_AIN k) ++ [s.get (.side x) F.IN_DIN_STATE 0]
    ok ((s.setSide x { s.side x with ainTick := tick }).planePost x 4 tick words)

/-- DIN_EDGE (R499, R501, R234): the filtered level of DIN n changes, which is a source event of the side's matcher too. -/
def execDinEdge (x : Side) (n : Fin 16) (level : Bool) (s : State) : Out :=
  ok (if ¬ s.fabric x ∨ (s.get (.side x) F.IN_DIN_STATE 0).testBit n = level then s
  else
    let s := if level then s.setBit (.side x) F.IN_DIN_STATE 0 n else s.clearBit (.side x) F.IN_DIN_STATE 0 n
    let s := s.sparkPin x n level
    if (s.get (.side x) F.IN_DIN_CFG_IRQ_EDGE n).testBit (if level then 0 else 1) then (s.setBit (.side x) F.IN_DIN_EVT 0 n).intr x 81
    else s)

end Sys2Proof.Machine
end

