-- ==== Sys2Proof/Machine/Units.lean ====
section
/-! DEFINITION. Units that go away and come back (chapter 02 R56 to R59): the proxy responder, the reset of a grate die (R166), of the Flue die
(R359), of a CAN channel (R393), of the DMA engine and of the LIFE unit, their return (R131), and the loss of the cross link as a bridge
sees it (R274, R307). -/
namespace Sys2Proof.Machine
open Sys2Proof

/-- The register fields of holder `h` back at their reset values, but for those that `keep` names. -/
def State.dropRegs (s : State) (h : Holder) (keep : FKey → Bool) : State :=
  { s with regs := s.regs.filter (fun p => p.1.hold != h.code || keep p.1) }

/-- The bytes of side `x` from `a` to below `b` as if never written. -/
def State.wipe (s : State) (x : Side) (a b : Nat) : State :=
  { s with mem := s.mem.filter (fun e => !decide (memKey x a ≤ e.1 ∧ e.1 < memKey x a + (b - a))) }

/-- The sides at which unit `u` has a boundary. -/
def unitSides : UnitId → List Side
  | .can x _ => [x]
  | .dma x => [x]
  | .life x => [x]
  | _ => [.a, .b]

/-! ## The proxy responder -/

/-- The packets inside grate die `d` or on their way to or from it (R56, R57): on the links, answered but not yet across, held, in a group or in
a measurement window. -/
def State.dieJobs (s : State) (d : Nat) : List Job :=
  let link (x : Side) : List Job := Tab.at [] (s.side x).links d ++ (Tab.at [] (s.side x).rpls d ++ Tab.at [] (s.die d).out x.num).map (fun r => r.job)
  let inside (c : Nat) : List Job :=
    (match (s.chan c).hold.bind (fun h => h.job) with
      | some j => [j]
      | none => []) ++ (s.chan c).measures.map (fun m => m.job)
  (link .a ++ link .b ++ (s.die d).groups.map (fun g => g.job) ++ (chansOf d).flatMap inside).eraseDups

/-- A harness burn that runs on grate die `d` for side `x` (R82). -/
def State.burnJob (s : State) (x : Side) (d : Nat) : List Job :=
  match (s.side x).longQ, (s.side x).longReply with
  | j :: _, some _ => if j.pkt.code = 0x305 ∧ j.pkt.target / 16 = d then [j] else []
  | _, _ => []

/-- A claim of grate die `d`'s token alone (R269). -/
def claimOfDie (d : Nat) (q : Job × Nat) : Bool := q.1.pkt.code == 0xB02 && q.1.pkt.target == d

/-- The requests of side `x` that unit `u` has not answered. -/
def State.unitJobs (s : State) (x : Side) (u : UnitId) : List Job :=
  match u with
  | .grate d => (s.dieJobs d).filter (fun j => j.side = x) ++ s.burnJob x d ++ ((s.side x).claimReqs.filter (claimOfDie d)).map (fun q => q.1)
  | .flue => ((s.side x).claimReqs.filter (fun q => q.1.pkt.code == 0x601)).map (fun q => q.1)
  | _ => []

/-- Those requests leave the unit. -/
def State.unitClear (s : State) (x : Side) (u : UnitId) : State :=
  let v := s.side x
  match u with
  | .grate d =>
    let burn := s.burnJob x d
    s.setSide x { v with links := Tab.put [] v.links d [], rpls := Tab.put [] v.rpls d []
                         claimReqs := v.claimReqs.filter (fun q => !claimOfDie d q)
                         longQ := if burn = [] then v.longQ else v.longQ.drop 1
                         longReply := if burn = [] then v.longReply else none
                         longAt := if burn = [] then v.longAt else s.now }
  | .flue => s.setSide x { v with claimReqs := v.claimReqs.filter (fun q => q.1.pkt.code != 0x601) }
  | _ => s

/-- The proxy responder of side `x` answers every outstanding request to unit `u` with TARGET_RESET, and logs UNIT_RESET with their number
(R56, R59). -/
def State.proxyReset (s : State) (x : Side) (u : UnitId) : State :=
  if ¬ s.fabric x then s
  else
    let js := s.unitJobs x u
    let s := (s.unitClear x u).each js (fun s j => s.answer j stReset (unitCode u) [])
    (s.add (.side x) F.FAB_PROXY_RESET 0 js.length).log x 0x004 0 [.nar 12 (unitCode u), .nar 8 js.length]

/-! ## What a reset does to a unit -/

/-- Registers of a die that its reset leaves: the wire model and the harness flags (R166, R211), the tick index, and the token with the counters
that run from power-up (R260). -/
def dieKept : List Nat :=
  [F.WIRE_THETA.reg, F.WIRE_STATUS_TRIPPED.reg, F.HRN_STATUS_BAD.reg, F.MEAS_DIE_TICK.reg,
   F.GRATE_TOKEN_STATE.reg, F.GRATE_HB_AGE_A.reg, F.GRATE_HB_AGE_B.reg, F.GRATE_TOKEN_CHANGE_COUNT.reg, F.GRATE_LAPSE_COUNT.reg,
   F.GRATE_LATE_APPLIED_COUNT.reg, F.GRATE_LATE_REFUSED_COUNT.reg, F.GRATE_LAST_CHANGE_S.reg, F.GRATE_LAST_CHANGE_NS.reg]

/-- A channel after a reset of its die (R166): both harness slots and the record of turn-ons stay, and the fault of a latched channel. -/
def Chan.reset (v : Chan) (latched : Bool) (now : Nat) : Chan :=
  { Chan.init with otp0 := v.otp0, otp1 := v.otp1, turnOns := v.turnOns, faultReg := if latched then v.faultReg else 0,
                   offSince := now, quietSince := now }

/-- Grate die `d` resets: every channel turns off, a LATCHED one keeps its state, its FAULT and its CH_DIAG (R166). The
other dies go on with its last C0 and its whole last allowance (R216). -/
def State.dieReset (s : State) (d : Nat) : State :=
  let latched (n : Nat) : Bool := s.chState (16 * d + n) == 7
  let keep (k : FKey) : Bool := dieKept.contains k.reg || k.isCfg ||
    (latched k.idx && (k.reg == F.CH_DIAG.reg || (k.reg == F.CH_STATE_STATE.reg && k.lo == F.CH_STATE_STATE.lo)))
  let s := (List.range 16).foldl (fun (q : State) n =>
    q.setChan (16 * d + n) ((q.chan (16 * d + n)).reset (latched n) q.now)) s
  let s := s.dropRegs (.grate d) keep
  let s := s.each [Side.a, .b] (fun s x => s.setSide x { s.side x with planeWait := Tab.put [] (s.side x).planeWait d [] })
  let v := s.die d
  s.setDie d { DieSt.init with
    powered := v.powered, present := false, sentC0 := v.sentC0, known := v.known, hbA := v.hbA, hbB := v.hbB, windowEnd := v.windowEnd, oldHolder := v.oldHolder, claimAt := v.claimAt
    orderly := v.orderly, masterNew := v.masterNew, committed := v.committed, pwmBase := s.now, cal := v.cal, feedGone := v.feedGone }

/-- With the last running die the Damper's view of the module is gone (R216). -/
def State.damperGone (s : State) : State :=
  if (List.range 4).any (fun d => (s.die d).powered && s.present (dieUnit d)) then s else { s with damper := DamperSt.init }

/-- The Flue die resets (R359): frames, database, SAs, mirror sessions, histories, meters, credits and counters are lost, and with them its spark
rules (R251), but not the actions already on their lines (R58, R245); its followers lose the time link. -/
def State.flueReset (s : State) : State :=
  let keep (k : FKey) : Bool := k.isCfg ||
    (k.reg == F.BYP_STATUS_FORCED.reg && [F.BYP_STATUS_FORCED.lo, F.BYP_STATUS_CLOSED.lo, F.BYP_STATUS_ISOLATION_ON.lo].contains k.lo)
  let f := s.flue
  let s := { s with flue := { FlueSt.init with
    powered := f.powered, refPresent := f.refPresent, extRef := f.extRef, miss := f.miss, dom0 := Domain.init s.now,
    dom1 := Domain.init s.now, spark := f.spark.afterReset } }
  let s := (s.dropRegs .flue keep).dropRegs .flueTally (fun _ => false)
  (s.linkLost .a).linkLost .b

/-- The DMA engine of side `x` resets, its frame interface with it. What it has sent completes, and what it is answered is discarded (R58). -/
def State.dmaReset (s : State) (x : Side) : State :=
  let s := s.each (List.range 32) (fun s n => s.dmaHalt x n)
  let own (n : Nat) : Bool := decide (F.DMA_SRC.reg ≤ n ∧ n ≤ F.DMA_STATUS_BUSY.reg) || decide (F.NETIF_CFG_WORLD.reg ≤ n ∧ n ≤ F.NETIF_ERR.reg)
  (s.dropRegs (.side x) (fun k => !own k.reg || k.isCfg)).setSide x { s.side x with dmaPos := [], dmaData := [], dmaQueue := [] }

/-- The LIFE unit of side `x` resets: its queues, its buffers and its registers (R323 to R325), but not what the side
senses of the bypass (R315). -/
def State.lifeReset (s : State) (x : Side) : State :=
  let s := s.dropRegs (.side x) (fun k => !decide (F.LIFE_STATUS_LINK.reg ≤ k.reg ∧ k.reg ≤ F.HVIL_CHANGE_COUNT.reg) || k.isCfg ||
    (k.reg == F.LIFE_STATUS_BYP_SENSE.reg && k.lo == F.LIFE_STATUS_BYP_SENSE.lo))
  let s := s.setSide x { s.side x with lifeRx := [], lifeNext := 0, lifeTx := [], lifeGuard := (0, 0), hvil := [], hvilFrom := s.now }
  s.wipe x (lifeAddr 0x1000) (lifeAddr 0x10000)

/-- Instance of the bridge that leads to unit `u` (R291). -/
def unitBridge : UnitId → Option Nat
  | .grate d => some (2 + d)
  | .flue => some 1
  | _ => none

/-- Unit `u` goes away: its boundaries mark it ABSENT, the proxy responders and the bridges end what is outstanding, and it resets (R56). -/
def State.goAbsent (s : State) (u : UnitId) : State :=
  if ¬ s.present u then s
  else
    let s := match unitBridge u with
      | some i => (s.farAbsent .a i 9).farAbsent .b i 9
      | none => s
    let s := { s with absent := u :: s.absent }
    let s := s.each (unitSides u) (fun s x => s.proxyReset x u)
    match u with
    | .grate d => (s.dieReset d).damperGone
    | .flue => s.flueReset
    | .can x k => s.canReset x k
    | .dma x => s.dmaReset x
    | .life x => s.lifeReset x

/-- UNIT_ABSENT (R56): a unit enters reset, update or power-down. -/
def execUnitAbsent (u : UnitId) (s : State) : Out := ok (s.goAbsent u)

/-! ## The return of a unit -/

/-- The side whose merged configuration token `t`'s die receives: its holder, once that has committed (R131). -/
def State.unitMaster (s : State) (t : Nat) : Option Side :=
  if s.tokHolder t ≤ 1 ∧ s.up (sideOf (s.tokHolder t)) ∧ (s.side (sideOf (s.tokHolder t))).firstCommit then some (sideOf (s.tokHolder t))
  else none

/-- The merged configuration in force on side `x` (R114, R128). -/
def State.mergedNow (s : State) (x : Side) : List (Holder × Fld × Nat × Nat) :=
  mergedAll x ((s.side x).inForce ++ fixedRecs) (s.get (.side x) F.CFG_MODE_ACTIVE 0)

/-- Grate die `d` receives its whole configuration (R131). -/
def State.dieBack (s : State) (d : Nat) : State :=
  let s := match s.unitMaster d with
    | some x =>
      let raw := s.putConfig (.grate d) (s.mergedNow x)
      ((raw.clampBounds d).logClamps x d raw).dieMoved x d (s.get (.side x) F.CFG_MODE_ACTIVE 0)
    | none => s
  s.each (chansOf d) (fun s c => s.limitEff c)

/-- Two values of the Flue die's entropy source: the seeds of the database, unless fixed, and that of the WRED generator (R336, R346). -/
def State.flueSeeds (s : State) : State :=
  let fixed := !s.is .flue F.FDB_CFG_SEED_POLICY 0
  let a := s.freeVal 32
  let b := s.took.freeVal 32
  let s := s.took.took
  let l := s.freeVal 32
  let s := s.took
  { s with flue := { s.flue with seed0 := if fixed then s.get .flue F.FDB_SEED0_FIX 0 else a,
                                 seed1 := if fixed then s.get .flue F.FDB_SEED1_FIX 0 else b, lfsr := l } }

/-- The wake-up pulses of EMBER_TC10.FWD, once after a wake (R151). -/
def State.tc10Forward (s : State) : State :=
  if s.ember.fwd then
    let fwd := s.get .ember F.EMBER_TC10_FWD 0
    let s := { s with ember := { s.ember with fwd := false } }
    { s with flue := { s.flue with pulses := s.flue.pulses ||| fwd * 4 } }
  else s

/-- The buffered output of side `x`'s crystal oscillator runs: its group is good and its crystal did not fail (R18, R145). -/
def State.oscRuns (s : State) (x : Side) : Bool :=
  (match x with
    | .a => s.ember.ga
    | .b => s.ember.gb).good && !(s.side x).limp

/-- The Flue die leaves reset on its reference, with its configuration and its seeds (R131, R143 step 4, R336, R502). -/
def State.flueBack (s : State) : State :=
  let ext := s.ember.straps.testBit 1
  let osc := if ext then none else if s.oscRuns .a then some Side.a else some Side.b
  let s := { s with flue := { s.flue with reset_ := false, miss := false, extRef := ext, osc := osc } }
  let s := s.each [Side.a, .b] (fun s x => s.set (.side x) F.PINS_STRAP_FLUE_REF_EXT 0 (b2n ext))
  let s := match s.unitMaster 4 with
    | some x => (s.putConfig .flue (s.mergedNow x)).flueMoved x s
    | none => s
  let s := ((s.flueSeeds).set .ember F.EMBER_STATE_FLUE_NOREF 0 0).tc10Forward
  s.set .flue F.SPK_STATUS_READY 0 1

/-- Unit `u` can announce readiness: it is ABSENT and has its power, and the Flue die its reference. -/
def State.canReturn (s : State) (u : UnitId) : Bool :=
  !s.present u && (match u with
    | .grate d => (s.die d).powered
    | .flue => s.flue.powered && s.flue.refPresent
    | .can x _ => s.fabric x
    | .dma x => s.fabric x
    | .life x => s.fabric x)

/-- The tally producer that unit `u` is (R465). -/
def unitProducer : UnitId → Option Nat
  | .grate d => some d
  | .flue => some 4
  | .can _ k => some (5 + k)
  | _ => none

/-- Unit `u` is PRESENT at its boundaries again; each side logs UNIT_READY, and its next tally record covers the time since (R56, R465). -/
def State.markPresent (s : State) (u : UnitId) : State :=
  let s := { s with absent := s.absent.filter (fun v => v != u) }
  s.each ((unitSides u).filter s.fabric) (fun s x =>
    let s := match unitBridge u with
      | some i => s.farBack x i
      | none => s
    let s := match unitProducer u with
      | some p => s.setSide x { s.side x with tallyMissed := Tab.put 0 (s.side x).tallyMissed p 0 }
      | none => s
    s.log x 0x005 0 [.nar 12 (unitCode u)])

/-- UNIT_READY (R56): a unit announces readiness. -/
def execUnitReady (u : UnitId) (s : State) : Out :=
  ok (if s.canReturn u then
    let s := match u with
      | .grate d => s.dieBack d
      | .flue => s.flueBack
      | _ => s
    let s := s.markPresent u
    match u with
    | .can x k => if (s.side x).firstCommit then s.canMoved x k s else s
    | _ => s
  else s)

/-! ## The Flue die's reference and keep-alive -/

/-- FLUE_REF_CHECK (R146): the Flue die, held in reset, looks for the reference that FLUE_REF_EXT, at the level `ext`, selects (R18, R502). -/
def execFlueRefCheck (present ext : Bool) (s : State) : Out :=
  ok (if ¬ s.flue.powered ∨ s.present .flue then s
  else
  let s := s.setStrap 1 ext
  if present then { s with flue := { s.flue with refPresent := true } }
  else
    let s := { s with flue := { s.flue with refPresent := false } }
    if s.is .ember F.EMBER_STATE_FLUE_NOREF 0 then s
    else
      let s := s.set .ember F.EMBER_STATE_FLUE_NOREF 0 1
      let s := s.wrecNote 11 11 1
      s.each ([Side.a, .b].filter s.fabric) (fun s x => s.log x 0x302 1 []))

/-- FLUE_REF_LOSS (R18, R505): the reference that the Flue die took when it left reset, the external one or a side's oscillator, is missing for
more than 1 us while it runs. -/
def execFlueRefLoss (s : State) : Out :=
  ok (if s.flueRuns then
    ({ s with flue := { s.flue with refPresent := false } }).goAbsent .flue
  else s)

/-- KEEPALIVE_MISS (R314): the driver has missed three refreshes; the bypass closes and the Flue die resets. -/
def execKeepaliveMiss (s : State) : Out :=
  ok (if s.flueRuns then
    (({ s with flue := { s.flue with miss := true } }).closeBypass).goAbsent .flue
  else s)

/-! ## The cross link -/

/-- CROSS_LOST (R274): no pulse within LOSS while the peer's heartbeats live; mirroring stops in both directions. -/
def execCrossLost (x : Side) (s : State) : Out :=
  let s' := s.due (s.pulsesGoneAt x)
  ok (if s.up x ∧ s'.beatsSome x.other x ∧ ¬ (s.side x).crossLost then
    let s := (s'.farAbsent x 0 11).set (.side x) F.SIDE_STATUS_CROSS_UP 0 0
    let s := ((s.log x 0x506 18 []).inc (.side x) F.SIDE_CROSS_LOST_COUNT 0).sideEvt x F.SIDE_EVT_CROSS_LOST
    (s.setSide x { s.side x with crossLost := true, peerLost := false }).mirrorStop x
  else s)

/-- CROSS_RESTORED (R274): pulses return; the next checkpoint is a full copy, and the mask of the side that holds the token of G0 is
adopted (R132). -/
def execCrossRestored (x : Side) (s : State) : Out :=
  ok (if s.up x ∧ (s.side x).crossLost then
    let s := s.setSide x { s.side x with crossLost := false, ckptFull := true, peerAt := some s.now, peerOk := true }
    let s := ((s.farBack x 0).set (.side x) F.SIDE_STATUS_CROSS_UP 0 1).showMirror x
    let s := (s.log x 0x507 18 []).sideEvt x F.SIDE_EVT_CROSS_RESTORED
    if s.holds x.other 0 then
      s.setSide x { s.side x with modeNext := some ⟨s.get (.side x.other) F.CFG_MODE_CMD 0, none⟩ }
    else s
  else s)

end Sys2Proof.Machine
end

