-- ==== Sys2Proof/Machine/Power.lean ====
section
/-! DEFINITION. Power and boot (chapter 05 R138 to R151; 15 R443, R444; 17 R502, R503): the reset of a side, the regulator groups, the wake
sources and the wake sequence up to Lit. -/
namespace Sys2Proof.Machine
open Sys2Proof

/-! ## The reset of a side (R58, R141, R308) -/

/-- The bit of the EMBER_STATE register that shows side `x` up. -/
def sideUpFld : Side → Fld
  | .a => F.EMBER_STATE_SIDE_A_UP
  | .b => F.EMBER_STATE_SIDE_B_UP

/-- The bit of the EMBER_STATE register that shows side `x` in limp clock. -/
def limpFld : Side → Fld
  | .a => F.EMBER_STATE_LIMP_A
  | .b => F.EMBER_STATE_LIMP_B

/-- What side `x` has sent over its bridges completes at the far side (R308); the answers are discarded. -/
def State.sentCompletes (s : State) (x : Side) : State :=
  let keep := s.resp
  let s := s.each (List.range 6) (fun s i =>
    if s.farAlive x i then s.each (s.bridge x i).txns (fun s t => s.farExec x i t .clean) else s)
  { s with resp := keep }

/-- The return policy, command state of both sides that only a wake takes back (R279). -/
def isPolicy (k : FKey) : Bool :=
  k.reg == F.SIDE_RETURN_HOLDOFF.reg || (k.reg == F.SIDE_STATUS_RETURN_HOME.reg && k.lo == F.SIDE_STATUS_RETURN_HOME.lo)

/-- Registers of a side that its reset leaves: the return policy, the one-time-programmable key slots and what they show (R446, R447), and the level of the
pin STOKE_x_CS_N (R112). -/
def sideKept (k : FKey) : Bool :=
  (k.reg == F.KEYS_SLOT_VALID.reg && decide (k.idx < 40)) || k.reg == F.KEYS_STATUS_OWNED.reg || isPolicy k ||
    (k.reg == F.STOKE_STATUS_ACTIVE.reg && k.lo == F.STOKE_STATUS_ACTIVE.lo)

/-- What stays of a side through its reset: NOR content and one-time-programmable memory, and the grate links and spark lines, where the packets
and actions that it has sent still run (R58, R245). -/
def SideSt.afterReset (v : SideSt) (run : Run) (limp : Bool) : SideSt :=
  { SideSt.init with
    run := run, limp := limp, takes := v.takes, bootTakes := v.takes, links := v.links, rpls := v.rpls
    spark := v.spark.afterReset, calCrcOk := v.calCrcOk, flushArea := v.flushArea
    relock := v.relock, limpRate := v.limpRate, wrecNext := v.wrecNext, keyMat := v.keyMat.filter (fun e => decide (e.1 < 40)) }

/-- Side `x` resets or loses its rail: its locks go and what it has sent completes, the other side sees its far side go, memory but the NOR
flash is as at power-on, and its units are ABSENT (R58, R303, R308). A debug unlock ends, to be logged when the side is back (R453). -/
def State.sideReset (s : State) (x : Side) (run : Run) (limp : Bool) : State :=
  let s := (s.ckptTear x).setSide x { (s.ckptTear x).side x with locks := [], lockQ := [] }
  let s := s.setSide x { s.side x with relock := (s.side x).relock || s.is (.side x) F.POKER_STATUS_UNLOCKED 0 }
  let s := ((s.sentCompletes x).farReset x.other).unlocked x.other
  let s := s.dropRegs (.side x) sideKept
  let s := s.setSide x ((s.side x).afterReset run limp)
  let s := (s.wipe x 0 0x80000000).wipe x 0x88000000 (2 ^ 40)
  let units := allUnits.filter (fun u => unitSides u == [x])
  let s := { s with absent := units.filter s.present ++ s.absent }
  (s.set .ember (sideUpFld x) 0 0).set .ember (limpFld x) 0 (b2n limp)

/-! ## Dies without power -/

/-- The grate dies and the Flue die lose their power: nothing but their one-time-programmable memory stays (R166, R202, R359). -/
def State.diesOff (s : State) : State :=
  let s := s.each (List.range 64) (fun s c => s.setChan c { Chan.init with otp0 := (s.chan c).otp0, otp1 := (s.chan c).otp1 })
  let s := s.each (List.range 5) (fun s d => (s.dropRegs (.grate d) (fun _ => false)).setDie d DieSt.init)
  let s := (s.dropRegs .flue (fun _ => false)).dropRegs .flueTally (fun _ => false)
  { s with flue := FlueSt.init, damper := DamperSt.init, absent := allUnits }

/-- Every group is switched off (R138): the sides and the dies are without power, every output is off and the bypass closed. -/
def State.allOff (s : State) : State :=
  let s := ((s.sideReset .a .down false).sideReset .b .down false).diesOff
  let s := (s.dropRegs (.side .a) (fun k => sideKept k && !isPolicy k)).dropRegs (.side .b) (fun k => sideKept k && !isPolicy k)
  { s with ember := { s.ember with ga := GroupSt.off, gb := GroupSt.off, gs := GroupSt.off, railsOff := s.now } }

/-! ## Regulator groups (R143, R144) -/

/-- Group `g`. -/
def EmberSt.group (e : EmberSt) : RailGroup → GroupSt
  | .a => e.ga
  | .b => e.gb
  | .shared => e.gs

/-- The Ember with `v` as group `g`. -/
def EmberSt.setGroup (e : EmberSt) (g : RailGroup) (v : GroupSt) : EmberSt :=
  match g with
  | .a => { e with ga := v }
  | .b => { e with gb := v }
  | .shared => { e with gs := v }

/-- The group of side `x`. -/
def sideGroup : Side → RailGroup
  | .a => .a
  | .b => .b

/-- Group `g` of the state. -/
def State.group (s : State) (g : RailGroup) : GroupSt := s.ember.group g

/-- The state with `v` as group `g`. -/
def State.setGroup (s : State) (g : RailGroup) (v : GroupSt) : State := { s with ember := s.ember.setGroup g v }

/-- Group `g` is enabled as the first of its four attempts. -/
def State.enableGroup (s : State) (g : RailGroup) : State := s.setGroup g ⟨true, false, 0, false, s.now, 0⟩

/-- The instant of the running attempt of a group. -/
def GroupSt.tryAt (g : GroupSt) : Nat := g.base + g.tries * 20000000

/-- Pin SIDE_x_RST_N is low (R141). -/
def State.rstIsLow (s : State) (x : Side) : Bool := s.ember.rstLow.testBit x.num

/-- Side `x` has its rails: its own group and the shared one are good (R143). -/
def State.railGood (s : State) (x : Side) : Bool := (s.group (sideGroup x)).good && s.ember.gs.good

/-- A side whose rails are good and whose reset input is high waits for its clock (R143). -/
def State.startClock (s : State) (x : Side) : State :=
  if (s.side x).run = .down ∧ s.railGood x ∧ ¬ s.rstIsLow x then s.setSide x { s.side x with run := .clocking } else s

/-- The dies leave power-on reset (R143 step 2, R203, R211): every channel is off, its harness record checked and its wire at THETA_INIT. -/
def State.diesOn (s : State) (bad : Nat) : State :=
  let s := s.each (List.range 4) (fun s d => s.setDie d { DieSt.init with powered := true, pwmBase := s.now })
  let s := s.setDie 4 DieSt.init
  let s := s.each (List.range 64) (fun s c => s.harnessCheck c bad)
  ({ s with flue := { FlueSt.init with powered := true, refPresent := s.flue.refPresent, dom0 := Domain.init s.now, dom1 := Domain.init s.now } })

/-- POWER_GOOD (R143 step 2). With the shared group the dies check their harness slots, where bit 2c + n of `bad` is slot n of channel c (R203),
and STRAP_PU is there: STRAP_TEST is sampled at the level `test`, once for each wake (R502; log entry 107). -/
def execPowerGood (g : RailGroup) (bad : BitVec 128) (test : Bool) (s : State) : Out :=
  let v := s.group g
  ok (if v.on ∧ ¬ v.good then
    let s := s.due v.tryAt
    let s := s.setGroup g { v with good := true, goodAt := s.now }
    let s := if g = .shared then (s.setStrap 2 test).diesOn bad.toNat else s
    (s.startClock .a).startClock .b
  else s)

/-! ## The wake record and the wake sources (R142, R149, R156) -/

/-- A wake source acts: the module is in Cold hearth or Banked and no failed wake blocks it (R144). -/
def State.wakeable (s : State) : Bool := (s.ember.phase == .cold || s.ember.phase == .banked) && !s.ember.ignore

/-- Seconds in Banked by the RTC, which is good to 2 % (R156): a free value within that bound; 0 from Cold hearth. -/
def State.bankedSeconds (s : State) : Nat :=
  if s.ember.phase = .banked then
    let e := (s.now - s.ember.bankedAt) / 1000000000
    e - e / 50 + s.freeVal 64 % (2 * (e / 50) + 1)
  else 0

/-- What a source declares: its cause, index, the field that gives its target, whether it needs confirmation, and the identifier of a waking
frame with IDE in bit 29. -/
structure WakeSrc where
  cause : Nat
  index : Nat
  target : Fld
  confirm : Bool
  ident : Option Nat
  deriving DecidableEq, Repr

/-- A wake declared soon after the module entered Banked, by a CAN or TC10 source (R149). -/
def State.rewake (s : State) (w : WakeSrc) : Bool :=
  decide (4 ≤ w.cause ∧ w.cause ≤ 7 ∧ s.now < s.ember.bankedAt + 2000000000)

/-- The Ember writes the wake record and counts the wake (R143 step 1, R156). FROM has no code for a wake that the return of a feed starts in an
awake module: a free value (log entry 73). -/
def State.writeRecord (s : State) (w : WakeSrc) (entry : Bool) : State :=
  let h := Holder.ember
  let n := s.get h F.EMBER_WAKE_COUNT 0 + 1
  let t := if s.get h w.target 0 = 3 then 3 else 2
  let from_ := if w.cause = 0 then 3 else match s.ember.phase with
    | .cold => 0
    | .banked => 1
    | _ => s.freeVal 2
  let s := s.took
  let re := s.rewake w
  let w0 := n % 65536 * 2 ^ 24 + b2n (!w.confirm) * 2 ^ 22 + b2n re * 2 ^ 21 + b2n entry * 2 ^ 20 + t * 2 ^ 18 + from_ * 2 ^ 16 +
    w.index * 2 ^ 4 + w.cause
  let w1 := match w.ident with
    | some i => 2 ^ 30 + i
    | none => 0
  let w2 := s.bankedSeconds
  let s := s.took
  let s := ((((s.set h F.EMBER_WREC 0 w0).set h F.EMBER_WREC 1 w1).set h F.EMBER_WREC 2 w2).set h F.EMBER_WREC 3 (3 * 2 ^ 12)).inc h
    F.EMBER_WAKE_COUNT 0
  let s := (s.setSide .a { s.sa with wrecSlot := none })
  let s := (s.setSide .b { s.sb with wrecSlot := none })
  if re then s.inc h F.EMBER_REWAKE_COUNT 0 else s

/-- The Ember declares a wake (R143 step 1), no earlier than 5 ms after the groups went off (R152). -/
def State.declare (s : State) (w : WakeSrc) (entry : Bool) : State :=
  let s := s.due (s.ember.railsOff + 5000000)
  let h := Holder.ember
  let t := if s.get h w.target 0 = 3 then 3 else 2
  let s := s.writeRecord w entry
  let s := ((s.set h F.EMBER_STATE_LIMP_A 0 0).set h F.EMBER_STATE_LIMP_B 0 0).set h F.EMBER_STATE_FLUE_NOREF 0 0
  let s := { s with ember := { s.ember with
    phase := .waking, wakeAt := s.now, onlyFeed := false, ignore := false, pend := none, target := t, confirm := none, resetCause := [], fwd := true, listen := true } }
  ((s.enableGroup .shared).enableGroup .a).enableGroup .b

/-- KL15. -/
def srcKl15 : WakeSrc := ⟨1, 0, F.EMBER_WAKE_TARGET_KL15, false, none⟩

/-- WAKE_LOC input `n`. -/
def srcLoc (n : Nat) : WakeSrc := ⟨2, n, F.EMBER_WAKE_TARGET_LOC, false, none⟩

/-- WAKE_LOC input `n` is a wake source (R142). -/
def State.locOn (s : State) (n : Nat) : Bool := (s.get .ember F.EMBER_WAKE_CFG_LOC_EN 0).testBit n

/-- WAKE_LOC input `n` stands at its wake level, when the inputs stand at `levels`. -/
def State.locHeld (s : State) (levels n : Nat) : Bool :=
  s.locOn n && levels.testBit n == (s.get .ember F.EMBER_WAKE_CFG_LOC_POL 0).testBit n

/-- A level source that is asserted declares a wake (R144, R152): KL15 before the LOC inputs. -/
def State.levelWake (s : State) (kl15 : Bool) (levels : Nat) (entry : Bool) : State :=
  if kl15 then s.declare srcKl15 entry
  else match (List.range 4).find? (s.locHeld levels) with
    | some n => s.declare (srcLoc n) entry
    | none => s

/-- POWER_ON (R142): a feed rises above 6 V with the Ember unpowered. -/
def execPowerOn (s : State) : Out :=
  ok (if s.ember.phase = .off then s.declare ⟨0, 0, F.EMBER_WAKE_TARGET_FEED, false, none⟩ false else s)

/-- WAKE_KL15 (R142); during a confirmation window it confirms the wake (R147). -/
def execWakeKl15 (s : State) : Out := ok (if s.wakeable then s.declare srcKl15 false else s.confirmWake)

/-- WAKE_LOC (R142); during a confirmation window it confirms the wake (R147). -/
def execWakeLoc (n : Fin 4) (s : State) : Out :=
  ok (if ¬ s.locOn n then s else if s.wakeable then s.declare (srcLoc n) false else s.confirmWake)

/-- RTC_ALARM (R142): ALARM minutes after entry to Banked; during a confirmation window it confirms the wake (R147). -/
def execRtcAlarm (s : State) : Out :=
  let m := s.get .ember F.EMBER_BANK_TIME_ALARM 0
  let s' := s.due (s.ember.bankedAt + m * 60000000000)
  ok (if m = 0 then s
  else if s.ember.phase = .banked ∧ ¬ s.ember.ignore then s'.declare ⟨3, 0, F.EMBER_WAKE_TARGET_RTC, false, none⟩ false
  else if s.ember.confirm.isSome then s'.confirmWake
  else s)

/-- The sources of the network are armed: in Banked, unless the loss of both feeds led there (R155). -/
def State.netArmed (s : State) : Bool := s.wakeable && s.ember.phase == .banked && !s.ember.onlyFeed

/-- The latched settings of channel CAN(k) (R150). -/
def State.canWakeOf (s : State) (k : Nat) : CanWake := Tab.at CanWake.none s.ember.canWake k

/-- CAN_WAKE_PATTERN (R150). -/
def execCanWakePattern (k : Fin 12) (s : State) : Out :=
  ok (if s.netArmed ∧ (s.canWakeOf k).pattern then s.declare ⟨4, k, F.EMBER_WAKE_TARGET_CAN, true, none⟩ false else s)

/-- CAN_WAKE_FRAME (R150): a classical frame that matches. -/
def execCanWakeFrame (k : Fin 12) (fr : CanFrame) (s : State) : Out :=
  let w := s.canWakeOf k
  ok (if s.netArmed ∧ w.frame ∧ w.decodes ∧ bits fr.h0.toNat 31 30 = 1 ∧ w.fits fr.h0.toNat fr.h1.toNat (dataNat fr) then
    s.declare ⟨5, k, F.EMBER_WAKE_TARGET_CAN, false, some (fr.h0.toNat % 2 ^ 30)⟩ false
  else s)

/-- CAN_FRAME_ERR_WAKE (R150): the error counter of the frame decoder reaches 32. -/
def execCanFrameErrWake (k : Fin 12) (s : State) : Out :=
  ok (if s.netArmed ∧ (s.canWakeOf k).frame ∧ (s.canWakeOf k).decodes then s.declare ⟨6, k, F.EMBER_WAKE_TARGET_CAN, true, none⟩ false else s)

/-- TC10_WAKE_PULSE (R151): on a port whose bit in EMBER_TC10.EN is set. -/
def execTc10WakePulse (p : Fin 17) (s : State) : Out :=
  ok (if s.netArmed ∧ 2 ≤ p.val ∧ p.val ≤ 13 ∧ (s.get .ember F.EMBER_TC10_EN 0).testBit (p - 2) then
    s.declare ⟨7, p, F.EMBER_WAKE_TARGET_ETH, true, none⟩ false
  else s)

/-! ## Failed wakes (R144) -/

/-- The retries and the failure of a group in the wake record. -/
def State.recordGroup (s : State) (g : RailGroup) (v : GroupSt) : State :=
  let i := match g with
    | .a => 0
    | .b => 1
    | .shared => 2
  let s := s.wrecNote (2 * i + 1) (2 * i) (min 3 v.tries)
  if v.failed then s.wrecNote (6 + i) (6 + i) 1 else s

/-- A feed is declared lost (R153). -/
def State.feedGone (s : State) (f : Side) : Bool :=
  s.is .ember (match f with
    | .a => F.EMBER_STATE_FEED_A_LOSS
    | .b => F.EMBER_STATE_FEED_B_LOSS) 0

/-- The wake has failed (R144): every group off, Banked, outcome FAILED, and wake events ignored for 1 s. With both feeds still lost the
FEED_RETURN source is armed again (R155). -/
def State.failWake (s : State) : State :=
  let s := (s.wrecNote 13 12 1).inc .ember F.EMBER_FAILED_WAKE_COUNT 0
  let s := s.allOff
  { s with ember := { s.ember with phase := .banked, bankedAt := s.now, ignore := true, confirm := none, onlyFeed := s.feedGone .a && s.feedGone .b } }

/-- POWER_GOOD_TIMEOUT (R144): no power-good within 2 ms of enabling; up to three retries. -/
def execPowerGoodTimeout (g : RailGroup) (s : State) : Out :=
  let v := s.group g
  ok (if v.on ∧ ¬ v.good then
    let s := s.due (v.tryAt + 2000000)
    let last := decide (3 ≤ v.tries)
    let v := { v with tries := v.tries + 1, on := !last, failed := last }
    let s := (s.setGroup g v).recordGroup g v
    if s.ember.phase = .waking ∧ (s.ember.gs.failed ∨ (s.ember.ga.failed ∧ s.ember.gb.failed)) then s.failWake else s
  else s)

/-- WAKE_BLOCK_END (R144): a second after a failed wake, a level source that is still asserted starts a new one. -/
def execWakeBlockEnd (kl15 : Bool) (loc : BitVec 4) (s : State) : Out :=
  ok (if s.ember.ignore ∧ (s.ember.phase = .banked ∨ s.ember.phase = .cold) then
    let s := s.due (s.ember.bankedAt + 1000000000)
    ({ s with ember := { s.ember with ignore := false } }).levelWake kl15 loc.toNat false
  else s)

/-! ## Clocks and Kindling (R143 to R145, R443, R444, R502, R503) -/

/-- CRYSTAL_TIMEOUT (R145): no crystal 5 ms after the group's power-good; the side runs in limp clock. -/
def execCrystalTimeout (x : Side) (s : State) : Out :=
  ok (if (s.side x).run = .clocking ∧ ¬ (s.side x).limp then
    let s := s.due ((s.group (sideGroup x)).goodAt + 5000000)
    let s := s.took.setSide x { s.side x with limp := true, limpRate := s.freeVal 64 }
    (s.set .ember (limpFld x) 0 1).wrecNote (9 + x.num) (9 + x.num) 1
  else s)

/-- The factory slots of the key store (R446). -/
def State.factorySlots (s : State) (x : Side) : State :=
  let key (k : Nat) : List Nat := (Config.factoryKey k).map (fun b => b.toNat)
  ((s.fillSlot x 0 0 2 1 true (key 0)).fillSlot x 1 0 2 2 true (key 1)).fillSlot x 2 0 3 6 true (key 2)

/-- The images that Kindling checks before the Stoker is ready: Chromir, the mantel image and the overlays (R443 steps 3 and 4). -/
def bootSlots : List Nat := [0x200, 0] ++ (List.range 12).map (fun n => 0x100 + n)

/-- The wake settings that the Ember has latched are those of the channels of side `x` as it leaves reset: they are the confirmation match, and
stand until a CAN_WAKE_CFG changes them (R147, R150). -/
def State.canWakeBack (s : State) (x : Side) : State :=
  s.each (List.range 6) (fun s k => s.setCan x k { s.can x k with wake := s.canWakeOf (6 * x.num + k) })

/-- The boot of a side whose reset or sleep ended a debug unlock logs DEBUG_RELOCK (R453). -/
def State.relockBoot (s : State) (x : Side) : State :=
  if (s.side x).relock then (s.setSide x { s.side x with relock := false }).log x 0xB08 21 [] else s

/-- PLL_LOCK (R143 step 5): the side leaves reset and Kindling runs up to the images; a STRAP_TEST sampled high holds it. `calOk`: the CRC of
its calibration copy verifies (R135); `mode`: the level of STOKE_MODE, which the side samples (R502). -/
def execPllLock (x : Side) (calOk mode : Bool) (s : State) : Out :=
  ok (if (s.side x).run = .clocking ∧ ¬ s.ember.straps.testBit 2 then
    let h := Holder.side x
    let s := s.setSide x { s.side x with run := .kindling, resetAt := s.now, hvilFrom := s.now, clocks := [(0, Clock.start s.now), (1, Clock.start s.now)] }
    let s := ((s.set h F.PINS_STRAP_STOKE_MODE 0 (b2n mode)).set h F.STOKE_CFG_MODE 0 (b2n mode)).set h F.PINS_STRAP_FLUE_REF_EXT 0 (b2n s.flue.extRef)
    let s := (s.forgetTally x).set h F.PINS_RESET 0 (Tab.at 0 s.ember.resetCause x.num)
    let s := { s with absent := s.absent.filter (fun u => unitSides u != [x]) }
    let s := (s.canWakeBack x).set h F.LIFE_STATUS_BYP_SENSE 0 (s.get .flue F.BYP_STATUS_CLOSED 0)
    let s := (((s.factorySlots x).calWake x calOk).flushBoot x).relockBoot x
    s.each bootSlots (fun s t => s.bootSlot x t)
  else s)

/-- The seal contexts of side `x` after a wake or a reset (R390, R392): the transmit counter resumes at the recorded end of its block, past which
the context is exhausted; a context without its receive record or its key is left unkeyed. -/
def State.sealRestore (s : State) (x : Side) (i : Nat) : State :=
  match s.sealRec x i with
  | some (slot, tx, rx) =>
    let s := s.cs x F.CAN_SEAL_TX i (min tx (2 ^ 40 - 1))
    let s := if tx < 2 ^ 40 then s else (s.cs x F.CAN_SEAL_STATUS_EXHAUSTED i 1).log x 0x904 (canProd (i / 16)) []
    if 0 < rx ∧ s.is (.side x) F.KEYS_SLOT_VALID slot then
      ((s.cs x F.CAN_SEAL_RX i (rx - 1)).cs x F.CAN_SEAL_STATUS_KEY_SLOT i slot).cs x F.CAN_SEAL_STATUS_KEYED i 1
    else (s.log x 0x905 (canProd (i / 16)) [.nar 4 (i % 16)]).canEvent x (i / 16) 9 (i % 16)
  | none => s

/-- The commanded mask of a mantel image (R120, R122). That bits of it which R122 says are zero are taken as they stand is a DESIGN CHOICE (log entry
112). -/
def State.bootMask (s : State) (x : Side) : Nat :=
  match s.imageInUse x 0 with
  | some a => s.loadLE x (a + 0x1A) 2
  | none => 0

/-- The module reaches Glowing with its first ready side (R138, R147): a wake that needs it opens its confirmation window. -/
def State.reachGlowing (s : State) : State :=
  if s.ember.phase = .waking then
    let s := s.set .ember F.EMBER_STATE_STATE 0 2
    let s := { s with ember := { s.ember with phase := .up, stateAt := s.now } }
    if s.wrec 0 22 22 = 0 then
      let ms := clampNat 100 10000 (s.get .ember F.EMBER_TIMING_CONFIRM 0)
      let s := { s with ember := { s.ember with confirm := some (s.now + ms * 1000000) } }
      (s.set .ember F.EMBER_STATE_CONFIRM_WAIT 0 1).awakeClear
    else if s.wrec 0 19 18 = 2 then s.wakeOutcome 0
    else s
  else s

/-- The Stoker of side `x` is ready: Chromir serves packets, and the first commit puts the mantel image in force (R128, R143, R144). -/
def State.stokerStart (s : State) (x : Side) : State :=
  let h := Holder.side x
  let s := s.reload x owners
  let s := s.setSide x { s.side x with run := .ready, taking := true }
  let s := ((s.set h F.STOKER_STATE_CHROMIR_READY 0 1).set h F.SIDE_STATUS_HEALTHY 0 1).set h F.SPK_STATUS_READY 0 1
  let s := s.set .ember (sideUpFld x) 0 1
  let s := if (s.group (sideGroup x.other)).failed then s.losePeer x else s
  s.commitFirst x (s.bootMask x)

/-- The wake record in NOR and the WAKE entry, for a wake or the return of a feed (R143 step 6, R153, R503). -/
def State.logWake (s : State) (x : Side) : State :=
  let cause := Tab.at 0 s.ember.resetCause x.num
  if cause = 0 ∨ cause = 3 then (s.wrecCopy x).log x 0x300 4 [] else s

/-- A wake by the return of a feed to an awake module has reached its target: Glowing with this side's Stoker (R153, R156). -/
def State.feedDone (s : State) (x : Side) : State :=
  if Tab.at 0 s.ember.resetCause x.num = 3 ∧ s.wakeCause = 8 ∧ s.wrec 3 13 12 = 3 ∧ s.wrec 0 19 18 = 2 then s.wakeOutcome 0 else s

/-- What a side finds and logs as it comes up: limp clock, a missing reference (R145, R146). -/
def State.logStart (s : State) (x : Side) : State :=
  let s := if (s.side x).limp then s.log x 0x301 1 [] else s
  if s.is .ember F.EMBER_STATE_FLUE_NOREF 0 then s.log x 0x302 1 [] else s

/-- STOKER_READY (R143 step 6). A side without a Chromir or a mantel image that passes never gets there (R444). -/
def execStokerReady (x : Side) (s : State) : Out :=
  ok (if (s.side x).run = .kindling ∧ Tab.at 0 (s.side x).used 0x200 ≠ 0 ∧ Tab.at 0 (s.side x).used 0 ≠ 0 then
    let s := (((s.stokerStart x).logWake x).reachGlowing).feedDone x |>.logStart x
    let s := s.each (List.range 64) (fun s c => s.harnessReport x c)
    s.each (List.range 96) (fun s i => s.sealRestore x i)
  else s)

/-! ## Lit (R143 step 8, R437) -/

/-- The pair is held when mode 0 finds two homes for its cores (R437). -/
def State.pairHomes (s : State) (x : Side) : State :=
  if s.get (.side x) F.PAIR_CFG_MODE 0 = 0 ∧ s.get (.side x) F.WOT_HART_HOME 4 ≠ s.get (.side x) F.WOT_HART_HOME 5 then s.bootFail x else s

/-- The HELD worlds of side `x` become STARTING (R437). -/
def State.worldsStart (s : State) (x : Side) : State :=
  s.each (List.range 8) (fun s w => if s.worldState x w = 1 then s.setWorld x w 2 else s)

/-- The module reaches Lit with its first side, and a wake whose target that was has reached it (R138, R156). -/
def State.reachLit (s : State) : State :=
  let s := if s.get .ember F.EMBER_STATE_STATE 0 = 3 then s
    else { s.set .ember F.EMBER_STATE_STATE 0 3 with ember := { s.ember with stateAt := s.now } }
  if s.wrec 3 13 12 = 3 ∧ s.wrec 0 19 18 = 3 then s.wakeOutcome 0 else s

/-- The module is bound for Lit: its target is Lit and no confirmation is waited for. Step 8 for the side of a feed that returns goes by the
module's target too, and not by EMBER_WAKE_TARGET.FEED: DESIGN CHOICE (log entry 108). -/
def State.boundLit (s : State) : Bool := s.ember.phase == .up && s.ember.target == 3 && s.ember.confirm.isNone

/-- LIT_ENTRY (R143 step 8): the cores of a ready side leave reset and its HELD worlds start (R437). -/
def execLitEntry (x : Side) (s : State) : Out :=
  ok (if s.up x ∧ ¬ (s.side x).cores ∧ s.boundLit then
    (((s.setSide x { s.side x with cores := true }).pairHomes x).worldsStart x).reachLit
  else s)

end Sys2Proof.Machine
end

