-- ==== Sys2Proof/Machine/SideCmd.lean ====
section
/-! DEFINITION. The packets of the SIDE class and the net token's (chapter 03 R97, R100; chapter 09 R269 to R271, R277, R279). -/
namespace Sys2Proof.Machine
open Sys2Proof

/-- The tokens that a packet names: bit t for token t (R97, R100). -/
def namedTokens (k : Packet) : Nat :=
  if k.code = 0x601 ∨ k.code = 0x602 then 16 else if k.target = 0xF then 15 else 2 ^ k.target

/-- Tokens a side holds, as a list of a mask's bits. -/
def tokensOf (m : Nat) : List Nat := (List.range 5).filter (fun t => m.testBit t)

/-- Address of SIDE_GATE. -/
def sideGateAddr : Nat := 0x40130000 + ((regMap.find? (fun r => r.num == F.SIDE_GATE_CLAIM.reg)).map (fun r => r.base % 0x10000)).getD 0

/-- The refusal of a claim by SIDE_GATE, if it is closed: its DETAIL (R121, R269). -/
def State.claimGate (s : State) (x : Side) (code : Nat) : Option Nat :=
  let f := if code = 0x601 then F.SIDE_GATE_NET_CLAIM else F.SIDE_GATE_CLAIM
  if s.is (.side x) f 0 then none else some (s.gateDetail x sideGateAddr f.lo (fun v => v == 0))

/-- Offences of a packet of the SIDE class (R66, R100, R277). -/
def State.sideOffences (s : State) (x : Side) (k : Packet) : List Offence :=
  if k.code = 0xB02 ∨ k.code = 0xB03 then need (decide (k.target < 4 ∨ k.target = 0xF)) 0 0
  else if k.code = 0xB04 then
    let b := k.p 1
    let n := bits (k.p 2) 23 0 * 4096
    let others := (List.range 16).filter (fun r => r != k.target)
    let total := others.foldl (fun t r => t + (s.mirRegion x r).2) n
    let overlaps (q : Nat × Nat) : Bool := decide (0 < n ∧ 0 < q.2 ∧ b < q.1 + q.2 ∧ q.1 < b + n)
    unassigned [ones 40, ones 24] k.params 1 ++ need (decide (k.target < 16)) 0 0 ++ need (decide (b % 4096 = 0)) 1 0 ++
      need (decide (n = 0) || (inSram b n && s.wotRange x b n k.world 0)) 1 0 ++
      need (!(others.any (fun r => overlaps (s.mirRegion x r)) || (List.range 16).any (fun r => overlaps (s.mirRegion x.other r)))) 1 0 ++
      need (decide (total ≤ 8388608)) 2 0
  else if k.code = 0xB05 then
    unassigned [0xFFFF01] k.params 1 ++ need (decide (k.target = 0)) 0 0 ++ need (decide (10 ≤ bits (k.p 1) 23 8)) 1 8
  else need (decide (k.target = 0)) 0 0

/-- One token of a SIDE_CLAIM or NET_TOKEN_CLAIM (R266, R269). -/
def State.claimToken (s : State) (x : Side) (t : Nat) : State :=
  let live := decide (s.tokHolder t ≤ 1) && s.beats t (sideOf (s.tokHolder t))
  if s.holds x t ∨ s.claimPending t then s
  else if s.tokState t = 3 then s.recordClaim t x true
  else if ¬ live then s.recordClaim t x false
  else if s.tokState t = 1 then s
  else if s.is (.side x) F.SIDE_STATUS_CROSS_UP 0 then
    (s.set (.grate t) F.GRATE_TOKEN_STATE 0 4).set (.grate t) F.GRATE_TOKEN_CLAIMANT 0 x.num
  else s.claimRefused x

/-- A packet that names one grate die's token, or all: TARGET_ABSENT when that one die is not PRESENT (R83). -/
def State.onNamed (s : State) (j : Job) (f : State → State) : State :=
  if j.pkt.target < 4 ∧ ¬ s.present (dieUnit j.pkt.target) then s.doneAbsent j (dieUnit j.pkt.target) else f s

/-- A claim of the named tokens whose dies are PRESENT; the reply comes once each has passed or been refused (R269). -/
def State.claimTokens (s : State) (x : Side) (j : Job) : State :=
  let m := namedTokens j.pkt
  let here (t : Nat) : Bool := if t < 4 then s.present (dieUnit t) else s.present .flue
  let s := s.each ((tokensOf m).filter here) (fun s t => s.claimToken x t)
  let wait := ((tokensOf m).filter (s.claims x)).foldl (fun w t => Machine.setBit w t) 0
  (s.setSide x { s.side x with claimReqs := (s.side x).claimReqs ++ [(j, wait)] }).claimReplies x

/-- SIDE_CLAIM (R269). -/
def execSideClaim (x : Side) (s : State) : Out := ok (s.chromir x 0xB02 (fun s j => s.onNamed j (fun s => s.claimTokens x j)))

/-- NET_TOKEN_CLAIM (R269, R271). -/
def execNetTokenClaim (x : Side) (s : State) : Out :=
  ok (s.chromir x 0x601 (fun s j => if s.present .flue then s.claimTokens x j else s.doneAbsent j .flue))

/-- A release of the named tokens that side `x` holds (R270). -/
def State.releaseTokens (s : State) (x : Side) (j : Job) (words : State → List Nat) : State :=
  let m := namedTokens j.pkt
  let mine := (tokensOf m).filter (s.holds x)
  if mine = [] then s.done j stMaster (s.masterDetail (if m = 16 then 4 else if m = 15 then 0 else j.pkt.target)) []
  else
    let s := s.each mine (fun s t => s.vacate t)
    s.done j stOk 0 (words s)

/-- SIDE_RELEASE (R270). -/
def execSideRelease (x : Side) (s : State) : Out :=
  ok (s.chromir x 0xB03 (fun s j => s.onNamed j (fun s => s.releaseTokens x j (fun s => [s.heldOf x 15]))))

/-- NET_TOKEN_RELEASE (R270, R271). -/
def execNetTokenRelease (x : Side) (s : State) : Out :=
  ok (s.chromir x 0x602 (fun s j => s.onNet j (fun s => s.releaseTokens x j (fun _ => []))))

/-- SIDE_STATUS (R100). -/
def execSideStatus (x : Side) (s : State) : Out :=
  ok (s.chromir x 0xB01 (fun s j =>
    let b (f : Fld) : Nat := s.get (.side x) f 0
    s.done j stOk 0 [s.heldOf x 31 + b F.SIDE_STATUS_PEER_HEALTHY * 2 ^ 5 + b F.SIDE_STATUS_CROSS_UP * 2 ^ 6 +
      b F.SIDE_STATUS_MIRROR_CURRENT * 2 ^ 7 + b F.SIDE_STATUS_RETURN_HOME * 2 ^ 8]))

/-- SIDE_MIRROR_SET (R277): the region of the side that takes the packet; the next checkpoint copies every line, and one that runs has no
line of the region any more (R278). -/
def execSideMirrorSet (x : Side) (s : State) : Out :=
  ok (s.chromir x 0xB04 (fun s j =>
    let r := j.pkt.target
    let s := (s.set (.side x) F.SIDE_MIRROR_BASE r (j.pkt.p 1)).set (.side x) F.SIDE_MIRROR_LEN r (bits (j.pkt.p 2) 23 0)
    let v := s.side x
    let s := s.setSide x { v with
      ckptFull := true, ckptDone := Tab.put 0 v.ckptDone r 0,
      ckpt := v.ckpt.map (fun c => { c with lines := c.lines.filter (fun l => l.1 != r) }) }
    (s.showMirror x).done j stOk 0 []))

/-- The return policy in force on side `x` (R279). -/
def State.setPolicy (s : State) (x : Side) (p : Nat) : State :=
  let h := Holder.side x
  (((s.set h F.SIDE_RETURN_RETURN_HOME 0 (bits p 0 0)).set h F.SIDE_RETURN_HOLDOFF 0 (bits p 23 8)).set h F.SIDE_STATUS_RETURN_HOME 0
    (bits p 0 0)).returnWaits

/-- SIDE_RETURN_POLICY (R279): passed over the cross bridge to the other side. -/
def execSideReturnPolicy (x : Side) (s : State) : Out :=
  ok (s.chromir x 0xB05 (fun s j =>
    let s := s.setPolicy x (j.pkt.p 1)
    let s := if s.crossReach x then s.setPolicy x.other (j.pkt.p 1) else s
    s.done j stOk 0 []))

end Sys2Proof.Machine
end

