-- ==== Sys2Proof/Machine/Sleep.lean ====
section
/-! DEFINITION. Power-state requests, sleep and supply loss (chapter 05 R139 to R141, R147, R152 to R157; 09 R272). -/
namespace Sys2Proof.Machine
open Sys2Proof

/-! ## Requests (R89, R140) -/

/-- The power state as SYS_STATE_SET's targets code it. -/
def State.powerState (s : State) : Nat := s.get .ember F.EMBER_STATE_STATE 0

/-- The gate of EMBER_GATE that target `t` needs, by its field: 2 needs one only from Lit. -/
def State.stateGate (s : State) (t : Nat) : Option Fld :=
  if t = 0 then some F.EMBER_GATE_COLD
  else if t = 1 then some F.EMBER_GATE_BANKED
  else if t = 2 ∧ s.powerState = 3 then some F.EMBER_GATE_GLOWING
  else none

/-- Address of EMBER_GATE (R157). -/
def emberGateAddr : Nat := 0x40010008

/-- The refusal of a request for target `t` on side `x`: its DETAIL (R121, R140). -/
def State.stateRefused (s : State) (x : Side) (t : Nat) : Option Nat :=
  match s.stateGate t with
  | some f => if s.is .ember f 0 then none else some (s.gateDetail x emberGateAddr f.lo (fun v => v == 0))
  | none => none

/-- A pending request ends, by its replacement or its cancellation, and its awake window with it (R140, R148). -/
def State.dropRequest (s : State) : State :=
  match s.ember.pend with
  | some (t, _) =>
    let s := if t ≤ 1 then s.awakeEnd else s
    let s := { s with ember := { s.ember with pend := none } }
    (s.set .ember F.EMBER_STATE_PENDING 0 0).set .ember F.EMBER_STATE_PEND_TARGET 0 0
  | none => s

/-- An accepted request for target `t` after `ms` milliseconds (R140, R147, R148). -/
def State.stateRequest (s : State) (t ms : Nat) : State :=
  if s.ember.phase ≠ .up then s
  else
    let s := (if t = 3 then s.confirmWake else s).dropRequest
    if t = s.powerState then s
    else
      let s := if t ≤ 1 then s.awakeClear else s
      let s := { s with ember := { s.ember with pend := some (t, s.now + ms * 1000000) } }
      (s.set .ember F.EMBER_STATE_PENDING 0 1).set .ember F.EMBER_STATE_PEND_TARGET 0 t

/-- SYS_STATE_SET (R140): OK is sent on acceptance. -/
def execSysStateSet (x : Side) (s : State) : Out :=
  ok (s.chromir x 0x002 (fun s j =>
    match s.stateRefused x j.pkt.target with
    | some d => s.done j stMode d []
    | none => (s.stateRequest j.pkt.target (bits (j.pkt.p 1) 15 0)).done j stOk 0 []))

/-- SYS_STATE_GET (R89): the state, the sides that are up and the time in the state. -/
def execSysStateGet (x : Side) (s : State) : Out :=
  ok (s.chromir x 0x003 (fun s j =>
    let up := s.get .ember F.EMBER_STATE_SIDE_A_UP 0 * 4 + s.get .ember F.EMBER_STATE_SIDE_B_UP 0 * 8
    let ms := min (2 ^ 32 - 1) ((s.now - s.ember.stateAt) / 1000000)
    s.done j stOk 0 [s.powerState + up + ms * 2 ^ 8]))

/-! ## Lit to Glowing (R140, R437) -/

/-- Side `x` leaves Lit: its cores, its safety pair and its DMA channels stop, its doors are flushed, its running worlds are HELD. -/
def State.leaveLit (s : State) (x : Side) : State :=
  let s := s.setSide x { s.side x with cores := false }
  let s := s.each (List.range 4) (fun s i => s.coreReset x i)
  let s := (s.pairReset x).pairRun x false
  let s := s.each (List.range 32) (fun s n => (s.dmaHalt x n).doorFlush x n)
  s.each (List.range 8) (fun s w => if 2 ≤ s.worldState x w ∧ s.worldState x w ≤ 3 then s.setWorld x w 1 else s)

/-- The sleep sequence to target `t` is due to begin (R152). -/
def State.beginSleep (s : State) (t : Nat) : State :=
  ({ s with ember := { s.ember with phase := .sleeping 0, target := t } }).set .ember F.EMBER_STATE_SHUTDOWN 0 1

/-- SYS_STATE_DELAY_END (R140). A request to sleep keeps its awake window until step 1 of the sleep sequence (R148). -/
def execSysStateDelayEnd (s : State) : Out :=
  ok (match s.ember.pend with
    | some (t, e) =>
      if s.ember.phase ≠ .up then s
      else
        let s := s.due e
        let s := (s.set .ember F.EMBER_STATE_PENDING 0 0).set .ember F.EMBER_STATE_PEND_TARGET 0 0
        if t ≤ 1 then s.beginSleep t
        else
          let s := { s with ember := { s.ember with pend := none, target := t } }
          if t = 2 then
            let s := (s.leaveLit .a).leaveLit .b
            { s.set .ember F.EMBER_STATE_STATE 0 2 with ember := { s.ember with stateAt := s.now } }
          else s
    | none => s)

/-- CONFIRM_WINDOW_END (R147): unconfirmed, the module sleeps to Banked. -/
def execConfirmWindowEnd (s : State) : Out :=
  ok (match s.ember.confirm with
    | some e =>
      let s := s.due e
      let s := s.each ([Side.a, .b].filter s.up) (fun s x => s.log x 0x303 1 [.nar 4 s.wakeCause, .nar 12 s.wakeIndex])
      let s := ((s.wakeOutcome 2).inc .ember F.EMBER_FALSE_WAKE_COUNT 0).set .ember F.EMBER_STATE_CONFIRM_WAIT 0 0
      let s := s.dropRequest.awakeEnd
      ({ s with ember := { s.ember with confirm := none } }).beginSleep 1
    | none => s)

/-! ## The sleep sequence (R152) -/

/-- SLEEP_START (R152 step 1): the Stokers stop taking packets, the spark rules are disabled, the awake windows end. A
confirmation window that a request for sleep cuts short leaves the outcome of its wake in progress: DESIGN CHOICE (log entry 109). -/
def execSleepStart (s : State) : Out :=
  ok (if s.ember.phase = .sleeping 0 then
    let s := (s.setSide .a { s.sa with taking := false }).setSide .b { s.sb with taking := false }
    let s := s.each [Matcher.side .a, Matcher.side .b, Matcher.flue] (fun s m => s.rulesOff m none)
    let s := (if s.ember.pend.isSome ∨ s.ember.confirm.isSome then s.awakeEnd else s).set .ember F.EMBER_STATE_CONFIRM_WAIT 0 0
    { s with ember := { s.ember with phase := .sleeping 1, pend := none, confirm := none } }
  else s)

/-- Every packet that side `x` has taken has its final reply (R152 step 2). -/
def State.drained (s : State) (x : Side) : Bool :=
  (s.side x).srcs.all (fun e => e.2.out.isEmpty) && (s.side x).chromirQ.isEmpty && (s.side x).longQ.isEmpty

/-- 1 % of the continuous rating of a channel, in Q20.20 A (R2). -/
def onePercent (c : Nat) : Int := (((if classOf c = 0 then 40 else if classOf c = 1 then 10 else 3) * q20 / 100 : Nat) : Int)

/-- The sign-free value of a signal. -/
def absOver (v : Int) (c : Nat) : Bool := decide (onePercent c < v ∨ v < -onePercent c)

/-- A turn-on held for channel `c` is dropped: with CMD_ON at 0 it may not act any more (R164). -/
def State.dropHold (s : State) (c : Nat) : State := (s.setChan c { s.chan c with hold := none }).cw c F.CH_STATE_HELD 0

/-- Channel `c` is turned off (R152 step 3). Whether its current is above 1 % of its rating 20 ms later is open for a channel that was driven, and
so is that current; another channel shows its latest sample. -/
def State.sleepChan (s : State) (c : Nat) : State :=
  let on := driven (s.chState c)
  let high := if on then s.freeVal 1 == 1 else absOver (s.ci c F.MEAS_I) c
  let s := s.took
  let amps := if on then s.freeVal 40 else s.cq c F.MEAS_I
  let s := (s.took.applyOff c (s.slewDef c)).dropHold c
  if high then s.logBoth 0x305 (23 + c / 16) [.nar 6 c, .wide amps] else s

/-- Port `p` goes to sleep by a TC10 handshake, which the partner completes or lets time out (R152 step 4): which is open. -/
def State.sleepPort (s : State) (p : Nat) : State :=
  if s.is .flue F.PORT_STATUS_LINK p ∧ s.get .flue F.PORT_STATUS_TC10 p ≤ 1 then
    let done := s.freeVal 1 == 1
    let s := s.took
    if done then s.portSleep p
    else ((s.set .flue F.PORT_STATUS_TC10 p 0).flueEvt F.FLUE_EVT_TC10).logBoth 0x306 27 [.nar 5 p]
  else s

/-- The receive values of side `x`'s seal contexts written to NOR (R392). -/
def State.sealSave (s : State) (x : Side) : State :=
  s.each (List.range 96) (fun s i =>
    if s.cb x F.CAN_SEAL_STATUS_KEYED i then
      let r := (s.sealRec x i).getD (0, 0, 0)
      s.setSealRec x i r.1 r.2.1 (s.cg x F.CAN_SEAL_RX i + 1)
    else s)

/-- Steps 4 and 5 on side `x`: its CAN channels off the bus, SLEEP logged, the flush. -/
def State.sleepSide (s : State) (x : Side) : State :=
  if ¬ s.up x then s
  else
    let s := s.each (List.range 6) (fun s k => if s.present (.can x (Fin.ofNat 6 k)) then s.canSetMode x k 0 else s)
    ((s.sealSave x).log x 0x307 1 [.nar 2 s.ember.target]).ashFlush x 1

/-- SLEEP_DRAIN_COMPLETE (R152 steps 2 to 5). -/
def execSleepDrainComplete (s : State) : Out :=
  ok (if s.ember.phase = .sleeping 1 ∧ s.drained .a ∧ s.drained .b then
    let s := s.each ((List.range 64).filter (fun c => s.present (dieUnit (c / 16)))) (fun s c => s.sleepChan c)
    let s := if s.flueRuns then s.each ((List.range 12).map (fun i => i + 2)) (fun s p => s.sleepPort p) else s
    let s := (s.sleepSide .a).sleepSide .b
    { s with ember := { s.ember with phase := .sleeping 2 } }
  else s)

/-- The CAN wake settings of local channel `k` of side `x` as the Ember latches them (R150): the frame decoder knows four bit rates.
A channel whose side is down then has no settings and is off in Banked: DESIGN CHOICE (log entry 109). -/
def State.latchWake (s : State) (x : Side) (k : Nat) : CanWake :=
  let w := (s.can x k).wake
  { w with decodes := [125000, 250000, 500000, 1000000].contains (s.nominalRate x k) }

/-- SLEEP_ARM (R152 step 6): the settings are latched and the groups go off; a level source that is asserted (WAKE_KL15 at `kl15`, the WAKE_LOC inputs
at `loc`) wakes the module at once. A Banked with both feeds lost arms FEED_RETURN in place of the network (R155). -/
def execSleepArm (kl15 : Bool) (loc : BitVec 4) (s : State) : Out :=
  ok (if s.ember.phase = .sleeping 2 then
    let ws := (List.range 12).foldl (fun (t : Tab CanWake) n =>
      Tab.put CanWake.none t n (s.latchWake (if n < 6 then .a else .b) (n % 6))) []
    let p : Phase := if s.ember.target = 0 then .cold else .banked
    let s := (s.allOff).set .ember F.EMBER_STATE_SHUTDOWN 0 0
    let s := { s with ember := { s.ember with phase := p, canWake := ws, bankedAt := s.now, stateAt := s.now, onlyFeed := s.feedGone .a && s.feedGone .b } }
    s.levelWake kl15 loc.toNat true
  else s)

/-- BANK_TIME_LIMIT (R139): LIMIT hours in Banked. -/
def execBankTimeLimit (s : State) : Out :=
  let n := s.get .ember F.EMBER_BANK_TIME_LIMIT 0
  ok (if s.ember.phase = .banked ∧ n ≠ 65535 then
    let s := s.due (s.ember.bankedAt + max 1 n * 3600000000000)
    { s with ember := { s.ember with phase := .cold, stateAt := s.now } }
  else s)

/-! ## Supply loss (R153 to R155) -/

/-- The field of EMBER_STATE that shows feed `f` lost. -/
def lossFld : Side → Fld
  | .a => F.EMBER_STATE_FEED_A_LOSS
  | .b => F.EMBER_STATE_FEED_B_LOSS

/-- Side `x` loses its feed (R153): it logs, stops, flushes what it holds to NOR, and its rail group goes off. -/
def State.supplyLoss (s : State) (x : Side) : State :=
  let s := if s.up x then
      (((s.log x 0x308 1 []).sideDown x 4).sealSave x).ashFlush x 2
    else s
  (s.sideReset x .down false).setGroup (sideGroup x) GroupSt.off

/-- The module loses both feeds (R155): it enters Banked with FEED_RETURN armed. -/
def State.bothLost (s : State) : State :=
  let s := ((s.allOff).set .ember F.EMBER_STATE_SHUTDOWN 0 0).set .ember F.EMBER_STATE_CONFIRM_WAIT 0 0
  { s with ember := { s.ember with
    phase := .banked, bankedAt := s.now, stateAt := s.now, onlyFeed := true, pend := none, confirm := none } }

/-- The groups are on: a wake, up or a sleep sequence. -/
def State.powered (s : State) : Bool :=
  match s.ember.phase with
  | .off => false
  | .cold => false
  | .banked => false
  | _ => true

/-- FEED_LOSS (R153, R155). In Banked the loss of the second feed leaves FEED_RETURN armed in place of CAN and TC10; Cold hearth is left by its
own wake sources alone (R139). -/
def execFeedLoss (f : Side) (s : State) : Out :=
  ok (if s.ember.phase = .off ∨ s.feedGone f then s
  else
    let s := (s.feedEvt (match f with
      | .a => F.EMBER_FEED_EVT_A_LOSS
      | .b => F.EMBER_FEED_EVT_B_LOSS)).set .ember (lossFld f) 0 1
    if s.powered then
      let s := s.supplyLoss f
      if s.feedGone f.other then s.bothLost else s
    else if s.ember.phase = .banked ∧ s.feedGone f.other then { s with ember := { s.ember with onlyFeed := true } }
    else s)

/-- Step 1 for the side of a feed that returns to an awake module (R153, R156): the wake is counted and recorded. A record whose outcome is not
known yet keeps the first cause, from which its confirmation goes (R147): DESIGN CHOICE (log entry 108). -/
def State.feedRecord (s : State) : State :=
  if s.wrec 3 13 12 = 3 then s.inc .ember F.EMBER_WAKE_COUNT 0 else s.writeRecord ⟨8, 0, F.EMBER_WAKE_TARGET_FEED, false, none⟩ false

/-- FEED_RETURN (R153, R155): from the Banked with both feeds lost, a wake, unless a failed wake blocks it (R144); with the module awake, steps 1
to 8 for that side alone. -/
def execFeedReturn (f : Side) (s : State) : Out :=
  ok (if s.ember.phase = .off ∨ ¬ s.feedGone f then s
  else
    let s := (s.feedEvt (match f with
      | .a => F.EMBER_FEED_EVT_A_RETURN
      | .b => F.EMBER_FEED_EVT_B_RETURN)).set .ember (lossFld f) 0 0
    if s.ember.phase = .banked ∧ s.ember.onlyFeed ∧ ¬ s.ember.ignore then s.declare ⟨8, 0, F.EMBER_WAKE_TARGET_FEED, false, none⟩ false
    else if s.ember.phase = .up ∨ s.ember.phase = .waking then
      let s := s.feedRecord
      let s := { s with ember := { s.ember with resetCause := Tab.put 0 s.ember.resetCause f.num 3 } }
      s.enableGroup (sideGroup f)
    else s)

/-- EMBER_POWER_LOSS (R155, R456): both feeds fall below 6 V and the Ember loses its state; its pins stand as the board drives them. -/
def execEmberPowerLoss (s : State) : Out :=
  ok (if s.ember.phase = .off then s
  else
    let s := s.allOff.dropRegs .ember (fun _ => false)
    { s with ember := { EmberSt.init with rstLow := s.ember.rstLow, straps := s.ember.straps } })

/-! ## Feed events and readings (R157, R225) -/

/-- EMBER_OVERVOLTAGE (R157). -/
def execEmberOvervoltage (f : Side) (s : State) : Out :=
  ok (if s.ember.phase = .off then s
  else s.feedEvt (match f with
    | .a => F.EMBER_FEED_EVT_A_OVER
    | .b => F.EMBER_FEED_EVT_B_OVER))

/-- EMBER_FEED_SAMPLE (R157): the readings of this 100 us; no behaviour is specified beyond the ratings (R488). -/
def execEmberFeedSample (va vb : Word40) (s : State) : Out :=
  if outsideFeed (sigInt va.toNat) ∨ outsideFeed (sigInt vb.toNat) then .fault .outsideRatings
  else if s.ember.phase = .off then ok s
  else ok ((s.set .ember F.EMBER_FEED_A_V 0 va.toNat).set .ember F.EMBER_FEED_B_V 0 vb.toNat)

/-- EMBER_LOW_FEED_ASSERT (R225): feed `f` has stayed below 16 V; hardware mask bit 9 is asked for. -/
def execEmberLowFeedAssert (f : Side) (s : State) : Out :=
  ok (if s.ember.phase = .off ∨ s.feedGone f then s
  else match f with
    | .a => { s.feedEvt F.EMBER_FEED_EVT_A_LOW16 with ember := { s.ember with lowFeed := true } }
    | .b => { s.feedEvt F.EMBER_FEED_EVT_B_LOW16 with ember := { s.ember with lowFeedB := true } })

/-- EMBER_LOW_FEED_CLEAR (R225). -/
def execEmberLowFeedClear (s : State) : Out := ok { s with ember := { s.ember with lowFeed := false, lowFeedB := false } }

/-! ## The reset input and sides that are not healthy (R141, R272) -/

/-- SIDE_RESET_ASSERT (R141, R272): SIDE_x_RST_N low. -/
def execSideResetAssert (x : Side) (s : State) : Out :=
  ok (if s.rstIsLow x then s
  else
    let s := { s with ember := { s.ember with rstLow := Machine.setBit s.ember.rstLow x.num } }
    if (s.side x).run = .down then s else (s.sideDown x 5).sideReset x .down (s.side x).limp)

/-- SIDE_RESET_RELEASE (R141): the side starts anew. -/
def execSideResetRelease (x : Side) (s : State) : Out :=
  ok (if s.rstIsLow x then
    let s := { s with ember := { s.ember with
      rstLow := Machine.clearBit s.ember.rstLow x.num, resetCause := Tab.put 0 s.ember.resetCause x.num 1 } }
    s.startClock x
  else s)

/-- SIDE_DOWN (R272): an uncorrectable ECC error in the STOKER island ends the health of a healthy side; a side that is no longer healthy is
reset and returns through Kindling (R141, R503). -/
def execSideDown (x : Side) (s : State) : Out :=
  ok (if ¬ s.up x then s
  else if s.healthy x then s.sideDown x 3
  else
    let s := s.sideReset x .down (s.side x).limp
    let s := { s with ember := { s.ember with resetCause := Tab.put 0 s.ember.resetCause x.num 2 } }
    s.startClock x)

end Sys2Proof.Machine
end

