-- ==== Sys2Proof/Machine/Stoke.lean ====
section
/-! DEFINITION. The Stoke port (chapter 03 R102 to R112): transactions of whole words, from the fall of CS_N to its rise. -/
namespace Sys2Proof.Machine
open Sys2Proof

/-- The status word of the next transaction (R104). -/
def State.stokeWord (s : State) (x : Side) : Nat :=
  (s.side x).stokeStatus * 2 ^ 28 + 0xFF * 2 ^ 20 + (s.side x).stokeReason * 2 ^ 7 + s.credits x 32

/-- STOKE_x_ATTN_N is driven low: the transmit FIFO holds a complete packet, or the next status word carries a status other than OK
(R110). -/
def State.attnLow (s : State) (x : Side) : Bool :=
  decide ((s.side x).stokeHead < (s.src x 32).rpl.length) || (s.side x).stokeStatus != stOk

/-- STOKE_CS_FALL (R102 to R104): the status word of the previous transaction is ready to shift out; a port that is not enabled, or whose
side is in reset, leaves SDO high-impedance. -/
def execStokeCsFall (x : Side) (s : State) : Out :=
  let h := Holder.side x
  ok (if s.is h F.STOKE_STATUS_ACTIVE 0 then s
  else
    let sdo := if s.fabric x ∧ s.is h F.STOKE_CFG_ENABLE 0 then [s.stokeWord x] else []
    let v := s.side x
    let s := s.setSide x { v with sdo := sdo, stokeStatus := if sdo = [] then v.stokeStatus else stOk,
                                  stokeReason := if sdo = [] then v.stokeReason else 0 }
    s.set h F.STOKE_STATUS_ACTIVE 0 1)

/-- A word of the transmit FIFO shifted out whole, or the idle word (R105). -/
def State.stokeShift (s : State) (x : Side) : State :=
  let r := s.src x 32
  let v := s.side x
  match r.rpl with
  | [] => s.setSide x { v with sdo := v.sdo ++ [idleWord] }
  | w :: t =>
    (s.setSide x { v with sdo := v.sdo ++ [w], stokeHead := if v.stokeHead = 0 then hdrCount w else v.stokeHead - 1 }).setSrc x 32
      { r with rpl := t }

/-- The words shifted out in the whole positions of a transaction: after the status word `live` positions from the transmit FIFO, then the
idle word; `n` positions in all (R105). -/
def State.stokeOut (s : State) (x : Side) (n live : Nat) : State :=
  let s := iter (fun s => s.stokeShift x) (min live n - 1) s
  let v := s.side x
  s.setSide x { v with sdo := (v.sdo ++ List.replicate n idleWord).take n }

/-- A finding of the port: its flag, its count and interrupt source 84 (R106 to R109). -/
def State.stokeFlag (s : State) (x : Side) (flag count : Fld) : State :=
  ((s.set (.side x) flag 0 1).inc (.side x) count 0).intr x 84

/-- The end of a transaction: what the next status word and STOKE_STATUS.LAST say (R104, R112). -/
def State.stokeEnd (s : State) (x : Side) (status reason : Nat) : State :=
  (s.setSide x { s.side x with stokeStatus := status, stokeReason := reason }).set (.side x) F.STOKE_STATUS_LAST 0 status

/-- A complete command transaction: the packet is the first `n` words of `ws` (R103, R107, R109). With surplus words behind a packet that
does not fit, both findings are counted and the status says REASON 1 (DESIGN CHOICE, log entry 82). -/
def State.stokePacket (s : State) (x : Side) (n : Nat) (ws : List Nat) : State :=
  let h := Holder.side x
  let surplus := ws.length - n
  let s := if surplus = 0 then s
    else (s.stokeFlag x F.STOKE_STATUS_OVERRUN F.STOKE_OVERRUN_COUNT).add h F.STOKE_OVERRUN_BITS 0 (40 * surplus)
  if s.credits x 32 < n then (s.stokeFlag x F.STOKE_STATUS_FULL F.STOKE_FULL_COUNT).stokeEnd x stOverrun 1
  else
    let r := s.src x 32
    let s := (s.setSrc x 32 { r with cmd := r.cmd ++ [Packet.ofWords (ws.take n) false] }).inc h F.STOKE_PACKETS_COUNT 0
    s.stokeEnd x (if surplus = 0 then stOk else stOverrun) 0

/-- The port judges the bit count and the packet of a transaction with the whole words `ws` and `extra` further bits (R103 to R109). A
transaction without an edge of SCLK has no first word: it is a read that ended OK (DESIGN CHOICE, log entry 82). -/
def State.stokeJudge (s : State) (x : Side) (ws : List Nat) (extra : Nat) : State :=
  let w := ws.headD idleWord
  let n := hdrCount w + 1
  if extra ≠ 0 then (s.stokeFlag x F.STOKE_STATUS_FRAGMENT F.STOKE_FRAGMENT_COUNT).stokeEnd x stFragment 0
  else if w = idleWord then s.stokeEnd x stOk 0
  else if ws.length < n then (s.stokeFlag x F.STOKE_STATUS_UNDERRUN F.STOKE_UNDERRUN_COUNT).stokeEnd x stUnderrun 0
  else s.stokePacket x n ws

/-- STOKE_CS_RISE (R103): the words of the transaction have shifted in, those of R105 out; with the port not enabled at the fall of CS_N
nothing happens. The manual does not say what a change of ENABLE between the two edges does: the fall decides (DESIGN CHOICE, log entry
82). -/
def execStokeCsRise (x : Side) (ws : List Word40) (extra : Fin 40) (s : State) : Out :=
  let h := Holder.side x
  ok (if ¬ s.is h F.STOKE_STATUS_ACTIVE 0 then s
  else
    let s := s.set h F.STOKE_STATUS_ACTIVE 0 0
    if (s.side x).sdo = [] then s
    else
      let l := ws.map (fun w => w.toNat)
      let w := l.headD idleWord
      ((s.stokeOut x l.length (if w = idleWord then l.length else hdrCount w + 1)).stokeJudge x l extra))

end Sys2Proof.Machine
end

