-- ==== Sys2Proof/Machine/Sys.lean ====
section
/-! DEFINITION. The packets of the SYS class but for the power state's (chapter 03 R89, R90). -/
namespace Sys2Proof.Machine
open Sys2Proof

/-- NOP (R89). -/
def execNop (x : Side) (s : State) : Out := ok (s.chromir x 0x000 (fun s j => s.done j stOk 0 []))

/-- The build number of the Chromir image in use on side `x` (R3). -/
def State.chromirBuild (s : State) (x : Side) : Nat :=
  (Config.chromirBuild (beNat (match s.imageInUse x 0x200 with
    | some a => s.imgDigest x a
    | none => []))).toNat

/-- The words of SYS_INFO (R89). -/
def State.infoWords (s : State) (x : Side) : List Nat :=
  let serial := Config.serial.toNat
  [s.chromirBuild x, serial % 2 ^ 40, serial / 2 ^ 40,
    s.get (.side x) F.CFG_MODE_ACTIVE 0 + s.heldOf x 15 * 2 ^ 12 + b2n (s.holds x 4) * 2 ^ 16 + b2n (s.side x).limp * 2 ^ 17]

/-- SYS_INFO (R89). -/
def execSysInfo (x : Side) (s : State) : Out := ok (s.chromir x 0x001 (fun s j => s.done j stOk 0 (s.infoWords x)))

/-- SYS_ECHO (R89): the parameter words unchanged; DETAIL echoes TARGET. -/
def execSysEcho (x : Side) (s : State) : Out := ok (s.chromir x 0x005 (fun s j => s.done j stOk j.pkt.target j.pkt.params))

/-- The unit that a TARGET of SYS_UNIT_RESET names on side `x` (R90). -/
def resetTarget (x : Side) (t : Nat) : Option UnitId :=
  if 0x010 ≤ t ∧ t < 0x016 then some (.can x (Fin.ofNat 6 (t - 0x010)))
  else if t = 0x020 then some (.dma x)
  else if t = 0x030 then some (.life x)
  else if 0x040 ≤ t ∧ t < 0x044 then some (dieUnit (t - 0x040))
  else if t = 0x050 then some .flue
  else none

/-- The token that a reset of a unit needs (R90). -/
def unitToken : UnitId → Option Nat
  | .grate d => some d
  | .flue => some 4
  | _ => none

/-- The reset of unit `u` by packet `j`: OK once the unit is ABSENT (R90). -/
def State.unitReset (s : State) (j : Job) (u : UnitId) : State :=
  if ¬ s.present u then s.doneAbsent j u
  else match unitToken u with
    | some 4 => if s.holds j.side 4 then (s.goAbsent u).done j stOk 0 [] else s.done j stMaster (s.masterDetail 4) []
    | some d => s.asMaster d j.side (fun s => (s.goAbsent u).done j stOk 0 []) (fun s => s.done j stMaster (s.masterDetail d) [])
    | none => (s.goAbsent u).done j stOk 0 []

/-- SYS_UNIT_RESET (R90). -/
def execSysUnitReset (x : Side) (s : State) : Out :=
  ok (s.chromir x 0x004 (fun s j =>
    match resetTarget x j.pkt.target with
    | some u => s.unitReset j u
    | none => s.done j stParam 0 []))

end Sys2Proof.Machine
end

