-- ==== Sys2Proof/Machine/Checks.lean ====
section
/-! DEFINITION. The Stoker's checks of a packet, in the order of chapter 03 R83: opcode, world, count, TARGET and parameter words, presence,
issuer, token and overlays. -/
namespace Sys2Proof.Machine
open Sys2Proof

/-! ## Check 5: TARGET and parameter words, by class -/

/-- Offences of a SYS packet (R89, R90). -/
def sysOffences (x : Side) (k : Packet) : List Offence :=
  if k.code = 0x002 then unassigned [ones 16] k.params 1 ++ need (decide (k.target < 4)) 0 0
  else if k.code = 0x004 then need (resetTarget x k.target).isSome 0 0
  else if k.code = 0x005 then []
  else need (decide (k.target = 0)) 0 0

/-- Offences of CH_CONFIG's words (R173, R194). -/
def configOffences (k : Packet) : List Offence :=
  let c := classOf k.target
  let lo := if c = 0 then 20 else if c = 1 then 5 else 1
  let hi := if c = 0 then 150 else if c = 1 then 40 else 10
  let p := k.p 2
  let policy := bits p 3 0
  unassigned [ones 40, ones 24] k.params 1 ++ need (decide (units lo ≤ sigInt (k.p 1) ∧ sigInt (k.p 1) ≤ units hi)) 1 0 ++
    need (decide (policy < 4)) 2 0 ++ need (!(policy == 1 && bits p 7 4 == 0)) 2 4 ++
    need (!(decide (1 ≤ policy ∧ policy ≤ 3) && bits p 23 8 == 0)) 2 8

/-- Offences of a packet of the grate class (R92). -/
def grateOffences (k : Packet) : List Offence :=
  need (decide (k.target < if k.code = 0x206 then 4 else 64)) 0 0 ++
    (if k.code = 0x201 then unassigned [0x1FF03] k.params 1 ++ setOffences (k.p 1) 1
     else if k.code = 0x202 then unassigned [0x7FFFFFFFF] k.params 1 ++ pwmOffences (k.p 1) 1 (classOf k.target)
     else if k.code = 0x203 then configOffences k
     else if k.code = 0x205 then unassigned [3] k.params 1
     else if k.code = 0x206 then unassigned [ones 16, ones 16] k.params 1
     else if k.code = 0x207 then
       unassigned [ones 7] k.params 1 ++ need (decide (1 ≤ bits (k.p 1) 6 0 ∧ bits (k.p 1) 6 0 ≤ 64)) 1 0
     else [])

/-- Offences of a harness record (R201, R202). -/
def harnessOffences (k : Packet) : List Offence :=
  let c := classOf k.target
  let lo := if c = 0 then 20 else if c = 1 then 5 else 1
  let hi := if c = 0 then 150 else if c = 1 then 40 else 10
  let top := if c = 0 then 2000 else 20000
  let w7 := k.p 7
  let w8 := k.p 8
  let theta (n : Nat) : Bool := decide (0 ≤ sigInt (k.p n) ∧ sigInt (k.p n) < sigInt (k.p 4))
  unassigned [ones 40, ones 40, ones 40, ones 40, ones 40, ones 40, ones 31, 0xFF1FFFFFFF] k.params 1 ++
    need (decide (units lo ≤ sigInt (k.p 1) ∧ sigInt (k.p 1) ≤ units hi)) 1 0 ++ need (decide (k.p 2 ≠ 0)) 2 0 ++
    need (decide (1 ≤ k.p 3 ∧ k.p 3 ≤ 109951163)) 3 0 ++ need (decide (0 < sigInt (k.p 4))) 4 0 ++ need (theta 5) 5 0 ++
    need (theta 6) 6 0 ++ need (decide (25 ≤ bits w7 14 0)) 7 0 ++
    need (decide (bits w7 14 0 ≤ bits w7 29 15 ∧ 25 ≤ bits w7 29 15 ∧ bits w7 29 15 ≤ top)) 7 15 ++ need (decide (5 ≤ bits w8 8 0)) 8 0 ++
    need (decide (bits w8 8 0 ≤ bits w8 17 9 ∧ bits w8 17 9 ≤ 500)) 8 9 ++ need (decide (bits w8 27 18 ≠ 0)) 8 18 ++
    need (bits w8 39 32 == harnessCrc k.params) 8 32

/-- Offences of a packet of the Damper class (R94). -/
def damperOffences (k : Packet) : List Offence :=
  if k.code = 0x301 then need (decide (k.target = 0)) 0 0
  else need (decide (k.target < 64)) 0 0 ++
    (if k.code = 0x302 then
      unassigned [0x1FFF0003] k.params 1 ++ need (decide (1 ≤ bits (k.p 1) 28 16 ∧ bits (k.p 1) 28 16 ≤ 5000)) 1 16
     else if k.code = 0x305 then harnessOffences k
     else [])

/-- Offences of a packet of the spark class (R95, R239). -/
def sparkOffences (k : Packet) : List Offence :=
  need (decide (k.target < 0x180)) 0 0 ++
    (if k.code = 0x401 then recordOffences k else if k.code = 0x402 then unassigned [1] k.params 1 else [])

/-- Offences of a packet of the CAN class (R96, R370, R388). -/
def canOffences (x : Side) (k : Packet) : List Offence :=
  need (decide (6 * x.num ≤ k.target ∧ k.target < 6 * x.num + 6)) 0 0 ++
    (if k.code = 0x501 then unassigned [ones 4] k.params 1 ++ need (decide (bits (k.p 1) 3 0 < 8)) 1 0
     else if k.code = 0x502 then
       unassigned [0xFF3, ones 30, ones 29, ones 5, ones 40, ones 24, ones 40, ones 24] k.params 1 ++
         need (decide (5 ≤ bits (k.p 1) 11 4 ∧ bits (k.p 1) 11 4 ≤ 50)) 1 4
     else if k.code = 0x504 then unassigned [ones 16] k.params 1 ++ need (decide (bits (k.p 1) 15 8 < 16)) 1 8
     else [])

/-- Offences of a packet of the NET class (R97, R352, R354). -/
def netOffences (k : Packet) : List Offence :=
  if k.code = 0x603 then
    unassigned [3] k.params 1 ++ need (decide (k.target = 0)) 0 0 ++ need (decide (bits (k.p 1) 1 0 ≠ 3)) 1 0
  else if k.code = 0x604 then
    let xpn := (k.p 1).testBit 4
    unassigned [0xFF1F, ones 40, ones 24, ones 32, ones 40, ones 24] k.params 1 ++ need (decide (k.target < 8)) 0 0 ++
      need (decide (k.p 2 ≠ 0) || (xpn && decide (k.p 3 ≠ 0))) 2 0 ++ need (!(xpn && k.p 4 == 0)) 4 0
  else if k.code = 0x605 then
    let d := bits (k.p 3) 4 0
    unassigned [ones 17, ones 17, ones 6] k.params 1 ++ need (decide (k.target < 2)) 0 0 ++
      need (decide (d < 17) && !(k.p 1).testBit d && !(k.p 2).testBit d) 3 0
  else need (decide (k.target = 0)) 0 0

/-- The offences of a packet (R66, R83 order 5, R513). -/
def State.offences (s : State) (x : Side) (k : Packet) : List Offence :=
  match k.code / 256 with
  | 0 => sysOffences x k
  | 1 => s.cfgOffences x k
  | 2 => grateOffences k
  | 3 => damperOffences k
  | 4 => sparkOffences k
  | 5 => canOffences x k
  | 6 => netOffences k
  | 7 => timeOffences k
  | 8 => s.worldOffences x k
  | 9 => s.cfgOffences x k
  | 10 => logOffences k
  | _ => s.sideOffences x k

/-! ## Checks 6 to 9 -/

/-- The unit with a boundary that a packet with a valid TARGET acts on, if any. NET_BYPASS_STATE has its own rule (R315). -/
def targetUnit (x : Side) (k : Packet) : Option UnitId :=
  match k.code / 256 with
  | 0 => if k.code = 0x004 then resetTarget x k.target else none
  | 2 => some (dieUnit (if k.code = 0x206 then k.target else k.target / 16))
  | 3 => if k.code = 0x301 then none else some (dieUnit (k.target / 16))
  | 4 => if 0x100 ≤ k.target then some .flue else none
  | 5 => some (.can x (Fin.ofNat 6 k.target))
  | 6 => if k.code = 0x603 then none else some .flue
  | 7 => if k.code = 0x703 ∨ k.code = 0x704 then none else some .flue
  | 11 => if (k.code = 0xB02 ∨ k.code = 0xB03) ∧ k.target < 4 then some (dieUnit k.target) else none
  | _ => none

/-- The world that owns the TARGET of an opcode whose issuer is the owner (R435). -/
def State.ownerOf (s : State) (x : Side) (k : Packet) : Nat :=
  match k.code / 256 with
  | 4 =>
    let (m, n) := ruleOf x k.target
    s.mq m F.SPK_RULE_CTRL_OWNER n
  | 5 => s.cg x F.CAN_CFG_OWNER (k.target % 6)
  | 7 => s.get (.side x) (if k.code = 0x703 then F.TPO_CTRL_OWNER else F.TCI_CFG_OWNER) k.target
  | _ => s.cq k.target F.CH_CFG2

/-- The issuer rule of R88; of a CH_GROUP_SET at least one selected channel is the world's (R93). -/
def State.mayIssue (s : State) (x : Side) (o : Op) (k : Packet) : Bool :=
  match o.issuer with
  | .any => true
  | .group => let sel := bits (k.p 1) 15 0; sel == 0 || s.groupDenied k.target sel k.world != sel
  | .zero => k.world == 0
  | .owner => s.ownerOf x k == k.world
  | .ownerOrZero => k.world == 0 || s.ownerOf x k == k.world

/-- The token that a packet needs (R90, R95, R97, R259). -/
def tokenOf (k : Packet) : Option Nat :=
  let c := k.code
  if c = 0x206 then some k.target
  else if c = 0x201 ∨ c = 0x202 ∨ c = 0x203 ∨ c = 0x205 ∨ c = 0x302 ∨ c = 0x305 then some (k.target / 16)
  else if c = 0x004 then (if 0x040 ≤ k.target ∧ k.target < 0x044 then some (k.target - 0x040) else if k.target = 0x050 then some 4 else none)
  else if c = 0x401 ∨ c = 0x402 then (if 0x100 ≤ k.target then some 4 else none)
  else if c = 0x602 ∨ c = 0x604 ∨ c = 0x605 then some 4
  else if c = 0x603 then (if bits (k.p 1) 1 0 = 0 then none else some 4)
  else none

/-- The refusal of a spark opcode by the gate `f` of the rule's matcher (R249). -/
def State.sparkGate (s : State) (x : Side) (k : Packet) (f : Fld) : Option Nat :=
  let m := (ruleOf x k.target).1
  let a := match m with
    | .side _ => 0x40050000
    | .flue => 0x56000000
  if s.mq m f 0 = 0 then some (s.gateDetail x a f.lo (fun v => v == 0)) else none

/-- The refusal of a CAN_MODE_SET by CAN_GATE (R371). -/
def State.canGate (s : State) (x : Side) (k : Packet) : Option Nat :=
  let c := k.target % 6
  let m := bits (k.p 1) 3 0
  if m = 0 ∨ (s.cg x F.CAN_GATE c).testBit m then none else some (s.gateDetail x (0x40060004 + 0x10000 * c) 0 (fun v => !v.testBit m))

/-- The DETAIL of REFUSED_MODE when an active overlay forbids the packet (R83 order 9, R121). -/
def State.overlayRefuses (s : State) (x : Side) (k : Packet) : Option Nat :=
  let c := k.code
  if c = 0x002 then s.stateRefused x k.target
  else if c = 0x104 then s.cfgGate x 1
  else if c = 0x105 then s.cfgGate x 0
  else if c = 0x902 then s.cfgGate x 2
  else if c = 0x305 then s.cfgGate x 3
  else if c = 0x401 then s.sparkGate x k F.SPK_GATE_WRITE
  else if c = 0x402 then (if (k.p 1).testBit 0 then s.sparkGate x k F.SPK_GATE_ENABLE else none)
  else if c = 0x501 then s.canGate x k
  else if c = 0x601 ∨ c = 0xB02 then s.claimGate x c
  else if c = 0x802 then s.worldGate x
  else none

/-- Check 3 of R83: the door's owner, or a world permitted at the Stoke port (R102). -/
def State.worldAllowed (s : State) (x : Side) (i w : Nat) : Bool :=
  if i < 32 then s.get (.side x) F.DOOR_OWNER_WORLD i == w else (s.get (.side x) F.STOKE_CFG_WORLD_MASK 0).testBit w

/-- Checks 6 to 9 of R83: status and DETAIL of the first that fails. A NET_BYPASS_STATE needs no token while Chromir answers it (R315). -/
def State.lateRefusal (s : State) (x : Side) (o : Op) (k : Packet) : Option (Nat × Nat) :=
  let gone := (targetUnit x k).bind (fun u => if s.present u then none else some (unitCode u))
  let lacks := (tokenOf k).bind (fun t =>
    if s.holds x t || s.claims x t || (k.code == 0x603 && !s.present .flue) then none else some (s.masterDetail t))
  match gone with
  | some u => some (stAbsent, u)
  | none =>
    if ¬ s.mayIssue x o k then some (stDenied, 1)
    else match lacks with
      | some d => some (stMaster, d)
      | none => (s.overlayRefuses x k).map (fun d => (stMode, d))

/-- Checks 2 to 9 of R83 on a packet of source `i`: status and DETAIL of the first that fails. -/
def State.refusal (s : State) (x : Side) (i : Nat) (k : Packet) : Option (Nat × Nat) :=
  match opOf k.code with
  | none => some (stOpcode, 0)
  | some o =>
    let n := k.params.length
    let c := o.counts k.target
    if ¬ s.worldAllowed x i k.world then some (stDenied, 0)
    else if n < c.1 ∨ c.2 < n then some (stLength, c.1 + c.2 * 32)
    else match offenceDetail (s.offences x k) with
      | some d => some (stParam, d)
      | none => s.lateRefusal x o k

end Sys2Proof.Machine
end

