-- ==== Sys2Proof/Machine/Stoker.lean ====
section
/-! DEFINITION. The Stoker (chapter 03 R75, R80 to R87): its takes, the replies of the grate links and the long operations, and its watchdog. -/
namespace Sys2Proof.Machine
open Sys2Proof

/-! ## The take (R75, R80 to R84) -/

/-- The CH_MEASURE packets of side `x` whose windows run (R195). -/
def State.measuring (s : State) (x : Side) : List Job :=
  (List.range 64).flatMap (fun c => ((s.chan c).measures.map (fun m => m.job)).filter (fun j => j.side = x))

/-- Source `i` has an outstanding grate-class packet in Chromir (R84). -/
def State.grateWaits (s : State) (x : Side) (i : Nat) : Bool :=
  ((s.side x).chromirQ ++ s.measuring x).any (fun j => j.src == i && j.pkt.code / 256 == 2)

/-- The Stoker of side `x` holds grate-class packets for die `d`: it claims the die's token, or hands it over in order (R264, R269). -/
def State.claimHolds (s : State) (x : Side) (d : Nat) : Bool :=
  s.claims x d || (s.claimPending d && s.holds x d && (s.tokState d == 4 || (s.die d).orderly))

/-- The head packet of source `i` stays: for want of reply words, or for the order of grate commands (R75, R84, R264). -/
def State.headStalls (s : State) (x : Side) (i : Nat) (k : Packet) : Bool :=
  decide ((s.src x i).room < reserveOf k.code) || (k.code / 256 == 2 && s.grateWaits x i) ||
    (k.code / 256 == 2 && (match grateDie k with
      | some d => s.claimHolds x d
      | none => false))

/-- Words on the grate link of side `x` to die `d` (R50). -/
def State.linkWords (s : State) (x : Side) (d : Nat) : Nat := (Tab.at [] (s.side x).links d).foldl (fun n j => n + j.pkt.length) 0

/-- The queue that the head packet needs has no room: Chromir's, unless Chromir answers BUSY_UPDATE, or the grate link's (R50, R82). -/
def State.passedOver (s : State) (x : Side) (k : Packet) : Bool :=
  match pathOf k.code with
  | .fast => match grateDie k with
    | some d => decide (32 < s.linkWords x d + k.length)
    | none => false
  | _ => !(s.side x).chromirDown && decide (48 ≤ (s.side x).chromirQ.length)

/-- The Stoker can take the head packet of source `i` (R80). -/
def State.canTake (s : State) (x : Side) (i : Nat) : Bool :=
  match (s.src x i).cmd with
  | k :: _ => !s.passedOver x k && !s.headStalls x i k
  | [] => false

/-- The round reaches source `i` before any other source with a packet to take; where the round stands is open after it has found nothing
to take (R80). -/
def State.inTurn (s : State) (x : Side) (i : Nat) : Bool :=
  let v := s.side x
  v.scanIdle || (List.range ((i + 33 - v.scan) % 33)).all (fun n => !s.canTake x ((v.scan + n) % 33))

/-- The round goes on behind source `i`, from which a packet was taken (R80). -/
def State.scanOn (s : State) (x : Side) (i : Nat) : State :=
  let idle := !(List.range 33).any (fun n => s.canTake x n)
  s.setSide x { s.side x with scan := (i + 1) % 33, scanIdle := idle }

/-- A stall of source `i`: shown, and counted once for the episode (R75). A hold for the order of grate commands sets STALL (R84) and is
counted like one for want of reply words (DESIGN CHOICE, log entry 14). -/
def State.stall (s : State) (x : Side) (i : Nat) : State :=
  if i < 32 ∧ ¬ s.is (.side x) F.DOOR_STATUS_STALL i then
    (s.set (.side x) F.DOOR_STATUS_STALL i 1).inc (.side x) F.DOOR_STALL_COUNT i
  else s

/-- The packet leaves the command FIFO of source `i`: STALL clears, a door counts it, and it gets its number (R75, R78). -/
def State.takeHead (s : State) (x : Side) (i : Nat) : State :=
  let r := s.src x i
  let s := s.setSrc x i { r with cmd := r.cmd.drop 1 }
  let s := s.setSide x { s.side x with takes := (s.side x).takes + 1 }
  let s := if s.pairDoor x = some i then s.pairGoOn x else s
  if i < 32 then (s.set (.side x) F.DOOR_STATUS_STALL i 0).inc (.side x) F.DOOR_TAKEN_COUNT i else s

/-- TAG_BUSY (R67): final for the refused packet, and without effect on the tag. -/
def State.tagBusy (s : State) (x : Side) (i : Nat) (k : Packet) : State :=
  let s := if i < 32 then s.inc (.side x) F.DOOR_TAG_BUSY_COUNT i else s
  s.enqueue x i [rplHeader (k.code / 256) stTagBusy k.tag k.world 0 (b2n (k.tag == 0xFF))]

/-- A packet that passed its checks goes its path: over the grate link, or into the Chromir queue, which a long operation leaves for the
background when it reaches its head (R80, R82). -/
def State.send (s : State) (x : Side) (j : Job) : State :=
  let v := s.side x
  match pathOf j.pkt.code with
  | .fast =>
    let d := (grateDie j.pkt).getD 0
    s.setSide x { v with links := Tab.put [] v.links d (Tab.at [] v.links d ++ [j]) }
  | _ => (s.setSide x { v with chromirQ := v.chromirQ ++ [j] }).longMove x

/-- The range of memory that a packet names for the Stoker to read (R428): its address and its length. -/
def namedRange (k : Packet) : Option (Nat × Nat) :=
  if k.code = 0x105 then some (k.p 1, max 1 (bits (k.p 2) 31 0))
  else if k.code = 0x804 ∧ k.target = 1 then some (k.p 1, 160)
  else none

/-- The ownership checker's refusal of the range that a packet names, which the packet's BAD_PARAM answers (R426, R428). -/
def State.rangeRefused (s : State) (x : Side) (k : Packet) : State :=
  match namedRange k with
  | some (a, n) =>
    if (inSram a n ∨ inDdr a n) ∧ ¬ s.wotRange x a n k.world 0 then (s.logFault x 0 15 9 k.world 8 false a).wotViolation x 9 k.world 0 a
    else s
  | none => s

/-- A packet whose tag is free: the tag is outstanding with its reservation, and the packet is refused or goes its path (R67, R75, R83,
R86). A packet that checks 2 to 9 refuse counts as taken into its path, one answered TAG_BUSY or BUSY_UPDATE does not (DESIGN CHOICE, log
entry 13). -/
def State.dispatch (s : State) (x : Side) (i : Nat) (j : Job) : State :=
  let r := s.src x i
  let s := s.setSrc x i { r with out := r.out ++ [⟨j.pkt.tag, j.seq, reserveOf j.pkt.code, j.pkt.world⟩] }
  let fast := pathOf j.pkt.code == .fast
  if ¬ fast ∧ (s.side x).chromirDown then (s.inc (.side x) F.STOKER_BUSY_UPDATE_COUNT 0).answer j stBusy 0 []
  else
    let s := s.inc (.side x) (if fast then F.STOKER_FAST_COUNT else F.STOKER_CHROMIR_COUNT) 0
    match s.refusal x i j.pkt with
    | some (status, detail) =>
      (if status = stAbsent then s.inc (.side x) F.FAB_PROXY_ABSENT 0 else if status = stParam then s.rangeRefused x j.pkt else s).answer j
        status detail []
    | none => s.send x j

/-- The Stoker takes the head packet `k` of source `i` (R80, R83). -/
def State.takePacket (s : State) (x : Side) (i : Nat) (k : Packet) : State :=
  let j : Job := ⟨x, i, (s.side x).takes, s.now, k⟩
  let busy := k.tag == 0xFF || (s.src x i).out.any (fun t => t.tag == k.tag)
  let s := s.takeHead x i
  if busy then s.tagBusy x i k else s.dispatch x i j

/-- STOKER_TAKE (R80): the round reaches a source, whose head packet is taken, stalls, or is passed over. -/
def execStokerTake (x : Side) (src : Fin 33) (s : State) : Out :=
  ok (match (s.src x src).cmd with
    | k :: _ =>
      if ¬ (s.up x ∧ (s.side x).taking) ∨ s.passedOver x k then s
      else if s.headStalls x src k then s.stall x src
      else if s.inTurn x src then (s.takePacket x src k).scanOn x src
      else s
    | [] => s)

/-! ## Replies -/

/-- GRATE_REPLY (R81): the next reply on the grate link enters its reply FIFO, and its credits return to the die (R48). -/
def execGrateReply (x : Side) (d : Fin 4) (s : State) : Out :=
  ok (match Tab.at [] (s.side x).rpls d with
    | r :: rest => ((s.setSide x { s.side x with rpls := Tab.put [] (s.side x).rpls d rest }).sendReplies x d 32).deliver r
    | [] => s)

/-- LONG_OPERATION_COMPLETE (R82): the running long operation's final reply enters the reply FIFO and the next one starts; an image takes
effect after the OK reply (R125). -/
def execLongOperationComplete (x : Side) (s : State) : Out :=
  let v := s.side x
  ok (match v.longReply with
    | some r =>
      let s := (s.setSide x { v with longQ := v.longQ.drop 1, longReply := none, longAt := s.now }).deliver r
      if r.job.pkt.code = 0x105 ∧ r.status = stOk then s.imageApply x r.job.pkt.target else s
    | none => s)

/-! ## The replacement of Chromir (R87) -/

/-- The load of Chromir ends: Chromir serves packets, and its long operation leaves the queue. -/
def State.updateEnd (s : State) (x : Side) : State :=
  let s := s.setSide x { s.side x with chromirDown := false, longQ := (s.side x).longQ.drop 1, longAt := s.now }
  (s.set (.side x) F.STOKER_STATE_UPDATING 0 0).set (.side x) F.STOKER_STATE_CHROMIR_READY 0 1

/-- The load that replaces Chromir, while it runs. -/
def State.updateJob (s : State) (x : Side) : Option Job :=
  if s.is (.side x) F.STOKER_STATE_UPDATING 0 then (s.side x).longQ.head? else none

/-- CHROMIR_READY (R87 step 3): the new Chromir announces readiness within 50 ms and sends the final OK of its load. -/
def execChromirReady (x : Side) (s : State) : Out :=
  ok (match s.updateJob x with
    | some j =>
      let b := s.freeBank x 0x200
      let version := s.imgVersion x (0x80100000 + b * 0x400000)
      let s := ((s.movePointer x 0x200 b version).imageApply x 0x200).updateEnd x
      s.answer j stOk 0 [version]
    | none => s)

/-- CHROMIR_REVERT (R87 step 4): no readiness within 50 ms; the previous build restarts. -/
def execChromirRevert (x : Side) (s : State) : Out :=
  ok (match s.updateJob x with
    | some j => ((((s.due ((s.side x).chromirDownAt + 50000000)).updateEnd x).answer j stCheck 0 []).log x 0x102 4 [])
    | none => s)

/-! ## The watchdog (R86) -/

/-- The packets of side `x` that wait for a commit (R119, R127). -/
def State.commitWaits (s : State) (x : Side) : List Job :=
  let v := s.side x
  v.modeReqs.map (fun q => q.1) ++ v.modeDone.map (fun q => q.1) ++ v.fieldReqs ++
    (match v.snap with
      | some q => q.modes.map (fun m => m.1) ++ q.fields
      | none => [])

/-- The packets under a bound, each with the instant at which it passes: an ordinary opcode 1 ms after its take, one that waits for its
commit among them, the running long operation at its own bound (R86). -/
def State.bounds (s : State) (x : Side) : List (Nat × Job) :=
  let v := s.side x
  (v.chromirQ.filter (fun j => !isLong j) ++ s.measuring x ++ v.claimReqs.map (fun q => q.1) ++ s.commitWaits x).map (fun j => (j.takenAt + 1000000, j)) ++
    (match v.longQ with
      | j :: _ => match pathOf j.pkt.code with
        | .long b => [(v.longAt + b, j)]
        | _ => []
      | [] => [])

/-- The first bound to pass. -/
def firstBound : List (Nat × Job) → Option (Nat × Job)
  | [] => none
  | b :: l => some (l.foldl (fun b c => if c.1 < b.1 then c else b) b)

/-- TIMEOUT to a packet: final and counted; what its target still answers is dropped. -/
def State.timeOut (s : State) (j : Job) : State :=
  let s := (s.inc (.side j.side) F.STOKER_TIMEOUT_COUNT 0).answer j stTimeout 0 []
  s.setSide j.side { s.side j.side with timedOut := j.seq :: (s.side j.side).timedOut }

/-- The ordinary opcodes, each with its execution in Chromir. -/
def chromirCodes : List (Nat × (Side → State → Out)) :=
  [(0x000, execNop), (0x001, execSysInfo), (0x002, execSysStateSet), (0x003, execSysStateGet), (0x004, execSysUnitReset), (0x005, execSysEcho),
   (0x101, execCfgModeSet), (0x102, execCfgModeGet), (0x103, execCfgFieldRead), (0x104, execCfgFieldWrite),
   (0x203, execChConfig), (0x205, execChClear), (0x207, execChMeasure),
   (0x301, execDmpStatus), (0x302, execDmpPrioritySet), (0x303, execDmpWireQuery), (0x304, execDmpHarnessRead),
   (0x401, execSpkRuleWrite), (0x402, execSpkRuleEnable), (0x403, execSpkRuleQuery), (0x404, execSpkStats),
   (0x501, execCanModeSet), (0x502, execCanWakeCfg), (0x503, execCanAwakeReport), (0x504, execCanSealKey)] ++
  [(0x601, execNetTokenClaim), (0x602, execNetTokenRelease), (0x603, execNetBypassState), (0x604, execNetSaInstall), (0x605, execNetMirrorSet),
   (0x701, execTimeStatus), (0x702, execTimeStepAccept), (0x703, execTimePulseSet), (0x704, execTimeCaptureRead), (0x705, execTimeServoSet),
   (0x801, execWldStatus), (0x802, execWldRestart), (0x803, execWldMeasureGet), (0x804, fun x s => execWldDebugUnlock x none none s),
   (0x901, execCalRead), (0xA01, execLogRead), (0xA02, execLogMark),
   (0xB01, execSideStatus), (0xB02, execSideClaim), (0xB03, execSideRelease), (0xB04, execSideMirrorSet), (0xB05, execSideReturnPolicy)]

/-- The state that an outcome answers, or `s`. -/
def outState (s : State) : Out → State
  | .next t => t
  | _ => s

/-- A long operation executed, with readbacks that match or not. A load of Chromir has no effect before Chromir is replaced. -/
def State.runLong (s : State) (x : Side) (j : Job) (a b : Bool) : State :=
  if j.pkt.code = 0x305 then outState s (execDmpHarnessBurn x a s)
  else if j.pkt.code = 0x902 then outState s (execCalWrite x a b s)
  else if j.pkt.code = 0x105 ∧ j.pkt.target ≠ 0x200 then
    let s := outState s (execCfgImageLoad x a none none s)
    match (s.side x).longReply with
    | some r => if r.status = stOk then s.imageApply x j.pkt.target else s
    | none => s
  else s

/-- After a TIMEOUT the effect of a packet that Chromir had not answered is undetermined: free bits say whether it came about, and how the
readbacks of a long operation went (R86). -/
def State.afterTimeout (s : State) (x : Side) (j : Job) : State :=
  let r := s.freeVal 3
  let s := s.took
  if r % 2 = 0 then s
  else
    let v := s.side x
    match pathOf j.pkt.code with
    | .long _ =>
      let s := (s.setSide x { v with longQ := [j], longReply := none }).runLong x j (r.testBit 1) (r.testBit 2)
      s.setSide x { s.side x with longQ := [], longReply := none }
    | _ =>
      match chromirCodes.find? (fun c => c.1 == j.pkt.code) with
      | some (_, f) =>
        let s := outState s (f x (s.setSide x { v with chromirQ := [j] }))
        s.setSide x { s.side x with chromirQ := [] }
      | none => s

/-- The CFG_MODE_SETs that have not reached a snapshot when Chromir restarts: a free bit says of each whether it still comes about. -/
def State.dropModes (s : State) (x : Side) : State :=
  s.each (s.side x).modeReqs (fun s q =>
    let gone := s.freeVal 1 == 1
    let s := s.took
    if gone then s.setSide x { s.side x with modeReqs := (s.side x).modeReqs.filter (fun r => r != q) } else s)

/-- Chromir restarts (R86): every packet that it held receives TIMEOUT; three restarts within 10 s end the side's health (R272). -/
def State.restartChromir (s : State) (x : Side) (b : Nat × Job) : State :=
  let s := s.due b.1
  let j := b.2
  let v := s.side x
  let ran := v.longReply.isSome
  let queued := v.chromirQ ++ (if ran then v.longQ.drop 1 else v.longQ)
  let held := v.chromirQ ++ v.longQ ++ s.measuring x ++ v.claimReqs.map (fun q => q.1) ++ s.commitWaits x
  let s := s.log x 0x100 4 [.nar 12 j.pkt.code, .nar 8 j.pkt.tag]
  let s := s.each (j :: (held.filter (fun k => k != j)).eraseDups) State.timeOut
  let s := s.each (List.range 64) (fun s c =>
    s.setChan c { s.chan c with measures := (s.chan c).measures.filter (fun m => m.job.side ≠ x) })
  let s := s.setSide x { s.side x with chromirQ := [], longQ := [], longReply := none, claimReqs := [] }
  let s := (s.each queued (fun s k => s.afterTimeout x k)).dropModes x
  let times := s.now :: (s.side x).chromirTimeouts.filter (fun t => decide (s.now < t + 10000000000))
  let s := s.setSide x { s.side x with chromirDown := true, chromirDownAt := s.now, chromirTimeouts := times }
  let s := (s.set (.side x) F.STOKER_STATE_RESTARTING 0 1).set (.side x) F.STOKER_STATE_CHROMIR_READY 0 0
  if 3 ≤ times.length then s.sideDown x 2 else s

/-- CHROMIR_TIMEOUT (R86): a packet passes its bound; a claim is answered with the tokens held at that instant (R269). -/
def execChromirTimeout (x : Side) (s : State) : Out :=
  ok (if s.up x ∧ ¬ (s.side x).chromirDown then
    match firstBound (s.bounds x) with
    | some b => if (s.side x).claimReqs.any (fun q => q.1 == b.2) then (s.due b.1).claimReplies x else s.restartChromir x b
    | none => s
  else s)

/-- CHROMIR_RESTART_DONE (R86). -/
def execChromirRestartDone (x : Side) (s : State) : Out :=
  let h := Holder.side x
  ok (if s.is h F.STOKER_STATE_RESTARTING 0 then
    let s := s.setSide x { s.side x with chromirDown := false }
    (s.set h F.STOKER_STATE_RESTARTING 0 0).set h F.STOKER_STATE_CHROMIR_READY 0 1
  else s)

/-- GRATE_TIMEOUT (R86): the first fast-path packet of side `x` at die `d` without a reply 20 us after it left on the link, which it did in
the slot of its take (DESIGN CHOICE, log entry 18), receives TIMEOUT; its effect is
undetermined: a free bit says whether a packet still on the link reaches the die. -/
def execGrateTimeout (x : Side) (d : Fin 4) (s : State) : Out :=
  let v := s.side x
  let link := Tab.at [] v.links d
  let late (j : Job) : Bool := (s.src x j.src).out.any (fun t => t.seq == j.seq && t.room == reserveOf j.pkt.code)
  let back := ((Tab.at [] v.rpls d ++ Tab.at [] (s.die d).out x.num).map (fun r => r.job)).filter late
  ok (match (back ++ link.filter late).head? with
    | some j =>
      let s := s.due (j.takenAt + 20000)
      let lost := s.freeVal 1 == 1
      let s := s.took
      let s := if lost then s.setSide x { s.side x with links := Tab.put [] v.links d (link.filter (fun k => k != j)) } else s
      (s.log x 0x101 4 [.nar 12 j.pkt.code, .nar 8 j.pkt.tag]).timeOut j
    | none => s)

end Sys2Proof.Machine
end

