-- ==== Sys2Proof/Machine/Dispatch.lean ====
section
/-! DEFINITION. The meaning of each command: one direct call for each constructor. -/
namespace Sys2Proof.Machine
open Sys2Proof

/-- The effect of a command on everything but the queue of waiting commands. -/
def exec (i : Instr) (s : State) : Host.Outcome State Fault Refusal :=
  match i with
  | .nop x => Sys2Proof.Machine.execNop x s
  | .sysInfo x => Sys2Proof.Machine.execSysInfo x s
  | .sysStateSet x => Sys2Proof.Machine.execSysStateSet x s
  | .sysStateGet x => Sys2Proof.Machine.execSysStateGet x s
  | .sysUnitReset x => Sys2Proof.Machine.execSysUnitReset x s
  | .sysEcho x => Sys2Proof.Machine.execSysEcho x s
  | .cfgModeSet x => Sys2Proof.Machine.execCfgModeSet x s
  | .cfgModeGet x => Sys2Proof.Machine.execCfgModeGet x s
  | .cfgFieldRead x => Sys2Proof.Machine.execCfgFieldRead x s
  | .cfgFieldWrite x => Sys2Proof.Machine.execCfgFieldWrite x s
  | .cfgImageLoad x good lost corr => Sys2Proof.Machine.execCfgImageLoad x good lost corr s
  | .cfgImageVerify x => Sys2Proof.Machine.execCfgImageVerify x s
  | .chSet x d => Sys2Proof.Machine.execChSet x d s
  | .chPwm x d => Sys2Proof.Machine.execChPwm x d s
  | .chConfig x => Sys2Proof.Machine.execChConfig x s
  | .chQuery x d => Sys2Proof.Machine.execChQuery x d s
  | .chClear x => Sys2Proof.Machine.execChClear x s
  | .chGroupSet x d => Sys2Proof.Machine.execChGroupSet x d s
  | .chMeasure x => Sys2Proof.Machine.execChMeasure x s
  | .chMeasureWindowEnd d n => Sys2Proof.Machine.execChMeasureWindowEnd d n s
  | .dmpStatus x => Sys2Proof.Machine.execDmpStatus x s
  | .dmpPrioritySet x => Sys2Proof.Machine.execDmpPrioritySet x s
  | .dmpWireQuery x => Sys2Proof.Machine.execDmpWireQuery x s
  | .dmpHarnessRead x => Sys2Proof.Machine.execDmpHarnessRead x s
  | .dmpHarnessBurn x good => Sys2Proof.Machine.execDmpHarnessBurn x good s
  | .spkRuleWrite x => Sys2Proof.Machine.execSpkRuleWrite x s
  | .spkRuleEnable x => Sys2Proof.Machine.execSpkRuleEnable x s
  | .spkRuleQuery x => Sys2Proof.Machine.execSpkRuleQuery x s
  | .spkStats x => Sys2Proof.Machine.execSpkStats x s
  | .canModeSet x => Sys2Proof.Machine.execCanModeSet x s
  | .canWakeCfg x => Sys2Proof.Machine.execCanWakeCfg x s
  | .canAwakeReport x => Sys2Proof.Machine.execCanAwakeReport x s
  | .canSealKey x => Sys2Proof.Machine.execCanSealKey x s
  | .netTokenClaim x => Sys2Proof.Machine.execNetTokenClaim x s
  | .netTokenRelease x => Sys2Proof.Machine.execNetTokenRelease x s
  | .netBypassState x => Sys2Proof.Machine.execNetBypassState x s
  | .netSaInstall x => Sys2Proof.Machine.execNetSaInstall x s
  | .netMirrorSet x => Sys2Proof.Machine.execNetMirrorSet x s
  | .timeStatus x => Sys2Proof.Machine.execTimeStatus x s
  | .timeStepAccept x => Sys2Proof.Machine.execTimeStepAccept x s
  | .timePulseSet x => Sys2Proof.Machine.execTimePulseSet x s
  | .timeCaptureRead x => Sys2Proof.Machine.execTimeCaptureRead x s
  | .timeServoSet x => Sys2Proof.Machine.execTimeServoSet x s
  | .wldStatus x => Sys2Proof.Machine.execWldStatus x s
  | .wldRestart x => Sys2Proof.Machine.execWldRestart x s
  | .wldMeasureGet x => Sys2Proof.Machine.execWldMeasureGet x s
  | .wldDebugUnlock x lost corr => Sys2Proof.Machine.execWldDebugUnlock x lost corr s
  | .calRead x => Sys2Proof.Machine.execCalRead x s
  | .calWrite x goodA goodB => Sys2Proof.Machine.execCalWrite x goodA goodB s
  | .logRead x => Sys2Proof.Machine.execLogRead x s
  | .logMark x => Sys2Proof.Machine.execLogMark x s
  | .sideStatus x => Sys2Proof.Machine.execSideStatus x s
  | .sideClaim x => Sys2Proof.Machine.execSideClaim x s
  | .sideRelease x => Sys2Proof.Machine.execSideRelease x s
  | .sideMirrorSet x => Sys2Proof.Machine.execSideMirrorSet x s
  | .sideReturnPolicy x => Sys2Proof.Machine.execSideReturnPolicy x s
  | .doorCmdWrite x o n w => Sys2Proof.Machine.execDoorCmdWrite x o n w s
  | .doorCmdHiWrite x o n v => Sys2Proof.Machine.execDoorCmdHiWrite x o n v s
  | .doorCmdLoWrite x o n v => Sys2Proof.Machine.execDoorCmdLoWrite x o n v s
  | .doorRplRead x o n => Sys2Proof.Machine.execDoorRplRead x o n s
  | .doorRplHiRead x o n => Sys2Proof.Machine.execDoorRplHiRead x o n s
  | .doorFlush x o n => Sys2Proof.Machine.execDoorFlush x o n s
  | .stokerTake x src => Sys2Proof.Machine.execStokerTake x src s
  | .grateReply x d => Sys2Proof.Machine.execGrateReply x d s
  | .longOperationComplete x => Sys2Proof.Machine.execLongOperationComplete x s
  | .chromirTimeout x => Sys2Proof.Machine.execChromirTimeout x s
  | .chromirRestartDone x => Sys2Proof.Machine.execChromirRestartDone x s
  | .grateTimeout x d => Sys2Proof.Machine.execGrateTimeout x d s
  | .chromirReady x => Sys2Proof.Machine.execChromirReady x s
  | .chromirRevert x => Sys2Proof.Machine.execChromirRevert x s
  | .stokeCsFall x => Sys2Proof.Machine.execStokeCsFall x s
  | .stokeCsRise x ws extra => Sys2Proof.Machine.execStokeCsRise x ws extra s
  | .intrClaim x o w => Sys2Proof.Machine.execIntrClaim x o w s
  | .dmaGo x o n v => Sys2Proof.Machine.execDmaGo x o n v s
  | .dmaCopyDone x n lost corr => Sys2Proof.Machine.execDmaCopyDone x n lost corr s
  | .unitAbsent u => Sys2Proof.Machine.execUnitAbsent u s
  | .unitReady u => Sys2Proof.Machine.execUnitReady u s
  | .grateSampleTick d smp feed => Sys2Proof.Machine.execGrateSampleTick d smp feed s
  | .measurementArrival x prod => Sys2Proof.Machine.execMeasurementArrival x prod s
  | .sampleGap x d tick => Sys2Proof.Machine.execSampleGap x d tick s
  | .ainSample x codes => Sys2Proof.Machine.execAinSample x codes s
  | .dinEdge x n level => Sys2Proof.Machine.execDinEdge x n level s
  | .wireModelStep d => Sys2Proof.Machine.execWireModelStep d s
  | .budgetExchange coolant pLogic silent => Sys2Proof.Machine.execBudgetExchange coolant pLogic silent s
  | .holdExpiry d n => Sys2Proof.Machine.execHoldExpiry d n s
  | .budgetOverTime b => Sys2Proof.Machine.execBudgetOverTime b s
  | .derateAssert => Sys2Proof.Machine.execDerateAssert s
  | .derateEnd => Sys2Proof.Machine.execDerateEnd s
  | .rideAssert d => Sys2Proof.Machine.execRideAssert d s
  | .rideEnd d => Sys2Proof.Machine.execRideEnd d s
  | .emberLowFeedAssert f => Sys2Proof.Machine.execEmberLowFeedAssert f s
  | .emberLowFeedClear => Sys2Proof.Machine.execEmberLowFeedClear s
  | .turnOnComplete d n => Sys2Proof.Machine.execTurnOnComplete d n s
  | .limitEntry d n => Sys2Proof.Machine.execLimitEntry d n s
  | .limitExit d n => Sys2Proof.Machine.execLimitExit d n s
  | .inrushTimeout d n => Sys2Proof.Machine.execInrushTimeout d n s
  | .tsdEntry d n => Sys2Proof.Machine.execTsdEntry d n s
  | .tsdExit d n => Sys2Proof.Machine.execTsdExit d n s
  | .reverseCurrent d n => Sys2Proof.Machine.execReverseCurrent d n s
  | .measSelfCheck d n pass => Sys2Proof.Machine.execMeasSelfCheck d n pass s
  | .retryAttempt d n => Sys2Proof.Machine.execRetryAttempt d n s
  | .retriesClear d n => Sys2Proof.Machine.execRetriesClear d n s
  | .feedBusAbsent d reversed => Sys2Proof.Machine.execFeedBusAbsent d reversed s
  | .feedBusReturn d => Sys2Proof.Machine.execFeedBusReturn d s
  | .feedReturnTurnOn d => Sys2Proof.Machine.execFeedReturnTurnOn d s
  | .feedOvervoltage d high => Sys2Proof.Machine.execFeedOvervoltage d high s
  | .pwmPeriodStart d n => Sys2Proof.Machine.execPwmPeriodStart d n s
  | .pwmOffEdge d n => Sys2Proof.Machine.execPwmOffEdge d n s
  | .sparkSourceEvent m => Sys2Proof.Machine.execSparkSourceEvent m s
  | .sparkActionArrival m d => Sys2Proof.Machine.execSparkActionArrival m d s
  | .sparkAnswer m d => Sys2Proof.Machine.execSparkAnswer m d s
  | .commitTick x unready => Sys2Proof.Machine.execCommitTick x unready s
  | .vacantClaim x => Sys2Proof.Machine.execVacantClaim x s
  | .calLateRepair => Sys2Proof.Machine.execCalLateRepair s
  | .heartbeat x lanes => Sys2Proof.Machine.execHeartbeat x lanes s
  | .tokenLapse t => Sys2Proof.Machine.execTokenLapse t s
  | .tokenResumed t => Sys2Proof.Machine.execTokenResumed t s
  | .autoClaim x t => Sys2Proof.Machine.execAutoClaim x t s
  | .handoverWindowClose d => Sys2Proof.Machine.execHandoverWindowClose d s
  | .orderlyRelease t => Sys2Proof.Machine.execOrderlyRelease t s
  | .crossPulse x arrives healthy => Sys2Proof.Machine.execCrossPulse x arrives healthy s
  | .peerLost x => Sys2Proof.Machine.execPeerLost x s
  | .crossLost x => Sys2Proof.Machine.execCrossLost x s
  | .crossRestored x => Sys2Proof.Machine.execCrossRestored x s
  | .sideDown x => Sys2Proof.Machine.execSideDown x s
  | .grateLinkLost x d => Sys2Proof.Machine.execGrateLinkLost x d s
  | .returnHome t => Sys2Proof.Machine.execReturnHome t s
  | .mirrorCheckpoint x => Sys2Proof.Machine.execMirrorCheckpoint x s
  | .sideCkptGo x o v => Sys2Proof.Machine.execSideCkptGo x o v s
  | .pairOutHiWrite x o v => Sys2Proof.Machine.execPairOutHiWrite x o v s
  | .pairOutLoWrite x o v bad => Sys2Proof.Machine.execPairOutLoWrite x o v bad s
  | .pairOutTimeout x => Sys2Proof.Machine.execPairOutTimeout x s
  | .pairSigHiWrite x o v => Sys2Proof.Machine.execPairSigHiWrite x o v s
  | .pairSigLoWrite x o v bad => Sys2Proof.Machine.execPairSigLoWrite x o v bad s
  | .pairSigTimeout x => Sys2Proof.Machine.execPairSigTimeout x s
  | .pairRplHiRead x o => Sys2Proof.Machine.execPairRplHiRead x o s
  | .bridgePoll x n arrives => Sys2Proof.Machine.execBridgePoll x n arrives s
  | .bridgeSplit x n ref => Sys2Proof.Machine.execBridgeSplit x n ref s
  | .bridgeTimeout x n ref => Sys2Proof.Machine.execBridgeTimeout x n ref s
  | .bridgeAnswer x n ref ecc => Sys2Proof.Machine.execBridgeAnswer x n ref ecc s
  | .bridgeAtGo x o v => Sys2Proof.Machine.execBridgeAtGo x o v s
  | .bridgeAtDone x h ecc => Sys2Proof.Machine.execBridgeAtDone x h ecc s
  | .bridgeLockAcquire x o v => Sys2Proof.Machine.execBridgeLockAcquire x o v s
  | .bridgeLockGrant x h => Sys2Proof.Machine.execBridgeLockGrant x h s
  | .bridgeLockRelease x o v => Sys2Proof.Machine.execBridgeLockRelease x o v s
  | .bridgeLockBroken x h => Sys2Proof.Machine.execBridgeLockBroken x h s
  | .bridgeLockGrantTimeout x h => Sys2Proof.Machine.execBridgeLockGrantTimeout x h s
  | .bridgeLockRead x o => Sys2Proof.Machine.execBridgeLockRead x o s
  | .bridgeSwi x o v => Sys2Proof.Machine.execBridgeSwi x o v s
  | .sysStateDelayEnd => Sys2Proof.Machine.execSysStateDelayEnd s
  | .powerOn => Sys2Proof.Machine.execPowerOn s
  | .wakeKl15 => Sys2Proof.Machine.execWakeKl15 s
  | .wakeLoc n => Sys2Proof.Machine.execWakeLoc n s
  | .rtcAlarm => Sys2Proof.Machine.execRtcAlarm s
  | .canWakePattern k => Sys2Proof.Machine.execCanWakePattern k s
  | .canWakeFrame k fr => Sys2Proof.Machine.execCanWakeFrame k fr s
  | .canFrameErrWake k => Sys2Proof.Machine.execCanFrameErrWake k s
  | .tc10WakePulse p => Sys2Proof.Machine.execTc10WakePulse p s
  | .powerGood g bad test => Sys2Proof.Machine.execPowerGood g bad test s
  | .powerGoodTimeout g => Sys2Proof.Machine.execPowerGoodTimeout g s
  | .wakeBlockEnd kl15 loc => Sys2Proof.Machine.execWakeBlockEnd kl15 loc s
  | .crystalTimeout x => Sys2Proof.Machine.execCrystalTimeout x s
  | .pllLock x calOk mode => Sys2Proof.Machine.execPllLock x calOk mode s
  | .stokerReady x => Sys2Proof.Machine.execStokerReady x s
  | .worldImageVerified x w => Sys2Proof.Machine.execWorldImageVerified x w s
  | .flueRefCheck present ext => Sys2Proof.Machine.execFlueRefCheck present ext s
  | .flueRefLoss => Sys2Proof.Machine.execFlueRefLoss s
  | .confirmation c => Sys2Proof.Machine.execConfirmation c s
  | .confirmWindowEnd => Sys2Proof.Machine.execConfirmWindowEnd s
  | .litEntry x => Sys2Proof.Machine.execLitEntry x s
  | .bankTimeLimit => Sys2Proof.Machine.execBankTimeLimit s
  | .sleepStart => Sys2Proof.Machine.execSleepStart s
  | .sleepDrainComplete => Sys2Proof.Machine.execSleepDrainComplete s
  | .sleepArm kl15 loc => Sys2Proof.Machine.execSleepArm kl15 loc s
  | .feedLoss f => Sys2Proof.Machine.execFeedLoss f s
  | .feedReturn f => Sys2Proof.Machine.execFeedReturn f s
  | .emberOvervoltage f => Sys2Proof.Machine.execEmberOvervoltage f s
  | .emberFeedSample va vb => Sys2Proof.Machine.execEmberFeedSample va vb s
  | .sideResetAssert x => Sys2Proof.Machine.execSideResetAssert x s
  | .sideResetRelease x => Sys2Proof.Machine.execSideResetRelease x s
  | .gateCall x h insn pc priv virt => Sys2Proof.Machine.execGateCall x h insn pc priv virt s
  | .gateLand x h insn pc => Sys2Proof.Machine.execGateLand x h insn pc s
  | .gateRet x h insn pc => Sys2Proof.Machine.execGateRet x h insn pc s
  | .worldWatchdog x w => Sys2Proof.Machine.execWorldWatchdog x w s
  | .wldKick x o w v => Sys2Proof.Machine.execWldKick x o w v s
  | .worldReady x w => Sys2Proof.Machine.execWorldReady x w s
  | .wotSyncGo x o v => Sys2Proof.Machine.execWotSyncGo x o v s
  | .wotSyncComplete x => Sys2Proof.Machine.execWotSyncComplete x s
  | .securityLockdown x => Sys2Proof.Machine.execSecurityLockdown x s
  | .wotSecClear x o v => Sys2Proof.Machine.execWotSecClear x o v s
  | .keysInstall x o slot => Sys2Proof.Machine.execKeysInstall x o slot s
  | .keysBurn x o slot => Sys2Proof.Machine.execKeysBurn x o slot s
  | .keysRevoke x o slot => Sys2Proof.Machine.execKeysRevoke x o slot s
  | .keysErase x o slot => Sys2Proof.Machine.execKeysErase x o slot s
  | .keysCmac x o slot => Sys2Proof.Machine.execKeysCmac x o slot s
  | .keysSign x o slot => Sys2Proof.Machine.execKeysSign x o slot s
  | .keysVerify x o slot => Sys2Proof.Machine.execKeysVerify x o slot s
  | .keysPublic x o slot => Sys2Proof.Machine.execKeysPublic x o slot s
  | .keysOpComplete x lost corr => Sys2Proof.Machine.execKeysOpComplete x lost corr s
  | .pokerRelock x o v => Sys2Proof.Machine.execPokerRelock x o v s
  | .pokerUnlockExpiry x => Sys2Proof.Machine.execPokerUnlockExpiry x s
  | .tallyBoundary x => Sys2Proof.Machine.execTallyBoundary x s
  | .perfCounterWrap x e => Sys2Proof.Machine.execPerfCounterWrap x e s
  | .perfCntRead x o n => Sys2Proof.Machine.execPerfCntRead x o n s
  | .ashSelWrite x o v => Sys2Proof.Machine.execAshSelWrite x o v s
  | .frameReceive p f others parts => Sys2Proof.Machine.execFrameReceive p f others parts s
  | .egressSelect p lost corr => Sys2Proof.Machine.execEgressSelect p lost corr s
  | .netifTxKick x o v lost corr => Sys2Proof.Machine.execNetifTxKick x o v lost corr s
  | .fdbAgeing => Sys2Proof.Machine.execFdbAgeing s
  | .fdbInsertStatic x o => Sys2Proof.Machine.execFdbInsertStatic x o s
  | .fdbDelete x o => Sys2Proof.Machine.execFdbDelete x o s
  | .fdbLookup x o => Sys2Proof.Machine.execFdbLookup x o s
  | .fdbFlushAll x o => Sys2Proof.Machine.execFdbFlushAll x o s
  | .fdbFlushPort x o p => Sys2Proof.Machine.execFdbFlushPort x o p s
  | .cbsUpdate => Sys2Proof.Machine.execCbsUpdate s
  | .tasCycleStart p => Sys2Proof.Machine.execTasCycleStart p s
  | .frerReset n => Sys2Proof.Machine.execFrerReset n s
  | .linkChange l up => Sys2Proof.Machine.execLinkChange l up s
  | .tc10SleepRequest p => Sys2Proof.Machine.execTc10SleepRequest p s
  | .portSleepReq x o p => Sys2Proof.Machine.execPortSleepReq x o p s
  | .tc10SleepTimeout p accepted => Sys2Proof.Machine.execTc10SleepTimeout p accepted s
  | .portWake x o p => Sys2Proof.Machine.execPortWake x o p s
  | .tc10PartnerWake p => Sys2Proof.Machine.execTc10PartnerWake p s
  | .bypassClose => Sys2Proof.Machine.execBypassClose s
  | .bypassOpen => Sys2Proof.Machine.execBypassOpen s
  | .keepaliveMiss => Sys2Proof.Machine.execKeepaliveMiss s
  | .bypassSelftest p pass => Sys2Proof.Machine.execBypassSelftest p pass s
  | .bypSenseChange x => Sys2Proof.Machine.execBypSenseChange x s
  | .lifeTxGo x o v => Sys2Proof.Machine.execLifeTxGo x o v s
  | .lifeTxDone x => Sys2Proof.Machine.execLifeTxDone x s
  | .lifeRxFrame x f => Sys2Proof.Machine.execLifeRxFrame x f s
  | .lifeRxRelease x o v => Sys2Proof.Machine.execLifeRxRelease x o v s
  | .hvilWindow x amps volts => Sys2Proof.Machine.execHvilWindow x amps volts s
  | .ptpSyncRx d p msg => Sys2Proof.Machine.execPtpSyncRx d p msg s
  | .syncTimeout d => Sys2Proof.Machine.execSyncTimeout d s
  | .gmChange d l => Sys2Proof.Machine.execGmChange d l s
  | .ptpSyncTx d p stage => Sys2Proof.Machine.execPtpSyncTx d p stage s
  | .pdelayExchange p resp => Sys2Proof.Machine.execPdelayExchange p resp s
  | .timeLinkMessage x => Sys2Proof.Machine.execTimeLinkMessage x s
  | .timeLinkLost x => Sys2Proof.Machine.execTimeLinkLost x s
  | .timeNsRead x o d => Sys2Proof.Machine.execTimeNsRead x o d s
  | .tpoEdge x n => Sys2Proof.Machine.execTpoEdge x n s
  | .tciCapture x n rising => Sys2Proof.Machine.execTciCapture x n rising s
  | .canFrameRx k f age ecc => Sys2Proof.Machine.execCanFrameRx k f age ecc s
  | .canTxSet x o k v => Sys2Proof.Machine.execCanTxSet x o k v s
  | .canTxCancel x o k v => Sys2Proof.Machine.execCanTxCancel x o k v s
  | .canTxTake k ecc => Sys2Proof.Machine.execCanTxTake k ecc s
  | .canTxEnd k r n => Sys2Proof.Machine.execCanTxEnd k r n s
  | .canRxqAck x o k q v => Sys2Proof.Machine.execCanRxqAck x o k q v s
  | .canShadowLoad x o k v => Sys2Proof.Machine.execCanShadowLoad x o k v s
  | .canShadowStore x o k v => Sys2Proof.Machine.execCanShadowStore x o k v s
  | .canShadowDone k b => Sys2Proof.Machine.execCanShadowDone k b s
  | .canTtCycleStart k idle => Sys2Proof.Machine.execCanTtCycleStart k idle s
  | .canTtWindowStart k w idle => Sys2Proof.Machine.execCanTtWindowStart k w idle s
  | .refLost k => Sys2Proof.Machine.execRefLost k s
  | .canRecoveryStart k => Sys2Proof.Machine.execCanRecoveryStart k s
  | .canRecoveryComplete k => Sys2Proof.Machine.execCanRecoveryComplete k s
  | .canModeApply k => Sys2Proof.Machine.execCanModeApply k s
  | .registerWrite x o addr wd k v es => Sys2Proof.Machine.execRegisterWrite x o addr wd k v es s
  | .emberPowerLoss => Sys2Proof.Machine.execEmberPowerLoss s
  | .eccScrub x corr bad => Sys2Proof.Machine.execEccScrub x corr bad s
  | .checkpointComplete x lost corr => Sys2Proof.Machine.execCheckpointComplete x lost corr s
  | .canErrorFlag k code heavy => Sys2Proof.Machine.execCanErrorFlag k code heavy s
  | .pokerHalt x h act => Sys2Proof.Machine.execPokerHalt x h act s

end Sys2Proof.Machine
end

