-- ==== Sys2Proof/Safety.lean ====
section
/-! DEFINITION. The terms that statements use: what a sound state is, what every step keeps, the frame of a command (which register
fields, which bytes it may change), and what it means that a packet waits in Chromir, that its tag is open, and that its reply has
entered its FIFO. -/
namespace Sys2Proof.Machine
open Sys2Proof

/-! ## Sound states -/

/-- The canonical form of a memory: addresses strictly rising, and no entry equal to what an unlisted address reads as. -/
abbrev Memory.wf (m : List Host.Cell) : Prop := Tab.Wf memDefault id m

/-- Memory is in its canonical form. -/
abbrev State.MemWf (s : State) : Prop := Memory.wf s.mem

/-- The register fields are in their canonical form. -/
abbrev State.RegsWf (s : State) : Prop := Tab.Wf FKey.rst FKey.code s.regs

/-- A sound state: equal memories are equal data, and so are equal register contents. -/
abbrev State.Sound (s : State) : Prop := s.MemWf ∧ s.RegsWf

/-- What every effect keeps between a state and a later one. -/
def Kept (s t : State) : Prop :=
  t.pending = s.pending ∧ s.now ≤ t.now ∧ s.free ≤ t.free ∧ (s.MemWf → t.MemWf) ∧ (s.RegsWf → t.RegsWf)

/-! ## Frames -/

/-- A field of a register: its holder, the field, its index. -/
abbrev Spot := Holder × Fld × Nat

/-- Every register field of every holder, but those listed, reads as before. -/
def Only (l : List Spot) (s t : State) : Prop :=
  ∀ h f i, (∀ p ∈ l, f.key h i ≠ p.2.1.key p.1 p.2.2) → t.get h f i = s.get h f i

/-- Every byte of both sides' memory reads as before. -/
def MemSame (s t : State) : Prop := ∀ x a, t.byte x a = s.byte x a

/-- Every part of the state but the register fields and what side `x` holds besides them is as before. -/
def SideOnly (x : Side) (s t : State) : Prop :=
  t.now = s.now ∧ t.free = s.free ∧ t.resp = s.resp ∧ t.mem = s.mem ∧ t.ember = s.ember ∧ t.side x.other = s.side x.other ∧
  t.flue = s.flue ∧ t.dies = s.dies ∧ t.chans = s.chans ∧ t.absent = s.absent

/-! ## Packets -/

/-- The packet's tag is outstanding at its source, and the source is not the PAIR unit's door (R75, R282). -/
abbrev State.Open (s : State) (j : Job) : Prop :=
  (s.src j.side j.src).out.any (fun t => t.seq == j.seq) = true ∧ s.pairDoor j.side ≠ some j.src

/-- The final reply to packet `j` has entered its FIFO whole behind what stood there, its tag and reservation are free, and a door's
interrupt source is pending (R65, R74, R75). -/
def Replied (s t : State) (j : Job) (status detail : Nat) (words : List Nat) : Prop :=
  (t.src j.side j.src).rpl = (s.src j.side j.src).rpl ++
    rplHeader (j.pkt.code / 256) status j.pkt.tag j.pkt.world words.length detail :: words ∧
  (t.src j.side j.src).out = (s.src j.side j.src).out.filter (fun o => o.seq != j.seq) ∧
  (j.src < 32 → (t.get (.side j.side) F.INTR_PENDING (j.src / 32)).testBit (j.src % 32) = true)

/-- The register fields that a reply of Chromir to packet `j` may write. -/
def replyFields (j : Job) : List Spot := [(.side j.side, F.STOKER_CHROMIR_MAX, 0), (.side j.side, F.INTR_PENDING, j.src / 32)]

/-- Packet `j` of code `code` is at the head of Chromir's queue of side `x`, before `q`; Chromir runs, no packet taken earlier stands before it
on the way to its grate die (R84), and the tag is open. -/
abbrev State.Head (s : State) (x : Side) (code : Nat) (j : Job) (q : List Job) : Prop :=
  s.up x = true ∧ (s.side x).chromirDown = false ∧ (s.side x).chromirQ = j :: q ∧ j.pkt.code = code ∧ s.linkClear x j = true ∧ j.side = x ∧
  s.Open j

/-- The state in which the Stoker judges packet `j` that it takes from source `i`: it has left its FIFO, and its tag is outstanding with its
reservation (R67, R75). -/
def State.judging (s : State) (x : Side) (i : Nat) (j : Job) : State :=
  let t := s.takeHead x i
  t.setSrc x i { t.src x i with out := (t.src x i).out ++ [⟨j.pkt.tag, j.seq, reserveOf j.pkt.code, j.pkt.world⟩] }

/-- The round reaches packet `k`, the head of source `i` of side `x`, before `q`, and the Stoker takes it now; no packet of the safety pair waits
for the room that this makes (R75, R80, R281). -/
abbrev State.Reaches (s : State) (x : Side) (i : Nat) (k : Packet) (q : List Packet) : Prop :=
  s.up x = true ∧ (s.side x).taking = true ∧ (s.src x i).cmd = k :: q ∧ s.passedOver x k = false ∧ s.headStalls x i k = false ∧
  s.inTurn x i = true ∧ (s.pairDoor x ≠ some i ∨ (s.side x).pair0.done = [])

/-- The Stoker takes packet `k` now, with its tag free (R67). -/
abbrev State.Takes (s : State) (x : Side) (i : Nat) (k : Packet) (q : List Packet) : Prop :=
  s.Reaches x i k q ∧ k.tag ≠ 0xFF ∧ (s.src x i).out.any (fun t => t.tag == k.tag) = false

/-- The state in which Chromir runs the packet that it has taken off its queue: a long operation that has come to the head of the queue has
left it for the background (R82). -/
def State.popped (s : State) (x : Side) (q : List Job) : State := (s.setSide x { s.side x with chromirQ := q }).longMove x

/-- Command `c` answers packet `j` at the head of Chromir's queue and does nothing else. -/
def Answers (c : Instr) (s : State) (j : Job) (q : List Job) (status detail : Nat) (words : List Nat) : Prop :=
  ∃ t, Sys2Proof.Machine.exec c s = .next t ∧ Replied s t j status detail words ∧ Only (replyFields j) s t ∧ SideOnly j.side s t ∧
    t.side j.side = { (s.popped j.side q).side j.side with srcs := (t.side j.side).srcs }

/-- Command `c` executes packet `j` at the head of Chromir's queue: it answers it, leaves every register field but those of `l` and of the
reply and every byte of memory, and `P` holds after it. -/
def Acts (c : Instr) (s : State) (j : Job) (q : List Job) (status detail : Nat) (words : List Nat) (l : List Spot) (P : State → Prop) : Prop :=
  ∃ t, Sys2Proof.Machine.exec c s = .next t ∧ Replied s t j status detail words ∧ (t.side j.side).chromirQ = q.dropWhile isLong ∧
    Only (l ++ replyFields j) s t ∧ MemSame s t ∧ P t

/-- Packet `j` of code `code` is the first long operation of side `x`, before `q`; Chromir runs, has not executed it, and no packet taken
earlier stands before it on the way to its grate die (R84). -/
abbrev State.LongHead (s : State) (x : Side) (code : Nat) (j : Job) (q : List Job) : Prop :=
  s.up x = true ∧ (s.side x).chromirDown = false ∧ (s.side x).longQ = j :: q ∧ j.pkt.code = code ∧ (s.side x).longReply = none ∧
  s.linkClear x j = true ∧ j.side = x

/-- What the source of packet `j` holds is as before: no reply has come. -/
def Unanswered (s t : State) (j : Job) : Prop := t.src j.side j.src = s.src j.side j.src

/-- The register fields that an entry of the Ash pan of side `x` may write (R486). -/
def logFields (x : Side) : List Spot :=
  [(.side x, F.ASH_SEQ, 0), (.side x, F.ASH_STATUS_FILL, 0), (.side x, F.ASH_STATUS_OVERWRITE, 0),
   (.side x, F.ASH_OVERWRITE_COUNT, 0), (.side x, F.INTR_PENDING, 2)]

/-- The register fields in which the ECC of side `x`'s memory counts (R28, R29). -/
def eccFields (x : Side) : List Spot :=
  [(.side x, F.TALLY_ECC_DDR_CORR, 0), (.side x, F.TALLY_ECC_SRAM_CORR, 0), (.side x, F.TALLY_ECC_DDR_UNCORR, 0),
   (.side x, F.TALLY_ECC_SRAM_UNCORR, 0)]

/-- A read of `n` bytes at `a` by an engine of side `x` goes ahead, no line of it being locked, and finds no uncorrectable word among those that
`lost` names (R28, R302). -/
abbrev State.ReadsClean (s : State) (x : Side) (a n : Nat) (lost : Option Word40) : Prop :=
  s.engineWaits x a n = false ∧ copyEcc lost none a n = .clean

/-- It goes ahead and finds an uncorrectable word. -/
abbrev State.ReadsLost (s : State) (x : Side) (a n : Nat) (lost : Option Word40) : Prop :=
  s.engineWaits x a n = false ∧ 0 < n ∧ (inSram a n || inDdr a n) = true ∧ copyEcc lost none a n = .lost

/-! ## Accesses to registers -/

/-- Application hart `h` forms physical address `p` from address `va`, with `es` what the ECC finds at the page table entries (R21). -/
def State.translatesTo (s : State) (x : Side) (h va : Nat) (write : Bool) (es : List Ecc) (p : Nat) : Bool :=
  match (s.translate x h va write (es, [])).2 with
  | .ok q => q == p
  | .error _ => false

/-- The translation of address `va` of application hart `h` ends in the exception of cause `c`, with no bus error at an entry (R21). -/
def State.translateFails (s : State) (x : Side) (h va : Nat) (write : Bool) (es : List Ecc) (c : Nat) : Bool :=
  match (s.translate x h va write (es, [])).2 with
  | .ok _ => false
  | .error d => d.cause == c && d.cause != 0 && d.bus.isNone

/-- The register fields that an event may move in the performance counters of side `x` (R474, R477). -/
def perfFields (x : Side) : List Spot :=
  (List.range 48).map (fun n => (.side x, F.PERF_CNT, n)) ++
    [(.side x, F.PERF_OVF_LO, 0), (.side x, F.PERF_OVF_HI, 0), (.side x, F.INTR_PENDING, 2)]

/-- Side `x` has an initiator `o` that can make an access of `size` bytes at `a`, and the core's PMP and the ownership checker allow it (R12,
R22, R426). -/
abbrev State.Permits (s : State) (x : Side) (o : Origin) (a size : Nat) (write : Bool) : Prop :=
  s.makes x o a size write = true ∧ s.pmpPasses x o a size write = true ∧ s.wotAllows x a (s.worldOf x o) (b2n write) = true

/-! ## Grate dies -/

/-- Side `x` holds the token of grate die `d`, which is PRESENT and has accepted a command of it before (R221, R259). -/
abbrev State.Master (s : State) (x : Side) (d : Nat) : Prop :=
  s.present (dieUnit d) = true ∧ s.holds x d = true ∧ (s.die d).masterNew = false

/-- Packet `j` of code `code` is at the head of side `x`'s link to grate die `d`, before `q`. -/
abbrev State.LinkHead (s : State) (x : Side) (d code : Nat) (j : Job) (q : List Job) : Prop :=
  Tab.at [] (s.side x).links d = j :: q ∧ j.pkt.code = code ∧ j.side = x ∧ s.present (dieUnit d) = true

/-- The replies of grate die `d` toward side `x`: those on the link, and behind them those that wait in the die for its credits (R50). -/
def State.backward (s : State) (x : Side) (d : Nat) : List Reply := Tab.at [] (s.side x).rpls d ++ Tab.at [] (s.die d).out x.num

/-- Grate die `d` has taken packet `j` off the link and put its reply on the way back (R81). -/
def DieReplied (s t : State) (d : Nat) (j : Job) (q : List Job) (status detail : Nat) (words : List Nat) : Prop :=
  t.backward j.side d = s.backward j.side d ++ [⟨j, status, detail, words⟩] ∧ Tab.at [] (t.side j.side).links d = q

/-- Every channel but those listed is as before. -/
def ChansBut (l : List Nat) (s t : State) : Prop := ∀ c, c ∉ l → t.chan c = s.chan c

/-- The register fields that an unsolicited event for world `w` may write on side `x` (R76), with its entry when it is lost. -/
def eventFields (s : State) (x : Side) (w : Nat) : List Spot :=
  [(.side x, F.DOOR_STATUS_EVT_LOST, s.get (.side x) F.DOOR_EVT w), (.side x, F.DOOR_EVT_LOST_COUNT, s.get (.side x) F.DOOR_EVT w),
   (.side x, F.STOKER_EVT_NONE_COUNT, 0), (.side x, F.INTR_PENDING, 0)] ++ logFields x

/-- The register fields that a channel's event to its owner, or an entry of its die, may write on either side. -/
def noticeFields (s : State) (c : Nat) : List Spot :=
  eventFields s .a (s.cq c F.CH_CFG2) ++ eventFields s .b (s.cq c F.CH_CFG2)

/-- The register fields in which every die on the bus shows the conditions of the module (R229). -/
def moduleFlags (s : State) : List Spot :=
  s.busDies.flatMap (fun d => [F.DMP_STATUS_RIDE_A, F.DMP_STATUS_RIDE_B, F.DMP_STATUS_BUDGET_OVER, F.DMP_STATUS_P0_OVER, F.DMP_STATUS_DERATE_HW,
    F.DMP_STATUS_BUS_GAP].map (fun f => (.grate d, f, 0)))

/-- The register fields in which the sides show that a hold-off of R279 runs. -/
def returnFields : List Spot := [(.side .a, F.SIDE_STATUS_RETURN_WAIT, 0), (.side .b, F.SIDE_STATUS_RETURN_WAIT, 0)]

/-- Side `x` holds what it held, but for the hold-offs of R279. -/
def SideWaits (x : Side) (s t : State) : Prop := t.side x = { s.side x with returnAt := (t.side x).returnAt }

/-- Fields of channel `c` as spots. -/
def chSpots (c : Nat) (l : List Fld) : List Spot := l.map (fun f => (.grate (c / 16), f, c % 16))

/-! ## The Ember -/

/-- The register fields that the declaration of a wake writes (R143, R149, R156). -/
def wakeFields : List Spot :=
  [(.ember, F.EMBER_WREC, 0), (.ember, F.EMBER_WREC, 1), (.ember, F.EMBER_WREC, 2), (.ember, F.EMBER_WREC, 3), (.ember, F.EMBER_WAKE_COUNT, 0),
   (.ember, F.EMBER_REWAKE_COUNT, 0), (.ember, F.EMBER_STATE_LIMP_A, 0), (.ember, F.EMBER_STATE_LIMP_B, 0), (.ember, F.EMBER_STATE_FLUE_NOREF, 0)]

/-- The Ember has declared a wake (R143 step 1): its instant W is at least 5 ms after the groups were switched off, all three groups are
enabled, the wake is counted, and its cause, its index and whether it needs confirmation stand in the record. -/
def Woken (s t : State) (cause index : Nat) (confirm : Bool) : Prop :=
  t.ember.phase = .waking ∧ t.now = max s.now (s.ember.railsOff + 5000000) ∧ t.ember.wakeAt = t.now ∧
  t.ember.ga.on = true ∧ t.ember.gb.on = true ∧ t.ember.gs.on = true ∧
  t.wakeCause = cause ∧ t.wakeIndex = index ∧ t.wrec 0 22 22 = b2n (!confirm) ∧ t.wrec 3 13 12 = 3 ∧
  t.get .ember F.EMBER_WAKE_COUNT 0 = (s.get .ember F.EMBER_WAKE_COUNT 0 + 1) % 2 ^ F.EMBER_WAKE_COUNT.width ∧
  Only wakeFields s t ∧ MemSame s t ∧ t.sa = { s.sa with wrecSlot := none } ∧ t.sb = { s.sb with wrecSlot := none } ∧
  t.dies = s.dies ∧ t.chans = s.chans ∧ t.flue = s.flue

/-- The bit of EMBER_FEED_EVT that the loss of feed `f` sets (R157). -/
def feedLossEvt : Side → Fld
  | .a => F.EMBER_FEED_EVT_A_LOSS
  | .b => F.EMBER_FEED_EVT_B_LOSS

/-- The bit of EMBER_FEED_EVT that the return of feed `f` sets (R157). -/
def feedReturnEvt : Side → Fld
  | .a => F.EMBER_FEED_EVT_A_RETURN
  | .b => F.EMBER_FEED_EVT_B_RETURN

/-- Source 91, the feed events, is pending at the router of every side among `xs` that is out of reset in `s` (R157). -/
def FeedHeard (s t : State) (xs : List Side) : Prop :=
  ∀ y ∈ xs, s.fabric y = true → (t.get (.side y) F.INTR_PENDING 2).testBit 27 = true

/-- Every rail group is off: both sides are down, no unit is PRESENT, and no channel is driven (R138, R166). -/
def Dark (t : State) : Prop :=
  t.ember.ga.on = false ∧ t.ember.gb.on = false ∧ t.ember.gs.on = false ∧ t.up .a = false ∧ t.up .b = false ∧
  (∀ u, t.present u = false) ∧ (∀ c, c < 64 → driven (t.chState c) = false)

end Sys2Proof.Machine
end

