-- ==== Sys2Proof/Certificates/Slice0/Obligations.lean ====
section
/-! DEFINITION. The statements for the provers, in the order of OBLIGATIONS.json: the step and its invariants, then the commands family by
family. Where a clause rests on a choice of the model, the docstring names the log entry. -/
open Sys2Proof Sys2Proof.Machine

/-- When the queue of waiting commands is not empty, a step is the effect of its front command on the state with the rest of the queue. -/
def Obligations.FrontCommandRuns : Prop :=
  ∀ (c : Instr) (q : List Instr) (s : State), s.pending = c :: q →
    Sys2Proof.Machine.step s = Sys2Proof.Machine.exec c { s with pending := q }

/-- On an empty queue a step advances the model time by 1 ns (a choice of the model, log entry 2). A core that runs, owes no GATE.LAND and
has its external interrupt enabled takes the interrupt that its input raises, in the bank of its current world; a core whose input is
low, and everything else, stays as it is. -/
def Obligations.EmptyQueueIdles : Prop :=
  ∀ s : State, s.pending = [] → ∃ t, Sys2Proof.Machine.step s = .next t ∧ t.now = s.now + 1 ∧ t.pending = [] ∧ t.free = s.free ∧
    t.resp = s.resp ∧ t.regs = s.regs ∧ t.mem = s.mem ∧ t.ember = s.ember ∧ t.flue = s.flue ∧ t.dies = s.dies ∧ t.chans = s.chans ∧
    t.damper = s.damper ∧ t.absent = s.absent ∧ (∀ x, t.side x = { s.side x with harts := (t.side x).harts }) ∧
    (∀ x h, h < 6 →
      (s.extIrq x h = true → s.coreRuns x h = true → (s.hart x h).landing = none →
        ((s.hart x h).csr (s.coreWorld x h) Csr.mie).testBit 11 = true →
        ((s.hart x h).priv < 3 ∨ ((s.hart x h).csr (s.coreWorld x h) Csr.mstatus).testBit 3 = true) →
        t.hart x h = (s.hart x h).trap (s.coreWorld x h) 11 (if h < 4 then 2 ^ 63 else 2 ^ 31) 0 (s.hart x h).pc) ∧
      (s.extIrq x h = false → t.hart x h = s.hart x h))

/-- Every command answers a next state in every state, with the queue as it was and neither time nor the count of free values turned back,
as long as the sampled voltages that it carries lie inside the absolute maximum ratings. A feed voltage outside them, or an analogue
input voltage, at which no behaviour is specified, ends in the named fault. -/
def Obligations.EveryCommandCompletes : Prop :=
  (∀ (c : Instr) (s : State),
    (∀ d smp v, c = .grateSampleTick d smp v → outsideFeed (sigInt v.toNat) = false) →
    (∀ x vs, c = .ainSample x vs → ∀ v ∈ vs, voltsQ (-32) < sigInt v.toNat ∧ sigInt v.toNat < voltsQ 58) →
    (∀ va vb, c = .emberFeedSample va vb → outsideFeed (sigInt va.toNat) = false ∧ outsideFeed (sigInt vb.toNat) = false) →
    ∃ t, Sys2Proof.Machine.exec c s = .next t ∧ t.pending = s.pending ∧ s.now ≤ t.now ∧ s.free ≤ t.free) ∧
  (∀ (d : Fin 4) (smp : List Sample) (v : Word40) (s : State), outsideFeed (sigInt v.toNat) = true →
    Sys2Proof.Machine.exec (.grateSampleTick d smp v) s = .fault .outsideRatings) ∧
  (∀ (x : Side) (vs : List Word40) (s : State), (∃ v ∈ vs, sigInt v.toNat ≤ voltsQ (-32) ∨ voltsQ 58 ≤ sigInt v.toNat) →
    Sys2Proof.Machine.exec (.ainSample x vs) s = .fault .outsideRatings) ∧
  (∀ (va vb : Word40) (s : State), (outsideFeed (sigInt va.toNat) = true ∨ outsideFeed (sigInt vb.toNat) = true) →
    Sys2Proof.Machine.exec (.emberFeedSample va vb) s = .fault .outsideRatings)

/-- At reset the queue of commands is empty, memory and the register fields are in their canonical form, every register field reads its
Reset column, memory outside the ROM and the NOR flash reads zero (a choice of the model, log entry 3), no side runs, every door and
Stoke FIFO is empty and no unit is PRESENT. -/
def Obligations.ResetState : Prop :=
  State.reset.pending = [] ∧ State.reset.Sound ∧ (∀ h f i, State.reset.get h f i = f.rst.at h i) ∧
    (∀ x a, 0x20000 ≤ a → a < 0x80000000 → State.reset.byte x a = 0) ∧ State.reset.up .a = false ∧ State.reset.up .b = false ∧
    (∀ x i, (State.reset.src x i).rpl = [] ∧ (State.reset.src x i).cmd = [] ∧ (State.reset.src x i).out = []) ∧
    (∀ u, State.reset.present u = false)

/-- From every sound state (memory and the register fields strictly rising by key, with no entry equal to what an unlisted key reads as)
every step that answers a next state leads to a sound state, whatever the command. -/
def Obligations.StepKeepsSound : Prop :=
  ∀ s t : State, s.Sound → Sys2Proof.Machine.step s = .next t → t.Sound

/-- Every step that answers a next state removes the front command and no other, adds none, and never turns back time or the count of
values that the spec leaves open. -/
def Obligations.StepKeepsOrder : Prop :=
  ∀ s t : State, Sys2Proof.Machine.step s = .next t → t.pending = s.pending.tail ∧ s.now ≤ t.now ∧ s.free ≤ t.free

/-- At the head of Chromir's queue NOP is answered OK with no words, SYS_ECHO with its parameter words and TARGET in DETAIL, SYS_INFO with
the build, the serial, the overlay mask, tokens and limp flag, SYS_STATE_GET with the power state, the sides up and the time in the
state. The packet leaves the queue, the reply enters its FIFO whole, and no other part of the state changes. -/
def Obligations.SysQueries : Prop :=
  (∀ (s : State) (x : Side) (j : Job) (q : List Job),
    s.Head x 0x000 j q →
    Answers (.nop x) s j q stOk 0 []) ∧
  (∀ (s : State) (x : Side) (j : Job) (q : List Job),
    s.Head x 0x005 j q →
    Answers (.sysEcho x) s j q stOk j.pkt.target j.pkt.params) ∧
  (∀ (s : State) (x : Side) (j : Job) (q : List Job),
    s.Head x 0x001 j q →
    Answers (.sysInfo x) s j q stOk 0 [s.chromirBuild x, Config.serial.toNat % 2 ^ 40, Config.serial.toNat / 2 ^ 40, s.get (.side x)
        F.CFG_MODE_ACTIVE 0 + s.heldOf x 15 * 2 ^ 12 + b2n (s.holds x 4) * 2 ^ 16 + b2n (s.side x).limp * 2 ^ 17]) ∧
  (∀ (s : State) (x : Side) (j : Job) (q : List Job),
    s.Head x 0x003 j q →
    Answers (.sysStateGet x) s j q stOk 0 [s.powerState + s.get .ember F.EMBER_STATE_SIDE_A_UP 0 * 4 + s.get .ember F.EMBER_STATE_SIDE_B_UP
        0 * 8 + min (2 ^ 32 - 1) ((s.now - s.ember.stateAt) / 1000000) * 2 ^ 8])

/-- CFG_MODE_GET answers the active, commanded and hardware-entered masks; CFG_FIELD_READ answers the field, and for a field without a
merge class with SOURCE 1 or 2 the words 0 and 7; CAL_READ answers value and written-by, or CHECK_FAILED while CAL_BAD is set. A
CFG_FIELD_READ has no side effect of a register read. -/
def Obligations.ConfigurationQueries : Prop :=
  (∀ (s : State) (x : Side) (j : Job) (q : List Job),
    s.Head x 0x102 j q →
    Answers (.cfgModeGet x) s j q stOk 0 [s.get (.side x) F.CFG_MODE_ACTIVE 0 + s.get (.side x) F.CFG_MODE_CMD 0 * 2 ^ 12 + s.get (.side x)
        F.CFG_MODE_HW 0 * 2 ^ 24]) ∧
  (∀ (s : State) (x : Side) (j : Job) (q : List Job),
    s.Head x 0x103 j q →
    Answers (.cfgFieldRead x) s j q stOk 0 ((s.popped x q).fieldWords x j.pkt)) ∧
  (∀ (s : State) (x : Side) (j : Job) (q : List Job) (h : Holder) (f : Fld) (i : Nat),
    s.Head x 0x103 j q → f.cls = .none → bits (j.pkt.p 2) 13 12 ≠ 0 →
      fieldAt x (j.pkt.p 1) (bits (j.pkt.p 2) 5 0) (bits (j.pkt.p 2) 11 6) = some (h, f, i) →
    Answers (.cfgFieldRead x) s j q stOk 0 [0, 7]) ∧
  (∀ (s : State) (x : Side) (j : Job) (q : List Job),
    s.Head x 0x901 j q → s.get (.side x) F.CFG_STATUS_CAL_BAD 0 = 0 →
    Answers (.calRead x) s j q stOk 0 [(s.calItem x j.pkt.target).value, (s.calItem x j.pkt.target).by_]) ∧
  (∀ (s : State) (x : Side) (j : Job) (q : List Job),
    s.Head x 0x901 j q → s.get (.side x) F.CFG_STATUS_CAL_BAD 0 ≠ 0 →
    Answers (.calRead x) s j q stCheck 0 [])

/-- A SYS_STATE_SET whose gate is closed is answered REFUSED_MODE. An accepted one is answered OK at once and pends until its delay has
passed. When the delay ends, a target of Cold hearth or Banked starts the shutdown with that target, and Glowing stops the cores of
both sides and becomes the power state. -/
def Obligations.PowerStateRequests : Prop :=
  (∀ (s : State) (x : Side) (j : Job) (q : List Job) (de : Nat),
    s.Head x 0x002 j q → (s.popped x q).stateRefused x j.pkt.target = some de →
    Answers (.sysStateSet x) s j q stMode de []) ∧
  (∀ (s : State) (x : Side) (j : Job) (q : List Job),
    s.Head x 0x002 j q → (s.popped x q).stateRefused x j.pkt.target = none → s.ember.phase = .up → s.ember.pend = none →
      j.pkt.target ≤ 2 → j.pkt.target ≠ s.powerState →
    Acts (.sysStateSet x) s j q stOk 0 [] [(.ember, F.EMBER_STATE_PENDING, 0), (.ember, F.EMBER_STATE_PEND_TARGET, 0)]
     (fun t => t.ember = { s.ember with pend := some (j.pkt.target, s.now + bits (j.pkt.p 1) 15 0 * 1000000) } ∧ t.get .ember
         F.EMBER_STATE_PENDING 0 = 1 ∧ t.get .ember F.EMBER_STATE_PEND_TARGET 0 = j.pkt.target ∧ t.powerState = s.powerState ∧ t.now =
             s.now)) ∧
  (∀ (s : State) (n : Nat) (e : Nat),
    s.ember.phase = .up → s.ember.pend = some (n, e) → n ≤ 1 →
    ∃ t, Sys2Proof.Machine.exec (.sysStateDelayEnd) s = .next t ∧
      t.now = max s.now e ∧ t.ember.phase = .sleeping 0 ∧ t.ember.target = n ∧ t.get .ember F.EMBER_STATE_SHUTDOWN 0 = 1 ∧
        t.get .ember F.EMBER_STATE_PENDING 0 = 0 ∧
        Only [(.ember, F.EMBER_STATE_SHUTDOWN, 0), (.ember, F.EMBER_STATE_PENDING, 0), (.ember, F.EMBER_STATE_PEND_TARGET, 0)] s t ∧
        MemSame s t ∧ t.sa = s.sa ∧ t.sb = s.sb ∧ t.chans = s.chans) ∧
  (∀ (s : State) (e : Nat),
    s.ember.phase = .up → s.ember.pend = some (2, e) →
    ∃ t, Sys2Proof.Machine.exec (.sysStateDelayEnd) s = .next t ∧
      t.now = max s.now e ∧ t.powerState = 2 ∧ t.ember.pend = none ∧ t.get .ember F.EMBER_STATE_PENDING 0 = 0 ∧
        (t.side .a).cores = false ∧ (t.side .b).cores = false ∧ t.chans = s.chans ∧ t.dies = s.dies)

/-- CFG_MODE_SET joins the requests of the ordering engine, at its take or on the other side within 10 µs of it, and CFG_FIELD_WRITE puts
its record into the working copy; neither is answered before its commit, no register field but FIELD_WRITTEN and the log changes. -/
def Obligations.OverlayAndFieldWrites : Prop :=
  (∀ (s : State) (x : Side) (j : Job) (q : List Job),
    s.Head x 0x101 j q →
    ∃ t, Sys2Proof.Machine.exec (.cfgModeSet x) s = .next t ∧
      Unanswered s t j ∧ (t.side x).chromirQ = q.dropWhile isLong ∧
        (∃ a : Nat, (t.side x).modeReqs = (s.side x).modeReqs ++ [(j, a)] ∧ j.takenAt ≤ a ∧ a ≤ j.takenAt + 10000 ∧ (s.orderer = x → a =
            j.takenAt)) ∧
        Only [] s t ∧ MemSame s t) ∧
  (∀ (s : State) (x : Side) (j : Job) (q : List Job),
    s.Head x 0x104 j q →
    let owner := if bits (j.pkt.p 2) 13 12 = 1 then 0xFF else bits (j.pkt.p 2) 17 14
    ∃ t, Sys2Proof.Machine.exec (.cfgFieldWrite x) s = .next t ∧
      Unanswered s t j ∧ (t.side x).chromirQ = q.dropWhile isLong ∧ (t.side x).fieldReqs = (s.side x).fieldReqs ++ [j] ∧
        recOf (t.side x).work (j.pkt.p 1) (bits (j.pkt.p 2) 5 0) owner = some (j.pkt.p 3) ∧ owner ∈ (t.side x).written ∧
        (t.side x).inForce = (s.side x).inForce ∧ t.get (.side x) F.CFG_STATUS_FIELD_WRITTEN 0 = 1 ∧
        Only ((.side x, F.CFG_STATUS_FIELD_WRITTEN, 0) :: logFields x) s t ∧ MemSame s t)

/-- A load that passes its checks and its readback moves the pointer of its slot to the bank that was not in use, with OK and the version
as the reply that waits for the completion; after a bad readback the pointer stays, with CHECK_FAILED. A load of the Chromir slot that
passes takes Chromir down for its replacement. A load that fails a check leaves memory and the pointer, with the status of that check.
An image with a word that its ECC finds uncorrectable ends in CHECK_FAILED (a choice of the model, log entry 110). A verify waits with
OK, or the status of the check that failed, and the version, and changes neither memory nor the pointer. -/
def Obligations.ImageOperations : Prop :=
  (∀ (s : State) (x : Side) (j : Job) (q : List Job) (w : Slot) (g : Bool) (lo : Option Word40) (co : Option Word40),
    slotOf j.pkt.target = some w → s.LongHead x 0x105 j q → j.pkt.target ≠ 0x200 → s.ReadsClean x (j.pkt.p 1) (j.pkt.p 2) lo →
    ∃ t, Sys2Proof.Machine.exec (.cfgImageLoad x g lo co) s = .next t ∧
      (t.side x).longQ = j :: q ∧
        ((s.loadFails x j.pkt w false).isSome = true → (t.side x).longReply = some ⟨j, ((s.loadFails x j.pkt w false).getD (0, 0, none)).1,
            ((s.loadFails x j.pkt w false).getD (0, 0, none)).2.1, []⟩ ∧ t.pointer x j.pkt.target = s.pointer x j.pkt.target ∧ MemSame s t)
                ∧
        ((s.loadFails x j.pkt w false) = none ∧ g = true → (t.side x).longReply = some ⟨j, stOk, 0, [s.imgVersion x (j.pkt.p 1)]⟩ ∧
            t.pointer x j.pkt.target = s.freeBank x j.pkt.target + 1) ∧
        ((s.loadFails x j.pkt w false) = none ∧ g = false → (t.side x).longReply = some ⟨j, stCheck, 0, []⟩ ∧ t.pointer x j.pkt.target =
            s.pointer x j.pkt.target) ∧
        Only (logFields x ++ eccFields x) s t) ∧
  (∀ (s : State) (x : Side) (j : Job) (q : List Job) (w : Slot) (lo : Option Word40) (co : Option Word40),
    slotOf j.pkt.target = some w → s.LongHead x 0x105 j q → j.pkt.target = 0x200 → q = [] → s.ReadsClean x (j.pkt.p 1) (j.pkt.p 2) lo →
    ∃ t, Sys2Proof.Machine.exec (.cfgImageLoad x true lo co) s = .next t ∧
      (t.side x).longQ = [j] ∧
        ((s.loadFails x j.pkt w false).isSome = true → (t.side x).longReply = some ⟨j, ((s.loadFails x j.pkt w false).getD (0, 0, none)).1,
            ((s.loadFails x j.pkt w false).getD (0, 0, none)).2.1, []⟩ ∧ t.pointer x j.pkt.target = s.pointer x j.pkt.target ∧ MemSame s t)
                ∧
        ((s.loadFails x j.pkt w false) = none → (t.side x).longReply = none ∧ (t.side x).chromirDown = true ∧ (t.side x).chromirQ = [] ∧
            t.get (.side x) F.STOKER_STATE_UPDATING 0 = 1 ∧ t.get (.side x) F.STOKER_STATE_CHROMIR_READY 0 = 0 ∧ t.pointer x 0x200 =
                s.pointer x 0x200)) ∧
  (∀ (s : State) (x : Side) (j : Job) (q : List Job) (w : Slot) (g : Bool) (lo : Option Word40) (co : Option Word40),
    slotOf j.pkt.target = some w → s.LongHead x 0x105 j q → s.ReadsLost x (j.pkt.p 1) (j.pkt.p 2) lo →
    ∃ t, Sys2Proof.Machine.exec (.cfgImageLoad x g lo co) s = .next t ∧
      (t.side x).longReply = some ⟨j, stCheck, 0, []⟩ ∧ t.pointer x j.pkt.target = s.pointer x j.pkt.target ∧ MemSame s t) ∧
  (∀ (s : State) (x : Side) (j : Job) (q : List Job) (w : Slot),
    slotOf j.pkt.target = some w → s.LongHead x 0x106 j q →
    ∃ t, Sys2Proof.Machine.exec (.cfgImageVerify x) s = .next t ∧
      (t.side x).longQ = j :: q ∧
        (t.side x).longReply = some ⟨j, ((s.imageCheck x (w.bank (s.pointer x j.pkt.target - 1)) w).map (fun r => r.1)).getD stOk, 0,
            [s.imgVersion x (w.bank (s.pointer x j.pkt.target - 1))]⟩ ∧
        (s.imageCheck x (w.bank (s.pointer x j.pkt.target - 1)) w = none → Only [] s t) ∧
        t.pointer x j.pkt.target = s.pointer x j.pkt.target ∧ MemSame s t)

/-- CAL_WRITE with both readbacks good writes the item, and no other, in the copies of both sides and answers OK; with one bad it leaves
both and answers CHECK_FAILED. DMP_HARNESS_BURN on an OFF channel without a record burns its first slot. At its completion the running
long operation's reply enters the reply FIFO whole and the next one moves up. -/
def Obligations.CalibrationAndHarness : Prop :=
  (∀ (s : State) (x : Side) (j : Job) (q : List Job),
    s.LongHead x 0x902 j q → s.crossReach x = true → j.pkt.target < 0x1D2 → j.pkt.p 1 < 2 ^ 40 → j.pkt.p 2 < 2 ^ 16 →
    ∃ t, Sys2Proof.Machine.exec (.calWrite x true true) s = .next t ∧
      (t.side x).longReply = some ⟨j, stOk, 0, []⟩ ∧ (∀ y : Side, t.calItem y j.pkt.target = ⟨j.pkt.p 1, j.pkt.p 2⟩) ∧
        (∀ (y : Side) (u : Nat), u < 0x1D2 → u ≠ j.pkt.target → t.calItem y u = s.calItem y u) ∧ (t.side .a).calCrcOk = true ∧
        (t.side .b).calCrcOk = true ∧ Only (logFields x) s t ∧
        (∀ (y : Side) (a : Nat), a ≠ 0x800000FF → a < 0x80010000 ∨ 0x80030000 ≤ a → t.byte y a = s.byte y a)) ∧
  (∀ (s : State) (x : Side) (j : Job) (q : List Job) (g : Bool) (h : Bool),
    s.LongHead x 0x902 j q → s.crossReach x = true → (g && h) = false →
    ∃ t, Sys2Proof.Machine.exec (.calWrite x g h) s = .next t ∧
      (t.side x).longReply = some ⟨j, stCheck, 0, []⟩ ∧ Only [] s t ∧ MemSame s t) ∧
  (∀ (s : State) (x : Side) (j : Job) (q : List Job) (c : Nat),
    s.LongHead x 0x305 j q → j.pkt.target = c → c < 64 → s.present (dieUnit (c / 16)) = true → s.holds x (c / 16) = true →
      (s.chan c).otp0 = .unused → (s.chan c).record = none → s.chState c = 0 →
    ∃ t, Sys2Proof.Machine.exec (.dmpHarnessBurn x true) s = .next t ∧
      (t.side x).longReply = some ⟨j, stOk, 0, []⟩ ∧ (t.chan c).otp0 = .burned (j.pkt.params.take 8) ∧ t.cq c F.HRN_STATUS_BURNED = 1 ∧
        t.cq c F.HRN_STATUS_SLOT = 0 ∧ t.cq c F.HRN_STATUS_BAD = 0 ∧ ChansBut [c] s t ∧ MemSame s t) ∧
  (∀ (s : State) (x : Side) (j : Job) (q : List Job) (r : Reply),
    (s.side x).longReply = some r → (s.side x).longQ = j :: q → r.job = j → j.side = x → s.Open j → r.status ≠ stDelayed →
      j.pkt.code ≠ 0x105 →
    ∃ t, Sys2Proof.Machine.exec (.longOperationComplete x) s = .next t ∧
      Replied s t j r.status r.detail r.words ∧ (t.side x).longQ = q ∧ (t.side x).longReply = none ∧ (t.side x).longAt = s.now ∧
        Only [(.side x, F.INTR_PENDING, j.src / 32)] s t ∧ MemSame s t)

/-- At the token holder's die, a CH_SET with ON 0 and a CH_PWM with DUTY 0 that fail no ceiling are answered OK, whatever the budget:
CMD_ON clears, a driven or waiting channel is OFF, the retries used are 0, the edge runs at the packet's slew, the default slew, or the
PWM slew as the way in which the channel was on says, CH_PWM keeps its new PWM values with DUTY 0, and no other channel and no other
register of the die changes. -/
def Obligations.ChannelTurnOff : Prop :=
  (∀ (s : State) (x : Side) (d : Fin 4) (j : Job) (q : List Job) (c : Nat) (p : Nat),
    s.LinkHead x d 0x201 j q → j.pkt.target = c → j.pkt.p 1 = p → s.Master x d → (s.chan c).hold = none → c / 16 = d.val →
      p.testBit 0 = false → s.ceiling c ((actOfSet p).ask false j.pkt.compared (if p.testBit 1 then bits p 16 8 else 0)) = none →
    ∃ t, Sys2Proof.Machine.exec (.chSet x d) s = .next t ∧
      DieReplied s t d j q stOk 0 [] ∧ t.cq c F.CH_STATE_CMD_ON = 0 ∧
        t.chState c = (if driven (s.chState c) = true ∨ s.chState c = 6 ∨ (s.chState c = 8 ∧ s.cq c F.DMP_CH_STATUS_SHED = 1) then 0 else
            s.chState c) ∧
        (driven (s.chState c) = true → (t.chan c).offSlew = (if p.testBit 1 = true ∧ bits p 16 8 ≠ 0 then bits p 16 8 else s.slewDef c)) ∧
        (t.chan c).gatePending = false ∧ (t.chan c).retries = 0 ∧ t.cq c F.CH_STATE_SPARK_LAST = 0 ∧ ChansBut [c] s t ∧
        Only (chSpots c [F.CH_STATE_CMD_ON, F.CH_STATE_STATE, F.CH_STATE_MODE, F.CH_STATE_SPARK_LAST, F.DMP_CH_STATUS_SHED]) s t ∧
        MemSame s t) ∧
  (∀ (s : State) (x : Side) (d : Fin 4) (j : Job) (q : List Job) (c : Nat) (p : Nat),
    s.LinkHead x d 0x202 j q → j.pkt.target = c → j.pkt.p 1 = p → s.Master x d → (s.chan c).hold = none → c / 16 = d.val →
      bits p 15 0 = 0 → s.ceiling c ((actOfPwm p).ask false j.pkt.compared 0) = none →
    ∃ t, Sys2Proof.Machine.exec (.chPwm x d) s = .next t ∧
      DieReplied s t d j q stOk 0 [] ∧ t.cq c F.CH_STATE_CMD_ON = 0 ∧
        t.chState c = (if driven (s.chState c) = true ∨ s.chState c = 6 ∨ (s.chState c = 8 ∧ s.cq c F.DMP_CH_STATUS_SHED = 1) then 0 else
            s.chState c) ∧
        (driven (s.chState c) = true → (t.chan c).offSlew = (if s.inPwm c = true then s.slewPwm c else s.slewDef c)) ∧
        t.cq c F.CH_PWM_DUTY_DUTY = 0 ∧ t.cq c F.CH_PWM_DUTY_DEFF = 0 ∧ t.cq c F.CH_PWM_FREQ_FREQ = bits p 30 16 ∧
        t.cq c F.CH_PWM_FREQ_PHASE = bits p 34 32 ∧ (t.chan c).retries = 0 ∧ ChansBut [c] s t ∧
        Only (chSpots c [F.CH_STATE_CMD_ON, F.CH_STATE_STATE, F.CH_STATE_SPARK_LAST, F.DMP_CH_STATUS_SHED, F.CH_PWM_FREQ_FREQ,
            F.CH_PWM_FREQ_COMP, F.CH_PWM_FREQ_PHASE, F.CH_PWM_DUTY_DUTY, F.CH_PWM_DUTY_DEFF]) s t ∧
        MemSame s t)

/-- At the token holder's die, a CH_SET with ON 1, or a CH_PWM with DUTY above 0, for a channel in OFF or DAMPER_OFF that fails no ceiling
and that the Damper admits at once, is answered OK: the channel is in SLEW, or in PWM with the packet's values, CMD_ON is set, and the
turn-on is counted and kept for the count of turn-ons in 10 s; nothing else of the die and no memory changes. -/
def Obligations.ChannelTurnOn : Prop :=
  (∀ (s : State) (x : Side) (d : Fin 4) (j : Job) (q : List Job) (c : Nat) (p : Nat),
    s.LinkHead x d 0x201 j q → j.pkt.target = c → j.pkt.p 1 = p → s.Master x d → (s.chan c).hold = none → c / 16 = d.val →
      p.testBit 0 = true → (s.chState c = 0 ∨ s.chState c = 8) →
      s.ceiling c ((actOfSet p).ask true j.pkt.compared (if p.testBit 1 then bits p 16 8 else 0)) = none → s.judge c = .allow →
    ∃ t, Sys2Proof.Machine.exec (.chSet x d) s = .next t ∧
      DieReplied s t d j q stOk 0 [] ∧ t.cq c F.CH_STATE_CMD_ON = 1 ∧ t.cq c F.CH_STATE_MODE = 0 ∧ t.chState c = 1 ∧
        (t.chan c).onAt = s.now ∧ (t.chan c).slew = (if p.testBit 1 = true ∧ bits p 16 8 ≠ 0 then bits p 16 8 else s.slewDef c) ∧
        (t.chan c).turnOns = (s.now :: (s.chan c).turnOns).take 1022 ∧
        t.cq c F.CH_TURN_ON_COUNT = (s.cq c F.CH_TURN_ON_COUNT + 1) % 2 ^ F.CH_TURN_ON_COUNT.width ∧ ChansBut [c] s t ∧
        Only (chSpots c [F.CH_STATE_CMD_ON, F.CH_STATE_STATE, F.CH_STATE_MODE, F.CH_STATE_SPARK_LAST, F.DMP_CH_STATUS_SHED,
            F.WIRE_STATUS_TRIPPED, F.CH_TURN_ON_COUNT]) s t ∧
        MemSame s t) ∧
  (∀ (s : State) (x : Side) (d : Fin 4) (j : Job) (q : List Job) (c : Nat) (p : Nat),
    s.LinkHead x d 0x202 j q → j.pkt.target = c → j.pkt.p 1 = p → s.Master x d → (s.chan c).hold = none → c / 16 = d.val →
      bits p 15 0 ≠ 0 → (s.chState c = 0 ∨ s.chState c = 8) → s.ceiling c ((actOfPwm p).ask true j.pkt.compared 0) = none →
      s.judge c = .allow →
    ∃ t, Sys2Proof.Machine.exec (.chPwm x d) s = .next t ∧
      DieReplied s t d j q stOk 0 [] ∧ t.cq c F.CH_STATE_CMD_ON = 1 ∧ t.cq c F.CH_STATE_MODE = 1 ∧ t.chState c = 3 ∧
        t.cq c F.CH_PWM_DUTY_DUTY = bits p 15 0 ∧ t.cq c F.CH_PWM_FREQ_FREQ = bits p 30 16 ∧ t.cq c F.CH_PWM_FREQ_COMP = bits p 31 31 ∧
        t.cq c F.CH_PWM_FREQ_PHASE = bits p 34 32 ∧ (t.chan c).turnOns = (s.now :: (s.chan c).turnOns).take 1022 ∧ ChansBut [c] s t ∧
        Only (chSpots c [F.CH_STATE_CMD_ON, F.CH_STATE_STATE, F.CH_STATE_MODE, F.CH_STATE_SPARK_LAST, F.DMP_CH_STATUS_SHED,
            F.WIRE_STATUS_TRIPPED, F.CH_TURN_ON_COUNT, F.CH_PWM_FREQ_FREQ, F.CH_PWM_FREQ_COMP, F.CH_PWM_FREQ_PHASE, F.CH_PWM_DUTY_DUTY]) s
                t ∧
        MemSame s t)

/-- A CH_SET that fails a ceiling is answered REFUSED_LIMIT with its code and counted; a turn-on of a LATCHED channel is answered
REFUSED_LIMIT with 0x0F0; one that the Damper refuses is answered with that status and counted; one that it holds is answered DELAYED
with the hold time, and the channel is HELD; a packet of a side that does not hold the token outside a handover window is answered
NOT_MASTER. The channel keeps its state in each case. -/
def Obligations.ChannelRefusals : Prop :=
  (∀ (s : State) (x : Side) (d : Fin 4) (j : Job) (q : List Job) (c : Nat) (p : Nat) (code : Nat),
    s.LinkHead x d 0x201 j q → j.pkt.target = c → j.pkt.p 1 = p → s.Master x d → (s.chan c).hold = none → c / 16 = d.val →
      s.ceiling c ((actOfSet p).ask (p.testBit 0 && (s.chState c == 0 || s.chState c == 8 || s.inPwm c)) j.pkt.compared (if p.testBit 1
          then bits p 16 8 else 0)) = some code →
    ∃ t, Sys2Proof.Machine.exec (.chSet x d) s = .next t ∧
      DieReplied s t d j q stLimit code [] ∧ t.chans = s.chans ∧
        Only [(.grate d, F.DMP_REFUSE_LIMIT_COUNT, 0), (.grate d, F.DMP_CH_REFUSE_COUNT, c % 16)] s t ∧
        t.get (.grate d) F.DMP_REFUSE_LIMIT_COUNT 0 = (s.get (.grate d) F.DMP_REFUSE_LIMIT_COUNT 0 + 1) % 2 ^
            F.DMP_REFUSE_LIMIT_COUNT.width ∧
        MemSame s t) ∧
  (∀ (s : State) (x : Side) (d : Fin 4) (j : Job) (q : List Job) (c : Nat) (p : Nat),
    s.LinkHead x d 0x201 j q → j.pkt.target = c → j.pkt.p 1 = p → s.Master x d → (s.chan c).hold = none → c / 16 = d.val →
      p.testBit 0 = true → s.chState c = 7 →
      s.ceiling c ((actOfSet p).ask false j.pkt.compared (if p.testBit 1 then bits p 16 8 else 0)) = none →
    ∃ t, Sys2Proof.Machine.exec (.chSet x d) s = .next t ∧
      DieReplied s t d j q stLimit 0x0F0 [] ∧ t.chans = s.chans ∧ Only [] s t ∧ MemSame s t) ∧
  (∀ (s : State) (x : Side) (d : Fin 4) (j : Job) (q : List Job) (c : Nat) (p : Nat) (st : Nat) (det : Nat),
    s.LinkHead x d 0x201 j q → j.pkt.target = c → j.pkt.p 1 = p → s.Master x d → (s.chan c).hold = none → c / 16 = d.val →
      p.testBit 0 = true → s.chState c = 0 →
      s.ceiling c ((actOfSet p).ask true j.pkt.compared (if p.testBit 1 then bits p 16 8 else 0)) = none → s.judge c = .refuse st det →
    ∃ t, Sys2Proof.Machine.exec (.chSet x d) s = .next t ∧
      DieReplied s t d j q st det [] ∧ t.chans = s.chans ∧
        Only [(.grate d, F.DMP_REFUSE_BUDGET_COUNT, 0), (.grate d, F.DMP_CH_REFUSE_COUNT, c % 16)] s t ∧
        t.get (.grate d) F.DMP_REFUSE_BUDGET_COUNT 0 = (s.get (.grate d) F.DMP_REFUSE_BUDGET_COUNT 0 + 1) % 2 ^
            F.DMP_REFUSE_BUDGET_COUNT.width ∧
        MemSame s t) ∧
  (∀ (s : State) (x : Side) (d : Fin 4) (j : Job) (q : List Job) (c : Nat) (p : Nat) (l : List Nat),
    s.LinkHead x d 0x201 j q → j.pkt.target = c → j.pkt.p 1 = p → s.Master x d → (s.chan c).hold = none → c / 16 = d.val →
      p.testBit 0 = true → s.chState c = 0 →
      s.ceiling c ((actOfSet p).ask true j.pkt.compared (if p.testBit 1 then bits p 16 8 else 0)) = none → s.judge c = .hold l →
    ∃ t, Sys2Proof.Machine.exec (.chSet x d) s = .next t ∧
      DieReplied s t d j q stDelayed ((s.cq c F.DMP_CH_CFG_HOLD + 1) / 2) [] ∧ t.cq c F.CH_STATE_HELD = 1 ∧ t.chState c = 0 ∧
        t.cq c F.DMP_CH_STATUS_HELD_TAG = j.pkt.tag % 2 ^ F.DMP_CH_STATUS_HELD_TAG.width ∧
        (t.chan c).hold.map (fun h => (h.job, h.until_)) = some (some j, s.now + s.cq c F.DMP_CH_CFG_HOLD * 1000000) ∧ ChansBut [c] s t ∧
        Only ((.grate d, F.DMP_HOLD_COUNT, 0) :: chSpots c [F.CH_STATE_HELD, F.DMP_CH_STATUS_HELD_SIDE, F.DMP_CH_STATUS_HELD_TAG,
            F.CH_STATE_CMD_ON]) s t ∧
        MemSame s t) ∧
  (∀ (s : State) (x : Side) (d : Fin 4) (j : Job) (q : List Job),
    s.LinkHead x d 0x201 j q → s.holds x d = false → (s.die d).oldHolder ≠ some x →
    ∃ t, Sys2Proof.Machine.exec (.chSet x d) s = .next t ∧
      DieReplied s t d j q stMaster (if s.tokHolder d ≤ 1 then 2 + s.tokHolder d else 0) [] ∧ t.chans = s.chans ∧ Only [] s t ∧
        MemSame s t)

/-- CH_QUERY is answered OK with bits 15:0 of CH_STATE and the latest current, voltage and junction temperature, and changes nothing. A
CH_GROUP_SET that turns off channels of its world, none of them a safety channel or held, is answered OK with every one in APPLIED:
each has CMD_ON 0; channels that it does not select are left alone. One that turns on one channel, which the ceilings and the Damper
admit, is answered OK and starts it in SLEW at its default slew. Every CH_GROUP_SET of the die's master with some channel that is not
denied, while no turn-on of the die is held, is answered with the four masks, which cover the selection: OK or PARTIAL, or DELAYED
while some channel is held. One whose channels all belong to another world is answered WORLD_DENIED. -/
def Obligations.ChannelQueryAndGroups : Prop :=
  (∀ (s : State) (x : Side) (d : Fin 4) (j : Job) (q : List Job) (c : Nat) (p : Nat),
    s.LinkHead x d 0x204 j q → j.pkt.target = c → j.pkt.p 1 = p →
    ∃ t, Sys2Proof.Machine.exec (.chQuery x d) s = .next t ∧
      DieReplied s t d j q stOk 0 [s.chStateWord c % 2 ^ 16, s.cq c F.MEAS_I, s.cq c F.MEAS_V, s.cq c F.MEAS_TJ] ∧ Only [] s t ∧
        MemSame s t ∧ t.chans = s.chans ∧ (∀ e : Nat, t.die e = { s.die e with out := (t.die e).out })) ∧
  (∀ (s : State) (x : Side) (d : Fin 4) (j : Job) (q : List Job) (p : Nat),
    s.LinkHead x d 0x206 j q → j.pkt.p 1 = p → s.Master x d → j.pkt.p 2 = 0 → s.groupDenied d (bits p 15 0) j.pkt.world = 0 →
      (∀ n : Nat, n < 16 → (s.chan (16 * d.val + n)).hold = none ∧ s.isSafety (16 * d.val + n) = false) →
    ∃ t, Sys2Proof.Machine.exec (.chGroupSet x d) s = .next t ∧
      DieReplied s t d j q stOk 0 [bits p 15 0, 0, 0, 0] ∧
        (∀ n : Nat, n < 16 → (bits p 15 0).testBit n = true → t.cq (16 * d.val + n) F.CH_STATE_CMD_ON = 0 ∧ driven (t.chState (16 * d.val +
            n)) = false) ∧
        (∀ n : Nat, n < 16 → (bits p 15 0).testBit n = false → t.chan (16 * d.val + n) = s.chan (16 * d.val + n) ∧ ∀ f, t.cq (16 * d.val +
            n) f = s.cq (16 * d.val + n) f) ∧
        MemSame s t) ∧
  (∀ (s : State) (x : Side) (d : Fin 4) (j : Job) (q : List Job) (p : Nat),
    s.LinkHead x d 0x206 j q → j.pkt.p 1 = p → s.Master x d →
      (s.groupDenied d (bits p 15 0) j.pkt.world ≠ bits p 15 0 ∨ bits p 15 0 = 0) →
      (chansOf d).all (fun e => (s.chan e).hold == none) = true →
    ∃ t, Sys2Proof.Machine.exec (.chGroupSet x d) s = .next t ∧
      Tab.at [] (t.side x).links d = q ∧
        (∃ r : Reply, t.backward x d = s.backward x d ++ [r] ∧ r.job = j ∧ r.words.length = 4 ∧ r.words.getD 3 0 = s.groupDenied d (bits p
            15 0) j.pkt.world ∧ (r.words.getD 1 0 = 0 → r.status = (if r.words.getD 0 0 = bits p 15 0 then stOk else stPartial)) ∧
                (r.words.getD 1 0 ≠ 0 → r.status = stDelayed) ∧ (∀ n : Nat, n < 16 → (bits p 15 0).testBit n = ((r.words.getD 0 0).testBit
                    n || (r.words.getD 1 0).testBit n || (r.words.getD 2 0).testBit n || (r.words.getD 3 0).testBit n))) ∧
        MemSame s t) ∧
  (∀ (s : State) (x : Side) (d : Fin 4) (j : Job) (q : List Job) (c : Nat) (p : Nat) (n : Nat),
    s.LinkHead x d 0x206 j q → j.pkt.p 1 = p → s.Master x d → n < 16 → 16 * d.val + n = c → bits p 15 0 = 2 ^ n →
      (j.pkt.p 2).testBit n = true → s.cq c F.CH_CFG2 = j.pkt.world → (s.chan c).hold = none → (s.chState c = 0 ∨ s.chState c = 8) →
      s.ceiling c ((actOfSet 1).ask true j.pkt.compared 0) = none → s.judge c = .allow →
    ∃ t, Sys2Proof.Machine.exec (.chGroupSet x d) s = .next t ∧
      DieReplied s t d j q stOk 0 [2 ^ n, 0, 0, 0] ∧ t.cq c F.CH_STATE_CMD_ON = 1 ∧ t.cq c F.CH_STATE_MODE = 0 ∧ t.chState c = 1 ∧
        (t.chan c).onAt = s.now ∧ (t.chan c).slew = s.slewDef c ∧ ChansBut [c] s t ∧
        Only (chSpots c [F.CH_STATE_CMD_ON, F.CH_STATE_STATE, F.CH_STATE_MODE, F.CH_STATE_SPARK_LAST, F.DMP_CH_STATUS_SHED,
            F.WIRE_STATUS_TRIPPED, F.CH_TURN_ON_COUNT]) s t ∧
        MemSame s t) ∧
  (∀ (s : State) (x : Side) (d : Fin 4) (j : Job) (q : List Job) (p : Nat),
    s.LinkHead x d 0x206 j q → j.pkt.p 1 = p → s.Master x d → s.groupDenied d (bits p 15 0) j.pkt.world = bits p 15 0 → bits p 15 0 ≠ 0 →
    ∃ t, Sys2Proof.Machine.exec (.chGroupSet x d) s = .next t ∧
      DieReplied s t d j q stDenied 1 [] ∧ t.chans = s.chans ∧ Only [] s t ∧ MemSame s t)

/-- At the token holder's die, with the COMPARED mark that a safety channel asks for: CH_CONFIG within the harness limit writes the
commanded limit and the retry policy, and the effective limit follows the three sources; DMP_PRIORITY_SET writes priority and hold
time; a CH_CLEAR of a LATCHED channel below its bounds takes it to OFF with CMD_ON and the retries used cleared, and clears the
diagnostic flags if asked. A limit above the harness record is refused with 0x003. -/
def Obligations.ChannelSettings : Prop :=
  (∀ (s : State) (x : Side) (j : Job) (q : List Job) (c : Nat) (p : Nat),
    s.Head x 0x203 j q → s.Master x (c / 16) → j.pkt.target = c → j.pkt.p 1 = p → s.comparedOk j c = true →
      sigInt p ≤ sigInt (s.hrn c 1) →
    Acts (.chConfig x) s j q stOk 0 [] (chSpots c [F.CH_ILIM_CMD, F.CH_RETRY_POLICY, F.CH_RETRY_LIMIT, F.CH_RETRY_INTERVAL, F.CH_ILIM_EFF])
     (fun t => t.cq c F.CH_ILIM_CMD = p % 2 ^ 40 ∧ t.cq c F.CH_RETRY_POLICY = bits (j.pkt.p 2) 3 0 % 2 ^ F.CH_RETRY_POLICY.width ∧ t.cq c
         F.CH_RETRY_LIMIT = bits (j.pkt.p 2) 7 4 ∧ t.cq c F.CH_RETRY_INTERVAL = bits (j.pkt.p 2) 23 8 ∧ t.cq c F.CH_ILIM_EFF = sigWord (min
             (sigInt (p % 2 ^ 40)) (min (s.ci c F.CH_ILIM_CEIL) (sigInt (s.hrn c 1)))) ∧ t.chans = s.chans)) ∧
  (∀ (s : State) (x : Side) (j : Job) (q : List Job) (c : Nat) (p : Nat),
    s.Head x 0x203 j q → s.Master x (c / 16) → j.pkt.target = c → j.pkt.p 1 = p → s.comparedOk j c = true →
      sigInt (s.hrn c 1) < sigInt p →
    Acts (.chConfig x) s j q stLimit 0x003 [] [(.grate (c / 16), F.DMP_REFUSE_LIMIT_COUNT, 0), (.grate (c / 16), F.DMP_CH_REFUSE_COUNT, c %
        16)]
     (fun t => t.chans = s.chans)) ∧
  (∀ (s : State) (x : Side) (j : Job) (q : List Job) (c : Nat) (p : Nat),
    s.Head x 0x302 j q → s.Master x (c / 16) → j.pkt.target = c → j.pkt.p 1 = p → s.comparedOk j c = true →
      ¬ (bits p 1 0 = 3 ∧ s.isSafety c = true) →
    Acts (.dmpPrioritySet x) s j q stOk 0 [] (chSpots c [F.DMP_CH_CFG_PRIO, F.DMP_CH_CFG_HOLD])
     (fun t => t.cq c F.DMP_CH_CFG_PRIO = bits p 1 0 ∧ t.cq c F.DMP_CH_CFG_HOLD = bits p 28 16 ∧ t.chans = s.chans)) ∧
  (∀ (s : State) (x : Side) (j : Job) (q : List Job) (c : Nat) (p : Nat),
    s.Head x 0x205 j q → s.Master x (c / 16) → j.pkt.target = c → j.pkt.p 1 = p → s.comparedOk j c = true → p.testBit 0 = true →
      s.chState c = 7 → s.clearRefused c = none →
    Acts (.chClear x) s j q stOk 0 [] (chSpots c [F.CH_STATE_STATE, F.CH_STATE_CMD_ON, F.CH_DIAG, F.DMP_CH_STATUS_SHED])
     (fun t => t.chState c = 0 ∧ t.cq c F.CH_STATE_CMD_ON = 0 ∧ (t.chan c).retries = 0 ∧ t.cq c F.CH_DIAG = (if p.testBit 1 then 0 else
         s.cq c F.CH_DIAG) ∧ ChansBut [c] s t))

/-- CH_MEASURE adds a window to the channel and is not answered until the window holds its ticks; then the first such window is answered OK
with the mean and peak current, mean voltage, peak junction temperature, energy and wire rise. DMP_WIRE_QUERY answers the rise, the
trip threshold and the trip flags, DMP_HARNESS_READ the valid harness record or zeros, DMP_STATUS the currents, the dissipation, the
coolant and the DERATE and RIDE flags. None changes a register of the die. -/
def Obligations.ChannelMeasurements : Prop :=
  (∀ (s : State) (x : Side) (j : Job) (q : List Job) (c : Nat) (p : Nat),
    s.Head x 0x207 j q → j.pkt.target = c → j.pkt.p 1 = p → s.present (dieUnit (c / 16)) = true →
    ∃ t, Sys2Proof.Machine.exec (.chMeasure x) s = .next t ∧
      Unanswered s t j ∧ (t.side x).chromirQ = q.dropWhile isLong ∧
        (t.chan c).measures = (s.chan c).measures ++ [⟨j, bits p 6 0, [], 0, 0⟩] ∧ ChansBut [c] s t ∧ Only [] s t ∧ MemSame s t) ∧
  (∀ (s : State) (d : Fin 4) (n : Fin 16) (c : Nat) (m : Measure),
    16 * d.val + n.val = c → (s.chan c).measures.find? (fun m => decide (m.window ≤ m.taken.length)) = some m → s.Open m.job →
    ∃ t, Sys2Proof.Machine.exec (.chMeasureWindowEnd d n) s = .next t ∧
      Replied s t m.job stOk 0 (measureWords m) ∧ (t.chan c).measures = (s.chan c).measures.filter (fun k => k.job != m.job) ∧
        ChansBut [c] s t ∧ Only (replyFields m.job) s t ∧ MemSame s t) ∧
  (∀ (s : State) (x : Side) (j : Job) (q : List Job) (c : Nat),
    s.Head x 0x303 j q → j.pkt.target = c → s.present (dieUnit (c / 16)) = true →
    Acts (.dmpWireQuery x) s j q stOk 0 [s.cq c F.WIRE_THETA, s.hrn c 4, s.cq c F.WIRE_STATUS_TRIPPED + s.cq c F.WIRE_STATUS_COOLING * 2] []
     (fun t => t.chans = s.chans ∧ t.dies = s.dies)) ∧
  (∀ (s : State) (x : Side) (j : Job) (q : List Job) (c : Nat),
    s.Head x 0x304 j q → j.pkt.target = c → s.present (dieUnit (c / 16)) = true →
    Acts (.dmpHarnessRead x) s j q stOk 0 ((s.chan c).record.getD (List.replicate 8 0)) []
     (fun t => t.chans = s.chans ∧ t.dies = s.dies)) ∧
  (∀ (s : State) (x : Side) (j : Job) (q : List Job),
    s.Head x 0x301 j q →
    Acts (.dmpStatus x) s j q stOk 0 [sigWord (sigInt (s.get (.grate 0) F.MEAS_FEED_I 0) + sigInt (s.get (.grate 1) F.MEAS_FEED_I 0) +
        sigInt (s.get (.grate 2) F.MEAS_FEED_I 0) + sigInt (s.get (.grate 3) F.MEAS_FEED_I 0)), sigWord (sigInt (s.get (.grate 0)
            F.MEAS_FEED_I 0) + sigInt (s.get (.grate 1) F.MEAS_FEED_I 0)), sigWord (sigInt (s.get (.grate 2) F.MEAS_FEED_I 0) + sigInt
                (s.get (.grate 3) F.MEAS_FEED_I 0)), sigWord s.totalWatts, s.get (.grate s.busDie) F.DMP_COOLANT 0, b2n s.damper.derate +
                    b2n (s.riding 0 || s.riding 2) * 2] []
     (fun t => t.chans = s.chans ∧ t.dies = s.dies)) ∧
  (∀ (s : State) (x : Side) (j : Job) (q : List Job) (c : Nat),
    s.Head x 0x303 j q → j.pkt.target = c → s.present (dieUnit (c / 16)) = false →
    Acts (.dmpWireQuery x) s j q stAbsent (unitCode (dieUnit (c / 16))) [] [(.side x, F.FAB_PROXY_ABSENT, 0)]
     (fun t => t.chans = s.chans ∧ t.get (.side x) F.FAB_PROXY_ABSENT 0 = (s.get (.side x) F.FAB_PROXY_ABSENT 0 + 1) % 2 ^
         F.FAB_PROXY_ABSENT.width))

/-- For a rule of the side (TARGET 0x00 to 0xFF), whatever tokens it holds, or one of a PRESENT Flue die with the net token: SPK_RULE_WRITE
is answered OK and the twelve words of the rule are those of the packet, and its hold-off starts afresh; SPK_RULE_ENABLE is answered OK
and ENABLED is bit 0 of P1; SPK_RULE_QUERY answers the twelve words, the enable and the owner, SPK_STATS the fires, the refusals and
the instant of the last fire. No other rule's registers and no memory change. -/
def Obligations.SparkOpcodes : Prop :=
  (∀ (s : State) (x : Side) (j : Job) (q : List Job) (m : Matcher) (n : Nat),
    s.Head x 0x401 j q → ruleOf x j.pkt.target = (m, n) → (m = .flue → s.present .flue = true) → (m = .flue → s.holds x 4 = true) →
    Acts (.spkRuleWrite x) s j q stOk 0 [] ((matcherHolder m, F.SPK_RULE_CTRL_COMPARED, n) :: (List.range 12).map (fun k => (matcherHolder
        m, F.SPK_RULE_W, 12 * n + k + 1)))
     (fun t => (∀ k : Nat, k < 12 → t.ruleWord m n (k + 1) = j.pkt.p (k + 1) % 2 ^ 40) ∧ Tab.at 0 (t.matcher m).lastFire n = 0 ∧ (Tab.at 0
         (t.matcher m).marks n).testBit 0 = j.pkt.compared ∧ t.mq m F.SPK_RULE_CTRL_COMPARED n = b2n (Tab.at 0 (t.matcher m).marks n == 3))) ∧
  (∀ (s : State) (x : Side) (j : Job) (q : List Job) (m : Matcher) (n : Nat),
    s.Head x 0x402 j q → ruleOf x j.pkt.target = (m, n) → (m = .flue → s.present .flue = true) → (m = .flue → s.holds x 4 = true) →
    Acts (.spkRuleEnable x) s j q stOk 0 [] [(matcherHolder m, F.SPK_RULE_CTRL_COMPARED, n), (matcherHolder m, F.SPK_RULE_CTRL_ENABLED, n)]
     (fun t => t.mq m F.SPK_RULE_CTRL_ENABLED n = b2n ((j.pkt.p 1).testBit 0) ∧ ((j.pkt.p 1).testBit 0 = true → (Tab.at 0 (t.matcher
         m).marks n).testBit 1 = j.pkt.compared ∧ t.mq m F.SPK_RULE_CTRL_COMPARED n = b2n (Tab.at 0 (t.matcher m).marks n == 3)) ∧
             ((j.pkt.p 1).testBit 0 = false → t.matcher m = s.matcher m ∧ t.mq m F.SPK_RULE_CTRL_COMPARED n = s.mq m
                 F.SPK_RULE_CTRL_COMPARED n))) ∧
  (∀ (s : State) (x : Side) (j : Job) (q : List Job) (m : Matcher) (n : Nat),
    s.Head x 0x403 j q → ruleOf x j.pkt.target = (m, n) → (m = .flue → s.present .flue = true) →
    Acts (.spkRuleQuery x) s j q stOk 0 ((List.range 12).map (fun k => s.ruleWord m n (k + 1)) ++ [s.mq m F.SPK_RULE_CTRL_ENABLED n + s.mq
        m F.SPK_RULE_CTRL_OWNER n * 2]) []
     (fun t => t.matcher m = s.matcher m)) ∧
  (∀ (s : State) (x : Side) (j : Job) (q : List Job) (m : Matcher) (n : Nat),
    s.Head x 0x404 j q → ruleOf x j.pkt.target = (m, n) → (m = .flue → s.present .flue = true) →
    Acts (.spkStats x) s j q stOk 0 [s.mq m F.SPK_RULE_FIRES n, s.mq m F.SPK_RULE_REFUSED n, s.mq m F.SPK_RULE_LAST_S n, s.mq m
        F.SPK_RULE_LAST_NS n] []
     (fun t => t.matcher m = s.matcher m)) ∧
  (∀ (s : State) (x : Side) (j : Job) (q : List Job) (n : Nat),
    s.Head x 0x401 j q → ruleOf x j.pkt.target = (.flue, n) → s.present .flue = true → s.holds x 4 = false →
    Acts (.spkRuleWrite x) s j q stMaster (if s.tokHolder 4 ≤ 1 then 2 + s.tokHolder 4 else 0) [] []
     (fun t => t.flue = s.flue))

/-- A source event that no rule of the matcher matches leaves all but the queue of events. The one rule that matches an event, of a running
world and past its hold-off, fires: its action, with its channel and parameter, enters the line of that channel's die, and the fire and
its instant are counted and kept; a sealed rule that an event with a failed verification matches does not fire and is counted. The
action at the head of a line reaches its die: for a channel without permission for the rule's owner it is answered WORLD_DENIED, for an
ABSENT die TARGET_ABSENT with the unit code of that die, and the channels stay; an answer OK leaves its line and lets the action that
waits first enter the line; any other status counts a refusal. -/
def Obligations.SparkEvents : Prop :=
  (∀ (s : State) (m : Matcher) (e : Stimulus) (k : List Stimulus),
    (s.matcher m).events = e :: k → (∀ n : Nat, n < ruleCount m → s.ruleMatches m n e = false) →
    ∃ t, Sys2Proof.Machine.exec (.sparkSourceEvent m) s = .next t ∧
      (t.matcher m).events = k ∧ (t.matcher m).lines = (s.matcher m).lines ∧ Only [] s t ∧ MemSame s t ∧ t.chans = s.chans) ∧
  (∀ (s : State) (m : Matcher) (n : Nat) (e : Stimulus) (k : List Stimulus) (c : Nat),
    (s.matcher m).events = e :: k → s.matcherReady m = true → n < ruleCount m → s.ruleMatches m n e = true →
      (∀ i : Nat, i < ruleCount m → i ≠ n → s.ruleMatches m i e = false) → e.failed = false →
      ((s.ruleWord m n 1).testBit 7 = true → e.verified = true) →
      (s.mq m F.SPK_WORLD_RUN 0).testBit (s.mq m F.SPK_RULE_CTRL_OWNER n) = true →
      (Tab.at 0 (s.matcher m).lastFire n = 0 ∨ Tab.at 0 (s.matcher m).lastFire n - 1 + bits (s.ruleWord m n 12) 15 0 * 10000 ≤ e.at_) →
      bits (s.ruleWord m n 1) 15 12 ≠ 0 → bits (s.ruleWord m n 1) 21 16 = c → Tab.at [] (s.matcher m).waiting (c / 16) = [] →
      s.lineLoad m (c / 16) < 8 →
    ∃ t, Sys2Proof.Machine.exec (.sparkSourceEvent m) s = .next t ∧
      (t.matcher m).events = k ∧
        Tab.at [] (t.matcher m).lines (c / 16) = Tab.at [] (s.matcher m).lines (c / 16) ++ [⟨n, s.mq m F.SPK_RULE_CTRL_OWNER n, s.mq m
            F.SPK_RULE_CTRL_COMPARED n == 1, s.ruleAction m n e, e.seconds, e.nanos, false⟩] ∧
        t.mq m F.SPK_RULE_FIRES n = (s.mq m F.SPK_RULE_FIRES n + 1) % 2 ^ F.SPK_RULE_FIRES.width ∧
        t.mq m F.SPK_RULE_LAST_S n = e.seconds % 2 ^ F.SPK_RULE_LAST_S.width ∧
        t.mq m F.SPK_RULE_LAST_NS n = e.nanos % 2 ^ F.SPK_RULE_LAST_NS.width ∧ Tab.at 0 (t.matcher m).lastFire n = e.at_ + 1 ∧
        t.chans = s.chans ∧ MemSame s t) ∧
  (∀ (s : State) (m : Matcher) (n : Nat) (e : Stimulus) (k : List Stimulus),
    (s.matcher m).events = e :: k → s.matcherReady m = true → n < ruleCount m → s.ruleMatches m n e = true →
      (∀ i : Nat, i < ruleCount m → i ≠ n → s.ruleMatches m i e = false) → e.failed = true → (s.ruleWord m n 1).testBit 7 = true →
    ∃ t, Sys2Proof.Machine.exec (.sparkSourceEvent m) s = .next t ∧
      (t.matcher m).events = k ∧ (t.matcher m).lines = (s.matcher m).lines ∧ t.mq m F.SPK_STATUS_SEAL_FAIL 0 = 1 ∧
        t.mq m F.SPK_SEAL_FAIL_COUNT 0 = (s.mq m F.SPK_SEAL_FAIL_COUNT 0 + 1) % 2 ^ F.SPK_SEAL_FAIL_COUNT.width ∧
        t.mq m F.SPK_RULE_FIRES n = s.mq m F.SPK_RULE_FIRES n ∧ t.chans = s.chans ∧ MemSame s t) ∧
  (∀ (s : State) (m : Matcher) (d : Fin 4) (a : SparkAction) (l : List SparkAction) (c : Nat) (p : Nat),
    Tab.at [] (s.matcher m).lines d = a :: l → s.present (dieUnit d) = true → a.orphan = false → a.words = [1, c, p] →
      (s.cq c F.CH_SPARK).testBit a.world = false →
    ∃ t, Sys2Proof.Machine.exec (.sparkActionArrival m d) s = .next t ∧
      Tab.at [] (t.matcher m).lines d = l ∧
        Tab.at [] (t.matcher m).answers d = Tab.at [] (s.matcher m).answers d ++ [⟨a.rule, a.world, stDenied, 1, c, a.seconds, a.nanos⟩] ∧
        t.chans = s.chans ∧ Only [] s t ∧ MemSame s t) ∧
  (∀ (s : State) (m : Matcher) (d : Fin 4) (a : SparkAction) (l : List SparkAction) (c : Nat) (p : Nat),
    Tab.at [] (s.matcher m).lines d = a :: l → s.present (dieUnit d) = true → a.orphan = false → a.words = [1, c, p] →
      (s.cq c F.CH_SPARK).testBit a.world = true → p.testBit 0 = false → c / 16 = d.val → (s.chan c).hold = none →
      s.ceiling c ((actOfSet p).ask false a.compared (if p.testBit 1 then bits p 16 8 else 0)) = none →
    ∃ t, Sys2Proof.Machine.exec (.sparkActionArrival m d) s = .next t ∧
      Tab.at [] (t.matcher m).answers d = Tab.at [] (s.matcher m).answers d ++ [⟨a.rule, a.world, stOk, 0, c, a.seconds, a.nanos⟩] ∧
        t.cq c F.CH_STATE_CMD_ON = 0 ∧ t.cq c F.CH_STATE_SPARK_LAST = 1 ∧ driven (t.chState c) = false ∧ ChansBut [c] s t ∧
        Only (chSpots c [F.CH_STATE_CMD_ON, F.CH_STATE_STATE, F.CH_STATE_MODE, F.CH_STATE_SPARK_LAST, F.DMP_CH_STATUS_SHED]) s t ∧
        MemSame s t) ∧
  (∀ (s : State) (m : Matcher) (d : Fin 4) (a : SparkAction) (l : List SparkAction) (c : Nat),
    Tab.at [] (s.matcher m).lines d = a :: l → s.present (dieUnit d) = false → a.orphan = false → a.words.getD 1 0 = c →
    ∃ t, Sys2Proof.Machine.exec (.sparkActionArrival m d) s = .next t ∧
      Tab.at [] (t.matcher m).lines d = l ∧
        Tab.at [] (t.matcher m).answers d = Tab.at [] (s.matcher m).answers d ++ [⟨a.rule, a.world, stAbsent, unitCode (dieUnit d), c,
            a.seconds, a.nanos⟩] ∧
        t.chans = s.chans ∧
        (∀ y : Side, m = .side y → t.get (.side y) F.FAB_PROXY_ABSENT 0 = (s.get (.side y) F.FAB_PROXY_ABSENT 0 + 1) % 2 ^
            F.FAB_PROXY_ABSENT.width) ∧
        Only [(.side .a, F.FAB_PROXY_ABSENT, 0), (.side .b, F.FAB_PROXY_ABSENT, 0)] s t ∧ MemSame s t) ∧
  (∀ (s : State) (m : Matcher) (d : Fin 4) (r : SparkReply) (l : List SparkReply) (a : SparkAction) (w : List SparkAction),
    Tab.at [] (s.matcher m).answers d = r :: l → r.status = stOk → Tab.at [] (s.matcher m).waiting d = a :: w →
    ∃ t, Sys2Proof.Machine.exec (.sparkAnswer m d) s = .next t ∧
      Tab.at [] (t.matcher m).answers d = l ∧ Tab.at [] (t.matcher m).waiting d = w ∧
        Tab.at [] (t.matcher m).lines d = Tab.at [] (s.matcher m).lines d ++ [a] ∧ Only [] s t ∧ MemSame s t) ∧
  (∀ (s : State) (m : Matcher) (d : Fin 4) (r : SparkReply) (l : List SparkReply),
    Tab.at [] (s.matcher m).answers d = r :: l → (r.status = stLimit ∨ r.status = stBudget) → Tab.at [] (s.matcher m).waiting d = [] →
    ∃ t, Sys2Proof.Machine.exec (.sparkAnswer m d) s = .next t ∧
      Tab.at [] (t.matcher m).answers d = l ∧
        t.mq m F.SPK_RULE_REFUSED r.rule = (s.mq m F.SPK_RULE_REFUSED r.rule + 1) % 2 ^ F.SPK_RULE_REFUSED.width ∧
        t.mq m F.SPK_STATUS_REFUSED 0 = 1 ∧ MemSame s t)

/-- On a running die: a completed turn-on takes SLEW to ON; LIMIT is entered from SLEW, ON or an on-phase of PWM, counted, and left to
where the channel came from; thermal shutdown takes a driven channel to TSD with fault 5, counted; a cooled channel that is not
commanded on goes to OFF; a passed self-check resets the count of failures and a first failure starts it; the second in a row is fault
10, which latches the channel in every state but NOFEED. No other channel changes. -/
def Obligations.ChannelTransitions : Prop :=
  (∀ (s : State) (d : Fin 4) (n : Fin 16) (c : Nat),
    s.dieRuns d = true → chanNo d n = c → s.chState c = 1 →
    ∃ t, Sys2Proof.Machine.exec (.turnOnComplete d n) s = .next t ∧
      t.chState c = 2 ∧ (t.chan c).complete = true ∧ ChansBut [c] s t ∧ Only (chSpots c [F.CH_STATE_STATE, F.DMP_CH_STATUS_SHED]) s t ∧
        MemSame s t) ∧
  (∀ (s : State) (d : Fin 4) (n : Fin 16) (c : Nat),
    s.dieRuns d = true → chanNo d n = c → (s.chState c = 1 ∨ s.chState c = 2 ∨ (s.chState c = 3 ∧ (s.chan c).pwmOn = true)) →
    ∃ t, Sys2Proof.Machine.exec (.limitEntry d n) s = .next t ∧
      t.chState c = 4 ∧ t.cq c F.CH_LIMIT_COUNT = (s.cq c F.CH_LIMIT_COUNT + 1) % 2 ^ F.CH_LIMIT_COUNT.width ∧ ChansBut [c] s t ∧
        Only (chSpots c [F.CH_STATE_STATE, F.DMP_CH_STATUS_SHED, F.CH_LIMIT_COUNT]) s t ∧ MemSame s t) ∧
  (∀ (s : State) (d : Fin 4) (n : Fin 16) (c : Nat),
    s.dieRuns d = true → chanNo d n = c → s.chState c = 4 →
    ∃ t, Sys2Proof.Machine.exec (.limitExit d n) s = .next t ∧
      t.chState c = (if s.inPwm c then 3 else if (s.chan c).complete then 2 else 1) ∧ ChansBut [c] s t ∧
        Only (chSpots c [F.CH_STATE_STATE, F.DMP_CH_STATUS_SHED]) s t ∧ MemSame s t) ∧
  (∀ (s : State) (d : Fin 4) (n : Fin 16) (c : Nat),
    s.dieRuns d = true → chanNo d n = c → driven (s.chState c) = true →
    ∃ t, Sys2Proof.Machine.exec (.tsdEntry d n) s = .next t ∧
      t.chState c = 5 ∧ t.chFault c = 5 ∧ t.cq c F.CH_TSD_COUNT = (s.cq c F.CH_TSD_COUNT + 1) % 2 ^ F.CH_TSD_COUNT.width ∧
        (t.cq c F.CH_DIAG).testBit 4 = true ∧ (t.chan c).offAt = s.now ∧ ChansBut [c] s t ∧
        Only (noticeFields s c ++ chSpots c [F.CH_STATE_STATE, F.DMP_CH_STATUS_SHED, F.CH_DIAG, F.CH_TSD_COUNT, F.CH_EVT_SUPPRESS_COUNT]) s
            t ∧
        MemSame s t) ∧
  (∀ (s : State) (d : Fin 4) (n : Fin 16) (c : Nat),
    s.dieRuns d = true → chanNo d n = c → s.chState c = 5 → s.cq c F.CH_STATE_CMD_ON = 0 →
    ∃ t, Sys2Proof.Machine.exec (.tsdExit d n) s = .next t ∧
      t.chState c = 0 ∧ ChansBut [c] s t ∧ Only (chSpots c [F.CH_STATE_STATE, F.DMP_CH_STATUS_SHED]) s t ∧ MemSame s t) ∧
  (∀ (s : State) (d : Fin 4) (n : Fin 16) (c : Nat),
    s.dieRuns d = true → chanNo d n = c →
    ∃ t, Sys2Proof.Machine.exec (.measSelfCheck d n true) s = .next t ∧
      (t.chan c).selfFails = 0 ∧ (t.chan c).selfPasses = min 2 ((s.chan c).selfPasses + 1) ∧ t.chState c = s.chState c ∧
        ChansBut [c] s t ∧ Only [] s t ∧ MemSame s t) ∧
  (∀ (s : State) (d : Fin 4) (n : Fin 16) (c : Nat),
    s.dieRuns d = true → chanNo d n = c → (s.chan c).selfFails = 0 →
    ∃ t, Sys2Proof.Machine.exec (.measSelfCheck d n false) s = .next t ∧
      (t.chan c).selfFails = 1 ∧ (t.chan c).selfPasses = 0 ∧ t.chState c = s.chState c ∧ ChansBut [c] s t ∧ Only [] s t ∧ MemSame s t) ∧
  (∀ (s : State) (d : Fin 4) (n : Fin 16) (c : Nat),
    s.dieRuns d = true → chanNo d n = c → 1 ≤ (s.chan c).selfFails → s.chState c = 9 →
    ∃ t, Sys2Proof.Machine.exec (.measSelfCheck d n false) s = .next t ∧
      t.chState c = 9 ∧ (t.cq c F.CH_DIAG).testBit 9 = true ∧ ChansBut [c] s t ∧
        Only (noticeFields s c ++ chSpots c [F.CH_DIAG, F.CH_EVT_SUPPRESS_COUNT]) s t ∧ MemSame s t) ∧
  (∀ (s : State) (d : Fin 4) (n : Fin 16) (c : Nat),
    s.dieRuns d = true → chanNo d n = c → 1 ≤ (s.chan c).selfFails → s.chState c ≠ 9 → s.chState c ≠ 7 →
    ∃ t, Sys2Proof.Machine.exec (.measSelfCheck d n false) s = .next t ∧
      t.chState c = 7 ∧ t.chFault c = 10 ∧ (t.cq c F.CH_DIAG).testBit 9 = true ∧
        t.cq c F.CH_LATCH_COUNT = (s.cq c F.CH_LATCH_COUNT + 1) % 2 ^ F.CH_LATCH_COUNT.width ∧ ChansBut [c] s t ∧
        Only (noticeFields s c ++ chSpots c [F.CH_STATE_STATE, F.DMP_CH_STATUS_SHED, F.CH_DIAG, F.CH_LATCH_COUNT, F.CH_EVT_SUPPRESS_COUNT])
            s t ∧
        MemSame s t)

/-- An inrush that has not completed in INRUSH_MAX, reverse current in a driven channel, and the end of a thermal shutdown turn the channel
off: it goes to OFF when it is not commanded on, to RETRY_WAIT while attempts remain, and otherwise to LATCHED, with the sticky bit and
the fault kept. A retry attempt past its limit latches; one second without a fault clears the retries used. -/
def Obligations.FaultHandling : Prop :=
  (∀ (s : State) (d : Fin 4) (n : Fin 16) (c : Nat),
    s.dieRuns d = true → chanNo d n = c → s.chState c = 1 →
    ∃ t, Sys2Proof.Machine.exec (.inrushTimeout d n) s = .next t ∧
      t.chState c = (if s.cq c F.CH_STATE_CMD_ON = 0 then 0 else if (s.chan c).retries < s.attemptLimit c then 6 else 7) ∧
        (t.cq c F.CH_DIAG).testBit 6 = true ∧ t.chFault c = (if t.chState c = 0 then 0 else 7) ∧
        t.now = max s.now ((s.chan c).onAt + max 1 (s.cq c F.CH_CFG1_INRUSH_MAX) * 1000000) ∧ ChansBut [c] s t ∧
        Only (noticeFields s c ++ chSpots c [F.CH_STATE_STATE, F.DMP_CH_STATUS_SHED, F.CH_DIAG, F.CH_LATCH_COUNT, F.CH_EVT_SUPPRESS_COUNT])
            s t ∧
        MemSame s t) ∧
  (∀ (s : State) (d : Fin 4) (n : Fin 16) (c : Nat),
    s.dieRuns d = true → chanNo d n = c → driven (s.chState c) = true →
    ∃ t, Sys2Proof.Machine.exec (.reverseCurrent d n) s = .next t ∧
      t.chState c = (if s.cq c F.CH_STATE_CMD_ON = 0 then 0 else if (s.chan c).retries < s.attemptLimit c then 6 else 7) ∧
        (t.cq c F.CH_DIAG).testBit 5 = true ∧ t.chFault c = (if t.chState c = 0 then 0 else 6) ∧ t.now = s.now ∧ ChansBut [c] s t ∧
        Only (noticeFields s c ++ chSpots c [F.CH_STATE_STATE, F.DMP_CH_STATUS_SHED, F.CH_DIAG, F.CH_LATCH_COUNT, F.CH_EVT_SUPPRESS_COUNT])
            s t ∧
        MemSame s t) ∧
  (∀ (s : State) (d : Fin 4) (n : Fin 16) (c : Nat),
    s.dieRuns d = true → chanNo d n = c → s.chState c = 5 → s.cq c F.CH_STATE_CMD_ON = 1 →
    ∃ t, Sys2Proof.Machine.exec (.tsdExit d n) s = .next t ∧
      t.chState c = (if s.cq c F.CH_STATE_CMD_ON = 0 then 0 else if (s.chan c).retries < s.attemptLimit c then 6 else 7) ∧
        t.chFault c = (s.chan c).faultReg ∧ ChansBut [c] s t ∧
        Only (noticeFields s c ++ chSpots c [F.CH_STATE_STATE, F.DMP_CH_STATUS_SHED, F.CH_DIAG, F.CH_LATCH_COUNT, F.CH_EVT_SUPPRESS_COUNT])
            s t ∧
        MemSame s t) ∧
  (∀ (s : State) (d : Fin 4) (n : Fin 16) (c : Nat),
    s.dieRuns d = true → chanNo d n = c → s.chState c = 6 → (s.chan c).hold = none → s.cq c F.CH_STATE_CMD_ON = 1 →
      s.attemptLimit c ≤ (s.chan c).retries →
    ∃ t, Sys2Proof.Machine.exec (.retryAttempt d n) s = .next t ∧
      t.chState c = 7 ∧ t.now = max s.now (s.chan c).retryAt ∧
        t.cq c F.CH_LATCH_COUNT = (s.cq c F.CH_LATCH_COUNT + 1) % 2 ^ F.CH_LATCH_COUNT.width ∧ ChansBut [c] s t ∧
        Only (noticeFields s c ++ chSpots c [F.CH_STATE_STATE, F.DMP_CH_STATUS_SHED, F.CH_DIAG, F.CH_LATCH_COUNT, F.CH_EVT_SUPPRESS_COUNT])
            s t ∧
        MemSame s t) ∧
  (∀ (s : State) (d : Fin 4) (n : Fin 16) (c : Nat),
    s.dieRuns d = true → chanNo d n = c → s.chState c = 6 → (s.chan c).hold = none → s.cq c F.CH_STATE_CMD_ON = 1 →
      (s.chan c).retries < s.attemptLimit c → s.prio c = 0 → s.cq c F.CH_STATE_MODE = 0 →
      (s.due (s.chan c).retryAt).ceiling c ⟨true, false, s.cq c F.CH_PWM_DUTY_DUTY, s.cq c F.CH_PWM_FREQ_FREQ, (s.chan c).slew, true,
          false⟩ = none →
    ∃ t, Sys2Proof.Machine.exec (.retryAttempt d n) s = .next t ∧
      t.chState c = 1 ∧ (t.chan c).retries = min 65535 ((s.chan c).retries + 1) ∧
        t.cq c F.CH_RETRY_COUNT = (s.cq c F.CH_RETRY_COUNT + 1) % 2 ^ F.CH_RETRY_COUNT.width ∧
        (t.chan c).onAt = max s.now (s.chan c).retryAt ∧ ChansBut [c] s t ∧ MemSame s t) ∧
  (∀ (s : State) (d : Fin 4) (n : Fin 16) (c : Nat) (e : Nat),
    s.dieRuns d = true → chanNo d n = c → (s.chan c).okSince = some e →
    ∃ t, Sys2Proof.Machine.exec (.retriesClear d n) s = .next t ∧
      t.now = max s.now (e + 1000000000) ∧ (t.chan c).retries = 0 ∧ ChansBut [c] s t ∧ Only [] s t ∧ MemSame s t)

/-- An absent feed sets FEED_ABSENT, and FEED_REVERSED if it is below -1 V, and every channel of the die that is not LATCHED, DAMPER_OFF or
NOFEED goes to NOFEED; the return of the feed clears both flags and takes those channels to OFF; overvoltage only sets or clears its
flag. A channel in PWM with DUTY 65 535 is on for the whole of the next period; an off-edge ends the on-phase at its instant. -/
def Obligations.FeedAndPwm : Prop :=
  (∀ (s : State) (d : Fin 4) (r : Bool),
    s.dieRuns d = true →
    ∃ t, Sys2Proof.Machine.exec (.feedBusAbsent d r) s = .next t ∧
      t.get (.grate d) F.MEAS_STATUS_FEED_ABSENT 0 = 1 ∧
        t.get (.grate d) F.MEAS_STATUS_FEED_REVERSED 0 = (if r then 1 else s.get (.grate d) F.MEAS_STATUS_FEED_REVERSED 0) ∧
        (∀ c : Nat, c < 64 → c / 16 = d.val → t.chState c = (if s.chState c = 7 ∨ s.chState c = 8 then s.chState c else 9) ∧ (t.chan
            c).retries = (s.chan c).retries) ∧
        (∀ c : Nat, c < 64 → c / 16 ≠ d.val → t.chState c = s.chState c ∧ t.chan c = s.chan c) ∧ MemSame s t) ∧
  (∀ (s : State) (d : Fin 4),
    s.dieRuns d = true → s.is (.grate d) F.MEAS_STATUS_FEED_ABSENT 0 = true →
    ∃ t, Sys2Proof.Machine.exec (.feedBusReturn d) s = .next t ∧
      t.get (.grate d) F.MEAS_STATUS_FEED_ABSENT 0 = 0 ∧ t.get (.grate d) F.MEAS_STATUS_FEED_REVERSED 0 = 0 ∧
        (∀ c : Nat, c < 64 → c / 16 = d.val → t.chState c = (if s.chState c = 9 then 0 else s.chState c)) ∧
        (∀ c : Nat, c < 64 → c / 16 = d.val → s.chState c = 9 → (t.chan c).gatePending = (s.cq c F.CH_STATE_CMD_ON == 1)) ∧ MemSame s t) ∧
  (∀ (s : State) (d : Fin 4) (b : Bool),
    s.dieRuns d = true →
    ∃ t, Sys2Proof.Machine.exec (.feedOvervoltage d b) s = .next t ∧
      t.get (.grate d) F.MEAS_STATUS_FEED_OV 0 = b2n b ∧ Only [(.grate d, F.MEAS_STATUS_FEED_OV, 0)] s t ∧ t.chans = s.chans ∧
        t.dies = s.dies ∧ MemSame s t) ∧
  (∀ (s : State) (d : Fin 4) (c : Nat),
    s.dieRuns d = true →
      (chansOf d).find? (fun c => (s.chan c).gatePending && s.chState c == 0 && s.cq c F.CH_STATE_CMD_ON == 1 && (s.chan c).hold == none) =
          some c →
      s.prio c = 0 → s.cq c F.CH_STATE_MODE = 0 →
      (s.due (s.die d).nextAuto).ceiling c ⟨true, false, s.cq c F.CH_PWM_DUTY_DUTY, s.cq c F.CH_PWM_FREQ_FREQ, 0, true, false⟩ = none →
    ∃ t, Sys2Proof.Machine.exec (.feedReturnTurnOn d) s = .next t ∧
      t.chState c = 1 ∧ (t.chan c).slew = s.slewDef c ∧ t.cq c F.CH_STATE_CMD_ON = 1 ∧ (t.chan c).gatePending = false ∧
        (t.die d).nextAuto = max s.now (s.die d).nextAuto + 100000 ∧ ChansBut [c] s t ∧ MemSame s t) ∧
  (∀ (s : State) (d : Fin 4) (n : Fin 16) (c : Nat),
    s.dieRuns d = true → chanNo d n = c → s.inPwm c = true → s.chState c = 3 → (s.chan c).pwmWait = false →
      s.cq c F.CH_PWM_DUTY_DUTY = 65535 → s.cq c F.CH_PWM_FREQ_COMP = 0 → s.shortPhase c (pwmPeriod (s.cq c F.CH_PWM_FREQ_FREQ)) = false →
    ∃ t, Sys2Proof.Machine.exec (.pwmPeriodStart d n) s = .next t ∧
      t.now = max s.now (s.nextPeriod c (s.chan c).pwmEnd) ∧ t.chState c = 3 ∧ (t.chan c).pwmOn = true ∧
        (t.chan c).pwmEnd = s.nextPeriod c (s.chan c).pwmEnd + 5 * pwmPeriod (s.cq c F.CH_PWM_FREQ_FREQ) ∧
        t.cq c F.CH_PWM_DUTY_DEFF = 65535 ∧ ChansBut [c] s t ∧ MemSame s t) ∧
  (∀ (s : State) (d : Fin 4) (n : Fin 16) (c : Nat) (e : Nat),
    s.dieRuns d = true → chanNo d n = c → (s.chan c).pwmOff = some e → s.inPwm c = true →
    ∃ t, Sys2Proof.Machine.exec (.pwmOffEdge d n) s = .next t ∧
      t.now = max s.now e ∧ t.chState c = 3 ∧ (t.chan c).pwmOn = false ∧ (t.chan c).pwmOff = none ∧ (t.chan c).offSlew = s.slewPwm c ∧
        ChansBut [c] s t ∧ Only (chSpots c [F.CH_STATE_STATE, F.DMP_CH_STATUS_SHED]) s t ∧ MemSame s t)

/-- After a BUDGET_EXCHANGE at which all four dies send and no turn-on is held, every die has sent its own claims on each of its budgets,
and the four allowances on the module budget together with the larger of the P0 claims and the reserve exceed neither the budget nor,
where the claims already exceed it, the claims. -/
def Obligations.BudgetAllowances : Prop :=
  (∀ (s : State) (coolant : List Word40) (pl : Option Word40),
    s.busDies = [0, 1, 2, 3] → (∀ d : Nat, d < 4 → (s.die d).powered = true ∧ s.present (dieUnit d) = true) →
    ∃ t, Sys2Proof.Machine.exec (.budgetExchange coolant pl 0) s = .next t ∧
      (∀ d : Nat, d < 4 → ∀ b ∈ budgetsOf d, Tab.at 0 (t.die d).sentCn b = t.dieClaim d b false ∧ Tab.at 0 (t.die d).sentC0 b = t.dieClaim
          d b true) ∧
        (t.heldOn 1 = false → ((Tab.at 0 (t.die 0).allow 1 + Tab.at 0 (t.die 1).allow 1 + Tab.at 0 (t.die 2).allow 1 + Tab.at 0 (t.die
            3).allow 1 + max (t.sumP0 1) (t.reserve 1) : Nat) : Int) ≤ max (t.budget 1) ((t.sumPn 1 + max (t.sumP0 1) (t.reserve 1) : Nat)
                : Int)) ∧
        MemSame s t)

/-- With every coolant sensor out of range, an exchange shows 85 degrees, SENSOR_BAD and the dissipation budget of 80 W at most on every
die of the bus. DERATE is asserted above 70 degrees and ends after its ten seconds, on every die of the bus. RIDE follows the die's
bus. A budget over at every exchange for OVER_TIME with nothing left to shed sets BUDGET_OVER on every die of the bus. A P2 turn-on
whose hold ends while it does not fit is answered REFUSED_BUDGET with HOLD_END and the first budget. -/
def Obligations.DamperEvents : Prop :=
  (∀ (s : State) (coolant : List Word40) (pl : Option Word40) (silent : BitVec 4),
    coolant ≠ [] → coolant.all (fun w => decide (sigInt w.toNat < units (-50) ∨ units 150 < sigInt w.toNat)) = true →
    ∃ t, Sys2Proof.Machine.exec (.budgetExchange coolant pl silent) s = .next t ∧
      (∀ e ∈ t.busDies, t.get (.grate e) F.DMP_COOLANT 0 = sigWord (units 85) ∧ t.get (.grate e) F.DMP_STATUS_SENSOR_BAD 0 = 1 ∧ sigInt
          (t.get (.grate e) F.DMP_DISS_BUDGET 0) ≤ units 80) ∧
        MemSame s t ∧ t.now = s.now) ∧
  (∀ (s : State) (b : Fin 4) (e : Nat),
    s.busDies ≠ [] → s.overDue (b.val + 1) = some e → s.reserveDue (b.val + 1) = none → s.shedable (b.val + 1) none = [] →
      s.budget (b.val + 1) < ((s.sumP0 (b.val + 1) + s.sumPn (b.val + 1) : Nat) : Int) →
    ∃ t, Sys2Proof.Machine.exec (.budgetOverTime b) s = .next t ∧
      t.now = max s.now e ∧ (∀ e ∈ s.busDies, t.get (.grate e) F.DMP_STATUS_BUDGET_OVER 0 = 1) ∧
        t.damper = { s.damper with overStop := Machine.setBit s.damper.overStop b.val } ∧ t.chans = s.chans ∧ MemSame s t) ∧
  (∀ (s : State) (b : Fin 4) (e : Nat),
    s.busDies ≠ [] → s.overDue (b.val + 1) = none → s.reserveDue (b.val + 1) = some e →
    ∃ t, Sys2Proof.Machine.exec (.budgetOverTime b) s = .next t ∧
      t.now = max s.now e ∧ (∀ e ∈ s.busDies, t.get (.grate e) F.DMP_STATUS_P0_OVER 0 = 1) ∧
        t.damper = { s.damper with p0Stop := Machine.setBit s.damper.p0Stop b.val } ∧ t.chans = s.chans ∧ MemSame s t) ∧
  (∀ (s : State) (b : Fin 4) (e : Nat) (f : Nat),
    s.busDies ≠ [] → s.overDue (b.val + 1) = some e → s.reserveDue (b.val + 1) = some f → e < f → s.now < f →
      s.budget (b.val + 1) ≥ ((s.sumP0 (b.val + 1) + s.sumPn (b.val + 1) : Nat) : Int) →
    ∃ t, Sys2Proof.Machine.exec (.budgetOverTime b) s = .next t ∧
      t = s.due e) ∧
  (∀ (s : State),
    s.busDies ≠ [] → units 70 < sigInt (s.get (.grate s.busDie) F.DMP_COOLANT 0) →
    ∃ t, Sys2Proof.Machine.exec (.derateAssert) s = .next t ∧
      t.damper = { s.damper with derate := true } ∧ (∀ e ∈ s.busDies, t.get (.grate e) F.DMP_STATUS_DERATE_HW 0 = 1) ∧
        Only (moduleFlags s) s t ∧ t.chans = s.chans ∧ t.now = s.now ∧ MemSame s t) ∧
  (∀ (s : State) (e : Nat),
    s.busDies ≠ [] → sigInt (s.get (.grate s.busDie) F.DMP_COOLANT 0) ≤ units 70 → s.damper.derateSince = some e →
    ∃ t, Sys2Proof.Machine.exec (.derateAssert) s = .next t ∧
      t.now = max s.now (e + 100000000) ∧ t.damper = { s.damper with derate := true } ∧
        (∀ e ∈ s.busDies, t.get (.grate e) F.DMP_STATUS_DERATE_HW 0 = 1) ∧ Only (moduleFlags s) s t ∧ t.chans = s.chans ∧ MemSame s t) ∧
  (∀ (s : State) (e : Nat),
    s.damper.derateOkSince = some e →
    ∃ t, Sys2Proof.Machine.exec (.derateEnd) s = .next t ∧
      t.now = max s.now (e + 10000000000) ∧ t.damper = { s.damper with derate := false } ∧
        (∀ e ∈ s.busDies, t.get (.grate e) F.DMP_STATUS_DERATE_HW 0 = 0) ∧ Only (moduleFlags s) s t ∧ t.chans = s.chans ∧ MemSame s t) ∧
  (∀ (s : State) (d : Fin 4),
    s.present (dieUnit d) = true →
    ∃ t, Sys2Proof.Machine.exec (.rideAssert d) s = .next t ∧
      t.riding d = true ∧
        (∀ e ∈ t.busDies, t.get (.grate e) F.DMP_STATUS_RIDE_A 0 = b2n (t.riding 0) ∧ t.get (.grate e) F.DMP_STATUS_RIDE_B 0 = b2n
            (t.riding 2)) ∧
        t.chans = s.chans ∧ MemSame s t) ∧
  (∀ (s : State) (d : Fin 4),
    s.present (dieUnit d) = true → (s.die (d.val / 2 * 2 + (1 - d.val % 2))).ride = false →
    ∃ t, Sys2Proof.Machine.exec (.rideEnd d) s = .next t ∧
      t.riding d = false ∧
        (∀ e ∈ t.busDies, t.get (.grate e) F.DMP_STATUS_RIDE_A 0 = b2n (t.riding 0) ∧ t.get (.grate e) F.DMP_STATUS_RIDE_B 0 = b2n
            (t.riding 2)) ∧
        t.chans = s.chans ∧ MemSame s t) ∧
  (∀ (s : State) (d : Fin 4) (n : Fin 16) (c : Nat) (h : Hold) (j : Job),
    16 * d.val + n.val = c → (s.chan c).hold = some h → h.job = some j → j.pkt.code ≠ 0x206 →
      (s.due h.until_).ceiling c (h.on.ask (s.isTurnOn c h.on) false j.pkt.compared) = none → s.chState c ≠ 7 → s.prio c = 2 →
      s.riding d = false → (s.due h.until_).misfitAll c ≠ [] → s.heldChans = [c] →
    ∃ t, Sys2Proof.Machine.exec (.holdExpiry d n) s = .next t ∧
      t.now = max s.now h.until_ ∧ (t.chan c).hold = none ∧ t.cq c F.CH_STATE_HELD = 0 ∧
        t.backward j.side d = s.backward j.side d ++ [⟨j, stBudget, budgetDetail 0 (((s.due h.until_).misfitAll c).headD 0), []⟩] ∧
        t.chState c = s.chState c ∧ ChansBut [c] s t ∧ MemSame s t)

/-- At a step of the wire model, a channel of a running die with ten samples takes the mean squared current (WIRE_ISQ) and the new rise
(WIRE_THETA) of R209 from its widened samples, and its samples start anew; when it was not cooling and the rise reaches THETA_TRIP, the
channel is not driven, and TRIPPED and COOLING are set and the trip counted. -/
def Obligations.WireModel : Prop :=
  (∀ (s : State) (d : Fin 4) (c : Nat),
    s.dieRuns d = true → c / 16 = d.val → (s.chan c).samples.length = 10 →
    ∃ t, Sys2Proof.Machine.exec (.wireModelStep d) s = .next t ∧
      (t.chan c).samples = [] ∧
        t.cq c F.WIRE_ISQ = (wireStep ((s.chan c).samples.map (fun i => s.widen c i.natAbs)) (s.hrn c 2) (s.hrn c 3) (s.cq c
            F.WIRE_THETA)).1 % 2 ^ F.WIRE_ISQ.width ∧
        t.cq c F.WIRE_THETA = (wireStep ((s.chan c).samples.map (fun i => s.widen c i.natAbs)) (s.hrn c 2) (s.hrn c 3) (s.cq c
            F.WIRE_THETA)).2 ∧
        (t.chan c).iMean = ((s.chan c).samples.map (fun i => i.natAbs)).foldl (· + ·) 0 / 10 ∧ MemSame s t) ∧
  (∀ (s : State) (d : Fin 4) (c : Nat),
    s.dieRuns d = true → c / 16 = d.val → (s.chan c).samples.length = 10 → s.cq c F.WIRE_STATUS_COOLING = 0 →
      sigInt (s.hrn c 4) ≤ sigInt (wireStep ((s.chan c).samples.map (fun i => s.widen c i.natAbs)) (s.hrn c 2) (s.hrn c 3) (s.cq c
          F.WIRE_THETA)).2 →
    ∃ t, Sys2Proof.Machine.exec (.wireModelStep d) s = .next t ∧
      t.cq c F.WIRE_STATUS_TRIPPED = 1 ∧ t.cq c F.WIRE_STATUS_COOLING = 1 ∧ driven (t.chState c) = false ∧
        t.cq c F.WIRE_TRIP_COUNT = (s.cq c F.WIRE_TRIP_COUNT + 1) % 2 ^ F.WIRE_TRIP_COUNT.width)

/-- A sample tick of a running die advances the tick index and stores, with that index, each channel's current and voltage with the gain
and the offset of its calibration and its temperature with its offset, held within their ranges; an uncalibrated die stores the
conversions themselves. The signal plane drains a whole post in collector order: with no stream that selects one of those words, they
leave it, and the die's run of gaps ends. A gap sets its bit and counts. Analogue samples store the calibrated values; a digital
input's edge sets its level and, if enabled, its event and source 81; the scrubber's counts add to their tallies. -/
def Obligations.SamplesAndInputs : Prop :=
  (∀ (s : State) (d : Fin 4) (smp : List Sample) (f : Word40) (k : Nat) (v : Sample),
    outsideFeed (sigInt f.toNat) = false → s.dieRuns d = true → smp.length = 16 → smp[k]? = some v →
    ∃ t, Sys2Proof.Machine.exec (.grateSampleTick d smp f) s = .next t ∧
      t.get (.grate d) F.MEAS_DIE_TICK 0 = (s.get (.grate d) F.MEAS_DIE_TICK 0 + 1) % 2 ^ F.MEAS_DIE_TICK.width ∧
        t.cq (16 * d.val + k) F.MEAS_TICK = (s.get (.grate d) F.MEAS_DIE_TICK 0 + 1) % 2 ^ F.MEAS_TICK.width ∧
        t.cq (16 * d.val + k) F.MEAS_I = sigWord (clampInt (-(rangeI k)) (rangeI k) (calibrate (sigInt v.amps.toNat) (s.calOf d (16 * d.val
            + k) q20) (s.calOf d (0x040 + (16 * d.val + k)) 0))) ∧
        t.cq (16 * d.val + k) F.MEAS_V = sigWord (clampInt (units (-60)) (units 60) (calibrate (sigInt v.volts.toNat) (s.calOf d (0x080 +
            (16 * d.val + k)) q20) (s.calOf d (0x0C0 + (16 * d.val + k)) 0))) ∧
        t.cq (16 * d.val + k) F.MEAS_TJ = sigWord (clampInt (units (-60)) (units 200) (sigInt v.temp.toNat + s.calOf d (0x100 + (16 * d.val
            + k)) 0)) ∧
        t.now = max s.now (s.die d).sampleAt ∧ MemSame s t) ∧
  (∀ (s : State) (d : Fin 4) (smp : List Sample) (f : Word40) (k : Nat) (v : Sample),
    outsideFeed (sigInt f.toNat) = false → s.dieRuns d = true → smp.length = 16 → smp[k]? = some v →
      s.is (.grate d) F.DMP_STATUS_UNCAL 0 = true →
    ∃ t, Sys2Proof.Machine.exec (.grateSampleTick d smp f) s = .next t ∧
      t.get (.grate d) F.MEAS_DIE_TICK 0 = (s.get (.grate d) F.MEAS_DIE_TICK 0 + 1) % 2 ^ F.MEAS_DIE_TICK.width ∧
        t.cq (16 * d.val + k) F.MEAS_TICK = (s.get (.grate d) F.MEAS_DIE_TICK 0 + 1) % 2 ^ F.MEAS_TICK.width ∧
        t.cq (16 * d.val + k) F.MEAS_I = sigWord (clampInt (-(rangeI k)) (rangeI k) (sigInt v.amps.toNat)) ∧
        t.cq (16 * d.val + k) F.MEAS_V = sigWord (clampInt (units (-60)) (units 60) (sigInt v.volts.toNat)) ∧
        t.cq (16 * d.val + k) F.MEAS_TJ = sigWord (clampInt (units (-60)) (units 200) (sigInt v.temp.toNat)) ∧
        t.now = max s.now (s.die d).sampleAt ∧ MemSame s t) ∧
  (∀ (s : State) (x : Side) (p : Fin 5) (e : PlaneWord) (ws : List PlaneWord),
    s.up x = true → s.planeUpTo x p = some (e, ws) → (ws.all (fun w => s.streamsOf x w.prod == []) = true) → (s.side x).planeWait = [] →
    ∃ t, Sys2Proof.Machine.exec (.measurementArrival x p) s = .next t ∧
      (t.side x).plane = (s.side x).plane.filter (fun w => ashBefore e.cycle e.prod w.cycle w.prod) ∧
        (p.val < 4 → (t.side x).gapRun.testBit p = false) ∧ t.now = max s.now (2 * e.cycle) ∧ t.resp = s.resp ∧
        t.side x.other = s.side x.other ∧ t.chans = s.chans ∧ Only [] s t ∧ MemSame s t) ∧
  (∀ (s : State) (x : Side) (d : Fin 4) (tick : Word40),
    s.up x = true →
    ∃ t, Sys2Proof.Machine.exec (.sampleGap x d tick) s = .next t ∧
      (t.get (.side x) F.FAB_GAP 0).testBit d = true ∧
        t.get (.side x) F.FAB_GAP_COUNT d = (s.get (.side x) F.FAB_GAP_COUNT d + 1) % 2 ^ F.FAB_GAP_COUNT.width ∧
        (t.side x).gapRun.testBit d = true ∧
        (∀ c : Nat, c < 64 → t.chan c = { s.chan c with measures := if c / 16 = d.val then (s.chan c).measures.map (fun m => if m.job.side
            = x then { m with taken := m.taken.filter (fun k => k.1 != tick.toNat) } else m) else (s.chan c).measures }) ∧
        Only ((.side x, F.FAB_GAP, 0) :: (.side x, F.FAB_GAP_COUNT, d.val) :: logFields x) s t ∧ t.side x.other = s.side x.other ∧
        t.dies = s.dies ∧ t.now = s.now ∧ MemSame s t) ∧
  (∀ (s : State) (x : Side) (l : List Word40) (k : Nat) (v : Word40),
    l.any (fun v => decide (sigInt v.toNat ≤ voltsQ (-32) ∨ voltsQ 58 ≤ sigInt v.toNat)) = false → s.fabric x = true → l.length = 24 →
      l[k]? = some v →
    ∃ t, Sys2Proof.Machine.exec (.ainSample x l) s = .next t ∧
      t.get (.side x) F.IN_AIN k = sigWord (s.ainValue x k (sigInt v.toNat)) ∧ SideOnly x s t ∧ MemSame s t) ∧
  (∀ (s : State) (x : Side) (n : Fin 16) (b : Bool),
    s.fabric x = true → (s.get (.side x) F.IN_DIN_STATE 0).testBit n ≠ b →
    ∃ t, Sys2Proof.Machine.exec (.dinEdge x n b) s = .next t ∧
      (t.get (.side x) F.IN_DIN_STATE 0).testBit n = b ∧
        ((s.get (.side x) F.IN_DIN_CFG_IRQ_EDGE n).testBit (if b then 0 else 1) = true → (t.get (.side x) F.IN_DIN_EVT 0).testBit n = true
            ∧ (t.get (.side x) F.INTR_PENDING 2).testBit 17 = true) ∧
        Only [(.side x, F.IN_DIN_STATE, 0), (.side x, F.IN_DIN_EVT, 0), (.side x, F.INTR_PENDING, 2)] s t ∧ SideOnly x s t ∧ MemSame s t) ∧
  (∀ (s : State) (x : Side) (v : Word40),
    s.fabric x = true →
    ∃ t, Sys2Proof.Machine.exec (.eccScrub x v []) s = .next t ∧
      t.get (.side x) F.TALLY_ECC_SCRUB_CORR 0 = (s.get (.side x) F.TALLY_ECC_SCRUB_CORR 0 + v.toNat) % 2 ^ F.TALLY_ECC_SCRUB_CORR.width ∧
        Only [(.side x, F.TALLY_ECC_SCRUB_CORR, 0)] s t ∧ SideOnly x s t ∧ MemSame s t) ∧
  (∀ (s : State) (x : Side) (v : Word40) (a : Word40),
    s.fabric x = true → inDdr a.toNat 1 = true →
    ∃ t, Sys2Proof.Machine.exec (.eccScrub x v [a]) s = .next t ∧
      t.get (.side x) F.TALLY_ECC_DDR_UNCORR 0 = (s.get (.side x) F.TALLY_ECC_DDR_UNCORR 0 + 1) % 2 ^ F.TALLY_ECC_DDR_UNCORR.width ∧
        t.get (.side x) F.ASH_SEQ 0 = (s.get (.side x) F.ASH_SEQ 0 + 1) % 2 ^ F.ASH_SEQ.width ∧
        Only ((.side x, F.TALLY_ECC_SCRUB_CORR, 0) :: (.side x, F.TALLY_ECC_DDR_UNCORR, 0) :: logFields x) s t ∧ SideOnly x s t ∧
        MemSame s t)

/-- POWER_ON from the unpowered Ember, and in Banked KL15, an enabled WAKE_LOC input, the RTC alarm, a CAN pattern, a matching wake frame,
a frame error and a TC10 pulse each declare a wake: at least 5 ms after the groups went off all three groups are enabled, the wake is
counted and its record holds cause, index, outcome 3 and whether it is confirmed already. -/
def Obligations.WakeSources : Prop :=
  (∀ (s : State),
    s.ember.phase = .off →
    ∃ t, Sys2Proof.Machine.exec (.powerOn) s = .next t ∧
      Woken s t 0 0 false) ∧
  (∀ (s : State),
    s.wakeable = true →
    ∃ t, Sys2Proof.Machine.exec (.wakeKl15) s = .next t ∧
      Woken s t 1 0 false) ∧
  (∀ (s : State) (n : Fin 4),
    s.locOn n = true → s.wakeable = true →
    ∃ t, Sys2Proof.Machine.exec (.wakeLoc n) s = .next t ∧
      Woken s t 2 n false) ∧
  (∀ (s : State) (m : Nat),
    s.get .ember F.EMBER_BANK_TIME_ALARM 0 = m → 0 < m → s.ember.phase = .banked → s.ember.ignore = false →
    ∃ t, Sys2Proof.Machine.exec (.rtcAlarm) s = .next t ∧
      Woken (s.due (s.ember.bankedAt + m * 60000000000)) t 3 0 false) ∧
  (∀ (s : State) (k : Fin 12),
    s.netArmed = true → (s.canWakeOf k).pattern = true →
    ∃ t, Sys2Proof.Machine.exec (.canWakePattern k) s = .next t ∧
      Woken s t 4 k true) ∧
  (∀ (s : State) (k : Fin 12) (fr : CanFrame),
    s.netArmed = true → (s.canWakeOf k).frame = true → (s.canWakeOf k).decodes = true → bits fr.h0.toNat 31 30 = 1 →
      (s.canWakeOf k).fits fr.h0.toNat fr.h1.toNat (dataNat fr) = true →
    ∃ t, Sys2Proof.Machine.exec (.canWakeFrame k fr) s = .next t ∧
      Woken s t 5 k false ∧ bits (t.get .ember F.EMBER_WREC 1) 29 0 = fr.h0.toNat % 2 ^ 30) ∧
  (∀ (s : State) (k : Fin 12),
    s.netArmed = true → (s.canWakeOf k).frame = true → (s.canWakeOf k).decodes = true →
    ∃ t, Sys2Proof.Machine.exec (.canFrameErrWake k) s = .next t ∧
      Woken s t 6 k true) ∧
  (∀ (s : State) (p : Fin 17),
    s.netArmed = true → 2 ≤ p.val → p.val ≤ 13 → (s.get .ember F.EMBER_TC10_EN 0).testBit (p.val - 2) = true →
    ∃ t, Sys2Proof.Machine.exec (.tc10WakePulse p) s = .next t ∧
      Woken s t 7 p true) ∧
  (∀ (s : State) (loc : BitVec 4),
    s.ember.ignore = true → (s.ember.phase = .banked ∨ s.ember.phase = .cold) →
    ∃ t, Sys2Proof.Machine.exec (.wakeBlockEnd true loc) s = .next t ∧
      Woken (s.due (s.ember.bankedAt + 1000000000)) t 1 0 false ∧ t.ember.ignore = false) ∧
  (∀ (s : State) (loc : BitVec 4),
    s.ember.ignore = true → (s.ember.phase = .banked ∨ s.ember.phase = .cold) → (List.range 4).find? (s.locHeld loc.toNat) = none →
    ∃ t, Sys2Proof.Machine.exec (.wakeBlockEnd false loc) s = .next t ∧
      t.ember.ignore = false ∧ t.ember.phase = s.ember.phase ∧ t.now = max s.now (s.ember.bankedAt + 1000000000) ∧ Only [] s t ∧
        MemSame s t)

/-- A group's power-good is kept with its instant, and with the shared group the dies are powered and STRAP_TEST is sampled (a reading of
the model, log entry 107). A missing power-good is tried again, three times; then the group has failed, and a wake without its shared
group fails: every group is off, the module is Banked and ignores wake events, the failed wake counted. A crystal not ready in 5 ms
puts the side in limp clock, noted in the record. A locked PLL starts Kindling, makes the side's own units PRESENT and shows STOKE_MODE
as sampled, unless STRAP_TEST was sampled high. The Flue die finds its reference or is flagged. -/
def Obligations.WakeSequence : Prop :=
  (∀ (s : State) (g : RailGroup) (bad : BitVec 128) (h : Bool),
    (s.group g).on = true → (s.group g).good = false → g ≠ .shared →
    ∃ t, Sys2Proof.Machine.exec (.powerGood g bad h) s = .next t ∧
      (t.group g).good = true ∧ t.now = max s.now (s.group g).tryAt ∧ (t.group g).goodAt = t.now ∧ Only [] s t ∧ MemSame s t ∧
        t.dies = s.dies) ∧
  (∀ (s : State) (bad : BitVec 128) (h : Bool),
    s.ember.gs.on = true → s.ember.gs.good = false →
    ∃ t, Sys2Proof.Machine.exec (.powerGood .shared bad h) s = .next t ∧
      t.ember.gs.good = true ∧ t.ember.straps.testBit 2 = h ∧ (∀ d : Nat, d < 4 → (t.die d).powered = true ∧ (t.die d).pwmBase = t.now) ∧
        t.flue.powered = true ∧ t.flue.reset_ = true ∧ MemSame s t) ∧
  (∀ (s : State) (g : RailGroup),
    (s.group g).on = true → (s.group g).good = false → (s.group g).tries < 3 → s.ember.gs.failed = false →
      (s.ember.ga.failed = false ∨ s.ember.gb.failed = false) → (s.group g).failed = false →
    ∃ t, Sys2Proof.Machine.exec (.powerGoodTimeout g) s = .next t ∧
      t.now = max s.now ((s.group g).tryAt + 2000000) ∧ (t.group g).tries = (s.group g).tries + 1 ∧ (t.group g).on = true ∧
        t.ember.phase = s.ember.phase ∧ Only [(.ember, F.EMBER_WREC, 3)] s t ∧ MemSame s t) ∧
  (∀ (s : State),
    s.ember.gs.on = true → s.ember.gs.good = false → 3 ≤ s.ember.gs.tries → s.ember.phase = .waking →
    ∃ t, Sys2Proof.Machine.exec (.powerGoodTimeout .shared) s = .next t ∧
      t.ember.phase = .banked ∧ t.ember.ignore = true ∧ Dark t ∧ (s.wrec 3 13 12 = 3 → t.wrec 3 13 12 = 1) ∧
        t.get .ember F.EMBER_FAILED_WAKE_COUNT 0 = (s.get .ember F.EMBER_FAILED_WAKE_COUNT 0 + 1) % 2 ^ F.EMBER_FAILED_WAKE_COUNT.width ∧
        t.ember.bankedAt = t.now) ∧
  (∀ (s : State) (x : Side),
    (s.side x).run = .clocking → (s.side x).limp = false →
    ∃ t, Sys2Proof.Machine.exec (.crystalTimeout x) s = .next t ∧
      (t.side x).limp = true ∧ t.now = max s.now ((s.group (sideGroup x)).goodAt + 5000000) ∧ t.get .ember (limpFld x) 0 = 1 ∧
        (s.wrec 3 13 12 = 3 → t.wrec 3 (9 + x.num) (9 + x.num) = 1) ∧ (s.wrec 3 13 12 ≠ 3 → t.wrec 3 31 0 = s.wrec 3 31 0) ∧
        Only [(.ember, limpFld x, 0), (.ember, F.EMBER_WREC, 3)] s t ∧ MemSame s t) ∧
  (∀ (s : State) (x : Side) (k : Fin 6) (c : Bool) (h : Bool),
    (s.side x).run = .clocking → s.ember.straps.testBit 2 = false →
    ∃ t, Sys2Proof.Machine.exec (.pllLock x c h) s = .next t ∧
      (t.side x).run = .kindling ∧ t.present (.can x k) = true ∧ t.present (.dma x) = true ∧ t.present (.life x) = true ∧
        t.get (.side x) F.PINS_RESET 0 = Tab.at 0 s.ember.resetCause x.num % 2 ^ F.PINS_RESET.width ∧
        t.get (.side x) F.PINS_STRAP_STOKE_MODE 0 = b2n h ∧ t.get (.side x) F.STOKE_CFG_MODE 0 = b2n h ∧
        (t.side x.other).run = (s.side x.other).run) ∧
  (∀ (s : State) (x : Side) (c : Bool) (h : Bool),
    s.ember.straps.testBit 2 = true →
    ∃ t, Sys2Proof.Machine.exec (.pllLock x c h) s = .next t ∧
      t = s) ∧
  (∀ (s : State) (h : Bool),
    s.flue.powered = true → s.present .flue = false →
    ∃ t, Sys2Proof.Machine.exec (.flueRefCheck true h) s = .next t ∧
      t.flue = { s.flue with refPresent := true } ∧ t.ember.straps.testBit 1 = h ∧ Only [] s t ∧ MemSame s t ∧ t.absent = s.absent ∧
        t.now = s.now) ∧
  (∀ (s : State) (h : Bool),
    s.flue.powered = true → s.present .flue = false →
    ∃ t, Sys2Proof.Machine.exec (.flueRefCheck false h) s = .next t ∧
      t.flue = { s.flue with refPresent := false } ∧ t.ember.straps.testBit 1 = h ∧ t.get .ember F.EMBER_STATE_FLUE_NOREF 0 ≠ 0 ∧
        Only ([(.ember, F.EMBER_STATE_FLUE_NOREF, 0), (.ember, F.EMBER_WREC, 3)] ++ logFields .a ++ logFields .b) s t ∧ MemSame s t ∧
        t.present .flue = false)

/-- Within its window a confirming event ends the window and marks the record confirmed; an unconfirmed window ends in the sleep to Banked,
counted as a false wake with outcome 2. A side whose Kindling has its images comes up healthy, takes packets and has made its first
commit, and a waking module is Glowing. A ready side bound for Lit starts its cores and its HELD worlds, and the power state is Lit.
The time limit of Banked leads to Cold hearth. -/
def Obligations.ConfirmationAndLit : Prop :=
  (∀ (s : State) (c : Confirm),
    (c = .kl15 ∨ c = .rtc ∨ c = .stateSet) → s.confirmOpen = true →
    ∃ t, Sys2Proof.Machine.exec (.confirmation c) s = .next t ∧
      t.ember.confirm = none ∧ t.wrec 0 22 22 = 1 ∧ t.get .ember F.EMBER_STATE_CONFIRM_WAIT 0 = 0 ∧ t.ember.phase = s.ember.phase ∧
        t.now = s.now) ∧
  (∀ (s : State) (k : Fin 12) (f : CanFrame) (x : Side),
    x = (if k.val < 6 then .a else .b) → (s.wakeCause = 4 ∨ s.wakeCause = 6) → s.wakeIndex = k →
      (s.can x (k % 6)).wake.fits f.h0.toNat f.h1.toNat (dataNat f) = true → s.confirmOpen = true →
    ∃ t, Sys2Proof.Machine.exec (.confirmation (.canFrame k f)) s = .next t ∧
      t.ember.confirm = none ∧ t.wrec 0 22 22 = 1 ∧ t.get .ember F.EMBER_STATE_CONFIRM_WAIT 0 = 0) ∧
  (∀ (s : State) (e : Nat),
    s.ember.confirm = some e →
    ∃ t, Sys2Proof.Machine.exec (.confirmWindowEnd) s = .next t ∧
      t.now = max s.now e ∧ t.ember.phase = .sleeping 0 ∧ t.ember.target = 1 ∧ t.ember.confirm = none ∧ t.ember.pend = none ∧
        (s.wrec 3 13 12 = 3 → t.wrec 3 13 12 = 2) ∧ t.get .ember F.EMBER_STATE_CONFIRM_WAIT 0 = 0 ∧
        t.get .ember F.EMBER_STATE_SHUTDOWN 0 = 1 ∧
        t.get .ember F.EMBER_FALSE_WAKE_COUNT 0 = (s.get .ember F.EMBER_FALSE_WAKE_COUNT 0 + 1) % 2 ^ F.EMBER_FALSE_WAKE_COUNT.width) ∧
  (∀ (s : State) (x : Side),
    (s.side x).run = .kindling → Tab.at 0 (s.side x).used 0x200 ≠ 0 → Tab.at 0 (s.side x).used 0 ≠ 0 →
    ∃ t, Sys2Proof.Machine.exec (.stokerReady x) s = .next t ∧
      t.up x = true ∧ (t.side x).taking = true ∧ (t.side x).firstCommit = true ∧ t.healthy x = true ∧
        t.get (.side x) F.STOKER_STATE_CHROMIR_READY 0 = 1 ∧ t.get (.side x) F.SPK_STATUS_READY 0 = 1 ∧
        t.get .ember (sideUpFld x) 0 = 1 ∧ (s.ember.phase = .waking → t.ember.phase = .up ∧ t.powerState = 2)) ∧
  (∀ (s : State) (x : Side),
    s.up x = true → (s.side x).cores = false → s.boundLit = true →
    ∃ t, Sys2Proof.Machine.exec (.litEntry x) s = .next t ∧
      (t.side x).cores = true ∧ t.powerState = 3 ∧ (∀ w : Nat, w < 8 → s.worldState x w = 1 → t.worldState x w = 2) ∧
        (t.side x.other).cores = (s.side x.other).cores) ∧
  (∀ (s : State) (m : Nat),
    s.ember.phase = .banked → s.get .ember F.EMBER_BANK_TIME_LIMIT 0 = m → m ≠ 65535 →
    ∃ t, Sys2Proof.Machine.exec (.bankTimeLimit) s = .next t ∧
      t.ember.phase = .cold ∧ t.now = max s.now (s.ember.bankedAt + max 1 m * 3600000000000) ∧ Only [] s t ∧ MemSame s t)

/-- Step 1 stops both Stokers' takes and disables every spark rule. Once every packet has its final reply, every channel of a PRESENT die
is off with CMD_ON clear. At the last step the Ember latches the CAN wake settings, is in Cold hearth or Banked as the target says, and
every rail group, side and unit is off with no channel driven. The loss of Ember power does the same and puts every Ember register at
its Reset column. -/
def Obligations.SleepSequence : Prop :=
  (∀ (s : State) (m : Matcher) (n : Nat),
    s.ember.phase = .sleeping 0 → n < ruleCount m →
    ∃ t, Sys2Proof.Machine.exec (.sleepStart) s = .next t ∧
      t.ember.phase = .sleeping 1 ∧ (t.side .a).taking = false ∧ (t.side .b).taking = false ∧ t.mq m F.SPK_RULE_CTRL_ENABLED n = 0 ∧
        t.ember.pend = none ∧ t.ember.confirm = none ∧ t.now = s.now ∧ MemSame s t) ∧
  (∀ (s : State) (c : Nat),
    s.ember.phase = .sleeping 1 → s.drained .a = true → s.drained .b = true → c < 64 → s.present (dieUnit (c / 16)) = true →
    ∃ t, Sys2Proof.Machine.exec (.sleepDrainComplete) s = .next t ∧
      t.ember.phase = .sleeping 2 ∧ t.cq c F.CH_STATE_CMD_ON = 0 ∧ driven (t.chState c) = false ∧ t.now = s.now) ∧
  (∀ (s : State) (loc : BitVec 4) (k : Fin 12),
    s.ember.phase = .sleeping 2 → (List.range 4).find? (s.locHeld loc.toNat) = none →
    ∃ t, Sys2Proof.Machine.exec (.sleepArm false loc) s = .next t ∧
      t.ember.phase = (if s.ember.target = 0 then .cold else .banked) ∧ Dark t ∧ t.get .ember F.EMBER_STATE_SHUTDOWN 0 = 0 ∧
        t.canWakeOf k = s.latchWake (if k.val < 6 then .a else .b) (k % 6) ∧ t.ember.bankedAt = t.now ∧ t.now = s.now) ∧
  (∀ (s : State) (loc : BitVec 4),
    s.ember.phase = .sleeping 2 →
    ∃ t, Sys2Proof.Machine.exec (.sleepArm true loc) s = .next t ∧
      t.ember.phase = .waking ∧ t.wakeCause = 1 ∧ t.up .a = false ∧ t.up .b = false ∧ t.ember.gs.on = true) ∧
  (∀ (s : State) (f : Fld) (i : Nat),
    s.ember.phase ≠ .off →
    ∃ t, Sys2Proof.Machine.exec (.emberPowerLoss) s = .next t ∧
      t.ember.phase = .off ∧ Dark t ∧ t.get .ember f i = f.rst.at .ember i ∧ t.ember.rstLow = s.ember.rstLow ∧
        t.ember.straps = s.ember.straps ∧ t.now = s.now)

/-- A lost feed shows its flag and its event, with source 91 at the other side (the router of its own side goes with its rail), and takes
its side and its rail group down; with the other feed lost too the module is Banked and dark. A feed that returns while the module is
up shows its event on both sides, enables its group and is recorded as a wake with cause 8, unless the outcome of a wake is still open
(a choice of the model, log entry 108); it wakes a module that both losses banked. Readings and overvoltage only show. A low feed asks
for LOW_FEED on both sides until it clears. A reset input that falls takes its side down and a release starts it anew with reset cause
1; an ECC error in a healthy side ends its health and its takes, and a side that is not healthy resets with cause 2. -/
def Obligations.FeedsAndSides : Prop :=
  (∀ (s : State) (f : Side),
    s.ember.phase = .up → s.feedGone f = false → s.feedGone f.other = false →
    ∃ t, Sys2Proof.Machine.exec (.feedLoss f) s = .next t ∧
      t.get .ember (lossFld f) 0 = 1 ∧ t.get .ember (feedLossEvt f) 0 = 1 ∧ FeedHeard s t [f.other] ∧ t.up f = false ∧
        (t.group (sideGroup f)).on = false ∧ (t.side f.other).run = (s.side f.other).run ∧ t.ember.phase = .up ∧ t.now = s.now) ∧
  (∀ (s : State) (f : Side),
    s.ember.phase = .up → s.feedGone f = false → s.feedGone f.other = true →
    ∃ t, Sys2Proof.Machine.exec (.feedLoss f) s = .next t ∧
      t.ember.phase = .banked ∧ t.get .ember (lossFld f) 0 = 1 ∧ t.get .ember (feedLossEvt f) 0 = 1 ∧ t.ember.onlyFeed = true ∧ Dark t ∧
        t.now = s.now) ∧
  (∀ (s : State) (f : Side),
    s.ember.phase = .up → s.feedGone f = true →
    ∃ t, Sys2Proof.Machine.exec (.feedReturn f) s = .next t ∧
      t.get .ember (lossFld f) 0 = 0 ∧ t.get .ember (feedReturnEvt f) 0 = 1 ∧ FeedHeard s t [.a, .b] ∧
        t.wakeCause = (if s.wrec 3 13 12 = 3 then s.wakeCause else 8) ∧
        t.get .ember F.EMBER_WAKE_COUNT 0 = (s.get .ember F.EMBER_WAKE_COUNT 0 + 1) % 2 ^ F.EMBER_WAKE_COUNT.width ∧
        (t.group (sideGroup f)).on = true ∧ (t.group (sideGroup f)).good = false ∧ Tab.at 0 t.ember.resetCause f.num = 3 ∧
        t.ember.phase = .up ∧ t.now = s.now ∧ MemSame s t) ∧
  (∀ (s : State) (f : Side),
    s.ember.phase = .banked → s.ember.onlyFeed = true → s.ember.ignore = false → s.feedGone f = true →
    ∃ t, Sys2Proof.Machine.exec (.feedReturn f) s = .next t ∧
      t.ember.phase = .waking ∧ t.wakeCause = 8 ∧ t.get .ember (lossFld f) 0 = 0 ∧ t.now = max s.now (s.ember.railsOff + 5000000) ∧
        MemSame s t) ∧
  (∀ (s : State) (f : Side),
    s.ember.phase ≠ .off →
    ∃ t, Sys2Proof.Machine.exec (.emberOvervoltage f) s = .next t ∧
      t.get .ember (match f with | .a => F.EMBER_FEED_EVT_A_OVER | .b => F.EMBER_FEED_EVT_B_OVER) 0 = 1 ∧ FeedHeard s t [.a, .b] ∧
        Only [(.ember, F.EMBER_FEED_EVT_A_OVER, 0), (.ember, F.EMBER_FEED_EVT_B_OVER, 0), (.side .a, F.INTR_PENDING, 2), (.side .b,
            F.INTR_PENDING, 2)] s t ∧
        MemSame s t) ∧
  (∀ (s : State) (va : Word40) (vb : Word40),
    outsideFeed (sigInt va.toNat) = false → outsideFeed (sigInt vb.toNat) = false → s.ember.phase ≠ .off →
    ∃ t, Sys2Proof.Machine.exec (.emberFeedSample va vb) s = .next t ∧
      t.get .ember F.EMBER_FEED_A_V 0 = va.toNat ∧ t.get .ember F.EMBER_FEED_B_V 0 = vb.toNat ∧
        Only [(.ember, F.EMBER_FEED_A_V, 0), (.ember, F.EMBER_FEED_B_V, 0)] s t ∧ MemSame s t) ∧
  (∀ (s : State) (f : Side) (x : Side),
    s.ember.phase ≠ .off → s.feedGone f = false →
    ∃ t, Sys2Proof.Machine.exec (.emberLowFeedAssert f) s = .next t ∧
      (t.hwMask x).testBit 9 = true ∧
        t.get .ember (match f with | .a => F.EMBER_FEED_EVT_A_LOW16 | .b => F.EMBER_FEED_EVT_B_LOW16) 0 = 1 ∧ FeedHeard s t [.a, .b] ∧
        t.sa = s.sa ∧ t.sb = s.sb ∧ t.now = s.now ∧ MemSame s t) ∧
  (∀ (s : State) (x : Side),
    ∃ t, Sys2Proof.Machine.exec (.emberLowFeedClear) s = .next t ∧
      (t.hwMask x).testBit 9 = false ∧ Only [] s t ∧ MemSame s t ∧ t.now = s.now) ∧
  (∀ (s : State) (x : Side),
    s.rstIsLow x = false → (s.side x).run = .ready →
    ∃ t, Sys2Proof.Machine.exec (.sideResetAssert x) s = .next t ∧
      t.rstIsLow x = true ∧ (t.side x).run = .down ∧ (t.side x.other).run = (s.side x.other).run ∧ t.present (.dma x) = false ∧
        t.get .ember (sideUpFld x) 0 = 0 ∧ t.get (.side x) F.CFG_MODE_ACTIVE 0 = 0 ∧ t.now = s.now) ∧
  (∀ (s : State) (x : Side),
    s.rstIsLow x = true → (s.side x).run = .down → s.railGood x = true →
    ∃ t, Sys2Proof.Machine.exec (.sideResetRelease x) s = .next t ∧
      t.rstIsLow x = false ∧ (t.side x).run = .clocking ∧ Tab.at 0 t.ember.resetCause x.num = 1 ∧ t.side x.other = s.side x.other ∧
        Only [] s t ∧ MemSame s t) ∧
  (∀ (s : State) (x : Side),
    s.up x = true → s.healthy x = true →
    ∃ t, Sys2Proof.Machine.exec (.sideDown x) s = .next t ∧
      t.healthy x = false ∧ (t.side x).taking = false ∧ t.up x = true ∧
        Only ((.side x, F.SIDE_STATUS_HEALTHY, 0) :: returnFields ++ logFields x) s t ∧ SideWaits x.other s t ∧ t.dies = s.dies ∧
        t.chans = s.chans ∧ t.now = s.now ∧ MemSame s t) ∧
  (∀ (s : State) (x : Side),
    s.up x = true → s.healthy x = false → s.railGood x = true → s.rstIsLow x = false →
    ∃ t, Sys2Proof.Machine.exec (.sideDown x) s = .next t ∧
      (t.side x).run = .clocking ∧ Tab.at 0 t.ember.resetCause x.num = 2 ∧ t.present (.dma x) = false ∧
        (t.side x.other).run = (s.side x.other).run ∧ t.now = s.now)

/-- A commit tick of a ready side at which every unit answers READY comes at the tick of its snapshot, puts the working copy of the
snapshot in force, leaves no snapshot pending and no unit stale, and the active mask is the commanded mask or the hardware mask. When
the local units do not answer READY to a snapshot that changes the commanded mask, in the first ten ticks, the commit is deferred:
counted, the snapshot kept, and no mask changes. -/
def Obligations.CommitTicks : Prop :=
  (∀ (s : State) (x : Side),
    s.up x = true → (s.side x).firstCommit = true → (s.side x).snap = none →
    ∃ t, Sys2Proof.Machine.exec (.commitTick x 0) s = .next t ∧
      t.now = s.tickOf x ∧ (t.side x).snap = none ∧ (t.side x).inForce = (s.side x).work ∧ (t.side x).fieldReqs = [] ∧
        t.get (.side x) F.CFG_STATUS_PENDING 0 = 0 ∧ t.staleUnits x = 0 ∧
        t.get (.side x) F.CFG_MODE_ACTIVE 0 = t.get (.side x) F.CFG_MODE_CMD 0 ||| t.get (.side x) F.CFG_MODE_HW 0 ∧
        (t.side x).tickFails = 0) ∧
  (∀ (s : State) (x : Side) (m : Snap),
    s.up x = true → (s.side x).firstCommit = true → (s.side x).snap = some m → m.at_ = none → m.cmd ≠ s.get (.side x) F.CFG_MODE_CMD 0 →
      s.staleUnits x = 0 → (s.side x).tickFails < 10 →
    ∃ t, Sys2Proof.Machine.exec (.commitTick x 0x20) s = .next t ∧
      (t.side x).tickFails = (s.side x).tickFails + 1 ∧ (t.side x).snap.isSome = true ∧ t.get (.side x) F.CFG_STATUS_DEFERRED 0 = 1 ∧
        t.get (.side x) F.CFG_DEFER_COUNT 0 = (s.get (.side x) F.CFG_DEFER_COUNT 0 + 1) % 2 ^ F.CFG_DEFER_COUNT.width ∧
        t.get (.side x) F.CFG_MODE_CMD 0 = s.get (.side x) F.CFG_MODE_CMD 0 ∧
        t.get (.side x) F.CFG_MODE_ACTIVE 0 = s.get (.side x) F.CFG_MODE_ACTIVE 0 ∧ (t.side x).inForce = (s.side x).inForce)

/-- A heartbeat of a healthy side is noted at the dies whose lanes carry it. A token that is HELD or RELEASING lapses one count after LOSS,
counted; with the holder's heartbeat back it is HELD again from the holder's next commit, and not before. A lapsed token whose holder
does not beat is CLAIMED by a healthy side that beats and may claim; a VACANT one by any side 20 ms after its first commit. An orderly
release with nothing on the link records the claim of the claimant. The handover window closes at its end. -/
def Obligations.TokenEvents : Prop :=
  (∀ (s : State) (x : Side) (l : BitVec 5) (i : Fin 5),
    s.up x = true → s.healthy x = true → (i.val = 4 ∨ s.present (dieUnit i) = true) → l.getLsbD i = true →
    ∃ t, Sys2Proof.Machine.exec (.heartbeat x l) s = .next t ∧
      t.beatAt i x = some s.now ∧ t.beatAt i x.other = s.beatAt i x.other ∧ (∀ e : Nat, l.getLsbD e = false → t.die e = s.die e) ∧
        Only returnFields s t ∧ MemSame s t ∧ SideWaits .a s t ∧ SideWaits .b s t ∧ t.now = s.now) ∧
  (∀ (s : State) (i : Fin 5) (b : Nat),
    (s.tokState i = 0 ∨ s.tokState i = 4) → s.tokHolder i ≤ 1 → s.beatAt i (sideOf (s.tokHolder i)) = some b →
    ∃ t, Sys2Proof.Machine.exec (.tokenLapse i) s = .next t ∧
      t.tokState i = 1 ∧ t.tokHolder i = s.tokHolder i ∧ t.now = max s.now (b + s.lossNs i + 1) ∧
        t.get (.grate i) F.GRATE_LAPSE_COUNT 0 = (s.get (.grate i) F.GRATE_LAPSE_COUNT 0 + 1) % 2 ^ F.GRATE_LAPSE_COUNT.width ∧
        (t.get (.side .a) F.INTR_PENDING 2).testBit 26 = true ∧ (t.get (.side .b) F.INTR_PENDING 2).testBit 26 = true ∧ MemSame s t ∧
        t.die i = { s.die i with backAt := none } ∧ (∀ e : Nat, e ≠ i.val → t.die e = s.die e) ∧
        Only ([(.grate i, F.GRATE_TOKEN_STATE, 0), (.grate i, F.GRATE_LAPSE_COUNT, 0), (.side .a, F.INTR_PENDING, 2), (.side .b,
            F.INTR_PENDING, 2)] ++ logFields .a ++ logFields .b) s t) ∧
  (∀ (s : State) (i : Fin 5),
    s.tokState i = 1 → s.tokHolder i ≤ 1 → s.beats i (sideOf (s.tokHolder i)) = true →
      s.committedSince i (sideOf (s.tokHolder i)) = true →
    ∃ t, Sys2Proof.Machine.exec (.tokenResumed i) s = .next t ∧
      t.tokState i = 0 ∧ t.tokHolder i = s.tokHolder i ∧ Only ((.grate i, F.GRATE_TOKEN_STATE, 0) :: logFields .a ++ logFields .b) s t ∧
        MemSame s t ∧ t.dies = s.dies ∧ t.now = s.now) ∧
  (∀ (s : State) (i : Fin 5),
    s.committedSince i (sideOf (s.tokHolder i)) = false →
    ∃ t, Sys2Proof.Machine.exec (.tokenResumed i) s = .next t ∧
      t = s) ∧
  (∀ (s : State) (x : Side) (i : Fin 5),
    s.up x = true → s.healthy x = true → s.is (.side x) F.SIDE_CFG_AUTO_CLAIM 0 = true → s.beatsBelow i x = true →
      s.tokHolder i = x.other.num → s.tokState i = 1 → s.beats i x.other = false →
    ∃ t, Sys2Proof.Machine.exec (.autoClaim x i) s = .next t ∧
      t.tokState i = 2 ∧ t.get (.grate i) F.GRATE_TOKEN_CLAIMANT 0 = x.num ∧ (t.die i).claimAt = s.now ∧ (t.die i).orderly = false ∧
        Only [(.grate i, F.GRATE_TOKEN_STATE, 0), (.grate i, F.GRATE_TOKEN_CLAIMANT, 0)] s t ∧ MemSame s t ∧ t.now = s.now) ∧
  (∀ (s : State) (x : Side) (i : Nat),
    s.up x = true → (s.side x).firstCommit = true → i < 5 → s.tokState i = 3 →
    ∃ t, Sys2Proof.Machine.exec (.vacantClaim x) s = .next t ∧
      t.now = max s.now ((s.side x).firstCommitAt + 20000000) ∧ t.tokState i = 2 ∧ t.get (.grate i) F.GRATE_TOKEN_CLAIMANT 0 = x.num ∧
        t.sa = s.sa ∧ t.sb = s.sb ∧ MemSame s t) ∧
  (∀ (s : State) (d : Fin 4),
    s.is (.grate d) F.GRATE_TOKEN_WINDOW 0 = true →
    ∃ t, Sys2Proof.Machine.exec (.handoverWindowClose d) s = .next t ∧
      t.get (.grate d) F.GRATE_TOKEN_WINDOW 0 = 0 ∧ t.now = max s.now (s.die d).windowEnd ∧
        Only [(.grate d, F.GRATE_TOKEN_WINDOW, 0)] s t ∧ MemSame s t ∧ t.dies = s.dies) ∧
  (∀ (s : State) (i : Fin 5),
    s.tokState i = 4 → (i.val = 4 ∨ Tab.at [] (s.side (sideOf (s.tokHolder i))).links i = []) →
      s.get (.grate i) F.GRATE_TOKEN_CLAIMANT 0 ≤ 1 →
    ∃ t, Sys2Proof.Machine.exec (.orderlyRelease i) s = .next t ∧
      t.tokState i = 2 ∧ t.get (.grate i) F.GRATE_TOKEN_CLAIMANT 0 = s.get (.grate i) F.GRATE_TOKEN_CLAIMANT 0 ∧
        (t.die i).orderly = true ∧ (t.die i).claimAt = s.now ∧
        Only [(.grate i, F.GRATE_TOKEN_STATE, 0), (.grate i, F.GRATE_TOKEN_CLAIMANT, 0)] s t ∧ MemSame s t)

/-- A pulse of a healthy side that arrives shows the peer healthy and the cross link up; one with healthy bit 0 only that it came. With no
heartbeat of the peer anywhere the side judges its peer LOST at the loss time and holds SPLIT; with heartbeats it judges only the cross
link lost, and mirroring is no longer current. Pulses that return restore the link and the next checkpoint is a full copy. A lost grate
link is logged. A token whose hold-off has ended goes into orderly handover to its home side. -/
def Obligations.PeerAndCrossLink : Prop :=
  (∀ (s : State) (x : Side),
    s.up x = true → s.healthy x = true → s.up x.other = true →
    ∃ t, Sys2Proof.Machine.exec (.crossPulse x true true) s = .next t ∧
      (t.side x.other).peerAt = some s.now ∧ (t.side x.other).peerOk = true ∧ (t.side x.other).peerLost = false ∧
        t.get (.side x.other) F.SIDE_STATUS_PEER_HEALTHY 0 = 1 ∧
        ((s.side x.other).crossLost = false → t.get (.side x.other) F.SIDE_STATUS_CROSS_UP 0 = 1) ∧ SideWaits x s t ∧ MemSame s t ∧
        t.now = s.now) ∧
  (∀ (s : State) (x : Side),
    s.up x = true → s.healthy x = false → s.up x.other = true →
    ∃ t, Sys2Proof.Machine.exec (.crossPulse x true false) s = .next t ∧
      (t.side x.other).peerAt = some s.now ∧ (t.side x.other).peerOk = false ∧
        t.get (.side x.other) F.SIDE_STATUS_PEER_HEALTHY 0 = s.get (.side x.other) F.SIDE_STATUS_PEER_HEALTHY 0 ∧ SideWaits x s t ∧
        MemSame s t ∧ t.now = s.now) ∧
  (∀ (s : State) (x : Side),
    s.up x = true → (s.due (s.pulseLossAt x)).beatsSome x.other x = false → (s.side x).peerLost = false → (s.side x).ckpt = none →
      (s.side x.other).ckpt = none →
    ∃ t, Sys2Proof.Machine.exec (.peerLost x) s = .next t ∧
      t.get (.side x) F.SIDE_STATUS_SPLIT 0 = 1 ∧ t.get (.side x) F.SIDE_STATUS_PEER_HEALTHY 0 = 0 ∧
        t.get (.side x) F.SIDE_STATUS_CROSS_UP 0 = 0 ∧ t.get (.side x) F.SIDE_STATUS_MIRROR_CURRENT 0 = 0 ∧ (t.side x).peerLost = true ∧
        (t.side x).ckptFull = true ∧ (t.side x).ckptDone = [] ∧ t.now = max s.now (s.pulseLossAt x) ∧ (t.hwMask x).testBit 10 = true ∧
        MemSame s t ∧ SideWaits x.other s t) ∧
  (∀ (s : State) (x : Side),
    s.up x = true → (s.due (s.pulsesGoneAt x)).beatsSome x.other x = true → (s.side x).crossLost = false →
    ∃ t, Sys2Proof.Machine.exec (.crossLost x) s = .next t ∧
      (t.side x).crossLost = true ∧ (t.side x).peerLost = false ∧ (t.side x).ckpt = none ∧ (t.side x.other).ckpt = none ∧
        t.get (.side x) F.SIDE_STATUS_CROSS_UP 0 = 0 ∧ t.get (.side x) F.SIDE_STATUS_MIRROR_CURRENT 0 = 0 ∧
        t.get (.side x) F.SIDE_STATUS_SPLIT 0 = s.get (.side x) F.SIDE_STATUS_SPLIT 0 ∧ t.now = max s.now (s.pulsesGoneAt x)) ∧
  (∀ (s : State) (x : Side),
    s.up x = true → (s.side x).crossLost = true →
    ∃ t, Sys2Proof.Machine.exec (.crossRestored x) s = .next t ∧
      (t.side x).crossLost = false ∧ (t.side x).ckptFull = true ∧ (t.side x).peerAt = some s.now ∧ (t.side x).peerOk = true ∧
        t.get (.side x) F.SIDE_STATUS_CROSS_UP 0 = 1 ∧
        (s.holds x.other 0 = true → (t.side x).modeNext = some ⟨s.get (.side x.other) F.CFG_MODE_CMD 0, none⟩) ∧ MemSame s t ∧
        t.now = s.now) ∧
  (∀ (s : State) (x : Side) (d : Fin 4),
    s.up x = true →
    ∃ t, Sys2Proof.Machine.exec (.grateLinkLost x d) s = .next t ∧
      t.get (.side x) F.ASH_SEQ 0 = (s.get (.side x) F.ASH_SEQ 0 + 1) % 2 ^ F.ASH_SEQ.width ∧ Only (logFields x) s t ∧ SideOnly x s t ∧
        MemSame s t) ∧
  (∀ (s : State) (i : Fin 5) (e : Nat),
    s.returnDue i = some e → s.returnFirst i (max s.now e) = false → (s.due e).returnReady i = true →
    ∃ t, Sys2Proof.Machine.exec (.returnHome i) s = .next t ∧
      t.now = max s.now e ∧ t.tokState i = 4 ∧ t.get (.grate i) F.GRATE_TOKEN_CLAIMANT 0 = (s.homeOf i).num ∧
        (t.side (s.homeOf i)).returned = true ∧ t.tokHolder i = s.tokHolder i ∧ MemSame s t)

/-- With the cross link up, a scheduled checkpoint that is due and one that a write of SIDE_CKPT starts take the lines of the enabled
regions and clear the dirty bits, unless one runs, which is only counted. An instant that passes while the link is down takes no lines.
When its last line arrives every line that it held stands in the other side's memory, which changes nowhere else, and both sides count
it; a checkpoint that reads an uncorrectable word is cut off before that line and torn at the receiver (a choice of the model, log
entry 110). -/
def Obligations.Checkpoints : Prop :=
  (∀ (s : State) (x : Side),
    s.up x = true → s.crossBoth = true → max 1 (s.get (.side x) F.SIDE_MIRROR_CFG 0) ≤ (s.side x).ckptTicks → (s.side x).ckpt = none →
    ∃ t, Sys2Proof.Machine.exec (.mirrorCheckpoint x) s = .next t ∧
      (t.side x).ckpt.isSome = true ∧ (t.side x).dirty = [] ∧ (t.side x).ckptSlot = (s.side x).ckptSlot + 1 ∧ (t.side x).ckptTicks = 0 ∧
        (t.side x).ckptFull = false ∧ Only ((.side x, F.SIDE_STATUS_MIRROR_CURRENT, 0) :: returnFields) s t ∧ SideWaits x.other s t ∧
        MemSame s t ∧ t.dies = s.dies ∧ t.chans = s.chans ∧ t.now = s.now) ∧
  (∀ (s : State) (x : Side),
    s.up x = true → s.crossBoth = true → max 1 (s.get (.side x) F.SIDE_MIRROR_CFG 0) ≤ (s.side x).ckptTicks →
      (s.side x).ckpt.isSome = true →
    ∃ t, Sys2Proof.Machine.exec (.mirrorCheckpoint x) s = .next t ∧
      t.get (.side x) F.SIDE_CKPT_SKIP_COUNT 0 = (s.get (.side x) F.SIDE_CKPT_SKIP_COUNT 0 + 1) % 2 ^ F.SIDE_CKPT_SKIP_COUNT.width ∧
        (t.side x).ckpt = (s.side x).ckpt ∧ (t.side x).dirty = (s.side x).dirty ∧ MemSame s t) ∧
  (∀ (s : State) (x : Side),
    s.up x = true → s.crossBoth = false → max 1 (s.get (.side x) F.SIDE_MIRROR_CFG 0) ≤ (s.side x).ckptTicks →
    ∃ t, Sys2Proof.Machine.exec (.mirrorCheckpoint x) s = .next t ∧
      (t.side x).ckpt = (s.side x).ckpt ∧ (t.side x).dirty = (s.side x).dirty ∧ (t.side x).ckptSlot = (s.side x).ckptSlot + 1 ∧
        (t.side x).ckptTicks = 0 ∧ MemSame s t ∧ t.now = s.now) ∧
  (∀ (s : State) (x : Side) (k : Ckpt) (lo : Option Word40) (co : Option Word40),
    (s.side x).ckpt = some k → s.crossBoth = true →
      (k.lines.any (fun l => s.engineWaits x l.2 64 || s.engineWaits x.other l.2 64) = false) →
      (k.lines.all (fun l => copyEcc lo none l.2 64 == .clean) = true) →
    ∃ t, Sys2Proof.Machine.exec (.checkpointComplete x lo co) s = .next t ∧
      (t.side x).ckpt = none ∧
        t.get (.side x) F.SIDE_CKPT_SEQ_TX 0 = (s.get (.side x) F.SIDE_CKPT_SEQ_TX 0 + 1) % 2 ^ F.SIDE_CKPT_SEQ_TX.width ∧
        t.get (.side x.other) F.SIDE_CKPT_SEQ_RX 0 = (s.get (.side x.other) F.SIDE_CKPT_SEQ_RX 0 + 1) % 2 ^ F.SIDE_CKPT_SEQ_RX.width ∧
        (∀ a, t.byte x a = s.byte x a) ∧ (∀ p ∈ k.lines, ∀ i < 64, p.2 + 64 ≤ 2 ^ 40 → t.byte x.other (p.2 + i) = s.byte x (p.2 + i)) ∧
        (∀ a, (∀ p ∈ k.lines, a < p.2 ∨ p.2 + 64 ≤ a) → t.byte x.other a = s.byte x.other a) ∧ t.now = s.now) ∧
  (∀ (s : State) (x : Side) (k : Ckpt) (b : Nat × Nat) (lo : Option Word40) (co : Option Word40),
    (s.side x).ckpt = some k → s.crossBoth = true → s.fabric x.other = true →
      (k.lines.any (fun l => s.engineWaits x l.2 64 || s.engineWaits x.other l.2 64) = false) →
      k.lines.find? (fun l => copyEcc lo none l.2 64 == .lost) = some b →
    ∃ t, Sys2Proof.Machine.exec (.checkpointComplete x lo co) s = .next t ∧
      (t.side x).ckpt = none ∧ (t.side x).ckptFull = true ∧ t.get (.side x.other) F.SIDE_STATUS_MIRROR_TORN 0 = 1 ∧
        t.get (.side x.other) F.SIDE_CKPT_TORN_COUNT 0 = (s.get (.side x.other) F.SIDE_CKPT_TORN_COUNT 0 + 1) % 2 ^
            F.SIDE_CKPT_TORN_COUNT.width ∧
        t.get (.side x) F.SIDE_CKPT_SEQ_TX 0 = s.get (.side x) F.SIDE_CKPT_SEQ_TX 0 ∧ (∀ a, t.byte x a = s.byte x a) ∧
        (∀ a, (∀ p ∈ k.lines.takeWhile (fun l => b != l), a < p.2 ∨ p.2 + 64 ≤ a) → t.byte x.other a = s.byte x.other a) ∧ t.now = s.now)

/-- SYS_UNIT_RESET of the DMA engine is answered OK, the engine is ABSENT and none of its channels is busy. A unit that is PRESENT and
enters reset is ABSENT; every other unit stays as it is; the channels of a grate die turn off, but a LATCHED one keeps its state; the
Flue die loses its frames and its database. A unit that is ABSENT and can return is PRESENT again once it announces readiness, and
nothing else of a DMA engine changes but the entry in the log. The loss of an external reference makes the Flue die ABSENT. Calibration
is compared once the sides can reach each other. -/
def Obligations.UnitsComeAndGo : Prop :=
  (∀ (s : State) (x : Side) (j : Job) (q : List Job) (c : Nat),
    s.Head x 0x004 j q → j.pkt.target = c → c = 0x020 → s.present (.dma x) = true →
    ∃ t, Sys2Proof.Machine.exec (.sysUnitReset x) s = .next t ∧
      Replied s t j stOk 0 [] ∧ (t.side x).chromirQ = q.dropWhile isLong ∧ t.present (.dma x) = false ∧
        (∀ n : Nat, n < 32 → t.get (.side x) F.DMA_STATUS_BUSY n = 0) ∧ MemSame s t ∧ t.dies = s.dies ∧ t.chans = s.chans ∧
        t.flue = s.flue ∧ t.ember = s.ember) ∧
  (∀ (s : State) (x : Side) (j : Job) (q : List Job) (c : Nat),
    s.Head x 0x004 j q → j.pkt.target = c → c = 0x020 → s.present (.dma x) = false →
    Acts (.sysUnitReset x) s j q stAbsent 0x020 [] [(.side x, F.FAB_PROXY_ABSENT, 0)]
     (fun t => t.get (.side x) F.FAB_PROXY_ABSENT 0 = (s.get (.side x) F.FAB_PROXY_ABSENT 0 + 1) % 2 ^ F.FAB_PROXY_ABSENT.width ∧ t.absent
         = s.absent)) ∧
  (∀ (s : State) (u : UnitId),
    s.present u = true → (∀ i : Nat, i < 6 → unitBridge u = some i → (s.bridge .a i).txns = [] ∧ (s.bridge .b i).txns = []) →
    ∃ t, Sys2Proof.Machine.exec (.unitAbsent u) s = .next t ∧
      t.present u = false ∧ (∀ v : UnitId, v ≠ u → t.present v = s.present v) ∧ t.now = s.now ∧ t.ember = s.ember) ∧
  (∀ (s : State) (d : Fin 4),
    s.present (.grate d) = true → (s.bridge .a (2 + d)).txns = [] → (s.bridge .b (2 + d)).txns = [] →
    ∃ t, Sys2Proof.Machine.exec (.unitAbsent (.grate d)) s = .next t ∧
      (∀ n : Nat, n < 16 → t.chState (16 * d + n) = (if s.chState (16 * d + n) = 7 then 7 else 0)) ∧ t.tokState d = s.tokState d ∧
        t.tokHolder d = s.tokHolder d ∧ MemSame s t ∧ t.flue = s.flue) ∧
  (∀ (s : State),
    s.present .flue = true → (s.bridge .a 1).txns = [] → (s.bridge .b 1).txns = [] →
    ∃ t, Sys2Proof.Machine.exec (.unitAbsent .flue) s = .next t ∧
      t.present .flue = false ∧ t.flue.fdb = [] ∧ t.flue.queues = [] ∧ t.flue.reset_ = true ∧ t.dies = s.dies ∧ t.chans = s.chans ∧
        MemSame s t) ∧
  (∀ (s : State) (u : UnitId),
    s.canReturn u = true →
    ∃ t, Sys2Proof.Machine.exec (.unitReady u) s = .next t ∧
      t.present u = true ∧ (∀ v : UnitId, v ≠ u → t.present v = s.present v) ∧ t.now = s.now ∧ t.ember.phase = s.ember.phase) ∧
  (∀ (s : State) (x : Side),
    s.canReturn (.dma x) = true →
    ∃ t, Sys2Proof.Machine.exec (.unitReady (.dma x)) s = .next t ∧
      t.present (.dma x) = true ∧ Only (logFields x) s t ∧
        t.get (.side x) F.ASH_SEQ 0 = (s.get (.side x) F.ASH_SEQ 0 + 1) % 2 ^ F.ASH_SEQ.width ∧ MemSame s t ∧ t.dies = s.dies ∧
        t.chans = s.chans ∧ t.flue = s.flue ∧ t.ember = s.ember ∧ t.side x.other = s.side x.other) ∧
  (∀ (s : State),
    s.flueRuns = true → s.flue.extRef = true → s.present .flue = true → (s.bridge .a 1).txns = [] → (s.bridge .b 1).txns = [] →
    ∃ t, Sys2Proof.Machine.exec (.flueRefLoss) s = .next t ∧
      t.present .flue = false ∧ t.flue.refPresent = false ∧ t.dies = s.dies ∧ t.chans = s.chans ∧ t.now = s.now) ∧
  (∀ (s : State),
    s.shares = false →
    ∃ t, Sys2Proof.Machine.exec (.calLateRepair) s = .next t ∧
      t = s) ∧
  (∀ (s : State),
    s.shares = true → s.sa.calCrcOk = true → s.sb.calCrcOk = true →
      s.load .a (s.calAddr .a 0) calLen ≠ s.load .b (s.calAddr .b 0) calLen → s.calWritten .a < s.calWritten .b →
    ∃ t, Sys2Proof.Machine.exec (.calLateRepair) s = .next t ∧
      (∀ u : Nat, u < 0x1D2 → t.calItem .a u = s.calItem .b u) ∧ (∀ u : Nat, u < 0x1D2 → t.calItem .b u = s.calItem .b u) ∧ t.sb = s.sb ∧
        t.get (.side .a) F.CFG_STATUS_CAL_BAD 0 = 0 ∧ Only ((.side .a, F.CFG_STATUS_CAL_BAD, 0) :: logFields .a) s t ∧
        t.get (.side .a) F.ASH_SEQ 0 = (s.get (.side .a) F.ASH_SEQ 0 + 1) % 2 ^ F.ASH_SEQ.width ∧
        (∀ (y : Side) (a : Nat), a ≠ 0x800000FF → a < 0x80010000 ∨ 0x80030000 ≤ a → t.byte y a = s.byte y a) ∧ t.now = s.now)

/-- A claim of a VACANT token whose die is PRESENT is recorded for the side that sent it and is not answered yet; one of a token that the
side holds already is answered OK at once with the mask of held tokens, nothing else changing. A release of a held token makes it
VACANT and answers OK with the mask that is left; of one it does not hold it is answered NOT_MASTER. Either is answered TARGET_ABSENT
when it names one die and that is ABSENT. The net token behaves the same, and its claim is answered TARGET_ABSENT while the Flue die is
ABSENT. -/
def Obligations.TokenPackets : Prop :=
  (∀ (s : State) (x : Side) (j : Job) (q : List Job) (c : Nat),
    s.Head x 0xB02 j q → j.pkt.target = c → c < 4 → s.present (dieUnit c) = true → s.tokState c = 3 → s.tokHolder c = 3 →
      (s.side x).claimReqs = [] → s.now < j.takenAt + 1000000 →
    ∃ t, Sys2Proof.Machine.exec (.sideClaim x) s = .next t ∧
      Unanswered s t j ∧ (t.side x).chromirQ = q.dropWhile isLong ∧ t.tokState c = 2 ∧
        t.get (.grate c) F.GRATE_TOKEN_CLAIMANT 0 = x.num ∧ (t.side x).claimReqs = [(j, 2 ^ c)] ∧ (t.die c).claimAt = s.now ∧
        Only [(.grate c, F.GRATE_TOKEN_STATE, 0), (.grate c, F.GRATE_TOKEN_CLAIMANT, 0)] s t ∧ MemSame s t ∧ t.chans = s.chans) ∧
  (∀ (s : State) (x : Side) (j : Job) (q : List Job) (c : Nat),
    s.Head x 0xB02 j q → j.pkt.target = c → c < 4 → s.present (dieUnit c) = true → s.holds x c = true → s.claimPending c = false →
      (s.side x).claimReqs = [] →
    Acts (.sideClaim x) s j q stOk 0 [s.heldOf x 15] []
     (fun t => t.tokState c = s.tokState c ∧ t.tokHolder c = s.tokHolder c ∧ (t.side x).claimReqs = [])) ∧
  (∀ (s : State) (x : Side) (j : Job) (q : List Job) (c : Nat),
    s.Head x 0xB03 j q → j.pkt.target = c → c < 4 → s.present (dieUnit c) = true → s.holds x c = true →
    ∃ t, Sys2Proof.Machine.exec (.sideRelease x) s = .next t ∧
      Replied s t j stOk 0 [t.heldOf x 15] ∧ (t.side x).chromirQ = q.dropWhile isLong ∧ t.tokState c = 3 ∧ t.tokHolder c = 3 ∧
        (t.heldOf x 15).testBit c = false ∧ MemSame s t ∧ t.dies = s.dies ∧ t.chans = s.chans ∧ t.now = s.now) ∧
  (∀ (s : State) (x : Side) (j : Job) (q : List Job) (c : Nat),
    s.Head x 0xB03 j q → j.pkt.target = c → c < 4 → s.present (dieUnit c) = true → s.holds x c = false →
    Acts (.sideRelease x) s j q stMaster (s.masterDetail c) [] []
     (fun t => t.tokState c = s.tokState c ∧ t.dies = s.dies)) ∧
  (∀ (s : State) (x : Side) (j : Job) (q : List Job) (c : Nat),
    s.Head x 0xB02 j q → j.pkt.target = c → c < 4 → s.present (dieUnit c) = false →
    Acts (.sideClaim x) s j q stAbsent (unitCode (dieUnit c)) [] [(.side x, F.FAB_PROXY_ABSENT, 0)]
     (fun t => t.tokState c = s.tokState c ∧ (t.side x).claimReqs = (s.side x).claimReqs)) ∧
  (∀ (s : State) (x : Side) (j : Job) (q : List Job) (c : Nat),
    s.Head x 0xB03 j q → j.pkt.target = c → c < 4 → s.present (dieUnit c) = false →
    Acts (.sideRelease x) s j q stAbsent (unitCode (dieUnit c)) [] [(.side x, F.FAB_PROXY_ABSENT, 0)]
     (fun t => t.tokState c = s.tokState c)) ∧
  (∀ (s : State) (x : Side) (j : Job) (q : List Job) (c : Nat),
    s.Head x 0x601 j q → j.pkt.target = c → s.present .flue = true → s.tokState 4 = 3 → s.tokHolder 4 = 3 → (s.side x).claimReqs = [] →
      s.now < j.takenAt + 1000000 →
    ∃ t, Sys2Proof.Machine.exec (.netTokenClaim x) s = .next t ∧
      Unanswered s t j ∧ t.tokState 4 = 2 ∧ t.get (.grate 4) F.GRATE_TOKEN_CLAIMANT 0 = x.num ∧ (t.side x).claimReqs = [(j, 16)] ∧
        Only [(.grate 4, F.GRATE_TOKEN_STATE, 0), (.grate 4, F.GRATE_TOKEN_CLAIMANT, 0)] s t ∧ MemSame s t) ∧
  (∀ (s : State) (x : Side) (j : Job) (q : List Job) (c : Nat),
    s.Head x 0x601 j q → j.pkt.target = c → s.present .flue = false →
    Acts (.netTokenClaim x) s j q stAbsent 0x050 [] [(.side x, F.FAB_PROXY_ABSENT, 0)]
     (fun t => t.tokState 4 = s.tokState 4)) ∧
  (∀ (s : State) (x : Side) (j : Job) (q : List Job) (c : Nat),
    s.Head x 0x602 j q → j.pkt.target = c → s.present .flue = true → s.holds x 4 = true →
    ∃ t, Sys2Proof.Machine.exec (.netTokenRelease x) s = .next t ∧
      Replied s t j stOk 0 [] ∧ (t.side x).chromirQ = q.dropWhile isLong ∧ t.tokState 4 = 3 ∧ t.tokHolder 4 = 3 ∧ MemSame s t ∧
        t.dies = s.dies) ∧
  (∀ (s : State) (x : Side) (j : Job) (q : List Job) (c : Nat),
    s.Head x 0x602 j q → j.pkt.target = c → s.present .flue = true → s.holds x 4 = false →
    Acts (.netTokenRelease x) s j q stMaster (s.masterDetail 4) [] []
     (fun t => t.tokState 4 = s.tokState 4))

/-- SIDE_STATUS answers held tokens, peer health, the cross link, mirroring and the return policy. SIDE_MIRROR_SET sets one region of its
side and asks for a full copy. SIDE_RETURN_POLICY sets policy and hold-off on its side. NET_BYPASS_STATE answers CLOSED and FLUE_OK;
asked to open it clears FORCED and sets OPEN_REQ; with the Flue die ABSENT it answers 1. NET_SA_INSTALL installs an SA active under the
slot's key, with its packet number; a slot that is not a valid network key is refused CHECK_FAILED. NET_MIRROR_SET sets a session.
Without the net token they are refused NOT_MASTER. -/
def Obligations.SideAndNetPackets : Prop :=
  (∀ (s : State) (x : Side) (j : Job) (q : List Job) (c : Nat),
    s.Head x 0xB01 j q → j.pkt.target = c →
    Acts (.sideStatus x) s j q stOk 0 [s.heldOf x 31 + s.get (.side x) F.SIDE_STATUS_PEER_HEALTHY 0 * 2 ^ 5 + s.get (.side x)
        F.SIDE_STATUS_CROSS_UP 0 * 2 ^ 6 + s.get (.side x) F.SIDE_STATUS_MIRROR_CURRENT 0 * 2 ^ 7 + s.get (.side x)
            F.SIDE_STATUS_RETURN_HOME 0 * 2 ^ 8] []
     (fun t => t.dies = s.dies)) ∧
  (∀ (s : State) (x : Side) (j : Job) (q : List Job) (c : Nat) (p : Nat),
    s.Head x 0xB04 j q → j.pkt.target = c → j.pkt.p 1 = p →
    Acts (.sideMirrorSet x) s j q stOk 0 [] ((.side x, F.SIDE_MIRROR_BASE, c) :: (.side x, F.SIDE_MIRROR_LEN, c) :: (.side x,
        F.SIDE_STATUS_MIRROR_CURRENT, 0) :: returnFields)
     (fun t => t.get (.side x) F.SIDE_MIRROR_BASE c = p % 2 ^ F.SIDE_MIRROR_BASE.width ∧ t.get (.side x) F.SIDE_MIRROR_LEN c = bits
         (j.pkt.p 2) 23 0 % 2 ^ F.SIDE_MIRROR_LEN.width ∧ (t.side x).ckptFull = true)) ∧
  (∀ (s : State) (x : Side) (j : Job) (q : List Job) (c : Nat) (p : Nat),
    s.Head x 0xB05 j q → j.pkt.target = c → j.pkt.p 1 = p → s.crossReach x = false →
    Acts (.sideReturnPolicy x) s j q stOk 0 [] ((.side x, F.SIDE_RETURN_RETURN_HOME, 0) :: (.side x, F.SIDE_RETURN_HOLDOFF, 0) :: (.side x,
        F.SIDE_STATUS_RETURN_HOME, 0) :: returnFields)
     (fun t => t.get (.side x) F.SIDE_RETURN_RETURN_HOME 0 = bits p 0 0 ∧ t.get (.side x) F.SIDE_RETURN_HOLDOFF 0 = bits p 23 8 ∧ t.get
         (.side x) F.SIDE_STATUS_RETURN_HOME 0 = bits p 0 0)) ∧
  (∀ (s : State) (x : Side) (j : Job) (q : List Job) (c : Nat) (p : Nat),
    s.Head x 0xB05 j q → j.pkt.target = c → j.pkt.p 1 = p → s.crossReach x = true →
    ∃ t, Sys2Proof.Machine.exec (.sideReturnPolicy x) s = .next t ∧
      Replied s t j stOk 0 [] ∧ t.get (.side x) F.SIDE_RETURN_HOLDOFF 0 = bits p 23 8 ∧
        t.get (.side x.other) F.SIDE_RETURN_HOLDOFF 0 = bits p 23 8 ∧ t.get (.side x.other) F.SIDE_RETURN_RETURN_HOME 0 = bits p 0 0 ∧
        MemSame s t) ∧
  (∀ (s : State) (x : Side) (j : Job) (q : List Job) (c : Nat),
    s.Head x 0x603 j q → j.pkt.target = c → bits (j.pkt.p 1) 1 0 = 0 → s.present .flue = true →
    Acts (.netBypassState x) s j q stOk 0 [s.get .flue F.BYP_STATUS_CLOSED 0 + 2] []
     (fun t => t.flue = s.flue)) ∧
  (∀ (s : State) (x : Side) (j : Job) (q : List Job) (c : Nat),
    s.Head x 0x603 j q → j.pkt.target = c → bits (j.pkt.p 1) 1 0 = 0 → s.present .flue = false →
    Acts (.netBypassState x) s j q stOk 0 [1] []
     (fun t => t.flue = s.flue)) ∧
  (∀ (s : State) (x : Side) (j : Job) (q : List Job) (c : Nat),
    s.Head x 0x603 j q → j.pkt.target = c → bits (j.pkt.p 1) 1 0 = 2 → s.present .flue = true → s.holds x 4 = true →
    Acts (.netBypassState x) s j q stOk 0 [s.get .flue F.BYP_STATUS_CLOSED 0 + 2] [(.flue, F.BYP_STATUS_FORCED, 0), (.flue,
        F.BYP_STATUS_OPEN_REQ, 0), (.flue, F.BYP_STATUS_CAUSE, 0)]
     (fun t => t.get .flue F.BYP_STATUS_FORCED 0 = 0 ∧ t.get .flue F.BYP_STATUS_OPEN_REQ 0 = 1)) ∧
  (∀ (s : State) (x : Side) (j : Job) (q : List Job) (c : Nat),
    s.Head x 0x603 j q → j.pkt.target = c → bits (j.pkt.p 1) 1 0 ≠ 0 → s.present .flue = true → s.holds x 4 = false →
    Acts (.netBypassState x) s j q stMaster (s.masterDetail 4) [] []
     (fun t => t.flue = s.flue)) ∧
  (∀ (s : State) (x : Side) (j : Job) (q : List Job) (c : Nat) (p : Nat) (i : Nat) (k : Nat),
    s.Head x 0x604 j q → j.pkt.target = c → j.pkt.p 1 = p → bits p 0 0 = 0 → saIndex c 0 (bits p 1 1) (bits p 3 2) = i → c < 17 →
      s.present .flue = true → s.holds x 4 = true → bits p 15 8 = k → k < 64 → s.is (.side x) F.KEYS_SLOT_VALID k = true →
      s.is (.side x) F.KEYS_SLOT_REVOKED k = false → s.get (.side x) F.KEYS_SLOT_USE k = 3 → p.testBit 4 = false → j.pkt.p 2 < 2 ^ 32 →
    ∃ t, Sys2Proof.Machine.exec (.netSaInstall x) s = .next t ∧
      Replied s t j stOk 0 [] ∧ (t.side x).chromirQ = q.dropWhile isLong ∧ t.get .flue F.MSEC_SA_STATE_INSTALLED i = 1 ∧
        t.get .flue F.MSEC_SA_STATE_ACTIVE i = 1 ∧ t.get .flue F.MSEC_SA_STATE_XPN i = 0 ∧ t.get .flue F.MSEC_SA_STATE_KEY_SLOT i = k ∧
        t.saPn i = j.pkt.p 2 ∧ Tab.at [] t.flue.saKey i = Tab.at [] (s.side x).keyMat k ∧ MemSame s t ∧ t.dies = s.dies) ∧
  (∀ (s : State) (x : Side) (j : Job) (q : List Job) (c : Nat) (p : Nat),
    s.Head x 0x604 j q → j.pkt.target = c → s.present .flue = true → s.holds x 4 = true → j.pkt.p 1 = p →
      s.is (.side x) F.KEYS_SLOT_VALID (bits p 15 8) = false →
    Acts (.netSaInstall x) s j q stCheck 0 [] []
     (fun t => t.flue = s.flue)) ∧
  (∀ (s : State) (x : Side) (j : Job) (q : List Job) (c : Nat),
    s.Head x 0x605 j q → j.pkt.target = c → s.present .flue = true → s.holds x 4 = true →
    Acts (.netMirrorSet x) s j q stOk 0 [] [(.flue, F.MIR_INGRESS, c), (.flue, F.MIR_EGRESS, c), (.flue, F.MIR_CFG_DEST, c), (.flue,
        F.MIR_CFG_ENABLE, c)]
     (fun t => t.get .flue F.MIR_INGRESS c = j.pkt.p 1 % 2 ^ F.MIR_INGRESS.width ∧ t.get .flue F.MIR_EGRESS c = j.pkt.p 2 % 2 ^
         F.MIR_EGRESS.width ∧ t.get .flue F.MIR_CFG_DEST c = bits (j.pkt.p 3) 4 0 ∧ t.get .flue F.MIR_CFG_ENABLE c = bits (j.pkt.p 3) 5 5))

/-- TIME_STATUS answers the domain's time, its last offset and its servo state. TIME_STEP_ACCEPT of a pending step applies it, clears
PENDING and re-acquires; without one it is answered BAD_PARAM. TIME_PULSE_SET writes the settings of an output: one that is not enabled
has no next edge, a periodic one has its first start at least 1 us ahead; while a pulse is in progress new settings of an enabled
output wait for its end. TIME_CAPTURE_READ answers the last stamp and the count and clears the count and the flags. TIME_SERVO_SET
writes gains, threshold and AUTO_STEP. Those that act on Bellows are answered TARGET_ABSENT while the Flue die is ABSENT. -/
def Obligations.TimePackets : Prop :=
  (∀ (s : State) (x : Side) (j : Job) (q : List Job) (c : Nat),
    s.Head x 0x701 j q → j.pkt.target = c → s.present .flue = true →
    Acts (.timeStatus x) s j q stOk 0 [secWord (s.blwTime c), nsWord (s.blwTime c), s.get .flue F.BLW_OFFSET c, s.get .flue
        F.BLW_STATE_SERVO c + 8 * s.get .flue F.BLW_STATE_LOCKED c + 16 * s.get .flue F.BLW_STATE_HOLDOVER c + 32 * s.get .flue
            F.BLW_STATE_PENDING c] []
     (fun t => t.flue = s.flue)) ∧
  (∀ (s : State) (x : Side) (j : Job) (q : List Job) (c : Nat),
    s.Head x 0x701 j q → j.pkt.target = c → s.present .flue = false →
    Acts (.timeStatus x) s j q stAbsent 0x050 [] [(.side x, F.FAB_PROXY_ABSENT, 0)]
     (fun t => t.flue = s.flue)) ∧
  (∀ (s : State) (x : Side) (j : Job) (q : List Job) (c : Nat),
    s.Head x 0x702 j q → j.pkt.target = c → s.present .flue = true → c < 2 → s.get .flue F.BLW_STATE_PENDING c = 1 →
    ∃ t, Sys2Proof.Machine.exec (.timeStepAccept x) s = .next t ∧
      Replied s t j stOk 0 [] ∧ (t.side x).chromirQ = q.dropWhile isLong ∧ t.get .flue F.BLW_STATE_PENDING c = 0 ∧
        t.get .flue F.BLW_STATE_SERVO c = 1 ∧
        (t.dom c).clock.base = (((s.dom c).clock.read s.now : Int) - sigInt (s.get .flue F.BLW_PENDING c) * 1024).toNat ∧
        t.get .flue F.BLW_STEP_COUNT c = (s.get .flue F.BLW_STEP_COUNT c + 1) % 2 ^ F.BLW_STEP_COUNT.width ∧ MemSame s t ∧ t.now = s.now) ∧
  (∀ (s : State) (x : Side) (j : Job) (q : List Job) (c : Nat),
    s.Head x 0x702 j q → j.pkt.target = c → s.present .flue = true → s.get .flue F.BLW_STATE_PENDING c = 0 →
    Acts (.timeStepAccept x) s j q stParam 0 [] []
     (fun t => t.flue = s.flue)) ∧
  (∀ (s : State) (x : Side) (j : Job) (q : List Job) (c : Nat),
    s.Head x 0x703 j q → j.pkt.target = c → c < 4 → bits (j.pkt.p 5) 0 0 = 0 →
    Acts (.timePulseSet x) s j q stOk 0 [] [(.side x, F.TPO_START_S, c), (.side x, F.TPO_START_NS, c), (.side x, F.TPO_PERIOD, c), (.side
        x, F.TPO_WIDTH, c), (.side x, F.TPO_CTRL_INVERT, c), (.side x, F.TPO_CTRL_ENABLE, c), (.side x, F.TPO_CTRL_DONE, c)]
     (fun t => t.get (.side x) F.TPO_START_S c = j.pkt.p 1 % 2 ^ F.TPO_START_S.width ∧ t.get (.side x) F.TPO_START_NS c = j.pkt.p 2 % 2 ^
         F.TPO_START_NS.width ∧ t.get (.side x) F.TPO_PERIOD c = j.pkt.p 3 % 2 ^ F.TPO_PERIOD.width ∧ t.get (.side x) F.TPO_WIDTH c =
             j.pkt.p 4 % 2 ^ F.TPO_WIDTH.width ∧ t.get (.side x) F.TPO_CTRL_INVERT c = bits (j.pkt.p 5) 1 1 ∧ t.get (.side x)
                 F.TPO_CTRL_ENABLE c = 0 ∧ Tab.at 0 (t.side x).tpoNext c = 0)) ∧
  (∀ (s : State) (x : Side) (j : Job) (q : List Job) (c : Nat),
    s.Head x 0x703 j q → j.pkt.target = c → c < 4 → bits (j.pkt.p 5) 0 0 = 1 → (s.side x).tpoLevel.testBit c = true →
    Acts (.timePulseSet x) s j q stOk 0 [] []
     (fun t => Tab.at [] (t.side x).tpoNew c = [j.pkt.p 1, j.pkt.p 2, j.pkt.p 3, j.pkt.p 4, j.pkt.p 5] ∧ (t.side x).tpoNext = (s.side
         x).tpoNext ∧ (t.side x).tpoLevel = (s.side x).tpoLevel)) ∧
  (∀ (s : State) (x : Side) (j : Job) (q : List Job) (c : Nat),
    s.Head x 0x703 j q → j.pkt.target = c → c < 4 → bits (j.pkt.p 5) 0 0 = 1 → (s.side x).tpoLevel.testBit c = false → j.pkt.p 3 ≠ 0 →
    Acts (.timePulseSet x) s j q stOk 0 [] [(.side x, F.TPO_START_S, c), (.side x, F.TPO_START_NS, c), (.side x, F.TPO_PERIOD, c), (.side
        x, F.TPO_WIDTH, c), (.side x, F.TPO_CTRL_INVERT, c), (.side x, F.TPO_CTRL_ENABLE, c), (.side x, F.TPO_CTRL_DONE, c)]
     (fun t => t.get (.side x) F.TPO_PERIOD c = j.pkt.p 3 % 2 ^ F.TPO_PERIOD.width ∧ t.get (.side x) F.TPO_WIDTH c = j.pkt.p 4 % 2 ^
         F.TPO_WIDTH.width ∧ t.get (.side x) F.TPO_CTRL_INVERT c = bits (j.pkt.p 5) 1 1 ∧ t.get (.side x) F.TPO_CTRL_ENABLE c = 1 ∧ (t.side
             x).tpoLevel.testBit c = false ∧ Tab.at 0 (t.side x).tpoNext c = (if t.tpoStart x c < s.domTime x (s.get (.side x)
                 F.TPO_CTRL_DOMAIN c) / 1024 + 1000 then firstAt (t.tpoStart x c) (j.pkt.p 3) (s.domTime x (s.get (.side x)
                     F.TPO_CTRL_DOMAIN c) / 1024 + 1000) else t.tpoStart x c) + 1)) ∧
  (∀ (s : State) (x : Side) (j : Job) (q : List Job) (c : Nat),
    s.Head x 0x704 j q → j.pkt.target = c → c < 4 →
    Acts (.timeCaptureRead x) s j q stOk 0 [s.get (.side x) F.TCI_LAST_S c, s.get (.side x) F.TCI_LAST_NS c, s.get (.side x)
        F.TCI_STATUS_COUNT c + 2 ^ 16 * s.get (.side x) F.TCI_STATUS_OVERFLOW c] [(.side x, F.TCI_STATUS_COUNT, c), (.side x,
            F.TCI_STATUS_OVERFLOW, c), (.side x, F.TCI_STATUS_STEPPED, c)]
     (fun t => t.get (.side x) F.TCI_STATUS_COUNT c = 0 ∧ t.get (.side x) F.TCI_STATUS_OVERFLOW c = 0 ∧ t.get (.side x)
         F.TCI_STATUS_STEPPED c = 0)) ∧
  (∀ (s : State) (x : Side) (j : Job) (q : List Job) (c : Nat),
    s.Head x 0x705 j q → j.pkt.target = c → s.present .flue = true →
    Acts (.timeServoSet x) s j q stOk 0 [] [(.flue, F.BLW_KP, c), (.flue, F.BLW_KI, c), (.flue, F.BLW_JUMP_TH, c), (.flue,
        F.BLW_CFG_AUTO_STEP, c)]
     (fun t => t.get .flue F.BLW_KP c = j.pkt.p 1 % 2 ^ F.BLW_KP.width ∧ t.get .flue F.BLW_KI c = j.pkt.p 2 % 2 ^ F.BLW_KI.width ∧ t.get
         .flue F.BLW_JUMP_TH c = j.pkt.p 3 % 2 ^ F.BLW_JUMP_TH.width ∧ t.get .flue F.BLW_CFG_AUTO_STEP c = bits (j.pkt.p 4) 0 0))

/-- WLD_STATUS answers the state, MEASURED and the restarts of a world, WLD_MEASURE_GET its digest in ten words. WLD_RESTART of a world on
a side takes it to RESTARTING, not measured, its restarts counted, and is answered OK. A challenge of WLD_DEBUG_UNLOCK is answered in
seven words and kept with its instant; an unlock whose certificate fails is answered SIGNATURE_FAILED and stores the cause, which is 1
when a word of it is uncorrectable (a choice of the model, log entry 110). LOG_READ answers the entries asked for, newest first.
LOG_MARK logs the word of its world and answers the index of its entry. -/
def Obligations.WorldAndLogPackets : Prop :=
  (∀ (s : State) (x : Side) (j : Job) (q : List Job) (c : Nat),
    s.Head x 0x801 j q → j.pkt.target = c →
    Acts (.wldStatus x) s j q stOk 0 [s.worldState x c + s.get (.side x) F.WOT_WORLD_STATE_MEASURED c * 8 + s.get (.side x)
        F.WOT_WORLD_STATE_RESTARTS c * 256] []
     (fun t => t.dies = s.dies)) ∧
  (∀ (s : State) (x : Side) (j : Job) (q : List Job) (c : Nat),
    s.Head x 0x803 j q → j.pkt.target = c →
    Acts (.wldMeasureGet x) s j q stOk 0 ((List.range 10).map (fun i => beNat (Tab.at [] (s.side x).measures c) / 2 ^ (40 * i) % 2 ^ 40)) []
     (fun t => t.dies = s.dies)) ∧
  (∀ (s : State) (x : Side) (j : Job) (q : List Job) (c : Nat),
    s.Head x 0x802 j q → j.pkt.target = c → c < 8 → s.worldEnabled x c = true →
      (∀ y : Side, ∀ n : Nat, n < 32 → s.get (.side y) F.DOOR_OWNER_WORLD n ≠ c) →
    ∃ t, Sys2Proof.Machine.exec (.wldRestart x) s = .next t ∧
      Replied s t j stOk 0 [] ∧ t.worldState x c = 5 ∧ t.get (.side x) F.WOT_WORLD_STATE_MEASURED c = 0 ∧
        t.get (.side x) F.WOT_WORLD_STATE_RESTARTS c = (s.get (.side x) F.WOT_WORLD_STATE_RESTARTS c + 1) % 2 ^
            F.WOT_WORLD_STATE_RESTARTS.width ∧
        t.now = s.now) ∧
  (∀ (s : State) (x : Side) (j : Job) (q : List Job) (c : Nat) (lo : Option Word40) (co : Option Word40),
    s.Head x 0x804 j q → j.pkt.target = c → c = 0 →
    Acts (.wldDebugUnlock x lo co) s j q stOk 0 (challengeWords (s.challenge x).1) []
     (fun t => (t.side x).challenge = some ((s.challenge x).1, s.now))) ∧
  (∀ (s : State) (x : Side) (j : Job) (q : List Job) (c : Nat) (p : Nat) (lo : Option Word40) (co : Option Word40),
    s.Head x 0x804 j q → j.pkt.target = c → j.pkt.p 1 = p → c ≠ 0 → s.ReadsClean x p 160 lo → s.certCause x p false ≠ 0 →
    ∃ t, Sys2Proof.Machine.exec (.wldDebugUnlock x lo co) s = .next t ∧
      Replied s t j stSignature 0 [] ∧ t.get (.side x) F.POKER_STATUS_CAUSE 0 = s.certCause x p false % 2 ^ F.POKER_STATUS_CAUSE.width ∧
        t.get (.side x) F.POKER_STATUS_UNLOCKED 0 = s.get (.side x) F.POKER_STATUS_UNLOCKED 0 ∧
        t.get (.side x) F.POKER_REFUSE_COUNT 0 = (s.get (.side x) F.POKER_REFUSE_COUNT 0 + 1) % 2 ^ F.POKER_REFUSE_COUNT.width ∧
        (t.side x).challenge = none ∧ MemSame s t) ∧
  (∀ (s : State) (x : Side) (j : Job) (q : List Job) (c : Nat) (p : Nat) (lo : Option Word40) (co : Option Word40),
    s.Head x 0x804 j q → j.pkt.target = c → j.pkt.p 1 = p → c ≠ 0 → s.ReadsLost x p 160 lo →
    ∃ t, Sys2Proof.Machine.exec (.wldDebugUnlock x lo co) s = .next t ∧
      Replied s t j stSignature 0 [] ∧ t.get (.side x) F.POKER_STATUS_CAUSE 0 = 1 ∧
        t.get (.side x) F.POKER_STATUS_UNLOCKED 0 = s.get (.side x) F.POKER_STATUS_UNLOCKED 0 ∧
        t.get (.side x) F.POKER_REFUSE_COUNT 0 = (s.get (.side x) F.POKER_REFUSE_COUNT 0 + 1) % 2 ^ F.POKER_REFUSE_COUNT.width ∧
        (t.side x).challenge = none ∧ MemSame s t) ∧
  (∀ (s : State) (x : Side) (j : Job) (q : List Job) (c : Nat) (p : Nat),
    s.Head x 0xA01 j q → j.pkt.target = c → j.pkt.p 1 = p →
    Acts (.logRead x) s j q stOk 0 ((List.range (bits p 14 12)).flatMap (fun i => (s.ashEntry x ((s.get (.side x) F.ASH_SEQ 0 + 8191 - bits
        p 11 0 - i) % 4096)).words)) []
     (fun t => t.dies = s.dies)) ∧
  (∀ (s : State) (x : Side) (j : Job) (q : List Job) (c : Nat) (p : Nat),
    s.Head x 0xA02 j q → j.pkt.target = c → j.pkt.p 1 = p →
    Acts (.logMark x) s j q stOk 0 [s.ashIndex x 4] (logFields x)
     (fun t => t.get (.side x) F.ASH_SEQ 0 = (s.get (.side x) F.ASH_SEQ 0 + 1) % 2 ^ F.ASH_SEQ.width ∧ t.ashEntry x (s.ashIndex x 4) =
         ⟨ashW0 0x006 4 (!s.locked x) false (j.pkt.world % 8), secWord (s.ashStamp x 4), nsWord (s.ashStamp x 4), p % 2 ^ 40⟩))

/-- CAN_MODE_SET is answered OK at acceptance and makes the mode pending. CAN_WAKE_CFG keeps the wake settings for the channel.
CAN_AWAKE_REPORT answers the identifiers counted with their counts. CAN_SEAL_KEY binds a valid seal key of the channel's world to a
context: transmit value 1, receive value 0, KEYED, with its NOR record written; a slot of another world is refused WORLD_DENIED, one
that is not a valid seal key CHECK_FAILED. A packet to a channel that is not PRESENT is answered TARGET_ABSENT. -/
def Obligations.CanPackets : Prop :=
  (∀ (s : State) (x : Side) (j : Job) (q : List Job) (k : Fin 6) (p : Nat),
    s.Head x 0x501 j q → j.pkt.target = k.val → s.present (.can x k) = true → j.pkt.p 1 = p → (s.can x k).busOffAt = none →
    Acts (.canModeSet x) s j q stOk 0 [] [(.side x, F.CAN_STATUS_MODE_PENDING, k), (.side x, F.CAN_STATUS_PEND_MODE, k)]
     (fun t => t.get (.side x) F.CAN_STATUS_MODE_PENDING k = 1 ∧ t.get (.side x) F.CAN_STATUS_PEND_MODE k = bits p 3 0 % 2 ^
         F.CAN_STATUS_PEND_MODE.width ∧ t.canMode x k = s.canMode x k)) ∧
  (∀ (s : State) (x : Side) (j : Job) (q : List Job) (k : Fin 6),
    s.Head x 0x502 j q → j.pkt.target = k.val → s.present (.can x k) = true →
    Acts (.canWakeCfg x) s j q stOk 0 [] []
     (fun t => (t.can x k).wake = canWakeOf j.pkt ∧ (t.can x k).taken = (s.can x k).taken)) ∧
  (∀ (s : State) (x : Side) (j : Job) (q : List Job) (k : Fin 6),
    s.Head x 0x503 j q → j.pkt.target = k.val → s.present (.can x k) = true →
    Acts (.canAwakeReport x) s j q stOk 0 ((s.can x k).awake.length :: (s.can x k).awake.map (fun e => e.2 * 2 ^ 30 + e.1)) []
     (fun t => t.dies = s.dies)) ∧
  (∀ (s : State) (x : Side) (j : Job) (q : List Job) (k : Fin 6) (p : Nat) (a : Nat) (i : Nat),
    s.Head x 0x504 j q → j.pkt.target = k.val → s.present (.can x k) = true → j.pkt.p 1 = p → bits p 7 0 = a →
      ctxIndex k (bits p 15 8) = i → a < 64 → s.get (.side x) F.KEYS_SLOT_OWNER a = s.cg x F.CAN_CFG_OWNER k →
      s.is (.side x) F.KEYS_SLOT_VALID a = true → s.is (.side x) F.KEYS_SLOT_REVOKED a = false → s.get (.side x) F.KEYS_SLOT_USE a = 4 →
    ∃ t, Sys2Proof.Machine.exec (.canSealKey x) s = .next t ∧
      Replied s t j stOk 0 [] ∧ (t.side j.side).chromirQ = q.dropWhile isLong ∧
        Only ([(.side x, F.CAN_SEAL_TX, i), (.side x, F.CAN_SEAL_RX, i), (.side x, F.CAN_SEAL_STATUS_KEY_SLOT, i), (.side x,
            F.CAN_SEAL_STATUS_FV_LOW, i), (.side x, F.CAN_SEAL_STATUS_EXHAUSTED, i), (.side x, F.CAN_SEAL_STATUS_KEYED, i)] ++ logFields x
                ++ replyFields j) s t ∧
        t.cg x F.CAN_SEAL_TX i = 1 ∧ t.cg x F.CAN_SEAL_RX i = 0 ∧ t.cg x F.CAN_SEAL_STATUS_KEY_SLOT i = a ∧
        t.cg x F.CAN_SEAL_STATUS_KEYED i = 1 ∧ t.cg x F.CAN_SEAL_STATUS_EXHAUSTED i = 0 ∧ t.cg x F.CAN_SEAL_STATUS_FV_LOW i = 0 ∧
        t.sealRec x i = some (a, 1, 0) ∧
        (∀ (y : Side) (b : Nat), (y = x → b < sealAddr i ∨ sealAddr i + 24 ≤ b) → t.byte y b = s.byte y b)) ∧
  (∀ (s : State) (x : Side) (j : Job) (q : List Job) (k : Fin 6) (p : Nat),
    s.Head x 0x504 j q → j.pkt.target = k.val → s.present (.can x k) = true → j.pkt.p 1 = p →
      s.get (.side x) F.KEYS_SLOT_OWNER (bits p 7 0) ≠ s.cg x F.CAN_CFG_OWNER k →
    Acts (.canSealKey x) s j q stDenied 1 [] []
     (fun t => t.dies = s.dies)) ∧
  (∀ (s : State) (x : Side) (j : Job) (q : List Job) (k : Fin 6) (p : Nat),
    s.Head x 0x504 j q → j.pkt.target = k.val → s.present (.can x k) = true → j.pkt.p 1 = p → bits p 7 0 < 64 →
      s.get (.side x) F.KEYS_SLOT_OWNER (bits p 7 0) = s.cg x F.CAN_CFG_OWNER k → s.is (.side x) F.KEYS_SLOT_VALID (bits p 7 0) = false →
    Acts (.canSealKey x) s j q stCheck 0 [] []
     (fun t => t.dies = s.dies)) ∧
  (∀ (s : State) (x : Side) (j : Job) (q : List Job) (k : Fin 6),
    s.Head x 0x501 j q → j.pkt.target = k.val → s.present (.can x k) = false →
    Acts (.canModeSet x) s j q stAbsent (0x010 + k) [] [(.side x, F.FAB_PROXY_ABSENT, 0)]
     (fun t => t.absent = s.absent))

/-- A pending mode comes into force when no frame is in progress and the channel is not in bus-off, or OFF if timing, RAM or limp clock
bars the channel. An error while receiving sets the last error and raises REC by 1, or by 8 when heavy, and is counted; below 96
nothing else changes. A transmission that fails raises TEC by 8, and by 8 more for each further error in its error flag, but not for an
acknowledgement error of an error passive channel or a stuff error in arbitration; above 255 the channel is in bus-off, counted and
logged. A recovery starts after the delay when AUTO_RECOVER is 1; its completion clears both counters and the channel is error active. -/
def Obligations.CanModesAndErrors : Prop :=
  (∀ (s : State) (k : Fin 12) (x : Side) (c : Nat),
    canSide k = x → k.val % 6 = c → s.canHere x c = true → (s.can x c).taken = none → (s.can x c).next = none →
      (s.can x c).nextAt = none → s.cb x F.CAN_STATUS_MODE_PENDING c = true → s.cg x F.CAN_ERR_STATE c ≠ 2 →
    ∃ t, Sys2Proof.Machine.exec (.canModeApply k) s = .next t ∧
      (t.can x c).retime = none ∧ t.canMode x c = (if s.canBarred x c = true then 0 else s.cg x F.CAN_STATUS_PEND_MODE c) ∧
        t.cg x F.CAN_STATUS_MODE_PENDING c = 0 ∧
        Only [(.side x, F.CAN_STATUS_MODE, c), (.side x, F.CAN_STATUS_MODE_PENDING, c), (.side x, F.CAN_STATUS_PEND_MODE, c), (.side x,
            F.CAN_TT_STATUS_RUNNING, c)] s t ∧
        SideOnly x s t ∧ MemSame s t) ∧
  (∀ (s : State) (k : Fin 12) (x : Side) (c : Nat) (code : Fin 8) (hv : Bool),
    canSide k = x → k.val % 6 = c → s.canOn x c = true → (s.can x c).nextAt = none → s.canMode x c ≤ 4 →
      s.cg x F.CAN_ERR_REC c + (if hv = true then 8 else 1) < 96 → s.cg x F.CAN_ERR_TEC c < 96 → s.cg x F.CAN_ERR_STATE c = 0 →
    ∃ t, Sys2Proof.Machine.exec (.canErrorFlag k code hv) s = .next t ∧
      t.cg x F.CAN_ERR_REC c = s.cg x F.CAN_ERR_REC c + (if hv = true then 8 else 1) ∧ t.cg x F.CAN_ERR_LAST_ERR c = code ∧
        t.cg x F.CAN_ERR_TEC c = s.cg x F.CAN_ERR_TEC c ∧ t.cg x F.CAN_ERR_STATE c = 0 ∧
        t.get (.side x) F.CAN_CNT (c * 20 + 8) = (s.get (.side x) F.CAN_CNT (c * 20 + 8) + 1) % 2 ^ F.CAN_CNT.width ∧
        Only [(.side x, F.CAN_ERR_LAST_ERR, c), (.side x, F.CAN_CNT, c * 20 + 8), (.side x, F.CAN_ERR_TEC, c), (.side x, F.CAN_ERR_REC, c),
            (.side x, F.CAN_ERR_WARNING, c)] s t ∧
        SideOnly x s t ∧ MemSame s t) ∧
  (∀ (s : State) (k : Fin 12) (x : Side) (c : Nat) (code : Fin 8) (arb : Bool) (again : Fin 32) (n : BitVec 16) (a : CanTx),
    canSide k = x → k.val % 6 = c → s.canOn x c = true → (s.can x c).nextAt = none → (s.can x c).taken = some a → a.buf < 32 →
      s.cg x F.CAN_ERR_TEC c + s.tecRise x c code arb again ≤ 127 → s.cg x F.CAN_ERR_REC c ≤ 127 → s.cg x F.CAN_ERR_STATE c = 0 →
    ∃ t, Sys2Proof.Machine.exec (.canTxEnd k (.error code arb again) n) s = .next t ∧
      t.cg x F.CAN_ERR_TEC c = s.cg x F.CAN_ERR_TEC c + s.tecRise x c code arb again ∧ t.cg x F.CAN_ERR_REC c = s.cg x F.CAN_ERR_REC c ∧
        t.cg x F.CAN_ERR_STATE c = 0 ∧ t.cg x F.CAN_ERR_LAST_ERR c = code ∧ (t.can x c).taken = none ∧
        (t.can x c).busOffAt = (s.can x c).busOffAt ∧ SideOnly x s t) ∧
  (∀ (s : State) (k : Fin 12) (x : Side) (c : Nat) (code : Fin 8) (arb : Bool) (again : Fin 32) (n : BitVec 16) (a : CanTx),
    canSide k = x → k.val % 6 = c → s.canOn x c = true → (s.can x c).nextAt = none → (s.can x c).taken = some a → a.buf < 32 →
      255 < s.cg x F.CAN_ERR_TEC c + s.tecRise x c code arb again → s.cg x F.CAN_ERR_STATE c = 1 →
    ∃ t, Sys2Proof.Machine.exec (.canTxEnd k (.error code arb again) n) s = .next t ∧
      t.cg x F.CAN_ERR_STATE c = 2 ∧ t.cg x F.CAN_ERR_TEC c = min 511 (s.cg x F.CAN_ERR_TEC c + s.tecRise x c code arb again) ∧
        t.cg x F.CAN_ERR_LAST_ERR c = code ∧ (t.can x c).busOffAt = some s.now ∧ (t.can x c).taken = none ∧ MemSame s t ∧ t.dies = s.dies) ∧
  (∀ (s : State) (k : Fin 12) (x : Side) (c : Nat) (b : Nat),
    canSide k = x → k.val % 6 = c → (s.can x c).busOffAt = some b → s.canHere x c = true → s.cg x F.CAN_ERR_STATE c = 2 →
      s.cb x F.CAN_CFG_AUTO_RECOVER c = true → (s.can x c).recovering = false →
    ∃ t, Sys2Proof.Machine.exec (.canRecoveryStart k) s = .next t ∧
      (t.can x c).recovering = true ∧ t.now = max s.now (b + min 1000 (s.cg x F.CAN_CFG_RECOVERY_DELAY c) * 1000000) ∧ Only [] s t ∧
        MemSame s t ∧ t.dies = s.dies) ∧
  (∀ (s : State) (k : Fin 12) (x : Side) (c : Nat),
    canSide k = x → k.val % 6 = c → s.canHere x c = true → (s.can x c).recovering = true → s.cb x F.CAN_STATUS_MODE_PENDING c = false →
      s.cb x F.CAN_CFG_AFTER_RECOVERY c = false →
    ∃ t, Sys2Proof.Machine.exec (.canRecoveryComplete k) s = .next t ∧
      t.cg x F.CAN_ERR_TEC c = 0 ∧ t.cg x F.CAN_ERR_REC c = 0 ∧ t.cg x F.CAN_ERR_STATE c = 0 ∧ t.cg x F.CAN_ERR_WARNING c = 0 ∧
        (t.can x c).recovering = false ∧ (t.can x c).busOffAt = none ∧ t.canMode x c = s.canMode x c ∧ MemSame s t ∧ t.now = s.now)

/-- A frame of a format that the channel does not enable is only counted. A frame that no filter accepts, with non-matching frames
rejected, is only counted. A frame that a filter accepts for a receive queue with room is stored at PUT, PUT advances, and it is
counted. An acknowledgement advances GET on a queue that is not empty. A shadow command on a free shadow makes it BUSY, one whose index
is out of the region sets ERR, and its completion copies the element to the shadow, or the shadow to a transmit buffer that is not
taken, clears BUSY and sets DONE. -/
def Obligations.CanReceive : Prop :=
  (∀ (s : State) (k : Fin 12) (x : Side) (c : Nat) (f : CanFrame) (g : Word40) (e : Ecc),
    canSide k = x → k.val % 6 = c → s.canOn x c = true → (s.can x c).nextAt = none → s.canMode x c ≠ 7 → s.mayEnd x c g.toNat = true →
      s.formatOk x c (bits f.h0.toNat 31 30) = false →
    ∃ t, Sys2Proof.Machine.exec (.canFrameRx k f g e) s = .next t ∧
      t.get (.side x) F.CAN_CNT (c * 20 + 17) = (s.get (.side x) F.CAN_CNT (c * 20 + 17) + 1) % 2 ^ F.CAN_CNT.width ∧
        Only [(.side x, F.CAN_CNT, c * 20 + 17)] s t ∧ SideOnly x s t ∧ t.side x = s.side x ∧ MemSame s t) ∧
  (∀ (s : State) (k : Fin 12) (x : Side) (c : Nat) (f : CanFrame) (g : Word40),
    canSide k = x → k.val % 6 = c → s.canOn x c = true → (s.can x c).nextAt = none → s.canMode x c ≠ 7 → s.mayEnd x c g.toNat = true →
      s.cg x F.CAN_ERR_REC c = 0 → s.awakeOpen = false → s.ember.confirm = none → s.cb x F.CAN_TT_CFG_ENABLE c = false →
      s.formatOk x c (bits f.h0.toNat 31 30) = true → s.accepts x c f.h0.toNat = none → s.cg x F.CAN_CFG_NONMATCH c = 0 →
    ∃ t, Sys2Proof.Machine.exec (.canFrameRx k f g .clean) s = .next t ∧
      t.get (.side x) F.CAN_CNT (c * 20 + 2) = (s.get (.side x) F.CAN_CNT (c * 20 + 2) + 1) % 2 ^ F.CAN_CNT.width ∧
        Only [(.side x, F.CAN_CNT, c * 20 + 2)] s t ∧ SideOnly x s t ∧ t.side x = { s.side x with spark := (t.side x).spark } ∧
        MemSame s t) ∧
  (∀ (s : State) (k : Fin 12) (x : Side) (c : Nat) (f : CanFrame) (g : Word40) (n : Nat) (i : Nat),
    canSide k = x → k.val % 6 = c → s.canOn x c = true → (s.can x c).nextAt = none → s.canMode x c ≠ 7 → s.mayEnd x c g.toNat = true →
      s.cg x F.CAN_ERR_REC c = 0 → s.awakeOpen = false → s.ember.confirm = none → s.cb x F.CAN_TT_CFG_ENABLE c = false →
      s.formatOk x c (bits f.h0.toNat 31 30) = true → s.accepts x c f.h0.toNat = some n → n < 128 →
      s.cg x F.CAN_FLT_CFG_ACTION (c * 128 + n) = 1 → s.cb x F.CAN_FLT_CFG_SEALED (c * 128 + n) = false →
      f.data.length ≤ s.elemRoom x c 1 → s.cg x F.CAN_RXQ_IDX_PUT (2 * c) = i → i + 1 < s.elems x c 1 → (s.can x c).staged = [] →
      s.copyingElem x c 1 i = false → s.cg x F.CAN_RXQ_IDX_GET (2 * c) ≠ i + 1 →
    ∃ t, Sys2Proof.Machine.exec (.canFrameRx k f g .clean) s = .next t ∧
      t.cg x F.CAN_RXQ_IDX_PUT (2 * c) = i + 1 ∧ t.cg x F.CAN_RXQ_IDX_GET (2 * c) = s.cg x F.CAN_RXQ_IDX_GET (2 * c) ∧
        t.get (.side x) F.CAN_CNT (c * 20) = (s.get (.side x) F.CAN_CNT (c * 20) + 1) % 2 ^ F.CAN_CNT.width ∧
        t.elemWord x (s.elemAddr x c 1 i) 0 = f.h0.toNat ∧
        Only [(.side x, F.CAN_RXQ_IDX_PUT, 2 * c), (.side x, F.CAN_CNT, c * 20), (.side x, F.CAN_IRQ_RXQ0, c), (.side x, F.INTR_PENDING,
            2)] s t ∧
        t.side x.other = s.side x.other ∧ t.dies = s.dies ∧ t.now = s.now) ∧
  (∀ (s : State) (x : Side) (o : Origin) (k : Fin 6) (e : Fin 2) (v : BitVec 32),
    s.Permits x o (canPage k + 0x44 + 8 * e) 4 true → v.toNat.testBit 0 = true →
      s.cg x F.CAN_RXQ_IDX_PUT (2 * k + e) ≠ s.cg x F.CAN_RXQ_IDX_GET (2 * k + e) →
      s.cg x F.CAN_RXQ_IDX_GET (2 * k + e) + 1 < s.elems x k (1 + e) →
    ∃ t, Sys2Proof.Machine.exec (.canRxqAck x o k e v) s = .next t ∧
      t.cg x F.CAN_RXQ_IDX_GET (2 * k + e) = s.cg x F.CAN_RXQ_IDX_GET (2 * k + e) + 1 ∧
        Only [(.side x, F.CAN_RXQ_IDX_GET, 2 * k + e)] s t ∧ t.side x = (s.stepDone x o).side x ∧ MemSame s t ∧ t.resp = .idle ∧
        t.now = s.now) ∧
  (∀ (s : State) (x : Side) (o : Origin) (k : Fin 6) (v : BitVec 32),
    s.Permits x o (canPage k + 0x70) 4 true → v.toNat.testBit 31 = true → v.toNat.testBit 30 = false →
      (s.cg x F.CAN_SHADOW_STATUS_BUSY k).testBit (bits v.toNat 29 29) = false → bits v.toNat 11 0 < s.elems x k (bits v.toNat 25 24) →
    ∃ t, Sys2Proof.Machine.exec (.canShadowLoad x o k v) s = .next t ∧
      (t.cg x F.CAN_SHADOW_STATUS_BUSY k).testBit (bits v.toNat 29 29) = true ∧
        (t.can x k).shadows = (s.can x k).shadows ++ [⟨bits v.toNat 29 29, false, bits v.toNat 25 24, bits v.toNat 11 0, s.load x
            (s.elemAddr x k (bits v.toNat 25 24) (bits v.toNat 11 0)) (s.elemBytes x k (bits v.toNat 25 24))⟩] ∧
        Only [(.side x, F.CAN_SHADOW_STATUS_BUSY, k)] s t ∧ MemSame s t ∧ t.resp = .idle) ∧
  (∀ (s : State) (x : Side) (o : Origin) (k : Fin 6) (v : BitVec 32),
    s.Permits x o (canPage k + 0x70) 4 true → v.toNat.testBit 31 = true → v.toNat.testBit 30 = true → bits v.toNat 25 24 = 0 →
      (s.cg x F.CAN_SHADOW_STATUS_BUSY k).testBit (bits v.toNat 29 29) = false → bits v.toNat 11 0 < s.elems x k 0 →
    ∃ t, Sys2Proof.Machine.exec (.canShadowStore x o k v) s = .next t ∧
      (t.cg x F.CAN_SHADOW_STATUS_BUSY k).testBit (bits v.toNat 29 29) = true ∧
        (t.can x k).shadows = (s.can x k).shadows ++ [⟨bits v.toNat 29 29, true, 0, bits v.toNat 11 0, []⟩] ∧
        Only [(.side x, F.CAN_SHADOW_STATUS_BUSY, k)] s t ∧ MemSame s t ∧ t.resp = .idle) ∧
  (∀ (s : State) (x : Side) (o : Origin) (k : Fin 6) (v : BitVec 32),
    s.Permits x o (canPage k + 0x70) 4 true → v.toNat.testBit 31 = true → s.elems x k (bits v.toNat 25 24) ≤ bits v.toNat 11 0 →
    ∃ t, Sys2Proof.Machine.exec (.canShadowStore x o k v) s = .next t ∧
      (t.cg x F.CAN_SHADOW_STATUS_ERR k).testBit (bits v.toNat 29 29) = true ∧ (t.can x k).shadows = (s.can x k).shadows ∧
        Only [(.side x, F.CAN_SHADOW_STATUS_ERR, k)] s t ∧ MemSame s t) ∧
  (∀ (s : State) (k : Fin 12) (x : Side) (c : Nat) (b : Fin 2) (a : ShadowJob),
    canSide k = x → k.val % 6 = c → (s.can x c).shadows.find? (fun a => a.s == (b : Nat)) = some a → s.canHere x c = true →
      (s.can x c).staged = [] → a.dir = false → a.data.length ≤ 2080 →
    ∃ t, Sys2Proof.Machine.exec (.canShadowDone k b) s = .next t ∧
      (t.cg x F.CAN_SHADOW_STATUS_BUSY c).testBit b = false ∧ (t.cg x F.CAN_SHADOW_STATUS_DONE c).testBit b = true ∧
        (t.can x c).shadows.all (fun a => a.s != (b : Nat)) = true ∧
        t.load x (canPage c + 0x2000 + b * 0x1000) a.data.length = a.data.map (fun v => v % 256) ∧
        Only [(.side x, F.CAN_SHADOW_STATUS_BUSY, c), (.side x, F.CAN_SHADOW_STATUS_DONE, c), (.side x, F.CAN_IRQ_SHADOW, c), (.side x,
            F.INTR_PENDING, 2)] s t ∧
        t.now = s.now) ∧
  (∀ (s : State) (k : Fin 12) (x : Side) (c : Nat) (b : Fin 2) (a : ShadowJob),
    canSide k = x → k.val % 6 = c → (s.can x c).shadows.find? (fun a => a.s == (b : Nat)) = some a → s.canHere x c = true →
      (s.can x c).staged = [] → a.dir = true → a.region = 0 → s.isTaken x c a.index = false → s.elemBytes x c 0 ≤ 2080 → c < 6 →
    ∃ t, Sys2Proof.Machine.exec (.canShadowDone k b) s = .next t ∧
      (t.cg x F.CAN_SHADOW_STATUS_BUSY c).testBit b = false ∧ (t.cg x F.CAN_SHADOW_STATUS_DONE c).testBit b = true ∧
        t.load x (s.elemAddr x c 0 a.index) (s.elemBytes x c 0) = s.load x (canPage c + 0x2000 + b * 0x1000) (s.elemBytes x c 0) ∧
        Only [(.side x, F.CAN_SHADOW_STATUS_BUSY, c), (.side x, F.CAN_SHADOW_STATUS_DONE, c), (.side x, F.CAN_IRQ_SHADOW, c), (.side x,
            F.INTR_PENDING, 2)] s t ∧
        t.now = s.now)

/-- CAN_TX_SET makes the buffers that exist pending, CAN_TX_CANCEL ends pending ones that are not taken as CANCELLED. A channel that sends
takes the winning event buffer of an enabled format as its frame when the guardian allows it; a scheduled buffer is taken for its
window ahead of it, whatever frame of the channel's own is on the bus, and its frame starts at the window when the bus is idle in time.
A frame sent is counted, its buffer ends SENT with its DONE bit and is no longer pending. The time master's cycle runs the matrix at
its first window; a silent window only moves WINDOW and ends the take made for it; a receiver that has lost its reference stops the
matrix, counted. -/
def Obligations.CanTransmit : Prop :=
  (∀ (s : State) (x : Side) (o : Origin) (k : Fin 6) (v : BitVec 32),
    s.Permits x o (canPage k + 0x50) 4 true →
    ∃ t, Sys2Proof.Machine.exec (.canTxSet x o k v) s = .next t ∧
      (∀ b : Nat, b < 32 → (t.cg x F.CAN_TX_PEND k).testBit b = ((s.cg x F.CAN_TX_PEND k).testBit b || (v.toNat.testBit b && decide (b <
          s.elems x k 0)))) ∧
        t.side x = (s.stepDone x o).side x ∧ MemSame s t ∧ t.resp = .idle ∧ t.now = s.now) ∧
  (∀ (s : State) (x : Side) (o : Origin) (k : Fin 6) (v : BitVec 32),
    s.Permits x o (canPage k + 0x58) 4 true → (s.can x k).taken = none → (s.can x k).next = none →
    ∃ t, Sys2Proof.Machine.exec (.canTxCancel x o k v) s = .next t ∧
      (∀ b : Nat, b < 32 → (t.cg x F.CAN_TX_PEND k).testBit b = ((s.cg x F.CAN_TX_PEND k).testBit b && !v.toNat.testBit b)) ∧
        (∀ b : Nat, b < 32 → (s.cg x F.CAN_TX_PEND k).testBit b = true → v.toNat.testBit b = true → t.cg x F.CAN_TXB_STATUS (32 * k + b) =
            4 ∧ (t.cg x F.CAN_TX_DONE k).testBit b = true) ∧
        MemSame s t ∧ t.now = s.now) ∧
  (∀ (s : State) (k : Fin 12) (x : Side) (c : Nat) (b : Nat) (h0 : Nat) (h1 : Nat),
    canSide k = x → k.val % 6 = c → s.canOn x c = true → sendsMode (s.canMode x c) = true → (s.can x c).taken = none →
      s.nextScheduled x c = none → s.cb x F.CAN_TT_STATUS_RUNNING c = false → s.winner x c = some b →
      s.elemWord x (s.elemAddr x c 0 b) 0 = h0 → s.elemWord x (s.elemAddr x c 0 b) 1 = h1 → s.formatOk x c (bits h0 31 30) = true →
      dataLen h0 h1 ≤ s.elemRoom x c 0 → h1.testBit 7 = false → (s.can x c).retime = none →
      s.guardCan x c (frameBits h0 (dataLen h0 h1)) = true →
    ∃ t, Sys2Proof.Machine.exec (.canTxTake k .clean) s = .next t ∧
      (t.can x c).taken.map (fun a => (a.buf, a.h0, a.h1, a.data)) = some (b, h0, h1, s.load x (s.elemAddr x c 0 b + 32) (dataLen h0 h1)) ∧
        (t.can x c).takenSealed = false ∧
        (t.can x c).guard = (frameBits h0 (dataLen h0 h1), s.now) :: (s.can x c).guard.filter (fun g => decide (s.now < g.2 + 10000000)) ∧
        Only [] s t ∧ MemSame s t ∧ SideOnly x s t) ∧
  (∀ (s : State) (k : Fin 12) (x : Side) (c : Nat) (a : CanTx) (n : BitVec 16),
    canSide k = x → k.val % 6 = c → s.canOn x c = true → (s.can x c).nextAt = none → (s.can x c).taken = some a →
      (s.can x c).takenSealed = false → a.buf < 32 → s.canMode x c ≠ 7 → s.cg x F.CAN_ERR_TEC c = 0 →
      s.cb x F.CAN_TXB_CFG_SCHED (32 * c + a.buf) = false →
    ∃ t, Sys2Proof.Machine.exec (.canTxEnd k .sent n) s = .next t ∧
      (t.can x c).taken = none ∧ t.cg x F.CAN_TXB_STATUS (32 * c + a.buf) = 2 ∧ (t.cg x F.CAN_TX_DONE c).testBit a.buf = true ∧
        (t.cg x F.CAN_TX_PEND c).testBit a.buf = false ∧
        t.get (.side x) F.CAN_CNT (c * 20 + 1) = (s.get (.side x) F.CAN_CNT (c * 20 + 1) + 1) % 2 ^ F.CAN_CNT.width ∧
        Only [(.side x, F.CAN_CNT, c * 20 + 1), (.side x, F.CAN_TX_PEND, c), (.side x, F.CAN_TXB_STATUS, 32 * c + a.buf), (.side x,
            F.CAN_TX_DONE, c), (.side x, F.CAN_IRQ_TX_DONE, c), (.side x, F.INTR_PENDING, 2)] s t ∧
        t.now = s.now) ∧
  (∀ (s : State) (k : Fin 12) (x : Side) (c : Nat) (w : Word40),
    canSide k = x → k.val % 6 = c → s.canHere x c = true → (s.can x c).retime = none → s.withinTxen x c w.toNat = true →
      matrixMode (s.canMode x c) = true → s.cb x F.CAN_TT_CFG_ENABLE c = true → s.cg x F.CAN_TT_CFG_ROLE c = 0 → s.ttWrong x c = false →
      s.cg x F.CAN_ERR_STATE c ≠ 2 → (s.can x c).taken = none → (s.can x c).next = none → s.guardCan x c (frameBits (2 ^ 30) 1) = true →
      (s.can x c).guard = [] →
    ∃ t, Sys2Proof.Machine.exec (.canTtCycleStart k w) s = .next t ∧
      t.cg x F.CAN_TT_STATUS_RUNNING c = 1 ∧ t.cg x F.CAN_TT_STATUS_WINDOW c = 0 ∧ (t.can x c).refAt.isSome = true ∧
        (t.can x c).taken.map (fun a => (a.buf, a.h0, a.data)) = some (32, s.cg x F.CAN_TT_CFG_REF_ID c * 2 ^ 18 + 2 ^ 30, [t.cg x
            F.CAN_TT_STATUS_CYCLE c]) ∧
        Only [(.side x, F.CAN_TT_STATUS_RUNNING, c), (.side x, F.CAN_TT_STATUS_CYCLE, c), (.side x, F.CAN_TT_STATUS_WINDOW, c)] s t ∧
        MemSame s t) ∧
  (∀ (s : State) (k : Fin 12) (x : Side) (c : Nat) (w : Fin 32) (e : Word40) (r : Nat),
    canSide k = x → k.val % 6 = c → (s.can x c).refAt = some r → s.canHere x c = true → s.cb x F.CAN_TT_STATUS_RUNNING c = true →
      0 < w.val → w.val = s.cg x F.CAN_TT_STATUS_WINDOW c + 1 → s.winUsed x c w = true →
      (s.matEntry x c (s.cg x F.CAN_TT_STATUS_CYCLE c) w).1 = 3 → (s.matEntry x c (s.cg x F.CAN_TT_STATUS_CYCLE c) w).2.2 = false →
      (s.can x c).next = none →
    ∃ t, Sys2Proof.Machine.exec (.canTtWindowStart k w e) s = .next t ∧
      t.cg x F.CAN_TT_STATUS_WINDOW c = w ∧ Only [(.side x, F.CAN_TT_STATUS_WINDOW, c)] s t ∧
        t.can x c = { s.can x c with nextMade := false } ∧ t.side x.other = s.side x.other ∧ t.dies = s.dies ∧ MemSame s t) ∧
  (∀ (s : State) (k : Fin 12) (x : Side) (c : Nat) (w : Fin 32) (e : Word40) (r : Nat) (a : CanTx),
    canSide k = x → k.val % 6 = c → (s.can x c).refAt = some r → s.canHere x c = true → s.cb x F.CAN_TT_STATUS_RUNNING c = true →
      0 < w.val → w.val = s.cg x F.CAN_TT_STATUS_WINDOW c + 1 → s.winUsed x c w = true →
      ((s.matEntry x c (s.cg x F.CAN_TT_STATUS_CYCLE c) w).1 = 1 ∨ (s.matEntry x c (s.cg x F.CAN_TT_STATUS_CYCLE c) w).1 = 2) →
      (s.matEntry x c (s.cg x F.CAN_TT_STATUS_CYCLE c) w).2.1 = a.buf → (s.matEntry x c (s.cg x F.CAN_TT_STATUS_CYCLE c) w).2.2 = false →
      (s.can x c).next = some a → (s.can x c).nextMade = true → (s.can x c).nextAt = none → (s.can x c).taken = none →
      (s.can x c).retime = none → s.cg x F.CAN_ERR_STATE c ≠ 2 → s.withinTxen x c e.toNat = true → (s.can x c).guard = [] →
      s.guardCan x c (frameBits a.h0 a.data.length) = true →
    ∃ t, Sys2Proof.Machine.exec (.canTtWindowStart k w e) s = .next t ∧
      t.cg x F.CAN_TT_STATUS_WINDOW c = w ∧ (t.can x c).taken = some { a with sof := t.tickTime x + e.toNat * 1024 } ∧
        (t.can x c).takenSealed = (s.can x c).nextSealed ∧ (t.can x c).next = none ∧ (t.can x c).nextMade = false ∧
        (t.can x c).guard = [(frameBits a.h0 a.data.length, t.now)] ∧ Only [(.side x, F.CAN_TT_STATUS_WINDOW, c)] s t ∧ MemSame s t) ∧
  (∀ (s : State) (k : Fin 12) (x : Side) (c : Nat) (b : Nat) (h0 : Nat) (h1 : Nat),
    canSide k = x → k.val % 6 = c → s.canOn x c = true → sendsMode (s.canMode x c) = true → s.nextScheduled x c = some b →
      s.elemWord x (s.elemAddr x c 0 b) 0 = h0 → s.elemWord x (s.elemAddr x c 0 b) 1 = h1 → s.formatOk x c (bits h0 31 30) = true →
      dataLen h0 h1 ≤ s.elemRoom x c 0 → h1.testBit 7 = false →
    ∃ t, Sys2Proof.Machine.exec (.canTxTake k .clean) s = .next t ∧
      (t.can x c).next.map (fun a => (a.buf, a.h0, a.h1, a.data)) = some (b, h0, h1, s.load x (s.elemAddr x c 0 b + 32) (dataLen h0 h1)) ∧
        (t.can x c).nextMade = true ∧ (t.can x c).nextSealed = false ∧ (t.can x c).taken = (s.can x c).taken ∧
        (t.can x c).guard = (s.can x c).guard ∧ Only [] s t ∧ MemSame s t ∧ SideOnly x s t) ∧
  (∀ (s : State) (k : Fin 12) (x : Side) (c : Nat) (r : Nat),
    canSide k = x → k.val % 6 = c → (s.can x c).refAt = some r → (s.can x c).next = none → s.canHere x c = true →
      s.cb x F.CAN_TT_STATUS_RUNNING c = true → s.cg x F.CAN_TT_CFG_ROLE c = 1 →
    ∃ t, Sys2Proof.Machine.exec (.refLost k) s = .next t ∧
      t.cg x F.CAN_TT_STATUS_RUNNING c = 0 ∧
        t.get (.side x) F.CAN_CNT (c * 20 + 12) = (s.get (.side x) F.CAN_CNT (c * 20 + 12) + 1) % 2 ^ F.CAN_CNT.width ∧
        Only ([(.side x, F.CAN_TT_STATUS_RUNNING, c), (.side x, F.CAN_CNT, c * 20 + 12)] ++ eventFields s x (s.cg x F.CAN_CFG_OWNER c)) s t
            ∧
        MemSame s t ∧ s.now ≤ t.now)

/-- An access that the ownership checker and the door allow: DOORnn_CMD appends its word to the packet under assembly, which joins the
command FIFO when it has COUNT further words; the split registers hold the high bits and append the word formed with them; DOORnn_RPL
and the split read remove and return the head word, and the idle word from an empty FIFO without removing anything; FLUSH drops the
packet under assembly. A write with no credit is a bus error that sets CMD_ERR, and an access that the door refuses is a bus error of
its cause; neither changes the queues. -/
def Obligations.DoorAccesses : Prop :=
  (∀ (s : State) (x : Side) (o : Origin) (n : Fin 32) (w : Word40) (l : List Nat),
    s.Permits x o (doorAddr n 0) 8 true → s.doorRefuses x o n true = none → s.credits x n ≠ 0 → (s.src x n).asm ++ [w.toNat] = l →
    ∃ t, Sys2Proof.Machine.exec (.doorCmdWrite x o n w) s = .next t ∧
      t.src x n = (if l.length = bits (l.headD 0) 16 12 + 1 then { s.src x n with asm := [], cmd := (s.src x n).cmd ++ [Packet.ofWords l
          false] } else { s.src x n with asm := l }) ∧
        t.resp = .idle ∧ Only [] s t ∧ MemSame s t ∧ t.now = s.now ∧ t.dies = s.dies ∧ t.side x.other = s.side x.other) ∧
  (∀ (s : State) (x : Side) (o : Origin) (n : Fin 32) (w : Word40),
    s.Permits x o (doorAddr n 0) 8 true → s.doorRefuses x o n true = none → s.credits x n = 0 →
    ∃ t, Sys2Proof.Machine.exec (.doorCmdWrite x o n w) s = .next t ∧
      t.src x n = s.src x n ∧ t.get (.side x) F.DOOR_STATUS_CMD_ERR n = 1 ∧ t.resp = .error (farCause o 4) ∧
        Only ((.side x, F.DOOR_STATUS_CMD_ERR, n.val) :: logFields x) s t ∧ MemSame s t) ∧
  (∀ (s : State) (x : Side) (o : Origin) (n : Fin 32) (w : Word40) (c : Nat),
    s.Permits x o (doorAddr n 0) 8 true → s.doorRefuses x o n true = some c → c ≠ 15 →
    ∃ t, Sys2Proof.Machine.exec (.doorCmdWrite x o n w) s = .next t ∧
      t.src x n = s.src x n ∧ t.resp = .error (farCause o c) ∧ Only (logFields x) s t ∧ MemSame s t) ∧
  (∀ (s : State) (x : Side) (o : Origin) (n : Fin 32) (v : BitVec 32),
    s.Permits x o (doorAddr n 0x1C) 4 true → s.doorRefuses x o n true = none →
    ∃ t, Sys2Proof.Machine.exec (.doorCmdHiWrite x o n v) s = .next t ∧
      t.src x n = { s.src x n with hi := v.toNat % 256 } ∧ t.resp = .idle ∧ Only [] s t ∧ MemSame s t ∧ t.now = s.now ∧ t.dies = s.dies ∧
        t.side x.other = s.side x.other) ∧
  (∀ (s : State) (x : Side) (o : Origin) (n : Fin 32) (v : BitVec 32) (l : List Nat),
    s.Permits x o (doorAddr n 0x20) 4 true → s.doorRefuses x o n true = none → s.credits x n ≠ 0 →
      (s.src x n).asm ++ [((s.src x n).hi * 2 ^ 32 + v.toNat) % 2 ^ 40] = l →
    ∃ t, Sys2Proof.Machine.exec (.doorCmdLoWrite x o n v) s = .next t ∧
      t.src x n = (if l.length = bits (l.headD 0) 16 12 + 1 then { s.src x n with asm := [], cmd := (s.src x n).cmd ++ [Packet.ofWords l
          false] } else { s.src x n with asm := l }) ∧
        t.resp = .idle ∧ Only [] s t ∧ MemSame s t ∧ t.now = s.now ∧ t.dies = s.dies ∧ t.side x.other = s.side x.other) ∧
  (∀ (s : State) (x : Side) (o : Origin) (n : Fin 32) (w : Nat) (l : List Nat),
    s.Permits x o (doorAddr n 8) 8 false → s.doorRefuses x o n true = none → (s.src x n).rpl = w :: l →
    ∃ t, Sys2Proof.Machine.exec (.doorRplRead x o n) s = .next t ∧
      t.src x n = { s.src x n with rpl := l } ∧ t.resp = .data w ∧ Only [] s t ∧ MemSame s t ∧ t.now = s.now ∧ t.dies = s.dies ∧
        t.side x.other = s.side x.other) ∧
  (∀ (s : State) (x : Side) (o : Origin) (n : Fin 32),
    s.Permits x o (doorAddr n 8) 8 false → s.doorRefuses x o n true = none → (s.src x n).rpl = [] →
    ∃ t, Sys2Proof.Machine.exec (.doorRplRead x o n) s = .next t ∧
      t.src x n = s.src x n ∧ t.resp = .data 0xFFFFFFFFFF ∧ Only [] s t ∧ MemSame s t ∧ t.now = s.now ∧ t.dies = s.dies ∧
        t.side x.other = s.side x.other) ∧
  (∀ (s : State) (x : Side) (o : Origin) (n : Fin 32) (w : Nat) (l : List Nat),
    s.Permits x o (doorAddr n 0x24) 4 false → s.doorRefuses x o n true = none → (s.src x n).rpl = w :: l →
    ∃ t, Sys2Proof.Machine.exec (.doorRplHiRead x o n) s = .next t ∧
      t.src x n = { s.src x n with rpl := l, lo := w % 2 ^ 32 } ∧ t.resp = .data (w / 2 ^ 32) ∧ Only [] s t ∧ MemSame s t ∧
        t.now = s.now ∧ t.dies = s.dies ∧ t.side x.other = s.side x.other) ∧
  (∀ (s : State) (x : Side) (o : Origin) (n : Fin 32),
    s.Permits x o (doorAddr n 0x14) 4 true → s.doorRefuses x o n false = none →
    ∃ t, Sys2Proof.Machine.exec (.doorFlush x o n) s = .next t ∧
      t.src x n = { s.src x n with asm := [] } ∧ t.resp = .idle ∧ Only [] s t ∧ MemSame s t ∧ t.now = s.now ∧ t.dies = s.dies ∧
        t.side x.other = s.side x.other)

/-- The head packet that is taken leaves its FIFO. With its tag free the tag becomes outstanding with its reservation; passing every check,
a packet for Chromir joins its queue, which long operations at its head leave for the background, and a fast packet the grate link of
its die, counted; failing a check it is answered with the status and DETAIL of the first that fails; while Chromir is down a packet for
it is answered BUSY_UPDATE. A tag that is busy is answered TAG_BUSY. A packet without room for its reply stays and sets STALL. A grate
die's reply enters its FIFO, those behind it stay in order; a final one frees the tag. -/
def Obligations.StokerTakes : Prop :=
  (∀ (s : State) (x : Side) (i : Fin 33) (k : Packet) (q : List Packet) (j : Job),
    s.Takes x i k q → j = ⟨x, i, (s.side x).takes, s.now, k⟩ → pathOf k.code ≠ .fast → (s.side x).chromirDown = false →
      ((s.judging x i j).inc (.side x) F.STOKER_CHROMIR_COUNT 0).refusal x i k = none →
    ∃ t, Sys2Proof.Machine.exec (.stokerTake x i) s = .next t ∧
      (t.side x).chromirQ = ((s.side x).chromirQ ++ [j]).dropWhile isLong ∧ (t.src x i).cmd = q ∧
        (t.side x).longQ = (s.side x).longQ ++ ((s.side x).chromirQ ++ [j]).takeWhile isLong ∧ (t.side x).scan = (i.val + 1) % 33 ∧
        (t.src x i).out = (s.src x i).out ++ [⟨k.tag, (s.side x).takes, reserveOf k.code, k.world⟩] ∧ (t.src x i).rpl = (s.src x i).rpl ∧
        (t.side x).takes = (s.side x).takes + 1 ∧
        t.get (.side x) F.STOKER_CHROMIR_COUNT 0 = (s.get (.side x) F.STOKER_CHROMIR_COUNT 0 + 1) % 2 ^ F.STOKER_CHROMIR_COUNT.width ∧
        Only [(.side x, F.STOKER_CHROMIR_COUNT, 0), (.side x, F.DOOR_STATUS_STALL, i.val), (.side x, F.DOOR_TAKEN_COUNT, i.val)] s t ∧
        MemSame s t ∧ t.now = s.now ∧ t.dies = s.dies) ∧
  (∀ (s : State) (x : Side) (i : Fin 33) (k : Packet) (q : List Packet) (j : Job) (d : Nat),
    s.Takes x i k q → j = ⟨x, i, (s.side x).takes, s.now, k⟩ → pathOf k.code = .fast → grateDie k = some d →
      ((s.judging x i j).inc (.side x) F.STOKER_FAST_COUNT 0).refusal x i k = none →
    ∃ t, Sys2Proof.Machine.exec (.stokerTake x i) s = .next t ∧
      Tab.at [] (t.side x).links d = Tab.at [] (s.side x).links d ++ [j] ∧ (t.side x).chromirQ = (s.side x).chromirQ ∧
        (t.src x i).cmd = q ∧ (t.src x i).out = (s.src x i).out ++ [⟨k.tag, (s.side x).takes, reserveOf k.code, k.world⟩] ∧
        t.get (.side x) F.STOKER_FAST_COUNT 0 = (s.get (.side x) F.STOKER_FAST_COUNT 0 + 1) % 2 ^ F.STOKER_FAST_COUNT.width ∧
        MemSame s t ∧ t.now = s.now ∧ t.dies = s.dies) ∧
  (∀ (s : State) (x : Side) (i : Fin 33) (k : Packet) (q : List Packet) (j : Job) (st : Nat) (de : Nat),
    s.Takes x i k q → s.pairDoor x ≠ some i.val → j = ⟨x, i, (s.side x).takes, s.now, k⟩ → pathOf k.code ≠ .fast →
      (s.side x).chromirDown = false → st ≠ stAbsent → st ≠ stDelayed → (s.src x i).out.any (fun a => a.seq == j.seq) = false →
      ((s.judging x i j).inc (.side x) F.STOKER_CHROMIR_COUNT 0).refusal x i k = some (st, de) →
    ∃ t, Sys2Proof.Machine.exec (.stokerTake x i) s = .next t ∧
      (t.src x i).cmd = q ∧ (t.src x i).out = (s.src x i).out ∧
        (t.src x i).rpl = (s.src x i).rpl ++ [rplHeader (k.code / 256) st k.tag k.world 0 de] ∧
        (t.side x).chromirQ = (s.side x).chromirQ ∧ MemSame s t ∧ t.dies = s.dies) ∧
  (∀ (s : State) (x : Side) (i : Fin 33) (k : Packet) (q : List Packet),
    s.Takes x i k q → s.pairDoor x ≠ some i.val → pathOf k.code ≠ .fast → (s.side x).chromirDown = true →
      (s.src x i).out.any (fun a => a.seq == (s.side x).takes) = false →
    ∃ t, Sys2Proof.Machine.exec (.stokerTake x i) s = .next t ∧
      (t.src x i).cmd = q ∧ (t.src x i).out = (s.src x i).out ∧
        (t.src x i).rpl = (s.src x i).rpl ++ [rplHeader (k.code / 256) stBusy k.tag k.world 0 0] ∧
        t.get (.side x) F.STOKER_BUSY_UPDATE_COUNT 0 = (s.get (.side x) F.STOKER_BUSY_UPDATE_COUNT 0 + 1) % 2 ^
            F.STOKER_BUSY_UPDATE_COUNT.width ∧
        (t.side x).chromirQ = (s.side x).chromirQ ∧ MemSame s t) ∧
  (∀ (s : State) (x : Side) (i : Fin 33) (k : Packet) (q : List Packet),
    s.Reaches x i k q → k.tag ≠ 0xFF → (s.src x i).out.any (fun a => a.tag == k.tag) = true → s.pairDoor x ≠ some i.val →
    ∃ t, Sys2Proof.Machine.exec (.stokerTake x i) s = .next t ∧
      (t.src x i).cmd = q ∧ (t.src x i).out = (s.src x i).out ∧
        (t.src x i).rpl = (s.src x i).rpl ++ [rplHeader (k.code / 256) stTagBusy k.tag k.world 0 0] ∧
        (t.side x).chromirQ = (s.side x).chromirQ ∧ MemSame s t) ∧
  (∀ (s : State) (x : Side) (i : Fin 33) (k : Packet) (q : List Packet),
    s.up x = true → (s.side x).taking = true → (s.src x i).cmd = k :: q → s.passedOver x k = false →
      (s.src x i).room < reserveOf k.code → i.val < 32 → s.get (.side x) F.DOOR_STATUS_STALL i = 0 →
    ∃ t, Sys2Proof.Machine.exec (.stokerTake x i) s = .next t ∧
      t.src x i = s.src x i ∧ t.get (.side x) F.DOOR_STATUS_STALL i = 1 ∧
        t.get (.side x) F.DOOR_STALL_COUNT i = (s.get (.side x) F.DOOR_STALL_COUNT i + 1) % 2 ^ F.DOOR_STALL_COUNT.width ∧
        Only [(.side x, F.DOOR_STATUS_STALL, i.val), (.side x, F.DOOR_STALL_COUNT, i.val)] s t ∧ t.side x = s.side x ∧ MemSame s t) ∧
  (∀ (s : State) (x : Side) (d : Fin 4) (r : Reply) (q : List Reply),
    Tab.at [] (s.side x).rpls d = r :: q → r.job.side = x → s.Open r.job → r.status ≠ stDelayed →
    ∃ t, Sys2Proof.Machine.exec (.grateReply x d) s = .next t ∧
      Replied s t r.job r.status r.detail r.words ∧
        Tab.at [] (t.side x).rpls d ++ Tab.at [] (t.die d).out x.num = q ++ Tab.at [] (s.die d).out x.num ∧
        t.die d = { s.die d with out := (t.die d).out } ∧ (∀ e : Nat, e < 5 → e ≠ d.val → t.die e = s.die e) ∧
        Only [(.side x, F.INTR_PENDING, r.job.src / 32)] s t ∧ MemSame s t ∧ t.now = s.now)

/-- When the first bound of a side passes, and no open claim's, Chromir is down, its queues are empty and RESTARTING shows it; a SYS_ECHO
that it held alone is answered TIMEOUT, counted; the end of the restart makes it ready. A fast packet without a reply for 20 us is
answered TIMEOUT, counted and logged. In an update, readiness in time ends the load with OK and the new version, and no readiness
brings the previous build back, the load answered CHECK_FAILED. -/
def Obligations.ChromirSupervision : Prop :=
  (∀ (s : State) (x : Side) (b : Nat × Job),
    s.up x = true → (s.side x).chromirDown = false → firstBound (s.bounds x) = some b →
      (s.side x).claimReqs.any (fun q => q.1 == b.2) = false →
    ∃ t, Sys2Proof.Machine.exec (.chromirTimeout x) s = .next t ∧
      (t.side x).chromirDown = true ∧ (t.side x).chromirQ = [] ∧ (t.side x).longQ = [] ∧
        t.get (.side x) F.STOKER_STATE_RESTARTING 0 = 1 ∧ t.get (.side x) F.STOKER_STATE_CHROMIR_READY 0 = 0 ∧ max s.now b.1 ≤ t.now) ∧
  (∀ (s : State) (x : Side) (j : Job),
    s.up x = true → (s.side x).chromirDown = false → (s.side x).chromirQ = [j] → (s.side x).longQ = [] → (s.side x).claimReqs = [] →
      (s.side x).modeReqs = [] → s.measuring x = [] → s.commitWaits x = [] → j.side = x → s.Open j → j.pkt.code = 0x005 →
    ∃ t, Sys2Proof.Machine.exec (.chromirTimeout x) s = .next t ∧
      Replied s t j stTimeout 0 [] ∧ t.now = max s.now (j.takenAt + 1000000) ∧ (t.side x).chromirDown = true ∧
        t.get (.side x) F.STOKER_TIMEOUT_COUNT 0 = (s.get (.side x) F.STOKER_TIMEOUT_COUNT 0 + 1) % 2 ^ F.STOKER_TIMEOUT_COUNT.width ∧
        (t.side x).timedOut = j.seq :: (s.side x).timedOut ∧ MemSame s t) ∧
  (∀ (s : State) (x : Side),
    s.is (.side x) F.STOKER_STATE_RESTARTING 0 = true →
    ∃ t, Sys2Proof.Machine.exec (.chromirRestartDone x) s = .next t ∧
      (t.side x).chromirDown = false ∧ t.get (.side x) F.STOKER_STATE_RESTARTING 0 = 0 ∧
        t.get (.side x) F.STOKER_STATE_CHROMIR_READY 0 = 1 ∧
        Only [(.side x, F.STOKER_STATE_RESTARTING, 0), (.side x, F.STOKER_STATE_CHROMIR_READY, 0)] s t ∧ SideOnly x s t ∧ MemSame s t) ∧
  (∀ (s : State) (x : Side) (d : Fin 4) (j : Job),
    Tab.at [] (s.side x).links d = [j] → Tab.at [] (s.side x).rpls d = [] → j.side = x →
      (s.src x j.src).out = [⟨j.pkt.tag, j.seq, reserveOf j.pkt.code, j.pkt.world⟩] → s.pairDoor x ≠ some j.src →
    ∃ t, Sys2Proof.Machine.exec (.grateTimeout x d) s = .next t ∧
      Replied s t j stTimeout 0 [] ∧ t.now = max s.now (j.takenAt + 20000) ∧
        t.get (.side x) F.STOKER_TIMEOUT_COUNT 0 = (s.get (.side x) F.STOKER_TIMEOUT_COUNT 0 + 1) % 2 ^ F.STOKER_TIMEOUT_COUNT.width ∧
        (t.side x).timedOut = j.seq :: (s.side x).timedOut ∧
        Only ((.side x, F.STOKER_TIMEOUT_COUNT, 0) :: (.side x, F.INTR_PENDING, j.src / 32) :: logFields x) s t ∧ MemSame s t ∧
        t.dies = s.dies) ∧
  (∀ (s : State) (x : Side) (j : Job) (q : List Job),
    s.is (.side x) F.STOKER_STATE_UPDATING 0 = true → (s.side x).longQ = j :: q → j.side = x → s.Open j →
    ∃ t, Sys2Proof.Machine.exec (.chromirReady x) s = .next t ∧
      Replied s t j stOk 0 [s.imgVersion x (0x80100000 + s.freeBank x 0x200 * 0x400000)] ∧ (t.side x).longQ = q ∧
        (t.side x).chromirDown = false ∧ t.get (.side x) F.STOKER_STATE_UPDATING 0 = 0 ∧
        t.get (.side x) F.STOKER_STATE_CHROMIR_READY 0 = 1 ∧ t.now = s.now) ∧
  (∀ (s : State) (x : Side) (j : Job) (q : List Job),
    s.is (.side x) F.STOKER_STATE_UPDATING 0 = true → (s.side x).longQ = j :: q → j.side = x → s.Open j →
    ∃ t, Sys2Proof.Machine.exec (.chromirRevert x) s = .next t ∧
      Replied s t j stCheck 0 [] ∧ (t.side x).longQ = q ∧ (t.side x).chromirDown = false ∧
        t.get (.side x) F.STOKER_STATE_UPDATING 0 = 0 ∧ t.get (.side x) F.STOKER_STATE_CHROMIR_READY 0 = 1 ∧
        t.now = max s.now ((s.side x).chromirDownAt + 50000000) ∧ MemSame s t)

/-- The fall of CS_N at an enabled port readies the status word of the last transaction and makes the next one OK; at a port that is not
enabled nothing shifts out. At its rise a transaction that spells one whole packet for which the port has credits appends the packet
and counts it; one with a part of a word is a FRAGMENT: it sets its flag, is counted, and appends nothing. A rise without a fall does
nothing. -/
def Obligations.StokePort : Prop :=
  (∀ (s : State) (x : Side),
    (s.side x).run ≠ .down → s.is (.side x) F.STOKE_STATUS_ACTIVE 0 = false → s.is (.side x) F.STOKE_CFG_ENABLE 0 = true →
    ∃ t, Sys2Proof.Machine.exec (.stokeCsFall x) s = .next t ∧
      (t.side x).sdo = [s.stokeWord x] ∧ (t.side x).stokeStatus = stOk ∧ t.get (.side x) F.STOKE_STATUS_ACTIVE 0 = 1 ∧
        Only [(.side x, F.STOKE_STATUS_ACTIVE, 0)] s t ∧ SideOnly x s t ∧ MemSame s t) ∧
  (∀ (s : State) (x : Side),
    (s.side x).run ≠ .down → s.is (.side x) F.STOKE_STATUS_ACTIVE 0 = false → s.is (.side x) F.STOKE_CFG_ENABLE 0 = false →
    ∃ t, Sys2Proof.Machine.exec (.stokeCsFall x) s = .next t ∧
      (t.side x).sdo = [] ∧ (t.side x).stokeStatus = (s.side x).stokeStatus ∧ Only [(.side x, F.STOKE_STATUS_ACTIVE, 0)] s t ∧
        SideOnly x s t ∧ MemSame s t) ∧
  (∀ (s : State) (x : Side) (l : List Word40) (e : Fin 40),
    s.is (.side x) F.STOKE_STATUS_ACTIVE 0 = false →
    ∃ t, Sys2Proof.Machine.exec (.stokeCsRise x l e) s = .next t ∧
      t = s) ∧
  (∀ (s : State) (x : Side) (l : List Word40) (e : Fin 40) (w : List Nat),
    s.is (.side x) F.STOKE_STATUS_ACTIVE 0 = true → (s.side x).sdo ≠ [] → e.val = 0 → l.map (fun a => a.toNat) = w →
      w.headD 0xFFFFFFFFFF ≠ 0xFFFFFFFFFF → w.length = hdrCount (w.headD 0) + 1 → w.length ≤ s.credits x 32 →
    ∃ t, Sys2Proof.Machine.exec (.stokeCsRise x l e) s = .next t ∧
      (t.src x 32).cmd = (s.src x 32).cmd ++ [Packet.ofWords w false] ∧
        t.get (.side x) F.STOKE_PACKETS_COUNT 0 = (s.get (.side x) F.STOKE_PACKETS_COUNT 0 + 1) % 2 ^ F.STOKE_PACKETS_COUNT.width ∧
        (t.side x).stokeStatus = stOk ∧ t.get (.side x) F.STOKE_STATUS_LAST 0 = 0 ∧ t.get (.side x) F.STOKE_STATUS_ACTIVE 0 = 0 ∧
        Only [(.side x, F.STOKE_STATUS_ACTIVE, 0), (.side x, F.STOKE_PACKETS_COUNT, 0), (.side x, F.STOKE_STATUS_LAST, 0)] s t ∧
        MemSame s t ∧ t.now = s.now) ∧
  (∀ (s : State) (x : Side) (l : List Word40) (e : Fin 40),
    s.is (.side x) F.STOKE_STATUS_ACTIVE 0 = true → (s.side x).sdo ≠ [] → e.val ≠ 0 →
    ∃ t, Sys2Proof.Machine.exec (.stokeCsRise x l e) s = .next t ∧
      (t.src x 32).cmd = (s.src x 32).cmd ∧ t.get (.side x) F.STOKE_STATUS_FRAGMENT 0 = 1 ∧
        t.get (.side x) F.STOKE_FRAGMENT_COUNT 0 = (s.get (.side x) F.STOKE_FRAGMENT_COUNT 0 + 1) % 2 ^ F.STOKE_FRAGMENT_COUNT.width ∧
        (t.side x).stokeStatus = stFragment ∧ t.get (.side x) F.STOKE_STATUS_LAST 0 = stFragment ∧ MemSame s t)

/-- A read of INTR_CLAIM answers 0 when no enabled source of the world is pending; otherwise VALID and the number of the one with the
highest priority, whose pending bit clears unless its door still holds reply words. GO starts an idle channel with a valid mode and
length, and one with length 0 is refused with ERRCODE 4. A copy of 8 aligned bytes between permitted SRAM addresses moves them, and the
channel is DONE and idle. A write of SIDE_CKPT with the cross link up starts a checkpoint. -/
def Obligations.ClaimsAndCopies : Prop :=
  (∀ (s : State) (x : Side) (o : Origin) (w : Fin 8),
    s.Permits x o (0x40132020 + 0x1000 * w) 4 false → s.intrNext x w = none →
    ∃ t, Sys2Proof.Machine.exec (.intrClaim x o w) s = .next t ∧
      t.resp = .data 0 ∧ Only [] s t ∧ t.side x = (s.stepDone x o).side x ∧ MemSame s t) ∧
  (∀ (s : State) (x : Side) (o : Origin) (w : Fin 8) (n : Nat),
    s.Permits x o (0x40132020 + 0x1000 * w) 4 false → s.intrNext x w = some n → n < 104 →
    ∃ t, Sys2Proof.Machine.exec (.intrClaim x o w) s = .next t ∧
      t.resp = .data (2 ^ 31 + n) ∧ (t.get (.side x) F.INTR_PENDING (n / 32)).testBit (n % 32) = s.intrPresent x n ∧
        (∀ i : Nat, i < 32 → i ≠ n % 32 → (t.get (.side x) F.INTR_PENDING (n / 32)).testBit i = (s.get (.side x) F.INTR_PENDING (n /
            32)).testBit i) ∧
        Only [(.side x, F.INTR_PENDING, n / 32)] s t ∧ t.side x = (s.stepDone x o).side x ∧ MemSame s t) ∧
  (∀ (s : State) (x : Side) (o : Origin) (n : Fin 32) (v : BitVec 32),
    s.Permits x o (dmaAddr n 0x14) 4 true → s.present (.dma x) = true → v.toNat.testBit 0 = true →
      s.get (.side x) F.DMA_STATUS_BUSY n = 0 → bits v.toNat 3 1 = 1 → s.get (.side x) F.DMA_LEN n ≠ 0 →
    ∃ t, Sys2Proof.Machine.exec (.dmaGo x o n v) s = .next t ∧
      t.get (.side x) F.DMA_STATUS_BUSY n = 1 ∧ t.get (.side x) F.DMA_CTRL_MODE n = 1 ∧ Tab.at 0 (t.side x).dmaPos n = 0 ∧
        Tab.at [] (t.side x).dmaQueue n = [] ∧
        Only [(.side x, F.DMA_CTRL_IRQ_EN, n.val), (.side x, F.DMA_CTRL_MODE, n.val), (.side x, F.DMA_STATUS_BUSY, n.val)] s t ∧
        MemSame s t ∧ t.resp = .idle) ∧
  (∀ (s : State) (x : Side) (o : Origin) (n : Fin 32) (v : BitVec 32),
    s.Permits x o (dmaAddr n 0x14) 4 true → s.present (.dma x) = true → v.toNat.testBit 0 = true →
      s.get (.side x) F.DMA_STATUS_BUSY n = 0 → s.get (.side x) F.DMA_LEN n = 0 →
    ∃ t, Sys2Proof.Machine.exec (.dmaGo x o n v) s = .next t ∧
      t.get (.side x) F.DMA_STATUS_BUSY n = 0 ∧ t.get (.side x) F.DMA_STATUS_ERR n = 1 ∧ t.get (.side x) F.DMA_STATUS_ERRCODE n = 4 ∧
        MemSame s t) ∧
  (∀ (s : State) (x : Side) (n : Fin 32) (a : Nat) (b : Nat),
    s.get (.side x) F.DMA_STATUS_BUSY n = 1 → s.get (.side x) F.DMA_CTRL_MODE n = 0 → s.present (.dma x) = true → s.fabric x = true →
      s.get (.side x) F.DMA_LEN n = 8 → s.get (.side x) F.DMA_SRC n = a → s.get (.side x) F.DMA_DST n = b → a % 8 = 0 → b % 8 = 0 →
      inSram a 8 = true → inSram b 8 = true → s.wotAllows x a (s.worldOf x (.dma n)) 0 = true →
      s.wotAllows x b (s.worldOf x (.dma n)) 1 = true → s.lockedHere x (.dma n) a 8 = false → s.lockedHere x (.dma n) b 8 = false →
      s.mirLockedRange x b 8 = false → s.wotRange x a 8 (s.worldOf x (.dma n)) 0 = true →
      s.wotRange x b 8 (s.worldOf x (.dma n)) 1 = true → s.dmaInBridge x n = false → Tab.at 0 (s.side x).dmaData n = 0 →
    ∃ t, Sys2Proof.Machine.exec (.dmaCopyDone x n none none) s = .next t ∧
      t.load x b 8 = s.load x a 8 ∧ t.get (.side x) F.DMA_STATUS_BUSY n = 0 ∧ t.get (.side x) F.DMA_STATUS_DONE n = 1 ∧
        t.get (.side x) F.DMA_LEN n = 0 ∧ t.get (.side x) F.DMA_SRC n = a + 8 ∧ t.get (.side x) F.DMA_DST n = b + 8 ∧ t.resp = s.resp ∧
        t.dies = s.dies ∧ t.now = s.now) ∧
  (∀ (s : State) (x : Side) (o : Origin) (v : BitVec 32),
    s.Permits x o 0x40130018 4 true → v.toNat.testBit 0 = true → s.crossBoth = true → (s.side x).ckpt = none →
    ∃ t, Sys2Proof.Machine.exec (.sideCkptGo x o v) s = .next t ∧
      (t.side x).ckpt.isSome = true ∧ (t.side x).dirty = [] ∧ (t.side x).ckptFull = false ∧ Only [] s t ∧ MemSame s t ∧ t.resp = .idle)

/-- In lockstep mode each core's PAIR_OUT_HI and PAIR_SIG_HI hold their high bits, and a word that does not complete a packet only joins
the core's packet. When the second core completes the same packet in time and the pair door has room, one copy enters the door's
command FIFO marked COMPARED, counted. Equal signatures in time are counted. Different packets or signatures, a second one that is late
or missing, or an invalid rail code of the comparator are a mismatch with its kind, counted, with source 89 pending and the words of
both cores discarded; ON_MISMATCH then restarts both cores, holds them in reset or takes the side down. A core reads its own copy of
the reply words. -/
def Obligations.SafetyPair : Prop :=
  (∀ (s : State) (x : Side) (c : Fin 2) (v : BitVec 32),
    s.Permits x (.pair c) (pairAddr 0x10) 4 true → s.get (.side x) F.PAIR_CFG_MODE 0 = 0 →
    ∃ t, Sys2Proof.Machine.exec (.pairOutHiWrite x (.pair c) v) s = .next t ∧
      t.pairCore x c = { s.pairCore x c with hi := v.toNat % 256 } ∧ Only [] s t ∧ MemSame s t ∧ t.resp = .idle) ∧
  (∀ (s : State) (x : Side) (c : Fin 2) (v : BitVec 32) (l : List Nat) (e : Bool),
    s.Permits x (.pair c) (pairAddr 0x14) 4 true → s.get (.side x) F.PAIR_CFG_MODE 0 = 0 →
      (s.pairCore x c).out.length + (s.pairCore x c).done.foldl (fun n a => n + a.1.length) 0 < 64 →
      (s.pairCore x c).out ++ [(s.pairCore x c).hi * 2 ^ 32 + v.toNat] = l → l.length ≠ bits (l.headD 0) 16 12 + 1 →
    ∃ t, Sys2Proof.Machine.exec (.pairOutLoWrite x (.pair c) v e) s = .next t ∧
      t.pairCore x c = { s.pairCore x c with out := l } ∧ Only [] s t ∧ MemSame s t ∧ t.resp = .idle) ∧
  (∀ (s : State) (x : Side) (v : BitVec 32) (l : List Nat) (a : Nat) (b : Nat) (d : Nat),
    s.Permits x (.pair 1) (pairAddr 0x14) 4 true → s.get (.side x) F.PAIR_CFG_MODE 0 = 0 → (s.side x).pair0.done = [(l, a, b)] →
      (s.side x).pair1.done = [] → (s.side x).pair1.out.length < 64 →
      (s.side x).pair1.out ++ [(s.side x).pair1.hi * 2 ^ 32 + v.toNat] = l → l.length = bits (l.headD 0) 16 12 + 1 → a ≤ s.now →
      s.now ≤ b → s.get (.side x) F.PAIR_CFG_DOOR 0 = d → l.length ≤ s.credits x d →
    ∃ t, Sys2Proof.Machine.exec (.pairOutLoWrite x (.pair 1) v false) s = .next t ∧
      (t.src x d).cmd = (s.src x d).cmd ++ [Packet.ofWords l true] ∧ (t.side x).pair0.done = [] ∧ (t.side x).pair1.done = [] ∧
        (t.side x).pair1.out = [] ∧
        t.get (.side x) F.PAIR_COMPARED_COUNT 0 = (s.get (.side x) F.PAIR_COMPARED_COUNT 0 + 1) % 2 ^ F.PAIR_COMPARED_COUNT.width ∧
        Only [(.side x, F.PAIR_COMPARED_COUNT, 0)] s t ∧ MemSame s t ∧ t.now = s.now) ∧
  (∀ (s : State) (x : Side) (v : BitVec 32) (l : List Nat) (m : List Nat) (a : Nat) (b : Nat),
    s.Permits x (.pair 1) (pairAddr 0x14) 4 true → s.get (.side x) F.PAIR_CFG_MODE 0 = 0 → (s.side x).pair0.done = [(m, a, b)] →
      (s.side x).pair1.done = [] → (s.side x).pair1.out.length < 64 →
      (s.side x).pair1.out ++ [(s.side x).pair1.hi * 2 ^ 32 + v.toNat] = l → l.length = bits (l.headD 0) 16 12 + 1 → m ≠ l → s.now ≤ b →
      ((s.side x.other).waits = [] ∧ (s.side x.other).netifHeld = false ∧ (s.side x.other).tallyHeld = none) →
    ∃ t, Sys2Proof.Machine.exec (.pairOutLoWrite x (.pair 1) v false) s = .next t ∧
      t.get (.side x) F.PAIR_STATUS_MISMATCH 0 = 1 ∧ t.get (.side x) F.PAIR_STATUS_KIND 0 = 1 ∧
        t.get (.side x) F.PAIR_MISMATCH_COUNT 0 = (s.get (.side x) F.PAIR_MISMATCH_COUNT 0 + 1) % 2 ^ F.PAIR_MISMATCH_COUNT.width ∧
        (t.get (.side x) F.INTR_PENDING 2).testBit 25 = true ∧ (t.side x).pair0 = PairCore.empty ∧ (t.side x).pair1 = PairCore.empty ∧
        (s.get (.side x) F.PAIR_CFG_ON_MISMATCH 0 = 0 ∧ (s.side x).pairRestarts = [] → t.get (.side x) F.PAIR_RESTART_COUNT 0 = (s.get
            (.side x) F.PAIR_RESTART_COUNT 0 + 1) % 2 ^ F.PAIR_RESTART_COUNT.width ∧ t.get (.side x) F.PAIR_STATUS_CORE0_RUN 0 = 1 ∧ t.get
                (.side x) F.PAIR_STATUS_CORE1_RUN 0 = 1) ∧
        (s.get (.side x) F.PAIR_CFG_ON_MISMATCH 0 = 1 → t.get (.side x) F.PAIR_STATUS_HALTED 0 = 1 ∧ t.get (.side x)
            F.PAIR_STATUS_CORE0_RUN 0 = 0 ∧ t.get (.side x) F.PAIR_STATUS_CORE1_RUN 0 = 0) ∧
        (s.get (.side x) F.PAIR_CFG_ON_MISMATCH 0 = 2 → t.get (.side x) F.SIDE_STATUS_HEALTHY 0 = 0) ∧ MemSame s t) ∧
  (∀ (s : State) (x : Side) (v : BitVec 32) (l : List Nat) (m : List Nat) (a : Nat) (b : Nat),
    s.Permits x (.pair 1) (pairAddr 0x14) 4 true → s.get (.side x) F.PAIR_CFG_MODE 0 = 0 → (s.side x).pair0.done = [(m, a, b)] →
      (s.side x).pair1.done = [] → (s.side x).pair1.out.length < 64 →
      (s.side x).pair1.out ++ [(s.side x).pair1.hi * 2 ^ 32 + v.toNat] = l → l.length = bits (l.headD 0) 16 12 + 1 → a ≤ s.now →
      b < s.now → ((s.side x.other).waits = [] ∧ (s.side x.other).netifHeld = false ∧ (s.side x.other).tallyHeld = none) →
    ∃ t, Sys2Proof.Machine.exec (.pairOutLoWrite x (.pair 1) v false) s = .next t ∧
      t.get (.side x) F.PAIR_STATUS_MISMATCH 0 = 1 ∧ t.get (.side x) F.PAIR_STATUS_KIND 0 = 2 ∧
        t.get (.side x) F.PAIR_MISMATCH_COUNT 0 = (s.get (.side x) F.PAIR_MISMATCH_COUNT 0 + 1) % 2 ^ F.PAIR_MISMATCH_COUNT.width ∧
        (t.get (.side x) F.INTR_PENDING 2).testBit 25 = true ∧ (t.side x).pair0 = PairCore.empty ∧ (t.side x).pair1 = PairCore.empty ∧
        (s.get (.side x) F.PAIR_CFG_ON_MISMATCH 0 = 0 ∧ (s.side x).pairRestarts = [] → t.get (.side x) F.PAIR_RESTART_COUNT 0 = (s.get
            (.side x) F.PAIR_RESTART_COUNT 0 + 1) % 2 ^ F.PAIR_RESTART_COUNT.width ∧ t.get (.side x) F.PAIR_STATUS_CORE0_RUN 0 = 1 ∧ t.get
                (.side x) F.PAIR_STATUS_CORE1_RUN 0 = 1) ∧
        (s.get (.side x) F.PAIR_CFG_ON_MISMATCH 0 = 1 → t.get (.side x) F.PAIR_STATUS_HALTED 0 = 1 ∧ t.get (.side x)
            F.PAIR_STATUS_CORE0_RUN 0 = 0 ∧ t.get (.side x) F.PAIR_STATUS_CORE1_RUN 0 = 0) ∧
        (s.get (.side x) F.PAIR_CFG_ON_MISMATCH 0 = 2 → t.get (.side x) F.SIDE_STATUS_HEALTHY 0 = 0) ∧ MemSame s t) ∧
  (∀ (s : State) (x : Side) (v : BitVec 32) (l : List Nat) (m : List Nat) (a : Nat) (b : Nat),
    s.Permits x (.pair 1) (pairAddr 0x14) 4 true → s.get (.side x) F.PAIR_CFG_MODE 0 = 0 → (s.side x).pair0.done = [(m, a, b)] →
      (s.side x).pair1.done = [] → (s.side x).pair1.out.length < 64 →
      (s.side x).pair1.out ++ [(s.side x).pair1.hi * 2 ^ 32 + v.toNat] = l → l.length = bits (l.headD 0) 16 12 + 1 →
      ((s.side x.other).waits = [] ∧ (s.side x.other).netifHeld = false ∧ (s.side x.other).tallyHeld = none) →
    ∃ t, Sys2Proof.Machine.exec (.pairOutLoWrite x (.pair 1) v true) s = .next t ∧
      t.get (.side x) F.PAIR_STATUS_MISMATCH 0 = 1 ∧ t.get (.side x) F.PAIR_STATUS_KIND 0 = 5 ∧
        t.get (.side x) F.PAIR_MISMATCH_COUNT 0 = (s.get (.side x) F.PAIR_MISMATCH_COUNT 0 + 1) % 2 ^ F.PAIR_MISMATCH_COUNT.width ∧
        (t.get (.side x) F.INTR_PENDING 2).testBit 25 = true ∧ (t.side x).pair0 = PairCore.empty ∧ (t.side x).pair1 = PairCore.empty ∧
        (s.get (.side x) F.PAIR_CFG_ON_MISMATCH 0 = 0 ∧ (s.side x).pairRestarts = [] → t.get (.side x) F.PAIR_RESTART_COUNT 0 = (s.get
            (.side x) F.PAIR_RESTART_COUNT 0 + 1) % 2 ^ F.PAIR_RESTART_COUNT.width ∧ t.get (.side x) F.PAIR_STATUS_CORE0_RUN 0 = 1 ∧ t.get
                (.side x) F.PAIR_STATUS_CORE1_RUN 0 = 1) ∧
        (s.get (.side x) F.PAIR_CFG_ON_MISMATCH 0 = 1 → t.get (.side x) F.PAIR_STATUS_HALTED 0 = 1 ∧ t.get (.side x)
            F.PAIR_STATUS_CORE0_RUN 0 = 0 ∧ t.get (.side x) F.PAIR_STATUS_CORE1_RUN 0 = 0) ∧
        (s.get (.side x) F.PAIR_CFG_ON_MISMATCH 0 = 2 → t.get (.side x) F.SIDE_STATUS_HEALTHY 0 = 0) ∧ MemSame s t) ∧
  (∀ (s : State) (x : Side) (v : BitVec 32) (w : Nat) (a : Nat) (b : Nat),
    s.Permits x (.pair 1) (pairAddr 0x24) 4 true → s.get (.side x) F.PAIR_CFG_MODE 0 = 0 → (s.side x).pair0.sigs = [(w, a, b)] →
      (s.side x).pair1.sigs = [] →
      ((s.side x.other).waits = [] ∧ (s.side x.other).netifHeld = false ∧ (s.side x.other).tallyHeld = none) →
    ∃ t, Sys2Proof.Machine.exec (.pairSigLoWrite x (.pair 1) v true) s = .next t ∧
      t.get (.side x) F.PAIR_STATUS_MISMATCH 0 = 1 ∧ t.get (.side x) F.PAIR_STATUS_KIND 0 = 5 ∧
        t.get (.side x) F.PAIR_MISMATCH_COUNT 0 = (s.get (.side x) F.PAIR_MISMATCH_COUNT 0 + 1) % 2 ^ F.PAIR_MISMATCH_COUNT.width ∧
        (t.get (.side x) F.INTR_PENDING 2).testBit 25 = true ∧ (t.side x).pair0 = PairCore.empty ∧ (t.side x).pair1 = PairCore.empty ∧
        (s.get (.side x) F.PAIR_CFG_ON_MISMATCH 0 = 0 ∧ (s.side x).pairRestarts = [] → t.get (.side x) F.PAIR_RESTART_COUNT 0 = (s.get
            (.side x) F.PAIR_RESTART_COUNT 0 + 1) % 2 ^ F.PAIR_RESTART_COUNT.width ∧ t.get (.side x) F.PAIR_STATUS_CORE0_RUN 0 = 1 ∧ t.get
                (.side x) F.PAIR_STATUS_CORE1_RUN 0 = 1) ∧
        (s.get (.side x) F.PAIR_CFG_ON_MISMATCH 0 = 1 → t.get (.side x) F.PAIR_STATUS_HALTED 0 = 1 ∧ t.get (.side x)
            F.PAIR_STATUS_CORE0_RUN 0 = 0 ∧ t.get (.side x) F.PAIR_STATUS_CORE1_RUN 0 = 0) ∧
        (s.get (.side x) F.PAIR_CFG_ON_MISMATCH 0 = 2 → t.get (.side x) F.SIDE_STATUS_HEALTHY 0 = 0) ∧ MemSame s t) ∧
  (∀ (s : State) (x : Side) (e : Nat),
    pairEnd (s.side x).pair0.done (s.side x).pair1.done = some e →
      ((s.side x.other).waits = [] ∧ (s.side x.other).netifHeld = false ∧ (s.side x.other).tallyHeld = none) →
    ∃ t, Sys2Proof.Machine.exec (.pairOutTimeout x) s = .next t ∧
      t.now = max s.now (e + 1) ∧ t.get (.side x) F.PAIR_STATUS_MISMATCH 0 = 1 ∧ t.get (.side x) F.PAIR_STATUS_KIND 0 = 2 ∧
        t.get (.side x) F.PAIR_MISMATCH_COUNT 0 = (s.get (.side x) F.PAIR_MISMATCH_COUNT 0 + 1) % 2 ^ F.PAIR_MISMATCH_COUNT.width ∧
        (t.get (.side x) F.INTR_PENDING 2).testBit 25 = true ∧ (t.side x).pair0 = PairCore.empty ∧ (t.side x).pair1 = PairCore.empty ∧
        (s.get (.side x) F.PAIR_CFG_ON_MISMATCH 0 = 0 ∧ (s.side x).pairRestarts = [] → t.get (.side x) F.PAIR_RESTART_COUNT 0 = (s.get
            (.side x) F.PAIR_RESTART_COUNT 0 + 1) % 2 ^ F.PAIR_RESTART_COUNT.width ∧ t.get (.side x) F.PAIR_STATUS_CORE0_RUN 0 = 1 ∧ t.get
                (.side x) F.PAIR_STATUS_CORE1_RUN 0 = 1) ∧
        (s.get (.side x) F.PAIR_CFG_ON_MISMATCH 0 = 1 → t.get (.side x) F.PAIR_STATUS_HALTED 0 = 1 ∧ t.get (.side x)
            F.PAIR_STATUS_CORE0_RUN 0 = 0 ∧ t.get (.side x) F.PAIR_STATUS_CORE1_RUN 0 = 0) ∧
        (s.get (.side x) F.PAIR_CFG_ON_MISMATCH 0 = 2 → t.get (.side x) F.SIDE_STATUS_HEALTHY 0 = 0) ∧ MemSame s t) ∧
  (∀ (s : State) (x : Side) (c : Fin 2) (v : BitVec 32),
    s.Permits x (.pair c) (pairAddr 0x20) 4 true → s.get (.side x) F.PAIR_CFG_MODE 0 = 0 →
    ∃ t, Sys2Proof.Machine.exec (.pairSigHiWrite x (.pair c) v) s = .next t ∧
      t.pairCore x c = { s.pairCore x c with sigHi := v.toNat % 256 } ∧ Only [] s t ∧ MemSame s t ∧ t.resp = .idle) ∧
  (∀ (s : State) (x : Side) (v : BitVec 32) (w : Nat) (a : Nat) (b : Nat),
    s.Permits x (.pair 1) (pairAddr 0x24) 4 true → s.get (.side x) F.PAIR_CFG_MODE 0 = 0 → (s.side x).pair0.sigs = [(w, a, b)] →
      (s.side x).pair1.sigs = [] → (s.side x).pair1.sigHi * 2 ^ 32 + v.toNat = w → a ≤ s.now → s.now ≤ b →
    ∃ t, Sys2Proof.Machine.exec (.pairSigLoWrite x (.pair 1) v false) s = .next t ∧
      (t.side x).pair0.sigs = [] ∧ (t.side x).pair1.sigs = [] ∧
        t.get (.side x) F.PAIR_SIG_COUNT 0 = (s.get (.side x) F.PAIR_SIG_COUNT 0 + 1) % 2 ^ F.PAIR_SIG_COUNT.width ∧
        (t.side x).pairIndex = (s.side x).pairIndex + 1 ∧ Only [(.side x, F.PAIR_SIG_COUNT, 0)] s t ∧ MemSame s t) ∧
  (∀ (s : State) (x : Side) (v : BitVec 32) (w : Nat) (a : Nat) (b : Nat),
    s.Permits x (.pair 1) (pairAddr 0x24) 4 true → s.get (.side x) F.PAIR_CFG_MODE 0 = 0 → (s.side x).pair0.sigs = [(w, a, b)] →
      (s.side x).pair1.sigs = [] → (s.side x).pair1.sigHi * 2 ^ 32 + v.toNat ≠ w → a ≤ s.now → s.now ≤ b →
      ((s.side x.other).waits = [] ∧ (s.side x.other).netifHeld = false ∧ (s.side x.other).tallyHeld = none) →
    ∃ t, Sys2Proof.Machine.exec (.pairSigLoWrite x (.pair 1) v false) s = .next t ∧
      t.get (.side x) F.PAIR_STATUS_MISMATCH 0 = 1 ∧ t.get (.side x) F.PAIR_STATUS_KIND 0 = 3 ∧
        t.get (.side x) F.PAIR_MISMATCH_COUNT 0 = (s.get (.side x) F.PAIR_MISMATCH_COUNT 0 + 1) % 2 ^ F.PAIR_MISMATCH_COUNT.width ∧
        (t.get (.side x) F.INTR_PENDING 2).testBit 25 = true ∧ (t.side x).pair0 = PairCore.empty ∧ (t.side x).pair1 = PairCore.empty ∧
        (s.get (.side x) F.PAIR_CFG_ON_MISMATCH 0 = 0 ∧ (s.side x).pairRestarts = [] → t.get (.side x) F.PAIR_RESTART_COUNT 0 = (s.get
            (.side x) F.PAIR_RESTART_COUNT 0 + 1) % 2 ^ F.PAIR_RESTART_COUNT.width ∧ t.get (.side x) F.PAIR_STATUS_CORE0_RUN 0 = 1 ∧ t.get
                (.side x) F.PAIR_STATUS_CORE1_RUN 0 = 1) ∧
        (s.get (.side x) F.PAIR_CFG_ON_MISMATCH 0 = 1 → t.get (.side x) F.PAIR_STATUS_HALTED 0 = 1 ∧ t.get (.side x)
            F.PAIR_STATUS_CORE0_RUN 0 = 0 ∧ t.get (.side x) F.PAIR_STATUS_CORE1_RUN 0 = 0) ∧
        (s.get (.side x) F.PAIR_CFG_ON_MISMATCH 0 = 2 → t.get (.side x) F.SIDE_STATUS_HEALTHY 0 = 0) ∧ MemSame s t) ∧
  (∀ (s : State) (x : Side) (e : Nat),
    pairEnd (s.side x).pair0.sigs (s.side x).pair1.sigs = some e →
      ((s.side x.other).waits = [] ∧ (s.side x.other).netifHeld = false ∧ (s.side x.other).tallyHeld = none) →
    ∃ t, Sys2Proof.Machine.exec (.pairSigTimeout x) s = .next t ∧
      t.now = max s.now (e + 1) ∧ t.get (.side x) F.PAIR_STATUS_MISMATCH 0 = 1 ∧ t.get (.side x) F.PAIR_STATUS_KIND 0 = 4 ∧
        t.get (.side x) F.PAIR_MISMATCH_COUNT 0 = (s.get (.side x) F.PAIR_MISMATCH_COUNT 0 + 1) % 2 ^ F.PAIR_MISMATCH_COUNT.width ∧
        (t.get (.side x) F.INTR_PENDING 2).testBit 25 = true ∧ (t.side x).pair0 = PairCore.empty ∧ (t.side x).pair1 = PairCore.empty ∧
        (s.get (.side x) F.PAIR_CFG_ON_MISMATCH 0 = 0 ∧ (s.side x).pairRestarts = [] → t.get (.side x) F.PAIR_RESTART_COUNT 0 = (s.get
            (.side x) F.PAIR_RESTART_COUNT 0 + 1) % 2 ^ F.PAIR_RESTART_COUNT.width ∧ t.get (.side x) F.PAIR_STATUS_CORE0_RUN 0 = 1 ∧ t.get
                (.side x) F.PAIR_STATUS_CORE1_RUN 0 = 1) ∧
        (s.get (.side x) F.PAIR_CFG_ON_MISMATCH 0 = 1 → t.get (.side x) F.PAIR_STATUS_HALTED 0 = 1 ∧ t.get (.side x)
            F.PAIR_STATUS_CORE0_RUN 0 = 0 ∧ t.get (.side x) F.PAIR_STATUS_CORE1_RUN 0 = 0) ∧
        (s.get (.side x) F.PAIR_CFG_ON_MISMATCH 0 = 2 → t.get (.side x) F.SIDE_STATUS_HEALTHY 0 = 0) ∧ MemSame s t) ∧
  (∀ (s : State) (x : Side) (c : Fin 2) (w : Nat) (l : List Nat),
    s.Permits x (.pair c) (pairAddr 0x18) 4 false → s.get (.side x) F.PAIR_CFG_MODE 0 = 0 → (s.pairCore x c).rpl = w :: l →
      (s.src x (s.get (.side x) F.PAIR_CFG_DOOR 0)).rpl = [] →
    ∃ t, Sys2Proof.Machine.exec (.pairRplHiRead x (.pair c)) s = .next t ∧
      t.pairCore x c = { s.pairCore x c with rpl := l, rplLo := w % 2 ^ 32 } ∧ t.resp = .data (w / 2 ^ 32) ∧ Only [] s t ∧ MemSame s t)

/-- A poll that arrives from a present far side shows the link up and ends a run of misses; at the cross bridge it latches the software
interrupts of the other side. A missed poll shows the link down; the third in a row at the cross bridge marks the far side ABSENT. A
transaction that has waited HOLD is split, counted. One without its answer in TIMEOUT ends with cause 10, counted, its tag free. A
served read of a die answers its data and frees its tag. An answer after the end of its transaction is counted and discarded. -/
def Obligations.Bridges : Prop :=
  (∀ (s : State) (x : Side) (i : Fin 6),
    s.fabric x = true → 2 ≤ i.val → s.farAlive x i = true → s.farPresent x i = true →
    ∃ t, Sys2Proof.Machine.exec (.bridgePoll x i true) s = .next t ∧
      t.get (.side x) F.BRIDGE_STATUS_LINK_UP i = 1 ∧ (t.bridge x i).missed = 0 ∧ (t.bridge x i).txns = (s.bridge x i).txns ∧
        Only [(.side x, F.BRIDGE_STATUS_LINK_UP, i.val)] s t ∧ MemSame s t ∧ t.now = s.now) ∧
  (∀ (s : State) (x : Side),
    s.fabric x = true → s.farAlive x 0 = true → s.farPresent x 0 = true →
    ∃ t, Sys2Proof.Machine.exec (.bridgePoll x 0 true) s = .next t ∧
      (∀ k : Nat, k < 8 → (s.side x.other).swiOut.testBit k = true → (t.get (.side x) F.INTR_PENDING 3).testBit k = true) ∧
        (t.side x.other).swiOut = 0 ∧ (t.bridge x 0).missed = 0 ∧
        Only [(.side x, F.BRIDGE_STATUS_LINK_UP, 0), (.side x, F.INTR_PENDING, 3)] s t ∧ MemSame s t) ∧
  (∀ (s : State) (x : Side) (i : Fin 6),
    s.fabric x = true → (i.val ≠ 0 ∨ (s.bridge x i).missed < 2) →
    ∃ t, Sys2Proof.Machine.exec (.bridgePoll x i false) s = .next t ∧
      t.get (.side x) F.BRIDGE_STATUS_LINK_UP i = 0 ∧ (t.bridge x i).missed = (s.bridge x i).missed + 1 ∧
        Only [(.side x, F.BRIDGE_STATUS_LINK_UP, i.val)] s t ∧ MemSame s t) ∧
  (∀ (s : State) (x : Side),
    s.fabric x = true → 2 ≤ (s.bridge x 0).missed → s.farPresent x 0 = true → (s.bridge x 0).txns = [] → (s.bridge x 0).near = [] →
      ((s.side x.other).waits = [] ∧ (s.side x.other).netifHeld = false ∧ (s.side x.other).tallyHeld = none) →
    ∃ t, Sys2Proof.Machine.exec (.bridgePoll x 0 false) s = .next t ∧
      t.get (.side x) F.BRIDGE_STATUS_FAR_PRESENT 0 = 0 ∧ t.get (.side x) F.BRIDGE_STATUS_LINK_UP 0 = 0 ∧
        (∀ h : Nat, h < 6 → t.get (.side x) F.BRIDGE_LOCK_HELD h = 0) ∧ MemSame s t) ∧
  (∀ (s : State) (x : Side) (i : Fin 6) (g : Fin 16) (a : Txn),
    (s.bridge x i).txns = [a] → a.tag = g.val → a.split = false →
    ∃ t, Sys2Proof.Machine.exec (.bridgeSplit x i (.tag g)) s = .next t ∧
      (t.bridge x i).txns = [{ a with split := true }] ∧ t.now = max s.now (a.at_ + s.holdNs x i) ∧
        t.get (.side x) F.BRIDGE_SPLIT_COUNT i = (s.get (.side x) F.BRIDGE_SPLIT_COUNT i + 1) % 2 ^ F.BRIDGE_SPLIT_COUNT.width ∧
        Only [(.side x, F.BRIDGE_SPLIT_COUNT, i.val)] s t ∧ MemSame s t) ∧
  (∀ (s : State) (x : Side) (i : Fin 6) (g : Fin 16) (a : Txn),
    (s.bridge x i).txns = [a] → (s.bridge x i).near = [] → a.tag = g.val → s.farAlive x i = false → a.posted = false → 6 ≤ a.init →
      a.chan = 0 → ((s.side x.other).waits = [] ∧ (s.side x.other).netifHeld = false ∧ (s.side x.other).tallyHeld = none) →
    ∃ t, Sys2Proof.Machine.exec (.bridgeTimeout x i (.tag g)) s = .next t ∧
      (t.bridge x i).txns = [] ∧ (t.bridge x i).late = (s.bridge x i).late + 1 ∧ t.resp = .error 10 ∧
        t.now = max s.now (a.at_ + s.timeoutNs x i) ∧
        t.get (.side x) F.BRIDGE_TIMEOUT_COUNT i = (s.get (.side x) F.BRIDGE_TIMEOUT_COUNT i + 1) % 2 ^ F.BRIDGE_TIMEOUT_COUNT.width ∧
        Only ((.side x, F.BRIDGE_TIMEOUT_COUNT, i.val) :: logFields x) s t ∧ MemSame s t) ∧
  (∀ (s : State) (x : Side) (i : Fin 6) (g : Fin 16) (v : Nat) (e : Ecc) (a : Txn),
    (s.bridge x i).txns = [a] → (s.bridge x i).near = [] → a.tag = g.val → 1 ≤ i.val → a.chan = 0 → a.data = none →
      ((s.side x.other).waits = [] ∧ (s.side x.other).netifHeld = false ∧ (s.side x.other).tallyHeld = none) → s.farAlive x i = true →
      (s.farExec x i a e).resp = .data v →
    ∃ t, Sys2Proof.Machine.exec (.bridgeAnswer x i (.tag g) e) s = .next t ∧
      (t.bridge x i).txns = [] ∧ t.resp = .data v ∧ Only [] s t ∧ MemSame s t ∧ t.now = s.now ∧ t.flue = s.flue ∧ t.dies = s.dies) ∧
  (∀ (s : State) (x : Side) (i : Fin 6) (g : Fin 16) (e : Ecc),
    (s.bridge x i).txns = [] → (s.bridge x i).late ≠ 0 →
    ∃ t, Sys2Proof.Machine.exec (.bridgeAnswer x i (.tag g) e) s = .next t ∧
      (t.bridge x i).late + 1 = (s.bridge x i).late ∧
        t.get (.side x) F.BRIDGE_LATE_DISCARD_COUNT i = (s.get (.side x) F.BRIDGE_LATE_DISCARD_COUNT i + 1) % 2 ^
            F.BRIDGE_LATE_DISCARD_COUNT.width ∧
        Only [(.side x, F.BRIDGE_LATE_DISCARD_COUNT, i.val)] s t ∧ MemSame s t ∧ t.resp = s.resp)

/-- A request for a line of the far SRAM waits until the line is free and is granted then, counted; a release frees it; 2 us after the
grant, or when no grant comes in time, it is broken. A read answers the register and clears BROKEN. A valid atomic operation is BUSY
until the far side runs it: the result word of the operation stands in the far memory and the old value in RES; one of a wrong address
ends with ERR and cause 1. A write of BRIDGE_SWI raises its lines, or counts them lost while the other side cannot be reached. -/
def Obligations.LocksAndAtomics : Prop :=
  (∀ (s : State) (x : Side) (o : Origin) (h : Nat) (v : BitVec 32),
    s.Permits x o (bridgeAddr 0x1048) 4 true → s.lockHart x o = some h → v.toNat.testBit 0 = true → v.toNat.testBit 1 = false →
      s.get (.side x) F.BRIDGE_LOCK_HELD h = 0 → s.get (.side x) F.BRIDGE_LOCK_PENDING h = 0 →
      inFarSram (s.get (.side x) F.BRIDGE_LOCK_ADDR h / 64 * 64) 64 = true → s.farPresent x 0 = true →
    ∃ t, Sys2Proof.Machine.exec (.bridgeLockAcquire x o v) s = .next t ∧
      t.get (.side x) F.BRIDGE_LOCK_PENDING h = 1 ∧
        (t.side x).lockQ = (s.side x).lockQ ++ [⟨h, s.get (.side x) F.BRIDGE_LOCK_ADDR h / 64 * 64, s.now, false⟩] ∧
        Only [(.side x, F.BRIDGE_LOCK_PENDING, h)] s t ∧ MemSame s t ∧ t.resp = .idle) ∧
  (∀ (s : State) (x : Side) (o : Origin) (h : Nat) (v : BitVec 32),
    s.Permits x o (bridgeAddr 0x1048) 4 true → s.lockHart x o = some h → v.toNat = 2 → s.is (.side x) F.BRIDGE_LOCK_HELD h = true →
      ((s.side x.other).waits = [] ∧ (s.side x.other).netifHeld = false ∧ (s.side x.other).tallyHeld = none) →
    ∃ t, Sys2Proof.Machine.exec (.bridgeLockRelease x o v) s = .next t ∧
      t.get (.side x) F.BRIDGE_LOCK_HELD h = 0 ∧ Only [(.side x, F.BRIDGE_LOCK_HELD, h)] s t ∧ MemSame s t ∧ t.resp = .idle) ∧
  (∀ (s : State) (x : Side) (h : Fin 6) (a : LineLock),
    (s.side x).lockQ = [a] → a.hart = h.val → s.lineLocked x h a.line = false →
    ∃ t, Sys2Proof.Machine.exec (.bridgeLockGrant x h) s = .next t ∧
      t.get (.side x) F.BRIDGE_LOCK_HELD h = 1 ∧ t.get (.side x) F.BRIDGE_LOCK_PENDING h = 0 ∧ (t.side x).lockQ = [] ∧
        (t.side x).locks = (s.side x).locks ++ [⟨h, a.line, s.now, false⟩] ∧
        t.get (.side x) F.BRIDGE_LOCK_COUNT 0 = (s.get (.side x) F.BRIDGE_LOCK_COUNT 0 + 1) % 2 ^ F.BRIDGE_LOCK_COUNT.width ∧
        Only [(.side x, F.BRIDGE_LOCK_HELD, h.val), (.side x, F.BRIDGE_LOCK_PENDING, h.val), (.side x, F.BRIDGE_LOCK_COUNT, 0)] s t ∧
        MemSame s t) ∧
  (∀ (s : State) (x : Side) (h : Fin 6) (a : LineLock),
    (s.side x).locks = [a] → a.hart = h.val → a.released = false → s.is (.side x) F.BRIDGE_LOCK_HELD h = true →
      ((s.side x.other).waits = [] ∧ (s.side x.other).netifHeld = false ∧ (s.side x.other).tallyHeld = none) →
    ∃ t, Sys2Proof.Machine.exec (.bridgeLockBroken x h) s = .next t ∧
      t.now = max s.now (a.at_ + 2000) ∧ (t.side x).locks = [] ∧ t.get (.side x) F.BRIDGE_LOCK_HELD h = 0 ∧
        t.get (.side x) F.BRIDGE_LOCK_BROKEN h = 1 ∧
        t.get (.side x) F.BRIDGE_LOCK_BROKEN_COUNT 0 = (s.get (.side x) F.BRIDGE_LOCK_BROKEN_COUNT 0 + 1) % 2 ^
            F.BRIDGE_LOCK_BROKEN_COUNT.width ∧
        MemSame s t) ∧
  (∀ (s : State) (x : Side) (h : Fin 6) (a : LineLock),
    (s.side x).lockQ = [a] → a.hart = h.val → s.is (.side x) F.BRIDGE_LOCK_PENDING h = true →
      ((s.side x.other).waits = [] ∧ (s.side x.other).netifHeld = false ∧ (s.side x.other).tallyHeld = none) →
    ∃ t, Sys2Proof.Machine.exec (.bridgeLockGrantTimeout x h) s = .next t ∧
      t.now = max s.now (a.at_ + s.timeoutNs x 0) ∧ (t.side x).lockQ = [] ∧ t.get (.side x) F.BRIDGE_LOCK_PENDING h = 0 ∧
        t.get (.side x) F.BRIDGE_LOCK_BROKEN h = 1 ∧ MemSame s t) ∧
  (∀ (s : State) (x : Side) (o : Origin) (h : Nat),
    s.Permits x o (bridgeAddr 0x1048) 4 false → s.lockHart x o = some h →
    ∃ t, Sys2Proof.Machine.exec (.bridgeLockRead x o) s = .next t ∧
      t.resp = .data (s.get (.side x) F.BRIDGE_LOCK_PENDING h * 2 ^ 10 + s.get (.side x) F.BRIDGE_LOCK_BROKEN h * 2 ^ 9 + s.get (.side x)
          F.BRIDGE_LOCK_HELD h * 2 ^ 8) ∧
        t.get (.side x) F.BRIDGE_LOCK_BROKEN h = 0 ∧ Only [(.side x, F.BRIDGE_LOCK_BROKEN, h)] s t ∧ t.side x = (s.stepDone x o).side x ∧
        MemSame s t) ∧
  (∀ (s : State) (x : Side) (o : Origin) (h : Nat) (v : BitVec 32) (a : Nat),
    s.Permits x o (bridgeAddr 0x1008) 4 true → s.lockHart x o = some h → v.toNat.testBit 8 = true → bits v.toNat 3 0 ≤ 4 →
      s.is (.side x) F.BRIDGE_AT_STATUS_BUSY h = false → s.get (.side x) F.BRIDGE_AT_ADDR h = a →
      inFarSram a (4 + 4 * bits v.toNat 4 4) = true → a % (4 + 4 * bits v.toNat 4 4) = 0 → s.farPresent x 0 = true →
    ∃ t, Sys2Proof.Machine.exec (.bridgeAtGo x o v) s = .next t ∧
      t.get (.side x) F.BRIDGE_AT_STATUS_BUSY h = 1 ∧ (Tab.at [] (t.side x).atOp h).take 3 = [bits v.toNat 3 0, bits v.toNat 4 4, a] ∧
        t.get (.side x) F.BRIDGE_ATOMIC_COUNT 0 = (s.get (.side x) F.BRIDGE_ATOMIC_COUNT 0 + 1) % 2 ^ F.BRIDGE_ATOMIC_COUNT.width ∧
        MemSame s t ∧ t.resp = .idle) ∧
  (∀ (s : State) (x : Side) (o : Origin) (h : Nat) (v : BitVec 32),
    s.Permits x o (bridgeAddr 0x1008) 4 true → s.lockHart x o = some h → v.toNat.testBit 8 = true →
      s.is (.side x) F.BRIDGE_AT_STATUS_BUSY h = false → 5 ≤ bits v.toNat 3 0 →
    ∃ t, Sys2Proof.Machine.exec (.bridgeAtGo x o v) s = .next t ∧
      t.get (.side x) F.BRIDGE_AT_STATUS_BUSY h = 0 ∧ t.get (.side x) F.BRIDGE_AT_STATUS_ERR h = 1 ∧
        t.get (.side x) F.BRIDGE_AT_STATUS_CAUSE h = 1 ∧ (t.side x).atOp = (s.side x).atOp ∧ MemSame s t) ∧
  (∀ (s : State) (x : Side) (h : Fin 6) (op : Nat) (z : Nat) (a : Nat) (v : Nat) (c : Nat) (w : Nat) (u : Nat) (e : Ecc),
    Tab.at [] (s.side x).atOp h = [op, z, a, v, c, w] → e ≠ .lost → z ≤ 1 → s.is (.side x) F.BRIDGE_AT_STATUS_BUSY h = true →
      s.lineLocked x h a = false → inFarSram a (4 + 4 * z) = true → s.wotAllows x.other (farOfWindow a) w 0 = true →
      s.wotAllows x.other (farOfWindow a) w 1 = true → s.mirLocked x.other (farOfWindow a) = false →
      atomicValue op (8 * (4 + 4 * z)) (s.loadLE x.other (farOfWindow a) (4 + 4 * z)) v c = some u →
    ∃ t, Sys2Proof.Machine.exec (.bridgeAtDone x h e) s = .next t ∧
      t.loadLE x.other (farOfWindow a) (4 + 4 * z) = u % 2 ^ (8 * (4 + 4 * z)) ∧ t.get (.side x) F.BRIDGE_AT_STATUS_BUSY h = 0 ∧
        t.get (.side x) F.BRIDGE_AT_STATUS_DONE h = 1 ∧
        t.get (.side x) F.BRIDGE_AT_RES_LO h = s.loadLE x.other (farOfWindow a) (4 + 4 * z) % 2 ^ 32 ∧
        (∀ b : Nat, b < 2 ^ 40 → (b < farOfWindow a ∨ farOfWindow a + (4 + 4 * z) ≤ b) → t.byte x.other b = s.byte x.other b) ∧
        (∀ b, t.byte x b = s.byte x b)) ∧
  (∀ (s : State) (x : Side) (o : Origin) (v : BitVec 32),
    s.Permits x o (bridgeAddr 0x1200) 4 true → s.farPresent x 0 = true → (s.side x).crossLost = false →
    ∃ t, Sys2Proof.Machine.exec (.bridgeSwi x o v) s = .next t ∧
      (∀ k : Nat, k < 8 → (t.side x).swiOut.testBit k = ((s.side x).swiOut.testBit k || v.toNat.testBit k)) ∧ Only [] s t ∧ MemSame s t ∧
        t.resp = .idle) ∧
  (∀ (s : State) (x : Side) (o : Origin) (v : BitVec 32),
    s.Permits x o (bridgeAddr 0x1200) 4 true → s.farPresent x 0 = false → v.toNat = 1 →
    ∃ t, Sys2Proof.Machine.exec (.bridgeSwi x o v) s = .next t ∧
      (t.side x).swiOut = (s.side x).swiOut ∧
        t.get (.side x) F.BRIDGE_SWI_LOST_COUNT 0 = (s.get (.side x) F.BRIDGE_SWI_LOST_COUNT 0 + 1) % 2 ^ F.BRIDGE_SWI_LOST_COUNT.width ∧
        Only [(.side x, F.BRIDGE_SWI_LOST_COUNT, 0)] s t ∧ MemSame s t)

/-- A GATE.CALL of an application hart that passes its checks pushes the caller and enters the gate's world at its ENTRY; one that fails a
check is a gate fault with its reason. GATE.LAND after a call lets the hart go on, elsewhere it is a no-operation. GATE.RET returns to
the caller; without one it is a fault. Any other gate instruction at the landing is NO_LAND: the hart is back in the caller and faults
there. A pair core takes an illegal-instruction exception at any of them. A verified image makes its world STARTING or HELD, a bad one
NONE; a loaded world is measured and runs once the cores do. A kick restarts the count of a running world; a watchdog that runs out
fails the world, counted. GO puts the dynamic regions in force; lockdown latches at its threshold and world 0 clears it; the Poker's
unlock ends by relock or expiry, and it halts, steps and resumes harts and the pair in its scope; the boundary-scan instructions need
LEVEL 3, else its TAP holds BYPASS. -/
def Obligations.GatesAndWorlds : Prop :=
  (∀ (s : State) (x : Side) (h : Fin 6) (v : BitVec 32) (a : Word64) (p : Fin 4) (b : Bool) (n : Nat),
    h.val < 4 → s.hartRuns x h = true → isCustom0 v.toNat = true → gateForm v.toNat = some (0, n) → (s.hart x h).landing = none →
      s.gateDenied x h n = none →
    ∃ t, Sys2Proof.Machine.exec (.gateCall x h v a p b) s = .next t ∧
      (t.hart x h).frames = ⟨s.get (.side x) F.WOT_HART_CURRENT h, p, b, a.toNat + 4, n⟩ :: (s.hart x h).frames ∧
        (t.hart x h).priv = (if s.get (.side x) F.WOT_GATE_CFG_PRIV n = 2 then 3 else s.get (.side x) F.WOT_GATE_CFG_PRIV n) ∧
        (t.hart x h).virt = false ∧ (t.hart x h).pc = s.get (.side x) F.WOT_GATE_ENTRY n ∧ (t.hart x h).landing = some n ∧
        (t.hart x h).banks = (s.hart x h).banks ∧ t.get (.side x) F.WOT_HART_CURRENT h = s.get (.side x) F.WOT_GATE_CFG_TARGET n ∧
        Only ((.side x, F.WOT_HART_CURRENT, h.val) :: perfFields x) s t ∧ MemSame s t ∧ t.now = s.now ∧ t.dies = s.dies) ∧
  (∀ (s : State) (x : Side) (h : Fin 6) (v : BitVec 32) (a : Word64) (p : Fin 4) (b : Bool) (n : Nat) (r : Nat) (w : Nat),
    h.val < 4 → s.hartRuns x h = true → isCustom0 v.toNat = true → s.extIrq x h = false → (s.hart x h).step = false →
      gateForm v.toNat = some (0, n) → (s.hart x h).landing = none → s.gateDenied x h n = some r →
      s.get (.side x) F.WOT_HART_CURRENT h = w →
    ∃ t, Sys2Proof.Machine.exec (.gateCall x h v a p b) s = .next t ∧
      t.hart x h = ({ s.hart x h with pc := a.toNat }).trap w 2 0 (r * 0x100 + n) a.toNat ∧
        ((s.hart x h).priv = 3 → (t.hart x h).priv = 3 ∧ (t.hart x h).csr w Csr.mcause = 2 ∧ (t.hart x h).csr w Csr.mepc = a.toNat ∧
            (t.hart x h).csr w Csr.mtval = r * 0x100 + n) ∧
        t.get (.side x) F.WOT_HART_CURRENT h = w ∧
        t.get (.side x) F.WOT_GATE_FAULT_COUNT 0 = (s.get (.side x) F.WOT_GATE_FAULT_COUNT 0 + 1) % 2 ^ F.WOT_GATE_FAULT_COUNT.width ∧
        Only ((.side x, F.WOT_GATE_FAULT_COUNT, 0) :: logFields x) s t ∧ MemSame s t ∧ t.now = s.now ∧ t.dies = s.dies) ∧
  (∀ (s : State) (x : Side) (h : Fin 6) (v : BitVec 32) (a : Word64) (n : Nat),
    h.val < 4 → s.hartRuns x h = true → isCustom0 v.toNat = true → s.extIrq x h = false → (s.hart x h).step = false →
      gateForm v.toNat = some (1, n) → ((s.hart x h).landing = some n ∨ (s.hart x h).landing = none) →
    ∃ t, Sys2Proof.Machine.exec (.gateLand x h v a) s = .next t ∧
      t.hart x h = { s.hart x h with pc := a.toNat + 4, landing := none } ∧ Only [] s t ∧ MemSame s t ∧ t.now = s.now ∧ t.dies = s.dies) ∧
  (∀ (s : State) (x : Side) (h : Fin 6) (v : BitVec 32) (a : Word64) (p : Fin 4) (b : Bool) (n : Nat) (m : Nat) (f : GateFrame) (l : List
      GateFrame),
    h.val < 4 → s.hartRuns x h = true → isCustom0 v.toNat = true → s.extIrq x h = false → (s.hart x h).step = false →
      gateForm v.toNat = some (0, n) → (s.hart x h).landing = some m → (s.hart x h).frames = f :: l →
    ∃ t, Sys2Proof.Machine.exec (.gateCall x h v a p b) s = .next t ∧
      (t.hart x h).frames = l ∧ (t.hart x h).landing = none ∧
        t.get (.side x) F.WOT_HART_CURRENT h = f.world % 2 ^ F.WOT_HART_CURRENT.width ∧
        t.hart x h = ({ s.hart x h with frames := l, priv := f.priv, virt := f.virt, pc := f.ret, landing := none }).trap (f.world % 2 ^
            F.WOT_HART_CURRENT.width) 2 0 (0x400 + f.gate) (f.ret - 4) ∧
        t.get (.side x) F.WOT_GATE_FAULT_COUNT 0 = (s.get (.side x) F.WOT_GATE_FAULT_COUNT 0 + 1) % 2 ^ F.WOT_GATE_FAULT_COUNT.width ∧
        MemSame s t ∧ t.now = s.now ∧ t.dies = s.dies) ∧
  (∀ (s : State) (x : Side) (h : Fin 6) (v : BitVec 32) (a : Word64) (m : Nat) (f : GateFrame) (l : List GateFrame),
    h.val < 4 → s.hartRuns x h = true → isCustom0 v.toNat = true → s.extIrq x h = false → (s.hart x h).step = false →
      gateForm v.toNat ≠ some (1, m) → (s.hart x h).landing = some m → (s.hart x h).frames = f :: l →
    ∃ t, Sys2Proof.Machine.exec (.gateLand x h v a) s = .next t ∧
      (t.hart x h).frames = l ∧ (t.hart x h).landing = none ∧
        t.get (.side x) F.WOT_HART_CURRENT h = f.world % 2 ^ F.WOT_HART_CURRENT.width ∧
        t.hart x h = ({ s.hart x h with frames := l, priv := f.priv, virt := f.virt, pc := f.ret, landing := none }).trap (f.world % 2 ^
            F.WOT_HART_CURRENT.width) 2 0 (0x400 + f.gate) (f.ret - 4) ∧
        t.get (.side x) F.WOT_GATE_FAULT_COUNT 0 = (s.get (.side x) F.WOT_GATE_FAULT_COUNT 0 + 1) % 2 ^ F.WOT_GATE_FAULT_COUNT.width ∧
        MemSame s t ∧ t.now = s.now ∧ t.dies = s.dies) ∧
  (∀ (s : State) (x : Side) (h : Fin 6) (v : BitVec 32) (a : Word64) (m : Nat) (f : GateFrame) (l : List GateFrame),
    h.val < 4 → s.hartRuns x h = true → isCustom0 v.toNat = true → s.extIrq x h = false → (s.hart x h).step = false →
      gateForm v.toNat = some (2, 0) → (s.hart x h).landing = some m → (s.hart x h).frames = f :: l →
    ∃ t, Sys2Proof.Machine.exec (.gateRet x h v a) s = .next t ∧
      (t.hart x h).frames = l ∧ (t.hart x h).landing = none ∧
        t.get (.side x) F.WOT_HART_CURRENT h = f.world % 2 ^ F.WOT_HART_CURRENT.width ∧
        t.hart x h = ({ s.hart x h with frames := l, priv := f.priv, virt := f.virt, pc := f.ret, landing := none }).trap (f.world % 2 ^
            F.WOT_HART_CURRENT.width) 2 0 (0x400 + f.gate) (f.ret - 4) ∧
        t.get (.side x) F.WOT_GATE_FAULT_COUNT 0 = (s.get (.side x) F.WOT_GATE_FAULT_COUNT 0 + 1) % 2 ^ F.WOT_GATE_FAULT_COUNT.width ∧
        MemSame s t ∧ t.now = s.now ∧ t.dies = s.dies) ∧
  (∀ (s : State) (x : Side) (h : Fin 6) (v : BitVec 32) (a : Word64) (f : GateFrame) (l : List GateFrame),
    h.val < 4 → s.hartRuns x h = true → isCustom0 v.toNat = true → s.extIrq x h = false → (s.hart x h).step = false →
      gateForm v.toNat = some (2, 0) → (s.hart x h).landing = none → (s.hart x h).frames = f :: l →
    ∃ t, Sys2Proof.Machine.exec (.gateRet x h v a) s = .next t ∧
      t.hart x h = { s.hart x h with frames := l, priv := f.priv, virt := f.virt, pc := f.ret, landing := none } ∧
        t.get (.side x) F.WOT_HART_CURRENT h = f.world % 2 ^ F.WOT_HART_CURRENT.width ∧ Only [(.side x, F.WOT_HART_CURRENT, h.val)] s t ∧
        MemSame s t ∧ t.now = s.now ∧ t.dies = s.dies) ∧
  (∀ (s : State) (x : Side) (h : Fin 6) (v : BitVec 32) (a : Word64) (w : Nat),
    h.val < 4 → s.hartRuns x h = true → isCustom0 v.toNat = true → gateForm v.toNat = some (2, 0) → (s.hart x h).landing = none →
      (s.hart x h).frames = [] → s.get (.side x) F.WOT_HART_CURRENT h = w → s.extIrq x h = false → (s.hart x h).step = false →
    ∃ t, Sys2Proof.Machine.exec (.gateRet x h v a) s = .next t ∧
      t.hart x h = ({ s.hart x h with pc := a.toNat }).trap w 2 0 0x700 a.toNat ∧
        t.get (.side x) F.WOT_GATE_FAULT_COUNT 0 = (s.get (.side x) F.WOT_GATE_FAULT_COUNT 0 + 1) % 2 ^ F.WOT_GATE_FAULT_COUNT.width ∧
        MemSame s t ∧ t.now = s.now ∧ t.dies = s.dies) ∧
  (∀ (s : State) (x : Side) (h : Fin 6) (v : BitVec 32) (a : Word64) (p : Fin 4) (b : Bool),
    4 ≤ h.val → s.hartRuns x h = true → isCustom0 v.toNat = true → s.extIrq x h = false → (s.side x).pairStep = 0 →
      (s.hart x h).step = false →
    ∃ t, Sys2Proof.Machine.exec (.gateCall x h v a p b) s = .next t ∧
      t.hart x h = ({ s.hart x h with pc := a.toNat }).trap (s.coreWorld x h) 2 0 (s.freeVal 32) a.toNat ∧ t.free = s.free + 1 ∧
        Only [] s t ∧ MemSame s t ∧ t.now = s.now ∧ t.dies = s.dies) ∧
  (∀ (s : State) (x : Side) (h : Fin 6) (v : BitVec 32) (a : Word64),
    4 ≤ h.val → s.hartRuns x h = true → isCustom0 v.toNat = true → s.extIrq x h = false → (s.side x).pairStep = 0 →
      (s.hart x h).step = false →
    ∃ t, Sys2Proof.Machine.exec (.gateLand x h v a) s = .next t ∧
      t.hart x h = ({ s.hart x h with pc := a.toNat }).trap (s.coreWorld x h) 2 0 (s.freeVal 32) a.toNat ∧ t.free = s.free + 1 ∧
        Only [] s t ∧ MemSame s t ∧ t.now = s.now ∧ t.dies = s.dies) ∧
  (∀ (s : State) (x : Side) (h : Fin 6) (v : BitVec 32) (a : Word64),
    4 ≤ h.val → s.hartRuns x h = true → isCustom0 v.toNat = true → s.extIrq x h = false → (s.side x).pairStep = 0 →
      (s.hart x h).step = false →
    ∃ t, Sys2Proof.Machine.exec (.gateRet x h v a) s = .next t ∧
      t.hart x h = ({ s.hart x h with pc := a.toNat }).trap (s.coreWorld x h) 2 0 (s.freeVal 32) a.toNat ∧ t.free = s.free + 1 ∧
        Only [] s t ∧ MemSame s t ∧ t.now = s.now ∧ t.dies = s.dies) ∧
  (∀ (s : State) (x : Side) (w : Fin 8) (u : Nat),
    s.up x = true → s.worldEnabled x w = true →
      (List.range w).all (fun i => !s.worldEnabled x i || (s.side x).verified.testBit i) = true → (s.side x).verified.testBit w = false →
      s.bootBank x (worldSlot w) = u →
    ∃ t, Sys2Proof.Machine.exec (.worldImageVerified x w) s = .next t ∧
      t.worldState x w = (if u = 0 then 0 else if (s.side x).cores = true then 2 else 1) ∧ (t.side x).verified.testBit w = true ∧
        Tab.at 0 (t.side x).used (worldSlot w) = u ∧ MemSame s t ∧ t.now = s.now ∧ t.dies = s.dies) ∧
  (∀ (s : State) (x : Side) (w : Fin 8),
    s.up x = true → (s.side x).chromirDown = false → s.worldState x w = 2 → s.imageInUse x (worldSlot w) = none →
    ∃ t, Sys2Proof.Machine.exec (.worldReady x w) s = .next t ∧
      t.worldState x w = 0 ∧ Only ((.side x, F.WOT_WORLD_STATE_STATE, w.val) :: logFields x) s t ∧ MemSame s t ∧ t.now = s.now ∧
        t.dies = s.dies) ∧
  (∀ (s : State) (x : Side) (w : Fin 8) (a : Nat) (e : Nat) (n : Nat),
    s.up x = true → (s.side x).chromirDown = false → (s.side x).cores = true → s.worldState x w = 2 →
      s.imageInUse x (worldSlot w) = some a → s.worldBody x w = some (e, n) →
      (n = 0 ∨ (s.staticRange x (s.get (.side x) F.WOT_WORLD_LOAD w) n w = true ∧ (inSram (s.get (.side x) F.WOT_WORLD_LOAD w) n = true ∨
          inDdr (s.get (.side x) F.WOT_WORLD_LOAD w) n = true))) →
    ∃ t, Sys2Proof.Machine.exec (.worldReady x w) s = .next t ∧
      t.worldState x w = 3 ∧ t.get (.side x) F.WOT_WORLD_STATE_MEASURED w = 1 ∧ Tab.at 0 (t.side x).kicks w = s.now ∧ t.now = s.now) ∧
  (∀ (s : State) (x : Side) (o : Origin) (w : Fin 8) (v : BitVec 32),
    s.Permits x o (0x40132100 + 0x1000 * w) 4 true → v.toNat.testBit 0 = true → s.worldState x w = 3 →
    ∃ t, Sys2Proof.Machine.exec (.wldKick x o w v) s = .next t ∧
      Tab.at 0 (t.side x).kicks w = s.now ∧ Only [] s t ∧ t.resp = .idle ∧ MemSame s t ∧ t.now = s.now ∧ t.dies = s.dies) ∧
  (∀ (s : State) (x : Side) (w : Fin 8) (d : Nat),
    s.up x = true → s.worldState x w = 3 → s.get (.side x) F.WOT_WORLD_CFG_WDOG w = d → d ≠ 0 →
      s.is (.side x) F.WOT_WORLD_CFG_ON_FAIL w = false →
    ∃ t, Sys2Proof.Machine.exec (.worldWatchdog x w) s = .next t ∧
      t.now = max s.now (Tab.at 0 (s.side x).kicks w + d * 1000000) ∧ t.worldState x w = 4 ∧
        t.get (.side x) F.WOT_WORLD_FAIL_COUNT 0 = (s.get (.side x) F.WOT_WORLD_FAIL_COUNT 0 + 1) % 2 ^ F.WOT_WORLD_FAIL_COUNT.width) ∧
  (∀ (s : State) (x : Side) (o : Origin) (v : BitVec 32),
    s.Permits x o 0x400D0038 4 true → v.toNat.testBit 0 = true → s.is (.side x) F.WOT_SYNC_BUSY 0 = false →
    ∃ t, Sys2Proof.Machine.exec (.wotSyncGo x o v) s = .next t ∧
      (t.side x).wotLive = s.dynRegions x ∧ t.get (.side x) F.WOT_SYNC_BUSY 0 = 1 ∧ Only [(.side x, F.WOT_SYNC_BUSY, 0)] s t ∧
        MemSame s t ∧ t.now = s.now ∧ t.dies = s.dies) ∧
  (∀ (s : State) (x : Side),
    ∃ t, Sys2Proof.Machine.exec (.wotSyncComplete x) s = .next t ∧
      t.get (.side x) F.WOT_SYNC_BUSY 0 = 0 ∧ Only [(.side x, F.WOT_SYNC_BUSY, 0)] s t ∧ t.side x = s.side x ∧ MemSame s t ∧
        t.now = s.now ∧ t.dies = s.dies) ∧
  (∀ (s : State) (x : Side) (e : Nat × Nat) (l : List (Nat × Nat)),
    s.recentSec x = e :: l → s.up x = true → s.ember.secLatch = false → max 1 (s.get (.side x) F.WOT_SEC_CFG_THRESH 0) ≤ l.length + 1 →
    ∃ t, Sys2Proof.Machine.exec (.securityLockdown x) s = .next t ∧
      t.ember.secLatch = true ∧ (t.side x).secEvents = [] ∧
        t.get (.side x) F.ASH_SEQ 0 = (s.get (.side x) F.ASH_SEQ 0 + 1) % 2 ^ F.ASH_SEQ.width ∧ Only (logFields x) s t ∧ MemSame s t ∧
        t.now = s.now ∧ t.dies = s.dies) ∧
  (∀ (s : State) (x : Side) (o : Origin) (v : BitVec 32),
    s.Permits x o 0x400D0008 4 true → v.toNat.testBit 0 = true → s.ember.secLatch = true →
    ∃ t, Sys2Proof.Machine.exec (.wotSecClear x o v) s = .next t ∧
      t.ember.secLatch = false ∧ Only (logFields x) s t ∧ MemSame s t ∧ t.now = s.now ∧ t.dies = s.dies) ∧
  (∀ (s : State) (x : Side) (o : Origin) (v : BitVec 32),
    s.Permits x o 0x40180004 4 true → v.toNat.testBit 0 = true → s.is (.side x) F.POKER_STATUS_UNLOCKED 0 = true →
    ∃ t, Sys2Proof.Machine.exec (.pokerRelock x o v) s = .next t ∧
      t.get (.side x) F.POKER_STATUS_UNLOCKED 0 = 0 ∧ t.get (.side x) F.POKER_STATUS_SCOPE 0 = 0 ∧ (t.side x).unlockEnd = none ∧
        (∀ h : Nat, h < 4 → (t.hart x h).halted = false) ∧ MemSame s t ∧ t.now = s.now ∧ t.dies = s.dies) ∧
  (∀ (s : State) (x : Side) (e : Nat),
    (s.side x).unlockEnd = some e → s.is (.side x) F.POKER_STATUS_UNLOCKED 0 = true →
    ∃ t, Sys2Proof.Machine.exec (.pokerUnlockExpiry x) s = .next t ∧
      t.now = max s.now e ∧ t.get (.side x) F.POKER_STATUS_UNLOCKED 0 = 0 ∧ t.get (.side x) F.POKER_STATUS_LEVEL 0 = 0 ∧
        (t.side x).unlockEnd = none ∧ MemSame s t) ∧
  (∀ (s : State) (x : Side) (h : Fin 5),
    s.up x = true → s.is (.side x) F.POKER_STATUS_UNLOCKED 0 = true → 2 ≤ s.get (.side x) F.POKER_STATUS_LEVEL 0 → h.val < 4 →
      (s.get (.side x) F.POKER_STATUS_SCOPE 0).testBit (s.get (.side x) F.WOT_HART_CURRENT h) = true →
    ∃ t, Sys2Proof.Machine.exec (.pokerHalt x h .halt) s = .next t ∧
      (t.hart x h) = { s.hart x h with halted := true, step := false } ∧ Only [] s t ∧ MemSame s t ∧ t.now = s.now ∧ t.dies = s.dies) ∧
  (∀ (s : State) (x : Side) (h : Fin 5),
    s.up x = true → s.is (.side x) F.POKER_STATUS_UNLOCKED 0 = true → 2 ≤ s.get (.side x) F.POKER_STATUS_LEVEL 0 → h.val < 4 →
    ∃ t, Sys2Proof.Machine.exec (.pokerHalt x h .resume) s = .next t ∧
      (t.hart x h) = { s.hart x h with halted := false, step := false } ∧ Only [] s t ∧ MemSame s t ∧ t.now = s.now ∧ t.dies = s.dies) ∧
  (∀ (s : State) (x : Side) (h : Fin 5),
    s.up x = true → s.is (.side x) F.POKER_STATUS_UNLOCKED 0 = true → 2 ≤ s.get (.side x) F.POKER_STATUS_LEVEL 0 → h.val < 4 →
      (s.hart x h).halted = true →
    ∃ t, Sys2Proof.Machine.exec (.pokerHalt x h .step) s = .next t ∧
      (t.hart x h) = { s.hart x h with step := true } ∧ Only [] s t ∧ MemSame s t ∧ t.now = s.now ∧ t.dies = s.dies) ∧
  (∀ (s : State) (x : Side),
    s.up x = true → s.is (.side x) F.POKER_STATUS_UNLOCKED 0 = true → 2 ≤ s.get (.side x) F.POKER_STATUS_LEVEL 0 →
      s.pairInScope x (s.get (.side x) F.POKER_STATUS_SCOPE 0) = true →
    ∃ t, Sys2Proof.Machine.exec (.pokerHalt x 4 .halt) s = .next t ∧
      (t.side x).pairHalted = true ∧ (t.side x).pairStep = 0 ∧ (t.side x).harts = (s.side x).harts ∧ Only [] s t ∧ MemSame s t ∧
        t.now = s.now ∧ t.dies = s.dies) ∧
  (∀ (s : State) (x : Side),
    s.up x = true → s.is (.side x) F.POKER_STATUS_UNLOCKED 0 = true → 2 ≤ s.get (.side x) F.POKER_STATUS_LEVEL 0 →
    ∃ t, Sys2Proof.Machine.exec (.pokerHalt x 4 .resume) s = .next t ∧
      (t.side x).pairHalted = false ∧ Only [] s t ∧ MemSame s t ∧ t.now = s.now ∧ t.dies = s.dies) ∧
  (∀ (s : State) (x : Side),
    s.up x = true → s.is (.side x) F.POKER_STATUS_UNLOCKED 0 = true → 2 ≤ s.get (.side x) F.POKER_STATUS_LEVEL 0 →
      (s.side x).pairHalted = true →
    ∃ t, Sys2Proof.Machine.exec (.pokerHalt x 4 .step) s = .next t ∧
      (t.side x).pairStep = 3 ∧ (t.side x).pairHalted = true ∧ Only [] s t ∧ MemSame s t ∧ t.now = s.now ∧ t.dies = s.dies) ∧
  (∀ (s : State) (x : Side) (h : Fin 5) (i : TapInstr),
    s.up x = true →
    ∃ t, Sys2Proof.Machine.exec (.pokerHalt x h (.instr i)) s = .next t ∧
      (t.side x).tapIr = (if s.is (.side x) F.POKER_STATUS_UNLOCKED 0 = true ∧ s.get (.side x) F.POKER_STATUS_LEVEL 0 = 3 then i else
          .bypass) ∧
        (t.side x).harts = (s.side x).harts ∧ Only [] s t ∧ MemSame s t ∧ t.now = s.now ∧ t.dies = s.dies) ∧
  (∀ (s : State) (x : Side) (h : Fin 5) (l : List Bool) (m : List Bool),
    s.up x = true → (s.side x).tapIr = .bypass →
    ∃ t, Sys2Proof.Machine.exec (.pokerHalt x h (.scan l m)) s = .next t ∧
      (t.side x).tapOut = (false :: l).take l.length ∧ (t.side x).tapCells = (s.side x).tapCells ∧ Only [] s t ∧ MemSame s t ∧
        t.now = s.now ∧ t.dies = s.dies) ∧
  (∀ (s : State) (x : Side) (h : Fin 5) (l : List Bool) (m : List Bool),
    s.up x = true → (s.side x).tapIr ≠ .bypass →
    ∃ t, Sys2Proof.Machine.exec (.pokerHalt x h (.scan l m)) s = .next t ∧
      (t.side x).tapOut = (m ++ l).take l.length ∧ (t.side x).tapCells = (m ++ l).drop l.length ∧ Only [] s t ∧ MemSame s t ∧
        t.now = s.now ∧ t.dies = s.dies)

/-- A GO of each operation while the key store is idle sets BUSY and latches operation, slot, attributes, addresses and length. The end
clears BUSY and latches source 92: with DONE and no ERRCODE, or with ERR and the code of the check that failed, 6 when its input holds
an uncorrectable word (a choice of the model, log entry 110). A tally boundary of a side counts and stamps its records, and writes them
between equal counts into the bank that follows and marks them done; a ring that does not lie aligned in SRAM is RING_ERR and is not
written. A counted event increments its counter or wraps it to 0 and sets its overflow bit. A read of a counter latches its chained
partner. ASH_SEL latches the four words of the entry. A permitted write to SRAM changes its bytes alone; a load answers them; LR, SC
and AMO reserve, store under the reservation, and combine; a register takes the value; a load that crosses into a page which lies
elsewhere takes its two parts; CSR 0xCC0 reads as the current world, and a write to it is an illegal instruction; an access that
translation or the PMP refuses takes the exception, one that the ownership checker refuses is a bus error, and neither writes. -/
def Obligations.KeysAndRecords : Prop :=
  (∀ (s : State) (x : Side) (o : Origin) (k : Fin 64),
    s.Permits x o 0x40140008 4 true → s.is (.side x) F.KEYS_OP_STATUS_BUSY 0 = false →
    ∃ t, Sys2Proof.Machine.exec (.keysInstall x o k) s = .next t ∧
      t.get (.side x) F.KEYS_OP_STATUS_BUSY 0 = 1 ∧
        (t.side x).keyOp = some [1, k.val, s.get (.side x) F.KEYS_OP_ATTR_OWNER 0, s.get (.side x) F.KEYS_OP_ATTR_TYPE 0, s.get (.side x)
            F.KEYS_OP_ATTR_USE 0, s.get (.side x) F.KEYS_OP_ADDR 0, s.get (.side x) F.KEYS_OP_OUT 0, s.get (.side x) F.KEYS_OP_LEN 0] ∧
        Only [(.side x, F.KEYS_OP_CTRL_SLOT, 0), (.side x, F.KEYS_OP_CTRL_OP, 0), (.side x, F.KEYS_OP_STATUS_BUSY, 0)] s t ∧
        t.resp = .idle ∧ MemSame s t ∧ t.now = s.now ∧ t.dies = s.dies) ∧
  (∀ (s : State) (x : Side) (o : Origin) (k : Fin 64),
    s.Permits x o 0x40140008 4 true → s.is (.side x) F.KEYS_OP_STATUS_BUSY 0 = false →
    ∃ t, Sys2Proof.Machine.exec (.keysBurn x o k) s = .next t ∧
      t.get (.side x) F.KEYS_OP_STATUS_BUSY 0 = 1 ∧
        (t.side x).keyOp = some [2, k.val, s.get (.side x) F.KEYS_OP_ATTR_OWNER 0, s.get (.side x) F.KEYS_OP_ATTR_TYPE 0, s.get (.side x)
            F.KEYS_OP_ATTR_USE 0, s.get (.side x) F.KEYS_OP_ADDR 0, s.get (.side x) F.KEYS_OP_OUT 0, s.get (.side x) F.KEYS_OP_LEN 0] ∧
        Only [(.side x, F.KEYS_OP_CTRL_SLOT, 0), (.side x, F.KEYS_OP_CTRL_OP, 0), (.side x, F.KEYS_OP_STATUS_BUSY, 0)] s t ∧
        t.resp = .idle ∧ MemSame s t ∧ t.now = s.now ∧ t.dies = s.dies) ∧
  (∀ (s : State) (x : Side) (o : Origin) (k : Fin 64),
    s.Permits x o 0x40140008 4 true → s.is (.side x) F.KEYS_OP_STATUS_BUSY 0 = false →
    ∃ t, Sys2Proof.Machine.exec (.keysRevoke x o k) s = .next t ∧
      t.get (.side x) F.KEYS_OP_STATUS_BUSY 0 = 1 ∧
        (t.side x).keyOp = some [3, k.val, s.get (.side x) F.KEYS_OP_ATTR_OWNER 0, s.get (.side x) F.KEYS_OP_ATTR_TYPE 0, s.get (.side x)
            F.KEYS_OP_ATTR_USE 0, s.get (.side x) F.KEYS_OP_ADDR 0, s.get (.side x) F.KEYS_OP_OUT 0, s.get (.side x) F.KEYS_OP_LEN 0] ∧
        Only [(.side x, F.KEYS_OP_CTRL_SLOT, 0), (.side x, F.KEYS_OP_CTRL_OP, 0), (.side x, F.KEYS_OP_STATUS_BUSY, 0)] s t ∧
        t.resp = .idle ∧ MemSame s t ∧ t.now = s.now ∧ t.dies = s.dies) ∧
  (∀ (s : State) (x : Side) (o : Origin) (k : Fin 64),
    s.Permits x o 0x40140008 4 true → s.is (.side x) F.KEYS_OP_STATUS_BUSY 0 = false →
    ∃ t, Sys2Proof.Machine.exec (.keysErase x o k) s = .next t ∧
      t.get (.side x) F.KEYS_OP_STATUS_BUSY 0 = 1 ∧
        (t.side x).keyOp = some [4, k.val, s.get (.side x) F.KEYS_OP_ATTR_OWNER 0, s.get (.side x) F.KEYS_OP_ATTR_TYPE 0, s.get (.side x)
            F.KEYS_OP_ATTR_USE 0, s.get (.side x) F.KEYS_OP_ADDR 0, s.get (.side x) F.KEYS_OP_OUT 0, s.get (.side x) F.KEYS_OP_LEN 0] ∧
        Only [(.side x, F.KEYS_OP_CTRL_SLOT, 0), (.side x, F.KEYS_OP_CTRL_OP, 0), (.side x, F.KEYS_OP_STATUS_BUSY, 0)] s t ∧
        t.resp = .idle ∧ MemSame s t ∧ t.now = s.now ∧ t.dies = s.dies) ∧
  (∀ (s : State) (x : Side) (o : Origin) (k : Fin 64),
    s.Permits x o 0x40140008 4 true → s.is (.side x) F.KEYS_OP_STATUS_BUSY 0 = false →
    ∃ t, Sys2Proof.Machine.exec (.keysCmac x o k) s = .next t ∧
      t.get (.side x) F.KEYS_OP_STATUS_BUSY 0 = 1 ∧
        (t.side x).keyOp = some [5, k.val, s.get (.side x) F.KEYS_OP_ATTR_OWNER 0, s.get (.side x) F.KEYS_OP_ATTR_TYPE 0, s.get (.side x)
            F.KEYS_OP_ATTR_USE 0, s.get (.side x) F.KEYS_OP_ADDR 0, s.get (.side x) F.KEYS_OP_OUT 0, s.get (.side x) F.KEYS_OP_LEN 0] ∧
        Only [(.side x, F.KEYS_OP_CTRL_SLOT, 0), (.side x, F.KEYS_OP_CTRL_OP, 0), (.side x, F.KEYS_OP_STATUS_BUSY, 0)] s t ∧
        t.resp = .idle ∧ MemSame s t ∧ t.now = s.now ∧ t.dies = s.dies) ∧
  (∀ (s : State) (x : Side) (o : Origin) (k : Fin 64),
    s.Permits x o 0x40140008 4 true → s.is (.side x) F.KEYS_OP_STATUS_BUSY 0 = false →
    ∃ t, Sys2Proof.Machine.exec (.keysSign x o k) s = .next t ∧
      t.get (.side x) F.KEYS_OP_STATUS_BUSY 0 = 1 ∧
        (t.side x).keyOp = some [6, k.val, s.get (.side x) F.KEYS_OP_ATTR_OWNER 0, s.get (.side x) F.KEYS_OP_ATTR_TYPE 0, s.get (.side x)
            F.KEYS_OP_ATTR_USE 0, s.get (.side x) F.KEYS_OP_ADDR 0, s.get (.side x) F.KEYS_OP_OUT 0, s.get (.side x) F.KEYS_OP_LEN 0] ∧
        Only [(.side x, F.KEYS_OP_CTRL_SLOT, 0), (.side x, F.KEYS_OP_CTRL_OP, 0), (.side x, F.KEYS_OP_STATUS_BUSY, 0)] s t ∧
        t.resp = .idle ∧ MemSame s t ∧ t.now = s.now ∧ t.dies = s.dies) ∧
  (∀ (s : State) (x : Side) (o : Origin) (k : Fin 64),
    s.Permits x o 0x40140008 4 true → s.is (.side x) F.KEYS_OP_STATUS_BUSY 0 = false →
    ∃ t, Sys2Proof.Machine.exec (.keysVerify x o k) s = .next t ∧
      t.get (.side x) F.KEYS_OP_STATUS_BUSY 0 = 1 ∧
        (t.side x).keyOp = some [7, k.val, s.get (.side x) F.KEYS_OP_ATTR_OWNER 0, s.get (.side x) F.KEYS_OP_ATTR_TYPE 0, s.get (.side x)
            F.KEYS_OP_ATTR_USE 0, s.get (.side x) F.KEYS_OP_ADDR 0, s.get (.side x) F.KEYS_OP_OUT 0, s.get (.side x) F.KEYS_OP_LEN 0] ∧
        Only [(.side x, F.KEYS_OP_CTRL_SLOT, 0), (.side x, F.KEYS_OP_CTRL_OP, 0), (.side x, F.KEYS_OP_STATUS_BUSY, 0)] s t ∧
        t.resp = .idle ∧ MemSame s t ∧ t.now = s.now ∧ t.dies = s.dies) ∧
  (∀ (s : State) (x : Side) (o : Origin) (k : Fin 64),
    s.Permits x o 0x40140008 4 true → s.is (.side x) F.KEYS_OP_STATUS_BUSY 0 = false →
    ∃ t, Sys2Proof.Machine.exec (.keysPublic x o k) s = .next t ∧
      t.get (.side x) F.KEYS_OP_STATUS_BUSY 0 = 1 ∧
        (t.side x).keyOp = some [8, k.val, s.get (.side x) F.KEYS_OP_ATTR_OWNER 0, s.get (.side x) F.KEYS_OP_ATTR_TYPE 0, s.get (.side x)
            F.KEYS_OP_ATTR_USE 0, s.get (.side x) F.KEYS_OP_ADDR 0, s.get (.side x) F.KEYS_OP_OUT 0, s.get (.side x) F.KEYS_OP_LEN 0] ∧
        Only [(.side x, F.KEYS_OP_CTRL_SLOT, 0), (.side x, F.KEYS_OP_CTRL_OP, 0), (.side x, F.KEYS_OP_STATUS_BUSY, 0)] s t ∧
        t.resp = .idle ∧ MemSame s t ∧ t.now = s.now ∧ t.dies = s.dies) ∧
  (∀ (s : State) (x : Side) (l : List Nat) (e : Nat) (lo : Option Word40) (co : Option Word40),
    (s.side x).keyOp = some l → s.keyHeld x l = false → e ≠ 7 →
      ((s.setSide x { s.side x with keyOp := none }).set (.side x) F.KEYS_OP_STATUS_BUSY 0 0).keyRun x l = .error e →
    ∃ t, Sys2Proof.Machine.exec (.keysOpComplete x lo co) s = .next t ∧
      (t.side x).keyOp = none ∧ t.get (.side x) F.KEYS_OP_STATUS_BUSY 0 = 0 ∧ t.get (.side x) F.KEYS_OP_STATUS_ERR 0 = 1 ∧
        t.get (.side x) F.KEYS_OP_STATUS_ERRCODE 0 = e % 2 ^ F.KEYS_OP_STATUS_ERRCODE.width ∧
        (t.get (.side x) F.INTR_PENDING 2).testBit 28 = true ∧
        Only [(.side x, F.KEYS_OP_STATUS_BUSY, 0), (.side x, F.KEYS_OP_STATUS_ERR, 0), (.side x, F.KEYS_OP_STATUS_ERRCODE, 0), (.side x,
            F.INTR_PENDING, 2)] s t ∧
        MemSame s t ∧ t.now = s.now ∧ t.dies = s.dies) ∧
  (∀ (s : State) (x : Side) (k : Nat) (l : List Nat) (lo : Option Word40) (co : Option Word40),
    (s.side x).keyOp = some (4 :: k :: l) → l.length = 6 → 40 ≤ k →
    ∃ t, Sys2Proof.Machine.exec (.keysOpComplete x lo co) s = .next t ∧
      t.get (.side x) F.KEYS_SLOT_VALID k = 0 ∧ Tab.at [] (t.side x).keyMat k = [] ∧ t.get (.side x) F.KEYS_OP_STATUS_BUSY 0 = 0 ∧
        t.get (.side x) F.KEYS_OP_STATUS_DONE 0 = 1 ∧ t.get (.side x) F.KEYS_OP_STATUS_ERRCODE 0 = 0 ∧
        (t.get (.side x) F.INTR_PENDING 2).testBit 28 = true ∧ MemSame s t ∧ t.now = s.now ∧ t.dies = s.dies) ∧
  (∀ (s : State) (x : Side) (l : List Nat) (lo : Option Word40) (co : Option Word40),
    (s.side x).keyOp = some l → s.keyHeld x l = false →
      keyHasRead (((s.setSide x { s.side x with keyOp := none }).set (.side x) F.KEYS_OP_STATUS_BUSY 0 0).keyRun x l) = true →
      s.ReadsLost x (keyInput l).1 (keyInput l).2 lo →
    ∃ t, Sys2Proof.Machine.exec (.keysOpComplete x lo co) s = .next t ∧
      (t.side x).keyOp = none ∧ (t.side x).keyMat = (s.side x).keyMat ∧ t.get (.side x) F.KEYS_OP_STATUS_BUSY 0 = 0 ∧
        t.get (.side x) F.KEYS_OP_STATUS_ERR 0 = 1 ∧ t.get (.side x) F.KEYS_OP_STATUS_ERRCODE 0 = 6 ∧
        (t.get (.side x) F.INTR_PENDING 2).testBit 28 = true ∧ MemSame s t ∧ t.now = s.now ∧ t.dies = s.dies) ∧
  (∀ (s : State) (x : Side),
    s.up x = true →
    ∃ t, Sys2Proof.Machine.exec (.tallyBoundary x) s = .next t ∧
      t.get (.side x) F.TALLY_SEQ 0 = (s.get (.side x) F.TALLY_SEQ 0 + 1) % 2 ^ F.TALLY_SEQ.width ∧
        t.get (.side x) F.TALLY_LAST_S 0 = secWord (s.boundary x) % 2 ^ 40 ∧
        t.get (.side x) F.TALLY_LAST_NS 0 = nsWord (s.boundary x) % 2 ^ 40 ∧ (t.side x).tallyFrom = s.boundary x ∧
        (∀ d : Nat, d < 4 → (s.tallyMissing x).contains d = false → Tab.at [] (t.die d).owed x.num = []) ∧ s.now ≤ t.now) ∧
  (∀ (s : State) (x : Side) (b : Nat),
    s.up x = true → s.get (.side x) F.TALLY_RING_BASE 0 = b → (b % 65536 ≠ 0 ∨ inSram b (s.tallyDepth x * 65536) = false) →
    ∃ t, Sys2Proof.Machine.exec (.tallyBoundary x) s = .next t ∧
      t.get (.side x) F.TALLY_STATUS_RING_ERR 0 = 1 ∧ t.get (.side x) F.TALLY_STATUS_RECORDS_DONE 0 = 0 ∧
        t.get (.side x) F.TALLY_STATUS_LOCAL_DONE 0 = 0 ∧ MemSame s t) ∧
  (∀ (s : State) (x : Side) (b : Nat) (a : Nat) (n : Nat),
    s.up x = true → s.get (.side x) F.TALLY_RING_BASE 0 = b → b % 65536 = 0 → inSram b (s.tallyDepth x * 65536) = true →
      (s.get (.side x) F.TALLY_SEQ 0 + 1) % 2 ^ F.TALLY_SEQ.width = n → b + n % s.tallyDepth x * 65536 = a →
      s.wotRange x a 65536 (s.get (.side x) F.TALLY_CFG_WORLD 0) 1 = true → s.mirLockedRange x a 65536 = false →
      s.engineWaits x a 65536 = false → (s.side x).tallyHeld = none →
    ∃ t, Sys2Proof.Machine.exec (.tallyBoundary x) s = .next t ∧
      t.get (.side x) F.TALLY_STATUS_RECORDS_DONE 0 = 1 ∧ t.get (.side x) F.TALLY_STATUS_LOCAL_DONE 0 = 1 ∧ t.loadLE x a 8 = n ∧
        t.loadLE x (a + 8) 8 = secWord (s.boundary x) ∧ t.loadLE x (a + 0x10) 8 = nsWord (s.boundary x) ∧ t.loadLE x (a + 0x38) 8 = n ∧
        (∀ b : Nat, b < 2 ^ 40 → (b < a ∨ a + 65536 ≤ b) → t.byte x b = s.byte x b)) ∧
  (∀ (s : State) (x : Side) (e : PerfEvent) (n : Nat) (c : Nat),
    s.fabric x = true → ownEvents.contains e.code.toNat = false → (List.range 48).filter (fun n => s.perfCounts x n e) = [n] →
      s.get (.side x) F.PERF_CNT n = c → c + 1 < 2 ^ 40 →
    ∃ t, Sys2Proof.Machine.exec (.perfCounterWrap x e) s = .next t ∧
      t.get (.side x) F.PERF_CNT n = c + 1 ∧ Only [(.side x, F.PERF_CNT, n)] s t ∧ t.side x = s.side x ∧ MemSame s t ∧ t.now = s.now ∧
        t.dies = s.dies) ∧
  (∀ (s : State) (x : Side) (e : PerfEvent) (n : Nat),
    s.fabric x = true → ownEvents.contains e.code.toNat = false → (List.range 48).filter (fun n => s.perfCounts x n e) = [n] → n < 32 →
      s.get (.side x) F.PERF_CNT n = 2 ^ 40 - 1 → ¬ (n % 2 = 0 ∧ s.perfChained x (n + 1) = true) →
      s.is (.side x) F.PERF_SEL_OVF_IRQ n = true →
    ∃ t, Sys2Proof.Machine.exec (.perfCounterWrap x e) s = .next t ∧
      t.get (.side x) F.PERF_CNT n = 0 ∧ (t.get (.side x) F.PERF_OVF_LO 0).testBit n = true ∧
        (t.get (.side x) F.INTR_PENDING 2).testBit 24 = true ∧ MemSame s t ∧ t.now = s.now ∧ t.dies = s.dies) ∧
  (∀ (s : State) (x : Side) (o : Origin) (n : Fin 48),
    s.Permits x o (0x40100100 + 0x20 * n) 8 false → n.val % 2 = 0 → s.perfChained x (n + 1) = true →
    ∃ t, Sys2Proof.Machine.exec (.perfCntRead x o n) s = .next t ∧
      t.resp = .data (s.get (.side x) F.PERF_CNT n) ∧
        t.get (.side x) F.PERF_LATCH n = s.get (.side x) F.PERF_CNT (n + 1) % 2 ^ F.PERF_LATCH.width ∧
        Only [(.side x, F.PERF_LATCH, n.val)] s t ∧ MemSame s t ∧ t.now = s.now ∧ t.dies = s.dies) ∧
  (∀ (s : State) (x : Side) (o : Origin) (v : BitVec 32),
    s.Permits x o 0x40120020 4 true →
    ∃ t, Sys2Proof.Machine.exec (.ashSelWrite x o v) s = .next t ∧
      t.get (.side x) F.ASH_SEL 0 = v.toNat % 4096 ∧
        [t.get (.side x) F.ASH_W 0, t.get (.side x) F.ASH_W 1, t.get (.side x) F.ASH_W 2, t.get (.side x) F.ASH_W 3] = (s.ashEntry x
            (v.toNat % 4096)).words.map (fun w => w % 2 ^ 40) ∧
        t.side x = (s.stepDone x o).side x ∧ MemSame s t ∧ t.now = s.now ∧ t.dies = s.dies) ∧
  (∀ (s : State) (x : Side) (h : Fin 4) (p : Word64) (v : Word64) (es : List Ecc) (a : Nat) (n : Nat) (z : Width),
    widthBytes z = n → s.translatesTo x h p.toNat true es a = true → p.toNat % 4096 + n ≤ 4096 → s.Permits x (.hart h) a n true →
      inSram a n = true → s.spanRefuses x (.hart h) a n true = false → s.mirLockedRange x a n = false →
      s.lockedHere x (.hart h) a n = false →
    ∃ t, Sys2Proof.Machine.exec (.registerWrite x (.hart h) p z .store v es) s = .next t ∧
      t.loadLE x a n = v.toNat % 2 ^ (8 * n) ∧ (∀ b : Nat, b < 2 ^ 40 → (b < a ∨ a + n ≤ b) → t.byte x b = s.byte x b) ∧
        (∀ b, t.byte x.other b = s.byte x.other b) ∧ Only (eccFields x) s t ∧ t.resp = .idle ∧ t.now = s.now) ∧
  (∀ (s : State) (x : Side) (o : Origin) (p : Word64) (v : Word64) (es : List Ecc) (a : Nat) (n : Nat) (z : Width),
    widthBytes z = n → coreOf o = none → p.toNat % 2 ^ 40 = a → s.Permits x o a n true → inSram a n = true →
      s.spanRefuses x o a n true = false → s.mirLockedRange x a n = false → s.lockedHere x o a n = false →
    ∃ t, Sys2Proof.Machine.exec (.registerWrite x o p z .store v es) s = .next t ∧
      t.loadLE x a n = v.toNat % 2 ^ (8 * n) ∧ (∀ b : Nat, b < 2 ^ 40 → (b < a ∨ a + n ≤ b) → t.byte x b = s.byte x b) ∧
        (∀ b, t.byte x.other b = s.byte x.other b) ∧ Only [] s t ∧ t.resp = .idle ∧ t.now = s.now) ∧
  (∀ (s : State) (x : Side) (h : Fin 4) (p : Word64) (v : Word64) (es : List Ecc) (a : Nat) (n : Nat) (z : Width),
    widthBytes z = n → s.translatesTo x h p.toNat false es a = true → p.toNat % 4096 + n ≤ 4096 → s.Permits x (.hart h) a n false →
      inSram a n = true → s.spanRefuses x (.hart h) a n false = false → s.lockedHere x (.hart h) a n = false →
    ∃ t, Sys2Proof.Machine.exec (.registerWrite x (.hart h) p z (.load .clean) v es) s = .next t ∧
      t.resp = .data (s.loadLE x a n) ∧ Only (eccFields x) s t ∧ MemSame s t ∧ t.now = s.now) ∧
  (∀ (s : State) (x : Side) (h : Fin 4) (p : Word64) (v : Word64) (es : List Ecc) (a : Nat) (n : Nat) (z : Width),
    widthBytes z = n → s.translatesTo x h p.toNat false es a = true → p.toNat % 4096 + n ≤ 4096 → s.Permits x (.hart h) a n false →
      inSram a n = true → s.spanRefuses x (.hart h) a n false = false → s.lockedHere x (.hart h) a n = false →
    ∃ t, Sys2Proof.Machine.exec (.registerWrite x (.hart h) p z (.load .lost) v es) s = .next t ∧
      t.resp = .error 7 ∧
        t.get (.side x) F.TALLY_ECC_SRAM_UNCORR 0 = (s.get (.side x) F.TALLY_ECC_SRAM_UNCORR 0 + 1) % 2 ^ F.TALLY_ECC_SRAM_UNCORR.width ∧
        MemSame s t ∧ t.now = s.now) ∧
  (∀ (s : State) (x : Side) (h : Fin 4) (p : Word64) (v : Word64) (es : List Ecc) (a : Nat) (n : Nat) (z : Width),
    widthBytes z = n → 4 ≤ n → s.translatesTo x h p.toNat false es a = true → p.toNat % 4096 + n ≤ 4096 →
      s.Permits x (.hart h) a n false → a % n = 0 → inSram a n = true → s.spanRefuses x (.hart h) a n false = false →
      s.lockedHere x (.hart h) a n = false → s.extIrq x h = false →
    ∃ t, Sys2Proof.Machine.exec (.registerWrite x (.hart h) p z (.lr .clean) v es) s = .next t ∧
      t.resp = .data (s.loadLE x a n) ∧ (t.hart x h).resv = some a ∧ Only (eccFields x) s t ∧ MemSame s t ∧ t.now = s.now) ∧
  (∀ (s : State) (x : Side) (h : Fin 4) (p : Word64) (v : Word64) (es : List Ecc) (a : Nat) (n : Nat) (z : Width),
    widthBytes z = n → 4 ≤ n → s.translatesTo x h p.toNat true es a = true → p.toNat % 4096 + n ≤ 4096 → s.Permits x (.hart h) a n true →
      a % n = 0 → inSram a n = true → s.spanRefuses x (.hart h) a n true = false → s.mirLockedRange x a n = false →
      s.lockedHere x (.hart h) a n = false → s.spanRefuses x (.hart h) a n false = false → (s.hart x h).resv = some a →
    ∃ t, Sys2Proof.Machine.exec (.registerWrite x (.hart h) p z .sc v es) s = .next t ∧
      t.loadLE x a n = v.toNat % 2 ^ (8 * n) ∧ t.resp = .data 0 ∧ (t.hart x h).resv = none ∧
        (∀ b : Nat, b < 2 ^ 40 → (b < a ∨ a + n ≤ b) → t.byte x b = s.byte x b) ∧ (∀ b, t.byte x.other b = s.byte x.other b) ∧
        Only (eccFields x) s t ∧ t.now = s.now) ∧
  (∀ (s : State) (x : Side) (h : Fin 4) (p : Word64) (v : Word64) (es : List Ecc) (a : Nat) (n : Nat) (z : Width),
    widthBytes z = n → 4 ≤ n → s.translatesTo x h p.toNat true es a = true → p.toNat % 4096 + n ≤ 4096 → s.Permits x (.hart h) a n true →
      a % n = 0 → inSram a n = true → s.spanRefuses x (.hart h) a n true = false → s.mirLockedRange x a n = false →
      s.lockedHere x (.hart h) a n = false → s.spanRefuses x (.hart h) a n false = false → (s.hart x h).resv ≠ some a →
    ∃ t, Sys2Proof.Machine.exec (.registerWrite x (.hart h) p z .sc v es) s = .next t ∧
      t.resp = .data 1 ∧ (t.hart x h).resv = none ∧ Only (eccFields x) s t ∧ MemSame s t ∧ t.now = s.now) ∧
  (∀ (s : State) (x : Side) (h : Fin 4) (p : Word64) (v : Word64) (es : List Ecc) (a : Nat) (n : Nat) (z : Width) (op : AmoOp),
    widthBytes z = n → 4 ≤ n → s.translatesTo x h p.toNat true es a = true → p.toNat % 4096 + n ≤ 4096 → s.Permits x (.hart h) a n true →
      a % n = 0 → inSram a n = true → s.spanRefuses x (.hart h) a n true = false → s.mirLockedRange x a n = false →
      s.lockedHere x (.hart h) a n = false → s.spanRefuses x (.hart h) a n false = false →
    ∃ t, Sys2Proof.Machine.exec (.registerWrite x (.hart h) p z (.amo op .clean) v es) s = .next t ∧
      t.loadLE x a n = amoValue op (8 * n) (s.loadLE x a n) (v.toNat % 2 ^ (8 * n)) % 2 ^ (8 * n) ∧ t.resp = .data (s.loadLE x a n) ∧
        (∀ b : Nat, b < 2 ^ 40 → (b < a ∨ a + n ≤ b) → t.byte x b = s.byte x b) ∧ (∀ b, t.byte x.other b = s.byte x.other b) ∧
        Only (eccFields x) s t ∧ t.now = s.now) ∧
  (∀ (s : State) (x : Side) (h : Fin 4) (p : Word64) (v : Word64) (es : List Ecc) (c : Nat),
    s.hartRuns x h = true → s.makes x (.hart h) 0 8 true = true → s.translateFails x h p.toNat true es c = true → s.extIrq x h = false →
      (s.hart x h).step = false →
    ∃ t, Sys2Proof.Machine.exec (.registerWrite x (.hart h) p .w64 .store v es) s = .next t ∧
      t.hart x h = (s.hart x h).trap (s.coreWorld x h) c 0 p.toNat (s.hart x h).pc ∧ Only (eccFields x) s t ∧ MemSame s t ∧
        t.now = s.now ∧ t.dies = s.dies) ∧
  (∀ (s : State) (x : Side) (h : Fin 4) (p : Word64) (v : Word64) (es : List Ecc),
    s.translatesTo x h p.toNat true es 0x40140018 = true → p.toNat % 4096 ≤ 4088 → s.Permits x (.hart h) 0x40140018 8 true →
    ∃ t, Sys2Proof.Machine.exec (.registerWrite x (.hart h) p .w64 .store v es) s = .next t ∧
      t.get (.side x) F.KEYS_OP_ADDR 0 = v.toNat % 2 ^ 40 ∧ Only ((.side x, F.KEYS_OP_ADDR, 0) :: eccFields x) s t ∧ t.resp = .idle ∧
        t.side x = { s.side x with harts := (t.side x).harts } ∧ MemSame s t ∧ t.now = s.now ∧ t.dies = s.dies) ∧
  (∀ (s : State) (x : Side) (h : Fin 4) (p : Word64) (v : Word64) (es : List Ecc) (a : Nat),
    s.translatesTo x h p.toNat true es a = true → p.toNat % 4096 ≤ 4088 → bridgeOf (placeOf a) = none →
      s.makes x (.hart h) a 8 true = true → s.pmpPasses x (.hart h) a 8 true = true → s.wotAllows x a (s.worldOf x (.hart h)) 1 = false →
    ∃ t, Sys2Proof.Machine.exec (.registerWrite x (.hart h) p .w64 .store v es) s = .next t ∧
      t.resp = .error 15 ∧ t.get (.side x) F.WOT_VIOL_COUNT 0 = (s.get (.side x) F.WOT_VIOL_COUNT 0 + 1) % 2 ^ F.WOT_VIOL_COUNT.width ∧
        t.get (.side x) F.WOT_STATUS_VIOL 0 = 1 ∧ (t.get (.side x) F.INTR_PENDING 2).testBit 29 = true ∧ MemSame s t ∧ t.now = s.now ∧
        t.dies = s.dies) ∧
  (∀ (s : State) (x : Side) (h : Fin 4) (p : Word64) (v : Word64) (es : List Ecc) (a : Nat),
    s.translatesTo x h p.toNat true es a = true → p.toNat % 4096 ≤ 4088 → bridgeOf (placeOf a) = none →
      s.makes x (.hart h) a 8 true = true → s.pmpPasses x (.hart h) a 8 true = false → s.extIrq x h = false → (s.hart x h).step = false →
    ∃ t, Sys2Proof.Machine.exec (.registerWrite x (.hart h) p .w64 .store v es) s = .next t ∧
      t.hart x h = (s.hart x h).trap (s.coreWorld x h) 7 0 a (s.hart x h).pc ∧ Only (eccFields x) s t ∧ MemSame s t ∧ t.now = s.now ∧
        t.dies = s.dies) ∧
  (∀ (s : State) (x : Side) (h : Fin 4) (p : Word64) (v : Word64) (a : Nat) (b : Nat) (n : Nat),
    s.translatesTo x h p.toNat false [] a = true → 4096 - p.toNat % 4096 = n → n < 8 →
      s.translatesTo x h ((p.toNat + n) % 2 ^ 64) false [] b = true → b ≠ a + n → s.Permits x (.hart h) a n false →
      s.Permits x (.hart h) b (8 - n) false → inSram a n = true → inSram b (8 - n) = true → s.spanRefuses x (.hart h) a n false = false →
      s.spanRefuses x (.hart h) b (8 - n) false = false → s.lockedHere x (.hart h) a n = false →
      s.lockedHere x (.hart h) b (8 - n) = false →
    ∃ t, Sys2Proof.Machine.exec (.registerWrite x (.hart h) p .w64 (.load .clean) v []) s = .next t ∧
      t.resp = .data (s.loadLE x a n + s.loadLE x b (8 - n) * 2 ^ (8 * n)) ∧ Only [] s t ∧ MemSame s t ∧ t.now = s.now) ∧
  (∀ (s : State) (x : Side) (h : Fin 4) (p : Word64) (v : Word64) (es : List Ecc),
    s.hartRuns x h = true → (s.hart x h).landing = none → s.makes x (.hart h) 0 4 false = true → p.toNat % 4096 = 0xCC0 →
    ∃ t, Sys2Proof.Machine.exec (.registerWrite x (.hart h) p .w64 .csrRead v es) s = .next t ∧
      t.resp = .data (s.worldCsr x h) ∧ Only [] s t ∧ MemSame s t ∧ t.now = s.now) ∧
  (∀ (s : State) (x : Side) (h : Fin 4) (p : Word64) (v : Word64) (es : List Ecc),
    s.hartRuns x h = true → (s.hart x h).landing = none → s.makes x (.hart h) 0 4 true = true → p.toNat % 4096 = 0xCC0 →
      s.extIrq x h = false → (s.hart x h).step = false →
    ∃ t, Sys2Proof.Machine.exec (.registerWrite x (.hart h) p .w64 .csrWrite v es) s = .next t ∧
      t.hart x h = (s.hart x h).trap (s.coreWorld x h) 2 0 (s.freeVal 32) (s.hart x h).pc ∧ Only [] s t ∧ MemSame s t ∧ t.now = s.now ∧
        t.dies = s.dies)

/-- If CS_N rises at an enabled port after whole words that are fewer than the packet's header and COUNT parameter words, the packet is
discarded: the receive FIFO is as before. STOKE_STATUS.UNDERRUN is set, STOKE_UNDERRUN_COUNT is one more, interrupt source 84 is
pending, and STATUS UNDERRUN stands in the status word of the next transaction and in LAST. -/
def Obligations.StokeUnderrun : Prop :=
  (∀ (s : State) (x : Side) (l : List Word40) (e : Fin 40) (w : List Nat),
    s.is (.side x) F.STOKE_STATUS_ACTIVE 0 = true → (s.side x).sdo ≠ [] → e.val = 0 → l.map (fun a => a.toNat) = w →
      w.headD 0xFFFFFFFFFF ≠ 0xFFFFFFFFFF → w.length < hdrCount (w.headD 0xFFFFFFFFFF) + 1 →
    ∃ t, Sys2Proof.Machine.exec (.stokeCsRise x l e) s = .next t ∧
      (t.src x 32).cmd = (s.src x 32).cmd ∧ t.get (.side x) F.STOKE_STATUS_UNDERRUN 0 = 1 ∧
        t.get (.side x) F.STOKE_UNDERRUN_COUNT 0 = (s.get (.side x) F.STOKE_UNDERRUN_COUNT 0 + 1) % 2 ^ F.STOKE_UNDERRUN_COUNT.width ∧
        (t.get (.side x) F.INTR_PENDING 2).testBit 20 = true ∧ bits (t.stokeWord x) 35 28 = stUnderrun ∧
        t.get (.side x) F.STOKE_STATUS_LAST 0 = stUnderrun ∧ MemSame s t ∧ t.dies = s.dies)

/-- If the whole words of a transaction hold a complete packet that is longer than the free words of the receive FIFO, the packet is
discarded: the receive FIFO is as before. STOKE_STATUS.FULL is set, STOKE_FULL_COUNT is one more, interrupt source 84 is pending, and
STATUS OVERRUN with REASON 1 stands in the status word of the next transaction. -/
def Obligations.StokeFull : Prop :=
  (∀ (s : State) (x : Side) (l : List Word40) (e : Fin 40) (w : List Nat),
    s.is (.side x) F.STOKE_STATUS_ACTIVE 0 = true → (s.side x).sdo ≠ [] → e.val = 0 → l.map (fun a => a.toNat) = w →
      w.headD 0xFFFFFFFFFF ≠ 0xFFFFFFFFFF → hdrCount (w.headD 0xFFFFFFFFFF) + 1 ≤ w.length →
      s.credits x 32 < hdrCount (w.headD 0xFFFFFFFFFF) + 1 →
    ∃ t, Sys2Proof.Machine.exec (.stokeCsRise x l e) s = .next t ∧
      (t.src x 32).cmd = (s.src x 32).cmd ∧ t.get (.side x) F.STOKE_STATUS_FULL 0 = 1 ∧
        t.get (.side x) F.STOKE_FULL_COUNT 0 = (s.get (.side x) F.STOKE_FULL_COUNT 0 + 1) % 2 ^ F.STOKE_FULL_COUNT.width ∧
        (t.get (.side x) F.INTR_PENDING 2).testBit 20 = true ∧ bits (t.stokeWord x) 35 28 = stOverrun ∧ bits (t.stokeWord x) 11 7 = 1 ∧
        MemSame s t ∧ t.dies = s.dies)

/-- The first Sync of an UNSET domain sets its time; an offset within the jump threshold in TRACK updates integ and adj by the servo, with
the reading continuous; a first one beyond it is refused: the clock is not set, HOLDOVER, PENDING with the offset, flagged and counted.
Three missing Sync intervals give HOLDOVER. GM_CHANGE takes the best master among the Announces in use; with none of them a module that
may be one is GRANDMASTER with no slave port. A Sync that failed validation is discarded. A grandmaster's Sync carries its transmit pin
instant, a relayed one the received origin with delay and residence added. A peer delay answer is the mean link delay; a lost one is
counted, and ten in a row end asCapable (log entry 115). A message sets an UNSET follower to the time of Bellows and steers a SYNCED
one toward it; one back from FREE slews within 1 us, else steps; none for 100 us loses the link and leaves it FREE. A read of the
nanosecond word latches its seconds word. A one-shot fires, and ends after its width; settings that wait take effect at the end of a
pulse. A capture stamps, counts and raises its source. -/
def Obligations.NetworkTime : Prop :=
  (∀ (s : State) (d : Fin 2) (p : Fin 15) (msg : SyncMsg) (off : Int),
    s.flueRuns = true → s.fb F.BLW_CFG_ENABLE d = true → s.ptpPort p = true → s.fg F.BLW_STATE_SLAVE_PORT d = p →
      msg.domainNumber.toNat = s.fg F.BLW_CFG_DOMAIN_NUMBER d → (s.protected_ p = true → msg.passed = true) →
      msg.stamp - (s.rxLat p : Int) / 1024 - (cutTime msg.origin + msg.correction / 64 + s.upstream p) = off →
      s.fg F.BLW_STATE_SERVO d = 0 → s.fb F.BLW_STATE_HOLDOVER d = false →
    ∃ t, Sys2Proof.Machine.exec (.ptpSyncRx d p msg) s = .next t ∧
      (t.dom d).clock.read t.now = (((s.dom d).clock.read s.now : Int) - off).toNat ∧ t.fg F.BLW_STATE_SERVO d = 1 ∧
        t.fg F.BLW_OFFSET d = ofSigned 40 (clampInt (-(2 ^ 39)) (2 ^ 39 - 1) (off / 1024)) ∧
        t.get .flue F.BLW_SYNC_RX_COUNT d = (s.get .flue F.BLW_SYNC_RX_COUNT d + 1) % 2 ^ F.BLW_SYNC_RX_COUNT.width ∧
        Only ([(.flue, F.BLW_SYNC_RX_COUNT, d.val), (.flue, F.BLW_OFFSET, d.val), (.flue, F.BLW_STATE_SERVO, d.val)] ++ logFields .a ++
            logFields .b) s t ∧
        t.dom (1 - d.val) = s.dom (1 - d.val) ∧ MemSame s t ∧ t.now = s.now ∧ t.dies = s.dies) ∧
  (∀ (s : State) (d : Fin 2) (p : Fin 15) (msg : SyncMsg) (off : Int) (r : Int × Int),
    s.flueRuns = true → s.fb F.BLW_CFG_ENABLE d = true → s.ptpPort p = true → s.fg F.BLW_STATE_SLAVE_PORT d = p →
      msg.domainNumber.toNat = s.fg F.BLW_CFG_DOMAIN_NUMBER d → (s.protected_ p = true → msg.passed = true) →
      msg.stamp - (s.rxLat p : Int) / 1024 - (cutTime msg.origin + msg.correction / 64 + s.upstream p) = off →
      s.fg F.BLW_STATE_SERVO d = 2 → off.natAbs ≤ s.fg F.BLW_JUMP_TH d * 1024 →
      servo (sigInt (s.fg F.BLW_KP d)) (sigInt (s.fg F.BLW_KI d)) (sigInt (s.fg F.BLW_INTEG d)) off = r →
    ∃ t, Sys2Proof.Machine.exec (.ptpSyncRx d p msg) s = .next t ∧
      t.fg F.BLW_INTEG d = ofSigned 40 r.1 % 2 ^ 40 ∧ t.fg F.BLW_ADJ d = ofSigned 40 r.2 % 2 ^ 40 ∧ (t.dom d).clock.adj = r.2 ∧
        (t.dom d).clock.read t.now = (s.dom d).clock.read s.now ∧ t.fg F.BLW_STATE_SERVO d = 2 ∧ t.fg F.BLW_STATE_PENDING d = 0 ∧
        t.fg F.BLW_STATE_RUN d = 0 ∧
        t.get .flue F.BLW_SYNC_RX_COUNT d = (s.get .flue F.BLW_SYNC_RX_COUNT d + 1) % 2 ^ F.BLW_SYNC_RX_COUNT.width ∧
        t.dom (1 - d.val) = s.dom (1 - d.val) ∧ MemSame s t ∧ t.now = s.now ∧ t.dies = s.dies) ∧
  (∀ (s : State) (d : Fin 2) (p : Fin 15) (msg : SyncMsg) (off : Int),
    s.flueRuns = true → s.fb F.BLW_CFG_ENABLE d = true → s.ptpPort p = true → s.fg F.BLW_STATE_SLAVE_PORT d = p →
      msg.domainNumber.toNat = s.fg F.BLW_CFG_DOMAIN_NUMBER d → (s.protected_ p = true → msg.passed = true) →
      msg.stamp - (s.rxLat p : Int) / 1024 - (cutTime msg.origin + msg.correction / 64 + s.upstream p) = off →
      s.fg F.BLW_STATE_SERVO d = 2 → s.fg F.BLW_JUMP_TH d * 1024 < off.natAbs → s.fb F.BLW_STATE_PENDING d = false →
      s.fb F.BLW_CFG_AUTO_STEP d = false →
    ∃ t, Sys2Proof.Machine.exec (.ptpSyncRx d p msg) s = .next t ∧
      (t.dom d).clock.read t.now = (s.dom d).clock.read s.now ∧ (t.dom d).clock.adj = -(sigInt (s.fg F.BLW_INTEG d)) ∧
        t.fg F.BLW_STATE_SERVO d = 3 ∧ t.fg F.BLW_STATE_LOCKED d = 0 ∧ t.fg F.BLW_STATE_PENDING d = 1 ∧
        t.fg F.BLW_PENDING d = ofSigned 40 (clampInt (-(2 ^ 39)) (2 ^ 39 - 1) (off / 1024)) ∧
        t.get .flue F.BLW_JUMP_REFUSED_COUNT d = (s.get .flue F.BLW_JUMP_REFUSED_COUNT d + 1) % 2 ^ F.BLW_JUMP_REFUSED_COUNT.width ∧
        t.fg F.BLW_EVT_JUMP_REFUSED d = 1 ∧ t.fg F.BLW_STEP_COUNT d = s.fg F.BLW_STEP_COUNT d ∧ t.dom (1 - d.val) = s.dom (1 - d.val) ∧
        MemSame s t ∧ t.now = s.now ∧ t.dies = s.dies) ∧
  (∀ (s : State) (d : Fin 2) (a : Nat),
    s.flueRuns = true → (s.dom d).syncAt = some a → s.fg F.BLW_STATE_SERVO d = 2 →
    ∃ t, Sys2Proof.Machine.exec (.syncTimeout d) s = .next t ∧
      t.now = max s.now (a + s.syncTimeoutNs (s.fg F.BLW_STATE_SLAVE_PORT d)) ∧ t.fg F.BLW_STATE_SERVO d = 3 ∧
        t.fg F.BLW_STATE_LOCKED d = 0 ∧
        t.get .flue F.BLW_SYNC_TIMEOUT_COUNT d = (s.get .flue F.BLW_SYNC_TIMEOUT_COUNT d + 1) % 2 ^ F.BLW_SYNC_TIMEOUT_COUNT.width ∧
        (t.dom d).clock.read t.now = (s.dom d).clock.read t.now ∧ MemSame s t) ∧
  (∀ (s : State) (d : Fin 2) (p : Fin 15) (msg : SyncMsg),
    s.protected_ p = true → msg.passed = false →
    ∃ t, Sys2Proof.Machine.exec (.ptpSyncRx d p msg) s = .next t ∧
      t = s) ∧
  (∀ (s : State) (d : Fin 2) (l : List Announce),
    s.flueRuns = true → s.fb F.BLW_CFG_ENABLE d = true → s.fb F.BLW_CFG_EXT_PORT d = false → s.fb F.BLW_CFG_GM_CAPABLE d = true →
      bestOf (l.filter (fun a => s.qualified d a)) = none → s.fb F.BLW_STATE_IS_GM d = false →
    ∃ t, Sys2Proof.Machine.exec (.gmChange d l) s = .next t ∧
      t.fg F.BLW_GM_ID_HI d = Config.clockIdentity.toNat / 2 ^ 32 ∧ t.fg F.BLW_GM_ID_LO d = Config.clockIdentity.toNat % 2 ^ 32 ∧
        t.fg F.BLW_STATE_IS_GM d = 1 ∧ t.fg F.BLW_STATE_SLAVE_PORT d = 31 ∧ t.fg F.BLW_STATE_SERVO d = 4 ∧
        t.get .flue F.BLW_GM_CHANGE_COUNT d = (s.get .flue F.BLW_GM_CHANGE_COUNT d + 1) % 2 ^ F.BLW_GM_CHANGE_COUNT.width ∧
        t.fg F.BLW_EVT_GM_CHANGE d = 1 ∧ (t.dom d).clock = (s.dom d).clock ∧ MemSame s t ∧ t.now = s.now ∧ t.dies = s.dies) ∧
  (∀ (s : State) (d : Fin 2) (l : List Announce) (a : Announce),
    s.flueRuns = true → s.fb F.BLW_CFG_ENABLE d = true → s.fb F.BLW_CFG_EXT_PORT d = false →
      bestOf (l.filter (fun a => s.qualified d a)) = some a →
      (s.fb F.BLW_CFG_GM_CAPABLE d = false ∨ better (s.ownVector d 0) (annVector a) = false) → s.fg F.BLW_STATE_SERVO d ≠ 4 →
    ∃ t, Sys2Proof.Machine.exec (.gmChange d l) s = .next t ∧
      t.fg F.BLW_GM_ID_HI d = a.gmId.toNat / 2 ^ 32 ∧ t.fg F.BLW_GM_ID_LO d = a.gmId.toNat % 2 ^ 32 ∧ t.fg F.BLW_STATE_IS_GM d = 0 ∧
        t.fg F.BLW_STATE_SLAVE_PORT d = a.port ∧ t.ptpRole d a.port = 2 ∧ t.fg F.BLW_STATE_SERVO d = s.fg F.BLW_STATE_SERVO d ∧
        t.dom d = s.dom d ∧ MemSame s t ∧ t.now = s.now ∧ t.dies = s.dies) ∧
  (∀ (s : State) (d : Fin 2) (l : List Announce),
    s.fb F.BLW_CFG_GM_CAPABLE d = false → bestOf (l.filter (fun a => s.qualified d a)) = none →
    ∃ t, Sys2Proof.Machine.exec (.gmChange d l) s = .next t ∧
      t = s) ∧
  (∀ (s : State) (d : Fin 2) (p : Fin 15) (g : Word40) (pin : Int),
    s.flueRuns = true → s.fb F.BLW_CFG_ENABLE d = true → s.ptpPort p = true → s.ptpRole d p = 1 → s.protected_ p = false →
      s.fg F.BLW_STATE_SERVO d = 4 → ((s.blwTime d / secTicks * secTicks + g.toNat : Nat) : Int) + (s.txLat p / 1024 : Nat) = pin →
    ∃ t, Sys2Proof.Machine.exec (.ptpSyncTx d p g) s = .next t ∧
      (t.dom d).sent.map (fun m => (m.port, m.oneStep, m.origin, m.corr)) = some (p.val, s.fb F.BLW_PCFG_ONE_STEP p, (pin / 1024).toNat,
          pin % 1024 * 64) ∧
        (t.dom d).sent.map (fun m => m.followUp.isNone) = some (s.fb F.BLW_PCFG_ONE_STEP p) ∧ (t.dom d).clock = (s.dom d).clock ∧
        (t.dom d).seq = (s.dom d).seq + 1 ∧ t.dom (1 - d.val) = s.dom (1 - d.val) ∧
        Only [(.flue, F.PORT_CNT, p * 35 + 20), (.flue, F.PORT_CNT, p * 35 + 21)] s t ∧ t.sa = s.sa ∧ t.sb = s.sb ∧ MemSame s t ∧
        t.now = s.now ∧ t.dies = s.dies) ∧
  (∀ (s : State) (d : Fin 2) (p : Fin 15) (g : Word40) (pin : Int) (k : Int) (z : Nat),
    s.flueRuns = true → s.fb F.BLW_CFG_ENABLE d = true → s.ptpPort p = true → s.ptpRole d p = 1 → s.protected_ p = false →
      s.fg F.BLW_STATE_SERVO d ≠ 4 → (s.dom d).syncAt = some z →
      ((s.blwTime d / secTicks * secTicks + g.toNat : Nat) : Int) + (s.txLat p / 1024 : Nat) = pin →
      (s.upstream (s.fg F.BLW_STATE_SLAVE_PORT d) + (pin - (s.dom d).rxPin)) * 64 = k →
    ∃ t, Sys2Proof.Machine.exec (.ptpSyncTx d p g) s = .next t ∧
      (t.dom d).sent.map (fun m => (m.port, m.oneStep, m.origin, m.corr)) = some (p.val, s.fb F.BLW_PCFG_ONE_STEP p && (s.dom d).oneStep,
          ((s.dom d).origin / 1024).toNat, (s.dom d).corr + k + k * toSigned 32 (s.freeVal 32) / 2 ^ 41) ∧
        (t.dom d).clock = (s.dom d).clock ∧ (t.dom d).seq = (s.dom d).seq + 1 ∧ t.dom (1 - d.val) = s.dom (1 - d.val) ∧
        Only [(.flue, F.PORT_CNT, p * 35 + 20), (.flue, F.PORT_CNT, p * 35 + 21)] s t ∧ t.sa = s.sa ∧ t.sb = s.sb ∧ MemSame s t ∧
        t.now = s.now ∧ t.dies = s.dies) ∧
  (∀ (s : State) (p : Fin 15) (v : PdelayResp),
    s.flueRuns = true → s.ptpPort p = true → p.val < 14 →
    ∃ t, Sys2Proof.Machine.exec (.pdelayExchange p (some v)) s = .next t ∧
      t.fg F.BLW_MEAN_DELAY p = v.delay.toNat ∧
        t.fg F.BLW_PSTATUS_AS_CAPABLE p = b2n (decide (v.responder ≠ Config.clockIdentity ∧ v.delay.toNat ≤ 800 * q20)) ∧
        Tab.at 0 t.flue.pdelayLost p = 0 ∧ Only [(.flue, F.BLW_MEAN_DELAY, p.val), (.flue, F.BLW_PSTATUS_AS_CAPABLE, p.val)] s t ∧
        t.sa = s.sa ∧ t.sb = s.sb ∧ t.flue = { s.flue with pdelayLost := t.flue.pdelayLost } ∧ MemSame s t ∧ t.now = s.now ∧
        t.dies = s.dies) ∧
  (∀ (s : State) (p : Fin 15),
    s.flueRuns = true → s.ptpPort p = true → p.val < 14 →
    ∃ t, Sys2Proof.Machine.exec (.pdelayExchange p none) s = .next t ∧
      t.get .flue F.BLW_PDELAY_LOST_COUNT p = (s.get .flue F.BLW_PDELAY_LOST_COUNT p + 1) % 2 ^ F.BLW_PDELAY_LOST_COUNT.width ∧
        Tab.at 0 t.flue.pdelayLost p = min 10 (Tab.at 0 s.flue.pdelayLost p + 1) ∧
        t.fg F.BLW_PSTATUS_AS_CAPABLE p = (if 9 ≤ Tab.at 0 s.flue.pdelayLost p then 0 else s.fg F.BLW_PSTATUS_AS_CAPABLE p) ∧
        Only [(.flue, F.BLW_PDELAY_LOST_COUNT, p.val), (.flue, F.BLW_PSTATUS_AS_CAPABLE, p.val)] s t ∧
        t.flue = { s.flue with pdelayLost := t.flue.pdelayLost } ∧ MemSame s t ∧ t.now = s.now ∧ t.dies = s.dies) ∧
  (∀ (s : State) (x : Side),
    s.flueRuns = true → s.fabric x = true → s.domState x 0 = 0 → s.domState x 1 = 0 → s.fg F.BLW_STATE_SERVO 0 ≠ 0 →
      s.fg F.BLW_STATE_SERVO 1 ≠ 0 →
    ∃ t, Sys2Proof.Machine.exec (.timeLinkMessage x) s = .next t ∧
      (∀ d : Nat, d < 2 → t.domTime x d = s.blwTime d ∧ t.domState x d = 1) ∧ t.get (.side x) F.TIME_STATUS_LINK_UP 0 = 1 ∧
        (t.side x).lastMsg = some s.now ∧ t.get (.side x) F.TIME_D0_STEP_SEQ 0 = s.get (.side x) F.TIME_D0_STEP_SEQ 0 ∧
        t.get (.side x) F.TIME_D1_STEP_SEQ 0 = s.get (.side x) F.TIME_D1_STEP_SEQ 0 ∧ MemSame s t ∧ t.now = s.now ∧ t.dies = s.dies) ∧
  (∀ (s : State) (x : Side),
    s.flueRuns = true → s.fabric x = true →
      (∀ d : Nat, d < 2 → s.domState x d = 1 ∧ s.fg F.BLW_STATE_SERVO d ≠ 0 ∧ (s.dom d).stepA = false ∧ (s.dom d).stepB = false ∧ (s.clock
          x d).ppm ≠ 50) →
    ∃ t, Sys2Proof.Machine.exec (.timeLinkMessage x) s = .next t ∧
      (∀ d : Nat, d < 2 → t.clock x d = ⟨s.domTime x d, s.now, (s.dom d).clock.adj, (s.blwTime d : Int) - s.domTime x d, 20000⟩ ∧
          t.domState x d = 1) ∧
        t.get (.side x) F.TIME_D0_STEP_SEQ 0 = s.get (.side x) F.TIME_D0_STEP_SEQ 0 ∧ MemSame s t ∧ t.now = s.now ∧ t.dies = s.dies) ∧
  (∀ (s : State) (x : Side),
    s.flueRuns = true → s.fabric x = true →
      (∀ d : Nat, d < 2 → s.domState x d = 2 ∧ s.fg F.BLW_STATE_SERVO d ≠ 0 ∧ ((s.blwTime d : Int) - s.domTime x d).natAbs ≤ 1000 * 1024) →
    ∃ t, Sys2Proof.Machine.exec (.timeLinkMessage x) s = .next t ∧
      (∀ d : Nat, d < 2 → t.clock x d = ⟨s.domTime x d, s.now, (s.dom d).clock.adj, (s.blwTime d : Int) - s.domTime x d, 50⟩ ∧ t.domState x
          d = 1) ∧
        t.get (.side x) F.TIME_D0_STEP_SEQ 0 = s.get (.side x) F.TIME_D0_STEP_SEQ 0 ∧
        t.get (.side x) F.TIME_D1_STEP_SEQ 0 = s.get (.side x) F.TIME_D1_STEP_SEQ 0 ∧ MemSame s t ∧ t.now = s.now ∧ t.dies = s.dies) ∧
  (∀ (s : State) (x : Side),
    s.flueRuns = true → s.fabric x = true →
      (∀ d : Nat, d < 2 → s.domState x d = 2 ∧ s.fg F.BLW_STATE_SERVO d ≠ 0 ∧ 1000 * 1024 < ((s.blwTime d : Int) - s.domTime x d).natAbs) →
    ∃ t, Sys2Proof.Machine.exec (.timeLinkMessage x) s = .next t ∧
      (∀ d : Nat, d < 2 → t.domTime x d = s.blwTime d ∧ t.domState x d = 1) ∧
        t.get (.side x) F.TIME_D0_STEP_SEQ 0 = (s.get (.side x) F.TIME_D0_STEP_SEQ 0 + 1) % 2 ^ F.TIME_D0_STEP_SEQ.width ∧
        t.get (.side x) F.TIME_D1_STEP_SEQ 0 = (s.get (.side x) F.TIME_D1_STEP_SEQ 0 + 1) % 2 ^ F.TIME_D1_STEP_SEQ.width ∧
        t.get (.side x) F.TIME_EVT_STEP 0 = 1 ∧ (t.get (.side x) F.INTR_PENDING 2).testBit 16 = true ∧ MemSame s t ∧ t.now = s.now ∧
        t.dies = s.dies) ∧
  (∀ (s : State) (x : Side) (a : Nat),
    s.fabric x = true → (s.side x).lastMsg = some a → s.is (.side x) F.TIME_STATUS_LINK_UP 0 = true →
    ∃ t, Sys2Proof.Machine.exec (.timeLinkLost x) s = .next t ∧
      t.now = max s.now (a + 100000) ∧ t.get (.side x) F.TIME_STATUS_LINK_UP 0 = 0 ∧
        (∀ d : Nat, d < 2 → t.domState x d = (if s.domState x d = 1 then 2 else s.domState x d)) ∧
        t.get (.side x) F.TIME_LINK_LOST_COUNT 0 = (s.get (.side x) F.TIME_LINK_LOST_COUNT 0 + 1) % 2 ^ F.TIME_LINK_LOST_COUNT.width ∧
        t.get (.side x) F.TIME_EVT_LINK_LOST 0 = 1 ∧ (t.get (.side x) F.INTR_PENDING 2).testBit 16 = true ∧
        (t.side x).clocks = (s.side x).clocks ∧ MemSame s t) ∧
  (∀ (s : State) (x : Side) (o : Origin) (d : Fin 2),
    s.Permits x o (0x400C0010 + 0x10 * d) 8 false →
    ∃ t, Sys2Proof.Machine.exec (.timeNsRead x o d) s = .next t ∧
      t.resp = .data (nsWord (s.domTime x d)) ∧
        t.get (.side x) (if d = 0 then F.TIME_D0_LATCH_S else F.TIME_D1_LATCH_S) 0 = secWord (s.domTime x d) % 2 ^ 40 ∧
        Only [(.side x, if d = 0 then F.TIME_D0_LATCH_S else F.TIME_D1_LATCH_S, 0)] s t ∧ t.side x = (s.stepDone x o).side x ∧
        MemSame s t ∧ t.now = s.now ∧ t.dies = s.dies) ∧
  (∀ (s : State) (x : Side) (n : Fin 4) (a : Nat) (d : Nat),
    s.fabric x = true → Tab.at 0 (s.side x).tpoNext n = a + 1 → (s.side x).tpoLevel.testBit n = false →
      s.get (.side x) F.TPO_CTRL_DOMAIN n = d →
    ∃ t, Sys2Proof.Machine.exec (.tpoEdge x n) s = .next t ∧
      t.now = max s.now (s.now + ceilDiv (a * 1024 - s.domTime x d) 1024) ∧ (t.side x).tpoLevel.testBit n = true ∧
        Tab.at 0 (t.side x).tpoNext n = a + s.get (.side x) F.TPO_WIDTH n + 1 ∧
        t.get (.side x) F.TPO_CTRL_DONE n = (if s.get (.side x) F.TPO_PERIOD n = 0 then 1 else s.get (.side x) F.TPO_CTRL_DONE n) ∧
        Only [(.side x, F.TPO_CTRL_DONE, n.val)] s t ∧ MemSame s t) ∧
  (∀ (s : State) (x : Side) (n : Fin 4) (a : Nat),
    s.fabric x = true → Tab.at 0 (s.side x).tpoNext n = a + 1 → (s.side x).tpoLevel.testBit n = true →
      Tab.at [] (s.side x).tpoNew n = [] → s.get (.side x) F.TPO_PERIOD n = 0 →
    ∃ t, Sys2Proof.Machine.exec (.tpoEdge x n) s = .next t ∧
      (t.side x).tpoLevel.testBit n = false ∧ Tab.at 0 (t.side x).tpoNext n = 0 ∧ Only [] s t ∧ MemSame s t) ∧
  (∀ (s : State) (x : Side) (n : Fin 4) (a : Nat) (p1 : Nat) (p2 : Nat) (p3 : Nat) (p4 : Nat) (p5 : Nat),
    s.fabric x = true → Tab.at 0 (s.side x).tpoNext n = a + 1 → (s.side x).tpoLevel.testBit n = true →
      Tab.at [] (s.side x).tpoNew n = [p1, p2, p3, p4, p5] →
    ∃ t, Sys2Proof.Machine.exec (.tpoEdge x n) s = .next t ∧
      Tab.at [] (t.side x).tpoNew n = [] ∧ t.get (.side x) F.TPO_PERIOD n = p3 % 2 ^ F.TPO_PERIOD.width ∧
        t.get (.side x) F.TPO_WIDTH n = p4 % 2 ^ F.TPO_WIDTH.width ∧ t.get (.side x) F.TPO_CTRL_INVERT n = bits p5 1 1 ∧
        t.get (.side x) F.TPO_CTRL_ENABLE n = bits p5 0 0 ∧ MemSame s t) ∧
  (∀ (s : State) (x : Side) (n : Fin 4) (b : Bool) (e : Nat) (c : Nat),
    s.fabric x = true → s.get (.side x) F.TCI_CFG_EDGE n = e → e.testBit (if b then 0 else 1) = true →
      (Tab.at 0 (s.side x).tciAt n = 0 ∨ Tab.at 0 (s.side x).tciAt n + 99 ≤ s.now) →
      s.domTime x (s.get (.side x) F.TCI_CFG_DOMAIN n) = c →
    ∃ t, Sys2Proof.Machine.exec (.tciCapture x n b) s = .next t ∧
      t.get (.side x) F.TCI_LAST_S n = secWord c % 2 ^ 40 ∧ t.get (.side x) F.TCI_LAST_NS n = nsWord c / 1024 * 1024 % 2 ^ 40 ∧
        t.get (.side x) F.TCI_STATUS_COUNT n = min 65535 (s.get (.side x) F.TCI_STATUS_COUNT n + 1) ∧
        t.get (.side x) F.TCI_STATUS_OVERFLOW n = (if s.get (.side x) F.TCI_STATUS_COUNT n = 0 then s.get (.side x) F.TCI_STATUS_OVERFLOW n
            else 1) ∧
        t.get (.side x) F.TCI_CAPTURE_COUNT n = (s.get (.side x) F.TCI_CAPTURE_COUNT n + 1) % 2 ^ F.TCI_CAPTURE_COUNT.width ∧
        (t.get (.side x) F.INTR_PENDING 2).testBit (12 + n.val) = true ∧ MemSame s t ∧ t.now = s.now ∧ t.dies = s.dies)

/-- A bad frame with cells free is counted and kept nowhere. A good one of a member port with an unknown unicast source is learned; a good
one whose destination is one other port joins that port's queue of its traffic class, is counted, and no other queue changes. An
eligible head frame leaves its queue, is counted, and holds the port for its time. A database GO of the holder of the net token
inserts, deletes, looks up or flushes with its RESULT; without the token the database is as before. Ageing removes dynamic entries as
old as AGE. A shaper cycle updates each shaped credit and no other. A gate without ENABLE stops; a valid list starts a cycle. A
recovery stream that times out starts afresh. A kick of the frame interface sends the owned descriptor's frame into the switch and
returns it. -/
def Obligations.SwitchCore : Prop :=
  (∀ (s : State) (p : Fin 17) (f : EthFrame) (m : List (Fin 17 × Nat)) (b : List Nat),
    s.flueRuns = true → s.portUp p = true → ethNats f = b →
      ((s.drawCells (s.cellWants [(p, f)] (m.filter (fun g => [(p, f)].all (fun e => e.1 != g.1))))).arriving p).lost = 0 →
      f.good = false →
    ∃ t, Sys2Proof.Machine.exec (.frameReceive p f [] m) s = .next t ∧
      t.get .flue F.PORT_CNT (p * 35 + 2) = (s.get .flue F.PORT_CNT (p * 35 + 2) + 1) % 2 ^ F.PORT_CNT.width ∧
        Only [(.flue, F.PORT_CNT, p * 35 + 2)] s t ∧ t.flue.queues = s.flue.queues ∧ t.flue.fdb = s.flue.fdb ∧ t.sa = s.sa ∧
        t.sb = s.sb ∧ MemSame s t ∧ t.now = s.now ∧ t.dies = s.dies) ∧
  (∀ (s : State) (p : Fin 17) (f : EthFrame) (m : List (Fin 17 × Nat)) (b : List Nat) (k : Nat) (i : Nat) (c : Classified),
    s.flueRuns = true → s.portUp p = true → ethNats f = b →
      ((s.drawCells (s.cellWants [(p, f)] (m.filter (fun g => [(p, f)].all (fun e => e.1 != g.1))))).arriving p).lost = 0 →
      f.good = true → 64 ≤ b.length + 4 → b.length + 4 ≤ s.fg F.PORT_MAXFRAME p → s.protected_ p = false → s.classify p b = c →
      s.filterOf p c = none → s.fg F.PORT_CFG_ACCEPT p = 0 → (s.fg F.FDB_VLAN_MEMBER c.vid).testBit p = true → isGptp b = false →
      s.fb F.PORT_CFG_LEARN p = true → s.fb F.MIR_CFG_ENABLE 0 = false → s.fb F.MIR_CFG_ENABLE 1 = false →
      isGroup (frameSa c.bytes) = false → s.fdbFind (frameSa c.bytes) c.vid = none → s.fdbPlace (frameSa c.bytes) c.vid = some (k, i) →
    ∃ t, Sys2Proof.Machine.exec (.frameReceive p f [] m) s = .next t ∧
      t.flue.fdb = s.flue.fdb ++ [⟨k, i, frameSa c.bytes, c.vid, 2 ^ p.val, false, s.now⟩] ∧ t.fg F.FDB_STATUS_REFUSING 0 = 0 ∧
        t.sa = s.sa ∧ t.sb = s.sb ∧ MemSame s t ∧ t.now = s.now ∧ t.dies = s.dies) ∧
  (∀ (s : State) (p : Fin 17) (e : Fin 17) (f : EthFrame) (m : List (Fin 17 × Nat)) (b : List Nat) (k : Nat) (l : Nat) (c : Classified),
    s.flueRuns = true → s.portUp p = true → ethNats f = b →
      ((s.drawCells (s.cellWants [(p, f)] (m.filter (fun g => [(p, f)].all (fun e => e.1 != g.1))))).arriving p).lost = 0 →
      f.good = true → 64 ≤ b.length + 4 → b.length + 4 ≤ s.fg F.PORT_MAXFRAME p → s.protected_ p = false → s.classify p b = c →
      s.filterOf p c = none → s.fg F.PORT_CFG_ACCEPT p = 0 → (s.fg F.FDB_VLAN_MEMBER c.vid).testBit p = true → isGptp b = false →
      s.fb F.PORT_CFG_LEARN p = false → s.fb F.MIR_CFG_ENABLE 0 = false → s.fb F.MIR_CFG_ENABLE 1 = false →
      s.lookup s.flue.fdb p c = (2 ^ e.val, false) → s.tcOf p c.pcp = k → s.inColour p c = l →
      (s.queue e k).all (fun q => q.id != s.flue.nextId) = true → s.depth e k < s.fg F.PORT_Q_MAX (8 * e + k) →
      (s.wred e k l).1 = false → s.oversize e k ⟨s.flue.nextId, c.bytes, c.vid, c.pcp, c.dei, l, false⟩ = false →
    ∃ t, Sys2Proof.Machine.exec (.frameReceive p f [] m) s = .next t ∧
      t.queue e k = s.queue e k ++ [⟨s.flue.nextId, c.bytes, c.vid, c.pcp, c.dei, l, false⟩] ∧
        (∀ j : Nat, j < 136 → j ≠ 8 * e + k → Tab.at [] t.flue.queues j = Tab.at [] s.flue.queues j) ∧
        t.get .flue F.PORT_CNT (p * 35) = (s.get .flue F.PORT_CNT (p * 35) + 1) % 2 ^ F.PORT_CNT.width ∧
        t.get .flue F.PORT_CNT (p * 35 + 1) = (s.get .flue F.PORT_CNT (p * 35 + 1) + c.len) % 2 ^ F.PORT_CNT.width ∧
        Only [(.flue, F.PORT_CNT, p * 35), (.flue, F.PORT_CNT, p * 35 + 1)] s t ∧ t.flue.fdb = s.flue.fdb ∧ t.sa = s.sa ∧ t.sb = s.sb ∧
        MemSame s t ∧ t.now = s.now ∧ t.dies = s.dies) ∧
  (∀ (s : State) (p : Fin 17) (k : Fin 8) (q : QFrame) (l : List QFrame) (lo : Option Word40) (co : Option Word40),
    s.flueRuns = true → s.portUp p = true → p.val < 15 → Tab.at 0 s.flue.txUntil p ≤ s.now →
      [7, 6, 5, 4, 3, 2, 1, 0].find? (fun t => s.eligible p t || s.headOversize p t) = some k.val → s.oversize p k q = false →
      s.queue p k = q :: l → s.flue.cells.any (fun c => c.id == q.id && decide (15 ≤ c.port)) = false → s.protected_ p = false →
      s.fb F.MIR_CFG_ENABLE 0 = false → s.fb F.MIR_CFG_ENABLE 1 = false →
    ∃ t, Sys2Proof.Machine.exec (.egressSelect p lo co) s = .next t ∧
      t.queue p k = l ∧ t.get .flue F.PORT_CNT (p * 35 + 20) = (s.get .flue F.PORT_CNT (p * 35 + 20) + 1) % 2 ^ F.PORT_CNT.width ∧
        t.get .flue F.PORT_CNT (p * 35 + 21) = (s.get .flue F.PORT_CNT (p * 35 + 21) + max 60 (s.egressBytes p q).length + 4) % 2 ^
            F.PORT_CNT.width ∧
        Tab.at 0 t.flue.txUntil p = s.now + s.wireNs p (s.egressBytes p q).length ∧ Tab.at 0 t.flue.txQueue p = k.val + 1 ∧
        Only [(.flue, F.PORT_CNT, p * 35 + 20), (.flue, F.PORT_CNT, p * 35 + 21)] s t ∧ t.sa = s.sa ∧ t.sb = s.sb ∧ MemSame s t ∧
        t.now = s.now ∧ t.dies = s.dies) ∧
  (∀ (s : State) (x : Side) (o : Origin) (m : Nat) (v : Nat) (k : Nat) (i : Nat),
    s.Permits x o (fdbAddr 0x110) 4 true → s.farPresent x 1 = true → s.present .flue = true → (s.bridge x 1).txns = [] →
      (s.bridge x 1).near = [] → s.holds x 4 = true → s.fdbKey = (m, v) → v ≠ 0 → v ≠ 4095 →
      (isGroup m = true ∨ popCount 17 (s.fg F.FDB_CMD_PORTS_PORTS 0) = 1) → s.fdbFind m v = none → s.fdbPlace m v = some (k, i) →
    ∃ t, Sys2Proof.Machine.exec (.fdbInsertStatic x o) s = .next t ∧
      t.flue.fdb = s.flue.fdb ++ [⟨k, i, m, v, s.fg F.FDB_CMD_PORTS_PORTS 0, true, s.now⟩] ∧ t.fg F.FDB_CMD_STATUS_RESULT 0 = 0 ∧
        t.get (.side x) F.BRIDGE_WRITE_COUNT 1 = (s.get (.side x) F.BRIDGE_WRITE_COUNT 1 + 1) % 2 ^ F.BRIDGE_WRITE_COUNT.width ∧
        Only [(.flue, F.FDB_CMD_CTRL_PORT, 0), (.flue, F.FDB_CMD_CTRL_OP, 0), (.flue, F.FDB_CMD_STATUS_RESULT, 0), (.side x,
            F.BRIDGE_WRITE_COUNT, 1)] s t ∧
        MemSame s t ∧ t.now = s.now ∧ t.dies = s.dies) ∧
  (∀ (s : State) (x : Side) (o : Origin),
    s.Permits x o (fdbAddr 0x110) 4 true → s.farPresent x 1 = true → s.present .flue = true → (s.bridge x 1).txns = [] →
      (s.bridge x 1).near = [] → s.holds x 4 = false →
    ∃ t, Sys2Proof.Machine.exec (.fdbInsertStatic x o) s = .next t ∧
      t.flue.fdb = s.flue.fdb ∧ t.fg F.FDB_CMD_STATUS_RESULT 0 = s.fg F.FDB_CMD_STATUS_RESULT 0 ∧ MemSame s t ∧ t.now = s.now) ∧
  (∀ (s : State) (x : Side) (o : Origin) (m : Nat) (v : Nat) (e : FdbEntry),
    s.Permits x o (fdbAddr 0x110) 4 true → s.farPresent x 1 = true → s.present .flue = true → (s.bridge x 1).txns = [] →
      (s.bridge x 1).near = [] → s.holds x 4 = true → s.fdbKey = (m, v) → s.fdbFind m v = some e →
    ∃ t, Sys2Proof.Machine.exec (.fdbDelete x o) s = .next t ∧
      t.flue.fdb = s.flue.fdb.filter (fun e => e.mac != m || e.vid != v) ∧ t.fg F.FDB_CMD_STATUS_RESULT 0 = 0 ∧
        Only [(.flue, F.FDB_CMD_CTRL_PORT, 0), (.flue, F.FDB_CMD_CTRL_OP, 0), (.flue, F.FDB_CMD_STATUS_RESULT, 0), (.side x,
            F.BRIDGE_WRITE_COUNT, 1)] s t ∧
        MemSame s t ∧ t.now = s.now ∧ t.dies = s.dies) ∧
  (∀ (s : State) (x : Side) (o : Origin) (m : Nat) (v : Nat) (e : FdbEntry),
    s.Permits x o (fdbAddr 0x110) 4 true → s.farPresent x 1 = true → s.present .flue = true → (s.bridge x 1).txns = [] →
      (s.bridge x 1).near = [] → s.holds x 4 = true → s.fdbKey = (m, v) → s.fdbFind m v = some e →
    ∃ t, Sys2Proof.Machine.exec (.fdbLookup x o) s = .next t ∧
      t.fg F.FDB_CMD_PORTS_PORTS 0 = e.ports % 2 ^ F.FDB_CMD_PORTS_PORTS.width ∧ t.fg F.FDB_CMD_PORTS_STATIC 0 = b2n e.stat ∧
        t.flue = s.flue ∧ t.fg F.FDB_CMD_STATUS_RESULT 0 = 0 ∧
        Only [(.flue, F.FDB_CMD_CTRL_PORT, 0), (.flue, F.FDB_CMD_CTRL_OP, 0), (.flue, F.FDB_CMD_STATUS_RESULT, 0), (.side x,
            F.BRIDGE_WRITE_COUNT, 1), (.flue, F.FDB_CMD_PORTS_PORTS, 0), (.flue, F.FDB_CMD_PORTS_STATIC, 0)] s t ∧
        MemSame s t ∧ t.now = s.now ∧ t.dies = s.dies) ∧
  (∀ (s : State) (x : Side) (o : Origin) (m : Nat) (v : Nat),
    s.Permits x o (fdbAddr 0x110) 4 true → s.farPresent x 1 = true → s.present .flue = true → (s.bridge x 1).txns = [] →
      (s.bridge x 1).near = [] → s.holds x 4 = true → s.fdbKey = (m, v) → s.fdbFind m v = none →
    ∃ t, Sys2Proof.Machine.exec (.fdbLookup x o) s = .next t ∧
      t.flue = s.flue ∧ t.fg F.FDB_CMD_STATUS_RESULT 0 = 1 ∧
        Only [(.flue, F.FDB_CMD_CTRL_PORT, 0), (.flue, F.FDB_CMD_CTRL_OP, 0), (.flue, F.FDB_CMD_STATUS_RESULT, 0), (.side x,
            F.BRIDGE_WRITE_COUNT, 1)] s t ∧
        MemSame s t ∧ t.now = s.now ∧ t.dies = s.dies) ∧
  (∀ (s : State) (x : Side) (o : Origin),
    s.Permits x o (fdbAddr 0x110) 4 true → s.farPresent x 1 = true → s.present .flue = true → (s.bridge x 1).txns = [] →
      (s.bridge x 1).near = [] → s.holds x 4 = true →
    ∃ t, Sys2Proof.Machine.exec (.fdbFlushAll x o) s = .next t ∧
      t.flue.fdb = s.flue.fdb.filter (fun e => e.stat) ∧ t.fg F.FDB_CMD_STATUS_RESULT 0 = 0 ∧
        Only [(.flue, F.FDB_CMD_CTRL_PORT, 0), (.flue, F.FDB_CMD_CTRL_OP, 0), (.flue, F.FDB_CMD_STATUS_RESULT, 0), (.side x,
            F.BRIDGE_WRITE_COUNT, 1)] s t ∧
        MemSame s t ∧ t.now = s.now ∧ t.dies = s.dies) ∧
  (∀ (s : State) (x : Side) (o : Origin) (p : Fin 32),
    s.Permits x o (fdbAddr 0x110) 4 true → s.farPresent x 1 = true → s.present .flue = true → (s.bridge x 1).txns = [] →
      (s.bridge x 1).near = [] → s.holds x 4 = true →
    ∃ t, Sys2Proof.Machine.exec (.fdbFlushPort x o p) s = .next t ∧
      t.flue.fdb = s.flue.fdb.filter (fun e => e.stat || !e.ports.testBit p) ∧ t.fg F.FDB_CMD_STATUS_RESULT 0 = 0 ∧
        Only [(.flue, F.FDB_CMD_CTRL_PORT, 0), (.flue, F.FDB_CMD_CTRL_OP, 0), (.flue, F.FDB_CMD_STATUS_RESULT, 0), (.side x,
            F.BRIDGE_WRITE_COUNT, 1)] s t ∧
        MemSame s t ∧ t.now = s.now ∧ t.dies = s.dies) ∧
  (∀ (s : State) (e : FdbEntry) (l : List FdbEntry) (n : Nat),
    s.flueRuns = true → s.fg F.FDB_CFG_AGE 0 = n → n ≠ 0 → s.flue.fdb.filter (fun e => !e.stat) = e :: l →
    ∃ t, Sys2Proof.Machine.exec (.fdbAgeing) s = .next t ∧
      t.now = max s.now (l.foldl (fun a f => min a f.at_) e.at_ + n * 1000000000) ∧
        t.flue.fdb = s.flue.fdb.filter (fun f => f.stat || decide (t.now < f.at_ + n * 1000000000)) ∧ Only [] s t ∧ t.sa = s.sa ∧
        t.sb = s.sb ∧ MemSame s t) ∧
  (∀ (s : State),
    s.flueRuns = true →
    ∃ t, Sys2Proof.Machine.exec (.cbsUpdate) s = .next t ∧
      (∀ i : Nat, i < 136 → t.fg F.PORT_Q_CREDIT i = (if s.fb F.PORT_Q_CFG_CBS_EN i then ofSigned 40 (cbsCredit (sigInt (s.fg
          F.PORT_Q_CREDIT i)) (s.fg F.PORT_Q_CFG_IDLE_SLOPE i) (s.portRate (i / 8)) (s.sendingFrom (i / 8) (i % 8)) (s.queue (i / 8) (i %
              8) != [])) % 2 ^ 40 else s.fg F.PORT_Q_CREDIT i)) ∧
        Only ((List.range 136).map (fun i => (.flue, F.PORT_Q_CREDIT, i))) s t ∧ t.flue = s.flue ∧ t.sa = s.sa ∧ t.sb = s.sb ∧
        MemSame s t ∧ t.now = s.now ∧ t.dies = s.dies) ∧
  (∀ (s : State) (p : Fin 17),
    s.flueRuns = true → s.fb F.TAS_CFG_ENABLE p = false →
    ∃ t, Sys2Proof.Machine.exec (.tasCycleStart p) s = .next t ∧
      t.tasOf p = none ∧ t.fg F.TAS_STATUS_RUNNING p = 0 ∧ t.fg F.TAS_STATUS_ENTRY p = 0 ∧ t.fg F.TAS_STATUS_ERROR p = 0 ∧
        Only [(.flue, F.TAS_STATUS_RUNNING, p.val), (.flue, F.TAS_STATUS_ENTRY, p.val), (.flue, F.TAS_STATUS_ERROR, p.val)] s t ∧
        MemSame s t ∧ t.now = s.now ∧ t.dies = s.dies) ∧
  (∀ (s : State) (p : Fin 17) (n : Nat) (g : Nat) (k : Nat),
    s.flueRuns = true → s.fb F.TAS_CFG_ENABLE p = true → s.fg F.TAS_CYCLE p = n → 1000 ≤ n → n ≤ 1000000000 → s.fg F.TAS_CFG_LIST p = k →
      s.tasLen p k ≠ 0 → s.tasOf p = none → nextCycle (s.tasBase p) n (s.blwTime (s.fg F.TAS_CFG_DOMAIN p)) = g →
    ∃ t, Sys2Proof.Machine.exec (.tasCycleStart p) s = .next t ∧
      t.tasOf p = some ⟨k, n, s.tasBase p, s.fg F.TAS_CFG_DOMAIN p, g, false⟩ ∧ t.fg F.TAS_STATUS_RUNNING p = 1 ∧
        t.fg F.TAS_STATUS_LIST p = k % 2 ^ F.TAS_STATUS_LIST.width ∧ t.fg F.TAS_STATUS_ENTRY p = 0 ∧ t.fg F.TAS_STATUS_ERROR p = 0 ∧
        t.now = max s.now (s.now + ceilDiv (g - s.blwTime (s.fg F.TAS_CFG_DOMAIN p)) 1024) ∧ MemSame s t) ∧
  (∀ (s : State) (n : Fin 512) (r : Frer),
    s.flueRuns = true → s.fg F.FRER_CFG_FUNC n = 2 → Tab.at Frer.init s.flue.frer n = r → r.fresh = false →
    ∃ t, Sys2Proof.Machine.exec (.frerReset n) s = .next t ∧
      t.now = max s.now (r.at_ + clampNat 1 65535 (s.fg F.FRER_RESET_MS n) * 1000000) ∧ Tab.at Frer.init t.flue.frer n = Frer.init ∧
        t.get .flue F.FRER_RESETS n = (s.get .flue F.FRER_RESETS n + 1) % 2 ^ F.FRER_RESETS.width ∧ t.fg F.FLUE_EVT_FRER_RESET 0 = 1 ∧
        Only [(.flue, F.FRER_RESETS, n.val), (.flue, F.FLUE_EVT_FRER_RESET, 0)] s t ∧ MemSame s t) ∧
  (∀ (s : State) (x : Side) (o : Origin) (v : BitVec 32) (a : Nat) (n : Nat) (c : Nat) (lo : Option Word40) (co : Option Word40),
    s.Permits x o 0x40164024 4 true → v.toNat.testBit 0 = true → s.is (.side x) F.NETIF_CTRL 0 = true →
      s.is (.side x) F.NETIF_STATUS_ERR 0 = false → s.present (.dma x) = true → s.get (.side x) F.NETIF_TX_LEN 0 = 1 →
      s.get (.side x) F.NETIF_STATUS_TX_NEXT 0 = 0 → s.get (.side x) F.NETIF_TX_BASE 0 = a → s.netifMay x a 16 true = 0 →
      s.netifMay x a 16 false = 0 → s.ReadsClean x a 16 lo → s.ReadsClean x (s.loadLE x a 8 % 2 ^ 40) n lo →
      (s.byte x (a + 12)).toNat.testBit 0 = true → s.loadLE x (a + 8) 2 = n → 14 ≤ n → n ≤ 9212 →
      s.netifMay x (s.loadLE x a 8 % 2 ^ 40) n false = 0 → s.get (.side x) F.NETIF_CFG_IRQ_CH 0 = c → c < 32 → s.flueRuns = true →
      s.portUp (sidePort x) = true →
    ∃ t, Sys2Proof.Machine.exec (.netifTxKick x o v lo co) s = .next t ∧
      t.flue = ((s.drawCells [(sidePort x, cellsOf (max 60 n + 4))]).receive s.flue.fdb (sidePort x) (s.load x (s.loadLE x a 8 % 2 ^ 40) n
          ++ List.replicate (60 - n) 0) true).flue ∧
        (t.byte x (a + 12)).toNat = Machine.clearBit (s.byte x (a + 12)).toNat 0 ∧
        (∀ b : Nat, b < 2 ^ 40 → b ≠ a + 12 → t.byte x b = s.byte x b) ∧ (∀ b, t.byte x.other b = s.byte x.other b) ∧
        t.get (.side x) F.NETIF_STATUS_TX_NEXT 0 = 0 ∧ (t.get (.side x) F.INTR_PENDING 1).testBit c = true ∧ t.now = s.now)

/-- A port that loses its link empties its queues, counts and flags it, and a TC10 port is then down; a link that comes up is shown. A
partner's sleep request is accepted or not as SLEEP_ACCEPT says; a request of the holder of the net token takes the port to SLEEP when
the partner accepts it, and back when it rejects it or has not answered in 16 ms; a wake-up pulse ends SLEEP. The bypass closes while a
condition holds and opens when none holds and both PHYs have passed their tests; three missed keep-alives close it and reset the Flue
die. A side logs each change of its bias. A LIFE GO queues a buffer, or is counted when its buffer is queued or its length is out of
range; frames leave in order under the guardian; a received frame fills the next buffer, and a release frees the oldest. The samples of
the interlock loop gather until its averaging window is complete, which shows the mean (rounded down, log entry 122) and the state; a
change is counted and flagged. -/
def Obligations.LinksBypassLifeline : Prop :=
  (∀ (s : State) (p : Fin 17),
    s.flueRuns = true → p.val < 15 → hasTc10 p = true → s.fb F.PORT_STATUS_LINK p = true → s.fg F.PORT_STATUS_TC10 p = 0 →
      s.fg F.BLW_STATE_SLAVE_PORT 0 ≠ p → s.fg F.BLW_STATE_SLAVE_PORT 1 ≠ p →
    ∃ t, Sys2Proof.Machine.exec (.linkChange (.port p) false) s = .next t ∧
      t.fg F.PORT_STATUS_LINK p = 0 ∧ (∀ k : Nat, k < 8 → t.queue p k = []) ∧
        (∀ j : Nat, j < 136 → j / 8 ≠ p.val → Tab.at [] t.flue.queues j = Tab.at [] s.flue.queues j) ∧
        t.get .flue F.PORT_CNT (p * 35 + 32) = (s.get .flue F.PORT_CNT (p * 35 + 32) + 1) % 2 ^ F.PORT_CNT.width ∧
        t.get .flue F.PORT_CNT (p * 35 + 31) = (s.get .flue F.PORT_CNT (p * 35 + 31) + s.queued p) % 2 ^ F.PORT_CNT.width ∧
        t.fg F.FLUE_EVT_LINK_CHG 0 = 1 ∧ t.fg F.PORT_STATUS_TC10 p = 4 ∧ MemSame s t ∧ t.now = s.now ∧ t.dies = s.dies) ∧
  (∀ (s : State) (p : Fin 17),
    s.flueRuns = true → (2 ≤ p.val ∨ s.fb F.BYP_STATUS_ISOLATION_ON 0 = true) →
      (p.val < 15 ∨ (s.fabric (sideOf (p - 15)) = true ∧ (s.side (sideOf (p - 15))).limp = false)) → s.fb F.PORT_STATUS_LINK p = false →
    ∃ t, Sys2Proof.Machine.exec (.linkChange (.port p) true) s = .next t ∧
      t.fg F.PORT_STATUS_LINK p = 1 ∧ t.fg F.FLUE_EVT_LINK_CHG 0 = 1 ∧
        t.fg F.PORT_STATUS_TC10 p = (if hasTc10 p then 0 else s.fg F.PORT_STATUS_TC10 p) ∧ t.flue.queues = s.flue.queues ∧ MemSame s t ∧
        t.now = s.now ∧ t.dies = s.dies) ∧
  (∀ (s : State) (x : Side),
    s.lifeUp x = true → s.is (.side x) F.LIFE_STATUS_LINK 0 = true →
    ∃ t, Sys2Proof.Machine.exec (.linkChange (.life x) false) s = .next t ∧
      t.get (.side x) F.LIFE_STATUS_LINK 0 = 0 ∧ t.get (.side x) F.LIFE_EVT_LINK_CHG 0 = 1 ∧
        (t.get (.side x) F.INTR_PENDING 2).testBit 21 = true ∧
        t.get (.side x) F.LIFE_LINK_DOWN_COUNT 0 = (s.get (.side x) F.LIFE_LINK_DOWN_COUNT 0 + 1) % 2 ^ F.LIFE_LINK_DOWN_COUNT.width ∧
        t.get (.side x) F.LIFE_TX_DROP_COUNT 0 = (s.get (.side x) F.LIFE_TX_DROP_COUNT 0 + (s.side x).lifeTx.length) % 2 ^
            F.LIFE_TX_DROP_COUNT.width ∧
        (t.side x).lifeTx = [] ∧ t.flue = s.flue ∧ MemSame s t ∧ t.now = s.now ∧ t.dies = s.dies) ∧
  (∀ (s : State) (p : Fin 17),
    s.flueRuns = true → hasTc10 p = true → s.fg F.PORT_STATUS_TC10 p ≤ 1 → s.fb F.PORT_TC10 p = true →
    ∃ t, Sys2Proof.Machine.exec (.tc10SleepRequest p) s = .next t ∧
      t.fg F.PORT_STATUS_TC10 p = 2 ∧
        t.get .flue F.PORT_CNT (p * 35 + 33) = (s.get .flue F.PORT_CNT (p * 35 + 33) + 1) % 2 ^ F.PORT_CNT.width ∧
        (∀ k : Nat, k < 8 → t.queue p k = []) ∧
        (∀ j : Nat, j < 136 → j / 8 ≠ p.val → Tab.at [] t.flue.queues j = Tab.at [] s.flue.queues j) ∧ t.sa = s.sa ∧ t.sb = s.sb ∧
        MemSame s t ∧ t.now = s.now ∧ t.dies = s.dies) ∧
  (∀ (s : State) (p : Fin 17),
    s.fb F.PORT_TC10 p = false →
    ∃ t, Sys2Proof.Machine.exec (.tc10SleepRequest p) s = .next t ∧
      t = s) ∧
  (∀ (s : State) (x : Side) (o : Origin) (p : Fin 17),
    s.Permits x o (portCtrlAddr p) 4 true → s.farPresent x 1 = true → s.present .flue = true → (s.bridge x 1).txns = [] →
      (s.bridge x 1).near = [] → s.holds x 4 = true → hasTc10 p = true → s.fg F.PORT_STATUS_TC10 p = 0 →
    ∃ t, Sys2Proof.Machine.exec (.portSleepReq x o p) s = .next t ∧
      t.fg F.PORT_STATUS_TC10 p = 1 ∧ Tab.at 0 t.flue.sleepAt p = s.now + 1 ∧
        Only [(.flue, F.PORT_STATUS_TC10, p.val), (.side x, F.BRIDGE_WRITE_COUNT, 1)] s t ∧ MemSame s t ∧ t.now = s.now ∧ t.dies = s.dies) ∧
  (∀ (s : State) (x : Side) (o : Origin) (p : Fin 17),
    s.Permits x o (portCtrlAddr p) 4 true → s.farPresent x 1 = true → s.present .flue = true → (s.bridge x 1).txns = [] →
      (s.bridge x 1).near = [] → s.holds x 4 = true → hasTc10 p = true → s.fg F.PORT_STATUS_TC10 p = 2 →
    ∃ t, Sys2Proof.Machine.exec (.portWake x o p) s = .next t ∧
      t.fg F.PORT_STATUS_TC10 p = 3 ∧ t.flue.pulses.testBit p = true ∧
        t.get .flue F.PORT_CNT (p * 35 + 34) = (s.get .flue F.PORT_CNT (p * 35 + 34) + 1) % 2 ^ F.PORT_CNT.width ∧
        Only [(.flue, F.PORT_STATUS_TC10, p.val), (.flue, F.PORT_CNT, p * 35 + 34), (.side x, F.BRIDGE_WRITE_COUNT, 1)] s t ∧
        MemSame s t ∧ t.now = s.now ∧ t.dies = s.dies) ∧
  (∀ (s : State) (p : Fin 17) (a : Nat),
    s.flueRuns = true → s.fg F.PORT_STATUS_TC10 p = 1 → Tab.at 0 s.flue.sleepAt p = a + 1 → s.asleep = false →
    ∃ t, Sys2Proof.Machine.exec (.tc10SleepTimeout p none) s = .next t ∧
      t.now = max s.now (a + 16000000) ∧ t.fg F.PORT_STATUS_TC10 p = 0 ∧ t.fg F.FLUE_EVT_TC10 0 = 1 ∧
        Only [(.flue, F.PORT_STATUS_TC10, p.val), (.flue, F.FLUE_EVT_TC10, 0)] s t ∧ MemSame s t) ∧
  (∀ (s : State) (p : Fin 17),
    s.flueRuns = true → s.fg F.PORT_STATUS_TC10 p = 1 →
    ∃ t, Sys2Proof.Machine.exec (.tc10SleepTimeout p (some true)) s = .next t ∧
      t.fg F.PORT_STATUS_TC10 p = 2 ∧
        t.get .flue F.PORT_CNT (p * 35 + 33) = (s.get .flue F.PORT_CNT (p * 35 + 33) + 1) % 2 ^ F.PORT_CNT.width ∧
        (∀ k : Nat, k < 8 → t.queue p k = []) ∧
        (∀ j : Nat, j < 136 → j / 8 ≠ p.val → Tab.at [] t.flue.queues j = Tab.at [] s.flue.queues j) ∧ t.sa = s.sa ∧ t.sb = s.sb ∧
        MemSame s t ∧ t.now = s.now ∧ t.dies = s.dies) ∧
  (∀ (s : State) (p : Fin 17),
    s.flueRuns = true → s.fg F.PORT_STATUS_TC10 p = 1 → s.asleep = false →
    ∃ t, Sys2Proof.Machine.exec (.tc10SleepTimeout p (some false)) s = .next t ∧
      t.fg F.PORT_STATUS_TC10 p = 0 ∧ t.fg F.FLUE_EVT_TC10 0 = 1 ∧
        Only [(.flue, F.PORT_STATUS_TC10, p.val), (.flue, F.FLUE_EVT_TC10, 0)] s t ∧ MemSame s t ∧ t.now = s.now ∧ t.dies = s.dies) ∧
  (∀ (s : State) (p : Fin 17),
    s.flueRuns = true → hasTc10 p = true → s.fg F.PORT_STATUS_TC10 p = 2 →
    ∃ t, Sys2Proof.Machine.exec (.tc10PartnerWake p) s = .next t ∧
      t.fg F.PORT_STATUS_TC10 p = 3 ∧
        t.get .flue F.PORT_CNT (p * 35 + 34) = (s.get .flue F.PORT_CNT (p * 35 + 34) + 1) % 2 ^ F.PORT_CNT.width ∧
        Only [(.flue, F.PORT_STATUS_TC10, p.val), (.flue, F.PORT_CNT, p * 35 + 34)] s t ∧ t.flue = s.flue ∧ t.sa = s.sa ∧ t.sb = s.sb ∧
        MemSame s t ∧ t.now = s.now ∧ t.dies = s.dies) ∧
  (∀ (s : State) (c : Nat),
    s.bypCause = c → c ≠ 0 → s.is .flue F.BYP_STATUS_CLOSED 0 = false →
    ∃ t, Sys2Proof.Machine.exec (.bypassClose) s = .next t ∧
      t.get .flue F.BYP_STATUS_CLOSED 0 = 1 ∧ t.get .flue F.BYP_STATUS_ISOLATION_ON 0 = 0 ∧ t.bypCause = c ∧
        t.get .flue F.BYP_CLOSE_COUNT 0 = (s.get .flue F.BYP_CLOSE_COUNT 0 + b2n s.flue.powered) % 2 ^ F.BYP_CLOSE_COUNT.width ∧
        t.portUp 0 = false ∧ t.portUp 1 = false ∧ (s.flueRuns = true → t.fg F.PORT_STATUS_LINK 0 = 0 ∧ t.fg F.PORT_STATUS_LINK 1 = 0) ∧
        MemSame s t ∧ t.now = s.now ∧ t.dies = s.dies) ∧
  (∀ (s : State) (c : Nat),
    s.bypCause = c → c ≠ 0 → s.is .flue F.BYP_STATUS_CLOSED 0 = false → s.fb F.PORT_STATUS_LINK 0 = false →
      s.fb F.PORT_STATUS_LINK 1 = false →
    ∃ t, Sys2Proof.Machine.exec (.bypassClose) s = .next t ∧
      Only [(.flue, F.BYP_STATUS_CLOSED, 0), (.flue, F.BYP_STATUS_ISOLATION_ON, 0), (.flue, F.BYP_CLOSE_COUNT, 0)] s t ∧
        t.flue = s.flue ∧ t.sa = s.sa ∧ t.sb = s.sb ∧ MemSame s t ∧ t.now = s.now ∧ t.dies = s.dies) ∧
  (∀ (s : State),
    s.bypCause = 0 → s.is .flue F.BYP_STATUS_CLOSED 0 = true → s.flue.selftested = 3 →
    ∃ t, Sys2Proof.Machine.exec (.bypassOpen) s = .next t ∧
      t.get .flue F.BYP_STATUS_CLOSED 0 = 0 ∧ t.get .flue F.BYP_STATUS_ISOLATION_ON 0 = 1 ∧
        t.get .flue F.BYP_OPEN_COUNT 0 = (s.get .flue F.BYP_OPEN_COUNT 0 + 1) % 2 ^ F.BYP_OPEN_COUNT.width ∧
        Only [(.flue, F.BYP_STATUS_CLOSED, 0), (.flue, F.BYP_STATUS_ISOLATION_ON, 0), (.flue, F.BYP_OPEN_COUNT, 0)] s t ∧
        t.flue = { s.flue with ringSpeed := s.get .flue F.BYP_CFG_SPEED 0 % 3 } ∧ t.sa = s.sa ∧ t.sb = s.sb ∧ MemSame s t ∧
        t.now = s.now ∧ t.dies = s.dies) ∧
  (∀ (s : State),
    s.flueRuns = true → s.ember.gs.good = true → (s.bridge .a 1).txns = [] → (s.bridge .b 1).txns = [] →
    ∃ t, Sys2Proof.Machine.exec (.keepaliveMiss) s = .next t ∧
      t.present .flue = false ∧ t.get .flue F.BYP_STATUS_CLOSED 0 = 1 ∧
        (s.is .flue F.BYP_STATUS_CLOSED 0 = false → t.get .flue F.BYP_STATUS_ISOLATION_ON 0 = 0) ∧ t.bypCause = 2 ∧ t.flue.queues = [] ∧
        t.flue.fdb = [] ∧ MemSame s t ∧ t.now = s.now ∧ t.dies = s.dies) ∧
  (∀ (s : State) (p : Fin 2),
    s.present .flue = true → s.flue.reset_ = false → s.flue.selftested.testBit p = false →
    ∃ t, Sys2Proof.Machine.exec (.bypassSelftest p true) s = .next t ∧
      t.flue = { s.flue with selftested := Machine.setBit s.flue.selftested p } ∧ Only [] s t ∧ t.sa = s.sa ∧ t.sb = s.sb ∧ MemSame s t ∧
        t.now = s.now ∧ t.dies = s.dies) ∧
  (∀ (s : State) (p : Fin 2),
    s.present .flue = true → s.flue.reset_ = false → s.flue.selftested.testBit p = false →
    ∃ t, Sys2Proof.Machine.exec (.bypassSelftest p false) s = .next t ∧
      t.get .flue F.BYP_STATUS_SELFTEST_FAIL 0 = 1 ∧ t.bypCause ≠ 0 ∧ t.flue = s.flue ∧ MemSame s t ∧ t.now = s.now ∧ t.dies = s.dies) ∧
  (∀ (s : State) (x : Side) (c : Nat),
    s.up x = true → s.get .flue F.BYP_STATUS_CLOSED 0 = c → s.get (.side x) F.LIFE_STATUS_BYP_SENSE 0 ≠ c →
    ∃ t, Sys2Proof.Machine.exec (.bypSenseChange x) s = .next t ∧
      t.get (.side x) F.LIFE_STATUS_BYP_SENSE 0 = c ∧ t.get (.side x) F.LIFE_EVT_BYPASS 0 = 1 ∧
        (t.get (.side x) F.INTR_PENDING 2).testBit 21 = true ∧
        t.get (.side x) F.ASH_SEQ 0 = (s.get (.side x) F.ASH_SEQ 0 + 1) % 2 ^ F.ASH_SEQ.width ∧ t.flue = s.flue ∧ MemSame s t ∧
        t.now = s.now ∧ t.dies = s.dies) ∧
  (∀ (s : State) (x : Side) (o : Origin) (v : BitVec 32) (b : Nat) (n : Nat),
    s.Permits x o (lifeAddr 0x20) 4 true → s.worldOf x o = s.get (.side x) F.LIFE_CFG_WORLD 0 → v.toNat.testBit 31 = true →
      bits v.toNat 18 16 = b → bits v.toNat 10 0 = n → (s.side x).lifeTx.any (fun q => q.1 == b) = false → 14 ≤ n → n ≤ 1518 →
    ∃ t, Sys2Proof.Machine.exec (.lifeTxGo x o v) s = .next t ∧
      (t.side x).lifeTx = (s.side x).lifeTx ++ [(b, n)] ∧ Only [] s t ∧ t.resp = .idle ∧ t.flue = s.flue ∧ MemSame s t ∧ t.now = s.now ∧
        t.dies = s.dies) ∧
  (∀ (s : State) (x : Side) (o : Origin) (v : BitVec 32) (b : Nat) (n : Nat),
    s.Permits x o (lifeAddr 0x20) 4 true → s.worldOf x o = s.get (.side x) F.LIFE_CFG_WORLD 0 → v.toNat.testBit 31 = true →
      bits v.toNat 18 16 = b → bits v.toNat 10 0 = n → ((s.side x).lifeTx.any (fun q => q.1 == b) = true ∨ n < 14 ∨ 1518 < n) →
    ∃ t, Sys2Proof.Machine.exec (.lifeTxGo x o v) s = .next t ∧
      t.side x = (s.stepDone x o).side x ∧
        t.get (.side x) F.LIFE_TX_DROP_COUNT 0 = (s.get (.side x) F.LIFE_TX_DROP_COUNT 0 + 1) % 2 ^ F.LIFE_TX_DROP_COUNT.width ∧
        Only [(.side x, F.LIFE_TX_DROP_COUNT, 0)] s t ∧ t.resp = .idle ∧ t.flue = s.flue ∧ MemSame s t ∧ t.now = s.now ∧ t.dies = s.dies) ∧
  (∀ (s : State) (x : Side) (b : Nat) (n : Nat) (l : List (Nat × Nat)) (g : Nat × Nat),
    (s.side x).lifeTx = (b, n) :: l → s.lifeUp x = true → s.is (.side x) F.LIFE_STATUS_LINK 0 = true →
      guardTake (s.side x).lifeGuard s.now (clampNat 1 100 (s.get (.side x) F.LIFE_GUARD_RATE 0)) (clampNat 1518 65536 (s.get (.side x)
          F.LIFE_GUARD_BURST 0)) (max 60 n) = some g →
    ∃ t, Sys2Proof.Machine.exec (.lifeTxDone x) s = .next t ∧
      (t.side x).lifeTx = l ∧ (t.side x).lifeGuard = g ∧ (t.side x).lifeSent = framed (s.load x (lifeTxAddr b) n) ∧
        t.get (.side x) F.LIFE_TX_COUNT 0 = (s.get (.side x) F.LIFE_TX_COUNT 0 + 1) % 2 ^ F.LIFE_TX_COUNT.width ∧
        t.get (.side x) F.LIFE_EVT_TX_DONE 0 = 1 ∧ (t.get (.side x) F.INTR_PENDING 2).testBit 21 = true ∧
        Only [(.side x, F.LIFE_TX_COUNT, 0), (.side x, F.LIFE_EVT_TX_DONE, 0), (.side x, F.INTR_PENDING, 2)] s t ∧ t.flue = s.flue ∧
        MemSame s t ∧ t.now = s.now ∧ t.dies = s.dies) ∧
  (∀ (s : State) (x : Side) (b : Nat) (n : Nat) (l : List (Nat × Nat)),
    (s.side x).lifeTx = (b, n) :: l → s.lifeUp x = true → s.is (.side x) F.LIFE_STATUS_LINK 0 = true →
      guardTake (s.side x).lifeGuard s.now (clampNat 1 100 (s.get (.side x) F.LIFE_GUARD_RATE 0)) (clampNat 1518 65536 (s.get (.side x)
          F.LIFE_GUARD_BURST 0)) (max 60 n) = none →
    ∃ t, Sys2Proof.Machine.exec (.lifeTxDone x) s = .next t ∧
      (t.side x).lifeTx = l ∧
        t.get (.side x) F.LIFE_GUARD_DROP 0 = (s.get (.side x) F.LIFE_GUARD_DROP 0 + 1) % 2 ^ F.LIFE_GUARD_DROP.width ∧
        Only [(.side x, F.LIFE_GUARD_DROP, 0)] s t ∧ t.flue = s.flue ∧ MemSame s t ∧ t.now = s.now ∧ t.dies = s.dies) ∧
  (∀ (s : State) (x : Side) (f : EthFrame) (k : Nat) (n : Nat),
    s.lifeUp x = true → s.is (.side x) F.LIFE_STATUS_LINK 0 = true → f.good = true → f.bytes.length = n → n ≤ 1518 →
      (beNat ((ethNats f).take 6) = 2 ^ 48 - 1 ∨ beNat ((ethNats f).take 6) = s.get (.side x) F.LIFE_MAC_HI 0 * 2 ^ 32 + s.get (.side x)
          F.LIFE_MAC_LO 0) →
      (s.side x).lifeRx.length < 16 → (s.side x).lifeNext = k → k < 16 →
    ∃ t, Sys2Proof.Machine.exec (.lifeRxFrame x f) s = .next t ∧
      t.load x (lifeRxAddr k) n = ethNats f ∧
        (∀ b : Nat, b < 2 ^ 40 → (b < lifeRxAddr k ∨ lifeRxAddr k + n ≤ b) → t.byte x b = s.byte x b) ∧
        (∀ b, t.byte x.other b = s.byte x.other b) ∧ (t.side x).lifeRx = (s.side x).lifeRx ++ [(k, n)] ∧
        (t.side x).lifeNext = (k + 1) % 16 ∧
        t.get (.side x) F.LIFE_RX_COUNT 0 = (s.get (.side x) F.LIFE_RX_COUNT 0 + 1) % 2 ^ F.LIFE_RX_COUNT.width ∧
        t.get (.side x) F.LIFE_EVT_RX 0 = 1 ∧ (t.get (.side x) F.INTR_PENDING 2).testBit 21 = true ∧
        Only [(.side x, F.LIFE_RX_COUNT, 0), (.side x, F.LIFE_EVT_RX, 0), (.side x, F.INTR_PENDING, 2)] s t ∧ t.now = s.now ∧
        t.flue = s.flue) ∧
  (∀ (s : State) (x : Side) (o : Origin) (v : BitVec 32),
    s.Permits x o (lifeAddr 0x28) 4 true → s.worldOf x o = s.get (.side x) F.LIFE_CFG_WORLD 0 → v.toNat.testBit 0 = true →
    ∃ t, Sys2Proof.Machine.exec (.lifeRxRelease x o v) s = .next t ∧
      (t.side x).lifeRx = (s.side x).lifeRx.tail ∧ (t.side x).lifeNext = (s.side x).lifeNext ∧ Only [] s t ∧ t.resp = .idle ∧
        t.flue = s.flue ∧ MemSame s t ∧ t.now = s.now ∧ t.dies = s.dies) ∧
  (∀ (s : State) (x : Side) (l : List Word40) (b : Word40) (a : List Nat) (n : Nat),
    s.fabric x = true → s.present (.life x) = true → (s.side x).hvil ++ l.map (fun z => z.toNat) = a → s.hvilSamples x = n →
      a.length < n →
    ∃ t, Sys2Proof.Machine.exec (.hvilWindow x l b) s = .next t ∧
      t.side x = { s.side x with hvil := a } ∧ Only [] s t ∧ t.flue = s.flue ∧ MemSame s t ∧ t.now = s.now ∧ t.dies = s.dies) ∧
  (∀ (s : State) (x : Side) (l : List Word40) (b : Word40) (a : List Nat) (n : Nat) (k : Nat) (z : Nat) (m : Int),
    s.fabric x = true → s.present (.life x) = true → (s.side x).hvil ++ l.map (fun z => z.toNat) = a → s.hvilSamples x = n →
      n ≤ a.length → (a.take n).foldl (fun (z : Int) u => z + sigInt u) 0 = m →
      hvilState m (sigInt (s.get (.side x) F.HVIL_ILO 0) * n) (sigInt (s.get (.side x) F.HVIL_IHI 0) * n) = z →
      s.get (.side x) F.HVIL_STATUS 0 = k → k ≠ z →
    ∃ t, Sys2Proof.Machine.exec (.hvilWindow x l b) s = .next t ∧
      t.get (.side x) F.HVIL_I 0 = sigWord (m / n) ∧ t.get (.side x) F.HVIL_V 0 = b.toNat ∧
        t.now = max s.now ((s.side x).hvilFrom + n * 10000) ∧ (t.side x).hvil = a.drop n ∧ (t.side x).hvilFrom = t.now ∧
        t.flue = s.flue ∧ t.dies = s.dies ∧ MemSame s t ∧ t.get (.side x) F.HVIL_STATUS 0 = z ∧
        t.get (.side x) F.HVIL_CHANGE_COUNT 0 = (s.get (.side x) F.HVIL_CHANGE_COUNT 0 + 1) % 2 ^ F.HVIL_CHANGE_COUNT.width ∧
        t.get (.side x) F.LIFE_EVT_HVIL 0 = 1 ∧ (t.get (.side x) F.INTR_PENDING 2).testBit 21 = true ∧
        t.get (.side x) F.ASH_SEQ 0 = (s.get (.side x) F.ASH_SEQ 0 + 1) % 2 ^ F.ASH_SEQ.width) ∧
  (∀ (s : State) (x : Side) (l : List Word40) (b : Word40) (a : List Nat) (n : Nat) (m : Int),
    s.fabric x = true → s.present (.life x) = true → (s.side x).hvil ++ l.map (fun z => z.toNat) = a → s.hvilSamples x = n →
      n ≤ a.length → (a.take n).foldl (fun (z : Int) u => z + sigInt u) 0 = m →
      hvilState m (sigInt (s.get (.side x) F.HVIL_ILO 0) * n) (sigInt (s.get (.side x) F.HVIL_IHI 0) * n) = s.get (.side x) F.HVIL_STATUS 0
          →
    ∃ t, Sys2Proof.Machine.exec (.hvilWindow x l b) s = .next t ∧
      t.get (.side x) F.HVIL_I 0 = sigWord (m / n) ∧ t.get (.side x) F.HVIL_V 0 = b.toNat ∧
        t.now = max s.now ((s.side x).hvilFrom + n * 10000) ∧ (t.side x).hvil = a.drop n ∧ (t.side x).hvilFrom = t.now ∧
        t.flue = s.flue ∧ t.dies = s.dies ∧ MemSame s t ∧ Only [(.side x, F.HVIL_I, 0), (.side x, F.HVIL_V, 0)] s t)
end

