-- ==== Sys2Proof/Laws/Tab.lean ====
section
/-! SUPPORT. Tables: what a read after a write gives, and that writes and filters keep the canonical form. -/
namespace Sys2Proof.Machine
variable {κ α : Type}

/-- Reading past entries of another key. -/
theorem Tab.get_cons_ne [DecidableEq κ] (d : κ → α) {p : κ × α} {t : List (κ × α)} {k : κ} (h : p.1 ≠ k) : get d (p :: t) k = get d t k := by
  simp [get, h]

/-- Removing key `k` leaves what other keys read as. -/
theorem Tab.get_erase_ne [DecidableEq κ] (d : κ → α) (t : List (κ × α)) {k j : κ} (h : j ≠ k) : get d (erase t k) j = get d t j := by
  induction t with
  | nil => rfl
  | cons p t ih =>
    by_cases hp : p.1 = k
    · have : p.1 ≠ j := fun e => h (e.symm.trans hp)
      simpa [erase, hp, get_cons_ne d this] using ih
    · have he : erase (p :: t) k = p :: erase t k := by simp [erase, hp]
      rw [he]
      by_cases hj : p.1 = j
      · simp [get, hj]
      · rw [get_cons_ne d hj, get_cons_ne d hj, ih]

/-- A removed key reads as its default. -/
theorem Tab.get_erase_self [DecidableEq κ] (d : κ → α) (t : List (κ × α)) (k : κ) : get d (erase t k) k = d k := by
  induction t with
  | nil => rfl
  | cons p t ih =>
    by_cases hp : p.1 = k
    · simpa [erase, hp] using ih
    · have he : erase (p :: t) k = p :: erase t k := by simp [erase, hp]
      rw [he, get_cons_ne d hp, ih]

/-- An inserted entry leaves what other keys read as. -/
theorem Tab.get_insert_ne [DecidableEq κ] (d : κ → α) (code : κ → Nat) (t : List (κ × α)) {k j : κ} (v : α) (h : j ≠ k) :
    get d (insert code t k v) j = get d t j := by
  have hk : k ≠ j := fun e => h e.symm
  induction t with
  | nil => simp [insert, get, hk]
  | cons p t ih =>
    unfold insert
    split
    · rw [get_cons_ne d hk]
    · by_cases hj : p.1 = j
      · simp [get, hj]
      · rw [get_cons_ne d hj, get_cons_ne d hj, ih]

/-- An inserted entry is read back when its key was not there. -/
theorem Tab.get_insert_self [DecidableEq κ] (d : κ → α) (code : κ → Nat) (t : List (κ × α)) (k : κ) (v : α) (h : ∀ p ∈ t, p.1 ≠ k) :
    get d (insert code t k v) k = v := by
  induction t with
  | nil => simp [insert, get]
  | cons p t ih =>
    unfold insert
    split
    · simp [get]
    · rw [get_cons_ne d (h p (by simp)), ih (fun q hq => h q (by simp [hq]))]

/-- No entry of key `k` is left after its removal. -/
theorem Tab.erase_ne [DecidableEq κ] (t : List (κ × α)) (k : κ) : ∀ p ∈ erase t k, p.1 ≠ k := by
  intro p hp
  simpa using (List.mem_filter.mp hp).2

/-- A read after a write: the value written at its key, and what was there at every other key. -/
theorem Tab.get_set [DecidableEq κ] [DecidableEq α] (d : κ → α) (code : κ → Nat) (t : List (κ × α)) (k j : κ) (v : α) :
    get d (set d code t k v) j = if j = k then v else get d t j := by
  unfold set
  by_cases hj : j = k
  · subst hj
    split
    · rename_i hv
      simp [get_erase_self, hv]
    · simp [get_insert_self d code _ _ v (erase_ne t j)]
  · split
    · simp [get_erase_ne d t hj]
    · simp [get_insert_ne d code _ v hj, get_erase_ne d t hj]

/-- The entries of a table with one more: the new one and the old ones. -/
theorem Tab.mem_insert (code : κ → Nat) (t : List (κ × α)) (k : κ) (v : α) (q : κ × α) :
    q ∈ insert code t k v ↔ q = (k, v) ∨ q ∈ t := by
  induction t with
  | nil => simp [insert]
  | cons p t ih =>
    unfold insert
    split
    · simp
    · simp only [List.mem_cons, ih]
      tauto

/-- An entry of a new code keeps the order. -/
theorem Tab.pairwise_insert (code : κ → Nat) (t : List (κ × α)) (k : κ) (v : α) (ht : t.Pairwise (fun a b => code a.1 < code b.1))
    (hk : ∀ p ∈ t, code p.1 ≠ code k) : (insert code t k v).Pairwise (fun a b => code a.1 < code b.1) := by
  induction t with
  | nil => simp [insert]
  | cons p t ih =>
    rw [List.pairwise_cons] at ht
    unfold insert
    split
    · rename_i hlt
      refine List.pairwise_cons.mpr ⟨?_, List.pairwise_cons.mpr ht⟩
      intro q hq
      rcases List.mem_cons.mp hq with rfl | hq
      · exact hlt
      · exact lt_trans hlt (ht.1 q hq)
    · rename_i hge
      refine List.pairwise_cons.mpr ⟨?_, ih ht.2 (fun q hq => hk q (by simp [hq]))⟩
      intro q hq
      rcases (mem_insert code t k v q).mp hq with rfl | hq
      · have := hk p (by simp)
        simp only
        omega
      · exact ht.1 q hq

/-- Part of a canonical table is canonical. -/
theorem Tab.wf_filter (d : κ → α) (code : κ → Nat) {t : List (κ × α)} (f : κ × α → Bool) (h : Wf d code t) : Wf d code (t.filter f) :=
  ⟨h.1.filter f, fun p hp => h.2 p (List.mem_filter.mp hp).1⟩

/-- A write keeps the canonical form. -/
theorem Tab.wf_set [DecidableEq κ] [DecidableEq α] (d : κ → α) (code : κ → Nat) (hc : Function.Injective code) {t : List (κ × α)} (k : κ) (v : α) (h : Wf d code t) :
    Wf d code (set d code t k v) := by
  have he : Wf d code (erase t k) := wf_filter d code _ h
  unfold set
  split
  · exact he
  · rename_i hv
    refine ⟨pairwise_insert code _ k v he.1 (fun p hp e => erase_ne t k p hp (hc e)), ?_⟩
    intro p hp
    rcases (mem_insert code _ k v p).mp hp with rfl | hp
    · exact hv
    · exact he.2 p hp


/-- The pairing of field keys is the library's. -/
theorem pair_eq (a b : Nat) : pair a b = Nat.pair a b := rfl

/-- Different field keys have different codes. -/
theorem FKey.code_injective : Function.Injective FKey.code := by
  intro a b h
  obtain ⟨a1, a2, a3, a4, a5⟩ := a
  obtain ⟨b1, b2, b3, b4, b5⟩ := b
  simp only [FKey.code, pair_eq, Nat.pair_eq_pair] at h
  obtain ⟨⟨h2, h3⟩, ⟨h4, h5⟩, h1⟩ := h
  subst h1 h2 h3 h4 h5
  rfl

end Sys2Proof.Machine
end

