-- ==== Sys2Proof/Laws/Kept.lean ====
section
/-! SUPPORT. What every effect keeps: the relation is a preorder, and the primitive updates of the state have it. -/
namespace Sys2Proof.Machine
open Sys2Proof

theorem Kept.refl (s : State) : Kept s s := ⟨rfl, le_refl _, le_refl _, id, id⟩

theorem Kept.trans {s t u : State} (h : Kept s t) (k : Kept t u) : Kept s u :=
  ⟨k.1.trans h.1, h.2.1.trans k.2.1, h.2.2.1.trans k.2.2.1, fun m => k.2.2.2.1 (h.2.2.2.1 m), fun m => k.2.2.2.2 (h.2.2.2.2 m)⟩

/-- What a step answers keeps it, when it answers a next state. -/
def KeptOut (s : State) (o : Out) : Prop :=
  match o with
  | .next t => Kept s t
  | _ => True

/-- The same for an effect that may not come about. -/
def KeptOpt (s : State) (o : Option State) : Prop := ∀ t, o = some t → Kept s t

/-- The same for a judgement that may refuse. -/
def KeptEx {β : Type} (s : State) (o : Except Nat (β × State)) : Prop := ∀ p, o = .ok p → Kept s p.2

/-- The same for a key operation. -/
def KeptKey (s : State) (o : Except Nat State) : Prop := ∀ t, o = .ok t → Kept s t

variable {s0 s : State}

/-- An update that leaves the queue, time, the count of free values, register fields and memory. -/
theorem kept_mk (resp : Resp) (em : EmberSt) (a b : SideSt) (fl : FlueSt) (ds : Tab DieSt) (cs : Tab Chan) (dm : DamperSt)
    (ab : List UnitId) : Kept s0 ⟨s.now, s.pending, s.free, resp, s.regs, s.mem, em, a, b, fl, ds, cs, dm, ab⟩ ↔ Kept s0 s := Iff.rfl

/-- Register fields changed by writes. -/
theorem kept_regs {l : List (FKey × Nat)} (hk : Kept s0 s) (hl : Tab.Wf FKey.rst FKey.code s.regs → Tab.Wf FKey.rst FKey.code l) :
    Kept s0 { s with regs := l } := ⟨hk.1, hk.2.1, hk.2.2.1, hk.2.2.2.1, fun m => hl (hk.2.2.2.2 m)⟩

/-- Memory changed by writes. -/
theorem kept_mem {l : Tab Byte} (hk : Kept s0 s) (hl : Tab.Wf memDefault id s.mem → Tab.Wf memDefault id l) :
    Kept s0 { s with mem := l } := ⟨hk.1, hk.2.1, hk.2.2.1, fun m => hl (hk.2.2.2.1 m), hk.2.2.2.2⟩

/-- Time passes. -/
theorem kept_now {n : Nat} (hk : Kept s0 s) (hn : s.now ≤ n) : Kept s0 { s with now := n } :=
  ⟨hk.1, hk.2.1.trans hn, hk.2.2.1, hk.2.2.2.1, hk.2.2.2.2⟩

/-- Free values are taken. -/
theorem kept_free {n : Nat} (hk : Kept s0 s) (hn : s.free ≤ n) : Kept s0 { s with free := n } :=
  ⟨hk.1, hk.2.1, hk.2.2.1.trans hn, hk.2.2.2.1, hk.2.2.2.2⟩

theorem kept_ok (hk : Kept s0 s) : KeptOut s0 (ok s) := hk

theorem kept_fault (f : Fault) : KeptOut s0 (.fault f) := trivial

theorem kept_some (hk : Kept s0 s) : KeptOpt s0 (some s) := fun _ h => Option.some.inj h ▸ hk

theorem kept_none : KeptOpt s0 none := fun _ h => nomatch h

/-- Both branches keep it. -/
theorem kept_ite {c : Prop} [Decidable c] {a b : State} (ha : Kept s0 a) (hb : Kept s0 b) : Kept s0 (if c then a else b) := by
  split <;> assumption

/-- A branch that goes on from the other. -/
theorem kept_then {c : Prop} [Decidable c] {a b : State} (ha : Kept b a) (hb : Kept s0 b) : Kept s0 (if c then a else b) :=
  kept_ite (hb.trans ha) hb

/-- The state that a pair holds. -/
theorem kept_of_snd {β : Type} {p : β × State} {b : β} (h : p = (b, s)) (hk : Kept s0 p.2) : Kept s0 s := by subst h; exact hk

theorem kept_of_fst {β : Type} {p : State × β} {b : β} (h : p = (s, b)) (hk : Kept s0 p.1) : Kept s0 s := by subst h; exact hk

theorem kept_of_some {o : Option State} (h : o = some s) (hk : KeptOpt s0 o) : Kept s0 s := hk s h

theorem kept_okEx {β : Type} {b : β} (hk : Kept s0 s) : KeptEx s0 (Except.ok (b, s) : Except Nat (β × State)) := fun _ h => Except.ok.inj h ▸ hk

theorem kept_error {β : Type} {e : Nat} : KeptEx s0 (Except.error e : Except Nat (β × State)) := fun _ h => nomatch h

theorem kept_of_ok {β : Type} {o : Except Nat (β × State)} {b : β} (h : o = .ok (b, s)) (hk : KeptEx s0 o) : Kept s0 s := hk _ h

theorem kept_okKey (hk : Kept s0 s) : KeptKey s0 (.ok s) := fun _ h => Except.ok.inj h ▸ hk

theorem kept_errKey {e : Nat} : KeptKey s0 (.error e) := fun _ h => nomatch h

theorem kept_of_okKey {o : Except Nat State} (h : o = .ok s) (hk : KeptKey s0 o) : Kept s0 s := hk s h

/-- Entries dropped from the register fields. -/
theorem kept_regs_filter (f : FKey × Nat → Bool) (hk : Kept s0 s) : Kept s0 { s with regs := s.regs.filter f } :=
  kept_regs hk (Tab.wf_filter _ _ _)

/-- Entries dropped from memory. -/
theorem kept_mem_filter (f : Nat × Byte → Bool) (hk : Kept s0 s) : Kept s0 { s with mem := s.mem.filter f } :=
  kept_mem hk (Tab.wf_filter _ _ _)

theorem kept_foldl {α : Type} (l : List α) (f : State → α → State) (hf : ∀ t a, Kept s0 t → Kept s0 (f t a)) :
    ∀ s, Kept s0 s → Kept s0 (l.foldl f s) := by
  induction l with
  | nil => exact fun _ h => h
  | cons a l ih => exact fun s h => ih (f s a) (hf s a h)

theorem kept_foldl_fst {α β : Type} (l : List α) (f : State × β → α → State × β) (hf : ∀ p a, Kept s0 p.1 → Kept s0 (f p a).1) :
    ∀ p : State × β, Kept s0 p.1 → Kept s0 (l.foldl f p).1 := by
  induction l with
  | nil => exact fun _ h => h
  | cons a l ih => exact fun p h => ih (f p a) (hf p a h)

theorem kept_foldl_snd {α β : Type} (l : List α) (f : β × State → α → β × State) (hf : ∀ p a, Kept s0 p.2 → Kept s0 (f p a).2) :
    ∀ p : β × State, Kept s0 p.2 → Kept s0 (l.foldl f p).2 := by
  induction l with
  | nil => exact fun _ h => h
  | cons a l ih => exact fun p h => ih (f p a) (hf p a h)

theorem kept_iter (f : State → State) (hf : ∀ t, Kept s0 t → Kept s0 (f t)) : ∀ n s, Kept s0 s → Kept s0 (iter f n s)
  | 0, _, h => h
  | n + 1, s, h => kept_iter f hf n (f s) (hf s h)

end Sys2Proof.Machine
end

