-- ==== Sys2Proof/Laws/KeptOps.lean ====
section
/-! SUPPORT. The definitions of Machine/Ops.lean keep what every effect keeps: the queue, time, the count of free values, and the
canonical forms. -/
namespace Sys2Proof.Machine
open Sys2Proof

set_option linter.unusedVariables false
set_option linter.unusedSimpArgs false
set_option linter.unusedTactic false
set_option linter.unreachableTactic false
set_option linter.tactic.unusedName false

variable {s0 : State}

/-- Writing a field keeps the canonical form of the register fields. -/
theorem State.set_kept (s : State) (h : Holder) (f : Fld) (i : Nat) (v : Nat) (hk : Kept s0 s) : Kept s0 (State.set s h f i v) :=
  kept_regs hk (Tab.wf_set _ _ FKey.code_injective _ _)

theorem State.add_kept (s : State) (h : Holder) (f : Fld) (i : Nat) (n : Nat) (hk : Kept s0 s) : Kept s0 (State.add s h f i n) := by
  unfold State.add
  with_reducible repeat' first
    | assumption | apply State.set_kept

theorem State.inc_kept (s : State) (h : Holder) (f : Fld) (i : Nat) (hk : Kept s0 s) : Kept s0 (State.inc s h f i) := by
  unfold State.inc
  with_reducible repeat' first
    | assumption | apply State.add_kept

theorem State.setBit_kept (s : State) (h : Holder) (f : Fld) (i : Nat) (b : Nat) (hk : Kept s0 s) :
    Kept s0 (State.setBit s h f i b) := by
  unfold State.setBit
  with_reducible repeat' first
    | assumption | apply State.set_kept

theorem State.clearBit_kept (s : State) (h : Holder) (f : Fld) (i : Nat) (b : Nat) (hk : Kept s0 s) :
    Kept s0 (State.clearBit s h f i b) := by
  unfold State.clearBit
  with_reducible repeat' first
    | assumption | apply State.set_kept

theorem State.toReset_kept (s : State) (h : Holder) (f : Fld) (i : Nat) (hk : Kept s0 s) : Kept s0 (State.toReset s h f i) := by
  unfold State.toReset
  with_reducible repeat' first
    | assumption | apply State.set_kept

theorem State.each_kept {α : Type} (s : State) (l : List α) (f : State → α → State) (hf : ∀ (y0 : State) (y1 : α), Kept s0 y0 → Kept s0 (f y0 y1)) (hk : Kept s0 s) :
    Kept s0 (State.each s l f) := by
  unfold State.each
  with_reducible repeat' first
    | assumption | intro _ | apply hf | apply kept_foldl

theorem State.setSide_kept (s : State) (x : Side) (d : SideSt) (hk : Kept s0 s) : Kept s0 (State.setSide s x d) := by
  unfold State.setSide
  try dsimp only
  with_reducible repeat' first
    | assumption | simp only [kept_mk] | split | refine kept_of_snd (by assumption) ?_ | refine kept_of_fst (by assumption) ?_
    | refine kept_of_some (by assumption) ?_ | dsimp only

theorem State.setDie_kept (s : State) (d : Nat) (v : DieSt) (hk : Kept s0 s) : Kept s0 (State.setDie s d v) := by
  unfold State.setDie
  try dsimp only
  with_reducible repeat' first
    | assumption | simp only [kept_mk] | dsimp only

theorem State.setChan_kept (s : State) (c : Nat) (v : Chan) (hk : Kept s0 s) : Kept s0 (State.setChan s c v) := by
  unfold State.setChan
  try dsimp only
  with_reducible repeat' first
    | assumption | simp only [kept_mk] | dsimp only

theorem State.setSrc_kept (s : State) (x : Side) (i : Nat) (v : Src) (hk : Kept s0 s) : Kept s0 (State.setSrc s x i v) := by
  unfold State.setSrc
  try dsimp only
  with_reducible repeat' first
    | assumption | apply State.setSide_kept | simp only [kept_mk] | dsimp only

theorem State.setCan_kept (s : State) (x : Side) (k : Nat) (v : CanSt) (hk : Kept s0 s) : Kept s0 (State.setCan s x k v) := by
  unfold State.setCan
  try dsimp only
  with_reducible repeat' first
    | assumption | apply State.setSide_kept | simp only [kept_mk] | dsimp only

theorem State.setHart_kept (s : State) (x : Side) (h : Nat) (v : Hart) (hk : Kept s0 s) : Kept s0 (State.setHart s x h v) := by
  unfold State.setHart
  try dsimp only
  with_reducible repeat' first
    | assumption | apply State.setSide_kept | simp only [kept_mk] | dsimp only

theorem State.setBridge_kept (s : State) (x : Side) (i : Nat) (v : Bridge) (hk : Kept s0 s) : Kept s0 (State.setBridge s x i v) := by
  unfold State.setBridge
  try dsimp only
  with_reducible repeat' first
    | assumption | apply State.setSide_kept | simp only [kept_mk] | dsimp only

/-- A free value taken counts up. -/
theorem State.took_kept (s : State) (hk : Kept s0 s) : Kept s0 (State.took s) := kept_free hk (Nat.le_succ _)

/-- Writing a byte keeps the canonical form of memory. -/
theorem State.setByte_kept (s : State) (x : Side) (a : Nat) (v : Byte) (hk : Kept s0 s) : Kept s0 (State.setByte s x a v) :=
  kept_mem hk (Tab.wf_set _ _ (fun _ _ h => h) _ _)

theorem State.store_kept (s : State) (x : Side) (a : Nat) (arg : List Nat) (hk : Kept s0 s) : Kept s0 (State.store s x a arg) := by
  fun_induction State.store
  with_reducible repeat' first
    | assumption | apply_assumption | apply State.setByte_kept | split | dsimp only

theorem State.storeLE_kept (s : State) (x : Side) (a : Nat) (n : Nat) (v : Nat) (hk : Kept s0 s) :
    Kept s0 (State.storeLE s x a n v) := by
  unfold State.storeLE
  with_reducible repeat' first
    | assumption | apply State.store_kept

theorem State.intr_kept (s : State) (x : Side) (n : Nat) (hk : Kept s0 s) : Kept s0 (State.intr s x n) := by
  unfold State.intr
  with_reducible repeat' first
    | assumption | apply State.setBit_kept | apply kept_ite | split

theorem State.ashFill_kept (s : State) (x : Side) (old : State) (hk0 : Kept s0 s) (hk1 : Kept s0 old) :
    Kept s0 (State.ashFill s x old) := by
  unfold State.ashFill
  with_reducible repeat' first
    | assumption | apply State.set_kept | apply State.intr_kept | apply kept_ite | split

theorem State.ashPut_kept (s : State) (x : Side) (prod : Nat) (e : LogEntry) (hk : Kept s0 s) :
    Kept s0 (State.ashPut s x prod e) := by
  unfold State.ashPut
  try dsimp only
  with_reducible repeat' first
    | assumption | intro _ | apply State.set_kept | apply State.inc_kept | apply State.setSide_kept | apply State.ashFill_kept
    | apply kept_foldl | apply kept_foldl_fst | apply kept_foldl_snd | apply kept_ite | simp only [kept_mk] | split | dsimp only

theorem State.log_kept (s : State) (x : Side) (code : Nat) (prod : Nat) (args : List Arg) (hk : Kept s0 s) :
    Kept s0 (State.log s x code prod args) := by
  unfold State.log
  try dsimp only
  with_reducible repeat' first
    | assumption | intro _ | apply State.each_kept | apply State.ashPut_kept | apply kept_ite | simp only [kept_mk] | split
    | refine kept_of_snd (by assumption) ?_ | refine kept_of_fst (by assumption) ?_ | refine kept_of_some (by assumption) ?_ | dsimp only

theorem State.logBoth_kept (s : State) (code : Nat) (prod : Nat) (args : List Arg) (hk : Kept s0 s) :
    Kept s0 (State.logBoth s code prod args) := by
  unfold State.logBoth
  with_reducible repeat' first
    | assumption | apply State.log_kept

theorem State.logFault_kept (s : State) (x : Side) (prod : Nat) (cause : Nat) (init : Nat) (world : Nat) (size : Nat) (write : Bool) (addr : Nat) (hk : Kept s0 s) :
    Kept s0 (State.logFault s x prod cause init world size write addr) := by
  unfold State.logFault
  try dsimp only
  with_reducible repeat' first
    | assumption | apply State.ashPut_kept | apply State.write_kept | apply kept_ite | split | dsimp only

theorem State.logFaultBoth_kept (s : State) (prod : Nat) (cause : Nat) (init : Nat) (world : Nat) (size : Nat) (write : Bool) (addr : Nat) (hk : Kept s0 s) :
    Kept s0 (State.logFaultBoth s prod cause init world size write addr) := by
  unfold State.logFaultBoth
  with_reducible repeat' first
    | assumption | apply State.logFault_kept | apply State.write_kept

theorem State.pairPull1_kept (s : State) (x : Side) (hk : Kept s0 s) : Kept s0 (State.pairPull1 s x) := by
  unfold State.pairPull1
  try dsimp only
  with_reducible repeat' first
    | assumption | apply State.setSide_kept | apply State.setSrc_kept | apply State.take_kept | apply kept_ite | simp only [kept_mk] | split
    | refine kept_of_snd (by assumption) ?_ | refine kept_of_fst (by assumption) ?_ | refine kept_of_some (by assumption) ?_ | dsimp only

theorem State.pairPull_kept (s : State) (x : Side) (hk : Kept s0 s) : Kept s0 (State.pairPull s x) := by
  unfold State.pairPull
  with_reducible repeat' first
    | assumption | intro _ | apply State.pairPull1_kept | apply kept_iter

theorem State.enqueue_kept (s : State) (x : Side) (i : Nat) (ws : List Nat) (hk : Kept s0 s) : Kept s0 (State.enqueue s x i ws) := by
  unfold State.enqueue
  try dsimp only
  with_reducible repeat' first
    | assumption | apply State.setSrc_kept | apply State.intr_kept | apply State.pairPull_kept | apply kept_ite | simp only [kept_mk]
    | split | dsimp only

theorem State.deliver_kept (s : State) (r : Reply) (hk : Kept s0 s) : Kept s0 (State.deliver s r) := by
  unfold State.deliver
  try dsimp only
  with_reducible repeat' first
    | assumption | intro _ | exact Kept.refl _ | apply State.inc_kept | apply State.setSide_kept | apply State.setSrc_kept
    | apply State.enqueue_kept
    | (apply kept_then; (focus ((repeat' first | exact Kept.refl _ | apply State.inc_kept | apply State.setSide_kept | apply State.setSrc_kept | apply State.enqueue_kept | apply kept_ite); done)))
    | apply kept_ite | simp only [kept_mk] | split | dsimp only

theorem State.answer_kept (s : State) (j : Job) (status : Nat) (detail : Nat) (words : List Nat) (hk : Kept s0 s) :
    Kept s0 (State.answer s j status detail words) := by
  unfold State.answer
  with_reducible repeat' first
    | assumption | apply State.deliver_kept

theorem State.event_kept (s : State) (x : Side) (w : Nat) (cls : Nat) (status : Nat) (detail : Nat) (target : Nat) (words : List Nat) (hk : Kept s0 s) :
    Kept s0 (State.event s x w cls status detail target words) := by
  unfold State.event
  try dsimp only
  with_reducible repeat' first
    | assumption | exact Kept.refl _ | apply State.set_kept | apply State.inc_kept | apply State.log_kept | apply State.enqueue_kept
    | (apply kept_then; (focus ((repeat' first | exact Kept.refl _ | apply State.set_kept | apply State.inc_kept | apply State.log_kept | apply State.enqueue_kept | apply kept_ite); done)))
    | apply kept_ite | split | dsimp only

theorem State.eventBoth_kept (s : State) (w : Nat) (cls : Nat) (status : Nat) (detail : Nat) (target : Nat) (words : List Nat) (hk : Kept s0 s) :
    Kept s0 (State.eventBoth s w cls status detail target words) := by
  unfold State.eventBoth
  with_reducible repeat' first
    | assumption | apply State.event_kept

end Sys2Proof.Machine
end

