-- ==== Sys2Proof/Laws/KeptMatcher.lean ====
section
/-! SUPPORT. The definitions of Machine/Matcher.lean keep what every effect keeps: the queue, time, the count of free values, and the
canonical forms. -/
namespace Sys2Proof.Machine
open Sys2Proof

set_option linter.unusedVariables false
set_option linter.unusedSimpArgs false
set_option linter.unusedTactic false
set_option linter.unreachableTactic false
set_option linter.tactic.unusedName false

variable {s0 : State}

theorem State.setMatcher_kept (s : State) (m : Matcher) (v : MatcherSt) (hk : Kept s0 s) : Kept s0 (State.setMatcher s m v) := by
  unfold State.setMatcher
  try dsimp only
  with_reducible repeat' first
    | assumption | apply State.setSide_kept | simp only [kept_mk] | split | refine kept_of_snd (by assumption) ?_
    | refine kept_of_fst (by assumption) ?_ | refine kept_of_some (by assumption) ?_ | dsimp only

theorem State.mw_kept (s : State) (m : Matcher) (f : Fld) (i : Nat) (v : Nat) (hk : Kept s0 s) : Kept s0 (State.mw s m f i v) := by
  unfold State.mw
  with_reducible repeat' first
    | assumption | apply State.set_kept

theorem State.mn_kept (s : State) (m : Matcher) (f : Fld) (i : Nat) (hk : Kept s0 s) : Kept s0 (State.mn s m f i) := by
  unfold State.mn
  with_reducible repeat' first
    | assumption | apply State.inc_kept

theorem State.sparkPost_kept (s : State) (m : Matcher) (src : Nat) (index : Nat) (edge : Nat) (key0 : Nat) (key1 : Nat) (payload : List Nat) (r : Sealing) (hk : Kept s0 s) :
    Kept s0 (State.sparkPost s m src index edge key0 key1 payload r) := by
  unfold State.sparkPost
  try dsimp only
  with_reducible repeat' first
    | assumption | apply State.setMatcher_kept | apply kept_ite | simp only [kept_mk] | split | dsimp only

theorem State.sparkCan_kept (s : State) (x : Side) (k : Nat) (h0 : Nat) (h1 : Nat) (h2 : Nat) (data : List Nat) (r : Sealing) (hk : Kept s0 s) :
    Kept s0 (State.sparkCan s x k h0 h1 h2 data r) := by
  unfold State.sparkCan
  with_reducible repeat' first
    | assumption | apply State.sparkPost_kept | apply kept_ite | split

theorem State.sparkEth_kept (s : State) (p : Nat) (b : List Nat) (r : Sealing) (hk : Kept s0 s) :
    Kept s0 (State.sparkEth s p b r) := by
  unfold State.sparkEth
  try dsimp only
  with_reducible repeat' first
    | assumption | apply State.sparkPost_kept | apply kept_ite | split | dsimp only

theorem State.sparkPin_kept (s : State) (x : Side) (n : Nat) (level : Bool) (hk : Kept s0 s) :
    Kept s0 (State.sparkPin s x n level) := by
  unfold State.sparkPin
  with_reducible repeat' first
    | assumption | apply State.sparkPost_kept

theorem State.sparkCapture_kept (s : State) (x : Side) (n : Nat) (hk : Kept s0 s) : Kept s0 (State.sparkCapture s x n) := by
  unfold State.sparkCapture
  with_reducible repeat' first
    | assumption | apply State.sparkPost_kept

end Sys2Proof.Machine
end

