-- ==== Sys2Proof/Laws/KeptFlags.lean ====
section
/-! SUPPORT. The definitions of Machine/Flags.lean keep what every effect keeps: the queue, time, the count of free values, and the
canonical forms. -/
namespace Sys2Proof.Machine
open Sys2Proof

set_option linter.unusedVariables false
set_option linter.unusedSimpArgs false
set_option linter.unusedTactic false
set_option linter.unreachableTactic false
set_option linter.tactic.unusedName false

variable {s0 : State}

theorem State.sideEvt_kept (s : State) (x : Side) (f : Fld) (hk : Kept s0 s) : Kept s0 (State.sideEvt s x f) := by
  unfold State.sideEvt
  with_reducible repeat' first
    | assumption | apply State.set_kept | apply State.intr_kept

theorem State.lifeEvt_kept (s : State) (x : Side) (f : Fld) (hk : Kept s0 s) : Kept s0 (State.lifeEvt s x f) := by
  unfold State.lifeEvt
  with_reducible repeat' first
    | assumption | apply State.set_kept | apply State.intr_kept

theorem State.timeEvt_kept (s : State) (x : Side) (f : Fld) (hk : Kept s0 s) : Kept s0 (State.timeEvt s x f) := by
  unfold State.timeEvt
  with_reducible repeat' first
    | assumption | apply State.set_kept | apply State.intr_kept

theorem State.feedEvt_kept (s : State) (f : Fld) (hk : Kept s0 s) : Kept s0 (State.feedEvt s f) := by
  unfold State.feedEvt
  with_reducible repeat' first
    | assumption | intro _ | apply State.set_kept | apply State.each_kept | apply State.intr_kept | apply kept_ite | split

theorem State.setStrap_kept (s : State) (i : Nat) (level : Bool) (hk : Kept s0 s) : Kept s0 (State.setStrap s i level) := by
  unfold State.setStrap
  try dsimp only
  with_reducible repeat' first
    | assumption | apply State.setBit_kept | apply State.clearBit_kept | apply kept_ite | simp only [kept_mk] | split | dsimp only

theorem State.flueEvt_kept (s : State) (f : Fld) (hk : Kept s0 s) : Kept s0 (State.flueEvt s f) := by
  unfold State.flueEvt
  try dsimp only
  with_reducible repeat' first
    | assumption | apply State.set_kept | simp only [kept_mk] | dsimp only

theorem State.blwEvt_kept (s : State) (f : Fld) (d : Nat) (hk : Kept s0 s) : Kept s0 (State.blwEvt s f d) := by
  unfold State.blwEvt
  try dsimp only
  with_reducible repeat' first
    | assumption | apply State.set_kept | simp only [kept_mk] | dsimp only

theorem State.canIrq_kept (s : State) (x : Side) (k : Nat) (f : Fld) (hk : Kept s0 s) : Kept s0 (State.canIrq s x k f) := by
  unfold State.canIrq
  try dsimp only
  with_reducible repeat' first
    | assumption | apply State.set_kept | apply State.intr_kept | apply kept_ite | split | dsimp only

theorem State.dmaIrq_kept (s : State) (x : Side) (n : Nat) (hk : Kept s0 s) : Kept s0 (State.dmaIrq s x n) := by
  unfold State.dmaIrq
  with_reducible repeat' first
    | assumption | apply State.intr_kept | apply kept_ite | split

theorem State.dmaErr_kept (s : State) (x : Side) (n : Nat) (code : Nat) (hk : Kept s0 s) : Kept s0 (State.dmaErr s x n code) := by
  unfold State.dmaErr
  with_reducible repeat' first
    | assumption | apply State.set_kept | apply State.dmaIrq_kept

theorem State.dmaHalt_kept (s : State) (x : Side) (n : Nat) (hk : Kept s0 s) : Kept s0 (State.dmaHalt s x n) := by
  unfold State.dmaHalt
  try dsimp only
  with_reducible repeat' first
    | assumption | intro _ | apply State.set_kept | apply State.each_kept | apply State.setSide_kept | apply State.setBridge_kept
    | apply kept_ite | simp only [kept_mk] | split | dsimp only

theorem State.dmaStop_kept (s : State) (x : Side) (n : Nat) (cause : Nat) (hk : Kept s0 s) :
    Kept s0 (State.dmaStop s x n cause) := by
  unfold State.dmaStop
  with_reducible repeat' first
    | assumption | apply State.dmaErr_kept | apply State.dmaHalt_kept

theorem State.dmaDone_kept (s : State) (x : Side) (n : Nat) (hk : Kept s0 s) : Kept s0 (State.dmaDone s x n) := by
  unfold State.dmaDone
  with_reducible repeat' first
    | assumption | apply State.set_kept | apply State.dmaIrq_kept

end Sys2Proof.Machine
end

