-- ==== Sys2Proof/Laws/KeptTokens.lean ====
section
/-! SUPPORT. The definitions of Machine/Tokens.lean keep what every effect keeps: the queue, time, the count of free values, and the
canonical forms. -/
namespace Sys2Proof.Machine
open Sys2Proof

set_option linter.unusedVariables false
set_option linter.unusedSimpArgs false
set_option linter.unusedTactic false
set_option linter.unreachableTactic false
set_option linter.tactic.unusedName false

variable {s0 : State}

/-- Time does not run backward. -/
theorem State.due_kept (s : State) (t : Nat) (hk : Kept s0 s) : Kept s0 (State.due s t) := kept_now hk (Nat.le_max_left _ _)

theorem State.planeSend_kept (s : State) (x : Side) (p : Nat) (arg : Nat) (hk : Kept s0 s) :
    Kept s0 (State.planeSend s x p arg) := by
  fun_induction State.planeSend
  try dsimp only
  with_reducible repeat' first
    | assumption | apply_assumption | intro _ | apply State.setSide_kept | apply kept_foldl | apply kept_ite | simp only [kept_mk] | split
    | refine kept_of_snd (by assumption) ?_ | refine kept_of_fst (by assumption) ?_ | refine kept_of_some (by assumption) ?_ | dsimp only

theorem State.planePost_kept (s : State) (x : Side) (p : Nat) (tick : Nat) (ws : List Nat) (hk : Kept s0 s) :
    Kept s0 (State.planePost s x p tick ws) := by
  unfold State.planePost
  try dsimp only
  with_reducible repeat' first
    | assumption | intro _ | apply State.setSide_kept | apply State.planeSend_kept | simp only [kept_mk] | dsimp only

theorem State.marker_kept (s : State) (d : Nat) (hk : Kept s0 s) : Kept s0 (State.marker s d) := by
  unfold State.marker
  try dsimp only
  with_reducible repeat' first
    | assumption | apply State.setDie_kept | apply State.took_kept | apply kept_ite | simp only [kept_mk] | split | dsimp only

theorem State.showTokens_kept (s : State) (x : Side) (hk : Kept s0 s) : Kept s0 (State.showTokens s x) := by
  unfold State.showTokens
  try dsimp only
  with_reducible repeat' first
    | assumption | intro _ | apply State.set_kept | apply State.setBit_kept | apply kept_foldl | apply kept_ite | split | dsimp only

theorem State.returnWaits_kept (s : State) (hk : Kept s0 s) : Kept s0 (State.returnWaits s) := by
  unfold State.returnWaits
  try dsimp only
  with_reducible repeat' first
    | assumption | intro _ | apply State.set_kept | apply State.each_kept | apply State.setSide_kept | apply kept_ite | simp only [kept_mk]
    | split | dsimp only

theorem State.returnGap_kept (s : State) (t : Nat) (x : Side) (hk : Kept s0 s) : Kept s0 (State.returnGap s t x) := by
  unfold State.returnGap
  try dsimp only
  with_reducible repeat' first
    | assumption | apply State.setSide_kept | apply kept_ite | simp only [kept_mk] | split | dsimp only

theorem State.gainToken_kept (s : State) (x : Side) (hk : Kept s0 s) : Kept s0 (State.gainToken s x) := by
  unfold State.gainToken
  with_reducible repeat' first
    | assumption | apply State.inc_kept | apply State.sideEvt_kept

theorem State.loseToken_kept (s : State) (x : Side) (hk : Kept s0 s) : Kept s0 (State.loseToken s x) := by
  unfold State.loseToken
  with_reducible repeat' first
    | assumption | apply State.inc_kept | apply State.sideEvt_kept

theorem State.passToken_kept (s : State) (t : Nat) (x : Side) (hk : Kept s0 s) : Kept s0 (State.passToken s t x) := by
  unfold State.passToken
  try dsimp only
  with_reducible repeat' first
    | assumption | apply State.set_kept | apply State.inc_kept | apply State.setDie_kept | apply State.intr_kept
    | apply State.showTokens_kept | apply State.returnWaits_kept | apply State.gainToken_kept | apply State.loseToken_kept | apply kept_ite
    | simp only [kept_mk] | split | dsimp only

theorem State.vacate_kept (s : State) (t : Nat) (hk : Kept s0 s) : Kept s0 (State.vacate s t) := by
  unfold State.vacate
  try dsimp only
  with_reducible repeat' first
    | assumption | apply State.set_kept | apply State.logBoth_kept | apply State.sideEvt_kept | apply State.showTokens_kept
    | apply State.returnWaits_kept | apply State.loseToken_kept | apply kept_ite | split | dsimp only

theorem State.recordClaim_kept (s : State) (t : Nat) (x : Side) (orderly : Bool) (hk : Kept s0 s) :
    Kept s0 (State.recordClaim s t x orderly) := by
  unfold State.recordClaim
  try dsimp only
  with_reducible repeat' first
    | assumption | apply State.set_kept | apply State.setDie_kept | simp only [kept_mk] | dsimp only

theorem State.claimRefused_kept (s : State) (x : Side) (hk : Kept s0 s) : Kept s0 (State.claimRefused s x) := by
  unfold State.claimRefused
  with_reducible repeat' first
    | assumption | apply State.log_kept

theorem State.autoClaim_kept (s : State) (x : Side) (t : Nat) (hk : Kept s0 s) : Kept s0 (State.autoClaim s x t) := by
  unfold State.autoClaim
  with_reducible repeat' first
    | assumption | apply State.recordClaim_kept | apply State.claimRefused_kept | apply kept_ite | split

theorem State.vacantClaim_kept (s : State) (x : Side) (t : Nat) (hk : Kept s0 s) : Kept s0 (State.vacantClaim s x t) := by
  unfold State.vacantClaim
  with_reducible repeat' first
    | assumption | apply State.recordClaim_kept | apply kept_ite | split

theorem State.sideDown_kept (s : State) (x : Side) (cause : Nat) (hk : Kept s0 s) : Kept s0 (State.sideDown s x cause) := by
  unfold State.sideDown
  try dsimp only
  with_reducible repeat' first
    | assumption | apply State.set_kept | apply State.setSide_kept | apply State.log_kept | apply State.returnWaits_kept | apply kept_ite
    | simp only [kept_mk] | split | dsimp only

end Sys2Proof.Machine
end

