-- ==== Sys2Proof/Laws/KeptMirror.lean ====
section
/-! SUPPORT. The definitions of Machine/Mirror.lean keep what every effect keeps: the queue, time, the count of free values, and the
canonical forms. -/
namespace Sys2Proof.Machine
open Sys2Proof

set_option linter.unusedVariables false
set_option linter.unusedSimpArgs false
set_option linter.unusedTactic false
set_option linter.unreachableTactic false
set_option linter.tactic.unusedName false

variable {s0 : State}

theorem State.eccSeen_kept (s : State) (x : Side) (a : Nat) (e : Ecc) (hk : Kept s0 s) : Kept s0 (State.eccSeen s x a e) := by
  unfold State.eccSeen
  try dsimp only
  with_reducible repeat' first
    | assumption | apply State.inc_kept | apply State.log_kept | apply kept_ite | simp only [kept_mk] | split
    | refine kept_of_snd (by assumption) ?_ | refine kept_of_fst (by assumption) ?_ | refine kept_of_some (by assumption) ?_ | dsimp only

theorem State.eccRead_kept (s : State) (x : Side) (a : Nat) (n : Nat) (lost : Option Word40) (corr : Option Word40) (hk : Kept s0 s) :
    Kept s0 (State.eccRead s x a n lost corr).2 := by
  unfold State.eccRead
  try dsimp only
  with_reducible repeat' first
    | assumption | exact Kept.refl _ | apply State.eccSeen_kept
    | (apply kept_then; (focus ((repeat' first | exact Kept.refl _ | apply State.eccSeen_kept | apply kept_ite); done))) | apply kept_ite
    | split | dsimp only

theorem State.engineRead_kept (s : State) (x : Side) (init : Nat) (w : Nat) (a : Nat) (n : Nat) (lost : Option Word40) (corr : Option Word40) (hk : Kept s0 s) :
    Kept s0 (State.engineRead s x init w a n lost corr).2 := by
  unfold State.engineRead
  try dsimp only
  with_reducible repeat' first
    | assumption | apply State.logFault_kept | apply State.eccRead_kept | apply kept_ite | split | dsimp only

theorem State.touch_kept (s : State) (x : Side) (a : Nat) (n : Nat) (hk : Kept s0 s) : Kept s0 (State.touch s x a n) := by
  unfold State.touch
  try dsimp only
  with_reducible repeat' first
    | assumption | intro _ | apply State.setSide_kept | apply kept_foldl | simp only [kept_mk] | dsimp only

theorem State.unreserve_kept (s : State) (x : Side) (a : Nat) (n : Nat) (hk : Kept s0 s) : Kept s0 (State.unreserve s x a n) := by
  unfold State.unreserve
  try dsimp only
  with_reducible repeat' first
    | assumption | intro _ | apply State.each_kept | apply State.setHart_kept | apply kept_ite | simp only [kept_mk] | split
    | refine kept_of_snd (by assumption) ?_ | refine kept_of_fst (by assumption) ?_ | refine kept_of_some (by assumption) ?_ | dsimp only

theorem State.write_kept (s : State) (x : Side) (a : Nat) (bs : List Nat) (hk : Kept s0 s) : Kept s0 (State.write s x a bs) := by
  unfold State.write
  with_reducible repeat' first
    | assumption | apply State.store_kept | apply State.touch_kept | apply State.unreserve_kept

theorem State.ckptStart_kept (s : State) (x : Side) (slot : Nat) (hk : Kept s0 s) : Kept s0 (State.ckptStart s x slot) := by
  unfold State.ckptStart
  try dsimp only
  with_reducible repeat' first
    | assumption | apply State.inc_kept | apply State.setSide_kept | apply kept_ite | simp only [kept_mk] | split | dsimp only

theorem State.copyLines_kept (s : State) (x : Side) (ls : List (Nat × Nat)) (hk : Kept s0 s) : Kept s0 (State.copyLines s x ls) := by
  unfold State.copyLines
  try dsimp only
  with_reducible repeat' first
    | assumption | intro _ | apply State.inc_kept | apply State.each_kept | apply State.setSide_kept | apply State.store_kept
    | apply State.unreserve_kept | simp only [kept_mk] | dsimp only

theorem State.showMirror_kept (s : State) (x : Side) (hk : Kept s0 s) : Kept s0 (State.showMirror s x) := by
  unfold State.showMirror
  with_reducible repeat' first
    | assumption | apply State.set_kept | apply State.returnWaits_kept

theorem State.ckptCut_kept (s : State) (x : Side) (ls : List (Nat × Nat)) (hk : Kept s0 s) : Kept s0 (State.ckptCut s x ls) := by
  unfold State.ckptCut
  try dsimp only
  with_reducible repeat' first
    | assumption | apply State.set_kept | apply State.inc_kept | apply State.setSide_kept | apply State.log_kept
    | apply State.copyLines_kept | apply kept_ite | simp only [kept_mk] | split | dsimp only

theorem State.ckptTear_kept (s : State) (x : Side) (hk : Kept s0 s) : Kept s0 (State.ckptTear s x) := by
  unfold State.ckptTear
  try dsimp only
  with_reducible repeat' first
    | assumption | apply State.took_kept | apply State.ckptCut_kept | apply State.take_kept | simp only [kept_mk] | split
    | refine kept_of_snd (by assumption) ?_ | refine kept_of_fst (by assumption) ?_ | refine kept_of_some (by assumption) ?_ | dsimp only

theorem State.mirrorStop_kept (s : State) (x : Side) (hk : Kept s0 s) : Kept s0 (State.mirrorStop s x) := by
  unfold State.mirrorStop
  try dsimp only
  with_reducible repeat' first
    | assumption | apply State.setSide_kept | apply State.showMirror_kept | apply State.ckptTear_kept | simp only [kept_mk] | dsimp only

theorem State.ckptEnd_kept (s : State) (x : Side) (lost : Option Word40) (corr : Option Word40) (hk : Kept s0 s) :
    Kept s0 (State.ckptEnd s x lost corr) := by
  unfold State.ckptEnd
  try dsimp only
  with_reducible repeat' first
    | assumption | intro _ | exact Kept.refl _ | apply State.inc_kept | apply State.setSide_kept | apply State.done_kept
    | apply State.engineRead_kept | apply State.copyLines_kept | apply State.showMirror_kept | apply State.ckptCut_kept
    | apply State.ckptTear_kept | apply kept_foldl | apply kept_foldl_fst | apply kept_foldl_snd
    | (apply kept_then; (focus ((repeat' first | exact Kept.refl _ | apply State.inc_kept | apply State.setSide_kept | apply State.done_kept | apply State.engineRead_kept | apply State.copyLines_kept | apply State.showMirror_kept | apply State.ckptCut_kept | apply State.ckptTear_kept | apply kept_ite); done)))
    | apply kept_ite | simp only [kept_mk] | split | refine kept_of_snd (by assumption) ?_ | refine kept_of_fst (by assumption) ?_
    | refine kept_of_some (by assumption) ?_ | dsimp only

end Sys2Proof.Machine
end

