-- ==== Sys2Proof/Laws/KeptHarts.lean ====
section
/-! SUPPORT. The definitions of Machine/Harts.lean keep what every effect keeps: the queue, time, the count of free values, and the
canonical forms. -/
namespace Sys2Proof.Machine
open Sys2Proof

set_option linter.unusedVariables false
set_option linter.unusedSimpArgs false
set_option linter.unusedTactic false
set_option linter.unreachableTactic false
set_option linter.tactic.unusedName false

variable {s0 : State}

theorem State.stepEnd_kept (s : State) (x : Side) (h : Nat) (hk : Kept s0 s) : Kept s0 (State.stepEnd s x h) := by
  unfold State.stepEnd
  try dsimp only
  with_reducible repeat' first
    | assumption | apply State.clearBit_kept | apply State.setSide_kept | apply State.setHart_kept | apply kept_ite | simp only [kept_mk]
    | split | dsimp only

theorem State.exception_kept (s : State) (x : Side) (h : Nat) (cause : Nat) (tval : Nat) (hk : Kept s0 s) :
    Kept s0 (State.exception s x h cause tval) := by
  unfold State.exception
  with_reducible repeat' first
    | assumption | apply State.setHart_kept

theorem State.irqTake_kept (s : State) (x : Side) (h : Nat) (hk : Kept s0 s) : Kept s0 (State.irqTake s x h) := by
  unfold State.irqTake
  try dsimp only
  with_reducible repeat' first
    | assumption | apply State.setHart_kept | apply kept_ite | split | dsimp only

theorem State.irqAll_kept (s : State) (hk : Kept s0 s) : Kept s0 (State.irqAll s) := by
  unfold State.irqAll
  with_reducible repeat' first
    | assumption | intro _ | apply State.each_kept | apply State.irqTake_kept

theorem State.illegal_kept (s : State) (x : Side) (h : Nat) (hk : Kept s0 s) : Kept s0 (State.illegal s x h) := by
  unfold State.illegal
  with_reducible repeat' first
    | assumption | apply State.took_kept | apply State.exception_kept

theorem State.csrAccess_kept (s : State) (x : Side) (h : Nat) (n : Nat) (data : Option Nat) (hk : Kept s0 s) :
    Kept s0 (State.csrAccess s x h n data) := by
  unfold State.csrAccess
  try dsimp only
  with_reducible repeat' first
    | assumption | apply State.setHart_kept | apply State.illegal_kept | apply kept_ite | simp only [kept_mk] | split
    | refine kept_of_snd (by assumption) ?_ | refine kept_of_fst (by assumption) ?_ | refine kept_of_some (by assumption) ?_ | dsimp only

end Sys2Proof.Machine
end

