-- ==== Sys2Proof/Laws/KeptOperands.lean ====
section
/-! SUPPORT. The definitions of Machine/Operands.lean keep what every effect keeps: the queue, time, the count of free values, and the
canonical forms. -/
namespace Sys2Proof.Machine
open Sys2Proof

set_option linter.unusedVariables false
set_option linter.unusedSimpArgs false
set_option linter.unusedTactic false
set_option linter.unreachableTactic false
set_option linter.tactic.unusedName false

variable {s0 : State}

theorem State.secEvent_kept (s : State) (x : Side) (b : Nat) (hk : Kept s0 s) : Kept s0 (State.secEvent s x b) := by
  unfold State.secEvent
  try dsimp only
  with_reducible repeat' first
    | assumption | intro _ | apply State.setSide_kept | apply kept_ite | simp only [kept_mk] | split | dsimp only

theorem State.wotViolation_kept (s : State) (x : Side) (init : Nat) (w : Nat) (k : Nat) (a : Nat) (hk : Kept s0 s) :
    Kept s0 (State.wotViolation s x init w k a) := by
  unfold State.wotViolation
  try dsimp only
  with_reducible repeat' first
    | assumption | apply State.set_kept | apply State.inc_kept | apply State.intr_kept | apply State.secEvent_kept | apply kept_ite | split
    | dsimp only

theorem State.accessFault_kept (s : State) (x : Side) (o : Origin) (write : Bool) (a : Nat) (hk : Kept s0 s) :
    Kept s0 (State.accessFault s x o write a) := by
  unfold State.accessFault
  try dsimp only
  with_reducible repeat' first
    | assumption | apply State.exception_kept | apply State.write_kept | apply kept_ite | simp only [kept_mk] | split
    | refine kept_of_snd (by assumption) ?_ | refine kept_of_fst (by assumption) ?_ | refine kept_of_some (by assumption) ?_ | dsimp only

theorem State.busError_kept (s : State) (x : Side) (o : Origin) (cause : Nat) (size : Nat) (write : Bool) (a : Nat) (hk : Kept s0 s) :
    Kept s0 (State.busError s x o cause size write a) := by
  unfold State.busError
  try dsimp only
  with_reducible repeat' first
    | assumption | apply State.logFault_kept | apply State.wotViolation_kept | apply State.accessFault_kept | apply State.write_kept
    | apply kept_ite | simp only [kept_mk] | split | dsimp only

theorem State.stepDone_kept (s : State) (x : Side) (o : Origin) (hk : Kept s0 s) : Kept s0 (State.stepDone s x o) := by
  unfold State.stepDone
  try dsimp only
  with_reducible repeat' first
    | assumption | apply State.stepEnd_kept | simp only [kept_mk] | split | refine kept_of_snd (by assumption) ?_
    | refine kept_of_fst (by assumption) ?_ | refine kept_of_some (by assumption) ?_ | dsimp only

theorem State.guarded_kept (s : State) (x : Side) (o : Origin) (a : Nat) (size : Nat) (write : Bool) (f : State → State) (hf : ∀ (y0 : State), Kept s0 y0 → Kept s0 (f y0)) (hk : Kept s0 s) :
    Kept s0 (State.guarded s x o a size write f) := by
  unfold State.guarded
  try dsimp only
  with_reducible repeat' first
    | assumption | intro _ | exact Kept.refl _ | apply State.accessFault_kept | apply State.busError_kept | apply State.stepDone_kept
    | apply State.write_kept | apply hf
    | (apply kept_then; (focus ((repeat' first | exact Kept.refl _ | apply State.accessFault_kept | apply State.busError_kept | apply State.stepDone_kept | apply State.write_kept | apply kept_ite); done)))
    | apply kept_ite | simp only [kept_mk] | split | dsimp only

theorem State.writeField_kept (s : State) (h : Holder) (i : Nat) (v : Nat) (f : Fld) (hk : Kept s0 s) :
    Kept s0 (State.writeField s h i v f) := by
  unfold State.writeField
  try dsimp only
  with_reducible repeat' first
    | assumption | apply State.set_kept | simp only [kept_mk] | split | refine kept_of_snd (by assumption) ?_
    | refine kept_of_fst (by assumption) ?_ | refine kept_of_some (by assumption) ?_ | dsimp only

theorem State.writeReg_kept (s : State) (h : Holder) (r : Reg) (i : Nat) (v : Nat) (hk : Kept s0 s) :
    Kept s0 (State.writeReg s h r i v) := by
  unfold State.writeReg
  with_reducible repeat' first
    | assumption | intro _ | apply State.each_kept | apply State.writeField_kept

end Sys2Proof.Machine
end

