-- ==== Sys2Proof/Laws/KeptMemory.lean ====
section
/-! SUPPORT. The definitions of Machine/Memory.lean keep what every effect keeps: the queue, time, the count of free values, and the
canonical forms. -/
namespace Sys2Proof.Machine
open Sys2Proof

set_option linter.unusedVariables false
set_option linter.unusedSimpArgs false
set_option linter.unusedTactic false
set_option linter.unreachableTactic false
set_option linter.tactic.unusedName false

variable {s0 : State}

theorem State.memRead_kept (s : State) (x : Side) (o : Origin) (a : Nat) (size : Nat) (e : Ecc) (write : Bool) (hk : Kept s0 s) :
    Kept s0 (State.memRead s x o a size e write) := by
  unfold State.memRead
  try dsimp only
  with_reducible repeat' first
    | assumption | apply State.busError_kept | apply State.eccSeen_kept | apply State.write_kept | apply kept_ite | simp only [kept_mk]
    | split | dsimp only

theorem State.reserveLine_kept (s : State) (x : Side) (o : Origin) (r : Option Nat) (hk : Kept s0 s) :
    Kept s0 (State.reserveLine s x o r) := by
  unfold State.reserveLine
  try dsimp only
  with_reducible repeat' first
    | assumption | apply State.setHart_kept | simp only [kept_mk] | split | refine kept_of_snd (by assumption) ?_
    | refine kept_of_fst (by assumption) ?_ | refine kept_of_some (by assumption) ?_ | dsimp only

theorem State.memAccess_kept (s : State) (x : Side) (o : Origin) (a : Nat) (size : Nat) (k : AccKind) (v : Nat) (hk : Kept s0 s) :
    Kept s0 (State.memAccess s x o a size k v) := by
  unfold State.memAccess
  try dsimp only
  with_reducible repeat' first
    | assumption | exact Kept.refl _ | apply State.store_kept | apply State.write_kept | apply State.memRead_kept
    | apply State.reserveLine_kept
    | (apply kept_then; (focus ((repeat' first | exact Kept.refl _ | apply State.store_kept | apply State.write_kept | apply State.memRead_kept | apply State.reserveLine_kept | apply kept_ite); done)))
    | apply kept_ite | simp only [kept_mk] | split | refine kept_of_snd (by assumption) ?_ | refine kept_of_fst (by assumption) ?_
    | refine kept_of_some (by assumption) ?_ | dsimp only

theorem State.waitFor_kept (s : State) (x : Side) (o : Origin) (a : Nat) (size : Nat) (k : AccKind) (v : Nat) (hk : Kept s0 s) :
    Kept s0 (State.waitFor s x o a size k v) := by
  unfold State.waitFor
  try dsimp only
  with_reducible repeat' first
    | assumption | apply State.setSide_kept | simp only [kept_mk] | split | refine kept_of_snd (by assumption) ?_
    | refine kept_of_fst (by assumption) ?_ | refine kept_of_some (by assumption) ?_ | dsimp only

theorem State.runWaits_kept (s : State) (x : Side) (hk : Kept s0 s) : Kept s0 (State.runWaits s x) := by
  unfold State.runWaits
  try dsimp only
  with_reducible repeat' first
    | assumption | intro _ | apply State.each_kept | apply State.setSide_kept | apply State.memAccess_kept | simp only [kept_mk]
    | dsimp only

theorem State.dropWaits_kept (s : State) (x : Side) (h : Nat) (hk : Kept s0 s) : Kept s0 (State.dropWaits s x h) := by
  unfold State.dropWaits
  try dsimp only
  with_reducible repeat' first
    | assumption | intro _ | apply State.each_kept | apply State.setSide_kept | apply State.setBridge_kept | simp only [kept_mk] | split
    | dsimp only

end Sys2Proof.Machine
end

