-- ==== Sys2Proof/Laws/KeptPackets.lean ====
section
/-! SUPPORT. The definitions of Machine/Packets.lean keep what every effect keeps: the queue, time, the count of free values, and the
canonical forms. -/
namespace Sys2Proof.Machine
open Sys2Proof

set_option linter.unusedVariables false
set_option linter.unusedSimpArgs false
set_option linter.unusedTactic false
set_option linter.unreachableTactic false
set_option linter.tactic.unusedName false

variable {s0 : State}

theorem State.done_kept (s : State) (j : Job) (status : Nat) (detail : Nat) (words : List Nat) (hk : Kept s0 s) :
    Kept s0 (State.done s j status detail words) := by
  unfold State.done
  try dsimp only
  with_reducible repeat' first
    | assumption | apply State.set_kept | apply State.answer_kept | apply kept_ite | split | dsimp only

theorem State.doneAbsent_kept (s : State) (j : Job) (u : UnitId) (hk : Kept s0 s) : Kept s0 (State.doneAbsent s j u) := by
  unfold State.doneAbsent
  with_reducible repeat' first
    | assumption | apply State.inc_kept | apply State.done_kept

theorem State.longMove_kept (s : State) (x : Side) (hk : Kept s0 s) : Kept s0 (State.longMove s x) := by
  unfold State.longMove
  try dsimp only
  with_reducible repeat' first
    | assumption | apply State.setSide_kept | apply kept_ite | simp only [kept_mk] | split | dsimp only

theorem State.chromir_kept (s : State) (x : Side) (code : Nat) (f : State → Job → State) (hf : ∀ (y0 : State) (y1 : Job), Kept s0 y0 → Kept s0 (f y0 y1)) (hk : Kept s0 s) :
    Kept s0 (State.chromir s x code f) := by
  unfold State.chromir
  try dsimp only
  with_reducible repeat' first
    | assumption | intro _ | apply State.setSide_kept | apply State.longMove_kept | apply hf | apply kept_ite | simp only [kept_mk] | split
    | refine kept_of_snd (by assumption) ?_ | refine kept_of_fst (by assumption) ?_ | refine kept_of_some (by assumption) ?_ | dsimp only

theorem State.long_kept (s : State) (x : Side) (code : Nat) (f : State → Job → State × Reply) (hf : ∀ (y0 : State) (y1 : Job), Kept s0 y0 → Kept s0 (f y0 y1).1) (hk : Kept s0 s) :
    Kept s0 (State.long s x code f) := by
  unfold State.long
  try dsimp only
  with_reducible repeat' first
    | assumption | intro _ | apply State.setSide_kept | apply hf | apply kept_ite | simp only [kept_mk] | split
    | refine kept_of_snd (by assumption) ?_ | refine kept_of_fst (by assumption) ?_ | refine kept_of_some (by assumption) ?_ | dsimp only

theorem State.sendReplies_kept (s : State) (x : Side) (d : Nat) (arg : Nat) (hk : Kept s0 s) :
    Kept s0 (State.sendReplies s x d arg) := by
  fun_induction State.sendReplies
  try dsimp only
  with_reducible repeat' first
    | assumption | apply_assumption | intro _ | apply State.setSide_kept | apply State.setDie_kept | apply kept_foldl | apply kept_ite
    | simp only [kept_mk] | split | refine kept_of_snd (by assumption) ?_ | refine kept_of_fst (by assumption) ?_
    | refine kept_of_some (by assumption) ?_ | dsimp only

theorem State.dieReply_kept (s : State) (d : Nat) (r : Reply) (hk : Kept s0 s) : Kept s0 (State.dieReply s d r) := by
  unfold State.dieReply
  try dsimp only
  with_reducible repeat' first
    | assumption | apply State.setDie_kept | apply State.sendReplies_kept | simp only [kept_mk] | dsimp only

theorem State.fast_kept (s : State) (x : Side) (d : Nat) (code : Nat) (f : State → Job → State) (hf : ∀ (y0 : State) (y1 : Job), Kept s0 y0 → Kept s0 (f y0 y1)) (hk : Kept s0 s) :
    Kept s0 (State.fast s x d code f) := by
  unfold State.fast
  try dsimp only
  with_reducible repeat' first
    | assumption | intro _ | apply State.setSide_kept | apply hf | apply kept_ite | simp only [kept_mk] | split
    | refine kept_of_snd (by assumption) ?_ | refine kept_of_fst (by assumption) ?_ | refine kept_of_some (by assumption) ?_ | dsimp only

end Sys2Proof.Machine
end

