-- ==== Sys2Proof/Laws/KeptRing.lean ====
section
/-! SUPPORT. The definitions of Machine/Ring.lean keep what every effect keeps: the queue, time, the count of free values, and the
canonical forms. -/
namespace Sys2Proof.Machine
open Sys2Proof

set_option linter.unusedVariables false
set_option linter.unusedSimpArgs false
set_option linter.unusedTactic false
set_option linter.unreachableTactic false
set_option linter.tactic.unusedName false

variable {s0 : State}

theorem State.onNet_kept (s : State) (j : Job) (f : State → State) (hf : ∀ (y0 : State), Kept s0 y0 → Kept s0 (f y0)) (hk : Kept s0 s) :
    Kept s0 (State.onNet s j f) := by
  unfold State.onNet
  with_reducible repeat' first
    | assumption | intro _ | apply State.done_kept | apply State.doneAbsent_kept | apply hf | apply kept_ite | split

theorem State.lifeAccess_kept (s : State) (x : Side) (o : Origin) (off : Nat) (write : Bool) (f : State → State) (hf : ∀ (y0 : State), Kept s0 y0 → Kept s0 (f y0)) (hk : Kept s0 s) :
    Kept s0 (State.lifeAccess s x o off write f) := by
  unfold State.lifeAccess
  with_reducible repeat' first
    | assumption | intro _ | apply State.busError_kept | apply State.guarded_kept | apply State.write_kept | apply hf | apply kept_ite
    | split

theorem State.lifeGo_kept (s : State) (x : Side) (v : Nat) (hk : Kept s0 s) : Kept s0 (State.lifeGo s x v) := by
  unfold State.lifeGo
  try dsimp only
  with_reducible repeat' first
    | assumption | intro _ | apply State.inc_kept | apply State.setSide_kept | apply kept_ite | simp only [kept_mk] | split | dsimp only

theorem execLifeTxGo_kept (x : Side) (o : Origin) (v : BitVec 32) (s : State) (hk : Kept s0 s) :
    KeptOut s0 (execLifeTxGo x o v s) := by
  unfold execLifeTxGo
  with_reducible repeat' first
    | assumption | intro _ | apply State.lifeAccess_kept | apply State.lifeGo_kept | apply kept_ok

theorem execLifeTxDone_kept (x : Side) (s : State) (hk : Kept s0 s) : KeptOut s0 (execLifeTxDone x s) := by
  unfold execLifeTxDone
  try dsimp only
  with_reducible repeat' first
    | assumption | apply State.inc_kept | apply State.setSide_kept | apply State.lifeEvt_kept | apply kept_ite | simp only [kept_mk] | split
    | refine kept_of_snd (by assumption) ?_ | refine kept_of_fst (by assumption) ?_ | refine kept_of_some (by assumption) ?_ | apply kept_ok
    | dsimp only

theorem State.lifeRx_kept (s : State) (x : Side) (f : EthFrame) (hk : Kept s0 s) : Kept s0 (State.lifeRx s x f) := by
  unfold State.lifeRx
  try dsimp only
  with_reducible repeat' first
    | assumption | exact Kept.refl _ | apply State.inc_kept | apply State.setSide_kept | apply State.store_kept | apply State.lifeEvt_kept
    | apply State.take_kept
    | (apply kept_then; (focus ((repeat' first | exact Kept.refl _ | apply State.inc_kept | apply State.setSide_kept | apply State.store_kept | apply State.lifeEvt_kept | apply State.take_kept | apply kept_ite); done)))
    | apply kept_ite | simp only [kept_mk] | split | dsimp only

theorem execLifeRxFrame_kept (x : Side) (f : EthFrame) (s : State) (hk : Kept s0 s) : KeptOut s0 (execLifeRxFrame x f s) := by
  unfold execLifeRxFrame
  with_reducible repeat' first
    | assumption | apply State.lifeRx_kept | apply kept_ok

theorem State.lifeRelease_kept (s : State) (x : Side) (v : Nat) (hk : Kept s0 s) : Kept s0 (State.lifeRelease s x v) := by
  unfold State.lifeRelease
  try dsimp only
  with_reducible repeat' first
    | assumption | apply State.setSide_kept | apply State.lifeRx_kept | apply kept_ite | simp only [kept_mk] | split | dsimp only

theorem execLifeRxRelease_kept (x : Side) (o : Origin) (v : BitVec 32) (s : State) (hk : Kept s0 s) :
    KeptOut s0 (execLifeRxRelease x o v s) := by
  unfold execLifeRxRelease
  with_reducible repeat' first
    | assumption | intro _ | apply State.lifeAccess_kept | apply State.lifeRelease_kept | apply kept_ok

theorem State.lifeTurn_kept (s : State) (x : Side) (up : Bool) (hk : Kept s0 s) : Kept s0 (State.lifeTurn s x up) := by
  unfold State.lifeTurn
  try dsimp only
  with_reducible repeat' first
    | assumption | apply State.set_kept | apply State.add_kept | apply State.inc_kept | apply State.setSide_kept | apply State.lifeEvt_kept
    | apply kept_ite | simp only [kept_mk] | split | dsimp only

theorem State.lifeLink_kept (s : State) (x : Side) (up : Bool) (hk : Kept s0 s) : Kept s0 (State.lifeLink s x up) := by
  unfold State.lifeLink
  with_reducible repeat' first
    | assumption | apply State.lifeTurn_kept | apply kept_ite | split

theorem State.lifeMoved_kept (s : State) (x : Side) (hk : Kept s0 s) : Kept s0 (State.lifeMoved s x) := by
  unfold State.lifeMoved
  with_reducible repeat' first
    | assumption | apply State.lifeTurn_kept | apply kept_ite | split

theorem State.hvilJudge_kept (s : State) (x : Side) (l : List Nat) (volts : Nat) (hk : Kept s0 s) :
    Kept s0 (State.hvilJudge s x l volts) := by
  unfold State.hvilJudge
  try dsimp only
  with_reducible repeat' first
    | assumption | intro _ | apply State.set_kept | apply State.inc_kept | apply State.log_kept | apply State.lifeEvt_kept
    | apply kept_foldl | apply kept_ite | split | dsimp only

theorem execHvilWindow_kept (x : Side) (amps : List Word40) (volts : Word40) (s : State) (hk : Kept s0 s) :
    KeptOut s0 (execHvilWindow x amps volts s) := by
  unfold execHvilWindow
  try dsimp only
  with_reducible repeat' first
    | assumption | intro _ | apply State.setSide_kept | apply State.due_kept | apply State.hvilJudge_kept | apply State.take_kept
    | apply kept_ite | simp only [kept_mk] | split | apply kept_ok | dsimp only

end Sys2Proof.Machine
end

