-- ==== Sys2Proof/Laws/KeptSwitch.lean ====
section
/-! SUPPORT. The definitions of Machine/Switch.lean keep what every effect keeps: the queue, time, the count of free values, and the
canonical forms. -/
namespace Sys2Proof.Machine
open Sys2Proof

set_option linter.unusedVariables false
set_option linter.unusedSimpArgs false
set_option linter.unusedTactic false
set_option linter.unreachableTactic false
set_option linter.tactic.unusedName false

variable {s0 : State}

theorem State.cnt_kept (s : State) (p : Nat) (k : Nat) (n : Nat) (hk : Kept s0 s) : Kept s0 (State.cnt s p k n) := by
  unfold State.cnt
  with_reducible repeat' first
    | assumption | apply State.add_kept

theorem State.setArriving_kept (s : State) (p : Nat) (v : Arriving) (hk : Kept s0 s) : Kept s0 (State.setArriving s p v) := by
  unfold State.setArriving
  try dsimp only
  with_reducible repeat' first
    | assumption | simp only [kept_mk] | dsimp only

theorem State.grantCells_kept (s : State) (want : List (Nat × Nat)) (hk : Kept s0 s) : Kept s0 (State.grantCells s want) := by
  unfold State.grantCells
  try dsimp only
  with_reducible repeat' first
    | assumption | intro _ | apply State.setArriving_kept | apply kept_foldl | apply kept_foldl_fst | apply kept_foldl_snd | dsimp only

theorem State.drawCells_kept (s : State) (want : List (Nat × Nat)) (hk : Kept s0 s) : Kept s0 (State.drawCells s want) := by
  unfold State.drawCells
  with_reducible repeat' first
    | assumption | intro _ | apply State.grantCells_kept | apply kept_iter

/-- The frame in reception leaves it, kept or lost. -/
theorem State.takeCells_kept (s : State) (p : Nat) (hk : Kept s0 s) :
    (∀ k t, s.takeCells p = .inr (k, t) → Kept s0 t) ∧ (∀ i t, s.takeCells p = .inl (i, t) → Kept s0 t) := by
  unfold State.takeCells
  dsimp only
  constructor <;> intro a t h <;> split at h <;> cases h
  · exact State.setArriving_kept _ _ _ hk
  · rw [kept_mk]
    exact State.setArriving_kept _ _ _ hk

theorem State.hold_kept (s : State) (id : Nat) (hk : Kept s0 s) : Kept s0 (State.hold s id) := by
  unfold State.hold
  try dsimp only
  with_reducible repeat' first
    | assumption | intro _ | apply kept_ite | simp only [kept_mk] | split | simp only [id] | dsimp only

theorem State.release_kept (s : State) (id : Nat) (hk : Kept s0 s) : Kept s0 (State.release s id) := by
  unfold State.release
  try dsimp only
  with_reducible repeat' first
    | assumption | intro _ | apply kept_ite | simp only [kept_mk] | split | simp only [id] | dsimp only

theorem State.reclaim_kept (s : State) (id : Nat) (hk : Kept s0 s) : Kept s0 (State.reclaim s id) := by
  unfold State.reclaim
  try dsimp only
  with_reducible repeat' first
    | assumption | intro _ | simp only [kept_mk] | split | simp only [id] | dsimp only

theorem State.setSaPn_kept (s : State) (i : Nat) (v : Nat) (hk : Kept s0 s) : Kept s0 (State.setSaPn s i v) := by
  unfold State.setSaPn
  with_reducible repeat' first
    | assumption | apply State.set_kept

theorem State.validate_kept (s : State) (p : Nat) (b : List Nat) (hk : Kept s0 s) : KeptEx s0 (State.validate s p b) := by
  unfold State.validate
  try dsimp only
  with_reducible repeat' first
    | assumption | intro _ | exact Kept.refl _ | apply State.cnt_kept | apply State.setSaPn_kept | apply State.take_kept
    | (apply kept_then; (focus ((repeat' first | exact Kept.refl _ | apply State.cnt_kept | apply State.setSaPn_kept | apply State.take_kept | apply kept_ite); done)))
    | apply kept_ite | simp only [kept_mk] | split | refine kept_of_snd (by assumption) ?_ | refine kept_of_fst (by assumption) ?_
    | refine kept_of_some (by assumption) ?_ | apply kept_ok | apply kept_okEx | apply kept_error | dsimp only

theorem State.setFdb_kept (s : State) (l : List FdbEntry) (hk : Kept s0 s) : Kept s0 (State.setFdb s l) := by
  unfold State.setFdb
  try dsimp only
  with_reducible repeat' first
    | assumption | simp only [kept_mk] | dsimp only

theorem State.learn_kept (s : State) (p : Nat) (c : Classified) (hk : Kept s0 s) : Kept s0 (State.learn s p c) := by
  unfold State.learn
  try dsimp only
  with_reducible repeat' first
    | assumption | intro _ | exact Kept.refl _ | apply State.set_kept | apply State.logBoth_kept | apply State.flueEvt_kept
    | apply State.cnt_kept | apply State.setFdb_kept
    | (apply kept_then; (focus ((repeat' first | exact Kept.refl _ | apply State.set_kept | apply State.logBoth_kept | apply State.flueEvt_kept | apply State.cnt_kept | apply State.setFdb_kept | apply kept_ite); done)))
    | apply kept_ite | simp only [kept_mk] | split | refine kept_of_snd (by assumption) ?_ | refine kept_of_fst (by assumption) ?_
    | refine kept_of_some (by assumption) ?_ | dsimp only

theorem State.meter_kept (s : State) (f : Nat) (inCol : Nat) (len : Nat) (hk : Kept s0 s) :
    Kept s0 (State.meter s f inCol len).2 := by
  unfold State.meter
  try dsimp only
  with_reducible repeat' first
    | assumption | apply State.inc_kept | apply kept_ite | simp only [kept_mk] | split | refine kept_of_snd (by assumption) ?_
    | refine kept_of_fst (by assumption) ?_ | refine kept_of_some (by assumption) ?_ | dsimp only

theorem State.recover_kept (s : State) (n : Nat) (seq : Option Nat) (hk : Kept s0 s) : Kept s0 (State.recover s n seq).2 := by
  unfold State.recover
  try dsimp only
  with_reducible repeat' first
    | assumption | intro _ | exact Kept.refl _ | apply State.set_kept | apply State.add_kept | apply State.inc_kept
    | apply State.setBit_kept
    | (apply kept_then; (focus ((repeat' first | exact Kept.refl _ | apply State.set_kept | apply State.add_kept | apply State.inc_kept | apply State.setBit_kept | apply kept_ite); done)))
    | apply kept_ite | simp only [kept_mk] | split | refine kept_of_snd (by assumption) ?_ | refine kept_of_fst (by assumption) ?_
    | refine kept_of_some (by assumption) ?_ | dsimp only

theorem State.setQueue_kept (s : State) (p : Nat) (t : Nat) (l : List QFrame) (hk : Kept s0 s) :
    Kept s0 (State.setQueue s p t l) := by
  unfold State.setQueue
  try dsimp only
  with_reducible repeat' first
    | assumption | simp only [kept_mk] | dsimp only

theorem State.wred_kept (s : State) (p : Nat) (t : Nat) (col : Nat) (hk : Kept s0 s) : Kept s0 (State.wred s p t col).2 := by
  unfold State.wred
  try dsimp only
  with_reducible repeat' first
    | assumption | simp only [kept_mk] | dsimp only

theorem State.offer_kept (s : State) (p : Nat) (t : Nat) (q : QFrame) (count : Bool) (hk : Kept s0 s) :
    Kept s0 (State.offer s p t q count).2 := by
  unfold State.offer
  try dsimp only
  with_reducible repeat' first
    | assumption | intro _ | exact Kept.refl _ | apply State.cnt_kept | apply State.hold_kept | apply State.setQueue_kept
    | apply State.wred_kept
    | (apply kept_then; (focus ((repeat' first | exact Kept.refl _ | apply State.cnt_kept | apply State.hold_kept | apply State.setQueue_kept | apply State.wred_kept | apply kept_ite); done)))
    | apply kept_ite | split | refine kept_of_snd (by assumption) ?_ | refine kept_of_fst (by assumption) ?_
    | refine kept_of_some (by assumption) ?_ | simp only [id] | dsimp only

theorem State.mirrorCopy_kept (s : State) (m : Nat) (q : QFrame) (hk : Kept s0 s) : Kept s0 (State.mirrorCopy s m q) := by
  unfold State.mirrorCopy
  try dsimp only
  with_reducible repeat' first
    | assumption | intro _ | exact Kept.refl _ | apply State.inc_kept | apply State.setBit_kept | apply State.offer_kept
    | (apply kept_then; (focus ((repeat' first | exact Kept.refl _ | apply State.inc_kept | apply State.setBit_kept | apply State.offer_kept | apply kept_ite); done)))
    | apply kept_ite | simp only [kept_mk] | split | refine kept_of_snd (by assumption) ?_ | refine kept_of_fst (by assumption) ?_
    | refine kept_of_some (by assumption) ?_ | simp only [id] | dsimp only

theorem State.mirrorIngress_kept (s : State) (p : Nat) (filter : Option Nat) (q : QFrame) (hk : Kept s0 s) :
    Kept s0 (State.mirrorIngress s p filter q) := by
  unfold State.mirrorIngress
  try dsimp only
  with_reducible repeat' first
    | assumption | intro _ | apply State.each_kept | apply State.mirrorCopy_kept | apply kept_ite | simp only [kept_mk] | split
    | refine kept_of_snd (by assumption) ?_ | refine kept_of_fst (by assumption) ?_ | refine kept_of_some (by assumption) ?_ | dsimp only

theorem State.streams_kept (s : State) (p : Nat) (c : Classified) (filter : Option Nat) (hk : Kept s0 s) :
    Kept s0 (State.streams s p c filter).2 := by
  unfold State.streams
  try dsimp only
  with_reducible repeat' first
    | assumption | exact Kept.refl _ | apply State.set_kept | apply State.clearBit_kept | apply State.cnt_kept | apply State.meter_kept
    | apply State.recover_kept
    | (apply kept_then; (focus ((repeat' first | exact Kept.refl _ | apply State.set_kept | apply State.clearBit_kept | apply State.cnt_kept | apply State.meter_kept | apply State.recover_kept | apply kept_ite); done)))
    | apply kept_ite | simp only [kept_mk] | split | refine kept_of_snd (by assumption) ?_ | refine kept_of_fst (by assumption) ?_
    | refine kept_of_some (by assumption) ?_ | dsimp only

theorem State.forward_kept (s : State) (db : List FdbEntry) (p : Nat) (id : Nat) (c : Classified) (filter : Option Nat) (hk : Kept s0 s) :
    Kept s0 (State.forward s db p id c filter) := by
  unfold State.forward
  try dsimp only
  with_reducible repeat' first
    | assumption | intro _ | exact Kept.refl _ | apply State.each_kept | apply State.cnt_kept | apply State.learn_kept
    | apply State.offer_kept | apply State.streams_kept
    | (apply kept_then; (focus ((repeat' first | exact Kept.refl _ | apply State.each_kept | apply State.cnt_kept | apply State.learn_kept | apply State.offer_kept | apply State.streams_kept | apply kept_ite); done)))
    | apply kept_ite | simp only [kept_mk] | split | refine kept_of_snd (by assumption) ?_ | refine kept_of_fst (by assumption) ?_
    | refine kept_of_some (by assumption) ?_ | simp only [id] | dsimp only

theorem State.receive_kept (s : State) (db : List FdbEntry) (p : Nat) (raw : List Nat) (good : Bool) (hk : Kept s0 s) :
    Kept s0 (State.receive s db p raw good) := by
  unfold State.receive
  try dsimp only
  with_reducible repeat' first
    | assumption | exact Kept.refl _ | apply State.cnt_kept | apply State.takeCells_kept | apply State.reclaim_kept
    | apply State.validate_kept | apply State.mirrorIngress_kept | apply State.forward_kept
    | (apply kept_then; (focus ((repeat' first | exact Kept.refl _ | apply State.cnt_kept | apply State.takeCells_kept | apply State.reclaim_kept | apply State.validate_kept | apply State.mirrorIngress_kept | apply State.forward_kept | apply kept_ite); done)))
    | exact (State.takeCells_kept _ _ (by assumption)).1 _ _ (by assumption)
    | exact (State.takeCells_kept _ _ (by assumption)).2 _ _ (by assumption) | apply kept_ite | simp only [kept_mk] | split
    | refine kept_of_ok (by assumption) ?_ | refine kept_of_snd (by assumption) ?_ | refine kept_of_fst (by assumption) ?_
    | refine kept_of_some (by assumption) ?_ | apply kept_ok | apply kept_okEx | apply kept_error | simp only [id] | dsimp only

theorem State.sparkFrame_kept (s : State) (p : Nat) (raw : List Nat) (good : Bool) (hk : Kept s0 s) :
    Kept s0 (State.sparkFrame s p raw good) := by
  unfold State.sparkFrame
  try dsimp only
  with_reducible repeat' first
    | assumption | exact Kept.refl _ | apply State.sparkEth_kept | apply State.validate_kept
    | (apply kept_then; (focus ((repeat' first | exact Kept.refl _ | apply State.sparkEth_kept | apply State.validate_kept | apply kept_ite); done)))
    | apply kept_ite | simp only [kept_mk] | split | refine kept_of_ok (by assumption) ?_ | refine kept_of_snd (by assumption) ?_
    | refine kept_of_fst (by assumption) ?_ | refine kept_of_some (by assumption) ?_ | apply kept_ok | apply kept_okEx | apply kept_error
    | dsimp only

theorem State.frameIn_kept (s : State) (db : List FdbEntry) (p : Nat) (f : EthFrame) (hk : Kept s0 s) :
    Kept s0 (State.frameIn s db p f) := by
  unfold State.frameIn
  with_reducible repeat' first
    | assumption | apply State.receive_kept | apply State.sparkFrame_kept | apply kept_ite | split

theorem execFrameReceive_kept (p : Fin 17) (f : EthFrame) (others : List (Fin 17 × EthFrame)) (parts : List (Fin 17 × Nat)) (s : State) (hk : Kept s0 s) :
    KeptOut s0 (execFrameReceive p f others parts s) := by
  unfold execFrameReceive
  try dsimp only
  with_reducible repeat' first
    | assumption | intro _ | apply State.drawCells_kept | apply State.frameIn_kept | apply kept_foldl | apply kept_foldl_fst
    | apply kept_foldl_snd | apply kept_ite | split | apply kept_ok | dsimp only

end Sys2Proof.Machine
end

