-- ==== Sys2Proof/Laws/KeptEgress.lean ====
section
/-! SUPPORT. The definitions of Machine/Egress.lean keep what every effect keeps: the queue, time, the count of free values, and the
canonical forms. -/
namespace Sys2Proof.Machine
open Sys2Proof

set_option linter.unusedVariables false
set_option linter.unusedSimpArgs false
set_option linter.unusedTactic false
set_option linter.unreachableTactic false
set_option linter.tactic.unusedName false

variable {s0 : State}

theorem State.netifStop_kept (s : State) (x : Side) (cause : Nat) (a : Nat) (write : Bool) (hk : Kept s0 s) :
    Kept s0 (State.netifStop s x cause a write) := by
  unfold State.netifStop
  try dsimp only
  with_reducible repeat' first
    | assumption | apply State.set_kept | apply State.logFault_kept | apply State.wotViolation_kept | apply State.write_kept
    | apply kept_ite | split | dsimp only

theorem State.netifDone_kept (s : State) (x : Side) (hk : Kept s0 s) : Kept s0 (State.netifDone s x) := by
  unfold State.netifDone
  with_reducible repeat' first
    | assumption | apply State.intr_kept

theorem State.netifRead_kept (s : State) (x : Side) (a : Nat) (n : Nat) (lost : Option Word40) (corr : Option Word40) (hk : Kept s0 s) :
    Kept s0 (State.netifRead s x a n lost corr).2 := by
  unfold State.netifRead
  try dsimp only
  with_reducible repeat' first
    | assumption | apply State.eccRead_kept | apply kept_ite | split | dsimp only

theorem State.netifRx_kept (s : State) (x : Side) (a : Nat) (bytes : List Nat) (hk : Kept s0 s) :
    Kept s0 (State.netifRx s x a bytes) := by
  unfold State.netifRx
  try dsimp only
  with_reducible repeat' first
    | assumption | exact Kept.refl _ | apply State.set_kept | apply State.setBit_kept | apply State.clearBit_kept | apply State.write_kept
    | apply State.netifStop_kept | apply State.netifDone_kept
    | (apply kept_then; (focus ((repeat' first | exact Kept.refl _ | apply State.set_kept | apply State.setBit_kept | apply State.clearBit_kept | apply State.write_kept | apply State.netifStop_kept | apply State.netifDone_kept | apply kept_ite); done)))
    | apply kept_ite | split | dsimp only

theorem State.netifReady_kept (s : State) (x : Side) (lost : Option Word40) (corr : Option Word40) (hk : Kept s0 s) :
    Kept s0 (State.netifReady s x lost corr).2 := by
  unfold State.netifReady
  try dsimp only
  with_reducible repeat' first
    | assumption | apply State.netifStop_kept | apply State.netifRead_kept | apply kept_ite | split | dsimp only

theorem State.netifFrame_kept (s : State) (x : Side) (buf : Nat) (n : Nat) (hk : Kept s0 s) :
    Kept s0 (State.netifFrame s x buf n) := by
  unfold State.netifFrame
  try dsimp only
  with_reducible repeat' first
    | assumption | apply State.cnt_kept | apply State.drawCells_kept | apply State.receive_kept | apply kept_ite | split | dsimp only

theorem State.netifReturn_kept (s : State) (x : Side) (a : Nat) (i' : Nat) (bad : Bool) (hk : Kept s0 s) :
    Kept s0 (State.netifReturn s x a i' bad) := by
  unfold State.netifReturn
  try dsimp only
  with_reducible repeat' first
    | assumption | apply State.set_kept | apply State.setBit_kept | apply State.clearBit_kept | apply State.write_kept
    | apply State.netifStop_kept | apply State.netifDone_kept | apply kept_ite | split | dsimp only

theorem State.netifSend_kept (s : State) (x : Side) (lost : Option Word40) (corr : Option Word40) (i : Nat) (arg : Nat) (hk : Kept s0 s) :
    Kept s0 (State.netifSend s x lost corr i arg) := by
  induction arg generalizing s i with
  | zero => exact hk
  | succ k ih =>
  unfold State.netifSend
  try dsimp only
  with_reducible repeat' first
    | assumption | intro _ | exact Kept.refl _ | apply State.setSide_kept | apply State.hold_kept | apply State.netifStop_kept
    | apply State.netifRead_kept | apply State.netifFrame_kept | apply State.netifReturn_kept | apply ih
    | (apply kept_then; (focus ((repeat' first | exact Kept.refl _ | apply State.setSide_kept | apply State.hold_kept | apply State.netifStop_kept | apply State.netifRead_kept | apply State.netifFrame_kept | apply State.netifReturn_kept | apply kept_ite); done)))
    | apply kept_ite | simp only [kept_mk] | split | dsimp only

theorem State.netifRun_kept (s : State) (x : Side) (lost : Option Word40) (corr : Option Word40) (hk : Kept s0 s) :
    Kept s0 (State.netifRun s x lost corr) := by
  unfold State.netifRun
  with_reducible repeat' first
    | assumption | apply State.netifSend_kept | apply kept_ite | split

theorem State.netifKick_kept (s : State) (x : Side) (v : Nat) (lost : Option Word40) (corr : Option Word40) (hk : Kept s0 s) :
    Kept s0 (State.netifKick s x v lost corr) := by
  unfold State.netifKick
  with_reducible repeat' first
    | assumption | apply State.netifRun_kept | apply kept_ite | split

theorem State.netifResume_kept (s : State) (x : Side) (hk : Kept s0 s) : Kept s0 (State.netifResume s x) := by
  unfold State.netifResume
  try dsimp only
  with_reducible repeat' first
    | assumption | apply State.setSide_kept | apply State.netifRun_kept | apply kept_ite | simp only [kept_mk] | split | dsimp only

theorem execNetifTxKick_kept (x : Side) (o : Origin) (v : BitVec 32) (lost : Option Word40) (corr : Option Word40) (s : State) (hk : Kept s0 s) :
    KeptOut s0 (execNetifTxKick x o v lost corr s) := by
  unfold execNetifTxKick
  with_reducible repeat' first
    | assumption | intro _ | apply State.guarded_kept | apply State.netifKick_kept | apply kept_ok

theorem execCbsUpdate_kept (s : State) (hk : Kept s0 s) : KeptOut s0 (execCbsUpdate s) := by
  unfold execCbsUpdate
  try dsimp only
  with_reducible repeat' first
    | assumption | intro _ | apply State.set_kept | apply State.each_kept | apply kept_ite | split | apply kept_ok | dsimp only

theorem State.usePn_kept (s : State) (p : Nat) (i : Nat) (hk : Kept s0 s) : Kept s0 (State.usePn s p i) := by
  unfold State.usePn
  try dsimp only
  with_reducible repeat' first
    | assumption | exact Kept.refl _ | apply State.set_kept | apply State.logBoth_kept | apply State.flueEvt_kept | apply State.cnt_kept
    | apply State.setSaPn_kept
    | (apply kept_then; (focus ((repeat' first | exact Kept.refl _ | apply State.set_kept | apply State.logBoth_kept | apply State.flueEvt_kept | apply State.cnt_kept | apply State.setSaPn_kept | apply kept_ite); done)))
    | apply kept_ite | split | dsimp only

theorem State.secure_kept (s : State) (p : Nat) (b : List Nat) (hk : Kept s0 s) : Kept s0 (State.secure s p b).2 := by
  unfold State.secure
  try dsimp only
  with_reducible repeat' first
    | assumption | apply State.cnt_kept | apply State.usePn_kept | apply kept_ite | simp only [kept_mk] | split
    | refine kept_of_snd (by assumption) ?_ | refine kept_of_fst (by assumption) ?_ | refine kept_of_some (by assumption) ?_ | dsimp only

theorem State.mirrorEgress_kept (s : State) (p : Nat) (q : QFrame) (hk : Kept s0 s) : Kept s0 (State.mirrorEgress s p q) := by
  unfold State.mirrorEgress
  with_reducible repeat' first
    | assumption | intro _ | apply State.each_kept | apply State.mirrorCopy_kept | apply kept_ite | split

theorem State.guardPort_kept (s : State) (p : Nat) (q : QFrame) (n : Nat) (hk : Kept s0 s) :
    Kept s0 (State.guardPort s p q n).2 := by
  unfold State.guardPort
  try dsimp only
  with_reducible repeat' first
    | assumption | intro _ | apply State.cnt_kept | apply kept_ite | simp only [kept_mk] | split | refine kept_of_snd (by assumption) ?_
    | refine kept_of_fst (by assumption) ?_ | refine kept_of_some (by assumption) ?_ | simp only [id] | dsimp only

theorem State.transmit_kept (s : State) (p : Nat) (t : Nat) (b : List Nat) (out : List Nat) (hk : Kept s0 s) :
    Kept s0 (State.transmit s p t b out) := by
  unfold State.transmit
  try dsimp only
  with_reducible repeat' first
    | assumption | apply State.cnt_kept | apply State.netifRx_kept | apply kept_ite | simp only [kept_mk] | split
    | refine kept_of_snd (by assumption) ?_ | refine kept_of_fst (by assumption) ?_ | refine kept_of_some (by assumption) ?_ | dsimp only

theorem State.select_kept (s : State) (p : Nat) (arg : Nat) (hk : Kept s0 s) : Kept s0 (State.select s p arg) := by
  induction arg generalizing s with
  | zero => exact hk
  | succ k ih =>
  unfold State.select
  try dsimp only
  with_reducible repeat' first
    | assumption | intro _ | apply State.cnt_kept | apply State.release_kept | apply State.setQueue_kept | apply State.secure_kept
    | apply State.mirrorEgress_kept | apply State.guardPort_kept | apply State.transmit_kept | apply ih | apply kept_ite
    | simp only [kept_mk] | split | refine kept_of_snd (by assumption) ?_ | refine kept_of_fst (by assumption) ?_
    | refine kept_of_some (by assumption) ?_ | simp only [id] | dsimp only

theorem execEgressSelect_kept (p : Fin 17) (lost : Option Word40) (corr : Option Word40) (s : State) (hk : Kept s0 s) :
    KeptOut s0 (execEgressSelect p lost corr s) := by
  unfold execEgressSelect
  try dsimp only
  with_reducible repeat' first
    | assumption | exact Kept.refl _ | apply State.due_kept | apply State.netifReady_kept | apply State.select_kept
    | (apply kept_then; (focus ((repeat' first | exact Kept.refl _ | apply State.due_kept | apply State.netifReady_kept | apply State.select_kept | apply kept_ite); done)))
    | apply kept_ite | split | apply kept_ok | dsimp only

end Sys2Proof.Machine
end

