-- ==== Sys2Proof/Laws/KeptBellows.lean ====
section
/-! SUPPORT. The definitions of Machine/Bellows.lean keep what every effect keeps: the queue, time, the count of free values, and the
canonical forms. -/
namespace Sys2Proof.Machine
open Sys2Proof

set_option linter.unusedVariables false
set_option linter.unusedSimpArgs false
set_option linter.unusedTactic false
set_option linter.unreachableTactic false
set_option linter.tactic.unusedName false

variable {s0 : State}

theorem State.setDom_kept (s : State) (d : Nat) (v : Domain) (hk : Kept s0 s) : Kept s0 (State.setDom s d v) := by
  unfold State.setDom
  try dsimp only
  with_reducible repeat' first
    | assumption | apply kept_ite | simp only [kept_mk] | split | dsimp only

theorem State.setRole_kept (s : State) (d : Nat) (p : Nat) (r : Nat) (hk : Kept s0 s) : Kept s0 (State.setRole s d p r) := by
  unfold State.setRole
  with_reducible repeat' first
    | assumption | apply State.set_kept | apply kept_ite | split

theorem State.externalRoles_kept (s : State) (hk : Kept s0 s) : Kept s0 (State.externalRoles s) := by
  unfold State.externalRoles
  try dsimp only
  with_reducible repeat' first
    | assumption | intro _ | exact Kept.refl _ | apply State.set_kept | apply State.each_kept | apply State.setRole_kept
    | (apply kept_then; (focus ((repeat' first | exact Kept.refl _ | apply State.set_kept | apply State.each_kept | apply State.setRole_kept | apply kept_ite); done)))
    | apply kept_ite | split | dsimp only

theorem State.steerDom_kept (s : State) (d : Nat) (adj : Int) (hk : Kept s0 s) : Kept s0 (State.steerDom s d adj) := by
  unfold State.steerDom
  try dsimp only
  with_reducible repeat' first
    | assumption | apply State.set_kept | apply State.setDom_kept | simp only [kept_mk] | dsimp only

theorem State.setLocked_kept (s : State) (d : Nat) (v : Bool) (hk : Kept s0 s) : Kept s0 (State.setLocked s d v) := by
  unfold State.setLocked
  with_reducible repeat' first
    | assumption | apply State.set_kept | apply State.logBoth_kept | apply State.blwEvt_kept | apply kept_ite | split

theorem State.setServo_kept (s : State) (d : Nat) (v : Nat) (hk : Kept s0 s) : Kept s0 (State.setServo s d v) := by
  unfold State.setServo
  try dsimp only
  with_reducible repeat' first
    | assumption | apply State.set_kept | apply State.logBoth_kept | apply State.blwEvt_kept | apply kept_ite | split | dsimp only

theorem State.holdover_kept (s : State) (d : Nat) (hk : Kept s0 s) : Kept s0 (State.holdover s d) := by
  unfold State.holdover
  try dsimp only
  with_reducible repeat' first
    | assumption | apply State.setDom_kept | apply State.steerDom_kept | apply State.setLocked_kept | apply State.setServo_kept
    | apply kept_ite | simp only [kept_mk] | split | dsimp only

theorem State.holdGates_kept (s : State) (d : Nat) (hk : Kept s0 s) : Kept s0 (State.holdGates s d) := by
  unfold State.holdGates
  try dsimp only
  with_reducible repeat' first
    | assumption | intro _ | apply kept_ite | simp only [kept_mk] | split | dsimp only

theorem State.stepDom_kept (s : State) (d : Nat) (by_ : Int) (hk : Kept s0 s) : Kept s0 (State.stepDom s d by_) := by
  unfold State.stepDom
  try dsimp only
  with_reducible repeat' first
    | assumption | apply State.set_kept | apply State.inc_kept | apply State.logBoth_kept | apply State.blwEvt_kept
    | apply State.setDom_kept | apply State.setServo_kept | apply State.holdGates_kept | simp only [kept_mk] | dsimp only

theorem State.goodOffset_kept (s : State) (d : Nat) (off : Int) (hk : Kept s0 s) : Kept s0 (State.goodOffset s d off) := by
  unfold State.goodOffset
  try dsimp only
  with_reducible repeat' first
    | assumption | exact Kept.refl _ | apply State.set_kept | apply State.setDom_kept | apply State.steerDom_kept
    | apply State.setLocked_kept | apply State.setServo_kept
    | (apply kept_then; (focus ((repeat' first | exact Kept.refl _ | apply State.set_kept | apply State.setDom_kept | apply State.steerDom_kept | apply State.setLocked_kept | apply State.setServo_kept | apply kept_ite); done)))
    | apply kept_ite | simp only [kept_mk] | split | dsimp only

theorem State.jump_kept (s : State) (d : Nat) (off : Int) (hk : Kept s0 s) : Kept s0 (State.jump s d off) := by
  unfold State.jump
  try dsimp only
  with_reducible repeat' first
    | assumption | exact Kept.refl _ | apply State.set_kept | apply State.inc_kept | apply State.logBoth_kept | apply State.blwEvt_kept
    | apply State.setDom_kept | apply State.holdover_kept | apply State.stepDom_kept
    | (apply kept_then; (focus ((repeat' first | exact Kept.refl _ | apply State.set_kept | apply State.inc_kept | apply State.logBoth_kept | apply State.blwEvt_kept | apply State.setDom_kept | apply State.holdover_kept | apply State.stepDom_kept | apply kept_ite); done)))
    | apply kept_ite | simp only [kept_mk] | split | dsimp only

theorem State.syncRx_kept (s : State) (d : Nat) (p : Nat) (m : SyncMsg) (hk : Kept s0 s) : Kept s0 (State.syncRx s d p m) := by
  unfold State.syncRx
  try dsimp only
  with_reducible repeat' first
    | assumption | apply State.set_kept | apply State.inc_kept | apply State.logBoth_kept | apply State.setDom_kept
    | apply State.setServo_kept | apply State.goodOffset_kept | apply State.jump_kept | apply kept_ite | simp only [kept_mk] | split
    | dsimp only

theorem execPtpSyncRx_kept (d : Fin 2) (p : Fin 15) (msg : SyncMsg) (s : State) (hk : Kept s0 s) :
    KeptOut s0 (execPtpSyncRx d p msg s) := by
  unfold execPtpSyncRx
  with_reducible repeat' first
    | assumption | apply State.syncRx_kept | apply kept_ite | split | apply kept_ok

theorem execSyncTimeout_kept (d : Fin 2) (s : State) (hk : Kept s0 s) : KeptOut s0 (execSyncTimeout d s) := by
  unfold execSyncTimeout
  try dsimp only
  with_reducible repeat' first
    | assumption | apply State.inc_kept | apply State.due_kept | apply State.holdover_kept | apply kept_ite | simp only [kept_mk] | split
    | refine kept_of_snd (by assumption) ?_ | refine kept_of_fst (by assumption) ?_ | refine kept_of_some (by assumption) ?_ | apply kept_ok
    | dsimp only

theorem State.bmcaTake_kept (s : State) (d : Nat) (l : List Announce) (m : Option Announce) (hk : Kept s0 s) :
    Kept s0 (State.bmcaTake s d l m) := by
  unfold State.bmcaTake
  try dsimp only
  with_reducible repeat' first
    | assumption | intro _ | exact Kept.refl _ | apply State.set_kept | apply State.inc_kept | apply State.each_kept
    | apply State.logBoth_kept | apply State.blwEvt_kept | apply State.setRole_kept | apply State.setServo_kept
    | (apply kept_then; (focus ((repeat' first | exact Kept.refl _ | apply State.set_kept | apply State.inc_kept | apply State.each_kept | apply State.logBoth_kept | apply State.blwEvt_kept | apply State.setRole_kept | apply State.setServo_kept | apply kept_ite); done)))
    | apply kept_ite | simp only [kept_mk] | split | refine kept_of_snd (by assumption) ?_ | refine kept_of_fst (by assumption) ?_
    | refine kept_of_some (by assumption) ?_ | dsimp only

theorem execGmChange_kept (d : Fin 2) (l : List Announce) (s : State) (hk : Kept s0 s) : KeptOut s0 (execGmChange d l s) := by
  unfold execGmChange
  try dsimp only
  with_reducible repeat' first
    | assumption | intro _ | exact Kept.refl _ | apply State.bmcaTake_kept
    | (apply kept_then; (focus ((repeat' first | exact Kept.refl _ | apply State.bmcaTake_kept | apply kept_ite); done))) | apply kept_ite
    | simp only [kept_mk] | split | refine kept_of_snd (by assumption) ?_ | refine kept_of_fst (by assumption) ?_
    | refine kept_of_some (by assumption) ?_ | apply kept_ok | dsimp only

theorem State.ptpSend_kept (s : State) (p : Nat) (b : List Nat) (hk : Kept s0 s) : Kept s0 (State.ptpSend s p b).2 := by
  unfold State.ptpSend
  try dsimp only
  with_reducible repeat' first
    | assumption | apply State.cnt_kept | apply State.secure_kept | simp only [kept_mk] | split | refine kept_of_snd (by assumption) ?_
    | refine kept_of_fst (by assumption) ?_ | refine kept_of_some (by assumption) ?_ | dsimp only

theorem State.syncSend_kept (s : State) (d : Nat) (p : Nat) (one : Bool) (f : Int × Int) (hk : Kept s0 s) :
    Kept s0 (State.syncSend s d p one f) := by
  unfold State.syncSend
  try dsimp only
  with_reducible repeat' first
    | assumption | intro _ | exact Kept.refl _ | apply State.took_kept | apply State.setDom_kept | apply State.ptpSend_kept
    | apply kept_iter
    | (apply kept_then; (focus ((repeat' first | exact Kept.refl _ | apply State.took_kept | apply State.setDom_kept | apply State.ptpSend_kept | apply kept_ite); done)))
    | apply kept_ite | simp only [kept_mk] | split | refine kept_of_snd (by assumption) ?_ | refine kept_of_fst (by assumption) ?_
    | refine kept_of_some (by assumption) ?_ | dsimp only

theorem execPtpSyncTx_kept (d : Fin 2) (p : Fin 15) (stage : Word40) (s : State) (hk : Kept s0 s) :
    KeptOut s0 (execPtpSyncTx d p stage s) := by
  unfold execPtpSyncTx
  try dsimp only
  with_reducible repeat' first
    | assumption | apply State.syncSend_kept | apply kept_ite | split | apply kept_ok | dsimp only

theorem execPdelayExchange_kept (p : Fin 15) (resp : Option PdelayResp) (s : State) (hk : Kept s0 s) :
    KeptOut s0 (execPdelayExchange p resp s) := by
  unfold execPdelayExchange
  try dsimp only
  with_reducible repeat' first
    | assumption | apply State.set_kept | apply State.inc_kept | apply kept_ite | simp only [kept_mk] | split
    | refine kept_of_snd (by assumption) ?_ | refine kept_of_fst (by assumption) ?_ | refine kept_of_some (by assumption) ?_ | apply kept_ok
    | dsimp only

end Sys2Proof.Machine
end

