-- ==== Sys2Proof/Laws/KeptPerf.lean ====
section
/-! SUPPORT. The definitions of Machine/Perf.lean keep what every effect keeps: the queue, time, the count of free values, and the
canonical forms. -/
namespace Sys2Proof.Machine
open Sys2Proof

set_option linter.unusedVariables false
set_option linter.unusedSimpArgs false
set_option linter.unusedTactic false
set_option linter.unreachableTactic false
set_option linter.tactic.unusedName false

variable {s0 : State}

theorem State.perfWrap_kept (s : State) (x : Side) (n : Nat) (hk : Kept s0 s) : Kept s0 (State.perfWrap s x n) := by
  unfold State.perfWrap
  try dsimp only
  with_reducible repeat' first
    | assumption | apply State.setBit_kept | apply State.intr_kept | apply kept_ite | split | dsimp only

theorem State.perfStep_kept (s : State) (x : Side) (n : Nat) (hk : Kept s0 s) : Kept s0 (State.perfStep s x n).1 := by
  unfold State.perfStep
  try dsimp only
  with_reducible repeat' first
    | assumption | apply State.set_kept | dsimp only

theorem State.perfInc_kept (s : State) (x : Side) (n : Nat) (hk : Kept s0 s) : Kept s0 (State.perfInc s x n) := by
  unfold State.perfInc
  try dsimp only
  with_reducible repeat' first
    | assumption | exact Kept.refl _ | apply State.perfWrap_kept | apply State.perfStep_kept
    | (apply kept_then; (focus ((repeat' first | exact Kept.refl _ | apply State.perfWrap_kept | apply State.perfStep_kept | apply kept_ite); done)))
    | apply kept_ite | split | refine kept_of_snd (by assumption) ?_ | refine kept_of_fst (by assumption) ?_
    | refine kept_of_some (by assumption) ?_ | dsimp only

theorem State.perfEvent_kept (s : State) (x : Side) (e : PerfEvent) (hk : Kept s0 s) : Kept s0 (State.perfEvent s x e) := by
  unfold State.perfEvent
  with_reducible repeat' first
    | assumption | intro _ | apply State.each_kept | apply State.perfInc_kept

theorem State.ownEvent_kept (s : State) (x : Side) (c : Nat) (i : Nat) (w : Nat) (a : Option Nat) (hk : Kept s0 s) :
    Kept s0 (State.ownEvent s x c i w a) := by
  unfold State.ownEvent
  try dsimp only
  with_reducible repeat' first
    | assumption | apply State.perfEvent_kept | dsimp only

theorem execPerfCounterWrap_kept (x : Side) (e : PerfEvent) (s : State) (hk : Kept s0 s) :
    KeptOut s0 (execPerfCounterWrap x e s) := by
  unfold execPerfCounterWrap
  with_reducible repeat' first
    | assumption | apply State.perfEvent_kept | apply kept_ite | split | apply kept_ok

theorem State.perfRead_kept (s : State) (x : Side) (n : Nat) (hk : Kept s0 s) : Kept s0 (State.perfRead s x n) := by
  unfold State.perfRead
  try dsimp only
  with_reducible repeat' first
    | assumption | apply State.set_kept | apply kept_ite | simp only [kept_mk] | split | dsimp only

theorem execPerfCntRead_kept (x : Side) (o : Origin) (n : Fin 48) (s : State) (hk : Kept s0 s) :
    KeptOut s0 (execPerfCntRead x o n s) := by
  unfold execPerfCntRead
  with_reducible repeat' first
    | assumption | intro _ | apply State.guarded_kept | apply State.perfRead_kept | apply kept_ok

end Sys2Proof.Machine
end

