-- ==== Sys2Proof/Laws/KeptTally.lean ====
section
/-! SUPPORT. The definitions of Machine/Tally.lean keep what every effect keeps: the queue, time, the count of free values, and the
canonical forms. -/
namespace Sys2Proof.Machine
open Sys2Proof

set_option linter.unusedVariables false
set_option linter.unusedSimpArgs false
set_option linter.unusedTactic false
set_option linter.unreachableTactic false
set_option linter.tactic.unusedName false

variable {s0 : State}

theorem State.restart_kept (s : State) (h : Holder) (l : List Nat) (hk : Kept s0 s) : Kept s0 (State.restart s h l) := by
  unfold State.restart
  try dsimp only
  with_reducible repeat' first
    | assumption | intro _ | apply State.hold_kept | simp only [kept_mk] | apply kept_regs_filter | apply kept_mem_filter | dsimp only

theorem State.latchDie_kept (s : State) (d : Nat) (hk : Kept s0 s) : Kept s0 (State.latchDie s d) := by
  unfold State.latchDie
  try dsimp only
  with_reducible repeat' first
    | assumption | intro _ | apply State.setDie_kept | apply State.restart_kept | simp only [kept_mk] | dsimp only

theorem State.payDie_kept (s : State) (x : Side) (d : Nat) (hk : Kept s0 s) : Kept s0 (State.payDie s x d) := by
  unfold State.payDie
  try dsimp only
  with_reducible repeat' first
    | assumption | apply State.setDie_kept | simp only [kept_mk] | dsimp only

theorem State.latchPorts_kept (s : State) (hk : Kept s0 s) : Kept s0 (State.latchPorts s) := by
  unfold State.latchPorts
  try dsimp only
  with_reducible repeat' first
    | assumption | apply State.restart_kept | simp only [kept_mk] | dsimp only

theorem State.payPorts_kept (s : State) (x : Side) (hk : Kept s0 s) : Kept s0 (State.payPorts s x) := by
  unfold State.payPorts
  try dsimp only
  with_reducible repeat' first
    | assumption | simp only [kept_mk] | dsimp only

theorem State.latchFlue_kept (s : State) (t : Nat) (hk : Kept s0 s) : Kept s0 (State.latchFlue s t) := by
  have wf : ∀ (l r : List (FKey × Nat)), Tab.Wf FKey.rst FKey.code r → Tab.Wf FKey.rst FKey.code
      (l.foldl (fun (r : List (FKey × Nat)) (p : FKey × Nat) => Tab.set FKey.rst FKey.code r { p.1 with hold := Holder.flueTally.code } p.2) r) := by
    intro l
    induction l with
    | nil => exact fun _ h => h
    | cons p l ih => exact fun r h => ih _ (Tab.wf_set _ _ FKey.code_injective _ _ h)
  unfold State.latchFlue
  exact State.set_kept _ _ _ _ _ (State.set_kept _ _ _ _ _ (State.inc_kept _ _ _ _ (State.restart_kept _ _ _
    (kept_regs hk fun h => wf _ _ (Tab.wf_filter _ _ _ h)))))

theorem State.bankWrite_kept (s : State) (x : Side) (a : Nat) (slots : List Nat) (hk : Kept s0 s) :
    Kept s0 (State.bankWrite s x a slots) := by
  unfold State.bankWrite
  try dsimp only
  with_reducible repeat' first
    | assumption | apply State.set_kept | apply State.write_kept | dsimp only

theorem State.tallyResume_kept (s : State) (x : Side) (hk : Kept s0 s) : Kept s0 (State.tallyResume s x) := by
  unfold State.tallyResume
  try dsimp only
  with_reducible repeat' first
    | assumption | apply State.setSide_kept | apply State.bankWrite_kept | apply kept_ite | simp only [kept_mk] | split
    | refine kept_of_snd (by assumption) ?_ | refine kept_of_fst (by assumption) ?_ | refine kept_of_some (by assumption) ?_ | dsimp only

theorem State.writeRing_kept (s : State) (x : Side) (slots : List Nat) (hk : Kept s0 s) : Kept s0 (State.writeRing s x slots) := by
  unfold State.writeRing
  try dsimp only
  with_reducible repeat' first
    | assumption | apply State.set_kept | apply State.setSide_kept | apply State.logFault_kept | apply State.wotViolation_kept
    | apply State.write_kept | apply State.tallyResume_kept | apply kept_ite | simp only [kept_mk] | split
    | refine kept_of_snd (by assumption) ?_ | refine kept_of_fst (by assumption) ?_ | refine kept_of_some (by assumption) ?_ | dsimp only

theorem State.latchSide_kept (s : State) (x : Side) (hk : Kept s0 s) : Kept s0 (State.latchSide s x) := by
  unfold State.latchSide
  with_reducible repeat' first
    | assumption | apply State.restart_kept

theorem State.latchUnits_kept (s : State) (x : Side) (t : Nat) (miss : List Nat) (hk : Kept s0 s) :
    Kept s0 (State.latchUnits s x t miss) := by
  unfold State.latchUnits
  try dsimp only
  with_reducible repeat' first
    | assumption | intro _ | apply State.each_kept | apply State.latchDie_kept | apply State.latchPorts_kept | apply State.latchFlue_kept
    | apply kept_ite | split | dsimp only

theorem State.payUnits_kept (s : State) (x : Side) (miss : List Nat) (hk : Kept s0 s) : Kept s0 (State.payUnits s x miss) := by
  unfold State.payUnits
  try dsimp only
  with_reducible repeat' first
    | assumption | intro _ | apply State.each_kept | apply State.payDie_kept | apply State.payPorts_kept | apply kept_ite | split
    | dsimp only

theorem State.tallyAt_kept (s : State) (x : Side) (t : Nat) (hk : Kept s0 s) : Kept s0 (State.tallyAt s x t) := by
  unfold State.tallyAt
  try dsimp only
  with_reducible repeat' first
    | assumption | intro _ | apply State.set_kept | apply State.inc_kept | apply State.setBit_kept | apply State.setSide_kept
    | apply State.took_kept | apply State.writeRing_kept | apply State.latchSide_kept | apply State.latchUnits_kept
    | apply State.payUnits_kept | apply kept_foldl | simp only [kept_mk] | dsimp only

theorem execTallyBoundary_kept (x : Side) (s : State) (hk : Kept s0 s) : KeptOut s0 (execTallyBoundary x s) := by
  unfold execTallyBoundary
  try dsimp only
  with_reducible repeat' first
    | assumption | apply State.due_kept | apply State.tallyAt_kept | apply kept_ite | split | apply kept_ok | dsimp only

theorem State.forgetTally_kept (s : State) (x : Side) (hk : Kept s0 s) : Kept s0 (State.forgetTally s x) := by
  unfold State.forgetTally
  with_reducible repeat' first
    | assumption | apply State.payUnits_kept

end Sys2Proof.Machine
end

