-- ==== Sys2Proof/Laws/KeptBridges.lean ====
section
/-! SUPPORT. The definitions of Machine/Bridges.lean keep what every effect keeps: the queue, time, the count of free values, and the
canonical forms. -/
namespace Sys2Proof.Machine
open Sys2Proof

set_option linter.unusedVariables false
set_option linter.unusedSimpArgs false
set_option linter.unusedTactic false
set_option linter.unreachableTactic false
set_option linter.tactic.unusedName false

variable {s0 : State}

theorem State.pwerr_kept (s : State) (x : Side) (i : Nat) (t : Txn) (cause : Nat) (hk : Kept s0 s) :
    Kept s0 (State.pwerr s x i t cause) := by
  unfold State.pwerr
  try dsimp only
  with_reducible repeat' first
    | assumption | apply State.set_kept | apply State.inc_kept | apply State.intr_kept | apply State.log_kept | apply kept_ite | split
    | dsimp only

theorem State.farError_kept (s : State) (x : Side) (t : Txn) (cause : Nat) (hk : Kept s0 s) :
    Kept s0 (State.farError s x t cause) := by
  unfold State.farError
  try dsimp only
  with_reducible repeat' first
    | assumption | exact Kept.refl _ | apply State.logFault_kept | apply State.dmaStop_kept | apply State.exception_kept
    | (apply kept_then; (focus ((repeat' first | exact Kept.refl _ | apply State.logFault_kept | apply State.dmaStop_kept | apply State.exception_kept | apply kept_ite); done)))
    | apply kept_ite | simp only [kept_mk] | split | dsimp only

theorem State.txnFails_kept (s : State) (x : Side) (i : Nat) (t : Txn) (cause : Nat) (hk : Kept s0 s) :
    Kept s0 (State.txnFails s x i t cause) := by
  unfold State.txnFails
  with_reducible repeat' first
    | assumption | apply State.pwerr_kept | apply State.farError_kept | apply kept_ite | split

theorem State.unlocked_kept (s : State) (x : Side) (hk : Kept s0 s) : Kept s0 (State.unlocked s x) := by
  unfold State.unlocked
  with_reducible repeat' first
    | assumption | apply State.runWaits_kept | apply State.netifResume_kept | apply State.tallyResume_kept

theorem State.keepLocks_kept (s : State) (x : Side) (keep : LineLock → Bool) (hk : Kept s0 s) :
    Kept s0 (State.keepLocks s x keep) := by
  unfold State.keepLocks
  try dsimp only
  with_reducible repeat' first
    | assumption | apply State.setSide_kept | apply State.unlocked_kept | simp only [kept_mk] | dsimp only

theorem State.sweepLocks_kept (s : State) (x : Side) (hk : Kept s0 s) : Kept s0 (State.sweepLocks s x) := by
  unfold State.sweepLocks
  try dsimp only
  with_reducible repeat' first
    | assumption | intro _ | apply State.keepLocks_kept | split | dsimp only

theorem State.issue_kept (s : State) (x : Side) (i : Nat) (t : Txn) (hk : Kept s0 s) : Kept s0 (State.issue s x i t) := by
  unfold State.issue
  try dsimp only
  with_reducible repeat' first
    | assumption | apply State.inc_kept | apply State.setBridge_kept | apply State.ownEvent_kept | apply kept_ite | simp only [kept_mk]
    | split | dsimp only

theorem State.enter_kept (s : State) (x : Side) (i : Nat) (t : Txn) (hk : Kept s0 s) : Kept s0 (State.enter s x i t) := by
  unfold State.enter
  try dsimp only
  with_reducible repeat' first
    | assumption | apply State.setBridge_kept | apply State.issue_kept | apply kept_ite | simp only [kept_mk] | split | dsimp only

theorem State.pull1_kept (s : State) (x : Side) (i : Nat) (hk : Kept s0 s) : Kept s0 (State.pull1 s x i) := by
  unfold State.pull1
  try dsimp only
  with_reducible repeat' first
    | assumption | apply State.setBridge_kept | apply State.issue_kept | apply kept_ite | simp only [kept_mk] | split
    | refine kept_of_snd (by assumption) ?_ | refine kept_of_fst (by assumption) ?_ | refine kept_of_some (by assumption) ?_ | dsimp only

theorem State.retire_kept (s : State) (x : Side) (i : Nat) (g : Nat) (hk : Kept s0 s) : Kept s0 (State.retire s x i g) := by
  unfold State.retire
  try dsimp only
  with_reducible repeat' first
    | assumption | intro _ | apply State.setBridge_kept | apply State.pull1_kept | apply kept_iter | simp only [kept_mk] | dsimp only

theorem State.swi_kept (s : State) (x : Side) (v : Nat) (hk : Kept s0 s) : Kept s0 (State.swi s x v) := by
  unfold State.swi
  try dsimp only
  with_reducible repeat' first
    | assumption | intro _ | apply State.inc_kept | apply State.setBit_kept | apply State.each_kept | apply State.setSide_kept
    | apply kept_ite | simp only [kept_mk] | split | dsimp only

theorem execBridgeSwi_kept (x : Side) (o : Origin) (v : BitVec 32) (s : State) (hk : Kept s0 s) :
    KeptOut s0 (execBridgeSwi x o v s) := by
  unfold execBridgeSwi
  with_reducible repeat' first
    | assumption | intro _ | apply State.guarded_kept | apply State.swi_kept | apply kept_ok

theorem State.hartAccess_kept (s : State) (x : Side) (o : Origin) (off : Nat) (write : Bool) (f : State → Nat → State) (hf : ∀ (y0 : State) (y1 : Nat), Kept s0 y0 → Kept s0 (f y0 y1)) (hk : Kept s0 s) :
    Kept s0 (State.hartAccess s x o off write f) := by
  unfold State.hartAccess
  try dsimp only
  with_reducible repeat' first
    | assumption | intro _ | apply State.busError_kept | apply State.guarded_kept | apply State.write_kept | apply hf | simp only [kept_mk]
    | split | refine kept_of_snd (by assumption) ?_ | refine kept_of_fst (by assumption) ?_ | refine kept_of_some (by assumption) ?_
    | dsimp only

theorem State.atomicErr_kept (s : State) (x : Side) (h : Nat) (cause : Nat) (hk : Kept s0 s) :
    Kept s0 (State.atomicErr s x h cause) := by
  unfold State.atomicErr
  try dsimp only
  with_reducible repeat' first
    | assumption | apply State.set_kept | dsimp only

theorem State.atCtrl_kept (s : State) (x : Side) (h : Nat) (v : Nat) (hk : Kept s0 s) : Kept s0 (State.atCtrl s x h v) := by
  unfold State.atCtrl
  try dsimp only
  with_reducible repeat' first
    | assumption | exact Kept.refl _ | apply State.set_kept | apply State.inc_kept | apply State.setSide_kept | apply State.atomicErr_kept
    | (apply kept_then; (focus ((repeat' first | exact Kept.refl _ | apply State.set_kept | apply State.inc_kept | apply State.setSide_kept | apply State.atomicErr_kept | apply kept_ite); done)))
    | apply kept_ite | simp only [kept_mk] | split | dsimp only

theorem execBridgeAtGo_kept (x : Side) (o : Origin) (v : BitVec 32) (s : State) (hk : Kept s0 s) :
    KeptOut s0 (execBridgeAtGo x o v s) := by
  unfold execBridgeAtGo
  with_reducible repeat' first
    | assumption | intro _ | apply State.hartAccess_kept | apply State.atCtrl_kept | apply kept_ok

theorem execBridgeAtDone_kept (x : Side) (h : Fin 6) (ecc : Ecc) (s : State) (hk : Kept s0 s) :
    KeptOut s0 (execBridgeAtDone x h ecc s) := by
  unfold execBridgeAtDone
  try dsimp only
  with_reducible repeat' first
    | assumption | exact Kept.refl _ | apply State.set_kept | apply State.setSide_kept | apply State.logFault_kept
    | apply State.wotViolation_kept | apply State.eccSeen_kept | apply State.write_kept | apply State.atomicErr_kept
    | (apply kept_then; (focus ((repeat' first | exact Kept.refl _ | apply State.set_kept | apply State.setSide_kept | apply State.logFault_kept | apply State.wotViolation_kept | apply State.eccSeen_kept | apply State.write_kept | apply State.atomicErr_kept | apply kept_ite); done)))
    | apply kept_ite | simp only [kept_mk] | split | refine kept_of_snd (by assumption) ?_ | refine kept_of_fst (by assumption) ?_
    | refine kept_of_some (by assumption) ?_ | apply kept_ok | dsimp only

theorem State.breakLock_kept (s : State) (x : Side) (h : Nat) (hk : Kept s0 s) : Kept s0 (State.breakLock s x h) := by
  unfold State.breakLock
  try dsimp only
  with_reducible repeat' first
    | assumption | intro _ | apply State.set_kept | apply State.inc_kept | apply State.setSide_kept | apply State.keepLocks_kept
    | apply kept_ite | simp only [kept_mk] | split | dsimp only

theorem State.endLocked_kept (s : State) (x : Side) (h : Nat) (cause : Nat) (hk : Kept s0 s) :
    Kept s0 (State.endLocked s x h cause) := by
  unfold State.endLocked
  try dsimp only
  with_reducible repeat' first
    | assumption | apply State.setSide_kept | apply State.atomicErr_kept | apply State.breakLock_kept | apply kept_ite | simp only [kept_mk]
    | split | dsimp only

theorem State.coreReset_kept (s : State) (x : Side) (h : Nat) (hk : Kept s0 s) : Kept s0 (State.coreReset s x h) := by
  unfold State.coreReset
  with_reducible repeat' first
    | assumption | apply State.setHart_kept | apply State.dropWaits_kept | apply State.endLocked_kept

theorem State.lockAcquire_kept (s : State) (x : Side) (h : Nat) (hk : Kept s0 s) : Kept s0 (State.lockAcquire s x h) := by
  unfold State.lockAcquire
  try dsimp only
  with_reducible repeat' first
    | assumption | apply State.set_kept | apply State.setSide_kept | apply kept_ite | simp only [kept_mk] | split | dsimp only

theorem State.lockRelease_kept (s : State) (x : Side) (h : Nat) (hk : Kept s0 s) : Kept s0 (State.lockRelease s x h) := by
  unfold State.lockRelease
  try dsimp only
  with_reducible repeat' first
    | assumption | intro _ | apply State.set_kept | apply State.setSide_kept | apply State.sweepLocks_kept | apply kept_ite
    | simp only [kept_mk] | split | dsimp only

theorem State.lockCtrl_kept (s : State) (x : Side) (h : Nat) (v : Nat) (hk : Kept s0 s) : Kept s0 (State.lockCtrl s x h v) := by
  unfold State.lockCtrl
  try dsimp only
  with_reducible repeat' first
    | assumption | apply State.lockAcquire_kept | apply State.lockRelease_kept | apply kept_ite | split | dsimp only

theorem execBridgeLockAcquire_kept (x : Side) (o : Origin) (v : BitVec 32) (s : State) (hk : Kept s0 s) :
    KeptOut s0 (execBridgeLockAcquire x o v s) := by
  unfold execBridgeLockAcquire
  with_reducible repeat' first
    | assumption | intro _ | apply State.hartAccess_kept | apply State.lockCtrl_kept | apply kept_ok

theorem execBridgeLockRelease_kept (x : Side) (o : Origin) (v : BitVec 32) (s : State) (hk : Kept s0 s) :
    KeptOut s0 (execBridgeLockRelease x o v s) := by
  unfold execBridgeLockRelease
  with_reducible repeat' first
    | assumption | intro _ | apply State.hartAccess_kept | apply State.lockCtrl_kept | apply kept_ok

theorem execBridgeLockGrant_kept (x : Side) (h : Fin 6) (s : State) (hk : Kept s0 s) : KeptOut s0 (execBridgeLockGrant x h s) := by
  unfold execBridgeLockGrant
  try dsimp only
  with_reducible repeat' first
    | assumption | intro _ | apply State.set_kept | apply State.inc_kept | apply State.setSide_kept | apply kept_ite | simp only [kept_mk]
    | split | refine kept_of_snd (by assumption) ?_ | refine kept_of_fst (by assumption) ?_ | refine kept_of_some (by assumption) ?_
    | apply kept_ok | dsimp only

theorem execBridgeLockBroken_kept (x : Side) (h : Fin 6) (s : State) (hk : Kept s0 s) : KeptOut s0 (execBridgeLockBroken x h s) := by
  unfold execBridgeLockBroken
  try dsimp only
  with_reducible repeat' first
    | assumption | intro _ | apply State.set_kept | apply State.inc_kept | apply State.log_kept | apply State.due_kept
    | apply State.keepLocks_kept | apply kept_ite | simp only [kept_mk] | split | refine kept_of_snd (by assumption) ?_
    | refine kept_of_fst (by assumption) ?_ | refine kept_of_some (by assumption) ?_ | apply kept_ok | dsimp only

theorem execBridgeLockGrantTimeout_kept (x : Side) (h : Fin 6) (s : State) (hk : Kept s0 s) :
    KeptOut s0 (execBridgeLockGrantTimeout x h s) := by
  unfold execBridgeLockGrantTimeout
  try dsimp only
  with_reducible repeat' first
    | assumption | intro _ | apply State.due_kept | apply State.breakLock_kept | simp only [kept_mk] | split
    | refine kept_of_snd (by assumption) ?_ | refine kept_of_fst (by assumption) ?_ | refine kept_of_some (by assumption) ?_ | apply kept_ok
    | dsimp only

theorem State.lockRead_kept (s : State) (x : Side) (h : Nat) (hk : Kept s0 s) : Kept s0 (State.lockRead s x h) := by
  unfold State.lockRead
  try dsimp only
  with_reducible repeat' first
    | assumption | apply State.set_kept | simp only [kept_mk] | dsimp only

theorem execBridgeLockRead_kept (x : Side) (o : Origin) (s : State) (hk : Kept s0 s) : KeptOut s0 (execBridgeLockRead x o s) := by
  unfold execBridgeLockRead
  with_reducible repeat' first
    | assumption | intro _ | apply State.hartAccess_kept | apply State.lockRead_kept | apply kept_ok

end Sys2Proof.Machine
end

