-- ==== Sys2Proof/Laws/KeptWake.lean ====
section
/-! SUPPORT. The definitions of Machine/Wake.lean keep what every effect keeps: the queue, time, the count of free values, and the
canonical forms. -/
namespace Sys2Proof.Machine
open Sys2Proof

set_option linter.unusedVariables false
set_option linter.unusedSimpArgs false
set_option linter.unusedTactic false
set_option linter.unreachableTactic false
set_option linter.tactic.unusedName false

variable {s0 : State}

theorem State.wrecPut_kept (s : State) (i : Nat) (hi : Nat) (lo : Nat) (v : Nat) (hk : Kept s0 s) :
    Kept s0 (State.wrecPut s i hi lo v) := by
  unfold State.wrecPut
  try dsimp only
  with_reducible repeat' first
    | assumption | apply State.set_kept | dsimp only

theorem State.wrecNote_kept (s : State) (hi : Nat) (lo : Nat) (v : Nat) (hk : Kept s0 s) : Kept s0 (State.wrecNote s hi lo v) := by
  unfold State.wrecNote
  with_reducible repeat' first
    | assumption | apply State.wrecPut_kept | apply kept_ite | split

theorem State.wrecStore_kept (s : State) (x : Side) (n : Nat) (hk : Kept s0 s) : Kept s0 (State.wrecStore s x n) := by
  unfold State.wrecStore
  with_reducible repeat' first
    | assumption | intro _ | apply State.store_kept

theorem State.wrecCopy_kept (s : State) (x : Side) (hk : Kept s0 s) : Kept s0 (State.wrecCopy s x) := by
  unfold State.wrecCopy
  try dsimp only
  with_reducible repeat' first
    | assumption | apply State.setSide_kept | apply State.wrecStore_kept | simp only [kept_mk] | dsimp only

theorem State.wakeOutcome_kept (s : State) (o : Nat) (hk : Kept s0 s) : Kept s0 (State.wakeOutcome s o) := by
  unfold State.wakeOutcome
  try dsimp only
  with_reducible repeat' first
    | assumption | intro _ | apply State.each_kept | apply State.wrecNote_kept | apply State.wrecStore_kept | simp only [kept_mk] | split
    | refine kept_of_snd (by assumption) ?_ | refine kept_of_fst (by assumption) ?_ | refine kept_of_some (by assumption) ?_ | dsimp only

theorem State.awakeClear_kept (s : State) (hk : Kept s0 s) : Kept s0 (State.awakeClear s) := by
  unfold State.awakeClear
  try dsimp only
  with_reducible repeat' first
    | assumption | intro _ | apply State.each_kept | apply State.setCan_kept | simp only [kept_mk] | dsimp only

theorem State.awakeEnd_kept (s : State) (hk : Kept s0 s) : Kept s0 (State.awakeEnd s) := by
  unfold State.awakeEnd
  try dsimp only
  with_reducible repeat' first
    | assumption | intro _ | apply State.each_kept | apply State.log_kept | simp only [kept_mk] | split
    | refine kept_of_snd (by assumption) ?_ | refine kept_of_fst (by assumption) ?_ | refine kept_of_some (by assumption) ?_ | dsimp only

theorem State.confirmWake_kept (s : State) (hk : Kept s0 s) : Kept s0 (State.confirmWake s) := by
  unfold State.confirmWake
  try dsimp only
  with_reducible repeat' first
    | assumption | apply State.set_kept | apply State.wrecPut_kept | apply State.wakeOutcome_kept | apply State.awakeEnd_kept
    | apply kept_ite | simp only [kept_mk] | split | dsimp only

theorem State.confirmFrame_kept (s : State) (x : Side) (k : Nat) (h0 : Nat) (h1 : Nat) (data : Nat) (hk : Kept s0 s) :
    Kept s0 (State.confirmFrame s x k h0 h1 data) := by
  unfold State.confirmFrame
  with_reducible repeat' first
    | assumption | apply State.confirmWake_kept | apply kept_ite | split

theorem State.confirmLink_kept (s : State) (p : Nat) (hk : Kept s0 s) : Kept s0 (State.confirmLink s p) := by
  unfold State.confirmLink
  with_reducible repeat' first
    | assumption | apply State.confirmWake_kept | apply kept_ite | split

theorem execConfirmation_kept (c : Confirm) (s : State) (hk : Kept s0 s) : KeptOut s0 (execConfirmation c s) := by
  unfold execConfirmation
  try dsimp only
  with_reducible repeat' first
    | assumption | apply State.confirmWake_kept | apply State.confirmFrame_kept | apply State.confirmLink_kept | apply kept_ite
    | simp only [kept_mk] | split | refine kept_of_snd (by assumption) ?_ | refine kept_of_fst (by assumption) ?_
    | refine kept_of_some (by assumption) ?_ | apply kept_ok | dsimp only

end Sys2Proof.Machine
end

