-- ==== Sys2Proof/Laws/KeptSwitchCtl.lean ====
section
/-! SUPPORT. The definitions of Machine/SwitchCtl.lean keep what every effect keeps: the queue, time, the count of free values, and the
canonical forms. -/
namespace Sys2Proof.Machine
open Sys2Proof

set_option linter.unusedVariables false
set_option linter.unusedSimpArgs false
set_option linter.unusedTactic false
set_option linter.unreachableTactic false
set_option linter.tactic.unusedName false

variable {s0 : State}

theorem State.flueWrite_kept (s : State) (x : Side) (o : Origin) (a : Nat) (v : Nat) (wide : Bool) (f : State → State) (hf : ∀ (y0 : State), Kept s0 y0 → Kept s0 (f y0)) (hk : Kept s0 s) :
    Kept s0 (State.flueWrite s x o a v wide f) := by
  unfold State.flueWrite
  try dsimp only
  with_reducible repeat' first
    | assumption | intro _ | exact Kept.refl _ | apply State.inc_kept | apply State.logFaultBoth_kept | apply State.busError_kept
    | apply State.guarded_kept | apply State.txnFails_kept | apply State.enter_kept | apply hf
    | (apply kept_then; (focus ((repeat' first | exact Kept.refl _ | apply State.inc_kept | apply State.logFaultBoth_kept | apply State.busError_kept | apply State.guarded_kept | apply State.txnFails_kept | apply State.enter_kept | apply kept_ite); done)))
    | apply kept_ite | split | dsimp only

theorem State.fdbResult_kept (s : State) (r : Nat) (hk : Kept s0 s) : Kept s0 (State.fdbResult s r) := by
  unfold State.fdbResult
  with_reducible repeat' first
    | assumption | apply State.set_kept

theorem State.fdbInsert_kept (s : State) (hk : Kept s0 s) : Kept s0 (State.fdbInsert s) := by
  unfold State.fdbInsert
  try dsimp only
  with_reducible repeat' first
    | assumption | intro _ | apply State.setFdb_kept | apply State.fdbResult_kept | apply kept_ite | simp only [kept_mk] | split
    | refine kept_of_snd (by assumption) ?_ | refine kept_of_fst (by assumption) ?_ | refine kept_of_some (by assumption) ?_ | dsimp only

theorem State.fdbDelete_kept (s : State) (hk : Kept s0 s) : Kept s0 (State.fdbDelete s) := by
  unfold State.fdbDelete
  try dsimp only
  with_reducible repeat' first
    | assumption | intro _ | apply State.setFdb_kept | apply State.fdbResult_kept | simp only [kept_mk] | split
    | refine kept_of_snd (by assumption) ?_ | refine kept_of_fst (by assumption) ?_ | refine kept_of_some (by assumption) ?_ | dsimp only

theorem State.fdbLookup_kept (s : State) (hk : Kept s0 s) : Kept s0 (State.fdbLookup s) := by
  unfold State.fdbLookup
  try dsimp only
  with_reducible repeat' first
    | assumption | apply State.set_kept | apply State.fdbResult_kept | simp only [kept_mk] | split | refine kept_of_snd (by assumption) ?_
    | refine kept_of_fst (by assumption) ?_ | refine kept_of_some (by assumption) ?_ | dsimp only

theorem State.fdbFlush_kept (s : State) (hk : Kept s0 s) : Kept s0 (State.fdbFlush s) := by
  unfold State.fdbFlush
  with_reducible repeat' first
    | assumption | intro _ | apply State.setFdb_kept | apply State.fdbResult_kept

theorem State.fdbFlushPort_kept (s : State) (p : Nat) (hk : Kept s0 s) : Kept s0 (State.fdbFlushPort s p) := by
  unfold State.fdbFlushPort
  with_reducible repeat' first
    | assumption | intro _ | apply State.setFdb_kept | apply State.fdbResult_kept | split

theorem State.fdbCtrl_kept (s : State) (v : Nat) (hk : Kept s0 s) : Kept s0 (State.fdbCtrl s v) := by
  unfold State.fdbCtrl
  try dsimp only
  with_reducible repeat' first
    | assumption | apply State.set_kept | apply State.fdbResult_kept | apply State.fdbInsert_kept | apply State.fdbDelete_kept
    | apply State.fdbLookup_kept | apply State.fdbFlush_kept | apply State.fdbFlushPort_kept | apply kept_ite | simp only [kept_mk] | split
    | refine kept_of_snd (by assumption) ?_ | refine kept_of_fst (by assumption) ?_ | refine kept_of_some (by assumption) ?_ | dsimp only

theorem State.fdbGo_kept (s : State) (x : Side) (o : Origin) (op : Nat) (port : Nat) (hk : Kept s0 s) :
    Kept s0 (State.fdbGo s x o op port) := by
  unfold State.fdbGo
  try dsimp only
  with_reducible repeat' first
    | assumption | intro _ | apply State.flueWrite_kept | apply State.fdbCtrl_kept | dsimp only

theorem execFdbInsertStatic_kept (x : Side) (o : Origin) (s : State) (hk : Kept s0 s) : KeptOut s0 (execFdbInsertStatic x o s) := by
  unfold execFdbInsertStatic
  with_reducible repeat' first
    | assumption | apply State.fdbGo_kept | apply kept_ok

theorem execFdbDelete_kept (x : Side) (o : Origin) (s : State) (hk : Kept s0 s) : KeptOut s0 (execFdbDelete x o s) := by
  unfold execFdbDelete
  with_reducible repeat' first
    | assumption | apply State.fdbGo_kept | apply kept_ok

theorem execFdbLookup_kept (x : Side) (o : Origin) (s : State) (hk : Kept s0 s) : KeptOut s0 (execFdbLookup x o s) := by
  unfold execFdbLookup
  with_reducible repeat' first
    | assumption | apply State.fdbGo_kept | apply kept_ok

theorem execFdbFlushAll_kept (x : Side) (o : Origin) (s : State) (hk : Kept s0 s) : KeptOut s0 (execFdbFlushAll x o s) := by
  unfold execFdbFlushAll
  with_reducible repeat' first
    | assumption | apply State.fdbGo_kept | apply kept_ok

theorem execFdbFlushPort_kept (x : Side) (o : Origin) (p : Fin 32) (s : State) (hk : Kept s0 s) :
    KeptOut s0 (execFdbFlushPort x o p s) := by
  unfold execFdbFlushPort
  with_reducible repeat' first
    | assumption | apply State.fdbGo_kept | apply kept_ok

theorem execFdbAgeing_kept (s : State) (hk : Kept s0 s) : KeptOut s0 (execFdbAgeing s) := by
  unfold execFdbAgeing
  try dsimp only
  with_reducible repeat' first
    | assumption | intro _ | apply State.due_kept | apply State.setFdb_kept | apply kept_foldl | apply kept_ite | simp only [kept_mk]
    | split | refine kept_of_snd (by assumption) ?_ | refine kept_of_fst (by assumption) ?_ | refine kept_of_some (by assumption) ?_
    | apply kept_ok | dsimp only

theorem State.tasStop_kept (s : State) (p : Nat) (hk : Kept s0 s) : Kept s0 (State.tasStop s p) := by
  unfold State.tasStop
  try dsimp only
  with_reducible repeat' first
    | assumption | intro _ | apply State.set_kept | simp only [kept_mk] | dsimp only

theorem State.setTas_kept (s : State) (p : Nat) (v : Tas) (hk : Kept s0 s) : Kept s0 (State.setTas s p v) := by
  unfold State.setTas
  try dsimp only
  with_reducible repeat' first
    | assumption | apply State.erase_kept | simp only [kept_mk] | simp only [id] | dsimp only

theorem State.tasStart_kept (s : State) (p : Nat) (start : Nat) (hk : Kept s0 s) : Kept s0 (State.tasStart s p start) := by
  unfold State.tasStart
  try dsimp only
  with_reducible repeat' first
    | assumption | apply State.set_kept | apply State.setTas_kept | dsimp only

theorem State.dueOn_kept (s : State) (d : Nat) (t : Nat) (hk : Kept s0 s) : Kept s0 (State.dueOn s d t) := by
  unfold State.dueOn
  with_reducible repeat' first
    | assumption | apply State.due_kept

theorem State.tasAgain_kept (s : State) (p : Nat) (v : Tas) (hk : Kept s0 s) : Kept s0 (State.tasAgain s p v) := by
  unfold State.tasAgain
  try dsimp only
  with_reducible repeat' first
    | assumption | apply State.set_kept | apply State.setTas_kept | apply State.dueOn_kept | simp only [kept_mk] | dsimp only

theorem State.tasNext_kept (s : State) (p : Nat) (hk : Kept s0 s) : Kept s0 (State.tasNext s p) := by
  unfold State.tasNext
  try dsimp only
  with_reducible repeat' first
    | assumption | exact Kept.refl _ | apply State.set_kept | apply State.flueEvt_kept | apply State.restart_kept | apply State.tasStop_kept
    | apply State.tasStart_kept | apply State.dueOn_kept | apply State.tasAgain_kept
    | (apply kept_then; (focus ((repeat' first | exact Kept.refl _ | apply State.set_kept | apply State.flueEvt_kept | apply State.restart_kept | apply State.tasStop_kept | apply State.tasStart_kept | apply State.dueOn_kept | apply State.tasAgain_kept | apply kept_ite); done)))
    | apply kept_ite | simp only [kept_mk] | split | refine kept_of_snd (by assumption) ?_ | refine kept_of_fst (by assumption) ?_
    | refine kept_of_some (by assumption) ?_ | dsimp only

theorem execTasCycleStart_kept (p : Fin 17) (s : State) (hk : Kept s0 s) : KeptOut s0 (execTasCycleStart p s) := by
  unfold execTasCycleStart
  with_reducible repeat' first
    | assumption | apply State.tasNext_kept | apply kept_ite | split | apply kept_ok

theorem execFrerReset_kept (n : Fin 512) (s : State) (hk : Kept s0 s) : KeptOut s0 (execFrerReset n s) := by
  unfold execFrerReset
  try dsimp only
  with_reducible repeat' first
    | assumption | apply State.inc_kept | apply State.flueEvt_kept | apply State.due_kept | apply kept_ite | simp only [kept_mk] | split
    | apply kept_ok | dsimp only

theorem State.flushPort_kept (s : State) (p : Nat) (hk : Kept s0 s) : Kept s0 (State.flushPort s p) := by
  unfold State.flushPort
  try dsimp only
  with_reducible repeat' first
    | assumption | intro _ | apply State.each_kept | apply State.cnt_kept | apply State.release_kept | apply State.setQueue_kept
    | simp only [id] | dsimp only

theorem State.portSleep_kept (s : State) (p : Nat) (hk : Kept s0 s) : Kept s0 (State.portSleep s p) := by
  unfold State.portSleep
  with_reducible repeat' first
    | assumption | apply State.set_kept | apply State.cnt_kept | apply State.flushPort_kept

theorem State.portLink_kept (s : State) (p : Nat) (up : Bool) (hk : Kept s0 s) : Kept s0 (State.portLink s p up) := by
  unfold State.portLink
  try dsimp only
  with_reducible repeat' first
    | assumption | intro _ | exact Kept.refl _ | apply State.set_kept | apply State.each_kept | apply State.logBoth_kept
    | apply State.flueEvt_kept | apply State.cnt_kept | apply State.holdover_kept | apply State.confirmLink_kept
    | apply State.flushPort_kept
    | (apply kept_then; (focus ((repeat' first | exact Kept.refl _ | apply State.set_kept | apply State.each_kept | apply State.logBoth_kept | apply State.flueEvt_kept | apply State.cnt_kept | apply State.holdover_kept | apply State.confirmLink_kept | apply State.flushPort_kept | apply kept_ite); done)))
    | apply kept_ite | split | dsimp only

theorem execLinkChange_kept (l : LinkId) (up : Bool) (s : State) (hk : Kept s0 s) : KeptOut s0 (execLinkChange l up s) := by
  unfold execLinkChange
  try dsimp only
  with_reducible repeat' first
    | assumption | apply State.lifeLink_kept | apply State.portLink_kept | apply kept_ite | simp only [kept_mk] | split
    | refine kept_of_snd (by assumption) ?_ | refine kept_of_fst (by assumption) ?_ | refine kept_of_some (by assumption) ?_ | apply kept_ok
    | dsimp only

theorem execTc10SleepRequest_kept (p : Fin 17) (s : State) (hk : Kept s0 s) : KeptOut s0 (execTc10SleepRequest p s) := by
  unfold execTc10SleepRequest
  with_reducible repeat' first
    | assumption | apply State.portSleep_kept | apply kept_ite | split | apply kept_ok

theorem State.portSleepReq_kept (s : State) (p : Nat) (hk : Kept s0 s) : Kept s0 (State.portSleepReq s p) := by
  unfold State.portSleepReq
  try dsimp only
  with_reducible repeat' first
    | assumption | apply State.set_kept | apply kept_ite | simp only [kept_mk] | split | dsimp only

theorem State.portWake_kept (s : State) (p : Nat) (hk : Kept s0 s) : Kept s0 (State.portWake s p) := by
  unfold State.portWake
  with_reducible repeat' first
    | assumption | apply State.set_kept | apply State.cnt_kept | apply kept_ite | split

theorem State.portPulse_kept (s : State) (p : Nat) (hk : Kept s0 s) : Kept s0 (State.portPulse s p) := by
  unfold State.portPulse
  try dsimp only
  with_reducible repeat' first
    | assumption | apply State.setBit_kept | apply kept_ite | simp only [kept_mk] | split | dsimp only

theorem State.portCtrl_kept (s : State) (p : Nat) (v : Nat) (hk : Kept s0 s) : Kept s0 (State.portCtrl s p v) := by
  unfold State.portCtrl
  try dsimp only
  with_reducible repeat' first
    | assumption | apply State.portSleepReq_kept | apply State.portWake_kept | apply State.portPulse_kept | apply kept_ite | split
    | dsimp only

theorem execPortSleepReq_kept (x : Side) (o : Origin) (p : Fin 17) (s : State) (hk : Kept s0 s) :
    KeptOut s0 (execPortSleepReq x o p s) := by
  unfold execPortSleepReq
  with_reducible repeat' first
    | assumption | intro _ | apply State.flueWrite_kept | apply State.portCtrl_kept | apply kept_ok

theorem execPortWake_kept (x : Side) (o : Origin) (p : Fin 17) (s : State) (hk : Kept s0 s) : KeptOut s0 (execPortWake x o p s) := by
  unfold execPortWake
  with_reducible repeat' first
    | assumption | intro _ | apply State.flueWrite_kept | apply State.portCtrl_kept | apply kept_ok

theorem execTc10SleepTimeout_kept (p : Fin 17) (accepted : Option Bool) (s : State) (hk : Kept s0 s) :
    KeptOut s0 (execTc10SleepTimeout p accepted s) := by
  unfold execTc10SleepTimeout
  try dsimp only
  with_reducible repeat' first
    | assumption | exact Kept.refl _ | apply State.set_kept | apply State.logBoth_kept | apply State.flueEvt_kept | apply State.due_kept
    | apply State.portSleep_kept
    | (apply kept_then; (focus ((repeat' first | exact Kept.refl _ | apply State.set_kept | apply State.logBoth_kept | apply State.flueEvt_kept | apply State.due_kept | apply State.portSleep_kept | apply kept_ite); done)))
    | apply kept_ite | split | apply kept_ok | dsimp only

theorem execTc10PartnerWake_kept (p : Fin 17) (s : State) (hk : Kept s0 s) : KeptOut s0 (execTc10PartnerWake p s) := by
  unfold execTc10PartnerWake
  with_reducible repeat' first
    | assumption | apply State.portWake_kept | apply kept_ite | split | apply kept_ok

theorem State.mirrorSet_kept (s : State) (j : Job) (hk : Kept s0 s) : Kept s0 (State.mirrorSet s j) := by
  unfold State.mirrorSet
  try dsimp only
  with_reducible repeat' first
    | assumption | apply State.set_kept | apply State.done_kept | dsimp only

theorem execNetMirrorSet_kept (x : Side) (s : State) (hk : Kept s0 s) : KeptOut s0 (execNetMirrorSet x s) := by
  unfold execNetMirrorSet
  with_reducible repeat' first
    | assumption | intro _ | apply State.chromir_kept | apply State.onNet_kept | apply State.mirrorSet_kept | apply kept_ok

theorem State.clearSa_kept (s : State) (i : Nat) (hk : Kept s0 s) : Kept s0 (State.clearSa s i) := by
  unfold State.clearSa
  with_reducible repeat' first
    | assumption | intro _ | apply State.set_kept | apply State.each_kept

theorem State.saInstall_kept (s : State) (x : Side) (j : Job) (hk : Kept s0 s) : Kept s0 (State.saInstall s x j) := by
  unfold State.saInstall
  try dsimp only
  with_reducible repeat' first
    | assumption | intro _ | exact Kept.refl _ | apply State.set_kept | apply State.each_kept | apply State.done_kept
    | apply State.setSaPn_kept | apply State.clearSa_kept
    | (apply kept_then; (focus ((repeat' first | exact Kept.refl _ | apply State.set_kept | apply State.each_kept | apply State.done_kept | apply State.setSaPn_kept | apply State.clearSa_kept | apply kept_ite); done)))
    | apply kept_ite | simp only [kept_mk] | split | dsimp only

theorem execNetSaInstall_kept (x : Side) (s : State) (hk : Kept s0 s) : KeptOut s0 (execNetSaInstall x s) := by
  unfold execNetSaInstall
  with_reducible repeat' first
    | assumption | intro _ | apply State.chromir_kept | apply State.onNet_kept | apply State.saInstall_kept | apply kept_ok

end Sys2Proof.Machine
end

