-- ==== Sys2Proof/Laws/KeptBypass.lean ====
section
/-! SUPPORT. The definitions of Machine/Bypass.lean keep what every effect keeps: the queue, time, the count of free values, and the
canonical forms. -/
namespace Sys2Proof.Machine
open Sys2Proof

set_option linter.unusedVariables false
set_option linter.unusedSimpArgs false
set_option linter.unusedTactic false
set_option linter.unreachableTactic false
set_option linter.tactic.unusedName false

variable {s0 : State}

theorem State.closeBypass_kept (s : State) (hk : Kept s0 s) : Kept s0 (State.closeBypass s) := by
  unfold State.closeBypass
  try dsimp only
  with_reducible repeat' first
    | assumption | exact Kept.refl _ | apply State.set_kept | apply State.inc_kept | apply State.portLink_kept
    | (apply kept_then; (focus ((repeat' first | exact Kept.refl _ | apply State.set_kept | apply State.inc_kept | apply State.portLink_kept | apply kept_ite); done)))
    | apply kept_ite | split | dsimp only

theorem execBypassClose_kept (s : State) (hk : Kept s0 s) : KeptOut s0 (execBypassClose s) := by
  unfold execBypassClose
  with_reducible repeat' first
    | assumption | apply State.closeBypass_kept | apply kept_ok

theorem execBypassOpen_kept (s : State) (hk : Kept s0 s) : KeptOut s0 (execBypassOpen s) := by
  unfold execBypassOpen
  try dsimp only
  with_reducible repeat' first
    | assumption | apply State.set_kept | apply State.inc_kept | apply kept_ite | simp only [kept_mk] | split | apply kept_ok | dsimp only

theorem execBypassSelftest_kept (p : Fin 2) (pass : Bool) (s : State) (hk : Kept s0 s) :
    KeptOut s0 (execBypassSelftest p pass s) := by
  unfold execBypassSelftest
  try dsimp only
  with_reducible repeat' first
    | assumption | apply State.set_kept | apply State.setBit_kept | apply State.logBoth_kept | apply kept_ite | simp only [kept_mk] | split
    | apply kept_ok | dsimp only

theorem execBypSenseChange_kept (x : Side) (s : State) (hk : Kept s0 s) : KeptOut s0 (execBypSenseChange x s) := by
  unfold execBypSenseChange
  try dsimp only
  with_reducible repeat' first
    | assumption | exact Kept.refl _ | apply State.set_kept | apply State.log_kept | apply State.lifeEvt_kept
    | (apply kept_then; (focus ((repeat' first | exact Kept.refl _ | apply State.set_kept | apply State.log_kept | apply State.lifeEvt_kept | apply kept_ite); done)))
    | apply kept_ite | split | apply kept_ok | dsimp only

theorem State.netBypass_kept (s : State) (x : Side) (j : Job) (hk : Kept s0 s) : Kept s0 (State.netBypass s x j) := by
  unfold State.netBypass
  try dsimp only
  with_reducible repeat' first
    | assumption | exact Kept.refl _ | apply State.set_kept | apply State.done_kept | apply State.closeBypass_kept
    | (apply kept_then; (focus ((repeat' first | exact Kept.refl _ | apply State.set_kept | apply State.done_kept | apply State.closeBypass_kept | apply kept_ite); done)))
    | apply kept_ite | split | dsimp only

theorem execNetBypassState_kept (x : Side) (s : State) (hk : Kept s0 s) : KeptOut s0 (execNetBypassState x s) := by
  unfold execNetBypassState
  with_reducible repeat' first
    | assumption | intro _ | apply State.chromir_kept | apply State.netBypass_kept | apply kept_ok

end Sys2Proof.Machine
end

