-- ==== Sys2Proof/Laws/KeptChannel.lean ====
section
/-! SUPPORT. The definitions of Machine/Channel.lean keep what every effect keeps: the queue, time, the count of free values, and the
canonical forms. -/
namespace Sys2Proof.Machine
open Sys2Proof

set_option linter.unusedVariables false
set_option linter.unusedSimpArgs false
set_option linter.unusedTactic false
set_option linter.unreachableTactic false
set_option linter.tactic.unusedName false

variable {s0 : State}

theorem State.cw_kept (s : State) (c : Nat) (f : Fld) (v : Nat) (hk : Kept s0 s) : Kept s0 (State.cw s c f v) := by
  unfold State.cw
  with_reducible repeat' first
    | assumption | apply State.set_kept

theorem State.cn_kept (s : State) (c : Nat) (f : Fld) (hk : Kept s0 s) : Kept s0 (State.cn s c f) := by
  unfold State.cn
  with_reducible repeat' first
    | assumption | apply State.inc_kept

theorem State.limitEff_kept (s : State) (c : Nat) (hk : Kept s0 s) : Kept s0 (State.limitEff s c) := by
  unfold State.limitEff
  with_reducible repeat' first
    | assumption | apply State.cw_kept

theorem State.chEventPost_kept (s : State) (c : Nat) (code : Nat) (w5 : Nat) (hk : Kept s0 s) :
    Kept s0 (State.chEventPost s c code w5) := by
  unfold State.chEventPost
  with_reducible repeat' first
    | assumption | apply State.eventBoth_kept

theorem State.chEvent_kept (s : State) (c : Nat) (code : Nat) (w5 : Nat) (hk : Kept s0 s) : Kept s0 (State.chEvent s c code w5) := by
  unfold State.chEvent
  try dsimp only
  with_reducible repeat' first
    | assumption | apply State.setChan_kept | apply State.cn_kept | apply State.chEventPost_kept | apply kept_ite | simp only [kept_mk]
    | split | refine kept_of_snd (by assumption) ?_ | refine kept_of_fst (by assumption) ?_ | refine kept_of_some (by assumption) ?_
    | dsimp only

theorem State.dmpEvent_kept (s : State) (c : Nat) (code : Nat) (words : List Nat) (hk : Kept s0 s) :
    Kept s0 (State.dmpEvent s c code words) := by
  unfold State.dmpEvent
  try dsimp only
  with_reducible repeat' first
    | assumption | apply State.setChan_kept | apply State.eventBoth_kept | apply State.cn_kept | apply kept_ite | simp only [kept_mk]
    | split | refine kept_of_snd (by assumption) ?_ | refine kept_of_fst (by assumption) ?_ | refine kept_of_some (by assumption) ?_
    | dsimp only

theorem State.diagBit_kept (s : State) (c : Nat) (fault : Nat) (hk : Kept s0 s) : Kept s0 (State.diagBit s c fault) := by
  unfold State.diagBit
  with_reducible repeat' first
    | assumption | apply State.setBit_kept | apply State.cw_kept

theorem State.goto_kept (s : State) (c : Nat) (st : Nat) (hk : Kept s0 s) : Kept s0 (State.goto s c st) := by
  unfold State.goto
  try dsimp only
  with_reducible repeat' first
    | assumption | exact Kept.refl _ | apply State.setChan_kept | apply State.cw_kept
    | (apply kept_then; (focus ((repeat' first | exact Kept.refl _ | apply State.setChan_kept | apply State.cw_kept | apply kept_ite); done)))
    | apply kept_ite | simp only [kept_mk] | split | dsimp only

theorem State.faultTo_kept (s : State) (c : Nat) (fault : Nat) (st : Nat) (hk : Kept s0 s) :
    Kept s0 (State.faultTo s c fault st) := by
  unfold State.faultTo
  try dsimp only
  with_reducible repeat' first
    | assumption | apply State.setChan_kept | apply State.diagBit_kept | apply State.goto_kept | apply kept_ite | simp only [kept_mk]
    | split | dsimp only

theorem State.cmdOff_kept (s : State) (c : Nat) (hk : Kept s0 s) : Kept s0 (State.cmdOff s c) := by
  unfold State.cmdOff
  try dsimp only
  with_reducible repeat' first
    | assumption | apply State.setChan_kept | apply State.cw_kept | simp only [kept_mk] | dsimp only

theorem State.latch_kept (s : State) (c : Nat) (hk : Kept s0 s) : Kept s0 (State.latch s c) := by
  unfold State.latch
  try dsimp only
  with_reducible repeat' first
    | assumption | apply State.setChan_kept | apply State.logBoth_kept | apply State.cn_kept | apply State.chEvent_kept
    | apply State.goto_kept | simp only [kept_mk] | dsimp only

theorem State.faultHandle_kept (s : State) (c : Nat) (hk : Kept s0 s) : Kept s0 (State.faultHandle s c) := by
  unfold State.faultHandle
  try dsimp only
  with_reducible repeat' first
    | assumption | apply State.setChan_kept | apply State.goto_kept | apply State.latch_kept | apply kept_ite | simp only [kept_mk] | split
    | dsimp only

theorem State.faultOff_kept (s : State) (c : Nat) (fault : Nat) (code : Nat) (w5 : Nat) (hk : Kept s0 s) :
    Kept s0 (State.faultOff s c fault code w5) := by
  unfold State.faultOff
  with_reducible repeat' first
    | assumption | apply State.chEvent_kept | apply State.diagBit_kept | apply State.faultTo_kept | apply State.faultHandle_kept

theorem State.begun_kept (s : State) (c : Nat) (hk : Kept s0 s) : Kept s0 (State.begun s c) := by
  unfold State.begun
  try dsimp only
  with_reducible repeat' first
    | assumption | apply State.setChan_kept | apply State.take_kept | apply State.cw_kept | apply State.cn_kept | simp only [kept_mk]
    | dsimp only

theorem State.startStatic_kept (s : State) (c : Nat) (t : TurnOn) (st : Nat) (hk : Kept s0 s) :
    Kept s0 (State.startStatic s c t st) := by
  unfold State.startStatic
  try dsimp only
  with_reducible repeat' first
    | assumption | apply State.setChan_kept | apply State.cw_kept | apply State.goto_kept | apply State.begun_kept | simp only [kept_mk]
    | dsimp only

theorem State.pwmRegs_kept (s : State) (c : Nat) (t : TurnOn) (hk : Kept s0 s) : Kept s0 (State.pwmRegs s c t) := by
  unfold State.pwmRegs
  with_reducible repeat' first
    | assumption | apply State.cw_kept

theorem State.startPwm_kept (s : State) (c : Nat) (hk : Kept s0 s) : Kept s0 (State.startPwm s c) := by
  unfold State.startPwm
  try dsimp only
  with_reducible repeat' first
    | assumption | apply State.setChan_kept | apply State.cw_kept | apply State.goto_kept | apply State.begun_kept | simp only [kept_mk]
    | dsimp only

theorem State.stayOnEnd_kept (s : State) (c : Nat) (hk : Kept s0 s) : Kept s0 (State.stayOnEnd s c) := by
  unfold State.stayOnEnd
  try dsimp only
  with_reducible repeat' first
    | assumption | apply State.setChan_kept | apply kept_ite | simp only [kept_mk] | split | dsimp only

theorem State.applyOn_kept (s : State) (c : Nat) (t : TurnOn) (hk : Kept s0 s) : Kept s0 (State.applyOn s c t) := by
  unfold State.applyOn
  try dsimp only
  with_reducible repeat' first
    | assumption | exact Kept.refl _ | apply State.setChan_kept | apply State.cw_kept | apply State.startStatic_kept
    | apply State.pwmRegs_kept | apply State.startPwm_kept | apply State.stayOnEnd_kept
    | (apply kept_then; (focus ((repeat' first | exact Kept.refl _ | apply State.setChan_kept | apply State.cw_kept | apply State.startStatic_kept | apply State.pwmRegs_kept | apply State.startPwm_kept | apply State.stayOnEnd_kept | apply kept_ite); done)))
    | apply kept_ite | simp only [kept_mk] | split | dsimp only

theorem State.applyOff_kept (s : State) (c : Nat) (slew : Nat) (hk : Kept s0 s) : Kept s0 (State.applyOff s c slew) := by
  unfold State.applyOff
  try dsimp only
  with_reducible repeat' first
    | assumption | exact Kept.refl _ | apply State.setChan_kept | apply State.goto_kept | apply State.cmdOff_kept
    | (apply kept_then; (focus ((repeat' first | exact Kept.refl _ | apply State.setChan_kept | apply State.goto_kept | apply State.cmdOff_kept | apply kept_ite); done)))
    | apply kept_ite | simp only [kept_mk] | split | dsimp only

theorem State.damperOff_kept (s : State) (c : Nat) (hk : Kept s0 s) : Kept s0 (State.damperOff s c) := by
  unfold State.damperOff
  with_reducible repeat' first
    | assumption | apply State.faultTo_kept

theorem State.noFeed_kept (s : State) (c : Nat) (reversed : Bool) (hk : Kept s0 s) : Kept s0 (State.noFeed s c reversed) := by
  unfold State.noFeed
  try dsimp only
  with_reducible repeat' first
    | assumption | apply State.setChan_kept | apply State.chEvent_kept | apply State.faultTo_kept | apply kept_ite | simp only [kept_mk]
    | split | dsimp only

end Sys2Proof.Machine
end

