-- ==== Sys2Proof/Laws/KeptDamper.lean ====
section
/-! SUPPORT. The definitions of Machine/Damper.lean keep what every effect keeps: the queue, time, the count of free values, and the
canonical forms. -/
namespace Sys2Proof.Machine
open Sys2Proof

set_option linter.unusedVariables false
set_option linter.unusedSimpArgs false
set_option linter.unusedTactic false
set_option linter.unreachableTactic false
set_option linter.tactic.unusedName false

variable {s0 : State}

theorem State.limitRefused_kept (s : State) (c : Nat) (hk : Kept s0 s) : Kept s0 (State.limitRefused s c) := by
  unfold State.limitRefused
  with_reducible repeat' first
    | assumption | apply State.inc_kept | apply State.cn_kept

theorem State.budgetRefused_kept (s : State) (c : Nat) (hk : Kept s0 s) : Kept s0 (State.budgetRefused s c) := by
  unfold State.budgetRefused
  with_reducible repeat' first
    | assumption | apply State.inc_kept | apply State.cn_kept

theorem State.shed_kept (s : State) (c : Nat) (b : Nat) (hk : Kept s0 s) : Kept s0 (State.shed s c b) := by
  unfold State.shed
  try dsimp only
  with_reducible repeat' first
    | assumption | apply State.inc_kept | apply State.logBoth_kept | apply State.eventBoth_kept | apply State.cw_kept | apply State.cn_kept
    | apply State.damperOff_kept | dsimp only

theorem State.shedWhile_kept (s : State) (b : Nat) (need : State → Bool) (arg : List Nat) (hk : Kept s0 s) :
    Kept s0 (State.shedWhile s b need arg) := by
  fun_induction State.shedWhile
  with_reducible repeat' first
    | assumption | apply_assumption | apply State.shed_kept | apply kept_ite | split | dsimp only

theorem State.shedFor_kept (s : State) (c : Nat) (only : Option Nat) (misfit : State → Nat → List Nat) (bs : List Nat) (hk : Kept s0 s) :
    Kept s0 (State.shedFor s c only misfit bs) := by
  unfold State.shedFor
  with_reducible repeat' first
    | assumption | intro _ | apply State.each_kept | apply State.shedWhile_kept

theorem State.admitted_kept (s : State) (c : Nat) (hk : Kept s0 s) : Kept s0 (State.admitted s c) := by
  unfold State.admitted
  try dsimp only
  with_reducible repeat' first
    | assumption | apply State.setDie_kept | apply kept_ite | simp only [kept_mk] | split | dsimp only

theorem State.holdStart_kept (s : State) (c : Nat) (job : Option Job) (cause : OnCause) (t : TurnOn) (against : List Nat) (hk : Kept s0 s) :
    Kept s0 (State.holdStart s c job cause t against) := by
  unfold State.holdStart
  try dsimp only
  with_reducible repeat' first
    | assumption | apply State.inc_kept | apply State.setChan_kept | apply State.hold_kept | apply State.cw_kept | apply State.cmdOff_kept
    | apply kept_ite | simp only [kept_mk] | split | refine kept_of_snd (by assumption) ?_ | refine kept_of_fst (by assumption) ?_
    | refine kept_of_some (by assumption) ?_ | dsimp only

theorem State.groupEnd_kept (s : State) (d : Nat) (n : Nat) (j : Job) (admitted : Bool) (hk : Kept s0 s) :
    Kept s0 (State.groupEnd s d n j admitted) := by
  unfold State.groupEnd
  try dsimp only
  with_reducible repeat' first
    | assumption | intro _ | exact Kept.refl _ | apply State.setBit_kept | apply State.clearBit_kept | apply State.setDie_kept
    | apply State.dieReply_kept | apply State.admitted_kept
    | (apply kept_then; (focus ((repeat' first | exact Kept.refl _ | apply State.setBit_kept | apply State.clearBit_kept | apply State.setDie_kept | apply State.dieReply_kept | apply State.admitted_kept | apply kept_ite); done)))
    | apply kept_ite | simp only [kept_mk] | split | refine kept_of_snd (by assumption) ?_ | refine kept_of_fst (by assumption) ?_
    | refine kept_of_some (by assumption) ?_ | dsimp only

theorem State.autoEnd_kept (s : State) (c : Nat) (cause : OnCause) (t : TurnOn) (status : Nat) (detail : Nat) (hk : Kept s0 s) :
    Kept s0 (State.autoEnd s c cause t status detail) := by
  unfold State.autoEnd
  try dsimp only
  with_reducible repeat' first
    | assumption | exact Kept.refl _ | apply State.setChan_kept | apply State.chEvent_kept | apply State.cmdOff_kept
    | apply State.faultHandle_kept | apply State.startStatic_kept | apply State.startPwm_kept | apply State.admitted_kept
    | (apply kept_then; (focus ((repeat' first | exact Kept.refl _ | apply State.setChan_kept | apply State.chEvent_kept | apply State.cmdOff_kept | apply State.faultHandle_kept | apply State.startStatic_kept | apply State.startPwm_kept | apply State.admitted_kept | apply kept_ite); done)))
    | apply kept_ite | simp only [kept_mk] | split | dsimp only

theorem State.holdEnd_kept (s : State) (c : Nat) (h : Hold) (status : Nat) (detail : Nat) (hk : Kept s0 s) :
    Kept s0 (State.holdEnd s c h status detail) := by
  unfold State.holdEnd
  try dsimp only
  with_reducible repeat' first
    | assumption | exact Kept.refl _ | apply State.inc_kept | apply State.setChan_kept | apply State.dieReply_kept | apply State.hold_kept
    | apply State.cw_kept | apply State.applyOn_kept | apply State.budgetRefused_kept | apply State.admitted_kept
    | apply State.groupEnd_kept | apply State.autoEnd_kept
    | (apply kept_then; (focus ((repeat' first | exact Kept.refl _ | apply State.inc_kept | apply State.setChan_kept | apply State.dieReply_kept | apply State.hold_kept | apply State.cw_kept | apply State.applyOn_kept | apply State.budgetRefused_kept | apply State.admitted_kept | apply State.groupEnd_kept | apply State.autoEnd_kept | apply kept_ite); done)))
    | apply kept_ite | simp only [kept_mk] | split | refine kept_of_snd (by assumption) ?_ | refine kept_of_fst (by assumption) ?_
    | refine kept_of_some (by assumption) ?_ | dsimp only

theorem State.holdCut_kept (s : State) (c : Nat) (reason : Nat) (hk : Kept s0 s) : Kept s0 (State.holdCut s c reason) := by
  unfold State.holdCut
  try dsimp only
  with_reducible repeat' first
    | assumption | apply State.hold_kept | apply State.holdEnd_kept | simp only [kept_mk] | split | refine kept_of_snd (by assumption) ?_
    | refine kept_of_fst (by assumption) ?_ | refine kept_of_some (by assumption) ?_ | dsimp only

theorem State.judgeHeld_kept (s : State) (c : Nat) (hk : Kept s0 s) : Kept s0 (State.judgeHeld s c) := by
  unfold State.judgeHeld
  try dsimp only
  with_reducible repeat' first
    | assumption | exact Kept.refl _ | apply State.setChan_kept | apply State.hold_kept | apply State.limitRefused_kept
    | apply State.shedFor_kept | apply State.holdEnd_kept
    | (apply kept_then; (focus ((repeat' first | exact Kept.refl _ | apply State.setChan_kept | apply State.hold_kept | apply State.limitRefused_kept | apply State.shedFor_kept | apply State.holdEnd_kept | apply kept_ite); done)))
    | apply kept_ite | simp only [kept_mk] | split | refine kept_of_snd (by assumption) ?_ | refine kept_of_fst (by assumption) ?_
    | refine kept_of_some (by assumption) ?_ | dsimp only

theorem State.showFlags_kept (s : State) (hk : Kept s0 s) : Kept s0 (State.showFlags s) := by
  unfold State.showFlags
  try dsimp only
  with_reducible repeat' first
    | assumption | intro _ | apply State.set_kept | apply State.each_kept | apply State.derate_kept | dsimp only

theorem State.showModule_kept (s : State) (t : Int) (bad : Bool) (pLogic : Nat) (hk : Kept s0 s) :
    Kept s0 (State.showModule s t bad pLogic) := by
  unfold State.showModule
  try dsimp only
  with_reducible repeat' first
    | assumption | intro _ | apply State.set_kept | apply State.each_kept | dsimp only

theorem State.allot_kept (s : State) (hk : Kept s0 s) : Kept s0 (State.allot s) := by
  unfold State.allot
  try dsimp only
  with_reducible repeat' first
    | assumption | intro _ | exact Kept.refl _ | apply State.set_kept | apply State.each_kept | apply State.setDie_kept | apply kept_foldl
    | (apply kept_then; (focus ((repeat' first | exact Kept.refl _ | apply State.set_kept | apply State.each_kept | apply State.setDie_kept | apply kept_ite); done)))
    | apply kept_ite | simp only [kept_mk] | split | dsimp only

theorem State.overRuns_kept (s : State) (hk : Kept s0 s) : Kept s0 (State.overRuns s) := by
  unfold State.overRuns
  try dsimp only
  with_reducible repeat' first
    | assumption | intro _ | exact Kept.refl _ | apply State.clearBit_kept | apply kept_foldl
    | (apply kept_then; (focus ((repeat' first | exact Kept.refl _ | apply State.clearBit_kept | apply kept_ite); done))) | apply kept_ite
    | simp only [kept_mk] | split | dsimp only

theorem State.p0Sheds_kept (s : State) (hk : Kept s0 s) : Kept s0 (State.p0Sheds s) := by
  unfold State.p0Sheds
  try dsimp only
  with_reducible repeat' first
    | assumption | intro _ | apply State.each_kept | apply State.setDie_kept | apply State.shedWhile_kept | apply kept_ite
    | simp only [kept_mk] | split | dsimp only

theorem State.derateRuns_kept (s : State) (hk : Kept s0 s) : Kept s0 (State.derateRuns s) := by
  unfold State.derateRuns
  try dsimp only
  with_reducible repeat' first
    | assumption | apply kept_ite | simp only [kept_mk] | split | dsimp only

theorem execBudgetExchange_kept (coolant : List Word40) (pLogic : Option Word40) (silent : BitVec 4) (s : State) (hk : Kept s0 s) :
    KeptOut s0 (execBudgetExchange coolant pLogic silent s) := by
  unfold execBudgetExchange
  try dsimp only
  with_reducible repeat' first
    | assumption | intro _ | apply State.each_kept | apply State.setDie_kept | apply State.logBoth_kept | apply State.judgeHeld_kept
    | apply State.showFlags_kept | apply State.showModule_kept | apply State.allot_kept | apply State.overRuns_kept
    | apply State.p0Sheds_kept | apply State.derateRuns_kept | apply kept_foldl | apply kept_ite | simp only [kept_mk] | split
    | refine kept_of_snd (by assumption) ?_ | refine kept_of_fst (by assumption) ?_ | refine kept_of_some (by assumption) ?_ | apply kept_ok
    | dsimp only

theorem execHoldExpiry_kept (d : Fin 4) (n : Fin 16) (s : State) (hk : Kept s0 s) : KeptOut s0 (execHoldExpiry d n s) := by
  unfold execHoldExpiry
  try dsimp only
  with_reducible repeat' first
    | assumption | apply State.each_kept | apply State.due_kept | apply State.hold_kept | apply State.judgeHeld_kept | simp only [kept_mk]
    | split | refine kept_of_snd (by assumption) ?_ | refine kept_of_fst (by assumption) ?_ | refine kept_of_some (by assumption) ?_
    | apply kept_ok | dsimp only

theorem State.dieEvent_kept (s : State) (d : Nat) (code : Nat) (b : Nat) (words : List Nat) (hk : Kept s0 s) :
    Kept s0 (State.dieEvent s d code b words) := by
  unfold State.dieEvent
  try dsimp only
  with_reducible repeat' first
    | assumption | apply State.setDie_kept | apply State.eventBoth_kept | apply kept_ite | simp only [kept_mk] | split
    | refine kept_of_snd (by assumption) ?_ | refine kept_of_fst (by assumption) ?_ | refine kept_of_some (by assumption) ?_ | dsimp only

theorem State.budgetOver_kept (s : State) (k : Nat) (hk : Kept s0 s) : Kept s0 (State.budgetOver s k) := by
  unfold State.budgetOver
  try dsimp only
  with_reducible repeat' first
    | assumption | apply State.setBit_kept | apply State.logBoth_kept | apply State.shedWhile_kept | apply State.showFlags_kept
    | apply State.dieEvent_kept | apply kept_ite | simp only [kept_mk] | split | dsimp only

theorem State.reserveOver_kept (s : State) (k : Nat) (hk : Kept s0 s) : Kept s0 (State.reserveOver s k) := by
  unfold State.reserveOver
  try dsimp only
  with_reducible repeat' first
    | assumption | apply State.setBit_kept | apply State.logBoth_kept | apply State.showFlags_kept | apply State.dieEvent_kept
    | simp only [kept_mk] | dsimp only

theorem execBudgetOverTime_kept (b : Fin 4) (s : State) (hk : Kept s0 s) : KeptOut s0 (execBudgetOverTime b s) := by
  unfold execBudgetOverTime
  try dsimp only
  with_reducible repeat' first
    | assumption | exact Kept.refl _ | apply State.due_kept | apply State.budgetOver_kept | apply State.reserveOver_kept | apply kept_foldl
    | (apply kept_then; (focus ((repeat' first | exact Kept.refl _ | apply State.due_kept | apply State.budgetOver_kept | apply State.reserveOver_kept | apply kept_ite); done)))
    | apply kept_ite | simp only [kept_mk] | split | refine kept_of_snd (by assumption) ?_ | refine kept_of_fst (by assumption) ?_
    | refine kept_of_some (by assumption) ?_ | apply kept_ok | simp only [id] | dsimp only

theorem State.derate_kept (s : State) (on : Bool) (hk : Kept s0 s) : Kept s0 (State.derate s on) := by
  unfold State.derate
  try dsimp only
  with_reducible repeat' first
    | assumption | apply State.showFlags_kept | simp only [kept_mk] | dsimp only

theorem execDerateAssert_kept (s : State) (hk : Kept s0 s) : KeptOut s0 (execDerateAssert s) := by
  unfold execDerateAssert
  try dsimp only
  with_reducible repeat' first
    | assumption | apply State.due_kept | apply State.derate_kept | apply kept_ite | simp only [kept_mk] | split
    | refine kept_of_snd (by assumption) ?_ | refine kept_of_fst (by assumption) ?_ | refine kept_of_some (by assumption) ?_ | apply kept_ok
    | dsimp only

theorem execDerateEnd_kept (s : State) (hk : Kept s0 s) : KeptOut s0 (execDerateEnd s) := by
  unfold execDerateEnd
  try dsimp only
  with_reducible repeat' first
    | assumption | apply State.due_kept | apply State.derate_kept | simp only [kept_mk] | split | refine kept_of_snd (by assumption) ?_
    | refine kept_of_fst (by assumption) ?_ | refine kept_of_some (by assumption) ?_ | apply kept_ok | dsimp only

theorem State.setRide_kept (s : State) (d : Nat) (on : Bool) (hk : Kept s0 s) : Kept s0 (State.setRide s d on) := by
  unfold State.setRide
  try dsimp only
  with_reducible repeat' first
    | assumption | apply State.setDie_kept | apply State.showFlags_kept | simp only [kept_mk] | dsimp only

theorem execRideAssert_kept (d : Fin 4) (s : State) (hk : Kept s0 s) : KeptOut s0 (execRideAssert d s) := by
  unfold execRideAssert
  with_reducible repeat' first
    | assumption | apply State.setRide_kept | apply kept_ite | split | apply kept_ok

theorem execRideEnd_kept (d : Fin 4) (s : State) (hk : Kept s0 s) : KeptOut s0 (execRideEnd d s) := by
  unfold execRideEnd
  with_reducible repeat' first
    | assumption | apply State.setRide_kept | apply kept_ite | split | apply kept_ok

end Sys2Proof.Machine
end

