-- ==== Sys2Proof/Laws/KeptGrate.lean ====
section
/-! SUPPORT. The definitions of Machine/Grate.lean keep what every effect keeps: the queue, time, the count of free values, and the
canonical forms. -/
namespace Sys2Proof.Machine
open Sys2Proof

set_option linter.unusedVariables false
set_option linter.unusedSimpArgs false
set_option linter.unusedTactic false
set_option linter.unreachableTactic false
set_option linter.tactic.unusedName false

variable {s0 : State}

theorem State.asMaster_kept (s : State) (d : Nat) (x : Side) (f : State → State) (no : State → State) (hf : ∀ (y0 : State), Kept s0 y0 → Kept s0 (f y0)) (hno : ∀ (y0 : State), Kept s0 y0 → Kept s0 (no y0)) (hk : Kept s0 s) :
    Kept s0 (State.asMaster s d x f no) := by
  unfold State.asMaster
  try dsimp only
  with_reducible repeat' first
    | assumption | intro _ | exact Kept.refl _ | apply State.inc_kept | apply State.each_kept | apply State.setDie_kept
    | apply State.holdCut_kept | apply hf | apply hno
    | (apply kept_then; (focus ((repeat' first | exact Kept.refl _ | apply State.inc_kept | apply State.each_kept | apply State.setDie_kept | apply State.holdCut_kept | apply kept_ite); done)))
    | apply kept_ite | simp only [kept_mk] | split | dsimp only

theorem State.offApply_kept (s : State) (c : Nat) (store : Option TurnOn) (slew : Nat) (hk : Kept s0 s) :
    Kept s0 (State.offApply s c store slew) := by
  unfold State.offApply
  try dsimp only
  with_reducible repeat' first
    | assumption | apply State.store_kept | apply State.cw_kept | apply State.pwmRegs_kept | apply State.applyOff_kept | apply kept_ite
    | simp only [kept_mk] | split | refine kept_of_snd (by assumption) ?_ | refine kept_of_fst (by assumption) ?_
    | refine kept_of_some (by assumption) ?_ | dsimp only

theorem State.judgeSpark_kept (s : State) (c : Nat) (hk : Kept s0 s) : Kept s0 (State.judgeSpark s c).1 := by
  unfold State.judgeSpark
  try dsimp only
  with_reducible repeat' first
    | assumption | exact Kept.refl _ | apply State.shedFor_kept
    | (apply kept_then; (focus ((repeat' first | exact Kept.refl _ | apply State.shedFor_kept | apply kept_ite); done))) | apply kept_ite
    | simp only [kept_mk] | split | refine kept_of_snd (by assumption) ?_ | refine kept_of_fst (by assumption) ?_
    | refine kept_of_some (by assumption) ?_ | dsimp only

theorem State.act_kept (s : State) (c : Nat) (a : Act) (slew : Nat) (compared : Bool) (job : Option Job) (hk : Kept s0 s) :
    Kept s0 (State.act s c a slew compared job).1 := by
  unfold State.act
  try dsimp only
  with_reducible repeat' first
    | assumption | apply State.inc_kept | apply State.store_kept | apply State.hold_kept | apply State.cw_kept | apply State.cn_kept
    | apply State.applyOn_kept | apply State.limitRefused_kept | apply State.budgetRefused_kept | apply State.admitted_kept
    | apply State.holdStart_kept | apply State.holdCut_kept | apply State.offApply_kept | apply State.judgeSpark_kept | apply kept_ite
    | simp only [kept_mk] | split | refine kept_of_snd (by assumption) ?_ | refine kept_of_fst (by assumption) ?_
    | refine kept_of_some (by assumption) ?_ | dsimp only

theorem State.channelCommand_kept (s : State) (d : Nat) (j : Job) (a : Act) (slew : Nat) (hk : Kept s0 s) :
    Kept s0 (State.channelCommand s d j a slew) := by
  unfold State.channelCommand
  try dsimp only
  with_reducible repeat' first
    | assumption | intro _ | apply State.dieReply_kept | apply State.asMaster_kept | apply State.act_kept | simp only [kept_mk] | split
    | refine kept_of_snd (by assumption) ?_ | refine kept_of_fst (by assumption) ?_ | refine kept_of_some (by assumption) ?_ | dsimp only

theorem execChSet_kept (x : Side) (d : Fin 4) (s : State) (hk : Kept s0 s) : KeptOut s0 (execChSet x d s) := by
  unfold execChSet
  with_reducible repeat' first
    | assumption | intro _ | apply State.fast_kept | apply State.channelCommand_kept | apply kept_ite | split | apply kept_ok

theorem execChPwm_kept (x : Side) (d : Fin 4) (s : State) (hk : Kept s0 s) : KeptOut s0 (execChPwm x d s) := by
  unfold execChPwm
  with_reducible repeat' first
    | assumption | intro _ | apply State.fast_kept | apply State.channelCommand_kept | apply kept_ok

theorem execChQuery_kept (x : Side) (d : Fin 4) (s : State) (hk : Kept s0 s) : KeptOut s0 (execChQuery x d s) := by
  unfold execChQuery
  try dsimp only
  with_reducible repeat' first
    | assumption | intro _ | apply State.dieReply_kept | apply State.fast_kept | apply kept_ok | dsimp only

theorem State.groupAct_kept (d : Nat) (j : Job) (p : State × Group) (c : Nat) (hk : Kept s0 p.1) :
    Kept s0 (State.groupAct d j p c).1 := by
  unfold State.groupAct
  try dsimp only
  with_reducible repeat' first
    | assumption | apply State.setBit_kept | apply State.act_kept | apply kept_ite | simp only [kept_mk] | split
    | refine kept_of_snd (by assumption) ?_ | refine kept_of_fst (by assumption) ?_ | refine kept_of_some (by assumption) ?_ | dsimp only

theorem State.groupSet_kept (s : State) (d : Nat) (sel : Nat) (denied : Nat) (j : Job) (hk : Kept s0 s) :
    Kept s0 (State.groupSet s d sel denied j) := by
  unfold State.groupSet
  try dsimp only
  with_reducible repeat' first
    | assumption | intro _ | apply State.setDie_kept | apply State.dieReply_kept | apply State.groupAct_kept | apply kept_foldl
    | apply kept_foldl_fst | apply kept_foldl_snd | apply kept_ite | simp only [kept_mk] | split | refine kept_of_snd (by assumption) ?_
    | refine kept_of_fst (by assumption) ?_ | refine kept_of_some (by assumption) ?_ | dsimp only

theorem execChGroupSet_kept (x : Side) (d : Fin 4) (s : State) (hk : Kept s0 s) : KeptOut s0 (execChGroupSet x d s) := by
  unfold execChGroupSet
  try dsimp only
  with_reducible repeat' first
    | assumption | intro _ | apply State.dieReply_kept | apply State.fast_kept | apply State.asMaster_kept | apply State.groupSet_kept
    | apply kept_ite | split | apply kept_ok | dsimp only

theorem State.onDie_kept (s : State) (j : Job) (f : State → Nat → State) (hf : ∀ (y0 : State) (y1 : Nat), Kept s0 y0 → Kept s0 (f y0 y1)) (hk : Kept s0 s) :
    Kept s0 (State.onDie s j f) := by
  unfold State.onDie
  try dsimp only
  with_reducible repeat' first
    | assumption | intro _ | apply State.doneAbsent_kept | apply hf | apply kept_ite | split | dsimp only

theorem State.onMaster_kept (s : State) (j : Job) (f : State → Nat → State) (hf : ∀ (y0 : State) (y1 : Nat), Kept s0 y0 → Kept s0 (f y0 y1)) (hk : Kept s0 s) :
    Kept s0 (State.onMaster s j f) := by
  unfold State.onMaster
  with_reducible repeat' first
    | assumption | intro _ | apply State.done_kept | apply State.asMaster_kept | apply State.onDie_kept | apply hf

theorem State.overCeiling_kept (s : State) (j : Job) (c : Nat) (code : Nat) (hk : Kept s0 s) :
    Kept s0 (State.overCeiling s j c code) := by
  unfold State.overCeiling
  with_reducible repeat' first
    | assumption | apply State.done_kept | apply State.limitRefused_kept

theorem execChConfig_kept (x : Side) (s : State) (hk : Kept s0 s) : KeptOut s0 (execChConfig x s) := by
  unfold execChConfig
  try dsimp only
  with_reducible repeat' first
    | assumption | intro _ | apply State.done_kept | apply State.chromir_kept | apply State.cw_kept | apply State.limitEff_kept
    | apply State.onMaster_kept | apply State.overCeiling_kept | apply kept_ite | split | apply kept_ok | dsimp only

theorem execChClear_kept (x : Side) (s : State) (hk : Kept s0 s) : KeptOut s0 (execChClear x s) := by
  unfold execChClear
  try dsimp only
  with_reducible repeat' first
    | assumption | intro _ | exact Kept.refl _ | apply State.done_kept | apply State.chromir_kept | apply State.cw_kept
    | apply State.goto_kept | apply State.cmdOff_kept | apply State.onMaster_kept | apply State.overCeiling_kept
    | (apply kept_then; (focus ((repeat' first | exact Kept.refl _ | apply State.done_kept | apply State.chromir_kept | apply State.cw_kept | apply State.goto_kept | apply State.cmdOff_kept | apply State.onMaster_kept | apply State.overCeiling_kept | apply kept_ite); done)))
    | apply kept_ite | simp only [kept_mk] | split | refine kept_of_snd (by assumption) ?_ | refine kept_of_fst (by assumption) ?_
    | refine kept_of_some (by assumption) ?_ | apply kept_ok | dsimp only

theorem execChMeasure_kept (x : Side) (s : State) (hk : Kept s0 s) : KeptOut s0 (execChMeasure x s) := by
  unfold execChMeasure
  try dsimp only
  with_reducible repeat' first
    | assumption | intro _ | apply State.setChan_kept | apply State.chromir_kept | apply State.onDie_kept | simp only [kept_mk]
    | apply kept_ok | dsimp only

theorem execChMeasureWindowEnd_kept (d : Fin 4) (n : Fin 16) (s : State) (hk : Kept s0 s) :
    KeptOut s0 (execChMeasureWindowEnd d n s) := by
  unfold execChMeasureWindowEnd
  try dsimp only
  with_reducible repeat' first
    | assumption | intro _ | apply State.setChan_kept | apply State.done_kept | simp only [kept_mk] | split
    | refine kept_of_snd (by assumption) ?_ | refine kept_of_fst (by assumption) ?_ | refine kept_of_some (by assumption) ?_ | apply kept_ok
    | dsimp only

theorem execDmpStatus_kept (x : Side) (s : State) (hk : Kept s0 s) : KeptOut s0 (execDmpStatus x s) := by
  unfold execDmpStatus
  try dsimp only
  with_reducible repeat' first
    | assumption | intro _ | apply State.done_kept | apply State.chromir_kept | apply State.derate_kept | split | apply kept_ok | dsimp only

theorem execDmpPrioritySet_kept (x : Side) (s : State) (hk : Kept s0 s) : KeptOut s0 (execDmpPrioritySet x s) := by
  unfold execDmpPrioritySet
  try dsimp only
  with_reducible repeat' first
    | assumption | intro _ | apply State.done_kept | apply State.chromir_kept | apply State.cw_kept | apply State.onMaster_kept
    | apply State.overCeiling_kept | apply kept_ite | split | apply kept_ok | dsimp only

theorem execDmpWireQuery_kept (x : Side) (s : State) (hk : Kept s0 s) : KeptOut s0 (execDmpWireQuery x s) := by
  unfold execDmpWireQuery
  with_reducible repeat' first
    | assumption | intro _ | apply State.done_kept | apply State.chromir_kept | apply State.onDie_kept | apply kept_ok

theorem execDmpHarnessRead_kept (x : Side) (s : State) (hk : Kept s0 s) : KeptOut s0 (execDmpHarnessRead x s) := by
  unfold execDmpHarnessRead
  with_reducible repeat' first
    | assumption | intro _ | apply State.done_kept | apply State.chromir_kept | apply State.onDie_kept | apply kept_ok

theorem State.burn_kept (s : State) (c : Nat) (ws : List Nat) (good : Bool) (hk : Kept s0 s) : Kept s0 (State.burn s c ws good) := by
  unfold State.burn
  try dsimp only
  with_reducible repeat' first
    | assumption | exact Kept.refl _ | apply State.setChan_kept | apply State.logBoth_kept | apply State.cw_kept | apply State.limitEff_kept
    | (apply kept_then; (focus ((repeat' first | exact Kept.refl _ | apply State.setChan_kept | apply State.logBoth_kept | apply State.cw_kept | apply State.limitEff_kept | apply kept_ite); done)))
    | apply kept_ite | simp only [kept_mk] | split | dsimp only

theorem execDmpHarnessBurn_kept (x : Side) (good : Bool) (s : State) (hk : Kept s0 s) :
    KeptOut s0 (execDmpHarnessBurn x good s) := by
  unfold execDmpHarnessBurn
  try dsimp only
  with_reducible repeat' first
    | assumption | intro _ | exact Kept.refl _ | apply State.inc_kept | apply State.long_kept | apply State.take_kept
    | apply State.limitRefused_kept | apply State.asMaster_kept | apply State.burn_kept
    | (apply kept_then; (focus ((repeat' first | exact Kept.refl _ | apply State.inc_kept | apply State.long_kept | apply State.take_kept | apply State.limitRefused_kept | apply State.asMaster_kept | apply State.burn_kept | apply kept_ite); done)))
    | apply kept_ite | split | apply kept_ok | simp only [id] | dsimp only

theorem State.harnessCheck_kept (s : State) (c : Nat) (bad : Nat) (hk : Kept s0 s) : Kept s0 (State.harnessCheck s c bad) := by
  unfold State.harnessCheck
  try dsimp only
  with_reducible repeat' first
    | assumption | apply State.setChan_kept | apply State.cw_kept | simp only [kept_mk] | split | refine kept_of_snd (by assumption) ?_
    | refine kept_of_fst (by assumption) ?_ | refine kept_of_some (by assumption) ?_ | dsimp only

theorem State.harnessReport_kept (s : State) (x : Side) (c : Nat) (hk : Kept s0 s) : Kept s0 (State.harnessReport s x c) := by
  unfold State.harnessReport
  with_reducible repeat' first
    | assumption | apply State.log_kept | apply State.event_kept | apply kept_ite | split

end Sys2Proof.Machine
end

