-- ==== Sys2Proof/Laws/KeptChannels.lean ====
section
/-! SUPPORT. The definitions of Machine/Channels.lean keep what every effect keeps: the queue, time, the count of free values, and the
canonical forms. -/
namespace Sys2Proof.Machine
open Sys2Proof

set_option linter.unusedVariables false
set_option linter.unusedSimpArgs false
set_option linter.unusedTactic false
set_option linter.unreachableTactic false
set_option linter.tactic.unusedName false

variable {s0 : State}

theorem State.judgeDiag_kept (s : State) (c : Nat) (code : Nat) (enabled : Bool) (qualifies : Bool) (met : Bool) (hk : Kept s0 s) :
    Kept s0 (State.judgeDiag s c code enabled qualifies met) := by
  unfold State.judgeDiag
  try dsimp only
  with_reducible repeat' first
    | assumption | exact Kept.refl _ | apply State.setBit_kept | apply State.clearBit_kept | apply State.setChan_kept
    | apply State.chEvent_kept | apply State.diagBit_kept
    | (apply kept_then; (focus ((repeat' first | exact Kept.refl _ | apply State.setBit_kept | apply State.clearBit_kept | apply State.setChan_kept | apply State.chEvent_kept | apply State.diagBit_kept | apply kept_ite); done)))
    | apply kept_ite | simp only [kept_mk] | split | dsimp only

theorem State.diagnose_kept (s : State) (c : Nat) (hk : Kept s0 s) : Kept s0 (State.diagnose s c) := by
  unfold State.diagnose
  try dsimp only
  with_reducible repeat' first
    | assumption | apply State.judgeDiag_kept | split | dsimp only

theorem State.energy_kept (s : State) (c : Nat) (volts : Int) (amps : Int) (hk : Kept s0 s) :
    Kept s0 (State.energy s c volts amps) := by
  unfold State.energy
  try dsimp only
  with_reducible repeat' first
    | assumption | apply State.setChan_kept | apply State.cw_kept | simp only [kept_mk] | dsimp only

theorem State.sampleChan_kept (s : State) (tick : Nat) (p : Nat × Sample) (hk : Kept s0 s) :
    Kept s0 (State.sampleChan s tick p) := by
  unfold State.sampleChan
  try dsimp only
  with_reducible repeat' first
    | assumption | intro _ | apply State.setChan_kept | apply State.take_kept | apply State.cw_kept | apply State.diagnose_kept
    | apply State.energy_kept | apply kept_ite | simp only [kept_mk] | split | dsimp only

theorem State.sampleDue_kept (s : State) (d : Nat) (hk : Kept s0 s) : Kept s0 (State.sampleDue s d) := by
  unfold State.sampleDue
  try dsimp only
  with_reducible repeat' first
    | assumption | apply State.setDie_kept | apply State.took_kept | apply State.due_kept | apply kept_ite | simp only [kept_mk] | split
    | dsimp only

theorem execGrateSampleTick_kept (d : Fin 4) (smp : List Sample) (feed : Word40) (s : State) (hk : Kept s0 s) :
    KeptOut s0 (execGrateSampleTick d smp feed s) := by
  unfold execGrateSampleTick
  try dsimp only
  with_reducible repeat' first
    | assumption | exact kept_fault _ | intro _ | exact Kept.refl _ | apply State.set_kept | apply State.each_kept
    | apply State.planePost_kept | apply State.sampleChan_kept | apply State.sampleDue_kept | apply kept_foldl
    | (apply kept_then; (focus ((repeat' first | exact Kept.refl _ | apply State.set_kept | apply State.each_kept | apply State.planePost_kept | apply State.sampleChan_kept | apply State.sampleDue_kept | apply kept_ite); done)))
    | apply kept_ite | simp only [kept_mk] | split | refine kept_of_snd (by assumption) ?_ | refine kept_of_fst (by assumption) ?_
    | refine kept_of_some (by assumption) ?_ | apply kept_ok | dsimp only

theorem State.wireTrip_kept (s : State) (c : Nat) (hk : Kept s0 s) : Kept s0 (State.wireTrip s c) := by
  unfold State.wireTrip
  try dsimp only
  with_reducible repeat' first
    | assumption | apply State.logBoth_kept | apply State.cw_kept | apply State.cn_kept | apply State.dmpEvent_kept
    | apply State.damperOff_kept | apply kept_ite | split | dsimp only

theorem State.wireCooled_kept (s : State) (c : Nat) (hk : Kept s0 s) : Kept s0 (State.wireCooled s c) := by
  unfold State.wireCooled
  try dsimp only
  with_reducible repeat' first
    | assumption | apply State.cw_kept | apply State.dmpEvent_kept | apply State.goto_kept | apply State.cmdOff_kept | apply kept_ite
    | split | dsimp only

theorem State.wireChan_kept (s : State) (c : Nat) (hk : Kept s0 s) : Kept s0 (State.wireChan s c) := by
  unfold State.wireChan
  try dsimp only
  with_reducible repeat' first
    | assumption | intro _ | exact Kept.refl _ | apply State.setChan_kept | apply State.cw_kept | apply State.wireTrip_kept
    | apply State.wireCooled_kept | apply kept_foldl | apply kept_foldl_fst | apply kept_foldl_snd
    | (apply kept_then; (focus ((repeat' first | exact Kept.refl _ | apply State.setChan_kept | apply State.cw_kept | apply State.wireTrip_kept | apply State.wireCooled_kept | apply kept_ite); done)))
    | apply kept_ite | simp only [kept_mk] | split | refine kept_of_snd (by assumption) ?_ | refine kept_of_fst (by assumption) ?_
    | refine kept_of_some (by assumption) ?_ | dsimp only

theorem execWireModelStep_kept (d : Fin 4) (s : State) (hk : Kept s0 s) : KeptOut s0 (execWireModelStep d s) := by
  unfold execWireModelStep
  with_reducible repeat' first
    | assumption | intro _ | apply State.each_kept | apply State.wireChan_kept | apply kept_ite | split | apply kept_ok

theorem execTurnOnComplete_kept (d : Fin 4) (n : Fin 16) (s : State) (hk : Kept s0 s) : KeptOut s0 (execTurnOnComplete d n s) := by
  unfold execTurnOnComplete
  try dsimp only
  with_reducible repeat' first
    | assumption | apply State.setChan_kept | apply State.goto_kept | apply kept_ite | simp only [kept_mk] | split | apply kept_ok
    | dsimp only

theorem execLimitEntry_kept (d : Fin 4) (n : Fin 16) (s : State) (hk : Kept s0 s) : KeptOut s0 (execLimitEntry d n s) := by
  unfold execLimitEntry
  try dsimp only
  with_reducible repeat' first
    | assumption | apply State.cn_kept | apply State.goto_kept | apply kept_ite | split | apply kept_ok | dsimp only

theorem execLimitExit_kept (d : Fin 4) (n : Fin 16) (s : State) (hk : Kept s0 s) : KeptOut s0 (execLimitExit d n s) := by
  unfold execLimitExit
  try dsimp only
  with_reducible repeat' first
    | assumption | exact Kept.refl _ | apply State.goto_kept
    | (apply kept_then; (focus ((repeat' first | exact Kept.refl _ | apply State.goto_kept | apply kept_ite); done))) | apply kept_ite
    | split | apply kept_ok | dsimp only

theorem execInrushTimeout_kept (d : Fin 4) (n : Fin 16) (s : State) (hk : Kept s0 s) : KeptOut s0 (execInrushTimeout d n s) := by
  unfold execInrushTimeout
  try dsimp only
  with_reducible repeat' first
    | assumption | apply State.due_kept | apply State.faultOff_kept | apply kept_ite | split | apply kept_ok | dsimp only

theorem execTsdEntry_kept (d : Fin 4) (n : Fin 16) (s : State) (hk : Kept s0 s) : KeptOut s0 (execTsdEntry d n s) := by
  unfold execTsdEntry
  try dsimp only
  with_reducible repeat' first
    | assumption | apply State.cn_kept | apply State.chEvent_kept | apply State.faultTo_kept | apply kept_ite | split | apply kept_ok
    | dsimp only

theorem execTsdExit_kept (d : Fin 4) (n : Fin 16) (s : State) (hk : Kept s0 s) : KeptOut s0 (execTsdExit d n s) := by
  unfold execTsdExit
  try dsimp only
  with_reducible repeat' first
    | assumption | apply State.faultHandle_kept | apply kept_ite | split | apply kept_ok | dsimp only

theorem execReverseCurrent_kept (d : Fin 4) (n : Fin 16) (s : State) (hk : Kept s0 s) : KeptOut s0 (execReverseCurrent d n s) := by
  unfold execReverseCurrent
  try dsimp only
  with_reducible repeat' first
    | assumption | apply State.faultOff_kept | apply kept_ite | split | apply kept_ok | dsimp only

theorem execMeasSelfCheck_kept (d : Fin 4) (n : Fin 16) (pass : Bool) (s : State) (hk : Kept s0 s) :
    KeptOut s0 (execMeasSelfCheck d n pass s) := by
  unfold execMeasSelfCheck
  try dsimp only
  with_reducible repeat' first
    | assumption | exact Kept.refl _ | apply State.setChan_kept | apply State.chEvent_kept | apply State.diagBit_kept
    | apply State.faultTo_kept | apply State.latch_kept
    | (apply kept_then; (focus ((repeat' first | exact Kept.refl _ | apply State.setChan_kept | apply State.chEvent_kept | apply State.diagBit_kept | apply State.faultTo_kept | apply State.latch_kept | apply kept_ite); done)))
    | apply kept_ite | simp only [kept_mk] | split | apply kept_ok | dsimp only

theorem State.autoOn_kept (s : State) (c : Nat) (cause : OnCause) (hk : Kept s0 s) : Kept s0 (State.autoOn s c cause) := by
  unfold State.autoOn
  try dsimp only
  with_reducible repeat' first
    | assumption | apply State.hold_kept | apply State.limitRefused_kept | apply State.budgetRefused_kept | apply State.holdStart_kept
    | apply State.autoEnd_kept | apply kept_ite | simp only [kept_mk] | split | refine kept_of_snd (by assumption) ?_
    | refine kept_of_fst (by assumption) ?_ | refine kept_of_some (by assumption) ?_ | dsimp only

theorem execRetryAttempt_kept (d : Fin 4) (n : Fin 16) (s : State) (hk : Kept s0 s) : KeptOut s0 (execRetryAttempt d n s) := by
  unfold execRetryAttempt
  try dsimp only
  with_reducible repeat' first
    | assumption | apply State.setChan_kept | apply State.due_kept | apply State.hold_kept | apply State.cn_kept | apply State.chEvent_kept
    | apply State.latch_kept | apply State.autoOn_kept | apply kept_ite | simp only [kept_mk] | split | apply kept_ok | dsimp only

theorem execRetriesClear_kept (d : Fin 4) (n : Fin 16) (s : State) (hk : Kept s0 s) : KeptOut s0 (execRetriesClear d n s) := by
  unfold execRetriesClear
  try dsimp only
  with_reducible repeat' first
    | assumption | apply State.setChan_kept | apply State.due_kept | apply kept_ite | simp only [kept_mk] | split
    | refine kept_of_snd (by assumption) ?_ | refine kept_of_fst (by assumption) ?_ | refine kept_of_some (by assumption) ?_ | apply kept_ok
    | dsimp only

theorem execFeedBusAbsent_kept (d : Fin 4) (reversed : Bool) (s : State) (hk : Kept s0 s) :
    KeptOut s0 (execFeedBusAbsent d reversed s) := by
  unfold execFeedBusAbsent
  try dsimp only
  with_reducible repeat' first
    | assumption | intro _ | apply State.set_kept | apply State.each_kept | apply State.setDie_kept | apply State.noFeed_kept
    | apply kept_ite | simp only [kept_mk] | split | apply kept_ok | dsimp only

theorem execFeedBusReturn_kept (d : Fin 4) (s : State) (hk : Kept s0 s) : KeptOut s0 (execFeedBusReturn d s) := by
  unfold execFeedBusReturn
  try dsimp only
  with_reducible repeat' first
    | assumption | intro _ | apply State.set_kept | apply State.each_kept | apply State.setDie_kept | apply State.setChan_kept
    | apply State.chEvent_kept | apply State.goto_kept | apply kept_ite | simp only [kept_mk] | split | apply kept_ok | dsimp only

theorem execFeedReturnTurnOn_kept (d : Fin 4) (s : State) (hk : Kept s0 s) : KeptOut s0 (execFeedReturnTurnOn d s) := by
  unfold execFeedReturnTurnOn
  try dsimp only
  with_reducible repeat' first
    | assumption | intro _ | apply State.setDie_kept | apply State.setChan_kept | apply State.due_kept | apply State.hold_kept
    | apply State.autoOn_kept | apply kept_ite | simp only [kept_mk] | split | refine kept_of_snd (by assumption) ?_
    | refine kept_of_fst (by assumption) ?_ | refine kept_of_some (by assumption) ?_ | apply kept_ok | dsimp only

theorem execFeedOvervoltage_kept (d : Fin 4) (high : Bool) (s : State) (hk : Kept s0 s) :
    KeptOut s0 (execFeedOvervoltage d high s) := by
  unfold execFeedOvervoltage
  with_reducible repeat' first
    | assumption | apply State.set_kept | apply kept_ite | split | apply kept_ok

theorem execPwmPeriodStart_kept (d : Fin 4) (n : Fin 16) (s : State) (hk : Kept s0 s) : KeptOut s0 (execPwmPeriodStart d n s) := by
  unfold execPwmPeriodStart
  try dsimp only
  with_reducible repeat' first
    | assumption | exact Kept.refl _ | apply State.clearBit_kept | apply State.setChan_kept | apply State.due_kept | apply State.cw_kept
    | apply State.cn_kept | apply State.goto_kept
    | (apply kept_then; (focus ((repeat' first | exact Kept.refl _ | apply State.clearBit_kept | apply State.setChan_kept | apply State.due_kept | apply State.cw_kept | apply State.cn_kept | apply State.goto_kept | apply kept_ite); done)))
    | apply kept_ite | simp only [kept_mk] | split | apply kept_ok | dsimp only

theorem execPwmOffEdge_kept (d : Fin 4) (n : Fin 16) (s : State) (hk : Kept s0 s) : KeptOut s0 (execPwmOffEdge d n s) := by
  unfold execPwmOffEdge
  try dsimp only
  with_reducible repeat' first
    | assumption | apply State.clearBit_kept | apply State.setChan_kept | apply State.due_kept | apply State.goto_kept | apply kept_ite
    | simp only [kept_mk] | split | refine kept_of_snd (by assumption) ?_ | refine kept_of_fst (by assumption) ?_
    | refine kept_of_some (by assumption) ?_ | apply kept_ok | dsimp only

end Sys2Proof.Machine
end

