-- ==== Sys2Proof/Laws/KeptCan.lean ====
section
/-! SUPPORT. The definitions of Machine/Can.lean keep what every effect keeps: the queue, time, the count of free values, and the
canonical forms. -/
namespace Sys2Proof.Machine
open Sys2Proof

set_option linter.unusedVariables false
set_option linter.unusedSimpArgs false
set_option linter.unusedTactic false
set_option linter.unreachableTactic false
set_option linter.tactic.unusedName false

variable {s0 : State}

theorem State.cs_kept (s : State) (x : Side) (f : Fld) (k : Nat) (v : Nat) (hk : Kept s0 s) : Kept s0 (State.cs s x f k v) := by
  unfold State.cs
  with_reducible repeat' first
    | assumption | apply State.set_kept

theorem State.canCnt_kept (s : State) (x : Side) (k : Nat) (i : Nat) (hk : Kept s0 s) : Kept s0 (State.canCnt s x k i) := by
  unfold State.canCnt
  with_reducible repeat' first
    | assumption | apply State.inc_kept

theorem State.canEvent_kept (s : State) (x : Side) (k : Nat) (code : Nat) (w2 : Nat) (hk : Kept s0 s) :
    Kept s0 (State.canEvent s x k code w2) := by
  unfold State.canEvent
  try dsimp only
  with_reducible repeat' first
    | assumption | intro _ | apply State.setCan_kept | apply State.event_kept | apply kept_ite | simp only [kept_mk] | split
    | refine kept_of_snd (by assumption) ?_ | refine kept_of_fst (by assumption) ?_ | refine kept_of_some (by assumption) ?_ | dsimp only

theorem State.txDone_kept (s : State) (x : Side) (k : Nat) (b : Nat) (result : Nat) (hk : Kept s0 s) :
    Kept s0 (State.txDone s x k b result) := by
  unfold State.txDone
  with_reducible repeat' first
    | assumption | apply State.setBit_kept | apply State.canIrq_kept | apply State.cs_kept

theorem State.txDrop_kept (s : State) (x : Side) (k : Nat) (b : Nat) (hk : Kept s0 s) : Kept s0 (State.txDrop s x k b) := by
  unfold State.txDrop
  try dsimp only
  with_reducible repeat' first
    | assumption | apply State.clearBit_kept | apply State.setCan_kept | simp only [kept_mk] | dsimp only

theorem State.ttMissed_kept (s : State) (x : Side) (k : Nat) (b : Option Nat) (hk : Kept s0 s) :
    Kept s0 (State.ttMissed s x k b) := by
  unfold State.ttMissed
  try dsimp only
  with_reducible repeat' first
    | assumption | apply State.canIrq_kept | apply State.canCnt_kept | apply State.txDone_kept | simp only [kept_mk] | split
    | refine kept_of_snd (by assumption) ?_ | refine kept_of_fst (by assumption) ?_ | refine kept_of_some (by assumption) ?_ | dsimp only

theorem State.ttMiss_kept (s : State) (x : Side) (k : Nat) (t : CanTx) (hk : Kept s0 s) : Kept s0 (State.ttMiss s x k t) := by
  unfold State.ttMiss
  try dsimp only
  with_reducible repeat' first
    | assumption | apply State.setCan_kept | apply State.txDone_kept | apply State.txDrop_kept | apply State.ttMissed_kept | apply kept_ite
    | simp only [kept_mk] | split | dsimp only

theorem State.ttFlush_kept (s : State) (x : Side) (k : Nat) (hk : Kept s0 s) : Kept s0 (State.ttFlush s x k) := by
  unfold State.ttFlush
  try dsimp only
  with_reducible repeat' first
    | assumption | apply State.setCan_kept | apply State.ttMiss_kept | simp only [kept_mk] | split | refine kept_of_snd (by assumption) ?_
    | refine kept_of_fst (by assumption) ?_ | refine kept_of_some (by assumption) ?_ | dsimp only

theorem State.ttStop_kept (s : State) (x : Side) (k : Nat) (hk : Kept s0 s) : Kept s0 (State.ttStop s x k) := by
  unfold State.ttStop
  with_reducible repeat' first
    | assumption | apply State.cs_kept | apply State.ttFlush_kept

theorem State.canSetMode_kept (s : State) (x : Side) (k : Nat) (m : Nat) (hk : Kept s0 s) : Kept s0 (State.canSetMode s x k m) := by
  unfold State.canSetMode
  try dsimp only
  with_reducible repeat' first
    | assumption | apply State.cs_kept | apply State.ttStop_kept | apply kept_ite | split | dsimp only

theorem State.canPendMode_kept (s : State) (x : Side) (k : Nat) (m : Nat) (hk : Kept s0 s) :
    Kept s0 (State.canPendMode s x k m) := by
  unfold State.canPendMode
  with_reducible repeat' first
    | assumption | apply State.cs_kept

theorem State.onCan_kept (s : State) (x : Side) (j : Job) (f : State → Nat → State) (hf : ∀ (y0 : State) (y1 : Nat), Kept s0 y0 → Kept s0 (f y0 y1)) (hk : Kept s0 s) :
    Kept s0 (State.onCan s x j f) := by
  unfold State.onCan
  try dsimp only
  with_reducible repeat' first
    | assumption | intro _ | apply State.doneAbsent_kept | apply hf | apply kept_ite | split | dsimp only

theorem State.canModeSet_kept (s : State) (x : Side) (j : Job) (k : Nat) (hk : Kept s0 s) : Kept s0 (State.canModeSet s x j k) := by
  unfold State.canModeSet
  try dsimp only
  with_reducible repeat' first
    | assumption | apply State.setCan_kept | apply State.done_kept | apply State.canPendMode_kept | apply kept_ite | simp only [kept_mk]
    | split | refine kept_of_snd (by assumption) ?_ | refine kept_of_fst (by assumption) ?_ | refine kept_of_some (by assumption) ?_
    | dsimp only

theorem execCanModeSet_kept (x : Side) (s : State) (hk : Kept s0 s) : KeptOut s0 (execCanModeSet x s) := by
  unfold execCanModeSet
  with_reducible repeat' first
    | assumption | intro _ | apply State.chromir_kept | apply State.onCan_kept | apply State.canModeSet_kept | apply kept_ok

theorem execCanWakeCfg_kept (x : Side) (s : State) (hk : Kept s0 s) : KeptOut s0 (execCanWakeCfg x s) := by
  unfold execCanWakeCfg
  try dsimp only
  with_reducible repeat' first
    | assumption | intro _ | apply State.setCan_kept | apply State.done_kept | apply State.chromir_kept | apply State.onCan_kept
    | simp only [kept_mk] | apply kept_ok | dsimp only

theorem execCanAwakeReport_kept (x : Side) (s : State) (hk : Kept s0 s) : KeptOut s0 (execCanAwakeReport x s) := by
  unfold execCanAwakeReport
  try dsimp only
  with_reducible repeat' first
    | assumption | intro _ | apply State.done_kept | apply State.chromir_kept | apply State.onCan_kept | apply kept_ok | dsimp only

theorem State.canCounters_kept (s : State) (x : Side) (k : Nat) (tec : Nat) (rec_ : Nat) (hk : Kept s0 s) :
    Kept s0 (State.canCounters s x k tec rec_) := by
  unfold State.canCounters
  try dsimp only
  with_reducible repeat' first
    | assumption | exact Kept.refl _ | apply State.setCan_kept | apply State.log_kept | apply State.canIrq_kept | apply State.cs_kept
    | apply State.canCnt_kept | apply State.canEvent_kept
    | (apply kept_then; (focus ((repeat' first | exact Kept.refl _ | apply State.setCan_kept | apply State.log_kept | apply State.canIrq_kept | apply State.cs_kept | apply State.canCnt_kept | apply State.canEvent_kept | apply kept_ite); done)))
    | apply kept_ite | simp only [kept_mk] | split | dsimp only

theorem execCanRecoveryStart_kept (k : Fin 12) (s : State) (hk : Kept s0 s) : KeptOut s0 (execCanRecoveryStart k s) := by
  unfold execCanRecoveryStart
  try dsimp only
  with_reducible repeat' first
    | assumption | apply State.setCan_kept | apply State.due_kept | apply kept_ite | simp only [kept_mk] | split
    | refine kept_of_snd (by assumption) ?_ | refine kept_of_fst (by assumption) ?_ | refine kept_of_some (by assumption) ?_ | apply kept_ok
    | dsimp only

theorem execCanRecoveryComplete_kept (k : Fin 12) (s : State) (hk : Kept s0 s) : KeptOut s0 (execCanRecoveryComplete k s) := by
  unfold execCanRecoveryComplete
  try dsimp only
  with_reducible repeat' first
    | assumption | exact Kept.refl _ | apply State.setCan_kept | apply State.canIrq_kept | apply State.canEvent_kept
    | apply State.canSetMode_kept | apply State.canCounters_kept
    | (apply kept_then; (focus ((repeat' first | exact Kept.refl _ | apply State.setCan_kept | apply State.canIrq_kept | apply State.canEvent_kept | apply State.canSetMode_kept | apply State.canCounters_kept | apply kept_ite); done)))
    | apply kept_ite | simp only [kept_mk] | split | apply kept_ok | dsimp only

theorem State.setSealRec_kept (s : State) (x : Side) (i : Nat) (slot : Nat) (tx : Nat) (rx : Nat) (hk : Kept s0 s) :
    Kept s0 (State.setSealRec s x i slot tx rx) := by
  unfold State.setSealRec
  with_reducible repeat' first
    | assumption | apply State.store_kept

theorem State.sealKey_kept (s : State) (x : Side) (j : Job) (k : Nat) (hk : Kept s0 s) : Kept s0 (State.sealKey s x j k) := by
  unfold State.sealKey
  try dsimp only
  with_reducible repeat' first
    | assumption | apply State.log_kept | apply State.done_kept | apply State.cs_kept | apply State.setSealRec_kept | apply kept_ite | split
    | dsimp only

theorem execCanSealKey_kept (x : Side) (s : State) (hk : Kept s0 s) : KeptOut s0 (execCanSealKey x s) := by
  unfold execCanSealKey
  with_reducible repeat' first
    | assumption | intro _ | apply State.chromir_kept | apply State.onCan_kept | apply State.sealKey_kept | apply kept_ok

theorem State.useFresh_kept (s : State) (x : Side) (k : Nat) (i : Nat) (hk : Kept s0 s) : Kept s0 (State.useFresh s x k i) := by
  unfold State.useFresh
  try dsimp only
  with_reducible repeat' first
    | assumption | exact Kept.refl _ | apply State.log_kept | apply State.cs_kept | apply State.canEvent_kept | apply State.setSealRec_kept
    | (apply kept_then; (focus ((repeat' first | exact Kept.refl _ | apply State.log_kept | apply State.cs_kept | apply State.canEvent_kept | apply State.setSealRec_kept | apply kept_ite); done)))
    | apply kept_ite | split | dsimp only

theorem State.putElem_kept (s : State) (x : Side) (a : Nat) (h0 : Nat) (h1 : Nat) (h2 : Nat) (h3 : Nat) (data : List Nat) (t : Nat) (hk : Kept s0 s) :
    Kept s0 (State.putElem s x a h0 h1 h2 h3 data t) := by
  unfold State.putElem
  try dsimp only
  with_reducible repeat' first
    | assumption | apply State.store_kept | apply State.storeLE_kept | dsimp only

theorem State.rxStore_kept (s : State) (x : Side) (k : Nat) (q : Nat) (h0 : Nat) (h1 : Nat) (h2 : Nat) (h3 : Nat) (data : List Nat) (t : Nat) (hk : Kept s0 s) :
    Kept s0 (State.rxStore s x k q h0 h1 h2 h3 data t) := by
  unfold State.rxStore
  try dsimp only
  with_reducible repeat' first
    | assumption | exact Kept.refl _ | apply State.canIrq_kept | apply State.cs_kept | apply State.canCnt_kept | apply State.canEvent_kept
    | apply State.putElem_kept
    | (apply kept_then; (focus ((repeat' first | exact Kept.refl _ | apply State.canIrq_kept | apply State.cs_kept | apply State.canCnt_kept | apply State.canEvent_kept | apply State.putElem_kept | apply kept_ite); done)))
    | apply kept_ite | split | dsimp only

theorem State.prioStore_kept (s : State) (x : Side) (k : Nat) (p : Nat) (h0 : Nat) (h1 : Nat) (h2 : Nat) (h3 : Nat) (data : List Nat) (t : Nat) (hk : Kept s0 s) :
    Kept s0 (State.prioStore s x k p h0 h1 h2 h3 data t) := by
  unfold State.prioStore
  try dsimp only
  with_reducible repeat' first
    | assumption | apply State.setBit_kept | apply State.canIrq_kept | apply State.canCnt_kept | apply State.putElem_kept | apply kept_ite
    | split | dsimp only

theorem State.rxPut_kept (s : State) (x : Side) (k : Nat) (f : StagedRx) (hk : Kept s0 s) : Kept s0 (State.rxPut s x k f) := by
  unfold State.rxPut
  try dsimp only
  with_reducible repeat' first
    | assumption | apply State.rxStore_kept | apply State.prioStore_kept | simp only [kept_mk] | split
    | refine kept_of_snd (by assumption) ?_ | refine kept_of_fst (by assumption) ?_ | refine kept_of_some (by assumption) ?_ | dsimp only

theorem State.rxPlace_kept (s : State) (x : Side) (k : Nat) (f : StagedRx) (hk : Kept s0 s) : Kept s0 (State.rxPlace s x k f) := by
  unfold State.rxPlace
  try dsimp only
  with_reducible repeat' first
    | assumption | exact Kept.refl _ | apply State.setCan_kept | apply State.canCnt_kept | apply State.rxPut_kept
    | (apply kept_then; (focus ((repeat' first | exact Kept.refl _ | apply State.setCan_kept | apply State.canCnt_kept | apply State.rxPut_kept | apply kept_ite); done)))
    | apply kept_ite | simp only [kept_mk] | split | refine kept_of_snd (by assumption) ?_ | refine kept_of_fst (by assumption) ?_
    | refine kept_of_some (by assumption) ?_ | dsimp only

theorem State.unstage_kept (s : State) (x : Side) (k : Nat) (hk : Kept s0 s) : Kept s0 (State.unstage s x k) := by
  unfold State.unstage
  try dsimp only
  with_reducible repeat' first
    | assumption | intro _ | apply State.each_kept | apply State.setCan_kept | apply State.rxPlace_kept | simp only [kept_mk] | dsimp only

theorem State.canJudge_kept (s : State) (x : Side) (k : Nat) (h0 : Nat) (h1 : Nat) (h2 : Nat) (h3 : Nat) (data : List Nat) (t : Nat) (hk : Kept s0 s) :
    Kept s0 (State.canJudge s x k h0 h1 h2 h3 data t) := by
  unfold State.canJudge
  try dsimp only
  with_reducible repeat' first
    | assumption | exact Kept.refl _ | apply State.setBit_kept | apply State.cs_kept | apply State.canCnt_kept | apply State.rxPlace_kept
    | (apply kept_then; (focus ((repeat' first | exact Kept.refl _ | apply State.setBit_kept | apply State.cs_kept | apply State.canCnt_kept | apply State.rxPlace_kept | apply kept_ite); done)))
    | apply kept_ite | simp only [kept_mk] | split | refine kept_of_snd (by assumption) ?_ | refine kept_of_fst (by assumption) ?_
    | refine kept_of_some (by assumption) ?_ | dsimp only

theorem State.ttRefuse_kept (s : State) (x : Side) (k : Nat) (hk : Kept s0 s) : Kept s0 (State.ttRefuse s x k) := by
  unfold State.ttRefuse
  with_reducible repeat' first
    | assumption | apply State.cs_kept | apply State.ttStop_kept

theorem State.ttStart_kept (s : State) (x : Side) (k : Nat) (c : Nat) (at_ : Nat) (hk : Kept s0 s) :
    Kept s0 (State.ttStart s x k c at_) := by
  unfold State.ttStart
  try dsimp only
  with_reducible repeat' first
    | assumption | apply State.setCan_kept | apply State.cs_kept | apply State.ttFlush_kept | simp only [kept_mk] | dsimp only

theorem State.canEcc_kept (s : State) (x : Side) (k : Nat) (a : Nat) (e : Ecc) (hk : Kept s0 s) :
    Kept s0 (State.canEcc s x k a e) := by
  unfold State.canEcc
  try dsimp only
  with_reducible repeat' first
    | assumption | apply State.log_kept | apply State.canCnt_kept | simp only [kept_mk] | split | refine kept_of_snd (by assumption) ?_
    | refine kept_of_fst (by assumption) ?_ | refine kept_of_some (by assumption) ?_ | dsimp only

theorem State.canReference_kept (s : State) (x : Side) (k : Nat) (h0 : Nat) (h1 : Nat) (data : List Nat) (age : Nat) (hk : Kept s0 s) :
    Kept s0 (State.canReference s x k h0 h1 data age) := by
  unfold State.canReference
  with_reducible repeat' first
    | assumption | apply State.ttRefuse_kept | apply State.ttStart_kept | apply kept_ite | split

theorem State.canRx_kept (s : State) (x : Side) (k : Nat) (h0 : Nat) (h1 : Nat) (h2 : Nat) (h3 : Nat) (data : List Nat) (sof : Nat) (age : Nat) (ecc : Ecc) (own : Bool) (hk : Kept s0 s) :
    Kept s0 (State.canRx s x k h0 h1 h2 h3 data sof age ecc own) := by
  unfold State.canRx
  try dsimp only
  with_reducible repeat' first
    | assumption | exact Kept.refl _ | apply State.setCan_kept | apply State.took_kept | apply State.sparkCan_kept
    | apply State.confirmFrame_kept | apply State.canCnt_kept | apply State.canCounters_kept | apply State.canJudge_kept
    | apply State.canEcc_kept | apply State.canReference_kept
    | (apply kept_then; (focus ((repeat' first | exact Kept.refl _ | apply State.setCan_kept | apply State.took_kept | apply State.sparkCan_kept | apply State.confirmFrame_kept | apply State.canCnt_kept | apply State.canCounters_kept | apply State.canJudge_kept | apply State.canEcc_kept | apply State.canReference_kept | apply kept_ite); done)))
    | apply kept_ite | simp only [kept_mk] | split | dsimp only

theorem State.rxqAck_kept (s : State) (x : Side) (k : Nat) (q : Nat) (v : Nat) (hk : Kept s0 s) :
    Kept s0 (State.rxqAck s x k q v) := by
  unfold State.rxqAck
  try dsimp only
  with_reducible repeat' first
    | assumption | apply State.cs_kept | apply kept_ite | split | dsimp only

theorem execCanRxqAck_kept (x : Side) (o : Origin) (k : Fin 6) (q : Fin 2) (v : BitVec 32) (s : State) (hk : Kept s0 s) :
    KeptOut s0 (execCanRxqAck x o k q v s) := by
  unfold execCanRxqAck
  with_reducible repeat' first
    | assumption | intro _ | apply State.guarded_kept | apply State.rxqAck_kept | apply kept_ok

theorem State.txSet_kept (s : State) (x : Side) (k : Nat) (v : Nat) (hk : Kept s0 s) : Kept s0 (State.txSet s x k v) := by
  unfold State.txSet
  with_reducible repeat' first
    | assumption | intro _ | apply State.setBit_kept | apply State.each_kept | apply State.cs_kept | apply kept_ite | split

theorem execCanTxSet_kept (x : Side) (o : Origin) (k : Fin 6) (v : BitVec 32) (s : State) (hk : Kept s0 s) :
    KeptOut s0 (execCanTxSet x o k v s) := by
  unfold execCanTxSet
  with_reducible repeat' first
    | assumption | intro _ | apply State.guarded_kept | apply State.txSet_kept | apply kept_ok

theorem State.txCancel_kept (s : State) (x : Side) (k : Nat) (v : Nat) (hk : Kept s0 s) : Kept s0 (State.txCancel s x k v) := by
  unfold State.txCancel
  try dsimp only
  with_reducible repeat' first
    | assumption | intro _ | apply State.setBit_kept | apply State.each_kept | apply State.setCan_kept | apply State.txDone_kept
    | apply State.txDrop_kept | apply kept_ite | simp only [kept_mk] | split | dsimp only

theorem execCanTxCancel_kept (x : Side) (o : Origin) (k : Fin 6) (v : BitVec 32) (s : State) (hk : Kept s0 s) :
    KeptOut s0 (execCanTxCancel x o k v s) := by
  unfold execCanTxCancel
  with_reducible repeat' first
    | assumption | intro _ | apply State.guarded_kept | apply State.txCancel_kept | apply kept_ok

theorem State.buildTx_kept (s : State) (x : Side) (k : Nat) (b : Nat) (event : Bool) (hk : Kept s0 s) :
    Kept s0 (State.buildTx s x k b event).2 := by
  unfold State.buildTx
  try dsimp only
  with_reducible repeat' first
    | assumption | intro _ | exact Kept.refl _ | apply State.setCan_kept | apply State.event_kept | apply State.canCnt_kept
    | apply State.canEvent_kept | apply State.txDone_kept | apply State.txDrop_kept | apply State.useFresh_kept | apply State.take_kept
    | (apply kept_then; (focus ((repeat' first | exact Kept.refl _ | apply State.setCan_kept | apply State.event_kept | apply State.canCnt_kept | apply State.canEvent_kept | apply State.txDone_kept | apply State.txDrop_kept | apply State.useFresh_kept | apply State.take_kept | apply kept_ite); done)))
    | apply kept_ite | simp only [kept_mk] | split | dsimp only

theorem State.take_kept (s : State) (x : Side) (k : Nat) (b : Nat) (event : Bool) (ecc : Ecc) (hk : Kept s0 s) :
    Kept s0 (State.take s x k b event ecc).2 := by
  unfold State.take
  try dsimp only
  with_reducible repeat' first
    | assumption | apply State.event_kept | apply State.txDone_kept | apply State.txDrop_kept | apply State.canEcc_kept
    | apply State.buildTx_kept | apply kept_ite | split | dsimp only

theorem State.txStart_kept (s : State) (x : Side) (k : Nat) (t : CanTx) (sealed : Bool) (hk : Kept s0 s) :
    Kept s0 (State.txStart s x k t sealed) := by
  unfold State.txStart
  try dsimp only
  with_reducible repeat' first
    | assumption | intro _ | apply State.setCan_kept | simp only [kept_mk] | dsimp only

theorem State.guardFix_kept (s : State) (x : Side) (k : Nat) (n : Nat) (sent : Bool) (hk : Kept s0 s) :
    Kept s0 (State.guardFix s x k n sent) := by
  unfold State.guardFix
  try dsimp only
  with_reducible repeat' first
    | assumption | apply State.setCan_kept | apply kept_ite | simp only [kept_mk] | split | refine kept_of_snd (by assumption) ?_
    | refine kept_of_fst (by assumption) ?_ | refine kept_of_some (by assumption) ?_ | dsimp only

theorem State.takeEvent_kept (s : State) (x : Side) (k : Nat) (ecc : Ecc) (hk : Kept s0 s) :
    Kept s0 (State.takeEvent s x k ecc) := by
  unfold State.takeEvent
  try dsimp only
  with_reducible repeat' first
    | assumption | apply State.canCnt_kept | apply State.take_kept | apply State.txStart_kept | apply kept_ite | simp only [kept_mk] | split
    | refine kept_of_snd (by assumption) ?_ | refine kept_of_fst (by assumption) ?_ | refine kept_of_some (by assumption) ?_ | dsimp only

theorem State.takeSched_kept (s : State) (x : Side) (k : Nat) (b : Nat) (ecc : Ecc) (hk : Kept s0 s) :
    Kept s0 (State.takeSched s x k b ecc) := by
  unfold State.takeSched
  try dsimp only
  with_reducible repeat' first
    | assumption | intro _ | apply State.setCan_kept | apply State.take_kept | simp only [kept_mk] | dsimp only

theorem execCanTxTake_kept (k : Fin 12) (ecc : Ecc) (s : State) (hk : Kept s0 s) : KeptOut s0 (execCanTxTake k ecc s) := by
  unfold execCanTxTake
  try dsimp only
  with_reducible repeat' first
    | assumption | apply State.takeEvent_kept | apply State.takeSched_kept | apply kept_ite | simp only [kept_mk] | split
    | refine kept_of_snd (by assumption) ?_ | refine kept_of_fst (by assumption) ?_ | refine kept_of_some (by assumption) ?_ | apply kept_ok
    | dsimp only

theorem State.ttServe_kept (s : State) (x : Side) (k : Nat) (late : Bool) (sof : Nat) (hk : Kept s0 s) :
    Kept s0 (State.ttServe s x k late sof) := by
  unfold State.ttServe
  try dsimp only
  with_reducible repeat' first
    | assumption | apply State.setCan_kept | apply State.canCnt_kept | apply State.ttMiss_kept | apply State.txStart_kept | apply kept_ite
    | simp only [kept_mk] | split | refine kept_of_snd (by assumption) ?_ | refine kept_of_fst (by assumption) ?_
    | refine kept_of_some (by assumption) ?_ | dsimp only

theorem State.ttOpen_kept (s : State) (x : Side) (k : Nat) (idle : Nat) (hk : Kept s0 s) : Kept s0 (State.ttOpen s x k idle) := by
  unfold State.ttOpen
  try dsimp only
  with_reducible repeat' first
    | assumption | apply State.setCan_kept | apply State.ttServe_kept | apply kept_ite | simp only [kept_mk] | split | dsimp only

theorem State.busIdle_kept (s : State) (x : Side) (k : Nat) (hk : Kept s0 s) : Kept s0 (State.busIdle s x k) := by
  unfold State.busIdle
  try dsimp only
  with_reducible repeat' first
    | assumption | apply State.ttServe_kept | apply kept_ite | simp only [kept_mk] | split | refine kept_of_snd (by assumption) ?_
    | refine kept_of_fst (by assumption) ?_ | refine kept_of_some (by assumption) ?_ | dsimp only

theorem execCanTtCycleStart_kept (k : Fin 12) (idle : Word40) (s : State) (hk : Kept s0 s) :
    KeptOut s0 (execCanTtCycleStart k idle s) := by
  unfold execCanTtCycleStart
  try dsimp only
  with_reducible repeat' first
    | assumption | exact Kept.refl _ | apply State.setCan_kept | apply State.due_kept | apply State.cnt_kept | apply State.ttRefuse_kept
    | apply State.ttStart_kept | apply State.ttOpen_kept
    | (apply kept_then; (focus ((repeat' first | exact Kept.refl _ | apply State.setCan_kept | apply State.due_kept | apply State.cnt_kept | apply State.ttRefuse_kept | apply State.ttStart_kept | apply State.ttOpen_kept | apply kept_ite); done)))
    | apply kept_ite | simp only [kept_mk] | split | refine kept_of_snd (by assumption) ?_ | refine kept_of_fst (by assumption) ?_
    | refine kept_of_some (by assumption) ?_ | apply kept_ok | dsimp only

theorem State.shadowFinish_kept (s : State) (x : Side) (k : Nat) (j : ShadowJob) (hk : Kept s0 s) :
    Kept s0 (State.shadowFinish s x k j) := by
  unfold State.shadowFinish
  try dsimp only
  with_reducible repeat' first
    | assumption | intro _ | apply State.setBit_kept | apply State.clearBit_kept | apply State.setCan_kept | apply State.store_kept
    | apply State.canIrq_kept | apply State.unstage_kept | apply kept_ite | simp only [kept_mk] | split | dsimp only

theorem State.windowServe_kept (s : State) (x : Side) (k : Nat) (w : Nat) (idle : Nat) (hk : Kept s0 s) :
    Kept s0 (State.windowServe s x k w idle) := by
  unfold State.windowServe
  try dsimp only
  with_reducible repeat' first
    | assumption | intro _ | exact Kept.refl _ | apply State.each_kept | apply State.setCan_kept | apply State.cs_kept
    | apply State.ttFlush_kept | apply State.takeSched_kept | apply State.ttOpen_kept | apply State.shadowFinish_kept
    | (apply kept_then; (focus ((repeat' first | exact Kept.refl _ | apply State.each_kept | apply State.setCan_kept | apply State.cs_kept | apply State.ttFlush_kept | apply State.takeSched_kept | apply State.ttOpen_kept | apply State.shadowFinish_kept | apply kept_ite); done)))
    | apply kept_ite | simp only [kept_mk] | split | dsimp only

theorem execCanTtWindowStart_kept (k : Fin 12) (w : Fin 32) (idle : Word40) (s : State) (hk : Kept s0 s) :
    KeptOut s0 (execCanTtWindowStart k w idle s) := by
  unfold execCanTtWindowStart
  try dsimp only
  with_reducible repeat' first
    | assumption | apply State.due_kept | apply State.cs_kept | apply State.windowServe_kept | apply kept_ite | simp only [kept_mk] | split
    | refine kept_of_snd (by assumption) ?_ | refine kept_of_fst (by assumption) ?_ | refine kept_of_some (by assumption) ?_ | apply kept_ok
    | dsimp only

theorem execRefLost_kept (k : Fin 12) (s : State) (hk : Kept s0 s) : KeptOut s0 (execRefLost k s) := by
  unfold execRefLost
  try dsimp only
  with_reducible repeat' first
    | assumption | apply State.due_kept | apply State.canCnt_kept | apply State.canEvent_kept | apply State.ttStop_kept | apply kept_ite
    | simp only [kept_mk] | split | refine kept_of_snd (by assumption) ?_ | refine kept_of_fst (by assumption) ?_
    | refine kept_of_some (by assumption) ?_ | apply kept_ok | dsimp only

theorem State.stampTx_kept (s : State) (x : Side) (k : Nat) (t : CanTx) (hk : Kept s0 s) : Kept s0 (State.stampTx s x k t) := by
  unfold State.stampTx
  try dsimp only
  with_reducible repeat' first
    | assumption | apply State.storeLE_kept | dsimp only

theorem State.txFailed_kept (s : State) (x : Side) (k : Nat) (t : CanTx) (hk : Kept s0 s) : Kept s0 (State.txFailed s x k t) := by
  unfold State.txFailed
  try dsimp only
  with_reducible repeat' first
    | assumption | exact Kept.refl _ | apply State.setCan_kept | apply State.canIrq_kept | apply State.canCnt_kept | apply State.txDone_kept
    | apply State.txDrop_kept
    | (apply kept_then; (focus ((repeat' first | exact Kept.refl _ | apply State.setCan_kept | apply State.canIrq_kept | apply State.canCnt_kept | apply State.txDone_kept | apply State.txDrop_kept | apply kept_ite); done)))
    | apply kept_ite | simp only [kept_mk] | split | refine kept_of_snd (by assumption) ?_ | refine kept_of_fst (by assumption) ?_
    | refine kept_of_some (by assumption) ?_ | dsimp only

theorem State.txEnd_kept (s : State) (x : Side) (k : Nat) (t : CanTx) (r : TxOutcome) (n : Nat) (hk : Kept s0 s) :
    Kept s0 (State.txEnd s x k t r n) := by
  unfold State.txEnd
  try dsimp only
  with_reducible repeat' first
    | assumption | exact Kept.refl _ | apply State.inc_kept | apply State.setCan_kept | apply State.cs_kept | apply State.canCnt_kept
    | apply State.txDone_kept | apply State.txDrop_kept | apply State.canCounters_kept | apply State.canRx_kept | apply State.guardFix_kept
    | apply State.busIdle_kept | apply State.stampTx_kept | apply State.txFailed_kept
    | (apply kept_then; (focus ((repeat' first | exact Kept.refl _ | apply State.inc_kept | apply State.setCan_kept | apply State.cs_kept | apply State.canCnt_kept | apply State.txDone_kept | apply State.txDrop_kept | apply State.canCounters_kept | apply State.canRx_kept | apply State.guardFix_kept | apply State.busIdle_kept | apply State.stampTx_kept | apply State.txFailed_kept | apply kept_ite); done)))
    | apply kept_ite | simp only [kept_mk] | split | refine kept_of_snd (by assumption) ?_ | refine kept_of_fst (by assumption) ?_
    | refine kept_of_some (by assumption) ?_ | dsimp only

theorem execCanTxEnd_kept (k : Fin 12) (r : TxOutcome) (n : BitVec 16) (s : State) (hk : Kept s0 s) :
    KeptOut s0 (execCanTxEnd k r n s) := by
  unfold execCanTxEnd
  try dsimp only
  with_reducible repeat' first
    | assumption | apply State.txEnd_kept | apply kept_ite | simp only [kept_mk] | split | refine kept_of_snd (by assumption) ?_
    | refine kept_of_fst (by assumption) ?_ | refine kept_of_some (by assumption) ?_ | apply kept_ok | dsimp only

theorem execCanFrameRx_kept (k : Fin 12) (f : CanFrame) (age : Word40) (ecc : Ecc) (s : State) (hk : Kept s0 s) :
    KeptOut s0 (execCanFrameRx k f age ecc s) := by
  unfold execCanFrameRx
  try dsimp only
  with_reducible repeat' first
    | assumption | intro _ | apply State.canRx_kept | apply State.busIdle_kept | apply kept_ite | split | apply kept_ok | dsimp only

theorem execCanErrorFlag_kept (k : Fin 12) (code : Fin 8) (heavy : Bool) (s : State) (hk : Kept s0 s) :
    KeptOut s0 (execCanErrorFlag k code heavy s) := by
  unfold execCanErrorFlag
  try dsimp only
  with_reducible repeat' first
    | assumption | exact Kept.refl _ | apply State.cs_kept | apply State.canCnt_kept | apply State.canCounters_kept
    | apply State.busIdle_kept
    | (apply kept_then; (focus ((repeat' first | exact Kept.refl _ | apply State.cs_kept | apply State.canCnt_kept | apply State.canCounters_kept | apply State.busIdle_kept | apply kept_ite); done)))
    | apply kept_ite | split | apply kept_ok | dsimp only

theorem execCanModeApply_kept (k : Fin 12) (s : State) (hk : Kept s0 s) : KeptOut s0 (execCanModeApply k s) := by
  unfold execCanModeApply
  try dsimp only
  with_reducible repeat' first
    | assumption | exact Kept.refl _ | apply State.setCan_kept | apply State.canSetMode_kept | apply State.busIdle_kept
    | (apply kept_then; (focus ((repeat' first | exact Kept.refl _ | apply State.setCan_kept | apply State.canSetMode_kept | apply State.busIdle_kept | apply kept_ite); done)))
    | apply kept_ite | simp only [kept_mk] | split | apply kept_ok | dsimp only

theorem State.shadowCtrl_kept (s : State) (x : Side) (k : Nat) (v : Nat) (hk : Kept s0 s) : Kept s0 (State.shadowCtrl s x k v) := by
  unfold State.shadowCtrl
  try dsimp only
  with_reducible repeat' first
    | assumption | exact Kept.refl _ | apply State.setBit_kept | apply State.setCan_kept
    | (apply kept_then; (focus ((repeat' first | exact Kept.refl _ | apply State.setBit_kept | apply State.setCan_kept | apply kept_ite); done)))
    | apply kept_ite | simp only [kept_mk] | split | dsimp only

theorem execCanShadowLoad_kept (x : Side) (o : Origin) (k : Fin 6) (v : BitVec 32) (s : State) (hk : Kept s0 s) :
    KeptOut s0 (execCanShadowLoad x o k v s) := by
  unfold execCanShadowLoad
  with_reducible repeat' first
    | assumption | intro _ | apply State.guarded_kept | apply State.shadowCtrl_kept | apply kept_ok

theorem execCanShadowStore_kept (x : Side) (o : Origin) (k : Fin 6) (v : BitVec 32) (s : State) (hk : Kept s0 s) :
    KeptOut s0 (execCanShadowStore x o k v s) := by
  unfold execCanShadowStore
  with_reducible repeat' first
    | assumption | intro _ | apply State.guarded_kept | apply State.shadowCtrl_kept | apply kept_ok

theorem execCanShadowDone_kept (k : Fin 12) (b : Fin 2) (s : State) (hk : Kept s0 s) : KeptOut s0 (execCanShadowDone k b s) := by
  unfold execCanShadowDone
  try dsimp only
  with_reducible repeat' first
    | assumption | intro _ | apply State.shadowFinish_kept | apply kept_ite | simp only [kept_mk] | split
    | refine kept_of_snd (by assumption) ?_ | refine kept_of_fst (by assumption) ?_ | refine kept_of_some (by assumption) ?_ | apply kept_ok
    | dsimp only

theorem State.canReset_kept (s : State) (x : Side) (k : Nat) (hk : Kept s0 s) : Kept s0 (State.canReset s x k) := by
  unfold State.canReset
  try dsimp only
  with_reducible repeat' first
    | assumption | intro _ | apply State.toReset_kept | apply State.each_kept | apply State.setCan_kept | apply State.cs_kept
    | simp only [kept_mk] | apply kept_regs_filter | apply kept_mem_filter | dsimp only

end Sys2Proof.Machine
end

