-- ==== Sys2Proof/Laws/KeptImages.lean ====
section
/-! SUPPORT. The definitions of Machine/Images.lean keep what every effect keeps: the queue, time, the count of free values, and the
canonical forms. -/
namespace Sys2Proof.Machine
open Sys2Proof

set_option linter.unusedVariables false
set_option linter.unusedSimpArgs false
set_option linter.unusedTactic false
set_option linter.unreachableTactic false
set_option linter.tactic.unusedName false

variable {s0 : State}

theorem State.erase_kept (s : State) (x : Side) (a : Nat) (n : Nat) (hk : Kept s0 s) : Kept s0 (State.erase s x a n) := by
  unfold State.erase
  with_reducible repeat' first
    | assumption | apply State.store_kept

theorem State.setPointer_kept (s : State) (x : Side) (t : Nat) (u : Nat) (hk : Kept s0 s) : Kept s0 (State.setPointer s x t u) := by
  unfold State.setPointer
  with_reducible repeat' first
    | assumption | apply State.store_kept

theorem State.imageRejected_kept (s : State) (x : Side) (slot : Nat) (r : Nat × Option Nat) (hk : Kept s0 s) :
    Kept s0 (State.imageRejected s x slot r) := by
  unfold State.imageRejected
  try dsimp only
  with_reducible repeat' first
    | assumption | apply State.log_kept | simp only [kept_mk] | split | refine kept_of_snd (by assumption) ?_
    | refine kept_of_fst (by assumption) ?_ | refine kept_of_some (by assumption) ?_ | dsimp only

theorem State.reload_kept (s : State) (x : Side) (os : List Nat) (hk : Kept s0 s) : Kept s0 (State.reload s x os) := by
  unfold State.reload
  try dsimp only
  with_reducible repeat' first
    | assumption | intro _ | apply State.set_kept | apply State.setSide_kept | simp only [kept_mk] | dsimp only

theorem State.imageApply_kept (s : State) (x : Side) (t : Nat) (hk : Kept s0 s) : Kept s0 (State.imageApply s x t) := by
  unfold State.imageApply
  try dsimp only
  with_reducible repeat' first
    | assumption | exact Kept.refl _ | apply State.setSide_kept | apply State.reload_kept
    | (apply kept_then; (focus ((repeat' first | exact Kept.refl _ | apply State.setSide_kept | apply State.reload_kept | apply kept_ite); done)))
    | apply kept_ite | simp only [kept_mk] | split | dsimp only

end Sys2Proof.Machine
end

