-- ==== Sys2Proof/Laws/KeptKeys.lean ====
section
/-! SUPPORT. The definitions of Machine/Keys.lean keep what every effect keeps: the queue, time, the count of free values, and the
canonical forms. -/
namespace Sys2Proof.Machine
open Sys2Proof

set_option linter.unusedVariables false
set_option linter.unusedSimpArgs false
set_option linter.unusedTactic false
set_option linter.unreachableTactic false
set_option linter.tactic.unusedName false

variable {s0 : State}

theorem State.fillSlot_kept (s : State) (x : Side) (k : Nat) (owner : Nat) (type : Nat) (use : Nat) (otp : Bool) (m : List Nat) (hk : Kept s0 s) :
    Kept s0 (State.fillSlot s x k owner type use otp m) := by
  unfold State.fillSlot
  try dsimp only
  with_reducible repeat' first
    | assumption | apply State.set_kept | apply State.setSide_kept | simp only [kept_mk] | dsimp only

theorem State.emptySlot_kept (s : State) (x : Side) (k : Nat) (hk : Kept s0 s) : Kept s0 (State.emptySlot s x k) := by
  unfold State.emptySlot
  try dsimp only
  with_reducible repeat' first
    | assumption | apply State.set_kept | apply State.setSide_kept | simp only [kept_mk] | dsimp only

theorem keyNeed_kept (c : Bool) (e : Nat) (k : KeyEnd) (hk : KeptKey s0 k) : KeptKey s0 (keyNeed c e k) := by
  unfold keyNeed
  split
  · exact hk
  · exact kept_errKey

theorem State.keyFilled_kept (s : State) (x : Side) (k : Nat) (use : Bool) (f : KeyEnd) (hk0 : Kept s0 s) (hkf : KeptKey s0 f) :
    KeptKey s0 (State.keyFilled s x k use f) := by
  unfold State.keyFilled
  with_reducible repeat' first
    | assumption | apply keyNeed_kept | apply kept_okKey | apply kept_errKey | refine kept_of_okKey (by assumption) ?_

theorem State.keyFill_kept (s : State) (x : Side) (burn : Bool) (k : Nat) (owner : Nat) (type : Nat) (use : Nat) (addr : Nat) (hk : Kept s0 s) :
    KeptKey s0 (State.keyFill s x burn k owner type use addr) := by
  unfold State.keyFill
  try dsimp only
  with_reducible repeat' first
    | assumption | apply State.set_kept | apply State.write_kept | apply State.fillSlot_kept | apply keyNeed_kept | apply State.burn_kept
    | apply kept_ite | split | apply kept_okKey | apply kept_errKey | refine kept_of_okKey (by assumption) ?_ | apply kept_ok | dsimp only

theorem State.keyRevoke_kept (s : State) (x : Side) (k : Nat) (hk : Kept s0 s) : KeptKey s0 (State.keyRevoke s x k) := by
  unfold State.keyRevoke
  with_reducible repeat' first
    | assumption | apply State.set_kept | apply keyNeed_kept | apply kept_okKey | apply kept_errKey
    | refine kept_of_okKey (by assumption) ?_ | apply kept_ok

theorem State.keyErase_kept (s : State) (x : Side) (k : Nat) (hk : Kept s0 s) : KeptKey s0 (State.keyErase s x k) := by
  unfold State.keyErase
  with_reducible repeat' first
    | assumption | apply State.emptySlot_kept | apply keyNeed_kept | apply kept_okKey | apply kept_errKey
    | refine kept_of_okKey (by assumption) ?_ | apply kept_ok

theorem State.keyCmac_kept (s : State) (x : Side) (k : Nat) (addr : Nat) (out : Nat) (len : Nat) (hk : Kept s0 s) :
    KeptKey s0 (State.keyCmac s x k addr out len) := by
  unfold State.keyCmac
  with_reducible repeat' first
    | assumption | apply State.write_kept | apply keyNeed_kept | apply State.keyFilled_kept | apply kept_okKey | apply kept_errKey
    | refine kept_of_okKey (by assumption) ?_ | apply kept_ok

theorem State.keySign_kept (s : State) (x : Side) (k : Nat) (addr : Nat) (out : Nat) (hk : Kept s0 s) :
    KeptKey s0 (State.keySign s x k addr out) := by
  unfold State.keySign
  try dsimp only
  with_reducible repeat' first
    | assumption | apply State.write_kept | apply keyNeed_kept | apply State.keyFilled_kept
    | exact kept_free (by assumption) (Nat.le_add_right _ _) | simp only [kept_mk] | apply kept_okKey | apply kept_errKey
    | refine kept_of_okKey (by assumption) ?_ | apply kept_ok | dsimp only

theorem State.keyVerify_kept (s : State) (x : Side) (k : Nat) (addr : Nat) (hk : Kept s0 s) :
    KeptKey s0 (State.keyVerify s x k addr) := by
  unfold State.keyVerify
  with_reducible repeat' first
    | assumption | apply keyNeed_kept | apply State.keyFilled_kept | apply kept_okKey | apply kept_errKey
    | refine kept_of_okKey (by assumption) ?_ | apply kept_ok

theorem State.keyPublic_kept (s : State) (x : Side) (k : Nat) (out : Nat) (hk : Kept s0 s) :
    KeptKey s0 (State.keyPublic s x k out) := by
  unfold State.keyPublic
  try dsimp only
  with_reducible repeat' first
    | assumption | apply State.write_kept | apply keyNeed_kept | apply State.keyFilled_kept | apply kept_ite | split | apply kept_okKey
    | apply kept_errKey | refine kept_of_okKey (by assumption) ?_ | apply kept_ok | dsimp only

theorem State.keyRun_kept (s : State) (x : Side) (arg : List Nat) (hk : Kept s0 s) : KeptKey s0 (State.keyRun s x arg) := by
  unfold State.keyRun
  with_reducible repeat' first
    | assumption | exact Kept.refl _ | apply State.keyFill_kept | apply State.keyRevoke_kept | apply State.keyErase_kept
    | apply State.keyCmac_kept | apply State.keySign_kept | apply State.keyVerify_kept | apply State.keyPublic_kept
    | (apply kept_then; (focus ((repeat' first | exact Kept.refl _ | apply State.keyFill_kept | apply State.keyRevoke_kept | apply State.keyErase_kept | apply State.keyCmac_kept | apply State.keySign_kept | apply State.keyVerify_kept | apply State.keyPublic_kept | apply kept_ite); done)))
    | apply kept_ite | split | apply kept_okKey | apply kept_errKey | refine kept_of_okKey (by assumption) ?_

theorem State.keysGo_kept (s : State) (x : Side) (v : Nat) (hk : Kept s0 s) : Kept s0 (State.keysGo s x v) := by
  unfold State.keysGo
  try dsimp only
  with_reducible repeat' first
    | assumption | apply State.set_kept | apply State.setSide_kept | apply kept_ite | simp only [kept_mk] | split | dsimp only

theorem State.keysStart_kept (s : State) (x : Side) (o : Origin) (op : Nat) (slot : Nat) (hk : Kept s0 s) :
    Kept s0 (State.keysStart s x o op slot) := by
  unfold State.keysStart
  with_reducible repeat' first
    | assumption | intro _ | apply State.guarded_kept | apply State.keysGo_kept

theorem execKeysInstall_kept (x : Side) (o : Origin) (slot : Fin 64) (s : State) (hk : Kept s0 s) :
    KeptOut s0 (execKeysInstall x o slot s) := by
  unfold execKeysInstall
  with_reducible repeat' first
    | assumption | apply State.keysStart_kept | apply kept_ok

theorem execKeysBurn_kept (x : Side) (o : Origin) (slot : Fin 64) (s : State) (hk : Kept s0 s) :
    KeptOut s0 (execKeysBurn x o slot s) := by
  unfold execKeysBurn
  with_reducible repeat' first
    | assumption | apply State.keysStart_kept | apply kept_ok

theorem execKeysRevoke_kept (x : Side) (o : Origin) (slot : Fin 64) (s : State) (hk : Kept s0 s) :
    KeptOut s0 (execKeysRevoke x o slot s) := by
  unfold execKeysRevoke
  with_reducible repeat' first
    | assumption | apply State.keysStart_kept | apply kept_ok

theorem execKeysErase_kept (x : Side) (o : Origin) (slot : Fin 64) (s : State) (hk : Kept s0 s) :
    KeptOut s0 (execKeysErase x o slot s) := by
  unfold execKeysErase
  with_reducible repeat' first
    | assumption | apply State.keysStart_kept | apply kept_ok

theorem execKeysCmac_kept (x : Side) (o : Origin) (slot : Fin 64) (s : State) (hk : Kept s0 s) :
    KeptOut s0 (execKeysCmac x o slot s) := by
  unfold execKeysCmac
  with_reducible repeat' first
    | assumption | apply State.keysStart_kept | apply kept_ok

theorem execKeysSign_kept (x : Side) (o : Origin) (slot : Fin 64) (s : State) (hk : Kept s0 s) :
    KeptOut s0 (execKeysSign x o slot s) := by
  unfold execKeysSign
  with_reducible repeat' first
    | assumption | apply State.keysStart_kept | apply kept_ok

theorem execKeysVerify_kept (x : Side) (o : Origin) (slot : Fin 64) (s : State) (hk : Kept s0 s) :
    KeptOut s0 (execKeysVerify x o slot s) := by
  unfold execKeysVerify
  with_reducible repeat' first
    | assumption | apply State.keysStart_kept | apply kept_ok

theorem execKeysPublic_kept (x : Side) (o : Origin) (slot : Fin 64) (s : State) (hk : Kept s0 s) :
    KeptOut s0 (execKeysPublic x o slot s) := by
  unfold execKeysPublic
  with_reducible repeat' first
    | assumption | apply State.keysStart_kept | apply kept_ok

/-- A key operation ends, read or not. -/
theorem State.keyEnd_kept (s : State) (x : Side) (l : List Nat) (lost : Option Word40) (corr : Option Word40) (hk : Kept s0 s) :
    Kept s0 (State.keyEnd s x l lost corr).1 ∧ KeptKey s0 (State.keyEnd s x l lost corr).2 := by
  unfold State.keyEnd
  dsimp only
  have h := State.engineRead_kept s x 9 0 (keyInput l).1 (keyInput l).2 lost corr hk
  split
  · split
    · exact ⟨h, kept_errKey⟩
    · exact ⟨h, State.keyRun_kept _ _ _ h⟩
  · exact ⟨hk, State.keyRun_kept _ _ _ hk⟩

theorem execKeysOpComplete_kept (x : Side) (lost : Option Word40) (corr : Option Word40) (s : State) (hk : Kept s0 s) :
    KeptOut s0 (execKeysOpComplete x lost corr s) := by
  unfold execKeysOpComplete
  refine kept_ok ?_
  split
  · exact hk
  · dsimp only
    split
    · exact hk
    · next l _ _ =>
      have h := State.keyEnd_kept ((s.setSide x { s.side x with keyOp := none }).set (.side x) F.KEYS_OP_STATUS_BUSY 0 0) x l lost corr
        (State.set_kept _ _ _ _ _ (State.setSide_kept _ _ _ hk))
      split
      · next t e =>
        rw [e] at h
        exact State.intr_kept _ _ _ (State.set_kept _ _ _ _ _ (State.set_kept _ _ _ _ _ (h.2 _ rfl)))
      · next t k e =>
        rw [e] at h
        exact State.intr_kept _ _ _ (State.set_kept _ _ _ _ _ (State.set_kept _ _ _ _ _ h.1))

end Sys2Proof.Machine
end

