-- ==== Sys2Proof/Laws/KeptGates.lean ====
section
/-! SUPPORT. The definitions of Machine/Gates.lean keep what every effect keeps: the queue, time, the count of free values, and the
canonical forms. -/
namespace Sys2Proof.Machine
open Sys2Proof

set_option linter.unusedVariables false
set_option linter.unusedSimpArgs false
set_option linter.unusedTactic false
set_option linter.unreachableTactic false
set_option linter.tactic.unusedName false

variable {s0 : State}

theorem State.gateTrap_kept (s : State) (x : Side) (h : Nat) (reason : Nat) (n : Nat) (epc : Nat) (hk : Kept s0 s) :
    Kept s0 (State.gateTrap s x h reason n epc) := by
  unfold State.gateTrap
  with_reducible repeat' first
    | assumption | apply State.setHart_kept

theorem State.gateFault_kept (s : State) (x : Side) (h : Nat) (reason : Nat) (n : Nat) (epc : Nat) (hk : Kept s0 s) :
    Kept s0 (State.gateFault s x h reason n epc) := by
  unfold State.gateFault
  try dsimp only
  with_reducible repeat' first
    | assumption | apply State.inc_kept | apply State.log_kept | apply State.secEvent_kept | apply State.gateTrap_kept | apply kept_ite
    | split | dsimp only

theorem State.gatePop_kept (s : State) (x : Side) (h : Nat) (f : GateFrame) (rest : List GateFrame) (hk : Kept s0 s) :
    Kept s0 (State.gatePop s x h f rest) := by
  unfold State.gatePop
  try dsimp only
  with_reducible repeat' first
    | assumption | apply State.set_kept | apply State.setHart_kept | simp only [kept_mk] | dsimp only

theorem State.noLand_kept (s : State) (x : Side) (h : Nat) (hk : Kept s0 s) : Kept s0 (State.noLand s x h) := by
  unfold State.noLand
  try dsimp only
  with_reducible repeat' first
    | assumption | apply State.gateFault_kept | apply State.gatePop_kept | simp only [kept_mk] | split
    | refine kept_of_snd (by assumption) ?_ | refine kept_of_fst (by assumption) ?_ | refine kept_of_some (by assumption) ?_ | dsimp only

theorem State.gateEnter_kept (s : State) (x : Side) (h : Nat) (n : Nat) (pc : Nat) (priv : Nat) (virt : Bool) (hk : Kept s0 s) :
    Kept s0 (State.gateEnter s x h n pc priv virt) := by
  unfold State.gateEnter
  try dsimp only
  with_reducible repeat' first
    | assumption | apply State.set_kept | apply State.setHart_kept | apply State.perfEvent_kept | apply State.gateFault_kept
    | apply kept_ite | simp only [kept_mk] | split | refine kept_of_snd (by assumption) ?_ | refine kept_of_fst (by assumption) ?_
    | refine kept_of_some (by assumption) ?_ | dsimp only

theorem State.pairCustom0_kept (s : State) (x : Side) (h : Nat) (w : Nat) (pc : Nat) (hk : Kept s0 s) :
    Kept s0 (State.pairCustom0 s x h w pc) := by
  unfold State.pairCustom0
  try dsimp only
  with_reducible repeat' first
    | assumption | apply State.setHart_kept | apply State.stepEnd_kept | apply State.irqTake_kept | apply State.illegal_kept
    | apply kept_ite | simp only [kept_mk] | split | dsimp only

theorem State.gateInsn_kept (s : State) (x : Side) (h : Nat) (w : Nat) (pc : Nat) (k : Nat) (f : State → Nat → State) (hf : ∀ (y0 : State) (y1 : Nat), Kept s0 y0 → Kept s0 (f y0 y1)) (hk : Kept s0 s) :
    Kept s0 (State.gateInsn s x h w pc k f) := by
  unfold State.gateInsn
  try dsimp only
  with_reducible repeat' first
    | assumption | intro _ | exact Kept.refl _ | apply State.setHart_kept | apply State.stepEnd_kept | apply State.irqTake_kept
    | apply State.gateFault_kept | apply State.noLand_kept | apply State.pairCustom0_kept | apply hf
    | (apply kept_then; (focus ((repeat' first | exact Kept.refl _ | apply State.setHart_kept | apply State.stepEnd_kept | apply State.irqTake_kept | apply State.gateFault_kept | apply State.noLand_kept | apply State.pairCustom0_kept | apply kept_ite); done)))
    | apply kept_ite | simp only [kept_mk] | split | refine kept_of_snd (by assumption) ?_ | refine kept_of_fst (by assumption) ?_
    | refine kept_of_some (by assumption) ?_ | dsimp only

theorem execGateCall_kept (x : Side) (h : Fin 6) (insn : BitVec 32) (pc : Word64) (priv : Fin 4) (virt : Bool) (s : State) (hk : Kept s0 s) :
    KeptOut s0 (execGateCall x h insn pc priv virt s) := by
  unfold execGateCall
  with_reducible repeat' first
    | assumption | intro _ | apply State.gateEnter_kept | apply State.gateInsn_kept | apply kept_ok

theorem execGateLand_kept (x : Side) (h : Fin 6) (insn : BitVec 32) (pc : Word64) (s : State) (hk : Kept s0 s) :
    KeptOut s0 (execGateLand x h insn pc s) := by
  unfold execGateLand
  try dsimp only
  with_reducible repeat' first
    | assumption | intro _ | apply State.setHart_kept | apply State.gateInsn_kept | simp only [kept_mk] | apply kept_ok | dsimp only

theorem execGateRet_kept (x : Side) (h : Fin 6) (insn : BitVec 32) (pc : Word64) (s : State) (hk : Kept s0 s) :
    KeptOut s0 (execGateRet x h insn pc s) := by
  unfold execGateRet
  try dsimp only
  with_reducible repeat' first
    | assumption | intro _ | apply State.gateFault_kept | apply State.gatePop_kept | apply State.gateInsn_kept | simp only [kept_mk] | split
    | refine kept_of_snd (by assumption) ?_ | refine kept_of_fst (by assumption) ?_ | refine kept_of_some (by assumption) ?_ | apply kept_ok
    | dsimp only

theorem State.wotGo_kept (s : State) (x : Side) (v : Nat) (hk : Kept s0 s) : Kept s0 (State.wotGo s x v) := by
  unfold State.wotGo
  try dsimp only
  with_reducible repeat' first
    | assumption | apply State.set_kept | apply State.setSide_kept | apply kept_ite | simp only [kept_mk] | split | dsimp only

theorem execWotSyncGo_kept (x : Side) (o : Origin) (v : BitVec 32) (s : State) (hk : Kept s0 s) :
    KeptOut s0 (execWotSyncGo x o v s) := by
  unfold execWotSyncGo
  with_reducible repeat' first
    | assumption | intro _ | apply State.guarded_kept | apply State.wotGo_kept | apply kept_ok

theorem execWotSyncComplete_kept (x : Side) (s : State) (hk : Kept s0 s) : KeptOut s0 (execWotSyncComplete x s) := by
  unfold execWotSyncComplete
  with_reducible repeat' first
    | assumption | apply State.set_kept | apply kept_ok

theorem execSecurityLockdown_kept (x : Side) (s : State) (hk : Kept s0 s) : KeptOut s0 (execSecurityLockdown x s) := by
  unfold execSecurityLockdown
  try dsimp only
  with_reducible repeat' first
    | assumption | apply State.setSide_kept | apply State.log_kept | apply kept_ite | simp only [kept_mk] | split
    | refine kept_of_snd (by assumption) ?_ | refine kept_of_fst (by assumption) ?_ | refine kept_of_some (by assumption) ?_ | apply kept_ok
    | dsimp only

theorem State.secClear_kept (s : State) (x : Side) (v : Nat) (hk : Kept s0 s) : Kept s0 (State.secClear s x v) := by
  unfold State.secClear
  try dsimp only
  with_reducible repeat' first
    | assumption | apply State.log_kept | apply kept_ite | simp only [kept_mk] | split | dsimp only

theorem execWotSecClear_kept (x : Side) (o : Origin) (v : BitVec 32) (s : State) (hk : Kept s0 s) :
    KeptOut s0 (execWotSecClear x o v s) := by
  unfold execWotSecClear
  with_reducible repeat' first
    | assumption | intro _ | apply State.guarded_kept | apply State.secClear_kept | apply kept_ok

theorem State.pokerEnd_kept (s : State) (x : Side) (hk : Kept s0 s) : Kept s0 (State.pokerEnd s x) := by
  unfold State.pokerEnd
  try dsimp only
  with_reducible repeat' first
    | assumption | intro _ | apply State.set_kept | apply State.each_kept | apply State.setSide_kept | apply State.setHart_kept
    | apply State.log_kept | apply kept_ite | simp only [kept_mk] | split | dsimp only

theorem State.pokerCtrl_kept (s : State) (x : Side) (v : Nat) (hk : Kept s0 s) : Kept s0 (State.pokerCtrl s x v) := by
  unfold State.pokerCtrl
  with_reducible repeat' first
    | assumption | apply State.pokerEnd_kept | apply kept_ite | split

theorem execPokerRelock_kept (x : Side) (o : Origin) (v : BitVec 32) (s : State) (hk : Kept s0 s) :
    KeptOut s0 (execPokerRelock x o v s) := by
  unfold execPokerRelock
  with_reducible repeat' first
    | assumption | intro _ | apply State.guarded_kept | apply State.pokerCtrl_kept | apply kept_ok

theorem execPokerUnlockExpiry_kept (x : Side) (s : State) (hk : Kept s0 s) : KeptOut s0 (execPokerUnlockExpiry x s) := by
  unfold execPokerUnlockExpiry
  try dsimp only
  with_reducible repeat' first
    | assumption | apply State.due_kept | apply State.pokerEnd_kept | simp only [kept_mk] | split | refine kept_of_snd (by assumption) ?_
    | refine kept_of_fst (by assumption) ?_ | refine kept_of_some (by assumption) ?_ | apply kept_ok | dsimp only

theorem State.pokerHalt_kept (s : State) (x : Side) (h : Nat) (scope : Nat) (act : DebugAct) (hk : Kept s0 s) :
    Kept s0 (State.pokerHalt s x h scope act) := by
  unfold State.pokerHalt
  try dsimp only
  with_reducible repeat' first
    | assumption | exact Kept.refl _ | apply State.setSide_kept | apply State.setHart_kept | apply State.act_kept
    | (apply kept_then; (focus ((repeat' first | exact Kept.refl _ | apply State.setSide_kept | apply State.setHart_kept | apply State.act_kept | apply kept_ite); done)))
    | apply kept_ite | simp only [kept_mk] | split | refine kept_of_snd (by assumption) ?_ | refine kept_of_fst (by assumption) ?_
    | refine kept_of_some (by assumption) ?_ | dsimp only

theorem State.tapScan_kept (s : State) (x : Side) (ws : List Bool) (pins : List Bool) (hk : Kept s0 s) :
    Kept s0 (State.tapScan s x ws pins) := by
  unfold State.tapScan
  try dsimp only
  with_reducible repeat' first
    | assumption | apply State.setSide_kept | apply State.take_kept | apply kept_ite | simp only [kept_mk] | split | dsimp only

theorem execPokerHalt_kept (x : Side) (h : Fin 5) (act : DebugAct) (s : State) (hk : Kept s0 s) :
    KeptOut s0 (execPokerHalt x h act s) := by
  unfold execPokerHalt
  try dsimp only
  with_reducible repeat' first
    | assumption | exact Kept.refl _ | apply State.setSide_kept | apply State.pokerHalt_kept | apply State.tapScan_kept
    | apply State.act_kept
    | (apply kept_then; (focus ((repeat' first | exact Kept.refl _ | apply State.setSide_kept | apply State.pokerHalt_kept | apply State.tapScan_kept | apply State.act_kept | apply kept_ite); done)))
    | apply kept_ite | simp only [kept_mk] | split | refine kept_of_snd (by assumption) ?_ | refine kept_of_fst (by assumption) ?_
    | refine kept_of_some (by assumption) ?_ | apply kept_ok | dsimp only

theorem State.challenge_kept (s : State) (x : Side) (hk : Kept s0 s) : Kept s0 (State.challenge s x).2 :=
  State.setSide_kept _ _ _ (kept_free hk (Nat.le_add_right _ _))

theorem State.unlock_kept (s : State) (x : Side) (j : Job) (a : Nat) (bad : Bool) (hk : Kept s0 s) :
    Kept s0 (State.unlock s x j a bad) := by
  unfold State.unlock
  try dsimp only
  with_reducible repeat' first
    | assumption | intro _ | exact Kept.refl _ | apply State.set_kept | apply State.inc_kept | apply State.each_kept
    | apply State.setSide_kept | apply State.log_kept | apply State.secEvent_kept | apply State.done_kept | apply State.challenge_kept
    | (apply kept_then; (focus ((repeat' first | exact Kept.refl _ | apply State.set_kept | apply State.inc_kept | apply State.each_kept | apply State.setSide_kept | apply State.log_kept | apply State.secEvent_kept | apply State.done_kept | apply State.challenge_kept | apply kept_ite); done)))
    | apply kept_ite | simp only [kept_mk] | split | dsimp only

theorem execWldDebugUnlock_kept (x : Side) (lost : Option Word40) (corr : Option Word40) (s : State) (hk : Kept s0 s) :
    KeptOut s0 (execWldDebugUnlock x lost corr s) := by
  unfold execWldDebugUnlock
  try dsimp only
  with_reducible repeat' first
    | assumption | intro _ | apply State.done_kept | apply State.chromir_kept | apply State.engineRead_kept | apply State.challenge_kept
    | apply State.unlock_kept | apply kept_ite | simp only [kept_mk] | split | refine kept_of_snd (by assumption) ?_
    | refine kept_of_fst (by assumption) ?_ | refine kept_of_some (by assumption) ?_ | apply kept_ok | dsimp only

end Sys2Proof.Machine
end

