-- ==== Sys2Proof/Laws/KeptSides.lean ====
section
/-! SUPPORT. The definitions of Machine/Sides.lean keep what every effect keeps: the queue, time, the count of free values, and the
canonical forms. -/
namespace Sys2Proof.Machine
open Sys2Proof

set_option linter.unusedVariables false
set_option linter.unusedSimpArgs false
set_option linter.unusedTactic false
set_option linter.unreachableTactic false
set_option linter.tactic.unusedName false

variable {s0 : State}

theorem execHeartbeat_kept (x : Side) (lanes : BitVec 5) (s : State) (hk : Kept s0 s) : KeptOut s0 (execHeartbeat x lanes s) := by
  unfold execHeartbeat
  try dsimp only
  with_reducible repeat' first
    | assumption | intro _ | exact Kept.refl _ | apply State.each_kept | apply State.setDie_kept | apply State.returnWaits_kept
    | apply State.returnGap_kept
    | (apply kept_then; (focus ((repeat' first | exact Kept.refl _ | apply State.each_kept | apply State.setDie_kept | apply State.returnWaits_kept | apply State.returnGap_kept | apply kept_ite); done)))
    | apply kept_ite | simp only [kept_mk] | split | refine kept_of_snd (by assumption) ?_ | refine kept_of_fst (by assumption) ?_
    | refine kept_of_some (by assumption) ?_ | apply kept_ok | dsimp only

theorem execTokenLapse_kept (t : Fin 5) (s : State) (hk : Kept s0 s) : KeptOut s0 (execTokenLapse t s) := by
  unfold execTokenLapse
  try dsimp only
  with_reducible repeat' first
    | assumption | apply State.set_kept | apply State.inc_kept | apply State.setDie_kept | apply State.intr_kept | apply State.logBoth_kept
    | apply State.due_kept | apply kept_ite | simp only [kept_mk] | split | refine kept_of_snd (by assumption) ?_
    | refine kept_of_fst (by assumption) ?_ | refine kept_of_some (by assumption) ?_ | apply kept_ok | dsimp only

theorem execTokenResumed_kept (t : Fin 5) (s : State) (hk : Kept s0 s) : KeptOut s0 (execTokenResumed t s) := by
  unfold execTokenResumed
  try dsimp only
  with_reducible repeat' first
    | assumption | apply State.set_kept | apply State.logBoth_kept | apply kept_ite | split | apply kept_ok | dsimp only

theorem execAutoClaim_kept (x : Side) (t : Fin 5) (s : State) (hk : Kept s0 s) : KeptOut s0 (execAutoClaim x t s) := by
  unfold execAutoClaim
  with_reducible repeat' first
    | assumption | apply State.autoClaim_kept | apply kept_ite | split | apply kept_ok

theorem execVacantClaim_kept (x : Side) (s : State) (hk : Kept s0 s) : KeptOut s0 (execVacantClaim x s) := by
  unfold execVacantClaim
  with_reducible repeat' first
    | assumption | intro _ | apply State.each_kept | apply State.due_kept | apply State.vacantClaim_kept | apply kept_ite | split
    | apply kept_ok

theorem execHandoverWindowClose_kept (d : Fin 4) (s : State) (hk : Kept s0 s) : KeptOut s0 (execHandoverWindowClose d s) := by
  unfold execHandoverWindowClose
  with_reducible repeat' first
    | assumption | apply State.set_kept | apply State.due_kept | apply kept_ite | split | apply kept_ok

theorem execOrderlyRelease_kept (t : Fin 5) (s : State) (hk : Kept s0 s) : KeptOut s0 (execOrderlyRelease t s) := by
  unfold execOrderlyRelease
  try dsimp only
  with_reducible repeat' first
    | assumption | apply State.recordClaim_kept | apply kept_ite | split | apply kept_ok | dsimp only

theorem execCrossPulse_kept (x : Side) (arrives : Bool) (healthy : Bool) (s : State) (hk : Kept s0 s) :
    KeptOut s0 (execCrossPulse x arrives healthy s) := by
  unfold execCrossPulse
  try dsimp only
  with_reducible repeat' first
    | assumption | exact Kept.refl _ | apply State.set_kept | apply State.setSide_kept | apply State.sideEvt_kept
    | apply State.showMirror_kept
    | (apply kept_then; (focus ((repeat' first | exact Kept.refl _ | apply State.set_kept | apply State.setSide_kept | apply State.sideEvt_kept | apply State.showMirror_kept | apply kept_ite); done)))
    | apply kept_ite | simp only [kept_mk] | split | apply kept_ok | dsimp only

theorem State.losePeer_kept (s : State) (x : Side) (hk : Kept s0 s) : Kept s0 (State.losePeer s x) := by
  unfold State.losePeer
  try dsimp only
  with_reducible repeat' first
    | assumption | apply State.set_kept | apply State.setSide_kept | apply State.log_kept | apply State.sideEvt_kept
    | apply State.mirrorStop_kept | simp only [kept_mk] | dsimp only

theorem execPeerLost_kept (x : Side) (s : State) (hk : Kept s0 s) : KeptOut s0 (execPeerLost x s) := by
  unfold execPeerLost
  try dsimp only
  with_reducible repeat' first
    | assumption | apply State.due_kept | apply State.losePeer_kept | apply kept_ite | split | apply kept_ok | dsimp only

theorem execGrateLinkLost_kept (x : Side) (d : Fin 4) (s : State) (hk : Kept s0 s) : KeptOut s0 (execGrateLinkLost x d s) := by
  unfold execGrateLinkLost
  with_reducible repeat' first
    | assumption | apply State.log_kept | apply kept_ite | split | apply kept_ok

theorem execReturnHome_kept (t : Fin 5) (s : State) (hk : Kept s0 s) : KeptOut s0 (execReturnHome t s) := by
  unfold execReturnHome
  try dsimp only
  with_reducible repeat' first
    | assumption | apply State.set_kept | apply State.setSide_kept | apply State.log_kept | apply State.due_kept | apply kept_ite
    | simp only [kept_mk] | split | refine kept_of_snd (by assumption) ?_ | refine kept_of_fst (by assumption) ?_
    | refine kept_of_some (by assumption) ?_ | apply kept_ok | dsimp only

theorem execMirrorCheckpoint_kept (x : Side) (s : State) (hk : Kept s0 s) : KeptOut s0 (execMirrorCheckpoint x s) := by
  unfold execMirrorCheckpoint
  try dsimp only
  with_reducible repeat' first
    | assumption | apply State.setSide_kept | apply State.ckptStart_kept | apply State.showMirror_kept | apply kept_ite
    | simp only [kept_mk] | split | apply kept_ok | dsimp only

theorem State.ckptGo_kept (s : State) (x : Side) (v : Nat) (hk : Kept s0 s) : Kept s0 (State.ckptGo s x v) := by
  unfold State.ckptGo
  with_reducible repeat' first
    | assumption | apply State.ckptStart_kept | apply kept_ite | split

theorem execSideCkptGo_kept (x : Side) (o : Origin) (v : BitVec 32) (s : State) (hk : Kept s0 s) :
    KeptOut s0 (execSideCkptGo x o v s) := by
  unfold execSideCkptGo
  with_reducible repeat' first
    | assumption | intro _ | apply State.guarded_kept | apply State.ckptGo_kept | apply kept_ok

theorem execCheckpointComplete_kept (x : Side) (lost : Option Word40) (corr : Option Word40) (s : State) (hk : Kept s0 s) :
    KeptOut s0 (execCheckpointComplete x lost corr s) := by
  unfold execCheckpointComplete
  with_reducible repeat' first
    | assumption | apply State.ckptEnd_kept | apply kept_ok

end Sys2Proof.Machine
end

