-- ==== Sys2Proof/Laws/KeptTime.lean ====
section
/-! SUPPORT. The definitions of Machine/Time.lean keep what every effect keeps: the queue, time, the count of free values, and the
canonical forms. -/
namespace Sys2Proof.Machine
open Sys2Proof

set_option linter.unusedVariables false
set_option linter.unusedSimpArgs false
set_option linter.unusedTactic false
set_option linter.unreachableTactic false
set_option linter.tactic.unusedName false

variable {s0 : State}

theorem State.setClock_kept (s : State) (x : Side) (d : Nat) (c : Clock) (hk : Kept s0 s) : Kept s0 (State.setClock s x d c) := by
  unfold State.setClock
  try dsimp only
  with_reducible repeat' first
    | assumption | apply State.setSide_kept | simp only [kept_mk] | dsimp only

theorem State.tallyRule_kept (s : State) (x : Side) (hk : Kept s0 s) : Kept s0 (State.tallyRule s x) := by
  unfold State.tallyRule
  try dsimp only
  with_reducible repeat' first
    | assumption | apply State.setSide_kept | simp only [kept_mk] | dsimp only

theorem State.scaleChange_kept (s : State) (x : Side) (d : Nat) (step : Bool) (hk : Kept s0 s) :
    Kept s0 (State.scaleChange s x d step) := by
  unfold State.scaleChange
  try dsimp only
  with_reducible repeat' first
    | assumption | intro _ | apply State.setSide_kept | apply State.tallyRule_kept | apply kept_ite | simp only [kept_mk] | split
    | dsimp only

theorem State.setDomState_kept (s : State) (x : Side) (d : Nat) (v : Nat) (hk : Kept s0 s) :
    Kept s0 (State.setDomState s x d v) := by
  unfold State.setDomState
  try dsimp only
  with_reducible repeat' first
    | assumption | apply State.set_kept | apply State.scaleChange_kept | apply kept_ite | split | dsimp only

theorem State.dueSide_kept (s : State) (x : Side) (d : Nat) (t : Nat) (hk : Kept s0 s) : Kept s0 (State.dueSide s x d t) := by
  unfold State.dueSide
  with_reducible repeat' first
    | assumption | apply State.due_kept

theorem State.setTpo_kept (s : State) (x : Side) (n : Nat) (next : Option Nat) (level : Bool) (hk : Kept s0 s) :
    Kept s0 (State.setTpo s x n next level) := by
  unfold State.setTpo
  try dsimp only
  with_reducible repeat' first
    | assumption | apply State.setBit_kept | apply State.clearBit_kept | apply State.setSide_kept | apply kept_ite | simp only [kept_mk]
    | split | refine kept_of_snd (by assumption) ?_ | refine kept_of_fst (by assumption) ?_ | refine kept_of_some (by assumption) ?_
    | dsimp only

theorem State.tpoFire_kept (s : State) (x : Side) (n : Nat) (t : Nat) (late : Bool) (hk : Kept s0 s) :
    Kept s0 (State.tpoFire s x n t late) := by
  unfold State.tpoFire
  try dsimp only
  with_reducible repeat' first
    | assumption | apply State.set_kept | apply State.setTpo_kept | apply kept_ite | split | dsimp only

theorem State.tpoArm_kept (s : State) (x : Side) (n : Nat) (t : Nat) (ps : List Nat) (hk : Kept s0 s) :
    Kept s0 (State.tpoArm s x n t ps) := by
  unfold State.tpoArm
  try dsimp only
  with_reducible repeat' first
    | assumption | exact Kept.refl _ | apply State.set_kept | apply State.setSide_kept | apply State.setTpo_kept | apply State.tpoFire_kept
    | (apply kept_then; (focus ((repeat' first | exact Kept.refl _ | apply State.set_kept | apply State.setSide_kept | apply State.setTpo_kept | apply State.tpoFire_kept | apply kept_ite); done)))
    | apply kept_ite | simp only [kept_mk] | split | dsimp only

theorem execTpoEdge_kept (x : Side) (n : Fin 4) (s : State) (hk : Kept s0 s) : KeptOut s0 (execTpoEdge x n s) := by
  unfold execTpoEdge
  try dsimp only
  with_reducible repeat' first
    | assumption | exact Kept.refl _ | apply State.dueSide_kept | apply State.setTpo_kept | apply State.tpoFire_kept
    | apply State.tpoArm_kept
    | (apply kept_then; (focus ((repeat' first | exact Kept.refl _ | apply State.dueSide_kept | apply State.setTpo_kept | apply State.tpoFire_kept | apply State.tpoArm_kept | apply kept_ite); done)))
    | apply kept_ite | split | apply kept_ok | dsimp only

theorem State.tpoStep_kept (s : State) (x : Side) (n : Nat) (old : Nat) (new : Nat) (hk : Kept s0 s) :
    Kept s0 (State.tpoStep s x n old new) := by
  unfold State.tpoStep
  try dsimp only
  with_reducible repeat' first
    | assumption | exact Kept.refl _ | apply State.add_kept | apply State.setTpo_kept | apply State.tpoFire_kept
    | (apply kept_then; (focus ((repeat' first | exact Kept.refl _ | apply State.add_kept | apply State.setTpo_kept | apply State.tpoFire_kept | apply kept_ite); done)))
    | apply kept_ite | split | dsimp only

theorem State.scaleMoves_kept (s : State) (x : Side) (d : Nat) (old : Nat) (new : Nat) (hk : Kept s0 s) :
    Kept s0 (State.scaleMoves s x d old new) := by
  unfold State.scaleMoves
  try dsimp only
  with_reducible repeat' first
    | assumption | intro _ | apply State.each_kept | apply State.setCan_kept | apply State.tpoStep_kept | apply kept_ite
    | simp only [kept_mk] | split | dsimp only

theorem State.followStep_kept (s : State) (x : Side) (d : Nat) (t : Nat) (hk : Kept s0 s) : Kept s0 (State.followStep s x d t) := by
  unfold State.followStep
  try dsimp only
  with_reducible repeat' first
    | assumption | intro _ | apply State.set_kept | apply State.inc_kept | apply State.each_kept | apply State.timeEvt_kept
    | apply State.setClock_kept | apply State.scaleChange_kept | apply State.scaleMoves_kept | apply kept_ite | split | dsimp only

theorem State.copyBit_kept (s : State) (x : Side) (f : Fld) (e : Fld) (v : Bool) (rising : Bool) (hk : Kept s0 s) :
    Kept s0 (State.copyBit s x f e v rising) := by
  unfold State.copyBit
  try dsimp only
  with_reducible repeat' first
    | assumption | apply State.set_kept | apply State.timeEvt_kept | apply kept_ite | split | dsimp only

theorem State.follow_kept (s : State) (x : Side) (d : Nat) (hk : Kept s0 s) : Kept s0 (State.follow s x d) := by
  unfold State.follow
  try dsimp only
  with_reducible repeat' first
    | assumption | exact Kept.refl _ | apply State.log_kept | apply State.setDom_kept | apply State.setClock_kept
    | apply State.setDomState_kept | apply State.scaleMoves_kept | apply State.followStep_kept | apply State.copyBit_kept
    | (apply kept_then; (focus ((repeat' first | exact Kept.refl _ | apply State.log_kept | apply State.setDom_kept | apply State.setClock_kept | apply State.setDomState_kept | apply State.scaleMoves_kept | apply State.followStep_kept | apply State.copyBit_kept | apply kept_ite); done)))
    | apply kept_ite | simp only [kept_mk] | split | dsimp only

theorem execTimeLinkMessage_kept (x : Side) (s : State) (hk : Kept s0 s) : KeptOut s0 (execTimeLinkMessage x s) := by
  unfold execTimeLinkMessage
  try dsimp only
  with_reducible repeat' first
    | assumption | apply State.set_kept | apply State.setSide_kept | apply State.follow_kept | apply kept_ite | simp only [kept_mk] | split
    | apply kept_ok | dsimp only

theorem State.linkLost_kept (s : State) (x : Side) (hk : Kept s0 s) : Kept s0 (State.linkLost s x) := by
  unfold State.linkLost
  try dsimp only
  with_reducible repeat' first
    | assumption | intro _ | apply State.set_kept | apply State.inc_kept | apply State.each_kept | apply State.timeEvt_kept
    | apply State.setDomState_kept | apply kept_ite | split | dsimp only

theorem execTimeLinkLost_kept (x : Side) (s : State) (hk : Kept s0 s) : KeptOut s0 (execTimeLinkLost x s) := by
  unfold execTimeLinkLost
  try dsimp only
  with_reducible repeat' first
    | assumption | apply State.due_kept | apply State.linkLost_kept | apply kept_ite | simp only [kept_mk] | split
    | refine kept_of_snd (by assumption) ?_ | refine kept_of_fst (by assumption) ?_ | refine kept_of_some (by assumption) ?_ | apply kept_ok
    | dsimp only

theorem State.timeRead_kept (s : State) (x : Side) (d : Nat) (hk : Kept s0 s) : Kept s0 (State.timeRead s x d) := by
  unfold State.timeRead
  try dsimp only
  with_reducible repeat' first
    | assumption | apply State.set_kept | apply kept_ite | simp only [kept_mk] | split | dsimp only

theorem execTimeNsRead_kept (x : Side) (o : Origin) (d : Fin 2) (s : State) (hk : Kept s0 s) :
    KeptOut s0 (execTimeNsRead x o d s) := by
  unfold execTimeNsRead
  with_reducible repeat' first
    | assumption | intro _ | apply State.guarded_kept | apply State.timeRead_kept | apply kept_ok

theorem State.capture_kept (s : State) (x : Side) (n : Nat) (hk : Kept s0 s) : Kept s0 (State.capture s x n) := by
  unfold State.capture
  try dsimp only
  with_reducible repeat' first
    | assumption | apply State.set_kept | apply State.inc_kept | apply State.setSide_kept | apply State.intr_kept | apply kept_ite
    | simp only [kept_mk] | split | dsimp only

theorem execTciCapture_kept (x : Side) (n : Fin 4) (rising : Bool) (s : State) (hk : Kept s0 s) :
    KeptOut s0 (execTciCapture x n rising s) := by
  unfold execTciCapture
  try dsimp only
  with_reducible repeat' first
    | assumption | apply State.sparkCapture_kept | apply State.capture_kept | apply kept_ite | split | apply kept_ok | dsimp only

theorem State.onBellows_kept (s : State) (j : Job) (f : State → State) (hf : ∀ (y0 : State), Kept s0 y0 → Kept s0 (f y0)) (hk : Kept s0 s) :
    Kept s0 (State.onBellows s j f) := by
  unfold State.onBellows
  with_reducible repeat' first
    | assumption | intro _ | apply State.doneAbsent_kept | apply hf | apply kept_ite | split

theorem execTimeStatus_kept (x : Side) (s : State) (hk : Kept s0 s) : KeptOut s0 (execTimeStatus x s) := by
  unfold execTimeStatus
  try dsimp only
  with_reducible repeat' first
    | assumption | intro _ | apply State.done_kept | apply State.chromir_kept | apply State.onBellows_kept | apply kept_ok | dsimp only

theorem execTimeStepAccept_kept (x : Side) (s : State) (hk : Kept s0 s) : KeptOut s0 (execTimeStepAccept x s) := by
  unfold execTimeStepAccept
  try dsimp only
  with_reducible repeat' first
    | assumption | intro _ | apply State.done_kept | apply State.chromir_kept | apply State.stepDom_kept | apply State.onBellows_kept
    | apply kept_ite | split | apply kept_ok | dsimp only

theorem State.pulseSet_kept (s : State) (x : Side) (j : Job) (hk : Kept s0 s) : Kept s0 (State.pulseSet s x j) := by
  unfold State.pulseSet
  try dsimp only
  with_reducible repeat' first
    | assumption | apply State.setSide_kept | apply State.done_kept | apply State.tpoArm_kept | apply kept_ite | simp only [kept_mk] | split
    | dsimp only

theorem execTimePulseSet_kept (x : Side) (s : State) (hk : Kept s0 s) : KeptOut s0 (execTimePulseSet x s) := by
  unfold execTimePulseSet
  with_reducible repeat' first
    | assumption | intro _ | apply State.chromir_kept | apply State.pulseSet_kept | apply kept_ok

theorem execTimeCaptureRead_kept (x : Side) (s : State) (hk : Kept s0 s) : KeptOut s0 (execTimeCaptureRead x s) := by
  unfold execTimeCaptureRead
  try dsimp only
  with_reducible repeat' first
    | assumption | intro _ | apply State.set_kept | apply State.done_kept | apply State.chromir_kept | apply kept_ok | dsimp only

theorem execTimeServoSet_kept (x : Side) (s : State) (hk : Kept s0 s) : KeptOut s0 (execTimeServoSet x s) := by
  unfold execTimeServoSet
  try dsimp only
  with_reducible repeat' first
    | assumption | intro _ | apply State.set_kept | apply State.done_kept | apply State.chromir_kept | apply State.onBellows_kept
    | apply kept_ok | dsimp only

end Sys2Proof.Machine
end

