-- ==== Sys2Proof/Laws/KeptCommit.lean ====
section
/-! SUPPORT. The definitions of Machine/Commit.lean keep what every effect keeps: the queue, time, the count of free values, and the
canonical forms. -/
namespace Sys2Proof.Machine
open Sys2Proof

set_option linter.unusedVariables false
set_option linter.unusedSimpArgs false
set_option linter.unusedTactic false
set_option linter.unreachableTactic false
set_option linter.tactic.unusedName false

variable {s0 : State}

theorem State.putConfig_kept (s : State) (h : Holder) (l : List (Holder × Fld × Nat × Nat)) (hk : Kept s0 s) :
    Kept s0 (State.putConfig s h l) := by
  unfold State.putConfig
  try dsimp only
  with_reducible repeat' first
    | assumption | intro _ | apply State.set_kept | apply State.each_kept | apply State.hold_kept | simp only [kept_mk]
    | apply kept_regs_filter | apply kept_mem_filter | dsimp only

theorem State.clampBounds_kept (s : State) (d : Nat) (hk : Kept s0 s) : Kept s0 (State.clampBounds s d) := by
  unfold State.clampBounds
  with_reducible repeat' first
    | assumption | intro _ | apply State.set_kept | apply State.each_kept | apply kept_ite | split

theorem State.logClamps_kept (s : State) (x : Side) (d : Nat) (raw : State) (hk0 : Kept s0 s) (hk1 : Kept s0 raw) :
    Kept s0 (State.logClamps s x d raw) := by
  unfold State.logClamps
  with_reducible repeat' first
    | assumption | intro _ | apply State.set_kept | apply State.each_kept | apply State.log_kept

theorem State.decideModes_kept (s : State) (o : Side) (xs : List Side) (t : Nat) (hk : Kept s0 s) :
    Kept s0 (State.decideModes s o xs t) := by
  unfold State.decideModes
  try dsimp only
  with_reducible repeat' first
    | assumption | intro _ | apply State.each_kept | apply State.setSide_kept | apply State.due_kept | apply kept_foldl
    | apply kept_foldl_fst | apply kept_foldl_snd | simp only [kept_mk] | dsimp only

theorem State.takeSnap_kept (s : State) (x : Side) (t : Nat) (hk : Kept s0 s) : Kept s0 (State.takeSnap s x t) := by
  unfold State.takeSnap
  try dsimp only
  with_reducible repeat' first
    | assumption | intro _ | exact Kept.refl _ | apply State.set_kept | apply State.setSide_kept | apply State.decideModes_kept
    | (apply kept_then; (focus ((repeat' first | exact Kept.refl _ | apply State.set_kept | apply State.setSide_kept | apply State.decideModes_kept | apply kept_ite); done)))
    | apply kept_ite | simp only [kept_mk] | split | refine kept_of_snd (by assumption) ?_ | refine kept_of_fst (by assumption) ?_
    | refine kept_of_some (by assumption) ?_ | dsimp only

theorem State.readySnap_kept (s : State) (x : Side) (t : Nat) (hk : Kept s0 s) : Kept s0 (State.readySnap s x t) := by
  unfold State.readySnap
  try dsimp only
  with_reducible repeat' first
    | assumption | apply State.takeSnap_kept | apply kept_ite | simp only [kept_mk] | split | refine kept_of_snd (by assumption) ?_
    | refine kept_of_fst (by assumption) ?_ | refine kept_of_some (by assumption) ?_ | dsimp only

theorem State.otherSnap_kept (s : State) (x : Side) (t : Nat) (hk : Kept s0 s) : Kept s0 (State.otherSnap s x t) := by
  unfold State.otherSnap
  with_reducible repeat' first
    | assumption | apply State.takeSnap_kept | apply kept_ite | split

theorem State.dieMoved_kept (s : State) (x : Side) (d : Nat) (active : Nat) (hk : Kept s0 s) :
    Kept s0 (State.dieMoved s x d active) := by
  unfold State.dieMoved
  try dsimp only
  with_reducible repeat' first
    | assumption | intro _ | apply State.set_kept | apply State.each_kept | apply State.setDie_kept | apply State.limitEff_kept
    | apply kept_ite | simp only [kept_mk] | split | dsimp only

theorem State.flueMoved_kept (s : State) (x : Side) (old : State) (hk0 : Kept s0 s) (hk1 : Kept s0 old) :
    Kept s0 (State.flueMoved s x old) := by
  unfold State.flueMoved
  try dsimp only
  with_reducible repeat' first
    | assumption | intro _ | apply State.set_kept | apply State.each_kept | apply State.flueEvt_kept | apply State.externalRoles_kept
    | apply State.tasStop_kept | apply kept_ite | simp only [kept_mk] | split | dsimp only

theorem State.canDiscard_kept (s : State) (x : Side) (k : Nat) (hk : Kept s0 s) : Kept s0 (State.canDiscard s x k) := by
  unfold State.canDiscard
  try dsimp only
  with_reducible repeat' first
    | assumption | intro _ | apply State.toReset_kept | apply State.each_kept | apply State.setCan_kept | apply State.cs_kept
    | apply State.txDone_kept | apply State.txDrop_kept | simp only [kept_mk] | dsimp only

theorem State.canBar_kept (s : State) (x : Side) (k : Nat) (f : Fld) (code : Option Nat) (bad : Bool) (hk : Kept s0 s) :
    Kept s0 (State.canBar s x k f code bad) := by
  unfold State.canBar
  try dsimp only
  with_reducible repeat' first
    | assumption | apply State.log_kept | apply State.cs_kept | apply kept_ite | simp only [kept_mk] | split
    | refine kept_of_snd (by assumption) ?_ | refine kept_of_fst (by assumption) ?_ | refine kept_of_some (by assumption) ?_ | dsimp only

theorem State.canSchedule_kept (s : State) (x : Side) (k : Nat) (old : State) (hk0 : Kept s0 s) (hk1 : Kept s0 old) :
    Kept s0 (State.canSchedule s x k old) := by
  unfold State.canSchedule
  try dsimp only
  with_reducible repeat' first
    | assumption | intro _ | exact Kept.refl _ | apply State.setCan_kept | apply State.cs_kept | apply State.ttStop_kept
    | (apply kept_then; (focus ((repeat' first | exact Kept.refl _ | apply State.setCan_kept | apply State.cs_kept | apply State.ttStop_kept | apply kept_ite); done)))
    | apply kept_ite | simp only [kept_mk] | split | dsimp only

theorem State.canMoved_kept (s : State) (x : Side) (k : Nat) (old : State) (hk0 : Kept s0 s) (hk1 : Kept s0 old) :
    Kept s0 (State.canMoved s x k old) := by
  unfold State.canMoved
  try dsimp only
  with_reducible repeat' first
    | assumption | intro _ | exact Kept.refl _ | apply State.setCan_kept | apply State.canEvent_kept | apply State.canSetMode_kept
    | apply State.canPendMode_kept | apply State.canDiscard_kept | apply State.canBar_kept | apply State.canSchedule_kept
    | (apply kept_then; (focus ((repeat' first | exact Kept.refl _ | apply State.setCan_kept | apply State.canEvent_kept | apply State.canSetMode_kept | apply State.canPendMode_kept | apply State.canDiscard_kept | apply State.canBar_kept | apply State.canSchedule_kept | apply kept_ite); done)))
    | apply kept_ite | simp only [kept_mk] | split | dsimp only

theorem State.localMoved_kept (s : State) (x : Side) (old : State) (hk0 : Kept s0 s) (hk1 : Kept s0 old) :
    Kept s0 (State.localMoved s x old) := by
  unfold State.localMoved
  try dsimp only
  with_reducible repeat' first
    | assumption | intro _ | exact Kept.refl _ | apply State.clearBit_kept | apply State.each_kept | apply State.ashFill_kept
    | apply State.lifeMoved_kept | apply State.tallyRule_kept | apply State.scaleChange_kept | apply State.canMoved_kept
    | (apply kept_then; (focus ((repeat' first | exact Kept.refl _ | apply State.clearBit_kept | apply State.each_kept | apply State.ashFill_kept | apply State.lifeMoved_kept | apply State.tallyRule_kept | apply State.scaleChange_kept | apply State.canMoved_kept | apply kept_ite); done)))
    | apply kept_ite | split | dsimp only

theorem State.loadUnit_kept (s : State) (x : Side) (first : Bool) (u : CommitUnit) (l : List (Holder × Fld × Nat × Nat)) (hk : Kept s0 s) :
    Kept s0 (State.loadUnit s x first u l) := by
  unfold State.loadUnit
  try dsimp only
  with_reducible repeat' first
    | assumption | apply State.set_kept | apply State.hold_kept | apply State.putConfig_kept | apply State.clampBounds_kept | apply kept_ite
    | simp only [kept_mk] | split | refine kept_of_snd (by assumption) ?_ | refine kept_of_fst (by assumption) ?_
    | refine kept_of_some (by assumption) ?_ | dsimp only

theorem State.moveUnit_kept (s : State) (x : Side) (q : Snap) (first : Bool) (snapAt : Nat) (l : List (Holder × Fld × Nat × Nat)) (u : CommitUnit) (hk : Kept s0 s) :
    Kept s0 (State.moveUnit s x q first snapAt l u) := by
  unfold State.moveUnit
  try dsimp only
  with_reducible repeat' first
    | assumption | intro _ | exact Kept.refl _ | apply State.passToken_kept | apply State.hold_kept | apply State.putConfig_kept
    | apply State.logClamps_kept | apply State.dieMoved_kept | apply State.flueMoved_kept | apply State.localMoved_kept
    | apply State.loadUnit_kept
    | (apply kept_then; (focus ((repeat' first | exact Kept.refl _ | apply State.passToken_kept | apply State.hold_kept | apply State.putConfig_kept | apply State.logClamps_kept | apply State.dieMoved_kept | apply State.flueMoved_kept | apply State.localMoved_kept | apply State.loadUnit_kept | apply kept_ite); done)))
    | apply kept_ite | simp only [kept_mk] | split | refine kept_of_snd (by assumption) ?_ | refine kept_of_fst (by assumption) ?_
    | refine kept_of_some (by assumption) ?_ | dsimp only

theorem State.logModeChange_kept (s : State) (x : Side) (q : Snap) (hk : Kept s0 s) : Kept s0 (State.logModeChange s x q) := by
  unfold State.logModeChange
  try dsimp only
  with_reducible repeat' first
    | assumption | apply State.ashPut_kept | apply kept_ite | simp only [kept_mk] | split | refine kept_of_snd (by assumption) ?_
    | refine kept_of_fst (by assumption) ?_ | refine kept_of_some (by assumption) ?_ | dsimp only

theorem State.putMasks_kept (s : State) (x : Side) (q : Snap) (hk : Kept s0 s) : Kept s0 (State.putMasks s x q) := by
  unfold State.putMasks
  try dsimp only
  with_reducible repeat' first
    | assumption | apply State.set_kept | apply State.pokerEnd_kept | apply kept_ite | split | dsimp only

theorem State.putVersions_kept (s : State) (x : Side) (q : Snap) (first : Bool) (l : List (Holder × Fld × Nat × Nat)) (hk : Kept s0 s) :
    Kept s0 (State.putVersions s x q first l) := by
  unfold State.putVersions
  try dsimp only
  with_reducible repeat' first
    | assumption | intro _ | apply State.set_kept | apply State.setSide_kept | apply kept_foldl | apply kept_foldl_fst
    | apply kept_foldl_snd | apply kept_ite | simp only [kept_mk] | split | refine kept_of_snd (by assumption) ?_
    | refine kept_of_fst (by assumption) ?_ | refine kept_of_some (by assumption) ?_ | dsimp only

theorem State.compareSides_kept (s : State) (f : Fld) (code : Nat) (differ : Bool) (hk : Kept s0 s) :
    Kept s0 (State.compareSides s f code differ) := by
  unfold State.compareSides
  try dsimp only
  with_reducible repeat' first
    | assumption | intro _ | apply State.set_kept | apply State.each_kept | apply State.log_kept | apply kept_ite | split | dsimp only

theorem State.compareCommit_kept (s : State) (x : Side) (hk : Kept s0 s) : Kept s0 (State.compareCommit s x) := by
  unfold State.compareCommit
  try dsimp only
  with_reducible repeat' first
    | assumption | exact Kept.refl _ | apply State.compareSides_kept
    | (apply kept_then; (focus ((repeat' first | exact Kept.refl _ | apply State.compareSides_kept | apply kept_ite); done)))
    | apply kept_ite | split | dsimp only

theorem State.commitReplies_kept (s : State) (q : Snap) (hk : Kept s0 s) : Kept s0 (State.commitReplies s q) := by
  unfold State.commitReplies
  try dsimp only
  with_reducible repeat' first
    | assumption | intro _ | apply State.each_kept | apply State.done_kept | apply kept_ite | split | dsimp only

theorem State.setStale_kept (s : State) (x : Side) (m : Nat) (hk : Kept s0 s) : Kept s0 (State.setStale s x m) := by
  unfold State.setStale
  with_reducible repeat' first
    | assumption | apply State.set_kept

theorem State.deferCommit_kept (s : State) (x : Side) (q : Snap) (hk : Kept s0 s) : Kept s0 (State.deferCommit s x q) := by
  unfold State.deferCommit
  try dsimp only
  with_reducible repeat' first
    | assumption | apply State.set_kept | apply State.inc_kept | apply State.setSide_kept | simp only [kept_mk] | dsimp only

theorem State.calTake_kept (s : State) (x : Side) (hk : Kept s0 s) : Kept s0 (State.calTake s x) := by
  unfold State.calTake
  try dsimp only
  with_reducible repeat' first
    | assumption | apply State.setSide_kept | simp only [kept_mk] | dsimp only

theorem State.moveCommit_kept (s : State) (x : Side) (q : Snap) (first : Bool) (snapAt : Nat) (l : List (Holder × Fld × Nat × Nat)) (units : List CommitUnit) (late : Nat) (hk : Kept s0 s) :
    Kept s0 (State.moveCommit s x q first snapAt l units late) := by
  unfold State.moveCommit
  try dsimp only
  with_reducible repeat' first
    | assumption | intro _ | exact Kept.refl _ | apply State.set_kept | apply State.inc_kept | apply State.each_kept
    | apply State.setSide_kept | apply State.log_kept | apply State.moveUnit_kept | apply State.logModeChange_kept
    | apply State.putMasks_kept | apply State.putVersions_kept | apply State.compareCommit_kept | apply State.commitReplies_kept
    | apply State.setStale_kept | apply State.calTake_kept
    | (apply kept_then; (focus ((repeat' first | exact Kept.refl _ | apply State.set_kept | apply State.inc_kept | apply State.each_kept | apply State.setSide_kept | apply State.log_kept | apply State.moveUnit_kept | apply State.logModeChange_kept | apply State.putMasks_kept | apply State.putVersions_kept | apply State.compareCommit_kept | apply State.commitReplies_kept | apply State.setStale_kept | apply State.calTake_kept | apply kept_ite); done)))
    | apply kept_ite | simp only [kept_mk] | split | dsimp only

theorem State.commitAt_kept (s : State) (x : Side) (first : Bool) (unready : Nat) (hk : Kept s0 s) :
    Kept s0 (State.commitAt s x first unready) := by
  unfold State.commitAt
  try dsimp only
  with_reducible repeat' first
    | assumption | intro _ | apply State.setBit_kept | apply State.deferCommit_kept | apply State.moveCommit_kept | apply kept_foldl
    | apply kept_ite | simp only [kept_mk] | split | refine kept_of_snd (by assumption) ?_ | refine kept_of_fst (by assumption) ?_
    | refine kept_of_some (by assumption) ?_ | dsimp only

theorem State.homeClaims_kept (s : State) (x : Side) (hk : Kept s0 s) : Kept s0 (State.homeClaims s x) := by
  unfold State.homeClaims
  with_reducible repeat' first
    | assumption | intro _ | apply State.each_kept | apply State.vacantClaim_kept | apply kept_ite | split

theorem State.claimReplies_kept (s : State) (x : Side) (hk : Kept s0 s) : Kept s0 (State.claimReplies s x) := by
  unfold State.claimReplies
  try dsimp only
  with_reducible repeat' first
    | assumption | intro _ | apply State.each_kept | apply State.setSide_kept | apply State.done_kept | apply kept_ite | simp only [kept_mk]
    | split | dsimp only

theorem State.tickDone_kept (s : State) (x : Side) (hk : Kept s0 s) : Kept s0 (State.tickDone s x) := by
  unfold State.tickDone
  try dsimp only
  with_reducible repeat' first
    | assumption | intro _ | apply State.each_kept | apply State.setSide_kept | apply State.marker_kept | apply State.returnWaits_kept
    | apply State.claimReplies_kept | simp only [kept_mk] | dsimp only

theorem execCommitTick_kept (x : Side) (unready : BitVec 6) (s : State) (hk : Kept s0 s) :
    KeptOut s0 (execCommitTick x unready s) := by
  unfold execCommitTick
  try dsimp only
  with_reducible repeat' first
    | assumption | apply State.due_kept | apply State.readySnap_kept | apply State.otherSnap_kept | apply State.commitAt_kept
    | apply State.tickDone_kept | apply kept_ite | split | apply kept_ok | dsimp only

theorem State.commitFirst_kept (s : State) (x : Side) (bootMask : Nat) (hk : Kept s0 s) :
    Kept s0 (State.commitFirst s x bootMask) := by
  unfold State.commitFirst
  try dsimp only
  with_reducible repeat' first
    | assumption | apply State.setSide_kept | apply State.showTokens_kept | apply State.takeSnap_kept | apply State.commitAt_kept
    | apply State.homeClaims_kept | simp only [kept_mk] | dsimp only

end Sys2Proof.Machine
end

