-- ==== Sys2Proof/Laws/KeptCfg.lean ====
section
/-! SUPPORT. The definitions of Machine/Cfg.lean keep what every effect keeps: the queue, time, the count of free values, and the
canonical forms. -/
namespace Sys2Proof.Machine
open Sys2Proof

set_option linter.unusedVariables false
set_option linter.unusedSimpArgs false
set_option linter.unusedTactic false
set_option linter.unreachableTactic false
set_option linter.tactic.unusedName false

variable {s0 : State}

theorem execCfgModeSet_kept (x : Side) (s : State) (hk : Kept s0 s) : KeptOut s0 (execCfgModeSet x s) := by
  unfold execCfgModeSet
  try dsimp only
  with_reducible repeat' first
    | assumption | intro _ | apply State.setSide_kept | apply State.took_kept | apply State.chromir_kept | apply kept_ite
    | simp only [kept_mk] | split | apply kept_ok | dsimp only

theorem execCfgModeGet_kept (x : Side) (s : State) (hk : Kept s0 s) : KeptOut s0 (execCfgModeGet x s) := by
  unfold execCfgModeGet
  try dsimp only
  with_reducible repeat' first
    | assumption | intro _ | apply State.done_kept | apply State.chromir_kept | apply kept_ok | dsimp only

theorem State.fieldAnswer_kept (s : State) (x : Side) (j : Job) (hk : Kept s0 s) : Kept s0 (State.fieldAnswer s x j) := by
  unfold State.fieldAnswer
  try dsimp only
  with_reducible repeat' first
    | assumption | apply State.done_kept | apply kept_ite | simp only [kept_mk] | split | refine kept_of_snd (by assumption) ?_
    | refine kept_of_fst (by assumption) ?_ | refine kept_of_some (by assumption) ?_ | dsimp only

theorem execCfgFieldRead_kept (x : Side) (s : State) (hk : Kept s0 s) : KeptOut s0 (execCfgFieldRead x s) := by
  unfold execCfgFieldRead
  with_reducible repeat' first
    | assumption | intro _ | apply State.chromir_kept | apply State.fieldAnswer_kept | apply kept_ok

theorem execCfgFieldWrite_kept (x : Side) (s : State) (hk : Kept s0 s) : KeptOut s0 (execCfgFieldWrite x s) := by
  unfold execCfgFieldWrite
  try dsimp only
  with_reducible repeat' first
    | assumption | intro _ | apply State.set_kept | apply State.setSide_kept | apply State.log_kept | apply State.chromir_kept
    | apply kept_ite | simp only [kept_mk] | split | apply kept_ok | dsimp only

theorem State.movePointer_kept (s : State) (x : Side) (t : Nat) (b : Nat) (version : Nat) (hk : Kept s0 s) :
    Kept s0 (State.movePointer s x t b version) := by
  unfold State.movePointer
  with_reducible repeat' first
    | assumption | apply State.log_kept | apply State.setPointer_kept

theorem State.writeBank_kept (s : State) (x : Side) (a : Nat) (t : Nat) (q : Slot) (hk : Kept s0 s) :
    Kept s0 (State.writeBank s x a t q) := by
  unfold State.writeBank
  try dsimp only
  with_reducible repeat' first
    | assumption | apply State.store_kept | apply State.erase_kept | dsimp only

theorem State.busyAll_kept (s : State) (x : Side) (j : Job) (hk : Kept s0 s) : Kept s0 (State.busyAll s x j) := by
  unfold State.busyAll
  try dsimp only
  with_reducible repeat' first
    | assumption | intro _ | apply State.inc_kept | apply State.each_kept | apply State.setSide_kept | apply State.answer_kept
    | simp only [kept_mk] | dsimp only

theorem State.chromirUpdate_kept (s : State) (x : Side) (j : Job) (q : Slot) (hk : Kept s0 s) :
    Kept s0 (State.chromirUpdate s x j q) := by
  unfold State.chromirUpdate
  try dsimp only
  with_reducible repeat' first
    | assumption | apply State.set_kept | apply State.setSide_kept | apply State.writeBank_kept | apply State.busyAll_kept
    | simp only [kept_mk] | dsimp only

theorem State.loadImage_kept (s : State) (x : Side) (j : Job) (q : Slot) (good : Bool) (hk : Kept s0 s) :
    Kept s0 (State.loadImage s x j q good).1 := by
  unfold State.loadImage
  try dsimp only
  with_reducible repeat' first
    | assumption | apply State.imageRejected_kept | apply State.movePointer_kept | apply State.writeBank_kept | apply kept_ite | split
    | dsimp only

theorem State.loadRun_kept (s : State) (x : Side) (j : Job) (q : Slot) (bad : Bool) (good : Bool) (hk : Kept s0 s) :
    Kept s0 (State.loadRun s x j q bad good).1 := by
  unfold State.loadRun
  try dsimp only
  with_reducible repeat' first
    | assumption | apply State.secEvent_kept | apply State.imageRejected_kept | apply State.loadImage_kept | apply kept_ite
    | simp only [kept_mk] | split | refine kept_of_snd (by assumption) ?_ | refine kept_of_fst (by assumption) ?_
    | refine kept_of_some (by assumption) ?_ | dsimp only

theorem execCfgImageLoad_kept (x : Side) (good : Bool) (lost : Option Word40) (corr : Option Word40) (s : State) (hk : Kept s0 s) :
    KeptOut s0 (execCfgImageLoad x good lost corr s) := by
  unfold execCfgImageLoad
  try dsimp only
  with_reducible repeat' first
    | assumption | intro _ | exact Kept.refl _ | apply State.long_kept | apply State.engineRead_kept | apply State.chromirUpdate_kept
    | apply State.loadRun_kept
    | (apply kept_then; (focus ((repeat' first | exact Kept.refl _ | apply State.long_kept | apply State.engineRead_kept | apply State.chromirUpdate_kept | apply State.loadRun_kept | apply kept_ite); done)))
    | apply kept_ite | simp only [kept_mk] | split | refine kept_of_snd (by assumption) ?_ | refine kept_of_fst (by assumption) ?_
    | refine kept_of_some (by assumption) ?_ | apply kept_ok | dsimp only

theorem execCfgImageVerify_kept (x : Side) (s : State) (hk : Kept s0 s) : KeptOut s0 (execCfgImageVerify x s) := by
  unfold execCfgImageVerify
  try dsimp only
  with_reducible repeat' first
    | assumption | intro _ | apply State.long_kept | apply State.imageRejected_kept | simp only [kept_mk] | split
    | refine kept_of_snd (by assumption) ?_ | refine kept_of_fst (by assumption) ?_ | refine kept_of_some (by assumption) ?_ | apply kept_ok
    | dsimp only

theorem execCalRead_kept (x : Side) (s : State) (hk : Kept s0 s) : KeptOut s0 (execCalRead x s) := by
  unfold execCalRead
  try dsimp only
  with_reducible repeat' first
    | assumption | intro _ | apply State.done_kept | apply State.chromir_kept | apply kept_ite | split | apply kept_ok | dsimp only

theorem State.calBank_kept (s : State) (x : Side) (l : List Nat) (hk : Kept s0 s) : Kept s0 (State.calBank s x l) := by
  unfold State.calBank
  try dsimp only
  with_reducible repeat' first
    | assumption | intro _ | apply State.setSide_kept | apply State.store_kept | apply State.take_kept | apply State.erase_kept
    | apply kept_foldl | simp only [kept_mk] | dsimp only

theorem State.calPut_kept (s : State) (x : Side) (t : Nat) (c : CalItem) (hk : Kept s0 s) : Kept s0 (State.calPut s x t c) := by
  unfold State.calPut
  try dsimp only
  with_reducible repeat' first
    | assumption | apply State.take_kept | apply State.calBank_kept | dsimp only

theorem execCalWrite_kept (x : Side) (goodA : Bool) (goodB : Bool) (s : State) (hk : Kept s0 s) :
    KeptOut s0 (execCalWrite x goodA goodB s) := by
  unfold execCalWrite
  try dsimp only
  with_reducible repeat' first
    | assumption | intro _ | apply State.log_kept | apply State.long_kept | apply State.calPut_kept | apply kept_ite | split | apply kept_ok
    | dsimp only

theorem State.calRepair_kept (s : State) (x : Side) (y : Side) (hk : Kept s0 s) : Kept s0 (State.calRepair s x y) := by
  unfold State.calRepair
  try dsimp only
  with_reducible repeat' first
    | assumption | apply State.set_kept | apply State.log_kept | apply State.calBank_kept | dsimp only

theorem State.calCompare_kept (s : State) (hk : Kept s0 s) : Kept s0 (State.calCompare s) := by
  unfold State.calCompare
  try dsimp only
  with_reducible repeat' first
    | assumption | apply State.calRepair_kept | apply kept_ite | simp only [kept_mk] | split | refine kept_of_snd (by assumption) ?_
    | refine kept_of_fst (by assumption) ?_ | refine kept_of_some (by assumption) ?_ | dsimp only

theorem State.calWake_kept (s : State) (x : Side) (crcOk : Bool) (hk : Kept s0 s) : Kept s0 (State.calWake s x crcOk) := by
  unfold State.calWake
  try dsimp only
  with_reducible repeat' first
    | assumption | apply State.set_kept | apply State.setSide_kept | apply State.log_kept | apply State.calCompare_kept | apply kept_ite
    | simp only [kept_mk] | split | dsimp only

theorem execCalLateRepair_kept (s : State) (hk : Kept s0 s) : KeptOut s0 (execCalLateRepair s) := by
  unfold execCalLateRepair
  with_reducible repeat' first
    | assumption | apply State.calCompare_kept | apply kept_ite | split | apply kept_ok

end Sys2Proof.Machine
end

