-- ==== Sys2Proof/Laws/KeptDoors.lean ====
section
/-! SUPPORT. The definitions of Machine/Doors.lean keep what every effect keeps: the queue, time, the count of free values, and the
canonical forms. -/
namespace Sys2Proof.Machine
open Sys2Proof

set_option linter.unusedVariables false
set_option linter.unusedSimpArgs false
set_option linter.unusedTactic false
set_option linter.unreachableTactic false
set_option linter.tactic.unusedName false

variable {s0 : State}

theorem State.doorAccess_kept (s : State) (x : Side) (o : Origin) (n : Nat) (off : Nat) (size : Nat) (write : Bool) (data : Bool) (f : State → State) (hf : ∀ (y0 : State), Kept s0 y0 → Kept s0 (f y0)) (hk : Kept s0 s) :
    Kept s0 (State.doorAccess s x o n off size write data f) := by
  unfold State.doorAccess
  try dsimp only
  with_reducible repeat' first
    | assumption | intro _ | apply State.busError_kept | apply State.guarded_kept | apply State.write_kept | apply hf | apply kept_ite
    | simp only [kept_mk] | split | refine kept_of_snd (by assumption) ?_ | refine kept_of_fst (by assumption) ?_
    | refine kept_of_some (by assumption) ?_ | dsimp only

theorem State.append_kept (s : State) (x : Side) (i : Nat) (w : Nat) (compared : Bool) (hk : Kept s0 s) :
    Kept s0 (State.append s x i w compared) := by
  unfold State.append
  try dsimp only
  with_reducible repeat' first
    | assumption | apply State.setSrc_kept | apply kept_ite | simp only [kept_mk] | split | dsimp only

theorem State.doorPush_kept (s : State) (x : Side) (o : Origin) (n : Nat) (off : Nat) (size : Nat) (w : Nat) (hk : Kept s0 s) :
    Kept s0 (State.doorPush s x o n off size w) := by
  unfold State.doorPush
  with_reducible repeat' first
    | assumption | apply State.set_kept | apply State.busError_kept | apply State.ownEvent_kept | apply State.append_kept | apply kept_ite
    | split

theorem State.doorCmd_kept (s : State) (x : Side) (o : Origin) (n : Nat) (w : Nat) (hk : Kept s0 s) :
    Kept s0 (State.doorCmd s x o n w) := by
  unfold State.doorCmd
  with_reducible repeat' first
    | assumption | intro _ | apply State.doorAccess_kept | apply State.doorPush_kept

theorem State.doorHi_kept (s : State) (x : Side) (o : Origin) (n : Nat) (v : Nat) (hk : Kept s0 s) :
    Kept s0 (State.doorHi s x o n v) := by
  unfold State.doorHi
  try dsimp only
  with_reducible repeat' first
    | assumption | intro _ | apply State.setSrc_kept | apply State.doorAccess_kept | simp only [kept_mk] | dsimp only

theorem State.doorLo_kept (s : State) (x : Side) (o : Origin) (n : Nat) (v : Nat) (hk : Kept s0 s) :
    Kept s0 (State.doorLo s x o n v) := by
  unfold State.doorLo
  with_reducible repeat' first
    | assumption | intro _ | apply State.doorAccess_kept | apply State.doorPush_kept

theorem State.pop_kept (s : State) (x : Side) (i : Nat) (hk : Kept s0 s) : Kept s0 (State.pop s x i).2 := by
  unfold State.pop
  try dsimp only
  with_reducible repeat' first
    | assumption | apply State.setSrc_kept | simp only [kept_mk] | split | refine kept_of_snd (by assumption) ?_
    | refine kept_of_fst (by assumption) ?_ | refine kept_of_some (by assumption) ?_ | dsimp only

theorem State.doorRead_kept (s : State) (x : Side) (o : Origin) (n : Nat) (hk : Kept s0 s) : Kept s0 (State.doorRead s x o n) := by
  unfold State.doorRead
  try dsimp only
  with_reducible repeat' first
    | assumption | intro _ | apply State.doorAccess_kept | apply State.pop_kept | simp only [kept_mk] | dsimp only

theorem State.doorReadHi_kept (s : State) (x : Side) (o : Origin) (n : Nat) (hk : Kept s0 s) :
    Kept s0 (State.doorReadHi s x o n) := by
  unfold State.doorReadHi
  try dsimp only
  with_reducible repeat' first
    | assumption | intro _ | apply State.setSrc_kept | apply State.doorAccess_kept | apply State.pop_kept | simp only [kept_mk] | dsimp only

theorem State.doorCtrl_kept (s : State) (x : Side) (o : Origin) (n : Nat) (v : Nat) (hk : Kept s0 s) :
    Kept s0 (State.doorCtrl s x o n v) := by
  unfold State.doorCtrl
  try dsimp only
  with_reducible repeat' first
    | assumption | intro _ | apply State.setSrc_kept | apply State.doorAccess_kept | apply kept_ite | simp only [kept_mk] | split
    | dsimp only

theorem State.doorFlush_kept (s : State) (x : Side) (n : Nat) (hk : Kept s0 s) : Kept s0 (State.doorFlush s x n) := by
  unfold State.doorFlush
  try dsimp only
  with_reducible repeat' first
    | assumption | apply State.set_kept | apply State.setSrc_kept | simp only [kept_mk] | dsimp only

theorem State.stokeFlush_kept (s : State) (x : Side) (w : Nat) (hk : Kept s0 s) : Kept s0 (State.stokeFlush s x w) := by
  unfold State.stokeFlush
  try dsimp only
  with_reducible repeat' first
    | assumption | intro _ | apply State.setSrc_kept | simp only [kept_mk] | dsimp only

theorem execDoorCmdWrite_kept (x : Side) (o : Origin) (n : Fin 32) (w : Word40) (s : State) (hk : Kept s0 s) :
    KeptOut s0 (execDoorCmdWrite x o n w s) := by
  unfold execDoorCmdWrite
  with_reducible repeat' first
    | assumption | apply State.doorCmd_kept | apply kept_ok

theorem execDoorCmdHiWrite_kept (x : Side) (o : Origin) (n : Fin 32) (v : BitVec 32) (s : State) (hk : Kept s0 s) :
    KeptOut s0 (execDoorCmdHiWrite x o n v s) := by
  unfold execDoorCmdHiWrite
  with_reducible repeat' first
    | assumption | apply State.doorHi_kept | apply kept_ok

theorem execDoorCmdLoWrite_kept (x : Side) (o : Origin) (n : Fin 32) (v : BitVec 32) (s : State) (hk : Kept s0 s) :
    KeptOut s0 (execDoorCmdLoWrite x o n v s) := by
  unfold execDoorCmdLoWrite
  with_reducible repeat' first
    | assumption | apply State.doorLo_kept | apply kept_ok

theorem execDoorRplRead_kept (x : Side) (o : Origin) (n : Fin 32) (s : State) (hk : Kept s0 s) :
    KeptOut s0 (execDoorRplRead x o n s) := by
  unfold execDoorRplRead
  with_reducible repeat' first
    | assumption | apply State.doorRead_kept | apply kept_ok

theorem execDoorRplHiRead_kept (x : Side) (o : Origin) (n : Fin 32) (s : State) (hk : Kept s0 s) :
    KeptOut s0 (execDoorRplHiRead x o n s) := by
  unfold execDoorRplHiRead
  with_reducible repeat' first
    | assumption | apply State.doorReadHi_kept | apply kept_ok

theorem execDoorFlush_kept (x : Side) (o : Origin) (n : Fin 32) (s : State) (hk : Kept s0 s) :
    KeptOut s0 (execDoorFlush x o n s) := by
  unfold execDoorFlush
  with_reducible repeat' first
    | assumption | apply State.doorCtrl_kept | apply kept_ok

end Sys2Proof.Machine
end

