-- ==== Sys2Proof/Laws/KeptPair.lean ====
section
/-! SUPPORT. The definitions of Machine/Pair.lean keep what every effect keeps: the queue, time, the count of free values, and the
canonical forms. -/
namespace Sys2Proof.Machine
open Sys2Proof

set_option linter.unusedVariables false
set_option linter.unusedSimpArgs false
set_option linter.unusedTactic false
set_option linter.unreachableTactic false
set_option linter.tactic.unusedName false

variable {s0 : State}

theorem State.setPairCore_kept (s : State) (x : Side) (c : Nat) (v : PairCore) (hk : Kept s0 s) :
    Kept s0 (State.setPairCore s x c v) := by
  unfold State.setPairCore
  try dsimp only
  with_reducible repeat' first
    | assumption | apply State.setSide_kept | apply kept_ite | simp only [kept_mk] | split | dsimp only

theorem State.pairAccess_kept (s : State) (x : Side) (o : Origin) (off : Nat) (write : Bool) (f : State → Nat → State) (hf : ∀ (y0 : State) (y1 : Nat), Kept s0 y0 → Kept s0 (f y0 y1)) (hk : Kept s0 s) :
    Kept s0 (State.pairAccess s x o off write f) := by
  unfold State.pairAccess
  try dsimp only
  with_reducible repeat' first
    | assumption | intro _ | apply State.busError_kept | apply State.guarded_kept | apply State.write_kept | apply hf | apply kept_ite
    | simp only [kept_mk] | split | refine kept_of_snd (by assumption) ?_ | refine kept_of_fst (by assumption) ?_
    | refine kept_of_some (by assumption) ?_ | dsimp only

theorem State.pairClear_kept (s : State) (x : Side) (hk : Kept s0 s) : Kept s0 (State.pairClear s x) := by
  unfold State.pairClear
  try dsimp only
  with_reducible repeat' first
    | assumption | apply State.setSide_kept | simp only [kept_mk] | dsimp only

theorem State.pairCoreRun_kept (s : State) (x : Side) (c : Nat) (run : Bool) (hk : Kept s0 s) :
    Kept s0 (State.pairCoreRun s x c run) := by
  unfold State.pairCoreRun
  try dsimp only
  with_reducible repeat' first
    | assumption | apply State.set_kept | apply State.setHart_kept | apply kept_ite | simp only [kept_mk] | split | dsimp only

theorem State.pairRun_kept (s : State) (x : Side) (run : Bool) (hk : Kept s0 s) : Kept s0 (State.pairRun s x run) := by
  unfold State.pairRun
  with_reducible repeat' first
    | assumption | apply State.pairCoreRun_kept

theorem State.pairReset_kept (s : State) (x : Side) (hk : Kept s0 s) : Kept s0 (State.pairReset s x) := by
  unfold State.pairReset
  with_reducible repeat' first
    | assumption | apply State.coreReset_kept | apply State.pairClear_kept

theorem State.pairHalt_kept (s : State) (x : Side) (hk : Kept s0 s) : Kept s0 (State.pairHalt s x) := by
  unfold State.pairHalt
  with_reducible repeat' first
    | assumption | apply State.set_kept | apply State.pairRun_kept | apply State.pairReset_kept

theorem State.pairRestart_kept (s : State) (x : Side) (row : List Nat) (hk : Kept s0 s) : Kept s0 (State.pairRestart s x row) := by
  unfold State.pairRestart
  try dsimp only
  with_reducible repeat' first
    | assumption | apply State.inc_kept | apply State.setSide_kept | apply State.doorFlush_kept | apply State.pairRun_kept
    | apply State.pairReset_kept | simp only [kept_mk] | dsimp only

theorem State.pairMismatch_kept (s : State) (x : Side) (kind : Nat) (hk : Kept s0 s) : Kept s0 (State.pairMismatch s x kind) := by
  unfold State.pairMismatch
  try dsimp only
  with_reducible repeat' first
    | assumption | exact Kept.refl _ | apply State.set_kept | apply State.inc_kept | apply State.intr_kept | apply State.log_kept
    | apply State.sideDown_kept | apply State.act_kept | apply State.pairClear_kept | apply State.pairHalt_kept
    | apply State.pairRestart_kept
    | (apply kept_then; (focus ((repeat' first | exact Kept.refl _ | apply State.set_kept | apply State.inc_kept | apply State.intr_kept | apply State.log_kept | apply State.sideDown_kept | apply State.act_kept | apply State.pairClear_kept | apply State.pairHalt_kept | apply State.pairRestart_kept | apply kept_ite); done)))
    | apply kept_ite | simp only [kept_mk] | split | refine kept_of_snd (by assumption) ?_ | refine kept_of_fst (by assumption) ?_
    | refine kept_of_some (by assumption) ?_ | dsimp only

theorem State.pairMatch_kept (s : State) (x : Side) (bad : Bool) (hk : Kept s0 s) : Kept s0 (State.pairMatch s x bad) := by
  unfold State.pairMatch
  try dsimp only
  with_reducible repeat' first
    | assumption | exact Kept.refl _ | apply State.inc_kept | apply State.setSide_kept | apply State.setSrc_kept | apply State.done_kept
    | apply State.pairMismatch_kept
    | (apply kept_then; (focus ((repeat' first | exact Kept.refl _ | apply State.inc_kept | apply State.setSide_kept | apply State.setSrc_kept | apply State.done_kept | apply State.pairMismatch_kept | apply kept_ite); done)))
    | apply kept_ite | simp only [kept_mk] | split | refine kept_of_snd (by assumption) ?_ | refine kept_of_fst (by assumption) ?_
    | refine kept_of_some (by assumption) ?_ | dsimp only

theorem State.pairGoOn_kept (s : State) (x : Side) (hk : Kept s0 s) : Kept s0 (State.pairGoOn s x) := by
  unfold State.pairGoOn
  with_reducible repeat' first
    | assumption | intro _ | apply State.done_kept | apply State.pairMatch_kept | apply kept_iter | apply kept_ite | split

theorem State.pairOutLo_kept (s : State) (x : Side) (c : Nat) (v : Nat) (bad : Bool) (hk : Kept s0 s) :
    Kept s0 (State.pairOutLo s x c v bad) := by
  unfold State.pairOutLo
  try dsimp only
  with_reducible repeat' first
    | assumption | intro _ | apply State.busError_kept | apply State.done_kept | apply State.setPairCore_kept | apply State.pairMatch_kept
    | apply kept_foldl | apply kept_foldl_fst | apply kept_foldl_snd | apply kept_ite | simp only [kept_mk] | split | dsimp only

theorem execPairOutHiWrite_kept (x : Side) (o : Origin) (v : BitVec 32) (s : State) (hk : Kept s0 s) :
    KeptOut s0 (execPairOutHiWrite x o v s) := by
  unfold execPairOutHiWrite
  try dsimp only
  with_reducible repeat' first
    | assumption | intro _ | apply State.setPairCore_kept | apply State.pairAccess_kept | simp only [kept_mk] | apply kept_ok | dsimp only

theorem execPairOutLoWrite_kept (x : Side) (o : Origin) (v : BitVec 32) (bad : Bool) (s : State) (hk : Kept s0 s) :
    KeptOut s0 (execPairOutLoWrite x o v bad s) := by
  unfold execPairOutLoWrite
  with_reducible repeat' first
    | assumption | intro _ | apply State.pairAccess_kept | apply State.pairOutLo_kept | apply kept_ok

theorem execPairOutTimeout_kept (x : Side) (s : State) (hk : Kept s0 s) : KeptOut s0 (execPairOutTimeout x s) := by
  unfold execPairOutTimeout
  try dsimp only
  with_reducible repeat' first
    | assumption | apply State.done_kept | apply State.due_kept | apply State.pairMismatch_kept | simp only [kept_mk] | split
    | refine kept_of_snd (by assumption) ?_ | refine kept_of_fst (by assumption) ?_ | refine kept_of_some (by assumption) ?_ | apply kept_ok
    | dsimp only

theorem execPairSigHiWrite_kept (x : Side) (o : Origin) (v : BitVec 32) (s : State) (hk : Kept s0 s) :
    KeptOut s0 (execPairSigHiWrite x o v s) := by
  unfold execPairSigHiWrite
  try dsimp only
  with_reducible repeat' first
    | assumption | intro _ | apply State.setPairCore_kept | apply State.pairAccess_kept | simp only [kept_mk] | apply kept_ok | dsimp only

theorem State.sigMatch_kept (s : State) (x : Side) (bad : Bool) (hk : Kept s0 s) : Kept s0 (State.sigMatch s x bad) := by
  unfold State.sigMatch
  try dsimp only
  with_reducible repeat' first
    | assumption | exact Kept.refl _ | apply State.inc_kept | apply State.setSide_kept | apply State.pairMismatch_kept
    | (apply kept_then; (focus ((repeat' first | exact Kept.refl _ | apply State.inc_kept | apply State.setSide_kept | apply State.pairMismatch_kept | apply kept_ite); done)))
    | apply kept_ite | simp only [kept_mk] | split | refine kept_of_snd (by assumption) ?_ | refine kept_of_fst (by assumption) ?_
    | refine kept_of_some (by assumption) ?_ | dsimp only

theorem State.pairSigLo_kept (s : State) (x : Side) (c : Nat) (v : Nat) (bad : Bool) (hk : Kept s0 s) :
    Kept s0 (State.pairSigLo s x c v bad) := by
  unfold State.pairSigLo
  try dsimp only
  with_reducible repeat' first
    | assumption | apply State.setPairCore_kept | apply State.pairMismatch_kept | apply State.sigMatch_kept | apply kept_ite
    | simp only [kept_mk] | split | dsimp only

theorem execPairSigLoWrite_kept (x : Side) (o : Origin) (v : BitVec 32) (bad : Bool) (s : State) (hk : Kept s0 s) :
    KeptOut s0 (execPairSigLoWrite x o v bad s) := by
  unfold execPairSigLoWrite
  with_reducible repeat' first
    | assumption | intro _ | apply State.pairAccess_kept | apply State.pairSigLo_kept | apply kept_ok

theorem execPairSigTimeout_kept (x : Side) (s : State) (hk : Kept s0 s) : KeptOut s0 (execPairSigTimeout x s) := by
  unfold execPairSigTimeout
  try dsimp only
  with_reducible repeat' first
    | assumption | apply State.due_kept | apply State.pairMismatch_kept | simp only [kept_mk] | split
    | refine kept_of_snd (by assumption) ?_ | refine kept_of_fst (by assumption) ?_ | refine kept_of_some (by assumption) ?_ | apply kept_ok
    | dsimp only

theorem State.pairRplHi_kept (s : State) (x : Side) (c : Nat) (hk : Kept s0 s) : Kept s0 (State.pairRplHi s x c) := by
  unfold State.pairRplHi
  try dsimp only
  with_reducible repeat' first
    | assumption | apply State.pairPull_kept | apply State.setPairCore_kept | simp only [kept_mk] | dsimp only

theorem execPairRplHiRead_kept (x : Side) (o : Origin) (s : State) (hk : Kept s0 s) : KeptOut s0 (execPairRplHiRead x o s) := by
  unfold execPairRplHiRead
  with_reducible repeat' first
    | assumption | intro _ | apply State.pairAccess_kept | apply State.pairRplHi_kept | apply kept_ok

end Sys2Proof.Machine
end

