-- ==== Sys2Proof/Laws/KeptSpark.lean ====
section
/-! SUPPORT. The definitions of Machine/Spark.lean keep what every effect keeps: the queue, time, the count of free values, and the
canonical forms. -/
namespace Sys2Proof.Machine
open Sys2Proof

set_option linter.unusedVariables false
set_option linter.unusedSimpArgs false
set_option linter.unusedTactic false
set_option linter.unreachableTactic false
set_option linter.tactic.unusedName false

variable {s0 : State}

theorem State.sparkFlag_kept (s : State) (m : Matcher) (f : Fld) (hk : Kept s0 s) : Kept s0 (State.sparkFlag s m f) := by
  unfold State.sparkFlag
  try dsimp only
  with_reducible repeat' first
    | assumption | apply State.set_kept | apply State.intr_kept | apply kept_ite | simp only [kept_mk] | split
    | refine kept_of_snd (by assumption) ?_ | refine kept_of_fst (by assumption) ?_ | refine kept_of_some (by assumption) ?_ | dsimp only

theorem State.sparkEvent_kept (s : State) (m : Matcher) (n : Nat) (code : Nat) (words : List Nat) (hk : Kept s0 s) :
    Kept s0 (State.sparkEvent s m n code words) := by
  unfold State.sparkEvent
  try dsimp only
  with_reducible repeat' first
    | assumption | apply State.event_kept | apply State.eventBoth_kept | apply State.setMatcher_kept | apply State.mn_kept
    | simp only [kept_mk] | split | refine kept_of_snd (by assumption) ?_ | refine kept_of_fst (by assumption) ?_
    | refine kept_of_some (by assumption) ?_ | dsimp only

theorem State.lineSend_kept (s : State) (m : Matcher) (d : Nat) (a : SparkAction) (hk : Kept s0 s) :
    Kept s0 (State.lineSend s m d a) := by
  unfold State.lineSend
  try dsimp only
  with_reducible repeat' first
    | assumption | apply State.setMatcher_kept | apply State.mn_kept | apply kept_ite | simp only [kept_mk] | split | dsimp only

theorem State.fire_kept (s : State) (m : Matcher) (n : Nat) (e : Stimulus) (hk : Kept s0 s) : Kept s0 (State.fire s m n e) := by
  unfold State.fire
  try dsimp only
  with_reducible repeat' first
    | assumption | exact Kept.refl _ | apply State.setMatcher_kept | apply State.mw_kept | apply State.mn_kept | apply State.sparkFlag_kept
    | apply State.sparkEvent_kept | apply State.lineSend_kept
    | (apply kept_then; (focus ((repeat' first | exact Kept.refl _ | apply State.setMatcher_kept | apply State.mw_kept | apply State.mn_kept | apply State.sparkFlag_kept | apply State.sparkEvent_kept | apply State.lineSend_kept | apply kept_ite); done)))
    | apply kept_ite | simp only [kept_mk] | split | dsimp only

theorem State.ruleTakes_kept (s : State) (m : Matcher) (e : Stimulus) (n : Nat) (hk : Kept s0 s) :
    Kept s0 (State.ruleTakes s m e n) := by
  unfold State.ruleTakes
  try dsimp only
  with_reducible repeat' first
    | assumption | exact Kept.refl _ | apply State.mn_kept | apply State.sparkFlag_kept | apply State.sparkEvent_kept
    | apply State.fire_kept
    | (apply kept_then; (focus ((repeat' first | exact Kept.refl _ | apply State.mn_kept | apply State.sparkFlag_kept | apply State.sparkEvent_kept | apply State.fire_kept | apply kept_ite); done)))
    | apply kept_ite | split | dsimp only

theorem State.sparkTake_kept (s : State) (m : Matcher) (e : Stimulus) (hk : Kept s0 s) : Kept s0 (State.sparkTake s m e) := by
  unfold State.sparkTake
  with_reducible repeat' first
    | assumption | intro _ | apply State.each_kept | apply State.ruleTakes_kept | apply kept_ite | split

theorem execSparkSourceEvent_kept (m : Matcher) (s : State) (hk : Kept s0 s) : KeptOut s0 (execSparkSourceEvent m s) := by
  unfold execSparkSourceEvent
  try dsimp only
  with_reducible repeat' first
    | assumption | apply State.setMatcher_kept | apply State.sparkTake_kept | simp only [kept_mk] | split
    | refine kept_of_snd (by assumption) ?_ | refine kept_of_fst (by assumption) ?_ | refine kept_of_some (by assumption) ?_ | apply kept_ok
    | dsimp only

theorem State.sparkAct_kept (s : State) (c : Nat) (w : Nat) (a : Act) (slew : Nat) (compared : Bool) (hk : Kept s0 s) :
    Kept s0 (State.sparkAct s c w a slew compared).1 := by
  unfold State.sparkAct
  try dsimp only
  with_reducible repeat' first
    | assumption | apply State.act_kept | apply kept_ite | simp only [kept_mk] | split | refine kept_of_snd (by assumption) ?_
    | refine kept_of_fst (by assumption) ?_ | refine kept_of_some (by assumption) ?_ | dsimp only

theorem State.sparkApply_kept (s : State) (d : Nat) (a : SparkAction) (hk : Kept s0 s) : Kept s0 (State.sparkApply s d a).1 := by
  unfold State.sparkApply
  try dsimp only
  with_reducible repeat' first
    | assumption | intro _ | exact Kept.refl _ | apply State.setBit_kept | apply State.act_kept | apply State.sparkAct_kept
    | apply kept_foldl | apply kept_foldl_fst | apply kept_foldl_snd
    | (apply kept_then; (focus ((repeat' first | exact Kept.refl _ | apply State.setBit_kept | apply State.act_kept | apply State.sparkAct_kept | apply kept_ite); done)))
    | apply kept_ite | simp only [kept_mk] | split | refine kept_of_snd (by assumption) ?_ | refine kept_of_fst (by assumption) ?_
    | refine kept_of_some (by assumption) ?_ | dsimp only

theorem execSparkActionArrival_kept (m : Matcher) (d : Fin 4) (s : State) (hk : Kept s0 s) :
    KeptOut s0 (execSparkActionArrival m d s) := by
  unfold execSparkActionArrival
  try dsimp only
  with_reducible repeat' first
    | assumption | apply State.inc_kept | apply State.setMatcher_kept | apply State.sparkApply_kept | apply kept_ite | simp only [kept_mk]
    | split | refine kept_of_snd (by assumption) ?_ | refine kept_of_fst (by assumption) ?_ | refine kept_of_some (by assumption) ?_
    | apply kept_ok | dsimp only

theorem State.sparkAnswered_kept (s : State) (m : Matcher) (r : SparkReply) (hk : Kept s0 s) :
    Kept s0 (State.sparkAnswered s m r) := by
  unfold State.sparkAnswered
  try dsimp only
  with_reducible repeat' first
    | assumption | apply State.mn_kept | apply State.sparkFlag_kept | apply State.sparkEvent_kept | apply kept_ite | split | dsimp only

theorem execSparkAnswer_kept (m : Matcher) (d : Fin 4) (s : State) (hk : Kept s0 s) : KeptOut s0 (execSparkAnswer m d s) := by
  unfold execSparkAnswer
  try dsimp only
  with_reducible repeat' first
    | assumption | apply State.setMatcher_kept | apply State.sparkAnswered_kept | simp only [kept_mk] | split
    | refine kept_of_snd (by assumption) ?_ | refine kept_of_fst (by assumption) ?_ | refine kept_of_some (by assumption) ?_ | apply kept_ok
    | dsimp only

theorem State.onRule_kept (s : State) (j : Job) (token : Bool) (f : State → Matcher → Nat → State) (hf : ∀ (y0 : State) (y1 : Matcher) (y2 : Nat), Kept s0 y0 → Kept s0 (f y0 y1 y2)) (hk : Kept s0 s) :
    Kept s0 (State.onRule s j token f) := by
  unfold State.onRule
  try dsimp only
  with_reducible repeat' first
    | assumption | intro _ | apply State.done_kept | apply State.doneAbsent_kept | apply hf | apply kept_ite | simp only [kept_mk] | split
    | refine kept_of_snd (by assumption) ?_ | refine kept_of_fst (by assumption) ?_ | refine kept_of_some (by assumption) ?_ | dsimp only

theorem State.showCompared_kept (s : State) (m : Matcher) (n : Nat) (hk : Kept s0 s) : Kept s0 (State.showCompared s m n) := by
  unfold State.showCompared
  with_reducible repeat' first
    | assumption | apply State.mw_kept

theorem State.markRule_kept (s : State) (m : Matcher) (n : Nat) (b : Nat) (v : Bool) (hk : Kept s0 s) :
    Kept s0 (State.markRule s m n b v) := by
  unfold State.markRule
  try dsimp only
  with_reducible repeat' first
    | assumption | apply State.setBit_kept | apply State.clearBit_kept | apply State.setMatcher_kept | apply State.showCompared_kept
    | apply kept_ite | simp only [kept_mk] | split | dsimp only

theorem execSpkRuleWrite_kept (x : Side) (s : State) (hk : Kept s0 s) : KeptOut s0 (execSpkRuleWrite x s) := by
  unfold execSpkRuleWrite
  try dsimp only
  with_reducible repeat' first
    | assumption | intro _ | apply State.each_kept | apply State.setMatcher_kept | apply State.mw_kept | apply State.done_kept
    | apply State.chromir_kept | apply State.onRule_kept | apply State.markRule_kept | simp only [kept_mk] | apply kept_ok | dsimp only

theorem execSpkRuleEnable_kept (x : Side) (s : State) (hk : Kept s0 s) : KeptOut s0 (execSpkRuleEnable x s) := by
  unfold execSpkRuleEnable
  try dsimp only
  with_reducible repeat' first
    | assumption | intro _ | apply State.mw_kept | apply State.done_kept | apply State.chromir_kept | apply State.onRule_kept
    | apply State.markRule_kept | apply kept_ite | split | apply kept_ok | dsimp only

theorem execSpkRuleQuery_kept (x : Side) (s : State) (hk : Kept s0 s) : KeptOut s0 (execSpkRuleQuery x s) := by
  unfold execSpkRuleQuery
  with_reducible repeat' first
    | assumption | intro _ | apply State.done_kept | apply State.chromir_kept | apply State.onRule_kept | apply kept_ok

theorem execSpkStats_kept (x : Side) (s : State) (hk : Kept s0 s) : KeptOut s0 (execSpkStats x s) := by
  unfold execSpkStats
  with_reducible repeat' first
    | assumption | intro _ | apply State.done_kept | apply State.chromir_kept | apply State.onRule_kept | apply kept_ok

theorem State.rulesOff_kept (s : State) (m : Matcher) (w : Option Nat) (hk : Kept s0 s) : Kept s0 (State.rulesOff s m w) := by
  unfold State.rulesOff
  with_reducible repeat' first
    | assumption | intro _ | apply State.each_kept | apply State.mw_kept | apply kept_ite | split

end Sys2Proof.Machine
end

