-- ==== Sys2Proof/Laws/KeptWorlds.lean ====
section
/-! SUPPORT. The definitions of Machine/Worlds.lean keep what every effect keeps: the queue, time, the count of free values, and the
canonical forms. -/
namespace Sys2Proof.Machine
open Sys2Proof

set_option linter.unusedVariables false
set_option linter.unusedSimpArgs false
set_option linter.unusedTactic false
set_option linter.unreachableTactic false
set_option linter.tactic.unusedName false

variable {s0 : State}

theorem State.setWorld_kept (s : State) (x : Side) (w : Nat) (n : Nat) (hk : Kept s0 s) : Kept s0 (State.setWorld s x w n) := by
  unfold State.setWorld
  with_reducible repeat' first
    | assumption | apply State.set_kept

theorem State.worldLog_kept (s : State) (x : Side) (code : Nat) (w : Nat) (hk : Kept s0 s) :
    Kept s0 (State.worldLog s x code w) := by
  unfold State.worldLog
  with_reducible repeat' first
    | assumption | apply State.took_kept | apply State.log_kept

theorem State.bootFail_kept (s : State) (x : Side) (hk : Kept s0 s) : Kept s0 (State.bootFail s x) := by
  unfold State.bootFail
  with_reducible repeat' first
    | assumption | apply State.took_kept | apply State.log_kept

theorem State.bootSlot_kept (s : State) (x : Side) (t : Nat) (hk : Kept s0 s) : Kept s0 (State.bootSlot s x t) := by
  unfold State.bootSlot
  try dsimp only
  with_reducible repeat' first
    | assumption | apply State.setSide_kept | apply State.log_kept | apply State.bootFail_kept | apply kept_ite | simp only [kept_mk]
    | split | dsimp only

theorem State.pairStarts_kept (s : State) (x : Side) (w : Nat) (hk : Kept s0 s) : Kept s0 (State.pairStarts s x w) := by
  unfold State.pairStarts
  try dsimp only
  with_reducible repeat' first
    | assumption | exact Kept.refl _ | apply State.pairCoreRun_kept | apply State.pairRun_kept | apply State.bootFail_kept
    | (apply kept_then; (focus ((repeat' first | exact Kept.refl _ | apply State.pairCoreRun_kept | apply State.pairRun_kept | apply State.bootFail_kept | apply kept_ite); done)))
    | apply kept_ite | split | dsimp only

theorem State.hartsStart_kept (s : State) (x : Side) (w : Nat) (hk : Kept s0 s) : Kept s0 (State.hartsStart s x w) := by
  unfold State.hartsStart
  try dsimp only
  with_reducible repeat' first
    | assumption | intro _ | apply State.set_kept | apply State.each_kept | apply State.setHart_kept | apply State.pairStarts_kept
    | apply kept_ite | simp only [kept_mk] | split | dsimp only

theorem State.worldLoad_kept (s : State) (x : Side) (w : Nat) (hk : Kept s0 s) : Kept s0 (State.worldLoad s x w) := by
  unfold State.worldLoad
  try dsimp only
  with_reducible repeat' first
    | assumption | apply State.set_kept | apply State.setSide_kept | apply State.write_kept | apply State.setWorld_kept
    | apply State.worldLog_kept | apply State.hartsStart_kept | apply kept_ite | simp only [kept_mk] | split
    | refine kept_of_snd (by assumption) ?_ | refine kept_of_fst (by assumption) ?_ | refine kept_of_some (by assumption) ?_ | dsimp only

theorem execWorldReady_kept (x : Side) (w : Fin 8) (s : State) (hk : Kept s0 s) : KeptOut s0 (execWorldReady x w s) := by
  unfold execWorldReady
  try dsimp only
  with_reducible repeat' first
    | assumption | exact Kept.refl _ | apply State.log_kept | apply State.bootSlot_kept | apply State.worldLoad_kept
    | (apply kept_then; (focus ((repeat' first | exact Kept.refl _ | apply State.log_kept | apply State.bootSlot_kept | apply State.worldLoad_kept | apply kept_ite); done)))
    | apply kept_ite | split | apply kept_ok | dsimp only

theorem execWorldImageVerified_kept (x : Side) (w : Fin 8) (s : State) (hk : Kept s0 s) :
    KeptOut s0 (execWorldImageVerified x w s) := by
  unfold execWorldImageVerified
  try dsimp only
  with_reducible repeat' first
    | assumption | intro _ | exact Kept.refl _ | apply State.setBit_kept | apply State.setSide_kept | apply State.setWorld_kept
    | apply State.bootSlot_kept
    | (apply kept_then; (focus ((repeat' first | exact Kept.refl _ | apply State.setBit_kept | apply State.setSide_kept | apply State.setWorld_kept | apply State.bootSlot_kept | apply kept_ite); done)))
    | apply kept_ite | simp only [kept_mk] | split | apply kept_ok | dsimp only

theorem State.unwind_kept (s : State) (x : Side) (w : Nat) (h : Nat) (hk : Kept s0 s) : Kept s0 (State.unwind s x w h) := by
  unfold State.unwind
  try dsimp only
  with_reducible repeat' first
    | assumption | intro _ | apply State.gateFault_kept | apply State.gatePop_kept | simp only [kept_mk] | split
    | refine kept_of_snd (by assumption) ?_ | refine kept_of_fst (by assumption) ?_ | refine kept_of_some (by assumption) ?_ | dsimp only

theorem State.hartsStop_kept (s : State) (x : Side) (w : Nat) (hk : Kept s0 s) : Kept s0 (State.hartsStop s x w) := by
  unfold State.hartsStop
  try dsimp only
  with_reducible repeat' first
    | assumption | intro _ | exact Kept.refl _ | apply State.set_kept | apply State.each_kept | apply State.coreReset_kept
    | apply State.pairCoreRun_kept | apply State.pairRun_kept | apply State.pairReset_kept | apply State.unwind_kept
    | (apply kept_then; (focus ((repeat' first | exact Kept.refl _ | apply State.set_kept | apply State.each_kept | apply State.coreReset_kept | apply State.pairCoreRun_kept | apply State.pairRun_kept | apply State.pairReset_kept | apply State.unwind_kept | apply kept_ite); done)))
    | apply kept_ite | split | dsimp only

theorem State.worldClear_kept (s : State) (x : Side) (w : Nat) (hk : Kept s0 s) : Kept s0 (State.worldClear s x w) := by
  unfold State.worldClear
  try dsimp only
  with_reducible repeat' first
    | assumption | intro _ | exact Kept.refl _ | apply State.set_kept | apply State.clearBit_kept | apply State.each_kept
    | apply State.dmaHalt_kept | apply State.doorFlush_kept | apply State.stokeFlush_kept | apply State.rulesOff_kept
    | (apply kept_then; (focus ((repeat' first | exact Kept.refl _ | apply State.set_kept | apply State.clearBit_kept | apply State.each_kept | apply State.dmaHalt_kept | apply State.doorFlush_kept | apply State.stokeFlush_kept | apply State.rulesOff_kept | apply kept_ite); done)))
    | apply kept_ite | split | dsimp only

theorem State.cleanUp_kept (s : State) (x : Side) (w : Nat) (hk : Kept s0 s) : Kept s0 (State.cleanUp s x w) := by
  unfold State.cleanUp
  with_reducible repeat' first
    | assumption | apply State.hartsStop_kept | apply State.worldClear_kept

theorem State.worldRestart_kept (s : State) (x : Side) (w : Nat) (hk : Kept s0 s) : Kept s0 (State.worldRestart s x w) := by
  unfold State.worldRestart
  try dsimp only
  with_reducible repeat' first
    | assumption | apply State.set_kept | apply State.inc_kept | apply State.log_kept | apply State.setWorld_kept | apply State.cleanUp_kept
    | apply kept_ite | split | dsimp only

theorem State.worldFail_kept (s : State) (x : Side) (w : Nat) (hk : Kept s0 s) : Kept s0 (State.worldFail s x w) := by
  unfold State.worldFail
  try dsimp only
  with_reducible repeat' first
    | assumption | intro _ | apply State.inc_kept | apply State.setSide_kept | apply State.setWorld_kept | apply State.worldLog_kept
    | apply State.cleanUp_kept | apply State.worldRestart_kept | apply kept_ite | simp only [kept_mk] | split | dsimp only

theorem execWorldWatchdog_kept (x : Side) (w : Fin 8) (s : State) (hk : Kept s0 s) : KeptOut s0 (execWorldWatchdog x w s) := by
  unfold execWorldWatchdog
  try dsimp only
  with_reducible repeat' first
    | assumption | apply State.due_kept | apply State.worldFail_kept | apply kept_ite | split | apply kept_ok | dsimp only

theorem State.worldKick_kept (s : State) (x : Side) (w : Nat) (v : Nat) (hk : Kept s0 s) : Kept s0 (State.worldKick s x w v) := by
  unfold State.worldKick
  try dsimp only
  with_reducible repeat' first
    | assumption | apply State.setSide_kept | apply kept_ite | simp only [kept_mk] | split | dsimp only

theorem execWldKick_kept (x : Side) (o : Origin) (w : Fin 8) (v : BitVec 32) (s : State) (hk : Kept s0 s) :
    KeptOut s0 (execWldKick x o w v s) := by
  unfold execWldKick
  with_reducible repeat' first
    | assumption | intro _ | apply State.guarded_kept | apply State.worldKick_kept | apply kept_ok

theorem execWldStatus_kept (x : Side) (s : State) (hk : Kept s0 s) : KeptOut s0 (execWldStatus x s) := by
  unfold execWldStatus
  try dsimp only
  with_reducible repeat' first
    | assumption | intro _ | apply State.done_kept | apply State.chromir_kept | apply kept_ok | dsimp only

theorem execWldRestart_kept (x : Side) (s : State) (hk : Kept s0 s) : KeptOut s0 (execWldRestart x s) := by
  unfold execWldRestart
  with_reducible repeat' first
    | assumption | intro _ | apply State.done_kept | apply State.chromir_kept | apply State.worldRestart_kept | apply kept_ok

theorem execWldMeasureGet_kept (x : Side) (s : State) (hk : Kept s0 s) : KeptOut s0 (execWldMeasureGet x s) := by
  unfold execWldMeasureGet
  try dsimp only
  with_reducible repeat' first
    | assumption | intro _ | apply State.done_kept | apply State.chromir_kept | apply kept_ok | dsimp only

end Sys2Proof.Machine
end

