-- ==== Sys2Proof/Laws/KeptDma.lean ====
section
/-! SUPPORT. The definitions of Machine/Dma.lean keep what every effect keeps: the queue, time, the count of free values, and the
canonical forms. -/
namespace Sys2Proof.Machine
open Sys2Proof

set_option linter.unusedVariables false
set_option linter.unusedSimpArgs false
set_option linter.unusedTactic false
set_option linter.unreachableTactic false
set_option linter.tactic.unusedName false

variable {s0 : State}

theorem State.intrClaim_kept (s : State) (x : Side) (w : Nat) (hk : Kept s0 s) : Kept s0 (State.intrClaim s x w) := by
  unfold State.intrClaim
  try dsimp only
  with_reducible repeat' first
    | assumption | apply State.clearBit_kept | apply State.intr_kept | apply kept_ite | simp only [kept_mk] | split
    | refine kept_of_snd (by assumption) ?_ | refine kept_of_fst (by assumption) ?_ | refine kept_of_some (by assumption) ?_ | dsimp only

theorem execIntrClaim_kept (x : Side) (o : Origin) (w : Fin 8) (s : State) (hk : Kept s0 s) :
    KeptOut s0 (execIntrClaim x o w s) := by
  unfold execIntrClaim
  with_reducible repeat' first
    | assumption | intro _ | apply State.guarded_kept | apply State.intrClaim_kept | apply kept_ok

theorem State.dmaRefuse_kept (s : State) (x : Side) (n : Nat) (code : Nat) (hk : Kept s0 s) :
    Kept s0 (State.dmaRefuse s x n code) := by
  unfold State.dmaRefuse
  with_reducible repeat' first
    | assumption | apply State.took_kept | apply State.log_kept | apply State.dmaErr_kept

theorem State.dmaCtrl_kept (s : State) (x : Side) (n : Nat) (v : Nat) (hk : Kept s0 s) : Kept s0 (State.dmaCtrl s x n v) := by
  unfold State.dmaCtrl
  try dsimp only
  with_reducible repeat' first
    | assumption | exact Kept.refl _ | apply State.set_kept | apply State.setSide_kept | apply State.dmaHalt_kept
    | apply State.dmaRefuse_kept
    | (apply kept_then; (focus ((repeat' first | exact Kept.refl _ | apply State.set_kept | apply State.setSide_kept | apply State.dmaHalt_kept | apply State.dmaRefuse_kept | apply kept_ite); done)))
    | apply kept_ite | simp only [kept_mk] | split | dsimp only

theorem State.dmaMoved_kept (s : State) (x : Side) (n : Nat) (size : Nat) (hk : Kept s0 s) :
    Kept s0 (State.dmaMoved s x n size) := by
  unfold State.dmaMoved
  try dsimp only
  with_reducible repeat' first
    | assumption | exact Kept.refl _ | apply State.set_kept | apply State.add_kept | apply State.setSide_kept | apply State.dmaDone_kept
    | (apply kept_then; (focus ((repeat' first | exact Kept.refl _ | apply State.set_kept | apply State.add_kept | apply State.setSide_kept | apply State.dmaDone_kept | apply kept_ite); done)))
    | apply kept_ite | simp only [kept_mk] | split | dsimp only

theorem State.dmaAnswer_kept (s : State) (x : Side) (t : Txn) (r : Resp) (hk : Kept s0 s) : Kept s0 (State.dmaAnswer s x t r) := by
  unfold State.dmaAnswer
  try dsimp only
  with_reducible repeat' first
    | assumption | apply State.setSide_kept | apply State.dmaMoved_kept | apply kept_ite | simp only [kept_mk] | split
    | refine kept_of_snd (by assumption) ?_ | refine kept_of_fst (by assumption) ?_ | refine kept_of_some (by assumption) ?_ | dsimp only

theorem execDmaGo_kept (x : Side) (o : Origin) (n : Fin 32) (v : BitVec 32) (s : State) (hk : Kept s0 s) :
    KeptOut s0 (execDmaGo x o n v s) := by
  unfold execDmaGo
  with_reducible repeat' first
    | assumption | intro _ | apply State.busError_kept | apply State.guarded_kept | apply State.dmaCtrl_kept | apply kept_ite | split
    | apply kept_ok

end Sys2Proof.Machine
end

