-- ==== Sys2Proof/Laws/KeptRecords.lean ====
section
/-! SUPPORT. The definitions of Machine/Records.lean keep what every effect keeps: the queue, time, the count of free values, and the
canonical forms. -/
namespace Sys2Proof.Machine
open Sys2Proof

set_option linter.unusedVariables false
set_option linter.unusedSimpArgs false
set_option linter.unusedTactic false
set_option linter.unreachableTactic false
set_option linter.tactic.unusedName false

variable {s0 : State}

theorem State.ashSel_kept (s : State) (x : Side) (v : Nat) (hk : Kept s0 s) : Kept s0 (State.ashSel s x v) := by
  unfold State.ashSel
  try dsimp only
  with_reducible repeat' first
    | assumption | intro _ | apply State.set_kept | apply kept_foldl | dsimp only

theorem execAshSelWrite_kept (x : Side) (o : Origin) (v : BitVec 32) (s : State) (hk : Kept s0 s) :
    KeptOut s0 (execAshSelWrite x o v s) := by
  unfold execAshSelWrite
  with_reducible repeat' first
    | assumption | intro _ | apply State.guarded_kept | apply State.ashSel_kept | apply kept_ok

theorem execLogRead_kept (x : Side) (s : State) (hk : Kept s0 s) : KeptOut s0 (execLogRead x s) := by
  unfold execLogRead
  try dsimp only
  with_reducible repeat' first
    | assumption | intro _ | apply State.done_kept | apply State.chromir_kept | apply kept_ok | dsimp only

theorem execLogMark_kept (x : Side) (s : State) (hk : Kept s0 s) : KeptOut s0 (execLogMark x s) := by
  unfold execLogMark
  try dsimp only
  with_reducible repeat' first
    | assumption | intro _ | apply State.log_kept | apply State.done_kept | apply State.chromir_kept | apply kept_ok | dsimp only

theorem State.ashFlush_kept (s : State) (x : Side) (cause : Nat) (hk : Kept s0 s) : Kept s0 (State.ashFlush s x cause) := by
  unfold State.ashFlush
  try dsimp only
  with_reducible repeat' first
    | assumption | intro _ | apply State.setSide_kept | apply State.store_kept | simp only [kept_mk] | dsimp only

theorem State.flushKeep_kept (s : State) (x : Side) (k : Nat) (hk : Kept s0 s) : Kept s0 (State.flushKeep s x k) := by
  unfold State.flushKeep
  try dsimp only
  with_reducible repeat' first
    | assumption | intro _ | apply State.each_kept | apply State.store_kept | apply kept_ite | split | dsimp only

theorem State.flushBoot_kept (s : State) (x : Side) (hk : Kept s0 s) : Kept s0 (State.flushBoot s x) := by
  unfold State.flushBoot
  try dsimp only
  with_reducible repeat' first
    | assumption | exact Kept.refl _ | apply State.setSide_kept | apply State.log_kept | apply State.erase_kept | apply State.flushKeep_kept
    | (apply kept_then; (focus ((repeat' first | exact Kept.refl _ | apply State.setSide_kept | apply State.log_kept | apply State.erase_kept | apply State.flushKeep_kept | apply kept_ite); done)))
    | apply kept_ite | simp only [kept_mk] | split | dsimp only

end Sys2Proof.Machine
end

