-- ==== Sys2Proof/Laws/KeptWalk.lean ====
section
/-! SUPPORT. The definitions of Machine/Walk.lean keep what every effect keeps: the queue, time, the count of free values, and the
canonical forms. -/
namespace Sys2Proof.Machine
open Sys2Proof

set_option linter.unusedVariables false
set_option linter.unusedSimpArgs false
set_option linter.unusedTactic false
set_option linter.unreachableTactic false
set_option linter.tactic.unusedName false

variable {s0 : State}

theorem State.walked_kept (s : State) (x : Side) (m : WalkMem) (hk : Kept s0 s) : Kept s0 (State.walked s x m) := by
  unfold State.walked
  with_reducible repeat' first
    | assumption | intro _ | apply State.each_kept | apply State.eccSeen_kept

theorem State.walkFails_kept (s : State) (x : Side) (h : Nat) (va : Nat) (e : WalkErr) (hk : Kept s0 s) :
    Kept s0 (State.walkFails s x h va e) := by
  unfold State.walkFails
  try dsimp only
  with_reducible repeat' first
    | assumption | apply State.logFault_kept | apply State.exception_kept | apply State.wotViolation_kept | apply State.eccSeen_kept
    | apply kept_ite | simp only [kept_mk] | split | refine kept_of_snd (by assumption) ?_ | refine kept_of_fst (by assumption) ?_
    | refine kept_of_some (by assumption) ?_ | dsimp only

end Sys2Proof.Machine
end

