-- ==== Sys2Proof/Laws/KeptBus.lean ====
section
/-! SUPPORT. The definitions of Machine/Bus.lean keep what every effect keeps: the queue, time, the count of free values, and the
canonical forms. -/
namespace Sys2Proof.Machine
open Sys2Proof

set_option linter.unusedVariables false
set_option linter.unusedSimpArgs false
set_option linter.unusedTactic false
set_option linter.unreachableTactic false
set_option linter.tactic.unusedName false

variable {s0 : State}

theorem State.regRead_kept (s : State) (x : Side) (o : Origin) (a : Nat) (size : Nat) (h : Holder) (r : Reg) (i : Nat) (hk : Kept s0 s) :
    Kept s0 (State.regRead s x o a size h r i) := by
  unfold State.regRead
  try dsimp only
  with_reducible repeat' first
    | assumption | intro _ | exact Kept.refl _ | apply State.perfRead_kept | apply State.hartAccess_kept | apply State.lockRead_kept
    | apply State.timeRead_kept | apply State.doorAccess_kept | apply State.doorRead_kept | apply State.doorReadHi_kept
    | apply State.pairAccess_kept | apply State.pairRplHi_kept | apply State.intrClaim_kept
    | (apply kept_then; (focus ((repeat' first | exact Kept.refl _ | apply State.perfRead_kept | apply State.hartAccess_kept | apply State.lockRead_kept | apply State.timeRead_kept | apply State.doorAccess_kept | apply State.doorRead_kept | apply State.doorReadHi_kept | apply State.pairAccess_kept | apply State.pairRplHi_kept | apply State.intrClaim_kept | apply kept_ite); done)))
    | apply kept_ite | simp only [kept_mk] | split | dsimp only

theorem State.storageRead_kept (s : State) (x : Side) (o : Origin) (m : PageMem) (a : Nat) (size : Nat) (e : Ecc) (hk : Kept s0 s) :
    Kept s0 (State.storageRead s x o m a size e) := by
  unfold State.storageRead
  try dsimp only
  with_reducible repeat' first
    | assumption | apply State.busError_kept | apply State.canEcc_kept | apply kept_ite | simp only [kept_mk] | split
    | refine kept_of_snd (by assumption) ?_ | refine kept_of_fst (by assumption) ?_ | refine kept_of_some (by assumption) ?_ | dsimp only

theorem State.unitRead_kept (s : State) (x : Side) (o : Origin) (a : Nat) (off : Nat) (size : Nat) (e : Ecc) (hk : Kept s0 s) :
    Kept s0 (State.unitRead s x o a off size e) := by
  unfold State.unitRead
  try dsimp only
  with_reducible repeat' first
    | assumption | apply State.busError_kept | apply State.regRead_kept | apply State.storageRead_kept | apply kept_ite
    | simp only [kept_mk] | split | refine kept_of_snd (by assumption) ?_ | refine kept_of_fst (by assumption) ?_
    | refine kept_of_some (by assumption) ?_ | apply kept_ok | dsimp only

theorem State.setMasked_kept (s : State) (h : Holder) (f : Fld) (i : Nat) (v : Nat) (m : Nat) (hk : Kept s0 s) :
    Kept s0 (State.setMasked s h f i v m) := by
  unfold State.setMasked
  with_reducible repeat' first
    | assumption | apply State.set_kept | split

theorem State.regWrite_kept (s : State) (x : Side) (o : Origin) (a : Nat) (size : Nat) (v : Nat) (h : Holder) (r : Reg) (i : Nat) (hk : Kept s0 s) :
    Kept s0 (State.regWrite s x o a size v h r i) := by
  unfold State.regWrite
  try dsimp only
  with_reducible repeat' first
    | assumption | intro _ | exact Kept.refl _ | apply State.set_kept | apply State.each_kept | apply State.ashFill_kept
    | apply State.writeReg_kept | apply State.lifeGo_kept | apply State.lifeRelease_kept | apply State.netifKick_kept | apply State.swi_kept
    | apply State.hartAccess_kept | apply State.atCtrl_kept | apply State.lockCtrl_kept | apply State.rxqAck_kept | apply State.txSet_kept
    | apply State.txCancel_kept | apply State.shadowCtrl_kept | apply State.keysGo_kept | apply State.wotGo_kept | apply State.secClear_kept
    | apply State.pokerCtrl_kept | apply State.ckptGo_kept | apply State.doorAccess_kept | apply State.doorCmd_kept
    | apply State.doorHi_kept | apply State.doorLo_kept | apply State.doorCtrl_kept | apply State.setPairCore_kept
    | apply State.pairAccess_kept | apply State.pairOutLo_kept | apply State.pairSigLo_kept | apply State.worldKick_kept
    | apply State.dmaCtrl_kept | apply State.ashSel_kept | apply State.setMasked_kept
    | (apply kept_then; (focus ((repeat' first | exact Kept.refl _ | apply State.set_kept | apply State.each_kept | apply State.ashFill_kept | apply State.writeReg_kept | apply State.lifeGo_kept | apply State.lifeRelease_kept | apply State.netifKick_kept | apply State.swi_kept | apply State.hartAccess_kept | apply State.atCtrl_kept | apply State.lockCtrl_kept | apply State.rxqAck_kept | apply State.txSet_kept | apply State.txCancel_kept | apply State.shadowCtrl_kept | apply State.keysGo_kept | apply State.wotGo_kept | apply State.secClear_kept | apply State.pokerCtrl_kept | apply State.ckptGo_kept | apply State.doorAccess_kept | apply State.doorCmd_kept | apply State.doorHi_kept | apply State.doorLo_kept | apply State.doorCtrl_kept | apply State.setPairCore_kept | apply State.pairAccess_kept | apply State.pairOutLo_kept | apply State.pairSigLo_kept | apply State.worldKick_kept | apply State.dmaCtrl_kept | apply State.ashSel_kept | apply State.setMasked_kept | apply kept_ite); done)))
    | apply kept_ite | simp only [kept_mk] | split | dsimp only

theorem State.unitWrite_kept (s : State) (x : Side) (o : Origin) (a : Nat) (off : Nat) (size : Nat) (v : Nat) (hk : Kept s0 s) :
    Kept s0 (State.unitWrite s x o a off size v) := by
  unfold State.unitWrite
  try dsimp only
  with_reducible repeat' first
    | assumption | apply State.storeLE_kept | apply State.busError_kept | apply State.lifeRx_kept | apply State.regWrite_kept
    | apply kept_ite | simp only [kept_mk] | split | refine kept_of_snd (by assumption) ?_ | refine kept_of_fst (by assumption) ?_
    | refine kept_of_some (by assumption) ?_ | apply kept_ok | dsimp only

theorem State.memLoad_kept (s : State) (x : Side) (o : Origin) (a : Nat) (size : Nat) (k : AccKind) (hk : Kept s0 s) :
    Kept s0 (State.memLoad s x o a size k) := by
  unfold State.memLoad
  try dsimp only
  with_reducible repeat' first
    | assumption | exact Kept.refl _ | apply State.busError_kept | apply State.memAccess_kept | apply State.waitFor_kept
    | (apply kept_then; (focus ((repeat' first | exact Kept.refl _ | apply State.busError_kept | apply State.memAccess_kept | apply State.waitFor_kept | apply kept_ite); done)))
    | apply kept_ite | simp only [kept_mk] | split | refine kept_of_snd (by assumption) ?_ | refine kept_of_fst (by assumption) ?_
    | refine kept_of_some (by assumption) ?_ | dsimp only

theorem State.memStore_kept (s : State) (x : Side) (o : Origin) (a : Nat) (size : Nat) (k : AccKind) (v : Nat) (hk : Kept s0 s) :
    Kept s0 (State.memStore s x o a size k v) := by
  unfold State.memStore
  with_reducible repeat' first
    | assumption | exact Kept.refl _ | apply State.busError_kept | apply State.memAccess_kept | apply State.waitFor_kept
    | (apply kept_then; (focus ((repeat' first | exact Kept.refl _ | apply State.busError_kept | apply State.memAccess_kept | apply State.waitFor_kept | apply kept_ite); done)))
    | apply kept_ite | split

theorem State.atomicAccess_kept (s : State) (x : Side) (o : Origin) (a : Nat) (size : Nat) (k : AccKind) (v : Nat) (hk : Kept s0 s) :
    Kept s0 (State.atomicAccess s x o a size k v) := by
  unfold State.atomicAccess
  with_reducible repeat' first
    | assumption | exact Kept.refl _ | apply State.accessFault_kept | apply State.busError_kept | apply State.memLoad_kept
    | apply State.memStore_kept
    | (apply kept_then; (focus ((repeat' first | exact Kept.refl _ | apply State.accessFault_kept | apply State.busError_kept | apply State.memLoad_kept | apply State.memStore_kept | apply kept_ite); done)))
    | apply kept_ite | split

theorem State.localAccess_kept (s : State) (x : Side) (o : Origin) (a : Nat) (size : Nat) (k : AccKind) (v : Nat) (hk : Kept s0 s) :
    Kept s0 (State.localAccess s x o a size k v) := by
  unfold State.localAccess
  try dsimp only
  with_reducible repeat' first
    | assumption | intro _ | exact Kept.refl _ | apply State.busError_kept | apply State.guarded_kept | apply State.unitRead_kept
    | apply State.unitWrite_kept | apply State.memLoad_kept | apply State.memStore_kept | apply State.atomicAccess_kept
    | (apply kept_then; (focus ((repeat' first | exact Kept.refl _ | apply State.busError_kept | apply State.guarded_kept | apply State.unitRead_kept | apply State.unitWrite_kept | apply State.memLoad_kept | apply State.memStore_kept | apply State.atomicAccess_kept | apply kept_ite); done)))
    | apply kept_ite | simp only [kept_mk] | split | refine kept_of_snd (by assumption) ?_ | refine kept_of_fst (by assumption) ?_
    | refine kept_of_some (by assumption) ?_ | dsimp only

theorem State.localRead_kept (s : State) (x : Side) (o : Origin) (a : Nat) (size : Nat) (e : Ecc) (hk : Kept s0 s) :
    Kept s0 (State.localRead s x o a size e) := by
  unfold State.localRead
  with_reducible repeat' first
    | assumption | apply State.localAccess_kept

theorem State.localWrite_kept (s : State) (x : Side) (o : Origin) (a : Nat) (size : Nat) (v : Nat) (hk : Kept s0 s) :
    Kept s0 (State.localWrite s x o a size v) := by
  unfold State.localWrite
  with_reducible repeat' first
    | assumption | apply State.store_kept | apply State.localAccess_kept

theorem State.farAccess_kept (s : State) (x : Side) (o : Origin) (i : Nat) (a : Nat) (size : Nat) (data : Option Nat) (hk : Kept s0 s) :
    Kept s0 (State.farAccess s x o i a size data) := by
  unfold State.farAccess
  try dsimp only
  with_reducible repeat' first
    | assumption | intro _ | apply State.busError_kept | apply State.guarded_kept | apply State.enter_kept | simp only [kept_mk] | split
    | refine kept_of_snd (by assumption) ?_ | refine kept_of_fst (by assumption) ?_ | refine kept_of_some (by assumption) ?_ | dsimp only

theorem State.busAccess_kept (s : State) (x : Side) (o : Origin) (a : Nat) (size : Nat) (k : AccKind) (v : Nat) (hk : Kept s0 s) :
    Kept s0 (State.busAccess s x o a size k v) := by
  unfold State.busAccess
  try dsimp only
  with_reducible repeat' first
    | assumption | intro _ | apply State.busError_kept | apply State.guarded_kept | apply State.localAccess_kept
    | apply State.farAccess_kept | apply kept_ite | simp only [kept_mk] | split | refine kept_of_snd (by assumption) ?_
    | refine kept_of_fst (by assumption) ?_ | refine kept_of_some (by assumption) ?_ | dsimp only

theorem State.thenIrq_kept (s : State) (x : Side) (o : Origin) (hk : Kept s0 s) : Kept s0 (State.thenIrq s x o) := by
  unfold State.thenIrq
  try dsimp only
  with_reducible repeat' first
    | assumption | apply State.irqTake_kept | simp only [kept_mk] | split | refine kept_of_snd (by assumption) ?_
    | refine kept_of_fst (by assumption) ?_ | refine kept_of_some (by assumption) ?_ | dsimp only

theorem State.storePart_kept (s : State) (x : Side) (o : Origin) (a : Nat) (n : Nat) (v : Nat) (hk : Kept s0 s) :
    Kept s0 (State.storePart s x o a n v) := by
  unfold State.storePart
  with_reducible repeat' first
    | assumption | apply State.store_kept | apply State.busError_kept | apply State.memStore_kept | apply kept_ite | split

theorem State.twoParts_kept (s : State) (x : Side) (o : Origin) (p : Nat) (n : Nat) (q : Nat) (m : Nat) (k : AccKind) (v : Nat) (hk : Kept s0 s) :
    Kept s0 (State.twoParts s x o p n q m k v) := by
  unfold State.twoParts
  try dsimp only
  with_reducible repeat' first
    | assumption | apply State.accessFault_kept | apply State.memLoad_kept | apply State.storePart_kept | apply kept_ite
    | simp only [kept_mk] | split | refine kept_of_snd (by assumption) ?_ | refine kept_of_fst (by assumption) ?_
    | refine kept_of_some (by assumption) ?_ | dsimp only

theorem State.splitAccess_kept (s : State) (x : Side) (o : Origin) (p : Nat) (n : Nat) (q : Nat) (m : Nat) (k : AccKind) (v : Nat) (hk : Kept s0 s) :
    Kept s0 (State.splitAccess s x o p n q m k v) := by
  unfold State.splitAccess
  try dsimp only
  with_reducible repeat' first
    | assumption | intro _ | apply State.busError_kept | apply State.guarded_kept | apply State.write_kept | apply State.busAccess_kept
    | apply State.twoParts_kept | apply kept_ite | split | dsimp only

theorem State.hartMem_kept (s : State) (x : Side) (h : Fin 4) (va : Nat) (n : Nat) (k : AccKind) (v : Nat) (es : List Ecc) (hk : Kept s0 s) :
    Kept s0 (State.hartMem s x h va n k v es) := by
  unfold State.hartMem
  try dsimp only
  with_reducible repeat' first
    | assumption | apply State.stepEnd_kept | apply State.write_kept | apply State.walked_kept | apply State.walkFails_kept
    | apply State.busAccess_kept | apply State.splitAccess_kept | apply kept_ite | simp only [kept_mk] | split
    | refine kept_of_snd (by assumption) ?_ | refine kept_of_fst (by assumption) ?_ | refine kept_of_some (by assumption) ?_ | apply kept_ok
    | dsimp only

theorem State.hartCsr_kept (s : State) (x : Side) (o : Origin) (n : Nat) (data : Option Nat) (hk : Kept s0 s) :
    Kept s0 (State.hartCsr s x o n data) := by
  unfold State.hartCsr
  try dsimp only
  with_reducible repeat' first
    | assumption | apply State.stepEnd_kept | apply State.irqTake_kept | apply State.csrAccess_kept | apply kept_ite | simp only [kept_mk]
    | split | refine kept_of_snd (by assumption) ?_ | refine kept_of_fst (by assumption) ?_ | refine kept_of_some (by assumption) ?_
    | dsimp only

theorem execRegisterWrite_kept (x : Side) (o : Origin) (addr : Word64) (wd : Width) (k : AccKind) (v : Word64) (es : List Ecc) (s : State) (hk : Kept s0 s) :
    KeptOut s0 (execRegisterWrite x o addr wd k v es s) := by
  unfold execRegisterWrite
  try dsimp only
  with_reducible repeat' first
    | assumption | exact Kept.refl _ | apply State.stepEnd_kept | apply State.busError_kept | apply State.stepDone_kept
    | apply State.noLand_kept | apply State.busAccess_kept | apply State.thenIrq_kept | apply State.hartMem_kept | apply State.hartCsr_kept
    | (apply kept_then; (focus ((repeat' first | exact Kept.refl _ | apply State.stepEnd_kept | apply State.busError_kept | apply State.stepDone_kept | apply State.noLand_kept | apply State.busAccess_kept | apply State.thenIrq_kept | apply State.hartMem_kept | apply State.hartCsr_kept | apply kept_ite); done)))
    | apply kept_ite | simp only [kept_mk] | split | refine kept_of_snd (by assumption) ?_ | refine kept_of_fst (by assumption) ?_
    | refine kept_of_some (by assumption) ?_ | apply kept_ok | dsimp only

theorem State.crossExec_kept (s : State) (x : Side) (t : Txn) (ecc : Ecc) (hk : Kept s0 s) :
    Kept s0 (State.crossExec s x t ecc) := by
  unfold State.crossExec
  try dsimp only
  with_reducible repeat' first
    | assumption | apply State.localRead_kept | apply State.localWrite_kept | apply kept_ite | simp only [kept_mk] | split
    | refine kept_of_snd (by assumption) ?_ | refine kept_of_fst (by assumption) ?_ | refine kept_of_some (by assumption) ?_ | dsimp only

theorem State.flueExec_kept (s : State) (x : Side) (t : Txn) (v : Nat) (hk : Kept s0 s) : Kept s0 (State.flueExec s x t v) := by
  unfold State.flueExec
  try dsimp only
  with_reducible repeat' first
    | assumption | exact Kept.refl _ | apply State.logFaultBoth_kept | apply State.writeReg_kept | apply State.fdbCtrl_kept
    | apply State.portCtrl_kept
    | (apply kept_then; (focus ((repeat' first | exact Kept.refl _ | apply State.logFaultBoth_kept | apply State.writeReg_kept | apply State.fdbCtrl_kept | apply State.portCtrl_kept | apply kept_ite); done)))
    | apply kept_ite | simp only [kept_mk] | split | refine kept_of_snd (by assumption) ?_ | refine kept_of_fst (by assumption) ?_
    | refine kept_of_some (by assumption) ?_ | apply kept_ok | dsimp only

theorem State.dieRead_kept (s : State) (x : Side) (t : Txn) (prod : Nat) (hk : Kept s0 s) : Kept s0 (State.dieRead s x t prod) := by
  unfold State.dieRead
  try dsimp only
  with_reducible repeat' first
    | assumption | apply State.logFaultBoth_kept | apply kept_ite | simp only [kept_mk] | split | refine kept_of_snd (by assumption) ?_
    | refine kept_of_fst (by assumption) ?_ | refine kept_of_some (by assumption) ?_ | apply kept_ok | dsimp only

theorem State.farExec_kept (s : State) (x : Side) (i : Nat) (t : Txn) (ecc : Ecc) (hk : Kept s0 s) :
    Kept s0 (State.farExec s x i t ecc) := by
  unfold State.farExec
  try dsimp only
  with_reducible repeat' first
    | assumption | exact Kept.refl _ | apply State.crossExec_kept | apply State.flueExec_kept | apply State.dieRead_kept
    | (apply kept_then; (focus ((repeat' first | exact Kept.refl _ | apply State.crossExec_kept | apply State.flueExec_kept | apply State.dieRead_kept | apply kept_ite); done)))
    | apply kept_ite | simp only [kept_mk] | split | refine kept_of_snd (by assumption) ?_ | refine kept_of_fst (by assumption) ?_
    | refine kept_of_some (by assumption) ?_ | dsimp only

theorem State.serve_kept (s : State) (x : Side) (i : Nat) (t : Txn) (ecc : Ecc) (hk : Kept s0 s) :
    Kept s0 (State.serve s x i t ecc) := by
  unfold State.serve
  try dsimp only
  with_reducible repeat' first
    | assumption | apply State.txnFails_kept | apply State.sweepLocks_kept | apply State.retire_kept | apply State.dmaAnswer_kept
    | apply State.farExec_kept | simp only [kept_mk] | split | refine kept_of_snd (by assumption) ?_ | refine kept_of_fst (by assumption) ?_
    | refine kept_of_some (by assumption) ?_ | dsimp only

theorem State.refer_kept (s : State) (x : Side) (i : Nat) (arg : BridgeRef) (hk : Kept s0 s) :
    Kept s0 (State.refer s x i arg).2 := by
  unfold State.refer
  try dsimp only
  with_reducible repeat' first
    | assumption | exact Kept.refl _ | apply State.farAccess_kept
    | (apply kept_then; (focus ((repeat' first | exact Kept.refl _ | apply State.farAccess_kept | apply kept_ite); done))) | apply kept_ite
    | simp only [kept_mk] | split | refine kept_of_snd (by assumption) ?_ | refine kept_of_fst (by assumption) ?_
    | refine kept_of_some (by assumption) ?_ | dsimp only

theorem State.lateAnswer_kept (s : State) (x : Side) (i : Nat) (hk : Kept s0 s) : Kept s0 (State.lateAnswer s x i) := by
  unfold State.lateAnswer
  try dsimp only
  with_reducible repeat' first
    | assumption | apply State.inc_kept | apply State.setBridge_kept | apply kept_ite | simp only [kept_mk] | split | dsimp only

theorem execBridgeAnswer_kept (x : Side) (i : Fin 6) (ref : BridgeRef) (ecc : Ecc) (s : State) (hk : Kept s0 s) :
    KeptOut s0 (execBridgeAnswer x i ref ecc s) := by
  unfold execBridgeAnswer
  try dsimp only
  with_reducible repeat' first
    | assumption | intro _ | apply State.serve_kept | apply State.refer_kept | apply State.lateAnswer_kept | apply kept_ite
    | simp only [kept_mk] | split | refine kept_of_snd (by assumption) ?_ | refine kept_of_fst (by assumption) ?_
    | refine kept_of_some (by assumption) ?_ | apply kept_ok | dsimp only

theorem execBridgeSplit_kept (x : Side) (i : Fin 6) (ref : BridgeRef) (s : State) (hk : Kept s0 s) :
    KeptOut s0 (execBridgeSplit x i ref s) := by
  unfold execBridgeSplit
  try dsimp only
  with_reducible repeat' first
    | assumption | intro _ | apply State.inc_kept | apply State.setBridge_kept | apply State.due_kept | apply State.refer_kept
    | apply kept_ite | simp only [kept_mk] | split | refine kept_of_snd (by assumption) ?_ | refine kept_of_fst (by assumption) ?_
    | refine kept_of_some (by assumption) ?_ | apply kept_ok | dsimp only

theorem State.lostEffect_kept (s : State) (x : Side) (i : Nat) (t : Txn) (hk : Kept s0 s) : Kept s0 (State.lostEffect s x i t) := by
  unfold State.lostEffect
  try dsimp only
  with_reducible repeat' first
    | assumption | apply State.log_kept | apply State.farExec_kept | apply kept_ite | simp only [kept_mk] | split
    | refine kept_of_snd (by assumption) ?_ | refine kept_of_fst (by assumption) ?_ | refine kept_of_some (by assumption) ?_ | dsimp only

theorem State.mayHaveDone_kept (s : State) (x : Side) (i : Nat) (t : Txn) (hk : Kept s0 s) :
    Kept s0 (State.mayHaveDone s x i t) := by
  unfold State.mayHaveDone
  with_reducible repeat' first
    | assumption | apply State.took_kept | apply State.lostEffect_kept | apply kept_ite | split

theorem execBridgeTimeout_kept (x : Side) (i : Fin 6) (ref : BridgeRef) (s : State) (hk : Kept s0 s) :
    KeptOut s0 (execBridgeTimeout x i ref s) := by
  unfold execBridgeTimeout
  try dsimp only
  with_reducible repeat' first
    | assumption | intro _ | apply State.inc_kept | apply State.setBridge_kept | apply State.due_kept | apply State.txnFails_kept
    | apply State.sweepLocks_kept | apply State.retire_kept | apply State.refer_kept | apply State.mayHaveDone_kept | apply kept_ite
    | simp only [kept_mk] | split | refine kept_of_snd (by assumption) ?_ | refine kept_of_fst (by assumption) ?_
    | refine kept_of_some (by assumption) ?_ | apply kept_ok | dsimp only

theorem State.nearEnds_kept (s : State) (x : Side) (i : Nat) (t : Txn) (hk : Kept s0 s) : Kept s0 (State.nearEnds s x i t) := by
  unfold State.nearEnds
  with_reducible repeat' first
    | assumption | apply State.inc_kept | apply State.txnFails_kept | apply kept_ite | split

theorem State.farAbsent_kept (s : State) (x : Side) (i : Nat) (cause : Nat) (hk : Kept s0 s) :
    Kept s0 (State.farAbsent s x i cause) := by
  unfold State.farAbsent
  try dsimp only
  with_reducible repeat' first
    | assumption | intro _ | exact Kept.refl _ | apply State.set_kept | apply State.inc_kept | apply State.each_kept
    | apply State.setBridge_kept | apply State.txnFails_kept | apply State.sweepLocks_kept | apply State.endLocked_kept
    | apply State.mayHaveDone_kept | apply State.nearEnds_kept
    | (apply kept_then; (focus ((repeat' first | exact Kept.refl _ | apply State.set_kept | apply State.inc_kept | apply State.each_kept | apply State.setBridge_kept | apply State.txnFails_kept | apply State.sweepLocks_kept | apply State.endLocked_kept | apply State.mayHaveDone_kept | apply State.nearEnds_kept | apply kept_ite); done)))
    | apply kept_ite | simp only [kept_mk] | split | dsimp only

theorem State.farReset_kept (s : State) (x : Side) (hk : Kept s0 s) : Kept s0 (State.farReset s x) := by
  unfold State.farReset
  try dsimp only
  with_reducible repeat' first
    | assumption | apply State.setBridge_kept | apply State.log_kept | apply State.farAbsent_kept | apply kept_ite | simp only [kept_mk]
    | split | dsimp only

theorem State.farBack_kept (s : State) (x : Side) (i : Nat) (hk : Kept s0 s) : Kept s0 (State.farBack s x i) := by
  unfold State.farBack
  try dsimp only
  with_reducible repeat' first
    | assumption | exact Kept.refl _ | apply State.set_kept | apply State.setBridge_kept | apply State.log_kept
    | (apply kept_then; (focus ((repeat' first | exact Kept.refl _ | apply State.set_kept | apply State.setBridge_kept | apply State.log_kept | apply kept_ite); done)))
    | apply kept_ite | simp only [kept_mk] | split | dsimp only

theorem State.sampleLines_kept (s : State) (x : Side) (i : Nat) (hk : Kept s0 s) : Kept s0 (State.sampleLines s x i) := by
  unfold State.sampleLines
  try dsimp only
  with_reducible repeat' first
    | assumption | intro _ | exact Kept.refl _ | apply State.each_kept | apply State.setSide_kept | apply State.intr_kept
    | (apply kept_then; (focus ((repeat' first | exact Kept.refl _ | apply State.each_kept | apply State.setSide_kept | apply State.intr_kept | apply kept_ite); done)))
    | apply kept_ite | simp only [kept_mk] | split | refine kept_of_snd (by assumption) ?_ | refine kept_of_fst (by assumption) ?_
    | refine kept_of_some (by assumption) ?_ | dsimp only

theorem execBridgePoll_kept (x : Side) (i : Fin 6) (arrives : Bool) (s : State) (hk : Kept s0 s) :
    KeptOut s0 (execBridgePoll x i arrives s) := by
  unfold execBridgePoll
  try dsimp only
  with_reducible repeat' first
    | assumption | exact Kept.refl _ | apply State.set_kept | apply State.setBridge_kept | apply State.farAbsent_kept
    | apply State.farBack_kept | apply State.sampleLines_kept
    | (apply kept_then; (focus ((repeat' first | exact Kept.refl _ | apply State.set_kept | apply State.setBridge_kept | apply State.farAbsent_kept | apply State.farBack_kept | apply State.sampleLines_kept | apply kept_ite); done)))
    | apply kept_ite | simp only [kept_mk] | split | apply kept_ok | dsimp only

end Sys2Proof.Machine
end

