-- ==== Sys2Proof/Laws/KeptCopy.lean ====
section
/-! SUPPORT. The definitions of Machine/Copy.lean keep what every effect keeps: the queue, time, the count of free values, and the
canonical forms. -/
namespace Sys2Proof.Machine
open Sys2Proof

set_option linter.unusedVariables false
set_option linter.unusedSimpArgs false
set_option linter.unusedTactic false
set_option linter.unreachableTactic false
set_option linter.tactic.unusedName false

variable {s0 : State}

theorem State.farOnce_kept (s : State) (x : Side) (i : Nat) (t : Txn) (e : Ecc) (hk : Kept s0 s) :
    Kept s0 (State.farOnce s x i t e) := by
  unfold State.farOnce
  try dsimp only
  with_reducible repeat' first
    | assumption | apply State.inc_kept | apply State.ownEvent_kept | apply State.farError_kept | apply State.farExec_kept | apply kept_ite
    | simp only [kept_mk] | split | refine kept_of_snd (by assumption) ?_ | refine kept_of_fst (by assumption) ?_
    | refine kept_of_some (by assumption) ?_ | dsimp only

theorem State.dmaAccess_kept (s : State) (x : Side) (n : Nat) (a : Nat) (size : Nat) (data : Option Nat) (e : Ecc) (hk : Kept s0 s) :
    Kept s0 (State.dmaAccess s x n a size data e).2 := by
  unfold State.dmaAccess
  try dsimp only
  with_reducible repeat' first
    | assumption | intro _ | apply State.busError_kept | apply State.guarded_kept | apply State.enter_kept | apply State.localRead_kept
    | apply State.localWrite_kept | apply State.farOnce_kept | apply kept_ite | simp only [kept_mk] | split
    | refine kept_of_snd (by assumption) ?_ | refine kept_of_fst (by assumption) ?_ | refine kept_of_some (by assumption) ?_ | dsimp only

theorem State.dmaCopy_kept (s : State) (x : Side) (n : Nat) (lost : Option Word40) (corr : Option Word40) (arg : Nat) (hk : Kept s0 s) :
    Kept s0 (State.dmaCopy s x n lost corr arg) := by
  induction arg generalizing s with
  | zero => exact hk
  | succ k ih =>
  unfold State.dmaCopy
  try dsimp only
  with_reducible repeat' first
    | assumption | intro _ | exact Kept.refl _ | apply State.set_kept | apply State.setSide_kept | apply State.dmaStop_kept
    | apply State.dmaDone_kept | apply State.dmaMoved_kept | apply State.dmaAccess_kept | apply ih
    | (apply kept_then; (focus ((repeat' first | exact Kept.refl _ | apply State.set_kept | apply State.setSide_kept | apply State.dmaStop_kept | apply State.dmaDone_kept | apply State.dmaMoved_kept | apply State.dmaAccess_kept | apply kept_ite); done)))
    | apply kept_ite | simp only [kept_mk] | split | refine kept_of_snd (by assumption) ?_ | refine kept_of_fst (by assumption) ?_
    | refine kept_of_some (by assumption) ?_ | dsimp only

theorem State.dmaPump_kept (s : State) (x : Side) (n : Nat) (arg : Nat) (hk : Kept s0 s) : Kept s0 (State.dmaPump s x n arg) := by
  induction arg generalizing s with
  | zero => exact hk
  | succ k ih =>
  unfold State.dmaPump
  try dsimp only
  with_reducible repeat' first
    | assumption | intro _ | apply State.dmaStop_kept | apply State.dmaMoved_kept | apply State.dmaAccess_kept | apply ih | apply kept_ite
    | simp only [kept_mk] | split | refine kept_of_snd (by assumption) ?_ | refine kept_of_fst (by assumption) ?_
    | refine kept_of_some (by assumption) ?_ | dsimp only

theorem execDmaCopyDone_kept (x : Side) (n : Fin 32) (lost : Option Word40) (corr : Option Word40) (s : State) (hk : Kept s0 s) :
    KeptOut s0 (execDmaCopyDone x n lost corr s) := by
  unfold execDmaCopyDone
  try dsimp only
  with_reducible repeat' first
    | assumption | apply State.dmaCopy_kept | apply State.dmaPump_kept | apply kept_ite | simp only [kept_mk] | split | apply kept_ok
    | dsimp only

theorem State.streamTake_kept (s : State) (x : Side) (v : Nat) (n : Nat) (hk : Kept s0 s) : Kept s0 (State.streamTake s x v n) := by
  unfold State.streamTake
  try dsimp only
  with_reducible repeat' first
    | assumption | intro _ | apply State.setSide_kept | apply State.dmaPump_kept | apply kept_foldl | apply kept_foldl_fst
    | apply kept_foldl_snd | simp only [kept_mk] | dsimp only

theorem State.planeDrain_kept (s : State) (x : Side) (w : PlaneWord) (hk : Kept s0 s) : Kept s0 (State.planeDrain s x w) := by
  unfold State.planeDrain
  try dsimp only
  with_reducible repeat' first
    | assumption | intro _ | apply State.clearBit_kept | apply State.each_kept | apply State.setSide_kept | apply State.streamTake_kept
    | apply kept_ite | simp only [kept_mk] | split | dsimp only

theorem execMeasurementArrival_kept (x : Side) (prod : Fin 5) (s : State) (hk : Kept s0 s) :
    KeptOut s0 (execMeasurementArrival x prod s) := by
  unfold execMeasurementArrival
  try dsimp only
  with_reducible repeat' first
    | assumption | intro _ | apply State.each_kept | apply State.due_kept | apply State.planeSend_kept | apply State.planeDrain_kept
    | apply kept_ite | simp only [kept_mk] | split | refine kept_of_snd (by assumption) ?_ | refine kept_of_fst (by assumption) ?_
    | refine kept_of_some (by assumption) ?_ | apply kept_ok | dsimp only

theorem State.windowGap_kept (s : State) (x : Side) (d : Nat) (tick : Nat) (hk : Kept s0 s) :
    Kept s0 (State.windowGap s x d tick) := by
  unfold State.windowGap
  try dsimp only
  with_reducible repeat' first
    | assumption | intro _ | apply State.each_kept | apply State.setChan_kept | apply kept_ite | simp only [kept_mk] | split | dsimp only

theorem execSampleGap_kept (x : Side) (d : Fin 4) (tick : Word40) (s : State) (hk : Kept s0 s) :
    KeptOut s0 (execSampleGap x d tick s) := by
  unfold execSampleGap
  try dsimp only
  with_reducible repeat' first
    | assumption | apply State.inc_kept | apply State.setBit_kept | apply State.setSide_kept | apply State.log_kept
    | apply State.windowGap_kept | apply kept_ite | simp only [kept_mk] | split | apply kept_ok | dsimp only

theorem execEccScrub_kept (x : Side) (corr : Word40) (bad : List Word40) (s : State) (hk : Kept s0 s) :
    KeptOut s0 (execEccScrub x corr bad s) := by
  unfold execEccScrub
  with_reducible repeat' first
    | assumption | intro _ | apply State.add_kept | apply State.each_kept | apply State.eccSeen_kept | apply kept_ite | split
    | apply kept_ok

end Sys2Proof.Machine
end

