-- ==== Sys2Proof/Laws/KeptInputs.lean ====
section
/-! SUPPORT. The definitions of Machine/Inputs.lean keep what every effect keeps: the queue, time, the count of free values, and the
canonical forms. -/
namespace Sys2Proof.Machine
open Sys2Proof

set_option linter.unusedVariables false
set_option linter.unusedSimpArgs false
set_option linter.unusedTactic false
set_option linter.unreachableTactic false
set_option linter.tactic.unusedName false

variable {s0 : State}

theorem State.ainOne_kept (s : State) (x : Side) (k : Nat) (v : Int) (hk : Kept s0 s) : Kept s0 (State.ainOne s x k v) := by
  unfold State.ainOne
  try dsimp only
  with_reducible repeat' first
    | assumption | apply State.set_kept | apply State.setBit_kept | apply State.setSide_kept | apply State.intr_kept | apply kept_ite
    | simp only [kept_mk] | split | dsimp only

theorem execAinSample_kept (x : Side) (codes : List Word40) (s : State) (hk : Kept s0 s) : KeptOut s0 (execAinSample x codes s) := by
  unfold execAinSample
  try dsimp only
  with_reducible repeat' first
    | assumption | exact kept_fault _ | intro _ | apply State.each_kept | apply State.setSide_kept | apply State.planePost_kept
    | apply State.ainOne_kept | apply kept_ite | simp only [kept_mk] | split | apply kept_ok | dsimp only

theorem execDinEdge_kept (x : Side) (n : Fin 16) (level : Bool) (s : State) (hk : Kept s0 s) :
    KeptOut s0 (execDinEdge x n level s) := by
  unfold execDinEdge
  try dsimp only
  with_reducible repeat' first
    | assumption | exact Kept.refl _ | apply State.setBit_kept | apply State.clearBit_kept | apply State.intr_kept
    | apply State.sparkPin_kept
    | (apply kept_then; (focus ((repeat' first | exact Kept.refl _ | apply State.setBit_kept | apply State.clearBit_kept | apply State.intr_kept | apply State.sparkPin_kept | apply kept_ite); done)))
    | apply kept_ite | split | apply kept_ok | dsimp only

end Sys2Proof.Machine
end

