-- ==== Sys2Proof/Laws/KeptUnits.lean ====
section
/-! SUPPORT. The definitions of Machine/Units.lean keep what every effect keeps: the queue, time, the count of free values, and the
canonical forms. -/
namespace Sys2Proof.Machine
open Sys2Proof

set_option linter.unusedVariables false
set_option linter.unusedSimpArgs false
set_option linter.unusedTactic false
set_option linter.unreachableTactic false
set_option linter.tactic.unusedName false

variable {s0 : State}

theorem State.dropRegs_kept (s : State) (h : Holder) (keep : FKey → Bool) (hk : Kept s0 s) : Kept s0 (State.dropRegs s h keep) := by
  unfold State.dropRegs
  try dsimp only
  with_reducible repeat' first
    | assumption | intro _ | apply State.hold_kept | simp only [kept_mk] | split | apply kept_regs_filter | apply kept_mem_filter
    | dsimp only

theorem State.wipe_kept (s : State) (x : Side) (a : Nat) (b : Nat) (hk : Kept s0 s) : Kept s0 (State.wipe s x a b) := by
  unfold State.wipe
  try dsimp only
  with_reducible repeat' first
    | assumption | intro _ | simp only [kept_mk] | apply kept_regs_filter | apply kept_mem_filter | dsimp only

theorem State.unitClear_kept (s : State) (x : Side) (u : UnitId) (hk : Kept s0 s) : Kept s0 (State.unitClear s x u) := by
  unfold State.unitClear
  try dsimp only
  with_reducible repeat' first
    | assumption | intro _ | exact Kept.refl _ | apply State.setSide_kept | apply State.burn_kept
    | (apply kept_then; (focus ((repeat' first | exact Kept.refl _ | apply State.setSide_kept | apply State.burn_kept | apply kept_ite); done)))
    | apply kept_ite | simp only [kept_mk] | split | refine kept_of_snd (by assumption) ?_ | refine kept_of_fst (by assumption) ?_
    | refine kept_of_some (by assumption) ?_ | dsimp only

theorem State.proxyReset_kept (s : State) (x : Side) (u : UnitId) (hk : Kept s0 s) : Kept s0 (State.proxyReset s x u) := by
  unfold State.proxyReset
  try dsimp only
  with_reducible repeat' first
    | assumption | intro _ | apply State.add_kept | apply State.each_kept | apply State.log_kept | apply State.answer_kept
    | apply State.unitClear_kept | apply kept_ite | split | dsimp only

theorem State.dieReset_kept (s : State) (d : Nat) (hk : Kept s0 s) : Kept s0 (State.dieReset s d) := by
  unfold State.dieReset
  try dsimp only
  with_reducible repeat' first
    | assumption | intro _ | apply State.each_kept | apply State.setSide_kept | apply State.setDie_kept | apply State.setChan_kept
    | apply State.dropRegs_kept | apply kept_foldl | simp only [kept_mk] | split | dsimp only

theorem State.damperGone_kept (s : State) (hk : Kept s0 s) : Kept s0 (State.damperGone s) := by
  unfold State.damperGone
  try dsimp only
  with_reducible repeat' first
    | assumption | intro _ | apply kept_ite | simp only [kept_mk] | split | dsimp only

theorem State.flueReset_kept (s : State) (hk : Kept s0 s) : Kept s0 (State.flueReset s) := by
  unfold State.flueReset
  try dsimp only
  with_reducible repeat' first
    | assumption | intro _ | apply State.linkLost_kept | apply State.dropRegs_kept | simp only [kept_mk] | dsimp only

theorem State.dmaReset_kept (s : State) (x : Side) (hk : Kept s0 s) : Kept s0 (State.dmaReset s x) := by
  unfold State.dmaReset
  try dsimp only
  with_reducible repeat' first
    | assumption | intro _ | apply State.each_kept | apply State.setSide_kept | apply State.dmaHalt_kept | apply State.dropRegs_kept
    | simp only [kept_mk] | split | dsimp only

theorem State.lifeReset_kept (s : State) (x : Side) (hk : Kept s0 s) : Kept s0 (State.lifeReset s x) := by
  unfold State.lifeReset
  try dsimp only
  with_reducible repeat' first
    | assumption | intro _ | apply State.setSide_kept | apply State.lifeRx_kept | apply State.dropRegs_kept | apply State.wipe_kept
    | simp only [kept_mk] | split | dsimp only

theorem State.goAbsent_kept (s : State) (u : UnitId) (hk : Kept s0 s) : Kept s0 (State.goAbsent s u) := by
  unfold State.goAbsent
  try dsimp only
  with_reducible repeat' first
    | assumption | intro _ | apply State.each_kept | apply State.canReset_kept | apply State.farAbsent_kept | apply State.proxyReset_kept
    | apply State.dieReset_kept | apply State.damperGone_kept | apply State.flueReset_kept | apply State.dmaReset_kept
    | apply State.lifeReset_kept | apply kept_ite | simp only [kept_mk] | split | refine kept_of_snd (by assumption) ?_
    | refine kept_of_fst (by assumption) ?_ | refine kept_of_some (by assumption) ?_ | dsimp only

theorem execUnitAbsent_kept (u : UnitId) (s : State) (hk : Kept s0 s) : KeptOut s0 (execUnitAbsent u s) := by
  unfold execUnitAbsent
  with_reducible repeat' first
    | assumption | apply State.goAbsent_kept | apply kept_ok

theorem State.dieBack_kept (s : State) (d : Nat) (hk : Kept s0 s) : Kept s0 (State.dieBack s d) := by
  unfold State.dieBack
  try dsimp only
  with_reducible repeat' first
    | assumption | intro _ | apply State.each_kept | apply State.limitEff_kept | apply State.putConfig_kept | apply State.clampBounds_kept
    | apply State.logClamps_kept | apply State.dieMoved_kept | simp only [kept_mk] | split | refine kept_of_snd (by assumption) ?_
    | refine kept_of_fst (by assumption) ?_ | refine kept_of_some (by assumption) ?_ | dsimp only

theorem State.flueSeeds_kept (s : State) (hk : Kept s0 s) : Kept s0 (State.flueSeeds s) := by
  unfold State.flueSeeds
  try dsimp only
  with_reducible repeat' first
    | assumption | apply State.took_kept | apply kept_ite | simp only [kept_mk] | split | dsimp only

theorem State.tc10Forward_kept (s : State) (hk : Kept s0 s) : Kept s0 (State.tc10Forward s) := by
  unfold State.tc10Forward
  try dsimp only
  with_reducible repeat' first
    | assumption | apply kept_ite | simp only [kept_mk] | split | dsimp only

theorem State.flueBack_kept (s : State) (hk : Kept s0 s) : Kept s0 (State.flueBack s) := by
  unfold State.flueBack
  try dsimp only
  with_reducible repeat' first
    | assumption | intro _ | apply State.set_kept | apply State.each_kept | apply State.putConfig_kept | apply State.flueMoved_kept
    | apply State.flueSeeds_kept | apply State.tc10Forward_kept | apply kept_ite | simp only [kept_mk] | split
    | refine kept_of_snd (by assumption) ?_ | refine kept_of_fst (by assumption) ?_ | refine kept_of_some (by assumption) ?_ | dsimp only

theorem State.markPresent_kept (s : State) (u : UnitId) (hk : Kept s0 s) : Kept s0 (State.markPresent s u) := by
  unfold State.markPresent
  try dsimp only
  with_reducible repeat' first
    | assumption | intro _ | apply State.each_kept | apply State.setSide_kept | apply State.log_kept | apply State.farBack_kept
    | simp only [kept_mk] | split | refine kept_of_snd (by assumption) ?_ | refine kept_of_fst (by assumption) ?_
    | refine kept_of_some (by assumption) ?_ | dsimp only

theorem execUnitReady_kept (u : UnitId) (s : State) (hk : Kept s0 s) : KeptOut s0 (execUnitReady u s) := by
  unfold execUnitReady
  try dsimp only
  with_reducible repeat' first
    | assumption | apply State.canMoved_kept | apply State.dieBack_kept | apply State.flueBack_kept | apply State.markPresent_kept
    | apply kept_ite | simp only [kept_mk] | split | refine kept_of_snd (by assumption) ?_ | refine kept_of_fst (by assumption) ?_
    | refine kept_of_some (by assumption) ?_ | apply kept_ok | dsimp only

theorem execFlueRefCheck_kept (present : Bool) (ext : Bool) (s : State) (hk : Kept s0 s) :
    KeptOut s0 (execFlueRefCheck present ext s) := by
  unfold execFlueRefCheck
  try dsimp only
  with_reducible repeat' first
    | assumption | intro _ | exact Kept.refl _ | apply State.set_kept | apply State.each_kept | apply State.log_kept
    | apply State.setStrap_kept | apply State.wrecNote_kept
    | (apply kept_then; (focus ((repeat' first | exact Kept.refl _ | apply State.set_kept | apply State.each_kept | apply State.log_kept | apply State.setStrap_kept | apply State.wrecNote_kept | apply kept_ite); done)))
    | apply kept_ite | simp only [kept_mk] | split | apply kept_ok | dsimp only

theorem execFlueRefLoss_kept (s : State) (hk : Kept s0 s) : KeptOut s0 (execFlueRefLoss s) := by
  unfold execFlueRefLoss
  try dsimp only
  with_reducible repeat' first
    | assumption | apply State.goAbsent_kept | apply kept_ite | simp only [kept_mk] | split | apply kept_ok | dsimp only

theorem execKeepaliveMiss_kept (s : State) (hk : Kept s0 s) : KeptOut s0 (execKeepaliveMiss s) := by
  unfold execKeepaliveMiss
  try dsimp only
  with_reducible repeat' first
    | assumption | apply State.closeBypass_kept | apply State.goAbsent_kept | apply kept_ite | simp only [kept_mk] | split | apply kept_ok
    | dsimp only

theorem execCrossLost_kept (x : Side) (s : State) (hk : Kept s0 s) : KeptOut s0 (execCrossLost x s) := by
  unfold execCrossLost
  try dsimp only
  with_reducible repeat' first
    | assumption | apply State.set_kept | apply State.inc_kept | apply State.setSide_kept | apply State.log_kept | apply State.sideEvt_kept
    | apply State.due_kept | apply State.mirrorStop_kept | apply State.farAbsent_kept | apply kept_ite | simp only [kept_mk] | split
    | apply kept_ok | dsimp only

theorem execCrossRestored_kept (x : Side) (s : State) (hk : Kept s0 s) : KeptOut s0 (execCrossRestored x s) := by
  unfold execCrossRestored
  try dsimp only
  with_reducible repeat' first
    | assumption | apply State.set_kept | apply State.setSide_kept | apply State.log_kept | apply State.sideEvt_kept
    | apply State.showMirror_kept | apply State.farBack_kept | apply kept_ite | simp only [kept_mk] | split | apply kept_ok | dsimp only

end Sys2Proof.Machine
end

