-- ==== Sys2Proof/Laws/KeptPower.lean ====
section
/-! SUPPORT. The definitions of Machine/Power.lean keep what every effect keeps: the queue, time, the count of free values, and the
canonical forms. -/
namespace Sys2Proof.Machine
open Sys2Proof

set_option linter.unusedVariables false
set_option linter.unusedSimpArgs false
set_option linter.unusedTactic false
set_option linter.unreachableTactic false
set_option linter.tactic.unusedName false

variable {s0 : State}

theorem State.sentCompletes_kept (s : State) (x : Side) (hk : Kept s0 s) : Kept s0 (State.sentCompletes s x) := by
  unfold State.sentCompletes
  try dsimp only
  with_reducible repeat' first
    | assumption | intro _ | apply State.each_kept | apply State.farExec_kept | apply kept_ite | simp only [kept_mk] | split | dsimp only

theorem State.sideReset_kept (s : State) (x : Side) (run : Run) (limp : Bool) (hk : Kept s0 s) :
    Kept s0 (State.sideReset s x run limp) := by
  unfold State.sideReset
  try dsimp only
  with_reducible repeat' first
    | assumption | intro _ | apply State.set_kept | apply State.setSide_kept | apply State.ckptTear_kept | apply State.unlocked_kept
    | apply State.farReset_kept | apply State.dropRegs_kept | apply State.wipe_kept | apply State.sentCompletes_kept | simp only [kept_mk]
    | split | dsimp only

theorem State.diesOff_kept (s : State) (hk : Kept s0 s) : Kept s0 (State.diesOff s) := by
  unfold State.diesOff
  try dsimp only
  with_reducible repeat' first
    | assumption | intro _ | apply State.each_kept | apply State.setDie_kept | apply State.setChan_kept | apply State.dropRegs_kept
    | simp only [kept_mk] | dsimp only

theorem State.allOff_kept (s : State) (hk : Kept s0 s) : Kept s0 (State.allOff s) := by
  unfold State.allOff
  try dsimp only
  with_reducible repeat' first
    | assumption | intro _ | apply State.dropRegs_kept | apply State.sideReset_kept | apply State.diesOff_kept | simp only [kept_mk]
    | dsimp only

theorem State.setGroup_kept (s : State) (g : RailGroup) (v : GroupSt) (hk : Kept s0 s) : Kept s0 (State.setGroup s g v) := by
  unfold State.setGroup
  try dsimp only
  with_reducible repeat' first
    | assumption | simp only [kept_mk] | dsimp only

theorem State.enableGroup_kept (s : State) (g : RailGroup) (hk : Kept s0 s) : Kept s0 (State.enableGroup s g) := by
  unfold State.enableGroup
  with_reducible repeat' first
    | assumption | apply State.setGroup_kept

theorem State.startClock_kept (s : State) (x : Side) (hk : Kept s0 s) : Kept s0 (State.startClock s x) := by
  unfold State.startClock
  try dsimp only
  with_reducible repeat' first
    | assumption | apply State.setSide_kept | apply kept_ite | simp only [kept_mk] | split | dsimp only

theorem State.diesOn_kept (s : State) (bad : Nat) (hk : Kept s0 s) : Kept s0 (State.diesOn s bad) := by
  unfold State.diesOn
  try dsimp only
  with_reducible repeat' first
    | assumption | intro _ | apply State.each_kept | apply State.setDie_kept | apply State.harnessCheck_kept | simp only [kept_mk]
    | dsimp only

theorem execPowerGood_kept (g : RailGroup) (bad : BitVec 128) (test : Bool) (s : State) (hk : Kept s0 s) :
    KeptOut s0 (execPowerGood g bad test s) := by
  unfold execPowerGood
  try dsimp only
  with_reducible repeat' first
    | assumption | apply State.setStrap_kept | apply State.due_kept | apply State.setGroup_kept | apply State.startClock_kept
    | apply State.diesOn_kept | apply kept_ite | simp only [kept_mk] | split | apply kept_ok | dsimp only

theorem State.writeRecord_kept (s : State) (w : WakeSrc) (entry : Bool) (hk : Kept s0 s) :
    Kept s0 (State.writeRecord s w entry) := by
  unfold State.writeRecord
  try dsimp only
  with_reducible repeat' first
    | assumption | exact Kept.refl _ | apply State.set_kept | apply State.inc_kept | apply State.setSide_kept | apply State.took_kept
    | (apply kept_then; (focus ((repeat' first | exact Kept.refl _ | apply State.set_kept | apply State.inc_kept | apply State.setSide_kept | apply State.took_kept | apply kept_ite); done)))
    | apply kept_ite | simp only [kept_mk] | split | refine kept_of_snd (by assumption) ?_ | refine kept_of_fst (by assumption) ?_
    | refine kept_of_some (by assumption) ?_ | dsimp only

theorem State.declare_kept (s : State) (w : WakeSrc) (entry : Bool) (hk : Kept s0 s) : Kept s0 (State.declare s w entry) := by
  unfold State.declare
  try dsimp only
  with_reducible repeat' first
    | assumption | apply State.set_kept | apply State.due_kept | apply State.enableGroup_kept | apply State.writeRecord_kept
    | apply kept_ite | simp only [kept_mk] | split | dsimp only

theorem State.levelWake_kept (s : State) (kl15 : Bool) (levels : Nat) (entry : Bool) (hk : Kept s0 s) :
    Kept s0 (State.levelWake s kl15 levels entry) := by
  unfold State.levelWake
  try dsimp only
  with_reducible repeat' first
    | assumption | apply State.declare_kept | apply kept_ite | simp only [kept_mk] | split | refine kept_of_snd (by assumption) ?_
    | refine kept_of_fst (by assumption) ?_ | refine kept_of_some (by assumption) ?_ | dsimp only

theorem execPowerOn_kept (s : State) (hk : Kept s0 s) : KeptOut s0 (execPowerOn s) := by
  unfold execPowerOn
  with_reducible repeat' first
    | assumption | apply State.declare_kept | apply kept_ite | split | apply kept_ok

theorem execWakeKl15_kept (s : State) (hk : Kept s0 s) : KeptOut s0 (execWakeKl15 s) := by
  unfold execWakeKl15
  with_reducible repeat' first
    | assumption | apply State.confirmWake_kept | apply State.declare_kept | apply kept_ite | split | apply kept_ok

theorem execWakeLoc_kept (n : Fin 4) (s : State) (hk : Kept s0 s) : KeptOut s0 (execWakeLoc n s) := by
  unfold execWakeLoc
  with_reducible repeat' first
    | assumption | apply State.confirmWake_kept | apply State.declare_kept | apply kept_ite | split | apply kept_ok

theorem execRtcAlarm_kept (s : State) (hk : Kept s0 s) : KeptOut s0 (execRtcAlarm s) := by
  unfold execRtcAlarm
  try dsimp only
  with_reducible repeat' first
    | assumption | exact Kept.refl _ | apply State.due_kept | apply State.confirmWake_kept | apply State.declare_kept
    | (apply kept_then; (focus ((repeat' first | exact Kept.refl _ | apply State.due_kept | apply State.confirmWake_kept | apply State.declare_kept | apply kept_ite); done)))
    | apply kept_ite | split | apply kept_ok | dsimp only

theorem execCanWakePattern_kept (k : Fin 12) (s : State) (hk : Kept s0 s) : KeptOut s0 (execCanWakePattern k s) := by
  unfold execCanWakePattern
  with_reducible repeat' first
    | assumption | apply State.declare_kept | apply kept_ite | split | apply kept_ok

theorem execCanWakeFrame_kept (k : Fin 12) (fr : CanFrame) (s : State) (hk : Kept s0 s) : KeptOut s0 (execCanWakeFrame k fr s) := by
  unfold execCanWakeFrame
  try dsimp only
  with_reducible repeat' first
    | assumption | apply State.declare_kept | apply kept_ite | split | apply kept_ok | dsimp only

theorem execCanFrameErrWake_kept (k : Fin 12) (s : State) (hk : Kept s0 s) : KeptOut s0 (execCanFrameErrWake k s) := by
  unfold execCanFrameErrWake
  with_reducible repeat' first
    | assumption | apply State.declare_kept | apply kept_ite | split | apply kept_ok

theorem execTc10WakePulse_kept (p : Fin 17) (s : State) (hk : Kept s0 s) : KeptOut s0 (execTc10WakePulse p s) := by
  unfold execTc10WakePulse
  with_reducible repeat' first
    | assumption | apply State.declare_kept | apply kept_ite | split | apply kept_ok

theorem State.recordGroup_kept (s : State) (g : RailGroup) (v : GroupSt) (hk : Kept s0 s) : Kept s0 (State.recordGroup s g v) := by
  unfold State.recordGroup
  try dsimp only
  with_reducible repeat' first
    | assumption | apply State.wrecNote_kept | apply kept_ite | simp only [kept_mk] | split | refine kept_of_snd (by assumption) ?_
    | refine kept_of_fst (by assumption) ?_ | refine kept_of_some (by assumption) ?_ | dsimp only

theorem State.failWake_kept (s : State) (hk : Kept s0 s) : Kept s0 (State.failWake s) := by
  unfold State.failWake
  try dsimp only
  with_reducible repeat' first
    | assumption | apply State.inc_kept | apply State.wrecNote_kept | apply State.allOff_kept | simp only [kept_mk] | dsimp only

theorem execPowerGoodTimeout_kept (g : RailGroup) (s : State) (hk : Kept s0 s) : KeptOut s0 (execPowerGoodTimeout g s) := by
  unfold execPowerGoodTimeout
  try dsimp only
  with_reducible repeat' first
    | assumption | apply State.due_kept | apply State.setGroup_kept | apply State.recordGroup_kept | apply State.failWake_kept
    | apply kept_ite | simp only [kept_mk] | split | apply kept_ok | dsimp only

theorem execWakeBlockEnd_kept (kl15 : Bool) (loc : BitVec 4) (s : State) (hk : Kept s0 s) :
    KeptOut s0 (execWakeBlockEnd kl15 loc s) := by
  unfold execWakeBlockEnd
  try dsimp only
  with_reducible repeat' first
    | assumption | apply State.due_kept | apply State.levelWake_kept | apply kept_ite | simp only [kept_mk] | split | apply kept_ok
    | dsimp only

theorem execCrystalTimeout_kept (x : Side) (s : State) (hk : Kept s0 s) : KeptOut s0 (execCrystalTimeout x s) := by
  unfold execCrystalTimeout
  try dsimp only
  with_reducible repeat' first
    | assumption | apply State.set_kept | apply State.setSide_kept | apply State.took_kept | apply State.due_kept
    | apply State.wrecNote_kept | apply kept_ite | simp only [kept_mk] | split | apply kept_ok | dsimp only

theorem State.factorySlots_kept (s : State) (x : Side) (hk : Kept s0 s) : Kept s0 (State.factorySlots s x) := by
  unfold State.factorySlots
  try dsimp only
  with_reducible repeat' first
    | assumption | intro _ | apply State.fillSlot_kept | dsimp only

theorem State.canWakeBack_kept (s : State) (x : Side) (hk : Kept s0 s) : Kept s0 (State.canWakeBack s x) := by
  unfold State.canWakeBack
  try dsimp only
  with_reducible repeat' first
    | assumption | intro _ | apply State.each_kept | apply State.setCan_kept | simp only [kept_mk] | dsimp only

theorem State.relockBoot_kept (s : State) (x : Side) (hk : Kept s0 s) : Kept s0 (State.relockBoot s x) := by
  unfold State.relockBoot
  try dsimp only
  with_reducible repeat' first
    | assumption | apply State.setSide_kept | apply State.log_kept | apply kept_ite | simp only [kept_mk] | split | dsimp only

theorem execPllLock_kept (x : Side) (calOk : Bool) (mode : Bool) (s : State) (hk : Kept s0 s) :
    KeptOut s0 (execPllLock x calOk mode s) := by
  unfold execPllLock
  try dsimp only
  with_reducible repeat' first
    | assumption | intro _ | apply State.set_kept | apply State.each_kept | apply State.setSide_kept | apply State.forgetTally_kept
    | apply State.calWake_kept | apply State.bootSlot_kept | apply State.flushBoot_kept | apply State.factorySlots_kept
    | apply State.canWakeBack_kept | apply State.relockBoot_kept | apply kept_ite | simp only [kept_mk] | split | apply kept_ok | dsimp only

theorem State.sealRestore_kept (s : State) (x : Side) (i : Nat) (hk : Kept s0 s) : Kept s0 (State.sealRestore s x i) := by
  unfold State.sealRestore
  try dsimp only
  with_reducible repeat' first
    | assumption | apply State.log_kept | apply State.cs_kept | apply State.canEvent_kept | apply kept_ite | simp only [kept_mk] | split
    | refine kept_of_snd (by assumption) ?_ | refine kept_of_fst (by assumption) ?_ | refine kept_of_some (by assumption) ?_ | dsimp only

theorem State.reachGlowing_kept (s : State) (hk : Kept s0 s) : Kept s0 (State.reachGlowing s) := by
  unfold State.reachGlowing
  try dsimp only
  with_reducible repeat' first
    | assumption | exact Kept.refl _ | apply State.set_kept | apply State.wakeOutcome_kept | apply State.awakeClear_kept
    | (apply kept_then; (focus ((repeat' first | exact Kept.refl _ | apply State.set_kept | apply State.wakeOutcome_kept | apply State.awakeClear_kept | apply kept_ite); done)))
    | apply kept_ite | simp only [kept_mk] | split | dsimp only

theorem State.stokerStart_kept (s : State) (x : Side) (hk : Kept s0 s) : Kept s0 (State.stokerStart s x) := by
  unfold State.stokerStart
  try dsimp only
  with_reducible repeat' first
    | assumption | apply State.set_kept | apply State.setSide_kept | apply State.reload_kept | apply State.losePeer_kept
    | apply State.commitFirst_kept | apply kept_ite | simp only [kept_mk] | split | dsimp only

theorem State.logWake_kept (s : State) (x : Side) (hk : Kept s0 s) : Kept s0 (State.logWake s x) := by
  unfold State.logWake
  try dsimp only
  with_reducible repeat' first
    | assumption | apply State.log_kept | apply State.wrecCopy_kept | apply kept_ite | split | dsimp only

theorem State.feedDone_kept (s : State) (x : Side) (hk : Kept s0 s) : Kept s0 (State.feedDone s x) := by
  unfold State.feedDone
  with_reducible repeat' first
    | assumption | apply State.wakeOutcome_kept | apply kept_ite | split

theorem State.logStart_kept (s : State) (x : Side) (hk : Kept s0 s) : Kept s0 (State.logStart s x) := by
  unfold State.logStart
  try dsimp only
  with_reducible repeat' first
    | assumption | apply State.log_kept | apply kept_ite | split | dsimp only

theorem execStokerReady_kept (x : Side) (s : State) (hk : Kept s0 s) : KeptOut s0 (execStokerReady x s) := by
  unfold execStokerReady
  try dsimp only
  with_reducible repeat' first
    | assumption | intro _ | apply State.each_kept | apply State.harnessReport_kept | apply State.sealRestore_kept
    | apply State.reachGlowing_kept | apply State.stokerStart_kept | apply State.logWake_kept | apply State.feedDone_kept
    | apply State.logStart_kept | apply kept_ite | split | apply kept_ok | dsimp only

theorem State.pairHomes_kept (s : State) (x : Side) (hk : Kept s0 s) : Kept s0 (State.pairHomes s x) := by
  unfold State.pairHomes
  with_reducible repeat' first
    | assumption | apply State.bootFail_kept | apply kept_ite | split

theorem State.worldsStart_kept (s : State) (x : Side) (hk : Kept s0 s) : Kept s0 (State.worldsStart s x) := by
  unfold State.worldsStart
  with_reducible repeat' first
    | assumption | intro _ | apply State.each_kept | apply State.setWorld_kept | apply kept_ite | split

theorem State.reachLit_kept (s : State) (hk : Kept s0 s) : Kept s0 (State.reachLit s) := by
  unfold State.reachLit
  try dsimp only
  with_reducible repeat' first
    | assumption | apply State.set_kept | apply State.wakeOutcome_kept | apply kept_ite | simp only [kept_mk] | split | dsimp only

theorem execLitEntry_kept (x : Side) (s : State) (hk : Kept s0 s) : KeptOut s0 (execLitEntry x s) := by
  unfold execLitEntry
  try dsimp only
  with_reducible repeat' first
    | assumption | apply State.setSide_kept | apply State.pairHomes_kept | apply State.worldsStart_kept | apply State.reachLit_kept
    | apply kept_ite | simp only [kept_mk] | split | apply kept_ok | dsimp only

end Sys2Proof.Machine
end

