-- ==== Sys2Proof/Laws/KeptSideCmd.lean ====
section
/-! SUPPORT. The definitions of Machine/SideCmd.lean keep what every effect keeps: the queue, time, the count of free values, and the
canonical forms. -/
namespace Sys2Proof.Machine
open Sys2Proof

set_option linter.unusedVariables false
set_option linter.unusedSimpArgs false
set_option linter.unusedTactic false
set_option linter.unreachableTactic false
set_option linter.tactic.unusedName false

variable {s0 : State}

theorem State.claimToken_kept (s : State) (x : Side) (t : Nat) (hk : Kept s0 s) : Kept s0 (State.claimToken s x t) := by
  unfold State.claimToken
  try dsimp only
  with_reducible repeat' first
    | assumption | exact Kept.refl _ | apply State.set_kept | apply State.recordClaim_kept | apply State.claimRefused_kept
    | (apply kept_then; (focus ((repeat' first | exact Kept.refl _ | apply State.set_kept | apply State.recordClaim_kept | apply State.claimRefused_kept | apply kept_ite); done)))
    | apply kept_ite | split | dsimp only

theorem State.onNamed_kept (s : State) (j : Job) (f : State → State) (hf : ∀ (y0 : State), Kept s0 y0 → Kept s0 (f y0)) (hk : Kept s0 s) :
    Kept s0 (State.onNamed s j f) := by
  unfold State.onNamed
  with_reducible repeat' first
    | assumption | intro _ | apply State.doneAbsent_kept | apply hf | apply kept_ite | split

theorem State.claimTokens_kept (s : State) (x : Side) (j : Job) (hk : Kept s0 s) : Kept s0 (State.claimTokens s x j) := by
  unfold State.claimTokens
  try dsimp only
  with_reducible repeat' first
    | assumption | intro _ | apply State.setBit_kept | apply State.each_kept | apply State.setSide_kept | apply State.claimReplies_kept
    | apply State.claimToken_kept | apply kept_foldl | apply kept_ite | simp only [kept_mk] | split | dsimp only

theorem execSideClaim_kept (x : Side) (s : State) (hk : Kept s0 s) : KeptOut s0 (execSideClaim x s) := by
  unfold execSideClaim
  with_reducible repeat' first
    | assumption | intro _ | apply State.chromir_kept | apply State.onNamed_kept | apply State.claimTokens_kept | apply kept_ok

theorem execNetTokenClaim_kept (x : Side) (s : State) (hk : Kept s0 s) : KeptOut s0 (execNetTokenClaim x s) := by
  unfold execNetTokenClaim
  with_reducible repeat' first
    | assumption | intro _ | apply State.doneAbsent_kept | apply State.chromir_kept | apply State.claimTokens_kept | apply kept_ite | split
    | apply kept_ok

theorem State.releaseTokens_kept (s : State) (x : Side) (j : Job) (words : State → List Nat) (hk : Kept s0 s) :
    Kept s0 (State.releaseTokens s x j words) := by
  unfold State.releaseTokens
  try dsimp only
  with_reducible repeat' first
    | assumption | intro _ | exact Kept.refl _ | apply State.each_kept | apply State.done_kept | apply State.vacate_kept
    | (apply kept_then; (focus ((repeat' first | exact Kept.refl _ | apply State.each_kept | apply State.done_kept | apply State.vacate_kept | apply kept_ite); done)))
    | apply kept_ite | split | dsimp only

theorem execSideRelease_kept (x : Side) (s : State) (hk : Kept s0 s) : KeptOut s0 (execSideRelease x s) := by
  unfold execSideRelease
  with_reducible repeat' first
    | assumption | intro _ | apply State.chromir_kept | apply State.onNamed_kept | apply State.releaseTokens_kept | apply kept_ok

theorem execNetTokenRelease_kept (x : Side) (s : State) (hk : Kept s0 s) : KeptOut s0 (execNetTokenRelease x s) := by
  unfold execNetTokenRelease
  with_reducible repeat' first
    | assumption | intro _ | apply State.chromir_kept | apply State.onNet_kept | apply State.releaseTokens_kept | apply kept_ok

theorem execSideStatus_kept (x : Side) (s : State) (hk : Kept s0 s) : KeptOut s0 (execSideStatus x s) := by
  unfold execSideStatus
  try dsimp only
  with_reducible repeat' first
    | assumption | intro _ | apply State.done_kept | apply State.chromir_kept | apply kept_ok | dsimp only

theorem execSideMirrorSet_kept (x : Side) (s : State) (hk : Kept s0 s) : KeptOut s0 (execSideMirrorSet x s) := by
  unfold execSideMirrorSet
  try dsimp only
  with_reducible repeat' first
    | assumption | intro _ | apply State.set_kept | apply State.setSide_kept | apply State.done_kept | apply State.chromir_kept
    | apply State.showMirror_kept | simp only [kept_mk] | apply kept_ok | dsimp only

theorem State.setPolicy_kept (s : State) (x : Side) (p : Nat) (hk : Kept s0 s) : Kept s0 (State.setPolicy s x p) := by
  unfold State.setPolicy
  try dsimp only
  with_reducible repeat' first
    | assumption | apply State.set_kept | apply State.returnWaits_kept | dsimp only

theorem execSideReturnPolicy_kept (x : Side) (s : State) (hk : Kept s0 s) : KeptOut s0 (execSideReturnPolicy x s) := by
  unfold execSideReturnPolicy
  try dsimp only
  with_reducible repeat' first
    | assumption | intro _ | apply State.done_kept | apply State.chromir_kept | apply State.setPolicy_kept | apply kept_ite | split
    | apply kept_ok | dsimp only

end Sys2Proof.Machine
end

