-- ==== Sys2Proof/Laws/KeptSleep.lean ====
section
/-! SUPPORT. The definitions of Machine/Sleep.lean keep what every effect keeps: the queue, time, the count of free values, and the
canonical forms. -/
namespace Sys2Proof.Machine
open Sys2Proof

set_option linter.unusedVariables false
set_option linter.unusedSimpArgs false
set_option linter.unusedTactic false
set_option linter.unreachableTactic false
set_option linter.tactic.unusedName false

variable {s0 : State}

theorem State.dropRequest_kept (s : State) (hk : Kept s0 s) : Kept s0 (State.dropRequest s) := by
  unfold State.dropRequest
  try dsimp only
  with_reducible repeat' first
    | assumption | apply State.set_kept | apply State.awakeEnd_kept | apply kept_ite | simp only [kept_mk] | split
    | refine kept_of_snd (by assumption) ?_ | refine kept_of_fst (by assumption) ?_ | refine kept_of_some (by assumption) ?_ | dsimp only

theorem State.stateRequest_kept (s : State) (t : Nat) (ms : Nat) (hk : Kept s0 s) : Kept s0 (State.stateRequest s t ms) := by
  unfold State.stateRequest
  try dsimp only
  with_reducible repeat' first
    | assumption | exact Kept.refl _ | apply State.set_kept | apply State.awakeClear_kept | apply State.confirmWake_kept
    | apply State.dropRequest_kept
    | (apply kept_then; (focus ((repeat' first | exact Kept.refl _ | apply State.set_kept | apply State.awakeClear_kept | apply State.confirmWake_kept | apply State.dropRequest_kept | apply kept_ite); done)))
    | apply kept_ite | simp only [kept_mk] | split | dsimp only

theorem execSysStateSet_kept (x : Side) (s : State) (hk : Kept s0 s) : KeptOut s0 (execSysStateSet x s) := by
  unfold execSysStateSet
  try dsimp only
  with_reducible repeat' first
    | assumption | intro _ | apply State.done_kept | apply State.chromir_kept | apply State.stateRequest_kept | simp only [kept_mk] | split
    | refine kept_of_snd (by assumption) ?_ | refine kept_of_fst (by assumption) ?_ | refine kept_of_some (by assumption) ?_ | apply kept_ok
    | dsimp only

theorem execSysStateGet_kept (x : Side) (s : State) (hk : Kept s0 s) : KeptOut s0 (execSysStateGet x s) := by
  unfold execSysStateGet
  try dsimp only
  with_reducible repeat' first
    | assumption | intro _ | apply State.done_kept | apply State.chromir_kept | apply kept_ok | dsimp only

theorem State.leaveLit_kept (s : State) (x : Side) (hk : Kept s0 s) : Kept s0 (State.leaveLit s x) := by
  unfold State.leaveLit
  try dsimp only
  with_reducible repeat' first
    | assumption | intro _ | apply State.each_kept | apply State.setSide_kept | apply State.dmaHalt_kept | apply State.coreReset_kept
    | apply State.doorFlush_kept | apply State.pairRun_kept | apply State.pairReset_kept | apply State.setWorld_kept | apply kept_ite
    | simp only [kept_mk] | split | dsimp only

theorem State.beginSleep_kept (s : State) (t : Nat) (hk : Kept s0 s) : Kept s0 (State.beginSleep s t) := by
  unfold State.beginSleep
  try dsimp only
  with_reducible repeat' first
    | assumption | apply State.set_kept | simp only [kept_mk] | dsimp only

theorem execSysStateDelayEnd_kept (s : State) (hk : Kept s0 s) : KeptOut s0 (execSysStateDelayEnd s) := by
  unfold execSysStateDelayEnd
  try dsimp only
  with_reducible repeat' first
    | assumption | exact Kept.refl _ | apply State.set_kept | apply State.due_kept | apply State.leaveLit_kept | apply State.beginSleep_kept
    | (apply kept_then; (focus ((repeat' first | exact Kept.refl _ | apply State.set_kept | apply State.due_kept | apply State.leaveLit_kept | apply State.beginSleep_kept | apply kept_ite); done)))
    | apply kept_ite | simp only [kept_mk] | split | refine kept_of_snd (by assumption) ?_ | refine kept_of_fst (by assumption) ?_
    | refine kept_of_some (by assumption) ?_ | apply kept_ok | dsimp only

theorem execConfirmWindowEnd_kept (s : State) (hk : Kept s0 s) : KeptOut s0 (execConfirmWindowEnd s) := by
  unfold execConfirmWindowEnd
  try dsimp only
  with_reducible repeat' first
    | assumption | intro _ | apply State.set_kept | apply State.inc_kept | apply State.each_kept | apply State.log_kept
    | apply State.due_kept | apply State.wakeOutcome_kept | apply State.awakeEnd_kept | apply State.dropRequest_kept
    | apply State.beginSleep_kept | simp only [kept_mk] | split | refine kept_of_snd (by assumption) ?_
    | refine kept_of_fst (by assumption) ?_ | refine kept_of_some (by assumption) ?_ | apply kept_ok | dsimp only

theorem execSleepStart_kept (s : State) (hk : Kept s0 s) : KeptOut s0 (execSleepStart s) := by
  unfold execSleepStart
  try dsimp only
  with_reducible repeat' first
    | assumption | intro _ | apply State.set_kept | apply State.each_kept | apply State.setSide_kept | apply State.awakeEnd_kept
    | apply State.rulesOff_kept | apply kept_ite | simp only [kept_mk] | split | apply kept_ok | dsimp only

theorem State.dropHold_kept (s : State) (c : Nat) (hk : Kept s0 s) : Kept s0 (State.dropHold s c) := by
  unfold State.dropHold
  try dsimp only
  with_reducible repeat' first
    | assumption | apply State.setChan_kept | apply State.hold_kept | apply State.cw_kept | simp only [kept_mk] | dsimp only

theorem State.sleepChan_kept (s : State) (c : Nat) (hk : Kept s0 s) : Kept s0 (State.sleepChan s c) := by
  unfold State.sleepChan
  try dsimp only
  with_reducible repeat' first
    | assumption | exact Kept.refl _ | apply State.took_kept | apply State.logBoth_kept | apply State.applyOff_kept
    | apply State.dropHold_kept
    | (apply kept_then; (focus ((repeat' first | exact Kept.refl _ | apply State.took_kept | apply State.logBoth_kept | apply State.applyOff_kept | apply State.dropHold_kept | apply kept_ite); done)))
    | apply kept_ite | split | dsimp only

theorem State.sleepPort_kept (s : State) (p : Nat) (hk : Kept s0 s) : Kept s0 (State.sleepPort s p) := by
  unfold State.sleepPort
  try dsimp only
  with_reducible repeat' first
    | assumption | apply State.set_kept | apply State.took_kept | apply State.logBoth_kept | apply State.flueEvt_kept
    | apply State.done_kept | apply State.portSleep_kept | apply kept_ite | split | dsimp only

theorem State.sealSave_kept (s : State) (x : Side) (hk : Kept s0 s) : Kept s0 (State.sealSave s x) := by
  unfold State.sealSave
  try dsimp only
  with_reducible repeat' first
    | assumption | intro _ | apply State.each_kept | apply State.setSealRec_kept | apply kept_ite | split | dsimp only

theorem State.sleepSide_kept (s : State) (x : Side) (hk : Kept s0 s) : Kept s0 (State.sleepSide s x) := by
  unfold State.sleepSide
  try dsimp only
  with_reducible repeat' first
    | assumption | intro _ | apply State.each_kept | apply State.log_kept | apply State.canSetMode_kept | apply State.ashFlush_kept
    | apply State.sealSave_kept | apply kept_ite | split | dsimp only

theorem execSleepDrainComplete_kept (s : State) (hk : Kept s0 s) : KeptOut s0 (execSleepDrainComplete s) := by
  unfold execSleepDrainComplete
  try dsimp only
  with_reducible repeat' first
    | assumption | intro _ | apply State.each_kept | apply State.sleepChan_kept | apply State.sleepPort_kept | apply State.sleepSide_kept
    | apply kept_ite | simp only [kept_mk] | split | apply kept_ok | dsimp only

theorem execSleepArm_kept (kl15 : Bool) (loc : BitVec 4) (s : State) (hk : Kept s0 s) : KeptOut s0 (execSleepArm kl15 loc s) := by
  unfold execSleepArm
  try dsimp only
  with_reducible repeat' first
    | assumption | intro _ | exact Kept.refl _ | apply State.set_kept | apply State.allOff_kept | apply State.levelWake_kept
    | apply kept_foldl
    | (apply kept_then; (focus ((repeat' first | exact Kept.refl _ | apply State.set_kept | apply State.allOff_kept | apply State.levelWake_kept | apply kept_ite); done)))
    | apply kept_ite | simp only [kept_mk] | split | apply kept_ok | dsimp only

theorem execBankTimeLimit_kept (s : State) (hk : Kept s0 s) : KeptOut s0 (execBankTimeLimit s) := by
  unfold execBankTimeLimit
  try dsimp only
  with_reducible repeat' first
    | assumption | apply State.due_kept | apply kept_ite | simp only [kept_mk] | split | apply kept_ok | dsimp only

theorem State.supplyLoss_kept (s : State) (x : Side) (hk : Kept s0 s) : Kept s0 (State.supplyLoss s x) := by
  unfold State.supplyLoss
  try dsimp only
  with_reducible repeat' first
    | assumption | apply State.log_kept | apply State.sideDown_kept | apply State.ashFlush_kept | apply State.sideReset_kept
    | apply State.setGroup_kept | apply State.sealSave_kept | apply kept_ite | split | dsimp only

theorem State.bothLost_kept (s : State) (hk : Kept s0 s) : Kept s0 (State.bothLost s) := by
  unfold State.bothLost
  try dsimp only
  with_reducible repeat' first
    | assumption | apply State.set_kept | apply State.allOff_kept | simp only [kept_mk] | dsimp only

theorem execFeedLoss_kept (f : Side) (s : State) (hk : Kept s0 s) : KeptOut s0 (execFeedLoss f s) := by
  unfold execFeedLoss
  try dsimp only
  with_reducible repeat' first
    | assumption | exact Kept.refl _ | apply State.set_kept | apply State.feedEvt_kept | apply State.supplyLoss_kept
    | apply State.bothLost_kept
    | (apply kept_then; (focus ((repeat' first | exact Kept.refl _ | apply State.set_kept | apply State.feedEvt_kept | apply State.supplyLoss_kept | apply State.bothLost_kept | apply kept_ite); done)))
    | apply kept_ite | simp only [kept_mk] | split | refine kept_of_snd (by assumption) ?_ | refine kept_of_fst (by assumption) ?_
    | refine kept_of_some (by assumption) ?_ | apply kept_ok | dsimp only

theorem State.feedRecord_kept (s : State) (hk : Kept s0 s) : Kept s0 (State.feedRecord s) := by
  unfold State.feedRecord
  with_reducible repeat' first
    | assumption | apply State.inc_kept | apply State.writeRecord_kept | apply kept_ite | split

theorem execFeedReturn_kept (f : Side) (s : State) (hk : Kept s0 s) : KeptOut s0 (execFeedReturn f s) := by
  unfold execFeedReturn
  try dsimp only
  with_reducible repeat' first
    | assumption | exact Kept.refl _ | apply State.set_kept | apply State.feedEvt_kept | apply State.enableGroup_kept
    | apply State.declare_kept | apply State.feedRecord_kept
    | (apply kept_then; (focus ((repeat' first | exact Kept.refl _ | apply State.set_kept | apply State.feedEvt_kept | apply State.enableGroup_kept | apply State.declare_kept | apply State.feedRecord_kept | apply kept_ite); done)))
    | apply kept_ite | simp only [kept_mk] | split | refine kept_of_snd (by assumption) ?_ | refine kept_of_fst (by assumption) ?_
    | refine kept_of_some (by assumption) ?_ | apply kept_ok | dsimp only

theorem execEmberPowerLoss_kept (s : State) (hk : Kept s0 s) : KeptOut s0 (execEmberPowerLoss s) := by
  unfold execEmberPowerLoss
  try dsimp only
  with_reducible repeat' first
    | assumption | intro _ | apply State.dropRegs_kept | apply State.allOff_kept | apply kept_ite | simp only [kept_mk] | split
    | apply kept_ok | dsimp only

theorem execEmberOvervoltage_kept (f : Side) (s : State) (hk : Kept s0 s) : KeptOut s0 (execEmberOvervoltage f s) := by
  unfold execEmberOvervoltage
  try dsimp only
  with_reducible repeat' first
    | assumption | apply State.feedEvt_kept | apply kept_ite | simp only [kept_mk] | split | refine kept_of_snd (by assumption) ?_
    | refine kept_of_fst (by assumption) ?_ | refine kept_of_some (by assumption) ?_ | apply kept_ok | dsimp only

theorem execEmberFeedSample_kept (va : Word40) (vb : Word40) (s : State) (hk : Kept s0 s) :
    KeptOut s0 (execEmberFeedSample va vb s) := by
  unfold execEmberFeedSample
  with_reducible repeat' first
    | assumption | exact kept_fault _ | apply State.set_kept | apply kept_ite | split | apply kept_ok

theorem execEmberLowFeedAssert_kept (f : Side) (s : State) (hk : Kept s0 s) : KeptOut s0 (execEmberLowFeedAssert f s) := by
  unfold execEmberLowFeedAssert
  try dsimp only
  with_reducible repeat' first
    | assumption | apply State.feedEvt_kept | apply kept_ite | simp only [kept_mk] | split | refine kept_of_snd (by assumption) ?_
    | refine kept_of_fst (by assumption) ?_ | refine kept_of_some (by assumption) ?_ | apply kept_ok | dsimp only

theorem execEmberLowFeedClear_kept (s : State) (hk : Kept s0 s) : KeptOut s0 (execEmberLowFeedClear s) := by
  unfold execEmberLowFeedClear
  try dsimp only
  with_reducible repeat' first
    | assumption | simp only [kept_mk] | apply kept_ok | dsimp only

theorem execSideResetAssert_kept (x : Side) (s : State) (hk : Kept s0 s) : KeptOut s0 (execSideResetAssert x s) := by
  unfold execSideResetAssert
  try dsimp only
  with_reducible repeat' first
    | assumption | apply State.setBit_kept | apply State.sideDown_kept | apply State.sideReset_kept | apply kept_ite | simp only [kept_mk]
    | split | apply kept_ok | dsimp only

theorem execSideResetRelease_kept (x : Side) (s : State) (hk : Kept s0 s) : KeptOut s0 (execSideResetRelease x s) := by
  unfold execSideResetRelease
  try dsimp only
  with_reducible repeat' first
    | assumption | apply State.clearBit_kept | apply State.startClock_kept | apply kept_ite | simp only [kept_mk] | split | apply kept_ok
    | dsimp only

theorem execSideDown_kept (x : Side) (s : State) (hk : Kept s0 s) : KeptOut s0 (execSideDown x s) := by
  unfold execSideDown
  try dsimp only
  with_reducible repeat' first
    | assumption | apply State.sideDown_kept | apply State.sideReset_kept | apply State.startClock_kept | apply kept_ite
    | simp only [kept_mk] | split | apply kept_ok | dsimp only

end Sys2Proof.Machine
end

