-- ==== Sys2Proof/Laws/KeptStoke.lean ====
section
/-! SUPPORT. The definitions of Machine/Stoke.lean keep what every effect keeps: the queue, time, the count of free values, and the
canonical forms. -/
namespace Sys2Proof.Machine
open Sys2Proof

set_option linter.unusedVariables false
set_option linter.unusedSimpArgs false
set_option linter.unusedTactic false
set_option linter.unreachableTactic false
set_option linter.tactic.unusedName false

variable {s0 : State}

theorem execStokeCsFall_kept (x : Side) (s : State) (hk : Kept s0 s) : KeptOut s0 (execStokeCsFall x s) := by
  unfold execStokeCsFall
  try dsimp only
  with_reducible repeat' first
    | assumption | exact Kept.refl _ | apply State.set_kept | apply State.setSide_kept
    | (apply kept_then; (focus ((repeat' first | exact Kept.refl _ | apply State.set_kept | apply State.setSide_kept | apply kept_ite); done)))
    | apply kept_ite | simp only [kept_mk] | split | apply kept_ok | dsimp only

theorem State.stokeShift_kept (s : State) (x : Side) (hk : Kept s0 s) : Kept s0 (State.stokeShift s x) := by
  unfold State.stokeShift
  try dsimp only
  with_reducible repeat' first
    | assumption | apply State.setSide_kept | apply State.setSrc_kept | apply kept_ite | simp only [kept_mk] | split
    | refine kept_of_snd (by assumption) ?_ | refine kept_of_fst (by assumption) ?_ | refine kept_of_some (by assumption) ?_ | dsimp only

theorem State.stokeOut_kept (s : State) (x : Side) (n : Nat) (live : Nat) (hk : Kept s0 s) :
    Kept s0 (State.stokeOut s x n live) := by
  unfold State.stokeOut
  try dsimp only
  with_reducible repeat' first
    | assumption | intro _ | apply State.setSide_kept | apply State.take_kept | apply State.stokeShift_kept | apply kept_iter
    | simp only [kept_mk] | dsimp only

theorem State.stokeFlag_kept (s : State) (x : Side) (flag : Fld) (count : Fld) (hk : Kept s0 s) :
    Kept s0 (State.stokeFlag s x flag count) := by
  unfold State.stokeFlag
  with_reducible repeat' first
    | assumption | apply State.set_kept | apply State.inc_kept | apply State.intr_kept

theorem State.stokeEnd_kept (s : State) (x : Side) (status : Nat) (reason : Nat) (hk : Kept s0 s) :
    Kept s0 (State.stokeEnd s x status reason) := by
  unfold State.stokeEnd
  try dsimp only
  with_reducible repeat' first
    | assumption | apply State.set_kept | apply State.setSide_kept | simp only [kept_mk] | dsimp only

theorem State.stokePacket_kept (s : State) (x : Side) (n : Nat) (ws : List Nat) (hk : Kept s0 s) :
    Kept s0 (State.stokePacket s x n ws) := by
  unfold State.stokePacket
  try dsimp only
  with_reducible repeat' first
    | assumption | exact Kept.refl _ | apply State.add_kept | apply State.inc_kept | apply State.setSrc_kept | apply State.take_kept
    | apply State.stokeFlag_kept | apply State.stokeEnd_kept
    | (apply kept_then; (focus ((repeat' first | exact Kept.refl _ | apply State.add_kept | apply State.inc_kept | apply State.setSrc_kept | apply State.take_kept | apply State.stokeFlag_kept | apply State.stokeEnd_kept | apply kept_ite); done)))
    | apply kept_ite | simp only [kept_mk] | split | dsimp only

theorem State.stokeJudge_kept (s : State) (x : Side) (ws : List Nat) (extra : Nat) (hk : Kept s0 s) :
    Kept s0 (State.stokeJudge s x ws extra) := by
  unfold State.stokeJudge
  try dsimp only
  with_reducible repeat' first
    | assumption | exact Kept.refl _ | apply State.stokeFlag_kept | apply State.stokeEnd_kept | apply State.stokePacket_kept
    | (apply kept_then; (focus ((repeat' first | exact Kept.refl _ | apply State.stokeFlag_kept | apply State.stokeEnd_kept | apply State.stokePacket_kept | apply kept_ite); done)))
    | apply kept_ite | split | dsimp only

theorem execStokeCsRise_kept (x : Side) (ws : List Word40) (extra : Fin 40) (s : State) (hk : Kept s0 s) :
    KeptOut s0 (execStokeCsRise x ws extra s) := by
  unfold execStokeCsRise
  try dsimp only
  with_reducible repeat' first
    | assumption | intro _ | exact Kept.refl _ | apply State.set_kept | apply State.stokeOut_kept | apply State.stokeJudge_kept
    | (apply kept_then; (focus ((repeat' first | exact Kept.refl _ | apply State.set_kept | apply State.stokeOut_kept | apply State.stokeJudge_kept | apply kept_ite); done)))
    | apply kept_ite | split | apply kept_ok | dsimp only

end Sys2Proof.Machine
end

