-- ==== Sys2Proof/Laws/KeptSys.lean ====
section
/-! SUPPORT. The definitions of Machine/Sys.lean keep what every effect keeps: the queue, time, the count of free values, and the
canonical forms. -/
namespace Sys2Proof.Machine
open Sys2Proof

set_option linter.unusedVariables false
set_option linter.unusedSimpArgs false
set_option linter.unusedTactic false
set_option linter.unreachableTactic false
set_option linter.tactic.unusedName false

variable {s0 : State}

theorem execNop_kept (x : Side) (s : State) (hk : Kept s0 s) : KeptOut s0 (execNop x s) := by
  unfold execNop
  with_reducible repeat' first
    | assumption | intro _ | apply State.done_kept | apply State.chromir_kept | apply kept_ok

theorem execSysInfo_kept (x : Side) (s : State) (hk : Kept s0 s) : KeptOut s0 (execSysInfo x s) := by
  unfold execSysInfo
  with_reducible repeat' first
    | assumption | intro _ | apply State.done_kept | apply State.chromir_kept | apply kept_ok

theorem execSysEcho_kept (x : Side) (s : State) (hk : Kept s0 s) : KeptOut s0 (execSysEcho x s) := by
  unfold execSysEcho
  with_reducible repeat' first
    | assumption | intro _ | apply State.done_kept | apply State.chromir_kept | apply kept_ok

theorem State.unitReset_kept (s : State) (j : Job) (u : UnitId) (hk : Kept s0 s) : Kept s0 (State.unitReset s j u) := by
  unfold State.unitReset
  try dsimp only
  with_reducible repeat' first
    | assumption | intro _ | apply State.done_kept | apply State.doneAbsent_kept | apply State.asMaster_kept | apply State.goAbsent_kept
    | apply kept_ite | simp only [kept_mk] | split | refine kept_of_snd (by assumption) ?_ | refine kept_of_fst (by assumption) ?_
    | refine kept_of_some (by assumption) ?_ | dsimp only

theorem execSysUnitReset_kept (x : Side) (s : State) (hk : Kept s0 s) : KeptOut s0 (execSysUnitReset x s) := by
  unfold execSysUnitReset
  try dsimp only
  with_reducible repeat' first
    | assumption | intro _ | apply State.done_kept | apply State.chromir_kept | apply State.unitReset_kept | simp only [kept_mk] | split
    | refine kept_of_snd (by assumption) ?_ | refine kept_of_fst (by assumption) ?_ | refine kept_of_some (by assumption) ?_ | apply kept_ok
    | dsimp only

end Sys2Proof.Machine
end

