-- ==== Sys2Proof/Laws/KeptStoker.lean ====
section
/-! SUPPORT. The definitions of Machine/Stoker.lean keep what every effect keeps: the queue, time, the count of free values, and the
canonical forms. -/
namespace Sys2Proof.Machine
open Sys2Proof

set_option linter.unusedVariables false
set_option linter.unusedSimpArgs false
set_option linter.unusedTactic false
set_option linter.unreachableTactic false
set_option linter.tactic.unusedName false

variable {s0 : State}

theorem State.scanOn_kept (s : State) (x : Side) (i : Nat) (hk : Kept s0 s) : Kept s0 (State.scanOn s x i) := by
  unfold State.scanOn
  try dsimp only
  with_reducible repeat' first
    | assumption | intro _ | apply State.setSide_kept | simp only [kept_mk] | dsimp only

theorem State.stall_kept (s : State) (x : Side) (i : Nat) (hk : Kept s0 s) : Kept s0 (State.stall s x i) := by
  unfold State.stall
  with_reducible repeat' first
    | assumption | apply State.set_kept | apply State.inc_kept | apply kept_ite | split

theorem State.takeHead_kept (s : State) (x : Side) (i : Nat) (hk : Kept s0 s) : Kept s0 (State.takeHead s x i) := by
  unfold State.takeHead
  try dsimp only
  with_reducible repeat' first
    | assumption | apply State.set_kept | apply State.inc_kept | apply State.setSide_kept | apply State.setSrc_kept
    | apply State.pairGoOn_kept | apply kept_ite | simp only [kept_mk] | split | dsimp only

theorem State.tagBusy_kept (s : State) (x : Side) (i : Nat) (k : Packet) (hk : Kept s0 s) : Kept s0 (State.tagBusy s x i k) := by
  unfold State.tagBusy
  try dsimp only
  with_reducible repeat' first
    | assumption | apply State.inc_kept | apply State.enqueue_kept | apply kept_ite | split | dsimp only

theorem State.send_kept (s : State) (x : Side) (j : Job) (hk : Kept s0 s) : Kept s0 (State.send s x j) := by
  unfold State.send
  try dsimp only
  with_reducible repeat' first
    | assumption | apply State.setSide_kept | apply State.longMove_kept | apply State.fast_kept | simp only [kept_mk] | split
    | refine kept_of_snd (by assumption) ?_ | refine kept_of_fst (by assumption) ?_ | refine kept_of_some (by assumption) ?_ | dsimp only

theorem State.rangeRefused_kept (s : State) (x : Side) (k : Packet) (hk : Kept s0 s) : Kept s0 (State.rangeRefused s x k) := by
  unfold State.rangeRefused
  try dsimp only
  with_reducible repeat' first
    | assumption | apply State.logFault_kept | apply State.wotViolation_kept | apply kept_ite | simp only [kept_mk] | split
    | refine kept_of_snd (by assumption) ?_ | refine kept_of_fst (by assumption) ?_ | refine kept_of_some (by assumption) ?_ | dsimp only

theorem State.dispatch_kept (s : State) (x : Side) (i : Nat) (j : Job) (hk : Kept s0 s) : Kept s0 (State.dispatch s x i j) := by
  unfold State.dispatch
  try dsimp only
  with_reducible repeat' first
    | assumption | exact Kept.refl _ | apply State.inc_kept | apply State.setSrc_kept | apply State.answer_kept | apply State.fast_kept
    | apply State.send_kept | apply State.rangeRefused_kept
    | (apply kept_then; (focus ((repeat' first | exact Kept.refl _ | apply State.inc_kept | apply State.setSrc_kept | apply State.answer_kept | apply State.fast_kept | apply State.send_kept | apply State.rangeRefused_kept | apply kept_ite); done)))
    | apply kept_ite | simp only [kept_mk] | split | refine kept_of_snd (by assumption) ?_ | refine kept_of_fst (by assumption) ?_
    | refine kept_of_some (by assumption) ?_ | dsimp only

theorem State.takePacket_kept (s : State) (x : Side) (i : Nat) (k : Packet) (hk : Kept s0 s) :
    Kept s0 (State.takePacket s x i k) := by
  unfold State.takePacket
  try dsimp only
  with_reducible repeat' first
    | assumption | intro _ | apply State.takeHead_kept | apply State.tagBusy_kept | apply State.dispatch_kept | apply kept_ite | split
    | dsimp only

theorem execStokerTake_kept (x : Side) (src : Fin 33) (s : State) (hk : Kept s0 s) : KeptOut s0 (execStokerTake x src s) := by
  unfold execStokerTake
  try dsimp only
  with_reducible repeat' first
    | assumption | exact Kept.refl _ | apply State.scanOn_kept | apply State.stall_kept | apply State.takePacket_kept
    | (apply kept_then; (focus ((repeat' first | exact Kept.refl _ | apply State.scanOn_kept | apply State.stall_kept | apply State.takePacket_kept | apply kept_ite); done)))
    | apply kept_ite | simp only [kept_mk] | split | refine kept_of_snd (by assumption) ?_ | refine kept_of_fst (by assumption) ?_
    | refine kept_of_some (by assumption) ?_ | apply kept_ok | dsimp only

theorem execGrateReply_kept (x : Side) (d : Fin 4) (s : State) (hk : Kept s0 s) : KeptOut s0 (execGrateReply x d s) := by
  unfold execGrateReply
  try dsimp only
  with_reducible repeat' first
    | assumption | apply State.setSide_kept | apply State.deliver_kept | apply State.sendReplies_kept | simp only [kept_mk] | split
    | refine kept_of_snd (by assumption) ?_ | refine kept_of_fst (by assumption) ?_ | refine kept_of_some (by assumption) ?_ | apply kept_ok
    | dsimp only

theorem execLongOperationComplete_kept (x : Side) (s : State) (hk : Kept s0 s) : KeptOut s0 (execLongOperationComplete x s) := by
  unfold execLongOperationComplete
  try dsimp only
  with_reducible repeat' first
    | assumption | apply State.setSide_kept | apply State.deliver_kept | apply State.imageApply_kept | apply kept_ite | simp only [kept_mk]
    | split | refine kept_of_snd (by assumption) ?_ | refine kept_of_fst (by assumption) ?_ | refine kept_of_some (by assumption) ?_
    | apply kept_ok | dsimp only

theorem State.updateEnd_kept (s : State) (x : Side) (hk : Kept s0 s) : Kept s0 (State.updateEnd s x) := by
  unfold State.updateEnd
  try dsimp only
  with_reducible repeat' first
    | assumption | apply State.set_kept | apply State.setSide_kept | simp only [kept_mk] | dsimp only

theorem execChromirReady_kept (x : Side) (s : State) (hk : Kept s0 s) : KeptOut s0 (execChromirReady x s) := by
  unfold execChromirReady
  try dsimp only
  with_reducible repeat' first
    | assumption | apply State.answer_kept | apply State.imageApply_kept | apply State.movePointer_kept | apply State.updateEnd_kept
    | simp only [kept_mk] | split | refine kept_of_snd (by assumption) ?_ | refine kept_of_fst (by assumption) ?_
    | refine kept_of_some (by assumption) ?_ | apply kept_ok | dsimp only

theorem execChromirRevert_kept (x : Side) (s : State) (hk : Kept s0 s) : KeptOut s0 (execChromirRevert x s) := by
  unfold execChromirRevert
  try dsimp only
  with_reducible repeat' first
    | assumption | apply State.log_kept | apply State.answer_kept | apply State.due_kept | apply State.updateEnd_kept | simp only [kept_mk]
    | split | refine kept_of_snd (by assumption) ?_ | refine kept_of_fst (by assumption) ?_ | refine kept_of_some (by assumption) ?_
    | apply kept_ok | dsimp only

theorem State.timeOut_kept (s : State) (j : Job) (hk : Kept s0 s) : Kept s0 (State.timeOut s j) := by
  unfold State.timeOut
  try dsimp only
  with_reducible repeat' first
    | assumption | apply State.inc_kept | apply State.setSide_kept | apply State.answer_kept | simp only [kept_mk] | dsimp only

/-- Every ordinary opcode keeps it. -/
theorem chromirCodes_kept (c : Nat × (Side → State → Out)) (h : c ∈ chromirCodes) : ∀ (x : Side) (s : State), Kept s0 s → KeptOut s0 (c.2 x s) := by
  revert c
  unfold chromirCodes
  simp only [List.cons_append, List.nil_append, List.forall_mem_cons]
  exact ⟨
    fun x s hk => execNop_kept x s hk, fun x s hk => execSysInfo_kept x s hk, fun x s hk => execSysStateSet_kept x s hk,
    fun x s hk => execSysStateGet_kept x s hk, fun x s hk => execSysUnitReset_kept x s hk, fun x s hk => execSysEcho_kept x s hk,
    fun x s hk => execCfgModeSet_kept x s hk, fun x s hk => execCfgModeGet_kept x s hk, fun x s hk => execCfgFieldRead_kept x s hk,
    fun x s hk => execCfgFieldWrite_kept x s hk, fun x s hk => execChConfig_kept x s hk, fun x s hk => execChClear_kept x s hk,
    fun x s hk => execChMeasure_kept x s hk, fun x s hk => execDmpStatus_kept x s hk, fun x s hk => execDmpPrioritySet_kept x s hk,
    fun x s hk => execDmpWireQuery_kept x s hk, fun x s hk => execDmpHarnessRead_kept x s hk, fun x s hk => execSpkRuleWrite_kept x s hk,
    fun x s hk => execSpkRuleEnable_kept x s hk, fun x s hk => execSpkRuleQuery_kept x s hk, fun x s hk => execSpkStats_kept x s hk,
    fun x s hk => execCanModeSet_kept x s hk, fun x s hk => execCanWakeCfg_kept x s hk, fun x s hk => execCanAwakeReport_kept x s hk,
    fun x s hk => execCanSealKey_kept x s hk, fun x s hk => execNetTokenClaim_kept x s hk, fun x s hk => execNetTokenRelease_kept x s hk,
    fun x s hk => execNetBypassState_kept x s hk, fun x s hk => execNetSaInstall_kept x s hk, fun x s hk => execNetMirrorSet_kept x s hk,
    fun x s hk => execTimeStatus_kept x s hk, fun x s hk => execTimeStepAccept_kept x s hk, fun x s hk => execTimePulseSet_kept x s hk,
    fun x s hk => execTimeCaptureRead_kept x s hk, fun x s hk => execTimeServoSet_kept x s hk, fun x s hk => execWldStatus_kept x s hk,
    fun x s hk => execWldRestart_kept x s hk, fun x s hk => execWldMeasureGet_kept x s hk, fun x s hk => execWldDebugUnlock_kept x _ _ s hk,
    fun x s hk => execCalRead_kept x s hk, fun x s hk => execLogRead_kept x s hk, fun x s hk => execLogMark_kept x s hk,
    fun x s hk => execSideStatus_kept x s hk, fun x s hk => execSideClaim_kept x s hk, fun x s hk => execSideRelease_kept x s hk,
    fun x s hk => execSideMirrorSet_kept x s hk, fun x s hk => execSideReturnPolicy_kept x s hk, fun _ h => nomatch h⟩

/-- The opcode that a search finds. -/
theorem kept_found {p : Nat × (Side → State → Out) → Bool} {n : Nat} {f : Side → State → Out} {x : Side} {s : State}
    (h : chromirCodes.find? p = some (n, f)) (hk : Kept s0 s) : KeptOut s0 (f x s) :=
  chromirCodes_kept (n, f) (List.mem_of_find?_eq_some h) x s hk

theorem outState_kept (s : State) (o : Out) (hk : Kept s0 s) (ho : KeptOut s0 o) : Kept s0 (outState s o) := by
  unfold outState
  split
  · exact ho
  · exact hk

theorem State.runLong_kept (s : State) (x : Side) (j : Job) (a : Bool) (b : Bool) (hk : Kept s0 s) :
    Kept s0 (State.runLong s x j a b) := by
  unfold State.runLong
  try dsimp only
  with_reducible repeat' first
    | assumption | exact Kept.refl _ | apply State.imageApply_kept | apply execDmpHarnessBurn_kept | apply execCfgImageLoad_kept
    | apply execCalWrite_kept | apply outState_kept
    | (apply kept_then; (focus ((repeat' first | exact Kept.refl _ | apply State.imageApply_kept | apply execDmpHarnessBurn_kept | apply execCfgImageLoad_kept | apply execCalWrite_kept | apply outState_kept | apply kept_ite); done)))
    | apply kept_ite | simp only [kept_mk] | split | refine kept_of_snd (by assumption) ?_ | refine kept_of_fst (by assumption) ?_
    | refine kept_of_some (by assumption) ?_ | dsimp only

theorem State.afterTimeout_kept (s : State) (x : Side) (j : Job) (hk : Kept s0 s) : Kept s0 (State.afterTimeout s x j) := by
  unfold State.afterTimeout
  try dsimp only
  with_reducible repeat' first
    | assumption | intro _ | apply State.setSide_kept | apply State.took_kept | apply State.long_kept | apply outState_kept
    | apply State.runLong_kept | refine kept_found (by assumption) ?_ | apply kept_ite | simp only [kept_mk] | split
    | refine kept_of_snd (by assumption) ?_ | refine kept_of_fst (by assumption) ?_ | refine kept_of_some (by assumption) ?_ | dsimp only

theorem State.dropModes_kept (s : State) (x : Side) (hk : Kept s0 s) : Kept s0 (State.dropModes s x) := by
  unfold State.dropModes
  try dsimp only
  with_reducible repeat' first
    | assumption | intro _ | apply State.each_kept | apply State.setSide_kept | apply State.took_kept | apply kept_ite | simp only [kept_mk]
    | split | dsimp only

theorem State.restartChromir_kept (s : State) (x : Side) (b : Nat × Job) (hk : Kept s0 s) :
    Kept s0 (State.restartChromir s x b) := by
  unfold State.restartChromir
  try dsimp only
  with_reducible repeat' first
    | assumption | intro _ | apply State.set_kept | apply State.each_kept | apply State.setSide_kept | apply State.setChan_kept
    | apply State.log_kept | apply State.due_kept | apply State.sideDown_kept | apply State.timeOut_kept | apply State.afterTimeout_kept
    | apply State.dropModes_kept | apply kept_ite | simp only [kept_mk] | split | dsimp only

theorem execChromirTimeout_kept (x : Side) (s : State) (hk : Kept s0 s) : KeptOut s0 (execChromirTimeout x s) := by
  unfold execChromirTimeout
  try dsimp only
  with_reducible repeat' first
    | assumption | intro _ | apply State.due_kept | apply State.claimReplies_kept | apply State.restartChromir_kept | apply kept_ite
    | simp only [kept_mk] | split | refine kept_of_snd (by assumption) ?_ | refine kept_of_fst (by assumption) ?_
    | refine kept_of_some (by assumption) ?_ | apply kept_ok | dsimp only

theorem execChromirRestartDone_kept (x : Side) (s : State) (hk : Kept s0 s) : KeptOut s0 (execChromirRestartDone x s) := by
  unfold execChromirRestartDone
  try dsimp only
  with_reducible repeat' first
    | assumption | apply State.set_kept | apply State.setSide_kept | apply kept_ite | simp only [kept_mk] | split | apply kept_ok
    | dsimp only

theorem execGrateTimeout_kept (x : Side) (d : Fin 4) (s : State) (hk : Kept s0 s) : KeptOut s0 (execGrateTimeout x d s) := by
  unfold execGrateTimeout
  try dsimp only
  with_reducible repeat' first
    | assumption | intro _ | apply State.setSide_kept | apply State.took_kept | apply State.log_kept | apply State.due_kept
    | apply State.timeOut_kept | apply kept_ite | simp only [kept_mk] | split | refine kept_of_snd (by assumption) ?_
    | refine kept_of_fst (by assumption) ?_ | refine kept_of_some (by assumption) ?_ | apply kept_ok | dsimp only

end Sys2Proof.Machine
end

