-- ==== Sys2Proof/Laws/KeptExec.lean ====
section
/-! SUPPORT. What every command keeps: the queue, the order of time, and the canonical form of memory and registers. -/
namespace Sys2Proof.Machine
open Sys2Proof

/-- Every command keeps what `Kept` says. -/
theorem exec_kept (c : Instr) (s : State) : KeptOut s (exec c s) := by
  cases c with
  | nop x => exact execNop_kept _ s (Kept.refl s)
  | sysInfo x => exact execSysInfo_kept _ s (Kept.refl s)
  | sysStateSet x => exact execSysStateSet_kept _ s (Kept.refl s)
  | sysStateGet x => exact execSysStateGet_kept _ s (Kept.refl s)
  | sysUnitReset x => exact execSysUnitReset_kept _ s (Kept.refl s)
  | sysEcho x => exact execSysEcho_kept _ s (Kept.refl s)
  | cfgModeSet x => exact execCfgModeSet_kept _ s (Kept.refl s)
  | cfgModeGet x => exact execCfgModeGet_kept _ s (Kept.refl s)
  | cfgFieldRead x => exact execCfgFieldRead_kept _ s (Kept.refl s)
  | cfgFieldWrite x => exact execCfgFieldWrite_kept _ s (Kept.refl s)
  | cfgImageLoad x good lost corr => exact execCfgImageLoad_kept _ _ _ _ s (Kept.refl s)
  | cfgImageVerify x => exact execCfgImageVerify_kept _ s (Kept.refl s)
  | chSet x d => exact execChSet_kept _ _ s (Kept.refl s)
  | chPwm x d => exact execChPwm_kept _ _ s (Kept.refl s)
  | chConfig x => exact execChConfig_kept _ s (Kept.refl s)
  | chQuery x d => exact execChQuery_kept _ _ s (Kept.refl s)
  | chClear x => exact execChClear_kept _ s (Kept.refl s)
  | chGroupSet x d => exact execChGroupSet_kept _ _ s (Kept.refl s)
  | chMeasure x => exact execChMeasure_kept _ s (Kept.refl s)
  | chMeasureWindowEnd d n => exact execChMeasureWindowEnd_kept _ _ s (Kept.refl s)
  | dmpStatus x => exact execDmpStatus_kept _ s (Kept.refl s)
  | dmpPrioritySet x => exact execDmpPrioritySet_kept _ s (Kept.refl s)
  | dmpWireQuery x => exact execDmpWireQuery_kept _ s (Kept.refl s)
  | dmpHarnessRead x => exact execDmpHarnessRead_kept _ s (Kept.refl s)
  | dmpHarnessBurn x good => exact execDmpHarnessBurn_kept _ _ s (Kept.refl s)
  | spkRuleWrite x => exact execSpkRuleWrite_kept _ s (Kept.refl s)
  | spkRuleEnable x => exact execSpkRuleEnable_kept _ s (Kept.refl s)
  | spkRuleQuery x => exact execSpkRuleQuery_kept _ s (Kept.refl s)
  | spkStats x => exact execSpkStats_kept _ s (Kept.refl s)
  | canModeSet x => exact execCanModeSet_kept _ s (Kept.refl s)
  | canWakeCfg x => exact execCanWakeCfg_kept _ s (Kept.refl s)
  | canAwakeReport x => exact execCanAwakeReport_kept _ s (Kept.refl s)
  | canSealKey x => exact execCanSealKey_kept _ s (Kept.refl s)
  | netTokenClaim x => exact execNetTokenClaim_kept _ s (Kept.refl s)
  | netTokenRelease x => exact execNetTokenRelease_kept _ s (Kept.refl s)
  | netBypassState x => exact execNetBypassState_kept _ s (Kept.refl s)
  | netSaInstall x => exact execNetSaInstall_kept _ s (Kept.refl s)
  | netMirrorSet x => exact execNetMirrorSet_kept _ s (Kept.refl s)
  | timeStatus x => exact execTimeStatus_kept _ s (Kept.refl s)
  | timeStepAccept x => exact execTimeStepAccept_kept _ s (Kept.refl s)
  | timePulseSet x => exact execTimePulseSet_kept _ s (Kept.refl s)
  | timeCaptureRead x => exact execTimeCaptureRead_kept _ s (Kept.refl s)
  | timeServoSet x => exact execTimeServoSet_kept _ s (Kept.refl s)
  | wldStatus x => exact execWldStatus_kept _ s (Kept.refl s)
  | wldRestart x => exact execWldRestart_kept _ s (Kept.refl s)
  | wldMeasureGet x => exact execWldMeasureGet_kept _ s (Kept.refl s)
  | wldDebugUnlock x lost corr => exact execWldDebugUnlock_kept _ _ _ s (Kept.refl s)
  | calRead x => exact execCalRead_kept _ s (Kept.refl s)
  | calWrite x goodA goodB => exact execCalWrite_kept _ _ _ s (Kept.refl s)
  | logRead x => exact execLogRead_kept _ s (Kept.refl s)
  | logMark x => exact execLogMark_kept _ s (Kept.refl s)
  | sideStatus x => exact execSideStatus_kept _ s (Kept.refl s)
  | sideClaim x => exact execSideClaim_kept _ s (Kept.refl s)
  | sideRelease x => exact execSideRelease_kept _ s (Kept.refl s)
  | sideMirrorSet x => exact execSideMirrorSet_kept _ s (Kept.refl s)
  | sideReturnPolicy x => exact execSideReturnPolicy_kept _ s (Kept.refl s)
  | doorCmdWrite x o n w => exact execDoorCmdWrite_kept _ _ _ _ s (Kept.refl s)
  | doorCmdHiWrite x o n v => exact execDoorCmdHiWrite_kept _ _ _ _ s (Kept.refl s)
  | doorCmdLoWrite x o n v => exact execDoorCmdLoWrite_kept _ _ _ _ s (Kept.refl s)
  | doorRplRead x o n => exact execDoorRplRead_kept _ _ _ s (Kept.refl s)
  | doorRplHiRead x o n => exact execDoorRplHiRead_kept _ _ _ s (Kept.refl s)
  | doorFlush x o n => exact execDoorFlush_kept _ _ _ s (Kept.refl s)
  | stokerTake x src => exact execStokerTake_kept _ _ s (Kept.refl s)
  | grateReply x d => exact execGrateReply_kept _ _ s (Kept.refl s)
  | longOperationComplete x => exact execLongOperationComplete_kept _ s (Kept.refl s)
  | chromirTimeout x => exact execChromirTimeout_kept _ s (Kept.refl s)
  | chromirRestartDone x => exact execChromirRestartDone_kept _ s (Kept.refl s)
  | grateTimeout x d => exact execGrateTimeout_kept _ _ s (Kept.refl s)
  | chromirReady x => exact execChromirReady_kept _ s (Kept.refl s)
  | chromirRevert x => exact execChromirRevert_kept _ s (Kept.refl s)
  | stokeCsFall x => exact execStokeCsFall_kept _ s (Kept.refl s)
  | stokeCsRise x ws extra => exact execStokeCsRise_kept _ _ _ s (Kept.refl s)
  | intrClaim x o w => exact execIntrClaim_kept _ _ _ s (Kept.refl s)
  | dmaGo x o n v => exact execDmaGo_kept _ _ _ _ s (Kept.refl s)
  | dmaCopyDone x n lost corr => exact execDmaCopyDone_kept _ _ _ _ s (Kept.refl s)
  | unitAbsent u => exact execUnitAbsent_kept _ s (Kept.refl s)
  | unitReady u => exact execUnitReady_kept _ s (Kept.refl s)
  | grateSampleTick d smp feed => exact execGrateSampleTick_kept _ _ _ s (Kept.refl s)
  | measurementArrival x prod => exact execMeasurementArrival_kept _ _ s (Kept.refl s)
  | sampleGap x d tick => exact execSampleGap_kept _ _ _ s (Kept.refl s)
  | ainSample x codes => exact execAinSample_kept _ _ s (Kept.refl s)
  | dinEdge x n level => exact execDinEdge_kept _ _ _ s (Kept.refl s)
  | wireModelStep d => exact execWireModelStep_kept _ s (Kept.refl s)
  | budgetExchange coolant pLogic silent => exact execBudgetExchange_kept _ _ _ s (Kept.refl s)
  | holdExpiry d n => exact execHoldExpiry_kept _ _ s (Kept.refl s)
  | budgetOverTime b => exact execBudgetOverTime_kept _ s (Kept.refl s)
  | derateAssert => exact execDerateAssert_kept s (Kept.refl s)
  | derateEnd => exact execDerateEnd_kept s (Kept.refl s)
  | rideAssert d => exact execRideAssert_kept _ s (Kept.refl s)
  | rideEnd d => exact execRideEnd_kept _ s (Kept.refl s)
  | emberLowFeedAssert f => exact execEmberLowFeedAssert_kept _ s (Kept.refl s)
  | emberLowFeedClear => exact execEmberLowFeedClear_kept s (Kept.refl s)
  | turnOnComplete d n => exact execTurnOnComplete_kept _ _ s (Kept.refl s)
  | limitEntry d n => exact execLimitEntry_kept _ _ s (Kept.refl s)
  | limitExit d n => exact execLimitExit_kept _ _ s (Kept.refl s)
  | inrushTimeout d n => exact execInrushTimeout_kept _ _ s (Kept.refl s)
  | tsdEntry d n => exact execTsdEntry_kept _ _ s (Kept.refl s)
  | tsdExit d n => exact execTsdExit_kept _ _ s (Kept.refl s)
  | reverseCurrent d n => exact execReverseCurrent_kept _ _ s (Kept.refl s)
  | measSelfCheck d n pass => exact execMeasSelfCheck_kept _ _ _ s (Kept.refl s)
  | retryAttempt d n => exact execRetryAttempt_kept _ _ s (Kept.refl s)
  | retriesClear d n => exact execRetriesClear_kept _ _ s (Kept.refl s)
  | feedBusAbsent d reversed => exact execFeedBusAbsent_kept _ _ s (Kept.refl s)
  | feedBusReturn d => exact execFeedBusReturn_kept _ s (Kept.refl s)
  | feedReturnTurnOn d => exact execFeedReturnTurnOn_kept _ s (Kept.refl s)
  | feedOvervoltage d high => exact execFeedOvervoltage_kept _ _ s (Kept.refl s)
  | pwmPeriodStart d n => exact execPwmPeriodStart_kept _ _ s (Kept.refl s)
  | pwmOffEdge d n => exact execPwmOffEdge_kept _ _ s (Kept.refl s)
  | sparkSourceEvent m => exact execSparkSourceEvent_kept _ s (Kept.refl s)
  | sparkActionArrival m d => exact execSparkActionArrival_kept _ _ s (Kept.refl s)
  | sparkAnswer m d => exact execSparkAnswer_kept _ _ s (Kept.refl s)
  | commitTick x unready => exact execCommitTick_kept _ _ s (Kept.refl s)
  | vacantClaim x => exact execVacantClaim_kept _ s (Kept.refl s)
  | calLateRepair => exact execCalLateRepair_kept s (Kept.refl s)
  | heartbeat x lanes => exact execHeartbeat_kept _ _ s (Kept.refl s)
  | tokenLapse t => exact execTokenLapse_kept _ s (Kept.refl s)
  | tokenResumed t => exact execTokenResumed_kept _ s (Kept.refl s)
  | autoClaim x t => exact execAutoClaim_kept _ _ s (Kept.refl s)
  | handoverWindowClose d => exact execHandoverWindowClose_kept _ s (Kept.refl s)
  | orderlyRelease t => exact execOrderlyRelease_kept _ s (Kept.refl s)
  | crossPulse x arrives healthy => exact execCrossPulse_kept _ _ _ s (Kept.refl s)
  | peerLost x => exact execPeerLost_kept _ s (Kept.refl s)
  | crossLost x => exact execCrossLost_kept _ s (Kept.refl s)
  | crossRestored x => exact execCrossRestored_kept _ s (Kept.refl s)
  | sideDown x => exact execSideDown_kept _ s (Kept.refl s)
  | grateLinkLost x d => exact execGrateLinkLost_kept _ _ s (Kept.refl s)
  | returnHome t => exact execReturnHome_kept _ s (Kept.refl s)
  | mirrorCheckpoint x => exact execMirrorCheckpoint_kept _ s (Kept.refl s)
  | sideCkptGo x o v => exact execSideCkptGo_kept _ _ _ s (Kept.refl s)
  | pairOutHiWrite x o v => exact execPairOutHiWrite_kept _ _ _ s (Kept.refl s)
  | pairOutLoWrite x o v bad => exact execPairOutLoWrite_kept _ _ _ _ s (Kept.refl s)
  | pairOutTimeout x => exact execPairOutTimeout_kept _ s (Kept.refl s)
  | pairSigHiWrite x o v => exact execPairSigHiWrite_kept _ _ _ s (Kept.refl s)
  | pairSigLoWrite x o v bad => exact execPairSigLoWrite_kept _ _ _ _ s (Kept.refl s)
  | pairSigTimeout x => exact execPairSigTimeout_kept _ s (Kept.refl s)
  | pairRplHiRead x o => exact execPairRplHiRead_kept _ _ s (Kept.refl s)
  | bridgePoll x n arrives => exact execBridgePoll_kept _ _ _ s (Kept.refl s)
  | bridgeSplit x n ref => exact execBridgeSplit_kept _ _ _ s (Kept.refl s)
  | bridgeTimeout x n ref => exact execBridgeTimeout_kept _ _ _ s (Kept.refl s)
  | bridgeAnswer x n ref ecc => exact execBridgeAnswer_kept _ _ _ _ s (Kept.refl s)
  | bridgeAtGo x o v => exact execBridgeAtGo_kept _ _ _ s (Kept.refl s)
  | bridgeAtDone x h ecc => exact execBridgeAtDone_kept _ _ _ s (Kept.refl s)
  | bridgeLockAcquire x o v => exact execBridgeLockAcquire_kept _ _ _ s (Kept.refl s)
  | bridgeLockGrant x h => exact execBridgeLockGrant_kept _ _ s (Kept.refl s)
  | bridgeLockRelease x o v => exact execBridgeLockRelease_kept _ _ _ s (Kept.refl s)
  | bridgeLockBroken x h => exact execBridgeLockBroken_kept _ _ s (Kept.refl s)
  | bridgeLockGrantTimeout x h => exact execBridgeLockGrantTimeout_kept _ _ s (Kept.refl s)
  | bridgeLockRead x o => exact execBridgeLockRead_kept _ _ s (Kept.refl s)
  | bridgeSwi x o v => exact execBridgeSwi_kept _ _ _ s (Kept.refl s)
  | sysStateDelayEnd => exact execSysStateDelayEnd_kept s (Kept.refl s)
  | powerOn => exact execPowerOn_kept s (Kept.refl s)
  | wakeKl15 => exact execWakeKl15_kept s (Kept.refl s)
  | wakeLoc n => exact execWakeLoc_kept _ s (Kept.refl s)
  | rtcAlarm => exact execRtcAlarm_kept s (Kept.refl s)
  | canWakePattern k => exact execCanWakePattern_kept _ s (Kept.refl s)
  | canWakeFrame k fr => exact execCanWakeFrame_kept _ _ s (Kept.refl s)
  | canFrameErrWake k => exact execCanFrameErrWake_kept _ s (Kept.refl s)
  | tc10WakePulse p => exact execTc10WakePulse_kept _ s (Kept.refl s)
  | powerGood g bad test => exact execPowerGood_kept _ _ _ s (Kept.refl s)
  | powerGoodTimeout g => exact execPowerGoodTimeout_kept _ s (Kept.refl s)
  | wakeBlockEnd kl15 loc => exact execWakeBlockEnd_kept _ _ s (Kept.refl s)
  | crystalTimeout x => exact execCrystalTimeout_kept _ s (Kept.refl s)
  | pllLock x calOk mode => exact execPllLock_kept _ _ _ s (Kept.refl s)
  | stokerReady x => exact execStokerReady_kept _ s (Kept.refl s)
  | worldImageVerified x w => exact execWorldImageVerified_kept _ _ s (Kept.refl s)
  | flueRefCheck present ext => exact execFlueRefCheck_kept _ _ s (Kept.refl s)
  | flueRefLoss => exact execFlueRefLoss_kept s (Kept.refl s)
  | confirmation c => exact execConfirmation_kept _ s (Kept.refl s)
  | confirmWindowEnd => exact execConfirmWindowEnd_kept s (Kept.refl s)
  | litEntry x => exact execLitEntry_kept _ s (Kept.refl s)
  | bankTimeLimit => exact execBankTimeLimit_kept s (Kept.refl s)
  | sleepStart => exact execSleepStart_kept s (Kept.refl s)
  | sleepDrainComplete => exact execSleepDrainComplete_kept s (Kept.refl s)
  | sleepArm kl15 loc => exact execSleepArm_kept _ _ s (Kept.refl s)
  | feedLoss f => exact execFeedLoss_kept _ s (Kept.refl s)
  | feedReturn f => exact execFeedReturn_kept _ s (Kept.refl s)
  | emberOvervoltage f => exact execEmberOvervoltage_kept _ s (Kept.refl s)
  | emberFeedSample va vb => exact execEmberFeedSample_kept _ _ s (Kept.refl s)
  | sideResetAssert x => exact execSideResetAssert_kept _ s (Kept.refl s)
  | sideResetRelease x => exact execSideResetRelease_kept _ s (Kept.refl s)
  | gateCall x h insn pc priv virt => exact execGateCall_kept _ _ _ _ _ _ s (Kept.refl s)
  | gateLand x h insn pc => exact execGateLand_kept _ _ _ _ s (Kept.refl s)
  | gateRet x h insn pc => exact execGateRet_kept _ _ _ _ s (Kept.refl s)
  | worldWatchdog x w => exact execWorldWatchdog_kept _ _ s (Kept.refl s)
  | wldKick x o w v => exact execWldKick_kept _ _ _ _ s (Kept.refl s)
  | worldReady x w => exact execWorldReady_kept _ _ s (Kept.refl s)
  | wotSyncGo x o v => exact execWotSyncGo_kept _ _ _ s (Kept.refl s)
  | wotSyncComplete x => exact execWotSyncComplete_kept _ s (Kept.refl s)
  | securityLockdown x => exact execSecurityLockdown_kept _ s (Kept.refl s)
  | wotSecClear x o v => exact execWotSecClear_kept _ _ _ s (Kept.refl s)
  | keysInstall x o slot => exact execKeysInstall_kept _ _ _ s (Kept.refl s)
  | keysBurn x o slot => exact execKeysBurn_kept _ _ _ s (Kept.refl s)
  | keysRevoke x o slot => exact execKeysRevoke_kept _ _ _ s (Kept.refl s)
  | keysErase x o slot => exact execKeysErase_kept _ _ _ s (Kept.refl s)
  | keysCmac x o slot => exact execKeysCmac_kept _ _ _ s (Kept.refl s)
  | keysSign x o slot => exact execKeysSign_kept _ _ _ s (Kept.refl s)
  | keysVerify x o slot => exact execKeysVerify_kept _ _ _ s (Kept.refl s)
  | keysPublic x o slot => exact execKeysPublic_kept _ _ _ s (Kept.refl s)
  | keysOpComplete x lost corr => exact execKeysOpComplete_kept _ _ _ s (Kept.refl s)
  | pokerRelock x o v => exact execPokerRelock_kept _ _ _ s (Kept.refl s)
  | pokerUnlockExpiry x => exact execPokerUnlockExpiry_kept _ s (Kept.refl s)
  | tallyBoundary x => exact execTallyBoundary_kept _ s (Kept.refl s)
  | perfCounterWrap x e => exact execPerfCounterWrap_kept _ _ s (Kept.refl s)
  | perfCntRead x o n => exact execPerfCntRead_kept _ _ _ s (Kept.refl s)
  | ashSelWrite x o v => exact execAshSelWrite_kept _ _ _ s (Kept.refl s)
  | frameReceive p f others parts => exact execFrameReceive_kept _ _ _ _ s (Kept.refl s)
  | egressSelect p lost corr => exact execEgressSelect_kept _ _ _ s (Kept.refl s)
  | netifTxKick x o v lost corr => exact execNetifTxKick_kept _ _ _ _ _ s (Kept.refl s)
  | fdbAgeing => exact execFdbAgeing_kept s (Kept.refl s)
  | fdbInsertStatic x o => exact execFdbInsertStatic_kept _ _ s (Kept.refl s)
  | fdbDelete x o => exact execFdbDelete_kept _ _ s (Kept.refl s)
  | fdbLookup x o => exact execFdbLookup_kept _ _ s (Kept.refl s)
  | fdbFlushAll x o => exact execFdbFlushAll_kept _ _ s (Kept.refl s)
  | fdbFlushPort x o p => exact execFdbFlushPort_kept _ _ _ s (Kept.refl s)
  | cbsUpdate => exact execCbsUpdate_kept s (Kept.refl s)
  | tasCycleStart p => exact execTasCycleStart_kept _ s (Kept.refl s)
  | frerReset n => exact execFrerReset_kept _ s (Kept.refl s)
  | linkChange l up => exact execLinkChange_kept _ _ s (Kept.refl s)
  | tc10SleepRequest p => exact execTc10SleepRequest_kept _ s (Kept.refl s)
  | portSleepReq x o p => exact execPortSleepReq_kept _ _ _ s (Kept.refl s)
  | tc10SleepTimeout p accepted => exact execTc10SleepTimeout_kept _ _ s (Kept.refl s)
  | portWake x o p => exact execPortWake_kept _ _ _ s (Kept.refl s)
  | tc10PartnerWake p => exact execTc10PartnerWake_kept _ s (Kept.refl s)
  | bypassClose => exact execBypassClose_kept s (Kept.refl s)
  | bypassOpen => exact execBypassOpen_kept s (Kept.refl s)
  | keepaliveMiss => exact execKeepaliveMiss_kept s (Kept.refl s)
  | bypassSelftest p pass => exact execBypassSelftest_kept _ _ s (Kept.refl s)
  | bypSenseChange x => exact execBypSenseChange_kept _ s (Kept.refl s)
  | lifeTxGo x o v => exact execLifeTxGo_kept _ _ _ s (Kept.refl s)
  | lifeTxDone x => exact execLifeTxDone_kept _ s (Kept.refl s)
  | lifeRxFrame x f => exact execLifeRxFrame_kept _ _ s (Kept.refl s)
  | lifeRxRelease x o v => exact execLifeRxRelease_kept _ _ _ s (Kept.refl s)
  | hvilWindow x amps volts => exact execHvilWindow_kept _ _ _ s (Kept.refl s)
  | ptpSyncRx d p msg => exact execPtpSyncRx_kept _ _ _ s (Kept.refl s)
  | syncTimeout d => exact execSyncTimeout_kept _ s (Kept.refl s)
  | gmChange d l => exact execGmChange_kept _ _ s (Kept.refl s)
  | ptpSyncTx d p stage => exact execPtpSyncTx_kept _ _ _ s (Kept.refl s)
  | pdelayExchange p resp => exact execPdelayExchange_kept _ _ s (Kept.refl s)
  | timeLinkMessage x => exact execTimeLinkMessage_kept _ s (Kept.refl s)
  | timeLinkLost x => exact execTimeLinkLost_kept _ s (Kept.refl s)
  | timeNsRead x o d => exact execTimeNsRead_kept _ _ _ s (Kept.refl s)
  | tpoEdge x n => exact execTpoEdge_kept _ _ s (Kept.refl s)
  | tciCapture x n rising => exact execTciCapture_kept _ _ _ s (Kept.refl s)
  | canFrameRx k f age ecc => exact execCanFrameRx_kept _ _ _ _ s (Kept.refl s)
  | canTxSet x o k v => exact execCanTxSet_kept _ _ _ _ s (Kept.refl s)
  | canTxCancel x o k v => exact execCanTxCancel_kept _ _ _ _ s (Kept.refl s)
  | canTxTake k ecc => exact execCanTxTake_kept _ _ s (Kept.refl s)
  | canTxEnd k r n => exact execCanTxEnd_kept _ _ _ s (Kept.refl s)
  | canRxqAck x o k q v => exact execCanRxqAck_kept _ _ _ _ _ s (Kept.refl s)
  | canShadowLoad x o k v => exact execCanShadowLoad_kept _ _ _ _ s (Kept.refl s)
  | canShadowStore x o k v => exact execCanShadowStore_kept _ _ _ _ s (Kept.refl s)
  | canShadowDone k b => exact execCanShadowDone_kept _ _ s (Kept.refl s)
  | canTtCycleStart k idle => exact execCanTtCycleStart_kept _ _ s (Kept.refl s)
  | canTtWindowStart k w idle => exact execCanTtWindowStart_kept _ _ _ s (Kept.refl s)
  | refLost k => exact execRefLost_kept _ s (Kept.refl s)
  | canRecoveryStart k => exact execCanRecoveryStart_kept _ s (Kept.refl s)
  | canRecoveryComplete k => exact execCanRecoveryComplete_kept _ s (Kept.refl s)
  | canModeApply k => exact execCanModeApply_kept _ s (Kept.refl s)
  | registerWrite x o addr wd k v es => exact execRegisterWrite_kept _ _ _ _ _ _ _ s (Kept.refl s)
  | emberPowerLoss => exact execEmberPowerLoss_kept s (Kept.refl s)
  | eccScrub x corr bad => exact execEccScrub_kept _ _ _ s (Kept.refl s)
  | checkpointComplete x lost corr => exact execCheckpointComplete_kept _ _ _ s (Kept.refl s)
  | canErrorFlag k code heavy => exact execCanErrorFlag_kept _ _ _ s (Kept.refl s)
  | pokerHalt x h act => exact execPokerHalt_kept _ _ _ s (Kept.refl s)

end Sys2Proof.Machine
end

