-- ==== Sys2Proof/Laws/State.lean ====
section
/-! SUPPORT. What each update of the state leaves and what it writes: one lemma for each update and each part of the state or reader,
so that no proof unfolds a record update. -/
namespace Sys2Proof.Machine
open Sys2Proof

variable (s : State)

/-! ## A part replaced -/

theorem State.pending_with_now (m : Nat) : (State.pending ({ s with now := m })) = s.pending := rfl
theorem State.free_with_now (m : Nat) : (State.free ({ s with now := m })) = s.free := rfl
theorem State.resp_with_now (m : Nat) : (State.resp ({ s with now := m })) = s.resp := rfl
theorem State.regs_with_now (m : Nat) : (State.regs ({ s with now := m })) = s.regs := rfl
theorem State.mem_with_now (m : Nat) : (State.mem ({ s with now := m })) = s.mem := rfl
theorem State.ember_with_now (m : Nat) : (State.ember ({ s with now := m })) = s.ember := rfl
theorem State.sa_with_now (m : Nat) : (State.sa ({ s with now := m })) = s.sa := rfl
theorem State.sb_with_now (m : Nat) : (State.sb ({ s with now := m })) = s.sb := rfl
theorem State.flue_with_now (m : Nat) : (State.flue ({ s with now := m })) = s.flue := rfl
theorem State.dies_with_now (m : Nat) : (State.dies ({ s with now := m })) = s.dies := rfl
theorem State.chans_with_now (m : Nat) : (State.chans ({ s with now := m })) = s.chans := rfl
theorem State.damper_with_now (m : Nat) : (State.damper ({ s with now := m })) = s.damper := rfl
theorem State.absent_with_now (m : Nat) : (State.absent ({ s with now := m })) = s.absent := rfl
theorem State.side_with_now (m : Nat) (y : Side) : State.side ({ s with now := m }) y = s.side y := by cases y <;> rfl
theorem State.get_with_now (m : Nat) (k : Holder) (g : Fld) (j : Nat) : State.get ({ s with now := m }) k g j = s.get k g j := rfl
theorem State.byte_with_now (m : Nat) (y : Side) (b : Nat) : State.byte ({ s with now := m }) y b = s.byte y b := rfl
theorem State.die_with_now (m : Nat) (e : Nat) : State.die ({ s with now := m }) e = s.die e := rfl
theorem State.chan_with_now (m : Nat) (c2 : Nat) : State.chan ({ s with now := m }) c2 = s.chan c2 := rfl
theorem State.src_with_now (m : Nat) (y : Side) (j : Nat) : State.src ({ s with now := m }) y j = s.src y j := by simp only [State.src, State.side_with_now]
theorem State.can_with_now (m : Nat) (y : Side) (j : Nat) : State.can ({ s with now := m }) y j = s.can y j := by simp only [State.can, State.side_with_now]
theorem State.hart_with_now (m : Nat) (y : Side) (j : Nat) : State.hart ({ s with now := m }) y j = s.hart y j := by simp only [State.hart, State.side_with_now]
theorem State.bridge_with_now (m : Nat) (y : Side) (j : Nat) : State.bridge ({ s with now := m }) y j = s.bridge y j := by simp only [State.bridge, State.side_with_now]
theorem State.up_with_now (m : Nat) (y : Side) : State.up ({ s with now := m }) y = s.up y := by simp only [State.up, State.side_with_now]
theorem State.present_with_now (m : Nat) (u : UnitId) : State.present ({ s with now := m }) u = s.present u := rfl

theorem State.now_with_free (m : Nat) : (State.now ({ s with free := m })) = s.now := rfl
theorem State.pending_with_free (m : Nat) : (State.pending ({ s with free := m })) = s.pending := rfl
theorem State.resp_with_free (m : Nat) : (State.resp ({ s with free := m })) = s.resp := rfl
theorem State.regs_with_free (m : Nat) : (State.regs ({ s with free := m })) = s.regs := rfl
theorem State.mem_with_free (m : Nat) : (State.mem ({ s with free := m })) = s.mem := rfl
theorem State.ember_with_free (m : Nat) : (State.ember ({ s with free := m })) = s.ember := rfl
theorem State.sa_with_free (m : Nat) : (State.sa ({ s with free := m })) = s.sa := rfl
theorem State.sb_with_free (m : Nat) : (State.sb ({ s with free := m })) = s.sb := rfl
theorem State.flue_with_free (m : Nat) : (State.flue ({ s with free := m })) = s.flue := rfl
theorem State.dies_with_free (m : Nat) : (State.dies ({ s with free := m })) = s.dies := rfl
theorem State.chans_with_free (m : Nat) : (State.chans ({ s with free := m })) = s.chans := rfl
theorem State.damper_with_free (m : Nat) : (State.damper ({ s with free := m })) = s.damper := rfl
theorem State.absent_with_free (m : Nat) : (State.absent ({ s with free := m })) = s.absent := rfl
theorem State.side_with_free (m : Nat) (y : Side) : State.side ({ s with free := m }) y = s.side y := by cases y <;> rfl
theorem State.get_with_free (m : Nat) (k : Holder) (g : Fld) (j : Nat) : State.get ({ s with free := m }) k g j = s.get k g j := rfl
theorem State.byte_with_free (m : Nat) (y : Side) (b : Nat) : State.byte ({ s with free := m }) y b = s.byte y b := rfl
theorem State.die_with_free (m : Nat) (e : Nat) : State.die ({ s with free := m }) e = s.die e := rfl
theorem State.chan_with_free (m : Nat) (c2 : Nat) : State.chan ({ s with free := m }) c2 = s.chan c2 := rfl
theorem State.src_with_free (m : Nat) (y : Side) (j : Nat) : State.src ({ s with free := m }) y j = s.src y j := by simp only [State.src, State.side_with_free]
theorem State.can_with_free (m : Nat) (y : Side) (j : Nat) : State.can ({ s with free := m }) y j = s.can y j := by simp only [State.can, State.side_with_free]
theorem State.hart_with_free (m : Nat) (y : Side) (j : Nat) : State.hart ({ s with free := m }) y j = s.hart y j := by simp only [State.hart, State.side_with_free]
theorem State.bridge_with_free (m : Nat) (y : Side) (j : Nat) : State.bridge ({ s with free := m }) y j = s.bridge y j := by simp only [State.bridge, State.side_with_free]
theorem State.up_with_free (m : Nat) (y : Side) : State.up ({ s with free := m }) y = s.up y := by simp only [State.up, State.side_with_free]
theorem State.present_with_free (m : Nat) (u : UnitId) : State.present ({ s with free := m }) u = s.present u := rfl
theorem State.domTime_with_free (m : Nat) (y : Side) (j : Nat) : State.domTime ({ s with free := m }) y j = s.domTime y j := by simp only [State.domTime, State.side_with_free, State.now_with_free]

theorem State.now_with_regs (m : List (FKey × Nat)) : (State.now ({ s with regs := m })) = s.now := rfl
theorem State.pending_with_regs (m : List (FKey × Nat)) : (State.pending ({ s with regs := m })) = s.pending := rfl
theorem State.free_with_regs (m : List (FKey × Nat)) : (State.free ({ s with regs := m })) = s.free := rfl
theorem State.resp_with_regs (m : List (FKey × Nat)) : (State.resp ({ s with regs := m })) = s.resp := rfl
theorem State.mem_with_regs (m : List (FKey × Nat)) : (State.mem ({ s with regs := m })) = s.mem := rfl
theorem State.ember_with_regs (m : List (FKey × Nat)) : (State.ember ({ s with regs := m })) = s.ember := rfl
theorem State.sa_with_regs (m : List (FKey × Nat)) : (State.sa ({ s with regs := m })) = s.sa := rfl
theorem State.sb_with_regs (m : List (FKey × Nat)) : (State.sb ({ s with regs := m })) = s.sb := rfl
theorem State.flue_with_regs (m : List (FKey × Nat)) : (State.flue ({ s with regs := m })) = s.flue := rfl
theorem State.dies_with_regs (m : List (FKey × Nat)) : (State.dies ({ s with regs := m })) = s.dies := rfl
theorem State.chans_with_regs (m : List (FKey × Nat)) : (State.chans ({ s with regs := m })) = s.chans := rfl
theorem State.damper_with_regs (m : List (FKey × Nat)) : (State.damper ({ s with regs := m })) = s.damper := rfl
theorem State.absent_with_regs (m : List (FKey × Nat)) : (State.absent ({ s with regs := m })) = s.absent := rfl
theorem State.side_with_regs (m : List (FKey × Nat)) (y : Side) : State.side ({ s with regs := m }) y = s.side y := by cases y <;> rfl
theorem State.byte_with_regs (m : List (FKey × Nat)) (y : Side) (b : Nat) : State.byte ({ s with regs := m }) y b = s.byte y b := rfl
theorem State.die_with_regs (m : List (FKey × Nat)) (e : Nat) : State.die ({ s with regs := m }) e = s.die e := rfl
theorem State.chan_with_regs (m : List (FKey × Nat)) (c2 : Nat) : State.chan ({ s with regs := m }) c2 = s.chan c2 := rfl
theorem State.src_with_regs (m : List (FKey × Nat)) (y : Side) (j : Nat) : State.src ({ s with regs := m }) y j = s.src y j := by simp only [State.src, State.side_with_regs]
theorem State.can_with_regs (m : List (FKey × Nat)) (y : Side) (j : Nat) : State.can ({ s with regs := m }) y j = s.can y j := by simp only [State.can, State.side_with_regs]
theorem State.hart_with_regs (m : List (FKey × Nat)) (y : Side) (j : Nat) : State.hart ({ s with regs := m }) y j = s.hart y j := by simp only [State.hart, State.side_with_regs]
theorem State.bridge_with_regs (m : List (FKey × Nat)) (y : Side) (j : Nat) : State.bridge ({ s with regs := m }) y j = s.bridge y j := by simp only [State.bridge, State.side_with_regs]
theorem State.up_with_regs (m : List (FKey × Nat)) (y : Side) : State.up ({ s with regs := m }) y = s.up y := by simp only [State.up, State.side_with_regs]
theorem State.present_with_regs (m : List (FKey × Nat)) (u : UnitId) : State.present ({ s with regs := m }) u = s.present u := rfl
theorem State.domTime_with_regs (m : List (FKey × Nat)) (y : Side) (j : Nat) : State.domTime ({ s with regs := m }) y j = s.domTime y j := by simp only [State.domTime, State.side_with_regs, State.now_with_regs]

theorem State.now_with_mem (m : Tab Byte) : (State.now ({ s with mem := m })) = s.now := rfl
theorem State.pending_with_mem (m : Tab Byte) : (State.pending ({ s with mem := m })) = s.pending := rfl
theorem State.free_with_mem (m : Tab Byte) : (State.free ({ s with mem := m })) = s.free := rfl
theorem State.resp_with_mem (m : Tab Byte) : (State.resp ({ s with mem := m })) = s.resp := rfl
theorem State.regs_with_mem (m : Tab Byte) : (State.regs ({ s with mem := m })) = s.regs := rfl
theorem State.ember_with_mem (m : Tab Byte) : (State.ember ({ s with mem := m })) = s.ember := rfl
theorem State.sa_with_mem (m : Tab Byte) : (State.sa ({ s with mem := m })) = s.sa := rfl
theorem State.sb_with_mem (m : Tab Byte) : (State.sb ({ s with mem := m })) = s.sb := rfl
theorem State.flue_with_mem (m : Tab Byte) : (State.flue ({ s with mem := m })) = s.flue := rfl
theorem State.dies_with_mem (m : Tab Byte) : (State.dies ({ s with mem := m })) = s.dies := rfl
theorem State.chans_with_mem (m : Tab Byte) : (State.chans ({ s with mem := m })) = s.chans := rfl
theorem State.damper_with_mem (m : Tab Byte) : (State.damper ({ s with mem := m })) = s.damper := rfl
theorem State.absent_with_mem (m : Tab Byte) : (State.absent ({ s with mem := m })) = s.absent := rfl
theorem State.side_with_mem (m : Tab Byte) (y : Side) : State.side ({ s with mem := m }) y = s.side y := by cases y <;> rfl
theorem State.get_with_mem (m : Tab Byte) (k : Holder) (g : Fld) (j : Nat) : State.get ({ s with mem := m }) k g j = s.get k g j := rfl
theorem State.die_with_mem (m : Tab Byte) (e : Nat) : State.die ({ s with mem := m }) e = s.die e := rfl
theorem State.chan_with_mem (m : Tab Byte) (c2 : Nat) : State.chan ({ s with mem := m }) c2 = s.chan c2 := rfl
theorem State.src_with_mem (m : Tab Byte) (y : Side) (j : Nat) : State.src ({ s with mem := m }) y j = s.src y j := by simp only [State.src, State.side_with_mem]
theorem State.can_with_mem (m : Tab Byte) (y : Side) (j : Nat) : State.can ({ s with mem := m }) y j = s.can y j := by simp only [State.can, State.side_with_mem]
theorem State.hart_with_mem (m : Tab Byte) (y : Side) (j : Nat) : State.hart ({ s with mem := m }) y j = s.hart y j := by simp only [State.hart, State.side_with_mem]
theorem State.bridge_with_mem (m : Tab Byte) (y : Side) (j : Nat) : State.bridge ({ s with mem := m }) y j = s.bridge y j := by simp only [State.bridge, State.side_with_mem]
theorem State.up_with_mem (m : Tab Byte) (y : Side) : State.up ({ s with mem := m }) y = s.up y := by simp only [State.up, State.side_with_mem]
theorem State.present_with_mem (m : Tab Byte) (u : UnitId) : State.present ({ s with mem := m }) u = s.present u := rfl
theorem State.domTime_with_mem (m : Tab Byte) (y : Side) (j : Nat) : State.domTime ({ s with mem := m }) y j = s.domTime y j := by simp only [State.domTime, State.side_with_mem, State.now_with_mem]

theorem State.now_with_dies (m : Tab DieSt) : (State.now ({ s with dies := m })) = s.now := rfl
theorem State.pending_with_dies (m : Tab DieSt) : (State.pending ({ s with dies := m })) = s.pending := rfl
theorem State.free_with_dies (m : Tab DieSt) : (State.free ({ s with dies := m })) = s.free := rfl
theorem State.resp_with_dies (m : Tab DieSt) : (State.resp ({ s with dies := m })) = s.resp := rfl
theorem State.regs_with_dies (m : Tab DieSt) : (State.regs ({ s with dies := m })) = s.regs := rfl
theorem State.mem_with_dies (m : Tab DieSt) : (State.mem ({ s with dies := m })) = s.mem := rfl
theorem State.ember_with_dies (m : Tab DieSt) : (State.ember ({ s with dies := m })) = s.ember := rfl
theorem State.sa_with_dies (m : Tab DieSt) : (State.sa ({ s with dies := m })) = s.sa := rfl
theorem State.sb_with_dies (m : Tab DieSt) : (State.sb ({ s with dies := m })) = s.sb := rfl
theorem State.flue_with_dies (m : Tab DieSt) : (State.flue ({ s with dies := m })) = s.flue := rfl
theorem State.chans_with_dies (m : Tab DieSt) : (State.chans ({ s with dies := m })) = s.chans := rfl
theorem State.damper_with_dies (m : Tab DieSt) : (State.damper ({ s with dies := m })) = s.damper := rfl
theorem State.absent_with_dies (m : Tab DieSt) : (State.absent ({ s with dies := m })) = s.absent := rfl
theorem State.side_with_dies (m : Tab DieSt) (y : Side) : State.side ({ s with dies := m }) y = s.side y := by cases y <;> rfl
theorem State.get_with_dies (m : Tab DieSt) (k : Holder) (g : Fld) (j : Nat) : State.get ({ s with dies := m }) k g j = s.get k g j := rfl
theorem State.byte_with_dies (m : Tab DieSt) (y : Side) (b : Nat) : State.byte ({ s with dies := m }) y b = s.byte y b := rfl
theorem State.chan_with_dies (m : Tab DieSt) (c2 : Nat) : State.chan ({ s with dies := m }) c2 = s.chan c2 := rfl
theorem State.src_with_dies (m : Tab DieSt) (y : Side) (j : Nat) : State.src ({ s with dies := m }) y j = s.src y j := by simp only [State.src, State.side_with_dies]
theorem State.can_with_dies (m : Tab DieSt) (y : Side) (j : Nat) : State.can ({ s with dies := m }) y j = s.can y j := by simp only [State.can, State.side_with_dies]
theorem State.hart_with_dies (m : Tab DieSt) (y : Side) (j : Nat) : State.hart ({ s with dies := m }) y j = s.hart y j := by simp only [State.hart, State.side_with_dies]
theorem State.bridge_with_dies (m : Tab DieSt) (y : Side) (j : Nat) : State.bridge ({ s with dies := m }) y j = s.bridge y j := by simp only [State.bridge, State.side_with_dies]
theorem State.up_with_dies (m : Tab DieSt) (y : Side) : State.up ({ s with dies := m }) y = s.up y := by simp only [State.up, State.side_with_dies]
theorem State.present_with_dies (m : Tab DieSt) (u : UnitId) : State.present ({ s with dies := m }) u = s.present u := rfl
theorem State.domTime_with_dies (m : Tab DieSt) (y : Side) (j : Nat) : State.domTime ({ s with dies := m }) y j = s.domTime y j := by simp only [State.domTime, State.side_with_dies, State.now_with_dies]

theorem State.now_with_chans (m : Tab Chan) : (State.now ({ s with chans := m })) = s.now := rfl
theorem State.pending_with_chans (m : Tab Chan) : (State.pending ({ s with chans := m })) = s.pending := rfl
theorem State.free_with_chans (m : Tab Chan) : (State.free ({ s with chans := m })) = s.free := rfl
theorem State.resp_with_chans (m : Tab Chan) : (State.resp ({ s with chans := m })) = s.resp := rfl
theorem State.regs_with_chans (m : Tab Chan) : (State.regs ({ s with chans := m })) = s.regs := rfl
theorem State.mem_with_chans (m : Tab Chan) : (State.mem ({ s with chans := m })) = s.mem := rfl
theorem State.ember_with_chans (m : Tab Chan) : (State.ember ({ s with chans := m })) = s.ember := rfl
theorem State.sa_with_chans (m : Tab Chan) : (State.sa ({ s with chans := m })) = s.sa := rfl
theorem State.sb_with_chans (m : Tab Chan) : (State.sb ({ s with chans := m })) = s.sb := rfl
theorem State.flue_with_chans (m : Tab Chan) : (State.flue ({ s with chans := m })) = s.flue := rfl
theorem State.dies_with_chans (m : Tab Chan) : (State.dies ({ s with chans := m })) = s.dies := rfl
theorem State.damper_with_chans (m : Tab Chan) : (State.damper ({ s with chans := m })) = s.damper := rfl
theorem State.absent_with_chans (m : Tab Chan) : (State.absent ({ s with chans := m })) = s.absent := rfl
theorem State.side_with_chans (m : Tab Chan) (y : Side) : State.side ({ s with chans := m }) y = s.side y := by cases y <;> rfl
theorem State.get_with_chans (m : Tab Chan) (k : Holder) (g : Fld) (j : Nat) : State.get ({ s with chans := m }) k g j = s.get k g j := rfl
theorem State.byte_with_chans (m : Tab Chan) (y : Side) (b : Nat) : State.byte ({ s with chans := m }) y b = s.byte y b := rfl
theorem State.die_with_chans (m : Tab Chan) (e : Nat) : State.die ({ s with chans := m }) e = s.die e := rfl
theorem State.src_with_chans (m : Tab Chan) (y : Side) (j : Nat) : State.src ({ s with chans := m }) y j = s.src y j := by simp only [State.src, State.side_with_chans]
theorem State.can_with_chans (m : Tab Chan) (y : Side) (j : Nat) : State.can ({ s with chans := m }) y j = s.can y j := by simp only [State.can, State.side_with_chans]
theorem State.hart_with_chans (m : Tab Chan) (y : Side) (j : Nat) : State.hart ({ s with chans := m }) y j = s.hart y j := by simp only [State.hart, State.side_with_chans]
theorem State.bridge_with_chans (m : Tab Chan) (y : Side) (j : Nat) : State.bridge ({ s with chans := m }) y j = s.bridge y j := by simp only [State.bridge, State.side_with_chans]
theorem State.up_with_chans (m : Tab Chan) (y : Side) : State.up ({ s with chans := m }) y = s.up y := by simp only [State.up, State.side_with_chans]
theorem State.present_with_chans (m : Tab Chan) (u : UnitId) : State.present ({ s with chans := m }) u = s.present u := rfl
theorem State.domTime_with_chans (m : Tab Chan) (y : Side) (j : Nat) : State.domTime ({ s with chans := m }) y j = s.domTime y j := by simp only [State.domTime, State.side_with_chans, State.now_with_chans]

theorem State.now_with_damper (m : DamperSt) : (State.now ({ s with damper := m })) = s.now := rfl
theorem State.pending_with_damper (m : DamperSt) : (State.pending ({ s with damper := m })) = s.pending := rfl
theorem State.free_with_damper (m : DamperSt) : (State.free ({ s with damper := m })) = s.free := rfl
theorem State.resp_with_damper (m : DamperSt) : (State.resp ({ s with damper := m })) = s.resp := rfl
theorem State.regs_with_damper (m : DamperSt) : (State.regs ({ s with damper := m })) = s.regs := rfl
theorem State.mem_with_damper (m : DamperSt) : (State.mem ({ s with damper := m })) = s.mem := rfl
theorem State.ember_with_damper (m : DamperSt) : (State.ember ({ s with damper := m })) = s.ember := rfl
theorem State.sa_with_damper (m : DamperSt) : (State.sa ({ s with damper := m })) = s.sa := rfl
theorem State.sb_with_damper (m : DamperSt) : (State.sb ({ s with damper := m })) = s.sb := rfl
theorem State.flue_with_damper (m : DamperSt) : (State.flue ({ s with damper := m })) = s.flue := rfl
theorem State.dies_with_damper (m : DamperSt) : (State.dies ({ s with damper := m })) = s.dies := rfl
theorem State.chans_with_damper (m : DamperSt) : (State.chans ({ s with damper := m })) = s.chans := rfl
theorem State.absent_with_damper (m : DamperSt) : (State.absent ({ s with damper := m })) = s.absent := rfl
theorem State.side_with_damper (m : DamperSt) (y : Side) : State.side ({ s with damper := m }) y = s.side y := by cases y <;> rfl
theorem State.get_with_damper (m : DamperSt) (k : Holder) (g : Fld) (j : Nat) : State.get ({ s with damper := m }) k g j = s.get k g j := rfl
theorem State.byte_with_damper (m : DamperSt) (y : Side) (b : Nat) : State.byte ({ s with damper := m }) y b = s.byte y b := rfl
theorem State.die_with_damper (m : DamperSt) (e : Nat) : State.die ({ s with damper := m }) e = s.die e := rfl
theorem State.chan_with_damper (m : DamperSt) (c2 : Nat) : State.chan ({ s with damper := m }) c2 = s.chan c2 := rfl
theorem State.src_with_damper (m : DamperSt) (y : Side) (j : Nat) : State.src ({ s with damper := m }) y j = s.src y j := by simp only [State.src, State.side_with_damper]
theorem State.can_with_damper (m : DamperSt) (y : Side) (j : Nat) : State.can ({ s with damper := m }) y j = s.can y j := by simp only [State.can, State.side_with_damper]
theorem State.hart_with_damper (m : DamperSt) (y : Side) (j : Nat) : State.hart ({ s with damper := m }) y j = s.hart y j := by simp only [State.hart, State.side_with_damper]
theorem State.bridge_with_damper (m : DamperSt) (y : Side) (j : Nat) : State.bridge ({ s with damper := m }) y j = s.bridge y j := by simp only [State.bridge, State.side_with_damper]
theorem State.up_with_damper (m : DamperSt) (y : Side) : State.up ({ s with damper := m }) y = s.up y := by simp only [State.up, State.side_with_damper]
theorem State.present_with_damper (m : DamperSt) (u : UnitId) : State.present ({ s with damper := m }) u = s.present u := rfl
theorem State.domTime_with_damper (m : DamperSt) (y : Side) (j : Nat) : State.domTime ({ s with damper := m }) y j = s.domTime y j := by simp only [State.domTime, State.side_with_damper, State.now_with_damper]

theorem State.now_with_sa (m : SideSt) : (State.now ({ s with sa := m })) = s.now := rfl
theorem State.pending_with_sa (m : SideSt) : (State.pending ({ s with sa := m })) = s.pending := rfl
theorem State.free_with_sa (m : SideSt) : (State.free ({ s with sa := m })) = s.free := rfl
theorem State.resp_with_sa (m : SideSt) : (State.resp ({ s with sa := m })) = s.resp := rfl
theorem State.regs_with_sa (m : SideSt) : (State.regs ({ s with sa := m })) = s.regs := rfl
theorem State.mem_with_sa (m : SideSt) : (State.mem ({ s with sa := m })) = s.mem := rfl
theorem State.ember_with_sa (m : SideSt) : (State.ember ({ s with sa := m })) = s.ember := rfl
theorem State.sb_with_sa (m : SideSt) : (State.sb ({ s with sa := m })) = s.sb := rfl
theorem State.flue_with_sa (m : SideSt) : (State.flue ({ s with sa := m })) = s.flue := rfl
theorem State.dies_with_sa (m : SideSt) : (State.dies ({ s with sa := m })) = s.dies := rfl
theorem State.chans_with_sa (m : SideSt) : (State.chans ({ s with sa := m })) = s.chans := rfl
theorem State.damper_with_sa (m : SideSt) : (State.damper ({ s with sa := m })) = s.damper := rfl
theorem State.absent_with_sa (m : SideSt) : (State.absent ({ s with sa := m })) = s.absent := rfl
theorem State.get_with_sa (m : SideSt) (k : Holder) (g : Fld) (j : Nat) : State.get ({ s with sa := m }) k g j = s.get k g j := rfl
theorem State.byte_with_sa (m : SideSt) (y : Side) (b : Nat) : State.byte ({ s with sa := m }) y b = s.byte y b := rfl
theorem State.die_with_sa (m : SideSt) (e : Nat) : State.die ({ s with sa := m }) e = s.die e := rfl
theorem State.chan_with_sa (m : SideSt) (c2 : Nat) : State.chan ({ s with sa := m }) c2 = s.chan c2 := rfl
theorem State.present_with_sa (m : SideSt) (u : UnitId) : State.present ({ s with sa := m }) u = s.present u := rfl

theorem State.now_with_sb (m : SideSt) : (State.now ({ s with sb := m })) = s.now := rfl
theorem State.pending_with_sb (m : SideSt) : (State.pending ({ s with sb := m })) = s.pending := rfl
theorem State.free_with_sb (m : SideSt) : (State.free ({ s with sb := m })) = s.free := rfl
theorem State.resp_with_sb (m : SideSt) : (State.resp ({ s with sb := m })) = s.resp := rfl
theorem State.regs_with_sb (m : SideSt) : (State.regs ({ s with sb := m })) = s.regs := rfl
theorem State.mem_with_sb (m : SideSt) : (State.mem ({ s with sb := m })) = s.mem := rfl
theorem State.ember_with_sb (m : SideSt) : (State.ember ({ s with sb := m })) = s.ember := rfl
theorem State.sa_with_sb (m : SideSt) : (State.sa ({ s with sb := m })) = s.sa := rfl
theorem State.flue_with_sb (m : SideSt) : (State.flue ({ s with sb := m })) = s.flue := rfl
theorem State.dies_with_sb (m : SideSt) : (State.dies ({ s with sb := m })) = s.dies := rfl
theorem State.chans_with_sb (m : SideSt) : (State.chans ({ s with sb := m })) = s.chans := rfl
theorem State.damper_with_sb (m : SideSt) : (State.damper ({ s with sb := m })) = s.damper := rfl
theorem State.absent_with_sb (m : SideSt) : (State.absent ({ s with sb := m })) = s.absent := rfl
theorem State.get_with_sb (m : SideSt) (k : Holder) (g : Fld) (j : Nat) : State.get ({ s with sb := m }) k g j = s.get k g j := rfl
theorem State.byte_with_sb (m : SideSt) (y : Side) (b : Nat) : State.byte ({ s with sb := m }) y b = s.byte y b := rfl
theorem State.die_with_sb (m : SideSt) (e : Nat) : State.die ({ s with sb := m }) e = s.die e := rfl
theorem State.chan_with_sb (m : SideSt) (c2 : Nat) : State.chan ({ s with sb := m }) c2 = s.chan c2 := rfl
theorem State.present_with_sb (m : SideSt) (u : UnitId) : State.present ({ s with sb := m }) u = s.present u := rfl

/-! ## set -/

@[simp] theorem State.now_set (h : Holder) (f : Fld) (i v : Nat) : (s.set h f i v).now = s.now := State.now_with_regs _ _
@[simp] theorem State.pending_set (h : Holder) (f : Fld) (i v : Nat) : (s.set h f i v).pending = s.pending := State.pending_with_regs _ _
@[simp] theorem State.free_set (h : Holder) (f : Fld) (i v : Nat) : (s.set h f i v).free = s.free := State.free_with_regs _ _
@[simp] theorem State.resp_set (h : Holder) (f : Fld) (i v : Nat) : (s.set h f i v).resp = s.resp := State.resp_with_regs _ _
@[simp] theorem State.mem_set (h : Holder) (f : Fld) (i v : Nat) : (s.set h f i v).mem = s.mem := State.mem_with_regs _ _
@[simp] theorem State.ember_set (h : Holder) (f : Fld) (i v : Nat) : (s.set h f i v).ember = s.ember := State.ember_with_regs _ _
@[simp] theorem State.sa_set (h : Holder) (f : Fld) (i v : Nat) : (s.set h f i v).sa = s.sa := State.sa_with_regs _ _
@[simp] theorem State.sb_set (h : Holder) (f : Fld) (i v : Nat) : (s.set h f i v).sb = s.sb := State.sb_with_regs _ _
@[simp] theorem State.flue_set (h : Holder) (f : Fld) (i v : Nat) : (s.set h f i v).flue = s.flue := State.flue_with_regs _ _
@[simp] theorem State.dies_set (h : Holder) (f : Fld) (i v : Nat) : (s.set h f i v).dies = s.dies := State.dies_with_regs _ _
@[simp] theorem State.chans_set (h : Holder) (f : Fld) (i v : Nat) : (s.set h f i v).chans = s.chans := State.chans_with_regs _ _
@[simp] theorem State.damper_set (h : Holder) (f : Fld) (i v : Nat) : (s.set h f i v).damper = s.damper := State.damper_with_regs _ _
@[simp] theorem State.absent_set (h : Holder) (f : Fld) (i v : Nat) : (s.set h f i v).absent = s.absent := State.absent_with_regs _ _
@[simp] theorem State.side_set (h : Holder) (f : Fld) (i v : Nat) (y : Side) : (s.set h f i v).side y = s.side y := State.side_with_regs _ _ _
@[simp] theorem State.byte_set (h : Holder) (f : Fld) (i v : Nat) (y : Side) (b : Nat) : (s.set h f i v).byte y b = s.byte y b := State.byte_with_regs _ _ _ _
@[simp] theorem State.die_set (h : Holder) (f : Fld) (i v : Nat) (e : Nat) : (s.set h f i v).die e = s.die e := State.die_with_regs _ _ _
@[simp] theorem State.chan_set (h : Holder) (f : Fld) (i v : Nat) (c2 : Nat) : (s.set h f i v).chan c2 = s.chan c2 := State.chan_with_regs _ _ _
@[simp] theorem State.src_set (h : Holder) (f : Fld) (i v : Nat) (y : Side) (j : Nat) : (s.set h f i v).src y j = s.src y j := State.src_with_regs _ _ _ _
@[simp] theorem State.can_set (h : Holder) (f : Fld) (i v : Nat) (y : Side) (j : Nat) : (s.set h f i v).can y j = s.can y j := State.can_with_regs _ _ _ _
@[simp] theorem State.hart_set (h : Holder) (f : Fld) (i v : Nat) (y : Side) (j : Nat) : (s.set h f i v).hart y j = s.hart y j := State.hart_with_regs _ _ _ _
@[simp] theorem State.bridge_set (h : Holder) (f : Fld) (i v : Nat) (y : Side) (j : Nat) : (s.set h f i v).bridge y j = s.bridge y j := State.bridge_with_regs _ _ _ _
@[simp] theorem State.up_set (h : Holder) (f : Fld) (i v : Nat) (y : Side) : (s.set h f i v).up y = s.up y := State.up_with_regs _ _ _
@[simp] theorem State.present_set (h : Holder) (f : Fld) (i v : Nat) (u : UnitId) : (s.set h f i v).present u = s.present u := State.present_with_regs _ _ _
@[simp] theorem State.domTime_set (h : Holder) (f : Fld) (i v : Nat) (y : Side) (j : Nat) : (s.set h f i v).domTime y j = s.domTime y j := State.domTime_with_regs _ _ _ _

/-! ## add -/

@[simp] theorem State.now_add (h : Holder) (f : Fld) (i v : Nat) : (s.add h f i v).now = s.now := State.now_set _ _ _ _ _
@[simp] theorem State.pending_add (h : Holder) (f : Fld) (i v : Nat) : (s.add h f i v).pending = s.pending := State.pending_set _ _ _ _ _
@[simp] theorem State.free_add (h : Holder) (f : Fld) (i v : Nat) : (s.add h f i v).free = s.free := State.free_set _ _ _ _ _
@[simp] theorem State.resp_add (h : Holder) (f : Fld) (i v : Nat) : (s.add h f i v).resp = s.resp := State.resp_set _ _ _ _ _
@[simp] theorem State.mem_add (h : Holder) (f : Fld) (i v : Nat) : (s.add h f i v).mem = s.mem := State.mem_set _ _ _ _ _
@[simp] theorem State.ember_add (h : Holder) (f : Fld) (i v : Nat) : (s.add h f i v).ember = s.ember := State.ember_set _ _ _ _ _
@[simp] theorem State.sa_add (h : Holder) (f : Fld) (i v : Nat) : (s.add h f i v).sa = s.sa := State.sa_set _ _ _ _ _
@[simp] theorem State.sb_add (h : Holder) (f : Fld) (i v : Nat) : (s.add h f i v).sb = s.sb := State.sb_set _ _ _ _ _
@[simp] theorem State.flue_add (h : Holder) (f : Fld) (i v : Nat) : (s.add h f i v).flue = s.flue := State.flue_set _ _ _ _ _
@[simp] theorem State.dies_add (h : Holder) (f : Fld) (i v : Nat) : (s.add h f i v).dies = s.dies := State.dies_set _ _ _ _ _
@[simp] theorem State.chans_add (h : Holder) (f : Fld) (i v : Nat) : (s.add h f i v).chans = s.chans := State.chans_set _ _ _ _ _
@[simp] theorem State.damper_add (h : Holder) (f : Fld) (i v : Nat) : (s.add h f i v).damper = s.damper := State.damper_set _ _ _ _ _
@[simp] theorem State.absent_add (h : Holder) (f : Fld) (i v : Nat) : (s.add h f i v).absent = s.absent := State.absent_set _ _ _ _ _
@[simp] theorem State.side_add (h : Holder) (f : Fld) (i v : Nat) (y : Side) : (s.add h f i v).side y = s.side y := State.side_set _ _ _ _ _ _
@[simp] theorem State.byte_add (h : Holder) (f : Fld) (i v : Nat) (y : Side) (b : Nat) : (s.add h f i v).byte y b = s.byte y b := State.byte_set _ _ _ _ _ _ _
@[simp] theorem State.die_add (h : Holder) (f : Fld) (i v : Nat) (e : Nat) : (s.add h f i v).die e = s.die e := State.die_set _ _ _ _ _ _
@[simp] theorem State.chan_add (h : Holder) (f : Fld) (i v : Nat) (c2 : Nat) : (s.add h f i v).chan c2 = s.chan c2 := State.chan_set _ _ _ _ _ _
@[simp] theorem State.src_add (h : Holder) (f : Fld) (i v : Nat) (y : Side) (j : Nat) : (s.add h f i v).src y j = s.src y j := State.src_set _ _ _ _ _ _ _
@[simp] theorem State.can_add (h : Holder) (f : Fld) (i v : Nat) (y : Side) (j : Nat) : (s.add h f i v).can y j = s.can y j := State.can_set _ _ _ _ _ _ _
@[simp] theorem State.hart_add (h : Holder) (f : Fld) (i v : Nat) (y : Side) (j : Nat) : (s.add h f i v).hart y j = s.hart y j := State.hart_set _ _ _ _ _ _ _
@[simp] theorem State.bridge_add (h : Holder) (f : Fld) (i v : Nat) (y : Side) (j : Nat) : (s.add h f i v).bridge y j = s.bridge y j := State.bridge_set _ _ _ _ _ _ _
@[simp] theorem State.up_add (h : Holder) (f : Fld) (i v : Nat) (y : Side) : (s.add h f i v).up y = s.up y := State.up_set _ _ _ _ _ _
@[simp] theorem State.present_add (h : Holder) (f : Fld) (i v : Nat) (u : UnitId) : (s.add h f i v).present u = s.present u := State.present_set _ _ _ _ _ _
@[simp] theorem State.domTime_add (h : Holder) (f : Fld) (i v : Nat) (y : Side) (j : Nat) : (s.add h f i v).domTime y j = s.domTime y j := State.domTime_set _ _ _ _ _ _ _

/-! ## inc -/

@[simp] theorem State.now_inc (h : Holder) (f : Fld) (i : Nat) : (s.inc h f i).now = s.now := State.now_set _ _ _ _ _
@[simp] theorem State.pending_inc (h : Holder) (f : Fld) (i : Nat) : (s.inc h f i).pending = s.pending := State.pending_set _ _ _ _ _
@[simp] theorem State.free_inc (h : Holder) (f : Fld) (i : Nat) : (s.inc h f i).free = s.free := State.free_set _ _ _ _ _
@[simp] theorem State.resp_inc (h : Holder) (f : Fld) (i : Nat) : (s.inc h f i).resp = s.resp := State.resp_set _ _ _ _ _
@[simp] theorem State.mem_inc (h : Holder) (f : Fld) (i : Nat) : (s.inc h f i).mem = s.mem := State.mem_set _ _ _ _ _
@[simp] theorem State.ember_inc (h : Holder) (f : Fld) (i : Nat) : (s.inc h f i).ember = s.ember := State.ember_set _ _ _ _ _
@[simp] theorem State.sa_inc (h : Holder) (f : Fld) (i : Nat) : (s.inc h f i).sa = s.sa := State.sa_set _ _ _ _ _
@[simp] theorem State.sb_inc (h : Holder) (f : Fld) (i : Nat) : (s.inc h f i).sb = s.sb := State.sb_set _ _ _ _ _
@[simp] theorem State.flue_inc (h : Holder) (f : Fld) (i : Nat) : (s.inc h f i).flue = s.flue := State.flue_set _ _ _ _ _
@[simp] theorem State.dies_inc (h : Holder) (f : Fld) (i : Nat) : (s.inc h f i).dies = s.dies := State.dies_set _ _ _ _ _
@[simp] theorem State.chans_inc (h : Holder) (f : Fld) (i : Nat) : (s.inc h f i).chans = s.chans := State.chans_set _ _ _ _ _
@[simp] theorem State.damper_inc (h : Holder) (f : Fld) (i : Nat) : (s.inc h f i).damper = s.damper := State.damper_set _ _ _ _ _
@[simp] theorem State.absent_inc (h : Holder) (f : Fld) (i : Nat) : (s.inc h f i).absent = s.absent := State.absent_set _ _ _ _ _
@[simp] theorem State.side_inc (h : Holder) (f : Fld) (i : Nat) (y : Side) : (s.inc h f i).side y = s.side y := State.side_set _ _ _ _ _ _
@[simp] theorem State.byte_inc (h : Holder) (f : Fld) (i : Nat) (y : Side) (b : Nat) : (s.inc h f i).byte y b = s.byte y b := State.byte_set _ _ _ _ _ _ _
@[simp] theorem State.die_inc (h : Holder) (f : Fld) (i : Nat) (e : Nat) : (s.inc h f i).die e = s.die e := State.die_set _ _ _ _ _ _
@[simp] theorem State.chan_inc (h : Holder) (f : Fld) (i : Nat) (c2 : Nat) : (s.inc h f i).chan c2 = s.chan c2 := State.chan_set _ _ _ _ _ _
@[simp] theorem State.src_inc (h : Holder) (f : Fld) (i : Nat) (y : Side) (j : Nat) : (s.inc h f i).src y j = s.src y j := State.src_set _ _ _ _ _ _ _
@[simp] theorem State.can_inc (h : Holder) (f : Fld) (i : Nat) (y : Side) (j : Nat) : (s.inc h f i).can y j = s.can y j := State.can_set _ _ _ _ _ _ _
@[simp] theorem State.hart_inc (h : Holder) (f : Fld) (i : Nat) (y : Side) (j : Nat) : (s.inc h f i).hart y j = s.hart y j := State.hart_set _ _ _ _ _ _ _
@[simp] theorem State.bridge_inc (h : Holder) (f : Fld) (i : Nat) (y : Side) (j : Nat) : (s.inc h f i).bridge y j = s.bridge y j := State.bridge_set _ _ _ _ _ _ _
@[simp] theorem State.up_inc (h : Holder) (f : Fld) (i : Nat) (y : Side) : (s.inc h f i).up y = s.up y := State.up_set _ _ _ _ _ _
@[simp] theorem State.present_inc (h : Holder) (f : Fld) (i : Nat) (u : UnitId) : (s.inc h f i).present u = s.present u := State.present_set _ _ _ _ _ _
@[simp] theorem State.domTime_inc (h : Holder) (f : Fld) (i : Nat) (y : Side) (j : Nat) : (s.inc h f i).domTime y j = s.domTime y j := State.domTime_set _ _ _ _ _ _ _

/-! ## setBit -/

@[simp] theorem State.now_setBit (h : Holder) (f : Fld) (i b : Nat) : (s.setBit h f i b).now = s.now := State.now_set _ _ _ _ _
@[simp] theorem State.pending_setBit (h : Holder) (f : Fld) (i b : Nat) : (s.setBit h f i b).pending = s.pending := State.pending_set _ _ _ _ _
@[simp] theorem State.free_setBit (h : Holder) (f : Fld) (i b : Nat) : (s.setBit h f i b).free = s.free := State.free_set _ _ _ _ _
@[simp] theorem State.resp_setBit (h : Holder) (f : Fld) (i b : Nat) : (s.setBit h f i b).resp = s.resp := State.resp_set _ _ _ _ _
@[simp] theorem State.mem_setBit (h : Holder) (f : Fld) (i b : Nat) : (s.setBit h f i b).mem = s.mem := State.mem_set _ _ _ _ _
@[simp] theorem State.ember_setBit (h : Holder) (f : Fld) (i b : Nat) : (s.setBit h f i b).ember = s.ember := State.ember_set _ _ _ _ _
@[simp] theorem State.sa_setBit (h : Holder) (f : Fld) (i b : Nat) : (s.setBit h f i b).sa = s.sa := State.sa_set _ _ _ _ _
@[simp] theorem State.sb_setBit (h : Holder) (f : Fld) (i b : Nat) : (s.setBit h f i b).sb = s.sb := State.sb_set _ _ _ _ _
@[simp] theorem State.flue_setBit (h : Holder) (f : Fld) (i b : Nat) : (s.setBit h f i b).flue = s.flue := State.flue_set _ _ _ _ _
@[simp] theorem State.dies_setBit (h : Holder) (f : Fld) (i b : Nat) : (s.setBit h f i b).dies = s.dies := State.dies_set _ _ _ _ _
@[simp] theorem State.chans_setBit (h : Holder) (f : Fld) (i b : Nat) : (s.setBit h f i b).chans = s.chans := State.chans_set _ _ _ _ _
@[simp] theorem State.damper_setBit (h : Holder) (f : Fld) (i b : Nat) : (s.setBit h f i b).damper = s.damper := State.damper_set _ _ _ _ _
@[simp] theorem State.absent_setBit (h : Holder) (f : Fld) (i b : Nat) : (s.setBit h f i b).absent = s.absent := State.absent_set _ _ _ _ _
@[simp] theorem State.side_setBit (h : Holder) (f : Fld) (i b : Nat) (y : Side) : (s.setBit h f i b).side y = s.side y := State.side_set _ _ _ _ _ _
@[simp] theorem State.byte_setBit (h : Holder) (f : Fld) (i b : Nat) (y : Side) (b : Nat) : (s.setBit h f i b).byte y b = s.byte y b := State.byte_set _ _ _ _ _ _ _
@[simp] theorem State.die_setBit (h : Holder) (f : Fld) (i b : Nat) (e : Nat) : (s.setBit h f i b).die e = s.die e := State.die_set _ _ _ _ _ _
@[simp] theorem State.chan_setBit (h : Holder) (f : Fld) (i b : Nat) (c2 : Nat) : (s.setBit h f i b).chan c2 = s.chan c2 := State.chan_set _ _ _ _ _ _
@[simp] theorem State.src_setBit (h : Holder) (f : Fld) (i b : Nat) (y : Side) (j : Nat) : (s.setBit h f i b).src y j = s.src y j := State.src_set _ _ _ _ _ _ _
@[simp] theorem State.can_setBit (h : Holder) (f : Fld) (i b : Nat) (y : Side) (j : Nat) : (s.setBit h f i b).can y j = s.can y j := State.can_set _ _ _ _ _ _ _
@[simp] theorem State.hart_setBit (h : Holder) (f : Fld) (i b : Nat) (y : Side) (j : Nat) : (s.setBit h f i b).hart y j = s.hart y j := State.hart_set _ _ _ _ _ _ _
@[simp] theorem State.bridge_setBit (h : Holder) (f : Fld) (i b : Nat) (y : Side) (j : Nat) : (s.setBit h f i b).bridge y j = s.bridge y j := State.bridge_set _ _ _ _ _ _ _
@[simp] theorem State.up_setBit (h : Holder) (f : Fld) (i b : Nat) (y : Side) : (s.setBit h f i b).up y = s.up y := State.up_set _ _ _ _ _ _
@[simp] theorem State.present_setBit (h : Holder) (f : Fld) (i b : Nat) (u : UnitId) : (s.setBit h f i b).present u = s.present u := State.present_set _ _ _ _ _ _
@[simp] theorem State.domTime_setBit (h : Holder) (f : Fld) (i b : Nat) (y : Side) (j : Nat) : (s.setBit h f i b).domTime y j = s.domTime y j := State.domTime_set _ _ _ _ _ _ _

/-! ## clearBit -/

@[simp] theorem State.now_clearBit (h : Holder) (f : Fld) (i b : Nat) : (s.clearBit h f i b).now = s.now := State.now_set _ _ _ _ _
@[simp] theorem State.pending_clearBit (h : Holder) (f : Fld) (i b : Nat) : (s.clearBit h f i b).pending = s.pending := State.pending_set _ _ _ _ _
@[simp] theorem State.free_clearBit (h : Holder) (f : Fld) (i b : Nat) : (s.clearBit h f i b).free = s.free := State.free_set _ _ _ _ _
@[simp] theorem State.resp_clearBit (h : Holder) (f : Fld) (i b : Nat) : (s.clearBit h f i b).resp = s.resp := State.resp_set _ _ _ _ _
@[simp] theorem State.mem_clearBit (h : Holder) (f : Fld) (i b : Nat) : (s.clearBit h f i b).mem = s.mem := State.mem_set _ _ _ _ _
@[simp] theorem State.ember_clearBit (h : Holder) (f : Fld) (i b : Nat) : (s.clearBit h f i b).ember = s.ember := State.ember_set _ _ _ _ _
@[simp] theorem State.sa_clearBit (h : Holder) (f : Fld) (i b : Nat) : (s.clearBit h f i b).sa = s.sa := State.sa_set _ _ _ _ _
@[simp] theorem State.sb_clearBit (h : Holder) (f : Fld) (i b : Nat) : (s.clearBit h f i b).sb = s.sb := State.sb_set _ _ _ _ _
@[simp] theorem State.flue_clearBit (h : Holder) (f : Fld) (i b : Nat) : (s.clearBit h f i b).flue = s.flue := State.flue_set _ _ _ _ _
@[simp] theorem State.dies_clearBit (h : Holder) (f : Fld) (i b : Nat) : (s.clearBit h f i b).dies = s.dies := State.dies_set _ _ _ _ _
@[simp] theorem State.chans_clearBit (h : Holder) (f : Fld) (i b : Nat) : (s.clearBit h f i b).chans = s.chans := State.chans_set _ _ _ _ _
@[simp] theorem State.damper_clearBit (h : Holder) (f : Fld) (i b : Nat) : (s.clearBit h f i b).damper = s.damper := State.damper_set _ _ _ _ _
@[simp] theorem State.absent_clearBit (h : Holder) (f : Fld) (i b : Nat) : (s.clearBit h f i b).absent = s.absent := State.absent_set _ _ _ _ _
@[simp] theorem State.side_clearBit (h : Holder) (f : Fld) (i b : Nat) (y : Side) : (s.clearBit h f i b).side y = s.side y := State.side_set _ _ _ _ _ _
@[simp] theorem State.byte_clearBit (h : Holder) (f : Fld) (i b : Nat) (y : Side) (b : Nat) : (s.clearBit h f i b).byte y b = s.byte y b := State.byte_set _ _ _ _ _ _ _
@[simp] theorem State.die_clearBit (h : Holder) (f : Fld) (i b : Nat) (e : Nat) : (s.clearBit h f i b).die e = s.die e := State.die_set _ _ _ _ _ _
@[simp] theorem State.chan_clearBit (h : Holder) (f : Fld) (i b : Nat) (c2 : Nat) : (s.clearBit h f i b).chan c2 = s.chan c2 := State.chan_set _ _ _ _ _ _
@[simp] theorem State.src_clearBit (h : Holder) (f : Fld) (i b : Nat) (y : Side) (j : Nat) : (s.clearBit h f i b).src y j = s.src y j := State.src_set _ _ _ _ _ _ _
@[simp] theorem State.can_clearBit (h : Holder) (f : Fld) (i b : Nat) (y : Side) (j : Nat) : (s.clearBit h f i b).can y j = s.can y j := State.can_set _ _ _ _ _ _ _
@[simp] theorem State.hart_clearBit (h : Holder) (f : Fld) (i b : Nat) (y : Side) (j : Nat) : (s.clearBit h f i b).hart y j = s.hart y j := State.hart_set _ _ _ _ _ _ _
@[simp] theorem State.bridge_clearBit (h : Holder) (f : Fld) (i b : Nat) (y : Side) (j : Nat) : (s.clearBit h f i b).bridge y j = s.bridge y j := State.bridge_set _ _ _ _ _ _ _
@[simp] theorem State.up_clearBit (h : Holder) (f : Fld) (i b : Nat) (y : Side) : (s.clearBit h f i b).up y = s.up y := State.up_set _ _ _ _ _ _
@[simp] theorem State.present_clearBit (h : Holder) (f : Fld) (i b : Nat) (u : UnitId) : (s.clearBit h f i b).present u = s.present u := State.present_set _ _ _ _ _ _
@[simp] theorem State.domTime_clearBit (h : Holder) (f : Fld) (i b : Nat) (y : Side) (j : Nat) : (s.clearBit h f i b).domTime y j = s.domTime y j := State.domTime_set _ _ _ _ _ _ _

/-! ## toReset -/

@[simp] theorem State.now_toReset (h : Holder) (f : Fld) (i : Nat) : (s.toReset h f i).now = s.now := State.now_set _ _ _ _ _
@[simp] theorem State.pending_toReset (h : Holder) (f : Fld) (i : Nat) : (s.toReset h f i).pending = s.pending := State.pending_set _ _ _ _ _
@[simp] theorem State.free_toReset (h : Holder) (f : Fld) (i : Nat) : (s.toReset h f i).free = s.free := State.free_set _ _ _ _ _
@[simp] theorem State.resp_toReset (h : Holder) (f : Fld) (i : Nat) : (s.toReset h f i).resp = s.resp := State.resp_set _ _ _ _ _
@[simp] theorem State.mem_toReset (h : Holder) (f : Fld) (i : Nat) : (s.toReset h f i).mem = s.mem := State.mem_set _ _ _ _ _
@[simp] theorem State.ember_toReset (h : Holder) (f : Fld) (i : Nat) : (s.toReset h f i).ember = s.ember := State.ember_set _ _ _ _ _
@[simp] theorem State.sa_toReset (h : Holder) (f : Fld) (i : Nat) : (s.toReset h f i).sa = s.sa := State.sa_set _ _ _ _ _
@[simp] theorem State.sb_toReset (h : Holder) (f : Fld) (i : Nat) : (s.toReset h f i).sb = s.sb := State.sb_set _ _ _ _ _
@[simp] theorem State.flue_toReset (h : Holder) (f : Fld) (i : Nat) : (s.toReset h f i).flue = s.flue := State.flue_set _ _ _ _ _
@[simp] theorem State.dies_toReset (h : Holder) (f : Fld) (i : Nat) : (s.toReset h f i).dies = s.dies := State.dies_set _ _ _ _ _
@[simp] theorem State.chans_toReset (h : Holder) (f : Fld) (i : Nat) : (s.toReset h f i).chans = s.chans := State.chans_set _ _ _ _ _
@[simp] theorem State.damper_toReset (h : Holder) (f : Fld) (i : Nat) : (s.toReset h f i).damper = s.damper := State.damper_set _ _ _ _ _
@[simp] theorem State.absent_toReset (h : Holder) (f : Fld) (i : Nat) : (s.toReset h f i).absent = s.absent := State.absent_set _ _ _ _ _
@[simp] theorem State.side_toReset (h : Holder) (f : Fld) (i : Nat) (y : Side) : (s.toReset h f i).side y = s.side y := State.side_set _ _ _ _ _ _
@[simp] theorem State.byte_toReset (h : Holder) (f : Fld) (i : Nat) (y : Side) (b : Nat) : (s.toReset h f i).byte y b = s.byte y b := State.byte_set _ _ _ _ _ _ _
@[simp] theorem State.die_toReset (h : Holder) (f : Fld) (i : Nat) (e : Nat) : (s.toReset h f i).die e = s.die e := State.die_set _ _ _ _ _ _
@[simp] theorem State.chan_toReset (h : Holder) (f : Fld) (i : Nat) (c2 : Nat) : (s.toReset h f i).chan c2 = s.chan c2 := State.chan_set _ _ _ _ _ _
@[simp] theorem State.src_toReset (h : Holder) (f : Fld) (i : Nat) (y : Side) (j : Nat) : (s.toReset h f i).src y j = s.src y j := State.src_set _ _ _ _ _ _ _
@[simp] theorem State.can_toReset (h : Holder) (f : Fld) (i : Nat) (y : Side) (j : Nat) : (s.toReset h f i).can y j = s.can y j := State.can_set _ _ _ _ _ _ _
@[simp] theorem State.hart_toReset (h : Holder) (f : Fld) (i : Nat) (y : Side) (j : Nat) : (s.toReset h f i).hart y j = s.hart y j := State.hart_set _ _ _ _ _ _ _
@[simp] theorem State.bridge_toReset (h : Holder) (f : Fld) (i : Nat) (y : Side) (j : Nat) : (s.toReset h f i).bridge y j = s.bridge y j := State.bridge_set _ _ _ _ _ _ _
@[simp] theorem State.up_toReset (h : Holder) (f : Fld) (i : Nat) (y : Side) : (s.toReset h f i).up y = s.up y := State.up_set _ _ _ _ _ _
@[simp] theorem State.present_toReset (h : Holder) (f : Fld) (i : Nat) (u : UnitId) : (s.toReset h f i).present u = s.present u := State.present_set _ _ _ _ _ _
@[simp] theorem State.domTime_toReset (h : Holder) (f : Fld) (i : Nat) (y : Side) (j : Nat) : (s.toReset h f i).domTime y j = s.domTime y j := State.domTime_set _ _ _ _ _ _ _

/-! ## setByte -/

@[simp] theorem State.now_setByte (x : Side) (a : Nat) (v : Byte) : (s.setByte x a v).now = s.now := State.now_with_mem _ _
@[simp] theorem State.pending_setByte (x : Side) (a : Nat) (v : Byte) : (s.setByte x a v).pending = s.pending := State.pending_with_mem _ _
@[simp] theorem State.free_setByte (x : Side) (a : Nat) (v : Byte) : (s.setByte x a v).free = s.free := State.free_with_mem _ _
@[simp] theorem State.resp_setByte (x : Side) (a : Nat) (v : Byte) : (s.setByte x a v).resp = s.resp := State.resp_with_mem _ _
@[simp] theorem State.regs_setByte (x : Side) (a : Nat) (v : Byte) : (s.setByte x a v).regs = s.regs := State.regs_with_mem _ _
@[simp] theorem State.ember_setByte (x : Side) (a : Nat) (v : Byte) : (s.setByte x a v).ember = s.ember := State.ember_with_mem _ _
@[simp] theorem State.sa_setByte (x : Side) (a : Nat) (v : Byte) : (s.setByte x a v).sa = s.sa := State.sa_with_mem _ _
@[simp] theorem State.sb_setByte (x : Side) (a : Nat) (v : Byte) : (s.setByte x a v).sb = s.sb := State.sb_with_mem _ _
@[simp] theorem State.flue_setByte (x : Side) (a : Nat) (v : Byte) : (s.setByte x a v).flue = s.flue := State.flue_with_mem _ _
@[simp] theorem State.dies_setByte (x : Side) (a : Nat) (v : Byte) : (s.setByte x a v).dies = s.dies := State.dies_with_mem _ _
@[simp] theorem State.chans_setByte (x : Side) (a : Nat) (v : Byte) : (s.setByte x a v).chans = s.chans := State.chans_with_mem _ _
@[simp] theorem State.damper_setByte (x : Side) (a : Nat) (v : Byte) : (s.setByte x a v).damper = s.damper := State.damper_with_mem _ _
@[simp] theorem State.absent_setByte (x : Side) (a : Nat) (v : Byte) : (s.setByte x a v).absent = s.absent := State.absent_with_mem _ _
@[simp] theorem State.side_setByte (x : Side) (a : Nat) (v : Byte) (y : Side) : (s.setByte x a v).side y = s.side y := State.side_with_mem _ _ _
@[simp] theorem State.get_setByte (x : Side) (a : Nat) (v : Byte) (k : Holder) (g : Fld) (j : Nat) : (s.setByte x a v).get k g j = s.get k g j := State.get_with_mem _ _ _ _ _
@[simp] theorem State.die_setByte (x : Side) (a : Nat) (v : Byte) (e : Nat) : (s.setByte x a v).die e = s.die e := State.die_with_mem _ _ _
@[simp] theorem State.chan_setByte (x : Side) (a : Nat) (v : Byte) (c2 : Nat) : (s.setByte x a v).chan c2 = s.chan c2 := State.chan_with_mem _ _ _
@[simp] theorem State.src_setByte (x : Side) (a : Nat) (v : Byte) (y : Side) (j : Nat) : (s.setByte x a v).src y j = s.src y j := State.src_with_mem _ _ _ _
@[simp] theorem State.can_setByte (x : Side) (a : Nat) (v : Byte) (y : Side) (j : Nat) : (s.setByte x a v).can y j = s.can y j := State.can_with_mem _ _ _ _
@[simp] theorem State.hart_setByte (x : Side) (a : Nat) (v : Byte) (y : Side) (j : Nat) : (s.setByte x a v).hart y j = s.hart y j := State.hart_with_mem _ _ _ _
@[simp] theorem State.bridge_setByte (x : Side) (a : Nat) (v : Byte) (y : Side) (j : Nat) : (s.setByte x a v).bridge y j = s.bridge y j := State.bridge_with_mem _ _ _ _
@[simp] theorem State.up_setByte (x : Side) (a : Nat) (v : Byte) (y : Side) : (s.setByte x a v).up y = s.up y := State.up_with_mem _ _ _
@[simp] theorem State.present_setByte (x : Side) (a : Nat) (v : Byte) (u : UnitId) : (s.setByte x a v).present u = s.present u := State.present_with_mem _ _ _
@[simp] theorem State.domTime_setByte (x : Side) (a : Nat) (v : Byte) (y : Side) (j : Nat) : (s.setByte x a v).domTime y j = s.domTime y j := State.domTime_with_mem _ _ _ _

/-! ## due -/

@[simp] theorem State.pending_due (n : Nat) : (s.due n).pending = s.pending := State.pending_with_now _ _
@[simp] theorem State.free_due (n : Nat) : (s.due n).free = s.free := State.free_with_now _ _
@[simp] theorem State.resp_due (n : Nat) : (s.due n).resp = s.resp := State.resp_with_now _ _
@[simp] theorem State.regs_due (n : Nat) : (s.due n).regs = s.regs := State.regs_with_now _ _
@[simp] theorem State.mem_due (n : Nat) : (s.due n).mem = s.mem := State.mem_with_now _ _
@[simp] theorem State.ember_due (n : Nat) : (s.due n).ember = s.ember := State.ember_with_now _ _
@[simp] theorem State.sa_due (n : Nat) : (s.due n).sa = s.sa := State.sa_with_now _ _
@[simp] theorem State.sb_due (n : Nat) : (s.due n).sb = s.sb := State.sb_with_now _ _
@[simp] theorem State.flue_due (n : Nat) : (s.due n).flue = s.flue := State.flue_with_now _ _
@[simp] theorem State.dies_due (n : Nat) : (s.due n).dies = s.dies := State.dies_with_now _ _
@[simp] theorem State.chans_due (n : Nat) : (s.due n).chans = s.chans := State.chans_with_now _ _
@[simp] theorem State.damper_due (n : Nat) : (s.due n).damper = s.damper := State.damper_with_now _ _
@[simp] theorem State.absent_due (n : Nat) : (s.due n).absent = s.absent := State.absent_with_now _ _
@[simp] theorem State.side_due (n : Nat) (y : Side) : (s.due n).side y = s.side y := State.side_with_now _ _ _
@[simp] theorem State.get_due (n : Nat) (k : Holder) (g : Fld) (j : Nat) : (s.due n).get k g j = s.get k g j := State.get_with_now _ _ _ _ _
@[simp] theorem State.byte_due (n : Nat) (y : Side) (b : Nat) : (s.due n).byte y b = s.byte y b := State.byte_with_now _ _ _ _
@[simp] theorem State.die_due (n : Nat) (e : Nat) : (s.due n).die e = s.die e := State.die_with_now _ _ _
@[simp] theorem State.chan_due (n : Nat) (c2 : Nat) : (s.due n).chan c2 = s.chan c2 := State.chan_with_now _ _ _
@[simp] theorem State.src_due (n : Nat) (y : Side) (j : Nat) : (s.due n).src y j = s.src y j := State.src_with_now _ _ _ _
@[simp] theorem State.can_due (n : Nat) (y : Side) (j : Nat) : (s.due n).can y j = s.can y j := State.can_with_now _ _ _ _
@[simp] theorem State.hart_due (n : Nat) (y : Side) (j : Nat) : (s.due n).hart y j = s.hart y j := State.hart_with_now _ _ _ _
@[simp] theorem State.bridge_due (n : Nat) (y : Side) (j : Nat) : (s.due n).bridge y j = s.bridge y j := State.bridge_with_now _ _ _ _
@[simp] theorem State.up_due (n : Nat) (y : Side) : (s.due n).up y = s.up y := State.up_with_now _ _ _
@[simp] theorem State.present_due (n : Nat) (u : UnitId) : (s.due n).present u = s.present u := State.present_with_now _ _ _

/-! ## took -/

@[simp] theorem State.now_took : (s.took).now = s.now := State.now_with_free _ _
@[simp] theorem State.pending_took : (s.took).pending = s.pending := State.pending_with_free _ _
@[simp] theorem State.resp_took : (s.took).resp = s.resp := State.resp_with_free _ _
@[simp] theorem State.regs_took : (s.took).regs = s.regs := State.regs_with_free _ _
@[simp] theorem State.mem_took : (s.took).mem = s.mem := State.mem_with_free _ _
@[simp] theorem State.ember_took : (s.took).ember = s.ember := State.ember_with_free _ _
@[simp] theorem State.sa_took : (s.took).sa = s.sa := State.sa_with_free _ _
@[simp] theorem State.sb_took : (s.took).sb = s.sb := State.sb_with_free _ _
@[simp] theorem State.flue_took : (s.took).flue = s.flue := State.flue_with_free _ _
@[simp] theorem State.dies_took : (s.took).dies = s.dies := State.dies_with_free _ _
@[simp] theorem State.chans_took : (s.took).chans = s.chans := State.chans_with_free _ _
@[simp] theorem State.damper_took : (s.took).damper = s.damper := State.damper_with_free _ _
@[simp] theorem State.absent_took : (s.took).absent = s.absent := State.absent_with_free _ _
@[simp] theorem State.side_took (y : Side) : (s.took).side y = s.side y := State.side_with_free _ _ _
@[simp] theorem State.get_took (k : Holder) (g : Fld) (j : Nat) : (s.took).get k g j = s.get k g j := State.get_with_free _ _ _ _ _
@[simp] theorem State.byte_took (y : Side) (b : Nat) : (s.took).byte y b = s.byte y b := State.byte_with_free _ _ _ _
@[simp] theorem State.die_took (e : Nat) : (s.took).die e = s.die e := State.die_with_free _ _ _
@[simp] theorem State.chan_took (c2 : Nat) : (s.took).chan c2 = s.chan c2 := State.chan_with_free _ _ _
@[simp] theorem State.src_took (y : Side) (j : Nat) : (s.took).src y j = s.src y j := State.src_with_free _ _ _ _
@[simp] theorem State.can_took (y : Side) (j : Nat) : (s.took).can y j = s.can y j := State.can_with_free _ _ _ _
@[simp] theorem State.hart_took (y : Side) (j : Nat) : (s.took).hart y j = s.hart y j := State.hart_with_free _ _ _ _
@[simp] theorem State.bridge_took (y : Side) (j : Nat) : (s.took).bridge y j = s.bridge y j := State.bridge_with_free _ _ _ _
@[simp] theorem State.up_took (y : Side) : (s.took).up y = s.up y := State.up_with_free _ _ _
@[simp] theorem State.present_took (u : UnitId) : (s.took).present u = s.present u := State.present_with_free _ _ _
@[simp] theorem State.domTime_took (y : Side) (j : Nat) : (s.took).domTime y j = s.domTime y j := State.domTime_with_free _ _ _ _

/-! ## setDie -/

@[simp] theorem State.now_setDie (d : Nat) (v : DieSt) : (s.setDie d v).now = s.now := State.now_with_dies _ _
@[simp] theorem State.pending_setDie (d : Nat) (v : DieSt) : (s.setDie d v).pending = s.pending := State.pending_with_dies _ _
@[simp] theorem State.free_setDie (d : Nat) (v : DieSt) : (s.setDie d v).free = s.free := State.free_with_dies _ _
@[simp] theorem State.resp_setDie (d : Nat) (v : DieSt) : (s.setDie d v).resp = s.resp := State.resp_with_dies _ _
@[simp] theorem State.regs_setDie (d : Nat) (v : DieSt) : (s.setDie d v).regs = s.regs := State.regs_with_dies _ _
@[simp] theorem State.mem_setDie (d : Nat) (v : DieSt) : (s.setDie d v).mem = s.mem := State.mem_with_dies _ _
@[simp] theorem State.ember_setDie (d : Nat) (v : DieSt) : (s.setDie d v).ember = s.ember := State.ember_with_dies _ _
@[simp] theorem State.sa_setDie (d : Nat) (v : DieSt) : (s.setDie d v).sa = s.sa := State.sa_with_dies _ _
@[simp] theorem State.sb_setDie (d : Nat) (v : DieSt) : (s.setDie d v).sb = s.sb := State.sb_with_dies _ _
@[simp] theorem State.flue_setDie (d : Nat) (v : DieSt) : (s.setDie d v).flue = s.flue := State.flue_with_dies _ _
@[simp] theorem State.chans_setDie (d : Nat) (v : DieSt) : (s.setDie d v).chans = s.chans := State.chans_with_dies _ _
@[simp] theorem State.damper_setDie (d : Nat) (v : DieSt) : (s.setDie d v).damper = s.damper := State.damper_with_dies _ _
@[simp] theorem State.absent_setDie (d : Nat) (v : DieSt) : (s.setDie d v).absent = s.absent := State.absent_with_dies _ _
@[simp] theorem State.side_setDie (d : Nat) (v : DieSt) (y : Side) : (s.setDie d v).side y = s.side y := State.side_with_dies _ _ _
@[simp] theorem State.get_setDie (d : Nat) (v : DieSt) (k : Holder) (g : Fld) (j : Nat) : (s.setDie d v).get k g j = s.get k g j := State.get_with_dies _ _ _ _ _
@[simp] theorem State.byte_setDie (d : Nat) (v : DieSt) (y : Side) (b : Nat) : (s.setDie d v).byte y b = s.byte y b := State.byte_with_dies _ _ _ _
@[simp] theorem State.chan_setDie (d : Nat) (v : DieSt) (c2 : Nat) : (s.setDie d v).chan c2 = s.chan c2 := State.chan_with_dies _ _ _
@[simp] theorem State.src_setDie (d : Nat) (v : DieSt) (y : Side) (j : Nat) : (s.setDie d v).src y j = s.src y j := State.src_with_dies _ _ _ _
@[simp] theorem State.can_setDie (d : Nat) (v : DieSt) (y : Side) (j : Nat) : (s.setDie d v).can y j = s.can y j := State.can_with_dies _ _ _ _
@[simp] theorem State.hart_setDie (d : Nat) (v : DieSt) (y : Side) (j : Nat) : (s.setDie d v).hart y j = s.hart y j := State.hart_with_dies _ _ _ _
@[simp] theorem State.bridge_setDie (d : Nat) (v : DieSt) (y : Side) (j : Nat) : (s.setDie d v).bridge y j = s.bridge y j := State.bridge_with_dies _ _ _ _
@[simp] theorem State.up_setDie (d : Nat) (v : DieSt) (y : Side) : (s.setDie d v).up y = s.up y := State.up_with_dies _ _ _
@[simp] theorem State.present_setDie (d : Nat) (v : DieSt) (u : UnitId) : (s.setDie d v).present u = s.present u := State.present_with_dies _ _ _
@[simp] theorem State.domTime_setDie (d : Nat) (v : DieSt) (y : Side) (j : Nat) : (s.setDie d v).domTime y j = s.domTime y j := State.domTime_with_dies _ _ _ _

/-! ## setChan -/

@[simp] theorem State.now_setChan (c : Nat) (v : Chan) : (s.setChan c v).now = s.now := State.now_with_chans _ _
@[simp] theorem State.pending_setChan (c : Nat) (v : Chan) : (s.setChan c v).pending = s.pending := State.pending_with_chans _ _
@[simp] theorem State.free_setChan (c : Nat) (v : Chan) : (s.setChan c v).free = s.free := State.free_with_chans _ _
@[simp] theorem State.resp_setChan (c : Nat) (v : Chan) : (s.setChan c v).resp = s.resp := State.resp_with_chans _ _
@[simp] theorem State.regs_setChan (c : Nat) (v : Chan) : (s.setChan c v).regs = s.regs := State.regs_with_chans _ _
@[simp] theorem State.mem_setChan (c : Nat) (v : Chan) : (s.setChan c v).mem = s.mem := State.mem_with_chans _ _
@[simp] theorem State.ember_setChan (c : Nat) (v : Chan) : (s.setChan c v).ember = s.ember := State.ember_with_chans _ _
@[simp] theorem State.sa_setChan (c : Nat) (v : Chan) : (s.setChan c v).sa = s.sa := State.sa_with_chans _ _
@[simp] theorem State.sb_setChan (c : Nat) (v : Chan) : (s.setChan c v).sb = s.sb := State.sb_with_chans _ _
@[simp] theorem State.flue_setChan (c : Nat) (v : Chan) : (s.setChan c v).flue = s.flue := State.flue_with_chans _ _
@[simp] theorem State.dies_setChan (c : Nat) (v : Chan) : (s.setChan c v).dies = s.dies := State.dies_with_chans _ _
@[simp] theorem State.damper_setChan (c : Nat) (v : Chan) : (s.setChan c v).damper = s.damper := State.damper_with_chans _ _
@[simp] theorem State.absent_setChan (c : Nat) (v : Chan) : (s.setChan c v).absent = s.absent := State.absent_with_chans _ _
@[simp] theorem State.side_setChan (c : Nat) (v : Chan) (y : Side) : (s.setChan c v).side y = s.side y := State.side_with_chans _ _ _
@[simp] theorem State.get_setChan (c : Nat) (v : Chan) (k : Holder) (g : Fld) (j : Nat) : (s.setChan c v).get k g j = s.get k g j := State.get_with_chans _ _ _ _ _
@[simp] theorem State.byte_setChan (c : Nat) (v : Chan) (y : Side) (b : Nat) : (s.setChan c v).byte y b = s.byte y b := State.byte_with_chans _ _ _ _
@[simp] theorem State.die_setChan (c : Nat) (v : Chan) (e : Nat) : (s.setChan c v).die e = s.die e := State.die_with_chans _ _ _
@[simp] theorem State.src_setChan (c : Nat) (v : Chan) (y : Side) (j : Nat) : (s.setChan c v).src y j = s.src y j := State.src_with_chans _ _ _ _
@[simp] theorem State.can_setChan (c : Nat) (v : Chan) (y : Side) (j : Nat) : (s.setChan c v).can y j = s.can y j := State.can_with_chans _ _ _ _
@[simp] theorem State.hart_setChan (c : Nat) (v : Chan) (y : Side) (j : Nat) : (s.setChan c v).hart y j = s.hart y j := State.hart_with_chans _ _ _ _
@[simp] theorem State.bridge_setChan (c : Nat) (v : Chan) (y : Side) (j : Nat) : (s.setChan c v).bridge y j = s.bridge y j := State.bridge_with_chans _ _ _ _
@[simp] theorem State.up_setChan (c : Nat) (v : Chan) (y : Side) : (s.setChan c v).up y = s.up y := State.up_with_chans _ _ _
@[simp] theorem State.present_setChan (c : Nat) (v : Chan) (u : UnitId) : (s.setChan c v).present u = s.present u := State.present_with_chans _ _ _
@[simp] theorem State.domTime_setChan (c : Nat) (v : Chan) (y : Side) (j : Nat) : (s.setChan c v).domTime y j = s.domTime y j := State.domTime_with_chans _ _ _ _

/-! ## setSide -/

@[simp] theorem State.now_setSide (x : Side) (v : SideSt) : (s.setSide x v).now = s.now := by cases x <;> [exact State.now_with_sa _ _; exact State.now_with_sb _ _]
@[simp] theorem State.pending_setSide (x : Side) (v : SideSt) : (s.setSide x v).pending = s.pending := by cases x <;> [exact State.pending_with_sa _ _; exact State.pending_with_sb _ _]
@[simp] theorem State.free_setSide (x : Side) (v : SideSt) : (s.setSide x v).free = s.free := by cases x <;> [exact State.free_with_sa _ _; exact State.free_with_sb _ _]
@[simp] theorem State.resp_setSide (x : Side) (v : SideSt) : (s.setSide x v).resp = s.resp := by cases x <;> [exact State.resp_with_sa _ _; exact State.resp_with_sb _ _]
@[simp] theorem State.regs_setSide (x : Side) (v : SideSt) : (s.setSide x v).regs = s.regs := by cases x <;> [exact State.regs_with_sa _ _; exact State.regs_with_sb _ _]
@[simp] theorem State.mem_setSide (x : Side) (v : SideSt) : (s.setSide x v).mem = s.mem := by cases x <;> [exact State.mem_with_sa _ _; exact State.mem_with_sb _ _]
@[simp] theorem State.ember_setSide (x : Side) (v : SideSt) : (s.setSide x v).ember = s.ember := by cases x <;> [exact State.ember_with_sa _ _; exact State.ember_with_sb _ _]
@[simp] theorem State.flue_setSide (x : Side) (v : SideSt) : (s.setSide x v).flue = s.flue := by cases x <;> [exact State.flue_with_sa _ _; exact State.flue_with_sb _ _]
@[simp] theorem State.dies_setSide (x : Side) (v : SideSt) : (s.setSide x v).dies = s.dies := by cases x <;> [exact State.dies_with_sa _ _; exact State.dies_with_sb _ _]
@[simp] theorem State.chans_setSide (x : Side) (v : SideSt) : (s.setSide x v).chans = s.chans := by cases x <;> [exact State.chans_with_sa _ _; exact State.chans_with_sb _ _]
@[simp] theorem State.damper_setSide (x : Side) (v : SideSt) : (s.setSide x v).damper = s.damper := by cases x <;> [exact State.damper_with_sa _ _; exact State.damper_with_sb _ _]
@[simp] theorem State.absent_setSide (x : Side) (v : SideSt) : (s.setSide x v).absent = s.absent := by cases x <;> [exact State.absent_with_sa _ _; exact State.absent_with_sb _ _]
@[simp] theorem State.get_setSide (x : Side) (v : SideSt) (k : Holder) (g : Fld) (j : Nat) : (s.setSide x v).get k g j = s.get k g j := by cases x <;> [exact State.get_with_sa _ _ _ _ _; exact State.get_with_sb _ _ _ _ _]
@[simp] theorem State.byte_setSide (x : Side) (v : SideSt) (y : Side) (b : Nat) : (s.setSide x v).byte y b = s.byte y b := by cases x <;> [exact State.byte_with_sa _ _ _ _; exact State.byte_with_sb _ _ _ _]
@[simp] theorem State.die_setSide (x : Side) (v : SideSt) (e : Nat) : (s.setSide x v).die e = s.die e := by cases x <;> [exact State.die_with_sa _ _ _; exact State.die_with_sb _ _ _]
@[simp] theorem State.chan_setSide (x : Side) (v : SideSt) (c2 : Nat) : (s.setSide x v).chan c2 = s.chan c2 := by cases x <;> [exact State.chan_with_sa _ _ _; exact State.chan_with_sb _ _ _]
@[simp] theorem State.present_setSide (x : Side) (v : SideSt) (u : UnitId) : (s.setSide x v).present u = s.present u := by cases x <;> [exact State.present_with_sa _ _ _; exact State.present_with_sb _ _ _]

/-! ## What an update writes -/

/-- A field read after a write. -/
theorem State.get_set (h k : Holder) (f g : Fld) (i j v : Nat) :
    (s.set h f i v).get k g j = if g.key k j = f.key h i then v % 2 ^ f.width else s.get k g j := by
  simp only [State.get, State.set, Tab.get_set]

/-- The field written reads as what was written, cut to its width. -/
@[simp] theorem State.get_set_self (h : Holder) (f : Fld) (i v : Nat) : (s.set h f i v).get h f i = v % 2 ^ f.width := by
  simp [State.get_set]

/-- A field of another register or at other bits reads as before. -/
theorem State.get_set_fld (h k : Holder) (f g : Fld) (i j v : Nat) (hne : g.reg ≠ f.reg ∨ g.lo ≠ f.lo) :
    (s.set h f i v).get k g j = s.get k g j := by
  rw [State.get_set, if_neg]
  intro e
  simp only [Fld.key, FKey.mk.injEq] at e
  omega

/-- A field at another index reads as before. -/
theorem State.get_set_idx (h k : Holder) (f g : Fld) (i j v : Nat) (hne : j ≠ i) : (s.set h f i v).get k g j = s.get k g j := by
  rw [State.get_set, if_neg]
  intro e
  simp only [Fld.key, FKey.mk.injEq] at e
  exact hne e.2.2.2.2

/-- A field of another holder reads as before. -/
theorem State.get_set_holder (h k : Holder) (f g : Fld) (i j v : Nat) (hne : k.code ≠ h.code) :
    (s.set h f i v).get k g j = s.get k g j := by
  rw [State.get_set, if_neg]
  intro e
  simp only [Fld.key, FKey.mk.injEq] at e
  exact hne e.2.1

/-- A byte read after a write. -/
theorem State.byte_setByte (x y : Side) (a b : Nat) (v : Byte) :
    (s.setByte x a v).byte y b = if memKey y b = memKey x a then v else s.byte y b := by
  simp only [State.byte, State.setByte, Tab.get_set]

@[simp] theorem State.side_setSide_self (x : Side) (v : SideSt) : (s.setSide x v).side x = v := by cases x <;> rfl

@[simp] theorem State.side_setSide_other (x : Side) (v : SideSt) : (s.setSide x v).side x.other = s.side x.other := by cases x <;> rfl

@[simp] theorem State.side_setSide_other' (x : Side) (v : SideSt) : (s.setSide x.other v).side x = s.side x := by cases x <;> rfl

theorem State.side_setSide (x y : Side) (v : SideSt) : (s.setSide x v).side y = if y = x then v else s.side y := by
  cases x <;> cases y <;> rfl

/-- A table entry read after a write. -/
theorem Tab.at_put {α : Type} [DecidableEq α] (d : α) (t : Tab α) (k j : Nat) (v : α) :
    Tab.at d (Tab.put d t k v) j = if j = k then v else Tab.at d t j := by
  simp only [Tab.at, Tab.put, Tab.get_set]

@[simp] theorem Tab.at_put_self {α : Type} [DecidableEq α] (d : α) (t : Tab α) (k : Nat) (v : α) : Tab.at d (Tab.put d t k v) k = v := by
  simp [Tab.at_put]

@[simp] theorem State.die_setDie_self (d : Nat) (v : DieSt) : (s.setDie d v).die d = v := by simp [State.die, State.setDie]

theorem State.die_setDie (d e : Nat) (v : DieSt) : (s.setDie d v).die e = if e = d then v else s.die e := by
  simp [State.die, State.setDie, Tab.at_put]

@[simp] theorem State.chan_setChan_self (c : Nat) (v : Chan) : (s.setChan c v).chan c = v := by simp [State.chan, State.setChan]

theorem State.chan_setChan (c e : Nat) (v : Chan) : (s.setChan c v).chan e = if e = c then v else s.chan e := by
  simp [State.chan, State.setChan, Tab.at_put]

@[simp] theorem State.src_setSrc_self (x : Side) (i : Nat) (v : Src) : (s.setSrc x i v).src x i = v := by
  simp [State.src, State.setSrc]

@[simp] theorem State.can_setCan_self (x : Side) (k : Nat) (v : CanSt) : (s.setCan x k v).can x k = v := by
  simp [State.can, State.setCan]

@[simp] theorem State.hart_setHart_self (x : Side) (h : Nat) (v : Hart) : (s.setHart x h v).hart x h = v := by
  simp [State.hart, State.setHart]

@[simp] theorem State.bridge_setBridge_self (x : Side) (i : Nat) (v : Bridge) : (s.setBridge x i v).bridge x i = v := by
  simp [State.bridge, State.setBridge]

@[simp] theorem State.now_due_self (n : Nat) : (s.due n).now = max s.now n := rfl

@[simp] theorem State.free_took_self : s.took.free = s.free + 1 := rfl

/-! ## setSrc -/

@[simp] theorem State.now_setSrc (x : Side) (i : Nat) (v : Src) : (s.setSrc x i v).now = s.now := State.now_setSide _ _ _
@[simp] theorem State.pending_setSrc (x : Side) (i : Nat) (v : Src) : (s.setSrc x i v).pending = s.pending := State.pending_setSide _ _ _
@[simp] theorem State.free_setSrc (x : Side) (i : Nat) (v : Src) : (s.setSrc x i v).free = s.free := State.free_setSide _ _ _
@[simp] theorem State.resp_setSrc (x : Side) (i : Nat) (v : Src) : (s.setSrc x i v).resp = s.resp := State.resp_setSide _ _ _
@[simp] theorem State.regs_setSrc (x : Side) (i : Nat) (v : Src) : (s.setSrc x i v).regs = s.regs := State.regs_setSide _ _ _
@[simp] theorem State.mem_setSrc (x : Side) (i : Nat) (v : Src) : (s.setSrc x i v).mem = s.mem := State.mem_setSide _ _ _
@[simp] theorem State.ember_setSrc (x : Side) (i : Nat) (v : Src) : (s.setSrc x i v).ember = s.ember := State.ember_setSide _ _ _
@[simp] theorem State.flue_setSrc (x : Side) (i : Nat) (v : Src) : (s.setSrc x i v).flue = s.flue := State.flue_setSide _ _ _
@[simp] theorem State.dies_setSrc (x : Side) (i : Nat) (v : Src) : (s.setSrc x i v).dies = s.dies := State.dies_setSide _ _ _
@[simp] theorem State.chans_setSrc (x : Side) (i : Nat) (v : Src) : (s.setSrc x i v).chans = s.chans := State.chans_setSide _ _ _
@[simp] theorem State.damper_setSrc (x : Side) (i : Nat) (v : Src) : (s.setSrc x i v).damper = s.damper := State.damper_setSide _ _ _
@[simp] theorem State.absent_setSrc (x : Side) (i : Nat) (v : Src) : (s.setSrc x i v).absent = s.absent := State.absent_setSide _ _ _
@[simp] theorem State.get_setSrc (x : Side) (i : Nat) (v : Src) (k : Holder) (g : Fld) (j : Nat) : (s.setSrc x i v).get k g j = s.get k g j := State.get_setSide _ _ _ _ _ _
@[simp] theorem State.byte_setSrc (x : Side) (i : Nat) (v : Src) (y : Side) (b : Nat) : (s.setSrc x i v).byte y b = s.byte y b := State.byte_setSide _ _ _ _ _
@[simp] theorem State.die_setSrc (x : Side) (i : Nat) (v : Src) (e : Nat) : (s.setSrc x i v).die e = s.die e := State.die_setSide _ _ _ _
@[simp] theorem State.chan_setSrc (x : Side) (i : Nat) (v : Src) (c2 : Nat) : (s.setSrc x i v).chan c2 = s.chan c2 := State.chan_setSide _ _ _ _
@[simp] theorem State.present_setSrc (x : Side) (i : Nat) (v : Src) (u : UnitId) : (s.setSrc x i v).present u = s.present u := State.present_setSide _ _ _ _

/-! ## setCan -/

@[simp] theorem State.now_setCan (x : Side) (i : Nat) (v : CanSt) : (s.setCan x i v).now = s.now := State.now_setSide _ _ _
@[simp] theorem State.pending_setCan (x : Side) (i : Nat) (v : CanSt) : (s.setCan x i v).pending = s.pending := State.pending_setSide _ _ _
@[simp] theorem State.free_setCan (x : Side) (i : Nat) (v : CanSt) : (s.setCan x i v).free = s.free := State.free_setSide _ _ _
@[simp] theorem State.resp_setCan (x : Side) (i : Nat) (v : CanSt) : (s.setCan x i v).resp = s.resp := State.resp_setSide _ _ _
@[simp] theorem State.regs_setCan (x : Side) (i : Nat) (v : CanSt) : (s.setCan x i v).regs = s.regs := State.regs_setSide _ _ _
@[simp] theorem State.mem_setCan (x : Side) (i : Nat) (v : CanSt) : (s.setCan x i v).mem = s.mem := State.mem_setSide _ _ _
@[simp] theorem State.ember_setCan (x : Side) (i : Nat) (v : CanSt) : (s.setCan x i v).ember = s.ember := State.ember_setSide _ _ _
@[simp] theorem State.flue_setCan (x : Side) (i : Nat) (v : CanSt) : (s.setCan x i v).flue = s.flue := State.flue_setSide _ _ _
@[simp] theorem State.dies_setCan (x : Side) (i : Nat) (v : CanSt) : (s.setCan x i v).dies = s.dies := State.dies_setSide _ _ _
@[simp] theorem State.chans_setCan (x : Side) (i : Nat) (v : CanSt) : (s.setCan x i v).chans = s.chans := State.chans_setSide _ _ _
@[simp] theorem State.damper_setCan (x : Side) (i : Nat) (v : CanSt) : (s.setCan x i v).damper = s.damper := State.damper_setSide _ _ _
@[simp] theorem State.absent_setCan (x : Side) (i : Nat) (v : CanSt) : (s.setCan x i v).absent = s.absent := State.absent_setSide _ _ _
@[simp] theorem State.get_setCan (x : Side) (i : Nat) (v : CanSt) (k : Holder) (g : Fld) (j : Nat) : (s.setCan x i v).get k g j = s.get k g j := State.get_setSide _ _ _ _ _ _
@[simp] theorem State.byte_setCan (x : Side) (i : Nat) (v : CanSt) (y : Side) (b : Nat) : (s.setCan x i v).byte y b = s.byte y b := State.byte_setSide _ _ _ _ _
@[simp] theorem State.die_setCan (x : Side) (i : Nat) (v : CanSt) (e : Nat) : (s.setCan x i v).die e = s.die e := State.die_setSide _ _ _ _
@[simp] theorem State.chan_setCan (x : Side) (i : Nat) (v : CanSt) (c2 : Nat) : (s.setCan x i v).chan c2 = s.chan c2 := State.chan_setSide _ _ _ _
@[simp] theorem State.present_setCan (x : Side) (i : Nat) (v : CanSt) (u : UnitId) : (s.setCan x i v).present u = s.present u := State.present_setSide _ _ _ _

/-! ## setHart -/

@[simp] theorem State.now_setHart (x : Side) (i : Nat) (v : Hart) : (s.setHart x i v).now = s.now := State.now_setSide _ _ _
@[simp] theorem State.pending_setHart (x : Side) (i : Nat) (v : Hart) : (s.setHart x i v).pending = s.pending := State.pending_setSide _ _ _
@[simp] theorem State.free_setHart (x : Side) (i : Nat) (v : Hart) : (s.setHart x i v).free = s.free := State.free_setSide _ _ _
@[simp] theorem State.resp_setHart (x : Side) (i : Nat) (v : Hart) : (s.setHart x i v).resp = s.resp := State.resp_setSide _ _ _
@[simp] theorem State.regs_setHart (x : Side) (i : Nat) (v : Hart) : (s.setHart x i v).regs = s.regs := State.regs_setSide _ _ _
@[simp] theorem State.mem_setHart (x : Side) (i : Nat) (v : Hart) : (s.setHart x i v).mem = s.mem := State.mem_setSide _ _ _
@[simp] theorem State.ember_setHart (x : Side) (i : Nat) (v : Hart) : (s.setHart x i v).ember = s.ember := State.ember_setSide _ _ _
@[simp] theorem State.flue_setHart (x : Side) (i : Nat) (v : Hart) : (s.setHart x i v).flue = s.flue := State.flue_setSide _ _ _
@[simp] theorem State.dies_setHart (x : Side) (i : Nat) (v : Hart) : (s.setHart x i v).dies = s.dies := State.dies_setSide _ _ _
@[simp] theorem State.chans_setHart (x : Side) (i : Nat) (v : Hart) : (s.setHart x i v).chans = s.chans := State.chans_setSide _ _ _
@[simp] theorem State.damper_setHart (x : Side) (i : Nat) (v : Hart) : (s.setHart x i v).damper = s.damper := State.damper_setSide _ _ _
@[simp] theorem State.absent_setHart (x : Side) (i : Nat) (v : Hart) : (s.setHart x i v).absent = s.absent := State.absent_setSide _ _ _
@[simp] theorem State.get_setHart (x : Side) (i : Nat) (v : Hart) (k : Holder) (g : Fld) (j : Nat) : (s.setHart x i v).get k g j = s.get k g j := State.get_setSide _ _ _ _ _ _
@[simp] theorem State.byte_setHart (x : Side) (i : Nat) (v : Hart) (y : Side) (b : Nat) : (s.setHart x i v).byte y b = s.byte y b := State.byte_setSide _ _ _ _ _
@[simp] theorem State.die_setHart (x : Side) (i : Nat) (v : Hart) (e : Nat) : (s.setHart x i v).die e = s.die e := State.die_setSide _ _ _ _
@[simp] theorem State.chan_setHart (x : Side) (i : Nat) (v : Hart) (c2 : Nat) : (s.setHart x i v).chan c2 = s.chan c2 := State.chan_setSide _ _ _ _
@[simp] theorem State.present_setHart (x : Side) (i : Nat) (v : Hart) (u : UnitId) : (s.setHart x i v).present u = s.present u := State.present_setSide _ _ _ _

/-! ## setBridge -/

@[simp] theorem State.now_setBridge (x : Side) (i : Nat) (v : Bridge) : (s.setBridge x i v).now = s.now := State.now_setSide _ _ _
@[simp] theorem State.pending_setBridge (x : Side) (i : Nat) (v : Bridge) : (s.setBridge x i v).pending = s.pending := State.pending_setSide _ _ _
@[simp] theorem State.free_setBridge (x : Side) (i : Nat) (v : Bridge) : (s.setBridge x i v).free = s.free := State.free_setSide _ _ _
@[simp] theorem State.resp_setBridge (x : Side) (i : Nat) (v : Bridge) : (s.setBridge x i v).resp = s.resp := State.resp_setSide _ _ _
@[simp] theorem State.regs_setBridge (x : Side) (i : Nat) (v : Bridge) : (s.setBridge x i v).regs = s.regs := State.regs_setSide _ _ _
@[simp] theorem State.mem_setBridge (x : Side) (i : Nat) (v : Bridge) : (s.setBridge x i v).mem = s.mem := State.mem_setSide _ _ _
@[simp] theorem State.ember_setBridge (x : Side) (i : Nat) (v : Bridge) : (s.setBridge x i v).ember = s.ember := State.ember_setSide _ _ _
@[simp] theorem State.flue_setBridge (x : Side) (i : Nat) (v : Bridge) : (s.setBridge x i v).flue = s.flue := State.flue_setSide _ _ _
@[simp] theorem State.dies_setBridge (x : Side) (i : Nat) (v : Bridge) : (s.setBridge x i v).dies = s.dies := State.dies_setSide _ _ _
@[simp] theorem State.chans_setBridge (x : Side) (i : Nat) (v : Bridge) : (s.setBridge x i v).chans = s.chans := State.chans_setSide _ _ _
@[simp] theorem State.damper_setBridge (x : Side) (i : Nat) (v : Bridge) : (s.setBridge x i v).damper = s.damper := State.damper_setSide _ _ _
@[simp] theorem State.absent_setBridge (x : Side) (i : Nat) (v : Bridge) : (s.setBridge x i v).absent = s.absent := State.absent_setSide _ _ _
@[simp] theorem State.get_setBridge (x : Side) (i : Nat) (v : Bridge) (k : Holder) (g : Fld) (j : Nat) : (s.setBridge x i v).get k g j = s.get k g j := State.get_setSide _ _ _ _ _ _
@[simp] theorem State.byte_setBridge (x : Side) (i : Nat) (v : Bridge) (y : Side) (b : Nat) : (s.setBridge x i v).byte y b = s.byte y b := State.byte_setSide _ _ _ _ _
@[simp] theorem State.die_setBridge (x : Side) (i : Nat) (v : Bridge) (e : Nat) : (s.setBridge x i v).die e = s.die e := State.die_setSide _ _ _ _
@[simp] theorem State.chan_setBridge (x : Side) (i : Nat) (v : Bridge) (c2 : Nat) : (s.setBridge x i v).chan c2 = s.chan c2 := State.chan_setSide _ _ _ _
@[simp] theorem State.present_setBridge (x : Side) (i : Nat) (v : Bridge) (u : UnitId) : (s.setBridge x i v).present u = s.present u := State.present_setSide _ _ _ _

end Sys2Proof.Machine
end

