-- ==== Sys2Proof/Laws/Ops.lean ====
section
/-! SUPPORT. The frame of a command as a preorder, and what the shared operations do: interrupts, replies, packets in Chromir. -/
namespace Sys2Proof.Machine
open Sys2Proof

variable {l m : List Spot} {s t u : State}

/-! ## Frames -/

theorem Only.refl (l : List Spot) (s : State) : Only l s s := fun _ _ _ _ => rfl

theorem Only.trans (h : Only l s t) (k : Only l t u) : Only l s u := fun a f i hn => (k a f i hn).trans (h a f i hn)

theorem Only.mono (h : Only l s t) (hs : ∀ p ∈ l, p ∈ m) : Only m s t := fun a f i hn => h a f i fun p hp => hn p (hs p hp)

/-- An update that leaves the register fields. -/
theorem Only.of_regs (h : t.regs = s.regs) : Only l s t := fun a f i _ => by simp only [State.get, h]

theorem Only.then_regs (h : Only l s t) (k : u.regs = t.regs) : Only l s u := h.trans (Only.of_regs k)

/-- A field listed is written. -/
theorem Only.set {h : Holder} {f : Fld} {i v : Nat} (hl : (h, f, i) ∈ l) : Only l s (s.set h f i v) := by
  intro a g j hn
  rw [State.get_set, if_neg (hn _ hl)]

theorem Only.then_set {h : Holder} {f : Fld} {i v : Nat} (hk : Only l s t) (hl : (h, f, i) ∈ l) : Only l s (t.set h f i v) :=
  hk.trans (Only.set hl)

/-- A field that the frame does not list reads as before. -/
theorem Only.get {h : Holder} {f : Fld} {i : Nat} (hk : Only l s t) (hn : ∀ p ∈ l, f.key h i ≠ p.2.1.key p.1 p.2.2) :
    t.get h f i = s.get h f i := hk h f i hn

/-- A field of a register that the frame does not name reads as before. -/
theorem Only.get_fld {h : Holder} {f : Fld} {i : Nat} (hk : Only l s t) (hn : ∀ p ∈ l, f.reg ≠ p.2.1.reg ∨ f.lo ≠ p.2.1.lo) :
    t.get h f i = s.get h f i := by
  refine hk.get fun p hp e => ?_
  simp only [Fld.key, FKey.mk.injEq] at e
  have := hn p hp
  omega

theorem SideOnly.refl (x : Side) (s : State) : SideOnly x s s := ⟨rfl, rfl, rfl, rfl, rfl, rfl, rfl, rfl, rfl, rfl⟩

theorem SideOnly.trans {x : Side} (h : SideOnly x s t) (k : SideOnly x t u) : SideOnly x s u :=
  ⟨k.1.trans h.1, k.2.1.trans h.2.1, k.2.2.1.trans h.2.2.1, k.2.2.2.1.trans h.2.2.2.1, k.2.2.2.2.1.trans h.2.2.2.2.1,
   k.2.2.2.2.2.1.trans h.2.2.2.2.2.1, k.2.2.2.2.2.2.1.trans h.2.2.2.2.2.2.1, k.2.2.2.2.2.2.2.1.trans h.2.2.2.2.2.2.2.1,
   k.2.2.2.2.2.2.2.2.1.trans h.2.2.2.2.2.2.2.2.1, k.2.2.2.2.2.2.2.2.2.trans h.2.2.2.2.2.2.2.2.2⟩

theorem SideOnly.set (x : Side) (h : Holder) (f : Fld) (i v : Nat) : SideOnly x s (s.set h f i v) :=
  ⟨rfl, rfl, rfl, rfl, rfl, State.side_set _ _ _ _ _ _, rfl, rfl, rfl, rfl⟩

theorem SideOnly.setSide (x : Side) (v : SideSt) : SideOnly x s (s.setSide x v) := by
  refine ⟨?_, ?_, ?_, ?_, ?_, ?_, ?_, ?_, ?_, ?_⟩ <;> simp

theorem SideOnly.mem {x : Side} (h : SideOnly x s t) : MemSame s t := fun y a => by simp only [State.byte, h.2.2.2.1]

/-! ## Interrupts -/

theorem testBit_setBit (w i : Nat) : (setBit w i).testBit i = true := by
  simp [setBit, Nat.testBit_or, Nat.testBit_two_pow_self]

theorem testBit_mod (w n i : Nat) (h : i < n) : (w % 2 ^ n).testBit i = w.testBit i := by
  simp [Nat.testBit_mod_two_pow, h]

@[simp] theorem State.side_intr (x y : Side) (n : Nat) : (s.intr x n).side y = s.side y := by
  unfold State.intr
  split <;> simp

@[simp] theorem State.src_intr (x y : Side) (n i : Nat) : (s.intr x n).src y i = s.src y i := by
  simp only [State.src, State.side_intr]

theorem Only.intr {x : Side} {n : Nat} (hl : (.side x, F.INTR_PENDING, n / 32) ∈ l) : Only l s (s.intr x n) := by
  unfold State.intr
  split
  · exact Only.set hl
  · exact Only.refl _ _

theorem SideOnly.intr (x y : Side) (n : Nat) : SideOnly x s (s.intr y n) := by
  unfold State.intr
  split
  · exact SideOnly.set _ _ _ _ _
  · exact SideOnly.refl _ _

/-- A source below 104 is pending after it latches. -/
theorem State.pending_intr (x : Side) (n : Nat) (h : n < 104) :
    ((s.intr x n).get (.side x) F.INTR_PENDING (n / 32)).testBit (n % 32) = true := by
  have h32 : n % 32 < F.INTR_PENDING.width := Nat.mod_lt _ (by decide)
  rw [State.intr, if_pos h, State.setBit, State.get_set_self, testBit_mod _ _ _ h32, testBit_setBit]

/-! ## Replies -/

theorem State.src_of_side {x : Side} {i : Nat} (h : t.side x = s.side x) : t.src x i = s.src x i := by simp only [State.src, h]

theorem State.pairDoor_of_get {x : Side} (hm : t.get (.side x) F.PAIR_CFG_MODE 0 = s.get (.side x) F.PAIR_CFG_MODE 0)
    (hd : t.get (.side x) F.PAIR_CFG_DOOR 0 = s.get (.side x) F.PAIR_CFG_DOOR 0) : t.pairDoor x = s.pairDoor x := by
  simp only [State.pairDoor, hm, hd]

/-- Words that enter the reply FIFO of a source that is not the PAIR unit's door. -/
theorem State.enqueue_eq {x : Side} {i : Nat} {ws : List Nat} (hp : s.pairDoor x ≠ some i) :
    s.enqueue x i ws = if i < 32 then (s.setSrc x i { s.src x i with rpl := (s.src x i).rpl ++ ws }).intr x i
      else s.setSrc x i { s.src x i with rpl := (s.src x i).rpl ++ ws } := by
  unfold State.enqueue
  dsimp only
  by_cases h : i < 32
  · rw [if_pos h, if_neg]
    rw [State.pairDoor_of_get (s := s)]
    · exact hp
    all_goals
      rw [Only.get_fld (l := [(.side x, F.INTR_PENDING, i / 32)]) (Only.intr (by simp)) (by simp; decide), State.get_setSrc]
  · rw [if_neg h, if_neg]
    rwa [State.pairDoor_of_get (s := s) (State.get_setSrc _ _ _ _ _ _ _) (State.get_setSrc _ _ _ _ _ _ _)]

/-- A final reply to an open packet. -/
theorem State.answer_open {j : Job} {status detail : Nat} {words : List Nat} (h : s.Open j) (hs : status ≠ stDelayed) :
    Replied s (s.answer j status detail words) j status detail words ∧
    Only [(.side j.side, F.INTR_PENDING, j.src / 32)] s (s.answer j status detail words) ∧
    SideOnly j.side s (s.answer j status detail words) ∧
    (s.answer j status detail words).side j.side =
      { s.side j.side with srcs := ((s.answer j status detail words).side j.side).srcs } := by
  obtain ⟨ho, hp⟩ := h
  have hp' : ∀ q, (s.setSrc j.side j.src q).pairDoor j.side ≠ some j.src := fun q => by
    rwa [State.pairDoor_of_get (s := s) (State.get_setSrc _ _ _ _ _ _ _) (State.get_setSrc _ _ _ _ _ _ _)]
  have e : s.answer j status detail words =
      (s.setSrc j.side j.src { s.src j.side j.src with out := (s.src j.side j.src).out.filter (fun o => o.seq != j.seq) }).enqueue
        j.side j.src (rplHeader (j.pkt.code / 256) status j.pkt.tag j.pkt.world words.length detail :: words) := by
    simp only [State.answer, State.deliver, ho, if_true, if_neg hs]
  rw [e, State.enqueue_eq (hp' _)]
  have so : ∀ (q r : Src), SideOnly j.side s ((s.setSrc j.side j.src q).setSrc j.side j.src r) := fun q r =>
    (SideOnly.setSide _ _).trans (SideOnly.setSide _ _)
  by_cases hi : j.src < 32
  · rw [if_pos hi]
    refine ⟨⟨?_, ?_, fun _ => State.pending_intr _ _ (by omega)⟩, ?_, (so _ _).trans (SideOnly.intr _ _ _), ?_⟩
    · simp
    · simp
    · exact (Only.of_regs (by simp)).trans (Only.intr (by simp))
    · simp [State.setSrc]
  · rw [if_neg hi]
    refine ⟨⟨?_, ?_, fun h => absurd h hi⟩, Only.of_regs (by simp), so _ _, ?_⟩
    · simp
    · simp
    · simp [State.setSrc]

end Sys2Proof.Machine
end

