-- ==== Sys2Proof/Laws/Packets.lean ====
section
/-! SUPPORT. What Chromir does with the packet at the head of its queue, and what its answer leaves. -/
namespace Sys2Proof.Machine
open Sys2Proof

variable {s t u : State}

/-- The tag stays open while its source and the PAIR unit's configuration stay. -/
theorem State.Open.of {j : Job} (h : s.Open j) (hsrc : t.src j.side j.src = s.src j.side j.src)
    (hm : t.get (.side j.side) F.PAIR_CFG_MODE 0 = s.get (.side j.side) F.PAIR_CFG_MODE 0)
    (hd : t.get (.side j.side) F.PAIR_CFG_DOOR 0 = s.get (.side j.side) F.PAIR_CFG_DOOR 0) : t.Open j := by
  refine ⟨by rw [hsrc]; exact h.1, ?_⟩
  rw [State.pairDoor_of_get hm hd]
  exact h.2

/-- A reply seen from an earlier state whose source was the same. -/
theorem Replied.of {j : Job} {st de : Nat} {ws : List Nat} (h : Replied t u j st de ws)
    (hsrc : t.src j.side j.src = s.src j.side j.src) : Replied s u j st de ws := by
  unfold Replied at *
  rwa [hsrc] at h

/-- Chromir's answer to an open packet. -/
theorem State.done_open {j : Job} {status detail : Nat} {words : List Nat} (h : s.Open j) (hs : status ≠ stDelayed) :
    Replied s (s.done j status detail words) j status detail words ∧
    Only (replyFields j) s (s.done j status detail words) ∧
    SideOnly j.side s (s.done j status detail words) ∧
    (s.done j status detail words).side j.side =
      { s.side j.side with srcs := ((s.done j status detail words).side j.side).srcs } := by
  cases ho : s.ordinary j
  · have e : s.done j status detail words = s.answer j status detail words := by simp only [State.done, ho, Bool.false_eq_true, if_false]
    obtain ⟨a, b, c, d⟩ := State.answer_open (status := status) (detail := detail) (words := words) h hs
    rw [e]
    exact ⟨a, b.mono (by simp [replyFields]), c, d⟩
  · obtain ⟨v, e⟩ : ∃ v, s.done j status detail words = (s.set (.side j.side) F.STOKER_CHROMIR_MAX 0 v).answer j status detail words :=
      ⟨max (s.get (.side j.side) F.STOKER_CHROMIR_MAX 0) (s.now - j.takenAt), by simp only [State.done, ho, if_true]⟩
    have ho : (s.set (.side j.side) F.STOKER_CHROMIR_MAX 0 v).Open j := by
      refine h.of (State.src_set _ _ _ _ _ _ _) ?_ ?_ <;> exact State.get_set_fld _ _ _ _ _ _ _ _ (by decide)
    obtain ⟨a, b, c, d⟩ := State.answer_open (status := status) (detail := detail) (words := words) ho hs
    rw [e]
    refine ⟨a.of (State.src_set _ _ _ _ _ _ _), ?_, (SideOnly.set _ _ _ _ _).trans c, ?_⟩
    · exact (Only.set (by simp [replyFields])).trans (b.mono (by simp [replyFields]))
    · rw [State.side_set] at d
      exact d

/-- What Chromir's taking of a packet off its queue leaves: everything but its queue and the long operations of its side. -/
theorem State.popped_eq {x : Side} {q : List Job} (h : (s.side x).chromirDown = false) :
    s.popped x q = s.setSide x { s.side x with
      chromirQ := q.dropWhile isLong, longQ := (s.side x).longQ ++ q.takeWhile isLong,
      longAt := if (s.side x).longQ = [] then s.now else (s.side x).longAt } := by
  cases x <;> simp only [State.side] at h <;> simp [State.popped, State.longMove, State.side, State.setSide, h] <;> rfl

/-- Chromir runs the packet at the head of its queue. -/
theorem State.chromir_head {x : Side} {code : Nat} {j : Job} {q : List Job} (f : State → Job → State) (h : s.Head x code j q) :
    s.chromir x code f = f (s.popped x q) j ∧ (s.popped x q).Open j := by
  obtain ⟨hu, hd, hq, hc, hl, hx, ho⟩ := h
  refine ⟨?_, ?_⟩
  · unfold State.chromir
    rw [hq]
    exact if_pos ⟨hu, by simp [hd], hc, hl⟩
  · rw [State.popped_eq hd]
    refine ho.of ?_ (State.get_setSide _ _ _ _ _ _) (State.get_setSide _ _ _ _ _ _)
    subst hx
    simp [State.src]

/-- A packet that Chromir answers at once: the reply, what is left of the queue, and the frame. -/
theorem State.chromir_done {x : Side} {code : Nat} {j : Job} {q : List Job} {status detail : Nat} {words : List Nat}
    (f : State → Job → State) (h : s.Head x code j q) (hs : status ≠ stDelayed)
    (hf : f (s.popped x q) j = (s.popped x q).done j status detail words) :
    Replied s (s.chromir x code f) j status detail words ∧ Only (replyFields j) s (s.chromir x code f) ∧
    SideOnly x s (s.chromir x code f) ∧
    (s.chromir x code f).side x = { (s.popped x q).side x with srcs := ((s.chromir x code f).side x).srcs } := by
  obtain ⟨e, ho⟩ := s.chromir_head f h
  obtain ⟨-, hd, -, -, -, hx, -⟩ := h
  subst hx
  rw [e, hf]
  obtain ⟨a, b, c, d⟩ := State.done_open (status := status) (detail := detail) (words := words) ho hs
  have hp := State.popped_eq (q := q) hd
  refine ⟨a.of (by rw [hp]; simp [State.src]), ?_, ?_, d⟩
  · refine Only.trans ?_ b
    rw [hp]
    exact Only.of_regs (State.regs_setSide _ _ _)
  · refine SideOnly.trans ?_ c
    rw [hp]
    exact SideOnly.setSide _ _

/-- A command that only answers. -/
theorem answers_of {c : Instr} {x : Side} {code : Nat} {j : Job} {q : List Job} {status detail : Nat} {words : List Nat}
    {f : State → Job → State} (h : s.Head x code j q) (hs : status ≠ stDelayed) (he : Sys2Proof.Machine.exec c s = ok (s.chromir x code f))
    (hf : f (s.popped x q) j = (s.popped x q).done j status detail words) : Answers c s j q status detail words := by
  obtain ⟨a, b, d, e⟩ := State.chromir_done f h hs hf
  have hx := h.2.2.2.2.2.1
  subst hx
  exact ⟨_, he, a, b, d, e⟩

/-- A command that writes and answers: `u` is the state that the answer is given in. -/
theorem acts_of {c : Instr} {x : Side} {code : Nat} {j : Job} {q : List Job} {status detail : Nat} {words : List Nat} {l : List Spot}
    {P : State → Prop} {f : State → Job → State} {u : State} (h : s.Head x code j q) (hs : status ≠ stDelayed)
    (he : Sys2Proof.Machine.exec c s = ok (s.chromir x code f)) (hf : f (s.popped x q) j = u.done j status detail words)
    (hsrc : u.src j.side j.src = s.src j.side j.src) (hq : (u.side j.side).chromirQ = q.dropWhile isLong) (ho : Only l s u)
    (hm : MemSame s u) (hpm : u.get (.side j.side) F.PAIR_CFG_MODE 0 = s.get (.side j.side) F.PAIR_CFG_MODE 0)
    (hpd : u.get (.side j.side) F.PAIR_CFG_DOOR 0 = s.get (.side j.side) F.PAIR_CFG_DOOR 0)
    (hP : ∀ t, Only (replyFields j) u t → SideOnly j.side u t →
      t.side j.side = { u.side j.side with srcs := (t.side j.side).srcs } → P t) : Acts c s j q status detail words l P := by
  obtain ⟨e, -⟩ := s.chromir_head f h
  have hop : u.Open j := h.2.2.2.2.2.2.of hsrc hpm hpd
  obtain ⟨a, b, d, g⟩ := State.done_open (status := status) (detail := detail) (words := words) hop hs
  have e' : s.chromir x code f = u.done j status detail words := e.trans hf
  refine ⟨u.done j status detail words, he.trans (congrArg ok e'), a.of hsrc, ?_, ?_, ?_, hP _ b d g⟩
  · rw [g]
    exact hq
  · exact (ho.mono fun p hp => List.mem_append_left _ hp).trans (b.mono fun p hp => List.mem_append_right _ hp)
  · intro y a
    rw [d.mem y a, hm y a]

end Sys2Proof.Machine
end

