-- ==== Sys2Proof/WellFormed.lean ====
section
/-! DEFINITION. Which commands are well-formed: the lengths that the spec gives to what an event carries. -/
namespace Sys2Proof

/-- A CAN frame carries at most 2 048 data bytes (R368, R374). -/
def CanFrame.wf (f : CanFrame) : Bool := decide (f.data.length ≤ 2048)

/-- An Ethernet frame has at least its two addresses and an EtherType (R333). -/
def EthFrame.wf (f : EthFrame) : Bool := decide (14 ≤ f.bytes.length ∧ f.bytes.length ≤ 16384)

/-- The well-formed commands. -/
def Instr.wf : Instr → Bool
  | .stokeCsRise _ ws _ => decide (ws.length ≤ 4096)
  | .grateSampleTick _ smp _ => decide (smp.length = 16)
  | .ainSample _ codes => decide (codes.length = 24)
  | .budgetExchange coolant _ _ => decide (coolant.length = 4)
  | .canWakeFrame _ fr => fr.wf
  | .canFrameRx _ f _ _ => f.wf
  | .frameReceive _ f others _ => f.wf && others.all (fun g => g.2.wf)
  | .lifeRxFrame _ f => f.wf
  | _ => true

end Sys2Proof
end

