-- ==== Sys2Proof/Tests/Slice0.lean ====
section
/-! SUPPORT. Small tests: a command with a wrong length is ill-formed, values of the manual's worked examples, and for every statement
with hypotheses a state and operands that meet those of each of its clauses. -/
namespace Sys2Proof.Machine.Tests
open Sys2Proof Sys2Proof.Machine

set_option Elab.async false -- one theorem at a time: the evaluations are large

/-! ## Well-formedness -/

theorem test_wf_stoke : (Instr.stokeCsRise .a (List.replicate 4097 0) 0).wf = false := by decide +kernel

theorem test_wf_samples : (Instr.grateSampleTick 0 [] 0).wf = false ∧ (Instr.ainSample .a (List.replicate 23 0)).wf = false ∧
    (Instr.budgetExchange [0, 0, 0] none 0).wf = false := by decide +kernel

theorem test_wf_can : (Instr.canWakeFrame 0 ⟨0, 0, 0, 0, List.replicate 2049 0⟩).wf = false ∧
    (Instr.canFrameRx 0 ⟨0, 0, 0, 0, List.replicate 2049 0⟩ 0 .clean).wf = false := by decide +kernel

theorem test_wf_frames : (Instr.frameReceive 0 ⟨List.replicate 13 0, true⟩ [] []).wf = false ∧
    (Instr.frameReceive 0 ⟨List.replicate 60 0, true⟩ [(3, ⟨List.replicate 13 0, true⟩)] []).wf = false ∧
    (Instr.lifeRxFrame .a ⟨List.replicate 16385 0, true⟩).wf = false := by decide +kernel

theorem test_wf_nop : (Instr.nop .a).wf = true := by decide

/-! ## Values of the manual's worked examples -/

/-- The state that a command answers, judged. -/
def after (o : Out) (f : State → Bool) : Bool :=
  match o with
  | .next t => f t
  | _ => false

/-- R7: -3.25 A. -/
theorem test_signal_word : sigWord (-3407872) = 0xFFFFCC0000 ∧ sigInt 0xFFFFCC0000 = -3407872 := by decide +kernel

/-- R9: 500 000 000.5 ns after a second boundary. -/
theorem test_ns_word : nsWord (3 * secTicks + 500000000 * 1024 + 512) = 0x7735940200 ∧
    secWord (3 * secTicks + 500000000 * 1024 + 512) = 3 := by decide +kernel

/-- R65, chapter 03: the DELAYED reply of the held turn-on on CH02, and its final reply. -/
theorem test_reply_header : rplHeader 2 0x01 0x2C 3 0 0x064 = 0x2012C60064 ∧ rplHeader 2 0 0x2C 3 0 0 = 0x2002C60000 := by decide +kernel

/-- Chapter 17: Pmax at 78 and 85 degrees. -/
theorem test_pmax : pMax (units 78) = units 87 ∧ pMax (units 85) = units 80 := by decide +kernel

/-- R401, chapter 14: BLW_TX_LAT of the protected port 2 is 430.000 ns, and the receive latency of port 0 is 1 011.25 ns. -/
theorem test_latencies : ((State.reset.set .flue F.PORT_CFG_MACSEC_EN 2 1).txLat 2) / 1024 = 430 * 1024 ∧
    State.reset.rxLat 0 / 1024 = 1011 * 1024 + 256 := by decide +kernel

/-- R405 by hand: 100 ns with kp 0.5 and ki 0.25 give integ 25 ppb and adj -75 ppb. -/
theorem test_servo : servo 524288 262144 0 102400 = (25 * 1048576, -75 * 1048576) := by decide +kernel

/-- A side that runs. -/
def wSide : SideSt := { SideSt.init with
  run := .ready, cores := true, taking := true, firstCommit := true,
  harts := (List.range 6).map (fun h => (h, { Hart.held with run := true })) }
/-- The module in Glowing with both sides up, every unit present and the tokens of G0 and the network held by Side A. -/
def w0 : State :=
  (({ State.reset with
      now := 20000000000, sa := wSide, sb := wSide, absent := [], ember := { EmberSt.init with phase := .up },
      flue := { FlueSt.init with powered := true, reset_ := false, committed := true },
      dies := (List.range 4).map (fun d => (d, { DieSt.init with powered := true })) }.set (.grate 0) F.GRATE_TOKEN_HOLDER 0 0).set (.grate 4)
    F.GRATE_TOKEN_HOLDER 0 0).set (.grate 0) F.GRATE_TOKEN_STATE 0 0
/-- A packet of world 0 that source 2 of Side A sent. -/
def wJob (code target : Nat) (ps : List Nat) : Job := ⟨.a, 2, 7, 900, ⟨code, 5, 0, target, ps, false⟩⟩
/-- `s` with that packet's tag outstanding. -/
def wOpen (s : State) : State := s.setSrc .a 2 { Src.empty with out := [⟨5, 7, 40, 0⟩] }
/-- `s` with the packet at the head of Chromir's queue. -/
def wHead (s : State) (j : Job) : State := (wOpen s).setSide .a { (wOpen s).side .a with chromirQ := [j] }
/-- `s` with the packet as its first long operation. -/
def wLong (s : State) (j : Job) : State := (wOpen s).setSide .a { (wOpen s).side .a with longQ := [j] }
/-- `s` with the packet at the head of Side A's link to grate die 0. -/
def wLink (s : State) (j : Job) : State := (wOpen s).setSide .a { (wOpen s).side .a with links := [(0, [j])] }
/-- An Announce of another clock than the module's own, received on port 3. -/
def otherAnnounce : Announce :=
  ⟨3, 1, 100, 0x06FE4E5D, 200, 0x0123456789ABCDEF, 2, if Config.clockIdentity.toNat = 0x99 then 0x9A0001 else 0x990001, []⟩

/-- R65, R89: NOP at the head of Chromir's queue is answered OK with its tag. -/
theorem test_nop : after (exec (.nop .a) (wHead w0 (wJob 0x000 0 []))) (fun t => (t.src .a 2).rpl == [0x0000500000]) = true := by
  decide +kernel

/-- R6, R67: a step takes the front command and leaves the others. -/
theorem test_step_order : after (step { w0 with pending := [.nop .a, .derateAssert] }) (fun t => t.pending == [.derateAssert]) = true := by
  decide +kernel

/-- Chapter 16: ACCESS_FAULT of application core 1 in world 2, 32-bit read of 0x00_4003_0030 at 1 700 000 000.25 s, locked. -/
theorem test_access_fault : (((w0.set (.side .a) F.TIME_STATUS_D0_STATE 0 1).setClock .a 0
    ⟨1700000000 * secTicks + 250000000 * 1024, 20000000000, 0, 0, 0⟩).logFault .a 0 12 1 2 4 false 0x40030030 |>.ashEntry .a 0).words =
    [0x001000442C, 0x006553F100, 0x3B9ACA0000, 0x0040030030] := by decide +kernel

/-- Chapter 15: hart 2 in S mode of world 3 calls gate 5. -/
theorem test_gate_call : after (exec (.gateCall .a 2 0x0050000B 0x12000400 1 false)
    ((((((w0.set (.side .a) F.WOT_GATE_CFG_CALLERS 5 8).set (.side .a) F.WOT_GATE_CFG_PRIV 5 3).set (.side .a) F.WOT_GATE_ENTRY 5
      0x10008000).set (.side .a) F.WOT_WORLD_STATE_STATE 0 3).set (.side .a) F.WOT_HART_CURRENT 2 3).setHart .a 2
      { Hart.held with run := true }))
    (fun t => (t.hart .a 2).frames == [⟨3, 1, false, 0x12000404, 5⟩] && (t.hart .a 2).pc == 0x10008000 && (t.hart .a 2).priv == 3 &&
      t.get (.side .a) F.WOT_HART_CURRENT 2 == 0) = true := by decide +kernel

/-- Chapter 03: 60 edges of a two-word packet are a fragment, and the next status word is 0x03_0FF0_0040. -/
theorem test_stoke_fragment : after (exec (.stokeCsRise .b [0x20240A1029] 20)
    ((w0.setSide .b { wSide with sdo := [0x000FF00040] }).set (.side .b) F.STOKE_STATUS_ACTIVE 0 1))
    (fun t => t.get (.side .b) F.STOKE_STATUS_FRAGMENT 0 == 1 && t.stokeWord .b == 0x030FF00040 && (t.src .b 32).cmd == []) = true := by
  decide +kernel

/-- Chapter 03: the whole packet is CH_SET_PWM of channel 41 for world 5 with tag 0x40. -/
theorem test_stoke_packet : after (exec (.stokeCsRise .b [0x20240A1029, 0x0080C88000] 0)
    ((w0.setSide .b { wSide with sdo := [0x000FF00040, 0xFFFFFFFFFF] }).set (.side .b) F.STOKE_STATUS_ACTIVE 0 1))
    (fun t => (t.src .b 32).cmd.map (fun k => (k.code, k.tag, k.world, k.target, k.params)) == [(0x202, 0x40, 5, 41, [0x0080C88000])]) =
    true := by decide +kernel

/-- R327: no loop current is below HVIL_ILO, and the state becomes BROKEN. -/
theorem test_hvil : after (exec (.hvilWindow .a (List.replicate 1000 0) 0) w0) (fun t => t.get (.side .a) F.HVIL_STATUS 0 == 1) = true := by decide +kernel

/-- R142, R143: KL15 wakes a module in Cold hearth. -/
theorem test_wake_kl15 : after (exec .wakeKl15 { State.reset with ember := { EmberSt.init with phase := .cold } })
    (fun t => t.ember.phase == .waking && t.wakeCause == 1) = true := by decide +kernel

/-- The table gives no row any bits. -/
theorem test_no_words : decodeTableWord 40 0x20240A1029 = none := by decide

/-! ## States that meet the hypotheses of the statements -/

theorem otherAnnounce_source : otherAnnounce.source.toNat / 65536 ≠ Config.clockIdentity.toNat := by
  unfold otherAnnounce
  dsimp only
  split
  · rename_i h; rw [h]; decide
  · rename_i h; exact fun e => h e.symm

/-- Alone on a PTP port that is asCapable in its domain, it is the best. -/
theorem otherAnnounce_best (s : State) (d : Nat) (hd : 1 = s.fg F.BLW_CFG_DOMAIN_NUMBER d) (hp : s.ptpPort 3 = true)
    (ha : s.fb F.BLW_PSTATUS_AS_CAPABLE 3 = true) : bestOf ([otherAnnounce].filter (fun a => s.qualified d a)) = some otherAnnounce := by
  have h : s.qualified d otherAnnounce = true := by
    have hs := otherAnnounce_source
    simp [State.qualified, otherAnnounce] at hs ⊢
    exact ⟨⟨⟨hd, hp⟩, ha⟩, hs⟩
  simp [h, bestOf]

theorem witness_FrontCommandRuns : ∃ (c : Instr) (q : List Instr) (s : State), s.pending = c :: q :=
  ⟨.nop .a, [.derateAssert], { State.reset with pending := [.nop .a, .derateAssert] }, rfl⟩

/-- The state w0 with source 0 routed to core 1 of Side A, pending and enabled, and core 1 in S mode with its external interrupt enabled. -/
def wIrq : State :=
  ((((w0.set (.side .a) F.INTR_ROUTE_TARGET 0 1).set (.side .a) F.INTR_PENDING 0 1).set (.side .a) F.INTR_ENABLE 0 1).setHart .a 1
    { Hart.held with run := true, priv := 1, banks := [(0, [(Csr.mie, 2048)])] })

theorem witness_EmptyQueueIdles : wIrq.pending = [] ∧ wIrq.extIrq .a 1 = true ∧ wIrq.coreRuns .a 1 = true ∧ (wIrq.hart .a 1).landing = none ∧
    ((wIrq.hart .a 1).csr (wIrq.coreWorld .a 1) Csr.mie).testBit 11 = true ∧ (wIrq.hart .a 1).priv < 3 ∧ wIrq.extIrq .a 2 = false := by
  decide +kernel

/-- The one stop of EveryCommandCompletes is reached: 60 V on FEED_A. -/
theorem witness_EveryCommandCompletes : exec (.emberFeedSample 0x3C00000 0) State.reset = .fault .outsideRatings := rfl

theorem witness_StepKeepsSound : ∃ s t : State, s.Sound ∧ step s = .next t :=
  ⟨State.reset, State.reset.idle, by decide +kernel, rfl⟩

theorem witness_StepKeepsOrder : ∃ s t : State, step s = .next t := ⟨State.reset, State.reset.idle, rfl⟩

theorem witness_SysQueries :
    (∃ (s : State) (x : Side) (j : Job) (q : List Job), s.Head x 0x000 j q) ∧
    (∃ (s : State) (x : Side) (j : Job) (q : List Job), s.Head x 0x005 j q) ∧
    (∃ (s : State) (x : Side) (j : Job) (q : List Job), s.Head x 0x001 j q) ∧
    (∃ (s : State) (x : Side) (j : Job) (q : List Job), s.Head x 0x003 j q) :=
  ⟨⟨wHead (w0) (wJob 0 0 []), .a, wJob 0 0 [], [], by decide +kernel⟩,
    ⟨wHead (w0) (wJob 5 9 [7, 8]), .a, wJob 5 9 [7, 8], [], by decide +kernel⟩,
    ⟨wHead (w0.set (.side .a) F.CFG_MODE_ACTIVE 0 5) (wJob 1 0 []), .a, wJob 1 0 [], [], by decide +kernel⟩,
    ⟨wHead (w0) (wJob 3 0 []), .a, wJob 3 0 [], [], by decide +kernel⟩⟩

theorem witness_ConfigurationQueries :
    (∃ (s : State) (x : Side) (j : Job) (q : List Job), s.Head x 0x102 j q) ∧
    (∃ (s : State) (x : Side) (j : Job) (q : List Job), s.Head x 0x103 j q) ∧
    (∃ (s : State) (x : Side) (j : Job) (q : List Job) (h : Holder) (f : Fld) (i : Nat), s.Head x 0x103 j q ∧ f.cls = .none ∧ bits (j.pkt.p
        2) 13 12 ≠ 0 ∧ fieldAt x (j.pkt.p 1) (bits (j.pkt.p 2) 5 0) (bits (j.pkt.p 2) 11 6) = some (h, f, i)) ∧
    (∃ (s : State) (x : Side) (j : Job) (q : List Job), s.Head x 0x901 j q ∧ s.get (.side x) F.CFG_STATUS_CAL_BAD 0 = 0) ∧
    (∃ (s : State) (x : Side) (j : Job) (q : List Job), s.Head x 0x901 j q ∧ s.get (.side x) F.CFG_STATUS_CAL_BAD 0 ≠ 0) :=
  ⟨⟨wHead (w0.set (.side .a) F.CFG_MODE_CMD 0 3) (wJob 0x102 0 []), .a, wJob 0x102 0 [], [], by decide +kernel⟩,
    ⟨wHead (w0) (wJob 0x103 0 [0x40010008, 39 * 64]), .a, wJob 0x103 0 [0x40010008, 39 * 64], [], by decide +kernel⟩,
    ⟨wHead (w0) (wJob 0x103 0 [0x40130000, 4681]), .a, wJob 0x103 0 [0x40130000, 4681], [], .side .a, F.SIDE_STATUS_HEALTHY, 0,
        by decide +kernel⟩,
    ⟨wHead (w0) (wJob 0x901 5 []), .a, wJob 0x901 5 [], [], by decide +kernel⟩,
    ⟨wHead (w0.set (.side .a) F.CFG_STATUS_CAL_BAD 0 1) (wJob 0x901 5 []), .a, wJob 0x901 5 [], [], by decide +kernel⟩⟩

theorem witness_PowerStateRequests :
    (∃ (s : State) (x : Side) (j : Job) (q : List Job) (de : Nat), s.Head x 0x002 j q ∧ (s.popped x q).stateRefused x j.pkt.target = some
        de) ∧
    (∃ (s : State) (x : Side) (j : Job) (q : List Job), s.Head x 0x002 j q ∧ (s.popped x q).stateRefused x j.pkt.target = none ∧
        s.ember.phase = .up ∧ s.ember.pend = none ∧ j.pkt.target ≤ 2 ∧ j.pkt.target ≠ s.powerState) ∧
    (∃ (s : State) (n : Nat) (e : Nat), s.ember.phase = .up ∧ s.ember.pend = some (n, e) ∧ n ≤ 1) ∧
    (∃ (s : State) (e : Nat), s.ember.phase = .up ∧ s.ember.pend = some (2, e)) :=
  ⟨⟨wHead (w0.set .ember F.EMBER_GATE_BANKED 0 0) (wJob 2 1 []), .a, wJob 2 1 [], [], ((w0.set .ember F.EMBER_GATE_BANKED 0 0).stateRefused
        .a 1).getD 0, by decide +kernel⟩,
    ⟨wHead (w0.set .ember F.EMBER_GATE_BANKED 0 1) (wJob 2 1 [300]), .a, wJob 2 1 [300], [], by decide +kernel⟩,
    ⟨{ w0 with ember := { w0.ember with pend := some (1, 30000000000) } }, 1, 30000000000, by decide +kernel⟩,
    ⟨{ w0.set .ember F.EMBER_STATE_STATE 0 3 with ember := { w0.ember with pend := some (2, 30000000000) } }, 30000000000,
        by decide +kernel⟩⟩

theorem witness_OverlayAndFieldWrites :
    (∃ (s : State) (x : Side) (j : Job) (q : List Job), s.Head x 0x101 j q) ∧
    (∃ (s : State) (x : Side) (j : Job) (q : List Job), s.Head x 0x104 j q) :=
  ⟨⟨wHead (w0) (wJob 0x101 0 [4, 0]), .a, wJob 0x101 0 [4, 0], [], by decide +kernel⟩,
    ⟨wHead (w0) (wJob 0x104 0 [0x40010008, 39 * 64 + 4096, 5]), .a, wJob 0x104 0 [0x40010008, 39 * 64 + 4096, 5], [], by decide +kernel⟩⟩

theorem witness_ImageOperations :
    (∃ (s : State) (x : Side) (j : Job) (q : List Job) (w : Slot) (lo : Option Word40), slotOf j.pkt.target = some w ∧ s.LongHead x 0x105 j
        q ∧ j.pkt.target ≠ 0x200 ∧ s.ReadsClean x (j.pkt.p 1) (j.pkt.p 2) lo) ∧
    (∃ (s : State) (x : Side) (j : Job) (q : List Job) (w : Slot) (lo : Option Word40), slotOf j.pkt.target = some w ∧ s.LongHead x 0x105 j
        q ∧ j.pkt.target = 0x200 ∧ q = [] ∧ s.ReadsClean x (j.pkt.p 1) (j.pkt.p 2) lo) ∧
    (∃ (s : State) (x : Side) (j : Job) (q : List Job) (w : Slot) (lo : Option Word40), slotOf j.pkt.target = some w ∧ s.LongHead x 0x105 j
        q ∧ s.ReadsLost x (j.pkt.p 1) (j.pkt.p 2) lo) ∧
    (∃ (s : State) (x : Side) (j : Job) (q : List Job) (w : Slot), slotOf j.pkt.target = some w ∧ s.LongHead x 0x106 j q) :=
  ⟨⟨wLong (w0) (wJob 0x105 256 [0x10000000, 0x40]), .a, wJob 0x105 256 [0x10000000, 0x40], [], ((slotOf 0x100).getD ⟨0, 0, 0, 0⟩), none,
        by decide +kernel⟩,
    ⟨wLong (w0) (wJob 0x105 512 [0x10000000, 0x40]), .a, wJob 0x105 512 [0x10000000, 0x40], [], ((slotOf 0x200).getD ⟨0, 0, 0, 0⟩), none,
        by decide +kernel⟩,
    ⟨wLong (w0) (wJob 0x105 256 [0x10000000, 0x40]), .a, wJob 0x105 256 [0x10000000, 0x40], [], ((slotOf 0x100).getD ⟨0, 0, 0, 0⟩), some
        0x10000008, by decide +kernel⟩,
    ⟨wLong (w0) (wJob 0x106 768 []), .a, wJob 0x106 768 [], [], ((slotOf 0x300).getD ⟨0, 0, 0, 0⟩), by decide +kernel⟩⟩

theorem witness_CalibrationAndHarness :
    (∃ (s : State) (x : Side) (j : Job) (q : List Job), s.LongHead x 0x902 j q ∧ s.crossReach x = true ∧ j.pkt.target < 0x1D2 ∧ j.pkt.p 1 <
        2 ^ 40 ∧ j.pkt.p 2 < 2 ^ 16) ∧
    (∃ (s : State) (x : Side) (j : Job) (q : List Job) (g : Bool) (h : Bool), s.LongHead x 0x902 j q ∧ s.crossReach x = true ∧ (g && h) =
        false) ∧
    (∃ (s : State) (x : Side) (j : Job) (q : List Job) (c : Nat), s.LongHead x 0x305 j q ∧ j.pkt.target = c ∧ c < 64 ∧ s.present (dieUnit (c
        / 16)) = true ∧ s.holds x (c / 16) = true ∧ (s.chan c).otp0 = .unused ∧ (s.chan c).record = none ∧ s.chState c = 0) ∧
    (∃ (s : State) (x : Side) (j : Job) (q : List Job) (r : Reply), (s.side x).longReply = some r ∧ (s.side x).longQ = j :: q ∧ r.job = j ∧
        j.side = x ∧ s.Open j ∧ r.status ≠ stDelayed ∧ j.pkt.code ≠ 0x105) :=
  ⟨⟨wLong ((w0.set (.side .a) F.SIDE_STATUS_CROSS_UP 0 1).set (.side .b) F.SIDE_STATUS_CROSS_UP 0 1) (wJob 0x902 5 [77, 0x1234]), .a, wJob
        0x902 5 [77, 0x1234], [], by decide +kernel⟩,
    ⟨wLong ((w0.set (.side .a) F.SIDE_STATUS_CROSS_UP 0 1).set (.side .b) F.SIDE_STATUS_CROSS_UP 0 1) (wJob 0x902 5 [77, 0x1234]), .a, wJob
        0x902 5 [77, 0x1234], [], true, false, by decide +kernel⟩,
    ⟨wLong (w0) (wJob 0x305 3 [1, 2, 3, 4, 5, 6, 7, 8]), .a, wJob 0x305 3 [1, 2, 3, 4, 5, 6, 7, 8], [], 3, by decide +kernel⟩,
    ⟨(wLong w0 (wJob 0x902 5 [])).setSide .a { (wLong w0 (wJob 0x902 5 [])).side .a with longReply := some ⟨wJob 0x902 5 [], stOk, 0, []⟩ },
        .a, wJob 0x902 5 [], [], ⟨wJob 0x902 5 [], stOk, 0, []⟩, by decide +kernel⟩⟩

theorem witness_ChannelTurnOff :
    (∃ (s : State) (x : Side) (d : Fin 4) (j : Job) (q : List Job) (c : Nat) (p : Nat), s.LinkHead x d 0x201 j q ∧ j.pkt.target = c ∧
        j.pkt.p 1 = p ∧ s.Master x d ∧ (s.chan c).hold = none ∧ c / 16 = d.val ∧ p.testBit 0 = false ∧ s.ceiling c ((actOfSet p).ask false
        j.pkt.compared (if p.testBit 1 then bits p 16 8 else 0)) = none) ∧
    (∃ (s : State) (x : Side) (d : Fin 4) (j : Job) (q : List Job) (c : Nat) (p : Nat), s.LinkHead x d 0x202 j q ∧ j.pkt.target = c ∧
        j.pkt.p 1 = p ∧ s.Master x d ∧ (s.chan c).hold = none ∧ c / 16 = d.val ∧ bits p 15 0 = 0 ∧ s.ceiling c ((actOfPwm p).ask false
        j.pkt.compared 0) = none) :=
  ⟨⟨wLink ((w0.set (.grate 0) F.CH_STATE_STATE 0 2).set (.grate 0) F.CH_STATE_CMD_ON 0 1) (wJob 0x201 0 [2 + 20 * 256]), .a, 0, wJob 0x201
        0 [2 + 20 * 256], [], 0, ([2 + 20 * 256]).headD 0, by decide +kernel⟩,
    ⟨wLink ((w0.set (.grate 0) F.CH_STATE_STATE 4 3).set (.grate 0) F.CH_STATE_CMD_ON 4 1) (wJob 0x202 4 [2000 * 65536 + 2 ^ 32]), .a, 0,
        wJob 0x202 4 [2000 * 65536 + 2 ^ 32], [], 4, ([2000 * 65536 + 2 ^ 32]).headD 0, by decide +kernel⟩⟩

theorem witness_ChannelTurnOn :
    (∃ (s : State) (x : Side) (d : Fin 4) (j : Job) (q : List Job) (c : Nat) (p : Nat), s.LinkHead x d 0x201 j q ∧ j.pkt.target = c ∧
        j.pkt.p 1 = p ∧ s.Master x d ∧ (s.chan c).hold = none ∧ c / 16 = d.val ∧ p.testBit 0 = true ∧ (s.chState c = 0 ∨ s.chState c = 8) ∧
        s.ceiling c ((actOfSet p).ask true j.pkt.compared (if p.testBit 1 then bits p 16 8 else 0)) = none ∧ s.judge c = .allow) ∧
    (∃ (s : State) (x : Side) (d : Fin 4) (j : Job) (q : List Job) (c : Nat) (p : Nat), s.LinkHead x d 0x202 j q ∧ j.pkt.target = c ∧
        j.pkt.p 1 = p ∧ s.Master x d ∧ (s.chan c).hold = none ∧ c / 16 = d.val ∧ bits p 15 0 ≠ 0 ∧ (s.chState c = 0 ∨ s.chState c = 8) ∧
        s.ceiling c ((actOfPwm p).ask true j.pkt.compared 0) = none ∧ s.judge c = .allow) :=
  ⟨⟨wLink (w0.set (.grate 0) F.DMP_CH_CFG_PRIO 0 0 |>.setChan 0 { Chan.init with otp0 := .burned (defaultRecord 0) }) (wJob 0x201 0 [1]),
        .a, 0, wJob 0x201 0 [1], [], 0, ([1]).headD 0, by decide +kernel⟩,
    ⟨wLink (w0.set (.grate 0) F.DMP_CH_CFG_PRIO 4 0 |>.setChan 4 { Chan.init with otp0 := .burned (defaultRecord 4) }) (wJob 0x202 4 [1000 +
        200 * 65536]), .a, 0, wJob 0x202 4 [1000 + 200 * 65536], [], 4, ([1000 + 200 * 65536]).headD 0, by decide +kernel⟩⟩

theorem witness_ChannelRefusals :
    (∃ (s : State) (x : Side) (d : Fin 4) (j : Job) (q : List Job) (c : Nat) (p : Nat) (code : Nat), s.LinkHead x d 0x201 j q ∧ j.pkt.target
        = c ∧ j.pkt.p 1 = p ∧ s.Master x d ∧ (s.chan c).hold = none ∧ c / 16 = d.val ∧ s.ceiling c ((actOfSet p).ask (p.testBit 0 &&
        (s.chState c == 0 || s.chState c == 8 || s.inPwm c)) j.pkt.compared (if p.testBit 1 then bits p 16 8 else 0)) = some code) ∧
    (∃ (s : State) (x : Side) (d : Fin 4) (j : Job) (q : List Job) (c : Nat) (p : Nat), s.LinkHead x d 0x201 j q ∧ j.pkt.target = c ∧
        j.pkt.p 1 = p ∧ s.Master x d ∧ (s.chan c).hold = none ∧ c / 16 = d.val ∧ p.testBit 0 = true ∧ s.chState c = 7 ∧ s.ceiling c
        ((actOfSet p).ask false j.pkt.compared (if p.testBit 1 then bits p 16 8 else 0)) = none) ∧
    (∃ (s : State) (x : Side) (d : Fin 4) (j : Job) (q : List Job) (c : Nat) (p : Nat) (st : Nat) (det : Nat), s.LinkHead x d 0x201 j q ∧
        j.pkt.target = c ∧ j.pkt.p 1 = p ∧ s.Master x d ∧ (s.chan c).hold = none ∧ c / 16 = d.val ∧ p.testBit 0 = true ∧ s.chState c = 0 ∧
        s.ceiling c ((actOfSet p).ask true j.pkt.compared (if p.testBit 1 then bits p 16 8 else 0)) = none ∧ s.judge c = .refuse st det) ∧
    (∃ (s : State) (x : Side) (d : Fin 4) (j : Job) (q : List Job) (c : Nat) (p : Nat) (l : List Nat), s.LinkHead x d 0x201 j q ∧
        j.pkt.target = c ∧ j.pkt.p 1 = p ∧ s.Master x d ∧ (s.chan c).hold = none ∧ c / 16 = d.val ∧ p.testBit 0 = true ∧ s.chState c = 0 ∧
        s.ceiling c ((actOfSet p).ask true j.pkt.compared (if p.testBit 1 then bits p 16 8 else 0)) = none ∧ s.judge c = .hold l) ∧
    (∃ (s : State) (x : Side) (d : Fin 4) (j : Job) (q : List Job), s.LinkHead x d 0x201 j q ∧ s.holds x d = false ∧ (s.die d).oldHolder ≠
        some x) :=
  ⟨⟨wLink (w0) (wJob 0x201 0 [1]), .a, 0, wJob 0x201 0 [1], [], 0, ([1]).headD 0, 1, by decide +kernel⟩,
    ⟨wLink (w0.set (.grate 0) F.CH_STATE_STATE 0 7) (wJob 0x201 0 [1]), .a, 0, wJob 0x201 0 [1], [], 0, ([1]).headD 0, by decide +kernel⟩,
    ⟨wLink (w0.set (.grate 0) F.DMP_CH_CFG_PRIO 0 3 |>.set (.grate 0) F.DMP_CH_ADMIT 0 (20 * 2 ^ 20) |>.setChan 0
        { Chan.init with otp0 := .burned (defaultRecord 0) }) (wJob 0x201 0 [1]), .a, 0, wJob 0x201 0 [1], [], 0, ([1]).headD 0, 0x10, 0x11,
        by decide +kernel⟩,
    ⟨wLink (w0.set (.grate 0) F.DMP_CH_CFG_PRIO 0 2 |>.set (.grate 0) F.DMP_CH_ADMIT 0 (20 * 2 ^ 20) |>.setChan 0
        { Chan.init with otp0 := .burned (defaultRecord 0) }) (wJob 0x201 0 [1]), .a, 0, wJob 0x201 0 [1], [], 0, ([1]).headD 0, [1, 2, 4],
        by decide +kernel⟩,
    ⟨wLink (w0.set (.grate 0) F.GRATE_TOKEN_HOLDER 0 1) (wJob 0x201 0 [1]), .a, 0, wJob 0x201 0 [1], [], by decide +kernel⟩⟩

theorem witness_ChannelQueryAndGroups :
    (∃ (s : State) (x : Side) (d : Fin 4) (j : Job) (q : List Job) (c : Nat) (p : Nat), s.LinkHead x d 0x204 j q ∧ j.pkt.target = c ∧
        j.pkt.p 1 = p) ∧
    (∃ (s : State) (x : Side) (d : Fin 4) (j : Job) (q : List Job) (p : Nat), s.LinkHead x d 0x206 j q ∧ j.pkt.p 1 = p ∧ s.Master x d ∧
        j.pkt.p 2 = 0 ∧ s.groupDenied d (bits p 15 0) j.pkt.world = 0 ∧ (∀ n : Nat, n < 16 → (s.chan (16 * d.val + n)).hold = none ∧
        s.isSafety (16 * d.val + n) = false)) ∧
    (∃ (s : State) (x : Side) (d : Fin 4) (j : Job) (q : List Job) (p : Nat), s.LinkHead x d 0x206 j q ∧ j.pkt.p 1 = p ∧ s.Master x d ∧
        (s.groupDenied d (bits p 15 0) j.pkt.world ≠ bits p 15 0 ∨ bits p 15 0 = 0) ∧ (chansOf d).all (fun e => (s.chan e).hold == none) =
        true) ∧
    (∃ (s : State) (x : Side) (d : Fin 4) (j : Job) (q : List Job) (c : Nat) (p : Nat) (n : Nat), s.LinkHead x d 0x206 j q ∧ j.pkt.p 1 = p ∧
        s.Master x d ∧ n < 16 ∧ 16 * d.val + n = c ∧ bits p 15 0 = 2 ^ n ∧ (j.pkt.p 2).testBit n = true ∧ s.cq c F.CH_CFG2 = j.pkt.world ∧
        (s.chan c).hold = none ∧ (s.chState c = 0 ∨ s.chState c = 8) ∧ s.ceiling c ((actOfSet 1).ask true j.pkt.compared 0) = none ∧ s.judge
        c = .allow) ∧
    (∃ (s : State) (x : Side) (d : Fin 4) (j : Job) (q : List Job) (p : Nat), s.LinkHead x d 0x206 j q ∧ j.pkt.p 1 = p ∧ s.Master x d ∧
        s.groupDenied d (bits p 15 0) j.pkt.world = bits p 15 0 ∧ bits p 15 0 ≠ 0) :=
  ⟨⟨wLink ((w0.set (.grate 0) F.MEAS_V 0 77).set (.grate 0) F.CH_STATE_CMD_ON 0 1) (wJob 0x204 0 []), .a, 0, wJob 0x204 0 [], [], 0,
        ([]).headD 0, by decide +kernel⟩,
    ⟨wLink (((w0.set (.grate 0) F.CH_STATE_STATE 0 2).set (.grate 0) F.CH_STATE_STATE 1 2).set (.grate 0) F.CH_STATE_STATE 15 3) (wJob 0x206
        0 [0x8005, 0]), .a, 0, wJob 0x206 0 [0x8005, 0], [], ([0x8005, 0]).headD 0, by decide +kernel⟩,
    ⟨wLink (((w0.set (.grate 0) F.CH_STATE_STATE 0 2).set (.grate 0) F.CH_CFG2 15 3).set (.grate 0) F.DMP_CH_CFG_PRIO 2 3) (wJob 0x206 0
        [0x8005, 0x8004]), .a, 0, wJob 0x206 0 [0x8005, 0x8004], [], ([0x8005, 0x8004]).headD 0, by decide +kernel⟩,
    ⟨wLink (w0.set (.grate 0) F.DMP_CH_CFG_PRIO 3 0 |>.setChan 3 { Chan.init with otp0 := .burned (defaultRecord 3) }) (wJob 0x206 0 [8,
        8]), .a, 0, wJob 0x206 0 [8, 8], [], 3, ([8, 8]).headD 0, 3, by decide +kernel⟩,
    ⟨wLink (w0.set (.grate 0) F.CH_CFG2 0 3) (wJob 0x206 0 [0x0001, 0]), .a, 0, wJob 0x206 0 [0x0001, 0], [], ([0x0001, 0]).headD 0,
        by decide +kernel⟩⟩

theorem witness_ChannelSettings :
    (∃ (s : State) (x : Side) (j : Job) (q : List Job) (c : Nat) (p : Nat), s.Head x 0x203 j q ∧ s.Master x (c / 16) ∧ j.pkt.target = c ∧
        j.pkt.p 1 = p ∧ s.comparedOk j c = true ∧ sigInt p ≤ sigInt (s.hrn c 1)) ∧
    (∃ (s : State) (x : Side) (j : Job) (q : List Job) (c : Nat) (p : Nat), s.Head x 0x203 j q ∧ s.Master x (c / 16) ∧ j.pkt.target = c ∧
        j.pkt.p 1 = p ∧ s.comparedOk j c = true ∧ sigInt (s.hrn c 1) < sigInt p) ∧
    (∃ (s : State) (x : Side) (j : Job) (q : List Job) (c : Nat) (p : Nat), s.Head x 0x302 j q ∧ s.Master x (c / 16) ∧ j.pkt.target = c ∧
        j.pkt.p 1 = p ∧ s.comparedOk j c = true ∧ ¬ (bits p 1 0 = 3 ∧ s.isSafety c = true)) ∧
    (∃ (s : State) (x : Side) (j : Job) (q : List Job) (c : Nat) (p : Nat), s.Head x 0x205 j q ∧ s.Master x (c / 16) ∧ j.pkt.target = c ∧
        j.pkt.p 1 = p ∧ s.comparedOk j c = true ∧ p.testBit 0 = true ∧ s.chState c = 7 ∧ s.clearRefused c = none) :=
  ⟨⟨wHead (w0) (wJob 0x203 0 [5 * 2 ^ 20, 0x12341]), .a, wJob 0x203 0 [5 * 2 ^ 20, 0x12341], [], 0, (([5 * 2 ^ 20, 0x12341] : List
        Nat)).headD 0, by decide +kernel⟩,
    ⟨wHead (w0) (wJob 0x203 0 [30 * 2 ^ 20, 0x12341]), .a, wJob 0x203 0 [30 * 2 ^ 20, 0x12341], [], 0, (([30 * 2 ^ 20, 0x12341] : List
        Nat)).headD 0, by decide +kernel⟩,
    ⟨wHead (w0) (wJob 0x302 0 [0x0FFF0003]), .a, wJob 0x302 0 [0x0FFF0003], [], 0, (([0x0FFF0003] : List Nat)).headD 0, by decide +kernel⟩,
    ⟨wHead ((w0.set (.grate 0) F.CH_STATE_STATE 0 7).set (.grate 0) F.CH_DIAG 0 6) (wJob 0x205 0 [3]), .a, wJob 0x205 0 [3], [], 0, (([3] :
        List Nat)).headD 0, by decide +kernel⟩⟩

theorem witness_ChannelMeasurements :
    (∃ (s : State) (x : Side) (j : Job) (q : List Job) (c : Nat) (p : Nat), s.Head x 0x207 j q ∧ j.pkt.target = c ∧ j.pkt.p 1 = p ∧
        s.present (dieUnit (c / 16)) = true) ∧
    (∃ (s : State) (d : Fin 4) (n : Fin 16) (c : Nat) (m : Measure), 16 * d.val + n.val = c ∧ (s.chan c).measures.find? (fun m => decide
        (m.window ≤ m.taken.length)) = some m ∧ s.Open m.job) ∧
    (∃ (s : State) (x : Side) (j : Job) (q : List Job) (c : Nat), s.Head x 0x303 j q ∧ j.pkt.target = c ∧ s.present (dieUnit (c / 16)) =
        true) ∧
    (∃ (s : State) (x : Side) (j : Job) (q : List Job) (c : Nat), s.Head x 0x304 j q ∧ j.pkt.target = c ∧ s.present (dieUnit (c / 16)) =
        true) ∧
    (∃ (s : State) (x : Side) (j : Job) (q : List Job), s.Head x 0x301 j q) ∧
    (∃ (s : State) (x : Side) (j : Job) (q : List Job) (c : Nat), s.Head x 0x303 j q ∧ j.pkt.target = c ∧ s.present (dieUnit (c / 16)) =
        false) :=
  ⟨⟨wHead (w0) (wJob 0x207 0 [3]), .a, wJob 0x207 0 [3], [], 0, (([3] : List Nat)).headD 0, by decide +kernel⟩,
    ⟨(wOpen w0).setChan 17 { Chan.init with measures := [⟨wJob 0x207 17 [2], 2, [(8, 5, 6, 7), (7, 8, -9, 10)], 3, 4⟩] }, 1, 1, 17, ⟨wJob
        0x207 17 [2], 2, [(8, 5, 6, 7), (7, 8, -9, 10)], 3, 4⟩, by decide +kernel⟩,
    ⟨wHead (w0.set (.grate 0) F.WIRE_STATUS_COOLING 0 1) (wJob 0x303 0 []), .a, wJob 0x303 0 [], [], 0, by decide +kernel⟩,
    ⟨wHead (w0) (wJob 0x304 0 []), .a, wJob 0x304 0 [], [], 0, by decide +kernel⟩,
    ⟨wHead (w0.set (.grate 3) F.MEAS_FEED_I 0 5000) (wJob 0x301 0 []), .a, wJob 0x301 0 [], [], by decide +kernel⟩,
    ⟨wHead ({ w0 with absent := [.grate 0] }) (wJob 0x303 0 []), .a, wJob 0x303 0 [], [], 0, by decide +kernel⟩⟩

theorem witness_SparkOpcodes :
    (∃ (s : State) (x : Side) (j : Job) (q : List Job) (m : Matcher) (n : Nat), s.Head x 0x401 j q ∧ ruleOf x j.pkt.target = (m, n) ∧ (m =
        .flue → s.present .flue = true) ∧ (m = .flue → s.holds x 4 = true)) ∧
    (∃ (s : State) (x : Side) (j : Job) (q : List Job) (m : Matcher) (n : Nat), s.Head x 0x402 j q ∧ ruleOf x j.pkt.target = (m, n) ∧ (m =
        .flue → s.present .flue = true) ∧ (m = .flue → s.holds x 4 = true)) ∧
    (∃ (s : State) (x : Side) (j : Job) (q : List Job) (m : Matcher) (n : Nat), s.Head x 0x403 j q ∧ ruleOf x j.pkt.target = (m, n) ∧ (m =
        .flue → s.present .flue = true)) ∧
    (∃ (s : State) (x : Side) (j : Job) (q : List Job) (m : Matcher) (n : Nat), s.Head x 0x404 j q ∧ ruleOf x j.pkt.target = (m, n) ∧ (m =
        .flue → s.present .flue = true)) ∧
    (∃ (s : State) (x : Side) (j : Job) (q : List Job) (n : Nat), s.Head x 0x401 j q ∧ ruleOf x j.pkt.target = (.flue, n) ∧ s.present .flue
        = true ∧ s.holds x 4 = false) :=
  ⟨⟨wHead (w0) (wJob 0x401 5 [100, 101, 102, 103, 104, 105, 106, 107, 108, 109, 110, 111]), .a, wJob 0x401 5 [100, 101, 102, 103, 104, 105,
        106, 107, 108, 109, 110, 111], [], .side .a, 5, by decide +kernel⟩,
    ⟨wHead (w0) (wJob 0x402 261 [1]), .a, wJob 0x402 261 [1], [], .flue, 5, by decide +kernel⟩,
    ⟨wHead (w0) (wJob 0x403 255 []), .a, wJob 0x403 255 [], [], .side .a, 255, by decide +kernel⟩,
    ⟨wHead (w0) (wJob 0x404 256 []), .a, wJob 0x404 256 [], [], .flue, 0, by decide +kernel⟩,
    ⟨wHead (w0.set (.grate 4) F.GRATE_TOKEN_HOLDER 0 1) (wJob 0x401 261 [100, 101, 102, 103, 104, 105, 106, 107, 108, 109, 110, 111]), .a,
        wJob 0x401 261 [100, 101, 102, 103, 104, 105, 106, 107, 108, 109, 110, 111], [], 5, by decide +kernel⟩⟩

theorem witness_SparkEvents :
    (∃ (s : State) (m : Matcher) (e : Stimulus) (k : List Stimulus), (s.matcher m).events = e :: k ∧ (∀ n : Nat, n < ruleCount m →
        s.ruleMatches m n e = false)) ∧
    (∃ (s : State) (m : Matcher) (n : Nat) (e : Stimulus) (k : List Stimulus) (c : Nat), (s.matcher m).events = e :: k ∧ s.matcherReady m =
        true ∧ n < ruleCount m ∧ s.ruleMatches m n e = true ∧ (∀ i : Nat, i < ruleCount m → i ≠ n → s.ruleMatches m i e = false) ∧ e.failed
        = false ∧ ((s.ruleWord m n 1).testBit 7 = true → e.verified = true) ∧ (s.mq m F.SPK_WORLD_RUN 0).testBit (s.mq m
        F.SPK_RULE_CTRL_OWNER n) = true ∧ (Tab.at 0 (s.matcher m).lastFire n = 0 ∨ Tab.at 0 (s.matcher m).lastFire n - 1 + bits (s.ruleWord
        m n 12) 15 0 * 10000 ≤ e.at_) ∧ bits (s.ruleWord m n 1) 15 12 ≠ 0 ∧ bits (s.ruleWord m n 1) 21 16 = c ∧ Tab.at [] (s.matcher
        m).waiting (c / 16) = [] ∧ s.lineLoad m (c / 16) < 8) ∧
    (∃ (s : State) (m : Matcher) (n : Nat) (e : Stimulus) (k : List Stimulus), (s.matcher m).events = e :: k ∧ s.matcherReady m = true ∧ n <
        ruleCount m ∧ s.ruleMatches m n e = true ∧ (∀ i : Nat, i < ruleCount m → i ≠ n → s.ruleMatches m i e = false) ∧ e.failed = true ∧
        (s.ruleWord m n 1).testBit 7 = true) ∧
    (∃ (s : State) (m : Matcher) (d : Fin 4) (a : SparkAction) (l : List SparkAction) (c : Nat) (p : Nat), Tab.at [] (s.matcher m).lines d =
        a :: l ∧ s.present (dieUnit d) = true ∧ a.orphan = false ∧ a.words = [1, c, p] ∧ (s.cq c F.CH_SPARK).testBit a.world = false) ∧
    (∃ (s : State) (m : Matcher) (d : Fin 4) (a : SparkAction) (l : List SparkAction) (c : Nat) (p : Nat), Tab.at [] (s.matcher m).lines d =
        a :: l ∧ s.present (dieUnit d) = true ∧ a.orphan = false ∧ a.words = [1, c, p] ∧ (s.cq c F.CH_SPARK).testBit a.world = true ∧
        p.testBit 0 = false ∧ c / 16 = d.val ∧ (s.chan c).hold = none ∧ s.ceiling c ((actOfSet p).ask false a.compared (if p.testBit 1 then
        bits p 16 8 else 0)) = none) ∧
    (∃ (s : State) (m : Matcher) (d : Fin 4) (a : SparkAction) (l : List SparkAction) (c : Nat), Tab.at [] (s.matcher m).lines d = a :: l ∧
        s.present (dieUnit d) = false ∧ a.orphan = false ∧ a.words.getD 1 0 = c) ∧
    (∃ (s : State) (m : Matcher) (d : Fin 4) (r : SparkReply) (l : List SparkReply) (a : SparkAction) (w : List SparkAction), Tab.at []
        (s.matcher m).answers d = r :: l ∧ r.status = stOk ∧ Tab.at [] (s.matcher m).waiting d = a :: w) ∧
    (∃ (s : State) (m : Matcher) (d : Fin 4) (r : SparkReply) (l : List SparkReply), Tab.at [] (s.matcher m).answers d = r :: l ∧ (r.status
        = stLimit ∨ r.status = stBudget) ∧ Tab.at [] (s.matcher m).waiting d = []) :=
  ⟨⟨w0.setMatcher (.side .a) { MatcherSt.init with events := [⟨2, 3, 0, 0, 0, [], false, false, 5, 6, 7⟩] }, .side .a, ⟨2, 3, 0, 0, 0, [],
        false, false, 5, 6, 7⟩, [], by decide +kernel⟩,
    ⟨(((((w0.setMatcher (.side .a) { MatcherSt.init with events := [⟨2, 3, 0, 0, 0, [], false, false, 5, 6, 7⟩] }).set (.side .a)
        F.SPK_STATUS_READY 0 1).set (.side .a) F.SPK_WORLD_RUN 0 1).set (.side .a) F.SPK_RULE_W (12 * 255 + 1) (2 + 3 * 4 + 2 ^ 12 + 17 * 2
        ^ 16)).set (.side .a) F.SPK_RULE_CTRL_ENABLED 255 1), .side .a, 255, ⟨2, 3, 0, 0, 0, [], false, false, 5, 6, 7⟩, [], 17,
        by decide +kernel⟩,
    ⟨(((w0.setMatcher .flue { MatcherSt.init with events := [⟨1, 3, 0, 0, 0, [], false, true, 5, 6, 7⟩] }).set .flue F.SPK_STATUS_READY 0
        1).set .flue F.SPK_RULE_W (12 * 7 + 1) (1 + 3 * 4 + 2 ^ 7)).set .flue F.SPK_RULE_CTRL_ENABLED 7 1, .flue, 7, ⟨1, 3, 0, 0, 0, [],
        false, true, 5, 6, 7⟩, [], by decide +kernel⟩,
    ⟨w0.setMatcher (.side .a) { MatcherSt.init with lines := [(1, [⟨3, 1, false, [1, 16, 1], 7, 8, false⟩])] }, .side .a, 1, ⟨3, 1, false,
        [1, 16, 1], 7, 8, false⟩, [], 16, 1, by decide +kernel⟩,
    ⟨((w0.setMatcher .flue { MatcherSt.init with lines := [(1, [⟨3, 1, false, [1, 16, 0], 7, 8, false⟩])] }).set (.grate 1) F.CH_SPARK 0
        2).set (.grate 1) F.CH_STATE_STATE 0 2, .flue, 1, ⟨3, 1, false, [1, 16, 0], 7, 8, false⟩, [], 16, 0, by decide +kernel⟩,
    ⟨{ w0.setMatcher (.side .a) { MatcherSt.init with lines := [(1, [⟨3, 1, false, [1, 16, 1], 7, 8, false⟩])] } with absent := [.grate 1] },
        .side .a, 1, ⟨3, 1, false, [1, 16, 1], 7, 8, false⟩, [], 16, by decide +kernel⟩,
    ⟨w0.setMatcher .flue
        { MatcherSt.init with answers := [(1, [⟨3, 1, 0, 0, 16, 7, 8⟩])], waiting := [(1, [⟨4, 1, false, [1, 16, 0], 7, 8, false⟩])] },
        .flue, 1, ⟨3, 1, 0, 0, 16, 7, 8⟩, [], ⟨4, 1, false, [1, 16, 0], 7, 8, false⟩, [], by decide +kernel⟩,
    ⟨w0.setMatcher .flue { MatcherSt.init with answers := [(1, [⟨3, 1, 0x11, 8, 16, 7, 8⟩])] }, .flue, 1, ⟨3, 1, 0x11, 8, 16, 7, 8⟩, [],
        by decide +kernel⟩⟩

theorem witness_ChannelTransitions :
    (∃ (s : State) (d : Fin 4) (n : Fin 16) (c : Nat), s.dieRuns d = true ∧ chanNo d n = c ∧ s.chState c = 1) ∧
    (∃ (s : State) (d : Fin 4) (n : Fin 16) (c : Nat), s.dieRuns d = true ∧ chanNo d n = c ∧ (s.chState c = 1 ∨ s.chState c = 2 ∨ (s.chState
        c = 3 ∧ (s.chan c).pwmOn = true))) ∧
    (∃ (s : State) (d : Fin 4) (n : Fin 16) (c : Nat), s.dieRuns d = true ∧ chanNo d n = c ∧ s.chState c = 4) ∧
    (∃ (s : State) (d : Fin 4) (n : Fin 16) (c : Nat), s.dieRuns d = true ∧ chanNo d n = c ∧ driven (s.chState c) = true) ∧
    (∃ (s : State) (d : Fin 4) (n : Fin 16) (c : Nat), s.dieRuns d = true ∧ chanNo d n = c ∧ s.chState c = 5 ∧ s.cq c F.CH_STATE_CMD_ON = 0) ∧
    (∃ (s : State) (d : Fin 4) (n : Fin 16) (c : Nat), s.dieRuns d = true ∧ chanNo d n = c) ∧
    (∃ (s : State) (d : Fin 4) (n : Fin 16) (c : Nat), s.dieRuns d = true ∧ chanNo d n = c ∧ (s.chan c).selfFails = 0) ∧
    (∃ (s : State) (d : Fin 4) (n : Fin 16) (c : Nat), s.dieRuns d = true ∧ chanNo d n = c ∧ 1 ≤ (s.chan c).selfFails ∧ s.chState c = 9) ∧
    (∃ (s : State) (d : Fin 4) (n : Fin 16) (c : Nat), s.dieRuns d = true ∧ chanNo d n = c ∧ 1 ≤ (s.chan c).selfFails ∧ s.chState c ≠ 9 ∧
        s.chState c ≠ 7) :=
  ⟨⟨(w0.set (.grate 1) F.CH_STATE_STATE 2 1), 1, 2, 18, by decide +kernel⟩,
    ⟨(w0.set (.grate 1) F.CH_STATE_STATE 2 2), 1, 2, 18, by decide +kernel⟩,
    ⟨(w0.set (.grate 1) F.CH_STATE_STATE 2 4), 1, 2, 18, by decide +kernel⟩,
    ⟨(w0.set (.grate 1) F.CH_STATE_STATE 2 4), 1, 2, 18, by decide +kernel⟩,
    ⟨(w0.set (.grate 1) F.CH_STATE_STATE 2 5), 1, 2, 18, by decide +kernel⟩,
    ⟨w0, 3, 15, 63, by decide +kernel⟩,
    ⟨w0, 3, 15, 63, by decide +kernel⟩,
    ⟨(w0.set (.grate 1) F.CH_STATE_STATE 2 9).setChan 18 { Chan.init with selfFails := 1 }, 1, 2, 18, by decide +kernel⟩,
    ⟨(w0.set (.grate 1) F.CH_STATE_STATE 2 2).setChan 18 { Chan.init with selfFails := 1 }, 1, 2, 18, by decide +kernel⟩⟩

theorem witness_FaultHandling :
    (∃ (s : State) (d : Fin 4) (n : Fin 16) (c : Nat), s.dieRuns d = true ∧ chanNo d n = c ∧ s.chState c = 1) ∧
    (∃ (s : State) (d : Fin 4) (n : Fin 16) (c : Nat), s.dieRuns d = true ∧ chanNo d n = c ∧ driven (s.chState c) = true) ∧
    (∃ (s : State) (d : Fin 4) (n : Fin 16) (c : Nat), s.dieRuns d = true ∧ chanNo d n = c ∧ s.chState c = 5 ∧ s.cq c F.CH_STATE_CMD_ON = 1) ∧
    (∃ (s : State) (d : Fin 4) (n : Fin 16) (c : Nat), s.dieRuns d = true ∧ chanNo d n = c ∧ s.chState c = 6 ∧ (s.chan c).hold = none ∧ s.cq
        c F.CH_STATE_CMD_ON = 1 ∧ s.attemptLimit c ≤ (s.chan c).retries) ∧
    (∃ (s : State) (d : Fin 4) (n : Fin 16) (c : Nat), s.dieRuns d = true ∧ chanNo d n = c ∧ s.chState c = 6 ∧ (s.chan c).hold = none ∧ s.cq
        c F.CH_STATE_CMD_ON = 1 ∧ (s.chan c).retries < s.attemptLimit c ∧ s.prio c = 0 ∧ s.cq c F.CH_STATE_MODE = 0 ∧ (s.due (s.chan
        c).retryAt).ceiling c ⟨true, false, s.cq c F.CH_PWM_DUTY_DUTY, s.cq c F.CH_PWM_FREQ_FREQ, (s.chan c).slew, true, false⟩ = none) ∧
    (∃ (s : State) (d : Fin 4) (n : Fin 16) (c : Nat) (e : Nat), s.dieRuns d = true ∧ chanNo d n = c ∧ (s.chan c).okSince = some e) :=
  ⟨⟨(((w0.set (.grate 1) F.CH_STATE_STATE 2 1)).set (.grate 1) F.CH_STATE_CMD_ON 2 1), 1, 2, 18, by decide +kernel⟩,
    ⟨((((w0.set (.grate 1) F.CH_STATE_STATE 2 2)).set (.grate 1) F.CH_STATE_CMD_ON 2 1).set (.grate 1) F.CH_RETRY_POLICY 2 2), 1, 2, 18,
        by decide +kernel⟩,
    ⟨((((w0.set (.grate 1) F.CH_STATE_STATE 2 5)).set (.grate 1) F.CH_STATE_CMD_ON 2 1).set (.grate 1) F.CH_RETRY_POLICY 2 2).setChan 18
        { Chan.init with faultReg := 5 }, 1, 2, 18, by decide +kernel⟩,
    ⟨(((w0.set (.grate 1) F.CH_STATE_STATE 2 6)).set (.grate 1) F.CH_STATE_CMD_ON 2 1), 1, 2, 18, by decide +kernel⟩,
    ⟨(((((w0.set (.grate 1) F.CH_STATE_STATE 2 6)).set (.grate 1) F.CH_STATE_CMD_ON 2 1).set (.grate 1) F.CH_RETRY_POLICY 2 2).set (.grate
        1) F.DMP_CH_CFG_PRIO 2 0).setChan 18 { Chan.init with faultReg := 5, retryAt := 30000000000, otp0 := .burned (defaultRecord 2) }, 1,
        2, 18, by decide +kernel⟩,
    ⟨w0.setChan 18 { Chan.init with okSince := some 5, retries := 3 }, 1, 2, 18, 5, by decide +kernel⟩⟩

theorem witness_FeedAndPwm :
    (∃ (s : State) (d : Fin 4), s.dieRuns d = true) ∧
    (∃ (s : State) (d : Fin 4), s.dieRuns d = true ∧ s.is (.grate d) F.MEAS_STATUS_FEED_ABSENT 0 = true) ∧
    (∃ (s : State) (d : Fin 4), s.dieRuns d = true) ∧
    (∃ (s : State) (d : Fin 4) (c : Nat), s.dieRuns d = true ∧ (chansOf d).find? (fun c => (s.chan c).gatePending && s.chState c == 0 &&
        s.cq c F.CH_STATE_CMD_ON == 1 && (s.chan c).hold == none) = some c ∧ s.prio c = 0 ∧ s.cq c F.CH_STATE_MODE = 0 ∧ (s.due (s.die
        d).nextAuto).ceiling c ⟨true, false, s.cq c F.CH_PWM_DUTY_DUTY, s.cq c F.CH_PWM_FREQ_FREQ, 0, true, false⟩ = none) ∧
    (∃ (s : State) (d : Fin 4) (n : Fin 16) (c : Nat), s.dieRuns d = true ∧ chanNo d n = c ∧ s.inPwm c = true ∧ s.chState c = 3 ∧ (s.chan
        c).pwmWait = false ∧ s.cq c F.CH_PWM_DUTY_DUTY = 65535 ∧ s.cq c F.CH_PWM_FREQ_COMP = 0 ∧ s.shortPhase c (pwmPeriod (s.cq c
        F.CH_PWM_FREQ_FREQ)) = false) ∧
    (∃ (s : State) (d : Fin 4) (n : Fin 16) (c : Nat) (e : Nat), s.dieRuns d = true ∧ chanNo d n = c ∧ (s.chan c).pwmOff = some e ∧ s.inPwm
        c = true) :=
  ⟨⟨(w0.set (.grate 1) F.CH_STATE_STATE 2 7).set (.grate 1) F.CH_STATE_STATE 3 2, 1, by decide +kernel⟩,
    ⟨(w0.set (.grate 1) F.CH_STATE_STATE 2 9).set (.grate 1) F.MEAS_STATUS_FEED_ABSENT 0 1, 1, by decide +kernel⟩,
    ⟨w0, 3, by decide +kernel⟩,
    ⟨(((w0.set (.grate 1) F.CH_STATE_CMD_ON 2 1).set (.grate 1) F.DMP_CH_CFG_PRIO 2 0).setChan 18
        { Chan.init with gatePending := true, otp0 := .burned (defaultRecord 2) }), 1, 18, by decide +kernel⟩,
    ⟨((((w0.set (.grate 1) F.CH_STATE_STATE 2 3)).set (.grate 1) F.CH_STATE_MODE 2 1).set (.grate 1) F.CH_PWM_FREQ_FREQ 2 200).set (.grate
        1) F.CH_PWM_DUTY_DUTY 2 65535 |>.set (.grate 1) F.CH_PWM_FREQ_COMP 2 0, 1, 2, 18, by decide +kernel⟩,
    ⟨((((w0.set (.grate 1) F.CH_STATE_STATE 2 4)).set (.grate 1) F.CH_STATE_MODE 2 1).setChan 18
        { Chan.init with pwmOff := some 7, pwmOn := true }), 1, 2, 18, 7, by decide +kernel⟩⟩

theorem witness_BudgetAllowances :
    (∃ (s : State), s.busDies = [0, 1, 2, 3] ∧ (∀ d : Nat, d < 4 → (s.die d).powered = true ∧ s.present (dieUnit d) = true)) :=
  ⟨(w0.set (.grate 0) F.CH_STATE_STATE 0 2).setChan 0 { Chan.init with iMean := 30 * 2 ^ 20 }, by decide +kernel⟩

theorem witness_DamperEvents :
    (∃ (coolant : List Word40), coolant ≠ [] ∧ (coolant.all (fun w => decide (sigInt w.toNat < units (-50) ∨ units 150 < sigInt w.toNat)) =
        true)) ∧
    (∃ (s : State) (b : Fin 4) (e : Nat), s.busDies ≠ [] ∧ s.overDue (b.val + 1) = some e ∧ s.reserveDue (b.val + 1) = none ∧ s.shedable
        (b.val + 1) none = [] ∧ s.budget (b.val + 1) < ((s.sumP0 (b.val + 1) + s.sumPn (b.val + 1) : Nat) : Int)) ∧
    (∃ (s : State) (b : Fin 4) (e : Nat), s.busDies ≠ [] ∧ s.overDue (b.val + 1) = none ∧ s.reserveDue (b.val + 1) = some e) ∧
    (∃ (s : State) (b : Fin 4) (e : Nat) (f : Nat), s.busDies ≠ [] ∧ s.overDue (b.val + 1) = some e ∧ s.reserveDue (b.val + 1) = some f ∧ e
        < f ∧ s.now < f ∧ s.budget (b.val + 1) ≥ ((s.sumP0 (b.val + 1) + s.sumPn (b.val + 1) : Nat) : Int)) ∧
    (∃ (s : State), s.busDies ≠ [] ∧ units 70 < sigInt (s.get (.grate s.busDie) F.DMP_COOLANT 0)) ∧
    (∃ (s : State) (e : Nat), s.busDies ≠ [] ∧ sigInt (s.get (.grate s.busDie) F.DMP_COOLANT 0) ≤ units 70 ∧ s.damper.derateSince = some e) ∧
    (∃ (s : State) (e : Nat), s.damper.derateOkSince = some e) ∧
    (∃ (s : State) (d : Fin 4), s.present (dieUnit d) = true) ∧
    (∃ (s : State) (d : Fin 4), s.present (dieUnit d) = true ∧ (s.die (d.val / 2 * 2 + (1 - d.val % 2))).ride = false) ∧
    (∃ (s : State) (d : Fin 4) (n : Fin 16) (c : Nat) (h : Hold) (j : Job), 16 * d.val + n.val = c ∧ (s.chan c).hold = some h ∧ h.job = some
        j ∧ j.pkt.code ≠ 0x206 ∧ (s.due h.until_).ceiling c (h.on.ask (s.isTurnOn c h.on) false j.pkt.compared) = none ∧ s.chState c ≠ 7 ∧
        s.prio c = 2 ∧ s.riding d = false ∧ (s.due h.until_).misfitAll c ≠ [] ∧ s.heldChans = [c]) :=
  ⟨⟨[0xC800000, 0x8000000000], by decide +kernel⟩,
    ⟨{ ((w0.set (.grate 0) F.CH_STATE_STATE 0 2)).set (.grate 0) F.DMP_CH_ADMIT 0 (500 * 2 ^ 20) with damper := { DamperSt.init with overSince := [(1, 8)] } },
        0, 7 + w0.overTime, by decide +kernel⟩,
    ⟨{ w0 with damper := { DamperSt.init with p0Since := [(4, 8)] } }, 3, 7 + w0.overTime, by decide +kernel⟩,
    ⟨{ w0 with damper := { DamperSt.init with overSince := [(4, 8)], p0Since := [(4, 30000000000)] } }, 3, 7 + w0.overTime, 29999999999 +
        w0.overTime, by decide +kernel⟩,
    ⟨w0.set (.grate 0) F.DMP_COOLANT 0 (71 * 2 ^ 20), by decide +kernel⟩,
    ⟨{ w0 with damper := { DamperSt.init with derateSince := some 9 } }, 9, by decide +kernel⟩,
    ⟨{ w0 with damper := { DamperSt.init with derate := true, derateOkSince := some 3 } }, 3, by decide +kernel⟩,
    ⟨w0, 3, by decide +kernel⟩,
    ⟨w0.setDie 3 { w0.die 3 with ride := true }, 3, by decide +kernel⟩,
    ⟨((w0.set (.grate 1) F.DMP_CH_CFG_PRIO 2 2).set (.grate 1) F.DMP_CH_ADMIT 2 (500 * 2 ^ 20)).setChan 18
        { Chan.init with otp0 := .burned (defaultRecord 2), hold := some ⟨some (wJob 0x201 18 [1]), .command, ⟨false, 0, 0, 0, 0, 0⟩, 5, 30000000000, 1⟩ },
        1, 2, 18, ⟨some (wJob 0x201 18 [1]), .command, ⟨false, 0, 0, 0, 0, 0⟩, 5, 30000000000, 1⟩, wJob 0x201 18 [1], by decide +kernel⟩⟩

theorem witness_WireModel :
    (∃ (s : State) (d : Fin 4) (c : Nat), s.dieRuns d = true ∧ c / 16 = d.val ∧ (s.chan c).samples.length = 10) ∧
    (∃ (s : State) (d : Fin 4) (c : Nat), s.dieRuns d = true ∧ c / 16 = d.val ∧ (s.chan c).samples.length = 10 ∧ s.cq c
        F.WIRE_STATUS_COOLING = 0 ∧ sigInt (s.hrn c 4) ≤ sigInt (wireStep ((s.chan c).samples.map (fun i => s.widen c i.natAbs)) (s.hrn c 2)
        (s.hrn c 3) (s.cq c F.WIRE_THETA)).2) :=
  ⟨⟨w0.setChan 63 { Chan.init with samples := List.replicate 10 (-5 * 2 ^ 20) }, 3, 63, by decide +kernel⟩,
    ⟨((w0.set (.grate 0) F.CH_STATE_STATE 0 2).set (.grate 0) F.WIRE_THETA 0 (60 * 2 ^ 20)).setChan 0
        { Chan.init with samples := List.replicate 10 (100 * 2 ^ 20) }, 0, 0, by decide +kernel⟩⟩

theorem witness_SamplesAndInputs :
    (∃ (s : State) (d : Fin 4) (smp : List Sample) (f : Word40) (k : Nat) (v : Sample), outsideFeed (sigInt f.toNat) = false ∧ s.dieRuns d =
        true ∧ smp.length = 16 ∧ smp[k]? = some v) ∧
    (∃ (s : State) (d : Fin 4) (smp : List Sample) (f : Word40) (k : Nat) (v : Sample), outsideFeed (sigInt f.toNat) = false ∧ s.dieRuns d =
        true ∧ smp.length = 16 ∧ smp[k]? = some v ∧ s.is (.grate d) F.DMP_STATUS_UNCAL 0 = true) ∧
    (∃ (s : State) (x : Side) (p : Fin 5) (e : PlaneWord) (ws : List PlaneWord), s.up x = true ∧ s.planeUpTo x p = some (e, ws) ∧ (ws.all
        (fun w => s.streamsOf x w.prod == []) = true) ∧ (s.side x).planeWait = []) ∧
    (∃ (s : State) (x : Side), s.up x = true) ∧
    (∃ (s : State) (x : Side) (l : List Word40) (k : Nat) (v : Word40), (l.any (fun v => decide (sigInt v.toNat ≤ voltsQ (-32) ∨ voltsQ 58 ≤
        sigInt v.toNat)) = false) ∧ s.fabric x = true ∧ l.length = 24 ∧ l[k]? = some v) ∧
    (∃ (s : State) (x : Side) (n : Fin 16) (b : Bool), s.fabric x = true ∧ (s.get (.side x) F.IN_DIN_STATE 0).testBit n ≠ b) ∧
    (∃ (s : State) (x : Side), s.fabric x = true) ∧
    (∃ (s : State) (x : Side) (a : Word40), s.fabric x = true ∧ inDdr a.toNat 1 = true) :=
  ⟨⟨w0.setDie 1 { w0.die 1 with cal := [(31, 2 ^ 19 + 1), (0x05F, 8)] }, 1, List.replicate 15 ⟨1, 2, 3⟩ ++ [⟨0x7000000000, 0x9000000000,
        5⟩], 13 * 2 ^ 20, 15, ⟨0x7000000000, 0x9000000000, 5⟩, by decide +kernel⟩,
    ⟨w0.set (.grate 1) F.DMP_STATUS_UNCAL 0 1, 1, List.replicate 15 ⟨1, 2, 3⟩ ++ [⟨0x7000000000, 0x9000000000, 5⟩], 13 * 2 ^ 20, 15,
        ⟨0x7000000000, 0x9000000000, 5⟩, by decide +kernel⟩,
    ⟨w0.setSide .b { w0.side .b with gapRun := 9, plane := [⟨3, 5, 7, false⟩, ⟨3, 6, 8, true⟩, ⟨4, 6, 2, true⟩, ⟨0, 6, 9, true⟩] }, .b, 3,
        ⟨3, 6, 8, true⟩, [⟨3, 5, 7, false⟩, ⟨0, 6, 9, true⟩, ⟨3, 6, 8, true⟩], by decide +kernel⟩,
    ⟨w0.setChan 49 { Chan.init with measures := [⟨wJob 0x207 49 [2], 2, [(77, 5, 6, 7), (76, 8, -9, 10)], 3, 4⟩] }, .a, by decide +kernel⟩,
    ⟨w0, .a, List.replicate 23 0x100000 ++ [0x300000], 23, 0x300000, by decide +kernel⟩,
    ⟨w0.set (.side .b) F.IN_DIN_CFG_IRQ_EDGE 15 1, .b, 15, true, by decide +kernel⟩,
    ⟨w0, .a, by decide +kernel⟩,
    ⟨w0, .a, 0x100000040, by decide +kernel⟩⟩

theorem witness_WakeSources :
    (∃ (s : State), s.ember.phase = .off) ∧
    (∃ (s : State), s.wakeable = true) ∧
    (∃ (s : State) (n : Fin 4), s.locOn n = true ∧ s.wakeable = true) ∧
    (∃ (s : State) (m : Nat), s.get .ember F.EMBER_BANK_TIME_ALARM 0 = m ∧ 0 < m ∧ s.ember.phase = .banked ∧ s.ember.ignore = false) ∧
    (∃ (s : State) (k : Fin 12), s.netArmed = true ∧ (s.canWakeOf k).pattern = true) ∧
    (∃ (s : State) (k : Fin 12) (fr : CanFrame), s.netArmed = true ∧ (s.canWakeOf k).frame = true ∧ (s.canWakeOf k).decodes = true ∧ bits
        fr.h0.toNat 31 30 = 1 ∧ (s.canWakeOf k).fits fr.h0.toNat fr.h1.toNat (dataNat fr) = true) ∧
    (∃ (s : State) (k : Fin 12), s.netArmed = true ∧ (s.canWakeOf k).frame = true ∧ (s.canWakeOf k).decodes = true) ∧
    (∃ (s : State) (p : Fin 17), s.netArmed = true ∧ 2 ≤ p.val ∧ p.val ≤ 13 ∧ (s.get .ember F.EMBER_TC10_EN 0).testBit (p.val - 2) = true) ∧
    (∃ (s : State), s.ember.ignore = true ∧ (s.ember.phase = .banked ∨ s.ember.phase = .cold)) ∧
    (∃ (s : State) (loc : BitVec 4), s.ember.ignore = true ∧ (s.ember.phase = .banked ∨ s.ember.phase = .cold) ∧ (List.range 4).find?
        (s.locHeld loc.toNat) = none) :=
  ⟨⟨State.reset, by decide +kernel⟩,
    ⟨({ w0 with ember := { EmberSt.init with phase := .banked, railsOff := 19999999999 } }), by decide +kernel⟩,
    ⟨({ w0 with ember := { EmberSt.init with phase := .banked, railsOff := 19999999999 } }.set .ember F.EMBER_WAKE_CFG_LOC_EN 0 8), 3,
        by decide +kernel⟩,
    ⟨({ w0 with ember := { EmberSt.init with phase := .banked, railsOff := 19999999999 } }.set .ember F.EMBER_BANK_TIME_ALARM 0 1), 1,
        by decide +kernel⟩,
    ⟨({ w0 with ember := { EmberSt.init with phase := .banked, railsOff := 19999999999, canWake := [(11, { CanWake.none with pattern := true })] } }),
        11, by decide +kernel⟩,
    ⟨({ w0 with ember := { EmberSt.init with phase := .banked, railsOff := 19999999999, canWake := [(5, { CanWake.none with frame := true, decodes := true, ident := 0x123, mask := 0x7FF })] } }),
        5, ⟨0x40000123, 0, 0, 0, []⟩, by decide +kernel⟩,
    ⟨({ w0 with ember := { EmberSt.init with phase := .banked, railsOff := 19999999999, canWake := [(0, { CanWake.none with frame := true, decodes := true })] } }),
        0, by decide +kernel⟩,
    ⟨({ w0 with ember := { EmberSt.init with phase := .banked, railsOff := 19999999999 } }.set .ember F.EMBER_TC10_EN 0 0x800), 13,
        by decide +kernel⟩,
    ⟨({ w0 with ember := { EmberSt.init with phase := .banked, railsOff := 19999999999, ignore := true } }), by decide +kernel⟩,
    ⟨({ w0 with ember := { EmberSt.init with phase := .banked, railsOff := 19999999999, ignore := true } }), 0, by decide +kernel⟩⟩

theorem witness_WakeSequence :
    (∃ (s : State) (g : RailGroup), (s.group g).on = true ∧ (s.group g).good = false ∧ g ≠ .shared) ∧
    (∃ (s : State), s.ember.gs.on = true ∧ s.ember.gs.good = false) ∧
    (∃ (s : State) (g : RailGroup), (s.group g).on = true ∧ (s.group g).good = false ∧ (s.group g).tries < 3 ∧ s.ember.gs.failed = false ∧
        (s.ember.ga.failed = false ∨ s.ember.gb.failed = false) ∧ (s.group g).failed = false) ∧
    (∃ (s : State), s.ember.gs.on = true ∧ s.ember.gs.good = false ∧ 3 ≤ s.ember.gs.tries ∧ s.ember.phase = .waking) ∧
    (∃ (s : State) (x : Side), (s.side x).run = .clocking ∧ (s.side x).limp = false) ∧
    (∃ (s : State) (x : Side), (s.side x).run = .clocking ∧ s.ember.straps.testBit 2 = false) ∧
    (∃ (s : State), s.ember.straps.testBit 2 = true) ∧
    (∃ (s : State), s.flue.powered = true ∧ s.present .flue = false) ∧
    (∃ (s : State), s.flue.powered = true ∧ s.present .flue = false) :=
  ⟨⟨{ w0 with ember := { EmberSt.init with phase := .waking, ga := ⟨true, false, 0, false, 30000000000, 0⟩ } }, .a, by decide +kernel⟩,
    ⟨{ w0 with ember := { EmberSt.init with phase := .waking, gs := ⟨true, false, 1, false, 5, 0⟩ } }, by decide +kernel⟩,
    ⟨{ w0 with ember := { EmberSt.init with phase := .waking, gb := ⟨true, false, 2, false, 5, 0⟩, wakeAt := 5 } }, .b, by decide +kernel⟩,
    ⟨{ w0 with ember := { EmberSt.init with phase := .waking, gs := ⟨true, false, 3, false, 5, 0⟩, wakeAt := 5 } }, by decide +kernel⟩,
    ⟨w0.setSide .b { SideSt.init with run := .clocking }, .b, by decide +kernel⟩,
    ⟨{ w0.setSide .b { SideSt.init with run := .clocking } with absent := allUnits }, .b, by decide +kernel⟩,
    ⟨{ w0.setSide .b { SideSt.init with run := .clocking } with ember := { w0.ember with straps := 4 } }, by decide +kernel⟩,
    ⟨{ w0 with absent := [.flue], flue := { w0.flue with refPresent := false } }, by decide +kernel⟩,
    ⟨{ w0 with absent := [.flue] }, by decide +kernel⟩⟩

theorem witness_ConfirmationAndLit :
    (∃ (s : State) (c : Confirm), (c = .kl15 ∨ c = .rtc ∨ c = .stateSet) ∧ s.confirmOpen = true) ∧
    (∃ (s : State) (k : Fin 12) (f : CanFrame) (x : Side), x = (if k.val < 6 then .a else .b) ∧ (s.wakeCause = 4 ∨ s.wakeCause = 6) ∧
        s.wakeIndex = k ∧ (s.can x (k % 6)).wake.fits f.h0.toNat f.h1.toNat (dataNat f) = true ∧ s.confirmOpen = true) ∧
    (∃ (s : State) (e : Nat), s.ember.confirm = some e) ∧
    (∃ (s : State) (x : Side), (s.side x).run = .kindling ∧ Tab.at 0 (s.side x).used 0x200 ≠ 0 ∧ Tab.at 0 (s.side x).used 0 ≠ 0) ∧
    (∃ (s : State) (x : Side), s.up x = true ∧ (s.side x).cores = false ∧ s.boundLit = true) ∧
    (∃ (s : State) (m : Nat), s.ember.phase = .banked ∧ s.get .ember F.EMBER_BANK_TIME_LIMIT 0 = m ∧ m ≠ 65535) :=
  ⟨⟨{ w0 with ember := { w0.ember with confirm := some 20000000000 } }, .rtc, by decide +kernel⟩,
    ⟨({ w0 with ember := { w0.ember with confirm := some 20000000000 } }.set .ember F.EMBER_WREC 0 (11 * 16 + 4)).setCan .b 5
        { CanSt.init with wake := { CanWake.none with ident := 5, mask := 7 } }, 11, ⟨0x4000000D, 0, 0, 0, []⟩, .b, by decide +kernel⟩,
    ⟨{ w0 with ember := { w0.ember with confirm := some 30000000000 } }, 30000000000, by decide +kernel⟩,
    ⟨{ w0.setSide .a { SideSt.init with run := .kindling, used := [(0, 1), (0x200, 1)] } with ember := { EmberSt.init with phase := .waking } },
        .a, by decide +kernel⟩,
    ⟨((w0.setSide .b { wSide with cores := false }).set (.side .b) F.WOT_WORLD_STATE_STATE 7 1), .b, by decide +kernel⟩,
    ⟨({ w0 with ember := { EmberSt.init with phase := .banked, railsOff := 19999999999 } }.set .ember F.EMBER_BANK_TIME_LIMIT 0 0), 0,
        by decide +kernel⟩⟩

theorem witness_SleepSequence :
    (∃ (s : State) (m : Matcher) (n : Nat), s.ember.phase = .sleeping 0 ∧ n < ruleCount m) ∧
    (∃ (s : State) (c : Nat), s.ember.phase = .sleeping 1 ∧ s.drained .a = true ∧ s.drained .b = true ∧ c < 64 ∧ s.present (dieUnit (c /
        16)) = true) ∧
    (∃ (s : State) (loc : BitVec 4), s.ember.phase = .sleeping 2 ∧ (List.range 4).find? (s.locHeld loc.toNat) = none) ∧
    (∃ (s : State), s.ember.phase = .sleeping 2) ∧
    (∃ (s : State), s.ember.phase ≠ .off) :=
  ⟨⟨{ w0.set .flue F.SPK_RULE_CTRL_ENABLED 127 1 with ember := { w0.ember with phase := .sleeping 0 } }, .flue, 127, by decide +kernel⟩,
    ⟨{ (w0.set (.grate 3) F.CH_STATE_STATE 15 2).set (.grate 3) F.CH_STATE_CMD_ON 15 1 with ember := { w0.ember with phase := .sleeping 1 } },
        63, by decide +kernel⟩,
    ⟨{ w0 with ember := { w0.ember with phase := .sleeping 2, target := 1 } }, 0, by decide +kernel⟩,
    ⟨{ w0 with ember := { w0.ember with phase := .sleeping 2, target := 1 } }, by decide +kernel⟩,
    ⟨w0.set .ember F.EMBER_WAKE_COUNT 0 77, by decide +kernel⟩⟩

theorem witness_FeedsAndSides :
    (∃ (s : State) (f : Side), s.ember.phase = .up ∧ s.feedGone f = false ∧ s.feedGone f.other = false) ∧
    (∃ (s : State) (f : Side), s.ember.phase = .up ∧ s.feedGone f = false ∧ s.feedGone f.other = true) ∧
    (∃ (s : State) (f : Side), s.ember.phase = .up ∧ s.feedGone f = true) ∧
    (∃ (s : State) (f : Side), s.ember.phase = .banked ∧ s.ember.onlyFeed = true ∧ s.ember.ignore = false ∧ s.feedGone f = true) ∧
    (∃ (s : State), s.ember.phase ≠ .off) ∧
    (∃ (s : State) (va : Word40) (vb : Word40), outsideFeed (sigInt va.toNat) = false ∧ outsideFeed (sigInt vb.toNat) = false ∧
        s.ember.phase ≠ .off) ∧
    (∃ (s : State) (f : Side), s.ember.phase ≠ .off ∧ s.feedGone f = false) ∧
    (∃ (s : State) (x : Side), s.rstIsLow x = false ∧ (s.side x).run = .ready) ∧
    (∃ (s : State) (x : Side), s.rstIsLow x = true ∧ (s.side x).run = .down ∧ s.railGood x = true) ∧
    (∃ (s : State) (x : Side), s.up x = true ∧ s.healthy x = true) ∧
    (∃ (s : State) (x : Side), s.up x = true ∧ s.healthy x = false ∧ s.railGood x = true ∧ s.rstIsLow x = false) :=
  ⟨⟨w0, .b, by decide +kernel⟩,
    ⟨w0.set .ember F.EMBER_STATE_FEED_A_LOSS 0 1, .b, by decide +kernel⟩,
    ⟨w0.set .ember F.EMBER_STATE_FEED_A_LOSS 0 1, .a, by decide +kernel⟩,
    ⟨({ w0 with ember := { EmberSt.init with phase := .banked, railsOff := 19999999999, onlyFeed := true } }.set .ember
        F.EMBER_STATE_FEED_A_LOSS 0 1), .a, by decide +kernel⟩,
    ⟨w0, by decide +kernel⟩,
    ⟨w0, 13 * 2 ^ 20, 57 * 2 ^ 20 + 1048575, by decide +kernel⟩,
    ⟨w0, .b, by decide +kernel⟩,
    ⟨w0.set (.side .b) F.CFG_MODE_ACTIVE 0 7, .b, by decide +kernel⟩,
    ⟨{ w0.setSide .b SideSt.init with ember := { w0.ember with rstLow := 2, gb := ⟨true, true, 0, false, 0, 0⟩, gs := ⟨true, true, 0, false, 0, 0⟩ } },
        .b, by decide +kernel⟩,
    ⟨w0.set (.side .b) F.SIDE_STATUS_HEALTHY 0 1, .b, by decide +kernel⟩,
    ⟨{ w0 with ember := { w0.ember with gb := ⟨true, true, 0, false, 0, 0⟩, gs := ⟨true, true, 0, false, 0, 0⟩ } }, .b, by decide +kernel⟩⟩

theorem witness_CommitTicks :
    (∃ (s : State) (x : Side), s.up x = true ∧ (s.side x).firstCommit = true ∧ (s.side x).snap = none) ∧
    (∃ (s : State) (x : Side) (m : Snap), s.up x = true ∧ (s.side x).firstCommit = true ∧ (s.side x).snap = some m ∧ m.at_ = none ∧ m.cmd ≠
        s.get (.side x) F.CFG_MODE_CMD 0 ∧ s.staleUnits x = 0 ∧ (s.side x).tickFails < 10) :=
  ⟨⟨w0.setSide .b { wSide with work := [⟨0x40010008, 0, 0, 0xFF, 0⟩] }, .b, by decide +kernel⟩,
    ⟨w0.setSide .b { wSide with tickFails := 9, snap := some ⟨none, 5, 0, none, [], [], [], []⟩ }, .b, ⟨none, 5, 0, none, [], [], [], []⟩,
        by decide +kernel⟩⟩

theorem witness_TokenEvents :
    (∃ (s : State) (x : Side) (l : BitVec 5) (i : Fin 5), s.up x = true ∧ s.healthy x = true ∧ (i.val = 4 ∨ s.present (dieUnit i) = true) ∧
        l.getLsbD i = true) ∧
    (∃ (s : State) (i : Fin 5) (b : Nat), (s.tokState i = 0 ∨ s.tokState i = 4) ∧ s.tokHolder i ≤ 1 ∧ s.beatAt i (sideOf (s.tokHolder i)) =
        some b) ∧
    (∃ (s : State) (i : Fin 5), s.tokState i = 1 ∧ s.tokHolder i ≤ 1 ∧ s.beats i (sideOf (s.tokHolder i)) = true ∧ s.committedSince i
        (sideOf (s.tokHolder i)) = true) ∧
    (∃ (s : State) (i : Fin 5), s.committedSince i (sideOf (s.tokHolder i)) = false) ∧
    (∃ (s : State) (x : Side) (i : Fin 5), s.up x = true ∧ s.healthy x = true ∧ s.is (.side x) F.SIDE_CFG_AUTO_CLAIM 0 = true ∧ s.beatsBelow
        i x = true ∧ s.tokHolder i = x.other.num ∧ s.tokState i = 1 ∧ s.beats i x.other = false) ∧
    (∃ (s : State) (x : Side) (i : Nat), s.up x = true ∧ (s.side x).firstCommit = true ∧ i < 5 ∧ s.tokState i = 3) ∧
    (∃ (s : State) (d : Fin 4), s.is (.grate d) F.GRATE_TOKEN_WINDOW 0 = true) ∧
    (∃ (s : State) (i : Fin 5), s.tokState i = 4 ∧ (i.val = 4 ∨ Tab.at [] (s.side (sideOf (s.tokHolder i))).links i = []) ∧ s.get (.grate i)
        F.GRATE_TOKEN_CLAIMANT 0 ≤ 1) :=
  ⟨⟨w0.set (.side .b) F.SIDE_STATUS_HEALTHY 0 1, .b, 4, 2, by decide +kernel⟩,
    ⟨(((w0).set (.grate 1) F.GRATE_TOKEN_STATE 0 0).set (.grate 1) F.GRATE_TOKEN_HOLDER 0 1).setDie 1
        { w0.die 1 with hbB := some 20000000001 }, 1, 20000000001, by decide +kernel⟩,
    ⟨((((w0).set (.grate 1) F.GRATE_TOKEN_STATE 0 1).set (.grate 1) F.GRATE_TOKEN_HOLDER 0 1).setDie 1
        { w0.die 1 with hbB := some 20000000000, backAt := some 19999960000 }).setSide .b { wSide with tickAt := 19999970000 }, 1,
        by decide +kernel⟩,
    ⟨((((w0).set (.grate 1) F.GRATE_TOKEN_STATE 0 1).set (.grate 1) F.GRATE_TOKEN_HOLDER 0 1).setDie 1
        { w0.die 1 with hbB := some 20000000000, backAt := some 19999960000 }).setSide .b { wSide with tickAt := 19999950000 }, 1,
        by decide +kernel⟩,
    ⟨((((w0).set (.grate 1) F.GRATE_TOKEN_STATE 0 1).set (.grate 1) F.GRATE_TOKEN_HOLDER 0 1).setDie 1
        { w0.die 1 with hbA := some 20000000000 }).set (.side .a) F.SIDE_STATUS_HEALTHY 0 1 |>.set (.side .a) F.SIDE_CFG_AUTO_CLAIM 0 1, .a,
        1, by decide +kernel⟩,
    ⟨(((w0).set (.grate 4) F.GRATE_TOKEN_STATE 0 3).set (.grate 4) F.GRATE_TOKEN_HOLDER 0 3), .b, 4, by decide +kernel⟩,
    ⟨w0.set (.grate 3) F.GRATE_TOKEN_WINDOW 0 1, 3, by decide +kernel⟩,
    ⟨((((w0).set (.grate 2) F.GRATE_TOKEN_STATE 0 4).set (.grate 2) F.GRATE_TOKEN_HOLDER 0 1).set (.grate 2) F.GRATE_TOKEN_CLAIMANT 0 0), 2,
        by decide +kernel⟩⟩

theorem witness_PeerAndCrossLink :
    (∃ (s : State) (x : Side), s.up x = true ∧ s.healthy x = true ∧ s.up x.other = true) ∧
    (∃ (s : State) (x : Side), s.up x = true ∧ s.healthy x = false ∧ s.up x.other = true) ∧
    (∃ (s : State) (x : Side), s.up x = true ∧ (s.due (s.pulseLossAt x)).beatsSome x.other x = false ∧ (s.side x).peerLost = false ∧ (s.side
        x).ckpt = none ∧ (s.side x.other).ckpt = none) ∧
    (∃ (s : State) (x : Side), s.up x = true ∧ (s.due (s.pulsesGoneAt x)).beatsSome x.other x = true ∧ (s.side x).crossLost = false) ∧
    (∃ (s : State) (x : Side), s.up x = true ∧ (s.side x).crossLost = true) ∧
    (∃ (s : State) (x : Side), s.up x = true) ∧
    (∃ (s : State) (i : Fin 5) (e : Nat), s.returnDue i = some e ∧ s.returnFirst i (max s.now e) = false ∧ (s.due e).returnReady i = true) :=
  ⟨⟨w0.set (.side .b) F.SIDE_STATUS_HEALTHY 0 1, .b, by decide +kernel⟩,
    ⟨w0, .a, by decide +kernel⟩,
    ⟨w0.setSide .b { wSide with peerAt := some 19999000000 }, .b, by decide +kernel⟩,
    ⟨(w0.setSide .b { wSide with peerAt := some 19999900000 }).setDie 2 { w0.die 2 with hbA := some 19999999000 }, .b, by decide +kernel⟩,
    ⟨(w0.setSide .b { wSide with crossLost := true }).set (.side .a) F.CFG_MODE_CMD 0 6, .b, by decide +kernel⟩,
    ⟨w0, .a, by decide +kernel⟩,
    ⟨((((((((((((w0).set (.grate 1) F.GRATE_TOKEN_STATE 0 0).set (.grate 1) F.GRATE_TOKEN_HOLDER 0 1).setDie 1
        { w0.die 1 with hbA := some 20000000000 }).set (.side .a) F.SIDE_STATUS_HEALTHY 0 1).set (.side .b) F.SIDE_STATUS_HEALTHY 0 1).set
        (.side .a) F.SIDE_STATUS_CROSS_UP 0 1).set (.side .b) F.SIDE_STATUS_CROSS_UP 0 1).set (.side .a) F.SIDE_STATUS_MIRROR_CURRENT 0
        1).set (.side .b) F.SIDE_STATUS_MIRROR_CURRENT 0 1).set (.side .a) F.SIDE_STATUS_RETURN_HOME 0 1).set (.side .a)
        F.SIDE_RETURN_HOLDOFF 0 10).set (.side .a) F.SIDE_CFG_HOME 0 0 |>.setSide .a { wSide with returnAt := [(1, 1)] }, 1, 10000000000,
        by decide +kernel⟩⟩

theorem witness_Checkpoints :
    (∃ (s : State) (x : Side), s.up x = true ∧ s.crossBoth = true ∧ max 1 (s.get (.side x) F.SIDE_MIRROR_CFG 0) ≤ (s.side x).ckptTicks ∧
        (s.side x).ckpt = none) ∧
    (∃ (s : State) (x : Side), s.up x = true ∧ s.crossBoth = true ∧ max 1 (s.get (.side x) F.SIDE_MIRROR_CFG 0) ≤ (s.side x).ckptTicks ∧
        (s.side x).ckpt.isSome = true) ∧
    (∃ (s : State) (x : Side), s.up x = true ∧ s.crossBoth = false ∧ max 1 (s.get (.side x) F.SIDE_MIRROR_CFG 0) ≤ (s.side x).ckptTicks) ∧
    (∃ (s : State) (x : Side) (k : Ckpt) (lo : Option Word40), (s.side x).ckpt = some k ∧ s.crossBoth = true ∧ (k.lines.any (fun l =>
        s.engineWaits x l.2 64 || s.engineWaits x.other l.2 64) = false) ∧ (k.lines.all (fun l => copyEcc lo none l.2 64 == .clean) = true)) ∧
    (∃ (s : State) (x : Side) (k : Ckpt) (b : Nat × Nat) (lo : Option Word40), (s.side x).ckpt = some k ∧ s.crossBoth = true ∧ s.fabric
        x.other = true ∧ (k.lines.any (fun l => s.engineWaits x l.2 64 || s.engineWaits x.other l.2 64) = false) ∧ k.lines.find? (fun l =>
        copyEcc lo none l.2 64 == .lost) = some b) :=
  ⟨⟨((w0.set (.side .b) F.SIDE_STATUS_CROSS_UP 0 1).set (.side .a) F.SIDE_STATUS_CROSS_UP 0 1).set (.side .b) F.SIDE_MIRROR_CFG 0 1
        |>.setSide .b { wSide with ckptTicks := 3, dirty := [64] }, .b, by decide +kernel⟩,
    ⟨((w0.set (.side .b) F.SIDE_STATUS_CROSS_UP 0 1).set (.side .a) F.SIDE_STATUS_CROSS_UP 0 1).set (.side .b) F.SIDE_MIRROR_CFG 0 1
        |>.setSide .b { wSide with ckptTicks := 3, dirty := [64], ckpt := some ⟨[], 2⟩ }, .b, by decide +kernel⟩,
    ⟨(w0.set (.side .b) F.SIDE_MIRROR_CFG 0 1).setSide .b { wSide with ckptTicks := 3, dirty := [64] }, .b, by decide +kernel⟩,
    ⟨(((w0.setByte .a 0x10000040 7).set (.side .b) F.SIDE_STATUS_CROSS_UP 0 1).set (.side .a) F.SIDE_STATUS_CROSS_UP 0 1).setSide .a
        { wSide with ckpt := some ⟨[(0, 0x10000040)], 2⟩ }, .a, ⟨[(0, 0x10000040)], 2⟩, some 0x10000080, by decide +kernel⟩,
    ⟨(((w0.setByte .a 0x10000040 7).set (.side .b) F.SIDE_STATUS_CROSS_UP 0 1).set (.side .a) F.SIDE_STATUS_CROSS_UP 0 1).setSide .a
        { wSide with ckpt := some ⟨[(0, 0x10000040), (0, 0x10000080)], 2⟩ }, .a, ⟨[(0, 0x10000040), (0, 0x10000080)], 2⟩, (0, 0x10000080),
        some 0x10000080, by decide +kernel⟩⟩

theorem witness_UnitsComeAndGo :
    (∃ (s : State) (x : Side) (j : Job) (q : List Job) (c : Nat), s.Head x 0x004 j q ∧ j.pkt.target = c ∧ c = 0x020 ∧ s.present (.dma x) =
        true) ∧
    (∃ (s : State) (x : Side) (j : Job) (q : List Job) (c : Nat), s.Head x 0x004 j q ∧ j.pkt.target = c ∧ c = 0x020 ∧ s.present (.dma x) =
        false) ∧
    (∃ (s : State) (u : UnitId), s.present u = true ∧ (∀ i : Nat, i < 6 → unitBridge u = some i → (s.bridge .a i).txns = [] ∧ (s.bridge .b
        i).txns = [])) ∧
    (∃ (s : State) (d : Fin 4), s.present (.grate d) = true ∧ (s.bridge .a (2 + d)).txns = [] ∧ (s.bridge .b (2 + d)).txns = []) ∧
    (∃ (s : State), s.present .flue = true ∧ (s.bridge .a 1).txns = [] ∧ (s.bridge .b 1).txns = []) ∧
    (∃ (s : State) (u : UnitId), s.canReturn u = true) ∧
    (∃ (s : State) (x : Side), s.canReturn (.dma x) = true) ∧
    (∃ (s : State), s.flueRuns = true ∧ s.flue.extRef = true ∧ s.present .flue = true ∧ (s.bridge .a 1).txns = [] ∧ (s.bridge .b 1).txns =
        []) ∧
    (∃ (s : State), s.shares = false) ∧
    (∃ (s : State), s.shares = true ∧ s.sa.calCrcOk = true ∧ s.sb.calCrcOk = true ∧ s.load .a (s.calAddr .a 0) calLen ≠ s.load .b (s.calAddr
        .b 0) calLen ∧ s.calWritten .a < s.calWritten .b) :=
  ⟨⟨wHead (w0.set (.side .a) F.DMA_STATUS_BUSY 3 1) (wJob 0x004 32 []), .a, wJob 0x004 32 [], [], 32, by decide +kernel⟩,
    ⟨wHead ({ w0 with absent := [.dma .a] }) (wJob 0x004 32 []), .a, wJob 0x004 32 [], [], 32, by decide +kernel⟩,
    ⟨w0, .can .b 4, by decide +kernel⟩,
    ⟨(w0.set (.grate 3) F.CH_STATE_STATE 2 7).set (.grate 3) F.CH_STATE_STATE 4 2, 3, by decide +kernel⟩,
    ⟨w0, by decide +kernel⟩,
    ⟨{ w0 with absent := [.grate 2, .flue] }, .grate 2, by decide +kernel⟩,
    ⟨{ w0 with absent := [.dma .b] }, .b, by decide +kernel⟩,
    ⟨{ w0 with flue := { w0.flue with extRef := true } }, by decide +kernel⟩,
    ⟨w0, by decide +kernel⟩,
    ⟨({ w0 with mem := [(0x80010000, 1), (2 ^ 40 + 0x80010000, 2), (2 ^ 40 + 0x80010005, 1)] }.set (.side .a) F.SIDE_STATUS_CROSS_UP 0
        1).set (.side .b) F.SIDE_STATUS_CROSS_UP 0 1, by decide +kernel⟩⟩

theorem witness_TokenPackets :
    (∃ (s : State) (x : Side) (j : Job) (q : List Job) (c : Nat), s.Head x 0xB02 j q ∧ j.pkt.target = c ∧ c < 4 ∧ s.present (dieUnit c) =
        true ∧ s.tokState c = 3 ∧ s.tokHolder c = 3 ∧ (s.side x).claimReqs = [] ∧ s.now < j.takenAt + 1000000) ∧
    (∃ (s : State) (x : Side) (j : Job) (q : List Job) (c : Nat), s.Head x 0xB02 j q ∧ j.pkt.target = c ∧ c < 4 ∧ s.present (dieUnit c) =
        true ∧ s.holds x c = true ∧ s.claimPending c = false ∧ (s.side x).claimReqs = []) ∧
    (∃ (s : State) (x : Side) (j : Job) (q : List Job) (c : Nat), s.Head x 0xB03 j q ∧ j.pkt.target = c ∧ c < 4 ∧ s.present (dieUnit c) =
        true ∧ s.holds x c = true) ∧
    (∃ (s : State) (x : Side) (j : Job) (q : List Job) (c : Nat), s.Head x 0xB03 j q ∧ j.pkt.target = c ∧ c < 4 ∧ s.present (dieUnit c) =
        true ∧ s.holds x c = false) ∧
    (∃ (s : State) (x : Side) (j : Job) (q : List Job) (c : Nat), s.Head x 0xB02 j q ∧ j.pkt.target = c ∧ c < 4 ∧ s.present (dieUnit c) =
        false) ∧
    (∃ (s : State) (x : Side) (j : Job) (q : List Job) (c : Nat), s.Head x 0xB03 j q ∧ j.pkt.target = c ∧ c < 4 ∧ s.present (dieUnit c) =
        false) ∧
    (∃ (s : State) (x : Side) (j : Job) (q : List Job) (c : Nat), s.Head x 0x601 j q ∧ j.pkt.target = c ∧ s.present .flue = true ∧
        s.tokState 4 = 3 ∧ s.tokHolder 4 = 3 ∧ (s.side x).claimReqs = [] ∧ s.now < j.takenAt + 1000000) ∧
    (∃ (s : State) (x : Side) (j : Job) (q : List Job) (c : Nat), s.Head x 0x601 j q ∧ j.pkt.target = c ∧ s.present .flue = false) ∧
    (∃ (s : State) (x : Side) (j : Job) (q : List Job) (c : Nat), s.Head x 0x602 j q ∧ j.pkt.target = c ∧ s.present .flue = true ∧ s.holds x
        4 = true) ∧
    (∃ (s : State) (x : Side) (j : Job) (q : List Job) (c : Nat), s.Head x 0x602 j q ∧ j.pkt.target = c ∧ s.present .flue = true ∧ s.holds x
        4 = false) :=
  ⟨⟨wHead ((((w0).set (.grate 2) F.GRATE_TOKEN_STATE 0 3).set (.grate 2) F.GRATE_TOKEN_HOLDER 0 3)) ⟨.a, 2, 7, 19999999900, ⟨0xB02, 5, 0,
        2, [], false⟩⟩, .a, ⟨.a, 2, 7, 19999999900, ⟨0xB02, 5, 0, 2, [], false⟩⟩, [], 2, by decide +kernel⟩,
    ⟨wHead (w0) (wJob 0xB02 0 []), .a, wJob 0xB02 0 [], [], 0, by decide +kernel⟩,
    ⟨wHead (w0) (wJob 0xB03 0 []), .a, wJob 0xB03 0 [], [], 0, by decide +kernel⟩,
    ⟨wHead ((((w0).set (.grate 3) F.GRATE_TOKEN_STATE 0 0).set (.grate 3) F.GRATE_TOKEN_HOLDER 0 1)) (wJob 0xB03 3 []), .a, wJob 0xB03 3 [],
        [], 3, by decide +kernel⟩,
    ⟨wHead ({ w0 with absent := [.grate 2] }) (wJob 0xB02 2 []), .a, wJob 0xB02 2 [], [], 2, by decide +kernel⟩,
    ⟨wHead ({ w0 with absent := [.grate 2] }) (wJob 0xB03 2 []), .a, wJob 0xB03 2 [], [], 2, by decide +kernel⟩,
    ⟨wHead ((((w0).set (.grate 4) F.GRATE_TOKEN_STATE 0 3).set (.grate 4) F.GRATE_TOKEN_HOLDER 0 3)) ⟨.a, 2, 7, 19999999900, ⟨0x601, 5, 0,
        0, [], false⟩⟩, .a, ⟨.a, 2, 7, 19999999900, ⟨0x601, 5, 0, 0, [], false⟩⟩, [], 0, by decide +kernel⟩,
    ⟨wHead ({ w0 with absent := [.flue] }) (wJob 0x601 0 []), .a, wJob 0x601 0 [], [], 0, by decide +kernel⟩,
    ⟨wHead (w0) (wJob 0x602 0 []), .a, wJob 0x602 0 [], [], 0, by decide +kernel⟩,
    ⟨wHead ((((w0).set (.grate 4) F.GRATE_TOKEN_STATE 0 0).set (.grate 4) F.GRATE_TOKEN_HOLDER 0 1)) (wJob 0x602 0 []), .a, wJob 0x602 0 [],
        [], 0, by decide +kernel⟩⟩

theorem witness_SideAndNetPackets :
    (∃ (s : State) (x : Side) (j : Job) (q : List Job) (c : Nat), s.Head x 0xB01 j q ∧ j.pkt.target = c) ∧
    (∃ (s : State) (x : Side) (j : Job) (q : List Job) (c : Nat) (p : Nat), s.Head x 0xB04 j q ∧ j.pkt.target = c ∧ j.pkt.p 1 = p) ∧
    (∃ (s : State) (x : Side) (j : Job) (q : List Job) (c : Nat) (p : Nat), s.Head x 0xB05 j q ∧ j.pkt.target = c ∧ j.pkt.p 1 = p ∧
        s.crossReach x = false) ∧
    (∃ (s : State) (x : Side) (j : Job) (q : List Job) (c : Nat) (p : Nat), s.Head x 0xB05 j q ∧ j.pkt.target = c ∧ j.pkt.p 1 = p ∧
        s.crossReach x = true) ∧
    (∃ (s : State) (x : Side) (j : Job) (q : List Job) (c : Nat), s.Head x 0x603 j q ∧ j.pkt.target = c ∧ bits (j.pkt.p 1) 1 0 = 0 ∧
        s.present .flue = true) ∧
    (∃ (s : State) (x : Side) (j : Job) (q : List Job) (c : Nat), s.Head x 0x603 j q ∧ j.pkt.target = c ∧ bits (j.pkt.p 1) 1 0 = 0 ∧
        s.present .flue = false) ∧
    (∃ (s : State) (x : Side) (j : Job) (q : List Job) (c : Nat), s.Head x 0x603 j q ∧ j.pkt.target = c ∧ bits (j.pkt.p 1) 1 0 = 2 ∧
        s.present .flue = true ∧ s.holds x 4 = true) ∧
    (∃ (s : State) (x : Side) (j : Job) (q : List Job) (c : Nat), s.Head x 0x603 j q ∧ j.pkt.target = c ∧ bits (j.pkt.p 1) 1 0 ≠ 0 ∧
        s.present .flue = true ∧ s.holds x 4 = false) ∧
    (∃ (s : State) (x : Side) (j : Job) (q : List Job) (c : Nat) (p : Nat) (i : Nat) (k : Nat), s.Head x 0x604 j q ∧ j.pkt.target = c ∧
        j.pkt.p 1 = p ∧ bits p 0 0 = 0 ∧ saIndex c 0 (bits p 1 1) (bits p 3 2) = i ∧ c < 17 ∧ s.present .flue = true ∧ s.holds x 4 = true ∧
        bits p 15 8 = k ∧ k < 64 ∧ s.is (.side x) F.KEYS_SLOT_VALID k = true ∧ s.is (.side x) F.KEYS_SLOT_REVOKED k = false ∧ s.get (.side
        x) F.KEYS_SLOT_USE k = 3 ∧ p.testBit 4 = false ∧ j.pkt.p 2 < 2 ^ 32) ∧
    (∃ (s : State) (x : Side) (j : Job) (q : List Job) (c : Nat) (p : Nat), s.Head x 0x604 j q ∧ j.pkt.target = c ∧ s.present .flue = true ∧
        s.holds x 4 = true ∧ j.pkt.p 1 = p ∧ s.is (.side x) F.KEYS_SLOT_VALID (bits p 15 8) = false) ∧
    (∃ (s : State) (x : Side) (j : Job) (q : List Job) (c : Nat), s.Head x 0x605 j q ∧ j.pkt.target = c ∧ s.present .flue = true ∧ s.holds x
        4 = true) :=
  ⟨⟨wHead (w0) (wJob 0xB01 0 []), .a, wJob 0xB01 0 [], [], 0, by decide +kernel⟩,
    ⟨wHead (w0) (wJob 0xB04 15 [0x10008000, 3]), .a, wJob 0xB04 15 [0x10008000, 3], [], 15, (([0x10008000, 3] : List Nat)).headD 0,
        by decide +kernel⟩,
    ⟨wHead (w0) (wJob 0xB05 0 [0xC801]), .a, wJob 0xB05 0 [0xC801], [], 0, (([0xC801] : List Nat)).headD 0, by decide +kernel⟩,
    ⟨wHead (w0.set (.side .a) F.SIDE_STATUS_CROSS_UP 0 1) (wJob 0xB05 0 [0xC801]), .a, wJob 0xB05 0 [0xC801], [], 0, (([0xC801] : List
        Nat)).headD 0, by decide +kernel⟩,
    ⟨wHead (w0) (wJob 0x603 0 [0]), .a, wJob 0x603 0 [0], [], 0, by decide +kernel⟩,
    ⟨wHead ({ w0 with absent := [.flue] }) (wJob 0x603 0 [0]), .a, wJob 0x603 0 [0], [], 0, by decide +kernel⟩,
    ⟨wHead (w0) (wJob 0x603 0 [2]), .a, wJob 0x603 0 [2], [], 0, by decide +kernel⟩,
    ⟨wHead ((((w0).set (.grate 4) F.GRATE_TOKEN_STATE 0 0).set (.grate 4) F.GRATE_TOKEN_HOLDER 0 1)) (wJob 0x603 0 [1]), .a, wJob 0x603 0
        [1], [], 0, by decide +kernel⟩,
    ⟨wHead (((w0.set (.side .a) F.KEYS_SLOT_VALID 41 1).set (.side .a) F.KEYS_SLOT_USE 41 3).setSide .a
        { wSide with keyMat := [(41, [1, 2])] }) (wJob 0x604 3 [0x2904, 9, 0, 0, 1, 2]), .a, wJob 0x604 3 [0x2904, 9, 0, 0, 1, 2], [], 3,
        (([0x2904, 9, 0, 0, 1, 2] : List Nat)).headD 0, saIndex 3 0 0 1, 41, by decide +kernel⟩,
    ⟨wHead (w0) (wJob 0x604 3 [0x2904, 9, 0, 0, 1, 2]), .a, wJob 0x604 3 [0x2904, 9, 0, 0, 1, 2], [], 3, (([0x2904, 9, 0, 0, 1, 2] : List
        Nat)).headD 0, by decide +kernel⟩,
    ⟨wHead (w0) (wJob 0x605 7 [5, 9, 0x2E]), .a, wJob 0x605 7 [5, 9, 0x2E], [], 7, by decide +kernel⟩⟩

theorem witness_TimePackets :
    (∃ (s : State) (x : Side) (j : Job) (q : List Job) (c : Nat), s.Head x 0x701 j q ∧ j.pkt.target = c ∧ s.present .flue = true) ∧
    (∃ (s : State) (x : Side) (j : Job) (q : List Job) (c : Nat), s.Head x 0x701 j q ∧ j.pkt.target = c ∧ s.present .flue = false) ∧
    (∃ (s : State) (x : Side) (j : Job) (q : List Job) (c : Nat), s.Head x 0x702 j q ∧ j.pkt.target = c ∧ s.present .flue = true ∧ c < 2 ∧
        s.get .flue F.BLW_STATE_PENDING c = 1) ∧
    (∃ (s : State) (x : Side) (j : Job) (q : List Job) (c : Nat), s.Head x 0x702 j q ∧ j.pkt.target = c ∧ s.present .flue = true ∧ s.get
        .flue F.BLW_STATE_PENDING c = 0) ∧
    (∃ (s : State) (x : Side) (j : Job) (q : List Job) (c : Nat), s.Head x 0x703 j q ∧ j.pkt.target = c ∧ c < 4 ∧ bits (j.pkt.p 5) 0 0 = 0) ∧
    (∃ (s : State) (x : Side) (j : Job) (q : List Job) (c : Nat), s.Head x 0x703 j q ∧ j.pkt.target = c ∧ c < 4 ∧ bits (j.pkt.p 5) 0 0 = 1 ∧
        (s.side x).tpoLevel.testBit c = true) ∧
    (∃ (s : State) (x : Side) (j : Job) (q : List Job) (c : Nat), s.Head x 0x703 j q ∧ j.pkt.target = c ∧ c < 4 ∧ bits (j.pkt.p 5) 0 0 = 1 ∧
        (s.side x).tpoLevel.testBit c = false ∧ j.pkt.p 3 ≠ 0) ∧
    (∃ (s : State) (x : Side) (j : Job) (q : List Job) (c : Nat), s.Head x 0x704 j q ∧ j.pkt.target = c ∧ c < 4) ∧
    (∃ (s : State) (x : Side) (j : Job) (q : List Job) (c : Nat), s.Head x 0x705 j q ∧ j.pkt.target = c ∧ s.present .flue = true) :=
  ⟨⟨wHead (w0) (wJob 0x701 1 []), .a, wJob 0x701 1 [], [], 1, by decide +kernel⟩,
    ⟨wHead ({ w0 with absent := [.flue] }) (wJob 0x701 0 []), .a, wJob 0x701 0 [], [], 0, by decide +kernel⟩,
    ⟨wHead ((w0.set .flue F.BLW_STATE_PENDING 1 1).set .flue F.BLW_PENDING 1 500) (wJob 0x702 1 []), .a, wJob 0x702 1 [], [], 1,
        by decide +kernel⟩,
    ⟨wHead (w0) (wJob 0x702 1 []), .a, wJob 0x702 1 [], [], 1, by decide +kernel⟩,
    ⟨wHead (w0) (wJob 0x703 3 [100, 5, 1000000, 5000, 2]), .a, wJob 0x703 3 [100, 5, 1000000, 5000, 2], [], 3, by decide +kernel⟩,
    ⟨wHead (w0.setSide .a { wSide with tpoLevel := 8 }) (wJob 0x703 3 [100, 5, 1000000, 5000, 1]), .a, wJob 0x703 3 [100, 5, 1000000, 5000,
        1], [], 3, by decide +kernel⟩,
    ⟨wHead (w0) (wJob 0x703 3 [100, 5, 1000000, 5000, 3]), .a, wJob 0x703 3 [100, 5, 1000000, 5000, 3], [], 3, by decide +kernel⟩,
    ⟨wHead ((w0.set (.side .a) F.TCI_STATUS_COUNT 3 9).set (.side .a) F.TCI_LAST_NS 3 77) (wJob 0x704 3 []), .a, wJob 0x704 3 [], [], 3,
        by decide +kernel⟩,
    ⟨wHead (w0) (wJob 0x705 1 [700000, 300000, 5000, 1]), .a, wJob 0x705 1 [700000, 300000, 5000, 1], [], 1, by decide +kernel⟩⟩

theorem witness_WorldAndLogPackets :
    (∃ (s : State) (x : Side) (j : Job) (q : List Job) (c : Nat), s.Head x 0x801 j q ∧ j.pkt.target = c) ∧
    (∃ (s : State) (x : Side) (j : Job) (q : List Job) (c : Nat), s.Head x 0x803 j q ∧ j.pkt.target = c) ∧
    (∃ (s : State) (x : Side) (j : Job) (q : List Job) (c : Nat), s.Head x 0x802 j q ∧ j.pkt.target = c ∧ c < 8 ∧ s.worldEnabled x c = true
        ∧ (∀ y : Side, ∀ n : Nat, n < 32 → s.get (.side y) F.DOOR_OWNER_WORLD n ≠ c)) ∧
    (∃ (s : State) (x : Side) (j : Job) (q : List Job) (c : Nat), s.Head x 0x804 j q ∧ j.pkt.target = c ∧ c = 0) ∧
    (∃ (s : State) (x : Side) (j : Job) (q : List Job) (c : Nat) (p : Nat) (lo : Option Word40), s.Head x 0x804 j q ∧ j.pkt.target = c ∧
        j.pkt.p 1 = p ∧ c ≠ 0 ∧ s.ReadsClean x p 160 lo ∧ s.certCause x p false ≠ 0) ∧
    (∃ (s : State) (x : Side) (j : Job) (q : List Job) (c : Nat) (p : Nat) (lo : Option Word40), s.Head x 0x804 j q ∧ j.pkt.target = c ∧
        j.pkt.p 1 = p ∧ c ≠ 0 ∧ s.ReadsLost x p 160 lo) ∧
    (∃ (s : State) (x : Side) (j : Job) (q : List Job) (c : Nat) (p : Nat), s.Head x 0xA01 j q ∧ j.pkt.target = c ∧ j.pkt.p 1 = p) ∧
    (∃ (s : State) (x : Side) (j : Job) (q : List Job) (c : Nat) (p : Nat), s.Head x 0xA02 j q ∧ j.pkt.target = c ∧ j.pkt.p 1 = p) :=
  ⟨⟨wHead (w0) (wJob 0x801 7 []), .a, wJob 0x801 7 [], [], 7, by decide +kernel⟩,
    ⟨wHead (w0) (wJob 0x803 2 []), .a, wJob 0x803 2 [], [], 2, by decide +kernel⟩,
    ⟨wHead ((w0.set (.side .a) F.WOT_WORLD_CFG_ENABLED 5 1).set (.side .a) F.WOT_WORLD_STATE_STATE 5 3) (wJob 0x802 5 []), .a, wJob 0x802 5
        [], [], 5, by decide +kernel, by decide +kernel, by decide +kernel, by decide +kernel, by intro y; cases y <;> decide +kernel⟩,
    ⟨wHead (w0) (wJob 0x804 0 []), .a, wJob 0x804 0 [], [], 0, by decide +kernel⟩,
    ⟨wHead (w0) (wJob 0x804 1 [0x10000000, 160]), .a, wJob 0x804 1 [0x10000000, 160], [], 1, (([0x10000000, 160] : List Nat)).headD 0, none,
        by decide +kernel⟩,
    ⟨wHead (w0) (wJob 0x804 1 [0x10000000, 160]), .a, wJob 0x804 1 [0x10000000, 160], [], 1, (([0x10000000, 160] : List Nat)).headD 0, some
        0x1000009F, by decide +kernel⟩,
    ⟨wHead (w0.log .a 0x006 4 [.wide 77]) (wJob 0xA01 0 [0x2000]), .a, wJob 0xA01 0 [0x2000], [], 0, (([0x2000] : List Nat)).headD 0,
        by decide +kernel⟩,
    ⟨wHead (w0) (wJob 0xA02 0 [0x123456789A]), .a, wJob 0xA02 0 [0x123456789A], [], 0, (([0x123456789A] : List Nat)).headD 0,
        by decide +kernel⟩⟩

theorem witness_CanPackets :
    (∃ (s : State) (x : Side) (j : Job) (q : List Job) (k : Fin 6) (p : Nat), s.Head x 0x501 j q ∧ j.pkt.target = k.val ∧ s.present (.can x
        k) = true ∧ j.pkt.p 1 = p ∧ (s.can x k).busOffAt = none) ∧
    (∃ (s : State) (x : Side) (j : Job) (q : List Job) (k : Fin 6), s.Head x 0x502 j q ∧ j.pkt.target = k.val ∧ s.present (.can x k) = true) ∧
    (∃ (s : State) (x : Side) (j : Job) (q : List Job) (k : Fin 6), s.Head x 0x503 j q ∧ j.pkt.target = k.val ∧ s.present (.can x k) = true) ∧
    (∃ (s : State) (x : Side) (j : Job) (q : List Job) (k : Fin 6) (p : Nat) (a : Nat) (i : Nat), s.Head x 0x504 j q ∧ j.pkt.target = k.val
        ∧ s.present (.can x k) = true ∧ j.pkt.p 1 = p ∧ bits p 7 0 = a ∧ ctxIndex k (bits p 15 8) = i ∧ a < 64 ∧ s.get (.side x)
        F.KEYS_SLOT_OWNER a = s.cg x F.CAN_CFG_OWNER k ∧ s.is (.side x) F.KEYS_SLOT_VALID a = true ∧ s.is (.side x) F.KEYS_SLOT_REVOKED a =
        false ∧ s.get (.side x) F.KEYS_SLOT_USE a = 4) ∧
    (∃ (s : State) (x : Side) (j : Job) (q : List Job) (k : Fin 6) (p : Nat), s.Head x 0x504 j q ∧ j.pkt.target = k.val ∧ s.present (.can x
        k) = true ∧ j.pkt.p 1 = p ∧ s.get (.side x) F.KEYS_SLOT_OWNER (bits p 7 0) ≠ s.cg x F.CAN_CFG_OWNER k) ∧
    (∃ (s : State) (x : Side) (j : Job) (q : List Job) (k : Fin 6) (p : Nat), s.Head x 0x504 j q ∧ j.pkt.target = k.val ∧ s.present (.can x
        k) = true ∧ j.pkt.p 1 = p ∧ bits p 7 0 < 64 ∧ s.get (.side x) F.KEYS_SLOT_OWNER (bits p 7 0) = s.cg x F.CAN_CFG_OWNER k ∧ s.is
        (.side x) F.KEYS_SLOT_VALID (bits p 7 0) = false) ∧
    (∃ (s : State) (x : Side) (j : Job) (q : List Job) (k : Fin 6), s.Head x 0x501 j q ∧ j.pkt.target = k.val ∧ s.present (.can x k) =
        false) :=
  ⟨⟨wHead (w0) (wJob 0x501 4 [3]), .a, wJob 0x501 4 [3], [], 4, (([3] : List Nat)).headD 0, by decide +kernel⟩,
    ⟨wHead (w0) (wJob 0x502 5 [0x23, 0x123, 0x7FF, 0, 0, 0, 0, 0]), .a, wJob 0x502 5 [0x23, 0x123, 0x7FF, 0, 0, 0, 0, 0], [], 5,
        by decide +kernel⟩,
    ⟨wHead (w0.setSide .a { wSide with cans := [(1, { CanSt.init with awake := [(0x123, 4)] })] }) (wJob 0x503 1 []), .a, wJob 0x503 1 [],
        [], 1, by decide +kernel⟩,
    ⟨wHead ((w0.set (.side .a) F.KEYS_SLOT_VALID 41 1).set (.side .a) F.KEYS_SLOT_USE 41 4) (wJob 0x504 2 [0x329]), .a, wJob 0x504 2
        [0x329], [], 2, (([0x329] : List Nat)).headD 0, 41, 35, by decide +kernel⟩,
    ⟨wHead (w0.set (.side .a) F.KEYS_SLOT_OWNER 41 3) (wJob 0x504 2 [0x329]), .a, wJob 0x504 2 [0x329], [], 2, (([0x329] : List Nat)).headD
        0, by decide +kernel⟩,
    ⟨wHead (w0) (wJob 0x504 2 [0x329]), .a, wJob 0x504 2 [0x329], [], 2, (([0x329] : List Nat)).headD 0, by decide +kernel⟩,
    ⟨wHead ({ w0 with absent := [.can .a 4] }) (wJob 0x501 4 [3]), .a, wJob 0x501 4 [3], [], 4, by decide +kernel⟩⟩

theorem witness_CanModesAndErrors :
    (∃ (s : State) (k : Fin 12) (x : Side) (c : Nat), canSide k = x ∧ k.val % 6 = c ∧ s.canHere x c = true ∧ (s.can x c).taken = none ∧
        (s.can x c).next = none ∧ (s.can x c).nextAt = none ∧ s.cb x F.CAN_STATUS_MODE_PENDING c = true ∧ s.cg x F.CAN_ERR_STATE c ≠ 2) ∧
    (∃ (s : State) (k : Fin 12) (x : Side) (c : Nat) (hv : Bool), canSide k = x ∧ k.val % 6 = c ∧ s.canOn x c = true ∧ (s.can x c).nextAt =
        none ∧ s.canMode x c ≤ 4 ∧ s.cg x F.CAN_ERR_REC c + (if hv = true then 8 else 1) < 96 ∧ s.cg x F.CAN_ERR_TEC c < 96 ∧ s.cg x
        F.CAN_ERR_STATE c = 0) ∧
    (∃ (s : State) (k : Fin 12) (x : Side) (c : Nat) (code : Fin 8) (arb : Bool) (again : Fin 32) (a : CanTx), canSide k = x ∧ k.val % 6 = c
        ∧ s.canOn x c = true ∧ (s.can x c).nextAt = none ∧ (s.can x c).taken = some a ∧ a.buf < 32 ∧ s.cg x F.CAN_ERR_TEC c + s.tecRise x c
        code arb again ≤ 127 ∧ s.cg x F.CAN_ERR_REC c ≤ 127 ∧ s.cg x F.CAN_ERR_STATE c = 0) ∧
    (∃ (s : State) (k : Fin 12) (x : Side) (c : Nat) (code : Fin 8) (arb : Bool) (again : Fin 32) (a : CanTx), canSide k = x ∧ k.val % 6 = c
        ∧ s.canOn x c = true ∧ (s.can x c).nextAt = none ∧ (s.can x c).taken = some a ∧ a.buf < 32 ∧ 255 < s.cg x F.CAN_ERR_TEC c +
        s.tecRise x c code arb again ∧ s.cg x F.CAN_ERR_STATE c = 1) ∧
    (∃ (s : State) (k : Fin 12) (x : Side) (c : Nat) (b : Nat), canSide k = x ∧ k.val % 6 = c ∧ (s.can x c).busOffAt = some b ∧ s.canHere x
        c = true ∧ s.cg x F.CAN_ERR_STATE c = 2 ∧ s.cb x F.CAN_CFG_AUTO_RECOVER c = true ∧ (s.can x c).recovering = false) ∧
    (∃ (s : State) (k : Fin 12) (x : Side) (c : Nat), canSide k = x ∧ k.val % 6 = c ∧ s.canHere x c = true ∧ (s.can x c).recovering = true ∧
        s.cb x F.CAN_STATUS_MODE_PENDING c = false ∧ s.cb x F.CAN_CFG_AFTER_RECOVERY c = false) :=
  ⟨⟨(w0.set (.side .b) F.CAN_STATUS_MODE_PENDING 3 1).set (.side .b) F.CAN_STATUS_PEND_MODE 3 2, 9, .b, 3, by decide +kernel⟩,
    ⟨w0.set (.side .a) F.CAN_STATUS_MODE 2 1, 2, .a, 2, true, by decide +kernel⟩,
    ⟨(w0.set (.side .b) F.CAN_STATUS_MODE 2 1).set (.side .b) F.CAN_ERR_TEC 2 90 |>.setSide .b
        { wSide with cans := [(2, { CanSt.init with taken := some ⟨3, 0x40000000, 0, 0, 0, [], 0⟩ })] }, 8, .b, 2, 2, false, 1, ⟨3,
        0x40000000, 0, 0, 0, [], 0⟩, by decide +kernel⟩,
    ⟨((w0.set (.side .b) F.CAN_STATUS_MODE 2 1).set (.side .b) F.CAN_ERR_TEC 2 248).set (.side .b) F.CAN_ERR_STATE 2 1 |>.setSide .b
        { wSide with cans := [(2, { CanSt.init with taken := some ⟨3, 0x40000000, 0, 0, 0, [], 0⟩ })] }, 8, .b, 2, 1, false, 0, ⟨3,
        0x40000000, 0, 0, 0, [], 0⟩, by decide +kernel⟩,
    ⟨(w0.set (.side .a) F.CAN_ERR_STATE 1 2).set (.side .a) F.CAN_CFG_AUTO_RECOVER 1 1 |>.setSide .a
        { wSide with cans := [(1, { CanSt.init with busOffAt := some 5 })] }, 1, .a, 1, 5, by decide +kernel⟩,
    ⟨(w0.set (.side .a) F.CAN_ERR_STATE 1 2).set (.side .a) F.CAN_ERR_TEC 1 300 |>.setSide .a
        { wSide with cans := [(1, { CanSt.init with busOffAt := some 5, recovering := true })] }, 1, .a, 1, by decide +kernel⟩⟩

theorem witness_CanReceive :
    (∃ (s : State) (k : Fin 12) (x : Side) (c : Nat) (f : CanFrame) (g : Word40), canSide k = x ∧ k.val % 6 = c ∧ s.canOn x c = true ∧
        (s.can x c).nextAt = none ∧ s.canMode x c ≠ 7 ∧ s.mayEnd x c g.toNat = true ∧ s.formatOk x c (bits f.h0.toNat 31 30) = false) ∧
    (∃ (s : State) (k : Fin 12) (x : Side) (c : Nat) (f : CanFrame) (g : Word40), canSide k = x ∧ k.val % 6 = c ∧ s.canOn x c = true ∧
        (s.can x c).nextAt = none ∧ s.canMode x c ≠ 7 ∧ s.mayEnd x c g.toNat = true ∧ s.cg x F.CAN_ERR_REC c = 0 ∧ s.awakeOpen = false ∧
        s.ember.confirm = none ∧ s.cb x F.CAN_TT_CFG_ENABLE c = false ∧ s.formatOk x c (bits f.h0.toNat 31 30) = true ∧ s.accepts x c
        f.h0.toNat = none ∧ s.cg x F.CAN_CFG_NONMATCH c = 0) ∧
    (∃ (s : State) (k : Fin 12) (x : Side) (c : Nat) (f : CanFrame) (g : Word40) (n : Nat) (i : Nat), canSide k = x ∧ k.val % 6 = c ∧
        s.canOn x c = true ∧ (s.can x c).nextAt = none ∧ s.canMode x c ≠ 7 ∧ s.mayEnd x c g.toNat = true ∧ s.cg x F.CAN_ERR_REC c = 0 ∧
        s.awakeOpen = false ∧ s.ember.confirm = none ∧ s.cb x F.CAN_TT_CFG_ENABLE c = false ∧ s.formatOk x c (bits f.h0.toNat 31 30) = true
        ∧ s.accepts x c f.h0.toNat = some n ∧ n < 128 ∧ s.cg x F.CAN_FLT_CFG_ACTION (c * 128 + n) = 1 ∧ s.cb x F.CAN_FLT_CFG_SEALED (c * 128
        + n) = false ∧ f.data.length ≤ s.elemRoom x c 1 ∧ s.cg x F.CAN_RXQ_IDX_PUT (2 * c) = i ∧ i + 1 < s.elems x c 1 ∧ (s.can x c).staged
        = [] ∧ s.copyingElem x c 1 i = false ∧ s.cg x F.CAN_RXQ_IDX_GET (2 * c) ≠ i + 1) ∧
    (∃ (s : State) (x : Side) (o : Origin) (k : Fin 6) (e : Fin 2) (v : BitVec 32), s.Permits x o (canPage k + 0x44 + 8 * e) 4 true ∧
        v.toNat.testBit 0 = true ∧ s.cg x F.CAN_RXQ_IDX_PUT (2 * k + e) ≠ s.cg x F.CAN_RXQ_IDX_GET (2 * k + e) ∧ s.cg x F.CAN_RXQ_IDX_GET (2
        * k + e) + 1 < s.elems x k (1 + e)) ∧
    (∃ (s : State) (x : Side) (o : Origin) (k : Fin 6) (v : BitVec 32), s.Permits x o (canPage k + 0x70) 4 true ∧ v.toNat.testBit 31 = true
        ∧ v.toNat.testBit 30 = false ∧ (s.cg x F.CAN_SHADOW_STATUS_BUSY k).testBit (bits v.toNat 29 29) = false ∧ bits v.toNat 11 0 <
        s.elems x k (bits v.toNat 25 24)) ∧
    (∃ (s : State) (x : Side) (o : Origin) (k : Fin 6) (v : BitVec 32), s.Permits x o (canPage k + 0x70) 4 true ∧ v.toNat.testBit 31 = true
        ∧ v.toNat.testBit 30 = true ∧ bits v.toNat 25 24 = 0 ∧ (s.cg x F.CAN_SHADOW_STATUS_BUSY k).testBit (bits v.toNat 29 29) = false ∧
        bits v.toNat 11 0 < s.elems x k 0) ∧
    (∃ (s : State) (x : Side) (o : Origin) (k : Fin 6) (v : BitVec 32), s.Permits x o (canPage k + 0x70) 4 true ∧ v.toNat.testBit 31 = true
        ∧ s.elems x k (bits v.toNat 25 24) ≤ bits v.toNat 11 0) ∧
    (∃ (s : State) (k : Fin 12) (x : Side) (c : Nat) (b : Fin 2) (a : ShadowJob), canSide k = x ∧ k.val % 6 = c ∧ (s.can x c).shadows.find?
        (fun a => a.s == (b : Nat)) = some a ∧ s.canHere x c = true ∧ (s.can x c).staged = [] ∧ a.dir = false ∧ a.data.length ≤ 2080) ∧
    (∃ (s : State) (k : Fin 12) (x : Side) (c : Nat) (b : Fin 2) (a : ShadowJob), canSide k = x ∧ k.val % 6 = c ∧ (s.can x c).shadows.find?
        (fun a => a.s == (b : Nat)) = some a ∧ s.canHere x c = true ∧ (s.can x c).staged = [] ∧ a.dir = true ∧ a.region = 0 ∧ s.isTaken x c
        a.index = false ∧ s.elemBytes x c 0 ≤ 2080 ∧ c < 6) :=
  ⟨⟨w0.set (.side .a) F.CAN_STATUS_MODE 2 1, 2, .a, 2, ⟨0, 0, 0, 0, []⟩, 250, by decide +kernel⟩,
    ⟨w0.set (.side .a) F.CAN_STATUS_MODE 2 1, 2, .a, 2, ⟨0x40000000, 0, 0, 0, []⟩, 0, by decide +kernel⟩,
    ⟨((w0.set (.side .a) F.CAN_STATUS_MODE 2 1).set (.side .a) F.CAN_RAM_R_COUNT 9 4 |>.set (.side .a) F.CAN_RAM_R_START 9 16).set (.side
        .a) F.CAN_FLT_CFG_ACTION 261 1, 2, .a, 2, ⟨0x40000000, 2, 0, 0, [1, 2]⟩, 9000, 5, 0, by decide +kernel⟩,
    ⟨((w0.set (.side .a) F.CAN_STATUS_MODE 2 1).set (.side .a) F.CAN_RAM_R_COUNT 9 4 |>.set (.side .a) F.CAN_RAM_R_START 9 16).set (.side
        .a) F.CAN_RXQ_IDX_PUT 4 2, .a, .hart 0, 2, 0, 1, by decide +kernel⟩,
    ⟨(w0.set (.side .a) F.CAN_STATUS_MODE 2 1).set (.side .a) F.CAN_RAM_R_COUNT 9 4 |>.set (.side .a) F.CAN_RAM_R_START 9 16, .a, .hart 0,
        2, 0xA1000002, by decide +kernel⟩,
    ⟨w0.set (.side .b) F.CAN_RAM_R_COUNT 20 4, .b, .hart 0, 5, 0xC0000003, by decide +kernel⟩,
    ⟨w0.set (.side .b) F.CAN_RAM_R_COUNT 20 4, .b, .hart 0, 5, 0xC0000004, by decide +kernel⟩,
    ⟨(((w0.set (.side .a) F.CAN_STATUS_MODE 2 1).set (.side .a) F.CAN_RAM_R_COUNT 9 4 |>.set (.side .a) F.CAN_RAM_R_START 9 16).setSide .a
        { wSide with cans := [(2, { CanSt.init with shadows := [⟨1, false, 1, 3, [9, 8, 7]⟩] })] }), 2, .a, 2, 1, ⟨1, false, 1, 3, [9, 8,
        7]⟩, by decide +kernel⟩,
    ⟨(((w0.set (.side .b) F.CAN_RAM_R_COUNT 8 4).storeLE .b (canPage 2 + 0x3000) 8 0x123456).setSide .b
        { wSide with cans := [(2, { CanSt.init with shadows := [⟨1, true, 0, 3, []⟩] })] }), 8, .b, 2, 1, ⟨1, true, 0, 3, []⟩,
        by decide +kernel⟩⟩

theorem witness_CanTransmit :
    (∃ (s : State) (x : Side) (o : Origin) (k : Fin 6), s.Permits x o (canPage k + 0x50) 4 true) ∧
    (∃ (s : State) (x : Side) (o : Origin) (k : Fin 6), s.Permits x o (canPage k + 0x58) 4 true ∧ (s.can x k).taken = none ∧ (s.can x
        k).next = none) ∧
    (∃ (s : State) (k : Fin 12) (x : Side) (c : Nat) (b : Nat) (h0 : Nat) (h1 : Nat), canSide k = x ∧ k.val % 6 = c ∧ s.canOn x c = true ∧
        sendsMode (s.canMode x c) = true ∧ (s.can x c).taken = none ∧ s.nextScheduled x c = none ∧ s.cb x F.CAN_TT_STATUS_RUNNING c = false
        ∧ s.winner x c = some b ∧ s.elemWord x (s.elemAddr x c 0 b) 0 = h0 ∧ s.elemWord x (s.elemAddr x c 0 b) 1 = h1 ∧ s.formatOk x c (bits
        h0 31 30) = true ∧ dataLen h0 h1 ≤ s.elemRoom x c 0 ∧ h1.testBit 7 = false ∧ (s.can x c).retime = none ∧ s.guardCan x c (frameBits
        h0 (dataLen h0 h1)) = true) ∧
    (∃ (s : State) (k : Fin 12) (x : Side) (c : Nat) (a : CanTx), canSide k = x ∧ k.val % 6 = c ∧ s.canOn x c = true ∧ (s.can x c).nextAt =
        none ∧ (s.can x c).taken = some a ∧ (s.can x c).takenSealed = false ∧ a.buf < 32 ∧ s.canMode x c ≠ 7 ∧ s.cg x F.CAN_ERR_TEC c = 0 ∧
        s.cb x F.CAN_TXB_CFG_SCHED (32 * c + a.buf) = false) ∧
    (∃ (s : State) (k : Fin 12) (x : Side) (c : Nat) (w : Word40), canSide k = x ∧ k.val % 6 = c ∧ s.canHere x c = true ∧ (s.can x c).retime
        = none ∧ s.withinTxen x c w.toNat = true ∧ matrixMode (s.canMode x c) = true ∧ s.cb x F.CAN_TT_CFG_ENABLE c = true ∧ s.cg x
        F.CAN_TT_CFG_ROLE c = 0 ∧ s.ttWrong x c = false ∧ s.cg x F.CAN_ERR_STATE c ≠ 2 ∧ (s.can x c).taken = none ∧ (s.can x c).next = none
        ∧ s.guardCan x c (frameBits (2 ^ 30) 1) = true ∧ (s.can x c).guard = []) ∧
    (∃ (s : State) (k : Fin 12) (x : Side) (c : Nat) (w : Fin 32) (r : Nat), canSide k = x ∧ k.val % 6 = c ∧ (s.can x c).refAt = some r ∧
        s.canHere x c = true ∧ s.cb x F.CAN_TT_STATUS_RUNNING c = true ∧ 0 < w.val ∧ w.val = s.cg x F.CAN_TT_STATUS_WINDOW c + 1 ∧ s.winUsed
        x c w = true ∧ (s.matEntry x c (s.cg x F.CAN_TT_STATUS_CYCLE c) w).1 = 3 ∧ (s.matEntry x c (s.cg x F.CAN_TT_STATUS_CYCLE c) w).2.2 =
        false ∧ (s.can x c).next = none) ∧
    (∃ (s : State) (k : Fin 12) (x : Side) (c : Nat) (w : Fin 32) (e : Word40) (r : Nat) (a : CanTx), canSide k = x ∧ k.val % 6 = c ∧ (s.can
        x c).refAt = some r ∧ s.canHere x c = true ∧ s.cb x F.CAN_TT_STATUS_RUNNING c = true ∧ 0 < w.val ∧ w.val = s.cg x
        F.CAN_TT_STATUS_WINDOW c + 1 ∧ s.winUsed x c w = true ∧ ((s.matEntry x c (s.cg x F.CAN_TT_STATUS_CYCLE c) w).1 = 1 ∨ (s.matEntry x c
        (s.cg x F.CAN_TT_STATUS_CYCLE c) w).1 = 2) ∧ (s.matEntry x c (s.cg x F.CAN_TT_STATUS_CYCLE c) w).2.1 = a.buf ∧ (s.matEntry x c (s.cg
        x F.CAN_TT_STATUS_CYCLE c) w).2.2 = false ∧ (s.can x c).next = some a ∧ (s.can x c).nextMade = true ∧ (s.can x c).nextAt = none ∧
        (s.can x c).taken = none ∧ (s.can x c).retime = none ∧ s.cg x F.CAN_ERR_STATE c ≠ 2 ∧ s.withinTxen x c e.toNat = true ∧ (s.can x
        c).guard = [] ∧ s.guardCan x c (frameBits a.h0 a.data.length) = true) ∧
    (∃ (s : State) (k : Fin 12) (x : Side) (c : Nat) (b : Nat) (h0 : Nat) (h1 : Nat), canSide k = x ∧ k.val % 6 = c ∧ s.canOn x c = true ∧
        sendsMode (s.canMode x c) = true ∧ s.nextScheduled x c = some b ∧ s.elemWord x (s.elemAddr x c 0 b) 0 = h0 ∧ s.elemWord x
        (s.elemAddr x c 0 b) 1 = h1 ∧ s.formatOk x c (bits h0 31 30) = true ∧ dataLen h0 h1 ≤ s.elemRoom x c 0 ∧ h1.testBit 7 = false) ∧
    (∃ (s : State) (k : Fin 12) (x : Side) (c : Nat) (r : Nat), canSide k = x ∧ k.val % 6 = c ∧ (s.can x c).refAt = some r ∧ (s.can x
        c).next = none ∧ s.canHere x c = true ∧ s.cb x F.CAN_TT_STATUS_RUNNING c = true ∧ s.cg x F.CAN_TT_CFG_ROLE c = 1) :=
  ⟨⟨(((w0.set (.side .a) F.CAN_STATUS_MODE 2 1).set (.side .a) F.CAN_RAM_R_COUNT 8 8).set (.side .a) F.CAN_NBT_BRP_M1 2 7), .a, .hart 0, 2,
        by decide +kernel⟩,
    ⟨(((w0.set (.side .a) F.CAN_STATUS_MODE 2 1).set (.side .a) F.CAN_RAM_R_COUNT 8 8).set (.side .a) F.CAN_NBT_BRP_M1 2 7).set (.side .a)
        F.CAN_TX_PEND 2 3, .a, .hart 0, 2, by decide +kernel⟩,
    ⟨(((((w0.set (.side .a) F.CAN_STATUS_MODE 2 1).set (.side .a) F.CAN_RAM_R_COUNT 8 8).set (.side .a) F.CAN_NBT_BRP_M1 2 7).set (.side .a)
        F.CAN_TX_PEND 2 4).set (.side .a) F.CAN_GUARD 2 100).storeLE .a (canPage 2 + 0x8000 + 80) 8 0x240000000, 2, .a, 2, 2, 0x40000000, 2,
        by decide +kernel⟩,
    ⟨(((w0.set (.side .a) F.CAN_STATUS_MODE 2 1).set (.side .a) F.CAN_RAM_R_COUNT 8 8).set (.side .a) F.CAN_NBT_BRP_M1 2 7).set (.side .a)
        F.CAN_TX_PEND 2 4 |>.setSide .a { wSide with cans := [(2, { CanSt.init with taken := some ⟨2, 0x40000000, 2, 0, 0, [7, 8], 0⟩ })] },
        2, .a, 2, ⟨2, 0x40000000, 2, 0, 0, [7, 8], 0⟩, by decide +kernel⟩,
    ⟨(((w0.set (.side .a) F.CAN_STATUS_MODE 2 1).set (.side .a) F.CAN_RAM_R_COUNT 8 8).set (.side .a) F.CAN_NBT_BRP_M1 2 7).set (.side .a)
        F.CAN_TT_CFG_ENABLE 2 1 |>.set (.side .a) F.CAN_TT_CYCLE 2 1000000 |>.set (.side .a) F.CAN_GUARD 2 100, 2, .a, 2, 900,
        by decide +kernel⟩,
    ⟨(((w0.set (.side .a) F.CAN_STATUS_MODE 2 1).set (.side .a) F.CAN_RAM_R_COUNT 8 8).set (.side .a) F.CAN_NBT_BRP_M1 2 7).set (.side .a)
        F.CAN_TT_STATUS_RUNNING 2 1 |>.set (.side .a) F.CAN_TT_CYCLE 2 1000000 |>.set (.side .a) F.CAN_TT_WIN 65 50 |>.set (.side .a)
        F.CAN_TT_MAT 1024 0x300 |>.setSide .a { wSide with cans := [(2, { CanSt.init with refAt := some 0 })] }, 2, .a, 2, 1, 0,
        by decide +kernel⟩,
    ⟨(((w0.set (.side .a) F.CAN_STATUS_MODE 2 1).set (.side .a) F.CAN_RAM_R_COUNT 8 8).set (.side .a) F.CAN_NBT_BRP_M1 2 7).set (.side .a)
        F.CAN_TT_STATUS_RUNNING 2 1 |>.set (.side .a) F.CAN_TT_CYCLE 2 1000000 |>.set (.side .a) F.CAN_TT_WIN 65 50 |>.set (.side .a)
        F.CAN_TT_MAT 1024 0x900 |>.set (.side .a) F.CAN_TXB_CFG_SCHED 66 1 |>.set (.side .a) F.CAN_GUARD 2 100 |>.setSide .a
        { wSide with cans := [(2, { CanSt.init with refAt := some 0, next := some ⟨2, 0x40000000, 2, 0, 0, [7, 8], 0⟩, nextMade := true })] },
        2, .a, 2, 1, 77, 0, ⟨2, 0x40000000, 2, 0, 0, [7, 8], 0⟩, by decide +kernel⟩,
    ⟨(((((w0.set (.side .a) F.CAN_STATUS_MODE 2 1).set (.side .a) F.CAN_RAM_R_COUNT 8 8).set (.side .a) F.CAN_NBT_BRP_M1 2 7).set (.side .a)
        F.CAN_TX_PEND 2 4).set (.side .a) F.CAN_TT_STATUS_RUNNING 2 1 |>.set (.side .a) F.CAN_TT_CYCLE 2 1000000 |>.set (.side .a)
        F.CAN_TT_WIN 65 50 |>.set (.side .a) F.CAN_TT_MAT 1024 0x900 |>.set (.side .a) F.CAN_TXB_CFG_SCHED 66 1 |>.setSide .a
        { wSide with cans := [(2, { CanSt.init with refAt := some 0, taken := some ⟨3, 0x40000000, 2, 0, 0, [7, 8], 0⟩ })] }).storeLE .a
        (canPage 2 + 0x8000 + 80) 8 0x240000000, 2, .a, 2, 2, 0x40000000, 2, by decide +kernel⟩,
    ⟨w0.set (.side .b) F.CAN_TT_STATUS_RUNNING 2 1 |>.set (.side .b) F.CAN_TT_CFG_ROLE 2 1 |>.setSide .b
        { wSide with cans := [(2, { CanSt.init with refAt := some 0 })] }, 8, .b, 2, 0, by decide +kernel⟩⟩

theorem witness_DoorAccesses :
    (∃ (s : State) (x : Side) (o : Origin) (n : Fin 32) (w : Word40) (l : List Nat), s.Permits x o (doorAddr n 0) 8 true ∧ s.doorRefuses x o
        n true = none ∧ s.credits x n ≠ 0 ∧ (s.src x n).asm ++ [w.toNat] = l) ∧
    (∃ (s : State) (x : Side) (o : Origin) (n : Fin 32), s.Permits x o (doorAddr n 0) 8 true ∧ s.doorRefuses x o n true = none ∧ s.credits x
        n = 0) ∧
    (∃ (s : State) (x : Side) (o : Origin) (n : Fin 32) (c : Nat), s.Permits x o (doorAddr n 0) 8 true ∧ s.doorRefuses x o n true = some c ∧
        c ≠ 15) ∧
    (∃ (s : State) (x : Side) (o : Origin) (n : Fin 32), s.Permits x o (doorAddr n 0x1C) 4 true ∧ s.doorRefuses x o n true = none) ∧
    (∃ (s : State) (x : Side) (o : Origin) (n : Fin 32) (v : BitVec 32) (l : List Nat), s.Permits x o (doorAddr n 0x20) 4 true ∧
        s.doorRefuses x o n true = none ∧ s.credits x n ≠ 0 ∧ (s.src x n).asm ++ [((s.src x n).hi * 2 ^ 32 + v.toNat) % 2 ^ 40] = l) ∧
    (∃ (s : State) (x : Side) (o : Origin) (n : Fin 32) (w : Nat) (l : List Nat), s.Permits x o (doorAddr n 8) 8 false ∧ s.doorRefuses x o n
        true = none ∧ (s.src x n).rpl = w :: l) ∧
    (∃ (s : State) (x : Side) (o : Origin) (n : Fin 32), s.Permits x o (doorAddr n 8) 8 false ∧ s.doorRefuses x o n true = none ∧ (s.src x
        n).rpl = []) ∧
    (∃ (s : State) (x : Side) (o : Origin) (n : Fin 32) (w : Nat) (l : List Nat), s.Permits x o (doorAddr n 0x24) 4 false ∧ s.doorRefuses x
        o n true = none ∧ (s.src x n).rpl = w :: l) ∧
    (∃ (s : State) (x : Side) (o : Origin) (n : Fin 32), s.Permits x o (doorAddr n 0x14) 4 true ∧ s.doorRefuses x o n false = none) :=
  ⟨⟨((w0).set (.side .b) F.DOOR_OWNER_ENABLED 9 1).setSrc .b 9 { Src.empty with asm := [0x005001000] }, .b, .hart 2, 9, 0x1234,
        [0x005001000, 0x1234], by decide +kernel⟩,
    ⟨((w0).set (.side .b) F.DOOR_OWNER_ENABLED 9 1).setSrc .b 9 { Src.empty with asm := List.replicate 64 0x1F000 }, .b, .hart 2, 9,
        by decide +kernel⟩,
    ⟨w0, .b, .hart 2, 9, 21, by decide +kernel⟩,
    ⟨((w0).set (.side .b) F.DOOR_OWNER_ENABLED 9 1).setSrc .b 9 Src.empty, .b, .hart 2, 9, by decide +kernel⟩,
    ⟨((w0).set (.side .b) F.DOOR_OWNER_ENABLED 9 1).setSrc .b 9 { Src.empty with hi := 0xB0 }, .b, .hart 2, 9, 0x10000, [0xB000010000],
        by decide +kernel⟩,
    ⟨((w0).set (.side .b) F.DOOR_OWNER_ENABLED 9 1).setSrc .b 9 { Src.empty with rpl := [7, 8] }, .b, .hart 2, 9, 7, [8], by decide +kernel⟩,
    ⟨((w0).set (.side .b) F.DOOR_OWNER_ENABLED 9 1).setSrc .b 9 Src.empty, .b, .hart 2, 9, by decide +kernel⟩,
    ⟨((w0).set (.side .b) F.DOOR_OWNER_ENABLED 9 1).setSrc .b 9 { Src.empty with rpl := [0x7700000008, 8] }, .b, .hart 2, 9, 0x7700000008,
        [8], by decide +kernel⟩,
    ⟨((w0).set (.side .b) F.DOOR_OWNER_ENABLED 9 1).setSrc .b 9 { Src.empty with asm := [0x005001000], rpl := [4] }, .b, .hart 2, 9,
        by decide +kernel⟩⟩

theorem witness_StokerTakes :
    (∃ (s : State) (x : Side) (i : Fin 33) (k : Packet) (q : List Packet) (j : Job), s.Takes x i k q ∧ j = ⟨x, i, (s.side x).takes, s.now,
        k⟩ ∧ pathOf k.code ≠ .fast ∧ (s.side x).chromirDown = false ∧ ((s.judging x i j).inc (.side x) F.STOKER_CHROMIR_COUNT 0).refusal x i
        k = none) ∧
    (∃ (s : State) (x : Side) (i : Fin 33) (k : Packet) (q : List Packet) (j : Job) (d : Nat), s.Takes x i k q ∧ j = ⟨x, i, (s.side
        x).takes, s.now, k⟩ ∧ pathOf k.code = .fast ∧ grateDie k = some d ∧ ((s.judging x i j).inc (.side x) F.STOKER_FAST_COUNT 0).refusal
        x i k = none) ∧
    (∃ (s : State) (x : Side) (i : Fin 33) (k : Packet) (q : List Packet) (j : Job) (st : Nat) (de : Nat), s.Takes x i k q ∧ s.pairDoor x ≠
        some i.val ∧ j = ⟨x, i, (s.side x).takes, s.now, k⟩ ∧ pathOf k.code ≠ .fast ∧ (s.side x).chromirDown = false ∧ st ≠ stAbsent ∧ st ≠
        stDelayed ∧ (s.src x i).out.any (fun a => a.seq == j.seq) = false ∧ ((s.judging x i j).inc (.side x) F.STOKER_CHROMIR_COUNT
        0).refusal x i k = some (st, de)) ∧
    (∃ (s : State) (x : Side) (i : Fin 33) (k : Packet) (q : List Packet), s.Takes x i k q ∧ s.pairDoor x ≠ some i.val ∧ pathOf k.code ≠
        .fast ∧ (s.side x).chromirDown = true ∧ (s.src x i).out.any (fun a => a.seq == (s.side x).takes) = false) ∧
    (∃ (s : State) (x : Side) (i : Fin 33) (k : Packet) (q : List Packet), s.Reaches x i k q ∧ k.tag ≠ 0xFF ∧ (s.src x i).out.any (fun a =>
        a.tag == k.tag) = true ∧ s.pairDoor x ≠ some i.val) ∧
    (∃ (s : State) (x : Side) (i : Fin 33) (k : Packet) (q : List Packet), s.up x = true ∧ (s.side x).taking = true ∧ (s.src x i).cmd = k ::
        q ∧ s.passedOver x k = false ∧ (s.src x i).room < reserveOf k.code ∧ i.val < 32 ∧ s.get (.side x) F.DOOR_STATUS_STALL i = 0) ∧
    (∃ (s : State) (x : Side) (d : Fin 4) (r : Reply) (q : List Reply), Tab.at [] (s.side x).rpls d = r :: q ∧ r.job.side = x ∧ s.Open r.job
        ∧ r.status ≠ stDelayed) :=
  ⟨⟨((w0).set (.side .a) F.DOOR_OWNER_ENABLED 2 1).setSrc .a 2 { Src.empty with cmd := [⟨0x005, 3, 0, 0, [1, 2], false⟩] }, .a, 2, ⟨0x005,
        3, 0, 0, [1, 2], false⟩, [], ⟨.a, 2, 0, 20000000000, ⟨0x005, 3, 0, 0, [1, 2], false⟩⟩, by decide +kernel⟩,
    ⟨((w0).set (.side .a) F.DOOR_OWNER_ENABLED 2 1).setSrc .a 2 { Src.empty with cmd := [⟨0x204, 3, 0, 17, [], false⟩] }, .a, 2, ⟨0x204, 3,
        0, 17, [], false⟩, [], ⟨.a, 2, 0, 20000000000, ⟨0x204, 3, 0, 17, [], false⟩⟩, 1, by decide +kernel⟩,
    ⟨((w0.set (.side .a) F.PAIR_CFG_MODE 0 1).set (.side .a) F.DOOR_OWNER_ENABLED 2 1).setSrc .a 2
        { Src.empty with cmd := [⟨0x00F, 3, 0, 0, [1, 2], false⟩] }, .a, 2, ⟨0x00F, 3, 0, 0, [1, 2], false⟩, [], ⟨.a, 2, 0, 20000000000,
        ⟨0x00F, 3, 0, 0, [1, 2], false⟩⟩, stOpcode, 0, by decide +kernel⟩,
    ⟨((w0.setSide .a { wSide with chromirDown := true }).set (.side .a) F.DOOR_OWNER_ENABLED 2 1).setSrc .a 2
        { Src.empty with cmd := [⟨0x005, 3, 0, 0, [1, 2], false⟩] }, .a, 2, ⟨0x005, 3, 0, 0, [1, 2], false⟩, [], by decide +kernel⟩,
    ⟨((w0).set (.side .a) F.DOOR_OWNER_ENABLED 2 1).setSrc .a 2
        { Src.empty with cmd := [⟨0x005, 3, 0, 0, [1, 2], false⟩], out := [⟨3, 0, 4, 0⟩] }, .a, 2, ⟨0x005, 3, 0, 0, [1, 2], false⟩, [],
        by decide +kernel⟩,
    ⟨((w0).set (.side .a) F.DOOR_OWNER_ENABLED 2 1).setSrc .a 2
        { Src.empty with cmd := [⟨0x005, 3, 0, 0, [1, 2], false⟩], rpl := List.replicate 40 9 }, .a, 2, ⟨0x005, 3, 0, 0, [1, 2], false⟩, [],
        by decide +kernel⟩,
    ⟨(wOpen w0).setSide .a { (wOpen w0).side .a with rpls := [(2, [⟨wJob 0x204 33 [], 0, 0, [1, 2]⟩])] }, .a, 2, ⟨wJob 0x204 33 [], 0, 0,
        [1, 2]⟩, [], by decide +kernel⟩⟩

theorem witness_ChromirSupervision :
    (∃ (s : State) (x : Side) (b : Nat × Job), s.up x = true ∧ (s.side x).chromirDown = false ∧ firstBound (s.bounds x) = some b ∧ (s.side
        x).claimReqs.any (fun q => q.1 == b.2) = false) ∧
    (∃ (s : State) (x : Side) (j : Job), s.up x = true ∧ (s.side x).chromirDown = false ∧ (s.side x).chromirQ = [j] ∧ (s.side x).longQ = []
        ∧ (s.side x).claimReqs = [] ∧ (s.side x).modeReqs = [] ∧ s.measuring x = [] ∧ s.commitWaits x = [] ∧ j.side = x ∧ s.Open j ∧
        j.pkt.code = 0x005) ∧
    (∃ (s : State) (x : Side), s.is (.side x) F.STOKER_STATE_RESTARTING 0 = true) ∧
    (∃ (s : State) (x : Side) (d : Fin 4) (j : Job), Tab.at [] (s.side x).links d = [j] ∧ Tab.at [] (s.side x).rpls d = [] ∧ j.side = x ∧
        (s.src x j.src).out = [⟨j.pkt.tag, j.seq, reserveOf j.pkt.code, j.pkt.world⟩] ∧ s.pairDoor x ≠ some j.src) ∧
    (∃ (s : State) (x : Side) (j : Job) (q : List Job), s.is (.side x) F.STOKER_STATE_UPDATING 0 = true ∧ (s.side x).longQ = j :: q ∧ j.side
        = x ∧ s.Open j) ∧
    (∃ (s : State) (x : Side) (j : Job) (q : List Job), s.is (.side x) F.STOKER_STATE_UPDATING 0 = true ∧ (s.side x).longQ = j :: q ∧ j.side
        = x ∧ s.Open j) :=
  ⟨⟨wHead w0 (wJob 0x005 0 []), .a, (1000900, wJob 0x005 0 []), by decide +kernel⟩,
    ⟨wHead w0 (wJob 0x005 0 []), .a, wJob 0x005 0 [], by decide +kernel⟩,
    ⟨w0.set (.side .b) F.STOKER_STATE_RESTARTING 0 1, .b, by decide +kernel⟩,
    ⟨(w0.setSrc .a 2 { Src.empty with out := [⟨5, 7, reserveOf 0x204, 0⟩] }).setSide .a
        { (w0.setSrc .a 2 { Src.empty with out := [⟨5, 7, reserveOf 0x204, 0⟩] }).side .a with links := [(0, [wJob 0x204 3 []])] }, .a, 0,
        wJob 0x204 3 [], by decide +kernel⟩,
    ⟨(wLong w0 (wJob 0x105 0x200 [0, 0])).set (.side .a) F.STOKER_STATE_UPDATING 0 1, .a, wJob 0x105 0x200 [0, 0], [], by decide +kernel⟩,
    ⟨(wLong w0 (wJob 0x105 0x200 [0, 0])).set (.side .a) F.STOKER_STATE_UPDATING 0 1, .a, wJob 0x105 0x200 [0, 0], [], by decide +kernel⟩⟩

theorem witness_StokePort :
    (∃ (s : State) (x : Side), (s.side x).run ≠ .down ∧ s.is (.side x) F.STOKE_STATUS_ACTIVE 0 = false ∧ s.is (.side x) F.STOKE_CFG_ENABLE 0
        = true) ∧
    (∃ (s : State) (x : Side), (s.side x).run ≠ .down ∧ s.is (.side x) F.STOKE_STATUS_ACTIVE 0 = false ∧ s.is (.side x) F.STOKE_CFG_ENABLE 0
        = false) ∧
    (∃ (s : State) (x : Side), s.is (.side x) F.STOKE_STATUS_ACTIVE 0 = false) ∧
    (∃ (s : State) (x : Side) (l : List Word40) (e : Fin 40) (w : List Nat), s.is (.side x) F.STOKE_STATUS_ACTIVE 0 = true ∧ (s.side x).sdo
        ≠ [] ∧ e.val = 0 ∧ l.map (fun a => a.toNat) = w ∧ w.headD 0xFFFFFFFFFF ≠ 0xFFFFFFFFFF ∧ w.length = hdrCount (w.headD 0) + 1 ∧
        w.length ≤ s.credits x 32) ∧
    (∃ (s : State) (x : Side) (e : Fin 40), s.is (.side x) F.STOKE_STATUS_ACTIVE 0 = true ∧ (s.side x).sdo ≠ [] ∧ e.val ≠ 0) :=
  ⟨⟨w0.set (.side .b) F.STOKE_CFG_ENABLE 0 1 |>.setSide .b { wSide with stokeStatus := 0x30 }, .b, by decide +kernel⟩,
    ⟨w0.set (.side .b) F.STOKE_CFG_ENABLE 0 0, .b, by decide +kernel⟩,
    ⟨w0, .b, by decide +kernel⟩,
    ⟨(w0.setSide .b { wSide with sdo := [0xFFFFFFFFFF] }).set (.side .b) F.STOKE_STATUS_ACTIVE 0 1, .b, [0x0050001000, 7], 0, [0x0050001000,
        7], by decide +kernel⟩,
    ⟨(w0.setSide .b { wSide with sdo := [0xFFFFFFFFFF] }).set (.side .b) F.STOKE_STATUS_ACTIVE 0 1, .b, 3, by decide +kernel⟩⟩

theorem witness_ClaimsAndCopies :
    (∃ (s : State) (x : Side) (o : Origin) (w : Fin 8), s.Permits x o (0x40132020 + 0x1000 * w) 4 false ∧ s.intrNext x w = none) ∧
    (∃ (s : State) (x : Side) (o : Origin) (w : Fin 8) (n : Nat), s.Permits x o (0x40132020 + 0x1000 * w) 4 false ∧ s.intrNext x w = some n
        ∧ n < 104) ∧
    (∃ (s : State) (x : Side) (o : Origin) (n : Fin 32) (v : BitVec 32), s.Permits x o (dmaAddr n 0x14) 4 true ∧ s.present (.dma x) = true ∧
        v.toNat.testBit 0 = true ∧ s.get (.side x) F.DMA_STATUS_BUSY n = 0 ∧ bits v.toNat 3 1 = 1 ∧ s.get (.side x) F.DMA_LEN n ≠ 0) ∧
    (∃ (s : State) (x : Side) (o : Origin) (n : Fin 32) (v : BitVec 32), s.Permits x o (dmaAddr n 0x14) 4 true ∧ s.present (.dma x) = true ∧
        v.toNat.testBit 0 = true ∧ s.get (.side x) F.DMA_STATUS_BUSY n = 0 ∧ s.get (.side x) F.DMA_LEN n = 0) ∧
    (∃ (s : State) (x : Side) (n : Fin 32) (a : Nat) (b : Nat), s.get (.side x) F.DMA_STATUS_BUSY n = 1 ∧ s.get (.side x) F.DMA_CTRL_MODE n
        = 0 ∧ s.present (.dma x) = true ∧ s.fabric x = true ∧ s.get (.side x) F.DMA_LEN n = 8 ∧ s.get (.side x) F.DMA_SRC n = a ∧ s.get
        (.side x) F.DMA_DST n = b ∧ a % 8 = 0 ∧ b % 8 = 0 ∧ inSram a 8 = true ∧ inSram b 8 = true ∧ s.wotAllows x a (s.worldOf x (.dma n)) 0
        = true ∧ s.wotAllows x b (s.worldOf x (.dma n)) 1 = true ∧ s.lockedHere x (.dma n) a 8 = false ∧ s.lockedHere x (.dma n) b 8 = false
        ∧ s.mirLockedRange x b 8 = false ∧ s.wotRange x a 8 (s.worldOf x (.dma n)) 0 = true ∧ s.wotRange x b 8 (s.worldOf x (.dma n)) 1 =
        true ∧ s.dmaInBridge x n = false ∧ Tab.at 0 (s.side x).dmaData n = 0) ∧
    (∃ (s : State) (x : Side) (o : Origin) (v : BitVec 32), s.Permits x o 0x40130018 4 true ∧ v.toNat.testBit 0 = true ∧ s.crossBoth = true
        ∧ (s.side x).ckpt = none) :=
  ⟨⟨w0, .a, .hart 0, 0, by decide +kernel⟩,
    ⟨((w0.set (.side .a) F.INTR_ENABLE 0 4).set (.side .a) F.INTR_PENDING 0 12).setSrc .a 2 { Src.empty with rpl := [1] }, .a, .hart 0, 0,
        2, by decide +kernel⟩,
    ⟨w0.set (.side .a) F.DMA_LEN 7 64, .a, .hart 0, 7, 3, by decide +kernel⟩,
    ⟨w0, .a, .hart 0, 7, 3, by decide +kernel⟩,
    ⟨(((w0.set (.side .a) F.DMA_STATUS_BUSY 7 1).set (.side .a) F.DMA_LEN 7 8).set (.side .a) F.DMA_SRC 7 0x10000000).set (.side .a)
        F.DMA_DST 7 0x10000100 |>.setByte .a 0x10000003 77, .a, 7, 0x10000000, 0x10000100, by decide +kernel⟩,
    ⟨(w0.set (.side .b) F.SIDE_STATUS_CROSS_UP 0 1).set (.side .a) F.SIDE_STATUS_CROSS_UP 0 1 |>.setSide .b { wSide with dirty := [64] },
        .b, .hart 0, 1, by decide +kernel⟩⟩

theorem witness_SafetyPair :
    (∃ (s : State) (x : Side) (c : Fin 2), s.Permits x (.pair c) (pairAddr 0x10) 4 true ∧ s.get (.side x) F.PAIR_CFG_MODE 0 = 0) ∧
    (∃ (s : State) (x : Side) (c : Fin 2) (v : BitVec 32) (l : List Nat), s.Permits x (.pair c) (pairAddr 0x14) 4 true ∧ s.get (.side x)
        F.PAIR_CFG_MODE 0 = 0 ∧ (s.pairCore x c).out.length + (s.pairCore x c).done.foldl (fun n a => n + a.1.length) 0 < 64 ∧ (s.pairCore x
        c).out ++ [(s.pairCore x c).hi * 2 ^ 32 + v.toNat] = l ∧ l.length ≠ bits (l.headD 0) 16 12 + 1) ∧
    (∃ (s : State) (x : Side) (v : BitVec 32) (l : List Nat) (a : Nat) (b : Nat) (d : Nat), s.Permits x (.pair 1) (pairAddr 0x14) 4 true ∧
        s.get (.side x) F.PAIR_CFG_MODE 0 = 0 ∧ (s.side x).pair0.done = [(l, a, b)] ∧ (s.side x).pair1.done = [] ∧ (s.side
        x).pair1.out.length < 64 ∧ (s.side x).pair1.out ++ [(s.side x).pair1.hi * 2 ^ 32 + v.toNat] = l ∧ l.length = bits (l.headD 0) 16 12
        + 1 ∧ a ≤ s.now ∧ s.now ≤ b ∧ s.get (.side x) F.PAIR_CFG_DOOR 0 = d ∧ l.length ≤ s.credits x d) ∧
    (∃ (s : State) (x : Side) (v : BitVec 32) (l : List Nat) (m : List Nat) (a : Nat) (b : Nat), s.Permits x (.pair 1) (pairAddr 0x14) 4
        true ∧ s.get (.side x) F.PAIR_CFG_MODE 0 = 0 ∧ (s.side x).pair0.done = [(m, a, b)] ∧ (s.side x).pair1.done = [] ∧ (s.side
        x).pair1.out.length < 64 ∧ (s.side x).pair1.out ++ [(s.side x).pair1.hi * 2 ^ 32 + v.toNat] = l ∧ l.length = bits (l.headD 0) 16 12
        + 1 ∧ m ≠ l ∧ s.now ≤ b ∧ ((s.side x.other).waits = [] ∧ (s.side x.other).netifHeld = false ∧ (s.side x.other).tallyHeld = none)) ∧
    (∃ (s : State) (x : Side) (v : BitVec 32) (l : List Nat) (m : List Nat) (a : Nat) (b : Nat), s.Permits x (.pair 1) (pairAddr 0x14) 4
        true ∧ s.get (.side x) F.PAIR_CFG_MODE 0 = 0 ∧ (s.side x).pair0.done = [(m, a, b)] ∧ (s.side x).pair1.done = [] ∧ (s.side
        x).pair1.out.length < 64 ∧ (s.side x).pair1.out ++ [(s.side x).pair1.hi * 2 ^ 32 + v.toNat] = l ∧ l.length = bits (l.headD 0) 16 12
        + 1 ∧ a ≤ s.now ∧ b < s.now ∧ ((s.side x.other).waits = [] ∧ (s.side x.other).netifHeld = false ∧ (s.side x.other).tallyHeld =
        none)) ∧
    (∃ (s : State) (x : Side) (v : BitVec 32) (l : List Nat) (m : List Nat) (a : Nat) (b : Nat), s.Permits x (.pair 1) (pairAddr 0x14) 4
        true ∧ s.get (.side x) F.PAIR_CFG_MODE 0 = 0 ∧ (s.side x).pair0.done = [(m, a, b)] ∧ (s.side x).pair1.done = [] ∧ (s.side
        x).pair1.out.length < 64 ∧ (s.side x).pair1.out ++ [(s.side x).pair1.hi * 2 ^ 32 + v.toNat] = l ∧ l.length = bits (l.headD 0) 16 12
        + 1 ∧ ((s.side x.other).waits = [] ∧ (s.side x.other).netifHeld = false ∧ (s.side x.other).tallyHeld = none)) ∧
    (∃ (s : State) (x : Side) (w : Nat) (a : Nat) (b : Nat), s.Permits x (.pair 1) (pairAddr 0x24) 4 true ∧ s.get (.side x) F.PAIR_CFG_MODE
        0 = 0 ∧ (s.side x).pair0.sigs = [(w, a, b)] ∧ (s.side x).pair1.sigs = [] ∧ ((s.side x.other).waits = [] ∧ (s.side x.other).netifHeld
        = false ∧ (s.side x.other).tallyHeld = none)) ∧
    (∃ (s : State) (x : Side) (e : Nat), pairEnd (s.side x).pair0.done (s.side x).pair1.done = some e ∧ ((s.side x.other).waits = [] ∧
        (s.side x.other).netifHeld = false ∧ (s.side x.other).tallyHeld = none)) ∧
    (∃ (s : State) (x : Side) (c : Fin 2), s.Permits x (.pair c) (pairAddr 0x20) 4 true ∧ s.get (.side x) F.PAIR_CFG_MODE 0 = 0) ∧
    (∃ (s : State) (x : Side) (v : BitVec 32) (w : Nat) (a : Nat) (b : Nat), s.Permits x (.pair 1) (pairAddr 0x24) 4 true ∧ s.get (.side x)
        F.PAIR_CFG_MODE 0 = 0 ∧ (s.side x).pair0.sigs = [(w, a, b)] ∧ (s.side x).pair1.sigs = [] ∧ (s.side x).pair1.sigHi * 2 ^ 32 + v.toNat
        = w ∧ a ≤ s.now ∧ s.now ≤ b) ∧
    (∃ (s : State) (x : Side) (v : BitVec 32) (w : Nat) (a : Nat) (b : Nat), s.Permits x (.pair 1) (pairAddr 0x24) 4 true ∧ s.get (.side x)
        F.PAIR_CFG_MODE 0 = 0 ∧ (s.side x).pair0.sigs = [(w, a, b)] ∧ (s.side x).pair1.sigs = [] ∧ (s.side x).pair1.sigHi * 2 ^ 32 + v.toNat
        ≠ w ∧ a ≤ s.now ∧ s.now ≤ b ∧ ((s.side x.other).waits = [] ∧ (s.side x.other).netifHeld = false ∧ (s.side x.other).tallyHeld =
        none)) ∧
    (∃ (s : State) (x : Side) (e : Nat), pairEnd (s.side x).pair0.sigs (s.side x).pair1.sigs = some e ∧ ((s.side x.other).waits = [] ∧
        (s.side x.other).netifHeld = false ∧ (s.side x.other).tallyHeld = none)) ∧
    (∃ (s : State) (x : Side) (c : Fin 2) (w : Nat) (l : List Nat), s.Permits x (.pair c) (pairAddr 0x18) 4 false ∧ s.get (.side x)
        F.PAIR_CFG_MODE 0 = 0 ∧ (s.pairCore x c).rpl = w :: l ∧ (s.src x (s.get (.side x) F.PAIR_CFG_DOOR 0)).rpl = []) :=
  ⟨⟨(((w0.set (.side .a) F.PAIR_CFG_DOOR 0 4).set (.side .a) F.PAIR_STATUS_CORE0_RUN 0 1).set (.side .a) F.PAIR_STATUS_CORE1_RUN 0
        1).setSide .a { wSide with pair0 := { PairCore.empty with hi := 0 }, pair1 := { PairCore.empty with hi := 0 } }, .a, 1,
        by decide +kernel⟩,
    ⟨(((w0.set (.side .a) F.PAIR_CFG_DOOR 0 4).set (.side .a) F.PAIR_STATUS_CORE0_RUN 0 1).set (.side .a) F.PAIR_STATUS_CORE1_RUN 0
        1).setSide .a { wSide with pair0 := { PairCore.empty with hi := 0 }, pair1 := { PairCore.empty with hi := 0 } }, .a, 1, 0x1000,
        [0x1000], by decide +kernel⟩,
    ⟨(((w0.set (.side .a) F.PAIR_CFG_DOOR 0 4).set (.side .a) F.PAIR_STATUS_CORE0_RUN 0 1).set (.side .a) F.PAIR_STATUS_CORE1_RUN 0
        1).setSide .a
        { wSide with pair0 := { PairCore.empty with done := [([0x0050000000], 19999999999, 20000050000)] }, pair1 := { PairCore.empty with hi := 0 } },
        .a, 0x50000000, [0x0050000000], 19999999999, 20000050000, 4, by decide +kernel⟩,
    ⟨(((w0.set (.side .a) F.PAIR_CFG_DOOR 0 4).set (.side .a) F.PAIR_STATUS_CORE0_RUN 0 1).set (.side .a) F.PAIR_STATUS_CORE1_RUN 0
        1).setSide .a
        { wSide with pair0 := { PairCore.empty with done := [([0x0050000000], 19999999999, 20000050000)] }, pair1 := { PairCore.empty with hi := 0 } },
        .a, 0x50100000, [0x0050100000], [0x0050000000], 19999999999, 20000050000, by decide +kernel⟩,
    ⟨(((w0.set (.side .a) F.PAIR_CFG_DOOR 0 4).set (.side .a) F.PAIR_STATUS_CORE0_RUN 0 1).set (.side .a) F.PAIR_STATUS_CORE1_RUN 0
        1).setSide .a
        { wSide with pair0 := { PairCore.empty with done := [([0x0050000000], 19999900000, 19999950000)] }, pair1 := { PairCore.empty with hi := 0 } },
        .a, 0x50100000, [0x0050100000], [0x0050000000], 19999900000, 19999950000, by decide +kernel⟩,
    ⟨(((w0.set (.side .a) F.PAIR_CFG_DOOR 0 4).set (.side .a) F.PAIR_STATUS_CORE0_RUN 0 1).set (.side .a) F.PAIR_STATUS_CORE1_RUN 0
        1).setSide .a
        { wSide with pair0 := { PairCore.empty with done := [([0x0050000000], 19999999999, 20000050000)] }, pair1 := { PairCore.empty with hi := 0 } },
        .a, 0x50000000, [0x0050000000], [0x0050000000], 19999999999, 20000050000, by decide +kernel⟩,
    ⟨(((w0.set (.side .a) F.PAIR_CFG_DOOR 0 4).set (.side .a) F.PAIR_STATUS_CORE0_RUN 0 1).set (.side .a) F.PAIR_STATUS_CORE1_RUN 0
        1).setSide .a
        { wSide with pair0 := { PairCore.empty with sigs := [(0x0200000007, 5, 20000000000)] }, pair1 := { PairCore.empty with sigHi := 2 } },
        .a, 0x0200000007, 5, 20000000000, by decide +kernel⟩,
    ⟨(((w0.set (.side .a) F.PAIR_CFG_DOOR 0 4).set (.side .a) F.PAIR_STATUS_CORE0_RUN 0 1).set (.side .a) F.PAIR_STATUS_CORE1_RUN 0
        1).setSide .a
        { wSide with pair0 := { PairCore.empty with done := [([0x0050000000], 19999999999, 20000050000)] }, pair1 := { PairCore.empty with hi := 0 } },
        .a, 20000050000, by decide +kernel⟩,
    ⟨(((w0.set (.side .a) F.PAIR_CFG_DOOR 0 4).set (.side .a) F.PAIR_STATUS_CORE0_RUN 0 1).set (.side .a) F.PAIR_STATUS_CORE1_RUN 0
        1).setSide .a { wSide with pair0 := { PairCore.empty with hi := 0 }, pair1 := { PairCore.empty with hi := 0 } }, .a, 1,
        by decide +kernel⟩,
    ⟨(((w0.set (.side .a) F.PAIR_CFG_DOOR 0 4).set (.side .a) F.PAIR_STATUS_CORE0_RUN 0 1).set (.side .a) F.PAIR_STATUS_CORE1_RUN 0
        1).setSide .a
        { wSide with pair0 := { PairCore.empty with sigs := [(0x0200000007, 5, 20000000000)] }, pair1 := { PairCore.empty with sigHi := 2 } },
        .a, 7, 0x0200000007, 5, 20000000000, by decide +kernel⟩,
    ⟨(((w0.set (.side .a) F.PAIR_CFG_DOOR 0 4).set (.side .a) F.PAIR_STATUS_CORE0_RUN 0 1).set (.side .a) F.PAIR_STATUS_CORE1_RUN 0
        1).setSide .a
        { wSide with pair0 := { PairCore.empty with sigs := [(0x0200000007, 5, 20000000000)] }, pair1 := { PairCore.empty with sigHi := 2 } },
        .a, 8, 0x0200000007, 5, 20000000000, by decide +kernel⟩,
    ⟨(((w0.set (.side .a) F.PAIR_CFG_DOOR 0 4).set (.side .a) F.PAIR_STATUS_CORE0_RUN 0 1).set (.side .a) F.PAIR_STATUS_CORE1_RUN 0
        1).setSide .a
        { wSide with pair0 := { PairCore.empty with hi := 0 }, pair1 := { PairCore.empty with sigs := [(7, 19999999999, 20000050000)] } },
        .a, 20000050000, by decide +kernel⟩,
    ⟨(((w0.set (.side .a) F.PAIR_CFG_DOOR 0 4).set (.side .a) F.PAIR_STATUS_CORE0_RUN 0 1).set (.side .a) F.PAIR_STATUS_CORE1_RUN 0
        1).setSide .a { wSide with pair0 := { PairCore.empty with hi := 0 }, pair1 := { PairCore.empty with rpl := [0x3300000009, 4] } },
        .a, 1, 0x3300000009, [4], by decide +kernel⟩⟩

theorem witness_Bridges :
    (∃ (s : State) (x : Side) (i : Fin 6), s.fabric x = true ∧ 2 ≤ i.val ∧ s.farAlive x i = true ∧ s.farPresent x i = true) ∧
    (∃ (s : State) (x : Side), s.fabric x = true ∧ s.farAlive x 0 = true ∧ s.farPresent x 0 = true) ∧
    (∃ (s : State) (x : Side) (i : Fin 6), s.fabric x = true ∧ (i.val ≠ 0 ∨ (s.bridge x i).missed < 2)) ∧
    (∃ (s : State) (x : Side), s.fabric x = true ∧ 2 ≤ (s.bridge x 0).missed ∧ s.farPresent x 0 = true ∧ (s.bridge x 0).txns = [] ∧
        (s.bridge x 0).near = [] ∧ ((s.side x.other).waits = [] ∧ (s.side x.other).netifHeld = false ∧ (s.side x.other).tallyHeld = none)) ∧
    (∃ (s : State) (x : Side) (i : Fin 6) (g : Fin 16) (a : Txn), (s.bridge x i).txns = [a] ∧ a.tag = g.val ∧ a.split = false) ∧
    (∃ (s : State) (x : Side) (i : Fin 6) (g : Fin 16) (a : Txn), (s.bridge x i).txns = [a] ∧ (s.bridge x i).near = [] ∧ a.tag = g.val ∧
        s.farAlive x i = false ∧ a.posted = false ∧ 6 ≤ a.init ∧ a.chan = 0 ∧ ((s.side x.other).waits = [] ∧ (s.side x.other).netifHeld =
        false ∧ (s.side x.other).tallyHeld = none)) ∧
    (∃ (s : State) (x : Side) (i : Fin 6) (g : Fin 16) (v : Nat) (e : Ecc) (a : Txn), (s.bridge x i).txns = [a] ∧ (s.bridge x i).near = [] ∧
        a.tag = g.val ∧ 1 ≤ i.val ∧ a.chan = 0 ∧ a.data = none ∧ ((s.side x.other).waits = [] ∧ (s.side x.other).netifHeld = false ∧ (s.side
        x.other).tallyHeld = none) ∧ s.farAlive x i = true ∧ (s.farExec x i a e).resp = .data v) ∧
    (∃ (s : State) (x : Side) (i : Fin 6), (s.bridge x i).txns = [] ∧ (s.bridge x i).late ≠ 0) :=
  ⟨⟨w0.set (.side .a) F.BRIDGE_STATUS_FAR_PRESENT 4 1, .a, 4, by decide +kernel⟩,
    ⟨((w0.set (.side .a) F.BRIDGE_STATUS_FAR_PRESENT 0 1).setSide .b
        { (w0.set (.side .a) F.BRIDGE_STATUS_FAR_PRESENT 0 1).side .b with swiOut := 0x81 }), .a, by decide +kernel⟩,
    ⟨w0, .b, 0, by decide +kernel⟩,
    ⟨(w0.set (.side .b) F.BRIDGE_STATUS_FAR_PRESENT 0 1).setBridge .b 0 ⟨[], [], 0, 2, false, false⟩, .b, by decide +kernel⟩,
    ⟨w0.setBridge .b 1 ⟨[⟨3, 0, 0, 0, 0x50000000, false, none, false, 19999000000, false⟩], [], 0, 0, false, false⟩, .b, 1, 3, ⟨3, 0, 0, 0,
        0x50000000, false, none, false, 19999000000, false⟩, by decide +kernel⟩,
    ⟨{ w0.setBridge .b 1 ⟨[⟨3, 10, 0, 0, 0x50000000, false, none, false, 19999000000, false⟩], [], 0, 0, false, false⟩ with absent := [.flue] },
        .b, 1, 3, ⟨3, 10, 0, 0, 0x50000000, false, none, false, 19999000000, false⟩, by decide +kernel⟩,
    ⟨w0.setBridge .b 1 ⟨[⟨3, 0, 0, 0, 0x50000000, false, none, false, 19999000000, false⟩], [], 0, 0, false, false⟩, .b, 1, 3, (match
        (w0.farExec .b 1 ⟨3, 0, 0, 0, 0x50000000, false, none, false, 19999000000, false⟩ .clean).resp with | .data n => n | _ => 0),
        .clean, ⟨3, 0, 0, 0, 0x50000000, false, none, false, 19999000000, false⟩, by decide +kernel⟩,
    ⟨w0.setBridge .b 3 ⟨[], [], 2, 0, false, false⟩, .b, 3, by decide +kernel⟩⟩

theorem witness_LocksAndAtomics :
    (∃ (s : State) (x : Side) (o : Origin) (h : Nat) (v : BitVec 32), s.Permits x o (bridgeAddr 0x1048) 4 true ∧ s.lockHart x o = some h ∧
        v.toNat.testBit 0 = true ∧ v.toNat.testBit 1 = false ∧ s.get (.side x) F.BRIDGE_LOCK_HELD h = 0 ∧ s.get (.side x)
        F.BRIDGE_LOCK_PENDING h = 0 ∧ inFarSram (s.get (.side x) F.BRIDGE_LOCK_ADDR h / 64 * 64) 64 = true ∧ s.farPresent x 0 = true) ∧
    (∃ (s : State) (x : Side) (o : Origin) (h : Nat) (v : BitVec 32), s.Permits x o (bridgeAddr 0x1048) 4 true ∧ s.lockHart x o = some h ∧
        v.toNat = 2 ∧ s.is (.side x) F.BRIDGE_LOCK_HELD h = true ∧ ((s.side x.other).waits = [] ∧ (s.side x.other).netifHeld = false ∧
        (s.side x.other).tallyHeld = none)) ∧
    (∃ (s : State) (x : Side) (h : Fin 6) (a : LineLock), (s.side x).lockQ = [a] ∧ a.hart = h.val ∧ s.lineLocked x h a.line = false) ∧
    (∃ (s : State) (x : Side) (h : Fin 6) (a : LineLock), (s.side x).locks = [a] ∧ a.hart = h.val ∧ a.released = false ∧ s.is (.side x)
        F.BRIDGE_LOCK_HELD h = true ∧ ((s.side x.other).waits = [] ∧ (s.side x.other).netifHeld = false ∧ (s.side x.other).tallyHeld =
        none)) ∧
    (∃ (s : State) (x : Side) (h : Fin 6) (a : LineLock), (s.side x).lockQ = [a] ∧ a.hart = h.val ∧ s.is (.side x) F.BRIDGE_LOCK_PENDING h =
        true ∧ ((s.side x.other).waits = [] ∧ (s.side x.other).netifHeld = false ∧ (s.side x.other).tallyHeld = none)) ∧
    (∃ (s : State) (x : Side) (o : Origin) (h : Nat), s.Permits x o (bridgeAddr 0x1048) 4 false ∧ s.lockHart x o = some h) ∧
    (∃ (s : State) (x : Side) (o : Origin) (h : Nat) (v : BitVec 32) (a : Nat), s.Permits x o (bridgeAddr 0x1008) 4 true ∧ s.lockHart x o =
        some h ∧ v.toNat.testBit 8 = true ∧ bits v.toNat 3 0 ≤ 4 ∧ s.is (.side x) F.BRIDGE_AT_STATUS_BUSY h = false ∧ s.get (.side x)
        F.BRIDGE_AT_ADDR h = a ∧ inFarSram a (4 + 4 * bits v.toNat 4 4) = true ∧ a % (4 + 4 * bits v.toNat 4 4) = 0 ∧ s.farPresent x 0 =
        true) ∧
    (∃ (s : State) (x : Side) (o : Origin) (h : Nat) (v : BitVec 32), s.Permits x o (bridgeAddr 0x1008) 4 true ∧ s.lockHart x o = some h ∧
        v.toNat.testBit 8 = true ∧ s.is (.side x) F.BRIDGE_AT_STATUS_BUSY h = false ∧ 5 ≤ bits v.toNat 3 0) ∧
    (∃ (s : State) (x : Side) (h : Fin 6) (op : Nat) (z : Nat) (a : Nat) (v : Nat) (c : Nat) (w : Nat) (u : Nat) (e : Ecc), Tab.at []
        (s.side x).atOp h = [op, z, a, v, c, w] ∧ e ≠ .lost ∧ z ≤ 1 ∧ s.is (.side x) F.BRIDGE_AT_STATUS_BUSY h = true ∧ s.lineLocked x h a =
        false ∧ inFarSram a (4 + 4 * z) = true ∧ s.wotAllows x.other (farOfWindow a) w 0 = true ∧ s.wotAllows x.other (farOfWindow a) w 1 =
        true ∧ s.mirLocked x.other (farOfWindow a) = false ∧ atomicValue op (8 * (4 + 4 * z)) (s.loadLE x.other (farOfWindow a) (4 + 4 * z))
        v c = some u) ∧
    (∃ (s : State) (x : Side) (o : Origin), s.Permits x o (bridgeAddr 0x1200) 4 true ∧ s.farPresent x 0 = true ∧ (s.side x).crossLost =
        false) ∧
    (∃ (s : State) (x : Side) (o : Origin) (v : BitVec 32), s.Permits x o (bridgeAddr 0x1200) 4 true ∧ s.farPresent x 0 = false ∧ v.toNat =
        1) :=
  ⟨⟨(w0.set (.side .a) F.BRIDGE_STATUS_FAR_PRESENT 0 1).set (.side .a) F.BRIDGE_LOCK_ADDR 2 0x20000044, .a, .hart 2, 2, 1,
        by decide +kernel⟩,
    ⟨w0.set (.side .a) F.BRIDGE_LOCK_HELD 2 1, .a, .hart 2, 2, 2, by decide +kernel⟩,
    ⟨((w0).setSide .a { (w0).side .a with lockQ := [⟨2, 0x20000040, 5, false⟩] }), .a, 2, ⟨2, 0x20000040, 5, false⟩, by decide +kernel⟩,
    ⟨((w0).setSide .a { (w0).side .a with locks := [⟨2, 0x20000040, 5, false⟩] }).set (.side .a) F.BRIDGE_LOCK_HELD 2 1, .a, 2, ⟨2,
        0x20000040, 5, false⟩, by decide +kernel⟩,
    ⟨((w0).setSide .a { (w0).side .a with lockQ := [⟨2, 0x20000040, 5, false⟩] }).set (.side .a) F.BRIDGE_LOCK_PENDING 2 1, .a, 2, ⟨2,
        0x20000040, 5, false⟩, by decide +kernel⟩,
    ⟨w0.set (.side .a) F.BRIDGE_LOCK_BROKEN 2 1, .a, .hart 2, 2, by decide +kernel⟩,
    ⟨(w0.set (.side .a) F.BRIDGE_STATUS_FAR_PRESENT 0 1).set (.side .a) F.BRIDGE_AT_ADDR 2 0x20000048, .a, .hart 2, 2, 0x112, 0x20000048,
        by decide +kernel⟩,
    ⟨w0.set (.side .a) F.BRIDGE_STATUS_FAR_PRESENT 0 1, .a, .hart 2, 2, 0x105, by decide +kernel⟩,
    ⟨(((w0).setSide .a { (w0).side .a with atOp := [(2, [2, 1, 0x20000048, 5, 0, 0])] }).set (.side .a) F.BRIDGE_AT_STATUS_BUSY 2 1).setByte
        .b 0x10000048 255, .a, 2, 2, 1, 0x20000048, 5, 0, 0, 260, .clean, by decide +kernel⟩,
    ⟨((w0.set (.side .a) F.BRIDGE_STATUS_FAR_PRESENT 0 1).setSide .a
        { (w0.set (.side .a) F.BRIDGE_STATUS_FAR_PRESENT 0 1).side .a with swiOut := 1 }), .a, .hart 2, by decide +kernel⟩,
    ⟨w0.set (.side .a) F.BRIDGE_STATUS_FAR_PRESENT 0 0, .a, .hart 2, 1, by decide +kernel⟩⟩

theorem witness_GatesAndWorlds :
    (∃ (s : State) (x : Side) (h : Fin 6) (v : BitVec 32) (n : Nat), h.val < 4 ∧ s.hartRuns x h = true ∧ isCustom0 v.toNat = true ∧ gateForm
        v.toNat = some (0, n) ∧ (s.hart x h).landing = none ∧ s.gateDenied x h n = none) ∧
    (∃ (s : State) (x : Side) (h : Fin 6) (v : BitVec 32) (n : Nat) (r : Nat) (w : Nat), h.val < 4 ∧ s.hartRuns x h = true ∧ isCustom0
        v.toNat = true ∧ s.extIrq x h = false ∧ (s.hart x h).step = false ∧ gateForm v.toNat = some (0, n) ∧ (s.hart x h).landing = none ∧
        s.gateDenied x h n = some r ∧ s.get (.side x) F.WOT_HART_CURRENT h = w) ∧
    (∃ (s : State) (x : Side) (h : Fin 6) (v : BitVec 32) (n : Nat), h.val < 4 ∧ s.hartRuns x h = true ∧ isCustom0 v.toNat = true ∧ s.extIrq
        x h = false ∧ (s.hart x h).step = false ∧ gateForm v.toNat = some (1, n) ∧ ((s.hart x h).landing = some n ∨ (s.hart x h).landing =
        none)) ∧
    (∃ (s : State) (x : Side) (h : Fin 6) (v : BitVec 32) (n : Nat) (m : Nat) (f : GateFrame) (l : List GateFrame), h.val < 4 ∧ s.hartRuns x
        h = true ∧ isCustom0 v.toNat = true ∧ s.extIrq x h = false ∧ (s.hart x h).step = false ∧ gateForm v.toNat = some (0, n) ∧ (s.hart x
        h).landing = some m ∧ (s.hart x h).frames = f :: l) ∧
    (∃ (s : State) (x : Side) (h : Fin 6) (v : BitVec 32) (m : Nat) (f : GateFrame) (l : List GateFrame), h.val < 4 ∧ s.hartRuns x h = true
        ∧ isCustom0 v.toNat = true ∧ s.extIrq x h = false ∧ (s.hart x h).step = false ∧ gateForm v.toNat ≠ some (1, m) ∧ (s.hart x
        h).landing = some m ∧ (s.hart x h).frames = f :: l) ∧
    (∃ (s : State) (x : Side) (h : Fin 6) (v : BitVec 32) (m : Nat) (f : GateFrame) (l : List GateFrame), h.val < 4 ∧ s.hartRuns x h = true
        ∧ isCustom0 v.toNat = true ∧ s.extIrq x h = false ∧ (s.hart x h).step = false ∧ gateForm v.toNat = some (2, 0) ∧ (s.hart x
        h).landing = some m ∧ (s.hart x h).frames = f :: l) ∧
    (∃ (s : State) (x : Side) (h : Fin 6) (v : BitVec 32) (f : GateFrame) (l : List GateFrame), h.val < 4 ∧ s.hartRuns x h = true ∧
        isCustom0 v.toNat = true ∧ s.extIrq x h = false ∧ (s.hart x h).step = false ∧ gateForm v.toNat = some (2, 0) ∧ (s.hart x h).landing
        = none ∧ (s.hart x h).frames = f :: l) ∧
    (∃ (s : State) (x : Side) (h : Fin 6) (v : BitVec 32) (w : Nat), h.val < 4 ∧ s.hartRuns x h = true ∧ isCustom0 v.toNat = true ∧ gateForm
        v.toNat = some (2, 0) ∧ (s.hart x h).landing = none ∧ (s.hart x h).frames = [] ∧ s.get (.side x) F.WOT_HART_CURRENT h = w ∧ s.extIrq
        x h = false ∧ (s.hart x h).step = false) ∧
    (∃ (s : State) (x : Side) (h : Fin 6) (v : BitVec 32), 4 ≤ h.val ∧ s.hartRuns x h = true ∧ isCustom0 v.toNat = true ∧ s.extIrq x h =
        false ∧ (s.side x).pairStep = 0 ∧ (s.hart x h).step = false) ∧
    (∃ (s : State) (x : Side) (h : Fin 6) (v : BitVec 32), 4 ≤ h.val ∧ s.hartRuns x h = true ∧ isCustom0 v.toNat = true ∧ s.extIrq x h =
        false ∧ (s.side x).pairStep = 0 ∧ (s.hart x h).step = false) ∧
    (∃ (s : State) (x : Side) (h : Fin 6) (v : BitVec 32), 4 ≤ h.val ∧ s.hartRuns x h = true ∧ isCustom0 v.toNat = true ∧ s.extIrq x h =
        false ∧ (s.side x).pairStep = 0 ∧ (s.hart x h).step = false) ∧
    (∃ (s : State) (x : Side) (w : Fin 8) (u : Nat), s.up x = true ∧ s.worldEnabled x w = true ∧ (List.range w).all (fun i =>
        !s.worldEnabled x i || (s.side x).verified.testBit i) = true ∧ (s.side x).verified.testBit w = false ∧ s.bootBank x (worldSlot w) =
        u) ∧
    (∃ (s : State) (x : Side) (w : Fin 8), s.up x = true ∧ (s.side x).chromirDown = false ∧ s.worldState x w = 2 ∧ s.imageInUse x (worldSlot
        w) = none) ∧
    (∃ (s : State) (x : Side) (w : Fin 8) (a : Nat) (e : Nat) (n : Nat), s.up x = true ∧ (s.side x).chromirDown = false ∧ (s.side x).cores =
        true ∧ s.worldState x w = 2 ∧ s.imageInUse x (worldSlot w) = some a ∧ s.worldBody x w = some (e, n) ∧ (n = 0 ∨ (s.staticRange x
        (s.get (.side x) F.WOT_WORLD_LOAD w) n w = true ∧ (inSram (s.get (.side x) F.WOT_WORLD_LOAD w) n = true ∨ inDdr (s.get (.side x)
        F.WOT_WORLD_LOAD w) n = true)))) ∧
    (∃ (s : State) (x : Side) (o : Origin) (w : Fin 8) (v : BitVec 32), s.Permits x o (0x40132100 + 0x1000 * w) 4 true ∧ v.toNat.testBit 0 =
        true ∧ s.worldState x w = 3) ∧
    (∃ (s : State) (x : Side) (w : Fin 8) (d : Nat), s.up x = true ∧ s.worldState x w = 3 ∧ s.get (.side x) F.WOT_WORLD_CFG_WDOG w = d ∧ d ≠
        0 ∧ s.is (.side x) F.WOT_WORLD_CFG_ON_FAIL w = false) ∧
    (∃ (s : State) (x : Side) (o : Origin) (v : BitVec 32), s.Permits x o 0x400D0038 4 true ∧ v.toNat.testBit 0 = true ∧ s.is (.side x)
        F.WOT_SYNC_BUSY 0 = false) ∧
    (∃ (s : State) (x : Side) (e : Nat × Nat) (l : List (Nat × Nat)), s.recentSec x = e :: l ∧ s.up x = true ∧ s.ember.secLatch = false ∧
        max 1 (s.get (.side x) F.WOT_SEC_CFG_THRESH 0) ≤ l.length + 1) ∧
    (∃ (s : State) (x : Side) (o : Origin) (v : BitVec 32), s.Permits x o 0x400D0008 4 true ∧ v.toNat.testBit 0 = true ∧ s.ember.secLatch =
        true) ∧
    (∃ (s : State) (x : Side) (o : Origin) (v : BitVec 32), s.Permits x o 0x40180004 4 true ∧ v.toNat.testBit 0 = true ∧ s.is (.side x)
        F.POKER_STATUS_UNLOCKED 0 = true) ∧
    (∃ (s : State) (x : Side) (e : Nat), (s.side x).unlockEnd = some e ∧ s.is (.side x) F.POKER_STATUS_UNLOCKED 0 = true) ∧
    (∃ (s : State) (x : Side) (h : Fin 5), s.up x = true ∧ s.is (.side x) F.POKER_STATUS_UNLOCKED 0 = true ∧ 2 ≤ s.get (.side x)
        F.POKER_STATUS_LEVEL 0 ∧ h.val < 4 ∧ (s.get (.side x) F.POKER_STATUS_SCOPE 0).testBit (s.get (.side x) F.WOT_HART_CURRENT h) = true) ∧
    (∃ (s : State) (x : Side) (h : Fin 5), s.up x = true ∧ s.is (.side x) F.POKER_STATUS_UNLOCKED 0 = true ∧ 2 ≤ s.get (.side x)
        F.POKER_STATUS_LEVEL 0 ∧ h.val < 4) ∧
    (∃ (s : State) (x : Side) (h : Fin 5), s.up x = true ∧ s.is (.side x) F.POKER_STATUS_UNLOCKED 0 = true ∧ 2 ≤ s.get (.side x)
        F.POKER_STATUS_LEVEL 0 ∧ h.val < 4 ∧ (s.hart x h).halted = true) ∧
    (∃ (s : State) (x : Side), s.up x = true ∧ s.is (.side x) F.POKER_STATUS_UNLOCKED 0 = true ∧ 2 ≤ s.get (.side x) F.POKER_STATUS_LEVEL 0
        ∧ s.pairInScope x (s.get (.side x) F.POKER_STATUS_SCOPE 0) = true) ∧
    (∃ (s : State) (x : Side), s.up x = true ∧ s.is (.side x) F.POKER_STATUS_UNLOCKED 0 = true ∧ 2 ≤ s.get (.side x) F.POKER_STATUS_LEVEL 0) ∧
    (∃ (s : State) (x : Side), s.up x = true ∧ s.is (.side x) F.POKER_STATUS_UNLOCKED 0 = true ∧ 2 ≤ s.get (.side x) F.POKER_STATUS_LEVEL 0
        ∧ (s.side x).pairHalted = true) ∧
    (∃ (s : State) (x : Side), s.up x = true) ∧
    (∃ (s : State) (x : Side), s.up x = true ∧ (s.side x).tapIr = .bypass) ∧
    (∃ (s : State) (x : Side), s.up x = true ∧ (s.side x).tapIr ≠ .bypass) :=
  ⟨⟨(((w0.set (.side .a) F.WOT_GATE_CFG_CALLERS 7 255).set (.side .a) F.WOT_GATE_CFG_TARGET 7 3).set (.side .a) F.WOT_WORLD_STATE_STATE 3 3
        |>.set (.side .a) F.WOT_GATE_ENTRY 7 0x10008000 |>.set (.side .a) F.WOT_GATE_CFG_PRIV 7 2).setHart .a 1
        { Hart.held with run := true }, .a, 1, 0x0070000B, 7, by decide +kernel⟩,
    ⟨(w0).setHart .a 1 { Hart.held with run := true }, .a, 1, 0x0070000B, 7, 1, 0, by decide +kernel⟩,
    ⟨w0.setHart .a 1 { Hart.held with run := true, landing := some 7 }, .a, 1, 0x0070100B, 7, by decide +kernel⟩,
    ⟨(w0).setHart .a 1 { Hart.held with run := true, landing := some 5, frames := [⟨2, 3, false, 0x10000104, 5⟩] }, .a, 1, 0x0070000B, 7, 5,
        ⟨2, 3, false, 0x10000104, 5⟩, [], by decide +kernel⟩,
    ⟨w0.setHart .a 1 { Hart.held with run := true, landing := some 5, frames := [⟨2, 3, false, 0x10000104, 5⟩] }, .a, 1, 0x0070100B, 5, ⟨2,
        3, false, 0x10000104, 5⟩, [], by decide +kernel⟩,
    ⟨w0.setHart .a 1 { Hart.held with run := true, landing := some 5, frames := [⟨2, 3, false, 0x10000104, 5⟩] }, .a, 1, 0x0000200B, 5, ⟨2,
        3, false, 0x10000104, 5⟩, [], by decide +kernel⟩,
    ⟨w0.setHart .a 1 { Hart.held with run := true, frames := [⟨2, 1, false, 0x10000104, 7⟩] }, .a, 1, 0x0000200B, ⟨2, 1, false, 0x10000104,
        7⟩, [], by decide +kernel⟩,
    ⟨w0.setHart .a 1 { Hart.held with run := true }, .a, 1, 0x0000200B, 0, by decide +kernel⟩,
    ⟨(w0.set (.side .a) F.PAIR_STATUS_CORE0_RUN 0 1).setHart .a 4 { Hart.held with run := true }, .a, 4, 0x0070000B, by decide +kernel⟩,
    ⟨(w0.set (.side .a) F.PAIR_STATUS_CORE0_RUN 0 1).setHart .a 4 { Hart.held with run := true }, .a, 4, 0x0070000B, by decide +kernel⟩,
    ⟨(w0.set (.side .a) F.PAIR_STATUS_CORE0_RUN 0 1).setHart .a 4 { Hart.held with run := true }, .a, 4, 0x0070000B, by decide +kernel⟩,
    ⟨{ w0.setSide .a { wSide with verified := 0 } with mem := [(0x8000000E, 0)] }, .a, 0, 0, by decide +kernel⟩,
    ⟨w0.set (.side .b) F.WOT_WORLD_STATE_STATE 5 2, .b, 5, by decide +kernel⟩,
    ⟨{ (w0.set (.side .b) F.WOT_WORLD_STATE_STATE 0 2 |>.setSide .b { wSide with used := [(0x300, 1)] }) with mem := [(memKey .b 0x81100020, 192), (memKey .b 0x81100021, 0), (memKey .b 0x81100022, 0), (memKey .b 0x81100023, 0)] },
        .b, 0, 0x81100000, 0x811000C0, 0, by decide +kernel⟩,
    ⟨w0.set (.side .b) F.WOT_WORLD_STATE_STATE 0 3, .b, .hart 0, 0, 1, by decide +kernel⟩,
    ⟨(w0.set (.side .b) F.WOT_WORLD_STATE_STATE 2 3).set (.side .b) F.WOT_WORLD_CFG_WDOG 2 50, .b, 2, 50, by decide +kernel⟩,
    ⟨w0.set (.side .b) F.WOT_REG_PAGES 70 4, .b, .hart 0, 1, by decide +kernel⟩,
    ⟨(w0.setSide .b
        { wSide with secEvents := [(19999999999, 3), (19999999990, 3), (19999999980, 3), (19999999970, 3), (19999999960, 3), (19999999950, 3), (19999999940, 3), (19999999930, 3)] }).set
        (.side .b) F.WOT_SEC_CFG_THRESH 0 8, .b, (19999999999, 3), [(19999999990, 3), (19999999980, 3), (19999999970, 3), (19999999960, 3),
        (19999999950, 3), (19999999940, 3), (19999999930, 3)], by decide +kernel⟩,
    ⟨{ w0 with ember := { w0.ember with secLatch := true } }, .b, .hart 0, 1, by decide +kernel⟩,
    ⟨(w0.set (.side .a) F.POKER_STATUS_UNLOCKED 0 1).setHart .a 1 { Hart.held with halted := true }, .a, .hart 0, 1, by decide +kernel⟩,
    ⟨w0.set (.side .a) F.POKER_STATUS_UNLOCKED 0 1 |>.setSide .a { wSide with unlockEnd := some 20000000001 }, .a, 20000000001,
        by decide +kernel⟩,
    ⟨((w0.set (.side .a) F.POKER_STATUS_UNLOCKED 0 1).set (.side .a) F.POKER_STATUS_LEVEL 0 2).set (.side .a) F.POKER_STATUS_SCOPE 0 1, .a,
        1, by decide +kernel⟩,
    ⟨((w0.set (.side .a) F.POKER_STATUS_UNLOCKED 0 1).set (.side .a) F.POKER_STATUS_LEVEL 0 2).setHart .a 1
        { Hart.held with halted := true }, .a, 1, by decide +kernel⟩,
    ⟨(((w0.set (.side .a) F.POKER_STATUS_UNLOCKED 0 1).set (.side .a) F.POKER_STATUS_LEVEL 0 2).set (.side .a) F.POKER_STATUS_SCOPE 0
        1).setHart .a 1 { Hart.held with run := true, halted := true }, .a, 1, by decide +kernel⟩,
    ⟨((w0.set (.side .a) F.POKER_STATUS_UNLOCKED 0 1).set (.side .a) F.POKER_STATUS_LEVEL 0 2).set (.side .a) F.POKER_STATUS_SCOPE 0 1, .a,
        by decide +kernel⟩,
    ⟨((w0.set (.side .a) F.POKER_STATUS_UNLOCKED 0 1).set (.side .a) F.POKER_STATUS_LEVEL 0 2).set (.side .a) F.POKER_STATUS_SCOPE 0 1, .a,
        by decide +kernel⟩,
    ⟨((w0.set (.side .a) F.POKER_STATUS_UNLOCKED 0 1).set (.side .a) F.POKER_STATUS_LEVEL 0 2).setSide .a { wSide with pairHalted := true },
        .a, by decide +kernel⟩,
    ⟨(w0.set (.side .a) F.POKER_STATUS_UNLOCKED 0 1).set (.side .a) F.POKER_STATUS_LEVEL 0 3, .a, by decide +kernel⟩,
    ⟨w0, .a, by decide +kernel⟩,
    ⟨w0.setSide .a { wSide with tapIr := .sample }, .a, by decide +kernel⟩⟩

theorem witness_KeysAndRecords :
    (∃ (s : State) (x : Side) (o : Origin), s.Permits x o 0x40140008 4 true ∧ s.is (.side x) F.KEYS_OP_STATUS_BUSY 0 = false) ∧
    (∃ (s : State) (x : Side) (o : Origin), s.Permits x o 0x40140008 4 true ∧ s.is (.side x) F.KEYS_OP_STATUS_BUSY 0 = false) ∧
    (∃ (s : State) (x : Side) (o : Origin), s.Permits x o 0x40140008 4 true ∧ s.is (.side x) F.KEYS_OP_STATUS_BUSY 0 = false) ∧
    (∃ (s : State) (x : Side) (o : Origin), s.Permits x o 0x40140008 4 true ∧ s.is (.side x) F.KEYS_OP_STATUS_BUSY 0 = false) ∧
    (∃ (s : State) (x : Side) (o : Origin), s.Permits x o 0x40140008 4 true ∧ s.is (.side x) F.KEYS_OP_STATUS_BUSY 0 = false) ∧
    (∃ (s : State) (x : Side) (o : Origin), s.Permits x o 0x40140008 4 true ∧ s.is (.side x) F.KEYS_OP_STATUS_BUSY 0 = false) ∧
    (∃ (s : State) (x : Side) (o : Origin), s.Permits x o 0x40140008 4 true ∧ s.is (.side x) F.KEYS_OP_STATUS_BUSY 0 = false) ∧
    (∃ (s : State) (x : Side) (o : Origin), s.Permits x o 0x40140008 4 true ∧ s.is (.side x) F.KEYS_OP_STATUS_BUSY 0 = false) ∧
    (∃ (s : State) (x : Side) (l : List Nat) (e : Nat), (s.side x).keyOp = some l ∧ s.keyHeld x l = false ∧ e ≠ 7 ∧ ((s.setSide x
        { s.side x with keyOp := none }).set (.side x) F.KEYS_OP_STATUS_BUSY 0 0).keyRun x l = .error e) ∧
    (∃ (s : State) (x : Side) (k : Nat) (l : List Nat), (s.side x).keyOp = some (4 :: k :: l) ∧ l.length = 6 ∧ 40 ≤ k) ∧
    (∃ (s : State) (x : Side) (l : List Nat) (lo : Option Word40), (s.side x).keyOp = some l ∧ s.keyHeld x l = false ∧ keyHasRead
        (((s.setSide x { s.side x with keyOp := none }).set (.side x) F.KEYS_OP_STATUS_BUSY 0 0).keyRun x l) = true ∧ s.ReadsLost x
        (keyInput l).1 (keyInput l).2 lo) ∧
    (∃ (s : State) (x : Side), s.up x = true) ∧
    (∃ (s : State) (x : Side) (b : Nat), s.up x = true ∧ s.get (.side x) F.TALLY_RING_BASE 0 = b ∧ (b % 65536 ≠ 0 ∨ inSram b (s.tallyDepth x
        * 65536) = false)) ∧
    (∃ (s : State) (x : Side) (b : Nat) (a : Nat) (n : Nat), s.up x = true ∧ s.get (.side x) F.TALLY_RING_BASE 0 = b ∧ b % 65536 = 0 ∧
        inSram b (s.tallyDepth x * 65536) = true ∧ (s.get (.side x) F.TALLY_SEQ 0 + 1) % 2 ^ F.TALLY_SEQ.width = n ∧ b + n % s.tallyDepth x
        * 65536 = a ∧ s.wotRange x a 65536 (s.get (.side x) F.TALLY_CFG_WORLD 0) 1 = true ∧ s.mirLockedRange x a 65536 = false ∧
        s.engineWaits x a 65536 = false ∧ (s.side x).tallyHeld = none) ∧
    (∃ (s : State) (x : Side) (e : PerfEvent) (n : Nat) (c : Nat), s.fabric x = true ∧ ownEvents.contains e.code.toNat = false ∧ (List.range
        48).filter (fun n => s.perfCounts x n e) = [n] ∧ s.get (.side x) F.PERF_CNT n = c ∧ c + 1 < 2 ^ 40) ∧
    (∃ (s : State) (x : Side) (e : PerfEvent) (n : Nat), s.fabric x = true ∧ ownEvents.contains e.code.toNat = false ∧ (List.range
        48).filter (fun n => s.perfCounts x n e) = [n] ∧ n < 32 ∧ s.get (.side x) F.PERF_CNT n = 2 ^ 40 - 1 ∧ ¬ (n % 2 = 0 ∧ s.perfChained x
        (n + 1) = true) ∧ s.is (.side x) F.PERF_SEL_OVF_IRQ n = true) ∧
    (∃ (s : State) (x : Side) (o : Origin) (n : Fin 48), s.Permits x o (0x40100100 + 0x20 * n) 8 false ∧ n.val % 2 = 0 ∧ s.perfChained x (n
        + 1) = true) ∧
    (∃ (s : State) (x : Side) (o : Origin), s.Permits x o 0x40120020 4 true) ∧
    (∃ (s : State) (x : Side) (h : Fin 4) (p : Word64) (es : List Ecc) (a : Nat) (n : Nat) (z : Width), widthBytes z = n ∧ s.translatesTo x
        h p.toNat true es a = true ∧ p.toNat % 4096 + n ≤ 4096 ∧ s.Permits x (.hart h) a n true ∧ inSram a n = true ∧ s.spanRefuses x (.hart
        h) a n true = false ∧ s.mirLockedRange x a n = false ∧ s.lockedHere x (.hart h) a n = false) ∧
    (∃ (s : State) (x : Side) (o : Origin) (p : Word64) (a : Nat) (n : Nat) (z : Width), widthBytes z = n ∧ coreOf o = none ∧ p.toNat % 2 ^
        40 = a ∧ s.Permits x o a n true ∧ inSram a n = true ∧ s.spanRefuses x o a n true = false ∧ s.mirLockedRange x a n = false ∧
        s.lockedHere x o a n = false) ∧
    (∃ (s : State) (x : Side) (h : Fin 4) (p : Word64) (es : List Ecc) (a : Nat) (n : Nat) (z : Width), widthBytes z = n ∧ s.translatesTo x
        h p.toNat false es a = true ∧ p.toNat % 4096 + n ≤ 4096 ∧ s.Permits x (.hart h) a n false ∧ inSram a n = true ∧ s.spanRefuses x
        (.hart h) a n false = false ∧ s.lockedHere x (.hart h) a n = false) ∧
    (∃ (s : State) (x : Side) (h : Fin 4) (p : Word64) (es : List Ecc) (a : Nat) (n : Nat) (z : Width), widthBytes z = n ∧ s.translatesTo x
        h p.toNat false es a = true ∧ p.toNat % 4096 + n ≤ 4096 ∧ s.Permits x (.hart h) a n false ∧ inSram a n = true ∧ s.spanRefuses x
        (.hart h) a n false = false ∧ s.lockedHere x (.hart h) a n = false) ∧
    (∃ (s : State) (x : Side) (h : Fin 4) (p : Word64) (es : List Ecc) (a : Nat) (n : Nat) (z : Width), widthBytes z = n ∧ 4 ≤ n ∧
        s.translatesTo x h p.toNat false es a = true ∧ p.toNat % 4096 + n ≤ 4096 ∧ s.Permits x (.hart h) a n false ∧ a % n = 0 ∧ inSram a n
        = true ∧ s.spanRefuses x (.hart h) a n false = false ∧ s.lockedHere x (.hart h) a n = false ∧ s.extIrq x h = false) ∧
    (∃ (s : State) (x : Side) (h : Fin 4) (p : Word64) (es : List Ecc) (a : Nat) (n : Nat) (z : Width), widthBytes z = n ∧ 4 ≤ n ∧
        s.translatesTo x h p.toNat true es a = true ∧ p.toNat % 4096 + n ≤ 4096 ∧ s.Permits x (.hart h) a n true ∧ a % n = 0 ∧ inSram a n =
        true ∧ s.spanRefuses x (.hart h) a n true = false ∧ s.mirLockedRange x a n = false ∧ s.lockedHere x (.hart h) a n = false ∧
        s.spanRefuses x (.hart h) a n false = false ∧ (s.hart x h).resv = some a) ∧
    (∃ (s : State) (x : Side) (h : Fin 4) (p : Word64) (es : List Ecc) (a : Nat) (n : Nat) (z : Width), widthBytes z = n ∧ 4 ≤ n ∧
        s.translatesTo x h p.toNat true es a = true ∧ p.toNat % 4096 + n ≤ 4096 ∧ s.Permits x (.hart h) a n true ∧ a % n = 0 ∧ inSram a n =
        true ∧ s.spanRefuses x (.hart h) a n true = false ∧ s.mirLockedRange x a n = false ∧ s.lockedHere x (.hart h) a n = false ∧
        s.spanRefuses x (.hart h) a n false = false ∧ (s.hart x h).resv ≠ some a) ∧
    (∃ (s : State) (x : Side) (h : Fin 4) (p : Word64) (es : List Ecc) (a : Nat) (n : Nat) (z : Width), widthBytes z = n ∧ 4 ≤ n ∧
        s.translatesTo x h p.toNat true es a = true ∧ p.toNat % 4096 + n ≤ 4096 ∧ s.Permits x (.hart h) a n true ∧ a % n = 0 ∧ inSram a n =
        true ∧ s.spanRefuses x (.hart h) a n true = false ∧ s.mirLockedRange x a n = false ∧ s.lockedHere x (.hart h) a n = false ∧
        s.spanRefuses x (.hart h) a n false = false) ∧
    (∃ (s : State) (x : Side) (h : Fin 4) (p : Word64) (es : List Ecc) (c : Nat), s.hartRuns x h = true ∧ s.makes x (.hart h) 0 8 true =
        true ∧ s.translateFails x h p.toNat true es c = true ∧ s.extIrq x h = false ∧ (s.hart x h).step = false) ∧
    (∃ (s : State) (x : Side) (h : Fin 4) (p : Word64) (es : List Ecc), s.translatesTo x h p.toNat true es 0x40140018 = true ∧ p.toNat %
        4096 ≤ 4088 ∧ s.Permits x (.hart h) 0x40140018 8 true) ∧
    (∃ (s : State) (x : Side) (h : Fin 4) (p : Word64) (es : List Ecc) (a : Nat), s.translatesTo x h p.toNat true es a = true ∧ p.toNat %
        4096 ≤ 4088 ∧ bridgeOf (placeOf a) = none ∧ s.makes x (.hart h) a 8 true = true ∧ s.pmpPasses x (.hart h) a 8 true = true ∧
        s.wotAllows x a (s.worldOf x (.hart h)) 1 = false) ∧
    (∃ (s : State) (x : Side) (h : Fin 4) (p : Word64) (es : List Ecc) (a : Nat), s.translatesTo x h p.toNat true es a = true ∧ p.toNat %
        4096 ≤ 4088 ∧ bridgeOf (placeOf a) = none ∧ s.makes x (.hart h) a 8 true = true ∧ s.pmpPasses x (.hart h) a 8 true = false ∧
        s.extIrq x h = false ∧ (s.hart x h).step = false) ∧
    (∃ (s : State) (x : Side) (h : Fin 4) (p : Word64) (a : Nat) (b : Nat) (n : Nat), s.translatesTo x h p.toNat false [] a = true ∧ 4096 -
        p.toNat % 4096 = n ∧ n < 8 ∧ s.translatesTo x h ((p.toNat + n) % 2 ^ 64) false [] b = true ∧ b ≠ a + n ∧ s.Permits x (.hart h) a n
        false ∧ s.Permits x (.hart h) b (8 - n) false ∧ inSram a n = true ∧ inSram b (8 - n) = true ∧ s.spanRefuses x (.hart h) a n false =
        false ∧ s.spanRefuses x (.hart h) b (8 - n) false = false ∧ s.lockedHere x (.hart h) a n = false ∧ s.lockedHere x (.hart h) b (8 -
        n) = false) ∧
    (∃ (s : State) (x : Side) (h : Fin 4) (p : Word64), s.hartRuns x h = true ∧ (s.hart x h).landing = none ∧ s.makes x (.hart h) 0 4 false
        = true ∧ p.toNat % 4096 = 0xCC0) ∧
    (∃ (s : State) (x : Side) (h : Fin 4) (p : Word64), s.hartRuns x h = true ∧ (s.hart x h).landing = none ∧ s.makes x (.hart h) 0 4 true =
        true ∧ p.toNat % 4096 = 0xCC0 ∧ s.extIrq x h = false ∧ (s.hart x h).step = false) :=
  ⟨⟨w0.set (.side .b) F.KEYS_OP_ADDR 0 0x10000000, .b, .hart 0, by decide +kernel⟩,
    ⟨w0.set (.side .b) F.KEYS_OP_ADDR 0 0x10000000, .b, .hart 0, by decide +kernel⟩,
    ⟨w0.set (.side .b) F.KEYS_OP_ADDR 0 0x10000000, .b, .hart 0, by decide +kernel⟩,
    ⟨w0.set (.side .b) F.KEYS_OP_ADDR 0 0x10000000, .b, .hart 0, by decide +kernel⟩,
    ⟨w0.set (.side .b) F.KEYS_OP_ADDR 0 0x10000000, .b, .hart 0, by decide +kernel⟩,
    ⟨w0.set (.side .b) F.KEYS_OP_ADDR 0 0x10000000, .b, .hart 0, by decide +kernel⟩,
    ⟨w0.set (.side .b) F.KEYS_OP_ADDR 0 0x10000000, .b, .hart 0, by decide +kernel⟩,
    ⟨w0.set (.side .b) F.KEYS_OP_ADDR 0 0x10000000, .b, .hart 0, by decide +kernel⟩,
    ⟨w0.setSide .b { wSide with keyOp := some [4, 9, 0, 0, 0, 0, 0, 0] }, .b, [4, 9, 0, 0, 0, 0, 0, 0], 4, by decide +kernel,
        by decide +kernel, by decide +kernel, by rfl⟩,
    ⟨(w0.set (.side .b) F.KEYS_SLOT_VALID 44 1).setSide .b { wSide with keyOp := some [4, 44, 0, 0, 0, 0, 0, 0], keyMat := [(44, [1])] },
        .b, 44, [0, 0, 0, 0, 0, 0], by decide +kernel⟩,
    ⟨w0.setSide .b { wSide with keyOp := some [1, 45, 0, 1, 3, 0x10000000, 0, 0] }, .b, [1, 45, 0, 1, 3, 0x10000000, 0, 0], some 0x1000001F,
        by decide +kernel⟩,
    ⟨w0.set (.side .b) F.TALLY_PERIOD 0 100, .b, by decide +kernel⟩,
    ⟨w0.set (.side .b) F.TALLY_RING_BASE 0 0x10008000, .b, 0x10008000, by decide +kernel⟩,
    ⟨w0.set (.side .b) F.TALLY_RING_BASE 0 0x10010000, .b, 0x10010000, 0x10020000, 1, by decide +kernel⟩,
    ⟨((((((w0.set (.side .b) F.PERF_CTRL_ENABLE 0 1).set (.side .b) F.PERF_SEL_EN 3 1).set (.side .b) F.PERF_SEL_EVENT 3 1).set (.side .b)
        F.PERF_FILT_INIT 3 0xFFF).set (.side .b) F.PERF_FILT_WORLD 3 255).set (.side .b) F.PERF_FILT_PRIV 3 15 |>.set (.side .b) F.PERF_CNT
        3 8), .b, ⟨1, 0, 0, 1, none, false⟩, 3, 8, by decide +kernel⟩,
    ⟨((((((w0.set (.side .b) F.PERF_CTRL_ENABLE 0 1).set (.side .b) F.PERF_SEL_EN 3 1).set (.side .b) F.PERF_SEL_EVENT 3 1).set (.side .b)
        F.PERF_FILT_INIT 3 0xFFF).set (.side .b) F.PERF_FILT_WORLD 3 255).set (.side .b) F.PERF_FILT_PRIV 3 15 |>.set (.side .b) F.PERF_CNT
        3 8).set (.side .b) F.PERF_CNT 3 (2 ^ 40 - 1) |>.set (.side .b) F.PERF_SEL_OVF_IRQ 3 1, .b, ⟨1, 0, 0, 1, none, false⟩, 3,
        by decide +kernel⟩,
    ⟨((w0.set (.side .b) F.PERF_SEL_CHAIN 3 1).set (.side .b) F.PERF_CNT 2 5).set (.side .b) F.PERF_CNT 3 9, .b, .hart 0, 2,
        by decide +kernel⟩,
    ⟨w0.log .b 0x006 4 [.wide 77], .b, .hart 0, by decide +kernel⟩,
    ⟨w0.setHart .a 1 { Hart.held with run := true }, .a, 1, 0x10000040, [], 0x10000040, 2, .w16, by decide +kernel⟩,
    ⟨w0, .a, .stoker 0, 0x10000040, 0x10000040, 2, .w16, by decide +kernel⟩,
    ⟨w0.setHart .a 1 { Hart.held with run := true }, .a, 1, 0x10000040, [], 0x10000040, 2, .w16, by decide +kernel⟩,
    ⟨w0.setHart .a 1 { Hart.held with run := true }, .a, 1, 0x10000040, [], 0x10000040, 2, .w16, by decide +kernel⟩,
    ⟨w0.setHart .a 1 { Hart.held with run := true }, .a, 1, 0x10000040, [], 0x10000040, 4, .w32, by decide +kernel⟩,
    ⟨w0.setHart .a 1 { Hart.held with run := true, resv := some 0x10000040 }, .a, 1, 0x10000040, [], 0x10000040, 4, .w32, by decide +kernel⟩,
    ⟨w0.setHart .a 1 { Hart.held with run := true }, .a, 1, 0x10000040, [], 0x10000040, 4, .w32, by decide +kernel⟩,
    ⟨w0.setHart .a 1 { Hart.held with run := true }, .a, 1, 0x10000040, [], 0x10000040, 4, .w32, by decide +kernel⟩,
    ⟨w0.setHart .a 1 { Hart.held with run := true }, .a, 1, 0x10000000040, [], 7, by decide +kernel⟩,
    ⟨w0.setHart .a 1 { Hart.held with run := true }, .a, 1, 0x40140018, [], by decide +kernel⟩,
    ⟨(w0.setHart .a 1 { Hart.held with run := true }).set (.side .a) F.WOT_HART_CURRENT 1 3, .a, 1, 0x40140018, [], 0x40140018,
        by decide +kernel⟩,
    ⟨w0.setHart .a 1 { Hart.held with run := true, banks := [(0, [(0x3A0, 0x99), (0x3B0, 0x3FFFFFFF)])] }, .a, 1, 0x40140018, [],
        0x40140018, by decide +kernel⟩,
    ⟨(((((w0.setHart .a 1
        { Hart.held with run := true, priv := 1, banks := [(0, [(0x180, 0x8000000000010000), (0x3A0, 0x1F), (0x3B0, 0x3FFFFFFFFF)])] }).storeLE
        .a 0x10000000 8 0x4000401).storeLE .a 0x10001000 8 0x4000801).storeLE .a 0x10002000 8 0x4000CC7).storeLE .a 0x10002008 8 0x40014C7),
        .a, 1, 0xFFD, 0x10003FFD, 0x10005000, 3, by decide +kernel⟩,
    ⟨(w0.setHart .a 1 { Hart.held with run := true }).set (.side .a) F.WOT_HART_CURRENT 1 3, .a, 1, 0xCC0, by decide +kernel⟩,
    ⟨(w0.setHart .a 1 { Hart.held with run := true }).set (.side .a) F.WOT_HART_CURRENT 1 3, .a, 1, 0xCC0, by decide +kernel⟩⟩

theorem witness_StokeUnderrun :
    (∃ (s : State) (x : Side) (l : List Word40) (e : Fin 40) (w : List Nat), s.is (.side x) F.STOKE_STATUS_ACTIVE 0 = true ∧ (s.side x).sdo
        ≠ [] ∧ e.val = 0 ∧ l.map (fun a => a.toNat) = w ∧ w.headD 0xFFFFFFFFFF ≠ 0xFFFFFFFFFF ∧ w.length < hdrCount (w.headD 0xFFFFFFFFFF) +
        1) :=
  ⟨((w0).setSide .b { wSide with sdo := [0xFFFFFFFFFF] }).set (.side .b) F.STOKE_STATUS_ACTIVE 0 1, .b, [0x0050003000, 7], 0,
        [0x0050003000, 7], by decide +kernel⟩

theorem witness_StokeFull :
    (∃ (s : State) (x : Side) (l : List Word40) (e : Fin 40) (w : List Nat), s.is (.side x) F.STOKE_STATUS_ACTIVE 0 = true ∧ (s.side x).sdo
        ≠ [] ∧ e.val = 0 ∧ l.map (fun a => a.toNat) = w ∧ w.headD 0xFFFFFFFFFF ≠ 0xFFFFFFFFFF ∧ hdrCount (w.headD 0xFFFFFFFFFF) + 1 ≤
        w.length ∧ s.credits x 32 < hdrCount (w.headD 0xFFFFFFFFFF) + 1) :=
  ⟨((w0.setSide .b { wSide with sdo := [0xFFFFFFFFFF] }).set (.side .b) F.STOKE_STATUS_ACTIVE 0 1).setSrc .b 32
        { Src.empty with cmd := List.replicate 64 ⟨0, 0, 0, 0, [], false⟩ }, .b, [0x0050001000, 7], 0, [0x0050001000, 7], by decide +kernel⟩

theorem witness_NetworkTime :
    (∃ (s : State) (d : Fin 2) (p : Fin 15) (msg : SyncMsg) (off : Int), s.flueRuns = true ∧ s.fb F.BLW_CFG_ENABLE d = true ∧ s.ptpPort p =
        true ∧ s.fg F.BLW_STATE_SLAVE_PORT d = p ∧ msg.domainNumber.toNat = s.fg F.BLW_CFG_DOMAIN_NUMBER d ∧ (s.protected_ p = true →
        msg.passed = true) ∧ msg.stamp - (s.rxLat p : Int) / 1024 - (cutTime msg.origin + msg.correction / 64 + s.upstream p) = off ∧ s.fg
        F.BLW_STATE_SERVO d = 0 ∧ s.fb F.BLW_STATE_HOLDOVER d = false) ∧
    (∃ (s : State) (d : Fin 2) (p : Fin 15) (msg : SyncMsg) (off : Int) (r : Int × Int), s.flueRuns = true ∧ s.fb F.BLW_CFG_ENABLE d = true
        ∧ s.ptpPort p = true ∧ s.fg F.BLW_STATE_SLAVE_PORT d = p ∧ msg.domainNumber.toNat = s.fg F.BLW_CFG_DOMAIN_NUMBER d ∧ (s.protected_ p
        = true → msg.passed = true) ∧ msg.stamp - (s.rxLat p : Int) / 1024 - (cutTime msg.origin + msg.correction / 64 + s.upstream p) = off
        ∧ s.fg F.BLW_STATE_SERVO d = 2 ∧ off.natAbs ≤ s.fg F.BLW_JUMP_TH d * 1024 ∧ servo (sigInt (s.fg F.BLW_KP d)) (sigInt (s.fg F.BLW_KI
        d)) (sigInt (s.fg F.BLW_INTEG d)) off = r) ∧
    (∃ (s : State) (d : Fin 2) (p : Fin 15) (msg : SyncMsg) (off : Int), s.flueRuns = true ∧ s.fb F.BLW_CFG_ENABLE d = true ∧ s.ptpPort p =
        true ∧ s.fg F.BLW_STATE_SLAVE_PORT d = p ∧ msg.domainNumber.toNat = s.fg F.BLW_CFG_DOMAIN_NUMBER d ∧ (s.protected_ p = true →
        msg.passed = true) ∧ msg.stamp - (s.rxLat p : Int) / 1024 - (cutTime msg.origin + msg.correction / 64 + s.upstream p) = off ∧ s.fg
        F.BLW_STATE_SERVO d = 2 ∧ s.fg F.BLW_JUMP_TH d * 1024 < off.natAbs ∧ s.fb F.BLW_STATE_PENDING d = false ∧ s.fb F.BLW_CFG_AUTO_STEP d
        = false) ∧
    (∃ (s : State) (d : Fin 2) (a : Nat), s.flueRuns = true ∧ (s.dom d).syncAt = some a ∧ s.fg F.BLW_STATE_SERVO d = 2) ∧
    (∃ (s : State) (p : Fin 15) (msg : SyncMsg), s.protected_ p = true ∧ msg.passed = false) ∧
    (∃ (s : State) (d : Fin 2) (l : List Announce), s.flueRuns = true ∧ s.fb F.BLW_CFG_ENABLE d = true ∧ s.fb F.BLW_CFG_EXT_PORT d = false ∧
        s.fb F.BLW_CFG_GM_CAPABLE d = true ∧ bestOf (l.filter (fun a => s.qualified d a)) = none ∧ s.fb F.BLW_STATE_IS_GM d = false) ∧
    (∃ (s : State) (d : Fin 2) (l : List Announce) (a : Announce), s.flueRuns = true ∧ s.fb F.BLW_CFG_ENABLE d = true ∧ s.fb
        F.BLW_CFG_EXT_PORT d = false ∧ bestOf (l.filter (fun a => s.qualified d a)) = some a ∧ (s.fb F.BLW_CFG_GM_CAPABLE d = false ∨ better
        (s.ownVector d 0) (annVector a) = false) ∧ s.fg F.BLW_STATE_SERVO d ≠ 4) ∧
    (∃ (s : State) (d : Fin 2) (l : List Announce), s.fb F.BLW_CFG_GM_CAPABLE d = false ∧ bestOf (l.filter (fun a => s.qualified d a)) =
        none) ∧
    (∃ (s : State) (d : Fin 2) (p : Fin 15) (g : Word40) (pin : Int), s.flueRuns = true ∧ s.fb F.BLW_CFG_ENABLE d = true ∧ s.ptpPort p =
        true ∧ s.ptpRole d p = 1 ∧ s.protected_ p = false ∧ s.fg F.BLW_STATE_SERVO d = 4 ∧ ((s.blwTime d / secTicks * secTicks + g.toNat :
        Nat) : Int) + (s.txLat p / 1024 : Nat) = pin) ∧
    (∃ (s : State) (d : Fin 2) (p : Fin 15) (g : Word40) (pin : Int) (k : Int) (z : Nat), s.flueRuns = true ∧ s.fb F.BLW_CFG_ENABLE d = true
        ∧ s.ptpPort p = true ∧ s.ptpRole d p = 1 ∧ s.protected_ p = false ∧ s.fg F.BLW_STATE_SERVO d ≠ 4 ∧ (s.dom d).syncAt = some z ∧
        ((s.blwTime d / secTicks * secTicks + g.toNat : Nat) : Int) + (s.txLat p / 1024 : Nat) = pin ∧ (s.upstream (s.fg
        F.BLW_STATE_SLAVE_PORT d) + (pin - (s.dom d).rxPin)) * 64 = k) ∧
    (∃ (s : State) (p : Fin 15), s.flueRuns = true ∧ s.ptpPort p = true ∧ p.val < 14) ∧
    (∃ (s : State) (p : Fin 15), s.flueRuns = true ∧ s.ptpPort p = true ∧ p.val < 14) ∧
    (∃ (s : State) (x : Side), s.flueRuns = true ∧ s.fabric x = true ∧ s.domState x 0 = 0 ∧ s.domState x 1 = 0 ∧ s.fg F.BLW_STATE_SERVO 0 ≠
        0 ∧ s.fg F.BLW_STATE_SERVO 1 ≠ 0) ∧
    (∃ (s : State) (x : Side), s.flueRuns = true ∧ s.fabric x = true ∧ (∀ d : Nat, d < 2 → s.domState x d = 1 ∧ s.fg F.BLW_STATE_SERVO d ≠ 0
        ∧ (s.dom d).stepA = false ∧ (s.dom d).stepB = false ∧ (s.clock x d).ppm ≠ 50)) ∧
    (∃ (s : State) (x : Side), s.flueRuns = true ∧ s.fabric x = true ∧ (∀ d : Nat, d < 2 → s.domState x d = 2 ∧ s.fg F.BLW_STATE_SERVO d ≠ 0
        ∧ ((s.blwTime d : Int) - s.domTime x d).natAbs ≤ 1000 * 1024)) ∧
    (∃ (s : State) (x : Side), s.flueRuns = true ∧ s.fabric x = true ∧ (∀ d : Nat, d < 2 → s.domState x d = 2 ∧ s.fg F.BLW_STATE_SERVO d ≠ 0
        ∧ 1000 * 1024 < ((s.blwTime d : Int) - s.domTime x d).natAbs)) ∧
    (∃ (s : State) (x : Side) (a : Nat), s.fabric x = true ∧ (s.side x).lastMsg = some a ∧ s.is (.side x) F.TIME_STATUS_LINK_UP 0 = true) ∧
    (∃ (s : State) (x : Side) (o : Origin) (d : Fin 2), s.Permits x o (0x400C0010 + 0x10 * d) 8 false) ∧
    (∃ (s : State) (x : Side) (n : Fin 4) (a : Nat) (d : Nat), s.fabric x = true ∧ Tab.at 0 (s.side x).tpoNext n = a + 1 ∧ (s.side
        x).tpoLevel.testBit n = false ∧ s.get (.side x) F.TPO_CTRL_DOMAIN n = d) ∧
    (∃ (s : State) (x : Side) (n : Fin 4) (a : Nat), s.fabric x = true ∧ Tab.at 0 (s.side x).tpoNext n = a + 1 ∧ (s.side x).tpoLevel.testBit
        n = true ∧ Tab.at [] (s.side x).tpoNew n = [] ∧ s.get (.side x) F.TPO_PERIOD n = 0) ∧
    (∃ (s : State) (x : Side) (n : Fin 4) (a : Nat) (p1 : Nat) (p2 : Nat) (p3 : Nat) (p4 : Nat) (p5 : Nat), s.fabric x = true ∧ Tab.at 0
        (s.side x).tpoNext n = a + 1 ∧ (s.side x).tpoLevel.testBit n = true ∧ Tab.at [] (s.side x).tpoNew n = [p1, p2, p3, p4, p5]) ∧
    (∃ (s : State) (x : Side) (n : Fin 4) (b : Bool) (e : Nat) (c : Nat), s.fabric x = true ∧ s.get (.side x) F.TCI_CFG_EDGE n = e ∧
        e.testBit (if b then 0 else 1) = true ∧ (Tab.at 0 (s.side x).tciAt n = 0 ∨ Tab.at 0 (s.side x).tciAt n + 99 ≤ s.now) ∧ s.domTime x
        (s.get (.side x) F.TCI_CFG_DOMAIN n) = c) :=
  ⟨⟨(w0.set .flue F.BLW_CFG_ENABLE 1 1 |>.set .flue F.BLW_CFG_DOMAIN_NUMBER 1 1 |>.set .flue F.BLW_PCFG_PTP_EN 3 1 |>.set .flue
        F.PORT_CFG_ENABLE 3 1 |>.set .flue F.PORT_STATUS_LINK 3 1 |>.set .flue F.BLW_STATE_SLAVE_PORT 1 3 |>.set .flue F.BLW_JUMP_TH 1 1000
        |>.set .flue F.BLW_LOCK_TH 1 0x6400000 |>.set .flue F.BLW_KP 1 0xB3333 |>.set .flue F.BLW_KI 1 0x4CCCC |>.set .flue
        F.BLW_STATE_SERVO 1 0), 1, 3, ⟨1, 1000000, 32000000, 3000, true, true⟩, ((⟨1, 1000000, 32000000, 3000, true, true⟩ : SyncMsg).stamp
        - ((w0.set .flue F.BLW_CFG_ENABLE 1 1 |>.set .flue F.BLW_CFG_DOMAIN_NUMBER 1 1 |>.set .flue F.BLW_PCFG_PTP_EN 3 1 |>.set .flue
        F.PORT_CFG_ENABLE 3 1 |>.set .flue F.PORT_STATUS_LINK 3 1 |>.set .flue F.BLW_STATE_SLAVE_PORT 1 3 |>.set .flue F.BLW_JUMP_TH 1 1000
        |>.set .flue F.BLW_LOCK_TH 1 0x6400000 |>.set .flue F.BLW_KP 1 0xB3333 |>.set .flue F.BLW_KI 1 0x4CCCC).rxLat 3 : Int) / 1024 -
        (cutTime (⟨1, 1000000, 32000000, 3000, true, true⟩ : SyncMsg).origin + (⟨1, 1000000, 32000000, 3000, true, true⟩ :
        SyncMsg).correction / 64 + (w0.set .flue F.BLW_CFG_ENABLE 1 1 |>.set .flue F.BLW_CFG_DOMAIN_NUMBER 1 1 |>.set .flue
        F.BLW_PCFG_PTP_EN 3 1 |>.set .flue F.PORT_CFG_ENABLE 3 1 |>.set .flue F.PORT_STATUS_LINK 3 1 |>.set .flue F.BLW_STATE_SLAVE_PORT 1 3
        |>.set .flue F.BLW_JUMP_TH 1 1000 |>.set .flue F.BLW_LOCK_TH 1 0x6400000 |>.set .flue F.BLW_KP 1 0xB3333 |>.set .flue F.BLW_KI 1
        0x4CCCC).upstream 3)), by decide +kernel⟩,
    ⟨(w0.set .flue F.BLW_CFG_ENABLE 1 1 |>.set .flue F.BLW_CFG_DOMAIN_NUMBER 1 1 |>.set .flue F.BLW_PCFG_PTP_EN 3 1 |>.set .flue
        F.PORT_CFG_ENABLE 3 1 |>.set .flue F.PORT_STATUS_LINK 3 1 |>.set .flue F.BLW_STATE_SLAVE_PORT 1 3 |>.set .flue F.BLW_JUMP_TH 1 1000
        |>.set .flue F.BLW_LOCK_TH 1 0x6400000 |>.set .flue F.BLW_KP 1 0xB3333 |>.set .flue F.BLW_KI 1 0x4CCCC |>.set .flue
        F.BLW_STATE_SERVO 1 2), 1, 3, ⟨1, 1000000, 32000000, 1503500 + ((w0.set .flue F.BLW_CFG_ENABLE 1 1 |>.set .flue
        F.BLW_CFG_DOMAIN_NUMBER 1 1 |>.set .flue F.BLW_PCFG_PTP_EN 3 1 |>.set .flue F.PORT_CFG_ENABLE 3 1 |>.set .flue F.PORT_STATUS_LINK 3
        1 |>.set .flue F.BLW_STATE_SLAVE_PORT 1 3 |>.set .flue F.BLW_JUMP_TH 1 1000 |>.set .flue F.BLW_LOCK_TH 1 0x6400000 |>.set .flue
        F.BLW_KP 1 0xB3333 |>.set .flue F.BLW_KI 1 0x4CCCC).rxLat 3 : Int) / 1024 + (w0.set .flue F.BLW_CFG_ENABLE 1 1 |>.set .flue
        F.BLW_CFG_DOMAIN_NUMBER 1 1 |>.set .flue F.BLW_PCFG_PTP_EN 3 1 |>.set .flue F.PORT_CFG_ENABLE 3 1 |>.set .flue F.PORT_STATUS_LINK 3
        1 |>.set .flue F.BLW_STATE_SLAVE_PORT 1 3 |>.set .flue F.BLW_JUMP_TH 1 1000 |>.set .flue F.BLW_LOCK_TH 1 0x6400000 |>.set .flue
        F.BLW_KP 1 0xB3333 |>.set .flue F.BLW_KI 1 0x4CCCC).upstream 3, true, true⟩, ((⟨1, 1000000, 32000000, 1503500 + ((w0.set .flue
        F.BLW_CFG_ENABLE 1 1 |>.set .flue F.BLW_CFG_DOMAIN_NUMBER 1 1 |>.set .flue F.BLW_PCFG_PTP_EN 3 1 |>.set .flue F.PORT_CFG_ENABLE 3 1
        |>.set .flue F.PORT_STATUS_LINK 3 1 |>.set .flue F.BLW_STATE_SLAVE_PORT 1 3 |>.set .flue F.BLW_JUMP_TH 1 1000 |>.set .flue
        F.BLW_LOCK_TH 1 0x6400000 |>.set .flue F.BLW_KP 1 0xB3333 |>.set .flue F.BLW_KI 1 0x4CCCC).rxLat 3 : Int) / 1024 + (w0.set .flue
        F.BLW_CFG_ENABLE 1 1 |>.set .flue F.BLW_CFG_DOMAIN_NUMBER 1 1 |>.set .flue F.BLW_PCFG_PTP_EN 3 1 |>.set .flue F.PORT_CFG_ENABLE 3 1
        |>.set .flue F.PORT_STATUS_LINK 3 1 |>.set .flue F.BLW_STATE_SLAVE_PORT 1 3 |>.set .flue F.BLW_JUMP_TH 1 1000 |>.set .flue
        F.BLW_LOCK_TH 1 0x6400000 |>.set .flue F.BLW_KP 1 0xB3333 |>.set .flue F.BLW_KI 1 0x4CCCC).upstream 3, true, true⟩ : SyncMsg).stamp
        - ((w0.set .flue F.BLW_CFG_ENABLE 1 1 |>.set .flue F.BLW_CFG_DOMAIN_NUMBER 1 1 |>.set .flue F.BLW_PCFG_PTP_EN 3 1 |>.set .flue
        F.PORT_CFG_ENABLE 3 1 |>.set .flue F.PORT_STATUS_LINK 3 1 |>.set .flue F.BLW_STATE_SLAVE_PORT 1 3 |>.set .flue F.BLW_JUMP_TH 1 1000
        |>.set .flue F.BLW_LOCK_TH 1 0x6400000 |>.set .flue F.BLW_KP 1 0xB3333 |>.set .flue F.BLW_KI 1 0x4CCCC).rxLat 3 : Int) / 1024 -
        (cutTime (⟨1, 1000000, 32000000, 1503500 + ((w0.set .flue F.BLW_CFG_ENABLE 1 1 |>.set .flue F.BLW_CFG_DOMAIN_NUMBER 1 1 |>.set .flue
        F.BLW_PCFG_PTP_EN 3 1 |>.set .flue F.PORT_CFG_ENABLE 3 1 |>.set .flue F.PORT_STATUS_LINK 3 1 |>.set .flue F.BLW_STATE_SLAVE_PORT 1 3
        |>.set .flue F.BLW_JUMP_TH 1 1000 |>.set .flue F.BLW_LOCK_TH 1 0x6400000 |>.set .flue F.BLW_KP 1 0xB3333 |>.set .flue F.BLW_KI 1
        0x4CCCC).rxLat 3 : Int) / 1024 + (w0.set .flue F.BLW_CFG_ENABLE 1 1 |>.set .flue F.BLW_CFG_DOMAIN_NUMBER 1 1 |>.set .flue
        F.BLW_PCFG_PTP_EN 3 1 |>.set .flue F.PORT_CFG_ENABLE 3 1 |>.set .flue F.PORT_STATUS_LINK 3 1 |>.set .flue F.BLW_STATE_SLAVE_PORT 1 3
        |>.set .flue F.BLW_JUMP_TH 1 1000 |>.set .flue F.BLW_LOCK_TH 1 0x6400000 |>.set .flue F.BLW_KP 1 0xB3333 |>.set .flue F.BLW_KI 1
        0x4CCCC).upstream 3, true, true⟩ : SyncMsg).origin + (⟨1, 1000000, 32000000, 1503500 + ((w0.set .flue F.BLW_CFG_ENABLE 1 1 |>.set
        .flue F.BLW_CFG_DOMAIN_NUMBER 1 1 |>.set .flue F.BLW_PCFG_PTP_EN 3 1 |>.set .flue F.PORT_CFG_ENABLE 3 1 |>.set .flue
        F.PORT_STATUS_LINK 3 1 |>.set .flue F.BLW_STATE_SLAVE_PORT 1 3 |>.set .flue F.BLW_JUMP_TH 1 1000 |>.set .flue F.BLW_LOCK_TH 1
        0x6400000 |>.set .flue F.BLW_KP 1 0xB3333 |>.set .flue F.BLW_KI 1 0x4CCCC).rxLat 3 : Int) / 1024 + (w0.set .flue F.BLW_CFG_ENABLE 1
        1 |>.set .flue F.BLW_CFG_DOMAIN_NUMBER 1 1 |>.set .flue F.BLW_PCFG_PTP_EN 3 1 |>.set .flue F.PORT_CFG_ENABLE 3 1 |>.set .flue
        F.PORT_STATUS_LINK 3 1 |>.set .flue F.BLW_STATE_SLAVE_PORT 1 3 |>.set .flue F.BLW_JUMP_TH 1 1000 |>.set .flue F.BLW_LOCK_TH 1
        0x6400000 |>.set .flue F.BLW_KP 1 0xB3333 |>.set .flue F.BLW_KI 1 0x4CCCC).upstream 3, true, true⟩ : SyncMsg).correction / 64 +
        (w0.set .flue F.BLW_CFG_ENABLE 1 1 |>.set .flue F.BLW_CFG_DOMAIN_NUMBER 1 1 |>.set .flue F.BLW_PCFG_PTP_EN 3 1 |>.set .flue
        F.PORT_CFG_ENABLE 3 1 |>.set .flue F.PORT_STATUS_LINK 3 1 |>.set .flue F.BLW_STATE_SLAVE_PORT 1 3 |>.set .flue F.BLW_JUMP_TH 1 1000
        |>.set .flue F.BLW_LOCK_TH 1 0x6400000 |>.set .flue F.BLW_KP 1 0xB3333 |>.set .flue F.BLW_KI 1 0x4CCCC).upstream 3)), servo (sigInt
        ((w0.set .flue F.BLW_CFG_ENABLE 1 1 |>.set .flue F.BLW_CFG_DOMAIN_NUMBER 1 1 |>.set .flue F.BLW_PCFG_PTP_EN 3 1 |>.set .flue
        F.PORT_CFG_ENABLE 3 1 |>.set .flue F.PORT_STATUS_LINK 3 1 |>.set .flue F.BLW_STATE_SLAVE_PORT 1 3 |>.set .flue F.BLW_JUMP_TH 1 1000
        |>.set .flue F.BLW_LOCK_TH 1 0x6400000 |>.set .flue F.BLW_KP 1 0xB3333 |>.set .flue F.BLW_KI 1 0x4CCCC).fg F.BLW_KP 1)) (sigInt
        ((w0.set .flue F.BLW_CFG_ENABLE 1 1 |>.set .flue F.BLW_CFG_DOMAIN_NUMBER 1 1 |>.set .flue F.BLW_PCFG_PTP_EN 3 1 |>.set .flue
        F.PORT_CFG_ENABLE 3 1 |>.set .flue F.PORT_STATUS_LINK 3 1 |>.set .flue F.BLW_STATE_SLAVE_PORT 1 3 |>.set .flue F.BLW_JUMP_TH 1 1000
        |>.set .flue F.BLW_LOCK_TH 1 0x6400000 |>.set .flue F.BLW_KP 1 0xB3333 |>.set .flue F.BLW_KI 1 0x4CCCC).fg F.BLW_KI 1)) (sigInt
        ((w0.set .flue F.BLW_CFG_ENABLE 1 1 |>.set .flue F.BLW_CFG_DOMAIN_NUMBER 1 1 |>.set .flue F.BLW_PCFG_PTP_EN 3 1 |>.set .flue
        F.PORT_CFG_ENABLE 3 1 |>.set .flue F.PORT_STATUS_LINK 3 1 |>.set .flue F.BLW_STATE_SLAVE_PORT 1 3 |>.set .flue F.BLW_JUMP_TH 1 1000
        |>.set .flue F.BLW_LOCK_TH 1 0x6400000 |>.set .flue F.BLW_KP 1 0xB3333 |>.set .flue F.BLW_KI 1 0x4CCCC).fg F.BLW_INTEG 1)) ((⟨1,
        1000000, 32000000, 1503500 + ((w0.set .flue F.BLW_CFG_ENABLE 1 1 |>.set .flue F.BLW_CFG_DOMAIN_NUMBER 1 1 |>.set .flue
        F.BLW_PCFG_PTP_EN 3 1 |>.set .flue F.PORT_CFG_ENABLE 3 1 |>.set .flue F.PORT_STATUS_LINK 3 1 |>.set .flue F.BLW_STATE_SLAVE_PORT 1 3
        |>.set .flue F.BLW_JUMP_TH 1 1000 |>.set .flue F.BLW_LOCK_TH 1 0x6400000 |>.set .flue F.BLW_KP 1 0xB3333 |>.set .flue F.BLW_KI 1
        0x4CCCC).rxLat 3 : Int) / 1024 + (w0.set .flue F.BLW_CFG_ENABLE 1 1 |>.set .flue F.BLW_CFG_DOMAIN_NUMBER 1 1 |>.set .flue
        F.BLW_PCFG_PTP_EN 3 1 |>.set .flue F.PORT_CFG_ENABLE 3 1 |>.set .flue F.PORT_STATUS_LINK 3 1 |>.set .flue F.BLW_STATE_SLAVE_PORT 1 3
        |>.set .flue F.BLW_JUMP_TH 1 1000 |>.set .flue F.BLW_LOCK_TH 1 0x6400000 |>.set .flue F.BLW_KP 1 0xB3333 |>.set .flue F.BLW_KI 1
        0x4CCCC).upstream 3, true, true⟩ : SyncMsg).stamp - ((w0.set .flue F.BLW_CFG_ENABLE 1 1 |>.set .flue F.BLW_CFG_DOMAIN_NUMBER 1 1
        |>.set .flue F.BLW_PCFG_PTP_EN 3 1 |>.set .flue F.PORT_CFG_ENABLE 3 1 |>.set .flue F.PORT_STATUS_LINK 3 1 |>.set .flue
        F.BLW_STATE_SLAVE_PORT 1 3 |>.set .flue F.BLW_JUMP_TH 1 1000 |>.set .flue F.BLW_LOCK_TH 1 0x6400000 |>.set .flue F.BLW_KP 1 0xB3333
        |>.set .flue F.BLW_KI 1 0x4CCCC).rxLat 3 : Int) / 1024 - (cutTime (⟨1, 1000000, 32000000, 1503500 + ((w0.set .flue F.BLW_CFG_ENABLE
        1 1 |>.set .flue F.BLW_CFG_DOMAIN_NUMBER 1 1 |>.set .flue F.BLW_PCFG_PTP_EN 3 1 |>.set .flue F.PORT_CFG_ENABLE 3 1 |>.set .flue
        F.PORT_STATUS_LINK 3 1 |>.set .flue F.BLW_STATE_SLAVE_PORT 1 3 |>.set .flue F.BLW_JUMP_TH 1 1000 |>.set .flue F.BLW_LOCK_TH 1
        0x6400000 |>.set .flue F.BLW_KP 1 0xB3333 |>.set .flue F.BLW_KI 1 0x4CCCC).rxLat 3 : Int) / 1024 + (w0.set .flue F.BLW_CFG_ENABLE 1
        1 |>.set .flue F.BLW_CFG_DOMAIN_NUMBER 1 1 |>.set .flue F.BLW_PCFG_PTP_EN 3 1 |>.set .flue F.PORT_CFG_ENABLE 3 1 |>.set .flue
        F.PORT_STATUS_LINK 3 1 |>.set .flue F.BLW_STATE_SLAVE_PORT 1 3 |>.set .flue F.BLW_JUMP_TH 1 1000 |>.set .flue F.BLW_LOCK_TH 1
        0x6400000 |>.set .flue F.BLW_KP 1 0xB3333 |>.set .flue F.BLW_KI 1 0x4CCCC).upstream 3, true, true⟩ : SyncMsg).origin + (⟨1, 1000000,
        32000000, 1503500 + ((w0.set .flue F.BLW_CFG_ENABLE 1 1 |>.set .flue F.BLW_CFG_DOMAIN_NUMBER 1 1 |>.set .flue F.BLW_PCFG_PTP_EN 3 1
        |>.set .flue F.PORT_CFG_ENABLE 3 1 |>.set .flue F.PORT_STATUS_LINK 3 1 |>.set .flue F.BLW_STATE_SLAVE_PORT 1 3 |>.set .flue
        F.BLW_JUMP_TH 1 1000 |>.set .flue F.BLW_LOCK_TH 1 0x6400000 |>.set .flue F.BLW_KP 1 0xB3333 |>.set .flue F.BLW_KI 1 0x4CCCC).rxLat 3
        : Int) / 1024 + (w0.set .flue F.BLW_CFG_ENABLE 1 1 |>.set .flue F.BLW_CFG_DOMAIN_NUMBER 1 1 |>.set .flue F.BLW_PCFG_PTP_EN 3 1
        |>.set .flue F.PORT_CFG_ENABLE 3 1 |>.set .flue F.PORT_STATUS_LINK 3 1 |>.set .flue F.BLW_STATE_SLAVE_PORT 1 3 |>.set .flue
        F.BLW_JUMP_TH 1 1000 |>.set .flue F.BLW_LOCK_TH 1 0x6400000 |>.set .flue F.BLW_KP 1 0xB3333 |>.set .flue F.BLW_KI 1
        0x4CCCC).upstream 3, true, true⟩ : SyncMsg).correction / 64 + (w0.set .flue F.BLW_CFG_ENABLE 1 1 |>.set .flue
        F.BLW_CFG_DOMAIN_NUMBER 1 1 |>.set .flue F.BLW_PCFG_PTP_EN 3 1 |>.set .flue F.PORT_CFG_ENABLE 3 1 |>.set .flue F.PORT_STATUS_LINK 3
        1 |>.set .flue F.BLW_STATE_SLAVE_PORT 1 3 |>.set .flue F.BLW_JUMP_TH 1 1000 |>.set .flue F.BLW_LOCK_TH 1 0x6400000 |>.set .flue
        F.BLW_KP 1 0xB3333 |>.set .flue F.BLW_KI 1 0x4CCCC).upstream 3)), by decide +kernel⟩,
    ⟨(w0.set .flue F.BLW_CFG_ENABLE 1 1 |>.set .flue F.BLW_CFG_DOMAIN_NUMBER 1 1 |>.set .flue F.BLW_PCFG_PTP_EN 3 1 |>.set .flue
        F.PORT_CFG_ENABLE 3 1 |>.set .flue F.PORT_STATUS_LINK 3 1 |>.set .flue F.BLW_STATE_SLAVE_PORT 1 3 |>.set .flue F.BLW_JUMP_TH 1 1000
        |>.set .flue F.BLW_LOCK_TH 1 0x6400000 |>.set .flue F.BLW_KP 1 0xB3333 |>.set .flue F.BLW_KI 1 0x4CCCC |>.set .flue
        F.BLW_STATE_SERVO 1 2 |>.set .flue F.BLW_STATE_LOCKED 1 1), 1, 3, ⟨1, 9000000, 32000000, 3000, true, true⟩, ((⟨1, 9000000, 32000000,
        3000, true, true⟩ : SyncMsg).stamp - ((w0.set .flue F.BLW_CFG_ENABLE 1 1 |>.set .flue F.BLW_CFG_DOMAIN_NUMBER 1 1 |>.set .flue
        F.BLW_PCFG_PTP_EN 3 1 |>.set .flue F.PORT_CFG_ENABLE 3 1 |>.set .flue F.PORT_STATUS_LINK 3 1 |>.set .flue F.BLW_STATE_SLAVE_PORT 1 3
        |>.set .flue F.BLW_JUMP_TH 1 1000 |>.set .flue F.BLW_LOCK_TH 1 0x6400000 |>.set .flue F.BLW_KP 1 0xB3333 |>.set .flue F.BLW_KI 1
        0x4CCCC).rxLat 3 : Int) / 1024 - (cutTime (⟨1, 9000000, 32000000, 3000, true, true⟩ : SyncMsg).origin + (⟨1, 9000000, 32000000,
        3000, true, true⟩ : SyncMsg).correction / 64 + (w0.set .flue F.BLW_CFG_ENABLE 1 1 |>.set .flue F.BLW_CFG_DOMAIN_NUMBER 1 1 |>.set
        .flue F.BLW_PCFG_PTP_EN 3 1 |>.set .flue F.PORT_CFG_ENABLE 3 1 |>.set .flue F.PORT_STATUS_LINK 3 1 |>.set .flue
        F.BLW_STATE_SLAVE_PORT 1 3 |>.set .flue F.BLW_JUMP_TH 1 1000 |>.set .flue F.BLW_LOCK_TH 1 0x6400000 |>.set .flue F.BLW_KP 1 0xB3333
        |>.set .flue F.BLW_KI 1 0x4CCCC).upstream 3)), by decide +kernel⟩,
    ⟨({ (w0.set .flue F.BLW_STATE_SERVO 1 2) with flue := { (w0.set .flue F.BLW_STATE_SERVO 1 2).flue with dom1 := { Domain.init 0 with syncAt := some 19990000000 } } }),
        1, 19990000000, by decide +kernel⟩,
    ⟨w0.set .flue F.BLW_CFG_ENABLE 1 1 |>.set .flue F.BLW_CFG_DOMAIN_NUMBER 1 1 |>.set .flue F.BLW_PCFG_PTP_EN 3 1 |>.set .flue
        F.PORT_CFG_ENABLE 3 1 |>.set .flue F.PORT_STATUS_LINK 3 1 |>.set .flue F.BLW_STATE_SLAVE_PORT 1 3 |>.set .flue F.BLW_JUMP_TH 1 1000
        |>.set .flue F.BLW_LOCK_TH 1 0x6400000 |>.set .flue F.BLW_KP 1 0xB3333 |>.set .flue F.BLW_KI 1 0x4CCCC |>.set .flue
        F.PORT_CFG_MACSEC_EN 3 1, 3, ⟨1, 1000000, 32000000, 3000, true, false⟩, by decide +kernel⟩,
    ⟨w0.set .flue F.BLW_CFG_ENABLE 1 1 |>.set .flue F.BLW_CFG_DOMAIN_NUMBER 1 1 |>.set .flue F.BLW_PCFG_PTP_EN 3 1 |>.set .flue
        F.PORT_CFG_ENABLE 3 1 |>.set .flue F.PORT_STATUS_LINK 3 1 |>.set .flue F.BLW_STATE_SLAVE_PORT 1 3 |>.set .flue F.BLW_JUMP_TH 1 1000
        |>.set .flue F.BLW_LOCK_TH 1 0x6400000 |>.set .flue F.BLW_KP 1 0xB3333 |>.set .flue F.BLW_KI 1 0x4CCCC |>.set .flue
        F.BLW_CFG_GM_CAPABLE 1 1, 1, [], by decide +kernel⟩,
    ⟨w0.set .flue F.BLW_CFG_ENABLE 1 1 |>.set .flue F.BLW_CFG_DOMAIN_NUMBER 1 1 |>.set .flue F.BLW_PCFG_PTP_EN 3 1 |>.set .flue
        F.PORT_CFG_ENABLE 3 1 |>.set .flue F.PORT_STATUS_LINK 3 1 |>.set .flue F.BLW_STATE_SLAVE_PORT 1 3 |>.set .flue F.BLW_JUMP_TH 1 1000
        |>.set .flue F.BLW_LOCK_TH 1 0x6400000 |>.set .flue F.BLW_KP 1 0xB3333 |>.set .flue F.BLW_KI 1 0x4CCCC |>.set .flue
        F.BLW_PSTATUS_AS_CAPABLE 3 1, 1, [otherAnnounce], otherAnnounce, by decide +kernel, by decide +kernel, by decide +kernel,
        otherAnnounce_best _ _ (by decide +kernel) (by decide +kernel) (by decide +kernel), by decide +kernel, by decide +kernel⟩,
    ⟨w0.set .flue F.BLW_CFG_ENABLE 1 1 |>.set .flue F.BLW_CFG_DOMAIN_NUMBER 1 1 |>.set .flue F.BLW_PCFG_PTP_EN 3 1 |>.set .flue
        F.PORT_CFG_ENABLE 3 1 |>.set .flue F.PORT_STATUS_LINK 3 1 |>.set .flue F.BLW_STATE_SLAVE_PORT 1 3 |>.set .flue F.BLW_JUMP_TH 1 1000
        |>.set .flue F.BLW_LOCK_TH 1 0x6400000 |>.set .flue F.BLW_KP 1 0xB3333 |>.set .flue F.BLW_KI 1 0x4CCCC |>.set .flue
        F.BLW_CFG_GM_CAPABLE 1 0, 1, [], by decide +kernel⟩,
    ⟨(w0.set .flue F.BLW_CFG_ENABLE 1 1 |>.set .flue F.BLW_CFG_DOMAIN_NUMBER 1 1 |>.set .flue F.BLW_PCFG_PTP_EN 3 1 |>.set .flue
        F.PORT_CFG_ENABLE 3 1 |>.set .flue F.PORT_STATUS_LINK 3 1 |>.set .flue F.BLW_STATE_SLAVE_PORT 1 3 |>.set .flue F.BLW_JUMP_TH 1 1000
        |>.set .flue F.BLW_LOCK_TH 1 0x6400000 |>.set .flue F.BLW_KP 1 0xB3333 |>.set .flue F.BLW_KI 1 0x4CCCC |>.set .flue
        F.BLW_STATE_SERVO 1 4 |>.set .flue F.BLW_PSTATUS_ROLE_D1 3 1), 1, 3, 0x1234567, ((((w0.set .flue F.BLW_CFG_ENABLE 1 1 |>.set .flue
        F.BLW_CFG_DOMAIN_NUMBER 1 1 |>.set .flue F.BLW_PCFG_PTP_EN 3 1 |>.set .flue F.PORT_CFG_ENABLE 3 1 |>.set .flue F.PORT_STATUS_LINK 3
        1 |>.set .flue F.BLW_STATE_SLAVE_PORT 1 3 |>.set .flue F.BLW_JUMP_TH 1 1000 |>.set .flue F.BLW_LOCK_TH 1 0x6400000 |>.set .flue
        F.BLW_KP 1 0xB3333 |>.set .flue F.BLW_KI 1 0x4CCCC).blwTime 1 / secTicks * secTicks + 0x1234567 : Nat) : Int) + ((w0.set .flue
        F.BLW_CFG_ENABLE 1 1 |>.set .flue F.BLW_CFG_DOMAIN_NUMBER 1 1 |>.set .flue F.BLW_PCFG_PTP_EN 3 1 |>.set .flue F.PORT_CFG_ENABLE 3 1
        |>.set .flue F.PORT_STATUS_LINK 3 1 |>.set .flue F.BLW_STATE_SLAVE_PORT 1 3 |>.set .flue F.BLW_JUMP_TH 1 1000 |>.set .flue
        F.BLW_LOCK_TH 1 0x6400000 |>.set .flue F.BLW_KP 1 0xB3333 |>.set .flue F.BLW_KI 1 0x4CCCC).txLat 3 / 1024 : Nat)),
        by decide +kernel⟩,
    ⟨({ ((w0.set .flue F.BLW_CFG_ENABLE 1 1 |>.set .flue F.BLW_CFG_DOMAIN_NUMBER 1 1 |>.set .flue F.BLW_PCFG_PTP_EN 3 1 |>.set .flue F.PORT_CFG_ENABLE 3 1 |>.set .flue F.PORT_STATUS_LINK 3 1 |>.set .flue F.BLW_STATE_SLAVE_PORT 1 3 |>.set .flue F.BLW_JUMP_TH 1 1000 |>.set .flue F.BLW_LOCK_TH 1 0x6400000 |>.set .flue F.BLW_KP 1 0xB3333 |>.set .flue F.BLW_KI 1 0x4CCCC |>.set .flue F.BLW_STATE_SERVO 1 2 |>.set .flue F.BLW_PSTATUS_ROLE_D1 5 1 |>.set .flue F.BLW_PCFG_PTP_EN 5 1 |>.set .flue F.PORT_CFG_ENABLE 5 1 |>.set .flue F.PORT_STATUS_LINK 5 1)) with flue := { ((w0.set .flue F.BLW_CFG_ENABLE 1 1 |>.set .flue F.BLW_CFG_DOMAIN_NUMBER 1 1 |>.set .flue F.BLW_PCFG_PTP_EN 3 1 |>.set .flue F.PORT_CFG_ENABLE 3 1 |>.set .flue F.PORT_STATUS_LINK 3 1 |>.set .flue F.BLW_STATE_SLAVE_PORT 1 3 |>.set .flue F.BLW_JUMP_TH 1 1000 |>.set .flue F.BLW_LOCK_TH 1 0x6400000 |>.set .flue F.BLW_KP 1 0xB3333 |>.set .flue F.BLW_KI 1 0x4CCCC |>.set .flue F.BLW_STATE_SERVO 1 2 |>.set .flue F.BLW_PSTATUS_ROLE_D1 5 1 |>.set .flue F.BLW_PCFG_PTP_EN 5 1 |>.set .flue F.PORT_CFG_ENABLE 5 1 |>.set .flue F.PORT_STATUS_LINK 5 1)).flue with dom1 := { Domain.init 0 with syncAt := some 5, origin := 4096000, corr := 700, rxPin := 1000 } } }),
        1, 5, 0x1234567,
        ((((({ ((w0.set .flue F.BLW_CFG_ENABLE 1 1 |>.set .flue F.BLW_CFG_DOMAIN_NUMBER 1 1 |>.set .flue F.BLW_PCFG_PTP_EN 3 1 |>.set .flue F.PORT_CFG_ENABLE 3 1 |>.set .flue F.PORT_STATUS_LINK 3 1 |>.set .flue F.BLW_STATE_SLAVE_PORT 1 3 |>.set .flue F.BLW_JUMP_TH 1 1000 |>.set .flue F.BLW_LOCK_TH 1 0x6400000 |>.set .flue F.BLW_KP 1 0xB3333 |>.set .flue F.BLW_KI 1 0x4CCCC |>.set .flue F.BLW_STATE_SERVO 1 2 |>.set .flue F.BLW_PSTATUS_ROLE_D1 5 1 |>.set .flue F.BLW_PCFG_PTP_EN 5 1 |>.set .flue F.PORT_CFG_ENABLE 5 1 |>.set .flue F.PORT_STATUS_LINK 5 1)) with flue := { ((w0.set .flue F.BLW_CFG_ENABLE 1 1 |>.set .flue F.BLW_CFG_DOMAIN_NUMBER 1 1 |>.set .flue F.BLW_PCFG_PTP_EN 3 1 |>.set .flue F.PORT_CFG_ENABLE 3 1 |>.set .flue F.PORT_STATUS_LINK 3 1 |>.set .flue F.BLW_STATE_SLAVE_PORT 1 3 |>.set .flue F.BLW_JUMP_TH 1 1000 |>.set .flue F.BLW_LOCK_TH 1 0x6400000 |>.set .flue F.BLW_KP 1 0xB3333 |>.set .flue F.BLW_KI 1 0x4CCCC |>.set .flue F.BLW_STATE_SERVO 1 2 |>.set .flue F.BLW_PSTATUS_ROLE_D1 5 1 |>.set .flue F.BLW_PCFG_PTP_EN 5 1 |>.set .flue F.PORT_CFG_ENABLE 5 1 |>.set .flue F.PORT_STATUS_LINK 5 1)).flue with dom1 := { Domain.init 0 with syncAt := some 5, origin := 4096000, corr := 700, rxPin := 1000 } } })).blwTime
        1 / secTicks * secTicks + 0x1234567 : Nat) : Int) +
        ((({ ((w0.set .flue F.BLW_CFG_ENABLE 1 1 |>.set .flue F.BLW_CFG_DOMAIN_NUMBER 1 1 |>.set .flue F.BLW_PCFG_PTP_EN 3 1 |>.set .flue F.PORT_CFG_ENABLE 3 1 |>.set .flue F.PORT_STATUS_LINK 3 1 |>.set .flue F.BLW_STATE_SLAVE_PORT 1 3 |>.set .flue F.BLW_JUMP_TH 1 1000 |>.set .flue F.BLW_LOCK_TH 1 0x6400000 |>.set .flue F.BLW_KP 1 0xB3333 |>.set .flue F.BLW_KI 1 0x4CCCC |>.set .flue F.BLW_STATE_SERVO 1 2 |>.set .flue F.BLW_PSTATUS_ROLE_D1 5 1 |>.set .flue F.BLW_PCFG_PTP_EN 5 1 |>.set .flue F.PORT_CFG_ENABLE 5 1 |>.set .flue F.PORT_STATUS_LINK 5 1)) with flue := { ((w0.set .flue F.BLW_CFG_ENABLE 1 1 |>.set .flue F.BLW_CFG_DOMAIN_NUMBER 1 1 |>.set .flue F.BLW_PCFG_PTP_EN 3 1 |>.set .flue F.PORT_CFG_ENABLE 3 1 |>.set .flue F.PORT_STATUS_LINK 3 1 |>.set .flue F.BLW_STATE_SLAVE_PORT 1 3 |>.set .flue F.BLW_JUMP_TH 1 1000 |>.set .flue F.BLW_LOCK_TH 1 0x6400000 |>.set .flue F.BLW_KP 1 0xB3333 |>.set .flue F.BLW_KI 1 0x4CCCC |>.set .flue F.BLW_STATE_SERVO 1 2 |>.set .flue F.BLW_PSTATUS_ROLE_D1 5 1 |>.set .flue F.BLW_PCFG_PTP_EN 5 1 |>.set .flue F.PORT_CFG_ENABLE 5 1 |>.set .flue F.PORT_STATUS_LINK 5 1)).flue with dom1 := { Domain.init 0 with syncAt := some 5, origin := 4096000, corr := 700, rxPin := 1000 } } })).txLat
        5 / 1024 : Nat)),
        (((({ ((w0.set .flue F.BLW_CFG_ENABLE 1 1 |>.set .flue F.BLW_CFG_DOMAIN_NUMBER 1 1 |>.set .flue F.BLW_PCFG_PTP_EN 3 1 |>.set .flue F.PORT_CFG_ENABLE 3 1 |>.set .flue F.PORT_STATUS_LINK 3 1 |>.set .flue F.BLW_STATE_SLAVE_PORT 1 3 |>.set .flue F.BLW_JUMP_TH 1 1000 |>.set .flue F.BLW_LOCK_TH 1 0x6400000 |>.set .flue F.BLW_KP 1 0xB3333 |>.set .flue F.BLW_KI 1 0x4CCCC |>.set .flue F.BLW_STATE_SERVO 1 2 |>.set .flue F.BLW_PSTATUS_ROLE_D1 5 1 |>.set .flue F.BLW_PCFG_PTP_EN 5 1 |>.set .flue F.PORT_CFG_ENABLE 5 1 |>.set .flue F.PORT_STATUS_LINK 5 1)) with flue := { ((w0.set .flue F.BLW_CFG_ENABLE 1 1 |>.set .flue F.BLW_CFG_DOMAIN_NUMBER 1 1 |>.set .flue F.BLW_PCFG_PTP_EN 3 1 |>.set .flue F.PORT_CFG_ENABLE 3 1 |>.set .flue F.PORT_STATUS_LINK 3 1 |>.set .flue F.BLW_STATE_SLAVE_PORT 1 3 |>.set .flue F.BLW_JUMP_TH 1 1000 |>.set .flue F.BLW_LOCK_TH 1 0x6400000 |>.set .flue F.BLW_KP 1 0xB3333 |>.set .flue F.BLW_KI 1 0x4CCCC |>.set .flue F.BLW_STATE_SERVO 1 2 |>.set .flue F.BLW_PSTATUS_ROLE_D1 5 1 |>.set .flue F.BLW_PCFG_PTP_EN 5 1 |>.set .flue F.PORT_CFG_ENABLE 5 1 |>.set .flue F.PORT_STATUS_LINK 5 1)).flue with dom1 := { Domain.init 0 with syncAt := some 5, origin := 4096000, corr := 700, rxPin := 1000 } } })).upstream
        3 +
        (((((({ ((w0.set .flue F.BLW_CFG_ENABLE 1 1 |>.set .flue F.BLW_CFG_DOMAIN_NUMBER 1 1 |>.set .flue F.BLW_PCFG_PTP_EN 3 1 |>.set .flue F.PORT_CFG_ENABLE 3 1 |>.set .flue F.PORT_STATUS_LINK 3 1 |>.set .flue F.BLW_STATE_SLAVE_PORT 1 3 |>.set .flue F.BLW_JUMP_TH 1 1000 |>.set .flue F.BLW_LOCK_TH 1 0x6400000 |>.set .flue F.BLW_KP 1 0xB3333 |>.set .flue F.BLW_KI 1 0x4CCCC |>.set .flue F.BLW_STATE_SERVO 1 2 |>.set .flue F.BLW_PSTATUS_ROLE_D1 5 1 |>.set .flue F.BLW_PCFG_PTP_EN 5 1 |>.set .flue F.PORT_CFG_ENABLE 5 1 |>.set .flue F.PORT_STATUS_LINK 5 1)) with flue := { ((w0.set .flue F.BLW_CFG_ENABLE 1 1 |>.set .flue F.BLW_CFG_DOMAIN_NUMBER 1 1 |>.set .flue F.BLW_PCFG_PTP_EN 3 1 |>.set .flue F.PORT_CFG_ENABLE 3 1 |>.set .flue F.PORT_STATUS_LINK 3 1 |>.set .flue F.BLW_STATE_SLAVE_PORT 1 3 |>.set .flue F.BLW_JUMP_TH 1 1000 |>.set .flue F.BLW_LOCK_TH 1 0x6400000 |>.set .flue F.BLW_KP 1 0xB3333 |>.set .flue F.BLW_KI 1 0x4CCCC |>.set .flue F.BLW_STATE_SERVO 1 2 |>.set .flue F.BLW_PSTATUS_ROLE_D1 5 1 |>.set .flue F.BLW_PCFG_PTP_EN 5 1 |>.set .flue F.PORT_CFG_ENABLE 5 1 |>.set .flue F.PORT_STATUS_LINK 5 1)).flue with dom1 := { Domain.init 0 with syncAt := some 5, origin := 4096000, corr := 700, rxPin := 1000 } } })).blwTime
        1 / secTicks * secTicks + 0x1234567 : Nat) : Int) +
        ((({ ((w0.set .flue F.BLW_CFG_ENABLE 1 1 |>.set .flue F.BLW_CFG_DOMAIN_NUMBER 1 1 |>.set .flue F.BLW_PCFG_PTP_EN 3 1 |>.set .flue F.PORT_CFG_ENABLE 3 1 |>.set .flue F.PORT_STATUS_LINK 3 1 |>.set .flue F.BLW_STATE_SLAVE_PORT 1 3 |>.set .flue F.BLW_JUMP_TH 1 1000 |>.set .flue F.BLW_LOCK_TH 1 0x6400000 |>.set .flue F.BLW_KP 1 0xB3333 |>.set .flue F.BLW_KI 1 0x4CCCC |>.set .flue F.BLW_STATE_SERVO 1 2 |>.set .flue F.BLW_PSTATUS_ROLE_D1 5 1 |>.set .flue F.BLW_PCFG_PTP_EN 5 1 |>.set .flue F.PORT_CFG_ENABLE 5 1 |>.set .flue F.PORT_STATUS_LINK 5 1)) with flue := { ((w0.set .flue F.BLW_CFG_ENABLE 1 1 |>.set .flue F.BLW_CFG_DOMAIN_NUMBER 1 1 |>.set .flue F.BLW_PCFG_PTP_EN 3 1 |>.set .flue F.PORT_CFG_ENABLE 3 1 |>.set .flue F.PORT_STATUS_LINK 3 1 |>.set .flue F.BLW_STATE_SLAVE_PORT 1 3 |>.set .flue F.BLW_JUMP_TH 1 1000 |>.set .flue F.BLW_LOCK_TH 1 0x6400000 |>.set .flue F.BLW_KP 1 0xB3333 |>.set .flue F.BLW_KI 1 0x4CCCC |>.set .flue F.BLW_STATE_SERVO 1 2 |>.set .flue F.BLW_PSTATUS_ROLE_D1 5 1 |>.set .flue F.BLW_PCFG_PTP_EN 5 1 |>.set .flue F.PORT_CFG_ENABLE 5 1 |>.set .flue F.PORT_STATUS_LINK 5 1)).flue with dom1 := { Domain.init 0 with syncAt := some 5, origin := 4096000, corr := 700, rxPin := 1000 } } })).txLat
        5 / 1024 : Nat)) - 1000)) * 64), 5, by decide +kernel⟩,
    ⟨w0.set .flue F.BLW_CFG_ENABLE 1 1 |>.set .flue F.BLW_CFG_DOMAIN_NUMBER 1 1 |>.set .flue F.BLW_PCFG_PTP_EN 3 1 |>.set .flue
        F.PORT_CFG_ENABLE 3 1 |>.set .flue F.PORT_STATUS_LINK 3 1 |>.set .flue F.BLW_STATE_SLAVE_PORT 1 3 |>.set .flue F.BLW_JUMP_TH 1 1000
        |>.set .flue F.BLW_LOCK_TH 1 0x6400000 |>.set .flue F.BLW_KP 1 0xB3333 |>.set .flue F.BLW_KI 1 0x4CCCC, 3, by decide +kernel⟩,
    ⟨({ (w0.set .flue F.BLW_CFG_ENABLE 1 1 |>.set .flue F.BLW_CFG_DOMAIN_NUMBER 1 1 |>.set .flue F.BLW_PCFG_PTP_EN 3 1 |>.set .flue F.PORT_CFG_ENABLE 3 1 |>.set .flue F.PORT_STATUS_LINK 3 1 |>.set .flue F.BLW_STATE_SLAVE_PORT 1 3 |>.set .flue F.BLW_JUMP_TH 1 1000 |>.set .flue F.BLW_LOCK_TH 1 0x6400000 |>.set .flue F.BLW_KP 1 0xB3333 |>.set .flue F.BLW_KI 1 0x4CCCC |>.set .flue F.BLW_PSTATUS_AS_CAPABLE 3 1) with flue := { (w0.set .flue F.BLW_CFG_ENABLE 1 1 |>.set .flue F.BLW_CFG_DOMAIN_NUMBER 1 1 |>.set .flue F.BLW_PCFG_PTP_EN 3 1 |>.set .flue F.PORT_CFG_ENABLE 3 1 |>.set .flue F.PORT_STATUS_LINK 3 1 |>.set .flue F.BLW_STATE_SLAVE_PORT 1 3 |>.set .flue F.BLW_JUMP_TH 1 1000 |>.set .flue F.BLW_LOCK_TH 1 0x6400000 |>.set .flue F.BLW_KP 1 0xB3333 |>.set .flue F.BLW_KI 1 0x4CCCC |>.set .flue F.BLW_PSTATUS_AS_CAPABLE 3 1).flue with pdelayLost := [(3, 9)] } }),
        3, by decide +kernel⟩,
    ⟨w0.set .flue F.BLW_STATE_SERVO 0 2 |>.set .flue F.BLW_STATE_SERVO 1 1, .b, by decide +kernel⟩,
    ⟨(w0.set .flue F.BLW_STATE_SERVO 0 2 |>.set .flue F.BLW_STATE_SERVO 1 1 |>.set (.side .b) F.TIME_STATUS_D0_STATE 0 1 |>.set (.side .b)
        F.TIME_STATUS_D1_STATE 0 1).setSide .b
        { wSide with clocks := [(0, ⟨20479999990000, 20000000000, 0, 0, 0⟩), (1, ⟨20480000000100, 20000000000, 0, 0, 0⟩)] }, .b,
        by decide +kernel⟩,
    ⟨(w0.set .flue F.BLW_STATE_SERVO 0 2 |>.set .flue F.BLW_STATE_SERVO 1 1 |>.set (.side .b) F.TIME_STATUS_D0_STATE 0 2 |>.set (.side .b)
        F.TIME_STATUS_D1_STATE 0 2).setSide .b
        { wSide with clocks := [(0, ⟨20479999990000, 20000000000, 0, 0, 0⟩), (1, ⟨20480000000100, 20000000000, 0, 0, 0⟩)] }, .b,
        by decide +kernel⟩,
    ⟨(w0.set .flue F.BLW_STATE_SERVO 0 2 |>.set .flue F.BLW_STATE_SERVO 1 1 |>.set (.side .b) F.TIME_STATUS_D0_STATE 0 2 |>.set (.side .b)
        F.TIME_STATUS_D1_STATE 0 2).setSide .b
        { wSide with clocks := [(0, ⟨20470000000000, 20000000000, 0, 0, 0⟩), (1, ⟨20490000000000, 20000000000, 0, 0, 0⟩)] }, .b,
        by decide +kernel⟩,
    ⟨(w0.set (.side .b) F.TIME_STATUS_LINK_UP 0 1 |>.set (.side .b) F.TIME_STATUS_D1_STATE 0 1).setSide .b
        { wSide with lastMsg := some 19999999000 }, .b, 19999999000, by decide +kernel⟩,
    ⟨w0.setSide .b { wSide with clocks := [(1, ⟨9000000000000000, 20000000000, 0, 0, 0⟩)] }, .b, .hart 0, 1, by decide +kernel⟩,
    ⟨(w0.set (.side .b) F.TPO_WIDTH 2 5000).setSide .b { wSide with tpoNext := [(2, 30001)] }, .b, 2, 30000, 0, by decide +kernel⟩,
    ⟨w0.setSide .b { wSide with tpoNext := [(2, 30001)], tpoLevel := 6 }, .b, 2, 30000, by decide +kernel⟩,
    ⟨w0.setSide .b { wSide with tpoNext := [(2, 30001)], tpoLevel := 6, tpoNew := [(2, [100, 5, 1000000, 5000, 3])] }, .b, 2, 30000, 100, 5,
        1000000, 5000, 3, by decide +kernel⟩,
    ⟨w0.set (.side .b) F.TCI_CFG_EDGE 2 3, .b, 2, false, 3, (w0.set (.side .b) F.TCI_CFG_EDGE 2 3).domTime .b 0, by decide +kernel⟩⟩

theorem witness_SwitchCore :
    (∃ (s : State) (p : Fin 17) (f : EthFrame) (m : List (Fin 17 × Nat)) (b : List Nat), s.flueRuns = true ∧ s.portUp p = true ∧ ethNats f =
        b ∧ ((s.drawCells (s.cellWants [(p, f)] (m.filter (fun g => [(p, f)].all (fun e => e.1 != g.1))))).arriving p).lost = 0 ∧ f.good =
        false) ∧
    (∃ (s : State) (p : Fin 17) (f : EthFrame) (m : List (Fin 17 × Nat)) (b : List Nat) (k : Nat) (i : Nat) (c : Classified), s.flueRuns =
        true ∧ s.portUp p = true ∧ ethNats f = b ∧ ((s.drawCells (s.cellWants [(p, f)] (m.filter (fun g => [(p, f)].all (fun e => e.1 !=
        g.1))))).arriving p).lost = 0 ∧ f.good = true ∧ 64 ≤ b.length + 4 ∧ b.length + 4 ≤ s.fg F.PORT_MAXFRAME p ∧ s.protected_ p = false ∧
        s.classify p b = c ∧ s.filterOf p c = none ∧ s.fg F.PORT_CFG_ACCEPT p = 0 ∧ (s.fg F.FDB_VLAN_MEMBER c.vid).testBit p = true ∧ isGptp
        b = false ∧ s.fb F.PORT_CFG_LEARN p = true ∧ s.fb F.MIR_CFG_ENABLE 0 = false ∧ s.fb F.MIR_CFG_ENABLE 1 = false ∧ isGroup (frameSa
        c.bytes) = false ∧ s.fdbFind (frameSa c.bytes) c.vid = none ∧ s.fdbPlace (frameSa c.bytes) c.vid = some (k, i)) ∧
    (∃ (s : State) (p : Fin 17) (e : Fin 17) (f : EthFrame) (m : List (Fin 17 × Nat)) (b : List Nat) (k : Nat) (l : Nat) (c : Classified),
        s.flueRuns = true ∧ s.portUp p = true ∧ ethNats f = b ∧ ((s.drawCells (s.cellWants [(p, f)] (m.filter (fun g => [(p, f)].all (fun e
        => e.1 != g.1))))).arriving p).lost = 0 ∧ f.good = true ∧ 64 ≤ b.length + 4 ∧ b.length + 4 ≤ s.fg F.PORT_MAXFRAME p ∧ s.protected_ p
        = false ∧ s.classify p b = c ∧ s.filterOf p c = none ∧ s.fg F.PORT_CFG_ACCEPT p = 0 ∧ (s.fg F.FDB_VLAN_MEMBER c.vid).testBit p =
        true ∧ isGptp b = false ∧ s.fb F.PORT_CFG_LEARN p = false ∧ s.fb F.MIR_CFG_ENABLE 0 = false ∧ s.fb F.MIR_CFG_ENABLE 1 = false ∧
        s.lookup s.flue.fdb p c = (2 ^ e.val, false) ∧ s.tcOf p c.pcp = k ∧ s.inColour p c = l ∧ (s.queue e k).all (fun q => q.id !=
        s.flue.nextId) = true ∧ s.depth e k < s.fg F.PORT_Q_MAX (8 * e + k) ∧ (s.wred e k l).1 = false ∧ s.oversize e k ⟨s.flue.nextId,
        c.bytes, c.vid, c.pcp, c.dei, l, false⟩ = false) ∧
    (∃ (s : State) (p : Fin 17) (k : Fin 8) (q : QFrame) (l : List QFrame), s.flueRuns = true ∧ s.portUp p = true ∧ p.val < 15 ∧ Tab.at 0
        s.flue.txUntil p ≤ s.now ∧ [7, 6, 5, 4, 3, 2, 1, 0].find? (fun t => s.eligible p t || s.headOversize p t) = some k.val ∧ s.oversize
        p k q = false ∧ s.queue p k = q :: l ∧ s.flue.cells.any (fun c => c.id == q.id && decide (15 ≤ c.port)) = false ∧ s.protected_ p =
        false ∧ s.fb F.MIR_CFG_ENABLE 0 = false ∧ s.fb F.MIR_CFG_ENABLE 1 = false) ∧
    (∃ (s : State) (x : Side) (o : Origin) (m : Nat) (v : Nat) (k : Nat) (i : Nat), s.Permits x o (fdbAddr 0x110) 4 true ∧ s.farPresent x 1
        = true ∧ s.present .flue = true ∧ (s.bridge x 1).txns = [] ∧ (s.bridge x 1).near = [] ∧ s.holds x 4 = true ∧ s.fdbKey = (m, v) ∧ v ≠
        0 ∧ v ≠ 4095 ∧ (isGroup m = true ∨ popCount 17 (s.fg F.FDB_CMD_PORTS_PORTS 0) = 1) ∧ s.fdbFind m v = none ∧ s.fdbPlace m v = some
        (k, i)) ∧
    (∃ (s : State) (x : Side) (o : Origin), s.Permits x o (fdbAddr 0x110) 4 true ∧ s.farPresent x 1 = true ∧ s.present .flue = true ∧
        (s.bridge x 1).txns = [] ∧ (s.bridge x 1).near = [] ∧ s.holds x 4 = false) ∧
    (∃ (s : State) (x : Side) (o : Origin) (m : Nat) (v : Nat) (e : FdbEntry), s.Permits x o (fdbAddr 0x110) 4 true ∧ s.farPresent x 1 =
        true ∧ s.present .flue = true ∧ (s.bridge x 1).txns = [] ∧ (s.bridge x 1).near = [] ∧ s.holds x 4 = true ∧ s.fdbKey = (m, v) ∧
        s.fdbFind m v = some e) ∧
    (∃ (s : State) (x : Side) (o : Origin) (m : Nat) (v : Nat) (e : FdbEntry), s.Permits x o (fdbAddr 0x110) 4 true ∧ s.farPresent x 1 =
        true ∧ s.present .flue = true ∧ (s.bridge x 1).txns = [] ∧ (s.bridge x 1).near = [] ∧ s.holds x 4 = true ∧ s.fdbKey = (m, v) ∧
        s.fdbFind m v = some e) ∧
    (∃ (s : State) (x : Side) (o : Origin) (m : Nat) (v : Nat), s.Permits x o (fdbAddr 0x110) 4 true ∧ s.farPresent x 1 = true ∧ s.present
        .flue = true ∧ (s.bridge x 1).txns = [] ∧ (s.bridge x 1).near = [] ∧ s.holds x 4 = true ∧ s.fdbKey = (m, v) ∧ s.fdbFind m v = none) ∧
    (∃ (s : State) (x : Side) (o : Origin), s.Permits x o (fdbAddr 0x110) 4 true ∧ s.farPresent x 1 = true ∧ s.present .flue = true ∧
        (s.bridge x 1).txns = [] ∧ (s.bridge x 1).near = [] ∧ s.holds x 4 = true) ∧
    (∃ (s : State) (x : Side) (o : Origin), s.Permits x o (fdbAddr 0x110) 4 true ∧ s.farPresent x 1 = true ∧ s.present .flue = true ∧
        (s.bridge x 1).txns = [] ∧ (s.bridge x 1).near = [] ∧ s.holds x 4 = true) ∧
    (∃ (s : State) (e : FdbEntry) (l : List FdbEntry) (n : Nat), s.flueRuns = true ∧ s.fg F.FDB_CFG_AGE 0 = n ∧ n ≠ 0 ∧ s.flue.fdb.filter
        (fun e => !e.stat) = e :: l) ∧
    (∃ (s : State), s.flueRuns = true) ∧
    (∃ (s : State) (p : Fin 17), s.flueRuns = true ∧ s.fb F.TAS_CFG_ENABLE p = false) ∧
    (∃ (s : State) (p : Fin 17) (n : Nat) (g : Nat) (k : Nat), s.flueRuns = true ∧ s.fb F.TAS_CFG_ENABLE p = true ∧ s.fg F.TAS_CYCLE p = n ∧
        1000 ≤ n ∧ n ≤ 1000000000 ∧ s.fg F.TAS_CFG_LIST p = k ∧ s.tasLen p k ≠ 0 ∧ s.tasOf p = none ∧ nextCycle (s.tasBase p) n (s.blwTime
        (s.fg F.TAS_CFG_DOMAIN p)) = g) ∧
    (∃ (s : State) (n : Fin 512) (r : Frer), s.flueRuns = true ∧ s.fg F.FRER_CFG_FUNC n = 2 ∧ Tab.at Frer.init s.flue.frer n = r ∧ r.fresh =
        false) ∧
    (∃ (s : State) (x : Side) (o : Origin) (v : BitVec 32) (a : Nat) (n : Nat) (c : Nat) (lo : Option Word40), s.Permits x o 0x40164024 4
        true ∧ v.toNat.testBit 0 = true ∧ s.is (.side x) F.NETIF_CTRL 0 = true ∧ s.is (.side x) F.NETIF_STATUS_ERR 0 = false ∧ s.present
        (.dma x) = true ∧ s.get (.side x) F.NETIF_TX_LEN 0 = 1 ∧ s.get (.side x) F.NETIF_STATUS_TX_NEXT 0 = 0 ∧ s.get (.side x)
        F.NETIF_TX_BASE 0 = a ∧ s.netifMay x a 16 true = 0 ∧ s.netifMay x a 16 false = 0 ∧ s.ReadsClean x a 16 lo ∧ s.ReadsClean x (s.loadLE
        x a 8 % 2 ^ 40) n lo ∧ (s.byte x (a + 12)).toNat.testBit 0 = true ∧ s.loadLE x (a + 8) 2 = n ∧ 14 ≤ n ∧ n ≤ 9212 ∧ s.netifMay x
        (s.loadLE x a 8 % 2 ^ 40) n false = 0 ∧ s.get (.side x) F.NETIF_CFG_IRQ_CH 0 = c ∧ c < 32 ∧ s.flueRuns = true ∧ s.portUp (sidePort
        x) = true) :=
  ⟨⟨w0.set .flue F.PORT_CFG_ENABLE 3 1 |>.set .flue F.PORT_STATUS_LINK 3 1 |>.set .flue F.PORT_CFG_ENABLE 5 1 |>.set .flue
        F.PORT_STATUS_LINK 5 1 |>.set .flue F.PORT_BUF_MIN 3 40 |>.set .flue F.PORT_MAXFRAME 3 1522 |>.set .flue F.PORT_CFG_PVID 3 7 |>.set
        .flue F.FDB_VLAN_MEMBER 7 0xFF |>.set .flue F.PORT_Q_MAX 40 100 |>.set .flue F.WRED_TH_MIN_TH 0 5000, 3, ⟨List.replicate 64 0xA5,
        false⟩, [(5, 700)], ethNats (⟨List.replicate 64 0xA5, false⟩ : EthFrame), by decide +kernel⟩,
    ⟨w0.set .flue F.PORT_CFG_ENABLE 3 1 |>.set .flue F.PORT_STATUS_LINK 3 1 |>.set .flue F.PORT_CFG_ENABLE 5 1 |>.set .flue
        F.PORT_STATUS_LINK 5 1 |>.set .flue F.PORT_BUF_MIN 3 40 |>.set .flue F.PORT_MAXFRAME 3 1522 |>.set .flue F.PORT_CFG_PVID 3 7 |>.set
        .flue F.FDB_VLAN_MEMBER 7 0xFF |>.set .flue F.PORT_Q_MAX 40 100 |>.set .flue F.WRED_TH_MIN_TH 0 5000 |>.set .flue F.PORT_CFG_LEARN 3
        1, 3, ⟨[2, 0, 0, 0, 0, 1, 2, 0, 0, 0, 0, 9, 8, 0] ++ List.replicate 50 0xA5, true⟩, [(5, 700)], ethNats (⟨[2, 0, 0, 0, 0, 1, 2, 0,
        0, 0, 0, 9, 8, 0] ++ List.replicate 50 0xA5, true⟩ : EthFrame), 0, ((w0.set .flue F.PORT_CFG_ENABLE 3 1 |>.set .flue
        F.PORT_STATUS_LINK 3 1 |>.set .flue F.PORT_CFG_ENABLE 5 1 |>.set .flue F.PORT_STATUS_LINK 5 1 |>.set .flue F.PORT_BUF_MIN 3 40
        |>.set .flue F.PORT_MAXFRAME 3 1522 |>.set .flue F.PORT_CFG_PVID 3 7 |>.set .flue F.FDB_VLAN_MEMBER 7 0xFF |>.set .flue F.PORT_Q_MAX
        40 100 |>.set .flue F.WRED_TH_MIN_TH 0 5000).buckets 0x020000000009 7).1, (w0.set .flue F.PORT_CFG_ENABLE 3 1 |>.set .flue
        F.PORT_STATUS_LINK 3 1 |>.set .flue F.PORT_CFG_ENABLE 5 1 |>.set .flue F.PORT_STATUS_LINK 5 1 |>.set .flue F.PORT_BUF_MIN 3 40
        |>.set .flue F.PORT_MAXFRAME 3 1522 |>.set .flue F.PORT_CFG_PVID 3 7 |>.set .flue F.FDB_VLAN_MEMBER 7 0xFF |>.set .flue F.PORT_Q_MAX
        40 100 |>.set .flue F.WRED_TH_MIN_TH 0 5000 |>.set .flue F.PORT_CFG_LEARN 3 1).classify 3 (ethNats (⟨[2, 0, 0, 0, 0, 1, 2, 0, 0, 0,
        0, 9, 8, 0] ++ List.replicate 50 0xA5, true⟩ : EthFrame)), by decide +kernel⟩,
    ⟨({ (w0.set .flue F.PORT_CFG_ENABLE 3 1 |>.set .flue F.PORT_STATUS_LINK 3 1 |>.set .flue F.PORT_CFG_ENABLE 5 1 |>.set .flue F.PORT_STATUS_LINK 5 1 |>.set .flue F.PORT_BUF_MIN 3 40 |>.set .flue F.PORT_MAXFRAME 3 1522 |>.set .flue F.PORT_CFG_PVID 3 7 |>.set .flue F.FDB_VLAN_MEMBER 7 0xFF |>.set .flue F.PORT_Q_MAX 40 100 |>.set .flue F.WRED_TH_MIN_TH 0 5000 |>.set .flue F.PORT_CFG_LEARN 3 0) with flue := { (w0.set .flue F.PORT_CFG_ENABLE 3 1 |>.set .flue F.PORT_STATUS_LINK 3 1 |>.set .flue F.PORT_CFG_ENABLE 5 1 |>.set .flue F.PORT_STATUS_LINK 5 1 |>.set .flue F.PORT_BUF_MIN 3 40 |>.set .flue F.PORT_MAXFRAME 3 1522 |>.set .flue F.PORT_CFG_PVID 3 7 |>.set .flue F.FDB_VLAN_MEMBER 7 0xFF |>.set .flue F.PORT_Q_MAX 40 100 |>.set .flue F.WRED_TH_MIN_TH 0 5000 |>.set .flue F.PORT_CFG_LEARN 3 0).flue with fdb := [⟨0, 3, 0x020000000001, 7, 32, true, 5⟩] } }),
        3, 5, ⟨[2, 0, 0, 0, 0, 1, 2, 0, 0, 0, 0, 9, 8, 0] ++ List.replicate 50 0xA5, true⟩, [(5, 700)], ethNats (⟨[2, 0, 0, 0, 0, 1, 2, 0,
        0, 0, 0, 9, 8, 0] ++ List.replicate 50 0xA5, true⟩ : EthFrame), 0, 0,
        (({ (w0.set .flue F.PORT_CFG_ENABLE 3 1 |>.set .flue F.PORT_STATUS_LINK 3 1 |>.set .flue F.PORT_CFG_ENABLE 5 1 |>.set .flue F.PORT_STATUS_LINK 5 1 |>.set .flue F.PORT_BUF_MIN 3 40 |>.set .flue F.PORT_MAXFRAME 3 1522 |>.set .flue F.PORT_CFG_PVID 3 7 |>.set .flue F.FDB_VLAN_MEMBER 7 0xFF |>.set .flue F.PORT_Q_MAX 40 100 |>.set .flue F.WRED_TH_MIN_TH 0 5000 |>.set .flue F.PORT_CFG_LEARN 3 0) with flue := { (w0.set .flue F.PORT_CFG_ENABLE 3 1 |>.set .flue F.PORT_STATUS_LINK 3 1 |>.set .flue F.PORT_CFG_ENABLE 5 1 |>.set .flue F.PORT_STATUS_LINK 5 1 |>.set .flue F.PORT_BUF_MIN 3 40 |>.set .flue F.PORT_MAXFRAME 3 1522 |>.set .flue F.PORT_CFG_PVID 3 7 |>.set .flue F.FDB_VLAN_MEMBER 7 0xFF |>.set .flue F.PORT_Q_MAX 40 100 |>.set .flue F.WRED_TH_MIN_TH 0 5000 |>.set .flue F.PORT_CFG_LEARN 3 0).flue with fdb := [⟨0, 3, 0x020000000001, 7, 32, true, 5⟩] } })).classify
        3 (ethNats (⟨[2, 0, 0, 0, 0, 1, 2, 0, 0, 0, 0, 9, 8, 0] ++ List.replicate 50 0xA5, true⟩ : EthFrame)), by decide +kernel⟩,
    ⟨({ (w0.set .flue F.PORT_CFG_ENABLE 3 1 |>.set .flue F.PORT_STATUS_LINK 3 1 |>.set .flue F.PORT_CFG_ENABLE 5 1 |>.set .flue F.PORT_STATUS_LINK 5 1 |>.set .flue F.PORT_BUF_MIN 3 40 |>.set .flue F.PORT_MAXFRAME 3 1522 |>.set .flue F.PORT_CFG_PVID 3 7 |>.set .flue F.FDB_VLAN_MEMBER 7 0xFF |>.set .flue F.PORT_Q_MAX 40 100 |>.set .flue F.WRED_TH_MIN_TH 0 5000) with flue := { (w0.set .flue F.PORT_CFG_ENABLE 3 1 |>.set .flue F.PORT_STATUS_LINK 3 1 |>.set .flue F.PORT_CFG_ENABLE 5 1 |>.set .flue F.PORT_STATUS_LINK 5 1 |>.set .flue F.PORT_BUF_MIN 3 40 |>.set .flue F.PORT_MAXFRAME 3 1522 |>.set .flue F.PORT_CFG_PVID 3 7 |>.set .flue F.FDB_VLAN_MEMBER 7 0xFF |>.set .flue F.PORT_Q_MAX 40 100 |>.set .flue F.WRED_TH_MIN_TH 0 5000).flue with queues := [(45, [⟨77, List.replicate 60 1, 7, 2, false, 0, false⟩])], cells := [⟨77, 3, 1, 0, 1, 0⟩] } }),
        5, 5, ⟨77, List.replicate 60 1, 7, 2, false, 0, false⟩, [], by decide +kernel⟩,
    ⟨(w0.set (.side .a) F.BRIDGE_STATUS_FAR_PRESENT 1 1 |>.set (.side .b) F.BRIDGE_STATUS_FAR_PRESENT 1 1 |>.set .flue F.FDB_CMD_MAC_HI 0
        0x200 |>.set .flue F.FDB_CMD_MAC_LO 0 1 |>.set .flue F.FDB_CMD_VID 0 7 |>.set .flue F.FDB_CMD_PORTS_PORTS 0 32), .a, .hart 0,
        0x020000000001, 7, 0, ((w0.set (.side .a) F.BRIDGE_STATUS_FAR_PRESENT 1 1 |>.set (.side .b) F.BRIDGE_STATUS_FAR_PRESENT 1 1 |>.set
        .flue F.FDB_CMD_MAC_HI 0 0x200 |>.set .flue F.FDB_CMD_MAC_LO 0 1 |>.set .flue F.FDB_CMD_VID 0 7 |>.set .flue F.FDB_CMD_PORTS_PORTS 0
        32).buckets 0x020000000001 7).1, by decide +kernel⟩,
    ⟨(w0.set (.side .a) F.BRIDGE_STATUS_FAR_PRESENT 1 1 |>.set (.side .b) F.BRIDGE_STATUS_FAR_PRESENT 1 1 |>.set .flue F.FDB_CMD_MAC_HI 0
        0x200 |>.set .flue F.FDB_CMD_MAC_LO 0 1 |>.set .flue F.FDB_CMD_VID 0 7 |>.set .flue F.FDB_CMD_PORTS_PORTS 0 32), .b, .hart 0,
        by decide +kernel⟩,
    ⟨({ ((w0.set (.side .a) F.BRIDGE_STATUS_FAR_PRESENT 1 1 |>.set (.side .b) F.BRIDGE_STATUS_FAR_PRESENT 1 1 |>.set .flue F.FDB_CMD_MAC_HI 0 0x200 |>.set .flue F.FDB_CMD_MAC_LO 0 1 |>.set .flue F.FDB_CMD_VID 0 7 |>.set .flue F.FDB_CMD_PORTS_PORTS 0 32)) with flue := { ((w0.set (.side .a) F.BRIDGE_STATUS_FAR_PRESENT 1 1 |>.set (.side .b) F.BRIDGE_STATUS_FAR_PRESENT 1 1 |>.set .flue F.FDB_CMD_MAC_HI 0 0x200 |>.set .flue F.FDB_CMD_MAC_LO 0 1 |>.set .flue F.FDB_CMD_VID 0 7 |>.set .flue F.FDB_CMD_PORTS_PORTS 0 32)).flue with fdb := [⟨0, 3, 0x020000000001, 7, 32, true, 5⟩, ⟨1, 9, 0x020000000002, 7, 8, false, 5⟩] } }),
        .a, .hart 0, 0x020000000001, 7, ⟨0, 3, 0x020000000001, 7, 32, true, 5⟩, by decide +kernel⟩,
    ⟨({ ((w0.set (.side .a) F.BRIDGE_STATUS_FAR_PRESENT 1 1 |>.set (.side .b) F.BRIDGE_STATUS_FAR_PRESENT 1 1 |>.set .flue F.FDB_CMD_MAC_HI 0 0x200 |>.set .flue F.FDB_CMD_MAC_LO 0 1 |>.set .flue F.FDB_CMD_VID 0 7 |>.set .flue F.FDB_CMD_PORTS_PORTS 0 32)) with flue := { ((w0.set (.side .a) F.BRIDGE_STATUS_FAR_PRESENT 1 1 |>.set (.side .b) F.BRIDGE_STATUS_FAR_PRESENT 1 1 |>.set .flue F.FDB_CMD_MAC_HI 0 0x200 |>.set .flue F.FDB_CMD_MAC_LO 0 1 |>.set .flue F.FDB_CMD_VID 0 7 |>.set .flue F.FDB_CMD_PORTS_PORTS 0 32)).flue with fdb := [⟨0, 3, 0x020000000001, 7, 32, true, 5⟩, ⟨1, 9, 0x020000000002, 7, 8, false, 5⟩] } }),
        .a, .hart 0, 0x020000000001, 7, ⟨0, 3, 0x020000000001, 7, 32, true, 5⟩, by decide +kernel⟩,
    ⟨({ ((w0.set (.side .a) F.BRIDGE_STATUS_FAR_PRESENT 1 1 |>.set (.side .b) F.BRIDGE_STATUS_FAR_PRESENT 1 1 |>.set .flue F.FDB_CMD_MAC_HI 0 0x200 |>.set .flue F.FDB_CMD_MAC_LO 0 1 |>.set .flue F.FDB_CMD_VID 0 7 |>.set .flue F.FDB_CMD_PORTS_PORTS 0 32)) with flue := { ((w0.set (.side .a) F.BRIDGE_STATUS_FAR_PRESENT 1 1 |>.set (.side .b) F.BRIDGE_STATUS_FAR_PRESENT 1 1 |>.set .flue F.FDB_CMD_MAC_HI 0 0x200 |>.set .flue F.FDB_CMD_MAC_LO 0 1 |>.set .flue F.FDB_CMD_VID 0 7 |>.set .flue F.FDB_CMD_PORTS_PORTS 0 32)).flue with fdb := [⟨1, 9, 0x020000000002, 7, 8, false, 5⟩] } }),
        .a, .hart 0, 0x020000000001, 7, by decide +kernel⟩,
    ⟨({ ((w0.set (.side .a) F.BRIDGE_STATUS_FAR_PRESENT 1 1 |>.set (.side .b) F.BRIDGE_STATUS_FAR_PRESENT 1 1 |>.set .flue F.FDB_CMD_MAC_HI 0 0x200 |>.set .flue F.FDB_CMD_MAC_LO 0 1 |>.set .flue F.FDB_CMD_VID 0 7 |>.set .flue F.FDB_CMD_PORTS_PORTS 0 32)) with flue := { ((w0.set (.side .a) F.BRIDGE_STATUS_FAR_PRESENT 1 1 |>.set (.side .b) F.BRIDGE_STATUS_FAR_PRESENT 1 1 |>.set .flue F.FDB_CMD_MAC_HI 0 0x200 |>.set .flue F.FDB_CMD_MAC_LO 0 1 |>.set .flue F.FDB_CMD_VID 0 7 |>.set .flue F.FDB_CMD_PORTS_PORTS 0 32)).flue with fdb := [⟨0, 3, 0x020000000001, 7, 32, true, 5⟩, ⟨1, 9, 0x020000000002, 7, 8, false, 5⟩] } }),
        .a, .hart 0, by decide +kernel⟩,
    ⟨({ ((w0.set (.side .a) F.BRIDGE_STATUS_FAR_PRESENT 1 1 |>.set (.side .b) F.BRIDGE_STATUS_FAR_PRESENT 1 1 |>.set .flue F.FDB_CMD_MAC_HI 0 0x200 |>.set .flue F.FDB_CMD_MAC_LO 0 1 |>.set .flue F.FDB_CMD_VID 0 7 |>.set .flue F.FDB_CMD_PORTS_PORTS 0 32)) with flue := { ((w0.set (.side .a) F.BRIDGE_STATUS_FAR_PRESENT 1 1 |>.set (.side .b) F.BRIDGE_STATUS_FAR_PRESENT 1 1 |>.set .flue F.FDB_CMD_MAC_HI 0 0x200 |>.set .flue F.FDB_CMD_MAC_LO 0 1 |>.set .flue F.FDB_CMD_VID 0 7 |>.set .flue F.FDB_CMD_PORTS_PORTS 0 32)).flue with fdb := [⟨0, 3, 0x020000000001, 7, 32, true, 5⟩, ⟨1, 9, 0x020000000002, 7, 8, false, 5⟩] } }),
        .a, .hart 0, by decide +kernel⟩,
    ⟨({ ((w0.set (.side .a) F.BRIDGE_STATUS_FAR_PRESENT 1 1 |>.set (.side .b) F.BRIDGE_STATUS_FAR_PRESENT 1 1 |>.set .flue F.FDB_CMD_MAC_HI 0 0x200 |>.set .flue F.FDB_CMD_MAC_LO 0 1 |>.set .flue F.FDB_CMD_VID 0 7 |>.set .flue F.FDB_CMD_PORTS_PORTS 0 32)) with flue := { ((w0.set (.side .a) F.BRIDGE_STATUS_FAR_PRESENT 1 1 |>.set (.side .b) F.BRIDGE_STATUS_FAR_PRESENT 1 1 |>.set .flue F.FDB_CMD_MAC_HI 0 0x200 |>.set .flue F.FDB_CMD_MAC_LO 0 1 |>.set .flue F.FDB_CMD_VID 0 7 |>.set .flue F.FDB_CMD_PORTS_PORTS 0 32)).flue with fdb := [⟨0, 3, 0x020000000001, 7, 32, true, 5⟩, ⟨1, 9, 0x020000000002, 7, 8, false, 5⟩] } })
        |>.set .flue F.FDB_CFG_AGE 0 300, ⟨1, 9, 0x020000000002, 7, 8, false, 5⟩, [], 300, by decide +kernel⟩,
    ⟨({ (w0.set .flue F.PORT_CFG_ENABLE 3 1 |>.set .flue F.PORT_STATUS_LINK 3 1 |>.set .flue F.PORT_CFG_ENABLE 5 1 |>.set .flue F.PORT_STATUS_LINK 5 1 |>.set .flue F.PORT_BUF_MIN 3 40 |>.set .flue F.PORT_MAXFRAME 3 1522 |>.set .flue F.PORT_CFG_PVID 3 7 |>.set .flue F.FDB_VLAN_MEMBER 7 0xFF |>.set .flue F.PORT_Q_MAX 40 100 |>.set .flue F.WRED_TH_MIN_TH 0 5000 |>.set .flue F.PORT_Q_CFG_CBS_EN 45 1 |>.set .flue F.PORT_Q_CFG_IDLE_SLOPE 45 20000 |>.set .flue F.PORT_Q_CFG_CBS_EN 3 1) with flue := { (w0.set .flue F.PORT_CFG_ENABLE 3 1 |>.set .flue F.PORT_STATUS_LINK 3 1 |>.set .flue F.PORT_CFG_ENABLE 5 1 |>.set .flue F.PORT_STATUS_LINK 5 1 |>.set .flue F.PORT_BUF_MIN 3 40 |>.set .flue F.PORT_MAXFRAME 3 1522 |>.set .flue F.PORT_CFG_PVID 3 7 |>.set .flue F.FDB_VLAN_MEMBER 7 0xFF |>.set .flue F.PORT_Q_MAX 40 100 |>.set .flue F.WRED_TH_MIN_TH 0 5000 |>.set .flue F.PORT_Q_CFG_CBS_EN 45 1 |>.set .flue F.PORT_Q_CFG_IDLE_SLOPE 45 20000 |>.set .flue F.PORT_Q_CFG_CBS_EN 3 1).flue with queues := [(45, [⟨77, List.replicate 60 1, 7, 2, false, 0, false⟩])] } }),
        by decide +kernel⟩,
    ⟨({ (w0) with flue := { (w0).flue with tas := [(5, ⟨0, 5, 5, 5, 0, false⟩)] } }), 5, by decide +kernel⟩,
    ⟨(w0.set .flue F.PORT_CFG_ENABLE 3 1 |>.set .flue F.PORT_STATUS_LINK 3 1 |>.set .flue F.PORT_CFG_ENABLE 5 1 |>.set .flue
        F.PORT_STATUS_LINK 5 1 |>.set .flue F.PORT_BUF_MIN 3 40 |>.set .flue F.PORT_MAXFRAME 3 1522 |>.set .flue F.PORT_CFG_PVID 3 7 |>.set
        .flue F.FDB_VLAN_MEMBER 7 0xFF |>.set .flue F.PORT_Q_MAX 40 100 |>.set .flue F.WRED_TH_MIN_TH 0 5000 |>.set .flue F.TAS_CFG_ENABLE 5
        1 |>.set .flue F.TAS_CYCLE 5 500000 |>.set .flue F.TAS_CFG_LIST 5 1 |>.set .flue F.TAS_CFG_LEN1 5 4), 5, 500000, nextCycle ((w0.set
        .flue F.PORT_CFG_ENABLE 3 1 |>.set .flue F.PORT_STATUS_LINK 3 1 |>.set .flue F.PORT_CFG_ENABLE 5 1 |>.set .flue F.PORT_STATUS_LINK 5
        1 |>.set .flue F.PORT_BUF_MIN 3 40 |>.set .flue F.PORT_MAXFRAME 3 1522 |>.set .flue F.PORT_CFG_PVID 3 7 |>.set .flue
        F.FDB_VLAN_MEMBER 7 0xFF |>.set .flue F.PORT_Q_MAX 40 100 |>.set .flue F.WRED_TH_MIN_TH 0 5000 |>.set .flue F.TAS_CFG_ENABLE 5 1
        |>.set .flue F.TAS_CYCLE 5 500000 |>.set .flue F.TAS_CFG_LIST 5 1 |>.set .flue F.TAS_CFG_LEN1 5 4).tasBase 5) 500000 ((w0.set .flue
        F.PORT_CFG_ENABLE 3 1 |>.set .flue F.PORT_STATUS_LINK 3 1 |>.set .flue F.PORT_CFG_ENABLE 5 1 |>.set .flue F.PORT_STATUS_LINK 5 1
        |>.set .flue F.PORT_BUF_MIN 3 40 |>.set .flue F.PORT_MAXFRAME 3 1522 |>.set .flue F.PORT_CFG_PVID 3 7 |>.set .flue F.FDB_VLAN_MEMBER
        7 0xFF |>.set .flue F.PORT_Q_MAX 40 100 |>.set .flue F.WRED_TH_MIN_TH 0 5000 |>.set .flue F.TAS_CFG_ENABLE 5 1 |>.set .flue
        F.TAS_CYCLE 5 500000 |>.set .flue F.TAS_CFG_LIST 5 1 |>.set .flue F.TAS_CFG_LEN1 5 4).blwTime 0), 1, by decide +kernel⟩,
    ⟨({ (w0.set .flue F.FRER_CFG_FUNC 9 2 |>.set .flue F.FRER_RESET_MS 9 10) with flue := { (w0.set .flue F.FRER_CFG_FUNC 9 2 |>.set .flue F.FRER_RESET_MS 9 10).flue with frer := [(9, ⟨false, 5, 3, 19999999999⟩)] } }),
        9, ⟨false, 5, 3, 19999999999⟩, by decide +kernel⟩,
    ⟨((w0.set (.side .b) F.NETIF_CTRL 0 1 |>.set (.side .b) F.NETIF_TX_LEN 0 1 |>.set (.side .b) F.NETIF_TX_BASE 0 0x10000100 |>.set (.side
        .b) F.NETIF_CFG_IRQ_CH 0 5 |>.set .flue F.PORT_CFG_ENABLE 16 1 |>.set .flue F.PORT_STATUS_LINK 16 1 |>.set .flue F.PORT_BUF_MIN 16
        20).storeLE .b 0x10000100 8 0x10001000).storeLE .b 0x10000108 8 0x100000040, .b, .hart 0, 1, 0x10000100, 64, 5, some 0x10005000,
        by decide +kernel⟩⟩

theorem witness_LinksBypassLifeline :
    (∃ (s : State) (p : Fin 17), s.flueRuns = true ∧ p.val < 15 ∧ hasTc10 p = true ∧ s.fb F.PORT_STATUS_LINK p = true ∧ s.fg
        F.PORT_STATUS_TC10 p = 0 ∧ s.fg F.BLW_STATE_SLAVE_PORT 0 ≠ p ∧ s.fg F.BLW_STATE_SLAVE_PORT 1 ≠ p) ∧
    (∃ (s : State) (p : Fin 17), s.flueRuns = true ∧ (2 ≤ p.val ∨ s.fb F.BYP_STATUS_ISOLATION_ON 0 = true) ∧ (p.val < 15 ∨ (s.fabric (sideOf
        (p - 15)) = true ∧ (s.side (sideOf (p - 15))).limp = false)) ∧ s.fb F.PORT_STATUS_LINK p = false) ∧
    (∃ (s : State) (x : Side), s.lifeUp x = true ∧ s.is (.side x) F.LIFE_STATUS_LINK 0 = true) ∧
    (∃ (s : State) (p : Fin 17), s.flueRuns = true ∧ hasTc10 p = true ∧ s.fg F.PORT_STATUS_TC10 p ≤ 1 ∧ s.fb F.PORT_TC10 p = true) ∧
    (∃ (s : State) (p : Fin 17), s.fb F.PORT_TC10 p = false) ∧
    (∃ (s : State) (x : Side) (o : Origin) (p : Fin 17), s.Permits x o (portCtrlAddr p) 4 true ∧ s.farPresent x 1 = true ∧ s.present .flue =
        true ∧ (s.bridge x 1).txns = [] ∧ (s.bridge x 1).near = [] ∧ s.holds x 4 = true ∧ hasTc10 p = true ∧ s.fg F.PORT_STATUS_TC10 p = 0) ∧
    (∃ (s : State) (x : Side) (o : Origin) (p : Fin 17), s.Permits x o (portCtrlAddr p) 4 true ∧ s.farPresent x 1 = true ∧ s.present .flue =
        true ∧ (s.bridge x 1).txns = [] ∧ (s.bridge x 1).near = [] ∧ s.holds x 4 = true ∧ hasTc10 p = true ∧ s.fg F.PORT_STATUS_TC10 p = 2) ∧
    (∃ (s : State) (p : Fin 17) (a : Nat), s.flueRuns = true ∧ s.fg F.PORT_STATUS_TC10 p = 1 ∧ Tab.at 0 s.flue.sleepAt p = a + 1 ∧ s.asleep
        = false) ∧
    (∃ (s : State) (p : Fin 17), s.flueRuns = true ∧ s.fg F.PORT_STATUS_TC10 p = 1) ∧
    (∃ (s : State) (p : Fin 17), s.flueRuns = true ∧ s.fg F.PORT_STATUS_TC10 p = 1 ∧ s.asleep = false) ∧
    (∃ (s : State) (p : Fin 17), s.flueRuns = true ∧ hasTc10 p = true ∧ s.fg F.PORT_STATUS_TC10 p = 2) ∧
    (∃ (s : State) (c : Nat), s.bypCause = c ∧ c ≠ 0 ∧ s.is .flue F.BYP_STATUS_CLOSED 0 = false) ∧
    (∃ (s : State) (c : Nat), s.bypCause = c ∧ c ≠ 0 ∧ s.is .flue F.BYP_STATUS_CLOSED 0 = false ∧ s.fb F.PORT_STATUS_LINK 0 = false ∧ s.fb
        F.PORT_STATUS_LINK 1 = false) ∧
    (∃ (s : State), s.bypCause = 0 ∧ s.is .flue F.BYP_STATUS_CLOSED 0 = true ∧ s.flue.selftested = 3) ∧
    (∃ (s : State), s.flueRuns = true ∧ s.ember.gs.good = true ∧ (s.bridge .a 1).txns = [] ∧ (s.bridge .b 1).txns = []) ∧
    (∃ (s : State) (p : Fin 2), s.present .flue = true ∧ s.flue.reset_ = false ∧ s.flue.selftested.testBit p = false) ∧
    (∃ (s : State) (p : Fin 2), s.present .flue = true ∧ s.flue.reset_ = false ∧ s.flue.selftested.testBit p = false) ∧
    (∃ (s : State) (x : Side) (c : Nat), s.up x = true ∧ s.get .flue F.BYP_STATUS_CLOSED 0 = c ∧ s.get (.side x) F.LIFE_STATUS_BYP_SENSE 0 ≠
        c) ∧
    (∃ (s : State) (x : Side) (o : Origin) (v : BitVec 32) (b : Nat) (n : Nat), s.Permits x o (lifeAddr 0x20) 4 true ∧ s.worldOf x o = s.get
        (.side x) F.LIFE_CFG_WORLD 0 ∧ v.toNat.testBit 31 = true ∧ bits v.toNat 18 16 = b ∧ bits v.toNat 10 0 = n ∧ (s.side x).lifeTx.any
        (fun q => q.1 == b) = false ∧ 14 ≤ n ∧ n ≤ 1518) ∧
    (∃ (s : State) (x : Side) (o : Origin) (v : BitVec 32) (b : Nat) (n : Nat), s.Permits x o (lifeAddr 0x20) 4 true ∧ s.worldOf x o = s.get
        (.side x) F.LIFE_CFG_WORLD 0 ∧ v.toNat.testBit 31 = true ∧ bits v.toNat 18 16 = b ∧ bits v.toNat 10 0 = n ∧ ((s.side x).lifeTx.any
        (fun q => q.1 == b) = true ∨ n < 14 ∨ 1518 < n)) ∧
    (∃ (s : State) (x : Side) (b : Nat) (n : Nat) (l : List (Nat × Nat)) (g : Nat × Nat), (s.side x).lifeTx = (b, n) :: l ∧ s.lifeUp x =
        true ∧ s.is (.side x) F.LIFE_STATUS_LINK 0 = true ∧ guardTake (s.side x).lifeGuard s.now (clampNat 1 100 (s.get (.side x)
        F.LIFE_GUARD_RATE 0)) (clampNat 1518 65536 (s.get (.side x) F.LIFE_GUARD_BURST 0)) (max 60 n) = some g) ∧
    (∃ (s : State) (x : Side) (b : Nat) (n : Nat) (l : List (Nat × Nat)), (s.side x).lifeTx = (b, n) :: l ∧ s.lifeUp x = true ∧ s.is (.side
        x) F.LIFE_STATUS_LINK 0 = true ∧ guardTake (s.side x).lifeGuard s.now (clampNat 1 100 (s.get (.side x) F.LIFE_GUARD_RATE 0))
        (clampNat 1518 65536 (s.get (.side x) F.LIFE_GUARD_BURST 0)) (max 60 n) = none) ∧
    (∃ (s : State) (x : Side) (f : EthFrame) (k : Nat) (n : Nat), s.lifeUp x = true ∧ s.is (.side x) F.LIFE_STATUS_LINK 0 = true ∧ f.good =
        true ∧ f.bytes.length = n ∧ n ≤ 1518 ∧ (beNat ((ethNats f).take 6) = 2 ^ 48 - 1 ∨ beNat ((ethNats f).take 6) = s.get (.side x)
        F.LIFE_MAC_HI 0 * 2 ^ 32 + s.get (.side x) F.LIFE_MAC_LO 0) ∧ (s.side x).lifeRx.length < 16 ∧ (s.side x).lifeNext = k ∧ k < 16) ∧
    (∃ (s : State) (x : Side) (o : Origin) (v : BitVec 32), s.Permits x o (lifeAddr 0x28) 4 true ∧ s.worldOf x o = s.get (.side x)
        F.LIFE_CFG_WORLD 0 ∧ v.toNat.testBit 0 = true) ∧
    (∃ (s : State) (x : Side) (l : List Word40) (a : List Nat) (n : Nat), s.fabric x = true ∧ s.present (.life x) = true ∧ (s.side x).hvil
        ++ l.map (fun z => z.toNat) = a ∧ s.hvilSamples x = n ∧ a.length < n) ∧
    (∃ (s : State) (x : Side) (l : List Word40) (a : List Nat) (n : Nat) (k : Nat) (z : Nat) (m : Int), s.fabric x = true ∧ s.present (.life
        x) = true ∧ (s.side x).hvil ++ l.map (fun z => z.toNat) = a ∧ s.hvilSamples x = n ∧ n ≤ a.length ∧ (a.take n).foldl (fun (z : Int) u
        => z + sigInt u) 0 = m ∧ hvilState m (sigInt (s.get (.side x) F.HVIL_ILO 0) * n) (sigInt (s.get (.side x) F.HVIL_IHI 0) * n) = z ∧
        s.get (.side x) F.HVIL_STATUS 0 = k ∧ k ≠ z) ∧
    (∃ (s : State) (x : Side) (l : List Word40) (a : List Nat) (n : Nat) (m : Int), s.fabric x = true ∧ s.present (.life x) = true ∧ (s.side
        x).hvil ++ l.map (fun z => z.toNat) = a ∧ s.hvilSamples x = n ∧ n ≤ a.length ∧ (a.take n).foldl (fun (z : Int) u => z + sigInt u) 0
        = m ∧ hvilState m (sigInt (s.get (.side x) F.HVIL_ILO 0) * n) (sigInt (s.get (.side x) F.HVIL_IHI 0) * n) = s.get (.side x)
        F.HVIL_STATUS 0) :=
  ⟨⟨({ (w0.set .flue F.PORT_CFG_ENABLE 3 1 |>.set .flue F.PORT_STATUS_LINK 3 1 |>.set .flue F.PORT_CFG_ENABLE 5 1 |>.set .flue F.PORT_STATUS_LINK 5 1 |>.set .flue F.PORT_BUF_MIN 3 40 |>.set .flue F.PORT_MAXFRAME 3 1522 |>.set .flue F.PORT_CFG_PVID 3 7 |>.set .flue F.FDB_VLAN_MEMBER 7 0xFF |>.set .flue F.PORT_Q_MAX 40 100 |>.set .flue F.WRED_TH_MIN_TH 0 5000 |>.set .flue F.PORT_STATUS_TC10 5 0 |>.set .flue F.BLW_STATE_SLAVE_PORT 0 31 |>.set .flue F.BLW_STATE_SLAVE_PORT 1 31) with flue := { (w0.set .flue F.PORT_CFG_ENABLE 3 1 |>.set .flue F.PORT_STATUS_LINK 3 1 |>.set .flue F.PORT_CFG_ENABLE 5 1 |>.set .flue F.PORT_STATUS_LINK 5 1 |>.set .flue F.PORT_BUF_MIN 3 40 |>.set .flue F.PORT_MAXFRAME 3 1522 |>.set .flue F.PORT_CFG_PVID 3 7 |>.set .flue F.FDB_VLAN_MEMBER 7 0xFF |>.set .flue F.PORT_Q_MAX 40 100 |>.set .flue F.WRED_TH_MIN_TH 0 5000 |>.set .flue F.PORT_STATUS_TC10 5 0 |>.set .flue F.BLW_STATE_SLAVE_PORT 0 31 |>.set .flue F.BLW_STATE_SLAVE_PORT 1 31).flue with queues := [(45, [⟨77, List.replicate 60 1, 7, 2, false, 0, false⟩]), (48, [⟨77, List.replicate 60 1, 7, 2, false, 0, false⟩])], cells := [⟨77, 3, 1, 0, 2, 0⟩] } }),
        5, by decide +kernel⟩,
    ⟨w0.set .flue F.PORT_STATUS_TC10 5 4, 5, by decide +kernel⟩,
    ⟨(w0.set (.side .b) F.LIFE_CFG_ENABLE 0 1 |>.set (.side .b) F.LIFE_STATUS_LINK 0 1).setSide .b
        { wSide with lifeTx := [(3, 100), (1, 64)] }, .b, by decide +kernel⟩,
    ⟨({ (w0.set .flue F.PORT_STATUS_TC10 5 0 |>.set .flue F.PORT_TC10 5 1) with flue := { (w0.set .flue F.PORT_STATUS_TC10 5 0 |>.set .flue F.PORT_TC10 5 1).flue with queues := [(45, [⟨77, List.replicate 60 1, 7, 2, false, 0, false⟩]), (48, [⟨77, List.replicate 60 1, 7, 2, false, 0, false⟩])], cells := [⟨77, 3, 1, 0, 2, 0⟩] } }),
        5, by decide +kernel⟩,
    ⟨w0.set .flue F.PORT_TC10 5 0, 5, by decide +kernel⟩,
    ⟨w0.set (.side .a) F.BRIDGE_STATUS_FAR_PRESENT 1 1 |>.set .flue F.PORT_STATUS_TC10 5 0, .a, .hart 0, 5, by decide +kernel⟩,
    ⟨w0.set (.side .a) F.BRIDGE_STATUS_FAR_PRESENT 1 1 |>.set .flue F.PORT_STATUS_TC10 5 2, .a, .hart 0, 5, by decide +kernel⟩,
    ⟨({ (w0.set .flue F.PORT_STATUS_TC10 5 1) with flue := { (w0.set .flue F.PORT_STATUS_TC10 5 1).flue with sleepAt := [(5, 19999999001)] } }),
        5, 19999999000, by decide +kernel⟩,
    ⟨({ (w0.set .flue F.PORT_STATUS_TC10 5 1) with flue := { (w0.set .flue F.PORT_STATUS_TC10 5 1).flue with queues := [(45, [⟨77, List.replicate 60 1, 7, 2, false, 0, false⟩]), (48, [⟨77, List.replicate 60 1, 7, 2, false, 0, false⟩])], cells := [⟨77, 3, 1, 0, 2, 0⟩] } }),
        5, by decide +kernel⟩,
    ⟨({ (w0.set .flue F.PORT_STATUS_TC10 5 1) with flue := { (w0.set .flue F.PORT_STATUS_TC10 5 1).flue with sleepAt := [(5, 19999999001)] } }),
        5, by decide +kernel⟩,
    ⟨w0.set .flue F.PORT_STATUS_TC10 5 2, 5, by decide +kernel⟩,
    ⟨{ (w0.set .flue F.BYP_STATUS_CLOSED 0 0 |>.set .flue F.BYP_STATUS_ISOLATION_ON 0 1 |>.set .flue F.BYP_STATUS_FORCED 0 1 |>.set .flue F.PORT_STATUS_LINK 1 1) with ember := { w0.ember with gs := ⟨true, true, 0, false, 0, 0⟩ } },
        4, by decide +kernel⟩,
    ⟨{ (w0.set .flue F.BYP_STATUS_CLOSED 0 0 |>.set .flue F.BYP_STATUS_ISOLATION_ON 0 1 |>.set .flue F.BYP_STATUS_FORCED 0 1) with ember := { w0.ember with gs := ⟨true, true, 0, false, 0, 0⟩ } },
        4, by decide +kernel⟩,
    ⟨{ ({ (w0) with flue := { (w0).flue with selftested := 3 } }) with ember := { w0.ember with gs := ⟨true, true, 0, false, 0, 0⟩ } },
        by decide +kernel⟩,
    ⟨{ (w0.set .flue F.BYP_STATUS_CLOSED 0 0 |>.set .flue F.BYP_STATUS_ISOLATION_ON 0 1) with ember := { w0.ember with gs := ⟨true, true, 0, false, 0, 0⟩ } },
        by decide +kernel⟩,
    ⟨w0, 1, by decide +kernel⟩,
    ⟨w0, 1, by decide +kernel⟩,
    ⟨w0.set .flue F.BYP_STATUS_CLOSED 0 0, .b, 0, by decide +kernel⟩,
    ⟨(w0.set (.side .b) F.LIFE_CFG_ENABLE 0 1 |>.set (.side .b) F.LIFE_STATUS_LINK 0 1).setSide .b { wSide with lifeTx := [(3, 100)] }, .b,
        .hart 0, 0x80010040, 1, 64, by decide +kernel⟩,
    ⟨(w0.set (.side .b) F.LIFE_CFG_ENABLE 0 1 |>.set (.side .b) F.LIFE_STATUS_LINK 0 1).setSide .b { wSide with lifeTx := [(3, 100)] }, .b,
        .hart 0, 0x80030040, 3, 64, by decide +kernel⟩,
    ⟨(w0.set (.side .b) F.LIFE_CFG_ENABLE 0 1 |>.set (.side .b) F.LIFE_STATUS_LINK 0 1).setSide .b
        { wSide with lifeTx := [(3, 100), (1, 64)] }, .b, 3, 100, [(1, 64)], (800000, 20000000000), by decide +kernel⟩,
    ⟨(w0.set (.side .b) F.LIFE_CFG_ENABLE 0 1 |>.set (.side .b) F.LIFE_STATUS_LINK 0 1 |>.set (.side .b) F.LIFE_GUARD_RATE 0 1).setSide .b
        { wSide with lifeTx := [(3, 100)], lifeGuard := (65536 * 8000, 20000000000) }, .b, 3, 100, [], by decide +kernel⟩,
    ⟨(w0.set (.side .b) F.LIFE_CFG_ENABLE 0 1 |>.set (.side .b) F.LIFE_STATUS_LINK 0 1).setSide .b { wSide with lifeNext := 15 }, .b,
        ⟨[0xFF, 0xFF, 0xFF, 0xFF, 0xFF, 0xFF, 2, 0, 0, 0, 0, 9, 8, 0] ++ List.replicate 46 0x5A, true⟩, 15, 60, by decide +kernel⟩,
    ⟨(w0.set (.side .b) F.LIFE_CFG_ENABLE 0 1 |>.set (.side .b) F.LIFE_STATUS_LINK 0 1).setSide .b
        { wSide with lifeRx := [(3, 100), (4, 60)] }, .b, .hart 0, 1, by decide +kernel⟩,
    ⟨(w0.set (.side .b) F.HVIL_CFG 0 0).setSide .b { wSide with hvil := [0x5000] }, .b, List.replicate 98 0x5000, List.replicate 99 0x5000,
        100, by decide +kernel⟩,
    ⟨(w0.set (.side .b) F.HVIL_CFG 0 0).setSide .b { wSide with hvil := [0x5000] }, .b, List.replicate 100 0x5000, List.replicate 101
        0x5000, 100, 3, 0, 2048000, by decide +kernel⟩,
    ⟨(w0.set (.side .b) F.HVIL_CFG 0 1).set (.side .b) F.HVIL_STATUS 0 1, .b, List.replicate 100 0xFFFFFFFFFF, List.replicate 100
        0xFFFFFFFFFF, 100, -100, by decide +kernel⟩⟩

end Sys2Proof.Machine.Tests
end

section
/-! The order of commands: one step, on an empty queue and on a queue with a front command, and what it keeps beside the front command. -/
namespace Sys2Proof.Machine
open Sys2Proof

/-- On an empty queue a step idles. -/
theorem step_of_pending_nil {s : State} (h : s.pending = []) : step s = .next s.idle := by
  simp only [step, h]

/-- On a queue with a front command a step runs that command with the queue's rest. -/
theorem step_of_pending_cons {s : State} {c : Instr} {q : List Instr} (h : s.pending = c :: q) :
    step s = exec c { s with pending := q } := by
  simp only [step, h]

/-- Idling lets time pass, and the interrupts that the cores take keep the rest. -/
theorem State.idle_kept (s : State) : Kept s s.idle :=
  State.irqAll_kept _ (kept_now (Kept.refl s) (Nat.le_succ s.now))

/-- A step drops the front command, if there is one, and from there on keeps what every effect keeps: the step invariants all follow from
this one fact. -/
theorem step_kept {s t : State} (h : step s = .next t) : Kept { s with pending := s.pending.tail } t := by
  cases hp : s.pending with
  | nil =>
    have ht : t = s.idle := by
      rw [step_of_pending_nil hp] at h
      exact (Host.Outcome.next.inj h).symm
    have hs : { s with pending := [].tail } = s := by rw [List.tail_nil, ← hp]
    rw [hs, ht]
    exact s.idle_kept
  | cons c q =>
    have hk : KeptOut { s with pending := q } (exec c { s with pending := q }) := exec_kept c _
    rw [← step_of_pending_cons hp, h] at hk
    exact hk

/-- Settles O6, from what a step keeps once the front command has left the queue. -/
theorem stepKeepsOrder : Obligations.StepKeepsOrder := by
  unfold Obligations.StepKeepsOrder
  intro s t h
  obtain ⟨hpending, hnow, hfree, -, -⟩ := step_kept h
  exact ⟨hpending, hnow, hfree⟩

end Sys2Proof.Machine
end

section
/-! Loops and cores: what a loop keeps, updates that replace the harts of a side alone, and the interrupt that each core takes as the
block idles. -/
namespace Sys2Proof.Machine
open Sys2Proof

variable {s t u : State}

/-! ## Loops -/

theorem State.each_nil {α : Type} (f : State → α → State) : s.each [] f = s := rfl

theorem State.each_cons {α : Type} (f : State → α → State) (a : α) (l : List α) : s.each (a :: l) f = (f s a).each l f := rfl

/-- What holds before a loop and is kept by each turn of it holds after it. -/
theorem State.each_keeps {α : Type} {P : State → Prop} {f : State → α → State} (hf : ∀ t a, P t → P (f t a)) (l : List α)
    (hs : P s) : P (s.each l f) := by
  induction l generalizing s with
  | nil => exact hs
  | cons a l ih => exact ih (hf s a hs)

/-! ## Parts of a side replaced -/

@[simp] theorem State.setSide_setSide (x : Side) (v w : SideSt) : (s.setSide x v).setSide x w = s.setSide x w := by cases x <;> rfl

@[simp] theorem State.setSide_side (x : Side) : s.setSide x (s.side x) = s := by cases x <;> rfl

/-- A hart read after a write. -/
theorem State.hart_setHart (x y : Side) (h k : Nat) (v : Hart) :
    (s.setHart x h v).hart y k = if y = x ∧ k = h then v else s.hart y k := by
  by_cases hy : y = x
  · subst hy
    simp [State.hart, State.setHart, Tab.at_put]
  · simp [State.hart, State.setHart, State.side_setSide, hy]

/-- All that changes is what the harts of side `x` hold. -/
def HartsOnly (x : Side) (s t : State) : Prop := ∃ hs, t = s.setSide x { s.side x with harts := hs }

theorem HartsOnly.refl (x : Side) (s : State) : HartsOnly x s s := ⟨(s.side x).harts, (State.setSide_side x).symm⟩

theorem HartsOnly.trans {x : Side} (h : HartsOnly x s t) (k : HartsOnly x t u) : HartsOnly x s u := by
  obtain ⟨hs, rfl⟩ := h
  obtain ⟨ht, rfl⟩ := k
  exact ⟨ht, by simp⟩

theorem HartsOnly.setHart (x : Side) (h : Nat) (v : Hart) : HartsOnly x s (s.setHart x h v) := ⟨_, rfl⟩

theorem HartsOnly.regs {x : Side} (h : HartsOnly x s t) : t.regs = s.regs := by
  obtain ⟨hs, rfl⟩ := h
  exact State.regs_setSide _ _ _

/-- Every side keeps all that is not in its harts. -/
theorem HartsOnly.side {x : Side} (h : HartsOnly x s t) (y : Side) : t.side y = { s.side y with harts := (t.side y).harts } := by
  obtain ⟨hs, rfl⟩ := h
  rw [State.side_setSide]
  split
  next e => rw [e]
  next => rfl

/-! ## The interrupts that the cores take -/

/-- Hart `h` as it stands once it has taken the interrupt that its input raises, if it takes it. -/
def State.irqHart (s : State) (x : Side) (h : Nat) : Hart :=
  if s.coreRuns x h ∧ (s.hart x h).landing = none ∧ s.extIrq x h ∧ ((s.hart x h).csr (s.coreWorld x h) Csr.mie).testBit 11 ∧
      ((s.hart x h).priv < 3 ∨ ((s.hart x h).csr (s.coreWorld x h) Csr.mstatus).testBit 3) then
    (s.hart x h).trap (s.coreWorld x h) 11 (if h < 4 then 2 ^ 63 else 2 ^ 31) 0 (s.hart x h).pc
  else s.hart x h

theorem State.irqTake_hartsOnly (x : Side) (h : Nat) : HartsOnly x s (s.irqTake x h) := by
  unfold State.irqTake
  dsimp only
  split
  · exact HartsOnly.setHart _ _ _
  · exact HartsOnly.refl _ _

theorem State.hart_irqTake (x y : Side) (h k : Nat) :
    (s.irqTake x h).hart y k = if y = x ∧ k = h then s.irqHart x h else s.hart y k := by
  unfold State.irqTake State.irqHart
  dsimp only
  split
  · rw [State.hart_setHart]
  · split
    next e => rw [e.1, e.2]
    next => rfl

theorem State.coreWorld_of_regs (hr : t.regs = s.regs) (x : Side) (h : Nat) : t.coreWorld x h = s.coreWorld x h := by
  simp only [State.coreWorld, State.get, hr]

theorem State.extIrq_of_regs (hr : t.regs = s.regs) (x : Side) (h : Nat) : t.extIrq x h = s.extIrq x h := by
  simp only [State.extIrq, State.routedTo, State.get, hr]

/-- Whether a core executes, and what it does with its interrupt, depends on no other core's hart. -/
theorem HartsOnly.irqHart {x y : Side} {h : Nat} (k : HartsOnly x s t) (hh : t.hart y h = s.hart y h) :
    t.irqHart y h = s.irqHart y h := by
  have hruns : t.coreRuns y h = s.coreRuns y h := by
    rw [State.coreRuns, State.coreOn, k.side y, hh]
    simp only [State.coreRuns, State.coreOn, State.is, State.get, k.regs]
  simp only [State.irqHart, hruns, hh, State.coreWorld_of_regs k.regs, State.extIrq_of_regs k.regs]

/-- The harts of a list take their interrupts one after the other, each as if it were the only one. -/
theorem State.hart_each_irqTake (x y : Side) (k : Nat) {l : List Nat} (hl : l.Nodup) :
    (s.each l (fun s h => s.irqTake x h)).hart y k = if y = x ∧ k ∈ l then s.irqHart x k else s.hart y k := by
  induction l generalizing s with
  | nil => simp [State.each_nil]
  | cons h l ih =>
    obtain ⟨hnot, hl⟩ := List.nodup_cons.mp hl
    rw [State.each_cons, ih hl, State.hart_irqTake]
    by_cases hk : y = x ∧ k ∈ l
    · obtain ⟨rfl, hmem⟩ := hk
      have hne : k ≠ h := fun e => hnot (e ▸ hmem)
      have hsame : (s.irqTake y h).hart y k = s.hart y k := by simp [State.hart_irqTake, hne]
      simp [hmem, (State.irqTake_hartsOnly y h).irqHart hsame]
    · by_cases he : y = x ∧ k = h
      · obtain ⟨rfl, rfl⟩ := he
        simp [hnot]
      · have hcons : ¬ (y = x ∧ k ∈ h :: l) := by
          rintro ⟨rfl, hmem⟩
          rcases List.mem_cons.mp hmem with e | e
          · exact he ⟨rfl, e⟩
          · exact hk ⟨rfl, e⟩
        rw [if_neg hk, if_neg he, if_neg hcons]

/-- Every core of side `x` takes the interrupt that its input raises. -/
def State.irqSide (s : State) (x : Side) : State := s.each (List.range 6) (fun s h => s.irqTake x h)

theorem State.irqSide_hartsOnly (x : Side) : HartsOnly x s (s.irqSide x) :=
  State.each_keeps (fun _ h k => k.trans (State.irqTake_hartsOnly x h)) (List.range 6) (HartsOnly.refl x s)

theorem State.hart_irqSide (x y : Side) {h : Nat} (hh : h < 6) :
    (s.irqSide x).hart y h = if y = x then s.irqHart x h else s.hart y h := by
  rw [State.irqSide, State.hart_each_irqTake x y h List.nodup_range]
  simp only [List.mem_range, hh, and_true]

/-- The cores of Side A go first, then those of Side B. -/
theorem State.irqAll_eq : s.irqAll = (s.irqSide .a).irqSide .b := by
  simp only [State.irqAll, State.irqSide, State.each_cons, State.each_nil]

theorem State.hart_irqAll (x : Side) {h : Nat} (hh : h < 6) : s.irqAll.hart x h = s.irqHart x h := by
  rw [State.irqAll_eq, State.hart_irqSide .b x hh]
  cases x with
  | a => simp [State.hart_irqSide .a .a hh]
  | b =>
    have hkept : (s.irqSide .a).hart .b h = s.hart .b h := by simp [State.hart_irqSide .a .b hh]
    simp [(State.irqSide_hartsOnly .a).irqHart hkept]

/-- Settles O2: idling lets one nanosecond pass, and what the cores take changes their harts alone. -/
theorem emptyQueueIdles : Obligations.EmptyQueueIdles := by
  unfold Obligations.EmptyQueueIdles
  intro s hp
  have hu := State.irqSide_hartsOnly (s := { s with now := s.now + 1 }) .a
  have ht := State.irqSide_hartsOnly (s := ({ s with now := s.now + 1 } : State).irqSide .a) .b
  rw [← State.irqAll_eq] at ht
  have hside : ∀ x, s.idle.side x = { s.side x with harts := (s.idle.side x).harts } := fun x => by
    rw [State.idle, ht.side x, hu.side x, State.side_with_now]
  have hhart : ∀ x h, h < 6 → s.idle.hart x h = s.irqHart x h := fun x h hh => State.hart_irqAll x hh
  refine ⟨s.idle, step_of_pending_nil hp, ?_⟩
  have hrest : s.idle.now = s.now + 1 ∧ s.idle.pending = s.pending ∧ s.idle.free = s.free ∧ s.idle.resp = s.resp ∧
      s.idle.regs = s.regs ∧ s.idle.mem = s.mem ∧ s.idle.ember = s.ember ∧ s.idle.flue = s.flue ∧ s.idle.dies = s.dies ∧
      s.idle.chans = s.chans ∧ s.idle.damper = s.damper ∧ s.idle.absent = s.absent := by
    obtain ⟨ha, ea⟩ := hu
    obtain ⟨hb, eb⟩ := ht
    simp [State.idle, eb, ea]
  rw [hp] at hrest
  obtain ⟨hnow, hpending, hfree, hresp, hregs, hmem, hember, hflue, hdies, hchans, hdamper, habsent⟩ := hrest
  refine ⟨hnow, hpending, hfree, hresp, hregs, hmem, hember, hflue, hdies, hchans, hdamper, habsent, hside, fun x h hh => ⟨?_, ?_⟩⟩
  · intro hin hruns hland hmie hmode
    rw [hhart x h hh, State.irqHart, if_pos ⟨hruns, hland, hin, hmie, hmode⟩]
  · intro hin
    rw [hhart x h hh, State.irqHart, if_neg (by simp [hin])]

end Sys2Proof.Machine
end

section
/-! Register accesses: an access that every check permits, what the end of a step leaves, and the claim of an interrupt. -/
namespace Sys2Proof.Machine
open Sys2Proof

variable {s t u : State}

theorem MemSame.trans (h : MemSame s t) (k : MemSame t u) : MemSame s u := fun y a => (k y a).trans (h y a)

theorem State.side_with_resp (r : Resp) (x : Side) : ({ s with resp := r } : State).side x = s.side x := by cases x <;> rfl

/-! ## Permitted accesses -/

/-- The end of a core's step touches the harts of its side and the steps of its pair cores. -/
theorem State.stepDone_eq (x : Side) (o : Origin) :
    ∃ hs n, s.stepDone x o = s.setSide x { s.side x with harts := hs, pairStep := n } := by
  have hsame : ∃ hs n, s = s.setSide x { s.side x with harts := hs, pairStep := n } :=
    ⟨(s.side x).harts, (s.side x).pairStep, (State.setSide_side x).symm⟩
  unfold State.stepDone
  split
  · unfold State.stepEnd
    dsimp only
    split
    · exact ⟨(s.side x).harts, _, rfl⟩
    · split
      · exact ⟨_, (s.side x).pairStep, rfl⟩
      · exact hsame
  · exact hsame

theorem State.stepDone_regs (x : Side) (o : Origin) : (s.stepDone x o).regs = s.regs := by
  obtain ⟨hs, n, e⟩ := State.stepDone_eq (s := s) x o
  rw [e, State.regs_setSide]

theorem State.stepDone_sideOnly (x : Side) (o : Origin) : SideOnly x s (s.stepDone x o) := by
  obtain ⟨hs, n, e⟩ := State.stepDone_eq (s := s) x o
  rw [e]
  exact SideOnly.setSide x _

@[simp] theorem State.get_stepDone (x : Side) (o : Origin) (h : Holder) (f : Fld) (i : Nat) :
    (s.stepDone x o).get h f i = s.get h f i := by
  simp only [State.get, State.stepDone_regs]

@[simp] theorem State.resp_stepDone (x : Side) (o : Origin) : (s.stepDone x o).resp = s.resp := by
  obtain ⟨-, -, hresp, -⟩ := State.stepDone_sideOnly (s := s) x o
  exact hresp

theorem State.stepDone_memSame (x : Side) (o : Origin) : MemSame s (s.stepDone x o) := (State.stepDone_sideOnly x o).mem

/-- The end of a step keeps the rest of its side. -/
theorem State.side_stepDone (x : Side) (o : Origin) : (s.stepDone x o).side x =
    { s.side x with harts := ((s.stepDone x o).side x).harts, pairStep := ((s.stepDone x o).side x).pairStep } := by
  obtain ⟨hs, n, e⟩ := State.stepDone_eq (s := s) x o
  rw [e, State.side_setSide_self]

/-- What the end of a step leaves of a side depends on that side, the debug scope and the worlds of its cores. -/
theorem State.side_stepDone_of {x : Side} {o : Origin} (hside : t.side x = s.side x)
    (hscope : t.get (.side x) F.POKER_STATUS_SCOPE 0 = s.get (.side x) F.POKER_STATUS_SCOPE 0)
    (hworld : ∀ h, t.coreWorld x h = s.coreWorld x h) : (t.stepDone x o).side x = (s.stepDone x o).side x := by
  have hhart : ∀ h, t.hart x h = s.hart x h := fun h => by simp only [State.hart, hside]
  unfold State.stepDone
  split
  · simp only [State.stepEnd, hhart, hscope, hworld]
    split
    · simp [hside]
    · split
      · simp [State.setHart, hside]
      · exact hside
  · exact hside

/-- An access that every check permits does what it is for, and the step of its core ends. -/
theorem State.guarded_of_permits {x : Side} {o : Origin} {a size : Nat} {write : Bool} (h : s.Permits x o a size write)
    (f : State → State) : s.guarded x o a size write f = (f { s with resp := .idle }).stepDone x o := by
  obtain ⟨hmakes, hpmp, hwot⟩ := h
  simp [State.guarded, hmakes, hpmp, hwot]

theorem exec_of_permits {c : Instr} {x : Side} {o : Origin} {a size : Nat} {write : Bool} {f : State → State}
    (h : s.Permits x o a size write) (hc : exec c s = ok (s.guarded x o a size write f)) :
    exec c s = .next ((f { s with resp := .idle }).stepDone x o) :=
  hc.trans (congrArg ok (State.guarded_of_permits h f))

/-! ## Claims of interrupts -/

/-- A bit that is clear and its power of two: together they leave the bits above it as they are. -/
theorem testBit_two_pow_add_of_lt {z i j : Nat} (hz : z.testBit i = false) (h : i < j) : (2 ^ i + z).testBit j = z.testBit j := by
  obtain ⟨d, rfl⟩ := Nat.exists_eq_add_of_lt h
  have hlow : z % 2 ^ (i + 1) < 2 ^ i := by
    refine Nat.lt_pow_two_of_testBit _ fun k hk => ?_
    rcases Nat.eq_or_lt_of_le hk with rfl | hgt
    · simp [hz]
    · rw [Nat.testBit_mod_two_pow, decide_eq_false (by omega), Bool.false_and]
  have hdiv : (2 ^ i + z) / 2 ^ (i + 1) = z / 2 ^ (i + 1) := by
    have hsmall : 2 ^ i + z % 2 ^ (i + 1) < 2 ^ (i + 1) := by rw [Nat.pow_succ] at hlow ⊢; omega
    conv_lhs => rw [← Nat.mod_add_div z (2 ^ (i + 1)), ← Nat.add_assoc, Nat.add_mul_div_left _ _ (Nat.two_pow_pos _),
      Nat.div_eq_of_lt hsmall, Nat.zero_add]
  rw [show i + d + 1 = d + (i + 1) by omega, ← Nat.testBit_div_two_pow, hdiv, Nat.testBit_div_two_pow]

/-- A clear bit stays clear and a set one is taken away: what `clearBit` leaves of `2 ^ i + z`. -/
theorem clearBit_eq (w i : Nat) : clearBit w i = w ∧ w.testBit i = false ∨
    ∃ z, w = 2 ^ i + z ∧ clearBit w i = z ∧ z.testBit i = false := by
  cases hw : w.testBit i
  · exact .inl ⟨by simp [clearBit, hw], rfl⟩
  · obtain ⟨z, rfl⟩ := Nat.exists_eq_add_of_le (Nat.ge_two_pow_of_testBit hw)
    rw [Nat.testBit_two_pow_add_eq] at hw
    exact .inr ⟨z, rfl, by simp [clearBit, Nat.testBit_two_pow_add_eq, hw], by simpa using hw⟩

theorem testBit_clearBit_self (w i : Nat) : (clearBit w i).testBit i = false := by
  rcases clearBit_eq w i with ⟨e, hw⟩ | ⟨z, -, e, hz⟩
  · rw [e, hw]
  · rw [e, hz]

theorem testBit_clearBit_ne (w : Nat) {i j : Nat} (h : j ≠ i) : (clearBit w i).testBit j = w.testBit j := by
  rcases clearBit_eq w i with ⟨e, -⟩ | ⟨z, rfl, e, hz⟩
  · rw [e]
  · rw [e]
    rcases Nat.lt_or_gt_of_ne h with hlt | hgt
    · exact (Nat.testBit_two_pow_add_gt hlt z).symm
    · exact (testBit_two_pow_add_of_lt hz hgt).symm

/-- A source that latches leaves the bits of the others. -/
theorem State.pending_intr_ne (x : Side) {n i : Nat} (hi : i < 32) (hne : i ≠ n % 32) :
    ((s.intr x n).get (.side x) F.INTR_PENDING (n / 32)).testBit i = (s.get (.side x) F.INTR_PENDING (n / 32)).testBit i := by
  have hw : i < F.INTR_PENDING.width := hi
  unfold State.intr
  split
  · rw [State.setBit, State.get_set_self, testBit_mod _ _ _ hw, Machine.setBit, Nat.testBit_or, Nat.testBit_two_pow_of_ne hne.symm,
      Bool.or_false]
  · rfl

/-- A claim when no source of the world is ready answers 0. -/
theorem State.intrClaim_none {x : Side} {w : Nat} (h : s.intrNext x w = none) : s.intrClaim x w = { s with resp := .data 0 } := by
  simp only [State.intrClaim, h]

/-- What a claim of source `n` leaves before its answer: the source is pending again only if its door still holds replies. -/
def State.claimed (s : State) (x : Side) (n : Nat) : State :=
  let c := s.clearBit (.side x) F.INTR_PENDING (n / 32) (n % 32)
  if s.intrPresent x n then c.intr x n else c

theorem State.intrClaim_some {x : Side} {w n : Nat} (h : s.intrNext x w = some n) :
    s.intrClaim x w = { s.claimed x n with resp := .data (2 ^ 31 + n) } := by
  have hpresent : (s.clearBit (.side x) F.INTR_PENDING (n / 32) (n % 32)).intrPresent x n = s.intrPresent x n := by
    simp only [State.intrPresent, State.src_clearBit]
  simp only [State.intrClaim, h, hpresent, State.claimed]

theorem State.claimed_only (x : Side) (n : Nat) : Only [(.side x, F.INTR_PENDING, n / 32)] s (s.claimed x n) := by
  have hclear : Only [(.side x, F.INTR_PENDING, n / 32)] s (s.clearBit (.side x) F.INTR_PENDING (n / 32) (n % 32)) :=
    Only.set (by simp)
  unfold State.claimed
  dsimp only
  split
  · exact hclear.trans (Only.intr (by simp))
  · exact hclear

theorem State.claimed_sideOnly (x y : Side) (n : Nat) : SideOnly y s (s.claimed x n) := by
  have hclear : SideOnly y s (s.clearBit (.side x) F.INTR_PENDING (n / 32) (n % 32)) := SideOnly.set _ _ _ _ _
  unfold State.claimed
  dsimp only
  split
  · exact hclear.trans (SideOnly.intr _ _ _)
  · exact hclear

@[simp] theorem State.side_claimed (x y : Side) (n : Nat) : (s.claimed x n).side y = s.side y := by
  unfold State.claimed
  dsimp only
  split <;> simp

/-- The claimed source stays pending only while its event is present (R42). -/
theorem State.pending_claimed (x : Side) {n : Nat} (hn : n < 104) :
    ((s.claimed x n).get (.side x) F.INTR_PENDING (n / 32)).testBit (n % 32) = s.intrPresent x n := by
  have hw : n % 32 < F.INTR_PENDING.width := Nat.mod_lt _ (by decide)
  unfold State.claimed
  dsimp only
  split
  next h => rw [State.pending_intr _ _ hn, h]
  next h =>
    rw [State.clearBit, State.get_set_self, testBit_mod _ _ _ hw, testBit_clearBit_self, Bool.eq_false_iff.mpr h]

theorem State.pending_claimed_ne (x : Side) {n i : Nat} (hi : i < 32) (hne : i ≠ n % 32) :
    ((s.claimed x n).get (.side x) F.INTR_PENDING (n / 32)).testBit i = (s.get (.side x) F.INTR_PENDING (n / 32)).testBit i := by
  have hw : i < F.INTR_PENDING.width := hi
  have hclear : ((s.clearBit (.side x) F.INTR_PENDING (n / 32) (n % 32)).get (.side x) F.INTR_PENDING (n / 32)).testBit i =
      (s.get (.side x) F.INTR_PENDING (n / 32)).testBit i := by
    rw [State.clearBit, State.get_set_self, testBit_mod _ _ _ hw, testBit_clearBit_ne _ hne]
  unfold State.claimed
  dsimp only
  split
  · rw [State.pending_intr_ne x hi hne, hclear]
  · exact hclear

/-- What a claim leaves when source `n` is the next of the world (R42). -/
theorem State.intrClaim_next {x : Side} {w n : Nat} (h : s.intrNext x w = some n) (hn : n < 104) :
    (s.intrClaim x w).resp = .data (2 ^ 31 + n) ∧
    ((s.intrClaim x w).get (.side x) F.INTR_PENDING (n / 32)).testBit (n % 32) = s.intrPresent x n ∧
    (∀ i : Nat, i < 32 → i ≠ n % 32 → ((s.intrClaim x w).get (.side x) F.INTR_PENDING (n / 32)).testBit i =
      (s.get (.side x) F.INTR_PENDING (n / 32)).testBit i) ∧
    Only [(.side x, F.INTR_PENDING, n / 32)] s (s.intrClaim x w) ∧ (s.intrClaim x w).side x = s.side x ∧
    MemSame s (s.intrClaim x w) := by
  rw [State.intrClaim_some h]
  refine ⟨rfl, State.pending_claimed x hn, fun i => State.pending_claimed_ne x, (State.claimed_only x n).then_regs rfl, ?_,
    (State.claimed_sideOnly x x n).mem⟩
  rw [State.side_with_resp, State.side_claimed]

theorem State.intrPresent_with_resp (r : Resp) (x : Side) (n : Nat) :
    ({ s with resp := r } : State).intrPresent x n = s.intrPresent x n := by
  simp only [State.intrPresent, State.src, State.side_with_resp]

/-- A claim writes no field that decides how the step of a core ends. -/
theorem State.side_stepDone_of_pending {x : Side} {i : Nat} (o : Origin) (hside : t.side x = s.side x)
    (honly : Only [(.side x, F.INTR_PENDING, i)] s t) : (t.stepDone x o).side x = (s.stepDone x o).side x := by
  refine State.side_stepDone_of hside (honly.get_fld (by simp; decide)) fun h => ?_
  unfold State.coreWorld
  split <;> exact honly.get_fld (by simp; decide)

end Sys2Proof.Machine
end

section
/-! Entries of the Ash pan, and the control of a DMA channel: a GO that is refused, and one that starts the channel. -/
namespace Sys2Proof.Machine
open Sys2Proof

variable {s t u : State}

/-! ## Entries of the Ash pan -/

/-- Only the log of side `x` changes: its ring, and the fields that an entry may write. -/
def LogOnly (x : Side) (s t : State) : Prop := Only (logFields x) s t ∧ SideOnly x s t

theorem LogOnly.refl (x : Side) (s : State) : LogOnly x s s := ⟨Only.refl _ s, SideOnly.refl x s⟩

theorem LogOnly.trans {x : Side} (h : LogOnly x s t) (k : LogOnly x t u) : LogOnly x s u := ⟨h.1.trans k.1, h.2.trans k.2⟩

theorem LogOnly.set {x : Side} {f : Fld} {v : Nat} (hf : (.side x, f, 0) ∈ logFields x) : LogOnly x s (s.set (.side x) f 0 v) :=
  ⟨Only.set hf, SideOnly.set _ _ _ _ _⟩

theorem LogOnly.setSide (x : Side) (v : SideSt) : LogOnly x s (s.setSide x v) :=
  ⟨Only.of_regs (State.regs_setSide _ _ _), SideOnly.setSide x v⟩

theorem State.ashFill_logOnly (x : Side) (old : State) : LogOnly x s (s.ashFill x old) := by
  unfold State.ashFill
  split
  · exact (LogOnly.set (by simp [logFields])).trans ⟨Only.intr (by simp [logFields]), SideOnly.intr _ _ _⟩
  · exact LogOnly.refl x s

theorem State.ashPut_logOnly (x : Side) (prod : Nat) (e : LogEntry) : LogOnly x s (s.ashPut x prod e) := by
  have hput : ∀ v k old, LogOnly x s (((s.setSide x v).set (.side x) F.ASH_SEQ 0 k).ashFill x old) := fun v k old =>
    ((LogOnly.setSide x v).trans (LogOnly.set (by simp [logFields]))).trans (State.ashFill_logOnly x old)
  unfold State.ashPut
  dsimp only
  split
  · exact (hput _ _ _).trans ((LogOnly.set (by simp [logFields])).trans (LogOnly.set (by simp [logFields])))
  · exact hput _ _ _

theorem State.log_logOnly (x : Side) (code prod : Nat) (args : List Arg) : LogOnly x s (s.log x code prod args) := by
  unfold State.log
  dsimp only
  split
  · exact LogOnly.refl x s
  · split
    · exact LogOnly.refl x s
    · exact State.each_keeps (fun _ _ h => h.trans (State.ashPut_logOnly _ _ _)) _ (State.ashPut_logOnly _ _ _)

/-! ## Errors of a DMA channel -/

theorem State.dmaIrq_only {l : List Spot} {x : Side} {n : Nat} (hl : (.side x, F.INTR_PENDING, (32 + n) / 32) ∈ l) :
    Only l s (s.dmaIrq x n) := by
  unfold State.dmaIrq
  split
  · exact Only.intr hl
  · exact Only.refl l s

theorem State.dmaIrq_sideOnly (x y : Side) (n : Nat) : SideOnly y s (s.dmaIrq x n) := by
  unfold State.dmaIrq
  split
  · exact SideOnly.intr _ _ _
  · exact SideOnly.refl y s

/-- The register fields that an error of DMA channel `n` may write. -/
def dmaErrFields (x : Side) (n : Nat) : List Spot :=
  [(.side x, F.DMA_STATUS_ERR, n), (.side x, F.DMA_STATUS_ERRCODE, n), (.side x, F.INTR_PENDING, (32 + n) / 32)]

theorem State.dmaErr_only (x : Side) (n code : Nat) : Only (dmaErrFields x n) s (s.dmaErr x n code) :=
  ((Only.set (by simp [dmaErrFields])).then_set (by simp [dmaErrFields])).trans (State.dmaIrq_only (by simp [dmaErrFields]))

theorem State.dmaErr_sideOnly (x y : Side) (n code : Nat) : SideOnly y s (s.dmaErr x n code) :=
  ((SideOnly.set _ _ _ _ _).trans (SideOnly.set _ _ _ _ _)).trans (State.dmaIrq_sideOnly _ _ _)

/-- The interrupt of a channel leaves every field but the pending bits. -/
theorem State.get_dmaIrq (x : Side) (n : Nat) (h : Holder) (f : Fld) (i : Nat) (hf : f.reg ≠ F.INTR_PENDING.reg) :
    (s.dmaIrq x n).get h f i = s.get h f i :=
  (State.dmaIrq_only (l := [(.side x, F.INTR_PENDING, (32 + n) / 32)]) (by simp)).get_fld (by simp [hf])

theorem State.dmaErr_err (x : Side) (n code : Nat) : (s.dmaErr x n code).get (.side x) F.DMA_STATUS_ERR n = 1 := by
  rw [State.dmaErr, State.get_dmaIrq _ _ _ _ _ (by decide), State.get_set_fld _ _ _ _ _ _ _ _ (by decide), State.get_set_self]
  rfl

theorem State.dmaErr_errcode (x : Side) (n : Nat) {code : Nat} (hc : code < 16) :
    (s.dmaErr x n code).get (.side x) F.DMA_STATUS_ERRCODE n = code := by
  rw [State.dmaErr, State.get_dmaIrq _ _ _ _ _ (by decide), State.get_set_self]
  exact Nat.mod_eq_of_lt hc

theorem State.dmaRefuse_only (x : Side) (n code : Nat) : Only (logFields x ++ dmaErrFields x n) s (s.dmaRefuse x n code) := by
  have htook : Only (logFields x ++ dmaErrFields x n) s s.took := Only.of_regs rfl
  unfold State.dmaRefuse
  exact (htook.trans ((State.log_logOnly x _ _ _).1.mono fun p hp => List.mem_append_left _ hp)).trans
    ((State.dmaErr_only x n code).mono fun p hp => List.mem_append_right _ hp)

theorem State.dmaRefuse_memSame (x : Side) (n code : Nat) : MemSame s (s.dmaRefuse x n code) := by
  intro y a
  rw [State.dmaRefuse, (State.dmaErr_sideOnly x x n code).mem, (State.log_logOnly x _ _ _).2.mem, State.byte_took]

/-! ## The start of a DMA channel -/

/-- A part of each of several bridges replaced: nothing of the side changes but its bridges. -/
theorem State.each_setBridge_eq (x : Side) (f : State → Nat → Bridge) (l : List Nat) :
    ∃ bs, s.each l (fun s i => s.setBridge x i (f s i)) = s.setSide x { s.side x with bridges := bs } := by
  refine State.each_keeps (P := fun t => ∃ bs, t = s.setSide x { s.side x with bridges := bs }) ?_ l
    ⟨(s.side x).bridges, (State.setSide_side x).symm⟩
  rintro t i ⟨bs, rfl⟩
  exact ⟨_, by simp [State.setBridge]; rfl⟩

/-- A channel that no longer runs: its data and its waiting writes are gone, and of the registers BUSY alone is written. -/
theorem State.dmaHalt_eq (x : Side) (n : Nat) : ∃ bs, s.dmaHalt x n =
    (s.setSide x { s.side x with dmaData := Tab.put 0 (s.side x).dmaData n 0, dmaQueue := Tab.put [] (s.side x).dmaQueue n [],
                                 bridges := bs }).set (.side x) F.DMA_STATUS_BUSY n 0 := by
  obtain ⟨bs, e⟩ := State.each_setBridge_eq (s := s.setSide x { s.side x with
      dmaData := Tab.put 0 (s.side x).dmaData n 0, dmaQueue := Tab.put [] (s.side x).dmaQueue n [] }) x
    (fun s i => { s.bridge x i with
      txns := (s.bridge x i).txns.map (fun t => if t.chan = n + 1 then { t with chan := 0 } else t)
      near := (s.bridge x i).near.filter (fun t => t.chan != n + 1) }) (List.range 6)
  refine ⟨bs, ?_⟩
  unfold State.dmaHalt
  dsimp only
  rw [e]
  simp

/-- The state in which a write of DMA_CTRL is judged: IRQ_EN and MODE are written. -/
def State.dmaCtrlSet (s : State) (x : Side) (n v : Nat) : State :=
  (s.set (.side x) F.DMA_CTRL_IRQ_EN n (bits v 16 16)).set (.side x) F.DMA_CTRL_MODE n (bits v 3 1)

/-- The register fields that a GO of an idle channel writes as it starts. -/
def dmaGoFields (x : Side) (n : Nat) : List Spot :=
  [(.side x, F.DMA_CTRL_IRQ_EN, n), (.side x, F.DMA_CTRL_MODE, n), (.side x, F.DMA_STATUS_BUSY, n)]

theorem State.dmaCtrlSet_only (x : Side) (n v : Nat) : Only (dmaGoFields x n) s (s.dmaCtrlSet x n v) :=
  (Only.set (by simp [dmaGoFields])).then_set (by simp [dmaGoFields])

theorem State.dmaCtrlSet_sideOnly (x y : Side) (n v : Nat) : SideOnly y s (s.dmaCtrlSet x n v) :=
  (SideOnly.set _ _ _ _ _).trans (SideOnly.set _ _ _ _ _)

theorem State.get_dmaCtrlSet (s : State) (x : Side) (n v : Nat) (h : Holder) (f : Fld) (i : Nat) (hf : f.reg ≠ F.DMA_CTRL_MODE.reg) :
    (s.dmaCtrlSet x n v).get h f i = s.get h f i := by
  rw [State.dmaCtrlSet, State.get_set_fld _ _ _ _ _ _ _ _ (.inl hf),
    State.get_set_fld _ _ _ F.DMA_CTRL_IRQ_EN _ _ _ _ (.inl hf)]

/-- What a GO does to an idle channel: it is refused with ERRCODE 4, or it starts (R62, R73). -/
theorem State.dmaCtrl_go {x : Side} {n v : Nat} (hgo : v.testBit 0 = true) (hidle : s.get (.side x) F.DMA_STATUS_BUSY n = 0) :
    s.dmaCtrl x n v =
      if s.get (.side x) F.DMA_LEN n = 0 ∨ 2 ≤ bits v 3 1 ∨
          (bits v 3 1 = 0 ∧ isDoorCmd (s.get (.side x) F.DMA_DST n) ∧ s.get (.side x) F.DMA_LEN n % 8 ≠ 0) then
        (s.dmaCtrlSet x n v).dmaRefuse x n 4
      else
        (((s.dmaCtrlSet x n v).dmaHalt x n).setSide x { ((s.dmaCtrlSet x n v).dmaHalt x n).side x with
          dmaPos := Tab.put 0 (((s.dmaCtrlSet x n v).dmaHalt x n).side x).dmaPos n 0 }).set (.side x) F.DMA_STATUS_BUSY n 1 := by
  have hbusy : s.is (.side x) F.DMA_STATUS_BUSY n = false := by simp [State.is, hidle]
  have hlen := s.get_dmaCtrlSet x n v (.side x) F.DMA_LEN n (by decide)
  have hdst := s.get_dmaCtrlSet x n v (.side x) F.DMA_DST n (by decide)
  rw [← hlen, ← hdst]
  simp only [State.dmaCtrl, hbusy, hgo, not_true, if_false, Bool.false_eq_true]
  rfl

/-- What a GO of length 0 leaves of an idle channel: it stays idle, with its error (R62). -/
theorem State.dmaCtrl_lengthless {x : Side} {n v : Nat} (hgo : v.testBit 0 = true) (hidle : s.get (.side x) F.DMA_STATUS_BUSY n = 0)
    (hlen : s.get (.side x) F.DMA_LEN n = 0) :
    (s.dmaCtrl x n v).get (.side x) F.DMA_STATUS_BUSY n = 0 ∧ (s.dmaCtrl x n v).get (.side x) F.DMA_STATUS_ERR n = 1 ∧
    (s.dmaCtrl x n v).get (.side x) F.DMA_STATUS_ERRCODE n = 4 ∧ MemSame s (s.dmaCtrl x n v) := by
  rw [State.dmaCtrl_go hgo hidle, if_pos (.inl hlen)]
  refine ⟨?_, State.dmaErr_err x n 4, State.dmaErr_errcode x n (by decide), fun y a => ?_⟩
  · rw [(State.dmaRefuse_only x n 4).get_fld (by simp [logFields, dmaErrFields]; decide), State.get_dmaCtrlSet _ _ _ _ _ _ _ (by decide),
      hidle]
  · rw [State.dmaRefuse_memSame x n 4, (State.dmaCtrlSet_sideOnly x x n v).mem]

/-- What a GO that starts an idle channel leaves (R62). -/
theorem State.dmaCtrl_start {x : Side} {n v : Nat} (hgo : v.testBit 0 = true) (hidle : s.get (.side x) F.DMA_STATUS_BUSY n = 0)
    (hmode : bits v 3 1 = 1) (hlen : s.get (.side x) F.DMA_LEN n ≠ 0) :
    (s.dmaCtrl x n v).get (.side x) F.DMA_STATUS_BUSY n = 1 ∧ (s.dmaCtrl x n v).get (.side x) F.DMA_CTRL_MODE n = 1 ∧
    Tab.at 0 ((s.dmaCtrl x n v).side x).dmaPos n = 0 ∧ Tab.at [] ((s.dmaCtrl x n v).side x).dmaQueue n = [] ∧
    Only (dmaGoFields x n) s (s.dmaCtrl x n v) ∧ SideOnly x s (s.dmaCtrl x n v) := by
  obtain ⟨bs, hhalt⟩ := State.dmaHalt_eq (s := s.dmaCtrlSet x n v) x n
  have hset : (s.dmaCtrlSet x n v).get (.side x) F.DMA_CTRL_MODE n = 1 := by
    rw [State.dmaCtrlSet, State.get_set_self, hmode]
    rfl
  rw [State.dmaCtrl_go hgo hidle, if_neg (by omega), hhalt]
  refine ⟨?_, ?_, by simp, by simp, ?_, ?_⟩
  · rw [State.get_set_self]
    rfl
  · rw [State.get_set_fld _ _ _ _ _ _ _ _ (by decide), State.get_setSide, State.get_set_fld _ _ _ _ _ _ _ _ (by decide),
      State.get_setSide, hset]
  · have hbusy : (Holder.side x, F.DMA_STATUS_BUSY, n) ∈ dmaGoFields x n := by simp [dmaGoFields]
    exact (((State.dmaCtrlSet_only x n v).then_regs (State.regs_setSide _ _ _)).then_set hbusy).then_regs
      (State.regs_setSide _ _ _) |>.then_set hbusy
  · exact ((((State.dmaCtrlSet_sideOnly x x n v).trans (SideOnly.setSide x _)).trans (SideOnly.set _ _ _ _ _)).trans
      (SideOnly.setSide x _)).trans (SideOnly.set _ _ _ _ _)

end Sys2Proof.Machine
end

section
/-! Memory and the DMA engine: what a write leaves of a side, bytes stored and loaded, and a copy of one slot within local SRAM. -/
namespace Sys2Proof.Machine
open Sys2Proof

variable {s t u : State}

/-! ## Bytes stored and loaded -/

theorem State.store_cons (x : Side) (a b : Nat) (l : List Nat) :
    s.store x a (b :: l) = (s.setByte x a (BitVec.ofNat 8 b)).store x (a + 1) l := rfl

/-- Storing bytes changes memory alone. -/
theorem State.store_eq (x : Side) (a : Nat) (l : List Nat) : s.store x a l = { s with mem := (s.store x a l).mem } := by
  suffices ∃ m, s.store x a l = { s with mem := m } by
    obtain ⟨m, e⟩ := this
    rw [e]
  induction l generalizing s a with
  | nil => exact ⟨s.mem, rfl⟩
  | cons b l ih =>
    obtain ⟨m, e⟩ := ih (s := s.setByte x a (BitVec.ofNat 8 b)) (a := a + 1)
    exact ⟨m, by rw [State.store_cons, e, State.setByte]⟩

theorem memKey_inj {x : Side} {a b : Nat} (ha : a < 2 ^ 40) (hb : b < 2 ^ 40) (h : memKey x a = memKey x b) : a = b := by
  rw [memKey, memKey, Nat.mod_eq_of_lt ha, Nat.mod_eq_of_lt hb] at h
  exact Nat.add_left_cancel h

/-- A byte below those stored reads as before. -/
theorem State.byte_store_of_lt (x : Side) {a c : Nat} {l : List Nat} (hc : c < a) (hl : a + l.length ≤ 2 ^ 40) :
    (s.store x a l).byte x c = s.byte x c := by
  induction l generalizing s a with
  | nil => rfl
  | cons b l ih =>
    rw [List.length_cons] at hl
    rw [State.store_cons, ih (by omega) (by omega), State.byte_setByte, if_neg]
    intro e
    have := memKey_inj (by omega) (by omega) e
    omega

theorem State.load_succ (x : Side) (a n : Nat) : s.load x a (n + 1) = (s.byte x a).toNat :: s.load x (a + 1) n := by
  simp only [State.load, List.range_succ_eq_map, List.map_cons, List.map_map, Nat.add_zero, List.cons.injEq, true_and]
  exact List.map_congr_left fun i _ => by simp only [Function.comp, Nat.add_assoc, Nat.add_comm 1, Nat.succ_eq_add_one]

theorem State.load_of_mem (h : t.mem = s.mem) (x : Side) (a n : Nat) : t.load x a n = s.load x a n := by
  simp only [State.load, State.byte, h]

/-- Bytes stored are loaded again. -/
theorem State.load_store (x : Side) {a : Nat} {l : List Nat} (hl : a + l.length ≤ 2 ^ 40) :
    (s.store x a l).load x a l.length = l.map (· % 2 ^ 8) := by
  induction l generalizing s a with
  | nil => rfl
  | cons b l ih =>
    rw [List.length_cons] at hl
    rw [List.length_cons, State.load_succ, State.store_cons, ih (by omega), State.byte_store_of_lt x (by omega) (by omega),
      State.byte_setByte, if_pos rfl, BitVec.toNat_ofNat, List.map_cons]

theorem State.length_load (x : Side) (a n : Nat) : (s.load x a n).length = n := by simp [State.load]

theorem State.load_lt {x : Side} {a n b : Nat} (h : b ∈ s.load x a n) : b < 2 ^ 8 := by
  obtain ⟨i, -, rfl⟩ := List.mem_map.mp h
  exact (s.byte x (a + i)).isLt

/-- The little-endian bytes of the number that a list of bytes spells are that list. -/
theorem leBytes_leNat {l : List Nat} (h : ∀ b ∈ l, b < 2 ^ 8) : leBytes l.length (leNat l) = l := by
  induction l with
  | nil => rfl
  | cons b l ih =>
    have hb := h b (by simp)
    have hlow : (b % 256 + 256 * leNat l) % 256 = b := by omega
    have hhigh : (b % 256 + 256 * leNat l) / 256 = leNat l := by omega
    rw [leNat, List.length_cons, leBytes, hlow, hhigh, ih fun c hc => h c (by simp [hc])]

/-- A number loaded and stored elsewhere takes its bytes along. -/
theorem State.load_store_loadLE (x : Side) {a b n : Nat} (hb : b + n ≤ 2 ^ 40) :
    (t.store x b (leBytes n (s.loadLE x a n))).load x b n = s.load x a n := by
  have hbytes : leBytes n (s.loadLE x a n) = s.load x a n := by
    have hround := leBytes_leNat (l := s.load x a n) fun _ h => State.load_lt h
    rwa [State.length_load] at hround
  have hload := State.load_store (s := t) (l := s.load x a n) x (a := b) (by rwa [State.length_load])
  rw [State.length_load] at hload
  rw [hbytes, hload]
  exact (List.map_congr_left fun b h => Nat.mod_eq_of_lt (State.load_lt h)).trans (List.map_id' _)

/-! ## Writes into memory -/

theorem State.unreserve_hartsOnly (x : Side) (a n : Nat) : HartsOnly x s (s.unreserve x a n) := by
  refine State.each_keeps (fun t h ht => ht.trans ?_) _ (HartsOnly.refl x s)
  dsimp only
  split
  · split
    · exact HartsOnly.setHart _ _ _
    · exact HartsOnly.refl _ _
  · exact HartsOnly.refl _ _

/-- A write changes memory, the dirty lines of its side and the reservations of its cores. -/
theorem State.write_eq (x : Side) (a : Nat) (l : List Nat) : ∃ d hs, s.write x a l =
    { s with mem := (s.store x a l).mem }.setSide x { s.side x with dirty := d, harts := hs } := by
  obtain ⟨hs, e⟩ := State.unreserve_hartsOnly (s := (s.store x a l).touch x a l.length) x a l.length
  refine ⟨((s.store x a l).touch x a l.length).side x |>.dirty, hs, ?_⟩
  rw [State.write, e, State.touch, State.store_eq]
  simp [State.side_with_mem]

@[simp] theorem State.regs_write (x : Side) (a : Nat) (l : List Nat) : (s.write x a l).regs = s.regs := by
  obtain ⟨d, hs, e⟩ := State.write_eq (s := s) x a l
  rw [e, State.regs_setSide]

@[simp] theorem State.resp_write (x : Side) (a : Nat) (l : List Nat) : (s.write x a l).resp = s.resp := by
  obtain ⟨d, hs, e⟩ := State.write_eq (s := s) x a l
  rw [e, State.resp_setSide]

@[simp] theorem State.now_write (x : Side) (a : Nat) (l : List Nat) : (s.write x a l).now = s.now := by
  obtain ⟨d, hs, e⟩ := State.write_eq (s := s) x a l
  rw [e, State.now_setSide]

@[simp] theorem State.dies_write (x : Side) (a : Nat) (l : List Nat) : (s.write x a l).dies = s.dies := by
  obtain ⟨d, hs, e⟩ := State.write_eq (s := s) x a l
  rw [e, State.dies_setSide]

theorem State.mem_write (x : Side) (a : Nat) (l : List Nat) : (s.write x a l).mem = (s.store x a l).mem := by
  obtain ⟨d, hs, e⟩ := State.write_eq (s := s) x a l
  rw [e, State.mem_setSide]

@[simp] theorem State.bridge_write (x : Side) (a : Nat) (l : List Nat) (i : Nat) : (s.write x a l).bridge x i = s.bridge x i := by
  obtain ⟨d, hs, e⟩ := State.write_eq (s := s) x a l
  rw [e, State.bridge, State.side_setSide_self]
  rfl

/-! ## Accesses of a DMA channel to local SRAM -/

theorem inSram_iff {a n : Nat} : inSram a n = true ↔ 0x10000000 ≤ a ∧ a + n ≤ 0x11400000 := by simp [inSram]

theorem placeOf_sram {a : Nat} (h : inSram a 8 = true) : placeOf a = .sram := by
  obtain ⟨hlo, hhi⟩ := inSram_iff.mp h
  rw [placeOf, if_neg (by omega), if_neg (by omega), if_pos (by omega)]

theorem rangeOf_sram {a : Nat} (h : inSram a 8 = true) : rangeOf a = some (0x10000000, 0x11400000) := by
  obtain ⟨hlo, hhi⟩ := inSram_iff.mp h
  have hrom : ¬ a < 0x20000 := by omega
  have hin : a < 0x11400000 := by omega
  simp [rangeOf, hrom, hlo, hin]

theorem isDoorCmd_sram {a : Nat} (h : inSram a 8 = true) : isDoorCmd a = false := by
  obtain ⟨hlo, hhi⟩ := inSram_iff.mp h
  have hbelow : ¬ 0x40030000 ≤ a := by omega
  have hfar : ¬ 0x68030000 ≤ a := by omega
  simp [isDoorCmd, hbelow, hfar]

theorem regBytes_sram (x : Side) {a : Nat} (h : inSram a 8 = true) : regBytes x a = none := by
  simp only [regBytes, placeOf_sram h, regIn, Option.map_none]

/-- A copy between aligned addresses of local SRAM moves whole slots. -/
theorem copySize_sram (x : Side) {a b : Nat} (ha : inSram a 8 = true) (hb : inSram b 8 = true) (ha8 : a % 8 = 0) (hb8 : b % 8 = 0) :
    copySize x a b 8 = 8 := by
  simp [copySize, isDoorCmd_sram hb, regBytes_sram x ha, regBytes_sram x hb, ha8, hb8]

/-- Channel `n` runs, and what stands before an access of 8 bytes of local SRAM lets it through: the ownership checker and the locks of the
other side's harts (R302, R425). -/
structure DmaPasses (s : State) (x : Side) (n : Fin 32) (a : Nat) (write : Bool) : Prop where
  fabric : s.fabric x = true
  busy : s.get (.side x) F.DMA_STATUS_BUSY n = 1
  sram : inSram a 8 = true
  allows : s.wotAllows x a (s.worldOf x (.dma n)) (b2n write) = true
  range : s.wotRange x a 8 (s.worldOf x (.dma n)) (b2n write) = true
  unlocked : s.lockedHere x (.dma n) a 8 = false

theorem State.get_of_regs (hr : t.regs = s.regs) (h : Holder) (f : Fld) (i : Nat) : t.get h f i = s.get h f i := by
  simp only [State.get, hr]

theorem State.wotAllows_of {x : Side} (hr : t.regs = s.regs) (hl : (t.side x).wotLive = (s.side x).wotLive) (a w k : Nat) :
    t.wotAllows x a w k = s.wotAllows x a w k := by
  have hregion : t.wotRegion x = s.wotRegion x := funext fun r => by simp only [State.wotRegion, State.get_of_regs hr, hl]
  simp only [State.wotAllows, State.wotMask, hregion]

theorem State.mirLockedRange_of {x : Side} (hr : t.regs = s.regs) (hl : (t.side x).peerLost = (s.side x).peerLost) (a n : Nat) :
    t.mirLockedRange x a n = s.mirLockedRange x a n := by
  have hregion : t.mirRegion x.other = s.mirRegion x.other := funext fun r => by simp only [State.mirRegion, State.get_of_regs hr]
  simp only [State.mirLockedRange, State.mirLocked, State.mirrored, hregion, hl]

/-- The access passes in every state with the same registers, regions and locks. -/
theorem DmaPasses.of {x : Side} {n : Fin 32} {a : Nat} {write : Bool} (h : DmaPasses s x n a write) (hr : t.regs = s.regs)
    (hrun : (t.side x).run = (s.side x).run) (hl : (t.side x).wotLive = (s.side x).wotLive)
    (hk : (t.side x.other).locks = (s.side x.other).locks) : DmaPasses t x n a write := by
  have hworld : t.worldOf x (.dma n) = s.worldOf x (.dma n) := State.get_of_regs hr _ _ _
  obtain ⟨hfabric, hbusy, hsram, hallows, hrange, hunlocked⟩ := h
  refine ⟨?_, ?_, hsram, ?_, ?_, ?_⟩
  · rwa [State.fabric, hrun]
  · rwa [State.get_of_regs hr]
  · rwa [hworld, State.wotAllows_of hr hl]
  · rw [hworld]
    simpa only [State.wotRange, State.wotAllows_of hr hl] using hrange
  · rwa [State.lockedHere, hk]

theorem DmaPasses.permits {x : Side} {n : Fin 32} {a : Nat} {write : Bool} (h : DmaPasses s x n a write) :
    s.Permits x (.dma n) a 8 write := by
  refine ⟨?_, rfl, h.allows⟩
  simp [State.makes, State.is, h.fabric, h.busy]

theorem State.bridge_with_resp (r : Resp) (x : Side) (i : Nat) : ({ s with resp := r } : State).bridge x i = s.bridge x i := by
  simp only [State.bridge, State.side_with_resp]

/-- The state with nothing answered yet passes the same accesses. -/
theorem DmaPasses.idle {x : Side} {n : Fin 32} {a : Nat} {write : Bool} (h : DmaPasses s x n a write) :
    DmaPasses { s with resp := .idle } x n a write :=
  h.of rfl (by rw [State.side_with_resp]) (by rw [State.side_with_resp]) (by rw [State.side_with_resp])

/-- No core's step ends with an access of a DMA channel. -/
theorem State.stepDone_dma (x : Side) (n : Fin 32) : s.stepDone x (.dma n) = s := rfl

theorem State.loadLE_with_resp (r : Resp) (x : Side) (a n : Nat) : ({ s with resp := r } : State).loadLE x a n = s.loadLE x a n := rfl

/-- A clean read of 8 bytes of local SRAM answers them and changes nothing. -/
theorem DmaPasses.localRead {x : Side} {n : Fin 32} {a : Nat} (h : DmaPasses s x n a false) :
    s.localRead x (.dma n) a 8 .clean = { s with resp := .data (s.loadLE x a 8) } := by
  obtain ⟨-, -, hsram, -, hrange, hunlocked⟩ := h.idle
  have hspan : ({ s with resp := .idle } : State).spanRefuses x (.dma n) a 8 false = false := by simp [State.spanRefuses, hrange]
  have hend : a + 8 ≤ 0x11400000 := (inSram_iff.mp hsram).2
  rw [State.localRead, State.localAccess, accWrites, State.guarded_of_permits h.permits]
  simp only [accAtomic, placeOf_sram hsram]
  simp [State.memLoad, placeOf_sram hsram, rangeOf_sram hsram, bridgeOf, hend, hspan, hunlocked, hsram, State.memAccess, State.memRead,
    State.eccSeen, State.stepDone_dma, State.loadLE_with_resp]

/-- A write of 8 bytes of local SRAM that no incoming region locks. -/
theorem DmaPasses.localWrite {x : Side} {n : Fin 32} {a : Nat} (h : DmaPasses s x n a true) (hm : s.mirLockedRange x a 8 = false)
    (v : Nat) : s.localWrite x (.dma n) a 8 v = { s with resp := .idle }.write x a (leBytes 8 v) := by
  obtain ⟨-, -, hsram, -, hrange, hunlocked⟩ := h.idle
  have hspan : ({ s with resp := .idle } : State).spanRefuses x (.dma n) a 8 true = false := by simp [State.spanRefuses, hrange]
  have hmir : ({ s with resp := .idle } : State).mirLockedRange x a 8 = false := hm
  rw [State.localWrite, State.localAccess, accWrites, State.guarded_of_permits h.permits]
  simp only [accAtomic, placeOf_sram hsram]
  simp [hsram, State.memStore, hspan, hmir, hunlocked, State.memAccess, State.stepDone_dma]

end Sys2Proof.Machine
end

section
/-! The copy of one slot: the accesses of a DMA channel that it takes, one after the other, and what it leaves; then the statement about
claims and copies. -/
namespace Sys2Proof.Machine
open Sys2Proof

variable {s t u : State}

/-! ## The accesses of a copy -/

/-- A DMA channel reads 8 bytes of local SRAM. -/
theorem DmaPasses.dmaRead {x : Side} {n : Fin 32} {a : Nat} (h : DmaPasses s x n a false) :
    s.dmaAccess x n a 8 none .clean = (true, { s with resp := .data (s.loadLE x a 8) }) := by
  simp [State.dmaAccess, placeOf_sram h.sram, bridgeOf, h.unlocked, h.localRead]

/-- A DMA channel writes 8 bytes of local SRAM. -/
theorem DmaPasses.dmaWrite {x : Side} {n : Fin 32} {a : Nat} (h : DmaPasses s x n a true) (hm : s.mirLockedRange x a 8 = false)
    (v : Nat) : s.dmaAccess x n a 8 (some v) .clean = (true, { s with resp := .idle }.write x a (leBytes 8 v)) := by
  simp [State.dmaAccess, placeOf_sram h.sram, bridgeOf, h.unlocked, h.localWrite hm]

theorem copyEcc_none (a n : Nat) : copyEcc none none a n = .clean := by simp [copyEcc]

/-- Channel `n` is set up to copy one slot from `a` to `b` of local SRAM, both aligned, and nothing of it waits in a bridge. -/
structure CopiesSlot (s : State) (x : Side) (n : Fin 32) (a b : Nat) : Prop where
  len : s.get (.side x) F.DMA_LEN n = 8
  src : s.get (.side x) F.DMA_SRC n = a
  dst : s.get (.side x) F.DMA_DST n = b
  srcAligned : a % 8 = 0
  dstAligned : b % 8 = 0
  srcSram : inSram a 8 = true
  dstSram : inSram b 8 = true
  unbridged : s.dmaInBridge x n = false

theorem CopiesSlot.of {x : Side} {n : Fin 32} {a b : Nat} (h : CopiesSlot s x n a b) (hr : t.regs = s.regs)
    (hb : ∀ i, t.bridge x i = s.bridge x i) : CopiesSlot t x n a b := by
  obtain ⟨hlen, hsrc, hdst, ha8, hb8, hasram, hbsram, hbridge⟩ := h
  refine ⟨?_, ?_, ?_, ha8, hb8, hasram, hbsram, ?_⟩
  · rwa [State.get_of_regs hr]
  · rwa [State.get_of_regs hr]
  · rwa [State.get_of_regs hr]
  · simpa only [State.dmaInBridge, hb] using hbridge

theorem CopiesSlot.size {x : Side} {n : Fin 32} {a b : Nat} (h : CopiesSlot s x n a b) : copySize x a b 8 = 8 :=
  copySize_sram x h.srcSram h.dstSram h.srcAligned h.dstAligned

/-- The state once channel `n` has read `v` and holds it (as `v + 1`: 0 stands for nothing). -/
def State.dmaHolds (s : State) (x : Side) (n v : Nat) : State :=
  { s with resp := .data v }.setSide x { s.side x with dmaData := Tab.put 0 (s.side x).dmaData n (v + 1) }

@[simp] theorem State.regs_dmaHolds (x : Side) (n v : Nat) : (s.dmaHolds x n v).regs = s.regs := State.regs_setSide _ _ _

@[simp] theorem State.now_dmaHolds (x : Side) (n v : Nat) : (s.dmaHolds x n v).now = s.now := State.now_setSide _ _ _

@[simp] theorem State.dies_dmaHolds (x : Side) (n v : Nat) : (s.dmaHolds x n v).dies = s.dies := State.dies_setSide _ _ _

theorem State.side_dmaHolds (x : Side) (n v : Nat) :
    (s.dmaHolds x n v).side x = { s.side x with dmaData := Tab.put 0 (s.side x).dmaData n (v + 1) } := State.side_setSide_self _ _ _

theorem State.side_other_dmaHolds (x : Side) (n v : Nat) : (s.dmaHolds x n v).side x.other = s.side x.other := by
  rw [State.dmaHolds, State.side_setSide_other, State.side_with_resp]

@[simp] theorem State.bridge_dmaHolds (x : Side) (n v i : Nat) : (s.dmaHolds x n v).bridge x i = s.bridge x i := by
  rw [State.bridge, State.side_dmaHolds]
  rfl

/-- A channel that holds nothing reads its slot. -/
theorem CopiesSlot.copy_read {x : Side} {n : Fin 32} {a b : Nat} (h : CopiesSlot s x n a b) (hp : DmaPasses s x n a false)
    (hd : Tab.at 0 (s.side x).dmaData n = 0) (k : Nat) :
    s.dmaCopy x n none none (k + 1) = (s.dmaHolds x n (s.loadLE x a 8)).dmaCopy x n none none k := by
  simp [State.dmaCopy, h.len, h.src, h.dst, h.unbridged, h.size, hd, copyEcc_none, hp.dmaRead, State.dmaHolds, State.side_with_resp]

/-- A channel that holds a slot writes it. -/
theorem CopiesSlot.copy_write {x : Side} {n : Fin 32} {a b v : Nat} (h : CopiesSlot s x n a b) (hp : DmaPasses s x n b true)
    (hm : s.mirLockedRange x b 8 = false) (hd : Tab.at 0 (s.side x).dmaData n = v + 1) (k : Nat) :
    s.dmaCopy x n none none (k + 1) = (({ s with resp := .idle }.write x b (leBytes 8 v)).dmaMoved x n 8).dmaCopy x n none none k := by
  simp [State.dmaCopy, h.len, h.src, h.dst, h.unbridged, h.size, hd, hp.dmaWrite hm]

/-- A copy with no byte left is over. -/
theorem State.dmaCopy_done {x : Side} {n : Nat} (h : s.get (.side x) F.DMA_LEN n = 0) (lost corr : Option Word40) (k : Nat) :
    s.dmaCopy x n lost corr (k + 1) = (s.set (.side x) F.DMA_STATUS_BUSY n 0).dmaDone x n := by
  simp [State.dmaCopy, h]

/-! ## What a copied slot leaves -/

/-- A copy advances over a written slot: nothing is held, SRC and DST move on, and no byte is left. -/
theorem CopiesSlot.dmaMoved_eq {x : Side} {n : Fin 32} {a b : Nat} (h : CopiesSlot s x n a b)
    (hm : s.get (.side x) F.DMA_CTRL_MODE n = 0) :
    s.dmaMoved x n 8 = (((s.setSide x { s.side x with dmaData := Tab.put 0 (s.side x).dmaData n 0 }).set (.side x) F.DMA_SRC n
      (a + 8)).set (.side x) F.DMA_LEN n 0).set (.side x) F.DMA_DST n (b + 8) := by
  have hdst : ∀ d v w, (((s.setSide x d).set (.side x) F.DMA_SRC n v).set (.side x) F.DMA_LEN n w).get (.side x) F.DMA_DST n = b :=
    fun d v w => by
      rw [State.get_set_fld _ _ _ _ _ _ _ _ (by decide), State.get_set_fld _ _ _ _ _ _ _ _ (by decide), State.get_setSide, h.dst]
  simp [State.dmaMoved, State.add, hm, h.len, h.src, h.dst, isDoorCmd_sram h.dstSram, hdst]

theorem SideOnly.dmaDone (x : Side) (n : Nat) : SideOnly x s (s.dmaDone x n) :=
  (SideOnly.set _ _ _ _ _).trans (State.dmaIrq_sideOnly _ _ _)

/-- DONE leaves every field but the status and the pending bits. -/
theorem State.get_dmaDone (x : Side) (n : Nat) (h : Holder) (f : Fld) (i : Nat) (hf : f.reg ≠ F.INTR_PENDING.reg)
    (hd : f.reg ≠ F.DMA_STATUS_DONE.reg ∨ f.lo ≠ F.DMA_STATUS_DONE.lo) : (s.dmaDone x n).get h f i = s.get h f i := by
  rw [State.dmaDone, State.get_dmaIrq _ _ _ _ _ hf, State.get_set_fld _ _ _ _ _ _ _ _ hd]

/-- From a state in which the slot is written, the copy advances over it and completes. -/
theorem CopiesSlot.completed {x : Side} {n : Fin 32} {a b : Nat} (h : CopiesSlot s x n a b)
    (hm : s.get (.side x) F.DMA_CTRL_MODE n = 0) (lost corr : Option Word40) (k : Nat) :
    ∃ t, (s.dmaMoved x n 8).dmaCopy x n lost corr (k + 1) = t ∧ SideOnly x s t ∧
      t.get (.side x) F.DMA_STATUS_BUSY n = 0 ∧ t.get (.side x) F.DMA_STATUS_DONE n = 1 ∧ t.get (.side x) F.DMA_LEN n = 0 ∧
      t.get (.side x) F.DMA_SRC n = a + 8 ∧ t.get (.side x) F.DMA_DST n = b + 8 := by
  have ha := (inSram_iff.mp h.srcSram).2
  have hb := (inSram_iff.mp h.dstSram).2
  have hsrcFits : (a + 8) % 2 ^ F.DMA_SRC.width = a + 8 := Nat.mod_eq_of_lt (by simp only [F.DMA_SRC, Fld.width]; omega)
  have hdstFits : (b + 8) % 2 ^ F.DMA_DST.width = b + 8 := Nat.mod_eq_of_lt (by simp only [F.DMA_DST, Fld.width]; omega)
  have hlen : (s.dmaMoved x n 8).get (.side x) F.DMA_LEN n = 0 := by
    rw [h.dmaMoved_eq hm, State.get_set_fld _ _ _ _ _ _ _ _ (by decide), State.get_set_self, Nat.zero_mod]
  have hsrc : (s.dmaMoved x n 8).get (.side x) F.DMA_SRC n = a + 8 := by
    rw [h.dmaMoved_eq hm, State.get_set_fld _ _ _ _ _ _ _ _ (by decide), State.get_set_fld _ _ _ _ _ _ _ _ (by decide),
      State.get_set_self, hsrcFits]
  have hdst : (s.dmaMoved x n 8).get (.side x) F.DMA_DST n = b + 8 := by
    rw [h.dmaMoved_eq hm, State.get_set_self, hdstFits]
  refine ⟨_, State.dmaCopy_done hlen lost corr k, ?_, ?_, ?_, ?_, ?_, ?_⟩
  · rw [h.dmaMoved_eq hm]
    exact (((((SideOnly.setSide x _).trans (SideOnly.set _ _ _ _ _)).trans (SideOnly.set _ _ _ _ _)).trans
      (SideOnly.set _ _ _ _ _)).trans (SideOnly.set _ _ _ _ _)).trans (SideOnly.dmaDone x n)
  · rw [State.get_dmaDone _ _ _ _ _ (by decide) (by decide), State.get_set_self, Nat.zero_mod]
  · rw [State.dmaDone, State.get_dmaIrq _ _ _ _ _ (by decide), State.get_set_self]
    rfl
  · rw [State.get_dmaDone _ _ _ _ _ (by decide) (by decide), State.get_set_fld _ _ _ _ _ _ _ _ (by decide), hlen]
  · rw [State.get_dmaDone _ _ _ _ _ (by decide) (by decide), State.get_set_fld _ _ _ _ _ _ _ _ (by decide), hsrc]
  · rw [State.get_dmaDone _ _ _ _ _ (by decide) (by decide), State.get_set_fld _ _ _ _ _ _ _ _ (by decide), hdst]

/-- The state once channel `n` has read the slot at `a` and written it at `b`. -/
def State.slotWritten (s : State) (x : Side) (n a b : Nat) : State :=
  { s.dmaHolds x n (s.loadLE x a 8) with resp := .idle }.write x b (leBytes 8 (s.loadLE x a 8))

theorem State.regs_slotWritten (x : Side) (n a b : Nat) : (s.slotWritten x n a b).regs = s.regs := by simp [State.slotWritten]

theorem State.now_slotWritten (x : Side) (n a b : Nat) : (s.slotWritten x n a b).now = s.now := by simp [State.slotWritten]

theorem State.dies_slotWritten (x : Side) (n a b : Nat) : (s.slotWritten x n a b).dies = s.dies := by simp [State.slotWritten]

theorem State.bridge_slotWritten (x : Side) (n a b i : Nat) : (s.slotWritten x n a b).bridge x i = s.bridge x i := by
  rw [State.slotWritten, State.bridge_write, State.bridge_with_resp, State.bridge_dmaHolds]

/-- The bytes of the slot stand at its new place. -/
theorem State.load_slotWritten (x : Side) (n a : Nat) {b : Nat} (hb : inSram b 8 = true) :
    (s.slotWritten x n a b).load x b 8 = s.load x a 8 := by
  have hend := (inSram_iff.mp hb).2
  rw [State.slotWritten, State.load_of_mem (State.mem_write _ _ _), State.load_store_loadLE x (by omega)]

/-- A channel that holds nothing reads its slot and writes it. -/
theorem CopiesSlot.copy_slot {x : Side} {n : Fin 32} {a b : Nat} (h : CopiesSlot s x n a b) (hread : DmaPasses s x n a false)
    (hwrite : DmaPasses s x n b true) (hmir : s.mirLockedRange x b 8 = false) (hd : Tab.at 0 (s.side x).dmaData n = 0) (k : Nat) :
    s.dmaCopy x n none none (k + 2) = ((s.slotWritten x n a b).dmaMoved x n 8).dmaCopy x n none none k := by
  have hregs := State.regs_dmaHolds (s := s) x n (s.loadLE x a 8)
  have hside := State.side_dmaHolds (s := s) x n (s.loadLE x a 8)
  have hother := State.side_other_dmaHolds (s := s) x n (s.loadLE x a 8)
  have hslot := h.of hregs (State.bridge_dmaHolds x n _)
  have hpasses := hwrite.of hregs (by rw [hside]) (by rw [hside]) (by rw [hother])
  have hopen := (State.mirLockedRange_of hregs (by rw [hside]) b 8).trans hmir
  rw [h.copy_read hread hd, hslot.copy_write hpasses hopen (by rw [hside, Tab.at_put_self]), State.slotWritten]

/-- A copy of one slot: it reads it, writes it and is over, and the slot's bytes stand at both places (R62). -/
theorem CopiesSlot.copied {x : Side} {n : Fin 32} {a b : Nat} (h : CopiesSlot s x n a b) (hm : s.get (.side x) F.DMA_CTRL_MODE n = 0)
    (hread : DmaPasses s x n a false) (hwrite : DmaPasses s x n b true) (hmir : s.mirLockedRange x b 8 = false)
    (hd : Tab.at 0 (s.side x).dmaData n = 0) (k : Nat) :
    ∃ t, s.dmaCopy x n none none (k + 3) = t ∧ t.load x b 8 = s.load x a 8 ∧
      t.get (.side x) F.DMA_STATUS_BUSY n = 0 ∧ t.get (.side x) F.DMA_STATUS_DONE n = 1 ∧ t.get (.side x) F.DMA_LEN n = 0 ∧
      t.get (.side x) F.DMA_SRC n = a + 8 ∧ t.get (.side x) F.DMA_DST n = b + 8 ∧ t.dies = s.dies ∧ t.now = s.now := by
  have hregs := State.regs_slotWritten (s := s) x n a b
  obtain ⟨t, ht, hframe, hbusy, hdone, hlen, hsrc, hdst⟩ :=
    (h.of hregs (State.bridge_slotWritten x n a b)).completed (by rwa [State.get_of_regs hregs]) none none k
  obtain ⟨hnow, -, -, hmem, -, -, -, hdies, -⟩ := hframe
  refine ⟨t, (h.copy_slot hread hwrite hmir hd (k + 1)).trans ht, ?_, hbusy, hdone, hlen, hsrc, hdst,
    hdies.trans (State.dies_slotWritten x n a b), hnow.trans (State.now_slotWritten x n a b)⟩
  rw [State.load_of_mem hmem, State.load_slotWritten x n a h.dstSram]

/-- DMA_COPY_DONE carries out a running copy of one slot, and the answer to the last access of a register stays. -/
theorem CopiesSlot.exec_dmaCopyDone {x : Side} {n : Fin 32} {a b : Nat} (h : CopiesSlot s x n a b)
    (hm : s.get (.side x) F.DMA_CTRL_MODE n = 0) (hp : s.present (.dma x) = true) (hread : DmaPasses s x n a false) :
    exec (.dmaCopyDone x n none none) s = .next { s.dmaCopy x n none none 18 with resp := s.resp } := by
  have hbusy : s.is (.side x) F.DMA_STATUS_BUSY n = true := by simp [State.is, hread.busy]
  have hrun : exec (.dmaCopyDone x n none none) s = execDmaCopyDone x n none none s := rfl
  rw [hrun]
  simp [execDmaCopyDone, ok, hbusy, hp, hread.fabric, hm, h.len]

/-! ## The statement -/

/-- A checkpoint starts when none runs: its lines are listed, and the dirty ones are taken over (R277). -/
theorem State.ckptGo_start {x : Side} {v : Nat} (hv : v.testBit 0 = true) (hc : s.crossBoth = true) (hn : (s.side x).ckpt = none) :
    ((s.ckptGo x v).side x).ckpt.isSome = true ∧ ((s.ckptGo x v).side x).dirty = [] ∧ ((s.ckptGo x v).side x).ckptFull = false ∧
    (s.ckptGo x v).regs = s.regs ∧ SideOnly x s (s.ckptGo x v) := by
  have e : s.ckptGo x v = s.setSide x { s.side x with
      ckpt := some ⟨(List.range 16).flatMap (s.ckptRegion x (s.side x).ckptFull), 0⟩, dirty := [], ckptFull := false } := by
    simp [State.ckptGo, hv, hc, State.ckptStart, hn]
  rw [e, State.side_setSide_self]
  exact ⟨rfl, rfl, rfl, State.regs_setSide _ _ _, SideOnly.setSide x _⟩

/-- A write of DMA_CTRL by a permitted access, while the DMA engine is PRESENT. -/
theorem exec_dmaGo {x : Side} {o : Origin} {n : Fin 32} {v : BitVec 32} (h : s.Permits x o (dmaAddr n 0x14) 4 true)
    (hp : s.present (.dma x) = true) :
    exec (.dmaGo x o n v) s = .next ((({ s with resp := .idle } : State).dmaCtrl x n v.toNat).stepDone x o) := by
  have hp' : ({ s with resp := .idle } : State).present (.dma x) = true := hp
  rw [exec_of_permits h rfl, if_pos hp']

/-- Settles O50: each register access is permitted, so that it acts and the step of its core ends; the copy takes two accesses. -/
theorem claimsAndCopies : Obligations.ClaimsAndCopies := by
  unfold Obligations.ClaimsAndCopies
  refine ⟨?_, ?_, ?_, ?_, ?_, ?_⟩
  · intro s x o w hp hnone
    have hclaim : ({ s with resp := .idle } : State).intrClaim x w = { s with resp := .data 0 } := State.intrClaim_none hnone
    have honly : ∀ l, Only l s { s with resp := .data 0 } := fun _ => Only.of_regs rfl
    refine ⟨({ s with resp := .data 0 } : State).stepDone x o, (exec_of_permits hp rfl).trans (by rw [hclaim]),
      State.resp_stepDone x o, (honly _).then_regs (State.stepDone_regs x o), ?_, State.stepDone_memSame x o⟩
    exact State.side_stepDone_of_pending (i := 0) o (State.side_with_resp _ x) (honly _)
  · intro s x o w n hp hsome hn
    obtain ⟨hresp, hbit, hbits, honly, hside, hmem⟩ := State.intrClaim_next (s := { s with resp := .idle }) (x := x) hsome hn
    rw [State.side_with_resp] at hside
    rw [State.intrPresent_with_resp] at hbit
    refine ⟨_, exec_of_permits hp rfl, ?_, ?_, fun i hi hne => ?_, honly.then_regs (State.stepDone_regs x o),
      State.side_stepDone_of_pending o hside honly, hmem.trans (State.stepDone_memSame x o)⟩
    · rwa [State.resp_stepDone]
    · rwa [State.get_stepDone]
    · rw [State.get_stepDone]
      exact hbits i hi hne
  · intro s x o n v hp hpres hgo hidle hmode hlen
    obtain ⟨hbusy, hset, hpos, hqueue, honly, hframe⟩ :=
      State.dmaCtrl_start (s := { s with resp := .idle }) (x := x) (n := n) hgo hidle hmode hlen
    have hmem := hframe.mem
    obtain ⟨-, -, hresp, -⟩ := hframe
    refine ⟨_, exec_dmaGo hp hpres, ?_, ?_, ?_, ?_, ?_, ?_, ?_⟩
    · rwa [State.get_stepDone]
    · rwa [State.get_stepDone]
    · rwa [State.side_stepDone]
    · rwa [State.side_stepDone]
    · exact honly.then_regs (State.stepDone_regs x o)
    · exact hmem.trans (State.stepDone_memSame x o)
    · rwa [State.resp_stepDone]
  · intro s x o n v hp hpres hgo hidle hlen
    obtain ⟨hbusy, herr, hcode, hmem⟩ := State.dmaCtrl_lengthless (s := { s with resp := .idle }) (x := x) (n := n) hgo hidle hlen
    refine ⟨_, exec_dmaGo hp hpres, ?_, ?_, ?_, hmem.trans (State.stepDone_memSame x o)⟩
    · rwa [State.get_stepDone]
    · rwa [State.get_stepDone]
    · rwa [State.get_stepDone]
  · intro s x n a b hbusy hmode hpres hfab hlen hsrc hdst ha hb hasram hbsram hallowa hallowb hlocka hlockb hmir hrangea hrangeb
      hbridge hdata
    have hslot : CopiesSlot s x n a b := ⟨hlen, hsrc, hdst, ha, hb, hasram, hbsram, hbridge⟩
    have hread : DmaPasses s x n a false := ⟨hfab, hbusy, hasram, hallowa, hrangea, hlocka⟩
    have hwrite : DmaPasses s x n b true := ⟨hfab, hbusy, hbsram, hallowb, hrangeb, hlockb⟩
    obtain ⟨t, ht, hload, hidle, hdone, hrest⟩ := hslot.copied hmode hread hwrite hmir hdata 15
    obtain ⟨hl, hs, hd, hdies, hnow⟩ := hrest
    refine ⟨{ t with resp := s.resp }, ?_, hload, hidle, hdone, hl, hs, hd, rfl, hdies, hnow⟩
    rw [hslot.exec_dmaCopyDone hmode hpres hread, ht]
  · intro s x o v hp hv hcross hnone
    obtain ⟨hckpt, hdirty, hfull, hregs, hframe⟩ :=
      State.ckptGo_start (s := { s with resp := .idle }) (x := x) hv hcross (by rwa [State.side_with_resp])
    have hmem := hframe.mem
    obtain ⟨-, -, hresp, -⟩ := hframe
    refine ⟨_, exec_of_permits hp rfl, ?_, ?_, ?_, (Only.of_regs hregs).then_regs (State.stepDone_regs x o),
      hmem.trans (State.stepDone_memSame x o), ?_⟩
    · rwa [State.side_stepDone]
    · rwa [State.side_stepDone]
    · rwa [State.side_stepDone]
    · rwa [State.resp_stepDone]

end Sys2Proof.Machine
end

section
/-! Packets in Chromir: what the taking of the head packet off its queue leaves, and the packets of the SYS class that only answer. -/
namespace Sys2Proof.Machine
open Sys2Proof

variable (s : State) (x : Side) (q : List Job)

/-! ## The head packet off Chromir's queue -/

/-- A side whose long operations move, or stay, is one update of that side. -/
theorem State.longMove_eq : ∃ v, s.longMove x = s.setSide x v := by
  unfold State.longMove
  dsimp only
  split
  · exact ⟨s.side x, by cases x <;> rfl⟩
  · exact ⟨_, rfl⟩

/-- What Chromir's taking of a packet off its queue changes is its side. -/
theorem State.popped_setSide : ∃ v, s.popped x q = s.setSide x v := by
  obtain ⟨v, hv⟩ := State.longMove_eq (s.setSide x { s.side x with chromirQ := q }) x
  refine ⟨v, ?_⟩
  rw [State.popped, hv]
  cases x <;> rfl

@[simp] theorem State.regs_popped : (s.popped x q).regs = s.regs := by
  obtain ⟨v, hv⟩ := s.popped_setSide x q
  simp [hv]

@[simp] theorem State.get_popped (h : Holder) (f : Fld) (i : Nat) : (s.popped x q).get h f i = s.get h f i := by
  simp only [State.get, State.regs_popped]

@[simp] theorem State.now_popped : (s.popped x q).now = s.now := by
  obtain ⟨v, hv⟩ := s.popped_setSide x q
  simp [hv]

@[simp] theorem State.mem_popped : (s.popped x q).mem = s.mem := by
  obtain ⟨v, hv⟩ := s.popped_setSide x q
  simp [hv]

@[simp] theorem State.ember_popped : (s.popped x q).ember = s.ember := by
  obtain ⟨v, hv⟩ := s.popped_setSide x q
  simp [hv]

@[simp] theorem State.flue_popped : (s.popped x q).flue = s.flue := by
  obtain ⟨v, hv⟩ := s.popped_setSide x q
  simp [hv]

@[simp] theorem State.dies_popped : (s.popped x q).dies = s.dies := by
  obtain ⟨v, hv⟩ := s.popped_setSide x q
  simp [hv]

@[simp] theorem State.chans_popped : (s.popped x q).chans = s.chans := by
  obtain ⟨v, hv⟩ := s.popped_setSide x q
  simp [hv]

@[simp] theorem State.present_popped (u : UnitId) : (s.popped x q).present u = s.present u := by
  obtain ⟨v, hv⟩ := s.popped_setSide x q
  simp [hv]

@[simp] theorem State.side_other_popped : (s.popped x q).side x.other = s.side x.other := by
  obtain ⟨v, hv⟩ := s.popped_setSide x q
  simp [hv]

theorem State.popped_memSame : MemSame s (s.popped x q) := fun y a => by simp only [State.byte, State.mem_popped]

variable {s x q}

/-- The side after a packet has left Chromir's queue: its queue and the long operations, nothing else. -/
theorem State.side_popped (h : (s.side x).chromirDown = false) : (s.popped x q).side x = { s.side x with
    chromirQ := q.dropWhile isLong, longQ := (s.side x).longQ ++ q.takeWhile isLong,
    longAt := if (s.side x).longQ = [] then s.now else (s.side x).longAt } := by
  rw [State.popped_eq h, State.side_setSide_self]

theorem State.src_popped (h : (s.side x).chromirDown = false) (i : Nat) : (s.popped x q).src x i = s.src x i := by
  simp only [State.src, State.side_popped h]

/-! ## SYS packets that only answer (R89) -/

/-- The image of Chromir in use does not hang on the packets that wait. -/
theorem State.chromirBuild_popped (h : (s.side x).chromirDown = false) : (s.popped x q).chromirBuild x = s.chromirBuild x := by
  have hu : (s.popped x q).imageInUse x 0x200 = s.imageInUse x 0x200 := by
    simp only [State.imageInUse, State.side_popped h]
  have hd : ∀ a, (s.popped x q).imgDigest x a = s.imgDigest x a := fun a => by
    simp only [State.imgDigest, State.imgLength, State.loadLE, State.load, State.byte, State.mem_popped]
  simp only [State.chromirBuild, hu, hd]

@[simp] theorem State.holds_popped (y : Side) (t : Nat) : (s.popped x q).holds y t = s.holds y t := by
  simp only [State.holds, State.tokHolder, State.get_popped]

@[simp] theorem State.heldOf_popped (y : Side) (m : Nat) : (s.popped x q).heldOf y m = s.heldOf y m := by
  simp only [State.heldOf, State.holds_popped]

theorem State.infoWords_popped (h : (s.side x).chromirDown = false) : (s.popped x q).infoWords x = s.infoWords x := by
  simp only [State.infoWords, State.chromirBuild_popped h, State.get_popped, State.heldOf_popped, State.holds_popped,
    State.side_popped h]

/-- Settles O7: each of the four packets answers its words from parts of the state that its leaving the queue does not touch. -/
theorem sysQueries : Obligations.SysQueries := by
  unfold Obligations.SysQueries
  refine ⟨fun s x j q h => ?_, fun s x j q h => ?_, fun s x j q h => ?_, fun s x j q h => ?_⟩
  · exact answers_of h (by decide) rfl rfl
  · exact answers_of h (by decide) rfl rfl
  · obtain ⟨-, hdown, -⟩ := id h
    refine answers_of h (by decide) rfl ?_
    rw [State.infoWords_popped hdown]
    rfl
  · refine answers_of h (by decide) rfl ?_
    simp only [State.powerState, State.get_popped, State.now_popped, State.ember_popped]
    congr 2
    ring_nf

end Sys2Proof.Machine
end

section
/-! The Stoke port: what shifts out of it, what a finding and the end of a transaction leave, and the transactions of chapter 03 R102 to
R109. -/
namespace Sys2Proof.Machine
open Sys2Proof

variable {s t u : State} {x : Side}

/-! ## Words shifted out -/

/-- `t` is `s` but for what side `x` has shifted out of its Stoke port: no register field, no other part of the state, and of the port
neither its status nor what it has received. -/
structure ShiftedOut (x : Side) (s t : State) : Prop where
  regs : t.regs = s.regs
  only : SideOnly x s t
  status : (t.side x).stokeStatus = (s.side x).stokeStatus
  rest : (t.src x 32) = { s.src x 32 with rpl := (t.src x 32).rpl }

theorem ShiftedOut.refl (x : Side) (s : State) : ShiftedOut x s s := ⟨rfl, SideOnly.refl x s, rfl, rfl⟩

theorem ShiftedOut.trans (h : ShiftedOut x s t) (k : ShiftedOut x t u) : ShiftedOut x s u :=
  ⟨k.regs.trans h.regs, h.only.trans k.only, k.status.trans h.status, by rw [k.rest, h.rest]⟩

theorem ShiftedOut.setSide {v : SideSt} (hstatus : v.stokeStatus = (s.side x).stokeStatus) (hsrcs : v.srcs = (s.side x).srcs) :
    ShiftedOut x s (s.setSide x v) :=
  ⟨State.regs_setSide _ _ _, SideOnly.setSide _ _, by simpa using hstatus, by simp [State.src, hsrcs]⟩

theorem ShiftedOut.setSrc {r : Src} (h : r = { s.src x 32 with rpl := r.rpl }) : ShiftedOut x s (s.setSrc x 32 r) :=
  ⟨by simp, SideOnly.setSide _ _, by simp [State.setSrc], by simpa using h⟩

theorem State.stokeShift_shiftedOut (s : State) (x : Side) : ShiftedOut x s (s.stokeShift x) := by
  unfold State.stokeShift
  dsimp only
  split
  · exact ShiftedOut.setSide rfl rfl
  · refine (ShiftedOut.setSide ?_ ?_).trans (ShiftedOut.setSrc ?_)
    · rfl
    · rfl
    · simp [State.src]

theorem State.stokeShifts_shiftedOut (x : Side) : ∀ (n : Nat) (s : State), ShiftedOut x s (iter (fun s => s.stokeShift x) n s)
  | 0, s => ShiftedOut.refl x s
  | n + 1, s => (s.stokeShift_shiftedOut x).trans (State.stokeShifts_shiftedOut x n (s.stokeShift x))

theorem State.stokeOut_shiftedOut (s : State) (x : Side) (n live : Nat) : ShiftedOut x s (s.stokeOut x n live) :=
  (State.stokeShifts_shiftedOut x _ s).trans (ShiftedOut.setSide rfl rfl)

theorem ShiftedOut.get (h : ShiftedOut x s t) (k : Holder) (f : Fld) (i : Nat) : t.get k f i = s.get k f i := by
  simp only [State.get, h.regs]

theorem ShiftedOut.cmd (h : ShiftedOut x s t) : (t.src x 32).cmd = (s.src x 32).cmd := by rw [h.rest]

theorem State.credits_of_src {i : Nat} (ha : (t.src x i).asm = (s.src x i).asm) (hc : (t.src x i).cmd = (s.src x i).cmd) :
    t.credits x i = s.credits x i := by
  simp only [State.credits, ha, hc]

theorem ShiftedOut.credits (h : ShiftedOut x s t) : t.credits x 32 = s.credits x 32 :=
  State.credits_of_src (by rw [h.rest]) h.cmd

/-! ## Findings and the end of a transaction (R104, R106 to R109) -/

/-- The register fields that a finding writes. -/
def findingFields (x : Side) (flag count : Fld) : List Spot := [(.side x, flag, 0), (.side x, count, 0), (.side x, F.INTR_PENDING, 2)]

theorem State.stokeFlag_only (s : State) (x : Side) (flag count : Fld) : Only (findingFields x flag count) s (s.stokeFlag x flag count) :=
  ((Only.set (by simp [findingFields])).then_set (by simp [findingFields])).trans (Only.intr (n := 84) (by simp [findingFields]))

theorem State.stokeFlag_sideOnly (s : State) (x : Side) (flag count : Fld) : SideOnly x s (s.stokeFlag x flag count) :=
  ((SideOnly.set _ _ _ _ _).trans (SideOnly.set _ _ _ _ _)).trans (SideOnly.intr _ _ _)

@[simp] theorem State.side_stokeFlag (s : State) (x : Side) (flag count : Fld) : (s.stokeFlag x flag count).side x = s.side x := by
  simp [State.stokeFlag, State.inc, State.add]

/-- A finding sets its flag, counts one and latches source 84: of two fields of other registers than the router's. -/
theorem State.stokeFlag_finding (s : State) (x : Side) {flag count : Fld} (hw : flag.width = 1) (hf : flag.reg = 32)
    (hc : count.reg ≠ 32) (hi : count.reg ≠ F.INTR_PENDING.reg) :
    (s.stokeFlag x flag count).get (.side x) flag 0 = 1 ∧
    (s.stokeFlag x flag count).get (.side x) count 0 = (s.get (.side x) count 0 + 1) % 2 ^ count.width ∧
    ((s.stokeFlag x flag count).get (.side x) F.INTR_PENDING 2).testBit 20 = true := by
  have hrouter : ∀ (v : State) (f : Fld), f.reg ≠ F.INTR_PENDING.reg → (v.intr x 84).get (.side x) f 0 = v.get (.side x) f 0 :=
    fun v f h => (Only.intr (l := [(.side x, F.INTR_PENDING, 2)]) (n := 84) (by simp)).get_fld (by simpa using Or.inl h)
  refine ⟨?_, ?_, State.pending_intr x 84 (by decide)⟩
  · rw [State.stokeFlag, hrouter _ _ (by rw [hf]; decide), State.inc, State.add,
      State.get_set_fld _ _ _ _ _ _ _ _ (Or.inl (by omega)), State.get_set_self, hw]
    rfl
  · rw [State.stokeFlag, hrouter _ _ hi, State.inc, State.add, State.get_set_self,
      State.get_set_fld _ _ _ _ _ _ _ _ (Or.inl (by omega))]

theorem State.stokeEnd_only (s : State) (x : Side) (st re : Nat) : Only [(.side x, F.STOKE_STATUS_LAST, 0)] s (s.stokeEnd x st re) :=
  (Only.of_regs (State.regs_setSide _ _ _)).then_set (by simp)

theorem State.stokeEnd_sideOnly (s : State) (x : Side) (st re : Nat) : SideOnly x s (s.stokeEnd x st re) :=
  (SideOnly.setSide _ _).trans (SideOnly.set _ _ _ _ _)

@[simp] theorem State.side_stokeEnd (s : State) (x : Side) (st re : Nat) :
    (s.stokeEnd x st re).side x = { s.side x with stokeStatus := st, stokeReason := re } := by
  simp [State.stokeEnd]

@[simp] theorem State.src_stokeEnd (s : State) (x : Side) (st re i : Nat) : (s.stokeEnd x st re).src x i = s.src x i := by
  simp [State.src]

@[simp] theorem State.src_stokeFlag (s : State) (x : Side) (flag count : Fld) (i : Nat) :
    (s.stokeFlag x flag count).src x i = s.src x i := by
  simp [State.src]

/-- LAST shows the status of a transaction that has ended. -/
theorem State.last_stokeEnd (s : State) (x : Side) {st : Nat} (re : Nat) (h : st < 256) :
    (s.stokeEnd x st re).get (.side x) F.STOKE_STATUS_LAST 0 = st := by
  rw [State.stokeEnd, State.get_set_self]
  exact Nat.mod_eq_of_lt h

/-- A field other than LAST reads as before at the end of a transaction. -/
theorem State.get_stokeEnd (s : State) (x : Side) (st re : Nat) {f : Fld} (hf : f.reg ≠ 32 ∨ f.lo ≠ 0) (i : Nat) :
    (s.stokeEnd x st re).get (.side x) f i = s.get (.side x) f i :=
  (s.stokeEnd_only x st re).get_fld (by intro p hp; rw [List.mem_singleton.mp hp]; exact hf)

theorem State.credits_le (s : State) (x : Side) (i : Nat) : s.credits x i ≤ 64 := by
  unfold State.credits
  dsimp only
  omega

/-- The next status word: STATUS in its bits 35:28, REASON in bits 11:7 (R104). -/
theorem State.stokeWord_status (h : (t.side x).stokeStatus < 256) (hr : (t.side x).stokeReason < 32) :
    bits (t.stokeWord x) 35 28 = (t.side x).stokeStatus ∧ bits (t.stokeWord x) 11 7 = (t.side x).stokeReason := by
  have hc := t.credits_le x 32
  simp only [bits, State.stokeWord, Nat.shiftRight_eq_div_pow]
  omega

/-! ## Transactions -/

/-- The whole words of a transaction that begins with a header judged at the rise of CS_N: what shifted out, then the judgement. -/
theorem exec_stokeCsRise (l : List Word40) (e : Fin 40) (ha : s.is (.side x) F.STOKE_STATUS_ACTIVE 0 = true)
    (hsdo : (s.side x).sdo ≠ []) : ∃ t, ShiftedOut x (s.set (.side x) F.STOKE_STATUS_ACTIVE 0 0) t ∧
      exec (.stokeCsRise x l e) s = .next (t.stokeJudge x (l.map (fun w => w.toNat)) e) := by
  have hopen : ((s.set (.side x) F.STOKE_STATUS_ACTIVE 0 0).side x).sdo ≠ [] := by rwa [State.side_set]
  exact ⟨_, State.stokeOut_shiftedOut _ _ _ _, by
    change execStokeCsRise x l e s = _
    unfold execStokeCsRise
    dsimp only
    rw [if_neg (by simp [ha]), if_neg hopen]
    rfl⟩

/-- A transaction of whole words that ends before its packet is complete (R108). -/
theorem State.stokeJudge_underrun {ws : List Nat} (hw : ws.headD idleWord ≠ idleWord)
    (hlen : ws.length < hdrCount (ws.headD idleWord) + 1) : s.stokeJudge x ws 0 =
    (s.stokeFlag x F.STOKE_STATUS_UNDERRUN F.STOKE_UNDERRUN_COUNT).stokeEnd x stUnderrun 0 := by
  unfold State.stokeJudge
  dsimp only
  rw [if_neg (by simp), if_neg hw, if_pos hlen]

/-- A transaction of whole words that holds a complete packet (R103). -/
theorem State.stokeJudge_packet {ws : List Nat} (hw : ws.headD idleWord ≠ idleWord)
    (hlen : hdrCount (ws.headD idleWord) + 1 ≤ ws.length) : s.stokeJudge x ws 0 =
    s.stokePacket x (hdrCount (ws.headD idleWord) + 1) ws := by
  unfold State.stokeJudge
  dsimp only
  rw [if_neg (by simp), if_neg hw, if_neg (by omega)]

/-- Surplus words behind a packet, counted (R107). -/
def State.stokeSurplus (s : State) (x : Side) (n : Nat) : State :=
  if n = 0 then s
  else (s.stokeFlag x F.STOKE_STATUS_OVERRUN F.STOKE_OVERRUN_COUNT).add (.side x) F.STOKE_OVERRUN_BITS 0 (40 * n)

@[simp] theorem State.side_stokeSurplus (s : State) (x : Side) (n : Nat) : (s.stokeSurplus x n).side x = s.side x := by
  unfold State.stokeSurplus
  split <;> simp [State.add]

@[simp] theorem State.src_stokeSurplus (s : State) (x : Side) (n i : Nat) : (s.stokeSurplus x n).src x i = s.src x i := by
  simp [State.src]

theorem State.stokeSurplus_sideOnly (s : State) (x : Side) (n : Nat) : SideOnly x s (s.stokeSurplus x n) := by
  unfold State.stokeSurplus
  split
  · exact SideOnly.refl x s
  · exact (s.stokeFlag_sideOnly x _ _).trans (SideOnly.set _ _ _ _ _)

theorem State.stokeSurplus_only (s : State) (x : Side) (n : Nat) :
    Only ((.side x, F.STOKE_OVERRUN_BITS, 0) :: findingFields x F.STOKE_STATUS_OVERRUN F.STOKE_OVERRUN_COUNT) s (s.stokeSurplus x n) := by
  unfold State.stokeSurplus
  split
  · exact Only.refl _ s
  · exact ((s.stokeFlag_only x _ _).mono fun p hp => List.mem_cons_of_mem _ hp).then_set (by simp)

/-- A packet longer than the free words of the receive FIFO (R109). -/
theorem State.stokePacket_full {n : Nat} {ws : List Nat} (h : s.credits x 32 < n) : s.stokePacket x n ws =
    ((s.stokeSurplus x (ws.length - n)).stokeFlag x F.STOKE_STATUS_FULL F.STOKE_FULL_COUNT).stokeEnd x stOverrun 1 := by
  have hc : (s.stokeSurplus x (ws.length - n)).credits x 32 < n := by
    rwa [State.credits_of_src (s := s)] <;> simp
  exact if_pos hc

/-! ## The statements -/

/-- What the rise of CS_N leaves of memory, the dies and time, when the judgement after the words have shifted out leads to `u`. -/
theorem ShiftedOut.keeps (h : ShiftedOut x (s.set (.side x) F.STOKE_STATUS_ACTIVE 0 0) t) (k : SideOnly x t u) :
    MemSame s u ∧ u.dies = s.dies ∧ u.now = s.now := by
  have hs := ((SideOnly.set x (.side x) F.STOKE_STATUS_ACTIVE 0 0).trans h.only).trans k
  obtain ⟨hnow, -, -, -, -, -, -, hdies, -⟩ := id hs
  exact ⟨hs.mem, hdies, hnow⟩

/-- A field other than ACTIVE reads, after the words have shifted out, as before the rise of CS_N. -/
theorem ShiftedOut.get_of_rise (h : ShiftedOut x (s.set (.side x) F.STOKE_STATUS_ACTIVE 0 0) t) {f : Fld} (hf : f.reg ≠ 32) :
    t.get (.side x) f 0 = s.get (.side x) f 0 := by
  rw [h.get, State.get_set_fld _ _ _ _ _ _ _ _ (Or.inl hf)]

theorem ShiftedOut.cmd_of_rise (h : ShiftedOut x (s.set (.side x) F.STOKE_STATUS_ACTIVE 0 0) t) :
    (t.src x 32).cmd = (s.src x 32).cmd := by rw [h.cmd, State.src_set]

theorem ShiftedOut.credits_of_rise (h : ShiftedOut x (s.set (.side x) F.STOKE_STATUS_ACTIVE 0 0) t) :
    t.credits x 32 = s.credits x 32 := by
  rw [h.credits, State.credits_of_src (s := s)] <;> simp

/-- Settles O56: the judgement is that of R108 and touches nothing that the port has received. -/
theorem stokeUnderrun : Obligations.StokeUnderrun := by
  unfold Obligations.StokeUnderrun
  intro s x l e w ha hsdo he hl hw hlen
  obtain ⟨t, ht, hexec⟩ := exec_stokeCsRise l e ha hsdo
  rw [he, hl, State.stokeJudge_underrun hw hlen] at hexec
  obtain ⟨hflag, hcount, hsrc⟩ := t.stokeFlag_finding x (flag := F.STOKE_STATUS_UNDERRUN) (count := F.STOKE_UNDERRUN_COUNT)
    (by decide) (by decide) (by decide) (by decide)
  obtain ⟨hmem, hdies, -⟩ := ht.keeps ((t.stokeFlag_sideOnly x _ _).trans (State.stokeEnd_sideOnly _ x stUnderrun 0))
  refine ⟨_, hexec, ?_, ?_, ?_, ?_, ?_, State.last_stokeEnd _ x 0 (by decide), hmem, hdies⟩
  · rw [State.src_stokeEnd, State.src_stokeFlag, ht.cmd_of_rise]
  · rw [State.get_stokeEnd _ _ _ _ (by decide), hflag]
  · rw [State.get_stokeEnd _ _ _ _ (by decide), hcount, ht.get_of_rise (by decide)]
  · rw [State.get_stokeEnd _ _ _ _ (by decide)]
    exact hsrc
  · rw [(State.stokeWord_status (by simp [stUnderrun]) (by simp)).1]
    simp

/-- Settles O57: surplus words or not, a packet beyond the credits is discarded as R109 says. -/
theorem stokeFull : Obligations.StokeFull := by
  unfold Obligations.StokeFull
  intro s x l e w ha hsdo he hl hw hlen hfull
  obtain ⟨t, ht, hexec⟩ := exec_stokeCsRise l e ha hsdo
  rw [he, hl, State.stokeJudge_packet hw hlen, State.stokePacket_full (by rw [ht.credits_of_rise]; exact hfull)] at hexec
  generalize hu : t.stokeSurplus x (w.length - (hdrCount (w.headD idleWord) + 1)) = u at hexec
  have honly := hu ▸ t.stokeSurplus_only x (w.length - (hdrCount (w.headD idleWord) + 1))
  have hsrcu : u.src x 32 = t.src x 32 := hu ▸ t.src_stokeSurplus x _ 32
  obtain ⟨hflag, hcount, hsrc⟩ := u.stokeFlag_finding x (flag := F.STOKE_STATUS_FULL) (count := F.STOKE_FULL_COUNT)
    (by decide) (by decide) (by decide) (by decide)
  obtain ⟨hmem, hdies, -⟩ := ht.keeps
    (((hu ▸ t.stokeSurplus_sideOnly x _).trans (u.stokeFlag_sideOnly x _ _)).trans (State.stokeEnd_sideOnly _ x stOverrun 1))
  obtain ⟨hstatus, hreason⟩ := State.stokeWord_status (x := x)
    (t := (u.stokeFlag x F.STOKE_STATUS_FULL F.STOKE_FULL_COUNT).stokeEnd x stOverrun 1) (by simp [stOverrun]) (by simp)
  refine ⟨_, hexec, ?_, ?_, ?_, ?_, ?_, ?_, hmem, hdies⟩
  · rw [State.src_stokeEnd, State.src_stokeFlag, hsrcu, ht.cmd_of_rise]
  · rw [State.get_stokeEnd _ _ _ _ (by decide), hflag]
  · rw [State.get_stokeEnd _ _ _ _ (by decide), hcount, honly.get_fld (by simp [findingFields]; decide), ht.get_of_rise (by decide)]
  · rw [State.get_stokeEnd _ _ _ _ (by decide)]
    exact hsrc
  · rw [hstatus]
    simp
  · rw [hreason]
    simp

/-- The fall of CS_N at an idle port: what shifts out in the status word's place, `sdo`. -/
theorem exec_stokeCsFall {sdo : List Nat} (ha : s.is (.side x) F.STOKE_STATUS_ACTIVE 0 = false)
    (hsdo : (if s.fabric x ∧ s.is (.side x) F.STOKE_CFG_ENABLE 0 then [s.stokeWord x] else []) = sdo) :
    ∃ v, exec (.stokeCsFall x) s = .next ((s.setSide x v).set (.side x) F.STOKE_STATUS_ACTIVE 0 1) ∧ v.sdo = sdo ∧
      v.stokeStatus = if sdo = [] then (s.side x).stokeStatus else stOk := by
  refine ⟨{ s.side x with
    sdo := sdo, stokeStatus := if sdo = [] then (s.side x).stokeStatus else stOk
    stokeReason := if sdo = [] then (s.side x).stokeReason else 0 }, ?_, rfl, rfl⟩
  change execStokeCsFall x s = _
  unfold execStokeCsFall
  dsimp only
  rw [if_neg (by simp [ha]), hsdo]
  rfl

/-- Side A while it waits for its clock (R143 step 3): it is not without power, but its fabric is still in reset; its Stoke port is enabled. -/
def clockingPort : State :=
  (State.reset.setSide .a { SideSt.init with run := .clocking }).set (.side .a) F.STOKE_CFG_ENABLE 0 1

theorem clockingPort_run : (clockingPort.side .a).run = .clocking := by
  rw [clockingPort, State.side_set, State.side_setSide_self]

theorem clockingPort_fields :
    clockingPort.is (.side .a) F.STOKE_STATUS_ACTIVE 0 = false ∧ clockingPort.is (.side .a) F.STOKE_CFG_ENABLE 0 = true := by
  constructor
  · rw [State.is, clockingPort, State.get_set_fld _ _ _ _ _ _ _ _ (by decide), State.get_setSide]
    decide
  · rw [State.is, clockingPort, State.get_set_self]
    decide

/-- Refutes O49: its first clause asks the status word of a side whose `run` is not `down`, but a side that waits for its clock, `clocking`,
is in reset too, and leaves SDO high-impedance (R102). -/
theorem not_stokePort : ¬ Obligations.StokePort := by
  unfold Obligations.StokePort
  rintro ⟨hfall, -⟩
  obtain ⟨hactive, hen⟩ := clockingPort_fields
  obtain ⟨t, hexec, hsdo, -⟩ := hfall clockingPort .a (by rw [clockingPort_run]; decide) hactive hen
  have hfab : clockingPort.fabric .a = false := by
    rw [State.fabric, clockingPort_run]
    decide
  obtain ⟨v, hexec', hnone, -⟩ := exec_stokeCsFall (x := .a) hactive (if_neg (by simp [hfab]))
  obtain rfl := Host.Outcome.next.inj (hexec.symm.trans hexec')
  rw [State.side_set, State.side_setSide_self, hnone] at hsdo
  exact absurd hsdo (by simp)

end Sys2Proof.Machine
end

section
/-! A CH_GROUP_SET on a channel whose priority field holds more than its two bits. -/
namespace Sys2Proof.Machine
open Sys2Proof

/-- A CH_GROUP_SET of world 0 that turns off channel 0 of grate die 0. -/
def groupOffJob : Job := ⟨.a, 2, 7, 0, ⟨0x206, 5, 0, 0, [1, 0], false⟩⟩

/-- Side A holds the token of grate die 0, and its link brings that packet to the die. -/
def groupOffState : State :=
  ({ State.reset with absent := [] }.set (.grate 0) F.GRATE_TOKEN_HOLDER 0 0).setSide .a { SideSt.init with links := [(0, [groupOffJob])] }

/-- The same with 4 in the table where the two-bit priority of channel 0 stands. No write of the field leaves this there (`State.set` cuts to
the width), but the statement speaks of every state, and not even `State.Sound` bounds what a field holds. -/
def groupOffWide : State :=
  { groupOffState with regs := Tab.set FKey.rst FKey.code groupOffState.regs (F.DMP_CH_CFG_PRIO.key (.grate 0) 0) 4 }

/-- The die judges its channels by the priorities 0 to 3 (`State.groupOrder`), so it passes over channel 0, whose bit is in no mask. -/
theorem groupOffWide_backward : (outState groupOffWide (exec (.chGroupSet .a 0) groupOffWide)).backward .a 0 =
    [⟨groupOffJob, stPartial, 0, [0, 0, 0, 0]⟩] := by decide +kernel

/-- Nothing was on its way back before. -/
theorem groupOffWide_backward_before : groupOffWide.backward .a 0 = [] := by decide +kernel

/-- The packet meets what the statement asks of one that turns off channels of its world. -/
theorem groupOffWide_turnsOff : groupOffWide.LinkHead .a 0 0x206 groupOffJob [] ∧ groupOffWide.Master .a 0 ∧
    groupOffWide.groupDenied 0 1 0 = 0 ∧
    ∀ n : Nat, n < 16 → (groupOffWide.chan (16 * 0 + n)).hold = none ∧ groupOffWide.isSafety (16 * 0 + n) = false := by decide +kernel

/-- Refutes O16: a state in which the priority of a selected channel is not one of its two bits' values meets the premises of the second
clause, and the die answers PARTIAL with no channel in APPLIED where the clause says OK with channel 0. -/
theorem not_channelQueryAndGroups : ¬ Obligations.ChannelQueryAndGroups := by
  unfold Obligations.ChannelQueryAndGroups
  rintro ⟨-, hoff, -⟩
  obtain ⟨hlink, hmaster, hdenied, hchans⟩ := groupOffWide_turnsOff
  obtain ⟨t, hexec, ⟨hback, -⟩, -⟩ := hoff groupOffWide .a 0 groupOffJob [] 1 hlink rfl hmaster rfl hdenied hchans
  have hpartial := groupOffWide_backward
  rw [hexec] at hpartial
  have hok : [_] = groupOffWide.backward .a 0 ++ [⟨groupOffJob, stOk, 0, _⟩] := hpartial.symm.trans hback
  rw [groupOffWide_backward_before] at hok
  exact absurd hok (by decide)

end Sys2Proof.Machine
end

section
/-! What the delivery of a reply leaves, whatever became of the packet's tag (R65, R74, R77, R86, R282), and the instant of a TIMEOUT. -/
namespace Sys2Proof.Machine
open Sys2Proof

variable {s t u : State} {x : Side}

/-! ## What a part of a side's work leaves -/

/-- `t` is `s` but for side `x` outside what `keep` shows of it and the registers `regs`. -/
structure Touches (regs : List Nat) (keep : SideSt → SideSt) (x : Side) (s t : State) : Prop where
  get : ∀ h f i, f.reg ∉ regs → t.get h f i = s.get h f i
  rest : SideOnly x s t
  side : keep (t.side x) = keep (s.side x)

section Touches

variable {regs : List Nat} {keep : SideSt → SideSt}

theorem Touches.refl (x : Side) (s : State) : Touches regs keep x s s := ⟨fun _ _ _ _ => rfl, SideOnly.refl x s, rfl⟩

theorem Touches.trans (h : Touches regs keep x s t) (k : Touches regs keep x t u) : Touches regs keep x s u :=
  ⟨fun a f i hf => (k.get a f i hf).trans (h.get a f i hf), h.rest.trans k.rest, k.side.trans h.side⟩

theorem Touches.setSide {v : SideSt} (h : keep v = keep (s.side x)) : Touches regs keep x s (s.setSide x v) :=
  ⟨fun _ _ _ _ => State.get_setSide _ _ _ _ _ _, SideOnly.setSide _ _, by rwa [State.side_setSide_self]⟩

theorem Touches.set {h : Holder} {f : Fld} {i v : Nat} (hf : f.reg ∈ regs) : Touches regs keep x s (s.set h f i v) :=
  ⟨fun _ g _ hg => State.get_set_fld _ _ _ _ _ _ _ _ (Or.inl fun e => hg (e ▸ hf)), SideOnly.set _ _ _ _ _, by rw [State.side_set]⟩

theorem Touches.intr (hf : F.INTR_PENDING.reg ∈ regs) (n : Nat) : Touches regs keep x s (s.intr x n) := by
  unfold State.intr
  split
  · exact Touches.set hf
  · exact Touches.refl x s

end Touches

/-! ## Replies to any packet -/

/-- What the delivery of a reply leaves of its side: all but the sources, the reply copies of the safety pair and the packets answered
TIMEOUT. -/
def SideSt.beyondReplies (v : SideSt) : SideSt := { v with srcs := [], pair0 := PairCore.empty, pair1 := PairCore.empty, timedOut := [] }

/-- `t` is `s` but for replies delivered on side `x`, which may write the router's pending bits and the counts of discarded replies. -/
abbrev Delivered (x : Side) (s t : State) : Prop :=
  Touches [F.INTR_PENDING.reg, F.FAB_REPLY_DISCARD.reg, F.DOOR_DISCARD_COUNT.reg] SideSt.beyondReplies x s t

theorem Delivered.setSrc (s : State) (x : Side) (i : Nat) (r : Src) : Delivered x s (s.setSrc x i r) := Touches.setSide rfl

theorem State.pairPull1_delivered (s : State) (x : Side) : Delivered x s (s.pairPull1 x) := by
  unfold State.pairPull1
  dsimp only
  split
  · exact Touches.refl x s
  · split
    · exact Touches.refl x s
    · split
      · exact Touches.refl x s
      · exact (Delivered.setSrc _ _ _ _).trans (Touches.setSide rfl)

theorem State.pairPulls_delivered (x : Side) : ∀ (n : Nat) (s : State), Delivered x s (iter (fun s => s.pairPull1 x) n s)
  | 0, s => Touches.refl x s
  | n + 1, s => (s.pairPull1_delivered x).trans (State.pairPulls_delivered x n (s.pairPull1 x))

theorem State.latched_delivered (s : State) (x : Side) (i : Nat) : Delivered x s (if i < 32 then s.intr x i else s) := by
  split
  · exact Touches.intr (by decide) i
  · exact Touches.refl x s

theorem State.pulled_delivered (s : State) (x : Side) (i : Nat) :
    Delivered x s (if s.pairDoor x = some i then s.pairPull x else s) := by
  split
  · exact State.pairPulls_delivered x 64 s
  · exact Touches.refl x s

theorem State.enqueue_delivered (s : State) (x : Side) (i : Nat) (ws : List Nat) : Delivered x s (s.enqueue x i ws) :=
  ((Delivered.setSrc s x i { s.src x i with rpl := (s.src x i).rpl ++ ws }).trans (State.latched_delivered _ x i)).trans
    (State.pulled_delivered _ x i)

theorem State.deliver_delivered (s : State) (r : Reply) : Delivered r.job.side s (s.deliver r) := by
  rw [State.deliver]
  dsimp only
  split
  · exact (Delivered.setSrc s r.job.side r.job.src _).trans (State.enqueue_delivered _ _ _ _)
  · split
    · split
      · exact Touches.refl _ s
      · exact Touches.setSide rfl
    · split
      · exact Touches.set (by decide)
      · split
        · exact Touches.set (by decide)
        · exact Touches.refl _ s

theorem State.answer_delivered (s : State) (j : Job) (status detail : Nat) (words : List Nat) :
    Delivered j.side s (s.answer j status detail words) := s.deliver_delivered ⟨j, status, detail, words⟩

/-! ## Fast packets without a reply (R86) -/

@[simp] theorem State.now_timeOut (s : State) (j : Job) : (s.timeOut j).now = s.now := by
  obtain ⟨hnow, -⟩ := ((s.inc (.side j.side) F.STOKER_TIMEOUT_COUNT 0).answer_delivered j stTimeout 0 []).rest
  rw [State.timeOut, State.now_setSide, hnow]
  exact State.now_set _ _ _ _ _

@[simp] theorem State.now_log (s : State) (x : Side) (code prod : Nat) (args : List Arg) : (s.log x code prod args).now = s.now :=
  (s.log_logOnly x code prod args).2.1

/-- The jobs on side `x`'s link to die `d` that wait for a reply, first those whose reply is on its way back. -/
def State.unansweredFast (s : State) (x : Side) (d : Nat) : List Job :=
  let late (j : Job) : Bool := (s.src x j.src).out.any (fun t => t.seq == j.seq && t.room == reserveOf j.pkt.code)
  ((Tab.at [] (s.side x).rpls d ++ Tab.at [] (s.die d).out x.num).map (fun r => r.job)).filter late ++
    (Tab.at [] (s.side x).links d).filter late

/-- GRATE_TIMEOUT happens 20 us after the first of them was taken. -/
theorem exec_grateTimeout_now {d : Fin 4} {j : Job} {l : List Job} (h : s.unansweredFast x d = j :: l)
    (hexec : exec (.grateTimeout x d) s = .next t) : t.now = max s.now (j.takenAt + 20000) := by
  have hhead : (s.unansweredFast x d).head? = some j := by rw [h]; rfl
  change execGrateTimeout x d s = _ at hexec
  unfold execGrateTimeout at hexec
  unfold State.unansweredFast at hhead
  dsimp only at hexec hhead
  rw [hhead] at hexec
  obtain rfl := Host.Outcome.next.inj hexec
  dsimp only
  rw [State.now_timeOut, State.now_log]
  split <;> simp

end Sys2Proof.Machine
end

section
/-! Two fast packets to one grate die, taken from two sources: the bound of the one that the die has answered passes first. -/
namespace Sys2Proof.Machine
open Sys2Proof

/-- A fast packet from door 3 of side A, taken at 500 us. Its reply waits at grate die 0. -/
def earlierFast : Job := ⟨.a, 3, 0, 500000, ⟨0x205, 1, 0, 0, [0], false⟩⟩

/-- A fast packet from door 2 of side A, taken at 700 us and still on the link of grate die 0. -/
def laterFast : Job := ⟨.a, 2, 1, 700000, ⟨0x205, 2, 0, 0, [0], false⟩⟩

/-- The outstanding tag of a packet. -/
def Job.outTag (j : Job) : OutTag := ⟨j.pkt.tag, j.seq, reserveOf j.pkt.code, j.pkt.world⟩

/-- Side A with the later packet on its link to grate die 0, both tags outstanding, and the die with the reply to the earlier one. -/
def twoFastState : State :=
  (((State.reset.setSide .a { SideSt.init with links := [(0, [laterFast])] }).setSrc .a 3
    { Src.empty with out := [earlierFast.outTag] }).setSrc .a 2 { Src.empty with out := [laterFast.outTag] }).setDie 0
      { DieSt.init with out := [(0, [⟨earlierFast, stOk, 0, []⟩])] }

theorem twoFastState_unanswered : twoFastState.unansweredFast .a 0 = [earlierFast, laterFast] := by decide +kernel

/-- The later packet meets what the statement asks: alone on the link, no reply received, its tag the one outstanding tag of its source. -/
theorem twoFastState_laterFast : Tab.at [] (twoFastState.side .a).links 0 = [laterFast] ∧ Tab.at [] (twoFastState.side .a).rpls 0 = [] ∧
    (twoFastState.src .a 2).out = [laterFast.outTag] ∧ twoFastState.pairDoor .a ≠ some 2 := by decide +kernel

/-- Refutes O48: the fourth clause names the one packet on the link, but the first bound is that of a packet whose reply is still at the
die, and the clock stands at 520 us, not at 720 us. -/
theorem not_chromirSupervision : ¬ Obligations.ChromirSupervision := by
  unfold Obligations.ChromirSupervision
  rintro ⟨-, -, -, htimeout, -⟩
  obtain ⟨hlink, hrpls, hout, hpair⟩ := twoFastState_laterFast
  obtain ⟨t, hexec, -, hlate, -⟩ := htimeout twoFastState .a 0 laterFast hlink hrpls rfl hout hpair
  have hearly := exec_grateTimeout_now twoFastState_unanswered hexec
  have hzero : twoFastState.now = 0 := by decide +kernel
  rw [hlate, hzero] at hearly
  exact absurd hearly (by decide)

end Sys2Proof.Machine
end

section
/-! What entries of the log and refusals of the ownership checker leave (R426, R428, R456, R483). -/
namespace Sys2Proof.Machine
open Sys2Proof

variable {s t u : State} {x : Side}

/-- What the notes of a refusal leave of its side: all but the log's ring and the security events. -/
def SideSt.beyondNotes (v : SideSt) : SideSt := { v with ash := [], ashRun := [], secEvents := [] }

/-- Registers of the log, of the ownership checker's captured refusal, and the router's pending bits. -/
def noteRegs : List Nat :=
  [F.ASH_SEQ.reg, F.ASH_STATUS_FILL.reg, F.ASH_OVERWRITE_COUNT.reg, F.INTR_PENDING.reg, F.WOT_VIOL_ADDR.reg, F.WOT_VIOL_INFO_KIND.reg,
   F.WOT_STATUS_VIOL.reg, F.WOT_VIOL_COUNT.reg]

/-- `t` is `s` but for entries of side `x`'s log, its security events and its ownership checker's captured refusal. -/
abbrev Noted (x : Side) (s t : State) : Prop := Touches noteRegs SideSt.beyondNotes x s t

theorem State.ashFill_noted (s : State) (x : Side) (old : State) : Noted x s (s.ashFill x old) := by
  unfold State.ashFill
  split
  · exact (Touches.set (by decide)).trans (Touches.intr (by decide) _)
  · exact Touches.refl x s

theorem State.ashPut_noted (s : State) (x : Side) (prod : Nat) (e : LogEntry) : Noted x s (s.ashPut x prod e) := by
  have hput : ∀ v n old, v.beyondNotes = (s.side x).beyondNotes →
      Noted x s (((s.setSide x v).set (.side x) F.ASH_SEQ 0 n).ashFill x old) := fun _ _ _ h =>
    ((Touches.setSide h).trans (Touches.set (by decide))).trans (State.ashFill_noted _ x _)
  unfold State.ashPut
  dsimp only
  split
  · refine (hput _ _ _ ?_).trans ((Touches.set ?_).trans (Touches.set ?_))
    · rfl
    · decide
    · decide
  · exact hput _ _ _ rfl

theorem State.log_noted (s : State) (x : Side) (code prod : Nat) (args : List Arg) : Noted x s (s.log x code prod args) := by
  unfold State.log
  dsimp only
  split
  · exact Touches.refl x s
  · split
    · exact Touches.refl x s
    · exact State.each_keeps (fun _ _ h => h.trans (State.ashPut_noted _ x _ _)) _ (State.ashPut_noted s x _ _)

theorem State.logFault_noted (s : State) (x : Side) (prod cause init world size : Nat) (write : Bool) (addr : Nat) :
    Noted x s (s.logFault x prod cause init world size write addr) := by
  unfold State.logFault
  split
  · exact Touches.refl x s
  · exact s.ashPut_noted x _ _

theorem State.secEvent_noted (s : State) (x : Side) (b : Nat) : Noted x s (s.secEvent x b) := by
  unfold State.secEvent
  split
  · exact Touches.setSide rfl
  · exact Touches.refl x s

theorem State.wotViolation_noted (s : State) (x : Side) (init w k a : Nat) : Noted x s (s.wotViolation x init w k a) := by
  have hset : ∀ (t : State) (f : Fld) (v : Nat), f.reg ∈ noteRegs → Noted x t (t.set (.side x) f 0 v) := fun _ _ _ hf => Touches.set hf
  have hcapture : Noted x s (if s.is (.side x) F.WOT_STATUS_VIOL 0 then s else
      ((((s.set (.side x) F.WOT_VIOL_ADDR 0 a).set (.side x) F.WOT_VIOL_INFO_INITIATOR 0 init).set (.side x) F.WOT_VIOL_INFO_WORLD 0 w).set
        (.side x) F.WOT_VIOL_INFO_KIND 0 k).set (.side x) F.WOT_STATUS_VIOL 0 1) := by
    split
    · exact Touches.refl x s
    · exact ((((hset _ _ _ (by decide)).trans (hset _ _ _ (by decide))).trans (hset _ _ _ (by decide))).trans
        (hset _ _ _ (by decide))).trans (hset _ _ _ (by decide))
  exact ((hcapture.trans (hset _ _ _ (by decide))).trans (Touches.intr (by decide) 93)).trans (State.secEvent_noted _ x 1)

theorem State.rangeRefused_noted (s : State) (x : Side) (k : Packet) : Noted x s (s.rangeRefused x k) := by
  unfold State.rangeRefused
  split
  · split
    · exact (s.logFault_noted x _ _ _ _ _ _ _).trans (State.wotViolation_noted _ x _ _ _ _)
    · exact Touches.refl x s
  · exact Touches.refl x s

end Sys2Proof.Machine
end

section
/-! The Stoker's takes (R67, R75, R80 to R87): the head packet off its FIFO, its refusals, and the replies of a grate die. -/
namespace Sys2Proof.Machine
open Sys2Proof

variable {s t u : State} {x : Side} {i : Nat} {k : Packet} {q : List Packet}

/-! ## The head packet off its FIFO -/

/-- The register fields that the take of a packet from source `i` writes: its STALL and its count of packets taken. -/
def takeSpots (x : Side) (i : Nat) : List Spot := [(.side x, F.DOOR_STATUS_STALL, i), (.side x, F.DOOR_TAKEN_COUNT, i)]

/-- What side `x` holds when the head packet of source `i` has left it. -/
def State.tookHead (s : State) (x : Side) (i : Nat) : SideSt :=
  { s.side x with srcs := Tab.put Src.empty (s.side x).srcs i { s.src x i with cmd := (s.src x i).cmd.drop 1 }, takes := (s.side x).takes + 1 }

/-- With no packet of the safety pair waiting, a take moves one packet. -/
theorem State.takeHead_eq (h : s.pairDoor x ≠ some i ∨ (s.side x).pair0.done = []) :
    s.takeHead x i = if i < 32 then ((s.setSide x (s.tookHead x i)).set (.side x) F.DOOR_STATUS_STALL i 0).inc (.side x) F.DOOR_TAKEN_COUNT i
      else s.setSide x (s.tookHead x i) := by
  have hstay : ∀ v : State, v.pairDoor x = s.pairDoor x → (v.side x).pair0 = (s.side x).pair0 →
      (if v.pairDoor x = some i then v.pairGoOn x else v) = v := by
    intro v hd h0
    split
    · next hv =>
      rcases h with h | h
      · exact absurd (hd.symm.trans hv) h
      · rw [State.pairGoOn, h0, h]
        simp [iter]
    · rfl
  unfold State.takeHead
  dsimp only
  rw [hstay]
  · simp [State.setSrc, State.tookHead]
  · exact State.pairDoor_of_get (by simp) (by simp)
  · simp [State.setSrc]

theorem State.takeHead_takes (h : s.pairDoor x ≠ some i ∨ (s.side x).pair0.done = []) :
    Only (takeSpots x i) s (s.takeHead x i) ∧ SideOnly x s (s.takeHead x i) ∧ (s.takeHead x i).side x = s.tookHead x i := by
  have hset : SideOnly x s (s.setSide x (s.tookHead x i)) := SideOnly.setSide _ _
  have hregs : Only (takeSpots x i) s (s.setSide x (s.tookHead x i)) := Only.of_regs (State.regs_setSide _ _ _)
  rw [State.takeHead_eq h]
  split
  · refine ⟨(hregs.then_set ?_).then_set ?_, (hset.trans (SideOnly.set _ _ _ _ _)).trans (SideOnly.set _ _ _ _ _), ?_⟩
    · simp [takeSpots]
    · simp [takeSpots]
    · simp [State.inc, State.add]
  · exact ⟨hregs, hset, by simp⟩

theorem State.src_takeHead (h : s.pairDoor x ≠ some i ∨ (s.side x).pair0.done = []) :
    (s.takeHead x i).src x i = { s.src x i with cmd := (s.src x i).cmd.drop 1 } := by
  obtain ⟨-, -, hside⟩ := State.takeHead_takes h
  simp [State.src, hside, State.tookHead]

theorem State.judging_takes (h : s.pairDoor x ≠ some i ∨ (s.side x).pair0.done = []) (j : Job) :
    Only (takeSpots x i) s (s.judging x i j) ∧ SideOnly x s (s.judging x i j) ∧
    (s.judging x i j).side x = { s.tookHead x i with srcs := ((s.judging x i j).side x).srcs } ∧
    (s.judging x i j).src x i = { s.src x i with
      cmd := (s.src x i).cmd.drop 1, out := (s.src x i).out ++ [⟨j.pkt.tag, j.seq, reserveOf j.pkt.code, j.pkt.world⟩] } := by
  obtain ⟨honly, hrest, hside⟩ := State.takeHead_takes h
  refine ⟨honly.then_regs (State.regs_setSrc _ _ _ _), hrest.trans (SideOnly.setSide _ _), ?_, ?_⟩
  · simp [State.judging, State.setSrc, hside]
  · rw [State.judging, State.src_setSrc_self, State.src_takeHead h]

/-! ## The round goes on -/

@[simp] theorem State.get_scanOn (s : State) (x : Side) (i : Nat) (h : Holder) (f : Fld) (n : Nat) :
    (s.scanOn x i).get h f n = s.get h f n := State.get_setSide _ _ _ _ _ _

@[simp] theorem State.src_scanOn (s : State) (x : Side) (i n : Nat) : (s.scanOn x i).src x n = s.src x n := by
  simp [State.scanOn, State.src]

theorem State.side_scanOn (s : State) (x : Side) (i : Nat) : (s.scanOn x i).side x =
    { s.side x with scan := (i + 1) % 33, scanIdle := ((s.scanOn x i).side x).scanIdle } := by simp [State.scanOn]

theorem State.scanOn_sideOnly (s : State) (x : Side) (i : Nat) : SideOnly x s (s.scanOn x i) := SideOnly.setSide _ _

/-- The round takes the packet that it reaches. -/
theorem exec_stokerTake_reaches {i : Fin 33} (h : s.Reaches x i k q) :
    exec (.stokerTake x i) s = .next ((s.takePacket x i k).scanOn x i) := by
  obtain ⟨hup, htaking, hcmd, hpass, hstall, hturn, -⟩ := h
  change execStokerTake x i s = _
  simp [execStokerTake, hup, htaking, hcmd, hpass, hstall, hturn, ok]

/-! ## What becomes of a packet taken -/

theorem State.takePacket_free (h : s.Takes x i k q) :
    s.takePacket x i k = (s.takeHead x i).dispatch x i ⟨x, i, (s.side x).takes, s.now, k⟩ := by
  obtain ⟨-, htag, hfree⟩ := h
  simp [State.takePacket, htag, hfree]

theorem State.takePacket_busy (htag : (s.src x i).out.any (fun a => a.tag == k.tag) = true) :
    s.takePacket x i k = (s.takeHead x i).tagBusy x i k := by
  simp only [State.takePacket, htag, Bool.or_true, if_true]

/-- The counter of the path that a packet takes. -/
def pathCount (k : Packet) : Fld := if pathOf k.code == .fast then F.STOKER_FAST_COUNT else F.STOKER_CHROMIR_COUNT

/-- Chromir is there for the packet, or the packet does not need it. -/
def State.pathOpen (s : State) (x : Side) (k : Packet) : Prop := pathOf k.code = .fast ∨ (s.side x).chromirDown = false

/-- The state in which the packet's checks are made: taken, and counted on its path. -/
def State.checking (s : State) (x : Side) (i : Nat) (j : Job) : State := (s.judging x i j).inc (.side x) (pathCount j.pkt) 0

/-- The refusal of a packet by a check, with what it counts and notes (R83, R89, R426). -/
def State.refused (s : State) (x : Side) (j : Job) (status detail : Nat) : State :=
  (if status = stAbsent then s.inc (.side x) F.FAB_PROXY_ABSENT 0 else if status = stParam then s.rangeRefused x j.pkt else s).answer j
    status detail []

theorem State.chromirDown_judging (h : s.Takes x i k q) (j : Job) : ((s.judging x i j).side x).chromirDown = (s.side x).chromirDown := by
  obtain ⟨⟨-, -, -, -, -, -, hpair⟩, -⟩ := h
  obtain ⟨-, -, hside, -⟩ := State.judging_takes hpair j
  exact (congrArg SideSt.chromirDown hside :)

/-- A packet that Chromir is there for is sent on its path, or refused. -/
theorem State.takePacket_open {j : Job} (h : s.Takes x i k q) (hj : j = ⟨x, i, (s.side x).takes, s.now, k⟩) (hopen : s.pathOpen x k) :
    s.takePacket x i k = match (s.checking x i j).refusal x i k with
      | some (status, detail) => (s.checking x i j).refused x j status detail
      | none => (s.checking x i j).send x j := by
  have hdown := State.chromirDown_judging h j
  have hpath : ¬ (¬ (pathOf k.code == .fast) = true ∧ ((s.judging x i j).side x).chromirDown = true) := by
    rw [hdown]
    rcases hopen with hfast | hup
    · simp [hfast]
    · simp [hup]
  rw [State.takePacket_free h, ← hj]
  subst hj
  exact if_neg hpath

/-- A packet for Chromir while Chromir is down. -/
theorem State.takePacket_down {j : Job} (h : s.Takes x i k q) (hj : j = ⟨x, i, (s.side x).takes, s.now, k⟩) (hpath : pathOf k.code ≠ .fast)
    (hdown : (s.side x).chromirDown = true) :
    s.takePacket x i k = ((s.judging x i j).inc (.side x) F.STOKER_BUSY_UPDATE_COUNT 0).answer j stBusy 0 [] := by
  have hbusy : ¬ (pathOf k.code == .fast) = true ∧ ((s.judging x i j).side x).chromirDown = true :=
    ⟨by simpa using hpath, (State.chromirDown_judging h j).trans hdown⟩
  rw [State.takePacket_free h, ← hj]
  subst hj
  exact if_pos hbusy

/-! ## A packet that passes its checks -/

/-- `u` is `s` after the take of packet `j`, which counter `c` counts. -/
structure Taken (c : Fld) (s : State) (x : Side) (i : Nat) (j : Job) (u : State) : Prop where
  only : Only ((.side x, c, 0) :: takeSpots x i) s u
  rest : SideOnly x s u
  side : u.side x = { s.tookHead x i with srcs := (u.side x).srcs }
  src : u.src x i = { s.src x i with
    cmd := (s.src x i).cmd.drop 1, out := (s.src x i).out ++ [⟨j.pkt.tag, j.seq, reserveOf j.pkt.code, j.pkt.world⟩] }
  count : u.get (.side x) c 0 = (s.get (.side x) c 0 + 1) % 2 ^ c.width
  pairDoor : u.pairDoor x = s.pairDoor x

/-- The counters of the paths and of packets answered BUSY_UPDATE. -/
def takeCounts : List Fld := [F.STOKER_FAST_COUNT, F.STOKER_CHROMIR_COUNT, F.STOKER_BUSY_UPDATE_COUNT]

theorem State.judging_taken {c : Fld} (hc : c ∈ takeCounts) (h : s.Takes x i k q) (j : Job) :
    Taken c s x i j ((s.judging x i j).inc (.side x) c 0) := by
  obtain ⟨⟨-, -, -, -, -, -, hpair⟩, -⟩ := h
  obtain ⟨honly, hrest, hside, hsrc⟩ := State.judging_takes hpair j
  have hspots : ∀ p ∈ takeSpots x i, c.reg ≠ p.2.1.reg ∨ c.lo ≠ p.2.1.lo := by
    simp only [takeCounts, List.mem_cons, List.not_mem_nil, or_false] at hc
    rcases hc with rfl | rfl | rfl <;> simp [takeSpots] <;> decide
  have hall : Only ((.side x, c, 0) :: takeSpots x i) s ((s.judging x i j).inc (.side x) c 0) :=
    (honly.mono fun p hp => List.mem_cons_of_mem _ hp).then_set (List.mem_cons_self ..)
  have hdoor : ∀ f ∈ [F.PAIR_CFG_MODE, F.PAIR_CFG_DOOR], ∀ p ∈ (Holder.side x, c, 0) :: takeSpots x i, f.reg ≠ p.2.1.reg ∨ f.lo ≠ p.2.1.lo := by
    simp only [takeCounts, List.mem_cons, List.not_mem_nil, or_false] at hc
    rcases hc with rfl | rfl | rfl <;> simp [takeSpots] <;> decide
  refine ⟨hall, hrest.trans (SideOnly.set _ _ _ _ _), ?_, ?_, ?_, ?_⟩
  · rw [State.side_inc]
    exact hside
  · rw [State.src_inc]
    exact hsrc
  · rw [State.inc, State.add, State.get_set_self, honly.get_fld hspots]
  · exact State.pairDoor_of_get (hall.get_fld (hdoor _ (by simp))) (hall.get_fld (hdoor _ (by simp)))

theorem State.send_chromir {j : Job} (h : pathOf j.pkt.code ≠ .fast) : s.send x j = s.popped x ((s.side x).chromirQ ++ [j]) := by
  unfold State.send
  dsimp only
  split
  · next hfast => exact absurd hfast h
  · rfl

theorem State.send_fast {j : Job} {d : Nat} (h : pathOf j.pkt.code = .fast) (hd : grateDie j.pkt = some d) :
    s.send x j = s.setSide x { s.side x with links := Tab.put [] (s.side x).links d (Tab.at [] (s.side x).links d ++ [j]) } := by
  simp [State.send, h, hd]

/-! ## A packet that is answered at its take -/

theorem State.cmd_enqueue {ws : List Nat} (h : s.pairDoor x ≠ some i) : ((s.enqueue x i ws).src x i).cmd = (s.src x i).cmd := by
  rw [State.enqueue_eq h]
  split <;> simp

theorem State.cmd_answer {j : Job} (h : s.Open j) (status detail : Nat) (words : List Nat) :
    ((s.answer j status detail words).src j.side j.src).cmd = (s.src j.side j.src).cmd := by
  obtain ⟨hout, hdoor⟩ := h
  rw [State.answer, State.deliver]
  simp only [hout, if_true]
  rw [State.cmd_enqueue]
  · simp
  · rwa [State.pairDoor_of_get (s := s) (State.get_setSrc _ _ _ _ _ _ _) (State.get_setSrc _ _ _ _ _ _ _)]

/-- The refusal of an open packet, for another fault than an ABSENT unit. -/
theorem State.refused_open {j : Job} {status detail : Nat} (h : s.Open j) (hx : j.side = x) (habsent : status ≠ stAbsent)
    (hdelayed : status ≠ stDelayed) :
    Replied s (s.refused x j status detail) j status detail [] ∧
    ((s.refused x j status detail).src j.side j.src).cmd = (s.src j.side j.src).cmd ∧
    ((s.refused x j status detail).side x).chromirQ = (s.side x).chromirQ ∧ SideOnly x s (s.refused x j status detail) := by
  subst hx
  have hnoted : Noted j.side s (if status = stAbsent then s.inc (.side j.side) F.FAB_PROXY_ABSENT 0
      else if status = stParam then s.rangeRefused j.side j.pkt else s) := by
    rw [if_neg habsent]
    split
    · exact s.rangeRefused_noted _ _
    · exact Touches.refl _ s
  have hsrc := congrArg (fun v => Tab.at Src.empty v.srcs j.src) hnoted.side
  have hopen := h.of hsrc (hnoted.get _ _ _ (by decide)) (hnoted.get _ _ _ (by decide))
  obtain ⟨hreplied, -, hrest, hside⟩ := State.answer_open (status := status) (detail := detail) (words := []) hopen hdelayed
  refine ⟨hreplied.of hsrc, (State.cmd_answer hopen _ _ _).trans (congrArg Src.cmd hsrc), ?_, hnoted.rest.trans hrest⟩
  exact (congrArg SideSt.chromirQ hside :).trans (congrArg SideSt.chromirQ hnoted.side :)

/-- The final reply to a packet at its take gives back the tag that the take made outstanding. -/
theorem Replied.of_take {j : Job} {c : List Packet} {status detail : Nat} (h : Replied t u j status detail [])
    (hsrc : t.src j.side j.src = { s.src j.side j.src with
      cmd := c, out := (s.src j.side j.src).out ++ [⟨j.pkt.tag, j.seq, reserveOf j.pkt.code, j.pkt.world⟩] })
    (hnew : (s.src j.side j.src).out.any (fun a => a.seq == j.seq) = false) :
    (u.src j.side j.src).out = (s.src j.side j.src).out ∧
    (u.src j.side j.src).rpl = (s.src j.side j.src).rpl ++ [rplHeader (j.pkt.code / 256) status j.pkt.tag j.pkt.world 0 detail] := by
  obtain ⟨hrpl, hout, -⟩ := h
  rw [hsrc] at hrpl hout
  refine ⟨?_, hrpl⟩
  rw [hout, List.filter_append]
  have hkeep : (s.src j.side j.src).out.filter (fun o => o.seq != j.seq) = (s.src j.side j.src).out := by
    rw [List.filter_eq_self]
    intro o ho
    simpa using (List.any_eq_false.mp hnew o ho)
  simp [hkeep]

end Sys2Proof.Machine
end

section
/-! The Stoker's takes and the replies of a grate die, put together (R67, R75, R80 to R87). -/
namespace Sys2Proof.Machine
open Sys2Proof

variable {s t u : State} {x : Side} {i : Nat} {k : Packet} {q : List Packet}

theorem State.src_enqueue {ws : List Nat} (hdoor : s.pairDoor x ≠ some i) :
    (s.enqueue x i ws).src x i = { s.src x i with rpl := (s.src x i).rpl ++ ws } := by
  rw [State.enqueue_eq hdoor]
  split <;> simp

/-- A packet whose tag is in use is answered TAG_BUSY (R67). -/
theorem State.tagBusy_src (hdoor : s.pairDoor x ≠ some i) (hall : k.tag ≠ 0xFF) :
    (s.tagBusy x i k).src x i = { s.src x i with rpl := (s.src x i).rpl ++ [rplHeader (k.code / 256) stTagBusy k.tag k.world 0 0] } ∧
    ((s.tagBusy x i k).side x).chromirQ = (s.side x).chromirQ ∧ SideOnly x s (s.tagBusy x i k) := by
  have hzero : b2n (k.tag == 0xFF) = 0 := by simp [b2n, hall]
  obtain ⟨v, hv, hdoorv, hsrcv, hqv, hrestv⟩ : ∃ v : State,
      s.tagBusy x i k = v.enqueue x i [rplHeader (k.code / 256) stTagBusy k.tag k.world 0 0] ∧ v.pairDoor x = s.pairDoor x ∧
      v.src x i = s.src x i ∧ (v.side x).chromirQ = (s.side x).chromirQ ∧ SideOnly x s v := by
    refine ⟨if i < 32 then s.inc (.side x) F.DOOR_TAG_BUSY_COUNT i else s, by rw [State.tagBusy, hzero], ?_⟩
    split
    · refine ⟨State.pairDoor_of_get ?_ ?_, State.src_inc _ _ _ _ _ _, by rw [State.side_inc], SideOnly.set _ _ _ _ _⟩
      all_goals exact State.get_set_fld _ _ _ _ _ _ _ _ (by decide)
    · exact ⟨rfl, rfl, rfl, SideOnly.refl _ _⟩
  have henq := State.enqueue_delivered v x i [rplHeader (k.code / 256) stTagBusy k.tag k.world 0 0]
  rw [hv]
  refine ⟨?_, (congrArg SideSt.chromirQ henq.side :).trans hqv, hrestv.trans henq.rest⟩
  rw [State.src_enqueue (by rwa [hdoorv]), hsrcv]

/-! ## Replies of a grate die -/

/-- The replies to side `x` on their way from grate die `d`: those on its link, then those that the die still holds. -/
def State.wayBack (s : State) (x : Side) (d : Nat) : List Reply := Tab.at [] (s.side x).rpls d ++ Tab.at [] (s.die d).out x.num

/-- `t` is `s` but for replies of die `d` that may have gone from the die onto the link of side `x`, in order. -/
structure RepliesMoved (x : Side) (d : Nat) (s t : State) : Prop where
  order : t.wayBack x d = s.wayBack x d
  die : t.die d = { s.die d with out := (t.die d).out }
  others : ∀ e, e ≠ d → t.die e = s.die e
  srcs : ∀ i, t.src x i = s.src x i
  regs : t.regs = s.regs
  mem : t.mem = s.mem
  now : t.now = s.now

theorem RepliesMoved.refl (x : Side) (d : Nat) (s : State) : RepliesMoved x d s s :=
  ⟨rfl, rfl, fun _ _ => rfl, fun _ => rfl, rfl, rfl, rfl⟩

theorem RepliesMoved.trans {d : Nat} (h : RepliesMoved x d s t) (k : RepliesMoved x d t u) : RepliesMoved x d s u :=
  ⟨k.order.trans h.order, by rw [k.die, h.die], fun e he => (k.others e he).trans (h.others e he), fun i => (k.srcs i).trans (h.srcs i),
   k.regs.trans h.regs, k.mem.trans h.mem, k.now.trans h.now⟩

theorem RepliesMoved.first {d : Nat} {r : Reply} {l : List Reply} (h : Tab.at [] (s.die d).out x.num = r :: l)
    (hu : u = s.setSide x { s.side x with rpls := Tab.put [] (s.side x).rpls d (Tab.at [] (s.side x).rpls d ++ [r]) }) :
    RepliesMoved x d s (u.setDie d { u.die d with out := Tab.put [] (u.die d).out x.num l }) := by
  subst hu
  refine ⟨?_, ?_, fun e he => ?_, fun i => ?_, ?_, ?_, ?_⟩
  · simp [State.wayBack, h]
  · rw [State.die_setDie_self, State.die_setSide]
  · rw [State.die_setDie, if_neg he, State.die_setSide]
  · simp [State.src]
  · simp
  · simp
  · simp

theorem State.sendReplies_moves (x : Side) (d : Nat) : ∀ (n : Nat) (s : State), RepliesMoved x d s (s.sendReplies x d n)
  | 0, s => RepliesMoved.refl x d s
  | n + 1, s => by
    unfold State.sendReplies
    dsimp only
    split
    · next hout =>
      split
      · exact (RepliesMoved.first hout rfl).trans (State.sendReplies_moves x d n _)
      · exact RepliesMoved.refl x d s
    · exact RepliesMoved.refl x d s

/-! ## The takes -/

variable {j : Job} {n : Fin 33}

theorem pathCount_mem (k : Packet) : pathCount k ∈ takeCounts := by
  unfold pathCount
  split <;> simp [takeCounts]

theorem exec_stokerTake_chromir (h : s.Takes x n k q) (hj : j = ⟨x, n, (s.side x).takes, s.now, k⟩) (hpath : pathOf k.code ≠ .fast)
    (hup : (s.side x).chromirDown = false) (hpass : (s.checking x n j).refusal x n k = none) :
    exec (.stokerTake x n) s = .next (((s.checking x n j).popped x ((s.side x).chromirQ ++ [j])).scanOn x n) := by
  have hq : ((s.checking x n j).side x).chromirQ = (s.side x).chromirQ := (congrArg SideSt.chromirQ (State.judging_taken (pathCount_mem _) h j).side :)
  rw [exec_stokerTake_reaches h.1, State.takePacket_open h hj (.inr hup), hpass, ← hq]
  simp only [State.send_chromir (s := s.checking x n j) (j := j) (by rwa [hj])]

theorem exec_stokerTake_fast {d : Nat} (h : s.Takes x n k q) (hj : j = ⟨x, n, (s.side x).takes, s.now, k⟩) (hpath : pathOf k.code = .fast)
    (hd : grateDie k = some d) (hpass : (s.checking x n j).refusal x n k = none) :
    exec (.stokerTake x n) s = .next (((s.checking x n j).setSide x { (s.checking x n j).side x with
      links := Tab.put [] ((s.checking x n j).side x).links d (Tab.at [] (s.side x).links d ++ [j]) }).scanOn x n) := by
  have hl : ((s.checking x n j).side x).links = (s.side x).links := (congrArg SideSt.links (State.judging_taken (pathCount_mem _) h j).side :)
  rw [exec_stokerTake_reaches h.1, State.takePacket_open h hj (.inl hpath), hpass, ← hl]
  simp only [State.send_fast (s := s.checking x n j) (j := j) (by rwa [hj]) (by rwa [hj])]

theorem exec_stokerTake_refused {st de : Nat} (h : s.Takes x n k q) (hj : j = ⟨x, n, (s.side x).takes, s.now, k⟩)
    (hup : (s.side x).chromirDown = false) (hfail : (s.checking x n j).refusal x n k = some (st, de)) :
    exec (.stokerTake x n) s = .next (((s.checking x n j).refused x j st de).scanOn x n) := by
  rw [exec_stokerTake_reaches h.1, State.takePacket_open h hj (.inr hup), hfail]

theorem exec_stokerTake_down (h : s.Takes x n k q) (hj : j = ⟨x, n, (s.side x).takes, s.now, k⟩) (hpath : pathOf k.code ≠ .fast)
    (hdown : (s.side x).chromirDown = true) :
    exec (.stokerTake x n) s =
      .next ((((s.judging x n j).inc (.side x) F.STOKER_BUSY_UPDATE_COUNT 0).answer j stBusy 0 []).scanOn x n) := by
  rw [exec_stokerTake_reaches h.1, State.takePacket_down h hj hpath hdown]

theorem exec_stokerTake_tagBusy (h : s.Reaches x n k q) (htag : (s.src x n).out.any (fun a => a.tag == k.tag) = true) :
    exec (.stokerTake x n) s = .next (((s.takeHead x n).tagBusy x n k).scanOn x n) := by
  rw [exec_stokerTake_reaches h, State.takePacket_busy htag]

/-- The one packet that stays for want of reply words (R75). -/
theorem exec_stokerTake_stall (hup : s.up x = true) (htaking : (s.side x).taking = true) (hcmd : (s.src x n).cmd = k :: q)
    (hpass : s.passedOver x k = false) (hroom : (s.src x n).room < reserveOf k.code) (hn : n.val < 32)
    (hstall : s.get (.side x) F.DOOR_STATUS_STALL n = 0) :
    exec (.stokerTake x n) s = .next ((s.set (.side x) F.DOOR_STATUS_STALL n 1).inc (.side x) F.DOOR_STALL_COUNT n) := by
  change execStokerTake x n s = _
  simp [execStokerTake, hup, htaking, hcmd, hpass, State.headStalls, hroom, State.stall, hn, State.is, hstall, ok]

theorem State.popped_sideOnly (s : State) (x : Side) (l : List Job) : SideOnly x s (s.popped x l) := by
  obtain ⟨v, hv⟩ := s.popped_setSide x l
  rw [hv]
  exact SideOnly.setSide _ _

/-- A final reply of a grate die enters its FIFO, and those behind it stay in order (R48, R65, R81). -/
theorem exec_grateReply_open {d : Fin 4} {r : Reply} {l : List Reply} (hlink : Tab.at [] (s.side x).rpls d = r :: l)
    (hside : r.job.side = x) (hopen : s.Open r.job) (hfinal : r.status ≠ stDelayed) :
    ∃ t, exec (.grateReply x d) s = .next t ∧ Replied s t r.job r.status r.detail r.words ∧
      t.wayBack x d = l ++ Tab.at [] (s.die d).out x.num ∧ t.die d = { s.die d with out := (t.die d).out } ∧
      (∀ e : Nat, e < 5 → e ≠ d.val → t.die e = s.die e) ∧ Only [(.side x, F.INTR_PENDING, r.job.src / 32)] s t ∧ MemSame s t ∧
      t.now = s.now := by
  have hmoves := State.sendReplies_moves x d 32 (s.setSide x { s.side x with rpls := Tab.put [] (s.side x).rpls d l })
  have hexec : exec (.grateReply x d) s =
      .next (((s.setSide x { s.side x with rpls := Tab.put [] (s.side x).rpls d l }).sendReplies x d 32).deliver r) := by
    change execGrateReply x d s = _
    rw [execGrateReply, hlink]
    rfl
  refine ⟨_, hexec, ?_⟩
  obtain ⟨u, hu⟩ : ∃ u, (s.setSide x { s.side x with rpls := Tab.put [] (s.side x).rpls d l }).sendReplies x d 32 = u := ⟨_, rfl⟩
  rw [hu] at hmoves ⊢
  obtain ⟨horder, hdie, hothers, hsrcs, hregs, hmem, hnow⟩ := hmoves
  rw [State.regs_setSide] at hregs
  have hget : ∀ h f n, u.get h f n = s.get h f n := fun h f n => by rw [State.get, hregs]; rfl
  have hsrc : ∀ n, u.src x n = s.src x n := fun n => (hsrcs n).trans (by simp [State.src])
  subst hside
  obtain ⟨hreplied, hpend, hnote, hsidet⟩ := State.answer_open (status := r.status) (detail := r.detail) (words := r.words)
    (hopen.of (hsrc _) (hget _ _ _) (hget _ _ _)) hfinal
  have hdies : ∀ e, (u.deliver r).die e = u.die e := fun e => congrArg (fun m => Tab.at DieSt.init m e) hnote.2.2.2.2.2.2.2.1
  have hrpls : ((u.deliver r).side r.job.side).rpls = (u.side r.job.side).rpls := (congrArg SideSt.rpls hsidet :)
  refine ⟨hreplied.of (hsrc _), ?_, ?_, fun e _ he => ?_, fun h f n hf => (hpend h f n hf).trans (hget h f n), fun y a => ?_, ?_⟩
  · rw [State.wayBack, hrpls, hdies]
    exact horder.trans (by simp [State.wayBack])
  · rw [hdies, hdie, State.die_setSide]
  · rw [hdies, hothers e he, State.die_setSide]
  · exact (hnote.mem y a).trans (by simp only [State.byte, hmem, State.mem_setSide])
  · exact hnote.1.trans (hnow.trans (State.now_setSide _ _ _))

/-- Settles O47: the take is one update of the side and of the counters of source and path (`Taken`); what follows is the
packet's path, its refusal, or the answer that needs no check. -/
theorem stokerTakes : Obligations.StokerTakes := by
  unfold Obligations.StokerTakes
  refine ⟨fun s x i k q j h hj hpath hup hpass => ?_, fun s x i k q j d h hj hpath hd hpass => ?_,
    fun s x i k q j st de h hdoor hj hpath hup habsent hdelayed hnew hfail => ?_, fun s x i k q h hdoor hpath hdown hnew => ?_,
    fun s x i k q h hall hbusy hdoor => ?_, fun s x i k q hup htaking hcmd hpass hroom hi hstall => ?_,
    fun s x d r q hlink hside hopen hfinal => exec_grateReply_open hlink hside hopen hfinal⟩
  case refine_1 =>
    have hk : pathCount j.pkt = F.STOKER_CHROMIR_COUNT := by simp [hj, pathCount, hpath]
    have hc := State.judging_taken (pathCount_mem j.pkt) h j
    refine ⟨_, exec_stokerTake_chromir h hj hpath hup (by rwa [State.checking, hk]), ?_⟩
    obtain ⟨u, hu⟩ : ∃ u, (s.judging x i j).inc (.side x) (pathCount j.pkt) 0 = u := ⟨_, rfl⟩
    rw [State.checking]
    rw [hu] at hc ⊢
    obtain ⟨⟨-, -, hcmd, -⟩, -⟩ := h
    have hdown : (u.side x).chromirDown = false := (congrArg SideSt.chromirDown hc.side :).trans hup
    have hlong : (u.side x).longQ = (s.side x).longQ := (congrArg SideSt.longQ hc.side :)
    have htakes : (u.side x).takes = (s.side x).takes + 1 := (congrArg SideSt.takes hc.side :)
    have hrest := (hc.rest.trans (u.popped_sideOnly x ((s.side x).chromirQ ++ [j]))).trans (State.scanOn_sideOnly _ x i)
    rw [State.side_scanOn, State.src_scanOn, State.get_scanOn, State.src_popped hdown, State.side_popped hdown, State.get_popped, hc.src,
      hlong, htakes, hcmd]
    refine ⟨rfl, rfl, rfl, rfl, by rw [hj], rfl, rfl, hk ▸ hc.count, ?_, hrest.mem, hrest.1, hrest.2.2.2.2.2.2.2.1⟩
    intro a f m hf
    rw [State.get_scanOn, State.get_popped]
    exact hc.only a f m (hk ▸ hf)
  case refine_2 =>
    have hk : pathCount j.pkt = F.STOKER_FAST_COUNT := by simp [hj, pathCount, hpath]
    have hc := State.judging_taken (pathCount_mem j.pkt) h j
    refine ⟨_, exec_stokerTake_fast h hj hpath hd (by rwa [State.checking, hk]), ?_⟩
    obtain ⟨u, hu⟩ : ∃ u, (s.judging x i j).inc (.side x) (pathCount j.pkt) 0 = u := ⟨_, rfl⟩
    rw [State.checking]
    rw [hu] at hc ⊢
    obtain ⟨⟨-, -, hcmd, -⟩, -⟩ := h
    have hqueue : (u.side x).chromirQ = (s.side x).chromirQ := (congrArg SideSt.chromirQ hc.side :)
    have hrest : ∀ v, SideOnly x s ((u.setSide x v).scanOn x i) := fun v =>
      (hc.rest.trans (SideOnly.setSide x v)).trans (State.scanOn_sideOnly _ x i)
    have hsrc : ∀ l, (u.setSide x { u.side x with links := l }).src x i = u.src x i := fun l => by simp [State.src]
    rw [State.side_scanOn, State.src_scanOn, State.get_scanOn, State.side_setSide_self, State.get_setSide, hsrc, hc.src, hcmd]
    exact ⟨Tab.at_put_self _ _ _ _, hqueue, rfl, by rw [hj], hk ▸ hc.count, (hrest _).mem, (hrest _).1, (hrest _).2.2.2.2.2.2.2.1⟩
  case refine_3 =>
    have hk : pathCount j.pkt = F.STOKER_CHROMIR_COUNT := by simp [hj, pathCount, hpath]
    have hc := State.judging_taken (pathCount_mem j.pkt) h j
    refine ⟨_, exec_stokerTake_refused h hj hup (by rwa [State.checking, hk]), ?_⟩
    obtain ⟨u, hu⟩ : ∃ u, (s.judging x i j).inc (.side x) (pathCount j.pkt) 0 = u := ⟨_, rfl⟩
    rw [State.checking]
    rw [hu] at hc ⊢
    obtain ⟨⟨-, -, hcmd, -⟩, -⟩ := h
    have hqueue : (u.side x).chromirQ = (s.side x).chromirQ := (congrArg SideSt.chromirQ hc.side :)
    have hdooru := hc.pairDoor
    have hsrc := hc.src
    have hrest := hc.rest
    rw [hcmd] at hsrc
    subst hj
    have hopen : u.Open ⟨x, i, (s.side x).takes, s.now, k⟩ := ⟨by simp [hsrc], hdooru ▸ hdoor⟩
    obtain ⟨hreplied, hleft, hq, hnote⟩ := State.refused_open hopen rfl habsent hdelayed
    obtain ⟨hout, hrpl⟩ := hreplied.of_take hsrc hnew
    have hall := (hrest.trans hnote).trans (State.scanOn_sideOnly _ x i)
    rw [State.side_scanOn, State.src_scanOn]
    exact ⟨hleft.trans (congrArg Src.cmd hsrc), hout, hrpl, hq.trans hqueue, hall.mem, hall.2.2.2.2.2.2.2.1⟩
  case refine_4 =>
    obtain ⟨j, hj⟩ : ∃ j : Job, j = ⟨x, i, (s.side x).takes, s.now, k⟩ := ⟨_, rfl⟩
    have hc := State.judging_taken (c := F.STOKER_BUSY_UPDATE_COUNT) (by decide) h j
    refine ⟨_, exec_stokerTake_down h hj hpath hdown, ?_⟩
    obtain ⟨u, hu⟩ : ∃ u, (s.judging x i j).inc (.side x) F.STOKER_BUSY_UPDATE_COUNT 0 = u := ⟨_, rfl⟩
    rw [hu] at hc ⊢
    obtain ⟨⟨-, -, hcmd, -⟩, -⟩ := h
    obtain ⟨-, hrest, hside, hsrc, hcount, hdooru⟩ := hc
    have hqueue : (u.side x).chromirQ = (s.side x).chromirQ := (congrArg SideSt.chromirQ hside :)
    rw [hcmd] at hsrc
    subst hj
    have hopen : u.Open ⟨x, i, (s.side x).takes, s.now, k⟩ := ⟨by simp [hsrc], hdooru ▸ hdoor⟩
    obtain ⟨hreplied, hpend, hnote, hsidet⟩ := State.answer_open (status := stBusy) (detail := 0) (words := []) hopen (by decide)
    obtain ⟨hout, hrpl⟩ := hreplied.of_take hsrc hnew
    rw [State.side_scanOn, State.src_scanOn, State.get_scanOn, hpend.get_fld (by simp; decide), hcount]
    refine ⟨(State.cmd_answer hopen _ _ _).trans (congrArg Src.cmd hsrc), hout, hrpl, rfl, ?_, ?_⟩
    · exact (congrArg SideSt.chromirQ hsidet :).trans hqueue
    · exact ((hrest.trans hnote).trans (State.scanOn_sideOnly _ x i)).mem
  case refine_5 =>
    refine ⟨_, exec_stokerTake_tagBusy h hbusy, ?_⟩
    obtain ⟨-, -, hcmd, -, -, -, hpair⟩ := h
    obtain ⟨honly, hrest, hside⟩ := State.takeHead_takes hpair
    have hdooru : (s.takeHead x i).pairDoor x ≠ some i.val := by
      rwa [State.pairDoor_of_get (honly.get_fld ?_) (honly.get_fld ?_)]
      all_goals simp [takeSpots]; decide
    have hqueue : ((s.takeHead x i).side x).chromirQ = (s.side x).chromirQ := (congrArg SideSt.chromirQ hside :)
    obtain ⟨hsrct, hq, hnote⟩ := State.tagBusy_src hdooru hall
    rw [State.side_scanOn, State.src_scanOn, hsrct, State.src_takeHead hpair, hcmd]
    exact ⟨rfl, rfl, rfl, hq.trans hqueue, ((hrest.trans hnote).trans (State.scanOn_sideOnly _ x i)).mem⟩
  case refine_6 =>
    have hcount : (s.set (.side x) F.DOOR_STATUS_STALL i 1).get (.side x) F.DOOR_STALL_COUNT i = s.get (.side x) F.DOOR_STALL_COUNT i :=
      State.get_set_fld _ _ _ _ _ _ _ _ (by decide)
    refine ⟨_, exec_stokerTake_stall hup htaking hcmd hpass hroom hi hstall, by simp, ?_, ?_, (Only.set (by simp)).then_set (by simp),
      by simp, fun y a => by simp⟩
    · rw [State.inc, State.add, State.get_set_fld _ _ _ _ _ _ _ _ (by decide), State.get_set_self]
      rfl
    · rw [State.inc, State.add, State.get_set_self, hcount]

end Sys2Proof.Machine
end

section
/-! Packets of Chromir that write registers and answer, and the packets of the TIME class (R98, R405, R408, R414, R415). -/
namespace Sys2Proof.Machine
open Sys2Proof

variable {s t u : State} {x : Side} {j : Job} {q : List Job}

/-! ## A packet that writes and answers -/

/-- The registers that a reply of Chromir may write, and that of the pair door. -/
def answerRegs : List Nat := [F.STOKER_CHROMIR_MAX.reg, F.INTR_PENDING.reg, F.PAIR_CFG_MODE.reg]

/-- What the answer of Chromir leaves of the state `u` that it is given in. -/
structure AnsweredIn (j : Job) (u t : State) : Prop where
  get : ∀ h f i, f.reg ∉ answerRegs → t.get h f i = u.get h f i
  rest : SideOnly j.side u t
  side : t.side j.side = { u.side j.side with srcs := (t.side j.side).srcs }

theorem AnsweredIn.of_only (h : Only (replyFields j) u t) (hrest : SideOnly j.side u t)
    (hside : t.side j.side = { u.side j.side with srcs := (t.side j.side).srcs }) : AnsweredIn j u t := by
  refine ⟨fun a g i hg => h.get_fld fun p hp => .inl fun e => hg ?_, hrest, hside⟩
  simp only [replyFields, List.mem_cons, List.not_mem_nil, or_false] at hp
  rcases hp with rfl | rfl <;> simp [answerRegs, e]

/-- A packet that Chromir runs and answers: `u` is the state that the answer is given in, with the sources, the queue and the pair door as the
packet found them. -/
theorem replies_in {c : Instr} {code status detail : Nat} {words : List Nat} {f : State → Job → State} (h : s.Head x code j q)
    (hs : status ≠ stDelayed) (he : exec c s = ok (s.chromir x code f)) (hf : f (s.popped x q) j = u.done j status detail words)
    (hsrcs : (u.side x).srcs = ((s.popped x q).side x).srcs) (hq : (u.side x).chromirQ = ((s.popped x q).side x).chromirQ)
    (hmode : u.get (.side x) F.PAIR_CFG_MODE 0 = s.get (.side x) F.PAIR_CFG_MODE 0)
    (hdoor : u.get (.side x) F.PAIR_CFG_DOOR 0 = s.get (.side x) F.PAIR_CFG_DOOR 0) :
    ∃ t, exec c s = .next t ∧ Replied s t j status detail words ∧ (t.side x).chromirQ = q.dropWhile isLong ∧ AnsweredIn j u t := by
  obtain ⟨-, hdown, -, -, -, hx, hopen⟩ := id h
  subst hx
  have hsrc : u.src j.side j.src = s.src j.side j.src := by
    rw [State.src, hsrcs]
    exact State.src_popped hdown j.src
  obtain ⟨hreplied, hfields, hrest, hside⟩ := State.done_open (status := status) (detail := detail) (words := words)
    (hopen.of hsrc hmode hdoor) hs
  have hrun : s.chromir j.side code f = u.done j status detail words := (s.chromir_head f h).1.trans hf
  refine ⟨_, he.trans (congrArg ok hrun), hreplied.of hsrc, ?_, .of_only hfields hrest hside⟩
  rw [(congrArg SideSt.chromirQ hside :), hq, State.side_popped hdown]

/-- A packet that writes the fields `l` and is answered: `u` is the state that the answer is given in, which holds for side `x` the sources and
the queue of the state in which Chromir runs the packet. -/
theorem acts_in {c : Instr} {code status detail : Nat} {words : List Nat} {l : List Spot} {P : State → Prop} {f : State → Job → State}
    (h : s.Head x code j q) (hs : status ≠ stDelayed) (he : exec c s = ok (s.chromir x code f))
    (hf : f (s.popped x q) j = u.done j status detail words) (hsrcs : (u.side x).srcs = ((s.popped x q).side x).srcs)
    (hq : (u.side x).chromirQ = ((s.popped x q).side x).chromirQ) (ho : Only l (s.popped x q) u)
    (hl : ∀ p ∈ l, p.2.1.reg ≠ F.PAIR_CFG_MODE.reg) (hm : u.mem = s.mem) (hP : ∀ t, AnsweredIn j u t → P t) :
    Acts c s j q status detail words l P := by
  obtain ⟨-, hdown, -, -, -, hx, -⟩ := id h
  subst hx
  have hall : Only l s u := fun a g i hn => (ho a g i hn).trans (State.get_popped _ _ _ _ _ _)
  have hpair : ∀ g : Fld, g.reg = F.PAIR_CFG_MODE.reg → u.get (.side j.side) g 0 = s.get (.side j.side) g 0 := fun g hg =>
    hall.get_fld fun p hp => .inl (hg ▸ (hl p hp).symm)
  refine acts_of h hs he hf ?_ ?_ hall (fun y a => by simp only [State.byte, hm]) (hpair _ rfl) (hpair _ rfl) fun t hreply hrest hside =>
    hP t (.of_only hreply hrest hside)
  · rw [State.src, hsrcs]
    exact State.src_popped hdown j.src
  · rw [hq, State.side_popped hdown]

/-! ## Pulse outputs (R414) -/

/-- Output `c` of side `x` with the settings `ps` in its registers and none that wait. -/
def State.pulseSettings (s : State) (x : Side) (c : Nat) (ps : List Nat) : State :=
  let p (k : Nat) : Nat := ps.getD k 0
  let h := Holder.side x
  let s := ((s.set h F.TPO_START_S c (p 0)).set h F.TPO_START_NS c (p 1)).set h F.TPO_PERIOD c (p 2)
  let s := (s.set h F.TPO_WIDTH c (p 3)).set h F.TPO_CTRL_INVERT c (bits (p 4) 1 1)
  let s := (s.set h F.TPO_CTRL_ENABLE c (bits (p 4) 0 0)).set h F.TPO_CTRL_DONE c 0
  s.setSide x { s.side x with tpoNew := Tab.put [] (s.side x).tpoNew c [] }

/-- The register fields of an output's settings. -/
def pulseSpots (x : Side) (c : Nat) : List Spot :=
  [(.side x, F.TPO_START_S, c), (.side x, F.TPO_START_NS, c), (.side x, F.TPO_PERIOD, c), (.side x, F.TPO_WIDTH, c),
   (.side x, F.TPO_CTRL_INVERT, c), (.side x, F.TPO_CTRL_ENABLE, c), (.side x, F.TPO_CTRL_DONE, c)]

variable {c : Nat} {ps : List Nat}

theorem testBit_zero_of_bits {w : Nat} (h : bits w 0 0 = 1) : w.testBit 0 = true := by
  rw [Nat.testBit_zero, decide_eq_true_iff]
  simp only [bits] at h
  omega

theorem testBit_zero_of_bits_zero {w : Nat} (h : bits w 0 0 = 0) : w.testBit 0 = false := by
  rw [Nat.testBit_zero, decide_eq_false_iff_not]
  simp only [bits] at h
  omega

theorem State.tpoArm_disabled {n : Nat} (h : bits (ps.getD 4 0) 0 0 = 0) :
    s.tpoArm x c n ps = (s.pulseSettings x c ps).setTpo x c none false :=
  if_pos (by rw [testBit_zero_of_bits_zero h]; decide)

theorem State.tpoArm_periodic {n : Nat} (h : bits (ps.getD 4 0) 0 0 = 1) (hp : ps.getD 2 0 ≠ 0) :
    s.tpoArm x c n ps = (s.pulseSettings x c ps).setTpo x c
      (some (if (s.pulseSettings x c ps).tpoStart x c < n + 1000 then
          firstAt ((s.pulseSettings x c ps).tpoStart x c) (ps.getD 2 0) (n + 1000)
        else (s.pulseSettings x c ps).tpoStart x c)) false := by
  have hstart : ∀ (u : State) v, (u.setSide x v).tpoStart x c = u.tpoStart x c := fun u v => by
    simp only [State.tpoStart, State.get_setSide]
  rw [State.pulseSettings]
  dsimp only
  rw [hstart]
  exact (if_neg (by rw [testBit_zero_of_bits h]; decide)).trans (if_neg hp)

theorem State.pulseSettings_only : Only (pulseSpots x c) s (s.pulseSettings x c ps) := by
  refine Only.then_regs ?_ (State.regs_setSide _ _ _)
  refine Only.then_set (Only.then_set (Only.then_set (Only.then_set (Only.then_set (Only.then_set (Only.set ?_) ?_) ?_) ?_) ?_) ?_) ?_
  all_goals simp [pulseSpots]

theorem mod_two_pow_bits (w lo : Nat) : bits w lo lo % 2 ^ 1 = bits w lo lo := by
  simp only [bits]
  rw [Nat.add_sub_cancel_left, Nat.mod_mod]

/-- The settings read as written. -/
theorem State.get_pulseSettings :
    (s.pulseSettings x c ps).get (.side x) F.TPO_START_S c = ps.getD 0 0 % 2 ^ F.TPO_START_S.width ∧
    (s.pulseSettings x c ps).get (.side x) F.TPO_START_NS c = ps.getD 1 0 % 2 ^ F.TPO_START_NS.width ∧
    (s.pulseSettings x c ps).get (.side x) F.TPO_PERIOD c = ps.getD 2 0 % 2 ^ F.TPO_PERIOD.width ∧
    (s.pulseSettings x c ps).get (.side x) F.TPO_WIDTH c = ps.getD 3 0 % 2 ^ F.TPO_WIDTH.width ∧
    (s.pulseSettings x c ps).get (.side x) F.TPO_CTRL_INVERT c = bits (ps.getD 4 0) 1 1 ∧
    (s.pulseSettings x c ps).get (.side x) F.TPO_CTRL_ENABLE c = bits (ps.getD 4 0) 0 0 := by
  refine ⟨?_, ?_, ?_, ?_, (?_ : _ = _).trans (mod_two_pow_bits _ 1), (?_ : _ = _).trans (mod_two_pow_bits _ 0)⟩
  all_goals
    simp (disch := decide) only [State.pulseSettings, State.get_setSide, State.get_set_fld, State.get_set_self] <;> rfl

@[simp] theorem State.get_setTpo (s : State) (x : Side) (c : Nat) (n : Option Nat) (l : Bool) (h : Holder) (f : Fld) (i : Nat) :
    (s.setTpo x c n l).get h f i = s.get h f i := State.get_setSide _ _ _ _ _ _

/-- What setting an output leaves of its side. -/
theorem State.side_pulseSet (n : Option Nat) :
    ((s.pulseSettings x c ps).setTpo x c n false).side x = { s.side x with
      tpoNew := Tab.put [] (s.side x).tpoNew c [], tpoLevel := Machine.clearBit (s.side x).tpoLevel c,
      tpoNext := Tab.put 0 (s.side x).tpoNext c (n.elim 0 (· + 1)) } := by
  cases n <;> simp [State.setTpo, State.pulseSettings]

theorem State.mem_pulseSet (n : Option Nat) : ((s.pulseSettings x c ps).setTpo x c n false).mem = s.mem := by
  simp [State.setTpo, State.pulseSettings]

/-- Settings that need not wait for the end of a pulse in progress (R414). -/
theorem State.pulseSet_arms (h : (s.side x).tpoLevel.testBit j.pkt.target = false ∨ bits (j.pkt.p 5) 0 0 = 0) :
    s.pulseSet x j = (s.tpoArm x j.pkt.target (s.domTime x (s.get (.side x) F.TPO_CTRL_DOMAIN j.pkt.target) / 1024)
      ([1, 2, 3, 4, 5].map j.pkt.p)).done j stOk 0 [] := by
  have hwait : ¬ ((s.side x).tpoLevel.testBit j.pkt.target = true ∧ (j.pkt.p 5).testBit 0 = true) := by
    rintro ⟨hlevel, hon⟩
    rcases h with h | h
    · simp [h] at hlevel
    · simp [testBit_zero_of_bits_zero h] at hon
  exact congrArg (fun u => State.done u j stOk 0 []) (if_neg hwait)

/-! ## Packets that act on Bellows (R98, R405, R408) -/

theorem State.onBellows_present (h : s.present .flue = true) (f : State → State) : s.onBellows j f = f s := if_pos h

theorem State.onBellows_absent (h : s.present .flue = false) (f : State → State) :
    s.onBellows j f = (s.inc (.side j.side) F.FAB_PROXY_ABSENT 0).done j stAbsent 0x050 [] := if_neg (by simp [h])

@[simp] theorem State.blwTime_popped (s : State) (x : Side) (q : List Job) (d : Nat) : (s.popped x q).blwTime d = s.blwTime d := by
  simp only [State.blwTime, State.flue_popped, State.now_popped]

theorem AnsweredIn.flue (h : AnsweredIn j u t) : t.flue = u.flue := h.rest.2.2.2.2.2.2.1

/-- The settings of an output after the answer to the packet that sets it. -/
theorem AnsweredIn.settings {n : Option Nat} (h : AnsweredIn j ((s.pulseSettings x c ps).setTpo x c n false) t) :
    t.get (.side x) F.TPO_START_S c = ps.getD 0 0 % 2 ^ F.TPO_START_S.width ∧
    t.get (.side x) F.TPO_START_NS c = ps.getD 1 0 % 2 ^ F.TPO_START_NS.width ∧
    t.get (.side x) F.TPO_PERIOD c = ps.getD 2 0 % 2 ^ F.TPO_PERIOD.width ∧
    t.get (.side x) F.TPO_WIDTH c = ps.getD 3 0 % 2 ^ F.TPO_WIDTH.width ∧
    t.get (.side x) F.TPO_CTRL_INVERT c = bits (ps.getD 4 0) 1 1 ∧ t.get (.side x) F.TPO_CTRL_ENABLE c = bits (ps.getD 4 0) 0 0 := by
  have hget : ∀ f, f.reg ∉ answerRegs → t.get (.side x) f c = (s.pulseSettings x c ps).get (.side x) f c := fun f hf =>
    (h.get _ _ _ hf).trans (State.get_setTpo _ _ _ _ _ _ _ _)
  rw [hget _ (by decide), hget _ (by decide), hget _ (by decide), hget _ (by decide), hget _ (by decide), hget _ (by decide)]
  exact State.get_pulseSettings

theorem AnsweredIn.pulse {n : Option Nat} (hx : j.side = x) (h : AnsweredIn j ((s.pulseSettings x c ps).setTpo x c n false) t) :
    (t.side x).tpoNext = Tab.put 0 (s.side x).tpoNext c (n.elim 0 (· + 1)) ∧
    (t.side x).tpoLevel = Machine.clearBit (s.side x).tpoLevel c := by
  subst hx
  have hside := h.side
  rw [State.side_pulseSet] at hside
  exact ⟨(congrArg SideSt.tpoNext hside :), (congrArg SideSt.tpoLevel hside :)⟩

theorem AnsweredIn.tpoStart {n : Option Nat} (h : AnsweredIn j ((s.pulseSettings x c ps).setTpo x c n false) t) :
    t.tpoStart x c = (s.pulseSettings x c ps).tpoStart x c := by
  have hget : ∀ f, f.reg ∉ answerRegs → t.get (.side x) f c = (s.pulseSettings x c ps).get (.side x) f c := fun f hf =>
    (h.get _ _ _ hf).trans (State.get_setTpo _ _ _ _ _ _ _ _)
  rw [State.tpoStart, State.tpoStart, hget _ (by decide), hget _ (by decide)]

/-- A TIME_PULSE_SET whose settings take effect at once, with the next edge at `n`. -/
theorem timePulseSet_acts {n : Option Nat} {P : State → Prop} (h : s.Head x 0x703 j q)
    (hset : (s.popped x q).pulseSet x j = (((s.popped x q).pulseSettings x j.pkt.target ps).setTpo x j.pkt.target n false).done j stOk 0 [])
    (hP : ∀ t, AnsweredIn j (((s.popped x q).pulseSettings x j.pkt.target ps).setTpo x j.pkt.target n false) t → P t) :
    Acts (.timePulseSet x) s j q stOk 0 [] (pulseSpots x j.pkt.target) P := by
  refine acts_in h (by decide) rfl hset ?_ ?_ ?_ ?_ ?_ hP
  · rw [State.side_pulseSet]
  · rw [State.side_pulseSet]
  · exact State.pulseSettings_only.then_regs (State.regs_setSide _ _ _)
  · simp [pulseSpots]
    decide
  · rw [State.mem_pulseSet, State.mem_popped]

/-! ## The step of a domain (R408) -/

/-- `t` is `s` but for the fields `l` at Bellows, its event lines, and notes on both sides. -/
structure BellowsWrites (l : List Fld) (s t : State) : Prop where
  get : ∀ h f i, (∀ g ∈ l, f.reg ≠ g.reg ∨ f.lo ≠ g.lo) → f.reg ∉ noteRegs → t.get h f i = s.get h f i
  dom : ∀ d, t.dom d = s.dom d
  sides : ∀ y, (t.side y).beyondNotes = (s.side y).beyondNotes
  mem : t.mem = s.mem
  now : t.now = s.now

section BellowsWrites

variable {l m : List Fld}

theorem BellowsWrites.refl (l : List Fld) (s : State) : BellowsWrites l s s := ⟨fun _ _ _ _ _ => rfl, fun _ => rfl, fun _ => rfl, rfl, rfl⟩

theorem BellowsWrites.trans (h : BellowsWrites l s t) (k : BellowsWrites m t u) : BellowsWrites (l ++ m) s u :=
  ⟨fun a f i hf hn => (k.get a f i (fun g hg => hf g (List.mem_append_right _ hg)) hn).trans
      (h.get a f i (fun g hg => hf g (List.mem_append_left _ hg)) hn),
   fun d => (k.dom d).trans (h.dom d), fun y => (k.sides y).trans (h.sides y), k.mem.trans h.mem, k.now.trans h.now⟩

theorem BellowsWrites.set (s : State) (f : Fld) (i v : Nat) : BellowsWrites [f] s (s.set .flue f i v) :=
  ⟨fun _ g _ hg _ => State.get_set_fld _ _ _ _ _ _ _ _ (hg f (by simp)), fun _ => rfl, fun y => by rw [State.side_set], rfl, rfl⟩

theorem side_eq_or_eq_other (y x : Side) : y = x ∨ y = x.other := by cases x <;> cases y <;> decide

theorem BellowsWrites.of_noted {y : Side} (h : Noted y s t) : BellowsWrites [] s t := by
  obtain ⟨hnow, -, -, hmem, -, hother, hflue, -⟩ := h.rest
  refine ⟨fun a f i _ hf => h.get a f i hf, fun d => by simp only [State.dom, hflue], fun z => ?_, hmem, hnow⟩
  rcases side_eq_or_eq_other z y with rfl | rfl
  · exact h.side
  · rw [hother]

theorem State.logBoth_writes (s : State) (code prod : Nat) (args : List Arg) : BellowsWrites [] s (s.logBoth code prod args) :=
  (BellowsWrites.of_noted (s.log_noted .a code prod args)).trans (BellowsWrites.of_noted (State.log_noted _ .b code prod args))

theorem State.blwEvt_writes (s : State) (f : Fld) (d : Nat) : BellowsWrites [f] s (s.blwEvt f d) :=
  let h := BellowsWrites.set s f d 1
  ⟨h.get, h.dom, fun y => by cases y <;> rfl, rfl, rfl⟩

/-- What the entry of a servo into a state writes besides the state (R406). -/
theorem State.setServo_writes (s : State) (d v : Nat) :
    BellowsWrites [F.BLW_STATE_HOLDOVER, F.BLW_EVT_HOLDOVER_CHG] (s.set .flue F.BLW_STATE_SERVO d v) (s.setServo d v) := by
  unfold State.setServo
  dsimp only
  split
  · exact BellowsWrites.refl _ _
  · exact ((BellowsWrites.set _ _ _ _).trans (State.blwEvt_writes _ _ d)).trans (State.logBoth_writes _ _ _ _)

end BellowsWrites

/-- A domain right after its clock has stepped, before its registers show it. -/
def State.steppedDom (s : State) (d : Nat) (by_ : Int) : State :=
  (s.setDom d { s.dom d with
    clock := ⟨(((s.dom d).clock.read s.now : Int) + by_).toNat, s.now, (s.dom d).clock.adj, 0, 0⟩
    since := 0, good := 0, rxPin := (s.dom d).rxPin + by_, stepA := true, stepB := true }).holdGates d

theorem State.base_steppedDom (s : State) (d : Nat) (by_ : Int) :
    ((s.steppedDom d by_).dom d).clock.base = (((s.dom d).clock.read s.now : Int) + by_).toNat := by
  unfold State.steppedDom State.holdGates State.dom State.setDom
  split <;> rfl

theorem State.side_steppedDom (s : State) (d : Nat) (by_ : Int) (y : Side) : (s.steppedDom d by_).side y = s.side y := by cases y <;> rfl

/-- What a step of domain `d` shows and leaves. -/
structure DomStepped (d : Nat) (by_ : Int) (s t : State) : Prop where
  pending : t.get .flue F.BLW_STATE_PENDING d = 0
  servo : t.get .flue F.BLW_STATE_SERVO d = 1
  count : t.get .flue F.BLW_STEP_COUNT d = (s.get .flue F.BLW_STEP_COUNT d + 1) % 2 ^ F.BLW_STEP_COUNT.width
  base : (t.dom d).clock.base = (((s.dom d).clock.read s.now : Int) + by_).toNat
  sides : ∀ y, (t.side y).beyondNotes = (s.side y).beyondNotes
  mem : t.mem = s.mem
  now : t.now = s.now
  pairMode : ∀ y, t.get (.side y) F.PAIR_CFG_MODE 0 = s.get (.side y) F.PAIR_CFG_MODE 0
  pairDoor : ∀ y, t.get (.side y) F.PAIR_CFG_DOOR 0 = s.get (.side y) F.PAIR_CFG_DOOR 0

theorem State.stepDom_steps (s : State) (d : Nat) (by_ : Int) : DomStepped d by_ s (s.stepDom d by_) := by
  obtain ⟨u, hu⟩ : ∃ u, ((s.steppedDom d by_).set .flue F.BLW_STATE_PENDING d 0).set .flue F.BLW_STATE_RUN d 0 = u := ⟨_, rfl⟩
  have hstep : s.stepDom d by_ = (((u.setServo d 1).inc .flue F.BLW_STEP_COUNT d).blwEvt F.BLW_EVT_STEP d).logBoth 0xA05 27
      [.nar 1 d, .wide (ofSigned 40 (by_ / 1024))] := by rw [← hu]; rfl
  have hrun := (BellowsWrites.set (s.steppedDom d by_) F.BLW_STATE_PENDING d 0).trans (BellowsWrites.set _ F.BLW_STATE_RUN d 0)
  have hservo := State.setServo_writes u d 1
  have hcount := BellowsWrites.set (u.setServo d 1) F.BLW_STEP_COUNT d ((u.setServo d 1).get .flue F.BLW_STEP_COUNT d + 1)
  have hevent := (State.blwEvt_writes ((u.setServo d 1).inc .flue F.BLW_STEP_COUNT d) F.BLW_EVT_STEP d).trans
    (State.logBoth_writes _ 0xA05 27 [.nar 1 d, .wide (ofSigned 40 (by_ / 1024))])
  rw [← hstep] at hevent
  rw [hu] at hrun
  have hlast := (hservo.trans hcount).trans hevent
  have hall := (hrun.trans (BellowsWrites.set u F.BLW_STATE_SERVO d 1)).trans hlast
  have hold : ∀ h f i, (s.steppedDom d by_).get h f i = s.get h f i := fun _ _ _ => rfl
  refine ⟨?_, ?_, ?_, ?_, fun y => ?_, hall.mem, hall.now, fun y => ?_, fun y => ?_⟩
  · rw [hlast.get _ _ _ (by decide) (by decide), ← hu]
    simp (disch := decide) only [State.get_set_fld, State.get_set_self]
    rfl
  · rw [hlast.get _ _ _ (by decide) (by decide), State.get_set_self]
    rfl
  · rw [hevent.get _ _ _ (by decide) (by decide), State.inc, State.add, State.get_set_self, hservo.get _ _ _ (by decide) (by decide),
      State.get_set_fld _ _ _ _ _ _ _ _ (by decide), hrun.get _ _ _ (by decide) (by decide), hold]
  · rw [hall.dom, State.base_steppedDom]
  · rw [hall.sides, State.side_steppedDom]
  · rw [hall.get _ _ _ (by decide) (by decide), hold]
  · rw [hall.get _ _ _ (by decide) (by decide), hold]

/-! ## The packets -/

/-- Settles O40: the packets write registers of their output, input or domain in the state in which Chromir runs them (`acts_in`); a step of a
domain (`DomStepped`) also logs on both sides. -/
theorem timePackets : Obligations.TimePackets := by
  unfold Obligations.TimePackets
  refine ⟨fun s x j q c h hc hflue => ?_, fun s x j q c h hc hflue => ?_, fun s x j q c h hc hflue hlt hpend => ?_,
    fun s x j q c h hc hflue hpend => ?_, fun s x j q c h hc hlt hoff => ?_, fun s x j q c h hc hlt hon hlevel => ?_,
    fun s x j q c h hc hlt hon hlevel hper => ?_, fun s x j q c h hc hlt => ?_, fun s x j q c h hc hflue => ?_⟩
  case refine_1 =>
    refine acts_in (u := s.popped x q) h (by decide) rfl ?_ rfl rfl (Only.refl _ _) (by simp) (by simp) fun t ht => ?_
    · rw [State.onBellows_present (by simpa using hflue), hc]
      simp only [State.fg, State.get_popped, State.blwTime_popped]
    · rw [ht.flue, State.flue_popped]
  case refine_2 =>
    obtain ⟨-, -, -, -, -, hx, -⟩ := id h
    refine acts_in (u := (s.popped x q).inc (.side x) F.FAB_PROXY_ABSENT 0) h (by decide) rfl ?_ ?_ ?_ (Only.set (by simp)) ?_ ?_
      fun t ht => ?_
    · rw [State.onBellows_absent (by simpa using hflue), hx]
    · simp
    · simp
    · simp; decide
    · simp
    · rw [ht.flue]
      simp
  case refine_3 =>
    subst hc
    obtain ⟨u, hu⟩ : ∃ u, (s.popped x q).stepDom j.pkt.target (-(sigInt ((s.popped x q).fg F.BLW_PENDING j.pkt.target)) * 1024) = u :=
      ⟨_, rfl⟩
    obtain ⟨hp, hservo, hcount, hbase, hsides, hmem, hnow, hmode, hdoor⟩ := hu ▸ State.stepDom_steps (s.popped x q) j.pkt.target
      (-(sigInt ((s.popped x q).fg F.BLW_PENDING j.pkt.target)) * 1024)
    obtain ⟨t, hexec, hreplied, hqueue, ht⟩ := replies_in (c := .timeStepAccept x) (u := u) (status := stOk) (detail := 0) (words := []) h
      (by decide) rfl
      (by rw [State.onBellows_present (by simpa using hflue), ← hu]; simp [State.fb, State.is, hpend]) (congrArg SideSt.srcs (hsides x) :)
      (congrArg SideSt.chromirQ (hsides x) :) ((hmode _).trans (by simp)) ((hdoor _).trans (by simp))
    refine ⟨t, hexec, hreplied, hqueue, ?_, ?_, ?_, ?_, fun y a => (ht.rest.mem y a).trans ?_, ?_⟩
    · rw [ht.get _ _ _ (by decide), hp]
    · rw [ht.get _ _ _ (by decide), hservo]
    · rw [State.dom, ht.flue, ← State.dom, hbase]
      simp only [State.dom, State.flue_popped, State.now_popped, State.fg, State.get_popped, neg_mul, ← sub_eq_add_neg]
    · rw [ht.get _ _ _ (by decide), hcount, State.get_popped]
    · simp only [State.byte, hmem, State.mem_popped]
    · rw [ht.rest.1, hnow, State.now_popped]
  case refine_4 =>
    refine acts_in (u := s.popped x q) h (by decide) rfl ?_ rfl rfl (Only.refl _ _) (by simp) (by simp) fun t ht => ?_
    · rw [State.onBellows_present (by simpa using hflue), hc]
      simp [State.fb, State.is, hpend]
    · rw [ht.flue, State.flue_popped]
  case refine_5 =>
    obtain ⟨-, -, -, -, -, hx, -⟩ := id h
    subst hc
    have hset := (State.pulseSet_arms (s := s.popped x q) (x := x) (.inr hoff)).trans
      (congrArg (fun u => State.done u j stOk 0 []) (State.tpoArm_disabled (ps := [1, 2, 3, 4, 5].map j.pkt.p) hoff))
    refine timePulseSet_acts h hset fun t ht => ?_
    obtain ⟨hs, hns, hp, hw, hi, he⟩ := ht.settings
    obtain ⟨hnext, -⟩ := ht.pulse hx
    exact ⟨hs, hns, hp, hw, hi, he.trans hoff, by rw [hnext]; exact Tab.at_put_self _ _ _ _⟩
  case refine_6 =>
    obtain ⟨-, hdown, -, -, -, hx, -⟩ := id h
    have hlev : ((s.popped x q).side x).tpoLevel = (s.side x).tpoLevel := by rw [State.side_popped hdown]
    have hnext : ((s.popped x q).side x).tpoNext = (s.side x).tpoNext := by rw [State.side_popped hdown]
    have hwait : ((s.popped x q).side x).tpoLevel.testBit c = true ∧ (j.pkt.p 5).testBit 0 = true :=
      ⟨by rwa [hlev], testBit_zero_of_bits hon⟩
    subst hc
    refine acts_in (u := (s.popped x q).setSide x { (s.popped x q).side x with
      tpoNew := Tab.put [] ((s.popped x q).side x).tpoNew j.pkt.target ([1, 2, 3, 4, 5].map j.pkt.p) }) h (by decide) rfl ?_ ?_ ?_
      (Only.of_regs (State.regs_setSide _ _ _)) (by simp) ?_ fun t ht => ?_
    · exact congrArg (fun u => State.done u j stOk 0 []) (if_pos hwait)
    · rw [State.side_setSide_self]
    · rw [State.side_setSide_self]
    · simp
    · subst hx
      have hside := ht.side
      rw [State.side_setSide_self] at hside
      refine ⟨?_, (congrArg SideSt.tpoNext hside :).trans hnext, (congrArg SideSt.tpoLevel hside :).trans hlev⟩
      rw [(congrArg SideSt.tpoNew hside :)]
      simp
  case refine_7 =>
    obtain ⟨-, hdown, -, -, -, hx, -⟩ := id h
    have hlev : ((s.popped x q).side x).tpoLevel = (s.side x).tpoLevel := by rw [State.side_popped hdown]
    have htime : (s.popped x q).domTime x ((s.popped x q).get (.side x) F.TPO_CTRL_DOMAIN c) =
        s.domTime x (s.get (.side x) F.TPO_CTRL_DOMAIN c) := by
      simp only [State.domTime, State.get_popped, State.now_popped, State.side_popped hdown]
    subst hc
    have hset := (State.pulseSet_arms (s := s.popped x q) (x := x) (.inl (by rwa [hlev]))).trans
      (congrArg (fun u => State.done u j stOk 0 []) (State.tpoArm_periodic (ps := [1, 2, 3, 4, 5].map j.pkt.p) hon hper))
    refine timePulseSet_acts h hset fun t ht => ?_
    obtain ⟨hs, hns, hp, hw, hi, he⟩ := ht.settings
    obtain ⟨hnext, hlevt⟩ := ht.pulse hx
    refine ⟨hp, hw, hi, he.trans hon, ?_, ?_⟩
    · rw [hlevt, hlev, clearBit, hlevel]
      exact hlevel
    · rw [hnext, ht.tpoStart, Tab.at_put_self, ← htime]
      rfl
  case refine_8 =>
    obtain ⟨-, -, -, -, -, hx, -⟩ := id h
    subst hc
    refine acts_in (u := (((s.popped x q).set (.side x) F.TCI_STATUS_COUNT j.pkt.target 0).set (.side x) F.TCI_STATUS_OVERFLOW j.pkt.target 0).set
      (.side x) F.TCI_STATUS_STEPPED j.pkt.target 0) h (by decide) rfl ?_ (by simp) (by simp) ?_ (by simp; decide) (by simp) fun t ht => ?_
    · simp only [State.get_popped]
    · exact ((Only.set (by simp)).then_set (by simp)).then_set (by simp)
    · rw [ht.get _ _ _ (by decide), ht.get _ _ _ (by decide), ht.get _ _ _ (by decide)]
      simp (disch := decide) only [State.get_set_fld, State.get_set_self]
      decide
  case refine_9 =>
    subst hc
    refine acts_in (u := ((((s.popped x q).set .flue F.BLW_KP j.pkt.target (j.pkt.p 1)).set .flue F.BLW_KI j.pkt.target (j.pkt.p 2)).set
      .flue F.BLW_JUMP_TH j.pkt.target (j.pkt.p 3)).set .flue F.BLW_CFG_AUTO_STEP j.pkt.target (bits (j.pkt.p 4) 0 0)) h (by decide) rfl ?_
      (by simp) (by simp) ?_ (by simp; decide) (by simp) fun t ht => ?_
    · exact State.onBellows_present (by simpa using hflue) _
    · exact (((Only.set (by simp)).then_set (by simp)).then_set (by simp)).then_set (by simp)
    · rw [ht.get _ _ _ (by decide), ht.get _ _ _ (by decide), ht.get _ _ _ (by decide), ht.get _ _ _ (by decide)]
      simp (disch := decide) only [State.get_set_fld, State.get_set_self]
      exact ⟨trivial, trivial, trivial, mod_two_pow_bits _ 0⟩

end Sys2Proof.Machine
end

section
/-! The packets of the SIDE class and the net token's that answer or set (R97, R100, R277, R279, R315, R352, R354). -/
namespace Sys2Proof.Machine
open Sys2Proof

variable {s t u : State} {x : Side} {j : Job} {q : List Job}

/-! ## Hold-offs of R279 -/

/-- `t` is `s` but for the hold-offs of R279 and what the sides show of them. -/
structure WaitsShown (s t : State) : Prop where
  only : Only returnFields s t
  waits : ∀ y, SideWaits y s t
  mem : t.mem = s.mem

theorem WaitsShown.refl (s : State) : WaitsShown s s := ⟨Only.refl _ s, fun _ => rfl, rfl⟩

theorem WaitsShown.trans (h : WaitsShown s t) (k : WaitsShown t u) : WaitsShown s u :=
  ⟨h.only.trans k.only, fun y => (k.waits y).trans (by rw [h.waits y]), k.mem.trans h.mem⟩

theorem WaitsShown.setReturnAt (s : State) (x : Side) (r : Tab Nat) : WaitsShown s (s.setSide x { s.side x with returnAt := r }) := by
  refine ⟨Only.of_regs (State.regs_setSide _ _ _), fun y => ?_, State.mem_setSide _ _ _⟩
  cases x <;> cases y <;> rfl

theorem WaitsShown.set (s : State) (x : Side) (v : Nat) : WaitsShown s (s.set (.side x) F.SIDE_STATUS_RETURN_WAIT 0 v) :=
  ⟨Only.set (by cases x <;> simp [returnFields]), fun y => by rw [SideWaits, State.side_set], State.mem_set _ _ _ _ _⟩

theorem State.returnWaits_shown (s : State) : WaitsShown s s.returnWaits := by
  unfold State.returnWaits
  refine State.each_keeps (fun u x hu => hu.trans (WaitsShown.trans ?_ (WaitsShown.set _ x _))) _ (WaitsShown.refl s)
  exact State.each_keeps (fun v _ hv => hv.trans (WaitsShown.setReturnAt v x _)) _ (WaitsShown.refl u)

/-! ## The return policy (R279) -/

/-- The register fields of side `x` in which its return policy stands. -/
def policySpots (x : Side) : List Spot :=
  [(.side x, F.SIDE_RETURN_RETURN_HOME, 0), (.side x, F.SIDE_RETURN_HOLDOFF, 0), (.side x, F.SIDE_STATUS_RETURN_HOME, 0)]

/-- What setting the policy of side `x` shows and leaves. -/
structure PolicySet (x : Side) (p : Nat) (s t : State) : Prop where
  home : t.get (.side x) F.SIDE_RETURN_RETURN_HOME 0 = bits p 0 0
  holdoff : t.get (.side x) F.SIDE_RETURN_HOLDOFF 0 = bits p 23 8
  shown : t.get (.side x) F.SIDE_STATUS_RETURN_HOME 0 = bits p 0 0
  only : Only (policySpots x ++ returnFields) s t
  waits : ∀ y, SideWaits y s t
  mem : t.mem = s.mem

theorem State.setPolicy_sets (s : State) (x : Side) (p : Nat) : PolicySet x p s (s.setPolicy x p) := by
  obtain ⟨u, hu⟩ : ∃ u, ((s.set (.side x) F.SIDE_RETURN_RETURN_HOME 0 (bits p 0 0)).set (.side x) F.SIDE_RETURN_HOLDOFF 0 (bits p 23 8)).set
    (.side x) F.SIDE_STATUS_RETURN_HOME 0 (bits p 0 0) = u := ⟨_, rfl⟩
  obtain ⟨honly, hwaits, hmem⟩ := u.returnWaits_shown
  have hset : s.setPolicy x p = u.returnWaits := by rw [← hu]; rfl
  rw [← hset] at honly hwaits hmem
  have hget : ∀ f ∈ [F.SIDE_RETURN_RETURN_HOME, F.SIDE_RETURN_HOLDOFF, F.SIDE_STATUS_RETURN_HOME],
      (s.setPolicy x p).get (.side x) f 0 = u.get (.side x) f 0 := fun f hf => by
    refine honly.get_fld ?_
    simp only [List.mem_cons, List.not_mem_nil, or_false] at hf
    rcases hf with rfl | rfl | rfl <;> simp [returnFields] <;> decide
  have hwritten : Only (policySpots x) s u := by
    rw [← hu]
    exact ((Only.set (by simp [policySpots])).then_set (by simp [policySpots])).then_set (by simp [policySpots])
  refine ⟨?_, ?_, ?_, ?_, fun y => ?_, ?_⟩
  · rw [hget _ (by simp), ← hu]
    simp (disch := decide) only [State.get_set_fld, State.get_set_self]
    exact Nat.mod_mod _ _
  · rw [hget _ (by simp), ← hu]
    simp (disch := decide) only [State.get_set_fld, State.get_set_self]
    exact Nat.mod_mod _ _
  · rw [hget _ (by simp), ← hu, State.get_set_self]
    exact Nat.mod_mod _ _
  · exact (hwritten.mono fun p hp => List.mem_append_left _ hp).trans (honly.mono fun p hp => List.mem_append_right _ hp)
  · exact (hwaits y).trans (by rw [← hu]; simp only [State.side_set])
  · rw [hmem, ← hu]
    simp

theorem PolicySet.crossReach {p : Nat} (h : PolicySet x p s t) : t.crossReach x = s.crossReach x := by
  have hrun : (t.side x.other).run = (s.side x.other).run := (congrArg SideSt.run (h.waits x.other) :)
  have hcross : t.get (.side x) F.SIDE_STATUS_CROSS_UP 0 = s.get (.side x) F.SIDE_STATUS_CROSS_UP 0 :=
    h.only.get_fld (by simp [policySpots, returnFields]; decide)
  simp only [State.crossReach, State.up, State.is, hrun, hcross]

/-! ## Mirror regions (R277) -/

/-- Region `r` of side `x` set to `n` pages at `b`; the next checkpoint copies all, and one that runs no line of the region. -/
def State.mirrorSetTo (s : State) (x : Side) (r b n : Nat) : State :=
  let s := (s.set (.side x) F.SIDE_MIRROR_BASE r b).set (.side x) F.SIDE_MIRROR_LEN r n
  (s.setSide x { s.side x with
    ckptFull := true, ckptDone := Tab.put 0 (s.side x).ckptDone r 0,
    ckpt := (s.side x).ckpt.map (fun c => { c with lines := c.lines.filter (fun l => l.1 != r) }) }).showMirror x

/-- What setting a mirror region shows and leaves. -/
structure MirrorSet (x : Side) (r b n : Nat) (s t : State) : Prop where
  base : t.get (.side x) F.SIDE_MIRROR_BASE r = b % 2 ^ F.SIDE_MIRROR_BASE.width
  length : t.get (.side x) F.SIDE_MIRROR_LEN r = n % 2 ^ F.SIDE_MIRROR_LEN.width
  full : (t.side x).ckptFull = true
  only : Only ((.side x, F.SIDE_MIRROR_BASE, r) :: (.side x, F.SIDE_MIRROR_LEN, r) :: (.side x, F.SIDE_STATUS_MIRROR_CURRENT, 0) ::
    returnFields) s t
  side : t.side x = { s.side x with
    ckptFull := (t.side x).ckptFull, ckptDone := (t.side x).ckptDone, ckpt := (t.side x).ckpt, returnAt := (t.side x).returnAt }
  mem : t.mem = s.mem

theorem State.mirrorSet_shows (s : State) (x : Side) (r b n : Nat) : MirrorSet x r b n s (s.mirrorSetTo x r b n) := by
  obtain ⟨u, hu⟩ : ∃ u, (s.set (.side x) F.SIDE_MIRROR_BASE r b).set (.side x) F.SIDE_MIRROR_LEN r n = u := ⟨_, rfl⟩
  obtain ⟨v, hv⟩ : ∃ v : SideSt, v = { u.side x with
    ckptFull := true, ckptDone := Tab.put 0 (u.side x).ckptDone r 0,
    ckpt := (u.side x).ckpt.map (fun c => { c with lines := c.lines.filter (fun l => l.1 != r) }) } := ⟨_, rfl⟩
  obtain ⟨w, hw⟩ : ∃ w, (u.setSide x v).set (.side x) F.SIDE_STATUS_MIRROR_CURRENT 0
    (b2n ((u.setSide x v).is (.side x) F.SIDE_STATUS_CROSS_UP 0 && (u.setSide x v).mirCurrent x)) = w := ⟨_, rfl⟩
  have hset : s.mirrorSetTo x r b n = w.returnWaits := by rw [← hw, hv, ← hu]; rfl
  obtain ⟨honly, hwaits, hmem⟩ := hset ▸ w.returnWaits_shown
  have hsideu : u.side x = s.side x := by rw [← hu, State.side_set, State.side_set]
  have hsidew : w.side x = v := by rw [← hw, State.side_set, State.side_setSide_self]
  have hside : (s.mirrorSetTo x r b n).side x = { v with returnAt := ((s.mirrorSetTo x r b n).side x).returnAt } := hsidew ▸ hwaits x
  refine ⟨?_, ?_, ?_, ?_, ?_, ?_⟩
  · rw [honly.get_fld (by simp [returnFields]; decide), ← hw, State.get_set_fld _ _ _ _ _ _ _ _ (by decide), State.get_setSide, ← hu,
      State.get_set_fld _ _ _ _ _ _ _ _ (by decide), State.get_set_self]
  · rw [honly.get_fld (by simp [returnFields]; decide), ← hw, State.get_set_fld _ _ _ _ _ _ _ _ (by decide), State.get_setSide, ← hu,
      State.get_set_self]
  · rw [(congrArg SideSt.ckptFull hside :), hv]
  · refine Only.trans ?_ (honly.mono fun p hp => List.mem_cons_of_mem _ (List.mem_cons_of_mem _ (List.mem_cons_of_mem _ hp)))
    rw [← hw, ← hu]
    exact (((Only.set (by simp)).then_set (by simp)).then_regs (State.regs_setSide _ _ _)).then_set (by simp)
  · rw [hside, hv, hsideu]
  · rw [hmem, ← hw, ← hu]
    simp

/-! ## SAs (R354) -/

/-- `t` is `s` but for the Flue die and its registers. -/
structure FlueOnly (s t : State) : Prop where
  get : ∀ y f i, t.get (.side y) f i = s.get (.side y) f i
  side : ∀ y, t.side y = s.side y
  mem : t.mem = s.mem
  dies : t.dies = s.dies

theorem FlueOnly.refl (s : State) : FlueOnly s s := ⟨fun _ _ _ => rfl, fun _ => rfl, rfl, rfl⟩

theorem FlueOnly.set (h : FlueOnly s t) (f : Fld) (i v : Nat) : FlueOnly s (t.set .flue f i v) :=
  ⟨fun y g n => (t.get_set_holder .flue (.side y) f g i n v (by cases y <;> decide)).trans (h.get y g n),
   fun y => (State.side_set _ _ _ _ _ _).trans (h.side y), (State.mem_set _ _ _ _ _).trans h.mem, (State.dies_set _ _ _ _ _).trans h.dies⟩

/-- The state in which an SA `i` is installed: for one that transmits the others of its association are no longer active. -/
def State.saCleared (s : State) (k : Packet) (i : Nat) : State :=
  (if bits (k.p 1) 0 0 = 0 then
    s.each [0, 1, 2, 3] (fun s a => s.set .flue F.MSEC_SA_STATE_ACTIVE (saIndex k.target 0 (bits (k.p 1) 1 1) a) 0) else s).clearSa i

theorem State.saCleared_flueOnly (s : State) (k : Packet) (i : Nat) : FlueOnly s (s.saCleared k i) := by
  refine State.each_keeps (fun _ _ h => h.set _ _ _) _ ?_
  split
  · exact State.each_keeps (fun _ _ h => h.set _ _ _) _ (FlueOnly.refl s)
  · exact FlueOnly.refl s

/-- The state with SA `i` installed under key slot `slot`, active, not extended, with packet number `pn`. -/
def State.saShown (s : State) (i slot pn : Nat) : State :=
  (((((s.set .flue F.MSEC_SA_STATE_INSTALLED i 1).set .flue F.MSEC_SA_STATE_ACTIVE i 1).set .flue F.MSEC_SA_STATE_XPN i 0).set .flue
    F.MSEC_SA_STATE_KEY_SLOT i slot).set .flue F.MSEC_SA_PN_LO i pn).set .flue F.MSEC_SA_PN_HI i (pn / 2 ^ 40)

theorem State.get_saShown (s : State) {i slot pn : Nat} (hslot : slot < 64) (hpn : pn < 2 ^ 32) :
    (s.saShown i slot pn).get .flue F.MSEC_SA_STATE_INSTALLED i = 1 ∧ (s.saShown i slot pn).get .flue F.MSEC_SA_STATE_ACTIVE i = 1 ∧
    (s.saShown i slot pn).get .flue F.MSEC_SA_STATE_XPN i = 0 ∧ (s.saShown i slot pn).get .flue F.MSEC_SA_STATE_KEY_SLOT i = slot ∧
    (s.saShown i slot pn).saPn i = pn := by
  simp (disch := decide) only [State.saPn, State.fg, State.saShown, State.get_set_fld, State.get_set_self, Fld.width,
    F.MSEC_SA_STATE_INSTALLED, F.MSEC_SA_STATE_ACTIVE, F.MSEC_SA_STATE_XPN, F.MSEC_SA_STATE_KEY_SLOT, F.MSEC_SA_PN_LO, F.MSEC_SA_PN_HI]
  omega

/-- Slot `k` of side `x` holds a key for the network (R354, R446). -/
def State.netKey (s : State) (x : Side) (k : Nat) : Prop :=
  k < 64 ∧ s.is (.side x) F.KEYS_SLOT_VALID k = true ∧ s.is (.side x) F.KEYS_SLOT_REVOKED k = false ∧
  s.get (.side x) F.KEYS_SLOT_USE k = 3

/-- The state with key material `key` for SA `i`, no SSCI, and the SCI `c` of its channel `m`. -/
def State.saKeyed (s : State) (i m : Nat) (key : List Nat) (c : Nat) : State :=
  { s with flue := { s.flue with
    saKey := Tab.put [] s.flue.saKey i key, ssci := Tab.put 0 s.flue.ssci i 0, sci := Tab.put 0 s.flue.sci m c } }

@[simp] theorem State.get_saKeyed (s : State) (i m : Nat) (key : List Nat) (c : Nat) (h : Holder) (f : Fld) (n : Nat) :
    (s.saKeyed i m key c).get h f n = s.get h f n := rfl

theorem State.saKey_saKeyed (s : State) (i m : Nat) (key : List Nat) (c : Nat) : Tab.at [] (s.saKeyed i m key c).flue.saKey i = key :=
  Tab.at_put_self _ _ _ _

theorem FlueOnly.saKeyed (h : FlueOnly s t) (i m : Nat) (key : List Nat) (c : Nat) : FlueOnly s (t.saKeyed i m key c) :=
  ⟨h.get, fun y => (by cases y <;> rfl : (t.saKeyed i m key c).side y = t.side y).trans (h.side y), h.mem, h.dies⟩

theorem FlueOnly.saShown (h : FlueOnly s t) (i slot pn : Nat) : FlueOnly s (t.saShown i slot pn) :=
  (((((h.set _ _ _).set _ _ _).set _ _ _).set _ _ _).set _ _ _).set _ _ _

theorem State.saInstall_valid {k i : Nat} (hkey : s.netKey x k) (hk : bits (j.pkt.p 1) 15 8 = k) (hxpn : (j.pkt.p 1).testBit 4 = false)
    (hpn : j.pkt.p 2 < 2 ^ 32) (hi : saIndex j.pkt.target (bits (j.pkt.p 1) 0 0) (bits (j.pkt.p 1) 1 1) (bits (j.pkt.p 1) 3 2) = i) :
    s.saInstall x j = (((s.saCleared j.pkt i).saShown i k (j.pkt.p 2)).saKeyed i
      (4 * j.pkt.target + 2 * bits (j.pkt.p 1) 0 0 + bits (j.pkt.p 1) 1 1)
      (Tab.at [] (((s.saCleared j.pkt i).saShown i k (j.pkt.p 2)).side x).keyMat k) (j.pkt.p 6 * 2 ^ 40 + j.pkt.p 5)).done j stOk 0 [] := by
  obtain ⟨hlt, hvalid, hrevoked, huse⟩ := hkey
  subst hi hk
  have hslot : ¬ ¬ (bits (j.pkt.p 1) 15 8 < 64 ∧ s.is (.side x) F.KEYS_SLOT_VALID (bits (j.pkt.p 1) 15 8) = true ∧
      ¬ s.is (.side x) F.KEYS_SLOT_REVOKED (bits (j.pkt.p 1) 15 8) = true ∧
      s.get (.side x) F.KEYS_SLOT_USE (bits (j.pkt.p 1) 15 8) = 3) := by simp [hlt, hvalid, hrevoked, huse]
  have hfresh : ¬ (¬ (j.pkt.p 1).testBit 4 = true ∧ 2 ^ 32 ≤ j.pkt.p 2 + (if (j.pkt.p 1).testBit 4 then j.pkt.p 3 * 2 ^ 40 else 0)) := by
    rw [hxpn, if_neg Bool.false_ne_true]
    omega
  refine ((if_neg hslot).trans (if_neg hfresh)).trans ?_
  simp only [hxpn]
  rfl

/-! ## The packets -/

theorem State.onNet_holds (hflue : s.present .flue = true) (hnet : s.holds j.side 4 = true) (f : State → State) : s.onNet j f = f s :=
  (if_neg (by simp [hflue])).trans (if_pos hnet)

@[simp] theorem State.masterDetail_popped (s : State) (x : Side) (q : List Job) (n : Nat) :
    (s.popped x q).masterDetail n = s.masterDetail n := by
  have hholder : (s.popped x q).tokHolder n = s.tokHolder n := State.get_popped _ _ _ _ _ _
  rw [State.masterDetail, hholder]
  rfl

@[simp] theorem State.is_popped (s : State) (x : Side) (q : List Job) (h : Holder) (f : Fld) (i : Nat) :
    (s.popped x q).is h f i = s.is h f i := by
  simp only [State.is, State.get_popped]

@[simp] theorem State.crossReach_popped (s : State) (x : Side) (q : List Job) : (s.popped x q).crossReach x = s.crossReach x := by
  simp only [State.crossReach, State.up, State.is, State.get_popped, State.side_other_popped]

theorem State.keyMat_popped (h : (s.side x).chromirDown = false) : ((s.popped x q).side x).keyMat = (s.side x).keyMat := by
  rw [State.side_popped h]

/-- Settles O39: each packet writes registers of its side or of the Flue die in the state in which Chromir runs it (`acts_in`, `replies_in`);
beyond them stand the hold-offs of R279 (`WaitsShown`) and the key of an SA. -/
theorem sideAndNetPackets : Obligations.SideAndNetPackets := by
  unfold Obligations.SideAndNetPackets
  refine ⟨fun s x j q c h hc => ?_, fun s x j q c p h hc hp => ?_, fun s x j q c p h hc hp hcross => ?_,
    fun s x j q c p h hc hp hcross => ?_, fun s x j q c h hc hreq hflue => ?_, fun s x j q c h hc hreq hflue => ?_,
    fun s x j q c h hc hreq hflue hnet => ?_, fun s x j q c h hc hreq hflue hnet => ?_,
    fun s x j q c p i k h hc hp hdir hi hlt hflue hnet hslot hk hvalid hrevoked huse hxpn hpn => ?_,
    fun s x j q c p h hc hflue hnet hp hvalid => ?_, fun s x j q c h hc hflue hnet => ?_⟩
  case refine_1 =>
    refine acts_in (u := s.popped x q) h (by decide) rfl ?_ rfl rfl (Only.refl _ _) (by simp) (by simp) fun t ht => ?_
    · simp only [State.heldOf_popped, State.get_popped]
    · exact ht.rest.2.2.2.2.2.2.2.1.trans (State.dies_popped _ _ _)
  case refine_2 =>
    subst hp hc
    have hmirror := (s.popped x q).mirrorSet_shows x j.pkt.target (j.pkt.p 1) (bits (j.pkt.p 2) 23 0)
    refine acts_in (u := (s.popped x q).mirrorSetTo x j.pkt.target (j.pkt.p 1) (bits (j.pkt.p 2) 23 0)) h (by decide) rfl rfl
      (congrArg SideSt.srcs hmirror.side :) (congrArg SideSt.chromirQ hmirror.side :) hmirror.only ?_
      (hmirror.mem.trans (State.mem_popped _ _ _)) fun t ht => ?_
    · simp [returnFields]
      decide
    · obtain ⟨-, -, -, -, -, hx, -⟩ := id h
      subst hx
      rw [ht.get _ _ _ (by decide), ht.get _ _ _ (by decide), (congrArg SideSt.ckptFull ht.side :)]
      exact ⟨hmirror.base, hmirror.length, hmirror.full⟩
  case refine_3 =>
    subst hp
    have hset := (s.popped x q).setPolicy_sets x (j.pkt.p 1)
    refine acts_in (u := (s.popped x q).setPolicy x (j.pkt.p 1)) h (by decide) rfl ?_ (congrArg SideSt.srcs (hset.waits x) :)
      (congrArg SideSt.chromirQ (hset.waits x) :) hset.only ?_ (hset.mem.trans (State.mem_popped _ _ _)) fun t ht => ?_
    · have hreach : ((s.popped x q).setPolicy x (j.pkt.p 1)).crossReach x = false := by rw [hset.crossReach, State.crossReach_popped, hcross]
      simp only [hreach, Bool.false_eq_true, if_false]
    · simp [returnFields]
      decide
    · rw [ht.get _ _ _ (by decide), ht.get _ _ _ (by decide), ht.get _ _ _ (by decide)]
      exact ⟨hset.home, hset.holdoff, hset.shown⟩
  case refine_5 =>
    refine acts_in (u := s.popped x q) h (by decide) rfl ?_ rfl rfl (Only.refl _ _) (by simp) (by simp) fun t ht => ?_
    · simp [State.netBypass, hreq, hflue, State.bypReply, b2n]
    · rw [ht.flue, State.flue_popped]
  case refine_6 =>
    refine acts_in (u := s.popped x q) h (by decide) rfl ?_ rfl rfl (Only.refl _ _) (by simp) (by simp) fun t ht => ?_
    · simp [State.netBypass, hreq, hflue]
    · rw [ht.flue, State.flue_popped]
  case refine_8 =>
    refine acts_in (u := s.popped x q) h (by decide) rfl ?_ rfl rfl (Only.refl _ _) (by simp) (by simp) fun t ht => ?_
    · simp [State.netBypass, hreq, hflue, hnet]
    · rw [ht.flue, State.flue_popped]
  case refine_7 =>
    refine acts_in (u := ((s.popped x q).set .flue F.BYP_STATUS_FORCED 0 0).set .flue F.BYP_STATUS_OPEN_REQ 0 1) h (by decide) rfl ?_ ?_ ?_
      ((Only.set (by simp)).then_set (by simp)) ?_ ?_ fun t ht => ?_
    · have hclosed : (((s.popped x q).set .flue F.BYP_STATUS_FORCED 0 0).set .flue F.BYP_STATUS_OPEN_REQ 0 1).bypReply =
          s.get .flue F.BYP_STATUS_CLOSED 0 + 2 := by
        simp (disch := decide) [State.bypReply, State.get_set_fld, hflue, b2n]
      simp [State.netBypass, hreq, hflue, hnet, hclosed]
    · simp
    · simp
    · simp; decide
    · simp
    · rw [ht.get _ _ _ (by decide), ht.get _ _ _ (by decide)]
      simp (disch := decide) only [State.get_set_fld, State.get_set_self]
      decide
  case refine_10 =>
    obtain ⟨-, hdown, -, -, -, hx, -⟩ := id h
    subst hp hx
    refine acts_in (u := s.popped j.side q) h (by decide) rfl ?_ rfl rfl (Only.refl _ _) (by simp) (by simp) fun t ht => ?_
    · rw [State.onNet_holds (by simpa using hflue) (by simpa using hnet)]
      exact if_pos fun hkey => by simp [hvalid] at hkey
    · rw [ht.flue, State.flue_popped]
  case refine_11 =>
    obtain ⟨-, -, -, -, -, hx, -⟩ := id h
    subst hx hc
    refine acts_in (u := ((((s.popped j.side q).set .flue F.MIR_INGRESS j.pkt.target (j.pkt.p 1)).set .flue F.MIR_EGRESS j.pkt.target
      (j.pkt.p 2)).set .flue F.MIR_CFG_DEST j.pkt.target (bits (j.pkt.p 3) 4 0)).set .flue F.MIR_CFG_ENABLE j.pkt.target
        (bits (j.pkt.p 3) 5 5)) h (by decide) rfl ?_ (by simp) (by simp) ?_ (by simp; decide) (by simp) fun t ht => ?_
    · exact State.onNet_holds (by simpa using hflue) (by simpa using hnet) _
    · exact (((Only.set (by simp)).then_set (by simp)).then_set (by simp)).then_set (by simp)
    · rw [ht.get _ _ _ (by decide), ht.get _ _ _ (by decide), ht.get _ _ _ (by decide), ht.get _ _ _ (by decide)]
      simp (disch := decide) only [State.get_set_fld, State.get_set_self]
      exact ⟨trivial, trivial, Nat.mod_mod _ _, Nat.mod_mod _ _⟩
  case refine_9 =>
    obtain ⟨-, hdown, -, -, -, hx, -⟩ := id h
    subst hp hx hc
    have hkey : (s.popped j.side q).netKey j.side k := by simpa [State.netKey, hvalid, hrevoked, huse] using hk
    obtain ⟨v, hv⟩ : ∃ v, ((s.popped j.side q).saCleared j.pkt i).saShown i k (j.pkt.p 2) = v := ⟨_, rfl⟩
    have hv' : FlueOnly (s.popped j.side q) v := hv ▸ (State.saCleared_flueOnly _ j.pkt i).saShown i k (j.pkt.p 2)
    obtain ⟨hinst, hact, hxpnv, hslotv, hpnv⟩ := hv ▸ ((s.popped j.side q).saCleared j.pkt i).get_saShown (i := i) hk hpn
    have hrun := State.saInstall_valid hkey hslot hxpn hpn (hdir.symm ▸ hi)
    rw [hv] at hrun
    have hu := hv'.saKeyed i (4 * j.pkt.target + 2 * bits (j.pkt.p 1) 0 0 + bits (j.pkt.p 1) 1 1)
      (Tab.at [] (v.side j.side).keyMat k) (j.pkt.p 6 * 2 ^ 40 + j.pkt.p 5)
    obtain ⟨t, hexec, hreplied, hqueue, ht⟩ := replies_in (c := .netSaInstall j.side) h (by decide) rfl
      ((State.onNet_holds (by simpa using hflue) (by simpa using hnet) _).trans hrun) (congrArg SideSt.srcs (hu.side _))
      (congrArg SideSt.chromirQ (hu.side _)) ((hu.get _ _ _).trans (by simp)) ((hu.get _ _ _).trans (by simp))
    have hget : ∀ f, f.reg ∉ answerRegs → t.get .flue f i = v.get .flue f i := fun f hf => (ht.get _ _ _ hf).trans (State.get_saKeyed ..)
    refine ⟨t, hexec, hreplied, hqueue, ?_, ?_, ?_, ?_, ?_, ?_, fun y a => (ht.rest.mem y a).trans ?_, ?_⟩
    · rw [hget _ (by decide), hinst]
    · rw [hget _ (by decide), hact]
    · rw [hget _ (by decide), hxpnv]
    · rw [hget _ (by decide), hslotv]
    · rw [← hpnv, State.saPn, State.fg, State.fg, hget _ (by decide), hget _ (by decide)]
      rfl
    · rw [ht.flue, State.saKey_saKeyed, hv'.side, State.keyMat_popped hdown]
    · simp only [State.byte, hu.mem, State.mem_popped]
    · exact ht.rest.2.2.2.2.2.2.2.1.trans (hu.dies.trans (State.dies_popped _ _ _))
  case refine_4 =>
    subst hp
    obtain ⟨v, hv⟩ : ∃ v, (s.popped x q).setPolicy x (j.pkt.p 1) = v := ⟨_, rfl⟩
    have hset := hv ▸ (s.popped x q).setPolicy_sets x (j.pkt.p 1)
    have hother := v.setPolicy_sets x.other (j.pkt.p 1)
    have hreach : v.crossReach x = true := by rw [hset.crossReach, State.crossReach_popped, hcross]
    have hpair : ∀ f ∈ [F.PAIR_CFG_MODE, F.PAIR_CFG_DOOR], (v.setPolicy x.other (j.pkt.p 1)).get (.side x) f 0 = s.get (.side x) f 0 := by
      intro f hf
      rw [hother.only.get_fld ?_, hset.only.get_fld ?_, State.get_popped]
      all_goals
        simp only [List.mem_cons, List.not_mem_nil, or_false] at hf
        rcases hf with rfl | rfl <;> simp [policySpots, returnFields] <;> decide
    obtain ⟨t, hexec, hreplied, -, ht⟩ := replies_in (c := .sideReturnPolicy x) (u := v.setPolicy x.other (j.pkt.p 1)) (status := stOk)
      (detail := 0) (words := []) h (by decide) rfl (by simp only [hv, hreach, if_true])
      ((congrArg SideSt.srcs (hother.waits x) :).trans (congrArg SideSt.srcs (hset.waits x) :))
      ((congrArg SideSt.chromirQ (hother.waits x) :).trans (congrArg SideSt.chromirQ (hset.waits x) :)) (hpair _ (by simp)) (hpair _ (by simp))
    have hkeep : (v.setPolicy x.other (j.pkt.p 1)).get (.side x) F.SIDE_RETURN_HOLDOFF 0 = v.get (.side x) F.SIDE_RETURN_HOLDOFF 0 :=
      hother.only.get (by cases x <;> decide)
    refine ⟨t, hexec, hreplied, ?_, ?_, ?_, fun y a => (ht.rest.mem y a).trans ?_⟩
    · rw [ht.get _ _ _ (by decide), hkeep, hset.holdoff]
    · rw [ht.get _ _ _ (by decide), hother.holdoff]
    · rw [ht.get _ _ _ (by decide), hother.home]
    · simp only [State.byte, hother.mem, hset.mem, State.mem_popped]

end Sys2Proof.Machine
end

section
/-! The spark opcodes: writing, enabling and reading one rule of a matcher (R95, R246, R250, R252). -/
namespace Sys2Proof.Machine
open Sys2Proof

variable {s t u : State} {x : Side} {j : Job} {q : List Job} {m : Matcher} {n : Nat}

/-! ## Matchers -/

@[simp] theorem State.matcher_setMatcher_self (s : State) (m : Matcher) (v : MatcherSt) : (s.setMatcher m v).matcher m = v := by
  cases m with
  | side y => simp [State.setMatcher, State.matcher]
  | flue => rfl

@[simp] theorem State.srcs_setMatcher (s : State) (m : Matcher) (v : MatcherSt) (y : Side) :
    ((s.setMatcher m v).side y).srcs = (s.side y).srcs := by
  cases m with
  | side z => cases y <;> cases z <;> rfl
  | flue => cases y <;> rfl

@[simp] theorem State.chromirQ_setMatcher (s : State) (m : Matcher) (v : MatcherSt) (y : Side) :
    ((s.setMatcher m v).side y).chromirQ = (s.side y).chromirQ := by
  cases m with
  | side z => cases y <;> cases z <;> rfl
  | flue => cases y <;> rfl

@[simp] theorem State.regs_setMatcher (s : State) (m : Matcher) (v : MatcherSt) : (s.setMatcher m v).regs = s.regs := by
  cases m with
  | side y => exact State.regs_setSide _ _ _
  | flue => rfl

@[simp] theorem State.mem_setMatcher (s : State) (m : Matcher) (v : MatcherSt) : (s.setMatcher m v).mem = s.mem := by
  cases m with
  | side y => exact State.mem_setSide _ _ _
  | flue => rfl

@[simp] theorem State.get_setMatcher (s : State) (m : Matcher) (v : MatcherSt) (h : Holder) (f : Fld) (i : Nat) :
    (s.setMatcher m v).get h f i = s.get h f i := by
  simp only [State.get, State.regs_setMatcher]

@[simp] theorem State.matcher_set (s : State) (h : Holder) (f : Fld) (i v : Nat) (m : Matcher) : (s.set h f i v).matcher m = s.matcher m := by
  cases m <;> simp [State.matcher]

theorem State.matcher_popped (h : (s.side x).chromirDown = false) (m : Matcher) : (s.popped x q).matcher m = s.matcher m := by
  cases m with
  | side y =>
    rcases side_eq_or_eq_other y x with rfl | rfl
    · rw [State.matcher, State.side_popped h]
      rfl
    · exact congrArg SideSt.spark (State.side_other_popped ..)
  | flue => exact congrArg FlueSt.spark (State.flue_popped ..)

/-! ## The words and marks of a rule (R246, R250) -/

/-- Twelve words written to rule `n`, the first of them `g 1`. -/
def State.ruleWritten (s : State) (m : Matcher) (n : Nat) (g : Nat → Nat) (count : Nat) : State :=
  s.each (List.range count) (fun s k => s.mw m F.SPK_RULE_W (12 * n + k + 1) (g (k + 1)))

theorem State.ruleWritten_succ (s : State) (m : Matcher) (n : Nat) (g : Nat → Nat) (count : Nat) :
    s.ruleWritten m n g (count + 1) = (s.ruleWritten m n g count).mw m F.SPK_RULE_W (12 * n + count + 1) (g (count + 1)) := by
  simp [State.ruleWritten, State.each, List.range_succ]

/-- A word of the rule reads as written. -/
theorem State.mq_ruleWritten (s : State) (m : Matcher) (n : Nat) (g : Nat → Nat) {k : Nat} : ∀ {count : Nat}, k < count →
    (s.ruleWritten m n g count).mq m F.SPK_RULE_W (12 * n + k + 1) = g (k + 1) % 2 ^ 40
  | 0, h => absurd h (Nat.not_lt_zero k)
  | count + 1, h => by
    rw [State.ruleWritten_succ, State.mq, State.mw]
    rcases Nat.lt_succ_iff_lt_or_eq.mp h with hk | rfl
    · rw [State.get_set_idx _ _ _ _ _ _ _ _ (by omega)]
      exact State.mq_ruleWritten s m n g hk
    · exact State.get_set_self _ _ _ _ _

theorem State.ruleWritten_only (s : State) (m : Matcher) (n : Nat) (g : Nat → Nat) : ∀ count, count ≤ 12 →
    Only ((List.range 12).map (fun k => (matcherHolder m, F.SPK_RULE_W, 12 * n + k + 1))) s (s.ruleWritten m n g count)
  | 0, _ => Only.refl _ s
  | count + 1, h => by
    rw [State.ruleWritten_succ]
    refine (State.ruleWritten_only s m n g count (by omega)).then_set ?_
    simp only [List.mem_map, List.mem_range]
    exact ⟨count, by omega, rfl⟩

/-- What writing words leaves. -/
theorem State.ruleWritten_keeps (s : State) (m : Matcher) (n : Nat) (g : Nat → Nat) (count : Nat) :
    (∀ y, (s.ruleWritten m n g count).side y = s.side y) ∧ (s.ruleWritten m n g count).mem = s.mem ∧
    (s.ruleWritten m n g count).flue = s.flue := by
  induction count with
  | zero => exact ⟨fun _ => rfl, rfl, rfl⟩
  | succ count ih =>
    obtain ⟨hside, hmem, hflue⟩ := ih
    rw [State.ruleWritten_succ, State.mw]
    simp [hside, hmem, hflue]

theorem testBit_clearBit (w b : Nat) : (clearBit w b).testBit b = false := by
  unfold clearBit
  split
  · next h =>
    rw [Nat.testBit_eq_decide_div_mod_eq, decide_eq_true_iff] at h
    have hsub : (w - 2 ^ b) / 2 ^ b = w / 2 ^ b - 1 := by simpa using Nat.sub_mul_div w (2 ^ b) 1
    rw [Nat.testBit_eq_decide_div_mod_eq, decide_eq_false_iff_not, hsub]
    omega
  · next h => simpa using h

/-- The marks of a rule with bit `b` of them `v`. -/
def markedAs (w b : Nat) (v : Bool) : Nat := if v then setBit (clearBit w b) b else clearBit w b

theorem testBit_markedAs (w b : Nat) (v : Bool) : (markedAs w b v).testBit b = v := by
  cases v
  · exact testBit_clearBit w b
  · exact testBit_setBit _ b

/-- What marking rule `n` shows and leaves. -/
structure Marked (m : Matcher) (n b : Nat) (v : Bool) (s t : State) : Prop where
  marks : (t.matcher m) = { s.matcher m with marks := Tab.put 0 (s.matcher m).marks n (markedAs (Tab.at 0 (s.matcher m).marks n) b v) }
  compared : t.mq m F.SPK_RULE_CTRL_COMPARED n = b2n (Tab.at 0 (t.matcher m).marks n == 3)
  only : Only [(matcherHolder m, F.SPK_RULE_CTRL_COMPARED, n)] s t
  srcs : ∀ y, (t.side y).srcs = (s.side y).srcs
  chromirQ : ∀ y, (t.side y).chromirQ = (s.side y).chromirQ
  mem : t.mem = s.mem

theorem State.markRule_marks (s : State) (m : Matcher) (n b : Nat) (v : Bool) : Marked m n b v s (s.markRule m n b v) := by
  obtain ⟨u, hu⟩ : ∃ u, s.setMatcher m { s.matcher m with
    marks := Tab.put 0 (s.matcher m).marks n (markedAs (Tab.at 0 (s.matcher m).marks n) b v) } = u := ⟨_, rfl⟩
  have hmark : s.markRule m n b v = u.set (matcherHolder m) F.SPK_RULE_CTRL_COMPARED n (b2n (Tab.at 0 (u.matcher m).marks n == 3)) := by
    rw [← hu]
    rfl
  rw [hmark]
  refine ⟨?_, ?_, ?_, fun y => ?_, fun y => ?_, ?_⟩
  · rw [State.matcher_set, ← hu, State.matcher_setMatcher_self]
  · rw [State.mq, State.get_set_self, State.matcher_set]
    cases Tab.at 0 (u.matcher m).marks n == 3 <;> rfl
  · refine Only.then_set (Only.of_regs ?_) (by simp)
    rw [← hu, State.regs_setMatcher]
  · rw [State.side_set, ← hu, State.srcs_setMatcher]
  · rw [State.side_set, ← hu, State.chromirQ_setMatcher]
  · rw [State.mem_set, ← hu, State.mem_setMatcher]

/-! ## The packets -/

/-- A packet on a rule that its matcher can be reached for, with the net token where it needs that one. -/
theorem State.onRule_permitted {token : Bool} (h : ruleOf j.side j.pkt.target = (m, n)) (hflue : m = .flue → s.present .flue = true)
    (hnet : token = true → m = .flue → s.holds j.side 4 = true) (f : State → Matcher → Nat → State) : s.onRule j token f = f s m n := by
  rw [State.onRule, h]
  cases m with
  | side y => rfl
  | flue =>
    have htoken : ¬ (token = true ∧ ¬ s.holds j.side 4 = true) := fun ⟨ht, hn⟩ => hn (hnet ht rfl)
    exact (if_neg (by simp [hflue rfl])).trans (if_neg htoken)

/-- What a matcher holds is not for the reply to change. -/
theorem AnsweredIn.matcher (h : AnsweredIn j u t) (m : Matcher) : t.matcher m = u.matcher m := by
  cases m with
  | side y =>
    rcases side_eq_or_eq_other y j.side with rfl | rfl
    · exact (congrArg SideSt.spark h.side :)
    · obtain ⟨-, -, -, -, -, hother, -⟩ := h.rest
      exact congrArg SideSt.spark hother
  | flue => exact congrArg FlueSt.spark h.flue

/-- Settles O19: writing a rule and enabling it each end in marking it (`Marked`); the two reads answer what stands there. -/
theorem sparkOpcodes : Obligations.SparkOpcodes := by
  unfold Obligations.SparkOpcodes
  refine ⟨fun s x j q m n h hr hflue hnet => ?_, fun s x j q m n h hr hflue hnet => ?_, fun s x j q m n h hr hflue => ?_,
    fun s x j q m n h hr hflue => ?_, fun s x j q n h hr hflue hnet => ?_⟩
  all_goals obtain ⟨-, hdown, -, -, -, hx, -⟩ := id h
  all_goals subst hx
  case refine_1 =>
    obtain ⟨u, hu⟩ : ∃ u, (s.popped j.side q).ruleWritten m n j.pkt.p 12 = u := ⟨_, rfl⟩
    obtain ⟨v, hv⟩ : ∃ v, u.setMatcher m { u.matcher m with lastFire := Tab.put 0 (u.matcher m).lastFire n 0 } = v := ⟨_, rfl⟩
    have honly := hu ▸ (s.popped j.side q).ruleWritten_only m n j.pkt.p 12 (le_refl 12)
    obtain ⟨hside, hmem, -⟩ := hu ▸ (s.popped j.side q).ruleWritten_keeps m n j.pkt.p 12
    have hmark := v.markRule_marks m n 0 j.pkt.compared
    refine acts_in (u := v.markRule m n 0 j.pkt.compared) h (by decide) rfl ?_ ?_ ?_ ?_ ?_ ?_ fun t ht => ⟨fun k hk => ?_, ?_, ?_, ?_⟩
    · rw [State.onRule_permitted hr (by simpa using hflue) (by simpa using hnet), ← hv, ← hu]
      rfl
    · rw [hmark.srcs, ← hv, State.srcs_setMatcher, hside]
    · rw [hmark.chromirQ, ← hv, State.chromirQ_setMatcher, hside]
    · refine ((honly.mono fun p hp => List.mem_cons_of_mem _ hp).then_regs ?_).trans (hmark.only.mono (by simp))
      rw [← hv, State.regs_setMatcher]
    · intro p hp
      simp only [List.mem_cons, List.mem_map] at hp
      rcases hp with rfl | ⟨k, -, rfl⟩
      · exact (by decide : F.SPK_RULE_CTRL_COMPARED.reg ≠ F.PAIR_CFG_MODE.reg)
      · exact (by decide : F.SPK_RULE_W.reg ≠ F.PAIR_CFG_MODE.reg)
    · rw [hmark.mem, ← hv, State.mem_setMatcher, hmem, State.mem_popped]
    · rw [State.ruleWord, State.mq, ht.get _ _ _ (by decide), hmark.only.get_fld (by simp; decide), ← hv, State.get_setMatcher, ← hu]
      exact State.mq_ruleWritten _ _ _ _ hk
    · rw [ht.matcher, hmark.marks, ← hv, State.matcher_setMatcher_self]
      simp only [Tab.at_put_self]
    · rw [ht.matcher, hmark.marks]
      simp only [Tab.at_put_self]
      exact testBit_markedAs _ _ _
    · rw [ht.matcher, ← hmark.compared]
      exact ht.get _ _ _ (by decide)
  case refine_2 =>
    have hrun := fun f => State.onRule_permitted (s := s.popped j.side q) (token := true) hr (by simpa using hflue) (by simpa using hnet) f
    cases hon : (j.pkt.p 1).testBit 0
    · refine acts_in (u := (s.popped j.side q).set (matcherHolder m) F.SPK_RULE_CTRL_ENABLED n 0) h (by decide) rfl ?_ (by simp) (by simp)
        (Only.set (by simp)) (by simp; decide) (by simp) fun t ht => ⟨?_, fun hn => absurd hn Bool.false_ne_true, fun _ => ⟨?_, ?_⟩⟩
      · rw [hrun, hon]
        rfl
      · rw [State.mq, ht.get _ _ _ (by decide), State.get_set_self]
        rfl
      · rw [ht.matcher, State.matcher_set, State.matcher_popped hdown]
      · rw [State.mq, ht.get _ _ _ (by decide), State.get_set_fld _ _ _ _ _ _ _ _ (by decide), State.get_popped]
        rfl
    · obtain ⟨u, hu⟩ : ∃ u, (s.popped j.side q).set (matcherHolder m) F.SPK_RULE_CTRL_ENABLED n 1 = u := ⟨_, rfl⟩
      have hmark := u.markRule_marks m n 1 j.pkt.compared
      have hside : ∀ y, u.side y = (s.popped j.side q).side y := fun y => by rw [← hu, State.side_set]
      refine acts_in (u := u.markRule m n 1 j.pkt.compared) h (by decide) rfl ?_ ?_ ?_ ?_ ?_ ?_
        fun t ht => ⟨?_, fun _ => ⟨?_, ?_⟩, fun hn => absurd hn.symm Bool.false_ne_true⟩
      · rw [hrun, hon, ← hu]
        rfl
      · rw [hmark.srcs, hside]
      · rw [hmark.chromirQ, hside]
      · rw [← hu] at hmark ⊢
        exact (Only.set (by simp)).trans (hmark.only.mono (by simp))
      · simp
        decide
      · rw [hmark.mem, ← hu, State.mem_set, State.mem_popped]
      · rw [State.mq, ht.get _ _ _ (by decide), hmark.only.get_fld (by simp; decide), ← hu, State.get_set_self]
        rfl
      · rw [ht.matcher, hmark.marks]
        simp only [Tab.at_put_self]
        exact testBit_markedAs _ _ _
      · rw [ht.matcher, ← hmark.compared]
        exact ht.get _ _ _ (by decide)
  case refine_3 =>
    refine acts_in (u := s.popped j.side q) h (by decide) rfl ?_ rfl rfl (Only.refl _ _) (by simp) (by simp) fun t ht => ?_
    · rw [State.onRule_permitted hr (by simpa using hflue) (by simp)]
      simp only [State.ruleWord, State.mq, State.get_popped]
    · rw [ht.matcher, State.matcher_popped hdown]
  case refine_4 =>
    refine acts_in (u := s.popped j.side q) h (by decide) rfl ?_ rfl rfl (Only.refl _ _) (by simp) (by simp) fun t ht => ?_
    · rw [State.onRule_permitted hr (by simpa using hflue) (by simp)]
      simp only [State.mq, State.get_popped]
    · rw [ht.matcher, State.matcher_popped hdown]
  case refine_5 =>
    refine acts_in (u := s.popped j.side q) h (by decide) rfl ?_ rfl rfl (Only.refl _ _) (by simp) (by simp) fun t ht => ?_
    · rw [State.onRule, hr]
      refine (if_neg (by simp [hflue])).trans ((if_pos ⟨rfl, by simp [hnet]⟩).trans ?_)
      rw [State.masterDetail_popped]
      rfl
    · rw [ht.flue, State.flue_popped]

end Sys2Proof.Machine
end

section
/-! Loads and checks of images (R28, R29, R87, R91, R123 to R125). -/
namespace Sys2Proof.Machine
open Sys2Proof

variable {s t u : State} {x : Side} {j : Job} {q : List Job} {w : Slot}

/-! ## An image that is read without an uncorrectable word (R28, R29) -/

/-- `u` is `s`, or `s` with one corrected error of side `x`'s memory counted. -/
def Corrected (x : Side) (s u : State) : Prop :=
  u = s ∨ ∃ f ∈ [F.TALLY_ECC_DDR_CORR, F.TALLY_ECC_SRAM_CORR], ∃ v, u = s.set (.side x) f 0 v

theorem State.engineRead_clean {init world a n : Nat} {lost corr : Option Word40} (h : copyEcc lost none a n = .clean) :
    (s.engineRead x init world a n lost corr).1 = false ∧ Corrected x s (s.engineRead x init world a n lost corr).2 := by
  have hecc : (s.eccRead x a n lost corr).1 = false ∧ Corrected x s (s.eccRead x a n lost corr).2 := by
    unfold State.eccRead
    split
    · exact ⟨rfl, .inl rfl⟩
    · dsimp only
      simp only [true_and]
      split
      · exact .inl rfl
      · refine .inr ⟨_, ?_, _, rfl⟩
        split <;> simp
  obtain ⟨hbad, hcorr⟩ := hecc
  exact ⟨hbad, by rwa [State.engineRead, hbad]⟩

section Corrected

variable (h : Corrected x s u)
include h

theorem Corrected.only : Only (eccFields x) s u := by
  rcases h with rfl | ⟨f, hf, v, rfl⟩
  · exact Only.refl _ _
  · refine Only.set ?_
    simp only [List.mem_cons, List.not_mem_nil, or_false] at hf
    rcases hf with rfl | rfl <;> simp [eccFields]

theorem Corrected.mem : u.mem = s.mem := by
  rcases h with rfl | ⟨f, hf, v, rfl⟩
  · rfl
  · exact State.mem_set _ _ _ _ _

theorem Corrected.side (y : Side) : u.side y = s.side y := by
  rcases h with rfl | ⟨f, hf, v, rfl⟩
  · rfl
  · exact State.side_set _ _ _ _ _ _

theorem Corrected.load (y : Side) (a n : Nat) : u.load y a n = s.load y a n := by
  simp only [State.load, State.byte, h.mem]

theorem Corrected.loadLE (y : Side) (a n : Nat) : u.loadLE y a n = s.loadLE y a n := by
  rw [State.loadLE, h.load, ← State.loadLE]

theorem Corrected.pointer (slot : Nat) : u.pointer x slot = s.pointer x slot := by
  simp only [State.pointer, State.byte, h.mem]

theorem Corrected.freeBank (slot : Nat) : u.freeBank x slot = s.freeBank x slot := by
  simp only [State.freeBank, h.side, h.pointer]

theorem Corrected.get {f : Fld} {i : Nat} (hf : f.reg ∉ [F.TALLY_ECC_DDR_CORR.reg, F.TALLY_ECC_SRAM_CORR.reg]) :
    u.get (.side x) f i = s.get (.side x) f i := by
  rcases h with rfl | ⟨g, hg, v, rfl⟩
  · rfl
  · refine State.get_set_fld _ _ _ _ _ _ _ _ (.inl fun e => hf ?_)
    simp only [List.mem_cons, List.not_mem_nil, or_false] at hg ⊢
    rcases hg with rfl | rfl
    · exact .inl e
    · exact .inr e

theorem Corrected.imgSigned (a kind : Nat) : u.imgSigned x a kind = s.imgSigned x a kind := by
  have hkey : ∀ k, u.keyOf x k = s.keyOf x k := fun k => by rw [State.keyOf, h.side]; rfl
  have hkeyIs : ∀ k n, u.keyIs x k n = s.keyIs x k n := fun k n => by
    simp (disch := decide) only [State.keyIs, State.is, h.get]
  have hmay : ∀ k, u.imageKey x k kind = s.imageKey x k kind := fun k => by
    simp (disch := decide) only [State.imageKey, hkeyIs, State.is, h.get]
  simp only [State.imgSigned, h.load, h.loadLE, hkey, hmay]

theorem Corrected.imgSound (a : Nat) : u.imgSound x a w = s.imgSound x a w := by
  have hlen : u.imgLength x a = s.imgLength x a := h.loadLE x _ _
  have hrecords : u.imgRecords x a = s.imgRecords x a := h.loadLE x _ _
  have hdigest : u.imgDigest x a = s.imgDigest x a := by rw [State.imgDigest, h.load, h.load, hlen, ← State.imgDigest]
  rw [State.imgSound, hlen, hrecords, hdigest]
  simp only [h.load, h.loadLE]
  rfl

theorem Corrected.imgBound (a : Nat) : u.imgBound x a = s.imgBound x a := by
  simp (disch := decide) only [State.imgBound, State.imgVersion, h.loadLE, h.side, h.get]

theorem Corrected.imgRecs (a : Nat) : u.imgRecs x a = s.imgRecs x a := by
  have hrec : u.imgRec x a = s.imgRec x a := funext fun i => by simp only [State.imgRec, h.loadLE]
  simp only [State.imgRecs, State.imgRecords, State.imgLength, h.loadLE, hrec]

theorem Corrected.imageCheck (a : Nat) : u.imageCheck x a w = s.imageCheck x a w := by
  rw [State.imageCheck, h.imgSigned, h.imgSound, h.imgBound, h.imgRecs, ← State.imageCheck]

theorem Corrected.loadFails (k : Packet) (bad : Bool) : u.loadFails x k w bad = s.loadFails x k w bad := by
  have hlen : u.imgLength x (k.p 1) = s.imgLength x (k.p 1) := h.loadLE x _ _
  rw [State.loadFails, hlen, h.imageCheck, ← State.loadFails]

end Corrected

/-! ## Banks and their pointers (R124, R441) -/

theorem slotOf_bounds {slot : Nat} (h : slotOf slot = some w) :
    pointerAddr slot < 0x80000020 ∧ 0x80100000 ≤ w.bank 0 ∧ w.bank 1 + w.size ≤ 2 ^ 40 := by
  unfold slotOf at h
  unfold pointerAddr Slot.bank
  split_ifs at h
  all_goals
    obtain rfl := Option.some.inj h
    dsimp only
    split_ifs <;> omega

theorem State.freeBank_le (s : State) (x : Side) (slot : Nat) : s.freeBank x slot ≤ 1 := by
  have hle : ∀ (p : Prop) [Decidable p], (if p then 1 else 0) ≤ 1 := fun p _ => by split <;> decide
  exact hle _

/-- A sound image is no longer than a bank of its slot (R123 check 2). -/
theorem State.length_of_imgSound {a : Nat} (h : s.imgSound x a w = true) : s.imgLength x a ≤ w.size := by
  simp only [State.imgSound, Bool.and_eq_true, decide_eq_true_eq] at h
  obtain ⟨⟨⟨-, hlen⟩, -⟩, -⟩ := h
  exact hlen.2

theorem State.imgSound_of_check {a : Nat} (h : s.imageCheck x a w = none) : s.imgSound x a w = true := by
  unfold State.imageCheck at h
  split at h
  · cases h
  · split at h
    · cases h
    · next hsound => simpa using hsound

/-- A load that passes brings an image that a bank holds. -/
theorem State.length_of_passes {k : Packet} {bad : Bool} (h : s.loadFails x k w bad = none) : s.imgLength x (k.p 1) ≤ w.size := by
  unfold State.loadFails at h
  split at h
  · cases h
  · split at h
    · cases h
    · exact State.length_of_imgSound (State.imgSound_of_check (Option.map_eq_none_iff.mp h))

/-- The pointers lie below the banks. -/
theorem State.pointer_writeBank {a slot : Nat} (h : slotOf slot = some w) (hlen : s.imgLength x a ≤ w.size) :
    (s.writeBank x a slot w).pointer x slot = s.pointer x slot := by
  obtain ⟨hptr, hlow, hhigh⟩ := slotOf_bounds h
  have hbank : w.bank (s.freeBank x slot) = w.bank 0 + s.freeBank x slot * w.size := by simp only [Slot.bank]; ring
  have hone : w.bank 1 = w.bank 0 + w.size := by simp only [Slot.bank]; ring
  have hle : s.freeBank x slot * w.size ≤ 1 * w.size := Nat.mul_le_mul_right _ (s.freeBank_le x slot)
  have hbyte : (s.writeBank x a slot w).byte x (pointerAddr slot) = s.byte x (pointerAddr slot) := by
    rw [State.writeBank, State.byte_store_of_lt, State.erase, State.byte_store_of_lt]
    · omega
    · rw [List.length_replicate]
      omega
    · omega
    · rw [State.length_load]
      omega
  rw [State.pointer, hbyte, ← State.pointer]

theorem State.store_only (l : List Spot) (y : Side) (a : Nat) (bs : List Nat) : Only l s (s.store y a bs) := by
  rw [State.store_eq]
  exact Only.of_regs rfl

theorem State.side_store (y z : Side) (a : Nat) (bs : List Nat) : (s.store y a bs).side z = s.side z := by
  rw [State.store_eq]
  cases z <;> rfl

theorem State.pointer_setPointer (s : State) (x : Side) (slot : Nat) {b : Nat} (h : b ≤ 1) :
    (s.setPointer x slot (b + 1)).pointer x slot = b + 1 := by
  have hb : b = 0 ∨ b = 1 := by omega
  rw [State.pointer, State.setPointer, State.store, State.store, State.byte_setByte, if_pos rfl]
  rcases hb with rfl | rfl <;> rfl

/-! ## A load that runs (R123, R124, R456) -/

/-- What the end of a load leaves of `s`: all but memory, entries of the log and security events. -/
structure LoadEnded (x : Side) (s t : State) : Prop where
  only : Only (logFields x) s t
  side : (t.side x).beyondNotes = (s.side x).beyondNotes

theorem LoadEnded.trans (h : LoadEnded x s t) (k : LoadEnded x t u) : LoadEnded x s u := ⟨h.only.trans k.only, k.side.trans h.side⟩

theorem State.log_ended (s : State) (x : Side) (code prod : Nat) (args : List Arg) : LoadEnded x s (s.log x code prod args) :=
  ⟨(s.log_logOnly x code prod args).1, (s.log_noted x code prod args).side⟩

theorem State.store_ended (s : State) (x y : Side) (a : Nat) (bs : List Nat) : LoadEnded x s (s.store y a bs) :=
  ⟨State.store_only _ y a bs, by rw [State.side_store]⟩

theorem State.mem_log (s : State) (x : Side) (code prod : Nat) (args : List Arg) : (s.log x code prod args).mem = s.mem :=
  (s.log_logOnly x code prod args).2.2.2.2.1

theorem State.secEvent_ended (s : State) (x : Side) (b : Nat) : LoadEnded x s (s.secEvent x b) := by
  refine ⟨?_, (s.secEvent_noted x b).side⟩
  unfold State.secEvent
  split
  · exact Only.of_regs (State.regs_setSide _ _ _)
  · exact Only.refl _ _

theorem State.writeBank_ended (s : State) (x : Side) (a slot : Nat) (w : Slot) : LoadEnded x s (s.writeBank x a slot w) :=
  (s.store_ended x x (w.bank (s.freeBank x slot)) (List.replicate w.size 0xFF)).trans (State.store_ended _ x x _ _)

theorem State.movePointer_ended (s : State) (x : Side) (slot b version : Nat) : LoadEnded x s (s.movePointer x slot b version) :=
  (s.store_ended x x (pointerAddr slot) [b + 1]).trans (State.log_ended _ x _ _ _)

theorem State.imageRejected_ended (s : State) (x : Side) (slot : Nat) (r : Nat × Option Nat) : LoadEnded x s (s.imageRejected x slot r) :=
  s.log_ended x _ _ _

/-- A load that fails a check: it is logged, a signature as a security event too. -/
theorem State.loadRun_fails {bad good : Bool} {r : Nat × Nat × Option Nat} (h : s.loadFails x j.pkt w bad = some r) :
    (s.loadRun x j w bad good).2 = ⟨j, r.1, r.2.1, []⟩ ∧ LoadEnded x s (s.loadRun x j w bad good).1 ∧
    (s.loadRun x j w bad good).1.mem = s.mem := by
  obtain ⟨status, detail, record⟩ := r
  obtain ⟨u, hu⟩ : ∃ u, s.imageRejected x j.pkt.target (status, record) = u := ⟨_, rfl⟩
  have hended := hu ▸ s.imageRejected_ended x j.pkt.target (status, record)
  have hmem : u.mem = s.mem := hu ▸ State.mem_log ..
  have hrun : s.loadRun x j w bad good = (if status = stSignature then u.secEvent x 0 else u, ⟨j, status, detail, []⟩) := by
    rw [State.loadRun, h, ← hu]
  rw [hrun]
  refine ⟨rfl, ?_⟩
  dsimp only
  split
  · obtain ⟨-, -, -, hsec, -⟩ := (u.secEvent_noted x 0).rest
    exact ⟨hended.trans (u.secEvent_ended x 0), hsec.trans hmem⟩
  · exact ⟨hended, hmem⟩

/-- A load that passes its checks, of another slot than Chromir's: the bank that was not in use is written, and the pointer moves to it when
the readback matches. -/
theorem State.loadRun_passes {bad good : Bool} (h : s.loadFails x j.pkt w bad = none) (hslot : slotOf j.pkt.target = some w) :
    (s.loadRun x j w bad good).2 = (if good then ⟨j, stOk, 0, [s.imgVersion x (j.pkt.p 1)]⟩ else ⟨j, stCheck, 0, []⟩) ∧
    LoadEnded x s (s.loadRun x j w bad good).1 ∧ (s.loadRun x j w bad good).1.pointer x j.pkt.target =
      (if good then s.freeBank x j.pkt.target + 1 else s.pointer x j.pkt.target) := by
  have hkept := State.pointer_writeBank hslot (State.length_of_passes h)
  have hended := s.writeBank_ended x (j.pkt.p 1) j.pkt.target w
  have hrun : s.loadRun x j w bad good = s.loadImage x j w good := by rw [State.loadRun, h]
  have hpointer : ∀ v z : State, z.mem = v.mem → z.pointer x j.pkt.target = v.pointer x j.pkt.target := fun v z hm => by
    simp only [State.pointer, State.byte, hm]
  rw [hrun, State.loadImage]
  obtain ⟨u, hu⟩ : ∃ u, s.writeBank x (j.pkt.p 1) j.pkt.target w = u := ⟨_, rfl⟩
  rw [hu] at hended hkept ⊢
  cases good
  · simp only [Bool.false_eq_true, if_false, true_and]
    exact ⟨hended.trans (u.imageRejected_ended x _ _), (hpointer u _ (State.mem_log ..)).trans hkept⟩
  · simp only [if_true, true_and]
    refine ⟨hended.trans (u.movePointer_ended x _ _ _), (hpointer (u.setPointer x j.pkt.target _) _ (State.mem_log ..)).trans ?_⟩
    exact State.pointer_setPointer u x _ (s.freeBank_le x j.pkt.target)

/-! ## An image with a word that its ECC finds uncorrectable (R28, log entry 110) -/

/-- What the failed read of an image leaves of `s`: all but counts and entries of the log. -/
structure ReadLost (x : Side) (s t : State) : Prop where
  side : (t.side x).beyondNotes = (s.side x).beyondNotes
  mem : t.mem = s.mem

theorem ReadLost.trans (h : ReadLost x s t) (k : ReadLost x t u) : ReadLost x s u := ⟨k.side.trans h.side, k.mem.trans h.mem⟩

theorem State.engineRead_lost {init world a n : Nat} {lost corr : Option Word40} (hn : 0 < n) (hmem : (inSram a n || inDdr a n) = true)
    (h : copyEcc lost none a n = .lost) :
    (s.engineRead x init world a n lost corr).1 = true ∧ ReadLost x s (s.engineRead x init world a n lost corr).2 := by
  have hseen : ∀ (u : State) b e, ReadLost x u (u.eccSeen x b e) := fun u b e => by
    cases e with
    | clean => exact ⟨rfl, rfl⟩
    | corrected => exact ⟨by rw [State.eccSeen, State.side_inc], State.mem_set _ _ _ _ _⟩
    | lost =>
      have hlog := State.log_noted (u.inc (.side x) (if inDdr b 1 then F.TALLY_ECC_DDR_UNCORR else F.TALLY_ECC_SRAM_UNCORR) 0) x 0x002 0
        [.wide b]
      exact ⟨hlog.side.trans (by rw [State.side_inc]), (State.mem_log ..).trans (State.mem_set _ _ _ _ _)⟩
  have hecc : (s.eccRead x a n lost corr).1 = true ∧ ReadLost x s (s.eccRead x a n lost corr).2 := by
    have hrange : ¬ (n = 0 ∨ ¬ (inSram a n || inDdr a n) = true) := by simp [hmem, Nat.pos_iff_ne_zero.mp hn]
    have hlost : ¬ copyEcc lost none a n = .clean := by rw [h]; decide
    rw [State.eccRead, if_neg hrange]
    simp only [if_neg hlost, true_and]
    split
    · exact hseen s _ _
    · exact (hseen s _ _).trans (hseen _ _ _)
  obtain ⟨hbad, hread⟩ := hecc
  have hfault := State.logFault_noted (s.eccRead x a n lost corr).2 x 0 7 init world 8 false a
  rw [State.engineRead, hbad, if_pos rfl]
  exact ⟨rfl, hread.trans ⟨hfault.side, hfault.rest.2.2.2.1⟩⟩

/-! ## The replacement of Chromir (R87) -/

/-- What BUSY_UPDATE to packets leaves of `s`. -/
structure BusyAnswered (x : Side) (s t : State) : Prop where
  get : ∀ f, f.reg = F.STOKER_STATE_UPDATING.reg → t.get (.side x) f 0 = s.get (.side x) f 0
  side : (t.side x).beyondReplies = (s.side x).beyondReplies
  mem : t.mem = s.mem

theorem State.answer_busy (s : State) (x : Side) (k : Job) :
    BusyAnswered x s ((s.inc (.side x) F.STOKER_BUSY_UPDATE_COUNT 0).answer k stBusy 0 []) := by
  obtain ⟨u, hu⟩ : ∃ u, s.inc (.side x) F.STOKER_BUSY_UPDATE_COUNT 0 = u := ⟨_, rfl⟩
  have hcount : ∀ f, f.reg = F.STOKER_STATE_UPDATING.reg → u.get (.side x) f 0 = s.get (.side x) f 0 := fun f hf =>
    hu ▸ State.get_set_fld _ _ _ _ _ _ _ _ (.inl (by rw [hf]; decide))
  have hside : u.side x = s.side x := hu ▸ State.side_inc _ _ _ _ _
  have hanswer := u.answer_delivered k stBusy 0 []
  rw [hu]
  refine ⟨fun f hf => (hanswer.get _ _ _ (by rw [hf]; decide)).trans (hcount f hf), ?_, ?_⟩
  · rw [← hside]
    rcases side_eq_or_eq_other x k.side with rfl | rfl
    · exact hanswer.side
    · obtain ⟨-, -, -, -, -, hother, -⟩ := hanswer.rest
      rw [hother]
  · obtain ⟨-, -, -, hmem, -⟩ := hanswer.rest
    rw [hmem, ← hu]
    exact State.mem_set _ _ _ _ _

/-- Every packet that waits for Chromir is answered, but for the load that replaces it. -/
theorem State.busyAll_busy (s : State) (x : Side) (j : Job) :
    BusyAnswered x (s.setSide x { s.side x with chromirQ := [], longQ := (s.side x).longQ.filter (fun k => k = j) }) (s.busyAll x j) := by
  unfold State.busyAll
  refine State.each_keeps (fun u k hu => ?_) _ ⟨fun _ _ => rfl, rfl, rfl⟩
  obtain ⟨hget, hside, hmem⟩ := u.answer_busy x k
  exact ⟨fun f hf => (hget f hf).trans (hu.get f hf), hside.trans hu.side, hmem.trans hu.mem⟩

/-- What stands when the replacement of Chromir by the load `j` has begun. -/
structure Replacing (x : Side) (j : Job) (s t : State) : Prop where
  longQ : (t.side x).longQ = (s.side x).longQ.filter (fun k => k = j)
  longReply : (t.side x).longReply = (s.side x).longReply
  down : (t.side x).chromirDown = true
  chromirQ : (t.side x).chromirQ = []
  updating : t.get (.side x) F.STOKER_STATE_UPDATING 0 = 1
  notReady : t.get (.side x) F.STOKER_STATE_CHROMIR_READY 0 = 0
  pointer : t.pointer x 0x200 = s.pointer x 0x200

theorem State.chromirUpdate_replacing (hslot : slotOf 0x200 = some w) (hlen : s.imgLength x (j.pkt.p 1) ≤ w.size) :
    Replacing x j s (s.chromirUpdate x j w) := by
  have hkept := State.pointer_writeBank hslot hlen
  have hwrite := (s.writeBank_ended x (j.pkt.p 1) 0x200 w).side
  obtain ⟨u, hu⟩ : ∃ u, s.writeBank x (j.pkt.p 1) 0x200 w = u := ⟨_, rfl⟩
  rw [hu] at hkept hwrite
  obtain ⟨v, hv⟩ : ∃ v, ((u.setSide x { u.side x with chromirDown := true, chromirDownAt := u.now }).set (.side x) F.STOKER_STATE_UPDATING 0
    1).set (.side x) F.STOKER_STATE_CHROMIR_READY 0 0 = v := ⟨_, rfl⟩
  have hrun : s.chromirUpdate x j w = v.busyAll x j := by rw [State.chromirUpdate, hu, ← hv]
  obtain ⟨hget, hside, hmem⟩ := hrun ▸ v.busyAll_busy x j
  have hsidev : v.side x = { u.side x with chromirDown := true, chromirDownAt := u.now } := by
    rw [← hv, State.side_set, State.side_set, State.side_setSide_self]
  rw [State.side_setSide_self, hsidev] at hside
  have hmemv : v.mem = u.mem := by rw [← hv, State.mem_set, State.mem_set, State.mem_setSide]
  refine ⟨?_, ?_, (congrArg SideSt.chromirDown hside :), (congrArg SideSt.chromirQ hside :), ?_, ?_, ?_⟩
  · exact (congrArg SideSt.longQ hside :).trans (congrArg (fun z : SideSt => z.longQ.filter (fun k => k = j)) hwrite :)
  · exact (congrArg SideSt.longReply hside :).trans (congrArg SideSt.longReply hwrite :)
  · rw [hget _ rfl, State.get_setSide, ← hv, State.get_set_fld _ _ _ _ _ _ _ _ (by decide), State.get_set_self]
    rfl
  · rw [hget _ (by decide), State.get_setSide, ← hv, State.get_set_self]
    rfl
  · rw [← hkept, State.pointer, State.byte, hmem, State.mem_setSide, hmemv]
    rfl

/-! ## The packets -/

/-- The first long operation runs, and its reply waits for its completion (R82). -/
theorem State.long_head {code : Nat} (f : State → Job → State × Reply) (h : s.LongHead x code j q) :
    s.long x code f = (f s j).1.setSide x { (f s j).1.side x with longReply := some (f s j).2 } := by
  obtain ⟨hup, hdown, hq, hcode, hreply, hclear, -⟩ := h
  rw [State.long, hq]
  exact if_pos ⟨hup, by simp [hdown], hcode, hreply, hclear⟩

/-- A load that no locked line holds up. -/
theorem exec_cfgImageLoad_head {good : Bool} {lost corr : Option Word40} (h : s.LongHead x 0x105 j q) (hslot : slotOf j.pkt.target = some w)
    (hfree : s.engineWaits x (j.pkt.p 1) (j.pkt.p 2) = false) :
    exec (.cfgImageLoad x good lost corr) s =
      let r := s.engineRead x 9 j.pkt.world (j.pkt.p 1) (j.pkt.p 2) lost corr
      if j.pkt.target = 0x200 ∧ r.2.loadFails x j.pkt w r.1 = none ∧ good = true then .next (r.2.chromirUpdate x j w)
      else .next ((r.2.loadRun x j w r.1 good).1.setSide x { (r.2.loadRun x j w r.1 good).1.side x with
        longReply := some (r.2.loadRun x j w r.1 good).2 }) := by
  have hlong := fun f => s.long_head f h
  obtain ⟨hup, hdown, hq, hcode, hreply, -, -⟩ := h
  change execCfgImageLoad x good lost corr s = _
  have hidle : (s.up x && !(s.side x).chromirDown && j.pkt.code == 0x105 && (s.side x).longReply.isNone) = true := by
    simp [hup, hdown, hcode, hreply]
  simp only [execCfgImageLoad, hq, hslot, hidle, hfree, hlong, ok, if_true, Bool.false_eq_true, and_false, if_false]

/-- The reply of a load waits; beside it stand what the load has ended with. -/
structure LoadWaits (x : Side) (s : State) (reply : Reply) (l : List Spot) (t : State) : Prop where
  longQ : (t.side x).longQ = (s.side x).longQ
  longReply : (t.side x).longReply = some reply
  only : Only l s t

/-- A load that fails a check waits with the status of that check (R123). -/
theorem Corrected.loadRun_fails {bad good : Bool} {r : Nat × Nat × Option Nat} (h : Corrected x s u)
    (hfail : s.loadFails x j.pkt w bad = some r) :
    let p := u.loadRun x j w bad good
    let t := p.1.setSide x { p.1.side x with longReply := some p.2 }
    LoadWaits x s ⟨j, r.1, r.2.1, []⟩ (logFields x ++ eccFields x) t ∧ t.mem = s.mem := by
  obtain ⟨hreply, hended, hmem⟩ := State.loadRun_fails (s := u) (j := j) (w := w) (good := good) ((h.loadFails j.pkt bad).trans hfail)
  dsimp only
  rw [hreply]
  refine ⟨⟨?_, by simp, ?_⟩, ?_⟩
  · rw [State.side_setSide_self, ← h.side]
    exact (congrArg SideSt.longQ hended.side :)
  · exact ((h.only.mono fun p hp => List.mem_append_right _ hp).trans (hended.only.mono fun p hp => List.mem_append_left _ hp)).then_regs
      (State.regs_setSide _ _ _)
  · rw [State.mem_setSide, hmem, h.mem]

/-- A load that passes its checks waits with OK or, after a bad readback, with CHECK_FAILED (R124). -/
theorem Corrected.loadRun_passes {bad good : Bool} (h : Corrected x s u) (hpass : s.loadFails x j.pkt w bad = none)
    (hslot : slotOf j.pkt.target = some w) :
    let p := u.loadRun x j w bad good
    let t := p.1.setSide x { p.1.side x with longReply := some p.2 }
    LoadWaits x s (if good then ⟨j, stOk, 0, [s.imgVersion x (j.pkt.p 1)]⟩ else ⟨j, stCheck, 0, []⟩) (logFields x ++ eccFields x) t ∧
    t.pointer x j.pkt.target = (if good then s.freeBank x j.pkt.target + 1 else s.pointer x j.pkt.target) := by
  obtain ⟨hreply, hended, hpointer⟩ := State.loadRun_passes (s := u) (j := j) (w := w) (good := good)
    ((h.loadFails j.pkt bad).trans hpass) hslot
  have hversion : u.imgVersion x (j.pkt.p 1) = s.imgVersion x (j.pkt.p 1) := h.loadLE x _ _
  rw [hversion] at hreply
  rw [h.freeBank, h.pointer] at hpointer
  dsimp only
  rw [hreply, ← hpointer]
  refine ⟨⟨?_, by simp, ?_⟩, ?_⟩
  · rw [State.side_setSide_self, ← h.side]
    exact (congrArg SideSt.longQ hended.side :)
  · exact ((h.only.mono fun p hp => List.mem_append_right _ hp).trans (hended.only.mono fun p hp => List.mem_append_left _ hp)).then_regs
      (State.regs_setSide _ _ _)
  · rw [State.pointer, State.byte_setSide, ← State.pointer]

theorem State.pointer_of_mem (h : t.mem = s.mem) (slot : Nat) : t.pointer x slot = s.pointer x slot := by
  simp only [State.pointer, State.byte, h]

/-- Settles O11: the read of the image leaves what the checks look at (`Corrected`), and pointers lie below every bank
(`State.pointer_writeBank`), so the load's end shows in its reply and its pointer (`LoadWaits`, `Replacing`). -/
theorem imageOperations : Obligations.ImageOperations := by
  unfold Obligations.ImageOperations
  refine ⟨fun s x j q w g lo co hslot h hother hclean => ?_, fun s x j q w lo co hslot h hchromir hq hclean => ?_,
    fun s x j q w g lo co hslot h hlost => ?_, fun s x j q w hslot h => ?_⟩
  case refine_1 =>
    obtain ⟨hfree, hecc⟩ := hclean
    obtain ⟨hbad, hread⟩ := State.engineRead_clean (s := s) (x := x) (init := 9) (world := j.pkt.world) (a := j.pkt.p 1) (n := j.pkt.p 2)
      (corr := co) hecc
    have hexec := exec_cfgImageLoad_head (good := g) (lost := lo) (corr := co) h hslot hfree
    obtain ⟨-, -, hqueue, -⟩ := h
    dsimp only at hexec
    rw [if_neg (fun hc => hother hc.1), hbad] at hexec
    refine ⟨_, hexec, ?_⟩
    cases hfail : s.loadFails x j.pkt w false with
    | some r =>
      obtain ⟨⟨hlong, hreply, honly⟩, hmem⟩ := hread.loadRun_fails (good := g) hfail
      refine ⟨hlong.trans hqueue, fun _ => ⟨hreply, State.pointer_of_mem hmem _, fun y a => by simp only [State.byte, hmem]⟩, ?_, ?_, honly⟩
      · exact fun hc => absurd hc.1 (by simp)
      · exact fun hc => absurd hc.1 (by simp)
    | none =>
      obtain ⟨⟨hlong, hreply, honly⟩, hpointer⟩ := hread.loadRun_passes (good := g) hfail hslot
      refine ⟨hlong.trans hqueue, fun hc => absurd hc (by simp), ?_, ?_, honly⟩
      · rintro ⟨-, rfl⟩
        exact ⟨hreply, hpointer⟩
      · rintro ⟨-, rfl⟩
        exact ⟨hreply, hpointer⟩
  case refine_2 =>
    obtain ⟨hfree, hecc⟩ := hclean
    obtain ⟨hbad, hread⟩ := State.engineRead_clean (s := s) (x := x) (init := 9) (world := j.pkt.world) (a := j.pkt.p 1) (n := j.pkt.p 2)
      (corr := co) hecc
    have hexec := exec_cfgImageLoad_head (good := true) (lost := lo) (corr := co) h hslot hfree
    obtain ⟨-, -, hqueue, -, hwaits, -⟩ := h
    subst hq
    dsimp only at hexec
    rw [hbad, hread.loadFails] at hexec
    cases hfail : s.loadFails x j.pkt w false with
    | some r =>
      rw [hfail, if_neg (by simp)] at hexec
      obtain ⟨⟨hlong, hreply, -⟩, hmem⟩ := hread.loadRun_fails (good := true) hfail
      refine ⟨_, hexec, hlong.trans hqueue, fun _ => ⟨hreply, State.pointer_of_mem hmem _, fun y a => by simp only [State.byte, hmem]⟩, ?_⟩
      exact fun hc => absurd hc (by simp)
    | none =>
      rw [hfail, if_pos ⟨hchromir, rfl, rfl⟩] at hexec
      have hlen : (s.engineRead x 9 j.pkt.world (j.pkt.p 1) (j.pkt.p 2) lo co).2.imgLength x (j.pkt.p 1) ≤ w.size :=
        (hread.loadLE x _ _).trans_le (State.length_of_passes hfail)
      obtain ⟨hlong, hreply, hdown, hempty, hupd, hready, hpointer⟩ := State.chromirUpdate_replacing (j := j) (hchromir ▸ hslot) hlen
      refine ⟨_, hexec, ?_, fun hc => absurd hc (by simp), fun _ => ⟨?_, hdown, hempty, hupd, hready, hpointer.trans (hread.pointer _)⟩⟩
      · rw [hlong, hread.side, hqueue]
        simp
      · rw [hreply, hread.side, hwaits]
  case refine_3 =>
    obtain ⟨hfree, hn, hmem, hecc⟩ := hlost
    obtain ⟨hbad, hread⟩ := State.engineRead_lost (s := s) (x := x) (init := 9) (world := j.pkt.world) (corr := co) hn hmem hecc
    have hexec := exec_cfgImageLoad_head (good := g) (lost := lo) (corr := co) h hslot hfree
    obtain ⟨u, hu⟩ : ∃ u, (s.engineRead x 9 j.pkt.world (j.pkt.p 1) (j.pkt.p 2) lo co).2 = u := ⟨_, rfl⟩
    have hfail : u.loadFails x j.pkt w true = some (stCheck, 0, none) := rfl
    obtain ⟨hreply, -, hkept⟩ := State.loadRun_fails (good := g) hfail
    dsimp only at hexec
    rw [hbad, hu, hfail, if_neg (by simp), hreply] at hexec
    have hall : ((u.loadRun x j w true g).1.setSide x { (u.loadRun x j w true g).1.side x with longReply := some ⟨j, stCheck, 0, []⟩ }).mem =
        s.mem := by rw [State.mem_setSide, hkept, ← hu, hread.mem]
    refine ⟨_, hexec, by simp, State.pointer_of_mem hall _, fun y a => by simp only [State.byte, hall]⟩
  case refine_4 =>
    obtain ⟨v, hv⟩ : ∃ v, s.imgVersion x (w.bank (s.pointer x j.pkt.target - 1)) = v := ⟨_, rfl⟩
    have hexec : exec (.cfgImageVerify x) s = ok (s.long x 0x106 _) := rfl
    rw [s.long_head _ h] at hexec
    obtain ⟨-, -, hqueue, -⟩ := h
    cases hcheck : s.imageCheck x (w.bank (s.pointer x j.pkt.target - 1)) w with
    | none =>
      simp only [hslot, hcheck, hv] at hexec
      have hmem := State.mem_setSide (s := s) x { s.side x with longReply := some ⟨j, stOk, 0, [v]⟩ }
      refine ⟨_, hexec, ?_, ?_, fun _ => Only.of_regs (State.regs_setSide _ _ _), State.pointer_of_mem hmem _,
        fun y a => by simp only [State.byte, hmem]⟩
      · rw [State.side_setSide_self, hqueue]
      · rw [State.side_setSide_self, hv]
        rfl
    | some r =>
      simp only [hslot, hcheck, hv] at hexec
      have hside := (s.imageRejected_ended x j.pkt.target r).side
      obtain ⟨u, hu⟩ : ∃ u, s.imageRejected x j.pkt.target r = u := ⟨_, rfl⟩
      have hkept : u.mem = s.mem := hu ▸ State.mem_log ..
      rw [hu] at hside hexec
      have hmem := (State.mem_setSide (s := u) x { u.side x with longReply := some ⟨j, r.1, 0, [v]⟩ }).trans hkept
      refine ⟨_, hexec, ?_, ?_, fun hc => absurd hc (by simp), State.pointer_of_mem hmem _, fun y a => by simp only [State.byte, hmem]⟩
      · rw [State.side_setSide_self]
        exact (congrArg SideSt.longQ hside :).trans hqueue
      · rw [State.side_setSide_self, hv]
        rfl

end Sys2Proof.Machine
end

section
/-! What goes on while the cores of a side stop, a locked line comes free, or a frame enters the switch leaves of the power state: SYS_STATE_SET
and the end of its delay (R89, R140, R148, R152). -/
namespace Sys2Proof.Machine
open Sys2Proof

variable {s t u : State} {x : Side}

/-! ## The Ember's part of the state -/

/-- What the work of a side's units leaves: time, the Ember's record and the power state and its request, the dies, the channels, and whether the
cores of each side run. -/
structure Hearth where
  now : Nat
  ember : EmberSt
  dies : Tab DieSt
  chans : Tab Chan
  power : Nat
  asked : Nat
  cores : Bool × Bool

def State.hearth (s : State) : Hearth :=
  ⟨s.now, s.ember, s.dies, s.chans, s.powerState, s.get .ember F.EMBER_STATE_PENDING 0, (s.sa.cores, s.sb.cores)⟩

theorem State.cores_eq_of_hearth (h : t.hearth = s.hearth) : ∀ y, (t.side y).cores = (s.side y).cores
  | .a => congrArg (fun k : Hearth => k.cores.1) h
  | .b => congrArg (fun k : Hearth => k.cores.2) h

@[simp] theorem State.hearth_set (h : Holder) (f : Fld) (i v : Nat) (hh : h.code ≠ Holder.ember.code) :
    (s.set h f i v).hearth = s.hearth := by
  unfold State.hearth State.powerState
  rw [State.get_set_holder _ h .ember f _ i 0 v hh.symm, State.get_set_holder _ h .ember f _ i 0 v hh.symm]
  rfl

@[simp] theorem Holder.code_side_ne_ember (x : Side) : (Holder.side x).code ≠ Holder.ember.code := by cases x <;> decide

@[simp] theorem Holder.code_flue_ne_ember : Holder.flue.code ≠ Holder.ember.code := by decide

@[simp] theorem State.hearth_add (h : Holder) (f : Fld) (i n : Nat) (hh : h.code ≠ Holder.ember.code) : (s.add h f i n).hearth = s.hearth :=
  State.hearth_set h f i _ hh

@[simp] theorem State.hearth_inc (h : Holder) (f : Fld) (i : Nat) (hh : h.code ≠ Holder.ember.code) : (s.inc h f i).hearth = s.hearth :=
  State.hearth_set h f i _ hh

@[simp] theorem State.hearth_setSide (x : Side) (v : SideSt) (hv : v.cores = (s.side x).cores) : (s.setSide x v).hearth = s.hearth := by
  cases x <;> exact congrArg (fun c => (⟨_, _, _, _, _, _, c⟩ : Hearth)) (by rw [State.setSide, hv]; rfl)

theorem State.hearth_flue (s : State) (v : FlueSt) : { s with flue := v }.hearth = s.hearth := rfl

theorem State.hearth_mem (s : State) (m : List Host.Cell) : { s with mem := m }.hearth = s.hearth := rfl

theorem State.hearth_resp (s : State) (r : Resp) : { s with resp := r }.hearth = s.hearth := rfl

@[simp] theorem State.hearth_setHart (x : Side) (h : Nat) (v : Hart) : (s.setHart x h v).hearth = s.hearth := State.hearth_setSide x _ rfl

@[simp] theorem State.hearth_setBridge (x : Side) (i : Nat) (v : Bridge) : (s.setBridge x i v).hearth = s.hearth := State.hearth_setSide x _ rfl

@[simp] theorem State.hearth_setSrc (x : Side) (i : Nat) (v : Src) : (s.setSrc x i v).hearth = s.hearth := State.hearth_setSide x _ rfl

@[simp] theorem State.hearth_intr (x : Side) (n : Nat) : (s.intr x n).hearth = s.hearth := by
  unfold State.intr
  split
  · exact State.hearth_set _ _ _ _ (by simp)
  · rfl

theorem State.hearth_each {α : Type} {f : State → α → State} (hf : ∀ s a, (f s a).hearth = s.hearth) (l : List α) (s : State) :
    (s.each l f).hearth = s.hearth :=
  State.each_keeps (P := fun t => t.hearth = s.hearth) (fun _ a h => (hf _ a).trans h) l rfl

theorem State.hearth_iter {f : State → State} (hf : ∀ s, (f s).hearth = s.hearth) : ∀ n s, (iter f n s).hearth = s.hearth
  | 0, _ => rfl
  | n + 1, s => (State.hearth_iter hf n (f s)).trans (hf s)

/-! ## The log, memory and what waits for it (R28, R302, R426) -/

theorem Noted.hearth (h : Noted x s t) : t.hearth = s.hearth := by
  obtain ⟨hnow, -, -, -, hember, hother, -, hdies, hchans, -⟩ := h.rest
  have hcores : (t.sa.cores, t.sb.cores) = (s.sa.cores, s.sb.cores) := by
    have hself : (t.side x).cores = (s.side x).cores := congrArg (fun v => v.cores) h.side
    cases x <;> exact Prod.ext (by simp_all [State.side, Side.other]) (by simp_all [State.side, Side.other])
  simp only [State.hearth, State.powerState, hnow, hember, hdies, hchans, hcores, h.get .ember F.EMBER_STATE_STATE 0 (by decide),
    h.get .ember F.EMBER_STATE_PENDING 0 (by decide)]

@[simp] theorem State.hearth_log (x : Side) (code prod : Nat) (args : List Arg) : (s.log x code prod args).hearth = s.hearth :=
  (s.log_noted x code prod args).hearth

@[simp] theorem State.hearth_logFault (x : Side) (prod cause init world size : Nat) (write : Bool) (addr : Nat) :
    (s.logFault x prod cause init world size write addr).hearth = s.hearth :=
  (s.logFault_noted x prod cause init world size write addr).hearth

@[simp] theorem State.hearth_wotViolation (x : Side) (init w k a : Nat) : (s.wotViolation x init w k a).hearth = s.hearth :=
  (s.wotViolation_noted x init w k a).hearth

@[simp] theorem State.hearth_eccSeen (x : Side) (a : Nat) (e : Ecc) : (s.eccSeen x a e).hearth = s.hearth := by
  cases e <;> simp [State.eccSeen]

@[simp] theorem State.hearth_eccRead (x : Side) (a n : Nat) (lost corr : Option Word40) : (s.eccRead x a n lost corr).2.hearth = s.hearth := by
  unfold State.eccRead
  dsimp only
  repeat' split
  all_goals simp

@[simp] theorem State.hearth_store (x : Side) (bs : List Nat) : ∀ (s : State) (a : Nat), (s.store x a bs).hearth = s.hearth := by
  induction bs with
  | nil => exact fun _ _ => rfl
  | cons b l ih =>
    intro s a
    rw [State.store, ih]
    exact State.hearth_mem s _

@[simp] theorem State.hearth_unreserve (x : Side) (a n : Nat) : (s.unreserve x a n).hearth = s.hearth := by
  refine State.hearth_each (fun s h => ?_) _ s
  repeat' split
  all_goals simp

@[simp] theorem State.hearth_write (x : Side) (a : Nat) (bs : List Nat) : (s.write x a bs).hearth = s.hearth := by
  simp [State.write, State.touch]

@[simp] theorem State.hearth_reserveLine (x : Side) (o : Origin) (r : Option Nat) : (s.reserveLine x o r).hearth = s.hearth := by
  unfold State.reserveLine
  split <;> simp

theorem State.hearth_accessFault (x : Side) (o : Origin) (write : Bool) (a : Nat) : (s.accessFault x o write a).hearth = s.hearth := by
  unfold State.accessFault State.exception
  split <;> simp

@[simp] theorem State.hearth_busError (x : Side) (o : Origin) (cause size : Nat) (write : Bool) (a : Nat) :
    (s.busError x o cause size write a).hearth = s.hearth := by
  unfold State.busError
  dsimp only
  split <;> simp [State.hearth_accessFault, State.hearth_resp]

@[simp] theorem State.hearth_memRead (x : Side) (o : Origin) (a size : Nat) (e : Ecc) (write : Bool) :
    (s.memRead x o a size e write).hearth = s.hearth := by
  unfold State.memRead
  dsimp only
  split
  · simp
  · exact State.hearth_eccSeen x a e

@[simp] theorem State.hearth_memAccess (x : Side) (o : Origin) (a size : Nat) (k : AccKind) (v : Nat) :
    (s.memAccess x o a size k v).hearth = s.hearth := by
  cases k <;> unfold State.memAccess <;> dsimp only
  case sc =>
    split
    · exact (State.hearth_write _ _ _).trans (State.hearth_reserveLine x o none)
    · exact State.hearth_reserveLine x o none
  case lr => split <;> simp
  case amo => split <;> simp
  all_goals simp

@[simp] theorem State.hearth_runWaits (x : Side) : (s.runWaits x).hearth = s.hearth :=
  (State.hearth_each (fun _ _ => State.hearth_memAccess _ _ _ _ _ _) _ _).trans (State.hearth_setSide x _ rfl)

@[simp] theorem State.hearth_dropWaits (x : Side) (h : Nat) : (s.dropWaits x h).hearth = s.hearth :=
  (State.hearth_each (fun _ _ => State.hearth_setBridge _ _ _) _ _).trans (State.hearth_setSide x _ rfl)

/-! ## A frame in the switch (R333 to R356) -/

@[simp] theorem State.hearth_cnt (p k n : Nat) : (s.cnt p k n).hearth = s.hearth := State.hearth_add _ _ _ _ (by simp)

@[simp] theorem State.hearth_flueEvt (f : Fld) : (s.flueEvt f).hearth = s.hearth :=
  (State.hearth_flue _ _).trans (State.hearth_set .flue f 0 1 (by simp))

@[simp] theorem State.hearth_drawCells (want : List (Nat × Nat)) : (s.drawCells want).hearth = s.hearth := by
  have hgrant : ∀ s : State, (s.grantCells want).hearth = s.hearth := fun s =>
    State.hearth_each (f := fun s p => s.setArriving p (s.drawCell p)) (fun s _ => State.hearth_flue s _) _ s
  unfold State.drawCells
  exact State.hearth_iter hgrant _ s

theorem State.hearth_validate {p : Nat} {raw b : List Nat} (h : s.validate p raw = .ok (b, t)) : t.hearth = s.hearth := by
  unfold State.validate at h
  dsimp only at h
  repeat' split at h
  all_goals cases h
  all_goals simp [State.setSaPn]

@[simp] theorem State.hearth_learn (p : Nat) (c : Classified) : (s.learn p c).hearth = s.hearth := by
  unfold State.learn
  dsimp only
  split
  · rfl
  · split
    · split <;> rfl
    · split
      · exact State.hearth_set _ _ _ _ (by simp)
      · split <;> simp [State.logBoth]

@[simp] theorem State.hearth_meter (f inCol len : Nat) : (s.meter f inCol len).2.hearth = s.hearth :=
  State.hearth_inc _ _ _ (by simp)

@[simp] theorem State.hearth_recover (n : Nat) (seq : Option Nat) : (s.recover n seq).2.hearth = s.hearth := by
  unfold State.recover
  dsimp only
  repeat' split
  all_goals simp [State.hearth_flue]

@[simp] theorem State.hearth_streams (p : Nat) (c : Classified) (filter : Option Nat) : (s.streams p c filter).2.hearth = s.hearth := by
  unfold State.streams
  dsimp only
  repeat' split
  all_goals simp

@[simp] theorem State.hearth_offer (p n : Nat) (q : QFrame) (count : Bool) : (s.offer p n q count).2.hearth = s.hearth := by
  have hwred : (s.wred p n q.colour).2.hearth = s.hearth := rfl
  unfold State.offer
  dsimp only
  repeat' split
  all_goals simp [hwred]
  all_goals exact hwred

@[simp] theorem State.hearth_mirrorCopy (m : Nat) (q : QFrame) : (s.mirrorCopy m q).hearth = s.hearth := by
  unfold State.mirrorCopy
  dsimp only
  repeat' split
  all_goals simp [State.hearth_flue]

@[simp] theorem State.hearth_mirrorIngress (p : Nat) (filter : Option Nat) (q : QFrame) : (s.mirrorIngress p filter q).hearth = s.hearth := by
  refine State.hearth_each (fun s m => ?_) _ s
  dsimp only
  repeat' split
  all_goals simp

@[simp] theorem State.hearth_forward (db : List FdbEntry) (p id : Nat) (c : Classified) (filter : Option Nat) :
    (s.forward db p id c filter).hearth = s.hearth := by
  have hcopies : ∀ (u : State) (l : List Nat) (n : Nat) (q : QFrame), (u.each l (fun s e => (s.offer e n q true).2)).hearth = u.hearth :=
    fun u l _ _ => State.hearth_each (fun _ _ => State.hearth_offer _ _ _ _) l u
  have hstreams := s.hearth_streams p c filter
  unfold State.forward
  dsimp only
  split
  · simp
  · split
    · simp
    · split <;> rename_i hs <;> rw [hs] at hstreams
      · exact hstreams
      · refine Eq.trans ?_ hstreams
        repeat' split
        all_goals simp [hcopies]

theorem State.hearth_takeCells_inl {p id : Nat} (h : s.takeCells p = .inl (id, t)) : t.hearth = s.hearth := by
  unfold State.takeCells at h
  dsimp only at h
  split at h <;> cases h
  rfl

theorem State.hearth_takeCells_inr {p k : Nat} (h : s.takeCells p = .inr (k, t)) : t.hearth = s.hearth := by
  unfold State.takeCells at h
  dsimp only at h
  split at h <;> cases h
  rfl

@[simp] theorem State.hearth_receive (db : List FdbEntry) (p : Nat) (raw : List Nat) (good : Bool) :
    (s.receive db p raw good).hearth = s.hearth := by
  unfold State.receive
  dsimp only
  split
  · rename_i htake
    exact (State.hearth_cnt _ _ _).trans (State.hearth_takeCells_inr htake)
  · rename_i u htake
    refine ((State.hearth_flue _ _).trans ?_).trans (State.hearth_takeCells_inl htake)
    split
    · simp
    · split
      · simp
      · split
        · simp
        · rename_i v hplain
          have hvalid : v.hearth = u.hearth := by
            split at hplain
            · exact State.hearth_validate hplain
            · cases hplain
              rfl
          split <;> simp [hvalid]

/-! ## The side's frame interface and its locked lines (R330, R302) -/

@[simp] theorem State.hearth_netifDone (x : Side) : (s.netifDone x).hearth = s.hearth := State.hearth_intr _ _

@[simp] theorem State.hearth_netifStop (x : Side) (cause a : Nat) (write : Bool) : (s.netifStop x cause a write).hearth = s.hearth := by
  unfold State.netifStop
  dsimp only
  split <;> simp

@[simp] theorem State.hearth_netifRead (x : Side) (a n : Nat) (lost corr : Option Word40) :
    (s.netifRead x a n lost corr).2.hearth = s.hearth := by
  unfold State.netifRead
  dsimp only
  split <;> simp

@[simp] theorem State.hearth_netifFrame (x : Side) (buf n : Nat) : (s.netifFrame x buf n).hearth = s.hearth := by
  unfold State.netifFrame
  dsimp only
  repeat' split
  all_goals simp

@[simp] theorem State.hearth_netifReturn (x : Side) (a i : Nat) (bad : Bool) : (s.netifReturn x a i bad).hearth = s.hearth := by
  unfold State.netifReturn
  dsimp only
  split <;> simp

@[simp] theorem State.hearth_netifSend (x : Side) (lost corr : Option Word40) :
    ∀ (k i : Nat) (s : State), (s.netifSend x lost corr i k).hearth = s.hearth
  | 0, _, _ => rfl
  | k + 1, i, s => by
    have ih := State.hearth_netifSend x lost corr k
    unfold State.netifSend
    dsimp only
    repeat' split
    all_goals simp [ih]

@[simp] theorem State.hearth_netifResume (x : Side) : (s.netifResume x).hearth = s.hearth := by
  unfold State.netifResume State.netifRun
  repeat' split
  all_goals simp

@[simp] theorem State.hearth_tallyResume (x : Side) : (s.tallyResume x).hearth = s.hearth := by
  unfold State.tallyResume State.bankWrite
  repeat' split
  all_goals simp

theorem State.hearth_keepLocks (x : Side) (keep : LineLock → Bool) : (s.keepLocks x keep).hearth = s.hearth := by
  simp [State.keepLocks, State.unlocked]

/-! ## The cores, the safety pair and the doors stop (R140) -/

@[simp] theorem State.hearth_breakLock (x : Side) (h : Nat) : (s.breakLock x h).hearth = s.hearth := by
  unfold State.breakLock
  dsimp only
  split
  · rw [State.hearth_keepLocks]
    simp
  · rfl

@[simp] theorem State.hearth_coreReset (x : Side) (h : Nat) : (s.coreReset x h).hearth = s.hearth := by
  unfold State.coreReset State.endLocked State.atomicErr
  dsimp only
  split <;> simp

theorem State.hearth_pairReset (x : Side) : (s.pairReset x).hearth = s.hearth := by
  simp [State.pairReset, State.pairClear]

theorem State.hearth_pairRun (x : Side) (run : Bool) : (s.pairRun x run).hearth = s.hearth := by
  simp [State.pairRun, State.pairCoreRun]

@[simp] theorem State.hearth_dmaHalt (x : Side) (n : Nat) : (s.dmaHalt x n).hearth = s.hearth := by
  have hbridges : ∀ (u : State) (l : List Nat) (f : State → Nat → Bridge), (u.each l (fun s i => s.setBridge x i (f s i))).hearth = u.hearth :=
    fun u l _ => State.hearth_each (fun _ _ => State.hearth_setBridge _ _ _) l u
  simp [State.dmaHalt, hbridges]

@[simp] theorem State.hearth_doorFlush (x : Side) (n : Nat) : (s.doorFlush x n).hearth = s.hearth := by
  simp [State.doorFlush]

/-- What stops as a side leaves Lit changes neither time nor the dies, the channels, the Ember or the cores of a side. -/
theorem State.hearth_leaveLit (x : Side) : (s.leaveLit x).hearth = (s.setSide x { s.side x with cores := false }).hearth := by
  unfold State.leaveLit
  dsimp only
  refine (State.hearth_each (fun s w => ?_) _ _).trans ?_
  · split
    · exact State.hearth_set _ _ _ _ (by simp)
    · rfl
  · refine (State.hearth_each (fun s n => ?_) _ _).trans ?_
    · simp
    · rw [State.hearth_pairRun, State.hearth_pairReset]
      exact State.hearth_each (fun _ _ => State.hearth_coreReset _ _) _ _

end Sys2Proof.Machine
end

section
/-! SYS_STATE_SET and SYS_STATE_DELAY_END (R89, R140, R148). -/
namespace Sys2Proof.Machine
open Sys2Proof

variable {s t u : State} {x : Side} {j : Job} {q : List Job}

/-! ## An accepted request -/

/-- `t` is `s` but for the CAN channels of the sides. -/
structure CansOnly (s t : State) : Prop where
  regs : t.regs = s.regs
  mem : t.mem = s.mem
  ember : t.ember = s.ember
  now : t.now = s.now
  side : ∀ y, t.side y = { s.side y with cans := (t.side y).cans }

theorem CansOnly.refl (s : State) : CansOnly s s := ⟨rfl, rfl, rfl, rfl, fun _ => rfl⟩

theorem CansOnly.setCan (h : CansOnly s t) (x : Side) (k : Nat) (v : CanSt) : CansOnly s (t.setCan x k v) := by
  obtain ⟨hregs, hmem, hember, hnow, hside⟩ := h
  refine ⟨(State.regs_setSide _ _ _).trans hregs, (State.mem_setSide _ _ _).trans hmem, (State.ember_setSide _ _ _).trans hember,
    (State.now_setSide _ _ _).trans hnow, fun y => ?_⟩
  rw [State.setCan, State.side_setSide]
  split
  · next hy => rw [hy, hside x]
  · exact hside y

theorem State.awakeClear_cansOnly (s : State) : CansOnly s s.awakeClear :=
  State.each_keeps (fun _ x h => State.each_keeps (fun _ k h => h.setCan x k _) _ h) _ (CansOnly.refl s)

/-- A request for target `n` opens the awake windows of the CAN channels where the target is a sleep state. -/
def State.awaits (s : State) (n : Nat) : State := if n ≤ 1 then s.awakeClear else s

theorem State.awaits_cansOnly (s : State) (n : Nat) : CansOnly s (s.awaits n) := by
  unfold State.awaits
  split
  · exact s.awakeClear_cansOnly
  · exact CansOnly.refl s

/-- A request for target `n` that pends until `e`. -/
def State.pends (s : State) (n e : Nat) : State :=
  ({ s with ember := { s.ember with pend := some (n, e) } }.set .ember F.EMBER_STATE_PENDING 0 1).set .ember F.EMBER_STATE_PEND_TARGET 0 n

theorem State.stateRequest_pends {n ms : Nat} (hup : s.ember.phase = .up) (hpend : s.ember.pend = none) (hn : n ≤ 2) (hne : n ≠ s.powerState) :
    s.stateRequest n ms = (s.awaits n).pends n ((s.awaits n).now + ms * 1000000) := by
  have hdrop : (if n = 3 then s.confirmWake else s).dropRequest = s := by
    rw [if_neg (by omega), State.dropRequest, hpend]
  rw [State.stateRequest, if_neg (not_not_intro hup), hdrop, if_neg hne]
  rfl

theorem State.pends_only (n e : Nat) : Only [(.ember, F.EMBER_STATE_PENDING, 0), (.ember, F.EMBER_STATE_PEND_TARGET, 0)] s (s.pends n e) :=
  Only.then_set (Only.then_set (Only.of_regs rfl) (by simp)) (by simp)

theorem State.pends_reads {n e : Nat} (hn : n ≤ 2) : (s.pends n e).get .ember F.EMBER_STATE_PENDING 0 = 1 ∧
    (s.pends n e).get .ember F.EMBER_STATE_PEND_TARGET 0 = n ∧ (s.pends n e).powerState = s.powerState := by
  have htarget : n % 2 ^ F.EMBER_STATE_PEND_TARGET.width = n := Nat.mod_eq_of_lt (lt_of_le_of_lt hn (by decide))
  refine ⟨?_, ?_, ?_⟩
  all_goals simp (disch := decide) only [State.powerState, State.pends, State.get_set_fld, State.get_set_self, htarget]
  all_goals rfl

theorem sysStateSet_accepted (h : s.Head x 0x002 j q) (hopen : (s.popped x q).stateRefused x j.pkt.target = none) (hup : s.ember.phase = .up)
    (hpend : s.ember.pend = none) (hn : j.pkt.target ≤ 2) (hne : j.pkt.target ≠ s.powerState) :
    Acts (.sysStateSet x) s j q stOk 0 [] [(.ember, F.EMBER_STATE_PENDING, 0), (.ember, F.EMBER_STATE_PEND_TARGET, 0)]
     (fun t => t.ember = { s.ember with pend := some (j.pkt.target, s.now + bits (j.pkt.p 1) 15 0 * 1000000) } ∧
       t.get .ember F.EMBER_STATE_PENDING 0 = 1 ∧ t.get .ember F.EMBER_STATE_PEND_TARGET 0 = j.pkt.target ∧ t.powerState = s.powerState ∧
       t.now = s.now) := by
  set v := (s.popped x q).awaits j.pkt.target
  set e := s.now + bits (j.pkt.p 1) 15 0 * 1000000
  obtain ⟨hregs, hmem, hember, hnow, hside⟩ : CansOnly (s.popped x q) v := State.awaits_cansOnly _ _
  have hrun : (s.popped x q).stateRequest j.pkt.target (bits (j.pkt.p 1) 15 0) = v.pends j.pkt.target e := by
    rw [State.stateRequest_pends (by simpa using hup) (by simpa using hpend) hn (by simpa [State.powerState] using hne), hnow, State.now_popped]
  have hpower : v.powerState = s.powerState := by
    simp only [State.powerState, State.get, hregs, State.regs_popped]
  have hpends : (v.pends j.pkt.target e).side x = v.side x := by simp [State.pends, State.side]
  obtain ⟨hasked, htarget, hstate⟩ := State.pends_reads (s := v) (e := e) hn
  refine acts_in (u := v.pends j.pkt.target e) h (by decide) rfl ?_ ?_ ?_ ?_ (by decide) ?_ fun t ht => ?_
  · simp only [hopen, hrun]
  · rw [hpends, hside x]
  · rw [hpends, hside x]
  · exact (Only.of_regs hregs).trans (v.pends_only _ _)
  · exact hmem.trans (State.mem_popped _ _ _)
  · obtain ⟨htnow, -, -, -, htember, -⟩ := ht.rest
    refine ⟨?_, (ht.get _ _ _ (by decide)).trans hasked, (ht.get _ _ _ (by decide)).trans htarget, ?_, ?_⟩
    · rw [htember]
      simp only [State.pends, State.ember_set, hember, State.ember_popped]
    · exact (ht.get _ _ _ (by decide)).trans (hstate.trans hpower)
    · exact htnow.trans (hnow.trans (State.now_popped _ _ _))

/-! ## The end of the delay -/

/-- The request no longer pends, at its instant `e` or now where that has passed. -/
def State.delayOver (s : State) (e : Nat) : State :=
  ((s.due e).set .ember F.EMBER_STATE_PENDING 0 0).set .ember F.EMBER_STATE_PEND_TARGET 0 0

theorem State.pending_delayOver (s : State) (e : Nat) : (s.delayOver e).get .ember F.EMBER_STATE_PENDING 0 = 0 := by
  simp (disch := decide) only [State.delayOver, State.get_set_fld, State.get_set_self]
  rfl

theorem exec_sysStateDelayEnd_sleep {n e : Nat} (hup : s.ember.phase = .up) (hpend : s.ember.pend = some (n, e)) (hn : n ≤ 1) :
    exec .sysStateDelayEnd s = .next ((s.delayOver e).beginSleep n) := by
  change execSysStateDelayEnd s = _
  simp only [execSysStateDelayEnd, hpend, hup, ne_eq, not_true_eq_false, if_false, hn, if_true]
  rfl

/-- Glowing is requested no longer; its target stands. -/
def State.glowing (s : State) (e : Nat) : State :=
  { s.delayOver e with ember := { (s.delayOver e).ember with pend := none, target := 2 } }

/-- The power state becomes Glowing, from now on. -/
def State.glows (s : State) : State := { s.set .ember F.EMBER_STATE_STATE 0 2 with ember := { s.ember with stateAt := s.now } }

theorem exec_sysStateDelayEnd_glowing {e : Nat} (hup : s.ember.phase = .up) (hpend : s.ember.pend = some (2, e)) :
    exec .sysStateDelayEnd s = .next (((s.glowing e).leaveLit .a).leaveLit .b).glows := by
  have hawake : ¬ 2 ≤ 1 := by decide
  change execSysStateDelayEnd s = _
  simp only [execSysStateDelayEnd, hpend, hup, ne_eq, not_true_eq_false, if_false, hawake, if_true, State.glows, State.glowing,
    State.delayOver, ok]

/-- Glowing stands in the register, and the Ember, but for the instant that it came, and the registers are as before. -/
theorem State.glows_reads (s : State) : s.glows.powerState = 2 ∧
    s.glows.get .ember F.EMBER_STATE_PENDING 0 = s.get .ember F.EMBER_STATE_PENDING 0 :=
  ⟨State.get_set_self s .ember F.EMBER_STATE_STATE 0 2, State.get_set_fld s .ember .ember F.EMBER_STATE_STATE _ 0 0 2 (by decide)⟩

theorem State.beginSleep_only (s : State) (n : Nat) : Only [(.ember, F.EMBER_STATE_SHUTDOWN, 0)] s (s.beginSleep n) :=
  Only.then_set (Only.of_regs rfl) (by simp)

theorem State.delayOver_only (s : State) (e : Nat) :
    Only [(.ember, F.EMBER_STATE_PENDING, 0), (.ember, F.EMBER_STATE_PEND_TARGET, 0)] s (s.delayOver e) :=
  Only.then_set (Only.then_set (Only.of_regs rfl) (by simp)) (by simp)

/-- With both sides out of Lit no core runs, and what the Ember holds is as before. -/
theorem State.hearth_leaveLit_both : ((s.leaveLit .a).leaveLit .b).hearth = { s.hearth with cores := (false, false) } := by
  have hfirst : (s.leaveLit .a).hearth = { s.hearth with cores := (false, s.sb.cores) } := by
    rw [State.hearth_leaveLit]
    rfl
  have hdark : ∀ u : State, (u.leaveLit .b).hearth = { u.hearth with cores := (u.hearth.cores.1, false) } := fun u => by
    rw [State.hearth_leaveLit]
    rfl
  rw [hdark, hfirst]

/-- Settles O9: the request is in `State.pends`, sleep begins in `State.delayOver`, and what stops as the sides leave Lit keeps `State.hearth`. -/
theorem powerStateRequests : Obligations.PowerStateRequests := by
  unfold Obligations.PowerStateRequests
  refine ⟨fun s x j q de h hclosed => ?_, fun s x j q h hopen hup hpend hn hne => sysStateSet_accepted h hopen hup hpend hn hne,
    fun s n e hup hpend hn => ?_, fun s e hup hpend => ?_⟩
  · exact answers_of h (by decide) rfl (by simp only [hclosed])
  · refine ⟨_, exec_sysStateDelayEnd_sleep hup hpend hn, rfl, rfl, rfl, ?_, ?_, ?_, fun _ _ => rfl, rfl, rfl, rfl⟩
    · exact State.get_set_self _ _ _ _ _
    · exact (State.get_set_fld _ _ _ _ _ _ _ _ (by decide)).trans (s.pending_delayOver e)
    · exact ((s.delayOver_only e).mono (by simp)).trans ((State.beginSleep_only _ n).mono (by simp))
  · have hlit := State.hearth_leaveLit_both (s := s.glowing e)
    have hexec := exec_sysStateDelayEnd_glowing hup hpend
    generalize ((s.glowing e).leaveLit .a).leaveLit .b = w at hlit hexec
    obtain ⟨hpower, hasked⟩ := w.glows_reads
    exact ⟨_, hexec, congrArg Hearth.now hlit, hpower, congrArg (fun k => k.ember.pend) hlit,
      (hasked.trans (congrArg Hearth.asked hlit)).trans (s.pending_delayOver e), congrArg (fun k => k.cores.1) hlit,
      congrArg (fun k => k.cores.2) hlit, congrArg Hearth.chans hlit, congrArg Hearth.dies hlit⟩

end Sys2Proof.Machine
end

section
/-! CFG_MODE_SET and CFG_FIELD_WRITE: what waits for the commit of its snapshot (R119, R127, R132). -/
namespace Sys2Proof.Machine
open Sys2Proof

variable {s : State} {x : Side} {j : Job} {q : List Job}

/-! ## CFG_MODE_SET joins the requests of the ordering engine -/

/-- The instant at which the ordering engine has CFG_MODE_SET packet `j` of side `x`. -/
def State.modeArrival (s : State) (x : Side) (j : Job) : Nat :=
  if s.shares && decide (s.orderer ≠ x) then j.takenAt + s.freeVal 64 % 10001 else j.takenAt

/-- Side `x` with packet `j` among the requests of the ordering engine. A packet that travels to the other side takes a free value. -/
def State.modeJoined (s : State) (x : Side) (j : Job) : State :=
  let sent := if s.shares && decide (s.orderer ≠ x) then s.took else s
  sent.setSide x { sent.side x with modeReqs := (sent.side x).modeReqs ++ [(j, s.modeArrival x j)] }

theorem exec_cfgModeSet (h : s.Head x 0x101 j q) : exec (.cfgModeSet x) s = .next ((s.popped x q).modeJoined x j) :=
  congrArg ok (s.chromir_head _ h).1

theorem State.modeArrival_bounds (s : State) (x : Side) (j : Job) :
    j.takenAt ≤ s.modeArrival x j ∧ s.modeArrival x j ≤ j.takenAt + 10000 := by
  unfold State.modeArrival
  split <;> omega

/-- On the ordering side it is there at its take. -/
theorem State.modeArrival_orderer (h : s.orderer = x) : s.modeArrival x j = j.takenAt := by
  simp [State.modeArrival, h]

theorem State.orderer_popped : (s.popped x q).orderer = s.orderer := by
  simp only [State.orderer, State.holds_popped]

/-- What joins the requests changes nothing else of its side. -/
theorem State.side_modeJoined (s : State) (x : Side) (j : Job) :
    (s.modeJoined x j).side x = { s.side x with modeReqs := (s.side x).modeReqs ++ [(j, s.modeArrival x j)] } := by
  unfold State.modeJoined
  split <;> simp

theorem State.regs_modeJoined (s : State) (x : Side) (j : Job) : (s.modeJoined x j).regs = s.regs := by
  unfold State.modeJoined
  split <;> simp

theorem State.mem_modeJoined (s : State) (x : Side) (j : Job) : (s.modeJoined x j).mem = s.mem := by
  unfold State.modeJoined
  split <;> simp

/-! ## CFG_FIELD_WRITE enters the working copy -/

/-- The owner that a CFG_FIELD_WRITE names: the base, or an overlay. -/
def Packet.recOwner (k : Packet) : Nat := if bits (k.p 2) 13 12 = 1 then 0xFF else bits (k.p 2) 17 14

/-- The record that a CFG_FIELD_WRITE puts into the working copy. -/
def Packet.record (k : Packet) : Rec := ⟨k.p 1, bits (k.p 2) 5 0, bits (k.p 2) 11 6, k.recOwner, k.p 3⟩

/-- Side `x` with the record of packet `j` in its working copy and `j` among the packets that the commit answers; FIELD_WRITTEN shows it. -/
def State.fieldEntered (s : State) (x : Side) (j : Job) : State :=
  (s.setSide x { s.side x with
    work := putRec j.pkt.record (s.side x).work
    written := if (s.side x).written.contains j.pkt.recOwner then (s.side x).written else (s.side x).written ++ [j.pkt.recOwner]
    fieldReqs := (s.side x).fieldReqs ++ [j] }).set (.side x) F.CFG_STATUS_FIELD_WRITTEN 0 1

/-- The entry of a CFG_FIELD_WRITE in the log. -/
def State.fieldLogged (s : State) (x : Side) (k : Packet) : State :=
  s.log x 0x206 2 [.wide (k.p 1), .nar 2 (bits (k.p 2) 13 12), .nar 4 (bits (k.p 2) 17 14), .wide (k.p 3)]

theorem exec_cfgFieldWrite (h : s.Head x 0x104 j q) :
    exec (.cfgFieldWrite x) s = .next (((s.popped x q).fieldEntered x j).fieldLogged x j.pkt) :=
  congrArg ok (s.chromir_head _ h).1

/-- A record put into the working copy is the one that its owner has for its field. -/
theorem recOf_putRec (r : Rec) (l : List Rec) : recOf (putRec r l) r.addr r.lo r.owner = some r.value := by
  have hold : (l.filter (fun p => !(p.addr == r.addr && p.lo == r.lo && p.owner == r.owner))).find?
      (fun p => p.addr == r.addr && p.lo == r.lo && p.owner == r.owner) = none :=
    List.find?_eq_none.mpr fun p hp => by
      simpa only [Bool.not_eq_true, Bool.not_eq_true'] using (List.mem_filter.mp hp).2
  rw [recOf, putRec, List.find?_append, hold]
  simp

theorem mem_addOwner (l : List Nat) (o : Nat) : o ∈ (if l.contains o then l else l ++ [o]) := by
  split
  · next h => exact List.contains_iff_mem.mp h
  · simp

theorem State.side_fieldEntered (s : State) (x : Side) (j : Job) : (s.fieldEntered x j).side x = { s.side x with
    work := putRec j.pkt.record (s.side x).work
    written := if (s.side x).written.contains j.pkt.recOwner then (s.side x).written else (s.side x).written ++ [j.pkt.recOwner]
    fieldReqs := (s.side x).fieldReqs ++ [j] } := by
  rw [State.fieldEntered, State.side_set, State.side_setSide_self]

theorem State.fieldEntered_only (s : State) (x : Side) (j : Job) :
    Only [(.side x, F.CFG_STATUS_FIELD_WRITTEN, 0)] s (s.fieldEntered x j) :=
  Only.then_set (Only.of_regs (State.regs_setSide _ _ _)) (by simp)

theorem State.mem_fieldEntered (s : State) (x : Side) (j : Job) : (s.fieldEntered x j).mem = s.mem := by
  simp [State.fieldEntered]

theorem State.fieldLogged_logOnly (s : State) (x : Side) (k : Packet) : LogOnly x s (s.fieldLogged x k) := State.log_logOnly x _ _ _

/-- What a side holds beyond the log is, once the entry of the record is logged, as that entry left it. -/
theorem State.side_fieldLogged {α : Type} (f : SideSt → α) (hf : ∀ v : SideSt, f v.beyondNotes = f v) (s : State) (x : Side) (k : Packet) :
    f ((s.fieldLogged x k).side x) = f (s.side x) := by
  rw [← hf, State.fieldLogged, (State.log_noted _ x _ _ _).side, hf]

/-! ## The statement -/

/-- A CFG_MODE_SET at the head of Chromir's queue waits among the requests, and every register and byte reads as before. -/
theorem cfgModeSet_waits (h : s.Head x 0x101 j q) : ∃ t, exec (.cfgModeSet x) s = .next t ∧ Unanswered s t j ∧
    (t.side x).chromirQ = q.dropWhile isLong ∧
    (∃ a : Nat, (t.side x).modeReqs = (s.side x).modeReqs ++ [(j, a)] ∧ j.takenAt ≤ a ∧ a ≤ j.takenAt + 10000 ∧
      (s.orderer = x → a = j.takenAt)) ∧
    Only [] s t ∧ MemSame s t := by
  obtain ⟨-, hdown, -, -, -, rfl, -⟩ := id h
  have hside := (s.popped j.side q).side_modeJoined j.side j
  rw [State.side_popped hdown] at hside
  obtain ⟨hfrom, hto⟩ := (s.popped j.side q).modeArrival_bounds j.side j
  refine ⟨_, exec_cfgModeSet h, ?_, congrArg SideSt.chromirQ hside, ⟨_, congrArg SideSt.modeReqs hside, hfrom, hto, fun ho =>
    State.modeArrival_orderer (State.orderer_popped.trans ho)⟩, Only.of_regs ?_, fun y a => ?_⟩
  · simp only [Unanswered, State.src, hside]
  · rw [State.regs_modeJoined, State.regs_popped]
  · simp only [State.byte, State.mem_modeJoined, State.mem_popped]

/-- A CFG_FIELD_WRITE at the head of Chromir's queue waits for the commit with its record in the working copy; nothing comes into force. -/
theorem cfgFieldWrite_waits (h : s.Head x 0x104 j q) : ∃ t, exec (.cfgFieldWrite x) s = .next t ∧ Unanswered s t j ∧
    (t.side x).chromirQ = q.dropWhile isLong ∧ (t.side x).fieldReqs = (s.side x).fieldReqs ++ [j] ∧
    recOf (t.side x).work j.pkt.record.addr j.pkt.record.lo j.pkt.recOwner = some j.pkt.record.value ∧
    j.pkt.recOwner ∈ (t.side x).written ∧ (t.side x).inForce = (s.side x).inForce ∧
    t.get (.side x) F.CFG_STATUS_FIELD_WRITTEN 0 = 1 ∧
    Only ((.side x, F.CFG_STATUS_FIELD_WRITTEN, 0) :: logFields x) s t ∧ MemSame s t := by
  obtain ⟨-, hdown, -, -, -, rfl, -⟩ := id h
  have hside := (s.popped j.side q).side_fieldEntered j.side j
  rw [State.side_popped hdown] at hside
  have hkept {α : Type} (f : SideSt → α) (hf : ∀ v : SideSt, f v.beyondNotes = f v) :=
    (((s.popped j.side q).fieldEntered j.side j).side_fieldLogged f hf j.side j.pkt).trans (congrArg f hside)
  obtain ⟨honly, hrest⟩ := ((s.popped j.side q).fieldEntered j.side j).fieldLogged_logOnly j.side j.pkt
  refine ⟨_, exec_cfgFieldWrite h, ?_, hkept _ fun _ => rfl, hkept _ fun _ => rfl, ?_, ?_, hkept _ fun _ => rfl, ?_, ?_, ?_⟩
  · simp only [Unanswered, State.src, hkept SideSt.srcs fun _ => rfl]
  · rw [hkept SideSt.work fun _ => rfl]
    exact recOf_putRec j.pkt.record _
  · rw [hkept SideSt.written fun _ => rfl]
    exact mem_addOwner _ _
  · refine (honly.get_fld (by simp [logFields]; decide)).trans ?_
    exact State.get_set_self _ _ _ _ _
  · have hentered := State.fieldEntered_only (s.popped j.side q) j.side j
    exact ((Only.of_regs (State.regs_popped _ _ _)).trans (hentered.mono (by simp))).trans
      (honly.mono fun p hp => List.mem_cons_of_mem _ hp)
  · intro y a
    exact (hrest.mem y a).trans (by simp only [State.byte, State.mem_fieldEntered, State.mem_popped])

/-- Settles O10: a CFG_MODE_SET ends in `State.modeJoined`, a CFG_FIELD_WRITE in `State.fieldEntered` with its entry in the log. -/
theorem overlayAndFieldWrites : Obligations.OverlayAndFieldWrites := by
  unfold Obligations.OverlayAndFieldWrites
  exact ⟨fun _ _ _ _ h => cfgModeSet_waits h, fun _ _ _ _ h => cfgFieldWrite_waits h⟩

end Sys2Proof.Machine
end

section
/-! A commit whose working copy holds a record for a field that is no configuration. -/
namespace Sys2Proof.Machine
open Sys2Proof

/-- A base record that gives CFG_MODE_ACTIVE the value 5. No image check and no CFG_FIELD_WRITE lets one in, since the field has no merge
class (R123, R127), but the statement speaks of every working copy. -/
def maskRec : Rec := ⟨0x40020000, 0, 11, 0xFF, 5⟩

/-- Side A runs and has made its first commit; that record is its whole working copy. -/
def maskRecState : State := State.reset.setSide .a { SideSt.init with run := .ready, firstCommit := true, work := [maskRec] }

/-- The merge resolves a record by its address and bits alone (`fieldAt`), whatever the class of the field, so the local units' move
(`State.putConfig`) overwrites the active mask that the commit has just put in force. -/
theorem maskRecState_commit : (outState maskRecState (exec (.commitTick .a 0) maskRecState)).get (.side .a) F.CFG_MODE_ACTIVE 0 = 5 ∧
    (outState maskRecState (exec (.commitTick .a 0) maskRecState)).get (.side .a) F.CFG_MODE_CMD 0 = 0 ∧
    (outState maskRecState (exec (.commitTick .a 0) maskRecState)).get (.side .a) F.CFG_MODE_HW 0 = 0 := by decide +kernel

/-- Refutes O33: with a record for CFG_MODE_ACTIVE in the working copy, the first clause's commit ends with an active mask of 5 while the
commanded and the hardware mask are 0. -/
theorem not_commitTicks : ¬ Obligations.CommitTicks := by
  unfold Obligations.CommitTicks
  rintro ⟨hcommit, -⟩
  obtain ⟨t, hexec, -, -, -, -, -, -, hactive, -⟩ := hcommit maskRecState .a (by decide) rfl rfl
  obtain ⟨hfive, hcmd, hhw⟩ := maskRecState_commit
  rw [hexec] at hfive hcmd hhw
  have hor : 5 = 0 ||| 0 := (hfive.symm.trans hactive).trans (congrArg₂ (· ||| ·) hcmd hhw)
  exact absurd hor (by decide)

end Sys2Proof.Machine
end

section
/-! Wake sources: what a declared wake writes and enables (R142 to R152), over every source. -/
namespace Sys2Proof.Machine
open Sys2Proof

variable {s t : State}

/-! ## Bit ranges of a word -/

theorem bits_eq (w hi lo : Nat) : bits w hi lo = w / 2 ^ lo % 2 ^ (hi + 1 - lo) := by
  rw [bits, Nat.shiftRight_eq_div_pow]

theorem b2n_le_one (b : Bool) : b2n b ≤ 1 := by cases b <;> decide

/-! ## The wake record as it is written (R143, R156) -/

/-- Word 0 of the wake record: the count of wakes, whether confirmed, whether a rewake, the entry, the target, FROM, the index and the cause. -/
def recordWord (w : WakeSrc) (count rewake entry target from_ : Nat) : Nat :=
  count % 65536 * 2 ^ 24 + b2n (!w.confirm) * 2 ^ 22 + rewake * 2 ^ 21 + entry * 2 ^ 20 + target * 2 ^ 18 + from_ * 2 ^ 16 +
    w.index * 2 ^ 4 + w.cause

/-- Word 1: the identifier of a waking frame. -/
def identWord (w : WakeSrc) : Nat :=
  match w.ident with
  | some i => 2 ^ 30 + i
  | none => 0

/-- The four words of a record whose outcome is open, and the wake counted. -/
def State.putRecord (s : State) (w0 w1 w2 : Nat) : State :=
  ((((s.set .ember F.EMBER_WREC 0 w0).set .ember F.EMBER_WREC 1 w1).set .ember F.EMBER_WREC 2 w2).set .ember F.EMBER_WREC 3 (3 * 2 ^ 12)).inc
    .ember F.EMBER_WAKE_COUNT 0

/-- No side holds a copy of the record in NOR any more. -/
def State.dropSlots (s : State) : State := { s with sa := { s.sa with wrecSlot := none }, sb := { s.sb with wrecSlot := none } }

/-- A rewake is counted (R149). -/
def State.countRewake (s : State) (re : Bool) : State := if re then s.inc .ember F.EMBER_REWAKE_COUNT 0 else s

theorem State.writeRecord_eq (s : State) (w : WakeSrc) (entry : Bool) : ∃ target from_ secs, target ≤ 3 ∧ from_ ≤ 3 ∧
    s.writeRecord w entry = ((s.took.took.putRecord (recordWord w (s.get .ember F.EMBER_WAKE_COUNT 0 + 1) (b2n (s.rewake w)) (b2n entry)
      target from_) (identWord w) secs).dropSlots).countRewake (s.rewake w) := by
  have hfree : s.freeVal 2 ≤ 3 := Nat.lt_succ_iff.mp (Nat.mod_lt _ (by decide))
  refine ⟨if s.get .ember w.target 0 = 3 then 3 else 2, if w.cause = 0 then 3 else match s.ember.phase with
    | .cold => 0
    | .banked => 1
    | _ => s.freeVal 2, s.took.bankedSeconds, ?_, ?_, rfl⟩
  · split <;> decide
  · split
    · exact le_rfl
    · split
      · decide
      · decide
      · exact hfree

variable {w : WakeSrc} {n r e k m : Nat}

section RecordWord

variable (hcause : w.cause < 16) (hindex : w.index < 4096) (hr : r ≤ 1) (he : e ≤ 1) (hk : k ≤ 3) (hm : m ≤ 3)

theorem recordWord_cause (hcause : w.cause < 16) : bits (recordWord w n r e k m % 2 ^ 40) 3 0 = w.cause := by
  rw [bits_eq, recordWord]
  omega

theorem recordWord_index (hcause : w.cause < 16) (hindex : w.index < 4096) : bits (recordWord w n r e k m % 2 ^ 40) 15 4 = w.index := by
  rw [bits_eq, recordWord]
  omega

include hcause hindex hr he hk hm in
theorem recordWord_confirmed : bits (recordWord w n r e k m % 2 ^ 40) 22 22 = b2n (!w.confirm) := by
  have hc := b2n_le_one (!w.confirm)
  rw [bits_eq, recordWord]
  omega

end RecordWord

/-! What stands in the record. -/

section PutRecord

variable (s : State) (w0 w1 w2 : Nat)

theorem State.get_putRecord_word0 : (s.putRecord w0 w1 w2).get .ember F.EMBER_WREC 0 = w0 % 2 ^ 40 := by
  unfold State.putRecord State.inc State.add
  simp (disch := decide) only [State.get_set_fld, State.get_set_idx, State.get_set_self]
  rfl

theorem State.get_putRecord_word1 : (s.putRecord w0 w1 w2).get .ember F.EMBER_WREC 1 = w1 % 2 ^ 40 := by
  unfold State.putRecord State.inc State.add
  simp (disch := decide) only [State.get_set_fld, State.get_set_idx, State.get_set_self]
  rfl

theorem State.get_putRecord_word3 : (s.putRecord w0 w1 w2).get .ember F.EMBER_WREC 3 = 3 * 2 ^ 12 := by
  unfold State.putRecord State.inc State.add
  simp (disch := decide) only [State.get_set_fld, State.get_set_self]
  rfl

theorem State.get_putRecord_count : (s.putRecord w0 w1 w2).get .ember F.EMBER_WAKE_COUNT 0 =
    (s.get .ember F.EMBER_WAKE_COUNT 0 + 1) % 2 ^ F.EMBER_WAKE_COUNT.width := by
  unfold State.putRecord State.inc State.add
  simp (disch := decide) only [State.get_set_fld, State.get_set_self]

theorem State.putRecord_only : Only wakeFields s (s.putRecord w0 w1 w2) :=
  ((((Only.set (by decide)).then_set (by decide)).then_set (by decide)).then_set (by decide)).then_set (by decide)

end PutRecord

theorem State.get_countRewake (s : State) (re : Bool) (h : Holder) (f : Fld) (i : Nat) (hf : f.reg ≠ F.EMBER_REWAKE_COUNT.reg) :
    (s.countRewake re).get h f i = s.get h f i := by
  unfold State.countRewake
  split
  · exact State.get_set_fld _ _ _ _ _ _ _ _ (Or.inl hf)
  · rfl

theorem State.countRewake_only (s : State) (re : Bool) : Only wakeFields s (s.countRewake re) := by
  unfold State.countRewake
  split
  · exact Only.set (by decide)
  · exact Only.refl _ s

/-- What the record of a wake leaves besides registers: all but the count of free values and the sides' slots of the record. -/
def Beside (s t : State) : Prop :=
  t.now = s.now ∧ t.mem = s.mem ∧ t.ember = s.ember ∧ t.dies = s.dies ∧ t.chans = s.chans ∧ t.flue = s.flue ∧
  t.sa = { s.sa with wrecSlot := none } ∧ t.sb = { s.sb with wrecSlot := none }

theorem State.countRewake_beside (s : State) (re : Bool) : Beside s (s.dropSlots.countRewake re) := by
  cases re <;> exact ⟨rfl, rfl, rfl, rfl, rfl, rfl, rfl, rfl⟩

/-- `t` is `s` with the record of a wake by source `w`, its outcome open, and the wake counted. -/
structure Recorded (w : WakeSrc) (s t : State) : Prop where
  only : Only wakeFields s t
  rest : Beside s t
  cause : bits (t.get .ember F.EMBER_WREC 0) 3 0 = w.cause
  index : bits (t.get .ember F.EMBER_WREC 0) 15 4 = w.index
  confirmed : bits (t.get .ember F.EMBER_WREC 0) 22 22 = b2n (!w.confirm)
  ident : t.get .ember F.EMBER_WREC 1 = identWord w % 2 ^ 40
  outcome : t.get .ember F.EMBER_WREC 3 = 3 * 2 ^ 12
  count : t.get .ember F.EMBER_WAKE_COUNT 0 = (s.get .ember F.EMBER_WAKE_COUNT 0 + 1) % 2 ^ F.EMBER_WAKE_COUNT.width

theorem State.putRecord_recorded (s : State) {w0 : Nat} (secs : Nat) (re : Bool) (hcause : bits (w0 % 2 ^ 40) 3 0 = w.cause)
    (hindex : bits (w0 % 2 ^ 40) 15 4 = w.index) (hconfirmed : bits (w0 % 2 ^ 40) 22 22 = b2n (!w.confirm)) :
    Recorded w s ((s.putRecord w0 (identWord w) secs).dropSlots.countRewake re) := by
  have hput := s.putRecord_only w0 (identWord w) secs
  have hword0 := s.get_putRecord_word0 w0 (identWord w) secs
  have hword1 := s.get_putRecord_word1 w0 (identWord w) secs
  have hword3 := s.get_putRecord_word3 w0 (identWord w) secs
  have hcount := s.get_putRecord_count w0 (identWord w) secs
  have hrest := (s.putRecord w0 (identWord w) secs).countRewake_beside re
  have hget {f : Fld} {i : Nat} (hf : f.reg ≠ F.EMBER_REWAKE_COUNT.reg) :
      ((s.putRecord w0 (identWord w) secs).dropSlots.countRewake re).get .ember f i = (s.putRecord w0 (identWord w) secs).get .ember f i :=
    State.get_countRewake _ re .ember f i hf
  constructor
  case only => exact (hput.then_regs (u := (s.putRecord w0 (identWord w) secs).dropSlots) rfl).trans (State.countRewake_only _ re)
  case rest => exact hrest
  case cause => rw [hget (by decide), hword0, hcause]
  case index => rw [hget (by decide), hword0, hindex]
  case confirmed => rw [hget (by decide), hword0, hconfirmed]
  case ident => rw [hget (by decide), hword1]
  case outcome => rw [hget (by decide), hword3]
  case count => rw [hget (by decide), hcount]

theorem State.writeRecord_recorded (s : State) (entry : Bool) (hcause : w.cause < 16) (hindex : w.index < 4096) :
    Recorded w s (s.writeRecord w entry) := by
  obtain ⟨target, from_, secs, htarget, hfrom, heq⟩ := s.writeRecord_eq w entry
  rw [heq]
  have h := s.took.took.putRecord_recorded secs (s.rewake w) (recordWord_cause (n := s.get .ember F.EMBER_WAKE_COUNT 0 + 1) hcause)
    (recordWord_index hcause hindex) (recordWord_confirmed hcause hindex (b2n_le_one (s.rewake w)) (b2n_le_one entry) htarget hfrom)
  exact ⟨h.only, h.rest, h.cause, h.index, h.confirmed, h.ident, h.outcome, h.count⟩

/-! ## The declaration of a wake (R143, R152) -/

/-- The record is written no earlier than 5 ms after the groups went off. -/
def State.recordedWake (s : State) (w : WakeSrc) (entry : Bool) : State := (s.due (s.ember.railsOff + 5000000)).writeRecord w entry

theorem State.regs_declare (s : State) (w : WakeSrc) (entry : Bool) : (s.declare w entry).regs =
    ((((s.recordedWake w entry).set .ember F.EMBER_STATE_LIMP_A 0 0).set .ember F.EMBER_STATE_LIMP_B 0 0).set .ember F.EMBER_STATE_FLUE_NOREF 0
      0).regs := rfl

theorem State.get_declare (s : State) (w : WakeSrc) (entry : Bool) (h : Holder) (f : Fld) (i : Nat) (hf : f.reg ≠ F.EMBER_STATE_STATE.reg) :
    (s.declare w entry).get h f i = (s.recordedWake w entry).get h f i := by
  rw [State.get, State.regs_declare]
  exact (State.get_set_fld _ .ember h F.EMBER_STATE_FLUE_NOREF f 0 i 0 (Or.inl hf)).trans
    ((State.get_set_fld _ .ember h F.EMBER_STATE_LIMP_B f 0 i 0 (Or.inl hf)).trans
      (State.get_set_fld _ .ember h F.EMBER_STATE_LIMP_A f 0 i 0 (Or.inl hf)))

theorem State.declare_only (s : State) (w : WakeSrc) (entry : Bool) : Only wakeFields (s.recordedWake w entry) (s.declare w entry) := by
  have hsets : Only wakeFields (s.recordedWake w entry) ((((s.recordedWake w entry).set .ember F.EMBER_STATE_LIMP_A 0 0).set .ember
      F.EMBER_STATE_LIMP_B 0 0).set .ember F.EMBER_STATE_FLUE_NOREF 0 0) :=
    ((Only.set (by decide)).then_set (by decide)).then_set (by decide)
  exact hsets.then_regs (s.regs_declare w entry)

/-- The rest of what a declaration leaves: it writes registers of the Ember and what the Ember holds besides them. -/
theorem State.declare_rest (s : State) (w : WakeSrc) (entry : Bool) : (s.declare w entry).now = (s.recordedWake w entry).now ∧
    (s.declare w entry).mem = (s.recordedWake w entry).mem ∧ (s.declare w entry).sa = (s.recordedWake w entry).sa ∧
    (s.declare w entry).sb = (s.recordedWake w entry).sb ∧ (s.declare w entry).dies = (s.recordedWake w entry).dies ∧
    (s.declare w entry).chans = (s.recordedWake w entry).chans ∧ (s.declare w entry).flue = (s.recordedWake w entry).flue := by
  unfold State.declare State.enableGroup State.setGroup
  exact ⟨rfl, rfl, rfl, rfl, rfl, rfl, rfl⟩

theorem State.declare_ember (s : State) (w : WakeSrc) (entry : Bool) : (s.declare w entry).ember.phase = .waking ∧
    (s.declare w entry).ember.wakeAt = (s.recordedWake w entry).now ∧ (s.declare w entry).ember.ignore = false ∧
    (s.declare w entry).ember.ga.on = true ∧ (s.declare w entry).ember.gb.on = true ∧ (s.declare w entry).ember.gs.on = true := by
  unfold State.declare State.enableGroup State.setGroup
  exact ⟨rfl, rfl, rfl, rfl, rfl, rfl⟩

/-- A declared wake stands as R143 step 1 says. -/
theorem State.declare_woken (s : State) (entry : Bool) (hcause : w.cause < 16) (hindex : w.index < 4096) :
    Woken s (s.declare w entry) w.cause w.index w.confirm := by
  have hrec : Recorded w (s.due (s.ember.railsOff + 5000000)) (s.recordedWake w entry) := State.writeRecord_recorded _ entry hcause hindex
  obtain ⟨hnow, hmem, -, hdies, hchans, hflue, hsa, hsb⟩ := hrec.rest
  obtain ⟨hnow', hmem', hsa', hsb', hdies', hchans', hflue'⟩ := s.declare_rest w entry
  obtain ⟨hphase, hat, -, hga, hgb, hgs⟩ := s.declare_ember w entry
  have hword (i : Nat) : (s.declare w entry).get .ember F.EMBER_WREC i = (s.recordedWake w entry).get .ember F.EMBER_WREC i :=
    s.get_declare w entry .ember _ i (by decide)
  refine ⟨hphase, hnow'.trans hnow, hat.trans hnow'.symm, hga, hgb, hgs, ?_, ?_, ?_, ?_, ?_, ?_, ?_, hsa'.trans hsa, hsb'.trans hsb,
    hdies'.trans hdies, hchans'.trans hchans, hflue'.trans hflue⟩
  · exact (congrArg (bits · 3 0) (hword 0)).trans hrec.cause
  · exact (congrArg (bits · 15 4) (hword 0)).trans hrec.index
  · exact (congrArg (bits · 22 22) (hword 0)).trans hrec.confirmed
  · exact (congrArg (bits · 13 12) ((hword 3).trans hrec.outcome)).trans rfl
  · exact (s.get_declare w entry .ember _ 0 (by decide)).trans hrec.count
  · exact Only.trans hrec.only (s.declare_only w entry)
  · intro y a
    rw [State.byte, hmem', hmem]
    rfl

/-- The identifier of a waking frame stands in word 1 of the record (R150, R156). -/
theorem State.declare_ident (s : State) (entry : Bool) {i : Nat} (hcause : w.cause < 16) (hindex : w.index < 4096) (hid : w.ident = some i)
    (hi : i < 2 ^ 30) : bits ((s.declare w entry).get .ember F.EMBER_WREC 1) 29 0 = i := by
  have hrec : Recorded w (s.due (s.ember.railsOff + 5000000)) (s.recordedWake w entry) := State.writeRecord_recorded _ entry hcause hindex
  rw [s.get_declare w entry .ember _ 1 (by decide), hrec.ident, identWord, hid, bits_eq]
  dsimp only
  omega


/-! ## The wake sources (R142, R144, R147, R149 to R151) -/

/-- The second after a failed wake ends, and a level source that is still asserted wakes the module (R144). -/
theorem exec_wakeBlockEnd (kl15 : Bool) (loc : BitVec 4) (hignore : s.ember.ignore = true)
    (hphase : s.ember.phase = .banked ∨ s.ember.phase = .cold) : exec (.wakeBlockEnd kl15 loc) s =
    .next (State.levelWake { s.due (s.ember.bankedAt + 1000000000) with ember := { s.ember with ignore := false } } kl15 loc.toNat false) :=
  congrArg ok (if_pos ⟨hignore, hphase⟩)

/-- No source is asserted: no wake. -/
theorem State.levelWake_none {levels : Nat} (entry : Bool) (h : (List.range 4).find? (s.locHeld levels) = none) :
    s.levelWake false levels entry = s := by
  simp [State.levelWake, h]

theorem State.levelWake_kl15 (s : State) (levels : Nat) (entry : Bool) : s.levelWake true levels entry = s.declare srcKl15 entry := rfl

/-- What the Ember holds matters to a declared wake by the instant at which the groups went off alone. -/
theorem Woken.of_ember {e : EmberSt} {cause index : Nat} {confirm : Bool} (hoff : e.railsOff = s.ember.railsOff)
    (h : Woken { s with ember := e } t cause index confirm) : Woken s t cause index confirm := by
  obtain ⟨hphase, hnow, hrest⟩ := h
  exact ⟨hphase, hoff ▸ hnow, hrest⟩

/-- The same of a source given by its parts. -/
theorem State.declare_woken_of {cause index : Nat} {target : Fld} {confirm : Bool} {ident : Option Nat} (s : State) (hcause : cause < 16)
    (hindex : index < 4096) : Woken s (s.declare ⟨cause, index, target, confirm, ident⟩ false) cause index confirm :=
  s.declare_woken (w := ⟨cause, index, target, confirm, ident⟩) false hcause hindex

/-- Settles O28: a source that acts declares its wake (`State.declare_woken`), and with no level source asserted the second after a failed
wake only ends. -/
theorem wakeSources : Obligations.WakeSources := by
  unfold Obligations.WakeSources
  refine ⟨?_, ?_, ?_, ?_, ?_, ?_, ?_, ?_, ?_, ?_⟩
  · intro s hoff
    exact ⟨_, congrArg ok (if_pos hoff), s.declare_woken_of (by decide) (by decide)⟩
  · intro s hwake
    exact ⟨_, congrArg ok (if_pos hwake), s.declare_woken_of (by decide) (by decide)⟩
  · intro s n hon hwake
    exact ⟨s.declare (srcLoc n) false, congrArg ok ((if_neg (not_not_intro hon)).trans (if_pos hwake)),
      s.declare_woken_of (by decide) (n.isLt.trans (by decide))⟩
  · intro s m halarm hm hphase hignore
    subst halarm
    exact ⟨_, congrArg ok ((if_neg hm.ne').trans (if_pos ⟨hphase, by simp [hignore]⟩)), State.declare_woken_of _ (by decide) (by decide)⟩
  · intro s k harmed hpattern
    exact ⟨_, congrArg ok (if_pos ⟨harmed, hpattern⟩), s.declare_woken_of (by decide) (k.isLt.trans (by decide))⟩
  · intro s k fr harmed hframe hdecodes hform hfits
    exact ⟨_, congrArg ok (if_pos ⟨harmed, hframe, hdecodes, hform, hfits⟩), s.declare_woken_of (by decide) (k.isLt.trans (by decide)),
      s.declare_ident (w := ⟨5, k, F.EMBER_WAKE_TARGET_CAN, false, some (fr.h0.toNat % 2 ^ 30)⟩) false (show 5 < 16 by decide)
        (k.isLt.trans (by decide)) rfl (Nat.mod_lt _ (by decide))⟩
  · intro s k harmed hframe hdecodes
    exact ⟨_, congrArg ok (if_pos ⟨harmed, hframe, hdecodes⟩), s.declare_woken_of (by decide) (k.isLt.trans (by decide))⟩
  · intro s p harmed hlow hhigh hon
    exact ⟨_, congrArg ok (if_pos ⟨harmed, hlow, hhigh, hon⟩), s.declare_woken_of (by decide) (p.isLt.trans (by decide))⟩
  · intro s loc hignore hphase
    refine ⟨_, exec_wakeBlockEnd true loc hignore hphase, ?_⟩
    rw [State.levelWake_kl15]
    refine ⟨Woken.of_ember (e := { s.ember with ignore := false }) rfl ?_, (State.declare_ember _ srcKl15 false).2.2.1⟩
    exact State.declare_woken (w := srcKl15) _ false (by decide) (by decide)
  · intro s loc hignore hphase hnone
    exact ⟨{ s.due (s.ember.bankedAt + 1000000000) with ember := { s.ember with ignore := false } },
      (exec_wakeBlockEnd false loc hignore hphase).trans (congrArg Host.Outcome.next (State.levelWake_none false hnone)),
      rfl, rfl, rfl, Only.refl _ _, fun _ _ => rfl⟩

end Sys2Proof.Machine
end

section
/-! A Kindling whose working copy holds a record that names a field of no configuration. -/
namespace Sys2Proof.Machine
open Sys2Proof

/-- A record of owner 12, which no image reload takes away (`reload` drops the records of the base image and of owners 0 to 11), that names
STOKER_STATE.CHROMIR_READY. The merge gives a field without such a record its reset value (R123). -/
def idleRec : Rec := ⟨0x40040100, 0, 0, 12, 0⟩

/-- Side A kindles with one image bank in use and that record in its working copy; the bank's header bytes are 0 and the last reset had
cause 1, so the Kindling reads no other byte of the NOR. -/
def kindlingState : State :=
  { State.reset.setSide .a { SideSt.init with run := .kindling, used := [(0, 1), (0x200, 1)], work := [idleRec] } with
    mem := (List.range 0x30).map (fun i => (0x80900000 + i, 0))
    ember := { EmberSt.init with resetCause := [(0, 1)] } }

/-- The first commit moves the field that the record names to its reset value (`State.putConfig`), after Chromir has set it. -/
theorem kindlingState_stokerReady :
    (outState kindlingState (exec (.stokerReady .a) kindlingState)).get (.side .a) F.STOKER_STATE_CHROMIR_READY 0 = 0 := by decide +kernel

/-- Refutes O30: the side of `kindlingState` comes up, and its STOKER_STATE says that Chromir is not ready. -/
theorem not_confirmationAndLit : ¬ Obligations.ConfirmationAndLit := by
  unfold Obligations.ConfirmationAndLit
  rintro ⟨-, -, -, hready, -⟩
  obtain ⟨t, hexec, -, -, -, -, hchromir, -⟩ := hready kindlingState .a rfl (by decide) (by decide)
  have hzero := kindlingState_stokerReady
  rw [hexec] at hzero
  have hone : (1 : Nat) = 0 := hchromir.symm.trans hzero
  omega

end Sys2Proof.Machine
end

section
/-! A lost feed whose side has a posted write to the Ember outstanding. -/
namespace Sys2Proof.Machine
open Sys2Proof

/-- A posted write of side A, on its way over the cross bridge, that acknowledges every bit of EMBER_FEED_EVT at side B's EMBER page. -/
def evtClear : Txn := ⟨0, 0, 0, 0, 0x68010004, false, some 0xFF, true, 0, false⟩

/-- Both sides run and side A has that write outstanding. -/
def evtClearState : State :=
  let on : State := (State.reset.setSide .a { SideSt.init with run := .ready }).setSide .b { SideSt.init with run := .ready }
  ({ on with ember := { EmberSt.init with phase := .up } }).setBridge .a 0 { Bridge.init with txns := [evtClear] }

/-- Side A goes down with the loss, its write takes effect at the far end (`State.sentCompletes`), and the event that the loss has just
shown is acknowledged. -/
theorem evtClearState_feedLoss :
    (outState evtClearState (exec (.feedLoss .a) evtClearState)).get .ember F.EMBER_FEED_EVT_A_LOSS 0 = 0 := by decide +kernel

/-- Refutes O32: after the loss of feed A in `evtClearState` its event bit is 0, where the first clause has it 1. -/
theorem not_feedsAndSides : ¬ Obligations.FeedsAndSides := by
  unfold Obligations.FeedsAndSides
  rintro ⟨hloss, -⟩
  obtain ⟨t, hexec, -, hevt, -⟩ := hloss evtClearState .a rfl (by decide) (by decide)
  have hzero := evtClearState_feedLoss
  rw [hexec] at hzero
  have hone : (1 : Nat) = 0 := hevt.symm.trans hzero
  omega

end Sys2Proof.Machine
end

section
/-! What the accesses that a side has outstanding, and the closing down of its units, leave of the Ember and the dies (R152, R293, R308). -/
namespace Sys2Proof.Machine
open Sys2Proof

variable {s t u : State} {x : Side}

/-- The registers that no unit's own work writes: EMBER_WAKE_CFG and CH_STATE. -/
def calmRegs : List Nat := [F.EMBER_WAKE_CFG_LOC_EN.reg, F.CH_STATE_STATE.reg]

/-- What the outstanding accesses and the closing down of a side's units leave: time, the reset inputs and the straps, the phase of each
side and the registers `calmRegs`. -/
structure Calm where
  now : Nat
  rstLow : Nat
  straps : Nat
  runs : Run × Run
  regs : Holder → Fld → Nat → Nat

/-- A register of `calmRegs` on the dies, outside both sides. -/
def State.calmReg (s : State) (h : Holder) (f : Fld) (i : Nat) : Nat := if 2 ≤ h.code ∧ f.reg ∈ calmRegs then s.get h f i else 0

/-- That part of the state. Every lemma `State.calm_…` of a definition says that it leaves it. -/
def State.calm (s : State) : Calm := ⟨s.now, s.ember.rstLow, s.ember.straps, (s.sa.run, s.sb.run), s.calmReg⟩

/-- The other parts of the state do not matter. -/
theorem State.calm_mk (s : State) (pending : List Instr) (free : Nat) (resp : Resp) (mem : List Host.Cell) (flue : FlueSt)
    (dies : Tab DieSt) (chans : Tab Chan) (damper : DamperSt) (absent : List UnitId) :
    State.calm ⟨s.now, pending, free, resp, s.regs, mem, s.ember, s.sa, s.sb, flue, dies, chans, damper, absent⟩ = s.calm := rfl

@[simp] theorem State.calm_set (h : Holder) (f : Fld) (i v : Nat) (hf : f.reg ∉ calmRegs) : (s.set h f i v).calm = s.calm := by
  have hregs : (s.set h f i v).calmReg = s.calmReg := by
    funext k g j
    unfold State.calmReg
    split
    · next hg => exact State.get_set_fld _ _ _ _ _ _ _ _ (Or.inl fun e => hf (e ▸ hg.2))
    · rfl
  rw [State.calm, hregs]
  rfl

@[simp] theorem State.calm_setSide (x : Side) (v : SideSt) (hv : v.run = (s.side x).run) : (s.setSide x v).calm = s.calm := by
  cases x <;> exact congrArg (fun r => (⟨_, _, _, r, _⟩ : Calm)) (by rw [State.setSide, hv]; rfl)

@[simp] theorem State.calm_ite (c : Prop) [Decidable c] (s t : State) : (if c then s else t).calm = if c then s.calm else t.calm :=
  apply_ite State.calm c s t

@[simp] theorem State.calm_each {α : Type} {f : State → α → State} (hf : ∀ s a, (f s a).calm = s.calm) (l : List α) (s : State) :
    (s.each l f).calm = s.calm :=
  State.each_keeps (P := fun t => t.calm = s.calm) (fun _ a h => (hf _ a).trans h) l rfl

theorem State.calm_iter {f : State → State} (hf : ∀ s, (f s).calm = s.calm) : ∀ n s, (iter f n s).calm = s.calm
  | 0, _ => rfl
  | n + 1, s => (State.calm_iter hf n (f s)).trans (hf s)

/-! ## Registers and the parts of a side -/

@[simp] theorem State.calm_add (h : Holder) (f : Fld) (i n : Nat) (hf : f.reg ∉ calmRegs) :
    (s.add h f i n).calm = s.calm := State.calm_set _ _ _ _ hf

@[simp] theorem State.calm_inc (h : Holder) (f : Fld) (i : Nat) (hf : f.reg ∉ calmRegs) :
    (s.inc h f i).calm = s.calm := State.calm_set _ _ _ _ hf

@[simp] theorem State.calm_setBit (h : Holder) (f : Fld) (i b : Nat) (hf : f.reg ∉ calmRegs) :
    (s.setBit h f i b).calm = s.calm := State.calm_set _ _ _ _ hf

@[simp] theorem State.calm_clearBit (h : Holder) (f : Fld) (i b : Nat) (hf : f.reg ∉ calmRegs) :
    (s.clearBit h f i b).calm = s.calm := State.calm_set _ _ _ _ hf

@[simp] theorem State.calm_setSrc (x : Side) (i : Nat) (v : Src) : (s.setSrc x i v).calm = s.calm := by simp [State.setSrc]

@[simp] theorem State.calm_setCan (x : Side) (k : Nat) (v : CanSt) : (s.setCan x k v).calm = s.calm := by simp [State.setCan]

@[simp] theorem State.calm_setHart (x : Side) (h : Nat) (v : Hart) : (s.setHart x h v).calm = s.calm := by simp [State.setHart]

@[simp] theorem State.calm_setBridge (x : Side) (i : Nat) (v : Bridge) : (s.setBridge x i v).calm = s.calm := by simp [State.setBridge]

@[simp] theorem State.calm_took : s.took.calm = s.calm := by simp [State.took, ↓State.calm_mk]

/-! ## Memory, the log and the router -/

@[simp] theorem State.calm_setByte (x : Side) (a : Nat) (v : Byte) : (s.setByte x a v).calm = s.calm :=
  State.calm_mk s _ _ _ _ _ _ _ _ _

@[simp] theorem State.calm_store (x : Side) (bs : List Nat) : ∀ (s : State) (a : Nat), (s.store x a bs).calm = s.calm := by
  induction bs with
  | nil => exact fun _ _ => rfl
  | cons b l ih => exact fun s a => (ih _ _).trans (State.calm_setByte x a _)

@[simp] theorem State.calm_storeLE (x : Side) (a n v : Nat) : (s.storeLE x a n v).calm = s.calm := by simp [State.storeLE]

@[simp] theorem State.calm_intr (x : Side) (n : Nat) : (s.intr x n).calm = s.calm := by simp +decide [State.intr]

@[simp] theorem State.calm_ashFill (x : Side) (old : State) : (s.ashFill x old).calm = s.calm := by simp +decide [State.ashFill]

@[simp] theorem State.calm_ashPut (x : Side) (prod : Nat) (e : LogEntry) :
    (s.ashPut x prod e).calm = s.calm := by simp +decide [State.ashPut]

@[simp] theorem State.calm_log (x : Side) (code prod : Nat) (args : List Arg) : (s.log x code prod args).calm = s.calm := by
  unfold State.log
  dsimp only
  repeat' split
  all_goals simp

@[simp] theorem State.calm_logBoth (code prod : Nat) (args : List Arg) : (s.logBoth code prod args).calm = s.calm := by simp [State.logBoth]

@[simp] theorem State.calm_logFault (x : Side) (prod cause init world size : Nat) (write : Bool) (addr : Nat) :
    (s.logFault x prod cause init world size write addr).calm = s.calm := by simp [State.logFault]

@[simp] theorem State.calm_logFaultBoth (prod cause init world size : Nat) (write : Bool) (addr : Nat) :
    (s.logFaultBoth prod cause init world size write addr).calm = s.calm := by simp [State.logFaultBoth]

/-! ## Doors' replies and the interrupts of the units -/

@[simp] theorem State.calm_pairPull1 (x : Side) : (s.pairPull1 x).calm = s.calm := by
  unfold State.pairPull1
  dsimp only
  repeat' split
  all_goals simp

@[simp] theorem State.calm_pairPull (x : Side) : (s.pairPull x).calm = s.calm := State.calm_iter (fun _ => State.calm_pairPull1 x) 64 s

@[simp] theorem State.calm_flueEvt (f : Fld) (hf : f.reg ∉ calmRegs) : (s.flueEvt f).calm = s.calm :=
  (State.calm_mk _ _ _ _ _ _ _ _ _ _).trans (State.calm_set _ _ _ _ hf)

@[simp] theorem State.calm_canIrq (x : Side) (k : Nat) (f : Fld) (hf : f.reg ∉ calmRegs) : (s.canIrq x k f).calm = s.calm := by
  unfold State.canIrq
  dsimp only
  split <;> simp [hf]

@[simp] theorem State.calm_dmaIrq (x : Side) (n : Nat) : (s.dmaIrq x n).calm = s.calm := by simp [State.dmaIrq]

@[simp] theorem State.calm_dmaErr (x : Side) (n code : Nat) : (s.dmaErr x n code).calm = s.calm := by simp +decide [State.dmaErr]

@[simp] theorem State.calm_dmaHalt (x : Side) (n : Nat) : (s.dmaHalt x n).calm = s.calm := by simp +decide [State.dmaHalt]

@[simp] theorem State.calm_dmaStop (x : Side) (n cause : Nat) : (s.dmaStop x n cause).calm = s.calm := by simp [State.dmaStop]

/-! ## The loss of a side, ECC and checkpoints -/

@[simp] theorem State.calm_returnWaits : s.returnWaits.calm = s.calm := by
  have hturns : ∀ (s : State) (x : Side) (l : List Nat) (f : State → Nat → Tab Nat),
      (s.each l (fun s t => s.setSide x { s.side x with returnAt := f s t })).calm = s.calm :=
    fun _ _ _ _ => by simp
  refine State.calm_each (fun s x => ?_) _ s
  exact (State.calm_set _ _ _ _ (by decide)).trans (hturns _ _ _ _)

@[simp] theorem State.calm_sideDown (x : Side) (cause : Nat) : (s.sideDown x cause).calm = s.calm := by simp +decide [State.sideDown]

@[simp] theorem State.calm_eccSeen (x : Side) (a : Nat) (e : Ecc) : (s.eccSeen x a e).calm = s.calm := by
  unfold State.eccSeen
  repeat' split
  all_goals simp +decide

@[simp] theorem State.calm_eccRead (x : Side) (a n : Nat) (lost corr : Option Word40) : (s.eccRead x a n lost corr).2.calm = s.calm := by
  unfold State.eccRead
  dsimp only
  repeat' split
  all_goals simp

@[simp] theorem State.calm_touch (x : Side) (a n : Nat) : (s.touch x a n).calm = s.calm := by simp [State.touch]

@[simp] theorem State.calm_unreserve (x : Side) (a n : Nat) : (s.unreserve x a n).calm = s.calm := by
  refine State.calm_each (fun s a => ?_) _ s
  repeat' split
  all_goals simp +decide

@[simp] theorem State.calm_write (x : Side) (a : Nat) (bs : List Nat) : (s.write x a bs).calm = s.calm := by simp [State.write]

@[simp] theorem State.calm_ckptStart (x : Side) (slot : Nat) : (s.ckptStart x slot).calm = s.calm := by simp +decide [State.ckptStart]

@[simp] theorem State.calm_copyLines (x : Side) (ls : List (Nat × Nat)) :
    (s.copyLines x ls).calm = s.calm := by simp +decide [State.copyLines]

@[simp] theorem State.calm_ckptCut (x : Side) (ls : List (Nat × Nat)) : (s.ckptCut x ls).calm = s.calm := by simp +decide [State.ckptCut]

@[simp] theorem State.calm_ckptTear (x : Side) : (s.ckptTear x).calm = s.calm := by
  unfold State.ckptTear
  split <;> simp

/-! ## What a refused access does -/

@[simp] theorem State.calm_stepEnd (x : Side) (h : Nat) : (s.stepEnd x h).calm = s.calm := by simp [State.stepEnd]

@[simp] theorem State.calm_exception (x : Side) (h cause tval : Nat) :
    (s.exception x h cause tval).calm = s.calm := by simp [State.exception]

@[simp] theorem State.calm_secEvent (x : Side) (b : Nat) : (s.secEvent x b).calm = s.calm := by simp [State.secEvent]

@[simp] theorem State.calm_wotViolation (x : Side) (init w k a : Nat) :
    (s.wotViolation x init w k a).calm = s.calm := by simp +decide [State.wotViolation]

@[simp] theorem State.calm_accessFault (x : Side) (o : Origin) (write : Bool) (a : Nat) : (s.accessFault x o write a).calm = s.calm := by
  unfold State.accessFault
  split <;> simp

@[simp] theorem State.calm_busError (x : Side) (o : Origin) (cause size : Nat) (write : Bool) (a : Nat) :
    (s.busError x o cause size write a).calm = s.calm := by simp [State.busError, ↓State.calm_mk]

@[simp] theorem State.calm_stepDone (x : Side) (o : Origin) : (s.stepDone x o).calm = s.calm := by
  unfold State.stepDone
  split <;> simp

@[simp] theorem State.calm_guarded (x : Side) (o : Origin) (a size : Nat) (write : Bool) {f : State → State}
    (hf : ∀ s, (f s).calm = s.calm) : (s.guarded x o a size write f).calm = s.calm := by
  unfold State.guarded
  repeat' split
  all_goals simp [↓State.calm_mk, hf]

/-- A field that a write may change is in none of `calmRegs`. -/
def Reg.Calm (r : Reg) : Prop := ∀ f ∈ r.fields, f.reg ∈ calmRegs → f.acc = .ro

theorem State.calm_writeField (h : Holder) (i v : Nat) {f : Fld} (hf : f.reg ∈ calmRegs → f.acc = .ro) :
    (s.writeField h i v f).calm = s.calm := by
  by_cases hreg : f.reg ∈ calmRegs
  · rw [State.writeField, hf hreg]
  · unfold State.writeField
    split <;> simp [hreg]

@[simp] theorem State.calm_writeReg (h : Holder) {r : Reg} (i v : Nat) (hr : r.Calm) : (s.writeReg h r i v).calm = s.calm := by
  have hfields : ∀ l : List Fld, (∀ f ∈ l, f.reg ∈ calmRegs → f.acc = .ro) → ∀ s : State,
      (s.each l (fun s f => s.writeField h i v f)).calm = s.calm := by
    intro l
    induction l with
    | nil => exact fun _ _ => rfl
    | cons f l ih =>
      intro hl s
      have hrest := ih (fun g hg => hl g (List.mem_cons_of_mem f hg)) (s.writeField h i v f)
      exact hrest.trans (State.calm_writeField h i v (hl f List.mem_cons_self))
  exact hfields _ hr s

/-! ## Accesses to memory -/

@[simp] theorem State.calm_memRead (x : Side) (o : Origin) (a size : Nat) (e : Ecc) (write : Bool) :
    (s.memRead x o a size e write).calm = s.calm := by simp [State.memRead, ↓State.calm_mk]

@[simp] theorem State.calm_reserveLine (x : Side) (o : Origin) (r : Option Nat) : (s.reserveLine x o r).calm = s.calm := by
  unfold State.reserveLine
  split <;> simp

@[simp] theorem State.calm_memAccess (x : Side) (o : Origin) (a size : Nat) (k : AccKind) (v : Nat) :
    (s.memAccess x o a size k v).calm = s.calm := by
  unfold State.memAccess
  repeat' split
  all_goals simp [↓State.calm_mk]

@[simp] theorem State.calm_waitFor (x : Side) (o : Origin) (a size : Nat) (k : AccKind) (v : Nat) :
    (s.waitFor x o a size k v).calm = s.calm := by
  unfold State.waitFor
  split <;> simp

@[simp] theorem State.calm_runWaits (x : Side) : (s.runWaits x).calm = s.calm := by simp [State.runWaits]

@[simp] theorem State.calm_dropWaits (x : Side) (h : Nat) : (s.dropWaits x h).calm = s.calm := by simp [State.dropWaits]

/-! ## The LIFE unit and the switch -/

@[simp] theorem State.calm_lifeGo (x : Side) (v : Nat) : (s.lifeGo x v).calm = s.calm := by simp +decide [State.lifeGo]

@[simp] theorem State.calm_lifeRelease (x : Side) (v : Nat) : (s.lifeRelease x v).calm = s.calm := by simp [State.lifeRelease]

@[simp] theorem State.calm_cnt (p k n : Nat) : (s.cnt p k n).calm = s.calm := by simp +decide [State.cnt]

@[simp] theorem State.calm_setArriving (p : Nat) (v : Arriving) :
    (s.setArriving p v).calm = s.calm := by simp [State.setArriving, ↓State.calm_mk]

@[simp] theorem State.calm_grantCells (want : List (Nat × Nat)) : (s.grantCells want).calm = s.calm :=
  State.calm_each (f := fun s p => s.setArriving p (s.drawCell p)) (fun _ _ => State.calm_setArriving _ _) _ s

@[simp] theorem State.calm_drawCells (want : List (Nat × Nat)) : (s.drawCells want).calm = s.calm :=
  State.calm_iter (fun _ => State.calm_grantCells want) 37 s

theorem State.calm_takeCells_inl {p id : Nat} (h : s.takeCells p = .inl (id, t)) : t.calm = s.calm := by
  unfold State.takeCells at h
  dsimp only at h
  split at h <;> cases h
  rfl

theorem State.calm_takeCells_inr {p k : Nat} (h : s.takeCells p = .inr (k, t)) : t.calm = s.calm := by
  unfold State.takeCells at h
  dsimp only at h
  split at h <;> cases h
  rfl

@[simp] theorem State.calm_hold (id : Nat) : (s.hold id).calm = s.calm := by simp [State.hold, ↓State.calm_mk]

@[simp] theorem State.calm_release (id : Nat) : (s.release id).calm = s.calm := by simp [State.release, ↓State.calm_mk]

@[simp] theorem State.calm_reclaim (id : Nat) : (s.reclaim id).calm = s.calm := by simp [State.reclaim, ↓State.calm_mk]

theorem State.calm_validate {p : Nat} {raw b : List Nat} (h : s.validate p raw = .ok (b, t)) : t.calm = s.calm := by
  unfold State.validate at h
  dsimp only at h
  repeat' split at h
  all_goals cases h
  all_goals simp +decide [State.setSaPn]

@[simp] theorem State.calm_setFdb (l : List FdbEntry) : (s.setFdb l).calm = s.calm := by simp [State.setFdb, ↓State.calm_mk]

@[simp] theorem State.calm_learn (p : Nat) (c : Classified) : (s.learn p c).calm = s.calm := by
  unfold State.learn
  dsimp only
  repeat' split
  all_goals simp +decide

@[simp] theorem State.calm_meter (f inCol len : Nat) : (s.meter f inCol len).2.calm = s.calm := by
  refine (State.calm_inc _ _ _ ?_).trans rfl
  repeat' split
  all_goals decide

@[simp] theorem State.calm_recover (n : Nat) (seq : Option Nat) : (s.recover n seq).2.calm = s.calm := by
  unfold State.recover
  dsimp only
  repeat' split
  all_goals simp +decide [↓State.calm_mk]

@[simp] theorem State.calm_setQueue (p t : Nat) (l : List QFrame) :
    (s.setQueue p t l).calm = s.calm := by simp [State.setQueue, ↓State.calm_mk]

@[simp] theorem State.calm_wred (p t col : Nat) : (s.wred p t col).2.calm = s.calm := rfl

@[simp] theorem State.calm_offer (p n : Nat) (q : QFrame) (count : Bool) : (s.offer p n q count).2.calm = s.calm := by
  unfold State.offer
  dsimp only
  repeat' split
  all_goals simp

@[simp] theorem State.calm_mirrorCopy (m : Nat) (q : QFrame) :
    (s.mirrorCopy m q).calm = s.calm := by simp +decide [State.mirrorCopy, ↓State.calm_mk]

@[simp] theorem State.calm_mirrorIngress (p : Nat) (filter : Option Nat) (q : QFrame) :
    (s.mirrorIngress p filter q).calm = s.calm := by simp +decide [State.mirrorIngress]

@[simp] theorem State.calm_streams (p : Nat) (c : Classified) (filter : Option Nat) : (s.streams p c filter).2.calm = s.calm := by
  unfold State.streams
  dsimp only
  repeat' split
  all_goals simp +decide

@[simp] theorem State.calm_forward (db : List FdbEntry) (p id : Nat) (c : Classified) (filter : Option Nat) :
    (s.forward db p id c filter).calm = s.calm := by
  have hstreams := State.calm_streams (s := s) p c filter
  unfold State.forward
  dsimp only
  split
  · simp
  · split
    · simp
    · split
      · next hs => exact (congrArg (fun r => r.2.calm) hs).symm.trans hstreams
      · next v hs =>
        have hv : v.calm = s.calm := (congrArg (fun r => r.2.calm) hs).symm.trans hstreams
        split <;> simp [hv]

@[simp] theorem State.calm_receive (db : List FdbEntry) (p : Nat) (raw : List Nat) (good : Bool) :
    (s.receive db p raw good).calm = s.calm := by
  unfold State.receive
  dsimp only
  split
  · next htake => exact (State.calm_cnt _ _ _).trans (State.calm_takeCells_inr htake)
  · next u htake =>
    refine ((State.calm_reclaim _).trans ?_).trans (State.calm_takeCells_inl htake)
    split
    · simp
    · split
      · simp
      · split
        · simp
        · next v hplain =>
          have hvalid : v.calm = u.calm := by
            split at hplain
            · exact State.calm_validate hplain
            · cases hplain
              rfl
          split <;> simp [hvalid]

/-! ## The frame interface -/

@[simp] theorem State.calm_netifStop (x : Side) (cause a : Nat) (write : Bool) :
    (s.netifStop x cause a write).calm = s.calm := by simp +decide [State.netifStop]

@[simp] theorem State.calm_netifDone (x : Side) : (s.netifDone x).calm = s.calm := by simp [State.netifDone]

@[simp] theorem State.calm_netifRead (x : Side) (a n : Nat) (lost corr : Option Word40) :
    (s.netifRead x a n lost corr).2.calm = s.calm := by
  unfold State.netifRead
  dsimp only
  split <;> simp

@[simp] theorem State.calm_netifFrame (x : Side) (buf n : Nat) : (s.netifFrame x buf n).calm = s.calm := by simp [State.netifFrame]

@[simp] theorem State.calm_netifReturn (x : Side) (a i' : Nat) (bad : Bool) :
    (s.netifReturn x a i' bad).calm = s.calm := by simp +decide [State.netifReturn]

@[simp] theorem State.calm_netifSend (x : Side) (lost corr : Option Word40) :
    ∀ (k i : Nat) (s : State), (s.netifSend x lost corr i k).calm = s.calm
  | 0, _, _ => rfl
  | k + 1, i, s => by
    have ih := State.calm_netifSend x lost corr k
    unfold State.netifSend
    dsimp only
    repeat' split
    all_goals simp +decide [ih]

@[simp] theorem State.calm_netifRun (x : Side) (lost corr : Option Word40) :
    (s.netifRun x lost corr).calm = s.calm := by simp [State.netifRun]

@[simp] theorem State.calm_netifKick (x : Side) (v : Nat) (lost corr : Option Word40) :
    (s.netifKick x v lost corr).calm = s.calm := by simp [State.netifKick]

@[simp] theorem State.calm_netifResume (x : Side) : (s.netifResume x).calm = s.calm := by simp [State.netifResume]

/-! ## Counters of events and the tallies -/

@[simp] theorem State.calm_perfWrap (x : Side) (n : Nat) : (s.perfWrap x n).calm = s.calm := by simp +decide [State.perfWrap]

@[simp] theorem State.calm_perfStep (x : Side) (n : Nat) : (s.perfStep x n).1.calm = s.calm := by simp +decide [State.perfStep]

@[simp] theorem State.calm_perfInc (x : Side) (n : Nat) : (s.perfInc x n).calm = s.calm := by simp [State.perfInc]

@[simp] theorem State.calm_perfEvent (x : Side) (e : PerfEvent) : (s.perfEvent x e).calm = s.calm := by simp +decide [State.perfEvent]

@[simp] theorem State.calm_ownEvent (x : Side) (c i w : Nat) (a : Option Nat) :
    (s.ownEvent x c i w a).calm = s.calm := by simp [State.ownEvent]

@[simp] theorem State.calm_perfRead (x : Side) (n : Nat) :
    (s.perfRead x n).calm = s.calm := by simp +decide [State.perfRead, ↓State.calm_mk]

@[simp] theorem State.calm_bankWrite (x : Side) (a : Nat) (slots : List Nat) :
    (s.bankWrite x a slots).calm = s.calm := by simp +decide [State.bankWrite]

@[simp] theorem State.calm_tallyResume (x : Side) : (s.tallyResume x).calm = s.calm := by
  unfold State.tallyResume
  split <;> simp

/-! ## Errors of the bridges, locks and atomic operations -/

@[simp] theorem State.calm_pwerr (x : Side) (i : Nat) (t : Txn) (cause : Nat) :
    (s.pwerr x i t cause).calm = s.calm := by simp +decide [State.pwerr]

@[simp] theorem State.calm_farError (x : Side) (t : Txn) (cause : Nat) :
    (s.farError x t cause).calm = s.calm := by simp [State.farError, ↓State.calm_mk]

@[simp] theorem State.calm_txnFails (x : Side) (i : Nat) (t : Txn) (cause : Nat) :
    (s.txnFails x i t cause).calm = s.calm := by simp [State.txnFails]

@[simp] theorem State.calm_unlocked (x : Side) : (s.unlocked x).calm = s.calm := by simp [State.unlocked]

@[simp] theorem State.calm_keepLocks (x : Side) (keep : LineLock → Bool) : (s.keepLocks x keep).calm = s.calm := by simp [State.keepLocks]

@[simp] theorem State.calm_sweepLocks (x : Side) : (s.sweepLocks x).calm = s.calm := by simp [State.sweepLocks]

@[simp] theorem State.calm_swi (x : Side) (v : Nat) : (s.swi x v).calm = s.calm := by simp +decide [State.swi]

@[simp] theorem State.calm_hartAccess (x : Side) (o : Origin) (off : Nat) (write : Bool) {f : State → Nat → State}
    (hf : ∀ s c, (f s c).calm = s.calm) : (s.hartAccess x o off write f).calm = s.calm := by
  refine State.calm_guarded x o _ _ _ fun s => ?_
  repeat' split
  all_goals simp [hf]

@[simp] theorem State.calm_atomicErr (x : Side) (h cause : Nat) : (s.atomicErr x h cause).calm = s.calm := by simp +decide [State.atomicErr]

@[simp] theorem State.calm_atCtrl (x : Side) (h v : Nat) : (s.atCtrl x h v).calm = s.calm := by simp +decide [State.atCtrl]

@[simp] theorem State.calm_breakLock (x : Side) (h : Nat) : (s.breakLock x h).calm = s.calm := by simp +decide [State.breakLock]

@[simp] theorem State.calm_endLocked (x : Side) (h cause : Nat) : (s.endLocked x h cause).calm = s.calm := by simp [State.endLocked]

@[simp] theorem State.calm_coreReset (x : Side) (h : Nat) : (s.coreReset x h).calm = s.calm := by simp [State.coreReset]

@[simp] theorem State.calm_lockAcquire (x : Side) (h : Nat) : (s.lockAcquire x h).calm = s.calm := by simp +decide [State.lockAcquire]

@[simp] theorem State.calm_lockRelease (x : Side) (h : Nat) : (s.lockRelease x h).calm = s.calm := by simp +decide [State.lockRelease]

@[simp] theorem State.calm_lockCtrl (x : Side) (h v : Nat) : (s.lockCtrl x h v).calm = s.calm := by simp [State.lockCtrl]

@[simp] theorem State.calm_lockRead (x : Side) (h : Nat) : (s.lockRead x h).calm = s.calm := by
  unfold State.lockRead
  simp +decide [↓State.calm_mk]

/-! ## CAN -/

@[simp] theorem State.calm_cs (x : Side) (f : Fld) (k v : Nat) (hf : f.reg ∉ calmRegs) :
    (s.cs x f k v).calm = s.calm := State.calm_set _ _ _ _ hf

@[simp] theorem State.calm_canCnt (x : Side) (k i : Nat) : (s.canCnt x k i).calm = s.calm := by simp +decide [State.canCnt]

@[simp] theorem State.calm_txDone (x : Side) (k b result : Nat) : (s.txDone x k b result).calm = s.calm := by simp +decide [State.txDone]

@[simp] theorem State.calm_txDrop (x : Side) (k b : Nat) : (s.txDrop x k b).calm = s.calm := by simp +decide [State.txDrop]

@[simp] theorem State.calm_ttMissed (x : Side) (k : Nat) (b : Option Nat) : (s.ttMissed x k b).calm = s.calm := by
  unfold State.ttMissed
  split <;> simp +decide

@[simp] theorem State.calm_ttMiss (x : Side) (k : Nat) (t : CanTx) : (s.ttMiss x k t).calm = s.calm := by simp [State.ttMiss]

@[simp] theorem State.calm_ttFlush (x : Side) (k : Nat) : (s.ttFlush x k).calm = s.calm := by
  unfold State.ttFlush
  split <;> simp

@[simp] theorem State.calm_ttStop (x : Side) (k : Nat) : (s.ttStop x k).calm = s.calm := by simp +decide [State.ttStop]

@[simp] theorem State.calm_canSetMode (x : Side) (k m : Nat) : (s.canSetMode x k m).calm = s.calm := by simp +decide [State.canSetMode]

@[simp] theorem State.calm_setSealRec (x : Side) (i slot tx rx : Nat) :
    (s.setSealRec x i slot tx rx).calm = s.calm := by simp [State.setSealRec]

@[simp] theorem State.calm_canEcc (x : Side) (k a : Nat) (e : Ecc) : (s.canEcc x k a e).calm = s.calm := by
  unfold State.canEcc
  split <;> simp

@[simp] theorem State.calm_rxqAck (x : Side) (k q v : Nat) : (s.rxqAck x k q v).calm = s.calm := by simp +decide [State.rxqAck]

@[simp] theorem State.calm_txSet (x : Side) (k v : Nat) : (s.txSet x k v).calm = s.calm := by simp +decide [State.txSet]

@[simp] theorem State.calm_txCancel (x : Side) (k v : Nat) : (s.txCancel x k v).calm = s.calm := by simp +decide [State.txCancel]

@[simp] theorem State.calm_shadowCtrl (x : Side) (k v : Nat) : (s.shadowCtrl x k v).calm = s.calm := by simp +decide [State.shadowCtrl]

/-! ## Keys, ownership, the Poker and checkpoints on command -/

@[simp] theorem State.calm_keysGo (x : Side) (v : Nat) : (s.keysGo x v).calm = s.calm := by simp +decide [State.keysGo]

@[simp] theorem State.calm_wotGo (x : Side) (v : Nat) : (s.wotGo x v).calm = s.calm := by simp +decide [State.wotGo]

@[simp] theorem State.calm_secClear (x : Side) (v : Nat) : (s.secClear x v).calm = s.calm := by
  unfold State.secClear
  split
  · exact State.calm_log _ _ _ _
  · rfl

@[simp] theorem State.calm_pokerEnd (x : Side) : (s.pokerEnd x).calm = s.calm := by simp +decide [State.pokerEnd]

@[simp] theorem State.calm_pokerCtrl (x : Side) (v : Nat) : (s.pokerCtrl x v).calm = s.calm := by simp [State.pokerCtrl]

@[simp] theorem State.calm_ckptGo (x : Side) (v : Nat) : (s.ckptGo x v).calm = s.calm := by simp [State.ckptGo]

/-! ## The Flue die's tables and ports -/

@[simp] theorem State.calm_fdbResult (r : Nat) : (s.fdbResult r).calm = s.calm := by simp +decide [State.fdbResult]

@[simp] theorem State.calm_fdbInsert : s.fdbInsert.calm = s.calm := by
  unfold State.fdbInsert
  repeat' split
  all_goals simp

@[simp] theorem State.calm_fdbDelete : s.fdbDelete.calm = s.calm := by
  unfold State.fdbDelete
  repeat' split
  all_goals simp

@[simp] theorem State.calm_fdbLookup : s.fdbLookup.calm = s.calm := by
  unfold State.fdbLookup
  repeat' split
  all_goals simp +decide

@[simp] theorem State.calm_fdbFlush : s.fdbFlush.calm = s.calm := by simp [State.fdbFlush]

@[simp] theorem State.calm_fdbFlushPort (p : Nat) : (s.fdbFlushPort p).calm = s.calm := by simp [State.fdbFlushPort]

@[simp] theorem State.calm_fdbCtrl (v : Nat) : (s.fdbCtrl v).calm = s.calm := by
  unfold State.fdbCtrl
  dsimp only
  repeat' split
  all_goals simp +decide

@[simp] theorem State.calm_flushPort (p : Nat) : (s.flushPort p).calm = s.calm := by simp [State.flushPort]

@[simp] theorem State.calm_portSleep (p : Nat) : (s.portSleep p).calm = s.calm := by simp +decide [State.portSleep]

@[simp] theorem State.calm_portSleepReq (p : Nat) : (s.portSleepReq p).calm = s.calm := by
  unfold State.portSleepReq
  split <;> simp +decide [↓State.calm_mk]

@[simp] theorem State.calm_portWake (p : Nat) : (s.portWake p).calm = s.calm := by simp +decide [State.portWake]

@[simp] theorem State.calm_portPulse (p : Nat) : (s.portPulse p).calm = s.calm := by simp [State.portPulse, ↓State.calm_mk]

@[simp] theorem State.calm_portCtrl (p v : Nat) : (s.portCtrl p v).calm = s.calm := by simp [State.portCtrl]

/-! ## Reads and writes of unit registers with an effect of their own -/

@[simp] theorem State.calm_timeRead (x : Side) (d : Nat) : (s.timeRead x d).calm = s.calm := by
  unfold State.timeRead
  split <;> simp +decide [↓State.calm_mk]

@[simp] theorem State.calm_doorAccess (x : Side) (o : Origin) (n off size : Nat) (write data : Bool) {f : State → State}
    (hf : ∀ s, (f s).calm = s.calm) : (s.doorAccess x o n off size write data f).calm = s.calm := by
  refine State.calm_guarded x o _ _ _ fun s => ?_
  repeat' split
  all_goals simp [hf]

@[simp] theorem State.calm_append (x : Side) (i w : Nat) (compared : Bool) :
    (s.append x i w compared).calm = s.calm := by simp [State.append]

@[simp] theorem State.calm_doorPush (x : Side) (o : Origin) (n off size w : Nat) :
    (s.doorPush x o n off size w).calm = s.calm := by simp +decide [State.doorPush]

@[simp] theorem State.calm_doorCmd (x : Side) (o : Origin) (n w : Nat) : (s.doorCmd x o n w).calm = s.calm := by simp [State.doorCmd]

@[simp] theorem State.calm_doorHi (x : Side) (o : Origin) (n v : Nat) : (s.doorHi x o n v).calm = s.calm := by simp [State.doorHi]

@[simp] theorem State.calm_doorLo (x : Side) (o : Origin) (n v : Nat) : (s.doorLo x o n v).calm = s.calm := by simp [State.doorLo]

@[simp] theorem State.calm_pop (x : Side) (i : Nat) : (s.pop x i).2.calm = s.calm := by
  unfold State.pop
  dsimp only
  split <;> simp

@[simp] theorem State.calm_doorRead (x : Side) (o : Origin) (n : Nat) :
    (s.doorRead x o n).calm = s.calm := by simp [State.doorRead, ↓State.calm_mk]

@[simp] theorem State.calm_doorReadHi (x : Side) (o : Origin) (n : Nat) : (s.doorReadHi x o n).calm = s.calm :=
  State.calm_doorAccess x o n 0x24 4 false true fun _ =>
    (State.calm_mk _ _ _ _ _ _ _ _ _ _).trans ((State.calm_setSrc x n _).trans (State.calm_pop x n))

@[simp] theorem State.calm_doorCtrl (x : Side) (o : Origin) (n v : Nat) : (s.doorCtrl x o n v).calm = s.calm := by simp [State.doorCtrl]

@[simp] theorem State.calm_doorFlush (x : Side) (n : Nat) : (s.doorFlush x n).calm = s.calm := by simp +decide [State.doorFlush]

@[simp] theorem State.calm_setPairCore (x : Side) (c : Nat) (v : PairCore) :
    (s.setPairCore x c v).calm = s.calm := by simp [State.setPairCore]

@[simp] theorem State.calm_pairAccess (x : Side) (o : Origin) (off : Nat) (write : Bool) {f : State → Nat → State}
    (hf : ∀ s c, (f s c).calm = s.calm) : (s.pairAccess x o off write f).calm = s.calm := by
  refine State.calm_guarded x o _ _ _ fun s => ?_
  repeat' split
  all_goals simp [hf]

/-! ## The safety pair -/

@[simp] theorem State.calm_pairClear (x : Side) : (s.pairClear x).calm = s.calm := by simp [State.pairClear]

@[simp] theorem State.calm_pairCoreRun (x : Side) (c : Nat) (run : Bool) : (s.pairCoreRun x c run).calm = s.calm := by
  unfold State.pairCoreRun
  split <;> simp +decide

@[simp] theorem State.calm_pairRun (x : Side) (run : Bool) : (s.pairRun x run).calm = s.calm := by simp [State.pairRun]

@[simp] theorem State.calm_pairReset (x : Side) : (s.pairReset x).calm = s.calm := by simp [State.pairReset]

@[simp] theorem State.calm_pairHalt (x : Side) : (s.pairHalt x).calm = s.calm := by simp +decide [State.pairHalt]

@[simp] theorem State.calm_pairRestart (x : Side) (row : List Nat) :
    (s.pairRestart x row).calm = s.calm := by simp +decide [State.pairRestart]

@[simp] theorem State.calm_pairMismatch (x : Side) (kind : Nat) :
    (s.pairMismatch x kind).calm = s.calm := by simp +decide [State.pairMismatch]

@[simp] theorem State.calm_pairMatch (x : Side) (bad : Bool) : (s.pairMatch x bad).calm = s.calm := by
  unfold State.pairMatch
  split <;> simp +decide

@[simp] theorem State.calm_pairOutLo (x : Side) (c v : Nat) (bad : Bool) :
    (s.pairOutLo x c v bad).calm = s.calm := by simp [State.pairOutLo]

@[simp] theorem State.calm_sigMatch (x : Side) (bad : Bool) : (s.sigMatch x bad).calm = s.calm := by
  unfold State.sigMatch
  split <;> simp +decide

@[simp] theorem State.calm_pairSigLo (x : Side) (c v : Nat) (bad : Bool) :
    (s.pairSigLo x c v bad).calm = s.calm := by simp [State.pairSigLo]

@[simp] theorem State.calm_pairRplHi (x : Side) (c : Nat) : (s.pairRplHi x c).calm = s.calm := by simp [State.pairRplHi, ↓State.calm_mk]

@[simp] theorem State.calm_worldKick (x : Side) (w v : Nat) : (s.worldKick x w v).calm = s.calm := by simp [State.worldKick]

@[simp] theorem State.calm_intrClaim (x : Side) (w : Nat) : (s.intrClaim x w).calm = s.calm := by
  unfold State.intrClaim
  split <;> simp +decide [↓State.calm_mk]

@[simp] theorem State.calm_dmaRefuse (x : Side) (n code : Nat) : (s.dmaRefuse x n code).calm = s.calm := by simp [State.dmaRefuse]

@[simp] theorem State.calm_dmaCtrl (x : Side) (n v : Nat) : (s.dmaCtrl x n v).calm = s.calm := by simp +decide [State.dmaCtrl]

@[simp] theorem State.calm_ashSel (x : Side) (v : Nat) : (s.ashSel x v).calm = s.calm :=
  (State.calm_each (f := fun s k => s.set (.side x) F.ASH_W k ((s.ashEntry x (v % 4096)).words.getD k 0))
    (fun _ _ => State.calm_set _ _ _ _ (by decide)) (List.range 4) _).trans (State.calm_set _ _ _ _ (by decide))

@[simp] theorem State.calm_ashFlush (x : Side) (cause : Nat) : (s.ashFlush x cause).calm = s.calm := by simp [State.ashFlush]

/-! ## Accesses of a side to its own map -/

@[simp] theorem State.calm_regRead (x : Side) (o : Origin) (a size : Nat) (h : Holder) (r : Reg) (i : Nat) :
    (s.regRead x o a size h r i).calm = s.calm := by
  have hplain : ∀ (s : State) (k : Nat), ({ s with resp := .data (s.regValue x (s.worldOf x o) h r k) } : State).calm = s.calm :=
    fun s _ => State.calm_mk s _ _ _ _ _ _ _ _ _
  unfold State.regRead
  dsimp only
  repeat' split
  all_goals simp [hplain]

@[simp] theorem State.calm_storageRead (x : Side) (o : Origin) (m : PageMem) (a size : Nat) (e : Ecc) :
    (s.storageRead x o m a size e).calm = s.calm := by
  unfold State.storageRead
  split <;> simp [↓State.calm_mk]

@[simp] theorem State.calm_unitRead (x : Side) (o : Origin) (a off size : Nat) (e : Ecc) : (s.unitRead x o a off size e).calm = s.calm := by
  unfold State.unitRead
  repeat' split
  all_goals simp

@[simp] theorem State.calm_setMasked (h : Holder) (f : Fld) (i v m : Nat) (hf : f.reg ∉ calmRegs) :
    (s.setMasked h f i v m).calm = s.calm := State.calm_set _ _ _ _ hf

theorem regMap_calm : ∀ r ∈ regMap, r.Calm := by
  unfold Reg.Calm
  decide +kernel

theorem findReg_calm {kind : HolderKind} {off i : Nat} {r : Reg} (h : findReg kind off = some (r, i)) : r.Calm := by
  obtain ⟨q, hq, hfound⟩ := List.exists_of_findSome?_eq_some h
  have hr : r = q := by
    split at hfound
    · obtain ⟨k, -, hk⟩ := Option.map_eq_some_iff.1 hfound
      exact (congrArg Prod.fst hk).symm
    · cases hfound
  exact hr ▸ regMap_calm q hq

theorem flueRegAt_calm {off i : Nat} {h : Holder} {r : Reg} (hat : flueRegAt off = some (h, r, i)) : r.Calm := by
  unfold flueRegAt at hat
  repeat' split at hat
  all_goals cases hat
  all_goals exact findReg_calm (by assumption)

/-- No register of the map gives a write a field of `calmRegs`. -/
theorem regIn_calm {p : Place} {h : Holder} {r : Reg} {i : Nat} (hin : regIn x p = some (h, r, i)) : r.Calm := by
  unfold regIn at hin
  split at hin
  · split at hin
    · next hfound =>
      cases hin
      exact findReg_calm hfound
    · obtain ⟨q, hq, hk⟩ := Option.map_eq_some_iff.1 hin
      cases hk
      exact findReg_calm hq
  · exact flueRegAt_calm hin
  · obtain ⟨q, hq, hk⟩ := Option.map_eq_some_iff.1 hin
    cases hk
    exact findReg_calm hq
  · cases hin

theorem regCheck_calm {a size i : Nat} {h : Holder} {r : Reg} (hok : regCheck x a size = .ok (h, r, i)) : r.Calm := by
  unfold regCheck at hok
  repeat' split at hok
  all_goals cases hok
  exact regIn_calm (by assumption)

@[simp] theorem State.calm_regWrite (x : Side) (o : Origin) (a size v : Nat) (h : Holder) {r : Reg} (i : Nat) (hr : r.Calm) :
    (s.regWrite x o a size v h r i).calm = s.calm := by
  have hperm : (s.each [F.WOT_REG_PERM_R, F.WOT_REG_PERM_W, F.WOT_REG_PERM_X] fun s f =>
      s.set (Holder.side x) f i (bits v f.hi f.lo)).calm = s.calm := by
    simp +decide [State.each]
  simp +decide [State.regWrite, hr, hperm]

@[simp] theorem State.calm_unitWrite (x : Side) (o : Origin) (a off size v : Nat) : (s.unitWrite x o a off size v).calm = s.calm := by
  unfold State.unitWrite
  split
  · simp
  · split
    · repeat' split
      all_goals simp
    · split
      · simp
      · next hok => exact State.calm_regWrite x o a size v _ _ (regCheck_calm hok)

@[simp] theorem State.calm_memLoad (x : Side) (o : Origin) (a size : Nat) (k : AccKind) :
    (s.memLoad x o a size k).calm = s.calm := by simp [State.memLoad, ↓State.calm_mk]

@[simp] theorem State.calm_memStore (x : Side) (o : Origin) (a size : Nat) (k : AccKind) (v : Nat) :
    (s.memStore x o a size k v).calm = s.calm := by simp [State.memStore]

@[simp] theorem State.calm_atomicAccess (x : Side) (o : Origin) (a size : Nat) (k : AccKind) (v : Nat) :
    (s.atomicAccess x o a size k v).calm = s.calm := by simp [State.atomicAccess]

@[simp] theorem State.calm_localAccess (x : Side) (o : Origin) (a size : Nat) (k : AccKind) (v : Nat) :
    (s.localAccess x o a size k v).calm = s.calm := by
  unfold State.localAccess
  repeat' split
  all_goals simp

@[simp] theorem State.calm_localRead (x : Side) (o : Origin) (a size : Nat) (e : Ecc) :
    (s.localRead x o a size e).calm = s.calm := by simp [State.localRead]

@[simp] theorem State.calm_localWrite (x : Side) (o : Origin) (a size v : Nat) :
    (s.localWrite x o a size v).calm = s.calm := by simp [State.localWrite]

/-! ## The far side of a bridge, and its loss -/

@[simp] theorem State.calm_crossExec (x : Side) (t : Txn) (ecc : Ecc) : (s.crossExec x t ecc).calm = s.calm := by
  unfold State.crossExec
  repeat' split
  all_goals simp

@[simp] theorem State.calm_flueExec (x : Side) (t : Txn) (v : Nat) :
    (s.flueExec x t v).calm = s.calm := by
  have hfail : ∀ c, ({ s.logFaultBoth 27 c t.init t.world (if t.wide then 8 else 4) true t.addr with
      resp := .error c } : State).calm = s.calm :=
    fun c => (State.calm_mk _ _ _ _ _ _ _ _ _ _).trans (State.calm_logFaultBoth _ _ _ _ _ _ _)
  unfold State.flueExec
  dsimp only
  split
  · exact hfail 5
  · split
    · exact hfail 1
    · next hok =>
      have hr := regCheck_calm hok
      repeat' split
      all_goals simp [hr]

@[simp] theorem State.calm_dieRead (x : Side) (t : Txn) (prod : Nat) : (s.dieRead x t prod).calm = s.calm := by
  unfold State.dieRead
  dsimp only
  split <;> simp [↓State.calm_mk]

@[simp] theorem State.calm_farExec (x : Side) (i : Nat) (t : Txn) (ecc : Ecc) : (s.farExec x i t ecc).calm = s.calm := by
  unfold State.farExec
  repeat' split
  all_goals simp [↓State.calm_mk]

@[simp] theorem State.calm_lostEffect (x : Side) (i : Nat) (t : Txn) :
    (s.lostEffect x i t).calm = s.calm := by simp [State.lostEffect, ↓State.calm_mk]

@[simp] theorem State.calm_mayHaveDone (x : Side) (i : Nat) (t : Txn) : (s.mayHaveDone x i t).calm = s.calm := by simp [State.mayHaveDone]

@[simp] theorem State.calm_nearEnds (x : Side) (i : Nat) (t : Txn) : (s.nearEnds x i t).calm = s.calm := by simp +decide [State.nearEnds]

@[simp] theorem State.calm_farAbsent (x : Side) (i cause : Nat) : (s.farAbsent x i cause).calm = s.calm := by simp +decide [State.farAbsent]

@[simp] theorem State.calm_farReset (x : Side) : (s.farReset x).calm = s.calm := by simp [State.farReset]

@[simp] theorem State.calm_sentCompletes (x : Side) : (s.sentCompletes x).calm = s.calm := by simp [State.sentCompletes, ↓State.calm_mk]

/-! ## The units at step 3 of the sleep sequence (R152) -/

@[simp] theorem State.calm_sleepPort (p : Nat) : (s.sleepPort p).calm = s.calm := by simp +decide [State.sleepPort]

@[simp] theorem State.calm_sealSave (x : Side) : (s.sealSave x).calm = s.calm := by simp +decide [State.sealSave]

@[simp] theorem State.calm_sleepSide (x : Side) : (s.sleepSide x).calm = s.calm := by simp [State.sleepSide]

end Sys2Proof.Machine
end

section
/-! The first step of the sleep sequence stops the takes and disables the rules (R152). -/
namespace Sys2Proof.Machine
open Sys2Proof

variable {s t u : State} {x : Side}

/-! ## Folds over a list -/

/-- What one element of the list brings about and every element keeps holds at the end. -/
theorem State.each_of_mem {α : Type} {P : State → Prop} {f : State → α → State} {l : List α} {a : α} (ha : a ∈ l)
    (hdo : ∀ t, P (f t a)) (hkeep : ∀ t b, P t → P (f t b)) (s : State) : P (s.each l f) := by
  obtain ⟨front, back, rfl⟩ := List.append_of_mem ha
  rw [State.each, List.foldl_append]
  exact State.each_keeps hkeep back (hdo _)

/-! ## Step 1: takes stop and rules are disabled (R152) -/

/-- A field cleared anywhere leaves a field that is 0 at 0. -/
theorem State.get_set_zero {h k : Holder} {f g : Fld} {i j : Nat} (hz : s.get k g j = 0) : (s.set h f i 0).get k g j = 0 := by
  rw [State.get_set]
  split
  · exact Nat.zero_mod _
  · exact hz

theorem State.rulesOff_zero {k : Holder} {g : Fld} {j : Nat} (m : Matcher) (w : Option Nat) (hz : s.get k g j = 0) :
    (s.rulesOff m w).get k g j = 0 := by
  refine State.each_keeps (P := fun t => t.get k g j = 0) (fun t n h => ?_) _ hz
  split
  · exact State.get_set_zero h
  · exact h

theorem State.rulesOff_none_enabled {m : Matcher} {n : Nat} (hn : n < ruleCount m) (s : State) :
    (s.rulesOff m none).mq m F.SPK_RULE_CTRL_ENABLED n = 0 := by
  refine State.each_of_mem (P := fun t => t.mq m F.SPK_RULE_CTRL_ENABLED n = 0) (List.mem_range.2 hn) (fun t => ?_) (fun t k h => ?_) s
  · rw [if_pos (Or.inl rfl), State.mq, State.mw, State.get_set_self, Nat.zero_mod]
  · rw [if_pos (Or.inl rfl)]
    exact State.get_set_zero h

theorem State.rulesOff_touches (s : State) (m : Matcher) (w : Option Nat) : Touches [F.SPK_RULE_CTRL_ENABLED.reg] id .a s (s.rulesOff m w) := by
  refine State.each_keeps (fun t n h => ?_) _ (Touches.refl _ s)
  split
  · exact h.trans (Touches.set (by decide))
  · exact h

theorem matcher_mem_all (m : Matcher) : m ∈ [Matcher.side .a, Matcher.side .b, Matcher.flue] := by
  rcases m with (x | x) | _ <;> simp

theorem matcherHolder_ne_ember (m : Matcher) : (matcherHolder m).code ≠ Holder.ember.code := by
  rcases m with (x | x) | _ <;> decide

/-- Every rule of every matcher is disabled. -/
def State.allRulesOff (s : State) : State := s.each [Matcher.side .a, Matcher.side .b, Matcher.flue] (fun s m => s.rulesOff m none)

theorem State.allRulesOff_enabled {m : Matcher} {n : Nat} (hn : n < ruleCount m) (s : State) :
    s.allRulesOff.mq m F.SPK_RULE_CTRL_ENABLED n = 0 :=
  State.each_of_mem (P := fun t => t.mq m F.SPK_RULE_CTRL_ENABLED n = 0) (matcher_mem_all m)
    (fun t => t.rulesOff_none_enabled hn) (fun _ b h => State.rulesOff_zero b none h) s

theorem State.allRulesOff_touches (s : State) : Touches [F.SPK_RULE_CTRL_ENABLED.reg] id .a s s.allRulesOff :=
  State.each_keeps (fun t m h => h.trans (t.rulesOff_touches m none)) _ (Touches.refl _ s)

/-- The registers of the rules, time, memory and each Stoker's takes at the end of the first step. -/
structure Stopped (s t : State) : Prop where
  now : t.now = s.now
  mem : t.mem = s.mem
  taking : ∀ x, (t.side x).taking = false
  rules : ∀ (m : Matcher) (n : Nat), n < ruleCount m → t.mq m F.SPK_RULE_CTRL_ENABLED n = 0

theorem Noted.stopped (h : Noted x t u) (ht : Stopped s t) : Stopped s u := by
  obtain ⟨hnow, -, -, hmem, -, hother, -⟩ := h.rest
  have hself : (u.side x).taking = (t.side x).taking := congrArg (fun v => v.taking) h.side
  refine ⟨hnow.trans ht.now, hmem.trans ht.mem, fun y => ?_, fun m n hn => (h.get _ _ _ (by decide)).trans (ht.rules m n hn)⟩
  have hy : (u.side y).taking = (t.side y).taking := by
    cases x <;> cases y
    · exact hself
    · exact congrArg SideSt.taking hother
    · exact congrArg SideSt.taking hother
    · exact hself
  exact hy.trans (ht.taking y)

theorem State.awakeEnd_stopped (ht : Stopped s t) : Stopped s t.awakeEnd := by
  refine State.each_keeps (fun t x h => State.each_keeps (fun t k h => ?_) _ h) _ ht
  split
  · exact (t.log_noted x _ _ _).stopped h
  · exact h

theorem State.set_ember_stopped {f : Fld} {v : Nat} (ht : Stopped s t) : Stopped s (t.set .ember f 0 v) := by
  refine ⟨ht.now, ht.mem, ht.taking, fun m n hn => ?_⟩
  exact (State.get_set_holder _ _ _ _ _ _ _ _ (matcherHolder_ne_ember m)).trans (ht.rules m n hn)

theorem State.allRulesOff_stopped (s : State) :
    Stopped s ((s.setSide .a { s.sa with taking := false }).setSide .b { s.sb with taking := false }).allRulesOff := by
  have h := ((s.setSide .a { s.sa with taking := false }).setSide .b { s.sb with taking := false }).allRulesOff_touches
  obtain ⟨hnow, -, -, hmem, -, hother, -⟩ := h.rest
  refine ⟨hnow, hmem, fun x => ?_, fun m n hn => State.allRulesOff_enabled hn _⟩
  cases x
  · exact congrArg SideSt.taking h.side
  · exact congrArg SideSt.taking hother

/-- The first clause of SleepSequence. -/
theorem exec_sleepStart (hphase : s.ember.phase = .sleeping 0) : ∃ t, exec .sleepStart s = .next t ∧ t.ember.phase = .sleeping 1 ∧
    t.ember.pend = none ∧ t.ember.confirm = none ∧ Stopped s t := by
  refine ⟨_, congrArg ok (if_pos hphase), rfl, rfl, rfl, ?_⟩
  have hrules := s.allRulesOff_stopped
  have hset : ∀ u, Stopped s u → ∀ e, Stopped s { u with ember := e } := fun u h _ => ⟨h.now, h.mem, h.taking, h.rules⟩
  refine hset _ (State.set_ember_stopped ?_) _
  split
  · exact State.awakeEnd_stopped hrules
  · exact hrules

theorem Stopped.memSame (h : Stopped s t) : MemSame s t := fun x a => by rw [State.byte, h.mem]; rfl

end Sys2Proof.Machine
end

section
/-! The sleep sequence from its third step on, and the loss of the power of the Ember (R138, R150, R152, R155). -/
namespace Sys2Proof.Machine
open Sys2Proof

variable {s t u : State} {x : Side}

/-! ## Registers that a reset drops -/

theorem Tab.get_filter {κ α : Type} [DecidableEq κ] (d : κ → α) (keep : κ → Bool) (k : κ) : ∀ t : List (κ × α),
    Tab.get d (t.filter (fun q => keep q.1)) k = if keep k then Tab.get d t k else d k
  | [] => by simp [Tab.get]
  | q :: t => by
    have ih := Tab.get_filter d keep k t
    rw [List.filter_cons]
    by_cases hk : q.1 = k
    · subst hk
      split <;> simp_all [Tab.get]
    · split <;> simp_all [Tab.get]

/-- A register of the holder is back at its reset value, unless it is kept. -/
theorem State.get_dropRegs (s : State) (h k : Holder) (keep : FKey → Bool) (f : Fld) (i : Nat) :
    (s.dropRegs h keep).get k f i = if (k.code != h.code || keep (f.key k i)) then s.get k f i else f.rst.at k i :=
  Tab.get_filter FKey.rst (fun k => k.hold != h.code || keep k) (f.key k i) s.regs

@[simp] theorem State.calm_dropRegs (x : Side) (keep : FKey → Bool) : (s.dropRegs (.side x) keep).calm = s.calm := by
  have hregs : (s.dropRegs (.side x) keep).calmReg = s.calmReg := by
    funext k g j
    unfold State.calmReg
    split
    · next hk =>
      have hne : k.code ≠ (Holder.side x).code := by
        have : (Holder.side x).code < 2 := by cases x <;> decide
        omega
      rw [State.get_dropRegs, if_pos (by simp [hne])]
    · rfl
  rw [State.calm, hregs]
  rfl

@[simp] theorem State.calm_wipe (x : Side) (a b : Nat) : (s.wipe x a b).calm = s.calm := State.calm_mk _ _ _ _ _ _ _ _ _ _

/-- The calm of a state with side `x` at phase `r`. -/
def Calm.withRun (c : Calm) (x : Side) (r : Run) : Calm :=
  match x with
  | .a => { c with runs := (r, c.runs.2) }
  | .b => { c with runs := (c.runs.1, r) }

theorem State.calm_setSide_run (s : State) (x : Side) (v : SideSt) : (s.setSide x v).calm = s.calm.withRun x v.run := by
  cases x <;> rfl

/-- A reset of side `x` up to the units' own state: what it has outstanding ends, and the other side sees it go. -/
def State.outstandingEnds (s : State) (x : Side) : State :=
  let s := (s.ckptTear x).setSide x { (s.ckptTear x).side x with locks := [], lockQ := [] }
  let s := s.setSide x { s.side x with relock := (s.side x).relock || s.is (.side x) F.POKER_STATUS_UNLOCKED 0 }
  ((s.sentCompletes x).farReset x.other).unlocked x.other

theorem State.calm_outstandingEnds (s : State) (x : Side) : (s.outstandingEnds x).calm = s.calm := by
  simp [State.outstandingEnds]

/-- The rest of the reset: the units' registers and memory, the units themselves and what the Ember shows of the side. -/
theorem State.sideReset_eq (s : State) (x : Side) (run : Run) (limp : Bool) : s.sideReset x run limp =
    let s := (s.outstandingEnds x).dropRegs (.side x) sideKept
    let s := s.setSide x ((s.side x).afterReset run limp)
    let s := (s.wipe x 0 0x80000000).wipe x 0x88000000 (2 ^ 40)
    let s := { s with absent := (allUnits.filter (fun u => unitSides u == [x])).filter s.present ++ s.absent }
    (s.set .ember (sideUpFld x) 0 0).set .ember (limpFld x) 0 (b2n limp) := rfl

theorem sideUpFld_calm (x : Side) : (sideUpFld x).reg ∉ calmRegs := by cases x <;> decide

theorem limpFld_calm (x : Side) : (limpFld x).reg ∉ calmRegs := by cases x <;> decide

/-- The reset of a side leaves everything of the calm but its own phase. -/
theorem State.calm_sideReset (s : State) (x : Side) (run : Run) (limp : Bool) : (s.sideReset x run limp).calm = s.calm.withRun x run := by
  rw [State.sideReset_eq, State.calm_set _ _ _ _ (limpFld_calm x), State.calm_set _ _ _ _ (sideUpFld_calm x), State.calm_mk,
    State.calm_wipe, State.calm_wipe, State.calm_setSide_run, State.calm_dropRegs, State.calm_outstandingEnds]
  rfl

/-! ## What the calm shows -/

theorem State.get_of_calmReg (h : t.calmReg = s.calmReg) {k : Holder} {f : Fld} (hk : 2 ≤ k.code) (hf : f.reg ∈ calmRegs) (i : Nat) :
    t.get k f i = s.get k f i := by
  have hreg : t.calmReg k f i = s.calmReg k f i := congrArg (fun r => r k f i) h
  rwa [State.calmReg, State.calmReg, if_pos ⟨hk, hf⟩, if_pos ⟨hk, hf⟩] at hreg

theorem State.get_of_calm (h : t.calm = s.calm) {k : Holder} {f : Fld} (hk : 2 ≤ k.code) (hf : f.reg ∈ calmRegs) (i : Nat) :
    t.get k f i = s.get k f i :=
  State.get_of_calmReg (congrArg Calm.regs h) hk hf i

/-! ## Every output is turned off (R152 step 3) -/

/-- Channel `c` is not driven and its commanded state is off. -/
def ChanOff (c : Nat) (t : State) : Prop := t.cq c F.CH_STATE_CMD_ON = 0 ∧ driven (t.chState c) = false

theorem Holder.two_le_code_grate (d : Nat) : 2 ≤ (Holder.grate d).code := by
  rw [Holder.code]
  omega

theorem ChanOff.of_calm {c : Nat} (h : t.calm = s.calm) (hs : ChanOff c s) : ChanOff c t := by
  have hget : ∀ f : Fld, f.reg ∈ calmRegs → t.cq c f = s.cq c f := fun f hf => State.get_of_calm h (Holder.two_le_code_grate _) hf _
  rw [ChanOff, State.chState, hget _ (by decide), hget _ (by decide)]
  exact hs

theorem State.cq_cw_self (s : State) (c : Nat) (f : Fld) (v : Nat) : (s.cw c f v).cq c f = v % 2 ^ f.width := State.get_set_self _ _ _ _ _

theorem State.cq_cw_fld (s : State) (c b : Nat) {f g : Fld} (v : Nat) (h : g.reg ≠ f.reg ∨ g.lo ≠ f.lo) :
    (s.cw c f v).cq b g = s.cq b g :=
  State.get_set_fld _ _ _ _ _ _ _ _ h

/-- The registers of another channel. -/
theorem State.cq_cw_ne (s : State) {c b : Nat} (f g : Fld) (v : Nat) (h : b ≠ c) : (s.cw c f v).cq b g = s.cq b g := by
  by_cases hidx : b % 16 = c % 16
  · exact State.get_set_holder _ _ _ _ _ _ _ _ (by simp only [Holder.code]; omega)
  · exact State.get_set_idx _ _ _ _ _ _ _ _ hidx

/-- The registers of a channel that changes its state: the state itself and whether the Damper shed it. -/
theorem State.cq_goto (s : State) (c st b : Nat) (g : Fld) : (s.goto c st).cq b g =
    (if st = 8 then s.cw c F.CH_STATE_STATE st else (s.cw c F.CH_STATE_STATE st).cw c F.DMP_CH_STATUS_SHED 0).cq b g := rfl

theorem State.cq_cmdOff (s : State) (c b : Nat) (g : Fld) : (s.cmdOff c).cq b g = (s.cw c F.CH_STATE_CMD_ON 0).cq b g := rfl

theorem State.cq_goto_ne (s : State) {c b : Nat} (st : Nat) (g : Fld) (h : b ≠ c) : (s.goto c st).cq b g = s.cq b g := by
  rw [State.cq_goto]
  split
  · exact State.cq_cw_ne s _ g _ h
  · exact (State.cq_cw_ne _ _ g _ h).trans (State.cq_cw_ne s _ g _ h)

theorem State.chState_goto_off (s : State) (c : Nat) : (s.goto c 0).chState c = 0 := by
  rw [State.chState, State.cq_goto, if_neg (by decide), State.cq_cw_fld _ _ _ _ (by decide), State.cq_cw_self, Nat.zero_mod]

theorem State.cq_cmdOn_goto_off (s : State) (c : Nat) : (s.goto c 0).cq c F.CH_STATE_CMD_ON = s.cq c F.CH_STATE_CMD_ON := by
  rw [State.cq_goto, if_neg (by decide), State.cq_cw_fld _ _ _ _ (by decide), State.cq_cw_fld _ _ _ _ (by decide)]

theorem ChanOff.goto_off {c : Nat} (h : s.cq c F.CH_STATE_CMD_ON = 0) : ChanOff c (s.goto c 0) :=
  ⟨(s.cq_cmdOn_goto_off c).trans h, by rw [State.chState_goto_off]; rfl⟩

theorem State.cq_cmdOn_cmdOff (s : State) (c : Nat) : (s.cmdOff c).cq c F.CH_STATE_CMD_ON = 0 := by
  rw [State.cq_cmdOff, State.cq_cw_self, Nat.zero_mod]

theorem State.chState_cmdOff (s : State) (c : Nat) : (s.cmdOff c).chState c = s.chState c := by
  rw [State.chState, State.cq_cmdOff, State.cq_cw_fld _ _ _ _ (by decide)]
  rfl

/-- A turn-off clears CMD_ON; a channel that is driven, waits or is shed goes off, and any other one stays as it is. -/
theorem State.applyOff_cases (s : State) (c slew : Nat) : (∃ v, s.applyOff c slew = ((s.cmdOff c).goto c 0).setChan c v) ∨
    s.applyOff c slew = (s.cmdOff c).goto c 0 ∨ driven (s.chState c) = false ∧ s.applyOff c slew = s.cmdOff c := by
  unfold State.applyOff
  dsimp only
  split
  · exact Or.inl ⟨_, rfl⟩
  · next hdriven =>
    refine Or.inr ?_
    split
    · exact Or.inl rfl
    · split
      · exact Or.inl rfl
      · exact Or.inr ⟨Bool.eq_false_iff.2 hdriven, rfl⟩

theorem ChanOff.setChan {b : Nat} (h : ChanOff b s) (c : Nat) (v : Chan) : ChanOff b (s.setChan c v) := h

theorem State.cq_setChan (s : State) (c b : Nat) (v : Chan) (g : Fld) : (s.setChan c v).cq b g = s.cq b g := rfl

theorem State.applyOff_off (s : State) (c slew : Nat) : ChanOff c (s.applyOff c slew) := by
  have hgoto := ChanOff.goto_off (s.cq_cmdOn_cmdOff c)
  obtain ⟨v, heq⟩ | heq | ⟨hoff, heq⟩ := s.applyOff_cases c slew <;> rw [heq]
  · exact hgoto.setChan c v
  · exact hgoto
  · exact ⟨s.cq_cmdOn_cmdOff c, by rw [State.chState_cmdOff, hoff]⟩

theorem State.cq_applyOff_ne (s : State) {c b : Nat} (slew : Nat) (g : Fld) (h : b ≠ c) : (s.applyOff c slew).cq b g = s.cq b g := by
  have hcmd : (s.cmdOff c).cq b g = s.cq b g := (s.cq_cmdOff c b g).trans (State.cq_cw_ne s _ g 0 h)
  have hgoto : ((s.cmdOff c).goto c 0).cq b g = s.cq b g := (State.cq_goto_ne _ 0 g h).trans hcmd
  obtain ⟨v, heq⟩ | heq | ⟨-, heq⟩ := s.applyOff_cases c slew <;> rw [heq]
  · exact hgoto
  · exact hgoto
  · exact hcmd

/-- What a channel's turning off leaves to the log: its current at that instant is a free value. -/
def State.chanStopped (s : State) (c : Nat) : State := (s.took.took.applyOff c (s.took.slewDef c)).dropHold c

theorem State.sleepChan_eq (s : State) (c : Nat) :
    s.sleepChan c = s.chanStopped c ∨ ∃ args, s.sleepChan c = (s.chanStopped c).logBoth 0x305 (23 + c / 16) args := by
  unfold State.sleepChan
  exact (ite_eq_or_eq _ _ _).symm.imp id fun h => ⟨_, h⟩

theorem ChanOff.of_chanStopped {c b : Nat} (h : ChanOff b (s.chanStopped c)) : ChanOff b (s.sleepChan c) := by
  obtain heq | ⟨args, heq⟩ := s.sleepChan_eq c
  · rwa [heq]
  · rw [heq]
    exact h.of_calm (by simp)

theorem State.chanStopped_off (s : State) (c : Nat) : ChanOff c (s.chanStopped c) := by
  obtain ⟨hcmd, hstate⟩ := s.took.took.applyOff_off c (s.took.slewDef c)
  have hheld : ∀ f : Fld, f.reg ≠ F.CH_STATE_HELD.reg ∨ f.lo ≠ F.CH_STATE_HELD.lo →
      (s.chanStopped c).cq c f = (s.took.took.applyOff c (s.took.slewDef c)).cq c f := fun f hf => State.cq_cw_fld _ c c 0 hf
  exact ⟨(hheld _ (by decide)).trans hcmd, by rwa [State.chState, hheld _ (by decide)]⟩

theorem State.cq_chanStopped_ne (s : State) {c b : Nat} (g : Fld) (h : b ≠ c) : (s.chanStopped c).cq b g = s.cq b g :=
  (State.cq_cw_ne _ _ g 0 h).trans (s.took.took.cq_applyOff_ne _ g h)

theorem ChanOff.sleepChan {c : Nat} (h : ChanOff c s) (b : Nat) : ChanOff c (s.sleepChan b) := by
  refine ChanOff.of_chanStopped ?_
  by_cases hb : c = b
  · exact hb ▸ s.chanStopped_off c
  · rw [ChanOff, State.chState, s.cq_chanStopped_ne _ hb, s.cq_chanStopped_ne _ hb]
    exact h

theorem State.now_goto (s : State) (c st : Nat) : (s.goto c st).now = s.now := by
  unfold State.goto
  dsimp only
  split <;> rfl

theorem State.now_applyOff (s : State) (c slew : Nat) : (s.applyOff c slew).now = s.now := by
  obtain ⟨v, heq⟩ | heq | ⟨-, heq⟩ := s.applyOff_cases c slew <;> rw [heq]
  · exact State.now_goto _ c 0
  · exact State.now_goto _ c 0
  · rfl

theorem State.now_eq_of_calm (h : t.calm = s.calm) : t.now = s.now := congrArg Calm.now h

theorem State.now_sleepChan (s : State) (c : Nat) : (s.sleepChan c).now = s.now := by
  have hstopped : (s.chanStopped c).now = s.now := s.took.took.now_applyOff c _
  obtain heq | ⟨args, heq⟩ := s.sleepChan_eq c
  · rw [heq, hstopped]
  · rw [heq, State.now_eq_of_calm (s := s.chanStopped c) (by simp), hstopped]

/-- Step 3: every channel of a PRESENT die (R152). -/
def State.outputsOff (s : State) : State :=
  s.each ((List.range 64).filter (fun c => s.present (dieUnit (c / 16)))) (fun s c => s.sleepChan c)

/-- Then the ports of the Flue die and each side's units. -/
def State.unitsSleep (s : State) : State :=
  ((if s.flueRuns then s.each ((List.range 12).map (fun i => i + 2)) (fun s p => s.sleepPort p) else s).sleepSide .a).sleepSide .b

theorem State.now_outputsOff (s : State) : s.outputsOff.now = s.now :=
  State.each_keeps (P := fun t => t.now = s.now) (fun t c h => (t.now_sleepChan c).trans h) _ rfl

theorem State.outputsOff_off (s : State) {c : Nat} (hc : c < 64) (hp : s.present (dieUnit (c / 16)) = true) : ChanOff c s.outputsOff :=
  State.each_of_mem (P := ChanOff c) (List.mem_filter.2 ⟨List.mem_range.2 hc, hp⟩)
    (fun t => ChanOff.of_chanStopped (t.chanStopped_off c)) (fun _ b h => h.sleepChan b) s

theorem State.calm_unitsSleep (s : State) : s.unitsSleep.calm = s.calm := by
  unfold State.unitsSleep
  split <;> simp

/-- The Ember enters phase `p`. -/
def State.enters (s : State) (p : Phase) : State := { s with ember := { s.ember with phase := p } }

theorem State.enters_kept (s : State) (p : Phase) : (s.enters p).ember.phase = p ∧ (s.enters p).now = s.now ∧
    ∀ c, ChanOff c s → ChanOff c (s.enters p) := ⟨rfl, rfl, fun _ h => h⟩

theorem exec_sleepDrainComplete (hphase : s.ember.phase = .sleeping 1) (ha : s.drained .a = true) (hb : s.drained .b = true) :
    exec .sleepDrainComplete s = .next (s.outputsOff.unitsSleep.enters (.sleeping 2)) :=
  congrArg ok (if_pos ⟨hphase, ha, hb⟩)

/-! ## The registers of the dies at the end (R138, R152) -/

/-- Time, the Ember with its registers and both sides are as before. -/
def SameEmber (s t : State) : Prop :=
  t.now = s.now ∧ t.ember = s.ember ∧ t.sa = s.sa ∧ t.sb = s.sb ∧ ∀ f i, t.get .ember f i = s.get .ember f i

theorem SameEmber.refl (s : State) : SameEmber s s := ⟨rfl, rfl, rfl, rfl, fun _ _ => rfl⟩

theorem SameEmber.trans (h : SameEmber s t) (k : SameEmber t u) : SameEmber s u := by
  obtain ⟨hnow, hember, hsa, hsb, hget⟩ := h
  obtain ⟨know, kember, ksa, ksb, kget⟩ := k
  exact ⟨know.trans hnow, kember.trans hember, ksa.trans hsa, ksb.trans hsb, fun f i => (kget f i).trans (hget f i)⟩

theorem SameEmber.dropRegs (s : State) {h : Holder} (keep : FKey → Bool) (hh : h.code ≠ Holder.ember.code) :
    SameEmber s (s.dropRegs h keep) := by
  refine ⟨rfl, rfl, rfl, rfl, fun f i => ?_⟩
  rw [State.get_dropRegs, if_pos (by simp [hh.symm])]

theorem SameEmber.setChan (s : State) (c : Nat) (v : Chan) : SameEmber s (s.setChan c v) := ⟨rfl, rfl, rfl, rfl, fun _ _ => rfl⟩

/-- A grate die loses its power. -/
def State.dieOff (s : State) (d : Nat) : State := (s.dropRegs (.grate d) (fun _ => false)).setDie d DieSt.init

/-- A channel loses all but its one-time-programmed words. -/
def State.chanOff (s : State) (c : Nat) : State := s.setChan c { Chan.init with otp0 := (s.chan c).otp0, otp1 := (s.chan c).otp1 }

/-- The channels, the grate dies and the registers of the Flue die without power. -/
def State.diesDown (s : State) : State :=
  ((((s.each (List.range 64) State.chanOff).each (List.range 5) State.dieOff).dropRegs .flue (fun _ => false)).dropRegs .flueTally
    (fun _ => false))

theorem State.diesOff_eq (s : State) :
    s.diesOff = { s.diesDown with flue := FlueSt.init, damper := DamperSt.init, absent := allUnits } := rfl

theorem SameEmber.dieOff (s : State) (d : Nat) : SameEmber s (s.dieOff d) := by
  have hdrop : SameEmber s (s.dropRegs (.grate d) (fun _ => false)) := SameEmber.dropRegs s _ (by simp only [Holder.code]; omega)
  exact hdrop.trans ⟨rfl, rfl, rfl, rfl, fun _ _ => rfl⟩

theorem State.diesDown_sameEmber (s : State) : SameEmber s s.diesDown := by
  have hchans : SameEmber s (s.each (List.range 64) State.chanOff) :=
    State.each_keeps (P := SameEmber s) (fun t c h => h.trans (SameEmber.setChan t c _)) _ (SameEmber.refl s)
  have hdies : SameEmber s ((s.each (List.range 64) State.chanOff).each (List.range 5) State.dieOff) :=
    State.each_keeps (P := SameEmber s) (fun t d h => h.trans (SameEmber.dieOff t d)) _ hchans
  exact (hdies.trans (SameEmber.dropRegs _ _ (by decide))).trans (SameEmber.dropRegs _ _ (by decide))

/-- A register of a holder that is 0 at reset stays 0 whatever is dropped. -/
theorem State.get_dropRegs_zero (s : State) (h k : Holder) (keep : FKey → Bool) {f : Fld} {i : Nat} (hrst : f.rst.at k i = 0)
    (hz : s.get k f i = 0) : (s.dropRegs h keep).get k f i = 0 := by
  rw [State.get_dropRegs]
  split
  · exact hz
  · exact hrst

theorem State.chState_dropRegs (s : State) (h : Holder) (keep : FKey → Bool) {c : Nat} (hz : s.chState c = 0) :
    (s.dropRegs h keep).chState c = 0 :=
  State.get_dropRegs_zero s h _ keep rfl hz

theorem State.chState_setDie (s : State) (d : Nat) (v : DieSt) (c : Nat) : (s.setDie d v).chState c = s.chState c := rfl

theorem State.chState_dieOff (s : State) (d : Nat) {c : Nat} (hz : s.chState c = 0) : (s.dieOff d).chState c = 0 := by
  rw [State.dieOff, State.chState_setDie, s.chState_dropRegs (.grate d) _ hz]

theorem State.chState_dieOff_self (s : State) (c : Nat) : (s.dieOff (c / 16)).chState c = 0 := by
  rw [State.dieOff, State.chState_setDie, State.chState, State.cq, State.get_dropRegs, if_neg (by simp)]
  rfl

theorem State.chState_diesDown (s : State) {c : Nat} (hc : c < 64) : s.diesDown.chState c = 0 := by
  have hdies : ((s.each (List.range 64) State.chanOff).each (List.range 5) State.dieOff).chState c = 0 :=
    State.each_of_mem (P := fun t => t.chState c = 0) (a := c / 16) (List.mem_range.2 (by omega)) (fun t => t.chState_dieOff_self c)
      (fun t d h => t.chState_dieOff d h) _
  exact State.chState_dropRegs _ .flueTally _ (State.chState_dropRegs _ .flue _ hdies)

/-! ## Nothing is powered (R138, R152) -/

/-- Both sides go down. -/
def State.sidesDown (s : State) : State := (s.sideReset .a .down false).sideReset .b .down false

/-- The sides' registers that a side's reset keeps go too, but for the key slots and the level of the Stoke port's pin. -/
def State.sideRegsDown (s : State) : State :=
  (s.dropRegs (.side .a) (fun k => sideKept k && !isPolicy k)).dropRegs (.side .b) (fun k => sideKept k && !isPolicy k)

/-- The rail groups go off, and the Ember records when. -/
def State.groupsOff (s : State) : State :=
  { s with ember := { s.ember with ga := GroupSt.off, gb := GroupSt.off, gs := GroupSt.off, railsOff := s.now } }

theorem State.allOff_eq (s : State) : s.allOff = s.sidesDown.diesOff.sideRegsDown.groupsOff := rfl

theorem State.calm_sidesDown (s : State) : s.sidesDown.calm = (s.calm.withRun .a .down).withRun .b .down := by
  rw [State.sidesDown, State.calm_sideReset, State.calm_sideReset]

theorem State.sideRegsDown_sameEmber (s : State) : SameEmber s s.sideRegsDown :=
  (SameEmber.dropRegs s _ (by decide)).trans (SameEmber.dropRegs _ _ (by decide))

theorem SameEmber.units (s : State) (flue : FlueSt) (damper : DamperSt) (absent : List UnitId) :
    SameEmber s { s with flue := flue, damper := damper, absent := absent } := ⟨rfl, rfl, rfl, rfl, fun _ _ => rfl⟩

theorem State.diesOff_sameEmber (s : State) : SameEmber s s.diesOff := by
  rw [State.diesOff_eq]
  exact s.diesDown_sameEmber.trans (SameEmber.units _ _ _ _)

/-- Time, the reset inputs, the straps and the configuration of the level sources are as in `s`; both sides, all units and all channels are
off. With the rail groups off this is `Dark`. -/
structure Quenched (s t : State) : Prop where
  now : t.now = s.now
  rstLow : t.ember.rstLow = s.ember.rstLow
  straps : t.ember.straps = s.ember.straps
  locCfg : ∀ f : Fld, f.reg = F.EMBER_WAKE_CFG_LOC_EN.reg → t.get .ember f 0 = s.get .ember f 0
  up : ∀ x, t.up x = false
  absent : t.absent = allUnits
  chans : ∀ c, c < 64 → t.chState c = 0

theorem State.up_eq_false_of_runs (h : s.calm.runs = (.down, .down)) (x : Side) : s.up x = false := by
  have ha : s.sa.run = .down := congrArg Prod.fst h
  have hb : s.sb.run = .down := congrArg Prod.snd h
  cases x <;> simp [State.up, State.side, ha, hb]

theorem State.sidesDown_up (s : State) (x : Side) : s.sidesDown.up x = false :=
  State.up_eq_false_of_runs (by rw [State.calm_sidesDown]; rfl) x

theorem Calm.withRun_fields (c : Calm) (x : Side) (r : Run) : (c.withRun x r).now = c.now ∧ (c.withRun x r).rstLow = c.rstLow ∧
    (c.withRun x r).straps = c.straps ∧ (c.withRun x r).regs = c.regs := by
  cases x <;> exact ⟨rfl, rfl, rfl, rfl⟩

theorem State.calm_fields {c : Calm} (h : s.calm = c) :
    s.now = c.now ∧ s.ember.rstLow = c.rstLow ∧ s.ember.straps = c.straps ∧ s.calmReg = c.regs := by
  subst h
  exact ⟨rfl, rfl, rfl, rfl⟩

theorem State.sidesDown_kept (s : State) : s.sidesDown.now = s.now ∧ s.sidesDown.ember.rstLow = s.ember.rstLow ∧
    s.sidesDown.ember.straps = s.ember.straps ∧ s.sidesDown.calmReg = s.calmReg := by
  obtain ⟨hnow, hrst, hstraps, hregs⟩ := State.calm_fields s.calm_sidesDown
  obtain ⟨anow, arst, astraps, aregs⟩ := s.calm.withRun_fields .a .down
  obtain ⟨bnow, brst, bstraps, bregs⟩ := (s.calm.withRun .a .down).withRun_fields .b .down
  exact ⟨hnow.trans (bnow.trans anow), hrst.trans (brst.trans arst), hstraps.trans (bstraps.trans astraps),
    hregs.trans (bregs.trans aregs)⟩

theorem State.chState_sideRegsDown (s : State) {c : Nat} (hz : s.chState c = 0) : s.sideRegsDown.chState c = 0 :=
  State.chState_dropRegs _ (.side .b) _ (s.chState_dropRegs (.side .a) _ hz)

theorem State.chState_units (s : State) (flue : FlueSt) (damper : DamperSt) (absent : List UnitId) (c : Nat) :
    State.chState { s with flue := flue, damper := damper, absent := absent } c = s.chState c := rfl

theorem State.chState_diesOff (s : State) {c : Nat} (hc : c < 64) : s.diesOff.chState c = 0 := by
  rw [State.diesOff_eq, State.chState_units, s.chState_diesDown hc]

theorem SameEmber.up (h : SameEmber s t) (x : Side) : t.up x = s.up x := by
  obtain ⟨-, -, hsa, hsb, -⟩ := h
  cases x
  · exact congrArg (fun v : SideSt => v.run == .ready) hsa
  · exact congrArg (fun v : SideSt => v.run == .ready) hsb

theorem State.quenched_sidesDown (s : State) : Quenched s s.sidesDown.diesOff.sideRegsDown := by
  have hsame : SameEmber s.sidesDown s.sidesDown.diesOff.sideRegsDown :=
    s.sidesDown.diesOff_sameEmber.trans s.sidesDown.diesOff.sideRegsDown_sameEmber
  obtain ⟨hnow, hrst, hstraps, hregs⟩ := s.sidesDown_kept
  obtain ⟨know, kember, -, -, kget⟩ := id hsame
  constructor
  case now => exact know.trans hnow
  case rstLow => exact (congrArg EmberSt.rstLow kember).trans hrst
  case straps => exact (congrArg EmberSt.straps kember).trans hstraps
  case locCfg => exact fun f hf => (kget f 0).trans (State.get_of_calmReg hregs (by decide) (by simp [calmRegs, hf]) 0)
  case up => exact fun x => (hsame.up x).trans (s.sidesDown_up x)
  case absent => rfl
  case chans => exact fun c hc => s.sidesDown.diesOff.chState_sideRegsDown (s.sidesDown.chState_diesOff hc)

/-- The Ember's own record matters by the reset inputs and the straps alone. -/
theorem Quenched.withEmber (h : Quenched s t) {e : EmberSt} (hrst : e.rstLow = t.ember.rstLow) (hstraps : e.straps = t.ember.straps) :
    Quenched s { t with ember := e } := by
  obtain ⟨know, krst, kstraps, kcfg, kup, kabsent, kchans⟩ := h
  exact ⟨know, hrst.trans krst, hstraps.trans kstraps, kcfg, kup, kabsent, kchans⟩

theorem Quenched.set_ember (h : Quenched s t) {f : Fld} (i v : Nat) (hf : f.reg ≠ F.EMBER_WAKE_CFG_LOC_EN.reg) :
    Quenched s (t.set .ember f i v) := by
  obtain ⟨know, krst, kstraps, kcfg, kup, kabsent, kchans⟩ := h
  refine ⟨know, krst, kstraps, fun g hg => ?_, kup, kabsent, fun c hc => ?_⟩
  · exact (State.get_set_fld _ _ _ _ _ _ _ _ (Or.inl fun e => hf (e.symm.trans hg))).trans (kcfg g hg)
  · exact (State.get_set_holder _ _ _ _ _ _ _ _ (by simp only [Holder.code]; omega)).trans (kchans c hc)

theorem Quenched.groupsOff (h : Quenched s t) : Quenched s t.groupsOff := h.withEmber rfl rfl

theorem State.groupsOff_groups (s : State) :
    s.groupsOff.ember.ga = GroupSt.off ∧ s.groupsOff.ember.gb = GroupSt.off ∧ s.groupsOff.ember.gs = GroupSt.off := ⟨rfl, rfl, rfl⟩

theorem State.allOff_quenched (s : State) : Quenched s s.allOff := by
  rw [State.allOff_eq]
  exact s.quenched_sidesDown.groupsOff

theorem State.allOff_groups (s : State) :
    s.allOff.ember.ga = GroupSt.off ∧ s.allOff.ember.gb = GroupSt.off ∧ s.allOff.ember.gs = GroupSt.off := by
  rw [State.allOff_eq]
  exact State.groupsOff_groups _

theorem mem_allUnits (u : UnitId) : u ∈ allUnits := by
  unfold allUnits
  cases u with
  | grate d => fin_cases d <;> decide
  | flue => decide
  | can x k => cases x <;> fin_cases k <;> decide
  | dma x => cases x <;> decide
  | life x => cases x <;> decide

theorem Quenched.dark (h : Quenched s t) (ha : t.ember.ga = GroupSt.off) (hb : t.ember.gb = GroupSt.off) (hs : t.ember.gs = GroupSt.off) :
    Dark t := by
  refine ⟨by rw [ha]; rfl, by rw [hb]; rfl, by rw [hs]; rfl, h.up .a, h.up .b, fun u => ?_, fun c hc => ?_⟩
  · rw [State.present, h.absent]
    simp [mem_allUnits]
  · rw [h.chans c hc]
    rfl

/-! ## The last step and the loss of the Ember's power (R150, R152, R155) -/

theorem Tab.at_foldl_put {α : Type} [DecidableEq α] (d : α) (f : Nat → α) {k : Nat} : ∀ {n : Nat}, k < n →
    Tab.at d ((List.range n).foldl (fun t i => Tab.put d t i (f i)) []) k = f k
  | n + 1, hk => by
    rw [List.range_succ, List.foldl_append, List.foldl_cons, List.foldl_nil, Tab.at_put]
    split
    · next he => rw [he]
    · exact Tab.at_foldl_put d f (by omega)

/-- The wake settings of every CAN channel as the Ember latches them (R150). -/
def State.latchedWakes (s : State) : Tab CanWake :=
  (List.range 12).foldl (fun (t : Tab CanWake) n => Tab.put CanWake.none t n (s.latchWake (if n < 6 then .a else .b) (n % 6))) []

/-- The Ember armed in phase `p` with the wake settings `ws`. -/
def State.armedIn (s : State) (p : Phase) (ws : Tab CanWake) : State :=
  { s with ember := { s.ember with phase := p, canWake := ws, bankedAt := s.now, stateAt := s.now,
                                   onlyFeed := s.feedGone .a && s.feedGone .b } }

theorem State.armedIn_ember (s : State) (p : Phase) (ws : Tab CanWake) : (s.armedIn p ws).ember.phase = p ∧
    (s.armedIn p ws).ember.canWake = ws ∧
    (s.armedIn p ws).ember.bankedAt = (s.armedIn p ws).now := ⟨rfl, rfl, rfl⟩

theorem Quenched.armedIn (h : Quenched s t) (p : Phase) (ws : Tab CanWake) : Quenched s (t.armedIn p ws) := h.withEmber rfl rfl

theorem State.get_armedIn (s : State) (p : Phase) (ws : Tab CanWake) (h : Holder) (f : Fld) (i : Nat) :
    (s.armedIn p ws).get h f i = s.get h f i := rfl

theorem State.armedIn_groups (s : State) (p : Phase) (ws : Tab CanWake) : (s.armedIn p ws).ember.ga = s.ember.ga ∧
    (s.armedIn p ws).ember.gb = s.ember.gb ∧ (s.armedIn p ws).ember.gs = s.ember.gs := ⟨rfl, rfl, rfl⟩

/-- The Ember armed in Cold hearth or Banked, with everything off. -/
def State.armed (s : State) : State :=
  (s.allOff.set .ember F.EMBER_STATE_SHUTDOWN 0 0).armedIn (if s.ember.target = 0 then .cold else .banked) s.latchedWakes

theorem exec_sleepArm (kl15 : Bool) (loc : BitVec 4) (hphase : s.ember.phase = .sleeping 2) :
    exec (.sleepArm kl15 loc) s = .next (s.armed.levelWake kl15 loc.toNat true) :=
  congrArg ok (if_pos hphase)

theorem State.armed_quenched (s : State) : Quenched s s.armed := by
  rw [State.armed]
  exact (s.allOff_quenched.set_ember 0 0 (by decide)).armedIn _ _

theorem State.armed_dark (s : State) : Dark s.armed := by
  obtain ⟨ha, hb, hs⟩ := s.allOff_groups
  obtain ⟨hga, hgb, hgs⟩ := (s.allOff.set .ember F.EMBER_STATE_SHUTDOWN 0 0).armedIn_groups
    (if s.ember.target = 0 then .cold else .banked) s.latchedWakes
  exact s.armed_quenched.dark (hga.trans ha) (hgb.trans hb) (hgs.trans hs)

theorem State.canWakeOf_armed (s : State) (k : Fin 12) : s.armed.canWakeOf k = s.latchWake (if k.val < 6 then .a else .b) (k.val % 6) := by
  obtain ⟨-, hwakes, -⟩ := (s.allOff.set .ember F.EMBER_STATE_SHUTDOWN 0 0).armedIn_ember
    (if s.ember.target = 0 then .cold else .banked) s.latchedWakes
  rw [State.armed, State.canWakeOf, hwakes]
  exact Tab.at_foldl_put CanWake.none (fun n => s.latchWake (if n < 6 then .a else .b) (n % 6)) k.isLt

theorem State.get_armed_shutdown (s : State) : s.armed.get .ember F.EMBER_STATE_SHUTDOWN 0 = 0 := by
  rw [State.armed, State.get_armedIn, State.get_set_self, Nat.zero_mod]

/-- The level sources are held in `t` as in `s`. -/
theorem Quenched.locHeld (h : Quenched s t) (levels n : Nat) : t.locHeld levels n = s.locHeld levels n := by
  rw [State.locHeld, State.locHeld, State.locOn, State.locOn, h.locCfg F.EMBER_WAKE_CFG_LOC_EN rfl, h.locCfg F.EMBER_WAKE_CFG_LOC_POL rfl]

/-- Every register of the Ember back at its Reset column, and the Ember without power. -/
def State.emberOff (s : State) : State :=
  { s.dropRegs .ember (fun _ => false) with ember := { EmberSt.init with rstLow := s.ember.rstLow, straps := s.ember.straps } }

theorem exec_emberPowerLoss (hphase : s.ember.phase ≠ .off) : exec .emberPowerLoss s = .next s.allOff.emberOff :=
  congrArg ok (if_neg hphase)

theorem State.get_emberOff (s : State) (h : Holder) (f : Fld) (i : Nat) :
    s.emberOff.get h f i = (s.dropRegs .ember (fun _ => false)).get h f i := rfl

theorem State.get_ember_emberOff (s : State) (f : Fld) (i : Nat) : s.emberOff.get .ember f i = f.rst.at .ember i := by
  rw [State.get_emberOff, State.get_dropRegs, if_neg (by simp)]

theorem State.emberOff_ember (s : State) : s.emberOff.ember.phase = .off ∧ s.emberOff.ember.rstLow = s.ember.rstLow ∧
    s.emberOff.ember.straps = s.ember.straps := ⟨rfl, rfl, rfl⟩

theorem State.emberOff_rest (s : State) : s.emberOff.ember = { EmberSt.init with rstLow := s.ember.rstLow, straps := s.ember.straps } ∧
    s.emberOff.now = s.now ∧ s.emberOff.absent = s.absent ∧ ∀ x, s.emberOff.up x = s.up x := by
  refine ⟨rfl, rfl, rfl, fun x => ?_⟩
  cases x <;> rfl

theorem Quenched.emberOff_dark (h : Quenched s t) : Dark t.emberOff := by
  obtain ⟨hember, -, habsent, hup⟩ := t.emberOff_rest
  refine ⟨by rw [hember]; rfl, by rw [hember]; rfl, by rw [hember]; rfl, (hup .a).trans (h.up .a), (hup .b).trans (h.up .b), fun u => ?_,
    fun c hc => ?_⟩
  · rw [State.present, habsent, h.absent]
    simp [mem_allUnits]
  · rw [State.chState, State.cq, State.get_emberOff]
    exact congrArg driven (t.chState_dropRegs .ember _ (h.chans c hc))

/-- A declared wake leaves each side's phase. -/
theorem Woken.up {cause index : Nat} {confirm : Bool} (h : Woken s t cause index confirm) (x : Side) : t.up x = s.up x := by
  obtain ⟨-, -, -, -, -, -, -, -, -, -, -, -, -, hsa, hsb, -⟩ := h
  have ha : t.sa.run = s.sa.run := by rw [hsa]
  have hb : t.sb.run = s.sb.run := by rw [hsb]
  cases x
  · rw [State.up, State.up, State.side, State.side, ha]
  · rw [State.up, State.up, State.side, State.side, hb]

/-- Settles O31: step 1 by `exec_sleepStart`, step 3 by `State.outputsOff_off` and what the units' sleep leaves (`State.calm_unitsSleep`),
the last step and the loss of power by `State.allOff_quenched`. -/
theorem sleepSequence : Obligations.SleepSequence := by
  unfold Obligations.SleepSequence
  refine ⟨?_, ?_, ?_, ?_, ?_⟩
  · intro s m n hphase hn
    obtain ⟨t, hexec, hnext, hpend, hconfirm, hstop⟩ := exec_sleepStart hphase
    exact ⟨t, hexec, hnext, hstop.taking .a, hstop.taking .b, hstop.rules m n hn, hpend, hconfirm, hstop.now, hstop.memSame⟩
  · intro s c hphase ha hb hc hp
    have hcalm := s.outputsOff.calm_unitsSleep
    obtain ⟨hnext, hnow, hoff⟩ := s.outputsOff.unitsSleep.enters_kept (.sleeping 2)
    obtain ⟨hcmd, hstate⟩ := hoff c ((s.outputsOff_off hc hp).of_calm hcalm)
    exact ⟨_, exec_sleepDrainComplete hphase ha hb, hnext, hcmd, hstate,
      hnow.trans ((State.now_eq_of_calm hcalm).trans s.now_outputsOff)⟩
  · intro s loc k hphase hnone
    have hheld : (List.range 4).find? (s.armed.locHeld loc.toNat) = none := by
      rwa [show s.armed.locHeld loc.toNat = s.locHeld loc.toNat from funext (s.armed_quenched.locHeld loc.toNat)]
    refine ⟨s.armed, (exec_sleepArm false loc hphase).trans (congrArg Host.Outcome.next (State.levelWake_none true hheld)), ?_⟩
    obtain ⟨hnext, -, hat⟩ := (s.allOff.set .ember F.EMBER_STATE_SHUTDOWN 0 0).armedIn_ember
      (if s.ember.target = 0 then .cold else .banked) s.latchedWakes
    exact ⟨hnext, s.armed_dark, s.get_armed_shutdown, s.canWakeOf_armed k, hat, s.armed_quenched.now⟩
  · intro s loc hphase
    have hwoken : Woken s.armed (s.armed.declare srcKl15 true) 1 0 false :=
      State.declare_woken (w := srcKl15) s.armed true (by decide) (by decide)
    obtain ⟨hwaking, -, -, -, -, hgs, hcause, -⟩ := id hwoken
    exact ⟨_, exec_sleepArm true loc hphase, hwaking, hcause, (hwoken.up .a).trans (s.armed_quenched.up .a),
      (hwoken.up .b).trans (s.armed_quenched.up .b), hgs⟩
  · intro s f i hphase
    have hoff := s.allOff_quenched
    obtain ⟨hpoweroff, hrst, hstraps⟩ := s.allOff.emberOff_ember
    obtain ⟨-, hnow, -, -⟩ := s.allOff.emberOff_rest
    exact ⟨_, exec_emberPowerLoss hphase, hpoweroff, hoff.emberOff_dark, s.allOff.get_ember_emberOff f i, hrst.trans hoff.rstLow,
      hstraps.trans hoff.straps, hnow.trans hoff.now⟩

end Sys2Proof.Machine
end

section
/-! What the events of a grate die and its entries leave: of registers, only those of the sides that events and the log write; nothing of the
dies and their channels (R76, R197, R481, R486). -/
namespace Sys2Proof.Machine
open Sys2Proof

variable {s t u : State} {x : Side} {l m : List Spot}

/-! ## Posts -/

/-- `t` is `s` but for the register fields `l`, none of a grate die, and what the sides hold. -/
structure Posted (l : List Spot) (s t : State) : Prop where
  only : Only l s t
  grate : ∀ d f i, t.get (.grate d) f i = s.get (.grate d) f i
  now : t.now = s.now
  mem : t.mem = s.mem
  dies : t.dies = s.dies
  chans : t.chans = s.chans

theorem Posted.refl (l : List Spot) (s : State) : Posted l s s := ⟨Only.refl l s, fun _ _ _ => rfl, rfl, rfl, rfl, rfl⟩

theorem Posted.trans (h : Posted l s t) (k : Posted l t u) : Posted l s u :=
  ⟨h.only.trans k.only, fun d f i => (k.grate d f i).trans (h.grate d f i), k.now.trans h.now, k.mem.trans h.mem, k.dies.trans h.dies,
   k.chans.trans h.chans⟩

theorem Posted.mono (h : Posted l s t) (hs : ∀ p ∈ l, p ∈ m) : Posted m s t := { h with only := h.only.mono hs }

/-- Field `g` reads as before where the frame names no field of its register. -/
theorem Posted.get_reg (h : Posted l s t) {g : Fld} (hg : ∀ p ∈ l, g.reg ≠ p.2.1.reg) (k : Holder) (i : Nat) : t.get k g i = s.get k g i :=
  h.only.get_fld fun p hp => .inl (hg p hp)

/-- What side `x` does to itself and to its own registers. -/
theorem Posted.of_sideOnly (h : Only l s t) (k : SideOnly x s t) (hl : ∀ p ∈ l, p.1 = .side x) : Posted l s t := by
  obtain ⟨hnow, -, -, hmem, -, -, -, hdies, hchans, -⟩ := k
  refine ⟨h, fun d f i => h.get fun p hp e => ?_, hnow, hmem, hdies, hchans⟩
  rw [hl p hp] at e
  have hcode : (Holder.grate d).code = (Holder.side x).code := congrArg FKey.hold e
  cases x <;> simp only [Holder.code] at hcode <;> omega

theorem mem_logFields_side {p : Spot} (hp : p ∈ logFields x) : p.1 = .side x := by
  simp only [logFields, List.mem_cons, List.not_mem_nil, or_false] at hp
  rcases hp with rfl | rfl | rfl | rfl | rfl <;> rfl

theorem State.log_posted (s : State) (x : Side) (code prod : Nat) (args : List Arg) : Posted (logFields x) s (s.log x code prod args) :=
  .of_sideOnly (s.log_logOnly x code prod args).1 (s.log_logOnly x code prod args).2 fun _ => mem_logFields_side

theorem State.logBoth_posted (s : State) (code prod : Nat) (args : List Arg) :
    Posted (logFields .a ++ logFields .b) s (s.logBoth code prod args) :=
  ((s.log_posted .a code prod args).mono fun _ => List.mem_append_left _).trans
    ((State.log_posted _ .b code prod args).mono fun _ => List.mem_append_right _)

/-! ## Events (R76) -/

theorem State.pairPull1_only (s : State) (x : Side) : Only l s (s.pairPull1 x) := by
  unfold State.pairPull1
  dsimp only
  split
  · exact Only.refl l s
  · split
    · exact Only.refl l s
    · split
      · exact Only.refl l s
      · exact Only.of_regs (by simp)

theorem State.pairPulls_only (x : Side) : ∀ (n : Nat) (s : State), Only l s (iter (fun s => s.pairPull1 x) n s)
  | 0, s => Only.refl l s
  | n + 1, s => (s.pairPull1_only x).trans (State.pairPulls_only x n (s.pairPull1 x))

/-- Words that enter the reply FIFO of a door latch the door's source, those of the Stoke port none. -/
theorem State.enqueue_only {i : Nat} {ws : List Nat} (hl : i < 32 → (.side x, F.INTR_PENDING, i / 32) ∈ l) : Only l s (s.enqueue x i ws) := by
  have hpull : ∀ t : State, Only l t (if t.pairDoor x = some i then t.pairPull x else t) := fun t => by
    split
    · exact t.pairPulls_only x 64
    · exact Only.refl l t
  have hlatch : ∀ t : State, Only l t (if i < 32 then t.intr x i else t) := fun t => by
    split
    · next hi => exact Only.intr (hl hi)
    · exact Only.refl l t
  exact ((Only.of_regs (State.regs_setSrc _ _ _ _)).trans (hlatch _)).trans (hpull _)

theorem mem_eventFields_side {w : Nat} {p : Spot} (hp : p ∈ eventFields s x w) : p.1 = .side x := by
  simp only [eventFields, List.cons_append, List.nil_append, List.mem_cons] at hp
  rcases hp with rfl | rfl | rfl | rfl | hp
  · rfl
  · rfl
  · rfl
  · rfl
  · exact mem_logFields_side hp

theorem logFields_subset_eventFields {w : Nat} {p : Spot} (hp : p ∈ logFields x) : p ∈ eventFields s x w := List.mem_append_right _ hp

theorem State.event_posted (s : State) (x : Side) (w cls status detail target : Nat) (words : List Nat) :
    Posted (eventFields s x w) s (s.event x w cls status detail target words) := by
  have hset : ∀ {t : State} {f : Fld} {i v : Nat}, (.side x, f, i) ∈ eventFields s x w → Posted (eventFields s x w) t (t.set (.side x) f i v) :=
    fun hf => .of_sideOnly (Only.set hf) (SideOnly.set _ _ _ _ _) fun _ => mem_eventFields_side
  unfold State.event
  split
  · exact Posted.refl _ s
  · dsimp only
    split
    · split
      · refine .of_sideOnly (State.enqueue_only fun hi => ?_) (s.enqueue_delivered x _ _).rest fun _ => mem_eventFields_side
        rw [Nat.div_eq_of_lt hi]
        simp [eventFields]
      · refine Posted.trans ?_ ((State.log_posted _ x _ _ _).mono fun _ => logFields_subset_eventFields)
        split
        · exact (hset (by simp [eventFields])).trans (hset (by simp [eventFields]))
        · exact Posted.refl _ s
    · exact hset (by simp [eventFields])

/-- The registers of the fields that an event may write. -/
def eventRegs : List Nat :=
  [F.DOOR_STATUS_EVT_LOST.reg, F.DOOR_EVT_LOST_COUNT.reg, F.STOKER_EVT_NONE_COUNT.reg, F.INTR_PENDING.reg, F.ASH_SEQ.reg,
   F.ASH_STATUS_FILL.reg, F.ASH_STATUS_OVERWRITE.reg, F.ASH_OVERWRITE_COUNT.reg, F.INTR_PENDING.reg]

theorem eventFields_reg {w : Nat} {p : Spot} (hp : p ∈ eventFields s x w) : p.2.1.reg ∈ eventRegs :=
  List.mem_map_of_mem (f := fun p : Spot => p.2.1.reg) hp

/-- The doors of events stay, so that a second event may write what the first one may. -/
theorem eventFields_eq {w : Nat} (h : t.get (.side x) F.DOOR_EVT w = s.get (.side x) F.DOOR_EVT w) : eventFields t x w = eventFields s x w := by
  simp only [eventFields, h]

theorem State.eventBoth_posted (s : State) (w cls status detail target : Nat) (words : List Nat) :
    Posted (eventFields s .a w ++ eventFields s .b w) s (s.eventBoth w cls status detail target words) := by
  have ha := s.event_posted .a w cls status detail target words
  have hdoor : (s.event .a w cls status detail target words).get (.side .b) F.DOOR_EVT w = s.get (.side .b) F.DOOR_EVT w :=
    ha.get_reg (fun p hp e => absurd (e ▸ eventFields_reg hp) (by decide)) _ _
  have hb := State.event_posted (s.event .a w cls status detail target words) .b w cls status detail target words
  rw [eventFields_eq hdoor] at hb
  exact (ha.mono fun _ => List.mem_append_left _).trans (hb.mono fun _ => List.mem_append_right _)

/-! ## What a channel's events leave of the dies -/

theorem State.chEventPost_posted (s : State) (c code w : Nat) : Posted (noticeFields s c) s (s.chEventPost c code w) := s.eventBoth_posted _ _ _ _ _ _

theorem logFields_subset_noticeFields {c : Nat} {p : Spot} (hp : p ∈ logFields .a ++ logFields .b) : p ∈ noticeFields s c :=
  (List.mem_append.1 hp).elim (fun h => List.mem_append_left _ (logFields_subset_eventFields h))
    fun h => List.mem_append_right _ (logFields_subset_eventFields h)

/-- The registers that a channel's events may write stay the same while its owner and the doors of events stay. -/
theorem noticeFields_eq {c : Nat} (hown : t.cq c F.CH_CFG2 = s.cq c F.CH_CFG2)
    (hdoor : ∀ x w, t.get (.side x) F.DOOR_EVT w = s.get (.side x) F.DOOR_EVT w) : noticeFields t c = noticeFields s c := by
  rw [noticeFields, noticeFields, hown, eventFields_eq (hdoor _ _), eventFields_eq (hdoor _ _)]

theorem noticeFields_reg {c : Nat} {p : Spot} (hp : p ∈ noticeFields s c) : p.2.1.reg ∈ eventRegs :=
  (List.mem_append.1 hp).elim eventFields_reg eventFields_reg

end Sys2Proof.Machine
end

section
/-! One load channel: the frame of what happens to it, and what the operations that its events share write and leave (R162, R163, R173 to
R175, R185, R197). -/
namespace Sys2Proof.Machine
open Sys2Proof

variable {s t u : State} {c : Nat} {n : List Spot} {l : List Fld}

/-! ## The frame -/

/-- `t` is `s` but for channel `c`, its register fields `l`, the register fields `n`, and what side, die and time make of it. -/
structure AtChan (c : Nat) (n : List Spot) (l : List Fld) (s t : State) : Prop where
  chans : ChansBut [c] s t
  only : Only (n ++ chSpots c l) s t
  mem : t.mem = s.mem

theorem AtChan.refl (c : Nat) (n : List Spot) (l : List Fld) (s : State) : AtChan c n l s s := ⟨fun _ _ => rfl, Only.refl _ s, rfl⟩

theorem AtChan.trans (h : AtChan c n l s t) (k : AtChan c n l t u) : AtChan c n l s u :=
  ⟨fun b hb => (k.chans b hb).trans (h.chans b hb), h.only.trans k.only, k.mem.trans h.mem⟩

theorem AtChan.memSame (h : AtChan c n l s t) : MemSame s t := fun x a => by simp only [State.byte, h.mem]

/-- The frame of what posts no event. -/
theorem AtChan.frame (h : AtChan c [] l s t) : ChansBut [c] s t ∧ Only (chSpots c l) s t ∧ MemSame s t := ⟨h.chans, h.only, h.memSame⟩

/-- The frame of what posts events or entries. -/
theorem AtChan.noticed (h : AtChan c (noticeFields s c) l s t) :
    ChansBut [c] s t ∧ Only (noticeFields s c ++ chSpots c l) s t ∧ MemSame s t := ⟨h.chans, h.only, h.memSame⟩

/-- What leaves the channels, the registers and memory. -/
theorem AtChan.same (h : AtChan c n l s t) (hchans : u.chans = t.chans) (hregs : u.regs = t.regs) (hmem : u.mem = t.mem) :
    AtChan c n l s u :=
  ⟨fun b hb => (congrArg (fun m => Tab.at Chan.init m b) hchans).trans (h.chans b hb), h.only.then_regs hregs, hmem.trans h.mem⟩

theorem AtChan.due (h : AtChan c n l s t) (at_ : Nat) : AtChan c n l s (t.due at_) := h.same rfl rfl rfl

theorem AtChan.setDie (h : AtChan c n l s t) (d : Nat) (v : DieSt) : AtChan c n l s (t.setDie d v) := h.same rfl rfl rfl

theorem AtChan.setSide (h : AtChan c n l s t) (x : Side) (v : SideSt) : AtChan c n l s (t.setSide x v) :=
  h.same (State.chans_setSide _ _ _) (State.regs_setSide _ _ _) (State.mem_setSide _ _ _)

theorem AtChan.setChan (h : AtChan c n l s t) (v : Chan) : AtChan c n l s (t.setChan c v) := by
  refine h.trans ⟨fun b hb => ?_, Only.of_regs rfl, rfl⟩
  rw [State.chan_setChan, if_neg (by simpa using hb)]

theorem AtChan.cw (h : AtChan c n l s t) {f : Fld} (hf : f ∈ l) (v : Nat) : AtChan c n l s (t.cw c f v) :=
  h.trans ⟨fun _ _ => rfl, Only.set (List.mem_append_right _ (List.mem_map_of_mem hf)), rfl⟩

theorem AtChan.cn (h : AtChan c n l s t) {f : Fld} (hf : f ∈ l) : AtChan c n l s (t.cn c f) := h.cw hf _

theorem AtChan.posted (h : AtChan c n l s t) (k : Posted n t u) : AtChan c n l s u :=
  h.trans ⟨fun b _ => congrArg (fun m => Tab.at Chan.init m b) k.chans, k.only.mono fun _ => List.mem_append_left _, k.mem⟩

/-- A register field of the channel that the frame does not list. -/
theorem AtChan.cq (h : AtChan c n l s t) {g : Fld} (hn : ∀ p ∈ n, g.reg ≠ p.2.1.reg) (hl : ∀ f ∈ l, g.reg ≠ f.reg ∨ g.lo ≠ f.lo) :
    t.cq c g = s.cq c g := by
  refine h.only.get_fld fun p hp => ?_
  rcases List.mem_append.1 hp with hp | hp
  · exact .inl (hn p hp)
  · obtain ⟨f, hf, rfl⟩ := List.mem_map.1 hp
    exact hl f hf

/-! ## Registers of a channel, written and read -/

theorem State.cq_cn_self (s : State) (c : Nat) (f : Fld) : (s.cn c f).cq c f = (s.cq c f + 1) % 2 ^ f.width := s.cq_cw_self c f _

theorem State.cq_cn_fld (s : State) (c b : Nat) {f g : Fld} (h : g.reg ≠ f.reg ∨ g.lo ≠ f.lo) : (s.cn c f).cq b g = s.cq b g :=
  s.cq_cw_fld c b _ h

theorem State.chState_cn (s : State) (c b : Nat) {f : Fld} (h : F.CH_STATE_STATE.reg ≠ f.reg) : (s.cn c f).chState b = s.chState b :=
  s.cq_cn_fld c b (.inl h)

theorem State.chState_cw (s : State) (c b : Nat) {f : Fld} (v : Nat) (h : F.CH_STATE_STATE.reg ≠ f.reg ∨ F.CH_STATE_STATE.lo ≠ f.lo) :
    (s.cw c f v).chState b = s.chState b := s.cq_cw_fld c b v h

@[simp] theorem State.chan_cw (s : State) (c b : Nat) (f : Fld) (v : Nat) : (s.cw c f v).chan b = s.chan b := State.chan_set _ _ _ _ _ _

@[simp] theorem State.chan_cn (s : State) (c b : Nat) (f : Fld) : (s.cn c f).chan b = s.chan b := State.chan_set _ _ _ _ _ _

@[simp] theorem State.now_cw (s : State) (c : Nat) (f : Fld) (v : Nat) : (s.cw c f v).now = s.now := State.now_set _ _ _ _ _

@[simp] theorem State.now_cn (s : State) (c : Nat) (f : Fld) : (s.cn c f).now = s.now := State.now_set _ _ _ _ _

/-! ## A change of state (R163, R175, R185, R230) -/

/-- The channel's own part of a change from state `old` to `st` at instant `now`. -/
def Chan.entered (v : Chan) (old st now : Nat) : Chan :=
  let running (n : Nat) : Bool := n == 2 || n == 3
  { v with
    okSince := if running st then (if running old then v.okSince else some now) else none
    offSince := if st = 0 ∧ old ≠ 0 then now else v.offSince
    quietSince := if quiet st ∧ ¬ quiet old then now else v.quietSince
    present := v.present &&& diagKeeps st
    pwmOn := v.pwmOn && driven st
    pwmOff := if driven st then v.pwmOff else none
    pwmWait := v.pwmWait && driven st
    complete := v.complete && driven st
    faultReg := if st ≤ 4 then 0 else v.faultReg }

/-- Register fields that a change of state writes. -/
def gotoFlds : List Fld := [F.CH_STATE_STATE, F.DMP_CH_STATUS_SHED]

/-- The registers as a channel enters state `st`: out of DAMPER_OFF it is no longer shed (R230). -/
def State.gotoRegs (s : State) (c st : Nat) : State :=
  if st = 8 then s.cw c F.CH_STATE_STATE st else (s.cw c F.CH_STATE_STATE st).cw c F.DMP_CH_STATUS_SHED 0

/-- Only the registers change. -/
theorem State.gotoRegs_rest (s : State) (c st : Nat) : (s.gotoRegs c st).now = s.now ∧ (s.gotoRegs c st).chans = s.chans ∧
    (s.gotoRegs c st).dies = s.dies ∧ (s.gotoRegs c st).mem = s.mem ∧ ∀ x, (s.gotoRegs c st).side x = s.side x := by
  unfold State.gotoRegs
  split <;> exact ⟨rfl, rfl, rfl, rfl, fun x => by cases x <;> rfl⟩

theorem State.goto_eq (s : State) (c st : Nat) :
    s.goto c st = (s.gotoRegs c st).setChan c ((s.chan c).entered (s.chState c) st s.now) := by
  obtain ⟨hnow, -⟩ := s.gotoRegs_rest c st
  rw [← hnow]
  rfl

theorem State.chan_goto (s : State) (c st : Nat) : (s.goto c st).chan c = (s.chan c).entered (s.chState c) st s.now := by
  rw [State.goto_eq, State.chan_setChan_self]

theorem State.cq_goto_fld (s : State) (c st b : Nat) {g : Fld} (hg : ∀ f ∈ gotoFlds, g.reg ≠ f.reg ∨ g.lo ≠ f.lo) :
    (s.goto c st).cq b g = s.cq b g := by
  have hstate := hg F.CH_STATE_STATE (by decide)
  rw [State.cq_goto]
  split
  · exact s.cq_cw_fld c b st hstate
  · rw [State.cq_cw_fld _ c b 0 (hg F.DMP_CH_STATUS_SHED (by decide)), s.cq_cw_fld c b st hstate]

theorem State.chState_goto (s : State) (c : Nat) {st : Nat} (h : st < 16) : (s.goto c st).chState c = st := by
  have hset : (s.cw c F.CH_STATE_STATE st).chState c = st := (s.cq_cw_self c F.CH_STATE_STATE st).trans (Nat.mod_eq_of_lt h)
  rw [State.chState, State.cq_goto]
  split
  · exact hset
  · exact (State.cq_cw_fld _ _ _ _ (by decide)).trans hset

theorem AtChan.goto (h : AtChan c n l s t) (hl : ∀ f ∈ gotoFlds, f ∈ l) (st : Nat) : AtChan c n l s (t.goto c st) := by
  have hstate := h.cw (hl F.CH_STATE_STATE (by decide)) st
  rw [State.goto_eq, State.gotoRegs]
  refine AtChan.setChan ?_ _
  split
  · exact hstate
  · exact hstate.cw (hl F.DMP_CH_STATUS_SHED (by decide)) 0

@[simp] theorem State.dies_goto (s : State) (c st : Nat) : (s.goto c st).dies = s.dies := by
  obtain ⟨-, -, hdies, -⟩ := s.gotoRegs_rest c st
  rw [State.goto_eq, State.dies_setChan, hdies]

@[simp] theorem State.side_goto (s : State) (c st : Nat) (x : Side) : (s.goto c st).side x = s.side x := by
  obtain ⟨-, -, -, -, hside⟩ := s.gotoRegs_rest c st
  rw [State.goto_eq, State.side_setChan, hside]

/-! ## Events (R197) -/

/-- The instants from which a channel may post its events again, once one of code `code` has been posted or suppressed. -/
def State.evtTimes (s : State) (c code : Nat) : Tab Nat :=
  if code = 3 ∨ code = 9 then (s.chan c).lastEvt else (limited (s.chan c).lastEvt code s.now).getD (s.chan c).lastEvt

/-- A channel's event is a change of the channel itself, `u`, and then a post: its times or, where it is suppressed, its count of events not
posted. -/
theorem State.chEvent_parts (s : State) (c code w : Nat) : ∃ u, AtChan c [] [F.CH_EVT_SUPPRESS_COUNT] s u ∧
    u.chan c = { s.chan c with lastEvt := s.evtTimes c code } ∧ u.now = s.now ∧ u.dies = s.dies ∧
    Posted (noticeFields s c) u (s.chEvent c code w) := by
  unfold State.chEvent State.evtTimes
  split
  · exact ⟨s, AtChan.refl _ _ _ s, rfl, rfl, rfl, s.chEventPost_posted c code w⟩
  · split
    · next v hv =>
      refine ⟨_, (AtChan.refl _ _ _ s).setChan _, ?_, rfl, rfl, State.chEventPost_posted (s.setChan c { s.chan c with lastEvt := v }) c code w⟩
      rw [State.chan_setChan_self, hv, Option.getD_some]
    · next hv =>
      exact ⟨_, (AtChan.refl _ _ _ s).cn (by decide), by rw [State.chan_cn, hv, Option.getD_none], rfl, rfl, Posted.refl _ _⟩

theorem State.chan_chEvent (s : State) (c code w : Nat) :
    (s.chEvent c code w).chan c = { s.chan c with lastEvt := s.evtTimes c code } := by
  obtain ⟨u, -, hu, -, -, hpost⟩ := s.chEvent_parts c code w
  rw [State.chan, hpost.chans]
  exact hu

@[simp] theorem State.now_chEvent (s : State) (c code w : Nat) : (s.chEvent c code w).now = s.now := by
  obtain ⟨u, -, -, hu, -, hpost⟩ := s.chEvent_parts c code w
  exact hpost.now.trans hu

@[simp] theorem State.dies_chEvent (s : State) (c code w : Nat) : (s.chEvent c code w).dies = s.dies := by
  obtain ⟨u, -, -, -, hu, hpost⟩ := s.chEvent_parts c code w
  exact hpost.dies.trans hu

/-- A register of the dies other than the counts of events not posted. -/
theorem State.grate_chEvent (s : State) (c code w d i : Nat) {g : Fld} (hg : g.reg ≠ F.CH_EVT_SUPPRESS_COUNT.reg) :
    (s.chEvent c code w).get (.grate d) g i = s.get (.grate d) g i := by
  obtain ⟨u, hu, -, -, -, hpost⟩ := s.chEvent_parts c code w
  refine (hpost.grate d g i).trans (hu.only.get_fld fun p hp => .inl ?_)
  obtain ⟨f, hf, rfl⟩ := List.mem_map.1 hp
  rwa [List.mem_singleton.1 hf]

theorem State.cq_chEvent (s : State) (c code w b : Nat) {g : Fld} (hg : g.reg ≠ F.CH_EVT_SUPPRESS_COUNT.reg) :
    (s.chEvent c code w).cq b g = s.cq b g := s.grate_chEvent c code w _ _ hg

theorem State.chState_chEvent (s : State) (c code w b : Nat) : (s.chEvent c code w).chState b = s.chState b :=
  s.cq_chEvent c code w b (by decide)

/-- The owner of the channel and the doors of events are as before: an event in `t` may write what one in `s` may. -/
theorem AtChan.noticeFields_eq (h : AtChan c (noticeFields s c) l s t) (hl : ∀ f ∈ l, F.CH_CFG2.reg ≠ f.reg ∧ F.DOOR_EVT.reg ≠ f.reg) :
    noticeFields t c = noticeFields s c := by
  have hget : ∀ (g : Fld) (k : Holder) (i : Nat), g.reg ∉ eventRegs → (∀ f ∈ l, g.reg ≠ f.reg) →
      t.get k g i = s.get k g i := fun g k i hg hne => h.only.get_fld fun p hp => .inl fun e => by
    rcases List.mem_append.1 hp with hp | hp
    · exact hg (e ▸ noticeFields_reg hp)
    · obtain ⟨f, hf, rfl⟩ := List.mem_map.1 hp
      exact hne f hf e
  exact Machine.noticeFields_eq (hget _ _ _ (by decide) fun f hf => (hl f hf).1) fun _ _ => hget _ _ _ (by decide) fun f hf => (hl f hf).2

theorem AtChan.chEvent (h : AtChan c (noticeFields s c) l s t) (hcount : F.CH_EVT_SUPPRESS_COUNT ∈ l)
    (hl : ∀ f ∈ l, F.CH_CFG2.reg ≠ f.reg ∧ F.DOOR_EVT.reg ≠ f.reg) (code w : Nat) :
    AtChan c (noticeFields s c) l s (t.chEvent c code w) := by
  obtain ⟨u, ⟨hchans, honly, hmem⟩, -, -, -, hpost⟩ := t.chEvent_parts c code w
  rw [h.noticeFields_eq hl] at hpost
  refine (h.trans ⟨hchans, honly.mono fun p hp => List.mem_append_right _ ?_, hmem⟩).posted hpost
  obtain ⟨f, hf, rfl⟩ := List.mem_map.1 hp
  exact List.mem_map.2 ⟨f, by rwa [List.mem_singleton.1 hf], rfl⟩

theorem AtChan.logBoth (h : AtChan c (noticeFields s c) l s t) (code prod : Nat) (args : List Arg) :
    AtChan c (noticeFields s c) l s (t.logBoth code prod args) :=
  h.posted ((t.logBoth_posted code prod args).mono fun _ => logFields_subset_noticeFields)

end Sys2Proof.Machine
end

section
/-! Faults of a channel: the protective turn-off, latch-off and fault handling (R162, R163, R173 to R175). -/
namespace Sys2Proof.Machine
open Sys2Proof

variable {s t u : State} {c : Nat} {n : List Spot} {l : List Fld}

/-! ## The sticky bit and the protective turn-off (R163) -/

theorem State.diag_diagBit (s : State) (c : Nat) {fault : Nat} (h : fault - 1 < 10) :
    ((s.diagBit c fault).cq c F.CH_DIAG).testBit (fault - 1) = true := by
  rw [State.diagBit, State.cq_cw_self, testBit_mod _ _ _ (show fault - 1 < F.CH_DIAG.width from h), testBit_setBit]

theorem State.cq_diagBit_fld (s : State) (c fault b : Nat) {g : Fld} (h : g.reg ≠ F.CH_DIAG.reg) : (s.diagBit c fault).cq b g = s.cq b g :=
  s.cq_cw_fld c b _ (.inl h)

theorem State.chState_diagBit (s : State) (c fault b : Nat) : (s.diagBit c fault).chState b = s.chState b :=
  s.cq_diagBit_fld c fault b (by decide)

@[simp] theorem State.chan_diagBit (s : State) (c fault b : Nat) : (s.diagBit c fault).chan b = s.chan b := s.chan_cw c b _ _

@[simp] theorem State.now_diagBit (s : State) (c fault : Nat) : (s.diagBit c fault).now = s.now := s.now_cw c _ _

/-- The channel's own part of a protective turn-off. -/
def Chan.faulted (v : Chan) (old st now fault : Nat) : Chan :=
  { v.entered old st now with faultReg := fault, offAt := now, offSlew := if driven old then 500 else v.offSlew }

/-- Register fields that a protective turn-off writes. -/
def faultFlds : List Fld := F.CH_DIAG :: gotoFlds

theorem State.faultTo_eq (s : State) (c fault st : Nat) :
    s.faultTo c fault st = ((s.diagBit c fault).goto c st).setChan c ((s.chan c).faulted (s.chState c) st s.now fault) := by
  have hchan : ((s.diagBit c fault).goto c st).chan c = (s.chan c).entered (s.chState c) st s.now := by
    rw [State.chan_goto, s.chState_diagBit, State.chan_diagBit, State.now_diagBit]
  have hnow : ((s.diagBit c fault).goto c st).now = s.now := (State.now_goto _ _ _).trans (s.now_diagBit c fault)
  rw [State.faultTo, Chan.faulted, ← hchan, ← hnow]

theorem State.chan_faultTo (s : State) (c fault st : Nat) :
    (s.faultTo c fault st).chan c = (s.chan c).faulted (s.chState c) st s.now fault := by
  rw [State.faultTo_eq, State.chan_setChan_self]

theorem State.chState_faultTo (s : State) (c fault : Nat) {st : Nat} (h : st < 16) : (s.faultTo c fault st).chState c = st := by
  rw [State.faultTo_eq]
  exact State.chState_goto _ c h

theorem State.cq_faultTo_fld (s : State) (c fault st b : Nat) {g : Fld} (hg : ∀ f ∈ faultFlds, g.reg ≠ f.reg ∨ g.lo ≠ f.lo) :
    (s.faultTo c fault st).cq b g = s.cq b g := by
  rw [State.faultTo_eq, State.cq_setChan, State.cq_goto_fld _ _ _ _ fun f hf => hg f (List.mem_cons_of_mem _ hf)]
  exact s.cq_cw_fld c b _ (hg F.CH_DIAG (by decide))

theorem State.diag_faultTo (s : State) (c st : Nat) {fault : Nat} (h : fault - 1 < 10) :
    ((s.faultTo c fault st).cq c F.CH_DIAG).testBit (fault - 1) = true := by
  rw [State.faultTo_eq, State.cq_setChan, State.cq_goto_fld _ _ _ _ (by decide)]
  exact s.diag_diagBit c h

@[simp] theorem State.now_faultTo (s : State) (c fault st : Nat) : (s.faultTo c fault st).now = s.now := by
  rw [State.faultTo_eq, State.now_setChan, State.now_goto, State.now_diagBit]

theorem AtChan.diagBit (h : AtChan c n l s t) (hl : F.CH_DIAG ∈ l) (fault : Nat) : AtChan c n l s (t.diagBit c fault) := h.cw hl _

theorem AtChan.faultTo (h : AtChan c n l s t) (hl : ∀ f ∈ faultFlds, f ∈ l) (fault st : Nat) : AtChan c n l s (t.faultTo c fault st) := by
  rw [State.faultTo_eq]
  exact ((h.diagBit (hl F.CH_DIAG (by decide)) fault).goto (fun f hf => hl f (List.mem_cons_of_mem _ hf)) st).setChan _

/-- In a state in which the output is off for a reason, CH_STATE shows that reason. -/
theorem State.chFault_of_off (h : 5 ≤ s.chState c) : s.chFault c = (s.chan c).faultReg := if_pos h

/-- In a state in which no condition is present, it shows no fault. -/
theorem State.chFault_of_none (h : s.chState c < 5) (hp : (s.chan c).present = 0) : s.chFault c = 0 := by
  rw [State.chFault]
  simp only [Nat.not_le.2 h, if_false, hp, Nat.zero_testBit, Bool.false_eq_true, List.foldl_fixed]

/-! ## Latch-off (R174) -/

/-- Register fields that a latch-off writes. -/
def latchFlds : List Fld := F.CH_LATCH_COUNT :: F.CH_EVT_SUPPRESS_COUNT :: gotoFlds

/-- The channel in LATCHED, counted, and with the fault that it came with. -/
def State.latched (s : State) (c : Nat) : State :=
  ((s.goto c 7).setChan c { (s.chan c).entered (s.chState c) 7 s.now with faultReg := (s.chan c).faultReg }).cn c F.CH_LATCH_COUNT

/-- A latch-off is that, then its event, then its entry. -/
theorem State.latch_eq (s : State) (c : Nat) : ∃ args,
    s.latch c = ((s.latched c).chEvent c 3 (s.chan c).faultReg).logBoth 0x400 (23 + c / 16) args := by
  rw [State.latched, ← s.chan_goto c 7]
  exact ⟨_, rfl⟩

theorem State.cq_logBoth (s : State) (code prod : Nat) (args : List Arg) (b : Nat) (g : Fld) : (s.logBoth code prod args).cq b g = s.cq b g :=
  (s.logBoth_posted code prod args).grate _ _ _

theorem State.chan_logBoth (s : State) (code prod : Nat) (args : List Arg) (b : Nat) : (s.logBoth code prod args).chan b = s.chan b :=
  congrArg (fun m => Tab.at Chan.init m b) (s.logBoth_posted code prod args).chans

@[simp] theorem State.now_latch (s : State) (c : Nat) : (s.latch c).now = s.now := by
  obtain ⟨args, h⟩ := s.latch_eq c
  rw [h, (State.logBoth_posted _ _ _ _).now, State.now_chEvent, State.latched, State.now_cn, State.now_setChan, State.now_goto]

theorem State.cq_latch (s : State) (c b : Nat) {g : Fld} (hg : g.reg ≠ F.CH_EVT_SUPPRESS_COUNT.reg) :
    (s.latch c).cq b g = (s.latched c).cq b g := by
  obtain ⟨args, h⟩ := s.latch_eq c
  rw [h, State.cq_logBoth, State.cq_chEvent _ _ _ _ _ hg]

theorem State.chState_latch (s : State) (c : Nat) : (s.latch c).chState c = 7 := by
  rw [State.chState, State.cq_latch _ _ _ (by decide), State.latched, State.cq_cn_fld _ _ _ (by decide)]
  exact s.chState_goto c (by decide)

theorem State.cq_latch_fld (s : State) (c b : Nat) {g : Fld} (hg : ∀ f ∈ latchFlds, g.reg ≠ f.reg) : (s.latch c).cq b g = s.cq b g := by
  rw [State.cq_latch _ _ _ (hg _ (by decide)), State.latched, State.cq_cn_fld _ _ _ (.inl (hg _ (by decide)))]
  exact s.cq_goto_fld c 7 b fun f hf => .inl (hg f (by simp [latchFlds, hf]))

theorem State.latchCount_latch (s : State) (c : Nat) :
    (s.latch c).cq c F.CH_LATCH_COUNT = (s.cq c F.CH_LATCH_COUNT + 1) % 2 ^ F.CH_LATCH_COUNT.width := by
  rw [State.cq_latch _ _ _ (by decide), State.latched, State.cq_cn_self, State.cq_setChan, State.cq_goto_fld _ _ _ _ (by decide)]

theorem State.faultReg_latch (s : State) (c : Nat) : ((s.latch c).chan c).faultReg = (s.chan c).faultReg := by
  obtain ⟨args, h⟩ := s.latch_eq c
  rw [h, State.chan_logBoth, State.chan_chEvent, State.latched, State.chan_cn, State.chan_setChan_self]

theorem State.chFault_latch (s : State) (c : Nat) : (s.latch c).chFault c = (s.chan c).faultReg := by
  rw [State.chFault_of_off (by rw [State.chState_latch]; decide), State.faultReg_latch]

theorem AtChan.latch (h : AtChan c (noticeFields s c) l s t) (hl : ∀ f ∈ latchFlds, f ∈ l)
    (hown : ∀ f ∈ l, F.CH_CFG2.reg ≠ f.reg ∧ F.DOOR_EVT.reg ≠ f.reg) : AtChan c (noticeFields s c) l s (t.latch c) := by
  obtain ⟨args, heq⟩ := t.latch_eq c
  rw [heq]
  exact ((((h.goto (fun f hf => hl f (by simp [latchFlds, hf])) 7).setChan _).cn (hl _ (by decide))).chEvent (hl _ (by decide)) hown _ _).logBoth
    _ _ _

/-! ## Fault handling (R162) -/

/-- The state in which fault handling leaves the channel. -/
def State.handledTo (s : State) (c : Nat) : Nat :=
  if s.cq c F.CH_STATE_CMD_ON = 0 then 0 else if (s.chan c).retries < s.attemptLimit c then 6 else 7

theorem State.handledTo_ne_zero (h : s.cq c F.CH_STATE_CMD_ON ≠ 0) : s.handledTo c ≠ 0 := by
  rw [State.handledTo, if_neg h]
  split <;> decide

theorem State.faultHandle_off (h : s.cq c F.CH_STATE_CMD_ON = 0) : s.faultHandle c = s.goto c 0 := if_pos h

theorem State.faultHandle_retry (h : s.cq c F.CH_STATE_CMD_ON ≠ 0) (hr : (s.chan c).retries < s.attemptLimit c) : ∃ at_,
    s.faultHandle c = (s.goto c 6).setChan c
      { (s.chan c).entered (s.chState c) 6 s.now with faultReg := (s.chan c).faultReg, retryAt := at_ } := by
  rw [← s.chan_goto c 6]
  exact ⟨_, (if_neg h).trans (if_pos hr)⟩

theorem State.faultHandle_latch (h : s.cq c F.CH_STATE_CMD_ON ≠ 0) (hr : ¬ (s.chan c).retries < s.attemptLimit c) :
    s.faultHandle c = s.latch c := (if_neg h).trans (if_neg hr)

/-- The three ways of fault handling. -/
theorem State.faultHandle_cases (s : State) (c : Nat) : s.handledTo c = 0 ∧ s.faultHandle c = s.goto c 0 ∨
    s.handledTo c = 6 ∧ (∃ at_, s.faultHandle c = (s.goto c 6).setChan c
      { (s.chan c).entered (s.chState c) 6 s.now with faultReg := (s.chan c).faultReg, retryAt := at_ }) ∨
    s.handledTo c = 7 ∧ s.faultHandle c = s.latch c := by
  unfold State.handledTo
  split
  · next h => exact .inl ⟨rfl, State.faultHandle_off h⟩
  · next h =>
    split
    · next hr => exact .inr (.inl ⟨rfl, State.faultHandle_retry h hr⟩)
    · next hr => exact .inr (.inr ⟨rfl, State.faultHandle_latch h hr⟩)

theorem State.chState_faultHandle (s : State) (c : Nat) : (s.faultHandle c).chState c = s.handledTo c := by
  obtain ⟨hto, h⟩ | ⟨hto, at_, h⟩ | ⟨hto, h⟩ := s.faultHandle_cases c <;> rw [hto, h]
  · exact s.chState_goto c (by decide)
  · exact s.chState_goto c (by decide)
  · exact s.chState_latch c

/-- Kept off by fault handling, the channel shows the fault that it came with. -/
theorem State.chFault_faultHandle_off (h : s.handledTo c ≠ 0) : (s.faultHandle c).chFault c = (s.chan c).faultReg := by
  obtain ⟨hto, -⟩ | ⟨-, at_, heq⟩ | ⟨-, heq⟩ := s.faultHandle_cases c
  · exact absurd hto h
  · rw [heq, State.chFault_of_off, State.chan_setChan_self]
    exact (show 5 ≤ 6 by decide).trans (s.chState_goto c (by decide)).ge
  · rw [heq, s.chFault_latch]

theorem State.chFault_faultHandle (s : State) (c : Nat) (hp : (s.chan c).present = 0) :
    (s.faultHandle c).chFault c = if (s.faultHandle c).chState c = 0 then 0 else (s.chan c).faultReg := by
  rw [s.chState_faultHandle]
  split
  · next h =>
    obtain ⟨-, heq⟩ | ⟨hto, -⟩ | ⟨hto, -⟩ := s.faultHandle_cases c
    · rw [heq]
      refine State.chFault_of_none (by rw [State.chState_goto _ _ (by decide)]; decide) ?_
      rw [State.chan_goto, Chan.entered, hp, Nat.zero_and]
    · rw [hto] at h
      cases h
    · rw [hto] at h
      cases h
  · next h => exact State.chFault_faultHandle_off h

@[simp] theorem State.now_faultHandle (s : State) (c : Nat) : (s.faultHandle c).now = s.now := by
  obtain ⟨-, h⟩ | ⟨-, at_, h⟩ | ⟨-, h⟩ := s.faultHandle_cases c <;> rw [h]
  · exact s.now_goto c 0
  · exact s.now_goto c 6
  · exact s.now_latch c

theorem State.cq_faultHandle_fld (s : State) (c b : Nat) {g : Fld} (hg : ∀ f ∈ latchFlds, g.reg ≠ f.reg) :
    (s.faultHandle c).cq b g = s.cq b g := by
  have hgoto : ∀ st, (s.goto c st).cq b g = s.cq b g := fun st => s.cq_goto_fld c st b fun f hf => .inl (hg f (by simp [latchFlds, hf]))
  obtain ⟨-, h⟩ | ⟨-, at_, h⟩ | ⟨-, h⟩ := s.faultHandle_cases c <;> rw [h]
  · exact hgoto 0
  · exact hgoto 6
  · exact s.cq_latch_fld c b hg

theorem AtChan.faultHandle (h : AtChan c (noticeFields s c) l s t) (hl : ∀ f ∈ latchFlds, f ∈ l)
    (hown : ∀ f ∈ l, F.CH_CFG2.reg ≠ f.reg ∧ F.DOOR_EVT.reg ≠ f.reg) : AtChan c (noticeFields s c) l s (t.faultHandle c) := by
  have hgoto := h.goto fun f hf => hl f (by simp [latchFlds, hf])
  obtain ⟨-, heq⟩ | ⟨-, at_, heq⟩ | ⟨-, heq⟩ := t.faultHandle_cases c <;> rw [heq]
  · exact hgoto 0
  · exact (hgoto 6).setChan _
  · exact h.latch hl hown

/-! ## A fault that turns the channel off (R162) -/

/-- Register fields that decide where fault handling goes. -/
def policyFlds : List Fld := [F.CH_STATE_CMD_ON, F.CH_CFG1_RETRY_CEIL, F.CH_RETRY_POLICY, F.CH_RETRY_LIMIT]

theorem State.attemptLimit_eq (h : ∀ g ∈ policyFlds, t.cq c g = s.cq c g) : t.attemptLimit c = s.attemptLimit c := by
  unfold State.attemptLimit
  rw [h F.CH_CFG1_RETRY_CEIL (by decide), h F.CH_RETRY_POLICY (by decide), h F.CH_RETRY_LIMIT (by decide)]

theorem State.handledTo_eq (h : ∀ g ∈ policyFlds, t.cq c g = s.cq c g) (hr : (t.chan c).retries = (s.chan c).retries) :
    t.handledTo c = s.handledTo c := by
  rw [State.handledTo, State.handledTo, h F.CH_STATE_CMD_ON (by decide), State.attemptLimit_eq h, hr]

/-- The channel in DAMPER_OFF under a fault, its event posted as it was found. -/
def State.faulted (s : State) (c fault code w : Nat) : State := ((s.diagBit c fault).chEvent c code w).faultTo c fault 8

theorem State.chan_faulted (s : State) (c fault code w : Nat) : (s.faulted c fault code w).chan c =
    Chan.faulted { s.chan c with lastEvt := (s.diagBit c fault).evtTimes c code } (s.chState c) 8 s.now fault := by
  rw [State.faulted, State.chan_faultTo, State.chan_chEvent, State.chState_chEvent, State.chState_diagBit, State.now_chEvent, State.now_diagBit,
    State.chan_diagBit]

theorem State.handledTo_faulted (s : State) (c fault code w : Nat) : (s.faulted c fault code w).handledTo c = s.handledTo c := by
  refine State.handledTo_eq (fun g hg => ?_) (by rw [State.chan_faulted]; rfl)
  have hne : ∀ g ∈ policyFlds, (∀ f ∈ faultFlds, g.reg ≠ f.reg ∨ g.lo ≠ f.lo) ∧ g.reg ≠ F.CH_EVT_SUPPRESS_COUNT.reg ∧ g.reg ≠ F.CH_DIAG.reg := by
    decide
  obtain ⟨hfault, hcount, hdiag⟩ := hne g hg
  rw [State.faulted, State.cq_faultTo_fld _ _ _ _ _ hfault, State.cq_chEvent _ _ _ _ _ hcount, State.cq_diagBit_fld _ _ _ _ hdiag]

theorem State.chState_faultOff (s : State) (c fault code w : Nat) : (s.faultOff c fault code w).chState c = s.handledTo c :=
  (State.chState_faultHandle _ c).trans (s.handledTo_faulted c fault code w)

theorem State.diag_faultOff (s : State) (c code w : Nat) {fault : Nat} (h : fault - 1 < 10) :
    ((s.faultOff c fault code w).cq c F.CH_DIAG).testBit (fault - 1) = true := by
  rw [State.faultOff, State.cq_faultHandle_fld _ _ _ (by decide)]
  exact State.diag_faultTo _ c 8 h

theorem State.chFault_faultOff (s : State) (c fault code w : Nat) :
    (s.faultOff c fault code w).chFault c = if (s.faultOff c fault code w).chState c = 0 then 0 else fault := by
  have hchan := s.chan_faulted c fault code w
  have hreg : ((s.faulted c fault code w).chan c).faultReg = fault := by rw [hchan]; rfl
  have hpresent : ((s.faulted c fault code w).chan c).present = 0 := by rw [hchan]; exact Nat.and_zero _
  have hfault := (s.faulted c fault code w).chFault_faultHandle c hpresent
  rwa [hreg] at hfault

@[simp] theorem State.now_faultOff (s : State) (c fault code w : Nat) : (s.faultOff c fault code w).now = s.now := by
  rw [State.faultOff, State.now_faultHandle, State.now_faultTo, State.now_chEvent, State.now_diagBit]

/-- Register fields that a fault with its handling writes. -/
def offFlds : List Fld := [F.CH_STATE_STATE, F.DMP_CH_STATUS_SHED, F.CH_DIAG, F.CH_LATCH_COUNT, F.CH_EVT_SUPPRESS_COUNT]

theorem AtChan.faultOff (h : AtChan c (noticeFields s c) offFlds s t) (fault code w : Nat) :
    AtChan c (noticeFields s c) offFlds s (t.faultOff c fault code w) :=
  (((h.diagBit (by decide) fault).chEvent (by decide) (by decide) code w).faultTo (by decide) fault 8).faultHandle (by decide) (by decide)

end Sys2Proof.Machine
end

section
/-! The transitions of one channel as its events bring them about (R162, R163, R168, R171, R172, R185). -/
namespace Sys2Proof.Machine
open Sys2Proof

variable {s : State} {d : Fin 4} {n : Fin 16}

/-! ## Turn-on, limit and thermal shutdown -/

theorem exec_turnOnComplete (hrun : s.dieRuns d = true) (h : s.chState (chanNo d n) = 1) : exec (.turnOnComplete d n) s =
    .next ((s.goto (chanNo d n) 2).setChan (chanNo d n) { (s.goto (chanNo d n) 2).chan (chanNo d n) with complete := true }) := by
  refine (congrArg ok (if_pos ⟨hrun, .inl h⟩)).trans ?_
  rw [if_pos h]
  rfl

theorem exec_limitEntry (hrun : s.dieRuns d = true)
    (h : s.chState (chanNo d n) = 1 ∨ s.chState (chanNo d n) = 2 ∨ s.chState (chanNo d n) = 3 ∧ (s.chan (chanNo d n)).pwmOn = true) :
    exec (.limitEntry d n) s = .next ((s.goto (chanNo d n) 4).cn (chanNo d n) F.CH_LIMIT_COUNT) := congrArg ok (if_pos ⟨hrun, h⟩)

theorem exec_limitExit (hrun : s.dieRuns d = true) (h : s.chState (chanNo d n) = 4) : exec (.limitExit d n) s =
    .next (s.goto (chanNo d n) (if s.inPwm (chanNo d n) then 3 else if (s.chan (chanNo d n)).complete then 2 else 1)) :=
  congrArg ok (if_pos ⟨hrun, h⟩)

theorem exec_tsdEntry (hrun : s.dieRuns d = true) (h : driven (s.chState (chanNo d n)) = true) : exec (.tsdEntry d n) s =
    .next (((s.faultTo (chanNo d n) 5 5).cn (chanNo d n) F.CH_TSD_COUNT).chEvent (chanNo d n) 1 0) := congrArg ok (if_pos ⟨hrun, h⟩)

theorem exec_tsdExit (hrun : s.dieRuns d = true) (h : s.chState (chanNo d n) = 5) :
    exec (.tsdExit d n) s = .next (s.faultHandle (chanNo d n)) := congrArg ok (if_pos ⟨hrun, h⟩)

/-! ## Self-checks (R185) -/

/-- A failed self-check is counted. -/
def State.checkFailed (s : State) (c : Nat) : State :=
  s.setChan c { s.chan c with selfFails := min 2 ((s.chan c).selfFails + 1), selfPasses := 0 }

theorem exec_measSelfCheck_pass (hrun : s.dieRuns d = true) : exec (.measSelfCheck d n true) s = .next (s.setChan (chanNo d n)
    { s.chan (chanNo d n) with selfFails := 0, selfPasses := min 2 ((s.chan (chanNo d n)).selfPasses + 1) }) :=
  congrArg ok (if_neg (not_not.2 hrun))

theorem exec_measSelfCheck_fail (hrun : s.dieRuns d = true) : exec (.measSelfCheck d n false) s =
    .next (let c := chanNo d n
      if (s.chan c).selfFails = 0 then s.checkFailed c
      else if s.chState c = 9 then
        (if (s.chan c).selfFails = 1 then ((s.checkFailed c).diagBit c 10).chEvent c 9 0 else (s.checkFailed c).diagBit c 10)
      else if s.chState c = 7 ∧ (s.chan c).faultReg = 10 then s.checkFailed c
      else (((s.checkFailed c).faultTo c 10 7).chEvent c 9 0).latch c) :=
  congrArg ok (if_neg (not_not.2 hrun))

theorem exec_measSelfCheck_first (hrun : s.dieRuns d = true) (h : (s.chan (chanNo d n)).selfFails = 0) :
    exec (.measSelfCheck d n false) s = .next (s.checkFailed (chanNo d n)) :=
  (exec_measSelfCheck_fail hrun).trans (congrArg ok (if_pos h))

theorem exec_measSelfCheck_noFeed (hrun : s.dieRuns d = true) (h : (s.chan (chanNo d n)).selfFails ≠ 0) (hst : s.chState (chanNo d n) = 9) :
    exec (.measSelfCheck d n false) s = .next (if (s.chan (chanNo d n)).selfFails = 1 then
      ((s.checkFailed (chanNo d n)).diagBit (chanNo d n) 10).chEvent (chanNo d n) 9 0 else (s.checkFailed (chanNo d n)).diagBit (chanNo d n) 10) :=
  (exec_measSelfCheck_fail hrun).trans (congrArg ok ((if_neg h).trans (if_pos hst)))

theorem exec_measSelfCheck_latch (hrun : s.dieRuns d = true) (h : (s.chan (chanNo d n)).selfFails ≠ 0) (h9 : s.chState (chanNo d n) ≠ 9)
    (h7 : s.chState (chanNo d n) ≠ 7) : exec (.measSelfCheck d n false) s =
      .next ((((s.checkFailed (chanNo d n)).faultTo (chanNo d n) 10 7).chEvent (chanNo d n) 9 0).latch (chanNo d n)) :=
  (exec_measSelfCheck_fail hrun).trans (congrArg ok ((if_neg h).trans ((if_neg h9).trans (if_neg fun k => h7 k.1))))

/-- Settles O21: each event of a channel is a change of its state or a protective turn-off, whose frames are those of `AtChan`. -/
theorem channelTransitions : Obligations.ChannelTransitions := by
  unfold Obligations.ChannelTransitions
  refine ⟨?_, ?_, ?_, ?_, ?_, ?_, ?_, ?_, ?_⟩
  · rintro s d n c hrun rfl hst
    refine ⟨_, exec_turnOnComplete hrun hst, s.chState_goto _ (by decide), ?_, (((AtChan.refl _ _ _ s).goto (by decide) 2).setChan _).frame⟩
    rw [State.chan_setChan_self]
  · rintro s d n c hrun rfl hst
    refine ⟨_, exec_limitEntry hrun hst, ?_, ?_, (((AtChan.refl _ _ _ s).goto (by decide) 4).cn (by decide)).frame⟩
    · rw [State.chState_cn _ _ _ (by decide), State.chState_goto _ _ (by decide)]
    · rw [State.cq_cn_self, State.cq_goto_fld _ _ _ _ (by decide)]
  · rintro s d n c hrun rfl hst
    refine ⟨_, exec_limitExit hrun hst, State.chState_goto _ _ ?_, ((AtChan.refl _ _ _ s).goto (by decide) _).frame⟩
    split
    · decide
    · split <;> decide
  · rintro s d n c hrun rfl hst
    have hat := (((AtChan.refl (chanNo d n) (noticeFields s (chanNo d n))
      [F.CH_STATE_STATE, F.DMP_CH_STATUS_SHED, F.CH_DIAG, F.CH_TSD_COUNT, F.CH_EVT_SUPPRESS_COUNT] s).faultTo (by decide) 5 5).cn
      (f := F.CH_TSD_COUNT) (by decide)).chEvent (by decide) (by decide) 1 0
    have hchan : (((s.faultTo (chanNo d n) 5 5).cn (chanNo d n) F.CH_TSD_COUNT).chEvent (chanNo d n) 1 0).chState (chanNo d n) = 5 := by
      rw [State.chState_chEvent, State.chState_cn _ _ _ (by decide), State.chState_faultTo _ _ _ (by decide)]
    refine ⟨_, exec_tsdEntry hrun hst, hchan, ?_, ?_, ?_, ?_, hat.noticed⟩
    · rw [State.chFault_of_off hchan.ge, State.chan_chEvent, State.chan_cn, State.chan_faultTo]
      rfl
    · rw [State.cq_chEvent _ _ _ _ _ (by decide), State.cq_cn_self, State.cq_faultTo_fld _ _ _ _ _ (by decide)]
    · rw [State.cq_chEvent _ _ _ _ _ (by decide), State.cq_cn_fld _ _ _ (by decide)]
      exact s.diag_faultTo _ _ (by decide)
    · rw [State.chan_chEvent, State.chan_cn, State.chan_faultTo]
      rfl
  · rintro s d n c hrun rfl hst hcmd
    refine ⟨_, exec_tsdExit hrun hst, ?_⟩
    rw [State.faultHandle_off hcmd]
    exact ⟨s.chState_goto _ (by decide), ((AtChan.refl _ _ _ s).goto (by decide) 0).frame⟩
  · rintro s d n c hrun rfl
    refine ⟨_, exec_measSelfCheck_pass hrun, ?_, ?_, rfl, ((AtChan.refl _ _ [] s).setChan _).frame⟩ <;> rw [State.chan_setChan_self]
  · rintro s d n c hrun rfl hfirst
    refine ⟨_, exec_measSelfCheck_first hrun hfirst, ?_, ?_, rfl, ((AtChan.refl _ _ [] s).setChan _).frame⟩
    · rw [State.checkFailed, State.chan_setChan_self, hfirst]
      rfl
    · rw [State.checkFailed, State.chan_setChan_self]
  · rintro s d n c hrun rfl hfails hst
    have hat := ((AtChan.refl (chanNo d n) (noticeFields s (chanNo d n)) [F.CH_DIAG, F.CH_EVT_SUPPRESS_COUNT] s).setChan
      { s.chan (chanNo d n) with selfFails := min 2 ((s.chan (chanNo d n)).selfFails + 1), selfPasses := 0 }).diagBit (by decide) 10
    have hdiag : ((s.checkFailed (chanNo d n)).diagBit (chanNo d n) 10).chState (chanNo d n) = 9 := by
      rw [State.chState_diagBit]
      exact hst
    refine ⟨_, exec_measSelfCheck_noFeed hrun (Nat.one_le_iff_ne_zero.1 hfails) hst, ?_⟩
    split
    · refine ⟨?_, ?_, (hat.chEvent (by decide) (by decide) 9 0).noticed⟩
      · rw [State.chState_chEvent, hdiag]
      · rw [State.cq_chEvent _ _ _ _ _ (by decide)]
        exact State.diag_diagBit _ _ (by decide)
    · exact ⟨hdiag, State.diag_diagBit _ _ (by decide), hat.noticed⟩
  · rintro s d n c hrun rfl hfails h9 h7
    have hat := (((((AtChan.refl (chanNo d n) (noticeFields s (chanNo d n)) offFlds s).setChan
      { s.chan (chanNo d n) with selfFails := min 2 ((s.chan (chanNo d n)).selfFails + 1), selfPasses := 0 }).faultTo (by decide) 10 7).chEvent
      (by decide) (by decide) 9 0).latch (by decide) (by decide))
    refine ⟨_, exec_measSelfCheck_latch hrun (Nat.one_le_iff_ne_zero.1 hfails) h9 h7, State.chState_latch _ _, ?_, ?_, ?_, hat.noticed⟩
    · rw [State.chFault_latch, State.chan_chEvent, State.chan_faultTo]
      rfl
    · rw [State.cq_latch_fld _ _ _ (by decide), State.cq_chEvent _ _ _ _ _ (by decide)]
      exact State.diag_faultTo _ _ _ (by decide)
    · rw [State.latchCount_latch, State.cq_chEvent _ _ _ _ _ (by decide), State.cq_faultTo_fld _ _ _ _ _ (by decide)]
      rfl

end Sys2Proof.Machine
end

section
/-! Autonomous turn-ons: what the ceilings judge of one, and the static turn-on that begins when nothing refuses it (R162, R174, R182, R196,
R206, R207). -/
namespace Sys2Proof.Machine
open Sys2Proof

variable {s t u : State} {c : Nat} {n : List Spot} {l : List Fld}

/-! ## What the ceilings look at (R206) -/

/-- `t` shows the ceilings and the slews of channel `c` what `s` shows them. -/
structure SameCeilings (c : Nat) (s t : State) : Prop where
  now : t.now = s.now
  record : (t.chan c).record = (s.chan c).record
  turnOns : (t.chan c).turnOns = (s.chan c).turnOns
  committed : (t.die (c / 16)).committed = (s.die (c / 16)).committed
  cq : ∀ g ∈ [F.HRN_STATUS_BAD, F.WIRE_STATUS_COOLING, F.CH_CFG0_SLEW_DEF, F.CH_CFG0_PWM_SLEW], t.cq c g = s.cq c g

theorem SameCeilings.hrn (h : (t.chan c).record = (s.chan c).record) (k : Nat) : t.hrn c k = s.hrn c k := by
  rw [State.hrn, State.hrn, State.record, State.record, h]

theorem SameCeilings.ceiling (h : SameCeilings c s t) (a : Ask) : t.ceiling c a = s.ceiling c a := by
  obtain ⟨hnow, hrecord, hons, hcommitted, hcq⟩ := h
  have hhrn := SameCeilings.hrn hrecord
  have hons' : t.recentOns c = s.recentOns c := by rw [State.recentOns, State.recentOns, hnow, hons]
  have hservice : t.dieService (c / 16) = s.dieService (c / 16) := by rw [State.dieService, State.dieService, hcommitted]
  simp only [State.ceiling, State.isSafety, hhrn, hons', hservice, hrecord, hcq F.HRN_STATUS_BAD (by simp),
    hcq F.WIRE_STATUS_COOLING (by simp)]

theorem State.boundSlew_eq (h : (t.chan c).record = (s.chan c).record) (v : Nat) : t.boundSlew c v = s.boundSlew c v := by
  rw [State.boundSlew, State.boundSlew, SameCeilings.hrn h]

theorem State.slewDef_eq (h : (t.chan c).record = (s.chan c).record) (hcq : t.cq c F.CH_CFG0_SLEW_DEF = s.cq c F.CH_CFG0_SLEW_DEF) :
    t.slewDef c = s.slewDef c := by
  rw [State.slewDef, State.slewDef, hcq, State.boundSlew_eq h]

theorem State.slewPwm_eq (h : (t.chan c).record = (s.chan c).record) (hcq : t.cq c F.CH_CFG0_PWM_SLEW = s.cq c F.CH_CFG0_PWM_SLEW) :
    t.slewPwm c = s.slewPwm c := by
  rw [State.slewPwm, State.slewPwm, hcq, State.boundSlew_eq h]

/-! ## Admission (R217) -/

/-- Only the die of the channel changes, and of it only what makes the next exchange look for sheds. -/
theorem State.admitted_eq (s : State) (c : Nat) :
    s.admitted c = s ∨ s.admitted c = s.setDie (c / 16) { s.die (c / 16) with p0New := true } := (ite_eq_or_eq _ _ _).symm

theorem State.admitted_rest (s : State) (c : Nat) : (s.admitted c).now = s.now ∧ (s.admitted c).chans = s.chans ∧
    (s.admitted c).regs = s.regs ∧ (s.admitted c).mem = s.mem ∧ (∀ x, (s.admitted c).side x = s.side x) ∧
    ∀ d, (s.admitted c).die d = { s.die d with p0New := ((s.admitted c).die d).p0New } := by
  obtain h | h := s.admitted_eq c <;> rw [h]
  · exact ⟨rfl, rfl, rfl, rfl, fun _ => rfl, fun _ => rfl⟩
  · refine ⟨rfl, rfl, rfl, rfl, fun x => State.side_setDie _ _ _ x, fun d => ?_⟩
    by_cases hd : d = c / 16
    · rw [hd, State.die_setDie_self]
    · rw [State.die_setDie, if_neg hd]

theorem State.cq_admitted (s : State) (c b : Nat) (g : Fld) : (s.admitted c).cq b g = s.cq b g := by
  obtain ⟨-, -, hregs, -⟩ := s.admitted_rest c
  rw [State.cq, State.get, hregs]
  rfl

@[simp] theorem State.chan_admitted (s : State) (c b : Nat) : (s.admitted c).chan b = s.chan b := by
  obtain ⟨-, hchans, -⟩ := s.admitted_rest c
  rw [State.chan, hchans]
  rfl

@[simp] theorem State.now_admitted (s : State) (c : Nat) : (s.admitted c).now = s.now := (s.admitted_rest c).1

theorem AtChan.admitted (h : AtChan c n l s t) (b : Nat) : AtChan c n l s (t.admitted b) := by
  obtain ⟨-, hchans, hregs, hmem, -⟩ := t.admitted_rest b
  exact h.same hchans hregs hmem

/-! ## A turn-on begins (R162, R198, R207, R231) -/

/-- A turn-on of channel `c` is counted and commanded, in mode `mode`. -/
def State.commanded (s : State) (c mode : Nat) : State := ((s.begun c).cw c F.CH_STATE_MODE mode).cw c F.CH_STATE_CMD_ON 1

/-- The channel's own part of it. -/
def Chan.counted (v : Chan) (now : Nat) : Chan := { v with turnOns := (now :: v.turnOns).take 1022 }

/-- Register fields that a turn-on writes as it begins. -/
def beginFlds : List Fld := [F.CH_STATE_CMD_ON, F.CH_STATE_STATE, F.CH_STATE_MODE, F.DMP_CH_STATUS_SHED, F.WIRE_STATUS_TRIPPED, F.CH_TURN_ON_COUNT]

theorem State.chan_commanded (s : State) (c mode : Nat) : (s.commanded c mode).chan c = (s.chan c).counted s.now := by
  rw [State.commanded, State.chan_cw, State.chan_cw, State.begun, State.chan_cw, State.chan_cn, State.chan_setChan_self, Chan.counted]

@[simp] theorem State.now_commanded (s : State) (c mode : Nat) : (s.commanded c mode).now = s.now := by
  rw [State.commanded, State.now_cw, State.now_cw, State.begun, State.now_cw, State.now_cn, State.now_setChan]

theorem State.cq_commanded_fld (s : State) (c mode b : Nat) {g : Fld}
    (hg : ∀ f ∈ [F.CH_STATE_CMD_ON, F.CH_STATE_MODE, F.WIRE_STATUS_TRIPPED, F.CH_TURN_ON_COUNT], g.reg ≠ f.reg ∨ g.lo ≠ f.lo) :
    (s.commanded c mode).cq b g = s.cq b g := by
  rw [State.commanded, State.cq_cw_fld _ _ _ _ (hg _ (by decide)), State.cq_cw_fld _ _ _ _ (hg _ (by decide)), State.begun,
    State.cq_cw_fld _ _ _ _ (hg _ (by decide)), State.cq_cn_fld _ _ _ (hg _ (by decide)), State.cq_setChan]

theorem State.turnOnCount_commanded (s : State) (c mode : Nat) :
    (s.commanded c mode).cq c F.CH_TURN_ON_COUNT = (s.cq c F.CH_TURN_ON_COUNT + 1) % 2 ^ F.CH_TURN_ON_COUNT.width := by
  rw [State.commanded, State.cq_cw_fld _ _ _ _ (by decide), State.cq_cw_fld _ _ _ _ (by decide), State.begun,
    State.cq_cw_fld _ _ _ _ (by decide), State.cq_cn_self, State.cq_setChan]

theorem State.cmdOn_commanded (s : State) (c mode : Nat) : (s.commanded c mode).cq c F.CH_STATE_CMD_ON = 1 := State.cq_cw_self _ _ _ _

theorem State.mode_commanded (s : State) (c mode : Nat) : (s.commanded c mode).cq c F.CH_STATE_MODE = mode % 2 := by
  rw [State.commanded, State.cq_cw_fld _ _ _ _ (by decide)]
  exact State.cq_cw_self _ _ _ _

theorem AtChan.commanded (h : AtChan c n l s t) (hl : ∀ f ∈ beginFlds, f ∈ l) (mode : Nat) : AtChan c n l s (t.commanded c mode) :=
  ((((h.setChan _).cn (hl _ (by decide))).cw (hl _ (by decide)) 0).cw (hl _ (by decide)) mode).cw (hl _ (by decide)) 1

theorem State.slewOf_commanded (s : State) (c mode st : Nat) (t : TurnOn) : ((s.commanded c mode).goto c st).slewOf c t = s.slewOf c t := by
  rw [State.slewOf, State.slewOf, State.slewDef_eq (s := s)]
  · rw [State.chan_goto, State.chan_commanded]
    rfl
  · rw [State.cq_goto_fld _ _ _ _ (by decide), State.cq_commanded_fld _ _ _ _ (by decide)]

theorem State.startStatic_eq (s : State) (c st : Nat) (t : TurnOn) : s.startStatic c t st = ((s.commanded c 0).goto c st).setChan c
    { ((s.chan c).counted s.now).entered (s.chState c) st s.now with
      slew := s.slewOf c t, onAt := s.now, complete := st == 2, pwmWait := false, pwmOn := false, pwmOff := none } := by
  have hstate : (s.commanded c 0).chState c = s.chState c := s.cq_commanded_fld c 0 c (by decide)
  rw [← s.chan_commanded c 0, ← hstate, ← s.now_commanded c 0, ← State.chan_goto, ← s.slewOf_commanded c 0 st t]
  have hnow : ((s.commanded c 0).goto c st).now = (s.commanded c 0).now := State.now_goto _ c st
  rw [← hnow]
  rfl

theorem State.startPwm_eq (s : State) (c : Nat) : s.startPwm c = ((s.commanded c 1).goto c 3).setChan c
    { ((s.chan c).counted s.now).entered (s.chState c) 3 s.now with
      complete := true, pwmWait := false, pwmOn := false, pwmOff := none, pwmEnd := s.now } := by
  have hstate : (s.commanded c 1).chState c = s.chState c := s.cq_commanded_fld c 1 c (by decide)
  rw [← s.chan_commanded c 1, ← hstate, ← s.now_commanded c 1, ← State.chan_goto]
  have hnow : ((s.commanded c 1).goto c 3).now = (s.commanded c 1).now := State.now_goto _ c 3
  rw [← hnow]
  rfl

/-- What a static turn-on leaves of the channel's registers and writes there. -/
theorem State.cq_startStatic (s : State) (c st : Nat) (t : TurnOn) {g : Fld} (hg : ∀ f ∈ gotoFlds, g.reg ≠ f.reg ∨ g.lo ≠ f.lo) :
    (s.startStatic c t st).cq c g = (s.commanded c 0).cq c g := by
  rw [State.startStatic_eq, State.cq_setChan, State.cq_goto_fld _ _ _ _ hg]

theorem State.chState_startStatic (s : State) (c : Nat) {st : Nat} (t : TurnOn) (h : st < 16) : (s.startStatic c t st).chState c = st := by
  rw [State.startStatic_eq, State.chState, State.cq_setChan]
  exact State.chState_goto _ c h

theorem State.chan_startStatic (s : State) (c st : Nat) (t : TurnOn) : (s.startStatic c t st).chan c =
    { ((s.chan c).counted s.now).entered (s.chState c) st s.now with
      slew := s.slewOf c t, onAt := s.now, complete := st == 2, pwmWait := false, pwmOn := false, pwmOff := none } := by
  rw [State.startStatic_eq, State.chan_setChan_self]

theorem AtChan.startStatic (h : AtChan c n l s t) (hl : ∀ f ∈ beginFlds, f ∈ l) (on : TurnOn) (st : Nat) :
    AtChan c n l s (t.startStatic c on st) := by
  rw [State.startStatic_eq]
  exact ((h.commanded hl 0).goto (fun f hf => hl f ((by decide : ∀ f ∈ gotoFlds, f ∈ beginFlds) f hf)) st).setChan _

theorem AtChan.startPwm (h : AtChan c n l s t) (hl : ∀ f ∈ beginFlds, f ∈ l) : AtChan c n l s (t.startPwm c) := by
  rw [State.startPwm_eq]
  exact ((h.commanded hl 1).goto (fun f hf => hl f ((by decide : ∀ f ∈ gotoFlds, f ∈ beginFlds) f hf)) 3).setChan _

/-! ## An autonomous turn-on (R164, R174, R182, R196) -/

/-- The slew of a static autonomous turn-on: a retry repeats that of the turn-on before, a feed-return turn-on has none of its own (R167). -/
def State.autoSlew (s : State) (c : Nat) (cause : OnCause) : Nat := if cause = .feedReturn then 0 else (s.chan c).slew

/-- A static one that the Damper admits begins behind its event, while the channel is commanded on. -/
theorem State.autoEnd_starts {cause : OnCause} {on : TurnOn} {detail : Nat} (hpwm : on.pwm = false)
    (hst : s.chState c = 6 ∨ s.chState c = 0) (hcmd : s.cq c F.CH_STATE_CMD_ON = 1) : s.autoEnd c cause on stOk detail =
      ((s.chEvent c 0xA (stOk + detail % 4096 * 2 ^ 8 + b2n (cause == .feedReturn) * 2 ^ 20)).admitted c).startStatic c on 1 := by
  unfold State.autoEnd
  dsimp only
  rw [if_pos rfl, State.chState_chEvent, State.cq_chEvent _ _ _ _ _ (by decide), if_pos ⟨hst, hcmd⟩, hpwm]
  rfl

/-- One of priority P0 that fails no ceiling begins at once, behind its event. -/
theorem State.autoOn_starts {cause : OnCause} (hprio : s.prio c = 0) (hmode : s.cq c F.CH_STATE_MODE = 0)
    (hcmd : s.cq c F.CH_STATE_CMD_ON = 1) (hst : s.chState c = 6 ∨ s.chState c = 0)
    (hceiling : s.ceiling c ⟨true, false, s.cq c F.CH_PWM_DUTY_DUTY, s.cq c F.CH_PWM_FREQ_FREQ, s.autoSlew c cause, true, false⟩ = none) :
    ∃ w on, on.slew = s.autoSlew c cause ∧ s.autoOn c cause = ((s.chEvent c 0xA w).admitted c).startStatic c on 1 := by
  have hjudge : s.judge c = .allow := if_pos hprio
  have hslew : (if s.cq c F.CH_STATE_MODE = 1 ∨ cause = .feedReturn then 0 else (s.chan c).slew) = s.autoSlew c cause := by
    rw [State.autoSlew]
    exact if_congr (by simp [hmode]) rfl rfl
  have hpwm : (s.cq c F.CH_STATE_MODE == 1) = false := by simp [hmode]
  refine ⟨_, ⟨false, s.autoSlew c cause, s.cq c F.CH_PWM_DUTY_DUTY, s.cq c F.CH_PWM_FREQ_FREQ, s.cq c F.CH_PWM_FREQ_COMP,
    s.cq c F.CH_PWM_FREQ_PHASE⟩, rfl, Eq.trans ?_ (State.autoEnd_starts (cause := cause) (detail := 0) rfl hst hcmd)⟩
  unfold State.autoOn
  dsimp only [TurnOn.ask]
  rw [hslew, hpwm, hceiling]
  dsimp only
  rw [hjudge]

end Sys2Proof.Machine
end

section
/-! Fault handling and the retries of a channel, as its events bring them about (R162, R168, R173 to R175, R185). -/
namespace Sys2Proof.Machine
open Sys2Proof

variable {s : State} {d : Fin 4} {n : Fin 16}

theorem exec_inrushTimeout (hrun : s.dieRuns d = true) (h : s.chState (chanNo d n) = 1) : exec (.inrushTimeout d n) s =
    .next ((s.due ((s.chan (chanNo d n)).onAt + max 1 (s.cq (chanNo d n) F.CH_CFG1_INRUSH_MAX) * 1000000)).faultOff (chanNo d n) 7 5
      (s.cq (chanNo d n) F.MEAS_V)) :=
  congrArg ok (if_pos ⟨hrun, .inl h⟩)

theorem exec_reverseCurrent (hrun : s.dieRuns d = true) (h : driven (s.chState (chanNo d n)) = true) :
    exec (.reverseCurrent d n) s = .next (s.faultOff (chanNo d n) 6 6 0) :=
  congrArg ok (if_pos ⟨hrun, h⟩)

/-- The attempt of a channel in RETRY_WAIT, at its instant. -/
def State.retried (s : State) (c : Nat) : State :=
  ((s.due (s.chan c).retryAt).setChan c { s.chan c with retries := min 65535 ((s.chan c).retries + 1) }).cn c F.CH_RETRY_COUNT

theorem AtChan.retried (c : Nat) {m : List Spot} {l : List Fld} (hl : F.CH_RETRY_COUNT ∈ l) : AtChan c m l s (s.retried c) :=
  (((AtChan.refl c m l s).due _).setChan _).cn hl

theorem exec_retryAttempt_latch (hrun : s.dieRuns d = true) (h : s.chState (chanNo d n) = 6) (hhold : (s.chan (chanNo d n)).hold = none)
    (hcmd : s.cq (chanNo d n) F.CH_STATE_CMD_ON = 1) (hlimit : s.attemptLimit (chanNo d n) ≤ (s.chan (chanNo d n)).retries) :
    exec (.retryAttempt d n) s = .next ((s.due (s.chan (chanNo d n)).retryAt).latch (chanNo d n)) :=
  congrArg ok ((if_pos ⟨hrun, h, hhold, hcmd⟩).trans (if_pos hlimit))

theorem exec_retryAttempt (hrun : s.dieRuns d = true) (h : s.chState (chanNo d n) = 6) (hhold : (s.chan (chanNo d n)).hold = none)
    (hcmd : s.cq (chanNo d n) F.CH_STATE_CMD_ON = 1) (hlimit : (s.chan (chanNo d n)).retries < s.attemptLimit (chanNo d n)) :
    ∃ w, exec (.retryAttempt d n) s = .next (((s.retried (chanNo d n)).chEvent (chanNo d n) 2 w).autoOn (chanNo d n) .retry) :=
  ⟨_, congrArg ok ((if_pos ⟨hrun, h, hhold, hcmd⟩).trans (if_neg (Nat.not_le.2 hlimit)))⟩

theorem exec_retriesClear {e : Nat} (hrun : s.dieRuns d = true) (h : (s.chan (chanNo d n)).okSince = some e) : exec (.retriesClear d n) s =
    .next ((s.due (e + 1000000000)).setChan (chanNo d n) { s.chan (chanNo d n) with retries := 0 }) := by
  have hexec : exec (.retriesClear d n) s = ok (match (s.chan (chanNo d n)).okSince with
    | some t => if s.dieRuns d then
        (s.due (t + 1000000000)).setChan (chanNo d n) { s.chan (chanNo d n) with retries := 0 } else s
    | none => s) := rfl
  rw [hexec, h]
  exact congrArg ok (if_pos hrun)

/-- The channel after its attempt and the event of it. -/
theorem State.chan_retried_chEvent (s : State) (c w : Nat) : ((s.retried c).chEvent c 2 w).chan c =
    { s.chan c with retries := min 65535 ((s.chan c).retries + 1), lastEvt := (s.retried c).evtTimes c 2 } := by
  rw [State.chan_chEvent, State.retried, State.chan_cn, State.chan_setChan_self]

theorem State.cq_retried_chEvent (s : State) (c w : Nat) {g : Fld} (hg : ∀ f ∈ [F.CH_RETRY_COUNT, F.CH_EVT_SUPPRESS_COUNT], g.reg ≠ f.reg) :
    ((s.retried c).chEvent c 2 w).cq c g = s.cq c g := by
  rw [State.cq_chEvent _ _ _ _ _ (hg _ (by decide)), State.retried, State.cq_cn_fld _ _ _ (.inl (hg _ (by decide)))]
  rfl

/-- The attempt changes nothing that the ceilings look at. -/
theorem State.retried_ceilings (s : State) (c w : Nat) : SameCeilings c (s.due (s.chan c).retryAt) ((s.retried c).chEvent c 2 w) := by
  refine ⟨State.now_chEvent _ _ _ _, ?_, ?_, ?_, fun g hg => s.cq_retried_chEvent c w ?_⟩
  · rw [s.chan_retried_chEvent]
    rfl
  · rw [s.chan_retried_chEvent]
    rfl
  · rw [State.die, State.dies_chEvent]
    rfl
  · revert g
    decide

/-- An attempt that nothing refuses: the static turn-on begins at the attempt's instant. -/
theorem exec_retryAttempt_starts {c : Nat} (hrun : s.dieRuns d = true) (hc : chanNo d n = c) (h : s.chState c = 6)
    (hhold : (s.chan c).hold = none) (hcmd : s.cq c F.CH_STATE_CMD_ON = 1) (hlimit : (s.chan c).retries < s.attemptLimit c)
    (hprio : s.prio c = 0) (hmode : s.cq c F.CH_STATE_MODE = 0)
    (hceiling : (s.due (s.chan c).retryAt).ceiling c
      ⟨true, false, s.cq c F.CH_PWM_DUTY_DUTY, s.cq c F.CH_PWM_FREQ_FREQ, (s.chan c).slew, true, false⟩ = none) :
    ∃ w v on, exec (.retryAttempt d n) s =
      .next (((((s.retried c).chEvent c 2 w).chEvent c 0xA v).admitted c).startStatic c on 1) := by
  subst hc
  obtain ⟨w, hexec⟩ := exec_retryAttempt hrun h hhold hcmd hlimit
  have hcq := fun (g : Fld) hg => s.cq_retried_chEvent (chanNo d n) w (g := g) hg
  obtain ⟨v, on, -, hstart⟩ := State.autoOn_starts (s := (s.retried (chanNo d n)).chEvent (chanNo d n) 2 w) (c := chanNo d n) (cause := .retry)
    ((hcq _ (by decide)).trans hprio) ((hcq _ (by decide)).trans hmode) ((hcq _ (by decide)).trans hcmd)
    (.inl ((hcq _ (by decide)).trans h)) (by
      rw [(s.retried_ceilings (chanNo d n) w).ceiling, hcq _ (by decide), hcq _ (by decide), State.autoSlew, s.chan_retried_chEvent]
      exact hceiling)
  exact ⟨w, v, on, by rw [hexec, hstart]⟩

/-- Settles O22: the faults run `State.faultOff`, the end of a thermal shutdown fault handling alone, and an attempt latches or begins a turn-on. -/
theorem faultHandling : Obligations.FaultHandling := by
  unfold Obligations.FaultHandling
  refine ⟨?_, ?_, ?_, ?_, ?_, ?_⟩
  · rintro s d n c hrun rfl hst
    exact ⟨_, exec_inrushTimeout hrun hst, State.chState_faultOff _ _ _ _ _, State.diag_faultOff _ _ _ _ (by decide),
      State.chFault_faultOff _ _ _ _ _, State.now_faultOff _ _ _ _ _, (((AtChan.refl _ _ _ s).due _).faultOff 7 5 _).noticed⟩
  · rintro s d n c hrun rfl hst
    exact ⟨_, exec_reverseCurrent hrun hst, State.chState_faultOff _ _ _ _ _, State.diag_faultOff _ _ _ _ (by decide),
      State.chFault_faultOff _ _ _ _ _, State.now_faultOff _ _ _ _ _, ((AtChan.refl _ _ _ s).faultOff 6 6 0).noticed⟩
  · rintro s d n c hrun rfl hst hcmd
    refine ⟨_, exec_tsdExit hrun hst, s.chState_faultHandle _, ?_, ((AtChan.refl _ _ offFlds s).faultHandle (by decide) (by decide)).noticed⟩
    exact State.chFault_faultHandle_off (State.handledTo_ne_zero (by rw [hcmd]; decide))
  · rintro s d n c hrun rfl hst hhold hcmd hlimit
    refine ⟨_, exec_retryAttempt_latch hrun hst hhold hcmd hlimit, State.chState_latch _ _, State.now_latch _ _, State.latchCount_latch _ _,
      (((AtChan.refl _ _ offFlds s).due _).latch (by decide) (by decide)).noticed⟩
  · intro s d n c hrun hc hst hhold hcmd hlimit hprio hmode hceiling
    obtain ⟨w, v, on, hexec⟩ := exec_retryAttempt_starts hrun hc hst hhold hcmd hlimit hprio hmode hceiling
    have hretried : AtChan c (noticeFields s c) (F.CH_RETRY_COUNT :: F.CH_EVT_SUPPRESS_COUNT :: beginFlds) s (s.retried c) :=
      AtChan.retried c (by decide)
    have hat := (((hretried.chEvent (by decide) (by decide) 2 w).chEvent (by decide) (by decide) 0xA v).admitted c).startStatic (by decide) on 1
    refine ⟨_, hexec, State.chState_startStatic _ _ _ (by decide), ?_, ?_, ?_, hat.chans, hat.memSame⟩
    · rw [State.chan_startStatic, State.chan_admitted, State.chan_chEvent, State.chan_retried_chEvent]
      rfl
    · rw [State.cq_startStatic _ _ _ _ (by decide), State.cq_commanded_fld _ _ _ _ (by decide), State.cq_admitted,
        State.cq_chEvent _ _ _ _ _ (by decide), State.cq_chEvent _ _ _ _ _ (by decide), State.retried, State.cq_cn_self]
      rfl
    · rw [State.chan_startStatic]
      dsimp only
      rw [State.now_admitted, State.now_chEvent, State.now_chEvent]
      rfl
  · rintro s d n c e hrun rfl hok
    refine ⟨_, exec_retriesClear hrun hok, rfl, ?_, (((AtChan.refl _ _ [] s).due _).setChan _).frame⟩
    rw [State.chan_setChan_self]

end Sys2Proof.Machine
end

section
/-! The feed bus of a die: its loss and return at each of its channels, and the turn-ons that follow the return (R164, R182, R184). -/
namespace Sys2Proof.Machine
open Sys2Proof

variable {s t u : State} {c : Nat} {n : List Spot} {l : List Fld}

/-! ## A loop over channels, each turn of which touches its own -/

section Loop

variable {α : Type} {view : State → Nat → α} {f : State → Nat → State} {g : α → α} {cs : List Nat}

/-- A channel that the loop does not come to. -/
theorem State.each_view_off (hother : ∀ s c b, b ≠ c → view (f s c) b = view s b) (hc : c ∉ cs) (s : State) :
    view (s.each cs f) c = view s c := by
  induction cs generalizing s with
  | nil => rfl
  | cons a l ih =>
    rw [List.mem_cons, not_or] at hc
    exact (ih hc.2 (f s a)).trans (hother s a c hc.1)

/-- A channel that the loop comes to once. -/
theorem State.each_view_on (hown : ∀ s c, view (f s c) c = g (view s c)) (hother : ∀ s c b, b ≠ c → view (f s c) b = view s b)
    (hnodup : cs.Nodup) (hc : c ∈ cs) (s : State) : view (s.each cs f) c = g (view s c) := by
  induction cs generalizing s with
  | nil => cases hc
  | cons a l ih =>
    obtain ⟨ha, hl⟩ := List.nodup_cons.1 hnodup
    rcases List.mem_cons.1 hc with rfl | hc
    · exact (State.each_view_off hother ha (f s c)).trans (hown s c)
    · exact (ih hl hc (f s a)).trans (congrArg g (hother s a c fun e => ha (e ▸ hc)))

end Loop

theorem chansOf_nodup (d : Nat) : (chansOf d).Nodup := List.Nodup.map (fun _ _ h => Nat.add_left_cancel h) List.nodup_range

theorem mem_chansOf {d : Nat} : c ∈ chansOf d ↔ c / 16 = d := by
  simp only [chansOf, List.mem_map, List.mem_range]
  exact ⟨fun ⟨k, hk, h⟩ => by omega, fun h => ⟨c % 16, Nat.mod_lt _ (by decide), by omega⟩⟩

/-- Register fields of another channel. -/
theorem AtChan.cq_ne (h : AtChan c (noticeFields s c) l s t) {b : Nat} {g : Fld} (hb : b ≠ c) (hg : g.reg ∉ eventRegs) : t.cq b g = s.cq b g := by
  refine h.only.get fun p hp e => ?_
  rcases List.mem_append.1 hp with hp | hp
  · have hreg : g.reg = p.2.1.reg := congrArg FKey.reg e
    exact hg (hreg ▸ noticeFields_reg hp)
  · obtain ⟨f, -, rfl⟩ := List.mem_map.1 hp
    simp only [Fld.key, FKey.mk.injEq, Holder.code] at e
    omega

/-- Register fields that neither the channel's frame nor its events name. -/
theorem AtChan.get_reg (h : AtChan c (noticeFields s c) l s t) {g : Fld} (hg : g.reg ∉ eventRegs) (hl : ∀ f ∈ l, g.reg ≠ f.reg) (k : Holder)
    (i : Nat) : t.get k g i = s.get k g i := by
  refine h.only.get_fld fun p hp => .inl fun e => ?_
  rcases List.mem_append.1 hp with hp | hp
  · exact hg (e ▸ noticeFields_reg hp)
  · obtain ⟨f, hf, rfl⟩ := List.mem_map.1 hp
    exact hl f hf e

/-! ## The feed is lost (R182) -/

/-- Register fields that a channel's way into or out of NOFEED writes. -/
def feedFlds : List Fld := [F.CH_STATE_STATE, F.DMP_CH_STATUS_SHED, F.CH_DIAG, F.CH_EVT_SUPPRESS_COUNT]

theorem State.noFeed_stays (r : Bool) (h : s.chState c = 7 ∨ s.chState c = 8 ∨ s.chState c = 9) : s.noFeed c r = s := if_pos h

theorem State.noFeed_goes (r : Bool) (h : ¬ (s.chState c = 7 ∨ s.chState c = 8 ∨ s.chState c = 9)) : s.noFeed c r =
    ((s.faultTo c 9 9).setChan c { (s.chan c).faulted (s.chState c) 9 s.now 9 with gatePending := false }).chEvent c 7 (b2n r) := by
  rw [← s.chan_faultTo c 9 9]
  exact if_neg h

theorem State.noFeed_at (s : State) (c : Nat) (r : Bool) : AtChan c (noticeFields s c) feedFlds s (s.noFeed c r) := by
  by_cases h : s.chState c = 7 ∨ s.chState c = 8 ∨ s.chState c = 9
  · rw [State.noFeed_stays r h]
    exact AtChan.refl _ _ _ s
  · rw [State.noFeed_goes r h]
    exact (((AtChan.refl _ _ _ s).faultTo (by decide) 9 9).setChan _).chEvent (by decide) (by decide) 7 _

/-- The state into which a channel goes as its feed is lost. -/
def lostTo (st : Nat) : Nat := if st = 7 ∨ st = 8 then st else 9

theorem State.chState_noFeed (s : State) (c : Nat) (r : Bool) : (s.noFeed c r).chState c = lostTo (s.chState c) := by
  by_cases h : s.chState c = 7 ∨ s.chState c = 8 ∨ s.chState c = 9
  · rw [State.noFeed_stays r h, lostTo]
    split <;> omega
  · rw [State.noFeed_goes r h, State.chState_chEvent, lostTo, if_neg (by omega), State.chState, State.cq_setChan]
    exact s.chState_faultTo c 9 (by decide)

theorem State.retries_noFeed (s : State) (c : Nat) (r : Bool) : ((s.noFeed c r).chan c).retries = (s.chan c).retries := by
  by_cases h : s.chState c = 7 ∨ s.chState c = 8 ∨ s.chState c = 9
  · rw [State.noFeed_stays r h]
  · rw [State.noFeed_goes r h, State.chan_chEvent, State.chan_setChan_self]
    rfl

/-! ## The feed is back (R182) -/

/-- A channel leaves NOFEED for OFF, and waits for its turn-on if it is commanded on. -/
def State.feedBack (s : State) (c : Nat) : State :=
  ((s.goto c 0).setChan c { (s.goto c 0).chan c with gatePending := (s.goto c 0).cq c F.CH_STATE_CMD_ON == 1 }).chEvent c 8 0

theorem State.feedBack_at (s : State) (c : Nat) : AtChan c (noticeFields s c) feedFlds s (s.feedBack c) :=
  (((AtChan.refl _ _ _ s).goto (by decide) 0).setChan _).chEvent (by decide) (by decide) 8 0

/-- Each channel in NOFEED. -/
def State.feedBackIf (s : State) (c : Nat) : State := if s.chState c = 9 then s.feedBack c else s

theorem State.feedBackIf_at (s : State) (c : Nat) : AtChan c (noticeFields s c) feedFlds s (s.feedBackIf c) := by
  unfold State.feedBackIf
  split
  · exact s.feedBack_at c
  · exact AtChan.refl _ _ _ s

/-- What a channel shows of its wait for the feed: its state, whether it is commanded on, and whether its turn-on is due. -/
def State.feedView (s : State) (c : Nat) : Nat × Nat × Bool := (s.chState c, s.cq c F.CH_STATE_CMD_ON, (s.chan c).gatePending)

/-- That view once the feed is back. -/
def backTo (v : Nat × Nat × Bool) : Nat × Nat × Bool := if v.1 = 9 then (0, v.2.1, v.2.1 == 1) else v

theorem State.feedView_feedBackIf (s : State) (c : Nat) : (s.feedBackIf c).feedView c = backTo (s.feedView c) := by
  by_cases h : s.chState c = 9
  · have hcmd : (s.feedBack c).cq c F.CH_STATE_CMD_ON = s.cq c F.CH_STATE_CMD_ON :=
      (State.cq_chEvent _ _ _ _ _ (by decide)).trans (s.cq_cmdOn_goto_off c)
    have hstate : (s.feedBack c).chState c = 0 := (State.chState_chEvent _ _ _ _ _).trans (s.chState_goto_off c)
    have hgate : ((s.feedBack c).chan c).gatePending = (s.cq c F.CH_STATE_CMD_ON == 1) := by
      rw [State.feedBack, State.chan_chEvent, State.chan_setChan_self, s.cq_cmdOn_goto_off]
    rw [State.feedBackIf, if_pos h, backTo, State.feedView, State.feedView, if_pos h, hcmd, hstate, hgate]
  · rw [State.feedBackIf, if_neg h, backTo, State.feedView, if_neg h]

theorem State.feedView_feedBackIf_ne (s : State) {c b : Nat} (h : b ≠ c) : (s.feedBackIf c).feedView b = s.feedView b := by
  have hat := s.feedBackIf_at c
  rw [State.feedView, State.feedView, State.chState, hat.cq_ne h (by decide), hat.cq_ne h (by decide), hat.chans b (by simpa using h), State.chState]

/-! ## The events of the feed -/

variable {d : Fin 4}

/-- The die is told of its feed. -/
def State.feedTold (s : State) (d : Nat) (gone : Bool) : State := s.setDie d { s.die d with feedGone := gone }

theorem State.dieRuns_feedTold (s : State) (d : Nat) (gone : Bool) : (s.feedTold d gone).dieRuns d = s.dieRuns d := by
  rw [State.dieRuns, State.feedTold, State.die_setDie_self, State.present_setDie, State.dieRuns]

/-- The flags of a lost feed. -/
def State.feedFlags (s : State) (d : Nat) (r : Bool) : State :=
  if r then (s.set (.grate d) F.MEAS_STATUS_FEED_ABSENT 0 1).set (.grate d) F.MEAS_STATUS_FEED_REVERSED 0 1
  else s.set (.grate d) F.MEAS_STATUS_FEED_ABSENT 0 1

theorem exec_feedBusAbsent (r : Bool) (hrun : s.dieRuns d = true) : exec (.feedBusAbsent d r) s =
    .next (((s.feedTold d true).feedFlags d r).each (chansOf d) fun s c => s.noFeed c r) :=
  congrArg ok (if_pos ((s.dieRuns_feedTold d true).trans hrun))

theorem exec_feedBusReturn (hrun : s.dieRuns d = true) (h : s.is (.grate d) F.MEAS_STATUS_FEED_ABSENT 0 = true) : exec (.feedBusReturn d) s =
    .next (let r := ((s.feedTold d false).set (.grate d) F.MEAS_STATUS_FEED_ABSENT 0 0).set (.grate d) F.MEAS_STATUS_FEED_REVERSED 0 0
      (r.setDie d { r.die d with nextAuto := r.now }).each (chansOf d) State.feedBackIf) :=
  congrArg ok (if_pos ⟨(s.dieRuns_feedTold d false).trans hrun, h⟩)

theorem exec_feedOvervoltage (b : Bool) (hrun : s.dieRuns d = true) :
    exec (.feedOvervoltage d b) s = .next (s.set (.grate d) F.MEAS_STATUS_FEED_OV 0 (b2n b)) := congrArg ok (if_pos hrun)

/-- A die's flags and memory through a loop over channels in the frame of `feedFlds`. -/
theorem State.each_feed {f : State → Nat → State} (hf : ∀ s c, AtChan c (noticeFields s c) feedFlds s (f s c)) (s : State) (cs : List Nat) :
    (∀ g ∈ [F.MEAS_STATUS_FEED_ABSENT, F.MEAS_STATUS_FEED_REVERSED], ∀ k i, (s.each cs f).get k g i = s.get k g i) ∧
      (s.each cs f).mem = s.mem := by
  refine State.each_keeps (P := fun t => (∀ g ∈ [F.MEAS_STATUS_FEED_ABSENT, F.MEAS_STATUS_FEED_REVERSED], ∀ k i, t.get k g i = s.get k g i) ∧
    t.mem = s.mem) (fun t c ⟨hget, hmem⟩ => ⟨fun g hg k i => ?_, (hf t c).mem.trans hmem⟩) cs ⟨fun _ _ _ _ => rfl, rfl⟩
  have hreg : ∀ g ∈ [F.MEAS_STATUS_FEED_ABSENT, F.MEAS_STATUS_FEED_REVERSED], g.reg ∉ eventRegs ∧ ∀ f ∈ feedFlds, g.reg ≠ f.reg := by decide
  exact ((hf t c).get_reg (hreg g hg).1 (hreg g hg).2 k i).trans (hget g hg k i)

theorem MemSame.of_mem (h : t.mem = s.mem) : MemSame s t := fun x a => by simp only [State.byte, h]

end Sys2Proof.Machine
end

section
/-! Feed-return turn-ons and the periods of a PWM channel (R177 to R180, R182), and the obligation on the feed. -/
namespace Sys2Proof.Machine
open Sys2Proof

variable {s t u : State} {c : Nat} {d : Fin 4} {n : Fin 16}

/-! ## A feed-return turn-on (R182) -/

/-- A channel for which a feed-return turn-on is due. -/
def State.gateDue (s : State) (c : Nat) : Bool :=
  (s.chan c).gatePending && s.chState c == 0 && s.cq c F.CH_STATE_CMD_ON == 1 && (s.chan c).hold == none

theorem State.gateDue_iff : s.gateDue c = true ↔
    (s.chan c).gatePending = true ∧ s.chState c = 0 ∧ s.cq c F.CH_STATE_CMD_ON = 1 ∧ (s.chan c).hold = none := by
  simp [State.gateDue, and_assoc]

/-- The die's next feed-return turn-on is 100 us away, and channel `c`'s is no longer due. -/
def State.gateTaken (s : State) (d c : Nat) : State :=
  let r := s.due (s.die d).nextAuto
  let r := r.setDie d { r.die d with nextAuto := r.now + 100000 }
  r.setChan c { r.chan c with gatePending := false }

theorem exec_feedReturnTurnOn (hrun : s.dieRuns d = true) (h : (chansOf d).find? s.gateDue = some c) :
    exec (.feedReturnTurnOn d) s = .next ((s.gateTaken d c).autoOn c .feedReturn) := by
  have hexec : exec (.feedReturnTurnOn d) s = ok (if ¬ s.dieRuns d then s else match (chansOf d).find? s.gateDue with
    | none => s
    | some c => (s.gateTaken d c).autoOn c .feedReturn) := rfl
  rw [hexec, if_neg (not_not.2 hrun), h]
  rfl

theorem State.chan_gateTaken (s : State) (d c : Nat) : (s.gateTaken d c).chan c = { s.chan c with gatePending := false } := by
  rw [State.gateTaken, State.chan_setChan_self]
  rfl

theorem State.die_gateTaken (s : State) (d c e : Nat) : (s.gateTaken d c).die e = if e = d then
    { s.die d with nextAuto := max s.now (s.die d).nextAuto + 100000 } else s.die e := State.die_setDie _ _ _ _

theorem State.gateTaken_ceilings (s : State) (d c : Nat) : SameCeilings c (s.due (s.die d).nextAuto) (s.gateTaken d c) := by
  refine ⟨rfl, ?_, ?_, ?_, fun _ _ => rfl⟩
  · rw [s.chan_gateTaken]
    rfl
  · rw [s.chan_gateTaken]
    rfl
  · rw [s.die_gateTaken]
    split
    · next h => rw [h]; rfl
    · rfl

/-- One that nothing refuses begins at the die's instant for it. -/
theorem exec_feedReturnTurnOn_starts (hrun : s.dieRuns d = true) (h : (chansOf d).find? s.gateDue = some c) (hprio : s.prio c = 0)
    (hmode : s.cq c F.CH_STATE_MODE = 0) (hceiling : (s.due (s.die d).nextAuto).ceiling c
      ⟨true, false, s.cq c F.CH_PWM_DUTY_DUTY, s.cq c F.CH_PWM_FREQ_FREQ, 0, true, false⟩ = none) :
    ∃ v on, on.slew = 0 ∧
      exec (.feedReturnTurnOn d) s = .next ((((s.gateTaken d c).chEvent c 0xA v).admitted c).startStatic c on 1) := by
  obtain ⟨-, hst, hcmd, -⟩ := State.gateDue_iff.1 (List.find?_some h)
  obtain ⟨v, on, hslew, hstart⟩ := State.autoOn_starts (s := s.gateTaken d c) (c := c) (cause := .feedReturn) hprio hmode hcmd (.inr hst)
    ((s.gateTaken_ceilings d c).ceiling _ |>.trans hceiling)
  exact ⟨v, on, hslew, by rw [exec_feedReturnTurnOn hrun h, hstart]⟩

theorem State.slewDef_gateTaken (s : State) (d c v : Nat) : (((s.gateTaken d c).chEvent c 0xA v).admitted c).slewDef c = s.slewDef c := by
  refine State.slewDef_eq ?_ ?_
  · rw [State.chan_admitted, State.chan_chEvent, State.chan_gateTaken]
    rfl
  · rw [State.cq_admitted, State.cq_chEvent _ _ _ _ _ (by decide)]
    rfl

theorem State.dies_commanded (s : State) (c mode : Nat) : (s.commanded c mode).dies = s.dies := by
  simp only [State.commanded, State.begun, State.cn, State.cw, State.dies_set, State.dies_inc, State.dies_setChan]

theorem State.die_startStatic (s : State) (c st d : Nat) (on : TurnOn) : (s.startStatic c on st).die d = s.die d := by
  rw [State.startStatic_eq, State.die, State.dies_setChan, State.dies_goto, State.dies_commanded]
  rfl

theorem State.nextAuto_admitted (s : State) (c d : Nat) : ((s.admitted c).die d).nextAuto = (s.die d).nextAuto := by
  obtain ⟨-, -, -, -, -, hdie⟩ := s.admitted_rest c
  rw [hdie]

/-! ## PWM (R177, R178) -/

/-- The on-phase of a channel in PWM ends, one in LIMIT too (R178). -/
def State.phaseEnded (s : State) (c e : Nat) : State := if s.chState c = 4 then (s.due e).goto c 3 else s.due e

theorem exec_pwmOffEdge {e : Nat} (hrun : s.dieRuns d = true) (h : (s.chan (chanNo d n)).pwmOff = some e) (hpwm : s.inPwm (chanNo d n) = true) :
    exec (.pwmOffEdge d n) s = .next ((s.phaseEnded (chanNo d n) e).setChan (chanNo d n) { (s.phaseEnded (chanNo d n) e).chan (chanNo d n) with
        pwmOn := false, pwmOff := none, offSlew := (s.phaseEnded (chanNo d n) e).slewPwm (chanNo d n),
        present := clearBit ((s.phaseEnded (chanNo d n) e).chan (chanNo d n)).present 0 }) := by
  have hexec : exec (.pwmOffEdge d n) s = ok (match (s.chan (chanNo d n)).pwmOff with
    | some e => if s.dieRuns d ∧ s.inPwm (chanNo d n) then
        let r := s.phaseEnded (chanNo d n) e
        r.setChan (chanNo d n) { r.chan (chanNo d n) with
          pwmOn := false, pwmOff := none, offSlew := r.slewPwm (chanNo d n), present := clearBit (r.chan (chanNo d n)).present 0 }
      else s
    | none => s) := rfl
  rw [hexec, h]
  exact congrArg ok (if_pos ⟨hrun, hpwm⟩)

theorem State.chState_of_inPwm (h : s.inPwm c = true) : s.chState c = 3 ∨ s.chState c = 4 := by
  simp only [State.inPwm, Bool.and_eq_true, Bool.or_eq_true, beq_iff_eq] at h
  exact h.1.1

theorem State.now_phaseEnded (s : State) (c e : Nat) : (s.phaseEnded c e).now = max s.now e := by
  unfold State.phaseEnded
  split
  · exact State.now_goto _ _ _
  · rfl

theorem State.chState_phaseEnded (h : s.inPwm c = true) (e : Nat) : (s.phaseEnded c e).chState c = 3 := by
  unfold State.phaseEnded
  split
  · exact State.chState_goto _ _ (by decide)
  · next hst => exact (State.chState_of_inPwm h).resolve_right hst

theorem State.slewPwm_phaseEnded (s : State) (c e : Nat) : (s.phaseEnded c e).slewPwm c = s.slewPwm c := by
  unfold State.phaseEnded
  split
  · refine State.slewPwm_eq ?_ (State.cq_goto_fld _ _ _ _ (by decide))
    rw [State.chan_goto]
    rfl
  · rfl

theorem State.phaseEnded_at (s : State) (c e : Nat) : AtChan c [] gotoFlds s (s.phaseEnded c e) := by
  unfold State.phaseEnded
  split
  · exact ((AtChan.refl c [] gotoFlds s).due e).goto (fun _ h => h) 3
  · exact (AtChan.refl c [] gotoFlds s).due e

theorem div_duty_full (p : Nat) : (65535 * p + 32767) / 65535 = p := by omega

/-- A period that clips a phase counts it. -/
def State.clipped (s : State) (c : Nat) (clip : Bool) : State := if clip then s.cn c F.CH_PWM_CLIP_COUNT else s

theorem AtChan.clipped {m : List Spot} {l : List Fld} (h : AtChan c m l s t) (hl : F.CH_PWM_CLIP_COUNT ∈ l) (clip : Bool) :
    AtChan c m l s (t.clipped c clip) := by
  cases clip
  · exact h
  · exact h.cn hl

theorem State.now_clipped (s : State) (c : Nat) (clip : Bool) : (s.clipped c clip).now = s.now := by cases clip <;> rfl

theorem State.cq_clipped (s : State) (c : Nat) (clip : Bool) {g : Fld} (h : g.reg ≠ F.CH_PWM_CLIP_COUNT.reg) :
    (s.clipped c clip).cq c g = s.cq c g := by
  cases clip
  · rfl
  · exact State.cq_cn_fld _ _ _ (.inl h)

theorem State.chState_clipped (s : State) (c : Nat) (clip : Bool) : (s.clipped c clip).chState c = s.chState c :=
  s.cq_clipped c clip (by decide)

/-- A period with DUTY 65 535: the channel is on for the whole of it, whether its off-phase is too short or ends with the next period. -/
theorem exec_pwmPeriodStart_full (hrun : s.dieRuns d = true) (hc : chanNo d n = c) (hpwm : s.inPwm c = true) (hst : s.chState c = 3)
    (hwait : (s.chan c).pwmWait = false) (hduty : s.cq c F.CH_PWM_DUTY_DUTY = 65535) (hcomp : s.cq c F.CH_PWM_FREQ_COMP = 0)
    (hlong : s.shortPhase c (pwmPeriod (s.cq c F.CH_PWM_FREQ_FREQ)) = false) :
    ∃ v, exec (.pwmPeriodStart d n) s = .next ((((((s.due (s.nextPeriod c (s.chan c).pwmEnd)).cw c F.CH_PWM_DUTY_DEFF 65535).clipped c
        (s.shortPhase c 0)).goto c 3)).setChan c v) ∧ v.pwmOn = true ∧
      v.pwmEnd = s.nextPeriod c (s.chan c).pwmEnd + 5 * pwmPeriod (s.cq c F.CH_PWM_FREQ_FREQ) := by
  subst hc
  have hexec : exec (.pwmPeriodStart d n) s = execPwmPeriodStart d n s := rfl
  have hfld (e : Nat) (f : Fld) : (s.due e).cq (chanNo d n) f = s.cq (chanNo d n) f := rfl
  have hstate (e : Nat) : (s.due e).chState (chanNo d n) = 3 := hst
  have hshort (e : Nat) : (s.due e).shortPhase (chanNo d n) = s.shortPhase (chanNo d n) := rfl
  have hclip (u : State) : (if s.shortPhase (chanNo d n) 0 = true then u.cn (chanNo d n) F.CH_PWM_CLIP_COUNT else u) =
    u.clipped (chanNo d n) (s.shortPhase (chanNo d n) 0) := rfl
  have hkeep (e : Nat) : (((s.due e).cw (chanNo d n) F.CH_PWM_DUTY_DEFF 65535).clipped (chanNo d n) (s.shortPhase (chanNo d n) 0)).chState
      (chanNo d n) = 3 := by rw [State.chState_clipped, State.chState_cw _ _ _ _ (by decide), hstate]
  rw [hexec, execPwmPeriodStart]
  dsimp only
  rw [if_pos ⟨hrun, .inl hpwm⟩]
  rw [hwait, if_neg Bool.false_ne_true, max_self]
  simp only [hfld, hstate, hshort, hduty, hcomp, zero_ne_one, if_false, div_duty_full, Nat.sub_self, hlong, Bool.false_and, Bool.not_false,
    Bool.and_true, Bool.false_eq_true, false_or, hclip, hkeep, Nat.reduceBEq, if_false]
  exact ⟨_, rfl, rfl, rfl⟩

/-! ## The obligation -/

theorem State.chState_feedTold (s : State) (d c : Nat) (gone r : Bool) : ((s.feedTold d gone).feedFlags d r).chState c = s.chState c := by
  cases r
  · exact State.get_set_fld _ _ _ _ _ _ _ _ (.inl (by decide))
  · exact (State.get_set_fld _ _ _ _ _ _ _ _ (.inl (by decide))).trans (State.get_set_fld _ _ _ _ _ _ _ _ (.inl (by decide)))

theorem State.chan_feedTold (s : State) (d c : Nat) (gone r : Bool) : ((s.feedTold d gone).feedFlags d r).chan c = s.chan c := by
  cases r <;> rfl

theorem State.mem_feedTold (s : State) (d : Nat) (gone r : Bool) : ((s.feedTold d gone).feedFlags d r).mem = s.mem := by cases r <;> rfl

theorem State.absent_feedFlags (s : State) (d : Nat) (r : Bool) : (s.feedFlags d r).get (.grate d) F.MEAS_STATUS_FEED_ABSENT 0 = 1 := by
  cases r
  · exact State.get_set_self _ _ _ _ _
  · exact (State.get_set_fld _ _ _ _ _ _ _ _ (.inr (by decide))).trans (State.get_set_self _ _ _ _ _)

theorem State.reversed_feedFlags (s : State) (d : Nat) (r : Bool) : (s.feedFlags d r).get (.grate d) F.MEAS_STATUS_FEED_REVERSED 0 =
    if r then 1 else s.get (.grate d) F.MEAS_STATUS_FEED_REVERSED 0 := by
  cases r
  · exact State.get_set_fld _ _ _ _ _ _ _ _ (.inr (by decide))
  · exact State.get_set_self _ _ _ _ _

section Absent

variable (s : State) (d : Fin 4) (r : Bool)

/-- The state of a lost feed. -/
def State.feedLost : State := ((s.feedTold d true).feedFlags d r).each (chansOf d) fun s c => s.noFeed c r

theorem State.feedLost_flags : (∀ g ∈ [F.MEAS_STATUS_FEED_ABSENT, F.MEAS_STATUS_FEED_REVERSED], ∀ k i,
    (s.feedLost d r).get k g i = ((s.feedTold d true).feedFlags d r).get k g i) ∧ (s.feedLost d r).mem = s.mem := by
  obtain ⟨hflags, hmem⟩ := State.each_feed (fun s c => s.noFeed_at c r) ((s.feedTold d true).feedFlags d r) (chansOf d)
  exact ⟨hflags, hmem.trans (s.mem_feedTold d true r)⟩

theorem State.chState_noFeed_ne (s : State) {c b : Nat} (r : Bool) (h : b ≠ c) : (s.noFeed c r).chState b = s.chState b :=
  (s.noFeed_at c r).cq_ne h (by decide)

theorem State.chan_noFeed_ne (s : State) {c b : Nat} (r : Bool) (h : b ≠ c) : (s.noFeed c r).chan b = s.chan b :=
  (s.noFeed_at c r).chans b (by simpa using h)

theorem State.chState_feedLost {c : Nat} (hc : c / 16 = d.val) : (s.feedLost d r).chState c = lostTo (s.chState c) :=
  (State.each_view_on (view := State.chState) (fun s c => s.chState_noFeed c r) (fun s _ _ => s.chState_noFeed_ne r) (chansOf_nodup d)
    (mem_chansOf.2 hc) _).trans (congrArg lostTo (s.chState_feedTold d c true r))

theorem State.retries_feedLost {c : Nat} (hc : c / 16 = d.val) : ((s.feedLost d r).chan c).retries = (s.chan c).retries :=
  (State.each_view_on (view := fun s c => (s.chan c).retries) (g := fun n => n) (fun s c => s.retries_noFeed c r)
    (fun s _ _ h => congrArg Chan.retries (s.chan_noFeed_ne r h)) (chansOf_nodup d) (mem_chansOf.2 hc) _).trans
    (congrArg Chan.retries (s.chan_feedTold d c true r))

theorem State.chState_feedLost_off {c : Nat} (hc : c / 16 ≠ d.val) : (s.feedLost d r).chState c = s.chState c :=
  (State.each_view_off (fun s _ _ => s.chState_noFeed_ne r) (fun h => hc (mem_chansOf.1 h)) _).trans (s.chState_feedTold d c true r)

theorem State.chan_feedLost_off {c : Nat} (hc : c / 16 ≠ d.val) : (s.feedLost d r).chan c = s.chan c :=
  (State.each_view_off (fun s _ _ => s.chan_noFeed_ne r) (fun h => hc (mem_chansOf.1 h)) _).trans (s.chan_feedTold d c true r)

end Absent

theorem backTo_state (v : Nat × Nat × Bool) : (backTo v).1 = if v.1 = 9 then 0 else v.1 := by
  unfold backTo
  split <;> rfl

section Return

variable (s : State) (d : Fin 4)

/-- The die as its feed returns, before its channels are told. -/
def State.feedFound : State :=
  let r := ((s.feedTold d false).set (.grate d) F.MEAS_STATUS_FEED_ABSENT 0 0).set (.grate d) F.MEAS_STATUS_FEED_REVERSED 0 0
  r.setDie d { r.die d with nextAuto := r.now }

theorem State.feedFound_absent : (s.feedFound d).get (.grate d) F.MEAS_STATUS_FEED_ABSENT 0 = 0 :=
  (State.get_setDie _ _ _ _ _ _).trans ((State.get_set_fld _ _ _ _ _ _ _ _ (.inr (by decide))).trans (State.get_set_self _ _ _ _ _))

theorem State.feedFound_reversed : (s.feedFound d).get (.grate d) F.MEAS_STATUS_FEED_REVERSED 0 = 0 :=
  (State.get_setDie _ _ _ _ _ _).trans (State.get_set_self _ _ _ _ _)

theorem State.cq_feedFound (c : Nat) {g : Fld} (hg : g.reg ≠ F.MEAS_STATUS_FEED_ABSENT.reg) : (s.feedFound d).cq c g = s.cq c g :=
  (State.get_setDie _ _ _ _ _ _).trans
    ((State.get_set_fld _ _ _ F.MEAS_STATUS_FEED_REVERSED _ _ _ _ (.inl hg)).trans (State.get_set_fld _ _ _ _ _ _ _ _ (.inl hg)))

theorem State.feedView_feedFound (c : Nat) : (s.feedFound d).feedView c = s.feedView c := by
  rw [State.feedView, State.feedView, State.chState, s.cq_feedFound d c (by decide), s.cq_feedFound d c (by decide)]
  rfl

theorem State.feedFound_back {c : Nat} (hc : c / 16 = d.val) :
    ((s.feedFound d).each (chansOf d) State.feedBackIf).feedView c = backTo (s.feedView c) :=
  (State.each_view_on (view := State.feedView) State.feedView_feedBackIf (fun s _ _ => s.feedView_feedBackIf_ne) (chansOf_nodup d)
    (mem_chansOf.2 hc) _).trans (congrArg backTo (s.feedView_feedFound d c))

theorem State.chState_feedFound_back {c : Nat} (hc : c / 16 = d.val) :
    ((s.feedFound d).each (chansOf d) State.feedBackIf).chState c = if s.chState c = 9 then 0 else s.chState c := by
  have hstate (t : State) : t.chState c = (t.feedView c).1 := rfl
  rw [hstate, s.feedFound_back d hc, backTo_state, hstate]

theorem State.gate_feedFound_back {c : Nat} (hc : c / 16 = d.val) (hst : s.chState c = 9) :
    (((s.feedFound d).each (chansOf d) State.feedBackIf).chan c).gatePending = (s.cq c F.CH_STATE_CMD_ON == 1) := by
  have hgate (t : State) : (t.chan c).gatePending = (t.feedView c).2.2 := rfl
  have hstate : (s.feedView c).1 = 9 := hst
  rw [hgate, s.feedFound_back d hc, backTo, if_pos hstate]
  rfl

end Return

/-- Settles O23: each channel of the die takes its own turn of the loops over the feed, and the other steps touch one channel. -/
theorem feedAndPwm : Obligations.FeedAndPwm := by
  refine ⟨fun s d r hrun => ⟨s.feedLost d r, exec_feedBusAbsent r hrun, ?_⟩,
    fun s d hrun habs => ⟨(s.feedFound d).each (chansOf d) State.feedBackIf, exec_feedBusReturn hrun habs, ?_⟩,
    fun s d b hrun => ⟨_, exec_feedOvervoltage b hrun, ?_⟩, fun s d c hrun hfind hprio hmode hceiling => ?_,
    fun s d n c hrun hc hpwm hst hwait hduty hcomp hlong => ?_, fun s d n c e hrun hc hoff hpwm => ?_⟩
  · obtain ⟨hflags, hmem⟩ := s.feedLost_flags d r
    have habsent := (hflags F.MEAS_STATUS_FEED_ABSENT (by decide) (.grate d) 0).trans ((s.feedTold d true).absent_feedFlags d r)
    have hreversed := (hflags F.MEAS_STATUS_FEED_REVERSED (by decide) (.grate d) 0).trans ((s.feedTold d true).reversed_feedFlags d r)
    exact ⟨habsent, hreversed, fun c _ hc => ⟨s.chState_feedLost d r hc, s.retries_feedLost d r hc⟩,
      fun c _ hc => ⟨s.chState_feedLost_off d r hc, s.chan_feedLost_off d r hc⟩, MemSame.of_mem hmem⟩
  · have hflags := State.each_feed State.feedBackIf_at (s.feedFound d) (chansOf d)
    have habsent := (hflags.1 F.MEAS_STATUS_FEED_ABSENT (by decide) (.grate d) 0).trans (s.feedFound_absent d)
    have hreversed := (hflags.1 F.MEAS_STATUS_FEED_REVERSED (by decide) (.grate d) 0).trans (s.feedFound_reversed d)
    exact ⟨habsent, hreversed, fun c _ hc => s.chState_feedFound_back d hc, fun c _ hc hst => s.gate_feedFound_back d hc hst,
      MemSame.of_mem hflags.2⟩
  · refine ⟨(State.get_set_self _ _ _ _ _).trans ?_, Only.set (List.mem_singleton.2 rfl), rfl, rfl, MemSame.of_mem rfl⟩
    cases b <;> rfl
  · obtain ⟨v, on, hslew, hexec⟩ := exec_feedReturnTurnOn_starts hrun hfind hprio hmode hceiling
    have hgate : AtChan c (noticeFields s c) (F.CH_EVT_SUPPRESS_COUNT :: beginFlds) s (s.gateTaken d c) :=
      (((AtChan.refl _ _ _ s).due _).setDie _ _).setChan _
    have hat := ((hgate.chEvent (by decide) (by decide) 0xA v).admitted c).startStatic (by decide) on 1
    refine ⟨_, hexec, State.chState_startStatic _ _ _ (by decide), ?_, ?_, ?_, ?_, hat.chans, hat.memSame⟩
    · rw [State.chan_startStatic]
      exact (if_pos hslew).trans (s.slewDef_gateTaken d c v)
    · rw [State.cq_startStatic _ _ _ _ (by decide), State.cmdOn_commanded]
    · rw [State.chan_startStatic, State.chan_admitted, State.chan_chEvent, State.chan_gateTaken]
      rfl
    · rw [State.die_startStatic, State.nextAuto_admitted, State.die, State.dies_chEvent, ← State.die, State.die_gateTaken, if_pos rfl]
  · obtain ⟨v, hexec, hon, hend⟩ := exec_pwmPeriodStart_full hrun hc hpwm hst hwait hduty hcomp hlong
    have hat := (((((AtChan.refl c [] (F.CH_PWM_DUTY_DEFF :: F.CH_PWM_CLIP_COUNT :: gotoFlds) s).due (s.nextPeriod c (s.chan c).pwmEnd)).cw
      (f := F.CH_PWM_DUTY_DEFF) (by decide) 65535).clipped (by decide) (s.shortPhase c 0)).goto (by decide) 3).setChan v
    refine ⟨_, hexec, ?_, State.chState_goto _ _ (by decide), ?_, ?_, ?_, hat.chans, hat.memSame⟩
    · rw [State.now_setChan, State.now_goto, State.now_clipped]
      rfl
    · rw [State.chan_setChan_self, hon]
    · rw [State.chan_setChan_self, hend]
    · rw [State.cq_setChan, State.cq_goto_fld _ _ _ _ (by decide), State.cq_clipped _ _ _ (by decide)]
      exact State.cq_cw_self _ _ _ _
  · subst hc
    obtain ⟨hchans, honly, hmem⟩ := ((s.phaseEnded_at (chanNo d n) e).setChan _).frame
    refine ⟨_, exec_pwmOffEdge hrun hoff hpwm, s.now_phaseEnded _ e, State.chState_phaseEnded hpwm e, ?_, ?_, ?_, hchans, honly, hmem⟩
    all_goals rw [State.chan_setChan_self]
    exact s.slewPwm_phaseEnded _ e

end Sys2Proof.Machine
end

section
/-! Packets at a grate die: the head of the link, the token, the reply on its way back, and the commands that turn a channel on and off
(R81, R92, R192, R198, R206, R219, R221, R515). -/
namespace Sys2Proof.Machine
open Sys2Proof

variable {s t u : State} {x : Side} {d : Fin 4} {j : Job} {q : List Job} {c : Nat} {l : List Fld}

/-! ## The head of a link (R84) -/

/-- Side `x`'s link to die `d` holds the packets `q`. -/
def State.unlinked (s : State) (x : Side) (d : Nat) (q : List Job) : State :=
  s.setSide x { s.side x with links := Tab.put [] (s.side x).links d q }

theorem State.fast_head {code : Nat} (h : s.LinkHead x d code j q) (f : State → Job → State) :
    s.fast x d code f = f (s.unlinked x d q) j := by
  obtain ⟨hlink, hcode, -, hpresent⟩ := h
  rw [State.fast, hlink]
  exact if_pos ⟨hpresent, hcode⟩

theorem AtChan.unlinked (c : Nat) (l : List Fld) (s : State) (x : Side) (d : Nat) (q : List Job) : AtChan c [] l s (s.unlinked x d q) :=
  (AtChan.refl c [] l s).setSide x _

theorem State.chan_unlinked (s : State) (x : Side) (d c : Nat) (q : List Job) : (s.unlinked x d q).chan c = s.chan c := State.chan_setSide _ _ _ _

theorem State.cq_unlinked (s : State) (x : Side) (d c : Nat) (q : List Job) (g : Fld) : (s.unlinked x d q).cq c g = s.cq c g :=
  State.get_setSide _ _ _ _ _ _

theorem State.chState_unlinked (s : State) (x : Side) (d c : Nat) (q : List Job) : (s.unlinked x d q).chState c = s.chState c :=
  s.cq_unlinked x d c q _

theorem State.now_unlinked (s : State) (x : Side) (d : Nat) (q : List Job) : (s.unlinked x d q).now = s.now := State.now_setSide _ _ _

theorem State.ceiling_unlinked (s : State) (x : Side) (d c : Nat) (q : List Job) (a : Ask) : (s.unlinked x d q).ceiling c a = s.ceiling c a := by
  cases x <;> rfl

theorem State.judge_unlinked (s : State) (x : Side) (d c : Nat) (q : List Job) : (s.unlinked x d q).judge c = s.judge c := by
  cases x <;> rfl

theorem State.slewDef_unlinked (s : State) (x : Side) (d c : Nat) (q : List Job) : (s.unlinked x d q).slewDef c = s.slewDef c := by
  cases x <;> rfl

theorem State.slewPwm_unlinked (s : State) (x : Side) (d c : Nat) (q : List Job) : (s.unlinked x d q).slewPwm c = s.slewPwm c := by
  cases x <;> rfl

theorem State.inPwm_unlinked (s : State) (x : Side) (d c : Nat) (q : List Job) : (s.unlinked x d q).inPwm c = s.inPwm c := by
  cases x <;> rfl

/-! ## The token (R221, R259) -/

theorem State.asMaster_unlinked (h : s.Master x d) (q : List Job) (f no : State → State) :
    (s.unlinked x d q).asMaster d x f no = f (s.unlinked x d q) := by
  obtain ⟨-, hholds, hknown⟩ := h
  have hholds' : (s.unlinked x d q).holds x d = true := Eq.trans (by cases x <;> rfl) hholds
  have hknown' : ((s.unlinked x d q).die d).masterNew = false := Eq.trans (by cases x <;> rfl) hknown
  rw [State.asMaster, if_pos hholds', hknown']
  rfl

/-! ## What is on its way back (R50, R81) -/

/-- Neither the sides nor the replies that wait in the dies change. -/
structure RepliesStill (s t : State) : Prop where
  side : ∀ x, t.side x = s.side x
  out : ∀ d, (t.die d).out = (s.die d).out

theorem RepliesStill.refl (s : State) : RepliesStill s s := ⟨fun _ => rfl, fun _ => rfl⟩

theorem RepliesStill.cw (h : RepliesStill s t) (c : Nat) (f : Fld) (v : Nat) : RepliesStill s (t.cw c f v) :=
  ⟨fun x => Eq.trans (by cases x <;> rfl) (h.side x), h.out⟩

theorem RepliesStill.cn (h : RepliesStill s t) (c : Nat) (f : Fld) : RepliesStill s (t.cn c f) := h.cw c f _

theorem RepliesStill.setChan (h : RepliesStill s t) (c : Nat) (v : Chan) : RepliesStill s (t.setChan c v) :=
  ⟨fun x => Eq.trans (by cases x <;> rfl) (h.side x), h.out⟩

theorem RepliesStill.goto (h : RepliesStill s t) (c st : Nat) : RepliesStill s (t.goto c st) :=
  ⟨fun x => (t.side_goto c st x).trans (h.side x), fun d => by rw [State.die, State.dies_goto]; exact h.out d⟩

theorem RepliesStill.admitted (h : RepliesStill s t) (c : Nat) : RepliesStill s (t.admitted c) := by
  obtain ⟨-, -, -, -, hside, hdie⟩ := t.admitted_rest c
  exact ⟨fun x => (hside x).trans (h.side x), fun d => by rw [hdie]; exact h.out d⟩

theorem State.sendReplies_rest (x : Side) (d : Nat) : ∀ (n : Nat) (s : State),
    (s.sendReplies x d n).chans = s.chans ∧ ∀ y, ((s.sendReplies x d n).side y).links = (s.side y).links
  | 0, _ => ⟨rfl, fun _ => rfl⟩
  | n + 1, s => by
    unfold State.sendReplies
    dsimp only
    split
    · split
      · obtain ⟨hchans, hlinks⟩ := State.sendReplies_rest x d n _
        exact ⟨hchans.trans (State.chans_setSide _ _ _), fun y => (hlinks y).trans (by cases x <;> cases y <;> rfl)⟩
      · exact ⟨rfl, fun _ => rfl⟩
    · exact ⟨rfl, fun _ => rfl⟩

theorem State.dieReply_backward (s : State) (d : Nat) (r : Reply) :
    (s.dieReply d r).backward r.job.side d = s.backward r.job.side d ++ [r] := by
  refine (State.sendReplies_moves r.job.side d 1 _).order.trans ?_
  rw [State.wayBack, State.die_setDie_self, State.side_setDie, Tab.at_put_self, ← List.append_assoc]
  rfl

theorem State.dieReply_rest (s : State) (d : Nat) (r : Reply) : (s.dieReply d r).chans = s.chans ∧ (s.dieReply d r).regs = s.regs ∧
    (s.dieReply d r).mem = s.mem ∧ ∀ y, ((s.dieReply d r).side y).links = (s.side y).links := by
  obtain ⟨v, hv⟩ : ∃ v, s.dieReply d r = (s.setDie d v).sendReplies r.job.side d 1 := ⟨_, rfl⟩
  obtain ⟨hchans, hlinks⟩ := State.sendReplies_rest r.job.side d 1 (s.setDie d v)
  have hmoves := State.sendReplies_moves r.job.side d 1 (s.setDie d v)
  rw [hv]
  exact ⟨hchans, hmoves.regs, hmoves.mem, fun y => (hlinks y).trans (by rw [State.side_setDie])⟩

theorem State.chan_dieReply (s : State) (d c : Nat) (r : Reply) : (s.dieReply d r).chan c = s.chan c := by
  obtain ⟨hchans, -⟩ := s.dieReply_rest d r
  rw [State.chan, hchans]
  rfl

theorem State.cq_dieReply (s : State) (d c : Nat) (r : Reply) (g : Fld) : (s.dieReply d r).cq c g = s.cq c g := by
  obtain ⟨-, hregs, -⟩ := s.dieReply_rest d r
  rw [State.cq, State.get, hregs]
  rfl

theorem AtChan.dieReply {n : List Spot} (h : AtChan c n l s t) (d : Nat) (r : Reply) : AtChan c n l s (t.dieReply d r) := by
  obtain ⟨hchans, hregs, hmem, -⟩ := t.dieReply_rest d r
  exact h.same hchans hregs hmem

/-- A packet off its link, and its reply behind those on their way. -/
theorem DieReplied.of_still {code st det : Nat} {ws : List Nat} (h : s.LinkHead x d code j q) (hstill : RepliesStill (s.unlinked x d q) t) :
    DieReplied s (t.dieReply d ⟨j, st, det, ws⟩) d j q st det ws := by
  obtain ⟨-, -, rfl, -⟩ := h
  obtain ⟨-, -, -, hlinks⟩ := t.dieReply_rest d ⟨j, st, det, ws⟩
  have hback : t.backward j.side d = s.backward j.side d := by
    rw [State.backward, State.backward, hstill.side, hstill.out, State.unlinked, State.side_setSide_self, State.die_setSide]
  refine ⟨(t.dieReply_backward d ⟨j, st, det, ws⟩).trans (by rw [hback]), ?_⟩
  rw [hlinks, hstill.side, State.unlinked, State.side_setSide_self, Tab.at_put_self]

/-! ## A turn-off (R162, R167, R192, R219) -/

/-- Channel `c` goes to OFF when it is turned off: it is driven, waits for an attempt, or was shed. -/
abbrev State.goesOff (s : State) (c : Nat) : Prop :=
  driven (s.chState c) = true ∨ s.chState c = 6 ∨ (s.chState c = 8 ∧ s.cq c F.DMP_CH_STATUS_SHED = 1)

/-- A channel turned off, before its falling edge. -/
def State.wentOff (s : State) (c : Nat) : State := if s.goesOff c then (s.cmdOff c).goto c 0 else s.cmdOff c

theorem State.applyOff_eq (s : State) (c slew : Nat) : s.applyOff c slew =
    if driven (s.chState c) then (s.wentOff c).setChan c { (s.wentOff c).chan c with offSlew := slew } else s.wentOff c := by
  have hshed : (s.cmdOff c).cq c F.DMP_CH_STATUS_SHED = s.cq c F.DMP_CH_STATUS_SHED :=
    (s.cq_cmdOff c c _).trans (State.cq_cw_fld _ _ _ _ (by decide))
  unfold State.applyOff State.wentOff State.goesOff
  dsimp only
  rw [hshed]
  split
  · next hdriven => rw [if_pos (.inl hdriven)]
  · next hstays =>
    split
    · next hwaits => rw [if_pos (.inr (.inl hwaits))]
    · next hwaits => exact if_congr (by simp [hstays, hwaits]) rfl rfl

theorem State.chan_cmdOff (s : State) (c : Nat) : (s.cmdOff c).chan c = { s.chan c with retries := 0, gatePending := false } :=
  State.chan_setChan_self _ _ _

/-- The registers of a channel turned off: as CMD_ON clears, and what a change of state writes. -/
theorem State.cq_wentOff (s : State) (c : Nat) {g : Fld} (hg : ∀ f ∈ gotoFlds, g.reg ≠ f.reg ∨ g.lo ≠ f.lo) :
    (s.wentOff c).cq c g = (s.cw c F.CH_STATE_CMD_ON 0).cq c g := by
  unfold State.wentOff
  split
  · exact State.cq_goto_fld _ _ _ _ hg
  · rfl

theorem State.chState_wentOff (s : State) (c : Nat) : (s.wentOff c).chState c = if s.goesOff c then 0 else s.chState c := by
  unfold State.wentOff
  split
  · exact State.chState_goto _ _ (by decide)
  · exact s.chState_cmdOff c

theorem State.chan_wentOff (s : State) (c : Nat) : ((s.wentOff c).chan c).retries = 0 ∧ ((s.wentOff c).chan c).gatePending = false := by
  unfold State.wentOff
  split
  · rw [State.chan_goto, State.chan_cmdOff]
    exact ⟨rfl, rfl⟩
  · rw [State.chan_cmdOff]
    exact ⟨rfl, rfl⟩

theorem State.cq_applyOff (s : State) (c slew : Nat) {g : Fld} (hg : ∀ f ∈ gotoFlds, g.reg ≠ f.reg ∨ g.lo ≠ f.lo) :
    (s.applyOff c slew).cq c g = (s.cw c F.CH_STATE_CMD_ON 0).cq c g := by
  rw [State.applyOff_eq]
  split <;> exact s.cq_wentOff c hg

theorem State.chState_applyOff (s : State) (c slew : Nat) : (s.applyOff c slew).chState c = if s.goesOff c then 0 else s.chState c := by
  rw [State.applyOff_eq]
  split <;> exact s.chState_wentOff c

theorem State.chan_applyOff (s : State) (c slew : Nat) : ((s.applyOff c slew).chan c).retries = 0 ∧
    ((s.applyOff c slew).chan c).gatePending = false ∧
    (driven (s.chState c) = true → ((s.applyOff c slew).chan c).offSlew = slew) := by
  obtain ⟨hretries, hgate⟩ := s.chan_wentOff c
  rw [State.applyOff_eq]
  split
  · rw [State.chan_setChan_self]
    exact ⟨hretries, hgate, fun _ => rfl⟩
  · next hoff => exact ⟨hretries, hgate, fun hdriven => absurd hdriven hoff⟩

theorem AtChan.applyOff {n : List Spot} (h : AtChan c n l s t) (hl : ∀ f ∈ F.CH_STATE_CMD_ON :: gotoFlds, f ∈ l) (slew : Nat) :
    AtChan c n l s (t.applyOff c slew) := by
  have hcmd : AtChan c n l s (t.cmdOff c) := (h.cw (hl _ (by decide)) 0).setChan _
  have hwent : AtChan c n l s (t.wentOff c) := by
    unfold State.wentOff
    split
    · exact hcmd.goto (fun f hf => hl f (List.mem_cons_of_mem _ hf)) 0
    · exact hcmd
  rw [State.applyOff_eq]
  split
  · exact hwent.setChan _
  · exact hwent

theorem RepliesStill.applyOff (h : RepliesStill s t) (c slew : Nat) : RepliesStill s (t.applyOff c slew) := by
  have hcmd : RepliesStill s (t.cmdOff c) := (h.cw c _ 0).setChan c _
  have hwent : RepliesStill s (t.wentOff c) := by
    unfold State.wentOff
    split
    · exact hcmd.goto c 0
    · exact hcmd
  rw [State.applyOff_eq]
  split
  · exact hwent.setChan c _
  · exact hwent

/-! ## An action on a channel (R192, R206, R515) -/

theorem State.holdCut_none (h : (s.chan c).hold = none) (reason : Nat) : s.holdCut c reason = s := by
  rw [State.holdCut, h]

/-- A turn-off that fails no ceiling. -/
theorem State.act_off {store : Option TurnOn} {slew : Nat} {compared : Bool} {job : Option Job} (hhold : (s.chan c).hold = none)
    (hceiling : s.ceiling c ((Act.off store).ask false compared slew) = none) :
    s.act c (.off store) slew compared job = ((s.offApply c store slew).cw c F.CH_STATE_SPARK_LAST (b2n job.isNone), .applied) := by
  unfold State.act
  rw [State.holdCut_none hhold]
  dsimp only
  rw [hceiling]

/-- A turn-on of a channel in OFF or DAMPER_OFF that fails no ceiling and that the Damper admits at once. -/
theorem State.act_on {on : TurnOn} {slew : Nat} {compared : Bool} (hhold : (s.chan c).hold = none) (hst : s.chState c = 0 ∨ s.chState c = 8)
    (hceiling : s.ceiling c ((Act.on on).ask true compared slew) = none) (hjudge : s.judge c = .allow) :
    s.act c (.on on) slew compared (some j) = (((s.admitted c).applyOn c on).cw c F.CH_STATE_SPARK_LAST 0, .applied) := by
  have hidle : (s.chState c == 0 || s.chState c == 8) = true := by simpa using hst
  have hlatched : s.chState c ≠ 7 := by omega
  unfold State.act
  rw [State.holdCut_none hhold]
  dsimp only
  rw [hidle, Bool.true_or, Bool.true_or, hceiling]
  dsimp only
  rw [if_neg hlatched, hjudge]
  rfl

/-- A command that the channel takes, of the token's holder. -/
theorem State.channelCommand_applied {a : Act} {slew : Nat} (hmaster : s.Master x d) (hside : j.side = x) (hc : j.pkt.target = c)
    (hact : (s.unlinked x d q).act c a slew j.pkt.compared (some j) = (t, .applied)) :
    (s.unlinked x d q).channelCommand d j a slew = t.dieReply d ⟨j, stOk, 0, []⟩ := by
  subst hside hc
  unfold State.channelCommand
  rw [State.asMaster_unlinked hmaster, hact]

/-! ## The PWM values of a command (R198) -/

/-- Register fields that hold them. -/
def pwmFlds : List Fld := [F.CH_PWM_FREQ_FREQ, F.CH_PWM_FREQ_COMP, F.CH_PWM_FREQ_PHASE, F.CH_PWM_DUTY_DUTY]

theorem State.cq_pwmRegs (s : State) (c : Nat) (on : TurnOn) {g : Fld} (hg : ∀ f ∈ pwmFlds, g.reg ≠ f.reg ∨ g.lo ≠ f.lo) :
    (s.pwmRegs c on).cq c g = s.cq c g := by
  rw [State.pwmRegs, State.cq_cw_fld _ _ _ _ (hg _ (by decide)), State.cq_cw_fld _ _ _ _ (hg _ (by decide)),
    State.cq_cw_fld _ _ _ _ (hg _ (by decide)), State.cq_cw_fld _ _ _ _ (hg _ (by decide))]

theorem State.now_pwmRegs (s : State) (c : Nat) (on : TurnOn) : (s.pwmRegs c on).now = s.now := by
  simp only [State.pwmRegs, State.now_cw]

theorem State.chan_pwmRegs (s : State) (c b : Nat) (on : TurnOn) : (s.pwmRegs c on).chan b = s.chan b := by
  simp only [State.pwmRegs, State.chan_cw]

theorem State.pwmRegs_holds (s : State) (c : Nat) (on : TurnOn) :
    (s.pwmRegs c on).cq c F.CH_PWM_FREQ_FREQ = on.freq % 2 ^ 15 ∧ (s.pwmRegs c on).cq c F.CH_PWM_FREQ_COMP = on.comp % 2 ∧
      (s.pwmRegs c on).cq c F.CH_PWM_FREQ_PHASE = on.phase % 2 ^ 3 ∧ (s.pwmRegs c on).cq c F.CH_PWM_DUTY_DUTY = on.duty % 2 ^ 16 := by
  refine ⟨?_, ?_, ?_, State.cq_cw_self _ _ _ _⟩
  · rw [State.pwmRegs, State.cq_cw_fld _ _ _ _ (by decide), State.cq_cw_fld _ _ _ _ (by decide), State.cq_cw_fld _ _ _ _ (by decide)]
    exact State.cq_cw_self _ _ _ _
  · rw [State.pwmRegs, State.cq_cw_fld _ _ _ _ (by decide), State.cq_cw_fld _ _ _ _ (by decide)]
    exact State.cq_cw_self _ _ _ _
  · rw [State.pwmRegs, State.cq_cw_fld _ _ _ _ (by decide)]
    exact State.cq_cw_self _ _ _ _

theorem AtChan.pwmRegs {n : List Spot} (h : AtChan c n l s t) (hl : ∀ f ∈ pwmFlds, f ∈ l) (on : TurnOn) : AtChan c n l s (t.pwmRegs c on) :=
  (((h.cw (hl _ (by decide)) _).cw (hl _ (by decide)) _).cw (hl _ (by decide)) _).cw (hl _ (by decide)) _

theorem RepliesStill.pwmRegs (h : RepliesStill s t) (c : Nat) (on : TurnOn) : RepliesStill s (t.pwmRegs c on) :=
  (((h.cw c _ _).cw c _ _).cw c _ _).cw c _ _

theorem RepliesStill.commanded (h : RepliesStill s t) (c mode : Nat) : RepliesStill s (t.commanded c mode) :=
  ((((h.setChan c _).cn c _).cw c _ 0).cw c _ mode).cw c _ 1

theorem RepliesStill.startStatic (h : RepliesStill s t) (c st : Nat) (on : TurnOn) : RepliesStill s (t.startStatic c on st) := by
  rw [State.startStatic_eq]
  exact ((h.commanded c 0).goto c st).setChan c _

theorem RepliesStill.startPwm (h : RepliesStill s t) (c : Nat) : RepliesStill s (t.startPwm c) := by
  rw [State.startPwm_eq]
  exact ((h.commanded c 1).goto c 3).setChan c _

/-! ## The obligations -/

/-- The slew that a CH_SET brings: 0 with SLEW_EN 0 (R92). -/
def setSlew (p : Nat) : Nat := if p.testBit 1 then bits p 16 8 else 0

/-- Its own with SLEW_EN 1, or the default (R167). -/
theorem setSlew_or (p m : Nat) : (if setSlew p = 0 then m else setSlew p) = if p.testBit 1 = true ∧ bits p 16 8 ≠ 0 then bits p 16 8 else m := by
  unfold setSlew
  cases p.testBit 1
  · rfl
  · by_cases h : bits p 16 8 = 0 <;> simp [h]

theorem actOfSet_off {p : Nat} (h : p.testBit 0 = false) : actOfSet p = .off none := by
  rw [actOfSet, h]
  rfl

theorem actOfSet_on {p : Nat} (h : p.testBit 0 = true) :
    actOfSet p = .on ⟨false, setSlew p, 0, 0, 0, 0⟩ := by
  rw [actOfSet, h]
  rfl

/-- The PWM values that a CH_PWM brings (R92). -/
def pwmOf (p : Nat) : TurnOn := ⟨true, 0, bits p 15 0, bits p 30 16, bits p 31 31, bits p 34 32⟩

theorem actOfPwm_off {p : Nat} (h : bits p 15 0 = 0) : actOfPwm p = .off (some (pwmOf p)) := if_pos h

theorem actOfPwm_on {p : Nat} (h : bits p 15 0 ≠ 0) : actOfPwm p = .on (pwmOf p) := if_neg h

theorem exec_chSet_applied (hhead : s.LinkHead x d 0x201 j q) (hmaster : s.Master x d) (hc : j.pkt.target = c)
    (hact : (s.unlinked x d q).act c (actOfSet (j.pkt.p 1)) (if (j.pkt.p 1).testBit 1 then bits (j.pkt.p 1) 16 8 else 0) j.pkt.compared
      (some j) = (t, .applied)) : exec (.chSet x d) s = .next (t.dieReply d ⟨j, stOk, 0, []⟩) :=
  congrArg ok ((State.fast_head hhead _).trans (State.channelCommand_applied hmaster hhead.2.2.1 hc hact))

theorem exec_chPwm_applied (hhead : s.LinkHead x d 0x202 j q) (hmaster : s.Master x d) (hc : j.pkt.target = c)
    (hact : (s.unlinked x d q).act c (actOfPwm (j.pkt.p 1)) 0 j.pkt.compared (some j) = (t, .applied)) :
    exec (.chPwm x d) s = .next (t.dieReply d ⟨j, stOk, 0, []⟩) :=
  congrArg ok ((State.fast_head hhead _).trans (State.channelCommand_applied hmaster hhead.2.2.1 hc hact))

/-- Channel `c` was turned off between `s` and `t`, in the frame `l`; the falling edge of a driven one runs at slew `edge`. -/
structure TurnedOff (c : Nat) (l : List Fld) (edge : Nat) (s t : State) : Prop where
  at_ : AtChan c [] l s t
  cmdOn : t.cq c F.CH_STATE_CMD_ON = 0
  state : t.chState c = if s.goesOff c then 0 else s.chState c
  edge : driven (s.chState c) = true → (t.chan c).offSlew = edge
  gate : (t.chan c).gatePending = false
  retries : (t.chan c).retries = 0

/-- A turn-off, of a state in which the channel shows what it showed. -/
theorem TurnedOff.applyOff {edge : Nat} (h : AtChan c [] l s t) (hl : ∀ f ∈ F.CH_STATE_CMD_ON :: gotoFlds, f ∈ l)
    (hst : t.chState c = s.chState c) (hshed : t.cq c F.DMP_CH_STATUS_SHED = s.cq c F.DMP_CH_STATUS_SHED) :
    TurnedOff c l edge s (t.applyOff c edge) := by
  obtain ⟨hretries, hgate, hedge⟩ := t.chan_applyOff c edge
  refine ⟨h.applyOff hl edge, (t.cq_applyOff c edge (by decide)).trans (State.cq_cw_self _ _ _ _), ?_, fun hdriven => hedge (by rwa [hst]),
    hgate, hretries⟩
  simp only [t.chState_applyOff, State.goesOff, hst, hshed]

theorem TurnedOff.cw {edge : Nat} (h : TurnedOff c l edge s t) {f : Fld} (hf : f ∈ l) (v : Nat)
    (hne : ∀ g ∈ [F.CH_STATE_CMD_ON, F.CH_STATE_STATE], g.reg ≠ f.reg ∨ g.lo ≠ f.lo) : TurnedOff c l edge s (t.cw c f v) := by
  obtain ⟨hat, hcmd, hst, hedge, hgate, hretries⟩ := h
  exact ⟨hat.cw hf v, (State.cq_cw_fld _ _ _ _ (hne _ (by simp))).trans hcmd, (State.cq_cw_fld _ _ _ _ (hne _ (by simp))).trans hst,
    by rwa [State.chan_cw], by rwa [State.chan_cw], by rwa [State.chan_cw]⟩

theorem TurnedOff.dieReply {edge : Nat} (h : TurnedOff c l edge s t) (d : Nat) (r : Reply) : TurnedOff c l edge s (t.dieReply d r) := by
  obtain ⟨hat, hcmd, hst, hedge, hgate, hretries⟩ := h
  exact ⟨hat.dieReply d r, (State.cq_dieReply _ _ _ _ _).trans hcmd, (State.cq_dieReply _ _ _ _ _).trans hst,
    by rwa [State.chan_dieReply], by rwa [State.chan_dieReply], by rwa [State.chan_dieReply]⟩

/-- Register fields that a CH_SET with ON 0 writes. -/
def setOffFlds : List Fld := [F.CH_STATE_CMD_ON, F.CH_STATE_STATE, F.CH_STATE_MODE, F.CH_STATE_SPARK_LAST, F.DMP_CH_STATUS_SHED]

theorem exec_chSet_off (hhead : s.LinkHead x d 0x201 j q) (hmaster : s.Master x d) (hc : j.pkt.target = c) (hhold : (s.chan c).hold = none)
    (hoff : (j.pkt.p 1).testBit 0 = false)
    (hceiling : s.ceiling c ((actOfSet (j.pkt.p 1)).ask false j.pkt.compared (setSlew (j.pkt.p 1))) = none) :
    ∃ t, exec (.chSet x d) s = .next t ∧ DieReplied s t d j q stOk 0 [] ∧
      TurnedOff c setOffFlds (if setSlew (j.pkt.p 1) = 0 then s.slewDef c else setSlew (j.pkt.p 1)) s t ∧ t.cq c F.CH_STATE_SPARK_LAST = 0 := by
  rw [actOfSet_off hoff, ← s.ceiling_unlinked x d c q] at hceiling
  have hact := State.act_off (job := some j) (((congrArg Chan.hold (s.chan_unlinked x d c q)).trans hhold)) hceiling
  rw [← actOfSet_off hoff] at hact
  refine ⟨_, exec_chSet_applied hhead hmaster hc hact, ?_⟩
  obtain ⟨edge, hedge⟩ : ∃ edge, (if setSlew (j.pkt.p 1) = 0 then s.slewDef c else setSlew (j.pkt.p 1)) = edge := ⟨_, rfl⟩
  rw [State.offApply, s.slewDef_unlinked x d c q, hedge]
  exact ⟨DieReplied.of_still hhead ((((RepliesStill.refl _).applyOff c edge).cw c _ 0).cw c _ 0),
    (((TurnedOff.applyOff (AtChan.unlinked c setOffFlds s x d q) (by decide) (s.chState_unlinked x d c q) (s.cq_unlinked x d c q _)).cw
      (by decide) 0 (by decide)).cw (by decide) 0 (by decide)).dieReply d _, (State.cq_dieReply _ _ _ _ _).trans (State.cq_cw_self _ _ _ _)⟩

/-- Register fields that a CH_PWM with DUTY 0 writes. -/
def pwmOffFlds : List Fld := [F.CH_STATE_CMD_ON, F.CH_STATE_STATE, F.CH_STATE_SPARK_LAST, F.DMP_CH_STATUS_SHED, F.CH_PWM_FREQ_FREQ,
  F.CH_PWM_FREQ_COMP, F.CH_PWM_FREQ_PHASE, F.CH_PWM_DUTY_DUTY, F.CH_PWM_DUTY_DEFF]

theorem exec_chPwm_off (hhead : s.LinkHead x d 0x202 j q) (hmaster : s.Master x d) (hc : j.pkt.target = c) (hhold : (s.chan c).hold = none)
    (hduty : bits (j.pkt.p 1) 15 0 = 0) (hceiling : s.ceiling c ((actOfPwm (j.pkt.p 1)).ask false j.pkt.compared 0) = none) :
    ∃ t, exec (.chPwm x d) s = .next t ∧ DieReplied s t d j q stOk 0 [] ∧
      TurnedOff c pwmOffFlds (if s.inPwm c = true then s.slewPwm c else s.slewDef c) s t ∧ t.cq c F.CH_PWM_DUTY_DUTY = 0 ∧
      t.cq c F.CH_PWM_DUTY_DEFF = 0 ∧ t.cq c F.CH_PWM_FREQ_FREQ = bits (j.pkt.p 1) 30 16 ∧
      t.cq c F.CH_PWM_FREQ_PHASE = bits (j.pkt.p 1) 34 32 := by
  rw [actOfPwm_off hduty, ← s.ceiling_unlinked x d c q] at hceiling
  have hact := State.act_off (job := some j) (((congrArg Chan.hold (s.chan_unlinked x d c q)).trans hhold)) hceiling
  rw [← actOfPwm_off hduty] at hact
  refine ⟨_, exec_chPwm_applied hhead hmaster hc hact, ?_⟩
  obtain ⟨edge, hedge⟩ : ∃ edge, (if s.inPwm c = true then s.slewPwm c else s.slewDef c) = edge := ⟨_, rfl⟩
  rw [State.offApply, s.slewDef_unlinked x d c q, s.slewPwm_unlinked x d c q, s.inPwm_unlinked x d c q, hedge]
  obtain ⟨r, hr⟩ : ∃ r, ((s.unlinked x d q).pwmRegs c (pwmOf (j.pkt.p 1))).cw c F.CH_PWM_DUTY_DEFF 0 = r := ⟨_, rfl⟩
  have hstored : ∀ g ∈ [F.CH_STATE_STATE, F.DMP_CH_STATUS_SHED], r.cq c g = s.cq c g := fun g hg => by
    rw [← hr, State.cq_cw_fld _ _ _ _ (by revert g; decide), State.cq_pwmRegs _ _ _ (by revert g; decide), State.cq_unlinked]
  have hat : AtChan c [] pwmOffFlds s r := hr ▸ ((AtChan.unlinked c pwmOffFlds s x d q).pwmRegs (by decide) _).cw (by decide) 0
  have hstill : RepliesStill (s.unlinked x d q) r := hr ▸ ((RepliesStill.refl _).pwmRegs c _).cw c _ 0
  rw [hr]
  have hkept : AtChan c [] [F.CH_STATE_CMD_ON, F.CH_STATE_STATE, F.CH_STATE_SPARK_LAST, F.DMP_CH_STATUS_SHED] r
      (((r.applyOff c edge).cw c F.CH_STATE_SPARK_LAST 0).dieReply d ⟨j, stOk, 0, []⟩) :=
    (((AtChan.refl _ _ _ r).applyOff (by decide) edge).cw (by decide) 0).dieReply d _
  obtain ⟨hfreq, -, hphase, hduty'⟩ := (s.unlinked x d q).pwmRegs_holds c (pwmOf (j.pkt.p 1))
  refine ⟨DieReplied.of_still hhead ((hstill.applyOff c edge).cw c _ _), ((TurnedOff.applyOff hat (by decide) (hstored _ (by decide))
    (hstored _ (by decide))).cw (by decide) _ (by decide)).dieReply d _, (hkept.cq (by simp) (by decide)).trans ?_,
    (hkept.cq (by simp) (by decide)).trans ?_, (hkept.cq (by simp) (by decide)).trans ?_, (hkept.cq (by simp) (by decide)).trans ?_⟩
  · rw [← hr, State.cq_cw_fld _ _ _ _ (by decide), hduty', pwmOf, hduty]
    exact Nat.zero_mod _
  · rw [← hr, State.cq_cw_self, Nat.zero_mod]
  · rw [← hr, State.cq_cw_fld _ _ _ _ (by decide), hfreq]
    exact Nat.mod_mod _ _
  · rw [← hr, State.cq_cw_fld _ _ _ _ (by decide), hphase]
    exact Nat.mod_mod _ _

/-- Settles O13: both run `State.applyOff`, and what they write beside it is registers of their own. -/
theorem channelTurnOff : Obligations.ChannelTurnOff := by
  refine ⟨fun s x d j q c p hhead hc hp hmaster hhold hdie hoff hceiling => ?_,
    fun s x d j q c p hhead hc hp hmaster hhold hdie hduty hceiling => ?_⟩
  · subst hp
    obtain ⟨t, hexec, hreplied, ⟨hat, hcmd, hst, hedge, hgate, hretries⟩, hspark⟩ := exec_chSet_off hhead hmaster hc hhold hoff hceiling
    obtain ⟨hchans, honly, hmem⟩ := hat.frame
    exact ⟨t, hexec, hreplied, hcmd, hst, fun hdriven => (hedge hdriven).trans (setSlew_or _ _), hgate, hretries, hspark, hchans, honly, hmem⟩
  · subst hp
    obtain ⟨t, hexec, hreplied, ⟨hat, hcmd, hst, hedge, hgate, hretries⟩, hduty, hdeff, hfreq, hphase⟩ :=
      exec_chPwm_off hhead hmaster hc hhold hduty hceiling
    obtain ⟨hchans, honly, hmem⟩ := hat.frame
    exact ⟨t, hexec, hreplied, hcmd, hst, hedge, hduty, hdeff, hfreq, hphase, hretries, hchans, honly, hmem⟩

/-! ## A turn-on (R162, R177, R198, R207) -/

theorem State.applyOn_static {on : TurnOn} (h : s.chState c = 0 ∨ s.chState c = 8) (hpwm : on.pwm = false) :
    s.applyOn c on = s.startStatic c on 1 := by
  unfold State.applyOn
  rw [hpwm]
  exact if_pos h

theorem State.applyOn_pwm {on : TurnOn} (h : s.chState c = 0 ∨ s.chState c = 8) (hpwm : on.pwm = true) :
    s.applyOn c on = (s.pwmRegs c on).startPwm c := by
  unfold State.applyOn
  rw [hpwm]
  exact if_pos h

/-- The state in which an admitted command finds its channel. -/
def State.admits (s : State) (x : Side) (d : Nat) (q : List Job) (c : Nat) : State := (s.unlinked x d q).admitted c

theorem State.chan_admits (s : State) (x : Side) (d c : Nat) (q : List Job) : (s.admits x d q c).chan c = s.chan c :=
  ((s.unlinked x d q).chan_admitted c c).trans (s.chan_unlinked x d c q)

theorem State.cq_admits (s : State) (x : Side) (d c : Nat) (q : List Job) (g : Fld) : (s.admits x d q c).cq c g = s.cq c g :=
  ((s.unlinked x d q).cq_admitted c c g).trans (s.cq_unlinked x d c q g)

theorem State.now_admits (s : State) (x : Side) (d c : Nat) (q : List Job) : (s.admits x d q c).now = s.now :=
  (State.now_admitted _ _).trans (s.now_unlinked x d q)

theorem State.slewDef_admits (s : State) (x : Side) (d c : Nat) (q : List Job) : (s.admits x d q c).slewDef c = s.slewDef c :=
  State.slewDef_eq (congrArg Chan.record (s.chan_admits x d c q)) (s.cq_admits x d c q _)

theorem AtChan.admits (c : Nat) (l : List Fld) (s : State) (x : Side) (d : Nat) (q : List Job) : AtChan c [] l s (s.admits x d q c) :=
  (AtChan.unlinked c l s x d q).admitted c

theorem RepliesStill.admits (s : State) (x : Side) (d c : Nat) (q : List Job) : RepliesStill (s.unlinked x d q) (s.admits x d q c) :=
  (RepliesStill.refl _).admitted c

/-- A command that the Damper admits at once, at the channel that it finds in OFF or DAMPER_OFF. -/
theorem State.act_on_unlinked {on : TurnOn} {slew : Nat} (q : List Job) (hhold : (s.chan c).hold = none) (hst : s.chState c = 0 ∨ s.chState c = 8)
    (hceiling : s.ceiling c ((Act.on on).ask true j.pkt.compared slew) = none) (hjudge : s.judge c = .allow) :
    (s.unlinked x d q).act c (.on on) slew j.pkt.compared (some j) =
      (((s.admits x d q c).applyOn c on).cw c F.CH_STATE_SPARK_LAST 0, .applied) :=
  State.act_on ((congrArg Chan.hold (s.chan_unlinked x d c q)).trans hhold) (by rwa [State.chState_unlinked])
    ((s.ceiling_unlinked x d c q _).trans hceiling) ((s.judge_unlinked x d c q).trans hjudge)

theorem exec_chSet_on (hhead : s.LinkHead x d 0x201 j q) (hmaster : s.Master x d) (hc : j.pkt.target = c) (hhold : (s.chan c).hold = none)
    (hon : (j.pkt.p 1).testBit 0 = true) (hst : s.chState c = 0 ∨ s.chState c = 8)
    (hceiling : s.ceiling c ((actOfSet (j.pkt.p 1)).ask true j.pkt.compared (setSlew (j.pkt.p 1))) = none) (hjudge : s.judge c = .allow) :
    exec (.chSet x d) s = .next ((((s.admits x d q c).startStatic c ⟨false, setSlew (j.pkt.p 1), 0, 0, 0, 0⟩ 1).cw c
      F.CH_STATE_SPARK_LAST 0).dieReply d ⟨j, stOk, 0, []⟩) := by
  have hact := State.act_on_unlinked (x := x) (d := d) q hhold hst (by rwa [actOfSet_on hon] at hceiling) hjudge
  rw [State.applyOn_static (by rwa [State.chState, State.cq_admits]) rfl, ← actOfSet_on hon] at hact
  exact exec_chSet_applied hhead hmaster hc hact

theorem exec_chPwm_on (hhead : s.LinkHead x d 0x202 j q) (hmaster : s.Master x d) (hc : j.pkt.target = c) (hhold : (s.chan c).hold = none)
    (hduty : bits (j.pkt.p 1) 15 0 ≠ 0) (hst : s.chState c = 0 ∨ s.chState c = 8)
    (hceiling : s.ceiling c ((actOfPwm (j.pkt.p 1)).ask true j.pkt.compared 0) = none) (hjudge : s.judge c = .allow) :
    exec (.chPwm x d) s = .next (((((s.admits x d q c).pwmRegs c (pwmOf (j.pkt.p 1))).startPwm c).cw c
      F.CH_STATE_SPARK_LAST 0).dieReply d ⟨j, stOk, 0, []⟩) := by
  have hact := State.act_on_unlinked (x := x) (d := d) q hhold hst (by rwa [actOfPwm_on hduty] at hceiling) hjudge
  rw [State.applyOn_pwm (by rwa [State.chState, State.cq_admits]) rfl, ← actOfPwm_on hduty] at hact
  exact exec_chPwm_applied hhead hmaster hc hact

/-- The reply leaves the registers of the channel as the mark of the command's origin left them. -/
theorem State.cq_replied (s : State) (d c : Nat) (r : Reply) {g : Fld}
    (hg : g.reg ≠ F.CH_STATE_SPARK_LAST.reg ∨ g.lo ≠ F.CH_STATE_SPARK_LAST.lo) :
    ((s.cw c F.CH_STATE_SPARK_LAST 0).dieReply d r).cq c g = s.cq c g :=
  (State.cq_dieReply _ _ _ _ _).trans (State.cq_cw_fld _ _ _ _ hg)

theorem State.chan_replied (s : State) (d c : Nat) (r : Reply) : ((s.cw c F.CH_STATE_SPARK_LAST 0).dieReply d r).chan c = s.chan c :=
  (State.chan_dieReply _ _ _ _).trans (State.chan_cw _ _ _ _ _)

theorem State.cq_startPwm (s : State) (c : Nat) {g : Fld} (hg : ∀ f ∈ gotoFlds, g.reg ≠ f.reg ∨ g.lo ≠ f.lo) :
    (s.startPwm c).cq c g = (s.commanded c 1).cq c g := by
  rw [State.startPwm_eq, State.cq_setChan, State.cq_goto_fld _ _ _ _ hg]

theorem State.chState_startPwm (s : State) (c : Nat) : (s.startPwm c).chState c = 3 := by
  rw [State.startPwm_eq, State.chState, State.cq_setChan]
  exact State.chState_goto _ c (by decide)

theorem State.turnOns_startPwm (s : State) (c : Nat) : ((s.startPwm c).chan c).turnOns = (s.now :: (s.chan c).turnOns).take 1022 := by
  rw [State.startPwm_eq, State.chan_setChan_self]
  dsimp only [Chan.entered, Chan.counted]

/-- Register fields that the start of a turn-on leaves. -/
theorem State.cq_startPwm_fld (s : State) (c : Nat) {g : Fld} (hg : ∀ f ∈ beginFlds, g.reg ≠ f.reg ∨ g.lo ≠ f.lo) :
    (s.startPwm c).cq c g = s.cq c g := by
  rw [State.cq_startPwm _ _ fun f hf => hg f ((by decide : ∀ f ∈ gotoFlds, f ∈ beginFlds) f hf), State.cq_commanded_fld _ _ _ _ fun f hf =>
    hg f ((by decide : ∀ f ∈ [F.CH_STATE_CMD_ON, F.CH_STATE_MODE, F.WIRE_STATUS_TRIPPED, F.CH_TURN_ON_COUNT], f ∈ beginFlds) f hf)]

/-- Settles O14: an admitted command begins its turn-on with `State.startStatic` or `State.startPwm`. -/
theorem channelTurnOn : Obligations.ChannelTurnOn := by
  refine ⟨fun s x d j q c p hhead hc hp hmaster hhold hdie hon hst hceiling hjudge => ?_,
    fun s x d j q c p hhead hc hp hmaster hhold hdie hduty hst hceiling hjudge => ?_⟩
  · subst hp
    refine ⟨_, exec_chSet_on hhead hmaster hc hhold hon hst hceiling hjudge, ?_⟩
    obtain ⟨hchans, honly, hmem⟩ := ((((AtChan.admits c [F.CH_STATE_CMD_ON, F.CH_STATE_STATE, F.CH_STATE_MODE, F.CH_STATE_SPARK_LAST,
      F.DMP_CH_STATUS_SHED, F.WIRE_STATUS_TRIPPED, F.CH_TURN_ON_COUNT] s x d q).startStatic (by decide)
      ⟨false, setSlew (j.pkt.p 1), 0, 0, 0, 0⟩ 1).cw (f := F.CH_STATE_SPARK_LAST) (by decide) 0).dieReply d ⟨j, stOk, 0, []⟩).frame
    have hstill := ((RepliesStill.admits s x d c q).startStatic c 1 ⟨false, setSlew (j.pkt.p 1), 0, 0, 0, 0⟩).cw c F.CH_STATE_SPARK_LAST 0
    refine ⟨DieReplied.of_still hhead hstill, ?_, ?_, ?_, ?_, ?_, ?_, ?_, hchans,
      honly, hmem⟩
    · rw [State.cq_replied _ _ _ _ (by decide), State.cq_startStatic _ _ _ _ (by decide), State.cmdOn_commanded]
    · rw [State.cq_replied _ _ _ _ (by decide), State.cq_startStatic _ _ _ _ (by decide), State.mode_commanded]
    · rw [State.chState, State.cq_replied _ _ _ _ (by decide)]
      exact State.chState_startStatic _ _ _ (by decide)
    · rw [State.chan_replied, State.chan_startStatic]
      exact s.now_admits x d c q
    · rw [State.chan_replied, State.chan_startStatic, ← s.slewDef_admits x d c q]
      exact setSlew_or _ _
    · rw [State.chan_replied, State.chan_startStatic, State.chan_admits, State.now_admits]
      rfl
    · rw [State.cq_replied _ _ _ _ (by decide), State.cq_startStatic _ _ _ _ (by decide), State.turnOnCount_commanded, State.cq_admits]
  · subst hp
    refine ⟨_, exec_chPwm_on hhead hmaster hc hhold hduty hst hceiling hjudge, ?_⟩
    obtain ⟨hchans, honly, hmem⟩ := (((((AtChan.admits c [F.CH_STATE_CMD_ON, F.CH_STATE_STATE, F.CH_STATE_MODE, F.CH_STATE_SPARK_LAST,
      F.DMP_CH_STATUS_SHED, F.WIRE_STATUS_TRIPPED, F.CH_TURN_ON_COUNT, F.CH_PWM_FREQ_FREQ, F.CH_PWM_FREQ_COMP, F.CH_PWM_FREQ_PHASE,
      F.CH_PWM_DUTY_DUTY] s x d q).pwmRegs (by decide) (pwmOf (j.pkt.p 1))).startPwm (by decide)).cw (f := F.CH_STATE_SPARK_LAST) (by decide)
      0).dieReply d ⟨j, stOk, 0, []⟩).frame
    obtain ⟨hfreq, hcomp, hphase, hduty'⟩ := (s.admits x d q c).pwmRegs_holds c (pwmOf (j.pkt.p 1))
    have hstill := (((RepliesStill.admits s x d c q).pwmRegs c (pwmOf (j.pkt.p 1))).startPwm c).cw c F.CH_STATE_SPARK_LAST 0
    refine ⟨DieReplied.of_still hhead hstill, ?_, ?_, ?_, ?_, ?_, ?_, ?_, ?_,
      hchans, honly, hmem⟩
    · rw [State.cq_replied _ _ _ _ (by decide), State.cq_startPwm _ _ (by decide), State.cmdOn_commanded]
    · rw [State.cq_replied _ _ _ _ (by decide), State.cq_startPwm _ _ (by decide), State.mode_commanded]
    · rw [State.chState, State.cq_replied _ _ _ _ (by decide)]
      exact State.chState_startPwm _ _
    · rw [State.cq_replied _ _ _ _ (by decide), State.cq_startPwm_fld _ _ (by decide), hduty']
      exact Nat.mod_mod _ _
    · rw [State.cq_replied _ _ _ _ (by decide), State.cq_startPwm_fld _ _ (by decide), hfreq]
      exact Nat.mod_mod _ _
    · rw [State.cq_replied _ _ _ _ (by decide), State.cq_startPwm_fld _ _ (by decide), hcomp]
      exact Nat.mod_mod _ _
    · rw [State.cq_replied _ _ _ _ (by decide), State.cq_startPwm_fld _ _ (by decide), hphase]
      exact Nat.mod_mod _ _
    · rw [State.chan_replied, State.turnOns_startPwm, State.now_pwmRegs, State.chan_pwmRegs, State.now_admits, State.chan_admits]

end Sys2Proof.Machine
end

section
/-! Grate and Damper packets through Chromir: the settings of a channel, its measurement windows, and the queries of its die (R94, R170, R176,
R194, R195, R202, R206, R208, R217, R231). -/
namespace Sys2Proof.Machine
open Sys2Proof

variable {s t u : State} {x : Side} {j : Job} {q : List Job} {c : Nat} {l : List Fld}

/-! ## What the answer of Chromir leaves -/

theorem AnsweredIn.chans (h : AnsweredIn j u t) : t.chans = u.chans := by
  obtain ⟨-, -, -, -, -, -, -, -, hchans, -⟩ := h.rest
  exact hchans

theorem AnsweredIn.dies (h : AnsweredIn j u t) : t.dies = u.dies := by
  obtain ⟨-, -, -, -, -, -, -, hdies, -⟩ := h.rest
  exact hdies

theorem AnsweredIn.chan (h : AnsweredIn j u t) (c : Nat) : t.chan c = u.chan c := congrArg (fun m => Tab.at Chan.init m c) h.chans

theorem AnsweredIn.cq (h : AnsweredIn j u t) (c : Nat) {g : Fld} (hg : g.reg ∉ answerRegs) : t.cq c g = u.cq c g := h.get _ _ _ hg

/-! ## The state in which Chromir runs a packet -/

theorem State.chan_popped (s : State) (x : Side) (q : List Job) (c : Nat) : (s.popped x q).chan c = s.chan c := by
  rw [State.chan, State.chans_popped]
  rfl

theorem State.cq_popped (s : State) (x : Side) (q : List Job) (c : Nat) (g : Fld) : (s.popped x q).cq c g = s.cq c g := State.get_popped _ _ _ _ _ _

theorem State.hrn_popped (s : State) (x : Side) (q : List Job) (c k : Nat) : (s.popped x q).hrn c k = s.hrn c k :=
  SameCeilings.hrn (congrArg Chan.record (s.chan_popped x q c)) k

theorem State.isSafety_popped (s : State) (x : Side) (q : List Job) (c : Nat) : (s.popped x q).isSafety c = s.isSafety c := by
  rw [State.isSafety, State.hrn_popped]
  rfl

theorem State.comparedOk_popped (s : State) (x : Side) (q : List Job) (j : Job) (c : Nat) :
    (s.popped x q).comparedOk j c = s.comparedOk j c := by
  rw [State.comparedOk, State.isSafety_popped]
  rfl

theorem State.clearRefused_popped (s : State) (x : Side) (q : List Job) (c : Nat) : (s.popped x q).clearRefused c = s.clearRefused c := by
  rw [State.clearRefused, State.ci, State.chState, State.cq_popped, State.cq_popped, State.chan_popped]
  rfl

theorem State.totalWatts_popped (s : State) (x : Side) (q : List Job) : (s.popped x q).totalWatts = s.totalWatts := by
  obtain ⟨v, hv⟩ := s.popped_setSide x q
  rw [hv]
  cases x <;> rfl

theorem State.busDie_popped (s : State) (x : Side) (q : List Job) : (s.popped x q).busDie = s.busDie := by
  obtain ⟨v, hv⟩ := s.popped_setSide x q
  rw [hv]
  cases x <;> rfl

theorem State.damper_popped (s : State) (x : Side) (q : List Job) : (s.popped x q).damper = s.damper := by
  obtain ⟨v, hv⟩ := s.popped_setSide x q
  rw [hv]
  cases x <;> rfl

theorem State.die_popped (s : State) (x : Side) (q : List Job) (d : Nat) : (s.popped x q).die d = s.die d := by
  rw [State.die, State.dies_popped]
  rfl

theorem State.riding_popped (s : State) (x : Side) (q : List Job) (d : Nat) : (s.popped x q).riding d = s.riding d := by
  rw [State.riding, State.die_popped, State.die_popped]
  rfl

theorem AtChan.popped (c : Nat) (l : List Fld) (s : State) (x : Side) (q : List Job) : AtChan c [] l s (s.popped x q) := by
  obtain ⟨v, hv⟩ := s.popped_setSide x q
  rw [hv]
  exact (AtChan.refl c [] l s).setSide x v

/-! ## The die of a packet (R83, R259) -/

theorem State.onDie_present (h : s.present (dieUnit (j.pkt.target / 16)) = true) (f : State → Nat → State) : s.onDie j f = f s j.pkt.target :=
  if_pos h

theorem State.onDie_absent (h : s.present (dieUnit (j.pkt.target / 16)) = false) (f : State → Nat → State) :
    s.onDie j f = s.doneAbsent j (dieUnit (j.pkt.target / 16)) := if_neg (by simp [h])

theorem State.onMaster_popped (h : s.Master x (c / 16)) (hc : j.pkt.target = c) (hside : j.side = x) (f : State → Nat → State) :
    (s.popped x q).onMaster j f = f (s.popped x q) c := by
  obtain ⟨hpresent, hholds, hknown⟩ := h
  subst hc hside
  rw [State.onMaster, State.onDie_present (by rwa [State.present_popped]), State.asMaster, if_pos (by rwa [State.holds_popped]),
    State.die_popped, hknown]
  rfl

/-- A packet that writes registers of channel `c` and that the token's holder sent: `u` is the state that the answer is given in. -/
theorem acts_at {i : Instr} {code status detail : Nat} {words : List Nat} {P : State → Prop} {f : Job → State → Nat → State}
    (h : s.Head x code j q) (hmaster : s.Master x (c / 16)) (hc : j.pkt.target = c) (hs : status ≠ stDelayed)
    (he : exec i s = ok (s.chromir x code fun s j => s.onMaster j (f j))) (hf : f j (s.popped x q) c = u.done j status detail words)
    (hstill : RepliesStill (s.popped x q) u) (hat : AtChan c [] l (s.popped x q) u) (hl : ∀ g ∈ l, g.reg ≠ F.PAIR_CFG_MODE.reg)
    (hP : ∀ t, AnsweredIn j u t → P t) : Acts i s j q status detail words (chSpots c l) P := by
  obtain ⟨-, -, -, -, -, hside, -⟩ := id h
  refine acts_in h hs he ((State.onMaster_popped hmaster hc hside _).trans hf) (congrArg SideSt.srcs (hstill.side x))
    (congrArg SideSt.chromirQ (hstill.side x)) hat.only (fun p hp => ?_) (hat.mem.trans (State.mem_popped _ _ _)) hP
  obtain ⟨g, hg, rfl⟩ := List.mem_map.1 hp
  exact hl g hg

/-! ## Settings (R170, R176, R194, R206, R217) -/

theorem bits_lt (p hi lo : Nat) : bits p hi lo < 2 ^ (hi + 1 - lo) := Nat.mod_lt _ (Nat.two_pow_pos _)

theorem sigWord_lt (i : Int) : sigWord i < 2 ^ 40 := by
  have hpos := Int.emod_nonneg (clampInt (-(2 ^ 39)) (2 ^ 39 - 1) i) (b := 2 ^ 40) (by decide)
  have hlt := Int.emod_lt_of_pos (clampInt (-(2 ^ 39)) (2 ^ 39 - 1) i) (b := 2 ^ 40) (by decide)
  rw [sigWord, ofSigned]
  omega

/-- Register fields that a CH_CONFIG writes. -/
def configFlds : List Fld := [F.CH_ILIM_CMD, F.CH_RETRY_POLICY, F.CH_RETRY_LIMIT, F.CH_RETRY_INTERVAL, F.CH_ILIM_EFF]

/-- The settings of a CH_CONFIG with limit `p` and retry policy `r`. -/
def State.configured (s : State) (c p r : Nat) : State :=
  ((((s.cw c F.CH_ILIM_CMD p).cw c F.CH_RETRY_POLICY (bits r 3 0)).cw c F.CH_RETRY_LIMIT (bits r 7 4)).cw c F.CH_RETRY_INTERVAL
    (bits r 23 8)).limitEff c

theorem AtChan.configured {n : List Spot} (h : AtChan c n l s t) (hl : ∀ f ∈ configFlds, f ∈ l) (p r : Nat) :
    AtChan c n l s (t.configured c p r) :=
  ((((h.cw (hl _ (by decide)) _).cw (hl _ (by decide)) _).cw (hl _ (by decide)) _).cw (hl _ (by decide)) _).cw (hl _ (by decide)) _

theorem RepliesStill.configured (h : RepliesStill s t) (c p r : Nat) : RepliesStill s (t.configured c p r) :=
  ((((h.cw c _ _).cw c _ _).cw c _ _).cw c _ _).cw c _ _

theorem State.chans_configured (s : State) (c p r : Nat) : (s.configured c p r).chans = s.chans := by
  simp only [State.configured, State.limitEff, State.cw, State.chans_set]

theorem State.configured_holds (s : State) (c p r : Nat) : (s.configured c p r).cq c F.CH_ILIM_CMD = p % 2 ^ 40 ∧
    (s.configured c p r).cq c F.CH_RETRY_POLICY = bits r 3 0 % 2 ^ F.CH_RETRY_POLICY.width ∧
    (s.configured c p r).cq c F.CH_RETRY_LIMIT = bits r 7 4 ∧ (s.configured c p r).cq c F.CH_RETRY_INTERVAL = bits r 23 8 ∧
    (s.configured c p r).cq c F.CH_ILIM_EFF = sigWord (min (sigInt (p % 2 ^ 40)) (min (s.ci c F.CH_ILIM_CEIL) (sigInt (s.hrn c 1)))) := by
  unfold State.configured State.limitEff
  refine ⟨?_, ?_, ?_, ?_, ?_⟩
  · rw [State.cq_cw_fld _ _ _ _ (by decide), State.cq_cw_fld _ _ _ _ (by decide), State.cq_cw_fld _ _ _ _ (by decide),
      State.cq_cw_fld _ _ _ _ (by decide)]
    exact State.cq_cw_self _ _ _ _
  · rw [State.cq_cw_fld _ _ _ _ (by decide), State.cq_cw_fld _ _ _ _ (by decide), State.cq_cw_fld _ _ _ _ (by decide)]
    exact State.cq_cw_self _ _ _ _
  · rw [State.cq_cw_fld _ _ _ _ (by decide), State.cq_cw_fld _ _ _ _ (by decide)]
    exact (State.cq_cw_self _ _ _ _).trans (Nat.mod_eq_of_lt (bits_lt _ _ _))
  · rw [State.cq_cw_fld _ _ _ _ (by decide)]
    exact (State.cq_cw_self _ _ _ _).trans (Nat.mod_eq_of_lt (bits_lt _ _ _))
  · have hhrn (t : State) (f : Fld) (v : Nat) : (t.cw c f v).hrn c 1 = t.hrn c 1 := rfl
    rw [State.cq_cw_self, State.ci, State.ci, State.cq_cw_fld _ _ _ _ (by decide), State.cq_cw_fld _ _ _ _ (by decide),
      State.cq_cw_fld _ _ _ _ (by decide), State.cq_cw_self, State.cq_cw_fld _ _ _ _ (by decide), State.cq_cw_fld _ _ _ _ (by decide),
      State.cq_cw_fld _ _ _ _ (by decide), State.cq_cw_fld _ _ _ _ (by decide), hhrn, hhrn, hhrn, hhrn]
    exact Nat.mod_eq_of_lt (sigWord_lt _)

theorem RepliesStill.limitRefused (h : RepliesStill s t) (c : Nat) : RepliesStill s (t.limitRefused c) :=
  ⟨fun x => Eq.trans (by cases x <;> rfl) (h.side x), h.out⟩

/-- A LATCHED channel cleared, with its diagnostic flags if asked (R176, R186). -/
def State.cleared (s : State) (c : Nat) (diag : Bool) : State :=
  if diag then ((s.cmdOff c).goto c 0).cw c F.CH_DIAG 0 else (s.cmdOff c).goto c 0

/-- Register fields of that. -/
def clearFlds : List Fld := [F.CH_STATE_STATE, F.CH_STATE_CMD_ON, F.CH_DIAG, F.DMP_CH_STATUS_SHED]

theorem RepliesStill.cleared (h : RepliesStill s t) (c : Nat) (diag : Bool) : RepliesStill s (t.cleared c diag) := by
  have hoff : RepliesStill s ((t.cmdOff c).goto c 0) := ((h.cw c _ 0).setChan c _).goto c 0
  cases diag
  · exact hoff
  · exact hoff.cw c _ 0

theorem State.cleared_at (s : State) (c : Nat) (diag : Bool) : AtChan c [] clearFlds s (s.cleared c diag) := by
  have hoff : AtChan c [] clearFlds s ((s.cmdOff c).goto c 0) :=
    (((AtChan.refl c [] clearFlds s).cw (f := F.CH_STATE_CMD_ON) (by decide) 0).setChan _).goto (by decide) 0
  cases diag
  · exact hoff
  · exact hoff.cw (by decide) 0

theorem State.cleared_holds (s : State) (c : Nat) (diag : Bool) : (s.cleared c diag).chState c = 0 ∧
    (s.cleared c diag).cq c F.CH_STATE_CMD_ON = 0 ∧ ((s.cleared c diag).chan c).retries = 0 ∧
    (s.cleared c diag).cq c F.CH_DIAG = if diag then 0 else s.cq c F.CH_DIAG := by
  have hst : ((s.cmdOff c).goto c 0).chState c = 0 := State.chState_goto _ _ (by decide)
  have hcmd : ((s.cmdOff c).goto c 0).cq c F.CH_STATE_CMD_ON = 0 :=
    (State.cq_goto_fld _ _ _ _ (by decide)).trans (s.cq_cmdOn_cmdOff c)
  have hretries : (((s.cmdOff c).goto c 0).chan c).retries = 0 := by
    rw [State.chan_goto, State.chan_cmdOff]
    rfl
  have hdiag : ((s.cmdOff c).goto c 0).cq c F.CH_DIAG = s.cq c F.CH_DIAG :=
    (State.cq_goto_fld _ _ _ _ (by decide)).trans ((s.cq_cmdOff c c _).trans (State.cq_cw_fld _ _ _ _ (by decide)))
  cases diag
  · exact ⟨hst, hcmd, hretries, hdiag⟩
  · exact ⟨(State.chState_cw _ _ _ _ (by decide)).trans hst, (State.cq_cw_fld _ _ _ _ (by decide)).trans hcmd,
      (congrArg Chan.retries (State.chan_cw _ _ _ _ _)).trans hretries, State.cq_cw_self _ _ _ _⟩

/-- Settles O17: each packet runs in the state in which Chromir has taken it, and writes registers of its channel there (`acts_at`). -/
theorem channelSettings : Obligations.ChannelSettings := by
  refine ⟨fun s x j q c p h hmaster hc hp hok hle => ?_, fun s x j q c p h hmaster hc hp hok hlt => ?_,
    fun s x j q c p h hmaster hc hp hok hsafe => ?_, fun s x j q c p h hmaster hc hp hok hlatch hst hclear => ?_⟩ <;> subst hp
  · have hf := (s.popped x q).configured_holds c (j.pkt.p 1) (j.pkt.p 2)
    rw [State.ci, State.cq_popped, State.hrn_popped] at hf
    obtain ⟨hcmd, hpolicy, hlimit, hinterval, heff⟩ := hf
    refine acts_at (u := (s.popped x q).configured c (j.pkt.p 1) (j.pkt.p 2)) h hmaster hc (by decide) rfl ?_ ((RepliesStill.refl _).configured c _ _)
      ((AtChan.refl _ _ _ _).configured (by decide) _ _) (by decide) fun t ht => ?_
    · exact (if_neg (by rw [State.comparedOk_popped, hok]; simp)).trans (if_neg (by rw [State.hrn_popped]; omega))
    · rw [ht.cq c (by decide), ht.cq c (by decide), ht.cq c (by decide), ht.cq c (by decide), ht.cq c (by decide)]
      exact ⟨hcmd, hpolicy, hlimit, hinterval, heff, ht.chans.trans ((State.chans_configured _ _ _ _).trans (State.chans_popped _ _ _))⟩
  · obtain ⟨-, -, -, -, -, hside, -⟩ := id h
    have hstill : RepliesStill (s.popped x q) ((s.popped x q).limitRefused c) := (RepliesStill.refl _).limitRefused c
    refine acts_in (u := (s.popped x q).limitRefused c) h (by decide) rfl ((State.onMaster_popped hmaster hc hside _).trans ?_)
      (congrArg SideSt.srcs (hstill.side x)) (congrArg SideSt.chromirQ (hstill.side x)) ?_ ?_ ?_
      fun t ht => by rw [ht.chans, State.limitRefused, State.cn, State.chans_inc, State.chans_inc, State.chans_popped]
    · exact (if_neg (by rw [State.comparedOk_popped, hok]; simp)).trans (if_pos (by rwa [State.hrn_popped]))
    · exact (Only.set (by simp)).trans (Only.set (by simp))
    · simp
      decide
    · exact State.mem_popped _ _ _
  · refine acts_at (u := ((s.popped x q).cw c F.DMP_CH_CFG_PRIO (bits (j.pkt.p 1) 1 0)).cw c F.DMP_CH_CFG_HOLD (bits (j.pkt.p 1) 28 16)) h hmaster
      hc (by decide) rfl ?_ (((RepliesStill.refl _).cw c _ _).cw c _ _) (((AtChan.refl _ _ _ _).cw (by decide) _).cw (by decide) _) (by decide)
      fun t ht => ?_
    · exact (if_neg (by rw [State.comparedOk_popped, hok]; simp)).trans (if_neg (by rwa [State.isSafety_popped]))
    · rw [ht.cq c (by decide), ht.cq c (by decide), State.cq_cw_self, State.cq_cw_fld _ _ _ _ (by decide), State.cq_cw_self]
      refine ⟨Nat.mod_eq_of_lt (bits_lt _ _ _), Nat.mod_eq_of_lt (bits_lt _ _ _), ?_⟩
      rw [ht.chans, State.cw, State.chans_set, State.cw, State.chans_set, State.chans_popped]
  · obtain ⟨hoff, hcmd, hretries, hdiag⟩ := (s.popped x q).cleared_holds c ((j.pkt.p 1).testBit 1)
    have hat := (AtChan.popped c clearFlds s x q).trans ((s.popped x q).cleared_at c ((j.pkt.p 1).testBit 1))
    refine acts_at (u := (s.popped x q).cleared c ((j.pkt.p 1).testBit 1)) h hmaster hc (by decide) rfl ?_ ((RepliesStill.refl _).cleared c _)
      ((s.popped x q).cleared_at c _) (by decide) fun t ht => ?_
    · have hst' : (s.popped x q).chState c = 7 := (s.cq_popped x q c _).trans hst
      have hrun : (((s.popped x q).cmdOff c).goto c 0).chState c = 0 := State.chState_goto _ _ (by decide)
      refine (if_neg (by rw [State.comparedOk_popped, hok]; simp)).trans ?_
      rw [hlatch, if_pos rfl, State.clearRefused_popped, hclear]
      dsimp only
      simp only [hst', hrun, and_self, if_true, OfNat.zero_ne_ofNat, false_and, if_false, State.cleared]
    · rw [State.chState, ht.cq c (by decide), ht.cq c (by decide), ht.cq c (by decide), ht.chan]
      exact ⟨hoff, hcmd, hretries, hdiag.trans (by rw [State.cq_popped]), fun b hb => (ht.chan b).trans (hat.chans b hb)⟩

end Sys2Proof.Machine
end

section
/-! The measurement windows of a channel, and the queries of its die (R94, R195, R202, R231), with the obligation on them. -/
namespace Sys2Proof.Machine
open Sys2Proof

variable {s t u : State} {x : Side} {j : Job} {q : List Job} {c : Nat}

/-- A packet that only answers, in a state that shows its words. -/
theorem acts_query {i : Instr} {code : Nat} {words : List Nat} {f : State → Job → State} (h : s.Head x code j q)
    (he : exec i s = ok (s.chromir x code f)) (hf : f (s.popped x q) j = (s.popped x q).done j stOk 0 words) :
    Acts i s j q stOk 0 words [] fun t => t.chans = s.chans ∧ t.dies = s.dies :=
  acts_in h (by decide) he hf rfl rfl (Only.refl _ _) (by simp) (State.mem_popped _ _ _) fun _ ht =>
    ⟨ht.chans.trans (State.chans_popped _ _ _), ht.dies.trans (State.dies_popped _ _ _)⟩

/-- The windows of channel `c` with one more, of `ticks` ticks, that packet `j` opens. -/
def State.windowOpened (s : State) (c : Nat) (j : Job) (ticks : Nat) : State :=
  s.setChan c { s.chan c with measures := (s.chan c).measures ++ [⟨j, ticks, [], 0, 0⟩] }

theorem exec_chMeasure (h : s.Head x 0x207 j q) (hc : j.pkt.target = c) (hpresent : s.present (dieUnit (c / 16)) = true) :
    exec (.chMeasure x) s = .next ((s.popped x q).windowOpened c j (bits (j.pkt.p 1) 6 0)) := by
  subst hc
  exact congrArg ok ((s.chromir_head (x := x) (q := q) _ h).1.trans (State.onDie_present (by rwa [State.present_popped]) _))

/-- The channel whose first full window, of packet `m.job`, is answered. -/
theorem exec_chMeasureWindowEnd {d : Fin 4} {n : Fin 16} {m : Measure} (hc : 16 * d.val + n.val = c)
    (hm : (s.chan c).measures.find? (fun m => decide (m.window ≤ m.taken.length)) = some m) : exec (.chMeasureWindowEnd d n) s =
      .next ((s.setChan c { s.chan c with measures := (s.chan c).measures.filter fun k => k.job != m.job }).done m.job stOk 0
        (measureWords m)) := by
  subst hc
  have hexec : exec (.chMeasureWindowEnd d n) s = execChMeasureWindowEnd d n s := rfl
  rw [hexec, execChMeasureWindowEnd]
  dsimp only
  rw [hm]
  rfl

/-- Settles O18: the queries answer registers of the state in which Chromir runs them, which are those of `s`. -/
theorem channelMeasurements : Obligations.ChannelMeasurements := by
  refine ⟨fun s x j q c p h hc hp hpresent => ?_, fun s d n c m hc hm hopen => ?_, fun s x j q c h hc hpresent => ?_,
    fun s x j q c h hc hpresent => ?_, fun s x j q h => ?_, fun s x j q c h hc habsent => ?_⟩
  · subst hp
    obtain ⟨-, hdown, -, -, -, hside, -⟩ := id h
    have hat := (AtChan.popped c [] s x q).setChan { (s.popped x q).chan c with
      measures := ((s.popped x q).chan c).measures ++ [⟨j, bits (j.pkt.p 1) 6 0, [], 0, 0⟩] }
    obtain ⟨hchans, honly, hmem⟩ := hat.frame
    have hsides : ((s.popped x q).windowOpened c j (bits (j.pkt.p 1) 6 0)).side x = (s.popped x q).side x := State.side_setChan _ _ _ _
    refine ⟨_, exec_chMeasure h hc hpresent, ?_, ?_, ?_, hchans, honly, hmem⟩
    · subst hside
      rw [Unanswered, State.src, hsides]
      exact State.src_popped hdown _
    · rw [hsides, State.side_popped hdown]
    · rw [State.windowOpened, State.chan_setChan_self, State.chan_popped]
  · refine ⟨_, exec_chMeasureWindowEnd hc hm, ?_⟩
    obtain ⟨r, hr⟩ : ∃ r, s.setChan c { s.chan c with measures := (s.chan c).measures.filter fun k => k.job != m.job } = r := ⟨_, rfl⟩
    have hsrc : r.src m.job.side m.job.src = s.src m.job.side m.job.src := by rw [← hr, State.src_setChan]
    have hget (k : Holder) (g : Fld) (i : Nat) : r.get k g i = s.get k g i := by rw [← hr, State.get_setChan]
    obtain ⟨hreplied, honly, hrest, -⟩ := State.done_open (status := stOk) (detail := 0) (words := measureWords m)
      (hopen.of hsrc (hget _ _ _) (hget _ _ _)) (by decide)
    obtain ⟨-, -, -, hmem, -, -, -, -, hchans, -⟩ := hrest
    have hchan (b : Nat) : (r.done m.job stOk 0 (measureWords m)).chan b = r.chan b := congrArg (fun m => Tab.at Chan.init m b) hchans
    rw [hr]
    refine ⟨hreplied.of hsrc, ?_, fun b hb => ?_, fun k g i hn => (honly k g i hn).trans (hget k g i), MemSame.of_mem (hmem.trans ?_)⟩
    · rw [hchan, ← hr, State.chan_setChan_self]
    · rw [hchan, ← hr, State.chan_setChan, if_neg (by simpa using hb)]
    · rw [← hr]
      rfl
  · subst hc
    refine acts_query h rfl ((State.onDie_present (by rwa [State.present_popped]) _).trans ?_)
    rw [State.cq_popped, State.hrn_popped, State.cq_popped, State.cq_popped]
  · subst hc
    refine acts_query h rfl ((State.onDie_present (by rwa [State.present_popped]) _).trans ?_)
    rw [State.chan_popped]
  · refine acts_query h rfl ?_
    simp only [State.get_popped, State.totalWatts_popped, State.busDie_popped, State.damper_popped, State.riding_popped]
  · subst hc
    obtain ⟨-, -, -, -, -, hside, -⟩ := id h
    subst hside
    refine acts_in (u := (s.popped j.side q).inc (.side j.side) F.FAB_PROXY_ABSENT 0) h (by decide) rfl
      (State.onDie_absent (by rwa [State.present_popped]) _) ?_ ?_ (Only.set (by simp)) ?_ (State.mem_popped _ _ _) fun t ht =>
        ⟨ht.chans.trans (State.chans_popped _ _ _), ?_⟩
    · rw [State.side_inc]
    · rw [State.side_inc]
    · simp
      decide
    · rw [ht.get _ _ _ (by decide)]
      exact (State.get_set_self _ _ _ _ _).trans (by rw [State.get_popped])

end Sys2Proof.Machine
end

section
/-! The inputs of a side, a gap of a die's posts, and the scrubber (R29, R54, R195, R500, R501). -/
namespace Sys2Proof.Machine
open Sys2Proof

variable {s t u : State} {x : Side} {l : List Spot}

/-! ## What an event of one side leaves -/

/-- Of all but side `x`'s own state, only the register fields `l` change. -/
structure WithinSide (x : Side) (l : List Spot) (s t : State) : Prop where
  only : Only l s t
  rest : SideOnly x s t

theorem WithinSide.refl (x : Side) (l : List Spot) (s : State) : WithinSide x l s s := ⟨Only.refl l s, SideOnly.refl x s⟩

theorem WithinSide.trans (h : WithinSide x l s t) (k : WithinSide x l t u) : WithinSide x l s u := ⟨h.only.trans k.only, h.rest.trans k.rest⟩

theorem WithinSide.mono {m : List Spot} (h : WithinSide x l s t) (hl : ∀ p ∈ l, p ∈ m) : WithinSide x m s t := ⟨h.only.mono hl, h.rest⟩

theorem WithinSide.set (h : WithinSide x l s t) {k : Holder} {f : Fld} {i : Nat} (hl : (k, f, i) ∈ l) (v : Nat) :
    WithinSide x l s (t.set k f i v) := h.trans ⟨Only.set hl, SideOnly.set _ _ _ _ _⟩

theorem WithinSide.setSide (h : WithinSide x l s t) (v : SideSt) : WithinSide x l s (t.setSide x v) :=
  h.trans ⟨Only.of_regs (State.regs_setSide _ _ _), SideOnly.setSide x v⟩

theorem WithinSide.intr (h : WithinSide x l s t) {n : Nat} (hl : (.side x, F.INTR_PENDING, n / 32) ∈ l) : WithinSide x l s (t.intr x n) :=
  h.trans ⟨Only.intr hl, SideOnly.intr _ _ _⟩

theorem WithinSide.log (h : WithinSide x l s t) (hl : ∀ p ∈ logFields x, p ∈ l) (code prod : Nat) (args : List Arg) :
    WithinSide x l s (t.log x code prod args) := by
  obtain ⟨honly, hrest⟩ := State.log_logOnly (s := t) x code prod args
  exact h.trans ⟨honly.mono hl, hrest⟩

/-! ## The scrubber (R29) -/

theorem State.seq_ashFill (s : State) (x : Side) (old : State) : (s.ashFill x old).get (.side x) F.ASH_SEQ 0 = s.get (.side x) F.ASH_SEQ 0 := by
  unfold State.ashFill
  split
  · exact (Only.intr (List.mem_singleton.2 rfl)).get_fld (by simp; decide) |>.trans (State.get_set_fld _ _ _ _ _ _ _ _ (by decide))
  · rfl

theorem State.seq_ashPut (s : State) (x : Side) (prod : Nat) (e : LogEntry) :
    (s.ashPut x prod e).get (.side x) F.ASH_SEQ 0 = (s.get (.side x) F.ASH_SEQ 0 + 1) % 2 ^ F.ASH_SEQ.width := by
  have hput : ∀ v n old, (((s.setSide x v).set (.side x) F.ASH_SEQ 0 n).ashFill x old).get (.side x) F.ASH_SEQ 0 = n % 2 ^ F.ASH_SEQ.width :=
    fun _ _ _ => (State.seq_ashFill _ _ _).trans (State.get_set_self _ _ _ _ _)
  unfold State.ashPut
  dsimp only
  split
  · exact (State.get_set_fld _ _ _ _ _ _ _ _ (by decide)).trans ((State.get_set_fld _ _ _ _ _ _ _ _ (by decide)).trans (hput _ _ _))
  · exact hput _ _ _

/-- An entry of one wide argument takes one place of the log. -/
theorem State.seq_log_wide (h : s.fabric x = true) (code prod v : Nat) :
    (s.log x code prod [.wide v]).get (.side x) F.ASH_SEQ 0 = (s.get (.side x) F.ASH_SEQ 0 + 1) % 2 ^ F.ASH_SEQ.width := by
  unfold State.log
  rw [if_neg (by simp [h])]
  exact s.seq_ashPut x prod _

theorem exec_eccScrub (h : s.fabric x = true) (v : Word40) (bad : List Word40) : exec (.eccScrub x v bad) s =
    .next ((s.add (.side x) F.TALLY_ECC_SCRUB_CORR 0 v.toNat).each bad fun s a => s.eccSeen x a.toNat .lost) :=
  congrArg ok (if_neg (by simp [h]))

theorem State.eccSeen_lost {a : Nat} (h : inDdr a 1 = true) :
    s.eccSeen x a .lost = (s.inc (.side x) F.TALLY_ECC_DDR_UNCORR 0).log x 0x002 0 [.wide a] := by
  rw [State.eccSeen, h]
  rfl

/-! ## Digital inputs (R234, R499, R501) -/

theorem WithinSide.sparkPin (h : WithinSide x l s t) (n : Nat) (level : Bool) : WithinSide x l s (t.sparkPin x n level) := by
  unfold State.sparkPin State.sparkPost
  split
  · exact h.setSide _
  · exact h

theorem State.get_sparkPin (s : State) (x : Side) (n : Nat) (level : Bool) (k : Holder) (g : Fld) (i : Nat) :
    (s.sparkPin x n level).get k g i = s.get k g i := by
  unfold State.sparkPin State.sparkPost
  split
  · exact State.get_setSide _ _ _ _ _ _
  · rfl

/-- The level of digital input `n`, and the event of its matcher. -/
def State.pinned (s : State) (x : Side) (n : Nat) (level : Bool) : State :=
  State.sparkPin (if level then s.setBit (.side x) F.IN_DIN_STATE 0 n else s.clearBit (.side x) F.IN_DIN_STATE 0 n) x n level

theorem State.level_pinned (s : State) (x : Side) {n : Nat} (hn : n < 16) (level : Bool) :
    ((s.pinned x n level).get (.side x) F.IN_DIN_STATE 0).testBit n = level := by
  rw [State.pinned, State.get_sparkPin]
  cases level
  · exact (congrArg (fun w => Nat.testBit w n) (State.get_set_self _ _ _ _ _)).trans ((testBit_mod _ 16 n hn).trans (testBit_clearBit _ _))
  · exact (congrArg (fun w => Nat.testBit w n) (State.get_set_self _ _ _ _ _)).trans ((testBit_mod _ 16 n hn).trans (testBit_setBit _ _))

theorem State.get_pinned (s : State) (x : Side) (n : Nat) (level : Bool) {g : Fld} (k : Holder) (i : Nat) (hg : g.reg ≠ F.IN_DIN_STATE.reg) :
    (s.pinned x n level).get k g i = s.get k g i := by
  rw [State.pinned, State.get_sparkPin]
  cases level <;> exact State.get_set_fld _ _ _ _ _ _ _ _ (.inl hg)

theorem WithinSide.pinned (h : WithinSide x l s t) (hl : (.side x, F.IN_DIN_STATE, 0) ∈ l) (n : Nat) (level : Bool) :
    WithinSide x l s (t.pinned x n level) := by
  unfold State.pinned
  cases level
  · exact (h.set hl _).sparkPin n _
  · exact (h.set hl _).sparkPin n _

theorem exec_dinEdge {n : Fin 16} {b : Bool} (hf : s.fabric x = true) (h : (s.get (.side x) F.IN_DIN_STATE 0).testBit n ≠ b) :
    exec (.dinEdge x n b) s = .next (if (s.get (.side x) F.IN_DIN_CFG_IRQ_EDGE n).testBit (if b then 0 else 1) then
      ((s.pinned x n b).setBit (.side x) F.IN_DIN_EVT 0 n).intr x 81 else s.pinned x n b) := by
  have hexec : exec (.dinEdge x n b) s = ok (if ¬ s.fabric x ∨ (s.get (.side x) F.IN_DIN_STATE 0).testBit n = b then s else
      if ((s.pinned x n b).get (.side x) F.IN_DIN_CFG_IRQ_EDGE n).testBit (if b then 0 else 1) then
        ((s.pinned x n b).setBit (.side x) F.IN_DIN_EVT 0 n).intr x 81 else s.pinned x n b) := rfl
  rw [hexec, if_neg (by simp [hf, h]), s.get_pinned x n b _ _ (by decide)]
  rfl

/-! ## Analogue inputs (R500, R501) -/

section Turns

variable {α β : Type} {view : State → Nat → α} {f : State → Nat × β → State} {P : State → Prop} {val : Nat × β → α}
  {ps : List (Nat × β)}

/-- A loop over numbered samples, each turn of which sets what its own number shows: it shows that afterwards. -/
theorem State.each_samples (hP : ∀ s p, P s → P (f s p)) (hown : ∀ s p, P s → view (f s p) p.1 = val p)
    (hother : ∀ s p b, b ≠ p.1 → view (f s p) b = view s b) (hnodup : (ps.map Prod.fst).Nodup) {p : Nat × β} (hp : p ∈ ps) (s : State)
    (hs : P s) : view (s.each ps f) p.1 = val p := by
  induction ps generalizing s with
  | nil => cases hp
  | cons a l ih =>
    obtain ⟨ha, hl⟩ := List.nodup_cons.1 hnodup
    rcases List.mem_cons.1 hp with rfl | hp
    · have hkeep : ∀ (l : List (Nat × β)) (s : State), p.1 ∉ l.map Prod.fst → view (s.each l f) p.1 = view s p.1 := by
        intro l
        induction l with
        | nil => exact fun _ _ => rfl
        | cons b l ih =>
          intro s h
          rw [List.map_cons, List.mem_cons, not_or] at h
          exact (ih (f s b) h.2).trans (hother s b p.1 h.1)
      exact (hkeep l (f s p) ha).trans (hown s p hs)
    · exact ih hl hp (f s a) (hP s a hs)

end Turns

theorem mem_zip_of_getElem? {β : Type} {cs : List Nat} {bs : List β} {k c : Nat} {v : β} (hc : cs[k]? = some c) (hv : bs[k]? = some v) :
    (c, v) ∈ cs.zip bs := List.mem_of_getElem? (List.getElem?_zip_eq_some.2 ⟨hc, hv⟩)

/-- `t` shows the analogue inputs of side `x` the settings and the calibration that `s` shows them. -/
structure SameAin (x : Side) (s t : State) : Prop where
  range : ∀ k, t.get (.side x) F.IN_AIN_CFG_RANGE k = s.get (.side x) F.IN_AIN_CFG_RANGE k
  idle : (t.side x).calIdle = (s.side x).calIdle
  old : (t.side x).calOld = (s.side x).calOld
  mem : t.mem = s.mem

theorem SameAin.refl (x : Side) (s : State) : SameAin x s s := ⟨fun _ => rfl, rfl, rfl, rfl⟩

theorem SameAin.trans (h : SameAin x s t) (k : SameAin x t u) : SameAin x s u :=
  ⟨fun n => (k.range n).trans (h.range n), k.idle.trans h.idle, k.old.trans h.old, k.mem.trans h.mem⟩

theorem SameAin.ainValue (h : SameAin x s t) (k : Nat) (v : Int) : t.ainValue x k v = s.ainValue x k v := by
  obtain ⟨hrange, hidle, hold, hmem⟩ := h
  simp only [State.ainValue, State.sideCal, State.calWord, State.calItem, State.calAddr, State.loadLE, State.load, State.byte, hrange, hidle,
    hold, hmem]

/-- The value and the band of an analogue input, without the event of a crossing. -/
def State.ainStored (s : State) (x : Side) (k : Nat) (v : Int) : State :=
  let r := s.set (.side x) F.IN_AIN k (sigWord (s.ainValue x k v))
  r.setSide x { r.side x with ainState := Tab.put 0 (r.side x).ainState k (s.ainBand x k (s.ainValue x k v)) }

theorem State.ainOne_cases (s : State) (x : Side) (k : Nat) (v : Int) : s.ainOne x k v = s.ainStored x k v ∨
    s.ainOne x k v = (s.ainStored x k v).setBit (.side x) F.IN_AIN_EVT 0 k ∨
    s.ainOne x k v = ((s.ainStored x k v).setBit (.side x) F.IN_AIN_EVT 0 k).intr x 82 := by
  unfold State.ainOne
  dsimp only
  split
  · exact .inl rfl
  · split
    · exact .inr (.inr rfl)
    · exact .inr (.inl rfl)

theorem State.ainOne_rest (s : State) (x : Side) (k : Nat) (v : Int) : SideOnly x s (s.ainOne x k v) := by
  have hstored : SideOnly x s (s.ainStored x k v) := (SideOnly.set _ _ _ _ _).trans (SideOnly.setSide _ _)
  obtain h | h | h := s.ainOne_cases x k v <;> rw [h]
  · exact hstored
  · exact hstored.trans (SideOnly.set _ _ _ _ _)
  · exact (hstored.trans (SideOnly.set _ _ _ _ _)).trans (SideOnly.intr _ _ _)

theorem State.ainOne_keeps (s : State) (x : Side) (k : Nat) (v : Int) {f : Fld} (i : Nat)
    (hf : f.reg ≠ F.IN_AIN_EVT.reg ∧ f.reg ≠ F.INTR_PENDING.reg) :
    (s.ainOne x k v).get (.side x) f i = (s.ainStored x k v).get (.side x) f i := by
  obtain ⟨hevt, hpending⟩ := hf
  have hset : ((s.ainStored x k v).setBit (.side x) F.IN_AIN_EVT 0 k).get (.side x) f i = (s.ainStored x k v).get (.side x) f i :=
    State.get_set_fld _ _ _ _ _ _ _ _ (.inl hevt)
  obtain h | h | h := s.ainOne_cases x k v <;> rw [h]
  · exact hset
  · exact ((Only.intr (List.mem_singleton.2 rfl)).get_fld (by simpa using .inl hpending)).trans hset

theorem State.get_ainStored (s : State) (x : Side) (k : Nat) (v : Int) (f : Fld) (i : Nat) :
    (s.ainStored x k v).get (.side x) f i = (s.set (.side x) F.IN_AIN k (sigWord (s.ainValue x k v))).get (.side x) f i :=
  State.get_setSide _ _ _ _ _ _

theorem State.ainOne_same (s : State) (x : Side) (k : Nat) (v : Int) : SameAin x s (s.ainOne x k v) := by
  have hsides : ((s.ainOne x k v).side x) = (s.ainStored x k v).side x := by
    obtain h | h | h := s.ainOne_cases x k v <;> rw [h]
    · exact State.side_set _ _ _ _ _ _
    · exact (State.side_intr _ _ _).trans (State.side_set _ _ _ _ _ _)
  have hstored : (s.ainStored x k v).side x = { s.side x with ainState := ((s.ainStored x k v).side x).ainState } := by
    rw [State.ainStored, State.side_setSide_self, State.side_set]
  refine ⟨fun i => ?_, ?_, ?_, (s.ainOne_rest x k v).2.2.2.1⟩
  · rw [s.ainOne_keeps x k v i (by decide), State.get_ainStored, State.get_set_fld _ _ _ _ _ _ _ _ (by decide)]
  · rw [hsides, hstored]
  · rw [hsides, hstored]

theorem State.ain_ainOne (s : State) (x : Side) (k : Nat) (v : Int) : (s.ainOne x k v).get (.side x) F.IN_AIN k = sigWord (s.ainValue x k v) := by
  rw [s.ainOne_keeps x k v k (by decide), State.get_ainStored, State.get_set_self]
  exact Nat.mod_eq_of_lt (sigWord_lt _)

theorem State.ain_ainOne_ne (s : State) (x : Side) {k b : Nat} (v : Int) (h : b ≠ k) :
    (s.ainOne x k v).get (.side x) F.IN_AIN b = s.get (.side x) F.IN_AIN b := by
  rw [s.ainOne_keeps x k v b (by decide), State.get_ainStored, State.get_set_idx _ _ _ _ _ _ _ _ h]

/-- All analogue inputs at a sample tick. -/
def State.ainAll (s : State) (x : Side) (l : List Word40) : State :=
  s.each ((List.range 24).zip l) fun s p => s.ainOne x p.1 (sigInt p.2.toNat)

theorem State.ain_ainAll {l : List Word40} {k : Nat} {v : Word40} (s : State) (x : Side) (hl : l.length = 24) (hv : l[k]? = some v) :
    (s.ainAll x l).get (.side x) F.IN_AIN k = sigWord (s.ainValue x k (sigInt v.toNat)) := by
  have hk : k < 24 := hl ▸ (List.getElem?_eq_some_iff.1 hv).1
  have hmem : (k, v) ∈ (List.range 24).zip l := mem_zip_of_getElem? (List.getElem?_range hk) hv
  have hnodup : (((List.range 24).zip l).map Prod.fst).Nodup := by
    rw [List.map_fst_zip (by simp [hl])]
    exact List.nodup_range
  exact State.each_samples (view := fun s k => s.get (.side x) F.IN_AIN k) (f := fun s (p : Nat × Word40) => s.ainOne x p.1 (sigInt p.2.toNat))
    (P := SameAin x s) (val := fun p => sigWord (s.ainValue x p.1 (sigInt p.2.toNat))) (fun t p h => h.trans (t.ainOne_same x _ _))
    (fun t p h => (t.ain_ainOne x _ _).trans (congrArg sigWord (h.ainValue _ _))) (fun t p b h => t.ain_ainOne_ne x _ h) hnodup hmem s
    (SameAin.refl x s)

theorem State.ainAll_rest (s : State) (x : Side) (l : List Word40) : SideOnly x s (s.ainAll x l) :=
  State.each_keeps (P := SideOnly x s) (fun t _ h => h.trans (t.ainOne_rest x _ _)) _ (SideOnly.refl x s)

/-! ## The signal plane takes words (R48, R52, R53) -/

theorem State.planeSend_side (x : Side) (p : Nat) : ∀ (n : Nat) (s : State), ∃ v, s.planeSend x p n = s.setSide x v
  | 0, s => ⟨s.side x, by cases x <;> rfl⟩
  | n + 1, s => by
    unfold State.planeSend
    dsimp only
    split
    · split
      · obtain ⟨v, hv⟩ := State.planeSend_side x p n (s.setSide x { s.side x with
          plane := (s.side x).plane ++ [⟨p, ((s.side x).plane.filter fun w => w.prod == p).foldl (fun c w => max c (w.cycle + 1))
            ((s.now + planeTransport p) / 2), _, _⟩], planeWait := Tab.put [] (s.side x).planeWait p _ })
        exact ⟨v, hv.trans (by cases x <;> rfl)⟩
      · exact ⟨s.side x, by cases x <;> rfl⟩
    · exact ⟨s.side x, by cases x <;> rfl⟩

theorem State.planePost_side (s : State) (x : Side) (p tick : Nat) (ws : List Nat) : ∃ v, s.planePost x p tick ws = s.setSide x v := by
  obtain ⟨v, hv⟩ := State.planeSend_side x p _ (s.setSide x { s.side x with planeWait := Tab.put [] (s.side x).planeWait p _ })
  exact ⟨v, hv.trans (by cases x <;> rfl)⟩

theorem State.planePost_within (s : State) (x : Side) (p tick : Nat) (ws : List Nat) : WithinSide x [] s (s.planePost x p tick ws) := by
  obtain ⟨v, hv⟩ := s.planePost_side x p tick ws
  rw [hv]
  exact (WithinSide.refl x [] s).setSide v

theorem State.planePost_rest (s : State) (x : Side) (p tick : Nat) (ws : List Nat) : (s.planePost x p tick ws).regs = s.regs ∧
    (s.planePost x p tick ws).now = s.now ∧ (s.planePost x p tick ws).mem = s.mem := by
  obtain ⟨v, hv⟩ := s.planePost_side x p tick ws
  rw [hv]
  exact ⟨State.regs_setSide _ _ _, State.now_setSide _ _ _, State.mem_setSide _ _ _⟩

theorem exec_ainSample {l : List Word40}
    (hin : l.any (fun v => decide (sigInt v.toNat ≤ voltsQ (-32) ∨ voltsQ 58 ≤ sigInt v.toNat)) = false) (hf : s.fabric x = true) :
    ∃ v tick ws, exec (.ainSample x l) s = .next (((s.ainAll x l).setSide x v).planePost x 4 tick ws) := by
  have hexec : exec (.ainSample x l) s = execAinSample x l s := rfl
  rw [hexec, execAinSample, if_neg (by rw [hin]; simp), if_neg (by simp [hf])]
  exact ⟨_, _, _, rfl⟩

/-! ## A gap in the posts of a die (R54, R195) -/

/-- A channel's windows of side `x` without the tick that was missed. -/
def Chan.missed (v : Chan) (x : Side) (tick : Nat) : Chan :=
  { v with measures := v.measures.map fun m => if m.job.side = x then { m with taken := m.taken.filter fun t => t.1 != tick } else m }

theorem State.windowGap_eq (s : State) (x : Side) (d tick : Nat) :
    s.windowGap x d tick = s.each (chansOf d) fun s c => s.setChan c ((s.chan c).missed x tick) :=
  (List.foldl_map (f := fun n => 16 * d + n) (g := fun (s : State) c => s.setChan c ((s.chan c).missed x tick))).symm

theorem State.chan_windowGap (s : State) (x : Side) (d tick c : Nat) : (s.windowGap x d tick).chan c =
    if c / 16 = d then (s.chan c).missed x tick else s.chan c := by
  rw [State.windowGap_eq]
  split
  · next h =>
    exact State.each_view_on (view := State.chan) (g := fun v => v.missed x tick) (fun s c => State.chan_setChan_self _ _ _)
      (fun s c b hb => by rw [State.chan_setChan, if_neg hb]) (chansOf_nodup d) (mem_chansOf.2 h) s
  · next h =>
    exact State.each_view_off (view := State.chan) (fun s c b hb => by rw [State.chan_setChan, if_neg hb]) (fun hc => h (mem_chansOf.1 hc)) s

theorem State.windowGap_chans (s : State) (x : Side) (d tick : Nat) : ∃ m, s.windowGap x d tick = { s with chans := m } := by
  have hturn (t : State) (c : Nat) (h : ∃ m, t = { s with chans := m }) :
      ∃ m, t.setChan c ((t.chan c).missed x tick) = { s with chans := m } := by
    obtain ⟨m, rfl⟩ := h
    exact ⟨_, rfl⟩
  rw [State.windowGap_eq]
  exact State.each_keeps (P := fun t => ∃ m, t = { s with chans := m }) hturn _ ⟨s.chans, rfl⟩

/-- The first gap of a run is an entry of the log. -/
def State.gapLogged (s : State) (x : Side) (d tick : Nat) : State :=
  if (s.side x).gapRun.testBit d then s else
    (s.setSide x { s.side x with gapRun := Machine.setBit (s.side x).gapRun d }).log x 0x003 0 [.nar 8 d, .wide tick]

theorem State.gapLogged_within (s : State) (x : Side) (d tick : Nat) : WithinSide x (logFields x) s (s.gapLogged x d tick) := by
  unfold State.gapLogged
  split
  · exact WithinSide.refl x _ s
  · exact ((WithinSide.refl x _ s).setSide _).log (fun _ h => h) _ _ _

theorem State.gapLogged_run (s : State) (x : Side) (d tick : Nat) : ((s.gapLogged x d tick).side x).gapRun.testBit d = true := by
  unfold State.gapLogged
  split
  · assumption
  · have hrun (t : State) : ((t.log x 0x003 0 [.nar 8 d, .wide tick]).side x).gapRun = (t.side x).gapRun :=
      (congrArg SideSt.gapRun (t.log_noted x _ _ _).side :)
    rw [hrun, State.side_setSide_self]
    exact testBit_setBit _ _

/-- The gap of die `d`'s post for a tick: its bit, its count, and the windows. -/
def State.gapMarked (s : State) (x : Side) (d tick : Nat) : State :=
  ((s.setBit (.side x) F.FAB_GAP 0 d).inc (.side x) F.FAB_GAP_COUNT d).windowGap x d tick

theorem exec_sampleGap {d : Fin 4} (h : s.up x = true) (tick : Word40) :
    exec (.sampleGap x d tick) s = .next ((s.gapMarked x d tick.toNat).gapLogged x d tick.toNat) :=
  congrArg ok (if_neg (by simp [h]))

theorem State.get_gapMarked (s : State) (x : Side) (d tick : Nat) (k : Holder) (f : Fld) (i : Nat) :
    (s.gapMarked x d tick).get k f i = ((s.setBit (.side x) F.FAB_GAP 0 d).inc (.side x) F.FAB_GAP_COUNT d).get k f i := by
  obtain ⟨m, hm⟩ := State.windowGap_chans ((s.setBit (.side x) F.FAB_GAP 0 d).inc (.side x) F.FAB_GAP_COUNT d) x d tick
  rw [State.gapMarked, hm]
  rfl

theorem State.gap_gapMarked (s : State) (x : Side) {d : Nat} (hd : d < 4) (tick : Nat) :
    ((s.gapMarked x d tick).get (.side x) F.FAB_GAP 0).testBit d = true := by
  rw [State.get_gapMarked, State.inc, State.add, State.get_set_fld _ _ _ _ _ _ _ _ (by decide)]
  exact (congrArg (fun w => Nat.testBit w d) (State.get_set_self _ _ _ _ _)).trans ((testBit_mod _ 4 d hd).trans (testBit_setBit _ _))

theorem State.count_gapMarked (s : State) (x : Side) (d tick : Nat) : (s.gapMarked x d tick).get (.side x) F.FAB_GAP_COUNT d =
    (s.get (.side x) F.FAB_GAP_COUNT d + 1) % 2 ^ F.FAB_GAP_COUNT.width := by
  rw [State.get_gapMarked]
  refine (State.get_set_self _ _ _ _ _).trans ?_
  rw [State.setBit, State.get_set_fld _ _ _ _ _ _ _ _ (by decide)]

/-- What the gap writes beside the channels. -/
theorem State.gapMarked_rest (s : State) (x : Side) (d tick : Nat) :
    Only [(.side x, F.FAB_GAP, 0), (.side x, F.FAB_GAP_COUNT, d)] s (s.gapMarked x d tick) ∧ (s.gapMarked x d tick).dies = s.dies ∧
      (s.gapMarked x d tick).now = s.now ∧ (s.gapMarked x d tick).mem = s.mem ∧ ∀ y, (s.gapMarked x d tick).side y = s.side y := by
  obtain ⟨m, hm⟩ := State.windowGap_chans ((s.setBit (.side x) F.FAB_GAP 0 d).inc (.side x) F.FAB_GAP_COUNT d) x d tick
  refine ⟨fun k f i hn => (s.get_gapMarked x d tick k f i).trans (((Only.set (by simp)).trans (Only.set (by simp))) k f i hn), ?_, ?_, ?_,
    fun y => ?_⟩ <;> rw [State.gapMarked, hm]
  · rfl
  · rfl
  · rfl
  · cases y <;> rfl

theorem State.chan_gapMarked (s : State) (x : Side) (d tick c : Nat) :
    (s.gapMarked x d tick).chan c = if c / 16 = d then (s.chan c).missed x tick else s.chan c := State.chan_windowGap _ _ _ _ _

end Sys2Proof.Machine
end

section
/-! The sample tick of a die: what each channel stores, and the posts to both sides (R53, R133, R185 to R190). -/
namespace Sys2Proof.Machine
open Sys2Proof

variable {s t u : State} {c : Nat} {l : List Fld} {d : Fin 4}

/-! ## What the samples of one channel leave -/

/-- A part of the sample tick at channel `c`, in the frame `l`, with what it posts. -/
structure SampleTurn (c : Nat) (l : List Fld) (s t : State) : Prop where
  at_ : AtChan c (noticeFields s c) l s t
  now : t.now = s.now
  dies : t.dies = s.dies

theorem SampleTurn.refl (c : Nat) (l : List Fld) (s : State) : SampleTurn c l s s := ⟨AtChan.refl _ _ _ s, rfl, rfl⟩

theorem SampleTurn.cw (h : SampleTurn c l s t) {f : Fld} (hf : f ∈ l) (v : Nat) : SampleTurn c l s (t.cw c f v) :=
  ⟨h.at_.cw hf v, (State.now_cw _ _ _ _).trans h.now, h.dies⟩

theorem SampleTurn.setChan (h : SampleTurn c l s t) (v : Chan) : SampleTurn c l s (t.setChan c v) := ⟨h.at_.setChan v, h.now, h.dies⟩

theorem SampleTurn.chEvent (h : SampleTurn c l s t) (hcount : F.CH_EVT_SUPPRESS_COUNT ∈ l)
    (hl : ∀ f ∈ l, F.CH_CFG2.reg ≠ f.reg ∧ F.DOOR_EVT.reg ≠ f.reg) (code w : Nat) : SampleTurn c l s (t.chEvent c code w) :=
  ⟨h.at_.chEvent hcount hl code w, (State.now_chEvent _ _ _ _).trans h.now, (State.dies_chEvent _ _ _ _).trans h.dies⟩

theorem SampleTurn.ite {p : Prop} [Decidable p] (h : SampleTurn c l s t) (k : SampleTurn c l s u) : SampleTurn c l s (if p then t else u) := by
  split <;> assumption

/-- Register fields that the diagnostics and the energy count write. -/
def judgeFlds : List Fld := [F.MEAS_E, F.CH_DIAG, F.CH_EVT_SUPPRESS_COUNT]

theorem SampleTurn.judgeDiag (h : SampleTurn c l s t) (hl : ∀ f ∈ judgeFlds, f ∈ l)
    (hown : ∀ f ∈ l, F.CH_CFG2.reg ≠ f.reg ∧ F.DOOR_EVT.reg ≠ f.reg) (code : Nat) (enabled qualifies met : Bool) :
    SampleTurn c l s (t.judgeDiag c code enabled qualifies met) := by
  unfold State.judgeDiag
  dsimp only
  exact .ite (h.setChan _) (.ite h (.ite (h.setChan _)
    (.ite (((h.setChan _).cw (hl F.CH_DIAG (by decide)) _).chEvent (hl _ (by decide)) hown _ _) (h.setChan _))))

theorem SampleTurn.diagnose (h : SampleTurn c l s t) (hl : ∀ f ∈ judgeFlds, f ∈ l)
    (hown : ∀ f ∈ l, F.CH_CFG2.reg ≠ f.reg ∧ F.DOOR_EVT.reg ≠ f.reg) : SampleTurn c l s (t.diagnose c) := by
  unfold State.diagnose
  exact (((h.judgeDiag hl hown _ _ _ _).judgeDiag hl hown _ _ _ _).judgeDiag hl hown _ _ _ _).judgeDiag hl hown _ _ _ _

theorem SampleTurn.energy (h : SampleTurn c l s t) (hl : F.MEAS_E ∈ l) (volts amps : Int) : SampleTurn c l s (t.energy c volts amps) :=
  (h.setChan _).cw hl _

/-! ## The samples of one channel (R187, R188) -/

/-- The current, the voltage and the temperature of channel `p.1`, calibrated. -/
def State.ampsOf (s : State) (p : Nat × Sample) : Int :=
  calibrate (sigInt p.2.amps.toNat) (s.calOf (p.1 / 16) p.1 q20) (s.calOf (p.1 / 16) (0x040 + p.1) 0)

def State.voltsOf (s : State) (p : Nat × Sample) : Int :=
  calibrate (sigInt p.2.volts.toNat) (s.calOf (p.1 / 16) (0x080 + p.1) q20) (s.calOf (p.1 / 16) (0x0C0 + p.1) 0)

def State.tempOf (s : State) (p : Nat × Sample) : Int := sigInt p.2.temp.toNat + s.calOf (p.1 / 16) (0x100 + p.1) 0

/-- The words of a tick at channel `p.1`: its index, and the three signals within their ranges. -/
def State.sampleOf (s : State) (tick : Nat) (p : Nat × Sample) : Nat × Nat × Nat × Nat :=
  (tick % 2 ^ F.MEAS_TICK.width, sigWord (clampInt (-(rangeI p.1)) (rangeI p.1) (s.ampsOf p)),
    sigWord (clampInt (units (-60)) (units 60) (s.voltsOf p)), sigWord (clampInt (units (-60)) (units 200) (s.tempOf p)))

/-- The words that channel `c` shows. -/
def State.sampleView (s : State) (c : Nat) : Nat × Nat × Nat × Nat := (s.cq c F.MEAS_TICK, s.cq c F.MEAS_I, s.cq c F.MEAS_V, s.cq c F.MEAS_TJ)

/-- Register fields of the words of a tick. -/
def wordFlds : List Fld := [F.MEAS_TICK, F.MEAS_I, F.MEAS_V, F.MEAS_TJ]

theorem State.sampleView_congr (h : ∀ f ∈ wordFlds, t.cq c f = s.cq c f) : t.sampleView c = s.sampleView c := by
  rw [State.sampleView, State.sampleView, h F.MEAS_TICK (by decide), h F.MEAS_I (by decide), h F.MEAS_V (by decide), h F.MEAS_TJ (by decide)]

/-- The words of channel `p.1` written, and whether one was held. -/
def State.wordsStored (s : State) (tick : Nat) (p : Nat × Sample) (sat : Nat) : State :=
  ((((s.cw p.1 F.MEAS_I (s.sampleOf tick p).2.1).cw p.1 F.MEAS_V (s.sampleOf tick p).2.2.1).cw p.1 F.MEAS_TJ (s.sampleOf tick p).2.2.2).cw p.1
    F.MEAS_TICK tick).cw p.1 F.CH_STATE_SAT sat

theorem State.sampleView_wordsStored (s : State) (tick : Nat) (p : Nat × Sample) (sat : Nat) :
    (s.wordsStored tick p sat).sampleView p.1 = s.sampleOf tick p := by
  have hword (i : Int) : sigWord i % 2 ^ 40 = sigWord i := Nat.mod_eq_of_lt (sigWord_lt i)
  unfold State.wordsStored
  refine Prod.ext ?_ (Prod.ext ?_ (Prod.ext ?_ ?_))
  · exact (State.cq_cw_fld _ _ _ _ (by decide)).trans (State.cq_cw_self _ _ _ _)
  · exact (State.cq_cw_fld _ _ _ _ (by decide)).trans ((State.cq_cw_fld _ _ _ _ (by decide)).trans ((State.cq_cw_fld _ _ _ _ (by decide)).trans
      ((State.cq_cw_fld _ _ _ _ (by decide)).trans ((State.cq_cw_self _ _ _ _).trans (hword _)))))
  · exact (State.cq_cw_fld _ _ _ _ (by decide)).trans ((State.cq_cw_fld _ _ _ _ (by decide)).trans ((State.cq_cw_fld _ _ _ _ (by decide)).trans
      ((State.cq_cw_self _ _ _ _).trans (hword _))))
  · exact (State.cq_cw_fld _ _ _ _ (by decide)).trans ((State.cq_cw_fld _ _ _ _ (by decide)).trans ((State.cq_cw_self _ _ _ _).trans (hword _)))

theorem State.sampleChan_eq (s : State) (tick : Nat) (p : Nat × Sample) : ∃ sat volts amps v,
    s.sampleChan tick p = (((s.wordsStored tick p sat).energy p.1 volts amps).setChan p.1 v).diagnose p.1 := ⟨_, _, _, _, rfl⟩

/-- Register fields that the samples of a channel write. -/
def sampleFlds : List Fld := wordFlds ++ F.CH_STATE_SAT :: judgeFlds

theorem State.sampleChan_turn (s : State) (tick : Nat) (p : Nat × Sample) : SampleTurn p.1 sampleFlds s (s.sampleChan tick p) := by
  obtain ⟨sat, volts, amps, v, h⟩ := s.sampleChan_eq tick p
  rw [h]
  exact ((((((((SampleTurn.refl p.1 sampleFlds s).cw (by decide) _).cw (by decide) _).cw (by decide) _).cw (by decide) _).cw (by decide)
    _).energy (by decide) _ _).setChan _).diagnose (by decide) (by decide)

theorem State.sampleView_sampleChan (s : State) (tick : Nat) (p : Nat × Sample) : (s.sampleChan tick p).sampleView p.1 = s.sampleOf tick p := by
  obtain ⟨sat, volts, amps, v, h⟩ := s.sampleChan_eq tick p
  have hrest := ((((SampleTurn.refl p.1 judgeFlds (s.wordsStored tick p sat)).energy (by decide) volts amps).setChan v).diagnose (by decide)
    (by decide)).at_
  have hwords : ∀ f ∈ wordFlds, f.reg ∉ eventRegs ∧ ∀ g ∈ judgeFlds, f.reg ≠ g.reg := by decide
  rw [h, State.sampleView_congr fun f hf => hrest.get_reg (hwords f hf).1 (hwords f hf).2 _ _, s.sampleView_wordsStored]

/-- The samples of a channel leave the words of another. -/
theorem State.sampleView_sampleChan_ne (s : State) (tick : Nat) (p : Nat × Sample) {b : Nat} (h : b ≠ p.1) :
    (s.sampleChan tick p).sampleView b = s.sampleView b := by
  have hwords : ∀ f ∈ wordFlds, f.reg ∉ eventRegs := by decide
  exact State.sampleView_congr fun f hf => (s.sampleChan_turn tick p).at_.cq_ne h (hwords f hf)

/-! ## Calibration in use (R133) -/

/-- `t` shows the dies the calibration that `s` shows them. -/
structure SameCal (s t : State) : Prop where
  uncal : ∀ d, t.get (.grate d) F.DMP_STATUS_UNCAL 0 = s.get (.grate d) F.DMP_STATUS_UNCAL 0
  cal : ∀ d, (t.die d).cal = (s.die d).cal

theorem SameCal.refl (s : State) : SameCal s s := ⟨fun _ => rfl, fun _ => rfl⟩

theorem SameCal.trans (h : SameCal s t) (k : SameCal t u) : SameCal s u :=
  ⟨fun d => (k.uncal d).trans (h.uncal d), fun d => (k.cal d).trans (h.cal d)⟩

theorem SameCal.calOf (h : SameCal s t) (d item gain : Nat) : t.calOf d item gain = s.calOf d item gain := by
  rw [State.calOf, State.calOf, State.is, State.is, h.uncal, h.cal]

theorem SameCal.sampleOf (h : SameCal s t) (tick : Nat) (p : Nat × Sample) : t.sampleOf tick p = s.sampleOf tick p := by
  simp only [State.sampleOf, State.ampsOf, State.voltsOf, State.tempOf, h.calOf]

theorem State.sampleChan_cal (s : State) (tick : Nat) (p : Nat × Sample) : SameCal s (s.sampleChan tick p) := by
  obtain ⟨hat, -, hdies⟩ := s.sampleChan_turn tick p
  exact ⟨fun d => hat.get_reg (by decide) (by decide) _ _, fun d => congrArg DieSt.cal (congrArg (fun m => Tab.at DieSt.init m d) hdies)⟩

/-! ## All channels of a die -/

/-- The samples of all channels of die `d` at a tick. -/
def State.sampleAll (s : State) (d tick : Nat) (smp : List Sample) : State := s.each ((chansOf d).zip smp) fun s p => s.sampleChan tick p

theorem chansOf_length (d : Nat) : (chansOf d).length = 16 := by simp [chansOf]

theorem chansOf_getElem? (d : Nat) {k : Nat} (h : k < 16) : (chansOf d)[k]? = some (16 * d + k) := by
  simp [chansOf, h]

theorem State.sampleView_sampleAll {smp : List Sample} {k : Nat} {v : Sample} (s : State) (d tick : Nat) (hlen : smp.length = 16)
    (hv : smp[k]? = some v) : (s.sampleAll d tick smp).sampleView (16 * d + k) = s.sampleOf tick (16 * d + k, v) := by
  have hk : k < 16 := hlen ▸ (List.getElem?_eq_some_iff.1 hv).1
  have hmem : (16 * d + k, v) ∈ (chansOf d).zip smp := mem_zip_of_getElem? (chansOf_getElem? d hk) hv
  have hnodup : (((chansOf d).zip smp).map Prod.fst).Nodup := by
    rw [List.map_fst_zip (by rw [chansOf_length, hlen])]
    exact chansOf_nodup d
  exact State.each_samples (view := State.sampleView) (f := fun s (p : Nat × Sample) => s.sampleChan tick p) (P := SameCal s)
    (val := s.sampleOf tick) (fun t p h => h.trans (t.sampleChan_cal tick p))
    (fun t p h => (t.sampleView_sampleChan tick p).trans (h.sampleOf tick p)) (fun t p b h => t.sampleView_sampleChan_ne tick p h) hnodup hmem s
    (SameCal.refl s)

theorem State.sampleAll_rest (s : State) (d tick : Nat) (smp : List Sample) : (s.sampleAll d tick smp).now = s.now ∧
    (s.sampleAll d tick smp).mem = s.mem ∧
    (s.sampleAll d tick smp).get (.grate d) F.MEAS_DIE_TICK 0 = s.get (.grate d) F.MEAS_DIE_TICK 0 :=
  State.each_keeps (P := fun t => t.now = s.now ∧ t.mem = s.mem ∧
      t.get (.grate d) F.MEAS_DIE_TICK 0 = s.get (.grate d) F.MEAS_DIE_TICK 0)
    (fun t p ⟨hnow, hmem, htick⟩ => by
      have hturn := t.sampleChan_turn tick p
      exact ⟨hturn.now.trans hnow, hturn.at_.mem.trans hmem, (hturn.at_.get_reg (by decide) (by decide) _ _).trans htick⟩) _ ⟨rfl, rfl, rfl⟩

/-! ## The tick (R53, R187) -/

/-- Die `d` before its channels' samples: the clock, the tick's index, and the feed. -/
def State.tickBegun (s : State) (d tick free feed : Nat) : State :=
  (((s.sampleDue d).set (.grate d) F.MEAS_DIE_TICK 0 tick).set (.grate d) F.MEAS_STATUS_TICK_FREE 0 free).set (.grate d) F.MEAS_FEED_V 0 feed

/-- The posts of die `d` to both sides. -/
def State.ticked (s : State) (d tick : Nat) : State :=
  s.each [Side.a, Side.b] fun s x => if s.up x then s.planePost x d tick (s.postWords d tick) else s

theorem exec_grateSampleTick {f : Word40} (hfeed : outsideFeed (sigInt f.toNat) = false) (hrun : s.dieRuns d = true) (smp : List Sample) :
    ∃ free feed sum, exec (.grateSampleTick d smp f) s = .next (((((s.tickBegun d (s.get (.grate d) F.MEAS_DIE_TICK 0 + 1) free feed).sampleAll d
      (s.get (.grate d) F.MEAS_DIE_TICK 0 + 1) smp).set (.grate d) F.MEAS_FEED_I 0 sum)).ticked d (s.get (.grate d) F.MEAS_DIE_TICK 0 + 1)) := by
  have hexec : exec (.grateSampleTick d smp f) s = execGrateSampleTick d smp f s := rfl
  rw [hexec, execGrateSampleTick, if_neg (by simp [hfeed]), if_neg (by simp [hrun])]
  exact ⟨_, _, _, rfl⟩

theorem State.ticked_rest (s : State) (d tick : Nat) : (s.ticked d tick).regs = s.regs ∧ (s.ticked d tick).mem = s.mem ∧
    (s.ticked d tick).now = s.now :=
  State.each_keeps (P := fun t => t.regs = s.regs ∧ t.mem = s.mem ∧ t.now = s.now)
    (fun t x ⟨hregs, hmem, hnow⟩ => by
      split
      · obtain ⟨hpostRegs, hpostNow, hpostMem⟩ := t.planePost_rest x d tick (t.postWords d tick)
        exact ⟨hpostRegs.trans hregs, hpostMem.trans hmem, hpostNow.trans hnow⟩
      · exact ⟨hregs, hmem, hnow⟩) _ ⟨rfl, rfl, rfl⟩

theorem State.tickBegun_cal (s : State) (d tick free feed : Nat) : SameCal s (s.tickBegun d tick free feed) := by
  refine ⟨fun e => ?_, fun e => ?_⟩
  · rw [State.tickBegun, State.get_set_fld _ _ _ _ _ _ _ _ (by decide), State.get_set_fld _ _ _ _ _ _ _ _ (by decide),
      State.get_set_fld _ _ _ _ _ _ _ _ (by decide)]
    rfl
  · have hdie : (s.tickBegun d tick free feed).die e = (s.sampleDue d).die e := rfl
    have hdue : (s.sampleDue d).die e = if e = d then (s.sampleDue d).die d else s.die e := by
      split
      · next h => rw [h]
      · next h => exact (State.die_setDie _ _ _ _).trans (if_neg h)
    have hown : ((s.sampleDue d).die d).cal = (s.die d).cal :=
      (congrArg DieSt.cal (State.die_setDie_self _ _ _)).trans rfl
    rw [hdie, hdue]
    split
    · next h => rw [h, hown]
    · rfl

/-- What a sample tick leaves: the index of the tick, and the words of each channel. -/
theorem exec_grateSampleTick_words {smp : List Sample} {f : Word40} {k : Nat} {v : Sample} (hfeed : outsideFeed (sigInt f.toNat) = false)
    (hrun : s.dieRuns d = true) (hlen : smp.length = 16) (hv : smp[k]? = some v) :
    ∃ t, exec (.grateSampleTick d smp f) s = .next t ∧
      t.get (.grate d) F.MEAS_DIE_TICK 0 = (s.get (.grate d) F.MEAS_DIE_TICK 0 + 1) % 2 ^ F.MEAS_DIE_TICK.width ∧
      t.sampleView (16 * d.val + k) = s.sampleOf (s.get (.grate d) F.MEAS_DIE_TICK 0 + 1) (16 * d.val + k, v) ∧
      t.now = max s.now (s.die d).sampleAt ∧ MemSame s t := by
  obtain ⟨free, feed, sum, hexec⟩ := exec_grateSampleTick hfeed hrun smp
  refine ⟨_, hexec, ?_⟩
  obtain ⟨tick, htick⟩ : ∃ tick, s.get (.grate d) F.MEAS_DIE_TICK 0 + 1 = tick := ⟨_, rfl⟩
  rw [htick]
  obtain ⟨r, hr⟩ : ∃ r, s.tickBegun d tick free feed = r := ⟨_, rfl⟩
  rw [hr]
  obtain ⟨hregs, hmem, hnow⟩ := State.ticked_rest ((r.sampleAll d tick smp).set (.grate d) F.MEAS_FEED_I 0 sum) d tick
  have hget (k : Holder) (g : Fld) (i : Nat) (hg : g.reg ≠ F.MEAS_FEED_I.reg) :
      (((r.sampleAll d tick smp).set (.grate d) F.MEAS_FEED_I 0 sum).ticked d tick).get k g i = (r.sampleAll d tick smp).get k g i := by
    rw [State.get, hregs]
    exact State.get_set_fld _ _ _ _ _ _ _ _ (.inl hg)
  obtain ⟨hnow', hmem', htick'⟩ := r.sampleAll_rest d tick smp
  have hcal : SameCal s r := hr ▸ s.tickBegun_cal d tick free feed
  refine ⟨?_, ?_, ?_, ?_⟩
  · rw [hget _ _ _ (by decide), htick', ← hr, State.tickBegun, State.get_set_fld _ _ _ _ _ _ _ _ (by decide),
      State.get_set_fld _ _ _ _ _ _ _ _ (by decide), State.get_set_self]
  · have hwords : ∀ f ∈ wordFlds, f.reg ≠ F.MEAS_FEED_I.reg := by decide
    rw [State.sampleView_congr fun f hf => hget _ _ _ (hwords f hf), r.sampleView_sampleAll d tick hlen hv, hcal.sampleOf]
  · rw [hnow, State.now_set, hnow', ← hr]
    rfl
  · refine MemSame.of_mem (hmem.trans ((State.mem_set _ _ _ _ _).trans (hmem'.trans ?_)))
    rw [← hr]
    rfl

/-- The range of a channel hangs on its place in the die. -/
theorem rangeI_chan (d : Nat) {k : Nat} (h : k < 16) : rangeI (16 * d + k) = rangeI k := by
  have hclass : classOf (16 * d + k) = classOf k := by
    rw [classOf, classOf, Nat.mul_add_mod, Nat.mod_eq_of_lt h]
  rw [rangeI, rangeI, hclass]

/-- With gain 1.0 and offset 0.0 a conversion stands as it is. -/
theorem calibrate_unit (raw : Int) : calibrate raw (q20 : Nat) 0 = raw := by
  have hq : ((q20 : Nat) : Int) = 1048576 := by decide
  rw [calibrate, hq, Int.mul_ediv_cancel _ (by decide), add_zero]

theorem State.calOf_uncal (h : s.is (.grate d) F.DMP_STATUS_UNCAL 0 = true) (item gain : Nat) : s.calOf d item gain = gain := if_pos h

end Sys2Proof.Machine
end

section
/-! The signal plane drains a post that no stream takes (R48, R52 to R54), and the obligation on samples and inputs. -/
namespace Sys2Proof.Machine
open Sys2Proof

variable {s t u : State} {x : Side} {v : SideSt} {w : PlaneWord} {ws : List PlaneWord}

/-! ## The order of the collector (R53) -/

theorem mem_insertWord {a : PlaneWord} : ∀ {l : List PlaneWord}, a ∈ insertWord w l ↔ a = w ∨ a ∈ l
  | [] => by simp [insertWord]
  | b :: l => by
    unfold insertWord
    split
    · exact List.mem_cons
    · rw [List.mem_cons, mem_insertWord, List.mem_cons]
      tauto

theorem mem_foldl_insertWord {a : PlaneWord} : ∀ {l acc : List PlaneWord}, a ∈ l.foldl (fun l w => insertWord w l) acc ↔ a ∈ l ∨ a ∈ acc
  | [], acc => by simp
  | b :: l, acc => by
    rw [List.foldl_cons, mem_foldl_insertWord, mem_insertWord, List.mem_cons]
    tauto

theorem ashBefore_self (c p : Nat) : ashBefore c p c p = false := by simp [ashBefore]

/-- What the plane drains up to the end `e` of a post: that word, and each that does not stand behind it. -/
theorem State.planeUpTo_spec {p : Nat} {e : PlaneWord} (h : s.planeUpTo x p = some (e, ws)) : e.prod = p ∧ e.last = true ∧ e ∈ ws ∧
    ∀ a ∈ (s.side x).plane, a ∈ ws ↔ ashBefore e.cycle e.prod a.cycle a.prod = false := by
  unfold State.planeUpTo at h
  split at h
  · next b hfind =>
    obtain ⟨rfl, rfl⟩ := Prod.mk.inj (Option.some.inj h)
    have hpost := List.find?_some hfind
    have hmem := List.mem_of_find?_eq_some hfind
    simp only [Bool.and_eq_true, beq_iff_eq] at hpost
    have hws (a : PlaneWord) (ha : a ∈ (s.side x).plane) : a ∈ ((s.side x).plane.filter fun w =>
        !ashBefore b.cycle b.prod w.cycle w.prod).foldl (fun l w => insertWord w l) [] ↔ ashBefore b.cycle b.prod a.cycle a.prod = false := by
      simp [mem_foldl_insertWord, ha]
    exact ⟨hpost.1, hpost.2, (hws b hmem).2 (ashBefore_self _ _), hws⟩
  · cases h

/-! ## Words that no stream takes -/

/-- A side whose plane has drained a word that no stream takes. -/
def SideSt.drained (v : SideSt) (w : PlaneWord) : SideSt :=
  { v with plane := v.plane.filter fun a => a != w, gapRun := if w.last ∧ w.prod < 4 then clearBit v.gapRun w.prod else v.gapRun }

theorem State.streamsOf_setSide (s : State) (x : Side) (v : SideSt) (p : Nat) : (s.setSide x v).streamsOf x p = s.streamsOf x p := by
  cases x <;> rfl

theorem State.planeDrain_none (h : s.streamsOf x w.prod = []) : s.planeDrain x w = s.setSide x ((s.side x).drained w) := by
  have hset (a b : SideSt) : ((s.setSide x a).setSide x b) = s.setSide x b := by cases x <;> rfl
  unfold State.planeDrain SideSt.drained
  dsimp only
  split
  · rw [State.streamsOf_setSide, State.streamsOf_setSide, h, State.side_setSide_self, hset]
    rfl
  · rw [State.streamsOf_setSide, h]
    rfl

theorem State.drain_none (h : ∀ w ∈ ws, s.streamsOf x w.prod = []) :
    s.each ws (fun s w => s.planeDrain x w) = s.setSide x (ws.foldl SideSt.drained (s.side x)) := by
  induction ws generalizing s with
  | nil => cases x <;> rfl
  | cons w l ih =>
    have hl : ∀ a ∈ l, (s.setSide x ((s.side x).drained w)).streamsOf x a.prod = [] := fun a ha =>
      (s.streamsOf_setSide x _ _).trans (h a (List.mem_cons_of_mem _ ha))
    have hturn : s.each (w :: l) (fun s w => s.planeDrain x w) = (s.planeDrain x w).each l fun s w => s.planeDrain x w := rfl
    rw [hturn, State.planeDrain_none (h w List.mem_cons_self), ih hl, State.side_setSide_self]
    cases x <;> rfl

theorem SideSt.drained_plane (ws : List PlaneWord) : ∀ v : SideSt,
    (ws.foldl SideSt.drained v).plane = v.plane.filter fun a => decide (a ∉ ws) := by
  induction ws with
  | nil => simp
  | cons w l ih =>
    intro v
    rw [List.foldl_cons, ih, SideSt.drained, List.filter_filter]
    refine List.filter_congr fun a _ => ?_
    by_cases h : a = w <;> simp [h]

theorem SideSt.drained_wait (ws : List PlaneWord) (v : SideSt) : (ws.foldl SideSt.drained v).planeWait = v.planeWait := by
  induction ws generalizing v with
  | nil => rfl
  | cons w l ih => exact ih (v.drained w)

theorem SideSt.drained_run {p : Nat} (h : v.gapRun.testBit p = false) : (v.drained w).gapRun.testBit p = false := by
  unfold SideSt.drained
  dsimp only
  split
  · by_cases hp : p = w.prod
    · rw [hp, testBit_clearBit]
    · rw [testBit_clearBit_ne _ hp, h]
  · exact h

theorem SideSt.drained_runs {p : Nat} (ws : List PlaneWord) : ∀ {v : SideSt}, v.gapRun.testBit p = false →
    (ws.foldl SideSt.drained v).gapRun.testBit p = false := by
  induction ws with
  | nil => exact fun h => h
  | cons w l ih => exact fun h => ih (SideSt.drained_run h)

/-- The last word of a die's post ends the run of its gaps. -/
theorem SideSt.drained_last (hw : w ∈ ws) (hlast : w.last = true) (hp : w.prod < 4) (v : SideSt) :
    (ws.foldl SideSt.drained v).gapRun.testBit w.prod = false := by
  induction ws generalizing v with
  | nil => cases hw
  | cons a l ih =>
    rcases List.mem_cons.1 hw with rfl | hw
    · refine SideSt.drained_runs l ?_
      rw [SideSt.drained, if_pos ⟨hlast, hp⟩]
      exact testBit_clearBit _ _
    · exact ih hw (v.drained a)

theorem State.planeSend_idle (h : (s.side x).planeWait = []) (p n : Nat) : s.planeSend x p n = s := by
  cases n with
  | zero => rfl
  | succ n =>
    have hnone : Tab.at [] (s.side x).planeWait p = [] := by
      rw [h]
      rfl
    unfold State.planeSend
    dsimp only
    rw [hnone]

theorem exec_measurementArrival {p : Fin 5} {e : PlaneWord} (hup : s.up x = true) (h : s.planeUpTo x p = some (e, ws))
    (hnone : ∀ w ∈ ws, s.streamsOf x w.prod = []) (hwait : (s.side x).planeWait = []) : exec (.measurementArrival x p) s =
      .next { (s.due (2 * e.cycle)).setSide x (ws.foldl SideSt.drained (s.side x)) with resp := s.resp } := by
  have hexec : exec (.measurementArrival x p) s = execMeasurementArrival x p s := rfl
  have hdrain : (s.due (2 * e.cycle)).each ws (fun s w => s.planeDrain x w) =
      (s.due (2 * e.cycle)).setSide x (ws.foldl SideSt.drained (s.side x)) :=
    (State.drain_none (s := s.due (2 * e.cycle)) hnone).trans (by cases x <;> rfl)
  have hsend : ((s.due (2 * e.cycle)).setSide x (ws.foldl SideSt.drained (s.side x))).each (List.range 5) (fun s p => s.planeSend x p 96) =
      (s.due (2 * e.cycle)).setSide x (ws.foldl SideSt.drained (s.side x)) := by
    refine State.each_keeps (P := fun t => t = (s.due (2 * e.cycle)).setSide x (ws.foldl SideSt.drained (s.side x))) (fun t p ht => ?_) _ rfl
    rw [ht]
    exact State.planeSend_idle (by rw [State.side_setSide_self, SideSt.drained_wait, hwait]) _ _
  rw [hexec, execMeasurementArrival, if_pos hup, h]
  dsimp only
  rw [hdrain, hsend]
  rfl

/-! ## The obligation -/

/-- Settles O27: a tick, an input and a scrub write registers of their own unit; the plane drains what no stream selects as a filter of its
words. -/
theorem samplesAndInputs : Obligations.SamplesAndInputs := by
  refine ⟨fun s d smp f k v hfeed hrun hlen hv => ?_, fun s d smp f k v hfeed hrun hlen hv huncal => ?_,
    fun s x p e ws hup hup' hnone hwait => ?_, fun s x d tick hup => ?_, fun s x l k v hin hf hl hv => ?_, fun s x n b hf hne => ?_,
    fun s x v hf => ?_, fun s x v a hf hddr => ?_⟩
  · have hk : k < 16 := hlen ▸ (List.getElem?_eq_some_iff.1 hv).1
    obtain ⟨t, hexec, htick, hview, hnow, hmem⟩ := exec_grateSampleTick_words hfeed hrun hlen hv
    have hdie : (16 * d.val + k) / 16 = d.val := by omega
    simp only [State.sampleView, State.sampleOf, State.ampsOf, State.voltsOf, State.tempOf, Prod.mk.injEq, rangeI_chan d hk, hdie] at hview
    obtain ⟨hindex, hamps, hvolts, htemp⟩ := hview
    exact ⟨t, hexec, htick, hindex, hamps, hvolts, htemp, hnow, hmem⟩
  · have hk : k < 16 := hlen ▸ (List.getElem?_eq_some_iff.1 hv).1
    obtain ⟨t, hexec, htick, hview, hnow, hmem⟩ := exec_grateSampleTick_words hfeed hrun hlen hv
    have hdie : (16 * d.val + k) / 16 = d.val := by omega
    simp only [State.sampleView, State.sampleOf, State.ampsOf, State.voltsOf, State.tempOf, Prod.mk.injEq, rangeI_chan d hk, hdie,
      State.calOf_uncal huncal, calibrate_unit, Nat.cast_zero, add_zero] at hview
    obtain ⟨hindex, hamps, hvolts, htemp⟩ := hview
    exact ⟨t, hexec, htick, hindex, hamps, hvolts, htemp, hnow, hmem⟩
  · obtain ⟨hprod, hlast, hmem, hws⟩ := State.planeUpTo_spec hup'
    have hstreams : ∀ w ∈ ws, s.streamsOf x w.prod = [] := fun w hw => by simpa using List.all_eq_true.1 hnone w hw
    refine ⟨_, exec_measurementArrival hup hup' hstreams hwait, ?_⟩
    obtain ⟨r, hr⟩ : ∃ r, (s.due (2 * e.cycle)).setSide x (ws.foldl SideSt.drained (s.side x)) = r := ⟨_, rfl⟩
    have hside : r.side x = ws.foldl SideSt.drained (s.side x) := hr ▸ State.side_setSide_self _ _ _
    have hout : ({ r with resp := s.resp } : State).side x = r.side x := by cases x <;> rfl
    have hrest : r.now = max s.now (2 * e.cycle) ∧ r.side x.other = s.side x.other ∧ r.chans = s.chans ∧ r.regs = s.regs ∧ r.mem = s.mem := by
      rw [← hr]
      cases x <;> exact ⟨rfl, rfl, rfl, rfl, rfl⟩
    obtain ⟨hnow, hother, hchans, hregs, hmems⟩ := hrest
    rw [hr, hout, hside]
    refine ⟨?_, fun hp => ?_, hnow, rfl, Eq.trans (by cases x <;> rfl) hother, hchans, Only.of_regs hregs, MemSame.of_mem hmems⟩
    · rw [SideSt.drained_plane]
      refine List.filter_congr fun w hw => ?_
      have hin := hws w hw
      cases hbefore : ashBefore e.cycle e.prod w.cycle w.prod <;> simp_all
    · have hrun := SideSt.drained_last hmem hlast (by omega) (s.side x)
      rwa [hprod] at hrun
  · obtain ⟨honly, hdies, hnow, hmem, hside⟩ := s.gapMarked_rest x d tick.toNat
    obtain ⟨hlog, hrest⟩ := (s.gapMarked x d tick.toNat).gapLogged_within x d tick.toNat
    obtain ⟨hlogNow, -, -, hlogMem, -, hlogOther, -, hlogDies, hlogChans, -⟩ := hrest
    have hgap (f : Fld) (i : Nat) (hf : ∀ p ∈ logFields x, f.reg ≠ p.2.1.reg) :
        ((s.gapMarked x d tick.toNat).gapLogged x d tick.toNat).get (.side x) f i = (s.gapMarked x d tick.toNat).get (.side x) f i :=
      hlog.get_fld fun p hp => .inl (hf p hp)
    refine ⟨_, exec_sampleGap hup tick, ?_, ?_, State.gapLogged_run _ _ _ _, fun c _ => ?_,
      (honly.mono (by simp +contextual)).trans (hlog.mono fun _ h => List.mem_cons_of_mem _ (List.mem_cons_of_mem _ h)),
      hlogOther.trans (hside _), hlogDies.trans hdies, hlogNow.trans hnow, MemSame.of_mem (hlogMem.trans hmem)⟩
    · rw [hgap _ _ (by simp [logFields]; decide)]
      exact s.gap_gapMarked x d.isLt _
    · rw [hgap _ _ (by simp [logFields]; decide)]
      exact s.count_gapMarked x d _
    · have hchan : ((s.gapMarked x d tick.toNat).gapLogged x d tick.toNat).chan c = (s.gapMarked x d tick.toNat).chan c :=
        congrArg (fun m => Tab.at Chan.init m c) hlogChans
      rw [hchan, State.chan_gapMarked]
      split
      · rfl
      · rfl
  · obtain ⟨v', tick, ws, hexec⟩ := exec_ainSample hin hf
    have hall := s.ain_ainAll x hl hv
    have hpost := State.planePost_within ((s.ainAll x l).setSide x v') x 4 tick ws
    refine ⟨_, hexec, ?_, ?_, ?_⟩
    · rw [hpost.only.get (by simp), State.get_setSide, hall]
    · exact ((s.ainAll_rest x l).trans (SideOnly.setSide x v')).trans hpost.rest
    · exact (((s.ainAll_rest x l).trans (SideOnly.setSide x v')).trans hpost.rest).mem
  · have hpinned := (WithinSide.refl x [(.side x, F.IN_DIN_STATE, 0), (.side x, F.IN_DIN_EVT, 0), (.side x, F.INTR_PENDING, 2)] s).pinned
      (by simp) n b
    have hlevel := s.level_pinned x n.isLt b
    by_cases hirq : (s.get (.side x) F.IN_DIN_CFG_IRQ_EDGE n).testBit (if b then 0 else 1) = true
    · have htold := (hpinned.set (k := .side x) (f := F.IN_DIN_EVT) (i := 0) (by simp)
        (Machine.setBit ((s.pinned x n b).get (.side x) F.IN_DIN_EVT 0) n)).intr (n := 81) (by simp)
      have hintr (f : Fld) (h : f.reg ≠ F.INTR_PENDING.reg) : (((s.pinned x n b).setBit (.side x) F.IN_DIN_EVT 0 n).intr x 81).get (.side x) f 0 =
          ((s.pinned x n b).setBit (.side x) F.IN_DIN_EVT 0 n).get (.side x) f 0 :=
        (Only.intr (List.mem_singleton.2 rfl)).get_fld (by simpa using .inl h)
      refine ⟨_, (exec_dinEdge hf hne).trans (congrArg ok (if_pos hirq)), ?_, fun _ => ⟨?_, State.pending_intr x 81 (by decide)⟩, htold.only,
        htold.rest, htold.rest.mem⟩
      · rw [hintr _ (by decide), State.setBit, State.get_set_fld _ _ _ _ _ _ _ _ (by decide), hlevel]
      · rw [hintr _ (by decide), State.setBit, State.get_set_self]
        exact (testBit_mod _ 16 n n.isLt).trans (testBit_setBit _ _)
    · exact ⟨_, (exec_dinEdge hf hne).trans (congrArg ok (if_neg hirq)), hlevel, fun h => absurd h hirq, hpinned.only, hpinned.rest,
        hpinned.rest.mem⟩
  · exact ⟨_, exec_eccScrub hf v [], State.get_set_self _ _ _ _ _, Only.set (by simp), SideOnly.set _ _ _ _ _, MemSame.of_mem rfl⟩
  · obtain ⟨r, hr⟩ : ∃ r, (s.add (.side x) F.TALLY_ECC_SCRUB_CORR 0 v.toNat).inc (.side x) F.TALLY_ECC_DDR_UNCORR 0 = r := ⟨_, rfl⟩
    have hexec : exec (.eccScrub x v [a]) s = .next (r.log x 0x002 0 [.wide a.toNat]) := by
      rw [exec_eccScrub hf, ← hr, ← State.eccSeen_lost hddr]
      rfl
    have hwithin : WithinSide x ((.side x, F.TALLY_ECC_SCRUB_CORR, 0) :: (.side x, F.TALLY_ECC_DDR_UNCORR, 0) :: logFields x) s
        (r.log x 0x002 0 [.wide a.toNat]) :=
      (hr ▸ ((WithinSide.refl x _ s).set (by simp) _).set (by simp) _ : WithinSide x _ s r).log (by simp +contextual) _ _ _
    have hfabric : r.fabric x = true := by
      rw [← hr]
      exact Eq.trans (by cases x <;> rfl) hf
    refine ⟨_, hexec, ?_, ?_, hwithin.only, hwithin.rest, hwithin.rest.mem⟩
    · rw [(State.log_logOnly x _ _ _).1.get_fld (by simp [logFields]; decide), ← hr]
      refine (State.get_set_self _ _ _ _ _).trans ?_
      rw [State.add, State.get_set_fld _ _ _ _ _ _ _ _ (by decide)]
    · rw [State.seq_log_wide hfabric, ← hr]
      rw [State.inc, State.add, State.get_set_fld _ _ _ _ _ _ _ _ (by decide), State.add, State.get_set_fld _ _ _ _ _ _ _ _ (by decide)]

end Sys2Proof.Machine
end

section
/-! What the sheds, the judgement of held turn-ons and the bookkeeping of a budget exchange leave of the dies (R216 to R219). -/
namespace Sys2Proof.Machine
open Sys2Proof

variable {s t u : State} {x : Side} {l : List Fld}

/-! ## The Damper and the units present are no part of a side's work -/

/-- The Damper's view of the module, and the units marked ABSENT. -/
def State.damperView (s : State) : DamperSt × List UnitId := (s.damper, s.absent)

theorem State.damperView_setSide (s : State) (x : Side) (v : SideSt) : (s.setSide x v).damperView = s.damperView := by cases x <;> rfl

theorem State.damperView_intr (s : State) (x : Side) (n : Nat) : (s.intr x n).damperView = s.damperView := by
  unfold State.intr
  split <;> rfl

theorem State.damperView_ashFill (s : State) (x : Side) (old : State) : (s.ashFill x old).damperView = s.damperView := by
  unfold State.ashFill
  split
  · exact State.damperView_intr _ x 87
  · rfl

theorem State.damperView_ashPut (s : State) (x : Side) (prod : Nat) (e : LogEntry) : (s.ashPut x prod e).damperView = s.damperView := by
  have hput : ∀ v n old, (((s.setSide x v).set (.side x) F.ASH_SEQ 0 n).ashFill x old).damperView = s.damperView := fun v n old =>
    (State.damperView_ashFill _ x old).trans (s.damperView_setSide x v)
  unfold State.ashPut
  dsimp only
  split
  · exact hput _ _ _
  · exact hput _ _ _

theorem State.damperView_log (s : State) (x : Side) (code prod : Nat) (args : List Arg) : (s.log x code prod args).damperView = s.damperView := by
  unfold State.log
  dsimp only
  split
  · rfl
  · split
    · rfl
    · exact State.each_keeps (P := fun t => t.damperView = s.damperView) (fun t _ h => (t.damperView_ashPut x _ _).trans h) _
        (s.damperView_ashPut x _ _)

theorem State.damperView_logBoth (s : State) (code prod : Nat) (args : List Arg) : (s.logBoth code prod args).damperView = s.damperView :=
  (State.damperView_log _ .b code prod args).trans (s.damperView_log .a code prod args)

theorem State.damperView_pairPull1 (s : State) (x : Side) : (s.pairPull1 x).damperView = s.damperView := by
  unfold State.pairPull1
  dsimp only
  split
  · rfl
  · split
    · rfl
    · split
      · rfl
      · exact (State.damperView_setSide _ x _).trans (s.damperView_setSide x _)

theorem State.damperView_pairPulls (x : Side) : ∀ (n : Nat) (s : State), (iter (fun s => s.pairPull1 x) n s).damperView = s.damperView
  | 0, _ => rfl
  | n + 1, s => (State.damperView_pairPulls x n _).trans (s.damperView_pairPull1 x)

theorem State.damperView_enqueue (s : State) (x : Side) (i : Nat) (ws : List Nat) : (s.enqueue x i ws).damperView = s.damperView := by
  have hlatch : ∀ t : State, (if i < 32 then t.intr x i else t).damperView = t.damperView := fun t => by
    split
    · exact t.damperView_intr x i
    · rfl
  have hpull : ∀ t : State, (if t.pairDoor x = some i then t.pairPull x else t).damperView = t.damperView := fun t => by
    split
    · exact State.damperView_pairPulls x 64 t
    · rfl
  exact (hpull _).trans ((hlatch _).trans (s.damperView_setSide x _))

theorem State.damperView_event (s : State) (x : Side) (w cls status detail target : Nat) (words : List Nat) :
    (s.event x w cls status detail target words).damperView = s.damperView := by
  unfold State.event
  dsimp only
  split
  · rfl
  · split
    · split
      · exact s.damperView_enqueue x _ _
      · refine (State.damperView_log _ x _ _ _).trans ?_
        split <;> rfl
    · rfl

theorem State.damperView_eventBoth (s : State) (w cls status detail target : Nat) (words : List Nat) :
    (s.eventBoth w cls status detail target words).damperView = s.damperView :=
  (State.damperView_event _ .b w cls status detail target words).trans (s.damperView_event .a w cls status detail target words)

/-! ## The frame -/

/-- What of a die decides whether it takes part in the budget bus: whether it is powered, whether it sends, and whether its feed is absent. -/
def DieSt.onBus (v : DieSt) : Bool × Bool × Bool := (v.powered, v.present, v.feedGone)

/-- `t` is `s` but for the channels, the register fields `l` of the dies, and what the sides, the Damper and the dies hold; the same dies take
part in the budget bus. -/
structure DieWork (l : List Fld) (s t : State) : Prop where
  now : t.now = s.now
  mem : t.mem = s.mem
  absent : t.absent = s.absent
  onBus : ∀ d, (t.die d).onBus = (s.die d).onBus
  get : ∀ d (f : Fld) i, (∀ g ∈ l, f.reg ≠ g.reg ∨ f.lo ≠ g.lo) → t.get (.grate d) f i = s.get (.grate d) f i

theorem DieWork.refl (l : List Fld) (s : State) : DieWork l s s := ⟨rfl, rfl, rfl, fun _ => rfl, fun _ _ _ _ => rfl⟩

theorem DieWork.trans (h : DieWork l s t) (k : DieWork l t u) : DieWork l s u :=
  ⟨k.now.trans h.now, k.mem.trans h.mem, k.absent.trans h.absent, fun d => (k.onBus d).trans (h.onBus d),
   fun d f i hf => (k.get d f i hf).trans (h.get d f i hf)⟩

theorem DieWork.set (h : DieWork l s t) {k : Holder} {f : Fld} (hf : f ∈ l) (i v : Nat) : DieWork l s (t.set k f i v) :=
  h.trans ⟨rfl, rfl, rfl, fun _ => rfl, fun _ _ _ hg => State.get_set_fld _ _ _ _ _ _ _ _ (hg f hf)⟩

theorem DieWork.cw (h : DieWork l s t) {f : Fld} (hf : f ∈ l) (c v : Nat) : DieWork l s (t.cw c f v) := h.set hf _ _

theorem DieWork.cn (h : DieWork l s t) {f : Fld} (hf : f ∈ l) (c : Nat) : DieWork l s (t.cn c f) := h.set hf _ _

theorem DieWork.setChan (h : DieWork l s t) (c : Nat) (v : Chan) : DieWork l s (t.setChan c v) :=
  h.trans ⟨rfl, rfl, rfl, fun _ => rfl, fun _ _ _ _ => rfl⟩

theorem DieWork.setDie (h : DieWork l s t) (d : Nat) {v : DieSt} (hv : v.onBus = (t.die d).onBus := by rfl) : DieWork l s (t.setDie d v) := by
  refine h.trans ⟨rfl, rfl, rfl, fun e => ?_, fun _ _ _ _ => rfl⟩
  rw [State.die_setDie]
  split
  · next he => rw [he, hv]
  · rfl

theorem DieWork.setSide (h : DieWork l s t) (x : Side) (v : SideSt) : DieWork l s (t.setSide x v) := by
  refine h.trans ⟨?_, ?_, ?_, fun _ => ?_, fun _ _ _ _ => ?_⟩ <;> cases x <;> rfl

theorem DieWork.damper (h : DieWork l s t) (v : DamperSt) : DieWork l s { t with damper := v } :=
  h.trans ⟨rfl, rfl, rfl, fun _ => rfl, fun _ _ _ _ => rfl⟩

theorem DieWork.ite {p : Prop} [Decidable p] (h : DieWork l s t) (k : DieWork l s u) : DieWork l s (if p then t else u) := by
  split <;> assumption

theorem DieWork.each {α : Type} {f : State → α → State} (h : DieWork l s t) (hf : ∀ t a, DieWork l t (f t a)) (as : List α) :
    DieWork l s (t.each as f) :=
  State.each_keeps (fun r a hr => hr.trans (hf r a)) as h

/-- What posts events or entries and nothing else. -/
theorem DieWork.posted {n : List Spot} (h : DieWork l s t) (k : Posted n t u) (hview : u.damperView = t.damperView) : DieWork l s u :=
  h.trans ⟨k.now, k.mem, congrArg Prod.snd hview, fun d => congrArg (fun m => (Tab.at DieSt.init m d).onBus) k.dies,
    fun d f i _ => k.grate d f i⟩

theorem DieWork.logBoth (h : DieWork l s t) (code prod : Nat) (args : List Arg) : DieWork l s (t.logBoth code prod args) :=
  h.posted (t.logBoth_posted code prod args) (t.damperView_logBoth code prod args)

theorem DieWork.eventBoth (h : DieWork l s t) (w cls status detail target : Nat) (words : List Nat) :
    DieWork l s (t.eventBoth w cls status detail target words) :=
  h.posted (t.eventBoth_posted w cls status detail target words) (t.damperView_eventBoth w cls status detail target words)

/-- The dies that take part in the budget bus. -/
theorem DieWork.busDies (h : DieWork l s t) : t.busDies = s.busDies := by
  refine List.filter_congr fun d _ => ?_
  have hbus := h.onBus d
  simp only [DieSt.onBus, Prod.mk.injEq] at hbus
  obtain ⟨hpowered, hsends, -⟩ := hbus
  rw [hpowered, hsends, State.present, State.present, h.absent]

/-! ## Replies of a die (R50, R81) -/

theorem DieWork.sendReplies (x : Side) (d : Nat) : ∀ {n : Nat} {t : State}, DieWork l s t → DieWork l s (t.sendReplies x d n)
  | 0, _, h => h
  | n + 1, t, h => by
    unfold State.sendReplies
    dsimp only
    split
    · split
      · refine DieWork.sendReplies x d ((h.setSide x _).setDie d ?_)
        rw [State.die_setSide]
        rfl
      · exact h
    · exact h

theorem DieWork.dieReply (h : DieWork l s t) (d : Nat) (r : Reply) : DieWork l s (t.dieReply d r) :=
  DieWork.sendReplies _ _ (h.setDie d)

/-! ## What happens to a channel (R162, R163, R174, R197) -/

/-- Register fields of a channel that its turn-on, its turn-off, its faults and its holds write, and the counts of its die. -/
def workFlds : List Fld :=
  offFlds ++ beginFlds ++ pwmFlds ++
    [F.CH_STATE_HELD, F.CH_STATE_SPARK_LAST, F.DMP_CH_REFUSE_COUNT, F.DMP_CH_SHED_COUNT, F.DMP_REFUSE_LIMIT_COUNT, F.DMP_REFUSE_BUDGET_COUNT,
     F.DMP_HOLD_ADMIT_COUNT, F.DMP_SHED_COUNT]

/-- The same, in the frame of those fields. -/
abbrev Judged (s t : State) : Prop := DieWork workFlds s t

theorem Judged.goto (h : Judged s t) (c st : Nat) : Judged s (t.goto c st) := by
  have hstate := h.cw (f := F.CH_STATE_STATE) (by decide) c st
  rw [State.goto_eq, State.gotoRegs]
  exact DieWork.setChan (hstate.ite (hstate.cw (f := F.DMP_CH_STATUS_SHED) (by decide) c 0)) c _

theorem Judged.faultTo (h : Judged s t) (c fault st : Nat) : Judged s (t.faultTo c fault st) := by
  rw [State.faultTo_eq]
  exact DieWork.setChan (Judged.goto (h.cw (f := F.CH_DIAG) (by decide) c _) c st) c _

theorem Judged.cmdOff (h : Judged s t) (c : Nat) : Judged s (t.cmdOff c) := (h.cw (f := F.CH_STATE_CMD_ON) (by decide) c 0).setChan c _

theorem Judged.chEvent (h : Judged s t) (c code w : Nat) : Judged s (t.chEvent c code w) := by
  unfold State.chEvent
  split
  · exact h.eventBoth _ _ _ _ _ _
  · split
    · exact (h.setChan c _).eventBoth _ _ _ _ _ _
    · exact h.cn (f := F.CH_EVT_SUPPRESS_COUNT) (by decide) c

theorem Judged.faultHandle (h : Judged s t) (c : Nat) : Judged s (t.faultHandle c) := by
  have hgoto := Judged.goto h c
  obtain ⟨-, heq⟩ | ⟨-, at_, heq⟩ | ⟨-, heq⟩ := t.faultHandle_cases c <;> rw [heq]
  · exact hgoto 0
  · exact (hgoto 6).setChan c _
  · obtain ⟨args, hlatch⟩ := t.latch_eq c
    rw [hlatch]
    exact (Judged.chEvent (((hgoto 7).setChan c _).cn (f := F.CH_LATCH_COUNT) (by decide) c) c 3 _).logBoth _ _ _

/-! ## Turn-ons (R162, R192, R217) -/

theorem Judged.commanded (h : Judged s t) (c mode : Nat) : Judged s (t.commanded c mode) :=
  ((((h.setChan c _).cn (f := F.CH_TURN_ON_COUNT) (by decide) c).cw (f := F.WIRE_STATUS_TRIPPED) (by decide) c 0).cw
    (f := F.CH_STATE_MODE) (by decide) c mode).cw (f := F.CH_STATE_CMD_ON) (by decide) c 1

theorem Judged.startStatic (h : Judged s t) (c st : Nat) (on : TurnOn) : Judged s (t.startStatic c on st) := by
  rw [State.startStatic_eq]
  exact (Judged.goto (Judged.commanded h c 0) c st).setChan c _

theorem Judged.startPwm (h : Judged s t) (c : Nat) : Judged s (t.startPwm c) := by
  rw [State.startPwm_eq]
  exact (Judged.goto (Judged.commanded h c 1) c 3).setChan c _

theorem Judged.mode (h : Judged s t) (c mode : Nat) : Judged s ((t.cw c F.CH_STATE_MODE mode).cw c F.CH_STATE_CMD_ON 1) :=
  (h.cw (f := F.CH_STATE_MODE) (by decide) c mode).cw (f := F.CH_STATE_CMD_ON) (by decide) c 1

theorem Judged.pwmRegs (h : Judged s t) (c : Nat) (on : TurnOn) : Judged s (t.pwmRegs c on) :=
  (((h.cw (f := F.CH_PWM_FREQ_FREQ) (by decide) c _).cw (f := F.CH_PWM_FREQ_COMP) (by decide) c _).cw (f := F.CH_PWM_FREQ_PHASE) (by decide) c
    _).cw (f := F.CH_PWM_DUTY_DUTY) (by decide) c _

theorem Judged.stayOnEnd (h : Judged s t) (c : Nat) : Judged s (t.stayOnEnd c) := by
  unfold State.stayOnEnd
  dsimp only
  split
  · exact h.setChan c _
  · exact h

theorem Judged.applyOn (h : Judged s t) (c : Nat) (on : TurnOn) : Judged s (t.applyOn c on) := by
  have hpwm := Judged.pwmRegs h c on
  unfold State.applyOn
  dsimp only
  refine .ite (.ite (hpwm.startPwm c) (.ite ?_ (.ite ?_ (hpwm.mode c 1)))) (.ite (h.startStatic c 1 on) (.ite (.ite (h.startStatic c 4 on)
    (.ite (h.startStatic c 2 on) (h.startStatic c 1 on))) (.ite ?_ ?_)))
  · exact Judged.stayOnEnd (hpwm.cw (f := F.CH_STATE_CMD_ON) (by decide) c 1) c
  · exact (hpwm.mode c 1).setChan c _
  · exact (h.mode c 0).setChan c _
  · exact (h.mode c 0).setChan c _

theorem Judged.admitted (h : Judged s t) (c : Nat) : Judged s (t.admitted c) := by
  obtain heq | heq := t.admitted_eq c <;> rw [heq]
  · exact h
  · exact h.setDie _

/-! ## The end of a hold (R93, R196, R218) -/

theorem Judged.groupEnd (h : Judged s t) (d n : Nat) (j : Job) (admitted : Bool) : Judged s (t.groupEnd d n j admitted) := by
  unfold State.groupEnd
  split
  · exact h
  · dsimp only
    exact .ite ((h.setDie d).dieReply d _) (h.setDie d)

theorem Judged.autoEnd (h : Judged s t) (c : Nat) (cause : OnCause) (on : TurnOn) (status detail : Nat) :
    Judged s (t.autoEnd c cause on status detail) := by
  have hevent := Judged.chEvent h c 0xA (status + detail % 4096 * 2 ^ 8 + b2n (cause == .feedReturn) * 2 ^ 20)
  unfold State.autoEnd
  dsimp only
  refine .ite (.ite (.ite (Judged.startPwm (Judged.admitted hevent c) c) (Judged.startStatic (Judged.admitted hevent c) c 1 on)) hevent)
    (.ite (Judged.cmdOff hevent c) (.ite (Judged.faultHandle (hevent.setChan c _) c) hevent))

theorem Judged.limitRefused (h : Judged s t) (c : Nat) : Judged s (t.limitRefused c) :=
  (h.set (f := F.DMP_REFUSE_LIMIT_COUNT) (by decide) _ _).cn (f := F.DMP_CH_REFUSE_COUNT) (by decide) c

theorem Judged.budgetRefused (h : Judged s t) (c : Nat) : Judged s (t.budgetRefused c) :=
  (h.set (f := F.DMP_REFUSE_BUDGET_COUNT) (by decide) _ _).cn (f := F.DMP_CH_REFUSE_COUNT) (by decide) c

/-- Channel `c` with its hold over and what ended it counted. -/
def State.holdOver (s : State) (c status : Nat) : State :=
  let t := (s.setChan c { s.chan c with hold := none }).cw c F.CH_STATE_HELD 0
  if status = stBudget then t.budgetRefused c else if status = stOk then t.inc (.grate (c / 16)) F.DMP_HOLD_ADMIT_COUNT 0 else t

/-- The held command then acts, when it is admitted. -/
def State.holdActs (s : State) (c status : Nat) (on : TurnOn) : State :=
  if status = stOk then ((s.admitted c).applyOn c on).cw c F.CH_STATE_SPARK_LAST 0 else s

theorem State.holdEnd_auto {hold : Hold} (hjob : hold.job = none) (s : State) (c status detail : Nat) :
    s.holdEnd c hold status detail = (s.holdOver c status).autoEnd c hold.cause hold.on status detail := by
  unfold State.holdEnd
  rw [hjob]
  rfl

theorem State.holdEnd_command {hold : Hold} {j : Job} (hjob : hold.job = some j) (s : State) (c status detail : Nat) :
    s.holdEnd c hold status detail = if j.pkt.code = 0x206 then
      ((s.holdOver c status).holdActs c status hold.on).groupEnd (c / 16) (c % 16) j (status == stOk)
    else ((s.holdOver c status).holdActs c status hold.on).dieReply (c / 16) ⟨j, status, detail, []⟩ := by
  unfold State.holdEnd
  rw [hjob]
  rfl

theorem Judged.holdOver (h : Judged s t) (c status : Nat) : Judged s (t.holdOver c status) := by
  have hended := (h.setChan c { t.chan c with hold := none }).cw (f := F.CH_STATE_HELD) (by decide) c 0
  exact (Judged.budgetRefused hended c).ite ((hended.set (f := F.DMP_HOLD_ADMIT_COUNT) (by decide) _ _).ite hended)

theorem Judged.holdActs (h : Judged s t) (c status : Nat) (on : TurnOn) : Judged s (t.holdActs c status on) :=
  ((Judged.applyOn (Judged.admitted h c) c on).cw (f := F.CH_STATE_SPARK_LAST) (by decide) c 0).ite h

theorem Judged.holdEnd (h : Judged s t) (c : Nat) (hold : Hold) (status detail : Nat) : Judged s (t.holdEnd c hold status detail) := by
  have hover := Judged.holdOver h c status
  cases hjob : hold.job with
  | none =>
    rw [State.holdEnd_auto hjob]
    exact hover.autoEnd c _ _ _ _
  | some j =>
    rw [State.holdEnd_command hjob]
    exact .ite (Judged.groupEnd (hover.holdActs c status _) _ _ _ _) ((hover.holdActs c status _).dieReply _ _)

/-! ## Sheds (R219) -/

theorem Judged.shed (h : Judged s t) (c b : Nat) : Judged s (t.shed c b) := by
  unfold State.shed
  dsimp only
  exact (((((Judged.faultTo h c 8 8).cw (f := F.DMP_CH_STATUS_SHED) (by decide) c 1).set (f := F.DMP_SHED_COUNT) (by decide) _ _).cn
    (f := F.DMP_CH_SHED_COUNT) (by decide) c).eventBoth _ _ _ _ _ _).logBoth _ _ _

theorem Judged.shedWhile (b : Nat) (need : State → Bool) : ∀ {cs : List Nat} {t : State}, Judged s t → Judged s (t.shedWhile b need cs)
  | [], _, h => h
  | c :: cs, t, h => by
    unfold State.shedWhile
    exact .ite (Judged.shedWhile b need (h.shed c b)) h

theorem Judged.shedFor (h : Judged s t) (c : Nat) (only : Option Nat) (misfit : State → Nat → List Nat) (bs : List Nat) :
    Judged s (t.shedFor c only misfit bs) :=
  h.each (fun r b => Judged.shedWhile b _ (DieWork.refl _ r)) bs

theorem Judged.p0Sheds (h : Judged s t) : Judged s t.p0Sheds := by
  unfold State.p0Sheds
  dsimp only
  refine .ite (DieWork.each ?_ (fun r b => Judged.shedWhile b _ (DieWork.refl _ r)) _) h
  exact h.each (fun r d => (DieWork.refl _ r).setDie d) _

/-! ## Held turn-ons (R218) -/

theorem State.judgeHeld_judged (s : State) (c : Nat) : Judged s (s.judgeHeld c) := by
  have hrefl := DieWork.refl workFlds s
  unfold State.judgeHeld
  dsimp only
  split
  · exact hrefl
  · next hold _ =>
    have hend (status detail : Nat) := Judged.holdEnd hrefl c hold status detail
    split
    · exact Judged.holdEnd (Judged.limitRefused hrefl c) c hold _ _
    · refine .ite (hend _ _) (.ite (hend _ _) (.ite (hend _ _) (.ite (.ite (hend _ _) (hrefl.setChan c _)) (.ite (hend _ _) (.ite (hend _ _)
        (.ite ?_ (.ite (hend _ _) (hrefl.setChan c _))))))))
      exact Judged.holdEnd (Judged.shedFor hrefl c none _ _) c hold _ _

end Sys2Proof.Machine
end

section
/-! Commands that their die does not apply: those that a ceiling, the latch or the Damper refuses, those that are held, and those of a side that
does not hold the token (R192, R206, R217, R218, R220, R259). -/
namespace Sys2Proof.Machine
open Sys2Proof

variable {s t u : State} {x : Side} {d : Fin 4} {j : Job} {q : List Job} {c : Nat}

/-! ## What a channel answers that takes no action -/

/-- The reply that says how a channel took command `j` (R192). -/
def Done.reply (r : Done) (j : Job) (hold : Nat) : Reply :=
  match r with
  | .applied => ⟨j, stOk, 0, []⟩
  | .held => ⟨j, stDelayed, hold, []⟩
  | .refused status detail => ⟨j, status, detail, []⟩

theorem exec_chSet_master {r : Done} (hhead : s.LinkHead x d 0x201 j q) (hmaster : s.Master x d) (hc : j.pkt.target = c)
    (hact : (s.unlinked x d q).act c (actOfSet (j.pkt.p 1)) (setSlew (j.pkt.p 1)) j.pkt.compared (some j) = (t, r)) :
    exec (.chSet x d) s = .next (t.dieReply d (r.reply j (t.holdDetail c))) := by
  have hside := hhead.2.2.1
  subst hc hside
  refine congrArg ok ((State.fast_head hhead _).trans ?_)
  change (s.unlinked j.side d q).channelCommand d j (actOfSet (j.pkt.p 1)) (setSlew (j.pkt.p 1)) = _
  unfold State.channelCommand
  rw [State.asMaster_unlinked hmaster, hact]
  cases r <;> rfl

/-- A side that neither holds the token nor held it before the last change is answered NOT_MASTER. -/
theorem exec_chSet_notMaster (hhead : s.LinkHead x d 0x201 j q) (hholds : s.holds x d = false) (hold : (s.die d).oldHolder ≠ some x) :
    exec (.chSet x d) s = .next ((s.unlinked x d q).dieReply d ⟨j, stMaster, s.masterDetail d, []⟩) := by
  have hside := hhead.2.2.1
  subst hside
  have hholds' : (s.unlinked j.side d q).holds j.side d = false := Eq.trans (by cases j.side <;> rfl) hholds
  have hold' : ((s.unlinked j.side d q).die d).oldHolder ≠ some j.side := by rwa [State.unlinked, State.die_setSide]
  have hdetail : (s.unlinked j.side d q).masterDetail d = s.masterDetail d := by cases j.side <;> rfl
  refine congrArg ok ((State.fast_head hhead _).trans ?_)
  unfold State.channelCommand
  rw [State.asMaster, if_neg (by simp [hholds']), if_neg (by simp [hold']), if_neg (by simp [hold']), hdetail]

/-! ## What refuses an action (R192, R206, R218) -/

/-- A refusal counted by counter `f` of the die and by the channel. -/
def State.refusalCounted (s : State) (c : Nat) (f : Fld) : State := (s.inc (.grate (c / 16)) f 0).cn c F.DMP_CH_REFUSE_COUNT

/-- A CH_SET counts as a turn-on where the channel is off or runs in PWM (R192, R515). -/
theorem State.act_set_overCeiling {p slew code : Nat} {compared : Bool} {job : Option Job} (hhold : (s.chan c).hold = none)
    (hceiling : s.ceiling c ((actOfSet p).ask (p.testBit 0 && (s.chState c == 0 || s.chState c == 8 || s.inPwm c)) compared slew) = some code) :
    s.act c (actOfSet p) slew compared job = (s.refusalCounted c F.DMP_REFUSE_LIMIT_COUNT, .refused stLimit code) := by
  unfold State.act
  rw [State.holdCut_none hhold]
  cases hp : p.testBit 0
  · rw [actOfSet_off hp] at hceiling ⊢
    dsimp only
    rw [show s.ceiling c ((Act.off none).ask false compared slew) = some code from hceiling]
    rfl
  · rw [actOfSet_on hp, hp, Bool.true_and] at hceiling
    rw [actOfSet_on hp]
    dsimp only
    rw [Bool.not_false, Bool.and_true, hceiling]
    rfl

/-- A turn-on of a LATCHED channel. -/
theorem State.act_latched {on : TurnOn} {slew : Nat} {compared : Bool} {job : Option Job} (hhold : (s.chan c).hold = none)
    (hst : s.chState c = 7) (hceiling : s.ceiling c ((Act.on on).ask false compared slew) = none) :
    s.act c (.on on) slew compared job = (s, .refused stLimit 0x0F0) := by
  have hpwm : s.inPwm c = false := by rw [State.inPwm, hst]; rfl
  unfold State.act
  rw [State.holdCut_none hhold]
  dsimp only
  rw [hst, hpwm, show ((7 : Nat) == 0 || (7 : Nat) == 8 || false && !on.pwm) = false from rfl, hceiling]
  rfl

/-- A turn-on of a channel in OFF that fails no ceiling is as the Damper judges it. -/
theorem State.act_judged {on : TurnOn} {slew : Nat} {compared : Bool} (hhold : (s.chan c).hold = none) (hst : s.chState c = 0)
    (hceiling : s.ceiling c ((Act.on on).ask true compared slew) = none) :
    (∀ status detail, s.judge c = .refuse status detail →
      s.act c (.on on) slew compared (some j) = (s.refusalCounted c F.DMP_REFUSE_BUDGET_COUNT, .refused status detail)) ∧
    (∀ l, s.judge c = .hold l → s.act c (.on on) slew compared (some j) = (s.holdStart c (some j) .command on l, .held)) := by
  unfold State.act
  rw [State.holdCut_none hhold]
  dsimp only
  rw [hst, show ((0 : Nat) == 0 || (0 : Nat) == 8 || s.inPwm c && !on.pwm) = true from rfl, hceiling]
  constructor
  · intro status detail hjudge
    rw [hjudge]
    rfl
  · intro l hjudge
    rw [hjudge]
    rfl

/-! ## What a refusal leaves (R206, R218) -/

theorem RepliesStill.set (h : RepliesStill s t) (k : Holder) (f : Fld) (i v : Nat) : RepliesStill s (t.set k f i v) :=
  ⟨fun x => (State.side_set ..).trans (h.side x), h.out⟩

/-- A command refused in a state in which neither the channels nor, outside the frame `l`, the registers have changed. -/
theorem State.refused_rest {l : List Spot} {r : Reply} (hchans : t.chans = s.chans) (honly : Only l s t) (hmem : t.mem = s.mem) (d : Nat) :
    (t.dieReply d r).chans = s.chans ∧ Only l s (t.dieReply d r) ∧ MemSame s (t.dieReply d r) := by
  obtain ⟨hchans', hregs, hmem', -⟩ := t.dieReply_rest d r
  exact ⟨hchans'.trans hchans, honly.then_regs hregs, MemSame.of_mem (hmem'.trans hmem)⟩

/-- A packet off its link, which has changed nothing else. -/
theorem State.unlinked_rest (s : State) (x : Side) (d : Nat) (q : List Job) : (s.unlinked x d q).chans = s.chans ∧
    (s.unlinked x d q).regs = s.regs ∧ (s.unlinked x d q).mem = s.mem :=
  ⟨State.chans_setSide _ _ _, State.regs_setSide _ _ _, State.mem_setSide _ _ _⟩

/-- What a refusal leaves that is counted by one of the two counters of the die. -/
theorem State.refusalCounted_rest {f : Fld} {r : Reply} (hf : f.reg ≠ F.DMP_CH_REFUSE_COUNT.reg) (q : List Job) (hd : c / 16 = d.val) :
    (((s.unlinked x d q).refusalCounted c f).dieReply d r).chans = s.chans ∧
    Only [(.grate d, f, 0), (.grate d, F.DMP_CH_REFUSE_COUNT, c % 16)] s (((s.unlinked x d q).refusalCounted c f).dieReply d r) ∧
    (((s.unlinked x d q).refusalCounted c f).dieReply d r).get (.grate d) f 0 = (s.get (.grate d) f 0 + 1) % 2 ^ f.width ∧
    MemSame s (((s.unlinked x d q).refusalCounted c f).dieReply d r) := by
  obtain ⟨hchans, hregs, hmem⟩ := s.unlinked_rest x d q
  have honly : Only [(.grate d, f, 0), (.grate d, F.DMP_CH_REFUSE_COUNT, c % 16)] s ((s.unlinked x d q).refusalCounted c f) := by
    rw [State.refusalCounted, hd]
    refine ((Only.of_regs hregs).then_set (by simp)).then_set ?_
    rw [hd]
    simp
  have hcount : ((s.unlinked x d q).refusalCounted c f).get (.grate d) f 0 = (s.get (.grate d) f 0 + 1) % 2 ^ f.width := by
    rw [State.refusalCounted, hd, State.cn, State.inc, State.add, State.get_set_fld _ _ _ _ _ _ _ _ (.inl hf), State.inc, State.add,
      State.get_set_self, State.get, hregs]
    rfl
  obtain ⟨hchans', honly', hmem'⟩ := State.refused_rest (r := r) (t := (s.unlinked x d q).refusalCounted c f) hchans honly hmem d
  obtain ⟨-, hregs', -⟩ := ((s.unlinked x d q).refusalCounted c f).dieReply_rest d r
  exact ⟨hchans', honly', by rw [State.get, hregs']; exact hcount, hmem'⟩

/-! ## What a hold writes (R217) -/

/-- A CH_SET held at a channel that is not driven. -/
theorem State.holdStart_undriven {cause : OnCause} {on : TurnOn} {l : List Nat} (hst : s.chState c = 0) :
    s.holdStart c (some j) cause on l = ((((((s.setChan c { s.chan c with hold := some ⟨some j, cause, on, s.now,
      s.now + s.cq c F.DMP_CH_CFG_HOLD * 1000000, budgetMask l⟩ }).cw c F.CH_STATE_HELD 1).inc (.grate (c / 16)) F.DMP_HOLD_COUNT 0).cw c
      F.DMP_CH_STATUS_HELD_SIDE j.side.num).cw c F.DMP_CH_STATUS_HELD_TAG j.pkt.tag).cmdOff c) := by
  unfold State.holdStart
  dsimp only
  rw [if_neg]
  rw [State.chState_cw _ _ _ _ (by decide), State.chState_cw _ _ _ _ (by decide), State.chState,
    show State.cq (State.inc _ _ _ _) c _ = _ from State.get_set_fld _ _ _ _ _ _ _ _ (by decide)]
  have hcw := State.chState_cw (s.setChan c { s.chan c with hold := some ⟨some j, cause, on, s.now,
    s.now + s.cq c F.DMP_CH_CFG_HOLD * 1000000, budgetMask l⟩ }) c c (f := F.CH_STATE_HELD) 1 (by decide)
  rw [show State.get _ (.grate (c / 16)) F.CH_STATE_STATE (c % 16) = _ from hcw, State.chState, State.cq_setChan, ← State.chState, hst]
  decide

/-- A counter beside the channel's own registers. -/
theorem AtChan.count {n : List Spot} {l : List Fld} (h : AtChan c n l s t) {k : Holder} {f : Fld} {i : Nat} (hf : (k, f, i) ∈ n) :
    AtChan c n l s (t.inc k f i) :=
  h.trans ⟨fun _ _ => rfl, Only.set (List.mem_append_left _ hf), rfl⟩

/-- Register fields of a channel that a held command writes. -/
def holdFlds : List Fld := [F.CH_STATE_HELD, F.DMP_CH_STATUS_HELD_SIDE, F.DMP_CH_STATUS_HELD_TAG, F.CH_STATE_CMD_ON]

/-- Command `j` was held at channel `c` between `s` and `t`, in OFF. -/
structure HeldAt (c : Nat) (j : Job) (s t : State) : Prop where
  at_ : AtChan c [(.grate (c / 16), F.DMP_HOLD_COUNT, 0)] holdFlds s t
  shown : t.cq c F.CH_STATE_HELD = 1
  tag : t.cq c F.DMP_CH_STATUS_HELD_TAG = j.pkt.tag % 2 ^ F.DMP_CH_STATUS_HELD_TAG.width
  until_ : (t.chan c).hold.map (fun h => (h.job, h.until_)) = some (some j, s.now + s.cq c F.DMP_CH_CFG_HOLD * 1000000)

theorem State.holdStart_heldAt {cause : OnCause} {on : TurnOn} {l : List Nat} (hst : s.chState c = 0) :
    HeldAt c j s (s.holdStart c (some j) cause on l) ∧ RepliesStill s (s.holdStart c (some j) cause on l) := by
  rw [State.holdStart_undriven hst]
  refine ⟨⟨?_, ?_, ?_, ?_⟩, ?_⟩
  · exact ((((((AtChan.refl _ _ _ s).setChan _).cw (by decide) 1).count (by simp)).cw (by decide) _).cw (by decide) _).cw
      (f := F.CH_STATE_CMD_ON) (by decide) 0 |>.setChan _
  · rw [State.cq_cmdOff, State.cq_cw_fld _ _ _ _ (by decide), State.cq_cw_fld _ _ _ _ (by decide), State.cq_cw_fld _ _ _ _ (by decide)]
    exact (State.get_set_fld _ _ _ _ _ _ _ _ (by decide)).trans (State.cq_cw_self _ _ _ _)
  · rw [State.cq_cmdOff, State.cq_cw_fld _ _ _ _ (by decide), State.cq_cw_self]
  · rw [State.chan_cmdOff, State.chan_cw, State.chan_cw, State.chan_inc, State.chan_cw, State.chan_setChan_self]
    rfl
  · exact (((((((RepliesStill.refl s).setChan c _).cw c _ 1).set _ _ _ _).cw c _ _).cw c _ _).cw c _ 0).setChan c _

/-- What a held command leaves once its die has answered DELAYED. -/
theorem HeldAt.dieReply (h : HeldAt c j s t) (d : Nat) (r : Reply) : HeldAt c j s (t.dieReply d r) :=
  ⟨h.at_.dieReply d r, (State.cq_dieReply _ _ _ _ _).trans h.shown, (State.cq_dieReply _ _ _ _ _).trans h.tag,
   by rw [State.chan_dieReply]; exact h.until_⟩

/-! ## The obligation -/

/-- A CH_SET that turns on is judged with its own slew (R206). -/
theorem ceiling_set_on {p : Nat} {a : Option Nat} {turnOn compared : Bool} (hp : p.testBit 0 = true)
    (h : s.ceiling c ((actOfSet p).ask turnOn compared (setSlew p)) = a) (q : List Job) :
    (s.unlinked x d q).ceiling c ((Act.on ⟨false, setSlew p, 0, 0, 0, 0⟩).ask turnOn compared (setSlew p)) = a := by
  rwa [actOfSet_on hp, ← s.ceiling_unlinked x d c q] at h

/-- Settles O15: the ceilings, the latch and the Damper each end `State.act` before it touches the channel; a hold writes its own fields. -/
theorem channelRefusals : Obligations.ChannelRefusals := by
  have hfree {s : State} {x : Side} {d : Fin 4} {q : List Job} {c : Nat} (h : (s.chan c).hold = none) :
      ((s.unlinked x d q).chan c).hold = none := (congrArg Chan.hold (s.chan_unlinked x d c q)).trans h
  refine ⟨fun s x d j q c p code hhead hc hp hmaster hhold hd hceiling => ?_, fun s x d j q c p hhead hc hp hmaster hhold hd hon hst hceiling => ?_,
    fun s x d j q c p st det hhead hc hp hmaster hhold hd hon hst hceiling hjudge => ?_,
    fun s x d j q c p l hhead hc hp hmaster hhold hd hon hst hceiling hjudge => ?_, fun s x d j q hhead hholds hold => ?_⟩
  · subst hp
    have hact := State.act_set_overCeiling (s := s.unlinked x d q) (job := some j) (compared := j.pkt.compared) (slew := setSlew (j.pkt.p 1))
      (hfree hhold) (by rw [State.chState_unlinked, State.inPwm_unlinked, State.ceiling_unlinked]; exact hceiling)
    obtain ⟨hchans, honly, hcount, hmem⟩ := State.refusalCounted_rest (s := s) (x := x) (f := F.DMP_REFUSE_LIMIT_COUNT)
      (r := ⟨j, stLimit, code, []⟩) (by decide) q hd
    exact ⟨_, exec_chSet_master hhead hmaster hc hact, DieReplied.of_still hhead (((RepliesStill.refl _).set _ _ _ _).cn c _), hchans, honly,
      hcount, hmem⟩
  · subst hp
    have hact := State.act_latched (s := s.unlinked x d q) (job := some j) (hfree hhold) (by rwa [State.chState_unlinked])
      (ceiling_set_on hon hceiling q)
    rw [← actOfSet_on hon] at hact
    obtain ⟨hchans, hregs, hmem⟩ := s.unlinked_rest x d q
    obtain ⟨hchans', honly, hmem'⟩ := State.refused_rest (l := []) (r := ⟨j, stLimit, 0x0F0, []⟩) hchans (Only.of_regs hregs) hmem d
    exact ⟨_, exec_chSet_master hhead hmaster hc hact, DieReplied.of_still hhead (RepliesStill.refl _), hchans', honly, hmem'⟩
  · subst hp
    have hact := (State.act_judged (s := s.unlinked x d q) (j := j) (hfree hhold) (by rwa [State.chState_unlinked])
      (ceiling_set_on hon hceiling q)).1 st det (by rwa [State.judge_unlinked])
    rw [← actOfSet_on hon] at hact
    obtain ⟨hchans, honly, hcount, hmem⟩ := State.refusalCounted_rest (s := s) (x := x) (f := F.DMP_REFUSE_BUDGET_COUNT)
      (r := ⟨j, st, det, []⟩) (by decide) q hd
    exact ⟨_, exec_chSet_master hhead hmaster hc hact, DieReplied.of_still hhead (((RepliesStill.refl _).set _ _ _ _).cn c _), hchans, honly,
      hcount, hmem⟩
  · subst hp
    have hact := (State.act_judged (s := s.unlinked x d q) (j := j) (hfree hhold) (by rwa [State.chState_unlinked])
      (ceiling_set_on hon hceiling q)).2 l (by rwa [State.judge_unlinked])
    rw [← actOfSet_on hon] at hact
    obtain ⟨hheld, hstill⟩ := State.holdStart_heldAt (s := s.unlinked x d q) (j := j) (cause := .command)
      (on := ⟨false, setSlew (j.pkt.p 1), 0, 0, 0, 0⟩) (l := l) (by rwa [State.chState_unlinked])
    have hdetail : ((s.unlinked x d q).holdStart c (some j) .command ⟨false, setSlew (j.pkt.p 1), 0, 0, 0, 0⟩ l).holdDetail c =
        (s.cq c F.DMP_CH_CFG_HOLD + 1) / 2 := by
      rw [State.holdDetail, hheld.at_.cq (by simp +decide) (by decide), State.cq_unlinked]
    obtain ⟨hat, hshown, htag, huntil⟩ := hheld.dieReply d (Done.held.reply j ((s.cq c F.DMP_CH_CFG_HOLD + 1) / 2))
    have hat' := (AtChan.unlinked c holdFlds s x d q).chans
    rw [State.now_unlinked, State.cq_unlinked] at huntil
    have hexec := exec_chSet_master hhead hmaster hc hact
    rw [hdetail] at hexec
    refine ⟨_, hexec, DieReplied.of_still hhead hstill, hshown, ?_, htag, huntil, ?_, ?_, ?_⟩
    · exact (hat.cq (by simp +decide) (by decide)).trans ((State.chState_unlinked _ _ _ _ _).trans hst)
    · exact fun b hb => (hat.chans b hb).trans (hat' b hb)
    · have honly := hat.only
      rw [hd] at honly
      exact (Only.of_regs (s.unlinked_rest x d q).2.1).trans honly
    · exact (MemSame.of_mem (s.unlinked_rest x d q).2.2).trans hat.memSame
  · obtain ⟨hchans, hregs, hmem⟩ := s.unlinked_rest x d q
    obtain ⟨hchans', honly, hmem'⟩ := State.refused_rest (l := []) (r := ⟨j, stMaster, s.masterDetail d, []⟩) hchans (Only.of_regs hregs) hmem d
    exact ⟨_, exec_chSet_notMaster hhead hholds hold, DieReplied.of_still hhead (RepliesStill.refl _), hchans', honly, hmem'⟩

end Sys2Proof.Machine
end

section
/-! The wire model of a channel: its step, its trip and its cooling, and the step of a die (R209, R210, R212). -/
namespace Sys2Proof.Machine
open Sys2Proof

variable {s t u : State} {c : Nat} {n : List Spot} {l : List Fld}

/-! ## Damper events of a channel (R197, R228) -/

theorem AtChan.ownerEvent (h : AtChan c (noticeFields s c) l s t) (hl : ∀ f ∈ l, F.CH_CFG2.reg ≠ f.reg ∧ F.DOOR_EVT.reg ≠ f.reg)
    (cls status detail target : Nat) (words : List Nat) :
    AtChan c (noticeFields s c) l s (t.eventBoth (t.cq c F.CH_CFG2) cls status detail target words) := by
  refine h.posted (Posted.mono (t.eventBoth_posted _ _ _ _ _ _) fun p hp => ?_)
  rw [← h.noticeFields_eq hl]
  exact hp

theorem AtChan.dmpEvent (h : AtChan c (noticeFields s c) l s t) (hcount : F.CH_EVT_SUPPRESS_COUNT ∈ l)
    (hl : ∀ f ∈ l, F.CH_CFG2.reg ≠ f.reg ∧ F.DOOR_EVT.reg ≠ f.reg) (code : Nat) (words : List Nat) :
    AtChan c (noticeFields s c) l s (t.dmpEvent c code words) := by
  unfold State.dmpEvent
  split
  · exact h.ownerEvent hl _ _ _ _ _
  · split
    · exact (h.setChan _).ownerEvent hl _ _ _ _ _
    · exact h.cn hcount

/-! ## The step of one channel (R209) -/

/-- Register fields of a channel that the wire model writes. -/
def wireFlds : List Fld :=
  offFlds ++ [F.WIRE_ISQ, F.WIRE_THETA, F.WIRE_STATUS_TRIPPED, F.WIRE_STATUS_COOLING, F.WIRE_TRIP_COUNT, F.CH_STATE_CMD_ON]

/-- The mean squared current and the new rise that the wire model makes of the channel's samples. -/
def State.wireNext (s : State) (c : Nat) : Nat × Nat :=
  wireStep ((s.chan c).samples.map (fun i => s.widen c i.natAbs)) (s.hrn c 2) (s.hrn c 3) (s.cq c F.WIRE_THETA)

/-- The channel's record with its samples averaged and started anew. -/
def Chan.averaged (v : Chan) : Chan := { v with samples := [], iMean := (v.samples.map (fun i => i.natAbs)).foldl (· + ·) 0 / 10 }

/-- The channel as it shows the step's current and rise, before they trip it or end its cooling. -/
def State.wireShown (s : State) (c : Nat) : State :=
  ((s.setChan c (s.chan c).averaged).cw c F.WIRE_ISQ (s.wireNext c).1).cw c F.WIRE_THETA (s.wireNext c).2

theorem State.hrn_averaged (s : State) (c k : Nat) : (s.setChan c (s.chan c).averaged).hrn c k = s.hrn c k :=
  SameCeilings.hrn (by rw [State.chan_setChan_self]; rfl) k

theorem State.hrn_wireShown (s : State) (c k : Nat) : (s.wireShown c).hrn c k = s.hrn c k :=
  (SameCeilings.hrn (by rw [State.wireShown, State.chan_cw, State.chan_cw]) k).trans (s.hrn_averaged c k)

theorem State.wireChan_eq (s : State) (c : Nat) : s.wireChan c =
    if (s.wireShown c).cq c F.WIRE_STATUS_COOLING = 0 then
      if (s.wireShown c).ci c F.WIRE_THETA < sigInt ((s.wireShown c).hrn c 4) then s.wireShown c else (s.wireShown c).wireTrip c
    else if (s.wireShown c).ci c F.WIRE_THETA ≤ sigInt ((s.wireShown c).hrn c 5) then (s.wireShown c).wireCooled c else s.wireShown c := by
  have hnext : wireStep (((s.chan c).samples.map (fun i => i.natAbs)).map ((s.setChan c (s.chan c).averaged).widen c))
      ((s.setChan c (s.chan c).averaged).hrn c 2) ((s.setChan c (s.chan c).averaged).hrn c 3)
      ((s.setChan c (s.chan c).averaged).cq c F.WIRE_THETA) = s.wireNext c := by
    rw [s.hrn_averaged, s.hrn_averaged, List.map_map]
    rfl
  have hshown : s.wireShown c = ((s.setChan c (s.chan c).averaged).cw c F.WIRE_ISQ (wireStep
      (((s.chan c).samples.map (fun i => i.natAbs)).map ((s.setChan c (s.chan c).averaged).widen c))
      ((s.setChan c (s.chan c).averaged).hrn c 2) ((s.setChan c (s.chan c).averaged).hrn c 3)
      ((s.setChan c (s.chan c).averaged).cq c F.WIRE_THETA)).1).cw c F.WIRE_THETA (wireStep
      (((s.chan c).samples.map (fun i => i.natAbs)).map ((s.setChan c (s.chan c).averaged).widen c))
      ((s.setChan c (s.chan c).averaged).hrn c 2) ((s.setChan c (s.chan c).averaged).hrn c 3)
      ((s.setChan c (s.chan c).averaged).cq c F.WIRE_THETA)).2 := by
    rw [hnext]
    rfl
  rw [hshown]
  rfl

theorem State.cq_wireShown_fld (s : State) (c : Nat) {g : Fld} (hisq : g.reg ≠ F.WIRE_ISQ.reg) (htheta : g.reg ≠ F.WIRE_THETA.reg) :
    (s.wireShown c).cq c g = s.cq c g :=
  (State.cq_cw_fld _ _ _ _ (.inl htheta)).trans (State.cq_cw_fld _ _ _ _ (.inl hisq))

/-- The rise stays within 39 bits, and so in its register. -/
theorem wireStep_theta_lt (is : List Nat) (kw adec theta : Nat) : (wireStep is kw adec theta).2 < 2 ^ F.WIRE_THETA.width := by
  have hclamp : ∀ v : Int, (clampInt 0 top40 v).toNat < 2 ^ 40 := fun v => by
    simp only [clampInt, top40]
    omega
  exact hclamp _

theorem State.theta_wireShown (s : State) (c : Nat) : (s.wireShown c).cq c F.WIRE_THETA = (s.wireNext c).2 :=
  (State.cq_cw_self _ _ _ _).trans (Nat.mod_eq_of_lt (wireStep_theta_lt _ _ _ _))

theorem State.isq_wireShown (s : State) (c : Nat) : (s.wireShown c).cq c F.WIRE_ISQ = (s.wireNext c).1 % 2 ^ F.WIRE_ISQ.width :=
  (State.cq_cw_fld _ _ _ _ (by decide)).trans (State.cq_cw_self _ _ _ _)

theorem State.chan_wireShown (s : State) (c : Nat) : (s.wireShown c).chan c = (s.chan c).averaged := by
  rw [State.wireShown, State.chan_cw, State.chan_cw, State.chan_setChan_self]

theorem AtChan.wireShown (c : Nat) (n : List Spot) (s : State) : AtChan c n wireFlds s (s.wireShown c) :=
  (((AtChan.refl c n wireFlds s).setChan _).cw (by decide) _).cw (by decide) _

/-! ## The trip and the end of cooling (R210) -/

/-- The channel is off, where it was driven. -/
def State.wireOff (s : State) (c : Nat) : State := if driven (s.chState c) then s.damperOff c else s

/-- The trip is shown and counted. -/
def State.wireTripped (s : State) (c : Nat) : State :=
  (((s.wireOff c).cw c F.WIRE_STATUS_TRIPPED 1).cw c F.WIRE_STATUS_COOLING 1).cn c F.WIRE_TRIP_COUNT

/-- The trip then posts its event and its entry. -/
theorem State.wireTrip_posted (s : State) (c : Nat) : ∃ n, Posted n (s.wireTripped c) (s.wireTrip c) :=
  ⟨_, ((State.eventBoth_posted _ _ _ _ _ _ _).mono fun _ => List.mem_append_left _).trans
    ((State.logBoth_posted _ _ _ _).mono fun _ => List.mem_append_right _)⟩

theorem AtChan.wireTrip (h : AtChan c (noticeFields s c) wireFlds s t) : AtChan c (noticeFields s c) wireFlds s (t.wireTrip c) := by
  have hoff : AtChan c (noticeFields s c) wireFlds s (t.wireOff c) := by
    unfold State.wireOff
    split
    · exact h.faultTo (by decide) 8 8
    · exact h
  exact ((((hoff.cw (by decide) _).cw (by decide) _).cn (by decide)).dmpEvent (by decide) (by decide) 1 _).logBoth _ _ _

theorem AtChan.wireCooled (h : AtChan c (noticeFields s c) wireFlds s t) : AtChan c (noticeFields s c) wireFlds s (t.wireCooled c) := by
  have hcooled := fun words => (h.cw (f := F.WIRE_STATUS_COOLING) (by decide) 0).dmpEvent (by decide) (by decide) 2 words
  unfold State.wireCooled
  dsimp only
  split
  · exact hcooled _
  · have hoff := fun words v => ((hcooled words).cw (f := F.CH_STATE_CMD_ON) (by decide) 0).setChan v
    split
    · exact (hoff _ _).goto (by decide) 0
    · exact hoff _ _

theorem State.driven_wireOff (s : State) (c : Nat) : driven ((s.wireOff c).chState c) = false := by
  unfold State.wireOff
  split
  · rw [State.damperOff, State.chState_faultTo _ _ _ (by decide)]
    rfl
  · next h => exact Bool.eq_false_iff.2 h

theorem State.cq_wireOff (s : State) (c : Nat) {g : Fld} (hg : ∀ f ∈ faultFlds, g.reg ≠ f.reg ∨ g.lo ≠ f.lo) :
    (s.wireOff c).cq c g = s.cq c g := by
  unfold State.wireOff
  split
  · exact s.cq_faultTo_fld c 8 8 c hg
  · rfl

/-- What the wire model shows of a channel: its samples, their mean, the mean squared current and the rise. -/
def State.wireView (s : State) (c : Nat) : List Int × Nat × Nat × Nat :=
  ((s.chan c).samples, (s.chan c).iMean, s.cq c F.WIRE_ISQ, s.cq c F.WIRE_THETA)

theorem Posted.wireView (h : Posted n s t) : t.wireView c = s.wireView c := by
  rw [State.wireView, State.wireView, State.chan, State.chan, h.chans, State.cq, State.cq, h.grate, h.grate]
  rfl

theorem State.wireView_cw (s : State) (c : Nat) {f : Fld} (v : Nat) (hf : f.reg ≠ F.WIRE_ISQ.reg ∧ f.reg ≠ F.WIRE_THETA.reg) :
    (s.cw c f v).wireView c = s.wireView c := by
  rw [State.wireView, State.chan_cw, State.cq_cw_fld _ _ _ _ (.inl hf.1.symm), State.cq_cw_fld _ _ _ _ (.inl hf.2.symm), State.wireView]

theorem State.wireView_setChan (s : State) (c : Nat) (v : Chan) (hsamples : v.samples = (s.chan c).samples)
    (hmean : v.iMean = (s.chan c).iMean) : (s.setChan c v).wireView c = s.wireView c := by
  rw [State.wireView, State.chan_setChan_self, hsamples, hmean]
  rfl

theorem State.wireView_cmdOff (s : State) (c : Nat) : (s.cmdOff c).wireView c = s.wireView c := by
  refine (State.wireView_setChan (s.cw c F.CH_STATE_CMD_ON 0) c _ ?_ ?_).trans (s.wireView_cw c 0 (by decide)) <;> rfl

theorem State.wireView_goto (s : State) (c st : Nat) : (s.goto c st).wireView c = s.wireView c := by
  rw [State.wireView, State.chan_goto, State.cq_goto_fld _ _ _ _ (by decide), State.cq_goto_fld _ _ _ _ (by decide)]
  rfl

theorem State.wireView_wireOff (s : State) (c : Nat) : (s.wireOff c).wireView c = s.wireView c := by
  unfold State.wireOff
  split
  · rw [State.damperOff, State.wireView, State.chan_faultTo, State.cq_faultTo_fld _ _ _ _ _ (by decide),
      State.cq_faultTo_fld _ _ _ _ _ (by decide)]
    rfl
  · rfl

theorem State.wireView_dmpEvent (s : State) (c code : Nat) (words : List Nat) : (s.dmpEvent c code words).wireView c = s.wireView c := by
  unfold State.dmpEvent
  split
  · exact Posted.wireView (State.eventBoth_posted _ _ _ _ _ _ _)
  · split
    · exact (Posted.wireView (State.eventBoth_posted _ _ _ _ _ _ _)).trans (State.wireView_setChan _ _ _ rfl rfl)
    · exact s.wireView_cw c _ (by decide)

theorem State.wireView_wireTrip (s : State) (c : Nat) : (s.wireTrip c).wireView c = s.wireView c := by
  obtain ⟨n, hposted⟩ := s.wireTrip_posted c
  exact hposted.wireView.trans ((State.wireView_cw _ c _ (by decide)).trans ((State.wireView_cw _ c _ (by decide)).trans
    ((State.wireView_cw _ c _ (by decide)).trans (s.wireView_wireOff c))))

theorem State.wireView_wireCooled (s : State) (c : Nat) : (s.wireCooled c).wireView c = s.wireView c := by
  have hcooled := fun words => (State.wireView_dmpEvent (s.cw c F.WIRE_STATUS_COOLING 0) c 2 words).trans (s.wireView_cw c 0 (by decide))
  unfold State.wireCooled
  dsimp only
  split
  · exact hcooled _
  · have hoff := fun words => (State.wireView_cmdOff _ c).trans (hcooled words)
    split
    · exact (State.wireView_goto _ c 0).trans (hoff _)
    · exact hoff _

theorem State.wireChan_at (s : State) (c : Nat) : AtChan c (noticeFields s c) wireFlds s (s.wireChan c) := by
  have hshown := AtChan.wireShown c (noticeFields s c) s
  rw [State.wireChan_eq]
  split
  · split
    · exact hshown
    · exact hshown.wireTrip
  · split
    · exact hshown.wireCooled
    · exact hshown

/-- A step shows the mean squared current and the rise, and starts the samples anew, whatever it makes of them. -/
theorem State.wireView_wireChan (s : State) (c : Nat) : (s.wireChan c).wireView c =
    ([], (s.chan c).averaged.iMean, (s.wireNext c).1 % 2 ^ F.WIRE_ISQ.width, (s.wireNext c).2) := by
  have hshown : (s.wireShown c).wireView c =
      ([], (s.chan c).averaged.iMean, (s.wireNext c).1 % 2 ^ F.WIRE_ISQ.width, (s.wireNext c).2) := by
    rw [State.wireView, State.chan_wireShown, State.isq_wireShown, State.theta_wireShown]
    rfl
  rw [State.wireChan_eq, ← hshown]
  split
  · split
    · rfl
    · exact State.wireView_wireTrip _ c
  · split
    · exact State.wireView_wireCooled _ c
    · rfl

theorem State.wireChan_trips (hcool : s.cq c F.WIRE_STATUS_COOLING = 0) (hover : sigInt (s.hrn c 4) ≤ sigInt (s.wireNext c).2) :
    s.wireChan c = (s.wireShown c).wireTrip c := by
  rw [State.wireChan_eq, s.cq_wireShown_fld c (by decide) (by decide), if_pos hcool, if_neg]
  rw [s.hrn_wireShown, State.ci, s.theta_wireShown]
  omega

/-! ## The step of a die -/

/-- The turn of one channel: its step, once its ten samples are there. -/
def State.wireTurn (s : State) (c : Nat) : State := if (s.chan c).samples.length = 10 then s.wireChan c else s

theorem exec_wireModelStep {d : Fin 4} (hrun : s.dieRuns d = true) :
    exec (.wireModelStep d) s = .next (s.each (chansOf d) State.wireTurn) := congrArg ok (if_pos hrun)

/-- What the turns of other channels leave of channel `c`: its own part, its registers, and whether its die is uncalibrated. -/
structure OtherTurns (c : Nat) (s t : State) : Prop where
  chan : t.chan c = s.chan c
  cq : ∀ g : Fld, g.reg ∉ eventRegs → t.cq c g = s.cq c g
  uncal : t.get (.grate (c / 16)) F.DMP_STATUS_UNCAL 0 = s.get (.grate (c / 16)) F.DMP_STATUS_UNCAL 0
  mem : t.mem = s.mem

theorem OtherTurns.refl (c : Nat) (s : State) : OtherTurns c s s := ⟨rfl, fun _ _ => rfl, rfl, rfl⟩

theorem OtherTurns.trans (h : OtherTurns c s t) (k : OtherTurns c t u) : OtherTurns c s u :=
  ⟨k.chan.trans h.chan, fun g hg => (k.cq g hg).trans (h.cq g hg), k.uncal.trans h.uncal, k.mem.trans h.mem⟩

theorem State.wireTurn_other (s : State) {b : Nat} (hb : c ≠ b) : OtherTurns c s (s.wireTurn b) := by
  unfold State.wireTurn
  split
  · have hat := s.wireChan_at b
    exact ⟨hat.chans c (by simpa using hb), fun g hg => hat.cq_ne hb hg, hat.get_reg (by decide) (by decide) _ _, hat.mem⟩
  · exact OtherTurns.refl c s

theorem State.wireTurns_other {cs : List Nat} (hc : c ∉ cs) (s : State) : OtherTurns c s (s.each cs State.wireTurn) := by
  induction cs generalizing s with
  | nil => exact OtherTurns.refl c s
  | cons b cs ih =>
    rw [List.mem_cons, not_or] at hc
    exact (s.wireTurn_other hc.1).trans (ih hc.2 _)

/-- A step of the die takes a channel through its own turn, with other channels' turns before and after. -/
theorem State.wireTurns_of_mem {cs : List Nat} (hnodup : cs.Nodup) (hc : c ∈ cs) (s : State) :
    ∃ u, OtherTurns c s u ∧ OtherTurns c (u.wireTurn c) (s.each cs State.wireTurn) := by
  obtain ⟨front, back, rfl⟩ := List.append_of_mem hc
  obtain ⟨-, hback, hapart⟩ := List.nodup_append.1 hnodup
  refine ⟨s.each front State.wireTurn, State.wireTurns_other (fun hfront => hapart c hfront c List.mem_cons_self rfl) s, ?_⟩
  unfold State.each
  rw [List.foldl_append]
  exact State.wireTurns_other (List.nodup_cons.1 hback).1 _

theorem OtherTurns.wireView (h : OtherTurns c s t) : t.wireView c = s.wireView c := by
  rw [State.wireView, h.chan, h.cq _ (by decide), h.cq _ (by decide), State.wireView]

theorem OtherTurns.hrn (h : OtherTurns c s t) (k : Nat) : t.hrn c k = s.hrn c k := SameCeilings.hrn (congrArg Chan.record h.chan) k

theorem OtherTurns.wireNext (h : OtherTurns c s t) : t.wireNext c = s.wireNext c := by
  have hwiden : t.widen c = s.widen c := funext fun i => by
    rw [State.widen, State.widen, State.is, h.uncal]
    rfl
  rw [State.wireNext, h.chan, h.hrn, h.hrn, h.cq _ (by decide), hwiden, State.wireNext]

/-- A step of a running die, as it meets a channel with ten samples: `u` is the state in which the channel's own turn comes. -/
theorem exec_wireModelStep_at {d : Fin 4} (hrun : s.dieRuns d = true) (hc : c / 16 = d.val) (hten : (s.chan c).samples.length = 10) :
    ∃ u t, exec (.wireModelStep d) s = .next t ∧ OtherTurns c s u ∧ OtherTurns c (u.wireChan c) t := by
  obtain ⟨u, hbefore, hafter⟩ := State.wireTurns_of_mem (chansOf_nodup d) (mem_chansOf.2 hc) s
  refine ⟨u, _, exec_wireModelStep hrun, hbefore, ?_⟩
  rwa [State.wireTurn, if_pos (by rw [hbefore.chan, hten])] at hafter

/-- Settles O26: a step shows what R209 makes of the ten samples, and trips at the threshold; the other channels' turns leave it alone. -/
theorem wireModel : Obligations.WireModel := by
  unfold Obligations.WireModel
  refine ⟨?_, ?_⟩
  · intro s d c hrun hc hten
    obtain ⟨u, t, hexec, hbefore, hafter⟩ := exec_wireModelStep_at hrun hc hten
    have hview := hafter.wireView.trans (u.wireView_wireChan c)
    rw [hbefore.chan, hbefore.wireNext] at hview
    obtain ⟨hsamples, hmean, hisq, htheta⟩ := by simpa only [State.wireView, Prod.mk.injEq] using hview
    have hmem : t.mem = s.mem := hafter.mem.trans ((u.wireChan_at c).mem.trans hbefore.mem)
    exact ⟨t, hexec, hsamples, hisq, htheta, hmean, MemSame.of_mem hmem⟩
  · intro s d c hrun hc hten hcool hover
    obtain ⟨u, t, hexec, hbefore, hafter⟩ := exec_wireModelStep_at hrun hc hten
    have htrip : u.wireChan c = (u.wireShown c).wireTrip c := by
      refine State.wireChan_trips ((hbefore.cq _ (by decide)).trans hcool) ?_
      rw [hbefore.hrn, hbefore.wireNext]
      exact hover
    obtain ⟨n, hposted⟩ := (u.wireShown c).wireTrip_posted c
    have hcq : ∀ g : Fld, g.reg ∉ eventRegs → t.cq c g = ((u.wireShown c).wireTripped c).cq c g := fun g hg => by
      rw [hafter.cq g hg, htrip]
      exact hposted.grate _ g _
    refine ⟨t, hexec, ?_, ?_, ?_, ?_⟩
    · rw [hcq _ (by decide), State.wireTripped, State.cq_cn_fld _ _ _ (by decide), State.cq_cw_fld _ _ _ _ (by decide), State.cq_cw_self]
      rfl
    · rw [hcq _ (by decide), State.wireTripped, State.cq_cn_fld _ _ _ (by decide), State.cq_cw_self]
      rfl
    · rw [State.chState, hcq _ (by decide), State.wireTripped, State.cq_cn_fld _ _ _ (by decide), State.cq_cw_fld _ _ _ _ (by decide),
        State.cq_cw_fld _ _ _ _ (by decide)]
      exact State.driven_wireOff _ c
    · rw [hcq _ (by decide), State.wireTripped, State.cq_cn_self, State.cq_cw_fld _ _ _ _ (by decide), State.cq_cw_fld _ _ _ _ (by decide),
        State.cq_wireOff _ _ (by decide), u.cq_wireShown_fld c (by decide) (by decide), hbefore.cq _ (by decide)]

end Sys2Proof.Machine
end

section
/-! A link that comes up on the port that woke the module, in the confirmation window of that wake (R147, R156). -/
namespace Sys2Proof.Machine
open Sys2Proof

variable {s : State} {x : Side}

/-! ## A wake record stored into NOR -/

/-- The bytes of the wake record. -/
def State.wrecBytes (s : State) : List Nat := (List.range 4).flatMap (fun i => leBytes 8 (s.get .ember F.EMBER_WREC i))

/-- Byte `k` of a slot of the wake records, once the record stands in it. -/
theorem State.byte_wrecStore {n k b : Nat} (hn : n < 64) (hk : s.wrecBytes[k]? = some b) (hlen : s.wrecBytes.length = 32) :
    ((s.wrecStore x n).byte x (wrecAddr n + k)).toNat = b % 2 ^ 8 := by
  have haddr : wrecAddr n + s.wrecBytes.length ≤ 2 ^ 40 := by
    rw [wrecAddr, hlen]
    omega
  have hload := congrArg (·[k]?) (State.load_store (s := s) x haddr)
  have hlt : k < s.wrecBytes.length := (List.getElem?_eq_some_iff.1 hk).1
  rw [List.getElem?_map, hk, State.load, List.getElem?_map, List.getElem?_range hlt] at hload
  exact Option.some.inj hload

/-- The outcome of a wake goes into the slot of the side that has copied its record, where that side alone runs. -/
theorem State.wakeOutcome_stores {n : Nat} (o : Nat) (ha : (s.wrecNote 13 12 o).up .a = true) (hb : (s.wrecNote 13 12 o).up .b = false)
    (hslot : ((s.wrecNote 13 12 o).side .a).wrecSlot = some n) : s.wakeOutcome o = (s.wrecNote 13 12 o).wrecStore .a n := by
  unfold State.wakeOutcome
  simp only [List.filter_cons, List.filter_nil, ha, hb, if_true, Bool.false_eq_true, if_false, State.each_cons, State.each_nil, hslot]

/-! ## A link that comes up, and the wake that it confirms -/

/-- The state as it shows that the link of TC10 port `p` is up (R345, R358). -/
def State.linkShown (s : State) (p : Nat) : State :=
  ((s.set .flue F.PORT_STATUS_LINK p 1).flueEvt F.FLUE_EVT_LINK_CHG).set .flue F.PORT_STATUS_TC10 p 0

theorem State.portLink_up {p : Nat} (hdown : s.fb F.PORT_STATUS_LINK p = false) (hring : 2 ≤ p) (hext : p < 15) (htc : hasTc10 p = true) :
    s.portLink p true = (s.linkShown p).confirmLink p := by
  unfold State.portLink
  dsimp only
  rw [if_neg (by simp [hdown]; omega), if_pos rfl, if_pos htc]
  rfl

/-- The record says that the wake is confirmed, and the window has ended (R147). -/
def State.confirmed (s : State) : State :=
  let t := (s.wrecPut 0 22 22 1).set .ember F.EMBER_STATE_CONFIRM_WAIT 0 0
  State.awakeEnd { t with ember := { t.ember with confirm := none } }

theorem State.confirmWake_open (h : s.confirmOpen = true) :
    s.confirmWake = if s.confirmed.wrec 0 19 18 = 2 then s.confirmed.wakeOutcome 0 else s.confirmed := if_pos h

/-! ## The state -/

/-- The link of port 2 has woken the module for Glowing (cause 7, target 2; outcome not known yet), and the confirmation window is open; the
Flue die runs, and so does side A, which keeps the record in slot 0. -/
def portWoken : State :=
  (({ State.reset with
      absent := []
      flue := { FlueSt.init with powered := true, reset_ := false }
      ember := { EmberSt.init with confirm := some 0 }
      sa := { SideSt.init with run := .ready, wrecSlot := some 0, wrecNext := 1 } }.set .ember F.EMBER_WREC 0 (7 + 2 * 2 ^ 4 + 2 * 2 ^ 18)).set
    .ember F.EMBER_WREC 3 (3 * 2 ^ 12))

/-- The same with the record copied into that slot. -/
def portConfirms : State := portWoken.wrecStore .a 0

theorem portConfirms_linkUp : portConfirms.portLink 2 true = (portConfirms.linkShown 2).confirmed.wakeOutcome 0 := by
  have hlink : portConfirms.portLink 2 true = (portConfirms.linkShown 2).confirmLink 2 :=
    State.portLink_up (by decide +kernel) (by decide) (by decide) (by decide)
  have hconfirm : (portConfirms.linkShown 2).confirmLink 2 = (portConfirms.linkShown 2).confirmWake := if_pos (by decide +kernel)
  rw [hlink, hconfirm, State.confirmWake_open (by decide +kernel), if_pos (by decide +kernel)]

/-- Byte 1 of word 3 of the record, which holds the outcome, in slot 0: 3 (not known) before, 0 (reached) after the link came up. -/
theorem portConfirms_outcome :
    (portConfirms.byte .a (wrecAddr 0 + 25)).toNat = 0x30 ∧ ((portConfirms.portLink 2 true).byte .a (wrecAddr 0 + 25)).toNat = 0 := by
  constructor
  · exact State.byte_wrecStore (s := portWoken) (b := 0x30) (by decide) (by decide +kernel) (by decide +kernel)
  · rw [portConfirms_linkUp, State.wakeOutcome_stores (n := 0) 0 (by decide +kernel) (by decide +kernel) (by decide +kernel)]
    exact State.byte_wrecStore (b := 0) (by decide) (by decide +kernel) (by decide +kernel)

/-- Refutes O60: its second clause keeps memory, but the link of the TC10 port that woke the module confirms the wake (R147), and the side that
holds the wake record in NOR stores it anew with its outcome (R156). -/
theorem not_linksBypassLifeline : ¬ Obligations.LinksBypassLifeline := by
  unfold Obligations.LinksBypassLifeline
  rintro ⟨-, hup, -⟩
  have hruns : portConfirms.flueRuns = true := by decide +kernel
  obtain ⟨t, hexec, -, -, -, -, hmem, -⟩ := hup portConfirms 2 hruns (.inl (by decide)) (.inl (by decide)) (by decide +kernel)
  have hlink : exec (.linkChange (.port 2) true) portConfirms = .next (portConfirms.portLink 2 true) := congrArg ok (if_pos hruns)
  obtain rfl := Host.Outcome.next.inj (hexec.symm.trans hlink)
  obtain ⟨hbefore, hafter⟩ := portConfirms_outcome
  have hsame := congrArg BitVec.toNat (hmem .a (wrecAddr 0 + 25))
  rw [hbefore, hafter] at hsame
  exact absurd hsame (by decide)

end Sys2Proof.Machine
end

section
/-! What a budget exchange shows on the dies of the bus and keeps of its runs and claims (R213 to R216, R223 to R225, R229). -/
namespace Sys2Proof.Machine
open Sys2Proof

variable {s t u : State} {l m : List Fld} {e : Nat}

/-! ## Loops that bring about something in each of their elements -/

/-- What one element of the list brings about wherever `P` holds, and every element keeps there, holds at the end; `P` holds throughout. -/
theorem State.each_of_mem_where {α : Type} {P Q : State → Prop} {f : State → α → State} {l : List α} {a : α} (ha : a ∈ l)
    (hP : ∀ t b, P t → P (f t b)) (hdo : ∀ t, P t → Q (f t a)) (hkeep : ∀ t b, P t → Q t → Q (f t b)) (hs : P s) : Q (s.each l f) := by
  obtain ⟨front, back, rfl⟩ := List.append_of_mem ha
  rw [State.each, List.foldl_append]
  have hfront : P (s.each front f) := State.each_keeps hP front hs
  exact (State.each_keeps (P := fun t => P t ∧ Q t) (fun t b h => ⟨hP t b h.1, hkeep t b h.1 h.2⟩) back ⟨hP _ a hfront, hdo _ hfront⟩).2

/-- What holds before a loop and is kept by the turns of its own elements holds after it. -/
theorem State.each_keeps_mem {α : Type} {P : State → Prop} {f : State → α → State} {l : List α} (hf : ∀ t, ∀ a ∈ l, P t → P (f t a))
    (hs : P s) : P (s.each l f) := by
  induction l generalizing s with
  | nil => exact hs
  | cons a l ih => exact ih (fun t b hb => hf t b (List.mem_cons_of_mem _ hb)) (hf s a List.mem_cons_self hs)

theorem DieWork.mono (h : DieWork l s t) (hm : ∀ f ∈ l, f ∈ m) : DieWork m s t :=
  { h with get := fun d f i hf => h.get d f i fun g hg => hf g (hm g hg) }

theorem DieWork.memSame (h : DieWork l s t) : MemSame s t := MemSame.of_mem h.mem

/-- A state that differs in its registers alone. -/
def RegsBut (s t : State) : Prop := ∃ r, t = { s with regs := r }

theorem RegsBut.refl (s : State) : RegsBut s s := ⟨s.regs, rfl⟩

theorem RegsBut.set (h : RegsBut s t) (k : Holder) (f : Fld) (i v : Nat) : RegsBut s (t.set k f i v) := by
  obtain ⟨r, rfl⟩ := h
  exact ⟨_, rfl⟩

theorem grate_code_ne {d e : Nat} (h : e ≠ d) : (Holder.grate e).code ≠ (Holder.grate d).code := by
  simp only [Holder.code]
  omega

/-! ## The conditions of the module (R223 to R225, R229) -/

/-- Register fields that show the conditions of the module. -/
def flagFlds : List Fld :=
  [F.DMP_STATUS_RIDE_A, F.DMP_STATUS_RIDE_B, F.DMP_STATUS_BUDGET_OVER, F.DMP_STATUS_P0_OVER, F.DMP_STATUS_DERATE_HW, F.DMP_STATUS_BUS_GAP]

/-- Die `d` shows the conditions, those of the Damper from `v`. -/
def State.flagged (s : State) (v : DamperSt) (d : Nat) : State :=
  ((((((s.set (.grate d) F.DMP_STATUS_RIDE_A 0 (b2n (s.riding 0))).set (.grate d) F.DMP_STATUS_RIDE_B 0 (b2n (s.riding 2))).set
    (.grate d) F.DMP_STATUS_BUDGET_OVER 0 (b2n (v.overStop != 0))).set (.grate d) F.DMP_STATUS_P0_OVER 0 (b2n (v.p0Stop != 0))).set
    (.grate d) F.DMP_STATUS_DERATE_HW 0 (b2n v.derate)).set (.grate d) F.DMP_STATUS_BUS_GAP 0 (b2n v.gap))

theorem State.showFlags_eq (s : State) : s.showFlags = s.each s.busDies (fun t d => t.flagged s.damper d) := rfl

/-- What die `e` shows of RIDE, BUDGET_OVER, P0_OVER and DERATE. -/
def State.flagView (s : State) (e : Nat) : Nat × Nat × Nat × Nat × Nat :=
  (s.get (.grate e) F.DMP_STATUS_RIDE_A 0, s.get (.grate e) F.DMP_STATUS_RIDE_B 0, s.get (.grate e) F.DMP_STATUS_BUDGET_OVER 0,
   s.get (.grate e) F.DMP_STATUS_P0_OVER 0, s.get (.grate e) F.DMP_STATUS_DERATE_HW 0)

/-- What every die is to show of them. -/
def State.flagsDue (s : State) : Nat × Nat × Nat × Nat × Nat :=
  (b2n (s.riding 0), b2n (s.riding 2), b2n (s.damper.overStop != 0), b2n (s.damper.p0Stop != 0), b2n s.damper.derate)

theorem RegsBut.flagged (h : RegsBut s t) (v : DamperSt) (d : Nat) : RegsBut s (t.flagged v d) :=
  (((((h.set _ _ _ _).set _ _ _ _).set _ _ _ _).set _ _ _ _).set _ _ _ _).set _ _ _ _

theorem State.flagView_flagged_self (s : State) (d : Nat) : (s.flagged s.damper d).flagView d = s.flagsDue := by
  have hbit (b : Bool) : b2n b % 2 ^ 1 = b2n b := Nat.mod_eq_of_lt (by have := b2n_le_one b; omega)
  have hself (t : State) (f : Fld) (b : Bool) (hf : f.width = 1) : (t.set (.grate d) f 0 (b2n b)).get (.grate d) f 0 = b2n b := by
    rw [State.get_set_self, hf, hbit]
  simp (disch := decide) only [State.flagView, State.flagged, State.get_set_fld, hself, State.flagsDue]

theorem State.flagView_flagged_ne (s : State) (v : DamperSt) {d : Nat} (hne : e ≠ d) : (s.flagged v d).flagView e = s.flagView e := by
  simp only [State.flagView, State.flagged, State.get_set_holder _ _ _ _ _ _ _ _ (grate_code_ne hne)]

theorem State.showFlags_regs (s : State) : RegsBut s s.showFlags :=
  State.each_keeps (fun _ d h => h.flagged s.damper d) _ (RegsBut.refl s)

/-- Every die of the bus shows the conditions. -/
theorem State.flagView_showFlags (he : e ∈ s.busDies) : s.showFlags.flagView e = s.flagsDue := by
  have hself : ∀ t, RegsBut s t → (t.flagged s.damper e).flagView e = s.flagsDue := by
    rintro t ⟨r, rfl⟩
    exact State.flagView_flagged_self _ e
  refine State.each_of_mem_where he (P := RegsBut s) (Q := fun t => t.flagView e = s.flagsDue) (fun _ d h => h.flagged s.damper d) hself (fun t d h hv => ?_) (RegsBut.refl s)
  by_cases hde : e = d
  · exact hde ▸ hself t h
  · exact (t.flagView_flagged_ne s.damper hde).trans hv

theorem State.showFlags_only (s : State) : Only (moduleFlags s) s s.showFlags := by
  refine State.each_keeps_mem (P := Only (moduleFlags s) s) (fun t d hd h => ?_) (Only.refl _ s)
  have hmem : ∀ f ∈ flagFlds, (Holder.grate d, f, 0) ∈ moduleFlags s := fun f hf =>
    List.mem_flatMap.2 ⟨d, hd, List.mem_map.2 ⟨f, hf, rfl⟩⟩
  exact (((((h.then_set (hmem _ (by decide))).then_set (hmem _ (by decide))).then_set (hmem _ (by decide))).then_set
    (hmem _ (by decide))).then_set (hmem _ (by decide))).then_set (hmem _ (by decide))

/-! ## Claims and runs (R216, R223, R224) -/

/-- Register fields that an exchange writes after the module is shown: those of its turn-ons and sheds, the claims and the conditions. -/
def exchangeFlds : List Fld := workFlds ++ flagFlds ++ [F.DMP_CLAIM, F.DMP_P0]

theorem DieWork.showFlags (h : DieWork exchangeFlds s t) : DieWork exchangeFlds s t.showFlags :=
  h.each (fun r _ => ((((((DieWork.refl _ r).set (by decide) _ _).set (by decide) _ _).set (by decide) _ _).set (by decide) _ _).set
    (by decide) _ _).set (by decide) _ _) _

theorem DieWork.allot (h : DieWork exchangeFlds s t) : DieWork exchangeFlds s t.allot := by
  refine h.each (fun r _ => DieWork.setDie (DieWork.each (DieWork.refl _ r) (fun r _ => ?_) _) _) _
  exact ((DieWork.refl _ r).set (by decide) _ _).set (by decide) _ _

theorem DieWork.runs (h : DieWork l s t) : DieWork l s t.overRuns.derateRuns := (h.damper _).damper _

/-- What an exchange does once every die of the bus shows the module: the bus gap, the sheds, the held turn-ons and the runs. -/
def State.judged (s : State) (d : Nat) (gap : Bool) : State :=
  let s := if gap ∧ ¬ s.damper.gap then s.logBoth 0x408 (23 + d) [] else s
  let s := { s with damper := { s.damper with gap := gap } }
  let s := s.p0Sheds
  (s.each s.heldOrder State.judgeHeld).overRuns.derateRuns

/-- The claims and the conditions are then shown and sent. -/
def State.exchanged (s : State) (d : Nat) (gap : Bool) : State := (s.judged d gap).allot.showFlags

theorem State.judged_work (s : State) (d : Nat) (gap : Bool) : Judged s (s.judged d gap) := by
  have hlog : Judged s (if gap ∧ ¬ s.damper.gap then s.logBoth 0x408 (23 + d) [] else s) :=
    ((DieWork.refl _ s).logBoth _ _ _).ite (DieWork.refl _ s)
  exact ((Judged.p0Sheds (hlog.damper _)).each State.judgeHeld_judged _).runs

theorem State.exchanged_work (s : State) (d : Nat) (gap : Bool) : DieWork exchangeFlds s (s.exchanged d gap) :=
  ((s.judged_work d gap).mono fun _ hf => List.mem_append_left _ (List.mem_append_left _ hf)).allot.showFlags

/-! ## The exchange (R216) -/

/-- Each die sends unless it is silent. -/
def State.sent (s : State) (silent : BitVec 4) : State :=
  s.each (List.range 4) (fun s d => s.setDie d { s.die d with present := !silent.getLsbD d })

/-- The coolant temperature that die `d` makes of the sensors' readings (R215). -/
def State.coolantRead (s : State) (d : Nat) (coolant : List Word40) : Int :=
  let ts := coolant.map (fun w => sigInt w.toNat)
  if ts = [] then units 85 else (ts.map (fun r => coolantOf r (s.calOf d 0x1C8 0))).foldl max (units (-512 * 1024))

/-- A sensor is out of range, or there is none. -/
def coolantBad (coolant : List Word40) : Bool :=
  let ts := coolant.map (fun w => sigInt w.toNat)
  ts.any (fun r => decide (r < units (-50) ∨ units 150 < r)) || ts == []

theorem exec_budgetExchange_empty {coolant : List Word40} {pl : Option Word40} {silent : BitVec 4} (h : (s.sent silent).busDies = []) :
    exec (.budgetExchange coolant pl silent) s = .next (s.sent silent) := by
  unfold exec execBudgetExchange
  change ok (match (s.sent silent).busDies with | [] => _ | d :: l => _) = _
  rw [h]
  rfl

theorem exec_budgetExchange_cons {coolant : List Word40} {pl : Option Word40} {silent : BitVec 4} {d : Nat} {l : List Nat}
    (h : (s.sent silent).busDies = d :: l) :
    exec (.budgetExchange coolant pl silent) s = .next (((s.sent silent).showModule ((s.sent silent).coolantRead d coolant)
      (coolantBad coolant) ((pl.map (fun w => w.toNat)).getD (47 * q20))).exchanged d (decide (d ≠ 0 ∨ l.length < 3))) := by
  unfold exec execBudgetExchange
  change ok (match (s.sent silent).busDies with | [] => _ | d :: l => _) = _
  rw [h]
  rfl

theorem State.sent_rest (s : State) (silent : BitVec 4) : (s.sent silent).now = s.now ∧ (s.sent silent).mem = s.mem :=
  State.each_keeps (P := fun t => t.now = s.now ∧ t.mem = s.mem) (f := fun s d => s.setDie d { s.die d with present := !silent.getLsbD d }) (fun _ _ h => h) _
    ⟨rfl, rfl⟩

/-! ## The module as every die of the bus shows it (R229) -/

/-- What die `e` shows of the coolant and of the dissipation budget. -/
def State.moduleView (s : State) (e : Nat) : Nat × Nat × Nat :=
  (s.get (.grate e) F.DMP_COOLANT 0, s.get (.grate e) F.DMP_STATUS_SENSOR_BAD 0, s.get (.grate e) F.DMP_DISS_BUDGET 0)

theorem DieWork.moduleView (h : DieWork exchangeFlds s t) (e : Nat) : t.moduleView e = s.moduleView e := by
  rw [State.moduleView, h.get _ _ _ (by decide), h.get _ _ _ (by decide), h.get _ _ _ (by decide), State.moduleView]

/-- Die `d` shows the coolant temperature, whether a sensor is bad, the power of the logic and the dissipation budget. -/
def State.moduleShown (s : State) (t : Int) (bad : Bool) (p : Nat) (b : Int) (d : Nat) : State :=
  (((s.set (.grate d) F.DMP_COOLANT 0 (sigWord t)).set (.grate d) F.DMP_STATUS_SENSOR_BAD 0 (b2n bad)).set (.grate d) F.DMP_LOGIC_W 0 p).set
    (.grate d) F.DMP_DISS_BUDGET 0 (sigWord b)

theorem State.showModule_eq (s : State) (t : Int) (bad : Bool) (p : Nat) : s.showModule t bad p =
    s.each s.busDies (fun u d => u.moduleShown t bad p (min (pMax t) (s.leastOf F.DMP_DISS_CEIL (95 * q20) : Nat)) d) := rfl

theorem State.showModule_regs (s : State) (t : Int) (bad : Bool) (p : Nat) : RegsBut s (s.showModule t bad p) :=
  State.each_keeps (fun _ _ h => (((h.set _ _ _ _).set _ _ _ _).set _ _ _ _).set _ _ _ _) _ (RegsBut.refl s)

theorem State.moduleView_moduleShown_self (s : State) (t : Int) (bad : Bool) (p : Nat) (b : Int) (d : Nat) :
    (s.moduleShown t bad p b d).moduleView d = (sigWord t, b2n bad, sigWord b) := by
  have hword (u : State) (f : Fld) (i : Int) (hf : f.width = 40) : (u.set (.grate d) f 0 (sigWord i)).get (.grate d) f 0 = sigWord i := by
    rw [State.get_set_self, hf, Nat.mod_eq_of_lt (sigWord_lt i)]
  have hbit : b2n bad % 2 ^ F.DMP_STATUS_SENSOR_BAD.width = b2n bad := by cases bad <;> rfl
  simp (disch := decide) only [State.moduleView, State.moduleShown, State.get_set_fld, hword, State.get_set_self, hbit]

theorem State.moduleView_moduleShown_ne (s : State) (t : Int) (bad : Bool) (p : Nat) (b : Int) {d : Nat} (hne : e ≠ d) :
    (s.moduleShown t bad p b d).moduleView e = s.moduleView e := by
  simp only [State.moduleView, State.moduleShown, State.get_set_holder _ _ _ _ _ _ _ _ (grate_code_ne hne)]

theorem State.moduleView_showModule (t : Int) (bad : Bool) (p : Nat) (he : e ∈ s.busDies) : (s.showModule t bad p).moduleView e =
    (sigWord t, b2n bad, sigWord (min (pMax t) (s.leastOf F.DMP_DISS_CEIL (95 * q20) : Nat))) := by
  refine State.each_of_mem (P := fun u => u.moduleView e = _) he (fun u => State.moduleView_moduleShown_self u t bad p _ e) (fun u d hu => ?_) s
  by_cases hde : e = d
  · exact hde ▸ State.moduleView_moduleShown_self u t bad p _ e
  · exact (u.moduleView_moduleShown_ne t bad p _ hde).trans hu

end Sys2Proof.Machine
end

section
/-! Damper events: the coolant and the dissipation budget of an exchange, a budget over at every exchange, DERATE, RIDE and the end of a hold
(R213, R215, R218, R220, R223 to R225). -/
namespace Sys2Proof.Machine
open Sys2Proof

variable {s t u : State}

/-! ## The coolant out of range (R213, R215) -/

theorem sigInt_sigWord {i : Int} (hlo : -2 ^ 39 ≤ i) (hhi : i < 2 ^ 39) : sigInt (sigWord i) = i := by
  have hclamp : clampInt (-(2 ^ 39)) (2 ^ 39 - 1) i = i := by
    unfold clampInt
    split
    · omega
    · split <;> omega
  have hpos := Int.emod_nonneg i (b := 2 ^ 40) (by decide)
  rw [sigWord, hclamp, ofSigned, sigInt, toSigned]
  split <;> omega

/-- A reading out of range. -/
abbrev coolantOut (r : Int) : Prop := r < units (-50) ∨ units 150 < r

theorem foldl_max_out {ts : List Int} (offset : Int) (hout : ∀ r ∈ ts, coolantOut r) :
    (ts.map (fun r => coolantOf r offset)).foldl max (units 85) = units 85 := by
  induction ts with
  | nil => rfl
  | cons r ts ih =>
    rw [List.map_cons, List.foldl_cons, coolantOf, if_pos (hout r List.mem_cons_self), max_self]
    exact ih fun q hq => hout q (List.mem_cons_of_mem _ hq)

theorem coolantOut_of_all {coolant : List Word40}
    (h : coolant.all (fun w => decide (sigInt w.toNat < units (-50) ∨ units 150 < sigInt w.toNat)) = true) :
    ∀ r ∈ coolant.map (fun w => sigInt w.toNat), coolantOut r := by
  intro r hr
  obtain ⟨w, hw, rfl⟩ := List.mem_map.1 hr
  exact of_decide_eq_true (List.all_eq_true.1 h w hw)

/-- With every sensor out of range the module takes 85 degrees. -/
theorem State.coolantRead_out (s : State) (d : Nat) {coolant : List Word40}
    (hout : ∀ r ∈ coolant.map (fun w => sigInt w.toNat), coolantOut r) : s.coolantRead d coolant = units 85 := by
  unfold State.coolantRead
  dsimp only
  cases hts : coolant.map (fun w => sigInt w.toNat) with
  | nil => rfl
  | cons r ts =>
    rw [hts] at hout
    rw [if_neg (List.cons_ne_nil _ _), List.map_cons, List.foldl_cons, coolantOf, if_pos (hout r List.mem_cons_self)]
    exact foldl_max_out _ fun q hq => hout q (List.mem_cons_of_mem _ hq)

theorem coolantBad_out {coolant : List Word40} (hne : coolant ≠ []) (hout : ∀ r ∈ coolant.map (fun w => sigInt w.toNat), coolantOut r) :
    coolantBad coolant = true := by
  obtain ⟨w, l, rfl⟩ := List.exists_cons_of_ne_nil hne
  have hfirst : coolantOut (sigInt w.toNat) := hout _ (by simp)
  simp only [coolantBad, List.map_cons, List.any_cons, decide_eq_true hfirst, Bool.true_or]

/-- At 85 degrees the dissipation budget is 80 W, or the ceiling below it. -/
theorem dissBudget_le (ceil : Nat) : sigInt (sigWord (min (pMax (units 85)) ceil)) ≤ units 80 := by
  have hpmax : pMax (units 85) = units 80 := by decide
  have hunits : units 80 = 83886080 := by decide
  rw [hpmax, sigInt_sigWord (by omega) (by omega)]
  exact min_le_left _ _

/-! ## A budget over for OVER_TIME (R223) -/

/-- What an event of a die and an entry leave: time, memory, the channels, the Damper and the registers of the dies. -/
structure Announced (s t : State) : Prop where
  now : t.now = s.now
  mem : t.mem = s.mem
  chans : t.chans = s.chans
  damper : t.damper = s.damper
  grate : ∀ d f i, t.get (.grate d) f i = s.get (.grate d) f i

theorem Announced.refl (s : State) : Announced s s := ⟨rfl, rfl, rfl, rfl, fun _ _ _ => rfl⟩

theorem Announced.posted {n : List Spot} (h : Announced s t) (k : Posted n t u) (hview : u.damperView = t.damperView) : Announced s u :=
  ⟨k.now.trans h.now, k.mem.trans h.mem, k.chans.trans h.chans, (congrArg Prod.fst hview).trans h.damper,
   fun d f i => (k.grate d f i).trans (h.grate d f i)⟩

theorem Announced.logBoth (h : Announced s t) (code prod : Nat) (args : List Arg) : Announced s (t.logBoth code prod args) :=
  h.posted (t.logBoth_posted code prod args) (t.damperView_logBoth code prod args)

theorem Announced.eventBoth (h : Announced s t) (w cls status detail target : Nat) (words : List Nat) :
    Announced s (t.eventBoth w cls status detail target words) :=
  h.posted (t.eventBoth_posted w cls status detail target words) (t.damperView_eventBoth w cls status detail target words)

theorem Announced.dieEvent (h : Announced s t) (d code b : Nat) (words : List Nat) : Announced s (t.dieEvent d code b words) := by
  unfold State.dieEvent
  split
  · exact h.eventBoth _ _ _ _ _ _
  · split
    · next v _ =>
      have hset : Announced s (t.setDie d { t.die d with lastEvt := v }) := ⟨h.now, h.mem, h.chans, h.damper, h.grate⟩
      exact hset.eventBoth _ _ _ _ _ _
    · exact h

/-- What is announced once every die of the bus shows the conditions. -/
theorem Announced.shown (h : Announced s.showFlags t) : t.now = s.now ∧ t.damper = s.damper ∧ t.chans = s.chans ∧ MemSame s t ∧
    ∀ e ∈ s.busDies, t.flagView e = s.flagsDue := by
  have hflags : ∀ e ∈ s.busDies, t.flagView e = s.flagsDue := fun e he => by
    rw [← State.flagView_showFlags he, State.flagView, h.grate, h.grate, h.grate, h.grate, h.grate, State.flagView]
  obtain ⟨r, hr⟩ := s.showFlags_regs
  rw [hr] at h
  exact ⟨h.now, h.damper, h.chans, MemSame.of_mem h.mem, hflags⟩

/-- Budget `k` is over. -/
abbrev State.isOver (s : State) (k : Nat) : Prop := s.budget k < ((s.sumP0 k + s.sumPn k : Nat) : Int)

/-- The Damper with BUDGET_OVER set for budget `k`. -/
def State.overStopped (s : State) (k : Nat) : State := { s with damper := { s.damper with overStop := Machine.setBit s.damper.overStop (k - 1) } }

/-- The Damper with P0_OVER set for budget `k`. -/
def State.p0Stopped (s : State) (k : Nat) : State := { s with damper := { s.damper with p0Stop := Machine.setBit s.damper.p0Stop (k - 1) } }

theorem State.budgetOver_stops {k : Nat} (hnone : s.shedable k none = []) (hover : s.isOver k) :
    Announced (s.overStopped k).showFlags (s.budgetOver k) := by
  unfold State.budgetOver
  dsimp only
  rw [hnone, State.shedWhile, if_pos (decide_eq_true hover)]
  exact ((Announced.refl _).dieEvent _ _ _ _).logBoth _ _ _

theorem State.reserveOver_stops (s : State) (k : Nat) : Announced (s.p0Stopped k).showFlags (s.reserveOver k) :=
  ((Announced.refl _).dieEvent _ _ _ _).logBoth _ _ _

/-- While the budget is not over, nothing is shed and nothing set. -/
theorem State.budgetOver_under {k : Nat} (h : ¬ s.isOver k) : s.budgetOver k = s := by
  have hneed : ¬ decide (s.isOver k) = true := fun hd => h (of_decide_eq_true hd)
  have hshed (cs : List Nat) : s.shedWhile k (fun s => decide (s.isOver k)) cs = s := by
    cases cs with
    | nil => rfl
    | cons c cs => exact if_neg hneed
  have hbody : s.budgetOver k = if decide ((s.shedWhile k (fun s => decide (s.isOver k)) (s.shedable k none)).isOver k) then _ else
    s.shedWhile k (fun s => decide (s.isOver k)) (s.shedable k none) := rfl
  rw [hbody, hshed, if_neg hneed]

/-- What follows the instant at which the older of the two runs of budget `k` has lasted OVER_TIME. -/
def State.overTurn (s : State) (k e : Nat) (full rsv : Option Nat) : State :=
  let r := if dueBy full (s.due e).now then (s.due e).budgetOver k else s.due e
  if dueBy rsv (s.due e).now then r.reserveOver k else r

theorem exec_budgetOverTime {b : Fin 4} {a : Nat} {l : List Nat} (hbus : s.busDies ≠ [])
    (h : [s.overDue (b.val + 1), s.reserveDue (b.val + 1)].filterMap id = a :: l) : exec (.budgetOverTime b) s =
    .next (s.overTurn (b.val + 1) (l.foldl min a) (s.overDue (b.val + 1)) (s.reserveDue (b.val + 1))) := by
  unfold exec execBudgetOverTime
  dsimp only
  rw [if_neg hbus, h]
  rfl

theorem State.dueBy_due (s : State) (e : Nat) : dueBy (some e) (s.due e).now = true := decide_eq_true (le_max_right s.now e)

theorem setBit_ne_zero (m i : Nat) : Machine.setBit m i ≠ 0 := fun h => by
  have hbit := testBit_setBit m i
  rw [h, Nat.zero_testBit] at hbit
  cases hbit

/-! ## The end of a hold (R218, R220) -/

/-- A P2 turn-on whose hold has run out and which does not fit is refused for the first of its budgets. -/
theorem State.judgeHeld_expired {c : Nat} {h : Hold} {j : Job} (hhold : (s.chan c).hold = some h) (hjob : h.job = some j)
    (hceil : s.ceiling c (h.on.ask (s.isTurnOn c h.on) false j.pkt.compared) = none) (hlatched : s.chState c ≠ 7) (hprio : s.prio c = 2)
    (hride : s.riding (c / 16) = false) (hbad : s.misfitAll c ≠ []) (hdue : h.until_ ≤ s.now) :
    s.judgeHeld c = s.holdEnd c h stBudget (budgetDetail 0 ((s.misfitAll c).headD 0)) := by
  unfold State.judgeHeld
  rw [hhold]
  dsimp only
  rw [hjob]
  dsimp only [Option.isNone]
  rw [hceil]
  dsimp only
  rw [if_neg hlatched, if_neg (by omega), if_neg (by simp [hride]), if_neg (by simp [hride]), if_neg hbad, if_neg (by omega),
    if_neg (by omega), if_pos (decide_eq_true hdue)]

theorem State.chan_budgetRefused (s : State) (c b : Nat) : (s.budgetRefused c).chan b = s.chan b :=
  (State.chan_cn _ c b _).trans (State.chan_inc _ _ _ _ _)

theorem State.cq_budgetRefused (s : State) (c b : Nat) {g : Fld} (hdie : g.reg ≠ F.DMP_REFUSE_BUDGET_COUNT.reg)
    (hchan : g.reg ≠ F.DMP_CH_REFUSE_COUNT.reg) : (s.budgetRefused c).cq b g = s.cq b g :=
  (State.cq_cn_fld _ c b (.inl hchan)).trans (State.get_set_fld _ _ _ _ _ _ _ _ (.inl hdie))

/-- A refused turn-on of a packet other than CH_GROUP_SET is answered, and nothing acts. -/
theorem State.holdEnd_refused {c : Nat} {h : Hold} {j : Job} (hjob : h.job = some j) (hcode : j.pkt.code ≠ 0x206) (detail : Nat) :
    s.holdEnd c h stBudget detail =
      ((((s.setChan c { s.chan c with hold := none }).cw c F.CH_STATE_HELD 0).budgetRefused c).dieReply (c / 16) ⟨j, stBudget, detail, []⟩) := by
  rw [State.holdEnd_command hjob, if_neg hcode]
  rfl

theorem State.heldOrder_single {c : Nat} (h : s.heldChans = [c]) : s.heldOrder = [c] := by
  unfold State.heldOrder
  dsimp only
  rw [h]
  rfl

/-! ## The clauses -/

/-- With every sensor out of range an exchange shows 85 degrees, SENSOR_BAD and at most 80 W (R213, R215). -/
theorem budgetExchange_sensorsOut {coolant : List Word40} {pl : Option Word40} {silent : BitVec 4} (hne : coolant ≠ [])
    (hall : coolant.all (fun w => decide (sigInt w.toNat < units (-50) ∨ units 150 < sigInt w.toNat)) = true) :
    ∃ t, exec (.budgetExchange coolant pl silent) s = .next t ∧
      (∀ e ∈ t.busDies, t.get (.grate e) F.DMP_COOLANT 0 = sigWord (units 85) ∧ t.get (.grate e) F.DMP_STATUS_SENSOR_BAD 0 = 1 ∧
        sigInt (t.get (.grate e) F.DMP_DISS_BUDGET 0) ≤ units 80) ∧ MemSame s t ∧ t.now = s.now := by
  obtain ⟨hnow, hmem⟩ := s.sent_rest silent
  have hout := coolantOut_of_all hall
  cases hbus : (s.sent silent).busDies with
  | nil =>
    refine ⟨_, exec_budgetExchange_empty hbus, fun e he => ?_, MemSame.of_mem hmem, hnow⟩
    rw [hbus] at he
    cases he
  | cons d l =>
    refine ⟨_, exec_budgetExchange_cons hbus, ?_⟩
    rw [State.coolantRead_out _ _ hout, coolantBad_out hne hout]
    generalize (pl.map (fun w => w.toNat)).getD (47 * q20) = p
    obtain ⟨r, hr⟩ := (s.sent silent).showModule_regs (units 85) true p
    have hshown := fun e => State.moduleView_showModule (s := s.sent silent) (e := e) (units 85) true p
    have hwork := State.exchanged_work ((s.sent silent).showModule (units 85) true p) d (decide (d ≠ 0 ∨ l.length < 3))
    rw [hr] at hwork hshown ⊢
    refine ⟨fun e he => ?_, MemSame.of_mem (hwork.mem.trans hmem), hwork.now.trans hnow⟩
    rw [hwork.busDies] at he
    have hview := (hwork.moduleView e).trans (hshown e he)
    simp only [State.moduleView, Prod.mk.injEq] at hview
    obtain ⟨hcool, hbad, hdiss⟩ := hview
    exact ⟨hcool, hbad, hdiss ▸ dissBudget_le _⟩

/-- A budget over at every exchange for OVER_TIME with nothing to shed (R223). -/
theorem budgetOverTime_over {b : Fin 4} {e : Nat} (hbus : s.busDies ≠ []) (hover : s.overDue (b.val + 1) = some e)
    (hreserve : s.reserveDue (b.val + 1) = none) (hshed : s.shedable (b.val + 1) none = []) (hmore : s.isOver (b.val + 1)) :
    ∃ t, exec (.budgetOverTime b) s = .next t ∧ t.now = max s.now e ∧
      (∀ e ∈ s.busDies, t.get (.grate e) F.DMP_STATUS_BUDGET_OVER 0 = 1) ∧
      t.damper = { s.damper with overStop := Machine.setBit s.damper.overStop b.val } ∧ t.chans = s.chans ∧ MemSame s t := by
  have hexec := exec_budgetOverTime (b := b) (a := e) (l := []) hbus (by rw [hover, hreserve]; rfl)
  have hturn : s.overTurn (b.val + 1) e (some e) none = (s.due e).budgetOver (b.val + 1) := if_pos (s.dueBy_due e)
  rw [hover, hreserve] at hexec
  have hann : Announced ((s.due e).overStopped (b.val + 1)).showFlags ((s.due e).budgetOver (b.val + 1)) :=
    State.budgetOver_stops (s := s.due e) hshed hmore
  refine ⟨_, hexec.trans (congrArg _ hturn), ?_⟩
  obtain ⟨hnow, hdamper, hchans, hmem, hflags⟩ := hann.shown
  refine ⟨hnow, fun d hd => ?_, hdamper, hchans, hmem⟩
  have hview := hflags d hd
  simp only [State.flagView, State.flagsDue, Prod.mk.injEq] at hview
  obtain ⟨-, -, hset, -⟩ := hview
  rw [hset]
  exact if_pos (bne_iff_ne.2 (setBit_ne_zero _ _))

/-- The P0 claims above the reserve at every exchange for OVER_TIME (R223). -/
theorem budgetOverTime_reserve {b : Fin 4} {e : Nat} (hbus : s.busDies ≠ []) (hover : s.overDue (b.val + 1) = none)
    (hreserve : s.reserveDue (b.val + 1) = some e) :
    ∃ t, exec (.budgetOverTime b) s = .next t ∧ t.now = max s.now e ∧
      (∀ e ∈ s.busDies, t.get (.grate e) F.DMP_STATUS_P0_OVER 0 = 1) ∧
      t.damper = { s.damper with p0Stop := Machine.setBit s.damper.p0Stop b.val } ∧ t.chans = s.chans ∧ MemSame s t := by
  have hexec := exec_budgetOverTime (b := b) (a := e) (l := []) hbus (by rw [hover, hreserve]; rfl)
  have hturn : s.overTurn (b.val + 1) e none (some e) = (s.due e).reserveOver (b.val + 1) := if_pos (s.dueBy_due e)
  rw [hover, hreserve] at hexec
  have hann := (s.due e).reserveOver_stops (b.val + 1)
  refine ⟨_, hexec.trans (congrArg _ hturn), ?_⟩
  obtain ⟨hnow, hdamper, hchans, hmem, hflags⟩ := hann.shown
  refine ⟨hnow, fun d hd => ?_, hdamper, hchans, hmem⟩
  have hview := hflags d hd
  simp only [State.flagView, State.flagsDue, Prod.mk.injEq] at hview
  obtain ⟨-, -, -, hset, -⟩ := hview
  rw [hset]
  exact if_pos (bne_iff_ne.2 (setBit_ne_zero _ _))

/-- The older run ends while the budget is no longer over, and the other one is not due yet: nothing happens but that time has passed. -/
theorem budgetOverTime_under {b : Fin 4} {e f : Nat} (hbus : s.busDies ≠ []) (hover : s.overDue (b.val + 1) = some e)
    (hreserve : s.reserveDue (b.val + 1) = some f) (hef : e < f) (hnow : s.now < f) (hless : ¬ s.isOver (b.val + 1)) :
    exec (.budgetOverTime b) s = .next (s.due e) := by
  have hexec := exec_budgetOverTime (b := b) (a := e) (l := [f]) hbus (by rw [hover, hreserve]; rfl)
  have hearly : dueBy (some f) (s.due e).now = false := decide_eq_false (Nat.not_le.2 (max_lt hnow hef))
  rw [hover, hreserve, List.foldl_cons, List.foldl_nil, min_eq_left hef.le, State.overTurn, s.dueBy_due, if_pos rfl, hearly,
    if_neg Bool.false_ne_true, State.budgetOver_under (s := s.due e) hless] at hexec
  exact hexec

/-- The Damper with DERATE asserted or ended. -/
def State.derateSet (s : State) (on : Bool) : State := { s with damper := { s.damper with derate := on } }

/-- DERATE asserted or ended, and shown on every die of the bus (R224). -/
theorem State.derate_shown (s : State) (on : Bool) : (s.derate on).now = s.now ∧ (s.derate on).damper = { s.damper with derate := on } ∧
    (∀ e ∈ s.busDies, (s.derate on).get (.grate e) F.DMP_STATUS_DERATE_HW 0 = b2n on) ∧ Only (moduleFlags s) s (s.derate on) ∧
    (s.derate on).chans = s.chans ∧ MemSame s (s.derate on) := by
  have honly : Only (moduleFlags s) s (s.derate on) := (s.derateSet on).showFlags_only
  have hflags : ∀ e ∈ s.busDies, (s.derate on).flagView e = (s.derateSet on).flagsDue := fun e he =>
    State.flagView_showFlags (s := s.derateSet on) he
  obtain ⟨r, hr⟩ := (s.derateSet on).showFlags_regs
  have hregs : s.derate on = { s.derateSet on with regs := r } := hr
  rw [hregs] at honly hflags ⊢
  refine ⟨rfl, rfl, fun e he => ?_, honly, rfl, MemSame.of_mem rfl⟩
  have hview := hflags e he
  simp only [State.flagView, State.flagsDue, Prod.mk.injEq] at hview
  obtain ⟨-, -, -, -, hderate⟩ := hview
  exact hderate

/-- RIDE set by a die, and both feeds' RIDE shown on every die of the bus (R225). -/
theorem State.setRide_shown (s : State) (d : Nat) (on : Bool) :
    (∀ e, (s.setRide d on).die e = (s.setDie d { s.die d with ride := on }).die e) ∧
    (∀ e ∈ (s.setRide d on).busDies, (s.setRide d on).get (.grate e) F.DMP_STATUS_RIDE_A 0 = b2n ((s.setRide d on).riding 0) ∧
      (s.setRide d on).get (.grate e) F.DMP_STATUS_RIDE_B 0 = b2n ((s.setRide d on).riding 2)) ∧
    (s.setRide d on).chans = s.chans ∧ MemSame s (s.setRide d on) := by
  have hflags : ∀ e ∈ (s.setDie d { s.die d with ride := on }).busDies, (s.setRide d on).flagView e = _ := fun e he =>
    State.flagView_showFlags he
  obtain ⟨r, hr⟩ := State.showFlags_regs (s.setDie d { s.die d with ride := on })
  have hregs : s.setRide d on = _ := hr
  rw [hregs] at hflags ⊢
  refine ⟨fun _ => rfl, fun e he => ?_, rfl, MemSame.of_mem rfl⟩
  have hview := hflags e he
  simp only [State.flagView, State.flagsDue, Prod.mk.injEq] at hview
  obtain ⟨hrideA, hrideB, -⟩ := hview
  exact ⟨hrideA, hrideB⟩

/-- Of a die's two dies on the feed, one is itself. -/
theorem State.riding_eq (s : State) (d : Fin 4) : s.riding d = ((s.die d).ride || (s.die (d.val / 2 * 2 + (1 - d.val % 2))).ride) := by
  match d with
  | 0 => rfl
  | 1 => exact Bool.or_comm _ _
  | 2 => rfl
  | 3 => exact Bool.or_comm _ _

theorem State.riding_setRide (s : State) (d : Fin 4) (on : Bool) :
    (s.setRide d on).riding d = (on || (s.die (d.val / 2 * 2 + (1 - d.val % 2))).ride) := by
  obtain ⟨hdie, -⟩ := s.setRide_shown d on
  have hne : d.val / 2 * 2 + (1 - d.val % 2) ≠ d.val := by omega
  rw [State.riding_eq, hdie, hdie, State.die_setDie, if_pos rfl, State.die_setDie, if_neg hne]

/-- A hold of a P2 turn-on ends while it does not fit (R218, R220). -/
theorem holdExpiry_refused {d : Fin 4} {n : Fin 16} {c : Nat} {h : Hold} {j : Job} (hc : 16 * d.val + n.val = c)
    (hhold : (s.chan c).hold = some h) (hjob : h.job = some j) (hcode : j.pkt.code ≠ 0x206)
    (hceil : (s.due h.until_).ceiling c (h.on.ask (s.isTurnOn c h.on) false j.pkt.compared) = none) (hlatched : s.chState c ≠ 7)
    (hprio : s.prio c = 2) (hride : s.riding d = false) (hbad : (s.due h.until_).misfitAll c ≠ []) (hsingle : s.heldChans = [c]) :
    ∃ t, exec (.holdExpiry d n) s = .next t ∧ t.now = max s.now h.until_ ∧ (t.chan c).hold = none ∧ t.cq c F.CH_STATE_HELD = 0 ∧
      t.backward j.side d = s.backward j.side d ++
        [⟨j, stBudget, budgetDetail 0 (((s.due h.until_).misfitAll c).headD 0), []⟩] ∧
      t.chState c = s.chState c ∧ ChansBut [c] s t ∧ MemSame s t := by
  have hd : c / 16 = d.val := by omega
  have horder : (s.due h.until_).heldOrder = [c] := State.heldOrder_single hsingle
  have hjudge := State.judgeHeld_expired (s := s.due h.until_) hhold hjob hceil hlatched hprio (hd.symm ▸ hride) hbad (le_max_right _ _)
  have hwork : Judged (s.due h.until_) ((s.due h.until_).judgeHeld c) := State.judgeHeld_judged _ c
  have hexec : exec (.holdExpiry d n) s = .next ((s.due h.until_).judgeHeld c) := by
    unfold exec execHoldExpiry
    dsimp only
    rw [hc, hhold]
    dsimp only
    rw [horder]
    rfl
  rw [State.holdEnd_refused hjob hcode, hd] at hjudge
  rw [hjudge] at hexec hwork
  refine ⟨_, hexec, hwork.now, ?_, ?_, ?_, ?_, ?_, hwork.memSame⟩
  · rw [State.chan_dieReply, State.chan_budgetRefused, State.chan_cw, State.chan_setChan_self]
  · rw [State.cq_dieReply, State.cq_budgetRefused _ _ _ (by decide) (by decide), State.cq_cw_self, Nat.zero_mod]
  · rw [State.dieReply_backward]
    rfl
  · rw [State.chState, State.cq_dieReply, State.cq_budgetRefused _ _ _ (by decide) (by decide), State.cq_cw_fld _ _ _ _ (by decide)]
    rfl
  · intro b hb
    rw [State.chan_dieReply, State.chan_budgetRefused, State.chan_cw, State.chan_setChan, if_neg (by simpa using hb)]
    rfl

/-- Settles O25: each clause by what its command shows on every die of the bus, the last one by the judgement of the only held turn-on. -/
theorem damperEvents : Obligations.DamperEvents := by
  unfold Obligations.DamperEvents
  refine ⟨fun s coolant pl silent hne hall => budgetExchange_sensorsOut hne hall,
    fun s b e hbus hover hreserve hshed hmore => budgetOverTime_over hbus hover hreserve hshed hmore,
    fun s b e hbus hover hreserve => budgetOverTime_reserve hbus hover hreserve,
    fun s b e f hbus hover hreserve hef hnow hless =>
      ⟨_, budgetOverTime_under hbus hover hreserve hef hnow (not_lt_of_ge hless), rfl⟩, ?_, ?_, ?_, ?_, ?_,
    fun s d n c h j hc hhold hjob hcode hceil hlatched hprio hride hbad hsingle =>
      holdExpiry_refused hc hhold hjob hcode hceil hlatched hprio hride hbad hsingle⟩
  · intro s hbus hhot
    obtain ⟨hnow, hdamper, hshown, honly, hchans, hmem⟩ := s.derate_shown true
    exact ⟨_, congrArg ok ((if_neg hbus).trans (if_pos hhot)), hdamper, hshown, honly, hchans, hnow, hmem⟩
  · intro s e hbus hcool hsince
    obtain ⟨hnow, hdamper, hshown, honly, hchans, hmem⟩ := (s.due (e + 100000000)).derate_shown true
    refine ⟨_, congrArg ok ((if_neg hbus).trans ((if_neg (not_lt_of_ge hcool)).trans ?_)), hnow, hdamper, hshown, honly, hchans, hmem⟩
    rw [hsince]
  · intro s e hsince
    obtain ⟨hnow, hdamper, hshown, honly, hchans, hmem⟩ := (s.due (e + 10000000000)).derate_shown false
    refine ⟨_, congrArg ok ?_, hnow, hdamper, hshown, honly, hchans, hmem⟩
    rw [hsince]
  · intro s d hpresent
    obtain ⟨-, hshown, hchans, hmem⟩ := s.setRide_shown d true
    exact ⟨_, congrArg ok (if_pos hpresent), s.riding_setRide d true, hshown, hchans, hmem⟩
  · intro s d hpresent hother
    obtain ⟨-, hshown, hchans, hmem⟩ := s.setRide_shown d false
    exact ⟨_, congrArg ok (if_pos hpresent), (s.riding_setRide d false).trans (by rw [hother]; rfl), hshown, hchans, hmem⟩

end Sys2Proof.Machine
end

section
/-! The allowances of a budget exchange: the claims that the dies send, and their shares of what the budget leaves (R213, R214, R216). -/
namespace Sys2Proof.Machine
open Sys2Proof

variable {s t u : State} {b : Nat}

/-! ## What claims and budgets look at -/

/-- Register fields that show the claims and the conditions of the module. -/
def bookFlds : List Fld := flagFlds ++ [F.DMP_CLAIM, F.DMP_P0]

/-- `t` is `s` but for what the dies show and send of claims and conditions. -/
def Booked (s t : State) : Prop := DieWork bookFlds s t ∧ t.chans = s.chans

theorem Booked.refl (s : State) : Booked s s := ⟨DieWork.refl _ s, rfl⟩

theorem Booked.set (h : Booked s t) {k : Holder} {f : Fld} (hf : f ∈ bookFlds) (i v : Nat) : Booked s (t.set k f i v) := ⟨h.1.set hf i v, h.2⟩

theorem Booked.claim (h : Booked s t) (c : Nat) : t.claim c = s.claim c := by
  obtain ⟨hwork, hchans⟩ := h
  have hcq (g : Fld) (hg : ∀ f ∈ bookFlds, g.reg ≠ f.reg ∨ g.lo ≠ f.lo) : t.cq c g = s.cq c g := hwork.get _ g _ hg
  rw [State.claim, State.chState, State.ci, hcq _ (by decide), hcq _ (by decide), State.widen, State.is, hwork.get _ _ _ (by decide),
    State.chan, hchans]
  rfl

theorem Booked.noFeedDie (h : Booked s t) (d : Nat) : t.noFeedDie d = s.noFeedDie d := by
  have hbus := h.1.onBus d
  simp only [DieSt.onBus, Prod.mk.injEq] at hbus
  obtain ⟨hpowered, -, hgone⟩ := hbus
  rw [State.noFeedDie, State.is, h.1.get _ _ _ (by decide), State.dieRuns, hpowered, State.present, h.1.absent, hgone]
  rfl

theorem Booked.dieClaim (h : Booked s t) (d b : Nat) (p0 : Bool) : t.dieClaim d b p0 = s.dieClaim d b p0 := by
  have hprio : t.prio = s.prio := funext fun c => h.1.get _ _ _ (by decide)
  simp only [State.dieClaim, h.noFeedDie, hprio, h.claim]

theorem Booked.heldOn (h : Booked s t) (b : Nat) : t.heldOn b = s.heldOn b := by
  simp only [State.heldOn, State.heldChans, State.chan, h.2]

theorem Booked.budget (h : Booked s t) : t.budget 1 = s.budget 1 := by
  have hget (d : Nat) : t.get (.grate d) F.DMP_BUDGET_MOD 0 = s.get (.grate d) F.DMP_BUDGET_MOD 0 := h.1.get _ _ _ (by decide)
  simp only [State.budget, if_true, State.leastOf, h.1.busDies, hget]

theorem Booked.reserve (h : Booked s t) : t.reserve 1 = s.reserve 1 := by
  have hget (d : Nat) : t.get (.grate d) F.DMP_RES_MOD 0 = s.get (.grate d) F.DMP_RES_MOD 0 := h.1.get _ _ _ (by decide)
  simp only [State.reserve, if_true, State.mostOf, h.1.busDies, hget]

/-- With all four dies on the bus the sums are those of their claims. -/
theorem State.sums_all (hall : s.busDies = [0, 1, 2, 3]) (b : Nat) :
    s.sumP0 b = s.dieClaim 0 b true + s.dieClaim 1 b true + s.dieClaim 2 b true + s.dieClaim 3 b true ∧
    s.sumPn b = s.dieClaim 0 b false + s.dieClaim 1 b false + s.dieClaim 2 b false + s.dieClaim 3 b false := by
  have hrange : List.range 4 = [0, 1, 2, 3] := rfl
  simp [State.sumP0, State.sumPn, hall, hrange]

/-! ## The turn of one die (R216 steps 1 to 4) -/

/-- A table of the four budgets. -/
def claimTab (f : Nat → Nat) : Tab Nat := (List.range 4).foldl (fun t i => Tab.put 0 t (i + 1) (f (i + 1))) []

theorem at_claimTab (f : Nat → Nat) (hb : 1 ≤ b ∧ b ≤ 4) : Tab.at 0 (claimTab f) b = f b := by
  obtain rfl | rfl | rfl | rfl : b = 1 ∨ b = 2 ∨ b = 3 ∨ b = 4 := by omega
  all_goals
    unfold claimTab
    rw [show List.range 4 = [0, 1, 2, 3] from rfl]
    simp [Tab.at_put]

theorem budgetsOf_bounds {d : Nat} (hd : d < 4) (hb : b ∈ budgetsOf d) : 1 ≤ b ∧ b ≤ 4 := by
  simp only [budgetsOf, feedOf, List.mem_cons, List.not_mem_nil, or_false] at hb
  omega

/-- The share of each die in what budget `b` leaves. -/
def State.shareOf (s : State) (b : Nat) : Nat :=
  let f := (s.budget b - max (s.sumP0 b) (s.reserve b) - s.sumPn b).toNat
  if s.heldOn b then 0 else if b = 2 ∨ b = 3 then f / 2 else f / 4

/-- Die `d` shows the claims `p0` and `pn` of the module. -/
def State.claimsShown (s : State) (d : Nat) (p0 pn : List Nat) : State :=
  s.each (List.range 4) (fun s i => (s.set (.grate d) F.DMP_CLAIM (i + 1) (sigWord (p0.getD i 0 + pn.getD i 0))).set (.grate d) F.DMP_P0 (i + 1)
    (sigWord (p0.getD i 0)))

/-- What die `d` sends of its own claims, and its allowances, of the shares `l`. -/
def State.claimsSent (s : State) (d : Nat) (l : List Nat) : State :=
  let allow := claimTab (fun b => if decide (b ∈ budgetsOf d) then s.dieClaim d b false + l.getD (b - 1) 0 else 0)
  s.setDie d { s.die d with
    sentC0 := claimTab (fun b => s.dieClaim d b true), sentCn := claimTab (fun b => s.dieClaim d b false), allow := allow, known := allow }

theorem State.allot_eq (s : State) : s.allot = s.each s.busDies (fun t d =>
    (t.claimsShown d ((List.range 4).map (fun i => s.sumP0 (i + 1))) ((List.range 4).map (fun i => s.sumPn (i + 1)))).claimsSent d
      ((List.range 4).map (fun i => s.shareOf (i + 1)))) := rfl

theorem Booked.claimsShown (h : Booked s t) (d : Nat) (p0 pn : List Nat) : Booked s (t.claimsShown d p0 pn) :=
  State.each_keeps (P := Booked s) (fun _ _ h => (h.set (by decide) _ _).set (by decide) _ _) _ h

theorem Booked.claimsSent (h : Booked s t) (d : Nat) (l : List Nat) : Booked s (t.claimsSent d l) := ⟨h.1.setDie d, h.2⟩

/-- What die `d` has sent and its allowances. -/
def State.sentView (s : State) (d : Nat) : Tab Nat × Tab Nat × Tab Nat := ((s.die d).sentC0, (s.die d).sentCn, (s.die d).allow)

theorem State.sentView_claimsShown (s : State) (d e : Nat) (p0 pn : List Nat) : (s.claimsShown d p0 pn).sentView e = s.sentView e := by
  have hregs : RegsBut s (s.claimsShown d p0 pn) := State.each_keeps (fun _ _ h => (h.set _ _ _ _).set _ _ _ _) _ (RegsBut.refl s)
  obtain ⟨r, hr⟩ := hregs
  rw [hr]
  rfl

theorem State.sentView_claimsSent_ne (s : State) (l : List Nat) {d e : Nat} (hne : e ≠ d) : (s.claimsSent d l).sentView e = s.sentView e := by
  rw [State.sentView, State.claimsSent, State.die_setDie, if_neg hne, State.sentView]

/-- What a die is to send, and its allowances, of the shares `l`. -/
def State.sentDue (s : State) (d : Nat) (l : List Nat) : Tab Nat × Tab Nat × Tab Nat :=
  (claimTab (fun b => s.dieClaim d b true), claimTab (fun b => s.dieClaim d b false),
   claimTab (fun b => if decide (b ∈ budgetsOf d) then s.dieClaim d b false + l.getD (b - 1) 0 else 0))

theorem Booked.sentView_claimsSent (h : Booked s t) (d : Nat) (l : List Nat) : (t.claimsSent d l).sentView d = s.sentDue d l := by
  rw [State.sentView, State.claimsSent, State.die_setDie_self, State.sentDue]
  simp only [h.dieClaim]

/-! ## The claims shown and sent -/

theorem State.allot_booked (s : State) : Booked s s.allot :=
  State.each_keeps (P := Booked s) (fun _ d h => (h.claimsShown d _ _).claimsSent d _) _ (Booked.refl s)

theorem State.sentView_allot {d : Nat} (hd : d ∈ s.busDies) :
    s.allot.sentView d = s.sentDue d ((List.range 4).map (fun i => s.shareOf (i + 1))) := by
  have hself : ∀ t, Booked s t → (State.claimsSent _ d _).sentView d = _ := fun t h => (h.claimsShown d
    ((List.range 4).map (fun i => s.sumP0 (i + 1))) ((List.range 4).map (fun i => s.sumPn (i + 1)))).sentView_claimsSent d
      ((List.range 4).map (fun i => s.shareOf (i + 1)))
  rw [State.allot_eq]
  refine State.each_of_mem_where (P := Booked s) (Q := fun t => t.sentView d = _) hd (fun _ e h => (h.claimsShown e _ _).claimsSent e _)
    hself (fun t e h hv => ?_) (Booked.refl s)
  by_cases hde : d = e
  · exact hde ▸ hself t h
  · exact (State.sentView_claimsSent_ne _ _ hde).trans ((t.sentView_claimsShown e d _ _).trans hv)

theorem Booked.showFlags (h : Booked s t) : Booked s t.showFlags :=
  State.each_keeps (P := Booked s) (fun _ _ h => (((((h.set (by decide) _ _).set (by decide) _ _).set (by decide) _ _).set (by decide) _ _).set
    (by decide) _ _).set (by decide) _ _) _ h

theorem State.sentView_showFlags (s : State) (d : Nat) : s.showFlags.sentView d = s.sentView d := by
  obtain ⟨r, hr⟩ := s.showFlags_regs
  rw [hr]
  rfl

/-- What a die of the bus has sent at the end of an exchange, by its claims, and its allowance on the module budget. -/
theorem State.sent_exchanged {d : Nat} (hd : d < 4) (hbus : d ∈ s.busDies) :
    (∀ b ∈ budgetsOf d, Tab.at 0 (s.allot.showFlags.die d).sentCn b = s.dieClaim d b false ∧
      Tab.at 0 (s.allot.showFlags.die d).sentC0 b = s.dieClaim d b true) ∧
    Tab.at 0 (s.allot.showFlags.die d).allow 1 = s.dieClaim d 1 false + s.shareOf 1 := by
  have hview := (s.allot.sentView_showFlags d).trans (State.sentView_allot hbus)
  simp only [State.sentView, State.sentDue, Prod.mk.injEq] at hview
  obtain ⟨hc0, hcn, hallow⟩ := hview
  rw [hc0, hcn, hallow]
  refine ⟨fun b hb => ⟨at_claimTab _ (budgetsOf_bounds hd hb), at_claimTab _ (budgetsOf_bounds hd hb)⟩, ?_⟩
  rw [at_claimTab _ (by decide), if_pos (decide_eq_true (show 1 ∈ budgetsOf d from List.mem_cons_self))]
  rfl

/-! ## The allowances fit (R216) -/

/-- Four quarters of what the budget leaves beside the claims and the P0 part `m` fit, where it leaves anything. -/
theorem quarters_fit (B : Int) (c0 c1 c2 c3 m : Nat) : ((c0 + (B - m - (c0 + c1 + c2 + c3 : Nat)).toNat / 4 +
    (c1 + (B - m - (c0 + c1 + c2 + c3 : Nat)).toNat / 4) + (c2 + (B - m - (c0 + c1 + c2 + c3 : Nat)).toNat / 4) +
    (c3 + (B - m - (c0 + c1 + c2 + c3 : Nat)).toNat / 4) + m : Nat) : Int) ≤ max B ((c0 + c1 + c2 + c3 + m : Nat) : Int) := by
  omega

/-- The claims sent and the allowances of an exchange at which all four dies are on the bus. -/
theorem State.allowances_fit (hall : s.busDies = [0, 1, 2, 3]) :
    (∀ d : Nat, d < 4 → ∀ b ∈ budgetsOf d, Tab.at 0 (s.allot.showFlags.die d).sentCn b = s.allot.showFlags.dieClaim d b false ∧
      Tab.at 0 (s.allot.showFlags.die d).sentC0 b = s.allot.showFlags.dieClaim d b true) ∧
    (s.allot.showFlags.heldOn 1 = false → ((Tab.at 0 (s.allot.showFlags.die 0).allow 1 + Tab.at 0 (s.allot.showFlags.die 1).allow 1 +
      Tab.at 0 (s.allot.showFlags.die 2).allow 1 + Tab.at 0 (s.allot.showFlags.die 3).allow 1 +
      max (s.allot.showFlags.sumP0 1) (s.allot.showFlags.reserve 1) : Nat) : Int) ≤ max (s.allot.showFlags.budget 1)
        ((s.allot.showFlags.sumPn 1 + max (s.allot.showFlags.sumP0 1) (s.allot.showFlags.reserve 1) : Nat) : Int)) := by
  have hbooked : Booked s s.allot.showFlags := s.allot_booked.showFlags
  have hsent {d : Nat} (hd : d < 4) := State.sent_exchanged hd (show d ∈ s.busDies by rw [hall]; exact List.mem_range.2 hd)
  constructor
  · intro d hd b hb
    obtain ⟨hclaims, -⟩ := hsent hd
    rw [hbooked.dieClaim, hbooked.dieClaim]
    exact hclaims b hb
  · intro hfree
    have hshare : s.shareOf 1 = (s.budget 1 - max (s.sumP0 1) (s.reserve 1) - s.sumPn 1).toNat / 4 := by
      rw [hbooked.heldOn] at hfree
      rw [State.shareOf, hfree]
      rfl
    obtain ⟨hp0, hpn⟩ := State.sums_all hall 1
    obtain ⟨hp0', hpn'⟩ := State.sums_all (hbooked.1.busDies.trans hall) 1
    simp only [hbooked.dieClaim, ← hp0] at hp0'
    simp only [hbooked.dieClaim, ← hpn] at hpn'
    rw [(hsent (d := 0) (by decide)).2, (hsent (d := 1) (by decide)).2, (hsent (d := 2) (by decide)).2, (hsent (d := 3) (by decide)).2, hp0', hpn',
      hbooked.budget, hbooked.reserve, hshare, hpn]
    exact quarters_fit _ _ _ _ _ _

/-! ## The dies that send -/

theorem State.sent_view (s : State) (d : Nat) : ((s.sent 0).die d).powered = (s.die d).powered ∧ (s.sent 0).absent = s.absent :=
  State.each_keeps (P := fun t => (t.die d).powered = (s.die d).powered ∧ t.absent = s.absent)
    (f := fun s d => s.setDie d { s.die d with present := !(0 : BitVec 4).getLsbD d })
    (fun t e h => by
      rw [State.die_setDie]
      split
      · next he => exact ⟨he ▸ h.1, h.2⟩
      · exact h) _ ⟨rfl, rfl⟩

/-- When no die is silent, each of them sends. -/
theorem State.sent_present (s : State) {d : Nat} (hd : d < 4) : ((s.sent 0).die d).present = true := by
  refine State.each_of_mem (P := fun t => (t.die d).present = true) (List.mem_range.2 hd) (fun t => ?_) (fun t e h => ?_) s
  · rw [State.die_setDie_self]
    simp
  · rw [State.die_setDie]
    split
    · simp
    · exact h

theorem State.busDies_sent (h : ∀ d : Nat, d < 4 → (s.die d).powered = true ∧ s.present (dieUnit d) = true) :
    (s.sent 0).busDies = [0, 1, 2, 3] := by
  refine (List.filter_eq_self.2 fun d hd => ?_ : (s.sent 0).busDies = List.range 4)
  obtain ⟨hpowered, hpresent⟩ := h d (List.mem_range.1 hd)
  obtain ⟨hpowered', habsent⟩ := s.sent_view d
  rw [s.sent_present (List.mem_range.1 hd), State.present, habsent, ← State.present, hpresent, hpowered', hpowered]
  rfl

/-- Settles O24: the claims sent are those of the state at the end, since what follows them writes only what the dies show, and the four shares
are quarters of what the budget leaves. -/
theorem budgetAllowances : Obligations.BudgetAllowances := by
  unfold Obligations.BudgetAllowances
  intro s coolant pl _ hdies
  have hbus := State.busDies_sent hdies
  obtain ⟨-, hmem⟩ := s.sent_rest 0
  refine ⟨_, exec_budgetExchange_cons hbus, ?_⟩
  generalize (s.sent 0).coolantRead 0 coolant = c
  generalize (pl.map (fun w => w.toNat)).getD (47 * q20) = p
  obtain ⟨r, hr⟩ := (s.sent 0).showModule_regs c (coolantBad coolant) p
  rw [hr]
  have hwork := State.exchanged_work { s.sent 0 with regs := r } 0 (decide (0 ≠ 0 ∨ [1, 2, 3].length < 3))
  have hjudged := State.judged_work { s.sent 0 with regs := r } 0 (decide (0 ≠ 0 ∨ [1, 2, 3].length < 3))
  obtain ⟨hsent, hfit⟩ := State.allowances_fit (hjudged.busDies.trans hbus)
  exact ⟨hsent, hfit, MemSame.of_mem (hwork.mem.trans hmem)⟩

end Sys2Proof.Machine
end
